-- ==== Sys2Proof/Word.lean ====
section
/-! DEFINITION. The word types of the register space (spec/02, R39) and the plainest arithmetic on them: fields of a word, the
cyclic checks the Daend link uses (spec/06 R225, spec/10 R408), and byte strings. -/

namespace Sys2Proof

/-- A register word: 32 bits (R39). -/
abbrev Word := BitVec 32

/-- A byte. -/
abbrev Byte := BitVec 8

/-- Bits `hi` down to `lo` of a natural number read as a bit string. -/
def bits (n hi lo : Nat) : Nat := (n >>> lo) % 2 ^ (hi + 1 - lo)

/-- Bit `k` of a natural number. -/
def bit (n k : Nat) : Bool := n.testBit k

/-- 1 for true and 0 for false. -/
def b2n (b : Bool) : Nat := if b then 1 else 0

/-- The word whose value is `n` modulo 2^32. -/
def word (n : Nat) : Word := BitVec.ofNat 32 n

/-- Set bit `k` of `n`. -/
def setBit (n k : Nat) : Nat := n ||| (1 <<< k)

/-- Clear the bits of `mask` in `n`. -/
def clearBits (n mask : Nat) : Nat := n ^^^ (n &&& mask)

/-- ⌈a / b⌉. -/
def ceilDiv (a b : Nat) : Nat := (a + b - 1) / b

/-- One bit step of a left-shifting CRC register of `w` bits with polynomial `poly`. -/
def crcBit (w poly crc : Nat) (inBit : Bool) : Nat :=
  if (crc.testBit (w - 1)) != inBit then ((crc <<< 1) ^^^ poly) % 2 ^ w else (crc <<< 1) % 2 ^ w

/-- One byte through a left-shifting CRC register, most significant bit first. -/
def crcByte (w poly crc b : Nat) : Nat :=
  [7, 6, 5, 4, 3, 2, 1, 0].foldl (fun c k => crcBit w poly c (b.testBit k)) crc

/-- CRC of `w` bits, polynomial `poly` and initial value `init`, over bytes in order. -/
def crc (w poly init : Nat) (bs : List Nat) : Nat := bs.foldl (crcByte w poly) init

/-- CRC-8, x^8 + x^2 + x + 1, initial value 0 (R225). -/
def crc8 (bs : List Nat) : Nat := crc 8 0x07 0 bs

/-- CRC-16, x^16 + x^12 + x^5 + 1, initial value 0xFFFF (R408). -/
def crc16 (bs : List Nat) : Nat := crc 16 0x1021 0xFFFF bs

/-- Byte `k` of a number, byte 0 the least significant. -/
def byteOf (n k : Nat) : Nat := (n >>> (8 * k)) % 256

/-- The low `k` bytes of a number, least significant first. -/
def bytesOf (n k : Nat) : List Nat := (List.range k).map (byteOf n)

/-- The number a list of bytes spells, least significant first. -/
def ofBytes (bs : List Nat) : Nat := bs.foldr (fun b acc => b % 256 + 256 * acc) 0

/-- The smallest `k < n` with `p k`, if any. -/
def firstBelow (n : Nat) (p : Nat → Bool) : Option Nat := (List.range n).find? p

/-- The members `k < n` with `p k`, in rising order. -/
def allBelow (n : Nat) (p : Nat → Bool) : List Nat := (List.range n).filter p

end Sys2Proof
end

