-- ==== Sys2Proof/Syntax.lean ====
section
/-! DEFINITION. The commands of the block: what its surroundings can do to it (register accesses, events on its links, pins,
clocks and supplies, messages), one constructor of `Instr` for each row of spec/opcode_table.json, with the operands the spec
gives the step. No row of the table has bits: a command is data, not a word. -/

namespace Sys2Proof

/-! ### Numbers of units (Table SCOPE-2) -/

abbrev PortId := Fin 96
abbrev FaceId := Fin 32
abbrev LaneId := Fin 192
abbrev OctId := Fin 24
abbrev ViId := Fin 1024
abbrev RingId := Fin 4096
abbrev EngId := Fin 64
abbrev ChanId := Fin 24
abbrev SwId := Fin 64
abbrev ClassId := Fin 8
abbrev PoolId := Fin 4
abbrev Feid := BitVec 13
abbrev VecId := Fin 2048
/-- An address of the 64 MiB register space (R39). -/
abbrev SpaceAddr := BitVec 26

/-- Requesters of the register fabric and their stamps (Table PAGES-4). -/
inductive Stamp where
  | face (f : FaceId)
  | fw0 | fw1 | sb | gath | dbg
deriving DecidableEq, Repr

/-- The stamp value of Table PAGES-4. -/
def Stamp.code : Stamp → Nat
  | .face f => f
  | .fw0 => 0x20
  | .fw1 => 0x21
  | .sb => 0x22
  | .gath => 0x23
  | .dbg => 0x24

/-- The register pages of Table PAGES-1, the tenant pages and the ring register sets. A page that the index does not give is
ill-formed (`Pg.ok`). -/
inductive Pg where
  | glb
  | mgmt (k : Nat) | sec (k : Nat) | guard (k : Nat)
  | lane (oct : Nat)
  | pwrg | pwr (chan : Nat)
  | core (k : Nat) | route (k : Nat) | bridge (k : Nat) | mbox (k : Nat)
  | port (p : Nat) | face (f : Nat)
  | schedg | sched (p : Nat)
  | tenant (v : Nat)
  | inst (k : Nat)
  | moverg | eng (e : Nat) | ring (n : Nat)
deriving DecidableEq, Repr

/-- What an access names: an offset of the register space, or an offset of a face's BAR2 (Table PAGES-4). -/
inductive Target where
  | space (a : SpaceAddr)
  | bar2 (off : BitVec 22)
deriving DecidableEq, Repr

/-! ### Transaction layer packets -/

/-- The kinds of packet that ROUTE_MISS_LOG tells apart (spec/09). -/
inductive TlpKind where
  | memRd | memWr | atomic | cfgRd | cfgWr | msg | cpl
deriving DecidableEq, Repr

/-- Completion status. -/
inductive CplStat where
  | sc | ur | crs | ca
deriving DecidableEq, Repr

/-- A TLP as CORE carries it: the header fields the spec uses, the payload length in bytes (of a memory read: the bytes it asks
for) and the payload's words as far as a step reads them. `hdr` is the length of its header and prefixes in bytes; `addr` of a
completion is its Byte Count and of a message its Message Code, and `low` its Lower Address (0 in other TLPs). -/
structure Tlp where
  kind : TlpKind
  hdr : Nat
  addr : BitVec 64
  len : Nat
  rid : BitVec 16
  tag : BitVec 14
  ep : Bool
  ro : Bool
  ido : Bool
  locked : Bool
  stat : CplStat
  cid : BitVec 16
  low : BitVec 7
  words : List Word
deriving DecidableEq, Repr

/-! ### Daend frames (spec/10) -/

/-- A cycle-marker payload (Table CYCLE-4). -/
structure Marker where
  state : Nat
  echoValid : Bool
  boundsValid : Bool
  stratum : Nat
  masterId : Nat
  tTx : Nat
  cycle : Nat
  boundary : Nat
  len : Nat
  echoT1 : Nat
  echoT2 : Nat
deriving DecidableEq, Repr

/-- One entry of a proof release (Table FABRIC-4). -/
structure RelEntry where
  cls : Nat
  gap : Bool
  adopt : Bool
  epoch : Nat
  seq : Nat
deriving DecidableEq, Repr

/-- A link-status payload (Table FABRIC-1). -/
structure LinkStatus where
  sw : Nat
  port : Nat
  retiring : Bool
  live : Nat
  armed : Bool
  armedIdx : Nat
  liveGen : Nat
  armedGen : Nat
  armedCycle : Nat
deriving DecidableEq, Repr

/-- A notice (Table MBOX-1): the 32 bytes, by field. -/
structure Notice where
  skind : Nat
  sid : Nat
  sfeid : Nat
  sepoch : Nat
  repoch : Nat
  ssw : Nat
  user : Nat
  pointer : Nat
  length : Nat
  time : Nat
deriving DecidableEq, Repr

/-- An Ethernet frame as a step sees it: its length with the FCS, whether its FCS is right, whether its IP header carries
ECT(0) or ECT(1) (R338), and whether CE is set. -/
structure Eth where
  len : Nat
  fcsOk : Bool
  ect : Bool
  ce : Bool
deriving DecidableEq, Repr

/-- What a frame carries (the TYPE field of Table FABRIC-2, and the OP byte of management and mailbox frames). -/
inductive Payload where
  | tlp (t : Tlp)
  | eth (e : Eth)
  | notice (n : Notice)
  | outcome (status skind sid sfeid : Nat)
  | linkStatus (l : LinkStatus)
  | domainEvent (code sw : Nat) (feids : List Nat)
  | containReq (cls sw block bit feid : Nat)
  | remoteReq (sw port : Nat) (wr : Bool) (addr val id : Nat)
  | remoteRsp (sw status val id : Nat)
  | auth (op : Nat)
  | stipple (sampler point stomped port cls colour size time cycle seq snap : Nat)
  | otherMgmt (op : Nat)
  | release (es : List RelEntry)
  | pathLoss (swA portA swB : Nat)
  | marker (m : Marker)
  | void
deriving DecidableEq, Repr

/-- A Daend frame (Table FABRIC-2): every field of its header, the trailer's flags, the verdict of the CRC-32C check, and its
payload. A TLP inside one switch is held as the frame that would carry it. -/
structure Frame where
  dest : Nat
  cls : Nat
  src : Nat
  parity : Nat
  colour : Nat
  typ : Nat
  mc : Bool
  retain : Bool
  lock : Bool
  resent : Bool
  hops : Nat
  len : Nat
  seq : Nat
  group : Nat
  ingSw : Nat
  egrSw : Nat
  epoch : Nat
  tag : Nat
  tagEp : Bool
  tagValid : Bool
  hcrc : Nat
  e2eOk : Bool
  bad : Bool
  void : Bool
  body : Payload
deriving DecidableEq, Repr

/-- A Daend frame as its link brings it: its START block, its data blocks with padding and tag, the control blocks that stood
inside it, and its END block (R226); whether one of its blocks stood in an uncorrectable codeword (R170); the number of the link key
and the NUM under which its tag verifies, if any (R248); and the frame that the data blocks spell. -/
structure LinkFrame where
  start : BitVec 64
  data : List (BitVec 64)
  within : List (BitVec 64)
  tail : BitVec 64
  inBad : Bool
  sealedBy : Option (Nat × Nat)
  frame : Frame
deriving DecidableEq, Repr

/-- A transmitter equalisation request: the control word of a Daend training frame (Table LANE-5), or on a PCI Express lane a
preset or coefficients in units of 1/48. -/
inductive EqReq where
  | daend (w : BitVec 16)
  | preset (k : Fin 11)
  | coeffs (pre post : Fin 49)
deriving DecidableEq, Repr

/-- Verdicts of the checks made when a frame's tail arrives (Table CORE-3). -/
structure TailChecks where
  linkOk : Bool
  ideOk : Bool
  e2eOk : Bool
  badFlag : Bool
  lengthOk : Bool
deriving DecidableEq, Repr

/-! ### Events of single blocks -/

/-- Containment domains (Table GUARD-2). `link s` is FAB port s for s < 0x100 and remote switch s − 0x100 otherwise. -/
inductive Dom where
  | lane (j : Nat) | port (p : Nat) | link (k : Nat) | inst (v : Nat) | face (f : Nat) | device
deriving DecidableEq, Repr


/-- A notice window (Table MBOX-4): the tenant page of an instance, the mailbox capability of a face, or MBOX page 0, which
holds one for each stamp. -/
inductive NWin where
  | tenant (v : ViId) | face (f : FaceId) | page
deriving DecidableEq, Repr


/-- Where a frame enters CORE: a port, or an internal source (R310). -/
inductive Ing where
  | port (p : Nat) | mover (e : Nat) | bridge | mbox | mgmt | sec | guard | stipple | fabric | sched
deriving DecidableEq, Repr

/-- What arrives at step 1 of Table CORE-1: a Daend frame at a FAB port with its START block, a TLP at an UP or DOWN port, or
a frame made inside the part. -/
inductive Arrival where
  | fab (p : PortId) (lf : LinkFrame)
  | tlp (p : PortId) (t : Tlp)
  | inner (src : Ing) (f : Frame)
deriving DecidableEq, Repr


/-- What a read of the plates meets (R392 to R394): a single-bit error of an entry, an uncorrectable one, one together with
another entry of its group of eight or with the group's parity, or an error in one or both copies of the lookup index. -/
inductive PlateEcc where
  | single | uncorrectable | withEntry (j : Fin 8) | withParity | indexCopy | indexBoth
deriving DecidableEq, Repr

/-- One BAR of a presented function as sizing finds it (R721): the function's number within its entry, the BAR number, the log2
of its size, and whether it is a 64-bit and a prefetchable one. -/
structure BarLayout where
  fn : Fin 4096
  bar : Fin 6
  log2 : Fin 64
  wide : Bool
  prefetch : Bool
deriving DecidableEq, Repr

/-- SPDM requests that SEC supports (Table SEC-7), and any other. -/
inductive SpdmReq where
  | getVersion | getCapabilities | negotiateAlgorithms | getDigests | getCertificate (slot : Fin 8) | challenge (slot : Fin 8)
  | getMeasurements (index : Fin 256) | keyExchange (slot : Fin 8) | finish | heartbeat | keyUpdate | endSession
  | other
deriving DecidableEq, Repr

/-- IDE_KM messages (R647): KEY_PROG names the stream's ID beside the key; a stream is 0 for the link stream, 1 + s for selective
stream s, and a key is one of a set, direction and sub-stream (Table SEC-8). -/
inductive IdeKm where
  | query
  | keyProg (stream : Fin 5) (set : Fin 2) (key : Fin 6) (id : Fin 256)
  | goSet (stream : Fin 5) (set : Fin 2) (key : Fin 6)
  | stopSet (stream : Fin 5) (set : Fin 2) (key : Fin 6)
deriving DecidableEq, Repr

/-- What an IDE_KM or TDISP message arrives on: the DOE of a face, or MCTP. -/
abbrev DoeOrMctp := Option FaceId


/-- What the checks of an image read (R144): the 256 bytes of its header (Table BOOT-8), the signature at SIG_OFFSET, and the
section table at TABLE_OFFSET, one number of 64 bytes for each entry (Table BOOT-9); byte 0 of each in bits 7:0. -/
structure ImgHeader where
  raw : BitVec 2048
  sig : BitVec 768
  table : List (BitVec 512)
deriving DecidableEq, Repr

/-- Counters mapped directly, outside a counter window (R69): the PRBS counters of a lane, the cycle number, fabric time, and the
cycle at which a port's hatch list started. -/
inductive DirectCnt where
  | prbsErr (l : LaneId) | prbsBits (l : LaneId) | cycNum | fabTime | hatchStart (p : PortId)
deriving DecidableEq, Repr

/-- Register-mapped FIFOs (R75) beside the notice windows: GUARD_ELOG_READ, ROUTE_MISS_LOG and a ring's completion FIFO. -/
inductive FifoWin where
  | elog | missLog | cpl (n : RingId)
deriving DecidableEq, Repr


/-- The register of a function's configuration space that a configuration request's offset falls in, as far as a rule gives it an
effect; `window` is an offset of the notice window of Table MBOX-4 and `word` a dword of WMB2f and WMB2f + 1, both in the face's
mailbox capability. -/
inductive CfgReg where
  | command | header | bar (k : Fin 6) | romBar | buses | memWindow | prefWindow | prefBase | prefLimit | bridgeControl
  | deviceControl | deviceControl2 | deviceControl3 | linkControl | slot | pmcsr
  | msix | msixTable | msixPba | ptmControl | pasid
  | window (off : Fin 0x50) | word (off : Fin 0x10) | other
deriving DecidableEq, Repr

/-- A configuration request: TYPE 1 or TYPE 0, the bus, device, function and offset it names, the register there, and the dword of
a write. -/
structure CfgReq where
  rid : BitVec 16
  tag : BitVec 14
  typ1 : Bool
  bus : BitVec 8
  dev : Fin 32
  fn : Fin 8
  off : BitVec 12
  reg : CfgReg
  write : Option Word
deriving DecidableEq, Repr

/-- The commands: one constructor for each row of the opcode table, in its order. -/
inductive Instr where
  /-- REGISTER_WRITE (R43): a write of `n` dwords to `t` is granted: `full` when its byte enables are all set, `ep` when
  it is poisoned, and its first two dwords. -/
  | registerWrite (st : Stamp) (t : Target) (n : Nat) (full ep : Bool) (lo hi : Word)
  /-- UNMAPPED_READ (R41): a read of one dword at `t`, where there is no register, is granted. -/
  | unmappedRead (st : Stamp) (t : Target)
  /-- BAD_LENGTH_READ (R46): a read of `n` dwords at `t` is granted. -/
  | badLengthRead (st : Stamp) (t : Target) (n : Nat)
  /-- UPPER_COMMIT_WRITE (R49): a write of `hi` to the upper dword, at `a`, of an upper-commit register is granted. -/
  | upperCommitWrite (st : Stamp) (a : SpaceAddr) (full : Bool) (hi : Word)
  /-- BAR0_REQUEST (R273): the arbiter comes to a memory request of face `f` to its BAR0. -/
  | bar0Request (f : FaceId) (write : Bool) (off : SpaceAddr) (n : Nat) (full ep : Bool) (lo hi : Word)
  /-- BLOCK_SOFT_RESET (R56): a granted write of `v`, with SOFT_RESET set, to BLK_CTRL of a page. -/
  | blockSoftReset (st : Stamp) (pg : Pg) (v : Word)
  /-- BLOCK_SOFT_RESET_DONE (R717): the block has finished its reset, or reached the bound of its chapter. -/
  | blockSoftResetDone (pg : Pg)
  /-- BLOCK_QUIESCE (R54): a granted write of `v`, with QUIESCE set, to BLK_CTRL of a page. -/
  | blockQuiesce (st : Stamp) (pg : Pg) (v : Word)
  /-- QUIESCE_DRAINED (R214): no work is left in flight in the block. -/
  | quiesceDrained (pg : Pg)
  /-- INT_CAUSE_WRITE (R63): a granted write of `v` to INT_CAUSE or, with `en`, to INT_EN of a page. -/
  | intCauseWrite (st : Stamp) (pg : Pg) (en : Bool) (v : Word)
  /-- COUNTER_CLEAR (R66): a granted write of `v` to CNT_CLR of a page. -/
  | counterClear (st : Stamp) (pg : Pg) (v : Word)
  /-- COUNTER_LOW_READ (R68): a read of CNT_LO of a page is granted. -/
  | counterLowRead (st : Stamp) (pg : Pg) (full : Bool)
  /-- DIRECT_COUNTER_READ (R69): a read of the low dword of `c` is granted. -/
  | directCounterRead (st : Stamp) (c : DirectCnt) (full : Bool)
  /-- READ_CLEAR (R43): a read of dword 2 of PWR_TELEM of a channel is granted. -/
  | readClear (st : Stamp) (c : ChanId) (full : Bool)
  /-- FIFO_POP (R75): a read of dword 0 of the FIFO's window is granted. -/
  | fifoPop (st : Stamp) (w : FifoWin) (full : Bool)
  /-- VKEEP_RISE (R99): VKEEP rises above 5.8 V. -/
  | vkeepRise
  /-- VKEEP_LOSS (R99): VKEEP has stayed below 5.5 V for 10 µs. -/
  | vkeepLoss
  /-- RAIL_LOSS (R104): a switch-die rail has stayed below 85 % of its nominal value for 2 µs. -/
  | railLoss
  /-- COLD_RESET_END (R102): the conditions of R102 have held for 2 ms. -/
  | coldResetEnd
  /-- CRYSTAL_LOSS (R121): the crystal clock is lost. -/
  | crystalLoss
  /-- DEV_RST_N_ASSERT (R125): DEV_RST_N has been low for 1 µs. -/
  | devRstNAssert
  /-- DEV_RST_N_RELEASE (R103): DEV_RST_N goes high. -/
  | devRstNRelease
  /-- WARM_RESET_REQUEST (R132): a granted write of `v` to GLB_RESET_CTRL. -/
  | warmResetRequest (st : Stamp) (v : Word)
  /-- WARM_RESET_END (R141): 10 µs have passed since a warm reset that no pin holds started. -/
  | warmResetEnd
  /-- ROM_CHECKS_DONE (R139): the boot ROM's start-up checks are complete. -/
  | romChecksDone (ok : Bool)
  /-- FIRMWARE_SLOT_SELECT (R137): the boot ROM selects a firmware slot: which flash answers SFDP, which directory copies
  have a good CRC-32C (bit 2f + c copy c of flash f), and the headers of the images in slots A and B. -/
  | firmwareSlotSelect (sfdp : BitVec 2) (crc : BitVec 4) (hA hB : ImgHeader)
  /-- FIRMWARE_START (R137): the firmware selected starts. -/
  | firmwareStart
  /-- CONFIG_HEADER_VERIFY (R144): SEC has checked `h`, the header of the configuration slot that R138 selects. -/
  | configHeaderVerify (h : ImgHeader)
  /-- CONFIG_SECTION_APPLY (R146): the next section of the configuration image, in the order of R146, has been read whole. -/
  | configSectionApply (payload : List Byte)
  /-- CONFIG_APPLY_DONE (R146): every section of the configuration image has been applied. -/
  | configApplyDone
  /-- FW_CONFIRM (R153): a granted write of `v` to MGMT_FW_SLOT. -/
  | fwConfirm (st : Stamp) (v : Word)
  /-- CONFIRM_TIMEOUT (R153): 5 s have passed since firmware started from a PENDING slot. -/
  | confirmTimeout
  /-- QUIET_ENTRY (R158): a granted write of `v` to GLB_QUIET_CTRL. -/
  | quietEntry (st : Stamp) (v : Word)
  /-- QUIET_CHANNELS_OFF (R158): the quiesce of quiet entry has ended. -/
  | quietChannelsOff
  /-- QUIET_STATE (R158): the channels are off, and the switch die goes into the quiet state. -/
  | quietState
  /-- WAKE_VWAKE (R159): VWAKE has been above its threshold for 1 ms. -/
  | wakeVwake
  /-- WAKE_TIMER_EXPIRY (R159): the wake timer expires. -/
  | wakeTimerExpiry
  /-- WAKE_PRSNT (R159): a PP_PRSNT_N input changes. -/
  | wakePrsnt
  /-- WAKE_FPERST (R159): FPERST_N of face `f` rises, as a wake source. -/
  | wakeFperst (f : FaceId)
  /-- FWAKE_RELEASE_TIMEOUT (R161): 1 s has passed since the end of the cold reset after a wake. -/
  | fwakeReleaseTimeout
  /-- THERMAL_SAMPLE (R111): the 34 temperature sensors are sampled, in signed sixteenths of 1 °C. -/
  | thermalSample (t : List (BitVec 16))
  /-- REFCLK_LOSS (R119): REFCLK_B[k], or with none REFCLK_A, is declared lost. -/
  | refclkLoss (k : Option (Fin 6))
  /-- REFCLK_RESTORE (R119): REFCLK_B[k], or with none REFCLK_A, has been within range for 1 ms. -/
  | refclkRestore (k : Option (Fin 6))
  /-- FACE_RESET_PIN (R303): FPERST_N[f] goes low. -/
  | faceResetPin (f : FaceId)
  /-- HOT_RESET_RECEIVED (R124): a hot reset arrives on the UP link of face `f`. -/
  | hotResetReceived (f : FaceId)
  /-- FPERST_RELEASE (R305): FPERST_N[f] rises. -/
  | fperstRelease (f : FaceId)
  /-- FACE_READY (R305): face `f` has become ready. -/
  | faceReady (f : FaceId)
  /-- PLL_LOCK (R187): the A-PLL (isB = false) or the B-PLL of octet `oct` locks. -/
  | pllLock (oct : OctId) (isB : Bool)
  /-- PLL_UNLOCK (R205): the A-PLL or the B-PLL of octet `oct` loses lock. -/
  | pllUnlock (oct : OctId) (isB : Bool)
  /-- SIGNAL_DETECT (R220): the receiver of lane `l` sees a signal. -/
  | signalDetect (l : LaneId)
  /-- CODEWORD_RECEIVED (R170): a codeword with `symErrs` symbol errors arrives on lane `l`; more than 15 are
  uncorrectable. -/
  | codewordReceived (l : LaneId) (symErrs : Nat)
  /-- FILLER_RECEIVED (R169): a FILLER block arrives on lane `l`. -/
  | fillerReceived (l : LaneId)
  /-- ALIGN_RECEIVED (R172): a block stands in an ALIGN slot of lane `l`, its sync header `hdr` and its payload `blk`
  (byte 0 in bits 7:0), `slots` block slots after the last valid ALIGN block. -/
  | alignReceived (l : LaneId) (hdr : BitVec 2) (blk : BitVec 64) (slots : Nat)
  /-- ALIGN_TRANSMIT (R171): the first slot of a 1,056th codeword of lane `l` is due. -/
  | alignTransmit (l : LaneId)
  /-- ALIGN_LOSS (R172): the third consecutive ALIGN slot of lane `l` without a valid ALIGN block passes. -/
  | alignLoss (l : LaneId)
  /-- CDR_LOSS_TIMEOUT (R194): CDR lock of lane `l` has been lost for 1 µs; `signalLost` when its signal went without a
  REST block (R190). -/
  | cdrLossTimeout (l : LaneId) (signalLost : Bool)
  /-- UNCORRECTABLE_LIMIT (R194): a seventeenth uncorrectable codeword arrives on lane `l` within 1 ms. -/
  | uncorrectableLimit (l : LaneId)
  /-- FEC_DEGRADE (R196): corrected symbols of lane `l` exceed 10^-4 over 100 ms. -/
  | fecDegrade (l : LaneId)
  /-- TRAIN_BLOCK_RECEIVED (R176): a TRAIN block arrives on lane `l` with sync header `hdr` and payload `blk` as the lane
  sees them; `want` is what the lane's receiver would ask its partner for next: bits 15:9 of a control word (Table
  LANE-5). -/
  | trainBlockReceived (l : LaneId) (hdr : BitVec 2) (blk : BitVec 64) (want : BitVec 7)
  /-- COEFF_APPLY (R178): the transmitter of lane `l` answers a request. -/
  | coeffApply (l : LaneId) (req : EqReq)
  /-- EQ_RESP_TIMEOUT (R180): the partner of lane `l` has not answered a request within RESP_TIMEOUT. -/
  | eqRespTimeout (l : LaneId)
  /-- TX_TAPS_WRITE (R182): a granted write of `v` to LANE_TX_TAPS of lane `l`. -/
  | txTapsWrite (st : Stamp) (l : LaneId) (v : Word)
  /-- EQ_MODE_WRITE (R183): a granted write of `v` to LANE_EQ_CTRL of lane `l`. -/
  | eqModeWrite (st : Stamp) (l : LaneId) (v : Word)
  /-- REST_IDLE_EXPIRY (R245): nothing has been ready to send on port `p` for REST_IDLE. -/
  | restIdleExpiry (p : PortId)
  /-- REST_RECEIVED (R190): lane `l` decodes a REST block. -/
  | restReceived (l : LaneId)
  /-- REST_EXIT (R191): something becomes ready to send on port `p` in Rest. -/
  | restExit (p : PortId)
  /-- REST_EXIT_FAIL (R193): lane `l` has not regained codeword lock within the exit time. -/
  | restExitFail (l : LaneId)
  /-- LANE_PRBS_CTRL_WRITE (R198): a granted write of `v` to LANE_PRBS_CTRL of lane `l`. -/
  | lanePrbsCtrlWrite (st : Stamp) (l : LaneId) (v : Word)
  /-- PRBS_CHECKER_LOCK (R200): the checker of lane `l` has compared `n` more received bits, after Gray decoding on PAM4,
  of which `errs` differ from the pattern; `word` is the 64-bit word it receives over and over when the pattern is the
  user pattern. -/
  | prbsCheckerLock (l : LaneId) (word : BitVec 64) (n errs : Nat)
  /-- INJECT_ONE_SHOT (R199): a granted write of `v`, with ONE_SHOT set, to LANE_INJ_CTRL of lane `l`. -/
  | injectOneShot (st : Stamp) (l : LaneId) (v : Word)
  /-- INJECT_PERIODIC (R199): the injection period of lane `l` elapses. -/
  | injectPeriodic (l : LaneId)
  /-- LANE_SLIP (R200): a granted write of `v` to LANE_SLIP of lane `l`. -/
  | laneSlip (st : Stamp) (l : LaneId) (v : Word)
  /-- PORT_CFG_APPLY (R210): a granted write of `v`, with APPLY set, to PORT_CFG of port `p`. -/
  | portCfgApply (st : Stamp) (p : PortId) (v : Word)
  /-- PORT_RETRAIN (R213): a granted write of `v`, with RETRAIN set, to PORT_LINK_CTRL of port `p`. -/
  | portRetrain (st : Stamp) (p : PortId) (v : Word)
  /-- LINK_DOWN_DWELL_EXPIRY (R219): port `p` has dwelt in DOWN for 2 ms, or 100 ms after a mismatch or a failed AUTH. -/
  | linkDownDwellExpiry (p : PortId)
  /-- TRAIN_STATE_TIMEOUT (R219): the time limit of the training state of port `p` expires. -/
  | trainStateTimeout (p : PortId)
  /-- DETECT_ABSENT_TIMEOUT (R220): port `p` has spent 100 ms in DETECT. -/
  | detectAbsentTimeout (p : PortId)
  /-- PARAM_BLOCK_RECEIVED (R221): a PARAM block arrives on port `p`. -/
  | paramBlockReceived (p : PortId) (blk : BitVec 64)
  /-- PARAM_REPEAT (R221): 2 µs have passed in PARAM on port `p`. -/
  | paramRepeat (p : PortId)
  /-- AUTH_HELLO (R651): an AUTH HELLO arrives on port `p`. -/
  | authHello (p : PortId)
  /-- AUTH_CERT (R652): an AUTH CERT arrives on port `p`: whether its chain reaches the Stoux root, and its alias
  certificate's DEBUG flag. -/
  | authCert (p : PortId) (chainOk debug : Bool)
  /-- AUTH_PROOF (R652): an AUTH PROOF arrives on port `p`: the verdict on its signature, and the owner digest (byte 0
  lowest), DOMAIN_ID, SWITCH_ID and port it holds. -/
  | authProof (p : PortId) (sigOk : Bool) (owner : BitVec 384) (domain : BitVec 128) (sw port : Nat)
  /-- AUTH_DONE (R653): an AUTH DONE arrives on port `p`, with the verdict on its HMAC. -/
  | authDone (p : PortId) (macOk : Bool)
  /-- DAEND_FRAME_RECEIVED (R228): a Daend link frame has arrived whole on port `p`. -/
  | daendFrameReceived (p : PortId) (lf : LinkFrame)
  /-- ACK_RECEIVED (R233): an ACK block arrives on port `p`. -/
  | ackReceived (p : PortId) (blk : BitVec 64)
  /-- NAK_RECEIVED (R233): a NAK block arrives on port `p`. -/
  | nakReceived (p : PortId) (blk : BitVec 64)
  /-- CREDIT_BLOCK_RECEIVED (R224): a CREDIT block arrives on port `p`. -/
  | creditBlockReceived (p : PortId) (blk : BitVec 64)
  /-- LANEMAP_RECEIVED (R253): a LANEMAP block arrives on port `p`. -/
  | lanemapReceived (p : PortId) (blk : BitVec 64)
  /-- ACK_COALESCE_EXPIRY (R230): ACK_COALESCE has passed since port `p` accepted the first unacknowledged frame. -/
  | ackCoalesceExpiry (p : PortId)
  /-- REPLAY_TIMEOUT (R233): no ACK has advanced on port `p` for TIMEOUT while frames are unacknowledged. -/
  | replayTimeout (p : PortId)
  /-- CREDIT_UPDATE_SEND (R239): ACK_COALESCE has passed since the cumulative value of the pool changed. -/
  | creditUpdateSend (p : PortId) (cls : ClassId) (pool : PoolId)
  /-- CREDIT_REFRESH (R239): 10 µs have passed since port `p` last sent a CREDIT block for every pool. -/
  | creditRefresh (p : PortId)
  /-- CREDIT_STALL_TIMEOUT (R240): frames have waited for credits of the pool for CREDIT_STALL. -/
  | creditStallTimeout (p : PortId) (cls : ClassId) (pool : PoolId)
  /-- EGRESS_FRAME_BOUNDARY (R241): port `p` reaches a frame boundary; bits of `fc`: a PCI Express partner has credits for
  the next posted, non-posted and completion TLP. -/
  | egressFrameBoundary (p : PortId) (fc : BitVec 3)
  /-- NUM_REKEY_THRESHOLD (R251): NUM of port `p` reaches 2^40. -/
  | numRekeyThreshold (p : PortId)
  /-- NUM_EXHAUSTED (R251): NUM of port `p` reaches 2^48. -/
  | numExhausted (p : PortId)
  /-- WIDENING_LANES_READY (R253): the lanes added by a widening of port `p` have finished ALIGN and EQ. -/
  | wideningLanesReady (p : PortId)
  /-- WIDTH_CHANGE_TIMEOUT (R255): a width change of port `p` has not completed within 100 µs. -/
  | widthChangeTimeout (p : PortId)
  /-- LINK_LOSS (R719): every lane of the current set of port `p` loses signal or CDR lock within 1 µs. -/
  | linkLoss (p : PortId)
  /-- PORT_CONTAIN (R260): a granted write of PORT_CONTAIN.CONTAIN of port `p`. -/
  | portContain (st : Stamp) (p : PortId)
  /-- PORT_RELEASE (R260): a granted write of PORT_CONTAIN.RELEASE of port `p`. -/
  | portRelease (st : Stamp) (p : PortId)
  /-- FACE_BIND_WRITE (R264): a granted write of `v` to FACE_BIND of face `f`. -/
  | faceBindWrite (st : Stamp) (f : FaceId) (v : Word)
  /-- PRESENTATION_UPDATE (R271): a granted write of `v` to FACE_PRES[n] of face `f`, or to FACE_BUS_LIMIT. -/
  | presentationUpdate (st : Stamp) (f : FaceId) (n : Option (Fin 255)) (v : Word)
  /-- BAR_SIZING_DONE (R721): the BARs of presented entry `n` of face `f` have been sized. -/
  | barSizingDone (f : FaceId) (n : Fin 255) (bars : List BarLayout)
  /-- CONFIG_REQUEST (R374): the host of face `f` sends the configuration request `c`. -/
  | configRequest (f : FaceId) (c : CfgReq)
  /-- HOST_MEMORY_REQUEST (R280): the host of face `f` sends the memory read, write or AtomicOp `t`. -/
  | hostMemoryRequest (f : FaceId) (t : Tlp)
  /-- HELD_REQUEST_ADMIT (R32): a pool tag of face `f` is free, and the oldest request that waits for one may take it. -/
  | heldRequestAdmit (f : FaceId)
  /-- MSIX_TABLE_WRITE (R277): the host of face `f` writes dword `v` at offset `off` of BAR4. -/
  | msixTableWrite (f : FaceId) (off : BitVec 16) (v : Word)
  /-- INTERRUPT_SOURCE_FIRE (R277): an interrupt source fires for vector `vec` of face `f`. -/
  | interruptSourceFire (f : FaceId) (vec : VecId)
  /-- WINDOW_WRITE (R282): a granted write of `v`, with GO set and OP = WRITE, to FACE_WIN_COMMIT of face `f`. -/
  | windowWrite (st : Stamp) (f : FaceId) (v : Word)
  /-- WINDOW_WRITE_ANY (R283): the same with OP = WRITE_ANY. -/
  | windowWriteAny (st : Stamp) (f : FaceId) (v : Word)
  /-- WINDOW_INVALIDATE (R282): the same with OP = INVALIDATE. -/
  | windowInvalidate (st : Stamp) (f : FaceId) (v : Word)
  /-- COMPLETION_RECEIVED (R288): a completion `t` reaches face f for its REQ (req) or ADMIT pool, on the face's own link
  (link) or inside the part with tag and epoch. -/
  | completionReceived (f : FaceId) (req link : Bool) (tag : BitVec 14) (ep : Bool) (t : Tlp)
  /-- CPL_TIMEOUT (R291): the slot has been BUSY or ABANDONED for CPL_TO. -/
  | cplTimeout (f : FaceId) (req : Bool) (tag : BitVec 14)
  /-- TAG_QUARANTINE_END (R290): a further CPL_TO has passed since a link-issued REQ slot was retired by timeout. -/
  | tagQuarantineEnd (f : FaceId) (tag : BitVec 14)
  /-- FLR_SERVICE_ENDPOINT (R295): the host of face `f` starts an FLR of the service endpoint. -/
  | flrServiceEndpoint (f : FaceId)
  /-- FLR_DONE (R295): every flush read of the FLR of face `f` has completed. -/
  | flrDone (f : FaceId)
  /-- PME_TURN_OFF (R301): PME_Turn_Off arrives on the link of face `f`. -/
  | pmeTurnOff (f : FaceId)
  /-- PTM_REQUEST_TIMER (R453): 1 ms has passed since face `f` last asked. -/
  | ptmRequestTimer (f : FaceId)
  /-- PTM_RESPONSE_RECEIVED (R453): the PTM exchange of face `f` completes; `host` is the host's time. -/
  | ptmResponseReceived (f : FaceId) (host : BitVec 64)
  /-- PTM_REQUEST_RECEIVED (R454): a PTM Request arrives on DOWN port `p`. -/
  | ptmRequestReceived (p : PortId)
  /-- SNAPSHOT_CAPTURE (R455): a granted write of `v`, with GO set, to SCHED_SNAP_CTRL. -/
  | snapshotCapture (st : Stamp) (v : Word)
  /-- HEAD_ARRIVAL (R309): the header of a frame or TLP arrives at CORE. -/
  | headArrival (a : Arrival)
  /-- TAIL_ARRIVAL (R314): the tail of frame `id` arrives, with the verdicts of the checks made on it. -/
  | tailArrival (id : Nat) (c : TailChecks)
  /-- ADMISSION_RESUME (R310): cells, proof space or an egress become free for a frame that waits at admission. -/
  | admissionResume
  /-- CELL_ECC_ERROR (R321): an ECC error in a cell of frame `id` is met at read-out. -/
  | cellEccError (id : Nat) (correctable : Bool)
  /-- MC_HOLD_EXPIRY (R345): the hold timer of the copy of multicast frame `id` at member port `p` reaches HOLD_US. -/
  | mcHoldExpiry (id : Nat) (p : PortId)
  /-- MC_GROUP_STAGE (R347): a granted write of `v` to dword `d` of CORE_MC_GROUP (3 is CTRL). -/
  | mcGroupStage (st : Stamp) (d : Fin 4) (v : Word)
  /-- MC_GROUP_COMMIT (R347): a granted write of `v`, with GO set, to CORE_MC_SEL. -/
  | mcGroupCommit (st : Stamp) (v : Word)
  /-- BUFFER_LIMIT_WRITE (R325): a granted write of `v` to CORE_VI_LIMIT of instance `i` (vi), or to dword `d` of
  CORE_BUF_LIMIT entry `i` = 8p + c. -/
  | bufferLimitWrite (st : Stamp) (vi : Bool) (i : Fin 1024) (d : Fin 2) (v : Word)
  /-- PLATE_ENTRY_STAGE (R380): a granted write of `v` to dword `d` of entry `i` of plate `k`. -/
  | plateEntryStage (st : Stamp) (k : Fin 2) (i : Fin 524288) (d : Fin 3) (v : Word)
  /-- PLATE_ENTRY_COMMIT (R380): a granted write of `v` to dword 3 of entry `i` of plate `k`. -/
  | plateEntryCommit (st : Stamp) (k : Fin 2) (i : Fin 524288) (v : Word)
  /-- PLATE_VERIFY_START (R383): a granted write of `v`, with GO set, to ROUTE_VERIFY_CTRL. -/
  | plateVerifyStart (st : Stamp) (v : Word)
  /-- PLATE_VERIFY_DONE (R384): the verification in progress ends. -/
  | plateVerifyDone
  /-- PLATE_TURN_ARM (R385): a granted write of `v`, with ARM set, to ROUTE_TURN_CTRL. -/
  | plateTurnArm (st : Stamp) (v : Word)
  /-- PLATE_TURN_ARM_NEXT (R385): a granted write of `v`, with NEXT set, to ROUTE_TURN_CTRL. -/
  | plateTurnArmNext (st : Stamp) (v : Word)
  /-- PLATE_TURN_DISARM (R385): a granted write of `v`, with DISARM set, to ROUTE_TURN_CTRL. -/
  | plateTurnDisarm (st : Stamp) (v : Word)
  /-- PLATE_ECC_ERROR (R392): a read of entry `i` of plate `k` meets error `e`. -/
  | plateEccError (k : Fin 2) (i : Fin 524288) (e : PlateEcc)
  /-- PLATE_ENTRY_REBUILD (R392): the rebuild of entry `i` of plate `k` ends. -/
  | plateEntryRebuild (k : Fin 2) (i : Fin 524288)
  /-- BURNISHER_READ (R395): INTERVAL has passed, and the burnisher reads its next entry, meeting error `e`. -/
  | burnisherRead (e : Option PlateEcc)
  /-- CYCLE_BOUNDARY (R435): fabric time reaches a committed boundary. -/
  | cycleBoundary
  /-- CYCLE_MIDPOINT (R443): the midpoint of the cycle is reached. -/
  | cycleMidpoint
  /-- CYC_REF_EDGE (R441): CYC_REF rises; `err` − 2 is the error of its timestamp in ns (R441: within ±2 ns). -/
  | cycRefEdge (err : Fin 5)
  /-- EDGE_WINDOW_CLOSE (R444): the window of the current boundary closes. -/
  | edgeWindowClose
  /-- CYCLE_MARKER_SEND (R445): port `p` has to send a cycle marker: a cycle was committed, or INTERVAL has passed since
  its last one. -/
  | cycleMarkerSend (p : PortId)
  /-- CYCLE_MARKER_RECEIVED (R446): a frame with NOSEQ = 1 arrives on port `p`. -/
  | cycleMarkerReceived (p : PortId) (lf : LinkFrame)
  /-- SOURCE_MARKER_TIMEOUT (R449): the port in use has delivered no used marker for 4 × INTERVAL. -/
  | sourceMarkerTimeout
  /-- CYCLE_SOURCE_CHANGE (R451): a granted write of `v` to SCHED_CYC_CFG, or with `mk` to SCHED_MK_CFG. -/
  | cycleSourceChange (st : Stamp) (mk : Bool) (v : Word)
  /-- CYC_OUT_PULSE_END (R452): WIDTH × 8 ns have passed since CYC_OUT rose. -/
  | cycOutPulseEnd
  /-- LINK_STATUS_SEND (R403): the content of the link status of port p has changed. -/
  | linkStatusSend (p : PortId)
  /-- LINK_STATUS_PERIODIC (R403): 1 ms has passed. -/
  | linkStatusPeriodic
  /-- LINK_STATUS_RECEIVED (R403): a link-status frame arrives from the partner of port p. -/
  | linkStatusReceived (p : PortId) (l : LinkStatus)
  /-- FAB_PORT_UNUSABLE (R425): FAB port p has ceased to be usable. -/
  | fabPortUnusable (p : PortId)
  /-- PATH_LOSS_RECEIVED (R425): a PATH_LOSS arrives. -/
  | pathLossReceived
  /-- RELEASE_TIMER (R420): 2 µs have passed since the first delivery not yet released of the stream of class c from
  switch sw. -/
  | releaseTimer (sw : SwId) (c : ClassId)
  /-- PROOF_RELEASE_RECEIVED (R422): a release from the SELF_FEID of switch sw arrives. -/
  | proofReleaseReceived (sw : SwId) (es : List RelEntry)
  /-- PROOF_TIMEOUT (R424): the oldest unreleased proof of the stream of class c to switch sw reaches TIMEOUT. -/
  | proofTimeout (sw : SwId) (c : ClassId)
  /-- RESEND_COMPLETE (R424): the resend of the stream of class c to switch sw has finished. -/
  | resendComplete (sw : SwId) (c : ClassId)
  /-- STREAM_RECORD_FORGET (R423): no frame of the stream of class c from switch sw has arrived for 10 ms. -/
  | streamRecordForget (sw : SwId) (c : ClassId)
  /-- LINK_RETIRE (R428): a granted write of `v`, with LINK_RETIRE set, to PORT_LINK_CTRL of port p. -/
  | linkRetire (st : Stamp) (p : PortId) (v : Word)
  /-- RETIRE_DRAINED (R429): the queues and the replay buffer of retiring port p are empty. -/
  | retireDrained (p : PortId)
  /-- RETIRE_TIMEOUT (R429): RETIRE_TIMEOUT has passed since port p entered RETIRING. -/
  | retireTimeout (p : PortId)
  /-- HATCH_ENTRY (R476): the phase position of the next entry of port p's active list is reached. -/
  | hatchEntry (p : PortId)
  /-- GATE_WAKE_LEAD (R488): WAKE_LEAD before the next opening of a gate of port p behind which a frame waits. -/
  | gateWakeLead (p : PortId)
  /-- POLICER_HOLD_RELEASE (R472): the bucket test of the policer that holds frame `id` gives yellow or green. -/
  | policerHoldRelease (id : Nat)
  /-- POLICER_COMMIT (R474): a granted write of `v`, with GO set, to SCHED_POL_SEL. -/
  | policerCommit (st : Stamp) (v : Word)
  /-- HATCH_LEN_WRITE (R478): a granted write of `v` to SCHED_HATCH_LEN of port p. -/
  | hatchLenWrite (st : Stamp) (p : PortId) (v : Word)
  /-- HATCH_VERIFY_START (R479): a granted write of `v`, with GO set, to SCHED_HATCH_VERIFY of port p. -/
  | hatchVerifyStart (st : Stamp) (p : PortId) (v : Word)
  /-- HATCH_VERIFY_DONE (R479): the hatch verification of port p ends. -/
  | hatchVerifyDone (p : PortId)
  /-- HATCH_ARM (R482): a granted write of `v`, with ARM set, to SCHED_HATCH_CTRL of port p. -/
  | hatchArm (st : Stamp) (p : PortId) (v : Word)
  /-- HATCH_ARM_NEXT (R482): a granted write of `v`, with NEXT set, to SCHED_HATCH_CTRL of port p. -/
  | hatchArmNext (st : Stamp) (p : PortId) (v : Word)
  /-- HATCH_DISARM (R482): a granted write of `v`, with DISARM set, to SCHED_HATCH_CTRL of port p. -/
  | hatchDisarm (st : Stamp) (p : PortId) (v : Word)
  /-- INSTANCE_BIND (R498): a granted write of `v`, with GO set and OP = BIND, to INST_BIND. -/
  | instanceBind (st : Stamp) (v : Word)
  /-- INSTANCE_BIND_ANY (R498): the same with OP = BIND_ANY. -/
  | instanceBindAny (st : Stamp) (v : Word)
  /-- INSTANCE_UNBIND (R500): the same with OP = UNBIND. -/
  | instanceUnbind (st : Stamp) (v : Word)
  /-- INSTANCE_RESET (R503): a granted write of `v`, with GO set, to INST_RESET. -/
  | instanceReset (st : Stamp) (v : Word)
  /-- INSTANCE_SELF_RESET (R503): a granted write of SELF_RESET on the tenant page of instance `v`. -/
  | instanceSelfReset (st : Stamp) (v : ViId)
  /-- INSTANCE_RESET_DONE (R503): the flush reads of instance `v` have completed. -/
  | instanceResetDone (v : ViId)
  /-- FLUSH_TIMEOUT (R505): a flush read of instance `v` has not completed within FLUSH_TO. -/
  | flushTimeout (v : ViId)
  /-- SHARE_WRITE (R502): a granted write of `w` to INST_SHARE[v]. -/
  | shareWrite (st : Stamp) (v : ViId) (w : Word)
  /-- GET_TDISP_VERSION (R509): the TDISP message arrives on the DOE of a face, or over MCTP, for instance `v`. -/
  | getTdispVersion (ch : DoeOrMctp) (v : ViId)
  /-- GET_TDISP_CAPABILITIES (R509): the TDISP message arrives on the DOE of a face, or over MCTP, for instance `v`. -/
  | getTdispCapabilities (ch : DoeOrMctp) (v : ViId)
  /-- LOCK_INTERFACE_REQUEST (R509): the TDISP message arrives on the DOE of a face, or over MCTP, for instance `v`. -/
  | lockInterfaceRequest (ch : DoeOrMctp) (v : ViId)
  /-- GET_DEVICE_INTERFACE_STATE (R509): the TDISP message arrives on the DOE of a face, or over MCTP, for instance `v`. -/
  | getDeviceInterfaceState (ch : DoeOrMctp) (v : ViId)
  /-- GET_DEVICE_INTERFACE_REPORT (R509): the TDISP message arrives on the DOE of a face, or over MCTP, for instance `v`. -/
  | getDeviceInterfaceReport (ch : DoeOrMctp) (v : ViId)
  /-- START_INTERFACE_REQUEST (R509): the TDISP message arrives on the DOE of a face, or over MCTP, for instance `v`. -/
  | startInterfaceRequest (ch : DoeOrMctp) (v : ViId)
  /-- STOP_INTERFACE_REQUEST (R509): the TDISP message arrives on the DOE of a face, or over MCTP, for instance `v`. -/
  | stopInterfaceRequest (ch : DoeOrMctp) (v : ViId)
  /-- TDISP_UNSUPPORTED (R509): a TDISP message that Table INST-5 does not support arrives for instance `v`. -/
  | tdispUnsupported (ch : DoeOrMctp) (v : ViId)
  /-- RING_CFG_WRITE (R515): a granted write of `v` to MOVER_RING_CFG of ring `n`, with `tenant` through a tenant page. -/
  | ringCfgWrite (st : Stamp) (n : RingId) (tenant : Bool) (v : Word)
  /-- RING_REHOME (R537): a granted write of `v` to MOVER_RING_CFG of the enabled ring `n` that changes ENGINE. -/
  | ringRehome (st : Stamp) (n : RingId) (v : Word)
  /-- REHOME_DONE (R537): the old engine of ring `n` has finished the ring's open descriptor. -/
  | rehomeDone (n : RingId)
  /-- RING_TAIL_WRITE (R518): a granted write of `v` to MOVER_RING_TAIL of ring `n`. -/
  | ringTailWrite (st : Stamp) (n : RingId) (v : Word)
  /-- DESCRIPTOR_FETCH (R519): the engine of ring `n` turns to fetch its posted descriptors. -/
  | descriptorFetch (n : RingId)
  /-- DESCRIPTOR_FETCH_COMPLETE (R536): the fetch of ring `n` ends: with its descriptors, or, for none, with a miss, UR,
  CA or timeout. -/
  | descriptorFetchComplete (n : RingId) (descs : Option (List (BitVec 256)))
  /-- MOVER_READ_COMPLETION (R525): bytes come back for the read of ring `n`'s open descriptor that began at byte `off` of
  its data. -/
  | moverReadCompletion (n : RingId) (off : Nat) (bytes : List Byte)
  /-- DESCRIPTOR_COMPLETE (R529): the last write, or the flushes, of ring `n`'s open descriptor have completed. -/
  | descriptorComplete (n : RingId)
  /-- DESCRIPTOR_ERROR (R535): a read or flush of ring `n`'s open descriptor ended with UR or CA (0), timed out (1), or
  brought poisoned data (2). -/
  | descriptorError (n : RingId) (cause : Fin 3)
  /-- COALESCE_EXPIRY (R531): COAL_US has passed since ring `n` last fired. -/
  | coalesceExpiry (n : RingId)
  /-- RX_PACKET_COMMIT (R532): the oldest packet that waits for RX ring `n` has its last byte written. -/
  | rxPacketCommit (n : RingId)
  /-- RING_RESUME (R535): a granted write of MOVER_RING_STAT.RESUME of ring `n`. -/
  | ringResume (st : Stamp) (n : RingId)
  /-- ENGINE_DISABLE (R538): a granted write of `v` to MOVER_ENG_CTRL of engine `e`. -/
  | engineDisable (st : Stamp) (e : EngId) (v : Word)
  /-- ENGINE_FAULT (R539): an uncorrectable error strikes the state of engine `e`. -/
  | engineFault (e : EngId)
  /-- PREFETCH_AGE_EXPIRY (R553): the k-th oldest prefetch entry of face `f` has been held for AGE_US. -/
  | prefetchAgeExpiry (f : FaceId) (k : Fin 32)
  /-- LOCKED_READ (R557): the host of face `f` sends the locked memory read `t`. -/
  | lockedRead (f : FaceId) (t : Tlp)
  /-- UNLOCK_MESSAGE (R560): an Unlock message comes from the host of a face, or, for none, through the fabric from the
  face `src`. -/
  | unlockMessage (host : Option FaceId) (src : Feid)
  /-- LOCK_TIMEOUT (R560): the lock of DOWN port `p` has been held for TIMEOUT_MS. -/
  | lockTimeout (p : PortId)
  /-- NOTICE_POST (R572): a granted write of `v`, with GO set, to MBOX_NOTICE_POST of window `w`. -/
  | noticePost (st : Stamp) (w : NWin) (v : Word)
  /-- NOTICE_FRAME_RECEIVED (R574): a notice frame from `src` to `dest`, entered at switch `ingSw`, arrives; `fwq` is the
  firmware queue when it is for the part's own FEID, which the payload of R574 has no place for. -/
  | noticeFrameReceived (src dest : Feid) (ingSw : SwId) (n : Notice) (fwq : Fin 16)
  /-- NOTICE_OUTCOME_RECEIVED (R574): an outcome frame arrives: its STATUS and the sender in dword 0 of its notice. -/
  | noticeOutcomeReceived (status : Fin 7) (skind : Fin 8) (sid : Fin 1024) (sfeid : Feid)
  /-- NOTICE_OUTCOME_TIMEOUT (R576): 1 ms has passed since the notice frame of window `w` was sent. -/
  | noticeOutcomeTimeout (st : Stamp) (w : NWin)
  /-- NOTICE_READ (R579): a full-dword read of dword 0 of MBOX_NOTICE_READ of window `w`. -/
  | noticeRead (st : Stamp) (w : NWin)
  /-- DOORBELL_ARM (R580): a granted write of MBOX_Q_STAT.ARM of window `w`. -/
  | doorbellArm (st : Stamp) (w : NWin)
  /-- EPOCH_QUERY (R571): a granted write of `v` to MBOX_EPOCH_QUERY of window `w`. -/
  | epochQuery (st : Stamp) (w : NWin) (v : Word)
  /-- WORD_WRITE (R583): a granted write of `v` to DATA of word mailbox `n`. -/
  | wordWrite (st : Stamp) (n : Fin 128) (v : Word)
  /-- WORD_TAKE (R584): a granted write of TAKE of word mailbox `n`. -/
  | wordTake (st : Stamp) (n : Fin 128)
  /-- SEM_ACQUIRE (R586): a full-dword read of MBOX_SEM[n]. -/
  | semAcquire (st : Stamp) (n : Fin 256)
  /-- SEM_RELEASE (R588): a granted write of RELEASE to MBOX_SEM[n]. -/
  | semRelease (st : Stamp) (n : Fin 256)
  /-- SEM_FORCE (R588): a granted write of FORCE to MBOX_SEM[n]. -/
  | semForce (st : Stamp) (n : Fin 256)
  /-- CONTAINMENT_REQUEST (R597): GUARD takes the oldest request from its lines. -/
  | containmentRequest
  /-- POWER_QUIESCE_DRAINED (R624): the power-quiesced port `p` has reached QUIESCED. -/
  | powerQuiesceDrained (p : PortId)
  /-- QUIESCE_US_EXPIRY (R624): QUIESCE_US has passed since the power quiesce of port `p` began. -/
  | quiesceUsExpiry (p : PortId)
  /-- DEVICE_RESET_DELAY (R616): 10 µs have passed since a DEVICE containment with DEV_RESET = 1. -/
  | deviceResetDelay
  /-- DOMAIN_CONTAIN (R593): a granted write of `v`, with CONTAIN set, to GUARD_DOMAIN_STAT of `d`. -/
  | domainContain (st : Stamp) (d : Dom) (v : Word)
  /-- DOMAIN_RELEASE (R611): a granted write of `v`, with RELEASE set, to GUARD_DOMAIN_STAT of `d`. -/
  | domainRelease (st : Stamp) (d : Dom) (v : Word)
  /-- DPC_HOLD_EXPIRY (R593): DPC has been held for 1 ms on DOWN port `p`. -/
  | dpcHoldExpiry (p : PortId)
  /-- RECOVERY_COMPLETE (R615): the recovery sequence of `d` has completed. -/
  | recoveryComplete (d : Dom)
  /-- RECOVERY_TIMEOUT (R614): the recovery sequence of `d` has exceeded its bound. -/
  | recoveryTimeout (d : Dom)
  /-- RECOVERY_WINDOW_CLOSE (R599): WINDOW_MS has passed since the containment entry of `d`. -/
  | recoveryWindowClose (d : Dom)
  /-- DOMAIN_EVENT_REPEAT (R603): 1 ms has passed since the last DOMAIN_EVENT for `d`, or since its entry. -/
  | domainEventRepeat (d : Dom)
  /-- DOMAIN_EVENT_RECEIVED (R603): a DOMAIN_EVENT frame arrives. -/
  | domainEventReceived (code : Fin 4) (sw : SwId) (feids : List Feid)
  /-- UNREACHABLE_MARK_EXPIRY (R603): 3 ms have passed since the last UNREACHABLE or UNREACHABLE_ORDERLY for FEID `n`. -/
  | unreachableMarkExpiry (n : Feid)
  /-- CONTAIN_REQ_RECEIVED (R604): a CONTAIN_REQ frame from switch `sw` arrives, of class FD or NF. -/
  | containReqReceived (fd : Bool) (sw : SwId) (block bit : Fin 32) (n : Feid)
  /-- ELOG_CLEAR (R629): a granted write of `v`, with CLEAR set, to GUARD_ELOG_CTRL. -/
  | elogClear (st : Stamp) (v : Word)
  /-- TOKEN_CLAIM (R718): a granted write of `v`, with GO set, to SEC_TOKEN_CTRL while the buffer of `st` holds a CLAIM
  token. -/
  | tokenClaim (st : Stamp) (v : Word)
  /-- TOKEN_TRANSFER (R718): the same for a TRANSFER token. -/
  | tokenTransfer (st : Stamp) (v : Word)
  /-- TOKEN_RELEASE (R718): the same for a RELEASE token. -/
  | tokenRelease (st : Stamp) (v : Word)
  /-- TOKEN_UNLOCK_PAGES (R718): the same for an UNLOCK_PAGES token. -/
  | tokenUnlockPages (st : Stamp) (v : Word)
  /-- TOKEN_GRANT (R718): the same for a GRANT token. -/
  | tokenGrant (st : Stamp) (v : Word)
  /-- TOKEN_ARB_ADVANCE (R718): the same for an ARB_ADVANCE token. -/
  | tokenArbAdvance (st : Stamp) (v : Word)
  /-- TOKEN_DEBUG_UNLOCK (R718): the same for a DEBUG_UNLOCK token. -/
  | tokenDebugUnlock (st : Stamp) (v : Word)
  /-- PAGE_LOCK_WRITE (R643): a granted write of `v` to SEC_LOCK_MAP[k]. -/
  | pageLockWrite (st : Stamp) (k : Fin 32) (v : Word)
  /-- SPDM_REQUEST (R647): an SPDM request arrives on the DOE of a face, or over MCTP. -/
  | spdmRequest (ch : DoeOrMctp) (r : SpdmReq)
  /-- IDE_KM_REQUEST (R647): an IDE_KM message arrives in a session on the DOE of a face, or over MCTP. -/
  | ideKmRequest (ch : DoeOrMctp) (m : IdeKm)
  /-- DEVICE_AUTH_DONE (R649): SEC's authentication of the device on DOWN port `p` ends: whether its chain verifies, and
  the SHA-384 of its root certificate. -/
  | deviceAuthDone (p : PortId) (chainOk : Bool) (root : Nat)
  /-- LINK_REKEY (R654): NUM of port `p` has reached 2^40 (none), or a granted write of SEC_LINK_STAT[p]. -/
  | linkRekey (p : PortId) (w : Option (Stamp × Word))
  /-- REKEY_TIMEOUT (R654): 10 ms have passed since the rekey of port `p` began. -/
  | rekeyTimeout (p : PortId)
  /-- DEBUG_RELOCK (R658): a granted write of `v`, with RELOCK set, to SEC_DEBUG. -/
  | debugRelock (st : Stamp) (v : Word)
  /-- CHANNEL_ENABLE (R664): a granted write of `v`, with EN set, to PWR_CH_CFG of channel `c`. -/
  | channelEnable (st : Stamp) (c : ChanId) (v : Word)
  /-- CHANNEL_DISABLE (R671): a granted write of `v`, with EN clear, to PWR_CH_CFG of channel `c`. -/
  | channelDisable (st : Stamp) (c : ChanId) (v : Word)
  /-- SEATING_DEBOUNCED (R664): PP_PRSNT_N of channel `c` has been low for 20 ms. -/
  | seatingDebounced (c : ChanId)
  /-- INSERTION_DELAY_EXPIRY (R664): feed B (b) or feed A of channel `c` has held qualified for INS_DELAY. -/
  | insertionDelayExpiry (c : ChanId) (b : Bool)
  /-- RAMP_COMPLETE (R664): the output of channel `c` reaches 90 % of the feed with full gate drive. -/
  | rampComplete (c : ChanId)
  /-- RAMP_TIMEOUT (R666): the bound of R666 passes in RAMP. -/
  | rampTimeout (c : ChanId)
  /-- FAST_TRIP (R670): the current of channel `c` reaches 2 × ILIM. -/
  | fastTrip (c : ChanId)
  /-- FAULT_TIMER_EXPIRY (R669): the fault timer of channel `c` reaches TIMER. -/
  | faultTimerExpiry (c : ChanId)
  /-- FET_OVERTEMP (R671): PP_TEMP of channel `c` exceeds TFET_MAX. -/
  | fetOvertemp (c : ChanId)
  /-- SEATING_LOSS (R671): PP_PRSNT_N of channel `c` has been high for 100 µs. -/
  | seatingLoss (c : ChanId)
  /-- FEED_LOSS (R671): the active feed of channel `c` becomes unqualified. -/
  | feedLoss (c : ChanId)
  /-- OV_CUT (R671): the active feed of channel `c` exceeds OV with its hysteresis. -/
  | ovCut (c : ChanId)
  /-- WARN_LEAD_EXPIRY (R673): WARN_LEAD has elapsed since channel `c` entered WARN. -/
  | warnLeadExpiry (c : ChanId)
  /-- RETRY_PERIOD_EXPIRY (R664): channel `c` has been in RETRY_WAIT for 0.5 s. -/
  | retryPeriodExpiry (c : ChanId)
  /-- CHANNEL_CLEAR (R675): a granted write of `v`, with CLEAR set, to PWR_CH_CFG of channel `c`. -/
  | channelClear (st : Stamp) (c : ChanId) (v : Word)
  /-- REVERSE_BLOCK (R672): the shunt current of channel `c` runs backward past 2 A. -/
  | reverseBlock (c : ChanId)
  /-- REVERSE_RELEASE (R672): the feed of channel `c` rises above its output by 50 mV. -/
  | reverseRelease (c : ChanId)
  /-- POWER_GOOD (R677): channel `c` ends 1 ms in ON with the output good, full gate drive and the limit not active. -/
  | powerGood (c : ChanId)
  /-- RETRY_RELOAD_TIMER (R675): PG of channel `c` has held for 1 s. -/
  | retryReloadTimer (c : ChanId)
  /-- FORCED_SWITCHOVER (R682): the active feed of channel `c` becomes unqualified while the other has been qualified for
  1 ms. -/
  | forcedSwitchover (c : ChanId)
  /-- REVERT_SWITCHOVER (R680): the preferred feed of channel `c` has held qualified for INS_DELAY. -/
  | revertSwitchover (c : ChanId)
  /-- SOFTWARE_SWITCHOVER (R680): a granted write of `v`, with FORCE not 0, to PWR_FEED_SEL of channel `c`. -/
  | softwareSwitchover (st : Stamp) (c : ChanId) (v : Word)
  /-- DEAD_TIME_EXPIRY (R681): DEAD_US has elapsed in a switchover of channel `c`. -/
  | deadTimeExpiry (c : ChanId)
  /-- FEED_CHECK (R686): the configured phase of the cycle is reached. -/
  | feedCheck
  /-- TELEMETRY_SAMPLE (R687): channel `c` samples its output voltage, shunt current, feed voltages and temperature, in
  the units of PWR_TELEM, and whether the limit is active. -/
  | telemetrySample (c : ChanId) (vout iout vfa vfb : BitVec 16) (tfet : BitVec 8) (limit : Bool)
  /-- LOCKSTEP_MISMATCH (R692): the cores of a lockstep pair disagree. -/
  | lockstepMismatch (pair : Fin 2)
  /-- WATCHDOG_EXPIRY (R692): TIMEOUT_MS has passed since the last kick. -/
  | watchdogExpiry
  /-- WATCHDOG_KICK (R696): a granted write of `v` to MGMT_WD. -/
  | watchdogKick (st : Stamp) (v : Word)
  /-- SET_ENDPOINT_ID (R698): the MCTP control command arrives on SMBus port `k`. -/
  | setEndpointId (k : Fin 4) (eid : BitVec 8)
  /-- GET_ENDPOINT_ID (R698): the MCTP control command arrives on SMBus port `k`. -/
  | getEndpointId (k : Fin 4)
  /-- GET_MCTP_VERSION_SUPPORT (R698): the MCTP control command for message type `typ` arrives on SMBus port `k`. -/
  | getMctpVersionSupport (k : Fin 4) (typ : BitVec 8)
  /-- GET_MESSAGE_TYPE_SUPPORT (R698): the MCTP control command arrives on SMBus port `k`. -/
  | getMessageTypeSupport (k : Fin 4)
  /-- MCTP_UNSUPPORTED (R698): an MCTP message of another type arrives on SMBus port `k`. -/
  | mctpUnsupported (k : Fin 4)
  /-- REG_READ (R699): the Stoux command arrives on SMBus port `k`. -/
  | regRead (k : Fin 4) (a : SpaceAddr)
  /-- REG_WRITE (R699): the Stoux command arrives on SMBus port `k`. -/
  | regWrite (k : Fin 4) (a : SpaceAddr) (v : Word)
  /-- REMOTE_READ (R700): the Stoux command arrives on SMBus port `k`. -/
  | remoteRead (k : Fin 4) (sw : SwId) (a : SpaceAddr)
  /-- REMOTE_WRITE (R700): the Stoux command arrives on SMBus port `k`. -/
  | remoteWrite (k : Fin 4) (sw : SwId) (a : SpaceAddr) (v : Word)
  /-- REMOTE_ACCESS_RECEIVED (R700): a frame of OP 0x40 from switch `sw` arrives, to SELF_FEID or, with `src`, from the
  partner of that port. -/
  | remoteAccessReceived (src : Option PortId) (sw port : Nat) (wr : Bool) (a : SpaceAddr) (v : Word) (id : BitVec 16)
  /-- REMOTE_RESPONSE_RECEIVED (R700): a frame of OP 0x41 arrives: its status, its value, and the id of the access it
  answers. -/
  | remoteResponseReceived (status : Fin 6) (v : Word) (id : BitVec 16)
  /-- REMOTE_TIMEOUT (R700): 1 ms has passed since the remote access `id` was sent. -/
  | remoteTimeout (id : BitVec 16)
  /-- MCTP_IMG_START (R703): the Stoux command arrives on SMBus port `k`: KIND firmware, or configuration. -/
  | mctpImgStart (k : Fin 4) (cfg : Bool)
  /-- MCTP_IMG_CHUNK (R704): the Stoux command arrives on SMBus port `k` with `len` bytes for offset `off`. -/
  | mctpImgChunk (k : Fin 4) (off : BitVec 32) (len : Nat)
  /-- MCTP_IMG_FINISH (R704): the Stoux command arrives on SMBus port `k`. -/
  | mctpImgFinish (k : Fin 4)
  /-- TELEMETRY (R714): the Stoux command arrives on SMBus port `k`. -/
  | telemetry (k : Fin 4)
  /-- IMG_CTRL_START (R703): a granted write of `v`, with START set, to MGMT_IMG_CTRL. -/
  | imgCtrlStart (st : Stamp) (v : Word)
  /-- IMG_CTRL_CHUNK (R704): a granted write of `v`, with GO set, to MGMT_IMG_CHUNK. -/
  | imgCtrlChunk (st : Stamp) (v : Word)
  /-- IMG_CTRL_FINISH (R704): a granted write of `v`, with FINISH set, to MGMT_IMG_CTRL. -/
  | imgCtrlFinish (st : Stamp) (v : Word)
  /-- IMG_CTRL_ABORT (R704): a granted write of `v`, with ABORT set, to MGMT_IMG_CTRL. -/
  | imgCtrlAbort (st : Stamp) (v : Word)
  /-- IMG_ERASE_DONE (R704): the erase of the slot has completed. -/
  | imgEraseDone
  /-- IMG_VERIFY_DONE (R151): the checks of a finished image are made; `h` is its header. -/
  | imgVerifyDone (h : ImgHeader)
  /-- GATHER_SNAPSHOT (R706): the configured phase of the cycle is reached. -/
  | gatherSnapshot
  /-- GATHER_SNAPSHOT_DONE (R709): the snapshot has been read, its last read `skew` ns after its first, and is written
  out. -/
  | gatherSnapshotDone (skew : Nat)
  /-- GATHER_CONFIG_WRITE (R712): a granted write of `v` to the register at offset `off` of MGMT page 1. -/
  | gatherConfigWrite (st : Stamp) (off : BitVec 16) (v : Word)
  /-- VMON_SAMPLE (R713): the five rails are measured, in mV. -/
  | vmonSample (mv : List (BitVec 16))
  /-- PCIE_LINK_UP (R216): the PCI Express link of port `p` trains to L0 at 2^width lanes and the rate code 1 + rate;
  `rev` with its lanes reversed, `inv` the receive polarity found inverted, by physical lane of the port, `aspm` the
  ASPM states that the partner allows (bit 0 L0s, bit 1 L1). -/
  | pcieLinkUp (p : PortId) (width : Fin 5) (rate : Fin 6) (flit rev : Bool) (inv : BitVec 16) (aspm : BitVec 2)
  /-- PCIE_REPLAY_NUM_ROLLOVER (R218): REPLAY_NUM of port `p` rolls over. -/
  | pcieReplayNumRollover (p : PortId) (num : Fin 256)
  /-- RX_ADAPTATION_DONE (R184): the receiver of lane `l` has finished an adaptation, with the margins it estimates
  (LANE_RX_STAT). -/
  | rxAdaptationDone (l : LaneId) (eyeV eyeH snr : BitVec 8) (ctle : Fin 32)
  /-- SWITCH_DIE_RAILS_GOOD (R102): the last switch-die rail rises above 90 % of nominal while VKEEP and the crystal are
  good. -/
  | switchDieRailsGood
  /-- OUTPUT_BELOW_PG_THRESHOLD (R678): the output of channel `c` falls below 90 % of the active feed. -/
  | outputBelowPgThreshold (c : ChanId)
  /-- IMG_CHUNK_DONE (R704): the flash write of the chunk has completed. -/
  | imgChunkDone
  /-- TOKEN_FINISHED (R638): SEC finishes the token that runs. -/
  | tokenFinished
deriving DecidableEq, Repr

end Sys2Proof
end

