-- ==== Sys2Proof/Decode.lean ====
section
/-! DEFINITION. The command that a word spells. spec/opcode_table.json gives none of its rows any bits: a command of this block
is an event with its operands, and no word of any length spells one. -/

namespace Sys2Proof

/-- The command whose bits, numbered as the table numbers them, are `w`: none, since no row of the table has bits. -/
def decodeTableWord (_nbits _w : Nat) : Option Instr := none

end Sys2Proof
end

