-- ==== Sys2Proof/Machine/Hash.lean ====
section
/-! DEFINITION. SHA-384, as the cited standard defines it: digests of images, sections, plates, hatch lists and tokens, and the
DOMAIN_TAG of Table PORT-5. Its constants are computed from their
definition: fractional bits of roots of the first primes. -/

namespace Sys2Proof

/-- The first 80 primes. -/
def hashPrimes : List Nat :=
  [2, 3, 5, 7, 11, 13, 17, 19, 23, 29, 31, 37, 41, 43, 47, 53, 59, 61, 67, 71,
   73, 79, 83, 89, 97, 101, 103, 107, 109, 113, 127, 131, 137, 139, 149, 151, 157, 163, 167, 173] ++
  [179, 181, 191, 193, 197, 199, 211, 223, 227, 229, 233, 239, 241, 251, 257, 263, 269, 271, 277, 281,
   283, 293, 307, 311, 313, 317, 331, 337, 347, 349, 353, 359, 367, 373, 379, 383, 389, 397, 401, 409]

/-- The largest `r` below 2^`n` with `r`^`e` ≤ `x`, found bit by bit from `acc` on. -/
def rootBits (e x : Nat) : Nat → Nat → Nat
  | 0, acc => acc
  | n + 1, acc => rootBits e x n (if (acc + 2 ^ n) ^ e ≤ x then acc + 2 ^ n else acc)

/-- The first 64 fractional bits of the cube root of `p`, and of its square root. -/
def cubeFrac (p : Nat) : Nat := rootBits 3 (p <<< 192) 68 0 % 2 ^ 64
def squareFrac (p : Nat) : Nat := rootBits 2 (p <<< 128) 70 0 % 2 ^ 64

/-- A 64-bit word turned right. -/
def ror64 (x n : Nat) : Nat := (x >>> n + x <<< (64 - n)) % 2 ^ 64

/-- The message schedule: 64 more words after the 16 of the block, the newest first. -/
def hashWords : Nat → List Nat → List Nat
  | 0, ws => ws
  | n + 1, ws =>
    let at_ := fun k => ws.getD (k - 1) 0
    let s0 := ror64 (at_ 15) 1 ^^^ ror64 (at_ 15) 8 ^^^ (at_ 15 >>> 7)
    let s1 := ror64 (at_ 2) 19 ^^^ ror64 (at_ 2) 61 ^^^ (at_ 2 >>> 6)
    hashWords n ((at_ 16 + s0 + at_ 7 + s1) % 2 ^ 64 :: ws)

/-- The eight working words. -/
structure HashState where
  a : Nat
  b : Nat
  c : Nat
  d : Nat
  e : Nat
  f : Nat
  g : Nat
  h : Nat

/-- One round with a schedule word and its constant. -/
def hashRound (s : HashState) (w k : Nat) : HashState :=
  let t1 := s.h + (ror64 s.e 14 ^^^ ror64 s.e 18 ^^^ ror64 s.e 41) + ((s.e &&& s.f) ^^^ ((2 ^ 64 - 1 - s.e) &&& s.g)) + k + w
  let t2 := (ror64 s.a 28 ^^^ ror64 s.a 34 ^^^ ror64 s.a 39) + ((s.a &&& s.b) ^^^ (s.a &&& s.c) ^^^ (s.b &&& s.c))
  ⟨(t1 + t2) % 2 ^ 64, s.a, s.b, s.c, (s.d + t1) % 2 ^ 64, s.e, s.f, s.g⟩

/-- A big-endian number. -/
def ofBytesBe (bs : List Nat) : Nat := ofBytes bs.reverse

/-- The padding of a message of `n` bytes: a one bit, zeros, and its length in bits (16 bytes), up to whole blocks of 128 bytes. -/
def hashPad (n : Nat) : List Nat := 0x80 :: List.replicate ((239 - n % 128) % 128) 0 ++ (bytesOf (8 * n) 16).reverse

/-- One block of 128 bytes goes into the eight words of the hash. -/
def hashBlock (v : List Nat) (block : List Nat) : List Nat :=
  let w := (List.range 16).map fun k => ofBytesBe ((block.drop (8 * k)).take 8)
  let at_ := fun k => v.getD k 0
  let r := ((hashWords 64 w.reverse).reverse.zip (hashPrimes.map cubeFrac)).foldl (fun s x => hashRound s x.1 x.2)
    ⟨at_ 0, at_ 1, at_ 2, at_ 3, at_ 4, at_ 5, at_ 6, at_ 7⟩
  (v.zip [r.a, r.b, r.c, r.d, r.e, r.f, r.g, r.h]).map fun x => (x.1 + x.2) % 2 ^ 64

/-- `n` blocks of a padded message. -/
def hashBlocks : Nat → List Nat → List Nat → List Nat
  | 0, v, _ => v
  | n + 1, v, m => hashBlocks n (hashBlock v (m.take 128)) (m.drop 128)

/-- SHA-384 of a message: 48 bytes. -/
def sha384 (msg : List Nat) : List Nat :=
  let m := msg ++ hashPad msg.length
  ((hashBlocks (m.length / 128) ((hashPrimes.drop 8).take 8 |>.map squareFrac) m).take 6).flatMap fun w => (bytesOf w 8).reverse

/-- DOMAIN_TAG: the first 8 bytes of SHA-384 of the 16 bytes of DOMAIN_ID, in their order (Table PORT-5). -/
def domainTag (d : Nat) : List Nat := (sha384 (bytesOf d 16)).take 8

end Sys2Proof
end

