-- ==== Sys2Proof/Machine/Ecdsa.lean ====
section
/-! DEFINITION. ECDSA over P-384 with SHA-384, as the cited standard defines it: the signatures of images, plates, hatch lists and
tokens (Tables BOOT-8, PLATE-8, SCHED-5 and SEC-2). -/

namespace Sys2Proof

/-- The prime of P-384. -/
def p384 : Nat := 2 ^ 384 - 2 ^ 128 - 2 ^ 96 + 2 ^ 32 - 1

/-- The constant term of P-384. -/
def p384b : Nat :=
  0xb3312fa7e23ee7e4988e056be3f82d19181d9c6efe8141120314088f5013875ac656398d8a2ed19d2a85c8edd3ec2aef

/-- The order of the base point. -/
def p384n : Nat :=
  0xffffffffffffffffffffffffffffffffffffffffffffffffc7634d81f4372ddf581a0db248b0a77aecec196accc52973

/-- The base point. -/
def p384gx : Nat :=
  0xaa87ca22be8b05378eb1c71ef320ad746e1d3b628ba79b9859f741e082542a385502f25dbf55296c3a545e3872760ab7
def p384gy : Nat :=
  0x3617de4a96262c6f5d9e98bf9292dc29f8f41dbd289a147ce9da3113b5f0b8c00a60b1ce1d7e819d7a431d7c90ea0e5f

/-- A public key is a point of P-384: y^2 = x^3 − 3x + b modulo the prime. A key is x + y · 2^384. -/
def onCurve (key : Nat) : Bool :=
  let x := key % 2 ^ 384
  let y := key >>> 384
  x < p384 && y < p384 && y * y % p384 == (x * x * x + (p384 - 3) * x + p384b) % p384

/-- A point in Jacobian coordinates: (X / Z^2, Y / Z^3), the point at infinity when Z is 0. -/
structure Point where
  x : Nat
  y : Nat
  z : Nat

/-- a − b modulo the prime. -/
def fsub (a b : Nat) : Nat := (a + (p384 - b % p384)) % p384

/-- Twice a point. -/
def Point.double (q : Point) : Point :=
  let y2 := q.y * q.y % p384
  let s := 4 * q.x * y2 % p384
  let z2 := q.z * q.z % p384
  let m := 3 * fsub q.x z2 * (q.x + z2) % p384
  let x := fsub (m * m) (2 * s)
  ⟨x, fsub (m * fsub s x) (8 * y2 * y2), 2 * q.y * q.z % p384⟩

/-- The sum of two points. -/
def Point.add (q r : Point) : Point :=
  if q.z % p384 == 0 then r else if r.z % p384 == 0 then q
  else
    let zq := q.z * q.z % p384
    let zr := r.z * r.z % p384
    let u := q.x * zr % p384
    let s := q.y * zr * r.z % p384
    let h := fsub (r.x * zq) u
    let d := fsub (r.y * zq * q.z) s
    if h == 0 then (if d == 0 then q.double else ⟨1, 1, 0⟩)
    else
      let h2 := h * h % p384
      let h3 := h2 * h % p384
      let x := fsub (d * d) (h3 + 2 * u * h2)
      ⟨x, fsub (d * fsub (u * h2) x) (s * h3), h * q.z * r.z % p384⟩

/-- a · P + b · Q, over the bits of a and b below `n`, from the highest. -/
def twoMul (p q pq : Point) (a b : Nat) : Nat → Point → Point
  | 0, acc => acc
  | n + 1, acc =>
    let d := acc.double
    twoMul p q pq a b n <|
      match a.testBit n, b.testBit n with
      | true, true => d.add pq
      | true, false => d.add p
      | false, true => d.add q
      | false, false => d

/-- b^e modulo `m`, over the bits of e below `n`, from the highest. -/
def powMod (b e m : Nat) : Nat → Nat → Nat
  | 0, acc => acc
  | n + 1, acc => powMod b e m n (if e.testBit n then acc * acc % m * b % m else acc * acc % m)

/-- ECDSA over P-384: `sig` (r, then s, 48 bytes each, big-endian) is a signature over a message with digest `digest` under the
public key. -/
def ecdsaOk (key : Nat) (digest sig : List Nat) : Bool :=
  let r := ofBytesBe (sig.take 48)
  let s := ofBytesBe ((sig.drop 48).take 48)
  let w := powMod s (p384n - 2) p384n 384 1
  let g : Point := ⟨p384gx, p384gy, 1⟩
  let q : Point := ⟨key % 2 ^ 384, key >>> 384, 1⟩
  let v := twoMul g q (g.add q) (ofBytesBe digest * w % p384n) (r * w % p384n) 384 ⟨1, 1, 0⟩
  let z2 := v.z * v.z % p384
  onCurve key && 0 < r && r < p384n && 0 < s && s < p384n && z2 != 0 &&
    (v.x % p384 == r * z2 % p384 || (r + p384n < p384 && v.x % p384 == (r + p384n) * z2 % p384))

/-- The signature of a message under a key (the signature is over its SHA-384). -/
def signedBy (key : Nat) (msg sig : List Nat) : Bool := ecdsaOk key (sha384 msg) sig

end Sys2Proof
end

