-- ==== Sys2Proof/Machine/Image.lean ====
section
/-! DEFINITION. Images: the header of a firmware or configuration image (Table BOOT-8), its section table (Table BOOT-9), and the
sections of a configuration image as their bytes spell them (Tables BOOT-10 and SEC-4). -/

namespace Sys2Proof

/-- The field of `size` bytes at byte `off` of an image header (Table BOOT-8), little-endian. -/
def ImgHeader.field (h : ImgHeader) (off size : Nat) : Nat := (h.raw.toNat >>> (8 * off)) % 2 ^ (8 * size)

/-- The fields of Table BOOT-8. -/
def ImgHeader.magic (h : ImgHeader) : Nat := h.field 0x000 4
def ImgHeader.format (h : ImgHeader) : Nat := h.field 0x004 2
def ImgHeader.sectionCount (h : ImgHeader) : Nat := h.field 0x006 2
def ImgHeader.imageLength (h : ImgHeader) : Nat := h.field 0x008 4
def ImgHeader.sequence (h : ImgHeader) : Nat := h.field 0x00C 4
def ImgHeader.secVersion (h : ImgHeader) : Nat := h.field 0x010 4
def ImgHeader.keySlot (h : ImgHeader) : Nat := h.field 0x014 1
def ImgHeader.stepping (h : ImgHeader) : Nat := h.field 0x015 1
def ImgHeader.switchId (h : ImgHeader) : Nat := h.field 0x016 1
def ImgHeader.deviceSelect (h : ImgHeader) : Nat := h.field 0x018 8
def ImgHeader.domainId (h : ImgHeader) : Nat := h.field 0x020 16
def ImgHeader.tableOffset (h : ImgHeader) : Nat := h.field 0x060 4
def ImgHeader.sigOffset (h : ImgHeader) : Nat := h.field 0x064 4

/-- MAGIC of an image of kind 0 (firmware) or 1 (configuration). -/
def imgMagic (kind : Nat) : Nat := if kind == 0 then 0x4957464D else 0x4746434D

/-- The header is one of Table BOOT-8 of the kind: MAGIC, FORMAT, and the ranges the table gives. -/
def ImgHeader.formed (h : ImgHeader) (kind : Nat) : Bool :=
  h.magic == imgMagic kind && h.format == 1 && 1 ≤ h.sectionCount && h.sectionCount ≤ 256 && h.imageLength ≤ 20971520 &&
    h.tableOffset % 16 == 0 && h.sigOffset % 16 == 0 && h.table.length == h.sectionCount

/-- The signature of the header, over its 256 bytes, verifies under a key. -/
def ImgHeader.signed (h : ImgHeader) (key : Nat) : Bool := signedBy key (bytesOf h.raw.toNat 256) (bytesOf h.sig.toNat 96)

/-- TABLE_DIGEST is the SHA-384 of the section table. -/
def ImgHeader.tableOk (h : ImgHeader) : Bool :=
  bytesOf (h.field 0x030 48) 48 == sha384 (h.table.flatMap fun e => bytesOf e.toNat 64)

/-! ### Sections -/

/-- The fields of a section table entry (Table BOOT-9). -/
def entryField (e off size : Nat) : Nat := (e >>> (8 * off)) % 2 ^ (8 * size)
def entryType (e : Nat) : Nat := entryField e 0x00 2
def entryFlags (e : Nat) : Nat := entryField e 0x02 2
def entryTarget (e : Nat) : Nat := entryField e 0x04 4

/-- The section has the LENGTH and the DIGEST of its table entry (R145). -/
def sectionOk (e : Nat) (bs : List Nat) : Bool :=
  bs.length == entryField e 0x0C 4 && bytesOf (entryField e 0x10 48) 48 == sha384 bs

/-- The POLICY payload (Table SEC-4). -/
structure PolicyImg where
  flags : Nat
  grant : Nat
  lock : Nat
  ideRequired : Nat
  ideDown : Nat
  devRoot : List Nat
deriving DecidableEq, Repr

/-- What a section of a configuration image says (Table BOOT-10): register records as address and value, runs of a plate as
first entry and entries, the entries of a hatch list. -/
inductive Section where
  | ports (records : List (Nat × Nat))
  | regs (records : List (Nat × Nat))
  | plate (target : Nat) (live : Bool) (runs : List (Nat × List Nat))
  | hatch (port : Nat) (listB : Bool) (entries : List Nat)
  | policy (p : PolicyImg)
deriving DecidableEq, Repr

/-- Bytes cut into little-endian numbers of `size` bytes. -/
def numbers (size : Nat) (bs : List Nat) : List Nat :=
  (List.range (bs.length / size)).map fun k => ofBytes ((bs.drop (size * k)).take size)

/-- Register records: 8 bytes each, an address and a value. -/
def recordsOf (bs : List Nat) : Option (List (Nat × Nat)) :=
  if bs.length % 8 == 0 then some ((numbers 8 bs).map fun n => (n % 2 ^ 32, n >>> 32)) else none

/-- The runs of a PLATE payload; none when it ends within one. -/
def runsOf : Nat → List Nat → Option (List (Nat × List Nat))
  | 0, _ => none
  | fuel + 1, bs =>
    if bs.isEmpty then some []
    else
      let n := ofBytes ((bs.drop 4).take 4)
      if bs.length < 8 + 16 * n then none
      else (runsOf fuel (bs.drop (8 + 16 * n))).map fun r => (ofBytes (bs.take 4), numbers 16 ((bs.drop 8).take (16 * n))) :: r

/-- The POLICY payload, when its length, MAGIC and FORMAT are right (R640). -/
def policyOf (bs : List Nat) : Option PolicyImg :=
  let f := fun off n => ofBytes ((bs.drop off).take n)
  if bs.length == 368 && f 0x000 4 == 0x594C4F50 && f 0x004 2 == 1 then
    some ⟨f 0x006 1, f 0x00C 4, f 0x010 128, f 0x090 12, f 0x09C 12, (List.range 4).map fun k => f (0x0B0 + 48 * k) 48⟩
  else none

/-- What the bytes of a section say, by its table entry; none for an unknown TYPE, or a payload that is not of its TYPE's form. -/
def sectionOf (e : Nat) (bs : List Nat) : Option Section :=
  match entryType e with
  | 1 => (recordsOf bs).map .ports
  | 2 => (recordsOf bs).map .regs
  | 3 => (runsOf (bs.length + 1) bs).map (.plate (entryTarget e) ((entryFlags e).testBit 0))
  | 4 => if bs.length == 4 + 8 * ofBytes (bs.take 4) then some (.hatch (entryTarget e) ((entryFlags e).testBit 0) (numbers 8 (bs.drop 4)))
    else none
  | 5 => (policyOf bs).map .policy
  | _ => none

/-- The order in which a table's sections are applied (R146): every PORTS section, the others in table order, every POLICY
section. -/
def sectionOrder (types : List Nat) : List Nat :=
  let is := List.range types.length
  let t := fun i => types.getD i 0
  is.filter (fun i => t i == 1) ++ is.filter (fun i => t i != 1 && t i != 5) ++ is.filter (fun i => t i == 5)

end Sys2Proof
end

