-- ==== Sys2Proof/Machine/Coding.lean ====
section
/-! DEFINITION. The Daend lane coding (spec/05, R166 to R171) and the checks of the link and of frames (spec/06 R227, spec/10
R409): scrambler and descrambler, filler, FEC codewords, symbols, and cyclic checks. -/

namespace Sys2Proof

/-! ### Reflected cyclic checks -/

/-- One bit step of a right-shifting CRC register. -/
def crcDown (poly c : Nat) : Nat := if c.testBit 0 then (c >>> 1) ^^^ poly else c >>> 1

/-- One byte through a right-shifting 32-bit CRC register. -/
def crcDownByte (poly c b : Nat) : Nat := (List.range 8).foldl (fun x _ => crcDown poly x) (c ^^^ b % 256)

/-- Bytes through a CRC register, each step's value found before the next (which the match on it brings about in a proof). -/
def crcRun (f : Nat → Nat → Nat) : List Nat → Nat → Nat
  | [], c => c
  | b :: bs, c => match f c b with
    | 0 => crcRun f bs 0
    | n + 1 => crcRun f bs (n + 1)

/-- CRC-32 with the IEEE 802.3 polynomial (R227), with that standard's preset and complement, which the spec does not restate
(PRESUMED, log entry 175). -/
def crc32 (bs : List Nat) : Nat := crcRun (crcDownByte 0xEDB88320) bs 0xFFFFFFFF ^^^ 0xFFFFFFFF

/-- CRC-32C (R409), with the preset and complement in common use (PRESUMED, log entry 175). -/
def crc32c (bs : List Nat) : Nat := crcRun (crcDownByte 0x82F63B78) bs 0xFFFFFFFF ^^^ 0xFFFFFFFF

/-! ### The scrambler 1 + x^39 + x^58 (R168) -/

/-- What the scrambler adds to a bit: the scrambled bits 39 and 58 places before it. Bit k of the register was sent k + 1 bits
ago. -/
def scrMask (r : BitVec 58) : Bool := r.getLsbD 38 ^^ r.getLsbD 57

/-- The register after the scrambled bit `b`. -/
def scrNext (r : BitVec 58) (b : Bool) : BitVec 58 := (r <<< 1) ||| (BitVec.ofBool b).zeroExtend 58

/-- Scramble bits in order: the scrambled bits and the register after them. -/
def scramble (r : BitVec 58) : List Bool → List Bool × BitVec 58
  | [] => ([], r)
  | b :: bs =>
    let o := b ^^ scrMask r
    let t := scramble (scrNext r o) bs
    (o :: t.1, t.2)

/-- Descramble bits in order: the bits sent and the register after them. -/
def descramble (r : BitVec 58) : List Bool → List Bool × BitVec 58
  | [] => ([], r)
  | b :: bs =>
    let t := descramble (scrNext r b) bs
    ((b ^^ scrMask r) :: t.1, t.2)

/-- The descrambler undoes the scrambler, and both end with the same register. -/
theorem descramble_scramble (bs : List Bool) : ∀ r, descramble r (scramble r bs).1 = (bs, (scramble r bs).2) := by
  induction bs with
  | nil => intro r; rfl
  | cons b bs ih => intro r; simp [scramble, descramble, ih]

/-! ### Blocks -/

/-- Sync headers (R167). -/
def hdrDATA : Nat := 1
def hdrCTL : Nat := 2

/-- The payload bits of a block in the order in which they are sent: bit 0 first (R167). -/
def payBits (w : BitVec 64) : List Bool := (List.range 64).map w.getLsbD

/-- The payload that bits in order spell. -/
def ofPayBits (bs : List Bool) : BitVec 64 := BitVec.ofNat 64 (bs.zipIdx.foldl (fun n (b, k) => n + (if b then 2 ^ k else 0)) 0)

/-- The FILLER and REST blocks (Table LANE-2). -/
def blkFILLER : BitVec 64 := 0x3C
def blkREST : BitVec 64 := 0x66

/-- True of the ALIGN type, which is not scrambled (R168). -/
def isAlign (hdr : Nat) (w : BitVec 64) : Bool := hdr == hdrCTL && w.toNat % 256 == 0x5A

/-- The transmit side of a lane: its scrambler, the block slots since its last FILLER (ALIGN slots not counted), the turn in which
its port's blocks go round the lanes (of a port, on its first lane), and the blocks that have left, newest first: sync header and
payload as they stand on the lane before the FEC. -/
structure Coder where
  scr : BitVec 58
  slots : Nat
  turn : Nat
  line : List (Nat × BitVec 64)
deriving DecidableEq, Repr

/-- A lane that has sent nothing. The spec gives the scrambler no reset value (PRESUMED, log entry 175). -/
def Coder.start : Coder := ⟨0, 0, 0, []⟩

/-- One block is scrambled (but for an ALIGN block, over which the scrambler does not advance) and leaves, with its polarity
inverted when `inv` (R168, R185). -/
def Coder.put (c : Coder) (inv : Bool) (hdr : Nat) (w : BitVec 64) : Coder :=
  let flip := fun (h : Nat) (x : BitVec 64) => if inv then (3 - h, ~~~x) else (h, x)
  if isAlign hdr w then { c with line := flip hdr w :: c.line }
  else
    let t := scramble c.scr (payBits w)
    { c with scr := t.2, slots := c.slots + 1, line := flip hdr (ofPayBits t.1) :: c.line }

/-- A block goes out, after a FILLER when 2,047 block slots have passed since the last one (R169). -/
def Coder.send (c : Coder) (inv : Bool) (hdr : Nat) (w : BitVec 64) : Coder :=
  if !isAlign hdr w && 2047 ≤ c.slots then
    ({ c.put inv hdrCTL blkFILLER with slots := 0 }).put inv hdr w
  else c.put inv hdr w

/-! ### Codewords and symbols (R167, R170) -/

/-- Block slots between ALIGN blocks (R171). -/
def alignSlots : Nat := 82240

/-- The bits of a block on the lane: its sync header, then its payload (R167). -/
def lineBits (b : Nat × BitVec 64) : List Bool := [b.1.testBit 1, b.1.testBit 0] ++ payBits b.2

/-- One codeword: 514 message symbols of 10 bits as they were sent, then the 30 parity symbols that RS(544,514) adds (R170). The
code's field and generator are not in the spec, so the parity is a free value. -/
def codeword (parity : List Bool → Nat → Bool) (message : List Bool) : List Bool :=
  message ++ (List.range 300).map (parity message)

/-- A received codeword with more than 15 symbol errors is uncorrectable (R170). -/
def uncorrectable (symErrs : Nat) : Bool := 15 < symErrs

/-- The PAM4 level of a pair of bits, the first the most significant (R167). -/
def pam4 : Bool → Bool → Int
  | false, false => -3
  | false, true => -1
  | true, true => 1
  | true, false => 3

/-- The symbols of a bit stream on an NRZ lane (two levels) or a PAM4 lane (R167). -/
def symbols (pam : Bool) : List Bool → List Int
  | [] => []
  | [b] => [if b then 3 else -3]
  | a :: b :: r => if pam then pam4 a b :: symbols pam r else (if a then 3 else -3) :: symbols pam (b :: r)

/-! ### Frames as blocks (R226, R227) -/

/-- The eight bytes of a block. -/
def blkBytes (w : BitVec 64) : List Nat := bytesOf w.toNat 8

/-- The data blocks that hold bytes in order, the last padded with zero bytes (R226). -/
def dataBlocks : Nat → List Nat → List (BitVec 64)
  | 0, _ => []
  | n + 1, bs => BitVec.ofNat 64 (ofBytes (bs.take 8)) :: dataBlocks n (bs.drop 8)

/-- A control block with its CRC-8 in byte 7 (R225). -/
def ctlBlk (typ body : Nat) : BitVec 64 :=
  let bs := typ % 256 :: bytesOf body 6
  BitVec.ofNat 64 (ofBytes (bs ++ [crc8 bs]))

/-- The START block (Table PORT-6). -/
def startBlk (seq : Nat) (enc phase noSeq : Bool) (cls pool len : Nat) : BitVec 64 :=
  ctlBlk 0x2D (seq % 4096 + b2n enc <<< 12 + b2n phase <<< 13 + b2n noSeq <<< 14 + (cls % 8 + (pool % 4) <<< 3) <<< 16
    + (len % 65536) <<< 24)

/-- The link CRC: bytes 1 to 6 of START and every data block (R227). -/
def linkCrc (start : BitVec 64) (data : List (BitVec 64)) : Nat :=
  crc32 (((blkBytes start).drop 1).take 6 ++ data.flatMap blkBytes)

/-- The END block (Table PORT-6): it carries the link CRC and no CRC-8. -/
def endBlk (crc : Nat) : BitVec 64 := BitVec.ofNat 64 (0x4B + (crc % 2 ^ 32) <<< 8)

/-- A frame's blocks on the link, with their sync headers (R226): START, the data blocks, END. -/
def frameBlks (start : BitVec 64) (data : List (BitVec 64)) : List (Nat × BitVec 64) :=
  (hdrCTL, start) :: data.map (fun w => (hdrDATA, w)) ++ [(hdrCTL, endBlk (linkCrc start data))]

/-- The START fields of a received frame. -/
def LinkFrame.field (lf : LinkFrame) (hi lo : Nat) : Nat := bits lf.start.toNat (8 + hi) (8 + lo)
def LinkFrame.seq (lf : LinkFrame) : Nat := lf.field 11 0
def LinkFrame.enc (lf : LinkFrame) : Bool := lf.start.toNat.testBit 20
def LinkFrame.keyPhase (lf : LinkFrame) : Nat := lf.field 13 13
def LinkFrame.noSeq (lf : LinkFrame) : Bool := lf.start.toNat.testBit 22
def LinkFrame.cls (lf : LinkFrame) : Nat := lf.field 18 16
def LinkFrame.pool (lf : LinkFrame) : Nat := lf.field 20 19
def LinkFrame.len (lf : LinkFrame) : Nat := lf.field 39 24

/-- The control blocks that may stand inside a frame (Table PORT-6). -/
def mayStandInside (typ : Nat) : Bool := typ == 0x1E || typ == 0x55 || typ == 0x69 || typ == 0x71

/-- A control block inside the frame fails its CRC-8, is of an unknown type, or may not stand there: the frame fails its link CRC
(R225, R226). -/
def LinkFrame.insideBad (lf : LinkFrame) : Bool :=
  lf.within.any fun w => crc8 ((blkBytes w).take 7) != (blkBytes w).getD 7 0 || !mayStandInside (w.toNat % 256)

/-- The frame's blocks are those of its START and END (R226, R227, R228 step 1). -/
def LinkFrame.crcOk (lf : LinkFrame) : Bool :=
  lf.tail.toNat % 256 == 0x4B && linkCrc lf.start lf.data == bits lf.tail.toNat 39 8 && !lf.insideBad &&
    crc8 ((blkBytes lf.start).take 7) == (blkBytes lf.start).getD 7 0
def LinkFrame.countOk (lf : LinkFrame) : Bool := lf.data.length == ceilDiv lf.len 8 + (if lf.enc then 2 else 0)

end Sys2Proof
end

