-- ==== Sys2Proof/Machine/Map.lean ====
section
/-! DEFINITION. Sparse tables: a list of (key, value) pairs in one canonical form, keys strictly rising. A key the list does
not hold reads as the table's default, and writing the default removes the entry, so equal tables are equal lists. Every
register, counter and per-unit record of State is held in one. -/

namespace Sys2Proof.Machine

/-- A sparse table from natural-number keys. -/
abbrev Map (α : Type) := List (Nat × α)

namespace Map

variable {α : Type}

/-- The value at `k`; `d` when the table holds none. -/
def get (m : Map α) (k : Nat) (d : α) : α :=
  match m with
  | [] => d
  | (k', v) :: r => if k' = k then v else if k < k' then d else get r k d

/-- Remove the entry at `k`. -/
def del (m : Map α) (k : Nat) : Map α :=
  match m with
  | [] => []
  | (k', v) :: r => if k' = k then r else if k < k' then (k', v) :: r else (k', v) :: del r k

/-- Put `v` at `k`. -/
def put (m : Map α) (k : Nat) (v : α) : Map α :=
  match m with
  | [] => [(k, v)]
  | (k', v') :: r => if k' = k then (k, v) :: r else if k < k' then (k, v) :: (k', v') :: r else (k', v') :: put r k v

/-- Write `v` at `k` in a table whose default there is `d`: the default is not listed. -/
def set [DecidableEq α] (m : Map α) (k : Nat) (v d : α) : Map α :=
  if v = d then del m k else put m k v

/-- Keep the entries whose key satisfies `p`. -/
def keep (m : Map α) (p : Nat → Bool) : Map α := m.filter fun e => p e.1

/-- The canonical form: keys strictly rising. -/
def wf (m : Map α) : Prop := m.Pairwise fun a b => a.1 < b.1

/-- The canonical form of a table of numbers whose default is 0: no entry holds 0. -/
def wf0 (m : Map Nat) : Prop := m.wf ∧ ∀ e ∈ m, e.2 ≠ 0

theorem wf_nil : wf ([] : Map α) := List.Pairwise.nil

theorem wf0_nil : wf0 [] := ⟨wf_nil, by simp⟩

theorem keep_wf {m : Map α} (p : Nat → Bool) (h : m.wf) : (m.keep p).wf := List.Pairwise.filter _ h

theorem keep_wf0 {m : Map Nat} (p : Nat → Bool) (h : m.wf0) : (m.keep p).wf0 :=
  ⟨keep_wf p h.1, fun e he => h.2 e (List.mem_filter.1 he).1⟩

theorem mem_of_mem_del {m : Map α} {k : Nat} {e : Nat × α} (h : e ∈ m.del k) : e ∈ m := by
  induction m with
  | nil => simp [del] at h
  | cons a r ih =>
    obtain ⟨k', v⟩ := a
    simp only [del] at h
    split at h
    · exact List.mem_cons_of_mem _ h
    · split at h
      · exact h
      · rcases List.mem_cons.1 h with h | h
        · exact h ▸ List.mem_cons_self
        · exact List.mem_cons_of_mem _ (ih h)

theorem mem_of_mem_put {m : Map α} {k : Nat} {v : α} {e : Nat × α} (h : e ∈ m.put k v) : e = (k, v) ∨ e ∈ m := by
  induction m with
  | nil => simpa [put] using h
  | cons a r ih =>
    obtain ⟨k', v'⟩ := a
    simp only [put] at h
    split at h
    · rcases List.mem_cons.1 h with h | h
      · exact .inl h
      · exact .inr (List.mem_cons_of_mem _ h)
    · split at h
      · rcases List.mem_cons.1 h with h | h
        · exact .inl h
        · exact .inr h
      · rcases List.mem_cons.1 h with h | h
        · exact .inr (h ▸ List.mem_cons_self)
        · rcases ih h with h | h
          · exact .inl h
          · exact .inr (List.mem_cons_of_mem _ h)

theorem del_wf {m : Map α} (k : Nat) (h : m.wf) : (m.del k).wf := by
  induction m with
  | nil => exact h
  | cons a r ih =>
    obtain ⟨k', v⟩ := a
    obtain ⟨h1, h2⟩ := List.pairwise_cons.1 h
    simp only [del]
    split
    · exact h2
    · split
      · exact h
      · exact List.pairwise_cons.2 ⟨fun e he => h1 e (mem_of_mem_del he), ih h2⟩

theorem put_wf {m : Map α} (k : Nat) (v : α) (h : m.wf) : (m.put k v).wf := by
  induction m with
  | nil => exact List.pairwise_singleton _ _
  | cons a r ih =>
    obtain ⟨k', v'⟩ := a
    obtain ⟨h1, h2⟩ := List.pairwise_cons.1 h
    simp only [put]
    split
    · rename_i hk
      subst hk
      exact List.pairwise_cons.2 ⟨h1, h2⟩
    · split
      · rename_i hlt
        refine List.pairwise_cons.2 ⟨fun e he => ?_, h⟩
        rcases List.mem_cons.1 he with he | he
        · exact he ▸ hlt
        · exact Nat.lt_trans hlt (h1 e he)
      · refine List.pairwise_cons.2 ⟨fun e he => ?_, ih h2⟩
        rcases mem_of_mem_put he with he | he
        · subst he
          show k' < k
          omega
        · exact h1 e he

theorem set_wf [DecidableEq α] {m : Map α} (k : Nat) (v d : α) (h : m.wf) : (m.set k v d).wf := by
  unfold set
  split
  · exact del_wf k h
  · exact put_wf k v h

theorem set_wf0 {m : Map Nat} (k v : Nat) (h : m.wf0) : (m.set k v 0).wf0 := by
  refine ⟨set_wf k v 0 h.1, fun e he => ?_⟩
  unfold set at he
  split at he
  · exact h.2 e (mem_of_mem_del he)
  · rcases mem_of_mem_put he with he | he
    · subst he
      assumption
    · exact h.2 e he

theorem get_put_self (m : Map α) (k : Nat) (v d : α) : (m.put k v).get k d = v := by
  induction m with
  | nil => simp [put, get]
  | cons a r ih =>
    obtain ⟨k', v'⟩ := a
    simp only [put]
    split
    · simp [get]
    · split
      · simp [get]
      · rename_i h1 h2
        simp only [get, h1, if_false, h2]
        exact ih

theorem get_put_ne (m : Map α) {k j : Nat} (v d : α) (hj : j ≠ k) : (m.put k v).get j d = m.get j d := by
  induction m with
  | nil =>
    simp only [put, get]
    split
    · omega
    · split <;> rfl
  | cons a r ih =>
    obtain ⟨k', v'⟩ := a
    simp only [put]
    split
    · rename_i h
      subst h
      simp only [get]
      split
      · omega
      · rfl
    · split
      · rename_i h1 h2
        simp only [get]
        (repeat' split) <;> first | rfl | omega
      · simp only [get, ih]

theorem get_of_lt {m : Map α} {k : Nat} {d : α} (h : ∀ e ∈ m, k < e.1) : m.get k d = d := by
  cases m with
  | nil => rfl
  | cons a r =>
    obtain ⟨k', v'⟩ := a
    have : k < k' := h (k', v') List.mem_cons_self
    simp only [get]
    rw [if_neg (by omega), if_pos this]

theorem get_del_self {m : Map α} (h : m.wf) (k : Nat) (d : α) : (m.del k).get k d = d := by
  induction m with
  | nil => rfl
  | cons a r ih =>
    obtain ⟨k', v'⟩ := a
    obtain ⟨h1, h2⟩ := List.pairwise_cons.1 h
    simp only [del]
    split
    · rename_i hk
      subst hk
      exact get_of_lt h1
    · split
      · rename_i hn hl
        simp [get, hn, hl]
      · rename_i hn hl
        simp only [get, hn, if_false, hl]
        exact ih h2

theorem get_del_ne {m : Map α} (h : m.wf) {k j : Nat} (d : α) (hj : j ≠ k) : (m.del k).get j d = m.get j d := by
  induction m with
  | nil => rfl
  | cons a r ih =>
    obtain ⟨k', v'⟩ := a
    obtain ⟨h1, h2⟩ := List.pairwise_cons.1 h
    simp only [del]
    split
    · rename_i hk
      subst hk
      simp only [get]
      rw [if_neg (by omega)]
      split
      · rename_i hlt
        exact get_of_lt fun e he => Nat.lt_trans hlt (h1 e he)
      · rfl
    · split
      · rfl
      · simp only [get, ih h2]

/-- A read after a write of a canonical table gives the value written. -/
theorem get_set_self [DecidableEq α] {m : Map α} (h : m.wf) (k : Nat) (v d : α) : (m.set k v d).get k d = v := by
  unfold set
  split
  · rename_i hv
    rw [get_del_self h, hv]
  · exact get_put_self m k v d

/-- A write of a canonical table leaves every other place alone. -/
theorem get_set_ne [DecidableEq α] {m : Map α} (h : m.wf) {k j : Nat} (v d d' : α) (hj : j ≠ k) :
    (m.set k v d).get j d' = m.get j d' := by
  unfold set
  split
  · exact get_del_ne h d' hj
  · exact get_put_ne m v d' hj

end Map

end Sys2Proof.Machine
end

