-- ==== Sys2Proof/Machine/RegMap.lean ====
section
/-! DEFINITION. The register map of the part: one constant per register field of the spec's field tables (spec/02 to
spec/20), with its offset in its page, its lowest bit and width, its access type (Table PAGES-3), its reset value, the resets that
keep it (its "Kept over" column, R44) and, for an array of registers, how many there are and how far apart. The list of a page
kind is that page's register table. -/

namespace Sys2Proof.Machine

/-- Access types of Table PAGES-3. -/
inductive Acc where
  | ro | rw | w1c | w1s | wo | rc | ra | rsv
deriving DecidableEq, Repr

/-- One register field. `kept` has bit 0 for a warm reset, 1 face, 2 FLR, 3 instance, 4 port, 5 block soft reset (R44).
A value of `rst` from 2^32 up is the code of a reset value that depends on the unit
(`Fld.reset`). `perStamp` marks a field of which the part keeps one copy for each requester stamp. -/
structure Fld where
  off : Nat
  lo : Nat
  width : Nat
  ty : Acc
  rst : Nat
  kept : Nat
  count : Nat
  stride : Nat
  perStamp : Bool
deriving DecidableEq, Repr

/-! ### HDR -/

def Fld.BLK_ID_CODE : Fld := ⟨0x0, 16, 16, .ro, 0, 63, 1, 0, false⟩
def Fld.BLK_ID_INSTANCE : Fld := ⟨0x0, 0, 16, .ro, 0, 63, 1, 0, false⟩
def Fld.BLK_REV_MAJOR : Fld := ⟨0x4, 8, 8, .ro, 1, 63, 1, 0, false⟩
def Fld.BLK_REV_MINOR : Fld := ⟨0x4, 0, 8, .ro, 0, 63, 1, 0, false⟩
def Fld.BLK_CTRL_SOFT_RESET : Fld := ⟨0x10, 2, 1, .w1s, 0, 0, 1, 0, false⟩
def Fld.BLK_CTRL_QUIESCE : Fld := ⟨0x10, 1, 1, .rw, 0, 30, 1, 0, false⟩
def Fld.BLK_CTRL_ENABLE : Fld := ⟨0x10, 0, 1, .rw, 0, 62, 1, 0, false⟩
def Fld.BLK_STAT_FAULT : Fld := ⟨0x14, 2, 1, .ro, 0, 63, 1, 0, false⟩
def Fld.BLK_STAT_QUIESCED : Fld := ⟨0x14, 1, 1, .ro, 0, 30, 1, 0, false⟩
def Fld.BLK_STAT_READY : Fld := ⟨0x14, 0, 1, .ro, 0, 30, 1, 0, false⟩
def Fld.ERR_FIRST_VALID : Fld := ⟨0x30, 31, 1, .w1c, 0, 63, 1, 0, false⟩
def Fld.ERR_FIRST_MORE : Fld := ⟨0x30, 30, 1, .ro, 0, 63, 1, 0, false⟩
def Fld.ERR_FIRST_CLASS : Fld := ⟨0x30, 28, 2, .ro, 0, 63, 1, 0, false⟩
def Fld.ERR_FIRST_INDEX : Fld := ⟨0x30, 0, 5, .ro, 0, 63, 1, 0, false⟩
def Fld.INT_ROUTE_TARGET : Fld := ⟨0x48, 30, 2, .rw, 1, 30, 1, 0, false⟩
def Fld.INT_ROUTE_FACE : Fld := ⟨0x48, 24, 5, .rw, 0, 30, 1, 0, false⟩
def Fld.INT_ROUTE_VECTOR : Fld := ⟨0x48, 0, 11, .rw, 0, 30, 1, 0, false⟩
def Fld.CNT_SEL_AUTO_INC : Fld := ⟨0x80, 31, 1, .rw, 0, 62, 1, 0, true⟩
def Fld.CNT_SEL_INDEX : Fld := ⟨0x80, 0, 16, .rw, 0, 62, 1, 0, true⟩
def Fld.CNT_STAT_SAT : Fld := ⟨0x8c, 0, 16, .w1c, 0, 63, 1, 0, false⟩
def Fld.PAGE_LOCK_LOCK_GEN : Fld := ⟨0xc0, 8, 8, .ro, 0, 63, 1, 0, false⟩
def Fld.PAGE_LOCK_LOCKED : Fld := ⟨0xc0, 0, 1, .ro, 0, 63, 1, 0, false⟩
def Fld.BLK_CAP0_CAP : Fld := ⟨0x8, 0, 32, .ro, 0, 63, 1, 0, false⟩
def Fld.BLK_CAP1_CAP : Fld := ⟨0xc, 0, 32, .ro, 0, 63, 1, 0, false⟩
def Fld.ERR_MASK_MASK : Fld := ⟨0x24, 0, 32, .rw, 0, 62, 1, 0, false⟩
def Fld.ERR_FIRST_TS_TS : Fld := ⟨0x38, 0, 32, .ro, 0, 63, 1, 0, false⟩
def Fld.ERR_FIRST_TS_TS_HI : Fld := ⟨0x3c, 0, 32, .ro, 0, 63, 1, 0, false⟩
def Fld.INT_CAUSE_ERR : Fld := ⟨0x40, 31, 1, .w1c, 0, 30, 1, 0, false⟩
def Fld.INT_CAUSE_CNT_SAT : Fld := ⟨0x40, 30, 1, .w1c, 0, 30, 1, 0, false⟩
def Fld.INT_CAUSE_BLK_INT : Fld := ⟨0x40, 0, 28, .w1c, 0, 30, 1, 0, false⟩
def Fld.INT_EN_ERR : Fld := ⟨0x44, 31, 1, .rw, 0, 30, 1, 0, false⟩
def Fld.INT_EN_CNT_SAT : Fld := ⟨0x44, 30, 1, .rw, 0, 30, 1, 0, false⟩
def Fld.INT_EN_BLK_INT : Fld := ⟨0x44, 0, 28, .rw, 0, 30, 1, 0, false⟩
def Fld.CNT_LO_LOW : Fld := ⟨0x84, 0, 32, .ro, 0, 0, 1, 0, false⟩
def Fld.CNT_HI_HIGH : Fld := ⟨0x88, 0, 16, .ro, 0, 0, 1, 0, true⟩
def Fld.CNT_CLR_CLR : Fld := ⟨0x90, 0, 16, .wo, 0, 0, 1, 0, false⟩
def Fld.CNT_SAT_EN_SAT_EN : Fld := ⟨0x94, 0, 16, .rw, 0, 62, 1, 0, false⟩
def Fld.SCRATCH_SCRATCH : Fld := ⟨0xf0, 0, 32, .rw, 0, 62, 1, 0, false⟩
def Fld.ERR_STICKY_BITS : Fld := ⟨0x20, 0, 32, .w1c, 0, 63, 1, 0, false⟩

/-- The register table of a page of kind HDR. -/
def tabHDR : List Fld :=
  [.BLK_ID_CODE, .BLK_ID_INSTANCE, .BLK_REV_MAJOR, .BLK_REV_MINOR, .BLK_CTRL_SOFT_RESET, .BLK_CTRL_QUIESCE,
   .BLK_CTRL_ENABLE, .BLK_STAT_FAULT, .BLK_STAT_QUIESCED, .BLK_STAT_READY, .ERR_FIRST_VALID, .ERR_FIRST_MORE,
   .ERR_FIRST_CLASS, .ERR_FIRST_INDEX, .INT_ROUTE_TARGET, .INT_ROUTE_FACE, .INT_ROUTE_VECTOR, .CNT_SEL_AUTO_INC,
   .CNT_SEL_INDEX, .CNT_STAT_SAT, .PAGE_LOCK_LOCK_GEN, .PAGE_LOCK_LOCKED, .BLK_CAP0_CAP, .BLK_CAP1_CAP,
   .ERR_MASK_MASK, .ERR_FIRST_TS_TS, .ERR_FIRST_TS_TS_HI, .INT_CAUSE_ERR, .INT_CAUSE_CNT_SAT, .INT_CAUSE_BLK_INT,
   .INT_EN_ERR, .INT_EN_CNT_SAT, .INT_EN_BLK_INT, .CNT_LO_LOW, .CNT_HI_HIGH, .CNT_CLR_CLR, .CNT_SAT_EN_SAT_EN,
   .SCRATCH_SCRATCH, .ERR_STICKY_BITS]

/-! ### TENANT -/

def Fld.VI_ID_FACE : Fld := ⟨0x0, 16, 5, .ro, 0, 55, 1, 0, false⟩
def Fld.VI_ID_VI : Fld := ⟨0x0, 0, 10, .ro, 0, 63, 1, 0, false⟩
def Fld.VI_STAT_FENCED : Fld := ⟨0x4, 3, 1, .ro, 0, 55, 1, 0, false⟩
def Fld.VI_STAT_SUSPENDED : Fld := ⟨0x4, 2, 1, .ro, 0, 63, 1, 0, false⟩
def Fld.VI_STAT_RESETTING : Fld := ⟨0x4, 1, 1, .ro, 0, 55, 1, 0, false⟩
def Fld.VI_STAT_BOUND : Fld := ⟨0x4, 0, 1, .ro, 0, 63, 1, 0, false⟩
def Fld.VI_EPOCH_EPOCH : Fld := ⟨0x8, 0, 16, .ro, 0, 63, 1, 0, false⟩
def Fld.VI_PASID_PASID : Fld := ⟨0x40, 0, 20, .ro, 0, 63, 1, 0, false⟩
def Fld.VI_CTRL_SELF_RESET : Fld := ⟨0x44, 0, 1, .w1s, 0, 0, 1, 0, false⟩
def Fld.VI_SHARE_SHARE : Fld := ⟨0x48, 0, 12, .ro, 0, 63, 1, 0, false⟩
def Fld.VI_VEC_VEC_LOG2 : Fld := ⟨0x4c, 12, 3, .ro, 0, 63, 1, 0, false⟩
def Fld.VI_VEC_VEC_BASE : Fld := ⟨0x4c, 0, 11, .ro, 0, 63, 1, 0, false⟩
def Fld.VIW_POST_PTR_V : Fld := ⟨0x800, 0, 32, .rw, 0, 62, 1, 0, false⟩
def Fld.VIW_POST_PTR_V_HI : Fld := ⟨0x804, 0, 32, .rw, 0, 62, 1, 0, false⟩
def Fld.VIW_POST_LEN_V : Fld := ⟨0x808, 0, 32, .rw, 0, 62, 1, 0, false⟩
def Fld.VIW_POST_USER_V : Fld := ⟨0x80c, 0, 32, .rw, 0, 62, 1, 0, false⟩
def Fld.VIW_NOTICE_POST_GO : Fld := ⟨0x810, 31, 1, .w1s, 0, 0, 1, 0, false⟩
def Fld.VIW_NOTICE_POST_STATUS : Fld := ⟨0x810, 28, 3, .ro, 0, 62, 1, 0, false⟩
def Fld.VIW_NOTICE_POST_FWQ : Fld := ⟨0x810, 24, 4, .rw, 0, 62, 1, 0, false⟩
def Fld.VIW_NOTICE_POST_DEST : Fld := ⟨0x810, 0, 13, .rw, 0, 62, 1, 0, false⟩
def Fld.VIW_NOTICE_READ_DW : Fld := ⟨0x820, 0, 32, .ro, 0, 0, 8, 4, false⟩
def Fld.VIW_Q_STAT_ARM : Fld := ⟨0x840, 31, 1, .w1s, 0, 30, 1, 0, false⟩
def Fld.VIW_Q_STAT_COUNT : Fld := ⟨0x840, 0, 9, .ro, 0, 30, 1, 0, false⟩
def Fld.VIW_EPOCH_QUERY_VALID : Fld := ⟨0x844, 31, 1, .ro, 0, 0, 1, 0, false⟩
def Fld.VIW_EPOCH_QUERY_FEID : Fld := ⟨0x844, 0, 13, .wo, 0, 0, 1, 0, false⟩
def Fld.VIW_OWN_EPOCH_EPOCH : Fld := ⟨0x848, 0, 16, .ro, 0, 0, 1, 0, false⟩

/-- The register table of a page of kind TENANT. -/
def tabTENANT : List Fld :=
  [.VI_ID_FACE, .VI_ID_VI, .VI_STAT_FENCED, .VI_STAT_SUSPENDED, .VI_STAT_RESETTING, .VI_STAT_BOUND, .VI_EPOCH_EPOCH,
   .VI_PASID_PASID, .VI_CTRL_SELF_RESET, .VI_SHARE_SHARE, .VI_VEC_VEC_LOG2, .VI_VEC_VEC_BASE, .VIW_POST_PTR_V,
   .VIW_POST_PTR_V_HI, .VIW_POST_LEN_V, .VIW_POST_USER_V, .VIW_NOTICE_POST_GO, .VIW_NOTICE_POST_STATUS,
   .VIW_NOTICE_POST_FWQ, .VIW_NOTICE_POST_DEST, .VIW_NOTICE_READ_DW, .VIW_Q_STAT_ARM, .VIW_Q_STAT_COUNT,
   .VIW_EPOCH_QUERY_VALID, .VIW_EPOCH_QUERY_FEID, .VIW_OWN_EPOCH_EPOCH]

/-! ### GLB -/

def Fld.GLB_DEV_STATE_BOOT_ERR : Fld := ⟨0x108, 16, 8, .ro, 0, 63, 1, 0, false⟩
def Fld.GLB_DEV_STATE_FW_SLOT : Fld := ⟨0x108, 10, 2, .ro, 3, 62, 1, 0, false⟩
def Fld.GLB_DEV_STATE_CFG_SLOT : Fld := ⟨0x108, 8, 2, .ro, 3, 62, 1, 0, false⟩
def Fld.GLB_DEV_STATE_STATE : Fld := ⟨0x108, 0, 4, .ro, 1, 62, 1, 0, false⟩
def Fld.GLB_RESET_CTRL_KEY : Fld := ⟨0x10c, 16, 16, .wo, 0, 0, 1, 0, false⟩
def Fld.GLB_RESET_CTRL_WARM : Fld := ⟨0x10c, 0, 1, .wo, 0, 0, 1, 0, false⟩
def Fld.GLB_RESET_CAUSE_LAST : Fld := ⟨0x110, 28, 4, .ro, 0, 63, 1, 0, false⟩
def Fld.GLB_RESET_CAUSE_WAKE_SRC : Fld := ⟨0x110, 24, 4, .ro, 0, 63, 1, 0, false⟩
def Fld.GLB_RESET_CAUSE_INSTALL_ABORT : Fld := ⟨0x110, 8, 1, .w1c, 0, 63, 1, 0, false⟩
def Fld.GLB_RESET_CAUSE_TURN_DISARMED : Fld := ⟨0x110, 7, 1, .w1c, 0, 63, 1, 0, false⟩
def Fld.GLB_RESET_CAUSE_SAFE_HALT : Fld := ⟨0x110, 6, 1, .w1c, 0, 63, 1, 0, false⟩
def Fld.GLB_RESET_CAUSE_WARM_REG : Fld := ⟨0x110, 5, 1, .w1c, 0, 63, 1, 0, false⟩
def Fld.GLB_RESET_CAUSE_WARM_PIN : Fld := ⟨0x110, 4, 1, .w1c, 0, 63, 1, 0, false⟩
def Fld.GLB_RESET_CAUSE_COLD_WAKE : Fld := ⟨0x110, 3, 1, .w1c, 0, 63, 1, 0, false⟩
def Fld.GLB_RESET_CAUSE_COLD_RAIL : Fld := ⟨0x110, 2, 1, .w1c, 0, 63, 1, 0, false⟩
def Fld.GLB_RESET_CAUSE_COLD_VKEEP : Fld := ⟨0x110, 1, 1, .w1c, 0, 63, 1, 0, false⟩
def Fld.GLB_QUIET_CTRL_KEY : Fld := ⟨0x114, 16, 16, .wo, 0, 0, 1, 0, false⟩
def Fld.GLB_QUIET_CTRL_WAKE_TIMER_EN : Fld := ⟨0x114, 3, 1, .rw, 0, 62, 1, 0, false⟩
def Fld.GLB_QUIET_CTRL_WAKE_PRSNT : Fld := ⟨0x114, 2, 1, .rw, 0, 62, 1, 0, false⟩
def Fld.GLB_QUIET_CTRL_WAKE_FPERST : Fld := ⟨0x114, 1, 1, .rw, 0, 62, 1, 0, false⟩
def Fld.GLB_QUIET_CTRL_ENTER : Fld := ⟨0x114, 0, 1, .wo, 0, 0, 1, 0, false⟩
def Fld.GLB_WAKE_TIMER_SECONDS : Fld := ⟨0x118, 0, 24, .rw, 0, 62, 1, 0, false⟩
def Fld.GLB_WAKE_FACES_MASK : Fld := ⟨0x11c, 0, 32, .rw, 0, 62, 1, 0, false⟩
def Fld.GLB_CHIP_ID_ID : Fld := ⟨0x100, 0, 32, .ro, 119087105, 63, 1, 0, false⟩
def Fld.GLB_STEPPING_STEPPING : Fld := ⟨0x104, 0, 32, .ro, 176, 63, 1, 0, false⟩

/-- The register table of a page of kind GLB. -/
def tabGLB : List Fld :=
  [.GLB_DEV_STATE_BOOT_ERR, .GLB_DEV_STATE_FW_SLOT, .GLB_DEV_STATE_CFG_SLOT, .GLB_DEV_STATE_STATE,
   .GLB_RESET_CTRL_KEY, .GLB_RESET_CTRL_WARM, .GLB_RESET_CAUSE_LAST, .GLB_RESET_CAUSE_WAKE_SRC,
   .GLB_RESET_CAUSE_INSTALL_ABORT, .GLB_RESET_CAUSE_TURN_DISARMED, .GLB_RESET_CAUSE_SAFE_HALT,
   .GLB_RESET_CAUSE_WARM_REG, .GLB_RESET_CAUSE_WARM_PIN, .GLB_RESET_CAUSE_COLD_WAKE, .GLB_RESET_CAUSE_COLD_RAIL,
   .GLB_RESET_CAUSE_COLD_VKEEP, .GLB_QUIET_CTRL_KEY, .GLB_QUIET_CTRL_WAKE_TIMER_EN, .GLB_QUIET_CTRL_WAKE_PRSNT,
   .GLB_QUIET_CTRL_WAKE_FPERST, .GLB_QUIET_CTRL_ENTER, .GLB_WAKE_TIMER_SECONDS, .GLB_WAKE_FACES_MASK, .GLB_CHIP_ID_ID,
   .GLB_STEPPING_STEPPING]

/-! ### LANE -/

def Fld.LANE_OCT_CFG_B_RATE : Fld := ⟨0x100, 0, 2, .rw, 0, 30, 1, 0, false⟩
def Fld.LANE_OCT_STAT_REF_B_OK : Fld := ⟨0x104, 3, 1, .ro, 0, 30, 1, 0, false⟩
def Fld.LANE_OCT_STAT_REF_A_OK : Fld := ⟨0x104, 2, 1, .ro, 0, 30, 1, 0, false⟩
def Fld.LANE_OCT_STAT_B_LOCK : Fld := ⟨0x104, 1, 1, .ro, 0, 30, 1, 0, false⟩
def Fld.LANE_OCT_STAT_A_LOCK : Fld := ⟨0x104, 0, 1, .ro, 0, 30, 1, 0, false⟩
def Fld.LANE_RATE_CFG_RATE_NOW : Fld := ⟨0x400, 16, 4, .ro, 0, 30, 8, 128, false⟩
def Fld.LANE_RATE_CFG_PCIE_MAX : Fld := ⟨0x400, 12, 4, .rw, 6, 30, 8, 128, false⟩
def Fld.LANE_RATE_CFG_RX_INV_NOW : Fld := ⟨0x400, 9, 1, .ro, 0, 30, 8, 128, false⟩
def Fld.LANE_RATE_CFG_RX_INV_AUTO : Fld := ⟨0x400, 8, 1, .rw, 1, 30, 8, 128, false⟩
def Fld.LANE_RATE_CFG_RX_INV : Fld := ⟨0x400, 7, 1, .rw, 0, 30, 8, 128, false⟩
def Fld.LANE_RATE_CFG_TX_INV : Fld := ⟨0x400, 6, 1, .rw, 0, 30, 8, 128, false⟩
def Fld.LANE_RATE_CFG_MODE : Fld := ⟨0x400, 0, 2, .ro, 0, 14, 8, 128, false⟩
def Fld.LANE_STAT_LOGICAL : Fld := ⟨0x404, 12, 4, .ro, 0, 14, 8, 128, false⟩
def Fld.LANE_STAT_STATE : Fld := ⟨0x404, 9, 3, .ro, 0, 14, 8, 128, false⟩
def Fld.LANE_STAT_EXIT_FAIL : Fld := ⟨0x404, 8, 1, .ro, 0, 14, 8, 128, false⟩
def Fld.LANE_STAT_EQ_FAIL : Fld := ⟨0x404, 7, 1, .ro, 0, 14, 8, 128, false⟩
def Fld.LANE_STAT_FEC_LOCK : Fld := ⟨0x404, 6, 1, .ro, 0, 14, 8, 128, false⟩
def Fld.LANE_STAT_ALIGN_LOCK : Fld := ⟨0x404, 5, 1, .ro, 0, 14, 8, 128, false⟩
def Fld.LANE_STAT_CDR_LOCK : Fld := ⟨0x404, 4, 1, .ro, 0, 14, 8, 128, false⟩
def Fld.LANE_STAT_SIG_DET : Fld := ⟨0x404, 3, 1, .ro, 0, 14, 8, 128, false⟩
def Fld.LANE_STAT_RX_READY : Fld := ⟨0x404, 2, 1, .ro, 0, 14, 8, 128, false⟩
def Fld.LANE_STAT_EQ_DONE : Fld := ⟨0x404, 1, 1, .ro, 0, 14, 8, 128, false⟩
def Fld.LANE_STAT_FAILED : Fld := ⟨0x404, 0, 1, .ro, 0, 14, 8, 128, false⟩
def Fld.LANE_EQ_CTRL_RETRIES : Fld := ⟨0x408, 20, 4, .rw, 3, 30, 8, 128, false⟩
def Fld.LANE_EQ_CTRL_RESP_TIMEOUT : Fld := ⟨0x408, 8, 8, .rw, 125, 30, 8, 128, false⟩
def Fld.LANE_EQ_CTRL_INIT_PRESET : Fld := ⟨0x408, 4, 2, .rw, 1, 30, 8, 128, false⟩
def Fld.LANE_EQ_CTRL_RX_ADAPT : Fld := ⟨0x408, 2, 1, .rw, 1, 30, 8, 128, false⟩
def Fld.LANE_EQ_CTRL_MODE : Fld := ⟨0x408, 0, 1, .rw, 0, 30, 8, 128, false⟩
def Fld.LANE_TX_TAPS_C0 : Fld := ⟨0x40c, 16, 6, .rw, 39, 30, 8, 128, false⟩
def Fld.LANE_TX_TAPS_POST : Fld := ⟨0x40c, 8, 5, .rw, 6, 30, 8, 128, false⟩
def Fld.LANE_TX_TAPS_PRE : Fld := ⟨0x40c, 0, 4, .rw, 3, 30, 8, 128, false⟩
def Fld.LANE_PRBS_CTRL_CHK_LOCK : Fld := ⟨0x410, 31, 1, .ro, 0, 30, 8, 128, false⟩
def Fld.LANE_PRBS_CTRL_TEST_RATE : Fld := ⟨0x410, 24, 4, .rw, 0, 30, 8, 128, false⟩
def Fld.LANE_PRBS_CTRL_LOOPBACK : Fld := ⟨0x410, 20, 4, .rw, 0, 30, 8, 128, false⟩
def Fld.LANE_PRBS_CTRL_PATTERN : Fld := ⟨0x410, 12, 4, .rw, 5, 30, 8, 128, false⟩
def Fld.LANE_PRBS_CTRL_CHK_MODE : Fld := ⟨0x410, 9, 1, .rw, 0, 30, 8, 128, false⟩
def Fld.LANE_PRBS_CTRL_CHK_EN : Fld := ⟨0x410, 8, 1, .rw, 0, 30, 8, 128, false⟩
def Fld.LANE_PRBS_CTRL_GEN_EN : Fld := ⟨0x410, 0, 1, .rw, 0, 30, 8, 128, false⟩
def Fld.LANE_INJ_CTRL_ONE_SHOT : Fld := ⟨0x414, 31, 1, .w1s, 0, 0, 8, 128, false⟩
def Fld.LANE_INJ_CTRL_TARGET : Fld := ⟨0x414, 29, 2, .rw, 0, 30, 8, 128, false⟩
def Fld.LANE_INJ_CTRL_COUNT : Fld := ⟨0x414, 16, 8, .rw, 1, 30, 8, 128, false⟩
def Fld.LANE_INJ_CTRL_PERIOD : Fld := ⟨0x414, 0, 16, .rw, 0, 30, 8, 128, false⟩
def Fld.LANE_SLIP_DONE : Fld := ⟨0x428, 31, 1, .ro, 1, 30, 8, 128, false⟩
def Fld.LANE_SLIP_UI : Fld := ⟨0x428, 0, 6, .wo, 0, 0, 8, 128, false⟩
def Fld.LANE_REST_CTRL_LONG_AFTER : Fld := ⟨0x42c, 16, 8, .rw, 10, 30, 8, 128, false⟩
def Fld.LANE_REST_CTRL_LONG_ALWAYS : Fld := ⟨0x42c, 2, 1, .rw, 0, 30, 8, 128, false⟩
def Fld.LANE_REST_CTRL_REST_EN : Fld := ⟨0x42c, 1, 1, .rw, 1, 30, 8, 128, false⟩
def Fld.LANE_REST_CTRL_IN_REST : Fld := ⟨0x42c, 0, 1, .ro, 0, 14, 8, 128, false⟩
def Fld.LANE_RX_STAT_EYE_V : Fld := ⟨0x438, 24, 8, .ro, 0, 14, 8, 128, false⟩
def Fld.LANE_RX_STAT_EYE_H : Fld := ⟨0x438, 16, 8, .ro, 0, 14, 8, 128, false⟩
def Fld.LANE_RX_STAT_SNR : Fld := ⟨0x438, 8, 8, .ro, 0, 14, 8, 128, false⟩
def Fld.LANE_RX_STAT_CTLE : Fld := ⟨0x438, 0, 8, .ro, 0, 14, 8, 128, false⟩
def Fld.LANE_PRBS_ERR_LOW : Fld := ⟨0x418, 0, 32, .ro, 0, 63, 8, 128, false⟩
def Fld.LANE_PRBS_ERR_HIGH : Fld := ⟨0x41c, 0, 16, .ro, 0, 63, 8, 128, false⟩
def Fld.LANE_PRBS_BITS_LOW : Fld := ⟨0x420, 0, 32, .ro, 0, 63, 8, 128, false⟩
def Fld.LANE_PRBS_BITS_HIGH : Fld := ⟨0x424, 0, 16, .ro, 0, 63, 8, 128, false⟩
def Fld.LANE_USER_PAT_PAT : Fld := ⟨0x430, 0, 32, .rw, 0, 30, 8, 128, false⟩
def Fld.LANE_USER_PAT_PAT_HI : Fld := ⟨0x434, 0, 32, .rw, 0, 30, 8, 128, false⟩

/-- Part 0 of the register table of a page of kind LANE. -/
def tabLANE_0 : List Fld :=
  [.LANE_OCT_CFG_B_RATE, .LANE_OCT_STAT_REF_B_OK, .LANE_OCT_STAT_REF_A_OK, .LANE_OCT_STAT_B_LOCK,
   .LANE_OCT_STAT_A_LOCK, .LANE_RATE_CFG_RATE_NOW, .LANE_RATE_CFG_PCIE_MAX, .LANE_RATE_CFG_RX_INV_NOW,
   .LANE_RATE_CFG_RX_INV_AUTO, .LANE_RATE_CFG_RX_INV, .LANE_RATE_CFG_TX_INV, .LANE_RATE_CFG_MODE, .LANE_STAT_LOGICAL,
   .LANE_STAT_STATE, .LANE_STAT_EXIT_FAIL, .LANE_STAT_EQ_FAIL, .LANE_STAT_FEC_LOCK, .LANE_STAT_ALIGN_LOCK,
   .LANE_STAT_CDR_LOCK, .LANE_STAT_SIG_DET, .LANE_STAT_RX_READY, .LANE_STAT_EQ_DONE, .LANE_STAT_FAILED,
   .LANE_EQ_CTRL_RETRIES, .LANE_EQ_CTRL_RESP_TIMEOUT, .LANE_EQ_CTRL_INIT_PRESET, .LANE_EQ_CTRL_RX_ADAPT,
   .LANE_EQ_CTRL_MODE, .LANE_TX_TAPS_C0, .LANE_TX_TAPS_POST, .LANE_TX_TAPS_PRE, .LANE_PRBS_CTRL_CHK_LOCK,
   .LANE_PRBS_CTRL_TEST_RATE, .LANE_PRBS_CTRL_LOOPBACK, .LANE_PRBS_CTRL_PATTERN, .LANE_PRBS_CTRL_CHK_MODE,
   .LANE_PRBS_CTRL_CHK_EN, .LANE_PRBS_CTRL_GEN_EN, .LANE_INJ_CTRL_ONE_SHOT, .LANE_INJ_CTRL_TARGET]

/-- Part 1 of the register table of a page of kind LANE. -/
def tabLANE_1 : List Fld :=
  [.LANE_INJ_CTRL_COUNT, .LANE_INJ_CTRL_PERIOD, .LANE_SLIP_DONE, .LANE_SLIP_UI, .LANE_REST_CTRL_LONG_AFTER,
   .LANE_REST_CTRL_LONG_ALWAYS, .LANE_REST_CTRL_REST_EN, .LANE_REST_CTRL_IN_REST, .LANE_RX_STAT_EYE_V,
   .LANE_RX_STAT_EYE_H, .LANE_RX_STAT_SNR, .LANE_RX_STAT_CTLE, .LANE_PRBS_ERR_LOW, .LANE_PRBS_ERR_HIGH,
   .LANE_PRBS_BITS_LOW, .LANE_PRBS_BITS_HIGH, .LANE_USER_PAT_PAT, .LANE_USER_PAT_PAT_HI]

/-- The register table of a page of kind LANE. -/
def tabLANE : List Fld :=
  tabLANE_0 ++ tabLANE_1

/-! ### PORT -/

def Fld.PORT_CFG_APPLY : Fld := ⟨0x100, 31, 1, .w1s, 0, 0, 1, 0, false⟩
def Fld.PORT_CFG_REFUSED : Fld := ⟨0x100, 30, 1, .ro, 0, 30, 1, 0, false⟩
def Fld.PORT_CFG_ROLE : Fld := ⟨0x100, 28, 2, .rw, 0, 30, 1, 0, false⟩
def Fld.PORT_CFG_WIDTH : Fld := ⟨0x100, 25, 3, .rw, 0, 30, 1, 0, false⟩
def Fld.PORT_CFG_MIN_WIDTH : Fld := ⟨0x100, 22, 3, .rw, 0, 30, 1, 0, false⟩
def Fld.PORT_CFG_FLIT_BELOW : Fld := ⟨0x100, 17, 1, .rw, 0, 30, 1, 0, false⟩
def Fld.PORT_CFG_SEP_REF : Fld := ⟨0x100, 16, 1, .rw, 0, 30, 1, 0, false⟩
def Fld.PORT_CFG_ENC_REQ : Fld := ⟨0x100, 15, 1, .rw, 0, 30, 1, 0, false⟩
def Fld.PORT_CFG_CYC_RX : Fld := ⟨0x100, 14, 1, .rw, 0, 30, 1, 0, false⟩
def Fld.PORT_CFG_CYC_TX : Fld := ⟨0x100, 13, 1, .rw, 0, 30, 1, 0, false⟩
def Fld.PORT_LINK_STAT_STATE : Fld := ⟨0x104, 27, 5, .ro, 0, 14, 1, 0, false⟩
def Fld.PORT_LINK_STAT_WIDTH_NOW : Fld := ⟨0x104, 24, 3, .ro, 0, 14, 1, 0, false⟩
def Fld.PORT_LINK_STAT_RATE_NOW : Fld := ⟨0x104, 20, 4, .ro, 0, 14, 1, 0, false⟩
def Fld.PORT_LINK_STAT_FLIT : Fld := ⟨0x104, 19, 1, .ro, 0, 14, 1, 0, false⟩
def Fld.PORT_LINK_STAT_ENC : Fld := ⟨0x104, 18, 1, .ro, 0, 14, 1, 0, false⟩
def Fld.PORT_LINK_STAT_KEY_PHASE : Fld := ⟨0x104, 17, 1, .ro, 0, 14, 1, 0, false⟩
def Fld.PORT_LINK_STAT_ABSENT : Fld := ⟨0x104, 16, 1, .ro, 0, 14, 1, 0, false⟩
def Fld.PORT_LINK_STAT_LANES_GOOD : Fld := ⟨0x104, 0, 16, .ro, 0, 14, 1, 0, false⟩
def Fld.PORT_LINK_CTRL_RETRAIN : Fld := ⟨0x108, 31, 1, .w1s, 0, 0, 1, 0, false⟩
def Fld.PORT_LINK_CTRL_LINK_RETIRE : Fld := ⟨0x108, 30, 1, .w1s, 0, 0, 1, 0, false⟩
def Fld.PORT_LINK_CTRL_DISABLE : Fld := ⟨0x108, 29, 1, .rw, 0, 30, 1, 0, false⟩
def Fld.PORT_LINK_CTRL_REST_EN : Fld := ⟨0x108, 28, 1, .rw, 1, 30, 1, 0, false⟩
def Fld.PORT_LINK_CTRL_REST_IDLE : Fld := ⟨0x108, 24, 4, .rw, 2, 30, 1, 0, false⟩
def Fld.PORT_LINK_CTRL_ACK_COALESCE : Fld := ⟨0x108, 16, 8, .rw, 8, 30, 1, 0, false⟩
def Fld.PORT_LINK_CTRL_CREDIT_STALL : Fld := ⟨0x108, 12, 4, .rw, 6, 30, 1, 0, false⟩
def Fld.PORT_LINK_CTRL_CLKREQ_GPIO : Fld := ⟨0x108, 6, 6, .rw, 63, 30, 1, 0, false⟩
def Fld.PORT_REPLAY_CNT_CONSEC : Fld := ⟨0x10c, 24, 8, .ro, 0, 14, 1, 0, false⟩
def Fld.PORT_REPLAY_CNT_LIMIT : Fld := ⟨0x10c, 20, 4, .rw, 4, 30, 1, 0, false⟩
def Fld.PORT_REPLAY_CNT_TIMEOUT : Fld := ⟨0x10c, 0, 16, .rw, 500, 30, 1, 0, false⟩
def Fld.PORT_CONTAIN_CLASS : Fld := ⟨0x110, 8, 2, .ro, 0, 63, 1, 0, false⟩
def Fld.PORT_CONTAIN_BY_SW : Fld := ⟨0x110, 7, 1, .ro, 0, 63, 1, 0, false⟩
def Fld.PORT_CONTAIN_STATE : Fld := ⟨0x110, 4, 3, .ro, 0, 63, 1, 0, false⟩
def Fld.PORT_CONTAIN_RELEASE : Fld := ⟨0x110, 1, 1, .w1s, 0, 0, 1, 0, false⟩
def Fld.PORT_CONTAIN_CONTAIN : Fld := ⟨0x110, 0, 1, .w1s, 0, 0, 1, 0, false⟩

/-- The register table of a page of kind PORT. -/
def tabPORT : List Fld :=
  [.PORT_CFG_APPLY, .PORT_CFG_REFUSED, .PORT_CFG_ROLE, .PORT_CFG_WIDTH, .PORT_CFG_MIN_WIDTH, .PORT_CFG_FLIT_BELOW,
   .PORT_CFG_SEP_REF, .PORT_CFG_ENC_REQ, .PORT_CFG_CYC_RX, .PORT_CFG_CYC_TX, .PORT_LINK_STAT_STATE,
   .PORT_LINK_STAT_WIDTH_NOW, .PORT_LINK_STAT_RATE_NOW, .PORT_LINK_STAT_FLIT, .PORT_LINK_STAT_ENC,
   .PORT_LINK_STAT_KEY_PHASE, .PORT_LINK_STAT_ABSENT, .PORT_LINK_STAT_LANES_GOOD, .PORT_LINK_CTRL_RETRAIN,
   .PORT_LINK_CTRL_LINK_RETIRE, .PORT_LINK_CTRL_DISABLE, .PORT_LINK_CTRL_REST_EN, .PORT_LINK_CTRL_REST_IDLE,
   .PORT_LINK_CTRL_ACK_COALESCE, .PORT_LINK_CTRL_CREDIT_STALL, .PORT_LINK_CTRL_CLKREQ_GPIO, .PORT_REPLAY_CNT_CONSEC,
   .PORT_REPLAY_CNT_LIMIT, .PORT_REPLAY_CNT_TIMEOUT, .PORT_CONTAIN_CLASS, .PORT_CONTAIN_BY_SW, .PORT_CONTAIN_STATE,
   .PORT_CONTAIN_RELEASE, .PORT_CONTAIN_CONTAIN]

/-! ### FACE -/

def Fld.FACE_BIND_ENABLE : Fld := ⟨0x100, 31, 1, .rw, 0, 62, 1, 0, false⟩
def Fld.FACE_BIND_MGMT_GRANT : Fld := ⟨0x100, 30, 1, .ro, 0, 62, 1, 0, false⟩
def Fld.FACE_BIND_STATE : Fld := ⟨0x100, 28, 2, .ro, 0, 12, 1, 0, false⟩
def Fld.FACE_BIND_PORT : Fld := ⟨0x100, 0, 7, .rw, 0, 62, 1, 0, false⟩
def Fld.FACE_BUS_LIMIT_NO_BUS : Fld := ⟨0x104, 31, 1, .ro, 0, 28, 1, 0, false⟩
def Fld.FACE_BUS_LIMIT_NEED : Fld := ⟨0x104, 16, 9, .ro, 2, 28, 1, 0, false⟩
def Fld.FACE_BUS_LIMIT_LIMIT : Fld := ⟨0x104, 0, 9, .rw, 256, 62, 1, 0, false⟩
def Fld.FACE_TAG_LIMIT_REQ : Fld := ⟨0x108, 16, 15, .rw, 16384, 62, 1, 0, false⟩
def Fld.FACE_TAG_LIMIT_ADMIT : Fld := ⟨0x108, 0, 15, .rw, 16384, 62, 1, 0, false⟩
def Fld.FACE_TAG_CTRL_CPL_TO : Fld := ⟨0x10c, 24, 8, .rw, 50, 62, 1, 0, false⟩
def Fld.FACE_TAG_CTRL_REQ_WIDTH : Fld := ⟨0x10c, 22, 2, .ro, 0, 28, 1, 0, false⟩
def Fld.FACE_TAG_USE_REQ_USED : Fld := ⟨0x110, 16, 15, .ro, 0, 30, 1, 0, false⟩
def Fld.FACE_TAG_USE_ADMIT_USED : Fld := ⟨0x110, 0, 15, .ro, 0, 30, 1, 0, false⟩
def Fld.FACE_PM_STAT_SE_D : Fld := ⟨0x114, 30, 2, .ro, 0, 24, 1, 0, false⟩
def Fld.FACE_PM_STAT_USP_D : Fld := ⟨0x114, 28, 2, .ro, 0, 28, 1, 0, false⟩
def Fld.FACE_PM_STAT_LINK_PM : Fld := ⟨0x114, 24, 4, .ro, 6, 12, 1, 0, false⟩
def Fld.FACE_PM_STAT_PME_EN : Fld := ⟨0x114, 23, 1, .ro, 0, 24, 1, 0, false⟩
def Fld.FACE_PM_STAT_PME_STATUS : Fld := ⟨0x114, 22, 1, .ro, 0, 24, 1, 0, false⟩
def Fld.FACE_PM_STAT_FWAKE : Fld := ⟨0x114, 21, 1, .ro, 0, 28, 1, 0, false⟩
def Fld.FACE_FLR_STAT_BUSY : Fld := ⟨0x118, 31, 1, .ro, 0, 24, 1, 0, false⟩
def Fld.FACE_FLR_STAT_DONE : Fld := ⟨0x118, 30, 1, .w1c, 0, 28, 1, 0, false⟩
def Fld.FACE_FLR_STAT_TIME_US : Fld := ⟨0x118, 0, 20, .ro, 0, 28, 1, 0, false⟩
def Fld.FACE_WIN_BASE_ADDR : Fld := ⟨0x120, 12, 20, .rw, 0, 28, 1, 0, true⟩
def Fld.FACE_WIN_BASE_ADDR_HI : Fld := ⟨0x124, 0, 32, .rw, 0, 28, 1, 0, true⟩
def Fld.FACE_WIN_SIZE_LINK_EN : Fld := ⟨0x128, 31, 1, .rw, 0, 28, 1, 0, true⟩
def Fld.FACE_WIN_SIZE_LINK_BAR : Fld := ⟨0x128, 28, 3, .rw, 0, 28, 1, 0, true⟩
def Fld.FACE_WIN_SIZE_LINK_PRES : Fld := ⟨0x128, 20, 8, .rw, 0, 28, 1, 0, true⟩
def Fld.FACE_WIN_SIZE_LOG2 : Fld := ⟨0x128, 0, 6, .rw, 12, 28, 1, 0, true⟩
def Fld.FACE_WIN_XLAT_ADDR : Fld := ⟨0x130, 12, 20, .rw, 0, 28, 1, 0, true⟩
def Fld.FACE_WIN_XLAT_ADDR_HI : Fld := ⟨0x134, 0, 32, .rw, 0, 28, 1, 0, true⟩
def Fld.FACE_WIN_COMMIT_GO : Fld := ⟨0x138, 31, 1, .w1s, 0, 0, 1, 0, false⟩
def Fld.FACE_WIN_COMMIT_STATUS : Fld := ⟨0x138, 28, 3, .ro, 0, 28, 1, 0, false⟩
def Fld.FACE_WIN_COMMIT_OP : Fld := ⟨0x138, 26, 2, .rw, 0, 28, 1, 0, false⟩
def Fld.FACE_WIN_COMMIT_INDEX : Fld := ⟨0x138, 0, 8, .rw, 0, 28, 1, 0, false⟩
def Fld.FACE_PRES_VALID : Fld := ⟨0x200, 31, 1, .rw, 0, 62, 255, 4, false⟩
def Fld.FACE_PRES_SHOWN : Fld := ⟨0x200, 30, 1, .ro, 0, 28, 255, 4, false⟩
def Fld.FACE_PRES_CONFLICT : Fld := ⟨0x200, 29, 1, .ro, 0, 28, 255, 4, false⟩
def Fld.FACE_PRES_BUSES : Fld := ⟨0x200, 25, 4, .rw, 1, 62, 255, 4, false⟩
def Fld.FACE_PRES_VDP : Fld := ⟨0x200, 20, 5, .rw, 0, 62, 255, 4, false⟩
def Fld.FACE_PRES_SUB : Fld := ⟨0x200, 14, 6, .rw, 0, 62, 255, 4, false⟩
def Fld.FACE_PRES_FEID : Fld := ⟨0x200, 0, 13, .rw, 0, 62, 255, 4, false⟩
def Fld.FACE_WIN_TAB_BASE : Fld := ⟨0x1000, 12, 20, .ro, 0, 28, 256, 32, false⟩
def Fld.FACE_WIN_TAB_ACTIVE : Fld := ⟨0x1000, 1, 1, .ro, 0, 28, 256, 32, false⟩
def Fld.FACE_WIN_TAB_VALID : Fld := ⟨0x1000, 0, 1, .ro, 0, 28, 256, 32, false⟩
def Fld.FACE_WIN_TAB_BASE_HI : Fld := ⟨0x1004, 0, 32, .ro, 0, 28, 256, 32, false⟩
def Fld.FACE_WIN_TAB_LINK_EN : Fld := ⟨0x1008, 31, 1, .ro, 0, 28, 256, 32, false⟩
def Fld.FACE_WIN_TAB_LINK_BAR : Fld := ⟨0x1008, 28, 3, .ro, 0, 28, 256, 32, false⟩
def Fld.FACE_WIN_TAB_LINK_PRES : Fld := ⟨0x1008, 20, 8, .ro, 0, 28, 256, 32, false⟩
def Fld.FACE_WIN_TAB_LOG2 : Fld := ⟨0x1008, 0, 6, .ro, 0, 28, 256, 32, false⟩
def Fld.FACE_WIN_TAB_XLAT : Fld := ⟨0x1010, 12, 20, .ro, 0, 28, 256, 32, false⟩
def Fld.FACE_WIN_TAB_XLAT_HI : Fld := ⟨0x1014, 0, 32, .ro, 0, 28, 256, 32, false⟩

/-- Part 0 of the register table of a page of kind FACE. -/
def tabFACE_0 : List Fld :=
  [.FACE_BIND_ENABLE, .FACE_BIND_MGMT_GRANT, .FACE_BIND_STATE, .FACE_BIND_PORT, .FACE_BUS_LIMIT_NO_BUS,
   .FACE_BUS_LIMIT_NEED, .FACE_BUS_LIMIT_LIMIT, .FACE_TAG_LIMIT_REQ, .FACE_TAG_LIMIT_ADMIT, .FACE_TAG_CTRL_CPL_TO,
   .FACE_TAG_CTRL_REQ_WIDTH, .FACE_TAG_USE_REQ_USED, .FACE_TAG_USE_ADMIT_USED, .FACE_PM_STAT_SE_D,
   .FACE_PM_STAT_USP_D, .FACE_PM_STAT_LINK_PM, .FACE_PM_STAT_PME_EN, .FACE_PM_STAT_PME_STATUS, .FACE_PM_STAT_FWAKE,
   .FACE_FLR_STAT_BUSY, .FACE_FLR_STAT_DONE, .FACE_FLR_STAT_TIME_US, .FACE_WIN_BASE_ADDR, .FACE_WIN_BASE_ADDR_HI,
   .FACE_WIN_SIZE_LINK_EN, .FACE_WIN_SIZE_LINK_BAR, .FACE_WIN_SIZE_LINK_PRES, .FACE_WIN_SIZE_LOG2,
   .FACE_WIN_XLAT_ADDR, .FACE_WIN_XLAT_ADDR_HI, .FACE_WIN_COMMIT_GO, .FACE_WIN_COMMIT_STATUS, .FACE_WIN_COMMIT_OP,
   .FACE_WIN_COMMIT_INDEX, .FACE_PRES_VALID, .FACE_PRES_SHOWN, .FACE_PRES_CONFLICT, .FACE_PRES_BUSES, .FACE_PRES_VDP,
   .FACE_PRES_SUB]

/-- Part 1 of the register table of a page of kind FACE. -/
def tabFACE_1 : List Fld :=
  [.FACE_PRES_FEID, .FACE_WIN_TAB_BASE, .FACE_WIN_TAB_ACTIVE, .FACE_WIN_TAB_VALID, .FACE_WIN_TAB_BASE_HI,
   .FACE_WIN_TAB_LINK_EN, .FACE_WIN_TAB_LINK_BAR, .FACE_WIN_TAB_LINK_PRES, .FACE_WIN_TAB_LOG2, .FACE_WIN_TAB_XLAT,
   .FACE_WIN_TAB_XLAT_HI]

/-- The register table of a page of kind FACE. -/
def tabFACE : List Fld :=
  tabFACE_0 ++ tabFACE_1

/-! ### CORE0 -/

def Fld.CORE_CT_CTRL_IDE_CT : Fld := ⟨0x100, 16, 1, .rw, 1, 30, 1, 0, false⟩
def Fld.CORE_CT_CTRL_LOSSY : Fld := ⟨0x100, 8, 8, .rw, 192, 30, 1, 0, false⟩
def Fld.CORE_CT_CTRL_CT_EN : Fld := ⟨0x100, 0, 8, .rw, 255, 30, 1, 0, false⟩
def Fld.CORE_BUF_CFG_SHARED_MIN : Fld := ⟨0x104, 0, 18, .rw, 8192, 30, 1, 0, false⟩
def Fld.CORE_BUF_WM_WM_HI : Fld := ⟨0x114, 16, 16, .rw, 2048, 30, 1, 0, false⟩
def Fld.CORE_BUF_WM_WM_LO : Fld := ⟨0x114, 0, 16, .rw, 1536, 30, 1, 0, false⟩
def Fld.CORE_MC_CTRL_HOLD_US : Fld := ⟨0x120, 0, 10, .rw, 50, 30, 1, 0, false⟩
def Fld.CORE_MC_SEL_GO : Fld := ⟨0x124, 31, 1, .w1s, 0, 0, 1, 0, true⟩
def Fld.CORE_MC_SEL_GROUP : Fld := ⟨0x124, 0, 12, .rw, 0, 30, 1, 0, true⟩
def Fld.CORE_STIPPLE_CFG_EN : Fld := ⟨0x140, 31, 1, .rw, 0, 30, 16, 8, false⟩
def Fld.CORE_STIPPLE_CFG_POINT : Fld := ⟨0x140, 30, 1, .rw, 0, 30, 16, 8, false⟩
def Fld.CORE_STIPPLE_CFG_MODE : Fld := ⟨0x140, 29, 1, .rw, 0, 30, 16, 8, false⟩
def Fld.CORE_STIPPLE_CFG_SNAP : Fld := ⟨0x140, 26, 3, .rw, 1, 30, 16, 8, false⟩
def Fld.CORE_STIPPLE_CFG_CLASS_MASK : Fld := ⟨0x140, 16, 8, .rw, 255, 30, 16, 8, false⟩
def Fld.CORE_STIPPLE_CFG_N_M1 : Fld := ⟨0x140, 0, 16, .rw, 1023, 30, 16, 8, false⟩
def Fld.CORE_STIPPLE_CFG_PORT : Fld := ⟨0x144, 13, 7, .rw, 0, 30, 16, 8, false⟩
def Fld.CORE_STIPPLE_CFG_SINK : Fld := ⟨0x144, 0, 13, .rw, 0, 30, 16, 8, false⟩
def Fld.CORE_SHARED_SIZE_CELLS : Fld := ⟨0x108, 0, 18, .ro, 0, 0, 1, 0, false⟩
def Fld.CORE_SHARED_USED_CELLS : Fld := ⟨0x10c, 0, 18, .ro, 0, 0, 1, 0, false⟩
def Fld.CORE_CELLS_USED_CELLS : Fld := ⟨0x110, 0, 18, .ro, 0, 0, 1, 0, false⟩
def Fld.CORE_WM_STAT_WM_EVENT : Fld := ⟨0x118, 31, 1, .w1c, 0, 63, 1, 0, false⟩
def Fld.CORE_WM_STAT_WM_LEVEL : Fld := ⟨0x118, 30, 1, .ro, 0, 30, 1, 0, false⟩
def Fld.CORE_WM_STAT_WM_CROSS_CNT : Fld := ⟨0x118, 0, 8, .ro, 0, 63, 1, 0, false⟩
def Fld.CORE_MC_GROUP_MEMBERS0 : Fld := ⟨0x128, 0, 32, .rw, 0, 30, 1, 0, false⟩
def Fld.CORE_MC_GROUP_MEMBERS1 : Fld := ⟨0x12c, 0, 32, .rw, 0, 30, 1, 0, false⟩
def Fld.CORE_MC_GROUP_MEMBERS2 : Fld := ⟨0x130, 0, 32, .rw, 0, 30, 1, 0, false⟩
def Fld.CORE_MC_GROUP_VALID : Fld := ⟨0x134, 31, 1, .rw, 0, 30, 1, 0, false⟩
def Fld.CORE_MC_GROUP_REFLECT : Fld := ⟨0x134, 30, 1, .rw, 0, 30, 1, 0, false⟩

/-- The register table of a page of kind CORE0. -/
def tabCORE0 : List Fld :=
  [.CORE_CT_CTRL_IDE_CT, .CORE_CT_CTRL_LOSSY, .CORE_CT_CTRL_CT_EN, .CORE_BUF_CFG_SHARED_MIN, .CORE_BUF_WM_WM_HI,
   .CORE_BUF_WM_WM_LO, .CORE_MC_CTRL_HOLD_US, .CORE_MC_SEL_GO, .CORE_MC_SEL_GROUP, .CORE_STIPPLE_CFG_EN,
   .CORE_STIPPLE_CFG_POINT, .CORE_STIPPLE_CFG_MODE, .CORE_STIPPLE_CFG_SNAP, .CORE_STIPPLE_CFG_CLASS_MASK,
   .CORE_STIPPLE_CFG_N_M1, .CORE_STIPPLE_CFG_PORT, .CORE_STIPPLE_CFG_SINK, .CORE_SHARED_SIZE_CELLS,
   .CORE_SHARED_USED_CELLS, .CORE_CELLS_USED_CELLS, .CORE_WM_STAT_WM_EVENT, .CORE_WM_STAT_WM_LEVEL,
   .CORE_WM_STAT_WM_CROSS_CNT, .CORE_MC_GROUP_MEMBERS0, .CORE_MC_GROUP_MEMBERS1, .CORE_MC_GROUP_MEMBERS2,
   .CORE_MC_GROUP_VALID, .CORE_MC_GROUP_REFLECT]

/-! ### CORE1 -/

def Fld.CORE_BUF_LIMIT_RES_NP : Fld := ⟨0x100, 24, 8, .rw, 4, 30, 768, 8, false⟩
def Fld.CORE_BUF_LIMIT_RES_CPL : Fld := ⟨0x100, 12, 12, .rw, 151, 30, 768, 8, false⟩
def Fld.CORE_BUF_LIMIT_RES_P : Fld := ⟨0x100, 0, 12, .rw, 151, 30, 768, 8, false⟩
def Fld.CORE_BUF_LIMIT_PROF_R : Fld := ⟨0x104, 28, 4, .rw, 15, 30, 768, 8, false⟩
def Fld.CORE_BUF_LIMIT_PROF_Y : Fld := ⟨0x104, 24, 4, .rw, 15, 30, 768, 8, false⟩
def Fld.CORE_BUF_LIMIT_PROF_G : Fld := ⟨0x104, 20, 4, .rw, 15, 30, 768, 8, false⟩
def Fld.CORE_BUF_LIMIT_ALPHA : Fld := ⟨0x104, 16, 4, .rw, 8, 30, 768, 8, false⟩
def Fld.CORE_BUF_LIMIT_MAX : Fld := ⟨0x104, 0, 16, .rw, 1024, 30, 768, 8, false⟩
def Fld.CORE_BUF_USE_CELLS : Fld := ⟨0x4000, 0, 18, .ro, 0, 12, 768, 4, false⟩

/-- The register table of a page of kind CORE1. -/
def tabCORE1 : List Fld :=
  [.CORE_BUF_LIMIT_RES_NP, .CORE_BUF_LIMIT_RES_CPL, .CORE_BUF_LIMIT_RES_P, .CORE_BUF_LIMIT_PROF_R,
   .CORE_BUF_LIMIT_PROF_Y, .CORE_BUF_LIMIT_PROF_G, .CORE_BUF_LIMIT_ALPHA, .CORE_BUF_LIMIT_MAX, .CORE_BUF_USE_CELLS]

/-! ### CORE2 -/

def Fld.CORE_VI_LIMIT_ALPHA : Fld := ⟨0x100, 28, 4, .rw, 6, 22, 1024, 4, false⟩
def Fld.CORE_VI_LIMIT_MAX : Fld := ⟨0x100, 16, 12, .rw, 64, 22, 1024, 4, false⟩
def Fld.CORE_VI_LIMIT_RES : Fld := ⟨0x100, 0, 12, .rw, 16, 22, 1024, 4, false⟩

/-- The register table of a page of kind CORE2. -/
def tabCORE2 : List Fld :=
  [.CORE_VI_LIMIT_ALPHA, .CORE_VI_LIMIT_MAX, .CORE_VI_LIMIT_RES]

/-! ### CORE3 -/

def Fld.CORE_RED_PROFILE_MAX_TH : Fld := ⟨0x100, 16, 16, .rw, 8192, 30, 15, 8, false⟩
def Fld.CORE_RED_PROFILE_MIN_TH : Fld := ⟨0x100, 0, 16, .rw, 4096, 30, 15, 8, false⟩
def Fld.CORE_RED_PROFILE_MODE : Fld := ⟨0x104, 31, 1, .rw, 0, 30, 15, 8, false⟩
def Fld.CORE_RED_PROFILE_WEIGHT : Fld := ⟨0x104, 8, 4, .rw, 9, 30, 15, 8, false⟩
def Fld.CORE_RED_PROFILE_P_MAX : Fld := ⟨0x104, 0, 8, .rw, 25, 30, 15, 8, false⟩

/-- The register table of a page of kind CORE3. -/
def tabCORE3 : List Fld :=
  [.CORE_RED_PROFILE_MAX_TH, .CORE_RED_PROFILE_MIN_TH, .CORE_RED_PROFILE_MODE, .CORE_RED_PROFILE_WEIGHT,
   .CORE_RED_PROFILE_P_MAX]

/-! ### ROUTE0 -/

def Fld.ROUTE_LIVE_SEL_P1_STATE : Fld := ⟨0x100, 30, 2, .ro, 0, 63, 1, 0, false⟩
def Fld.ROUTE_LIVE_SEL_P0_STATE : Fld := ⟨0x100, 28, 2, .ro, 1, 63, 1, 0, false⟩
def Fld.ROUTE_LIVE_SEL_P1_VERIFIED : Fld := ⟨0x100, 27, 1, .ro, 0, 30, 1, 0, false⟩
def Fld.ROUTE_LIVE_SEL_P0_VERIFIED : Fld := ⟨0x100, 26, 1, .ro, 1, 30, 1, 0, false⟩
def Fld.ROUTE_LIVE_SEL_GRACE_LEFT : Fld := ⟨0x100, 8, 8, .ro, 0, 30, 1, 0, false⟩
def Fld.ROUTE_LIVE_SEL_LIVE : Fld := ⟨0x100, 0, 1, .ro, 0, 63, 1, 0, false⟩
def Fld.ROUTE_TURN_CTRL_ARM : Fld := ⟨0x104, 31, 1, .w1s, 0, 30, 1, 0, false⟩
def Fld.ROUTE_TURN_CTRL_DISARM : Fld := ⟨0x104, 30, 1, .w1s, 0, 0, 1, 0, false⟩
def Fld.ROUTE_TURN_CTRL_NEXT : Fld := ⟨0x104, 29, 1, .w1s, 0, 0, 1, 0, false⟩
def Fld.ROUTE_TURN_CTRL_STATUS : Fld := ⟨0x104, 24, 3, .ro, 0, 30, 1, 0, false⟩
def Fld.ROUTE_TURN_CYCLE_CYCLE : Fld := ⟨0x108, 0, 32, .rw, 0, 30, 1, 0, false⟩
def Fld.ROUTE_TURN_CYCLE_CYCLE_HI : Fld := ⟨0x10c, 0, 16, .rw, 0, 30, 1, 0, false⟩
def Fld.ROUTE_GRACE_CYCLES : Fld := ⟨0x110, 0, 8, .rw, 2, 62, 1, 0, false⟩
def Fld.ROUTE_VERIFY_CTRL_GO : Fld := ⟨0x114, 31, 1, .w1s, 0, 0, 1, 0, false⟩
def Fld.ROUTE_VERIFY_CTRL_BUSY : Fld := ⟨0x114, 30, 1, .ro, 0, 30, 1, 0, false⟩
def Fld.ROUTE_VERIFY_CTRL_STATUS : Fld := ⟨0x114, 24, 4, .ro, 0, 30, 1, 0, false⟩
def Fld.ROUTE_VERIFY_CTRL_INDEX : Fld := ⟨0x114, 0, 20, .ro, 0, 30, 1, 0, false⟩
def Fld.ROUTE_BURN_CTRL_EN : Fld := ⟨0x118, 31, 1, .rw, 1, 30, 1, 0, false⟩
def Fld.ROUTE_BURN_CTRL_INTERVAL : Fld := ⟨0x118, 0, 16, .rw, 64, 30, 1, 0, false⟩
def Fld.ROUTE_GEN_GENERATION : Fld := ⟨0x120, 0, 32, .ro, 0, 63, 2, 4, false⟩

/-- The register table of a page of kind ROUTE0. -/
def tabROUTE0 : List Fld :=
  [.ROUTE_LIVE_SEL_P1_STATE, .ROUTE_LIVE_SEL_P0_STATE, .ROUTE_LIVE_SEL_P1_VERIFIED, .ROUTE_LIVE_SEL_P0_VERIFIED,
   .ROUTE_LIVE_SEL_GRACE_LEFT, .ROUTE_LIVE_SEL_LIVE, .ROUTE_TURN_CTRL_ARM, .ROUTE_TURN_CTRL_DISARM,
   .ROUTE_TURN_CTRL_NEXT, .ROUTE_TURN_CTRL_STATUS, .ROUTE_TURN_CYCLE_CYCLE, .ROUTE_TURN_CYCLE_CYCLE_HI,
   .ROUTE_GRACE_CYCLES, .ROUTE_VERIFY_CTRL_GO, .ROUTE_VERIFY_CTRL_BUSY, .ROUTE_VERIFY_CTRL_STATUS,
   .ROUTE_VERIFY_CTRL_INDEX, .ROUTE_BURN_CTRL_EN, .ROUTE_BURN_CTRL_INTERVAL, .ROUTE_GEN_GENERATION]

/-! ### BRIDGE4 -/

def Fld.BRIDGE_FAB_ID_SELF_FEID : Fld := ⟨0x100, 16, 13, .rw, 0, 62, 1, 0, false⟩
def Fld.BRIDGE_FAB_ID_SWITCH_ID : Fld := ⟨0x100, 0, 8, .rw, 255, 62, 1, 0, false⟩
def Fld.BRIDGE_FAB_CFG_RESEND_LIMIT : Fld := ⟨0x104, 24, 8, .rw, 4, 62, 1, 0, false⟩
def Fld.BRIDGE_FAB_CFG_RETIRE_TIMEOUT : Fld := ⟨0x104, 16, 8, .rw, 10, 62, 1, 0, false⟩
def Fld.BRIDGE_FAB_CFG_HOP_INIT : Fld := ⟨0x104, 0, 8, .rw, 16, 62, 1, 0, false⟩
def Fld.BRIDGE_PROOF_CFG_EN : Fld := ⟨0x108, 31, 1, .rw, 1, 62, 1, 0, false⟩
def Fld.BRIDGE_PROOF_CFG_TIMEOUT : Fld := ⟨0x108, 16, 8, .rw, 20, 62, 1, 0, false⟩
def Fld.BRIDGE_PROOF_CFG_CAP : Fld := ⟨0x108, 0, 13, .rw, 1024, 62, 1, 0, false⟩
def Fld.BRIDGE_PROOF_USE_CELLS : Fld := ⟨0x10c, 0, 17, .ro, 0, 14, 1, 0, false⟩
def Fld.BRIDGE_PROOF_WM_WM_HI : Fld := ⟨0x110, 16, 16, .rw, 49152, 30, 1, 0, false⟩
def Fld.BRIDGE_PROOF_WM_WM_LO : Fld := ⟨0x110, 0, 16, .rw, 40960, 30, 1, 0, false⟩
def Fld.BRIDGE_FAB_NOTIFY_MASK : Fld := ⟨0x118, 0, 32, .rw, 4294967295, 62, 1, 0, false⟩
def Fld.BRIDGE_FAB_NOTIFY_MASK_HI : Fld := ⟨0x11c, 0, 32, .rw, 4294967295, 62, 1, 0, false⟩
def Fld.BRIDGE_DOMAIN_ID_0 : Fld := ⟨0x120, 0, 32, .rw, 0, 62, 1, 0, false⟩
def Fld.BRIDGE_DOMAIN_ID_1 : Fld := ⟨0x124, 0, 32, .rw, 0, 62, 1, 0, false⟩
def Fld.BRIDGE_DOMAIN_ID_2 : Fld := ⟨0x128, 0, 32, .rw, 0, 62, 1, 0, false⟩
def Fld.BRIDGE_DOMAIN_ID_3 : Fld := ⟨0x12c, 0, 32, .rw, 0, 62, 1, 0, false⟩
def Fld.BRIDGE_FAB_NBR_VALID : Fld := ⟨0x400, 31, 1, .ro, 0, 14, 96, 4, false⟩
def Fld.BRIDGE_FAB_NBR_MISWIRED : Fld := ⟨0x400, 30, 1, .ro, 0, 14, 96, 4, false⟩
def Fld.BRIDGE_FAB_NBR_EXPECT_EN : Fld := ⟨0x400, 29, 1, .rw, 0, 62, 96, 4, false⟩
def Fld.BRIDGE_FAB_NBR_EXPECT_SW : Fld := ⟨0x400, 23, 6, .rw, 0, 62, 96, 4, false⟩
def Fld.BRIDGE_FAB_NBR_EXPECT_PORT : Fld := ⟨0x400, 16, 7, .rw, 0, 62, 96, 4, false⟩
def Fld.BRIDGE_FAB_NBR_PARTNER_SW : Fld := ⟨0x400, 7, 6, .ro, 0, 14, 96, 4, false⟩
def Fld.BRIDGE_FAB_NBR_PARTNER_PORT : Fld := ⟨0x400, 0, 7, .ro, 0, 14, 96, 4, false⟩
def Fld.BRIDGE_PROOF_WM_STAT_WM_EVENT : Fld := ⟨0x114, 31, 1, .w1c, 0, 63, 1, 0, false⟩
def Fld.BRIDGE_PROOF_WM_STAT_WM_LEVEL : Fld := ⟨0x114, 30, 1, .ro, 0, 30, 1, 0, false⟩
def Fld.BRIDGE_PROOF_WM_STAT_WM_CROSS_CNT : Fld := ⟨0x114, 0, 8, .ro, 0, 63, 1, 0, false⟩

/-- The register table of a page of kind BRIDGE4. -/
def tabBRIDGE4 : List Fld :=
  [.BRIDGE_FAB_ID_SELF_FEID, .BRIDGE_FAB_ID_SWITCH_ID, .BRIDGE_FAB_CFG_RESEND_LIMIT, .BRIDGE_FAB_CFG_RETIRE_TIMEOUT,
   .BRIDGE_FAB_CFG_HOP_INIT, .BRIDGE_PROOF_CFG_EN, .BRIDGE_PROOF_CFG_TIMEOUT, .BRIDGE_PROOF_CFG_CAP,
   .BRIDGE_PROOF_USE_CELLS, .BRIDGE_PROOF_WM_WM_HI, .BRIDGE_PROOF_WM_WM_LO, .BRIDGE_FAB_NOTIFY_MASK,
   .BRIDGE_FAB_NOTIFY_MASK_HI, .BRIDGE_DOMAIN_ID_0, .BRIDGE_DOMAIN_ID_1, .BRIDGE_DOMAIN_ID_2, .BRIDGE_DOMAIN_ID_3,
   .BRIDGE_FAB_NBR_VALID, .BRIDGE_FAB_NBR_MISWIRED, .BRIDGE_FAB_NBR_EXPECT_EN, .BRIDGE_FAB_NBR_EXPECT_SW,
   .BRIDGE_FAB_NBR_EXPECT_PORT, .BRIDGE_FAB_NBR_PARTNER_SW, .BRIDGE_FAB_NBR_PARTNER_PORT,
   .BRIDGE_PROOF_WM_STAT_WM_EVENT, .BRIDGE_PROOF_WM_STAT_WM_LEVEL, .BRIDGE_PROOF_WM_STAT_WM_CROSS_CNT]

/-! ### SCHEDG -/

def Fld.SCHED_CYC_CFG_SRC : Fld := ⟨0x100, 30, 2, .rw, 0, 62, 1, 0, false⟩
def Fld.SCHED_CYC_CFG_ALT_EN : Fld := ⟨0x100, 29, 1, .rw, 0, 62, 1, 0, false⟩
def Fld.SCHED_CYC_CFG_SRC_PORT : Fld := ⟨0x100, 22, 7, .rw, 0, 62, 1, 0, false⟩
def Fld.SCHED_CYC_CFG_ALT_PORT : Fld := ⟨0x100, 15, 7, .rw, 0, 62, 1, 0, false⟩
def Fld.SCHED_CYC_CFG_KI : Fld := ⟨0x100, 12, 3, .rw, 4, 62, 1, 0, false⟩
def Fld.SCHED_CYC_CFG_KP : Fld := ⟨0x100, 10, 2, .rw, 1, 62, 1, 0, false⟩
def Fld.SCHED_CYC_CFG_WINDOW : Fld := ⟨0x100, 0, 8, .rw, 16, 62, 1, 0, false⟩
def Fld.SCHED_CYC_STAT_STATE : Fld := ⟨0x108, 29, 3, .ro, 0, 62, 1, 0, false⟩
def Fld.SCHED_CYC_STAT_ON_ALT : Fld := ⟨0x108, 28, 1, .ro, 0, 62, 1, 0, false⟩
def Fld.SCHED_CYC_STAT_EVER_LOCKED : Fld := ⟨0x108, 27, 1, .ro, 0, 62, 1, 0, false⟩
def Fld.SCHED_CYC_STAT_HOLD_LEFT : Fld := ⟨0x108, 11, 13, .ro, 0, 62, 1, 0, false⟩
def Fld.SCHED_CYC_STAT_STRATUM : Fld := ⟨0x108, 0, 8, .ro, 255, 62, 1, 0, false⟩
def Fld.SCHED_CYC_OUT_MODE : Fld := ⟨0x12c, 30, 2, .rw, 0, 62, 1, 0, false⟩
def Fld.SCHED_CYC_OUT_WIDTH : Fld := ⟨0x12c, 0, 16, .rw, 125, 62, 1, 0, false⟩
def Fld.SCHED_MK_CFG_MASTER_ID : Fld := ⟨0x138, 26, 6, .rw, 0, 62, 1, 0, false⟩
def Fld.SCHED_MK_CFG_STEP_LIMIT : Fld := ⟨0x138, 8, 8, .rw, 125, 62, 1, 0, false⟩
def Fld.SCHED_MK_CFG_INTERVAL : Fld := ⟨0x138, 0, 8, .rw, 64, 62, 1, 0, false⟩
def Fld.SCHED_SNAP_CTRL_GO : Fld := ⟨0x150, 31, 1, .w1s, 0, 0, 1, 0, true⟩
def Fld.SCHED_SNAP_CTRL_VALID : Fld := ⟨0x150, 30, 1, .ro, 0, 62, 1, 0, true⟩
def Fld.SCHED_SNAP_CTRL_HOST_VALID : Fld := ⟨0x150, 29, 1, .ro, 0, 62, 1, 0, true⟩
def Fld.SCHED_SNAP_CTRL_FACE : Fld := ⟨0x150, 0, 5, .rw, 0, 62, 1, 0, true⟩
def Fld.SCHED_PTM_FACE_EN : Fld := ⟨0x400, 31, 1, .rw, 0, 62, 96, 4, false⟩
def Fld.SCHED_PTM_FACE_FACE : Fld := ⟨0x400, 0, 5, .rw, 0, 62, 96, 4, false⟩
def Fld.SCHED_POL_SEL_GO : Fld := ⟨0x600, 31, 1, .w1s, 0, 0, 1, 0, true⟩
def Fld.SCHED_POL_SEL_STATUS : Fld := ⟨0x600, 28, 3, .ro, 0, 62, 1, 0, true⟩
def Fld.SCHED_POL_SEL_INDEX : Fld := ⟨0x600, 0, 13, .rw, 0, 62, 1, 0, true⟩
def Fld.SCHED_POL_MAP_EN : Fld := ⟨0x1000, 31, 1, .rw, 0, 62, 768, 4, false⟩
def Fld.SCHED_POL_MAP_POLICER : Fld := ⟨0x1000, 0, 13, .rw, 0, 62, 768, 4, false⟩
def Fld.SCHED_CYC_PERIOD_NOMINAL : Fld := ⟨0x104, 0, 32, .rw, 1000000, 62, 1, 0, false⟩
def Fld.SCHED_CYC_LEN_LEN : Fld := ⟨0x10c, 0, 32, .ro, 0, 62, 1, 0, false⟩
def Fld.SCHED_CYC_NUM_CYCLE : Fld := ⟨0x110, 0, 32, .ro, 0, 62, 1, 0, false⟩
def Fld.SCHED_CYC_NUM_CYCLE_HI : Fld := ⟨0x114, 0, 16, .ro, 0, 62, 1, 0, false⟩
def Fld.SCHED_CYC_PHASE_PHASE : Fld := ⟨0x118, 0, 20, .ro, 0, 0, 1, 0, false⟩
def Fld.SCHED_FAB_TIME_TIME : Fld := ⟨0x120, 0, 32, .ro, 0, 62, 1, 0, false⟩
def Fld.SCHED_FAB_TIME_TIME_HI : Fld := ⟨0x124, 0, 32, .ro, 0, 62, 1, 0, false⟩
def Fld.SCHED_CYC_HOLD_CYCLES : Fld := ⟨0x128, 0, 13, .rw, 16, 62, 1, 0, false⟩
def Fld.SCHED_CYC_INIT_CYCLE : Fld := ⟨0x130, 0, 32, .rw, 0, 62, 1, 0, false⟩
def Fld.SCHED_CYC_INIT_CYCLE_HI : Fld := ⟨0x134, 0, 16, .rw, 0, 62, 1, 0, false⟩
def Fld.SCHED_REF_OFFSET_NS : Fld := ⟨0x13c, 0, 16, .rw, 0, 62, 1, 0, false⟩
def Fld.SCHED_SRC_MEAS_DELAY : Fld := ⟨0x140, 16, 16, .ro, 0, 62, 1, 0, false⟩
def Fld.SCHED_SRC_MEAS_OFFSET : Fld := ⟨0x140, 0, 16, .ro, 0, 62, 1, 0, false⟩
def Fld.SCHED_STEP_BACK_NS : Fld := ⟨0x144, 0, 32, .ro, 0, 62, 1, 0, false⟩
def Fld.SCHED_SNAP_FAB_V : Fld := ⟨0x158, 0, 32, .ro, 0, 62, 1, 0, true⟩
def Fld.SCHED_SNAP_FAB_HI_V : Fld := ⟨0x15c, 0, 32, .ro, 0, 62, 1, 0, true⟩
def Fld.SCHED_SNAP_HOST_V : Fld := ⟨0x160, 0, 32, .ro, 0, 62, 1, 0, true⟩
def Fld.SCHED_SNAP_HOST_HI_V : Fld := ⟨0x164, 0, 32, .ro, 0, 62, 1, 0, true⟩
def Fld.SCHED_SNAP_CYC_V : Fld := ⟨0x168, 0, 32, .ro, 0, 62, 1, 0, true⟩
def Fld.SCHED_SNAP_CYC_HI_V : Fld := ⟨0x16c, 0, 16, .ro, 0, 62, 1, 0, true⟩
def Fld.SCHED_SNAP_PHASE_V : Fld := ⟨0x170, 0, 20, .ro, 0, 62, 1, 0, true⟩
def Fld.SCHED_POL_CFG_EN : Fld := ⟨0x610, 31, 1, .rw, 0, 62, 1, 0, false⟩
def Fld.SCHED_POL_CFG_MODE : Fld := ⟨0x610, 30, 1, .rw, 0, 62, 1, 0, false⟩
def Fld.SCHED_POL_CFG_AWARE : Fld := ⟨0x610, 29, 1, .rw, 0, 62, 1, 0, false⟩
def Fld.SCHED_POL_CFG_DROP_RED : Fld := ⟨0x610, 28, 1, .rw, 0, 62, 1, 0, false⟩
def Fld.SCHED_POL_CFG_CIR : Fld := ⟨0x614, 0, 20, .rw, 0, 62, 1, 0, false⟩
def Fld.SCHED_POL_CFG_PIR : Fld := ⟨0x618, 0, 20, .rw, 0, 62, 1, 0, false⟩
def Fld.SCHED_POL_CFG_CBS : Fld := ⟨0x61c, 0, 24, .rw, 16384, 62, 1, 0, false⟩
def Fld.SCHED_POL_CFG_PBS : Fld := ⟨0x620, 0, 24, .rw, 16384, 62, 1, 0, false⟩

/-- Part 0 of the register table of a page of kind SCHEDG. -/
def tabSCHEDG_0 : List Fld :=
  [.SCHED_CYC_CFG_SRC, .SCHED_CYC_CFG_ALT_EN, .SCHED_CYC_CFG_SRC_PORT, .SCHED_CYC_CFG_ALT_PORT, .SCHED_CYC_CFG_KI,
   .SCHED_CYC_CFG_KP, .SCHED_CYC_CFG_WINDOW, .SCHED_CYC_STAT_STATE, .SCHED_CYC_STAT_ON_ALT,
   .SCHED_CYC_STAT_EVER_LOCKED, .SCHED_CYC_STAT_HOLD_LEFT, .SCHED_CYC_STAT_STRATUM, .SCHED_CYC_OUT_MODE,
   .SCHED_CYC_OUT_WIDTH, .SCHED_MK_CFG_MASTER_ID, .SCHED_MK_CFG_STEP_LIMIT, .SCHED_MK_CFG_INTERVAL,
   .SCHED_SNAP_CTRL_GO, .SCHED_SNAP_CTRL_VALID, .SCHED_SNAP_CTRL_HOST_VALID, .SCHED_SNAP_CTRL_FACE,
   .SCHED_PTM_FACE_EN, .SCHED_PTM_FACE_FACE, .SCHED_POL_SEL_GO, .SCHED_POL_SEL_STATUS, .SCHED_POL_SEL_INDEX,
   .SCHED_POL_MAP_EN, .SCHED_POL_MAP_POLICER, .SCHED_CYC_PERIOD_NOMINAL, .SCHED_CYC_LEN_LEN, .SCHED_CYC_NUM_CYCLE,
   .SCHED_CYC_NUM_CYCLE_HI, .SCHED_CYC_PHASE_PHASE, .SCHED_FAB_TIME_TIME, .SCHED_FAB_TIME_TIME_HI,
   .SCHED_CYC_HOLD_CYCLES, .SCHED_CYC_INIT_CYCLE, .SCHED_CYC_INIT_CYCLE_HI, .SCHED_REF_OFFSET_NS,
   .SCHED_SRC_MEAS_DELAY]

/-- Part 1 of the register table of a page of kind SCHEDG. -/
def tabSCHEDG_1 : List Fld :=
  [.SCHED_SRC_MEAS_OFFSET, .SCHED_STEP_BACK_NS, .SCHED_SNAP_FAB_V, .SCHED_SNAP_FAB_HI_V, .SCHED_SNAP_HOST_V,
   .SCHED_SNAP_HOST_HI_V, .SCHED_SNAP_CYC_V, .SCHED_SNAP_CYC_HI_V, .SCHED_SNAP_PHASE_V, .SCHED_POL_CFG_EN,
   .SCHED_POL_CFG_MODE, .SCHED_POL_CFG_AWARE, .SCHED_POL_CFG_DROP_RED, .SCHED_POL_CFG_CIR, .SCHED_POL_CFG_PIR,
   .SCHED_POL_CFG_CBS, .SCHED_POL_CFG_PBS]

/-- The register table of a page of kind SCHEDG. -/
def tabSCHEDG : List Fld :=
  tabSCHEDG_0 ++ tabSCHEDG_1

/-! ### SCHED -/

def Fld.SCHED_PORT_CFG_WAKE_LEAD : Fld := ⟨0x100, 16, 8, .rw, 125, 62, 1, 0, false⟩
def Fld.SCHED_PORT_CFG_FLOW_QUANTUM : Fld := ⟨0x100, 0, 12, .rw, 152, 62, 1, 0, false⟩
def Fld.SCHED_DRR_QUANTUM_PRIO : Fld := ⟨0x110, 12, 3, .rw, 0, 62, 8, 4, false⟩
def Fld.SCHED_DRR_QUANTUM_QUANTUM : Fld := ⟨0x110, 0, 12, .rw, 152, 62, 8, 4, false⟩
def Fld.SCHED_CBS_SLOPE_EN : Fld := ⟨0x140, 31, 1, .rw, 0, 62, 8, 8, false⟩
def Fld.SCHED_CBS_SLOPE_IDLE_SLOPE : Fld := ⟨0x140, 0, 20, .rw, 0, 62, 8, 8, false⟩
def Fld.SCHED_CBS_SLOPE_HI_CREDIT : Fld := ⟨0x144, 0, 24, .rw, 19456, 62, 8, 8, false⟩
def Fld.SCHED_HATCH_CTRL_ARM : Fld := ⟨0x200, 31, 1, .w1s, 0, 30, 1, 0, false⟩
def Fld.SCHED_HATCH_CTRL_DISARM : Fld := ⟨0x200, 30, 1, .w1s, 0, 0, 1, 0, false⟩
def Fld.SCHED_HATCH_CTRL_NEXT : Fld := ⟨0x200, 29, 1, .w1s, 0, 0, 1, 0, false⟩
def Fld.SCHED_HATCH_CTRL_LATE_POLICY : Fld := ⟨0x200, 28, 1, .rw, 0, 62, 1, 0, false⟩
def Fld.SCHED_HATCH_CTRL_FB_MODE : Fld := ⟨0x200, 26, 2, .rw, 0, 62, 1, 0, false⟩
def Fld.SCHED_HATCH_CTRL_FB_GATES : Fld := ⟨0x200, 16, 8, .rw, 255, 62, 1, 0, false⟩
def Fld.SCHED_HATCH_CTRL_STATUS : Fld := ⟨0x200, 8, 3, .ro, 0, 30, 1, 0, false⟩
def Fld.SCHED_HATCH_CTRL_ARM_LIST : Fld := ⟨0x200, 0, 1, .rw, 0, 62, 1, 0, false⟩
def Fld.SCHED_HATCH_STAT_ACTIVE : Fld := ⟨0x210, 31, 1, .ro, 0, 62, 1, 0, false⟩
def Fld.SCHED_HATCH_STAT_ANY_ACTIVE : Fld := ⟨0x210, 30, 1, .ro, 0, 62, 1, 0, false⟩
def Fld.SCHED_HATCH_STAT_A_STATE : Fld := ⟨0x210, 28, 2, .ro, 0, 30, 1, 0, false⟩
def Fld.SCHED_HATCH_STAT_B_STATE : Fld := ⟨0x210, 26, 2, .ro, 0, 30, 1, 0, false⟩
def Fld.SCHED_HATCH_STAT_A_VERIFIED : Fld := ⟨0x210, 25, 1, .ro, 0, 62, 1, 0, false⟩
def Fld.SCHED_HATCH_STAT_B_VERIFIED : Fld := ⟨0x210, 24, 1, .ro, 0, 62, 1, 0, false⟩
def Fld.SCHED_HATCH_STAT_IN_FALLBACK : Fld := ⟨0x210, 23, 1, .ro, 0, 62, 1, 0, false⟩
def Fld.SCHED_HATCH_STAT_LATE : Fld := ⟨0x210, 22, 1, .ro, 0, 30, 1, 0, false⟩
def Fld.SCHED_HATCH_STAT_ENTRY_NOW : Fld := ⟨0x210, 8, 8, .ro, 0, 30, 1, 0, false⟩
def Fld.SCHED_HATCH_STAT_GATES_NOW : Fld := ⟨0x210, 0, 8, .ro, 255, 30, 1, 0, false⟩
def Fld.SCHED_HATCH_VERIFY_GO : Fld := ⟨0x220, 31, 1, .w1s, 0, 0, 1, 0, false⟩
def Fld.SCHED_HATCH_VERIFY_BUSY : Fld := ⟨0x220, 30, 1, .ro, 0, 30, 1, 0, false⟩
def Fld.SCHED_HATCH_VERIFY_LIST : Fld := ⟨0x220, 29, 1, .rw, 0, 62, 1, 0, false⟩
def Fld.SCHED_HATCH_VERIFY_STATUS : Fld := ⟨0x220, 24, 4, .ro, 0, 30, 1, 0, false⟩
def Fld.SCHED_HATCH_VERIFY_INDEX : Fld := ⟨0x220, 0, 8, .ro, 0, 30, 1, 0, false⟩
def Fld.SCHED_HATCH_LEN_COUNT_B : Fld := ⟨0x224, 16, 9, .rw, 1, 62, 1, 0, false⟩
def Fld.SCHED_HATCH_LEN_COUNT_A : Fld := ⟨0x224, 0, 9, .rw, 1, 62, 1, 0, false⟩
def Fld.SCHED_CBS_CREDIT_CREDIT : Fld := ⟨0x180, 0, 32, .ro, 0, 14, 8, 4, false⟩
def Fld.SCHED_HATCH_CYCLE_CYCLE : Fld := ⟨0x208, 0, 32, .rw, 0, 30, 1, 0, false⟩
def Fld.SCHED_HATCH_CYCLE_CYCLE_HI : Fld := ⟨0x20c, 0, 16, .rw, 0, 30, 1, 0, false⟩
def Fld.SCHED_HATCH_START_CYCLE : Fld := ⟨0x218, 0, 32, .ro, 0, 62, 1, 0, false⟩
def Fld.SCHED_HATCH_START_CYCLE_HI : Fld := ⟨0x21c, 0, 16, .ro, 0, 62, 1, 0, false⟩
def Fld.SCHED_HATCH_GEN_GENERATION : Fld := ⟨0x228, 0, 32, .ro, 0, 62, 2, 4, false⟩
def Fld.SCHED_HATCH_SIG_DW : Fld := ⟨0x300, 0, 32, .rw, 0, 30, 48, 4, false⟩
def Fld.SCHED_HATCH_A_GATES : Fld := ⟨0x1000, 24, 8, .rw, 0, 62, 256, 8, false⟩
def Fld.SCHED_HATCH_A_RSV0 : Fld := ⟨0x1000, 20, 4, .rw, 0, 62, 256, 8, false⟩
def Fld.SCHED_HATCH_A_PHASE : Fld := ⟨0x1000, 0, 20, .rw, 0, 62, 256, 8, false⟩
def Fld.SCHED_HATCH_A_DW1 : Fld := ⟨0x1004, 0, 32, .rw, 0, 62, 256, 8, false⟩
def Fld.SCHED_HATCH_B_GATES : Fld := ⟨0x1800, 24, 8, .rw, 0, 62, 256, 8, false⟩
def Fld.SCHED_HATCH_B_RSV0 : Fld := ⟨0x1800, 20, 4, .rw, 0, 62, 256, 8, false⟩
def Fld.SCHED_HATCH_B_PHASE : Fld := ⟨0x1800, 0, 20, .rw, 0, 62, 256, 8, false⟩
def Fld.SCHED_HATCH_B_DW1 : Fld := ⟨0x1804, 0, 32, .rw, 0, 62, 256, 8, false⟩

/-- Part 0 of the register table of a page of kind SCHED. -/
def tabSCHED_0 : List Fld :=
  [.SCHED_PORT_CFG_WAKE_LEAD, .SCHED_PORT_CFG_FLOW_QUANTUM, .SCHED_DRR_QUANTUM_PRIO, .SCHED_DRR_QUANTUM_QUANTUM,
   .SCHED_CBS_SLOPE_EN, .SCHED_CBS_SLOPE_IDLE_SLOPE, .SCHED_CBS_SLOPE_HI_CREDIT, .SCHED_HATCH_CTRL_ARM,
   .SCHED_HATCH_CTRL_DISARM, .SCHED_HATCH_CTRL_NEXT, .SCHED_HATCH_CTRL_LATE_POLICY, .SCHED_HATCH_CTRL_FB_MODE,
   .SCHED_HATCH_CTRL_FB_GATES, .SCHED_HATCH_CTRL_STATUS, .SCHED_HATCH_CTRL_ARM_LIST, .SCHED_HATCH_STAT_ACTIVE,
   .SCHED_HATCH_STAT_ANY_ACTIVE, .SCHED_HATCH_STAT_A_STATE, .SCHED_HATCH_STAT_B_STATE, .SCHED_HATCH_STAT_A_VERIFIED,
   .SCHED_HATCH_STAT_B_VERIFIED, .SCHED_HATCH_STAT_IN_FALLBACK, .SCHED_HATCH_STAT_LATE, .SCHED_HATCH_STAT_ENTRY_NOW,
   .SCHED_HATCH_STAT_GATES_NOW, .SCHED_HATCH_VERIFY_GO, .SCHED_HATCH_VERIFY_BUSY, .SCHED_HATCH_VERIFY_LIST,
   .SCHED_HATCH_VERIFY_STATUS, .SCHED_HATCH_VERIFY_INDEX, .SCHED_HATCH_LEN_COUNT_B, .SCHED_HATCH_LEN_COUNT_A,
   .SCHED_CBS_CREDIT_CREDIT, .SCHED_HATCH_CYCLE_CYCLE, .SCHED_HATCH_CYCLE_CYCLE_HI, .SCHED_HATCH_START_CYCLE,
   .SCHED_HATCH_START_CYCLE_HI, .SCHED_HATCH_GEN_GENERATION, .SCHED_HATCH_SIG_DW, .SCHED_HATCH_A_GATES]

/-- Part 1 of the register table of a page of kind SCHED. -/
def tabSCHED_1 : List Fld :=
  [.SCHED_HATCH_A_RSV0, .SCHED_HATCH_A_PHASE, .SCHED_HATCH_A_DW1, .SCHED_HATCH_B_GATES, .SCHED_HATCH_B_RSV0,
   .SCHED_HATCH_B_PHASE, .SCHED_HATCH_B_DW1]

/-- The register table of a page of kind SCHED. -/
def tabSCHED : List Fld :=
  tabSCHED_0 ++ tabSCHED_1

/-! ### INST0 -/

def Fld.INST_BIND_GO : Fld := ⟨0x100, 31, 1, .w1s, 0, 0, 1, 0, true⟩
def Fld.INST_BIND_OP : Fld := ⟨0x100, 29, 2, .rw, 0, 62, 1, 0, true⟩
def Fld.INST_BIND_STATUS : Fld := ⟨0x100, 26, 3, .ro, 0, 62, 1, 0, true⟩
def Fld.INST_BIND_VI : Fld := ⟨0x100, 0, 10, .rw, 0, 62, 1, 0, true⟩
def Fld.INST_BIND_CFG0_FACE : Fld := ⟨0x104, 24, 5, .rw, 0, 62, 1, 0, true⟩
def Fld.INST_BIND_CFG0_PASID : Fld := ⟨0x104, 0, 20, .rw, 0, 62, 1, 0, true⟩
def Fld.INST_BIND_CFG1_POL_EN : Fld := ⟨0x108, 31, 1, .rw, 0, 62, 1, 0, true⟩
def Fld.INST_BIND_CFG1_FEID : Fld := ⟨0x108, 16, 13, .rw, 0, 62, 1, 0, true⟩
def Fld.INST_BIND_CFG1_POLICER : Fld := ⟨0x108, 0, 13, .rw, 0, 62, 1, 0, true⟩
def Fld.INST_BIND_CFG2_TAG_MAX : Fld := ⟨0x10c, 16, 15, .rw, 256, 62, 1, 0, true⟩
def Fld.INST_BIND_CFG2_VEC_LOG2 : Fld := ⟨0x10c, 12, 3, .rw, 0, 62, 1, 0, true⟩
def Fld.INST_BIND_CFG2_VEC_BASE : Fld := ⟨0x10c, 0, 11, .rw, 0, 62, 1, 0, true⟩
def Fld.INST_RESET_GO : Fld := ⟨0x110, 31, 1, .w1s, 0, 0, 1, 0, false⟩
def Fld.INST_RESET_REFUSED : Fld := ⟨0x110, 30, 1, .ro, 0, 62, 1, 0, false⟩
def Fld.INST_RESET_VI : Fld := ⟨0x110, 0, 10, .rw, 0, 62, 1, 0, false⟩
def Fld.INST_CTRL_FLUSH_TO : Fld := ⟨0x114, 0, 11, .rw, 1500, 62, 1, 0, false⟩

/-- The register table of a page of kind INST0. -/
def tabINST0 : List Fld :=
  [.INST_BIND_GO, .INST_BIND_OP, .INST_BIND_STATUS, .INST_BIND_VI, .INST_BIND_CFG0_FACE, .INST_BIND_CFG0_PASID,
   .INST_BIND_CFG1_POL_EN, .INST_BIND_CFG1_FEID, .INST_BIND_CFG1_POLICER, .INST_BIND_CFG2_TAG_MAX,
   .INST_BIND_CFG2_VEC_LOG2, .INST_BIND_CFG2_VEC_BASE, .INST_RESET_GO, .INST_RESET_REFUSED, .INST_RESET_VI,
   .INST_CTRL_FLUSH_TO]

/-! ### INST1 -/

def Fld.INST_SHARE_SHARE : Fld := ⟨0x100, 0, 12, .rw, 152, 62, 1024, 4, false⟩

/-- The register table of a page of kind INST1. -/
def tabINST1 : List Fld :=
  [.INST_SHARE_SHARE]

/-! ### INST2 -/

def Fld.INST_STAT_BOUND : Fld := ⟨0x100, 31, 1, .ro, 0, 63, 1024, 4, false⟩
def Fld.INST_STAT_RESETTING : Fld := ⟨0x100, 30, 1, .ro, 0, 55, 1024, 4, false⟩
def Fld.INST_STAT_FENCED : Fld := ⟨0x100, 29, 1, .ro, 0, 55, 1024, 4, false⟩
def Fld.INST_STAT_SUSPENDED : Fld := ⟨0x100, 28, 1, .ro, 0, 63, 1024, 4, false⟩
def Fld.INST_STAT_TDI : Fld := ⟨0x100, 26, 2, .ro, 0, 55, 1024, 4, false⟩
def Fld.INST_STAT_FLUSH_TO : Fld := ⟨0x100, 25, 1, .ro, 0, 55, 1024, 4, false⟩
def Fld.INST_STAT_RESET_DONE : Fld := ⟨0x100, 24, 1, .w1c, 0, 63, 1024, 4, false⟩
def Fld.INST_STAT_FACE : Fld := ⟨0x100, 16, 5, .ro, 0, 63, 1024, 4, false⟩
def Fld.INST_STAT_EPOCH : Fld := ⟨0x100, 0, 16, .ro, 0, 63, 1024, 4, false⟩

/-- The register table of a page of kind INST2. -/
def tabINST2 : List Fld :=
  [.INST_STAT_BOUND, .INST_STAT_RESETTING, .INST_STAT_FENCED, .INST_STAT_SUSPENDED, .INST_STAT_TDI,
   .INST_STAT_FLUSH_TO, .INST_STAT_RESET_DONE, .INST_STAT_FACE, .INST_STAT_EPOCH]

/-! ### MOVERG -/

def Fld.MOVER_GLB_CFG_FACE_QUANTUM : Fld := ⟨0x100, 12, 12, .rw, 152, 62, 1, 0, false⟩
def Fld.MOVER_GLB_CFG_MPS : Fld := ⟨0x100, 4, 3, .rw, 1, 62, 1, 0, false⟩
def Fld.MOVER_GLB_CFG_MRRS : Fld := ⟨0x100, 0, 3, .rw, 2, 62, 1, 0, false⟩

/-- The register table of a page of kind MOVERG. -/
def tabMOVERG : List Fld :=
  [.MOVER_GLB_CFG_FACE_QUANTUM, .MOVER_GLB_CFG_MPS, .MOVER_GLB_CFG_MRRS]

/-! ### ENG -/

def Fld.MOVER_ENG_CTRL_ENABLE : Fld := ⟨0x100, 31, 1, .rw, 1, 62, 1, 0, false⟩
def Fld.MOVER_ENG_CTRL_FAILOVER : Fld := ⟨0x100, 0, 6, .rw, 2 ^ 32 + 1, 62, 1, 0, false⟩
def Fld.MOVER_ENG_STAT_FAULTED : Fld := ⟨0x104, 31, 1, .ro, 0, 31, 1, 0, false⟩
def Fld.MOVER_ENG_STAT_RDBUF : Fld := ⟨0x104, 16, 12, .ro, 0, 30, 1, 0, false⟩
def Fld.MOVER_ENG_STAT_OPEN : Fld := ⟨0x104, 9, 5, .ro, 0, 30, 1, 0, false⟩
def Fld.MOVER_ENG_STAT_READS : Fld := ⟨0x104, 0, 9, .ro, 0, 30, 1, 0, false⟩

/-- The register table of a page of kind ENG. -/
def tabENG : List Fld :=
  [.MOVER_ENG_CTRL_ENABLE, .MOVER_ENG_CTRL_FAILOVER, .MOVER_ENG_STAT_FAULTED, .MOVER_ENG_STAT_RDBUF,
   .MOVER_ENG_STAT_OPEN, .MOVER_ENG_STAT_READS]

/-! ### RING -/

def Fld.MOVER_RING_CFG_ENABLE : Fld := ⟨0x0, 31, 1, .rw, 0, 16, 1, 0, false⟩
def Fld.MOVER_RING_CFG_KIND : Fld := ⟨0x0, 30, 1, .rw, 0, 16, 1, 0, false⟩
def Fld.MOVER_RING_CFG_STOP_ON_ERR : Fld := ⟨0x0, 29, 1, .rw, 1, 16, 1, 0, false⟩
def Fld.MOVER_RING_CFG_SIZE_LOG2 : Fld := ⟨0x0, 24, 5, .rw, 8, 16, 1, 0, false⟩
def Fld.MOVER_RING_CFG_OWN_KIND : Fld := ⟨0x0, 22, 2, .rw, 0, 62, 1, 0, false⟩
def Fld.MOVER_RING_CFG_OWNER : Fld := ⟨0x0, 12, 10, .rw, 0, 62, 1, 0, false⟩
def Fld.MOVER_RING_CFG_ENGINE : Fld := ⟨0x0, 6, 6, .rw, 0, 62, 1, 0, false⟩
def Fld.MOVER_RING_STAT_STATE : Fld := ⟨0x4, 29, 3, .ro, 0, 16, 1, 0, false⟩
def Fld.MOVER_RING_STAT_RESUME : Fld := ⟨0x4, 28, 1, .w1s, 0, 0, 1, 0, false⟩
def Fld.MOVER_RING_STAT_LAST_STATUS : Fld := ⟨0x4, 16, 4, .ro, 0, 16, 1, 0, false⟩
def Fld.MOVER_RING_STAT_LAST_INDEX : Fld := ⟨0x4, 0, 16, .ro, 0, 16, 1, 0, false⟩
def Fld.MOVER_RING_BASE_ADDR : Fld := ⟨0x8, 8, 24, .rw, 0, 16, 1, 0, false⟩
def Fld.MOVER_RING_BASE_ADDR_HI : Fld := ⟨0xc, 0, 32, .rw, 0, 16, 1, 0, false⟩
def Fld.MOVER_RING_HEAD_HEAD : Fld := ⟨0x10, 0, 16, .ro, 0, 16, 1, 0, false⟩
def Fld.MOVER_RING_TAIL_TAIL : Fld := ⟨0x14, 0, 16, .rw, 0, 16, 1, 0, false⟩
def Fld.MOVER_RING_CPL_BASE_ADDR : Fld := ⟨0x18, 6, 26, .rw, 0, 16, 1, 0, false⟩
def Fld.MOVER_RING_CPL_BASE_ADDR_HI : Fld := ⟨0x1c, 0, 32, .rw, 0, 16, 1, 0, false⟩
def Fld.MOVER_RING_CPL_CTRL_MODE : Fld := ⟨0x20, 31, 1, .rw, 0, 16, 1, 0, false⟩
def Fld.MOVER_RING_CPL_CTRL_IRQ_EN : Fld := ⟨0x20, 30, 1, .rw, 0, 16, 1, 0, false⟩
def Fld.MOVER_RING_CPL_CTRL_COAL_US : Fld := ⟨0x20, 16, 8, .rw, 0, 16, 1, 0, false⟩
def Fld.MOVER_RING_CPL_CTRL_VECTOR : Fld := ⟨0x20, 0, 11, .rw, 0, 16, 1, 0, false⟩
def Fld.MOVER_RING_CPL_HEAD_CPL_HEAD : Fld := ⟨0x24, 0, 16, .rw, 0, 16, 1, 0, false⟩
def Fld.MOVER_RING_CPL_TAIL_PHASE : Fld := ⟨0x28, 31, 1, .ro, 1, 16, 1, 0, false⟩
def Fld.MOVER_RING_CPL_TAIL_CPL_TAIL : Fld := ⟨0x28, 0, 16, .ro, 0, 16, 1, 0, false⟩
def Fld.MOVER_RING_CPL_FIFO_DW : Fld := ⟨0x30, 0, 32, .ro, 0, 0, 4, 4, false⟩

/-- The register table of a page of kind RING. -/
def tabRING : List Fld :=
  [.MOVER_RING_CFG_ENABLE, .MOVER_RING_CFG_KIND, .MOVER_RING_CFG_STOP_ON_ERR, .MOVER_RING_CFG_SIZE_LOG2,
   .MOVER_RING_CFG_OWN_KIND, .MOVER_RING_CFG_OWNER, .MOVER_RING_CFG_ENGINE, .MOVER_RING_STAT_STATE,
   .MOVER_RING_STAT_RESUME, .MOVER_RING_STAT_LAST_STATUS, .MOVER_RING_STAT_LAST_INDEX, .MOVER_RING_BASE_ADDR,
   .MOVER_RING_BASE_ADDR_HI, .MOVER_RING_HEAD_HEAD, .MOVER_RING_TAIL_TAIL, .MOVER_RING_CPL_BASE_ADDR,
   .MOVER_RING_CPL_BASE_ADDR_HI, .MOVER_RING_CPL_CTRL_MODE, .MOVER_RING_CPL_CTRL_IRQ_EN, .MOVER_RING_CPL_CTRL_COAL_US,
   .MOVER_RING_CPL_CTRL_VECTOR, .MOVER_RING_CPL_HEAD_CPL_HEAD, .MOVER_RING_CPL_TAIL_PHASE,
   .MOVER_RING_CPL_TAIL_CPL_TAIL, .MOVER_RING_CPL_FIFO_DW]

/-! ### BRIDGE0 -/

def Fld.BRIDGE_PF_CTRL_EN : Fld := ⟨0x100, 31, 1, .rw, 1, 62, 1, 0, false⟩
def Fld.BRIDGE_PF_CTRL_BLOCK_LOG2 : Fld := ⟨0x100, 16, 4, .rw, 11, 62, 1, 0, false⟩
def Fld.BRIDGE_PF_CTRL_AGE_US : Fld := ⟨0x100, 0, 10, .rw, 10, 62, 1, 0, false⟩
def Fld.BRIDGE_LOCK_CTRL_TIMEOUT_MS : Fld := ⟨0x104, 0, 8, .rw, 10, 62, 1, 0, false⟩

/-- The register table of a page of kind BRIDGE0. -/
def tabBRIDGE0 : List Fld :=
  [.BRIDGE_PF_CTRL_EN, .BRIDGE_PF_CTRL_BLOCK_LOG2, .BRIDGE_PF_CTRL_AGE_US, .BRIDGE_LOCK_CTRL_TIMEOUT_MS]

/-! ### BRIDGE1 -/

def Fld.BRIDGE_PORT_LIMIT_MPS : Fld := ⟨0x100, 4, 3, .rw, 0, 62, 96, 8, false⟩
def Fld.BRIDGE_PORT_LIMIT_MRRS : Fld := ⟨0x100, 0, 3, .rw, 0, 62, 96, 8, false⟩
def Fld.BRIDGE_LOCK_STAT_LOCKED : Fld := ⟨0x104, 31, 1, .ro, 0, 14, 96, 8, false⟩
def Fld.BRIDGE_LOCK_STAT_HOLDER : Fld := ⟨0x104, 16, 13, .ro, 0, 14, 96, 8, false⟩
def Fld.BRIDGE_LOCK_STAT_WAITING : Fld := ⟨0x104, 0, 8, .ro, 0, 14, 96, 8, false⟩

/-- The register table of a page of kind BRIDGE1. -/
def tabBRIDGE1 : List Fld :=
  [.BRIDGE_PORT_LIMIT_MPS, .BRIDGE_PORT_LIMIT_MRRS, .BRIDGE_LOCK_STAT_LOCKED, .BRIDGE_LOCK_STAT_HOLDER,
   .BRIDGE_LOCK_STAT_WAITING]

/-! ### BRIDGE2 -/

def Fld.BRIDGE_VEP_CFG_EN : Fld := ⟨0x100, 31, 1, .rw, 0, 62, 64, 16, false⟩
def Fld.BRIDGE_VEP_CFG_CLASS : Fld := ⟨0x100, 28, 3, .rw, 6, 62, 64, 16, false⟩
def Fld.BRIDGE_VEP_CFG_MTU : Fld := ⟨0x100, 0, 14, .rw, 1518, 62, 64, 16, false⟩
def Fld.BRIDGE_VEP_CFG_OWNER : Fld := ⟨0x104, 16, 13, .rw, 0, 62, 64, 16, false⟩
def Fld.BRIDGE_VEP_CFG_PEER : Fld := ⟨0x104, 0, 13, .rw, 0, 62, 64, 16, false⟩
def Fld.BRIDGE_VEP_CFG_TX_RING : Fld := ⟨0x108, 16, 12, .rw, 0, 62, 64, 16, false⟩
def Fld.BRIDGE_VEP_CFG_RX_RING : Fld := ⟨0x108, 0, 12, .rw, 0, 62, 64, 16, false⟩
def Fld.BRIDGE_VEP_CFG_RSV3 : Fld := ⟨0x10c, 0, 32, .rsv, 0, 0, 64, 16, false⟩

/-- The register table of a page of kind BRIDGE2. -/
def tabBRIDGE2 : List Fld :=
  [.BRIDGE_VEP_CFG_EN, .BRIDGE_VEP_CFG_CLASS, .BRIDGE_VEP_CFG_MTU, .BRIDGE_VEP_CFG_OWNER, .BRIDGE_VEP_CFG_PEER,
   .BRIDGE_VEP_CFG_TX_RING, .BRIDGE_VEP_CFG_RX_RING, .BRIDGE_VEP_CFG_RSV3]

/-! ### MBOX0 -/

def Fld.MBOX_REJ_LOG_STATUS : Fld := ⟨0x104, 29, 3, .ro, 0, 63, 1, 0, false⟩
def Fld.MBOX_REJ_LOG_SKIND : Fld := ⟨0x104, 26, 3, .ro, 0, 63, 1, 0, false⟩
def Fld.MBOX_REJ_LOG_SID : Fld := ⟨0x104, 16, 10, .ro, 0, 63, 1, 0, false⟩
def Fld.MBOX_REJ_LOG_STAMP : Fld := ⟨0x104, 0, 8, .ro, 0, 63, 1, 0, false⟩
def Fld.MBW_POST_PTR_V : Fld := ⟨0x200, 0, 32, .rw, 0, 62, 1, 0, true⟩
def Fld.MBW_POST_PTR_V_HI : Fld := ⟨0x204, 0, 32, .rw, 0, 62, 1, 0, true⟩
def Fld.MBW_POST_LEN_V : Fld := ⟨0x208, 0, 32, .rw, 0, 62, 1, 0, true⟩
def Fld.MBW_POST_USER_V : Fld := ⟨0x20c, 0, 32, .rw, 0, 62, 1, 0, true⟩
def Fld.MBW_NOTICE_POST_GO : Fld := ⟨0x210, 31, 1, .w1s, 0, 0, 1, 0, true⟩
def Fld.MBW_NOTICE_POST_STATUS : Fld := ⟨0x210, 28, 3, .ro, 0, 62, 1, 0, true⟩
def Fld.MBW_NOTICE_POST_FWQ : Fld := ⟨0x210, 24, 4, .rw, 0, 62, 1, 0, true⟩
def Fld.MBW_NOTICE_POST_DEST : Fld := ⟨0x210, 0, 13, .rw, 0, 62, 1, 0, true⟩
def Fld.MBW_NOTICE_READ_DW : Fld := ⟨0x220, 0, 32, .ro, 0, 0, 8, 4, true⟩
def Fld.MBW_Q_STAT_ARM : Fld := ⟨0x240, 31, 1, .w1s, 0, 30, 1, 0, true⟩
def Fld.MBW_Q_STAT_COUNT : Fld := ⟨0x240, 0, 9, .ro, 0, 30, 1, 0, true⟩
def Fld.MBW_EPOCH_QUERY_VALID : Fld := ⟨0x244, 31, 1, .ro, 0, 0, 1, 0, true⟩
def Fld.MBW_EPOCH_QUERY_FEID : Fld := ⟨0x244, 0, 13, .wo, 0, 0, 1, 0, true⟩
def Fld.MBW_OWN_EPOCH_EPOCH : Fld := ⟨0x248, 0, 16, .ro, 0, 0, 1, 0, true⟩
def Fld.MBOX_FWQ_SEL_SEL : Fld := ⟨0x100, 0, 4, .rw, 0, 62, 1, 0, true⟩

/-- The register table of a page of kind MBOX0. -/
def tabMBOX0 : List Fld :=
  [.MBOX_REJ_LOG_STATUS, .MBOX_REJ_LOG_SKIND, .MBOX_REJ_LOG_SID, .MBOX_REJ_LOG_STAMP, .MBW_POST_PTR_V,
   .MBW_POST_PTR_V_HI, .MBW_POST_LEN_V, .MBW_POST_USER_V, .MBW_NOTICE_POST_GO, .MBW_NOTICE_POST_STATUS,
   .MBW_NOTICE_POST_FWQ, .MBW_NOTICE_POST_DEST, .MBW_NOTICE_READ_DW, .MBW_Q_STAT_ARM, .MBW_Q_STAT_COUNT,
   .MBW_EPOCH_QUERY_VALID, .MBW_EPOCH_QUERY_FEID, .MBW_OWN_EPOCH_EPOCH, .MBOX_FWQ_SEL_SEL]

/-! ### MBOX1 -/

def Fld.MBOX_Q_CFG_SEND_MASK : Fld := ⟨0x100, 0, 32, .rw, 0, 62, 1072, 8, false⟩
def Fld.MBOX_Q_CFG_OPEN : Fld := ⟨0x104, 31, 1, .ro, 0, 30, 1072, 8, false⟩
def Fld.MBOX_Q_CFG_DB_EN : Fld := ⟨0x104, 30, 1, .rw, 1, 62, 1072, 8, false⟩
def Fld.MBOX_Q_CFG_DB_VECTOR : Fld := ⟨0x104, 0, 11, .rw, 0, 62, 1072, 8, false⟩

/-- The register table of a page of kind MBOX1. -/
def tabMBOX1 : List Fld :=
  [.MBOX_Q_CFG_SEND_MASK, .MBOX_Q_CFG_OPEN, .MBOX_Q_CFG_DB_EN, .MBOX_Q_CFG_DB_VECTOR]

/-! ### MBOX2 -/

def Fld.MBOX_WORD_DATA : Fld := ⟨0x100, 0, 32, .rw, 0, 62, 128, 8, false⟩
def Fld.MBOX_WORD_STAT_FULL : Fld := ⟨0x104, 31, 1, .ro, 0, 62, 128, 8, false⟩
def Fld.MBOX_WORD_STAT_TAKE : Fld := ⟨0x104, 30, 1, .wo, 0, 0, 128, 8, false⟩
def Fld.MBOX_WORD_STAT_WRITER : Fld := ⟨0x104, 0, 8, .ro, 0, 62, 128, 8, false⟩
def Fld.MBOX_WORD_CFG_WRITER : Fld := ⟨0x800, 8, 8, .rw, 2 ^ 32 + 2, 62, 128, 4, false⟩
def Fld.MBOX_WORD_CFG_READER : Fld := ⟨0x800, 0, 8, .rw, 2 ^ 32 + 3, 62, 128, 4, false⟩

/-- The register table of a page of kind MBOX2. -/
def tabMBOX2 : List Fld :=
  [.MBOX_WORD_DATA, .MBOX_WORD_STAT_FULL, .MBOX_WORD_STAT_TAKE, .MBOX_WORD_STAT_WRITER, .MBOX_WORD_CFG_WRITER,
   .MBOX_WORD_CFG_READER]

/-! ### MBOX3 -/

def Fld.MBOX_SEM_RESULT : Fld := ⟨0x100, 30, 2, .ra, 0, 0, 256, 4, false⟩
def Fld.MBOX_SEM_FORCE : Fld := ⟨0x100, 29, 1, .wo, 0, 0, 256, 4, false⟩
def Fld.MBOX_SEM_RELEASE : Fld := ⟨0x100, 28, 1, .wo, 0, 0, 256, 4, false⟩
def Fld.MBOX_SEM_OWNER : Fld := ⟨0x100, 0, 8, .ro, 0, 62, 256, 4, false⟩
def Fld.MBOX_SEM_PEEK_HELD : Fld := ⟨0x800, 31, 1, .ro, 0, 62, 256, 4, false⟩
def Fld.MBOX_SEM_PEEK_OWNER : Fld := ⟨0x800, 0, 8, .ro, 0, 62, 256, 4, false⟩

/-- The register table of a page of kind MBOX3. -/
def tabMBOX3 : List Fld :=
  [.MBOX_SEM_RESULT, .MBOX_SEM_FORCE, .MBOX_SEM_RELEASE, .MBOX_SEM_OWNER, .MBOX_SEM_PEEK_HELD, .MBOX_SEM_PEEK_OWNER]

/-! ### GUARD0 -/

def Fld.GUARD_POLICY_SYNTH : Fld := ⟨0x100, 30, 2, .rw, 0, 62, 1, 0, false⟩
def Fld.GUARD_POLICY_POISON_BLOCK : Fld := ⟨0x100, 29, 1, .rw, 0, 62, 1, 0, false⟩
def Fld.GUARD_POLICY_DEV_RESET : Fld := ⟨0x100, 28, 1, .rw, 1, 62, 1, 0, false⟩
def Fld.GUARD_POLICY_FD_HOLD : Fld := ⟨0x100, 27, 1, .rw, 0, 62, 1, 0, false⟩
def Fld.GUARD_POLICY_WINDOW_MS : Fld := ⟨0x100, 16, 8, .rw, 10, 62, 1, 0, false⟩
def Fld.GUARD_POLICY_AUTO : Fld := ⟨0x100, 0, 5, .rw, 31, 62, 1, 0, false⟩
def Fld.GUARD_TIMING_DEV_READY_MS : Fld := ⟨0x104, 16, 16, .rw, 1000, 62, 1, 0, false⟩
def Fld.GUARD_TIMING_QUIESCE_US : Fld := ⟨0x104, 0, 6, .rw, 30, 62, 1, 0, false⟩
def Fld.GUARD_HALT_CAUSE_VALID : Fld := ⟨0x108, 31, 1, .w1c, 0, 63, 1, 0, false⟩
def Fld.GUARD_HALT_CAUSE_CAUSE : Fld := ⟨0x108, 27, 4, .ro, 0, 63, 1, 0, false⟩
def Fld.GUARD_HALT_CAUSE_BLOCK : Fld := ⟨0x108, 16, 5, .ro, 0, 63, 1, 0, false⟩
def Fld.GUARD_HALT_CAUSE_DINST : Fld := ⟨0x108, 5, 11, .ro, 0, 63, 1, 0, false⟩
def Fld.GUARD_HALT_CAUSE_BIT : Fld := ⟨0x108, 0, 5, .ro, 0, 63, 1, 0, false⟩
def Fld.GUARD_ELOG_CTRL_CLEAR : Fld := ⟨0x10c, 31, 1, .w1s, 0, 0, 1, 0, false⟩
def Fld.GUARD_ELOG_CTRL_COUNT : Fld := ⟨0x10c, 16, 11, .ro, 0, 63, 1, 0, false⟩
def Fld.GUARD_ELOG_CTRL_LOST : Fld := ⟨0x10c, 0, 16, .ro, 0, 63, 1, 0, false⟩
def Fld.GUARD_SUMMARY_SAFE_HALT : Fld := ⟨0x110, 31, 1, .ro, 0, 62, 1, 0, false⟩
def Fld.GUARD_SUMMARY_ANY : Fld := ⟨0x110, 0, 6, .ro, 0, 62, 1, 0, false⟩
def Fld.GUARD_ELOG_READ_DW : Fld := ⟨0x200, 0, 32, .ro, 0, 63, 8, 4, false⟩

/-- The register table of a page of kind GUARD0. -/
def tabGUARD0 : List Fld :=
  [.GUARD_POLICY_SYNTH, .GUARD_POLICY_POISON_BLOCK, .GUARD_POLICY_DEV_RESET, .GUARD_POLICY_FD_HOLD,
   .GUARD_POLICY_WINDOW_MS, .GUARD_POLICY_AUTO, .GUARD_TIMING_DEV_READY_MS, .GUARD_TIMING_QUIESCE_US,
   .GUARD_HALT_CAUSE_VALID, .GUARD_HALT_CAUSE_CAUSE, .GUARD_HALT_CAUSE_BLOCK, .GUARD_HALT_CAUSE_DINST,
   .GUARD_HALT_CAUSE_BIT, .GUARD_ELOG_CTRL_CLEAR, .GUARD_ELOG_CTRL_COUNT, .GUARD_ELOG_CTRL_LOST,
   .GUARD_SUMMARY_SAFE_HALT, .GUARD_SUMMARY_ANY, .GUARD_ELOG_READ_DW]

/-! ### SEC0 -/

def Fld.SEC_OWNER_STAT_OWNED : Fld := ⟨0x100, 31, 1, .ro, 0, 63, 1, 0, false⟩
def Fld.SEC_OWNER_STAT_RECORD : Fld := ⟨0x100, 24, 4, .ro, 0, 63, 1, 0, false⟩
def Fld.SEC_OWNER_STAT_LEFT : Fld := ⟨0x100, 20, 4, .ro, 0, 63, 1, 0, false⟩
def Fld.SEC_OWNER_STAT_SLOTS : Fld := ⟨0x100, 0, 4, .ro, 0, 63, 1, 0, false⟩
def Fld.SEC_TOKEN_CTRL_GO : Fld := ⟨0x120, 31, 1, .w1s, 0, 0, 1, 0, true⟩
def Fld.SEC_TOKEN_CTRL_STATUS : Fld := ⟨0x120, 27, 4, .ro, 0, 62, 1, 0, true⟩
def Fld.SEC_TOKEN_CTRL_OP : Fld := ⟨0x120, 0, 8, .ro, 0, 62, 1, 0, true⟩
def Fld.SEC_ARB_CFG : Fld := ⟨0x140, 16, 7, .ro, 0, 63, 1, 0, false⟩
def Fld.SEC_ARB_FW : Fld := ⟨0x140, 0, 6, .ro, 0, 63, 1, 0, false⟩
def Fld.SEC_DEBUG_RELOCK : Fld := ⟨0x150, 31, 1, .w1s, 0, 0, 1, 0, false⟩
def Fld.SEC_DEBUG_DENY : Fld := ⟨0x150, 30, 1, .ro, 0, 62, 1, 0, false⟩
def Fld.SEC_DEBUG_STATE : Fld := ⟨0x150, 0, 2, .ro, 0, 63, 1, 0, false⟩
def Fld.SEC_NONCE_DW : Fld := ⟨0x110, 0, 32, .ro, 0, 0, 4, 4, false⟩
def Fld.SEC_GRANT_MASK : Fld := ⟨0x130, 0, 32, .ro, 0, 62, 1, 0, false⟩
def Fld.SEC_TOKEN_BUF_DW : Fld := ⟨0x200, 0, 32, .rw, 0, 30, 128, 4, true⟩
def Fld.SEC_LOCK_MAP_LOCK : Fld := ⟨0x400, 0, 32, .w1s, 0, 63, 32, 4, false⟩

/-- The register table of a page of kind SEC0. -/
def tabSEC0 : List Fld :=
  [.SEC_OWNER_STAT_OWNED, .SEC_OWNER_STAT_RECORD, .SEC_OWNER_STAT_LEFT, .SEC_OWNER_STAT_SLOTS, .SEC_TOKEN_CTRL_GO,
   .SEC_TOKEN_CTRL_STATUS, .SEC_TOKEN_CTRL_OP, .SEC_ARB_CFG, .SEC_ARB_FW, .SEC_DEBUG_RELOCK, .SEC_DEBUG_DENY,
   .SEC_DEBUG_STATE, .SEC_NONCE_DW, .SEC_GRANT_MASK, .SEC_TOKEN_BUF_DW, .SEC_LOCK_MAP_LOCK]

/-! ### SEC1 -/

def Fld.SEC_IDE_STAT_REQUIRED : Fld := ⟨0x100, 31, 1, .ro, 0, 62, 96, 4, false⟩
def Fld.SEC_IDE_STAT_FAIL : Fld := ⟨0x100, 30, 1, .w1c, 0, 47, 96, 4, false⟩
def Fld.SEC_IDE_STAT_LINK_SECURE : Fld := ⟨0x100, 29, 1, .ro, 0, 14, 96, 4, false⟩
def Fld.SEC_IDE_STAT_LINK_KSET : Fld := ⟨0x100, 28, 1, .ro, 0, 14, 96, 4, false⟩
def Fld.SEC_IDE_STAT_SEL_SECURE : Fld := ⟨0x100, 24, 4, .ro, 0, 14, 96, 4, false⟩
def Fld.SEC_IDE_STAT_SEL_VALID : Fld := ⟨0x100, 20, 4, .ro, 0, 14, 96, 4, false⟩
def Fld.SEC_IDE_STAT_DEV_AUTH : Fld := ⟨0x100, 19, 1, .ro, 0, 14, 96, 4, false⟩
def Fld.SEC_IDE_STAT_LINK_ID : Fld := ⟨0x100, 0, 8, .ro, 0, 14, 96, 4, false⟩

/-- The register table of a page of kind SEC1. -/
def tabSEC1 : List Fld :=
  [.SEC_IDE_STAT_REQUIRED, .SEC_IDE_STAT_FAIL, .SEC_IDE_STAT_LINK_SECURE, .SEC_IDE_STAT_LINK_KSET,
   .SEC_IDE_STAT_SEL_SECURE, .SEC_IDE_STAT_SEL_VALID, .SEC_IDE_STAT_DEV_AUTH, .SEC_IDE_STAT_LINK_ID]

/-! ### SEC2 -/

def Fld.SEC_LINK_STAT_AUTH_OK : Fld := ⟨0x100, 31, 1, .ro, 0, 14, 96, 4, false⟩
def Fld.SEC_LINK_STAT_PARTNER_DEBUG : Fld := ⟨0x100, 30, 1, .ro, 0, 14, 96, 4, false⟩
def Fld.SEC_LINK_STAT_REKEY : Fld := ⟨0x100, 29, 1, .w1s, 0, 0, 96, 4, false⟩
def Fld.SEC_LINK_STAT_AUTH_STATUS : Fld := ⟨0x100, 26, 3, .ro, 0, 14, 96, 4, false⟩
def Fld.SEC_LINK_STAT_REKEYS : Fld := ⟨0x100, 0, 16, .ro, 0, 14, 96, 4, false⟩

/-- The register table of a page of kind SEC2. -/
def tabSEC2 : List Fld :=
  [.SEC_LINK_STAT_AUTH_OK, .SEC_LINK_STAT_PARTNER_DEBUG, .SEC_LINK_STAT_REKEY, .SEC_LINK_STAT_AUTH_STATUS,
   .SEC_LINK_STAT_REKEYS]

/-! ### PWR -/

def Fld.PWR_CH_CFG_EN : Fld := ⟨0x100, 31, 1, .rw, 2 ^ 32 + 0, 31, 1, 0, false⟩
def Fld.PWR_CH_CFG_BIND_EN : Fld := ⟨0x100, 30, 1, .rw, 0, 31, 1, 0, false⟩
def Fld.PWR_CH_CFG_CLEAR : Fld := ⟨0x100, 29, 1, .w1s, 0, 0, 1, 0, false⟩
def Fld.PWR_CH_CFG_PORT : Fld := ⟨0x100, 22, 7, .rw, 0, 31, 1, 0, false⟩
def Fld.PWR_CH_CFG_INS_DELAY : Fld := ⟨0x100, 11, 11, .rw, 100, 31, 1, 0, false⟩
def Fld.PWR_CH_CFG_WARN_LEAD : Fld := ⟨0x100, 1, 10, .rw, 50, 31, 1, 0, false⟩
def Fld.PWR_CH_STAT_STATE : Fld := ⟨0x104, 28, 4, .ro, 0, 31, 1, 0, false⟩
def Fld.PWR_CH_STAT_ACTIVE_B : Fld := ⟨0x104, 27, 1, .ro, 0, 31, 1, 0, false⟩
def Fld.PWR_CH_STAT_A_OK : Fld := ⟨0x104, 26, 1, .ro, 0, 31, 1, 0, false⟩
def Fld.PWR_CH_STAT_B_OK : Fld := ⟨0x104, 25, 1, .ro, 0, 31, 1, 0, false⟩
def Fld.PWR_CH_STAT_SEATED : Fld := ⟨0x104, 24, 1, .ro, 0, 31, 1, 0, false⟩
def Fld.PWR_CH_STAT_PG : Fld := ⟨0x104, 23, 1, .ro, 0, 31, 1, 0, false⟩
def Fld.PWR_CH_STAT_WARN : Fld := ⟨0x104, 22, 1, .ro, 0, 31, 1, 0, false⟩
def Fld.PWR_CH_STAT_LIMIT : Fld := ⟨0x104, 21, 1, .ro, 0, 31, 1, 0, false⟩
def Fld.PWR_CH_STAT_REV_BLOCK : Fld := ⟨0x104, 20, 1, .ro, 0, 31, 1, 0, false⟩
def Fld.PWR_CH_STAT_RETRIES_LEFT : Fld := ⟨0x104, 16, 4, .ro, 0, 31, 1, 0, false⟩
def Fld.PWR_CH_STAT_LAST_CUT : Fld := ⟨0x104, 12, 4, .ro, 0, 31, 1, 0, false⟩
def Fld.PWR_FEED_SEL_FEED_A_EN : Fld := ⟨0x108, 31, 1, .rw, 1, 31, 1, 0, false⟩
def Fld.PWR_FEED_SEL_FEED_B_EN : Fld := ⟨0x108, 30, 1, .rw, 0, 31, 1, 0, false⟩
def Fld.PWR_FEED_SEL_PRIO : Fld := ⟨0x108, 29, 1, .rw, 0, 31, 1, 0, false⟩
def Fld.PWR_FEED_SEL_REVERT : Fld := ⟨0x108, 28, 1, .rw, 1, 31, 1, 0, false⟩
def Fld.PWR_FEED_SEL_WARN_ON_SWITCH : Fld := ⟨0x108, 27, 1, .rw, 1, 31, 1, 0, false⟩
def Fld.PWR_FEED_SEL_FORCE : Fld := ⟨0x108, 25, 2, .rw, 0, 31, 1, 0, false⟩
def Fld.PWR_FEED_SEL_DEAD_US : Fld := ⟨0x108, 0, 6, .rw, 5, 31, 1, 0, false⟩
def Fld.PWR_LIMIT_RAMP : Fld := ⟨0x10c, 24, 8, .rw, 8, 31, 1, 0, false⟩
def Fld.PWR_LIMIT_TFET_MAX : Fld := ⟨0x10c, 16, 8, .rw, 140, 31, 1, 0, false⟩
def Fld.PWR_LIMIT_ILIM : Fld := ⟨0x10c, 0, 8, .rw, 4, 31, 1, 0, false⟩
def Fld.PWR_FAULT_TIMER_RETRY_COUNT : Fld := ⟨0x110, 28, 4, .rw, 0, 31, 1, 0, false⟩
def Fld.PWR_FAULT_TIMER_TIMER : Fld := ⟨0x110, 0, 20, .rw, 10000, 31, 1, 0, false⟩
def Fld.PWR_UVOV_OV : Fld := ⟨0x114, 16, 10, .rw, 600, 31, 1, 0, false⟩
def Fld.PWR_UVOV_UV : Fld := ⟨0x114, 0, 10, .rw, 80, 31, 1, 0, false⟩
def Fld.PWR_TELEM_VOUT : Fld := ⟨0x120, 16, 16, .ro, 0, 31, 1, 0, false⟩
def Fld.PWR_TELEM_IOUT : Fld := ⟨0x120, 0, 16, .ro, 0, 31, 1, 0, false⟩
def Fld.PWR_TELEM_VFA : Fld := ⟨0x124, 16, 16, .ro, 0, 31, 1, 0, false⟩
def Fld.PWR_TELEM_VFB : Fld := ⟨0x124, 0, 16, .ro, 0, 31, 1, 0, false⟩
def Fld.PWR_TELEM_TFET : Fld := ⟨0x128, 24, 8, .ro, 0, 31, 1, 0, false⟩
def Fld.PWR_TELEM_IPEAK : Fld := ⟨0x128, 0, 16, .rc, 0, 31, 1, 0, false⟩
def Fld.PWR_SNAP_VOUT : Fld := ⟨0x130, 16, 16, .ro, 0, 31, 1, 0, false⟩
def Fld.PWR_SNAP_IOUT : Fld := ⟨0x130, 0, 16, .ro, 0, 31, 1, 0, false⟩
def Fld.PWR_SNAP_VFA : Fld := ⟨0x134, 16, 16, .ro, 0, 31, 1, 0, false⟩
def Fld.PWR_SNAP_VFB : Fld := ⟨0x134, 0, 16, .ro, 0, 31, 1, 0, false⟩
def Fld.PWR_SNAP_TFET : Fld := ⟨0x138, 24, 8, .ro, 0, 31, 1, 0, false⟩
def Fld.PWR_SNAP_IPEAK : Fld := ⟨0x138, 0, 16, .ro, 0, 31, 1, 0, false⟩
def Fld.PWR_SNAP_CYCLE : Fld := ⟨0x13c, 0, 32, .ro, 0, 31, 1, 0, false⟩

/-- Part 0 of the register table of a page of kind PWR. -/
def tabPWR_0 : List Fld :=
  [.PWR_CH_CFG_EN, .PWR_CH_CFG_BIND_EN, .PWR_CH_CFG_CLEAR, .PWR_CH_CFG_PORT, .PWR_CH_CFG_INS_DELAY,
   .PWR_CH_CFG_WARN_LEAD, .PWR_CH_STAT_STATE, .PWR_CH_STAT_ACTIVE_B, .PWR_CH_STAT_A_OK, .PWR_CH_STAT_B_OK,
   .PWR_CH_STAT_SEATED, .PWR_CH_STAT_PG, .PWR_CH_STAT_WARN, .PWR_CH_STAT_LIMIT, .PWR_CH_STAT_REV_BLOCK,
   .PWR_CH_STAT_RETRIES_LEFT, .PWR_CH_STAT_LAST_CUT, .PWR_FEED_SEL_FEED_A_EN, .PWR_FEED_SEL_FEED_B_EN,
   .PWR_FEED_SEL_PRIO, .PWR_FEED_SEL_REVERT, .PWR_FEED_SEL_WARN_ON_SWITCH, .PWR_FEED_SEL_FORCE, .PWR_FEED_SEL_DEAD_US,
   .PWR_LIMIT_RAMP, .PWR_LIMIT_TFET_MAX, .PWR_LIMIT_ILIM, .PWR_FAULT_TIMER_RETRY_COUNT, .PWR_FAULT_TIMER_TIMER,
   .PWR_UVOV_OV, .PWR_UVOV_UV, .PWR_TELEM_VOUT, .PWR_TELEM_IOUT, .PWR_TELEM_VFA, .PWR_TELEM_VFB, .PWR_TELEM_TFET,
   .PWR_TELEM_IPEAK, .PWR_SNAP_VOUT, .PWR_SNAP_IOUT, .PWR_SNAP_VFA]

/-- Part 1 of the register table of a page of kind PWR. -/
def tabPWR_1 : List Fld :=
  [.PWR_SNAP_VFB, .PWR_SNAP_TFET, .PWR_SNAP_IPEAK, .PWR_SNAP_CYCLE]

/-- The register table of a page of kind PWR. -/
def tabPWR : List Fld :=
  tabPWR_0 ++ tabPWR_1

/-! ### PWRG -/

def Fld.PWR_CHECK_CFG_EN : Fld := ⟨0x100, 31, 1, .rw, 0, 63, 1, 0, false⟩
def Fld.PWR_CHECK_CFG_EVERY_LOG2 : Fld := ⟨0x100, 20, 4, .rw, 0, 63, 1, 0, false⟩
def Fld.PWR_CHECK_CFG_PHASE : Fld := ⟨0x100, 0, 20, .rw, 0, 63, 1, 0, false⟩
def Fld.PWR_GLB_STAT_VKEEP : Fld := ⟨0x104, 16, 16, .ro, 0, 63, 1, 0, false⟩
def Fld.PWR_GLB_STAT_VWAKE : Fld := ⟨0x104, 0, 1, .ro, 0, 63, 1, 0, false⟩

/-- The register table of a page of kind PWRG. -/
def tabPWRG : List Fld :=
  [.PWR_CHECK_CFG_EN, .PWR_CHECK_CFG_EVERY_LOG2, .PWR_CHECK_CFG_PHASE, .PWR_GLB_STAT_VKEEP, .PWR_GLB_STAT_VWAKE]

/-! ### MGMT0 -/

def Fld.MGMT_FW_SLOT_CONFIRM : Fld := ⟨0x100, 31, 1, .w1s, 0, 0, 1, 0, false⟩
def Fld.MGMT_FW_SLOT_RUNNING : Fld := ⟨0x100, 24, 2, .ro, 3, 62, 1, 0, false⟩
def Fld.MGMT_FW_SLOT_FW_A : Fld := ⟨0x100, 22, 2, .ro, 0, 63, 1, 0, false⟩
def Fld.MGMT_FW_SLOT_FW_B : Fld := ⟨0x100, 20, 2, .ro, 0, 63, 1, 0, false⟩
def Fld.MGMT_FW_SLOT_CFG_A : Fld := ⟨0x100, 18, 2, .ro, 0, 63, 1, 0, false⟩
def Fld.MGMT_FW_SLOT_CFG_B : Fld := ⟨0x100, 16, 2, .ro, 0, 63, 1, 0, false⟩
def Fld.MGMT_FW_SLOT_ATTEMPTS_A : Fld := ⟨0x100, 2, 2, .ro, 0, 63, 1, 0, false⟩
def Fld.MGMT_FW_SLOT_ATTEMPTS_B : Fld := ⟨0x100, 0, 2, .ro, 0, 63, 1, 0, false⟩
def Fld.MGMT_FW_STAT_STATE : Fld := ⟨0x104, 30, 2, .ro, 0, 62, 1, 0, false⟩
def Fld.MGMT_FW_STAT_RESTART_LIMIT : Fld := ⟨0x104, 24, 4, .rw, 4, 62, 1, 0, false⟩
def Fld.MGMT_FW_STAT_RESTARTS : Fld := ⟨0x104, 16, 8, .ro, 0, 62, 1, 0, false⟩
def Fld.MGMT_FW_STAT_FW_EPOCH : Fld := ⟨0x104, 0, 16, .ro, 0, 62, 1, 0, false⟩
def Fld.MGMT_WD_KEY : Fld := ⟨0x108, 16, 16, .wo, 0, 0, 1, 0, false⟩
def Fld.MGMT_WD_KICK : Fld := ⟨0x108, 15, 1, .wo, 0, 0, 1, 0, false⟩
def Fld.MGMT_WD_TIMEOUT_MS : Fld := ⟨0x108, 0, 10, .rw, 100, 62, 1, 0, false⟩
def Fld.MGMT_THERM_THRESH_SHUTDOWN : Fld := ⟨0x110, 24, 8, .ro, 135, 63, 1, 0, false⟩
def Fld.MGMT_THERM_THRESH_HALT : Fld := ⟨0x110, 16, 8, .ro, 130, 63, 1, 0, false⟩
def Fld.MGMT_THERM_THRESH_THROTTLE : Fld := ⟨0x110, 8, 8, .rw, 120, 62, 1, 0, false⟩
def Fld.MGMT_THERM_THRESH_WARN : Fld := ⟨0x110, 0, 8, .rw, 115, 62, 1, 0, false⟩
def Fld.MGMT_IMG_CTRL_START : Fld := ⟨0x200, 31, 1, .w1s, 0, 0, 1, 0, false⟩
def Fld.MGMT_IMG_CTRL_FINISH : Fld := ⟨0x200, 30, 1, .w1s, 0, 0, 1, 0, false⟩
def Fld.MGMT_IMG_CTRL_ABORT : Fld := ⟨0x200, 29, 1, .w1s, 0, 0, 1, 0, false⟩
def Fld.MGMT_IMG_CTRL_BUSY : Fld := ⟨0x200, 28, 1, .ro, 0, 62, 1, 0, false⟩
def Fld.MGMT_IMG_CTRL_STATUS : Fld := ⟨0x200, 24, 4, .ro, 0, 62, 1, 0, false⟩
def Fld.MGMT_IMG_CTRL_KIND : Fld := ⟨0x200, 8, 1, .rw, 0, 62, 1, 0, false⟩
def Fld.MGMT_IMG_CTRL_INSTALLER : Fld := ⟨0x200, 0, 8, .ro, 0, 62, 1, 0, false⟩
def Fld.MGMT_THERM_STAT_STEP : Fld := ⟨0x114, 28, 4, .ro, 0, 62, 1, 0, false⟩
def Fld.MGMT_THERM_STAT_VALID_COUNT : Fld := ⟨0x114, 22, 6, .ro, 0, 62, 1, 0, false⟩
def Fld.MGMT_THERM_STAT_HOT_SENSOR : Fld := ⟨0x114, 16, 6, .ro, 0, 62, 1, 0, false⟩
def Fld.MGMT_THERM_STAT_HOTTEST : Fld := ⟨0x114, 0, 16, .ro, 0, 62, 1, 0, false⟩
def Fld.MGMT_TEMP_VALID : Fld := ⟨0x120, 31, 1, .ro, 0, 62, 34, 4, false⟩
def Fld.MGMT_TEMP_T : Fld := ⟨0x120, 0, 16, .ro, 0, 62, 34, 4, false⟩
def Fld.MGMT_VMON_OOR : Fld := ⟨0x1b0, 31, 1, .ro, 0, 62, 5, 4, false⟩
def Fld.MGMT_VMON_MV : Fld := ⟨0x1b0, 0, 16, .ro, 0, 62, 5, 4, false⟩
def Fld.MGMT_IMG_CHUNK_GO : Fld := ⟨0x204, 31, 1, .w1s, 0, 0, 1, 0, false⟩
def Fld.MGMT_IMG_CHUNK_LEN_M1 : Fld := ⟨0x204, 16, 15, .rw, 0, 62, 1, 0, false⟩
def Fld.MGMT_IMG_CHUNK_OFFSET : Fld := ⟨0x208, 0, 25, .rw, 0, 62, 1, 0, false⟩
def Fld.MGMT_IMG_BUF_DW : Fld := ⟨0x8000, 0, 32, .rw, 0, 62, 8192, 4, false⟩

/-- The register table of a page of kind MGMT0. -/
def tabMGMT0 : List Fld :=
  [.MGMT_FW_SLOT_CONFIRM, .MGMT_FW_SLOT_RUNNING, .MGMT_FW_SLOT_FW_A, .MGMT_FW_SLOT_FW_B, .MGMT_FW_SLOT_CFG_A,
   .MGMT_FW_SLOT_CFG_B, .MGMT_FW_SLOT_ATTEMPTS_A, .MGMT_FW_SLOT_ATTEMPTS_B, .MGMT_FW_STAT_STATE,
   .MGMT_FW_STAT_RESTART_LIMIT, .MGMT_FW_STAT_RESTARTS, .MGMT_FW_STAT_FW_EPOCH, .MGMT_WD_KEY, .MGMT_WD_KICK,
   .MGMT_WD_TIMEOUT_MS, .MGMT_THERM_THRESH_SHUTDOWN, .MGMT_THERM_THRESH_HALT, .MGMT_THERM_THRESH_THROTTLE,
   .MGMT_THERM_THRESH_WARN, .MGMT_IMG_CTRL_START, .MGMT_IMG_CTRL_FINISH, .MGMT_IMG_CTRL_ABORT, .MGMT_IMG_CTRL_BUSY,
   .MGMT_IMG_CTRL_STATUS, .MGMT_IMG_CTRL_KIND, .MGMT_IMG_CTRL_INSTALLER, .MGMT_THERM_STAT_STEP,
   .MGMT_THERM_STAT_VALID_COUNT, .MGMT_THERM_STAT_HOT_SENSOR, .MGMT_THERM_STAT_HOTTEST, .MGMT_TEMP_VALID,
   .MGMT_TEMP_T, .MGMT_VMON_OOR, .MGMT_VMON_MV, .MGMT_IMG_CHUNK_GO, .MGMT_IMG_CHUNK_LEN_M1, .MGMT_IMG_CHUNK_OFFSET,
   .MGMT_IMG_BUF_DW]

/-! ### MGMT1 -/

def Fld.MGMT_GATHER_CTRL_EN : Fld := ⟨0x100, 31, 1, .rw, 0, 62, 1, 0, false⟩
def Fld.MGMT_GATHER_CTRL_FREE_EN : Fld := ⟨0x100, 30, 1, .rw, 0, 62, 1, 0, false⟩
def Fld.MGMT_GATHER_CTRL_EVERY_LOG2 : Fld := ⟨0x100, 24, 4, .rw, 0, 62, 1, 0, false⟩
def Fld.MGMT_GATHER_CTRL_GFACE : Fld := ⟨0x100, 16, 5, .rw, 0, 62, 1, 0, false⟩
def Fld.MGMT_GATHER_CTRL_COUNT : Fld := ⟨0x100, 0, 13, .rw, 1, 62, 1, 0, false⟩
def Fld.MGMT_GATHER_PHASE_PHASE : Fld := ⟨0x104, 0, 20, .rw, 0, 62, 1, 0, false⟩
def Fld.MGMT_GATHER_BASE_ADDR : Fld := ⟨0x108, 12, 20, .rw, 0, 62, 1, 0, false⟩
def Fld.MGMT_GATHER_BASE_ADDR_HI : Fld := ⟨0x10c, 0, 32, .rw, 0, 62, 1, 0, false⟩
def Fld.MGMT_GATHER_RING_SLOTS_LOG2 : Fld := ⟨0x110, 8, 4, .rw, 0, 62, 1, 0, false⟩
def Fld.MGMT_GATHER_RING_SLOT_LOG2 : Fld := ⟨0x110, 0, 5, .rw, 0, 62, 1, 0, false⟩
def Fld.MGMT_GATHER_STAT_BUSY : Fld := ⟨0x114, 31, 1, .ro, 0, 62, 1, 0, false⟩
def Fld.MGMT_GATHER_STAT_LAST_SKEW : Fld := ⟨0x114, 16, 15, .ro, 0, 62, 1, 0, false⟩
def Fld.MGMT_GATHER_STAT_SEQ : Fld := ⟨0x114, 0, 16, .ro, 0, 62, 1, 0, false⟩
def Fld.MGMT_GATHER_LIST_PAGE : Fld := ⟨0x1000, 22, 10, .rw, 0, 62, 4096, 4, false⟩
def Fld.MGMT_GATHER_LIST_INDEX : Fld := ⟨0x1000, 0, 16, .rw, 0, 62, 4096, 4, false⟩

/-- The register table of a page of kind MGMT1. -/
def tabMGMT1 : List Fld :=
  [.MGMT_GATHER_CTRL_EN, .MGMT_GATHER_CTRL_FREE_EN, .MGMT_GATHER_CTRL_EVERY_LOG2, .MGMT_GATHER_CTRL_GFACE,
   .MGMT_GATHER_CTRL_COUNT, .MGMT_GATHER_PHASE_PHASE, .MGMT_GATHER_BASE_ADDR, .MGMT_GATHER_BASE_ADDR_HI,
   .MGMT_GATHER_RING_SLOTS_LOG2, .MGMT_GATHER_RING_SLOT_LOG2, .MGMT_GATHER_STAT_BUSY, .MGMT_GATHER_STAT_LAST_SKEW,
   .MGMT_GATHER_STAT_SEQ, .MGMT_GATHER_LIST_PAGE, .MGMT_GATHER_LIST_INDEX]

/-! ### ROUTE1 -/

def Fld.ROUTE_SIG_BLK_DW : Fld := ⟨0x100, 0, 32, .rw, 0, 30, 48, 4, false⟩

/-- The register table of a page of kind ROUTE1. -/
def tabROUTE1 : List Fld :=
  [.ROUTE_SIG_BLK_DW]

/-! ### ROUTE2 -/

def Fld.ROUTE_MISS_LOG_DW : Fld := ⟨0x100, 0, 32, .ro, 0, 63, 4, 4, false⟩

/-- The register table of a page of kind ROUTE2. -/
def tabROUTE2 : List Fld :=
  [.ROUTE_MISS_LOG_DW]

/-! ### INST3 -/

def Fld.INST_VI_CFG_CFG0_FACE : Fld := ⟨0x100, 24, 5, .ro, 0, 62, 1024, 16, false⟩
def Fld.INST_VI_CFG_CFG0_PASID : Fld := ⟨0x100, 0, 20, .ro, 0, 62, 1024, 16, false⟩
def Fld.INST_VI_CFG_CFG1_POL_EN : Fld := ⟨0x104, 31, 1, .ro, 0, 62, 1024, 16, false⟩
def Fld.INST_VI_CFG_CFG1_FEID : Fld := ⟨0x104, 16, 13, .ro, 0, 62, 1024, 16, false⟩
def Fld.INST_VI_CFG_CFG1_POLICER : Fld := ⟨0x104, 0, 13, .ro, 0, 62, 1024, 16, false⟩
def Fld.INST_VI_CFG_CFG2_TAG_MAX : Fld := ⟨0x108, 16, 15, .ro, 0, 62, 1024, 16, false⟩
def Fld.INST_VI_CFG_CFG2_VEC_LOG2 : Fld := ⟨0x108, 12, 3, .ro, 0, 62, 1024, 16, false⟩
def Fld.INST_VI_CFG_CFG2_VEC_BASE : Fld := ⟨0x108, 0, 11, .ro, 0, 62, 1024, 16, false⟩
def Fld.INST_VI_CFG_RSV : Fld := ⟨0x10c, 0, 32, .rsv, 0, 62, 1024, 16, false⟩

/-- The register table of a page of kind INST3. -/
def tabINST3 : List Fld :=
  [.INST_VI_CFG_CFG0_FACE, .INST_VI_CFG_CFG0_PASID, .INST_VI_CFG_CFG1_POL_EN, .INST_VI_CFG_CFG1_FEID,
   .INST_VI_CFG_CFG1_POLICER, .INST_VI_CFG_CFG2_TAG_MAX, .INST_VI_CFG_CFG2_VEC_LOG2, .INST_VI_CFG_CFG2_VEC_BASE,
   .INST_VI_CFG_RSV]

/-! ### GUARD1 -/

def Fld.GDS_LANE_CONTAIN : Fld := ⟨0x100, 31, 1, .w1s, 0, 0, 192, 4, false⟩
def Fld.GDS_LANE_RELEASE : Fld := ⟨0x100, 30, 1, .w1s, 0, 0, 192, 4, false⟩
def Fld.GDS_LANE_HOLD : Fld := ⟨0x100, 29, 1, .rw, 0, 62, 192, 4, false⟩
def Fld.GDS_LANE_STATE : Fld := ⟨0x100, 24, 3, .ro, 0, 62, 192, 4, false⟩
def Fld.GDS_LANE_CLASS : Fld := ⟨0x100, 22, 2, .ro, 0, 62, 192, 4, false⟩
def Fld.GDS_LANE_WINDOW : Fld := ⟨0x100, 21, 1, .ro, 0, 62, 192, 4, false⟩
def Fld.GDS_LANE_BY_SW : Fld := ⟨0x100, 20, 1, .ro, 0, 62, 192, 4, false⟩
def Fld.GDS_LANE_MERGED : Fld := ⟨0x100, 0, 16, .ro, 0, 62, 192, 4, false⟩
def Fld.GDS_PORT_CONTAIN : Fld := ⟨0x400, 31, 1, .w1s, 0, 0, 96, 4, false⟩
def Fld.GDS_PORT_RELEASE : Fld := ⟨0x400, 30, 1, .w1s, 0, 0, 96, 4, false⟩
def Fld.GDS_PORT_HOLD : Fld := ⟨0x400, 29, 1, .rw, 0, 62, 96, 4, false⟩
def Fld.GDS_PORT_STATE : Fld := ⟨0x400, 24, 3, .ro, 0, 62, 96, 4, false⟩
def Fld.GDS_PORT_CLASS : Fld := ⟨0x400, 22, 2, .ro, 0, 62, 96, 4, false⟩
def Fld.GDS_PORT_WINDOW : Fld := ⟨0x400, 21, 1, .ro, 0, 62, 96, 4, false⟩
def Fld.GDS_PORT_BY_SW : Fld := ⟨0x400, 20, 1, .ro, 0, 62, 96, 4, false⟩
def Fld.GDS_PORT_MERGED : Fld := ⟨0x400, 0, 16, .ro, 0, 62, 96, 4, false⟩
def Fld.GDS_LINK_CONTAIN : Fld := ⟨0x600, 31, 1, .w1s, 0, 0, 160, 4, false⟩
def Fld.GDS_LINK_RELEASE : Fld := ⟨0x600, 30, 1, .w1s, 0, 0, 160, 4, false⟩
def Fld.GDS_LINK_HOLD : Fld := ⟨0x600, 29, 1, .rw, 0, 62, 160, 4, false⟩
def Fld.GDS_LINK_STATE : Fld := ⟨0x600, 24, 3, .ro, 0, 62, 160, 4, false⟩
def Fld.GDS_LINK_CLASS : Fld := ⟨0x600, 22, 2, .ro, 0, 62, 160, 4, false⟩
def Fld.GDS_LINK_WINDOW : Fld := ⟨0x600, 21, 1, .ro, 0, 62, 160, 4, false⟩
def Fld.GDS_LINK_BY_SW : Fld := ⟨0x600, 20, 1, .ro, 0, 62, 160, 4, false⟩
def Fld.GDS_LINK_MERGED : Fld := ⟨0x600, 0, 16, .ro, 0, 62, 160, 4, false⟩
def Fld.GDS_INST_CONTAIN : Fld := ⟨0x1000, 31, 1, .w1s, 0, 0, 1024, 4, false⟩
def Fld.GDS_INST_RELEASE : Fld := ⟨0x1000, 30, 1, .w1s, 0, 0, 1024, 4, false⟩
def Fld.GDS_INST_HOLD : Fld := ⟨0x1000, 29, 1, .rw, 0, 62, 1024, 4, false⟩
def Fld.GDS_INST_STATE : Fld := ⟨0x1000, 24, 3, .ro, 0, 62, 1024, 4, false⟩
def Fld.GDS_INST_CLASS : Fld := ⟨0x1000, 22, 2, .ro, 0, 62, 1024, 4, false⟩
def Fld.GDS_INST_WINDOW : Fld := ⟨0x1000, 21, 1, .ro, 0, 62, 1024, 4, false⟩
def Fld.GDS_INST_BY_SW : Fld := ⟨0x1000, 20, 1, .ro, 0, 62, 1024, 4, false⟩
def Fld.GDS_INST_MERGED : Fld := ⟨0x1000, 0, 16, .ro, 0, 62, 1024, 4, false⟩
def Fld.GDS_FACE_CONTAIN : Fld := ⟨0x2000, 31, 1, .w1s, 0, 0, 32, 4, false⟩
def Fld.GDS_FACE_RELEASE : Fld := ⟨0x2000, 30, 1, .w1s, 0, 0, 32, 4, false⟩
def Fld.GDS_FACE_HOLD : Fld := ⟨0x2000, 29, 1, .rw, 0, 62, 32, 4, false⟩
def Fld.GDS_FACE_STATE : Fld := ⟨0x2000, 24, 3, .ro, 0, 62, 32, 4, false⟩
def Fld.GDS_FACE_CLASS : Fld := ⟨0x2000, 22, 2, .ro, 0, 62, 32, 4, false⟩
def Fld.GDS_FACE_WINDOW : Fld := ⟨0x2000, 21, 1, .ro, 0, 62, 32, 4, false⟩
def Fld.GDS_FACE_BY_SW : Fld := ⟨0x2000, 20, 1, .ro, 0, 62, 32, 4, false⟩
def Fld.GDS_FACE_MERGED : Fld := ⟨0x2000, 0, 16, .ro, 0, 62, 32, 4, false⟩
def Fld.GDS_DEVICE_CONTAIN : Fld := ⟨0x2100, 31, 1, .w1s, 0, 0, 1, 4, false⟩
def Fld.GDS_DEVICE_RELEASE : Fld := ⟨0x2100, 30, 1, .w1s, 0, 0, 1, 4, false⟩
def Fld.GDS_DEVICE_HOLD : Fld := ⟨0x2100, 29, 1, .rw, 0, 62, 1, 4, false⟩
def Fld.GDS_DEVICE_STATE : Fld := ⟨0x2100, 24, 3, .ro, 0, 62, 1, 4, false⟩
def Fld.GDS_DEVICE_CLASS : Fld := ⟨0x2100, 22, 2, .ro, 0, 62, 1, 4, false⟩
def Fld.GDS_DEVICE_WINDOW : Fld := ⟨0x2100, 21, 1, .ro, 0, 62, 1, 4, false⟩
def Fld.GDS_DEVICE_BY_SW : Fld := ⟨0x2100, 20, 1, .ro, 0, 62, 1, 4, false⟩
def Fld.GDS_DEVICE_MERGED : Fld := ⟨0x2100, 0, 16, .ro, 0, 62, 1, 4, false⟩

/-- Part 0 of the register table of a page of kind GUARD1. -/
def tabGUARD1_0 : List Fld :=
  [.GDS_LANE_CONTAIN, .GDS_LANE_RELEASE, .GDS_LANE_HOLD, .GDS_LANE_STATE, .GDS_LANE_CLASS, .GDS_LANE_WINDOW,
   .GDS_LANE_BY_SW, .GDS_LANE_MERGED, .GDS_PORT_CONTAIN, .GDS_PORT_RELEASE, .GDS_PORT_HOLD, .GDS_PORT_STATE,
   .GDS_PORT_CLASS, .GDS_PORT_WINDOW, .GDS_PORT_BY_SW, .GDS_PORT_MERGED, .GDS_LINK_CONTAIN, .GDS_LINK_RELEASE,
   .GDS_LINK_HOLD, .GDS_LINK_STATE, .GDS_LINK_CLASS, .GDS_LINK_WINDOW, .GDS_LINK_BY_SW, .GDS_LINK_MERGED,
   .GDS_INST_CONTAIN, .GDS_INST_RELEASE, .GDS_INST_HOLD, .GDS_INST_STATE, .GDS_INST_CLASS, .GDS_INST_WINDOW,
   .GDS_INST_BY_SW, .GDS_INST_MERGED, .GDS_FACE_CONTAIN, .GDS_FACE_RELEASE, .GDS_FACE_HOLD, .GDS_FACE_STATE,
   .GDS_FACE_CLASS, .GDS_FACE_WINDOW, .GDS_FACE_BY_SW, .GDS_FACE_MERGED]

/-- Part 1 of the register table of a page of kind GUARD1. -/
def tabGUARD1_1 : List Fld :=
  [.GDS_DEVICE_CONTAIN, .GDS_DEVICE_RELEASE, .GDS_DEVICE_HOLD, .GDS_DEVICE_STATE, .GDS_DEVICE_CLASS,
   .GDS_DEVICE_WINDOW, .GDS_DEVICE_BY_SW, .GDS_DEVICE_MERGED]

/-- The register table of a page of kind GUARD1. -/
def tabGUARD1 : List Fld :=
  tabGUARD1_0 ++ tabGUARD1_1

/-! ### MGMT2 -/

def Fld.MGMT_SMB_CFG_EN : Fld := ⟨0x100, 31, 1, .rw, 1, 62, 4, 4, false⟩
def Fld.MGMT_SMB_CFG_SPEED : Fld := ⟨0x100, 8, 2, .rw, 1, 62, 4, 4, false⟩
def Fld.MGMT_SMB_CFG_ADDR : Fld := ⟨0x100, 0, 7, .rw, 2 ^ 32 + 4, 62, 4, 4, false⟩
def Fld.MGMT_SMB_IANA_NUM : Fld := ⟨0x110, 0, 32, .ro, 0, 62, 1, 0, false⟩
def Fld.MGMT_REMOTE_RD_MASK : Fld := ⟨0x120, 0, 32, .rw, 4294967295, 62, 2, 4, false⟩
def Fld.MGMT_REMOTE_WR_MASK : Fld := ⟨0x128, 0, 32, .rw, 0, 62, 2, 4, false⟩
def Fld.MGMT_GPIO_DIR_DIR : Fld := ⟨0x140, 0, 32, .rw, 0, 62, 1, 0, false⟩
def Fld.MGMT_GPIO_OUT_OUT : Fld := ⟨0x144, 0, 32, .rw, 0, 62, 1, 0, false⟩
def Fld.MGMT_GPIO_IN_IN : Fld := ⟨0x148, 0, 32, .ro, 0, 0, 1, 0, false⟩

/-- The register table of a page of kind MGMT2. -/
def tabMGMT2 : List Fld :=
  [.MGMT_SMB_CFG_EN, .MGMT_SMB_CFG_SPEED, .MGMT_SMB_CFG_ADDR, .MGMT_SMB_IANA_NUM, .MGMT_REMOTE_RD_MASK,
   .MGMT_REMOTE_WR_MASK, .MGMT_GPIO_DIR_DIR, .MGMT_GPIO_OUT_OUT, .MGMT_GPIO_IN_IN]

end Sys2Proof.Machine
end

