-- ==== Sys2Proof/Machine/State.lean ====
section
/-! DEFINITION. The state of the part: every register (each field of the register map, in one sparse table), every counter,
and the state behind the registers, as plain data; and the state after a cold reset. -/

namespace Sys2Proof.Machine

/-! ### Errors, domains and requests -/

/-- Error classes (R24, ERR_SEV): CE 0, NF 1, FD 2, HALT 3. -/
inductive Cls where
  | ce | nf | fd | halt
deriving DecidableEq, Repr

/-- The code of a class. -/
def Cls.code : Cls → Nat
  | .ce => 0
  | .nf => 1
  | .fd => 2
  | .halt => 3

/-- The class of a code. -/
def Cls.ofCode (n : Nat) : Cls :=
  match n % 4 with
  | 0 => .ce
  | 1 => .nf
  | 2 => .fd
  | _ => .halt

/-- The domain a containment request names (R24, Table GUARD-3): a domain of this switch, an FEID whose domain (or whose
switch) is to be found, or none (R596). -/
inductive ReqDom where
  | dom (d : Dom)
  | feid (n : Nat)
  | none
deriving DecidableEq, Repr

/-- One request on the containment request lines: source page and ERR_STICKY bit, class, domain, and the source of the
request where it is no error bit (block code 0x10 software with its stamp, 0x11 CONTAIN_REQ with the sending switch). -/
structure GReq where
  pg : Pg
  bit : Nat
  cls : Cls
  dom : ReqDom
  block : Nat
  detail0 : Nat
  detail1 : Nat
  /-- True for a feed warning (R11), which quiesces instead of containing. -/
  warn : Bool
deriving DecidableEq, Repr

/-- Functions of a face that report in AER (Table GUARD-5). -/
inductive AerFn where
  | usp | slot (n : Nat) | device (feid : Nat) | service
deriving DecidableEq, Repr

/-- Errors reported in AER (Table GUARD-5). -/
inductive AerErr where
  | unsupportedRequest | completerAbort | surpriseDown | asSent (code : Nat) | uncorrInternal | corrInternal
  | completionTimeout | unexpectedCompletion
deriving DecidableEq, Repr

/-! ### Frames in the part -/

/-- Where a copy of a frame goes: an egress port, or the part itself (its own FEID, a VEP's ring, a mailbox queue, a service
endpoint, the Data Mover). -/
inductive Dst where
  | port (p : Nat) | self
deriving DecidableEq, Repr

/-- One copy of a frame at one egress: cut-through or stored (R312), and whether its bytes have begun to leave. -/
structure Copy where
  dst : Dst
  ct : Bool
  started : Bool
deriving DecidableEq, Repr

/-- A frame in CORE's buffer (Table CORE-1): its ingress, its pool, the cells it holds, the
instance it is counted against, whether its tail has arrived, whether any byte has left, and its copies still to leave. -/
structure Pkt where
  id : Nat
  ing : Ing
  frame : Frame
  pool : Nat
  cells : Nat
  vi : Option Nat
  lossy : Bool
  tailIn : Bool
  left : Bool
  copies : List Copy
deriving DecidableEq, Repr

/-- Why a frame waits before admission: no cells, no proof space, its stream resending, a quiesced egress, its policer, the
stop of all admission, or a pool tag of a face (R32). -/
inductive WaitFor where
  | cells | proof | quiesce | policer (n : Nat) | admission | tag (f : Nat) | tail (id : Nat)
deriving DecidableEq, Repr

/-- A frame that waits before step 4 of Table CORE-1, holding its ingress credits. -/
structure Waiting where
  why : WaitFor
  pkt : Pkt
deriving DecidableEq, Repr

/-- A sequenced frame in a port's replay buffer (R232). -/
structure TxFrame where
  seq : Nat
  num : Nat
  enc : Bool
  phase : Nat
  pool : Nat
  frame : Frame
deriving DecidableEq, Repr

/-- A proof (R418, R720). -/
structure Proof where
  seq : Nat
  cells : Nat
  valid : Bool
  void : Bool
  frame : Frame
deriving DecidableEq, Repr

/-- The sending side of a stream: (this switch, egress edge, class) (R415, R416, R424, R427). -/
structure TxStream where
  nextSeq : Nat
  epoch : Nat
  proofs : List Proof
  resends : Nat
  resending : Option Nat
  dead : Bool
deriving DecidableEq, Repr

/-- A stream that has sent nothing. -/
def TxStream.empty : TxStream := ⟨0, 0, [], 0, none, false⟩

/-- The receiving side of a stream (R420, R423): its EPOCH, the expected SEQ, deliveries not yet released, and the time of the
last release with GAP. -/
structure RxStream where
  epoch : Nat
  expect : Nat
  unrel : Nat
  gapAt : Option Nat
deriving DecidableEq, Repr

/-! ### Requests outstanding -/

/-- Who made a request that holds a pool tag (R286). -/
inductive Who where
  | host | service | inst (v : Nat) | device (feid : Nat)
deriving DecidableEq, Repr

/-- A tag slot that is not FREE (R286 to R290): its face and pool, tag, state (0 BUSY, 1 ABANDONED, 2 out of use for a further
CPL_TO), who holds it, whether it is a flush read (of a host: the locked read that opens a sequence), the requester ID and tag
that the completion gets back, the frame tag and epoch of a request from elsewhere, the FEID asked, whether the request went out
on the face's own link, the bytes a host's read was extended by (R551), and whether the host has had all of its own bytes. -/
structure Slot where
  face : Nat
  req : Bool
  tag : Nat
  st : Nat
  who : Who
  flush : Bool
  rid : Nat
  otag : Nat
  rtag : Nat
  rep : Bool
  dest : Nat
  onLink : Bool
  extra : Nat
  served : Bool
deriving DecidableEq, Repr

/-- A prefetch entry of a face (R551 to R553): the fabric address of its bytes, how many it is to keep, the FEID they are read
from, the ADMIT tag of the read that brings them, the time it was made, the bytes that have come, and whether a read has been
answered from it. -/
structure Pref where
  face : Nat
  base : Nat
  size : Nat
  dest : Nat
  tag : Nat
  at_ : Nat
  got : List Byte
  used : Bool
deriving DecidableEq, Repr

/-- A non-posted request sent to a DOWN port and not completed (R33, R549, R602): its egress tag, the frame it came from
(`grp`) and its place among the sub-reads of a cut read, the bytes that follow it in the read, the FEID asked, the FEID and frame
tag that get the completion, completions that arrived before those of a lower sub-read, and whether it is complete or its data
are no longer wanted. -/
structure Fwd where
  port : Nat
  etag : Nat
  grp : Nat
  piece : Nat
  rest : Nat
  dest : Nat
  src : Nat
  rtag : Nat
  rep : Bool
  held : List Tlp
  done : Bool
  dead : Bool
deriving DecidableEq, Repr

/-- A read of a descriptor (R523): its place in the data, its length, its tag, and the bytes its completions have brought. -/
structure Seg where
  off : Nat
  n : Nat
  tag : Nat
  got : List Byte
deriving DecidableEq, Repr

/-- A descriptor fetched and not completed (Table MOVER-1, R519, R526): its ring and slot, its 32 bytes, the owner's VI_EPOCH at
its fetch, whether it is open, the bytes its reads have asked, its reads, the bytes read in order and not yet written, the bytes
written, the destinations of its writes (FEID, 8,192 for the owner's host, with the last address), and its flush reads: whether
they have been asked for, those still to be sent, and the tags of those sent. -/
structure Desc where
  ring : Nat
  slot : Nat
  raw : Nat
  epoch : Nat
  opened : Bool
  issued : Nat
  segs : List Seg
  data : List Byte
  written : Nat
  dests : List (Nat × Nat)
  flushing : Bool
  toFlush : List (Nat × Nat)
  flushTags : List Nat
  failed : Nat
deriving DecidableEq, Repr

/-- Answers to TDISP messages (Table INST-5). -/
inductive Tdisp where
  | version | capabilities | locked | started | stopped
  /-- DEVICE_INTERFACE_STATE: CONFIG_UNLOCKED 0, CONFIG_LOCKED 1, RUN 2, ERROR 3. -/
  | state (n : Nat)
  /-- The one MMIO range, as an offset of BAR2 and a length, the PASID, and the vectors. -/
  | report (offset length pasid vecBase vectors : Nat)
  | busy | invalidState | unsupportedRequest
deriving DecidableEq, Repr

/-- SEC's answers to SPDM and IDE_KM requests. A measurement is its SHA-384 digest (R646); a
certificate chain by its slot, the measurements its alias certificate carries, and its DEBUG flag (R634). -/
inductive SpdmRsp where
  | version | capabilities | algorithms | digests | certificate (slot : Nat) (debug : Bool) | challengeAuth (slot : Nat)
  | measurement (index : Nat) (digest : List Nat)
  | keyExchange | finish | heartbeatAck | keyUpdateAck | endSessionAck
  | ideQuery (port : Nat) | ideAck (stream set key : Nat) | error
deriving DecidableEq, Repr

/-- What the part sends to its surroundings. The state keeps the record of it, newest first. -/
inductive Out where
  /-- an interrupt to firmware from a page (R63) -/
  | fwInt (pg : Pg)
  /-- an MSI-X message of face f (R277) -/
  | msix (f vec addr data : Nat)
  /-- an AER report of face f (Table GUARD-5) -/
  | aer (f : Nat) (fn : AerFn) (e : AerErr)
  /-- a completion with Unsupported Request for a BAR0 or BAR2 request of face f -/
  | ur (f : Nat)
  /-- a register completion with Completer Abort (R46) -/
  | ca (st : Stamp)
  /-- a register read's data, returned to its requester -/
  | value (st : Stamp) (v : Nat)
  /-- a bus error to FW0, FW1, SB or DBG (R53) -/
  | busError (st : Stamp)
  /-- an ALIGN block sent on a lane (R171); a corrupted one carries a wrong byte 7 -/
  | alignBlock (lane : Nat) (blk : Nat)
  /-- a coefficient request sent again (R180) -/
  | trainRequest (lane : Nat)
  /-- the status word of a lane's training frames (Table LANE-5) -/
  | eqStatus (lane : Nat) (word : Nat)
  /-- a wake burst of PRBS13 of that many UI on a lane (R191) -/
  | wakeBurst (port lane ui : Nat)
  /-- a REST block on every lane of a port (R189) -/
  | restBlock (port : Nat)
  /-- an injected error event (R199) -/
  | injected (lane target count : Nat)
  /-- a slip of a lane's receive boundary (R200) -/
  | slip (lane ui : Nat)
  /-- the copy of frame `id` in progress at a port ends stomped (R319) -/
  | stomp (port id : Nat)
  /-- a Daend frame starts on a FAB port: its START block and NUM (R226, R248) -/
  | linkOut (port seq : Nat) (noSeq enc : Bool) (phase pool num : Nat) (frame : Frame)
  /-- the TLP that the port sends next goes out encrypted under a key set of an IDE stream (R316): stream 0 the link
  stream, 1 + s selective stream s -/
  | ideSeal (port stream set : Nat)
  /-- a TLP starts on an UP or DOWN port -/
  | tlpOut (port : Nat) (pasid : Option Nat) (frame : Frame)
  /-- a frame delivered inside the part, to a unit that consumes it without further state -/
  | selfOut (frame : Frame)
  /-- a link-layer control block sent on a port (Table PORT-6): its type and bytes 1 to 6 -/
  | ctlBlock (port typ : Nat) (body : Nat)
  /-- a LANEMAP block on every lane of the old set (R253) -/
  | laneMap (port set id : Nat)
  /-- a port asks SEC for a new key (R251) -/
  | keyRequest (port : Nat)
  /-- a DOWN port holds its link disabled by DPC (Table PORT-10) -/
  | linkDisabled (port : Nat)
  /-- an AUTH message sent on a port: a management frame with HOPS and DEST 0 and CLASS FC7, unencrypted in AUTH (R651).
  The fields of Table SEC-9 that are numbers, in its order; signatures, chains and MACs are not shown -/
  | authMsg (port op : Nat) (fields : List Nat)
  /-- flow-control credits granted on a PCI Express port (R328) -/
  | flowCredit (port pool value : Nat)
  /-- a completion without data that the part itself answers on a PCI Express port -/
  | cplOut (port : Nat) (stat : CplStat) (rid tag : Nat)
  /-- the report of a completion timeout to the requester that held a REQ tag of face f (R291) -/
  | cplTimeout (f tag : Nat) (who : Who)
  /-- CYC_OUT changes (R452) -/
  | cycOut (high : Bool)
  /-- a PTM Request on the link of face f (R453) -/
  | ptmRequest (f : Nat)
  /-- a PTM Response on DOWN port p, with host time or without (R454) -/
  | ptmResponse (p : Nat) (time : Option Nat)
  /-- a presence-detect change and a data-link-layer state change on a slot of face f (R271) -/
  | hotPlug (f vdp sub : Nat) (present : Bool)
  /-- the hot-plug interrupt of a virtual bridge of face f (R271) -/
  | slotInt (f bridge : Nat)
  /-- a configuration request that sizes a BAR of a presented device, at its DOWN port: a read, or a write of a value
  (R721) -/
  | sizeRequest (port rid bar : Nat) (write : Option Nat)
  /-- a PME message on the link of face f (R299) -/
  | pmeMessage (f : Nat)
  /-- a PME_TO_Ack on the link of face f (R301) -/
  | pmeToAck (f : Nat)
  /-- the answer to a TDISP message for instance v, on the DOE mailbox of face f (Table INST-5) -/
  | tdisp (f v : Nat) (r : Tdisp)
  /-- SEC's answer to an SPDM request on the DOE of face f, or over MCTP (R647) -/
  | spdm (f : Option Nat) (r : SpdmRsp)
  /-- DOE Busy on face f (Table ARCH-8) -/
  | doeBusy (f : Nat)
  /-- the response to a Stoux command on an SMBus port (Table MGMT-3) -/
  | mctp (port cmd status : Nat) (data : List Nat)
  /-- the response to an MCTP control command: 1 Set Endpoint ID, 2 Get Endpoint ID, 4 Get MCTP Version Support, 5 Get
  Message Type Support -/
  | mctpControl (port cmd : Nat) (data : List Nat)
  /-- a completion with data for a configuration read that face f answers -/
  | cfgCpl (f rid tag v : Nat)
  /-- a TRAIN block of a lane: its control and status words and PHASE (Tables LANE-5 and PORT-6) -/
  | trainOut (lane control status phase : Nat)
  /-- the full swing and low frequency a PCI Express lane advertises (R174) -/
  | pcieAdvert (lane fs lf : Nat)
  /-- a PCI Express lane rejects a transmitter request (R178, R181) -/
  | pcieReject (lane : Nat)
  /-- a port releases a link key: no frame sent under it is unacknowledged (R250) -/
  | keyReleased (port number : Nat)
  /-- DBG_UART_TX and JTAG_TDO are driven, or high-impedance again; the debug inputs are heeded while they are driven
  (R95) -/
  | debugPins (driven : Bool)
deriving DecidableEq, Repr

/-- State behind the registers that is a number: one name for each kind, held at an index. Every one is 0 after a cold
reset. -/
inductive Var where
  /-- class set by ERR_SEV for error bit `page·32 + bit`, plus 1; 0 is the block table's default class (R62) -/
  | errSev
  /-- MSI-X message address of vector `2048·face + n` (R276) -/
  | msixAddr
  /-- MSI-X message data of vector `2048·face + n` (R276) -/
  | msixData
  /-- 1 when the vector's Mask bit is clear; the table resets masked (R277) -/
  | msixOpen
  /-- PBA bit of the vector (R277) -/
  | msixPend
  /-- MSI-X Enable of the face's service endpoint (R277) -/
  | msixEnable
  /-- Function Mask of the face's service endpoint (R277) -/
  | msixFnMask
  /-- Bus Master Enable of the face's service endpoint (R277) -/
  | seBusMaster
  /-- 1 + the stamp last granted on a page (R78); index the page base / 0x40 -/
  | arbLast
  /-- records written to GUARD_ELOG so far, modulo 65,536: the SEQ of the next (R628) -/
  | elogSeq
  /-- 1 while REFCLK_B[k] (index k = 0-5) or REFCLK_A (index 6) is declared lost (R119) -/
  | refLost
  /-- PRE_STAT of a lane (Table LANE-5, R176) -/
  | preStat
  /-- POST_STAT of a lane -/
  | postStat
  /-- PRESET_STAT of a lane -/
  | presetStat
  /-- 1 when the partner's status word shows RX_READY on the lane (Table LANE-5) -/
  | partnerReady
  /-- timeouts of coefficient requests on the lane since its training began (R180) -/
  | eqTimeouts
  /-- ALIGN count the lane sends next (R171) -/
  | alignTx
  /-- consecutive ALIGN slots of the lane without a valid block (R172) -/
  | alignMiss
  /-- 1 when the lane has found one ALIGN block and waits for the second (R172) -/
  | alignSeen
  /-- ALIGN blocks still to be corrupted on the lane (R199) -/
  | injAlign
  /-- fabric time at which the transmit direction of a port entered Rest, plus 1 (R192) -/
  | restSince
  /-- UI by which a lane's receive word boundary has been slipped (R200) -/
  | slipPos
  /-- how many frames CORE has taken so far: the number of the next (model's own name for a frame) -/
  | pktId
  /-- credits advertised so far to the partner (R237, R328), index `32 · port + 4 · class + pool` -/
  | crAdv
  /-- credits consumed so far by arriving frames, same index -/
  | crUsed
  /-- credits the partner has advertised so far, modulo 2^24, same index -/
  | txLimit
  /-- credits consumed so far by frames sent, modulo 2^24, same index -/
  | txUsed
  /-- 1 while the receive direction of a lane is in Rest (R190) -/
  | rxRest
  /-- SEQ of the next sequenced frame a port sends (R226) -/
  | txSeq
  /-- frames a port has sequenced under its key (R249) -/
  | txNum
  /-- SEQ a port expects next (R228) -/
  | rxSeq
  /-- frames a port has accepted and not acknowledged (R230) -/
  | rxUnacked
  /-- 1 after a NAK until the expected frame is accepted (R231) -/
  | nakSent
  /-- 1 + how many frames of a port's replay buffer the replay in progress has still to skip or has sent; 0 when none runs
  (R233) -/
  | replayAt
  /-- cycle markers a port has sent since it entered PARAM (R242) -/
  | mkTx
  /-- 1 + the full count of the last marker accepted since PARAM; 0 when none (R244) -/
  | mkRx
  /-- 1 when a port waits 100 ms in DOWN instead of 2 ms (R222, R652) -/
  | longDwell
  /-- bit i: PARAM block i received since the port entered PARAM (R221) -/
  | paramGot
  /-- the five bytes of PARAM block i, index `8 · port + i` -/
  | paramVal
  /-- 1 when the partner's PARAM FLAGS show REST_OK (R245) -/
  | partnerRest
  /-- the partner's MAX_FRAME (Table PORT-5) -/
  | partnerMax
  /-- 1 when a CREDIT block of the pool has arrived since PARAM (R238), index as crAdv -/
  | crInit
  /-- messages of Table SEC-9 accepted in this AUTH: 1 HELLO, 2 CERT, 3 PROOF -/
  | authStep
  /-- 1 when the partner's alias certificate carries the DEBUG flag -/
  | authDebug
  /-- lane set named by the width change in progress, a bitmap of logical lanes (R253) -/
  | wcSet
  /-- change ID of the width change in progress -/
  | wcId
  /-- link state a width change returns to, plus 1; 0 when none is in progress -/
  | wcFrom
  /-- width changes a port has started: its next change ID -/
  | wcCount
  /-- lane set a FAB port is widening to while the added lanes train; 0 when none -/
  | widening
  /-- 1 while an UP port's received TLPs do not pass into CORE (Table PORT-10) -/
  | portFenced
  /-- 1 while the POLICY section's FAB_ENC is in force (R642) -/
  | encRequired
  /-- 1 while the POLICY section's REJECT_DEBUG_PARTNER is in force (R652) -/
  | rejectDebug
  /-- 1 when new link keys are ready for the next KEY_PHASE change of the port (R250, R654) -/
  | nextKey
  /-- 1 while a rekey of the port's link runs (R654) -/
  | rekeying
  /-- logical number under which a lane sends (its place in its port, R186) -/
  | laneNum
  /-- 1 while FPERST_N of the face is high (R303, R305) -/
  | fperst
  /-- plate entry, 128 bits (R366): index `524288 · plate + entry`; an entry not listed is all zero, which counts as
  unused -/
  | plate
  /-- the entry for which a stamp has staged dwords, plus 1 (R380); index the stamp -/
  | plateAt
  /-- bit d: the stamp has staged dword d -/
  | plateHas
  /-- staged dword d of a stamp, index `4 · stamp + d` -/
  | plateDw
  /-- 1 while entry `524288 · plate + entry` is being rebuilt (R392) -/
  | plateLost
  /-- the signed block as it was when verification of the draft started (Table PLATE-8), by dword -/
  | verifySig
  /-- cycle for which a plate turn is armed (R385) -/
  | turnAt
  /-- the entry the burnisher reads next, of the 1,048,576 of both plates (R395) -/
  | burnAt
  /-- fabric time of the boundary at which the current cycle started (R435) -/
  | cycStart
  /-- length of the next cycle in ns once it is committed, else 0 (R435, R443) -/
  | cycNext
  /-- SCHED_POL_CFG.CTRL of policer n: bits 31 EN, 30 MODE, 29 AWARE, 28 DROP_RED -/
  | polCtl
  /-- CIR of policer n, Mbit/s -/
  | polCir
  /-- PIR (EIR in MODE 1) of policer n, Mbit/s -/
  | polPir
  /-- CBS of policer n, exclusive-or its reset value 16,384 -/
  | polCbs
  /-- PBS (EBS in MODE 1) of policer n, exclusive-or its reset value 16,384 -/
  | polPbs
  /-- tokens missing from policer n's C bucket at time polAt, in 1/8,000 byte -/
  | polC
  /-- tokens missing from its P or E bucket -/
  | polP
  /-- fabric time at which polC and polP held -/
  | polAt
  /-- bit r: the stamp has staged register r of SCHED_POL_CFG (CTRL, CIR, PIR, CBS, PBS) -/
  | polHas
  /-- staged register r of a stamp, index `8 · stamp + r` -/
  | polStage
  /-- 1 + the cycle for which a port's pending list starts, 2^48 + 1 for the first boundary after lock (R142); 0 when none
  is set (R482, R484) -/
  | hatchAt
  /-- 1 when that start is a late one (R484) -/
  | hatchLate
  /-- the signed hatch block as it was when verification started, index `64 · port + dword` -/
  | hatchSig
  /-- openings of its class at which a frame was longer than the open interval, index `128 · frame + port` (R487) -/
  | guardMiss
  /-- the code of the latest DOMAIN_EVENT that marks an FEID unreachable (1 UNREACHABLE, 3 UNREACHABLE_ORDERLY), else 0
  (R603) -/
  | unreach
  /-- the average A of queue (q, c), index `8q + c`, in 1/65,536 cell (R337) -/
  | redAvg
  /-- frames counted in the run of a stipple sampler (R348) -/
  | stipCnt
  /-- sample sequence number of a stipple sampler (Table CORE-8) -/
  | stipSeq
  /-- members of multicast group g, a bitmap of ports (CORE_MC_GROUP) -/
  | mcMembers
  /-- bit 31 VALID, bit 30 REFLECT of group g -/
  | mcCtl
  /-- 1 + the group for which a stamp has staged dwords -/
  | mcAt
  /-- bit d: the stamp has staged dword d of CORE_MC_GROUP -/
  | mcHas
  /-- staged dword d of a stamp, index `4 · stamp + d` -/
  | mcDw
  /-- deficit of class c at port q, index `8q + c`, in bytes (R463) -/
  | drrDef
  /-- quantum of the class when its last turn began -/
  | drrQuant
  /-- 1 + the class whose turn it was last at a port -/
  | drrCur
  /-- deficit of a flow of a class, index `2048 · (8q + c) + flow` (R464) -/
  | flowDef
  /-- quantum of the flow when its last turn began -/
  | flowQuant
  /-- 1 + the flow whose turn it was last in class c of port q -/
  | flowCur
  /-- shaper credit of class c of port q in 1/33,280,000 byte: 2n for n ≥ 0, −2n − 1 below (R467) -/
  | cbsCr
  /-- fabric time at which the shaper credits of a port held -/
  | cbsAt
  /-- 1 while a cycle marker is due on a port (R445) -/
  | mkDue
  /-- Max_Payload_Size in the Device Control register of the face's USP, as the code of 128 × 2^code bytes (R548) -/
  | uspMps
  /-- epoch bit of a tag slot (R288), index 32768 · face + 16384 · (1 for REQ) + tag -/
  | tagEp
  /-- 1 when the partner's link-status frame has been recorded since the port's PARAM (R403) -/
  | lsSeen
  /-- FLAGS of that frame: bit 0 RETIRING, bit 1 LIVE, bit 2 ARMED, bit 3 armed index -/
  | lsFlags
  /-- its LIVE_GEN -/
  | lsLiveGen
  /-- its ARMED_GEN -/
  | lsArmedGen
  /-- its ARMED_CYCLE -/
  | lsArmedCycle
  /-- consecutive boundaries at which the partner's live plate differed (R406) -/
  | skewCnt
  /-- 1 while a FAB port that GUARD brought back waits for R613 -/
  | guardBack
  /-- PARTNER_SW · 128 + PARTNER_PORT as recorded before the port's containment (R613) -/
  | guardPartner
  /-- 1 from PME_Turn_Off until the link of the face comes up again: no new request goes out (R301) -/
  | pmeOff
  /-- index 128 · frame + port: 1 when R487 lets the frame start without the guard check -/
  | guardOpen
  /-- ns that the hold timer of a multicast copy has counted (R344), index `128 · frame + port` -/
  | holdCount
  /-- 1 + T_TX of the last marker received on the port (R445); 0 when none -/
  | mkEchoT1
  /-- its arrival time here (R242) -/
  | mkEchoT2
  /-- the period estimate P in 1/65,536 ns (R441, R443) -/
  | cycP
  /-- length of the cycle before the current one (R442) -/
  | cycPrev
  /-- residual of the current boundary (R442), as 2e for e ≥ 0 and −2e − 1 below -/
  | cycRes
  /-- 1 once the current boundary has its edge or used marker, 2 once its window has closed without one -/
  | cycEdge
  /-- residual of an edge that came before the next boundary -/
  | cycResNext
  /-- 1 when that edge has come -/
  | cycEdgeNext
  /-- 1 + fabric time of the first boundary before the first lock (R441, R448) -/
  | cycFirst
  /-- cycle number a follower takes at its first lock -/
  | cycFirstNum
  /-- length of that cycle -/
  | cycFirstLen
  /-- 1 + time of the last edge of the run in acquisition (R441) -/
  | edgeLast
  /-- the interval before it -/
  | edgeIv
  /-- edges accepted in the run -/
  | edgeRun
  /-- 1 + the boundary grid a source acquired again predicts: an edge E4 (R444), or a boundary of the master (R448) -/
  | acqAt
  /-- the master's number of the cycle that starts there -/
  | acqNum
  /-- 2 when the next boundary starts the transitional cycle, 1 when it ends it (R444) -/
  | relock
  /-- 1 + the cycle number a follower takes at relock -/
  | relockNum
  /-- the last length a follower adopted (R448) -/
  | cycLast
  /-- consecutive erratic markers (R448) -/
  | errRun
  /-- consecutive used markers (R444, R448) -/
  | mkRun
  /-- 1 when the last marker of a port agreed with R446 and R448 -/
  | mkAgree
  /-- the BOUNDARY of that marker -/
  | mkBound
  /-- its CYCLE -/
  | mkCyc
  /-- what is still to be slewed out of fabric time, as cycRes -/
  | slew
  /-- ticks counted towards the next slewed nanosecond (R447), and while the switch die is in reset towards the next µs of
  the power path (R669) -/
  | ticks
  /-- 1 while CYC_OUT is high (R452) -/
  | cycOut
  /-- 1 + the list of a port that is being verified (R479) -/
  | hatchVer
  /-- 1 + the STRATUM of the last used marker (R445, R450) -/
  | mkStratum
  /-- 1 when the next boundary makes the tracker FREE (R451) -/
  | toFree
  /-- 1 while PTM Enable is set in the USP of a face (R302) -/
  | ptmEnable
  /-- PTM exchanges completed by a face, up to 2 -/
  | ptmCount
  /-- host time of a face at its last exchange -/
  | ptmHost
  /-- fabric time then -/
  | ptmFab
  /-- host time at the exchange before -/
  | ptmHost0
  /-- fabric time then -/
  | ptmFab0
  /-- length of the cycle after it, when a follower holds that commit too (R448) -/
  | cycNext2
  /-- the state of its source, HOLDOVER or LOST, that a follower reports while it follows it (R450); 0 when it reports its
  own -/
  | asSource
  /-- FACE_WIN_TAB entry `256 · face + entry` as the configuration image set it (R303): its SIZE dword with VALID in bit 6 -/
  | winCopySize
  /-- its BASE -/
  | winCopyBase
  /-- its XLAT -/
  | winCopyXlat
  /-- Memory Space Enable of a virtual bridge of a face, index `4096 · face + bridge`: 0 the USP, 1 + k VDPk, 64 + k the
  branch at VDPk, 128 + 32k + j its port j (Table FACE-2) -/
  | mse
  /-- Bus Master Enable of the bridge -/
  | bme
  /-- secondary bus number of the bridge -/
  | secBus
  /-- subordinate bus number of the bridge -/
  | subBus
  /-- 1 while the bridge is in D3hot (the USP's state stands in FACE_PM_STAT) -/
  | bridgeD3
  /-- active-state power management setting of the bridge's Link Control register (R217) -/
  | aspm
  /-- Memory Space Enable of the service endpoint of a face -/
  | seMse
  /-- BAR dword k of the service endpoint, index `8 · face + k` -/
  | seBar
  /-- 1 while PASID Enable is set in the service endpoint (R495) -/
  | sePasid
  /-- Max_Payload_Size code in the service endpoint's Device Control register -/
  | seMps
  /-- Max_Read_Request_Size code there, exclusive-or its reset value 2 -/
  | seMrrs
  /-- BAR k of function n of presented entry e (R721), index `8 · (4096 · (256 · face + e) + n) + k`: 0 when not
  implemented, else bits 5:0 log2 of its size, bit 6 64-bit, bit 7 prefetchable, bit 8 set -/
  | presInfo
  /-- the face's copy of that BAR dword (R373) -/
  | presBar
  /-- 1 when the host has written the dword since the last face reset (R279) -/
  | presBarSet
  /-- the face's copy of the function's Command register (R373), index `4096 · (256 · face + e) + n` -/
  | presCmd
  /-- its copy of the Expansion ROM BAR, same index -/
  | presRom
  /-- 1 while the BARs of presented entry `256 · face + e` are being sized (R721) -/
  | sizing
  /-- 1 + the engine that still serves a ring which is being rehomed (R537) -/
  | rehome
  /-- slot of the next descriptor a ring fetches -/
  | fetchAt
  /-- 1 + the tag of a ring's fetch in progress; 0 when none -/
  | fetchTag
  /-- descriptors that fetch asks for -/
  | fetchN
  /-- deficit of a ring's descriptor in its engine's round robin, in bytes (R526) -/
  | meDef
  /-- quantum of its last turn -/
  | meQuant
  /-- place of an engine's round robin, as drrCur -/
  | mePlace
  /-- 1 while COAL_US runs since a ring's last interrupt (R531) -/
  | coalOn
  /-- 1 when a record waits for the firing at its end -/
  | coalDue
  /-- 1 + the FEID whose port a face's host has locked (R558); 0 when it holds no lock -/
  | lockDest
  /-- FACE_EPOCH of a face (R568) -/
  | faceEpoch
  /-- FW_EPOCH (R568) -/
  | fwEpoch
  /-- register k of a notice window, index `16 · window + k` (window v for instance v, 1,024 + f for the capability of
  face f, 1,056 + stamp for MBOX page 0): 0 and 1 POST_PTR, 2 POST_LEN, 3 POST_USER, 4 FWQ and DEST, 5 STATUS, 6 the
  FEID of MBOX_EPOCH_QUERY -/
  | win
  /-- 1 while the doorbell of notice queue q is armed (R580) -/
  | qArm
  /-- 1 + the instance in BAR2 slot j of a face (R275), index `1024 · face + j`; 0 when the slot is free -/
  | viSlot
  /-- the stamps whose UNBIND waits for the reset of an instance (R500), bit c for stamp c -/
  | unbindBy
  /-- 1 when a STOP_INTERFACE_REQUEST waits for the reset of an instance (R509) -/
  | stopWaits
  /-- SHARE of an instance at its LOCK (R510) -/
  | lockShare
  /-- CORE_VI_LIMIT of an instance at its LOCK: MAX, ALPHA and RES, index `4 · instance + k` -/
  | lockLimit
  /-- its policer's CIR, PIR, CBS and PBS at its LOCK, index `4 · instance + k` -/
  | lockPol
  /-- fabric time at which the FLR of a face started -/
  | flrAt
  /-- 1 from a DEVICE containment with DEV_RESET = 1 until its warm reset (R616) -/
  | devReset
  /-- REACHABLE events still to be sent for a domain after its release (R603), index as domIndex -/
  | reachLeft
  /-- 1 once HALT_N has been released (Table BOOT-6); 0 from reset and in Safe Halt -/
  | haltRel
  /-- the current ownership record, 0 to 15 (R635); a fuse -/
  | ownRec
  /-- owner key in slot k of the current record: x + y · 2^384, 0 for an empty slot (Table SEC-3); fuses -/
  | ownKey
  /-- 1 + the stamp whose token runs (R639); 0 when none does -/
  | tokRun
  /-- the 512 bytes of that token as submitted, byte 0 lowest -/
  | tokRaw
  /-- its STATUS once its checks are made (R718), else 0 -/
  | tokRes
  /-- 1 when an ownership record was written while a verification ran (R636); index 0 the plate, 1 + p the hatch list of
  port p -/
  | sigStale
  /-- 1 while ARB_AUTO of the applied POLICY is in force (R645) -/
  | arbAuto
  /-- 1 while IDE_DOWN of a port is in force (R649) -/
  | ideDown
  /-- DEV_ROOT digest k of the applied POLICY (Table SEC-4) -/
  | devRoot
  /-- keys programmed for a stream of a port (R647), index `10 · port + 2 · stream + key set` (stream 0 the link stream, 1
  + s a selective one), bit `3 · direction + sub-stream` -/
  | ideKey
  /-- keys of it in use, likewise -/
  | ideGo
  /-- SPDM sessions open on the DOE of face f, or over MCTP (index 32) (Table SEC-7) -/
  | spdmSess
  /-- state of flash slot k (0 and 1 firmware A and B, 2 and 3 configuration A and B): 0 INVALID, 1 VALID, 2 PENDING
  (Table BOOT-4) -/
  | slotState
  /-- attempt count of flash slot k (R137) -/
  | slotTries
  /-- 1 + the slot of its kind that last ran (index 0 firmware, 1 configuration), in the directory (R137); 0 when none has -/
  | slotRan
  /-- SEC_VERSION of the image in flash slot k (Table BOOT-8) -/
  | slotSecVer
  /-- SEQUENCE of the image in flash slot k -/
  | slotSeq
  /-- the 64-bit device unique ID (R634); fuses -/
  | devId
  /-- why the switch die is held in reset: 0 it is not, 1 cold reset, 2 warm reset by DEV_RST_N or by the register, 3 the
  quiet state (R102, R126, R158) -/
  | dieReset
  /-- cause of the cut a channel in WARN will make, in the order of Table PWR-3 from 1 (R673); 0 when a switchover waits -/
  | pwCause
  /-- 1 + the feed (0 A, 1 B) to which a channel switches over, from the warning or the break on (R681) -/
  | pwSwitch
  /-- 1 while both pairs of a channel are off in a switchover (R681) -/
  | pwDead
  /-- fault timer of a channel in µs (R669) -/
  | pwFault
  /-- ticks of a channel without the limit active, modulo 8 (R669) -/
  | pwIdle
  /-- energy a channel has delivered and counter 7 does not show yet, in 10 nJ (R687) -/
  | pwEnergy
  /-- 1 while a block soft reset of a channel waits for its cut-off -/
  | pwReset
  /-- 1 + the firmware slot that the boot ROM has selected and verified and not yet started (R137) -/
  | fwSel
  /-- 1 while firmware started from a PENDING slot has not confirmed (R153) -/
  | fwUnconf
  /-- fabric time of the last watchdog kick (R696) -/
  | wdAt
  /-- step of the installation in progress: 0 none, 1 erasing, 2 waiting for a chunk or FINISH, 3 writing a chunk, 4
  checking (R151, R704) -/
  | imgSt
  /-- bytes of the image accepted so far -/
  | imgBytes
  /-- bytes of the chunk being written -/
  | imgLen
  /-- 1 when a warm reset came with STEP = HALT: the step is left only once a reading is below WARN (Table PKG-15) -/
  | thermHold
  /-- 1 from the SHUTDOWN thermal step until a cold reset (Table PKG-15) -/
  | shutdown
  /-- MCTP endpoint ID (R698); 0 when none has been set -/
  | mctpEid
  /-- number of the next snapshot since EN rose (Table MGMT-5) -/
  | gatherSeq
  /-- snapshots skipped since the last one began -/
  | gatherSkips
  /-- changes of MGMT_GATHER_LIST -/
  | gatherGen
  /-- fabric time of the first read of the snapshot in progress -/
  | gatherAt
  /-- its cycle number -/
  | gatherCycle
  /-- fabric time of that cycle's boundary -/
  | gatherBound
  /-- 1 when it was taken in LOST -/
  | gatherFree
  /-- id of the next remote access (R700) -/
  | remoteId
  /-- low dword that a stamp has written to an upper-commit register and that waits for the high one (R49), index `2^32 ·
  stamp + address` -/
  | upperLow
  /-- 1 while DEV_RST_N is low (R103, R125) -/
  | devRst
  /-- 1 while VKEEP is lost (R99) -/
  | noVkeep
  /-- 1 while the 2 ms qualification of cold reset runs (R102) -/
  | coldQual
  /-- 1 during the 10 µs of a warm reset that no pin holds (Table BOOT-1) -/
  | warmReg
  /-- GLB_QUIET_CTRL as it was at quiet entry: bits 3 WAKE_TIMER_EN, 2 WAKE_PRSNT, 1 WAKE_FPERST (R159) -/
  | wakeCtl
  /-- GLB_WAKE_FACES as it was at quiet entry; then the faces whose FWAKE_N a wake drives (R161) -/
  | wakeFaces
  /-- WAKE_SRC code of a wake source that fired during quiet entry (R158) -/
  | wakePend
  /-- 1 + the configuration slot that is being applied (R146) -/
  | cfgSel
  /-- sections of the image applied so far (R146) -/
  | cfgDone
  /-- sections of the image that is being applied (R143) -/
  | cfgCount
  /-- entry i of its section table, 64 bytes (Table BOOT-9) -/
  | cfgTable
  /-- the 256 bytes of its header (Table SEC-6) -/
  | cfgHdr
  /-- the Stoux firmware key in the boot ROM: x + y · 2^384 (Table SEC-1) -/
  | romKey
  /-- PLATE sections met: bits 0 and 1 the plates, bit 2 one with LIVE (R147) -/
  | cfgPlates
  /-- 1 when a PORTS record has enabled the port (R147) -/
  | cfgPorts
  /-- 1 when the plates are kept (R150) -/
  | cfgKeep
  /-- 1 + the configuration slot last applied in full (R150) -/
  | appliedSlot
  /-- SEQUENCE of its image (R150) -/
  | appliedSeq
  /-- Tag Requester Enables of a face's service endpoint: bit 0 10-Bit, bit 1 14-Bit (R287) -/
  | seTags
  /-- 1 + the stamp logged with the last discarded write that a face was told of (R53) -/
  | aerStamp
  /-- the ordering grade (Table SCOPE-1, Table PKG-15): 0 AQ, 1 CQ; a fuse -/
  | grade
  /-- sequence number of directory copy 2f + c of flash f (Table BOOT-3) -/
  | dirSeq
  /-- state of slot k and 4 times its attempt count in a directory copy, index `4 · copy + k` -/
  | dirSlot
  /-- the flash whose directory is in use: 0 on SPI0, 1 on SPI1 (R136) -/
  | dirFlash
  /-- 1 while quiet entry runs (R158) -/
  | quietRun
  /-- 1 when the crystal clock was lost during a warm reset (R121) -/
  | xtalLost
  /-- coefficient requests a lane sends its partner now: bits 15:9 of its control word (R179) -/
  | ownReq
  /-- bits 15:11 of the partner's last control word on a lane (Table LANE-12, k = 9) -/
  | peerReq
  /-- 1 while the last codeword of a lane was uncorrectable (R170) -/
  | badCw
  /-- frames sequenced on a port since its link came up, at most 2,048 (R235) -/
  | txCount
  /-- number plus 1 of the link key that a port sends under, index `2·port + KEY_PHASE` (R250) -/
  | txKey
  /-- number plus 1 of the link key that a port accepts, index `2·port + KEY_PHASE` (R250) -/
  | rxKey
  /-- NUM expected next under a key, index `2·port + KEY_PHASE` (R249) -/
  | rxNum
  /-- link keys that SEC has supplied to a port (R653, R654) -/
  | keyCount
  /-- 1 while a port's exit from Rest waits for the 200 ns of R192 -/
  | restPend
  /-- blocks held until a port has left Rest: bit 0 an ACK, bit 1 a NAK (R246) -/
  | restHeld
  /-- set and change ID of the last width change of a port, as `set · 256 + ID + 1` (R254) -/
  | wcDone
  /-- width code plus 1 of PORT_CFG before an in-service narrowing of a port (R212, R253) -/
  | wcOldWidth
  /-- logical lanes a narrowed port may use until PORT_CFG or RETRAIN is written; 0 is all (R257) -/
  | curSet
  /-- 1 while a PCI Express link runs with its lanes reversed (R186) -/
  | pcieRev
  /-- TLPs sent on a PCI Express port, modulo 4,096 (R214) -/
  | pcieSent
  /-- TLPs of a PCI Express port that the partner has acknowledged, modulo 4,096 (R214) -/
  | pcieAcked
  /-- ASPM states that a PCI Express partner allows: bit 0 L0s, bit 1 L1 (R217) -/
  | partnerAspm
  /-- credits of the three pools that a PCI Express partner showed at the last frame boundary, plus 1: bit 0 P, bit 1 NP,
  bit 2 CPL (R240) -/
  | pcieFc
  /-- number plus 1 of the link key that a port sent under before its present one, until it is released (R250) -/
  | keyOld
  /-- primary bus number of a bridge, index as mse -/
  | priBus
  /-- memory base and limit register of the bridge -/
  | memWin
  /-- prefetchable memory base and limit register of the bridge -/
  | prefWin
  /-- its upper 32 bits of the prefetchable base -/
  | prefBase
  /-- its upper 32 bits of the prefetchable limit -/
  | prefLimit
  /-- Bridge Control register of the bridge -/
  | bridgeCtl
  /-- Link Disable of the bridge's Link Control register -/
  | linkDis
  /-- Slot Control register of the bridge (R271) -/
  | slotCtl
  /-- Slot Status register of the bridge: bits 3 presence detect changed, 6 presence detect state, 8 data link layer state
  changed (R271) -/
  | slotStat
  /-- the base that a BAR of a presented function has since its last completing write (R284, R285), index as presBar -/
  | presBase
  /-- the signed block of the live plate (Table SEC-6), by dword; zeros when it came with an image -/
  | liveSig
  /-- SPDM key exchanges on a transport that FINISH has not ended, index as spdmSess -/
  | spdmShake
  /-- kind of the image being installed: 0 firmware, 1 configuration (R703) -/
  | imgKind
  /-- GFACE of the snapshot in progress (R711) -/
  | gatherFace
  /-- address of its slot (R709) -/
  | gatherSlot
  /-- its number, modulo 2^32 as SEQ shows it (Table MGMT-5) -/
  | gatherNum
  /-- snapshots skipped before it -/
  | gatherSkipped
deriving DecidableEq, Repr

/-- State that is a queue of records, each record a number of the width its rule gives. Every one is empty after a cold
reset. -/
inductive Fifo where
  /-- GUARD_ELOG: error records, oldest first, each the 256 bits of Table GUARD-9 (R628, R629) -/
  | elog
  /-- ROUTE_MISS_LOG: miss records, oldest first, each 128 bits (R378) -/
  | missLog
  /-- the last 16 one-way delays measured from the cycle source (R446), oldest first -/
  | delays
  /-- MOVER_RING_CPL_FIFO of a ring: completion records of 128 bits, oldest first (R530) -/
  | cplFifo
  /-- destinations a ring has written since its last SYNC, FEID + 8,193 · address (R520) -/
  | ringWrote
  /-- destinations that received posted writes of an instance since its last reset, likewise (R503) -/
  | viWrote
  /-- destinations that received posted writes of a face's own rings since its last FLR, likewise (R295) -/
  | faceWrote
  /-- notice queue q (Table MBOX-3), oldest first, each the 256 bits of Table MBOX-1 -/
  | notices
  /-- windows whose post is PENDING (R571), oldest first: window + 2,048 · stamp of the post -/
  | posts
  /-- holding buffer of a FIFO window for a stamp (R75): empty, or the entry read last; index `64 · window + stamp` -/
  | held
  /-- flush reads of an instance's reset (index v) or a face's FLR (index 1,024 + f) that wait for a tag, as viWrote -/
  | flushTodo
  /-- fabric times of the firmware restarts of the last 60 s (R694) -/
  | fwTimes
  /-- entries of the snapshot in progress, each the 64 bits of Table MGMT-5 -/
  | gatherSnap
  /-- remote accesses without an answer yet (R700), oldest first: id + 65,536 · SMBus port, plus 2^20 for a write -/
  | remotes
deriving DecidableEq, Repr

/-- Why a step stops with a fault. The part has no behaviour of that kind: no command of the table ends a run. -/
inductive Fault where
  /-- Raised by no meaning: the spec stops the part in Safe Halt, which is a state of the part and not the end of a run.
  Safe. -/
  | unused
deriving DecidableEq, Repr

/-- Why a step refuses a command. -/
inductive Refusal where
  /-- The command has no meaning in this model. Raised by the dispatch alone. Safe. -/
  | notModelled (mnemonic : String)
deriving DecidableEq, Repr

/-- The state of the part. -/
structure State where
  /-- Fabric time in ns (R434), as an exact count; registers show it modulo 2^64. -/
  now : Nat
  /-- Register fields: key `32 · address + lowest bit`; an absent field holds its reset value. -/
  regs : Map Nat
  /-- Registers of which the part keeps a copy per stamp (R68, R75): key `64 · key + stamp`. -/
  stampRegs : Map Nat
  /-- Counters of the counter windows (R65): key `page + index`, at most 2^48 − 1. -/
  cnts : Map Nat
  /-- State behind the registers that is a number: key `512 · index + kind`. -/
  ivs : Map Nat
  /-- Queues of records: key `512 · index + kind`. -/
  fifos : Map (List Nat)
  /-- Anti-rollback counters in fuses (R144), by image kind: they only rise. -/
  arb : Map Nat
  /-- The containment request lines (R24): requests GUARD has not handled yet, oldest first. -/
  greqs : List GReq
  /-- CORE's buffer (spec/08): the frames it holds, oldest admission first. Its queues are the copies of these frames. -/
  buf : List Pkt
  /-- Frames that wait before admission, oldest first. -/
  waiting : List Waiting
  /-- Replay buffers (R232), by port: sequenced frames not yet acknowledged, oldest first. -/
  replay : Map (List TxFrame)
  /-- Streams from this switch (R415), by `8 · egress edge + class`. -/
  txs : Map TxStream
  /-- Streams to this switch (R423), by `8 · ingress edge + class`. -/
  rxs : Map RxStream
  /-- Tag slots that are not FREE (R288), oldest first. -/
  slots : List Slot
  /-- Non-posted requests sent to DOWN ports and not completed (R602), oldest first. -/
  fwd : List Fwd
  /-- Prefetch entries of the faces (R551), oldest first. -/
  prefs : List Pref
  /-- Descriptors of the Data Mover's rings, fetched and not completed, oldest first. -/
  descs : List Desc
  /-- The transmit side of each lane (R168, R169), by lane; one the table does not hold has sent nothing. -/
  coders : Map Coder
  /-- Everything the part has sent, newest first. -/
  out : List Out
  /-- The model's own field: how many free values have been drawn (values the spec leaves open). -/
  free : Nat
  /-- The model's own field: the commands that wait, first in, first out. -/
  pending : List Instr
deriving DecidableEq, Repr

/-- The part after a cold reset by VKEEP (R129, R134): every register at its reset value and GLB_RESET_CAUSE set, every counter
0, every queue empty. -/
def State.reset : State :=
  { now := 0, regs := [(0x110 * 32 + 1, 1), (0x110 * 32 + 28, 1)], stampRegs := [], cnts := [], ivs := [], fifos := [], arb := [],
    greqs := [], buf := [], waiting := [], replay := [], txs := [], rxs := [], slots := [], fwd := [], descs := [], prefs := [],
    coders := [], out := [], free := 0, pending := [] }

/-- The largest value of a 48-bit counter (R66). -/
def cntMax : Nat := 0xFFFFFFFFFFFF

/-- The form every table of the state keeps: keys strictly rising, no default listed, every counter in 48 bits. -/
def State.wf (s : State) : Prop :=
  Map.wf s.regs ∧ Map.wf s.stampRegs ∧ Map.wf0 s.cnts ∧ (∀ e ∈ s.cnts, e.2 ≤ cntMax) ∧ Map.wf0 s.ivs ∧ Map.wf s.fifos ∧
    Map.wf0 s.arb ∧ Map.wf s.replay ∧ Map.wf s.txs ∧ Map.wf s.rxs ∧ Map.wf s.coders

end Sys2Proof.Machine
end

