-- ==== Sys2Proof/Machine/Errors.lean ====
section
/-! DEFINITION. The error bits of every page, with their default and minimum classes, from the block error tables. -/

namespace Sys2Proof.Machine

/-- An ERR_STICKY bit: its number, its default class and its minimum class (R62). -/
structure Err where
  bit : Nat
  dflt : Cls
  least : Cls
deriving DecidableEq, Repr

/-! ### Table LANE-11 -/

def Err.LANE_A_PLL_UNLOCK : Err := ⟨0, .nf, .nf⟩
def Err.LANE_B_PLL_UNLOCK : Err := ⟨1, .nf, .nf⟩
def Err.LANE_MODE_CONFLICT : Err := ⟨2, .ce, .ce⟩
def Err.LANE_CTRL_REFUSED : Err := ⟨3, .ce, .ce⟩
def Err.LANE_LANE_FAIL (j : Nat) : Err := ⟨8 + j, .nf, .nf⟩
def Err.LANE_FEC_DEGRADE (j : Nat) : Err := ⟨16 + j, .ce, .ce⟩

def errsLANE : List Err :=
  [.LANE_A_PLL_UNLOCK, .LANE_B_PLL_UNLOCK, .LANE_MODE_CONFLICT, .LANE_CTRL_REFUSED, .LANE_LANE_FAIL 0,
   .LANE_LANE_FAIL 1, .LANE_LANE_FAIL 2, .LANE_LANE_FAIL 3, .LANE_LANE_FAIL 4, .LANE_LANE_FAIL 5,
   .LANE_LANE_FAIL 6, .LANE_LANE_FAIL 7, .LANE_FEC_DEGRADE 0, .LANE_FEC_DEGRADE 1, .LANE_FEC_DEGRADE 2,
   .LANE_FEC_DEGRADE 3, .LANE_FEC_DEGRADE 4, .LANE_FEC_DEGRADE 5, .LANE_FEC_DEGRADE 6, .LANE_FEC_DEGRADE 7]

/-! ### Table PORT-11 -/

def Err.PORT_LINK_DOWN : Err := ⟨0, .nf, .nf⟩
def Err.PORT_TRAIN_FAIL : Err := ⟨1, .ce, .ce⟩
def Err.PORT_REPLAY_LIMIT : Err := ⟨2, .nf, .nf⟩
def Err.PORT_CRC_ERR : Err := ⟨3, .ce, .ce⟩
def Err.PORT_CTL_CRC : Err := ⟨4, .ce, .ce⟩
def Err.PORT_SEQ_ERR : Err := ⟨5, .ce, .ce⟩
def Err.PORT_CREDIT_OVERFLOW : Err := ⟨6, .fd, .nf⟩
def Err.PORT_CREDIT_STALL : Err := ⟨7, .nf, .nf⟩
def Err.PORT_CREDIT_INIT : Err := ⟨8, .ce, .ce⟩
def Err.PORT_MALFORMED : Err := ⟨9, .fd, .nf⟩
def Err.PORT_RID_SPOOF : Err := ⟨10, .nf, .ce⟩
def Err.PORT_ENC_AUTH_FAIL : Err := ⟨11, .ce, .ce⟩
def Err.PORT_ENC_MISSING : Err := ⟨12, .nf, .nf⟩
def Err.PORT_MARKER_REFUSED : Err := ⟨13, .ce, .ce⟩
def Err.PORT_WIDTH_DOWN : Err := ⟨14, .ce, .ce⟩
def Err.PORT_WIDTH_FAIL : Err := ⟨15, .nf, .nf⟩
def Err.PORT_BELOW_MIN_WIDTH : Err := ⟨16, .fd, .fd⟩
def Err.PORT_CFG_REFUSED : Err := ⟨17, .ce, .ce⟩
def Err.PORT_PARAM_MISMATCH : Err := ⟨18, .ce, .ce⟩

def errsPORT : List Err :=
  [.PORT_LINK_DOWN, .PORT_TRAIN_FAIL, .PORT_REPLAY_LIMIT, .PORT_CRC_ERR, .PORT_CTL_CRC, .PORT_SEQ_ERR,
   .PORT_CREDIT_OVERFLOW, .PORT_CREDIT_STALL, .PORT_CREDIT_INIT, .PORT_MALFORMED, .PORT_RID_SPOOF,
   .PORT_ENC_AUTH_FAIL, .PORT_ENC_MISSING, .PORT_MARKER_REFUSED, .PORT_WIDTH_DOWN, .PORT_WIDTH_FAIL,
   .PORT_BELOW_MIN_WIDTH, .PORT_CFG_REFUSED, .PORT_PARAM_MISMATCH]

/-! ### Table FACE-6 -/

def Err.FACE_CPL_TIMEOUT : Err := ⟨0, .ce, .ce⟩
def Err.FACE_ADMIT_TIMEOUT : Err := ⟨1, .ce, .ce⟩
def Err.FACE_UNEXP_CPL : Err := ⟨2, .ce, .ce⟩
def Err.FACE_NO_BUS : Err := ⟨3, .ce, .ce⟩
def Err.FACE_PRES_CONFLICT : Err := ⟨4, .ce, .ce⟩
def Err.FACE_WIN_REFUSED : Err := ⟨5, .ce, .ce⟩
def Err.FACE_CFG_REFUSED : Err := ⟨6, .ce, .ce⟩
def Err.FACE_BAR0_NO_GRANT : Err := ⟨7, .ce, .ce⟩
def Err.FACE_RESET_DROP : Err := ⟨8, .ce, .ce⟩

def errsFACE : List Err :=
  [.FACE_CPL_TIMEOUT, .FACE_ADMIT_TIMEOUT, .FACE_UNEXP_CPL, .FACE_NO_BUS, .FACE_PRES_CONFLICT,
   .FACE_WIN_REFUSED, .FACE_CFG_REFUSED, .FACE_BAR0_NO_GRANT, .FACE_RESET_DROP]

/-! ### Table CORE-12 -/

def Err.CORE_STOMP : Err := ⟨0, .ce, .ce⟩
def Err.CORE_ECC_CORR : Err := ⟨1, .ce, .ce⟩
def Err.CORE_ECC_COVERED : Err := ⟨2, .ce, .ce⟩
def Err.CORE_ECC_LOST : Err := ⟨3, .fd, .fd⟩
def Err.CORE_MC_PARTIAL : Err := ⟨4, .nf, .ce⟩
def Err.CORE_MC_INVALID : Err := ⟨5, .ce, .ce⟩
def Err.CORE_CFG_REFUSED : Err := ⟨6, .ce, .ce⟩
def Err.CORE_MC_PARTIAL_LOSSY : Err := ⟨7, .ce, .ce⟩

def errsCORE : List Err :=
  [.CORE_STOMP, .CORE_ECC_CORR, .CORE_ECC_COVERED, .CORE_ECC_LOST, .CORE_MC_PARTIAL, .CORE_MC_INVALID,
   .CORE_CFG_REFUSED, .CORE_MC_PARTIAL_LOSSY]

/-! ### Table PLATE-14 -/

def Err.ROUTE_MISS : Err := ⟨0, .ce, .ce⟩
def Err.ROUTE_DENIED : Err := ⟨1, .ce, .ce⟩
def Err.ROUTE_STALE_PARITY : Err := ⟨2, .ce, .ce⟩
def Err.ROUTE_SRC_SPOOF : Err := ⟨3, .ce, .ce⟩
def Err.ROUTE_CFG_ABSORBED : Err := ⟨4, .ce, .ce⟩
def Err.ROUTE_PLATE_WRITE : Err := ⟨5, .ce, .ce⟩
def Err.ROUTE_VERIFY_FAIL : Err := ⟨6, .ce, .ce⟩
def Err.ROUTE_TURN_MISSED : Err := ⟨7, .ce, .ce⟩
def Err.ROUTE_ECC_CORR : Err := ⟨8, .ce, .ce⟩
def Err.ROUTE_ECC_REBUILT : Err := ⟨9, .ce, .ce⟩
def Err.ROUTE_PLATE_LOST : Err := ⟨10, .halt, .halt⟩
def Err.ROUTE_LOG_OVERFLOW : Err := ⟨11, .ce, .ce⟩

def errsROUTE : List Err :=
  [.ROUTE_MISS, .ROUTE_DENIED, .ROUTE_STALE_PARITY, .ROUTE_SRC_SPOOF, .ROUTE_CFG_ABSORBED, .ROUTE_PLATE_WRITE,
   .ROUTE_VERIFY_FAIL, .ROUTE_TURN_MISSED, .ROUTE_ECC_CORR, .ROUTE_ECC_REBUILT, .ROUTE_PLATE_LOST,
   .ROUTE_LOG_OVERFLOW]

/-! ### Table FABRIC-11 -/

def Err.FAB_HCRC : Err := ⟨0, .ce, .ce⟩
def Err.FAB_E2E_CRC : Err := ⟨1, .ce, .ce⟩
def Err.FAB_FRAME_BAD : Err := ⟨2, .ce, .ce⟩
def Err.FAB_HOP_EXPIRED : Err := ⟨3, .ce, .ce⟩
def Err.FAB_STALE_SEQ : Err := ⟨4, .ce, .ce⟩
def Err.FAB_GAP : Err := ⟨5, .ce, .ce⟩
def Err.FAB_RELEASE_BAD : Err := ⟨6, .ce, .ce⟩
def Err.FAB_PROOF_WAIT : Err := ⟨7, .ce, .ce⟩
def Err.FAB_STREAM_DEAD : Err := ⟨8, .fd, .nf⟩
def Err.FAB_MISWIRED : Err := ⟨9, .ce, .ce⟩
def Err.FAB_PLATE_SKEW : Err := ⟨10, .nf, .ce⟩
def Err.FAB_PROV_DISCARD : Err := ⟨11, .ce, .ce⟩
def Err.FAB_RETIRE_TIMEOUT : Err := ⟨12, .ce, .ce⟩
def Err.FAB_CFG_REFUSED : Err := ⟨13, .ce, .ce⟩

def errsFAB : List Err :=
  [.FAB_HCRC, .FAB_E2E_CRC, .FAB_FRAME_BAD, .FAB_HOP_EXPIRED, .FAB_STALE_SEQ, .FAB_GAP, .FAB_RELEASE_BAD,
   .FAB_PROOF_WAIT, .FAB_STREAM_DEAD, .FAB_MISWIRED, .FAB_PLATE_SKEW, .FAB_PROV_DISCARD, .FAB_RETIRE_TIMEOUT,
   .FAB_CFG_REFUSED]

/-! ### Table CYCLE-7 -/

def Err.CYC_ERRATIC : Err := ⟨0, .ce, .ce⟩
def Err.CYC_HOLDOVER : Err := ⟨1, .ce, .ce⟩
def Err.CYC_CYCLE_LOST : Err := ⟨2, .ce, .ce⟩
def Err.CYC_CYC_JUMP : Err := ⟨3, .ce, .ce⟩
def Err.CYC_SRC_SWITCH : Err := ⟨4, .ce, .ce⟩
def Err.CYC_SRC_DISAGREE : Err := ⟨5, .ce, .ce⟩
def Err.CYC_TIME_STEP_BACK : Err := ⟨6, .ce, .ce⟩

def errsCYC : List Err :=
  [.CYC_ERRATIC, .CYC_HOLDOVER, .CYC_CYCLE_LOST, .CYC_CYC_JUMP, .CYC_SRC_SWITCH, .CYC_SRC_DISAGREE,
   .CYC_TIME_STEP_BACK]

/-! ### Table SCHED-10 -/

def Err.SCHED_HATCH_LATE : Err := ⟨0, .ce, .ce⟩
def Err.SCHED_HATCH_REJECTED : Err := ⟨1, .ce, .ce⟩
def Err.SCHED_HATCH_VERIFY_FAIL : Err := ⟨2, .ce, .ce⟩
def Err.SCHED_HATCH_WRITE : Err := ⟨3, .ce, .ce⟩
def Err.SCHED_GUARD_OVERRUN : Err := ⟨4, .ce, .ce⟩
def Err.SCHED_FALLBACK : Err := ⟨5, .ce, .ce⟩
def Err.SCHED_CFG_REFUSED : Err := ⟨6, .ce, .ce⟩

def errsSCHED : List Err :=
  [.SCHED_HATCH_LATE, .SCHED_HATCH_REJECTED, .SCHED_HATCH_VERIFY_FAIL, .SCHED_HATCH_WRITE, .SCHED_GUARD_OVERRUN,
   .SCHED_FALLBACK, .SCHED_CFG_REFUSED]

/-! ### R512 -/

def Err.INST_CFG_REFUSED : Err := ⟨0, .ce, .ce⟩
def Err.INST_FLUSH_TIMEOUT : Err := ⟨1, .nf, .ce⟩

def errsINST : List Err :=
  [.INST_CFG_REFUSED, .INST_FLUSH_TIMEOUT]

/-! ### R540 -/

def Err.MOVER_DESC_ERR : Err := ⟨0, .ce, .ce⟩
def Err.MOVER_FETCH_ERR : Err := ⟨1, .ce, .ce⟩
def Err.MOVER_RING_REFUSED : Err := ⟨2, .ce, .ce⟩
def Err.MOVER_RX_OVERSIZE : Err := ⟨3, .ce, .ce⟩
def Err.MOVER_RX_NOBUF : Err := ⟨4, .ce, .ce⟩

def errsMOVER : List Err :=
  [.MOVER_DESC_ERR, .MOVER_FETCH_ERR, .MOVER_RING_REFUSED, .MOVER_RX_OVERSIZE, .MOVER_RX_NOBUF]

/-! ### R540 -/

def Err.ENG_ENG_FAULT : Err := ⟨0, .nf, .nf⟩
def Err.ENG_ECC_CORR : Err := ⟨1, .ce, .ce⟩

def errsENG : List Err :=
  [.ENG_ENG_FAULT, .ENG_ECC_CORR]

/-! ### Table BRIDGE-3 -/

def Err.BRIDGE_CUT_UR : Err := ⟨0, .ce, .ce⟩
def Err.BRIDGE_LOCK_UR : Err := ⟨1, .ce, .ce⟩
def Err.BRIDGE_LOCK_TIMEOUT : Err := ⟨2, .ce, .ce⟩
def Err.BRIDGE_VEP_NOMATCH : Err := ⟨3, .ce, .ce⟩
def Err.BRIDGE_VEP_OVERSIZE : Err := ⟨4, .ce, .ce⟩
def Err.BRIDGE_VEP_FCS : Err := ⟨5, .ce, .ce⟩
def Err.BRIDGE_CFG_REFUSED : Err := ⟨6, .ce, .ce⟩

def errsBRIDGE : List Err :=
  [.BRIDGE_CUT_UR, .BRIDGE_LOCK_UR, .BRIDGE_LOCK_TIMEOUT, .BRIDGE_VEP_NOMATCH, .BRIDGE_VEP_OVERSIZE,
   .BRIDGE_VEP_FCS, .BRIDGE_CFG_REFUSED]

/-! ### R590 -/

def Err.MBOX_POST_REJECT : Err := ⟨0, .ce, .ce⟩
def Err.MBOX_WORD_REJECT : Err := ⟨1, .ce, .ce⟩
def Err.MBOX_SEM_FOREIGN : Err := ⟨2, .ce, .ce⟩
def Err.MBOX_FORGED : Err := ⟨3, .ce, .ce⟩

def errsMBOX : List Err :=
  [.MBOX_POST_REJECT, .MBOX_WORD_REJECT, .MBOX_SEM_FOREIGN, .MBOX_FORGED]

/-! ### Table GUARD-13 -/

def Err.GUARD_SECOND_FAULT : Err := ⟨0, .halt, .halt⟩
def Err.GUARD_UNRETAINED_LOSS : Err := ⟨1, .halt, .halt⟩
def Err.GUARD_RECOVERY_FAIL : Err := ⟨2, .ce, .ce⟩
def Err.GUARD_ELOG_FULL : Err := ⟨3, .ce, .ce⟩
def Err.GUARD_POISON_FWD : Err := ⟨4, .ce, .ce⟩
def Err.GUARD_POISON_BLOCKED : Err := ⟨5, .ce, .ce⟩
def Err.GUARD_REMOTE_REQ : Err := ⟨6, .ce, .ce⟩

def errsGUARD : List Err :=
  [.GUARD_SECOND_FAULT, .GUARD_UNRETAINED_LOSS, .GUARD_RECOVERY_FAIL, .GUARD_ELOG_FULL, .GUARD_POISON_FWD,
   .GUARD_POISON_BLOCKED, .GUARD_REMOTE_REQ]

/-! ### Table SEC-12 -/

def Err.SEC_TOKEN_REFUSED : Err := ⟨0, .ce, .ce⟩
def Err.SEC_IDE_FAIL : Err := ⟨1, .nf, .nf⟩
def Err.SEC_IDE_REQUIRED_DROP : Err := ⟨2, .ce, .ce⟩
def Err.SEC_AUTH_FAIL : Err := ⟨3, .ce, .ce⟩
def Err.SEC_REKEY_FAIL : Err := ⟨4, .nf, .ce⟩
def Err.SEC_DEV_AUTH_FAIL : Err := ⟨5, .ce, .ce⟩
def Err.SEC_SPDM_REFUSED : Err := ⟨6, .ce, .ce⟩
def Err.SEC_OWNER_CHANGED : Err := ⟨7, .ce, .ce⟩
def Err.SEC_DEBUG_UNLOCKED : Err := ⟨8, .ce, .ce⟩
def Err.SEC_KEY_STORE_ECC : Err := ⟨9, .halt, .halt⟩

def errsSEC : List Err :=
  [.SEC_TOKEN_REFUSED, .SEC_IDE_FAIL, .SEC_IDE_REQUIRED_DROP, .SEC_AUTH_FAIL, .SEC_REKEY_FAIL,
   .SEC_DEV_AUTH_FAIL, .SEC_SPDM_REFUSED, .SEC_OWNER_CHANGED, .SEC_DEBUG_UNLOCKED, .SEC_KEY_STORE_ECC]

/-! ### Table PWR-10 -/

def Err.PWR_FAST_TRIP : Err := ⟨0, .ce, .ce⟩
def Err.PWR_FAULT_TIMER : Err := ⟨1, .ce, .ce⟩
def Err.PWR_OV_CUT : Err := ⟨2, .nf, .ce⟩
def Err.PWR_REVERSE : Err := ⟨3, .ce, .ce⟩
def Err.PWR_FET_HOT : Err := ⟨4, .ce, .ce⟩
def Err.PWR_FEED_LOST : Err := ⟨5, .ce, .ce⟩
def Err.PWR_STANDBY_LOST : Err := ⟨6, .ce, .ce⟩
def Err.PWR_SEAT_LOSS : Err := ⟨7, .ce, .ce⟩
def Err.PWR_RETRYING : Err := ⟨8, .nf, .ce⟩
def Err.PWR_LATCHED : Err := ⟨9, .nf, .ce⟩
def Err.PWR_CFG_REFUSED : Err := ⟨10, .ce, .ce⟩

def errsPWR : List Err :=
  [.PWR_FAST_TRIP, .PWR_FAULT_TIMER, .PWR_OV_CUT, .PWR_REVERSE, .PWR_FET_HOT, .PWR_FEED_LOST, .PWR_STANDBY_LOST,
   .PWR_SEAT_LOSS, .PWR_RETRYING, .PWR_LATCHED, .PWR_CFG_REFUSED]

/-! ### R715 -/

def Err.MGMT_LOCKSTEP : Err := ⟨0, .ce, .ce⟩
def Err.MGMT_WD_EXPIRE : Err := ⟨1, .ce, .ce⟩
def Err.MGMT_FW_DEAD : Err := ⟨2, .ce, .ce⟩
def Err.MGMT_SENSOR_BAD : Err := ⟨3, .ce, .ce⟩
def Err.MGMT_VMON_OOR : Err := ⟨4, .ce, .ce⟩
def Err.MGMT_THERM_WARN : Err := ⟨5, .ce, .ce⟩
def Err.MGMT_IMG_FAIL : Err := ⟨6, .ce, .ce⟩
def Err.MGMT_GATHER_SKIP : Err := ⟨7, .ce, .ce⟩
def Err.MGMT_GATHER_NOGRANT : Err := ⟨8, .ce, .ce⟩
def Err.MGMT_GATHER_SKEW : Err := ⟨9, .ce, .ce⟩
def Err.MGMT_REMOTE_REFUSED : Err := ⟨10, .ce, .ce⟩
def Err.MGMT_CFG_REFUSED : Err := ⟨11, .ce, .ce⟩

def errsMGMT : List Err :=
  [.MGMT_LOCKSTEP, .MGMT_WD_EXPIRE, .MGMT_FW_DEAD, .MGMT_SENSOR_BAD, .MGMT_VMON_OOR, .MGMT_THERM_WARN,
   .MGMT_IMG_FAIL, .MGMT_GATHER_SKIP, .MGMT_GATHER_NOGRANT, .MGMT_GATHER_SKEW, .MGMT_REMOTE_REFUSED,
   .MGMT_CFG_REFUSED]

/-! ### ERR_STICKY, spec/02 -/

def Err.ACC_LEN : Err := ⟨28, .ce, .ce⟩
def Err.ACC_LOCKED : Err := ⟨29, .ce, .ce⟩
def Err.ACC_PARTIAL : Err := ⟨30, .ce, .ce⟩
def Err.ACC_UNMAPPED : Err := ⟨31, .ce, .ce⟩

def errsACC : List Err :=
  [.ACC_LEN, .ACC_LOCKED, .ACC_PARTIAL, .ACC_UNMAPPED]

end Sys2Proof.Machine
end

