-- ==== Sys2Proof/Config.lean ====
section
/-! DEFINITION. What the spec leaves open: free values, constants without a body, so that no proof can see what they are.
A free value is applied to the model's counter `State.free`, so that each draw may give another one. -/

namespace Sys2Proof.Config

/-- A random number the part draws, of up to 32 bits (log entry 6): the n-th draw. -/
opaque freeWord : Nat → BitVec 32

/-- Byte `i` of what a frame carries, for payloads whose bytes a step does not spell out (log entry 175). -/
opaque payloadByte : Payload → Nat → BitVec 8

/-- Parity bit `i` that RS(544,514) adds to the message bits of a codeword (R170): the code's field and generator are not in the
spec. -/
opaque rsParity : List Bool → Nat → Bool

/-- The link key and the salt that SEC supplies (R248, R653): of port `p`, the `n`-th key of its link, as the sender's (`true`)
or the receiver's. -/
opaque linkKey (p n : Nat) (sending : Bool) : BitVec 256
opaque linkSalt (p n : Nat) (sending : Bool) : BitVec 32

/-- AES-256-GCM under a key, IV and additional authenticated data (R248): byte `i` of the ciphertext of `plain`, the tag's 16 bytes
after it. The cipher is the cited standard's. -/
opaque gcmByte (key : BitVec 256) (iv : BitVec 96) (aad plain : List Nat) (i : Nat) : BitVec 8

/-- PCI Express preset `k` at rate code `r`: pre-cursor and post-cursor magnitudes in thousandths of full swing (R175). The presets
are the cited standard's. -/
opaque pciePreset (r k : Nat) : Nat × Nat

/-- Measurement 1, the digest of the boot ROM, and the digest of the firmware image in slot `k` with SEQUENCE `seq` (Table
SEC-6). -/
opaque romDigest : List Nat
opaque firmwareDigest (k seq : Nat) : Nat

/-- The bytes over which measurement `k` is taken, from the numbers that Table SEC-6 names for it: the spec gives no widths. -/
opaque measuredBytes (k : Nat) (content : List Nat) : List Nat

/-- Selective IDE stream `s` of port `p` takes a TLP with a requester ID and address: its association blocks (Table SEC-8) are the
host's to set, in registers of the cited standard. -/
opaque ideSelects (p s rid addr : Nat) : Bool

/-- The substate in which an idle port with a CLKREQ# ball rests: 0 L1, 1 L1.1, 2 L1.2. When a link takes one of them is the cited
standard's (R217). -/
opaque l1Substate (p : Nat) : Fin 3

/-- The requester ID under which DOWN port `p` presents a non-posted request to its device (R33): one that routes the completion
back to the port. -/
opaque edgeRid (p : Nat) : BitVec 16

/-- The value that the owner's configuration gave BAR register `bar` of the device with ID route RID `rid` at port `p` (R721). -/
opaque ownerBar (p rid bar : Nat) : BitVec 32

/-- The IANA enterprise number of MGMT_SMB_IANA (R697): the spec does not give it. -/
opaque ianaNumber : BitVec 32

/-- The payload bytes of a remote access frame (R700): the spec does not give its layout. -/
opaque remoteBytes : Nat

end Sys2Proof.Config
end

