-- ==== Sys2Proof/Machine/Pages.lean ====
section
/-! DEFINITION. The page index of the register space (spec/02, Table PAGES-1 and Table PAGES-2): where each page lies, its
block code and instance, and its register table. -/

namespace Sys2Proof

open Sys2Proof.Machine

/-- The base address of a page (Table PAGES-1). -/
def Pg.base : Pg → Nat
  | .glb => 0
  | .mgmt k => 0x10000 + k * 0x10000
  | .sec k => 0x80000 + k * 0x10000
  | .guard k => 0xC0000 + k * 0x10000
  | .lane n => 0x100000 + n * 0x10000
  | .pwrg => 0x300000
  | .pwr c => 0x310000 + c * 0x10000
  | .core k => 0x500000 + k * 0x10000
  | .route k => 0x600000 + k * 0x10000
  | .bridge k => 0x700000 + k * 0x10000
  | .mbox k => 0x780000 + k * 0x10000
  | .port p => 0x800000 + p * 0x10000
  | .face f => 0xE00000 + f * 0x10000
  | .schedg => 0x2000000
  | .sched p => 0x2010000 + p * 0x10000
  | .tenant v => 0x2800000 + v * 0x1000
  | .inst k => 0x2C00000 + k * 0x10000
  | .moverg => 0x3000000
  | .eng e => 0x3010000 + e * 0x10000
  | .ring n => 0x3800000 + n * 0x40

/-- How many bytes a page spans. -/
def Pg.size : Pg → Nat
  | .tenant _ => 0x1000
  | .ring _ => 0x40
  | _ => 0x10000

/-- The number of a page in its block: BLK_ID.INSTANCE (R42), and the index of array registers' resets. -/
def Pg.index : Pg → Nat
  | .glb => 0
  | .mgmt k | .sec k | .guard k | .lane k | .pwr k | .core k | .route k | .bridge k | .mbox k | .port k | .face k | .sched k
  | .tenant k | .inst k | .eng k | .ring k => k
  | .pwrg | .schedg | .moverg => 0xFF

/-- How many pages of the kind there are (Table PAGES-1). -/
def Pg.limit : Pg → Nat
  | .glb | .pwrg | .schedg | .moverg => 256
  | .mgmt _ => 7
  | .sec _ | .guard _ => 4
  | .lane _ | .pwr _ => 24
  | .core _ | .route _ | .inst _ => 16
  | .bridge _ | .mbox _ => 8
  | .port _ | .sched _ => 96
  | .face _ => 32
  | .tenant _ => 1024
  | .eng _ => 64
  | .ring _ => 4096

/-- The page is one that Table PAGES-1 lists. -/
def Pg.ok (pg : Pg) : Bool := pg.index < pg.limit

/-- A number for each kind of page. -/
def Pg.kind : Pg → Nat
  | .glb => 0
  | .mgmt _ => 1
  | .sec _ => 2
  | .guard _ => 3
  | .lane _ => 4
  | .pwrg => 5
  | .pwr _ => 6
  | .core _ => 7
  | .route _ => 8
  | .bridge _ => 9
  | .mbox _ => 10
  | .port _ => 11
  | .face _ => 12
  | .schedg => 13
  | .sched _ => 14
  | .tenant _ => 15
  | .inst _ => 16
  | .moverg => 17
  | .eng _ => 18
  | .ring _ => 19

/-- One number for two (the pairing of Cantor's kind that Mathlib calls `Nat.pair`). -/
def pairUp (a b : Nat) : Nat := if a < b then b * b + a else a * a + a + b

/-- A number for each page. -/
def Pg.code (pg : Pg) : Nat := 32 * pg.index + pg.kind

/-- True for a page with the common header (R54). -/
def Pg.common : Pg → Bool
  | .tenant _ | .ring _ => false
  | _ => true

/-- The block code of a page (Table PAGES-2). -/
def Pg.block : Pg → Nat
  | .glb => 0
  | .mgmt _ => 1
  | .sec _ => 2
  | .guard _ => 3
  | .lane _ => 4
  | .pwrg | .pwr _ => 5
  | .core _ => 6
  | .route _ => 7
  | .bridge _ => 8
  | .mbox _ => 9
  | .port _ => 0xA
  | .face _ => 0xB
  | .schedg | .sched _ => 0xC
  | .tenant _ | .inst _ => 0xD
  | .moverg | .eng _ | .ring _ => 0xE

/-- The registers of a page beside its common header (the field tables of spec/02 to spec/20). -/
def Pg.tab : Pg → List Fld
  | .glb => tabGLB
  | .mgmt 0 => tabMGMT0
  | .mgmt 1 => tabMGMT1
  | .mgmt 2 => tabMGMT2
  | .sec 0 => tabSEC0
  | .sec 1 => tabSEC1
  | .sec 2 => tabSEC2
  | .guard 0 => tabGUARD0
  | .guard 1 => tabGUARD1
  | .lane _ => tabLANE
  | .pwrg => tabPWRG
  | .pwr _ => tabPWR
  | .core 0 => tabCORE0
  | .core 1 => tabCORE1
  | .core 2 => tabCORE2
  | .core 3 => tabCORE3
  | .route 0 => tabROUTE0
  | .route 1 => tabROUTE1
  | .route 2 => tabROUTE2
  | .bridge 0 => tabBRIDGE0
  | .bridge 1 => tabBRIDGE1
  | .bridge 2 => tabBRIDGE2
  | .bridge 4 => tabBRIDGE4
  | .mbox 0 => tabMBOX0
  | .mbox 1 => tabMBOX1
  | .mbox 2 => tabMBOX2
  | .mbox 3 => tabMBOX3
  | .port _ => tabPORT
  | .face _ => tabFACE
  | .schedg => tabSCHEDG
  | .sched _ => tabSCHED
  | .tenant _ => tabTENANT
  | .inst 0 => tabINST0
  | .inst 1 => tabINST1
  | .inst 2 => tabINST2
  | .inst 3 => tabINST3
  | .moverg => tabMOVERG
  | .eng _ => tabENG
  | .ring _ => tabRING
  | .mgmt _ | .sec _ | .guard _ | .core _ | .route _ | .bridge _ | .mbox _ | .inst _ => []

/-- Every register field of a page, its common header's first. -/
def Pg.fields (pg : Pg) : List Fld := if pg.common then tabHDR ++ pg.tab else pg.tab

/-- The ranges of Table PAGES-1: base, pages, stride, and the page of each place. -/
def pgRanges : List (Nat × Nat × Nat × (Nat → Pg)) :=
  [(0, 1, 0x10000, fun _ => .glb), (0x10000, 7, 0x10000, .mgmt), (0x80000, 4, 0x10000, .sec), (0xC0000, 4, 0x10000, .guard),
   (0x100000, 24, 0x10000, .lane), (0x300000, 1, 0x10000, fun _ => .pwrg), (0x310000, 24, 0x10000, .pwr),
   (0x500000, 16, 0x10000, .core), (0x600000, 16, 0x10000, .route), (0x700000, 8, 0x10000, .bridge),
   (0x780000, 8, 0x10000, .mbox), (0x800000, 96, 0x10000, .port), (0xE00000, 32, 0x10000, .face),
   (0x2000000, 1, 0x10000, fun _ => .schedg), (0x2010000, 96, 0x10000, .sched), (0x2800000, 1024, 0x1000, .tenant),
   (0x2C00000, 16, 0x10000, .inst), (0x3000000, 1, 0x10000, fun _ => .moverg), (0x3010000, 64, 0x10000, .eng),
   (0x3800000, 4096, 0x40, .ring)]

/-- The page that holds space address `a`, none for the plate window and the reserved ranges. -/
def pgAt (a : Nat) : Option Pg :=
  pgRanges.findSome? fun (b, n, st, mk) => if b ≤ a && a < b + n * st then some (mk ((a - b) / st)) else none

/-- The plate window (Table PAGES-1). -/
def inPlateWindow (a : Nat) : Bool := 0x1000000 ≤ a && a < 0x2000000

/-- A reserved range of Table PAGES-1. -/
def inReserved (a : Nat) : Bool := !(inPlateWindow a) && (pgAt a).isNone

/-- Every page with the common header. -/
def commonPages : List Pg :=
  pgRanges.flatMap fun (_, n, _, mk) => ((List.range n).map mk).filter Pg.common

/-- The face whose stamp this is. -/
def Stamp.face? : Stamp → Option Nat
  | .face f => some f
  | _ => none

end Sys2Proof
end

