-- ==== Sys2Proof/Machine/Ops.lean ====
section
/-! DEFINITION. The named operations over the state. An `Upd` is a change of the state together with the proof that it keeps
what every step keeps (`Keeps`): the queue of commands, the canonical form of the tables, the record of what was sent, and the
anti-rollback counters. Every meaning is built from the updates of this file, so each meaning keeps them by construction. -/

namespace Sys2Proof.Machine

/-! ### Reading the state -/

/-- Reset values that depend on the unit: codes of `Fld.rst` from 2^32 up. -/
def Fld.reset (f : Fld) (pg : Pg) (i : Nat) : Nat :=
  if f.rst < 2 ^ 32 then f.rst
  else match f.rst - 2 ^ 32 with
    | 0 => b2n (pg.index < 4)                                                   -- PWR_CH_CFG.EN: anchor channels
    | 1 => pg.index ^^^ 1                                                       -- MOVER_ENG_CTRL.FAILOVER
    | 2 => if i < 64 then (if i % 2 = 0 then i / 2 else 0xFE) else 0xFF         -- MBOX_WORD_CFG.WRITER
    | 3 => if i < 64 then (if i % 2 = 0 then 0xFE else i / 2) else 0xFF         -- MBOX_WORD_CFG.READER
    | _ => 0x70 + i                                                             -- MGMT_SMB_CFG.ADDR

/-- The address of a field's register in the space. A page or an entry that the part does not have gets an address of its own
outside the space. -/
def Fld.addr (f : Fld) (pg : Pg) (i : Nat) : Nat :=
  if pg.ok && (i < f.count || f.stride == 0) then pg.base + f.off + i * f.stride else 2 ^ 26 * (1 + pairUp pg.code i) + f.off

/-- The key of a field in `State.regs`. -/
def Fld.key (f : Fld) (pg : Pg) (i : Nat) : Nat := f.addr pg i * 32 + f.lo

/-- The key of a field that is kept per stamp, in `State.stampRegs`. -/
def stampKey (st k : Nat) : Nat := 64 * k + st % 64

/-- The key of number `x` at index `i`, in `State.ivs`. -/
def Var.key (x : Var) (i : Nat) : Nat := 512 * i + x.ctorIdx

/-- The key of queue `q` at index `i`, in `State.fifos`. -/
def Fifo.key (q : Fifo) (i : Nat) : Nat := 512 * i + q.ctorIdx

/-- The key of counter `i` of page `pg`, in `State.cnts`. -/
def cntKey (pg : Pg) (i : Nat) : Nat :=
  if pg.ok && i < pg.size then pg.base + i else 2 ^ 26 * (1 + pairUp pg.code i)

/-- The value of register field `f` of page `pg`, entry `i` of its array: as many bits as the field has. -/
def State.rd (s : State) (pg : Pg) (f : Fld) (i : Nat := 0) : Nat := Map.get s.regs (f.key pg i) (f.reset pg i) % 2 ^ f.width

/-- The field read as a flag. -/
def State.on (s : State) (pg : Pg) (f : Fld) (i : Nat := 0) : Bool := s.rd pg f i != 0

/-- A field kept once per stamp. -/
def State.rdSt (s : State) (st : Nat) (pg : Pg) (f : Fld) (i : Nat := 0) : Nat :=
  Map.get s.stampRegs (stampKey st (f.key pg i)) (f.reset pg i) % 2 ^ f.width

/-- The number kept as `x` at index `i`. -/
def State.iv (s : State) (x : Var) (i : Nat := 0) : Nat := Map.get s.ivs (x.key i) 0

/-- The number kept as `x`, read as a flag. -/
def State.ivOn (s : State) (x : Var) (i : Nat := 0) : Bool := s.iv x i != 0

/-- The queue `q` at index `i`. -/
def State.fifo (s : State) (q : Fifo) (i : Nat := 0) : List Nat := Map.get s.fifos (q.key i) []

/-- Counter `i` of a page's counter window. -/
def State.cnt (s : State) (pg : Pg) (i : Nat) : Nat := Map.get s.cnts (cntKey pg i) 0

/-- The anti-rollback counter of image kind `k`. -/
def State.arbAt (s : State) (k : Nat) : Nat := Map.get s.arb k 0

/-- The replay buffer of port `p`. -/
def State.replayOf (s : State) (p : Nat) : List TxFrame := Map.get s.replay p []

/-- The sending side of stream `k`. -/
def State.tx (s : State) (k : Nat) : TxStream := Map.get s.txs k .empty

/-- The receiving side of stream `k`, none when no record is held. -/
def State.rx? (s : State) (k : Nat) : Option RxStream := (s.rxs.find? fun e => e.1 == k).map (·.2)

/-! ### What every step keeps -/

/-- What every change of the state keeps. -/
structure Keeps (s t : State) : Prop where
  /-- The queue of commands is the step's, not the meaning's. -/
  pending : t.pending = s.pending
  /-- The tables keep their canonical form and the counters their width. -/
  wf : s.wf → t.wf
  /-- What was sent stays sent. -/
  out : ∃ l, t.out = l ++ s.out
  /-- Anti-rollback counters never go down (fuses). -/
  arb : s.wf → ∀ k, s.arbAt k ≤ t.arbAt k
  /-- Free values are only drawn. -/
  free : s.free ≤ t.free

theorem Keeps.refl (s : State) : Keeps s s := ⟨rfl, id, ⟨[], rfl⟩, fun _ _ => Nat.le_refl _, Nat.le_refl _⟩

theorem Keeps.trans {s t u : State} (a : Keeps s t) (b : Keeps t u) : Keeps s u :=
  ⟨b.pending.trans a.pending, fun h => b.wf (a.wf h),
    by obtain ⟨l, hl⟩ := a.out; obtain ⟨m, hm⟩ := b.out; exact ⟨m ++ l, by rw [hm, hl, List.append_assoc]⟩,
    fun h k => Nat.le_trans (a.arb h k) (b.arb (a.wf h) k), Nat.le_trans a.free b.free⟩

/-- A change of the state that keeps what every step keeps. -/
structure Upd where
  run : State → State
  ok : ∀ s, Keeps s (run s)

/-- No change. -/
def skip : Upd := ⟨fun s => s, Keeps.refl⟩

/-- One change after another. -/
def Upd.andThen (u v : Upd) : Upd := ⟨fun s => v.run (u.run s), fun s => (u.ok s).trans (v.ok _)⟩

/-- Changes in order. -/
def all (us : List Upd) : Upd :=
  match us with
  | [] => skip
  | u :: r => u.andThen (all r)

/-- A change chosen by the state it starts from. -/
def look (f : State → Upd) : Upd := ⟨fun s => (f s).run s, fun s => (f s).ok s⟩

/-- The change, if `c` holds. -/
def when_ (c : Bool) (u : Upd) : Upd := if c then u else skip

/-- A change for each member of a list, in order. -/
def forEach {α : Type} (l : List α) (f : α → Upd) : Upd := all (l.map f)

/-- A change for each number below `n`, in order. -/
def forBelow (n : Nat) (f : Nat → Upd) : Upd := forEach (List.range n) f

/-- The change for the value an option holds. -/
def forSome {α : Type} (o : Option α) (f : α → Upd) : Upd :=
  match o with
  | none => skip
  | some a => f a

/-- What `exec` answers. -/
abbrev Answer := Host.Outcome State Fault Refusal


/-! ### The elementary changes -/

/-- Change one of the fields of the state that carry no condition. -/
theorem Keeps.of_same {s t : State} (hp : t.pending = s.pending) (hr : t.regs = s.regs) (hs : t.stampRegs = s.stampRegs)
    (hc : t.cnts = s.cnts) (hi : t.ivs = s.ivs) (hf : t.fifos = s.fifos) (ha : t.arb = s.arb)
    (h1 : t.replay = s.replay) (h2 : t.txs = s.txs) (h3 : t.rxs = s.rxs) (h4 : t.coders = s.coders) (ho : ∃ l, t.out = l ++ s.out)
    (hn : s.free ≤ t.free) : Keeps s t :=
  ⟨hp, by unfold State.wf; rw [hr, hs, hc, hi, hf, ha, h1, h2, h3, h4]; exact id, ho,
    fun _ k => by unfold State.arbAt; rw [ha], hn⟩

/-- Write the table of register fields. -/
def modRegs (f : Map Nat → Map Nat) (h : ∀ m, Map.wf m → Map.wf (f m)) : Upd :=
  ⟨fun s => { s with regs := f s.regs }, fun _ =>
    ⟨rfl, fun w => ⟨h _ w.1, w.2⟩, ⟨[], rfl⟩, fun _ _ => Nat.le_refl _, Nat.le_refl _⟩⟩

/-- Write register field `f` of page `pg`, entry `i`: the value is cut to the field's width. -/
def wr (pg : Pg) (f : Fld) (v : Nat) (i : Nat := 0) : Upd :=
  modRegs (fun m => Map.set m (f.key pg i) (v % 2 ^ f.width) (f.reset pg i)) fun _ h => Map.set_wf _ _ _ h

/-- Write the fields kept per stamp. -/
def modStamp (f : Map Nat → Map Nat) (h : ∀ m, Map.wf m → Map.wf (f m)) : Upd :=
  ⟨fun s => { s with stampRegs := f s.stampRegs }, fun _ =>
    ⟨rfl, fun w => ⟨w.1, h _ w.2.1, w.2.2⟩, ⟨[], rfl⟩, fun _ _ => Nat.le_refl _, Nat.le_refl _⟩⟩

/-- Write a field kept per stamp. -/
def wrSt (st : Nat) (pg : Pg) (f : Fld) (v : Nat) (i : Nat := 0) : Upd :=
  modStamp (fun m => Map.set m (stampKey st (f.key pg i)) (v % 2 ^ f.width) (f.reset pg i)) fun _ h => Map.set_wf _ _ _ h

/-- Put the number `v` at `x`, index `i`. -/
def put (x : Var) (v : Nat) (i : Nat := 0) : Upd :=
  ⟨fun s => { s with ivs := Map.set s.ivs (x.key i) v 0 }, fun _ =>
    ⟨rfl, fun w => ⟨w.1, w.2.1, w.2.2.1, w.2.2.2.1, Map.set_wf0 _ _ w.2.2.2.2.1, w.2.2.2.2.2⟩, ⟨[], rfl⟩,
      fun _ _ => Nat.le_refl _, Nat.le_refl _⟩⟩

/-- Change the number at `x`, index `i`. -/
def modIv (x : Var) (f : Nat → Nat) (i : Nat := 0) : Upd := look fun s => put x (f (s.iv x i)) i

/-- The keys that are not of kind `n` with an index in `p`. -/
def outside (n : Nat) (p : Nat → Bool) (k : Nat) : Bool := !(k % 512 == n && p (k / 512))

/-- The counters that are not of page `pg` with an index in `p`. -/
def otherCnt (pg : Pg) (p : Nat → Bool) (k : Nat) : Bool :=
  !(pg.ok && pg.base ≤ k && k < pg.base + pg.size && p (k - pg.base))

/-- Return every number of kind `x` whose index satisfies `p` to 0. -/
def clearIv (x : Var) (p : Nat → Bool) : Upd :=
  ⟨fun s => { s with ivs := Map.keep s.ivs (outside x.ctorIdx p) }, fun _ =>
    ⟨rfl, fun w => ⟨w.1, w.2.1, w.2.2.1, w.2.2.2.1, Map.keep_wf0 _ w.2.2.2.2.1, w.2.2.2.2.2⟩, ⟨[], rfl⟩,
      fun _ _ => Nat.le_refl _, Nat.le_refl _⟩⟩

/-- Put the queue `q` at index `i`. -/
def putFifo (q : Fifo) (l : List Nat) (i : Nat := 0) : Upd :=
  ⟨fun s => { s with fifos := Map.set s.fifos (q.key i) l [] }, fun _ =>
    ⟨rfl, fun w => ⟨w.1, w.2.1, w.2.2.1, w.2.2.2.1, w.2.2.2.2.1, Map.set_wf _ _ _ w.2.2.2.2.2.1, w.2.2.2.2.2.2⟩, ⟨[], rfl⟩,
      fun _ _ => Nat.le_refl _, Nat.le_refl _⟩⟩

/-- Append a record to a queue. -/
def push (q : Fifo) (v : Nat) (i : Nat := 0) : Upd := look fun s => putFifo q (s.fifo q i ++ [v]) i

/-- Empty every queue of kind `q` whose index satisfies `p`. -/
def clearFifo (q : Fifo) (p : Nat → Bool) : Upd :=
  ⟨fun s => { s with fifos := Map.keep s.fifos (outside q.ctorIdx p) }, fun _ =>
    ⟨rfl, fun w => ⟨w.1, w.2.1, w.2.2.1, w.2.2.2.1, w.2.2.2.2.1, Map.keep_wf _ w.2.2.2.2.2.1, w.2.2.2.2.2.2⟩, ⟨[], rfl⟩,
      fun _ _ => Nat.le_refl _, Nat.le_refl _⟩⟩

/-- Set counter `i` of a page, at most 2^48 − 1. -/
def setCnt (pg : Pg) (i v : Nat) : Upd :=
  ⟨fun s => { s with cnts := Map.set s.cnts (cntKey pg i) (min v cntMax) 0 }, fun _ =>
    ⟨rfl, fun w => ⟨w.1, w.2.1, Map.set_wf0 _ _ w.2.2.1, fun e he => by
        have he : e ∈ Map.set _ _ _ _ := he
        unfold Map.set at he
        split at he
        · exact w.2.2.2.1 e (Map.mem_of_mem_del he)
        · rcases Map.mem_of_mem_put he with he | he
          · subst he
            exact Nat.min_le_right _ _
          · exact w.2.2.2.1 e he, w.2.2.2.2⟩, ⟨[], rfl⟩, fun _ _ => Nat.le_refl _, Nat.le_refl _⟩⟩

/-- Clear the counters of a page whose index satisfies `p`. -/
def clearCnts (pg : Pg) (p : Nat → Bool) : Upd :=
  ⟨fun s => { s with cnts := Map.keep s.cnts (otherCnt pg p) }, fun _ =>
    ⟨rfl, fun w => ⟨w.1, w.2.1, Map.keep_wf0 _ w.2.2.1, fun e he => w.2.2.2.1 e (List.mem_filter.1 he).1, w.2.2.2.2⟩,
      ⟨[], rfl⟩, fun _ _ => Nat.le_refl _, Nat.le_refl _⟩⟩

/-- Clear every counter (a cold reset, R65). -/
def clearAllCnts : Upd :=
  ⟨fun s => { s with cnts := [] }, fun _ =>
    ⟨rfl, fun w => ⟨w.1, w.2.1, Map.wf0_nil, by simp, w.2.2.2.2⟩, ⟨[], rfl⟩, fun _ _ => Nat.le_refl _, Nat.le_refl _⟩⟩

/-- Advance the anti-rollback counter of image kind `k` to at least `v`. -/
def raiseArb (k v : Nat) : Upd :=
  ⟨fun s => { s with arb := Map.set s.arb k (max v (s.arbAt k)) 0 }, fun s =>
    ⟨rfl, fun w => ⟨w.1, w.2.1, w.2.2.1, w.2.2.2.1, w.2.2.2.2.1, w.2.2.2.2.2.1, Map.set_wf0 _ _ w.2.2.2.2.2.2.1, w.2.2.2.2.2.2.2⟩, ⟨[], rfl⟩,
      fun w j => by
        show Map.get s.arb j 0 ≤ Map.get (Map.set s.arb k (max v (s.arbAt k)) 0) j 0
        by_cases hj : j = k
        · subst hj
          rw [Map.get_set_self w.2.2.2.2.2.2.1.1]
          exact Nat.le_max_right _ _
        · rw [Map.get_set_ne w.2.2.2.2.2.2.1.1 _ _ _ hj], Nat.le_refl _⟩⟩

/-- Send. -/
def emit (o : Out) : Upd :=
  ⟨fun s => { s with out := o :: s.out }, fun _ => .of_same rfl rfl rfl rfl rfl rfl rfl rfl rfl rfl rfl ⟨[o], rfl⟩ (Nat.le_refl _)⟩

/-- The transmit side of lane `l`. -/
def State.coder (s : State) (l : Nat) : Coder := Map.get s.coders l .start

/-- Change the transmit side of lane `l`. -/
def modCoder (l : Nat) (f : Coder → Coder) : Upd :=
  ⟨fun s => { s with coders := Map.set s.coders l (f (s.coder l)) .start }, fun _ =>
    ⟨rfl, fun w => ⟨w.1, w.2.1, w.2.2.1, w.2.2.2.1, w.2.2.2.2.1, w.2.2.2.2.2.1, w.2.2.2.2.2.2.1, w.2.2.2.2.2.2.2.1,
        w.2.2.2.2.2.2.2.2.1, w.2.2.2.2.2.2.2.2.2.1, Map.set_wf _ _ _ w.2.2.2.2.2.2.2.2.2.2⟩, ⟨[], rfl⟩, fun _ _ => Nat.le_refl _,
      Nat.le_refl _⟩⟩

/-- Change the containment request lines. -/
def modGreqs (f : List GReq → List GReq) : Upd :=
  ⟨fun s => { s with greqs := f s.greqs }, fun _ => .of_same rfl rfl rfl rfl rfl rfl rfl rfl rfl rfl rfl ⟨[], rfl⟩ (Nat.le_refl _)⟩

/-- Change CORE's buffer. -/
def modBuf (f : List Pkt → List Pkt) : Upd :=
  ⟨fun s => { s with buf := f s.buf }, fun _ => .of_same rfl rfl rfl rfl rfl rfl rfl rfl rfl rfl rfl ⟨[], rfl⟩ (Nat.le_refl _)⟩

/-- Change the frames that wait before admission. -/
def modWaiting (f : List Waiting → List Waiting) : Upd :=
  ⟨fun s => { s with waiting := f s.waiting }, fun _ =>
    .of_same rfl rfl rfl rfl rfl rfl rfl rfl rfl rfl rfl ⟨[], rfl⟩ (Nat.le_refl _)⟩

/-- Change the tag slots in use. -/
def modSlots (f : List Slot → List Slot) : Upd :=
  ⟨fun s => { s with slots := f s.slots }, fun _ => .of_same rfl rfl rfl rfl rfl rfl rfl rfl rfl rfl rfl ⟨[], rfl⟩ (Nat.le_refl _)⟩

/-- Change the requests outstanding at DOWN ports. -/
def modFwd (f : List Fwd → List Fwd) : Upd :=
  ⟨fun s => { s with fwd := f s.fwd }, fun _ => .of_same rfl rfl rfl rfl rfl rfl rfl rfl rfl rfl rfl ⟨[], rfl⟩ (Nat.le_refl _)⟩

/-- Change the descriptors fetched. -/
def modDescs (f : List Desc → List Desc) : Upd :=
  ⟨fun s => { s with descs := f s.descs }, fun _ => .of_same rfl rfl rfl rfl rfl rfl rfl rfl rfl rfl rfl ⟨[], rfl⟩ (Nat.le_refl _)⟩

/-- Change the prefetch entries. -/
def modPrefs (f : List Pref → List Pref) : Upd :=
  ⟨fun s => { s with prefs := f s.prefs }, fun _ => .of_same rfl rfl rfl rfl rfl rfl rfl rfl rfl rfl rfl ⟨[], rfl⟩ (Nat.le_refl _)⟩

/-- Put the replay buffer of port `p`. -/
def putReplay (p : Nat) (l : List TxFrame) : Upd :=
  ⟨fun s => { s with replay := Map.set s.replay p l [] }, fun _ =>
    ⟨rfl, fun w => ⟨w.1, w.2.1, w.2.2.1, w.2.2.2.1, w.2.2.2.2.1, w.2.2.2.2.2.1, w.2.2.2.2.2.2.1,
        Map.set_wf _ _ _ w.2.2.2.2.2.2.2.1, w.2.2.2.2.2.2.2.2⟩, ⟨[], rfl⟩, fun _ _ => Nat.le_refl _, Nat.le_refl _⟩⟩

/-- Put the sending side of stream `k`. -/
def putTx (k : Nat) (x : TxStream) : Upd :=
  ⟨fun s => { s with txs := Map.set s.txs k x .empty }, fun _ =>
    ⟨rfl, fun w => ⟨w.1, w.2.1, w.2.2.1, w.2.2.2.1, w.2.2.2.2.1, w.2.2.2.2.2.1, w.2.2.2.2.2.2.1, w.2.2.2.2.2.2.2.1,
        Map.set_wf _ _ _ w.2.2.2.2.2.2.2.2.1, w.2.2.2.2.2.2.2.2.2⟩, ⟨[], rfl⟩, fun _ _ => Nat.le_refl _, Nat.le_refl _⟩⟩

/-- Put the receiving side of stream `k`. -/
def putRx (k : Nat) (x : RxStream) : Upd :=
  ⟨fun s => { s with rxs := Map.put s.rxs k x }, fun _ =>
    ⟨rfl, fun w => ⟨w.1, w.2.1, w.2.2.1, w.2.2.2.1, w.2.2.2.2.1, w.2.2.2.2.2.1, w.2.2.2.2.2.2.1, w.2.2.2.2.2.2.2.1,
        w.2.2.2.2.2.2.2.2.1, Map.put_wf _ _ w.2.2.2.2.2.2.2.2.2.1, w.2.2.2.2.2.2.2.2.2.2⟩, ⟨[], rfl⟩, fun _ _ => Nat.le_refl _, Nat.le_refl _⟩⟩

/-- Forget the receiving side of stream `k`. -/
def delRx (k : Nat) : Upd :=
  ⟨fun s => { s with rxs := Map.del s.rxs k }, fun _ =>
    ⟨rfl, fun w => ⟨w.1, w.2.1, w.2.2.1, w.2.2.2.1, w.2.2.2.2.1, w.2.2.2.2.2.1, w.2.2.2.2.2.2.1, w.2.2.2.2.2.2.2.1,
        w.2.2.2.2.2.2.2.2.1, Map.del_wf _ w.2.2.2.2.2.2.2.2.2.1, w.2.2.2.2.2.2.2.2.2.2⟩, ⟨[], rfl⟩, fun _ _ => Nat.le_refl _, Nat.le_refl _⟩⟩

/-- Forget every stream (a warm or cold reset). -/
def clearStreams : Upd :=
  ⟨fun s => { s with txs := [], rxs := [] }, fun _ =>
    ⟨rfl, fun w => ⟨w.1, w.2.1, w.2.2.1, w.2.2.2.1, w.2.2.2.2.1, w.2.2.2.2.2.1, w.2.2.2.2.2.2.1, w.2.2.2.2.2.2.2.1,
        Map.wf_nil, Map.wf_nil, w.2.2.2.2.2.2.2.2.2.2⟩, ⟨[], rfl⟩, fun _ _ => Nat.le_refl _, Nat.le_refl _⟩⟩

/-- Set fabric time. -/
def setNow (n : Nat) : Upd :=
  ⟨fun s => { s with now := n }, fun _ => .of_same rfl rfl rfl rfl rfl rfl rfl rfl rfl rfl rfl ⟨[], rfl⟩ (Nat.le_refl _)⟩

/-- Draw a free value: count it. -/
def draw : Upd :=
  ⟨fun s => { s with free := s.free + 1 }, fun _ => .of_same rfl rfl rfl rfl rfl rfl rfl rfl rfl rfl rfl ⟨[], rfl⟩ (Nat.le_succ _)⟩

/-! ### Meanings -/

/-- The meaning of a command that changes the state by `u` whatever state the part is in: a supply, a pin, or an event of the
power-path die. -/
def Upd.always (u : Upd) (s : State) : Answer := .next (u.run s)

/-- The meaning of a command to the switch die: while that is held in reset (R102, R126, R158), nothing. -/
def Upd.answer (u : Upd) : State → Answer := Upd.always <| look fun s => when_ (!s.ivOn .dieReset) u

/-! ### Resets of registers -/

/-- The resets of Table BOOT-1 below a cold one, by the bit their code has in `Fld.kept` (R44). -/
inductive Rst where
  | warm | face | flr | inst | port | block
deriving DecidableEq, Repr

/-- The bit of `Fld.kept`. -/
def Rst.bit : Rst → Nat
  | .warm => 0
  | .face => 1
  | .flr => 2
  | .inst => 3
  | .port => 4
  | .block => 5

/-- The field of a table whose register array covers offset `off` and whose lowest bit is `lo`. -/
def findFld (tab : List Fld) (off lo : Nat) : Option Fld :=
  tab.find? fun f => f.lo == lo && f.off ≤ off &&
    (if f.count ≤ 1 then off == f.off else f.stride != 0 && (off - f.off) % f.stride == 0 && (off - f.off) / f.stride < f.count)

/-- True when a reset of kind `r` keeps the field at key `k` of page `pg`. -/
def keptAt (pg : Pg) (r : Rst) (k : Nat) : Bool :=
  match findFld pg.fields (k / 32 - pg.base) (k % 32) with
  | none => true
  | some f => f.kept.testBit r.bit

/-- True when the key lies in the page. -/
def inPage (pg : Pg) (k : Nat) : Bool := pg.ok && pg.base ≤ k / 32 && k / 32 < pg.base + pg.size

/-- A reset of a page's registers: each field the reset does not keep returns to its reset value (R44). -/
def resetPage (pg : Pg) (r : Rst) : Upd :=
  all [modRegs (fun m => m.keep fun k => !(inPage pg k) || keptAt pg r k) fun _ h => Map.keep_wf _ h,
       modStamp (fun m => m.keep fun k => !(inPage pg (k / 64)) || keptAt pg r (k / 64)) fun _ h => Map.keep_wf _ h]

/-- A wide reset (Table BOOT-2): the tables keep the entries whose keys satisfy the predicates, given in the order registers,
per-stamp registers, counters, numbers and queues; nothing stays in the buffer, the replay buffers and the streams, nor of the
requests. -/
def clearState (kr ks kc ki kf : Nat → Bool) : Upd :=
  ⟨fun s => { s with regs := s.regs.keep kr, stampRegs := s.stampRegs.keep ks, cnts := s.cnts.keep kc, ivs := s.ivs.keep ki,
                     fifos := s.fifos.keep kf, greqs := [], coders := [], buf := [], waiting := [], replay := [], txs := [], rxs := [],
                     slots := [], fwd := [], prefs := [], descs := [] },
   fun _ => ⟨rfl, fun w => ⟨Map.keep_wf _ w.1, Map.keep_wf _ w.2.1, Map.keep_wf0 _ w.2.2.1,
      fun e he => w.2.2.2.1 e (List.mem_filter.1 he).1, Map.keep_wf0 _ w.2.2.2.2.1, Map.keep_wf _ w.2.2.2.2.2.1, w.2.2.2.2.2.2.1,
      Map.wf_nil, Map.wf_nil, Map.wf_nil, Map.wf_nil⟩, ⟨[], rfl⟩, fun _ _ => Nat.le_refl _, Nat.le_refl _⟩⟩

end Sys2Proof.Machine
end

