-- ==== Sys2Proof/Machine/Flags.lean ====
section
/-! DEFINITION. Errors, interrupts, counters, watermarks and the error log: the parts of every page's header that hardware
writes (spec/02 R58 to R72, spec/17 R628 and R629). -/

namespace Sys2Proof.Machine

/-! ### Counters (R65 to R70) -/

/-- The group of counter `i` of a page, none where the block defines no such counter: the counter tables of the block
chapters. Indices from 0x8000 up of a LANE page are LANE_PRBS_ERR and LANE_PRBS_BITS, which lie outside the window. -/
def cntGroup : Pg → Nat → Option Nat
  | .lane _, i =>
    if i < 128 && i % 16 ≤ 10 then some (i / 16)
    else if 0x8000 ≤ i && i < 0x8010 then some ((i - 0x8000) / 2) else none
  | .port _, i => if i ≤ 3 then some 0 else if i ≤ 9 then some 1 else if i ≤ 17 then some 2 else none
  | .face _, i => if i ≤ 3 then some 0 else if i ≤ 8 then some 1 else none
  | .core 0, i => if i < 3072 then some (i / 256) else if i ≤ 3083 then some 12 else none
  | .route 0, i => if i ≤ 3 then some 0 else if 17 ≤ i && i ≤ 27 then some 1 else if 32 ≤ i && i ≤ 38 then some 2 else none
  | .bridge 0, i => if i ≤ 7 then some 0 else none
  | .bridge 2, i => if i < 256 then some (i / 16) else none
  | .bridge 4, i => if i ≤ 4 then some 0 else if i ≤ 9 then some 1 else if i ≤ 15 then some 2 else none
  | .schedg, i => if i ≤ 9 then some 0 else if 0x1000 ≤ i && i < 0x9000 then some (1 + (i - 0x1000) / 4096) else none
  | .sched _, i => if i < 16 then some 0 else if i < 32 then some 1 else if i ≤ 36 then some 2 else none
  | .inst 0, i => if i < 1024 then some (i / 64) else if i ≤ 1028 then some 15 else none
  | .eng _, i => if i ≤ 3 then some 0 else if i ≤ 8 then some 1 else none
  | .mbox 0, i => if i ≤ 13 then some 0 else none
  | .guard 0, i => if i ≤ 15 then some 0 else none
  | .sec 0, i => if i ≤ 7 then some 0 else none
  | .pwr _, i => if i ≤ 8 then some 0 else none
  | .mgmt 0, i => if i ≤ 7 then some 0 else none
  | _, _ => none

/-- The group of counter `i` of a page's counter window (R70): the PRBS counters of a LANE page stand outside the window. -/
def windowCnt (pg : Pg) (i : Nat) : Option Nat :=
  match pg with
  | .lane _ => if i < 0x8000 then cntGroup pg i else none
  | _ => cntGroup pg i

/-! ### Interrupts (R63, R64, R277) -/

/-- INT_CAUSE of a page. -/
def State.cause (s : State) (pg : Pg) : Nat :=
  s.rd pg .INT_CAUSE_ERR <<< 31 + s.rd pg .INT_CAUSE_CNT_SAT <<< 30 + s.rd pg .INT_CAUSE_BLK_INT

/-- INT_CAUSE AND INT_EN of a page. -/
def State.unmasked (s : State) (pg : Pg) : Nat :=
  s.cause pg &&& (s.rd pg .INT_EN_ERR <<< 31 + s.rd pg .INT_EN_CNT_SAT <<< 30 + s.rd pg .INT_EN_BLK_INT)

/-- The conditions of R277 beside the vector's own Mask bit. A running FLR (R296) and PME_Turn_Off (R301) hold messages back
too, and so does a face without a link (DEDUCED, log entry 181). -/
def State.msixOpen (s : State) (f : Nat) : Bool :=
  s.ivOn .msixEnable f && !s.ivOn .msixFnMask f && s.ivOn .seBusMaster f && s.rd (.face f) .FACE_PM_STAT_SE_D == 0 &&
    !s.on (.face f) .FACE_FLR_STAT_BUSY && !s.ivOn .pmeOff f && 2 ≤ s.rd (.face f) .FACE_BIND_STATE

/-- Count: add `n` to counter `i` of a page; past 2^48 − 1 it stays there and sets its group's SAT bit (R66). -/
def addCntRaw (pg : Pg) (i n : Nat) : Upd := look fun s =>
  let v := s.cnt pg i + n
  all [setCnt pg i v,
       forSome (if v > cntMax then cntGroup pg i else none) fun g =>
         wr pg .CNT_STAT_SAT (setBit (s.rd pg .CNT_STAT_SAT) g)]

/-- The page that holds a block's BLK_CTRL and BLK_STAT (R55). -/
def ctrlPage : Pg → Pg
  | .mgmt _ => .mgmt 0
  | .sec _ => .sec 0
  | .guard _ => .guard 0
  | .core _ => .core 0
  | .route _ => .route 0
  | .bridge _ => .bridge 0
  | .mbox _ => .mbox 0
  | .inst _ => .inst 0
  | pg => pg

/-- Face `f` holds the management grant: SEC_GRANT, which FACE_BIND.MGMT_GRANT shows (R274). -/
def State.granted? (s : State) (f : Nat) : Bool := (s.rd (.sec 0) .SEC_GRANT_MASK).testBit f

/-- INTERRUPT_SEND: to the INT_ROUTE target, or to firmware when the target face lacks the management grant (R63, R64);
`fire` sends a face's message. -/
def sendIntBy (fire : Nat → Nat → Upd) (pg : Pg) : Upd := look fun s =>
  let f := s.rd pg .INT_ROUTE_FACE
  match s.rd pg .INT_ROUTE_TARGET with
  | 0 => skip
  | 2 => if s.granted? f then fire f (s.rd pg .INT_ROUTE_VECTOR) else emit (.fwInt pg)
  | _ => emit (.fwInt pg)

/-- Set causes of a page by `set`; an interrupt goes out by `send` when INT_CAUSE AND INT_EN leaves zero (R63). -/
def causingBy (send : Pg → Upd) (pg : Pg) (set : Upd) : Upd := look fun s =>
  if s.unmasked pg == 0 then all [set, look fun t => when_ (t.unmasked pg != 0) (send pg)] else set

/-- Count `n` more on counter `i` of a page, with its saturation and the CNT_SAT interrupt (R66, R67). -/
def addCntBy (send : Pg → Upd) (pg : Pg) (i n : Nat) : Upd := look fun s =>
  all [addCntRaw pg i n,
       look fun t => when_ (clearBits (t.rd pg .CNT_STAT_SAT) (s.rd pg .CNT_STAT_SAT) &&& s.rd pg .CNT_SAT_EN_SAT_EN != 0) <|
         causingBy send pg (wr pg .INT_CAUSE_CNT_SAT 1)]

/-- A destination noted with its last address. -/
def noteDest (l : List (Nat × Nat)) (k a : Nat) : List (Nat × Nat) := (l.filter fun e => e.1 != k) ++ [(k, a)]

/-- Destinations as records of a queue. -/
def packDest (e : Nat × Nat) : Nat := e.1 + 8193 * e.2
def unpackDest (n : Nat) : Nat × Nat := (n % 8193, n / 8193)

/-- A posted write toward FEID `k` (8,192 for the own host) at address `a` is kept in queue `q` for the flushes that may follow. -/
def noteIn (q : Fifo) (i k a : Nat) : Upd := look fun s =>
  putFifo q ((noteDest ((s.fifo q i).map unpackDest) k a).map packDest) i

/-- The bound instance of face `f` whose vectors include `vec` (R498). -/
def State.vecOwner? (s : State) (f vec : Nat) : Option Nat :=
  firstBelow 1024 fun v => s.on (.inst 2) .INST_STAT_BOUND v && s.rd (.inst 2) .INST_STAT_FACE v == f &&
    s.rd (.inst 3) .INST_VI_CFG_CFG2_VEC_BASE v ≤ vec &&
    vec < s.rd (.inst 3) .INST_VI_CFG_CFG2_VEC_BASE v + 2 ^ s.rd (.inst 3) .INST_VI_CFG_CFG2_VEC_LOG2 v

/-- An MSI-X message is a posted write on the face's link: a flush read of its sender goes behind it (R295, R503). -/
def noteMsix (f vec : Nat) : Upd := look fun s =>
  let a := s.iv .msixAddr (2048 * f + vec)
  match s.vecOwner? f vec with
  | some v => noteIn .viWrote v 8192 a
  | none => noteIn .faceWrote f 8192 a

/-- An interrupt source fires for vector `vec` of face `f` (R277, R278). The message is counted in counter 3 of the face, whose
saturation may send one message more, of another face at most `n` times over: a group's SAT bit rises once. -/
def msixFireN : Nat → Nat → Nat → Upd
  | 0, f, vec => put .msixPend 1 (2048 * f + vec)
  | n + 1, f, vec => look fun s =>
    let i := 2048 * f + vec
    if s.msixOpen f && s.ivOn .msixOpen i then
      all [emit (.msix f vec (s.iv .msixAddr i) (s.iv .msixData i)), noteMsix f vec, addCntBy (sendIntBy (msixFireN n)) (.face f) 3 1]
    else put .msixPend 1 i

/-- An interrupt source fires for vector `vec` of face `f` (R277, R278). -/
def msixFire (f vec : Nat) : Upd := msixFireN 34 f vec

/-- When the last condition of R277 comes to hold, one message goes out for each pending vector. -/
def msixFlush (f : Nat) : Upd := look fun s =>
  when_ (s.msixOpen f) <|
    forEach ((List.range 2048).filter fun v => s.ivOn .msixPend (2048 * f + v) && s.ivOn .msixOpen (2048 * f + v)) fun v =>
      all [put .msixPend 0 (2048 * f + v), msixFire f v]

/-- INTERRUPT_SEND (R63, R64). -/
def sendInt (pg : Pg) : Upd := sendIntBy msixFire pg

/-- Set causes of a page by `set`, with the interrupt that this sends (R63). -/
def causing (pg : Pg) (set : Upd) : Upd := causingBy sendInt pg set

/-- Set block cause bit `k`. -/
def blkInt (pg : Pg) (k : Nat) : Upd := look fun s =>
  causing pg (wr pg .INT_CAUSE_BLK_INT (setBit (s.rd pg .INT_CAUSE_BLK_INT) k))

/-- Count `n` more on counter `i` of a page, with its saturation and the CNT_SAT interrupt (R66, R67). -/
def addCnt (pg : Pg) (i n : Nat) : Upd := addCntBy sendInt pg i n

/-- Count one. -/
def bump (pg : Pg) (i : Nat) : Upd := addCnt pg i 1

/-! ### Error records (R628, Table GUARD-9) -/

/-- The 48-bit cycle number (R28): SCHED_CYC_INIT before the first lock (spec/11). -/
def State.cycleNum (s : State) : Nat :=
  if s.on .schedg .SCHED_CYC_STAT_EVER_LOCKED then s.rd .schedg .SCHED_CYC_NUM_CYCLE + s.rd .schedg .SCHED_CYC_NUM_CYCLE_HI <<< 32
  else s.rd .schedg .SCHED_CYC_INIT_CYCLE + s.rd .schedg .SCHED_CYC_INIT_CYCLE_HI <<< 32

/-- What an error record says beside its time (Table GUARD-9). -/
structure Rec where
  cls : Cls
  domain : Nat
  kind : Nat
  block : Nat
  bit : Nat
  page : Nat
  dinst : Nat
  detail0 : Nat
  detail1 : Nat
deriving DecidableEq, Repr

/-- The kinds of a record. -/
def Rec.ERROR : Nat := 0
def Rec.CONTAIN : Nat := 1
def Rec.RELEASE : Nat := 2
def Rec.RECOVERY_FAIL : Nat := 3
def Rec.POWER_QUIESCE : Nat := 4
def Rec.SAFE_HALT : Nat := 5

/-- The 256 bits of a record, VALID set. -/
def Rec.word (r : Rec) (time cycle seq : Nat) : Nat :=
  1 <<< 31 + r.cls.code <<< 29 + (r.domain % 8) <<< 26 + (r.kind % 8) <<< 23 + (r.block % 32) <<< 16 + r.bit % 32
    + ((r.page % 65536) <<< 16 + r.dinst % 65536) <<< 32
    + (time % 2 ^ 64) <<< 64
    + (cycle % 2 ^ 32) <<< 128
    + ((seq % 65536) <<< 16 + bits cycle 47 32) <<< 160
    + (r.detail0 % 2 ^ 32) <<< 192 + (r.detail1 % 2 ^ 32) <<< 224

/-- True for a record of an unmasked CE bit: the kind that gives way when the log is full. -/
def isCeRecord (w : Nat) : Bool := bits w 30 29 == 0 && bits w 25 23 == 0

/-! ### Errors (R58 to R61) -/

/-- The class of an error of a page: ERR_SEV, or the block table's default (R62). -/
def State.errClass (s : State) (pg : Pg) (e : Err) : Cls :=
  match s.iv .errSev (pg.base / 0x10000 * 32 + e.bit) with
  | 0 => e.dflt
  | v + 1 => .ofCode v

/-- The error table of a page, the four ACC bits with it. -/
def errTab : Pg → List Err
  | .lane _ => errsLANE ++ errsACC
  | .port _ => errsPORT ++ errsACC
  | .face _ => errsFACE ++ errsACC
  | .core 0 => errsCORE ++ errsACC
  | .route 0 => errsROUTE ++ errsACC
  | .bridge 0 => errsBRIDGE ++ errsACC
  | .bridge 4 => errsFAB ++ errsACC
  | .schedg => errsCYC ++ errsACC
  | .sched _ => errsSCHED ++ errsACC
  | .inst 0 => errsINST ++ errsACC
  | .moverg => errsMOVER ++ errsACC
  | .eng _ => errsENG ++ errsACC
  | .mbox 0 => errsMBOX ++ errsACC
  | .guard 0 => errsGUARD ++ errsACC
  | .sec 0 => errsSEC ++ errsACC
  | .pwr _ => errsPWR ++ errsACC
  | .mgmt 0 => errsMGMT ++ errsACC
  | _ => errsACC

/-- PORT_CFG.ROLE values. -/
def roleUP : Nat := 1
def roleDOWN : Nat := 2
def roleFAB : Nat := 3

/-- The domain of a port: LINK for a FAB port, PORT otherwise (Table GUARD-3). -/
def State.portDom (s : State) (p : Nat) : Dom :=
  if s.rd (.port p) .PORT_CFG_ROLE == roleFAB then .link p else .port p

/-- The bits of a channel's page that concern the port bound to it: OV_CUT, RETRYING and LATCHED (R676, Table GUARD-3). -/
def portBit (e : Err) : Bool := e.bit == 2 || e.bit == 8 || e.bit == 9

/-- The domain of a request that names none: the row of Table GUARD-3 for its page and bit. -/
def State.dfltDom (s : State) (pg : Pg) (e : Err) : ReqDom :=
  match pg with
  | .lane n => if 8 ≤ e.bit && e.bit < 16 then .dom (.lane (8 * n + e.bit - 8)) else .dom .device
  | .port p => .dom (s.portDom p)
  | .eng _ => .none
  | .face f => .dom (.face f)
  | .mgmt 0 => if e.bit ≤ 1 then .none else .dom .device
  | .pwr c => if portBit e then .dom (s.portDom (s.rd (.pwr c) .PWR_CH_CFG_PORT)) else .dom .device
  | _ => .dom .device

/-- The pages whose errors go to the faces that hold the management grant (Table GUARD-5, last row). -/
def State.aerPage (s : State) (pg : Pg) : Bool :=
  match pg with
  | .lane _ | .core _ | .route _ | .sched _ | .schedg | .bridge _ | .moverg | .eng _ | .mbox _ | .sec _ | .mgmt _
  | .guard _ => true
  | .port p => s.rd (.port p) .PORT_CFG_ROLE == roleFAB
  | _ => false

/-- The faces that hold the management grant. -/
def State.grantFaces (s : State) : List Nat := allBelow 32 s.granted?

/-- One error as it is recorded: its bit, the domain of its request (none for the table's own), and the FEID of the record. -/
structure Raised where
  err : Err
  dom : Option ReqDom := none
  detail0 : Nat := 0

/-- The captured error: the highest class, then the lowest bit (R61). -/
def firstOf (s : State) (pg : Pg) : List Raised → Option (Cls × Nat)
  | [] => none
  | r :: rest =>
    let c := s.errClass pg r.err
    match firstOf s pg rest with
    | none => some (c, r.err.bit)
    | some (c', b') => if c.code > c'.code || (c.code == c'.code && r.err.bit ≤ b') then some (c, r.err.bit) else some (c', b')

/-- The errors of a list whose bits are unmasked (R60). -/
def State.unmaskedErrs (s : State) (pg : Pg) (rs : List Raised) : List Raised :=
  rs.filter fun r => !(s.rd pg .ERR_MASK_MASK).testBit r.err.bit

/-- An error of the page reaches GUARD: of a channel's page not while the switch die is in reset (Table PWR-6), and its port
bits only while a port is bound (R684). -/
def State.asksGuard (s : State) (pg : Pg) (e : Err) : Bool :=
  match pg with
  | .pwr _ => !s.ivOn .dieReset && (s.on pg .PWR_CH_CFG_BIND_EN || !portBit e)
  | _ => true

/-- Sticky bits (R58) and containment requests by class (R59), masked or not. -/
def noteErrs (pg : Pg) (rs : List Raised) : Upd := look fun s =>
  all [
    wr pg .ERR_STICKY_BITS (rs.foldl (fun w r => setBit w r.err.bit) (s.rd pg .ERR_STICKY_BITS)),
    forEach (rs.filter fun r => s.errClass pg r.err != .ce && s.asksGuard pg r.err) fun r =>
      modGreqs (· ++ [{ pg := pg, bit := r.err.bit, cls := s.errClass pg r.err, dom := r.dom.getD (s.dfltDom pg r.err),
                        block := pg.block, detail0 := r.detail0, detail1 := 0, warn := false }])]

/-- First-error capture (R61) of unmasked errors of one core-clock cycle. -/
def captureErrs (pg : Pg) (unm : List Raised) : Upd := look fun s =>
  forSome (firstOf s pg unm) fun (c, b) =>
    if s.on pg .ERR_FIRST_VALID then wr pg .ERR_FIRST_MORE 1
    else all [wr pg .ERR_FIRST_VALID 1, wr pg .ERR_FIRST_CLASS c.code, wr pg .ERR_FIRST_INDEX b,
              wr pg .ERR_FIRST_MORE (b2n (unm.length > 1)), wr pg .ERR_FIRST_TS_TS s.now,
              wr pg .ERR_FIRST_TS_TS_HI (bits s.now 63 32)]

/-- INT_CAUSE.ERR and AER of unmasked errors (R60, R63, Table GUARD-5). -/
def reportErrs (pg : Pg) (unm : List Raised) : Upd := look fun s =>
  all [
    when_ (!unm.isEmpty) (causing pg (wr pg .INT_CAUSE_ERR 1)),
    when_ (s.aerPage pg) <| forEach unm fun r => forEach s.grantFaces fun f =>
      emit (.aer f .service (if s.errClass pg r.err == .ce then .corrInternal else .uncorrInternal))]

/-! ### The error log (R628, R629) -/

/-- Count `n` records lost: LOST, counter 14, and ELOG_FULL with its capture, interrupt and request (R629). The caller adds the
record that ELOG_FULL itself would write, which a full log discards too. -/
def elogLost (n : Nat) : Upd := look fun s =>
  let rs : List Raised := [{ err := .GUARD_ELOG_FULL }]
  let unm := s.unmaskedErrs (.guard 0) rs
  all [wr (.guard 0) .GUARD_ELOG_CTRL_LOST (min 65535 (s.rd (.guard 0) .GUARD_ELOG_CTRL_LOST + n)), addCnt (.guard 0) 14 n,
       noteErrs (.guard 0) rs, captureErrs (.guard 0) unm, reportErrs (.guard 0) unm]

/-- Write a record, in order of occurrence (R628). With 1,024 held, a CE record is discarded; another record replaces the
oldest CE record, or is discarded when none is held (R629). -/
def logRec (r : Rec) : Upd := look fun s =>
  let l := s.fifo .elog
  let w := r.word s.now s.cycleNum (s.iv .elogSeq)
  let full := Err.GUARD_ELOG_FULL.bit
  let again := b2n (s.errClass (.guard 0) .GUARD_ELOG_FULL == .ce &&
    !(s.rd (.guard 0) .ERR_STICKY_BITS).testBit full && !(s.rd (.guard 0) .ERR_MASK_MASK).testBit full)
  if l.length < 1024 then all [putFifo .elog (l ++ [w]), put .elogSeq ((s.iv .elogSeq + 1) % 65536)]
  else if isCeRecord w || !l.any isCeRecord then elogLost (1 + again)
  else all [putFifo .elog (l.eraseP isCeRecord ++ [w]), put .elogSeq ((s.iv .elogSeq + 1) % 65536), elogLost (1 + again)]

/-! ### Recording errors -/

/-- ERROR_CAPTURE: errors that a page records in one core-clock cycle: sticky bits, containment requests, and for the unmasked
ones the first-error capture, the log record of a CE bit that rises (R628), INT_CAUSE.ERR and AER. -/
def raiseAll (pg : Pg) (rs : List Raised) : Upd := look fun s =>
  let sticky := s.rd pg .ERR_STICKY_BITS
  let unm := s.unmaskedErrs pg rs
  all [
    noteErrs pg rs,
    captureErrs pg unm,
    forEach (unm.filter fun r => s.errClass pg r.err == .ce && !sticky.testBit r.err.bit) fun r =>
      logRec ⟨.ce, 7, Rec.ERROR, pg.block, r.err.bit, pg.index, 0, r.detail0, 0⟩,
    reportErrs pg unm]

/-- Record one error. -/
def raise (pg : Pg) (e : Err) : Upd := raiseAll pg [{ err := e }]

/-- Record one error whose request names domain `d`. -/
def raiseIn (pg : Pg) (e : Err) (d : Dom) : Upd := raiseAll pg [{ err := e, dom := some (.dom d) }]

/-- Record one error attributed to FEID `n` (Table GUARD-3: the domain of the source). -/
def raiseFor (pg : Pg) (e : Err) (n : Nat) : Upd := raiseAll pg [{ err := e, dom := some (.feid n), detail0 := n % 8192 }]

/-! ### Watermarks (R71, R72) -/

/-- The three fields of a WM_STAT register, where its page keeps them. -/
structure Wm where
  pg : Pg
  event : Fld
  level : Fld
  cross : Fld

/-- Watch a level `v` against its thresholds: 1 at `hi` or more, 0 below `lo`; each change is a crossing. -/
def watch (w : Wm) (v hi lo : Nat) : Upd := look fun s =>
  let was := s.on w.pg w.level
  let now := if hi ≤ v then true else if v < lo then false else was
  when_ (now != was) <| all [wr w.pg w.level (b2n now), wr w.pg w.event 1, wr w.pg w.cross (min 255 (s.rd w.pg w.cross + 1))]

/-! ### Free values -/

/-- Draw a free 32-bit value (the spec leaves the value open) and go on with it. -/
def drawWord (k : Nat → Upd) : Upd := look fun s => all [draw, k (Config.freeWord s.free).toNat]

/-- A free value of `n` words. -/
def drawWide : Nat → (Nat → Upd) → Upd
  | 0, k => k 0
  | n + 1, k => drawWord fun w => drawWide n fun r => k (w + r <<< 32)

end Sys2Proof.Machine
end

