-- ==== Sys2Proof/Machine/Frames.lean ====
section
/-! DEFINITION. What a frame is, beyond its fields: the bytes its header CRC covers, its credit pool, its stream, and the void
frame that takes its place (spec/10). -/

namespace Sys2Proof

/-- True for a request that expects a completion. -/
def Tlp.nonPosted (t : Tlp) : Bool :=
  match t.kind with
  | .memRd | .atomic | .cfgRd | .cfgWr => true
  | .memWr | .msg | .cpl => false


/-- Header bytes 0 to 29, HOPS and COLOUR taken as zero: what the header CRC covers (R408). -/
def Frame.headBytes (f : Frame) : List Nat :=
  let b01 := f.dest % 8192 + (f.cls % 8) <<< 13
  let b23 := f.src % 8192 + (f.parity % 2) <<< 13
  let b4 := f.typ % 16 + b2n f.mc <<< 4 + b2n f.retain <<< 5 + b2n f.lock <<< 6 + b2n f.resent <<< 7
  let b1819 := f.tag % 2 ^ 14 + b2n f.tagEp <<< 14 + b2n f.tagValid <<< 15
  bytesOf b01 2 ++ bytesOf b23 2 ++ [b4, 0] ++ bytesOf (f.len % 2 ^ 14) 2 ++ bytesOf f.seq 4 ++ bytesOf (f.group % 4096) 2 ++
    [f.ingSw % 64, f.egrSw % 64] ++ bytesOf f.epoch 2 ++ bytesOf b1819 2 ++ List.replicate 10 0

/-- The header CRC the header should have (R408). -/
def Frame.hcrcOf (f : Frame) : Nat := crc16 f.headBytes

/-- The frame with its header CRC computed. -/
def Frame.sealed (f : Frame) : Frame := { f with hcrc := f.hcrcOf }

/-- The bytes of a frame on a link (R407 to R409): header, payload, and a trailer with the CRC-32C over header bytes 0 to 29 and the
payload; a frame whose end-to-end check fails carries another value there. -/
def Frame.bytes (f : Frame) : List Nat :=
  let h := f.headBytes
  let head := h.take 3 ++ [h.getD 3 0 + (f.colour % 4) <<< 6, h.getD 4 0, f.hops % 256] ++ h.drop 6 ++ bytesOf f.hcrc 2
  let pay := (List.range (f.len - 40)).map fun i => (Config.payloadByte f.body i).toNat
  let e2e := crc32c (h ++ pay)
  head ++ pay ++ bytesOf (if f.e2eOk then e2e else e2e ^^^ 1) 4 ++ [b2n f.bad + b2n f.void <<< 1, 0, 0, 0]

/-- The data blocks that carry a frame on a link (R226): its bytes, or their ciphertext and the tag under the key (R248). -/
def Frame.blocks (f : Frame) (key : Option (BitVec 256 × BitVec 96)) (start : BitVec 64) : List (BitVec 64) :=
  match key with
  | none => dataBlocks (ceilDiv f.len 8) f.bytes
  | some (k, iv) =>
    let c := fun i => (Config.gcmByte k iv ((blkBytes start).take 7) f.bytes i).toNat
    dataBlocks (ceilDiv f.len 8) ((List.range f.len).map c) ++ dataBlocks 2 ((List.range 16).map fun i => c (f.len + i))

/-- The CTL pool. -/
def poolCTL : Nat := 3

/-- The pool, or credit type, of a TLP (Table PORT-8, R328). -/
def Tlp.pool (t : Tlp) : Nat := if t.kind == .cpl then 2 else if t.nonPosted then 1 else 0

/-- The pool of a frame (Table PORT-8). -/
def Frame.pool (f : Frame) : Nat :=
  match f.body with
  | .tlp t => t.pool
  | .release _ | .pathLoss .. | .marker _ | .linkStatus _ => poolCTL
  | .void => if f.tagValid then 1 else 0
  | _ => 0

/-- The void frame of a retained frame (R720). -/
def Frame.voided (f : Frame) : Frame :=
  { f with len := 40, body := .void, void := true, bad := false, e2eOk := true }.sealed

/-- The stream of a retained frame at its ingress edge. -/
def Frame.stream (f : Frame) : Nat := 8 * f.egrSw + f.cls

/-- REQ of a miss record. -/
def Frame.reqCode (f : Frame) : Nat :=
  match f.body with
  | .tlp t => (match t.kind with
    | .memRd => 0
    | .memWr => 1
    | .atomic => 2
    | .cfgRd => 3
    | .cfgWr => 4
    | .msg => 5
    | .cpl => 7)
  | .void => 7
  | _ => 6

/-- The last completion of its request: not successful, or its payload ends the Byte Count. -/
def Tlp.final (t : Tlp) : Bool := t.stat != .sc || t.addr.toNat ≤ t.len

/-- A completion without data. -/
def Tlp.answer (stat : CplStat) (rid tag : Nat) (cid : BitVec 16) : Tlp :=
  { kind := .cpl, hdr := 12, addr := 0, len := 0, rid := BitVec.ofNat 16 rid, tag := BitVec.ofNat 14 tag, ep := false, ro := false,
    ido := false, locked := false, stat := stat, cid := cid, low := 0, words := [] }

/-- The bytes of a TLP: a memory read carries no payload, and `len` is what it asks for. -/
def Tlp.bytes (t : Tlp) : Nat := if t.kind == .memRd then t.hdr else t.hdr + t.len

/-- The length of the Daend frame that carries a TLP whole. -/
def Tlp.frameLen (t : Tlp) : Nat := 40 + t.bytes

/-- The frame is a non-posted request. -/
def Frame.isNp (f : Frame) : Bool :=
  match f.body with
  | .tlp t => t.nonPosted
  | _ => false

/-- The frame is a completion. -/
def Frame.isCpl (f : Frame) : Bool :=
  match f.body with
  | .tlp t => t.kind == .cpl
  | _ => false

/-- The frame of a TLP with another TLP in it. -/
def Frame.withTlp (f : Frame) (t : Tlp) : Frame := { f with body := .tlp t, len := t.frameLen }

/-- A link-status frame, or another that its link's partner addresses to this switch itself (R403, R651, R700). -/
def Frame.linkLocal (f : Frame) : Bool := f.typ == 3 && f.hops == 0 && f.dest == 0 && !f.mc

/-- The Unlock message of a host on its way to the far port (R560). -/
def Frame.unlocks (f : Frame) : Bool :=
  f.lock && (match f.body with
    | .tlp t => t.kind == .msg
    | _ => false)

end Sys2Proof
end

