-- ==== Sys2Proof/Machine/Operands.lean ====
section
/-! DEFINITION. Operands: how a granted register write reaches its fields (Table PAGES-3), the page lock (R82), what a
discarded write tells its requester (R53), and the block formats of the Daend link (Table LANE-2, Table PORT-6). -/

namespace Sys2Proof.Machine

/-! ### Register writes -/

/-- The bits of a write at offset `off` that a locked page lets through (R82 and the block chapters). -/
def lockMask (pg : Pg) (off : Nat) : Nat :=
  if off == 0x20 || off == 0x30 || off == 0x40 || off == 0x8C || off == 0x80 || off == 0xF0 then 0xFFFFFFFF
  else match pg with
    | .port _ => if off == 0x110 then 0xFFFFFFFF else 0
    | .guard 1 => if 0x100 ≤ off then 0x80000000 else 0
    | .mgmt 0 => if off == 0x200 || off == 0x204 || off == 0x208 || 0x8000 ≤ off then 0xFFFFFFFF else 0
    | _ => 0

/-- What the requester of a discarded write sees (R53). A face gets Completer Abort in AER, with the stamp logged, unless every
error `es` that page `pg` records for the discard is masked there (R60). -/
def tellDiscard (st : Stamp) (pg : Pg) (es : List Err) : Upd :=
  match st with
  | .face f => look fun s =>
    when_ (es.isEmpty || es.any fun e => !(s.rd pg .ERR_MASK_MASK).testBit e.bit) <|
      all [put .aerStamp (1 + st.code) f, emit (.aer f .service .completerAbort)]
  | .gath => skip
  | _ => emit (.busError st)

/-- A write that the page lock discards (R82, R53). -/
def discardLocked (st : Stamp) (pg : Pg) : Upd := all [raise pg .ACC_LOCKED, tellDiscard st pg [.ACC_LOCKED]]

/-- The debug states (SEC_DEBUG.STATE). -/
def dbLOCKED : Nat := 0
def dbPENDING : Nat := 1
def dbUNLOCKED : Nat := 2

/-- Stamp `st` has a path into the space: DBG only while debug is unlocked (Table PAGES-4, R95, R661). -/
def State.pathOpen (s : State) (st : Stamp) : Bool := st != .dbg || s.rd (.sec 0) .SEC_DEBUG_STATE == dbUNLOCKED

/-- True while the page is locked (R81). -/
def State.locked (s : State) (pg : Pg) : Bool := pg.common && s.on pg .PAGE_LOCK_LOCKED

/-- The arbiter grants an access of stamp `st` on the page (R78). -/
def grant (st : Stamp) (pg : Pg) : Upd := put .arbLast (st.code + 1) (pg.base / 0x40)

/-- An access that needs a path of its stamp: without one it is never granted. -/
def onPath (st : Stamp) (u : Upd) : Upd := look fun s => when_ (s.pathOpen st) u

/-- A granted access of stamp `st` on the page. -/
def granting (st : Stamp) (pg : Pg) (u : Upd) : Upd := onPath st (all [grant st pg, u])

/-- A granted write to a register without a lock-exempt field of its own: the page lock is judged, then the register acts. -/
def granted (st : Stamp) (pg : Pg) (off : Nat) (u : Upd) : Upd := look fun s =>
  granting st pg (if s.locked pg && lockMask pg off == 0 then discardLocked st pg else u)

/-- The arbiter's rotation (R78): of the stamps that request a page, the first after the stamp `last` it granted last (`last` is
1 + that stamp, 0 after a cold or warm reset). -/
def arbNext (last : Nat) (reqs : List Nat) : Option Nat :=
  ((List.range 37).map fun k => (last + k) % 37).find? fun st => reqs.contains st

/-- The stamp that the arbiter grants on the page when these request it (R77, R78): one in a fabric cycle. -/
def State.arbPick (s : State) (pg : Pg) (reqs : List Stamp) : Option Nat :=
  arbNext (s.iv .arbLast (pg.base / 0x40)) (reqs.map Stamp.code)

/-- The fields of a table at offset `off`, with their entry in the register's array. -/
def atOff (l : List Fld) (off : Nat) : List (Fld × Nat) :=
  l.filterMap fun f =>
    if f.count ≤ 1 then (if off == f.off then some (f, 0) else none)
    else if f.stride != 0 && f.off ≤ off && (off - f.off) % f.stride == 0 && (off - f.off) / f.stride < f.count then
      some (f, (off - f.off) / f.stride) else none

/-- The fields at offset `off` of a page, with their entry in the register's array. -/
def fieldsAt (pg : Pg) (off : Nat) : List (Fld × Nat) := atOff pg.fields off

/-- The bits of `v` that belong to a field. -/
def Fld.of (f : Fld) (v : Nat) : Nat := (v >>> f.lo) % 2 ^ f.width

/-- One field under a write of `v` to its register (Table PAGES-3). A W1S field acts as its register's rule says and a WO
field as it defines; neither is stored. -/
def writeField (st : Stamp) (pg : Pg) (v : Nat) (fi : Fld × Nat) : Upd :=
  let (f, i) := fi
  match f.ty with
  | .rw => if f.perStamp then wrSt st.code pg f (f.of v) i else wr pg f (f.of v) i
  | .w1c => look fun s => wr pg f (clearBits (s.rd pg f i) (f.of v)) i
  | .ro | .w1s | .wo | .rc | .ra | .rsv => skip

/-- A write of `v` to the register at `off`, on each of its fields by access type (R43). -/
def plainWrite (st : Stamp) (pg : Pg) (off v : Nat) : Upd := forEach (fieldsAt pg off) (writeField st pg v)

/-- A granted write of `v` to a register that acts by its fields' types and then by `eff`. -/
def writeThen (st : Stamp) (pg : Pg) (off v : Nat) (eff : Upd) : Upd :=
  granted st pg off (all [plainWrite st pg off v, eff])

/-- The page whose header records what goes wrong at an access to `pg` (R40, R511). -/
def errPage : Pg → Pg
  | .ring _ => .moverg
  | .tenant _ => .inst 0
  | pg => pg

/-! ### Upper-commit registers (R49) -/

/-- Where a stamp's low dword of the register at `off` is held. -/
def upperIdx (st : Stamp) (pg : Pg) (off : Nat) : Nat := 2 ^ 32 * st.code + pg.base + off

/-- A write of the low dword is held, with a note when its byte enables are not all set and one when it is poisoned: the rules
that discard a write judge it with the high dword. -/
def upperHold (st : Stamp) (pg : Pg) (off v : Nat) (full : Bool) (ep : Bool := false) : Upd :=
  put .upperLow (2 ^ 34 * b2n ep + 2 ^ 33 + 2 ^ 32 * b2n (!full) + v % 2 ^ 32) (upperIdx st pg off)

/-- The low dword of a register that a stamp has written and not committed is discarded. -/
def upperDrop (st : Stamp) (pg : Pg) (off : Nat) : Upd := put .upperLow 0 (upperIdx st pg off)

/-- The dword at `off` of a page, from its fields. -/
def State.dwordAt (s : State) (pg : Pg) (off : Nat) : Nat := ((fieldsAt pg off).map fun fi => s.rd pg fi.1 fi.2 <<< fi.1.lo).sum

/-- A write of the high dword of the register at `off`: the held low dword, or the present one when none is held, goes to `u`
with it, unless the lock, a byte enable or poison (R610) discards both. `e` is the page that records the discard. -/
def upperCommit (st : Stamp) (pg e : Pg) (off : Nat) (full : Bool) (u : Nat → Upd) (ep : Bool := false) : Upd := look fun s =>
  let h := s.iv .upperLow (upperIdx st pg off)
  let part := !full || h.testBit 32
  let bad := (if part then [Err.ACC_PARTIAL] else []) ++ if s.locked pg then [Err.ACC_LOCKED] else []
  all [upperDrop st pg off,
       if bad.isEmpty && !(ep || h.testBit 34) then u (if h == 0 then s.dwordAt pg off else h % 2 ^ 32)
       else all [when_ (!bad.isEmpty) (raiseAll e (bad.map fun x => { err := x })), tellDiscard st e (if ep || h.testBit 34 then [] else bad)]]

/-! ### Blocks of the Daend link -/

/-- Byte `k` of a block's payload, byte 0 in bits 7:0. -/
def blkByte (b : BitVec 64) (k : Nat) : Nat := byteOf b.toNat k

/-- A valid ALIGN block (R172). -/
def alignValid (b : BitVec 64) : Bool :=
  blkByte b 0 == 0x5A && blkByte b 5 == 0xC3 && blkByte b 6 == 0x96 && blkByte b 7 == 255 - blkByte b 1

/-- The ALIGN block of a logical lane with the given count (Table LANE-2). -/
def alignBlock (logical count : Nat) : Nat :=
  ofBytes ([0x5A, logical % 16] ++ bytesOf (count % 2 ^ 24) 3 ++ [0xC3, 0x96, 255 - logical % 16])

/-- CRC-8 of a link-layer control block over bytes 0 to 6 (R225). -/
def blkCrcOk (b : BitVec 64) : Bool := crc8 (bytesOf b.toNat 7) == blkByte b 7

/-! ### Messages that reach SEC through firmware (R647) -/

/-- Firmware runs: it has been started, and neither restarts nor is dead (R693, R694). -/
def State.fwRuns (s : State) : Bool :=
  s.rd (.mgmt 0) .MGMT_FW_STAT_STATE == 0 && s.rd .glb .GLB_DEV_STATE_FW_SLOT != 3

/-- SEC answers. -/
def spdmAnswer (ch : DoeOrMctp) (r : SpdmRsp) : Upd := emit (.spdm (ch.map (·.val)) r)

/-- SEC refuses. -/
def spdmRefuse (ch : DoeOrMctp) : Upd := all [raise (.sec 0) .SEC_SPDM_REFUSED, spdmAnswer ch .error]

/-- A message reaches SEC through firmware, over MCTP by an SMBus port that is enabled, where it counts (R716); while firmware is
stalled a DOE is busy, and sideband is silent. -/
def throughFirmware (ch : DoeOrMctp) (u : Upd) : Upd := look fun s =>
  match ch with
  | some f => if s.fwRuns then u else emit (.doeBusy f)
  | none => when_ (s.fwRuns && (List.range 4).any fun k => s.on (.mgmt 2) .MGMT_SMB_CFG_EN k) (all [bump (.mgmt 0) 5, u])

/-- A vendor-defined message: IDE_KM and TDISP act only inside a session on the DOE of a face, and SEC refuses them over MCTP. -/
def inSession (ch : DoeOrMctp) (u : FaceId → Upd) : Upd := throughFirmware ch <| look fun s =>
  match ch with
  | none => spdmRefuse ch
  | some f => if s.ivOn .spdmSess f then u f else spdmRefuse ch

/-! ### Owner signatures (R635, Tables PLATE-8 and SCHED-5) -/

/-- The public key in slot `k` of the current ownership record, none for an empty slot. -/
def State.ownerKey? (s : State) (k : Nat) : Option Nat :=
  if k < 4 && s.iv .ownKey k != 0 then some (s.iv .ownKey k) else none

/-- SHA-384 of the ownership record's four keys (Table SEC-9). -/
def State.ownerDigest (s : State) : List Nat := sha384 ((List.range 4).flatMap fun k => bytesOf (s.iv .ownKey k) 96)

/-- BRIDGE_DOMAIN_ID as one number. -/
def State.domainId (s : State) : Nat :=
  s.rd (.bridge 4) .BRIDGE_DOMAIN_ID_0 + s.rd (.bridge 4) .BRIDGE_DOMAIN_ID_1 <<< 32
    + s.rd (.bridge 4) .BRIDGE_DOMAIN_ID_2 <<< 64 + s.rd (.bridge 4) .BRIDGE_DOMAIN_ID_3 <<< 96

/-- The bytes of a signed block, from its 48 dwords. -/
def blockBytes (dw : Nat → Nat) : List Nat := (List.range 48).flatMap fun j => bytesOf (dw j) 4

/-- SIGNATURE of a signed block verifies under the owner key in its KEY_SLOT. -/
def State.blockSigned (s : State) (dw : Nat → Nat) : Bool :=
  let bs := blockBytes dw
  (s.ownerKey? (bs.getD 6 0)).any fun key => signedBy key (bs.take 0x60) (bs.drop 0x60)

/-- DIGEST of a signed block is the SHA-384 of `data`. -/
def blockDigest (dw : Nat → Nat) (data : List Nat) : Bool := ((blockBytes dw).drop 0x20).take 48 == sha384 data

end Sys2Proof.Machine
end

