-- ==== Sys2Proof/Machine/Lane.lean ====
section
/-! DEFINITION. The lane array (spec/05): PLLs, alignment, equalisation, Rest and test features of single lanes. What takes a
port with it (lane failure, the end of training) stands in Port.lean. -/

namespace Sys2Proof.Machine

/-- The register field `f` of lane `l`. -/
def State.ln (s : State) (l : Nat) (f : Fld) : Nat := s.rd (.lane (l / 8)) f (l % 8)

/-- Write register field `f` of lane `l`. -/
def wln (l : Nat) (f : Fld) (v : Nat) : Upd := wr (.lane (l / 8)) f v (l % 8)

/-- Count on counter `k` of lane `l` (Table LANE-12). -/
def laneCnt (l k n : Nat) : Upd := addCnt (.lane (l / 8)) (16 * (l % 8) + k) n

/-- Codes of LANE_STAT.STATE (Table LANE-6). -/
def laneOFF : Nat := 0
def laneTRAIN : Nat := 1
def laneACTIVE : Nat := 2
def laneREST : Nat := 3
def laneTEST : Nat := 4

/-- Codes of LANE_RATE_CFG.MODE. -/
def modePCIe : Nat := 1
def modeDaend : Nat := 2

/-- The state of lane `l`. -/
def State.laneState (s : State) (l : Nat) : Nat := s.ln l .LANE_STAT_STATE

/-- The rate code of a Daend lane in its octet (LANE_RATE_CFG.RATE_NOW: 0x8 to 0xA). -/
def State.daendRate (s : State) (oct : Nat) : Nat := 7 + s.rd (.lane oct) .LANE_OCT_CFG_B_RATE

/-- The lane goes to OFF: its receiver state is gone, and an error injection that still ran with it. -/
def laneOff (l : Nat) : Upd :=
  all [wln l .LANE_STAT_STATE laneOFF, wln l .LANE_STAT_FEC_LOCK 0, wln l .LANE_STAT_ALIGN_LOCK 0, wln l .LANE_STAT_CDR_LOCK 0,
       wln l .LANE_STAT_RX_READY 0, wln l .LANE_STAT_EQ_DONE 0, wln l .LANE_RATE_CFG_RATE_NOW 0, wln l .LANE_REST_CTRL_IN_REST 0,
       wln l .LANE_INJ_CTRL_ONE_SHOT 0,
       put .alignSeen 0 l, put .alignMiss 0 l, put .partnerReady 0 l, put .eqTimeouts 0 l, put .injAlign 0 l,
       put .rxRest 0 l, put .ownReq 0 l, put .peerReq 0 l, put .badCw 0 l]

/-! ### PLLs (R162) -/

/-- A lane of octet `oct` needs its B-PLL (Daend) or its A-PLL (PCI Express): a port has claimed it for that protocol, or it is in
TEST at a rate of it. -/
def State.needsPll (s : State) (oct : Nat) (isB : Bool) : Bool :=
  ((List.range 8).map (8 * oct + ·)).any fun l =>
    s.ln l .LANE_RATE_CFG_MODE == (if isB then modeDaend else modePCIe) ||
      (s.laneState l == laneTEST && s.ln l .LANE_PRBS_CTRL_TEST_RATE != 0 && (8 ≤ s.ln l .LANE_PRBS_CTRL_TEST_RATE) == isB)

/-- A PLL that no lane of its octet needs any more stops: its lock is gone. -/
def pllSettle (oct : Nat) : Upd := look fun s =>
  all [when_ (!s.needsPll oct false) (wr (.lane oct) .LANE_OCT_STAT_A_LOCK 0),
       when_ (!s.needsPll oct true) (wr (.lane oct) .LANE_OCT_STAT_B_LOCK 0)]

/-! ### What a lane sends (R167 to R169, R185) -/

/-- A block goes out on lane `l`. -/
def sendBlk (l hdr : Nat) (w : BitVec 64) : Upd := look fun s =>
  modCoder l fun c => c.send (s.ln l .LANE_RATE_CFG_TX_INV == 1) hdr w

/-- The transmitter's taps (R174). -/
def setTaps (l pre post : Nat) : Upd :=
  all [wln l .LANE_TX_TAPS_PRE pre, wln l .LANE_TX_TAPS_POST post, wln l .LANE_TX_TAPS_C0 (48 - pre - post)]

/-- The limits of R174. -/
def tapsOk (pre post : Nat) : Bool := pre ≤ 12 && post ≤ 16 && 2 * (pre + post) + 16 ≤ 48

/-- PRE and POST of a Daend preset (Table LANE-4). -/
def presetTaps : Nat → Nat × Nat
  | 0 => (0, 0)
  | 1 => (3, 6)
  | 2 => (5, 10)
  | _ => (2, 4)

/-- A fraction in thousandths, rounded to the nearest unit of 1/48 (R175). -/
def round48 (milli : Nat) : Nat := (milli * 48 + 500) / 1000

/-- PRE and POST of PCI Express preset `k` at rate code `r`, in units of 1/48 (R175). -/
def pcieTaps (r k : Nat) : Nat × Nat := (round48 (Config.pciePreset r k).1, round48 (Config.pciePreset r k).2)

/-- The lane starts training: TRAIN, FAILED and the last exchange's results cleared, the initial preset on a Daend lane in
AUTO mode (LANE_EQ_CTRL.INIT_PRESET). A PCI Express lane advertises FS = 48 and LF = 16 (R174). -/
def laneTrain (l : Nat) : Upd := look fun s =>
  let daend := s.ln l .LANE_RATE_CFG_MODE == modeDaend
  let t := presetTaps (s.ln l .LANE_EQ_CTRL_INIT_PRESET)
  all [laneOff l, wln l .LANE_STAT_STATE laneTRAIN, wln l .LANE_STAT_FAILED 0, wln l .LANE_STAT_EQ_FAIL 0,
       wln l .LANE_STAT_EXIT_FAIL 0, put .preStat 0 l, put .postStat 0 l, put .presetStat 0 l,
       wln l .LANE_RATE_CFG_RATE_NOW (if daend then s.daendRate (l / 8) else 1),
       if daend then when_ (s.ln l .LANE_EQ_CTRL_MODE == 0) (setTaps l t.1 t.2) else emit (.pcieAdvert l 48 16)]

/-! ### Coding (R169 to R172) -/

/-- CODEWORD_RECEIVED (R170): up to 15 symbol errors are corrected and counted; a codeword with more is uncorrectable, and
its blocks go to the link layer marked bad, so that a frame with a block in it is bad (`State.laneBad`). A lane without codeword
boundaries decodes none. -/
def execCodewordReceived (l : LaneId) (symErrs : Nat) : State → Answer := Upd.answer <| look fun s =>
  when_ (s.ln l .LANE_STAT_FEC_LOCK != 0) <|
    all [laneCnt l 0 1, put .badCw (b2n (uncorrectable symErrs)) l,
         when_ (1 ≤ symErrs && !uncorrectable symErrs) (all [laneCnt l 1 1, laneCnt l 2 symErrs]),
         when_ (uncorrectable symErrs) (laneCnt l 3 1)]

/-- FILLER_RECEIVED (R169): the block is deleted before the link layer, and counted. -/
def execFillerReceived (l : LaneId) : State → Answer := Upd.answer (laneCnt l 5 1)

/-- Send an ALIGN block of lane `l`: the count advances modulo 2^24, and a block marked for error injection goes out with a
wrong byte 7 (R171, R199). -/
def sendAlign (l : Nat) : Upd := look fun s =>
  let b := alignBlock (s.iv .laneNum l) (s.iv .alignTx l)
  let n := s.iv .injAlign l
  let blk := if n == 0 then b else b ^^^ 1 <<< 56
  all [emit (.alignBlock l blk), sendBlk l hdrCTL (BitVec.ofNat 64 blk), put .alignTx ((s.iv .alignTx l + 1) % 2 ^ 24) l,
       put .injAlign (n - 1) l, when_ (n == 1) (wln l .LANE_INJ_CTRL_ONE_SHOT 0)]

/-- FEC_DEGRADE (R196): the bit is set and the lane keeps carrying traffic. A lane whose receiver runs is degraded also while its
own transmit direction rests; R197 exempts lane failures alone. -/
def execFecDegrade (l : LaneId) : State → Answer := Upd.answer <| look fun s =>
  when_ (s.ln l .LANE_RATE_CFG_MODE == modeDaend && s.ln l .LANE_STAT_FEC_LOCK == 1 && !s.ivOn .rxRest l)
    (raise (.lane (l / 8)) (.LANE_FEC_DEGRADE (l % 8)))

/-! ### Equalisation (R174 to R184) -/

/-- Answer codes of a status field (Table LANE-5). -/
def eqUPDATED : Nat := 1
def eqATLIMIT : Nat := 2
def eqHELD : Nat := 3

/-- The status word the lane reports (Table LANE-5). -/
def State.statusWord (s : State) (l : Nat) : Nat :=
  s.iv .preStat l <<< 14 + s.iv .postStat l <<< 12 + s.iv .presetStat l <<< 10 + s.ln l .LANE_STAT_RX_READY <<< 9

/-- One unit more or less on a magnitude (INC 0b01, DEC 0b10), none where it would fall below 0. -/
def stepTap (req v : Nat) : Option Nat :=
  match req with
  | 1 => some (v + 1)
  | _ => if v = 0 then none else some (v - 1)

/-- A coefficient field's request on `x`, the answer kept until HOLD (R176, R178, R181). `new` gives the taps with the
magnitude moved. -/
def coeffField (l req : Nat) (x : Var) (v : Nat) (new : Nat → Nat × Nat) : Upd := look fun s =>
  if req == 0 || req == 3 then put x 0 l
  else if s.iv x l != 0 then skip
  else if s.ln l .LANE_EQ_CTRL_MODE == 1 then put x eqHELD l
  else match (stepTap req v).map new with
    | none => put x eqATLIMIT l
    | some (a, b) => if tapsOk a b then all [setTaps l a b, put x eqUPDATED l] else put x eqATLIMIT l

/-- The answer to a Daend control word (R176 to R178, R181): a preset is applied and the coefficient fields of the word ignored;
otherwise each field moves its magnitude by one unit, is answered AT_LIMIT where R174 would break, or HELD in MANUAL. A request
already answered changes nothing until HOLD. -/
def coeffAnswer (l w : Nat) : Upd :=
  if w.testBit 11 then
    look fun t =>
      if t.iv .presetStat l != 0 then skip
      else if t.ln l .LANE_EQ_CTRL_MODE == 1 then put .presetStat eqHELD l
      else all [setTaps l (presetTaps (bits w 10 9)).1 (presetTaps (bits w 10 9)).2, put .presetStat eqUPDATED l]
  else
    all [put .presetStat 0 l,
         look fun t => coeffField l (bits w 15 14) .preStat (t.ln l .LANE_TX_TAPS_PRE)
           fun v => (v, t.ln l .LANE_TX_TAPS_POST),
         look fun t => coeffField l (bits w 13 12) .postStat (t.ln l .LANE_TX_TAPS_POST)
           fun v => (t.ln l .LANE_TX_TAPS_PRE, v)]

/-- The answer to a PCI Express request: in AUTO a preset, rounded, or coefficients that meet R174 come into use; every other
request is rejected (R175, R178, R181). A Daend word has no meaning on such a lane, and is rejected. -/
def pcieAnswer (l : Nat) (req : EqReq) : Upd := look fun s =>
  let t := match req with
    | .preset k => some (pcieTaps (s.ln l .LANE_RATE_CFG_RATE_NOW) k)
    | .coeffs a b => some (a.val, b.val)
    | .daend _ => none
  match t with
  | some (a, b) => if s.ln l .LANE_EQ_CTRL_MODE == 0 && tapsOk a b then setTaps l a b else emit (.pcieReject l)
  | none => emit (.pcieReject l)

/-- COEFF_APPLY (R175 to R178, R181). -/
def execCoeffApply (l : LaneId) (req : EqReq) : State → Answer := Upd.answer <| look fun s =>
  when_ (s.laneState l == laneTRAIN) <|
    if s.ln l .LANE_RATE_CFG_MODE == modeDaend then
      match req with
      | .daend w => all [coeffAnswer l w.toNat, look fun t => emit (.eqStatus l (t.statusWord l))]
      | _ => skip
    else when_ (s.ln l .LANE_RATE_CFG_MODE == modePCIe) (pcieAnswer l req)

/-! ### The lane's own requests (R179, R180) -/

/-- The control word a lane sends (Table LANE-5): its requests, and its logical number. -/
def State.controlWord (s : State) (l : Nat) : Nat := s.iv .ownReq l <<< 9 + s.iv .laneNum l % 16

/-- A TRAIN block of lane `l` with its control and status words (Table PORT-6). -/
def sendTrain (l phase width : Nat) : Upd := look fun s =>
  all [emit (.trainOut l (s.controlWord l) (s.statusWord l) phase),
       sendBlk l hdrCTL (ctlBlk 0x33 (s.controlWord l + s.statusWord l <<< 16 + (s.iv .laneNum l % 16 + phase <<< 4) <<< 32
         + width <<< 40))]

/-- One field of the own requests, `own` and `want` its codes and `stat` the partner's status of it (R179): a request is held until
the status is not NOT_UPDATED, and becomes HOLD then; a new one starts only when the status has returned to NOT_UPDATED. -/
def nextReq (own want stat : Nat) : Nat := if own != 0 then (if stat != 0 then 0 else own) else if stat == 0 then want else 0

/-- The own requests after a TRAIN block with status word `st` (R179): `want` in the layout of the control word's bits 15:9. A
preset is asked for alone, and neither end's receiver asks for more once it is ready. -/
def nextOwn (own want st : Nat) : Nat :=
  let pre := nextReq (bits own 6 5) (bits want 6 5 % 3) (bits st 15 14)
  let post := nextReq (bits own 4 3) (bits want 4 3 % 3) (bits st 13 12)
  let set := nextReq (bits own 2 2) (bits want 2 2) (bits st 11 10)
  if set != 0 then 4 + (if bits own 2 2 != 0 then bits own 1 0 else bits want 1 0) else pre <<< 5 + post <<< 3

/-- Requests in a word's bits 15:9 that `old` does not hold: each field that leaves HOLD is one. -/
def newReqs (old w : Nat) : Nat :=
  let asks := fun c => c == 1 || c == 2
  b2n (asks (bits w 6 5) && bits old 6 5 == 0) + b2n (asks (bits w 4 3) && bits old 4 3 == 0) + b2n (w.testBit 2 && !old.testBit 2)

/-- A TRAIN block has come with control word `control` and status word `status`: the partner's new requests are counted, and the own
requests move on. -/
def exchange (l control status want : Nat) : Upd := look fun s =>
  let own := nextOwn (s.iv .ownReq l) (if s.ln l .LANE_STAT_RX_READY == 1 then 0 else want) status
  all [when_ (newReqs (s.iv .peerReq l) (control / 512) != 0) (laneCnt l 9 (newReqs (s.iv .peerReq l) (control / 512))),
       put .peerReq (control / 512) l,
       when_ (newReqs (s.iv .ownReq l) own != 0) (laneCnt l 10 (newReqs (s.iv .ownReq l) own)), put .ownReq own l]

/-- EQ_RESP_TIMEOUT (R180): the request goes out again, or EQ_FAIL is reported after RETRIES timeouts on the lane, whatever was
answered between them. RETRIES = 0 lies outside the field's range of 1 to 15 and acts as 1 (DESIGN CHOICE, log entry 176). -/
def execEqRespTimeout (l : LaneId) : State → Answer := Upd.answer <| look fun s =>
  let n := s.iv .eqTimeouts l + 1
  when_ (s.ln l .LANE_RATE_CFG_MODE == modeDaend && s.laneState l == laneTRAIN) <|
    all [put .eqTimeouts n l,
         if max 1 (s.ln l .LANE_EQ_CTRL_RETRIES) ≤ n then wln l .LANE_STAT_EQ_FAIL 1
         else all [emit (.trainRequest l), laneCnt l 10 1]]

/-- The offset of lane `l`'s register `off` in its octet page. -/
def laneReg (l off : Nat) : Nat := 0x400 + (l % 8) * 0x80 + off

/-- A write of `v` to LANE_TX_TAPS (R182): all three taps at once, in MANUAL and within R174; refused otherwise. -/
def tapsWrite (l v : Nat) : Upd := look fun s =>
  let pre := bits v 3 0
  let post := bits v 12 8
  if s.ln l .LANE_EQ_CTRL_MODE == 1 && tapsOk pre post && bits v 21 16 == 48 - pre - post then setTaps l pre post
  else raise (.lane (l / 8)) .LANE_CTRL_REFUSED

/-- TX_TAPS_WRITE. -/
def execTxTapsWrite (st : Stamp) (l : LaneId) (v : Word) : State → Answer := Upd.answer <|
  granted st (.lane (l / 8)) (laneReg l 0x0C) (tapsWrite l v.toNat)

/-- A write of `v` to LANE_EQ_CTRL: on a change to MANUAL the taps in use stay, and a request in progress is answered HELD
(R183). -/
def eqCtrlWrite (st : Stamp) (l v : Nat) : Upd := look fun s =>
  let toManual := s.ln l .LANE_EQ_CTRL_MODE == 0 && v.testBit 0
  all [plainWrite st (.lane (l / 8)) (laneReg l 0x08) v,
       when_ (toManual && s.laneState l == laneTRAIN) <|
         all [when_ (s.iv .preStat l != 0) (put .preStat eqHELD l), when_ (s.iv .postStat l != 0) (put .postStat eqHELD l),
              when_ (s.iv .presetStat l != 0) (put .presetStat eqHELD l)]]

/-- EQ_MODE_WRITE. -/
def execEqModeWrite (st : Stamp) (l : LaneId) (v : Word) : State → Answer := Upd.answer <|
  granted st (.lane (l / 8)) (laneReg l 0x08) (eqCtrlWrite st l v.toNat)

/-! ### Test features (R198 to R201) -/

/-- The bits by which the 64-bit word received over and over, slipped by `slip` UI, differs from the user pattern (R200). -/
def slipErrs (word pat : BitVec 64) (slip : Nat) : Nat := ((payBits (word.rotateRight (slip % 64) ^^^ pat)).filter id).length

/-- LANE_USER_PAT. -/
def State.userPat (s : State) (l : Nat) : BitVec 64 :=
  BitVec.ofNat 64 (s.ln l .LANE_USER_PAT_PAT + s.ln l .LANE_USER_PAT_PAT_HI <<< 32)

/-- PRBS_CHECKER_LOCK (R200, R201): in TEST the checker compares received bits. A self-seeding checker locks on 256 bits free of
errors, and counts bits and errors from then on; one in reference mode counts from the start, and with the user pattern what it
compares is the received word at the boundary that LANE_SLIP has set. -/
def execPrbsCheckerLock (l : LaneId) (word : BitVec 64) (n errs : Nat) : State → Answer := Upd.answer <| look fun s =>
  let count := fun bits bad => all [addCnt (.lane (l / 8)) (0x8000 + 2 * (l % 8)) bad, addCnt (.lane (l / 8)) (0x8001 + 2 * (l % 8)) bits]
  when_ (s.laneState l == laneTEST && s.ln l .LANE_PRBS_CTRL_CHK_EN == 1) <|
    if s.ln l .LANE_PRBS_CTRL_CHK_MODE == 1 then
      if s.ln l .LANE_PRBS_CTRL_PATTERN == 8 then count 64 (slipErrs word (s.userPat l) (s.iv .slipPos l))
      else count n (min errs n)
    else if s.ln l .LANE_PRBS_CTRL_CHK_LOCK == 1 then count n (min errs n)
    else when_ (256 ≤ n && errs == 0) (wln l .LANE_PRBS_CTRL_CHK_LOCK 1)

/-- The COUNT an injection event takes (LANE_INJ_CTRL, R199). -/
def injCount (target count : Nat) : Nat :=
  let c := if count == 0 then 1 else count
  match target with
  | 1 => min c 30
  | 2 => min c 3
  | _ => c

/-- One error event of the selected target: PRBS bits in TEST, FEC symbols or ALIGN blocks in ACTIVE; an ALIGN event that
falls due while another runs is skipped (R199). With near-end loopback the lane's own locked checker counts the bit errors. -/
def inject (l : Nat) : Upd := look fun s =>
  let tgt := s.ln l .LANE_INJ_CTRL_TARGET
  let n := injCount tgt (s.ln l .LANE_INJ_CTRL_COUNT)
  match tgt with
  | 0 => when_ (s.laneState l == laneTEST) <|
      all [emit (.injected l 0 n),
           when_ (s.ln l .LANE_PRBS_CTRL_LOOPBACK == 1 && s.ln l .LANE_PRBS_CTRL_CHK_LOCK == 1)
             (addCnt (.lane (l / 8)) (0x8000 + 2 * (l % 8)) n)]
  | 1 => when_ (s.laneState l == laneACTIVE) (emit (.injected l 1 n))
  | 2 => when_ (s.laneState l == laneACTIVE && s.iv .injAlign l == 0) (all [emit (.injected l 2 n), put .injAlign n l])
  | _ => skip

/-- A write of `v` to LANE_INJ_CTRL; ONE_SHOT injects one event. -/
def injCtrlWrite (st : Stamp) (l v : Nat) : Upd :=
  all [plainWrite st (.lane (l / 8)) (laneReg l 0x14) v, when_ (v.testBit 31) (inject l),
       look fun s => wln l .LANE_INJ_CTRL_ONE_SHOT (b2n (v.testBit 31 && s.iv .injAlign l != 0))]

/-- INJECT_ONE_SHOT: ONE_SHOT reads 1 until the event is done, which for ALIGN blocks is when they have been sent. -/
def execInjectOneShot (st : Stamp) (l : LaneId) (v : Word) : State → Answer := Upd.answer <|
  granted st (.lane (l / 8)) (laneReg l 0x14) (injCtrlWrite st l v.toNat)

/-- INJECT_PERIODIC: nothing while PERIOD is 0. -/
def execInjectPeriodic (l : LaneId) : State → Answer := Upd.answer <| look fun s =>
  when_ (s.ln l .LANE_INJ_CTRL_PERIOD != 0) (inject l)

/-- The lane's receiver has adapted (R184): in training, and in service while RX_ADAPT = 1. Its state and margins are reported. -/
def execRxAdaptationDone (l : LaneId) (eyeV eyeH snr : BitVec 8) (ctle : Fin 32) : State → Answer := Upd.answer <| look fun s =>
  when_ (s.laneState l == laneTRAIN || (s.laneState l == laneACTIVE && s.ln l .LANE_EQ_CTRL_RX_ADAPT == 1)) <|
    all [wln l .LANE_STAT_RX_READY 1, wln l .LANE_RX_STAT_EYE_V eyeV.toNat, wln l .LANE_RX_STAT_EYE_H eyeH.toNat,
         wln l .LANE_RX_STAT_SNR snr.toNat, wln l .LANE_RX_STAT_CTLE ctle]

end Sys2Proof.Machine
end

