-- ==== Sys2Proof/Machine/Buffer.lean ====
section
/-! DEFINITION. CORE's buffer (spec/08): cells and credits, frames that turn bad, and the frames of a port that goes away. -/

namespace Sys2Proof.Machine

/-! ### Ports and frames -/

/-- The role of port `p` (Table PORT-2). -/
def State.role (s : State) (p : Nat) : Nat := s.rd (.port p) .PORT_CFG_ROLE

/-- True for a FAB port. -/
def State.isFab (s : State) (p : Nat) : Bool := s.role p == roleFAB

/-- The state of a port's link (Table PORT-4 and PORT_LINK_STAT). -/
def State.link (s : State) (p : Nat) : Nat := s.rd (.port p) .PORT_LINK_STAT_STATE

def lsDOWN : Nat := 0x00
def lsDETECT : Nat := 0x01
def lsALIGN : Nat := 0x10
def lsEQ : Nat := 0x11
def lsPARAM : Nat := 0x12
def lsAUTH : Nat := 0x13
def lsPROVISIONAL : Nat := 0x14
def lsUP : Nat := 0x15
def lsREST : Nat := 0x16
def lsWIDTH : Nat := 0x17
def lsRETIRING : Nat := 0x18
def lsCONTAINED : Nat := 0x1F
def lsL0 : Nat := 0x05
def lsRECOVERY : Nat := 0x04
def lsPOLLING : Nat := 0x02
def lsCONFIG : Nat := 0x03
def lsHOTRESET : Nat := 0x0C
def lsDISABLED : Nat := 0x0B

/-- A FAB port is usable for new frames in UP or REST (R412). -/
def State.usable (s : State) (p : Nat) : Bool := s.isFab p && (s.link p == lsUP || s.link p == lsREST)

/-- The link of port `p` carries frames now: UP or a width change on a FAB port, L0 to L1.2 on a PCI Express port. -/
def State.carries (s : State) (p : Nat) : Bool :=
  if s.isFab p then s.link p == lsUP || s.link p == lsREST || s.link p == lsRETIRING || s.link p == lsPROVISIONAL
  else s.role p != 0 && (lsL0 ≤ s.link p && s.link p ≤ 0x09)

/-- This switch's ID, none outside a fabric (R398, R399). -/
def State.selfSw (s : State) : Option Nat :=
  let n := s.rd (.bridge 4) .BRIDGE_FAB_ID_SWITCH_ID
  if n < 64 then some n else none

/-- This switch's internal FEID (R401). -/
def State.selfFeid (s : State) : Nat := s.rd (.bridge 4) .BRIDGE_FAB_ID_SELF_FEID

/-- The stored length S of a frame (R322): a TLP entering from PCI Express has no trailer. -/
def storedLen (fromPcie : Bool) (f : Frame) : Nat := if fromPcie then f.len - 8 else f.len

/-- CORE_CT_CTRL.LOSSY's bit of a class. -/
def State.lossy (s : State) (c : Nat) : Bool := (s.rd (.core 0) .CORE_CT_CTRL_LOSSY).testBit c

/-! ### Cells and credits (R322 to R331) -/

/-- The class under which a port's ingress is accounted (R328, R242). -/
def State.acctClass (s : State) (p c x : Nat) : Nat := if s.isFab p && x != poolCTL then c else 0

/-- The index of a credit count. -/
def crIdx (p c x : Nat) : Nat := 32 * p + 4 * c + x

/-- The cells reserved for (p, c, x) (R324, R326, R328). -/
def State.reserve (s : State) (p c x : Nat) : Nat :=
  let r := fun f => s.rd (.core 1) f (8 * p + c)
  let least := fun n v => if s.isFab p then max n v else v
  match x with
  | 0 => least 151 (r .CORE_BUF_LIMIT_RES_P)
  | 1 => least 4 (r .CORE_BUF_LIMIT_RES_NP)
  | 2 => least 151 (r .CORE_BUF_LIMIT_RES_CPL)
  | _ => if s.isFab p then 256 else 0

/-- Every frame that holds cells: in the buffer or waiting for admission with its ingress credits. -/
def State.held (s : State) : List Pkt := s.buf ++ s.waiting.map (·.pkt)

/-- U: the cells held by lossless frames of (p, c, x) (R327). -/
def State.cellsAt (s : State) (p c x : Nat) : Nat :=
  ((s.held.filter fun k => k.ing == .port p && !k.lossy && s.acctClass p k.frame.cls k.pool == c && k.pool == x).map
    (·.cells)).sum

/-- O: credits advertised and not yet consumed (R327). -/
def State.outstanding (s : State) (p c x : Nat) : Nat := s.iv .crAdv (crIdx p c x) - s.iv .crUsed (crIdx p c x)

/-- SH: the shared cells (p, c, x) claims: what O + U exceeds its reserve by (R327, R329). -/
def State.claimed (s : State) (p c x : Nat) : Nat := s.outstanding p c x + s.cellsAt p c x - s.reserve p c x

/-- The accounting classes of a port. -/
def State.acctClasses (s : State) (p : Nat) : List Nat := if s.isFab p then List.range 8 else [0]

/-- Port reserves and control pools of a port that is not OFF (Table CORE-5). -/
def State.portReserve (s : State) (p : Nat) : Nat :=
  if s.role p == 0 then 0
  else ((s.acctClasses p).map fun c => s.reserve p c 0 + s.reserve p c 1 + s.reserve p c 2).sum + (if s.isFab p then 256 else 0)

/-- Instances that are bound (spec/13). -/
def State.boundVis (s : State) : List Nat := allBelow 1024 fun v => s.on (.inst 2) .INST_STAT_BOUND v

/-- S_pool (R324). -/
def State.sPool (s : State) : Nat :=
  196608 - ((List.range 96).map s.portReserve).sum - (s.boundVis.map fun v => s.rd (.core 2) .CORE_VI_LIMIT_RES v).sum

/-- Cells of the frames of instance `v` (R330). -/
def State.viCells (s : State) (v : Nat) : Nat := ((s.held.filter fun k => k.vi == some v).map (·.cells)).sum

/-- Shared cells claimed: by ingress pools, by lossy frames, and by internal frames beyond their instance's reserve. -/
def State.sharedUsed (s : State) : Nat :=
  ((List.range 96).map fun p => if s.role p == 0 then 0 else
      ((s.acctClasses p).map fun c => s.claimed p c 0 + s.claimed p c 1 + s.claimed p c 2).sum + s.claimed p 0 3).sum
  + ((s.held.filter fun k => k.lossy).map (·.cells)).sum
  + ((s.held.filter fun k => !k.lossy && k.vi.isNone && (match k.ing with | .port _ => false | _ => true)).map (·.cells)).sum
  + ((s.held.filterMap (·.vi)).eraseDups.map fun v => s.viCells v - s.rd (.core 2) .CORE_VI_LIMIT_RES v).sum

/-- F: the shared pool's free cells (R329). -/
def State.sharedFree (s : State) : Nat := s.sPool - s.sharedUsed

/-- Sixteen times α (Table CORE-7). -/
def alpha16 (code : Nat) : Nat := if code < 4 then 0 else 2 ^ (min code 0xB - 4)

/-- The bound min(16 × MAX, α × F) (R329, R333). -/
def State.bound (s : State) (maxCode alpha : Nat) : Nat := min (16 * maxCode) (alpha16 alpha * s.sharedFree / 16)

/-- Watch the shared pool's level (CORE_BUF_WM). -/
def coreWatch : Upd := look fun s =>
  watch ⟨.core 0, .CORE_WM_STAT_WM_EVENT, .CORE_WM_STAT_WM_LEVEL, .CORE_WM_STAT_WM_CROSS_CNT⟩ s.sharedUsed
    (64 * s.rd (.core 0) .CORE_BUF_WM_WM_HI) (64 * s.rd (.core 0) .CORE_BUF_WM_WM_LO)

/-- Grant credits for (p, c, x): first what the reserve leaves room for, then shared cells while the claim stays below T, so
that the credits outstanding stay at the reserve (R327, R329). A quiesced port grants none (R214). -/
def grantCredits (p c x : Nat) : Upd := look fun s =>
  let o := s.outstanding p c x
  let u := s.cellsAt p c x
  let res := s.reserve p c x
  let room := res - (o + u)
  let t := s.bound (s.rd (.core 1) .CORE_BUF_LIMIT_MAX (8 * p + c)) (s.rd (.core 1) .CORE_BUF_LIMIT_ALPHA (8 * p + c))
  let more := if x == poolCTL then 0 else min (res - (o + room)) (t - s.claimed p c x)
  when_ (!s.on (.port p) .BLK_CTRL_QUIESCE && !s.on (.core 0) .BLK_CTRL_QUIESCE) <|
    put .crAdv (s.iv .crAdv (crIdx p c x) + room + more) (crIdx p c x)

/-! ### Frames leaving the buffer (R317 to R323, R352, R720) -/

/-- A frame without its copy at `d`. -/
def Pkt.without (k : Pkt) (d : Dst) : Pkt := { k with copies := k.copies.filter fun c => c.dst != d }

/-- A frame that this switch, its ingress edge, keeps a proof of. -/
def State.hasProof (s : State) (k : Pkt) : Bool :=
  k.frame.retain && s.selfSw == some k.frame.ingSw && (s.tx k.frame.stream).proofs.any fun p => p.seq == k.frame.seq

/-- The proof of SEQ `n` becomes void: its stream, EPOCH and SEQ stay, in one cell (R320, R720). -/
def voidProof (stream n : Nat) : Upd := look fun s =>
  let x := s.tx stream
  putTx stream { x with proofs := x.proofs.map fun p =>
    if p.seq == n then { p with cells := 1, valid := true, void := true, frame := p.frame.voided } else p }

/-- VOID_FRAME: the frame that takes a bad retained frame's place at its ingress edge. -/
def Pkt.voided (k : Pkt) : Pkt :=
  { k with frame := k.frame.voided, cells := 1, tailIn := true, left := false,
           copies := k.copies.map fun c => { c with started := false } }

/-- The frame a FAB port sends last ends with the BAD flag, and so does every replay of it (R319). -/
def markBad (p : Nat) : Upd := look fun s =>
  putReplay p ((s.replayOf p).dropLast ++ ((s.replayOf p).getLast?.map fun t => { t with frame := { t.frame with bad := true } }).toList)

/-- The samples taken of frame `id` get their STOMPED flag (R349). -/
def stompSamples (id : Nat) : Upd :=
  modWaiting fun l => l.map fun w => if w.why == .tail id then (match w.pkt.frame.body with
    | .stipple m point _ port cls col size t c n snap =>
      { w with pkt := { w.pkt with frame := { w.pkt.frame with body := .stipple m point 1 port cls col size t c n snap } } }
    | _ => w) else w

/-- A frame turns bad (R318 to R320, R720): before any byte has left it is discarded and counted; otherwise each copy in
progress is stomped, with its counter, and the copies not started are dropped. A retained frame at its ingress edge leaves a
void proof and a void frame. -/
def turnBad (id : Nat) : Upd := look fun s =>
  forSome (s.buf.find? fun k => k.id == id) fun k =>
    let inPlace := s.hasProof k
    all [
      if k.left then
        all [forEach (k.copies.filter (·.started)) fun c =>
               (match c.dst with
                | .port p => all [emit (.stomp p id), bump (.core 0) (32 * p + 24 + k.frame.cls), markBad p]
                | .self => skip),
             stompSamples id, raise (.core 0) .CORE_STOMP]
      else bump (.core 0) 3075,
      when_ inPlace (voidProof k.frame.stream k.frame.seq),
      modBuf fun b =>
        if !inPlace then b.filter fun j => j.id != id
        else if k.left then (b.filter fun j => j.id != id) ++ [k.voided]
        else b.map fun j => if j.id == id then k.voided else j,
      coreWatch]

/-- The loss of a lossless frame without retention stops the part (R619), but for the CTL pool (R620). -/
def unretainedLoss (n : Nat) : Upd := when_ (n != 0) (raise (.guard 0) .GUARD_UNRETAINED_LOSS)

/-- Every frame queued for egress `p` goes: a copy in progress is stomped, the cells are freed, and each frame is counted in the
contained-discard counter (R211, R215, R352). Of a multicast frame only the port's own copy goes. With `contained`, an
unretained lossless frame at a FAB egress is a loss (R619). -/
def egressDiscard (p : Nat) (contained : Bool) : Upd := look fun s =>
  let hit := fun (k : Pkt) => k.copies.any fun c => c.dst == .port p
  let gone := s.buf.filter hit ++ (s.waiting.map (·.pkt)).filter hit
  all [
    forEach (s.buf.filter fun k => k.copies.any fun c => c.dst == .port p && c.started) fun k =>
      all [emit (.stomp p k.id), stompSamples k.id],
    modBuf fun b => (b.map (·.without (.port p))).filter fun k => !k.copies.isEmpty,
    modWaiting fun w => (w.map fun k => { k with pkt := k.pkt.without (.port p) }).filter fun k => !k.pkt.copies.isEmpty,
    addCnt (.core 0) 3083 gone.length,
    when_ (contained && s.isFab p) <|
      unretainedLoss (gone.filter fun k => !k.lossy && !k.frame.retain && k.pool != poolCTL).length,
    coreWatch]

/-- Frames that were still arriving at ingress `p` when its link went down turn bad (Table CORE-3). -/
def ingressCut (p : Nat) : Upd := look fun s =>
  forEach (s.buf.filter fun k => k.ing == .port p && !k.tailIn) fun k => turnBad k.id

end Sys2Proof.Machine
end

