-- ==== Sys2Proof/Machine/Port.lean ====
section
/-! DEFINITION. Port controllers (spec/06): lanes and roles, training, width changes, lane failure and Rest. -/

namespace Sys2Proof.Machine

/-! ### Domains as GUARD holds them (R592, R593) -/

/-- STATE codes of GUARD_DOMAIN_STAT. -/
def gdNONE : Nat := 0
def gdENTERING : Nat := 1
def gdCONTAINED : Nat := 2
def gdRECOVERING : Nat := 3
def gdHELD : Nat := 4
def gdFAILED : Nat := 5
def gdQUIESCED : Nat := 6

/-- The index of a LINK instance in GUARD_DOMAIN_STAT: FAB ports first, then remote switches (R592). -/
def linkIndex (k : Nat) : Nat := if k < 0x100 then k else 96 + (k - 0x100)

/-- The state of a domain instance. -/
def State.domState (s : State) : Dom → Nat
  | .lane j => s.rd (.guard 1) .GDS_LANE_STATE j
  | .port p => s.rd (.guard 1) .GDS_PORT_STATE p
  | .link k => s.rd (.guard 1) .GDS_LINK_STATE (linkIndex k)
  | .inst v => s.rd (.guard 1) .GDS_INST_STATE v
  | .face f => s.rd (.guard 1) .GDS_FACE_STATE f
  | .device => s.rd (.guard 1) .GDS_DEVICE_STATE 0

/-- The domain is contained: entered and not yet released. -/
def State.contained (s : State) (d : Dom) : Bool := gdENTERING ≤ s.domState d && s.domState d ≤ gdFAILED

/-- The part is in Safe Halt. -/
def State.safeHalt (s : State) : Bool := s.rd .glb .GLB_DEV_STATE_STATE == 8

/-- Egress port `p` is contained. -/
def State.portClosed (s : State) (p : Nat) : Bool := s.contained (s.portDom p)

/-- GUARD holds the port: it is contained, or quiesced for its power (R213, R624). -/
def State.portHeld (s : State) (p : Nat) : Bool := s.portClosed p || s.domState (s.portDom p) == gdQUIESCED

/-! ### Lanes of a port (Table PORT-1) -/

/-- The first lane of port `p`: octet p / 4, slot p mod 4. -/
def firstLane (p : Nat) : Nat := 8 * (p / 4) + 2 * (p % 4)

/-- The lanes of a port of width code `w`. -/
def lanesAt (p w : Nat) : List Nat := (List.range (2 ^ w)).map (firstLane p + ·)

/-- The lanes of port `p` under its PORT_CFG. -/
def State.portLanes (s : State) (p : Nat) : List Nat :=
  if s.role p == 0 then [] else lanesAt p (s.rd (.port p) .PORT_CFG_WIDTH)

/-- The port that owns lane `l`. -/
def State.owner (s : State) (l : Nat) : Option Nat := (List.range 96).find? fun p => (s.portLanes p).contains l

/-- The widest width code of a slot (Table PORT-1). -/
def widestCode (p : Nat) : Nat :=
  match p % 4 with
  | 0 => if p / 4 % 2 == 0 then 4 else 3
  | 2 => 2
  | _ => 1

/-- The face bound to port `p` (R263). -/
def State.faceOf (s : State) (p : Nat) : Option Nat :=
  firstBelow 32 fun f => s.on (.face f) .FACE_BIND_ENABLE && s.rd (.face f) .FACE_BIND_PORT == p

/-- Logical lanes of a bitmap. -/
def setLanes (set : Nat) : List Nat := allBelow 16 fun k => set.testBit k

/-- The bitmap of logical lanes. -/
def bitmapOf (ks : List Nat) : Nat := ks.foldl setBit 0

/-- The largest width code that `n` lanes allow; none of none. -/
def widthFor (n : Nat) : Option Nat := [4, 3, 2, 1, 0].find? fun w => 2 ^ w ≤ n

/-- The lanes of port `p` that carry its blocks, in logical lane order: those of the current set, all of them before there is
one. -/
def State.txLanes (s : State) (p : Nat) : List Nat :=
  let set := s.rd (.port p) .PORT_LINK_STAT_LANES_GOOD
  (s.portLanes p).filter fun l => set == 0 || set.testBit (s.ln l .LANE_STAT_LOGICAL)

/-- The link layer's blocks go to the lanes of the port, one block to each lane in turn (spec/06, "Daend blocks and frames"). The
IDLE blocks that fill the other slots are not steps of this model. -/
def linkSend (p : Nat) (bs : List (Nat × BitVec 64)) : Upd := look fun s =>
  let ls := s.txLanes p
  let k := (s.coder (firstLane p)).turn
  all [forEach bs.zipIdx fun (b, i) => forSome ls[(k + i) % ls.length]? fun l => sendBlk l b.1 b.2,
       modCoder (firstLane p) fun c => { c with turn := (k + bs.length) % max 1 ls.length }]

/-- A link-layer control block with its bytes 1 to 6, and the CRC-8 in byte 7 (R225). -/
def ctl (p typ body : Nat) : Upd := all [emit (.ctlBlock p typ body), linkSend p [(hdrCTL, ctlBlk typ body)]]

/-- A control block on every lane of the port in the same slot. -/
def onEveryLane (p : Nat) (w : BitVec 64) : Upd := look fun s => forEach (s.txLanes p) fun l => sendBlk l hdrCTL w

/-- A LANEMAP block on every lane of the set in use (R253). -/
def sendLanemap (p set id : Nat) : Upd := all [emit (.laneMap p set id), onEveryLane p (ctlBlk 0xA5 (set + id <<< 16))]

/-! ### Links going down -/

/-- The link-layer state of a port is cleared: SEQ and NUM, replay buffer, credits, markers, PARAM and AUTH, width changes, and
what PORT_LINK_STAT and BRIDGE_FAB_NBR show of the link (R236, spec/10). -/
def clearLink (p : Nat) : Upd :=
  all [forEach [Var.txSeq, .txNum, .rxSeq, .rxUnacked, .nakSent, .replayAt, .mkTx, .mkRx, .paramGot, .partnerRest, .partnerMax,
         .authStep, .authDebug, .wcSet, .wcId, .wcFrom, .widening, .restSince, .nextKey, .rekeying,
         .lsSeen, .skewCnt, .txCount, .restPend, .restHeld, .wcDone, .wcOldWidth, .mkDue, .pcieRev, .pcieSent, .pcieAcked,
         .partnerAspm] fun x => put x 0 p,
       forEach [Var.txKey, .rxKey, .rxNum] fun x => clearIv x fun i => i / 2 == p,
       forEach [Var.crAdv, .crUsed, .txLimit, .txUsed, .crInit] fun x => clearIv x fun i => i / 32 == p,
       clearIv .paramVal fun i => i / 8 == p,
       putReplay p [],
       forEach [Fld.SEC_LINK_STAT_AUTH_OK, .SEC_LINK_STAT_PARTNER_DEBUG, .SEC_LINK_STAT_REKEY, .SEC_LINK_STAT_AUTH_STATUS,
         .SEC_LINK_STAT_REKEYS] fun f => wr (.sec 2) f 0 p,
       forEach [Fld.SEC_IDE_STAT_LINK_SECURE, .SEC_IDE_STAT_LINK_KSET, .SEC_IDE_STAT_SEL_SECURE,
         .SEC_IDE_STAT_SEL_VALID, .SEC_IDE_STAT_DEV_AUTH, .SEC_IDE_STAT_LINK_ID] fun f => wr (.sec 1) f 0 p,
       clearIv .ideKey fun i => i / 10 == p, clearIv .ideGo fun i => i / 10 == p,
       forEach [Fld.PORT_LINK_STAT_WIDTH_NOW, .PORT_LINK_STAT_RATE_NOW, .PORT_LINK_STAT_FLIT, .PORT_LINK_STAT_ENC,
         .PORT_LINK_STAT_KEY_PHASE, .PORT_LINK_STAT_LANES_GOOD, .PORT_REPLAY_CNT_CONSEC] fun f => wr (.port p) f 0,
       wr (.bridge 4) .BRIDGE_FAB_NBR_VALID 0 p, wr (.bridge 4) .BRIDGE_FAB_NBR_PARTNER_SW 0 p,
       wr (.bridge 4) .BRIDGE_FAB_NBR_PARTNER_PORT 0 p]

/-- The link is in a state whose loss sets LINK_DOWN: PROVISIONAL, UP, REST, or on PCI Express L0, its low-power states and the
RECOVERY that it enters from them (Table PORT-11). -/
def State.inService (s : State) (p : Nat) : Bool :=
  if s.isFab p then s.link p == lsPROVISIONAL || s.link p == lsUP || s.link p == lsREST
  else lsRECOVERY ≤ s.link p && s.link p ≤ 0x09

/-- The link carries a width change, or may start one. -/
def State.mayNarrow (s : State) (p : Nat) : Bool :=
  s.inService p || (s.isFab p && (s.link p == lsWIDTH || s.link p == lsRETIRING))

/-- A port's link goes to `to`: frames still arriving turn bad, sequenced lossless frames without retention that the replay
buffer held are lost (R236, R619), the link-layer state is cleared and the lanes train again. A bound face is in RESET while its
link is not up (Table FACE-1). -/
def linkTo (p dest : Nat) : Upd := look fun s =>
  all [ingressCut p,
       when_ (s.isFab p) <| unretainedLoss
         ((s.replayOf p).filter fun t => !s.lossy t.frame.cls && !t.frame.retain && t.pool != poolCTL).length,
       clearLink p,
       wr (.port p) .PORT_LINK_STAT_STATE dest,
       forEach (s.portLanes p) fun l => when_ (s.laneState l != laneOFF) (laneTrain l),
       when_ (s.role p == roleUP) <| forSome (s.faceOf p) fun f =>
         all [wr (.face f) .FACE_BIND_STATE 1, wr (.face f) .FACE_PM_STAT_LINK_PM 6]]

/-- GUARD holds the port's link in containment: until its recovery or release starts, nothing else moves it (R259). -/
def State.linkHeld (s : State) (p : Nat) : Bool :=
  let d := s.domState (s.portDom p)
  d == gdENTERING || d == gdCONTAINED || d == gdFAILED

/-- The state in which a link of the port's kind waits to train: DOWN, or DETECT on PCI Express; DISABLED while DISABLE is
set. A contained FAB link stays CONTAINED, and DPC holds a contained DOWN port's link disabled (Table PORT-10). -/
def State.restState (s : State) (p : Nat) : Nat :=
  if s.isFab p then (if s.linkHeld p then lsCONTAINED else lsDOWN)
  else if s.on (.port p) .PORT_LINK_CTRL_DISABLE || (s.role p == roleDOWN && s.linkHeld p) then lsDISABLED else lsDETECT

/-- A reference clock that the port's lanes need is lost (R117, R119). -/
def State.noClock (s : State) (p : Nat) : Bool :=
  if s.isFab p then (s.portLanes p).any fun l => s.ivOn .refLost (l / 32) else s.ivOn .refLost 6

/-- The link of port `p` goes down, without LINK_DOWN. -/
def linkDown (p : Nat) : Upd := look fun s => linkTo p (s.restState p)

/-- The link goes down for a failure that the port itself detects: `e` is set, and LINK_DOWN when the link was in service. -/
def linkFails (p : Nat) (e : Option Err) : Upd := look fun s =>
  all [linkDown p,
       raiseAll (.port p) ((e.toList ++ if s.inService p then [Err.PORT_LINK_DOWN] else []).map fun x => { err := x })]

/-! ### Roles and widths (R210 to R212) -/

/-- The lanes of a port are released: MODE OFF, and what is not kept over a port reset of their status returns to its reset value
(R44). A PLL that none of them needed alone goes on. -/
def releaseLanes (ls : List Nat) : Upd :=
  all [forEach ls fun l => all [laneOff l, forEach [Fld.LANE_RATE_CFG_MODE, .LANE_STAT_LOGICAL, .LANE_STAT_EXIT_FAIL,
         .LANE_STAT_EQ_FAIL, .LANE_STAT_SIG_DET, .LANE_STAT_FAILED, .LANE_RX_STAT_EYE_V, .LANE_RX_STAT_EYE_H, .LANE_RX_STAT_SNR,
         .LANE_RX_STAT_CTLE] fun f => wln l f 0],
       forEach (ls.map (· / 8)).eraseDups pllSettle]

/-- The PLL that serves a protocol in an octet is locked (R162). -/
def State.pllLocked (s : State) (oct mode : Nat) : Bool :=
  if mode == modeDaend then s.on (.lane oct) .LANE_OCT_STAT_B_LOCK else s.on (.lane oct) .LANE_OCT_STAT_A_LOCK

/-- A port claims lanes (R187): a lane whose PLL is locked enters TRAIN; another waits for its PLL. A Daend lane in an octet
whose B_RATE is off stays OFF with MODE_CONFLICT (R164). -/
def claimLanes (p mode : Nat) (ls : List Nat) : Upd :=
  forEach ls fun l => look fun s =>
    all [wln l .LANE_RATE_CFG_MODE mode, wln l .LANE_STAT_LOGICAL (l - firstLane p),
         put .laneNum (l - firstLane p) l,
         if mode == modeDaend && s.rd (.lane (l / 8)) .LANE_OCT_CFG_B_RATE == 0 then
           raise (.lane (l / 8)) .LANE_MODE_CONFLICT
         else when_ (s.pllLocked (l / 8) mode) (laneTrain l)]

/-- PORT_RESET (R211): the link goes down, the port's frames in CORE are discarded, the link-layer state is cleared, and of the
port's registers those that their "Kept over" column does not keep over a port reset return to their reset values (R44). -/
def portReset (p : Nat) : Upd :=
  all [linkDown p, egressDiscard p false, resetPage (.port p) .port, wr (.sec 1) .SEC_IDE_STAT_FAIL 0 p,
       wr (.bridge 4) .BRIDGE_FAB_NBR_MISWIRED 0 p, wr (.bridge 1) .BRIDGE_LOCK_STAT_LOCKED 0 p,
       wr (.bridge 1) .BRIDGE_LOCK_STAT_HOLDER 0 p, put .curSet 0 p]

/-- The port is forced OFF. -/
def portOff (p : Nat) : Upd := look fun s =>
  when_ (s.role p != 0) <|
    all [portReset p, releaseLanes (s.portLanes p), wr (.port p) .PORT_CFG_ROLE 0, wr (.port p) .PORT_LINK_STAT_STATE 0, coreWatch]

/-! ### GPIO balls (R702) -/

/-- The GPIO ball that a port which is not OFF uses as its CLKREQ#. -/
def State.clkreq? (s : State) (p : Nat) : Option Nat :=
  let n := s.rd (.port p) .PORT_LINK_CTRL_CLKREQ_GPIO
  if s.role p != 0 && n < 32 then some n else none

/-- What the part drives on GPIO ball `n`, none while it does not: a port holds its CLKREQ# low but in L1.1 and L1.2, and
MGMT_GPIO_DIR and MGMT_GPIO_OUT count only for a ball that no port uses. -/
def State.gpioBall (s : State) (n : Nat) : Option Bool :=
  match (List.range 96).filter fun p => s.clkreq? p == some n with
  | [] => if (s.rd (.mgmt 2) .MGMT_GPIO_DIR_DIR).testBit n then some ((s.rd (.mgmt 2) .MGMT_GPIO_OUT_OUT).testBit n) else none
  | ps => if ps.all fun p => s.link p == 0x08 || s.link p == 0x09 then none else some false

/-- MGMT_GPIO_IN as it reads, from its bits `v` as last sampled: a ball that the part drives has its level. -/
def State.gpioIn (s : State) (v : Nat) : Nat :=
  ((List.range 32).map fun n => b2n ((s.gpioBall n).getD (v.testBit n)) <<< n).sum

/-- The protocol mode of a role. -/
def modeOf (role : Nat) : Nat := if role == 0 then 0 else if role == roleFAB then modeDaend else modePCIe

/-- The cells a port of role `role` would reserve (Table CORE-5). -/
def State.reserveAs (s : State) (p role : Nat) : Nat :=
  let fab := role == roleFAB
  let r := fun (f : Fld) (least c : Nat) => if fab then max least (s.rd (.core 1) f (8 * p + c)) else s.rd (.core 1) f (8 * p + c)
  if role == 0 then 0 else
    ((if fab then List.range 8 else [0]).map fun c =>
      r .CORE_BUF_LIMIT_RES_P 151 c + r .CORE_BUF_LIMIT_RES_NP 4 c + r .CORE_BUF_LIMIT_RES_CPL 151 c).sum
    + (if fab then 256 else 0)

/-- A change that takes `need` cells in place of `now` is refused when it lowers S_pool and leaves it below SHARED_MIN
(R325). -/
def State.sharedRefused (s : State) (now need : Nat) : Bool :=
  now < need && s.sPool + now - need < s.rd (.core 0) .CORE_BUF_CFG_SHARED_MIN

/-- True when PORT_CFG value `v` needs a port reset (R211). -/
def State.needsReset (s : State) (p v : Nat) : Bool :=
  bits v 29 28 != s.role p || (bits v 29 28 != roleFAB && bits v 29 28 != 0 &&
    bits v 27 25 > s.rd (.port p) .PORT_CFG_WIDTH)

/-- The cases in which R210 refuses a PORT_CFG write of value `v` with APPLY. -/
def State.cfgRefused (s : State) (p v : Nat) : Bool :=
  let role := bits v 29 28
  let w := bits v 27 25
  let ls := lanesAt p w
  let others := (List.range 96).filter fun q => q != p && s.role q != 0
  w > 4 || bits v 24 22 > w
  || (role != 0 && (w > widestCode p || others.any fun q => (s.portLanes q).any ls.contains))
  || (role != 0 && w == 4 && others.any fun q => p < q && q < p + 8)
  || (role == roleUP && s.role p != roleUP && 32 ≤ (allBelow 96 fun q => s.role q == roleUP).length)
  || (role == roleFAB && ls.any fun l => s.rd (.lane (l / 8)) .LANE_OCT_CFG_B_RATE == 0)
  || (v.testBit 16 && role != 0 && ls.any fun l => s.ln l .LANE_RATE_CFG_PCIE_MAX > 5)
  || (s.needsReset p v && s.role p != 0 && !s.on (.port p) .BLK_STAT_QUIESCED)

/-- A width change starts (R253): the initiator names the new set and a change ID on every lane of the old set. -/
def startWidthChange (p set : Nat) : Upd := look fun s =>
  let id := s.iv .wcCount p % 256
  all [put .wcCount (id + 1) p, put .wcSet set p, put .wcId id p,
       when_ (s.iv .wcFrom p == 0) (put .wcFrom (s.link p + 1) p),
       wr (.port p) .PORT_LINK_STAT_STATE lsWIDTH, sendLanemap p set id]

/-- A port shows the lane set in use: LANES_GOOD, WIDTH_NOW, the logical lanes numbered afresh. -/
def useSet (p set : Nat) : Upd :=
  all [wr (.port p) .PORT_LINK_STAT_LANES_GOOD set,
       wr (.port p) .PORT_LINK_STAT_WIDTH_NOW ((widthFor (setLanes set).length).getD 0)]

/-- A narrower set than PORT_CFG.MIN_WIDTH allows takes the port DOWN (R257). -/
def State.belowMin (s : State) (p n : Nat) : Bool := n < 2 ^ s.rd (.port p) .PORT_CFG_MIN_WIDTH

/-- A width change completes (R253, R257): each end switches to the set, with an ALIGN block on every lane of it; a lane added
to it is in service, one outside it goes OFF, and a lane that PORT_CFG no longer gives the port is released (R212). A narrowed
port keeps to its set. -/
def finishWidthChange (p set id : Nat) : Upd := look fun s =>
  let was := (setLanes (s.rd (.port p) .PORT_LINK_STAT_LANES_GOOD)).length
  let n := (setLanes set).length
  let dropped := (lanesAt p (s.iv .wcOldWidth p - 1)).drop (2 ^ s.rd (.port p) .PORT_CFG_WIDTH)
  if s.belowMin p n then
    linkFails p (some .PORT_BELOW_MIN_WIDTH)
  else
    all [wr (.port p) .PORT_LINK_STAT_STATE (if s.iv .wcFrom p == 0 then s.link p else s.iv .wcFrom p - 1),
         useSet p set, forEach [Var.wcFrom, .wcSet, .widening, .wcOldWidth] fun x => put x 0 p,
         put .wcDone (set * 256 + id + 1) p, put .curSet set p, bump (.port p) 12,
         forEach (s.portLanes p) fun l =>
           if set.testBit (s.ln l .LANE_STAT_LOGICAL) then
             all [when_ (s.laneState l == laneTRAIN) (wln l .LANE_STAT_STATE laneACTIVE), put .alignTx 0 l, sendAlign l]
           else laneOff l,
         when_ (s.ivOn .wcOldWidth p) (releaseLanes dropped),
         when_ (n < was) (raise (.port p) .PORT_WIDTH_DOWN)]

/-- The widest set that good lanes allow on Daend: the lowest-numbered ones (R252). -/
def narrowed (good : List Nat) : List Nat :=
  match widthFor good.length with
  | none => []
  | some w => good.take (2 ^ w)

/-- What a lane's failure does to its port (R252, R256, R257): on a FAB port a width change to the good logical lanes of the set
in use, or of the one being agreed; a PCI Express link goes through RECOVERY, and comes up again without the lane. -/
def narrowPort (p l : Nat) : Upd := look fun s =>
  let set := if s.link p == lsWIDTH then s.iv .wcSet p else s.rd (.port p) .PORT_LINK_STAT_LANES_GOOD
  let k := s.ln l .LANE_STAT_LOGICAL
  let new := narrowed ((setLanes set).filter (· != k))
  when_ (set.testBit k && s.mayNarrow p) <|
    if s.isFab p then
      if s.belowMin p new.length || new.isEmpty then linkFails p (some .PORT_BELOW_MIN_WIDTH)
      else startWidthChange p (bitmapOf new)
    else wr (.port p) .PORT_LINK_STAT_STATE lsRECOVERY

/-- A PORT_CFG write of `v`: with APPLY it is refused (R210, R325) or executed at once (R211, R212); without it, nothing
happens. On a port that GUARD holds, containment ranks above APPLY: the write is abandoned, and sets nothing (R213; that it is not
shown as REFUSED is a DESIGN CHOICE, log entry 177). A narrower PCI Express port goes through RECOVERY (R256), and a marker that
was due is not sent once CYC_TX is clear (R242). -/
def portCfgWrite (st : Stamp) (p v : Nat) : Upd := look fun s =>
  let role := bits v 29 28
  let w := bits v 27 25
  let oldLanes := s.portLanes p
  let oldW := s.rd (.port p) .PORT_CFG_WIDTH
  let noCells := s.sharedRefused (s.portReserve p) (s.reserveAs p role)
  if !v.testBit 31 || s.portHeld p then skip
  else if s.cfgRefused p v || noCells then
    all [wr (.port p) .PORT_CFG_REFUSED 1, raise (.port p) .PORT_CFG_REFUSED,
         when_ noCells (raise (.core 0) .CORE_CFG_REFUSED)]
  else
    all [
      if s.needsReset p v then
        all [portReset p, releaseLanes oldLanes, plainWrite st (.port p) 0x100 v,
             claimLanes p (modeOf role) (if role == 0 then [] else lanesAt p w),
             look fun t => wr (.port p) .PORT_LINK_STAT_STATE (if role == 0 then 0 else t.restState p)]
      else if role == 0 || w == oldW then plainWrite st (.port p) 0x100 v
      else if role == roleFAB && w < oldW then
        all [plainWrite st (.port p) 0x100 v,
             if s.mayNarrow p then
               all [put .wcOldWidth (oldW + 1) p, startWidthChange p (bitmapOf (narrowed
                 ((setLanes (s.rd (.port p) .PORT_LINK_STAT_LANES_GOOD)).filter (· < 2 ^ w))))]
             else releaseLanes (oldLanes.drop (2 ^ w))]
      else if role == roleFAB then
        all [plainWrite st (.port p) 0x100 v, claimLanes p modeDaend ((lanesAt p w).drop (2 ^ oldW)),
             put .widening (if s.inService p then 2 ^ 2 ^ w - 1 else 0) p]
      else
        all [plainWrite st (.port p) 0x100 v, releaseLanes (oldLanes.drop (2 ^ w)),
             when_ (s.inService p) (wr (.port p) .PORT_LINK_STAT_STATE lsRECOVERY)],
      wr (.port p) .PORT_CFG_REFUSED 0, put .curSet 0 p, when_ (!v.testBit 13) (put .mkDue 0 p), coreWatch]

/-- PORT_CFG_APPLY. -/
def execPortCfgApply (st : Stamp) (p : PortId) (v : Word) : State → Answer := Upd.answer <|
  granted st (.port p) 0x100 (portCfgWrite st p v.toNat)

/-! ### Test features (R198 to R200) -/

/-- Test features may be set on a lane while its port is OFF (R198): no port that is not OFF owns it. -/
def State.laneFree (s : State) (l : Nat) : Bool := (s.owner l).isNone

/-- A write of `v` to LANE_PRBS_CTRL (R198, R201): setting GEN_EN, CHK_EN or LOOPBACK needs the port OFF, and a Daend
TEST_RATE the octet's B_RATE. CHK_EN from 0 to 1 clears the error and bit counters; the lane is in TEST while any of the three
is set. -/
def prbsCtrlWrite (st : Stamp) (l v : Nat) : Upd := look fun s =>
  let oct := l / 8
  let sets := v.testBit 0 || v.testBit 8 || bits v 23 20 != 0
  let rate := bits v 27 24
  if sets && (!s.laneFree l || (8 ≤ rate && (s.rd (.lane oct) .LANE_OCT_CFG_B_RATE == 0 || rate != s.daendRate oct))) then
    raise (.lane oct) .LANE_CTRL_REFUSED
  else
    all [plainWrite st (.lane oct) (laneReg l 0x10) v,
         when_ (v.testBit 8 && s.ln l .LANE_PRBS_CTRL_CHK_EN == 0) <|
           all [clearCnts (.lane oct) fun i => i / 2 == 0x4000 + l % 8, wln l .LANE_PRBS_CTRL_CHK_LOCK 0],
         when_ (!v.testBit 8) (wln l .LANE_PRBS_CTRL_CHK_LOCK 0),
         if sets then when_ (s.laneState l == laneOFF || s.laneState l == laneTEST)
           (all [wln l .LANE_STAT_STATE laneTEST, wln l .LANE_RATE_CFG_RATE_NOW rate])
         else when_ (s.laneState l == laneTEST)
           (all [wln l .LANE_STAT_STATE laneOFF, wln l .LANE_RATE_CFG_RATE_NOW 0]),
         pllSettle oct]

/-- LANE_PRBS_CTRL_WRITE. -/
def execLanePrbsCtrlWrite (st : Stamp) (l : LaneId) (v : Word) : State → Answer := Upd.answer <|
  granted st (.lane (l / 8)) (laneReg l 0x10) (prbsCtrlWrite st l v.toNat)

/-- A write of `v` to LANE_SLIP: with the port OFF the receive word boundary moves by UI; refused otherwise (R198, R200). -/
def slipWrite (l v : Nat) : Upd := look fun s =>
  let ui := bits v 5 0
  if !s.laneFree l then raise (.lane (l / 8)) .LANE_CTRL_REFUSED
  else all [put .slipPos (s.iv .slipPos l + ui) l, emit (.slip l ui), wln l .LANE_SLIP_DONE 1]

/-- LANE_SLIP. -/
def execLaneSlip (st : Stamp) (l : LaneId) (v : Word) : State → Answer := Upd.answer <|
  granted st (.lane (l / 8)) (laneReg l 0x28) (slipWrite l v.toNat)

/-! ### The B-PLL's rate (R163) -/

/-- A write of `v` to LANE_OCT_CFG: every Daend lane of the octet runs at B_RATE, so at another rate the B-PLL locks afresh. Its
Daend lanes go OFF until then with their links, and train again at the new rate; with B_RATE off they stay OFF. The spec names no
error for this, and none is set (DEDUCED, log entry 178). -/
def octCfgWrite (st : Stamp) (oct v : Nat) : Upd := look fun s =>
  let ls := (List.range 8).map (8 * oct + ·) |>.filter fun l => s.ln l .LANE_RATE_CFG_MODE == modeDaend
  all [plainWrite st (.lane oct) 0x100 v,
       when_ (v % 4 != s.rd (.lane oct) .LANE_OCT_CFG_B_RATE) <|
         all [wr (.lane oct) .LANE_OCT_STAT_B_LOCK 0, forEach (ls.filterMap s.owner).eraseDups linkDown, forEach ls laneOff]]

end Sys2Proof.Machine
end

