-- ==== Sys2Proof/Machine/Link.lean ====
section
/-! DEFINITION. Links (spec/05, spec/06): PLLs and training, PARAM and AUTH, credits, width changes, lane failure, Rest, and
software's control of a link. -/

namespace Sys2Proof.Machine

/-! ### Clocks and training -/

/-- The reference clock of a PLL is lost (R119): REFCLK_B[n div 4] of the B-PLL of octet n, REFCLK_A of an A-PLL. -/
def State.pllNoRef (s : State) (oct : Nat) (isB : Bool) : Bool := s.ivOn .refLost (if isB then oct / 4 else 6)

/-- PLL_LOCK (R162, R187): a PLL runs from its reference while a lane needs it; its claimed lanes enter TRAIN. -/
def execPllLock (oct : OctId) (isB : Bool) : State → Answer := Upd.answer <| look fun s =>
  let mode := if isB then modeDaend else modePCIe
  let ls := (List.range 8).map (8 * oct.val + ·) |>.filter fun l => s.ln l .LANE_RATE_CFG_MODE == mode
  when_ (s.needsPll oct isB && !s.pllNoRef oct isB && !(isB && s.rd (.lane oct) .LANE_OCT_CFG_B_RATE == 0)) <|
    all [wr (.lane oct) (if isB then .LANE_OCT_STAT_B_LOCK else .LANE_OCT_STAT_A_LOCK) 1,
         forEach (ls.filter fun l => s.laneState l == laneOFF) laneTrain]

/-- PLL_UNLOCK (R205): the lanes that the PLL serves go OFF with their links, and the error names each port with lanes in the
octet (Table GUARD-3). -/
def execPllUnlock (oct : OctId) (isB : Bool) : State → Answer := Upd.answer <| look fun s =>
  let mode := if isB then modeDaend else modePCIe
  let ls := (List.range 8).map (8 * oct.val + ·) |>.filter fun l => s.ln l .LANE_RATE_CFG_MODE == mode
  let ports := (ls.filterMap s.owner).eraseDups
  when_ (s.on (.lane oct) (if isB then .LANE_OCT_STAT_B_LOCK else .LANE_OCT_STAT_A_LOCK)) <|
    all [wr (.lane oct) (if isB then .LANE_OCT_STAT_B_LOCK else .LANE_OCT_STAT_A_LOCK) 0,
         forEach ports linkDown, forEach ls laneOff,
         raiseAll (.lane oct) (if ports.isEmpty then [{ err := if isB then .LANE_B_PLL_UNLOCK else .LANE_A_PLL_UNLOCK, dom := some .none }]
           else ports.map fun p =>
             { err := if isB then .LANE_B_PLL_UNLOCK else .LANE_A_PLL_UNLOCK, dom := some (.dom (s.portDom p)) })]

/-- The lanes that a FAB port trains: all of them, or the set it has narrowed to (R257). -/
def State.trainLanes (s : State) (p : Nat) : List Nat :=
  (s.portLanes p).filter fun l => s.iv .curSet p == 0 || (s.iv .curSet p).testBit (l - firstLane p)

/-- A port enters ALIGN, EQ or PARAM when every lane has what the state waits for (Table PORT-4). -/
def advanceWhen (p fromState toState : Nat) (ready : State → Nat → Bool) (u : Upd) : Upd := look fun s =>
  when_ (s.isFab p && s.link p == fromState && (s.trainLanes p).all (ready s)) <|
    all [wr (.port p) .PORT_LINK_STAT_STATE toState, u]

/-- SIGNAL_DETECT (R220): ABSENT clears, and DETECT ends when every lane has a signal. A PCI Express port goes from DETECT to
POLLING with its first load, which starts a training, and to CONFIG when every lane has one. -/
def execSignalDetect (l : LaneId) : State → Answer := Upd.answer <| look fun s =>
  all [wln l .LANE_STAT_SIG_DET 1,
       forSome (s.owner l) fun p =>
         all [wr (.port p) .PORT_LINK_STAT_ABSENT 0,
              advanceWhen p lsDETECT lsALIGN (fun t m => t.ln m .LANE_STAT_SIG_DET == 1) skip,
              when_ (!s.isFab p && s.link p == lsDETECT) (all [wr (.port p) .PORT_LINK_STAT_STATE lsPOLLING, bump (.port p) 13]),
              look fun t => when_ (!t.isFab p && t.link p == lsPOLLING &&
                  (t.portLanes p).all fun m => t.ln m .LANE_STAT_SIG_DET == 1) (wr (.port p) .PORT_LINK_STAT_STATE lsCONFIG)]]

/-- A FAB port in DOWN starts training, unless DISABLE is set, GUARD holds its domain, or its reference clock is lost (R117). -/
def detectStart (p : Nat) : Upd := look fun s =>
  when_ (s.isFab p && s.link p == lsDOWN && !s.on (.port p) .PORT_LINK_CTRL_DISABLE && !s.noClock p &&
      s.domState (s.portDom p) != gdQUIESCED) <|
    all [put .longDwell 0 p, wr (.port p) .PORT_LINK_STAT_STATE lsDETECT, bump (.port p) 13,
         forEach (s.portLanes p) fun l =>
           if (s.trainLanes p).contains l then when_ (s.pllLocked (l / 8) modeDaend) (laneTrain l) else laneOff l]

/-- LINK_DOWN_DWELL_EXPIRY (Table PORT-4, R222): training starts; while a configuration image is applied, FAB ports stay in
DOWN (R146). -/
def execLinkDownDwellExpiry (p : PortId) : State → Answer := Upd.answer <| look fun s =>
  when_ (s.rd .glb .GLB_DEV_STATE_STATE != 3) (detectStart p)

/-- TRAIN_STATE_TIMEOUT (R219): the port goes to DOWN with TRAIN_FAIL, and trains again. -/
def execTrainStateTimeout (p : PortId) : State → Answer := Upd.answer <| look fun s =>
  when_ (s.isFab p && (s.link p == lsALIGN || s.link p == lsEQ || s.link p == lsPARAM || s.link p == lsAUTH)) <|
    all [bump (.port p) 14, linkFails p (some .PORT_TRAIN_FAIL)]

/-- DETECT_ABSENT_TIMEOUT (R220): no lane has a signal. -/
def execDetectAbsentTimeout (p : PortId) : State → Answer := Upd.answer <| look fun s =>
  when_ (s.isFab p && s.link p == lsDETECT && (s.portLanes p).all fun l => s.ln l .LANE_STAT_SIG_DET == 0)
    (wr (.port p) .PORT_LINK_STAT_ABSENT 1)

/-- The transmitter of lane `l` runs: its port's link is neither in DOWN or CONTAINED nor in Rest. -/
def State.txRuns (s : State) (l : Nat) : Bool :=
  match s.owner l with
  | some p => s.link p != lsREST && s.link p != lsDOWN && s.link p != lsCONTAINED
  | none => true

/-- LANE_FAIL (R195): the lane goes to OFF, its bit is set, and its port narrows or is contained. -/
def laneFail (l : Nat) : Upd := look fun s =>
  let port := s.owner l
  all [laneOff l, wln l .LANE_STAT_FAILED 1, raise (.lane (l / 8)) (.LANE_LANE_FAIL (l % 8)), forSome port fun p => narrowPort p l]

/-- ALIGN loss (R172, R194): a lane in ACTIVE fails; one in TRAIN starts its search again. -/
def alignLost (l : Nat) : Upd := look fun s =>
  all [wln l .LANE_STAT_ALIGN_LOCK 0, wln l .LANE_STAT_FEC_LOCK 0, put .alignMiss 0 l, put .alignSeen 0 l,
       when_ (s.laneState l == laneACTIVE) (laneFail l)]

/-- ALIGN_LOSS (R172): the third consecutive ALIGN slot without a valid block has passed; the slots that held no block at all count
as missing here. -/
def execAlignLoss (l : LaneId) : State → Answer := Upd.answer <| look fun s =>
  when_ (s.ln l .LANE_STAT_ALIGN_LOCK == 1 && !s.ivOn .rxRest l) (all [laneCnt l 4 (3 - s.iv .alignMiss l), alignLost l])

/-- ALIGN_RECEIVED (R172): in TRAIN or ACTIVE lock comes with the second block 82,240 slots after the first, on leaving Rest
with the first; a block that is not valid in its slot counts as missing, and the third in a row is ALIGN loss. In service a lane
takes its logical number from the block (R186). -/
def execAlignReceived (l : LaneId) (hdr : BitVec 2) (blk : BitVec 64) (slots : Nat) : State → Answer := Upd.answer <| look fun s =>
  let lock := all [wln l .LANE_STAT_ALIGN_LOCK 1, wln l .LANE_STAT_FEC_LOCK 1, wln l .LANE_STAT_CDR_LOCK 1, put .alignMiss 0 l,
    put .alignSeen 0 l]
  let training := s.laneState l == laneTRAIN || s.laneState l == laneACTIVE || (s.laneState l == laneREST && !s.ivOn .rxRest l)
  if s.ln l .LANE_RATE_CFG_MODE != modeDaend then skip
  else if !(hdr.toNat == hdrCTL && alignValid blk) then
    when_ (s.ln l .LANE_STAT_ALIGN_LOCK == 1 && !s.ivOn .rxRest l) <|
      all [laneCnt l 4 1, if 2 ≤ s.iv .alignMiss l then alignLost l else put .alignMiss (s.iv .alignMiss l + 1) l]
  else if s.ivOn .rxRest l then
    all [put .rxRest 0 l, lock,
         when_ (s.txRuns l) (all [wln l .LANE_STAT_STATE laneACTIVE, wln l .LANE_REST_CTRL_IN_REST 0])]
  else if training then
    all [if s.ln l .LANE_STAT_ALIGN_LOCK == 1 || (s.ivOn .alignSeen l && slots == alignSlots) then lock else put .alignSeen 1 l,
         when_ (s.laneState l == laneACTIVE) (wln l .LANE_STAT_LOGICAL (blkByte blk 1 % 16)),
         forSome (s.owner l) fun p => advanceWhen p lsALIGN lsEQ (fun t m => t.ln m .LANE_STAT_ALIGN_LOCK == 1) skip]
  else skip

/-- ALIGN_TRANSMIT (R171): a Daend lane whose transmitter runs sends one: in TRAIN or ACTIVE, and in REST while only its receive
direction rests (R245). In DOWN a port sends nothing, and in CONTAINED its transmitters idle (Tables PORT-4 and PORT-10). -/
def execAlignTransmit (l : LaneId) : State → Answer := Upd.answer <| look fun s =>
  when_ (s.ln l .LANE_RATE_CFG_MODE == modeDaend &&
      (s.laneState l == laneTRAIN || s.laneState l == laneACTIVE || s.laneState l == laneREST) && s.txRuns l) (sendAlign l)

/-! ### PARAM and AUTH (R221 to R224, R651 to R653) -/

/-- The 40 bytes of PARAM that port `p` sends (Table PORT-5). -/
def State.paramBytes (s : State) (p : Nat) : List Nat :=
  let d := s.rd (.bridge 4) .BRIDGE_DOMAIN_ID_0 + s.rd (.bridge 4) .BRIDGE_DOMAIN_ID_1 <<< 32
    + s.rd (.bridge 4) .BRIDGE_DOMAIN_ID_2 <<< 64 + s.rd (.bridge 4) .BRIDGE_DOMAIN_ID_3 <<< 96
  let encReq := s.on (.port p) .PORT_CFG_ENC_REQ || s.ivOn .encRequired
  [1, s.rd (.bridge 4) .BRIDGE_FAB_ID_SWITCH_ID % 64, p % 128,
   s.rd (.port p) .PORT_CFG_WIDTH + s.rd (.lane (p / 4)) .LANE_OCT_CFG_B_RATE <<< 4,
   b2n encReq + s.rd (.port p) .PORT_LINK_CTRL_REST_EN <<< 1 + s.rd (.port p) .PORT_CFG_CYC_TX <<< 2
     + s.rd (.port p) .PORT_CFG_CYC_RX <<< 3]
  ++ domainTag d ++ bytesOf 9640 2 ++ List.replicate 25 0

/-- The eight PARAM blocks (Table PORT-6): the index, then five bytes. -/
def sendParams (p : Nat) : Upd := look fun s =>
  forBelow 8 fun i => ctl p 0x3F (i + ofBytes ((s.paramBytes p).drop (5 * i) |>.take 5) <<< 8)

/-- The port enters PARAM: its lanes are in service, its marker count starts at 0 (R242). -/
def enterParam (p : Nat) : Upd := look fun s =>
  let ls := s.trainLanes p
  all [put .mkTx 0 p, put .mkRx 0 p, put .paramGot 0 p, forEach ls fun l => wln l .LANE_STAT_STATE laneACTIVE,
       useSet p (bitmapOf (ls.map fun l => s.ln l .LANE_STAT_LOGICAL)),
       wr (.port p) .PORT_LINK_STAT_RATE_NOW (s.daendRate (p / 4)), sendParams p]

/-- A TRAIN block as the link sees it once the lane's inversion is in effect (R185). -/
def trainSeen (inv : Bool) (hdr : BitVec 2) (blk : BitVec 64) : Nat × BitVec 64 :=
  if inv then (3 - hdr.toNat, ~~~blk) else (hdr.toNat, blk)

/-- TRAIN_BLOCK_RECEIVED (R176, R179, R185, R186): a TRAIN type byte and sync header that stand complemented show the polarity
inverted; the partner's words and lane number are taken, and the own requests move on. EQ ends on a lane when both ends report
RX_READY, which four TRAIN blocks with PHASE = 1 tell the partner, and on the port when it has ended on every lane. A lane that is
being added in service trains alike (R253). -/
def execTrainBlockReceived (l : LaneId) (hdr : BitVec 2) (blk : BitVec 64) (want : BitVec 7) : State → Answer :=
  Upd.answer <| look fun s =>
    let inverted := hdr.toNat == 1 && blkByte blk 0 == 0xCC
    let inv := if s.ln l .LANE_RATE_CFG_RX_INV_AUTO == 1 then inverted else s.ln l .LANE_RATE_CFG_RX_INV == 1
    let (h, w) := trainSeen inv hdr blk
    let control := blkByte w 1 + blkByte w 2 <<< 8
    let status := blkByte w 3 + blkByte w 4 <<< 8
    forSome (s.owner l) fun p =>
      let width := (s.portLanes p).length
      when_ (s.isFab p && (s.link p == lsEQ || (s.ivOn .widening p && s.laneState l == laneTRAIN))) <|
        all [wln l .LANE_RATE_CFG_RX_INV_NOW (b2n inv),
             if !blkCrcOk w || h != hdrCTL || blkByte w 0 != 0x33 then all [raise (.port p) .PORT_CTL_CRC, bump (.port p) 8]
             else
               all [exchange l control status want.toNat, wln l .LANE_STAT_LOGICAL (control % 16),
                    put .partnerReady (b2n (status.testBit 9)) l,
                    look fun t => if t.ivOn .partnerReady l && t.ln l .LANE_STAT_RX_READY == 1 then
                        all [wln l .LANE_STAT_EQ_DONE 1, forBelow 4 fun _ => sendTrain l 1 width]
                      else sendTrain l 0 width,
                    advanceWhen p lsEQ lsPARAM (fun t m => t.ln m .LANE_STAT_EQ_DONE == 1) (enterParam p)]]

/-- The least initial advertisement of a pool (Table PORT-8). -/
def leastCredits : Nat → Nat
  | 1 => 4
  | 3 => 256
  | _ => 151

/-- A CREDIT block with the cumulative value of (c, x) (Table PORT-6). -/
def sendCredit (p c x : Nat) : Upd := look fun s =>
  ctl p 0x71 (c + x <<< 3 + (s.iv .crAdv (crIdx p c x) % 2 ^ 24) <<< 8)

/-- The pools of a FAB port. -/
def fabPools : List (Nat × Nat) :=
  (List.range 8).flatMap (fun c => [(c, 0), (c, 1), (c, 2)]) ++ [(0, 3)]

/-- Initial credits (R224): the reserve of each pool. -/
def initialCredits (p : Nat) : Upd :=
  forEach fabPools fun (c, x) => look fun s =>
    all [put .crAdv (s.iv .crUsed (crIdx p c x) + s.reserve p c x) (crIdx p c x), sendCredit p c x]

/-- The partner is wired elsewhere than expected (R402). -/
def State.miswired (s : State) (p sw port : Nat) : Bool :=
  s.selfSw == some sw ||
    (s.on (.bridge 4) .BRIDGE_FAB_NBR_EXPECT_EN p &&
      (s.rd (.bridge 4) .BRIDGE_FAB_NBR_EXPECT_SW p != sw || s.rd (.bridge 4) .BRIDGE_FAB_NBR_EXPECT_PORT p != port))

/-- The partner of port `p` is judged: when its PARAM blocks are in, and again at a write of what is expected while it is known
(R402; DEDUCED, log entry 185). -/
def neighbourJudge (p sw port : Nat) : Upd := look fun s =>
  when_ (s.miswired p sw port) (all [wr (.bridge 4) .BRIDGE_FAB_NBR_MISWIRED 1 p, raiseIn (.bridge 4) .FAB_MISWIRED (.link p)])

/-- A HELLO goes out: a random value of 48 bytes and an ephemeral public key of 96, SWITCH_ID and port (Table SEC-9). -/
def sendHello (p : Nat) : Upd := look fun s =>
  drawWide 12 fun r => drawWide 24 fun key => emit (.authMsg p 0x30 [r, key, s.selfSw.getD 0, p])

/-- All eight PARAM blocks are in: a mismatch ends the training (R222); otherwise the neighbour is recorded (R402), initial
credits go out, and the port enters AUTH when either end asks for encryption (R223), else PROVISIONAL. -/
def paramsDone (p : Nat) : Upd := look fun s =>
  let bs := (List.range 8).flatMap fun i => bytesOf (s.iv .paramVal (8 * p + i)) 5
  let own := s.paramBytes p
  let at_ := fun k => bs.getD k 0
  let sw := at_ 1 % 64
  let port := at_ 2 % 128
  if at_ 0 != 1 || (bs.drop 5).take 8 != (own.drop 5).take 8 then
    all [linkFails p (some .PORT_PARAM_MISMATCH), put .longDwell 1 p, bump (.port p) 14]
  else
    all [wr (.bridge 4) .BRIDGE_FAB_NBR_VALID 1 p, wr (.bridge 4) .BRIDGE_FAB_NBR_PARTNER_SW sw p,
         wr (.bridge 4) .BRIDGE_FAB_NBR_PARTNER_PORT port p, wr (.bridge 4) .BRIDGE_FAB_NBR_MISWIRED 0 p, neighbourJudge p sw port,
         put .partnerRest (b2n ((at_ 4).testBit 1)) p, put .partnerMax (at_ 13 + at_ 14 <<< 8) p,
         initialCredits p,
         if (at_ 4).testBit 0 || (own.getD 4 0).testBit 0 then
           all [wr (.port p) .PORT_LINK_STAT_STATE lsAUTH, wr (.sec 2) .SEC_LINK_STAT_AUTH_STATUS 0 p, sendHello p]
         else wr (.port p) .PORT_LINK_STAT_STATE lsPROVISIONAL]

/-- PARAM_BLOCK_RECEIVED (R221, R225). -/
def execParamBlockReceived (p : PortId) (blk : BitVec 64) : State → Answer := Upd.answer <| look fun s =>
  let i := blkByte blk 1
  when_ (s.isFab p && s.link p == lsPARAM) <|
    if !blkCrcOk blk || blkByte blk 0 != 0x3F then all [raise (.port p) .PORT_CTL_CRC, bump (.port p) 8]
    else when_ (i < 8) <|
      all [put .paramVal (bits blk.toNat 55 16) (8 * p + i), put .paramGot (setBit (s.iv .paramGot p) i) p,
           look fun t => when_ (t.iv .paramGot p == 255) (paramsDone p)]

/-- PARAM_REPEAT (R221): until all eight blocks are in. -/
def execParamRepeat (p : PortId) : State → Answer := Upd.answer <| look fun s =>
  when_ (s.isFab p && s.link p == lsPARAM) (sendParams p)

/-- A check of R652 fails: its code is recorded, the port goes to DOWN with AUTH_FAIL, and retries after 100 ms. -/
def authFails (p code : Nat) : Upd := look fun s =>
  all [linkDown p, put .longDwell 1 p, bump (.port p) 14, wr (.sec 2) .SEC_LINK_STAT_AUTH_STATUS code p, wr (.sec 2) .SEC_LINK_STAT_AUTH_OK 0 p,
       bump (.sec 0) 4, raiseIn (.sec 0) .SEC_AUTH_FAIL (s.portDom p)]

/-- The port is in AUTH and has taken `n` messages of Table SEC-9. -/
def State.inAuth (s : State) (p n : Nat) : Bool := s.isFab p && s.link p == lsAUTH && s.iv .authStep p == n

/-- SEC supplies the next key of a link (R653, R654), at the KEY_PHASE whose key is the older one. The receiver accepts both phases:
the old key is retired when the next one takes its place (DESIGN CHOICE, log entry 179). -/
def supplyKey (p : Nat) : Upd := look fun s =>
  let n := s.iv .keyCount p + 1
  let slot := if s.iv .rxKey (2 * p) ≤ s.iv .rxKey (2 * p + 1) then 2 * p else 2 * p + 1
  all [put .keyCount n p, put .txKey (n + 1) slot, put .rxKey (n + 1) slot, put .rxNum 0 slot]

/-- AUTH_HELLO (R651). On a link whose keys are in force a HELLO belongs to a rekey (R654): it is answered when the partner
began, and the new keys wait for the next KEY_PHASE change. -/
def execAuthHello (p : PortId) : State → Answer := Upd.answer <| look fun s =>
  let runs := s.isFab p && s.on (.port p) .PORT_LINK_STAT_ENC && s.link p != lsAUTH && !s.ivOn .nextKey p
  if s.inAuth p 0 then all [put .authStep 1 p, emit (.authMsg p 0x31 [])]
  else when_ runs <|
    all [when_ (!s.ivOn .rekeying p) (sendHello p), put .rekeying 0 p, put .nextKey 1 p, supplyKey p,
         wr (.sec 2) .SEC_LINK_STAT_REKEY 0 p, bump (.sec 0) 5,
         wr (.sec 2) .SEC_LINK_STAT_REKEYS (min 65535 (s.rd (.sec 2) .SEC_LINK_STAT_REKEYS p + 1)) p]

/-- A PROOF goes out: the owner digest, DOMAIN_ID, SWITCH_ID and port (Table SEC-9). -/
def sendProof (p : Nat) : Upd := look fun s => emit (.authMsg p 0x32 [ofBytes s.ownerDigest, s.domainId, s.selfSw.getD 0, p])

/-- AUTH_CERT (R652 step 1). -/
def execAuthCert (p : PortId) (chainOk debug : Bool) : State → Answer := Upd.answer <| look fun s =>
  when_ (s.inAuth p 1) <|
    if chainOk then all [put .authStep 2 p, put .authDebug (b2n debug) p, sendProof p] else authFails p 2

/-- AUTH_PROOF (R652 steps 2 to 6): the first check that fails is recorded. -/
def execAuthProof (p : PortId) (sigOk : Bool) (owner : BitVec 384) (domain : BitVec 128) (sw port : Nat) : State → Answer :=
  Upd.answer <| look fun s =>
    let named := sw == s.rd (.bridge 4) .BRIDGE_FAB_NBR_PARTNER_SW p && port == s.rd (.bridge 4) .BRIDGE_FAB_NBR_PARTNER_PORT p
      && s.selfSw != some sw
    when_ (s.inAuth p 2) <|
      if !sigOk then authFails p 3
      else if owner.toNat != ofBytes s.ownerDigest then authFails p 4
      else if domain.toNat != s.domainId then authFails p 5
      else if !named then authFails p 6
      else if s.ivOn .authDebug p && s.ivOn .rejectDebug then authFails p 7
      else all [put .authStep 3 p, wr (.sec 2) .SEC_LINK_STAT_PARTNER_DEBUG (s.iv .authDebug p) p, emit (.authMsg p 0x33 [])]

/-- AUTH_DONE (R652 step 7, R653): the keys are in force at KEY_PHASE 0 with NUM 0, and the port enters PROVISIONAL. -/
def execAuthDone (p : PortId) (macOk : Bool) : State → Answer := Upd.answer <| look fun s =>
  when_ (s.inAuth p 3) <|
    if !macOk then authFails p 7
    else all [wr (.sec 2) .SEC_LINK_STAT_AUTH_STATUS 1 p, wr (.sec 2) .SEC_LINK_STAT_AUTH_OK 1 p,
              wr (.sec 2) .SEC_LINK_STAT_REKEYS 0 p, bump (.sec 0) 3,
              wr (.port p) .PORT_LINK_STAT_ENC 1, wr (.port p) .PORT_LINK_STAT_KEY_PHASE 0, put .txNum 0 p,
              forEach [Var.txKey, .rxKey, .rxNum] fun x => clearIv x fun i => i / 2 == p, supplyKey p,
              wr (.port p) .PORT_LINK_STAT_STATE lsPROVISIONAL]

/-! ### Credits (R237 to R240) -/

/-- The link layer of a FAB port runs: PARAM or later. -/
def State.linkRuns (s : State) (p : Nat) : Bool := s.isFab p && lsPARAM ≤ s.link p && s.link p ≤ lsRETIRING

/-- A control block that fails its CRC-8 or its type is discarded (R225). -/
def checkedCtl (p : Nat) (blk : BitVec 64) (typ : Nat) (u : Upd) : Upd := look fun s =>
  when_ (s.linkRuns p) <|
    if blkCrcOk blk && blkByte blk 0 == typ then u else all [raise (.port p) .PORT_CTL_CRC, bump (.port p) 8]

/-- CREDIT_BLOCK_RECEIVED (R224, R238): the first block of a pool since PARAM is its initial advertisement. -/
def execCreditBlockReceived (p : PortId) (blk : BitVec 64) : State → Answer := Upd.answer <| look fun s =>
  let x := bits (blkByte blk 1) 4 3
  let i := crIdx p (if x == poolCTL then 0 else blkByte blk 1 % 8) x
  let v := blkByte blk 2 + blkByte blk 3 <<< 8 + blkByte blk 4 <<< 16
  checkedCtl p blk 0x71 <|
    if !s.ivOn .crInit i && v < leastCredits x then all [bump (.port p) 14, linkFails p (some .PORT_CREDIT_INIT)]
    else all [put .crInit 1 i, put .txLimit v i]

/-- CREDIT_REFRESH (R239): every pool, outside Rest. -/
def execCreditRefresh (p : PortId) : State → Answer := Upd.answer <| look fun s =>
  when_ (s.linkRuns p && s.link p != lsREST) (forEach fabPools fun (c, x) => sendCredit p c x)

/-- A frame waits at port `p` for credits of a class and pool that the partner has not granted (R240). -/
def State.lacksCredits (s : State) (p : Nat) (k : Pkt) : Bool :=
  k.copies.any (fun c => c.dst == .port p && !c.started) &&
    (if s.isFab p then
       (s.iv .txLimit (crIdx p (if k.pool == poolCTL then 0 else k.frame.cls) k.pool) + 2 ^ 24 -
         s.iv .txUsed (crIdx p (if k.pool == poolCTL then 0 else k.frame.cls) k.pool)) % 2 ^ 24 < ceilDiv k.frame.len 64
     else s.ivOn .pcieFc p && !(s.iv .pcieFc p - 1).testBit k.pool)

/-- CREDIT_STALL_TIMEOUT (R240): codes 0xE and 0xF turn the limit off. A width change or a RECOVERY stops no clock. -/
def execCreditStallTimeout (p : PortId) (cls : ClassId) (pool : PoolId) : State → Answer := Upd.answer <| look fun s =>
  let waits := s.buf.any fun k => k.pool == pool.val && (pool.val == poolCTL || k.frame.cls == cls.val) && s.lacksCredits p k
  when_ (s.role p != 0 && (s.carries p || s.mayNarrow p) && s.rd (.port p) .PORT_LINK_CTRL_CREDIT_STALL < 0xE && waits)
    (raise (.port p) .PORT_CREDIT_STALL)

/-- NUM_REKEY_THRESHOLD (R251): on an encrypted link the port asks SEC for a new key. -/
def execNumRekeyThreshold (p : PortId) : State → Answer := Upd.answer <| look fun s =>
  when_ (s.linkRuns p && s.on (.port p) .PORT_LINK_STAT_ENC) <|
    all [put .txNum (max (2 ^ 40) (s.iv .txNum p)) p, emit (.keyRequest p)]

/-- NUM_EXHAUSTED (R251): NUM stands at 2^48, at which no new sequenced frame starts. -/
def execNumExhausted (p : PortId) : State → Answer := Upd.answer <| look fun s =>
  when_ (s.linkRuns p && s.on (.port p) .PORT_LINK_STAT_ENC && !s.ivOn .nextKey p) (put .txNum (2 ^ 48) p)

/-! ### Width changes and lane failure (R194, R252 to R257, R719) -/

/-- CDR_LOSS_TIMEOUT (R190, R194, R197): a Daend lane in ACTIVE fails; a PCI Express port goes through RECOVERY, and a lane that
it then leaves out has failed. A loss of signal without a REST block is a CDR loss; in REST the CDR is frozen, and nothing is
lost. -/
def execCdrLossTimeout (l : LaneId) (signalLost : Bool) : State → Answer := Upd.answer <| look fun s =>
  when_ (!s.ivOn .rxRest l) <|
    all [wln l .LANE_STAT_CDR_LOCK 0, laneCnt l 8 1, when_ signalLost (wln l .LANE_STAT_SIG_DET 0),
         when_ (s.laneState l == laneACTIVE) <|
           if s.ln l .LANE_RATE_CFG_MODE == modePCIe then forSome (s.owner l) fun p => narrowPort p l else laneFail l]

/-- UNCORRECTABLE_LIMIT (R194, R197). -/
def execUncorrectableLimit (l : LaneId) : State → Answer := Upd.answer <| look fun s =>
  when_ (s.laneState l == laneACTIVE) (laneFail l)

/-- LANEMAP_RECEIVED (R253, R254): a port that has named the same set and ID switches over; one that has named another takes
the intersection under the higher ID; a port with no change of its own answers with the same and switches. The block is sent every
16 slots, so the set and ID of a change that is done bring nothing new. -/
def execLanemapReceived (p : PortId) (blk : BitVec 64) : State → Answer := Upd.answer <| look fun s =>
  let set := blkByte blk 1 + blkByte blk 2 <<< 8
  let id := blkByte blk 3
  checkedCtl p blk 0xA5 <|
    if s.link p == lsWIDTH then
      let both := s.iv .wcSet p &&& set
      let top := max id (s.iv .wcId p)
      if s.iv .wcSet p == set && s.iv .wcId p == id then finishWidthChange p set id
      else all [put .wcSet both p, put .wcId top p, sendLanemap p both top,
                when_ (both == set && s.iv .wcId p ≤ id) (finishWidthChange p set id)]
    else when_ (s.mayNarrow p && s.iv .wcDone p != set * 256 + id + 1) <|
      all [sendLanemap p set id, finishWidthChange p set id]

/-- WIDENING_LANES_READY (R253): the added lanes have finished ALIGN and EQ, and the switch-over starts. -/
def execWideningLanesReady (p : PortId) : State → Answer := Upd.answer <| look fun s =>
  let added := (s.portLanes p).filter fun l => s.laneState l == laneTRAIN
  when_ (s.isFab p && s.ivOn .widening p && s.inService p && added.all fun l => s.ln l .LANE_STAT_EQ_DONE == 1) <|
    startWidthChange p (s.iv .widening p)

/-- WIDTH_CHANGE_TIMEOUT (R255). -/
def execWidthChangeTimeout (p : PortId) : State → Answer := Upd.answer <| look fun s =>
  when_ (s.isFab p && s.link p == lsWIDTH) (all [linkDown p, raise (.port p) .PORT_WIDTH_FAIL])

/-- The link has been trained, and its loss takes the port down (R719). -/
def State.trained (s : State) (p : Nat) : Bool :=
  if s.isFab p then lsPARAM ≤ s.link p && s.link p ≤ lsRETIRING else lsRECOVERY ≤ s.link p && s.link p ≤ 0x09

/-- LINK_LOSS (R719): every lane of the current set has lost its signal or its CDR lock; the link goes down as a whole with
LINK_DOWN; no LANE_FAIL bit is set. On PCI Express in RECOVERY, a training has failed. -/
def execLinkLoss (p : PortId) : State → Answer := Upd.answer <| look fun s =>
  when_ (s.role p != 0 && s.trained p) <|
    all [forEach (s.txLanes p) fun l => all [wln l .LANE_STAT_SIG_DET 0, wln l .LANE_STAT_CDR_LOCK 0, laneCnt l 8 1],
         when_ (!s.isFab p && s.link p == lsRECOVERY) (bump (.port p) 14), linkDown p, raise (.port p) .PORT_LINK_DOWN]

/-! ### Rest (R189 to R193, R245 to R247) -/

/-- REST_RECEIVED (R190): CDR and adaptation freeze, codeword and ALIGN lock end, and the lane is in REST. -/
def execRestReceived (l : LaneId) : State → Answer := Upd.answer <| look fun s =>
  when_ (s.ln l .LANE_RATE_CFG_MODE == modeDaend && (s.laneState l == laneACTIVE || s.laneState l == laneREST)) <|
    all [put .rxRest 1 l, wln l .LANE_STAT_ALIGN_LOCK 0, wln l .LANE_STAT_FEC_LOCK 0, put .alignMiss 0 l,
         when_ (s.laneState l == laneACTIVE) <|
           all [wln l .LANE_STAT_STATE laneREST, wln l .LANE_REST_CTRL_IN_REST 1, laneCnt l 6 1]]

/-- The UI of the wake burst of lane `l` after a Rest of `ns` (R191). -/
def State.burst (s : State) (l ns : Nat) : Nat :=
  if s.ln l .LANE_REST_CTRL_LONG_ALWAYS == 1 || 1000000 * max 1 (s.ln l .LANE_REST_CTRL_LONG_AFTER) < ns then 16384 else 2048

/-- SEQ one back. -/
def seqPrev (n : Nat) : Nat := (n + 4095) % 4096

/-- How long the transmit direction of port `p` has been in Rest, in ns. -/
def State.restTime (s : State) (p : Nat) : Nat := s.now + 1 - s.iv .restSince p

/-- The transmit direction leaves Rest (R191): on each lane that rests, a wake burst, then an ALIGN block with which the ALIGN count
starts afresh. What was held meanwhile goes out. A port that retires stays in RETIRING. -/
def restLeave (p : Nat) : Upd := look fun s =>
  let ls := (s.txLanes p).filter fun l => s.laneState l == laneREST
  all [when_ (s.link p == lsREST) (wr (.port p) .PORT_LINK_STAT_STATE lsUP), put .restSince 0 p, put .restPend 0 p, put .restHeld 0 p,
       forEach ls fun l =>
         let ui := s.burst l (s.restTime p)
         all [emit (.wakeBurst p l ui), when_ (ui == 16384) (laneCnt l 7 1), put .alignTx 0 l, sendAlign l,
              when_ (!s.ivOn .rxRest l) (all [wln l .LANE_STAT_STATE laneACTIVE, wln l .LANE_REST_CTRL_IN_REST 0])],
       when_ ((s.iv .restHeld p).testBit 1) (ctl p 0x69 (seqPrev (s.iv .rxSeq p))),
       when_ (s.iv .restHeld p == 1) (ctl p 0x55 (seqPrev (s.iv .rxSeq p)))]

/-- An exit request (R192): carried out once 200 ns of Rest have passed; until then it is kept. -/
def restExit (p : Nat) : Upd := look fun s =>
  when_ (s.isFab p && s.link p == lsREST) (if s.restTime p < 200 then put .restPend 1 p else restLeave p)

/-- REST_EXIT (R246). -/
def execRestExit (p : PortId) : State → Answer := Upd.answer (restExit p)

/-- The kept exit requests whose 200 ns have passed (R192). -/
def restDue : Upd := forBelow 96 fun p => look fun s => when_ (s.ivOn .restPend p && 200 ≤ s.restTime p) (restLeave p)

/-- A block that becomes ready ends Rest (R246): while the exit is kept, it is noted as `held`, and goes out after the exit. -/
def awake (p held : Nat) (u : Upd) : Upd :=
  all [restExit p, look fun s => if s.link p == lsREST then modIv .restHeld (setBit · held) p else u]

/-- An ACK of the last accepted SEQ (R230). -/
def sendAck (p : Nat) : Upd := look fun s =>
  all [awake p 0 (ctl p 0x55 (seqPrev (s.iv .rxSeq p))), put .rxUnacked 0 p]

/-- A NAK, unless one waits for its replay (R231). -/
def sendNak (p : Nat) : Upd := look fun s =>
  when_ (!s.ivOn .nakSent p) <|
    all [awake p 1 (ctl p 0x69 (seqPrev (s.iv .rxSeq p))), put .nakSent 1 p, put .rxUnacked 0 p, bump (.port p) 5]

/-- CREDIT_UPDATE_SEND (R239): the pool's credits are granted and sent. -/
def execCreditUpdateSend (p : PortId) (cls : ClassId) (pool : PoolId) : State → Answer := Upd.answer <| look fun s =>
  let c := if s.isFab p && pool.val != poolCTL then cls.val else 0
  if s.linkRuns p then all [grantCredits p c pool, coreWatch, restExit p, look fun t => when_ (t.link p != lsREST) (sendCredit p c pool)]
  else when_ (!s.isFab p && s.link p == lsL0 && pool.val != poolCTL) <|
    all [grantCredits p 0 pool, look fun t => emit (.flowCredit p pool (t.iv .crAdv (crIdx p 0 pool))), coreWatch]

/-- REST_EXIT_FAIL (R193, R247): EXIT_FAIL, and the port retrains from DOWN. -/
def execRestExitFail (l : LaneId) : State → Answer := Upd.answer <| look fun s =>
  let port := s.owner l
  when_ (s.ivOn .rxRest l) <|
    all [put .rxRest 0 l, forSome port linkDown, wln l .LANE_STAT_EXIT_FAIL 1]

/-! ### PCI Express links -/

/-- The widest width code and the highest rate code at which PCI Express port `p` may train (R163, R165, R257, Table PORT-3):
separate references reach 32 GT/s. -/
def State.pcieWidest (s : State) (p : Nat) : Nat :=
  let n := if s.iv .curSet p == 0 then 16 else (setLanes (s.iv .curSet p)).length
  min (s.rd (.port p) .PORT_CFG_WIDTH) ((widthFor n).getD 0)
def State.pcieFastest (s : State) (p : Nat) : Nat :=
  ((s.portLanes p).map fun l => s.ln l .LANE_RATE_CFG_PCIE_MAX).foldl min (if s.on (.port p) .PORT_CFG_SEP_REF then 5 else 6)

/-- The lanes that a PCI Express link of width code `w` uses: from its lane 0 up, or under reversal from its highest down (R186,
R256). -/
def State.pcieLanes (s : State) (p w : Nat) (rev : Bool) : List Nat :=
  let ls := s.portLanes p
  if rev then ls.drop (ls.length - 2 ^ w) else ls.take (2 ^ w)

/-- PCIE_LINK_UP (R216): the link reaches L0 within what the port and its lanes allow; an UP port trains only for a bound face
whose FPERST_N is high (Table FACE-1). Lanes that a retraining excludes have failed (R194), and the link has narrowed (R257). -/
def execPcieLinkUp (p : PortId) (width : Fin 5) (rate : Fin 6) (flit rev : Bool) (inv : BitVec 16) (aspm : BitVec 2) :
    State → Answer := Upd.answer <| look fun s =>
  let w := min width.val (s.pcieWidest p)
  let r := min (rate.val + 1) (s.pcieFastest p)
  let use := s.pcieLanes p w rev
  let faceOk := s.role p != roleUP || (match s.faceOf p with
    | some f => s.ivOn .fperst f
    | none => false)
  let again := s.link p == lsRECOVERY
  let training := lsDETECT ≤ s.link p && s.link p ≤ lsRECOVERY
  let was := (setLanes (s.rd (.port p) .PORT_LINK_STAT_LANES_GOOD)).length
  let gone := (s.portLanes p).filter fun l => s.laneState l == laneACTIVE && !use.contains l
  let fewer := again && 2 ^ w < was
  when_ (!s.isFab p && s.role p != 0 && faceOk && training && !s.on (.port p) .PORT_LINK_CTRL_DISABLE && r != 0 && !s.noClock p) <|
    if s.belowMin p (2 ^ w) then all [bump (.port p) 14, linkFails p (some .PORT_BELOW_MIN_WIDTH)]
    else
      all [wr (.port p) .PORT_LINK_STAT_STATE lsL0, useSet p (2 ^ 2 ^ w - 1), wr (.port p) .PORT_LINK_STAT_RATE_NOW r,
           wr (.port p) .PORT_LINK_STAT_FLIT (b2n (r == 6 || (flit && s.on (.port p) .PORT_CFG_FLIT_BELOW))),
           put .pcieRev (b2n rev) p, put .partnerAspm aspm.toNat p,
           forEach (s.portLanes p) fun l => if use.contains l then
               all [wln l .LANE_STAT_STATE laneACTIVE, wln l .LANE_RATE_CFG_RATE_NOW r, wln l .LANE_STAT_SIG_DET 1,
                 wln l .LANE_STAT_CDR_LOCK 1,
                 wln l .LANE_STAT_LOGICAL (if rev then firstLane p + (s.portLanes p).length - 1 - l else l - firstLane p),
                 wln l .LANE_RATE_CFG_RX_INV_NOW (if s.ln l .LANE_RATE_CFG_RX_INV_AUTO == 1 then b2n (inv.getLsbD (l - firstLane p))
                   else s.ln l .LANE_RATE_CFG_RX_INV)]
             else laneOff l,
           if again then
             all [when_ (s.role p == roleUP) <| forSome (s.faceOf p) fun f => wr (.face f) .FACE_PM_STAT_LINK_PM 0,
                  forEach gone fun l => all [wln l .LANE_STAT_FAILED 1, raise (.lane (l / 8)) (.LANE_LANE_FAIL (l % 8))],
                  when_ fewer (all [put .curSet (bitmapOf (use.map (· - firstLane p))) p, bump (.port p) 12,
                    raise (.port p) .PORT_WIDTH_DOWN])]
           else
             all [when_ (s.link p != lsPOLLING && s.link p != lsCONFIG) (bump (.port p) 13),
               forBelow 3 fun x => look fun t =>
                 put .crAdv (t.iv .crUsed (crIdx p 0 x) + t.reserve p 0 x) (crIdx p 0 x),
               when_ (s.role p == roleUP) <| forSome (s.faceOf p) fun f =>
                 all [wr (.face f) .FACE_BIND_STATE 2, wr (.face f) .FACE_PM_STAT_LINK_PM 0, msixFlush f]]]

/-- PCIE_REPLAY_NUM_ROLLOVER (R218): the port retrains, and CONSEC shows REPLAY_NUM. -/
def execPcieReplayNumRollover (p : PortId) (num : Fin 256) : State → Answer := Upd.answer <| look fun s =>
  when_ (!s.isFab p && s.carries p) <|
    all [wr (.port p) .PORT_LINK_STAT_STATE lsRECOVERY, wr (.port p) .PORT_REPLAY_CNT_CONSEC num, bump (.port p) 7, bump (.port p) 13]

/-! ### Software's control of a link (R213, R260) -/

/-- Port `p` enters RETIRING (R428); the change of its link status ends its Rest (R246). -/
def retire (p : Nat) : Upd := all [restExit p, wr (.port p) .PORT_LINK_STAT_STATE lsRETIRING]

/-- A write of `v` to PORT_LINK_CTRL: DISABLE holds the link down, RETRAIN takes it through DOWN with its failed lanes claimed
again, LINK_RETIRE starts RETIRING on a usable FAB port (R428). A contained port obeys GUARD alone (R213). -/
def linkCtrlWrite (st : Stamp) (p v : Nat) : Upd := look fun s =>
  let free := s.link p != lsCONTAINED && !s.portHeld p
  let down := s.link p == s.restState p || s.link p == lsDISABLED
  all [plainWrite st (.port p) 0x108 v,
       if v.testBit 29 then when_ (free && s.role p != 0 && !down) (linkDown p)
       else all [
         when_ (s.link p == lsDISABLED && free) (wr (.port p) .PORT_LINK_STAT_STATE lsDETECT),
         when_ (v.testBit 31 && free && s.role p != 0) <|
           all [put .curSet 0 p, linkDown p, forEach ((s.portLanes p).filter fun l => s.laneState l == laneOFF && s.pllLocked (l / 8)
             (s.ln l .LANE_RATE_CFG_MODE)) laneTrain],
         when_ (v.testBit 30 && !v.testBit 31 && s.usable p) (retire p)],
       look fun t => when_ (t.role p != 0 && !t.isFab p && t.on (.port p) .PORT_LINK_CTRL_DISABLE && free)
         (wr (.port p) .PORT_LINK_STAT_STATE lsDISABLED)]

/-- PORT_RETRAIN (R213). -/
def execPortRetrain (st : Stamp) (p : PortId) (v : Word) : State → Answer := Upd.answer <|
  granted st (.port p) 0x108 (linkCtrlWrite st p v.toNat)

/-- A software request for containment (R260, Table GUARD-3): class FD, source block 0x10, the stamp in DETAIL1. -/
def requestContain (st : Stamp) (pg : Pg) (d : Dom) : Upd :=
  modGreqs (· ++ [{ pg := pg, bit := 0, cls := .fd, dom := .dom d, block := 0x10, detail0 := 0, detail1 := st.code, warn := false }])

/-- PORT_CONTAIN (R260). -/
def execPortContain (st : Stamp) (p : PortId) : State → Answer := Upd.answer <| look fun s =>
  granted st (.port p) 0x110 (requestContain st (.port p) (s.portDom p))

end Sys2Proof.Machine
end

