-- ==== Sys2Proof/Machine/Route.lean ====
section
/-! DEFINITION. Route plates and translation (spec/09): entry formats, both lookup stages, misses, the writing, verification and
turning of plates, and their integrity. -/

namespace Sys2Proof.Machine

/-! ### Entries (R366, R367) -/

/-- Entry `i` of plate `k`. -/
def State.entry (s : State) (k i : Nat) : Nat := s.iv .plate (k * 524288 + i)

/-- Dword `d` of an entry. -/
def dword (e d : Nat) : Nat := bits e (32 * d + 31) (32 * d)

/-- The entries of plate `k` from index `lo` to `hi` that are not all zero, in rising order. -/
def State.entries (s : State) (k lo hi : Nat) : List (Nat × Nat) :=
  s.ivs.filterMap fun (key, v) =>
    let i := key / 512 - k * 524288
    if key % 512 == Var.plate.ctorIdx && key / 512 / 524288 == k && lo ≤ i && i ≤ hi then some (i, v) else none

/-- VALID and TYPE of an entry as one number (dword 0 bits 31:28; dword 2 for a policy set). -/
def tagOf (e : Nat) : Nat := bits e 31 28
def policyTag (e : Nat) : Nat := bits e 95 92

/-- VALID with the types of Tables PLATE-2 to PLATE-6. -/
def tagHeader : Nat := 0xF
def tagPolicy : Nat := 0xE
def tagMcRef : Nat := 0xC
def tagIdRoute : Nat := 0xA
def tagWindow : Nat := 0x9
def tagMcWindow : Nat := 0xB

/-- An ID route (Table PLATE-5). -/
structure IdRoute where
  part : Nat
  isLocal : Bool
  port : Nat
  cls : Nat
  cfgPart : Nat
  cfgAny : Bool
  retain : Bool
  kind : Nat
  space : Nat
  rid : Nat
  alts : List Nat
  sw : Nat
deriving DecidableEq, Repr

/-- KIND of an ID route. -/
def kindDevice : Nat := 0
def kindFace : Nat := 1
def kindInst : Nat := 2
def kindInternal : Nat := 3

/-- The fields of an ID route entry. -/
def idRouteOf (e : Nat) : IdRoute :=
  { part := bits e 27 23, isLocal := e.testBit 22, port := bits e 21 15, cls := bits e 14 12, cfgPart := bits e 11 7,
    cfgAny := e.testBit 6, retain := e.testBit 5, kind := bits e 4 3, space := bits e 63 56, rid := bits e 47 32,
    alts := (List.range 4).filterMap fun m => if e.testBit (64 + 8 * m + 7) then some (bits e (64 + 8 * m + 6) (64 + 8 * m)) else none,
    sw := bits e 127 122 }

/-- The ID route of FEID `n` in plate `k`, when it is valid. -/
def State.idRoute? (s : State) (k n : Nat) : Option IdRoute :=
  let e := s.entry k (0x2000 + n % 8192)
  if tagOf e == tagIdRoute then some (idRouteOf e) else none

/-- Every valid ID route of plate `k`, with its FEID. -/
def State.idRoutes (s : State) (k : Nat) : List (Nat × IdRoute) :=
  (s.entries k 0x2000 0x3FFF).filterMap fun (i, e) => if tagOf e == tagIdRoute then some (i - 0x2000, idRouteOf e) else none

/-- A policy set (Table PLATE-3). -/
structure Policy where
  read : Nat
  write : Nat
  cls : Nat
  prefetch : Bool
  retain : Bool
deriving DecidableEq, Repr

/-- A set that grants no partition: what a policy set that is not valid counts as (R370). -/
def Policy.none : Policy := ⟨0, 0, 0, false, false⟩

/-- Policy set `n` of plate `k`. -/
def State.policy (s : State) (k n : Nat) : Policy :=
  let e := s.entry k (0x400 + n % 512)
  if policyTag e == tagPolicy then ⟨dword e 0, dword e 1, bits e 91 89, e.testBit 88, e.testBit 87⟩ else .none

/-- The multicast reference of group `g`: its policy set's number (Table PLATE-4). -/
def State.mcRef? (s : State) (k g : Nat) : Option Nat :=
  let e := s.entry k (0x1000 + g % 4096)
  if tagOf e == tagMcRef then some (bits e 8 0) else none

/-- A window (Table PLATE-6). -/
structure Win where
  index : Nat
  mc : Bool
  log2 : Nat
  policy : Nat
  dest : Nat
  fabBase : Nat
  devBase : Nat
deriving DecidableEq, Repr

/-- The fields of a window entry at index `i`. -/
def winOf (i e : Nat) : Win :=
  { index := i, mc := tagOf e == tagMcWindow, log2 := bits e 27 22, policy := bits e 21 13, dest := bits e 12 0,
    fabBase := dword e 1 <<< 12 + bits e 95 84 <<< 44, devBase := bits e 83 64 <<< 12 + dword e 3 <<< 32 }

/-- The valid windows of plate `k`, in the order of their entries. -/
def State.windows (s : State) (k : Nat) : List Win :=
  (s.entries k 0x4000 0x7FFFF).filterMap fun (i, e) =>
    if tagOf e == tagWindow || tagOf e == tagMcWindow then some (winOf i e) else none

/-- An address lies in the window. -/
def Win.has (w : Win) (a : Nat) : Bool := w.fabBase ≤ a && a < w.fabBase + 2 ^ w.log2

/-- The smallest window that contains `a` (R369). -/
def smallest (ws : List Win) (a : Nat) : Option Win :=
  ws.foldl (fun best w => if !w.has a then best else match best with
    | none => some w
    | some b => if w.log2 < b.log2 then some w else some b) none

/-! ### Plates (R379, R386, R388) -/

/-- The live plate. -/
def State.live (s : State) : Nat := s.rd (.route 0) .ROUTE_LIVE_SEL_LIVE

/-- Codes of a plate's state. -/
def plDRAFT : Nat := 0
def plLIVE : Nat := 1
def plGRACE : Nat := 2

/-- The state and the VERIFIED bit of plate `k`, as fields of ROUTE_LIVE_SEL. -/
def plateStateFld (k : Nat) : Fld := if k == 0 then .ROUTE_LIVE_SEL_P0_STATE else .ROUTE_LIVE_SEL_P1_STATE
def plateVerFld (k : Nat) : Fld := if k == 0 then .ROUTE_LIVE_SEL_P0_VERIFIED else .ROUTE_LIVE_SEL_P1_VERIFIED

/-- The state of plate `k`. -/
def State.plateState (s : State) (k : Nat) : Nat := s.rd (.route 0) (plateStateFld k)

/-- The draft, while a plate is in that state. -/
def State.draft? (s : State) : Option Nat := firstBelow 2 fun k => s.plateState k == plDRAFT

/-- A turn is armed. -/
def State.turnArmed (s : State) : Bool := s.on (.route 0) .ROUTE_TURN_CTRL_ARM

/-- The plate that is not live, in state DRAFT and verified. -/
def State.verifiedDraft (s : State) (k : Nat) : Bool := s.plateState k == plDRAFT && s.on (.route 0) (plateVerFld k)

/-- R388: the plate serves transit and egress-edge lookups of frames with its parity. -/
def State.plateUsable (s : State) (k : Nat) : Bool :=
  s.plateState k == plLIVE || s.plateState k == plGRACE || (s.verifiedDraft k && s.turnArmed)

/-- Write access to plate `k` is open (R379). -/
def State.plateOpen (s : State) (k : Nat) : Bool :=
  s.plateState k == plDRAFT && !s.on (.route 0) .ROUTE_VERIFY_CTRL_BUSY && !s.turnArmed

/-- The internal FEID of switch `w` (R401). -/
def State.switchFeid? (s : State) (w : Nat) : Option Nat :=
  (s.idRoutes s.live).find? (fun r => r.2.kind == kindInternal && r.2.sw == w) |>.map (·.1)

/-! ### Misses and refusals (R376 to R378) -/

/-- Cause codes of Table PLATE-7. -/
def missFACE_MISS : Nat := 0x1
def missADDR_HIGH : Nat := 0x2
def missNO_SOURCE : Nat := 0x3
def missNO_WINDOW : Nat := 0x4
def missSPAN : Nat := 0x5
def missDENIED : Nat := 0x6
def missNO_ROUTE : Nat := 0x7
def missMC_NP : Nat := 0x8
def missSTALE_PARITY : Nat := 0x9
def missSRC_SPOOF : Nat := 0xA
def missCFG_ABSORBED : Nat := 0xB

/-- The error bit of a cause (Table PLATE-7). -/
def missErr (c : Nat) : Err :=
  if c == missDENIED then .ROUTE_DENIED
  else if c == missSTALE_PARITY then .ROUTE_STALE_PARITY
  else if c == missSRC_SPOOF then .ROUTE_SRC_SPOOF
  else if c == missCFG_ABSORBED then .ROUTE_CFG_ABSORBED
  else .ROUTE_MISS

/-- One miss: cause, plate used, ingress port, REQ, source FEID, address, the domain of its error request (Table GUARD-3), and
the face whose request it was. -/
structure Miss where
  cause : Nat
  parity : Nat
  port : Nat
  req : Nat
  src : Nat
  addr : Nat
  dom : ReqDom
  face : Option Nat

/-- The 128 bits of a miss record. -/
def Miss.word (m : Miss) (time : Nat) : Nat :=
  1 <<< 31 + (m.cause % 16) <<< 27 + (m.parity % 2) <<< 26 + (m.port % 128) <<< 19 + (m.req % 8) <<< 16
    + (if m.cause == missNO_SOURCE then 0 else m.src % 8192)
    + (m.addr % 2 ^ 64) <<< 32 + (time % 2 ^ 32) <<< 96

/-- ROUTE_MISS (R376): the miss is counted, logged and reported (Table GUARD-5: a face learns of its own miss). -/
def miss (m : Miss) : Upd := look fun s =>
  let e := missErr m.cause
  all [bump (.route 0) (16 + m.cause),
       if (s.fifo .missLog).length < 256 then push .missLog (m.word s.now)
       else all [bump (.route 0) 38, raise (.route 0) .ROUTE_LOG_OVERFLOW],
       when_ (!(s.rd (.route 0) .ERR_MASK_MASK).testBit e.bit) <| forSome m.face fun f => emit (.aer f .usp .unsupportedRequest),
       raiseAll (.route 0) [{ err := e, dom := some m.dom, detail0 := if m.cause == missNO_SOURCE then 0 else m.src }]]

/-! ### Lookups -/

/-- What stage 2 and the ID routes give a request (R362). -/
structure Sel where
  group : Option Nat
  dest : Nat
  addr : Nat
  cls : Nat
  retain : Bool
  prefetch : Bool
deriving DecidableEq, Repr

/-- R370: partition `part` may make a request of the kind under policy set `p`. -/
def Policy.allows (p : Policy) (part : Nat) : TlpKind → Bool
  | .memWr => p.write.testBit part
  | .atomic => p.read.testBit part && p.write.testBit part
  | _ => p.read.testBit part

/-- Stage 2 (R362, R368 to R372): the window of the live plate, the permission of the source's partition, and the
destination; or the cause of the miss. A multicast frame's class and RETAIN are those of its group's reference (Table
PLATE-4). -/
def State.stage2 (s : State) (part : Nat) (kind : TlpKind) (fab len : Nat) : Except Nat Sel :=
  let k := s.live
  let ws := s.windows k
  match smallest ws fab with
  | none => .error missNO_WINDOW
  | some w =>
    if (smallest ws (fab + (max 1 len - 1))).map (·.index) != some w.index then .error missSPAN
    else if w.mc && kind != .memWr then .error missMC_NP
    else
      let p := s.policy k w.policy
      let a := (w.devBase + (fab - w.fabBase)) % 2 ^ 64
      if !p.allows part kind then .error missDENIED
      else if w.mc then
        match s.mcRef? k w.dest with
        | none => .error missNO_ROUTE
        | some n =>
          let q := s.policy k n
          if q.allows part kind then .ok ⟨some (w.dest % 4096), 0, a, q.cls, q.retain, p.prefetch⟩ else .error missDENIED
      else match s.idRoute? k w.dest with
        | none => .error missNO_ROUTE
        | some _ => .ok ⟨none, w.dest, a, p.cls, p.retain, p.prefetch⟩

/-- What a miss record gives as ADDR for a fabric address: the destination at NO_ROUTE, the address otherwise. -/
def State.missAddr (s : State) (cause fab : Nat) : Nat :=
  if cause == missNO_ROUTE then ((smallest (s.windows s.live) fab).map (·.dest)).getD 0 else fab

/-- Stage 1 for a device below DOWN port `p` (R360): its FEID. -/
def State.deviceFeid? (s : State) (p : Nat) (rid : Nat) : Option (Nat × IdRoute) :=
  (s.idRoutes s.live).find? fun r => r.2.kind == kindDevice && r.2.isLocal && r.2.port == p && r.2.rid == rid

/-- The way toward FEID `n` by plate `k` for a frame that arrived on `arrival` (R364, R412): a local destination, or a FAB port
that is usable. -/
def State.wayTo (s : State) (k n : Nat) (arrival : Option Nat) : Option Dst :=
  match s.idRoute? k n with
  | none => none
  | some r =>
    if r.isLocal then
      some (if r.kind == kindDevice || r.kind == kindFace then .port r.port else .self)
    else if s.usable r.port then some (.port r.port)
    else (r.alts.find? fun q => s.usable q && some q != arrival).map .port

/-- A lookup of a transit or egress-edge frame is counted, with the plate it used (R397). -/
def countTransit (k : Nat) : Upd := look fun s =>
  all [bump (.route 0) 1, when_ (s.plateState k == plGRACE) (bump (.route 0) 2),
       when_ (s.plateState k == plDRAFT && s.plateUsable k) (bump (.route 0) 3)]

/-! ### Writing a draft (R379 to R381) -/

/-- The arbiter grants an access to the plate window. -/
def grantPlate (st : Stamp) (u : Upd) : Upd := onPath st (all [put .arbLast (st.code + 1) (0x1000000 / 0x40), u])

/-- A write to the plate window that R379 discards. -/
def plateDiscard (st : Stamp) : Upd := all [raise (.route 0) .ROUTE_PLATE_WRITE, tellDiscard st (.route 0) [.ROUTE_PLATE_WRITE]]

/-- A write to dword 0, 1 or 2 of a draft's entry is staged; another entry's stage is dropped. -/
def plateStage (st : Stamp) (k i d v : Nat) : Upd := look fun s =>
  let at_ := k * 524288 + i + 1
  if s.plateOpen k then
    all [put .plateHas (setBit (if s.iv .plateAt st.code == at_ then s.iv .plateHas st.code else 0) d) st.code,
         put .plateAt at_ st.code, put .plateDw (v % 2 ^ 32) (4 * st.code + d)]
  else plateDiscard st

/-- A write to dword 3 commits the entry, takes the staged dwords of the same entry, and empties the stage; the draft is no
longer verified. -/
def plateCommit (st : Stamp) (k i v : Nat) : Upd := look fun s =>
  let at_ := k * 524288 + i
  let has := if s.iv .plateAt st.code == at_ + 1 then s.iv .plateHas st.code else 0
  let dw := fun d => if has.testBit d then s.iv .plateDw (4 * st.code + d) else dword (s.entry k i) d
  if s.plateOpen k then
    all [put .plate (dw 0 + dw 1 <<< 32 + dw 2 <<< 64 + (v % 2 ^ 32) <<< 96) at_,
         put .plateAt 0 st.code, put .plateHas 0 st.code, wr (.route 0) (plateVerFld k) 0]
  else plateDiscard st

/-- PLATE_ENTRY_STAGE. -/
def execPlateEntryStage (st : Stamp) (k : Fin 2) (i : Fin 524288) (d : Fin 3) (v : Word) : State → Answer :=
  Upd.answer <| grantPlate st (plateStage st k i d v.toNat)

/-- PLATE_ENTRY_COMMIT. -/
def execPlateEntryCommit (st : Stamp) (k : Fin 2) (i : Fin 524288) (v : Word) : State → Answer :=
  Upd.answer <| grantPlate st (plateCommit st k i v.toNat)

/-! ### Verification (R382 to R384) -/

/-- The STATUS codes of ROUTE_VERIFY_CTRL. -/
def vfOK : Nat := 0x1
def vfHDR : Nat := 0x2
def vfTARGET : Nat := 0x3
def vfGEN : Nat := 0x4
def vfFULL : Nat := 0x5
def vfDIGEST : Nat := 0x6
def vfSIG : Nat := 0x7
def vfFIELD : Nat := 0x8
def vfORDER : Nat := 0x9
def vfREF : Nat := 0xA
def vfREFUSED : Nat := 0xB

/-- A write of `v` to ROUTE_VERIFY_CTRL: GO starts the verification of the draft, with the signed block as it is now. -/
def verifyCtrlWrite (v : Nat) : Upd := look fun s =>
  when_ (v.testBit 31 && !s.on (.route 0) .ROUTE_VERIFY_CTRL_BUSY) <|
    match s.draft? with
    | some k =>
      if s.turnArmed || s.verifiedDraft k then wr (.route 0) .ROUTE_VERIFY_CTRL_STATUS vfREFUSED
      else all [wr (.route 0) .ROUTE_VERIFY_CTRL_BUSY 1, put .sigStale 0,
                forBelow 48 fun j => put .verifySig (s.rd (.route 1) .ROUTE_SIG_BLK_DW j) j]
    | none => wr (.route 0) .ROUTE_VERIFY_CTRL_STATUS vfREFUSED

/-- PLATE_VERIFY_START. -/
def execPlateVerifyStart (st : Stamp) (v : Word) : State → Answer := Upd.answer <|
  granted st (.route 0) 0x114 (verifyCtrlWrite v.toNat)

/-- The switch ID as images and plates name it: 0xFF outside a fabric. -/
def State.switchId (s : State) : Nat := s.selfSw.getD 0xFF

/-- Check 7 of Table PLATE-9 for one entry that is not all zero. -/
def fieldOk (winCount i e : Nat) : Bool :=
  if i == 0 then bits e 27 9 == 0 && bits e 95 83 == 0
  else if i < 0x400 then false
  else if i < 0x600 then
    if !e.testBit 95 then true else policyTag e == tagPolicy && bits e 86 64 == 0 && dword e 3 == 0
  else if i < 0x1000 then false
  else if !e.testBit 31 then true
  else if i < 0x2000 then tagOf e == tagMcRef && bits e 27 9 == 0 && bits e 127 32 == 0
  else if i < 0x4000 then tagOf e == tagIdRoute && bits e 2 0 == 0 && bits e 55 48 == 0 && bits e 121 96 == 0
  else
    let w := winOf i e
    (tagOf e == tagWindow || tagOf e == tagMcWindow) && 12 ≤ w.log2 && w.log2 ≤ 52 && w.fabBase % 2 ^ w.log2 == 0
      && w.devBase % 2 ^ w.log2 == 0 && (!w.mc || w.dest < 4096) && i < 0x4000 + winCount

/-- The first window slot below `n` that the rising list of valid slots leaves out. -/
def firstGap : List Nat → Nat → Nat → Option Nat
  | [], at_, n => if at_ < n then some at_ else none
  | i :: r, at_, n => if at_ < n then (if i == at_ then firstGap r (at_ + 1) n else some at_) else none

/-- Check 7: the first entry at fault. -/
def State.fieldFault (s : State) (k winCount : Nat) : Option Nat :=
  let bad := (s.entries k 0 0x7FFFF).find? (fun (i, e) => !fieldOk winCount i e) |>.map (·.1)
  let gap := (firstGap ((s.windows k).map (·.index - 0x4000)) 0 winCount).map (· + 0x4000)
  match bad, gap with
  | some a, some b => some (min a b)
  | some a, none => some a
  | none, g => g

/-- Check 8: windows rise by base, a larger one first at equal bases (R368). Windows aligned to their size are then laminar. -/
def orderFault : List Win → Option Nat
  | a :: b :: r =>
    if a.fabBase < b.fabBase || (a.fabBase == b.fabBase && b.log2 < a.log2) then orderFault (b :: r) else some b.index
  | _ => none

/-- Check 9: what an entry names is there, and no earlier entry clashes with it. -/
def State.refFault (s : State) (k : Nat) : Option Nat :=
  let rs := s.idRoutes k
  let polOk := fun n => policyTag (s.entry k (0x400 + n % 512)) == tagPolicy
  let clash := fun (n : Nat) (r : IdRoute) => rs.any fun (m, q) => m < n &&
    ((r.kind == kindDevice && q.kind == kindDevice && r.isLocal && q.isLocal && r.port == q.port && r.rid == q.rid) ||
      (r.kind == kindInternal && q.kind == kindInternal && r.sw == q.sw))
  ((s.entries k 0x1000 0x1FFF).find? (fun (_, e) => tagOf e == tagMcRef && !polOk (bits e 8 0)) |>.map (·.1)).orElse fun _ =>
  (rs.find? (fun (n, r) => clash n r) |>.map (·.1 + 0x2000)).orElse fun _ =>
  ((s.windows k).find? (fun w => !polOk w.policy || (if w.mc then (s.mcRef? k w.dest).isNone else (s.idRoute? k w.dest).isNone)) |>.map
    (·.index))

/-- Table PLATE-9 over draft `k` and the signed block taken at GO: the STATUS code and INDEX. -/
def State.verifyDraft (s : State) (k : Nat) (digestOk sigOk : Bool) : Nat × Nat :=
  let h := s.entry k 0
  let b := fun j => s.iv .verifySig j
  let dom := b 4 + b 5 <<< 32 + b 6 <<< 64 + b 7 <<< 96
  if tagOf h != tagHeader || dword h 3 != 0x504C4154 || b 0 != 0x53474C50 || bits (b 1) 15 0 != 1 then (vfHDR, 0)
  else if (!h.testBit 8 && bits h 7 0 != s.switchId) || bits (b 1) 31 24 != bits h 7 0 || b 2 != dword h 1 || dom != s.domainId
    then (vfTARGET, 0)
  else if dword h 1 ≤ s.rd (.route 0) .ROUTE_GEN_GENERATION s.live then (vfGEN, 0)
  else if bits h 82 64 > 507904 then (vfFULL, 0)
  else if !digestOk then (vfDIGEST, 0)
  else if !sigOk then (vfSIG, 0)
  else match s.fieldFault k (bits h 82 64) with
    | some i => (vfFIELD, i)
    | none => match orderFault (s.windows k) with
      | some i => (vfORDER, i)
      | none => match s.refFault k with
        | some i => (vfREF, i)
        | none => (vfOK, 0)

/-- The verification in progress ends with a STATUS code and INDEX. -/
def verifyEnds (k code index : Nat) : Upd := look fun s =>
  all [wr (.route 0) .ROUTE_VERIFY_CTRL_BUSY 0, wr (.route 0) .ROUTE_VERIFY_CTRL_STATUS code,
       wr (.route 0) .ROUTE_VERIFY_CTRL_INDEX index,
       if code == vfOK then
         all [wr (.route 0) (plateVerFld k) 1, wr (.route 0) .ROUTE_GEN_GENERATION (dword (s.entry k 0) 1) k, bump (.route 0) 33]
       else all [raise (.route 0) .ROUTE_VERIFY_FAIL, bump (.route 0) 34]]

/-- The bytes of the entries of plate `k`, entry 0 first, 16 bytes each (Table PLATE-8). -/
def State.plateBytes (s : State) (k : Nat) : List Nat := (List.range 524288).flatMap fun i => bytesOf (s.entry k i) 16

/-- The outcome of the verification of draft `k`: STATUS = SIG when an ownership record was written meanwhile (R636). -/
def State.verifyResult (s : State) (k : Nat) : Nat × Nat :=
  if s.ivOn .sigStale then (vfSIG, 0)
  else s.verifyDraft k (blockDigest (s.iv .verifySig) (s.plateBytes k)) (s.blockSigned (s.iv .verifySig))

/-- PLATE_VERIFY_DONE (R384). -/
def execPlateVerifyDone : State → Answer := Upd.answer <| look fun s =>
  when_ (s.on (.route 0) .ROUTE_VERIFY_CTRL_BUSY) <| forSome s.draft? fun k => verifyEnds k (s.verifyResult k).1 (s.verifyResult k).2

/-! ### Plate turns (R385 to R389) -/

/-- The STATUS codes of ROUTE_TURN_CTRL. -/
def tnARMED : Nat := 1
def tnDONE : Nat := 2
def tnREFUSED_UNVERIFIED : Nat := 3
def tnREFUSED_PAST : Nat := 4
def tnMISSED : Nat := 5
def tnDISARMED : Nat := 6

/-- The number the next boundary carries: SCHED_CYC_INIT before the first lock (R441), else one more than the present one. -/
def State.nextCycle (s : State) : Nat :=
  if s.on .schedg .SCHED_CYC_STAT_EVER_LOCKED then (s.cycleNum + 1) % 2 ^ 48
  else s.rd .schedg .SCHED_CYC_INIT_CYCLE + s.rd .schedg .SCHED_CYC_INIT_CYCLE_HI <<< 32

/-- A turn is armed for cycle `c`. The armed action keeps that cycle: a later write of ROUTE_TURN_CYCLE does not move it (DESIGN
CHOICE, log entry 184: R16 does not say whether the register is sampled again at execution). -/
def turnArm (c : Nat) : Upd :=
  all [wr (.route 0) .ROUTE_TURN_CTRL_ARM 1, wr (.route 0) .ROUTE_TURN_CTRL_STATUS tnARMED, put .turnAt c]

/-- The armed turn is disarmed. -/
def turnDisarm : Upd := look fun s =>
  when_ s.turnArmed <|
    all [wr (.route 0) .ROUTE_TURN_CTRL_ARM 0, wr (.route 0) .ROUTE_TURN_CTRL_STATUS tnDISARMED, put .turnAt 0]

/-- A write of `v` to ROUTE_TURN_CTRL (R385): DISARM, then ARM for ROUTE_TURN_CYCLE or NEXT for the next boundary. With both bits
set ARM wins (R18 does not say: DESIGN CHOICE, log entry 184). -/
def turnCtrlWrite (v : Nat) : Upd := look fun s =>
  let c := s.rd (.route 0) .ROUTE_TURN_CYCLE_CYCLE + s.rd (.route 0) .ROUTE_TURN_CYCLE_CYCLE_HI <<< 32
  let ver := [0, 1].any s.verifiedDraft
  all [when_ (v.testBit 30) turnDisarm,
       when_ (v.testBit 31 || v.testBit 29) <|
         if !ver then wr (.route 0) .ROUTE_TURN_CTRL_STATUS tnREFUSED_UNVERIFIED
         else if v.testBit 31 then
           (if c ≤ s.cycleNum then wr (.route 0) .ROUTE_TURN_CTRL_STATUS tnREFUSED_PAST else turnArm c)
         else turnArm s.nextCycle]

/-- PLATE_TURN_ARM. -/
def execPlateTurnArm (st : Stamp) (v : Word) : State → Answer := Upd.answer <|
  granted st (.route 0) 0x104 (turnCtrlWrite v.toNat)

/-- PLATE_TURN_ARM_NEXT. -/
def execPlateTurnArmNext (st : Stamp) (v : Word) : State → Answer := Upd.answer <|
  granted st (.route 0) 0x104 (turnCtrlWrite v.toNat)

/-- PLATE_TURN_DISARM. -/
def execPlateTurnDisarm (st : Stamp) (v : Word) : State → Answer := Upd.answer <|
  granted st (.route 0) 0x104 (turnCtrlWrite v.toNat)

/-- PLATE_TURN (R386): the draft goes live, and the former live plate enters GRACE. -/
def plateTurn : Upd := look fun s =>
  let old := s.live
  let new := 1 - old
  all [forBelow 48 fun j => put .liveSig (s.iv .verifySig j) j,
       wr (.route 0) .ROUTE_LIVE_SEL_LIVE new, wr (.route 0) (plateStateFld new) plLIVE, wr (.route 0) (plateStateFld old) plGRACE,
       wr (.route 0) .ROUTE_LIVE_SEL_GRACE_LEFT (max 1 (s.rd (.route 0) .ROUTE_GRACE_CYCLES)),
       wr (.route 0) .ROUTE_TURN_CTRL_ARM 0, wr (.route 0) .ROUTE_TURN_CTRL_STATUS tnDONE, put .turnAt 0, bump (.route 0) 32]

/-- The grace period ends: the former live plate becomes an unverified draft. -/
def graceEnd : Upd := look fun s =>
  all [wr (.route 0) .ROUTE_LIVE_SEL_GRACE_LEFT 0,
       forBelow 2 fun k => when_ (s.plateState k == plGRACE) <|
         all [wr (.route 0) (plateStateFld k) plDRAFT, wr (.route 0) (plateVerFld k) 0]]

/-- One cycle of grace passes at a boundary. -/
def graceTick : Upd := look fun s =>
  let n := s.rd (.route 0) .ROUTE_LIVE_SEL_GRACE_LEFT
  when_ (n != 0) (if n == 1 then graceEnd else wr (.route 0) .ROUTE_LIVE_SEL_GRACE_LEFT (n - 1))

/-- An armed turn whose cycle has passed when lock returns is missed (R389). -/
def turnMissed : Upd :=
  all [wr (.route 0) .ROUTE_TURN_CTRL_ARM 0, wr (.route 0) .ROUTE_TURN_CTRL_STATUS tnMISSED, put .turnAt 0,
       raise (.route 0) .ROUTE_TURN_MISSED]

/-- What a block soft reset of ROUTE does beside its registers: it disarms any turn, ends any grace period, abandons a
verification, and leaves the draft unverified. -/
def routeSoftReset : Upd := look fun s =>
  all [graceEnd, put .turnAt 0, clearIv .verifySig fun _ => true, clearIv .plateAt fun _ => true, clearIv .plateHas fun _ => true,
       clearIv .plateDw fun _ => true, wr (.route 0) .ROUTE_TURN_CTRL_ARM 0,
       wr (.route 0) (plateVerFld s.live) 1, wr (.route 0) (plateVerFld (1 - s.live)) 0,
       wr (.route 0) .ROUTE_VERIFY_CTRL_BUSY 0, wr (.route 0) .ROUTE_VERIFY_CTRL_STATUS 0,
       wr (.route 0) .ROUTE_VERIFY_CTRL_INDEX 0]

/-! ### Plate integrity (R391 to R395) -/

/-- Entries are lost (R393): they read as zero, a live or grace plate stops the part, a draft is unverified and its turn
disarmed. -/
def plateLoses (k : Nat) (is : List Nat) : Upd := look fun s =>
  all [forEach is fun i => all [put .plate 0 (k * 524288 + i), put .plateLost 0 (k * 524288 + i)],
       if s.plateState k == plDRAFT then
         all [wr (.route 0) (plateVerFld k) 0, turnDisarm, raise (.route 0) .ROUTE_ECC_REBUILT]
       else raise (.route 0) .ROUTE_PLATE_LOST]

/-- Another entry of the group of entry `i` is being rebuilt. -/
def State.groupRebuilding (s : State) (k i : Nat) : List Nat :=
  ((List.range 8).map (8 * (i / 8) + ·)).filter fun j => j != i && s.ivOn .plateLost (k * 524288 + j)

/-- A read of entry `i` of plate `k` meets an error. -/
def plateEcc (k i : Nat) (e : PlateEcc) : Upd := look fun s =>
  match e with
  | .single => all [raise (.route 0) .ROUTE_ECC_CORR, bump (.route 0) 36]
  | .uncorrectable =>
    match s.groupRebuilding k i with
    | [] => put .plateLost 1 (k * 524288 + i)
    | js => plateLoses k (i :: js)
  | .withEntry j => if 8 * (i / 8) + j.val == i then put .plateLost 1 (k * 524288 + i) else plateLoses k [i, 8 * (i / 8) + j]
  | .withParity => plateLoses k [i]
  | .indexCopy => skip
  | .indexBoth => raise (.route 0) .ROUTE_PLATE_LOST

/-- PLATE_ECC_ERROR (R392 to R394). -/
def execPlateEccError (k : Fin 2) (i : Fin 524288) (e : PlateEcc) : State → Answer := Upd.answer (plateEcc k i e)

/-- PLATE_ENTRY_REBUILD (R392): the entry is written back as it was. -/
def execPlateEntryRebuild (k : Fin 2) (i : Fin 524288) : State → Answer := Upd.answer <| look fun s =>
  when_ (s.ivOn .plateLost (k * 524288 + i)) <|
    all [put .plateLost 0 (k * 524288 + i), raise (.route 0) .ROUTE_ECC_REBUILT, bump (.route 0) 37]

/-- BURNISHER_READ (R395). -/
def execBurnisherRead (e : Option PlateEcc) : State → Answer := Upd.answer <| look fun s =>
  let n := s.iv .burnAt
  when_ (s.on (.route 0) .ROUTE_BURN_CTRL_EN) <|
    all [forSome e (plateEcc (n / 524288) (n % 524288)), put .burnAt ((n + 1) % 1048576), when_ (n == 1048575) (bump (.route 0) 35)]

end Sys2Proof.Machine
end

