-- ==== Sys2Proof/Machine/Sched.lean ====
section
/-! DEFINITION. Scheduling, shaping and cycle gates (spec/12): port rates and transmission times, policers, and hatch lists. The
choice of the next frame stands in Egress.lean. -/

namespace Sys2Proof.Machine

/-! ### Rates (Table CORE-2, Table SCHED-1) -/

/-- Units of a rate: 1/4,160 Mbit/s, in which every rate of Table CORE-2 is a whole number. -/
def rateUnit : Nat := 4160

/-- The GT/s of a PCI Express rate code, in MT/s. -/
def pcieMT : Nat → Nat
  | 1 => 2500
  | 2 => 5000
  | 3 => 8000
  | 4 => 16000
  | 5 => 32000
  | 6 => 64000
  | _ => 0

/-- The frame capacity of a Daend lane by RATE_NOW code, in Mbit/s (Table LANE-3). -/
def daendMbit : Nat → Nat
  | 0x8 => 25641
  | 0x9 => 51282
  | 0xA => 102566
  | _ => 0

/-- The rate R of port `p` (Table CORE-2), in 1/4,160 Mbit/s. -/
def State.rate (s : State) (p : Nat) : Nat :=
  let w := 2 ^ s.rd (.port p) .PORT_LINK_STAT_WIDTH_NOW
  let r := s.rd (.port p) .PORT_LINK_STAT_RATE_NOW
  if s.isFab p then w * daendMbit r * rateUnit
  else if s.on (.port p) .PORT_LINK_STAT_FLIT then w * pcieMT r * (rateUnit * 59 / 64)
  else if r ≤ 2 then w * pcieMT r * (rateUnit * 4 / 5)
  else w * pcieMT r * (rateUnit * 64 / 65)

/-- The port's link uses IDE. -/
def State.ide (s : State) (p : Nat) : Bool :=
  s.on (.sec 1) .SEC_IDE_STAT_LINK_SECURE p || s.on (.sec 1) .SEC_IDE_STAT_SEL_SECURE p

/-- The bytes that a frame of stored length `n` takes on port `p`, with framing (Table SCHED-1). -/
def State.wireBytes (s : State) (p n : Nat) : Nat :=
  if s.isFab p then 8 * ceilDiv n 8 + 16 + 16 * s.rd (.port p) .PORT_LINK_STAT_ENC else n - 32 + 12 + 8 * b2n (s.ide p)

/-- T_tx of a frame of stored length `n` ends within `ns` nanoseconds (Table SCHED-1). -/
def State.fits (s : State) (p n ns : Nat) : Bool := s.wireBytes p n * 8000 * rateUnit ≤ ns * s.rate p

/-! ### Policers (R469 to R474) -/

/-- Colours: 0 green, 1 yellow, 2 and 3 red. -/
def green : Nat := 0
def yellow : Nat := 1
def red : Nat := 2

/-- CBS and PBS of policer `n`, in bytes. -/
def State.cbs (s : State) (n : Nat) : Nat := s.iv .polCbs n ^^^ 16384
def State.pbs (s : State) (n : Nat) : Nat := s.iv .polPbs n ^^^ 16384

/-- A flag of CTRL. -/
def State.polFlag (s : State) (n b : Nat) : Bool := (s.iv .polCtl n).testBit b

/-- Tokens missing from the buckets of policer `n` now: they fill continuously at their rates (R470). -/
def State.missC (s : State) (n : Nat) : Nat := s.iv .polC n - s.iv .polCir n * (s.now - s.iv .polAt n)
def State.missP (s : State) (n : Nat) : Nat := s.iv .polP n - s.iv .polPir n * (s.now - s.iv .polAt n)

/-- The bucket test of a frame of `b` bytes that arrives with colour `c` (Table SCHED-2): the colour, and the tokens then
missing from both buckets. -/
def State.meter (s : State) (n b c : Nat) : Nat × Nat × Nat :=
  let mc := s.missC n
  let mp := s.missP n
  let tC := mc + 8000 * b ≤ 8000 * s.cbs n
  let tP := mp + 8000 * b ≤ 8000 * s.pbs n
  if s.polFlag n 30 then
    if c == green && tC then (green, mc + 8000 * b, mp)
    else if c ≤ yellow && tP then (yellow, mc, mp + 8000 * b)
    else (red, mc, mp)
  else if red ≤ c || !tP then (red, mc, mp)
  else if c == yellow || !tC then (yellow, mc, mp + 8000 * b)
  else (green, mc + 8000 * b, mp + 8000 * b)

/-- The colour with which the test takes a frame: its own in colour-aware mode on a lossy class, green otherwise (R471, R472). -/
def State.meterColour (s : State) (n c : Nat) (lossy : Bool) : Nat := if lossy && s.polFlag n 29 then c else green

/-- Charge policer `n` for a frame of `b` bytes and count it; `k` goes on with the frame's colour, never lighter than it came
(R471). A policer that is off passes it as it came. -/
def charge (n b c : Nat) (lossy : Bool) (k : Nat → Upd) : Upd := look fun s =>
  if !s.polFlag n 31 then k c
  else
    let r := s.meter n b (s.meterColour n c lossy)
    all [put .polC r.2.1 n, put .polP r.2.2 n, put .polAt s.now n, addCnt .schedg (0x1000 + 4 * n + r.1) b, k (max c r.1)]

/-- The policer of a frame (R469). -/
def State.policerFor (s : State) (ing : Ing) (cls : Nat) (ofInstance : Option Nat) : Option Nat :=
  match ofInstance, ing with
  | some n, _ => some n
  | none, .port p =>
    if s.on .schedg .SCHED_POL_MAP_EN (8 * p + cls) then some (s.rd .schedg .SCHED_POL_MAP_POLICER (8 * p + cls)) else none
  | none, _ => none

/-- The registers of SCHED_POL_CFG as a stamp's commit finds them: staged, or live. -/
def State.polNew (s : State) (st n r : Nat) : Nat :=
  if (s.iv .polHas st).testBit r then s.iv .polStage (8 * st + r)
  else match r with
    | 0 => s.iv .polCtl n
    | 1 => s.iv .polCir n
    | 2 => s.iv .polPir n
    | 3 => s.cbs n
    | _ => s.pbs n

/-- A write of `v` to register `r` of SCHED_POL_CFG stages it (R474). -/
def polStageWrite (st : Stamp) (r v : Nat) : Upd := look fun s =>
  let m := if r == 0 then 0xF0000000 else if r ≤ 2 then 0xFFFFF else 0xFFFFFF
  all [put .polHas (setBit (s.iv .polHas st.code) r) st.code, put .polStage (v &&& m) (8 * st.code + r)]

/-- A write of `v` to SCHED_POL_SEL: INDEX, and with GO the commit (R474). Bucket levels are kept, each cut to its new burst
size. -/
def polSelWrite (st : Stamp) (v : Nat) : Upd := look fun s =>
  let n := bits v 12 0
  let new := s.polNew st.code n
  let rfc4115 := (new 0).testBit 30
  let level := fun (miss old size : Nat) => 8000 * size - min (8000 * old - miss) (8000 * size)
  all [plainWrite st .schedg 0x600 v,
       when_ (v.testBit 31) <|
         if !rfc4115 && new 2 < new 1 then wrSt st.code .schedg .SCHED_POL_SEL_STATUS 1
         else if (if rfc4115 then new 3 < 9640 && new 4 < 9640 else new 4 < 9640) then
           wrSt st.code .schedg .SCHED_POL_SEL_STATUS 2
         else
           all [put .polC (level (s.missC n) (s.cbs n) (new 3)) n, put .polP (level (s.missP n) (s.pbs n) (new 4)) n,
                put .polAt s.now n, put .polCtl (new 0) n, put .polCir (new 1) n, put .polPir (new 2) n,
                put .polCbs (new 3 ^^^ 16384) n, put .polPbs (new 4 ^^^ 16384) n, put .polHas 0 st.code,
                wrSt st.code .schedg .SCHED_POL_SEL_STATUS 0]]

/-- A block soft reset of the SCHED global page refills every bucket (R493). -/
def refillBuckets : Upd := all [clearIv .polC fun _ => true, clearIv .polP fun _ => true, clearIv .polAt fun _ => true]

/-! ### Cycle and phase (R435) -/

/-- Codes of SCHED_CYC_STAT.STATE (Table CYCLE-2). -/
def ctIDLE : Nat := 0
def ctACQUIRE : Nat := 1
def ctLOCKED : Nat := 2
def ctHOLDOVER : Nat := 3
def ctLOST : Nat := 4
def ctFREE : Nat := 5

/-- The tracker's state. -/
def State.tracker (s : State) : Nat := s.rd .schedg .SCHED_CYC_STAT_STATE

/-- The tracker has boundaries on which armed actions execute (Table CYCLE-3). -/
def State.inCycle (s : State) : Bool := s.tracker == ctLOCKED || s.tracker == ctFREE || s.tracker == ctHOLDOVER

/-- The committed length of the current cycle. -/
def State.cycLen (s : State) : Nat := s.rd .schedg .SCHED_CYC_LEN_LEN

/-- The phase: ⌊2^20 × (t − B) / L⌋ (R435). -/
def State.phase (s : State) : Nat :=
  if s.cycLen == 0 then 0 else min 1048575 ((s.now - s.iv .cycStart) * 1048576 / s.cycLen)

/-! ### Hatch lists (R475 to R487) -/

/-- Fields of list `l` (0 A, 1 B) of a port. -/
def hatchStateFld (l : Nat) : Fld := if l == 0 then .SCHED_HATCH_STAT_A_STATE else .SCHED_HATCH_STAT_B_STATE
def hatchVerFld (l : Nat) : Fld := if l == 0 then .SCHED_HATCH_STAT_A_VERIFIED else .SCHED_HATCH_STAT_B_VERIFIED
def hatchCountFld (l : Nat) : Fld := if l == 0 then .SCHED_HATCH_LEN_COUNT_A else .SCHED_HATCH_LEN_COUNT_B
def hatchGatesFld (l : Nat) : Fld := if l == 0 then .SCHED_HATCH_A_GATES else .SCHED_HATCH_B_GATES
def hatchRsvFld (l : Nat) : Fld := if l == 0 then .SCHED_HATCH_A_RSV0 else .SCHED_HATCH_B_RSV0
def hatchPhaseFld (l : Nat) : Fld := if l == 0 then .SCHED_HATCH_A_PHASE else .SCHED_HATCH_B_PHASE
def hatchDw1Fld (l : Nat) : Fld := if l == 0 then .SCHED_HATCH_A_DW1 else .SCHED_HATCH_B_DW1

/-- List states. -/
def hlIDLE : Nat := 0
def hlPENDING : Nat := 1
def hlACTIVE : Nat := 2

/-- The state of a list. -/
def State.hatchState (s : State) (p l : Nat) : Nat := s.rd (.sched p) (hatchStateFld l)

/-- The active list of a port. -/
def State.hatchActive (s : State) (p : Nat) : Option Nat := firstBelow 2 fun l => s.hatchState p l == hlACTIVE

/-- The pending list of a port. -/
def State.hatchPending (s : State) (p : Nat) : Option Nat := firstBelow 2 fun l => s.hatchState p l == hlPENDING

/-- COUNT of a list. -/
def State.hatchCount (s : State) (p l : Nat) : Nat := s.rd (.sched p) (hatchCountFld l)

/-- GATES and PHASE of entry `k` of a list. -/
def State.hatchGates (s : State) (p l k : Nat) : Nat := s.rd (.sched p) (hatchGatesFld l) k
def State.hatchPhase (s : State) (p l k : Nat) : Nat := s.rd (.sched p) (hatchPhaseFld l) k

/-- The gates of a port are in fallback (Table SCHED-4). -/
def State.fallback (s : State) : Bool := !s.inCycle

/-- The gate state of a port (Table SCHED-4). -/
def State.gates (s : State) (p : Nat) : Nat :=
  if s.fallback then (if s.rd (.sched p) .SCHED_HATCH_CTRL_FB_MODE == 1 then s.rd (.sched p) .SCHED_HATCH_CTRL_FB_GATES else 0xFF)
  else match s.hatchActive p with
    | none => 0xFF
    | some l => s.hatchGates p l (s.rd (.sched p) .SCHED_HATCH_STAT_ENTRY_NOW)

/-- The fabric time of entry `k` of a list in a cycle of length `len` that starts at `b` (R476). -/
def State.hatchTime (s : State) (p l k b len : Nat) : Nat := b + ceilDiv (s.hatchPhase p l k * len) 1048576

/-- The entry of list `l` in force now: the last one whose time has come (R476). -/
def State.entryAt (s : State) (p l : Nat) : Nat :=
  ((List.range (s.hatchCount p l)).filter fun k => s.hatchTime p l k (s.iv .cycStart) s.cycLen ≤ s.now).length - 1

/-- The value of the state variable `hatchAt` for a list armed by the loader (R142). -/
def hatchAtLock : Nat := 2 ^ 48 + 1

/-- The pending list of a port starts at the next boundary. -/
def State.hatchDue (s : State) (p : Nat) : Bool := s.iv .hatchAt p == s.nextCycle + 1 || s.iv .hatchAt p == hatchAtLock

/-- The next closing of class `c` at port `p`; none when no list closes it (R476). It is looked for in the current cycle, then
in the next, which another list may take over. -/
def State.nextClose (s : State) (p c : Nat) : Option Nat :=
  if s.fallback then none
  else match s.hatchActive p with
    | none =>
      match s.hatchPending p with
      | some l =>
        if s.hatchDue p then
          (firstBelow (s.hatchCount p l) fun k => !(s.hatchGates p l k).testBit c).map fun k =>
            s.hatchTime p l k (s.iv .cycStart + s.cycLen) (if s.iv .cycNext == 0 then s.cycLen else s.iv .cycNext)
        else none
      | none => none
    | some l =>
      let now := s.rd (.sched p) .SCHED_HATCH_STAT_ENTRY_NOW
      match firstBelow (s.hatchCount p l) fun k => now < k && !(s.hatchGates p l k).testBit c with
      | some k => some (s.hatchTime p l k (s.iv .cycStart) s.cycLen)
      | none =>
        let m := if s.hatchDue p then (s.hatchPending p).getD l else l
        (firstBelow (s.hatchCount p m) fun k => !(s.hatchGates p m k).testBit c).map fun k =>
          s.hatchTime p m k (s.iv .cycStart + s.cycLen) (if s.iv .cycNext == 0 then s.cycLen else s.iv .cycNext)

/-- The list is open to writes (R478). -/
def State.hatchOpen (s : State) (p l : Nat) : Bool :=
  s.hatchState p l == hlIDLE &&
    !(s.on (.sched p) .SCHED_HATCH_VERIFY_BUSY && s.iv .hatchVer p == l + 1)

/-- A write of `v` to dword `d` of entry `k` of a list (R478). -/
def hatchEntryWrite (st : Stamp) (p l d k v : Nat) : Upd := look fun s =>
  if s.hatchOpen p l then
    all [if d == 0 then all [wr (.sched p) (hatchGatesFld l) (bits v 31 24) k, wr (.sched p) (hatchRsvFld l) (bits v 23 20) k,
           wr (.sched p) (hatchPhaseFld l) (bits v 19 0) k]
         else wr (.sched p) (hatchDw1Fld l) v k,
         wr (.sched p) (hatchVerFld l) 0]
  else all [raise (.sched p) .SCHED_HATCH_WRITE, tellDiscard st (.sched p) [.SCHED_HATCH_WRITE]]

/-- A COUNT as it is stored: 1 to 256. -/
def countOf (n : Nat) : Nat := if n == 0 then 1 else min n 256

/-- A write of `v` to SCHED_HATCH_LEN (R478): each COUNT that changes is judged by itself. -/
def hatchLenWrite (st : Stamp) (p v : Nat) : Upd := look fun s =>
  let want := fun l => countOf (if l == 0 then bits v 8 0 else bits v 24 16)
  let changed := (List.range 2).filter fun l => want l != s.hatchCount p l
  all [forEach (changed.filter (s.hatchOpen p)) fun l =>
         all [wr (.sched p) (hatchCountFld l) (want l), wr (.sched p) (hatchVerFld l) 0],
       when_ (changed.any fun l => !s.hatchOpen p l) (all [raise (.sched p) .SCHED_HATCH_WRITE, tellDiscard st (.sched p) [.SCHED_HATCH_WRITE]])]

/-- HATCH_LEN_WRITE. -/
def execHatchLenWrite (st : Stamp) (p : PortId) (v : Word) : State → Answer := Upd.answer <|
  granted st (.sched p) 0x224 (hatchLenWrite st p v.toNat)

/-- A write of `v` to SCHED_HATCH_VERIFY (R479): while BUSY, GO is ignored. -/
def hatchVerifyWrite (st : Stamp) (p v : Nat) : Upd := look fun s =>
  let l := bits v 29 29
  all [plainWrite st (.sched p) 0x220 v,
       when_ (v.testBit 31 && !s.on (.sched p) .SCHED_HATCH_VERIFY_BUSY) <|
         if s.hatchState p l == hlIDLE then
           all [wr (.sched p) .SCHED_HATCH_VERIFY_BUSY 1, put .hatchVer (l + 1) p, put .sigStale 0 (1 + p),
                forBelow 48 fun j => put .hatchSig (s.rd (.sched p) .SCHED_HATCH_SIG_DW j) (64 * p + j)]
         else wr (.sched p) .SCHED_HATCH_VERIFY_STATUS 8]

/-- HATCH_VERIFY_START. -/
def execHatchVerifyStart (st : Stamp) (p : PortId) (v : Word) : State → Answer := Upd.answer <|
  granted st (.sched p) 0x220 (hatchVerifyWrite st p v.toNat)

/-- Table SCHED-6: the STATUS code and INDEX. -/
def State.verifyHatch (s : State) (p l : Nat) (digestOk sigOk : Bool) : Nat × Nat :=
  let b := fun j => s.iv .hatchSig (64 * p + j)
  let n := s.hatchCount p l
  let dom := b 4 + b 5 <<< 32 + b 6 <<< 64 + b 7 <<< 96
  if b 0 != 0x48544348 || bits (b 1) 15 0 != 1 || bits (b 1) 31 24 != s.switchId || bits (b 2) 7 0 != p || bits (b 2) 15 8 != l
    || bits (b 2) 31 16 != n || dom != s.domainId then (2, 0)
  else if (match s.hatchActive p with
    | some a => decide (b 3 ≤ s.rd (.sched p) .SCHED_HATCH_GEN_GENERATION a)
    | none => false) then (3, 0)
  else if !digestOk then (4, 0)
  else if !sigOk then (5, 0)
  else match firstBelow n fun k => s.rd (.sched p) (hatchRsvFld l) k != 0 || s.rd (.sched p) (hatchDw1Fld l) k != 0
      || (k == 0 && s.hatchPhase p l 0 != 0) with
    | some k => (6, k)
    | none => match firstBelow n fun k => k != 0 && s.hatchPhase p l k ≤ s.hatchPhase p l (k - 1) with
      | some k => (7, k)
      | none => (1, 0)

/-- The hatch verification of port `p` ends. -/
def hatchVerifyEnds (p code index : Nat) : Upd := look fun s =>
  let l := s.iv .hatchVer p - 1
  all [wr (.sched p) .SCHED_HATCH_VERIFY_BUSY 0, wr (.sched p) .SCHED_HATCH_VERIFY_STATUS code,
       wr (.sched p) .SCHED_HATCH_VERIFY_INDEX index,
       if code == 1 then
         all [wr (.sched p) (hatchVerFld l) 1, wr (.sched p) .SCHED_HATCH_GEN_GENERATION (s.iv .hatchSig (64 * p + 3)) l]
       else raise (.sched p) .SCHED_HATCH_VERIFY_FAIL]

/-- The bytes of entries 0 to COUNT − 1 of a list, 8 bytes each as stored (Table SCHED-5). -/
def State.hatchBytes (s : State) (p l : Nat) : List Nat :=
  (List.range (s.hatchCount p l)).flatMap fun k =>
    bytesOf (s.hatchGates p l k <<< 24 + s.rd (.sched p) (hatchRsvFld l) k <<< 20 + s.hatchPhase p l k) 4 ++
      bytesOf (s.rd (.sched p) (hatchDw1Fld l) k) 4

/-- The outcome of the verification of list `l` of port `p`: STATUS = SIG when an ownership record was written meanwhile (R636). -/
def State.hatchResult (s : State) (p l : Nat) : Nat × Nat :=
  let dw := fun j => s.iv .hatchSig (64 * p + j)
  if s.ivOn .sigStale (1 + p) then (5, 0) else s.verifyHatch p l (blockDigest dw (s.hatchBytes p l)) (s.blockSigned dw)

/-- HATCH_VERIFY_DONE (R479). -/
def execHatchVerifyDone (p : PortId) : State → Answer := Upd.answer <| look fun s =>
  when_ (s.on (.sched p) .SCHED_HATCH_VERIFY_BUSY) <|
    let r := s.hatchResult p (s.iv .hatchVer p - 1)
    hatchVerifyEnds p r.1 r.2

/-- STATUS codes of SCHED_HATCH_CTRL. -/
def hsARMED : Nat := 1
def hsSTARTED : Nat := 2
def hsLATE_START : Nat := 3
def hsREJECTED : Nat := 4
def hsREFUSED_UNVERIFIED : Nat := 5
def hsDISARMED : Nat := 6

/-- The pending list of a port returns to IDLE, still verified. -/
def hatchUnpend (p : Nat) : Upd := look fun s =>
  all [forSome (s.hatchPending p) fun l => wr (.sched p) (hatchStateFld l) hlIDLE, put .hatchAt 0 p, put .hatchLate 0 p,
       wr (.sched p) .SCHED_HATCH_CTRL_ARM 0]

/-- A late start that LATE_POLICY rejects: the list stays PENDING, with no start of its own. -/
def hatchReject (p : Nat) : Upd :=
  all [put .hatchAt 0 p, put .hatchLate 0 p, wr (.sched p) .SCHED_HATCH_CTRL_STATUS hsREJECTED,
       raise (.sched p) .SCHED_HATCH_REJECTED, bump (.sched p) 34]

/-- Verified list `l` is armed for cycle `c`, or for the next boundary (R482, R484). The armed action keeps that cycle: a later
write of SCHED_HATCH_CYCLE does not move it (DESIGN CHOICE, log entry 184). -/
def hatchArmFor (p l : Nat) (c : Option Nat) : Upd := look fun s =>
  let late := match c with
    | some n => decide (n ≤ s.cycleNum)
    | none => false
  all [hatchUnpend p, wr (.sched p) (hatchStateFld l) hlPENDING, wr (.sched p) .SCHED_HATCH_CTRL_ARM 1,
       if late && s.on (.sched p) .SCHED_HATCH_CTRL_LATE_POLICY then hatchReject p
       else all [wr (.sched p) .SCHED_HATCH_CTRL_STATUS hsARMED, put .hatchLate (b2n late) p,
                 put .hatchAt ((if late then s.nextCycle else c.getD s.nextCycle) + 1) p]]

/-- HATCH_START (R483, R484): the pending list becomes ACTIVE at the boundary of cycle `c`, and the list it replaces IDLE and
unverified. -/
def hatchStart (p c : Nat) (late : Bool) : Upd := look fun s =>
  forSome (s.hatchPending p) fun l =>
    all [forSome (s.hatchActive p) fun a => all [wr (.sched p) (hatchStateFld a) hlIDLE, wr (.sched p) (hatchVerFld a) 0],
         wr (.sched p) (hatchStateFld l) hlACTIVE, wr (.sched p) .SCHED_HATCH_STAT_ACTIVE l,
         wr (.sched p) .SCHED_HATCH_STAT_ANY_ACTIVE 1, wr (.sched p) .SCHED_HATCH_STAT_LATE (b2n late),
         wr (.sched p) .SCHED_HATCH_START_CYCLE c, wr (.sched p) .SCHED_HATCH_START_CYCLE_HI (bits c 47 32),
         wr (.sched p) .SCHED_HATCH_CTRL_ARM 0, wr (.sched p) .SCHED_HATCH_CTRL_STATUS (if late then hsLATE_START else hsSTARTED),
         put .hatchAt 0 p, put .hatchLate 0 p, bump (.sched p) 32,
         when_ late (all [bump (.sched p) 33, raise (.sched p) .SCHED_HATCH_LATE])]

/-- What a boundary that starts cycle `c` does to a port's lists: a due start, or, with `relock`, the late start or rejection of
one that passed while the tracker was not in a cycle (R484). -/
def hatchBoundary (p c : Nat) (relock : Bool) : Upd := look fun s =>
  let at_ := s.iv .hatchAt p
  all [if at_ == c + 1 || at_ == hatchAtLock then hatchStart p c (s.ivOn .hatchLate p)
       else when_ (relock && at_ != 0 && at_ < c + 1) <|
         if s.on (.sched p) .SCHED_HATCH_CTRL_LATE_POLICY then hatchReject p else hatchStart p c true,
       wr (.sched p) .SCHED_HATCH_STAT_ENTRY_NOW 0]

/-- What a block soft reset of a SCHED port page does beside its registers. -/
def schedSoftReset (p : Nat) : Upd :=
  all [hatchUnpend p, wr (.sched p) .SCHED_HATCH_VERIFY_BUSY 0, wr (.sched p) .SCHED_HATCH_VERIFY_STATUS 0,
       wr (.sched p) .SCHED_HATCH_VERIFY_INDEX 0, clearIv .hatchSig fun i => i / 64 == p]

/-! ### Credit-based shapers (R467, R468) -/

/-- A signed number as a natural number, and back. -/
def zig (n : Int) : Nat := if 0 ≤ n then 2 * n.toNat else 2 * (-n).toNat - 1
def zag (n : Nat) : Int := if n % 2 == 0 then (n / 2 : Nat) else -(((n + 1) / 2 : Nat) : Int)

/-- A byte in units of shaper credit: rates in 1/4,160 Mbit/s give whole units per ns. -/
def creditUnit : Nat := 8000 * rateUnit

/-- IDLE_SLOPE of a class in units per ns. -/
def State.idleSlope (s : State) (p c : Nat) : Nat := s.rd (.sched p) .SCHED_CBS_SLOPE_IDLE_SLOPE c * rateUnit

/-- The shaper of the class works: it is on, and its slope lies below the port's rate. -/
def State.shaping (s : State) (p c : Nat) : Bool := s.on (.sched p) .SCHED_CBS_SLOPE_EN c && s.idleSlope p c < s.rate p

/-- The credit of a class's shaper now (R467), the rows of the rule in order. -/
def State.shaperCredit (s : State) (p c : Nat) : Int :=
  let dt := s.now - s.iv .cbsAt p
  let cr := zag (s.iv .cbsCr (8 * p + c))
  let up : Int := (s.idleSlope p c * dt : Nat)
  let down : Int := ((s.rate p - s.idleSlope p c) * dt : Nat)
  let mine := s.buf.filter fun k => k.frame.cls == c && k.copies.any fun d => d.dst == .port p
  if mine.any fun k => k.copies.any fun d => d.dst == .port p && d.started then cr - down
  else if mine.isEmpty then (if 0 < cr then 0 else min 0 (cr + up))
  else if !(s.gates p).testBit c then cr
  else min ((s.rd (.sched p) .SCHED_CBS_SLOPE_HI_CREDIT c * creditUnit : Nat) : Int) (cr + up)

/-- The shaper credits of port `p` are brought up to now: before anything that changes how they move. -/
def shaperAdvance (p : Nat) : Upd := look fun s =>
  all [forEach (allBelow 8 fun c => s.on (.sched p) .SCHED_CBS_SLOPE_EN c) fun c => put .cbsCr (zig (s.shaperCredit p c)) (8 * p + c),
       put .cbsAt s.now p]

end Sys2Proof.Machine
end

