-- ==== Sys2Proof/Machine/Switch.lean ====
section
/-! DEFINITION. Admission to the switch core (steps 3 to 7 of Table CORE-1): reachability, policing, cells and proof space,
RED on lossy classes, multicast groups, stipple samples, and what happens to a frame in the buffer. -/

namespace Sys2Proof.Machine

/-! ### Contained and unreachable (R600) -/

/-- FEID `n` is unreachable (R600). -/
def State.unreachable (s : State) (n : Nat) : Bool :=
  s.ivOn .unreach (n % 8192) ||
    match s.idRoute? s.live n with
    | none => false
    | some r =>
      if r.isLocal then
        (r.kind == kindDevice && s.role r.port == roleDOWN && s.domState (.port r.port) != gdNONE)
          || (r.kind == kindFace && (match s.faceOf r.port with
              | some f => s.contained (.face f)
              | none => false))
      else s.contained (.link (0x100 + r.sw))

/-! ### Frames as CORE sees them -/

/-- A frame that entered from another switch. -/
def State.fromFab (s : State) : Ing → Bool
  | .port p => s.isFab p
  | .fabric => true
  | _ => false

/-- The stored length S of a frame (R322). -/
def State.stored (s : State) (ing : Ing) (f : Frame) : Nat :=
  storedLen (!s.fromFab ing && (match f.body with
    | .tlp _ => true
    | _ => false)) f

/-- The limit of a size code: 128 bytes at code 0. -/
def sizeOf (code : Nat) : Nat := 128 * 2 ^ code

/-- BRIDGE cuts the frame at egress `q` (R547, R548). -/
def State.cut (s : State) (q : Nat) (f : Frame) : Bool :=
  match f.body with
  | .tlp t =>
    if s.role q == roleDOWN then
      (t.kind == .memWr && sizeOf (s.rd (.bridge 1) .BRIDGE_PORT_LIMIT_MPS q) < t.len)
        || (t.kind == .memRd && sizeOf (s.rd (.bridge 1) .BRIDGE_PORT_LIMIT_MRRS q) < t.len)
    else s.role q == roleUP && (t.kind == .memWr || t.kind == .cpl) &&
      (match s.faceOf q with
       | some f => sizeOf (s.iv .uspMps f) < t.len
       | none => false)
  | _ => false

/-- A copy of the frame toward `q` is cut-through eligible (R312). An internal source is faster than every port. -/
def State.ctOk (s : State) (ing : Ing) (q : Nat) (f : Frame) : Bool :=
  (s.rd (.core 0) .CORE_CT_CTRL_CT_EN).testBit f.cls && !s.cut q f &&
    (match ing with
     | .port p => s.rate q ≤ s.rate p && (!s.ide p || s.on (.core 0) .CORE_CT_CTRL_IDE_CT)
     | _ => true)

/-- The frame as CORE offers it for admission: one copy for each destination; the cells of a frame from a port are those its
credits promised (R327), and a frame from inside holds none before its admission. -/
def State.pkt (s : State) (ing : Ing) (f : Frame) (dsts : List Dst) (vi : Option Nat) (tailIn : Bool) : Pkt :=
  { id := s.iv .pktId, ing := ing, frame := f, pool := f.pool, vi := vi,
    cells := (match ing with
      | .port _ => ceilDiv (s.stored ing f) 256
      | _ => 0),
    lossy := ing == .stipple || (s.lossy f.cls && f.pool != poolCTL), tailIn := tailIn, left := false,
    copies := dsts.map fun d => ⟨d, (match d with
      | .port q => s.ctOk ing q f
      | .self => false), false⟩ }

/-- The cells a frame occupies (R322). -/
def State.cellsFor (s : State) (k : Pkt) : Nat := ceilDiv (s.stored k.ing k.frame) 256

/-- Cells queued at egress queue (q, c). -/
def State.queueCells (s : State) (q c : Nat) : Nat :=
  ((s.buf.filter fun k => k.lossy && k.frame.cls == c && k.copies.any fun d => d.dst == .port q).map (·.cells)).sum

/-! ### Joining the queues (steps 6 and 7) -/

/-- Proof cells held. -/
def State.proofCells (s : State) : Nat := (s.txs.map fun e => (e.2.proofs.map (·.cells)).sum).sum

/-- Watch the proof store's level. -/
def proofWatch : Upd := look fun s =>
  watch ⟨.bridge 4, .BRIDGE_PROOF_WM_STAT_WM_EVENT, .BRIDGE_PROOF_WM_STAT_WM_LEVEL, .BRIDGE_PROOF_WM_STAT_WM_CROSS_CNT⟩
    s.proofCells (s.rd (.bridge 4) .BRIDGE_PROOF_WM_WM_HI) (s.rd (.bridge 4) .BRIDGE_PROOF_WM_WM_LO)

/-- A locked read reaches its far port (R557, R559): a free port is granted to its source; at a port that another source holds
it waits in CORE. -/
def lockRequest (p : Nat) (f : Frame) : Upd := look fun s =>
  let locked := (match f.body with
    | .tlp t => t.kind == .memRd && t.locked
    | _ => false)
  when_ (s.role p == roleDOWN && locked) <|
    if !s.on (.bridge 1) .BRIDGE_LOCK_STAT_LOCKED p then
      all [wr (.bridge 1) .BRIDGE_LOCK_STAT_LOCKED 1 p, wr (.bridge 1) .BRIDGE_LOCK_STAT_HOLDER f.src p, bump (.bridge 0) 5]
    else when_ (s.rd (.bridge 1) .BRIDGE_LOCK_STAT_HOLDER p != f.src) (bump (.bridge 0) 6)

/-- An Ethernet frame: for this part it waits in CORE for its VEP. -/
def Pkt.isEth (k : Pkt) : Bool :=
  match k.frame.body with
  | .eth _ => true
  | _ => false

/-- The frame joins the queues of its copies; a copy for the part itself is delivered at once when the tail is in. -/
def enqueue (k : Pkt) : Upd := look fun s =>
  let n := s.cellsFor k
  let k1 := { k with cells := n, frame := if s.fromFab k.ing then k.frame else k.frame.sealed }
  let here := k.tailIn && !k.isEth && k.copies.any fun c => c.dst == .self
  let left := if here then k1.without .self else k1
  all [
    forEach k.copies fun c => (match c.dst with
      | .port q => shaperAdvance q
      | .self => skip),
    (match k.ing with
     | .port p => all [bump (.core 0) (32 * p + k.frame.cls), addCnt (.core 0) (32 * p + 8 + k.frame.cls) (s.stored k.ing k.frame)]
     | _ => skip),
    when_ here (emit (.selfOut k1.frame)),
    when_ (!left.copies.isEmpty) (modBuf (· ++ [left])),
    when_ k.frame.lock (forEach left.copies fun c => (match c.dst with
      | .port q => lockRequest q k.frame
      | .self => skip)),
    coreWatch]

/-! ### Retention at the ingress edge (R414 to R419) -/

/-- The frame is retained here: this switch is its ingress edge, its class is lossless, and it leaves the switch. -/
def State.retains (s : State) (k : Pkt) : Bool :=
  k.frame.retain && !s.fromFab k.ing && !k.lossy && !k.frame.mc && s.on (.bridge 4) .BRIDGE_PROOF_CFG_EN &&
    s.selfSw != some k.frame.egrSw

/-- R419: the proof store has no room for the frame, or its stream is resending. -/
def State.proofless (s : State) (k : Pkt) : Bool :=
  let n := ceilDiv k.frame.len 256
  let x := s.tx k.frame.stream
  let ofEdge := ((s.txs.filter fun e => e.1 / 8 == k.frame.egrSw).map fun e => (e.2.proofs.map (·.cells)).sum).sum
  65536 < s.proofCells + n || 16 * max 1 (min 4096 (s.rd (.bridge 4) .BRIDGE_PROOF_CFG_CAP)) < ofEdge + n
    || 65536 ≤ x.proofs.length || x.resending.isSome

/-- Step 5: the frame takes its SEQ and EPOCH and its proof (R416, R418, R720). -/
def takeProof (k : Pkt) (cont : Pkt → Upd) : Upd := look fun s =>
  let x := s.tx k.frame.stream
  let f := { k.frame with seq := x.nextSeq, epoch := x.epoch }.sealed
  let p : Proof := ⟨x.nextSeq, ceilDiv f.len 256, k.tailIn, false, f⟩
  all [putTx k.frame.stream { x with nextSeq := (x.nextSeq + 1) % 2 ^ 32, proofs := x.proofs ++ [p] },
       bump (.bridge 4) 0, proofWatch, cont { k with frame := f }]

/-! ### Lossy admission (R333, R337 to R339) -/

/-- The enabled VEP with an owner and a peer. -/
def State.vepWith? (s : State) (owner peer : Nat) : Option Nat :=
  firstBelow 64 fun v => s.on (.bridge 2) .BRIDGE_VEP_CFG_EN v && s.rd (.bridge 2) .BRIDGE_VEP_CFG_OWNER v == owner &&
    s.rd (.bridge 2) .BRIDGE_VEP_CFG_PEER v == peer

/-- A lossy frame is dropped at egress queue `q`; one that a VEP has sent is counted against it too (R562). -/
def lossyDropped (k : Pkt) (q : Nat) : Upd := look fun s =>
  all [bump (.core 0) (32 * q + 16 + k.frame.cls),
       match k.ing with
       | .mover _ => when_ k.isEth (forSome (s.vepWith? k.frame.src k.frame.dest) fun v => bump (.bridge 2) (4 * v + 3))
       | _ => skip]

/-- The RED profile of a colour at queue (q, c); none for code 0xF or a profile whose MIN_TH is not below its MAX_TH. -/
def State.profile (s : State) (q c colour : Nat) : Option Nat :=
  let n := s.rd (.core 1) (if colour == green then .CORE_BUF_LIMIT_PROF_G else if colour == yellow then .CORE_BUF_LIMIT_PROF_Y
    else .CORE_BUF_LIMIT_PROF_R) (8 * q + c)
  if n == 15 || s.rd (.core 3) .CORE_RED_PROFILE_MAX_TH n ≤ s.rd (.core 3) .CORE_RED_PROFILE_MIN_TH n then none else some n

/-- The average after one admission: A + (Q − A) × 2^−WEIGHT, in 1/65,536 cell (R337). -/
def redNext (a q w : Nat) : Nat := if a ≤ 65536 * q then a + (65536 * q - a) / 2 ^ w else a - (a - 65536 * q) / 2 ^ w

/-- Lossy admission of the copies not yet judged, each at its own queue; `kept` are those that stay. -/
def admitLossy (k : Pkt) (kept : List Copy) : List Copy → Upd
  | [] => if kept.isEmpty then skip else enqueue { k with copies := kept }
  | c :: rest =>
    match c.dst with
    | .self => admitLossy k (kept ++ [c]) rest
    | .port q => drawWord fun w => look fun s =>
      let cls := k.frame.cls
      let n := s.cellsFor k
      let used := s.queueCells q cls
      let fits := used + n ≤ s.bound (s.rd (.core 1) .CORE_BUF_LIMIT_MAX (8 * q + cls)) (s.rd (.core 1) .CORE_BUF_LIMIT_ALPHA (8 * q + cls))
      let drop := all [lossyDropped k q, when_ (k.ing == .stipple) (bump (.core 0) 3078), admitLossy k kept rest]
      match s.profile q cls k.frame.colour with
      | none => if fits then admitLossy k (kept ++ [c]) rest else drop
      | some r =>
        let a := redNext (s.iv .redAvg (8 * q + cls)) used (s.rd (.core 3) .CORE_RED_PROFILE_WEIGHT r)
        let lo := 65536 * s.rd (.core 3) .CORE_RED_PROFILE_MIN_TH r
        let hi := 65536 * s.rd (.core 3) .CORE_RED_PROFILE_MAX_TH r
        let act := lo ≤ a && w * 256 * (hi - lo) < s.rd (.core 3) .CORE_RED_PROFILE_P_MAX r * (a - lo) * 2 ^ 32
        let ect := s.on (.core 3) .CORE_RED_PROFILE_MODE r && (match k.frame.body with
          | .eth e => e.ect
          | _ => false)
        all [put .redAvg a (8 * q + cls),
          if !fits then drop
          else if hi ≤ a || (act && !ect) then all [bump (.core 0) 3082, drop]
          else if act then
            all [bump (.core 0) 3081,
                 admitLossy { k with frame := { k.frame with body := (match k.frame.body with
                   | .eth e => .eth { e with ce := true }
                   | b => b) } } (kept ++ [c]) rest]
          else admitLossy k (kept ++ [c]) rest]

/-! ### Admission (step 4) -/

/-- Cells that an internal source may still take (R310, R330). -/
def State.innerRoom (s : State) (vi : Option Nat) : Nat :=
  match vi with
  | none => s.sharedFree
  | some v =>
    let res := s.rd (.core 2) .CORE_VI_LIMIT_RES v
    let used := s.viCells v
    let t := s.bound (s.rd (.core 2) .CORE_VI_LIMIT_MAX v) (s.rd (.core 2) .CORE_VI_LIMIT_ALPHA v)
    (res - used) + min s.sharedFree (t - (used - res))

/-- Why a frame may not be admitted now, none when it may. -/
def State.mustWait (s : State) (k : Pkt) : Option WaitFor :=
  let inner := match k.ing with
    | .port _ => false
    | _ => true
  if s.on (.core 0) .BLK_CTRL_QUIESCE || s.safeHalt then some .admission
  else if k.lossy then none
  else if k.copies.any fun c => (match c.dst with
      | .port q => s.on (.port q) .BLK_CTRL_QUIESCE
      | .self => false) then some .quiesce
  else if inner && k.ing != .fabric && s.innerRoom k.vi < s.cellsFor k then some .cells
  else if s.retains k && s.proofless k then some .proof
  else none

/-- A frame waits behind an earlier one of its flow and class (R472), and where their egresses meet and Table CORE-6 lets it
not pass. -/
def Waiting.blocks (w : Waiting) (k : Pkt) : Bool :=
  w.pkt.ing == k.ing && w.pkt.vi == k.vi && w.pkt.frame.cls == k.frame.cls &&
    match w.why with
    | .policer _ => true
    | .tail _ => false
    | _ => (w.pkt.pool == 0 || w.pkt.pool == k.pool) && w.pkt.copies.any fun c => k.copies.any fun d => c.dst == d.dst

/-- A frame that nothing holds is admitted: copies toward a quiesced egress (lossy) or a contained one are dropped, RETAIN is
cleared where it does not apply, and the rest is admitted (R332, R352, R414, R415). -/
def admitFrame (k : Pkt) : Upd := look fun s =>
  let closed := fun (c : Copy) => match c.dst with
    | .port q => s.portClosed q
    | .self => false
  let shut := fun (c : Copy) => match c.dst with
    | .port q => k.lossy && s.on (.port q) .BLK_CTRL_QUIESCE
    | .self => false
  let keep := k.copies.filter fun c => !closed c && !shut c
  let edge := !s.fromFab k.ing
  let j := { k with copies := keep, frame := if edge && !s.retains k then { k.frame with retain := false, seq := 0, epoch := 0 } else k.frame }
  all [
    when_ (edge && k.frame.mc) (bump (.bridge 4) 9),
    forEach (k.copies.filter fun c => shut c && !closed c) fun c => (match c.dst with
      | .port q => lossyDropped k q
      | .self => skip),
    if keep.isEmpty then
      all [when_ (k.copies.any closed) (bump (.core 0) 3083),
           when_ (!k.lossy && !k.frame.retain && k.pool != poolCTL && k.copies.any fun c => (match c.dst with
             | .port q => s.isFab q && s.portClosed q
             | .self => false)) (unretainedLoss 1)]
    else if k.lossy then admitLossy j [] keep
    else if s.retains k then takeProof j enqueue
    else enqueue j]

/-- Step 4 for a frame that has passed its policer. -/
def tryAdmit (k : Pkt) : Upd := look fun s =>
  match s.waiting.find? fun w => w.blocks k with
  | some w => modWaiting (· ++ [⟨w.why, k⟩])
  | none =>
    match s.mustWait k with
    | some y => all [modWaiting (· ++ [⟨y, k⟩]), when_ (y == .proof) (raise (.bridge 4) .FAB_PROOF_WAIT)]
    | none => admitFrame k

/-! ### Frames made inside the part -/

/-- The egress edge of a frame to FEID `n`: the SWITCH of its ID route. -/
def State.edgeOf (s : State) (n : Nat) : Nat :=
  match s.idRoute? s.live n with
  | some r => if r.isLocal then s.selfSw.getD 0 else r.sw
  | none => 0

/-- HOPS as the ingress edge sets it (R410). -/
def State.hopInit (s : State) : Nat := max 1 (s.rd (.bridge 4) .BRIDGE_FAB_CFG_HOP_INIT)

/-- A Daend frame from this part to FEID `dest`, of class `cls`, TYPE `typ` and `plen` bytes of payload (R407, R410), without
retention. -/
def State.inner (s : State) (dest cls typ plen : Nat) (body : Payload) : Frame :=
  { dest := dest, cls := cls, src := s.selfFeid, parity := s.live, colour := 0, typ := typ, mc := false, retain := false,
    lock := false, resent := false, hops := s.hopInit, len := 40 + plen, seq := 0, group := 0, ingSw := s.selfSw.getD 0,
    egrSw := s.edgeOf dest, epoch := 0, tag := 0, tagEp := false, tagValid := false, hcrc := 0, e2eOk := true, bad := false,
    void := false, body := body }

/-! ### Stipple samples (R348 to R351) -/

/-- The THROTTLE thermal step holds. -/
def State.throttled (s : State) : Bool := s.rd (.mgmt 0) .MGMT_THERM_STAT_STEP ≥ 2

/-- One sample of frame `k`, of stored length `size`, by sampler `m`: it describes the sampling point, and is sent once the frame's
tail has shown whether the frame was stomped (R349). -/
def sample (m port point : Nat) (k : Pkt) (size : Nat) : Upd := look fun s =>
  let dest := s.rd (.core 0) .CORE_STIPPLE_CFG_SINK m
  let snap := s.rd (.core 0) .CORE_STIPPLE_CFG_SNAP m
  let g := s.inner dest 7 3 (32 + min ((snap + 1) * 64) size)
    (.stipple m point 0 port k.frame.cls k.frame.colour size s.now s.cycleNum (s.iv .stipSeq m) snap)
  all [put .stipSeq ((s.iv .stipSeq m + 1) % 2 ^ 32) m,
       match s.wayTo s.live dest none with
       | none => miss ⟨missNO_ROUTE, s.live, 0, 6, s.selfFeid, dest, .none, none⟩
       | some d =>
         let j := s.pkt .stipple g [d] none true
         all [put .pktId (s.iv .pktId + 1), bump (.core 0) 3077,
              if k.tailIn then tryAdmit j else modWaiting (· ++ [⟨.tail k.id, j⟩])]]

/-- The samples of frame `id` go out. -/
def sendSamples (id : Nat) : Upd := look fun s =>
  all [modWaiting fun l => l.filter fun w => w.why != .tail id,
       forEach (s.waiting.filter fun w => w.why == .tail id) fun w => tryAdmit w.pkt]

/-- The samplers whose point a frame passes at `port` (point 0 ingress, 1 egress). A sampled frame is not changed. -/
def sampleAt (port point : Nat) (k : Pkt) (size : Nat) : Upd :=
  forBelow 16 fun m => look fun s =>
    let on := s.on (.core 0) .CORE_STIPPLE_CFG_EN m && s.rd (.core 0) .CORE_STIPPLE_CFG_POINT m == point
      && s.rd (.core 0) .CORE_STIPPLE_CFG_PORT m == port && (s.rd (.core 0) .CORE_STIPPLE_CFG_CLASS_MASK m).testBit k.frame.cls
      && !s.throttled
    let n := s.rd (.core 0) .CORE_STIPPLE_CFG_N_M1 m + 1
    when_ on <|
      if s.on (.core 0) .CORE_STIPPLE_CFG_MODE m then
        drawWord fun w => when_ (w * n < 2 ^ 32) (sample m port point k size)
      else if s.iv .stipCnt m + 1 < n then put .stipCnt (s.iv .stipCnt m + 1) m
      else all [put .stipCnt 0 m, sample m port point k size]

/-! ### Policing (step 3) -/

/-- Step 4 with its sampling point. -/
def step4 (k : Pkt) : Upd := look fun s =>
  all [(match k.ing with
        | .port p => sampleAt p 0 k (s.stored k.ing k.frame)
        | _ => skip), tryAdmit k]

/-- The policer an instance names (R469): POLICER of its binding, while EN is set. -/
def State.instPolicer (s : State) (vi : Option Nat) : Option Nat :=
  match vi with
  | some v => if s.on (.inst 3) .INST_VI_CFG_CFG1_POL_EN v then some (s.rd (.inst 3) .INST_VI_CFG_CFG1_POLICER v) else none
  | none => none

/-- Step 3 (R469 to R473): a frame behind a held one of its flow waits; a red lossless frame is held; a red lossy one is
dropped under DROP_RED; every other goes on with its colour. -/
def police (k : Pkt) : Upd := look fun s =>
  match s.policerFor k.ing k.frame.cls (s.instPolicer k.vi) with
  | none => step4 k
  | some n =>
    let b := s.stored k.ing k.frame
    let behind := s.waiting.any fun w => (match w.why with
      | .policer _ => w.blocks k
      | _ => false)
    let col := (s.meter n b (s.meterColour n k.frame.colour k.lossy)).1
    if !s.polFlag n 31 then step4 k
    else if !k.lossy && (behind || red ≤ col) then modWaiting (· ++ [⟨.policer n, k⟩])
    else charge n b k.frame.colour k.lossy fun c =>
      if k.lossy && red ≤ c && s.polFlag n 28 then skip
      else step4 { k with frame := { k.frame with colour := if k.lossy then c else k.frame.colour } }

/-- A frame enters the core with its destinations (steps 3 to 7). -/
def offer (ing : Ing) (f : Frame) (dsts : List Dst) (vi : Option Nat) (tailIn : Bool) : Upd := look fun s =>
  all [put .pktId (s.iv .pktId + 1), police (s.pkt ing f dsts vi tailIn)]

/-- A frame made inside the part goes to its destination by the live plate. -/
def sendInner (ing : Ing) (f : Frame) (vi : Option Nat) : Upd := look fun s =>
  match s.wayTo s.live f.dest none with
  | none => all [bump (.route 0) 0, miss ⟨missNO_ROUTE, s.live, 0, f.reqCode, f.src, f.dest, .none, none⟩]
  | some d => all [bump (.route 0) 0, offer ing f [d] vi true]

/-- A frame that names FAB port `p` itself and no FEID: HOPS 0 and DEST 0 (R403). -/
def sendOnLink (ing : Ing) (p : Nat) (f : Frame) : Upd := offer ing { f with dest := 0, hops := 0, egrSw := 0 } [.port p] none true

/-- POLICER_HOLD_RELEASE (R472) up to the queues: the held frame's test gives yellow or green; it is charged and goes on. -/
def policerHoldRelease (id : Nat) : Upd := look fun s =>
  forSome (s.waiting.find? fun w => w.pkt.id == id) fun w =>
    (match w.why with
     | .policer n =>
       let b := s.stored w.pkt.ing w.pkt.frame
       let ahead := (s.waiting.takeWhile fun x => x.pkt.id != id).any fun x => x.blocks w.pkt
       when_ (!ahead && ((s.meter n b green).1 < red || !s.polFlag n 31)) <|
         all [modWaiting fun l => l.filter fun x => x.pkt.id != id, charge n b green false fun _ => step4 w.pkt]
     | _ => skip)

/-- The oldest waiting frame that nothing holds any more. -/
def State.resumable (s : State) : List Waiting → List Waiting → Option Waiting
  | _, [] => none
  | before, w :: rest =>
    (match w.why with
     | .policer _ | .tag _ => s.resumable (before ++ [w]) rest
     | .tail id => if s.held.any fun k => k.id == id && !k.tailIn then s.resumable (before ++ [w]) rest else some w
     | _ => if before.any (·.blocks w.pkt) || (s.mustWait w.pkt).isSome then s.resumable (before ++ [w]) rest else some w)

/-- ADMISSION_RESUME (R310, R419) up to the queues. -/
def admissionResume : Upd := look fun s =>
  forSome (s.resumable [] s.waiting) fun w =>
    all [modWaiting fun l => l.filter fun x => x.pkt.id != w.pkt.id, if (s.mustWait w.pkt).isSome then tryAdmit w.pkt else admitFrame w.pkt]

/-! ### Multicast (R340 to R347) -/

/-- The member ports of group `g` for a frame that entered at `ing` (R340). -/
def State.members (s : State) (g : Nat) (ing : Ing) : List Dst :=
  (allBelow 96 fun p => (s.iv .mcMembers g).testBit p && !s.portClosed p &&
    (ing != .port p || (s.iv .mcCtl g).testBit 30)).map .port

/-- A group's VALID bit. -/
def State.groupValid (s : State) (g : Nat) : Bool := (s.iv .mcCtl g).testBit 31

/-- A write of `v` to dword `d` of CORE_MC_GROUP stages it; the stage belongs to the group that GROUP names at its first
dword. -/
def mcGroupStage (st : Stamp) (d v : Nat) : Upd := look fun s =>
  let m := if d == 3 then 0xC0000000 else 0xFFFFFFFF
  all [when_ (s.iv .mcHas st.code == 0) (put .mcAt (s.rdSt st.code (.core 0) .CORE_MC_SEL_GROUP + 1) st.code),
       put .mcHas (setBit (s.iv .mcHas st.code) d) st.code, put .mcDw (v &&& m) (4 * st.code + d)]

/-- MC_GROUP_STAGE. -/
def execMcGroupStage (st : Stamp) (d : Fin 4) (v : Word) : State → Answer := Upd.answer <|
  granted st (.core 0) (0x128 + 4 * d.val) (mcGroupStage st d v.toNat)

/-- A write of `v` to CORE_MC_SEL (R347): another GROUP empties the stage; GO commits it over the live entry. -/
def mcSelWrite (st : Stamp) (v : Nat) : Upd := look fun s =>
  let g := bits v 11 0
  let same := g == s.rdSt st.code (.core 0) .CORE_MC_SEL_GROUP
  let has := if same then s.iv .mcHas st.code else 0
  let dw := fun d live => if has.testBit d then s.iv .mcDw (4 * st.code + d) else live
  all [plainWrite st (.core 0) 0x124 v, when_ (!same) (put .mcHas 0 st.code),
       when_ (v.testBit 31) <|
         all [put .mcMembers (dw 0 (bits (s.iv .mcMembers g) 31 0) + dw 1 (bits (s.iv .mcMembers g) 63 32) <<< 32
                + dw 2 (bits (s.iv .mcMembers g) 95 64) <<< 64) g,
              put .mcCtl (dw 3 (s.iv .mcCtl g)) g, put .mcHas 0 st.code]]

/-- MC_GROUP_COMMIT. -/
def execMcGroupCommit (st : Stamp) (v : Word) : State → Answer := Upd.answer <|
  granted st (.core 0) 0x124 (mcSelWrite st v.toNat)

/-! ### Cell errors (R321) -/

/-- A proof in another switch covers the frame. -/
def State.covered (s : State) (k : Pkt) : Bool := k.lossy || (k.frame.retain && s.selfSw != some k.frame.ingSw)

/-- The domain of a frame's destination at one of its copies (Table GUARD-3, R321). -/
def State.destDom (s : State) (k : Pkt) (c : Copy) : ReqDom :=
  match c.dst with
  | .port q =>
    if s.role q == roleUP then (match s.faceOf q with
      | some f => .dom (.face f)
      | none => .dom (s.portDom q))
    else .dom (s.portDom q)
  | _ => .feid k.frame.dest

/-- CELL_ECC_ERROR (R317, R321): a correctable error is counted; an uncorrectable one makes the frame bad. -/
def execCellEccError (id : Nat) (correctable : Bool) : State → Answer := Upd.answer <| look fun s =>
  forSome (s.buf.find? fun k => k.id == id) fun k =>
    if correctable then all [bump (.core 0) 3079, raise (.core 0) .CORE_ECC_CORR]
    else
      all [bump (.core 0) 3080,
           if s.covered k then raise (.core 0) .CORE_ECC_COVERED
           else
             let lost := k.copies.map fun c => ({ err := .CORE_ECC_LOST, dom := some (s.destDom k c), detail0 := k.frame.dest } : Raised)
             all [raiseAll (.core 0) (lost.take 1), noteErrs (.core 0) (lost.drop 1)],
           turnBad id, sendSamples id]

/-! ### Buffer limits (R325, R331) -/

/-- A write of `v` to CORE_BUF_LIMIT or CORE_VI_LIMIT that would lower S_pool and leave it below SHARED_MIN is refused. -/
def bufferLimitWrite (st : Stamp) (pg : Pg) (off v : Nat) : Upd := look fun s =>
  let t := (plainWrite st pg off v).run s
  if t.sPool < s.sPool && t.sPool < s.rd (.core 0) .CORE_BUF_CFG_SHARED_MIN then raise (.core 0) .CORE_CFG_REFUSED
  else all [plainWrite st pg off v, coreWatch]

end Sys2Proof.Machine
end

