-- ==== Sys2Proof/Machine/Tags.lean ====
section
/-! DEFINITION. Tag pools of the faces (spec/07 R286 to R296), completions that come back for them, and the answers that the
part itself gives (R304, R601). -/

namespace Sys2Proof.Machine

/-! ### Faces -/

/-- STATE of FACE_BIND (Table FACE-1). -/
def fcRESET : Nat := 1
def fcRETRY : Nat := 2
def fcREADY : Nat := 3

/-- The UP port of face `f`. -/
def State.facePort (s : State) (f : Nat) : Nat := s.rd (.face f) .FACE_BIND_PORT

/-- The face is enabled and out of RESET. -/
def State.faceLive (s : State) (f : Nat) : Bool :=
  s.on (.face f) .FACE_BIND_ENABLE && (s.rd (.face f) .FACE_BIND_STATE == fcRETRY || s.rd (.face f) .FACE_BIND_STATE == fcREADY)

/-- The FEID of face `f`: the local face route at its port. -/
def State.faceFeid? (s : State) (f : Nat) : Option Nat :=
  (s.idRoutes s.live).find? (fun r => r.2.kind == kindFace && r.2.isLocal && r.2.port == s.facePort f) |>.map (·.1)

/-- The bound instance whose FEID is `n`. -/
def State.instOf (s : State) (n : Nat) : Option Nat :=
  s.boundVis.find? fun v => s.rd (.inst 3) .INST_VI_CFG_CFG1_FEID v == n

/-- The face of instance `v`. -/
def State.viFace (s : State) (v : Nat) : Nat := s.rd (.inst 2) .INST_STAT_FACE v

/-! ### Slots (R286 to R291) -/

/-- States of a slot that is not FREE. -/
def slBUSY : Nat := 0
def slABANDONED : Nat := 1
def slQUARANTINE : Nat := 2

/-- The size of a pool (FACE_TAG_LIMIT). -/
def State.poolSize (s : State) (f : Nat) (req : Bool) : Nat :=
  max 1 (min 16384 (s.rd (.face f) (if req then .FACE_TAG_LIMIT_REQ else .FACE_TAG_LIMIT_ADMIT)))

/-- Slots of a pool in use. -/
def State.slotsOf (s : State) (f : Nat) (req : Bool) : List Slot := s.slots.filter fun x => x.face == f && x.req == req

/-- Requests that face `f` may have outstanding on its own link (R287), by the Tag Requester Enables of its service endpoint. -/
def State.linkTags (s : State) (f : Nat) : Nat :=
  let e := s.iv .seTags f
  if e.testBit 1 then 16384 else if e.testBit 0 then 1024 else 256

/-- The index of a slot's epoch bit. -/
def epochAt (f : Nat) (req : Bool) (tag : Nat) : Nat := 32768 * f + 16384 * b2n req + tag

/-- The lowest FREE tag of a pool; none when the pool, or the link's tag width, is used up. -/
def State.freeTag? (s : State) (f : Nat) (req onLink : Bool) : Option Nat :=
  let used := s.slotsOf f req
  let wide := onLink && s.linkTags f ≤ (used.filter (·.onLink)).length
  if s.poolSize f req ≤ used.length || wide then none
  else firstBelow (if onLink then min (s.poolSize f req) (s.linkTags f) else s.poolSize f req) fun t => !used.any fun x => x.tag == t

/-- The epoch of a slot. -/
def State.tagEpoch (s : State) (f : Nat) (req : Bool) (tag : Nat) : Bool := s.ivOn .tagEp (epochAt f req tag)

/-- Take a slot. -/
def takeSlot (x : Slot) : Upd := modSlots (· ++ [x])

/-- A slot by its name. -/
def Slot.is (x : Slot) (f : Nat) (req : Bool) (tag : Nat) : Bool := x.face == f && x.req == req && x.tag == tag

/-- The slot of a pool that holds a tag. -/
def State.slot? (s : State) (f : Nat) (req : Bool) (tag : Nat) : Option Slot := s.slots.find? fun x => x.is f req tag

/-- The slot becomes FREE, with its epoch flipped when it comes from ABANDONED or from a timeout (R289). -/
def freeSlot (x : Slot) (flip : Bool) : Upd := look fun s =>
  all [modSlots fun l => l.filter fun y => !y.is x.face x.req x.tag,
       when_ flip (put .tagEp (1 - min 1 (s.iv .tagEp (epochAt x.face x.req x.tag))) (epochAt x.face x.req x.tag))]

/-- BUSY slots that satisfy `p` become ABANDONED (R292, R293, R303). -/
def abandon (p : Slot → Bool) : Upd :=
  modSlots fun l => l.map fun x => if x.st == slBUSY && p x then { x with st := slABANDONED } else x

/-! ### Completions (R288 to R290) -/

/-- Bytes as payload words from address `a`: the first word may begin before it. -/
def packWords (a : Nat) (bs : List Byte) : List Word :=
  let l := (List.replicate (a % 4) (0 : Byte) ++ bs).map (·.toNat)
  (List.range (ceilDiv l.length 4)).map fun k => word (ofBytes ((l.drop (4 * k)).take 4))

/-- The bytes that payload words hold for `n` bytes from address `a`. -/
def unpackWords (a n : Nat) (ws : List Word) : List Byte :=
  ((ws.flatMap fun w => (bytesOf w.toNat 4).map fun b => BitVec.ofNat 8 b).drop (a % 4)).take n

/-- A prefetch entry still waiting for its bytes. -/
def Pref.fills (e : Pref) (f tag : Nat) : Bool := e.face == f && e.tag == tag && e.got.length < e.size

/-- A completion of a host's read that was extended (R551): the host gets its own bytes, the rest goes to the read's prefetch
entry, or is discarded and counted when that is gone (R553). -/
def splitPrefetch (x : Slot) (t : Tlp) (host : Tlp → Upd) : Upd := look fun s =>
  let bc := t.addr.toNat
  let mine := min t.len (bc - x.extra)
  let own := packWords t.low.toNat ((unpackWords t.low.toNat t.len t.words).take mine)
  let rest := t.len - mine
  let at_ := ((s.prefs.find? fun e => e.fills x.face x.tag).map (·.base)).getD 0
  if t.stat != .sc then
    all [modPrefs fun l => l.filter fun e => !e.fills x.face x.tag, when_ (!x.served) (host t)]
  else
    all [when_ (0 < mine) (host { t with addr := BitVec.ofNat 64 (bc - x.extra), len := mine, words := own }),
         when_ (bc - x.extra ≤ t.len) (modSlots fun l => l.map fun y => if y.is x.face x.req x.tag then { y with served := true } else y),
         when_ (0 < rest) <|
           if s.prefs.any fun e => e.fills x.face x.tag then
             modPrefs fun l => l.map fun e => if e.fills x.face x.tag then
               { e with got := e.got ++ (unpackWords (at_ + x.extra - bc) t.len t.words).drop mine }
               else e
           else addCnt (.bridge 0) 0 rest]


/-- The place of a stream's key set among those of its port. -/
def ideSet (p stream set : Nat) : Nat := 10 * p + 2 * stream + set

/-- Every key of a set: three sub-streams in two directions (Table SEC-8). -/
def ideAll : Nat := 63

/-- The Secure stream and key set under which a TLP leaves a port (R316, R647): a selective stream that takes it, else the link
stream. -/
def State.ideStream? (s : State) (p rid addr : Nat) : Option (Nat × Nat) :=
  match firstBelow 4 fun k => (s.rd (.sec 1) .SEC_IDE_STAT_SEL_SECURE p).testBit k && Config.ideSelects p k rid addr with
  | some k => some (k + 1, b2n (s.iv .ideGo (ideSet p (k + 1) 1) == ideAll))
  | none => if s.on (.sec 1) .SEC_IDE_STAT_LINK_SECURE p then some (0, s.rd (.sec 1) .SEC_IDE_STAT_LINK_KSET p) else none

/-- A TLP leaves PCI Express port `p`, shown as `o`: encrypted where a stream takes it (R316), and unacknowledged until an Ack DLLP
covers it (R214). -/
def onWire (p rid addr : Nat) (o : Out) : Upd := look fun s =>
  all [forSome (s.ideStream? p rid addr) fun (k, set) => emit (.ideSeal p k set), emit o,
       modIv .pcieSent (fun n => (n + 1) % 4096) p]

/-- A TLP leaves PCI Express port `p`. -/
def tlpSend (p : Nat) (pasid : Option Nat) (f : Frame) : Upd :=
  match f.body with
  | .tlp t => onWire p t.rid.toNat t.addr.toNat (.tlpOut p pasid f)
  | _ => onWire p 0 0 (.tlpOut p pasid f)

/-- A completion without data that the part itself answers on PCI Express port `p`. -/
def selfCpl (p : Nat) (stat : CplStat) (rid tag : Nat) : Upd := onWire p rid 0 (.cplOut p stat rid tag)

/-- A completion frame from this part to the FEID that holds the tag (R363: class and RETAIN of its ID route). -/
def State.cplFrame (s : State) (src dest tag : Nat) (ep : Bool) (t : Tlp) : Frame :=
  let r := s.idRoute? s.live dest
  { s.inner dest ((r.map (·.cls)).getD 0) 0 (t.hdr + t.len) (.tlp t) with
    src := src, retain := (r.map (·.retain)).getD false, tag := tag, tagEp := ep, tagValid := true }

/-- A completion reaches face `f` for a pool: on the face's own link (`link`, no epoch, R290), or inside the part with the
slot's tag and epoch (R288). It is delivered to whoever holds the slot, discarded as late, or discarded as unexpected. A split
completion of an abandoned read leaves the slot ABANDONED until its last part, so that no new request meets an old part (R294). -/
def faceCompletes (f : Nat) (req link : Bool) (tag : Nat) (ep : Bool) (t : Tlp) : Upd := look fun s =>
  let fits := fun (x : Slot) => x.is f req tag && x.st != slQUARANTINE && (if link then x.onLink else !x.onLink && s.tagEpoch f req tag == ep)
  match s.slots.find? fits with
  | none => raise (.face f) .FACE_UNEXP_CPL
  | some x =>
    if x.st == slABANDONED then all [bump (.face f) 4, when_ t.final (freeSlot x true)]
    else
      let u := { t with rid := BitVec.ofNat 16 x.rid, tag := BitVec.ofNat 14 x.otag }
      all [
        (match x.who with
         | .host =>
           let out := fun (t : Tlp) => tlpSend (s.facePort f) none (s.cplFrame x.dest ((s.faceFeid? f).getD 0) tag ep t)
           all [if x.extra == 0 then out u else splitPrefetch x u out,
                when_ (x.flush && u.stat != .sc) (put .lockDest 0 f)]
         | .device n => offerBack s n x u
         | .service | .inst _ => emit (.selfOut (s.cplFrame x.dest 0 tag ep u))),
        when_ t.final (freeSlot x false)]
where
  /-- A device's completion goes back to it under the tag of its request. -/
  offerBack (s : State) (n : Nat) (x : Slot) (u : Tlp) : Upd :=
    let g := s.cplFrame ((s.faceFeid? f).getD 0) n x.rtag x.rep u
    match s.wayTo s.live n none with
    | none => miss ⟨missNO_ROUTE, s.live, s.facePort f, 7, g.src, n, .none, none⟩
    | some d => offer (.port (s.facePort f)) g [d] none true

/-- The pool of face `f` that a completion from FEID `src` inside the part answers: REQ when only a slot of REQ fits it. -/
def State.poolFor (s : State) (f tag : Nat) (ep : Bool) (src : Nat) : Bool :=
  let fits := fun (r : Bool) => s.slots.any fun x => x.is f r tag && !x.onLink && x.st != slQUARANTINE && x.dest == src &&
    s.tagEpoch f r tag == ep
  !fits false && fits true

/-- COMPLETION_RECEIVED. -/
def execCompletionReceived (f : FaceId) (req link : Bool) (tag : BitVec 14) (ep : Bool) (t : Tlp) : State → Answer :=
  Upd.answer (faceCompletes f req link tag.toNat ep t)

/-- CPL_TIMEOUT (R290, R291). -/
def execCplTimeout (f : FaceId) (req : Bool) (tag : BitVec 14) : State → Answer := Upd.answer <| look fun s =>
  forSome (s.slot? f req tag.toNat) fun x =>
    when_ (x.st != slQUARANTINE) <|
      all [if x.onLink then modSlots fun l => l.map fun y => if y.is f req tag.toNat then { y with st := slQUARANTINE } else y
           else freeSlot x true,
           bump (.face f) 5, raise (.face f) (if req then .FACE_CPL_TIMEOUT else .FACE_ADMIT_TIMEOUT),
           when_ req (emit (.cplTimeout f tag.toNat x.who))]

/-- TAG_QUARANTINE_END (R290). -/
def execTagQuarantineEnd (f : FaceId) (tag : BitVec 14) : State → Answer := Upd.answer <| look fun s =>
  forSome (s.slot? f true tag.toNat) fun x => when_ (x.st == slQUARANTINE) (freeSlot x true)

/-! ### Answers of the part (R304, R376, R601) -/

/-- The frame's own tag is a slot of pool REQ of face `f` for its own link, where it has not gone. -/
def State.ownLink (s : State) (f : Nat) (g : Frame) : Bool :=
  s.slots.any fun x => x.is f true g.tag && x.onLink && x.dest == g.dest && s.tagEpoch f true g.tag == g.tagEp

/-- The requester of a non-posted frame gets a completion without data, under its own tag. -/
def answerNp (f : Frame) (stat : CplStat) : Upd := look fun s =>
  let rid := (match f.body with
    | .tlp t => t.rid.toNat
    | _ => 0)
  let t := Tlp.answer stat rid f.tag 0
  match s.idRoute? s.live f.src with
  | none => skip
  | some r =>
    if !r.isLocal then sendInner .guard (s.cplFrame f.dest f.src f.tag f.tagEp t) none
    else if r.kind == kindDevice then selfCpl r.port stat r.rid f.tag
    else if r.kind == kindFace then forSome (s.faceOf r.port) fun g =>
      faceCompletes g (s.ownLink g f || s.poolFor g f.tag f.tagEp f.dest) (s.ownLink g f) f.tag f.tagEp t
    else forSome (s.instOf f.src) fun v => faceCompletes (s.viFace v) true (s.ownLink (s.viFace v) f) f.tag f.tagEp t

/-- The status that GUARD synthesises. -/
def State.synth (s : State) : CplStat := if s.rd (.guard 0) .GUARD_POLICY_SYNTH == 1 then .ca else .ur

/-- UNREACHABLE_ANSWER (R601): a non-posted request is answered, a posted one or another frame is discarded and counted, a
completion is discarded. -/
def answerUnreachable (f : Frame) : Upd := look fun s =>
  if f.isNp then all [bump (.guard 0) 9, answerNp f s.synth]
  else if f.isCpl then skip
  else bump (.guard 0) 10

/-- A request routed to a face in RESET (R304). -/
def refuseInReset (f : Nat) (g : Frame) : Upd :=
  all [bump (.face f) 7, raise (.face f) .FACE_RESET_DROP, when_ g.isNp (answerNp g .ur)]

/-- A presented device's request toward the host of face `g` while the USP's Bus Master Enable is clear (R293). -/
def State.masterOff (s : State) (g : Nat) (f : Frame) : Bool :=
  !f.isCpl && !s.ivOn .bme (4096 * g) && ((s.idRoute? s.live f.src).map (·.kind)) == some kindDevice

/-- A stream of a port is Secure. -/
def State.ideSecure (s : State) (p : Nat) : Bool :=
  s.on (.sec 1) .SEC_IDE_STAT_LINK_SECURE p || s.on (.sec 1) .SEC_IDE_STAT_SEL_SECURE p

/-- R648 holds back the port's memory requests, AtomicOps and completions. -/
def State.ideBars (s : State) (p : Nat) : Bool := s.on (.sec 1) .SEC_IDE_STAT_REQUIRED p && !s.ideSecure p

/-- A transfer that R648 does not forward: counter 7 and IDE_REQUIRED_DROP. -/
def ideDrop (p : Nat) : Upd := look fun s => all [bump (.sec 0) 7, raiseIn (.sec 0) .SEC_IDE_REQUIRED_DROP (s.portDom p)]

/-- R648 keeps the frame from crossing the port. -/
def State.ideStops (s : State) (p : Nat) (f : Frame) : Bool :=
  s.ideBars p && (match f.body with
    | .tlp t => t.kind == .memRd || t.kind == .memWr || t.kind == .atomic || t.kind == .cpl
    | _ => false)

/-- R609 keeps a poisoned posted write from DOWN port `p`. -/
def State.poisonStops (s : State) (p : Nat) (f : Frame) : Bool :=
  s.role p == roleDOWN && s.on (.guard 0) .GUARD_POLICY_POISON_BLOCK && (match f.body with
    | .tlp t => t.kind == .memWr && t.ep
    | _ => false)

/-- A write that R609 discards. -/
def poisonDrop : Upd := all [bump (.guard 0) 13, raise (.guard 0) .GUARD_POISON_BLOCKED]

/-- What takes the place of forwarding a frame that would go to `d`, if anything does: an answer for an unreachable FEID (R601), for
a port that R648 or R609 closes, for the USP's Bus Master Enable (R293), or for a face in RESET (R304). A completion for a face
without a link meets its slot at once. -/
def State.refusal (s : State) (f : Frame) (d : Dst) : Option Upd :=
  if s.unreachable f.dest then some (answerUnreachable f)
  else match d with
    | .self => none
    | .port q =>
      if s.ideStops q f then some (all [ideDrop q, when_ f.isNp (answerNp f .ur)])
      else if s.poisonStops q f then some poisonDrop
      else match s.faceOf q with
        | none => none
        | some g =>
          if s.masterOff g f then some (when_ f.isNp (answerNp f .ur))
          else if s.faceLive g then none
          else match f.body with
            | .tlp t => if t.kind == .cpl then some (faceCompletes g (s.poolFor g f.tag f.tagEp f.src) false f.tag f.tagEp t)
              else some (refuseInReset g f)
            | _ => some (refuseInReset g f)

/-- A lookup at the ingress edge is counted. -/
def countIngress : Upd := bump (.route 0) 0

/-- A request or completion of the ingress edge whose destination FEID is known enters CORE, unless it misses with NO_ROUTE (R372)
or is answered instead. -/
def deliver (ing : Ing) (f : Frame) (vi : Option Nat) (tailIn : Bool) : Upd := look fun s =>
  let p := (match ing with
    | .port q => q
    | _ => 0)
  all [countIngress,
    match s.wayTo s.live f.dest none with
    | none => all [miss ⟨missNO_ROUTE, s.live, p, f.reqCode, f.src, f.dest, .feid f.src, s.faceOf p⟩, when_ f.isNp (answerNp f .ur)]
    | some d => match s.refusal f d with
      | some u => u
      | none => offer ing f [d] vi tailIn]

/-- Frames of stream `k` that wait are answered as for an unreachable destination (R427). -/
def answerStream (k : Nat) : Upd := look fun s =>
  let hit := fun (w : Waiting) => w.pkt.frame.retain && !s.fromFab w.pkt.ing && w.pkt.frame.stream == k
  all [modWaiting fun l => l.filter fun w => !hit w, forEach (s.waiting.filter hit) fun w => answerUnreachable w.pkt.frame]

end Sys2Proof.Machine
end

