-- ==== Sys2Proof/Machine/Fabric.lean ====
section
/-! DEFINITION. Fabric mode (spec/10): link status, releases and deduplication, resends, dead streams, path loss and retiring
links. -/

namespace Sys2Proof.Machine

/-! ### Releases and deduplication (R420 to R423) -/

/-- The name of a stream: the other edge and the class. -/
def streamOf (sw c : Nat) : Nat := 8 * sw + c

/-- A release of one entry goes to the ingress edge of stream `k` (R421); none is sent to a switch without an FEID (R401). -/
def sendRelease (k seq : Nat) (gap adopt : Bool) (epoch : Nat) : Upd := look fun s =>
  forSome (s.switchFeid? (k / 8)) fun n =>
    sendInner .fabric (s.inner n 0 5 16 (.release [⟨k % 8, gap, adopt, epoch, seq % 2 ^ 32⟩])) none

/-- One SEQ back. -/
def seqBefore (n : Nat) : Nat := (n + (2 ^ 32 - 1)) % 2 ^ 32

/-- A release of everything delivered. -/
def releaseNow (k : Nat) (gap : Bool) : Upd := look fun s =>
  forSome (s.rx? k) fun r => all [putRx k { r with unrel := 0 }, sendRelease k (seqBefore r.expect) gap false r.epoch]

/-- Step 3 of Table FABRIC-5 with d = 0: the frame counts as delivered; the 64th not released draws a release. -/
def delivered (k : Nat) (r : RxStream) (deliver : Upd) : Upd :=
  all [putRx k { r with expect := (r.expect + 1) % 2 ^ 32, unrel := r.unrel + 1 }, deliver,
       when_ (64 ≤ r.unrel + 1) (releaseNow k false)]

/-- Steps 3 to 6 of Table FABRIC-5. -/
def byDistance (f : Frame) (r : RxStream) (deliver discard : Upd) : Upd := look fun s =>
  let k := streamOf f.ingSw f.cls
  let d := (f.seq + 2 ^ 32 - r.expect) % 2 ^ 32
  if d == 0 then delivered k r deliver
  else if 2 ^ 32 - 65536 ≤ d then all [discard, bump (.bridge 4) 5, releaseNow k false]
  else if d < 2 ^ 31 then
    all [discard, raise (.bridge 4) .FAB_GAP, bump (.bridge 4) 6,
         when_ (match r.gapAt with
           | some t => t + 2000 ≤ s.now
           | none => true) (all [putRx k { r with gapAt := some s.now }, releaseNow k true])]
  else all [discard, raise (.bridge 4) .FAB_STALE_SEQ, bump (.bridge 4) 7]

/-- EGRESS_DEDUP (Table FABRIC-5): a retained frame that arrived good at its egress edge. -/
def dedup (f : Frame) (deliver discard : Upd) : Upd := look fun s =>
  let k := streamOf f.ingSw f.cls
  let adopt :=
    let r : RxStream := ⟨f.epoch, f.seq, 0, none⟩
    all [putRx k r, bump (.bridge 4) 8, sendRelease k (seqBefore f.seq) false true f.epoch, byDistance f r deliver discard]
  match s.rx? k with
  | none => adopt
  | some r =>
    let d := (f.epoch + 65536 - r.epoch) % 65536
    if 1 ≤ d && d ≤ 32767 then adopt
    else if d != 0 then all [discard, raise (.bridge 4) .FAB_STALE_SEQ, bump (.bridge 4) 7]
    else byDistance f r deliver discard

/-- RELEASE_TIMER (R420). -/
def execReleaseTimer (sw : SwId) (c : ClassId) : State → Answer := Upd.answer <| look fun s =>
  forSome (s.rx? (streamOf sw c)) fun r => when_ (r.unrel != 0) (releaseNow (streamOf sw c) false)

/-- STREAM_RECORD_FORGET (R423). -/
def execStreamRecordForget (sw : SwId) (c : ClassId) : State → Answer := Upd.answer (delRx (streamOf sw c))

/-! ### Resends (R422, R424, R427) -/

/-- STREAM_DEAD (R427): the stream's proofs are discarded, its frames that wait are answered, and the LINK domain of its egress
edge is asked for. -/
def streamDead (k : Nat) : Upd := look fun s =>
  all [putTx k { s.tx k with proofs := [], resending := none, dead := true }, proofWatch, bump (.bridge 4) 4,
       answerStream k, raiseIn (.bridge 4) .FAB_STREAM_DEAD (.link (0x100 + k / 8))]

/-- One proof is sent again over the route in force (R410, R424). -/
def resendOne (p : Proof) : Upd := look fun s =>
  let f := { p.frame with resent := true, parity := s.live, hops := s.hopInit }.sealed
  match s.wayTo s.live f.dest none with
  | none => miss ⟨missNO_ROUTE, s.live, 0, f.reqCode, f.src, f.dest, .none, none⟩
  | some d =>
    let k := s.pkt .fabric f [d] none true
    all [put .pktId (s.iv .pktId + 1), bump (.bridge 4) 2, modBuf (· ++ [k])]

/-- The proofs of a resend in SEQ order, up to one whose tail is not in yet. -/
def resendRun (l : List Proof) : Upd := forEach (l.takeWhile (·.valid)) resendOne

/-- The tail of the frame with SEQ `n` came in while its stream resends: its proof is valid now, and the resend that stopped at it
goes on (R424). -/
def resendGoesOn (k n : Nat) : Upd := look fun s =>
  let x := s.tx k
  when_ (x.resending.isSome && (x.proofs.takeWhile (·.seq != n)).all (·.valid)) (resendRun (x.proofs.dropWhile (·.seq != n)))

/-- PROOF_RESEND: a resend event of stream `k`. One that has started its limit of resends without progress becomes DEAD. -/
def resend (k : Nat) : Upd := look fun s =>
  let x := s.tx k
  when_ (!x.proofs.isEmpty && x.resending.isNone && !x.dead) <|
    if max 1 (s.rd (.bridge 4) .BRIDGE_FAB_CFG_RESEND_LIMIT) ≤ x.resends then streamDead k
    else all [putTx k { x with resends := x.resends + 1, resending := x.proofs.getLast?.map (·.seq) }, bump (.bridge 4) 3,
              resendRun x.proofs]

/-- Every stream with unreleased proofs is resent (R425). -/
def resendAll : Upd := look fun s => forEach (s.txs.map (·.1)) resend

/-- One entry of a release from switch `sw` (R422). -/
def releaseEntry (sw : Nat) (e : RelEntry) : Upd := look fun s =>
  let k := streamOf sw e.cls
  let x := s.tx k
  let oldest := ((x.proofs.head?).map (·.seq)).getD x.nextSeq
  let at_ := (e.seq + 2 ^ 32 - seqBefore oldest) % 2 ^ 32
  let span := (seqBefore x.nextSeq + 2 ^ 32 - seqBefore oldest) % 2 ^ 32
  let freed := fun (p : Proof) => (p.seq + 2 ^ 32 - seqBefore oldest) % 2 ^ 32 ≤ at_
  let n := (x.proofs.filter freed).length
  if e.epoch != x.epoch then skip
  else if span < at_ then raise (.bridge 4) .FAB_RELEASE_BAD
  else all [putTx k { x with proofs := x.proofs.filter fun p => !freed p, resends := if n == 0 then x.resends else 0 },
            addCnt (.bridge 4) 1 n, proofWatch, when_ e.gap (resend k)]

/-- PROOF_RELEASE_RECEIVED. -/
def execProofReleaseReceived (sw : SwId) (es : List RelEntry) : State → Answer := Upd.answer (forEach es (releaseEntry sw))

/-- PROOF_TIMEOUT (R424). -/
def execProofTimeout (sw : SwId) (c : ClassId) : State → Answer := Upd.answer (resend (streamOf sw c))

/-- RESEND_COMPLETE (R424): every proof has been sent, and every frame of the resend has left. -/
def execResendComplete (sw : SwId) (c : ClassId) : State → Answer := Upd.answer <| look fun s =>
  let k := streamOf sw c
  let left := s.buf.any fun p => p.ing == .fabric && p.frame.retain && p.frame.stream == k
  when_ (!left && (s.tx k).proofs.all (·.valid)) (putTx k { s.tx k with resending := none })

/-- Dead streams start again at a plate turn, with the next EPOCH and SEQ 0 (R416, R427). -/
def streamsRestart : Upd := look fun s =>
  forEach (s.txs.filter fun e => e.2.dead) fun e => putTx e.1 ⟨0, (e.2.epoch + 1) % 65536, [], 0, none, false⟩

/-! ### Path loss (R425) -/

/-- A PATH_LOSS that names port `p` goes to every switch of BRIDGE_FAB_NOTIFY but this one. -/
def sendPathLoss (p : Nat) : Upd := look fun s =>
  let mask := s.rd (.bridge 4) .BRIDGE_FAB_NOTIFY_MASK + s.rd (.bridge 4) .BRIDGE_FAB_NOTIFY_MASK_HI <<< 32
  let partner := if s.on (.bridge 4) .BRIDGE_FAB_NBR_VALID p then s.rd (.bridge 4) .BRIDGE_FAB_NBR_PARTNER_SW p else 0x3F
  forEach ((allBelow 64 fun w => mask.testBit w && s.selfSw != some w).filterMap s.switchFeid?) fun n =>
    all [sendInner .fabric (s.inner n 0 5 8 (.pathLoss (s.selfSw.getD 0) p partner)) none, bump (.bridge 4) 13]

/-- PATH_LOSS_RECEIVED. -/
def execPathLossReceived : State → Answer := Upd.answer (all [bump (.bridge 4) 14, resendAll])

/-! ### Link status (R403) -/

/-- GENERATION of a plate. -/
def State.plateGen (s : State) (k : Nat) : Nat := s.rd (.route 0) .ROUTE_GEN_GENERATION k

/-- The payload port `p` sends (Table FABRIC-1). -/
def State.linkStatus (s : State) (p : Nat) : LinkStatus :=
  { sw := s.switchId, port := p, retiring := s.link p == lsRETIRING, live := s.live, armed := s.turnArmed, armedIdx := 1 - s.live,
    liveGen := s.plateGen s.live, armedGen := if s.turnArmed then s.plateGen (1 - s.live) else 0, armedCycle := s.iv .turnAt }

/-- A FAB port that sends link status. -/
def State.speaks (s : State) (p : Nat) : Bool :=
  s.isFab p && (s.link p == lsPROVISIONAL || s.link p == lsUP || s.link p == lsREST || s.link p == lsRETIRING)

/-- A link-status frame leaves for the partner. -/
def sendLinkStatus (p : Nat) : Upd := look fun s =>
  when_ (s.speaks p) (sendOnLink .mgmt p (s.inner 0 7 3 24 (.linkStatus (s.linkStatus p))))

/-- LINK_STATUS_SEND. -/
def execLinkStatusSend (p : PortId) : State → Answer := Upd.answer (sendLinkStatus p)

/-- LINK_STATUS_PERIODIC. -/
def execLinkStatusPeriodic : State → Answer := Upd.answer <| look fun s =>
  when_ (s.tracker == ctIDLE || s.tracker == ctACQUIRE || s.tracker == ctLOST) (forBelow 96 sendLinkStatus)

/-- LINK_STATUS_RECEIVED: the frame is recorded, and RETIRING spreads (R428). -/
def execLinkStatusReceived (p : PortId) (l : LinkStatus) : State → Answer := Upd.answer <| look fun s =>
  when_ (s.speaks p) <|
    all [put .lsSeen 1 p,
         put .lsFlags (b2n l.retiring + (l.live % 2) <<< 1 + b2n l.armed <<< 2 + (l.armedIdx % 2) <<< 3) p,
         put .lsLiveGen (l.liveGen % 2 ^ 32) p, put .lsArmedGen (l.armedGen % 2 ^ 32) p, put .lsArmedCycle (l.armedCycle % 2 ^ 48) p,
         when_ l.retiring (retire p)]

/-- The partner's LIVE and LIVE_GEN are this switch's own. -/
def State.sameLive (s : State) (p : Nat) : Bool :=
  s.ivOn .lsSeen p && bits (s.iv .lsFlags p) 1 1 == s.live && s.iv .lsLiveGen p == s.plateGen s.live

/-- FAB_PORT_ADMIT (R404): after the turn of cycle `c`, ports in PROVISIONAL whose partner agrees enter UP (R399, R402). -/
def fabPortAdmit (c : Nat) : Upd := look fun s =>
  forEach (allBelow 96 fun p => s.isFab p && s.link p == lsPROVISIONAL && s.selfSw.isSome &&
      !s.on (.bridge 4) .BRIDGE_FAB_NBR_MISWIRED p && s.ivOn .lsSeen p) fun p =>
    let fl := s.iv .lsFlags p
    let armed := fl.testBit 2 && s.iv .lsArmedCycle p == c && s.iv .lsArmedGen p == s.plateGen s.live && bits fl 3 3 == s.live
    when_ (armed || s.sameLive p) (all [wr (.port p) .PORT_LINK_STAT_STATE lsUP, put .guardBack 0 p, put .skewCnt 0 p])

/-- R613: a port that GUARD brought back to PROVISIONAL enters UP when the partner is the same and agrees. -/
def fabPortRejoin : Upd := look fun s =>
  forEach (allBelow 96 fun p => s.isFab p && s.link p == lsPROVISIONAL && s.ivOn .guardBack p && s.sameLive p && s.selfSw.isSome &&
      !s.on (.bridge 4) .BRIDGE_FAB_NBR_MISWIRED p &&
      s.iv .guardPartner p == 128 * s.rd (.bridge 4) .BRIDGE_FAB_NBR_PARTNER_SW p + s.rd (.bridge 4) .BRIDGE_FAB_NBR_PARTNER_PORT p)
    fun p => all [wr (.port p) .PORT_LINK_STAT_STATE lsUP, put .guardBack 0 p]

/-- PLATE_SKEW_CHECK (R406): at a boundary outside a grace period; a grace period starts the count of boundaries afresh. -/
def plateSkewCheck : Upd := look fun s =>
  if s.rd (.route 0) .ROUTE_LIVE_SEL_GRACE_LEFT != 0 then clearIv .skewCnt fun _ => true
  else
    forEach (allBelow 96 fun p => s.isFab p && s.link p == lsUP && s.ivOn .lsSeen p) fun p =>
      if s.sameLive p then put .skewCnt 0 p
      else if s.iv .skewCnt p == 0 then put .skewCnt 1 p
      else all [put .skewCnt 0 p, wr (.port p) .PORT_LINK_STAT_STATE lsPROVISIONAL,
                raiseIn (.bridge 4) .FAB_PLATE_SKEW (.link p)]

/-! ### Retiring a link (R428, R429) -/

/-- LINK_RETIRE. -/
def execLinkRetire (st : Stamp) (p : PortId) (v : Word) : State → Answer := Upd.answer <|
  granted st (.port p) 0x108 (linkCtrlWrite st p v.toNat)

/-- A frame of CORE has a copy for egress `p`. -/
def Pkt.goesTo (k : Pkt) (p : Nat) : Bool := k.copies.any fun c => c.dst == .port p

/-- RETIRE_DRAINED. What is lost when the link is retired counts as lost (R38) and leaves no GUARD record: R628 lists no type for it
(DEDUCED, log entry 188). -/
def execRetireDrained (p : PortId) : State → Answer := Upd.answer <| look fun s =>
  when_ (s.isFab p && s.link p == lsRETIRING && (s.replayOf p).isEmpty && !s.buf.any fun k => k.goesTo p) (linkDown p)

/-- The queued frames of an egress go, without being counted as discarded. -/
def dropQueued (p : Nat) : Upd := look fun s =>
  all [forEach (s.buf.filter fun k => k.copies.any fun c => c.dst == .port p && c.started) fun k => emit (.stomp p k.id),
       modBuf fun b => (b.map (·.without (.port p))).filter fun k => !k.copies.isEmpty, coreWatch]

/-- RETIRE_TIMEOUT. -/
def execRetireTimeout (p : PortId) : State → Answer := Upd.answer <| look fun s =>
  when_ (s.isFab p && s.link p == lsRETIRING) <|
    all [dropQueued p, linkDown p, raise (.bridge 4) .FAB_RETIRE_TIMEOUT, resendAll]

end Sys2Proof.Machine
end

