-- ==== Sys2Proof/Machine/Egress.lean ====
section
/-! DEFINITION. Egress (spec/12 R459 to R468, spec/06 R241 and R232, spec/15 R544 and R547 to R549): what a port sends at a
frame boundary, and how a TLP leaves on a PCI Express port. -/

namespace Sys2Proof.Machine

/-! ### Candidates (R460, Table CORE-6) -/

/-- The flow of a frame at an egress (R462): its ingress port, its instance, or INTERNAL. -/
def Pkt.flow (k : Pkt) : Nat :=
  match k.vi, k.ing with
  | some v, _ => 256 + v
  | none, .port p => p
  | none, _ => 128

/-- Attributes of a TLP: Relaxed Ordering, ID-Based Ordering, requester or completer ID, tag. -/
def Pkt.ro (k : Pkt) : Bool :=
  match k.frame.body with
  | .tlp t => t.ro
  | _ => false
def Pkt.ido (k : Pkt) : Bool :=
  match k.frame.body with
  | .tlp t => t.ido
  | _ => false

/-- Whom ID-Based Ordering compares: the requester or completer, and across a fabric the source FEID. -/
def Pkt.owner (k : Pkt) (fab : Bool) : Nat :=
  if fab then k.frame.src
  else match k.frame.body with
    | .tlp t => if t.kind == .cpl then t.cid.toNat else t.rid.toNat
    | _ => k.frame.src

/-- The same transaction: requester and tag. -/
def sameTransaction (a b : Pkt) : Bool :=
  a.frame.dest == b.frame.dest && a.frame.tag == b.frame.tag && a.frame.tagEp == b.frame.tagEp

/-- A later frame may pass an earlier one of its ingress, egress and class (Table CORE-6, R335). -/
def Pkt.mayPass (later earlier : Pkt) (fab : Bool) : Bool :=
  match earlier.pool with
  | 0 => match later.pool with
    | 0 => later.ro
    | 1 => later.ido && later.owner fab != earlier.owner fab
    | 2 => later.ro || (later.ido && later.owner fab != earlier.owner fab)
    | _ => true
  | 2 => later.pool != 2 || !sameTransaction later earlier
  | _ => true

/-- The copy of a frame toward `p` that has not started. -/
def Pkt.waitsFor (k : Pkt) (p : Nat) : Option Copy := k.copies.find? fun c => c.dst == .port p && !c.started

/-- Credits still free at the partner of FAB port `p`. -/
def State.partnerCredits (s : State) (p c x : Nat) : Nat :=
  (s.iv .txLimit (crIdx p c x) + 2 ^ 24 - s.iv .txUsed (crIdx p c x)) % 2 ^ 24

/-- The credits a frame needs. -/
def credits (len : Nat) : Nat := ceilDiv len 64

/-- The egress tags of DOWN port `p` in use. -/
def State.etags (s : State) (p : Nat) : List Nat := (s.fwd.filter fun w => w.port == p).map (·.etag)

/-- The parts of `len` bytes from address `a`, cut at multiples of `size` (R547). -/
def parts (size : Nat) : Nat → Nat → Nat → List (Nat × Nat)
  | 0, a, len => [(a, len)]
  | n + 1, a, len =>
    let first := size - a % size
    if len ≤ first then [(a, len)] else (a, first) :: parts size n (a + first) (len - first)

/-- How BRIDGE cuts a request of `len` bytes at `a` for a limit of `size`: one that does not exceed it stays whole (R547). -/
def cuts (size a len : Nat) : List (Nat × Nat) := if len ≤ size then [(a, len)] else parts size (len / size + 1) a len

/-- How it cuts a completion whose first byte has Lower Address `low`: into offsets and lengths, at multiples of 64 bytes (R548). -/
def cplCuts (size low : Nat) : Nat → Nat → Nat → List (Nat × Nat)
  | 0, off, len => [(off, len)]
  | n + 1, off, len =>
    let first := (low + off + size) / 64 * 64 - (low + off)
    if len ≤ size then [(off, len)] else (off, first) :: cplCuts size low n (off + first) (len - first)

/-- The words of `n` payload bytes from offset `off`, of a payload whose first byte has address `base`. -/
def tlpSlice (t : Tlp) (base off n : Nat) : List Word := packWords (base + off) (((unpackWords base t.len t.words).drop off).take n)

/-- The part of a posted write with `n` bytes at address `a`. -/
def writePart (t : Tlp) (a n : Nat) : Tlp :=
  { t with addr := BitVec.ofNat 64 a, len := n, words := tlpSlice t t.addr.toNat (a - t.addr.toNat) n }

/-- The part of a completion with `n` bytes from offset `off`. -/
def cplPart (t : Tlp) (off n : Nat) : Tlp :=
  { t with addr := BitVec.ofNat 64 (t.addr.toNat - off), len := n, low := t.low + BitVec.ofNat 7 off, words := tlpSlice t t.low.toNat off n }

/-- The sub-reads of a read toward DOWN port `p`. -/
def State.subReads (s : State) (p : Nat) (t : Tlp) : List (Nat × Nat) :=
  if t.kind == .memRd then
    cuts (sizeOf (s.rd (.bridge 1) .BRIDGE_PORT_LIMIT_MRRS p)) t.addr.toNat t.len
  else [(t.addr.toNat, t.len)]

/-- A request toward the host of face `f` takes a REQ slot of the face when it leaves, unless its maker has taken one there. -/
def State.takesReqTag (s : State) (f : Nat) (k : Pkt) : Bool :=
  k.frame.isNp && (match k.ing with
    | .mover _ | .mgmt | .sec => !s.ownLink f k.frame
    | _ => true)

/-- The BARs of the device with FEID `n` are being sized for a face: every other request to it is held (R721). -/
def State.sizingDevice (s : State) (n : Nat) : Bool :=
  s.ivs.any fun e => e.1 % 512 == Var.sizing.ctorIdx &&
    s.rd (.face (e.1 / 512 / 256)) .FACE_PRES_FEID (e.1 / 512 % 256) == n

/-- What a frame needs beside its place: partner credits, link and tags. -/
def State.sendable (s : State) (p : Nat) (fc : BitVec 3) (k : Pkt) : Bool :=
  if s.isFab p then
    credits k.frame.len ≤ s.partnerCredits p (if k.pool == poolCTL then 0 else k.frame.cls) k.pool
  else fc.getLsbD k.pool &&
    (if s.role p == roleDOWN then
       (!k.frame.isNp || (match k.frame.body with
         | .tlp t => (s.etags p).length + (s.subReads p t).length ≤ 4096
         | _ => true)) &&
       !s.sizingDevice k.frame.dest &&
       (k.frame.isCpl || !s.on (.bridge 1) .BRIDGE_LOCK_STAT_LOCKED p || s.rd (.bridge 1) .BRIDGE_LOCK_STAT_HOLDER p == k.frame.src)
     else match s.faceOf p with
       | none => false
       | some f => (k.frame.isCpl || !s.ivOn .pmeOff f) && (!s.takesReqTag f k || (s.freeTag? f true true).isSome))

/-- The candidates at port `p` (R460): at the head of their flow under Table CORE-6, with their tail where their start rule
asks for it (R314, R315), in stream order at a FAB egress (R544), and with what they need. A suspended instance has none
(R466). -/
def State.candidates (s : State) (p : Nat) (fc : BitVec 3) : List Pkt :=
  (s.buf.filter fun k => (k.waitsFor p).isSome).filter fun k =>
    let before := (s.buf.takeWhile fun e => e.id != k.id).filter fun e => (e.waitsFor p).isSome
    k.pool != poolCTL && (k.tailIn || k.copies.any fun c => c.dst == .port p && c.ct)
      && (match k.vi with
        | some v => s.on (.inst 1) .INST_SHARE_SHARE v
        | none => true)
      && before.all (fun e => e.flow != k.flow || e.frame.cls != k.frame.cls || k.mayPass e (s.isFab p))
      && (!s.isFab p || !k.frame.retain ||
          before.all fun e => !e.frame.retain || e.frame.ingSw != k.frame.ingSw || e.frame.stream != k.frame.stream)
      && s.sendable p fc k

/-- The frame would end before the next closing of its class (step 1 of R461). At a FAB port it is the length of the Daend frame
that counts, also of a TLP that is wrapped here (DEDUCED, log entry 215). -/
def State.fitsGate (s : State) (p : Nat) (k : Pkt) : Bool :=
  match s.nextClose p k.frame.cls with
  | none => true
  | some t => s.fits p (if s.isFab p then k.frame.len else s.stored k.ing k.frame) (t - s.now)

/-- Step 1 of R461, with the exception of R487. -/
def State.throughGate (s : State) (p : Nat) (k : Pkt) : Bool :=
  (s.gates p).testBit k.frame.cls && (s.fitsGate p k || s.ivOn .guardOpen (128 * k.id + p))

/-- Step 2 of R461. -/
def State.throughShaper (s : State) (p : Nat) (k : Pkt) : Bool :=
  !s.shaping p k.frame.cls || 0 ≤ s.shaperCredit p k.frame.cls

/-! ### Multicast hold (R344, R345) -/

/-- The hold timer of a multicast copy toward member port `p` runs: the copy is at the head of its flow in its class, its gate is
open, and it cannot start for want of partner credits, or because the link is not up, or because a Rest exit is in progress. -/
def State.holdRuns (s : State) (p : Nat) (k : Pkt) : Bool :=
  let before := (s.buf.takeWhile fun e => e.id != k.id).filter fun e => (e.waitsFor p).isSome
  k.frame.mc && (k.waitsFor p).isSome &&
    before.all (fun e => e.flow != k.flow || e.frame.cls != k.frame.cls || k.mayPass e (s.isFab p)) &&
    (s.gates p).testBit k.frame.cls && (s.lacksCredits p k || !s.carries p || s.link p == lsREST)

/-- Fabric time goes on to `t`: the hold timers that run count what has passed. -/
def timeTo (t : Nat) : Upd := look fun s =>
  all [forEach (s.buf.filter fun k => k.frame.mc) fun k => forEach k.copies fun c => (match c.dst with
         | .port p => when_ (s.holdRuns p k) (put .holdCount (s.iv .holdCount (128 * k.id + p) + (t - s.now)) (128 * k.id + p))
         | .self => skip),
       setNow t]

/-- HOLD_US, in ns. -/
def State.holdLimit (s : State) : Nat := 1000 * max 1 (s.rd (.core 0) .CORE_MC_CTRL_HOLD_US)

/-- MC_HOLD_EXPIRY (R345): a hold timer that runs has reached HOLD_US, and the member loses its copy. What the timer has left to
count has passed (log entry 2). -/
def execMcHoldExpiry (id : Nat) (p : PortId) : State → Answer := Upd.answer <| look fun s =>
  forSome (s.buf.find? fun k => k.id == id && s.holdRuns p k) fun k =>
    all [timeTo (s.now + (s.holdLimit - s.iv .holdCount (128 * id + p))), put .holdCount 0 (128 * id + p),
         modBuf fun b => (b.map fun j => if j.id == id then j.without (.port p) else j).filter fun j => !j.copies.isEmpty,
         bump (.core 0) 3072, coreWatch,
         if k.lossy then raise (.core 0) .CORE_MC_PARTIAL_LOSSY else raiseIn (.core 0) .CORE_MC_PARTIAL (s.portDom p)]

/-! ### Deficit round robin (R463 to R465) -/

/-- The member after `m` in rising order, going round. -/
def afterMember (ms : List Nat) (m : Nat) : Nat := ((ms.find? fun j => m < j).orElse fun _ => ms.head?).getD m

/-- Turns from the member after `m`: each adds its quantum, the counter first cut to a quantum that has changed, until one
counter reaches its frame's size. Counters are (deficit, quantum of the last turn). -/
def turns (ms : List Nat) (size quantum : Nat → Nat) : Nat → Nat → Map (Nat × Nat) → Nat × Map (Nat × Nat)
  | 0, m, d => (m, d)
  | n + 1, m, d =>
    let j := afterMember ms m
    let e := Map.get d j (0, 0)
    let v := (if e.2 == quantum j then e.1 else min e.1 (quantum j)) + quantum j
    let d1 := Map.put d j (v, quantum j)
    if size j ≤ v then (j, d1) else turns ms size quantum n j d1

/-- The place of a round robin: none, `2m + 1` while m's turn lasts, `2m + 2` when it is over. -/
def placeMember (v : Nat) : Nat := (v - 1) / 2
def placeLasts (v : Nat) : Bool := v % 2 == 1

/-- The member chosen, with the counters: the one whose turn lasts, while its counter reaches its frame; else the next. -/
def choose (ms : List Nat) (size quantum : Nat → Nat) (place : Nat) (d : Map (Nat × Nat)) : Nat × Map (Nat × Nat) :=
  let m := placeMember place
  if placeLasts place && ms.contains m && size m ≤ (Map.get d m (0, 0)).1 then (m, d)
  else turns ms size quantum (160 * (ms.length + 1)) (if place == 0 then ms.getLast?.getD 0 else m) d

/-- A quantum of 64-byte units; 0 acts as 1. -/
def quantumOf (n : Nat) : Nat := 64 * max 1 n

/-- What a selection found: the frame, and the counters and places it leaves. -/
structure Pick where
  pkt : Pkt
  cls : Nat
  classes : Map (Nat × Nat)
  flow : Nat
  flows : Map (Nat × Nat)

/-- The flow chosen in class `c` among candidates `ks`, and its counters (R464). -/
def State.pickFlow (s : State) (p c : Nat) (ks : List Pkt) : Nat × Map (Nat × Nat) :=
  let ms := (allBelow 2048 fun m => ks.any fun k => k.flow == m)
  let size := fun m => ((ks.find? fun k => k.flow == m).map fun k => s.stored k.ing k.frame).getD 0
  let quantum := fun m => if m < 256 then quantumOf (s.rd (.sched p) .SCHED_PORT_CFG_FLOW_QUANTUM)
    else quantumOf (s.rd (.inst 1) .INST_SHARE_SHARE (m - 256))
  let at_ := 2048 * (8 * p + c)
  choose ms size quantum (s.iv .flowCur (8 * p + c)) (ms.map fun m => (m, (s.iv .flowDef (at_ + m), s.iv .flowQuant (at_ + m))))

/-- EGRESS_SELECTION (R461): of the candidates that pass gate and shaper, the classes of highest priority, one of them by round
robin, one of its flows by round robin, and that flow's oldest candidate. -/
def State.select (s : State) (p : Nat) (fc : BitVec 3) : Option Pick :=
  let ks := (s.candidates p fc).filter fun k => s.throughGate p k && s.throughShaper p k
  let prio := fun c => s.rd (.sched p) .SCHED_DRR_QUANTUM_PRIO c
  let has := allBelow 8 fun c => ks.any fun k => k.frame.cls == c
  let top := has.filter fun c => has.all fun d => prio d ≤ prio c
  let inClass := fun c => ks.filter fun k => k.frame.cls == c
  let frameOf := fun c => (inClass c).find? fun k => k.flow == (s.pickFlow p c (inClass c)).1
  let size := fun c => ((frameOf c).map fun k => s.stored k.ing k.frame).getD 0
  let r := choose top size (fun c => quantumOf (s.rd (.sched p) .SCHED_DRR_QUANTUM_QUANTUM c)) (s.iv .drrCur p)
    (top.map fun c => (c, (s.iv .drrDef (8 * p + c), s.iv .drrQuant (8 * p + c))))
  if top.isEmpty then none
  else (frameOf r.1).map fun k =>
    let w := s.pickFlow p r.1 (inClass r.1)
    ⟨k, r.1, r.2, w.1, w.2⟩

/-- The counters after a frame of `n` bytes of the chosen class and flow has started. -/
def chargeTurns (p n : Nat) (x : Pick) : Upd :=
  let at_ := 2048 * (8 * p + x.cls)
  all [forEach x.classes fun (c, d, q) => all [put .drrDef (if c == x.cls then d - n else d) (8 * p + c), put .drrQuant q (8 * p + c)],
       put .drrCur (2 * x.cls + 1) p,
       forEach x.flows fun (m, d, q) => all [put .flowDef (if m == x.flow then d - n else d) (at_ + m), put .flowQuant q (at_ + m)],
       put .flowCur (2 * x.flow + 1) (8 * p + x.cls)]

/-- At a boundary, a class or flow with no frames queued has a counter of 0, and a turn whose class or flow has no candidate is
over. -/
def settleTurns (p : Nat) (ks : List Pkt) : Upd := look fun s =>
  let queued := fun c m => s.buf.any fun k => (k.waitsFor p).isSome && k.frame.cls == c && k.flow == m
  let ended := fun (v : Nat) (live : Bool) => if placeLasts v && !live then v + 1 else v
  all [clearIv .drrDef fun i => i / 8 == p && !s.buf.any fun k => (k.waitsFor p).isSome && k.frame.cls == i % 8,
       clearIv .flowDef fun i => i / 16384 == p && !queued (i / 2048 % 8) (i % 2048),
       put .drrCur (ended (s.iv .drrCur p) (ks.any fun k => k.frame.cls == placeMember (s.iv .drrCur p))) p,
       forBelow 8 fun c => put .flowCur (ended (s.iv .flowCur (8 * p + c)) (ks.any fun k => k.frame.cls == c &&
         k.flow == placeMember (s.iv .flowCur (8 * p + c)))) (8 * p + c)]

/-! ### Sequenced frames on a FAB port (R226, R232, R248 to R251) -/

/-- The configured lanes' replay buffer, in bytes. -/
def State.replaySize (s : State) (p : Nat) : Nat := 16384 * 2 ^ s.rd (.port p) .PORT_CFG_WIDTH

/-- A new sequenced frame of `n` bytes may start (R232, R233, R251). -/
def State.mayStart (s : State) (p n : Nat) : Bool :=
  let l := s.replayOf p
  s.iv .replayAt p == 0 && l.length < 2048 && ((l.map fun t => t.frame.len).sum + n ≤ s.replaySize p)
    && (!s.on (.port p) .PORT_LINK_STAT_ENC || s.iv .txNum p < 2 ^ 48)

/-- A new key comes into force at a frame boundary: KEY_PHASE changes and NUM starts at 0 (R250). The old key stays until no frame
under it is unacknowledged; until the one before it is released no other takes its place. -/
def changeKey (p : Nat) : Upd := look fun s =>
  when_ (s.ivOn .nextKey p && !s.ivOn .keyOld p) <|
    all [put .keyOld (s.iv .txKey (2 * p + s.rd (.port p) .PORT_LINK_STAT_KEY_PHASE)) p,
         wr (.port p) .PORT_LINK_STAT_KEY_PHASE (1 - s.rd (.port p) .PORT_LINK_STAT_KEY_PHASE),
         put .txNum 0 p, put .nextKey 0 p]

/-- The key and IV of a frame that port `p` sends under KEY_PHASE `phase` with NUM `num`: the IV is the link salt, then NUM
(R248). -/
def State.txSeal (s : State) (p phase num : Nat) : BitVec 256 × BitVec 96 :=
  let n := s.iv .txKey (2 * p + phase) - 1
  (Config.linkKey p n true, Config.linkSalt p n true ++ BitVec.ofNat 64 num)

/-- A frame's blocks go out on the link of port `p` (R226, R248). -/
def linkFrame (p seq : Nat) (noSeq enc : Bool) (phase pool num : Nat) (f : Frame) : Upd := look fun s =>
  let start := startBlk seq enc (phase == 1) noSeq f.cls pool f.len
  all [emit (.linkOut p seq noSeq enc phase pool num f),
       linkSend p (frameBlks start (f.blocks (if enc then some (s.txSeal p phase num) else none) start))]

/-- A frame is sequenced and sent: it takes SEQ and NUM, credits, and a place in the replay buffer. -/
def sendSequenced (p pool : Nat) (f : Frame) : Upd := look fun s =>
  let enc := s.on (.port p) .PORT_LINK_STAT_ENC
  let i := crIdx p (if pool == poolCTL then 0 else f.cls) pool
  let t : TxFrame := ⟨s.iv .txSeq p, s.iv .txNum p, enc, s.rd (.port p) .PORT_LINK_STAT_KEY_PHASE, pool, f⟩
  all [linkFrame p t.seq false enc t.phase pool t.num f, putReplay p (s.replayOf p ++ [t]),
       put .txSeq ((t.seq + 1) % 4096) p, put .txNum (t.num + 1) p, put .txCount (min 2048 (s.iv .txCount p + 1)) p,
       put .txUsed ((s.iv .txUsed i + credits f.len) % 2 ^ 24) i, bump (.port p) 2, addCnt (.port p) 3 f.len]

/-! ### TLPs on PCI Express ports (R33, R547 to R549, R608) -/

/-- One sub-read or other non-posted request goes out on DOWN port `p` under the lowest free egress tag, and under a requester
ID that brings its completion back to the port (R33; the ID is a free value, log entry 182). -/
def sendSub (p grp : Nat) (f : Frame) (t : Tlp) (piece rest : Nat) : Upd := look fun s =>
  forSome (firstBelow 4096 fun e => !(s.etags p).contains e) fun e =>
    let w : Fwd := ⟨p, e, grp, piece, rest, f.dest, f.src, f.tag, f.tagEp, [], false, false⟩
    all [modFwd (· ++ [w]), tlpSend p none (f.withTlp { t with tag := BitVec.ofNat 14 e, rid := Config.edgeRid p })]

/-- A frame leaves toward the device below DOWN port `p`. A locked read that would have to be cut is refused (R547). -/
def sendDown (p grp : Nat) (f : Frame) : Upd := look fun s =>
  match f.body with
  | .tlp t =>
    let subs := s.subReads p t
    if t.nonPosted then
      if t.locked && subs.length != 1 then all [raise (.bridge 0) .BRIDGE_CUT_UR, answerNp f .ur]
      else
        let numbered := subs.zipIdx
        all [when_ (subs.length != 1) (bump (.bridge 0) 4),
             forEach numbered fun ((a, n), i) =>
               sendSub p grp f { t with addr := BitVec.ofNat 64 a, len := n } i (((subs.drop (i + 1)).map (·.2)).sum)]
    else if t.kind == .memWr then
      let ps := cuts (sizeOf (s.rd (.bridge 1) .BRIDGE_PORT_LIMIT_MPS p)) t.addr.toNat t.len
      all [when_ (ps.length != 1) (bump (.bridge 0) 3),
           forEach ps fun (a, n) => tlpSend p none (f.withTlp (writePart t a n))]
    else tlpSend p none f
  | _ => tlpSend p none f

/-- A frame leaves toward the host of face `f` on UP port `p`: a completion goes to its ADMIT slot, a request from elsewhere
takes a REQ slot, and writes are cut at the host's Max_Payload_Size (R31, R286, R548). -/
def sendUp (p f : Nat) (k : Pkt) : Upd := look fun s =>
  let size := sizeOf (s.iv .uspMps f)
  let pasid := (k.vi.filter fun v => s.viFace v == f).map fun v => s.rd (.inst 3) .INST_VI_CFG_CFG0_PASID v
  match k.frame.body with
  | .tlp t =>
    if t.kind == .cpl then
      forEach (cplCuts size t.low.toNat (t.len / 64 + 1) 0 t.len) fun (off, n) =>
        faceCompletes f (s.poolFor f k.frame.tag k.frame.tagEp k.frame.src) false k.frame.tag k.frame.tagEp (cplPart t off n)
    else if s.takesReqTag f k then
      forSome (s.freeTag? f true true) fun g =>
        all [takeSlot ⟨f, true, g, slBUSY, .device k.frame.src, false, t.rid.toNat, t.tag.toNat, k.frame.tag, k.frame.tagEp,
               k.frame.dest, true, 0, false⟩,
             bump (.face f) 2, tlpSend p pasid (k.frame.withTlp { t with tag := BitVec.ofNat 14 g })]
    else if t.kind == .memWr then
      let ps := cuts size t.addr.toNat t.len
      all [bump (.face f) 2, when_ (ps.length != 1) (bump (.bridge 0) 3),
           forEach ps fun (a, n) => tlpSend p pasid (k.frame.withTlp (writePart t a n))]
    else all [bump (.face f) 2, tlpSend p pasid k.frame]
  | _ => tlpSend p pasid k.frame

/-- A completion arrives from the device below DOWN port `p` (R33, R549): those of a cut read return in rising order of their
sub-reads; the first that fails ends the read. `src` and the requester come from the egress tag. -/
def returnSub (w : Fwd) (t : Tlp) : Upd := look fun s =>
  let u := { t with addr := BitVec.ofNat 64 (if t.stat == .sc then t.addr.toNat + w.rest else 0), tag := BitVec.ofNat 14 w.rtag }
  deliver (.port w.port) (s.cplFrame w.dest w.src w.rtag w.rep u) none true

/-- Hand on what the lowest sub-read of a group has received, and go on to the next while it is complete. -/
def flushGroup (p grp : Nat) : Nat → Upd
  | 0 => skip
  | n + 1 => look fun s =>
    match s.fwd.find? fun w => w.port == p && w.grp == grp && !w.dead with
    | none => skip
    | some w =>
      let mine := fun (x : Fwd) => x.port == p && x.etag == w.etag
      let bad := w.held.any fun t => t.stat != .sc
      all [forEach w.held (returnSub w),
           if bad then modFwd fun l => (l.filter fun x => !mine x).map fun x => if x.port == p && x.grp == grp then { x with dead := true } else x
           else if w.done then all [modFwd fun l => l.filter fun x => !mine x, flushGroup p grp n]
           else modFwd fun l => l.map fun x => if mine x then { x with held := [] } else x]

/-- A completion with egress tag `e` on DOWN port `p`; one that matches no request is discarded. -/
def downCompletes (p e : Nat) (t : Tlp) : Upd := look fun s =>
  forSome (s.fwd.find? fun w => w.port == p && w.etag == e) fun w =>
    if w.dead then modFwd fun l => if t.final then l.filter fun x => !(x.port == p && x.etag == e) else l
    else all [modFwd fun l => l.map fun x => if x.port == p && x.etag == e then { x with held := x.held ++ [t], done := t.final } else x,
              flushGroup p w.grp (s.fwd.length + 1)]

/-! ### A frame boundary (R241) -/

/-- The copy that was leaving port `p` has left: its cells are freed with the last copy (R323). -/
def finishCopy (p : Nat) : Upd :=
  all [modBuf fun b => (b.map fun k => { k with copies := k.copies.filter fun c => !(c.dst == .port p && c.started) }).filter
         fun k => !k.copies.isEmpty,
       coreWatch]

/-- The frame in progress at port `p` has its tail. -/
def State.atBoundary (s : State) (p : Nat) : Bool :=
  s.buf.all fun k => k.tailIn || k.copies.all fun c => !(c.dst == .port p && c.started)

/-- Start a frame at port `p` (step 9 of Table CORE-1): its copy is in progress until the next boundary. -/
def startCopy (p : Nat) (k : Pkt) : Upd := look fun s =>
  let n := s.stored k.ing k.frame
  let through := !k.tailIn
  let guard := s.ivOn .guardOpen (128 * k.id + p) && !s.fitsGate p k
  all [modBuf fun b => b.map fun j => if j.id == k.id then
         { j with left := true, copies := j.copies.map fun c => if c.dst == .port p then { c with started := true } else c } else j,
       bump (.core 0) (if through then 3073 else 3074),
       bump (.sched p) k.frame.cls, addCnt (.sched p) (8 + k.frame.cls) n,
       when_ guard (all [raise (.sched p) .SCHED_GUARD_OVERRUN, bump (.sched p) 35]),
       put .guardMiss 0 (128 * k.id + p), put .guardOpen 0 (128 * k.id + p),
       put .holdCount 0 (128 * k.id + p), sampleAt p 1 k n]

/-! ### Power states of PCI Express links (R216, R217) -/

/-- FACE_PM_STAT.LINK_PM follows the link of an UP port. -/
def linkPm (p : Nat) : Upd := look fun s =>
  when_ (s.role p == roleUP) <| forSome (s.faceOf p) fun f => wr (.face f) .FACE_PM_STAT_LINK_PM (s.link p - lsL0)

/-- The virtual bridge above entry `n` of a face's presentation table, whose Link Control speaks for the DOWN port (Table
FACE-2). -/
def State.bridgeAbove (s : State) (f n : Nat) : Nat :=
  let vdp := s.rd (.face f) .FACE_PRES_VDP n
  let sub := s.rd (.face f) .FACE_PRES_SUB n
  if sub == 0 then 1 + vdp else 128 + 32 * vdp + (sub - 1)

/-- The ASPM states that Link Control enables for port `p`: of an UP port that of the switch upstream port, of a DOWN port what
every face enables that shows its device (bit 0 L0s, bit 1 L1). That all of them must is a DESIGN CHOICE (log entry 180). -/
def State.aspmOf (s : State) (p : Nat) : Nat :=
  if s.role p == roleUP then (match s.faceOf p with
    | some f => s.iv .aspm (4096 * f)
    | none => 0)
  else
    let shown := (List.range 32).flatMap fun f => ((allBelow 255 fun n => s.on (.face f) .FACE_PRES_SHOWN n &&
      (s.idRoute? s.live (s.rd (.face f) .FACE_PRES_FEID n)).any fun r => r.isLocal && r.port == p).map fun n =>
        s.iv .aspm (4096 * f + s.bridgeAbove f n))
    if shown.isEmpty then 0 else shown.foldl (· &&& ·) 3

/-- A PCI Express port in L0 with nothing to send enters L0s, outside Flit Mode, or L1 with its substates when a ball serves as
CLKREQ#, as Link Control and the partner allow (R217, Table PORT-3). When an idle link does so is the cited standard's; the
model takes the first idle frame boundary (DESIGN CHOICE, log entry 180). -/
def aspmEnter (p : Nat) : Upd := look fun s =>
  when_ (s.ivOn .partnerAspm p && s.link p == lsL0 && s.iv .pcieSent p == s.iv .pcieAcked p) <|
    let may := s.aspmOf p &&& s.iv .partnerAspm p
    all [if may.testBit 0 && !s.on (.port p) .PORT_LINK_STAT_FLIT then wr (.port p) .PORT_LINK_STAT_STATE 0x06
         else when_ (may.testBit 1) (wr (.port p) .PORT_LINK_STAT_STATE (if s.clkreq? p |>.isSome then 0x07 + Config.l1Substate p else 0x07)),
         linkPm p]

/-- The requests of presented devices that wait at the UP port of face `f` while the USP's Bus Master Enable is clear are refused
before they leave (R293): non-posted ones with Unsupported Request. -/
def dropMasterOff (p f : Nat) : Upd := look fun s =>
  let hit := fun (k : Pkt) => (k.waitsFor p).isSome && s.masterOff f k.frame
  all [modBuf fun b => (b.map fun k => if hit k then k.without (.port p) else k).filter fun k => !k.copies.isEmpty,
       forEach (s.buf.filter hit) fun k => when_ k.frame.isNp (answerNp k.frame .ur)]

/-- A frame selected by SCHED leaves port `p`. -/
def sendPkt (p : Nat) (k : Pkt) : Upd := look fun s =>
  let transit := k.ing != .fabric && s.fromFab k.ing
  all [startCopy p k,
       if s.isFab p then sendSequenced p k.pool { k.frame with hops := if transit then k.frame.hops - 1 else k.frame.hops }
       else all [wr (.port p) .PORT_LINK_STAT_STATE lsL0, linkPm p, bump (.port p) 2,
                 addCnt (.port p) 3 (s.stored k.ing k.frame - 32),
                 if s.role p == roleDOWN then sendDown p k.id k.frame else forSome (s.faceOf p) fun f => sendUp p f k]]

/-- A due cycle marker: NOSEQ, the low bits of the marker count, CTL credits, never replayed (R242). The payload is
Table CYCLE-4 as it stands now. -/
def sendMarker (p : Nat) (m : Marker) : Upd := look fun s =>
  let i := crIdx p 0 poolCTL
  let f := (s.inner 0 7 4 64 (.marker m)).sealed
  let n := s.iv .mkTx p
  all [linkFrame p (n % 4096) true (s.on (.port p) .PORT_LINK_STAT_ENC) (s.rd (.port p) .PORT_LINK_STAT_KEY_PHASE) poolCTL
         (2 ^ 63 + n) f,
       put .mkTx (n + 1) p, put .mkDue 0 p, put .txUsed ((s.iv .txUsed i + credits f.len) % 2 ^ 24) i, bump .schedg 2,
       bump (.port p) 2, addCnt (.port p) 3 f.len]

/-- The fields of Table CYCLE-4 that port `p` sends now (R445, R450). -/
def State.marker (s : State) (p : Nat) : Marker :=
  let ahead := s.iv .cycNext != 0
  let further := ahead && s.iv .cycNext2 != 0
  { state := s.tracker, echoValid := s.iv .mkEchoT1 p != 0, boundsValid := s.on .schedg .SCHED_CYC_STAT_EVER_LOCKED,
    stratum := s.rd .schedg .SCHED_CYC_STAT_STRATUM, masterId := s.rd .schedg .SCHED_MK_CFG_MASTER_ID, tTx := s.now,
    cycle := (s.cycleNum + b2n ahead + b2n further) % 2 ^ 48,
    boundary := s.iv .cycStart + (if ahead then s.cycLen else 0) + (if further then s.iv .cycNext else 0),
    len := if further then s.iv .cycNext2 else if ahead then s.iv .cycNext else s.cycLen,
    echoT1 := s.iv .mkEchoT1 p - 1, echoT2 := s.iv .mkEchoT2 p }

/-- A FAB port sends frames that are not new ones of CORE: in PROVISIONAL and later, but not in Rest, a width change or
CONTAINED. -/
def State.linkTalks (s : State) (p : Nat) : Bool :=
  s.isFab p && (s.link p == lsPROVISIONAL || s.link p == lsUP || s.link p == lsRETIRING)

/-- Starts that the guard defers at this boundary are counted, one for each class (counter k = 2 of R492). -/
def countDeferred (p : Nat) (ks : List Pkt) : Upd := look fun s =>
  forEach (allBelow 8 fun c => (s.gates p).testBit c && ks.any fun k => k.frame.cls == c && !s.throughGate p k) fun c =>
    bump (.sched p) (16 + c)

/-- EGRESS_FRAME_BOUNDARY: the frame in progress has left; then, in order, a due marker, a replay in progress, a frame of the
CTL pool, or the frame that SCHED selects. On a port in PROVISIONAL only management frames are selected. -/
def execEgressFrameBoundary (p : PortId) (fc : BitVec 3) : State → Answer := Upd.answer <| look fun s =>
  when_ (s.atBoundary p) <|
    all [shaperAdvance p, finishCopy p, when_ (!s.isFab p) (put .pcieFc (fc.toNat + 1) p),
         when_ (s.role p == roleUP) (forSome (s.faceOf p) (dropMasterOff p)), look fun s1 =>
      let l := s1.replayOf p
      let at_ := s1.iv .replayAt p
      let ctlPkt := s1.buf.find? fun k => k.pool == poolCTL && (k.waitsFor p).isSome && k.tailIn && s1.sendable p fc k
      let ks := s1.candidates p fc
      if s1.linkTalks p && s1.ivOn .mkDue p && s1.on (.port p) .PORT_CFG_CYC_TX && 2 ≤ s1.partnerCredits p 0 poolCTL then
        sendMarker p (s1.marker p)
      else if s1.linkTalks p && at_ != 0 then
        forSome (l[at_ - 1]?) fun t =>
          all [linkFrame p t.seq false t.enc t.phase t.pool t.num t.frame, put .replayAt (if at_ < l.length then at_ + 1 else 0) p]
      else if s1.isFab p && (!s1.linkTalks p) then skip
      else
        all [changeKey p,
          match ctlPkt with
          | some k => if s1.isFab p then when_ (s1.mayStart p k.frame.len) (all [startCopy p k, sendSequenced p k.pool k.frame])
                      else skip
          | none =>
            when_ (s1.carries p) <|
              all [settleTurns p ks, countDeferred p ks, look fun s2 =>
                match s2.select p fc with
                | none => when_ (!s2.isFab p) (aspmEnter p)
                | some x =>
                  when_ (!s2.isFab p || (s2.mayStart p x.pkt.frame.len && (s2.link p != lsPROVISIONAL || x.pkt.frame.typ == 3))) <|
                    all [chargeTurns p (s2.stored x.pkt.ing x.pkt.frame) x, sendPkt p x.pkt]]]]

/-! ### Gates (R476, R486 to R488) -/

/-- What a change of the gate state of port `p` from `old` does: frames in progress overrun a closing (R486), and an opening at
which a waiting frame does not fit brings R487 nearer. -/
def gateChange (p old : Nat) : Upd := look fun s =>
  let new := s.gates p
  let opened := fun c => new.testBit c && !old.testBit c
  let closed := fun c => old.testBit c && !new.testBit c
  all [forEach (s.buf.filter fun k => closed k.frame.cls && k.copies.any fun c => c.dst == .port p && c.started) fun _ => bump (.sched p) 35,
       forEach (s.buf.filter fun k => opened k.frame.cls && (k.waitsFor p).isSome && k.pool != poolCTL) fun k =>
         let i := 128 * k.id + p
         if 2 ≤ s.iv .guardMiss i then put .guardOpen 1 i
         else if s.fitsGate p k then put .guardMiss 0 i
         else put .guardMiss (s.iv .guardMiss i + 1) i]

/-- HATCH_ENTRY (R476): the next entry of the active list takes effect, at its own time. -/
def execHatchEntry (p : PortId) : State → Answer := Upd.answer <| look fun s =>
  forSome (s.hatchActive p) fun l =>
    let k := s.rd (.sched p) .SCHED_HATCH_STAT_ENTRY_NOW + 1
    when_ (k < s.hatchCount p l && s.inCycle) <|
      all [timeTo (max s.now (s.hatchTime p l k (s.iv .cycStart) s.cycLen)), shaperAdvance p,
           wr (.sched p) .SCHED_HATCH_STAT_ENTRY_NOW k, gateChange p (s.gates p)]

/-! ### The arm register (R18, R482) -/

/-- The list that a write of `v` to SCHED_HATCH_CTRL arms: the one that is not ACTIVE, or with none ACTIVE the one ARM_LIST
names. -/
def State.armList (s : State) (p v : Nat) : Nat :=
  match s.hatchActive p with
  | some a => 1 - a
  | none => v % 2

/-- A write of `v` to SCHED_HATCH_CTRL. An arm of a list that is not verified is judged first, and changes STATUS alone (R18);
otherwise the RW fields are stored, then DISARM acts, then ARM for the cycle that SCHED_HATCH_CYCLE names now, or NEXT. That ARM
wins over NEXT, and that the cycle is taken at this write, is a DESIGN CHOICE (log entry 184). -/
def hatchCtrlWrite (st : Stamp) (p v : Nat) : Upd := look fun s =>
  let arms := v.testBit 31 || v.testBit 29
  if arms && !s.on (.sched p) (hatchVerFld (s.armList p v)) then wr (.sched p) .SCHED_HATCH_CTRL_STATUS hsREFUSED_UNVERIFIED
  else
    all [shaperAdvance p, plainWrite st (.sched p) 0x200 v, gateChange p (s.gates p),
         when_ (v.testBit 30) <| look fun s => when_ (s.hatchPending p).isSome <|
           all [hatchUnpend p, wr (.sched p) .SCHED_HATCH_CTRL_STATUS hsDISARMED],
         when_ arms <| look fun s =>
           hatchArmFor p (s.armList p v) (if v.testBit 31 then
             some (s.rd (.sched p) .SCHED_HATCH_CYCLE_CYCLE + s.rd (.sched p) .SCHED_HATCH_CYCLE_CYCLE_HI <<< 32) else none)]

/-- HATCH_ARM. -/
def execHatchArm (st : Stamp) (p : PortId) (v : Word) : State → Answer := Upd.answer <|
  granted st (.sched p) 0x200 (hatchCtrlWrite st p v.toNat)

/-- HATCH_ARM_NEXT. -/
def execHatchArmNext (st : Stamp) (p : PortId) (v : Word) : State → Answer := Upd.answer <|
  granted st (.sched p) 0x200 (hatchCtrlWrite st p v.toNat)

/-- HATCH_DISARM. -/
def execHatchDisarm (st : Stamp) (p : PortId) (v : Word) : State → Answer := Upd.answer <|
  granted st (.sched p) 0x200 (hatchCtrlWrite st p v.toNat)

/-! ### Rest entry (R245) -/

/-- Nothing is ready to send on port `p` (R245): no marker is due, no replay runs, no ACK waits, and no frame waits whose gate is
open and that has its credits. -/
def State.nothingReady (s : State) (p : Nat) : Bool :=
  !s.ivOn .mkDue p && !s.ivOn .replayAt p && !s.ivOn .rxUnacked p &&
    !s.buf.any fun k => k.copies.any fun c => c.dst == .port p &&
      (c.started || ((k.pool == poolCTL || (s.gates p).testBit k.frame.cls) && !s.lacksCredits p k))

/-- REST_IDLE_EXPIRY (R189, R245): the transmit direction enters Rest on all lanes of the set, with a REST block on each. -/
def execRestIdleExpiry (p : PortId) : State → Answer := Upd.answer <| look fun s =>
  when_ (s.isFab p && s.link p == lsUP && s.on (.port p) .PORT_LINK_CTRL_REST_EN && s.ivOn .partnerRest p && s.nothingReady p &&
      (s.portLanes p).all fun l => s.ln l .LANE_REST_CTRL_REST_EN == 1) <|
    all [emit (.restBlock p), onEveryLane p blkREST, wr (.port p) .PORT_LINK_STAT_STATE lsREST, put .restSince (s.now + 1) p,
         bump (.port p) 11,
         forEach (s.portLanes p) fun l => when_ (s.laneState l == laneACTIVE) <|
           all [wln l .LANE_STAT_STATE laneREST, wln l .LANE_REST_CTRL_IN_REST 1, laneCnt l 6 1]]

/-- GATE_WAKE_LEAD (R488): a port in Rest at which a frame waits only for a closed gate is woken. -/
def execGateWakeLead (p : PortId) : State → Answer := Upd.answer <| look fun s =>
  when_ (s.buf.any fun k => (k.waitsFor p).isSome && !(s.gates p).testBit k.frame.cls && !s.lacksCredits p k) (restExit p)

end Sys2Proof.Machine
end

