-- ==== Sys2Proof/Machine/Cycle.lean ====
section
/-! DEFINITION. Control cycle and fabric time (spec/11): the phase tracker, its sources, cycle markers, CYC_OUT, PTM and
snapshots. The boundary itself, on which other blocks act too, stands in Turn.lean. -/

namespace Sys2Proof.Machine

/-! ### Lengths and windows (R436, R441 to R443) -/

/-- A committed length, clamped (R436). -/
def clampLen (n : Nat) : Nat := max 50000 (min 100000000 n)

/-- WINDOW, in 1/256 of a cycle. -/
def State.window (s : State) : Nat := max 1 (min 64 (s.rd .schedg .SCHED_CYC_CFG_WINDOW))

/-- SRC (Table CYCLE-1). -/
def State.fromRef (s : State) : Bool := s.rd .schedg .SCHED_CYC_CFG_SRC == 1
def State.follower (s : State) : Bool := s.rd .schedg .SCHED_CYC_CFG_SRC == 2
def State.freeSrc (s : State) : Bool := !s.fromRef && !s.follower

/-- The FREE period. -/
def State.nominal (s : State) : Nat := clampLen (s.rd .schedg .SCHED_CYC_PERIOD_NOMINAL)

/-- The length of a period P kept with 16 fractional bits. -/
def roundP (x : Nat) : Nat := (x + 32768) / 65536

/-- The residual e that the commit at the midpoint of the current cycle uses. -/
def State.residual (s : State) : Int := if s.iv .cycEdge == 1 then zag (s.iv .cycRes) else 0

/-- P after the integral step of R443. -/
def State.nextP (s : State) : Nat :=
  ((s.iv .cycP : Int) + s.residual * 65536 / (2 ^ s.rd .schedg .SCHED_CYC_CFG_KI : Nat)).toNat

/-- The length that R443 commits. -/
def State.nextLen (s : State) : Nat :=
  let p : Int := (s.nextP : Nat)
  let w : Int := (s.window * s.iv .cycPrev * 256 : Nat)
  let x := p + s.residual * 65536 / (2 ^ s.rd .schedg .SCHED_CYC_CFG_KP : Nat)
  clampLen (roundP (max (p - w) (min (p + w) x)).toNat)

/-- The transitional length (R444): up to the first predicted edge at least P/2 after the start of the next cycle. -/
def State.transitLen (s : State) : Nat :=
  let p := max 1 (roundP (s.iv .cycP))
  let b := s.iv .cycStart + s.cycLen
  let e4 := s.iv .acqAt - 1
  let least := b + (p + 1) / 2
  clampLen (e4 + ceilDiv (least - e4) p * p - b)

/-- How many periods after the grid point of `acqAt` the transitional cycle ends. -/
def State.transitTurns (s : State) : Nat :=
  ceilDiv (s.iv .cycStart + s.cycLen + (max 1 (roundP (s.iv .cycP)) + 1) / 2 - (s.iv .acqAt - 1)) (max 1 (roundP (s.iv .cycP)))

/-- The commit of the next cycle (R443, R444, R448): FREE takes NOMINAL; a follower that follows takes its source's commits
and makes none. -/
def commit : Upd := look fun s =>
  if s.tracker == ctFREE then put .cycNext s.nominal
  else if s.follower && (s.tracker == ctLOCKED || s.ivOn .asSource) then skip
  else if s.tracker == ctLOST then
    if s.ivOn .acqAt && !s.ivOn .relock then
      all [put .cycNext s.transitLen, put .relock 2, put .relockNum (1 + (s.iv .acqNum + s.transitTurns) % 2 ^ 48)]
    else put .cycNext (clampLen (roundP (s.iv .cycP)))
  else if s.tracker == ctLOCKED || s.tracker == ctHOLDOVER then all [put .cycNext s.nextLen, put .cycP s.nextP]
  else skip

/-- CYCLE_MIDPOINT: at B + L/2 the next cycle is committed. -/
def execCycleMidpoint : State → Answer := Upd.answer <| look fun s =>
  when_ (ctLOCKED ≤ s.tracker && s.iv .cycNext == 0) <|
    all [timeTo (max s.now (s.iv .cycStart + s.cycLen / 2)), commit]

/-! ### Losing and regaining the source (R444, R448) -/

/-- CYC_OUT is low when its MODE holds it low: in MODE 0b10 while the tracker is not locked or in holdover (R452, Table CYCLE-3). -/
def cycOutHold : Upd := look fun s =>
  let m := s.rd .schedg .SCHED_CYC_OUT_MODE
  when_ (s.ivOn .cycOut && !(m == 1 || (m == 2 && s.inCycle))) (all [put .cycOut 0, emit (.cycOut false)])

/-- The tracker's state changes; the gates of every port and CYC_OUT follow it (Table CYCLE-3). -/
def setTracker (st : Nat) : Upd := look fun s =>
  when_ (s.tracker != st) <|
    all [forEach (allBelow 96 fun p => s.role p != 0) shaperAdvance,
         wr .schedg .SCHED_CYC_STAT_STATE st,
         look fun t => when_ (!s.inCycle && t.inCycle) <| forBelow 96 fun p => forSome (t.hatchActive p) fun l =>
           wr (.sched p) .SCHED_HATCH_STAT_ENTRY_NOW (t.entryAt p l),
         forEach (allBelow 96 fun p => s.role p != 0) fun p => gateChange p (s.gates p), cycOutHold]

/-- What the acquisition holds is dropped. -/
def acquireAfresh : Upd :=
  all [put .edgeLast 0, put .edgeIv 0, put .edgeRun 0, put .acqAt 0, put .acqNum 0, put .mkRun 0, put .relock 0, put .relockNum 0]

/-- HOLDOVER_CYCLES. -/
def State.holdCycles (s : State) : Nat := max 1 (min 4096 (s.rd .schedg .SCHED_CYC_HOLD_CYCLES))

/-- Entry to holdover. -/
def enterHoldover : Upd := look fun s =>
  all [wr .schedg .SCHED_CYC_STAT_HOLD_LEFT s.holdCycles, put .errRun 0, put .asSource 0,
       when_ s.follower (put .cycP (65536 * s.iv .cycLast)),
       setTracker ctHOLDOVER, bump .schedg 5, raise .schedg .CYC_HOLDOVER]

/-- FALLBACK_ENTRY: the gates come under fallback on each port that is not OFF. -/
def enterFallback : Upd := look fun s =>
  forEach (allBelow 96 fun p => s.role p != 0) fun p => raise (.sched p) .SCHED_FALLBACK

/-- Entry to LOST. -/
def enterLost : Upd :=
  all [acquireAfresh, wr .schedg .SCHED_CYC_STAT_HOLD_LEFT 0, setTracker ctLOST, raise .schedg .CYC_CYCLE_LOST, enterFallback]

/-- The source is back within holdover. -/
def leaveHoldover : Upd :=
  all [wr .schedg .SCHED_CYC_STAT_HOLD_LEFT 0, put .errRun 0, setTracker ctLOCKED, bump .schedg 6]

/-- A boundary had no edge or used marker: holdover, and after HOLDOVER_CYCLES of them LOST. -/
def boundaryMissed : Upd :=
  all [put .cycEdge 2,
       look fun s => when_ (s.tracker == ctLOCKED) enterHoldover,
       look fun s =>
         let n := s.rd .schedg .SCHED_CYC_STAT_HOLD_LEFT - 1
         if n == 0 then enterLost else wr .schedg .SCHED_CYC_STAT_HOLD_LEFT n]

/-- EDGE_WINDOW_CLOSE. A follower that follows has no window; in holdover it waits for a used marker instead. -/
def execEdgeWindowClose : State → Answer := Upd.answer <| look fun s =>
  when_ (s.iv .cycEdge == 0 && !s.ivOn .asSource &&
      ((s.fromRef && s.tracker == ctLOCKED) || s.tracker == ctHOLDOVER)) boundaryMissed

/-! ### CYC_REF (R441, R442, R444) -/

/-- SCHED_REF_OFFSET.NS, signed. -/
def State.refOffset (s : State) : Int := (BitVec.ofNat 16 (s.rd .schedg .SCHED_REF_OFFSET_NS)).toInt

/-- An edge or marker that does not count. -/
def erraticEdge : Upd := all [bump .schedg 1, raise .schedg .CYC_ERRATIC]

/-- An edge at `t` begins a run. -/
def firstOfRun (t : Nat) : Upd := all [put .edgeLast (t + 1), put .edgeIv 0, put .edgeRun 1]

/-- R441: an edge at `t` in acquisition; `got` goes on after the fourth edge of a run, with the interval E4 − E3. -/
def acquireEdge (t : Nat) (got : Nat → Upd) : Upd := look fun s =>
  let iv := t + 1 - s.iv .edgeLast
  let old := s.iv .edgeIv
  let ok := 50000 ≤ iv && iv ≤ 100000000 &&
    (s.iv .edgeRun == 1 || (max iv old - min iv old) * 256 ≤ s.window * old)
  if s.iv .edgeRun == 0 then all [firstOfRun t, bump .schedg 0]
  else if !ok then all [erraticEdge, put .acqAt 0, firstOfRun t]
  else all [put .edgeLast (t + 1), put .edgeIv iv, put .edgeRun (min 4 (s.iv .edgeRun + 1)), bump .schedg 0,
            when_ (3 ≤ s.iv .edgeRun) (got iv)]

/-- The edge at `t` lies within ±W of boundary `b`, W from the length of the cycle that ends there (R442). -/
def State.inWindow (s : State) (t b len : Nat) : Bool := (max t b - min t b) * 256 ≤ s.window * len

/-- An edge at `t` of the boundary that is to come at `b`. -/
def edgeAhead (t b : Nat) : Upd := all [put .cycResNext (zig ((t : Int) - (b : Int))), put .cycEdgeNext 1, bump .schedg 0]

/-- CYC_REF_EDGE. -/
def execCycRefEdge (err : Fin 5) : State → Answer := Upd.answer <| look fun s =>
  let t := ((s.now : Int) + (err : Nat) - 2 + s.refOffset).toNat
  let next := s.iv .cycStart + s.cycLen
  when_ s.fromRef <|
    if s.tracker ≤ ctACQUIRE then
      if s.ivOn .cycFirst then
        (if s.iv .cycEdgeNext == 0 && s.inWindow t (s.iv .cycFirst - 1) (roundP (s.iv .cycP)) then edgeAhead t (s.iv .cycFirst - 1)
         else erraticEdge)
      else all [wr .schedg .SCHED_CYC_STAT_STATE ctACQUIRE,
                acquireEdge t fun iv => all [put .cycP (65536 * iv), put .cycFirst (t + iv + 1)]]
    else if s.tracker == ctLOCKED || s.tracker == ctHOLDOVER then
      if s.iv .cycEdge == 0 && s.inWindow t (s.iv .cycStart) (s.iv .cycPrev) then
        all [put .cycRes (zig ((t : Int) - (s.iv .cycStart : Int))), put .cycEdge 1, bump .schedg 0,
             when_ (s.tracker == ctHOLDOVER) leaveHoldover]
      else if s.iv .cycEdgeNext == 0 && s.inWindow t next s.cycLen then
        all [edgeAhead t next, when_ (s.tracker == ctHOLDOVER) leaveHoldover]
      else erraticEdge
    else when_ (s.tracker == ctLOST) <|
      if s.iv .relock == 1 && s.inWindow t next s.cycLen then when_ (s.iv .cycEdgeNext == 0) (edgeAhead t next)
      else acquireEdge t fun iv => when_ (!s.ivOn .relock) (all [put .cycP (65536 * iv), put .acqAt (t + 1)])

/-! ### Cycle markers (R242 to R244, R445 to R450) -/

/-- The port in use, and the other one. -/
def State.srcPort (s : State) : Nat :=
  if s.on .schedg .SCHED_CYC_STAT_ON_ALT then s.rd .schedg .SCHED_CYC_CFG_ALT_PORT else s.rd .schedg .SCHED_CYC_CFG_SRC_PORT
def State.otherPort (s : State) : Nat :=
  if s.on .schedg .SCHED_CYC_STAT_ON_ALT then s.rd .schedg .SCHED_CYC_CFG_SRC_PORT else s.rd .schedg .SCHED_CYC_CFG_ALT_PORT

/-- A follower drops a marker as erratic; three in a row on the port in use bring holdover (R448). -/
def erraticMarker (inUse : Bool) : Upd := look fun s =>
  let n := s.iv .errRun + 1
  all [bump .schedg 4, raise .schedg .CYC_ERRATIC,
       when_ inUse <| all [put .mkRun 0, put .errRun (min 3 n),
         when_ (n == 3 && (s.tracker == ctLOCKED || s.ivOn .asSource)) enterHoldover,
         when_ (s.tracker ≤ ctACQUIRE && n == 3) (all [put .cycFirst 0, put .errRun 0])]]

/-- A marker's delay d and offset o (R446), for arrival at `t4`. -/
def markerDelay (m : Marker) (t4 : Nat) : Int := (((t4 : Int) - m.echoT1) - ((m.tTx : Int) - m.echoT2)) / 2
def markerOffset (m : Marker) (t4 : Nat) : Int := (t4 : Int) - (m.tTx + markerDelay m t4)

/-- The mean of the delays kept. -/
def meanOf (ds : List Nat) : Int := (ds.map zag).sum / (max 1 ds.length : Nat)

/-- The conditions of R446 beside the port and the mean. -/
def State.markerFits (s : State) (m : Marker) : Bool :=
  m.masterId == s.rd .schedg .SCHED_MK_CFG_MASTER_ID && m.echoValid && s.now ≤ m.echoT1 + 10000000

/-- A marker's cycle agrees with what the follower holds (R448); before the first lock and in LOST it holds nothing. -/
def State.agrees (s : State) (m : Marker) : Bool :=
  let next := s.iv .cycStart + s.cycLen
  let c := s.cycleNum
  if s.tracker ≤ ctACQUIRE || (s.tracker == ctLOST && !s.ivOn .asSource) then true
  else (m.cycle == c && m.boundary == s.iv .cycStart && s.iv .cycNext == 0) ||
    (m.cycle == (c + 1) % 2 ^ 48 && m.boundary == next) ||
    (s.iv .cycNext != 0 && m.cycle == (c + 2) % 2 ^ 48 && m.boundary == next + s.iv .cycNext)

/-- The follower's clock moves by −o (R447): a step before the first lock, recorded when it goes back, and slewing after it. -/
def correctTime (o : Int) : Upd := look fun s =>
  if s.tracker ≤ ctACQUIRE then
    all [setNow ((s.now : Int) - o).toNat,
         when_ (0 < o) <| all [wr .schedg .SCHED_STEP_BACK_NS (min 0xFFFFFFFF o.toNat), bump .schedg 9,
                               raise .schedg .CYC_TIME_STEP_BACK]]
  else put .slew (zig o)

/-- A used marker's cycle is adopted (R448). -/
def adopt (m : Marker) : Upd := look fun s =>
  let len := clampLen m.len
  let next := s.iv .cycStart + s.cycLen
  if s.tracker ≤ ctACQUIRE then
    if s.ivOn .cycFirst && m.cycle == (s.iv .cycFirstNum + 1) % 2 ^ 48 && m.boundary + 1 == s.iv .cycFirst + s.iv .cycFirstLen then
      put .cycNext len
    else when_ (s.now < m.boundary) <|
      all [put .cycFirst (m.boundary + 1), put .cycFirstNum m.cycle, put .cycFirstLen len, put .cycNext 0]
  else if s.tracker == ctLOST && !s.ivOn .asSource then
    if s.ivOn .relock then
      when_ (s.iv .relock == 1 && m.boundary == next && m.cycle + 1 == s.iv .relockNum) (all [put .cycNext len, put .cycLast len])
    else
      all [put .mkRun (min 4 (s.iv .mkRun + 1)),
           when_ (3 ≤ s.iv .mkRun) (all [put .acqAt (m.boundary + 1), put .acqNum m.cycle, put .cycP (65536 * len), put .cycLast len])]
  else
    all [when_ (m.cycle == (s.cycleNum + 1) % 2 ^ 48) (all [put .cycNext len, put .cycLast len]),
         when_ (s.iv .cycNext != 0 && m.cycle == (s.cycleNum + 2) % 2 ^ 48) (put .cycNext2 len)]

/-- A follower shows its source's HOLDOVER or LOST while it follows (R450), and LOCKED when its source is locked. -/
def followState (st : Nat) : Upd := look fun s =>
  when_ (s.tracker == ctLOCKED || s.tracker == ctHOLDOVER || s.ivOn .asSource) <|
    if st == ctHOLDOVER || st == ctLOST then
      when_ (s.tracker != st || !s.ivOn .asSource) <|
        all [put .asSource st, setTracker st,
             when_ (s.tracker != st) <|
               if st == ctHOLDOVER then all [bump .schedg 5, raise .schedg .CYC_HOLDOVER]
               else all [raise .schedg .CYC_CYCLE_LOST, enterFallback]]
    else if st == ctLOCKED || st == ctFREE then all [put .asSource 0, when_ (s.tracker != ctLOCKED) leaveHoldover] else skip

/-- A marker that R446 lets the follower use: its delay and offset are kept, time is corrected, its cycle adopted, its source's
state followed. STRATUM stays 0xFF until the first lock (R445). -/
def useMarker (m : Marker) : Upd := look fun s =>
  let d := markerDelay m s.now
  let o := markerOffset m s.now
  let kept := (s.fifo .delays ++ [zig d]).drop ((s.fifo .delays).length - 15)
  let clip : Int := max (-32767) (min 32767 o)
  all [putFifo .delays kept, wr .schedg .SCHED_SRC_MEAS_DELAY (meanOf kept).toNat,
       wr .schedg .SCHED_SRC_MEAS_OFFSET (BitVec.ofInt 16 clip).toNat, put .errRun 0, bump .schedg 3,
       put .mkStratum (min 255 (m.stratum + 1) + 1),
       when_ (s.on .schedg .SCHED_CYC_STAT_EVER_LOCKED) (wr .schedg .SCHED_CYC_STAT_STRATUM (min 255 (m.stratum + 1))),
       when_ (s.tracker == ctHOLDOVER) (put .cycEdge 1),
       correctTime o, when_ m.boundsValid (adopt m), when_ m.boundsValid (followState m.state),
       when_ (s.tracker == ctIDLE) (wr .schedg .SCHED_CYC_STAT_STATE ctACQUIRE)]

/-- Both ports of a follower with ALT_EN deliver markers of one cycle whose boundaries differ by more than 100 ns (R449). -/
def checkDisagree : Upd := look fun s =>
  let a := s.srcPort
  let b := s.otherPort
  let x := s.iv .mkBound a
  let y := s.iv .mkBound b
  when_ (s.on .schedg .SCHED_CYC_CFG_ALT_EN && s.iv .mkCyc a != 0 && s.iv .mkCyc a == s.iv .mkCyc b && 100 < max x y - min x y)
    (raise .schedg .CYC_SRC_DISAGREE)

/-- SCHED takes a marker that R243 passes, from port `p` (R446 to R450). Markers of the alternative port are only compared. -/
def followMarker (p : Nat) (m : Marker) : Upd := look fun s =>
  let note := all [put .mkBound m.boundary p, put .mkCyc (m.cycle + 1) p, put .mkAgree (b2n (s.agrees m)) p, checkDisagree]
  let mean := meanOf (s.fifo .delays)
  let d := markerDelay m s.now
  let limit : Int := (8 * max 1 (s.rd .schedg .SCHED_MK_CFG_STEP_LIMIT) : Nat)
  let o := markerOffset m s.now
  if p == s.srcPort then
    if !s.markerFits m || (!(s.fifo .delays).isEmpty && (d - mean > 20 || mean - d > 20)) ||
        ((s.tracker == ctLOCKED || s.tracker == ctHOLDOVER) && (o > limit || -o > limit)) ||
        (m.boundsValid && !s.agrees m) then all [put .mkAgree 0 p, erraticMarker true]
    else all [when_ m.boundsValid note, useMarker m]
  else if s.on .schedg .SCHED_CYC_CFG_ALT_EN && p == s.otherPort && s.markerFits m then when_ m.boundsValid note
  else all [put .mkAgree 0 p, erraticMarker false]

/-- The full count of a marker with SEQ `q` (R244); none when it is not newer. -/
def State.markerCount (s : State) (p q : Nat) : Option Nat :=
  match s.iv .mkRx p with
  | 0 => some q
  | l + 1 =>
    let d := (q + 4096 - l % 4096) % 4096
    if 1 ≤ d && d ≤ 2047 then some (l + d) else none

/-- A frame is marked bad by its lanes (R170): a block of it stood in an uncorrectable codeword of a lane of the port. -/
def State.laneBad (s : State) (p : Nat) (lf : LinkFrame) : Bool := lf.inBad && (s.portLanes p).any fun l => s.ivOn .badCw l

/-- The frame's tag is good (R228, R248 to R250): it verifies under the key that its KEY_PHASE selects, with NUM `num`. -/
def State.tagGood (s : State) (p : Nat) (lf : LinkFrame) (num : Nat) : Bool :=
  match lf.sealedBy with
  | some (k, n) => s.iv .rxKey (2 * p + lf.keyPhase) == k + 1 && n == num
  | none => false

/-- A frame with NOSEQ = 1 arrives on port `p` (R242 to R244): its credits are consumed; SCHED takes it when every check holds. -/
def markerArrives (p : Nat) (lf : LinkFrame) : Upd := look fun s =>
  let i := crIdx p 0 poolCTL
  match lf.frame.body, s.markerCount p lf.seq with
  | .marker m, some n =>
    if s.on (.port p) .PORT_CFG_CYC_RX && !s.laneBad p lf && lf.crcOk && lf.countOk &&
        (!s.on (.port p) .PORT_LINK_STAT_ENC || (lf.enc && s.tagGood p lf (2 ^ 63 + n))) then
      all [put .mkRx (n + 1) p, put .crUsed (s.iv .crUsed i + credits lf.len) i, bump (.port p) 0, addCnt (.port p) 1 lf.len,
           bump (.port p) 15,
           put .mkEchoT1 (m.tTx + 1) p, put .mkEchoT2 s.now p, when_ s.follower (followMarker p m)]
    else all [bump (.port p) 16, raise (.port p) .PORT_MARKER_REFUSED]
  | _, _ => all [bump (.port p) 16, raise (.port p) .PORT_MARKER_REFUSED]

/-- CYCLE_MARKER_RECEIVED. -/
def execCycleMarkerReceived (p : PortId) (lf : LinkFrame) : State → Answer := Upd.answer <| look fun s =>
  when_ (s.linkRuns p) (markerArrives p lf)

/-- CYCLE_MARKER_SEND (R445): a marker is due on the port, which ends Rest (R246). -/
def execCycleMarkerSend (p : PortId) : State → Answer := Upd.answer <| look fun s =>
  when_ (s.isFab p && s.on (.port p) .PORT_CFG_CYC_TX) (all [put .mkDue 1 p, restExit p])

/-! ### Sources (R449, R451) -/

/-- SOURCE_MOVE (R449). -/
def sourceMove : Upd := look fun s =>
  when_ (s.follower && s.on .schedg .SCHED_CYC_CFG_ALT_EN && s.ivOn .mkAgree s.otherPort && s.usable s.otherPort) <|
    all [wr .schedg .SCHED_CYC_STAT_ON_ALT (b2n (!s.on .schedg .SCHED_CYC_STAT_ON_ALT)), putFifo .delays [], put .errRun 0,
         bump .schedg 8, raise .schedg .CYC_SRC_SWITCH]

/-- SOURCE_MARKER_TIMEOUT. -/
def execSourceMarkerTimeout : State → Answer := Upd.answer sourceMove

/-- FAB_PORT_UNUSABLE (R413, R424, R425, R449): routes already avoid the port (`State.wayTo`); PATH_LOSS is sent and the streams
are resent; a retiring port sends none (R428). A follower that used the port moves to the other one. -/
def execFabPortUnusable (p : PortId) : State → Answer := Upd.answer <| look fun s =>
  all [when_ (s.isFab p && !s.usable p && s.link p != lsRETIRING) (all [sendPathLoss p, resendAll]),
       when_ (!s.usable p && s.srcPort == p) sourceMove]

/-- R451: the source, its port or the master changed: holdover, and acquisition of the new one; before the first lock,
acquisition starts afresh. -/
def sourceChanged : Upd := look fun s =>
  all [acquireAfresh, putFifo .delays [], put .errRun 0, put .asSource 0, clearIv .mkAgree fun _ => true,
       clearIv .mkCyc fun _ => true, clearIv .mkBound fun _ => true, wr .schedg .SCHED_CYC_STAT_ON_ALT 0,
       if s.on .schedg .SCHED_CYC_STAT_EVER_LOCKED then
         all [put .toFree (b2n s.freeSrc), when_ (!s.follower) (wr .schedg .SCHED_CYC_STAT_STRATUM 0),
              when_ (s.tracker != ctHOLDOVER) enterHoldover]
       else all [put .cycFirst 0, put .cycNext 0, put .cycEdgeNext 0, put .cycResNext 0,
                 wr .schedg .SCHED_CYC_STAT_STATE ctACQUIRE]]

/-- A write of `v` to SCHED_CYC_CFG, or with `mk` to SCHED_MK_CFG. -/
def cycCfgWrite (st : Stamp) (mk : Bool) (v : Nat) : Upd := look fun s =>
  let key := fun (t : State) => (t.rd .schedg .SCHED_CYC_CFG_SRC, t.rd .schedg .SCHED_CYC_CFG_SRC_PORT, t.rd .schedg .SCHED_MK_CFG_MASTER_ID)
  all [plainWrite st .schedg (if mk then 0x138 else 0x100) v, look fun t => when_ (key s != key t) sourceChanged]

/-- CYCLE_SOURCE_CHANGE. -/
def execCycleSourceChange (st : Stamp) (mk : Bool) (v : Word) : State → Answer := Upd.answer <|
  granted st .schedg (if mk then 0x138 else 0x100) (cycCfgWrite st mk v.toNat)

/-! ### CYC_OUT (R452) -/

/-- CYC_OUT rises at a boundary. -/
def cycOutRise : Upd := look fun s =>
  let m := s.rd .schedg .SCHED_CYC_OUT_MODE
  when_ (m == 1 || (m == 2 && s.inCycle)) (all [put .cycOut 1, emit (.cycOut true)])

/-- CYC_OUT_PULSE_END. -/
def execCycOutPulseEnd : State → Answer := Upd.answer <| look fun s =>
  when_ (s.ivOn .cycOut) (all [put .cycOut 0, emit (.cycOut false)])

/-! ### PTM and snapshots (R453 to R455) -/

/-- R453 for face `f`. -/
def State.hostValid (s : State) (f : Nat) : Bool :=
  s.ivOn .ptmEnable f && s.iv .ptmCount f == 2 && s.now < s.iv .ptmFab f + 10000000

/-- The host's time of face `f` now: from its last exchange, at the rate of the last two. -/
def State.hostTime (s : State) (f : Nat) : Nat :=
  let dt := s.now - s.iv .ptmFab f
  (s.iv .ptmHost f + dt * (s.iv .ptmHost f - s.iv .ptmHost0 f) / max 1 (s.iv .ptmFab f - s.iv .ptmFab0 f)) % 2 ^ 64

/-- PTM_REQUEST_TIMER. -/
def execPtmRequestTimer (f : FaceId) : State → Answer := Upd.answer <| look fun s =>
  when_ (s.ivOn .ptmEnable f && s.faceLive f) (emit (.ptmRequest f))

/-- PTM_RESPONSE_RECEIVED. -/
def execPtmResponseReceived (f : FaceId) (host : BitVec 64) : State → Answer := Upd.answer <| look fun s =>
  when_ (s.ivOn .ptmEnable f) <|
    all [put .ptmHost0 (s.iv .ptmHost f) f, put .ptmFab0 (s.iv .ptmFab f) f, put .ptmHost host.toNat f, put .ptmFab s.now f,
         put .ptmCount (min 2 (s.iv .ptmCount f + 1)) f]

/-- PTM_REQUEST_RECEIVED (R454). -/
def execPtmRequestReceived (p : PortId) : State → Answer := Upd.answer <| look fun s =>
  let f := s.rd .schedg .SCHED_PTM_FACE_FACE p
  when_ (s.role p == roleDOWN && s.carries p) <|
    emit (.ptmResponse p (if s.on .schedg .SCHED_PTM_FACE_EN p && s.hostValid f then some (s.hostTime f) else none))

/-- A write of `v` to SCHED_SNAP_CTRL: with GO the capture, held for the stamp (R455). -/
def snapWrite (st : Stamp) (v : Nat) : Upd := look fun s =>
  let f := v % 32
  let c := st.code
  let w := fun (g : Fld) (x : Nat) => wrSt c .schedg g x
  all [plainWrite st .schedg 0x150 v,
       when_ (v.testBit 31) <|
         all [w .SCHED_SNAP_CTRL_VALID 1, w .SCHED_SNAP_CTRL_HOST_VALID (b2n (s.hostValid f)), w .SCHED_SNAP_FAB_V s.now,
              w .SCHED_SNAP_FAB_HI_V (bits s.now 63 32), w .SCHED_SNAP_HOST_V (s.hostTime f),
              w .SCHED_SNAP_HOST_HI_V (bits (s.hostTime f) 63 32), w .SCHED_SNAP_CYC_V s.cycleNum,
              w .SCHED_SNAP_CYC_HI_V (bits s.cycleNum 47 32), w .SCHED_SNAP_PHASE_V s.phase]]

/-- SNAPSHOT_CAPTURE. -/
def execSnapshotCapture (st : Stamp) (v : Word) : State → Answer := Upd.answer <|
  granted st .schedg 0x150 (snapWrite st v.toNat)

end Sys2Proof.Machine
end

