-- ==== Sys2Proof/Machine/Daend.lean ====
section
/-! DEFINITION. Frames received on a Daend link, acknowledgement and replay (spec/06, R228 to R235). -/

namespace Sys2Proof.Machine

/-- Step 8 of R228: the frame is accepted, and its credits are consumed. -/
def acceptFrame (p : Nat) (lf : LinkFrame) : Upd := look fun s =>
  let i := crIdx p (s.acctClass p lf.cls lf.pool) lf.pool
  all [put .rxSeq ((lf.seq + 1) % 4096) p, put .nakSent 0 p, put .rxUnacked (s.iv .rxUnacked p + 1) p,
       put .crUsed (s.iv .crUsed i + credits lf.len) i,
       when_ lf.enc (modIv .rxNum (· + 1) (2 * p + lf.keyPhase)), bump (.port p) 0, addCnt (.port p) 1 lf.len,
       when_ (255 ≤ s.iv .rxUnacked p) (sendAck p)]

/-- A control block of the frame, or its START block, fails its check (R225): it is discarded and counted. -/
def frameCtlBad (p : Nat) (lf : LinkFrame) : Upd :=
  when_ (lf.insideBad || crc8 ((blkBytes lf.start).take 7) != (blkBytes lf.start).getD 7 0)
    (all [raise (.port p) .PORT_CTL_CRC, bump (.port p) 8])

/-- DAEND_FRAME_RECEIVED: the first step of R228 that matches. NUM is the one expected under the frame's key (R249): a frame that
reaches the tag check has the expected SEQ. -/
def execDaendFrameReceived (p : PortId) (lf : LinkFrame) : State → Answer := Upd.answer <| look fun s =>
  let expect := s.iv .rxSeq p
  let enc := s.on (.port p) .PORT_LINK_STAT_ENC
  let behind := (expect + 4096 - lf.seq) % 4096
  when_ (s.linkRuns p) <|
    if s.laneBad p lf || !lf.crcOk || !lf.countOk then all [frameCtlBad p lf, bump (.port p) 4, raise (.port p) .PORT_CRC_ERR, sendNak p]
    else if lf.noSeq then markerArrives p lf
    else if 1 ≤ behind && behind ≤ 2048 then all [bump (.port p) 9, sendAck p]
    else if behind != 0 then sendNak p
    else if enc && !lf.enc then linkFails p (some .PORT_ENC_MISSING)
    else if enc && !s.tagGood p lf (s.iv .rxNum (2 * p + lf.keyPhase)) then all [bump (.port p) 17, raise (.port p) .PORT_ENC_AUTH_FAIL, sendNak p]
    else if s.outstanding p (s.acctClass p lf.cls lf.pool) lf.pool < credits lf.len then raise (.port p) .PORT_CREDIT_OVERFLOW
    else acceptFrame p lf

/-- ACK_COALESCE_EXPIRY (R230). -/
def execAckCoalesceExpiry (p : PortId) : State → Answer := Upd.answer <| look fun s =>
  when_ (s.linkRuns p && s.ivOn .rxUnacked p) (sendAck p)

/-- A replay of every unacknowledged frame starts (R233, R234). LIMIT = 0 lies outside the field's range of 1 to 15 and acts as 1
(DESIGN CHOICE, log entry 176). -/
def startReplay (p : Nat) : Upd := look fun s =>
  let n := s.rd (.port p) .PORT_REPLAY_CNT_CONSEC + 1
  when_ (!(s.replayOf p).isEmpty) <|
    all [put .replayAt 1 p, wr (.port p) .PORT_REPLAY_CNT_CONSEC n, bump (.port p) 7,
         when_ (s.rd (.port p) .PORT_REPLAY_CNT_LIMIT ≤ n) (linkFails p (some .PORT_REPLAY_LIMIT))]

/-- How many frames were sent after SEQ `q`. -/
def State.sentAfter (s : State) (p q : Nat) : Nat := (s.iv .txSeq p + 8191 - q) % 4096

/-- The port releases the key that it sent under before, once no frame under it is unacknowledged (R250). -/
def keyRelease (p : Nat) : Upd := look fun s =>
  when_ (s.ivOn .keyOld p && !(s.replayOf p).any fun t => t.enc && t.phase != s.rd (.port p) .PORT_LINK_STAT_KEY_PHASE)
    (all [emit (.keyReleased p (s.iv .keyOld p - 1)), put .keyOld 0 p])

/-- An ACK of every frame up to SEQ `q`; a replay in progress goes on behind them. -/
def ackUpTo (p q : Nat) : Upd := look fun s =>
  let l := s.replayOf p
  let d := s.sentAfter p q
  let gone := l.length - d
  let at_ := s.iv .replayAt p
  when_ (d < l.length) <|
    all [putReplay p (l.drop gone), wr (.port p) .PORT_REPLAY_CNT_CONSEC 0,
         put .replayAt (if at_ == 0 || d == 0 then 0 else max 1 (at_ - gone)) p, keyRelease p]

/-- A SEQ that has not been sent on the link (R235): not one of the last 2,048, or of as many as have been sent. -/
def State.unsent (s : State) (p q : Nat) : Bool := s.iv .txCount p ≤ s.sentAfter p q

/-- TLPs that a PCI Express port has sent and the partner has not acknowledged, and an acknowledgement of them up to sequence number
`q` (R214): an Ack or Nak DLLP. -/
def State.pcieUnacked (s : State) (p : Nat) : Nat := (s.iv .pcieSent p + 4096 - s.iv .pcieAcked p) % 4096
def pcieAckUpTo (p q : Nat) : Upd := look fun s =>
  when_ ((q + 4096 - s.iv .pcieAcked p) % 4096 < s.pcieUnacked p) (put .pcieAcked ((q + 1) % 4096) p)

/-- Everything sent toward port `p` has been acknowledged, and everything received has passed into CORE (R214). -/
def State.portIdle (s : State) (p : Nat) : Bool :=
  !s.buf.any (·.goesTo p) && (s.replayOf p).isEmpty && s.pcieUnacked p == 0 && !s.waiting.any fun w => w.pkt.ing == .port p

/-- The SEQ of an ACK or NAK block. -/
def ackSeq (blk : BitVec 64) : Nat := (blkByte blk 1 + blkByte blk 2 <<< 8) % 4096

/-- ACK_RECEIVED. On a PCI Express port it is an Ack DLLP, with its sequence number in the same place. -/
def execAckReceived (p : PortId) (blk : BitVec 64) : State → Answer := Upd.answer <| look fun s =>
  if !s.isFab p then when_ (s.carries p) (pcieAckUpTo p (ackSeq blk))
  else checkedCtl p blk 0x55 <|
    if s.unsent p (ackSeq blk) then raise (.port p) .PORT_SEQ_ERR else ackUpTo p (ackSeq blk)

/-- NAK_RECEIVED: during a replay it counts as an ACK only. On a PCI Express port it is a Nak DLLP: what it does not acknowledge is
sent again. -/
def execNakReceived (p : PortId) (blk : BitVec 64) : State → Answer := Upd.answer <| look fun s =>
  if !s.isFab p then when_ (s.carries p) (all [bump (.port p) 6, pcieAckUpTo p (ackSeq blk), bump (.port p) 7])
  else checkedCtl p blk 0x69 <|
    if s.unsent p (ackSeq blk) then raise (.port p) .PORT_SEQ_ERR
    else all [bump (.port p) 6, ackUpTo p (ackSeq blk), when_ (!s.ivOn .replayAt p) (startReplay p)]

/-- REPLAY_TIMEOUT. -/
def execReplayTimeout (p : PortId) : State → Answer := Upd.answer <| look fun s =>
  when_ (s.linkRuns p) (startReplay p)

end Sys2Proof.Machine
end

