-- ==== Sys2Proof/Machine/Face.lean ====
section
/-! DEFINITION. Host faces (spec/07): binding, presented devices, the MSI-X table, and the window table. -/

namespace Sys2Proof.Machine

/-! ### Binding (R263, R264) -/

/-- FACE_BIND_WRITE refuses the write. -/
def State.bindRefused (s : State) (f v : Nat) : Bool :=
  let en := v.testBit 31
  let p := v % 128
  let changes := b2n en != s.rd (.face f) .FACE_BIND_ENABLE || p != s.facePort f
  (changes && fcRETRY ≤ s.rd (.face f) .FACE_BIND_STATE) ||
    (en && (96 ≤ p || s.role p != roleUP || (allBelow 32 fun g => g != f && s.on (.face g) .FACE_BIND_ENABLE && s.facePort g == p) != []))

/-- A write of `v` to FACE_BIND. -/
def faceBindWrite (st : Stamp) (f v : Nat) : Upd := look fun s =>
  if s.bindRefused f v then raise (.face f) .FACE_CFG_REFUSED
  else all [plainWrite st (.face f) 0x100 v,
            when_ (b2n (v.testBit 31) != s.rd (.face f) .FACE_BIND_ENABLE) <|
              wr (.face f) .FACE_BIND_STATE (if v.testBit 31 then fcRESET else 0)]

/-- FACE_BIND_WRITE. -/
def execFaceBindWrite (st : Stamp) (f : FaceId) (v : Word) : State → Answer := Upd.answer <|
  granted st (.face f) 0x100 (faceBindWrite st f v.toNat)

/-! ### Presented devices (R268 to R271, R721) -/

/-- FACE_PRES[n], by field. -/
def State.presValid (s : State) (f n : Nat) : Bool := s.on (.face f) .FACE_PRES_VALID n
def State.presShown (s : State) (f n : Nat) : Bool := s.on (.face f) .FACE_PRES_SHOWN n
def State.presVdp (s : State) (f n : Nat) : Nat := s.rd (.face f) .FACE_PRES_VDP n
def State.presSub (s : State) (f n : Nat) : Nat := s.rd (.face f) .FACE_PRES_SUB n
def State.presFeid (s : State) (f n : Nat) : Nat := s.rd (.face f) .FACE_PRES_FEID n

/-- An entry that is shown, or will be once its BARs are sized. -/
def State.presTaken (s : State) (f n : Nat) : Bool := s.presShown f n || s.ivOn .sizing (256 * f + n)

/-- Two positions that cannot both be held: the same one, or a direct device beside a branch at one VDP. -/
def State.presClash (s : State) (f m n : Nat) : Bool :=
  s.presVdp f m == s.presVdp f n &&
    (s.presSub f m == s.presSub f n || (s.presSub f m == 0) != (s.presSub f n == 0))

/-- Entry `n` is in conflict (R268): a valid entry of lower index without a conflict, or one already presented, holds the place. -/
def State.presConflicts (s : State) (f n : Nat) (ok : List Nat) : Bool :=
  s.presVdp f n == 0 || (ok.any fun m => m != n && s.presClash f m n)

/-- The valid entries without a conflict, in index order; those already presented come first. -/
def State.presFree (s : State) (f : Nat) : List Nat :=
  let held := allBelow 255 fun n => s.presValid f n && s.presTaken f n
  (allBelow 255 fun n => s.presValid f n && !s.presTaken f n).foldl
    (fun ok n => if s.presConflicts f n ok then ok else ok ++ [n]) held

/-- The bus numbers of an entry (R269), with 2 for a branch that no entry of `on_` opens. -/
def State.presNeed (s : State) (f : Nat) (on_ : List Nat) (n : Nat) : Nat :=
  max 1 (s.rd (.face f) .FACE_PRES_BUSES n) +
    (if s.presSub f n != 0 && !(on_.any fun m => s.presVdp f m == s.presVdp f n) then 2 else 0)

/-- NEED of a list of entries. -/
def State.needOf (s : State) (f : Nat) (ns : List Nat) : Nat :=
  (ns.foldl (fun (a : Nat × List Nat) n => (a.1 + s.presNeed f a.2 n, a.2 ++ [n])) (2, [])).1

/-- FACE_BUS_LIMIT.LIMIT as it acts. -/
def State.busLimit (s : State) (f : Nat) : Nat := max 2 (min 256 (s.rd (.face f) .FACE_BUS_LIMIT_LIMIT))

/-- The entries that R269 adds to those of `on_`, and whether one did not fit. -/
def State.presAdd (s : State) (f : Nat) : List Nat → List Nat → List Nat × Bool
  | _, [] => ([], false)
  | on_, n :: rest =>
    if s.needOf f (on_ ++ [n]) ≤ s.busLimit f then
      let r := s.presAdd f (on_ ++ [n]) rest
      (n :: r.1, r.2)
    else ([], true)

/-! ### Slots (R271) -/

/-- The hot-plug interrupt of a virtual bridge with Slot Control `c` and Slot Status `v` is asserted: Hot-Plug Interrupt Enable,
and a presence-detect or link-layer change that is enabled. -/
def slotAsks (c v : Nat) : Bool := c.testBit 5 && ((c.testBit 3 && v.testBit 3) || (c.testBit 12 && v.testBit 8))

/-- Slot Control and Slot Status of bridge `b` of face `f` become `c` and `v`: an interrupt goes out when they come to ask for
it. -/
def slotRegsSet (f b c v : Nat) : Upd := look fun s =>
  let i := 4096 * f + b
  all [put .slotCtl c i, put .slotStat v i,
       when_ (slotAsks c v && !slotAsks (s.iv .slotCtl i) (s.iv .slotStat i)) (emit (.slotInt f b))]

/-- The device of entry `n` appears in its slot, or leaves it: a presence-detect change and a data-link-layer state change
(R271). -/
def slotEvent (f n : Nat) (present : Bool) : Upd := look fun s =>
  let b := s.bridgeAbove f n
  all [emit (.hotPlug f (s.presVdp f n) (s.presSub f n) present),
       slotRegsSet f b (s.iv .slotCtl (4096 * f + b)) (0x108 + 64 * b2n present)]

/-- The configuration requests with which the DOWN port of entry `n`'s device sizes its BAR registers, in order (R721): each is
read, written with ones, read again, and given back the value that the owner's configuration gave it. -/
def sizeRequests (f n : Nat) : Upd := look fun s =>
  forSome (s.idRoute? s.live (s.presFeid f n)) fun r =>
    when_ (r.isLocal && r.kind == kindDevice) <| forBelow 6 fun k =>
      forEach [none, some (2 ^ 32 - 1), none, some (Config.ownerBar r.port r.rid k).toNat] fun w => emit (.sizeRequest r.port r.rid k w)

/-- The evaluation of R268 and R269; a device that is unreachable is not shown (R605): conflicts, and the entries whose BARs are
now sized before they are shown (R721). -/
def presEval (f : Nat) : Upd := look fun s =>
  let ok := s.presFree f
  let held := allBelow 255 fun n => s.presValid f n && s.presTaken f n
  let bad := allBelow 255 fun n => s.presValid f n && !ok.contains n
  let add := s.presAdd f held (ok.filter fun n => !held.contains n && !s.unreachable (s.presFeid f n))
  all [forBelow 255 fun n => wr (.face f) .FACE_PRES_CONFLICT (b2n (bad.contains n)) n,
       when_ (!bad.isEmpty) (raise (.face f) .FACE_PRES_CONFLICT),
       forEach add.1 fun n => all [put .sizing 1 (256 * f + n), sizeRequests f n],
       wr (.face f) .FACE_BUS_LIMIT_NO_BUS (b2n add.2), when_ add.2 (raise (.face f) .FACE_NO_BUS),
       wr (.face f) .FACE_BUS_LIMIT_NEED (s.needOf f (allBelow 255 fun n => s.presValid f n && s.presShown f n))]

/-- The device of entry `n` leaves the view. -/
def presHide (f n : Nat) : Upd := look fun s =>
  all [put .sizing 0 (256 * f + n),
       clearIv .presInfo fun i => i / 8 / 4096 == 256 * f + n, clearIv .presBar fun i => i / 8 / 4096 == 256 * f + n,
       clearIv .presBarSet fun i => i / 8 / 4096 == 256 * f + n, clearIv .presBase fun i => i / 8 / 4096 == 256 * f + n,
       clearIv .presCmd fun i => i / 4096 == 256 * f + n,
       clearIv .presRom fun i => i / 4096 == 256 * f + n,
       when_ (s.presShown f n) <|
         all [wr (.face f) .FACE_PRES_SHOWN 0 n, slotEvent f n false]]

/-- A write of `v` to FACE_PRES[n], or to FACE_BUS_LIMIT (R271): a shown entry that changes leaves the view first. -/
def presWrite (st : Stamp) (f : Nat) (n : Option Nat) (v : Nat) : Upd :=
  match n with
  | none => all [plainWrite st (.face f) 0x104 v, presEval f]
  | some n => look fun s =>
    let key := fun (t : State) => (t.presValid f n, t.rd (.face f) .FACE_PRES_BUSES n, t.presVdp f n, t.presSub f n, t.presFeid f n)
    let new := (v.testBit 31, bits v 28 25, bits v 24 20, bits v 19 14, v % 8192)
    all [when_ (s.presTaken f n && key s != new) (presHide f n), plainWrite st (.face f) (0x200 + 4 * n) v, presEval f]

/-- PRESENTATION_UPDATE. -/
def execPresentationUpdate (st : Stamp) (f : FaceId) (n : Option (Fin 255)) (v : Word) : State → Answer := Upd.answer <|
  granted st (.face f) (match n with
    | none => 0x104
    | some k => 0x200 + 4 * k.val) (presWrite st f (n.map (·.val)) v.toNat)

/-- BAR_SIZING_DONE (R721): the layout is kept, and the entry is shown. -/
def execBarSizingDone (f : FaceId) (n : Fin 255) (bars : List BarLayout) : State → Answer := Upd.answer <| look fun s =>
  when_ (s.ivOn .sizing (256 * f + n)) <|
    all [put .sizing 0 (256 * f + n),
         forEach bars fun b => put .presInfo (256 + 128 * b2n b.prefetch + 64 * b2n b.wide + b.log2) (8 * (4096 * (256 * f + n) + b.fn) + b.bar),
         wr (.face f) .FACE_PRES_SHOWN 1 n, slotEvent f n true,
         look fun t => wr (.face f) .FACE_BUS_LIMIT_NEED (t.needOf f (allBelow 255 fun m => t.presValid f m && t.presShown f m))]

/-! ### MSI-X (R276 to R278) -/

/-- BAR4 of F0 is empty in BRINGUP and ROM_RECOVERY (Table BOOT-12). -/
def State.bar4Empty (s : State) (f : Nat) : Bool :=
  f == 0 && (s.rd .glb .GLB_DEV_STATE_STATE == 5 || s.rd .glb .GLB_DEV_STATE_STATE == 6)

/-- The host writes dword `v` at offset `off` of BAR4: the table below 0x8000; the PBA is not writable. -/
def msixWrite (f off v : Nat) : Upd := look fun s =>
  let n := off / 16
  let i := 2048 * f + n
  let a := s.iv .msixAddr i
  when_ (off < 0x8000 && !s.bar4Empty f) <| match off % 16 / 4 with
    | 0 => put .msixAddr (a - a % 2 ^ 32 + v) i
    | 1 => put .msixAddr (a % 2 ^ 32 + v <<< 32) i
    | 2 => put .msixData v i
    | _ => all [put .msixOpen (1 - v % 2) i, msixFlush f]

/-- MSIX_TABLE_WRITE. -/
def execMsixTableWrite (f : FaceId) (off : BitVec 16) (v : Word) : State → Answer := Upd.answer (msixWrite f off.toNat v.toNat)

/-- INTERRUPT_SOURCE_FIRE. -/
def execInterruptSourceFire (f : FaceId) (vec : VecId) : State → Answer := Upd.answer (msixFire f vec)

/-! ### Window translation (R279 to R285) -/

/-- Entry `i` of face `f`: its base, fabric base and log2 size. -/
def State.wtBase (s : State) (f i : Nat) : Nat :=
  s.rd (.face f) .FACE_WIN_TAB_BASE i <<< 12 + s.rd (.face f) .FACE_WIN_TAB_BASE_HI i <<< 32
def State.wtXlat (s : State) (f i : Nat) : Nat :=
  s.rd (.face f) .FACE_WIN_TAB_XLAT i <<< 12 + s.rd (.face f) .FACE_WIN_TAB_XLAT_HI i <<< 32
def State.wtLog2 (s : State) (f i : Nat) : Nat := s.rd (.face f) .FACE_WIN_TAB_LOG2 i
def State.wtLinked (s : State) (f i : Nat) : Bool := s.on (.face f) .FACE_WIN_TAB_LINK_EN i
def State.wtValid (s : State) (f i : Nat) : Bool := s.on (.face f) .FACE_WIN_TAB_VALID i

/-- BAR `k` of function 0 of presented entry `n` in the face's tables (R283, R373). -/
def barAt (f n k : Nat) : Nat := 8 * (4096 * (256 * f + n)) + k
def State.barInfo (s : State) (f n k : Nat) : Nat := s.iv .presInfo (barAt f n k)
def State.barWide (s : State) (f n k : Nat) : Bool := (s.barInfo f n k).testBit 6

/-- The host has written the BAR since the last face reset: both dwords of a 64-bit one. -/
def State.barSet (s : State) (f n k : Nat) : Bool :=
  s.ivOn .presBarSet (barAt f n k) && (!s.barWide f n k || s.ivOn .presBarSet (barAt f n (k + 1)))

/-- The device has BAR `k`: it does not size to zero, and is no upper half of a 64-bit BAR (R721). -/
def State.barExists (s : State) (f n k : Nat) : Bool := s.barInfo f n k != 0 && !(0 < k && s.barWide f n (k - 1))

/-- The address in the BAR: its bits above its size. -/
def State.barBase (s : State) (f n k : Nat) : Nat :=
  let a := s.iv .presBar (barAt f n k) + (if s.barWide f n k then s.iv .presBar (barAt f n (k + 1)) <<< 32 else 0)
  a - a % 2 ^ (s.barInfo f n k % 64)

/-- The virtual bridges above presented entry `n` (R279). -/
def State.bridgesAbove (s : State) (f n : Nat) : List Nat :=
  let k := s.presVdp f n
  [0, 1 + k] ++ (if s.presSub f n == 0 then [] else [64 + k, 128 + 32 * k + (s.presSub f n - 1)])

/-- Entry `i` is active (R279). -/
def State.winActive (s : State) (f i : Nat) : Bool :=
  s.wtValid f i &&
    if s.wtLinked f i then
      let n := s.rd (.face f) .FACE_WIN_TAB_LINK_PRES i
      s.presShown f n && s.barSet f n (s.rd (.face f) .FACE_WIN_TAB_LINK_BAR i) &&
        (s.bridgesAbove f n).all fun b => s.ivOn .mse (4096 * f + b)
    else s.ivOn .mse (4096 * f)

/-- WINDOW translation of `len` bytes at host address `a` (R280): the fabric address, none outside one active entry. -/
def State.translate (s : State) (f a len : Nat) : Option Nat :=
  (firstBelow 256 fun i => s.winActive f i && s.wtBase f i ≤ a && a + max 1 len ≤ s.wtBase f i + 2 ^ s.wtLog2 f i).map fun i =>
    s.wtXlat f i + (a - s.wtBase f i)

/-- The staged entry of a stamp: BASE, XLAT, and the fields of SIZE. -/
structure WinStage where
  base : Nat
  xlat : Nat
  log2 : Nat
  linked : Bool
  bar : Nat
  pres : Nat

/-- What stamp `st` has staged for face `f` (R281). A linked entry takes its base from the last completing write of the BAR (R284,
R285). -/
def State.staged (s : State) (st f : Nat) : WinStage :=
  let g := fun (x : Fld) => s.rdSt st (.face f) x
  let linked := g .FACE_WIN_SIZE_LINK_EN != 0
  let n := g .FACE_WIN_SIZE_LINK_PRES
  let k := g .FACE_WIN_SIZE_LINK_BAR
  { base := if linked then (if s.barSet f n k then s.iv .presBase (barAt f n k) else 0)
            else g .FACE_WIN_BASE_ADDR <<< 12 + g .FACE_WIN_BASE_ADDR_HI <<< 32,
    xlat := g .FACE_WIN_XLAT_ADDR <<< 12 + g .FACE_WIN_XLAT_ADDR_HI <<< 32,
    log2 := g .FACE_WIN_SIZE_LOG2, linked := linked, bar := k, pres := n }

/-- The new range overlaps another valid entry; a linked entry whose BAR is not written has no range. -/
def State.winOverlaps (s : State) (f i : Nat) (w : WinStage) : Bool :=
  let placed := fun (l : Bool) (n k : Nat) => !l || s.barSet f n k
  placed w.linked w.pres w.bar &&
    (List.range 256).any fun j => j != i && s.wtValid f j &&
      placed (s.wtLinked f j) (s.rd (.face f) .FACE_WIN_TAB_LINK_PRES j) (s.rd (.face f) .FACE_WIN_TAB_LINK_BAR j) &&
      w.base < s.wtBase f j + 2 ^ s.wtLog2 f j && s.wtBase f j < w.base + 2 ^ w.log2

/-- The status of a commit to entry `i` (R283), none of WRITE_ANY when no entry is free: the lowest code that applies. -/
def State.winStatus (s : State) (f : Nat) (i : Option Nat) (w : WinStage) : Nat :=
  if s.winOverlaps f (i.getD 256) w then 1
  else if w.base % 2 ^ w.log2 != 0 || w.xlat % 2 ^ w.log2 != 0 then 2
  else if w.log2 < 12 || 52 < w.log2 then 3
  else if i.isNone then 4
  else if w.linked && (255 ≤ w.pres || !s.presShown f w.pres || !s.barExists f w.pres w.bar) then 5
  else 0

/-- Entry `i` takes the staged values. -/
def winSet (f i : Nat) (w : WinStage) : Upd :=
  let pg := Pg.face f
  all [wr pg .FACE_WIN_TAB_VALID 1 i, wr pg .FACE_WIN_TAB_BASE (w.base >>> 12) i, wr pg .FACE_WIN_TAB_BASE_HI (w.base >>> 32) i,
       wr pg .FACE_WIN_TAB_LINK_EN (b2n w.linked) i, wr pg .FACE_WIN_TAB_LINK_BAR w.bar i, wr pg .FACE_WIN_TAB_LINK_PRES w.pres i,
       wr pg .FACE_WIN_TAB_LOG2 w.log2 i, wr pg .FACE_WIN_TAB_XLAT (w.xlat >>> 12) i, wr pg .FACE_WIN_TAB_XLAT_HI (w.xlat >>> 32) i]

/-- A write of `v` to FACE_WIN_COMMIT: with GO the commit. -/
def winCommitWrite (st : Stamp) (f v : Nat) : Upd := look fun s =>
  let pg := Pg.face f
  let w := s.staged st.code f
  let commit := fun (i : Option Nat) =>
    let c := s.winStatus f i w
    all [wr pg .FACE_WIN_COMMIT_STATUS c,
         if c != 0 then raise pg .FACE_WIN_REFUSED
         else forSome i fun k => all [winSet f k w, wr pg .FACE_WIN_COMMIT_INDEX k]]
  all [plainWrite st pg 0x138 v,
       when_ (v.testBit 31) <| match bits v 27 26 with
         | 0 => commit (some (v % 256))
         | 1 => commit (firstBelow 256 fun i => !s.wtValid f i)
         | 2 => all [wr pg .FACE_WIN_TAB_VALID 0 (v % 256), wr pg .FACE_WIN_COMMIT_STATUS 0]
         | _ => all [wr pg .FACE_WIN_COMMIT_STATUS 3, raise pg .FACE_WIN_REFUSED]]

/-- WINDOW_WRITE. -/
def execWindowWrite (st : Stamp) (f : FaceId) (v : Word) : State → Answer := Upd.answer <|
  granted st (.face f) 0x138 (winCommitWrite st f v.toNat)

/-- WINDOW_WRITE_ANY. -/
def execWindowWriteAny (st : Stamp) (f : FaceId) (v : Word) : State → Answer := Upd.answer <|
  granted st (.face f) 0x138 (winCommitWrite st f v.toNat)

/-- WINDOW_INVALIDATE. -/
def execWindowInvalidate (st : Stamp) (f : FaceId) (v : Word) : State → Answer := Upd.answer <|
  granted st (.face f) 0x138 (winCommitWrite st f v.toNat)

/-- The host writes dword `v` of BAR `k` of function `fn` of entry `n` (R285): a linked window moves with a 32-bit BAR, or with
the upper dword of a 64-bit one. -/
def presBarWrite (f n fn k v : Nat) : Upd :=
  let i := 8 * (4096 * (256 * f + n) + fn) + k
  all [put .presBar v i, put .presBarSet 1 i, look fun s =>
    let low := if 0 < k && s.barWide f n (k - 1) then k - 1 else k
    when_ (fn == 0 && s.barInfo f n low != 0 && (!s.barWide f n low || low != k)) <| all [
      put .presBase (s.barBase f n low) (barAt f n low),
      forEach (allBelow 256 fun j => s.wtValid f j && s.wtLinked f j && s.rd (.face f) .FACE_WIN_TAB_LINK_PRES j == n &&
          s.rd (.face f) .FACE_WIN_TAB_LINK_BAR j == low) fun j =>
        all [wr (.face f) .FACE_WIN_TAB_BASE (s.barBase f n low >>> 12) j,
             wr (.face f) .FACE_WIN_TAB_BASE_HI (s.barBase f n low >>> 32) j]]]

/-- The window table returns to the entries of the configuration image; linked entries lose their base (R303). -/
def winRestore (f : Nat) : Upd := look fun s =>
  forBelow 256 fun i =>
    let z := s.iv .winCopySize (256 * f + i)
    let linked := z.testBit 31
    all [winSet f i ⟨if linked then 0 else s.iv .winCopyBase (256 * f + i), s.iv .winCopyXlat (256 * f + i), z % 64, linked,
           bits z 30 28, bits z 27 20⟩, wr (.face f) .FACE_WIN_TAB_VALID (bits z 6 6) i]

end Sys2Proof.Machine
end

