-- ==== Sys2Proof/Machine/Mover.lean ====
section
/-! DEFINITION. The Data Mover (spec/14): rings, descriptors, copies, completion records, receive rings and engines. -/

namespace Sys2Proof.Machine

/-! ### Rings and owners (R514, R519) -/

/-- STATE of MOVER_RING_STAT. -/
def rsDISABLED : Nat := 0
def rsACTIVE : Nat := 1
def rsHALTED : Nat := 2
def rsREHOMING : Nat := 3
def rsFENCED : Nat := 4

def State.ringSt (s : State) (n : Nat) : Nat := s.rd (.ring n) .MOVER_RING_STAT_STATE
def State.ringKind (s : State) (n : Nat) : Nat := s.rd (.ring n) .MOVER_RING_CFG_OWN_KIND
def State.ringOwner (s : State) (n : Nat) : Nat := s.rd (.ring n) .MOVER_RING_CFG_OWNER

/-- The instance that owns the ring. -/
def State.ringVi (s : State) (n : Nat) : Option Nat := if s.ringKind n == 2 then some (s.ringOwner n) else none

/-- The face whose service endpoint or instance owns the ring. -/
def State.ringFace (s : State) (n : Nat) : Nat := if s.ringKind n == 2 then s.viFace (s.ringOwner n) else s.ringOwner n % 32

/-- The owner's FEID (R361). -/
def State.ringFeid (s : State) (n : Nat) : Nat :=
  match s.ringVi n with
  | some v => s.rd (.inst 3) .INST_VI_CFG_CFG1_FEID v
  | none => (s.faceFeid? (s.ringFace n)).getD 0

/-- Who holds the ring's tag slots. -/
def State.ringWho (s : State) (n : Nat) : Who :=
  match s.ringVi n with
  | some v => .inst v
  | none => .service

/-- The engine that serves the ring: the old one while it is being rehomed. -/
def State.ringEngine (s : State) (n : Nat) : Nat :=
  if s.ivOn .rehome n then s.iv .rehome n - 1 else s.rd (.ring n) .MOVER_RING_CFG_ENGINE

def State.ringSize (s : State) (n : Nat) : Nat := 2 ^ s.rd (.ring n) .MOVER_RING_CFG_SIZE_LOG2
def State.ringBase (s : State) (n : Nat) : Nat :=
  s.rd (.ring n) .MOVER_RING_BASE_ADDR <<< 8 + s.rd (.ring n) .MOVER_RING_BASE_ADDR_HI <<< 32
def State.cplBase (s : State) (n : Nat) : Nat :=
  s.rd (.ring n) .MOVER_RING_CPL_BASE_ADDR <<< 6 + s.rd (.ring n) .MOVER_RING_CPL_BASE_ADDR_HI <<< 32

/-- The owner may issue requests (R292, R296, R301, R495, R502, R503). -/
def State.ringMayIssue (s : State) (n : Nat) : Bool :=
  let f := s.ringFace n
  s.ivOn .seBusMaster f && !s.on (.face f) .FACE_FLR_STAT_BUSY && !s.ivOn .pmeOff f &&
    (match s.ringVi n with
     | none => s.ringKind n == 1
     | some v => s.on (.inst 2) .INST_STAT_BOUND v && !s.on (.inst 2) .INST_STAT_FENCED v && s.on (.inst 1) .INST_SHARE_SHARE v)

/-- The ring is an instance's, and PASID Enable is clear: no request goes to its host (R495). -/
def State.noPasid (s : State) (n : Nat) : Bool := (s.ringVi n).isSome && !s.ivOn .sePasid (s.ringFace n)

/-- It may issue requests toward its own host: the service endpoint is in D0 (R298), and the PASID that an instance needs is on. -/
def State.ringToHost (s : State) (n : Nat) : Bool :=
  s.ringMayIssue n && s.rd (.face (s.ringFace n)) .FACE_PM_STAT_SE_D == 0 && !s.noPasid n

/-- It may issue a request to an address of type `ty` (Table MOVER-2): 0 is its own host. -/
def State.ringMayReach (s : State) (n ty : Nat) : Bool := if ty == 0 then s.ringToHost n else s.ringMayIssue n

/-- A completion record may be written: the on-chip FIFO needs no request (R530). -/
def State.recordMayGo (s : State) (n : Nat) : Bool := s.on (.ring n) .MOVER_RING_CPL_CTRL_MODE || s.ringToHost n

/-- Instance `v` holds its cap of slots of its face's REQ pool (R496). -/
def State.viCapped (s : State) (v : Nat) : Bool :=
  max 1 (min 16384 (s.rd (.inst 3) .INST_VI_CFG_CFG2_TAG_MAX v)) ≤ ((s.slotsOf (s.viFace v) true).filter fun x => x.who == .inst v).length

/-- A tag of the owner face's REQ pool that the ring may take (R286, R287, R496). -/
def State.ringTag? (s : State) (n : Nat) (onLink : Bool) : Option Nat :=
  if (s.ringVi n).any s.viCapped then none else s.freeTag? (s.ringFace n) true onLink

/-- Records written and not consumed. -/
def State.unconsumed (s : State) (n : Nat) : Nat :=
  (s.rd (.ring n) .MOVER_RING_CPL_TAIL_CPL_TAIL + s.ringSize n - s.rd (.ring n) .MOVER_RING_CPL_HEAD_CPL_HEAD % s.ringSize n) % s.ringSize n

/-- TAIL as it acts: bits at and above SIZE_LOG2 are ignored. -/
def State.ringTail (s : State) (n : Nat) : Nat := s.rd (.ring n) .MOVER_RING_TAIL_TAIL % s.ringSize n

/-- Descriptors of the ring fetched and not completed. -/
def State.ringDescs (s : State) (n : Nat) : List Desc := s.descs.filter fun d => d.ring == n

/-- QUIESCE of the ring's engine page, or of the MOVER global page, stops new work. -/
def State.ringQuiet (s : State) (n : Nat) : Bool := s.on (.eng (s.ringEngine n)) .BLK_CTRL_QUIESCE || s.on .moverg .BLK_CTRL_QUIESCE

/-- How many descriptors the next fetch takes (R518, R519): up to 8, posted, with room for their records, in one run of the
ring's memory. -/
def State.fetchCount (s : State) (n : Nat) : Nat :=
  let size := s.ringSize n
  let at_ := s.iv .fetchAt n
  let have_ := (s.ringDescs n).length
  let fifoRoom := if s.on (.ring n) .MOVER_RING_CPL_CTRL_MODE then 64 - (have_ + (s.fifo .cplFifo n).length) else 8
  min (min 8 ((s.ringTail n + size - at_) % size)) (min (min (size - at_) fifoRoom) (size - 1 - (have_ + s.unconsumed n)))

/-! ### Descriptors (Table MOVER-1, R520 to R522) -/

def Desc.op (d : Desc) : Nat := bits d.raw 31 28
def Desc.irq (d : Desc) : Bool := bit d.raw 27
def Desc.sync (d : Desc) : Bool := bit d.raw 26
def Desc.rlx (d : Desc) : Bool := bit d.raw 25
def Desc.srcType (d : Desc) : Nat := bits d.raw 24 23
def Desc.dstType (d : Desc) : Nat := bits d.raw 22 21
def Desc.cookie (d : Desc) : Nat := bits d.raw 15 0
def Desc.len (d : Desc) : Nat := bits d.raw 55 32
def Desc.src (d : Desc) : Nat := bits d.raw 127 64
def Desc.dst (d : Desc) : Nat := bits d.raw 191 128

/-- A descriptor as it is fetched. -/
def Desc.fetched (ring slot raw epoch : Nat) : Desc :=
  ⟨ring, slot, raw, epoch, false, 0, [], [], 0, [], false, [], [], 0⟩

/-- The enabled VEP whose TX ring this is (R562). -/
def State.vepTx? (s : State) (n : Nat) : Option Nat :=
  firstBelow 64 fun v => s.on (.bridge 2) .BRIDGE_VEP_CFG_EN v && s.rd (.bridge 2) .BRIDGE_VEP_CFG_TX_RING v == n

/-- The enabled VEP of a frame: its owner is the frame's destination and its peer the source (R563). -/
def State.vepFor? (s : State) (f : Frame) : Option Nat := s.vepWith? f.dest f.src

/-- The descriptor keeps Table MOVER-1 and fits its ring (R522, R562). -/
def State.descOk (s : State) (d : Desc) : Bool :=
  let rx := s.on (.ring d.ring) .MOVER_RING_CFG_KIND
  bits d.raw 20 16 == 0 && bits d.raw 63 56 == 0 && bits d.raw 255 192 == 0 && d.srcType ≤ 2 && d.dstType ≤ 2 &&
    (match d.op with
     | 0 => d.src == 0 && (!rx || d.dstType == 0)
     | 1 => !rx && 1 ≤ d.len &&
        (match s.vepTx? d.ring with
         | none => true
         | some v => d.srcType == 0 && d.dstType == 0 && d.dst == 0 && 14 ≤ d.len &&
             d.len + 4 ≤ s.rd (.bridge 2) .BRIDGE_VEP_CFG_MTU v)
     | 2 => rx && d.dstType == 0 && d.src == 0 && 64 ≤ d.len && d.len ≤ 16384 && d.len % 64 == 0
     | _ => false)

/-- Change the open descriptor of a ring. -/
def modDesc (n slot : Nat) (f : Desc → Desc) : Upd :=
  modDescs fun l => l.map fun d => if d.ring == n && d.slot == slot then f d else d

/-- The open descriptor of a ring. -/
def State.openDesc? (s : State) (n : Nat) : Option Desc := s.descs.find? fun d => d.ring == n && d.opened

/-! ### Targets (Table MOVER-2) -/

/-- Where a request of a ring goes: its egress copies, or none when the FEID decides, the FEID asked, the address, class, RETAIN,
the group of a multicast window, and whether it goes to the owner's own host. -/
structure MoverTarget where
  host : Bool
  dest : Nat
  group : Option Nat
  addr : Nat
  cls : Nat
  retain : Bool

/-- A type-`ty` address of ring `n` for an access of `len` bytes, or the miss cause (R521). -/
def State.target (s : State) (n ty : Nat) (kind : TlpKind) (a len : Nat) : Except Nat MoverTarget :=
  let f := s.ringFace n
  let feid := s.ringFeid n
  let viaPlate := fun (fab : Nat) =>
    match s.idRoute? s.live feid with
    | none => Except.error missNO_SOURCE
    | some r => match s.stage2 r.part kind fab len with
      | .error c => Except.error c
      | .ok x => Except.ok ⟨false, x.dest, x.group, x.addr, x.cls, x.retain⟩
  match ty with
  | 0 =>
    let face := (s.faceFeid? f).getD 0
    .ok ⟨true, face, none, a, ((s.idRoute? s.live face).map (·.cls)).getD 0, false⟩
  | 1 => match s.translate f a len with
    | none => .error missFACE_MISS
    | some fab => if 2 ^ 56 ≤ fab then .error missADDR_HIGH else viaPlate fab
  | _ => if 2 ^ 56 ≤ a then .error missADDR_HIGH else viaPlate a

/-- The miss of a ring's request to a type-`ty` address. -/
def ringMiss (n ty cause req a len : Nat) : Upd := look fun s =>
  let fab := if ty == 1 then (s.translate (s.ringFace n) a len).getD a else a
  all [when_ (missNO_WINDOW ≤ cause) countIngress,
       miss ⟨cause, s.live, s.facePort (s.ringFace n), req, s.ringFeid n, s.missAddr cause fab, .feid (s.ringFeid n), none⟩]

/-- A request that the part makes from `i` enters CORE toward the host of face `f`: GUARD answers it while the face is contained,
and it is refused while the face is in RESET (R304). -/
def toHost (i : Ing) (f : Nat) (g : Frame) (vi : Option Nat) : Upd := look fun s =>
  if s.contained (.face f) then answerUnreachable g
  else if s.faceLive f then offer i g [.port (s.facePort f)] vi true
  else refuseInReset f g

/-- A request of the Data Mover, through engine `e`, toward the host of its own face. -/
def toOwnHost (f e : Nat) (g : Frame) (vi : Option Nat) : Upd := toHost (.mover e) f g vi

/-- A request of ring `n` enters CORE: toward the owner's own host on the face's link, or where its FEID or group lies. -/
def ringSend (n : Nat) (x : MoverTarget) (t : Tlp) (tag : Option Nat) : Upd := look fun s =>
  let f := s.ringFace n
  let e := s.ringEngine n
  let g : Frame := { s.inner x.dest x.cls 0 t.bytes (.tlp t) with
    src := s.ringFeid n, retain := x.retain && !x.host, tag := tag.getD 0, tagValid := tag.isSome,
    tagEp := (match tag with
      | some k => s.tagEpoch f true k
      | none => false),
    mc := x.group.isSome, group := x.group.getD 0 }
  if x.host then toOwnHost f e g (s.ringVi n)
  else match x.group with
    | some k => all [countIngress, if s.groupValid k then offer (.mover e) g (s.members k (.mover e)) (s.ringVi n) true
        else raise (.core 0) .CORE_MC_INVALID]
    | none => deliver (.mover e) g (s.ringVi n) true

/-- The requester ID of a face's service endpoint: device 0 on VDP0's secondary bus. -/
def State.seRid (s : State) (f : Nat) : Nat := 256 * s.iv .secBus (4096 * f + 1)

/-- The header of a ring's request: 3 or 4 dwords, and a PASID prefix toward the host of an instance. -/
def State.ringHdr (s : State) (n : Nat) (x : MoverTarget) : Nat :=
  (if x.addr < 2 ^ 32 then 12 else 16) + (if x.host && (s.ringVi n).isSome then 4 else 0)

/-- A memory write of ring `n`. -/
def State.ringWrTlp (s : State) (n : Nat) (x : MoverTarget) (len : Nat) (ws : List Word) (rlx : Bool) : Tlp :=
  { kind := .memWr, hdr := s.ringHdr n x, addr := BitVec.ofNat 64 x.addr, len := len,
    rid := BitVec.ofNat 16 (s.seRid (s.ringFace n)), tag := 0, ep := false, ro := rlx, ido := false, locked := false, stat := .sc,
    cid := 0, low := 0, words := ws }

/-- A memory read of ring `n`. -/
def State.ringRdTlp (s : State) (n : Nat) (x : MoverTarget) (len tag : Nat) : Tlp :=
  { s.ringWrTlp n x len [] false with kind := .memRd, tag := BitVec.ofNat 14 tag }

/-- The FEIDs at the member ports of a group, whose paths a multicast write takes: one at each port of this switch that has an ID
route of a device or a host. -/
def State.groupFeids (s : State) (k e : Nat) : List Nat :=
  (s.members k (.mover e)).filterMap fun d => match d with
    | .self => none
    | .port q => ((s.idRoutes s.live).find? fun r => r.2.isLocal && r.2.port == q && (r.2.kind == kindDevice || r.2.kind == kindFace)).map (·.1)

/-- What a posted write of ring `n` is noted under: its FEID, 8,192 for the own host, or those of its group. -/
def State.writeKeys (s : State) (n : Nat) (x : MoverTarget) : List Nat :=
  match x.group with
  | none => [if x.host then 8192 else x.dest]
  | some g => s.groupFeids g (s.ringEngine n)

/-- A posted write left the ring: its destinations are kept for the flushes that may follow (R295, R503, R520, R525). -/
def noteWrite (n : Nat) (x : MoverTarget) : Upd := look fun s =>
  forEach (s.writeKeys n x) fun k =>
    all [noteIn .ringWrote n k x.addr, (match s.ringVi n with
      | some v => noteIn .viWrote v k x.addr
      | none => noteIn .faceWrote (s.ringFace n) k x.addr)]

/-- The target of a flush read toward a noted destination. -/
def State.flushTarget (s : State) (n : Nat) (e : Nat × Nat) : MoverTarget :=
  let host := e.1 == 8192
  let face := (s.faceFeid? (s.ringFace n)).getD 0
  let r := s.idRoute? s.live (if host then face else e.1)
  ⟨host, if host then face else e.1, none, e.2, (r.map (·.cls)).getD 0, (r.map (·.retain)).getD false⟩

/-! ### Records and interrupts (R529 to R531) -/

/-- The vector of a ring's interrupt. -/
def State.ringVector (s : State) (n : Nat) : Nat :=
  let v := s.rd (.ring n) .MOVER_RING_CPL_CTRL_VECTOR
  match s.ringVi n with
  | none => v
  | some i => s.rd (.inst 3) .INST_VI_CFG_CFG2_VEC_BASE i + v

/-- The ring fires at most once per COAL_US (R531). -/
def ringFire (n : Nat) : Upd := look fun s =>
  if s.ivOn .coalOn n then put .coalDue 1 n
  else all [msixFire (s.ringFace n) (s.ringVector n), when_ (s.on (.ring n) .MOVER_RING_CPL_CTRL_COAL_US) (put .coalOn 1 n)]

/-- COALESCE_EXPIRY. -/
def execCoalesceExpiry (n : RingId) : State → Answer := Upd.answer <| look fun s =>
  when_ (s.ivOn .coalOn n) <|
    all [put .coalOn 0 n, when_ (s.ivOn .coalDue n) (all [put .coalDue 0 n, ringFire n])]

/-- A completion record is written at CPL_TAIL (Table MOVER-3). -/
def putRecord (n status bufs cookie done index epoch : Nat) (irq : Bool) : Upd := look fun s =>
  let tail := s.rd (.ring n) .MOVER_RING_CPL_TAIL_CPL_TAIL
  let phase := s.rd (.ring n) .MOVER_RING_CPL_TAIL_PHASE
  let fifo := s.on (.ring n) .MOVER_RING_CPL_CTRL_MODE
  let d0 := (if fifo then 1 else phase) <<< 31 + status <<< 27 + (bufs % 32) <<< 16 + cookie
  let rec_ := d0 + (done % 2 ^ 24) <<< 32 + (index % 65536) <<< 64 + (epoch % 65536) <<< 96
  let last := tail + 1 == s.ringSize n
  let x : MoverTarget := ⟨true, (s.faceFeid? (s.ringFace n)).getD 0, none, s.cplBase n + 16 * tail, 0, false⟩
  all [if fifo then push .cplFifo rec_ n
       else all [ringSend n { x with cls := ((s.idRoute? s.live x.dest).map (·.cls)).getD 0 }
                   (s.ringWrTlp n x 16 ((List.range 4).map fun k => word (dword rec_ k)) false) none, noteWrite n x],
       wr (.ring n) .MOVER_RING_CPL_TAIL_CPL_TAIL (if last then 0 else tail + 1),
       when_ last (wr (.ring n) .MOVER_RING_CPL_TAIL_PHASE (1 - phase)),
       when_ ((irq || status != 0) && s.on (.ring n) .MOVER_RING_CPL_CTRL_IRQ_EN) (ringFire n)]

/-- HEAD goes on by `k` slots. -/
def advanceHead (n k : Nat) : Upd := look fun s =>
  wr (.ring n) .MOVER_RING_HEAD_HEAD ((s.rd (.ring n) .MOVER_RING_HEAD_HEAD + k) % s.ringSize n)

/-- STATUS codes (Table MOVER-4). -/
def dsSRC_MISS : Nat := 1
def dsDST_MISS : Nat := 2
def dsRD_UR : Nat := 3
def dsRD_TIMEOUT : Nat := 4
def dsPOISON : Nat := 5
def dsFIELD : Nat := 6
def dsNO_PASID : Nat := 7
def dsABORTED : Nat := 8
def dsENG_FAULT : Nat := 9

/-- The slots that a descriptor's reads and flushes hold become ABANDONED (R292, R535). -/
def abandonDesc (d : Desc) : Upd := look fun s =>
  let f := s.ringFace d.ring
  abandon fun x => x.face == f && x.req && ((d.segs.any fun g => g.tag == x.tag) || d.flushTags.contains x.tag)

/-- A ring's fetch in progress is given up: its slot becomes ABANDONED. -/
def dropFetch (n : Nat) : Upd := look fun s =>
  all [when_ (s.ivOn .fetchTag n) (abandon fun x => x.face == s.ringFace n && x.req && x.tag + 1 == s.iv .fetchTag n),
       put .fetchTag 0 n, put .fetchN 0 n]

/-- The descriptors of a ring are dropped without a record (step 2 of R503). -/
def dropDescs (n : Nat) : Upd := look fun s =>
  all [forEach (s.ringDescs n) abandonDesc, modDescs fun l => l.filter fun d => d.ring != n, dropFetch n]

/-- The descriptors fetched and not open are dropped: fetching starts again at HEAD. -/
def refetch (n : Nat) : Upd := look fun s =>
  all [modDescs fun l => l.filter fun d => d.ring != n || d.opened,
       put .fetchAt ((s.rd (.ring n) .MOVER_RING_HEAD_HEAD + b2n (s.openDesc? n).isSome) % s.ringSize n) n, dropFetch n]

/-- A failed descriptor ends with its record. An engine's fault halts no ring (R539). -/
def descEnds (d : Desc) (status : Nat) : Upd := look fun s =>
  let n := d.ring
  all [modDescs fun l => l.filter fun e => !(e.ring == n && e.slot == d.slot),
       putRecord n status 1 d.cookie d.written d.slot d.epoch d.irq, advanceHead n 1,
       wr (.ring n) .MOVER_RING_STAT_LAST_STATUS status, wr (.ring n) .MOVER_RING_STAT_LAST_INDEX d.slot,
       bump (.eng (s.ringEngine n)) 1, raise .moverg .MOVER_DESC_ERR,
       when_ (s.on (.ring n) .MOVER_RING_CFG_STOP_ON_ERR && status != dsABORTED && status != dsENG_FAULT && s.ringSt n != rsDISABLED)
         (all [wr (.ring n) .MOVER_RING_STAT_STATE rsHALTED, refetch n])]

/-- DESCRIPTOR_ERROR (R535): the first failure of a descriptor. It issues nothing more; its record waits while the owner may not
issue it (R292). -/
def descFails (d : Desc) (status : Nat) : Upd := look fun s =>
  all [abandonDesc d,
       if s.recordMayGo d.ring then descEnds d status
       else modDesc d.ring d.slot fun e =>
         { e with opened := true, failed := status, issued := e.written, segs := [], data := [], toFlush := [], flushTags := [] }]

/-- The records that waited are written. -/
def endFailed (e : Nat) : Upd := look fun s =>
  forEach (s.descs.filter fun d => d.failed != 0 && s.ringEngine d.ring == e && s.recordMayGo d.ring) fun d => descEnds d d.failed

/-! ### Copies (R523 to R527) -/

/-- MRRS and MPS of a request (R523). -/
def State.moverMrrs (s : State) (f : Nat) (host : Bool) : Nat :=
  let g := sizeOf (min 5 (s.rd .moverg .MOVER_GLB_CFG_MRRS))
  if host then min g (sizeOf (s.iv .seMrrs f ^^^ 2)) else g
def State.moverMps (s : State) (f : Nat) (host : Bool) : Nat :=
  let g := sizeOf (min 5 (s.rd .moverg .MOVER_GLB_CFG_MPS))
  if host then min g (sizeOf (s.iv .seMps f)) else g

/-- Bytes of read buffer and reads outstanding of engine `e` (R524). -/
def State.engDescs (s : State) (e : Nat) : List Desc := s.descs.filter fun d => d.opened && s.ringEngine d.ring == e
def State.engBuffer (s : State) (e : Nat) : Nat := ((s.engDescs e).map fun d => d.issued - d.written).sum
def State.engReads (s : State) (e : Nat) : Nat := ((s.engDescs e).map fun d => (d.segs.filter fun g => g.got.length < g.n).length).sum

/-- The length of the next read of a descriptor. -/
def State.readLen (s : State) (d : Desc) : Nat :=
  min (d.len - d.issued) (min (s.moverMrrs (s.ringFace d.ring) (d.srcType == 0)) (4096 - (d.src + d.issued) % 4096))

/-- The descriptor can issue a read now. -/
def State.canRead (s : State) (d : Desc) : Bool :=
  let e := s.ringEngine d.ring
  d.opened && d.failed == 0 && d.op == 1 && d.issued < d.len && s.ringMayReach d.ring d.srcType && (s.ringTag? d.ring (d.srcType == 0)).isSome &&
    s.engReads e < 256 && s.engBuffer e + s.readLen d ≤ 131072

/-- The next read of a descriptor goes out. -/
def issueRead (d : Desc) : Upd := look fun s =>
  let n := d.ring
  let f := s.ringFace n
  let a := d.src + d.issued
  let k := s.readLen d
  match s.target n d.srcType .memRd a k with
  | .error c => all [ringMiss n d.srcType c 0 a k, descFails d dsSRC_MISS]
  | .ok x => forSome (s.ringTag? n x.host) fun tag =>
    all [takeSlot ⟨f, true, tag, slBUSY, s.ringWho n, false, s.seRid f, tag, tag, false, x.dest, x.host, 0, false⟩,
         modDesc n d.slot fun e => { e with issued := e.issued + k, segs := e.segs ++ [⟨d.issued, k, tag, []⟩] },
         ringSend n x (s.ringRdTlp n x k tag) (some tag)]

/-- The length of the next write of a descriptor. -/
def State.writeLen (s : State) (d : Desc) : Nat :=
  min (d.len - d.written) (min (s.moverMps (s.ringFace d.ring) (d.dstType == 0)) (4096 - (d.dst + d.written) % 4096))

/-- The bytes read in order are written out, each write once its bytes are there. -/
def drain (n slot : Nat) : Nat → Upd
  | 0 => skip
  | fuel + 1 => look fun s =>
    forSome (s.descs.find? fun d => d.ring == n && d.slot == slot && d.opened && d.failed == 0) fun d =>
      let k := s.writeLen d
      let a := d.dst + d.written
      when_ (0 < k && k ≤ d.data.length && s.ringMayReach n d.dstType) <|
        match s.target n d.dstType .memWr a k with
        | .error c => all [ringMiss n d.dstType c 1 a k, descFails d dsDST_MISS]
        | .ok x =>
          all [modDesc n slot fun e =>
                 let ds := (s.writeKeys n x).foldl (fun l j => noteDest l j x.addr) e.dests
                 { e with written := e.written + k, data := e.data.drop k, dests := ds },
               addCnt (.eng (s.ringEngine n)) 3 k, noteWrite n x,
               ringSend n x (s.ringWrTlp n x k (packWords a (d.data.take k)) d.rlx) none, drain n slot fuel]

/-- ECT of an Ethernet frame's IP header (R338), from its bytes without FCS. -/
def ectOf (bs : List Byte) : Bool :=
  let b := fun k => (bs.getD k 0).toNat
  let at_ := if b 12 == 0x81 && b 13 == 0 then 16 else 12
  let ty := 256 * b at_ + b (at_ + 1)
  let ecn := if ty == 0x0800 then b (at_ + 3) % 4 else if ty == 0x86DD then b (at_ + 3) / 16 % 4 else 0
  ecn == 1 || ecn == 2

/-- A VEP sends the frame that its descriptor has read: padded to 60 bytes, with its FCS (R561, R562). -/
def vepSend (v : Nat) (d : Desc) : Upd := look fun s =>
  let n := max 60 d.len + 4
  let r := s.idRoute? s.live (s.rd (.bridge 2) .BRIDGE_VEP_CFG_PEER v)
  let g : Frame := { s.inner (s.rd (.bridge 2) .BRIDGE_VEP_CFG_PEER v) (s.rd (.bridge 2) .BRIDGE_VEP_CFG_CLASS v) 1 n
      (.eth ⟨n, true, ectOf d.data, false⟩) with
    src := s.rd (.bridge 2) .BRIDGE_VEP_CFG_OWNER v, retain := (r.map (·.retain)).getD false }
  all [deliver (.mover (s.ringEngine d.ring)) g (s.ringVi d.ring) true, bump (.bridge 2) (4 * v), addCnt (.bridge 2) (4 * v + 1) n,
       modDesc d.ring d.slot fun e => { e with written := e.len, data := [] }]

/-- A flush read of a descriptor goes out, behind its writes (R525). -/
def issueFlush (d : Desc) : Upd := look fun s =>
  let n := d.ring
  match d.toFlush with
  | [] => skip
  | e :: rest =>
    let x := s.flushTarget n e
    when_ (s.ringMayReach n (b2n !x.host)) <| forSome (s.ringTag? n x.host) fun tag =>
      all [takeSlot ⟨s.ringFace n, true, tag, slBUSY, s.ringWho n, true, s.seRid (s.ringFace n), tag, tag, false, x.dest, x.host, 0, false⟩,
           modDesc n d.slot fun y => { y with toFlush := rest, flushTags := y.flushTags ++ [tag] },
           ringSend n x (s.ringRdTlp n x 0 tag) (some tag)]

/-- A descriptor whose writes are out asks for its flushes when SYNC is set; a NOP flushes all that its ring has written. -/
def askFlush (d : Desc) : Upd := look fun s =>
  when_ (d.opened && d.failed == 0 && d.sync && !d.flushing && (d.op == 0 || d.written == d.len)) <|
    all [modDesc d.ring d.slot fun e =>
           let todo := if e.op == 0 then (s.fifo .ringWrote d.ring).map unpackDest else e.dests
           { e with flushing := true, toFlush := todo },
         when_ (d.op == 0) (putFifo .ringWrote [] d.ring)]

/-- A descriptor needs the PASID of its instance, and PASID Enable is clear (R495). -/
def State.wantsPasid (s : State) (d : Desc) : Bool :=
  d.failed == 0 && s.noPasid d.ring &&
    ((d.op == 1 && ((d.srcType == 0 && d.issued < d.len) || (d.dstType == 0 && (s.vepTx? d.ring).isNone && d.written < d.len))) ||
      d.toFlush.any fun e => e.1 == 8192)

/-- The next descriptor of an active ring opens: one for each ring, 16 for an engine (R518, R526). One that breaks its format or
needs a PASID that is off fails at once. -/
def openNext (n : Nat) : Upd := look fun s =>
  when_ ((s.ringSt n == rsACTIVE) && !s.ringQuiet n && (s.openDesc? n).isNone &&
      (s.engDescs (s.ringEngine n)).length < 16 && s.ringMayIssue n) <|
    forSome ((s.ringDescs n).head?) fun d =>
      if !s.descOk d then descFails d dsFIELD
      else if d.op == 2 then skip
      else all [modDesc n d.slot fun e => { e with opened := true },
                when_ (s.wantsPasid d) (descFails d dsNO_PASID)]

/-- The quantum of a ring's descriptor, in bytes (R526). -/
def State.ringQuantum (s : State) (n : Nat) : Nat :=
  match s.ringVi n with
  | some v => quantumOf (s.rd (.inst 1) .INST_SHARE_SHARE v)
  | none => quantumOf (s.rd .moverg .MOVER_GLB_CFG_FACE_QUANTUM)

/-- An engine's reads, chosen by deficit round robin among the open descriptors that can issue one (R526, R527). -/
def pumpReads (e : Nat) : Nat → Upd
  | 0 => skip
  | fuel + 1 => look fun s =>
    let ds := (s.engDescs e).filter fun d => s.canRead d
    let ms := (allBelow 4096 fun n => ds.any fun d => d.ring == n)
    let of := fun n => ds.find? fun d => d.ring == n
    let r := choose ms (fun n => ((of n).map s.readLen).getD 0) s.ringQuantum (s.iv .mePlace e)
      (ms.map fun n => (n, (s.iv .meDef n, s.iv .meQuant n)))
    when_ (!ds.isEmpty) <| forSome (of r.1) fun d =>
      all [forEach r.2 fun (m, v, q) => all [put .meDef (if m == r.1 then v - s.readLen d else v) m, put .meQuant q m],
           put .mePlace (2 * r.1 + 1) e, issueRead d, pumpReads e fuel]

/-- The bytes that a descriptor has read go out, as far as its owner may write them. -/
def writeOut (d : Desc) : Upd := look fun s =>
  match s.vepTx? d.ring with
  | none => drain d.ring d.slot (d.len + 1)
  | some v => forSome (s.openDesc? d.ring) fun e =>
      when_ (e.failed == 0 && e.op == 1 && e.written < e.len && e.data.length == e.len && s.ringMayIssue d.ring) (vepSend v e)

/-- An engine goes on: records that waited, then its rings open descriptors, its descriptors write, read, and flush. -/
def pump (e : Nat) : Upd := look fun s =>
  all [endFailed e, look fun t => forEach ((t.engDescs e).filter t.wantsPasid) fun d => descFails d dsNO_PASID,
       look fun t => forEach (t.engDescs e) writeOut,
       forEach ((s.descs.map (·.ring)).eraseDups.filter fun n => s.ringEngine n == e) openNext, pumpReads e 300,
       look fun t => forEach (t.engDescs e) askFlush,
       look fun t => forEach (t.engDescs e) fun d => forEach d.toFlush fun _ => look fun u =>
         forSome (u.descs.find? fun x => x.ring == d.ring && x.slot == d.slot) issueFlush]

/-- Bytes reach the read buffer; those in order are written out. -/
def moverReadCompletion (n off : Nat) (bytes : List Byte) : Upd := look fun s =>
  forSome (s.openDesc? n) fun d =>
    when_ (d.failed == 0 && d.segs.any fun g => g.off == off && g.got.length + bytes.length ≤ g.n) <|
      let segs := d.segs.map fun g => if g.off == off then { g with got := g.got ++ bytes } else g
      let ready := segs.takeWhile fun g => g.got.length == g.n
      all [addCnt (.eng (s.ringEngine n)) 2 bytes.length,
           modDesc n d.slot fun e => { e with segs := segs.drop ready.length, data := e.data ++ ready.flatMap (·.got) },
           writeOut d, pump (s.ringEngine n)]

/-- DESCRIPTOR_COMPLETE (R525, R529): the record is written, HEAD advances, and the next descriptor opens. -/
def execDescriptorComplete (n : RingId) : State → Answer := Upd.answer <| look fun s =>
  forSome (s.openDesc? n) fun d =>
    let e := s.ringEngine n
    let waits := s.slots.any fun x => x.face == s.ringFace n && x.req && x.flush && d.flushTags.contains x.tag
    when_ (d.failed == 0 && (d.op == 0 || d.written == d.len) && (!d.sync || d.flushing) && d.toFlush.isEmpty && !waits && s.recordMayGo n) <|
      all [modDescs fun l => l.filter fun x => !(x.ring == n.val && x.slot == d.slot),
           putRecord n 0 1 d.cookie (if d.op == 0 then 0 else d.written) d.slot d.epoch d.irq, advanceHead n 1, bump (.eng e) 0, pump e]

/-- DESCRIPTOR_ERROR. -/
def execDescriptorError (n : RingId) (cause : Fin 3) : State → Answer := Upd.answer <| look fun s =>
  forSome (s.openDesc? n) fun d => when_ (d.failed == 0) (all [descFails d (dsRD_UR + cause), pump (s.ringEngine n)])

/-! ### Packets for receive rings (R532 to R534) -/

/-- The packets that wait in CORE for RX ring `n`, whole, oldest first: those of the VEPs that name it. -/
def State.rxWaiting (s : State) (n : Nat) : List Pkt :=
  s.buf.filter fun k => k.tailIn && k.isEth && (k.copies.any fun c => c.dst == .self) &&
    (s.vepFor? k.frame).any fun v => s.rd (.bridge 2) .BRIDGE_VEP_CFG_RX_RING v == n

/-- The buffers posted and fetched at the head of an RX ring. -/
def State.rxBufs (s : State) (n : Nat) : List Desc :=
  (s.ringDescs n).takeWhile fun d => d.op == 2 && s.descOk d

/-- How many buffers a packet of `len` bytes takes; none when those given cannot hold it. -/
def buffersFor (len : Nat) : List Desc → Option Nat
  | [] => if len == 0 then some 0 else none
  | d :: rest => if len ≤ d.len then some 1 else (buffersFor (len - d.len) rest).map (· + 1)

/-- The length of the packet in a frame, without its FCS. -/
def Pkt.ethLen (k : Pkt) : Nat :=
  match k.frame.body with
  | .eth e => e.len - 4
  | _ => 0

/-- The part's own copy of a frame is consumed. -/
def consumeSelf (id : Nat) : Upd :=
  all [modBuf fun b => (b.map fun k => if k.id == id then k.without .self else k).filter fun k => !k.copies.isEmpty, coreWatch]

/-- Posted buffers of ring `n` are still to be fetched. -/
def State.rxMore (s : State) (n : Nat) : Bool := s.ringSt n == rsACTIVE && 0 < s.fetchCount n

/-- A whole and good packet has come for VEP `v` (R534): one that no buffers can hold is dropped when its class is lossy and no
posted buffer is still to come, or when 16 buffers could never hold it; another waits in CORE for RX_PACKET_COMMIT. -/
def rxArrived (v : Nat) (k : Pkt) : Upd := look fun s =>
  let n := s.rd (.bridge 2) .BRIDGE_VEP_CFG_RX_RING v
  let before := (s.rxWaiting n).takeWhile fun x => x.id != k.id
  let left := before.foldl (fun (l : List Desc) x => l.drop ((buffersFor x.ethLen (l.take 16)).getD 0)) (s.rxBufs n)
  let short := (buffersFor k.ethLen (left.take 16)).isNone
  let drop_ := fun (e : Err) =>
    all [consumeSelf k.id, bump (.eng (s.ringEngine n)) 6, bump (.bridge 2) (4 * v + 3), raise .moverg e]
  if 16 * 16384 < k.ethLen || (16 ≤ left.length && short) then drop_ .MOVER_RX_OVERSIZE
  else when_ (k.lossy && short && !s.rxMore n) (drop_ .MOVER_RX_NOBUF)

/-- The buffers of RX ring `n` have changed: the packets that wait for them are judged again. -/
def rxSettle (n : Nat) : Upd := look fun s =>
  forEach (s.rxWaiting n) fun k => forSome (s.vepFor? k.frame) fun v => rxArrived v k

/-- A packet for VEP `v` turned bad before its commit (R533). -/
def rxRewind (v id : Nat) : Upd := look fun s =>
  all [consumeSelf id, bump (.eng (s.ringEngine (s.rd (.bridge 2) .BRIDGE_VEP_CFG_RX_RING v))) 5]

/-- The packet that is being written into the buffers of ring `n` is rewound (Table MOVER-5). -/
def rxStop (n : Nat) : Upd := look fun s =>
  forSome (s.rxWaiting n).head? fun k => forSome (s.vepFor? k.frame) fun v =>
    when_ (s.ringSt n == rsACTIVE && (buffersFor k.ethLen ((s.rxBufs n).take 16)).isSome) (rxRewind v k.id)

/-! ### Fetching (R519, R536) -/

/-- DESCRIPTOR_FETCH. -/
def execDescriptorFetch (n : RingId) : State → Answer := Upd.answer <| look fun s =>
  let f := s.ringFace n
  let k := s.fetchCount n
  let x : MoverTarget := ⟨true, (s.faceFeid? f).getD 0, none, s.ringBase n + 32 * s.iv .fetchAt n, 0, false⟩
  when_ (s.ringSt n == rsACTIVE && s.on (.ring n) .MOVER_RING_CFG_ENABLE && !s.ringQuiet n &&
      s.ringToHost n && s.iv .fetchTag n == 0 && 0 < k) <|
    forSome (s.ringTag? n true) fun tag =>
      all [takeSlot ⟨f, true, tag, slBUSY, s.ringWho n, false, s.seRid f, tag, tag, false, x.dest, true, 0, false⟩,
           put .fetchTag (tag + 1) n, put .fetchN k n,
           ringSend n { x with cls := ((s.idRoute? s.live x.dest).map (·.cls)).getD 0 } (s.ringRdTlp n x (32 * k) tag) (some tag)]

/-- DESCRIPTOR_FETCH_COMPLETE: the descriptors are held with the owner's epoch; a failed fetch halts the ring. -/
def execDescriptorFetchComplete (n : RingId) (descs : Option (List (BitVec 256))) : State → Answer := Upd.answer <| look fun s =>
  let epoch := (match s.ringVi n with
    | some v => s.rd (.inst 2) .INST_STAT_EPOCH v
    | none => 0)
  when_ (s.ivOn .fetchTag n) <|
    match descs with
    | none => all [put .fetchTag 0 n, put .fetchN 0 n, wr (.ring n) .MOVER_RING_STAT_STATE rsHALTED, raise .moverg .MOVER_FETCH_ERR,
        rxSettle n]
    | some l =>
      let got := l.take (s.iv .fetchN n)
      all [modDescs (· ++ got.zipIdx.map fun (r, i) => Desc.fetched n ((s.iv .fetchAt n + i) % s.ringSize n) r.toNat epoch),
           put .fetchAt ((s.iv .fetchAt n + got.length) % s.ringSize n) n, put .fetchTag 0 n, put .fetchN 0 n,
           pump (s.ringEngine n), rxSettle n]

/-- A write of `v` to MOVER_RING_TAIL. -/
def ringTailWrite (st : Stamp) (n v : Nat) : Upd := plainWrite st (.ring n) 0x14 v

/-- RING_TAIL_WRITE. -/
def execRingTailWrite (st : Stamp) (n : RingId) (v : Word) : State → Answer := Upd.answer <|
  granted st (.ring n) 0x14 (ringTailWrite st n v.toNat)

/-- RING_RESUME: a HALTED ring fetches again from HEAD. -/
def ringResume (n : Nat) : Upd := look fun s =>
  when_ (s.ringSt n == rsHALTED) (all [refetch n, wr (.ring n) .MOVER_RING_STAT_STATE rsACTIVE])

/-- RING_RESUME. -/
def execRingResume (st : Stamp) (n : RingId) : State → Answer := Upd.answer <| granted st (.ring n) 4 (ringResume n)

/-! ### Ring configuration (R515 to R517, R537) -/

/-- The engine serves rings. -/
def State.engOn (s : State) (e : Nat) : Bool := s.on (.eng e) .MOVER_ENG_CTRL_ENABLE && !s.on (.eng e) .MOVER_ENG_STAT_FAULTED

/-- The rings of an instance, in ascending order (R516). -/
def State.viRings (s : State) (v : Nat) : List Nat := allBelow 4096 fun n => s.ringVi n == some v

/-- What R515 refuses of a write of `v` to MOVER_RING_CFG. -/
def State.ringRefused (s : State) (n v : Nat) : Bool :=
  let kind := bits v 23 22
  let size := bits v 28 24
  let en := s.on (.ring n) .MOVER_RING_CFG_ENABLE
  (kind == 2 && s.ringVi n != some (bits v 21 12) && 16 ≤ (s.viRings (bits v 21 12)).length) ||
    (en && (kind != s.ringKind n || bits v 21 12 != s.ringOwner n || bits v 30 30 != s.rd (.ring n) .MOVER_RING_CFG_KIND ||
      size != s.rd (.ring n) .MOVER_RING_CFG_SIZE_LOG2)) ||
    size < 4 || 16 < size || !s.engOn (bits v 11 6) || (v.testBit 31 && (kind == 0 || kind == 3))

/-- A change that breaks what a locked TDI was promised (R510). -/
def tdiBreach (v : Nat) : Upd := look fun s =>
  let t := s.rd (.inst 2) .INST_STAT_TDI v
  when_ (t == 1 || t == 2) (all [wr (.inst 2) .INST_STAT_TDI 3 v, wr (.inst 2) .INST_STAT_FENCED 1 v])

/-- The engine's fetching of the ring moves to another engine; a ring that is halted or fenced stays so. -/
def startRehome (n old : Nat) : Upd := look fun s =>
  if s.ringSt n != rsACTIVE && s.ringSt n != rsREHOMING then bump (.eng old) 8
  else all [wr (.ring n) .MOVER_RING_STAT_STATE rsREHOMING, when_ (!s.ivOn .rehome n) (put .rehome (old + 1) n)]

/-- A write of `v` to MOVER_RING_CFG; through a tenant window OWN_KIND, OWNER and ENGINE keep their values. -/
def ringCfgWrite (st : Stamp) (n : Nat) (tenant : Bool) (v : Nat) : Upd := look fun s =>
  let old := s.rd (.ring n) .MOVER_RING_CFG_ENGINE
  let was := s.on (.ring n) .MOVER_RING_CFG_ENABLE
  let w := if tenant then (v >>> 24) <<< 24 + s.ringKind n <<< 22 + s.ringOwner n <<< 12 + old <<< 6 else v
  let now := w.testBit 31
  let moved := s.ringKind n != bits w 23 22 || s.ringOwner n != bits w 21 12
  if s.ringRefused n w then raise .moverg .MOVER_RING_REFUSED
  else all [when_ moved (forSome (s.ringVi n) tdiBreach),
            when_ (was && !now) (all [forSome (s.openDesc? n) fun d => when_ (d.failed == 0) (descFails d dsABORTED), refetch n]),
            when_ (now && !was) (dropDescs n),
            plainWrite st (.ring n) 0 w,
            look fun t => when_ moved (forSome (t.ringVi n) tdiBreach),
            if now && !was then
              all [wr (.ring n) .MOVER_RING_HEAD_HEAD 0, wr (.ring n) .MOVER_RING_TAIL_TAIL 0, wr (.ring n) .MOVER_RING_CPL_HEAD_CPL_HEAD 0,
                   wr (.ring n) .MOVER_RING_CPL_TAIL_CPL_TAIL 0, wr (.ring n) .MOVER_RING_CPL_TAIL_PHASE 1, put .fetchAt 0 n,
                   put .rehome 0 n, wr (.ring n) .MOVER_RING_STAT_STATE rsACTIVE]
            else if was && !now then all [wr (.ring n) .MOVER_RING_STAT_STATE rsDISABLED, put .rehome 0 n, rxSettle n]
            else when_ (now && bits w 11 6 != old) (startRehome n old)]

/-- RING_CFG_WRITE. -/
def execRingCfgWrite (st : Stamp) (n : RingId) (tenant : Bool) (v : Word) : State → Answer := Upd.answer <|
  granted st (.ring n) 0 (ringCfgWrite st n tenant v.toNat)

/-- RING_REHOME. -/
def execRingRehome (st : Stamp) (n : RingId) (v : Word) : State → Answer := Upd.answer <|
  granted st (.ring n) 0 (ringCfgWrite st n false v.toNat)

/-- REHOME_DONE (R537): the new engine goes on from HEAD. -/
def execRehomeDone (n : RingId) : State → Answer := Upd.answer <| look fun s =>
  when_ (s.ringSt n == rsREHOMING && (s.openDesc? n).isNone) <|
    all [bump (.eng (s.ringEngine n)) 8, refetch n, put .rehome 0 n, wr (.ring n) .MOVER_RING_STAT_STATE rsACTIVE]

/-- A write to MOVER_RING_BASE, MOVER_RING_CPL_BASE or MOVER_RING_CPL_CTRL, refused under R515; `u` acts on its fields. -/
def ringGuarded (n : Nat) (refused : Bool) (u : Upd) : Upd := look fun s =>
  if refused && s.on (.ring n) .MOVER_RING_CFG_ENABLE then raise .moverg .MOVER_RING_REFUSED else u

/-- A write of `v` to MOVER_RING_CPL_CTRL: MODE is fixed while the ring is enabled, VECTOR lies in the owner's range. -/
def cplCtrlWrite (st : Stamp) (n v : Nat) : Upd := look fun s =>
  let limit := (match s.ringVi n with
    | some i => 2 ^ s.rd (.inst 3) .INST_VI_CFG_CFG2_VEC_LOG2 i
    | none => 2048)
  if (s.on (.ring n) .MOVER_RING_CFG_ENABLE && bits v 31 31 != s.rd (.ring n) .MOVER_RING_CPL_CTRL_MODE) || limit ≤ v % 2048 then
    raise .moverg .MOVER_RING_REFUSED
  else plainWrite st (.ring n) 0x20 v

/-! ### Receiving packets (R532) -/

/-- The writes of a packet of `len` bytes into the buffers. -/
def rxWrites (n : Nat) : Nat → List Desc → Upd
  | _, [] => skip
  | len, d :: rest => look fun s =>
    let f := s.ringFace n
    let k := min len d.len
    let ps := parts (s.moverMps f true) (k / s.moverMps f true + 2) d.dst k
    all [forEach ps fun (a, m) =>
           let x : MoverTarget := ⟨true, (s.faceFeid? f).getD 0, none, a, 0, false⟩
           all [ringSend n { x with cls := ((s.idRoute? s.live x.dest).map (·.cls)).getD 0 } (s.ringWrTlp n x m [] d.rlx) none, noteWrite n x],
         rxWrites n (len - k) rest]

/-- RX_PACKET_COMMIT: the oldest packet for the ring is written into posted buffers, with one record. -/
def execRxPacketCommit (n : RingId) : State → Answer := Upd.answer <| look fun s =>
  forSome (s.rxWaiting n).head? fun k =>
    let len := k.ethLen
    let e := s.ringEngine n
    when_ (s.ringSt n == rsACTIVE && !s.ringQuiet n && s.ringToHost n) <|
      forSome (buffersFor len ((s.rxBufs n).take 16)) fun m =>
        let used := (s.rxBufs n).take m
        forSome used.head? fun d =>
          all [rxWrites n len used, modDescs fun l => l.filter fun x => !(x.ring == n.val && used.any fun u => u.slot == x.slot),
               putRecord n 0 m d.cookie len d.slot d.epoch (used.any (·.irq)), advanceHead n m,
               addCnt (.eng e) 3 len, bump (.eng e) 4, modIv .meDef (· - len) n, forSome (s.vepFor? k.frame) fun v => bump (.bridge 2) (4 * v + 2),
               consumeSelf k.id, pump e]

/-! ### Engines (R537 to R539) -/

/-- The rings that name engine `e`. -/
def State.engRings (s : State) (e : Nat) : List Nat :=
  allBelow 4096 fun n => s.ringKind n != 0 && s.ringKind n != 3 && s.rd (.ring n) .MOVER_RING_CFG_ENGINE == e

/-- A write of `v` to MOVER_ENG_CTRL (R538). Work lost with a disabled engine (R38) leaves no GUARD record: R628 lists no type
for it (DEDUCED, log entry 188). -/
def engCtrlWrite (st : Stamp) (e v : Nat) : Upd := look fun s =>
  if !v.testBit 31 && s.on (.eng e) .MOVER_ENG_CTRL_ENABLE && !(s.engRings e).isEmpty then raise .moverg .MOVER_RING_REFUSED
  else plainWrite st (.eng e) 0x100 v

/-- ENGINE_DISABLE. -/
def execEngineDisable (st : Stamp) (e : EngId) (v : Word) : State → Answer := Upd.answer <|
  granted st (.eng e) 0x100 (engCtrlWrite st e v.toNat)

/-- The engine that takes the rings of a failed one (R539). -/
def State.failover (s : State) (e : Nat) : Nat :=
  let f := s.rd (.eng e) .MOVER_ENG_CTRL_FAILOVER
  if f != e && s.engOn f then f
  else (((List.range 64).map fun k => (e + 1 + k) % 64).find? fun g => g != e && s.engOn g).getD f

/-- ENGINE_FAULT (R539): the engine is isolated, its rings move, and each open descriptor gets an ENG_FAULT record. -/
def execEngineFault (e : EngId) : State → Answer := Upd.answer <| look fun s =>
  let to_ := s.failover e
  let rings := allBelow 4096 fun n => s.rd (.ring n) .MOVER_RING_CFG_ENGINE == e.val && (s.ringKind n == 1 || s.ringKind n == 2)
  let leaving := allBelow 4096 fun n => s.iv .rehome n == e.val + 1
  all [wr (.eng e) .MOVER_ENG_STAT_FAULTED 1, raise (.eng e) .ENG_ENG_FAULT,
       forEach rings fun n => wr (.ring n) .MOVER_RING_CFG_ENGINE to_ , forEach leaving fun n => put .rehome 0 n,
       forEach (s.engDescs e) fun d => when_ (d.failed == 0) (descFails d dsENG_FAULT),
       forEach (leaving ++ rings.filter fun n => !s.ivOn .rehome n) fun n =>
         all [refetch n, look fun t => when_ (t.ringSt n == rsREHOMING) (wr (.ring n) .MOVER_RING_STAT_STATE rsACTIVE)]]

/-- A block soft reset of an engine page ends: FAULTED and the read buffer are cleared, the assignments stay. -/
def engSoftReset (e : Nat) : Upd := wr (.eng e) .MOVER_ENG_STAT_FAULTED 0

/-- A ring's registers return to their reset values, but for its owner and engine. -/
def ringClear (n : Nat) (r : Rst) : Upd :=
  all [dropDescs n, resetPage (.ring n) r, put .rehome 0 n, put .fetchAt 0 n, put .meDef 0 n, put .coalOn 0 n, put .coalDue 0 n,
       putFifo .cplFifo [] n, putFifo .ringWrote [] n]

/-- The same, and the packets that waited for the ring's buffers are judged again. -/
def ringEnds (n : Nat) (r : Rst) : Upd := all [ringClear n r, rxSettle n]

/-- A block soft reset of the MOVER global page ends every open descriptor without a record and clears the rings. -/
def moverSoftReset : Upd := look fun s =>
  forEach (allBelow 4096 fun n => s.ringKind n != 0 || s.regs.any fun e => inPage (.ring n) e.1) fun n => ringEnds n .block

end Sys2Proof.Machine
end

