-- ==== Sys2Proof/Machine/Bridge.lean ====
section
/-! DEFINITION. Bridging (spec/15): prefetch entries, locked sequences and virtual Ethernet ports. -/

namespace Sys2Proof.Machine

/-! ### Prefetch (R551 to R554) -/

/-- The bytes of entries that leave unused are counted (R553). -/
def prefDiscard (p : Pref → Bool) : Upd := look fun s =>
  let n := ((s.prefs.filter fun e => p e && !e.used).map fun e => e.got.length).sum
  all [when_ (0 < n) (addCnt (.bridge 0) 0 n), modPrefs fun l => l.filter fun e => !p e]

/-- The block of a prefetch. -/
def State.prefBlock (s : State) : Nat := 2 ^ max 9 (min 12 (s.rd (.bridge 0) .BRIDGE_PF_CTRL_BLOCK_LOG2))

/-- The bytes by which a read of `len` bytes at fabric address `a` is extended. -/
def State.prefExtra (s : State) (a len : Nat) : Nat :=
  let e := a + len
  (s.prefBlock - e % s.prefBlock) % s.prefBlock

/-- A full entry of face `f` that holds the whole of a read. -/
def State.prefHit? (s : State) (f a len : Nat) : Option Pref :=
  s.prefs.find? fun e => e.face == f && e.base ≤ a && a + len ≤ e.base + e.got.length

/-- The entry has answered a read. -/
def prefUse (e : Pref) : Upd :=
  all [bump (.bridge 0) 1, modPrefs fun l => l.map fun x => if x == e then { x with used := true } else x]

/-- A new entry, in the place of the oldest when the face's 32 are taken. -/
def prefNew (e : Pref) : Upd := look fun s =>
  let mine := s.prefs.filter fun x => x.face == e.face
  all [when_ (32 ≤ mine.length) (forSome mine.head? fun o => prefDiscard fun x => x == o),
       bump (.bridge 0) 2, modPrefs (· ++ [e])]

/-- A write or AtomicOp of a face discards the entries it overlaps. -/
def prefWrite (f a len : Nat) : Upd :=
  prefDiscard fun e => e.face == f && e.base < a + max 1 len && a < e.base + e.size

/-- PREFETCH_AGE_EXPIRY. -/
def execPrefetchAgeExpiry (f : FaceId) (k : Fin 32) : State → Answer := Upd.answer <| look fun s =>
  forSome ((s.prefs.filter fun e => e.face == f.val)[k.val]?) fun e => prefDiscard fun x => x == e

/-! ### Locked sequences (R556 to R560) -/

/-- The locked reads that wait in CORE for port `p` behind its holder. -/
def State.lockWaiters (s : State) (p : Nat) : List Pkt :=
  s.buf.filter fun k => (k.waitsFor p).isSome && k.frame.src != s.rd (.bridge 1) .BRIDGE_LOCK_STAT_HOLDER p &&
    (match k.frame.body with
     | .tlp t => t.kind == .memRd && t.locked
     | _ => false)

/-- A requester that holds the lock of another port of this switch (R558). -/
def State.locksElsewhere (s : State) (src p : Nat) : Bool :=
  (List.range 96).any fun q => q != p && s.on (.bridge 1) .BRIDGE_LOCK_STAT_LOCKED q && s.rd (.bridge 1) .BRIDGE_LOCK_STAT_HOLDER q == src

/-- The lock of port `p` ends with the port's containment: no waiting request is granted it (R560). -/
def lockClear (p : Nat) : Upd := all [wr (.bridge 1) .BRIDGE_LOCK_STAT_LOCKED 0 p, wr (.bridge 1) .BRIDGE_LOCK_STAT_HOLDER 0 p]

/-- The lock of port `p` ends, and the waiting request of the lowest FEID is granted (R559). -/
def lockEnd (p : Nat) : Upd := look fun s =>
  when_ (s.on (.bridge 1) .BRIDGE_LOCK_STAT_LOCKED p) <|
    let l := (s.lockWaiters p).map (·.frame.src)
    match l.min? with
    | none => lockClear p
    | some n => all [wr (.bridge 1) .BRIDGE_LOCK_STAT_HOLDER n p, bump (.bridge 0) 5]

/-- Every lock that FEID `n` holds ends. -/
def locksOf (n : Nat) : Upd := look fun s =>
  forEach (allBelow 96 fun p => s.on (.bridge 1) .BRIDGE_LOCK_STAT_LOCKED p && s.rd (.bridge 1) .BRIDGE_LOCK_STAT_HOLDER p == n) lockEnd

/-- The Unlock message of a host goes on to the switch that holds the far port. -/
def sendUnlock (f dest : Nat) : Upd := look fun s =>
  let t : Tlp := { Tlp.answer .sc 0 0 0 with kind := .msg, hdr := 16 }
  let r := s.idRoute? s.live dest
  sendInner .bridge { s.inner dest ((r.map (·.cls)).getD 0) 0 16 (.tlp t) with
    src := (s.faceFeid? f).getD 0, lock := true, retain := (r.map (·.retain)).getD false } none

/-- The locks of the host of face `f` end (R560): the switch of a far port is told by an Unlock. -/
def faceUnlocks (f : Nat) : Upd := look fun s =>
  let d := s.iv .lockDest f
  let far := match s.idRoute? s.live (d - 1) with
    | some r => !r.isLocal
    | none => false
  all [when_ (d != 0 && far) (sendUnlock f (d - 1)), put .lockDest 0 f, forSome (s.faceFeid? f) locksOf]

/-- UNLOCK_MESSAGE. -/
def execUnlockMessage (host : Option FaceId) (src : Feid) : State → Answer := Upd.answer <|
  match host with
  | none => locksOf src.toNat
  | some f => faceUnlocks f

/-- LOCK_TIMEOUT. -/
def execLockTimeout (p : PortId) : State → Answer := Upd.answer <| look fun s =>
  when_ (s.on (.bridge 1) .BRIDGE_LOCK_STAT_LOCKED p) <|
    let h := s.rd (.bridge 1) .BRIDGE_LOCK_STAT_HOLDER p
    all [raise (.bridge 0) .BRIDGE_LOCK_TIMEOUT, bump (.bridge 0) 7,
         forEach (allBelow 32 fun f => s.faceFeid? f == some h) (fun f => put .lockDest 0 f),
         lockEnd p]

/-! ### Virtual Ethernet ports (R561 to R564) -/

/-- The ring belongs to the face or instance with FEID `n`. -/
def State.ringOf (s : State) (r n : Nat) : Bool := (s.ringKind r == 1 || s.ringKind r == 2) && s.ringFeid r == n

/-- What R564 refuses: `v` are the dwords as they would stand after the write. -/
def State.vepRefused (s : State) (n : Nat) (v : Nat → Nat) : Bool :=
  let pg := Pg.bridge 2
  let en := s.on pg .BRIDGE_VEP_CFG_EN n
  let owner := bits (v 1) 28 16
  let peer := bits (v 1) 12 0
  let mtu := bits (v 0) 13 0
  let tx := bits (v 2) 27 16
  let rx := bits (v 2) 11 0
  let same := bits (v 0) 30 28 == s.rd pg .BRIDGE_VEP_CFG_CLASS n && mtu == s.rd pg .BRIDGE_VEP_CFG_MTU n &&
    owner == s.rd pg .BRIDGE_VEP_CFG_OWNER n && peer == s.rd pg .BRIDGE_VEP_CFG_PEER n &&
    tx == s.rd pg .BRIDGE_VEP_CFG_TX_RING n && rx == s.rd pg .BRIDGE_VEP_CFG_RX_RING n
  let live := match s.idRoute? s.live owner with
    | some r => r.isLocal && (r.kind == kindFace || r.kind == kindInst)
    | none => false
  if en then !same
  else bit (v 0) 31 &&
    (!live || !s.ringOf tx owner || !s.ringOf rx owner || s.on (.ring tx) .MOVER_RING_CFG_KIND || !s.on (.ring rx) .MOVER_RING_CFG_KIND ||
      (List.range 64).any (fun m => m != n && s.on pg .BRIDGE_VEP_CFG_EN m && s.rd pg .BRIDGE_VEP_CFG_OWNER m == owner &&
        s.rd pg .BRIDGE_VEP_CFG_PEER m == peer) ||
      mtu < 64 || 9216 < mtu)

/-- Frames that wait in CORE for a VEP that is no longer there meet case 1 of R563. -/
def vepSettle : Upd := look fun s =>
  forEach (s.buf.filter fun k => k.tailIn && k.isEth && k.left && (s.vepFor? k.frame).isNone && k.copies.any fun c => c.dst == .self) fun k =>
    all [consumeSelf k.id, raise (.bridge 0) .BRIDGE_VEP_NOMATCH]

/-- A write of `v` to dword `d` of BRIDGE_VEP_CFG[n]. -/
def vepCfgWrite (st : Stamp) (n d v : Nat) : Upd := look fun s =>
  if s.vepRefused n fun k => if k == d then v else s.dwordAt (.bridge 2) (0x100 + 16 * n + 4 * k) then raise (.bridge 0) .BRIDGE_CFG_REFUSED
  else all [plainWrite st (.bridge 2) (0x100 + 16 * n + 4 * d) v, vepSettle]

/-- An Ethernet frame stands whole in CORE for this switch (R563). -/
def vepArrives (k : Pkt) (e : Eth) : Upd := look fun s =>
  match s.vepFor? k.frame with
  | none => all [consumeSelf k.id, raise (.bridge 0) .BRIDGE_VEP_NOMATCH]
  | some v =>
    if s.rd (.bridge 2) .BRIDGE_VEP_CFG_MTU v < e.len then
      all [consumeSelf k.id, raise (.bridge 0) .BRIDGE_VEP_OVERSIZE, bump (.bridge 2) (4 * v + 3)]
    else if !e.fcsOk then all [rxRewind v k.id, raise (.bridge 0) .BRIDGE_VEP_FCS, bump (.bridge 2) (4 * v + 3)]
    else rxArrived v k

/-- The Ethernet frames that have just come whole to this switch meet their VEPs, each once. -/
def settleVeps : Upd := look fun s =>
  forEach (s.buf.filter fun k => k.tailIn && k.isEth && !k.left && k.copies.any fun c => c.dst == .self) fun k =>
    match k.frame.body with
    | .eth e => all [modBuf fun b => b.map fun x => if x.id == k.id then { x with left := true } else x, vepArrives k e]
    | _ => skip

/-- MOVER_READ_COMPLETION. -/
def execMoverReadCompletion (n : RingId) (off : Nat) (bytes : List Byte) : State → Answer := Upd.answer <|
  all [moverReadCompletion n off bytes, settleVeps]

/-- POLICER_HOLD_RELEASE. -/
def execPolicerHoldRelease (id : Nat) : State → Answer := Upd.answer <| all [policerHoldRelease id, settleVeps]

/-- ADMISSION_RESUME. -/
def execAdmissionResume : State → Answer := Upd.answer <| all [admissionResume, settleVeps]

end Sys2Proof.Machine
end

