-- ==== Sys2Proof/Machine/Mbox.lean ====
section
/-! DEFINITION. Mailboxes, doorbells and semaphores (spec/16), the holding buffers of register-mapped FIFOs (R73 to R75), and the
wake-up of a host by a notice (R299, R300). -/

namespace Sys2Proof.Machine

/-! ### Register-mapped FIFOs -/

/-- The windows of the part's FIFOs, as `held` numbers them: notice windows, the error log, the miss log, and the completion
FIFOs of the rings. -/
def fwPAGE : Nat := 1056
def fwELOG : Nat := 1057
def fwMISS : Nat := 1058
def fwCPL (n : Nat) : Nat := 2048 + n

/-- A full read of dword 0 by stamp `st`: the oldest entry goes to the stamp's holding buffer (R75). -/
def popFifo (st win : Nat) (q : Fifo) (i : Nat) : Upd := look fun s =>
  all [putFifo .held ((s.fifo q i).take 1) (64 * win + st), putFifo q ((s.fifo q i).drop 1) i]

/-- Dword `d` of the entry a stamp holds; 0 with none (R73, R75). -/
def State.heldDword (s : State) (st win d : Nat) : Nat := ((s.fifo .held (64 * win + st)).head?.map fun e => dword e d).getD 0

/-! ### Wake-up (R299, R300) -/

/-- LINK_PM codes for L2 and down. -/
def pmL2 : Nat := 5
def pmDOWN : Nat := 6

/-- A PME source of face `f` fires. -/
def pmeSource (f : Nat) : Upd := look fun s =>
  let pg := Pg.face f
  let asleep := s.rd pg .FACE_PM_STAT_LINK_PM == pmL2 || s.rd pg .FACE_PM_STAT_LINK_PM == pmDOWN
  when_ (s.on pg .FACE_PM_STAT_PME_EN) <|
    if asleep then all [wr pg .FACE_PM_STAT_PME_STATUS 1, wr pg .FACE_PM_STAT_FWAKE 1]
    else when_ (s.rd pg .FACE_PM_STAT_SE_D != 0) (all [wr pg .FACE_PM_STAT_PME_STATUS 1, emit (.pmeMessage f)])

/-! ### Notices (R567, R568) -/

/-- The bits of a notice with VALID `valid`. -/
def noticeBits (n : Notice) (valid : Bool) : Nat :=
  b2n valid <<< 31 + (n.skind % 8) <<< 28 + (n.sid % 1024) <<< 16 + n.sfeid % 8192 + ((n.sepoch % 65536) <<< 16 + n.repoch % 65536) <<< 32
    + (n.ssw % 256) <<< 64 + (n.user % 2 ^ 32) <<< 96 + (n.pointer % 2 ^ 64) <<< 128 + (n.length % 2 ^ 32) <<< 192
    + (n.time % 2 ^ 32) <<< 224

/-- SKIND codes. -/
def skFACE : Nat := 0
def skINST : Nat := 1
def skFW : Nat := 2
def skSB : Nat := 3
def skDBG : Nat := 4

/-- STATUS codes of a post. -/
def poOK : Nat := 0
def poPENDING : Nat := 1
def poFULL : Nat := 2
def poCLOSED : Nat := 3
def poDENIED : Nat := 4
def poNO_ROUTE : Nat := 5
def poBUSY : Nat := 6

/-- The number of a window for a stamp. -/
def winCode (w : NWin) (st : Stamp) : Nat :=
  match w with
  | .tenant v => v
  | .face f => 1024 + f
  | .page => fwPAGE + st.code

/-- Register `k` of window number `w`. -/
def State.winReg (s : State) (w k : Nat) : Nat := s.iv .win (16 * w + k)

/-- A post of the window is PENDING. -/
def State.winPending (s : State) (w : Nat) : Bool := (s.fifo .posts).any fun e => e % 2048 == w

/-- The sender behind a window: SKIND, SID, FEID and epoch (Table MBOX-1, R568). -/
structure Sender where
  skind : Nat
  sid : Nat
  sfeid : Nat
  epoch : Nat

/-- The sender behind window `w`. -/
def State.sender (s : State) (w : Nat) : Sender :=
  let face := fun (f : Nat) => ⟨skFACE, f, (s.faceFeid? f).getD 0, s.iv .faceEpoch f⟩
  if w < 1024 then ⟨skINST, w, s.rd (.inst 3) .INST_VI_CFG_CFG1_FEID w, s.rd (.inst 2) .INST_STAT_EPOCH w⟩
  else if w < fwPAGE then face (w - 1024)
  else
    let st := w - fwPAGE
    if st < 32 then face st
    else match st - 32 with
      | 0 => ⟨skFW, 0, s.selfFeid, s.iv .fwEpoch⟩
      | 1 => ⟨skFW, 1, s.selfFeid, s.iv .fwEpoch⟩
      | 2 => ⟨skSB, 0, s.selfFeid, s.iv .fwEpoch⟩
      | _ => ⟨skDBG, 0, s.selfFeid, 0⟩

/-- The face to which a sender's errors go. -/
def State.senderFace? (s : State) (skind sid : Nat) : Option Nat :=
  if skind == skFACE then some sid else if skind == skINST then some (s.viFace sid) else none

/-! ### Queues (R569, R570, R580) -/

/-- The queue of a receiver, its depth, and the face whose host reads it. -/
def qDepth (q : Nat) : Nat := if q < 1024 then 32 else 256

/-- The face of a queue's receiver. -/
def State.qFace? (s : State) (q : Nat) : Option Nat :=
  if q < 1024 then some (s.viFace q) else if q < 1056 then some (q - 1024) else none

/-- The queue is open (R570). -/
def State.qOpen (s : State) (q : Nat) : Bool :=
  if q < 1024 then s.on (.inst 2) .INST_STAT_BOUND q else if q < 1056 then s.on (.face (q - 1024)) .FACE_BIND_ENABLE else true

/-- The receiver's epoch. -/
def State.qEpoch (s : State) (q : Nat) : Nat :=
  if q < 1024 then s.rd (.inst 2) .INST_STAT_EPOCH q else if q < 1056 then s.iv .faceEpoch (q - 1024) else s.iv .fwEpoch

/-- The queue that a local FEID names (Table MBOX-3), none when it has no receiver here. -/
def State.qOf? (s : State) (feid fwq : Nat) : Option Nat :=
  match s.idRoute? s.live feid with
  | none => none
  | some r =>
    if !r.isLocal then none
    else if r.kind == kindInst then
      (if s.rd (.inst 3) .INST_VI_CFG_CFG1_FEID (r.rid % 1024) == feid then some (r.rid % 1024) else none)
    else if r.kind == kindFace then (firstBelow 32 fun f => s.facePort f == r.port && s.on (.face f) .FACE_BIND_ENABLE).map (1024 + ·)
    else if r.kind == kindInternal && feid == s.selfFeid then some (1056 + fwq % 16) else none

/-- The doorbell of queue `q` fires, and disarms. -/
def doorbell (q : Nat) : Upd := look fun s =>
  let vec := s.rd (.mbox 1) .MBOX_Q_CFG_DB_VECTOR q
  all [put .qArm 0 q,
       (match s.qFace? q with
        | none => emit (.fwInt (.mbox 0))
        | some f => all [msixFire f ((if q < 1024 then s.rd (.inst 3) .INST_VI_CFG_CFG2_VEC_BASE q else 0) + vec), pmeSource f])]

/-- A notice is appended (row 7 of Table MBOX-5); its arrival, or its doorbell, is a PME source (R299). -/
def accept (q : Nat) (n : Notice) : Upd := look fun s =>
  all [push .notices (noticeBits { n with repoch := s.qEpoch q, time := s.now } true) q, bump (.mbox 0) 0,
       if s.ivOn .qArm q && s.on (.mbox 1) .MBOX_Q_CFG_DB_EN q then doorbell q else forSome (s.qFace? q) pmeSource]

/-- Rows 4 to 7 of Table MBOX-5: the STATUS of a notice that has come to its switch. -/
def State.judge (s : State) (q : Option Nat) (skind sfeid : Nat) : Nat :=
  match q with
  | none => poCLOSED
  | some q =>
    let part := (s.idRoute? s.live sfeid).map (·.part)
    let barred := match part with
      | none => true
      | some p => !(s.rd (.mbox 1) .MBOX_Q_CFG_SEND_MASK q).testBit p
    if !s.qOpen q then poCLOSED
    else if skind ≤ skINST && barred then poDENIED
    else if qDepth q ≤ (s.fifo .notices q).length then poFULL
    else poOK

/-- The counter of a rejection. -/
def rejCounter (status : Nat) : Nat := if status == poBUSY then 5 else status - 1

/-- A post of window `w` by stamp `st` ends with `status` (R577, R578). The report in AER is one of POST_REJECT's, and ERR_MASK
keeps it back (R60). -/
def postEnds (w : Nat) (st : Nat) (status : Nat) : Upd := look fun s =>
  let x := s.sender w
  all [put .win status (16 * w + 5),
       when_ (status != poOK && status != poPENDING) <|
         all [bump (.mbox 0) (rejCounter status),
              when_ (x.skind ≤ skINST) (all [raiseIn (.mbox 0) .MBOX_POST_REJECT (if x.skind == skFACE then .face x.sid else .inst x.sid),
                wr (.mbox 0) .MBOX_REJ_LOG_STATUS status, wr (.mbox 0) .MBOX_REJ_LOG_SKIND x.skind, wr (.mbox 0) .MBOX_REJ_LOG_SID x.sid,
                wr (.mbox 0) .MBOX_REJ_LOG_STAMP st,
                when_ (!(s.rd (.mbox 0) .ERR_MASK_MASK).testBit Err.MBOX_POST_REJECT.bit) <|
                  forSome (s.senderFace? x.skind x.sid) fun f => emit (.aer f .service .completerAbort)]),
              (match st with
               | 0x20 => emit (.busError .fw0)
               | 0x21 => emit (.busError .fw1)
               | 0x22 => emit (.busError .sb)
               | 0x24 => emit (.busError .dbg)
               | _ => skip)]]

/-- A frame of TYPE 0x2 to FEID `dest` (R574). -/
def sendMbox (src dest plen : Nat) (body : Payload) : Upd := look fun s =>
  let r := s.idRoute? s.live dest
  sendInner .mbox { s.inner dest ((r.map (·.cls)).getD 0) 2 plen body with src := src, retain := (r.map (·.retain)).getD false } none

/-- GO of window `w` (Table MBOX-5). -/
def postNotice (st w : Nat) : Upd := look fun s =>
  let x := s.sender w
  let dest := s.winReg w 4 % 8192
  let n : Notice := ⟨x.skind, x.sid, x.sfeid, x.epoch, 0, s.selfSw.getD 0xFF, s.winReg w 3, s.winReg w 0 + s.winReg w 1 <<< 32, s.winReg w 2, 0⟩
  if s.winPending w then postEnds w st poBUSY
  else match s.idRoute? s.live dest with
    | none => postEnds w st poNO_ROUTE
    | some r =>
      if r.kind == kindDevice then postEnds w st poNO_ROUTE
      else if !r.isLocal then
        all [push .posts (w + 2048 * st), put .win poPENDING (16 * w + 5), bump (.mbox 0) 6, sendMbox x.sfeid dest 40 (.notice n)]
      else
        let q := s.qOf? dest (bits (s.winReg w 4) 27 24)
        let c := s.judge q x.skind x.sfeid
        all [when_ (c == poOK) (forSome q fun k => accept k n), postEnds w st c]

/-- A write of `v` to MBOX_NOTICE_POST. -/
def noticePostWrite (st : Nat) (w v : Nat) : Upd :=
  all [put .win (bits v 27 24 <<< 24 + v % 8192) (16 * w + 4), when_ (v.testBit 31) (postNotice st w)]

/-- The page of a window, whose lock judges its accesses; none for a capability. -/
def winPage : NWin → Option (Pg × Nat)
  | .tenant v => some (.tenant v, 0x800)
  | .face _ => none
  | .page => some (.mbox 0, 0x200)

/-- A granted write to offset `off` of a window; the arbiter of MBOX page 0 serves the capabilities. -/
def winGranted (st : Stamp) (w : NWin) (off : Nat) (u : Upd) : Upd :=
  match winPage w with
  | none => granting st (.mbox 0) u
  | some (pg, b) => granted st pg (b + off) u

/-- NOTICE_POST. -/
def execNoticePost (st : Stamp) (w : NWin) (v : Word) : State → Answer := Upd.answer <|
  winGranted st w 0x10 (noticePostWrite st.code (winCode w st) v.toNat)

/-- NOTICE_FRAME_RECEIVED (R574, R575). -/
def execNoticeFrameReceived (src dest : Feid) (ingSw : SwId) (n : Notice) (fwq : Fin 16) : State → Answer := Upd.answer <| look fun s =>
  if n.sfeid != src.toNat || n.ssw != ingSw then raise (.mbox 0) .MBOX_FORGED
  else
    let q := s.qOf? dest.toNat fwq
    let c := s.judge q n.skind n.sfeid
    all [when_ (c == poOK) (forSome q fun k => accept k n), sendMbox dest.toNat src.toNat 8 (.outcome c n.skind n.sid n.sfeid)]

/-- NOTICE_OUTCOME_RECEIVED: the oldest pending post of that sender ends. -/
def execNoticeOutcomeReceived (status : Fin 7) (skind : Fin 8) (sid : Fin 1024) (sfeid : Feid) : State → Answer :=
  Upd.answer <| look fun s =>
    let mine := fun (e : Nat) => let x := s.sender (e % 2048); x.skind == skind.val && x.sid == sid.val && x.sfeid == sfeid.toNat
    when_ (status.val != poPENDING) <| forSome ((s.fifo .posts).find? mine) fun e =>
      all [putFifo .posts ((s.fifo .posts).erase e), postEnds (e % 2048) (e / 2048) status]

/-- NOTICE_OUTCOME_TIMEOUT (R576). -/
def execNoticeOutcomeTimeout (st : Stamp) (w : NWin) : State → Answer := Upd.answer <| look fun s =>
  forSome ((s.fifo .posts).find? fun e => e % 2048 == winCode w st) fun e =>
    all [putFifo .posts ((s.fifo .posts).erase e), postEnds (e % 2048) (e / 2048) poNO_ROUTE]

/-! ### Reading -/

/-- FW0 or FW1. -/
def isFw (st : Stamp) : Bool := st == .fw0 || st == .fw1

/-- The queue a window reads for a stamp; none on MBOX page 0 for any stamp but FW0 and FW1. -/
def State.winQueue? (s : State) (st : Stamp) (w : NWin) : Option Nat :=
  match w with
  | .tenant v => some v
  | .face f => some (1024 + f)
  | .page => if isFw st then some (1056 + s.rdSt st.code (.mbox 0) .MBOX_FWQ_SEL_SEL) else none

/-- The number under which a window's holding buffer is kept. -/
def heldCode (w : NWin) : Nat :=
  match w with
  | .tenant v => v
  | .face f => 1024 + f
  | .page => fwPAGE

/-- A full read of dword 0 of MBOX_NOTICE_READ (R579). -/
def noticePop (st : Stamp) (w : NWin) : Upd := look fun s =>
  forSome (s.winQueue? st w) fun q =>
    all [when_ (!(s.fifo .notices q).isEmpty) (bump (.mbox 0) 7), popFifo st.code (heldCode w) .notices q]

/-- NOTICE_READ. -/
def execNoticeRead (st : Stamp) (w : NWin) : State → Answer := Upd.answer <| look fun s =>
  onPath st <| all [grant st (match winPage w with
    | some x => x.1
    | none => .mbox 0), noticePop st w,
    look fun t => emit (.value st (if (s.winQueue? st w).isSome then t.heldDword st.code (heldCode w) 0 else 0))]

/-- A write of MBOX_Q_STAT.ARM (R580). -/
def arm (st : Stamp) (w : NWin) : Upd := look fun s =>
  forSome (s.winQueue? st w) fun q =>
    all [put .qArm 1 q, when_ (!(s.fifo .notices q).isEmpty && s.on (.mbox 1) .MBOX_Q_CFG_DB_EN q) (doorbell q)]

/-- DOORBELL_ARM. -/
def execDoorbellArm (st : Stamp) (w : NWin) : State → Answer := Upd.answer <| winGranted st w 0x40 (arm st w)

/-- The current epoch of a local FEID (MBOX_EPOCH_QUERY). -/
def State.epochOf? (s : State) (feid : Nat) : Option Nat :=
  match s.idRoute? s.live feid with
  | none => none
  | some r =>
    if !r.isLocal then none
    else if r.kind == kindFace then some (((firstBelow 32 fun f => s.facePort f == r.port).map fun f => s.iv .faceEpoch f).getD 0)
    else if r.kind == kindInst then some (s.rd (.inst 2) .INST_STAT_EPOCH (r.rid % 1024))
    else if r.kind == kindInternal then some (s.iv .fwEpoch) else none

/-- EPOCH_QUERY. -/
def execEpochQuery (st : Stamp) (w : NWin) (v : Word) : State → Answer := Upd.answer <|
  winGranted st w 0x44 (put .win (v.toNat % 8192) (16 * winCode w st + 6))

/-! ### Clearing (R581, R500) -/

/-- Queue `q` is emptied, and what it held is counted. -/
def dropNotices (q : Nat) : Upd := look fun s =>
  when_ (!(s.fifo .notices q).isEmpty) (all [addCnt (.mbox 0) 8 (s.fifo .notices q).length, putFifo .notices [] q])

/-- The staging registers of a window return to 0. -/
def clearStaging (w : Nat) : Upd := forBelow 4 fun k => put .win 0 (16 * w + k)

/-! ### Word mailboxes (R583, R584) -/

/-- An error of MBOX that a stamp causes: its domain is the stamp's face (Table GUARD-3). -/
def raiseBy (st : Stamp) (e : Err) : Upd :=
  match st with
  | .face f => raiseIn (.mbox 0) e (.face f)
  | _ => raise (.mbox 0) e

/-- A stamp that a WRITER or READER code permits. -/
def permits (code : Nat) (st : Stamp) : Bool := code == 0xFF || (code == 0xFE && isFw st) || code == st.code

/-- A write of DATA. -/
def wordWrite (st : Stamp) (n v : Nat) : Upd := look fun s =>
  if s.on (.mbox 2) .MBOX_WORD_STAT_FULL n || !permits (s.rd (.mbox 2) .MBOX_WORD_CFG_WRITER n) st then
    all [raiseBy st .MBOX_WORD_REJECT, bump (.mbox 0) 10, tellDiscard st (.mbox 0) [.MBOX_WORD_REJECT]]
  else all [wr (.mbox 2) .MBOX_WORD_DATA v n, wr (.mbox 2) .MBOX_WORD_STAT_FULL 1 n, wr (.mbox 2) .MBOX_WORD_STAT_WRITER st.code n,
            bump (.mbox 0) 9]

/-- A write of TAKE. -/
def wordTake (st : Stamp) (n : Nat) : Upd := look fun s =>
  when_ (permits (s.rd (.mbox 2) .MBOX_WORD_CFG_READER n) st) (wr (.mbox 2) .MBOX_WORD_STAT_FULL 0 n)

/-- WORD_WRITE. -/
def execWordWrite (st : Stamp) (n : Fin 128) (v : Word) : State → Answer := Upd.answer <|
  granted st (.mbox 2) (0x100 + 8 * n) (wordWrite st n v.toNat)

/-- WORD_TAKE. -/
def execWordTake (st : Stamp) (n : Fin 128) : State → Answer := Upd.answer <|
  granted st (.mbox 2) (0x104 + 8 * n) (wordTake st n)

/-! ### Semaphores (R586 to R589) -/

/-- SEM n is held, and by which stamp. -/
def State.semHeld (s : State) (n : Nat) : Bool := s.on (.mbox 3) .MBOX_SEM_PEEK_HELD n
def State.semOwner (s : State) (n : Nat) : Nat := s.rd (.mbox 3) .MBOX_SEM_PEEK_OWNER n

/-- SEM n becomes free. -/
def semFree (n : Nat) : Upd := all [wr (.mbox 3) .MBOX_SEM_PEEK_HELD 0 n, wr (.mbox 3) .MBOX_SEM_PEEK_OWNER 0 n]

/-- SEM n becomes free by force. -/
def semForced (n : Nat) : Upd := all [semFree n, bump (.mbox 0) 13]

/-- A full read of MBOX_SEM[n]. -/
def semAcquire (st : Stamp) (n : Nat) : Upd := look fun s =>
  if s.semHeld n then all [bump (.mbox 0) 12, emit (.value st (0x80000000 + s.semOwner n))]
  else all [wr (.mbox 3) .MBOX_SEM_PEEK_HELD 1 n, wr (.mbox 3) .MBOX_SEM_PEEK_OWNER st.code n, bump (.mbox 0) 11,
            emit (.value st (0x40000000 + st.code))]

/-- A write of RELEASE. -/
def semRelease (st : Stamp) (n : Nat) : Upd := look fun s =>
  if s.semHeld n && s.semOwner n == st.code then semFree n else raiseBy st .MBOX_SEM_FOREIGN

/-- A write of FORCE. -/
def semForce (st : Stamp) (n : Nat) : Upd := look fun s =>
  when_ (isFw st && s.semHeld n) (semForced n)

/-- SEM_ACQUIRE. -/
def execSemAcquire (st : Stamp) (n : Fin 256) : State → Answer := Upd.answer <| granting st (.mbox 3) (semAcquire st n)

/-- SEM_RELEASE. -/
def execSemRelease (st : Stamp) (n : Fin 256) : State → Answer := Upd.answer <|
  granted st (.mbox 3) (0x100 + 4 * n) (semRelease st n)

/-- SEM_FORCE. -/
def execSemForce (st : Stamp) (n : Fin 256) : State → Answer := Upd.answer <|
  granted st (.mbox 3) (0x100 + 4 * n) (semForce st n)

/-- The semaphores of some stamps become free by force (R589). -/
def semsOf (p : Nat → Bool) : Upd := look fun s =>
  forEach (allBelow 256 fun n => s.semHeld n && p (s.semOwner n)) semForced

/-- A start of firmware (R568, R589). -/
def firmwareStarts : Upd := all [modIv .fwEpoch fun n => (n + 1) % 65536, semsOf fun o => 0x20 ≤ o && o ≤ 0x22]

/-- A block soft reset of MBOX. -/
def mboxSoftReset : Upd := look fun s =>
  all [forEach (allBelow 1072 fun q => !(s.fifo .notices q).isEmpty) dropNotices,
       forBelow 128 fun n => all [wr (.mbox 2) .MBOX_WORD_DATA 0 n, wr (.mbox 2) .MBOX_WORD_STAT_FULL 0 n,
                                  wr (.mbox 2) .MBOX_WORD_STAT_WRITER 0 n],
       forEach (allBelow 256 s.semHeld) semFree, clearIv .qArm fun _ => true]

end Sys2Proof.Machine
end

