-- ==== Sys2Proof/Machine/Inst.lean ====
section
/-! DEFINITION. Virtual instances (spec/13): binding, instance resets, shares and TDISP; and the face reset and the FLR of a
service endpoint (spec/07 R295, R301 to R305), which reset the instances of a face. -/

namespace Sys2Proof.Machine

/-! ### Fields -/

def State.bound? (s : State) (v : Nat) : Bool := s.on (.inst 2) .INST_STAT_BOUND v
def State.resetting (s : State) (v : Nat) : Bool := s.on (.inst 2) .INST_STAT_RESETTING v
def State.tdi (s : State) (v : Nat) : Nat := s.rd (.inst 2) .INST_STAT_TDI v

/-- TDI states. -/
def tdUNLOCKED : Nat := 0
def tdLOCKED : Nat := 1
def tdRUN : Nat := 2
def tdERROR : Nat := 3

/-- The instances bound to face `f`. -/
def State.visOf (s : State) (f : Nat) : List Nat := s.boundVis.filter fun v => s.viFace v == f

/-! ### Instance reset (R503 to R508) -/

/-- A flush read goes out for an instance or for a service endpoint, to a destination it has written (R295, R503). -/
def flushRead (f : Nat) (vi : Option Nat) (e : Nat × Nat) (tag : Nat) : Upd := look fun s =>
  let host := e.1 == 8192
  let face := (s.faceFeid? f).getD 0
  let dest := if host then face else e.1
  let r := s.idRoute? s.live dest
  let src := match vi with
    | some v => s.rd (.inst 3) .INST_VI_CFG_CFG1_FEID v
    | none => face
  let who := match vi with
    | some v => Who.inst v
    | none => Who.service
  let hdr := (if e.2 < 2 ^ 32 then 12 else 16) + (if host && vi.isSome then 4 else 0)
  let t : Tlp := { Tlp.answer .sc (s.seRid f) tag 0 with kind := .memRd, hdr := hdr, addr := BitVec.ofNat 64 e.2 }
  let g : Frame := { s.inner dest ((r.map (·.cls)).getD 0) 0 t.hdr (.tlp t) with
    src := src, retain := ((r.map (·.retain)).getD false) && !host, tag := tag, tagValid := true, tagEp := s.tagEpoch f true tag }
  all [takeSlot ⟨f, true, tag, slBUSY, who, true, s.seRid f, tag, tag, false, dest, host, 0, false⟩,
       if host then toOwnHost f 0 g vi else deliver (.mover 0) g vi true]

/-- The flush reads that wait go out, as far as there are tags: an instance keeps to its cap (R496), and asks its host nothing while
PASID Enable is clear (R495). -/
def flushSome (f : Nat) (vi : Option Nat) (i : Nat) : Upd := look fun s =>
  forEach (s.fifo .flushTodo i) fun n => look fun t =>
    let e := unpackDest n
    when_ (!vi.any t.viCapped && !(e.1 == 8192 && vi.isSome && !t.ivOn .sePasid f)) <|
      forSome (t.freeTag? f true (e.1 == 8192)) fun tag =>
        all [putFifo .flushTodo ((t.fifo .flushTodo i).erase n) i, flushRead f vi e tag]

/-- An instance reset starts, or joins the one that runs (R503, R507, R510). `stop` is STOP_INTERFACE_REQUEST. -/
def instReset (v : Nat) (stop : Bool) : Upd := look fun s =>
  let f := s.viFace v
  let locked := s.tdi v == tdLOCKED || s.tdi v == tdRUN
  all [when_ stop (put .stopWaits 1 v),
       when_ (!s.resetting v) <|
         all [wr (.inst 2) .INST_STAT_RESETTING 1 v, wr (.inst 2) .INST_STAT_FENCED 1 v, wr (.inst 2) .INST_STAT_FLUSH_TO 0 v,
              when_ (locked && !stop) (wr (.inst 2) .INST_STAT_TDI tdERROR v),
              forEach (s.viRings v) fun n => all [rxStop n, dropDescs n, wr (.ring n) .MOVER_RING_STAT_STATE rsFENCED, rxSettle n],
              abandon fun x => x.req && x.who == .inst v,
              putFifo .flushTodo (s.fifo .viWrote v) v, putFifo .viWrote [] v,
              flushSome f (some v) v]]

/-- The flush reads of instance `v` still out. -/
def State.flushing (s : State) (v : Nat) : Bool :=
  !(s.fifo .flushTodo v).isEmpty || s.slots.any fun x => x.who == .inst v && x.flush && x.st == slBUSY

/-- The lowest free BAR2 slot of a face, and the slot of an instance (R275). -/
def State.freeBarSlot (s : State) (f : Nat) : Nat := (firstBelow 1024 fun j => s.iv .viSlot (1024 * f + j) == 0).getD 0
def State.barSlot? (s : State) (f v : Nat) : Option Nat := firstBelow 1024 fun j => s.iv .viSlot (1024 * f + j) == v + 1

/-- The unbinding of an instance after its reset (R500): what is not bound is no TDI (R509). -/
def unbindNow (v : Nat) : Upd := look fun s =>
  let f := s.viFace v
  all [dropNotices v,
       forEach (s.viRings v) fun n => all [ringClear n .inst, wr (.ring n) .MOVER_RING_CFG_OWN_KIND 0, wr (.ring n) .MOVER_RING_CFG_OWNER 0],
       forSome (s.barSlot? f v) fun j => put .viSlot 0 (1024 * f + j),
       wr (.inst 2) .INST_STAT_TDI tdUNLOCKED v, wr (.inst 2) .INST_STAT_FENCED 0 v, wr (.inst 2) .INST_STAT_BOUND 0 v,
       forEach (allBelow 64 (s.iv .unbindBy v).testBit) fun st => wrSt st (.inst 0) .INST_BIND_GO 0,
       put .unbindBy 0 v, bump (.inst 0) 1025, coreWatch]

/-- INSTANCE_RESET_DONE (steps 6 and 7 of R503, R500). -/
def execInstanceResetDone (v : ViId) : State → Answer := Upd.answer <| look fun s =>
  all [when_ (s.resetting v) (flushSome (s.viFace v) (some v) v),
       look fun t => when_ (t.resetting v && !t.flushing v) <|
         let f := t.viFace v
         let stop := t.ivOn .stopWaits v
         let errs := t.tdi v == tdERROR && !stop
         all [forEach (t.viRings v) fun n => ringClear n .inst,
              resetPage (.tenant v) .inst, clearStaging v,
              wr (.inst 2) .INST_STAT_EPOCH (t.rd (.inst 2) .INST_STAT_EPOCH v + 1) v,
              when_ stop (all [wr (.inst 2) .INST_STAT_TDI tdUNLOCKED v, put .stopWaits 0 v, emit (.tdisp f v .stopped)]),
              wr (.inst 2) .INST_STAT_FENCED (b2n errs) v, wr (.inst 2) .INST_STAT_RESETTING 0 v, wr (.inst 2) .INST_STAT_RESET_DONE 1 v,
              bump (.inst 0) 1026, when_ (t.ivOn .unbindBy v) (unbindNow v)]]

/-- The domain of a silent destination (Table GUARD-3). -/
def State.silent (s : State) (f dest : Nat) : ReqDom :=
  if dest == 8192 then .dom (.face f)
  else match s.idRoute? s.live dest with
    | none => .feid dest
    | some r => if r.isLocal && r.kind == kindFace then ((s.faceOf r.port).map fun g => ReqDom.dom (.face g)).getD (.feid dest) else .feid dest

/-- FLUSH_TIMEOUT (R505): the flush reads still out are abandoned, and the reset goes on. -/
def execFlushTimeout (v : ViId) : State → Answer := Upd.answer <| look fun s =>
  let f := s.viFace v
  let late := s.slots.filter fun x => x.who == .inst v && x.flush && x.st == slBUSY
  let dests := (late.map (·.dest) ++ (s.fifo .flushTodo v).map fun n => (unpackDest n).1).eraseDups
  when_ (s.resetting v && !dests.isEmpty) <|
    all [abandon fun x => x.who == .inst v && x.flush, putFifo .flushTodo [] v, wr (.inst 2) .INST_STAT_FLUSH_TO 1 v, bump (.inst 0) 1027,
         forEach dests fun d => raiseAll (.inst 0) [{ err := .INST_FLUSH_TIMEOUT, dom := some (s.silent f d), detail0 := d % 8192 }]]

/-- A write of `v` to INST_RESET. -/
def instResetWrite (st : Stamp) (v : Nat) : Upd := look fun s =>
  let n := v % 1024
  all [plainWrite st (.inst 0) 0x110 v,
       when_ (v.testBit 31) <|
         if s.bound? n then all [wr (.inst 0) .INST_RESET_REFUSED 0, instReset n false]
         else all [wr (.inst 0) .INST_RESET_REFUSED 1, bump (.inst 0) 1028, raise (.inst 0) .INST_CFG_REFUSED]]

/-- INSTANCE_RESET. -/
def execInstanceReset (st : Stamp) (v : Word) : State → Answer := Upd.answer <|
  granted st (.inst 0) 0x110 (instResetWrite st v.toNat)

/-- SELF_RESET of a tenant page. -/
def selfReset (v : Nat) : Upd := look fun s => when_ (s.bound? v) (instReset v false)

/-- INSTANCE_SELF_RESET. -/
def execInstanceSelfReset (st : Stamp) (v : ViId) : State → Answer := Upd.answer <| granted st (.tenant v) 0x44 (selfReset v)

/-! ### Binding (R498 to R501) -/

/-- STATUS of Table INST-2 for a binding of instance `v` by stamp `st` (cases FACE to CELLS). -/
def State.bindStatus (s : State) (st v : Nat) : Nat :=
  let g := fun (x : Fld) => s.rdSt st (.inst 0) x
  let f := g .INST_BIND_CFG0_FACE
  let feid := g .INST_BIND_CFG1_FEID
  let vecs := g .INST_BIND_CFG2_VEC_LOG2
  let routed := match s.idRoute? s.live feid with
    | some r => r.kind == kindInst && r.isLocal && r.rid % 1024 == v
    | none => false
  if !s.on (.face f) .FACE_BIND_ENABLE || 2048 < g .INST_BIND_CFG2_VEC_BASE + 2 ^ vecs || 4 < vecs then 3
  else if s.boundVis.any fun w => s.viFace w == f && s.rd (.inst 3) .INST_VI_CFG_CFG0_PASID w == g .INST_BIND_CFG0_PASID then 4
  else if !routed then 5
  else if s.sharedRefused 0 (s.rd (.core 2) .CORE_VI_LIMIT_RES v) then 6
  else 0

/-- The binding is made (R498). -/
def bindNow (st v : Nat) : Upd := look fun s =>
  let g := fun (x : Fld) => s.rdSt st (.inst 0) x
  let f := g .INST_BIND_CFG0_FACE
  let set := fun (to_ from_ : Fld) => wr (.inst 3) to_ (g from_) v
  all [set .INST_VI_CFG_CFG0_FACE .INST_BIND_CFG0_FACE, set .INST_VI_CFG_CFG0_PASID .INST_BIND_CFG0_PASID,
       set .INST_VI_CFG_CFG1_POL_EN .INST_BIND_CFG1_POL_EN, set .INST_VI_CFG_CFG1_FEID .INST_BIND_CFG1_FEID,
       set .INST_VI_CFG_CFG1_POLICER .INST_BIND_CFG1_POLICER, set .INST_VI_CFG_CFG2_TAG_MAX .INST_BIND_CFG2_TAG_MAX,
       set .INST_VI_CFG_CFG2_VEC_LOG2 .INST_BIND_CFG2_VEC_LOG2, set .INST_VI_CFG_CFG2_VEC_BASE .INST_BIND_CFG2_VEC_BASE,
       wr (.inst 2) .INST_STAT_FACE f v, put .viSlot (v + 1) (1024 * f + s.freeBarSlot f), wr (.inst 2) .INST_STAT_BOUND 1 v,
       setCnt (.inst 0) v 0, bump (.inst 0) 1024, coreWatch]

/-- INST_BIND ends with a status; a refusal is counted and recorded. -/
def bindEnds (st status : Nat) : Upd :=
  all [wrSt st (.inst 0) .INST_BIND_STATUS status,
       when_ (status != 0) (all [bump (.inst 0) 1028, raise (.inst 0) .INST_CFG_REFUSED])]

/-- A write of `v` to INST_BIND by stamp `st`. -/
def instBindWrite (st : Stamp) (v : Nat) : Upd := look fun s =>
  let c := st.code
  let vi := v % 1024
  let bind := fun (w : Nat) =>
    let x := s.bindStatus c w
    all [when_ (x == 0) (bindNow c w), bindEnds c x]
  all [plainWrite st (.inst 0) 0x100 v,
       when_ (v.testBit 31) <| match bits v 30 29 with
         | 0 => if s.bound? vi then bindEnds c 2 else bind vi
         | 1 => (match firstBelow 1024 fun w => !s.bound? w with
           | none => bindEnds c 1
           | some w => all [when_ (s.bindStatus c w == 0) (wrSt c (.inst 0) .INST_BIND_VI w), bind w])
         | 2 =>
           if !s.bound? vi then bindEnds c 2
           else if s.tdi vi == tdLOCKED || s.tdi vi == tdRUN then bindEnds c 7
           else all [bindEnds c 0, wrSt c (.inst 0) .INST_BIND_GO 1, put .unbindBy (setBit (s.iv .unbindBy vi) c) vi, instReset vi false]
         | _ => bindEnds c 2]

/-- INSTANCE_BIND. -/
def execInstanceBind (st : Stamp) (v : Word) : State → Answer := Upd.answer <|
  granted st (.inst 0) 0x100 (instBindWrite st v.toNat)

/-- INSTANCE_BIND_ANY. -/
def execInstanceBindAny (st : Stamp) (v : Word) : State → Answer := Upd.answer <|
  granted st (.inst 0) 0x100 (instBindWrite st v.toNat)

/-- INSTANCE_UNBIND. -/
def execInstanceUnbind (st : Stamp) (v : Word) : State → Answer := Upd.answer <|
  granted st (.inst 0) 0x100 (instBindWrite st v.toNat)

/-! ### Shares and the promises of a locked TDI (R466, R502, R510) -/

/-- The limits of instance `v` that R510 watches: its share, CORE_VI_LIMIT and its policer. -/
def State.promises (s : State) (v : Nat) : List Nat :=
  let n := s.rd (.inst 3) .INST_VI_CFG_CFG1_POLICER v
  let pol := if s.on (.inst 3) .INST_VI_CFG_CFG1_POL_EN v then [s.iv .polCir n, s.iv .polPir n, s.cbs n, s.pbs n] else [0, 0, 0, 0]
  [s.rd (.inst 1) .INST_SHARE_SHARE v, s.rd (.core 2) .CORE_VI_LIMIT_MAX v, s.rd (.core 2) .CORE_VI_LIMIT_ALPHA v,
   s.rd (.core 2) .CORE_VI_LIMIT_RES v] ++ pol

/-- The values of these limits at the LOCK. -/
def State.promised (s : State) (v : Nat) : List Nat :=
  [s.iv .lockShare v] ++ ((List.range 3).map fun k => s.iv .lockLimit (4 * v + k)) ++ (List.range 4).map fun k => s.iv .lockPol (4 * v + k)

/-- Every locked TDI whose limits have been lowered below their values at its LOCK enters ERROR. -/
def tdiCheck : Upd := look fun s =>
  forEach (s.boundVis.filter fun v => (s.tdi v == tdLOCKED || s.tdi v == tdRUN) &&
    ((s.promises v).zip (s.promised v)).any fun (now, then_) => now < then_) tdiBreach

/-- A write of `w` to INST_SHARE[v]. -/
def shareWrite (st : Stamp) (v w : Nat) : Upd := look fun s =>
  let was := s.on (.inst 1) .INST_SHARE_SHARE v
  let now := w % 4096 != 0
  all [plainWrite st (.inst 1) (0x100 + 4 * v) w, wr (.inst 2) .INST_STAT_SUSPENDED (b2n (!now)) v,
       when_ (now && !was) (clearIv .flowDef fun i => i % 2048 == 256 + v), tdiCheck]

/-- SHARE_WRITE. -/
def execShareWrite (st : Stamp) (v : ViId) (w : Word) : State → Answer := Upd.answer <|
  granted st (.inst 1) (0x100 + 4 * v) (shareWrite st v w.toNat)

/-- BUFFER_LIMIT_WRITE: `vi` chooses CORE_VI_LIMIT of instance `i`; otherwise dword `d` of CORE_BUF_LIMIT entry `i` = 8p + c. -/
def execBufferLimitWrite (st : Stamp) (vi : Bool) (i : Fin 1024) (d : Fin 2) (v : Word) : State → Answer := Upd.answer <|
  if vi then granted st (.core 2) (0x100 + 4 * i) (all [bufferLimitWrite st (.core 2) (0x100 + 4 * i.val) v.toNat, tdiCheck])
  else when_ (i.val < 768) <|
    granted st (.core 1) (0x100 + 8 * i + 4 * d) (bufferLimitWrite st (.core 1) (0x100 + 8 * i.val + 4 * d.val) v.toNat)

/-- POLICER_COMMIT. -/
def execPolicerCommit (st : Stamp) (v : Word) : State → Answer := Upd.answer <|
  granted st .schedg 0x600 (all [polSelWrite st v.toNat, tdiCheck])

/-! ### TDISP (R509, R510, Table INST-5) -/

/-- A TDISP message in a session on the DOE of a face (R647): it reaches the instances bound to that face, and is not answered for
any other. -/
def tdispFor (ch : DoeOrMctp) (v : Nat) (u : Nat → State → Upd) : Upd := inSession ch fun f => look fun s =>
  when_ (s.bound? v && s.viFace v == f) (u f s)

/-- GET_TDISP_VERSION. -/
def execGetTdispVersion (ch : DoeOrMctp) (v : ViId) : State → Answer := Upd.answer <| tdispFor ch v fun f _ => emit (.tdisp f v .version)

/-- GET_TDISP_CAPABILITIES. -/
def execGetTdispCapabilities (ch : DoeOrMctp) (v : ViId) : State → Answer :=
  Upd.answer <| tdispFor ch v fun f _ => emit (.tdisp f v .capabilities)

/-- LOCK_INTERFACE_REQUEST: the limits of the moment are kept for R510. -/
def execLockInterfaceRequest (ch : DoeOrMctp) (v : ViId) : State → Answer := Upd.answer <| tdispFor ch v fun f s =>
  let p := s.promises v
  if s.resetting v then emit (.tdisp f v .busy)
  else if s.tdi v != tdUNLOCKED then emit (.tdisp f v .invalidState)
  else all [wr (.inst 2) .INST_STAT_TDI tdLOCKED v, put .lockShare (p.getD 0 0) v,
            forBelow 3 fun k => put .lockLimit (p.getD (1 + k) 0) (4 * v + k),
            forBelow 4 fun k => put .lockPol (p.getD (4 + k) 0) (4 * v + k), emit (.tdisp f v .locked)]

/-- GET_DEVICE_INTERFACE_STATE. -/
def execGetDeviceInterfaceState (ch : DoeOrMctp) (v : ViId) : State → Answer :=
  Upd.answer <| tdispFor ch v fun f s => emit (.tdisp f v (.state (s.tdi v)))

/-- GET_DEVICE_INTERFACE_REPORT. -/
def execGetDeviceInterfaceReport (ch : DoeOrMctp) (v : ViId) : State → Answer := Upd.answer <| tdispFor ch v fun f s =>
  if s.tdi v == tdLOCKED || s.tdi v == tdRUN then
    emit (.tdisp f v (.report (((s.barSlot? f v).getD 0) * 0x1000) 0x1000 (s.rd (.inst 3) .INST_VI_CFG_CFG0_PASID v)
      (s.rd (.inst 3) .INST_VI_CFG_CFG2_VEC_BASE v) (2 ^ s.rd (.inst 3) .INST_VI_CFG_CFG2_VEC_LOG2 v)))
  else emit (.tdisp f v .invalidState)

/-- START_INTERFACE_REQUEST. -/
def execStartInterfaceRequest (ch : DoeOrMctp) (v : ViId) : State → Answer := Upd.answer <| tdispFor ch v fun f s =>
  if s.tdi v == tdLOCKED then all [wr (.inst 2) .INST_STAT_TDI tdRUN v, emit (.tdisp f v .started)] else emit (.tdisp f v .invalidState)

/-- STOP_INTERFACE_REQUEST: answered when the instance reset is done. -/
def execStopInterfaceRequest (ch : DoeOrMctp) (v : ViId) : State → Answer := Upd.answer <| tdispFor ch v fun _ _ => instReset v true

/-- TDISP_UNSUPPORTED. -/
def execTdispUnsupported (ch : DoeOrMctp) (v : ViId) : State → Answer :=
  Upd.answer <| tdispFor ch v fun f _ => emit (.tdisp f v .unsupportedRequest)

/-! ### The service endpoint's configuration space and its FLR (R292, R295, R296) -/

/-- Requests of the service endpoint of face `f` and of its instances. -/
def State.seSlot (s : State) (f : Nat) (x : Slot) : Bool :=
  x.face == f && x.req && (match x.who with
    | .service => true
    | .inst v => s.viFace v == f
    | _ => false)

/-- The rings of the service endpoint itself, and of it and its instances. -/
def State.faceRings (s : State) (f : Nat) : List Nat := allBelow 4096 fun n => s.ringKind n == 1 && s.ringFace n == f
def State.seRings (s : State) (f : Nat) : List Nat := allBelow 4096 fun n => (s.ringKind n == 1 || s.ringKind n == 2) && s.ringFace n == f

/-- Bus Master Enable of the service endpoint is cleared (R292): fetches given up are made again later. -/
def seMasterOff (f : Nat) : Upd := look fun s =>
  all [put .seBusMaster 0 f, abandon (s.seSlot f), forEach (s.seRings f) dropFetch]

/-- The service endpoint's configuration space, MSI-X table and PBA at their reset values. -/
def seReset (f : Nat) : Upd :=
  all [put .msixEnable 0 f, put .msixFnMask 0 f, put .seBusMaster 0 f, put .seMse 0 f, put .sePasid 0 f,
       put .seMps 0 f, put .seMrrs 0 f, put .seTags 0 f,
       clearIv .seBar fun i => i / 8 == f, clearIv .msixAddr fun i => i / 2048 == f, clearIv .msixData fun i => i / 2048 == f,
       clearIv .msixOpen fun i => i / 2048 == f, clearIv .msixPend fun i => i / 2048 == f, clearStaging (1024 + f)]

/-- A block soft reset of the FACE page that waits goes on over a change of its registers (R717). -/
def keepSoftReset (f : Nat) (u : Upd) : Upd := look fun s =>
  all [u, when_ (s.on (.face f) .BLK_CTRL_SOFT_RESET) (wr (.face f) .BLK_CTRL_SOFT_RESET 1)]

/-- FLR_SERVICE_ENDPOINT (steps 1 to 3 of R295). -/
def flrStart (f : Nat) : Upd := look fun s =>
  when_ (!s.on (.face f) .FACE_FLR_STAT_BUSY) <|
    all [wr (.face f) .FACE_FLR_STAT_BUSY 1, put .flrAt s.now f, modIv .faceEpoch (fun n => (n + 1) % 65536) f, abandon (s.seSlot f),
         forEach (s.faceRings f) dropFetch, forEach (s.visOf f) fun v => instReset v false,
         putFifo .flushTodo (s.fifo .faceWrote f) (1024 + f), putFifo .faceWrote [] f,
         flushSome f none (1024 + f)]

/-- FLR_SERVICE_ENDPOINT. -/
def execFlrServiceEndpoint (f : FaceId) : State → Answer := Upd.answer (flrStart f)

/-- FLR_DONE (step 4 of R295). -/
def execFlrDone (f : FaceId) : State → Answer := Upd.answer <| look fun s =>
  let busy := s.on (.face f) .FACE_FLR_STAT_BUSY
  all [when_ busy (flushSome f none (1024 + f)),
       look fun t =>
         let waits := !(t.fifo .flushTodo (1024 + f)).isEmpty || ((t.visOf f).any fun v => t.resetting v && t.flushing v) ||
           t.slots.any fun x => x.flush && x.st == slBUSY && t.seSlot f x
         when_ (busy && !waits) <|
           all [seReset f, forEach (t.faceRings f) fun n => ringEnds n .flr,
                keepSoftReset f (resetPage (.face f) .flr), wr (.face f) .FACE_FLR_STAT_DONE 1,
                wr (.face f) .FACE_FLR_STAT_TIME_US (min (2 ^ 20 - 1) ((t.now - t.iv .flrAt f) / 1000)), bump (.face f) 8]]

/-- PME_TURN_OFF (R301). -/
def execPmeTurnOff (f : FaceId) : State → Answer := Upd.answer <| look fun s =>
  when_ (s.faceLive f) <|
    all [put .pmeOff 1 f, emit (.pmeToAck f), wr (.face f) .FACE_PM_STAT_LINK_PM pmL2]

/-! ### Face reset (R127, R303, R305) -/

/-- The composed view of face `f` at its reset values, but for what R303 keeps. -/
def viewReset (f : Nat) : Upd := look fun s =>
  all [forEach (allBelow 255 fun n => s.presTaken f n) (presHide f),
       forEach [Var.mse, .bme, .priBus, .secBus, .subBus, .memWin, .prefWin, .prefBase, .prefLimit, .bridgeCtl, .bridgeD3, .aspm,
         .linkDis, .slotCtl, .slotStat] fun x => clearIv x fun i => i / 4096 == f,
       put .uspMps 0 f, put .ptmEnable 0 f, put .ptmCount 0 f, put .pmeOff 0 f]

/-- A face reset of face `f`. -/
def faceReset (f : Nat) : Upd := look fun s =>
  let p := s.facePort f
  all [when_ (s.role p == roleUP && s.faceOf p == some f) (linkDown p),
       forEach (s.visOf f) fun v => instReset v false,
       abandon fun x => x.face == f,
       modIv .faceEpoch (fun n => (n + 1) % 65536) f,
       prefDiscard (fun e => e.face == f), faceUnlocks f, semsOf (· == f),
       viewReset f, seReset f, forEach (s.faceRings f) fun n => ringEnds n .face, keepSoftReset f (resetPage (.face f) .face), winRestore f,
       wr (.face f) .FACE_BIND_STATE (if s.on (.face f) .FACE_BIND_ENABLE then fcRESET else 0), presEval f]

/-- FACE_RESET_PIN. -/
def execFaceResetPin (f : FaceId) : State → Answer := Upd.always <| look fun s =>
  all [put .fperst 0 f, when_ (!s.ivOn .dieReset) (faceReset f)]

/-- HOT_RESET_RECEIVED. -/
def execHotResetReceived (f : FaceId) : State → Answer := Upd.answer <| look fun s => when_ (s.faceLive f) (faceReset f)

/-- FPERST_RELEASE (R300, R305): the link may train, and the face then answers with Retry Status. -/
def execFperstRelease (f : FaceId) : State → Answer := Upd.always <| look fun s =>
  all [put .fperst 1 f, wr (.face f) .FACE_PM_STAT_FWAKE 0,
       when_ (s.iv .dieReset != 1 && s.iv .dieReset != 3 && !s.ivOn .quietRun) (put .wakeFaces (clearBits (s.iv .wakeFaces) (1 <<< f.val)))]

/-- The states in which faces answer normally (R140): RUN, BRINGUP and ROM_RECOVERY. -/
def State.facesAnswer (s : State) : Bool :=
  let x := s.rd .glb .GLB_DEV_STATE_STATE
  x == 4 || x == 5 || x == 6

/-- FACE_READY (R140, R305). -/
def execFaceReady (f : FaceId) : State → Answer := Upd.answer <| look fun s =>
  when_ (s.facesAnswer && s.rd (.face f) .FACE_BIND_STATE == fcRETRY) (wr (.face f) .FACE_BIND_STATE fcREADY)

end Sys2Proof.Machine
end

