-- ==== Sys2Proof/Machine/Guard.lean ====
section
/-! DEFINITION. Error containment and recovery (spec/17): domains, what GUARD does with a request, the answers for a contained
domain, recovery sequences, Safe Halt and power quiesce. -/

namespace Sys2Proof.Machine

/-! ### Domains (Tables GUARD-2 and GUARD-3) -/

/-- The code of a domain's kind. -/
def domCode : Dom → Nat
  | .lane _ => 0
  | .port _ => 1
  | .link _ => 2
  | .inst _ => 3
  | .face _ => 4
  | .device => 5

/-- DINST. -/
def domInst : Dom → Nat
  | .lane k | .port k | .link k | .inst k | .face k => k
  | .device => 0

/-- The place of a domain's GUARD_DOMAIN_STAT: the offset of its kind's array, and its entry. -/
def domOff : Dom → Nat × Nat
  | .lane j => (0x100, j)
  | .port p => (0x400, p)
  | .link k => (0x600, linkIndex k)
  | .inst v => (0x1000, v)
  | .face f => (0x2000, f)
  | .device => (0x2100, 0)

/-- A number for each domain. -/
def domIndex (d : Dom) : Nat := (domOff d).1 * 1024 + (domOff d).2

/-- How many domains a kind has entries for in GUARD_DOMAIN_STAT. -/
def domCount : Dom → Nat
  | .lane _ => 192
  | .port _ => 96
  | .link _ => 160
  | .inst _ => 1024
  | .face _ => 32
  | .device => 1

/-- A field of GUARD_DOMAIN_STAT, named by that of a lane. -/
def gdsFld (d : Dom) (f : Fld) : Fld := { f with off := (domOff d).1, count := domCount d }

/-- A field of a domain. -/
def State.gds (s : State) (d : Dom) (f : Fld) : Nat := s.rd (.guard 1) (gdsFld d f) (domOff d).2

/-- Write a field of a domain. -/
def wgds (d : Dom) (f : Fld) (v : Nat) : Upd := wr (.guard 1) (gdsFld d f) v (domOff d).2

/-- A domain of a kind and number that exist. -/
def domOk : Dom → Bool
  | .lane j => j < 192
  | .port p => p < 96
  | .link k => k < 96 || (0x100 ≤ k && k < 0x140)
  | .inst v => v < 1024
  | .face f => f < 32
  | .device => true

/-- The domains that are one with `d`: an UP port's PORT domain and its face's FACE domain (R594). -/
def State.twins (s : State) (d : Dom) : List Dom :=
  match d with
  | .port p => if s.role p == roleUP then d :: ((s.faceOf p).map Dom.face).toList else [d]
  | .face f => if s.role (s.facePort f) == roleUP && s.faceOf (s.facePort f) == some f then [d, .port (s.facePort f)] else [d]
  | _ => [d]

/-- The wider domains that hold `d`. -/
def State.wider (s : State) (d : Dom) : List Dom :=
  match d with
  | .lane j => (match s.owner j with
    | some p => s.twins (s.portDom p)
    | none => []) ++ [.device]
  | .inst v => (if s.bound? v then s.twins (.face (s.viFace v)) else []) ++ [.device]
  | .device => []
  | _ => [.device]

/-- A state other than NONE and QUIESCED. -/
def State.inForce (s : State) (d : Dom) : Bool := s.contained d

/-- The domain that an FEID attached here lies in (Table GUARD-3); none when it is attached elsewhere. -/
def State.domOfFeid (s : State) (n : Nat) : Option Dom :=
  match s.idRoute? s.live n with
  | none => some .device
  | some r =>
    if !r.isLocal then none
    else if r.kind == kindDevice then some (s.portDom r.port)
    else if r.kind == kindInst then some (.inst (r.rid % 1024))
    else if r.kind == kindFace then some (((s.faceOf r.port).map Dom.face).getD (s.portDom r.port))
    else some .device

/-- The FEIDs of a PORT or FACE domain. -/
def State.feidsOf (s : State) (d : Dom) : List Nat :=
  let at_ := fun (p : Nat) => ((s.idRoutes s.live).filter fun r => r.2.isLocal && r.2.port == p &&
    (r.2.kind == kindDevice || r.2.kind == kindFace)).map (·.1)
  match d with
  | .port p => at_ p
  | .face f => at_ (s.facePort f)
  | .link k => if k < 0x100 then [] else ((s.idRoutes s.live).filter fun r => !r.2.isLocal && r.2.sw == k - 0x100).map (·.1)
  | _ => []

/-- A GUARD record. -/
def domRec (cls : Cls) (kind : Nat) (d : Option Dom) (block bit page dinst d0 d1 : Nat) : Rec :=
  ⟨cls, (d.map domCode).getD 7, kind, block, bit, page, (d.map domInst).getD dinst, d0, d1⟩

/-- The record of a request. -/
def reqRec (r : GReq) (kind : Nat) (d : Option Dom) : Rec :=
  domRec r.cls kind d r.block r.bit (if r.block ≤ 0xF then r.pg.index else 0) (match r.pg with
    | .eng e => e
    | _ => 0) r.detail0 r.detail1

/-! ### What hosts see (R603, R605) -/

/-- DOMAIN_EVENT codes (Table GUARD-4). -/
def deUNREACHABLE : Nat := 1
def deREACHABLE : Nat := 2
def deORDERLY : Nat := 3

/-- Groups of 64. -/
def chunks : Nat → List Nat → List (List Nat)
  | 0, _ => []
  | _, [] => []
  | n + 1, l => l.take 64 :: chunks n (l.drop 64)

/-- A management frame of GUARD to switch `w`. -/
def sendGuard (w plen : Nat) (body : Payload) : Upd := look fun s =>
  forSome (s.switchFeid? w) fun n => sendInner .guard (s.inner n 7 3 plen body) none

/-- DOMAIN_EVENT frames about FEIDs go to every switch of BRIDGE_FAB_NOTIFY but this one. -/
def sendDomainEvent (code : Nat) (feids : List Nat) : Upd := look fun s =>
  let mask := s.rd (.bridge 4) .BRIDGE_FAB_NOTIFY_MASK + s.rd (.bridge 4) .BRIDGE_FAB_NOTIFY_MASK_HI <<< 32
  forEach (allBelow 64 fun w => mask.testBit w && s.selfSw != some w) fun w =>
    forEach (chunks (feids.length + 1) feids) fun l => sendGuard w (8 + 2 * l.length) (.domainEvent code s.switchId l)

/-- The faces that show FEID `n`, with the entry. -/
def State.showers (s : State) (n : Nat) : List (Nat × Nat) :=
  (List.range 32).flatMap fun f => (allBelow 255 fun e => s.presShown f e && s.presValid f e && s.presFeid f e == n).map fun e => (f, e)

/-- An FEID has become unreachable: the faces that show it present its removal, with Surprise Down unless it is orderly. -/
def feidLost (orderly : Bool) (n : Nat) : Upd := look fun s =>
  forEach (s.showers n) fun (f, e) => all [presHide f e, when_ (!orderly) (emit (.aer f (.slot e) .surpriseDown))]

/-- FEIDs are reachable again: the faces that may show them evaluate their views. -/
def feidsBack (feids : List Nat) : Upd := look fun s =>
  forEach (allBelow 32 fun f => (List.range 255).any fun e => s.presValid f e && feids.contains (s.presFeid f e)) presEval

/-! ### Answering for a contained domain (R600 to R602) -/

/-- The requests forwarded to DOWN port `p` are answered. -/
def answerForwarded (p : Nat) : Upd := look fun s =>
  let open_ := s.fwd.filter fun w => w.port == p && !w.dead
  let firsts := open_.filter fun w => !(open_.takeWhile fun x => x != w).any fun x => x.grp == w.grp
  all [modFwd fun l => l.filter fun w => w.port != p,
       forEach firsts fun w => all [bump (.guard 0) 9,
         deliver .guard (s.cplFrame w.dest w.src w.rtag w.rep (Tlp.answer s.synth 0 w.rtag 0)) none true]]

/-- The requests on the link of face `f` are answered. -/
def answerOnLink (f : Nat) : Upd := look fun s =>
  forEach (s.slots.filter fun x => x.face == f && x.req && x.onLink && x.st == slBUSY) fun x =>
    all [bump (.guard 0) 9, faceCompletes f true true x.tag false (Tlp.answer s.synth x.rid x.otag 0)]

/-- The non-posted requests that wait in CORE for port `p` are answered. -/
def answerQueued (p : Nat) : Upd := look fun s =>
  let mine := fun (k : Pkt) => k.frame.isNp && k.copies.any fun c => c.dst == .port p && !c.started
  forEach ((s.buf.filter mine).map (·.frame) ++ (s.waiting.filter fun w => mine w.pkt).map (·.pkt.frame)) fun g =>
    all [bump (.guard 0) 9, answerNp g s.synth]

/-- GUARD answers every request toward port `p` that has no completion, and discards the frames queued. -/
def closeOff (p : Nat) (contained : Bool) : Upd := look fun s =>
  all [when_ (!s.isFab p) (all [answerQueued p, answerForwarded p, forSome (s.faceOf p) answerOnLink]), egressDiscard p contained]

/-! ### Containment (R593, Table PORT-10) -/

/-- The locks and prefetched bytes that containment ends (R553, R560). -/
def dropHeld (d : Dom) : Upd := look fun s =>
  let feids := s.feidsOf d
  all [match d with
       | .port p => lockClear p
       | .face f => faceUnlocks f
       | _ => skip,
       prefDiscard fun e => feids.contains e.dest]

/-- Every stream to switch `w` stops (Table GUARD-2, LINK). -/
def streamsStop (w : Nat) : Upd := look fun s =>
  forEach ((s.txs.filter fun e => e.1 / 8 == w && !e.2.dead).map (·.1)) fun k =>
    all [putTx k { s.tx k with proofs := [], resending := none, dead := true }, answerStream k, proofWatch]

/-- The action of Table GUARD-2 on one domain. -/
def actOn (d : Dom) : Upd := look fun s =>
  match d with
  | .lane j => all [forSome (s.owner j) fun p => narrowPort p j, laneOff j]
  | .port p =>
    if s.role p == roleDOWN then all [closeOff p true, linkTo p lsDISABLED, emit (.linkDisabled p)]
    else when_ (s.role p == roleUP) (all [put .portFenced 1 p, closeOff p true])
  | .link k =>
    if k < 0x100 then
      all [put .guardPartner (128 * s.rd (.bridge 4) .BRIDGE_FAB_NBR_PARTNER_SW k + s.rd (.bridge 4) .BRIDGE_FAB_NBR_PARTNER_PORT k) k,
           closeOff k true, linkTo k lsCONTAINED]
    else streamsStop (k - 0x100)
  | .inst v => all [instReset v false, when_ (s.bound? v) (emit (.aer (s.viFace v) .service .uncorrInternal))]
  | .face f => emit (.aer f .usp .uncorrInternal)
  | .device => skip

/-- The state of a domain and of its twins as a containment enters. -/
def enterState (d : Dom) (st : Nat) (cls : Cls) (bySw window : Bool) : Upd := look fun s =>
  forEach (s.twins d) fun e =>
    all [wgds e .GDS_LANE_STATE st, wgds e .GDS_LANE_CLASS cls.code, wgds e .GDS_LANE_WINDOW (b2n window), wgds e .GDS_LANE_BY_SW (b2n bySw),
         wgds e .GDS_LANE_MERGED 0]

/-- The reference that the links of a port's domain run from is lost (R120). -/
def State.refGone (s : State) (d : Dom) : Bool :=
  match d with
  | .port p => s.role p != 0 && s.ivOn .refLost 6
  | .link k => k < 96 && (s.portLanes k).any fun l => s.ivOn .refLost (l / 32)
  | .face f => s.ivOn .refLost 6 && s.role (s.facePort f) == roleUP
  | _ => false

/-- A domain's recovery sequence starts (Table GUARD-6), but in Safe Halt (R623). A power quiesce ends here. -/
def startRecovery (d : Dom) : Upd := look fun s =>
  let quiet := fun (p : Nat) => all [wr (.port p) .BLK_CTRL_QUIESCE 0, wr (.port p) .BLK_STAT_QUIESCED 0]
  let was := s.domState d == gdQUIESCED
  when_ (!s.refGone d && !s.safeHalt) <|
    all [forEach (s.twins d) fun e => wgds e .GDS_LANE_STATE gdRECOVERING,
         match d with
         | .port p =>
           if s.role p == roleUP then all [when_ was (quiet p), forSome (s.faceOf p) faceReset] else when_ was (quiet p)
         | .face f => all [when_ was (quiet (s.facePort f)), faceReset f]
         | .link k => when_ (k < 0x100) <|
             all [when_ was (quiet k), put .guardBack 1 k, when_ (s.link k == lsCONTAINED || was) (wr (.port k) .PORT_LINK_STAT_STATE lsDOWN)]
         | .device => put .devReset 1
         | .lane _ | .inst _ => skip]

/-- Contain a domain: case 5 of R597. -/
def containNow (d : Dom) (r : GReq) (bySw : Bool) : Upd := look fun s =>
  let feids := s.feidsOf d
  let auto := r.cls == .nf && (s.rd (.guard 0) .GUARD_POLICY_AUTO).testBit (domCode d)
  all [enterState d gdCONTAINED r.cls bySw true,
       bump (.guard 0) (domCode d), logRec (reqRec r Rec.CONTAIN (some d)),
       forEach (s.twins d) dropHeld, forEach (s.twins d) actOn,
       forEach feids (feidLost false),
       when_ auto (startRecovery d)]

/-! ### Safe Halt (R621, R622) -/

/-- CAUSE codes of GUARD_HALT_CAUSE. -/
def hcHALT : Nat := 1
def hcSECOND_FAULT : Nat := 2
def hcUNRETAINED : Nat := 3
def hcTHERMAL : Nat := 4
def hcCRYSTAL : Nat := 5
def hcROM : Nat := 6
def hcDEVICE : Nat := 7

/-- Every port in use is contained: its locks end, what waits for it is discarded or answered, and the faces see it (R605). -/
def containPorts (cls : Cls) : Upd := look fun s =>
  forEach (allBelow 96 fun p => s.role p != 0) fun p =>
    let d := s.portDom p
    all [enterState d gdCONTAINED cls false false, forEach (s.twins d) dropHeld, egressDiscard p false, answerForwarded p,
         when_ (s.role p == roleUP) (all [put .portFenced 1 p, forSome (s.faceOf p) fun f => emit (.aer f .usp .uncorrInternal)]),
         forEach (s.feidsOf d) (feidLost false)]

/-- The armed actions are disarmed (R20, R622). -/
def disarmAll : Upd := look fun s =>
  all [turnDisarm, forEach (allBelow 96 fun p => (s.hatchPending p).isSome) fun p => hatchUnpend p]

/-- Safe Halt is entered. -/
def safeHaltNow (cause block dinst bit : Nat) : Upd := look fun s =>
  let word := 1 <<< 31 + cause <<< 27 + (block % 32) <<< 16 + (dinst % 2048) <<< 5 + bit % 32
  let links := forEach (allBelow 96 fun p => s.role p != 0) fun p => linkTo p (if s.isFab p then lsCONTAINED else lsDISABLED)
  when_ (!s.safeHalt) <|
    all [wr .glb .GLB_DEV_STATE_STATE 8, containPorts .halt, links, put .haltRel 0, disarmAll,
         wr (.guard 0) .GUARD_HALT_CAUSE_VALID 1, wr (.guard 0) .GUARD_HALT_CAUSE_CAUSE cause, wr (.guard 0) .GUARD_HALT_CAUSE_BLOCK block,
         wr (.guard 0) .GUARD_HALT_CAUSE_DINST dinst, wr (.guard 0) .GUARD_HALT_CAUSE_BIT bit,
         logRec (domRec .halt Rec.SAFE_HALT none block bit 0 dinst word 0), bump (.guard 0) 15]

/-- FAULT_N is driven low. -/
def State.faultLow (s : State) : Bool :=
  s.safeHalt || (List.range 192).any (fun j => s.contained (.lane j)) ||
  (List.range 96).any (fun p => s.contained (.port p) || s.contained (.link p)) ||
    (List.range 64).any (fun w => s.contained (.link (0x100 + w))) || (List.range 1024).any (fun v => s.contained (.inst v)) ||
    (List.range 32).any (fun f => s.contained (.face f)) || s.contained .device

/-- HALT_N is driven low (Table BOOT-6, R622). -/
def State.haltLow (s : State) : Bool := !s.ivOn .haltRel

/-! ### Power quiesce (R624 to R626) -/

/-- Step 1 of R624 for port `p`. -/
def powerQuiesce (p : Nat) (r : GReq) : Upd := look fun s =>
  let d := s.portDom p
  if s.domState d != gdNONE then logRec (reqRec r Rec.ERROR (some d))
  else
    all [wr (.port p) .BLK_CTRL_QUIESCE 1, forEach (s.twins d) fun e => wgds e .GDS_LANE_STATE gdQUIESCED,
         bump (.guard 0) 11, logRec (reqRec r Rec.POWER_QUIESCE (some d)), forEach (s.feidsOf d) (feidLost true)]

/-- Steps 3 and 4 of R624. -/
def quiesceEnds (p : Nat) : Upd := look fun s =>
  when_ (s.domState (s.portDom p) == gdQUIESCED && s.link p != lsDISABLED && s.link p != lsDOWN) <|
    all [closeOff p false,
         if s.isFab p then all [wr (.port p) .PORT_LINK_STAT_STATE lsRETIRING, linkDown p, resendAll]
         else all [linkTo p lsDISABLED, emit (.linkDisabled p)]]

/-- POWER_QUIESCE_DRAINED. -/
def execPowerQuiesceDrained (p : PortId) : State → Answer := Upd.answer <| look fun s => when_ (s.portIdle p) (quiesceEnds p)

/-- QUIESCE_US_EXPIRY. -/
def execQuiesceUsExpiry (p : PortId) : State → Answer := Upd.answer (quiesceEnds p)

/-- The channel of port `p` gives power-good again (R626). -/
def powerBack (p : Nat) : Upd := look fun s =>
  when_ (s.domState (s.portDom p) == gdQUIESCED) (all [quiesceEnds p, startRecovery (s.portDom p)])

/-! ### From request to containment (R595 to R598) -/

/-- The port whose errors follow from its own containment: the domains to look at (R598). -/
def State.consequential (s : State) (r : GReq) (d : Dom) : Bool :=
  let notNone := fun (e : Dom) => s.domState e != gdNONE
  let ofPort := fun (p : Nat) => ((s.twins (s.portDom p)) ++ [Dom.device]).any notNone
  let page : Bool := (match r.pg with
    | .port p => r.block == 0xA && ofPort p
    | .pwr _ => (match d with
      | .port p => ofPort p
      | .link k => k < 0x100 && ofPort k
      | _ => false)
    | .core 0 => r.block == 6 && r.bit == Err.CORE_MC_PARTIAL.bit && (s.twins d ++ [Dom.device]).any notNone
    | .bridge 4 => r.block == 8 && (r.bit == Err.FAB_PLATE_SKEW.bit || r.bit == Err.FAB_STREAM_DEAD.bit) && (notNone d || notNone .device)
    | _ => false)
  page || (r.block ≤ 0xF && (match d with
    | .link k => 0x100 ≤ k && notNone d
    | _ => false))

/-- A request for domain `of_` merges into the containment of `d`. -/
def mergeInto (d of_ : Dom) (r : GReq) (raise_ : Bool) : Upd := look fun s =>
  all [forEach (s.twins d) fun e =>
         all [wgds e .GDS_LANE_MERGED (min 65535 (s.gds e .GDS_LANE_MERGED + 1)),
              when_ (raise_ && r.cls == .fd) (wgds e .GDS_LANE_CLASS Cls.fd.code)],
       bump (.guard 0) 8, logRec (reqRec r Rec.ERROR (some of_))]

/-- SECOND_FAULT is set and Safe Halt entered (case 2 of R597). -/
def secondFault (d : Dom) (r : GReq) : Upd :=
  all [logRec (reqRec r Rec.ERROR (some d)), raise (.guard 0) .GUARD_SECOND_FAULT, modGreqs fun l => l.dropLast,
       safeHaltNow hcSECOND_FAULT r.block (domInst d) r.bit]

/-- A DEVICE containment (R616). -/
def containDevice (r : GReq) (bySw : Bool) : Upd := look fun s =>
  let links := forEach (allBelow 96 fun p => s.role p != 0) fun p => linkTo p (if s.isFab p then lsCONTAINED else lsDISABLED)
  all [enterState .device gdCONTAINED r.cls bySw true, bump (.guard 0) 5, logRec (reqRec r Rec.CONTAIN (some .device)),
       containPorts r.cls, links,
       if s.on (.guard 0) .GUARD_POLICY_DEV_RESET then put .devReset 1 else safeHaltNow hcDEVICE r.block 0 r.bit]

/-- The domain whose containment holds `d`: itself, or the narrowest wider one. -/
def State.holder? (s : State) (d : Dom) : Option Dom := ((s.twins d) ++ s.wider d).find? s.inForce

/-- R597 for a request of class NF or FD on a domain of this switch. -/
def handleFor (d : Dom) (r : GReq) (bySw : Bool) : Upd := look fun s =>
  if s.consequential r d then mergeInto ((s.holder? d).getD d) d r false
  else if s.gds d .GDS_LANE_WINDOW == 1 then secondFault d r
  else match s.holder? d with
    | some e => mergeInto e d r true
    | none => if d == .device then containDevice r bySw else containNow d r bySw

/-- A CONTAIN_REQ frame goes to the switch of FEID `n` (Table GUARD-4). -/
def sendContainReq (n : Nat) (r : GReq) : Upd := look fun s =>
  forSome (s.idRoute? s.live n) fun x =>
    sendGuard x.sw 10 (.containReq (if r.cls == .fd then 2 else 1) s.switchId r.block r.bit n)

/-- GUARD handles one request. -/
def handle (r : GReq) (bySw : Bool) : Upd := look fun s =>
  let dom := match r.dom with
    | .dom d => some d
    | .feid n => s.domOfFeid n
    | .none => none
  if s.safeHalt then logRec (reqRec r Rec.ERROR dom)
  else if r.warn then (match r.dom with
    | .dom (.port p) => powerQuiesce p r
    | .dom (.link p) => powerQuiesce p r
    | _ => logRec (reqRec r Rec.ERROR dom))
  else if r.cls == .halt then
    let cause := if r.block == 3 && r.bit == Err.GUARD_SECOND_FAULT.bit then hcSECOND_FAULT
      else if r.block == 3 && r.bit == Err.GUARD_UNRETAINED_LOSS.bit then hcUNRETAINED else hcHALT
    all [logRec (reqRec r Rec.ERROR dom), safeHaltNow cause r.block ((dom.map domInst).getD 0) r.bit]
  else match r.dom, dom with
    | .none, _ => logRec (reqRec r Rec.ERROR none)
    | .feid n, none => all [sendContainReq n r, logRec (reqRec r Rec.ERROR none)]
    | _, some d => handleFor d r bySw
    | _, none => skip

/-- CONTAINMENT_REQUEST. -/
def execContainmentRequest : State → Answer := Upd.answer <| look fun s =>
  match s.greqs with
  | [] => skip
  | r :: _ => all [modGreqs fun l => l.drop 1, handle r (r.block == 0x10)]

/-! ### Release (R611 to R615) -/

/-- GUARD releases a domain, and with it the narrower ones it holds (R594, R615). -/
def release (d : Dom) : Upd := look fun s =>
  let clear := fun (e : Dom) =>
    all [wgds e .GDS_LANE_STATE gdNONE, wgds e .GDS_LANE_CLASS 0, wgds e .GDS_LANE_BY_SW 0, wgds e .GDS_LANE_MERGED 0,
         when_ (e != d) (wgds e .GDS_LANE_WINDOW 0)]
  let inner := (((List.range 192).map Dom.lane) ++ ((List.range 1024).map Dom.inst)).filter fun e => (s.wider e).contains d && s.inForce e
  let feids := s.feidsOf d
  all [logRec (domRec (.ofCode (s.gds d .GDS_LANE_CLASS)) Rec.RELEASE (some d) 3 0 0 0 0 0), bump (.guard 0) 6,
       forEach (s.twins d ++ inner) clear,
       forEach (s.twins d) fun e => (match e with
         | .port p => put .portFenced 0 p
         | _ => skip),
       when_ (!feids.isEmpty) (all [sendDomainEvent deREACHABLE feids, put .reachLeft 2 (domIndex d)]),
       feidsBack feids]

/-- A sequence has reached its end, as far as the state shows (Table GUARD-6). -/
def State.sequenceDone (s : State) (d : Dom) : Bool :=
  match d with
  | .lane j => (match s.owner j with
    | some p => s.link p != lsWIDTH
    | none => true)
  | .port p => if s.role p == roleUP then (match s.faceOf p with
      | some f => s.rd (.face f) .FACE_BIND_STATE == fcREADY
      | none => s.carries p)
    else s.carries p
  | .link k => if k < 0x100 then s.usable k else !s.txs.any fun e => e.1 / 8 == k - 0x100 && e.2.dead
  | .inst v => !s.resetting v
  | .face f => s.rd (.face f) .FACE_BIND_STATE == fcREADY
  | .device => false

/-- A domain has joined the containment of a wider one, and ends with it (R594); in Safe Halt none ends (R623). -/
def State.joined (s : State) (d : Dom) : Bool := s.safeHalt || (s.wider d).any s.inForce

/-- HOLD is set for the domain, or for the one that is one with it (R594). -/
def State.heldBack (s : State) (d : Dom) : Bool := (s.twins d).any fun e => s.gds e .GDS_LANE_HOLD == 1

/-- The domain may be released now, or waits in HELD. -/
def finishRecovery (d : Dom) : Upd := look fun s =>
  if s.gds d .GDS_LANE_WINDOW == 1 || s.heldBack d then forEach (s.twins d) fun e => wgds e .GDS_LANE_STATE gdHELD
  else release d

/-- RECOVERY_COMPLETE. -/
def execRecoveryComplete (d : Dom) : State → Answer := Upd.answer <| look fun s =>
  when_ (domOk d && s.domState d == gdRECOVERING && s.sequenceDone d && !s.joined d) (finishRecovery d)

/-- RECOVERY_TIMEOUT. -/
def execRecoveryTimeout (d : Dom) : State → Answer := Upd.answer <| look fun s =>
  let endless : Bool := (match d with
    | .link k => k < 0x100 && s.on (.port k) .PORT_LINK_STAT_ABSENT
    | .face f => s.rd (.face f) .FACE_BIND_STATE == fcRESET
    | .port p => s.role p == roleUP && !s.carries p
    | _ => false)
  when_ (domOk d && s.domState d == gdRECOVERING && !endless && !s.safeHalt) <|
    all [forEach (s.twins d) fun e => wgds e .GDS_LANE_STATE gdFAILED, bump (.guard 0) 7,
         logRec (domRec (.ofCode (s.gds d .GDS_LANE_CLASS)) Rec.RECOVERY_FAIL (some d) 3 Err.GUARD_RECOVERY_FAIL.bit 0 0 0 0),
         raise (.guard 0) .GUARD_RECOVERY_FAIL]

/-- RECOVERY_WINDOW_CLOSE (R599). -/
def execRecoveryWindowClose (d : Dom) : State → Answer := Upd.answer <| look fun s =>
  when_ (domOk d) <|
    all [forEach (s.twins d) fun e => wgds e .GDS_LANE_WINDOW 0,
         when_ (s.domState d == gdHELD && !s.heldBack d && !s.joined d) (release d)]

/-- RELEASE of a domain (R611, R614, R615); one in HELD whose window is open waits for its close (R599). -/
def releaseWrite (d : Dom) : Upd := look fun s =>
  let x := s.domState d
  when_ (!s.joined d) <|
    if x == gdCONTAINED || x == gdFAILED then startRecovery d
    else when_ (x == gdHELD && s.gds d .GDS_LANE_WINDOW == 0) (release d)

/-- CONTAIN of a domain: a request of class FD by software, handled at once. -/
def containWrite (st : Stamp) (d : Dom) : Upd :=
  handle { pg := .guard 1, bit := 0, cls := .fd, dom := .dom d, block := 0x10, detail0 := 0, detail1 := st.code, warn := false } true

/-- The value that a write to a locked page carries to its register: the fields that the lock lets through, and the present
values of the others. -/
def State.maskLocked (s : State) (st : Stamp) (pg : Pg) (off v : Nat) : Nat :=
  let m := lockMask pg off
  (v &&& m) ||| ((fieldsAt pg off).map fun (f, i) =>
    if f.ty == .rw && !m.testBit f.lo then (if f.perStamp then s.rdSt st.code pg f i else s.rd pg f i) <<< f.lo else 0).sum

/-- A write to a register of a locked page that would change a field the lock discards (R82). -/
def State.lockChanges (s : State) (st : Stamp) (pg : Pg) (off v : Nat) : Bool :=
  (fieldsAt pg off).any fun (f, i) => !(lockMask pg off).testBit f.lo && (match f.ty with
    | .rw => f.of v != (if f.perStamp then s.rdSt st.code pg f i else s.rd pg f i)
    | .w1c | .w1s | .wo => f.of v != 0
    | _ => false)

/-- A granted write of `v` to a register that the page lock lets through in part (R82). -/
def grantedPart (st : Stamp) (pg : Pg) (off v : Nat) (u : Nat → Upd) : Upd := look fun s =>
  granted st pg off <|
    if s.locked pg then all [u (s.maskLocked st pg off v), when_ (s.lockChanges st pg off v) (discardLocked st pg)] else u v

/-- A write of `v` to GUARD_DOMAIN_STAT of `d`. -/
def gdsWrite (st : Stamp) (d : Dom) (v : Nat) : Upd :=
  all [wgds d .GDS_LANE_HOLD (bits v 29 29), when_ (v.testBit 31) (containWrite st d),
       when_ (v.testBit 30 && !v.testBit 31) (releaseWrite d)]

/-- The offset of a domain's GUARD_DOMAIN_STAT. -/
def domReg (d : Dom) : Nat := (domOff d).1 + 4 * (domOff d).2

/-- DOMAIN_CONTAIN. -/
def execDomainContain (st : Stamp) (d : Dom) (v : Word) : State → Answer := Upd.answer <|
  when_ (domOk d) (grantedPart st (.guard 1) (domReg d) v.toNat (gdsWrite st d))

/-- DOMAIN_RELEASE. -/
def execDomainRelease (st : Stamp) (d : Dom) (v : Word) : State → Answer := Upd.answer <|
  when_ (domOk d) (grantedPart st (.guard 1) (domReg d) v.toNat (gdsWrite st d))

/-- PORT_RELEASE (R260). -/
def execPortRelease (st : Stamp) (p : PortId) : State → Answer := Upd.answer <| look fun s =>
  granted st (.port p) 0x110 (releaseWrite (s.portDom p))

/-- DPC_HOLD_EXPIRY: DPC is released, and the port trains. -/
def execDpcHoldExpiry (p : PortId) : State → Answer := Upd.answer <| look fun s =>
  when_ (s.role p == roleDOWN && s.domState (.port p) == gdRECOVERING && s.link p == lsDISABLED && !s.safeHalt) <|
    wr (.port p) .PORT_LINK_STAT_STATE (s.restState p)

/-! ### Events between switches (R603, R604) -/

/-- DOMAIN_EVENT_REPEAT. -/
def execDomainEventRepeat (d : Dom) : State → Answer := Upd.answer <| look fun s =>
  let feids := s.feidsOf d
  let here : Bool := (match d with
    | .port _ | .face _ => true
    | _ => false)
  when_ (domOk d && here && !feids.isEmpty) <|
    if s.domState d == gdQUIESCED then sendDomainEvent deORDERLY feids
    else if s.contained d then sendDomainEvent deUNREACHABLE feids
    else when_ (s.ivOn .reachLeft (domIndex d)) <|
      all [sendDomainEvent deREACHABLE feids, put .reachLeft (s.iv .reachLeft (domIndex d) - 1) (domIndex d)]

/-- DOMAIN_EVENT_RECEIVED. -/
def execDomainEventReceived (code : Fin 4) (_sw : SwId) (feids : List Feid) : State → Answer := Upd.answer <|
  let ns := feids.map (·.toNat)
  if code.val == deREACHABLE then all [forEach ns fun n => put .unreach 0 n, feidsBack ns]
  else when_ (code.val == deUNREACHABLE || code.val == deORDERLY) <|
    forEach ns fun n => look fun s =>
      all [when_ (!s.unreachable n) (feidLost (code.val == deORDERLY) n), put .unreach code n]

/-- UNREACHABLE_MARK_EXPIRY. -/
def execUnreachableMarkExpiry (n : Feid) : State → Answer := Upd.answer <| look fun s =>
  when_ (s.ivOn .unreach n.toNat) (all [put .unreach 0 n.toNat, feidsBack [n.toNat]])

/-- CONTAIN_REQ_RECEIVED. -/
def execContainReqReceived (fd : Bool) (sw : SwId) (_block bit : Fin 32) (n : Feid) : State → Answer := Upd.answer <| look fun s =>
  let here := match s.idRoute? s.live n.toNat with
    | some r => r.isLocal
    | none => false
  when_ here <|
    all [raise (.guard 0) .GUARD_REMOTE_REQ,
         handle { pg := .guard 0, bit := bit, cls := if fd then .fd else .nf, dom := .feid n.toNat, block := 0x11, detail0 := n.toNat,
                  detail1 := sw, warn := false } false]

/-- A write of `v` to GUARD_ELOG_CTRL. -/
def elogCtrlWrite (v : Nat) : Upd :=
  when_ (v.testBit 31) (all [putFifo .elog [], wr (.guard 0) .GUARD_ELOG_CTRL_LOST 0])

/-- ELOG_CLEAR. -/
def execElogClear (st : Stamp) (v : Word) : State → Answer := Upd.answer <|
  granted st (.guard 0) 0x10C (elogCtrlWrite v.toNat)

end Sys2Proof.Machine
end

