-- ==== Sys2Proof/Machine/Sec.lean ====
section
/-! DEFINITION. The security core: ownership records and tokens, page locks and the management grant, the SPDM responder, IDE
keys, device authentication, link rekeys and the debug lock (spec/18). -/

namespace Sys2Proof.Machine

/-! ### Ownership and what the current record holds (R633, R635) -/

/-- The part is OWNED (R635). -/
def State.owned (s : State) : Bool := (List.range 4).any fun k => (s.ownerKey? k).isSome

/-- The debug state. -/
def State.debugState (s : State) : Nat := s.rd (.sec 0) .SEC_DEBUG_STATE

/-- A new ownership record with the keys `ks` (R636): a verification that runs ends with STATUS = SIG. -/
def newRecord (ks : List Nat) : Upd := look fun s =>
  all [put .ownRec (s.iv .ownRec + 1), forBelow 4 fun k => put .ownKey (ks.getD k 0) k,
       when_ (s.on (.route 0) .ROUTE_VERIFY_CTRL_BUSY) (put .sigStale 1),
       forBelow 96 fun p => when_ (s.on (.sched p) .SCHED_HATCH_VERIFY_BUSY) (put .sigStale 1 (1 + p)),
       raise (.sec 0) .SEC_OWNER_CHANGED]

/-- SEC_NONCE takes a new random value (R639). -/
def newNonce : Upd := forBelow 4 fun k => drawWord fun w => wr (.sec 0) .SEC_NONCE_DW w k

/-! ### Page locks and the grant (R641, R643, R274) -/

/-- The pages on which a lock bit acts: those with a common header, SEC's own apart (R641). -/
def lockable : Pg → Bool
  | .sec _ => false
  | pg => pg.common

/-- The page that bit `i` of a page bitmap names, where a lock acts on it. -/
def lockPage? (i : Nat) : Option Pg := (pgAt (i * 0x10000)).filter lockable

/-- LOCKED is set; LOCK_GEN advances when it changes from 0 to 1. -/
def lockPage (pg : Pg) : Upd := look fun s =>
  when_ (!s.on pg .PAGE_LOCK_LOCKED) <|
    all [wr pg .PAGE_LOCK_LOCKED 1, wr pg .PAGE_LOCK_LOCK_GEN (s.rd pg .PAGE_LOCK_LOCK_GEN + 1)]

/-- Each page whose bit of the bitmap `m` is set, over the 1,024 pages of the space. -/
def forPages (m : Nat) (u : Pg → Upd) : Upd :=
  forEach (allBelow 1024 m.testBit) fun i => forSome (lockPage? i) u

/-- LOCKED of a page is cleared; LOCK_GEN stays (R641). -/
def unlockPage (pg : Pg) : Upd := wr pg .PAGE_LOCK_LOCKED 0

/-- The management grant mask is replaced (R274). -/
def setGrant (m : Nat) : Upd := wr (.sec 0) .SEC_GRANT_MASK m

/-- A write of `v` to SEC_LOCK_MAP[k] (R643). -/
def lockMapWrite (k v : Nat) : Upd := forPages (v <<< (32 * k)) lockPage

/-- PAGE_LOCK_WRITE. -/
def execPageLockWrite (st : Stamp) (k : Fin 32) (v : Word) : State → Answer := Upd.answer <|
  granted st (.sec 0) (0x400 + 4 * k) (lockMapWrite k v.toNat)

/-! ### Tokens (R637 to R639, R718) -/

/-- The STATUS codes of SEC_TOKEN_CTRL. -/
def tkOK : Nat := 1
def tkBUSY : Nat := 2
def tkFORMAT : Nat := 3
def tkDEVICE : Nat := 4
def tkNONCE : Nat := 5
def tkSIG : Nat := 6
def tkSTATE : Nat := 7
def tkARG : Nat := 8
def tkEXHAUSTED : Nat := 9

/-- The operations of Table SEC-3. -/
def opCLAIM : Nat := 0x01
def opTRANSFER : Nat := 0x02
def opRELEASE : Nat := 0x03
def opUNLOCK_PAGES : Nat := 0x10
def opGRANT : Nat := 0x11
def opARB_ADVANCE : Nat := 0x12
def opDEBUG_UNLOCK : Nat := 0x13

/-- The operations that Table SEC-3 lists. -/
def tokenOps : List Nat := [opCLAIM, opTRANSFER, opRELEASE, opUNLOCK_PAGES, opGRANT, opARB_ADVANCE, opDEBUG_UNLOCK]

/-- Bytes `off` to `off + n − 1` of a token (Table SEC-2), as a little-endian number. -/
def tokenField (t off n : Nat) : Nat := bits t (8 * (off + n) - 1) (8 * off)

/-- The OP of a token. -/
def tokenOp (t : Nat) : Nat := tokenField t 7 1

/-- Key `k` of the ARG of a CLAIM or TRANSFER: x, then y. -/
def tokenKey (t k : Nat) : Nat := tokenField t (0x20 + 96 * k) 96

/-- The token in the buffer of stamp `st`. -/
def State.tokenOf (s : State) (st : Nat) : Nat :=
  ((List.range 128).map fun i => s.rdSt st (.sec 0) .SEC_TOKEN_BUF_DW i <<< (32 * i)).sum

/-- Check 2 of Table SEC-13. -/
def State.tokenFormat (s : State) (t : Nat) : Bool :=
  let slot := tokenField t 6 1
  let op := tokenOp t
  tokenField t 0 4 == 0x4E4B4F54 && tokenField t 4 2 == 1 && tokenOps.contains op &&
    (if op == opCLAIM then slot == 0
     else if op == opDEBUG_UNLOCK && !s.owned then slot == 0xFF else (s.ownerKey? slot).isSome)

/-- SEC_NONCE. -/
def State.nonce (s : State) : Nat := ((List.range 4).map fun k => s.rd (.sec 0) .SEC_NONCE_DW k <<< (32 * k)).sum

/-- Check 6: the "Allowed when" column of Table SEC-3 (R658). -/
def State.tokenAllowed (s : State) (op : Nat) : Bool :=
  if op == opCLAIM then !s.owned
  else if op == opDEBUG_UNLOCK then s.debugState == dbLOCKED && !s.on (.sec 0) .SEC_DEBUG_DENY
  else s.owned

/-- Check 7: ARG is valid for the OP. -/
def State.tokenArg (s : State) (t : Nat) : Bool :=
  let op := tokenOp t
  let arg := tokenField t 0x20 384
  let zeroFrom (n : Nat) : Bool := arg >>> (8 * n) == 0
  if op == opCLAIM || op == opTRANSFER then
    tokenKey t 0 != 0 && (List.range 4).all fun k => tokenKey t k == 0 || onCurve (tokenKey t k)
  else if op == opUNLOCK_PAGES then
    zeroFrom 128 && (List.range 1024).all fun i => !(arg.testBit i && inReserved (i * 0x10000))
  else if op == opGRANT then zeroFrom 4
  else if op == opARB_ADVANCE then zeroFrom 1 && s.arbAt 1 < arg % 256 && arg % 256 ≤ 127
  else zeroFrom 0

/-- An operation that writes an ownership record. -/
def writesRecord (op : Nat) : Bool := op == opCLAIM || op == opTRANSFER || op == opRELEASE

/-- Check 5: the key that KEY_SLOT names, or key 0 of the ARG of a CLAIM, and the signature over bytes 0x000 to 0x19F. -/
def State.tokenSigned (s : State) (t : Nat) : Bool :=
  let slot := tokenField t 6 1
  let key := if tokenOp t == opCLAIM then some (tokenKey t 0) else if slot == 0xFF then some (s.iv .romKey) else s.ownerKey? slot
  key.any fun k => signedBy k (bytesOf t 0x1A0) (bytesOf (tokenField t 0x1A0 96) 96)

/-- The STATUS of a token after checks 2 to 8, in order (Table SEC-13). -/
def State.tokenStatus (s : State) (t : Nat) : Nat :=
  if !s.tokenFormat t then tkFORMAT
  else if tokenField t 8 8 != s.iv .devId then tkDEVICE
  else if tokenField t 16 16 != s.nonce then tkNONCE
  else if !s.tokenSigned t then tkSIG
  else if !s.tokenAllowed (tokenOp t) then tkSTATE
  else if !s.tokenArg t then tkARG
  else if writesRecord (tokenOp t) && 15 ≤ s.iv .ownRec then tkEXHAUSTED
  else tkOK

/-- The effect of an accepted token (Table SEC-3). -/
def tokenEffect (t : Nat) : Upd :=
  let op := tokenOp t
  let arg := tokenField t 0x20 384
  if op == opCLAIM || op == opTRANSFER then newRecord ((List.range 4).map (tokenKey t))
  else if op == opRELEASE then newRecord []
  else if op == opUNLOCK_PAGES then forPages (arg % 2 ^ 1024) unlockPage
  else if op == opGRANT then setGrant arg
  else if op == opARB_ADVANCE then raiseArb 1 arg
  else wr (.sec 0) .SEC_DEBUG_STATE dbPENDING

/-- The token that runs is checked, and takes effect when every check passes. -/
def tokenProcess : Upd := look fun s =>
  when_ (s.ivOn .tokRun && !s.ivOn .tokRes) <|
    let t := s.iv .tokRaw
    let r := s.tokenStatus t
    all [put .tokRes r, when_ (r == tkOK) (tokenEffect t)]

/-- A token is refused: its STATUS, counter 1, TOKEN_REFUSED. -/
def tokenRefused (st status : Nat) : Upd :=
  all [wrSt st (.sec 0) .SEC_TOKEN_CTRL_STATUS status, bump (.sec 0) 1, raise (.sec 0) .SEC_TOKEN_REFUSED]

/-- GO (check 1, R639): the token of stamp `st` begins to run, or ends BUSY. -/
def tokenGo (st : Nat) : Upd := look fun s =>
  if s.ivOn .tokRun then tokenRefused st tkBUSY
  else all [put .tokRun (st + 1), put .tokRaw (s.tokenOf st), put .tokRes 0, wrSt st (.sec 0) .SEC_TOKEN_CTRL_GO 1]

/-- A write of `v` to SEC_TOKEN_CTRL. -/
def tokenCtrlWrite (st v : Nat) : Upd := when_ (v.testBit 31) (tokenGo st)

/-- A token of operation `op` is submitted and, unless it ends BUSY, checked. The buffer holds a token of that operation. -/
def tokenSubmit (op : Nat) (st : Stamp) (v : Nat) : Upd := look fun s =>
  when_ (v.testBit 31 && tokenOp (s.tokenOf st.code) == op) <|
    granted st (.sec 0) 0x120 (if s.ivOn .tokRun then tokenRefused st.code tkBUSY else all [tokenGo st.code, tokenProcess])

/-- TOKEN_CLAIM. -/
def execTokenClaim (st : Stamp) (v : Word) : State → Answer := Upd.answer (tokenSubmit opCLAIM st v.toNat)

/-- TOKEN_TRANSFER. -/
def execTokenTransfer (st : Stamp) (v : Word) : State → Answer :=
  Upd.answer (tokenSubmit opTRANSFER st v.toNat)

/-- TOKEN_RELEASE. -/
def execTokenRelease (st : Stamp) (v : Word) : State → Answer :=
  Upd.answer (tokenSubmit opRELEASE st v.toNat)

/-- TOKEN_UNLOCK_PAGES. -/
def execTokenUnlockPages (st : Stamp) (v : Word) : State → Answer :=
  Upd.answer (tokenSubmit opUNLOCK_PAGES st v.toNat)

/-- TOKEN_GRANT. -/
def execTokenGrant (st : Stamp) (v : Word) : State → Answer := Upd.answer (tokenSubmit opGRANT st v.toNat)

/-- TOKEN_ARB_ADVANCE. -/
def execTokenArbAdvance (st : Stamp) (v : Word) : State → Answer :=
  Upd.answer (tokenSubmit opARB_ADVANCE st v.toNat)

/-- TOKEN_DEBUG_UNLOCK. -/
def execTokenDebugUnlock (st : Stamp) (v : Word) : State → Answer :=
  Upd.answer (tokenSubmit opDEBUG_UNLOCK st v.toNat)

/-- TOKEN_FINISHED (R638, R639): STATUS and OP are set, GO reads 0, and SEC_NONCE takes a new value. -/
def execTokenFinished : State → Answer := Upd.answer <| look fun s =>
  let st := s.iv .tokRun - 1
  when_ (s.ivOn .tokRun) <| all [tokenProcess, look fun t =>
    all [wrSt st (.sec 0) .SEC_TOKEN_CTRL_GO 0, wrSt st (.sec 0) .SEC_TOKEN_CTRL_OP (tokenOp (t.iv .tokRaw)),
         if t.iv .tokRes == tkOK then all [wrSt st (.sec 0) .SEC_TOKEN_CTRL_STATUS tkOK, bump (.sec 0) 0]
         else tokenRefused st (t.iv .tokRes),
         put .tokRun 0, put .tokRaw 0, put .tokRes 0, newNonce]]

/-! ### The SPDM responder (R646, R647) -/

/-- The numbers that measurement `k` is taken over (Table SEC-6). -/
def State.measured (s : State) : Nat → List Nat
  | 2 =>
    let k := s.rd .glb .GLB_DEV_STATE_FW_SLOT
    [Config.firmwareDigest k (s.iv .slotSeq k), s.iv .slotSecVer k]
  | 4 => s.iv .ownRec :: (commonPages.map fun pg => s.dwordAt pg 0xC0) ++ [s.rd (.sec 0) .SEC_GRANT_MASK]
  | 5 => [s.rd (.route 0) .ROUTE_GEN_GENERATION s.live, ofBytes (sha384 (blockBytes (s.iv .liveSig)))]
  | 6 => (List.range 96).flatMap fun p => match s.hatchActive p with
    | some l => [p, l, s.rd (.sched p) .SCHED_HATCH_GEN_GENERATION l]
    | none => []
  | 7 => [s.arbAt 0, s.arbAt 1, s.debugState]
  | _ => []

/-- Measurement `k` as SEC reports it: a SHA-384 digest (R646). -/
def State.measurement (s : State) (k : Nat) : List Nat :=
  if k == 1 then Config.romDigest
  else if k == 3 then sha384 (bytesOf (s.iv .cfgHdr) 256)
  else sha384 (Config.measuredBytes k (s.measured k))

/-- Sessions that a transport may hold at once (Table SEC-7). -/
def spdmLimit (ch : DoeOrMctp) : Nat := if ch.isSome then 2 else 4

/-- The index of a transport's sessions. -/
def spdmIndex : DoeOrMctp → Nat
  | some f => f
  | none => 32

/-- SPDM_REQUEST (R647): two certificate slots, seven measurements, and a bounded number of sessions, each opened by a key exchange
and its FINISH. -/
def execSpdmRequest (ch : DoeOrMctp) (r : SpdmReq) : State → Answer := Upd.answer <| throughFirmware ch <| look fun s =>
  let i := spdmIndex ch
  let n := s.iv .spdmSess i
  match r with
  | .getVersion => spdmAnswer ch .version
  | .getCapabilities => spdmAnswer ch .capabilities
  | .negotiateAlgorithms => spdmAnswer ch .algorithms
  | .getDigests => spdmAnswer ch .digests
  | .getCertificate k =>
    if k.val < 2 then spdmAnswer ch (.certificate k (k.val == 1 && s.debugState == dbUNLOCKED)) else spdmRefuse ch
  | .challenge k => if k.val < 2 then spdmAnswer ch (.challengeAuth k) else spdmRefuse ch
  | .getMeasurements k =>
    if 1 ≤ k.val && k.val ≤ 7 then spdmAnswer ch (.measurement k (s.measurement k)) else spdmRefuse ch
  | .keyExchange k =>
    if k.val < 2 && n + s.iv .spdmShake i < spdmLimit ch then
      all [modIv .spdmShake (· + 1) i, spdmAnswer ch .keyExchange]
    else spdmRefuse ch
  | .finish =>
    if s.ivOn .spdmShake i then
      all [modIv .spdmShake (· - 1) i, put .spdmSess (n + 1) i, bump (.sec 0) 2, spdmAnswer ch .finish]
    else spdmRefuse ch
  | .heartbeat => if 0 < n then spdmAnswer ch .heartbeatAck else spdmRefuse ch
  | .keyUpdate => if 0 < n then spdmAnswer ch .keyUpdateAck else spdmRefuse ch
  | .endSession => if 0 < n then all [put .spdmSess (n - 1) i, spdmAnswer ch .endSessionAck] else spdmRefuse ch
  | .other => spdmRefuse ch

/-! ### IDE keys (R647 to R650) -/

/-- A stream becomes Secure under key set `set`. -/
def ideSecure (p stream set : Nat) : Upd := look fun s =>
  if stream == 0 then all [wr (.sec 1) .SEC_IDE_STAT_LINK_SECURE 1 p, wr (.sec 1) .SEC_IDE_STAT_LINK_KSET set p]
  else wr (.sec 1) .SEC_IDE_STAT_SEL_SECURE (setBit (s.rd (.sec 1) .SEC_IDE_STAT_SEL_SECURE p) (stream - 1)) p

/-- A stream becomes Insecure. -/
def ideInsecure (p stream : Nat) : Upd := look fun s =>
  if stream == 0 then wr (.sec 1) .SEC_IDE_STAT_LINK_SECURE 0 p
  else wr (.sec 1) .SEC_IDE_STAT_SEL_SECURE (clearBits (s.rd (.sec 1) .SEC_IDE_STAT_SEL_SECURE p) (1 <<< (stream - 1))) p

/-- An integrity or sequence failure on port `p` (R650): the stream the TLP was in becomes Insecure. -/
def ideFail (p : Nat) : Upd := look fun s =>
  all [if s.on (.sec 1) .SEC_IDE_STAT_LINK_SECURE p then ideInsecure p 0 else forBelow 4 fun k => ideInsecure p (k + 1),
       wr (.sec 1) .SEC_IDE_STAT_FAIL 1 p, bump (.sec 0) 6, raiseIn (.sec 0) .SEC_IDE_FAIL (s.portDom p)]

/-- IDE_KM_REQUEST (R647): the face's UP port is keyed, inside a session on the face's own DOE only. A stream is Secure while a key
set of it is in use whole; the set put in use last is the active one. -/
def execIdeKmRequest (ch : DoeOrMctp) (m : IdeKm) : State → Answer := Upd.answer <| inSession ch fun f => look fun s =>
  let p := s.facePort f
  if !s.on (.face f) .FACE_BIND_ENABLE then spdmRefuse ch
  else match m with
    | .query => spdmAnswer ch (.ideQuery p)
    | .keyProg k set key id =>
      let i := ideSet p k set
      all [put .ideKey (setBit (s.iv .ideKey i) key) i,
           if k.val == 0 then wr (.sec 1) .SEC_IDE_STAT_LINK_ID id p
           else wr (.sec 1) .SEC_IDE_STAT_SEL_VALID (setBit (s.rd (.sec 1) .SEC_IDE_STAT_SEL_VALID p) (k - 1)) p,
           spdmAnswer ch (.ideAck k set key)]
    | .goSet k set key =>
      let i := ideSet p k set
      if !(s.iv .ideKey i).testBit key then spdmRefuse ch
      else all [put .ideGo (setBit (s.iv .ideGo i) key) i,
                when_ (setBit (s.iv .ideGo i) key == ideAll) (ideSecure p k set), spdmAnswer ch (.ideAck k set key)]
    | .stopSet k set key =>
      let i := ideSet p k set
      let whole := fun n => s.iv .ideGo n == ideAll
      all [put .ideGo (clearBits (s.iv .ideGo i) (1 <<< key.val)) i,
           when_ (whole i) (if whole (ideSet p k (1 - set)) then ideSecure p k (1 - set) else ideInsecure p k),
           spdmAnswer ch (.ideAck k set key)]

/-- DEVICE_AUTH_DONE (R649): a link stream is set up when the device's root certificate is one of DEV_ROOT. -/
def execDeviceAuthDone (p : PortId) (chainOk : Bool) (root : Nat) : State → Answer := Upd.answer <| look fun s =>
  let roots := ((List.range 4).map fun k => s.iv .devRoot k).filter (· != 0)
  when_ (s.role p == roleDOWN && s.carries p && s.ivOn .ideDown p && !roots.isEmpty) <|
    if chainOk && roots.contains root then
      all [wr (.sec 1) .SEC_IDE_STAT_DEV_AUTH 1 p, put .ideKey ideAll (ideSet p 0 0), put .ideGo ideAll (ideSet p 0 0),
           ideSecure p 0 0, drawWord fun w => wr (.sec 1) .SEC_IDE_STAT_LINK_ID w p]
    else all [wr (.sec 1) .SEC_IDE_STAT_DEV_AUTH 0 p, raiseIn (.sec 0) .SEC_DEV_AUTH_FAIL (s.portDom p)]

/-! ### Rekeys (R654) and the debug lock (R658) -/

/-- A rekey starts: a HELLO goes out under the current key. -/
def rekeyStart (p : Nat) : Upd := look fun s =>
  when_ (s.linkRuns p && s.on (.port p) .PORT_LINK_STAT_ENC && !s.ivOn .rekeying p && !s.ivOn .nextKey p) <|
    all [put .rekeying 1 p, wr (.sec 2) .SEC_LINK_STAT_REKEY 1 p, sendHello p]

/-- A write of `v` to SEC_LINK_STAT[p]. -/
def linkStatWrite (p v : Nat) : Upd := when_ (v.testBit 29) (rekeyStart p)

/-- LINK_REKEY. -/
def execLinkRekey (p : PortId) (w : Option (Stamp × Word)) : State → Answer := Upd.answer <|
  match w with
  | some (st, v) => granted st (.sec 2) (0x100 + 4 * p) (linkStatWrite p v.toNat)
  | none => look fun s => when_ (2 ^ 40 ≤ s.iv .txNum p) (rekeyStart p)

/-- REKEY_TIMEOUT: REKEY_FAIL, and the LINK domain of the port is contained. -/
def execRekeyTimeout (p : PortId) : State → Answer := Upd.answer <| look fun s =>
  when_ (s.ivOn .rekeying p) <|
    all [put .rekeying 0 p, wr (.sec 2) .SEC_LINK_STAT_REKEY 0 p, raiseIn (.sec 0) .SEC_REKEY_FAIL (s.portDom p)]

/-- A write of `v` to SEC_DEBUG: RELOCK locks debug at once. -/
def debugWrite (v : Nat) : Upd := when_ (v.testBit 31) (all [wr (.sec 0) .SEC_DEBUG_STATE dbLOCKED, emit (.debugPins false)])

/-- DEBUG_RELOCK. -/
def execDebugRelock (st : Stamp) (v : Word) : State → Answer := Upd.answer (granted st (.sec 0) 0x150 (debugWrite v.toNat))

end Sys2Proof.Machine
end

