-- ==== Sys2Proof/Machine/Pwr.lean ====
section
/-! DEFINITION. The power-path channels: states, cut-offs, retries, power-good, dual feeds, feed checks and telemetry
(spec/19). -/

namespace Sys2Proof.Machine

/-! ### Channel state (Table PWR-2) -/

def pcOFF : Nat := 0
def pcWAIT_SEAT : Nat := 1
def pcWAIT_FEED : Nat := 2
def pcRAMP : Nat := 3
def pcON : Nat := 4
def pcWARN : Nat := 5
def pcRETRY_WAIT : Nat := 6
def pcLATCHED : Nat := 7
def pcFEED_LOST : Nat := 8

/-- Causes of a cut-off, in the order of Table PWR-3. -/
def cutFAST_TRIP : Nat := 2
def cutOV : Nat := 3
def cutFAULT : Nat := 4
def cutFET : Nat := 5
def cutSEAT : Nat := 6
def cutFEED : Nat := 7
def cutOFF : Nat := 8

/-- The state of channel `c`. -/
def State.chan (s : State) (c : Nat) : Nat := s.rd (.pwr c) .PWR_CH_STAT_STATE

/-- Channels that ignore their seating pin (R663). -/
def anchor (c : Nat) : Bool := c < 4

/-- Feed B (b) or feed A is qualified (R665): a disabled feed never is. -/
def State.feedOk (s : State) (c : Nat) (b : Bool) : Bool :=
  if b then s.on (.pwr c) .PWR_CH_STAT_B_OK && s.on (.pwr c) .PWR_FEED_SEL_FEED_B_EN
  else s.on (.pwr c) .PWR_CH_STAT_A_OK && s.on (.pwr c) .PWR_FEED_SEL_FEED_A_EN

/-- Feed B is the active one. -/
def State.activeB (s : State) (c : Nat) : Bool := s.on (.pwr c) .PWR_CH_STAT_ACTIVE_B

/-- Feed B is the preferred one. -/
def State.prefersB (s : State) (c : Nat) : Bool := s.on (.pwr c) .PWR_FEED_SEL_PRIO

/-- Mark feed B (b) or feed A as qualified or not. -/
def setFeed (c : Nat) (b ok : Bool) : Upd :=
  wr (.pwr c) (if b then .PWR_CH_STAT_B_OK else .PWR_CH_STAT_A_OK) (b2n ok)

/-- The channel drives a gate, or would but for a break or a reverse block. -/
def State.chanOn (s : State) (c : Nat) : Bool := s.chan c == pcRAMP || s.chan c == pcON || s.chan c == pcWARN

/-- PP_GATE_A (b = false) or PP_GATE_B is driven. -/
def State.gate (s : State) (c : Nat) (b : Bool) : Bool :=
  s.chanOn c && s.activeB c == b && !s.ivOn .pwDead c && !s.on (.pwr c) .PWR_CH_STAT_REV_BLOCK

/-- A channel enters a state. -/
def chanTo (c st : Nat) : Upd := wr (.pwr c) .PWR_CH_STAT_STATE st

/-- Where a channel waits to start: its seat, or for an anchor channel its feed (R667); OFF while EN = 0. -/
def chanStart (c : Nat) : Upd := look fun s =>
  chanTo c (if !s.on (.pwr c) .PWR_CH_CFG_EN then pcOFF else if anchor c then pcWAIT_FEED else pcWAIT_SEAT)

/-- An error of the channel's page. While the switch die is in reset only the page records it (Table PWR-6): there is no log, no
firmware and no face to tell. -/
def chanRaise (c : Nat) (e : Err) : Upd := look fun s =>
  if s.ivOn .dieReset then
    let rs : List Raised := [{ err := e }]
    let unm := s.unmaskedErrs (.pwr c) rs
    all [noteErrs (.pwr c) rs, captureErrs (.pwr c) unm, when_ (!unm.isEmpty) (wr (.pwr c) .INT_CAUSE_ERR 1)]
  else raise (.pwr c) e

/-- RETRIES_LEFT reloads (R675). -/
def reloadRetries (c : Nat) : Upd := look fun s => wr (.pwr c) .PWR_CH_STAT_RETRIES_LEFT (s.rd (.pwr c) .PWR_FAULT_TIMER_RETRY_COUNT)

/-- The channel ramps on feed B (b) or feed A; PP_WARN_N is released (R674). -/
def ramp (c : Nat) (b : Bool) : Upd :=
  all [wr (.pwr c) .PWR_CH_STAT_ACTIVE_B (b2n b), wr (.pwr c) .PWR_CH_STAT_WARN 0, bump (.pwr c) 0, chanTo c pcRAMP]

/-- The channel ramps on the preferred feed when it is qualified, else on the other (R665). -/
def rampBest (c : Nat) : Upd := look fun s =>
  ramp c (if s.feedOk c (s.prefersB c) then s.prefersB c
    else if s.feedOk c (!s.prefersB c) then !s.prefersB c else s.activeB c)

/-! ### Warnings and cut-offs (R671 to R676) -/

/-- PP_WARN_N is asserted, and with a port bound GUARD gets the request of R11. A warning already given stands. -/
def assertWarn (c : Nat) : Upd := look fun s =>
  when_ (!s.on (.pwr c) .PWR_CH_STAT_WARN) <|
    all [wr (.pwr c) .PWR_CH_STAT_WARN 1,
         when_ (s.on (.pwr c) .PWR_CH_CFG_BIND_EN && !s.ivOn .dieReset) <|
           modGreqs (· ++ [{ pg := .pwr c, bit := 0, cls := .nf, dom := .dom (s.portDom (s.rd (.pwr c) .PWR_CH_CFG_PORT)),
                             block := 5, detail0 := 0, detail1 := 0, warn := true }])]

/-- RETRY_WAIT, or LATCHED when no retry is left (R675, R676). -/
def toRetry (c : Nat) : Upd := look fun s =>
  let n := s.rd (.pwr c) .PWR_CH_STAT_RETRIES_LEFT
  if n == 0 then all [chanTo c pcLATCHED, chanRaise c .PWR_LATCHED]
  else all [wr (.pwr c) .PWR_CH_STAT_RETRIES_LEFT (n - 1), chanTo c pcRETRY_WAIT, chanRaise c .PWR_RETRYING]

/-- The page's fields return to their reset values after the cut-off of a block soft reset, which restarts an anchor channel. -/
def chanSoftReset (c : Nat) : Upd :=
  all [resetPage (.pwr c) .block, put .pwReset 0 c, put .pwFault 0 c, put .pwIdle 0 c, put .pwEnergy 0 c,
       wr (.pwr c) .BLK_CTRL_SOFT_RESET 1, chanStart c]

/-- Both pairs go off for `cause`; the channel goes where Table PWR-3 sends it, or to OFF once EN is clear. -/
def cut (c cause : Nat) : Upd := look fun s =>
  let warned := cutFAULT ≤ cause
  all [wr (.pwr c) .PWR_CH_STAT_PG 0, wr (.pwr c) .PWR_CH_STAT_LIMIT 0, wr (.pwr c) .PWR_CH_STAT_REV_BLOCK 0,
       wr (.pwr c) .PWR_CH_STAT_LAST_CUT cause, put .pwCause 0 c, put .pwSwitch 0 c, put .pwDead 0 c,
       bump (.pwr c) (if warned then 1 else 2),
       if s.ivOn .pwReset c then chanSoftReset c
       else if cause == cutFAST_TRIP || cause == cutFAULT then toRetry c
       else if cause == cutFET then all [chanTo c pcLATCHED, chanRaise c .PWR_LATCHED]
       else if cause == cutOV || cause == cutFEED then chanTo c pcFEED_LOST
       else chanStart c,
       look fun t => when_ (!t.on (.pwr c) .PWR_CH_CFG_EN) (chanTo c pcOFF)]

/-- A cause of a warned cut arises: the channel enters WARN; in WARN a cause of higher precedence takes the cut over, under the
warning already given (R673). -/
def warnCut (c cause : Nat) (first : Upd) : Upd := look fun s =>
  if s.chan c == pcRAMP || s.chan c == pcON then
    all [first, put .pwCause cause c, put .pwSwitch 0 c, chanTo c pcWARN, assertWarn c]
  else when_ (s.chan c == pcWARN && (s.iv .pwCause c == 0 || cause < s.iv .pwCause c)) <|
    all [first, put .pwCause cause c, put .pwSwitch 0 c]

/-- An unwarned cut: the gates go off at once. The NF request of its bit comes before the warning's (R676, R626). -/
def unwarnedCut (c cause : Nat) (first : Upd) : Upd := look fun s =>
  when_ (s.chanOn c) (all [first, cut c cause, assertWarn c])

/-- FAST_TRIP (R670). -/
def execFastTrip (c : ChanId) : State → Answer := Upd.always <|
  unwarnedCut c cutFAST_TRIP (all [chanRaise c .PWR_FAST_TRIP, bump (.pwr c) 3])

/-- OV_CUT (Table PWR-3): the active feed is above OV, with no qualified feed to switch to. -/
def execOvCut (c : ChanId) : State → Answer := Upd.always <| look fun s =>
  when_ (!s.feedOk c (!s.activeB c)) <|
    unwarnedCut c cutOV (all [setFeed c (s.activeB c) false, chanRaise c .PWR_OV_CUT])

/-- The fault timer expires (R669, R678): PG is withdrawn and a warned cut begins. -/
def faultExpires (c : Nat) : Upd := look fun s =>
  warnCut c cutFAULT <|
    all [wr (.pwr c) .PWR_CH_STAT_PG 0, put .pwFault (max 50 (min 1000000 (s.rd (.pwr c) .PWR_FAULT_TIMER_TIMER))) c,
         bump (.pwr c) 4, chanRaise c .PWR_FAULT_TIMER]

/-- FAULT_TIMER_EXPIRY. -/
def execFaultTimerExpiry (c : ChanId) : State → Answer := Upd.always (faultExpires c)

/-- RAMP_TIMEOUT (R666): an expiry of the fault timer. -/
def execRampTimeout (c : ChanId) : State → Answer := Upd.always <| look fun s => when_ (s.chan c == pcRAMP) (faultExpires c)

/-- FET_OVERTEMP. -/
def execFetOvertemp (c : ChanId) : State → Answer := Upd.always (warnCut c cutFET (chanRaise c .PWR_FET_HOT))

/-- SEATING_LOSS (R663): an ordinary channel only. One with its gates off waits for its seat again; a latched one stays so. -/
def execSeatingLoss (c : ChanId) : State → Answer := Upd.always <| look fun s =>
  let st := s.chan c
  when_ (!anchor c) <|
    all [wr (.pwr c) .PWR_CH_STAT_SEATED 0,
         if st == pcWAIT_FEED || st == pcRETRY_WAIT || st == pcFEED_LOST then chanTo c pcWAIT_SEAT
         else warnCut c cutSEAT (chanRaise c .PWR_SEAT_LOSS)]

/-- FEED_LOSS (Table PWR-3): with no qualified feed to switch to. -/
def execFeedLoss (c : ChanId) : State → Answer := Upd.always <| look fun s =>
  all [setFeed c (s.activeB c) false,
       when_ (!s.feedOk c (!s.activeB c)) (warnCut c cutFEED (chanRaise c .PWR_FEED_LOST))]

/-- The channel is turned off: EN cleared, quiet entry or a block soft reset. -/
def chanOff (c : Nat) : Upd := look fun s =>
  if s.chanOn c then warnCut c cutOFF skip else chanTo c pcOFF

/-! ### Switchovers (R680 to R683) -/

/-- The break begins: both pairs are off until DEAD_US has elapsed. -/
def breakTo (c : Nat) (b : Bool) : Upd := all [put .pwSwitch (1 + b2n b) c, put .pwDead 1 c]

/-- A revert or software switchover to feed B (b) or A: warned while WARN_ON_SWITCH = 1. -/
def switchTo (c : Nat) (b : Bool) : Upd := look fun s =>
  when_ (s.chan c == pcON && s.activeB c != b && s.feedOk c b && !s.ivOn .pwSwitch c) <|
    if s.on (.pwr c) .PWR_FEED_SEL_WARN_ON_SWITCH then
      all [put .pwSwitch (1 + b2n b) c, put .pwCause 0 c, chanTo c pcWARN, assertWarn c]
    else breakTo c b

/-- WARN_LEAD_EXPIRY (R673): in quiet entry the cut waits for the end of the quiesce (Table BOOT-13). Else the cut executes, or
the switchover, which withdraws PG at the gate-off. -/
def execWarnLeadExpiry (c : ChanId) : State → Answer := Upd.always <| look fun s =>
  when_ (s.chan c == pcWARN && !(s.ivOn .quietRun && s.iv .pwCause c == cutOFF)) <|
    if s.ivOn .pwCause c then cut c (s.iv .pwCause c)
    else all [wr (.pwr c) .PWR_CH_STAT_PG 0, put .pwDead 1 c, chanTo c pcON]

/-- FORCED_SWITCHOVER (R680, R682): at once, with the warning and the withdrawal of PG while WARN_ON_SWITCH = 1. A revert that
waits in WARN gives way to it. -/
def execForcedSwitchover (c : ChanId) : State → Answer := Upd.always <| look fun s =>
  let b := !s.activeB c
  let may := s.chan c == pcRAMP || s.chan c == pcON || (s.chan c == pcWARN && !s.ivOn .pwCause c)
  when_ (may && !s.ivOn .pwDead c && s.on (.pwr c) (if b then .PWR_FEED_SEL_FEED_B_EN else .PWR_FEED_SEL_FEED_A_EN)) <|
    all [setFeed c (!b) false, setFeed c b true, when_ (s.chan c == pcWARN) (chanTo c pcON),
         when_ (s.on (.pwr c) .PWR_FEED_SEL_WARN_ON_SWITCH) (all [assertWarn c, wr (.pwr c) .PWR_CH_STAT_PG 0]),
         breakTo c b]

/-- REVERT_SWITCHOVER. -/
def execRevertSwitchover (c : ChanId) : State → Answer := Upd.always <| look fun s =>
  let b := s.prefersB c
  when_ (s.on (.pwr c) .PWR_FEED_SEL_REVERT && s.activeB c != b &&
      s.on (.pwr c) (if b then .PWR_FEED_SEL_FEED_B_EN else .PWR_FEED_SEL_FEED_A_EN)) (all [setFeed c b true, switchTo c b])

/-- DEAD_TIME_EXPIRY (R681): the new feed's pair is driven. -/
def execDeadTimeExpiry (c : ChanId) : State → Answer := Upd.always <| look fun s =>
  when_ (s.chanOn c && s.ivOn .pwDead c) <|
    all [wr (.pwr c) .PWR_CH_STAT_ACTIVE_B (s.iv .pwSwitch c - 1), put .pwDead 0 c, put .pwSwitch 0 c, bump (.pwr c) 5]

/-! ### Starting (R664 to R667) -/

/-- SEATING_DEBOUNCED: the module is seated; a channel that waits for it, or is latched and newly seated, waits for its feed. -/
def execSeatingDebounced (c : ChanId) : State → Answer := Upd.always <| look fun s =>
  let new := !s.on (.pwr c) .PWR_CH_STAT_SEATED
  when_ (!anchor c) <|
    all [wr (.pwr c) .PWR_CH_STAT_SEATED 1,
         when_ (s.chan c == pcWAIT_SEAT || (s.chan c == pcLATCHED && new)) (chanTo c pcWAIT_FEED)]

/-- INSERTION_DELAY_EXPIRY: the channel ramps. -/
def execInsertionDelayExpiry (c : ChanId) (b : Bool) : State → Answer := Upd.always <| look fun s =>
  when_ ((s.chan c == pcWAIT_FEED || s.chan c == pcFEED_LOST) &&
      s.on (.pwr c) (if b then .PWR_FEED_SEL_FEED_B_EN else .PWR_FEED_SEL_FEED_A_EN)) (all [setFeed c b true, rampBest c])

/-- RAMP_COMPLETE. -/
def execRampComplete (c : ChanId) : State → Answer := Upd.always <| look fun s => when_ (s.chan c == pcRAMP) (chanTo c pcON)

/-- RETRY_PERIOD_EXPIRY. -/
def execRetryPeriodExpiry (c : ChanId) : State → Answer := Upd.always <| look fun s => when_ (s.chan c == pcRETRY_WAIT) (rampBest c)

/-! ### Reverse block and power-good (R672, R677, R678) -/

/-- REVERSE_BLOCK. -/
def execReverseBlock (c : ChanId) : State → Answer := Upd.always <| look fun s =>
  when_ (s.chanOn c && !s.ivOn .pwDead c && !s.on (.pwr c) .PWR_CH_STAT_REV_BLOCK) <|
    all [wr (.pwr c) .PWR_CH_STAT_REV_BLOCK 1, bump (.pwr c) 8, chanRaise c .PWR_REVERSE]

/-- REVERSE_RELEASE. -/
def execReverseRelease (c : ChanId) : State → Answer := Upd.always (wr (.pwr c) .PWR_CH_STAT_REV_BLOCK 0)

/-- POWER_GOOD (R677): PG is given; the warning of a switchover is released (R674), and the recovery of a bound port starts
(R679). -/
def execPowerGood (c : ChanId) : State → Answer := Upd.always <| look fun s =>
  let ready := s.chan c == pcON && !s.on (.pwr c) .PWR_CH_STAT_LIMIT && !s.ivOn .pwDead c && !s.on (.pwr c) .PWR_CH_STAT_REV_BLOCK
  when_ (ready && !s.on (.pwr c) .PWR_CH_STAT_PG) <|
    all [wr (.pwr c) .PWR_CH_STAT_PG 1, wr (.pwr c) .PWR_CH_STAT_WARN 0,
         when_ (s.on (.pwr c) .PWR_CH_CFG_BIND_EN && !s.ivOn .dieReset) (powerBack (s.rd (.pwr c) .PWR_CH_CFG_PORT))]

/-- RETRY_RELOAD_TIMER (R675). -/
def execRetryReloadTimer (c : ChanId) : State → Answer := Upd.always <| look fun s =>
  when_ (s.on (.pwr c) .PWR_CH_STAT_PG) (reloadRetries c)

/-- OUTPUT_BELOW_PG_THRESHOLD (R678). -/
def execOutputBelowPgThreshold (c : ChanId) : State → Answer := Upd.always (wr (.pwr c) .PWR_CH_STAT_PG 0)

/-! ### Register writes (R685) -/

/-- A write of `v` to PWR_CH_CFG of channel `c`: refused, or taken, with what EN and CLEAR do. -/
def pwrCfgWrite (st : Stamp) (c v : Nat) : Upd := look fun s =>
  let en := v.testBit 31
  let was := s.on (.pwr c) .PWR_CH_CFG_EN
  let binds := Fld.PWR_CH_CFG_PORT.of v != s.rd (.pwr c) .PWR_CH_CFG_PORT || Fld.PWR_CH_CFG_BIND_EN.of v != s.rd (.pwr c) .PWR_CH_CFG_BIND_EN
  let noFeed := en && !s.on (.pwr c) .PWR_FEED_SEL_FEED_A_EN && !s.on (.pwr c) .PWR_FEED_SEL_FEED_B_EN
  if (binds && s.chan c != pcOFF && s.chan c != pcLATCHED) || noFeed then chanRaise c .PWR_CFG_REFUSED
  else
    all [plainWrite st (.pwr c) 0x100 v,
         if en && !was then all [reloadRetries c, when_ (s.chan c == pcOFF) (chanStart c)]
         else when_ (!en && was) (chanOff c),
         when_ (v.testBit 29) (all [reloadRetries c, look fun t => when_ (t.chan c == pcLATCHED) (chanStart c)])]

/-- CHANNEL_ENABLE. -/
def execChannelEnable (st : Stamp) (c : ChanId) (v : Word) : State → Answer := Upd.answer <|
  granted st (.pwr c) 0x100 (pwrCfgWrite st c v.toNat)

/-- CHANNEL_DISABLE. -/
def execChannelDisable (st : Stamp) (c : ChanId) (v : Word) : State → Answer := Upd.answer <|
  granted st (.pwr c) 0x100 (pwrCfgWrite st c v.toNat)

/-- CHANNEL_CLEAR. -/
def execChannelClear (st : Stamp) (c : ChanId) (v : Word) : State → Answer := Upd.answer <|
  granted st (.pwr c) 0x100 (pwrCfgWrite st c v.toNat)

/-- A write of `v` to PWR_FEED_SEL: refused when it leaves no feed to an enabled channel; FORCE of the other, qualified feed
starts a switchover. -/
def feedSelWrite (st : Stamp) (c v : Nat) : Upd := look fun s =>
  let force := bits v 26 25
  if s.on (.pwr c) .PWR_CH_CFG_EN && !v.testBit 31 && !v.testBit 30 then chanRaise c .PWR_CFG_REFUSED
  else all [plainWrite st (.pwr c) 0x108 v, when_ (!v.testBit 31) (setFeed c false false), when_ (!v.testBit 30) (setFeed c true false),
            when_ (force == 1) (switchTo c false), when_ (force == 2) (switchTo c true)]

/-- SOFTWARE_SWITCHOVER. -/
def execSoftwareSwitchover (st : Stamp) (c : ChanId) (v : Word) : State → Answer := Upd.answer <|
  granted st (.pwr c) 0x108 (feedSelWrite st c v.toNat)

/-- A write of `v` to PWR_UVOV. -/
def uvovWrite (st : Stamp) (c v : Nat) : Upd :=
  if Fld.PWR_UVOV_OV.of v ≤ Fld.PWR_UVOV_UV.of v then chanRaise c .PWR_CFG_REFUSED else plainWrite st (.pwr c) 0x114 v

/-! ### Feed checks and telemetry (R686, R687) -/

/-- FEED_CHECK. -/
def execFeedCheck : State → Answer := Upd.answer <| look fun s =>
  let due := s.on .pwrg .PWR_CHECK_CFG_EN && s.inCycle && !s.ivOn .dieReset &&
    s.cycleNum % 2 ^ s.rd .pwrg .PWR_CHECK_CFG_EVERY_LOG2 == 0
  when_ due <| forBelow 24 fun c =>
    all [forEach [(Fld.PWR_SNAP_VOUT, Fld.PWR_TELEM_VOUT), (.PWR_SNAP_IOUT, .PWR_TELEM_IOUT), (.PWR_SNAP_VFA, .PWR_TELEM_VFA),
           (.PWR_SNAP_VFB, .PWR_TELEM_VFB), (.PWR_SNAP_TFET, .PWR_TELEM_TFET), (.PWR_SNAP_IPEAK, .PWR_TELEM_IPEAK)] fun x =>
           wr (.pwr c) x.1 (s.rd (.pwr c) x.2),
         wr (.pwr c) .PWR_SNAP_CYCLE s.cycleNum,
         when_ (s.chan c == pcON && s.on (.pwr c) .PWR_FEED_SEL_FEED_B_EN && !s.feedOk c (!s.activeB c)) (chanRaise c .PWR_STANDBY_LOST)]

/-- A feed of `v` (10 mV) is qualified (R665): within [UV, OV], and once qualified with 2 % of the setting beyond each. -/
def State.qualified (s : State) (c v : Nat) (was : Bool) : Bool :=
  let uv := 10 * s.rd (.pwr c) .PWR_UVOV_UV
  let ov := 10 * s.rd (.pwr c) .PWR_UVOV_OV
  if was then uv * 98 ≤ v * 100 && v * 100 ≤ ov * 102 else uv ≤ v && v ≤ ov

/-- TELEMETRY_SAMPLE. -/
def execTelemetrySample (c : ChanId) (vout iout vfa vfb : BitVec 16) (tfet : BitVec 8) (limit : Bool) : State → Answer :=
  Upd.always <| look fun s =>
    let i := iout.toInt
    let e := s.iv .pwEnergy c + vout.toNat * i.toNat
    let ok := fun (b : Bool) (v : Nat) (en ok : Fld) => setFeed c b (s.on (.pwr c) en && s.qualified c v (s.on (.pwr c) ok))
    all [wr (.pwr c) .PWR_TELEM_VOUT vout.toNat, wr (.pwr c) .PWR_TELEM_IOUT iout.toNat, wr (.pwr c) .PWR_TELEM_VFA vfa.toNat,
         wr (.pwr c) .PWR_TELEM_VFB vfb.toNat, wr (.pwr c) .PWR_TELEM_TFET tfet.toNat,
         wr (.pwr c) .PWR_TELEM_IPEAK (max (s.rd (.pwr c) .PWR_TELEM_IPEAK) i.natAbs),
         ok false vfa.toNat .PWR_FEED_SEL_FEED_A_EN .PWR_CH_STAT_A_OK, ok true vfb.toNat .PWR_FEED_SEL_FEED_B_EN .PWR_CH_STAT_B_OK,
         wr (.pwr c) .PWR_CH_STAT_LIMIT (b2n (limit && s.chanOn c)),
         put .pwEnergy (e % 100000) c, addCnt (.pwr c) 7 (e / 100000)]

/-- The channels' 1 µs tick (R669): the fault timers, and the time with the limit active; an enabled channel that is off starts,
but for the quiet state, and FORCE moves a channel once the feed it names is qualified (R680). -/
def chanTick : Upd := look fun s =>
  let quiet := s.iv .dieReset == 3 || s.ivOn .quietRun || s.ivOn .noVkeep
  forBelow 24 fun c => all [
    when_ (s.chan c == pcOFF && !quiet) (chanStart c),
    (match s.rd (.pwr c) .PWR_FEED_SEL_FORCE with
     | 1 => switchTo c false
     | 2 => switchTo c true
     | _ => skip),
    if s.on (.pwr c) .PWR_CH_STAT_LIMIT then all [modIv .pwFault (· + 1) c, bump (.pwr c) 6]
    else when_ (s.ivOn .pwFault c) <|
      all [put .pwIdle ((s.iv .pwIdle c + 1) % 8) c, when_ (s.iv .pwIdle c == 7) (modIv .pwFault (· - 1) c)]]

end Sys2Proof.Machine
end

