-- ==== Sys2Proof/Machine/Mgmt.lean ====
section
/-! DEFINITION. The management complex: firmware restarts and its watchdog, image installation, MCTP control and telemetry, the
counter gatherer, and the supply monitors (spec/20). -/

namespace Sys2Proof.Machine

/-! ### Firmware restarts (R692 to R696) -/

/-- MGMT_FW_STAT.STATE. -/
def fsRUN : Nat := 0
def fsRESTARTING : Nat := 1
def fsDEAD : Nat := 2

/-- A minute, in ns. -/
def minute : Nat := 60000000000

/-- FIRMWARE_RESTART (R693), or FW_DEAD at the restart limit (R694). -/
def fwRestart : Upd := look fun s =>
  let recent := (s.fifo .fwTimes).filter fun t => s.now < t + minute
  if max 1 (s.rd (.mgmt 0) .MGMT_FW_STAT_RESTART_LIMIT) ≤ recent.length then
    all [wr (.mgmt 0) .MGMT_FW_STAT_STATE fsDEAD, raise (.mgmt 0) .MGMT_FW_DEAD]
  else
    all [wr (.mgmt 0) .MGMT_FW_STAT_STATE fsRESTARTING,
         wr (.mgmt 0) .MGMT_FW_STAT_RESTARTS (min 255 (s.rd (.mgmt 0) .MGMT_FW_STAT_RESTARTS + 1)),
         putFifo .fwTimes (recent ++ [s.now]), bump (.mgmt 0) 0, firmwareStarts, put .fwSel 0, put .fwUnconf 0]

/-- LOCKSTEP_MISMATCH (R692). -/
def execLockstepMismatch (_pair : Fin 2) : State → Answer := Upd.answer <| look fun s =>
  all [raise (.mgmt 0) .MGMT_LOCKSTEP, bump (.mgmt 0) 1, when_ s.fwRuns fwRestart]

/-- WATCHDOG_EXPIRY (R692). -/
def execWatchdogExpiry : State → Answer := Upd.answer <| look fun s =>
  when_ (s.rd .glb .GLB_DEV_STATE_FW_SLOT != 3) <|
    all [raise (.mgmt 0) .MGMT_WD_EXPIRE, bump (.mgmt 0) 2, when_ s.fwRuns fwRestart]

/-- A write of `v` to MGMT_WD (R696). -/
def wdWrite (st : Stamp) (v : Nat) : Upd := look fun s =>
  all [plainWrite st (.mgmt 0) 0x108 v, when_ (bits v 31 16 == 0x57A7 && v.testBit 15) (put .wdAt s.now)]

/-- WATCHDOG_KICK. -/
def execWatchdogKick (st : Stamp) (v : Word) : State → Answer := Upd.answer (granted st (.mgmt 0) 0x108 (wdWrite st v.toNat))

/-! ### Image installation (R151, R703, R704) -/

/-- Slot states (Table BOOT-4). -/
def slINVALID : Nat := 0
def slVALID : Nat := 1
def slPENDING : Nat := 2

/-- STATUS codes of MGMT_IMG_CTRL. -/
def imOK : Nat := 1
def imBUSY : Nat := 2
def imORDER : Nat := 3
def imSIZE : Nat := 4
def imVERIFY : Nat := 5
def imABORTED : Nat := 6

/-- Device states (GLB_DEV_STATE.STATE). -/
def dvROM : Nat := 1
def dvFIRMWARE : Nat := 2
def dvCONFIG : Nat := 3
def dvRUN : Nat := 4
def dvBRINGUP : Nat := 5
def dvROM_RECOVERY : Nat := 6
def dvQUIET_ENTRY : Nat := 7

/-- The device state. -/
def State.device (s : State) : Nat := s.rd .glb .GLB_DEV_STATE_STATE

/-- The image kind of the installation. -/
def State.imgKind (s : State) : Nat := s.iv .imgKind

/-- The inactive flash slot of a kind: not the one that runs or is applied; A when none is, and in ROM_RECOVERY (Table BOOT-12). -/
def State.inactiveSlot (s : State) (kind : Nat) : Nat :=
  if s.device == dvROM_RECOVERY then 2 * kind else
  let active := if kind == 0 then s.rd .glb .GLB_DEV_STATE_FW_SLOT else s.rd .glb .GLB_DEV_STATE_CFG_SLOT
  2 * kind + b2n (active == 0)

/-- The size of a slot of the kind, in bytes (Table BOOT-3). -/
def slotSize (kind : Nat) : Nat := if kind == 0 then 8388608 else 20971520

/-- A status of the installation. -/
def imgStatus (code : Nat) : Upd := wr (.mgmt 0) .MGMT_IMG_CTRL_STATUS code

/-- The installation is over. -/
def imgEnds (code : Nat) : Upd :=
  all [put .imgSt 0, put .imgBytes 0, put .imgLen 0, wr (.mgmt 0) .MGMT_IMG_CTRL_BUSY 0, imgStatus code]

/-- The stamp may act on the installation in progress. -/
def State.mayInstall (s : State) (st : Nat) : Bool := s.iv .imgSt != 0 && s.rd (.mgmt 0) .MGMT_IMG_CTRL_INSTALLER == st

/-- The directory copy that is rewritten: of the flash in use, the one with the lower sequence number (Table BOOT-3). -/
def State.dirOld (s : State) : Nat :=
  let b := 2 * s.iv .dirFlash
  if s.iv .dirSeq b ≤ s.iv .dirSeq (b + 1) then b else b + 1

/-- A directory copy is rewritten with the slot states and attempt counts of this moment, under the next sequence number. -/
def dirRewrite : Upd := look fun s =>
  let c := s.dirOld
  let b := 2 * s.iv .dirFlash
  all [put .dirSeq ((max (s.iv .dirSeq b) (s.iv .dirSeq (b + 1)) + 1) % 2 ^ 32) c,
       forBelow 4 fun k => put .dirSlot (s.iv .slotState k + 4 * s.iv .slotTries k) (4 * c + k)]

/-- A flash slot takes a state, in the directory. -/
def slotSet (k st : Nat) : Upd := all [put .slotState st k, dirRewrite]

/-- START by stamp `st` for a kind (R703): the inactive slot becomes INVALID and its erase begins. In ROM_RECOVERY the ROM
accepts firmware only. -/
def imgStart (st kind : Nat) : Upd := look fun s =>
  let k := s.inactiveSlot kind
  if s.iv .imgSt != 0 then imgStatus imBUSY
  else when_ (!(s.device == dvROM_RECOVERY && kind == 1)) <|
    all [put .slotTries 0 k, slotSet k slINVALID, dirRewrite, put .imgSt 1, put .imgBytes 0,
         put .imgKind kind, wr (.mgmt 0) .MGMT_IMG_CTRL_KIND kind, wr (.mgmt 0) .MGMT_IMG_CTRL_INSTALLER st,
         wr (.mgmt 0) .MGMT_IMG_CTRL_BUSY 1, imgStatus 0]

/-- How a chunk of `len` bytes at `off` from stamp `st` ends at once: 0 when it is taken. -/
def State.chunkStatus (s : State) (st off len : Nat) : Nat :=
  if !s.mayInstall st || s.iv .imgSt != 2 then imBUSY
  else if off != s.iv .imgBytes then imORDER
  else if slotSize s.imgKind < off + len then imSIZE else 0

/-- A chunk (R704). One that takes the image past its slot leaves the slot INVALID. -/
def imgChunk (st off len : Nat) : Upd := look fun s =>
  match s.chunkStatus st off len with
  | 0 => all [put .imgSt 3, put .imgLen len, wr (.mgmt 0) .MGMT_IMG_CTRL_BUSY 1, imgStatus 0]
  | c => if c == imSIZE then all [imgEnds imSIZE, raise (.mgmt 0) .MGMT_IMG_FAIL] else imgStatus c

/-- FINISH: the checks of the image begin. -/
def imgFinish (st : Nat) : Upd := look fun s =>
  if !s.mayInstall st || s.iv .imgSt != 2 then imgStatus imBUSY
  else all [put .imgSt 4, wr (.mgmt 0) .MGMT_IMG_CTRL_BUSY 1, imgStatus 0]

/-- ABORT: the slot stays INVALID. -/
def imgAbort : Upd := look fun s => when_ (s.iv .imgSt != 0) (imgEnds imABORTED)

/-- A write of `v` to MGMT_IMG_CTRL. -/
def imgCtrlWrite (st : Stamp) (v : Nat) : Upd :=
  all [plainWrite st (.mgmt 0) 0x200 v,
       when_ (v.testBit 31) (imgStart st.code (bits v 8 8)), when_ (v.testBit 30) (imgFinish st.code), when_ (v.testBit 29) imgAbort]

/-- A write of `v` to MGMT_IMG_CHUNK. -/
def imgChunkWrite (st : Stamp) (v : Nat) : Upd :=
  all [plainWrite st (.mgmt 0) 0x204 v, look fun s => when_ (v.testBit 31) <|
    imgChunk st.code (s.rd (.mgmt 0) .MGMT_IMG_CHUNK_OFFSET) (s.rd (.mgmt 0) .MGMT_IMG_CHUNK_LEN_M1 + 1)]

/-- IMG_CTRL_START. -/
def execImgCtrlStart (st : Stamp) (v : Word) : State → Answer := Upd.answer (granted st (.mgmt 0) 0x200 (imgCtrlWrite st v.toNat))

/-- IMG_CTRL_CHUNK. -/
def execImgCtrlChunk (st : Stamp) (v : Word) : State → Answer := Upd.answer (granted st (.mgmt 0) 0x204 (imgChunkWrite st v.toNat))

/-- IMG_CTRL_FINISH. -/
def execImgCtrlFinish (st : Stamp) (v : Word) : State → Answer := Upd.answer (granted st (.mgmt 0) 0x200 (imgCtrlWrite st v.toNat))

/-- IMG_CTRL_ABORT. -/
def execImgCtrlAbort (st : Stamp) (v : Word) : State → Answer := Upd.answer (granted st (.mgmt 0) 0x200 (imgCtrlWrite st v.toNat))

/-- Firmware, or the ROM in ROM_RECOVERY, carries an installation on; a stall pauses it (Table ARCH-8). -/
def State.installs (s : State) : Bool := s.fwRuns || s.device == dvROM_RECOVERY

/-- IMG_ERASE_DONE. -/
def execImgEraseDone : State → Answer := Upd.answer <| look fun s =>
  when_ (s.iv .imgSt == 1 && s.installs) (all [put .imgSt 2, wr (.mgmt 0) .MGMT_IMG_CTRL_BUSY 0, imgStatus imOK])

/-- IMG_CHUNK_DONE. -/
def execImgChunkDone : State → Answer := Upd.answer <| look fun s =>
  when_ (s.iv .imgSt == 3 && s.installs) <|
    all [put .imgSt 2, put .imgBytes (s.iv .imgBytes + s.iv .imgLen), put .imgLen 0, wr (.mgmt 0) .MGMT_IMG_CTRL_BUSY 0, imgStatus imOK]

/-! ### Sideband (R697 to R699) -/

/-- The codes of Table MGMT-3. -/
def mcREG_READ : Nat := 0x01
def mcREG_WRITE : Nat := 0x02
def mcREMOTE_READ : Nat := 0x03
def mcREMOTE_WRITE : Nat := 0x04
def mcIMG_START : Nat := 0x10
def mcIMG_CHUNK : Nat := 0x11
def mcIMG_FINISH : Nat := 0x12
def mcTELEMETRY : Nat := 0x20

/-- The status codes of the Stoux commands. -/
def msOK : Nat := 0
def msDISCARDED : Nat := 1
def msNO_ROUTE : Nat := 2
def msTIMEOUT : Nat := 3
def msDENIED : Nat := 4
def msBUSY : Nat := 5

/-- An MCTP message arrives on SMBus port `k` and is served: by firmware, or by the ROM on port 0 in ROM_RECOVERY (Table
BOOT-12). Else sideband is silent. -/
def mctpIn (k : Nat) (u : Upd) : Upd := look fun s =>
  when_ (s.on (.mgmt 2) .MGMT_SMB_CFG_EN k && (s.fwRuns || (s.device == dvROM_RECOVERY && k == 0))) (all [bump (.mgmt 0) 5, u])

/-- A Stoux command; in Safe Halt only REG_READ is served (R699). -/
def stoux (k cmd : Nat) (u : Upd) : Upd := mctpIn k <| look fun s =>
  if s.safeHalt && cmd != mcREG_READ then emit (.mctp k cmd msDENIED []) else u

/-- SET_ENDPOINT_ID. The null and the broadcast ID are no endpoint's. -/
def execSetEndpointId (k : Fin 4) (eid : BitVec 8) : State → Answer := Upd.answer <| mctpIn k <|
  all [when_ (eid != 0 && eid != 0xFF) (put .mctpEid eid.toNat), look fun s => emit (.mctpControl k 1 [s.iv .mctpEid])]

/-- GET_ENDPOINT_ID. -/
def execGetEndpointId (k : Fin 4) : State → Answer := Upd.answer <| mctpIn k <| look fun s => emit (.mctpControl k 2 [s.iv .mctpEid])

/-- GET_MCTP_VERSION_SUPPORT: the versions are those of the cited standard that the part supports, a free value. -/
def execGetMctpVersionSupport (k : Fin 4) (typ : BitVec 8) : State → Answer := Upd.answer <| mctpIn k <|
  drawWord fun w => emit (.mctpControl k 4 [typ.toNat, w])

/-- GET_MESSAGE_TYPE_SUPPORT (Table MGMT-2). -/
def execGetMessageTypeSupport (k : Fin 4) : State → Answer :=
  Upd.answer <| mctpIn k <| emit (.mctpControl k 5 [0x00, 0x05, 0x06, 0x7F])

/-- MCTP_UNSUPPORTED. -/
def execMctpUnsupported (k : Fin 4) : State → Answer := Upd.answer (mctpIn k (bump (.mgmt 0) 6))

/-- What an installation's status is to sideband: OK while the operation runs or is done, BUSY, else DISCARDED. -/
def imgReply (k cmd status : Nat) : Upd :=
  emit (.mctp k cmd (if status == 0 then msOK else if status == imBUSY then msBUSY else msDISCARDED) [])

/-- MCTP_IMG_START. -/
def execMctpImgStart (k : Fin 4) (cfg : Bool) : State → Answer := Upd.answer <| stoux k mcIMG_START <| look fun s =>
  if s.device == dvROM_RECOVERY && cfg then emit (.mctp k mcIMG_START msDENIED [])
  else all [imgReply k mcIMG_START (if s.iv .imgSt == 0 then 0 else imBUSY), imgStart 0x22 (b2n cfg)]

/-- MCTP_IMG_CHUNK: 1 to 1,024 bytes. -/
def execMctpImgChunk (k : Fin 4) (off : BitVec 32) (len : Nat) : State → Answer :=
  Upd.answer <| stoux k mcIMG_CHUNK <| look fun s =>
    if len == 0 || 1024 < len then emit (.mctp k mcIMG_CHUNK msDISCARDED [])
    else all [imgReply k mcIMG_CHUNK (s.chunkStatus 0x22 off.toNat len), imgChunk 0x22 off.toNat len]

/-- MCTP_IMG_FINISH. -/
def execMctpImgFinish (k : Fin 4) : State → Answer := Upd.answer <| stoux k mcIMG_FINISH <| look fun s =>
  all [imgReply k mcIMG_FINISH (if s.mayInstall 0x22 && s.iv .imgSt == 2 then 0 else imBUSY), imgFinish 0x22]

/-- The report of TELEMETRY (R714). -/
def State.report (s : State) : List Nat :=
  ((List.range 34).map fun k => s.rd (.mgmt 0) .MGMT_TEMP_VALID k <<< 31 + s.rd (.mgmt 0) .MGMT_TEMP_T k) ++
  ((List.range 5).map fun r => s.rd (.mgmt 0) .MGMT_VMON_OOR r <<< 31 + s.rd (.mgmt 0) .MGMT_VMON_MV r) ++
  [s.rd (.mgmt 0) .MGMT_THERM_STAT_STEP <<< 28 + s.rd (.mgmt 0) .MGMT_THERM_STAT_VALID_COUNT <<< 22 +
     s.rd (.mgmt 0) .MGMT_THERM_STAT_HOT_SENSOR <<< 16 + s.rd (.mgmt 0) .MGMT_THERM_STAT_HOTTEST,
   s.rd .pwrg .PWR_GLB_STAT_VKEEP] ++
  ((allBelow 24 fun c => s.on (.pwr c) .PWR_CH_CFG_EN).flatMap fun c =>
    [s.rd (.pwr c) .PWR_TELEM_VOUT <<< 16 + s.rd (.pwr c) .PWR_TELEM_IOUT, s.rd (.pwr c) .PWR_TELEM_VFA <<< 16 + s.rd (.pwr c) .PWR_TELEM_VFB,
     s.rd (.pwr c) .PWR_TELEM_TFET <<< 24 + s.rd (.pwr c) .PWR_TELEM_IPEAK]) ++
  [s.now % 2 ^ 64, s.cycleNum]

/-- TELEMETRY. -/
def execTelemetry (k : Fin 4) : State → Answer := Upd.answer <| stoux k mcTELEMETRY <| look fun s =>
  emit (.mctp k mcTELEMETRY msOK s.report)

/-! ### The counter gatherer (R706 to R712) -/

/-- Entries of the list that a snapshot takes. -/
def State.gatherCount (s : State) : Nat := max 1 (min 4096 (s.rd (.mgmt 1) .MGMT_GATHER_CTRL_COUNT))

/-- An entry of a snapshot (Table MGMT-5): the counter, its group's SAT in bit 62, VALID in bit 63. -/
def State.gatherEntry (s : State) (i : Nat) : Nat :=
  let k := s.rd (.mgmt 1) .MGMT_GATHER_LIST_INDEX i
  match (pgAt (s.rd (.mgmt 1) .MGMT_GATHER_LIST_PAGE i * 0x10000)).filter Pg.common with
  | none => 0
  | some pg =>
    let sat := (cntGroup pg k).any fun g => (s.rd pg .CNT_STAT_SAT).testBit g
    s.cnt pg k + b2n sat <<< 62 + 1 <<< 63

/-- The arbiter grants the gatherer an access to a page (R26, R78), which points the page's counter window past the counter it has
read (R707). -/
def gatherSel (i : Nat) : Upd := look fun s =>
  forSome ((pgAt (s.rd (.mgmt 1) .MGMT_GATHER_LIST_PAGE i * 0x10000)).filter Pg.common) fun pg =>
    all [grant .gath pg, wrSt 0x23 pg .CNT_SEL_AUTO_INC 1, wrSt 0x23 pg .CNT_SEL_INDEX (s.rd (.mgmt 1) .MGMT_GATHER_LIST_INDEX i + 1)]

/-- A due snapshot is skipped (R710). -/
def gatherSkip (noGrant : Bool) : Upd :=
  all [modIv .gatherSkips (· + 1), bump (.mgmt 0) 4, raise (.mgmt 0) (if noGrant then .MGMT_GATHER_NOGRANT else .MGMT_GATHER_SKIP)]

/-- The exponents of MGMT_GATHER_RING, within their limits. -/
def slotLog2 (n : Nat) : Nat := max 12 (min 20 n)
def slotsLog2 (n : Nat) : Nat := min 12 n

/-- The address of the next snapshot's slot (R709). -/
def State.gatherAddr (s : State) : Nat :=
  let slots := slotsLog2 (s.rd (.mgmt 1) .MGMT_GATHER_RING_SLOTS_LOG2)
  let size := slotLog2 (s.rd (.mgmt 1) .MGMT_GATHER_RING_SLOT_LOG2)
  s.rd (.mgmt 1) .MGMT_GATHER_BASE_ADDR <<< 12 + s.rd (.mgmt 1) .MGMT_GATHER_BASE_ADDR_HI <<< 32 + (s.iv .gatherSeq % 2 ^ slots) * 2 ^ size

/-- GATHER_SNAPSHOT (R706, R707, R710). What a write to MGMT_GATHER_CTRL changes from here on counts from the next one (R711). -/
def execGatherSnapshot : State → Answer := Upd.answer <| look fun s =>
  let due := s.on (.mgmt 1) .MGMT_GATHER_CTRL_EN && s.cycleNum % 2 ^ s.rd (.mgmt 1) .MGMT_GATHER_CTRL_EVERY_LOG2 == 0 &&
    (s.inCycle || (s.tracker == ctLOST && s.on (.mgmt 1) .MGMT_GATHER_CTRL_FREE_EN))
  when_ due <|
    if s.on (.mgmt 1) .MGMT_GATHER_STAT_BUSY || !s.fwRuns then gatherSkip false
    else if !s.granted? (s.rd (.mgmt 1) .MGMT_GATHER_CTRL_GFACE) then gatherSkip true
    else all [put .gatherFace (s.rd (.mgmt 1) .MGMT_GATHER_CTRL_GFACE), put .gatherSlot s.gatherAddr, put .gatherNum (s.iv .gatherSeq),
              put .gatherSkipped (s.iv .gatherSkips), put .gatherSkips 0, put .gatherSeq (s.iv .gatherSeq + 1),
              wr (.mgmt 1) .MGMT_GATHER_STAT_BUSY 1, putFifo .gatherSnap ((List.range s.gatherCount).map s.gatherEntry),
              forBelow s.gatherCount gatherSel, put .gatherAt s.now, put .gatherCycle s.cycleNum, put .gatherBound (s.iv .cycStart),
              put .gatherFree (b2n (s.tracker == ctLOST))]

/-- Posted writes of dwords to the host of face `f`, of at most its payload size each and none over a 4 KiB boundary. -/
def hostWrite (f : Nat) : Nat → Nat → List Word → Upd
  | 0, _, _ => skip
  | fuel + 1, a, ws => look fun s =>
    let n := max 1 (min (s.moverMps f true) (4096 - a % 4096) / 4)
    let now := ws.take n
    let feid := (s.faceFeid? f).getD 0
    let t : Tlp := ⟨.memWr, if a < 2 ^ 32 then 12 else 16, BitVec.ofNat 64 a, 4 * now.length, BitVec.ofNat 16 (s.seRid f), 0, false, false,
      false, false, .sc, 0, 0, now⟩
    let g := { s.inner feid (((s.idRoute? s.live feid).map (·.cls)).getD 0) 0 (t.hdr + t.len) (.tlp t) with src := feid }
    when_ (!ws.isEmpty) (all [toHost .mgmt f g none, noteIn .faceWrote f 8192 a, hostWrite f fuel (a + 4 * n) (ws.drop n)])

/-- The service endpoint of face `f` may write to its host now (R292, R296, R298, R301). -/
def State.seMayWrite (s : State) (f : Nat) : Bool :=
  s.ivOn .seBusMaster f && !s.on (.face f) .FACE_FLR_STAT_BUSY && !s.ivOn .pmeOff f && s.rd (.face f) .FACE_PM_STAT_SE_D == 0

/-- A little-endian number as dwords. -/
def dwords (v n : Nat) : List Word := (List.range n).map fun k => word (v >>> (32 * k))

/-- GATHER_SNAPSHOT_DONE (R708, R709): entries, header from byte 4, then SEQ. A grant withdrawn meanwhile leaves SEQ unwritten,
and a stall of firmware pauses the gatherer (R693). The writes are the service endpoint's, and wait while it may issue none
(DEDUCED, log entry 217). -/
def execGatherSnapshotDone (skew : Nat) : State → Answer := Upd.answer <| look fun s =>
  let f := s.iv .gatherFace
  let es := s.fifo .gatherSnap
  let seq := s.iv .gatherNum
  let slot := s.iv .gatherSlot
  let late := 25000 < skew
  let flags := s.iv .gatherFree + 2 * b2n late + 4 * b2n (es.any fun e => e.testBit 62)
  let header := [word 0x50414E53, word (s.rd (.bridge 4) .BRIDGE_FAB_ID_SWITCH_ID + flags <<< 8 + es.length <<< 16),
    word (s.iv .gatherSkipped)] ++
    dwords (s.iv .gatherCycle) 2 ++ dwords (s.iv .gatherBound) 2 ++ dwords (s.iv .gatherAt) 2 ++ dwords (s.iv .gatherAt + skew) 2 ++
    [word (s.iv .gatherGen), 0, 0, 0]
  when_ (s.on (.mgmt 1) .MGMT_GATHER_STAT_BUSY && s.fwRuns && (!s.granted? f || s.seMayWrite f)) <|
    all [wr (.mgmt 1) .MGMT_GATHER_STAT_BUSY 0, wr (.mgmt 1) .MGMT_GATHER_STAT_LAST_SKEW (min 32767 (skew / 8)),
         clearFifo .gatherSnap fun _ => true,
         when_ late (raise (.mgmt 0) .MGMT_GATHER_SKEW),
         if !s.granted? f then all [raise (.mgmt 0) .MGMT_GATHER_NOGRANT, modIv .gatherSkips (· + s.iv .gatherSkipped)]
         else all [hostWrite f es.length (slot + 64) (es.flatMap fun e => dwords e 2), hostWrite f 15 (slot + 4) header,
                   hostWrite f 1 slot [word seq], bump (.mgmt 0) 3,
                   wr (.mgmt 1) .MGMT_GATHER_STAT_SEQ seq]]

/-- MGMT_GATHER_BASE takes a new value (R711). -/
def gatherBase (st : Stamp) (hi lo : Nat) : Upd := look fun s =>
  if s.on (.mgmt 1) .MGMT_GATHER_CTRL_EN then raise (.mgmt 0) .MGMT_CFG_REFUSED
  else all [plainWrite st (.mgmt 1) 0x108 lo, plainWrite st (.mgmt 1) 0x10C hi]

/-- A write of `v` to offset `off` of MGMT page 1, MGMT_GATHER_BASE apart (R711, R712). -/
def gatherWrite (st : Stamp) (off v : Nat) : Upd := look fun s =>
  let en := s.on (.mgmt 1) .MGMT_GATHER_CTRL_EN
  let refuse := raise (.mgmt 0) .MGMT_CFG_REFUSED
  if off == 0x100 then
    let size := 64 + 8 * max 1 (min 4096 (Fld.MGMT_GATHER_CTRL_COUNT.of v))
    let fits := size ≤ 2 ^ slotLog2 (s.rd (.mgmt 1) .MGMT_GATHER_RING_SLOT_LOG2)
    let keep := all [wr (.mgmt 1) .MGMT_GATHER_CTRL_EN (s.rd (.mgmt 1) .MGMT_GATHER_CTRL_EN),
      wr (.mgmt 1) .MGMT_GATHER_CTRL_COUNT (s.rd (.mgmt 1) .MGMT_GATHER_CTRL_COUNT)]
    all [plainWrite st (.mgmt 1) 0x100 v,
         if v.testBit 31 && !fits then all [keep, refuse]
         else when_ (v.testBit 31 && !en) (all [put .gatherSeq 0, put .gatherSkips 0])]
  else if off == 0x104 then plainWrite st (.mgmt 1) off v
  else if en then refuse
  else all [plainWrite st (.mgmt 1) off v, look fun t =>
    when_ (0x1000 ≤ off && t.dwordAt (.mgmt 1) off != s.dwordAt (.mgmt 1) off) (modIv .gatherGen (· + 1))]

/-- A register of the gatherer. -/
def gatherReg (off : Nat) : Bool :=
  off % 4 == 0 && ((0x100 ≤ off && off ≤ 0x110) || (0x1000 ≤ off && off < 0x5000))

/-- GATHER_CONFIG_WRITE. -/
def execGatherConfigWrite (st : Stamp) (off : BitVec 16) (v : Word) : State → Answer := Upd.answer <|
  when_ (gatherReg off.toNat) <|
    if off == 0x108 then granting st (.mgmt 1) (upperHold st (.mgmt 1) 0x108 v.toNat true)
    else if off == 0x10C then granting st (.mgmt 1) (upperCommit st (.mgmt 1) (.mgmt 1) 0x108 true (gatherBase st v.toNat))
    else granted st (.mgmt 1) off.toNat (gatherWrite st off.toNat v.toNat)

/-! ### Sensors (R713, R714) -/

/-- The limits of a rail, in mV (Table PKG-8): VDD_CORE, VDD_SRAM, VDD_SD, VDD_SDH, VDDIO. -/
def railLimits : List (Nat × Nat) := [(728, 772), (776, 824), (878, 922), (1170, 1230), (1710, 1890)]

/-- VMON_SAMPLE. -/
def execVmonSample (mv : List (BitVec 16)) : State → Answer := Upd.answer <|
  let rs := railLimits.zip (mv.map (·.toNat))
  let oor := fun (x : (Nat × Nat) × Nat) => x.2 < x.1.1 || x.1.2 < x.2
  all [forEach rs.zipIdx fun (x, r) => all [wr (.mgmt 0) .MGMT_VMON_MV x.2 r, wr (.mgmt 0) .MGMT_VMON_OOR (b2n (oor x)) r],
       when_ (rs.any oor) (raise (.mgmt 0) .MGMT_VMON_OOR)]

/-- The thresholds of Table PKG-15 for the part's ordering grade, in °C: step 0 WARN, 1 THROTTLE, 2 HALT, 3 SHUTDOWN. -/
def State.gradeThresh (s : State) (k : Nat) : Nat :=
  let aq := match k with
    | 0 => 115
    | 1 => 120
    | 2 => 130
    | _ => 135
  if s.ivOn .grade then aq - 20 else aq

/-- A threshold in force: the fixed ones of the grade, and WARN and THROTTLE as written, at most the grade's (R115, R714). -/
def State.thermThresh (s : State) (k : Nat) : Nat :=
  match k with
  | 0 => min (s.gradeThresh 0) (s.rd (.mgmt 0) .MGMT_THERM_THRESH_WARN)
  | 1 => min (s.gradeThresh 1) (s.rd (.mgmt 0) .MGMT_THERM_THRESH_THROTTLE)
  | _ => s.gradeThresh k

/-- MGMT_THERM_THRESH as it reads. -/
def State.thermThreshValue (s : State) : Nat :=
  ((List.range 4).map fun k => s.thermThresh k <<< (8 * k)).sum

/-- The WARN threshold that acts: a value below 60 °C acts as 60 °C (R714). -/
def State.warnAt (s : State) : Nat := max 60 (s.thermThresh 0)

/-- A write of `v` to MGMT_THERM_THRESH: WARN and THROTTLE are held to the values of the part's grade (R714; which grade it is, is
log entry 196). -/
def thermThreshWrite (v : Nat) : Upd := look fun s =>
  all [wr (.mgmt 0) .MGMT_THERM_THRESH_THROTTLE (min (s.gradeThresh 1) (Fld.MGMT_THERM_THRESH_THROTTLE.of v)),
       wr (.mgmt 0) .MGMT_THERM_THRESH_WARN (min (s.gradeThresh 0) (Fld.MGMT_THERM_THRESH_WARN.of v))]

end Sys2Proof.Machine
end

