-- ==== Sys2Proof/Machine/Boot.lean ====
section
/-! DEFINITION. Cold and warm resets, the boot up to the configuration image's header, firmware confirmation, quiet state and
wake, the thermal steps, and the reference clocks (spec/03, spec/04). -/

namespace Sys2Proof.Machine

/-! ### What resets keep (Table BOOT-2, R128) -/

/-- The switch die is in reset: cold, warm, or in the quiet state. -/
def State.inReset (s : State) : Bool := s.ivOn .dieReset

/-- Codes of the state variable `dieReset`. -/
def drCOLD : Nat := 1
def drWARM : Nat := 2
def drQUIET : Nat := 3

/-- Codes of GLB_RESET_CAUSE.LAST. -/
def rcVKEEP : Nat := 1
def rcRAIL : Nat := 2
def rcWAKE : Nat := 3
def rcPIN : Nat := 4
def rcREG : Nat := 5

/-- The page of a power-path channel, or the power-path global page. -/
def isPwr : Pg → Bool
  | .pwrg | .pwr _ => true
  | _ => false

/-- An address of the PWR pages. -/
def atPwr (a : Nat) : Bool := (pgAt a).any isPwr

/-- What holds over every cold reset: pins and supplies, fuses, and the slot states in flash. -/
def coldVars : List Var :=
  [.fperst, .devRst, .noVkeep, .ownRec, .ownKey, .devId, .grade, .romKey, .slotState, .slotTries, .slotRan, .slotSecVer, .slotSeq,
   .dirSeq, .dirSlot, .dirFlash, .quietRun, .wakeCtl, .wakeFaces, .wakePend]

/-- The power-path die's own state. -/
def pwrVars : List Var := [.pwCause, .pwSwitch, .pwDead, .pwFault, .pwIdle, .pwEnergy, .pwReset]

/-- What holds over a warm reset. -/
def warmVars : List Var :=
  coldVars ++ pwrVars ++ [.errSev, .elogSeq, .refLost, .xtalLost, .plate, .plateLost, .liveSig, .appliedSlot, .appliedSeq, .shutdown]

/-- A key of State.ivs of one of the kinds. -/
def ofKind (l : List Var) (k : Nat) : Bool := l.any fun x => x.ctorIdx == k % 512

/-- A key of State.fifos of one of the kinds. -/
def ofQueue (l : List Fifo) (k : Nat) : Bool := l.any fun x => x.ctorIdx == k % 512

/-- ERR_SEV of a PWR page. -/
def pwrSev (k : Nat) : Bool := k % 512 == Var.errSev.ctorIdx && atPwr (k / 512 / 32 * 0x10000)

/-- A warm reset keeps the field at key `k` of State.regs (R44, R128). -/
def warmKeeps (k : Nat) : Bool :=
  match pgAt (k / 32) with
  | none => true
  | some pg => isPwr pg || keptAt pg .warm k

/-- State of the switch die at a cold reset; the power-path die and its pages stay as they are if `keepPwr` (R128). -/
def coldClear (keepPwr : Bool) : Upd := all [
  clearState (fun k => keepPwr && atPwr (k / 32)) (fun k => keepPwr && atPwr (k / 64 / 32)) (fun k => keepPwr && atPwr k)
    (fun k => ofKind coldVars k || (keepPwr && (ofKind pwrVars k || pwrSev k))) (fun _ => false),
  setNow 0]

/-- State of the switch die at a warm reset. -/
def warmClear : Upd := all [
  clearState warmKeeps (fun k => match pgAt (k / 64 / 32) with
      | none => true
      | some pg => isPwr pg || keptAt pg .warm (k / 64))
    (fun _ => true) (ofKind warmVars) (ofQueue [.elog, .missLog]),
  setNow 0]

/-! ### Cold and warm reset (R126, R129, R134, Table BOOT-11) -/

/-- Set the bits of GLB_RESET_CAUSE that say what the reset interrupted. -/
def interrupted (install turn halt : Bool) : Upd :=
  all [when_ install (wr .glb .GLB_RESET_CAUSE_INSTALL_ABORT 1), when_ turn (wr .glb .GLB_RESET_CAUSE_TURN_DISARMED 1),
       when_ halt (wr .glb .GLB_RESET_CAUSE_SAFE_HALT 1)]

/-- CYC_OUT is low in a reset. -/
def cycOutLow : Upd := look fun s => when_ (s.ivOn .cycOut) (emit (.cycOut false))

/-- The HALT thermal step outlasts a reset until a reading is below WARN (Table PKG-15). -/
def haltStays : Upd := all [wr (.mgmt 0) .MGMT_THERM_STAT_STEP 3, put .thermHold 1]

/-- A cold reset of the switch die starts. -/
def coldReset (cause : Nat) (keepPwr : Bool) : Upd := look fun s =>
  all [cycOutLow, when_ (s.debugState == dbUNLOCKED) (emit (.debugPins false)), coldClear keepPwr,
       put .dieReset drCOLD, when_ (s.rd (.mgmt 0) .MGMT_THERM_STAT_STEP == 3) haltStays,
       wr .glb .GLB_RESET_CAUSE_LAST cause,
       if cause == rcVKEEP then wr .glb .GLB_RESET_CAUSE_COLD_VKEEP 1
       else if cause == rcRAIL then wr .glb .GLB_RESET_CAUSE_COLD_RAIL 1 else wr .glb .GLB_RESET_CAUSE_COLD_WAKE 1,
       interrupted (s.ivOn .imgSt) s.turnArmed false]

/-- The cause of a warm reset is recorded. -/
def warmCause (cause : Nat) : Upd :=
  all [wr .glb .GLB_RESET_CAUSE_LAST cause,
       if cause == rcPIN then wr .glb .GLB_RESET_CAUSE_WARM_PIN 1 else wr .glb .GLB_RESET_CAUSE_WARM_REG 1]

/-- The plate that is not live becomes an unverified draft, and the live one stays verified (Table BOOT-11). -/
def platesAfterReset : Upd := look fun s =>
  all [wr (.route 0) (plateStateFld (1 - s.live)) plDRAFT, wr (.route 0) (plateVerFld s.live) 1, wr (.route 0) (plateVerFld (1 - s.live)) 0]

/-- WARM_RESET: a warm reset starts. -/
def warmReset (cause : Nat) : Upd := look fun s =>
  let hot := s.rd (.mgmt 0) .MGMT_THERM_STAT_STEP == 3
  all [cycOutLow, forEach (allBelow 1072 fun q => !(s.fifo .notices q).isEmpty) dropNotices, semsOf fun _ => true,
       warmClear, put .dieReset drWARM, put .warmReg (b2n (cause == rcREG)), warmCause cause,
       interrupted (s.ivOn .imgSt) s.turnArmed s.safeHalt, platesAfterReset,
       when_ hot haltStays,
       newNonce,
       when_ (s.debugState == dbPENDING)
         (all [wr (.sec 0) .SEC_DEBUG_STATE dbUNLOCKED, emit (.debugPins true), raise (.sec 0) .SEC_DEBUG_UNLOCKED])]

/-- The warm reset ends once neither the pin nor the 10 µs hold it: the warm boot starts (R141). A crystal that was lost
meanwhile brings Safe Halt (R121). -/
def warmEnds : Upd := look fun s =>
  when_ (s.iv .dieReset == drWARM && !s.ivOn .devRst && !s.ivOn .warmReg) <|
    all [put .dieReset 0, when_ (s.ivOn .xtalLost) (all [put .xtalLost 0, safeHaltNow hcCRYSTAL 0 0 0])]

/-- A warm reset that the register or the part itself starts. -/
def warmByRegister : Upd := look fun s => when_ (!s.inReset) (warmReset rcREG)

/-- VKEEP_RISE (R99): the always-on supply starts, and anchor channels may start. -/
def execVkeepRise : State → Answer := Upd.always <| look fun s =>
  when_ (s.ivOn .noVkeep) (all [put .noVkeep 0, forBelow 24 chanStart])

/-- VKEEP_LOSS (R99): every gate is low, and the part is in cold reset. -/
def execVkeepLoss : State → Answer := Upd.always <|
  all [coldReset rcVKEEP false, put .noVkeep 1, put .quietRun 0, put .wakeCtl 0, put .wakeFaces 0, put .wakePend 0]

/-- RAIL_LOSS (R104, R105): channels that are on stay on; a qualification of cold reset starts afresh. In the quiet state the
board may remove the rails; a quiet entry that runs goes on (R158). -/
def execRailLoss : State → Answer := Upd.always <| look fun s =>
  if s.iv .dieReset == drCOLD then put .coldQual 0
  else when_ (s.iv .dieReset != drQUIET) (all [coldReset rcRAIL true, when_ (!s.ivOn .quietRun) (put .wakeFaces 0)])

/-- SWITCH_DIE_RAILS_GOOD (R102). -/
def execSwitchDieRailsGood : State → Answer := Upd.always <| look fun s =>
  when_ (s.iv .dieReset == drCOLD && !s.ivOn .noVkeep) (put .coldQual 1)

/-- COLD_RESET_END (R102, R103, R161): the boot ROM starts; with DEV_RST_N low the part stays in warm reset. After a wake
FWAKE_N is driven for the saved faces. -/
def execColdResetEnd : State → Answer := Upd.always <| look fun s =>
  when_ (s.iv .dieReset == drCOLD && s.ivOn .coldQual) <|
    all [put .coldQual 0, newNonce, forEach (allBelow 32 (s.iv .wakeFaces).testBit) fun f => wr (.face f) .FACE_PM_STAT_FWAKE 1,
         if s.ivOn .devRst then all [put .dieReset drWARM, warmCause rcPIN] else put .dieReset 0]

/-- CRYSTAL_LOSS (R121): Safe Halt, from a warm reset when it ends; in cold reset the qualification starts afresh. -/
def execCrystalLoss : State → Answer := Upd.always <| look fun s =>
  if s.iv .dieReset == drCOLD then put .coldQual 0
  else if s.iv .dieReset == drWARM then put .xtalLost 1
  else when_ (!s.inReset) (safeHaltNow hcCRYSTAL 0 0 0)

/-- DEV_RST_N_ASSERT (R125, R159): ignored in the quiet state; in a cold reset it is seen when that ends (R103). -/
def execDevRstNAssert : State → Answer := Upd.always <| look fun s =>
  all [put .devRst 1,
       if s.iv .dieReset == drWARM then warmCause rcPIN else when_ (!s.inReset) (warmReset rcPIN)]

/-- DEV_RST_N_RELEASE. -/
def execDevRstNRelease : State → Answer := Upd.always (all [put .devRst 0, warmEnds])

/-- A write of `v` to GLB_RESET_CTRL (R132). -/
def resetCtrlWrite (v : Nat) : Upd := when_ (bits v 31 16 == 0x57A7 && v.testBit 0) warmByRegister

/-- WARM_RESET_REQUEST. -/
def execWarmResetRequest (st : Stamp) (v : Word) : State → Answer := Upd.answer (granted st .glb 0x10C (resetCtrlWrite v.toNat))

/-- WARM_RESET_END. -/
def execWarmResetEnd : State → Answer := Upd.always (all [put .warmReg 0, warmEnds])

/-- DEVICE_RESET_DELAY (R616). -/
def execDeviceResetDelay : State → Answer := Upd.answer <| look fun s => when_ (s.ivOn .devReset) warmByRegister

/-! ### Image checks (R144, Table BOOT-5) -/

/-- BOOT_ERR takes a code. -/
def bootErr (code : Nat) : Upd := wr .glb .GLB_DEV_STATE_BOOT_ERR code

/-- The BOOT_ERR code of the checks of R144 on a header of kind 0 (firmware) or 1 (configuration): 0 when all pass. DESIGN
CHOICE (the manual gives no order): a failure of the signature or of the header's form counts before SEC_VERSION, and that before
the fields compared with this part (log entry 194). A SWITCH_ID matches when it is one that a switch can have. -/
def State.headerCode (s : State) (kind : Nat) (h : ImgHeader) : Nat :=
  let key := if kind == 0 then (if h.keySlot == 0xFF then some (s.iv .romKey) else none) else s.ownerKey? h.keySlot
  if !h.formed kind || !key.any h.signed || !h.tableOk then 4
  else if h.secVersion < s.arbAt kind then 6
  else if h.stepping != 0xB0 || (h.deviceSelect != 0 && h.deviceSelect != s.iv .devId) ||
      (kind == 1 && 64 ≤ h.switchId && h.switchId != 0xFF) then 7
  else 0

/-- IMG_VERIFY_DONE (R151 steps 4 and 5, R157). -/
def execImgVerifyDone (h : ImgHeader) : State → Answer := Upd.answer <| look fun s =>
  let kind := s.imgKind
  let k := s.inactiveSlot kind
  let code := s.headerCode kind h
  when_ (s.iv .imgSt == 4 && s.installs) <|
    if code != 0 then all [imgEnds imVERIFY, bootErr code, raise (.mgmt 0) .MGMT_IMG_FAIL]
    else all [imgEnds imOK, put .slotTries 0 k, slotSet k slPENDING, put .slotSecVer h.secVersion k,
              put .slotSeq h.sequence k, bump (.mgmt 0) 7,
              when_ (s.device == dvROM_RECOVERY && kind == 0) warmByRegister]

/-! ### Fallback states (R155, R156, Table BOOT-12) -/

/-- The device state changes. -/
def toDevice (st : Nat) : Upd := wr .glb .GLB_DEV_STATE_STATE st

/-- What Table BOOT-12 leaves off or empty: every port, the other faces, instances, hatch lists, the channels that are no
anchors and the MSI-X table of F0. -/
def fallbackClear : Upd := look fun s =>
  all [forEach s.boundVis unbindNow,
       forBelow 31 fun f => faceBindWrite .fw0 (f + 1) 0,
       forBelow 96 fun p => all [portOff p, hatchUnpend p, resetPage (.sched p) .warm],
       forBelow 24 fun c => when_ (!anchor c) (all [wr (.pwr c) .PWR_CH_CFG_EN 0, chanOff c]),
       forEach [Var.msixAddr, .msixData, .msixOpen, .msixPend] fun x => clearIv x fun i => i / 2048 == 0]

/-- P0 as a ×8 UP port of up to 32 GT/s for face F0, which holds the management grant. -/
def fallbackConfig : Upd :=
  all [forBelow 8 fun j => wr (.lane 0) .LANE_RATE_CFG_PCIE_MAX 5 j, portCfgWrite .fw0 0 0x96000000, faceBindWrite .fw0 0 0x80000000,
       setGrant 1]

/-- Both plates are zeroed: plate 0 is live and verified with GENERATION 0, plate 1 an unverified draft (R149). -/
def platesEmpty : Upd :=
  all [clearIv .plate fun _ => true, clearIv .plateLost fun _ => true, wr (.route 0) .ROUTE_LIVE_SEL_LIVE 0,
       wr (.route 0) .ROUTE_LIVE_SEL_P0_STATE plLIVE, wr (.route 0) .ROUTE_LIVE_SEL_P1_STATE plDRAFT, wr (.route 0) (plateVerFld 0) 1,
       wr (.route 0) (plateVerFld 1) 0, clearIv .liveSig fun _ => true, put .appliedSlot 0,
       wr (.route 0) .ROUTE_GEN_GENERATION 0 0, wr (.route 0) .ROUTE_GEN_GENERATION 0 1]

/-- ROM_RECOVERY is entered, and the ROM configures the part. -/
def romRecovery (code : Nat) : Upd :=
  all [bootErr code, toDevice dvROM_RECOVERY, platesEmpty, fallbackClear, fallbackConfig]

/-- BRINGUP is entered. -/
def bringup : Upd := look fun s =>
  all [platesEmpty, fallbackClear, fallbackConfig, toDevice dvBRINGUP,
       when_ s.owned (forEach (commonPages.filter fun pg => lockable pg && pg.block != 0 && pg.block != 1) lockPage)]

/-! ### The boot (R136 to R141) -/

/-- ROM_CHECKS_DONE (R139, R717): READY of every page but one whose block soft reset still runs. The SHUTDOWN thermal step holds
over a warm reset: HALT_N stays low, and the part in Safe Halt (Table PKG-15). -/
def execRomChecksDone (ok : Bool) : State → Answer := Upd.answer <| look fun s =>
  when_ (!s.inReset && s.device == dvROM && !s.ivOn .haltRel) <|
    if !ok then safeHaltNow hcROM 0 0 0
    else all [forEach (commonPages.filter fun pg => !s.on pg .BLK_CTRL_SOFT_RESET) fun pg => wr pg .BLK_STAT_READY 1,
              if s.ivOn .shutdown then safeHaltNow hcTHERMAL 1 0 0 else put .haltRel 1]

/-- The cases of R137 for a kind, in order. DESIGN CHOICE: of two PENDING slots, and of two VALID slots of which neither last ran, A
comes before B (log entry 193). -/
def State.slotCases (s : State) (kind : Nat) : List Nat :=
  let ks := [2 * kind, 2 * kind + 1]
  let last := fun (k : Nat) => s.iv .slotRan kind == 1 + (k - 2 * kind)
  let valid := ks.filter fun k => s.iv .slotState k == slVALID
  (ks.filter fun k => s.iv .slotState k == slPENDING && s.iv .slotTries k < 2) ++ valid.filter last ++ valid.filter fun k => !last k

/-- A PENDING slot is tried once more. -/
def slotTried (k : Nat) : Upd := look fun s => when_ (s.iv .slotState k == slPENDING) (all [modIv .slotTries (· + 1) k, dirRewrite])

/-- The ROM tries the cases in turn: `code` is what the checks of R144 find in the image of a slot (R644). -/
def romSelect (code : Nat → Nat) : List Nat → Upd
  | [] => romRecovery 3
  | k :: r =>
    all [slotTried k,
         if code k == 0 then put .fwSel (k + 1)
         else all [slotSet k slINVALID, when_ (code k == 6) (bootErr 6), romSelect code r]]

/-- The directory copy the ROM uses (R136): on SPI0, else on SPI1, the one with a good CRC-32C and the higher sequence number.
`sfdp` has a bit for each flash that answers, `crc` one for each copy whose CRC is good. -/
def State.dirPick (s : State) (sfdp : BitVec 2) (crc : BitVec 4) : Option Nat :=
  (List.range 2).findSome? fun f =>
    let good := fun (c : Nat) => sfdp.getLsbD f && crc.getLsbD c
    match good (2 * f), good (2 * f + 1) with
    | true, true => some (if s.iv .dirSeq (2 * f) < s.iv .dirSeq (2 * f + 1) then 2 * f + 1 else 2 * f)
    | true, false => some (2 * f)
    | false, true => some (2 * f + 1)
    | false, false => none

/-- The slot states and attempt counts of directory copy `c`. -/
def dirLoad (c : Nat) : Upd := look fun s =>
  all [put .dirFlash (c / 2),
       forBelow 4 fun k => all [put .slotState (s.iv .dirSlot (4 * c + k) % 4) k, put .slotTries (s.iv .dirSlot (4 * c + k) / 4) k]]

/-- FIRMWARE_SLOT_SELECT (R136, R137). -/
def execFirmwareSlotSelect (sfdp : BitVec 2) (crc : BitVec 4) (hA hB : ImgHeader) : State → Answer := Upd.answer <| look fun s =>
  let boot := s.device == dvROM && s.ivOn .haltRel
  let restart := s.rd (.mgmt 0) .MGMT_FW_STAT_STATE == fsRESTARTING
  when_ (!s.inReset && !s.safeHalt && (boot || restart) && !s.ivOn .fwSel) <|
    if sfdp == 0 then romRecovery 1
    else match s.dirPick sfdp crc with
      | none => romRecovery 2
      | some c => all [dirLoad c, look fun t => romSelect (fun k => t.headerCode 0 (if k == 0 then hA else hB)) (t.slotCases 0)]

/-- FIRMWARE_START (R137, R693): a start at boot advances FW_EPOCH, as a restart has done already. -/
def execFirmwareStart : State → Answer := Upd.answer <| look fun s =>
  let k := s.iv .fwSel - 1
  when_ (!s.inReset && s.ivOn .fwSel) <|
    all [put .fwSel 0, wr .glb .GLB_DEV_STATE_FW_SLOT k, put .wdAt s.now,
         if s.iv .slotState k == slVALID then put .slotRan (1 + k) 0 else put .fwUnconf 1,
         if s.rd (.mgmt 0) .MGMT_FW_STAT_STATE == fsRESTARTING then wr (.mgmt 0) .MGMT_FW_STAT_STATE fsRUN else firmwareStarts,
         when_ (s.device == dvROM) (toDevice dvFIRMWARE)]

/-- A write of `v` to MGMT_FW_SLOT (R153, R645). -/
def fwSlotWrite (v : Nat) : Upd := look fun s =>
  let k := s.rd .glb .GLB_DEV_STATE_FW_SLOT
  when_ (v.testBit 31 && s.ivOn .fwUnconf) <|
    all [put .fwUnconf 0, slotSet k slVALID, put .slotRan (1 + k) 0, raiseArb 0 (min 63 (s.iv .slotSecVer k))]

/-- FW_CONFIRM. -/
def execFwConfirm (st : Stamp) (v : Word) : State → Answer := Upd.answer (granted st (.mgmt 0) 0x100 (fwSlotWrite v.toNat))

/-- CONFIRM_TIMEOUT (R153). -/
def execConfirmTimeout : State → Answer := Upd.answer <| look fun s =>
  when_ (s.ivOn .fwUnconf && s.fwRuns) (all [bootErr 9, fwRestart])

/-- The image of configuration slot `k` fails (R138). -/
def cfgFails (k code : Nat) : Upd := all [bootErr code, slotSet k slINVALID, warmByRegister]

/-- R150 keeps the plates: slot `k` is the one applied before the reset, with its SEQUENCE unchanged. -/
def State.plateHeld (s : State) (k : Nat) (h : ImgHeader) : Bool := s.iv .appliedSlot == k - 1 && s.iv .appliedSeq == h.sequence

/-- CONFIG_HEADER_VERIFY (R138, R144, R641): without a slot to try the part enters BRINGUP; with a good header STATE = CONFIG, the
page locks are cleared, and the switch takes its SWITCH_ID and DOMAIN_ID. -/
def execConfigHeaderVerify (h : ImgHeader) : State → Answer := Upd.answer <| look fun s =>
  when_ (s.device == dvFIRMWARE && s.fwRuns) <|
    match s.slotCases 1 with
    | [] => bringup
    | k :: _ =>
      let code := s.headerCode 1 h
      all [slotTried k,
           if code != 0 then cfgFails k code
           else all [toDevice dvCONFIG, put .cfgSel (k - 1), put .cfgDone 0, put .cfgPlates 0, put .cfgHdr h.raw.toNat,
                     clearIv .cfgPorts fun _ => true, clearIv .cfgTable fun _ => true, put .cfgCount h.table.length,
                     forEach h.table.zipIdx fun (e, i) => put .cfgTable e.toNat i, put .slotSecVer h.secVersion k, put .slotSeq h.sequence k,
                     put .cfgKeep (b2n (s.plateHeld k h)), when_ (!s.plateHeld k h) (put .appliedSlot 0),
                     forEach commonPages unlockPage,
                     wr (.bridge 4) .BRIDGE_FAB_ID_SWITCH_ID h.switchId,
                     wr (.bridge 4) .BRIDGE_DOMAIN_ID_0 (bits h.domainId 31 0), wr (.bridge 4) .BRIDGE_DOMAIN_ID_1 (bits h.domainId 63 32),
                     wr (.bridge 4) .BRIDGE_DOMAIN_ID_2 (bits h.domainId 95 64), wr (.bridge 4) .BRIDGE_DOMAIN_ID_3 (bits h.domainId 127 96)]]

/-! ### Quiet state and wake (R158 to R161, Table BOOT-13) -/

/-- GUARD quiesces port `p` as an orderly removal. -/
def quietPort (p : Nat) : Upd := look fun s =>
  powerQuiesce p { pg := .glb, bit := 0, cls := .nf, dom := .dom (s.portDom p), block := 0, detail0 := 0, detail1 := 0, warn := true }

/-- The wake sources that the registers enable: bit 0 stands for VWAKE, which always wakes. -/
def State.wakeEnables (s : State) : Nat :=
  s.rd .glb .GLB_QUIET_CTRL_WAKE_TIMER_EN <<< 3 + s.rd .glb .GLB_QUIET_CTRL_WAKE_PRSNT <<< 2 + s.rd .glb .GLB_QUIET_CTRL_WAKE_FPERST <<< 1 + 1

/-- Quiet entry starts; it runs to its end, whatever reset comes meanwhile (R158), with the wake sources and faces of this
moment. -/
def quietStart : Upd := look fun s =>
  when_ (!s.safeHalt && !s.ivOn .quietRun) <|
    all [put .quietRun 1, put .wakeCtl s.wakeEnables, put .wakeFaces (s.rd .glb .GLB_WAKE_FACES_MASK), toDevice dvQUIET_ENTRY,
         forEach (allBelow 96 fun p => s.role p != 0) quietPort, forBelow 24 chanOff]

/-- A write of `v` to GLB_QUIET_CTRL. -/
def quietCtrlWrite (st : Stamp) (v : Nat) : Upd :=
  all [plainWrite st .glb 0x114 v, when_ (bits v 31 16 == 0x57A7 && v.testBit 0) quietStart]

/-- QUIET_ENTRY. -/
def execQuietEntry (st : Stamp) (v : Word) : State → Answer := Upd.answer (granted st .glb 0x114 (quietCtrlWrite st v.toNat))

/-- QUIET_CHANNELS_OFF: every gate is low, anchor channels included. -/
def execQuietChannelsOff : State → Answer := Upd.always <| look fun s =>
  when_ (s.ivOn .quietRun) <|
    forBelow 24 fun c => all [when_ (s.chanOn c) (cut c cutOFF), chanTo c pcOFF]

/-- The part wakes (R160): a cold start of everything but what the always-on island keeps. The switch die has been in this cold
reset since quiet entry, and what that interrupted stays recorded (Table BOOT-11). -/
def wake (src : Nat) : Upd := look fun s =>
  all [coldReset rcWAKE false, interrupted (s.on .glb .GLB_RESET_CAUSE_INSTALL_ABORT) (s.on .glb .GLB_RESET_CAUSE_TURN_DISARMED) false,
       wr .glb .GLB_RESET_CAUSE_WAKE_SRC src, put .wakePend 0, put .wakeCtl 0, forBelow 24 chanStart]

/-- QUIET_STATE: the switch die goes into cold reset and the wake sources are armed; one that fired during entry acts now. -/
def execQuietState : State → Answer := Upd.always <| look fun s =>
  when_ (s.ivOn .quietRun && (List.range 24).all fun c => !s.chanOn c) <|
    all [coldReset rcWAKE true, put .quietRun 0, put .coldQual 0, put .dieReset drQUIET,
         when_ (s.ivOn .wakePend) (wake (s.iv .wakePend))]

/-- A wake source with WAKE_SRC code `src` fires; `en` is its bit among the enables. -/
def wakeBy (src en : Nat) : Upd := look fun s =>
  when_ ((s.iv .wakeCtl).testBit en) <|
    if s.iv .dieReset == drQUIET then wake src
    else when_ (s.ivOn .quietRun && !s.ivOn .wakePend) (put .wakePend src)

/-- WAKE_VWAKE. -/
def execWakeVwake : State → Answer := Upd.always (wakeBy 1 0)

/-- WAKE_TIMER_EXPIRY. -/
def execWakeTimerExpiry : State → Answer := Upd.always (wakeBy 4 3)

/-- WAKE_PRSNT. -/
def execWakePrsnt : State → Answer := Upd.always (wakeBy 3 2)

/-- WAKE_FPERST. -/
def execWakeFperst (f : FaceId) : State → Answer := Upd.always (all [put .fperst 1 f, wakeBy 2 1])

/-- FWAKE_N[f] is driven low (R161). -/
def State.fwakeLow (s : State) (f : Nat) : Bool :=
  (s.iv .wakeFaces).testBit f && s.iv .dieReset != drCOLD && s.iv .dieReset != drQUIET && !s.ivOn .quietRun

/-- FWAKE_RELEASE_TIMEOUT (R161). -/
def execFwakeReleaseTimeout : State → Answer := Upd.always <| look fun s =>
  when_ (s.iv .dieReset != drCOLD && s.iv .dieReset != drQUIET && !s.ivOn .quietRun) <|
    all [forEach (allBelow 32 (s.iv .wakeFaces).testBit) fun f => wr (.face f) .FACE_PM_STAT_FWAKE 0, put .wakeFaces 0]

/-! ### Temperature (R111 to R115, R714, Table PKG-15) -/

/-- A reading lies within −55 °C to 160 °C (R112). -/
def tempValid (t : BitVec 16) : Bool := -55 * 16 ≤ t.toInt && t.toInt ≤ 160 * 16

/-- The hottest of the valid readings, with its sensor: of two alike the lower. -/
def hottest (l : List (Nat × Int)) : Option (Nat × Int) :=
  l.foldl (fun best x => match best with
    | some b => if b.2 < x.2 then some x else some b
    | none => some x) none

/-- THERM_N is driven low. -/
def State.thermLow (s : State) : Bool := s.rd (.mgmt 0) .MGMT_THERM_STAT_STEP != 0 || s.ivOn .shutdown

/-- The step after a sample (Table PKG-15), from the step before: `h` the highest valid reading in sixteenths of 1 °C, none
without one, `few` when fewer than 16 switch-die sensors are valid. -/
def State.thermStep (s : State) (h : Option Int) (few : Bool) : Nat :=
  let at_ := fun (n : Nat) => few || h.any fun t => 16 * (n : Int) ≤ t
  let stays := fun (n : Nat) => h.any fun t => 16 * ((n : Int) - 5) ≤ t
  let warn := s.warnAt
  let thr := max 60 (s.thermThresh 1)
  let was := s.rd (.mgmt 0) .MGMT_THERM_STAT_STEP
  let held := was == 3 && (!s.ivOn .thermHold || s.ivOn .shutdown || at_ warn)
  if held || at_ (s.thermThresh 2) then 3
  else if at_ thr || (was == 2 && stays thr) then 2
  else if at_ warn || ((was == 1 || was == 2) && stays warn) then 1 else 0

/-- THERMAL_SAMPLE. -/
def execThermalSample (t : List (BitVec 16)) : State → Answer := Upd.answer <| look fun s =>
  let rs := (t.take 34).zipIdx
  let valid := (rs.filter fun x => tempValid x.1).map fun x => (x.2, x.1.toInt)
  let few := (valid.filter fun x => x.1 < 32).length < 16
  let h := hottest valid
  let step := s.thermStep (h.map (·.2)) few
  let shut := h.any fun x => 16 * (s.thermThresh 3 : Int) ≤ x.2
  when_ (!s.inReset) <|
    all [forEach rs fun x => all [wr (.mgmt 0) .MGMT_TEMP_T x.1.toNat x.2, wr (.mgmt 0) .MGMT_TEMP_VALID (b2n (tempValid x.1)) x.2],
         wr (.mgmt 0) .MGMT_THERM_STAT_STEP step, wr (.mgmt 0) .MGMT_THERM_STAT_VALID_COUNT valid.length, put .thermHold 0,
         forSome h fun x => all [wr (.mgmt 0) .MGMT_THERM_STAT_HOT_SENSOR x.1,
           wr (.mgmt 0) .MGMT_THERM_STAT_HOTTEST (BitVec.ofInt 16 x.2).toNat],
         when_ (valid.length < rs.length) (raise (.mgmt 0) .MGMT_SENSOR_BAD),
         when_ (step != 0 && s.rd (.mgmt 0) .MGMT_THERM_STAT_STEP == 0) (raise (.mgmt 0) .MGMT_THERM_WARN),
         when_ (step == 3) (safeHaltNow hcTHERMAL 1 0 0),
         when_ shut (all [put .shutdown 1, put .haltRel 0, forBelow 192 laneOff])]

/-! ### Reference clocks (R119, R120)

The clock monitors run from the crystal clock, in a warm reset too. DESIGN CHOICE: REF_A_OK and REF_B_OK read 0 after a reset, their
reset value, until the monitor has seen the reference in range for 1 ms; training looks at what has been declared lost. -/

/-- The octets that a reference serves. -/
def refOctets (k : Option (Fin 6)) : List Nat :=
  match k with
  | none => List.range 24
  | some k => (List.range 4).map (4 * k.val + ·)

/-- The ports in use that run from a reference. -/
def State.refPorts (s : State) (k : Option (Fin 6)) : List Nat :=
  allBelow 96 fun p => s.role p != 0 && (match k with
    | none => !s.isFab p
    | some k => s.isFab p && (s.portLanes p).any fun l => l / 32 == k.val)

/-- The place of a reference among the variables `refLost`. -/
def refIndex (k : Option (Fin 6)) : Nat := (k.map (·.val)).getD 6

/-- The monitor's bit for a reference in an octet. -/
def refOk (k : Option (Fin 6)) : Fld := if k.isNone then .LANE_OCT_STAT_REF_A_OK else .LANE_OCT_STAT_REF_B_OK

/-- The containment request for port `p` when reference A (`none`) or a reference B that clocks it is lost (Table GUARD-3). -/
def refRequest (s : State) (k : Option (Fin 6)) (p : Nat) : GReq :=
  { pg := .lane (firstLane p / 8), bit := b2n k.isSome, cls := .nf, dom := .dom (s.portDom p), block := 4, detail0 := 0, detail1 := 0,
    warn := false }

/-- REFCLK_LOSS: the ports go down, and containment of their domains is requested as for a lost PLL (Table GUARD-3). A loss in a
reset is kept (DESIGN CHOICE, log entry 192). -/
def execRefclkLoss (k : Option (Fin 6)) : State → Answer := Upd.always <| look fun s =>
  when_ (!s.ivOn .refLost (refIndex k)) <|
    all [put .refLost 1 (refIndex k), forEach (refOctets k) fun o => wr (.lane o) (refOk k) 0,
         when_ (!s.inReset) <| forEach (s.refPorts k) fun p => all [linkDown p, modGreqs (· ++ [refRequest s k p])]]

/-- REFCLK_RESTORE: the domains contained for the lost reference recover (R612). -/
def execRefclkRestore (k : Option (Fin 6)) : State → Answer := Upd.always <| look fun s =>
  let waits := fun (d : Dom) => s.ivOn .refLost (refIndex k) && s.domState d == gdCONTAINED && s.gds d .GDS_LANE_CLASS == Cls.nf.code
  all [put .refLost 0 (refIndex k), forEach (refOctets k) fun o => wr (.lane o) (refOk k) 1,
       when_ (!s.inReset) <| forEach ((s.refPorts k).map s.portDom) fun d => when_ (waits d) (startRecovery d)]

end Sys2Proof.Machine
end

