-- ==== Sys2Proof/Machine/Turn.lean ====
section
/-! DEFINITION. The cycle boundary: the tracker's step to the next cycle (spec/11) and what the other blocks do at it: plate turns
(spec/09), FAB ports (spec/10), gate lists (spec/12), prefetch (spec/15). -/

namespace Sys2Proof.Machine

/-- The boundary is at fabric time `b` and starts a cycle of `len` ns. -/
def cycleStarts (b len : Nat) : Upd := look fun s =>
  all [timeTo (max s.now b), wr .schedg .SCHED_CYC_LEN_LEN len, put .cycStart b,
       put .cycRes (s.iv .cycResNext), put .cycEdge (s.iv .cycEdgeNext), put .cycResNext 0, put .cycEdgeNext 0]

/-- The cycle number. -/
def setCycle (c : Nat) : Upd :=
  all [wr .schedg .SCHED_CYC_NUM_CYCLE c, wr .schedg .SCHED_CYC_NUM_CYCLE_HI (bits c 47 32)]

/-- The first boundary (R437, R441, R448): the tracker locks, at once in FREE, else at the boundary committed. -/
def firstBoundary (b c len : Nat) (st : Nat) : Upd := look fun s =>
  all [cycleStarts b len, setCycle c, put .cycPrev len, wr .schedg .SCHED_CYC_STAT_EVER_LOCKED 1,
       wr .schedg .SCHED_CYC_STAT_STRATUM (if s.follower then s.iv .mkStratum - 1 else 0),
       when_ (!s.fromRef) (put .cycP (65536 * len)), when_ s.follower (put .cycLast len),
       put .cycFirst 0, acquireAfresh, setTracker st]

/-- TRACKER_RELOCK (R444, R448): the transitional cycle has ended; a follower takes the master's number. -/
def trackerRelock : Upd := look fun s =>
  let c := s.iv .relockNum - 1
  all [put .relock 0, put .asSource 0,
       when_ (s.follower && s.cycleNum != c) (all [setCycle c, raise .schedg .CYC_CYC_JUMP]),
       acquireAfresh, wr .schedg .SCHED_CYC_STAT_HOLD_LEFT 0, put .errRun 0, setTracker ctLOCKED, bump .schedg 6]

/-- The master turns to its crystal (R451). -/
def turnFree : Upd :=
  all [put .toFree 0, acquireAfresh, wr .schedg .SCHED_CYC_STAT_HOLD_LEFT 0, wr .schedg .SCHED_CYC_STAT_STRATUM 0, setTracker ctFREE]

/-- The boundary at the end of the current cycle, whose successor has been committed. -/
def nextBoundary : Upd := look fun s =>
  let len := s.iv .cycNext
  let b := s.iv .cycStart + s.cycLen
  all [when_ (s.tracker == ctLOST) (bump .schedg 7),
       cycleStarts b len, put .cycPrev s.cycLen, put .cycNext (s.iv .cycNext2), put .cycNext2 0, setCycle ((s.cycleNum + 1) % 2 ^ 48),
       when_ (s.tracker == ctFREE || (s.follower && s.tracker == ctLOCKED)) (put .cycP (65536 * len)),
       if s.ivOn .toFree then turnFree
       else if s.iv .relock == 2 then put .relock 1
       else when_ (s.iv .relock == 1) trackerRelock]

/-- A cycle that no midpoint has committed is committed now; a follower that lacks its source's commit enters HOLDOVER (R448). -/
def lateCommit : Upd := look fun s =>
  when_ (s.iv .cycNext == 0) <|
    all [when_ (s.follower && (s.tracker == ctLOCKED || s.ivOn .asSource)) enterHoldover, commit]

/-- An armed turn at the boundary of cycle `c`: it executes, or has been missed, or waits (R386, R389, R404, R416, R553). -/
def turnBoundary (c : Nat) : Upd := look fun s =>
  let at_ := s.iv .turnAt
  if s.inCycle && s.turnArmed && at_ == c then
    all [plateTurn, fabPortAdmit c, streamsRestart, prefDiscard fun _ => true]
  else all [when_ (s.inCycle && s.turnArmed && at_ < c) turnMissed, graceTick]

/-- A port's gates at a boundary (R483, R484). -/
def portBoundary (c p : Nat) : Upd := look fun s =>
  all [shaperAdvance p, if s.inCycle then hatchBoundary p c true else wr (.sched p) .SCHED_HATCH_STAT_ENTRY_NOW 0,
       gateChange p (s.gates p)]

/-- What every block does at a boundary. -/
def boundaryActions : Upd := look fun s =>
  let c := s.cycleNum
  all [turnBoundary c, plateSkewCheck, fabPortRejoin,
       forEach (allBelow 96 fun p => s.role p != 0 || (s.hatchPending p).isSome) (portBoundary c),
       cycOutRise, forBelow 96 sendLinkStatus]

/-- CYCLE_BOUNDARY. -/
def execCycleBoundary : State → Answer := Upd.answer <| look fun s =>
  let first := s.iv .cycFirst
  if s.tracker == ctIDLE || s.tracker == ctACQUIRE then
    if s.freeSrc then all [firstBoundary s.now s.cycleNum s.nominal ctFREE, boundaryActions]
    else when_ (first != 0) <|
      if s.follower then all [firstBoundary (first - 1) (s.iv .cycFirstNum) (clampLen (s.iv .cycFirstLen)) ctLOCKED, boundaryActions]
      else all [firstBoundary (first - 1) s.cycleNum (clampLen (roundP (s.iv .cycP))) ctLOCKED, boundaryActions]
  else all [lateCommit, nextBoundary, boundaryActions]

end Sys2Proof.Machine
end

