-- ==== Sys2Proof/Machine/Header.lean ====
section
/-! DEFINITION. The common page header (spec/02): quiesce and block soft reset, interrupts, and counters as software clears
them. -/

namespace Sys2Proof.Machine

/-! ### Quiesce and block soft reset (R54 to R57, R717) -/

/-- The pages with a header of the block that a page belongs to (R55). -/
def blockPages (pg : Pg) : List Pg :=
  match pg with
  | .mgmt _ | .sec _ | .guard _ | .core _ | .route _ | .bridge _ | .mbox _ | .inst _ =>
    commonPages.filter fun x => ctrlPage x == ctrlPage pg
  | _ => [pg]

/-- No work is in flight in the block of a page. -/
def State.idle (s : State) (pg : Pg) : Bool :=
  match pg with
  | .port p => s.portIdle p
  | .core _ => s.buf.isEmpty
  | .face f => !s.slots.any fun x => x.face == f && x.st == slBUSY
  | .eng e => (s.engDescs e).isEmpty && !(List.range 4096).any fun n => s.ivOn .fetchTag n && s.ringEngine n == e
  | .moverg => !(s.descs.any (·.opened)) && !(List.range 4096).any fun n => s.ivOn .fetchTag n
  | _ => true

/-- QUIESCE rises: new work stops, and the drain is over at once when nothing is in flight. -/
def quiesceStart (pg : Pg) : Upd := look fun s =>
  all [wr pg .BLK_CTRL_QUIESCE 1, wr pg .BLK_STAT_QUIESCED (b2n (s.idle pg))]

/-- QUIESCE falls: the block takes new work again, and credits are granted again. -/
def quiesceStop (pg : Pg) : Upd :=
  let credits := fun (p : Nat) => look fun s => when_ (s.role p != 0) <|
    forEach (s.acctClasses p) fun c => forBelow 3 fun x => grantCredits p c x
  all [wr pg .BLK_CTRL_QUIESCE 0, wr pg .BLK_STAT_QUIESCED 0,
       match pg with
       | .port p => credits p
       | .core _ => forBelow 96 credits
       | .eng e => pump e
       | .moverg => forBelow 64 pump
       | _ => skip]

/-- The header of a page returns to its reset values, but for what a block soft reset keeps. -/
def resetHeader (pg : Pg) : Upd :=
  all [modRegs (fun m => m.keep fun k => !(inPage pg k && k / 32 - pg.base < 0x100) || keptAt pg .block k) fun _ h => Map.keep_wf _ h,
       modStamp (fun m => m.keep fun k => !(inPage pg (k / 64) && k / 64 / 32 - pg.base < 0x100) || keptAt pg .block (k / 64))
         fun _ h => Map.keep_wf _ h]

/-- The registers of a SCHED port page at its block soft reset: every RW field of its own is kept, and both lists, of which an
ACTIVE one goes on (spec/12; DEDUCED, log entry 216). -/
def resetSched (p : Nat) : Upd :=
  let list := [Fld.SCHED_HATCH_STAT_A_STATE, .SCHED_HATCH_STAT_B_STATE, .SCHED_HATCH_STAT_ENTRY_NOW]
  let stays := fun (k : Nat) => (findFld tabSCHED (k / 32 - (Pg.sched p).base) (k % 32)).any fun f => f.ty == .rw || list.contains f
  all [modRegs (fun m => m.keep fun k => !inPage (.sched p) k || keptAt (.sched p) .block k || stays k) fun _ h => Map.keep_wf _ h,
       modStamp (fun m => m.keep fun k => !inPage (.sched p) (k / 64) || keptAt (.sched p) .block (k / 64))
         fun _ h => Map.keep_wf _ h]

/-- What a block soft reset does once the block is drained, as its chapter gives it. -/
def resetAction (pg : Pg) : Upd := look fun s =>
  let pages := forEach (blockPages pg) fun x => resetPage x .block
  let headers := forEach (blockPages pg) resetHeader
  match pg with
  | .lane n =>
    let lanes := (List.range 8).map (8 * n + ·)
    all [forEach (lanes.filterMap s.owner).eraseDups linkDown, forEach lanes laneOff, pages]
  | .port p => all [portReset p, releaseLanes (s.portLanes p), pages, coreWatch]
  | .face f => all [faceReset f, headers]
  | .core _ => all [modBuf fun _ => [], clearIv .redAvg fun _ => true, headers, clearCnts (.core 0) fun _ => true, coreWatch]
  | .route _ => all [routeSoftReset, pages, routeSoftReset]
  | .schedg => all [pages, refillBuckets]
  | .sched p =>
    all [schedSoftReset p, resetSched p, clearIv .cbsCr fun i => i / 8 == p, clearIv .drrDef fun i => i / 8 == p,
         clearIv .drrQuant fun i => i / 8 == p, put .drrCur 0 p, clearIv .flowDef fun i => i / 16384 == p,
         clearIv .flowQuant fun i => i / 16384 == p, clearIv .flowCur fun i => i / 8 == p]
  | .inst _ => all [forEach s.boundVis fun v => instReset v false, pages]
  | .eng e => all [engSoftReset e, pages]
  | .moverg => all [moverSoftReset, pages]
  | .mbox _ => all [mboxSoftReset, pages]
  | .mgmt _ => all [pages, when_ s.fwRuns fwRestart]
  | .pwr c => if s.chanOn c then all [put .pwReset 1 c, chanOff c] else chanSoftReset c
  | _ => pages

/-- The reset acts, and QUIESCE ends with it; SOFT_RESET stays set, and READY clear, until the reset completes. -/
def resetNow (pg : Pg) : Upd :=
  all [resetAction pg, quiesceStop pg, wr pg .BLK_CTRL_SOFT_RESET 1, wr pg .BLK_STAT_READY 0]

/-- A block soft reset of these pages does not wait for work in flight: their chapters say how it ends. -/
def resetsAtOnce : Pg → Bool
  | .moverg => true
  | _ => false

/-- SOFT_RESET is written (R56): a block that is not drained quiesces first. SOFT_RESET is reserved in the GLB, SEC and GUARD
pages (R57). -/
def softReset (pg : Pg) : Upd := look fun s =>
  let none_ : Bool := (match pg with
    | .glb | .sec _ | .guard _ => true
    | _ => false)
  when_ (!none_ && !s.on pg .BLK_CTRL_SOFT_RESET) <|
    all [wr pg .BLK_CTRL_SOFT_RESET 1, wr pg .BLK_STAT_READY 0, when_ (!s.on pg .BLK_CTRL_QUIESCE) (quiesceStart pg),
         look fun t => when_ (t.on pg .BLK_STAT_QUIESCED || resetsAtOnce pg) (resetNow pg)]

/-- A write of `v` to BLK_CTRL: in a block of several pages only page 0's acts (R55). QUIESCE stands still while a soft reset
runs. -/
def blkCtrlWrite (pg : Pg) (v : Nat) : Upd := look fun s =>
  let q := s.on pg .BLK_CTRL_QUIESCE
  when_ (ctrlPage pg == pg) <|
    all [wr pg .BLK_CTRL_ENABLE (b2n (v.testBit 0)),
         when_ (!s.on pg .BLK_CTRL_SOFT_RESET) <|
           if v.testBit 1 && !q then quiesceStart pg else when_ (!v.testBit 1 && q) (quiesceStop pg),
         when_ (v.testBit 2) (softReset pg)]

/-- BLOCK_SOFT_RESET. -/
def execBlockSoftReset (st : Stamp) (pg : Pg) (v : Word) : State → Answer := Upd.answer <|
  when_ (pg.ok && pg.common) (granted st pg 0x10 (blkCtrlWrite pg v.toNat))

/-- BLOCK_QUIESCE. -/
def execBlockQuiesce (st : Stamp) (pg : Pg) (v : Word) : State → Answer := Upd.answer <|
  when_ (pg.ok && pg.common) (granted st pg 0x10 (blkCtrlWrite pg v.toNat))

/-- QUIESCE_DRAINED (R214, R354): QUIESCED becomes 1, and a soft reset that waited for it acts. -/
def execQuiesceDrained (pg : Pg) : State → Answer := Upd.answer <| look fun s =>
  when_ (pg.ok && pg.common && ctrlPage pg == pg && s.on pg .BLK_CTRL_QUIESCE && !s.on pg .BLK_STAT_QUIESCED && s.idle pg) <|
    all [wr pg .BLK_STAT_QUIESCED 1, when_ (s.on pg .BLK_CTRL_SOFT_RESET) (resetNow pg)]

/-- What a block soft reset still waits for after it has acted: a channel's warned cut-off, the resets of instances, a face reset
that subsumes it (R130). -/
def State.resetRuns (s : State) (pg : Pg) : Bool :=
  match pg with
  | .pwr c => s.ivOn .pwReset c
  | .inst _ => s.boundVis.any s.resetting
  | .face f => !s.ivOn .fperst f
  | _ => false

/-- BLOCK_SOFT_RESET_DONE (R717): READY returns to 1. A port's link is down and its reset done within its bound whether its
frames have drained or not (R215). -/
def execBlockSoftResetDone (pg : Pg) : State → Answer := Upd.answer <| look fun s =>
  let waits := s.on pg .BLK_CTRL_QUIESCE
  let port : Bool := (match pg with
    | .port _ => true
    | _ => false)
  when_ (pg.ok && pg.common && s.on pg .BLK_CTRL_SOFT_RESET && !s.resetRuns pg && (!waits || port)) <|
    all [when_ waits (resetNow pg), wr pg .BLK_CTRL_SOFT_RESET 0, wr pg .BLK_STAT_READY 1]

/-! ### Errors and interrupts as software writes them (R62, R63) -/

/-- The class that ERR_SEV shows for error bit `b` of a page. -/
def State.sevOf (s : State) (pg : Pg) (b : Nat) : Nat :=
  match s.iv .errSev (pg.base / 0x10000 * 32 + b) with
  | 0 => (((errTab pg).find? (·.bit == b)).map (·.dflt.code)).getD 0
  | v + 1 => v

/-- A write of `v` to ERR_SEV0 (`b` = 0) or ERR_SEV1 (`b` = 16): a field below its bit's minimum class keeps its value. -/
def sevWrite (pg : Pg) (b v : Nat) : Upd :=
  forBelow 16 fun k =>
    let c := v / 4 ^ k % 4
    let least := (((errTab pg).find? (·.bit == b + k)).map (·.least.code)).getD 0
    when_ (least ≤ c) (put .errSev (c + 1) (pg.base / 0x10000 * 32 + (b + k)))

/-- A write of `v` to ERR_FIRST: VALID = 1 clears the capture. -/
def errFirstWrite (pg : Pg) (v : Nat) : Upd :=
  when_ (v.testBit 31) <|
    all [wr pg .ERR_FIRST_VALID 0, wr pg .ERR_FIRST_MORE 0, wr pg .ERR_FIRST_CLASS 0, wr pg .ERR_FIRST_INDEX 0]

/-- A write of `v` to INT_CAUSE or, with `en`, to INT_EN: one interrupt goes out when it leaves a cause unmasked (R63). -/
def intWrite (st : Stamp) (pg : Pg) (en : Bool) (v : Nat) : Upd :=
  all [plainWrite st pg (if en then 0x44 else 0x40) v, look fun s => when_ (s.unmasked pg != 0) (sendInt pg)]

/-- INT_CAUSE_WRITE. -/
def execIntCauseWrite (st : Stamp) (pg : Pg) (en : Bool) (v : Word) : State → Answer := Upd.answer <|
  when_ (pg.ok && pg.common) (granted st pg (if en then 0x44 else 0x40) (intWrite st pg en v.toNat))

/-! ### Counters (R66) -/

/-- A write of `v` to CNT_CLR: every counter of each named group, and its SAT bit, is cleared. -/
def cntClear (pg : Pg) (v : Nat) : Upd := look fun s =>
  all [clearCnts pg fun i => (cntGroup pg i).any fun g => v.testBit g,
       wr pg .CNT_STAT_SAT (clearBits (s.rd pg .CNT_STAT_SAT) v)]

/-- COUNTER_CLEAR. -/
def execCounterClear (st : Stamp) (pg : Pg) (v : Word) : State → Answer := Upd.answer <|
  when_ (pg.ok && pg.common) (granted st pg 0x90 (cntClear pg v.toNat))

/-- A write of `v` to offset `off` of a page's header. -/
def headerWrite (st : Stamp) (pg : Pg) (off v : Nat) : Upd :=
  match off with
  | 0x10 => blkCtrlWrite pg v
  | 0x28 => sevWrite pg 0 v
  | 0x2C => sevWrite pg 16 v
  | 0x30 => errFirstWrite pg v
  | 0x40 => intWrite st pg false v
  | 0x44 => intWrite st pg true v
  | 0x90 => cntClear pg v
  | _ => plainWrite st pg off v

end Sys2Proof.Machine
end

