-- ==== Sys2Proof/Machine/Access.lean ====
section
/-! DEFINITION. Register accesses (spec/02): where an address leads, the checks that every access meets, what a granted write does
in the register it reaches, what a register reads as, and the side effects of reads. -/

namespace Sys2Proof.Machine

/-! ### Where an access leads (R39 to R41, R51, R83, R511, R516) -/

/-- The place of a dword: a register that its page defines (`tenant` when it is a ring's register seen through a tenant page),
a dword of a plate entry, or no register at all. -/
inductive Site where
  | reg (pg : Pg) (off : Nat) (tenant : Bool)
  | plate (k i d : Nat)
  | nowhere
deriving DecidableEq, Repr

/-- A place, and the page whose header records what goes wrong there. -/
structure Place where
  site : Site
  err : Pg
deriving DecidableEq, Repr

/-- The page defines a register at `off` (R41): one with a field that is not reserved, or ERR_SEV. -/
def defined (pg : Pg) (off : Nat) : Bool :=
  (pg.common && (off == 0x28 || off == 0x2C)) || (fieldsAt pg off).any fun fi => fi.1.ty != .rsv

/-- The register at `off` of a page, recorded in `e` when there is none. -/
def regAt (pg : Pg) (off : Nat) (tenant : Bool) (e : Pg) : Place := ⟨if defined pg off then .reg pg off tenant else .nowhere, e⟩

/-- The place of offset `off` of a tenant page (Table INST-8): windows onto the rings of the instance follow the header. -/
def State.tenantAt (s : State) (v off : Nat) : Place :=
  if 0x100 ≤ off && off < 0x500 then
    match (s.viRings v)[(off - 0x100) / 0x40]? with
    | some n => regAt (.ring n) ((off - 0x100) % 0x40) true (.inst 0)
    | none => ⟨.nowhere, .inst 0⟩
  else regAt (.tenant v) off false (.inst 0)

/-- The place of space address `a`. -/
def State.spaceAt (s : State) (a : Nat) : Place :=
  if inPlateWindow a then
    ⟨.plate ((a - 0x1000000) / 0x800000) (a % 0x800000 / 16) (a % 16 / 4), .route 0⟩
  else match pgAt a with
    | none => ⟨.nowhere, .glb⟩
    | some (.tenant v) => s.tenantAt v (a - (Pg.tenant v).base)
    | some pg => regAt pg (a - pg.base) false (errPage pg)

/-- The place of dword `k` of an access to `t` by stamp `st`: BAR2 is a face's alone. -/
def State.placeOf (s : State) (st : Stamp) (t : Target) (k : Nat) : Place :=
  match t with
  | .space a => s.spaceAt (a.toNat - a.toNat % 4 + 4 * k)
  | .bar2 o =>
    let off := o.toNat - o.toNat % 4 + 4 * k
    match st with
    | .face f =>
      (match s.iv .viSlot (1024 * f + off / 0x1000) with
       | 0 => ⟨.nowhere, .face f⟩
       | v + 1 => s.tenantAt v (off % 0x1000))
    | _ => ⟨.nowhere, .glb⟩

/-- The offset of an access in its path. -/
def offsetOf : Target → Nat
  | .space a => a.toNat
  | .bar2 o => o.toNat

/-- An access longer than two dwords, or one of two that does not start at an 8-byte-aligned offset (R46). -/
def badLength (t : Target) (n : Nat) : Bool := 2 < n || (n == 2 && offsetOf t / 4 % 2 == 1)

/-! ### Registers that act on a write -/

/-- A window's registers as a write reaches them (Table MBOX-4). -/
def windowWrite (st : Stamp) (w : NWin) (off v : Nat) : Upd :=
  let n := winCode w st
  if off < 0x10 then put .win (v % 2 ^ 32) (16 * n + off / 4)
  else if off == 0x10 then noticePostWrite st.code n v
  else if off == 0x40 then when_ (v.testBit 31) (arm st w)
  else when_ (off == 0x44) (put .win (v % 8192) (16 * n + 6))

/-- WM_STAT: a write of 1 to WM_EVENT also clears WM_CROSS_CNT (R72). -/
def wmWrite (st : Stamp) (pg : Pg) (off : Nat) (cross : Fld) (v : Nat) : Upd :=
  all [plainWrite st pg off v, when_ (v.testBit 31) (wr pg cross 0)]

/-- A FAB port is in PROVISIONAL or a later state (R431). -/
def State.fabSet (s : State) : Bool :=
  (List.range 96).any fun p => s.isFab p && (s.link p == lsPROVISIONAL || s.link p == lsUP || s.link p == lsREST || s.link p == lsWIDTH ||
    s.link p == lsRETIRING)

/-- A write to a lane's registers (spec/05). -/
def laneWrite (st : Stamp) (n off v : Nat) : Upd :=
  let l := 8 * n + (off - 0x400) / 0x80
  match (off - 0x400) % 0x80 with
  | 0x08 => eqCtrlWrite st l v
  | 0x0C => tapsWrite l v
  | 0x10 => prbsCtrlWrite st l v
  | 0x14 => injCtrlWrite st l v
  | 0x28 => slipWrite l v
  | _ => plainWrite st (.lane n) off v

/-- A write to the SCHED page of port `p` (spec/12). A slope at or above the port's rate is stored, and CFG_REFUSED set (R468). -/
def schedWrite (st : Stamp) (p off v : Nat) : Upd :=
  if 0x140 ≤ off && off < 0x180 then
    all [shaperAdvance p, plainWrite st (.sched p) off v,
         look fun s => when_ (off % 8 == 0 && s.rate p ≤ s.idleSlope p ((off - 0x140) / 8)) (raise (.sched p) .SCHED_CFG_REFUSED)]
  else if off == 0x200 then hatchCtrlWrite st p v
  else if off == 0x220 then hatchVerifyWrite st p v
  else if off == 0x224 then hatchLenWrite st p v
  else if 0x1000 ≤ off then hatchEntryWrite st p ((off - 0x1000) / 0x800) (off % 8 / 4) (off % 0x800 / 8) v
  else plainWrite st (.sched p) off v

/-- A write to the SCHED global page (spec/11, spec/12). -/
def schedgWrite (st : Stamp) (off v : Nat) : Upd :=
  if off == 0x100 then cycCfgWrite st false v
  else if off == 0x138 then cycCfgWrite st true v
  else if off == 0x12C then all [plainWrite st .schedg off v, cycOutHold]
  else if off == 0x150 then snapWrite st v
  else if off == 0x600 then all [polSelWrite st v, tdiCheck]
  else if 0x610 ≤ off && off < 0x624 then polStageWrite st ((off - 0x610) / 4) v
  else plainWrite st .schedg off v

/-- A write to a FACE page (spec/07). -/
def faceWrite (st : Stamp) (f off v : Nat) : Upd :=
  if off == 0x100 then faceBindWrite st f v
  else if off == 0x104 then presWrite st f none v
  else if off == 0x138 then winCommitWrite st f v
  else if 0x200 ≤ off && off < 0x600 then presWrite st f (some ((off - 0x200) / 4)) v
  else plainWrite st (.face f) off v

/-- A write to a PORT page (spec/06). -/
def portWrite (st : Stamp) (p off v : Nat) : Upd :=
  if off == 0x100 then portCfgWrite st p v
  else if off == 0x108 then linkCtrlWrite st p v
  else if off == 0x110 then look fun s =>
    if v.testBit 0 then requestContain st (.port p) (s.portDom p) else when_ (v.testBit 1) (releaseWrite (s.portDom p))
  else plainWrite st (.port p) off v

/-- A write to a CORE page (spec/08). -/
def coreWrite (st : Stamp) (k off v : Nat) : Upd :=
  match k with
  | 0 =>
    if off == 0x118 then wmWrite st (.core 0) off .CORE_WM_STAT_WM_CROSS_CNT v
    else if off == 0x124 then mcSelWrite st v
    else if 0x128 ≤ off && off < 0x138 then mcGroupStage st ((off - 0x128) / 4) v
    else all [plainWrite st (.core 0) off v, when_ (off == 0x114) coreWatch]
  | 1 => bufferLimitWrite st (.core 1) off v
  | 2 => all [bufferLimitWrite st (.core 2) off v, tdiCheck]
  | _ => plainWrite st (.core k) off v

/-- A write to a ROUTE control page (spec/09), ROUTE_TURN_CYCLE apart. -/
def routeWrite (st : Stamp) (k off v : Nat) : Upd :=
  if k == 0 && off == 0x104 then turnCtrlWrite v
  else if k == 0 && off == 0x114 then verifyCtrlWrite v
  else plainWrite st (.route k) off v

/-- A write to a BRIDGE page (spec/15, spec/10). -/
def bridgeWrite (st : Stamp) (k off v : Nat) : Upd :=
  if k == 2 then vepCfgWrite st ((off - 0x100) / 16) (off % 16 / 4) v
  else if k == 4 && (off == 0x100 || (0x120 ≤ off && off < 0x130)) then look fun s =>
    if s.fabSet then raise (.bridge 4) .FAB_CFG_REFUSED else plainWrite st (.bridge 4) off v
  else if k == 4 && 0x400 ≤ off then
    let p := (off - 0x400) / 4
    all [plainWrite st (.bridge 4) off v, look fun s =>
      when_ (s.on (.bridge 4) .BRIDGE_FAB_NBR_VALID p && !s.on (.bridge 4) .BRIDGE_FAB_NBR_MISWIRED p) (neighbourJudge p
        (s.rd (.bridge 4) .BRIDGE_FAB_NBR_PARTNER_SW p) (s.rd (.bridge 4) .BRIDGE_FAB_NBR_PARTNER_PORT p))]
  else if k == 4 && off == 0x110 then all [plainWrite st (.bridge 4) off v, proofWatch]
  else if k == 4 && off == 0x114 then wmWrite st (.bridge 4) off .BRIDGE_PROOF_WM_STAT_WM_CROSS_CNT v
  else plainWrite st (.bridge k) off v

/-- A write to an MBOX page (spec/16). -/
def mboxWrite (st : Stamp) (k off v : Nat) : Upd :=
  if k == 0 && 0x200 ≤ off then windowWrite st .page (off - 0x200) v
  else if k == 2 && off < 0x500 then
    if off % 8 == 0 then wordWrite st ((off - 0x100) / 8) v else when_ (v.testBit 30) (wordTake st ((off - 0x100) / 8))
  else if k == 3 then
    let n := (off - 0x100) / 4
    when_ (off < 0x500) (all [when_ (v.testBit 28) (semRelease st n), when_ (v.testBit 29) (semForce st n)])
  else plainWrite st (.mbox k) off v

/-- A write to an INST manager page (spec/13). -/
def instWrite (st : Stamp) (k off v : Nat) : Upd :=
  if k == 0 && off == 0x100 then instBindWrite st v
  else if k == 0 && off == 0x110 then instResetWrite st v
  else if k == 1 then shareWrite st ((off - 0x100) / 4) v
  else plainWrite st (.inst k) off v

/-- A write to a ring's registers (spec/14), its two bases apart. -/
def ringWrite (st : Stamp) (n off : Nat) (tenant : Bool) (v : Nat) : Upd :=
  match off with
  | 0x00 => ringCfgWrite st n tenant v
  | 0x04 => when_ (v.testBit 28) (ringResume n)
  | 0x14 => ringTailWrite st n v
  | 0x20 => cplCtrlWrite st n v
  | _ => plainWrite st (.ring n) off v

/-- A write to an MGMT page (spec/20). -/
def mgmtWrite (st : Stamp) (k off v : Nat) : Upd :=
  if k == 1 then gatherWrite st off v
  else if k == 0 && off == 0x100 then fwSlotWrite v
  else if k == 0 && off == 0x108 then wdWrite st v
  else if k == 0 && off == 0x110 then thermThreshWrite v
  else if k == 0 && off == 0x200 then imgCtrlWrite st v
  else if k == 0 && off == 0x204 then imgChunkWrite st v
  else plainWrite st (.mgmt k) off v

/-- A write to a SEC page (spec/18). -/
def secWrite (st : Stamp) (k off v : Nat) : Upd :=
  if k == 0 && off == 0x120 then tokenCtrlWrite st.code v
  else if k == 0 && off == 0x150 then debugWrite v
  else if k == 0 && 0x400 ≤ off then lockMapWrite ((off - 0x400) / 4) v
  else if k == 2 then linkStatWrite ((off - 0x100) / 4) v
  else plainWrite st (.sec k) off v

/-- The domain of the register at `off` of GUARD page 1 (GUARD_DOMAIN_STAT). -/
def domAt (off : Nat) : Dom :=
  if off < 0x400 then .lane ((off - 0x100) / 4)
  else if off < 0x600 then .port ((off - 0x400) / 4)
  else if off < 0x1000 then (let k := (off - 0x600) / 4; .link (if k < 96 then k else 0x100 + (k - 96)))
  else if off < 0x2000 then .inst ((off - 0x1000) / 4)
  else if off < 0x2100 then .face ((off - 0x2000) / 4)
  else .device

/-- A write to a GUARD page (spec/17). A locked page 1 lets CONTAIN through (R82). -/
def guardWrite (st : Stamp) (k off v : Nat) : Upd :=
  if k == 1 then grantedPart st (.guard 1) off v (gdsWrite st (domAt off))
  else if k == 0 && off == 0x10C then elogCtrlWrite v
  else plainWrite st (.guard k) off v

/-- A write to a power-path channel page (spec/19). -/
def pwrWrite (st : Stamp) (c off v : Nat) : Upd :=
  match off with
  | 0x100 => pwrCfgWrite st c v
  | 0x108 => feedSelWrite st c v
  | 0x114 => uvovWrite st c v
  | _ => plainWrite st (.pwr c) off v

/-- A granted write of `v` to a register, upper-commit registers apart. -/
def regEffect (st : Stamp) (pg : Pg) (off : Nat) (tenant : Bool) (v : Nat) : Upd :=
  if pg.common && off < 0x100 then headerWrite st pg off v
  else match pg with
    | .glb =>
      if off == 0x10C then resetCtrlWrite v else if off == 0x114 then quietCtrlWrite st v else plainWrite st .glb off v
    | .mgmt k => mgmtWrite st k off v
    | .sec k => secWrite st k off v
    | .guard k => guardWrite st k off v
    | .lane n =>
      if off == 0x100 then octCfgWrite st n v else if off < 0x400 then plainWrite st (.lane n) off v else laneWrite st n off v
    | .pwrg => plainWrite st .pwrg off v
    | .pwr c => pwrWrite st c off v
    | .core k => coreWrite st k off v
    | .route k => routeWrite st k off v
    | .bridge k => bridgeWrite st k off v
    | .mbox k => mboxWrite st k off v
    | .port p => portWrite st p off v
    | .face f => faceWrite st f off v
    | .schedg => schedgWrite st off v
    | .sched p => schedWrite st p off v
    | .tenant i =>
      if off == 0x44 then when_ (v.testBit 0) (selfReset i)
      else when_ (0x800 ≤ off && i < 1024) (windowWrite st (.tenant (Fin.ofNat 1024 i)) (off - 0x800) v)
    | .inst k => instWrite st k off v
    | .moverg => plainWrite st .moverg off v
    | .eng e => if off == 0x100 then engCtrlWrite st e v else plainWrite st (.eng e) off v
    | .ring n => ringWrite st n off tenant v

/-! ### Upper-commit registers (R49) -/

/-- The low offset of the upper-commit register that the dword at `off` belongs to. -/
def upperOf (pg : Pg) (off : Nat) : Option Nat :=
  match pg with
  | .route 0 => if off == 0x108 || off == 0x10C then some 0x108 else none
  | .schedg => if off == 0x130 || off == 0x134 then some 0x130 else none
  | .sched _ => if off == 0x208 || off == 0x20C then some 0x208 else none
  | .mgmt 1 => if off == 0x108 || off == 0x10C then some 0x108 else none
  | .ring _ => if off == 0x08 || off == 0x0C then some 0x08 else if off == 0x18 || off == 0x1C then some 0x18 else none
  | _ => none

/-- Both dwords of an upper-commit register take effect. -/
def upperEffect (st : Stamp) (pg : Pg) (off hi lo : Nat) : Upd :=
  let both := all [plainWrite st pg off lo, plainWrite st pg (off + 4) hi]
  match pg with
  | .mgmt 1 => gatherBase st hi lo
  | .ring n => ringGuarded n true both
  | _ => both

/-- A write of a dword of an upper-commit register: the low one is held, the high one commits both. -/
def upperWrite (st : Stamp) (pg e : Pg) (low off v : Nat) (full : Bool) (ep : Bool := false) : Upd :=
  granting st pg <|
    if off == low then upperHold st pg low v full ep else upperCommit st pg e low full (upperEffect st pg low v) ep

/-- UPPER_COMMIT_WRITE. -/
def execUpperCommitWrite (st : Stamp) (a : SpaceAddr) (full : Bool) (hi : Word) : State → Answer := Upd.answer <| look fun s =>
  match s.spaceAt (a.toNat - a.toNat % 4) with
  | ⟨.reg pg off _, e⟩ => forSome (upperOf pg off) fun low => when_ (off != low) (upperWrite st pg e low off hi.toNat full)
  | _ => skip

/-! ### Writes (R43, R45 to R47, R53, R82, R610) -/

/-- The page whose lock judges a write of dword `k` of an access to `t`, where the write falls on no register: the page that
holds the offset (R41, R82); a reserved range and an empty BAR2 slot have none. -/
def holePage (t : Target) (k : Nat) : Option Pg :=
  match t with
  | .space a => pgAt (a.toNat - a.toNat % 4 + 4 * k)
  | .bar2 _ => none

/-- The page lock discards the write of dword `k` of an access to `t`, at place `x`. -/
def State.lockedOut (s : State) (t : Target) (k : Nat) (x : Place) : Bool :=
  match x.site with
  | .reg pg off _ => s.locked pg && lockMask pg off == 0
  | .nowhere => (holePage t k).any s.locked
  | .plate .. => false

/-- The place belongs to an upper-commit register, which judges its writes itself. -/
def Place.upper (x : Place) : Bool :=
  match x.site with
  | .reg pg off _ => (upperOf pg off).isSome
  | _ => false

/-- What the ACC bits say of the write of dword `k`, at place `x` (R41, R47, R82). -/
def State.accErrs (s : State) (t : Target) (k : Nat) (x : Place) (full : Bool) : List Err :=
  (if full then [] else [.ACC_PARTIAL]) ++ (if s.lockedOut t k x then [.ACC_LOCKED] else []) ++
    if x.site == .nowhere then [.ACC_UNMAPPED] else []

/-- A dword of a write reaches its place. -/
def placeWrite (st : Stamp) (x : Place) (full ep : Bool) (v : Nat) : Upd :=
  match x.site with
  | .reg pg off tenant =>
    (match upperOf pg off with
     | some low => upperWrite st pg x.err low off v full ep
     | none => granting st pg (regEffect st pg off tenant v))
  | .plate k i d => grantPlate st (if d == 3 then plateCommit st k i v else plateStage st k i d v)
  | .nowhere => skip

/-- The writes of the dwords of an access, low dword first (R45): each reaches its place, or is discarded; then its errors are
recorded, but for those of `told`, which the access has recorded before (R80: the access first, the error bits after it). `told`
is none until a rule of R53, or poison (R610), has discarded a dword; the requester is told at the end, once. -/
def dwordWrites (st : Stamp) (t : Target) (full ep : Bool) : List (Nat × Word) → List Err → Option (Pg × List Err) → Upd
  | [], _, told => forSome told fun (e, es) => tellDiscard st e es
  | (k, v) :: rest, seen, told => look fun s =>
    let x := s.placeOf st t k
    if x.upper then all [placeWrite st x full ep v.toNat, dwordWrites st t full ep rest seen told]
    else
      let errs := s.accErrs t k x full
      let tells := errs.filter (· != .ACC_UNMAPPED)
      all [when_ (errs.isEmpty && !ep) (placeWrite st x full ep v.toNat),
           when_ (errs.any fun e => !seen.contains e) <|
             raiseAll x.err ((errs.filter fun e => !seen.contains e).map fun e => { err := e }),
           dwordWrites st t full ep rest (seen ++ errs)
             (if ep then some (x.err, [])
              else if tells.isEmpty then told
              else some ((told.map (·.1)).getD x.err, (told.map (·.2)).getD [] ++ tells))]

/-- A write of a bad length covers high dwords of upper-commit registers: the low dwords held for them are discarded with the
write (R46, R49). -/
def dropUppers (st : Stamp) (t : Target) (n : Nat) : Upd :=
  forBelow (min n 1024) fun k => look fun s =>
    match (s.placeOf st t k).site with
    | .reg pg off _ => forSome (upperOf pg off) fun low => when_ (off != low) (upperDrop st pg low)
    | _ => skip

/-- A write of a bad length is discarded whole (R46). -/
def badWrite (st : Stamp) (t : Target) (n : Nat) (full : Bool) : Upd := look fun s =>
  let x := s.placeOf st t 0
  let errs := .ACC_LEN :: s.accErrs t 0 x full
  all [dropUppers st t n, raiseAll x.err (errs.map fun e => { err := e }),
       tellDiscard st x.err (errs.filter (· != .ACC_UNMAPPED))]

/-- A write of `n` dwords to `t`; `full` when every byte enable is set, `ep` when it is poisoned. -/
def accessWrite (st : Stamp) (t : Target) (n : Nat) (full ep : Bool) (lo hi : Word) : Upd := onPath st <|
  if n == 0 then skip
  else if badLength t n then badWrite st t n full
  else dwordWrites st t full ep (if n == 2 then [(0, lo), (1, hi)] else [(0, lo)]) [] none

/-- REGISTER_WRITE. -/
def execRegisterWrite (st : Stamp) (t : Target) (n : Nat) (full ep : Bool) (lo hi : Word) : State → Answer :=
  Upd.answer (accessWrite st t n full ep lo hi)

/-! ### What a register reads as -/

/-- The stored fields of the register at `off` of a page, for stamp `st`. -/
def State.stored? (s : State) (st : Stamp) (pg : Pg) (off : Nat) : Nat :=
  ((fieldsAt pg off).map fun (f, i) => match f.ty with
    | .wo | .rsv => 0
    | _ => (if f.perStamp then s.rdSt st.code pg f i else s.rd pg f i) <<< f.lo).sum

/-- BLK_CAP0 of a page: the block chapters. -/
def blkCap : Pg → Nat
  | .lane _ => 0x38
  | .port _ => 0x7
  | .face _ => 0x100
  | .core 0 => 0x30000
  | .route 0 => 0x80000
  | .bridge 0 => 0x40
  | .sched _ => 0x100
  | .inst 0 => 0x400
  | .moverg => 0x401000
  | _ => 0

/-- BLK_STAT.FAULT: a sticky bit of class FD or HALT is set. -/
def State.blkFault (s : State) (pg : Pg) : Bool :=
  (List.range 32).any fun b => (s.rd pg .ERR_STICKY_BITS).testBit b && 2 ≤ s.sevOf pg b

/-- The counter that CNT_SEL of a stamp selects; 0 for an index the block does not define (R70). -/
def State.selCnt (s : State) (st : Stamp) (pg : Pg) : Nat :=
  let i := s.rdSt st.code pg .CNT_SEL_INDEX
  if (windowCnt pg i).isSome then s.cnt pg i else 0

/-- A header register. -/
def State.headerValue (s : State) (st : Stamp) (pg : Pg) (off : Nat) : Nat :=
  let c := ctrlPage pg
  match off with
  | 0x00 => pg.block <<< 16 + pg.index
  | 0x08 => blkCap pg
  | 0x0C => 0
  | 0x10 => s.rd c .BLK_CTRL_SOFT_RESET <<< 2 + s.rd c .BLK_CTRL_QUIESCE <<< 1 + s.rd c .BLK_CTRL_ENABLE
  | 0x14 => b2n (s.blkFault c) <<< 2 + s.rd c .BLK_STAT_QUIESCED <<< 1 + s.rd c .BLK_STAT_READY
  | 0x28 => ((List.range 16).map fun k => s.sevOf pg k * 4 ^ k).sum
  | 0x2C => ((List.range 16).map fun k => s.sevOf pg (16 + k) * 4 ^ k).sum
  | 0x84 => s.selCnt st pg % 2 ^ 32
  | _ => s.stored? st pg off

/-- A window's registers as they read (Table MBOX-4). -/
def State.windowValue (s : State) (st : Stamp) (w : NWin) (off : Nat) : Nat :=
  let n := winCode w st
  let q := s.winQueue? st w
  if off < 0x10 then s.winReg n (off / 4)
  else if off == 0x10 then b2n (s.winPending n) <<< 31 + s.winReg n 5 <<< 28 + s.winReg n 4
  else if 0x20 ≤ off && off < 0x40 then (if q.isSome then s.heldDword st.code (heldCode w) ((off - 0x20) / 4) else 0)
  else if off == 0x40 then (q.map fun k => s.iv .qArm k <<< 31 + (s.fifo .notices k).length).getD 0
  else if off == 0x44 then ((s.epochOf? (s.winReg n 6)).map fun e => 1 <<< 31 + e).getD 0
  else if off == 0x48 then (match w with
    | .tenant v => s.rd (.inst 2) .INST_STAT_EPOCH v
    | .face f => s.iv .faceEpoch f
    | .page => match st with
      | .face f => s.iv .faceEpoch f
      | _ => s.iv .fwEpoch)
  else 0

/-- A ring's registers as they read: the entry that a stamp holds of its completion FIFO beside the stored ones. -/
def State.ringValue (s : State) (st : Stamp) (n off : Nat) : Nat :=
  if 0x30 ≤ off then s.heldDword st.code (fwCPL n) ((off - 0x30) / 4) else s.stored? st (.ring n) off

/-- A tenant page's registers as they read (R83, Table INST-8). VI_ID.FACE shows the binding as it is, also over an instance
reset, which keeps the binding (R501, R508) though the field's Kept-over column has no I (DEDUCED, log entry 191). -/
def State.tenantValue (s : State) (st : Stamp) (v off : Nat) : Nat :=
  let g := fun (f : Fld) => s.rd (.inst 2) f v
  match off with
  | 0x00 => (if s.bound? v then s.viFace v else 0) <<< 16 + v
  | 0x04 => g .INST_STAT_FENCED <<< 3 + g .INST_STAT_SUSPENDED <<< 2 + g .INST_STAT_RESETTING <<< 1 + g .INST_STAT_BOUND
  | 0x08 => g .INST_STAT_EPOCH
  | 0x40 => s.rd (.inst 3) .INST_VI_CFG_CFG0_PASID v
  | 0x44 => g .INST_STAT_RESETTING
  | 0x48 => s.rd (.inst 1) .INST_SHARE_SHARE v
  | 0x4C => s.rd (.inst 3) .INST_VI_CFG_CFG2_VEC_LOG2 v <<< 12 + s.rd (.inst 3) .INST_VI_CFG_CFG2_VEC_BASE v
  | _ => if 0x800 ≤ off then s.windowValue st (.tenant (Fin.ofNat 1024 v)) (off - 0x800) else 0

/-- PORT_CONTAIN as it reads: the containment of the port's domain. -/
def State.containValue (s : State) (p : Nat) : Nat :=
  let d := s.portDom p
  let x := s.domState d
  let on := x != gdNONE && x != gdQUIESCED
  let code := if x == gdNONE || x == gdQUIESCED then 0 else if x == gdENTERING then 1 else if x == gdRECOVERING then 3 else 2
  (if on then s.gds d .GDS_LANE_CLASS else 0) <<< 8 + (if on then s.gds d .GDS_LANE_BY_SW else 0) <<< 7 + code <<< 4

/-- The domains of a code that are not NONE (GUARD_SUMMARY). -/
def State.anyDom (s : State) (l : List Dom) : Bool := l.any fun d => s.domState d != gdNONE

/-- GUARD_SUMMARY. -/
def State.guardSummary (s : State) : Nat :=
  b2n s.safeHalt <<< 31 + b2n (s.anyDom ((List.range 192).map .lane)) + b2n (s.anyDom ((List.range 96).map .port)) <<< 1 +
    b2n (s.anyDom ((List.range 96).map .link ++ (List.range 64).map fun w => .link (0x100 + w))) <<< 2 +
    b2n (s.anyDom ((List.range 1024).map .inst)) <<< 3 + b2n (s.anyDom ((List.range 32).map .face)) <<< 4 +
    b2n (s.domState .device != gdNONE) <<< 5

/-- MGMT_FW_SLOT. -/
def State.fwSlotValue (s : State) : Nat :=
  s.rd .glb .GLB_DEV_STATE_FW_SLOT <<< 24 + s.iv .slotState 0 <<< 22 + s.iv .slotState 1 <<< 20 + s.iv .slotState 2 <<< 18 +
    s.iv .slotState 3 <<< 16 + (s.iv .slotTries 0 % 4) <<< 2 + s.iv .slotTries 1 % 4

/-- SEC_LOCK_MAP[k] as it reads: LOCKED of pages 32k to 32k + 31 (R643). -/
def State.lockMapValue (s : State) (k : Nat) : Nat :=
  ((List.range 32).map fun j => (match lockPage? (32 * k + j) with
    | some pg => s.rd pg .PAGE_LOCK_LOCKED
    | none => 0) <<< j).sum

/-- SEC_OWNER_STAT. -/
def State.ownerStat (s : State) : Nat :=
  b2n s.owned <<< 31 + s.iv .ownRec <<< 24 + (15 - s.iv .ownRec) <<< 20 +
    ((List.range 4).map fun k => b2n (s.ownerKey? k).isSome <<< k).sum

/-- A dword of the live entry of the multicast group that a stamp's CORE_MC_SEL names. -/
def State.mcValue (s : State) (st : Stamp) (d : Nat) : Nat :=
  let g := s.rdSt st.code (.core 0) .CORE_MC_SEL_GROUP
  if d == 3 then s.iv .mcCtl g else bits (s.iv .mcMembers g) (32 * d + 31) (32 * d)

/-- A register of the live entry of the policer that a stamp's SCHED_POL_SEL names. -/
def State.polValue (s : State) (st : Stamp) (r : Nat) : Nat :=
  let n := s.rdSt st.code .schedg .SCHED_POL_SEL_INDEX
  match r with
  | 0 => s.iv .polCtl n
  | 1 => s.iv .polCir n
  | 2 => s.iv .polPir n
  | 3 => s.cbs n
  | _ => s.pbs n

/-- A signed number of units of shaper credit as 32 bits of bytes, rounded down. -/
def creditBytes (c : Int) : Nat := ((c / creditUnit) % (2 ^ 32 : Nat)).toNat

/-- A register of SCHED page p. -/
def State.schedValue (s : State) (st : Stamp) (p off : Nat) : Nat :=
  if 0x180 ≤ off && off < 0x1A0 then
    creditBytes (if s.on (.sched p) .SCHED_CBS_SLOPE_EN ((off - 0x180) / 4) then s.shaperCredit p ((off - 0x180) / 4)
    else zag (s.iv .cbsCr (8 * p + (off - 0x180) / 4)))
  else if off == 0x210 then
    clearBits (s.stored? st (.sched p) off) (1 <<< 23 + 0xFF) + b2n s.fallback <<< 23 + s.gates p
  else if off == 0x21C then s.rdSt st.code (.sched p) .SCHED_HATCH_START_CYCLE_HI
  else s.stored? st (.sched p) off

/-- A register of the SCHED global page. -/
def State.schedgValue (s : State) (st : Stamp) (off : Nat) : Nat :=
  match off with
  | 0x110 => s.cycleNum % 2 ^ 32
  | 0x114 => s.rdSt st.code .schedg .SCHED_CYC_NUM_CYCLE_HI
  | 0x118 => s.phase
  | 0x120 => s.now % 2 ^ 32
  | 0x124 => s.rdSt st.code .schedg .SCHED_FAB_TIME_TIME_HI
  | _ => if 0x610 ≤ off && off < 0x624 then s.polValue st ((off - 0x610) / 4) else s.stored? st .schedg off

/-- A register of FACE page f. -/
def State.faceValue (s : State) (st : Stamp) (f off : Nat) : Nat :=
  if off == 0x100 then clearBits (s.stored? st (.face f) off) (1 <<< 30) + b2n (s.granted? f) <<< 30
  else if off == 0x110 then (s.slotsOf f true).length <<< 16 + (s.slotsOf f false).length
  else if 0x1000 ≤ off && off % 32 == 0 then
    clearBits (s.stored? st (.face f) off) 2 + b2n (s.winActive f ((off - 0x1000) / 32)) <<< 1
  else s.stored? st (.face f) off

/-- A register of CORE page k. -/
def State.coreValue (s : State) (st : Stamp) (k off : Nat) : Nat :=
  match k with
  | 0 =>
    if off == 0x108 then s.sPool
    else if off == 0x10C then s.sharedUsed
    else if off == 0x110 then (s.held.map (·.cells)).sum
    else if 0x128 ≤ off && off < 0x138 then s.mcValue st ((off - 0x128) / 4)
    else s.stored? st (.core 0) off
  | 1 =>
    if 0x4000 ≤ off then
      let i := (off - 0x4000) / 4
      ((s.held.filter fun x => x.ing == .port (i / 8) && x.frame.cls == i % 8).map (·.cells)).sum
    else s.stored? st (.core 1) off
  | _ => s.stored? st (.core k) off

/-- A register of a LANE page: the high dwords of the PRBS counters are latched (R69). -/
def State.laneValue (s : State) (st : Stamp) (n off : Nat) : Nat :=
  let j := (off - 0x400) / 0x80
  if off < 0x400 then s.stored? st (.lane n) off
  else match (off - 0x400) % 0x80 with
    | 0x18 => s.cnt (.lane n) (0x8000 + 2 * j) % 2 ^ 32
    | 0x1C => s.rdSt st.code (.lane n) .LANE_PRBS_ERR_HIGH j
    | 0x20 => s.cnt (.lane n) (0x8001 + 2 * j) % 2 ^ 32
    | 0x24 => s.rdSt st.code (.lane n) .LANE_PRBS_BITS_HIGH j
    | _ => s.stored? st (.lane n) off

/-- What the register at `off` of a page reads as for stamp `st`, without any side effect. Dword 0 of a FIFO window is here
dword 0 of the entry that the stamp holds, 0 with none: so it reads with partial byte enables, where R48 says only that nothing
is removed (DESIGN CHOICE, log entry 189). -/
def State.regValue (s : State) (st : Stamp) (pg : Pg) (off : Nat) : Nat :=
  if pg.common && off < 0x100 then s.headerValue st pg off
  else match pg with
    | .mgmt 0 =>
      if off == 0x100 then s.fwSlotValue
      else if off == 0x104 then clearBits (s.stored? st pg off) 0xFFFF + s.iv .fwEpoch % 65536
      else if off == 0x110 then s.thermThreshValue
      else s.stored? st pg off
    | .mgmt 2 =>
      if off == 0x110 then Config.ianaNumber.toNat else if off == 0x148 then s.gpioIn (s.stored? st pg off) else s.stored? st pg off
    | .sec 0 =>
      if off == 0x100 then s.ownerStat
      else if off == 0x140 then min 127 (s.arbAt 1) <<< 16 + min 63 (s.arbAt 0)
      else if 0x400 ≤ off then s.lockMapValue ((off - 0x400) / 4)
      else s.stored? st pg off
    | .guard 0 =>
      if off == 0x10C then (s.fifo .elog).length <<< 16 + s.rd pg .GUARD_ELOG_CTRL_LOST
      else if off == 0x110 then s.guardSummary
      else if 0x200 ≤ off then s.heldDword st.code fwELOG ((off - 0x200) / 4)
      else s.stored? st pg off
    | .lane n => s.laneValue st n off
    | .core k => s.coreValue st k off
    | .route 2 => s.heldDword st.code fwMISS ((off - 0x100) / 4)
    | .bridge 1 =>
      if off % 8 == 4 then
        s.stored? st pg off - s.stored? st pg off % 256 + min 255 (s.lockWaiters ((off - 0x104) / 8)).length
      else s.stored? st pg off
    | .bridge 4 => if off == 0x10C then s.proofCells else s.stored? st pg off
    | .mbox 0 => if 0x200 ≤ off then s.windowValue st .page (off - 0x200) else s.stored? st pg off
    | .mbox 1 =>
      if off % 8 == 4 then clearBits (s.stored? st pg off) (1 <<< 31) + b2n (s.qOpen ((off - 0x104) / 8)) <<< 31 else s.stored? st pg off
    | .mbox 3 => if off < 0x500 then s.semOwner ((off - 0x100) / 4) else s.stored? st pg off
    | .port p => if off == 0x110 then s.containValue p else s.stored? st pg off
    | .face f => s.faceValue st f off
    | .schedg => s.schedgValue st off
    | .sched p => s.schedValue st p off
    | .tenant v => s.tenantValue st v off
    | .eng e =>
      if off == 0x104 then
        s.rd pg .MOVER_ENG_STAT_FAULTED <<< 31 + ceilDiv (s.engBuffer e) 64 <<< 16 + (s.engDescs e).length <<< 9 + s.engReads e
      else s.stored? st pg off
    | .ring n => s.ringValue st n off
    | _ => s.stored? st pg off

/-! ### Reads (R45 to R48, R68 to R75) -/

/-- The FIFO that a stamp's read of the dword at `off` of a page pops: its window's number, its queue and index. -/
def fifoAt (pg : Pg) (off : Nat) : Option (Nat × Fifo × Nat) :=
  match pg with
  | .guard 0 => if off == 0x200 then some (fwELOG, .elog, 0) else none
  | .route 2 => if off == 0x100 then some (fwMISS, .missLog, 0) else none
  | .ring n => if off == 0x30 then some (fwCPL n, .cplFifo, n) else none
  | _ => none

/-- The notice window and its offset at an offset of a page. -/
def windowAt (pg : Pg) (off : Nat) : Option (NWin × Nat) :=
  match pg with
  | .tenant v => if 0x800 ≤ off then some (.tenant (Fin.ofNat 1024 v), off - 0x800) else none
  | .mbox 0 => if 0x200 ≤ off then some (.page, off - 0x200) else none
  | _ => none

/-- What a full read of the dword at `off` latches for its stamp: the page's field, the entry, and the value (R68, R69). -/
def State.latchAt (s : State) (st : Stamp) (pg : Pg) (off : Nat) : Option (Fld × Nat × Nat) :=
  match pg with
  | .lane n =>
    let j := (off - 0x400) / 0x80
    if 0x400 ≤ off && (off - 0x400) % 0x80 == 0x18 then some (.LANE_PRBS_ERR_HIGH, j, bits (s.cnt (.lane n) (0x8000 + 2 * j)) 47 32)
    else if 0x400 ≤ off && (off - 0x400) % 0x80 == 0x20 then some (.LANE_PRBS_BITS_HIGH, j, bits (s.cnt (.lane n) (0x8001 + 2 * j)) 47 32)
    else if off == 0x84 then some (.CNT_HI_HIGH, 0, bits (s.selCnt st pg) 47 32) else none
  | .schedg =>
    if off == 0x110 then some (.SCHED_CYC_NUM_CYCLE_HI, 0, bits s.cycleNum 47 32)
    else if off == 0x120 then some (.SCHED_FAB_TIME_TIME_HI, 0, bits s.now 63 32)
    else if off == 0x84 then some (.CNT_HI_HIGH, 0, bits (s.selCnt st pg) 47 32) else none
  | .sched p =>
    if off == 0x218 then some (.SCHED_HATCH_START_CYCLE_HI, 0, s.rd (.sched p) .SCHED_HATCH_START_CYCLE_HI)
    else if off == 0x84 then some (.CNT_HI_HIGH, 0, bits (s.selCnt st pg) 47 32) else none
  | _ => if pg.common && off == 0x84 then some (.CNT_HI_HIGH, 0, bits (s.selCnt st pg) 47 32) else none

/-- A read of CNT_LO of an index that the block does not define changes nothing (R70). -/
def State.latchWorks (s : State) (st : Stamp) (pg : Pg) (off : Nat) : Bool :=
  off != 0x84 || (windowCnt pg (s.rdSt st.code pg .CNT_SEL_INDEX)).isSome

/-- A read's effect before its value is taken: a FIFO gives its next entry to the stamp (R75). -/
def popAt (st : Stamp) (pg : Pg) (off : Nat) : Upd :=
  match windowAt pg off with
  | some (w, 0x20) => noticePop st w
  | _ => forSome (fifoAt pg off) fun (w, q, i) => popFifo st.code w q i

/-- A read's effect after its value is taken: latches, AUTO_INC (R68), RC fields (R43). -/
def afterRead (st : Stamp) (pg : Pg) (off : Nat) : Upd := look fun s =>
  all [when_ (s.latchWorks st pg off) (forSome (s.latchAt st pg off) fun (f, i, v) => wrSt st.code pg f v i),
       when_ (pg.common && off == 0x88 && s.rdSt st.code pg .CNT_SEL_AUTO_INC == 1)
         (wrSt st.code pg .CNT_SEL_INDEX (s.rdSt st.code pg .CNT_SEL_INDEX + 1)),
       forEach ((fieldsAt pg off).filter fun fi => fi.1.ty == .rc) fun fi => wr pg fi.1 0 fi.2]

/-- A granted read of the register at `off` of a page: its value goes to the requester, and with every byte enable set the read's
side effects happen (R48). -/
def regRead (st : Stamp) (pg : Pg) (off : Nat) (full : Bool) : Upd :=
  let sem : Bool := (match pg with
    | .mbox 3 => 0x100 ≤ off && off < 0x500
    | _ => false)
  granting st pg <|
    if sem && full then semAcquire st ((off - 0x100) / 4)
    else all [when_ full (popAt st pg off), look fun s => emit (.value st (s.regValue st pg off)), when_ full (afterRead st pg off)]

/-- A read of one place. Every dword of a plate entry reads as it is stored. -/
def placeRead (st : Stamp) (x : Place) (full : Bool) : Upd :=
  match x.site with
  | .reg pg off _ => regRead st pg off full
  | .plate k i d => look fun s => grantPlate st (emit (.value st (dword (s.entry k i) d)))
  | .nowhere => all [raise x.err .ACC_UNMAPPED, emit (.value st 0)]

/-- A read of `n` dwords from `t`. -/
def accessRead (st : Stamp) (t : Target) (n : Nat) (full : Bool) : Upd := onPath st <| look fun s =>
  if badLength t n then all [raise (s.placeOf st t 0).err .ACC_LEN, emit (.ca st)]
  else forBelow n fun k => look fun u => placeRead st (u.placeOf st t k) full

/-- UNMAPPED_READ. -/
def execUnmappedRead (st : Stamp) (t : Target) : State → Answer := Upd.answer <| look fun s =>
  when_ ((s.placeOf st t 0).site == .nowhere) (onPath st (placeRead st (s.placeOf st t 0) true))

/-- BAD_LENGTH_READ. -/
def execBadLengthRead (st : Stamp) (t : Target) (n : Nat) : State → Answer := Upd.answer <|
  when_ (badLength t n) (accessRead st t n true)

/-- COUNTER_LOW_READ. -/
def execCounterLowRead (st : Stamp) (pg : Pg) (full : Bool) : State → Answer := Upd.answer <|
  when_ (pg.ok && pg.common) (regRead st pg 0x84 full)

/-- The page and offset of a directly mapped counter's low dword (R69). -/
def directAt : DirectCnt → Pg × Nat
  | .prbsErr l => (.lane (l / 8), 0x418 + 0x80 * (l % 8))
  | .prbsBits l => (.lane (l / 8), 0x420 + 0x80 * (l % 8))
  | .cycNum => (.schedg, 0x110)
  | .fabTime => (.schedg, 0x120)
  | .hatchStart p => (.sched p, 0x218)

/-- DIRECT_COUNTER_READ. -/
def execDirectCounterRead (st : Stamp) (c : DirectCnt) (full : Bool) : State → Answer := Upd.answer <|
  regRead st (directAt c).1 (directAt c).2 full

/-- READ_CLEAR: PWR_TELEM holds the part's one RC field, IPEAK. -/
def execReadClear (st : Stamp) (c : ChanId) (full : Bool) : State → Answer := Upd.answer <| regRead st (.pwr c) 0x128 full

/-- The page and offset of dword 0 of a FIFO's window. -/
def fifoReg : FifoWin → Pg × Nat
  | .elog => (.guard 0, 0x200)
  | .missLog => (.route 2, 0x100)
  | .cpl n => (.ring n, 0x30)

/-- FIFO_POP. -/
def execFifoPop (st : Stamp) (w : FifoWin) (full : Bool) : State → Answer := Upd.answer <|
  regRead st (fifoReg w).1 (fifoReg w).2 full

/-! ### BAR0 and BAR2 (R52, R273, R297) -/

/-- The service endpoint of face `f` answers memory requests (R297). -/
def State.seAwake (s : State) (f : Nat) : Bool :=
  s.rd (.face f) .FACE_PM_STAT_SE_D == 0 && s.rd (.face f) .FACE_PM_STAT_USP_D == 0

/-- The pages that BAR0 shows in ROM_RECOVERY (Table BOOT-12). -/
def romShows (a : Nat) : Bool :=
  match pgAt a with
  | some .glb | some (.mgmt 0) | some (.sec 0) => true
  | _ => false

/-- A memory request of face `f` to its BAR0: without the grant it is completed with Unsupported Request. -/
def bar0 (f : FaceId) (write : Bool) (off : SpaceAddr) (n : Nat) (full ep : Bool) (lo hi : Word) : Upd := look fun s =>
  let no := when_ (!write) (emit (.ur f))
  if !s.seAwake f then no
  else if !s.granted? f then all [raise (.face f) .FACE_BAR0_NO_GRANT, no]
  else if s.device == dvROM_RECOVERY && !romShows off.toNat then
    all [raise .glb .ACC_UNMAPPED, when_ (!write) (forBelow (min n 2) fun _ => emit (.value (.face f) 0))]
  else if write then accessWrite (.face f) (.space off) n full ep lo hi
  else accessRead (.face f) (.space off) n full

/-- BAR0_REQUEST. -/
def execBar0Request (f : FaceId) (write : Bool) (off : SpaceAddr) (n : Nat) (full ep : Bool) (lo hi : Word) : State → Answer :=
  Upd.answer (bar0 f write off n full ep lo hi)

/-- A memory request of face `f` to its BAR2. -/
def bar2 (f : FaceId) (write : Bool) (off : BitVec 22) (n : Nat) (full ep : Bool) (lo hi : Word) : Upd := look fun s =>
  if !s.seAwake f then when_ (!write) (emit (.ur f))
  else if write then accessWrite (.face f) (.bar2 off) n full ep lo hi
  else accessRead (.face f) (.bar2 off) n full

end Sys2Proof.Machine
end

