-- ==== Sys2Proof/Machine/HostReq.lean ====
section
/-! DEFINITION. Memory requests of the hosts (spec/07 R272 to R280, spec/01 R30 to R32, spec/15 R551 to R558): service endpoint
BARs, both lookup stages, prefetch, locked reads, and admission under a pool tag. -/

namespace Sys2Proof.Machine

/-! ### Service endpoint BARs (R272) -/

/-- The base of the service endpoint's BAR `k` of 2^`n` bytes. -/
def State.seBase (s : State) (f k n : Nat) : Nat :=
  let a := s.iv .seBar (8 * f + k) + s.iv .seBar (8 * f + k + 1) <<< 32
  a - a % 2 ^ n

/-- The BARs of Table FACE-3: number and log2 of the size. -/
def seBars : List (Nat × Nat) := [(0, 26), (2, 22), (4, 16)]

/-- The service endpoint decodes memory requests: Memory Space Enable is set in it, in the USP and in VDP0. -/
def State.seDecodes (s : State) (f : Nat) : Bool := s.ivOn .seMse f && s.ivOn .mse (4096 * f) && s.ivOn .mse (4096 * f + 1)

/-- The BAR in which the whole of a request lies, and its offset there. -/
def State.seHit? (s : State) (f a len : Nat) : Option (Nat × Nat) :=
  (seBars.find? fun (k, n) => s.seDecodes f && s.seBase f k n ≤ a && a + max 1 len ≤ s.seBase f k n + 2 ^ n).map fun (k, n) =>
    (k, a - s.seBase f k n)

/-- A request that touches a BAR of the service endpoint. -/
def State.seTouched (s : State) (f a len : Nat) : Bool :=
  seBars.any fun (k, n) => s.seDecodes f && s.seBase f k n < a + max 1 len && a < s.seBase f k n + 2 ^ n

/-- A dword of BAR4 (R276): a table entry, or 32 bits of the PBA. -/
def State.bar4Dword (s : State) (f off : Nat) : Nat :=
  let i := 2048 * f + off / 16
  if s.bar4Empty f then 0 else if off < 0x8000 then match off % 16 / 4 with
    | 0 => s.iv .msixAddr i % 2 ^ 32
    | 1 => s.iv .msixAddr i / 2 ^ 32
    | 2 => s.iv .msixData i
    | _ => 1 - min 1 (s.iv .msixOpen i)
  else if off < 0x8100 then
    ((List.range 32).map fun b => b2n (s.ivOn .msixPend (2048 * f + (off - 0x8000) / 4 * 32 + b)) <<< b).sum
  else 0

/-- A memory request to BAR `k` of the service endpoint: BAR0 and BAR2 go to the register fabric, BAR4 to the MSI-X table. The
service endpoint completes no AtomicOp. -/
def seAccess (f : FaceId) (k off : Nat) (t : Tlp) : Upd := look fun s =>
  let n := ceilDiv (off % 4 + t.len) 4
  let full := off % 4 == 0 && t.len % 4 == 0 && 0 < t.len
  let wr := t.kind == .memWr
  let lo := t.words.getD 0 0
  let hi := t.words.getD 1 0
  if t.kind == .atomic then emit (.ur f)
  else if k == 0 then bar0 f wr (BitVec.ofNat 26 (off - off % 4)) n full t.ep lo hi
  else if k == 2 then bar2 f wr (BitVec.ofNat 22 (off - off % 4)) n full t.ep lo hi
  else if !s.seAwake f then when_ (!wr) (emit (.ur f))
  else if !wr then forBelow n fun j => look fun u => emit (.value (.face f) (u.bar4Dword f (off - off % 4 + 4 * j)))
  else when_ (full && !t.ep) (forEach t.words.zipIdx fun (v, j) => msixWrite f (off + 4 * j) v.toNat)

/-! ### Lookup (R359, R362, R376) -/

/-- A request of the host of face `f` misses: a non-posted one is completed with Unsupported Request. -/
def hostMiss (f : Nat) (t : Tlp) (cause addr : Nat) : Upd := look fun s =>
  let req := ({ s.inner 0 0 0 0 (.tlp t) with src := 0 } : Frame).reqCode
  let src := (s.faceFeid? f).getD 0
  all [when_ (missNO_WINDOW ≤ cause) countIngress, miss ⟨cause, s.live, s.facePort f, req, src, addr, .dom (.face f), some f⟩,
       when_ t.nonPosted (selfCpl (s.facePort f) .ur t.rid.toNat t.tag.toNat)]

/-- Both stages for a request of the host of face `f`: what they select and the fabric address, or the cause of the miss and the
address its record gives. A locked read needs READ and WRITE (R556). -/
def State.hostLookup (s : State) (f : Nat) (t : Tlp) : Except (Nat × Nat) (Sel × Nat) :=
  match s.translate f t.addr.toNat t.len with
  | none => .error (missFACE_MISS, t.addr.toNat)
  | some fab =>
    if 2 ^ 56 ≤ fab then .error (missADDR_HIGH, fab)
    else match (s.faceFeid? f).bind (s.idRoute? s.live) with
      | none => .error (missNO_SOURCE, fab)
      | some r =>
        match s.stage2 r.part (if t.kind == .memRd && t.locked then .atomic else t.kind) fab t.len with
        | .error c => .error (c, s.missAddr c fab)
        | .ok x => .ok (x, fab)

/-- The frame of a host's request, wrapped for the destination that both stages give. -/
def State.hostFrame (s : State) (f : Nat) (t : Tlp) (x : Sel) : Frame :=
  { s.inner x.dest x.cls 0 t.bytes (.tlp { t with addr := BitVec.ofNat 64 x.addr }) with
    src := (s.faceFeid? f).getD 0, retain := x.retain, mc := x.group.isSome, group := x.group.getD 0,
    lock := (t.kind == .memRd && t.locked) || s.iv .lockDest f == 1 + x.dest }

/-- A poisoned TLP that CORE forwards is counted (R608). -/
def poisonSeen (t : Tlp) : Upd := when_ t.ep (all [bump (.guard 0) 12, raise (.guard 0) .GUARD_POISON_FWD])

/-- Members of a group for a frame: DOWN ports that R609 closes to it are left out. -/
def State.openMembers (s : State) (g : Frame) (k : Nat) (ing : Ing) : List Dst :=
  (s.members k ing).filter fun d => (match d with
    | .port q => !s.poisonStops q g
    | .self => true)

/-- A frame goes to the members of its group (R340, R341). -/
def toMembers (ing : Ing) (g : Frame) (k : Nat) (tailIn : Bool) : Upd := look fun s =>
  let ds := s.openMembers g k ing
  if s.groupValid k then all [when_ (ds.length < (s.members k ing).length) poisonDrop, offer ing g ds none tailIn]
  else raise (.core 0) .CORE_MC_INVALID

/-- A frame of the ingress edge goes to its group's members, or to its destination. -/
def toDest (ing : Ing) (g : Frame) (group : Option Nat) (tailIn : Bool) : Upd :=
  match group with
  | none => deliver ing g none tailIn
  | some k => all [countIngress, toMembers ing g k tailIn]

/-- A TLP that a contained UP port does not pass into CORE (Table PORT-10): GUARD answers it as R601 does. -/
def fencedAnswer (p : Nat) (t : Tlp) : Upd := look fun s =>
  if t.nonPosted then all [bump (.guard 0) 9, selfCpl p s.synth t.rid.toNat t.tag.toNat]
  else when_ (t.kind != .cpl) (bump (.guard 0) 10)

/-! ### Admission under a tag (R31, R32) -/

/-- A request of the host of face `f` waits before admission: for a tag, or for the end of QUIESCE. -/
def holdForTag (f : Nat) (g : Frame) : Upd := look fun s =>
  let p := s.facePort f
  all [put .pktId (s.iv .pktId + 1), modWaiting (· ++ [⟨.tag f, { s.pkt (.port p) g [] none true with copies := [] }⟩])]

/-- A new request of the host of face `f` is held back: QUIESCE stops new work (R54), and nothing passes a posted request that it
has stopped. -/
def State.faceHolds (s : State) (f : Nat) : Bool :=
  s.on (.face f) .BLK_CTRL_QUIESCE || s.waiting.any fun w => w.why == .tag f && !w.pkt.frame.isNp

/-- Admission of a host's request: a non-posted one takes an ADMIT tag, which replaces the host's, and is held without one. `more`
is what an admission brings beside it, given its tag. `own` is the frame to keep while it waits. -/
def hostAdmit (f : Nat) (t : Tlp) (own g : Frame) (group : Option Nat) (extra : Nat) (opens tailIn : Bool) (more : Nat → Upd) :
    Upd := look fun s =>
  let p := s.facePort f
  if s.ivOn .portFenced p then fencedAnswer p t
  else if s.faceHolds f then holdForTag f own
  else if !t.nonPosted then all [bump (.face f) 0, poisonSeen t, more 0, toDest (.port p) g group tailIn]
  else match s.freeTag? f false false with
    | none => holdForTag f own
    | some k =>
      let h := { g with tag := k, tagEp := s.tagEpoch f false k, tagValid := true, body := (match g.body with
        | .tlp u => .tlp { u with tag := BitVec.ofNat 14 k }
        | b => b) }
      all [takeSlot ⟨f, false, k, slBUSY, .host, opens, t.rid.toNat, t.tag.toNat, 0, false, g.dest, false, extra, false⟩,
           bump (.face f) 0, bump (.face f) 1, poisonSeen t, more k, toDest (.port p) h group tailIn]

/-! ### Prefetch (R551, R552) -/

/-- A read of face `f` that an entry answers: the host gets its bytes, and nothing goes to the fabric. -/
def prefAnswer (f : Nat) (t : Tlp) (fab : Nat) (e : Pref) : Upd := look fun s =>
  let size := sizeOf (s.iv .uspMps f)
  let data := (e.got.drop (fab - e.base)).take t.len
  all [prefUse e,
       forEach (cplCuts size (fab % 128) (t.len / 64 + 1) 0 t.len) fun (off, n) =>
         tlpSend (s.facePort f) none (s.cplFrame e.dest ((s.faceFeid? f).getD 0) 0 false
           { Tlp.answer .sc t.rid.toNat t.tag.toNat 0 with
             addr := BitVec.ofNat 64 (t.len - off), len := n, low := BitVec.ofNat 7 (fab + off),
             words := packWords (fab + off) ((data.drop off).take n) })]

/-- The read is one that BRIDGE may prefetch for. -/
def State.prefetches (s : State) (t : Tlp) (x : Sel) : Bool :=
  s.on (.bridge 0) .BRIDGE_PF_CTRL_EN && t.kind == .memRd && !t.locked && x.prefetch

/-! ### Locked reads (R556 to R558) -/

/-- FEIDs `m` and `n` are behind the same port as far as this switch knows: for FEIDs of another switch, that switch decides. -/
def State.samePort (s : State) (m n : Nat) : Bool :=
  match s.idRoute? s.live m, s.idRoute? s.live n with
  | some a, some b => a.isLocal == b.isLocal && a.sw == b.sw && (!a.isLocal || a.port == b.port)
  | _, _ => false

/-- A locked read that is completed with Unsupported Request: its destination is no device below a DOWN port, or its requester
holds a lock on another port, which sets LOCK_UR. -/
def State.lockRefusal (s : State) (f dest : Nat) : Option Upd :=
  let d := s.iv .lockDest f
  match s.idRoute? s.live dest with
  | none => some skip
  | some r =>
    if r.kind != kindDevice then some skip
    else if (d != 0 && !s.samePort (d - 1) dest) || (r.isLocal && s.locksElsewhere ((s.faceFeid? f).getD 0) r.port) then
      some (raise (.bridge 0) .BRIDGE_LOCK_UR)
    else none

/-! ### A memory request of a host -/

/-- A request that both stages have passed. -/
def hostForward (f : Nat) (t : Tlp) (x : Sel) (fab : Nat) (tailIn : Bool) : Upd := look fun s =>
  let own := { s.inner 0 0 0 t.bytes (.tlp t) with src := (s.faceFeid? f).getD 0 }
  let lock := t.kind == .memRd && t.locked
  let opens := lock && s.iv .lockDest f == 0
  let n := if s.prefetches t x then s.prefExtra fab t.len else 0
  let hit := if s.prefetches t x then s.prefHit? f fab t.len else none
  let u := { t with len := t.len + n }
  let refused := if lock then s.lockRefusal f x.dest else none
  match refused, hit with
  | some e, _ => all [e, selfCpl (s.facePort f) .ur t.rid.toNat t.tag.toNat]
  | none, some e =>
    if s.faceHolds f || (s.freeTag? f false false).isNone then holdForTag f own
    else all [bump (.face f) 0, bump (.face f) 1, prefAnswer f t fab e]
  | none, none =>
    hostAdmit f t own (s.hostFrame f u x) x.group n opens tailIn fun k =>
      all [when_ (t.kind == .memWr || t.kind == .atomic) (prefWrite f fab t.len),
           when_ (0 < n) (prefNew ⟨f, fab + t.len, n, x.dest, k, s.now, [], false⟩),
           when_ opens (put .lockDest (1 + x.dest) f)]

/-- A memory request of the host of face `f`: its service endpoint's BARs first, then both stages, then admission. -/
def hostMemory (f : FaceId) (t : Tlp) (tailIn : Bool) : Upd := look fun s =>
  let a := t.addr.toNat
  let mem := t.kind == .memRd || t.kind == .memWr || t.kind == .atomic
  when_ (mem && s.faceLive f) <|
    match s.seHit? f a t.len with
    | some (k, off) => seAccess f k off t
    | none =>
      if s.seTouched f a t.len then hostMiss f t missFACE_MISS a
      else match s.hostLookup f t with
        | .error (c, addr) => hostMiss f t c addr
        | .ok (x, fab) => hostForward f t x fab tailIn

/-- HOST_MEMORY_REQUEST. -/
def execHostMemoryRequest (f : FaceId) (t : Tlp) : State → Answer := Upd.answer (hostMemory f t true)

/-- LOCKED_READ. -/
def execLockedRead (f : FaceId) (t : Tlp) : State → Answer := Upd.answer <| when_ (t.kind == .memRd && t.locked) (hostMemory f t true)

/-- HELD_REQUEST_ADMIT: a tag of the pool is free, or QUIESCE has ended. The oldest request held for the host of face `f` that
may go is admitted: a memory request is decoded now, a configuration request goes where it was routed. Engines with rings of the
face go on with theirs. -/
def execHeldRequestAdmit (f : FaceId) : State → Answer := Upd.answer <| look fun s =>
  let held := s.waiting.filter fun w => w.why == .tag f.val
  let mine := held.find? fun w => !w.pkt.frame.isNp || (s.freeTag? f false false).isSome
  all [when_ (!s.on (.face f) .BLK_CTRL_QUIESCE) <| forSome mine fun w =>
         all [modWaiting fun l => l.filter fun y => y.why != .tag f.val,
              (match w.pkt.frame.body with
               | .tlp t =>
                 if t.kind == .cfgRd || t.kind == .cfgWr then hostAdmit f t w.pkt.frame w.pkt.frame none 0 false true fun _ => skip
                 else hostMemory f t true
               | _ => skip),
              modWaiting (· ++ held.filter fun y => y.pkt.id != w.pkt.id)],
       forBelow 64 fun e => when_ ((s.engRings e).any fun n => s.ringFace n == f.val) (pump e)]

end Sys2Proof.Machine
end

