-- ==== Sys2Proof/Machine/CfgReq.lean ====
section
/-! DEFINITION. Configuration requests of the hosts (spec/07 R265 to R267, R287, R292, R293, R297, spec/09 R373 to R375, spec/16
"Word mailboxes"): the composed hierarchy and its emulated registers. Where a rule names a standard register, its fields lie where
PCI Express Base Specification 6.x puts them. -/

namespace Sys2Proof.Machine

/-! ### What a request addresses (Table FACE-2) -/

/-- An element of the composed hierarchy: a virtual bridge by its number, the service endpoint, a function of a presented device
with the bus offset within its entry, or nothing. -/
inductive Elem where
  | bridge (b : Nat) | service | device (n fn delta : Nat) | none
deriving DecidableEq, Repr

/-- Bridge `b` of face `f` forwards the bus: it lies within the range that the host has assigned. -/
def State.forwards (s : State) (f b bus : Nat) : Bool :=
  let sec := s.iv .secBus (4096 * f + b)
  sec != 0 && sec ≤ bus && bus ≤ s.iv .subBus (4096 * f + b)

/-- A bus is the secondary bus of a bridge. -/
def State.secIs (s : State) (f b bus : Nat) : Bool := s.iv .secBus (4096 * f + b) == bus

/-- The valid entry at a position of the composed view. -/
def State.presAt (s : State) (f k sub : Nat) : Option Nat :=
  firstBelow 255 fun n => s.presValid f n && !s.on (.face f) .FACE_PRES_CONFLICT n && s.presVdp f n == k && s.presSub f n == sub

/-- A VDP holds a branch. -/
def State.branchAt (s : State) (f k : Nat) : Bool :=
  (List.range 255).any fun n => s.presValid f n && !s.on (.face f) .FACE_PRES_CONFLICT n && s.presVdp f n == k && s.presSub f n != 0

/-- The function of the device shown at a position, for a bus at or below the secondary bus of the bridge above it. -/
def State.deviceAt (s : State) (f k sub b bus dev fn : Nat) : Elem :=
  let delta := bus - s.iv .secBus (4096 * f + b)
  match s.presAt f k sub with
  | some n => if s.presShown f n && delta < max 1 (s.rd (.face f) .FACE_PRES_BUSES n) then .device n (256 * delta + 8 * dev + fn) delta
    else .none
  | none => .none

/-- The element below VDP `k` that a request addresses. -/
def State.belowVdp (s : State) (f k bus dev fn : Nat) : Elem :=
  let first := dev == 0 && fn == 0
  if k == 0 then (if s.secIs f 1 bus && first then .service else .none)
  else if !s.branchAt f k then s.deviceAt f k 0 (1 + k) bus dev fn
  else if s.secIs f (1 + k) bus then (if first then .bridge (64 + k) else .none)
  else if !s.forwards f (64 + k) bus then .none
  else if s.secIs f (64 + k) bus then
    (if fn == 0 && (s.presAt f k (dev + 1)).isSome then .bridge (128 + 32 * k + dev) else .none)
  else match firstBelow 32 fun j => s.forwards f (128 + 32 * k + j) bus with
    | some j => s.deviceAt f k (j + 1) (128 + 32 * k + j) bus dev fn
    | none => .none

/-- The element that a configuration request addresses (R265 to R267). -/
def State.elemOf (s : State) (f : Nat) (c : CfgReq) : Elem :=
  let bus := c.bus.toNat
  if !c.typ1 then (if c.dev.val == 0 && c.fn.val == 0 then .bridge 0 else .none)
  else if !s.forwards f 0 bus then .none
  else if s.secIs f 0 bus then (if c.fn.val == 0 then .bridge (1 + c.dev) else .none)
  else match firstBelow 32 fun k => s.forwards f (1 + k) bus with
    | some k => s.belowVdp f k bus c.dev c.fn
    | none => .none

/-! ### Answers -/

/-- A completion without data. -/
def cfgAnswer (f : Nat) (c : CfgReq) (stat : CplStat) : Upd := look fun s =>
  selfCpl (s.facePort f) stat c.rid.toNat c.tag.toNat

/-- A completion with data. -/
def cfgData (f : Nat) (c : CfgReq) (v : Nat) : Upd := look fun s =>
  onWire (s.facePort f) c.rid.toNat 0 (.cfgCpl f c.rid.toNat c.tag.toNat v)

/-- A completion with data in which only the bits of `mask` are stated; the others are free. -/
def cfgPart (f : Nat) (c : CfgReq) (mask v : Nat) : Upd := drawWord fun w => cfgData f c (clearBits w mask + (v &&& mask))

/-! ### Virtual bridges -/

/-- The face may write the configuration space of a function with ID route `r` (R374). -/
def State.mayConfigure (s : State) (f : Nat) (r : IdRoute) : Bool :=
  r.cfgAny || ((s.faceFeid? f).bind (s.idRoute? s.live)).map (·.part) == some r.cfgPart

/-- A downstream bridge with a slot: VDP1 to VDP31 and the branch ports (Table FACE-2). -/
def hasSlot (b : Nat) : Bool := (2 ≤ b && b < 64) || 128 ≤ b

/-- The DOWN ports of this switch whose devices stand below bridge `b` of face `f` and which the face may configure (R374). -/
def State.portsBelow (s : State) (f b : Nat) : List Nat :=
  ((allBelow 255 fun n => s.presShown f n && (s.bridgesAbove f n).contains b).filterMap fun n =>
    (s.idRoute? s.live (s.presFeid f n)).bind fun r =>
      if r.isLocal && r.kind == kindDevice && s.role r.port == roleDOWN && s.mayConfigure f r then some r.port else none).eraseDups

/-- Secondary Bus Reset or Link Disable of a bridge is set or cleared: the DOWN ports below send a hot reset, or disable their
links, and train again afterwards (Table PORT-3). A port that GUARD holds stays as it is. -/
def portsDown (f b to_ : Nat) (was now : Bool) : Upd := look fun s =>
  when_ (was != now) <| forEach (s.portsBelow f b) fun p =>
    when_ (!s.linkHeld p && (if now then s.inService p else s.link p == to_)) <|
      all [linkTo p (if now then to_ else s.restState p)]

/-- The bits of a virtual bridge's register that rules give: their mask and value. -/
def State.bridgeBits (s : State) (f b : Nat) (r : CfgReg) : Nat × Nat :=
  let i := 4096 * f + b
  match r with
  | .command => (6, s.iv .mse i <<< 1 + s.iv .bme i <<< 2)
  | .header => (0x7F0000, 1 <<< 16)
  | .buses => (0xFFFFFF, s.iv .priBus i + s.iv .secBus i <<< 8 + s.iv .subBus i <<< 16)
  | .memWindow => (0xFFF0FFF0, s.iv .memWin i)
  | .prefWindow => (0xFFFFFFFF, s.iv .prefWin i + 0x10001)
  | .prefBase => (0xFFFFFFFF, s.iv .prefBase i)
  | .prefLimit => (0xFFFFFFFF, s.iv .prefLimit i)
  | .bridgeControl => (1 <<< 22, s.iv .bridgeCtl i <<< 16)
  | .slot => if hasSlot b then (0x1481FFF, s.iv .slotCtl i + s.iv .slotStat i <<< 16) else (0, 0)
  | .deviceControl => if b == 0 then (0xE0, s.iv .uspMps f <<< 5) else (0, 0)
  | .linkControl => (0x13, s.iv .aspm i + s.iv .linkDis i <<< 4)
  | .pmcsr => (3, if b == 0 then s.rd (.face f) .FACE_PM_STAT_USP_D else 3 * s.iv .bridgeD3 i)
  | .ptmControl => if b == 0 then (1, s.iv .ptmEnable f) else (0, 0)
  | _ => (0, 0)

/-- A BUSY REQ slot of a presented device's request. -/
def Slot.ofDevice (x : Slot) (f : Nat) : Bool :=
  x.face == f && x.req && (match x.who with
    | .device _ => true
    | _ => false)

/-- A write of `v` to a virtual bridge's register. -/
def bridgeCfgWrite (f b : Nat) (r : CfgReg) (v : Nat) : Upd :=
  let i := 4096 * f + b
  match r with
  | .command =>
    all [put .mse (bits v 1 1) i, put .bme (bits v 2 2) i, when_ (b == 0 && !v.testBit 2) (abandon fun x => x.ofDevice f)]
  | .buses => all [put .priBus (bits v 7 0) i, put .secBus (bits v 15 8) i, put .subBus (bits v 23 16) i]
  | .memWindow => put .memWin (v &&& 0xFFF0FFF0) i
  | .prefWindow => put .prefWin (v &&& 0xFFF0FFF0) i
  | .prefBase => put .prefBase v i
  | .prefLimit => put .prefLimit v i
  | .bridgeControl => look fun s =>
    all [put .bridgeCtl (v >>> 16) i, portsDown f b lsHOTRESET ((s.iv .bridgeCtl i).testBit 6) (v.testBit 22)]
  | .slot => look fun s => when_ (hasSlot b) (slotRegsSet f b (v % 8192) (clearBits (s.iv .slotStat i) ((v >>> 16) &&& 0x108)))
  | .deviceControl => when_ (b == 0) (put .uspMps (bits v 7 5) f)
  | .linkControl => look fun s =>
    all [put .aspm (v % 4) i, when_ (b != 0) (all [put .linkDis (bits v 4 4) i,
           portsDown f b lsDISABLED (s.ivOn .linkDis i) (v.testBit 4)])]
  | .pmcsr => when_ (v % 4 == 0 || v % 4 == 3) <|
      if b == 0 then wr (.face f) .FACE_PM_STAT_USP_D (v % 4) else put .bridgeD3 (v % 4 / 3) i
  | .ptmControl => when_ (b == 0) (all [put .ptmEnable (v % 2) f, when_ (v % 2 == 0) (put .ptmCount 0 f)])
  | _ => skip

/-! ### The service endpoint -/

/-- The bits of a BAR dword of the service endpoint that the host sets, and its type bits (Table FACE-3). -/
def seBarMask (k : Nat) : Nat :=
  match k with
  | 0 => 0xFC000000
  | 2 => 0xFFC00000
  | 4 => 0xFFFF0000
  | _ => 0xFFFFFFFF
def seBarType (k : Nat) : Nat := if k % 2 == 0 then 4 else 0

/-- FACE_TAG_CTRL.REQ_WIDTH for the tag enables (R287). -/
def tagWidth (enables : Nat) : Nat := if enables.testBit 1 then 2 else if enables.testBit 0 then 1 else 0

/-- The register of MBOX page 2 that a dword of the mailbox capability's word mailboxes shows. -/
def capWord (f off : Nat) : Nat := 0x100 + 8 * (2 * f + off / 8) + off % 8 / 4 * 4

/-- The bits of a register of the service endpoint that rules give. -/
def State.seBits (s : State) (f : Nat) (r : CfgReg) : Nat × Nat :=
  let pm := fun (x : Fld) => s.rd (.face f) x
  match r with
  | .command => (6, s.iv .seMse f <<< 1 + s.iv .seBusMaster f <<< 2)
  | .bar k => (2 ^ 32 - 1, s.iv .seBar (8 * f + k) + seBarType k)
  | .deviceControl => (0x70E0, s.iv .seMps f <<< 5 + (s.iv .seMrrs f ^^^ 2) <<< 12)
  | .deviceControl2 => (2 ^ 12, bits (s.iv .seTags f) 0 0 <<< 12)
  | .deviceControl3 => (4, bits (s.iv .seTags f) 1 1 <<< 2)
  | .pmcsr => (0x8103, pm .FACE_PM_STAT_SE_D + pm .FACE_PM_STAT_PME_EN <<< 8 + pm .FACE_PM_STAT_PME_STATUS <<< 15)
  | .header => (0x7F0000, 0)
  | .msix => (0xC7FF0000, s.iv .msixEnable f <<< 31 + s.iv .msixFnMask f <<< 30 + 2047 <<< 16)
  | .msixTable => (2 ^ 32 - 1, 4)
  | .msixPba => (2 ^ 32 - 1, 0x8004)
  | .pasid => (2 ^ 16, s.iv .sePasid f <<< 16)
  | _ => (0, 0)

/-- Requests of the face that waited for its service endpoint go on. -/
def seResumes (f : Nat) : Upd := look fun s =>
  all [msixFlush f, forBelow 64 fun e => when_ ((s.engRings e).any fun n => s.ringFace n == f) (pump e)]

/-- The tag enables change. -/
def seTagWrite (f enables : Nat) : Upd :=
  all [put .seTags enables f, wr (.face f) .FACE_TAG_CTRL_REQ_WIDTH (tagWidth enables)]

/-- A write of `v` to a register of the service endpoint. -/
def seCfgWrite (f : FaceId) (r : CfgReg) (v : Nat) : Upd := look fun s =>
  let tags := s.iv .seTags f
  match r with
  | .command =>
    all [put .seMse (bits v 1 1) f, if v.testBit 2 then all [put .seBusMaster 1 f, seResumes f] else seMasterOff f]
  | .bar k => put .seBar (v &&& seBarMask k) (8 * f + k)
  | .deviceControl =>
    all [put .seMps (bits v 7 5) f, put .seMrrs (bits v 14 12 ^^^ 2) f, when_ (v.testBit 15) (flrStart f)]
  | .deviceControl2 => seTagWrite f (clearBits tags 1 + bits v 12 12)
  | .deviceControl3 => seTagWrite f (clearBits tags 2 + 2 * bits v 2 2)
  | .pmcsr =>
    all [when_ (v % 4 == 0 || v % 4 == 3) (wr (.face f) .FACE_PM_STAT_SE_D (v % 4)), wr (.face f) .FACE_PM_STAT_PME_EN (bits v 8 8),
         when_ (v.testBit 15) (wr (.face f) .FACE_PM_STAT_PME_STATUS 0), when_ (v % 4 == 0) (seResumes f)]
  | .msix => all [put .msixEnable (bits v 31 31) f, put .msixFnMask (bits v 30 30) f, msixFlush f]
  | .pasid => all [put .sePasid (bits v 16 16) f, seResumes f]
  | .window off => all [grant (.face f) (.mbox 0), windowWrite (.face f) (.face f) off v]
  | .word off => granted (.face f) (.mbox 2) (capWord f off) (regEffect (.face f) (.mbox 2) (capWord f off) false v)
  | _ => skip

/-- A read of a register of the service endpoint. What lies behind the mailbox capability is reached through the arbiter (R26).
A notice is taken from the face's queue at its first dword (R75). -/
def seCfgRead (f : FaceId) (c : CfgReq) : Upd :=
  match c.reg with
  | .window off =>
    all [grant (.face f) (.mbox 0), when_ (off.val == 0x20) (noticePop (.face f) (.face f)),
         look fun s => cfgData f c (s.windowValue (.face f) (.face f) off)]
  | .word off => all [grant (.face f) (.mbox 2), look fun s => cfgData f c (s.regValue (.face f) (.mbox 2) (capWord f off))]
  | r => look fun s => cfgPart f c (s.seBits f r).1 (s.seBits f r).2

/-! ### Presented functions (R373 to R375) -/

/-- The face's copy of BAR dword `k` as a read sees it: the host's bits above the BAR's size, and the type bits (R721). -/
def State.presBarValue (s : State) (f n fn k : Nat) : Nat :=
  let at_ := fun j => 8 * (4096 * (256 * f + n) + fn) + j
  let info := fun j => s.iv .presInfo (at_ j)
  let above := fun (v size : Nat) => v - v % 2 ^ size
  if 0 < k && (info (k - 1)).testBit 6 then above (s.iv .presBar (at_ k)) (info (k - 1) % 64 - 32)
  else if info k == 0 then 0
  else above (s.iv .presBar (at_ k)) (min 32 (info k % 64)) + 4 * bits (info k) 6 6 + 8 * bits (info k) 7 7

/-- The register is one that the face keeps a copy of. -/
def keepsCopy : CfgReg → Bool
  | .command | .bar _ | .romBar => true
  | _ => false

/-- A request to a register that the face keeps a copy of. -/
def copyAccess (f n fn : Nat) (c : CfgReq) : Upd := look fun s =>
  let i := 4096 * (256 * f + n) + fn
  match c.write with
  | some v =>
    all [(match c.reg with
          | .command => put .presCmd (v.toNat % 65536) i
          | .bar k => presBarWrite f n fn k v.toNat
          | _ => put .presRom v.toNat i),
         cfgAnswer f c .sc]
  | none => match c.reg with
    | .command => cfgPart f c 0xFFFF (s.iv .presCmd i)
    | .bar k => cfgData f c (s.presBarValue f n fn k)
    | _ => cfgData f c (s.iv .presRom i)

/-- The TLP that goes to the device: the bus is the one the device uses at its DOWN port (R266). -/
def cfgTlp (c : CfgReq) (rid delta : Nat) : Tlp :=
  { kind := if c.write.isSome then .cfgWr else .cfgRd, hdr := 12,
    addr := BitVec.ofNat 64 ((rid / 256 + delta) % 256 * 2 ^ 20 + c.dev * 2 ^ 15 + c.fn * 2 ^ 12 + c.off.toNat),
    len := if c.write.isSome then 4 else 0, rid := c.rid, tag := c.tag, ep := false, ro := false, ido := false,
    locked := false, stat := .sc, cid := 0, low := 0,
    words := c.write.toList }

/-- A request to a presented function: answered from the copy, absorbed, or forwarded to the device's FEID (R363). -/
def deviceAccess (f n fn delta : Nat) (c : CfgReq) : Upd := look fun s =>
  let feid := s.presFeid f n
  let r : Option IdRoute := s.idRoute? s.live feid
  let src := (s.faceFeid? f).getD 0
  let absorbed := c.write.isSome && (match r with
    | some x => !s.mayConfigure f x
    | none => false)
  if keepsCopy c.reg then copyAccess f n fn c
  else if absorbed then
    drawWord fun w =>
      all [miss ⟨missCFG_ABSORBED, s.live, s.facePort f, 4, src, w, .dom (.face f), some f⟩, cfgAnswer f c .sc]
  else
    let t := cfgTlp c ((r.map (·.rid)).getD 0) delta
    let g := { s.inner feid ((r.map (·.cls)).getD 0) 0 t.bytes (.tlp t) with src := src, retain := (r.map (·.retain)).getD false }
    hostAdmit f t g g none 0 false true fun _ => skip

/-! ### A configuration request -/

/-- CONFIG_REQUEST: Retry Status while the face is in RETRY; a request that no element takes is completed with Unsupported
Request. -/
def execConfigRequest (f : FaceId) (c : CfgReq) : State → Answer := Upd.answer <| look fun s =>
  when_ (s.faceLive f) <|
    if s.rd (.face f) .FACE_BIND_STATE == fcRETRY then cfgAnswer f c .crs
    else match s.elemOf f c, c.write with
      | .none, _ => cfgAnswer f c .ur
      | .bridge b, some v => all [bridgeCfgWrite f b c.reg v.toNat, cfgAnswer f c .sc]
      | .bridge b, none => cfgPart f c (s.bridgeBits f b c.reg).1 (s.bridgeBits f b c.reg).2
      | .service, some v => all [seCfgWrite f c.reg v.toNat, cfgAnswer f c .sc]
      | .service, none => seCfgRead f c
      | .device n fn delta, _ => deviceAccess f n fn delta c

end Sys2Proof.Machine
end

