-- ==== Sys2Proof/Machine/Arrive.lean ====
section
/-! DEFINITION. Heads and tails of frames (Table CORE-1, Table CORE-3, Table FABRIC-3, spec/09 R359 to R364, spec/17 R608 to R610,
spec/18 R648 and R650). -/

namespace Sys2Proof.Machine

/-! ### TLPs from PCI Express ports -/

/-- The cells of credit that a TLP consumes (R328). -/
def tlpCells (t : Tlp) : Nat := 1 + ceilDiv (ceilDiv (t.bytes - t.hdr) 16) 16

/-- A TLP consumes its credits at the port. -/
def takeCredits (p : Nat) (t : Tlp) : Upd := look fun s =>
  let i := crIdx p 0 t.pool
  put .crUsed (s.iv .crUsed i + tlpCells t) i

/-- The buses of the devices that have an ID route at port `p`. -/
def State.portBuses (s : State) (p : Nat) : List Nat :=
  (s.idRoutes s.live).filterMap fun r =>
    if r.2.kind == kindDevice && r.2.isLocal && r.2.port == p then some (r.2.rid / 256) else none

/-- R258 (Table PORT-9): the requester ID lies outside the port's bus range, when its routes give one. -/
def State.ridSpoofed (s : State) (p rid : Nat) : Bool :=
  match (s.portBuses p).min?, (s.portBuses p).max? with
  | some lo, some hi => rid / 256 < lo || hi < rid / 256
  | _, _ => false

/-- A request from below port `p` is not forwarded: a non-posted one is completed with Unsupported Request. -/
def deviceUr (p : Nat) (t : Tlp) : Upd := when_ t.nonPosted (selfCpl p .ur t.rid.toNat t.tag.toNat)

/-- A request from below port `p` misses. -/
def deviceMiss (p : Nat) (t : Tlp) (cause src addr : Nat) : Upd := look fun s =>
  let req := ({ s.inner 0 0 0 0 (.tlp t) with src := 0 } : Frame).reqCode
  all [when_ (missNO_WINDOW ≤ cause) countIngress, miss ⟨cause, s.live, p, req, src, addr, .dom (s.portDom p), none⟩, deviceUr p t]

/-- The frame of a device's request, under the device's own tag. -/
def State.deviceFrame (s : State) (n : Nat) (t : Tlp) (x : Sel) : Frame :=
  { s.inner x.dest x.cls 0 t.bytes (.tlp { t with addr := BitVec.ofNat 64 x.addr }) with
    src := n, retain := x.retain, mc := x.group.isSome, group := x.group.getD 0, tag := if t.nonPosted then t.tag.toNat else 0,
    tagValid := t.nonPosted }

/-- A memory request of a device below DOWN port `p` (R360, R362). -/
def deviceMemory (p : Nat) (t : Tlp) : Upd := look fun s =>
  match s.deviceFeid? p t.rid.toNat with
  | none => deviceMiss p t missNO_SOURCE 0 t.addr.toNat
  | some (n, r) =>
    let fab := r.space * 2 ^ 48 + t.addr.toNat
    if 2 ^ 48 ≤ t.addr.toNat then deviceMiss p t missADDR_HIGH n t.addr.toNat
    else match s.stage2 r.part t.kind fab t.len with
      | .error c => deviceMiss p t c n (s.missAddr c fab)
      | .ok x => all [poisonSeen t, toDest (.port p) (s.deviceFrame n t x) x.group false]

/-- The Message Codes of ERR_COR, ERR_NONFATAL and ERR_FATAL (PRESUMED, PCI Express Base Specification 6.x; log entry 186). -/
def errMessage (code : Nat) : Bool := code == 0x30 || code == 0x31 || code == 0x33

/-- An error message of a device below DOWN port `p` is reported to the faces of this switch that show it and may configure it,
as it was sent (Table GUARD-5). Other messages of devices have no destination. -/
def deviceMessage (p : Nat) (t : Tlp) : Upd := look fun s =>
  let code := t.addr.toNat % 256
  when_ (errMessage code) <| forSome (s.deviceFeid? p t.rid.toNat) fun (n, r) =>
    forEach (((s.showers n).map (·.1)).eraseDups.filter fun f => s.mayConfigure f r) fun f => emit (.aer f (.device n) (.asSent code))

/-- A TLP from below DOWN port `p` is malformed: the record names its source (R628). -/
def malformed (p n : Nat) : Upd := look fun s =>
  raiseAll (.port p) [{ err := .PORT_MALFORMED, dom := some (.dom (s.portDom p)), detail0 := n % 8192 }]

/-- A TLP from below DOWN port `p`. A locked read is malformed (R556); a forged requester ID is refused; configuration requests
are not for a device to make. -/
def deviceHead (p : Nat) (t : Tlp) : Upd := look fun s =>
  match t.kind with
  | .cpl => all [poisonSeen t, downCompletes p t.tag.toNat t]
  | k =>
    if k == .memRd && t.locked then malformed p (((s.deviceFeid? p t.rid.toNat).map (·.1)).getD 0)
    else if s.ridSpoofed p t.rid.toNat then all [raiseIn (.port p) .PORT_RID_SPOOF (s.portDom p), deviceUr p t]
    else if k == .cfgRd || k == .cfgWr then deviceUr p t
    else if k == .msg then deviceMessage p t
    else deviceMemory p t

/-- A TLP from the host of face `f`. A completion meets its slot (R290). Configuration requests and messages have commands of their
own. -/
def hostHead (f : FaceId) (t : Tlp) : Upd := look fun s =>
  match t.kind with
  | .cpl => if s.ivOn .portFenced (s.facePort f) then skip else all [poisonSeen t, faceCompletes f true true t.tag.toNat false t]
  | .msg | .cfgRd | .cfgWr => skip
  | _ => hostMemory f t false

/-- The kinds of TLP that R648 holds back. -/
def ideKind : TlpKind → Bool
  | .memRd | .memWr | .atomic | .cpl => true
  | _ => false

/-- A TLP arrives at UP or DOWN port `p`. One beyond the credits granted is discarded, as R228 does with a frame (Table PORT-9;
DEDUCED, log entry 183). -/
def tlpHead (p : PortId) (t : Tlp) : Upd := look fun s =>
  when_ (!s.isFab p && s.carries p) <|
    all [wr (.port p) .PORT_LINK_STAT_STATE lsL0, linkPm p,
         if s.outstanding p 0 t.pool < tlpCells t then raise (.port p) .PORT_CREDIT_OVERFLOW
         else all [bump (.port p) 0, addCnt (.port p) 1 t.bytes, takeCredits p t,
         if s.ideBars p && ideKind t.kind then all [ideDrop p, deviceUr p t]
         else if s.role p == roleDOWN then deviceHead p t
         else forSome (s.faceOf p) fun f => hostHead (Fin.ofNat 32 f) t]]

/-! ### Frames from FAB ports (Table FABRIC-3) -/

/-- A lossless frame without retention is discarded (R619, R620). -/
def fabLost (pool : Nat) (f : Frame) : Upd := look fun s =>
  when_ (!f.retain && !s.lossy f.cls && pool != poolCTL && f.typ != 4 && !f.linkLocal) (unretainedLoss 1)

/-- Row 2 of Table FABRIC-3. -/
def State.frameBad (s : State) (lf : LinkFrame) : Bool :=
  let f := lf.frame
  let isLocal := ((s.idRoute? (f.parity % 2) f.dest).map (·.isLocal)).getD false
  5 < f.typ || (f.cls != lf.cls && lf.pool != poolCTL) || f.len != lf.len ||
    ((f.typ == 3 || f.typ == 5) && !f.mc && !f.linkLocal && isLocal && f.dest != s.selfFeid)

/-- A frame from FAB port `p` misses: it is discarded. -/
def fabMiss (p : Nat) (lf : LinkFrame) (cause : Nat) (dom : ReqDom) : Upd :=
  let f := lf.frame
  all [miss ⟨cause, f.parity % 2, p, f.reqCode, f.src, f.dest, dom, none⟩, fabLost lf.pool f]

/-- A poisoned TLP in a frame is counted (R608). -/
def poisonIn (f : Frame) : Upd :=
  match f.body with
  | .tlp t => poisonSeen t
  | _ => skip

/-- HOPS ran out before a FAB port (row 3). -/
def hopExpired (p : Nat) : Upd := all [bump (.bridge 4) 12, raiseIn (.bridge 4) .FAB_HOP_EXPIRED (.link p)]

/-- A multicast frame goes to its members; copies that would leave on a FAB port need HOPS. -/
def fabMulticast (p : Nat) (lf : LinkFrame) : Upd := look fun s =>
  let f := lf.frame
  let onFab := fun (d : Dst) => (match d with
    | .port q => s.isFab q
    | .self => false)
  let all_ := s.openMembers f f.group (.port p)
  let ds := all_.filter fun d => !(f.hops == 0 && onFab d)
  if !s.groupValid f.group then all [bump (.core 0) 3075, raise (.core 0) .CORE_MC_INVALID]
  else all [poisonIn f, when_ (ds.length < all_.length) (hopExpired p), offer (.port p) f ds none false]

/-- A frame that is not multicast: its egress, or the part itself for one that is answered or consumed here once its tail has
been checked. In transit an unreachable destination is answered at once. -/
def fabUnicast (p : Nat) (lf : LinkFrame) : Upd := look fun s =>
  let f := lf.frame
  let k := f.parity % 2
  match s.idRoute? k f.dest, s.wayTo k f.dest (some p) with
  | some r, some d =>
    if r.isLocal then
      let here := f.void || f.unlocks || (s.refusal f d).isSome
      all [poisonIn f, offer (.port p) f [if here then .self else d] none false]
    else if f.hops == 0 then all [hopExpired p, fabLost lf.pool f]
    else if s.unreachable f.dest then answerUnreachable f
    else all [poisonIn f, offer (.port p) f [d] none false]
  | _, _ => fabMiss p lf missNO_ROUTE (.feid f.src)

/-- Row 4: the plate the frame's parity names, the check of its source, and the route (R364, R388). -/
def fabRoute (p : Nat) (lf : LinkFrame) : Upd := look fun s =>
  let f := lf.frame
  let k := f.parity % 2
  if !s.plateUsable k then fabMiss p lf missSTALE_PARITY (.feid f.src)
  else
    all [countTransit k,
      if ((s.idRoute? k f.src).map (·.isLocal)).getD false then fabMiss p lf missSRC_SPOOF (.dom (.link p))
      else if f.mc then fabMulticast p lf
      else fabUnicast p lf]

/-- A frame arrives at FAB port `p`. -/
def fabHead (p : PortId) (lf : LinkFrame) : Upd := look fun s =>
  let f := lf.frame
  when_ (s.linkRuns p) <|
    if s.link p == lsPROVISIONAL && lf.pool != poolCTL && f.typ != 3 && f.typ != 4 then
      raiseIn (.bridge 4) .FAB_PROV_DISCARD (.link p)
    else if f.hcrc != f.hcrcOf then all [bump (.bridge 4) 10, raiseIn (.bridge 4) .FAB_HCRC (.link p), fabLost lf.pool f]
    else if s.frameBad lf then all [raiseIn (.bridge 4) .FAB_FRAME_BAD (.link p), fabLost lf.pool f]
    else if f.linkLocal || f.typ == 4 then emit (.selfOut f)
    else fabRoute p lf

/-- HEAD_ARRIVAL. A frame from inside the part enters at step 2 with its tail. -/
def execHeadArrival (a : Arrival) : State → Answer := Upd.answer <|
  match a with
  | .fab p lf => fabHead p lf
  | .tlp p t => tlpHead p t
  | .inner src f => all [toDest src f (if f.mc then some f.group else none) true, settleVeps]

/-! ### Tails (R314, R317 to R320, R423, R609) -/

/-- The frame `id`, in the buffer or waiting for admission. -/
def State.frameOf (s : State) (id : Nat) : Option Pkt := s.held.find? fun k => k.id == id

/-- The frame leaves the switch without having turned bad; a copy in progress is stomped. -/
def dropFrame (k : Pkt) : Upd :=
  all [if k.left then turnBad k.id
       else all [modBuf fun b => b.filter fun j => j.id != k.id, modWaiting fun l => l.filter fun w => w.pkt.id != k.id, coreWatch],
       sendSamples k.id]

/-- A frame turns bad at its tail: one that still waits is discarded and counted. -/
def badFrame (k : Pkt) : Upd := look fun s =>
  if s.waiting.any fun w => w.pkt.id == k.id then
    all [modWaiting fun l => l.filter fun w => w.pkt.id != k.id, bump (.core 0) 3075, coreWatch, sendSamples k.id]
  else all [turnBad k.id, sendSamples k.id]

/-- The tail of frame `id` is in; at its ingress edge its proof is valid (R320, R418). -/
def tailIn (k : Pkt) : Upd := look fun s =>
  let x := s.tx k.frame.stream
  all [modBuf fun b => b.map fun j => if j.id == k.id then { j with tailIn := true } else j,
       modWaiting fun l => l.map fun w => if w.pkt.id == k.id then { w with pkt := { w.pkt with tailIn := true } } else w,
       when_ (s.hasProof k) <|
         putTx k.frame.stream { x with proofs := x.proofs.map fun p => if p.seq == k.frame.seq then { p with valid := true } else p },
       sendSamples k.id]

/-- A frame for the part itself has come whole: a void one delivers nothing, an Unlock ends the locks of its host, one for an
endpoint is answered as R601 and the others say, or goes on when nothing stands against it any more; every other is handed to its
unit. Ethernet frames wait for their VEP. -/
def settleSelf (k : Pkt) : Upd := look fun s =>
  let f := k.frame
  let kind := ((s.idRoute? (f.parity % 2) f.dest).map (·.kind)).getD kindInternal
  let d := s.wayTo (f.parity % 2) f.dest none
  when_ (k.copies.any fun c => c.dst == .self) <|
    if f.void then dropFrame k
    else if f.unlocks then all [dropFrame k, locksOf f.src]
    else if kind == kindDevice || kind == kindFace then
      all [dropFrame k, forSome d fun d => match s.refusal f d with
        | some u => u
        | none => offer k.ing f [d] none true]
    else if k.isEth then settleVeps
    else when_ (s.buf.any fun j => j.id == k.id) <|
      all [emit (.selfOut f),
           modBuf fun b => (b.map fun (j : Pkt) => if j.id == k.id then j.without .self else j).filter fun j => !j.copies.isEmpty, coreWatch]

/-- What a bad frame's cause does beside the frame (Table CORE-3). -/
def badCause (k : Pkt) (c : TailChecks) : Upd := look fun s =>
  match k.ing with
  | .port p =>
    all [when_ (!c.ideOk) (ideFail p),
         when_ (!c.lengthOk) (malformed p k.frame.src),
         when_ (s.isFab p && !c.e2eOk) (all [bump (.bridge 4) 11, raiseIn (.bridge 4) .FAB_E2E_CRC (.link p), fabLost k.pool k.frame]),
         when_ (s.isFab p && c.badFlag) (bump (.core 0) 3076)]
  | _ => skip

/-- TAIL_ARRIVAL. A retained frame that comes good to its egress edge is deduplicated first (R423); a void frame there delivers
nothing (R720). -/
def execTailArrival (id : Nat) (c : TailChecks) : State → Answer := Upd.answer <| look fun s =>
  forSome (s.frameOf id) fun k =>
    when_ (!k.tailIn) <|
      let fab := s.fromFab k.ing
      let good := c.linkOk && c.lengthOk && (if fab then c.e2eOk && !c.badFlag else c.ideOk)
      let edge := fab && k.frame.retain && !k.frame.mc && some k.frame.egrSw == s.selfSw
      let deliver_ := look fun t => forSome (t.frameOf id) settleSelf
      let resent := when_ (s.hasProof k) (resendGoesOn k.frame.stream k.frame.seq)
      if !good then all [badFrame k, badCause k c, resent]
      else if edge then all [tailIn k, dedup k.frame deliver_ (look fun t => forSome (t.frameOf id) dropFrame)]
      else all [tailIn k, deliver_, resent]

end Sys2Proof.Machine
end

