-- ==== Sys2Proof/Machine/Apply.lean ====
section
/-! DEFINITION. Applying a configuration image (spec/04 R138, R142, R145 to R150, spec/12 R480 and R481, spec/18 R640 to R642 and
R645). -/

namespace Sys2Proof.Machine

/-- The image that is being applied is refused (R138, R147, R148). -/
def imageRefused (code : Nat) : Upd := look fun s => cfgFails (s.iv .cfgSel + 1) code

/-! ### Register records (R146, R148) -/

/-- A SEC page. -/
def isSec : Pg → Bool
  | .sec _ => true
  | _ => false

/-- R148 refuses a record with address `a`. -/
def recordRefused (a : Nat) : Bool :=
  a % 4 != 0 || inPlateWindow a || match pgAt a with
  | none => true
  | some pg =>
    let off := a - pg.base
    pg == .glb || isSec pg || (pg == .route 0 && 0x104 ≤ off && off ≤ 0x10C) || (match pg with
      | .sched _ => off == 0x200
      | _ => false)

/-- One record is applied, as a write of firmware. -/
def recordApply (a v : Nat) : Upd := accessWrite .fw0 (.space (BitVec.ofNat 26 a)) 1 true false (word v) 0

/-- The records of a section in their order; the first that is refused refuses the image. -/
def recordsApply : List (Nat × Nat) → Upd
  | [] => skip
  | (a, v) :: rest => if recordRefused a then imageRefused 8 else all [recordApply a v, recordsApply rest]

/-- The ports that the records of a PORTS section have enabled. -/
def notePorts : Upd := look fun s => forBelow 96 fun p => when_ (s.role p != 0) (put .cfgPorts 1 p)

/-! ### Plates (R147, R149, R150) -/

/-- The entries of the runs of a PLATE section, with their indexes. -/
def runEntries (runs : List (Nat × List Nat)) : List (Nat × Nat) :=
  runs.flatMap fun (first, es) => es.zipIdx.map fun (e, i) => (first + i, e)

/-- A PLATE section for plate `k` (R149): the first of the image zeroes both plates. Under R150 it is skipped. A run past the last
entry is refused like the forms that R147 lists (DESIGN CHOICE, log entry 195). -/
def plateApply (k : Nat) (live : Bool) (runs : List (Nat × List Nat)) : Upd := look fun s =>
  let met := s.iv .cfgPlates
  let es := runEntries runs
  if 2 ≤ k || met.testBit k || (live && met.testBit 2) || es.any (fun e => 524288 ≤ e.1) then imageRefused 8
  else
    all [put .cfgPlates (setBit (if live then setBit met 2 else met) k),
         when_ (!s.ivOn .cfgKeep) <|
           all [when_ (met == 0) platesEmpty,
                forEach es fun (i, e) => put .plate e (k * 524288 + i),
                look fun t => wr (.route 0) .ROUTE_GEN_GENERATION (dword (t.entry k 0) 1) k,
                when_ live <|
                  all [wr (.route 0) .ROUTE_LIVE_SEL_LIVE k, wr (.route 0) (plateStateFld k) plLIVE,
                       wr (.route 0) (plateStateFld (1 - k)) plDRAFT, wr (.route 0) (plateVerFld 0) 1, wr (.route 0) (plateVerFld 1) 1]]]

/-! ### Hatch lists (R142, R147, R480, R481) -/

/-- GATES, PHASE and the reserved bits of a hatch entry. -/
def entryGates (e : Nat) : Nat := bits e 31 24
def entryPhase (e : Nat) : Nat := bits e 19 0
def entryRsv (e : Nat) : Nat := bits e 23 20 + bits e 63 32

/-- The PHASE values ascend strictly. -/
def ascending : List Nat → Bool
  | a :: b :: r => a < b && ascending (b :: r)
  | _ => true

/-- R147 accepts the entries of a hatch list. -/
def hatchOk (es : List Nat) : Bool :=
  1 ≤ es.length && es.length ≤ 256 && (es.head?.map entryPhase) == some 0 && ascending (es.map entryPhase) &&
    es.all fun e => entryRsv e == 0

/-- The loader arms list `l` of port `p` for the first boundary after lock: list A before list B. -/
def loaderArms (p l : Nat) : Upd := look fun s =>
  when_ (l == 0 || (s.hatchPending p).isNone) <|
    all [hatchUnpend p, wr (.sched p) (hatchStateFld l) hlPENDING, wr (.sched p) .SCHED_HATCH_CTRL_ARM 1,
         wr (.sched p) .SCHED_HATCH_CTRL_STATUS hsARMED, put .hatchAt hatchAtLock p]

/-- A HATCH section. -/
def hatchApply (p l : Nat) (es : List Nat) : Upd := look fun s =>
  let pg := Pg.sched p
  if 96 ≤ p || !s.ivOn .cfgPorts p || !hatchOk es then imageRefused 8
  else
    all [forEach es.zipIdx fun (e, i) =>
           all [wr pg (hatchGatesFld l) (entryGates e) i, wr pg (hatchRsvFld l) 0 i, wr pg (hatchPhaseFld l) (entryPhase e) i,
                wr pg (hatchDw1Fld l) 0 i],
         wr pg (hatchCountFld l) es.length, wr pg (hatchVerFld l) 1, wr pg .SCHED_HATCH_GEN_GENERATION 0 l, loaderArms p l]

/-! ### Owner policy (R640 to R642) -/

/-- The POLICY section is applied: page locks, grant, and what its flags and port masks bring into force. -/
def policyApply (x : PolicyImg) : Upd :=
  all [put .encRequired (b2n (x.flags.testBit 0)), put .arbAuto (b2n (x.flags.testBit 1)),
       wr (.sec 0) .SEC_DEBUG_DENY (b2n (x.flags.testBit 2)), put .rejectDebug (b2n (x.flags.testBit 3)),
       forBelow 96 fun p => all [wr (.sec 1) .SEC_IDE_STAT_REQUIRED (b2n (x.ideRequired.testBit p)) p,
                                  put .ideDown (b2n (x.ideDown.testBit p)) p],
       forBelow 4 fun k => put .devRoot (x.devRoot.getD k 0) k,
       forBelow 32 fun k => lockMapWrite k (bits x.lock (32 * k + 31) (32 * k)),
       setGrant x.grant]

/-! ### Sections in the order of R146 -/

/-- The contents of a section are applied. -/
def sectionApply : Section → Upd
  | .ports rs => all [recordsApply rs, notePorts]
  | .regs rs => recordsApply rs
  | .plate k live runs => plateApply k live runs
  | .hatch p l es => hatchApply p (b2n l) es
  | .policy x => policyApply x

/-- The table entry of the section that is applied next. -/
def State.nextSection? (s : State) : Option Nat :=
  ((sectionOrder ((List.range (s.iv .cfgCount)).map fun i => entryType (s.iv .cfgTable i)))[s.iv .cfgDone]?).map (s.iv .cfgTable ·)

/-- CONFIG_SECTION_APPLY (R145, R146): the next section has been read whole. One with a bad DIGEST fails the image, and no part
of it is applied; one that is not of its TYPE's form is refused (R147, R640). -/
def execConfigSectionApply (payload : List Byte) : State → Answer := Upd.answer <| look fun s =>
  let bs := payload.map (·.toNat)
  when_ (s.device == dvCONFIG) <| forSome s.nextSection? fun e =>
    all [put .cfgDone (s.iv .cfgDone + 1),
         if !sectionOk e bs then imageRefused 5
         else match sectionOf e bs with
           | none => imageRefused 8
           | some sec => sectionApply sec]

/-! ### The end of the image -/

/-- The window table as the image set it is kept for face resets (R303). -/
def copyWindows : Upd := look fun s =>
  all [clearIv .winCopySize fun _ => true, clearIv .winCopyBase fun _ => true, clearIv .winCopyXlat fun _ => true,
       forBelow 32 fun f => forEach (allBelow 256 (s.wtValid f)) fun i =>
         let g := fun (x : Fld) => s.rd (.face f) x i
         all [put .winCopySize (b2n (s.wtLinked f i) <<< 31 + g .FACE_WIN_TAB_LINK_BAR <<< 28 + g .FACE_WIN_TAB_LINK_PRES <<< 20 + 2 ^ 6 +
                s.wtLog2 f i) (256 * f + i),
              put .winCopyBase (s.wtBase f i) (256 * f + i), put .winCopyXlat (s.wtXlat f i) (256 * f + i)]]

/-- CONFIG_APPLY_DONE: the part reaches RUN with the slot, which counts as confirmed, and the FAB ports start DETECT. -/
def execConfigApplyDone : State → Answer := Upd.answer <| look fun s =>
  let met := s.iv .cfgPlates
  let k := s.iv .cfgSel + 1
  when_ (s.device == dvCONFIG && s.nextSection?.isNone) <|
    if met != 0 && !met.testBit 2 then imageRefused 8
    else
      all [when_ (met == 0 && !s.ivOn .cfgKeep) platesEmpty, copyWindows, toDevice 4,
           wr .glb .GLB_DEV_STATE_CFG_SLOT (k - 2), slotSet k slVALID, put .slotRan (k - 1) 1,
           put .appliedSlot (k - 1), put .appliedSeq (s.iv .slotSeq k), put .cfgSel 0,
           when_ (s.ivOn .arbAuto) (raiseArb 1 (min 127 (s.iv .slotSecVer k))),
           forEach (allBelow 96 s.isFab) detectStart]

end Sys2Proof.Machine
end

