-- ==== Sys2Proof/Machine/Sideband.lean ====
section
/-! DEFINITION. Register access over the sideband and between switches (spec/20 R699 and R700). -/

namespace Sys2Proof.Machine

/-! ### Accesses with stamp SB -/

/-- The access that starts at state `s` has met a bus error. -/
def State.busErrorSince (t s : State) : Bool := (t.out.take (t.out.length - s.out.length)).any fun o => o == .busError .sb || o == .ca .sb

/-- The value that a read with stamp SB has just returned. -/
def State.sbValue (s : State) : Nat :=
  match s.out.head? with
  | some (.value .sb v) => v
  | _ => 0

/-- A register is read with stamp SB, and `reply` gets the status and the value. -/
def sbRead (a : SpaceAddr) (reply : Nat → Nat → Upd) : Upd := look fun s =>
  all [accessRead .sb (.space a) 1 true, look fun t => reply (if t.busErrorSince s then msDISCARDED else msOK) t.sbValue]

/-- A register is written with stamp SB, and `reply` gets the status. In Safe Halt it is not (R623). -/
def sbWrite (a : SpaceAddr) (v : Word) (reply : Nat → Upd) : Upd := look fun s =>
  if s.safeHalt then reply msDENIED
  else all [accessWrite .sb (.space a) 1 true false v 0, look fun t => reply (if t.busErrorSince s then msDISCARDED else msOK)]

/-- REG_READ. -/
def execRegRead (k : Fin 4) (a : SpaceAddr) : State → Answer := Upd.answer <| stoux k mcREG_READ <|
  sbRead a fun st v => emit (.mctp k mcREG_READ st (if st == msOK then [v] else []))

/-- REG_WRITE. -/
def execRegWrite (k : Fin 4) (a : SpaceAddr) (v : Word) : State → Answer := Upd.answer <| stoux k mcREG_WRITE <|
  sbWrite a v fun st => emit (.mctp k mcREG_WRITE st [])

/-! ### Remote accesses (R700) -/

/-- A FAB port whose partner is switch `w`. -/
def State.partnerPort (s : State) (w : Nat) : Option Nat :=
  firstBelow 96 fun p => s.linkTalks p && s.on (.bridge 4) .BRIDGE_FAB_NBR_VALID p && s.rd (.bridge 4) .BRIDGE_FAB_NBR_PARTNER_SW p == w

/-- The length of a remote access frame's payload. -/
def remoteLen : Nat := min 9600 Config.remoteBytes

/-- A remote access of SMBus port `k` leaves for switch `w`: by the plates, or straight to a partner that no plate leads to. -/
def remoteSend (k cmd w : Nat) (wr_ : Bool) (a : SpaceAddr) (v : Nat) : Upd := look fun s =>
  let id := s.iv .remoteId % 65536
  let body := fun (p : Nat) => Payload.remoteReq s.switchId p wr_ a.toNat v id
  let kept := all [put .remoteId (id + 1), push .remotes (id + 65536 * k + (if wr_ then 2 ^ 20 else 0))]
  let routed := (s.switchFeid? w).filter fun n => (s.wayTo s.live n none).isSome
  match routed, s.partnerPort w with
  | some n, _ => all [kept, sendInner .mgmt (s.inner n 7 3 remoteLen (body 0)) none]
  | none, some p => all [kept, sendOnLink .mgmt p (s.inner 0 7 3 remoteLen (body p))]
  | none, none => emit (.mctp k cmd msNO_ROUTE [])

/-- REMOTE_READ. -/
def execRemoteRead (k : Fin 4) (sw : SwId) (a : SpaceAddr) : State → Answer := Upd.answer <| stoux k mcREMOTE_READ <|
  remoteSend k mcREMOTE_READ sw false a 0

/-- REMOTE_WRITE. -/
def execRemoteWrite (k : Fin 4) (sw : SwId) (a : SpaceAddr) (v : Word) : State → Answer := Upd.answer <| stoux k mcREMOTE_WRITE <|
  remoteSend k mcREMOTE_WRITE sw true a v.toNat

/-- The answer of OP 0x41 goes back to switch `sw`, or to the partner of the port the request came from. -/
def remoteAnswer (src : Option PortId) (sw id status v : Nat) : Upd := look fun s =>
  let body := Payload.remoteRsp s.switchId status v id
  match src with
  | some p => sendOnLink .mgmt p (s.inner 0 7 3 remoteLen body)
  | none => forSome (s.switchFeid? sw) fun n => sendInner .mgmt (s.inner n 7 3 remoteLen body) none

/-- The masks of MGMT_REMOTE let switch `sw` make the access. -/
def State.remoteAllowed (s : State) (sw : Nat) (wr_ : Bool) : Bool :=
  sw < 64 && (s.rd (.mgmt 2) (if wr_ then .MGMT_REMOTE_WR_MASK else .MGMT_REMOTE_RD_MASK) (sw / 32)).testBit (sw % 32)

/-- REMOTE_ACCESS_RECEIVED. -/
def execRemoteAccessReceived (src : Option PortId) (sw _port : Nat) (wr_ : Bool) (a : SpaceAddr) (v : Word) (id : BitVec 16) :
    State → Answer := Upd.answer <| look fun s =>
  let reply := remoteAnswer src sw id.toNat
  when_ s.fwRuns <|
    if !s.remoteAllowed sw wr_ then all [raise (.mgmt 0) .MGMT_REMOTE_REFUSED, reply msDENIED 0]
    else if wr_ then sbWrite a v fun st => reply st 0
    else sbRead a reply

/-- The remote access `id` ends: sideband gets its status, and a read that was performed its value. -/
def remoteEnds (id status v : Nat) : Upd := look fun s =>
  forSome ((s.fifo .remotes).find? fun e => e % 65536 == id) fun e =>
    let k := e / 65536 % 4
    all [putFifo .remotes ((s.fifo .remotes).erase e),
         if e.testBit 20 then emit (.mctp k mcREMOTE_WRITE status [])
         else emit (.mctp k mcREMOTE_READ status (if status == msOK then [v] else []))]

/-- REMOTE_RESPONSE_RECEIVED. -/
def execRemoteResponseReceived (status : Fin 6) (v : Word) (id : BitVec 16) : State → Answer :=
  Upd.answer (remoteEnds id.toNat status v.toNat)

/-- REMOTE_TIMEOUT. -/
def execRemoteTimeout (id : BitVec 16) : State → Answer := Upd.answer (remoteEnds id.toNat msTIMEOUT 0)

end Sys2Proof.Machine
end

