-- ==== Sys2Proof/Machine/Clock.lean ====
section
/-! DEFINITION. The tick: what 1 ns of time does when no command waits. Fabric time advances (R434), but for what is slewed out
of it (R447), and at each whole microsecond the counters of time advance. -/

namespace Sys2Proof.Machine

/-- A port has a queued frame that its partner gives it no credits for (Table PORT-12, counter 10). -/
def State.stalled (s : State) (p : Nat) : Bool := s.role p != 0 && s.buf.any fun k => s.lacksCredits p k

/-- A class of a port has a candidate that only its shaper holds (R492). -/
def State.shaperBlocked (s : State) (p c : Nat) : Bool :=
  (s.candidates p 7).any fun k => k.frame.cls == c && s.throughGate p k && !s.throughShaper p k

/-- The counters of a port that count microseconds (R262, R492). -/
def portMicro (p : Nat) : Upd := look fun s =>
  all [when_ (s.stalled p) (bump (.port p) 10),
       forEach (allBelow 8 fun c => s.shaperBlocked p c) fun c => bump (.sched p) (24 + c),
       when_ (s.fallback && s.role p != 0) (bump (.sched p) 36)]

/-- The time with a requester waiting for a tag (Table FACE-7, counter 6). -/
def faceMicro (f : Nat) : Upd := look fun s =>
  when_ (s.waiting.any fun w => w.why == .tag f) (bump (.face f) 6)

/-- SUSPEND_AGE of an instance (R466, R513). -/
def instMicro (v : Nat) : Upd := look fun s =>
  when_ (s.on (.inst 2) .INST_STAT_BOUND v && s.on (.inst 2) .INST_STAT_SUSPENDED v) (bump (.inst 0) v)

/-- The time an engine's open descriptor waits for cells (R541, counter 7). -/
def engMicro (e : Nat) : Upd := look fun s =>
  when_ (s.waiting.any fun w => w.why == .cells && w.pkt.ing == .mover e) (bump (.eng e) 7)

/-- The policers that hold a lossless frame (R472), each once. -/
def State.holding (s : State) : List Nat :=
  (s.waiting.filterMap fun w => match w.why with
    | .policer n => some n
    | _ => none).eraseDups

/-- One microsecond has passed. -/
def micro : Upd := look fun s =>
  all [forBelow 96 portMicro, forBelow 32 faceMicro, forBelow 1024 instMicro, forBelow 64 engMicro,
       forEach s.holding fun n => bump .schedg (0x1000 + 4 * n + 3),
       when_ (s.waiting.any fun w => w.why == .proof) (bump (.bridge 4) 15), chanTick]

/-- Fabric time at the next nanosecond, and what is left to slew out. -/
def State.later (s : State) : Nat × Int :=
  let o := zag (s.iv .slew)
  if s.iv .ticks + 1 < 1000 || o == 0 then (s.now + 1, o)
  else if 0 < o then (s.now, o - 1)
  else (s.now + 2, o + 1)

/-- One nanosecond: of fabric time, and while the switch die is in reset of the power path alone. -/
def tick : Upd := look fun s =>
  if s.ivOn .dieReset then
    all [put .ticks ((s.iv .ticks + 1) % 1000), when_ ((s.iv .ticks + 1) % 1000 == 0) chanTick]
  else
    let (t, o) := s.later
    all [timeTo t, put .slew (zig o), put .ticks (if zag (s.iv .slew) == 0 then 0 else (s.iv .ticks + 1) % 1000),
         when_ (s.now / 1000 < t / 1000) micro, restDue]

end Sys2Proof.Machine
end

