-- ==== Sys2Proof/Machine/Dispatch.lean ====
section
/-! DEFINITION. The dispatch: one arm for each command of the block, each one direct call of that command's meaning. -/

namespace Sys2Proof.Machine

def exec (i : Instr) (s : State) : Host.Outcome State Fault Refusal :=
  match i with
  | .registerWrite st t n full ep lo hi => Sys2Proof.Machine.execRegisterWrite st t n full ep lo hi s
  | .unmappedRead st t => Sys2Proof.Machine.execUnmappedRead st t s
  | .badLengthRead st t n => Sys2Proof.Machine.execBadLengthRead st t n s
  | .upperCommitWrite st a full hi => Sys2Proof.Machine.execUpperCommitWrite st a full hi s
  | .bar0Request f write off n full ep lo hi => Sys2Proof.Machine.execBar0Request f write off n full ep lo hi s
  | .blockSoftReset st pg v => Sys2Proof.Machine.execBlockSoftReset st pg v s
  | .blockSoftResetDone pg => Sys2Proof.Machine.execBlockSoftResetDone pg s
  | .blockQuiesce st pg v => Sys2Proof.Machine.execBlockQuiesce st pg v s
  | .quiesceDrained pg => Sys2Proof.Machine.execQuiesceDrained pg s
  | .intCauseWrite st pg en v => Sys2Proof.Machine.execIntCauseWrite st pg en v s
  | .counterClear st pg v => Sys2Proof.Machine.execCounterClear st pg v s
  | .counterLowRead st pg full => Sys2Proof.Machine.execCounterLowRead st pg full s
  | .directCounterRead st c full => Sys2Proof.Machine.execDirectCounterRead st c full s
  | .readClear st c full => Sys2Proof.Machine.execReadClear st c full s
  | .fifoPop st w full => Sys2Proof.Machine.execFifoPop st w full s
  | .vkeepRise => Sys2Proof.Machine.execVkeepRise s
  | .vkeepLoss => Sys2Proof.Machine.execVkeepLoss s
  | .railLoss => Sys2Proof.Machine.execRailLoss s
  | .coldResetEnd => Sys2Proof.Machine.execColdResetEnd s
  | .crystalLoss => Sys2Proof.Machine.execCrystalLoss s
  | .devRstNAssert => Sys2Proof.Machine.execDevRstNAssert s
  | .devRstNRelease => Sys2Proof.Machine.execDevRstNRelease s
  | .warmResetRequest st v => Sys2Proof.Machine.execWarmResetRequest st v s
  | .warmResetEnd => Sys2Proof.Machine.execWarmResetEnd s
  | .romChecksDone ok => Sys2Proof.Machine.execRomChecksDone ok s
  | .firmwareSlotSelect sfdp crc hA hB => Sys2Proof.Machine.execFirmwareSlotSelect sfdp crc hA hB s
  | .firmwareStart => Sys2Proof.Machine.execFirmwareStart s
  | .configHeaderVerify h => Sys2Proof.Machine.execConfigHeaderVerify h s
  | .configSectionApply payload => Sys2Proof.Machine.execConfigSectionApply payload s
  | .configApplyDone => Sys2Proof.Machine.execConfigApplyDone s
  | .fwConfirm st v => Sys2Proof.Machine.execFwConfirm st v s
  | .confirmTimeout => Sys2Proof.Machine.execConfirmTimeout s
  | .quietEntry st v => Sys2Proof.Machine.execQuietEntry st v s
  | .quietChannelsOff => Sys2Proof.Machine.execQuietChannelsOff s
  | .quietState => Sys2Proof.Machine.execQuietState s
  | .wakeVwake => Sys2Proof.Machine.execWakeVwake s
  | .wakeTimerExpiry => Sys2Proof.Machine.execWakeTimerExpiry s
  | .wakePrsnt => Sys2Proof.Machine.execWakePrsnt s
  | .wakeFperst f => Sys2Proof.Machine.execWakeFperst f s
  | .fwakeReleaseTimeout => Sys2Proof.Machine.execFwakeReleaseTimeout s
  | .thermalSample t => Sys2Proof.Machine.execThermalSample t s
  | .refclkLoss k => Sys2Proof.Machine.execRefclkLoss k s
  | .refclkRestore k => Sys2Proof.Machine.execRefclkRestore k s
  | .faceResetPin f => Sys2Proof.Machine.execFaceResetPin f s
  | .hotResetReceived f => Sys2Proof.Machine.execHotResetReceived f s
  | .fperstRelease f => Sys2Proof.Machine.execFperstRelease f s
  | .faceReady f => Sys2Proof.Machine.execFaceReady f s
  | .pllLock oct isB => Sys2Proof.Machine.execPllLock oct isB s
  | .pllUnlock oct isB => Sys2Proof.Machine.execPllUnlock oct isB s
  | .signalDetect l => Sys2Proof.Machine.execSignalDetect l s
  | .codewordReceived l symErrs => Sys2Proof.Machine.execCodewordReceived l symErrs s
  | .fillerReceived l => Sys2Proof.Machine.execFillerReceived l s
  | .alignReceived l hdr blk slots => Sys2Proof.Machine.execAlignReceived l hdr blk slots s
  | .alignTransmit l => Sys2Proof.Machine.execAlignTransmit l s
  | .alignLoss l => Sys2Proof.Machine.execAlignLoss l s
  | .cdrLossTimeout l signalLost => Sys2Proof.Machine.execCdrLossTimeout l signalLost s
  | .uncorrectableLimit l => Sys2Proof.Machine.execUncorrectableLimit l s
  | .fecDegrade l => Sys2Proof.Machine.execFecDegrade l s
  | .trainBlockReceived l hdr blk want => Sys2Proof.Machine.execTrainBlockReceived l hdr blk want s
  | .coeffApply l req => Sys2Proof.Machine.execCoeffApply l req s
  | .eqRespTimeout l => Sys2Proof.Machine.execEqRespTimeout l s
  | .txTapsWrite st l v => Sys2Proof.Machine.execTxTapsWrite st l v s
  | .eqModeWrite st l v => Sys2Proof.Machine.execEqModeWrite st l v s
  | .restIdleExpiry p => Sys2Proof.Machine.execRestIdleExpiry p s
  | .restReceived l => Sys2Proof.Machine.execRestReceived l s
  | .restExit p => Sys2Proof.Machine.execRestExit p s
  | .restExitFail l => Sys2Proof.Machine.execRestExitFail l s
  | .lanePrbsCtrlWrite st l v => Sys2Proof.Machine.execLanePrbsCtrlWrite st l v s
  | .prbsCheckerLock l word n errs => Sys2Proof.Machine.execPrbsCheckerLock l word n errs s
  | .injectOneShot st l v => Sys2Proof.Machine.execInjectOneShot st l v s
  | .injectPeriodic l => Sys2Proof.Machine.execInjectPeriodic l s
  | .laneSlip st l v => Sys2Proof.Machine.execLaneSlip st l v s
  | .portCfgApply st p v => Sys2Proof.Machine.execPortCfgApply st p v s
  | .portRetrain st p v => Sys2Proof.Machine.execPortRetrain st p v s
  | .linkDownDwellExpiry p => Sys2Proof.Machine.execLinkDownDwellExpiry p s
  | .trainStateTimeout p => Sys2Proof.Machine.execTrainStateTimeout p s
  | .detectAbsentTimeout p => Sys2Proof.Machine.execDetectAbsentTimeout p s
  | .paramBlockReceived p blk => Sys2Proof.Machine.execParamBlockReceived p blk s
  | .paramRepeat p => Sys2Proof.Machine.execParamRepeat p s
  | .authHello p => Sys2Proof.Machine.execAuthHello p s
  | .authCert p chainOk debug => Sys2Proof.Machine.execAuthCert p chainOk debug s
  | .authProof p sigOk owner domain sw port => Sys2Proof.Machine.execAuthProof p sigOk owner domain sw port s
  | .authDone p macOk => Sys2Proof.Machine.execAuthDone p macOk s
  | .daendFrameReceived p lf => Sys2Proof.Machine.execDaendFrameReceived p lf s
  | .ackReceived p blk => Sys2Proof.Machine.execAckReceived p blk s
  | .nakReceived p blk => Sys2Proof.Machine.execNakReceived p blk s
  | .creditBlockReceived p blk => Sys2Proof.Machine.execCreditBlockReceived p blk s
  | .lanemapReceived p blk => Sys2Proof.Machine.execLanemapReceived p blk s
  | .ackCoalesceExpiry p => Sys2Proof.Machine.execAckCoalesceExpiry p s
  | .replayTimeout p => Sys2Proof.Machine.execReplayTimeout p s
  | .creditUpdateSend p cls pool => Sys2Proof.Machine.execCreditUpdateSend p cls pool s
  | .creditRefresh p => Sys2Proof.Machine.execCreditRefresh p s
  | .creditStallTimeout p cls pool => Sys2Proof.Machine.execCreditStallTimeout p cls pool s
  | .egressFrameBoundary p fc => Sys2Proof.Machine.execEgressFrameBoundary p fc s
  | .numRekeyThreshold p => Sys2Proof.Machine.execNumRekeyThreshold p s
  | .numExhausted p => Sys2Proof.Machine.execNumExhausted p s
  | .wideningLanesReady p => Sys2Proof.Machine.execWideningLanesReady p s
  | .widthChangeTimeout p => Sys2Proof.Machine.execWidthChangeTimeout p s
  | .linkLoss p => Sys2Proof.Machine.execLinkLoss p s
  | .portContain st p => Sys2Proof.Machine.execPortContain st p s
  | .portRelease st p => Sys2Proof.Machine.execPortRelease st p s
  | .faceBindWrite st f v => Sys2Proof.Machine.execFaceBindWrite st f v s
  | .presentationUpdate st f n v => Sys2Proof.Machine.execPresentationUpdate st f n v s
  | .barSizingDone f n bars => Sys2Proof.Machine.execBarSizingDone f n bars s
  | .configRequest f c => Sys2Proof.Machine.execConfigRequest f c s
  | .hostMemoryRequest f t => Sys2Proof.Machine.execHostMemoryRequest f t s
  | .heldRequestAdmit f => Sys2Proof.Machine.execHeldRequestAdmit f s
  | .msixTableWrite f off v => Sys2Proof.Machine.execMsixTableWrite f off v s
  | .interruptSourceFire f vec => Sys2Proof.Machine.execInterruptSourceFire f vec s
  | .windowWrite st f v => Sys2Proof.Machine.execWindowWrite st f v s
  | .windowWriteAny st f v => Sys2Proof.Machine.execWindowWriteAny st f v s
  | .windowInvalidate st f v => Sys2Proof.Machine.execWindowInvalidate st f v s
  | .completionReceived f req link tag ep t => Sys2Proof.Machine.execCompletionReceived f req link tag ep t s
  | .cplTimeout f req tag => Sys2Proof.Machine.execCplTimeout f req tag s
  | .tagQuarantineEnd f tag => Sys2Proof.Machine.execTagQuarantineEnd f tag s
  | .flrServiceEndpoint f => Sys2Proof.Machine.execFlrServiceEndpoint f s
  | .flrDone f => Sys2Proof.Machine.execFlrDone f s
  | .pmeTurnOff f => Sys2Proof.Machine.execPmeTurnOff f s
  | .ptmRequestTimer f => Sys2Proof.Machine.execPtmRequestTimer f s
  | .ptmResponseReceived f host => Sys2Proof.Machine.execPtmResponseReceived f host s
  | .ptmRequestReceived p => Sys2Proof.Machine.execPtmRequestReceived p s
  | .snapshotCapture st v => Sys2Proof.Machine.execSnapshotCapture st v s
  | .headArrival a => Sys2Proof.Machine.execHeadArrival a s
  | .tailArrival id c => Sys2Proof.Machine.execTailArrival id c s
  | .admissionResume => Sys2Proof.Machine.execAdmissionResume s
  | .cellEccError id correctable => Sys2Proof.Machine.execCellEccError id correctable s
  | .mcHoldExpiry id p => Sys2Proof.Machine.execMcHoldExpiry id p s
  | .mcGroupStage st d v => Sys2Proof.Machine.execMcGroupStage st d v s
  | .mcGroupCommit st v => Sys2Proof.Machine.execMcGroupCommit st v s
  | .bufferLimitWrite st vi ix d v => Sys2Proof.Machine.execBufferLimitWrite st vi ix d v s
  | .plateEntryStage st k ix d v => Sys2Proof.Machine.execPlateEntryStage st k ix d v s
  | .plateEntryCommit st k ix v => Sys2Proof.Machine.execPlateEntryCommit st k ix v s
  | .plateVerifyStart st v => Sys2Proof.Machine.execPlateVerifyStart st v s
  | .plateVerifyDone => Sys2Proof.Machine.execPlateVerifyDone s
  | .plateTurnArm st v => Sys2Proof.Machine.execPlateTurnArm st v s
  | .plateTurnArmNext st v => Sys2Proof.Machine.execPlateTurnArmNext st v s
  | .plateTurnDisarm st v => Sys2Proof.Machine.execPlateTurnDisarm st v s
  | .plateEccError k ix e => Sys2Proof.Machine.execPlateEccError k ix e s
  | .plateEntryRebuild k ix => Sys2Proof.Machine.execPlateEntryRebuild k ix s
  | .burnisherRead e => Sys2Proof.Machine.execBurnisherRead e s
  | .cycleBoundary => Sys2Proof.Machine.execCycleBoundary s
  | .cycleMidpoint => Sys2Proof.Machine.execCycleMidpoint s
  | .cycRefEdge err => Sys2Proof.Machine.execCycRefEdge err s
  | .edgeWindowClose => Sys2Proof.Machine.execEdgeWindowClose s
  | .cycleMarkerSend p => Sys2Proof.Machine.execCycleMarkerSend p s
  | .cycleMarkerReceived p lf => Sys2Proof.Machine.execCycleMarkerReceived p lf s
  | .sourceMarkerTimeout => Sys2Proof.Machine.execSourceMarkerTimeout s
  | .cycleSourceChange st mk v => Sys2Proof.Machine.execCycleSourceChange st mk v s
  | .cycOutPulseEnd => Sys2Proof.Machine.execCycOutPulseEnd s
  | .linkStatusSend p => Sys2Proof.Machine.execLinkStatusSend p s
  | .linkStatusPeriodic => Sys2Proof.Machine.execLinkStatusPeriodic s
  | .linkStatusReceived p l => Sys2Proof.Machine.execLinkStatusReceived p l s
  | .fabPortUnusable p => Sys2Proof.Machine.execFabPortUnusable p s
  | .pathLossReceived => Sys2Proof.Machine.execPathLossReceived s
  | .releaseTimer sw c => Sys2Proof.Machine.execReleaseTimer sw c s
  | .proofReleaseReceived sw es => Sys2Proof.Machine.execProofReleaseReceived sw es s
  | .proofTimeout sw c => Sys2Proof.Machine.execProofTimeout sw c s
  | .resendComplete sw c => Sys2Proof.Machine.execResendComplete sw c s
  | .streamRecordForget sw c => Sys2Proof.Machine.execStreamRecordForget sw c s
  | .linkRetire st p v => Sys2Proof.Machine.execLinkRetire st p v s
  | .retireDrained p => Sys2Proof.Machine.execRetireDrained p s
  | .retireTimeout p => Sys2Proof.Machine.execRetireTimeout p s
  | .hatchEntry p => Sys2Proof.Machine.execHatchEntry p s
  | .gateWakeLead p => Sys2Proof.Machine.execGateWakeLead p s
  | .policerHoldRelease id => Sys2Proof.Machine.execPolicerHoldRelease id s
  | .policerCommit st v => Sys2Proof.Machine.execPolicerCommit st v s
  | .hatchLenWrite st p v => Sys2Proof.Machine.execHatchLenWrite st p v s
  | .hatchVerifyStart st p v => Sys2Proof.Machine.execHatchVerifyStart st p v s
  | .hatchVerifyDone p => Sys2Proof.Machine.execHatchVerifyDone p s
  | .hatchArm st p v => Sys2Proof.Machine.execHatchArm st p v s
  | .hatchArmNext st p v => Sys2Proof.Machine.execHatchArmNext st p v s
  | .hatchDisarm st p v => Sys2Proof.Machine.execHatchDisarm st p v s
  | .instanceBind st v => Sys2Proof.Machine.execInstanceBind st v s
  | .instanceBindAny st v => Sys2Proof.Machine.execInstanceBindAny st v s
  | .instanceUnbind st v => Sys2Proof.Machine.execInstanceUnbind st v s
  | .instanceReset st v => Sys2Proof.Machine.execInstanceReset st v s
  | .instanceSelfReset st v => Sys2Proof.Machine.execInstanceSelfReset st v s
  | .instanceResetDone v => Sys2Proof.Machine.execInstanceResetDone v s
  | .flushTimeout v => Sys2Proof.Machine.execFlushTimeout v s
  | .shareWrite st v w => Sys2Proof.Machine.execShareWrite st v w s
  | .getTdispVersion ch v => Sys2Proof.Machine.execGetTdispVersion ch v s
  | .getTdispCapabilities ch v => Sys2Proof.Machine.execGetTdispCapabilities ch v s
  | .lockInterfaceRequest ch v => Sys2Proof.Machine.execLockInterfaceRequest ch v s
  | .getDeviceInterfaceState ch v => Sys2Proof.Machine.execGetDeviceInterfaceState ch v s
  | .getDeviceInterfaceReport ch v => Sys2Proof.Machine.execGetDeviceInterfaceReport ch v s
  | .startInterfaceRequest ch v => Sys2Proof.Machine.execStartInterfaceRequest ch v s
  | .stopInterfaceRequest ch v => Sys2Proof.Machine.execStopInterfaceRequest ch v s
  | .tdispUnsupported ch v => Sys2Proof.Machine.execTdispUnsupported ch v s
  | .ringCfgWrite st n tenant v => Sys2Proof.Machine.execRingCfgWrite st n tenant v s
  | .ringRehome st n v => Sys2Proof.Machine.execRingRehome st n v s
  | .rehomeDone n => Sys2Proof.Machine.execRehomeDone n s
  | .ringTailWrite st n v => Sys2Proof.Machine.execRingTailWrite st n v s
  | .descriptorFetch n => Sys2Proof.Machine.execDescriptorFetch n s
  | .descriptorFetchComplete n descs => Sys2Proof.Machine.execDescriptorFetchComplete n descs s
  | .moverReadCompletion n off bytes => Sys2Proof.Machine.execMoverReadCompletion n off bytes s
  | .descriptorComplete n => Sys2Proof.Machine.execDescriptorComplete n s
  | .descriptorError n cause => Sys2Proof.Machine.execDescriptorError n cause s
  | .coalesceExpiry n => Sys2Proof.Machine.execCoalesceExpiry n s
  | .rxPacketCommit n => Sys2Proof.Machine.execRxPacketCommit n s
  | .ringResume st n => Sys2Proof.Machine.execRingResume st n s
  | .engineDisable st e v => Sys2Proof.Machine.execEngineDisable st e v s
  | .engineFault e => Sys2Proof.Machine.execEngineFault e s
  | .prefetchAgeExpiry f k => Sys2Proof.Machine.execPrefetchAgeExpiry f k s
  | .lockedRead f t => Sys2Proof.Machine.execLockedRead f t s
  | .unlockMessage host src => Sys2Proof.Machine.execUnlockMessage host src s
  | .lockTimeout p => Sys2Proof.Machine.execLockTimeout p s
  | .noticePost st w v => Sys2Proof.Machine.execNoticePost st w v s
  | .noticeFrameReceived src dest ingSw n fwq => Sys2Proof.Machine.execNoticeFrameReceived src dest ingSw n fwq s
  | .noticeOutcomeReceived status skind sid sfeid => Sys2Proof.Machine.execNoticeOutcomeReceived status skind sid sfeid s
  | .noticeOutcomeTimeout st w => Sys2Proof.Machine.execNoticeOutcomeTimeout st w s
  | .noticeRead st w => Sys2Proof.Machine.execNoticeRead st w s
  | .doorbellArm st w => Sys2Proof.Machine.execDoorbellArm st w s
  | .epochQuery st w v => Sys2Proof.Machine.execEpochQuery st w v s
  | .wordWrite st n v => Sys2Proof.Machine.execWordWrite st n v s
  | .wordTake st n => Sys2Proof.Machine.execWordTake st n s
  | .semAcquire st n => Sys2Proof.Machine.execSemAcquire st n s
  | .semRelease st n => Sys2Proof.Machine.execSemRelease st n s
  | .semForce st n => Sys2Proof.Machine.execSemForce st n s
  | .containmentRequest => Sys2Proof.Machine.execContainmentRequest s
  | .powerQuiesceDrained p => Sys2Proof.Machine.execPowerQuiesceDrained p s
  | .quiesceUsExpiry p => Sys2Proof.Machine.execQuiesceUsExpiry p s
  | .deviceResetDelay => Sys2Proof.Machine.execDeviceResetDelay s
  | .domainContain st d v => Sys2Proof.Machine.execDomainContain st d v s
  | .domainRelease st d v => Sys2Proof.Machine.execDomainRelease st d v s
  | .dpcHoldExpiry p => Sys2Proof.Machine.execDpcHoldExpiry p s
  | .recoveryComplete d => Sys2Proof.Machine.execRecoveryComplete d s
  | .recoveryTimeout d => Sys2Proof.Machine.execRecoveryTimeout d s
  | .recoveryWindowClose d => Sys2Proof.Machine.execRecoveryWindowClose d s
  | .domainEventRepeat d => Sys2Proof.Machine.execDomainEventRepeat d s
  | .domainEventReceived code sw feids => Sys2Proof.Machine.execDomainEventReceived code sw feids s
  | .unreachableMarkExpiry n => Sys2Proof.Machine.execUnreachableMarkExpiry n s
  | .containReqReceived fd sw block bit n => Sys2Proof.Machine.execContainReqReceived fd sw block bit n s
  | .elogClear st v => Sys2Proof.Machine.execElogClear st v s
  | .tokenClaim st v => Sys2Proof.Machine.execTokenClaim st v s
  | .tokenTransfer st v => Sys2Proof.Machine.execTokenTransfer st v s
  | .tokenRelease st v => Sys2Proof.Machine.execTokenRelease st v s
  | .tokenUnlockPages st v => Sys2Proof.Machine.execTokenUnlockPages st v s
  | .tokenGrant st v => Sys2Proof.Machine.execTokenGrant st v s
  | .tokenArbAdvance st v => Sys2Proof.Machine.execTokenArbAdvance st v s
  | .tokenDebugUnlock st v => Sys2Proof.Machine.execTokenDebugUnlock st v s
  | .pageLockWrite st k v => Sys2Proof.Machine.execPageLockWrite st k v s
  | .spdmRequest ch r => Sys2Proof.Machine.execSpdmRequest ch r s
  | .ideKmRequest ch m => Sys2Proof.Machine.execIdeKmRequest ch m s
  | .deviceAuthDone p chainOk root => Sys2Proof.Machine.execDeviceAuthDone p chainOk root s
  | .linkRekey p w => Sys2Proof.Machine.execLinkRekey p w s
  | .rekeyTimeout p => Sys2Proof.Machine.execRekeyTimeout p s
  | .debugRelock st v => Sys2Proof.Machine.execDebugRelock st v s
  | .channelEnable st c v => Sys2Proof.Machine.execChannelEnable st c v s
  | .channelDisable st c v => Sys2Proof.Machine.execChannelDisable st c v s
  | .seatingDebounced c => Sys2Proof.Machine.execSeatingDebounced c s
  | .insertionDelayExpiry c b => Sys2Proof.Machine.execInsertionDelayExpiry c b s
  | .rampComplete c => Sys2Proof.Machine.execRampComplete c s
  | .rampTimeout c => Sys2Proof.Machine.execRampTimeout c s
  | .fastTrip c => Sys2Proof.Machine.execFastTrip c s
  | .faultTimerExpiry c => Sys2Proof.Machine.execFaultTimerExpiry c s
  | .fetOvertemp c => Sys2Proof.Machine.execFetOvertemp c s
  | .seatingLoss c => Sys2Proof.Machine.execSeatingLoss c s
  | .feedLoss c => Sys2Proof.Machine.execFeedLoss c s
  | .ovCut c => Sys2Proof.Machine.execOvCut c s
  | .warnLeadExpiry c => Sys2Proof.Machine.execWarnLeadExpiry c s
  | .retryPeriodExpiry c => Sys2Proof.Machine.execRetryPeriodExpiry c s
  | .channelClear st c v => Sys2Proof.Machine.execChannelClear st c v s
  | .reverseBlock c => Sys2Proof.Machine.execReverseBlock c s
  | .reverseRelease c => Sys2Proof.Machine.execReverseRelease c s
  | .powerGood c => Sys2Proof.Machine.execPowerGood c s
  | .retryReloadTimer c => Sys2Proof.Machine.execRetryReloadTimer c s
  | .forcedSwitchover c => Sys2Proof.Machine.execForcedSwitchover c s
  | .revertSwitchover c => Sys2Proof.Machine.execRevertSwitchover c s
  | .softwareSwitchover st c v => Sys2Proof.Machine.execSoftwareSwitchover st c v s
  | .deadTimeExpiry c => Sys2Proof.Machine.execDeadTimeExpiry c s
  | .feedCheck => Sys2Proof.Machine.execFeedCheck s
  | .telemetrySample c vout iout vfa vfb tfet limit => Sys2Proof.Machine.execTelemetrySample c vout iout vfa vfb tfet limit s
  | .lockstepMismatch pair => Sys2Proof.Machine.execLockstepMismatch pair s
  | .watchdogExpiry => Sys2Proof.Machine.execWatchdogExpiry s
  | .watchdogKick st v => Sys2Proof.Machine.execWatchdogKick st v s
  | .setEndpointId k eid => Sys2Proof.Machine.execSetEndpointId k eid s
  | .getEndpointId k => Sys2Proof.Machine.execGetEndpointId k s
  | .getMctpVersionSupport k typ => Sys2Proof.Machine.execGetMctpVersionSupport k typ s
  | .getMessageTypeSupport k => Sys2Proof.Machine.execGetMessageTypeSupport k s
  | .mctpUnsupported k => Sys2Proof.Machine.execMctpUnsupported k s
  | .regRead k a => Sys2Proof.Machine.execRegRead k a s
  | .regWrite k a v => Sys2Proof.Machine.execRegWrite k a v s
  | .remoteRead k sw a => Sys2Proof.Machine.execRemoteRead k sw a s
  | .remoteWrite k sw a v => Sys2Proof.Machine.execRemoteWrite k sw a v s
  | .remoteAccessReceived src sw port wr a v id => Sys2Proof.Machine.execRemoteAccessReceived src sw port wr a v id s
  | .remoteResponseReceived status v id => Sys2Proof.Machine.execRemoteResponseReceived status v id s
  | .remoteTimeout id => Sys2Proof.Machine.execRemoteTimeout id s
  | .mctpImgStart k cfg => Sys2Proof.Machine.execMctpImgStart k cfg s
  | .mctpImgChunk k off len => Sys2Proof.Machine.execMctpImgChunk k off len s
  | .mctpImgFinish k => Sys2Proof.Machine.execMctpImgFinish k s
  | .telemetry k => Sys2Proof.Machine.execTelemetry k s
  | .imgCtrlStart st v => Sys2Proof.Machine.execImgCtrlStart st v s
  | .imgCtrlChunk st v => Sys2Proof.Machine.execImgCtrlChunk st v s
  | .imgCtrlFinish st v => Sys2Proof.Machine.execImgCtrlFinish st v s
  | .imgCtrlAbort st v => Sys2Proof.Machine.execImgCtrlAbort st v s
  | .imgEraseDone => Sys2Proof.Machine.execImgEraseDone s
  | .imgVerifyDone h => Sys2Proof.Machine.execImgVerifyDone h s
  | .gatherSnapshot => Sys2Proof.Machine.execGatherSnapshot s
  | .gatherSnapshotDone skew => Sys2Proof.Machine.execGatherSnapshotDone skew s
  | .gatherConfigWrite st off v => Sys2Proof.Machine.execGatherConfigWrite st off v s
  | .vmonSample mv => Sys2Proof.Machine.execVmonSample mv s
  | .pcieLinkUp p width rate flit rev inv aspm => Sys2Proof.Machine.execPcieLinkUp p width rate flit rev inv aspm s
  | .pcieReplayNumRollover p num => Sys2Proof.Machine.execPcieReplayNumRollover p num s
  | .rxAdaptationDone l eyeV eyeH snr ctle => Sys2Proof.Machine.execRxAdaptationDone l eyeV eyeH snr ctle s
  | .switchDieRailsGood => Sys2Proof.Machine.execSwitchDieRailsGood s
  | .outputBelowPgThreshold c => Sys2Proof.Machine.execOutputBelowPgThreshold c s
  | .imgChunkDone => Sys2Proof.Machine.execImgChunkDone s
  | .tokenFinished => Sys2Proof.Machine.execTokenFinished s

end Sys2Proof.Machine
end

