-- ==== Sys2Proof/Machine/Step.lean ====
section
/-! DEFINITION. One step of the block: the command at the front of the queue, or, when none waits, one nanosecond of time. -/

namespace Sys2Proof.Machine

/-- The part takes the command at the front of its queue and carries it out with the queue's rest; on an empty queue it idles
for one nanosecond. -/
def step (s : State) : Host.Outcome State Fault Refusal :=
  match s.pending with
  | [] => .next (tick.run s)
  | c :: r => exec c { s with pending := r }

/-- The state with the command that a word spells put at the front of the queue. The table gives no row any bits, so no word
spells a command, and the state stays as it is. -/
def State.withFetchWord (s : State) (nbits w : Nat) : State :=
  match Sys2Proof.decodeTableWord nbits w with
  | none => s
  | some c => { s with pending := c :: s.pending }

end Sys2Proof.Machine
end

