-- ==== Sys2Proof/WellFormed.lean ====
section
/-! DEFINITION. Which commands the surroundings can send: units that exist (Table SCOPE-2, Table PAGES-1, Table GUARD-2), fields
that fit the fields of their frames (Table FABRIC-2), and lists of the length their rule gives. -/

namespace Sys2Proof

open Sys2Proof.Machine

/-- An access of the register fabric names at least one dword, and a register address is that of a dword (R39). -/
def Target.wellFormed : Target → Bool
  | .space a => a.toNat % 4 == 0
  | .bar2 o => o.toNat % 4 == 0

/-- A page with the common header that Table PAGES-1 lists. -/
def Pg.hasHeader (pg : Pg) : Bool := pg.ok && pg.common

/-- A TLP as PCI Express carries it: at most 4,096 bytes of payload or of data asked for, a header of 12 or 16 bytes with its
prefixes. -/
def Tlp.wellFormed (t : Tlp) : Bool := t.len ≤ 4096 && 12 ≤ t.hdr && t.words.length ≤ 1024

/-- An entry of a proof release (Table FABRIC-4). -/
def RelEntry.wellFormed (e : RelEntry) : Bool := e.cls < 8 && e.epoch < 2 ^ 16 && e.seq < 2 ^ 32

/-- A cycle marker (Table CYCLE-4). -/
def Marker.wellFormed (m : Marker) : Bool :=
  m.state < 8 && m.stratum < 256 && m.masterId < 64 && m.tTx < 2 ^ 64 && m.cycle < 2 ^ 48 && m.boundary < 2 ^ 64 && m.len < 2 ^ 32
    && m.echoT1 < 2 ^ 64 && m.echoT2 < 2 ^ 64

/-- A link-status payload (Table FABRIC-1). -/
def LinkStatus.wellFormed (l : LinkStatus) : Bool :=
  l.sw < 256 && l.port < 256 && l.live < 2 && l.armedIdx < 2 && l.liveGen < 2 ^ 32 && l.armedGen < 2 ^ 32 && l.armedCycle < 2 ^ 48

/-- The payload of a frame. -/
def Payload.wellFormed : Payload → Bool
  | .tlp t => t.wellFormed
  | .linkStatus l => l.wellFormed
  | .release es => !es.isEmpty && es.length ≤ 8 && es.all RelEntry.wellFormed
  | .marker m => m.wellFormed
  | .domainEvent code sw feids => code < 4 && sw < 64 && feids.length ≤ 64 && feids.all fun n => n < 8192
  | .remoteReq sw port _ addr val id => sw < 64 && port < 96 && addr < 2 ^ 26 && val < 2 ^ 32 && id < 2 ^ 16
  | .remoteRsp sw status val id => sw < 64 && status < 6 && val < 2 ^ 32 && id < 2 ^ 16
  | _ => true

/-- The header of a Daend frame (Table FABRIC-2). -/
def Frame.wellFormed (f : Frame) : Bool :=
  f.dest < 8192 && f.cls < 8 && f.src < 8192 && f.parity < 2 && f.colour < 4 && f.typ < 16 && f.hops < 256 && f.len < 2 ^ 14
    && f.seq < 2 ^ 32 && f.group < 2 ^ 12 && f.ingSw < 64 && f.egrSw < 64 && f.epoch < 2 ^ 16 && f.tag < 2 ^ 14 && f.hcrc < 2 ^ 16
    && f.body.wellFormed

/-- An internal source that exists. -/
def Ing.wellFormed : Ing → Bool
  | .port p => p < 96
  | .mover e => e < 64
  | _ => true

/-- What arrives at CORE. -/
def Arrival.wellFormed : Arrival → Bool
  | .fab _ lf => lf.frame.wellFormed
  | .tlp _ t => t.wellFormed
  | .inner src f => src.wellFormed && f.wellFormed

/-- A command that the surroundings can send. -/
def Instr.wellFormed : Instr → Bool
  | .registerWrite _ t n _ _ _ _ | .badLengthRead _ t n => t.wellFormed && 1 ≤ n
  | .unmappedRead _ t => t.wellFormed
  | .upperCommitWrite _ a _ _ => a.toNat % 4 == 0
  | .bar0Request _ _ off n _ _ _ _ => off.toNat % 4 == 0 && 1 ≤ n
  | .blockSoftReset _ pg _ | .blockSoftResetDone pg | .blockQuiesce _ pg _ | .quiesceDrained pg | .intCauseWrite _ pg _ _
  | .counterClear _ pg _ | .counterLowRead _ pg _ => pg.hasHeader
  | .daendFrameReceived _ lf | .cycleMarkerReceived _ lf => lf.frame.wellFormed
  | .completionReceived _ _ _ _ _ t => t.wellFormed && t.kind == .cpl
  | .hostMemoryRequest _ t => t.wellFormed && (t.kind == .memRd || t.kind == .memWr || t.kind == .atomic)
  | .lockedRead _ t => t.wellFormed && t.kind == .memRd && t.locked
  | .headArrival a => a.wellFormed
  | .authProof _ _ _ _ sw port => sw < 64 && port < 96
  | .proofReleaseReceived _ es => !es.isEmpty && es.length ≤ 8 && es.all RelEntry.wellFormed
  | .linkStatusReceived _ l => l.wellFormed
  | .thermalSample t => t.length == 34
  | .vmonSample mv => mv.length == 5
  | .domainContain _ d _ | .domainRelease _ d _ | .recoveryComplete d | .recoveryTimeout d | .recoveryWindowClose d
  | .domainEventRepeat d => domOk d
  | .domainEventReceived _ _ feids => feids.length ≤ 64
  | .mctpImgChunk _ _ len => 1 ≤ len && len ≤ 1024
  | .remoteAccessReceived _ sw port _ _ _ _ => sw < 64 && port < 96
  | .deviceAuthDone _ _ root => root < 2 ^ 384
  | .descriptorFetchComplete _ descs => (descs.getD []).length ≤ 8
  | .gatherSnapshotDone skew => skew < 2 ^ 32
  | _ => true

end Sys2Proof
end

