-- ==== Sys2Proof/Safety.lean ====
section
/-! DEFINITION. The terms in which claims about the part are stated: what an answer gives, when the switch die takes part, and what
an answer leaves as it was. -/

namespace Sys2Proof.Machine

/-- Command `i` completes at `s`: `exec` answers a next state, and that state satisfies `P`. -/
def Gives (i : Instr) (s : State) (P : State → Prop) : Prop := ∃ t, exec i s = .next t ∧ P t

/-- The tables of the state have their canonical form (which every step keeps), and the switch die is out of reset. -/
def State.Awake (s : State) : Prop := s.wf ∧ s.ivOn .dieReset = false

/-- No sampler of CORE is on (R348). -/
def State.unsampled (s : State) : Bool := (List.range 16).all fun m => !s.on (.core 0) .CORE_STIPPLE_CFG_EN m

/-- A lossless frame of class `c` that arrives at port `p` for port `q` is admitted at once: CORE admits, nothing waits, no policer
meters it, no sampler is on, and `q` is neither quiesced nor contained (steps 3 and 4 of Table CORE-1). -/
def State.admitsAt (s : State) (p q c : Nat) : Bool :=
  s.waiting.isEmpty && !s.on (.core 0) .BLK_CTRL_QUIESCE && !s.safeHalt && !s.on (.port q) .BLK_CTRL_QUIESCE && !s.portClosed q &&
    !s.lossy c && s.unsampled && !s.on .schedg .SCHED_POL_MAP_EN (8 * p + c)

/-- The frame carries a poisoned TLP. -/
def poisoned (f : Frame) : Bool :=
  match f.body with
  | .tlp t => t.ep
  | _ => false

/-- The families of register pages (Table PAGES-1). -/
inductive Fam where
  | glb | mgmt | sec | guard | lane | pwrg | pwr | core | route | bridge | mbox | port | face | schedg | sched | tenant | inst
  | moverg | eng | ring
deriving DecidableEq, Repr

/-- The family of a page. -/
def Fam.of : Pg → Fam
  | .glb => .glb
  | .mgmt _ => .mgmt
  | .sec _ => .sec
  | .guard _ => .guard
  | .lane _ => .lane
  | .pwrg => .pwrg
  | .pwr _ => .pwr
  | .core _ => .core
  | .route _ => .route
  | .bridge _ => .bridge
  | .mbox _ => .mbox
  | .port _ => .port
  | .face _ => .face
  | .schedg => .schedg
  | .sched _ => .sched
  | .tenant _ => .tenant
  | .inst _ => .inst
  | .moverg => .moverg
  | .eng _ => .eng
  | .ring _ => .ring

/-- The parts of the state beside its tables of registers, counters, numbers and queues. -/
inductive Part where
  | now | arb | greqs | buf | waiting | replay | streams | slots | fwd | prefs | descs | coders | out | free
deriving DecidableEq, Repr

/-- What a command may touch: register fields (of the pages of a family), counters of a family's pages, numbers, queues and
parts. -/
structure Foot where
  regs : List (Fam × Fld) := []
  cnts : List Fam := []
  vars : List Var := []
  fifos : List Fifo := []
  parts : List Part := []
deriving DecidableEq, Repr

/-- What one of two may touch. -/
def Foot.and (F G : Foot) : Foot :=
  ⟨F.regs ++ G.regs, F.cnts ++ G.cnts, F.vars ++ G.vars, F.fifos ++ G.fifos, F.parts ++ G.parts⟩

/-- Register fields of a family's pages. -/
def Foot.fields (k : Fam) (l : List Fld) : Foot := { regs := l.map fun f => (k, f) }

/-- The families of pages with the common header. -/
def headed : List Fam :=
  [.glb, .mgmt, .sec, .guard, .lane, .pwrg, .pwr, .core, .route, .bridge, .mbox, .port, .face, .schedg, .sched, .inst, .moverg, .eng]

/-- Counters of the pages of families. -/
def Foot.counters (l : List Fam) : Foot := { cnts := l }

/-- Numbers. -/
def Foot.numbers (l : List Var) : Foot := { vars := l }

/-- Queues. -/
def Foot.queues (l : List Fifo) : Foot := { fifos := l }

/-- Parts beside the tables. -/
def Foot.others (l : List Part) : Foot := { parts := l }

/-- Fields of the common header, in every page that has it. -/
def Foot.headers (l : List Fld) : Foot := { regs := headed.flatMap fun k => l.map fun f => (k, f) }

/-- An interrupt to a face: the message, noted for a flush read behind it, or its pending bit, and the face's message counter (R63,
R67, R277, R295). -/
def Foot.interrupt : Foot :=
  { regs := [(.face, .CNT_STAT_SAT), (.face, .INT_CAUSE_CNT_SAT)], cnts := [.face], vars := [.msixPend],
    fifos := [.faceWrote, .viWrote], parts := [.out] }

/-- An interrupt by a block cause of a page. -/
def Foot.cause (k : Fam) : Foot := Foot.interrupt.and (Foot.fields k [.INT_CAUSE_BLK_INT])

/-- Counting on a page: the counter, its group's SAT bit, and the interrupt that may make (R66, R67). -/
def Foot.counting (k : Fam) : Foot := Foot.interrupt.and ((Foot.fields k [.CNT_STAT_SAT, .INT_CAUSE_CNT_SAT]).and { cnts := [k] })

/-- The fields of a header that an error touches (R58, R61, R63). -/
def errFields : List Fld :=
  [.ERR_STICKY_BITS, .ERR_FIRST_VALID, .ERR_FIRST_CLASS, .ERR_FIRST_INDEX, .ERR_FIRST_MORE, .ERR_FIRST_TS_TS, .ERR_FIRST_TS_TS_HI,
    .INT_CAUSE_ERR]

/-- A record in the error log, whose loss is an error of GUARD's own (R628, R629). -/
def Foot.log : Foot :=
  (Foot.counting .guard).and <| (Foot.fields .guard (.GUARD_ELOG_CTRL_LOST :: errFields)).and
    { vars := [.elogSeq], fifos := [.elog], parts := [.greqs, .out] }

/-- An error of a page: its header, the error log, a containment request, and the interrupt or message (R58 to R61, R628, R629). -/
def Foot.error (k : Fam) : Foot := Foot.log.and (Foot.fields k errFields)

/-- A granted access: the arbiter's last grant (R78), and the error of a write that the page lock discards, with its stamp (R82,
R53). -/
def Foot.access (k : Fam) : Foot := (Foot.error k).and { vars := [.arbLast, .aerStamp] }

/-! ### Feet of larger changes -/

/-- The containment state of the domains (Table GUARD-2). -/
def Foot.domains : Foot :=
  Foot.fields .guard [.GDS_DEVICE_BY_SW, .GDS_DEVICE_CLASS, .GDS_DEVICE_HOLD, .GDS_DEVICE_MERGED, .GDS_DEVICE_STATE,
    .GDS_DEVICE_WINDOW, .GDS_FACE_BY_SW, .GDS_FACE_CLASS, .GDS_FACE_HOLD, .GDS_FACE_MERGED, .GDS_FACE_STATE,
    .GDS_FACE_WINDOW, .GDS_INST_BY_SW, .GDS_INST_CLASS, .GDS_INST_HOLD, .GDS_INST_MERGED, .GDS_INST_STATE, .GDS_INST_WINDOW,
    .GDS_LANE_BY_SW, .GDS_LANE_CLASS, .GDS_LANE_HOLD, .GDS_LANE_MERGED, .GDS_LANE_STATE, .GDS_LANE_WINDOW, .GDS_LINK_BY_SW,
    .GDS_LINK_CLASS, .GDS_LINK_HOLD, .GDS_LINK_MERGED, .GDS_LINK_STATE, .GDS_LINK_WINDOW, .GDS_PORT_BY_SW, .GDS_PORT_CLASS,
    .GDS_PORT_HOLD, .GDS_PORT_MERGED, .GDS_PORT_STATE, .GDS_PORT_WINDOW]

/-- The presentation of devices to a face, and what a host set up in one that is hidden (R294, R295). -/
def Foot.presentation : Foot :=
  (Foot.error .face).and <| (Foot.fields .face [.FACE_BUS_LIMIT_NEED, .FACE_BUS_LIMIT_NO_BUS, .FACE_PRES_CONFLICT]).and <|
    Foot.numbers [.sizing]

/-- The tracker takes a source's cycle. -/
def Foot.adoption : Foot :=
  Foot.numbers [.acqAt, .acqNum, .cycFirst, .cycFirstLen, .cycFirstNum, .cycLast, .cycNext, .cycNext2, .cycP, .mkRun]

/-- A lane of a port starts, trains or stops. -/
def Foot.training : Foot :=
  (Foot.fields .lane [.LANE_INJ_CTRL_ONE_SHOT, .LANE_RATE_CFG_RATE_NOW, .LANE_REST_CTRL_IN_REST, .LANE_STAT_ALIGN_LOCK,
    .LANE_STAT_CDR_LOCK, .LANE_STAT_EQ_DONE, .LANE_STAT_EQ_FAIL, .LANE_STAT_EXIT_FAIL, .LANE_STAT_FAILED,
    .LANE_STAT_FEC_LOCK, .LANE_STAT_RX_READY, .LANE_STAT_STATE, .LANE_TX_TAPS_C0, .LANE_TX_TAPS_POST,
    .LANE_TX_TAPS_PRE]).and <| (Foot.numbers [.alignMiss, .alignSeen, .badCw, .eqTimeouts, .injAlign, .ownReq,
    .partnerReady, .peerReq, .postStat, .preStat, .presetStat, .rxRest]).and <| Foot.others [.out]

/-- The update of an image slot. -/
def Foot.image : Foot :=
  (Foot.fields .mgmt [.MGMT_IMG_CTRL_ABORT, .MGMT_IMG_CTRL_BUSY, .MGMT_IMG_CTRL_FINISH, .MGMT_IMG_CTRL_INSTALLER,
    .MGMT_IMG_CTRL_KIND, .MGMT_IMG_CTRL_START, .MGMT_IMG_CTRL_STATUS]).and <| Foot.numbers [.dirSeq, .dirSlot, .imgBytes,
    .imgKind, .imgLen, .imgSt, .slotState, .slotTries]

/-- The windows of a face and their commit. -/
def Foot.window : Foot :=
  (Foot.error .face).and <| Foot.fields .face [.FACE_WIN_COMMIT_GO, .FACE_WIN_COMMIT_INDEX, .FACE_WIN_COMMIT_OP,
    .FACE_WIN_COMMIT_STATUS, .FACE_WIN_TAB_BASE, .FACE_WIN_TAB_BASE_HI, .FACE_WIN_TAB_LINK_BAR, .FACE_WIN_TAB_LINK_EN,
    .FACE_WIN_TAB_LINK_PRES, .FACE_WIN_TAB_LOG2, .FACE_WIN_TAB_VALID, .FACE_WIN_TAB_XLAT, .FACE_WIN_TAB_XLAT_HI]

/-- The hatch lists of a port and their state. -/
def Foot.hatch : Foot :=
  (Foot.counting .sched).and <| (Foot.error .sched).and <| (Foot.fields .sched [.SCHED_HATCH_CTRL_ARM,
    .SCHED_HATCH_CTRL_ARM_LIST, .SCHED_HATCH_CTRL_DISARM, .SCHED_HATCH_CTRL_FB_GATES, .SCHED_HATCH_CTRL_FB_MODE,
    .SCHED_HATCH_CTRL_LATE_POLICY, .SCHED_HATCH_CTRL_NEXT, .SCHED_HATCH_CTRL_STATUS, .SCHED_HATCH_STAT_A_STATE,
    .SCHED_HATCH_STAT_B_STATE]).and <| Foot.numbers [.cbsAt, .cbsCr, .guardMiss, .guardOpen, .hatchAt, .hatchLate]

/-- A cut of a channel that a warning precedes. -/
def Foot.warnedCut : Foot :=
  (Foot.fields .pwr [.PWR_CH_STAT_STATE, .PWR_CH_STAT_WARN]).and <| (Foot.numbers [.pwCause, .pwSwitch]).and <|
    Foot.others [.greqs]

/-- Firmware starts again. -/
def Foot.firmware : Foot :=
  (Foot.counting .mbox).and <| (Foot.counting .mgmt).and <| (Foot.error .mgmt).and <|
    (Foot.fields .mgmt [.MGMT_FW_STAT_RESTARTS, .MGMT_FW_STAT_STATE]).and <| (Foot.fields .mbox [.MBOX_SEM_PEEK_HELD,
    .MBOX_SEM_PEEK_OWNER]).and <| (Foot.numbers [.fwEpoch, .fwSel, .fwUnconf]).and <| Foot.queues [.fwTimes]

/-- The state of the phase tracker and of what follows it. -/
def Foot.tracking : Foot :=
  (Foot.counting .sched).and <| (Foot.counting .schedg).and <| (Foot.error .schedg).and <|
    (Foot.fields .schedg [.SCHED_CYC_STAT_HOLD_LEFT, .SCHED_CYC_STAT_STATE]).and <|
    (Foot.fields .sched [.SCHED_HATCH_STAT_ENTRY_NOW]).and <| Foot.numbers [.asSource, .cbsAt, .cbsCr, .cycOut, .cycP,
    .errRun, .guardMiss, .guardOpen]

/-- What an accepted token of any operation may change. -/
def Foot.token : Foot :=
  (Foot.error .sec).and <| (Foot.headers [.PAGE_LOCK_LOCK_GEN, .PAGE_LOCK_LOCKED]).and <|
    (Foot.fields .sec [.SEC_DEBUG_STATE, .SEC_GRANT_MASK]).and <| (Foot.numbers [.ownKey, .ownRec, .sigStale, .tokRes]).and
    <| Foot.others [.arb]

/-- A frame enters CORE: sampling, policing, cells, proofs, RED and the errors of them. -/
def Foot.admission : Foot :=
  (Foot.counting .bridge).and <| (Foot.counting .core).and <| (Foot.counting .route).and <| (Foot.counting .schedg).and <|
    (Foot.error .bridge).and <| (Foot.error .route).and <| (Foot.fields .core [.CORE_WM_STAT_WM_CROSS_CNT,
    .CORE_WM_STAT_WM_EVENT, .CORE_WM_STAT_WM_LEVEL]).and <| (Foot.fields .bridge [.BRIDGE_LOCK_STAT_HOLDER,
    .BRIDGE_LOCK_STAT_LOCKED, .BRIDGE_PROOF_WM_STAT_WM_CROSS_CNT, .BRIDGE_PROOF_WM_STAT_WM_EVENT,
    .BRIDGE_PROOF_WM_STAT_WM_LEVEL]).and <| (Foot.numbers [.cbsAt, .cbsCr, .pktId, .polAt, .polC, .polP, .redAvg, .stipCnt,
    .stipSeq]).and <| (Foot.queues [.missLog]).and <| Foot.others [.buf, .free, .streams, .waiting]

/-- A frame enters CORE for a destination: the admission, a miss, and the answers to a request that cannot go on. -/
def Foot.delivery : Foot :=
  Foot.admission.and <| (Foot.counting .sec).and <| (Foot.error .face).and <| (Foot.error .sec).and <|
    (Foot.numbers [.lockDest, .pcieSent, .tagEp]).and <| Foot.others [.prefs, .slots]

/-- A completion meets its slot at a face. -/
def Foot.completion : Foot :=
  Foot.admission.and <| (Foot.error .face).and <| (Foot.numbers [.lockDest, .pcieSent, .tagEp]).and <| Foot.others [.prefs,
    .slots]

/-- The reset of an instance. -/
def Foot.instanceReset : Foot :=
  Foot.delivery.and <| (Foot.counting .eng).and <| (Foot.error .moverg).and <| (Foot.fields .inst [.INST_STAT_FENCED,
    .INST_STAT_FLUSH_TO, .INST_STAT_RESETTING, .INST_STAT_TDI]).and <| (Foot.fields .ring [.MOVER_RING_STAT_STATE]).and <|
    (Foot.numbers [.fetchN, .fetchTag, .stopWaits]).and <| (Foot.queues [.flushTodo]).and <| Foot.others [.descs]

/-- A change of a link's state with what a loss of the link ends. -/
def Foot.linkState : Foot :=
  Foot.training.and <| (Foot.counting .core).and <| (Foot.error .core).and <| (Foot.fields .sec [.SEC_IDE_STAT_DEV_AUTH,
    .SEC_IDE_STAT_LINK_ID, .SEC_IDE_STAT_LINK_KSET, .SEC_IDE_STAT_LINK_SECURE, .SEC_IDE_STAT_SEL_SECURE,
    .SEC_IDE_STAT_SEL_VALID, .SEC_LINK_STAT_AUTH_OK, .SEC_LINK_STAT_AUTH_STATUS, .SEC_LINK_STAT_PARTNER_DEBUG,
    .SEC_LINK_STAT_REKEY, .SEC_LINK_STAT_REKEYS]).and <| (Foot.fields .core [.CORE_WM_STAT_WM_CROSS_CNT,
    .CORE_WM_STAT_WM_EVENT, .CORE_WM_STAT_WM_LEVEL]).and <| (Foot.fields .bridge [.BRIDGE_FAB_NBR_PARTNER_PORT,
    .BRIDGE_FAB_NBR_PARTNER_SW, .BRIDGE_FAB_NBR_VALID]).and <| (Foot.fields .port [.PORT_LINK_STAT_ENC,
    .PORT_LINK_STAT_FLIT, .PORT_LINK_STAT_KEY_PHASE, .PORT_LINK_STAT_LANES_GOOD, .PORT_LINK_STAT_RATE_NOW,
    .PORT_LINK_STAT_STATE, .PORT_LINK_STAT_WIDTH_NOW, .PORT_REPLAY_CNT_CONSEC]).and <| (Foot.fields .face [.FACE_BIND_STATE,
    .FACE_PM_STAT_LINK_PM]).and <| (Foot.numbers [.authDebug, .authStep, .crAdv, .crInit, .crUsed, .ideGo, .ideKey, .lsSeen,
    .mkDue, .mkRx, .mkTx, .nakSent, .nextKey, .paramGot, .paramVal, .partnerAspm, .partnerMax, .partnerRest, .pcieAcked,
    .pcieRev, .pcieSent, .rekeying, .replayAt, .restHeld, .restPend, .restSince, .rxKey, .rxNum, .rxSeq, .rxUnacked,
    .skewCnt, .txCount, .txKey, .txLimit, .txNum, .txSeq, .txUsed, .wcDone, .wcFrom, .wcId, .wcOldWidth, .wcSet,
    .widening]).and <| Foot.others [.buf, .replay, .streams, .waiting]

/-- A replay, and the retrain that its failure makes. -/
def Foot.replay : Foot :=
  Foot.linkState.and <| (Foot.counting .port).and <| Foot.error .port

/-- A cut of a channel, and the quiesce that precedes a warned one. -/
def Foot.feedCut : Foot :=
  Foot.warnedCut.and <| (Foot.counting .pwr).and <| (Foot.error .pwr).and <| (Foot.fields .pwr [.BLK_CTRL_QUIESCE,
    .BLK_CTRL_SOFT_RESET, .BLK_STAT_QUIESCED, .BLK_STAT_READY, .CNT_CLR_CLR, .CNT_HI_HIGH, .CNT_LO_LOW, .INT_CAUSE_BLK_INT,
    .INT_EN_BLK_INT, .INT_EN_CNT_SAT, .INT_EN_ERR, .INT_ROUTE_FACE, .INT_ROUTE_TARGET, .INT_ROUTE_VECTOR,
    .PWR_CH_CFG_BIND_EN, .PWR_CH_CFG_CLEAR, .PWR_CH_CFG_EN, .PWR_CH_CFG_INS_DELAY, .PWR_CH_CFG_PORT, .PWR_CH_CFG_WARN_LEAD,
    .PWR_CH_STAT_ACTIVE_B, .PWR_CH_STAT_A_OK, .PWR_CH_STAT_B_OK, .PWR_CH_STAT_LAST_CUT, .PWR_CH_STAT_LIMIT, .PWR_CH_STAT_PG,
    .PWR_CH_STAT_RETRIES_LEFT, .PWR_CH_STAT_REV_BLOCK, .PWR_CH_STAT_SEATED, .PWR_FAULT_TIMER_RETRY_COUNT,
    .PWR_FAULT_TIMER_TIMER, .PWR_FEED_SEL_DEAD_US, .PWR_FEED_SEL_FEED_A_EN, .PWR_FEED_SEL_FEED_B_EN, .PWR_FEED_SEL_FORCE,
    .PWR_FEED_SEL_PRIO, .PWR_FEED_SEL_REVERT, .PWR_FEED_SEL_WARN_ON_SWITCH, .PWR_LIMIT_ILIM, .PWR_LIMIT_RAMP,
    .PWR_LIMIT_TFET_MAX, .PWR_SNAP_CYCLE, .PWR_SNAP_IOUT, .PWR_SNAP_IPEAK, .PWR_SNAP_TFET, .PWR_SNAP_VFA, .PWR_SNAP_VFB,
    .PWR_SNAP_VOUT, .PWR_TELEM_IOUT, .PWR_TELEM_IPEAK, .PWR_TELEM_TFET, .PWR_TELEM_VFA, .PWR_TELEM_VFB, .PWR_TELEM_VOUT,
    .PWR_UVOV_OV, .PWR_UVOV_UV]).and <| Foot.numbers [.pwDead, .pwEnergy, .pwFault, .pwIdle, .pwReset]

/-- A descriptor ends with an error. -/
def Foot.descriptor : Foot :=
  Foot.delivery.and <| (Foot.counting .eng).and <| (Foot.error .core).and <| (Foot.error .moverg).and <|
    (Foot.fields .ring [.MOVER_RING_CPL_TAIL_CPL_TAIL, .MOVER_RING_CPL_TAIL_PHASE, .MOVER_RING_HEAD_HEAD,
    .MOVER_RING_STAT_LAST_INDEX, .MOVER_RING_STAT_LAST_STATUS, .MOVER_RING_STAT_STATE]).and <| (Foot.numbers [.coalDue,
    .coalOn, .fetchAt, .fetchN, .fetchTag]).and <| (Foot.queues [.cplFifo, .ringWrote]).and <| Foot.others [.descs]

/-- The reset of a face. -/
def Foot.faceCleared : Foot :=
  Foot.descriptor.and <| Foot.instanceReset.and <| Foot.linkState.and <| Foot.presentation.and <| Foot.window.and <|
    (Foot.counting .mbox).and <| (Foot.fields .mbox [.MBOX_SEM_PEEK_HELD, .MBOX_SEM_PEEK_OWNER]).and <|
    (Foot.fields .face [.BLK_CTRL_SOFT_RESET, .CNT_CLR_CLR, .CNT_HI_HIGH, .CNT_LO_LOW, .FACE_FLR_STAT_BUSY,
    .FACE_FLR_STAT_DONE, .FACE_FLR_STAT_TIME_US, .FACE_PM_STAT_FWAKE, .FACE_PM_STAT_PME_EN, .FACE_PM_STAT_PME_STATUS,
    .FACE_PM_STAT_SE_D, .FACE_PM_STAT_USP_D, .FACE_PRES_SHOWN, .FACE_TAG_CTRL_REQ_WIDTH, .FACE_WIN_BASE_ADDR,
    .FACE_WIN_BASE_ADDR_HI, .FACE_WIN_SIZE_LINK_BAR, .FACE_WIN_SIZE_LINK_EN, .FACE_WIN_SIZE_LINK_PRES, .FACE_WIN_SIZE_LOG2,
    .FACE_WIN_TAB_ACTIVE, .FACE_WIN_XLAT_ADDR, .FACE_WIN_XLAT_ADDR_HI]).and <| (Foot.fields .ring [.MOVER_RING_BASE_ADDR,
    .MOVER_RING_BASE_ADDR_HI, .MOVER_RING_CFG_ENABLE, .MOVER_RING_CFG_ENGINE, .MOVER_RING_CFG_KIND, .MOVER_RING_CFG_OWNER,
    .MOVER_RING_CFG_OWN_KIND, .MOVER_RING_CFG_SIZE_LOG2, .MOVER_RING_CFG_STOP_ON_ERR, .MOVER_RING_CPL_BASE_ADDR,
    .MOVER_RING_CPL_BASE_ADDR_HI, .MOVER_RING_CPL_CTRL_COAL_US, .MOVER_RING_CPL_CTRL_IRQ_EN, .MOVER_RING_CPL_CTRL_MODE,
    .MOVER_RING_CPL_CTRL_VECTOR, .MOVER_RING_CPL_FIFO_DW, .MOVER_RING_CPL_HEAD_CPL_HEAD, .MOVER_RING_STAT_RESUME,
    .MOVER_RING_TAIL_TAIL]).and <| Foot.numbers [.aspm, .bme, .bridgeCtl, .bridgeD3, .faceEpoch, .linkDis, .meDef, .memWin,
    .mse, .msixAddr, .msixData, .msixEnable, .msixFnMask, .msixOpen, .pmeOff, .prefBase, .prefLimit, .prefWin, .presBar,
    .presBarSet, .presBase, .presCmd, .presInfo, .presRom, .priBus, .ptmCount, .ptmEnable, .rehome, .seBar, .seBusMaster,
    .seMps, .seMrrs, .seMse, .sePasid, .seTags, .secBus, .slotCtl, .slotStat, .subBus, .uspMps, .win]

/-- Binding and unbinding an instance. -/
def Foot.instanceBind : Foot :=
  Foot.instanceReset.and <| (Foot.counting .inst).and <| (Foot.error .inst).and <| (Foot.fields .inst [.INST_BIND_CFG0_FACE,
    .INST_BIND_CFG0_PASID, .INST_BIND_CFG1_FEID, .INST_BIND_CFG1_POLICER, .INST_BIND_CFG1_POL_EN, .INST_BIND_CFG2_TAG_MAX,
    .INST_BIND_CFG2_VEC_BASE, .INST_BIND_CFG2_VEC_LOG2, .INST_BIND_GO, .INST_BIND_OP, .INST_BIND_STATUS, .INST_BIND_VI,
    .INST_STAT_BOUND, .INST_STAT_FACE, .INST_VI_CFG_CFG0_FACE, .INST_VI_CFG_CFG0_PASID, .INST_VI_CFG_CFG1_FEID,
    .INST_VI_CFG_CFG1_POLICER, .INST_VI_CFG_CFG1_POL_EN, .INST_VI_CFG_CFG2_TAG_MAX, .INST_VI_CFG_CFG2_VEC_BASE,
    .INST_VI_CFG_CFG2_VEC_LOG2]).and <| Foot.numbers [.unbindBy, .viSlot]

/-- The part enters Safe Halt. -/
def Foot.safeHalt : Foot :=
  Foot.delivery.and <| Foot.domains.and <| Foot.linkState.and <| (Foot.fields .glb [.GLB_DEV_STATE_STATE]).and <|
    (Foot.fields .guard [.GUARD_HALT_CAUSE_BIT, .GUARD_HALT_CAUSE_BLOCK, .GUARD_HALT_CAUSE_CAUSE, .GUARD_HALT_CAUSE_DINST,
    .GUARD_HALT_CAUSE_VALID]).and <| (Foot.fields .route [.ROUTE_TURN_CTRL_ARM, .ROUTE_TURN_CTRL_STATUS]).and <|
    (Foot.fields .face [.FACE_PRES_SHOWN]).and <| (Foot.fields .sched [.SCHED_HATCH_CTRL_ARM, .SCHED_HATCH_STAT_A_STATE,
    .SCHED_HATCH_STAT_B_STATE]).and <| (Foot.numbers [.haltRel, .hatchAt, .hatchLate, .portFenced, .presBar, .presBarSet,
    .presBase, .presCmd, .presInfo, .presRom, .sizing, .slotCtl, .slotStat, .turnAt]).and <| Foot.others [.fwd]

/-- The recovery of a domain. -/
def Foot.recovery : Foot :=
  Foot.domains.and <| Foot.faceCleared.and <| (Foot.fields .port [.BLK_CTRL_QUIESCE, .BLK_STAT_QUIESCED]).and <|
    Foot.numbers [.devReset, .guardBack]

/-! ### What a command leaves -/

/-- `t` differs from `s` only in what `F` lists: every other register field of every page (with its copies per stamp), every other
counter, number and queue, and every other part is as it was; and so is the queue of commands. -/
structure Within (F : Foot) (s t : State) : Prop where
  regs : ∀ pg f i, f ∈ pg.fields → (Fam.of pg, f) ∉ F.regs → t.rd pg f i = s.rd pg f i
  stamps : ∀ st pg f i, f ∈ pg.fields → (Fam.of pg, f) ∉ F.regs → t.rdSt st pg f i = s.rdSt st pg f i
  cnts : ∀ pg i, Fam.of pg ∉ F.cnts → t.cnt pg i = s.cnt pg i
  ivs : ∀ x i, x ∉ F.vars → t.iv x i = s.iv x i
  fifos : ∀ q i, q ∉ F.fifos → t.fifo q i = s.fifo q i
  now : .now ∉ F.parts → t.now = s.now
  arb : .arb ∉ F.parts → t.arb = s.arb
  greqs : .greqs ∉ F.parts → t.greqs = s.greqs
  buf : .buf ∉ F.parts → t.buf = s.buf
  waiting : .waiting ∉ F.parts → t.waiting = s.waiting
  replay : .replay ∉ F.parts → t.replay = s.replay
  streams : .streams ∉ F.parts → t.txs = s.txs ∧ t.rxs = s.rxs
  slots : .slots ∉ F.parts → t.slots = s.slots
  fwd : .fwd ∉ F.parts → t.fwd = s.fwd
  prefs : .prefs ∉ F.parts → t.prefs = s.prefs
  descs : .descs ∉ F.parts → t.descs = s.descs
  coders : .coders ∉ F.parts → t.coders = s.coders
  out : .out ∉ F.parts → t.out = s.out
  free : .free ∉ F.parts → t.free = s.free
  pending : t.pending = s.pending

/-- Command `i` at `s` touches only what `F` lists. -/
def Stays (i : Instr) (s : State) (F : Foot) : Prop := ∀ t, exec i s = .next t → Within F s t

/-- Every page of the same kind as `x` but `x` itself keeps its register fields, those of each stamp, and its counters. -/
structure Alone (x : Pg) (s t : State) : Prop where
  regs : ∀ pg f i, Fam.of pg = Fam.of x → pg ≠ x → f ∈ pg.fields → t.rd pg f i = s.rd pg f i
  stamps : ∀ st pg f i, Fam.of pg = Fam.of x → pg ≠ x → f ∈ pg.fields → t.rdSt st pg f i = s.rdSt st pg f i
  cnts : ∀ pg i, Fam.of pg = Fam.of x → pg ≠ x → t.cnt pg i = s.cnt pg i

/-- Of the pages of its kind, command `i` at `s` touches `x` alone. -/
def Spares (i : Instr) (s : State) (x : Pg) : Prop := ∀ t, exec i s = .next t → Alone x s t

end Sys2Proof.Machine
end

