-- ==== Sys2Proof/Certificates/Slice0/Obligations.lean ====
section
/-! DEFINITION. The statements for the provers. A statement about commands says, for each of them, where it completes and what the
next state holds; frames say what a group of commands leaves as it was; the rest holds of every command and every step. -/

open Sys2Proof Sys2Proof.Machine

/-- R41, R43, R45 to R53, R66 to R75, R82, R95, R273: accesses, byte enables, locks, upper-commit registers, counter and
FIFO reads, BAR0. An unmapped read and a read of a bad length have the answer of R41 and of R46 as their own effect. -/
def Obligations.AccessesComplete : Prop :=
  ∀ s : State, s.Awake →
  (∀ (st : Stamp) (x : Target) (v w : Word), (s.placeOf st x 0).upper = false → s.accErrs x 0 (s.placeOf st x 0) true
    = [] → s.pathOpen st = true → Gives (.registerWrite st x 1 true false v w) s fun t => t = (placeWrite st
    (s.placeOf st x 0) true false v.toNat).run s) ∧
  (∀ (st : Stamp) (x : Target) (v w : Word) (u : State), badLength x 2 = false → (s.placeOf st x 0).upper = false →
    s.accErrs x 0 (s.placeOf st x 0) true = [] → u = (placeWrite st (s.placeOf st x 0) true false v.toNat).run s →
    (u.placeOf st x 1).upper = false → u.accErrs x 1 (u.placeOf st x 1) true = [] → u.pathOpen st = true → Gives
    (.registerWrite st x 2 true false v w) s fun t => t = (placeWrite st (u.placeOf st x 1) true false w.toNat).run u)
    ∧
  (∀ (st : Stamp) (x : Target) (v w : Word) (pg : Pg) (off : Nat) (tenant : Bool) (e : Pg) (f : Fld) (i : Nat),
    s.placeOf st x 0 = ⟨.reg pg off tenant, e⟩ → upperOf pg off = none → s.locked pg = false → regEffect st pg off
    tenant v.toNat = plainWrite st pg off v.toNat → (f, i) ∈ fieldsAt pg off → f.ty = .rw → f.perStamp = false →
    s.pathOpen st = true → Gives (.registerWrite st x 1 true false v w) s fun t => t.rd pg f i = f.of v.toNat ∧ t.out
    = s.out) ∧
  (∀ (st : Stamp) (x : Target) (full : Bool) (v w : Word) (e : Err), (s.placeOf st x 0).upper = false → e ∈ s.accErrs
    x 0 (s.placeOf st x 0) full → s.pathOpen st = true → Gives (.registerWrite st x 1 full false v w) s fun t => (t.rd
    (s.placeOf st x 0).err .ERR_STICKY_BITS).testBit e.bit = true ∧ t.stampRegs = s.stampRegs ∧ t.txs = s.txs ∧ t.buf
    = s.buf) ∧
  (∀ (st : Stamp) (x : Target) (full : Bool) (v w : Word), (s.placeOf st x 0).upper = false → (s.accErrs x 0
    (s.placeOf st x 0) full).any (· != .ACC_UNMAPPED) = true → st ∈ [.fw0, .fw1, .sb, .dbg] → s.pathOpen st = true →
    Gives (.registerWrite st x 1 full false v w) s fun t => t.out.head? = some (Out.busError st)) ∧
  (∀ (f : FaceId) (x : Target) (full : Bool) (v w : Word), (s.placeOf (.face f) x 0).upper = false → (s.accErrs x 0
    (s.placeOf (.face f) x 0) full).any (· != .ACC_UNMAPPED) = true → s.rd (s.placeOf (.face f) x 0).err
    .ERR_MASK_MASK = 0 → Gives (.registerWrite (.face f) x 1 full false v w) s fun t => t.out.head? = some (Out.aer f
    .service .completerAbort) ∧ t.iv .aerStamp f = 1 + f) ∧
  (∀ (st : Stamp) (x : Target) (v w : Word), (s.placeOf st x 0).upper = false → st ∈ [.fw0, .fw1, .sb, .dbg] →
    s.accErrs x 0 (s.placeOf st x 0) true = [] → s.pathOpen st = true → Gives (.registerWrite st x 1 true true v w) s
    fun t => t.regs = s.regs ∧ t.stampRegs = s.stampRegs ∧ t.out = Out.busError st :: s.out) ∧
  (∀ (x : Target) (n : Nat) (full ep : Bool) (v w : Word), s.rd (.sec 0) .SEC_DEBUG_STATE ≠ dbUNLOCKED → Gives
    (.registerWrite .dbg x n full ep v w) s fun t => t = s) ∧
  (∀ (st : Stamp) (x : Target), (s.placeOf st x 0).site = .nowhere → s.pathOpen st = true → Gives (.unmappedRead st x)
    s fun t => t.out.head? = some (Out.value st 0) ∧ (t.rd (s.placeOf st x 0).err .ERR_STICKY_BITS).testBit
    Err.ACC_UNMAPPED.bit = true ∧ t.buf = s.buf ∧ t.stampRegs = s.stampRegs) ∧
  (∀ (st : Stamp) (x : Target) (n : Nat), badLength x n = true → s.pathOpen st = true → Gives (.badLengthRead st x n)
    s fun t => t.out.head? = some (Out.ca st) ∧ (t.rd (s.placeOf st x 0).err .ERR_STICKY_BITS).testBit Err.ACC_LEN.bit
    = true ∧ t.buf = s.buf ∧ t.stampRegs = s.stampRegs) ∧
  (∀ (st : Stamp) (a : SpaceAddr) (v : Word) (pg e : Pg) (off low : Nat) (tenant : Bool), s.spaceAt (a.toNat - a.toNat
    % 4) = ⟨.reg pg off tenant, e⟩ → upperOf pg off = some low → off ≠ low → s.locked pg = false → (s.iv .upperLow
    (upperIdx st pg low)) ≠ 0 → (s.iv .upperLow (upperIdx st pg low)).testBit 32 = false → (s.iv .upperLow (upperIdx
    st pg low)).testBit 34 = false → s.pathOpen st = true → Gives (.upperCommitWrite st a true v) s fun t => t =
    (upperEffect st pg low v.toNat ((s.iv .upperLow (upperIdx st pg low)) % 2 ^ 32)).run ((all [grant st pg, upperDrop
    st pg low]).run s)) ∧
  (∀ (st : Stamp) (a : SpaceAddr) (v : Word) (pg e : Pg) (off low : Nat) (tenant : Bool), s.spaceAt (a.toNat - a.toNat
    % 4) = ⟨.reg pg off tenant, e⟩ → upperOf pg off = some low → off ≠ low → s.locked pg = false → (s.iv .upperLow
    (upperIdx st pg low)) = 0 → s.pathOpen st = true → Gives (.upperCommitWrite st a true v) s fun t => t =
    (upperEffect st pg low v.toNat (s.dwordAt pg low)).run ((all [grant st pg, upperDrop st pg low]).run s)) ∧
  (∀ (st : Stamp) (a : SpaceAddr) (v : Word), a = 0x2000134 → s.locked .schedg = false → (s.iv .upperLow (upperIdx st
    .schedg 0x130)) ≠ 0 → (s.iv .upperLow (upperIdx st .schedg 0x130)).testBit 32 = false → (s.iv .upperLow (upperIdx
    st .schedg 0x130)).testBit 34 = false → s.pathOpen st = true → Gives (.upperCommitWrite st a true v) s fun t =>
    t.rd .schedg .SCHED_CYC_INIT_CYCLE = (s.iv .upperLow (upperIdx st .schedg 0x130)) % 2 ^ 32 ∧ t.rd .schedg
    .SCHED_CYC_INIT_CYCLE_HI = v.toNat % 2 ^ 16 ∧ t.iv .upperLow (upperIdx st .schedg 0x130) = 0) ∧
  (∀ (st : Stamp) (a : SpaceAddr) (v : Word) (pg e : Pg) (off low : Nat) (tenant : Bool), s.spaceAt (a.toNat - a.toNat
    % 4) = ⟨.reg pg off tenant, e⟩ → upperOf pg off = some low → off ≠ low → s.pathOpen st = true → Gives
    (.upperCommitWrite st a false v) s fun t => (t.rd e .ERR_STICKY_BITS).testBit Err.ACC_PARTIAL.bit = true ∧ t.iv
    .upperLow (upperIdx st pg low) = 0) ∧
  (∀ (f : FaceId) (a : SpaceAddr) (v w : Word), s.seAwake f = true → s.granted? f = true → s.device ≠ dvROM_RECOVERY →
    (s.placeOf (.face f) (.space a) 0).upper = false → s.accErrs (.space a) 0 (s.placeOf (.face f) (.space a) 0) true
    = [] → Gives (.bar0Request f true a 1 true false v w) s fun t => t = (placeWrite (.face f) (s.placeOf (.face f)
    (.space a) 0) true false v.toNat).run s) ∧
  (∀ (f : FaceId) (a : SpaceAddr) (full : Bool) (v w : Word), s.seAwake f = true → s.granted? f = true → s.device ≠
    dvROM_RECOVERY → Gives (.bar0Request f false a 1 full false v w) s fun t => t = (placeRead (.face f) (s.placeOf
    (.face f) (.space a) 0) full).run s) ∧
  (∀ (f : FaceId) (a : SpaceAddr) (n : Nat) (v w : Word), s.seAwake f = true → s.granted? f = false → Gives
    (.bar0Request f false a n true false v w) s fun t => t.out.head? = some (Out.ur f) ∧ (t.rd (.face f)
    .ERR_STICKY_BITS).testBit Err.FACE_BAR0_NO_GRANT.bit = true) ∧
  (∀ (st : Stamp) (pg : Pg), pg.ok = true → pg.common = true → s.pathOpen st = true → Gives (.counterLowRead st pg
    true) s fun t => t.out = Out.value st (s.selCnt st pg % 2 ^ 32) :: s.out) ∧
  (∀ (st : Stamp) (pg : Pg), pg.ok = true → pg.common = true → (cntGroup pg (s.rdSt st.code pg .CNT_SEL_INDEX)).isSome
    = true → s.pathOpen st = true → Gives (.counterLowRead st pg true) s fun t => t.rdSt st.code pg .CNT_HI_HIGH =
    bits (s.selCnt st pg) 47 32) ∧
  (∀ (st : Stamp), s.pathOpen st = true → Gives (.directCounterRead st .fabTime true) s fun t => t.out = Out.value st
    (s.now % 2 ^ 32) :: s.out ∧ t.rdSt st.code .schedg .SCHED_FAB_TIME_TIME_HI = bits s.now 63 32) ∧
  (∀ (st : Stamp), s.pathOpen st = true → Gives (.directCounterRead st .cycNum true) s fun t => t.out = Out.value st
    (s.cycleNum % 2 ^ 32) :: s.out ∧ t.rdSt st.code .schedg .SCHED_CYC_NUM_CYCLE_HI = bits s.cycleNum 47 32) ∧
  (∀ (st : Stamp) (l : LaneId), s.pathOpen st = true → Gives (.directCounterRead st (.prbsErr l) true) s fun t =>
    t.out = Out.value st (s.cnt (.lane (l / 8)) (0x8000 + 2 * (l % 8)) % 2 ^ 32) :: s.out ∧ t.rdSt st.code (.lane (l /
    8)) .LANE_PRBS_ERR_HIGH (l % 8) = bits (s.cnt (.lane (l / 8)) (0x8000 + 2 * (l % 8))) 47 32) ∧
  (∀ (st : Stamp) (c : ChanId), s.pathOpen st = true → Gives (.readClear st c true) s fun t => t.out = Out.value st
    (s.stored? st (.pwr c) 0x128) :: s.out ∧ t.rd (.pwr c) .PWR_TELEM_IPEAK = 0) ∧
  (∀ (st : Stamp) (c : ChanId), s.pathOpen st = true → Gives (.readClear st c false) s fun t => t.out = Out.value st
    (s.stored? st (.pwr c) 0x128) :: s.out ∧ t.rd (.pwr c) .PWR_TELEM_IPEAK = s.rd (.pwr c) .PWR_TELEM_IPEAK) ∧
  (∀ (st : Stamp) (x : Nat) (r : List Nat), s.fifo .elog = x :: r → s.pathOpen st = true → Gives (.fifoPop st .elog
    true) s fun t => t.fifo .elog = r ∧ t.fifo .held (64 * fwELOG + st.code) = [x] ∧ t.out = Out.value st (dword x 0)
    :: s.out) ∧
  (∀ (st : Stamp) (n : RingId) (x : Nat) (r : List Nat), s.fifo .cplFifo n = x :: r → s.pathOpen st = true → Gives
    (.fifoPop st (.cpl n) true) s fun t => t.fifo .cplFifo n = r ∧ t.out = Out.value st (dword x 0) :: s.out) ∧
  (∀ (st : Stamp), s.pathOpen st = true → Gives (.fifoPop st .missLog false) s fun t => t.fifo .missLog = s.fifo
    .missLog)

/-- R54 to R57, R62, R63, R66, R717: BLK_CTRL, BLK_STAT, INT_CAUSE, INT_EN, CNT_CLR. -/
def Obligations.HeadersComplete : Prop :=
  ∀ s : State, s.Awake →
  (∀ (st : Stamp) (pg : Pg) (v : Word), pg.ok = true → pg.common = true → ctrlPage pg = pg → pg.block ≠ 0 → pg.block ≠
    2 → pg.block ≠ 3 → s.locked pg = false → s.on pg .BLK_CTRL_SOFT_RESET = false → v.getLsbD 2 = true → s.pathOpen st
    = true → Gives (.blockSoftReset st pg v) s fun t => t.rd pg .BLK_CTRL_SOFT_RESET = 1 ∧ t.rd pg .BLK_STAT_READY =
    0) ∧
  (∀ (st : Stamp) (pg : Pg) (v : Word), pg.ok = true → pg.common = true → ctrlPage pg = pg → s.locked pg = true → st =
    .dbg → s.pathOpen st = true → Gives (.blockSoftReset st pg v) s fun t => t.rd pg .BLK_CTRL_SOFT_RESET = s.rd pg
    .BLK_CTRL_SOFT_RESET ∧ (t.rd pg .ERR_STICKY_BITS).testBit Err.ACC_LOCKED.bit = true ∧ t.out.head? = some
    (Out.busError st)) ∧
  (∀ (pg : Pg), pg.ok = true → pg.common = true → s.on pg .BLK_CTRL_SOFT_RESET = true → s.resetRuns pg = false → s.on
    pg .BLK_CTRL_QUIESCE = false → Gives (.blockSoftResetDone pg) s fun t => t.rd pg .BLK_CTRL_SOFT_RESET = 0 ∧ t.rd
    pg .BLK_STAT_READY = 1) ∧
  (∀ (st : Stamp) (pg : Pg) (v : Word), pg.ok = true → pg.common = true → ctrlPage pg = pg → s.locked pg = false →
    s.on pg .BLK_CTRL_SOFT_RESET = false → s.on pg .BLK_CTRL_QUIESCE = false → v.getLsbD 1 = true → v.getLsbD 2 =
    false → s.pathOpen st = true → Gives (.blockQuiesce st pg v) s fun t => t.rd pg .BLK_CTRL_QUIESCE = 1 ∧ t.rd pg
    .BLK_CTRL_ENABLE = b2n (v.getLsbD 0) ∧ t.rd pg .BLK_CTRL_SOFT_RESET = 0) ∧
  (∀ (st : Stamp) (p : PortId) (v : Word), s.locked (.port p) = false → s.on (.port p) .BLK_CTRL_SOFT_RESET = false →
    s.on (.port p) .BLK_CTRL_QUIESCE = false → v.getLsbD 1 = true → v.getLsbD 2 = false → s.pathOpen st = true → Gives
    (.blockQuiesce st (.port p) v) s fun t => t.rd (.port p) .BLK_STAT_QUIESCED = b2n (s.idle (.port p))) ∧
  (∀ (pg : Pg), pg.ok = true → pg.common = true → ctrlPage pg = pg → s.on pg .BLK_CTRL_QUIESCE = true → s.on pg
    .BLK_STAT_QUIESCED = false → s.on pg .BLK_CTRL_SOFT_RESET = false → s.idle pg = true → Gives (.quiesceDrained pg)
    s fun t => t.rd pg .BLK_STAT_QUIESCED = 1 ∧ t.rd pg .BLK_CTRL_QUIESCE = 1) ∧
  (∀ (st : Stamp) (pg : Pg) (v : Word), pg.ok = true → pg.common = true → s.pathOpen st = true → Gives (.intCauseWrite
    st pg false v) s fun t => t.rd pg .INT_CAUSE_BLK_INT = clearBits (s.rd pg .INT_CAUSE_BLK_INT) (v.toNat % 2 ^ 28) ∧
    t.rd pg .INT_CAUSE_ERR = clearBits (s.rd pg .INT_CAUSE_ERR) (b2n (v.getLsbD 31)) ∧ t.rd pg .INT_EN_BLK_INT = s.rd
    pg .INT_EN_BLK_INT) ∧
  (∀ (st : Stamp) (pg : Pg) (v : Word), pg.ok = true → pg.common = true → s.locked pg = false → s.pathOpen st = true →
    Gives (.intCauseWrite st pg true v) s fun t => t.rd pg .INT_EN_BLK_INT = v.toNat % 2 ^ 28 ∧ t.rd pg .INT_EN_ERR =
    b2n (v.getLsbD 31) ∧ t.rd pg .INT_CAUSE_BLK_INT = s.rd pg .INT_CAUSE_BLK_INT) ∧
  (∀ (st : Stamp) (pg : Pg) (v : Word) (i g : Nat), pg.ok = true → pg.common = true → s.locked pg = false → cntGroup
    pg i = some g → v.getLsbD g = true → s.pathOpen st = true → Gives (.counterClear st pg v) s fun t => t.cnt pg i =
    0 ∧ t.rd pg .CNT_STAT_SAT = clearBits (s.rd pg .CNT_STAT_SAT) v.toNat) ∧
  (∀ (st : Stamp) (pg : Pg) (v : Word) (i g : Nat), pg.ok = true → pg.common = true → s.locked pg = false → cntGroup
    pg i = some g → v.getLsbD g = false → s.pathOpen st = true → Gives (.counterClear st pg v) s fun t => t.cnt pg i =
    s.cnt pg i)

/-- R99 to R105, R125 to R134, R141, R158 to R161: resets, their causes, wake. -/
def Obligations.ResetsComplete : Prop :=
  ∀ s : State, s.wf →
  (s.ivOn .noVkeep = true → Gives (.vkeepRise) s fun t => t.iv .noVkeep = 0) ∧
  (Gives (.vkeepLoss) s fun t => t.iv .dieReset = drCOLD ∧ t.iv .noVkeep = 1 ∧ t.rd .glb .GLB_RESET_CAUSE_LAST =
    rcVKEEP ∧ t.rd .glb .GLB_RESET_CAUSE_COLD_VKEEP = 1 ∧ t.buf = [] ∧ t.slots = [] ∧ t.cnts = [] ∧ t.arb = s.arb) ∧
  (∀ (c : ChanId), s.iv .dieReset = 0 → Gives (.railLoss) s fun t => t.iv .dieReset = drCOLD ∧ t.rd .glb
    .GLB_RESET_CAUSE_LAST = rcRAIL ∧ t.rd .glb .GLB_RESET_CAUSE_COLD_RAIL = 1 ∧ t.chan c = s.chan c ∧ t.buf = [] ∧
    t.arb = s.arb) ∧
  (s.iv .dieReset = drQUIET → Gives (.railLoss) s fun t => t = s) ∧
  (s.iv .dieReset = drCOLD → s.iv .noVkeep = 0 → Gives (.switchDieRailsGood) s fun t => t.iv .coldQual = 1 ∧ t.iv
    .dieReset = drCOLD) ∧
  (∀ (f : FaceId), s.iv .dieReset = drCOLD → s.ivOn .coldQual = true → s.iv .devRst = 0 → (s.iv .wakeFaces).testBit f
    = true → Gives (.coldResetEnd) s fun t => t.iv .dieReset = 0 ∧ t.iv .coldQual = 0 ∧ t.rd (.face f)
    .FACE_PM_STAT_FWAKE = 1) ∧
  (s.iv .dieReset = drCOLD → s.ivOn .coldQual = true → s.ivOn .devRst = true → Gives (.coldResetEnd) s fun t => t.iv
    .dieReset = drWARM ∧ t.rd .glb .GLB_RESET_CAUSE_LAST = rcPIN) ∧
  (s.iv .dieReset = drCOLD → Gives (.crystalLoss) s fun t => t.iv .coldQual = 0) ∧
  (s.iv .dieReset = 0 → s.safeHalt = false → Gives (.crystalLoss) s fun t => t.safeHalt = true ∧ t.iv .haltRel = 0 ∧
    t.rd (.guard 0) .GUARD_HALT_CAUSE_CAUSE = hcCRYSTAL ∧ t.rd (.guard 0) .GUARD_HALT_CAUSE_VALID = 1) ∧
  (∀ (i : Nat), s.iv .dieReset = 0 → i < 2 ^ 40 → Gives (.devRstNAssert) s fun t => t.iv .devRst = 1 ∧ t.iv .dieReset
    = drWARM ∧ t.rd .glb .GLB_RESET_CAUSE_LAST = rcPIN ∧ t.rd .glb .GLB_RESET_CAUSE_WARM_PIN = 1 ∧ t.iv .plate i =
    s.iv .plate i ∧ t.buf = [] ∧ t.arb = s.arb) ∧
  (s.iv .dieReset = drQUIET → Gives (.devRstNAssert) s fun t => t.iv .devRst = 1 ∧ t.iv .dieReset = drQUIET ∧ t.regs =
    s.regs) ∧
  (s.iv .dieReset = drWARM → s.iv .warmReg = 0 → Gives (.devRstNRelease) s fun t => t.iv .devRst = 0 ∧ t.iv .dieReset
    = 0) ∧
  (s.iv .dieReset = drWARM → s.ivOn .warmReg = true → Gives (.devRstNRelease) s fun t => t.iv .devRst = 0 ∧ t.iv
    .dieReset = drWARM) ∧
  (s.iv .dieReset = drWARM → s.iv .devRst = 0 → Gives (.warmResetEnd) s fun t => t.iv .warmReg = 0 ∧ t.iv .dieReset =
    0) ∧
  (s.iv .dieReset = drQUIET → (s.iv .wakeCtl).testBit 0 = true → Gives (.wakeVwake) s fun t => t.iv .dieReset = drCOLD
    ∧ t.rd .glb .GLB_RESET_CAUSE_LAST = rcWAKE ∧ t.rd .glb .GLB_RESET_CAUSE_WAKE_SRC = 1 ∧ t.rd .glb
    .GLB_RESET_CAUSE_COLD_WAKE = 1 ∧ t.iv .wakeCtl = 0) ∧
  (s.iv .dieReset = drQUIET → (s.iv .wakeCtl).testBit 3 = true → Gives (.wakeTimerExpiry) s fun t => t.iv .dieReset =
    drCOLD ∧ t.rd .glb .GLB_RESET_CAUSE_LAST = rcWAKE ∧ t.rd .glb .GLB_RESET_CAUSE_WAKE_SRC = 4 ∧ t.rd .glb
    .GLB_RESET_CAUSE_COLD_WAKE = 1 ∧ t.iv .wakeCtl = 0) ∧
  (s.iv .dieReset = drQUIET → (s.iv .wakeCtl).testBit 2 = true → Gives (.wakePrsnt) s fun t => t.iv .dieReset = drCOLD
    ∧ t.rd .glb .GLB_RESET_CAUSE_LAST = rcWAKE ∧ t.rd .glb .GLB_RESET_CAUSE_WAKE_SRC = 3 ∧ t.rd .glb
    .GLB_RESET_CAUSE_COLD_WAKE = 1 ∧ t.iv .wakeCtl = 0) ∧
  (∀ (f : FaceId), s.iv .dieReset = drQUIET → (s.iv .wakeCtl).testBit 1 = true → Gives (.wakeFperst f) s fun t => t.iv
    .dieReset = drCOLD ∧ t.rd .glb .GLB_RESET_CAUSE_LAST = rcWAKE ∧ t.rd .glb .GLB_RESET_CAUSE_WAKE_SRC = 2 ∧ t.rd
    .glb .GLB_RESET_CAUSE_COLD_WAKE = 1 ∧ t.iv .wakeCtl = 0 ∧ t.iv .fperst f = 1) ∧
  (s.iv .dieReset = drQUIET → (s.iv .wakeCtl).testBit 3 = false → Gives (.wakeTimerExpiry) s fun t => t = s)

/-- R136 to R157: boot, slots, image checks, sections. -/
def Obligations.BootCompletes : Prop :=
  ∀ s : State, s.Awake →
  (∀ (pg : Pg), s.device = dvROM → s.iv .haltRel = 0 → s.iv .shutdown = 0 → pg ∈ commonPages → s.on pg
    .BLK_CTRL_SOFT_RESET = false → Gives (.romChecksDone true) s fun t => t.iv .haltRel = 1 ∧ t.rd pg .BLK_STAT_READY
    = 1) ∧
  (s.device = dvROM → s.iv .haltRel = 0 → Gives (.romChecksDone false) s fun t => t.safeHalt = true ∧ t.rd (.guard 0)
    .GUARD_HALT_CAUSE_CAUSE = hcROM ∧ t.iv .haltRel = 0) ∧
  (∀ (sfdp : BitVec 2) (crc : BitVec 4) (hA hB : ImgHeader) (c k : Nat) (r : List Nat) (u : State), s.device = dvROM →
    s.ivOn .haltRel = true → s.iv .fwSel = 0 → sfdp ≠ 0 → s.dirPick sfdp crc = some c → u = (dirLoad c).run s →
    u.slotCases 0 = k :: r → u.headerCode 0 (if k = 0 then hA else hB) = 0 → Gives (.firmwareSlotSelect sfdp crc hA
    hB) s fun t => t.iv .fwSel = k + 1 ∧ t.device = dvROM ∧ t.iv .dirFlash = c / 2 ∧ t.rd .glb .GLB_DEV_STATE_BOOT_ERR
    = s.rd .glb .GLB_DEV_STATE_BOOT_ERR) ∧
  (∀ (sfdp : BitVec 2) (crc : BitVec 4) (hA hB : ImgHeader) (c k : Nat) (u : State), s.device = dvROM → s.ivOn
    .haltRel = true → s.iv .fwSel = 0 → sfdp ≠ 0 → s.dirPick sfdp crc = some c → u = (dirLoad c).run s → u.slotCases 0
    = [k] → u.headerCode 0 (if k = 0 then hA else hB) ≠ 0 → Gives (.firmwareSlotSelect sfdp crc hA hB) s fun t => t.iv
    .slotState k = slINVALID ∧ t.device = dvROM_RECOVERY ∧ t.rd .glb .GLB_DEV_STATE_BOOT_ERR = 3 ∧ t.iv .fwSel = 0) ∧
  (∀ (sfdp : BitVec 2) (crc : BitVec 4) (hA hB : ImgHeader) (c : Nat), s.device = dvROM → s.ivOn .haltRel = true →
    s.iv .fwSel = 0 → sfdp ≠ 0 → s.dirPick sfdp crc = some c → ((dirLoad c).run s).slotCases 0 = [] → Gives
    (.firmwareSlotSelect sfdp crc hA hB) s fun t => t.device = dvROM_RECOVERY ∧ t.rd .glb .GLB_DEV_STATE_BOOT_ERR = 3)
    ∧
  (∀ (sfdp : BitVec 2) (crc : BitVec 4) (hA hB : ImgHeader), s.device = dvROM → s.ivOn .haltRel = true → s.iv .fwSel =
    0 → sfdp ≠ 0 → s.dirPick sfdp crc = none → Gives (.firmwareSlotSelect sfdp crc hA hB) s fun t => t.device =
    dvROM_RECOVERY ∧ t.rd .glb .GLB_DEV_STATE_BOOT_ERR = 2 ∧ t.iv .fwSel = 0) ∧
  (∀ (sfdp : BitVec 2) (crc : BitVec 4) (hA hB : ImgHeader), s.device = dvROM → s.ivOn .haltRel = true → s.iv .fwSel =
    0 → sfdp = 0 → Gives (.firmwareSlotSelect sfdp crc hA hB) s fun t => t.device = dvROM_RECOVERY ∧ t.rd .glb
    .GLB_DEV_STATE_BOOT_ERR = 1 ∧ t.iv .fwSel = 0) ∧
  (s.ivOn .fwSel = true → s.device = dvROM → Gives (.firmwareStart) s fun t => t.device = dvFIRMWARE ∧ t.iv .fwSel = 0
    ∧ t.rd .glb .GLB_DEV_STATE_FW_SLOT = (s.iv .fwSel - 1) % 4 ∧ t.iv .wdAt = s.now) ∧
  (∀ (st : Stamp) (v : Word), s.locked (.mgmt 0) = false → v.getLsbD 31 = true → s.ivOn .fwUnconf = true → s.pathOpen
    st = true → Gives (.fwConfirm st v) s fun t => t.iv .fwUnconf = 0 ∧ t.iv .slotState (s.rd .glb
    .GLB_DEV_STATE_FW_SLOT) = slVALID ∧ t.arbAt 0 = max (min 63 (s.iv .slotSecVer (s.rd .glb .GLB_DEV_STATE_FW_SLOT)))
    (s.arbAt 0)) ∧
  (s.ivOn .fwUnconf = true → s.fwRuns = true → (s.fifo .fwTimes).length < max 1 (s.rd (.mgmt 0)
    .MGMT_FW_STAT_RESTART_LIMIT) → Gives (.confirmTimeout) s fun t => t.rd .glb .GLB_DEV_STATE_BOOT_ERR = 9 ∧ t.rd
    (.mgmt 0) .MGMT_FW_STAT_STATE = fsRESTARTING ∧ t.iv .fwUnconf = 0) ∧
  (∀ (h : ImgHeader) (k : Nat) (r : List Nat), s.device = dvFIRMWARE → s.fwRuns = true → s.slotCases 1 = k :: r →
    s.headerCode 1 h = 0 → Gives (.configHeaderVerify h) s fun t => t.device = dvCONFIG ∧ t.iv .cfgSel = k - 1 ∧ t.rd
    (.bridge 4) .BRIDGE_FAB_ID_SWITCH_ID = h.switchId % 256 ∧ t.iv .slotSeq k = h.sequence ∧ t.iv .cfgCount =
    h.table.length ∧ t.rd (.port 0) .PAGE_LOCK_LOCKED = 0) ∧
  (∀ (h : ImgHeader) (k : Nat) (r : List Nat), s.device = dvFIRMWARE → s.fwRuns = true → s.slotCases 1 = k :: r →
    s.headerCode 1 h ≠ 0 → Gives (.configHeaderVerify h) s fun t => t.iv .dieReset = drWARM ∧ t.iv .slotState k =
    slINVALID ∧ t.rd .glb .GLB_DEV_STATE_BOOT_ERR = s.headerCode 1 h) ∧
  (∀ (h : ImgHeader), s.device = dvFIRMWARE → s.fwRuns = true → s.slotCases 1 = [] → Gives (.configHeaderVerify h) s
    fun t => t.device = dvBRINGUP ∧ t.live = 0 ∧ t.rd (.route 0) (plateVerFld 1) = 0 ∧ t.granted? 0 = true) ∧
  (∀ (payload : List Byte) (e : Nat), s.device = dvCONFIG → s.nextSection? = some e → sectionOk e (payload.map
    (·.toNat)) = false → Gives (.configSectionApply payload) s fun t => t.iv .dieReset = drWARM ∧ t.iv .slotState
    (s.iv .cfgSel + 1) = slINVALID ∧ t.rd .glb .GLB_DEV_STATE_BOOT_ERR = 5 ∧ t.rd .glb .GLB_RESET_CAUSE_LAST = rcREG)
    ∧
  (∀ (payload : List Byte) (e : Nat), s.device = dvCONFIG → s.nextSection? = some e → sectionOk e (payload.map
    (·.toNat)) = true → sectionOf e (payload.map (·.toNat)) = none → Gives (.configSectionApply payload) s fun t =>
    t.iv .dieReset = drWARM ∧ t.iv .slotState (s.iv .cfgSel + 1) = slINVALID ∧ t.rd .glb .GLB_DEV_STATE_BOOT_ERR = 8)
    ∧
  (∀ (payload : List Byte) (e : Nat) (x : Section), s.device = dvCONFIG → s.nextSection? = some e → sectionOk e
    (payload.map (·.toNat)) = true → sectionOf e (payload.map (·.toNat)) = some x → Gives (.configSectionApply
    payload) s fun t => t = (sectionApply x).run ((put .cfgDone (s.iv .cfgDone + 1)).run s)) ∧
  (∀ (payload : List Byte) (e : Nat) (k i v : Nat), s.device = dvCONFIG → s.nextSection? = some e → sectionOk e
    (payload.map (·.toNat)) = true → sectionOf e (payload.map (·.toNat)) = some (.plate k true [(i, [v])]) → k < 2 → i
    < 524288 → s.iv .cfgPlates = 0 → s.iv .cfgKeep = 0 → Gives (.configSectionApply payload) s fun t => t.iv .plate (k
    * 524288 + i) = v ∧ t.live = k ∧ t.rd (.route 0) (plateStateFld k) = plLIVE ∧ t.rd (.route 0) (plateVerFld k) = 1
    ∧ t.iv .cfgDone = s.iv .cfgDone + 1) ∧
  (∀ (payload : List Byte) (e : Nat) (p : PortId) (l : Bool) (es : List Nat), s.device = dvCONFIG → s.nextSection? =
    some e → sectionOk e (payload.map (·.toNat)) = true → sectionOf e (payload.map (·.toNat)) = some (.hatch p l es) →
    s.ivOn .cfgPorts p = true → hatchOk es = true → Gives (.configSectionApply payload) s fun t => t.hatchCount p (b2n
    l) = es.length ∧ t.rd (.sched p) (hatchVerFld (b2n l)) = 1 ∧ (l = false → t.hatchState p 0 = hlPENDING)) ∧
  (∀ (payload : List Byte) (e : Nat) (x : PolicyImg), s.device = dvCONFIG → s.nextSection? = some e → sectionOk e
    (payload.map (·.toNat)) = true → sectionOf e (payload.map (·.toNat)) = some (.policy x) → Gives
    (.configSectionApply payload) s fun t => t.rd (.sec 0) .SEC_GRANT_MASK = x.grant % 2 ^ 32 ∧ t.iv .encRequired =
    b2n (x.flags.testBit 0) ∧ t.rd (.sec 0) .SEC_DEBUG_DENY = b2n (x.flags.testBit 2)) ∧
  (s.device = dvCONFIG → s.nextSection? = none → s.iv .cfgPlates = 0 ∨ (s.iv .cfgPlates).testBit 2 = true → Gives
    (.configApplyDone) s fun t => t.device = dvRUN ∧ t.rd .glb .GLB_DEV_STATE_CFG_SLOT = (s.iv .cfgSel - 1) % 4 ∧ t.iv
    .slotState (s.iv .cfgSel + 1) = slVALID ∧ t.iv .cfgSel = 0) ∧
  (∀ (h : ImgHeader), s.iv .imgSt = 4 → s.installs = true → s.headerCode s.imgKind h = 0 → s.device ≠ dvROM_RECOVERY →
    Gives (.imgVerifyDone h) s fun t => t.iv .imgSt = 0 ∧ t.rd (.mgmt 0) .MGMT_IMG_CTRL_STATUS = imOK ∧ t.rd (.mgmt 0)
    .MGMT_IMG_CTRL_BUSY = 0 ∧ t.iv .slotState (s.inactiveSlot s.imgKind) = slPENDING ∧ t.iv .slotSeq (s.inactiveSlot
    s.imgKind) = h.sequence) ∧
  (∀ (h : ImgHeader), s.iv .imgSt = 4 → s.installs = true → s.headerCode s.imgKind h ≠ 0 → Gives (.imgVerifyDone h) s
    fun t => t.iv .imgSt = 0 ∧ t.rd (.mgmt 0) .MGMT_IMG_CTRL_STATUS = imVERIFY ∧ t.rd .glb .GLB_DEV_STATE_BOOT_ERR =
    s.headerCode s.imgKind h ∧ (t.rd (.mgmt 0) .ERR_STICKY_BITS).testBit Err.MGMT_IMG_FAIL.bit = true ∧ t.iv
    .slotState (s.inactiveSlot s.imgKind) = s.iv .slotState (s.inactiveSlot s.imgKind))

/-- R111 to R121, R132, R158 to R161, R616, R714. -/
def Obligations.QuietThermalAndClocksComplete : Prop :=
  ∀ s : State, s.Awake →
  (∀ (st : Stamp) (v : Word), s.locked .glb = false → bits v.toNat 31 16 = 0x57A7 → v.getLsbD 0 = true → s.pathOpen st
    = true → Gives (.warmResetRequest st v) s fun t => t.iv .dieReset = drWARM ∧ t.iv .warmReg = 1 ∧ t.rd .glb
    .GLB_RESET_CAUSE_LAST = rcREG ∧ t.buf = []) ∧
  (∀ (st : Stamp) (v : Word), s.locked .glb = false → bits v.toNat 31 16 ≠ 0x57A7 → s.pathOpen st = true → Gives
    (.warmResetRequest st v) s fun t => t.iv .dieReset = 0 ∧ t.regs = s.regs) ∧
  (s.ivOn .devReset = true → Gives (.deviceResetDelay) s fun t => t.iv .dieReset = drWARM ∧ t.rd .glb
    .GLB_RESET_CAUSE_LAST = rcREG) ∧
  (∀ (st : Stamp) (v : Word) (p : PortId), s.locked .glb = false → bits v.toNat 31 16 = 0x57A7 → v.getLsbD 0 = true →
    s.safeHalt = false → s.iv .quietRun = 0 → s.role p ≠ 0 → s.domState (s.portDom p) = gdNONE → s.role p = roleDOWN →
    s.pathOpen st = true → Gives (.quietEntry st v) s fun t => t.device = dvQUIET_ENTRY ∧ t.ivOn .quietRun = true ∧
    t.iv .wakeFaces = s.rd .glb .GLB_WAKE_FACES_MASK ∧ t.on (.port p) .BLK_CTRL_QUIESCE = true ∧ t.domState (.port p)
    = gdQUIESCED) ∧
  (∀ (c : ChanId), s.ivOn .quietRun = true → Gives (.quietChannelsOff) s fun t => t.chan c = pcOFF ∧ t.ivOn .quietRun
    = true) ∧
  (s.ivOn .quietRun = true → ((List.range 24).all fun c => !s.chanOn c) = true → s.iv .wakePend = 0 → Gives
    (.quietState) s fun t => t.iv .dieReset = drQUIET ∧ t.iv .quietRun = 0 ∧ t.iv .wakeCtl = s.iv .wakeCtl ∧ t.iv
    .wakeFaces = s.iv .wakeFaces ∧ t.buf = []) ∧
  (s.ivOn .quietRun = true → ((List.range 24).all fun c => !s.chanOn c) = true → s.iv .wakePend = 2 → Gives
    (.quietState) s fun t => t.iv .dieReset = drCOLD ∧ t.rd .glb .GLB_RESET_CAUSE_LAST = rcWAKE ∧ t.rd .glb
    .GLB_RESET_CAUSE_WAKE_SRC = 2 ∧ t.iv .wakePend = 0) ∧
  (∀ (f : FaceId), s.iv .dieReset ≠ drCOLD → s.iv .dieReset ≠ drQUIET → s.iv .quietRun = 0 → (s.iv .wakeFaces).testBit
    f = true → Gives (.fwakeReleaseTimeout) s fun t => t.iv .wakeFaces = 0 ∧ t.rd (.face f) .FACE_PM_STAT_FWAKE = 0) ∧
  (∀ (x : BitVec 16), tempValid x = true → Gives (.thermalSample (List.replicate 34 x)) s fun t => t.rd (.mgmt 0)
    .MGMT_THERM_STAT_STEP = s.thermStep (some x.toInt) false ∧ t.rd (.mgmt 0) .MGMT_THERM_STAT_VALID_COUNT = 34 ∧ t.rd
    (.mgmt 0) .MGMT_THERM_STAT_HOTTEST = x.toNat ∧ t.rd (.mgmt 0) .MGMT_THERM_STAT_HOT_SENSOR = 0 ∧ t.rd (.mgmt 0)
    .MGMT_TEMP_T 33 = x.toNat) ∧
  (∀ (x : BitVec 16), tempValid x = true → s.rd (.mgmt 0) .MGMT_THERM_STAT_STEP = 0 → s.thermStep (some x.toInt) false
    = 1 → Gives (.thermalSample (List.replicate 34 x)) s fun t => (t.rd (.mgmt 0) .ERR_STICKY_BITS).testBit
    Err.MGMT_THERM_WARN.bit = true ∧ t.rd (.mgmt 0) .MGMT_THERM_STAT_STEP = 1) ∧
  (∀ (x : BitVec 16), tempValid x = true → s.safeHalt = false → s.thermStep (some x.toInt) false = 3 → Gives
    (.thermalSample (List.replicate 34 x)) s fun t => t.safeHalt = true ∧ t.rd (.guard 0) .GUARD_HALT_CAUSE_CAUSE =
    hcTHERMAL ∧ t.iv .haltRel = 0) ∧
  (∀ (k : Option (Fin 6)) (o : Nat), s.iv .refLost (refIndex k) = 0 → o ∈ refOctets k → Gives (.refclkLoss k) s fun t
    => t.iv .refLost (refIndex k) = 1 ∧ t.rd (.lane o) (refOk k) = 0) ∧
  (∀ (k : Option (Fin 6)) (o : Nat), o ∈ refOctets k → Gives (.refclkRestore k) s fun t => t.iv .refLost (refIndex k)
    = 0 ∧ t.rd (.lane o) (refOk k) = 1)

/-- R169 to R171, R176 to R184, R196: the events of a lane complete with the effect their rules give. -/
def Obligations.LaneCodingCompletes : Prop :=
  ∀ s : State, s.Awake →
  (∀ (l : LaneId) (n : Nat), s.ln l .LANE_STAT_FEC_LOCK ≠ 0 → 1 ≤ n → n ≤ 15 → Gives (.codewordReceived l n) s fun t
    => t.cnt (.lane (l / 8)) (16 * (l % 8)) = min (s.cnt (.lane (l / 8)) (16 * (l % 8)) + 1) cntMax ∧ t.cnt (.lane (l
    / 8)) (16 * (l % 8) + 2) = min (s.cnt (.lane (l / 8)) (16 * (l % 8) + 2) + n) cntMax) ∧
  (∀ (l : LaneId) (n : Nat), s.ln l .LANE_STAT_FEC_LOCK ≠ 0 → 15 < n → Gives (.codewordReceived l n) s fun t => t.cnt
    (.lane (l / 8)) (16 * (l % 8) + 3) = min (s.cnt (.lane (l / 8)) (16 * (l % 8) + 3) + 1) cntMax ∧ t.cnt (.lane (l /
    8)) (16 * (l % 8) + 2) = s.cnt (.lane (l / 8)) (16 * (l % 8) + 2)) ∧
  (∀ (l : LaneId), Gives (.fillerReceived l) s fun t => t.cnt (.lane (l / 8)) (16 * (l % 8) + 5) = min (s.cnt (.lane
    (l / 8)) (16 * (l % 8) + 5) + 1) cntMax) ∧
  (∀ (l : LaneId), s.ln l .LANE_RATE_CFG_MODE = modeDaend → s.laneState l ∈ [laneTRAIN, laneACTIVE, laneREST] →
    s.txRuns l = true → s.iv .injAlign l = 0 → Gives (.alignTransmit l) s fun t => t.out.head? = some (Out.alignBlock
    l (alignBlock (s.iv .laneNum l) (s.iv .alignTx l))) ∧ t.iv .alignTx l = (s.iv .alignTx l + 1) % 2 ^ 24) ∧
  (∀ (l : LaneId), s.ln l .LANE_RATE_CFG_MODE = modeDaend → s.ln l .LANE_STAT_FEC_LOCK = 1 → s.iv .rxRest l = 0 →
    Gives (.fecDegrade l) s fun t => (t.rd (.lane (l / 8)) .ERR_STICKY_BITS).testBit (Err.LANE_FEC_DEGRADE (l %
    8)).bit = true ∧ t.laneState l = s.laneState l) ∧
  (∀ (l : LaneId) (w : BitVec 16), s.ln l .LANE_RATE_CFG_MODE = modeDaend → s.laneState l = laneTRAIN → w.getLsbD 11 =
    true → s.iv .presetStat l = 0 → s.ln l .LANE_EQ_CTRL_MODE = 0 → Gives (.coeffApply l (.daend w)) s fun t => t.ln l
    .LANE_TX_TAPS_PRE = (presetTaps (bits w.toNat 10 9)).1 ∧ t.ln l .LANE_TX_TAPS_POST = (presetTaps (bits w.toNat 10
    9)).2 ∧ t.ln l .LANE_TX_TAPS_C0 = 48 - (presetTaps (bits w.toNat 10 9)).1 - (presetTaps (bits w.toNat 10 9)).2 ∧
    t.iv .presetStat l = eqUPDATED ∧ t.out.head? = some (Out.eqStatus l (t.statusWord l))) ∧
  (∀ (l : LaneId) (w : BitVec 16), s.ln l .LANE_RATE_CFG_MODE = modeDaend → s.laneState l = laneTRAIN → w.getLsbD 11 =
    false → bits w.toNat 15 14 = 1 → bits w.toNat 13 12 = 0 → s.iv .preStat l = 0 → s.ln l .LANE_EQ_CTRL_MODE = 0 →
    tapsOk (s.ln l .LANE_TX_TAPS_PRE + 1) (s.ln l .LANE_TX_TAPS_POST) = true → Gives (.coeffApply l (.daend w)) s fun
    t => t.ln l .LANE_TX_TAPS_PRE = s.ln l .LANE_TX_TAPS_PRE + 1 ∧ t.ln l .LANE_TX_TAPS_POST = s.ln l
    .LANE_TX_TAPS_POST ∧ t.iv .preStat l = eqUPDATED) ∧
  (∀ (l : LaneId) (w : BitVec 16), s.ln l .LANE_RATE_CFG_MODE = modeDaend → s.laneState l = laneTRAIN → w.getLsbD 11 =
    false → bits w.toNat 15 14 ∈ [1, 2] → s.iv .preStat l = 0 → s.ln l .LANE_EQ_CTRL_MODE = 1 → Gives (.coeffApply l
    (.daend w)) s fun t => t.ln l .LANE_TX_TAPS_PRE = s.ln l .LANE_TX_TAPS_PRE ∧ t.iv .preStat l = eqHELD) ∧
  (∀ (l : LaneId), s.ln l .LANE_RATE_CFG_MODE = modeDaend → s.laneState l = laneTRAIN → Gives (.coeffApply l (.daend
    0)) s fun t => t.iv .preStat l = 0 ∧ t.iv .postStat l = 0 ∧ t.iv .presetStat l = 0 ∧ t.ln l .LANE_TX_TAPS_PRE =
    s.ln l .LANE_TX_TAPS_PRE ∧ t.out.head? = some (Out.eqStatus l (t.statusWord l))) ∧
  (∀ (l : LaneId) (a b : Fin 49), s.ln l .LANE_RATE_CFG_MODE = modePCIe → s.laneState l = laneTRAIN → s.ln l
    .LANE_EQ_CTRL_MODE = 0 → tapsOk a b = true → Gives (.coeffApply l (.coeffs a b)) s fun t => t.ln l
    .LANE_TX_TAPS_PRE = a ∧ t.ln l .LANE_TX_TAPS_POST = b ∧ t.ln l .LANE_TX_TAPS_C0 = 48 - a.val - b.val) ∧
  (∀ (l : LaneId) (a b : Fin 49), s.ln l .LANE_RATE_CFG_MODE = modePCIe → s.laneState l = laneTRAIN → s.ln l
    .LANE_EQ_CTRL_MODE = 0 → tapsOk a b = false → Gives (.coeffApply l (.coeffs a b)) s fun t => t.ln l
    .LANE_TX_TAPS_PRE = s.ln l .LANE_TX_TAPS_PRE ∧ t.out.head? = some (Out.pcieReject l)) ∧
  (∀ (l : LaneId), s.ln l .LANE_RATE_CFG_MODE = modeDaend → s.laneState l = laneTRAIN → s.iv .eqTimeouts l + 1 < max 1
    (s.ln l .LANE_EQ_CTRL_RETRIES) → Gives (.eqRespTimeout l) s fun t => Out.trainRequest l ∈ t.out ∧ t.iv .eqTimeouts
    l = s.iv .eqTimeouts l + 1 ∧ t.ln l .LANE_STAT_EQ_FAIL = s.ln l .LANE_STAT_EQ_FAIL) ∧
  (∀ (l : LaneId), s.ln l .LANE_RATE_CFG_MODE = modeDaend → s.laneState l = laneTRAIN → max 1 (s.ln l
    .LANE_EQ_CTRL_RETRIES) ≤ s.iv .eqTimeouts l + 1 → Gives (.eqRespTimeout l) s fun t => t.ln l .LANE_STAT_EQ_FAIL =
    1) ∧
  (∀ (l : LaneId) (v h n : BitVec 8) (c : Fin 32), s.laneState l = laneTRAIN ∨ s.laneState l = laneACTIVE ∧ s.ln l
    .LANE_EQ_CTRL_RX_ADAPT = 1 → Gives (.rxAdaptationDone l v h n c) s fun t => t.ln l .LANE_STAT_RX_READY = 1 ∧ t.ln
    l .LANE_RX_STAT_EYE_V = v.toNat ∧ t.ln l .LANE_RX_STAT_EYE_H = h.toNat ∧ t.ln l .LANE_RX_STAT_SNR = n.toNat ∧ t.ln
    l .LANE_RX_STAT_CTLE = c)

/-- R182, R183, R198 to R200: control writes of a lane on an unlocked page, and the checker's lock. -/
def Obligations.LaneControlCompletes : Prop :=
  ∀ s : State, s.Awake →
  (∀ (st : Stamp) (l : LaneId) (v : Word), s.locked (.lane (l / 8)) = false → s.ln l .LANE_EQ_CTRL_MODE = 1 → tapsOk
    (bits v.toNat 3 0) (bits v.toNat 12 8) = true → bits v.toNat 21 16 = 48 - bits v.toNat 3 0 - bits v.toNat 12 8 →
    s.pathOpen st = true → Gives (.txTapsWrite st l v) s fun t => t.ln l .LANE_TX_TAPS_PRE = bits v.toNat 3 0 ∧ t.ln l
    .LANE_TX_TAPS_POST = bits v.toNat 12 8 ∧ t.ln l .LANE_TX_TAPS_C0 = bits v.toNat 21 16) ∧
  (∀ (st : Stamp) (l : LaneId) (v : Word), s.locked (.lane (l / 8)) = false → s.ln l .LANE_EQ_CTRL_MODE = 0 →
    s.pathOpen st = true → Gives (.txTapsWrite st l v) s fun t => (t.rd (.lane (l / 8)) .ERR_STICKY_BITS).testBit
    Err.LANE_CTRL_REFUSED.bit = true ∧ t.ln l .LANE_TX_TAPS_PRE = s.ln l .LANE_TX_TAPS_PRE) ∧
  (∀ (st : Stamp) (l : LaneId) (v : Word), s.locked (.lane (l / 8)) = false → s.pathOpen st = true → Gives
    (.eqModeWrite st l v) s fun t => t.ln l .LANE_EQ_CTRL_MODE = bits v.toNat 0 0 ∧ t.ln l .LANE_TX_TAPS_PRE = s.ln l
    .LANE_TX_TAPS_PRE) ∧
  (∀ (st : Stamp) (l : LaneId) (v : Word), s.locked (.lane (l / 8)) = false → s.laneFree l = true → s.laneState l =
    laneOFF → v.getLsbD 0 = true → bits v.toNat 27 24 < 8 → s.pathOpen st = true → Gives (.lanePrbsCtrlWrite st l v) s
    fun t => t.laneState l = laneTEST ∧ t.ln l .LANE_RATE_CFG_RATE_NOW = bits v.toNat 27 24) ∧
  (∀ (st : Stamp) (l : LaneId) (v : Word), s.locked (.lane (l / 8)) = false → s.laneFree l = false → v.getLsbD 0 =
    true → s.pathOpen st = true → Gives (.lanePrbsCtrlWrite st l v) s fun t => (t.rd (.lane (l / 8))
    .ERR_STICKY_BITS).testBit Err.LANE_CTRL_REFUSED.bit = true ∧ t.laneState l = s.laneState l) ∧
  (∀ (l : LaneId) (w : BitVec 64) (n e : Nat), s.laneState l = laneTEST → s.ln l .LANE_PRBS_CTRL_CHK_EN = 1 → s.ln l
    .LANE_PRBS_CTRL_CHK_MODE = 0 → s.ln l .LANE_PRBS_CTRL_CHK_LOCK = 0 → 256 ≤ n → e = 0 → Gives (.prbsCheckerLock l w
    n e) s fun t => t.ln l .LANE_PRBS_CTRL_CHK_LOCK = 1) ∧
  (∀ (l : LaneId) (w : BitVec 64) (n e : Nat), s.laneState l = laneTEST → s.ln l .LANE_PRBS_CTRL_CHK_EN = 1 → s.ln l
    .LANE_PRBS_CTRL_CHK_MODE = 0 → s.ln l .LANE_PRBS_CTRL_CHK_LOCK = 1 → Gives (.prbsCheckerLock l w n e) s fun t =>
    t.cnt (.lane (l / 8)) (0x8000 + 2 * (l % 8)) = min (s.cnt (.lane (l / 8)) (0x8000 + 2 * (l % 8)) + min e n) cntMax
    ∧ t.cnt (.lane (l / 8)) (0x8001 + 2 * (l % 8)) = min (s.cnt (.lane (l / 8)) (0x8001 + 2 * (l % 8)) + n) cntMax) ∧
  (∀ (l : LaneId) (w : BitVec 64) (n e : Nat), s.laneState l = laneTEST → s.ln l .LANE_PRBS_CTRL_CHK_EN = 1 → s.ln l
    .LANE_PRBS_CTRL_CHK_MODE = 1 → s.ln l .LANE_PRBS_CTRL_PATTERN = 8 → Gives (.prbsCheckerLock l w n e) s fun t =>
    t.cnt (.lane (l / 8)) (0x8000 + 2 * (l % 8)) = min (s.cnt (.lane (l / 8)) (0x8000 + 2 * (l % 8)) + slipErrs w
    (s.userPat l) (s.iv .slipPos l)) cntMax ∧ t.cnt (.lane (l / 8)) (0x8001 + 2 * (l % 8)) = min (s.cnt (.lane (l /
    8)) (0x8001 + 2 * (l % 8)) + 64) cntMax) ∧
  (∀ (st : Stamp) (l : LaneId) (v : Word), s.locked (.lane (l / 8)) = false → v.getLsbD 31 = true → s.laneState l =
    laneACTIVE → Fld.LANE_INJ_CTRL_TARGET.of v.toNat = 1 → s.iv .injAlign l = 0 → s.pathOpen st = true → Gives
    (.injectOneShot st l v) s fun t => t.out = Out.injected l 1 (injCount 1 (Fld.LANE_INJ_CTRL_COUNT.of v.toNat)) ::
    s.out ∧ t.ln l .LANE_INJ_CTRL_ONE_SHOT = 0) ∧
  (∀ (st : Stamp) (l : LaneId) (v : Word), s.locked (.lane (l / 8)) = false → v.getLsbD 31 = true → s.laneState l =
    laneTEST → Fld.LANE_INJ_CTRL_TARGET.of v.toNat = 0 → s.iv .injAlign l = 0 → s.pathOpen st = true → Gives
    (.injectOneShot st l v) s fun t => Out.injected l 0 (injCount 0 (Fld.LANE_INJ_CTRL_COUNT.of v.toNat)) ∈ t.out ∧
    t.ln l .LANE_INJ_CTRL_ONE_SHOT = 0) ∧
  (∀ (st : Stamp) (l : LaneId) (v : Word), s.locked (.lane (l / 8)) = false → v.getLsbD 31 = true → s.laneState l =
    laneACTIVE → Fld.LANE_INJ_CTRL_TARGET.of v.toNat = 2 → s.iv .injAlign l = 0 → s.pathOpen st = true → Gives
    (.injectOneShot st l v) s fun t => t.out = Out.injected l 2 (injCount 2 (Fld.LANE_INJ_CTRL_COUNT.of v.toNat)) ::
    s.out ∧ t.iv .injAlign l = injCount 2 (Fld.LANE_INJ_CTRL_COUNT.of v.toNat) ∧ t.ln l .LANE_INJ_CTRL_ONE_SHOT = 1) ∧
  (∀ (l : LaneId), s.ln l .LANE_INJ_CTRL_PERIOD ≠ 0 → s.laneState l = laneACTIVE → s.ln l .LANE_INJ_CTRL_TARGET ∈ [1,
    2] → s.iv .injAlign l = 0 → Gives (.injectPeriodic l) s fun t => t.out = Out.injected l (s.ln l
    .LANE_INJ_CTRL_TARGET) (injCount (s.ln l .LANE_INJ_CTRL_TARGET) (s.ln l .LANE_INJ_CTRL_COUNT)) :: s.out) ∧
  (∀ (l : LaneId), s.ln l .LANE_INJ_CTRL_PERIOD ≠ 0 → s.laneState l = laneTEST → s.ln l .LANE_INJ_CTRL_TARGET = 0 →
    Gives (.injectPeriodic l) s fun t => Out.injected l 0 (injCount 0 (s.ln l .LANE_INJ_CTRL_COUNT)) ∈ t.out) ∧
  (∀ (st : Stamp) (l : LaneId) (v : Word), s.locked (.lane (l / 8)) = false → s.laneFree l = true → s.pathOpen st =
    true → Gives (.laneSlip st l v) s fun t => t.out.head? = some (Out.slip l (bits v.toNat 5 0)) ∧ t.iv .slipPos l =
    s.iv .slipPos l + bits v.toNat 5 0 ∧ t.ln l .LANE_SLIP_DONE = 1)

/-- R162, R172, R186, R205, R216 to R223, R651 to R653: training from DOWN to PROVISIONAL or L0, event by event. -/
def Obligations.TrainingCompletes : Prop :=
  ∀ s : State, s.Awake →
  (∀ (o : OctId), s.needsPll o true = true → s.pllNoRef o true = false → s.rd (.lane o) .LANE_OCT_CFG_B_RATE ≠ 0 →
    Gives (.pllLock o true) s fun t => t.rd (.lane o) .LANE_OCT_STAT_B_LOCK = 1) ∧
  (∀ (o : OctId), s.needsPll o false = true → s.pllNoRef o false = false → Gives (.pllLock o false) s fun t => t.rd
    (.lane o) .LANE_OCT_STAT_A_LOCK = 1) ∧
  (∀ (o : OctId) (k : Fin 8), s.ln (8 * o.val + k.val) .LANE_RATE_CFG_MODE = modeDaend → s.laneState (8 * o.val +
    k.val) = laneOFF → s.pllNoRef o true = false → s.rd (.lane o) .LANE_OCT_CFG_B_RATE ≠ 0 → Gives (.pllLock o true) s
    fun t => t.laneState (8 * o.val + k.val) = laneTRAIN ∧ t.ln (8 * o.val + k.val) .LANE_RATE_CFG_RATE_NOW = 7 + s.rd
    (.lane o) .LANE_OCT_CFG_B_RATE) ∧
  (∀ (o : OctId), s.on (.lane o) .LANE_OCT_STAT_B_LOCK = true → Gives (.pllUnlock o true) s fun t => t.rd (.lane o)
    .LANE_OCT_STAT_B_LOCK = 0 ∧ (t.rd (.lane o) .ERR_STICKY_BITS).testBit Err.LANE_B_PLL_UNLOCK.bit = true) ∧
  (∀ (l : LaneId), Gives (.signalDetect l) s fun t => t.ln l .LANE_STAT_SIG_DET = 1) ∧
  (∀ (p : PortId), s.rd .glb .GLB_DEV_STATE_STATE ≠ 3 → s.isFab p = true → s.link p = lsDOWN → s.on (.port p)
    .PORT_LINK_CTRL_DISABLE = false → s.noClock p = false → s.domState (s.portDom p) ≠ gdQUIESCED → Gives
    (.linkDownDwellExpiry p) s fun t => t.link p = lsDETECT ∧ t.cnt (.port p) 13 = min (s.cnt (.port p) 13 + 1)
    cntMax) ∧
  (∀ (o : OctId), s.on (.lane o) .LANE_OCT_STAT_A_LOCK = true → Gives (.pllUnlock o false) s fun t => t.rd (.lane o)
    .LANE_OCT_STAT_A_LOCK = 0 ∧ (t.rd (.lane o) .ERR_STICKY_BITS).testBit Err.LANE_A_PLL_UNLOCK.bit = true) ∧
  (∀ (p : PortId), s.isFab p = true → s.link p ∈ [lsALIGN, lsEQ, lsPARAM, lsAUTH] → s.linkHeld p = false → Gives
    (.trainStateTimeout p) s fun t => t.link p = lsDOWN ∧ t.cnt (.port p) 14 = min (s.cnt (.port p) 14 + 1) cntMax ∧
    (t.rd (.port p) .ERR_STICKY_BITS).testBit Err.PORT_TRAIN_FAIL.bit = true) ∧
  (∀ (p : PortId), s.isFab p = true → s.link p = lsDETECT → ((s.portLanes p).all fun l => s.ln l .LANE_STAT_SIG_DET ==
    0) = true → Gives (.detectAbsentTimeout p) s fun t => t.rd (.port p) .PORT_LINK_STAT_ABSENT = 1 ∧ t.link p =
    lsDETECT) ∧
  (∀ (l : LaneId) (b : BitVec 64) (n : Nat), s.ln l .LANE_RATE_CFG_MODE = modeDaend → alignValid b = true → s.ivOn
    .rxRest l = false → s.laneState l = laneTRAIN → s.ivOn .alignSeen l = true → n = alignSlots → Gives
    (.alignReceived l 2 b n) s fun t => t.ln l .LANE_STAT_ALIGN_LOCK = 1 ∧ t.ln l .LANE_STAT_FEC_LOCK = 1 ∧ t.ln l
    .LANE_STAT_CDR_LOCK = 1) ∧
  (∀ (l : LaneId) (b : BitVec 64) (n : Nat), s.ln l .LANE_RATE_CFG_MODE = modeDaend → alignValid b = true → s.ivOn
    .rxRest l = false → s.laneState l = laneTRAIN → s.ln l .LANE_STAT_ALIGN_LOCK = 0 → s.ivOn .alignSeen l = false →
    Gives (.alignReceived l 2 b n) s fun t => t.ivOn .alignSeen l = true ∧ t.ln l .LANE_STAT_ALIGN_LOCK = 0) ∧
  (∀ (l : LaneId) (b : BitVec 64) (n : Nat), s.ln l .LANE_RATE_CFG_MODE = modeDaend → alignValid b = true → s.ivOn
    .rxRest l = true → Gives (.alignReceived l 2 b n) s fun t => t.ivOn .rxRest l = false ∧ t.ln l
    .LANE_STAT_ALIGN_LOCK = 1) ∧
  (∀ (l : LaneId) (b : BitVec 64) (n : Nat), s.ln l .LANE_RATE_CFG_MODE = modeDaend → alignValid b = true → s.ivOn
    .rxRest l = false → s.laneState l = laneACTIVE → s.ln l .LANE_STAT_ALIGN_LOCK = 1 → Gives (.alignReceived l 2 b n)
    s fun t => t.ln l .LANE_STAT_LOGICAL = blkByte b 1 % 16 ∧ t.iv .alignMiss l = 0) ∧
  (∀ (l : LaneId) (h : BitVec 2) (b : BitVec 64) (n : Nat), s.ln l .LANE_RATE_CFG_MODE = modeDaend → alignValid b =
    false ∨ h ≠ 2 → s.ln l .LANE_STAT_ALIGN_LOCK = 1 → s.ivOn .rxRest l = false → s.iv .alignMiss l < 2 → Gives
    (.alignReceived l h b n) s fun t => t.iv .alignMiss l = s.iv .alignMiss l + 1 ∧ t.ln l .LANE_STAT_ALIGN_LOCK = 1)
    ∧
  (∀ (l : LaneId) (h : BitVec 2) (b : BitVec 64) (want : BitVec 7) (p : PortId), s.owner l = some p.val → s.isFab p =
    true → s.link p = lsEQ → s.ln l .LANE_RATE_CFG_RX_INV_AUTO = 0 → s.ln l .LANE_RATE_CFG_RX_INV = 0 → h = 2 →
    blkByte b 0 = 0x33 → blkCrcOk b = true → Gives (.trainBlockReceived l h b want) s fun t => t.iv .partnerReady l =
    b2n ((blkByte b 3 + blkByte b 4 <<< 8).testBit 9) ∧ t.ln l .LANE_STAT_LOGICAL = blkByte b 1 % 16 ∧ t.ln l
    .LANE_RATE_CFG_RX_INV_NOW = 0 ∧ (t.iv .ownReq l = nextOwn (s.iv .ownReq l) (if s.ln l .LANE_STAT_RX_READY = 1 then
    0 else want.toNat) (blkByte b 3 + blkByte b 4 <<< 8))) ∧
  (∀ (l : LaneId) (h : BitVec 2) (b : BitVec 64) (want : BitVec 7) (p : PortId), s.owner l = some p.val → s.isFab p =
    true → s.link p = lsEQ → s.ln l .LANE_RATE_CFG_RX_INV_AUTO = 1 → h = 1 → blkByte b 0 = 0xCC → blkCrcOk (~~~b) =
    true → Gives (.trainBlockReceived l h b want) s fun t => t.ln l .LANE_RATE_CFG_RX_INV_NOW = 1 ∧ t.iv .partnerReady
    l = b2n ((blkByte (~~~b) 3 + blkByte (~~~b) 4 <<< 8).testBit 9)) ∧
  (∀ (p : PortId) (b : BitVec 64), s.isFab p = true → s.link p = lsPARAM → blkCrcOk b = true → blkByte b 0 = 0x3F →
    blkByte b 1 < 8 → setBit (s.iv .paramGot p) (blkByte b 1) ≠ 255 → Gives (.paramBlockReceived p b) s fun t => t.iv
    .paramVal (8 * p + blkByte b 1) = bits b.toNat 55 16 ∧ t.iv .paramGot p = setBit (s.iv .paramGot p) (blkByte b 1))
    ∧
  (∀ (p : PortId), s.isFab p = true → s.link p = lsPARAM → Gives (.paramRepeat p) s fun t => t.out.length =
    s.out.length + 8) ∧
  (∀ (p : PortId), s.inAuth p 0 = true → Gives (.authHello p) s fun t => t.iv .authStep p = 1 ∧ t.out = Out.authMsg p
    0x31 [] :: s.out) ∧
  (∀ (p : PortId), s.isFab p = true → s.on (.port p) .PORT_LINK_STAT_ENC = true → s.link p ≠ lsAUTH → s.iv .nextKey p
    = 0 → Gives (.authHello p) s fun t => t.iv .nextKey p = 1 ∧ t.iv .keyCount p = s.iv .keyCount p + 1 ∧ t.rd (.sec
    2) .SEC_LINK_STAT_REKEY p = 0 ∧ t.cnt (.sec 0) 5 = min (s.cnt (.sec 0) 5 + 1) cntMax) ∧
  (∀ (p : PortId) (debug : Bool), s.inAuth p 1 = true → Gives (.authCert p true debug) s fun t => t.iv .authStep p = 2
    ∧ t.iv .authDebug p = b2n debug ∧ t.out = Out.authMsg p 0x32 [ofBytes s.ownerDigest, s.domainId, s.selfSw.getD 0,
    p] :: s.out) ∧
  (∀ (p : PortId) (ok : Bool) (owner : BitVec 384) (domain : BitVec 128) (sw port : Nat), s.inAuth p 2 = true → ok =
    true → owner.toNat = ofBytes s.ownerDigest → domain.toNat = s.domainId → s.rd (.bridge 4)
    .BRIDGE_FAB_NBR_PARTNER_SW p = sw → s.rd (.bridge 4) .BRIDGE_FAB_NBR_PARTNER_PORT p = port → s.selfSw ≠ some sw →
    s.ivOn .authDebug p = false ∨ s.ivOn .rejectDebug = false → Gives (.authProof p ok owner domain sw port) s fun t
    => t.iv .authStep p = 3 ∧ t.rd (.sec 2) .SEC_LINK_STAT_PARTNER_DEBUG p = s.iv .authDebug p % 2) ∧
  (∀ (p : PortId) (ok : Bool) (owner : BitVec 384) (domain : BitVec 128) (sw port : Nat), s.inAuth p 2 = true → ok =
    false → s.linkHeld p = false → Gives (.authProof p ok owner domain sw port) s fun t => t.link p = lsDOWN ∧ t.rd
    (.sec 2) .SEC_LINK_STAT_AUTH_STATUS p = 3) ∧
  (∀ (p : PortId) (ok : Bool) (owner : BitVec 384) (domain : BitVec 128) (sw port : Nat), s.inAuth p 2 = true → ok =
    true → owner.toNat ≠ ofBytes s.ownerDigest → Gives (.authProof p ok owner domain sw port) s fun t => t.rd (.sec 2)
    .SEC_LINK_STAT_AUTH_STATUS p = 4) ∧
  (∀ (p : PortId) (ok : Bool) (owner : BitVec 384) (domain : BitVec 128) (sw port : Nat), s.inAuth p 2 = true → ok =
    true → owner.toNat = ofBytes s.ownerDigest → domain.toNat ≠ s.domainId → Gives (.authProof p ok owner domain sw
    port) s fun t => t.rd (.sec 2) .SEC_LINK_STAT_AUTH_STATUS p = 5) ∧
  (∀ (p : PortId) (ok : Bool) (owner : BitVec 384) (domain : BitVec 128) (sw port : Nat), s.inAuth p 2 = true → ok =
    true → owner.toNat = ofBytes s.ownerDigest → domain.toNat = s.domainId → s.selfSw = some sw → Gives (.authProof p
    ok owner domain sw port) s fun t => t.rd (.sec 2) .SEC_LINK_STAT_AUTH_STATUS p = 6) ∧
  (∀ (p : PortId) (ok : Bool) (owner : BitVec 384) (domain : BitVec 128) (sw port : Nat), s.inAuth p 2 = true → ok =
    true → owner.toNat = ofBytes s.ownerDigest → domain.toNat = s.domainId → s.rd (.bridge 4)
    .BRIDGE_FAB_NBR_PARTNER_SW p = sw → s.rd (.bridge 4) .BRIDGE_FAB_NBR_PARTNER_PORT p = port → s.selfSw ≠ some sw →
    s.ivOn .authDebug p = true → s.ivOn .rejectDebug = true → Gives (.authProof p ok owner domain sw port) s fun t =>
    t.rd (.sec 2) .SEC_LINK_STAT_AUTH_STATUS p = 7) ∧
  (∀ (p : PortId), s.inAuth p 3 = true → Gives (.authDone p true) s fun t => t.link p = lsPROVISIONAL ∧ t.rd (.port p)
    .PORT_LINK_STAT_ENC = 1 ∧ t.rd (.sec 2) .SEC_LINK_STAT_AUTH_OK p = 1 ∧ t.rd (.port p) .PORT_LINK_STAT_KEY_PHASE =
    0 ∧ t.iv .txNum p = 0) ∧
  (∀ (p : PortId), s.inAuth p 3 = true → s.linkHeld p = false → Gives (.authDone p false) s fun t => t.link p = lsDOWN
    ∧ t.rd (.sec 2) .SEC_LINK_STAT_AUTH_STATUS p = 7) ∧
  (∀ (p : PortId) (w : Fin 5) (r : Fin 6) (f rev : Bool) (inv : BitVec 16) (aspm : BitVec 2), s.role p = roleDOWN →
    lsDETECT ≤ s.link p → s.link p < lsRECOVERY → s.on (.port p) .PORT_LINK_CTRL_DISABLE = false → s.noClock p = false
    → s.belowMin p (2 ^ min w.val (s.pcieWidest p)) = false → min (r.val + 1) (s.pcieFastest p) ≠ 0 → Gives
    (.pcieLinkUp p w r f rev inv aspm) s fun t => t.link p = lsL0 ∧ t.rd (.port p) .PORT_LINK_STAT_RATE_NOW = min
    (r.val + 1) (s.pcieFastest p) ∧ t.iv .partnerAspm p = aspm.toNat ∧ t.rd (.port p) .PORT_LINK_STAT_FLIT = b2n (min
    (r.val + 1) (s.pcieFastest p) == 6 || (f && s.on (.port p) .PORT_CFG_FLIT_BELOW))) ∧
  (∀ (p : PortId) (w : Fin 5) (r : Fin 6) (f rev : Bool) (inv : BitVec 16) (aspm : BitVec 2) (g : FaceId), s.role p =
    roleUP → s.faceOf p = some g.val → s.ivOn .fperst g = true → lsDETECT ≤ s.link p → s.link p < lsRECOVERY → s.on
    (.port p) .PORT_LINK_CTRL_DISABLE = false → s.noClock p = false → s.belowMin p (2 ^ min w.val (s.pcieWidest p)) =
    false → min (r.val + 1) (s.pcieFastest p) ≠ 0 → Gives (.pcieLinkUp p w r f rev inv aspm) s fun t => t.link p =
    lsL0 ∧ t.rd (.face g) .FACE_BIND_STATE = 2) ∧
  (∀ (p : PortId) (w : Fin 5) (r : Fin 6) (f rev : Bool) (inv : BitVec 16) (aspm : BitVec 2), s.role p = roleDOWN →
    s.link p = lsRECOVERY → s.on (.port p) .PORT_LINK_CTRL_DISABLE = false → s.noClock p = false → s.belowMin p (2 ^
    min w.val (s.pcieWidest p)) = false → min (r.val + 1) (s.pcieFastest p) ≠ 0 → Gives (.pcieLinkUp p w r f rev inv
    aspm) s fun t => t.link p = lsL0) ∧
  (∀ (p : PortId) (n : Fin 256), s.isFab p = false → s.carries p = true → Gives (.pcieReplayNumRollover p n) s fun t
    => t.link p = lsRECOVERY ∧ t.rd (.port p) .PORT_REPLAY_CNT_CONSEC = n)

/-- R228 to R235, R237 to R241, R251: what moves SEQ, NUM, credits and the replay buffer of a FAB port. -/
def Obligations.LinkCreditsAndAcksComplete : Prop :=
  ∀ s : State, s.Awake →
  (∀ (p : PortId) (b : BitVec 64), s.linkRuns p = true → blkCrcOk b = true → blkByte b 0 = 0x71 → bits (blkByte b 1) 4
    3 ≠ poolCTL → s.ivOn .crInit (crIdx p (blkByte b 1 % 8) (bits (blkByte b 1) 4 3)) = true ∨ leastCredits (bits
    (blkByte b 1) 4 3) ≤ blkByte b 2 + blkByte b 3 <<< 8 + blkByte b 4 <<< 16 → Gives (.creditBlockReceived p b) s fun
    t => t.iv .txLimit (crIdx p (blkByte b 1 % 8) (bits (blkByte b 1) 4 3)) = blkByte b 2 + blkByte b 3 <<< 8 +
    blkByte b 4 <<< 16) ∧
  (∀ (p : PortId) (c : ClassId) (x : PoolId), s.linkRuns p = true → s.link p ≠ lsREST → x.val ≠ poolCTL → Gives
    (.creditUpdateSend p c x) s fun t => t.out = Out.ctlBlock p 0x71 (c + x.val <<< 3 + (t.iv .crAdv (crIdx p c x) % 2
    ^ 24) <<< 8) :: s.out) ∧
  (∀ (p : PortId) (c : ClassId) (x : PoolId), s.isFab p = false → s.link p = lsL0 → x.val ≠ poolCTL → Gives
    (.creditUpdateSend p c x) s fun t => t.out = Out.flowCredit p x.val (t.iv .crAdv (crIdx p 0 x)) :: s.out) ∧
  (∀ (p : PortId), s.linkRuns p = true → s.link p ≠ lsREST → Gives (.creditRefresh p) s fun t => t.out.length =
    s.out.length + 25) ∧
  (∀ (p : PortId) (c : ClassId) (x : PoolId), s.role p ≠ 0 → s.carries p = true ∨ s.mayNarrow p = true → s.rd (.port
    p) .PORT_LINK_CTRL_CREDIT_STALL < 0xE → (s.buf.any fun k => k.pool == x.val && (x.val == poolCTL || k.frame.cls ==
    c.val) && s.lacksCredits p k) = true → Gives (.creditStallTimeout p c x) s fun t => (t.rd (.port p)
    .ERR_STICKY_BITS).testBit Err.PORT_CREDIT_STALL.bit = true ∧ t.buf = s.buf) ∧
  (∀ (p : PortId), s.linkRuns p = true → s.on (.port p) .PORT_LINK_STAT_ENC = true → Gives (.numRekeyThreshold p) s
    fun t => t.out = Out.keyRequest p :: s.out ∧ t.iv .txNum p = max (2 ^ 40) (s.iv .txNum p)) ∧
  (∀ (p : PortId), s.linkRuns p = true → s.on (.port p) .PORT_LINK_STAT_ENC = true → s.ivOn .nextKey p = false → Gives
    (.numExhausted p) s fun t => t.iv .txNum p = 2 ^ 48 ∧ t.out = s.out) ∧
  (∀ (p : PortId) (lf : LinkFrame), s.linkRuns p = true → s.laneBad p lf = false → lf.crcOk = true → lf.countOk = true
    → lf.noSeq = false → lf.seq = s.iv .rxSeq p → s.on (.port p) .PORT_LINK_STAT_ENC = false ∨ lf.enc = true ∧
    s.tagGood p lf (s.iv .rxNum (2 * p + lf.keyPhase)) = true → credits lf.len ≤ s.outstanding p (s.acctClass p lf.cls
    lf.pool) lf.pool → Gives (.daendFrameReceived p lf) s fun t => t.iv .rxSeq p = (lf.seq + 1) % 4096 ∧ t.iv .crUsed
    (crIdx p (s.acctClass p lf.cls lf.pool) lf.pool) = s.iv .crUsed (crIdx p (s.acctClass p lf.cls lf.pool) lf.pool) +
    credits lf.len ∧ t.cnt (.port p) 0 = min (s.cnt (.port p) 0 + 1) cntMax) ∧
  (∀ (p : PortId) (lf : LinkFrame), s.linkRuns p = true → s.laneBad p lf = true ∨ lf.crcOk = false ∨ lf.countOk =
    false → Gives (.daendFrameReceived p lf) s fun t => (t.rd (.port p) .ERR_STICKY_BITS).testBit Err.PORT_CRC_ERR.bit
    = true ∧ t.iv .rxSeq p = s.iv .rxSeq p ∧ t.iv .nakSent p ≠ 0) ∧
  (∀ (p : PortId) (lf : LinkFrame), s.linkRuns p = true → s.laneBad p lf = false → lf.crcOk = true → lf.countOk = true
    → lf.noSeq = false → 1 ≤ (s.iv .rxSeq p + 4096 - lf.seq) % 4096 → (s.iv .rxSeq p + 4096 - lf.seq) % 4096 ≤ 2048 →
    s.link p ≠ lsREST → Gives (.daendFrameReceived p lf) s fun t => t.iv .rxSeq p = s.iv .rxSeq p ∧ t.out.head? = some
    (Out.ctlBlock p 0x55 (seqPrev (s.iv .rxSeq p))) ∧ t.cnt (.port p) 9 = min (s.cnt (.port p) 9 + 1) cntMax) ∧
  (∀ (p : PortId), s.linkRuns p = true → s.link p ≠ lsREST → s.ivOn .rxUnacked p = true → Gives (.ackCoalesceExpiry p)
    s fun t => t.out = Out.ctlBlock p 0x55 (seqPrev (s.iv .rxSeq p)) :: s.out ∧ t.iv .rxUnacked p = 0) ∧
  (∀ (p : PortId) (b : BitVec 64), s.linkRuns p = true → blkCrcOk b = true → blkByte b 0 = 0x55 → s.unsent p (ackSeq
    b) = false → s.sentAfter p (ackSeq b) < (s.replayOf p).length → Gives (.ackReceived p b) s fun t => t.replayOf p =
    (s.replayOf p).drop ((s.replayOf p).length - s.sentAfter p (ackSeq b)) ∧ t.rd (.port p) .PORT_REPLAY_CNT_CONSEC =
    0) ∧
  (∀ (p : PortId) (b : BitVec 64), s.isFab p = false → s.carries p = true → (ackSeq b + 4096 - s.iv .pcieAcked p) %
    4096 < s.pcieUnacked p → Gives (.ackReceived p b) s fun t => t.iv .pcieAcked p = (ackSeq b + 1) % 4096) ∧
  (∀ (p : PortId) (b : BitVec 64), s.linkRuns p = true → blkCrcOk b = true → blkByte b 0 = 0x69 → s.unsent p (ackSeq
    b) = false → s.sentAfter p (ackSeq b) < (s.replayOf p).length → s.sentAfter p (ackSeq b) ≠ 0 → s.iv .replayAt p =
    0 → 1 < s.rd (.port p) .PORT_REPLAY_CNT_LIMIT → Gives (.nakReceived p b) s fun t => t.replayOf p = (s.replayOf
    p).drop ((s.replayOf p).length - s.sentAfter p (ackSeq b)) ∧ t.iv .replayAt p = 1) ∧
  (∀ (p : PortId) (b : BitVec 64), s.isFab p = false → s.carries p = true → Gives (.nakReceived p b) s fun t => t.cnt
    (.port p) 6 = min (s.cnt (.port p) 6 + 1) cntMax ∧ t.cnt (.port p) 7 = min (s.cnt (.port p) 7 + 1) cntMax) ∧
  (∀ (p : PortId), s.linkRuns p = true → (s.replayOf p).isEmpty = false → s.rd (.port p) .PORT_REPLAY_CNT_CONSEC + 1 <
    s.rd (.port p) .PORT_REPLAY_CNT_LIMIT → Gives (.replayTimeout p) s fun t => t.iv .replayAt p = 1 ∧ t.rd (.port p)
    .PORT_REPLAY_CNT_CONSEC = (s.rd (.port p) .PORT_REPLAY_CNT_CONSEC + 1) % 2 ^ Fld.PORT_REPLAY_CNT_CONSEC.width ∧
    t.cnt (.port p) 7 = min (s.cnt (.port p) 7 + 1) cntMax) ∧
  (∀ (p : PortId), s.linkRuns p = true → (s.replayOf p).isEmpty = false → s.rd (.port p) .PORT_REPLAY_CNT_LIMIT ≤ s.rd
    (.port p) .PORT_REPLAY_CNT_CONSEC + 1 → Gives (.replayTimeout p) s fun t => t.replayOf p = [] ∧ t.link p =
    s.restState p ∧ (t.rd (.port p) .ERR_STICKY_BITS).testBit Err.PORT_REPLAY_LIMIT.bit = true) ∧
  (∀ (p : PortId) (fc : BitVec 3) (r : TxFrame) (l : List TxFrame), s.atBoundary p = true → s.linkTalks p = true →
    s.ivOn .mkDue p = false ∨ s.on (.port p) .PORT_CFG_CYC_TX = false → s.iv .replayAt p = 1 → s.replayOf p = r :: l →
    Gives (.egressFrameBoundary p fc) s fun t => t.out = Out.linkOut p r.seq false r.enc r.phase r.pool r.num r.frame
    :: s.out ∧ (t.iv .replayAt p = (if l.isEmpty then 0 else 2))) ∧
  (∀ (p : PortId) (l : Nat), s.hatchActive p = some l → s.inCycle = true → s.rd (.sched p) .SCHED_HATCH_STAT_ENTRY_NOW
    + 1 < s.hatchCount p l → Gives (.hatchEntry p) s fun t => t.rd (.sched p) .SCHED_HATCH_STAT_ENTRY_NOW = (s.rd
    (.sched p) .SCHED_HATCH_STAT_ENTRY_NOW + 1) % 2 ^ Fld.SCHED_HATCH_STAT_ENTRY_NOW.width ∧ s.now ≤ t.now) ∧
  (∀ (p : PortId), s.isFab p = true → s.link p = lsREST → 200 ≤ s.restTime p → (s.buf.any fun k => (k.waitsFor
    p).isSome && !(s.gates p).testBit k.frame.cls && !s.lacksCredits p k) = true → Gives (.gateWakeLead p) s fun t =>
    t.link p = lsUP ∧ t.iv .restSince p = 0)

/-- R172, R189 to R195, R210 to R213, R245 to R247, R252 to R257, R260, R719: width changes, lane failure, Rest and
software control of a link. -/
def Obligations.WidthRestAndFailureComplete : Prop :=
  ∀ s : State, s.Awake →
  (∀ (l : LaneId), s.ln l .LANE_STAT_ALIGN_LOCK = 1 → s.iv .rxRest l = 0 → s.laneState l = laneACTIVE → Gives
    (.alignLoss l) s fun t => t.laneState l = laneOFF ∧ t.ln l .LANE_STAT_FAILED = 1 ∧ t.ln l .LANE_STAT_ALIGN_LOCK =
    0) ∧
  (∀ (l : LaneId) (lost : Bool), s.laneState l = laneACTIVE → s.iv .rxRest l = 0 → s.ln l .LANE_RATE_CFG_MODE ≠
    modePCIe → Gives (.cdrLossTimeout l lost) s fun t => t.laneState l = laneOFF ∧ t.ln l .LANE_STAT_FAILED = 1 ∧
    (t.rd (.lane (l / 8)) .ERR_STICKY_BITS).testBit (Err.LANE_LANE_FAIL (l % 8)).bit = true) ∧
  (∀ (l : LaneId) (lost : Bool), s.iv .rxRest l = 0 → s.laneState l ≠ laneACTIVE → Gives (.cdrLossTimeout l lost) s
    fun t => t.ln l .LANE_STAT_CDR_LOCK = 0 ∧ t.cnt (.lane (l / 8)) (16 * (l % 8) + 8) = min (s.cnt (.lane (l / 8))
    (16 * (l % 8) + 8) + 1) cntMax ∧ t.laneState l = s.laneState l) ∧
  (∀ (l : LaneId), s.laneState l = laneACTIVE → Gives (.uncorrectableLimit l) s fun t => t.laneState l = laneOFF ∧
    t.ln l .LANE_STAT_FAILED = 1) ∧
  (∀ (p : PortId) (b : BitVec 64), s.isFab p = true → s.link p = lsUP → s.iv .wcFrom p = 0 → s.iv .wcDone p ≠ (blkByte
    b 1 + blkByte b 2 <<< 8) * 256 + blkByte b 3 + 1 → blkCrcOk b = true → blkByte b 0 = 0xA5 → s.belowMin p (setLanes
    (blkByte b 1 + blkByte b 2 <<< 8)).length = false → Gives (.lanemapReceived p b) s fun t => t.rd (.port p)
    .PORT_LINK_STAT_LANES_GOOD = blkByte b 1 + blkByte b 2 <<< 8 ∧ t.link p = lsUP) ∧
  (∀ (p : PortId), s.isFab p = true → s.ivOn .widening p = true → s.inService p = true → (((s.portLanes p).filter fun
    l => s.laneState l == laneTRAIN).all fun l => s.ln l .LANE_STAT_EQ_DONE == 1) = true → Gives (.wideningLanesReady
    p) s fun t => t.link p = lsWIDTH ∧ t.iv .wcSet p = s.iv .widening p) ∧
  (∀ (p : PortId), s.isFab p = true → s.link p = lsWIDTH → s.linkHeld p = false → Gives (.widthChangeTimeout p) s fun
    t => t.link p = lsDOWN ∧ (t.rd (.port p) .ERR_STICKY_BITS).testBit Err.PORT_WIDTH_FAIL.bit = true) ∧
  (∀ (p : PortId), s.role p ≠ 0 → s.trained p = true → Gives (.linkLoss p) s fun t => t.link p = s.restState p ∧ (t.rd
    (.port p) .ERR_STICKY_BITS).testBit Err.PORT_LINK_DOWN.bit = true) ∧
  (∀ (p : PortId), s.isFab p = true → s.link p = lsUP → s.on (.port p) .PORT_LINK_CTRL_REST_EN = true → s.ivOn
    .partnerRest p = true → s.nothingReady p = true → ((s.portLanes p).all fun l => s.ln l .LANE_REST_CTRL_REST_EN ==
    1) = true → Gives (.restIdleExpiry p) s fun t => Out.restBlock p ∈ t.out ∧ t.link p = lsREST ∧ t.iv .restSince p =
    s.now + 1) ∧
  (∀ (l : LaneId), s.ln l .LANE_RATE_CFG_MODE = modeDaend → s.laneState l = laneACTIVE → Gives (.restReceived l) s fun
    t => t.laneState l = laneREST ∧ t.ivOn .rxRest l = true ∧ t.ln l .LANE_REST_CTRL_IN_REST = 1) ∧
  (∀ (p : PortId), s.isFab p = true → s.link p = lsREST → 200 ≤ s.restTime p → Gives (.restExit p) s fun t => t.link p
    = lsUP ∧ t.iv .restSince p = 0) ∧
  (∀ (p : PortId), s.isFab p = true → s.link p = lsREST → s.restTime p < 200 → Gives (.restExit p) s fun t => t.link p
    = lsREST ∧ t.iv .restPend p = 1) ∧
  (∀ (l : LaneId), s.ivOn .rxRest l = true → Gives (.restExitFail l) s fun t => t.ln l .LANE_STAT_EXIT_FAIL = 1 ∧
    t.ivOn .rxRest l = false) ∧
  (∀ (st : Stamp) (p : PortId) (v : Word), s.locked (.port p) = false → s.isFab p = true → v.getLsbD 31 = true →
    v.getLsbD 29 = false → s.link p ≠ lsCONTAINED → s.portHeld p = false → s.pathOpen st = true → Gives (.portRetrain
    st p v) s fun t => t.link p = lsDOWN ∧ t.iv .curSet p = 0) ∧
  (∀ (st : Stamp) (p : PortId), s.pathOpen st = true → Gives (.portContain st p) s fun t => t.greqs = s.greqs ++
    [(⟨.port p, 0, .fd, .dom (s.portDom p), 0x10, 0, st.code, false⟩ : GReq)]) ∧
  (∀ (st : Stamp) (p : PortId) (v : Word), s.locked (.port p) = false → v.getLsbD 31 = true → s.portHeld p = false →
    s.cfgRefused p v.toNat = true → s.pathOpen st = true → Gives (.portCfgApply st p v) s fun t => t.rd (.port p)
    .PORT_CFG_REFUSED = 1 ∧ (t.rd (.port p) .ERR_STICKY_BITS).testBit Err.PORT_CFG_REFUSED.bit = true ∧ t.role p =
    s.role p) ∧
  (∀ (st : Stamp) (p : PortId) (v : Word), s.locked (.port p) = false → v.getLsbD 31 = true → s.cfgRefused p v.toNat =
    false → s.sharedRefused (s.portReserve p) (s.reserveAs p roleFAB) = false → s.role p = 0 → s.portHeld p = false →
    bits v.toNat 29 28 = roleFAB → s.pathOpen st = true → Gives (.portCfgApply st p v) s fun t => t.role p = roleFAB ∧
    t.link p = lsDOWN ∧ t.rd (.port p) .PORT_CFG_REFUSED = 0)

/-- R263, R264, R268 to R271, R276 to R285, R721: binding, presented devices, MSI-X, windows. -/
def Obligations.FacesCompleteBindingAndWindows : Prop :=
  ∀ s : State, s.Awake →
  (∀ (st : Stamp) (f : FaceId) (v : Word), s.locked (.face f) = false → s.bindRefused f v.toNat = false → v.getLsbD 31
    = true → s.on (.face f) .FACE_BIND_ENABLE = false → s.pathOpen st = true → Gives (.faceBindWrite st f v) s fun t
    => t.on (.face f) .FACE_BIND_ENABLE = true ∧ t.facePort f = Fld.FACE_BIND_PORT.of v.toNat ∧ t.rd (.face f)
    .FACE_BIND_STATE = fcRESET) ∧
  (∀ (st : Stamp) (f : FaceId) (v : Word), s.locked (.face f) = false → s.bindRefused f v.toNat = true → s.pathOpen st
    = true → Gives (.faceBindWrite st f v) s fun t => t.rd (.face f) .FACE_BIND_ENABLE = s.rd (.face f)
    .FACE_BIND_ENABLE ∧ t.facePort f = s.facePort f ∧ (t.rd (.face f) .ERR_STICKY_BITS).testBit
    Err.FACE_CFG_REFUSED.bit = true) ∧
  (∀ (st : Stamp) (f : FaceId) (n : Fin 255) (v : Word), s.locked (.face f) = false → s.pathOpen st = true → Gives
    (.presentationUpdate st f (some n) v) s fun t => t.presFeid f n = Fld.FACE_PRES_FEID.of v.toNat ∧ t.presVdp f n =
    Fld.FACE_PRES_VDP.of v.toNat ∧ t.presSub f n = Fld.FACE_PRES_SUB.of v.toNat ∧ t.rd (.face f) .FACE_PRES_VALID n =
    Fld.FACE_PRES_VALID.of v.toNat) ∧
  (∀ (f : FaceId) (n : Fin 255) (bs : List BarLayout), s.ivOn .sizing (256 * f + n) = true → Gives (.barSizingDone f n
    bs) s fun t => t.presShown f n = true ∧ t.iv .sizing (256 * f + n) = 0 ∧ Out.hotPlug f (s.presVdp f n) (s.presSub
    f n) true ∈ t.out) ∧
  (∀ (f : FaceId) (o : BitVec 16) (v : Word), s.bar4Empty f = false → o.toNat < 0x8000 → o.toNat % 16 / 4 = 2 → Gives
    (.msixTableWrite f o v) s fun t => t.iv .msixData (2048 * f + o.toNat / 16) = v.toNat) ∧
  (∀ (f : FaceId) (o : BitVec 16) (v : Word), s.bar4Empty f = false → o.toNat < 0x8000 → o.toNat % 16 / 4 = 0 → Gives
    (.msixTableWrite f o v) s fun t => t.iv .msixAddr (2048 * f + o.toNat / 16) = s.iv .msixAddr (2048 * f + o.toNat /
    16) - s.iv .msixAddr (2048 * f + o.toNat / 16) % 2 ^ 32 + v.toNat) ∧
  (∀ (f : FaceId) (o : BitVec 16) (v : Word), s.bar4Empty f = false → o.toNat < 0x8000 → o.toNat % 16 / 4 = 1 → Gives
    (.msixTableWrite f o v) s fun t => t.iv .msixAddr (2048 * f + o.toNat / 16) = s.iv .msixAddr (2048 * f + o.toNat /
    16) % 2 ^ 32 + v.toNat <<< 32) ∧
  (∀ (f : FaceId) (o : BitVec 16) (v : Word), s.bar4Empty f = false → o.toNat < 0x8000 → o.toNat % 16 / 4 = 3 → Gives
    (.msixTableWrite f o v) s fun t => t.iv .msixOpen (2048 * f + o.toNat / 16) = 1 - v.toNat % 2) ∧
  (∀ (f : FaceId) (o : BitVec 16) (v : Word), 0x8000 ≤ o.toNat → Gives (.msixTableWrite f o v) s fun t => t.ivs =
    s.ivs ∧ t.out = s.out) ∧
  (∀ (f : FaceId) (n : VecId), s.msixOpen f = true → s.ivOn .msixOpen (2048 * f + n) = true → Gives
    (.interruptSourceFire f n) s fun t => Out.msix f n (s.iv .msixAddr (2048 * f + n)) (s.iv .msixData (2048 * f + n))
    ∈ t.out ∧ t.cnt (.face f) 3 = min (s.cnt (.face f) 3 + 1) cntMax) ∧
  (∀ (f : FaceId) (n : VecId), (s.msixOpen f && s.ivOn .msixOpen (2048 * f + n)) = false → Gives (.interruptSourceFire
    f n) s fun t => t.iv .msixPend (2048 * f + n) = 1 ∧ t.out = s.out) ∧
  (∀ (st : Stamp) (f : FaceId) (v : Word), s.locked (.face f) = false → v.getLsbD 31 = true → bits v.toNat 27 26 = 0 →
    s.winStatus f (some (v.toNat % 256)) (s.staged st.code f) = 0 → s.pathOpen st = true → Gives (.windowWrite st f v)
    s fun t => t.wtValid f (v.toNat % 256) = true ∧ ((s.staged st.code f).linked = false → t.wtBase f (v.toNat % 256)
    = (s.staged st.code f).base) ∧ t.wtXlat f (v.toNat % 256) = (s.staged st.code f).xlat ∧ t.wtLog2 f (v.toNat % 256)
    = (s.staged st.code f).log2 ∧ t.rd (.face f) .FACE_WIN_COMMIT_STATUS = 0) ∧
  (∀ (st : Stamp) (f : FaceId) (v : Word), s.locked (.face f) = false → v.getLsbD 31 = true → bits v.toNat 27 26 = 0 →
    s.winStatus f (some (v.toNat % 256)) (s.staged st.code f) ≠ 0 → s.pathOpen st = true → Gives (.windowWrite st f v)
    s fun t => t.rd (.face f) .FACE_WIN_COMMIT_STATUS = s.winStatus f (some (v.toNat % 256)) (s.staged st.code f) ∧
    (t.rd (.face f) .ERR_STICKY_BITS).testBit Err.FACE_WIN_REFUSED.bit = true ∧ t.wtValid f (v.toNat % 256) =
    s.wtValid f (v.toNat % 256) ∧ t.wtBase f (v.toNat % 256) = s.wtBase f (v.toNat % 256)) ∧
  (∀ (st : Stamp) (f : FaceId) (v : Word) (i : Nat), s.locked (.face f) = false → v.getLsbD 31 = true → bits v.toNat
    27 26 = 1 → firstBelow 256 (fun i => !s.wtValid f i) = some i → s.winStatus f (some i) (s.staged st.code f) = 0 →
    s.pathOpen st = true → Gives (.windowWriteAny st f v) s fun t => t.wtValid f i = true ∧ ((s.staged st.code
    f).linked = false → t.wtBase f i = (s.staged st.code f).base) ∧ t.wtXlat f i = (s.staged st.code f).xlat ∧
    t.wtLog2 f i = (s.staged st.code f).log2 ∧ t.rd (.face f) .FACE_WIN_COMMIT_STATUS = 0 ∧ t.rd (.face f)
    .FACE_WIN_COMMIT_INDEX = i) ∧
  (∀ (st : Stamp) (f : FaceId) (v : Word), s.locked (.face f) = false → v.getLsbD 31 = true → bits v.toNat 27 26 = 2 →
    s.pathOpen st = true → Gives (.windowInvalidate st f v) s fun t => t.wtValid f (v.toNat % 256) = false ∧ t.rd
    (.face f) .FACE_WIN_COMMIT_STATUS = 0)

/-- R30 to R32, R265 to R267, R272, R286, R292, R359, R376, R556: configuration and memory requests of a host. -/
def Obligations.HostRequestsComplete : Prop :=
  ∀ s : State, s.Awake →
  (∀ (f : FaceId) (c : CfgReq) (v : Word) (b : Nat), s.faceLive f = true → s.rd (.face f) .FACE_BIND_STATE = fcREADY →
    s.elemOf f c = .bridge b → c.write = some v → c.reg = .buses → Gives (.configRequest f c) s fun t => t.iv .secBus
    (4096 * f + b) = bits v.toNat 15 8 ∧ t.iv .subBus (4096 * f + b) = bits v.toNat 23 16 ∧ t.out.head? = some
    (Out.cplOut (s.facePort f) .sc c.rid.toNat c.tag.toNat)) ∧
  (∀ (f : FaceId) (c : CfgReq) (v : Word) (b : Nat), s.faceLive f = true → s.rd (.face f) .FACE_BIND_STATE = fcREADY →
    s.elemOf f c = .bridge b → 0 < b → c.write = some v → c.reg = .command → Gives (.configRequest f c) s fun t =>
    t.iv .mse (4096 * f + b) = bits v.toNat 1 1 ∧ t.iv .bme (4096 * f + b) = bits v.toNat 2 2 ∧ t.out.head? = some
    (Out.cplOut (s.facePort f) .sc c.rid.toNat c.tag.toNat)) ∧
  (∀ (f : FaceId) (c : CfgReq) (v : Word) (k : Fin 6), s.faceLive f = true → s.rd (.face f) .FACE_BIND_STATE = fcREADY
    → s.elemOf f c = .service → c.write = some v → c.reg = .bar k → Gives (.configRequest f c) s fun t => t.iv .seBar
    (8 * f + k) = v.toNat &&& seBarMask k ∧ t.out.head? = some (Out.cplOut (s.facePort f) .sc c.rid.toNat
    c.tag.toNat)) ∧
  (∀ (f : FaceId) (c : CfgReq) (n fn delta : Nat) (k : Fin 6), s.faceLive f = true → s.rd (.face f) .FACE_BIND_STATE =
    fcREADY → s.elemOf f c = .device n fn delta → c.write = none → c.reg = .bar k → Gives (.configRequest f c) s fun t
    => t.out.head? = some (Out.cfgCpl f c.rid.toNat c.tag.toNat (s.presBarValue f n fn k)) ∧ t.slots = s.slots) ∧
  (∀ (f : FaceId) (c : CfgReq), s.faceLive f = true → s.rd (.face f) .FACE_BIND_STATE = fcRETRY → Gives
    (.configRequest f c) s fun t => t.out.head? = some (Out.cplOut (s.facePort f) .crs c.rid.toNat c.tag.toNat)) ∧
  (∀ (f : FaceId) (c : CfgReq), s.faceLive f = true → s.rd (.face f) .FACE_BIND_STATE = fcREADY → s.elemOf f c = .none
    → Gives (.configRequest f c) s fun t => t.out.head? = some (Out.cplOut (s.facePort f) .ur c.rid.toNat
    c.tag.toNat)) ∧
  (∀ (f : FaceId) (u : Tlp) (x : Sel) (ad k : Nat) (q : PortId), s.faceLive f = true → u.kind = .memRd → u.locked =
    false → u.ep = false → s.seHit? f u.addr.toNat u.len = none → s.seTouched f u.addr.toNat u.len = false →
    s.hostLookup f u = .ok (x, ad) → x.group = none → x.retain = false → s.ivOn .portFenced (s.facePort f) = false →
    s.faceHolds f = false → s.wayTo s.live x.dest none = some (.port q) → s.refusal (s.hostFrame f u x) (.port q) =
    none → s.admitsAt (s.facePort f) q x.cls = true → s.prefetches u x = false → s.freeTag? f false false = some k →
    Gives (.hostMemoryRequest f u) s fun t => t.cnt (.face f) 1 = min (s.cnt (.face f) 1 + 1) cntMax ∧ t.cnt (.face f)
    0 = min (s.cnt (.face f) 0 + 1) cntMax ∧ t.slots = s.slots ++ [⟨f, false, k, slBUSY, .host, false, u.rid.toNat,
    u.tag.toNat, 0, false, x.dest, false, 0, false⟩] ∧ t.buf.take s.buf.length = s.buf ∧ ((t.buf.drop
    s.buf.length).map (fun k => (k.ing, k.frame.dest, k.frame.tag, k.copies.map (·.dst))) = [(.port (s.facePort f),
    x.dest, k, [.port q.val])])) ∧
  (∀ (f : FaceId) (u : Tlp) (x : Sel) (ad : Nat) (q : PortId), s.faceLive f = true → u.kind = .memWr → u.ep = false →
    s.seHit? f u.addr.toNat u.len = none → s.seTouched f u.addr.toNat u.len = false → s.hostLookup f u = .ok (x, ad) →
    x.group = none → x.retain = false → s.ivOn .portFenced (s.facePort f) = false → s.faceHolds f = false → s.wayTo
    s.live x.dest none = some (.port q) → s.refusal (s.hostFrame f u x) (.port q) = none → s.admitsAt (s.facePort f) q
    x.cls = true → Gives (.hostMemoryRequest f u) s fun t => t.cnt (.face f) 0 = min (s.cnt (.face f) 0 + 1) cntMax ∧
    t.slots = s.slots ∧ t.buf.take s.buf.length = s.buf ∧ ((t.buf.drop s.buf.length).map (fun k => (k.ing,
    k.frame.dest, k.frame.tag, k.copies.map (·.dst))) = [(.port (s.facePort f), x.dest, 0, [.port q.val])])) ∧
  (∀ (f : FaceId) (u : Tlp) (off : Nat), s.faceLive f = true → s.seAwake f = true → u.kind = .memRd → s.seHit? f
    u.addr.toNat u.len = some (4, off) → off % 4 = 0 → u.len = 4 → Gives (.hostMemoryRequest f u) s fun t =>
    t.out.head? = some (Out.value (.face f) (s.bar4Dword f off))) ∧
  (∀ (f : FaceId) (u : Tlp) (c ad : Nat), s.faceLive f = true → u.kind = .memRd → u.locked = false → u.ep = false →
    s.seHit? f u.addr.toNat u.len = none → s.seTouched f u.addr.toNat u.len = false → s.hostLookup f u = .error (c,
    ad) → Gives (.hostMemoryRequest f u) s fun t => Out.cplOut (s.facePort f) .ur u.rid.toNat u.tag.toNat ∈ t.out ∧
    t.slots = s.slots ∧ (t.rd (.route 0) .ERR_STICKY_BITS).testBit (missErr c).bit = true) ∧
  (∀ (f : FaceId) (u : Tlp) (x : Sel) (ad k : Nat) (q : PortId), s.faceLive f = true → u.kind = .memRd → u.locked =
    true → u.ep = false → s.seHit? f u.addr.toNat u.len = none → s.seTouched f u.addr.toNat u.len = false →
    s.hostLookup f u = .ok (x, ad) → x.group = none → x.retain = false → s.ivOn .portFenced (s.facePort f) = false →
    s.faceHolds f = false → s.wayTo s.live x.dest none = some (.port q) → s.refusal (s.hostFrame f u x) (.port q) =
    none → s.admitsAt (s.facePort f) q x.cls = true → (s.lockRefusal f x.dest).isNone = true → s.iv .lockDest f = 0 →
    s.freeTag? f false false = some k → Gives (.lockedRead f u) s fun t => t.cnt (.face f) 1 = min (s.cnt (.face f) 1
    + 1) cntMax ∧ t.cnt (.face f) 0 = min (s.cnt (.face f) 0 + 1) cntMax ∧ t.iv .lockDest f = 1 + x.dest ∧ t.slots =
    s.slots ++ [⟨f, false, k, slBUSY, .host, true, u.rid.toNat, u.tag.toNat, 0, false, x.dest, false, 0, false⟩] ∧
    t.buf.take s.buf.length = s.buf ∧ ((t.buf.drop s.buf.length).map (fun k => (k.ing, k.frame.dest, k.frame.tag,
    k.copies.map (·.dst))) = [(.port (s.facePort f), x.dest, k, [.port q.val])])) ∧
  (∀ (f : FaceId) (u : Tlp) (x : Sel) (ad : Nat), s.faceLive f = true → u.kind = .memRd → u.locked = true → u.ep =
    false → s.seHit? f u.addr.toNat u.len = none → s.seTouched f u.addr.toNat u.len = false → s.hostLookup f u = .ok
    (x, ad) → (s.lockRefusal f x.dest).isSome = true → Gives (.lockedRead f u) s fun t => Out.cplOut (s.facePort f)
    .ur u.rid.toNat u.tag.toNat ∈ t.out ∧ t.slots = s.slots ∧ t.buf = s.buf) ∧
  (∀ (f : FaceId) (w : Waiting) (u : Tlp) (k : Nat) (q : PortId), s.waiting = [w] → w.why = .tag f.val →
    w.pkt.frame.body = .tlp u → u.kind = .cfgRd → u.ep = false → w.pkt.frame.retain = false → w.pkt.frame.mc = false →
    s.on (.face f) .BLK_CTRL_QUIESCE = false → s.ivOn .portFenced (s.facePort f) = false → s.freeTag? f false false =
    some k → s.wayTo s.live w.pkt.frame.dest none = some (.port q) → s.refusal w.pkt.frame (.port q) = none →
    ({ s with waiting := [] } : State).admitsAt (s.facePort f) q w.pkt.frame.cls = true → (allBelow 64 fun e =>
    (s.engRings e).any fun n => s.ringFace n == f.val) = [] → Gives (.heldRequestAdmit f) s fun t => t.cnt (.face f) 1
    = min (s.cnt (.face f) 1 + 1) cntMax ∧ t.cnt (.face f) 0 = min (s.cnt (.face f) 0 + 1) cntMax ∧ t.waiting = [] ∧
    t.slots = s.slots ++ [⟨f, false, k, slBUSY, .host, false, u.rid.toNat, u.tag.toNat, 0, false, w.pkt.frame.dest,
    false, 0, false⟩] ∧ ((t.buf.drop s.buf.length).map (fun j => (j.frame.dest, j.frame.tag, j.copies.map (·.dst))) =
    [(w.pkt.frame.dest, k, [.port q.val])]))

/-- R310, R314, R317, R321, R345, R347, R364, R408, R410, R472 and Tables CORE-1, CORE-3 and FABRIC-3: arrival, tail,
release from a hold, multicast groups, cell errors. -/
def Obligations.FramesEnterAndSettleInTheCore : Prop :=
  ∀ s : State, s.Awake →
  (∀ (p q : PortId) (lf : LinkFrame) (r : IdRoute), s.linkRuns p = true → s.link p ≠ lsPROVISIONAL → lf.frame.hcrc =
    lf.frame.hcrcOf → s.frameBad lf = false → lf.frame.linkLocal = false → lf.frame.typ ≠ 4 → s.plateUsable
    (lf.frame.parity % 2) = true → ((s.idRoute? (lf.frame.parity % 2) lf.frame.src).map (·.isLocal)).getD false =
    false → lf.frame.mc = false → s.idRoute? (lf.frame.parity % 2) lf.frame.dest = some r → r.isLocal = false →
    lf.frame.hops ≠ 0 → s.unreachable lf.frame.dest = false → s.wayTo (lf.frame.parity % 2) lf.frame.dest (some p.val)
    = some (.port q) → poisoned lf.frame = false → s.admitsAt p q lf.frame.cls = true → Gives (.headArrival (.fab p
    lf)) s fun t => t.buf.take s.buf.length = s.buf ∧ (t.buf.drop s.buf.length).map (·.frame) = [lf.frame] ∧
    t.buf.getLast?.map (·.copies.map (·.dst)) = some [.port q.val] ∧ t.waiting = s.waiting) ∧
  (∀ (p : PortId) (lf : LinkFrame), s.linkRuns p = true → s.link p ≠ lsPROVISIONAL → lf.frame.hcrc = lf.frame.hcrcOf →
    s.frameBad lf = false → (lf.frame.linkLocal || lf.frame.typ == 4) = true → Gives (.headArrival (.fab p lf)) s fun
    t => t.out = Out.selfOut lf.frame :: s.out ∧ t.buf = s.buf) ∧
  (∀ (p : PortId) (lf : LinkFrame), s.linkRuns p = true → s.link p ≠ lsPROVISIONAL → lf.frame.hcrc ≠ lf.frame.hcrcOf →
    Gives (.headArrival (.fab p lf)) s fun t => (t.rd (.bridge 4) .ERR_STICKY_BITS).testBit Err.FAB_HCRC.bit = true ∧
    t.buf = s.buf) ∧
  (∀ (p : PortId) (u : Tlp), s.role p = roleDOWN → s.link p = lsL0 → tlpCells u ≤ s.outstanding p 0 u.pool → s.ideBars
    p = false → u.kind = .memRd → u.locked = false → s.ridSpoofed p u.rid.toNat = true → Gives (.headArrival (.tlp p
    u)) s fun t => (t.rd (.port p) .ERR_STICKY_BITS).testBit Err.PORT_RID_SPOOF.bit = true ∧ Out.cplOut p .ur
    u.rid.toNat u.tag.toNat ∈ t.out ∧ t.buf = s.buf) ∧
  (∀ (p : PortId) (u : Tlp), s.isFab p = false → s.carries p = true → s.outstanding p 0 u.pool < tlpCells u → Gives
    (.headArrival (.tlp p u)) s fun t => (t.rd (.port p) .ERR_STICKY_BITS).testBit Err.PORT_CREDIT_OVERFLOW.bit = true
    ∧ t.buf = s.buf ∧ t.iv .crUsed (crIdx p 0 u.pool) = s.iv .crUsed (crIdx p 0 u.pool)) ∧
  (∀ (p : PortId) (u : Tlp) (n : Nat) (r : IdRoute) (x : Sel) (q : PortId), s.role p = roleDOWN → s.link p = lsL0 →
    tlpCells u ≤ s.outstanding p 0 u.pool → s.ideBars p = false → u.kind = .memWr → u.ep = false → s.ridSpoofed p
    u.rid.toNat = false → s.deviceFeid? p u.rid.toNat = some (n, r) → u.addr.toNat < 2 ^ 48 → s.stage2 r.part .memWr
    (r.space * 2 ^ 48 + u.addr.toNat) u.len = .ok x → x.group = none → x.retain = false → s.wayTo s.live x.dest none =
    some (.port q) → s.refusal (s.deviceFrame n u x) (.port q) = none → s.admitsAt p q x.cls = true → Gives
    (.headArrival (.tlp p u)) s fun t => t.cnt (.port p) 0 = min (s.cnt (.port p) 0 + 1) cntMax ∧ t.iv .crUsed (crIdx
    p 0 u.pool) = s.iv .crUsed (crIdx p 0 u.pool) + tlpCells u ∧ t.buf.take s.buf.length = s.buf ∧ ((t.buf.drop
    s.buf.length).map (fun k => (k.ing, k.frame.src, k.frame.dest, k.copies.map (·.dst))) = [(.port p.val, n, x.dest,
    [.port q.val])])) ∧
  (∀ (n : Nat) (c : TailChecks) (k : Pkt), s.frameOf n = some k → k.tailIn = false → c.linkOk = true → c.lengthOk =
    true → c.ideOk = true → s.fromFab k.ing = false → (k.copies.any fun x => x.dst == .self) = false → (s.tx
    k.frame.stream).resending = none → (s.waiting.any fun w => w.why == .tail n) = false → Gives (.tailArrival n c) s
    fun t => (t.buf = s.buf.map fun j => if j.id == k.id then { j with tailIn := true } else j)) ∧
  (∀ (n : Nat) (c : TailChecks) (k : Pkt), s.frameOf n = some k → s.buf.find? (fun j => j.id == n) = some k →
    s.waiting.isEmpty = true → k.tailIn = false → k.left = false → s.hasProof k = false → s.fromFab k.ing = false →
    c.linkOk = false → c.lengthOk = true → c.ideOk = true → Gives (.tailArrival n c) s fun t => (t.buf = s.buf.filter
    fun j => j.id != n) ∧ t.cnt (.core 0) 3075 = min (s.cnt (.core 0) 3075 + 1) cntMax) ∧
  (∀ (n m : Nat) (p q : PortId) (k : Pkt), s.waiting = [⟨.policer m, k⟩] → k.id = n → k.ing = .port p.val → k.lossy =
    false → s.fromFab (.port p.val) = true → k.copies = [⟨.port q.val, false, false⟩] → s.polFlag m 31 = true →
    (s.meter m (s.stored k.ing k.frame) green).1 < red → s.on (.core 0) .BLK_CTRL_QUIESCE = false → s.safeHalt = false
    → s.on (.port q) .BLK_CTRL_QUIESCE = false → s.portClosed q = false → s.unsampled = true → k.isEth = false →
    (s.buf.any (·.isEth)) = false → Gives (.policerHoldRelease n) s fun t => t.waiting = [] ∧ t.buf.length =
    s.buf.length + 1 ∧ t.iv .polAt m = s.now ∧ t.iv .polC m = (s.meter m (s.stored k.ing k.frame) green).2.1) ∧
  (∀ (q : PortId) (k : Pkt), s.waiting = [⟨.quiesce, k⟩] → s.mustWait k = none → k.lossy = false → s.retains k = false
    → k.copies = [⟨.port q.val, false, false⟩] → s.portClosed q = false → k.isEth = false → (s.buf.any (·.isEth)) =
    false → Gives (.admissionResume) s fun t => t.waiting = [] ∧ t.buf.length = s.buf.length + 1) ∧
  (∀ (st : Stamp) (d : Fin 4) (v : Word), s.locked (.core 0) = false → s.pathOpen st = true → Gives (.mcGroupStage st
    d v) s fun t => (t.iv .mcDw (4 * st.code + d) = v.toNat &&& (if d.val = 3 then 0xC0000000 else 0xFFFFFFFF)) ∧
    (t.iv .mcHas st.code).testBit d = true) ∧
  (∀ (st : Stamp) (v : Word), s.locked (.core 0) = false → v.getLsbD 31 = true → bits v.toNat 11 0 = s.rdSt st.code
    (.core 0) .CORE_MC_SEL_GROUP → s.iv .mcHas st.code = 15 → s.pathOpen st = true → Gives (.mcGroupCommit st v) s fun
    t => t.iv .mcCtl (bits v.toNat 11 0) = s.iv .mcDw (4 * st.code + 3) ∧ t.iv .mcMembers (bits v.toNat 11 0) = s.iv
    .mcDw (4 * st.code) + s.iv .mcDw (4 * st.code + 1) <<< 32 + s.iv .mcDw (4 * st.code + 2) <<< 64 ∧ t.iv .mcHas
    st.code = 0) ∧
  (∀ (n : Nat) (p : PortId) (k : Pkt), s.buf = [k] → k.id = n → s.holdRuns p k = true → k.lossy = false →
    (k.copies.all fun x => x.dst == .port p.val) = true → Gives (.mcHoldExpiry n p) s fun t => t.buf = [] ∧ t.now =
    s.now + (s.holdLimit - s.iv .holdCount (128 * n + p)) ∧ t.cnt (.core 0) 3072 = min (s.cnt (.core 0) 3072 + 1)
    cntMax ∧ (t.rd (.core 0) .ERR_STICKY_BITS).testBit Err.CORE_MC_PARTIAL.bit = true) ∧
  (∀ (n : Nat), (s.buf.any fun k => k.id == n) = true → Gives (.cellEccError n true) s fun t => t.cnt (.core 0) 3079 =
    min (s.cnt (.core 0) 3079 + 1) cntMax ∧ (t.rd (.core 0) .ERR_STICKY_BITS).testBit Err.CORE_ECC_CORR.bit = true ∧
    t.buf = s.buf) ∧
  (∀ (n : Nat) (k : Pkt), s.buf.find? (fun j => j.id == n) = some k → k.left = false → s.hasProof k = false →
    (s.waiting.any fun w => w.why == .tail n) = false → Gives (.cellEccError n false) s fun t => t.cnt (.core 0) 3080
    = min (s.cnt (.core 0) 3080 + 1) cntMax ∧ (t.buf = s.buf.filter fun j => j.id != n) ∧ ((t.rd (.core 0)
    .ERR_STICKY_BITS).testBit (if s.covered k then Err.CORE_ECC_COVERED.bit else Err.CORE_ECC_LOST.bit) = true))

/-- R286 to R291: what a completion, a timeout and the end of quarantine do to a slot. -/
def Obligations.TagSlotsComplete : Prop :=
  ∀ s : State, s.Awake →
  (∀ (f : FaceId) (req link ep : Bool) (tg : BitVec 14) (u : Tlp) (x : Slot), s.slot? f req tg.toNat = some x → x.st =
    slBUSY → x.onLink = link → (link || s.tagEpoch f req tg.toNat == ep) = true → x.who = .host → x.extra = 0 →
    x.flush = false → u.final = true → Gives (.completionReceived f req link tg ep u) s fun t => (t.slots =
    s.slots.filter fun y => !y.is f req tg.toNat) ∧ t.out.head? = some (Out.tlpOut (s.facePort f) none (s.cplFrame
    x.dest ((s.faceFeid? f).getD 0) tg.toNat ep
    { u with rid := BitVec.ofNat 16 x.rid, tag := BitVec.ofNat 14 x.otag })) ∧ t.tagEpoch f req tg.toNat = s.tagEpoch
    f req tg.toNat) ∧
  (∀ (f : FaceId) (req link ep : Bool) (tg : BitVec 14) (u : Tlp) (x : Slot), s.slot? f req tg.toNat = some x → x.st =
    slABANDONED → x.onLink = link → (link || s.tagEpoch f req tg.toNat == ep) = true → u.final = true → Gives
    (.completionReceived f req link tg ep u) s fun t => (t.slots = s.slots.filter fun y => !y.is f req tg.toNat) ∧
    t.tagEpoch f req tg.toNat = !s.tagEpoch f req tg.toNat) ∧
  (∀ (f : FaceId) (req link ep : Bool) (tg : BitVec 14) (u : Tlp), (s.slots.any fun x => x.is f req tg.toNat) = false
    → Gives (.completionReceived f req link tg ep u) s fun t => t.slots = s.slots ∧ (t.rd (.face f)
    .ERR_STICKY_BITS).testBit Err.FACE_UNEXP_CPL.bit = true) ∧
  (∀ (f : FaceId) (req : Bool) (tg : BitVec 14) (x : Slot), s.slot? f req tg.toNat = some x → x.st ≠ slQUARANTINE →
    x.onLink = true → Gives (.cplTimeout f req tg) s fun t => (t.slots = s.slots.map fun y => if y.is f req tg.toNat
    then { y with st := slQUARANTINE } else y) ∧ ((t.rd (.face f) .ERR_STICKY_BITS).testBit (if req then
    Err.FACE_CPL_TIMEOUT.bit else Err.FACE_ADMIT_TIMEOUT.bit) = true) ∧ t.cnt (.face f) 5 = min (s.cnt (.face f) 5 +
    1) cntMax ∧ (req = true → Out.cplTimeout f tg.toNat x.who ∈ t.out)) ∧
  (∀ (f : FaceId) (req : Bool) (tg : BitVec 14) (x : Slot), s.slot? f req tg.toNat = some x → x.st ≠ slQUARANTINE →
    x.onLink = false → Gives (.cplTimeout f req tg) s fun t => (t.slots = s.slots.filter fun y => !y.is f req
    tg.toNat) ∧ t.tagEpoch f req tg.toNat = !s.tagEpoch f req tg.toNat) ∧
  (∀ (f : FaceId) (tg : BitVec 14) (x : Slot), s.slot? f true tg.toNat = some x → x.st = slQUARANTINE → Gives
    (.tagQuarantineEnd f tg) s fun t => (t.slots = s.slots.filter fun y => !y.is f true tg.toNat) ∧ t.tagEpoch f true
    tg.toNat = !s.tagEpoch f true tg.toNat)

/-- R420 to R427: proofs, releases, resends, dead streams, PATH_LOSS. -/
def Obligations.StreamsAndProofsComplete : Prop :=
  ∀ s : State, s.Awake →
  (∀ (w : SwId) (e : RelEntry), e.gap = false → e.epoch = (s.tx (streamOf w e.cls)).epoch → (s.tx (streamOf w
    e.cls)).proofs ≠ [] → e.seq = seqBefore (s.tx (streamOf w e.cls)).nextSeq → (s.tx (streamOf w e.cls)).proofs.all
    (fun q => (q.seq + 2 ^ 32 - seqBefore (((s.tx (streamOf w e.cls)).proofs.head?.map (·.seq)).getD 0)) % 2 ^ 32 ≤
    (e.seq + 2 ^ 32 - seqBefore (((s.tx (streamOf w e.cls)).proofs.head?.map (·.seq)).getD 0)) % 2 ^ 32) = true →
    Gives (.proofReleaseReceived w [e]) s fun t => (t.tx (streamOf w e.cls)).proofs = [] ∧ (t.tx (streamOf w
    e.cls)).resends = 0 ∧ t.cnt (.bridge 4) 1 = min (s.cnt (.bridge 4) 1 + (s.tx (streamOf w e.cls)).proofs.length)
    cntMax) ∧
  (∀ (w : SwId) (c : ClassId), (s.tx (streamOf w c)).proofs ≠ [] → (s.tx (streamOf w c)).resending = none → (s.tx
    (streamOf w c)).dead = false → (s.tx (streamOf w c)).resends < max 1 (s.rd (.bridge 4)
    .BRIDGE_FAB_CFG_RESEND_LIMIT) → Gives (.proofTimeout w c) s fun t => (t.tx (streamOf w c)).resends = (s.tx
    (streamOf w c)).resends + 1 ∧ (t.tx (streamOf w c)).resending = (s.tx (streamOf w c)).proofs.getLast?.map (·.seq)
    ∧ (t.tx (streamOf w c)).proofs = (s.tx (streamOf w c)).proofs ∧ t.cnt (.bridge 4) 3 = min (s.cnt (.bridge 4) 3 +
    1) cntMax) ∧
  (∀ (w : SwId) (c : ClassId), (s.tx (streamOf w c)).proofs ≠ [] → (s.tx (streamOf w c)).resending = none → (s.tx
    (streamOf w c)).dead = false → max 1 (s.rd (.bridge 4) .BRIDGE_FAB_CFG_RESEND_LIMIT) ≤ (s.tx (streamOf w
    c)).resends → Gives (.proofTimeout w c) s fun t => (t.tx (streamOf w c)).dead = true ∧ (t.rd (.bridge 4)
    .ERR_STICKY_BITS).testBit Err.FAB_STREAM_DEAD.bit = true) ∧
  (∀ (w : SwId) (c : ClassId), (s.buf.any fun k => k.ing == .fabric && k.frame.retain && k.frame.stream == streamOf w
    c) = false → (s.tx (streamOf w c)).proofs.all (·.valid) = true → Gives (.resendComplete w c) s fun t => (t.tx
    (streamOf w c)).resending = none ∧ (t.tx (streamOf w c)).proofs = (s.tx (streamOf w c)).proofs) ∧
  (∀ (w : SwId) (c : ClassId), (s.tx (streamOf w c)).proofs ≠ [] → (s.tx (streamOf w c)).resending = none → (s.tx
    (streamOf w c)).dead = false → (s.tx (streamOf w c)).resends < max 1 (s.rd (.bridge 4)
    .BRIDGE_FAB_CFG_RESEND_LIMIT) → Gives (.pathLossReceived) s fun t => (t.tx (streamOf w c)).resends = (s.tx
    (streamOf w c)).resends + 1) ∧
  (∀ (p : PortId) (w : SwId) (c : ClassId), s.isFab p = true → s.usable p = false → s.link p ≠ lsRETIRING → (s.tx
    (streamOf w c)).proofs ≠ [] → (s.tx (streamOf w c)).resending = none → (s.tx (streamOf w c)).dead = false → (s.tx
    (streamOf w c)).resends < max 1 (s.rd (.bridge 4) .BRIDGE_FAB_CFG_RESEND_LIMIT) → Gives (.fabPortUnusable p) s fun
    t => (t.tx (streamOf w c)).resends = (s.tx (streamOf w c)).resends + 1) ∧
  (∀ (w : SwId) (c : ClassId) (x : RxStream), s.rx? (streamOf w c) = some x → x.unrel ≠ 0 → Gives (.releaseTimer w c)
    s fun t => t.rx? (streamOf w c) = some { x with unrel := 0 }) ∧
  (∀ (w : SwId) (c : ClassId), Gives (.streamRecordForget w c) s fun t => t.rx? (streamOf w c) = none)

/-- R403, R428 to R430: link status frames, RETIRING, RETIRE_TIMEOUT. -/
def Obligations.LinkStatusAndRetiringComplete : Prop :=
  ∀ s : State, s.Awake →
  (∀ (p : PortId), s.speaks p = true → s.waiting.isEmpty = true → s.on (.core 0) .BLK_CTRL_QUIESCE = false →
    s.safeHalt = false → s.on (.port p) .BLK_CTRL_QUIESCE = false → s.portClosed p = false → 1 ≤ s.sharedFree → Gives
    (.linkStatusSend p) s fun t => t.buf.take s.buf.length = s.buf ∧ ((t.buf.drop s.buf.length).map (fun k =>
    (k.frame.body, k.copies.map (·.dst))) = [(Payload.linkStatus (s.linkStatus p), [.port p.val])])) ∧
  ((s.tracker = ctIDLE ∨ s.tracker = ctACQUIRE ∨ s.tracker = ctLOST) → Gives (.linkStatusPeriodic) s fun t => t.iv
    .pktId = s.iv .pktId + (allBelow 96 s.speaks).length) ∧
  (∀ (p : PortId) (l : LinkStatus), s.speaks p = true → Gives (.linkStatusReceived p l) s fun t => t.iv .lsSeen p = 1
    ∧ t.iv .lsLiveGen p = l.liveGen % 2 ^ 32 ∧ t.iv .lsArmedCycle p = l.armedCycle % 2 ^ 48 ∧ (t.link p = (if
    l.retiring then lsRETIRING else s.link p))) ∧
  (∀ (st : Stamp) (p : PortId) (v : Word), s.locked (.port p) = false → v.getLsbD 30 = true → v.getLsbD 31 = false →
    v.getLsbD 29 = false → s.usable p = true → s.pathOpen st = true → Gives (.linkRetire st p v) s fun t => t.link p =
    lsRETIRING) ∧
  (∀ (p : PortId), s.isFab p = true → s.link p = lsRETIRING → (s.replayOf p).isEmpty = true → (s.buf.any fun k =>
    k.goesTo p) = false → Gives (.retireDrained p) s fun t => t.link p = lsDOWN ∧ t.iv .txSeq p = 0 ∧ t.iv .rxSeq p =
    0) ∧
  (∀ (p : PortId), s.isFab p = true → s.link p = lsRETIRING → Gives (.retireTimeout p) s fun t => t.link p = lsDOWN ∧
    (t.rd (.bridge 4) .ERR_STICKY_BITS).testBit Err.FAB_RETIRE_TIMEOUT.bit = true)

/-- R379 to R385, R391 to R395: drafts, verification, turns, and the integrity of entries. -/
def Obligations.PlatesCompleteWritingAndVerification : Prop :=
  ∀ s : State, s.Awake →
  (∀ (st : Stamp) (k : Fin 2) (i : Fin 524288) (d : Fin 3) (v : Word), s.plateOpen k = true → s.pathOpen st = true →
    Gives (.plateEntryStage st k i d v) s fun t => t.iv .plateDw (4 * st.code + d) = v.toNat ∧ t.iv .plateAt st.code =
    k * 524288 + i + 1 ∧ (t.iv .plateHas st.code).testBit d = true ∧ t.entry k i = s.entry k i) ∧
  (∀ (st : Stamp) (k : Fin 2) (i : Fin 524288) (d : Fin 3) (v : Word), s.plateOpen k = false → s.pathOpen st = true →
    Gives (.plateEntryStage st k i d v) s fun t => (t.rd (.route 0) .ERR_STICKY_BITS).testBit
    Err.ROUTE_PLATE_WRITE.bit = true ∧ t.entry k i = s.entry k i) ∧
  (∀ (st : Stamp) (k : Fin 2) (i : Fin 524288) (v : Word), s.plateOpen k = true → s.iv .plateAt st.code = k * 524288 +
    i + 1 → s.iv .plateHas st.code = 7 → s.pathOpen st = true → Gives (.plateEntryCommit st k i v) s fun t => t.entry
    k i = s.iv .plateDw (4 * st.code) + s.iv .plateDw (4 * st.code + 1) <<< 32 + s.iv .plateDw (4 * st.code + 2) <<<
    64 + v.toNat <<< 96 ∧ t.rd (.route 0) (plateVerFld k) = 0 ∧ t.iv .plateHas st.code = 0) ∧
  (∀ (st : Stamp) (v : Word) (k : Nat), s.locked (.route 0) = false → v.getLsbD 31 = true → s.on (.route 0)
    .ROUTE_VERIFY_CTRL_BUSY = false → s.draft? = some k → s.turnArmed = false → s.verifiedDraft k = false → s.pathOpen
    st = true → Gives (.plateVerifyStart st v) s fun t => t.rd (.route 0) .ROUTE_VERIFY_CTRL_BUSY = 1 ∧ t.iv
    .verifySig 3 = s.rd (.route 1) .ROUTE_SIG_BLK_DW 3 ∧ t.plateOpen k = false) ∧
  (∀ (k c i : Nat), s.on (.route 0) .ROUTE_VERIFY_CTRL_BUSY = true → s.draft? = some k → s.verifyResult k = (c, i) →
    Gives (.plateVerifyDone) s fun t => t.rd (.route 0) .ROUTE_VERIFY_CTRL_BUSY = 0 ∧ t.rd (.route 0)
    .ROUTE_VERIFY_CTRL_STATUS = c % 2 ^ Fld.ROUTE_VERIFY_CTRL_STATUS.width ∧ t.rd (.route 0) .ROUTE_VERIFY_CTRL_INDEX
    = i % 2 ^ Fld.ROUTE_VERIFY_CTRL_INDEX.width ∧ (c = vfOK → t.rd (.route 0) (plateVerFld k) = 1 ∧ t.rd (.route 0)
    .ROUTE_GEN_GENERATION k = dword (s.entry k 0) 1) ∧ (c ≠ vfOK → (t.rd (.route 0) .ERR_STICKY_BITS).testBit
    Err.ROUTE_VERIFY_FAIL.bit = true ∧ t.rd (.route 0) (plateVerFld k) = s.rd (.route 0) (plateVerFld k))) ∧
  (∀ (st : Stamp) (v : Word), s.locked (.route 0) = false → v.getLsbD 31 = true → v.getLsbD 30 = false → ([0, 1].any
    s.verifiedDraft) = true → s.cycleNum < s.rd (.route 0) .ROUTE_TURN_CYCLE_CYCLE + s.rd (.route 0)
    .ROUTE_TURN_CYCLE_CYCLE_HI <<< 32 → s.pathOpen st = true → Gives (.plateTurnArm st v) s fun t => t.turnArmed =
    true ∧ t.iv .turnAt = s.rd (.route 0) .ROUTE_TURN_CYCLE_CYCLE + s.rd (.route 0) .ROUTE_TURN_CYCLE_CYCLE_HI <<< 32
    ∧ t.rd (.route 0) .ROUTE_TURN_CTRL_STATUS = tnARMED) ∧
  (∀ (st : Stamp) (v : Word), s.locked (.route 0) = false → v.getLsbD 31 = true → v.getLsbD 30 = false → ([0, 1].any
    s.verifiedDraft) = false → s.pathOpen st = true → Gives (.plateTurnArm st v) s fun t => t.rd (.route 0)
    .ROUTE_TURN_CTRL_STATUS = tnREFUSED_UNVERIFIED ∧ t.turnArmed = s.turnArmed) ∧
  (∀ (st : Stamp) (v : Word), s.locked (.route 0) = false → v.getLsbD 31 = false → v.getLsbD 30 = false → v.getLsbD 29
    = true → ([0, 1].any s.verifiedDraft) = true → s.pathOpen st = true → Gives (.plateTurnArmNext st v) s fun t =>
    t.turnArmed = true ∧ t.iv .turnAt = s.nextCycle) ∧
  (∀ (st : Stamp) (v : Word), s.locked (.route 0) = false → v.getLsbD 30 = true → v.getLsbD 31 = false → v.getLsbD 29
    = false → s.turnArmed = true → s.pathOpen st = true → Gives (.plateTurnDisarm st v) s fun t => t.turnArmed = false
    ∧ t.rd (.route 0) .ROUTE_TURN_CTRL_STATUS = tnDISARMED ∧ t.live = s.live) ∧
  (∀ (k : Fin 2) (i : Fin 524288), Gives (.plateEccError k i .single) s fun t => t.cnt (.route 0) 36 = min (s.cnt
    (.route 0) 36 + 1) cntMax ∧ (t.rd (.route 0) .ERR_STICKY_BITS).testBit Err.ROUTE_ECC_CORR.bit = true ∧ t.entry k i
    = s.entry k i) ∧
  (∀ (k : Fin 2) (i : Fin 524288), (s.groupRebuilding k i).isEmpty = true → Gives (.plateEccError k i .uncorrectable)
    s fun t => t.iv .plateLost (k * 524288 + i) = 1 ∧ t.entry k i = s.entry k i) ∧
  (∀ (k : Fin 2) (i : Fin 524288), Gives (.plateEccError k i .withParity) s fun t => t.entry k i = 0 ∧ ((t.rd (.route
    0) .ERR_STICKY_BITS).testBit (if s.plateState k = plDRAFT then Err.ROUTE_ECC_REBUILT.bit else
    Err.ROUTE_PLATE_LOST.bit) = true)) ∧
  (∀ (k : Fin 2) (i : Fin 524288), s.ivOn .plateLost (k * 524288 + i) = true → Gives (.plateEntryRebuild k i) s fun t
    => t.iv .plateLost (k * 524288 + i) = 0 ∧ t.entry k i = s.entry k i ∧ t.cnt (.route 0) 37 = min (s.cnt (.route 0)
    37 + 1) cntMax) ∧
  (s.on (.route 0) .ROUTE_BURN_CTRL_EN = true → Gives (.burnisherRead none) s fun t => t.iv .burnAt = (s.iv .burnAt +
    1) % 1048576)

/-- R435 to R455: boundaries and commits, CYC_REF, markers, sources, CYC_OUT, PTM, snapshots. -/
def Obligations.CycleAndTimeComplete : Prop :=
  ∀ s : State, s.Awake →
  ((s.tracker = ctIDLE ∨ s.tracker = ctACQUIRE) → s.freeSrc = true → s.on .schedg .SCHED_CYC_STAT_EVER_LOCKED = false
    → Gives (.cycleBoundary) s fun t => t.tracker = ctFREE ∧ t.cycLen = s.nominal ∧ t.cycleNum = s.cycleNum ∧ t.on
    .schedg .SCHED_CYC_STAT_EVER_LOCKED = true ∧ t.iv .cycStart = s.now) ∧
  (s.tracker = ctLOCKED → s.on .schedg .SCHED_CYC_STAT_EVER_LOCKED = true → s.iv .cycNext ≠ 0 → s.iv .toFree = 0 →
    s.iv .relock = 0 → Gives (.cycleBoundary) s fun t => t.cycleNum = (s.cycleNum + 1) % 2 ^ 48 ∧ t.iv .cycStart =
    s.iv .cycStart + s.cycLen ∧ t.cycLen = s.iv .cycNext % 2 ^ 32 ∧ t.now = max s.now (s.iv .cycStart + s.cycLen) ∧
    t.tracker = ctLOCKED) ∧
  (s.tracker = ctFREE → s.iv .cycNext = 0 → Gives (.cycleMidpoint) s fun t => t.iv .cycNext = s.nominal ∧ t.now = max
    s.now (s.iv .cycStart + s.cycLen / 2) ∧ t.cycleNum = s.cycleNum) ∧
  (s.tracker = ctLOCKED → s.follower = false → s.iv .cycNext = 0 → Gives (.cycleMidpoint) s fun t => t.iv .cycNext =
    s.nextLen ∧ t.iv .cycP = s.nextP ∧ 50000 ≤ t.iv .cycNext ∧ t.iv .cycNext ≤ 100000000) ∧
  (∀ (e : Fin 5) (x : Nat), x = ((s.now : Int) + (e : Nat) - 2 + s.refOffset).toNat → s.fromRef = true → s.tracker =
    ctLOCKED → s.iv .cycEdge = 0 → s.inWindow x (s.iv .cycStart) (s.iv .cycPrev) = true → Gives (.cycRefEdge e) s fun
    t => t.iv .cycEdge = 1 ∧ t.iv .cycRes = zig ((x : Int) - (s.iv .cycStart : Int)) ∧ t.cnt .schedg 0 = min (s.cnt
    .schedg 0 + 1) cntMax ∧ t.tracker = ctLOCKED) ∧
  (∀ (e : Fin 5), s.fromRef = true → s.tracker ≤ ctACQUIRE → s.iv .cycFirst = 0 → s.iv .edgeRun = 0 → Gives
    (.cycRefEdge e) s fun t => t.tracker = ctACQUIRE ∧ t.iv .edgeRun = 1 ∧ t.iv .edgeLast = ((s.now : Int) + (e : Nat)
    - 2 + s.refOffset).toNat + 1) ∧
  (s.fromRef = true → s.tracker = ctLOCKED → s.iv .cycEdge = 0 → s.iv .asSource = 0 → 2 ≤ s.holdCycles → Gives
    (.edgeWindowClose) s fun t => t.tracker = ctHOLDOVER ∧ t.rd .schedg .SCHED_CYC_STAT_HOLD_LEFT = s.holdCycles - 1 ∧
    (t.rd .schedg .ERR_STICKY_BITS).testBit Err.CYC_HOLDOVER.bit = true) ∧
  (∀ (p : PortId), s.isFab p = true → s.on (.port p) .PORT_CFG_CYC_TX = true → Gives (.cycleMarkerSend p) s fun t =>
    t.iv .mkDue p = 1) ∧
  (∀ (p : PortId) (lf : LinkFrame) (m : Marker) (n : Nat), s.linkRuns p = true → lf.frame.body = .marker m →
    s.markerCount p lf.seq = some n → s.on (.port p) .PORT_CFG_CYC_RX = true → s.laneBad p lf = false → lf.crcOk =
    true → lf.countOk = true → s.on (.port p) .PORT_LINK_STAT_ENC = false → s.follower = false → Gives
    (.cycleMarkerReceived p lf) s fun t => t.iv .mkRx p = n + 1 ∧ t.iv .mkEchoT1 p = m.tTx + 1 ∧ t.iv .mkEchoT2 p =
    s.now ∧ t.iv .crUsed (crIdx p 0 poolCTL) = s.iv .crUsed (crIdx p 0 poolCTL) + credits lf.len ∧ t.cnt (.port p) 15
    = min (s.cnt (.port p) 15 + 1) cntMax) ∧
  (∀ (p : PortId) (lf : LinkFrame), s.linkRuns p = true → s.markerCount p lf.seq = none → Gives (.cycleMarkerReceived
    p lf) s fun t => t.iv .mkRx p = s.iv .mkRx p ∧ t.cnt (.port p) 16 = min (s.cnt (.port p) 16 + 1) cntMax ∧ (t.rd
    (.port p) .ERR_STICKY_BITS).testBit Err.PORT_MARKER_REFUSED.bit = true) ∧
  (s.follower = true → s.on .schedg .SCHED_CYC_CFG_ALT_EN = true → s.ivOn .mkAgree s.otherPort = true → s.usable
    s.otherPort = true → Gives (.sourceMarkerTimeout) s fun t => t.on .schedg .SCHED_CYC_STAT_ON_ALT = !s.on .schedg
    .SCHED_CYC_STAT_ON_ALT ∧ t.fifo .delays = [] ∧ (t.rd .schedg .ERR_STICKY_BITS).testBit Err.CYC_SRC_SWITCH.bit =
    true) ∧
  (∀ (st : Stamp) (v : Word), s.locked .schedg = false → Fld.SCHED_CYC_CFG_SRC.of v.toNat ≠ s.rd .schedg
    .SCHED_CYC_CFG_SRC → s.on .schedg .SCHED_CYC_STAT_EVER_LOCKED = false → s.pathOpen st = true → Gives
    (.cycleSourceChange st false v) s fun t => t.rd .schedg .SCHED_CYC_CFG_SRC = Fld.SCHED_CYC_CFG_SRC.of v.toNat ∧
    t.tracker = ctACQUIRE ∧ t.iv .cycFirst = 0) ∧
  (∀ (st : Stamp) (v : Word), s.locked .schedg = false → Fld.SCHED_CYC_CFG_SRC.of v.toNat ≠ s.rd .schedg
    .SCHED_CYC_CFG_SRC → s.on .schedg .SCHED_CYC_STAT_EVER_LOCKED = true → s.tracker ≠ ctHOLDOVER → s.pathOpen st =
    true → Gives (.cycleSourceChange st false v) s fun t => t.tracker = ctHOLDOVER ∧ t.rd .schedg
    .SCHED_CYC_STAT_HOLD_LEFT = s.holdCycles ∧ t.cycleNum = s.cycleNum) ∧
  (s.ivOn .cycOut = true → Gives (.cycOutPulseEnd) s fun t => t.iv .cycOut = 0 ∧ t.out = Out.cycOut false :: s.out) ∧
  (∀ (f : FaceId), s.ivOn .ptmEnable f = true → s.faceLive f = true → Gives (.ptmRequestTimer f) s fun t => t.out =
    Out.ptmRequest f :: s.out) ∧
  (∀ (f : FaceId) (h : BitVec 64), s.ivOn .ptmEnable f = true → Gives (.ptmResponseReceived f h) s fun t => t.iv
    .ptmHost f = h.toNat ∧ t.iv .ptmFab f = s.now ∧ t.iv .ptmHost0 f = s.iv .ptmHost f ∧ t.iv .ptmCount f = min 2
    (s.iv .ptmCount f + 1)) ∧
  (∀ (p : PortId), s.role p = roleDOWN → s.carries p = true → Gives (.ptmRequestReceived p) s fun t => (t.out =
    Out.ptmResponse p (if s.on .schedg .SCHED_PTM_FACE_EN p && s.hostValid (s.rd .schedg .SCHED_PTM_FACE_FACE p) then
    some (s.hostTime (s.rd .schedg .SCHED_PTM_FACE_FACE p)) else none) :: s.out)) ∧
  (∀ (st : Stamp) (v : Word), s.locked .schedg = false → v.getLsbD 31 = true → s.pathOpen st = true → Gives
    (.snapshotCapture st v) s fun t => t.rdSt st.code .schedg .SCHED_SNAP_FAB_V = s.now % 2 ^ 32 ∧ t.rdSt st.code
    .schedg .SCHED_SNAP_CYC_V = s.cycleNum % 2 ^ 32 ∧ t.rdSt st.code .schedg .SCHED_SNAP_PHASE_V = s.phase % 2 ^ 20 ∧
    t.rdSt st.code .schedg .SCHED_SNAP_CTRL_VALID = 1)

/-- R325, R331, R474, R478 to R484: hatch lists, SCHED_POL_SEL, CORE_BUF_LIMIT and CORE_VI_LIMIT. -/
def Obligations.HatchListsAndLimitsComplete : Prop :=
  ∀ s : State, s.Awake →
  (∀ (st : Stamp) (p : PortId) (v : Word), s.locked (.sched p) = false → s.hatchOpen p 0 = true → s.hatchOpen p 1 =
    true → s.pathOpen st = true → Gives (.hatchLenWrite st p v) s fun t => t.hatchCount p 0 = countOf (bits v.toNat 8
    0) ∧ t.hatchCount p 1 = countOf (bits v.toNat 24 16)) ∧
  (∀ (st : Stamp) (p : PortId) (v : Word), s.locked (.sched p) = false → s.hatchOpen p 0 = false → countOf (bits
    v.toNat 8 0) ≠ s.hatchCount p 0 → s.pathOpen st = true → Gives (.hatchLenWrite st p v) s fun t => t.hatchCount p 0
    = s.hatchCount p 0 ∧ (t.rd (.sched p) .ERR_STICKY_BITS).testBit Err.SCHED_HATCH_WRITE.bit = true) ∧
  (∀ (st : Stamp) (p : PortId) (v : Word), s.locked (.sched p) = false → v.getLsbD 31 = true → s.on (.sched p)
    .SCHED_HATCH_VERIFY_BUSY = false → s.hatchState p (bits v.toNat 29 29) = hlIDLE → s.pathOpen st = true → Gives
    (.hatchVerifyStart st p v) s fun t => t.on (.sched p) .SCHED_HATCH_VERIFY_BUSY = true ∧ t.iv .hatchSig (64 * p +
    3) = s.rd (.sched p) .SCHED_HATCH_SIG_DW 3 ∧ t.hatchOpen p (bits v.toNat 29 29) = false) ∧
  (∀ (p : PortId), s.on (.sched p) .SCHED_HATCH_VERIFY_BUSY = true → (s.hatchResult p (s.iv .hatchVer p - 1)).1 = 1 →
    Gives (.hatchVerifyDone p) s fun t => t.on (.sched p) .SCHED_HATCH_VERIFY_BUSY = false ∧ t.rd (.sched p)
    .SCHED_HATCH_VERIFY_STATUS = 1 ∧ t.on (.sched p) (hatchVerFld (s.iv .hatchVer p - 1)) = true) ∧
  (∀ (p : PortId), s.on (.sched p) .SCHED_HATCH_VERIFY_BUSY = true → (s.hatchResult p (s.iv .hatchVer p - 1)).1 ≠ 1 →
    Gives (.hatchVerifyDone p) s fun t => t.on (.sched p) .SCHED_HATCH_VERIFY_BUSY = false ∧ t.rd (.sched p)
    .SCHED_HATCH_VERIFY_STATUS = (s.hatchResult p (s.iv .hatchVer p - 1)).1 % 2 ^ Fld.SCHED_HATCH_VERIFY_STATUS.width
    ∧ (t.rd (.sched p) .ERR_STICKY_BITS).testBit Err.SCHED_HATCH_VERIFY_FAIL.bit = true ∧ t.on (.sched p) (hatchVerFld
    (s.iv .hatchVer p - 1)) = s.on (.sched p) (hatchVerFld (s.iv .hatchVer p - 1))) ∧
  (∀ (st : Stamp) (p : PortId) (v : Word), s.locked (.sched p) = false → v.getLsbD 31 = true → v.getLsbD 30 = false →
    s.on (.sched p) (hatchVerFld (s.armList p v.toNat)) = true → s.cycleNum < s.rd (.sched p) .SCHED_HATCH_CYCLE_CYCLE
    + s.rd (.sched p) .SCHED_HATCH_CYCLE_CYCLE_HI <<< 32 → s.pathOpen st = true → Gives (.hatchArm st p v) s fun t =>
    t.hatchState p (s.armList p v.toNat) = hlPENDING ∧ t.iv .hatchAt p = s.rd (.sched p) .SCHED_HATCH_CYCLE_CYCLE +
    s.rd (.sched p) .SCHED_HATCH_CYCLE_CYCLE_HI <<< 32 + 1 ∧ t.rd (.sched p) .SCHED_HATCH_CTRL_STATUS = hsARMED ∧ t.on
    (.sched p) .SCHED_HATCH_CTRL_ARM = true) ∧
  (∀ (st : Stamp) (p : PortId) (v : Word), s.locked (.sched p) = false → v.getLsbD 31 = true → s.on (.sched p)
    (hatchVerFld (s.armList p v.toNat)) = false → s.pathOpen st = true → Gives (.hatchArm st p v) s fun t => t.rd
    (.sched p) .SCHED_HATCH_CTRL_STATUS = hsREFUSED_UNVERIFIED ∧ t.iv .hatchAt p = s.iv .hatchAt p ∧ t.hatchState p 0
    = s.hatchState p 0 ∧ t.hatchState p 1 = s.hatchState p 1) ∧
  (∀ (st : Stamp) (p : PortId) (v : Word), s.locked (.sched p) = false → v.getLsbD 31 = false → v.getLsbD 30 = false →
    v.getLsbD 29 = true → s.on (.sched p) (hatchVerFld (s.armList p v.toNat)) = true → s.pathOpen st = true → Gives
    (.hatchArmNext st p v) s fun t => t.hatchState p (s.armList p v.toNat) = hlPENDING ∧ t.iv .hatchAt p = s.nextCycle
    + 1 ∧ t.rd (.sched p) .SCHED_HATCH_CTRL_STATUS = hsARMED) ∧
  (∀ (st : Stamp) (p : PortId) (v : Word) (l : Nat), s.locked (.sched p) = false → v.getLsbD 30 = true → v.getLsbD 31
    = false → v.getLsbD 29 = false → s.hatchPending p = some l → s.pathOpen st = true → Gives (.hatchDisarm st p v) s
    fun t => t.hatchState p l = hlIDLE ∧ t.iv .hatchAt p = 0 ∧ t.on (.sched p) (hatchVerFld l) = s.on (.sched p)
    (hatchVerFld l) ∧ t.rd (.sched p) .SCHED_HATCH_CTRL_STATUS = hsDISARMED) ∧
  (∀ (st : Stamp) (v : Word), s.locked .schedg = false → v.getLsbD 31 = true → (s.polNew st.code (bits v.toNat 12 0)
    0).testBit 30 = false → s.polNew st.code (bits v.toNat 12 0) 1 ≤ s.polNew st.code (bits v.toNat 12 0) 2 → 9640 ≤
    s.polNew st.code (bits v.toNat 12 0) 4 → s.pathOpen st = true → Gives (.policerCommit st v) s fun t => t.iv
    .polCtl (bits v.toNat 12 0) = s.polNew st.code (bits v.toNat 12 0) 0 ∧ t.iv .polCir (bits v.toNat 12 0) = s.polNew
    st.code (bits v.toNat 12 0) 1 ∧ t.iv .polPir (bits v.toNat 12 0) = s.polNew st.code (bits v.toNat 12 0) 2 ∧ t.cbs
    (bits v.toNat 12 0) = s.polNew st.code (bits v.toNat 12 0) 3 ∧ t.pbs (bits v.toNat 12 0) = s.polNew st.code (bits
    v.toNat 12 0) 4 ∧ t.rdSt st.code .schedg .SCHED_POL_SEL_STATUS = 0) ∧
  (∀ (st : Stamp) (v : Word), s.locked .schedg = false → v.getLsbD 31 = true → (s.polNew st.code (bits v.toNat 12 0)
    0).testBit 30 = false → s.polNew st.code (bits v.toNat 12 0) 2 < s.polNew st.code (bits v.toNat 12 0) 1 →
    s.pathOpen st = true → Gives (.policerCommit st v) s fun t => t.iv .polCir (bits v.toNat 12 0) = s.iv .polCir
    (bits v.toNat 12 0) ∧ t.rdSt st.code .schedg .SCHED_POL_SEL_STATUS = 1) ∧
  (∀ (st : Stamp) (i : Fin 1024) (d : Fin 2) (v : Word), s.locked (.core 2) = false → s.rd (.core 0)
    .CORE_BUF_CFG_SHARED_MIN = 0 → s.pathOpen st = true → Gives (.bufferLimitWrite st true i d v) s fun t => t.rd
    (.core 2) .CORE_VI_LIMIT_RES i = Fld.CORE_VI_LIMIT_RES.of v.toNat ∧ t.rd (.core 2) .CORE_VI_LIMIT_MAX i =
    Fld.CORE_VI_LIMIT_MAX.of v.toNat ∧ t.rd (.core 2) .CORE_VI_LIMIT_ALPHA i = Fld.CORE_VI_LIMIT_ALPHA.of v.toNat) ∧
  (∀ (st : Stamp) (i : Fin 1024) (d : Fin 2) (v : Word), s.locked (.core 2) = false → ((plainWrite st (.core 2) (0x100
    + 4 * i.val) v.toNat).run s).sPool < s.sPool → ((plainWrite st (.core 2) (0x100 + 4 * i.val) v.toNat).run s).sPool
    < s.rd (.core 0) .CORE_BUF_CFG_SHARED_MIN → s.pathOpen st = true → Gives (.bufferLimitWrite st true i d v) s fun t
    => t.rd (.core 2) .CORE_VI_LIMIT_RES i = s.rd (.core 2) .CORE_VI_LIMIT_RES i ∧ (t.rd (.core 0)
    .ERR_STICKY_BITS).testBit Err.CORE_CFG_REFUSED.bit = true)

/-- R466, R498 to R508, R512: INST_BIND, instance resets, flush timeouts, shares. -/
def Obligations.InstancesCompleteBindingAndReset : Prop :=
  ∀ s : State, s.Awake →
  (∀ (st : Stamp) (v : Word), s.locked (.inst 0) = false → v.getLsbD 31 = true → bits v.toNat 30 29 = 0 → s.bound?
    (v.toNat % 1024) = false → s.bindStatus st.code (v.toNat % 1024) = 0 → s.pathOpen st = true → Gives (.instanceBind
    st v) s fun t => t.bound? (v.toNat % 1024) = true ∧ t.viFace (v.toNat % 1024) = s.rdSt st.code (.inst 0)
    .INST_BIND_CFG0_FACE ∧ t.rd (.inst 3) .INST_VI_CFG_CFG1_FEID (v.toNat % 1024) = s.rdSt st.code (.inst 0)
    .INST_BIND_CFG1_FEID ∧ t.rd (.inst 3) .INST_VI_CFG_CFG0_PASID (v.toNat % 1024) = s.rdSt st.code (.inst 0)
    .INST_BIND_CFG0_PASID ∧ t.cnt (.inst 0) (v.toNat % 1024) = 0 ∧ t.rdSt st.code (.inst 0) .INST_BIND_STATUS = 0) ∧
  (∀ (st : Stamp) (v : Word), s.locked (.inst 0) = false → v.getLsbD 31 = true → bits v.toNat 30 29 = 0 → s.bound?
    (v.toNat % 1024) = true → s.pathOpen st = true → Gives (.instanceBind st v) s fun t => t.rdSt st.code (.inst 0)
    .INST_BIND_STATUS = 2 ∧ (t.rd (.inst 0) .ERR_STICKY_BITS).testBit Err.INST_CFG_REFUSED.bit = true ∧ t.viFace
    (v.toNat % 1024) = s.viFace (v.toNat % 1024)) ∧
  (∀ (st : Stamp) (v : Word) (w : Nat), s.locked (.inst 0) = false → v.getLsbD 31 = true → bits v.toNat 30 29 = 1 →
    firstBelow 1024 (fun w => !s.bound? w) = some w → s.bindStatus st.code w = 0 → s.pathOpen st = true → Gives
    (.instanceBindAny st v) s fun t => t.bound? w = true ∧ t.viFace w = s.rdSt st.code (.inst 0) .INST_BIND_CFG0_FACE
    ∧ t.rd (.inst 3) .INST_VI_CFG_CFG1_FEID w = s.rdSt st.code (.inst 0) .INST_BIND_CFG1_FEID ∧ t.rd (.inst 3)
    .INST_VI_CFG_CFG0_PASID w = s.rdSt st.code (.inst 0) .INST_BIND_CFG0_PASID ∧ t.cnt (.inst 0) w = 0 ∧ t.rdSt
    st.code (.inst 0) .INST_BIND_STATUS = 0 ∧ t.rdSt st.code (.inst 0) .INST_BIND_VI = w) ∧
  (∀ (st : Stamp) (v : Word), s.locked (.inst 0) = false → v.getLsbD 31 = true → bits v.toNat 30 29 = 2 → s.bound?
    (v.toNat % 1024) = true → s.tdi (v.toNat % 1024) = tdUNLOCKED → s.pathOpen st = true → Gives (.instanceUnbind st
    v) s fun t => t.iv .unbindBy (v.toNat % 1024) = setBit (s.iv .unbindBy (v.toNat % 1024)) st.code ∧ t.rdSt st.code
    (.inst 0) .INST_BIND_GO = 1 ∧ t.resetting (v.toNat % 1024) = true ∧ t.rdSt st.code (.inst 0) .INST_BIND_STATUS =
    0) ∧
  (∀ (st : Stamp) (v : Word), s.locked (.inst 0) = false → v.getLsbD 31 = true → s.bound? (v.toNat % 1024) = true →
    s.resetting (v.toNat % 1024) = false → s.pathOpen st = true → Gives (.instanceReset st v) s fun t => t.resetting
    (v.toNat % 1024) = true ∧ t.rd (.inst 2) .INST_STAT_FENCED (v.toNat % 1024) = 1 ∧ t.rd (.inst 2) .INST_STAT_EPOCH
    (v.toNat % 1024) = s.rd (.inst 2) .INST_STAT_EPOCH (v.toNat % 1024)) ∧
  (∀ (st : Stamp) (v : Word), s.locked (.inst 0) = false → v.getLsbD 31 = true → s.bound? (v.toNat % 1024) = false →
    s.pathOpen st = true → Gives (.instanceReset st v) s fun t => t.rd (.inst 0) .INST_RESET_REFUSED = 1 ∧ t.resetting
    (v.toNat % 1024) = s.resetting (v.toNat % 1024)) ∧
  (∀ (st : Stamp) (v : ViId), s.bound? v = true → s.resetting v = false → s.pathOpen st = true → Gives
    (.instanceSelfReset st v) s fun t => t.resetting v = true ∧ t.rd (.inst 2) .INST_STAT_FENCED v = 1) ∧
  (∀ (v : ViId), s.resetting v = true → (s.fifo .flushTodo v).isEmpty = true → s.flushing v = false → s.tdi v =
    tdUNLOCKED → s.iv .unbindBy v = 0 → s.iv .stopWaits v = 0 → Gives (.instanceResetDone v) s fun t => t.resetting v
    = false ∧ t.rd (.inst 2) .INST_STAT_EPOCH v = (s.rd (.inst 2) .INST_STAT_EPOCH v + 1) % 2 ^ 16 ∧ t.rd (.inst 2)
    .INST_STAT_FENCED v = 0 ∧ t.rd (.inst 2) .INST_STAT_RESET_DONE v = 1 ∧ t.bound? v = s.bound? v) ∧
  (∀ (v : ViId) (c : Nat), s.resetting v = true → (s.fifo .flushTodo v).isEmpty = true → s.flushing v = false → c < 64
    → (s.iv .unbindBy v).testBit c = true → s.iv .stopWaits v = 0 → Gives (.instanceResetDone v) s fun t => t.bound? v
    = false ∧ t.iv .unbindBy v = 0 ∧ t.rdSt c (.inst 0) .INST_BIND_GO = 0) ∧
  (∀ (v : ViId), s.resetting v = true → (s.slots.any fun x => x.who == .inst v.val && x.flush && x.st == slBUSY) =
    true → Gives (.flushTimeout v) s fun t => t.rd (.inst 2) .INST_STAT_FLUSH_TO v = 1 ∧ t.flushing v = false ∧ (t.rd
    (.inst 0) .ERR_STICKY_BITS).testBit Err.INST_FLUSH_TIMEOUT.bit = true ∧ t.resetting v = true) ∧
  (∀ (st : Stamp) (v : ViId) (w : Word), s.locked (.inst 1) = false → s.pathOpen st = true → Gives (.shareWrite st v
    w) s fun t => t.rd (.inst 1) .INST_SHARE_SHARE v = w.toNat % 4096 ∧ (t.rd (.inst 2) .INST_STAT_SUSPENDED v = (if
    w.toNat % 4096 = 0 then 1 else 0)))

/-- R509, R510 and Table INST-5: TDISP. -/
def Obligations.TdispCompletes : Prop :=
  ∀ s : State, s.Awake →
  (∀ (ch : DoeOrMctp) (f : FaceId) (v : ViId), ch = some f → s.fwRuns = true → s.ivOn .spdmSess f = false → Gives
    (.getTdispVersion ch v) s fun t => t.out.head? = some (Out.spdm (some f.val) .error) ∧ (t.rd (.sec 0)
    .ERR_STICKY_BITS).testBit Err.SEC_SPDM_REFUSED.bit = true ∧ t.tdi v = s.tdi v) ∧
  (∀ (f : FaceId) (v : ViId), s.fwRuns = true → s.ivOn .spdmSess f = true → s.bound? v = true → s.viFace v = f.val →
    Gives (.getTdispVersion (some f) v) s fun t => t.out = Out.tdisp f v .version :: s.out) ∧
  (∀ (f : FaceId) (v : ViId), s.fwRuns = true → s.ivOn .spdmSess f = true → s.bound? v = true → s.viFace v = f.val →
    Gives (.getTdispCapabilities (some f) v) s fun t => t.out = Out.tdisp f v .capabilities :: s.out) ∧
  (∀ (f : FaceId) (v : ViId), s.fwRuns = true → s.ivOn .spdmSess f = true → s.bound? v = true → s.viFace v = f.val →
    s.resetting v = false → s.tdi v = tdUNLOCKED → Gives (.lockInterfaceRequest (some f) v) s fun t => t.tdi v =
    tdLOCKED ∧ t.promised v = s.promises v ∧ t.out = Out.tdisp f v .locked :: s.out) ∧
  (∀ (f : FaceId) (v : ViId), s.fwRuns = true → s.ivOn .spdmSess f = true → s.bound? v = true → s.viFace v = f.val →
    s.resetting v = false → s.tdi v ≠ tdUNLOCKED → Gives (.lockInterfaceRequest (some f) v) s fun t => t.tdi v = s.tdi
    v ∧ t.out = Out.tdisp f v .invalidState :: s.out) ∧
  (∀ (f : FaceId) (v : ViId), s.fwRuns = true → s.ivOn .spdmSess f = true → s.bound? v = true → s.viFace v = f.val →
    Gives (.getDeviceInterfaceState (some f) v) s fun t => t.out = Out.tdisp f v (.state (s.tdi v)) :: s.out) ∧
  (∀ (f : FaceId) (v : ViId), s.fwRuns = true → s.ivOn .spdmSess f = true → s.bound? v = true → s.viFace v = f.val →
    s.tdi v = tdLOCKED → Gives (.getDeviceInterfaceReport (some f) v) s fun t => t.out = Out.tdisp f v (.report
    (((s.barSlot? f v).getD 0) * 0x1000) 0x1000 (s.rd (.inst 3) .INST_VI_CFG_CFG0_PASID v) (s.rd (.inst 3)
    .INST_VI_CFG_CFG2_VEC_BASE v) (2 ^ s.rd (.inst 3) .INST_VI_CFG_CFG2_VEC_LOG2 v)) :: s.out) ∧
  (∀ (f : FaceId) (v : ViId), s.fwRuns = true → s.ivOn .spdmSess f = true → s.bound? v = true → s.viFace v = f.val →
    s.tdi v = tdLOCKED → Gives (.startInterfaceRequest (some f) v) s fun t => t.tdi v = tdRUN ∧ t.out = Out.tdisp f v
    .started :: s.out) ∧
  (∀ (f : FaceId) (v : ViId), s.fwRuns = true → s.ivOn .spdmSess f = true → s.bound? v = true → s.viFace v = f.val →
    s.tdi v ≠ tdLOCKED → Gives (.startInterfaceRequest (some f) v) s fun t => t.tdi v = s.tdi v ∧ t.out = Out.tdisp f
    v .invalidState :: s.out) ∧
  (∀ (f : FaceId) (v : ViId), s.fwRuns = true → s.ivOn .spdmSess f = true → s.bound? v = true → s.viFace v = f.val →
    s.resetting v = false → Gives (.stopInterfaceRequest (some f) v) s fun t => t.resetting v = true ∧ t.iv .stopWaits
    v = 1 ∧ t.tdi v = s.tdi v) ∧
  (∀ (f : FaceId) (v : ViId), s.fwRuns = true → s.ivOn .spdmSess f = true → s.bound? v = true → s.viFace v = f.val →
    Gives (.tdispUnsupported (some f) v) s fun t => t.out = Out.tdisp f v .unsupportedRequest :: s.out)

/-- R127, R140, R295, R300 to R305: face resets, FLR, PME_Turn_Off, readiness. -/
def Obligations.FaceResetsComplete : Prop :=
  ∀ s : State, s.Awake →
  (∀ (f : FaceId), s.on (.face f) .FACE_BIND_ENABLE = true → Gives (.faceResetPin f) s fun t => t.iv .fperst f = 0 ∧
    t.rd (.face f) .FACE_BIND_STATE = fcRESET ∧ t.iv .faceEpoch f = (s.iv .faceEpoch f + 1) % 65536 ∧ t.on (.face f)
    .FACE_BIND_ENABLE = true ∧ t.iv .secBus (4096 * f) = 0 ∧ t.iv .msixEnable f = 0) ∧
  (∀ (f : FaceId), s.faceLive f = true → Gives (.hotResetReceived f) s fun t => t.rd (.face f) .FACE_BIND_STATE =
    fcRESET ∧ t.iv .faceEpoch f = (s.iv .faceEpoch f + 1) % 65536 ∧ t.iv .secBus (4096 * f) = 0 ∧ t.iv .fperst f =
    s.iv .fperst f) ∧
  (∀ (f : FaceId), Gives (.fperstRelease f) s fun t => t.iv .fperst f = 1 ∧ t.rd (.face f) .FACE_PM_STAT_FWAKE = 0) ∧
  (∀ (f : FaceId), s.facesAnswer = true → s.rd (.face f) .FACE_BIND_STATE = fcRETRY → Gives (.faceReady f) s fun t =>
    t.rd (.face f) .FACE_BIND_STATE = fcREADY) ∧
  (∀ (f : FaceId), s.on (.face f) .FACE_FLR_STAT_BUSY = false → Gives (.flrServiceEndpoint f) s fun t => t.on (.face
    f) .FACE_FLR_STAT_BUSY = true ∧ t.iv .flrAt f = s.now ∧ t.iv .faceEpoch f = (s.iv .faceEpoch f + 1) % 65536) ∧
  (∀ (f : FaceId), s.on (.face f) .FACE_FLR_STAT_BUSY = true → (s.fifo .flushTodo (1024 + f)).isEmpty = true →
    ((s.visOf f).any fun v => s.resetting v && s.flushing v) = false → (s.slots.any fun x => x.flush && x.st == slBUSY
    && s.seSlot f x) = false → Gives (.flrDone f) s fun t => t.on (.face f) .FACE_FLR_STAT_BUSY = false ∧ t.rd (.face
    f) .FACE_FLR_STAT_DONE = 1 ∧ t.iv .msixEnable f = 0 ∧ t.iv .seBusMaster f = 0 ∧ t.cnt (.face f) 8 = min (s.cnt
    (.face f) 8 + 1) cntMax) ∧
  (∀ (f : FaceId), s.faceLive f = true → Gives (.pmeTurnOff f) s fun t => t.iv .pmeOff f = 1 ∧ t.out = Out.pmeToAck f
    :: s.out ∧ t.rd (.face f) .FACE_PM_STAT_LINK_PM = pmL2)

/-- R515 to R519, R536 to R539: rings, fetches, engines. -/
def Obligations.RingsComplete : Prop :=
  ∀ s : State, s.Awake →
  (∀ (st : Stamp) (n : RingId) (v : Word), s.ringRefused n v.toNat = false → s.on (.ring n) .MOVER_RING_CFG_ENABLE =
    false → v.getLsbD 31 = true → s.pathOpen st = true → Gives (.ringCfgWrite st n false v) s fun t => t.ringSt n =
    rsACTIVE ∧ t.on (.ring n) .MOVER_RING_CFG_ENABLE = true ∧ t.ringKind n = bits v.toNat 23 22 ∧ t.ringOwner n = bits
    v.toNat 21 12 ∧ t.rd (.ring n) .MOVER_RING_CFG_ENGINE = bits v.toNat 11 6 ∧ t.rd (.ring n)
    .MOVER_RING_CFG_SIZE_LOG2 = bits v.toNat 28 24 ∧ t.rd (.ring n) .MOVER_RING_HEAD_HEAD = 0 ∧ t.rd (.ring n)
    .MOVER_RING_TAIL_TAIL = 0 ∧ t.rd (.ring n) .MOVER_RING_CPL_TAIL_PHASE = 1) ∧
  (∀ (st : Stamp) (n : RingId) (v : Word), s.ringRefused n v.toNat = false → s.on (.ring n) .MOVER_RING_CFG_ENABLE =
    true → v.getLsbD 31 = false → s.openDesc? n = none → s.pathOpen st = true → Gives (.ringCfgWrite st n false v) s
    fun t => t.ringSt n = rsDISABLED ∧ t.on (.ring n) .MOVER_RING_CFG_ENABLE = false ∧ t.ringDescs n = [] ∧ t.iv
    .fetchTag n = 0) ∧
  (∀ (st : Stamp) (n : RingId) (x : Bool) (v : Word), x = false → s.ringRefused n v.toNat = true → s.pathOpen st =
    true → Gives (.ringCfgWrite st n x v) s fun t => (t.rd .moverg .ERR_STICKY_BITS).testBit
    Err.MOVER_RING_REFUSED.bit = true ∧ t.on (.ring n) .MOVER_RING_CFG_ENABLE = s.on (.ring n) .MOVER_RING_CFG_ENABLE
    ∧ t.ringSt n = s.ringSt n) ∧
  (∀ (st : Stamp) (n : RingId) (v : Word), s.ringRefused n v.toNat = false → s.on (.ring n) .MOVER_RING_CFG_ENABLE =
    true → v.getLsbD 31 = true → bits v.toNat 11 6 ≠ s.rd (.ring n) .MOVER_RING_CFG_ENGINE → s.iv .rehome n = 0 →
    s.pathOpen st = true → Gives (.ringRehome st n v) s fun t => t.ringSt n = rsREHOMING ∧ t.rd (.ring n)
    .MOVER_RING_CFG_ENGINE = bits v.toNat 11 6 ∧ t.iv .rehome n = s.rd (.ring n) .MOVER_RING_CFG_ENGINE + 1 ∧
    t.ringEngine n = s.rd (.ring n) .MOVER_RING_CFG_ENGINE) ∧
  (∀ (n : RingId), s.ringSt n = rsREHOMING → s.openDesc? n = none → Gives (.rehomeDone n) s fun t => t.ringSt n =
    rsACTIVE ∧ t.iv .rehome n = 0 ∧ t.ringDescs n = [] ∧ t.iv .fetchAt n = s.rd (.ring n) .MOVER_RING_HEAD_HEAD %
    s.ringSize n ∧ t.cnt (.eng (s.ringEngine n)) 8 = min (s.cnt (.eng (s.ringEngine n)) 8 + 1) cntMax) ∧
  (∀ (st : Stamp) (n : RingId) (v : Word), s.pathOpen st = true → Gives (.ringTailWrite st n v) s fun t => t.rd (.ring
    n) .MOVER_RING_TAIL_TAIL = v.toNat % 2 ^ 16 ∧ t.ringSt n = s.ringSt n) ∧
  (∀ (n : RingId) (k : Nat), s.ringSt n = rsACTIVE → s.on (.ring n) .MOVER_RING_CFG_ENABLE = true → s.ringQuiet n =
    false → s.ringToHost n = true → s.contained (.face (s.ringFace n)) = false → s.faceLive (s.ringFace n) = true →
    s.iv .fetchTag n = 0 → 0 < s.fetchCount n → s.ringTag? n true = some k → Gives (.descriptorFetch n) s fun t =>
    t.iv .fetchTag n = k + 1 ∧ t.iv .fetchN n = s.fetchCount n ∧ t.iv .fetchAt n = s.iv .fetchAt n) ∧
  (∀ (n : RingId) (x : BitVec 256), s.ivOn .fetchTag n = true → 0 < s.iv .fetchN n → s.ringVi n = none → s.descs = []
    → s.ringSt n ≠ rsACTIVE → Gives (.descriptorFetchComplete n (some [x])) s fun t => t.descs = [Desc.fetched n (s.iv
    .fetchAt n % s.ringSize n) x.toNat 0] ∧ t.iv .fetchAt n = (s.iv .fetchAt n + 1) % s.ringSize n ∧ t.iv .fetchTag n
    = 0 ∧ t.iv .fetchN n = 0) ∧
  (∀ (n : RingId), s.ivOn .fetchTag n = true → Gives (.descriptorFetchComplete n none) s fun t => t.ringSt n =
    rsHALTED ∧ t.iv .fetchTag n = 0 ∧ (t.rd .moverg .ERR_STICKY_BITS).testBit Err.MOVER_FETCH_ERR.bit = true ∧ t.descs
    = s.descs) ∧
  (∀ (st : Stamp) (n : RingId), s.ringSt n = rsHALTED → s.openDesc? n = none → s.pathOpen st = true → Gives
    (.ringResume st n) s fun t => t.ringSt n = rsACTIVE ∧ t.ringDescs n = [] ∧ t.iv .fetchAt n = s.rd (.ring n)
    .MOVER_RING_HEAD_HEAD % s.ringSize n ∧ t.iv .fetchTag n = 0) ∧
  (∀ (st : Stamp) (e : EngId) (v : Word), s.locked (.eng e) = false → v.getLsbD 31 = false → s.engRings e = [] →
    s.pathOpen st = true → Gives (.engineDisable st e v) s fun t => t.on (.eng e) .MOVER_ENG_CTRL_ENABLE = false) ∧
  (∀ (st : Stamp) (e : EngId) (v : Word), s.locked (.eng e) = false → v.getLsbD 31 = false → s.on (.eng e)
    .MOVER_ENG_CTRL_ENABLE = true → (s.engRings e).isEmpty = false → s.pathOpen st = true → Gives (.engineDisable st e
    v) s fun t => t.on (.eng e) .MOVER_ENG_CTRL_ENABLE = true ∧ (t.rd .moverg .ERR_STICKY_BITS).testBit
    Err.MOVER_RING_REFUSED.bit = true) ∧
  (∀ (e : EngId) (n : RingId), s.rd (.ring n) .MOVER_RING_CFG_ENGINE = e → (s.ringKind n = 1 ∨ s.ringKind n = 2) →
    (s.iv .rehome n = 0 ∨ s.iv .rehome n = e + 1) → Gives (.engineFault e) s fun t => t.rd (.eng e)
    .MOVER_ENG_STAT_FAULTED = 1 ∧ (t.rd (.eng e) .ERR_STICKY_BITS).testBit Err.ENG_ENG_FAULT.bit = true ∧ t.rd (.ring
    n) .MOVER_RING_CFG_ENGINE = s.failover e ∧ t.iv .rehome n = 0 ∧ t.ringSt n ≠ rsREHOMING)

/-- R523 to R535: reads, writes, records, errors, coalescing, receive rings. -/
def Obligations.DescriptorsComplete : Prop :=
  ∀ s : State, s.Awake →
  (∀ (n : RingId) (d : Desc) (g : Seg) (bs : List Byte), s.descs = [d] → d.ring = n → d.opened = true → d.failed = 0 →
    d.segs = [g] → g.got = [] → bs.length < g.n → d.data = [] → d.op = 1 → d.issued = d.len → d.written < d.len →
    d.toFlush = [] → s.vepTx? n = none → 0 < s.writeLen d → s.noPasid n = false → Gives (.moverReadCompletion n g.off
    bs) s fun t => t.descs = [{ d with segs := [{ g with got := bs }] }] ∧ t.cnt (.eng (s.ringEngine n)) 2 = min
    (s.cnt (.eng (s.ringEngine n)) 2 + bs.length) cntMax) ∧
  (∀ (n : RingId) (d : Desc) (g : Seg) (bs : List Byte), s.descs = [d] → d.ring = n → d.opened = true → d.failed = 0 →
    d.segs = [g] → g.got = [] → bs.length = g.n → g.n = d.len → d.data = [] → d.op = 1 → d.issued = d.len → d.written
    = 0 → 0 < d.len → d.dests = [] → d.sync = false → d.toFlush = [] → d.dstType = 0 → s.vepTx? n = none → s.writeLen
    d = d.len → s.ringToHost n = true → Gives (.moverReadCompletion n g.off bs) s fun t => t.descs =
    [{ d with segs := [], written := d.len, dests := [(8192, d.dst)] }] ∧ t.cnt (.eng (s.ringEngine n)) 2 = min (s.cnt
    (.eng (s.ringEngine n)) 2 + d.len) cntMax ∧ t.cnt (.eng (s.ringEngine n)) 3 = min (s.cnt (.eng (s.ringEngine n)) 3
    + d.len) cntMax) ∧
  (∀ (n : RingId) (d : Desc), s.descs = [d] → d.ring = n → d.opened = true → d.failed = 0 → d.op = 1 → d.written =
    d.len → d.sync = false → d.toFlush = [] → d.flushTags = [] → s.on (.ring n) .MOVER_RING_CPL_CTRL_MODE = true →
    Gives (.descriptorComplete n) s fun t => t.descs = [] ∧ t.rd (.ring n) .MOVER_RING_HEAD_HEAD = (s.rd (.ring n)
    .MOVER_RING_HEAD_HEAD + 1) % s.ringSize n % 65536 ∧ t.cnt (.eng (s.ringEngine n)) 0 = min (s.cnt (.eng
    (s.ringEngine n)) 0 + 1) cntMax ∧ (t.fifo .cplFifo n).length = (s.fifo .cplFifo n).length + 1 ∧ (t.fifo .cplFifo
    n).getLast? = some (1 <<< 31 + 1 <<< 16 + d.cookie + (d.len % 2 ^ 24) <<< 32 + (d.slot % 65536) <<< 64 + (d.epoch
    % 65536) <<< 96)) ∧
  (∀ (n : RingId) (d : Desc), s.descs = [d] → d.ring = n → d.opened = true → d.failed = 0 → d.op = 0 → d.sync = false
    → d.toFlush = [] → d.flushTags = [] → s.recordMayGo n = true → Gives (.descriptorComplete n) s fun t => t.descs =
    [] ∧ t.rd (.ring n) .MOVER_RING_HEAD_HEAD = (s.rd (.ring n) .MOVER_RING_HEAD_HEAD + 1) % s.ringSize n % 65536 ∧
    (t.rd (.ring n) .MOVER_RING_CPL_TAIL_CPL_TAIL = (if s.rd (.ring n) .MOVER_RING_CPL_TAIL_CPL_TAIL + 1 = s.ringSize
    n then 0 else s.rd (.ring n) .MOVER_RING_CPL_TAIL_CPL_TAIL + 1) % 65536)) ∧
  (∀ (n : RingId) (d : Desc) (x : Fin 3), s.descs = [d] → d.ring = n → d.opened = true → d.failed = 0 → s.recordMayGo
    n = true → s.on (.ring n) .MOVER_RING_CFG_STOP_ON_ERR = true → s.ringSt n ≠ rsDISABLED → Gives (.descriptorError n
    x) s fun t => t.descs = [] ∧ t.rd (.ring n) .MOVER_RING_HEAD_HEAD = (s.rd (.ring n) .MOVER_RING_HEAD_HEAD + 1) %
    s.ringSize n % 65536 ∧ t.rd (.ring n) .MOVER_RING_STAT_LAST_STATUS = dsRD_UR + x ∧ t.rd (.ring n)
    .MOVER_RING_STAT_LAST_INDEX = d.slot % 65536 ∧ t.ringSt n = rsHALTED ∧ (t.rd .moverg .ERR_STICKY_BITS).testBit
    Err.MOVER_DESC_ERR.bit = true) ∧
  (∀ (n : RingId) (d : Desc) (x : Fin 3), s.descs = [d] → d.ring = n → d.opened = true → d.failed = 0 → s.recordMayGo
    n = true → s.on (.ring n) .MOVER_RING_CFG_STOP_ON_ERR = false → Gives (.descriptorError n x) s fun t => t.descs =
    [] ∧ t.rd (.ring n) .MOVER_RING_HEAD_HEAD = (s.rd (.ring n) .MOVER_RING_HEAD_HEAD + 1) % s.ringSize n % 65536 ∧
    t.ringSt n = s.ringSt n) ∧
  (∀ (n : RingId) (d : Desc) (x : Fin 3), s.descs = [d] → d.ring = n → d.opened = true → d.failed = 0 → s.recordMayGo
    n = false → Gives (.descriptorError n x) s fun t => t.descs =
    [{ d with failed := dsRD_UR + x, issued := d.written, segs := [], data := [], toFlush := [], flushTags := [] }] ∧
    t.rd (.ring n) .MOVER_RING_HEAD_HEAD = s.rd (.ring n) .MOVER_RING_HEAD_HEAD) ∧
  (∀ (n : RingId), s.ivOn .coalOn n = true → s.iv .coalDue n = 0 → Gives (.coalesceExpiry n) s fun t => t.iv .coalOn n
    = 0 ∧ t.out = s.out) ∧
  (∀ (n : RingId), s.ivOn .coalOn n = true → s.ivOn .coalDue n = true → s.on (.ring n) .MOVER_RING_CPL_CTRL_COAL_US =
    true → Gives (.coalesceExpiry n) s fun t => t.iv .coalOn n = 1 ∧ t.iv .coalDue n = 0) ∧
  (∀ (n : RingId) (d : Desc) (k : Pkt), s.descs = [d] → s.rxBufs n = [d] → (s.rxWaiting n).head? = some k → 0 <
    k.ethLen → k.ethLen ≤ d.len → s.ringSt n = rsACTIVE → s.ringQuiet n = false → s.ringToHost n = true → Gives
    (.rxPacketCommit n) s fun t => t.descs = [] ∧ t.rd (.ring n) .MOVER_RING_HEAD_HEAD = (s.rd (.ring n)
    .MOVER_RING_HEAD_HEAD + 1) % s.ringSize n % 65536 ∧ ((t.buf.any fun x => x.id == k.id && x.copies.any (·.dst ==
    .self)) = false) ∧ t.cnt (.eng (s.ringEngine n)) 4 = min (s.cnt (.eng (s.ringEngine n)) 4 + 1) cntMax ∧ t.cnt
    (.eng (s.ringEngine n)) 3 = min (s.cnt (.eng (s.ringEngine n)) 3 + k.ethLen) cntMax)

/-- R551 to R560: prefetch entries and locks. -/
def Obligations.BridgingCompletes : Prop :=
  ∀ s : State, s.Awake →
  (∀ (f : FaceId) (k : Fin 32) (e : Pref), (s.prefs.filter fun x => x.face == f.val)[k.val]? = some e → Gives
    (.prefetchAgeExpiry f k) s fun t => (t.prefs = s.prefs.filter fun x => !(x == e))) ∧
  (∀ (f : FaceId) (e : Pref), s.prefs = [e] → e.face = f.val → e.used = false → Gives (.prefetchAgeExpiry f 0) s fun t
    => t.prefs = [] ∧ t.cnt (.bridge 0) 0 = min (s.cnt (.bridge 0) 0 + e.got.length) cntMax) ∧
  (∀ (n : Feid) (p : PortId), s.on (.bridge 1) .BRIDGE_LOCK_STAT_LOCKED p = true → s.rd (.bridge 1)
    .BRIDGE_LOCK_STAT_HOLDER p = n.toNat → s.lockWaiters p = [] → Gives (.unlockMessage none n) s fun t => t.on
    (.bridge 1) .BRIDGE_LOCK_STAT_LOCKED p = false ∧ t.rd (.bridge 1) .BRIDGE_LOCK_STAT_HOLDER p = 0) ∧
  (∀ (f : FaceId) (n : Feid) (p : PortId) (m : Nat), s.iv .lockDest f = 0 → s.faceFeid? f = some m → s.on (.bridge 1)
    .BRIDGE_LOCK_STAT_LOCKED p = true → s.rd (.bridge 1) .BRIDGE_LOCK_STAT_HOLDER p = m → s.lockWaiters p = [] → Gives
    (.unlockMessage (some f) n) s fun t => t.on (.bridge 1) .BRIDGE_LOCK_STAT_LOCKED p = false ∧ t.rd (.bridge 1)
    .BRIDGE_LOCK_STAT_HOLDER p = 0 ∧ t.iv .lockDest f = 0) ∧
  (∀ (p : PortId), s.on (.bridge 1) .BRIDGE_LOCK_STAT_LOCKED p = true → s.lockWaiters p = [] → Gives (.lockTimeout p)
    s fun t => t.on (.bridge 1) .BRIDGE_LOCK_STAT_LOCKED p = false ∧ t.rd (.bridge 1) .BRIDGE_LOCK_STAT_HOLDER p = 0 ∧
    (t.rd (.bridge 0) .ERR_STICKY_BITS).testBit Err.BRIDGE_LOCK_TIMEOUT.bit = true ∧ t.cnt (.bridge 0) 7 = min (s.cnt
    (.bridge 0) 7 + 1) cntMax) ∧
  (∀ (p : PortId) (n : Nat), s.on (.bridge 1) .BRIDGE_LOCK_STAT_LOCKED p = true → ((s.lockWaiters p).map
    (·.frame.src)).min? = some n → Gives (.lockTimeout p) s fun t => t.on (.bridge 1) .BRIDGE_LOCK_STAT_LOCKED p =
    true ∧ t.rd (.bridge 1) .BRIDGE_LOCK_STAT_HOLDER p = n % 8192 ∧ t.cnt (.bridge 0) 5 = min (s.cnt (.bridge 0) 5 +
    1) cntMax)

/-- R567 to R581 and Table MBOX-5: notices, reads, doorbells, MBOX_EPOCH_QUERY. -/
def Obligations.NoticesComplete : Prop :=
  ∀ s : State, s.Awake →
  (∀ (st : Stamp) (i : ViId) (v : Word) (r : IdRoute) (q : Nat), v.getLsbD 31 = true → s.winPending i = false →
    s.idRoute? s.live (v.toNat % 8192) = some r → r.kind ≠ kindDevice → r.isLocal = true → s.qOf? (v.toNat % 8192)
    (bits v.toNat 27 24) = some q → s.judge (some q) skINST (s.rd (.inst 3) .INST_VI_CFG_CFG1_FEID i) = poOK →
    s.pathOpen st = true → Gives (.noticePost st (.tenant i) v) s fun t => (t.fifo .notices q).length = (s.fifo
    .notices q).length + 1 ∧ t.iv .win (16 * i + 5) = poOK ∧ t.cnt (.mbox 0) 0 = min (s.cnt (.mbox 0) 0 + 1) cntMax) ∧
  (∀ (st : Stamp) (i : ViId) (v : Word) (r : IdRoute) (q : Nat), v.getLsbD 31 = true → s.winPending i = false →
    s.idRoute? s.live (v.toNat % 8192) = some r → r.kind ≠ kindDevice → r.isLocal = true → s.qOf? (v.toNat % 8192)
    (bits v.toNat 27 24) = some q → s.judge (some q) skINST (s.rd (.inst 3) .INST_VI_CFG_CFG1_FEID i) = poDENIED →
    s.pathOpen st = true → Gives (.noticePost st (.tenant i) v) s fun t => t.fifo .notices q = s.fifo .notices q ∧
    t.iv .win (16 * i + 5) = poDENIED ∧ t.rd (.mbox 0) .MBOX_REJ_LOG_STATUS = poDENIED ∧ (t.rd (.mbox 0)
    .ERR_STICKY_BITS).testBit Err.MBOX_POST_REJECT.bit = true) ∧
  (∀ (st : Stamp) (i : ViId) (v : Word) (r : IdRoute), v.getLsbD 31 = true → s.winPending i = false → s.idRoute?
    s.live (v.toNat % 8192) = some r → r.kind ≠ kindDevice → r.isLocal = false → s.pathOpen st = true → Gives
    (.noticePost st (.tenant i) v) s fun t => t.fifo .posts = s.fifo .posts ++ [i + 2048 * st.code] ∧ t.iv .win (16 *
    i + 5) = poPENDING ∧ t.cnt (.mbox 0) 6 = min (s.cnt (.mbox 0) 6 + 1) cntMax) ∧
  (∀ (src dest : Feid) (w : SwId) (n : Notice) (x : Fin 16) (q : Nat), n.sfeid = src.toNat → n.ssw = w → s.qOf?
    dest.toNat x = some q → s.judge (some q) n.skind n.sfeid = poOK → Gives (.noticeFrameReceived src dest w n x) s
    fun t => (t.fifo .notices q).length = (s.fifo .notices q).length + 1 ∧ t.cnt (.mbox 0) 0 = min (s.cnt (.mbox 0) 0
    + 1) cntMax) ∧
  (∀ (src dest : Feid) (w : SwId) (n : Notice) (x : Fin 16) (q : Nat), n.sfeid ≠ src.toNat → Gives
    (.noticeFrameReceived src dest w n x) s fun t => t.fifo .notices q = s.fifo .notices q ∧ (t.rd (.mbox 0)
    .ERR_STICKY_BITS).testBit Err.MBOX_FORGED.bit = true) ∧
  (∀ (x : Fin 7) (i : ViId) (n : Feid), x.val ≠ poPENDING → s.fifo .posts = [i.val] → s.rd (.inst 3)
    .INST_VI_CFG_CFG1_FEID i = n.toNat → Gives (.noticeOutcomeReceived x 1 i n) s fun t => t.fifo .posts = [] ∧ t.iv
    .win (16 * i + 5) = x) ∧
  (∀ (st : Stamp) (w : NWin) (e : Nat), (s.fifo .posts).find? (fun e => e % 2048 == winCode w st) = some e →
    s.pathOpen st = true → Gives (.noticeOutcomeTimeout st w) s fun t => t.fifo .posts = (s.fifo .posts).erase e ∧
    t.iv .win (16 * winCode w st + 5) = poNO_ROUTE) ∧
  (∀ (st : Stamp) (f : FaceId) (x : Nat) (r : List Nat), s.fifo .notices (1024 + f) = x :: r → s.pathOpen st = true →
    Gives (.noticeRead st (.face f)) s fun t => t.fifo .notices (1024 + f) = r ∧ t.out.head? = some (Out.value st
    (dword x 0)) ∧ t.cnt (.mbox 0) 7 = min (s.cnt (.mbox 0) 7 + 1) cntMax) ∧
  (∀ (st : Stamp) (f : FaceId), s.fifo .notices (1024 + f) = [] → s.pathOpen st = true → Gives (.noticeRead st (.face
    f)) s fun t => t.out = Out.value st 0 :: s.out) ∧
  (∀ (st : Stamp) (f : FaceId), s.fifo .notices (1024 + f) = [] → s.pathOpen st = true → Gives (.doorbellArm st (.face
    f)) s fun t => t.iv .qArm (1024 + f) = 1 ∧ t.out = s.out) ∧
  (∀ (st : Stamp) (f : FaceId), (s.fifo .notices (1024 + f)).isEmpty = false → s.on (.mbox 1) .MBOX_Q_CFG_DB_EN (1024
    + f) = true → s.pathOpen st = true → Gives (.doorbellArm st (.face f)) s fun t => t.iv .qArm (1024 + f) = 0) ∧
  (∀ (st : Stamp) (i : ViId) (v : Word), s.pathOpen st = true → Gives (.epochQuery st (.tenant i) v) s fun t => t.iv
    .win (16 * i + 6) = v.toNat % 8192 ∧ t.regs = s.regs)

/-- R583 to R589: word mailboxes and semaphores. -/
def Obligations.WordsAndSemaphoresComplete : Prop :=
  ∀ s : State, s.Awake →
  (∀ (st : Stamp) (n : Fin 128) (v : Word), s.locked (.mbox 2) = false → s.on (.mbox 2) .MBOX_WORD_STAT_FULL n = false
    → permits (s.rd (.mbox 2) .MBOX_WORD_CFG_WRITER n) st = true → s.pathOpen st = true → Gives (.wordWrite st n v) s
    fun t => t.rd (.mbox 2) .MBOX_WORD_DATA n = v.toNat ∧ t.rd (.mbox 2) .MBOX_WORD_STAT_FULL n = 1 ∧ t.rd (.mbox 2)
    .MBOX_WORD_STAT_WRITER n = st.code ∧ t.cnt (.mbox 0) 9 = min (s.cnt (.mbox 0) 9 + 1) cntMax) ∧
  (∀ (st : Stamp) (n : Fin 128) (v : Word), s.locked (.mbox 2) = false → s.on (.mbox 2) .MBOX_WORD_STAT_FULL n = true
    → s.pathOpen st = true → Gives (.wordWrite st n v) s fun t => t.rd (.mbox 2) .MBOX_WORD_DATA n = s.rd (.mbox 2)
    .MBOX_WORD_DATA n ∧ (t.rd (.mbox 0) .ERR_STICKY_BITS).testBit Err.MBOX_WORD_REJECT.bit = true ∧ t.cnt (.mbox 0) 10
    = min (s.cnt (.mbox 0) 10 + 1) cntMax) ∧
  (∀ (st : Stamp) (n : Fin 128), s.locked (.mbox 2) = false → permits (s.rd (.mbox 2) .MBOX_WORD_CFG_READER n) st =
    true → s.pathOpen st = true → Gives (.wordTake st n) s fun t => t.rd (.mbox 2) .MBOX_WORD_STAT_FULL n = 0 ∧ t.rd
    (.mbox 2) .MBOX_WORD_DATA n = s.rd (.mbox 2) .MBOX_WORD_DATA n) ∧
  (∀ (st : Stamp) (n : Fin 256), s.semHeld n = false → s.pathOpen st = true → Gives (.semAcquire st n) s fun t =>
    t.semHeld n = true ∧ t.semOwner n = st.code ∧ t.out.head? = some (Out.value st (0x40000000 + st.code))) ∧
  (∀ (st : Stamp) (n : Fin 256), s.semHeld n = true → s.pathOpen st = true → Gives (.semAcquire st n) s fun t =>
    t.semHeld n = true ∧ t.semOwner n = s.semOwner n ∧ t.out.head? = some (Out.value st (0x80000000 + s.semOwner n)))
    ∧
  (∀ (st : Stamp) (n : Fin 256), s.locked (.mbox 3) = false → s.semHeld n = true → s.semOwner n = st.code → s.pathOpen
    st = true → Gives (.semRelease st n) s fun t => t.semHeld n = false ∧ t.semOwner n = 0) ∧
  (∀ (st : Stamp) (n : Fin 256), s.locked (.mbox 3) = false → s.semHeld n = true → s.semOwner n ≠ st.code → s.pathOpen
    st = true → Gives (.semRelease st n) s fun t => t.semHeld n = true ∧ t.semOwner n = s.semOwner n ∧ (t.rd (.mbox 0)
    .ERR_STICKY_BITS).testBit Err.MBOX_SEM_FOREIGN.bit = true) ∧
  (∀ (st : Stamp) (n : Fin 256), s.locked (.mbox 3) = false → isFw st = true → s.semHeld n = true → s.pathOpen st =
    true → Gives (.semForce st n) s fun t => t.semHeld n = false ∧ t.semOwner n = 0 ∧ t.cnt (.mbox 0) 13 = min (s.cnt
    (.mbox 0) 13 + 1) cntMax)

/-- R593 to R599, R616, R621, R624 and Table GUARD-2: requests, containment, Safe Halt, power quiesce. -/
def Obligations.ContainmentCompletes : Prop :=
  ∀ s : State, s.Awake →
  (∀ (r : GReq) (l : List GReq) (i : ViId), s.greqs = r :: l → s.safeHalt = false → r.warn = false → r.cls = .fd →
    r.dom = .dom (.inst i) → s.consequential r (.inst i) = false → s.gds (.inst i) .GDS_LANE_WINDOW = 0 → s.holder?
    (.inst i) = none → s.bound? i = true → s.resetting i = false → Gives (.containmentRequest) s fun t => t.domState
    (.inst i) = gdCONTAINED ∧ t.gds (.inst i) .GDS_LANE_CLASS = Cls.fd.code ∧ t.gds (.inst i) .GDS_LANE_WINDOW = 1 ∧
    t.resetting i = true ∧ t.cnt (.guard 0) 3 = min (s.cnt (.guard 0) 3 + 1) cntMax) ∧
  (∀ (r : GReq) (l : List GReq) (p : PortId), s.greqs = r :: l → s.safeHalt = false → r.warn = false → r.cls = .fd →
    r.dom = .dom (.port p) → s.consequential r (.port p) = false → s.role p = roleDOWN → s.gds (.port p)
    .GDS_LANE_WINDOW = 0 → s.holder? (.port p) = none → Gives (.containmentRequest) s fun t => t.domState (.port p) =
    gdCONTAINED ∧ t.gds (.port p) .GDS_LANE_CLASS = Cls.fd.code ∧ t.link p = lsDISABLED ∧ (t.out.contains
    (Out.linkDisabled p)) = true ∧ t.cnt (.guard 0) 1 = min (s.cnt (.guard 0) 1 + 1) cntMax) ∧
  (∀ (r : GReq) (l : List GReq), s.greqs = r :: l → s.safeHalt = false → r.warn = false → r.cls = .halt → r.block ≠ 3
    → Gives (.containmentRequest) s fun t => t.safeHalt = true ∧ t.rd (.guard 0) .GUARD_HALT_CAUSE_CAUSE = hcHALT ∧
    t.iv .haltRel = 0) ∧
  (∀ (r : GReq) (l : List GReq) (i : ViId), s.greqs = r :: l → s.safeHalt = false → r.warn = false → r.cls = .nf →
    r.dom = .dom (.inst i) → s.consequential r (.inst i) = false → s.gds (.inst i) .GDS_LANE_WINDOW = 1 → Gives
    (.containmentRequest) s fun t => t.safeHalt = true ∧ t.rd (.guard 0) .GUARD_HALT_CAUSE_CAUSE = hcSECOND_FAULT ∧
    (t.rd (.guard 0) .ERR_STICKY_BITS).testBit Err.GUARD_SECOND_FAULT.bit = true) ∧
  (∀ (r : GReq) (l : List GReq) (i : ViId) (e : Dom), s.greqs = r :: l → s.safeHalt = false → r.warn = false → r.cls =
    .nf → r.dom = .dom (.inst i) → s.consequential r (.inst i) = false → s.gds (.inst i) .GDS_LANE_WINDOW = 0 →
    s.holder? (.inst i) = some e → Gives (.containmentRequest) s fun t => t.gds e .GDS_LANE_MERGED = min 65535 (s.gds
    e .GDS_LANE_MERGED + 1) ∧ t.domState e = s.domState e ∧ t.cnt (.guard 0) 8 = min (s.cnt (.guard 0) 8 + 1) cntMax ∧
    t.safeHalt = false) ∧
  (∀ (r : GReq) (l : List GReq), s.greqs = r :: l → s.safeHalt = false → r.warn = false → r.cls = .fd → r.dom = .dom
    .device → s.consequential r .device = false → s.gds .device .GDS_LANE_WINDOW = 0 → s.holder? .device = none → s.on
    (.guard 0) .GUARD_POLICY_DEV_RESET = true → Gives (.containmentRequest) s fun t => t.domState .device =
    gdCONTAINED ∧ t.iv .devReset = 1 ∧ t.safeHalt = false) ∧
  (∀ (r : GReq) (l : List GReq), s.greqs = r :: l → s.safeHalt = false → r.warn = false → r.cls = .fd → r.dom = .dom
    .device → s.consequential r .device = false → s.gds .device .GDS_LANE_WINDOW = 0 → s.holder? .device = none → s.on
    (.guard 0) .GUARD_POLICY_DEV_RESET = false → Gives (.containmentRequest) s fun t => t.domState .device =
    gdCONTAINED ∧ t.safeHalt = true ∧ t.rd (.guard 0) .GUARD_HALT_CAUSE_CAUSE = hcDEVICE) ∧
  (∀ (r : GReq) (l : List GReq) (p : PortId), s.greqs = r :: l → s.safeHalt = false → r.warn = true → r.dom = .dom
    (.port p) → s.role p = roleDOWN → s.domState (.port p) = gdNONE → Gives (.containmentRequest) s fun t =>
    t.domState (.port p) = gdQUIESCED ∧ t.on (.port p) .BLK_CTRL_QUIESCE = true ∧ t.cnt (.guard 0) 11 = min (s.cnt
    (.guard 0) 11 + 1) cntMax) ∧
  (∀ (p : PortId), s.role p = roleDOWN → s.domState (.port p) = gdQUIESCED → s.link p ≠ lsDISABLED → s.link p ≠ lsDOWN
    → s.portIdle p = true → Gives (.powerQuiesceDrained p) s fun t => t.link p = lsDISABLED ∧ (t.out.contains
    (Out.linkDisabled p)) = true ∧ t.domState (.port p) = gdQUIESCED) ∧
  (∀ (p : PortId), s.role p = roleDOWN → s.domState (.port p) = gdQUIESCED → s.link p ≠ lsDISABLED → s.link p ≠ lsDOWN
    → Gives (.quiesceUsExpiry p) s fun t => t.link p = lsDISABLED ∧ (t.out.contains (Out.linkDisabled p)) = true ∧
    t.domState (.port p) = gdQUIESCED) ∧
  (∀ (st : Stamp) (i : ViId) (v : Word), s.locked (.guard 1) = false → v.getLsbD 31 = true → s.safeHalt = false →
    s.gds (.inst i) .GDS_LANE_WINDOW = 0 → s.holder? (.inst i) = none → s.pathOpen st = true → Gives (.domainContain
    st (.inst i) v) s fun t => t.domState (.inst i) = gdCONTAINED ∧ t.gds (.inst i) .GDS_LANE_CLASS = Cls.fd.code ∧
    t.gds (.inst i) .GDS_LANE_WINDOW = 1 ∧ t.gds (.inst i) .GDS_LANE_BY_SW = 1 ∧ t.gds (.inst i) .GDS_LANE_HOLD = bits
    v.toNat 29 29) ∧
  (∀ (w : SwId) (b x : Fin 32) (n : Feid) (r : IdRoute) (i : ViId), s.safeHalt = false → s.idRoute? s.live n.toNat =
    some r → r.isLocal = true → r.kind = kindInst → r.rid % 1024 = i → s.gds (.inst i) .GDS_LANE_WINDOW = 0 →
    s.holder? (.inst i) = none → Gives (.containReqReceived true w b x n) s fun t => t.domState (.inst i) =
    gdCONTAINED ∧ t.gds (.inst i) .GDS_LANE_CLASS = Cls.fd.code ∧ t.gds (.inst i) .GDS_LANE_WINDOW = 1 ∧ t.gds (.inst
    i) .GDS_LANE_BY_SW = 0 ∧ (t.rd (.guard 0) .ERR_STICKY_BITS).testBit Err.GUARD_REMOTE_REQ.bit = true)

/-- R260, R599, R603, R604, R611 to R615, R629: recovery, release, events, the log. -/
def Obligations.RecoveryCompletes : Prop :=
  ∀ s : State, s.Awake →
  (∀ (st : Stamp) (i : ViId) (v : Word), s.locked (.guard 1) = false → v.getLsbD 31 = false → v.getLsbD 30 = true →
    s.joined (.inst i) = false → s.domState (.inst i) = gdCONTAINED → s.pathOpen st = true → Gives (.domainRelease st
    (.inst i) v) s fun t => t.domState (.inst i) = gdRECOVERING ∧ t.gds (.inst i) .GDS_LANE_HOLD = bits v.toNat 29 29)
    ∧
  (∀ (st : Stamp) (i : ViId) (v : Word), s.locked (.guard 1) = false → v.getLsbD 31 = false → v.getLsbD 30 = true →
    v.getLsbD 29 = true → s.joined (.inst i) = false → s.domState (.inst i) = gdHELD → s.gds (.inst i)
    .GDS_LANE_WINDOW = 0 → s.pathOpen st = true → Gives (.domainRelease st (.inst i) v) s fun t => t.domState (.inst
    i) = gdNONE ∧ t.gds (.inst i) .GDS_LANE_MERGED = 0 ∧ t.cnt (.guard 0) 6 = min (s.cnt (.guard 0) 6 + 1) cntMax) ∧
  (∀ (st : Stamp) (p : PortId), s.role p = roleDOWN → s.joined (.port p) = false → s.domState (.port p) = gdCONTAINED
    → s.refGone (.port p) = false → s.pathOpen st = true → Gives (.portRelease st p) s fun t => t.domState (.port p) =
    gdRECOVERING) ∧
  (∀ (p : PortId), s.role p = roleDOWN → s.domState (.port p) = gdRECOVERING → s.link p = lsDISABLED → s.safeHalt =
    false → Gives (.dpcHoldExpiry p) s fun t => t.link p = s.restState p ∧ t.domState (.port p) = gdRECOVERING) ∧
  (∀ (d : Dom), domOk d = true → s.joined d = false → s.domState d = gdRECOVERING → s.sequenceDone d = true → s.gds d
    .GDS_LANE_WINDOW = 0 → s.gds d .GDS_LANE_HOLD = 0 → Gives (.recoveryComplete d) s fun t => t.domState d = gdNONE ∧
    t.gds d .GDS_LANE_CLASS = 0 ∧ t.gds d .GDS_LANE_MERGED = 0 ∧ t.cnt (.guard 0) 6 = min (s.cnt (.guard 0) 6 + 1)
    cntMax) ∧
  (∀ (d : Dom), domOk d = true → s.joined d = false → s.domState d = gdRECOVERING → s.sequenceDone d = true → s.gds d
    .GDS_LANE_WINDOW = 1 → Gives (.recoveryComplete d) s fun t => t.domState d = gdHELD ∧ t.gds d .GDS_LANE_CLASS =
    s.gds d .GDS_LANE_CLASS) ∧
  (∀ (i : ViId), s.domState (.inst i) = gdRECOVERING → s.safeHalt = false → Gives (.recoveryTimeout (.inst i)) s fun t
    => t.domState (.inst i) = gdFAILED ∧ (t.rd (.guard 0) .ERR_STICKY_BITS).testBit Err.GUARD_RECOVERY_FAIL.bit = true
    ∧ t.cnt (.guard 0) 7 = min (s.cnt (.guard 0) 7 + 1) cntMax) ∧
  (∀ (d : Dom), domOk d = true → s.domState d ≠ gdHELD → Gives (.recoveryWindowClose d) s fun t => t.gds d
    .GDS_LANE_WINDOW = 0 ∧ t.domState d = s.domState d) ∧
  (∀ (d : Dom), domOk d = true → s.joined d = false → s.domState d = gdHELD → s.gds d .GDS_LANE_HOLD = 0 → Gives
    (.recoveryWindowClose d) s fun t => t.gds d .GDS_LANE_WINDOW = 0 ∧ t.domState d = gdNONE) ∧
  (∀ (p : PortId), (s.feidsOf (.port p)).isEmpty = false → s.domState (.port p) = gdNONE → s.ivOn .reachLeft (domIndex
    (.port p)) = true → Gives (.domainEventRepeat (.port p)) s fun t => t.iv .reachLeft (domIndex (.port p)) = s.iv
    .reachLeft (domIndex (.port p)) - 1) ∧
  (∀ (x : Fin 4) (w : SwId) (n : Feid), x.val = deREACHABLE → Gives (.domainEventReceived x w [n]) s fun t => t.iv
    .unreach n.toNat = 0) ∧
  (∀ (x : Fin 4) (w : SwId) (n : Feid), (x.val = deUNREACHABLE ∨ x.val = deORDERLY) → Gives (.domainEventReceived x w
    [n]) s fun t => t.iv .unreach n.toNat = x) ∧
  (∀ (n : Feid), s.ivOn .unreach n.toNat = true → Gives (.unreachableMarkExpiry n) s fun t => t.iv .unreach n.toNat =
    0) ∧
  (∀ (st : Stamp) (v : Word), s.locked (.guard 0) = false → v.getLsbD 31 = true → s.pathOpen st = true → Gives
    (.elogClear st v) s fun t => t.fifo .elog = [] ∧ t.rd (.guard 0) .GUARD_ELOG_CTRL_LOST = 0 ∧ t.iv .elogSeq = s.iv
    .elogSeq)

/-- R636 to R643, R658, R718 and Tables SEC-3 and SEC-13: tokens and locks. -/
def Obligations.TokensComplete : Prop :=
  ∀ s : State, s.Awake →
  (∀ (st : Stamp) (v : Word) (k : Fin 4), v.getLsbD 31 = true → s.locked (.sec 0) = false → s.iv .tokRun = 0 → tokenOp
    (s.tokenOf st.code) = opCLAIM → s.tokenStatus (s.tokenOf st.code) = tkOK → s.pathOpen st = true → Gives
    (.tokenClaim st v) s fun t => t.iv .tokRes = tkOK ∧ t.iv .tokRun = st.code + 1 ∧ t.rdSt st.code (.sec 0)
    .SEC_TOKEN_CTRL_GO = 1 ∧ t.iv .ownRec = s.iv .ownRec + 1 ∧ t.iv .ownKey k = tokenKey (s.tokenOf st.code) k ∧ (t.rd
    (.sec 0) .ERR_STICKY_BITS).testBit Err.SEC_OWNER_CHANGED.bit = true) ∧
  (∀ (st : Stamp) (v : Word) (k : Fin 4), v.getLsbD 31 = true → s.locked (.sec 0) = false → s.iv .tokRun = 0 → tokenOp
    (s.tokenOf st.code) = opTRANSFER → s.tokenStatus (s.tokenOf st.code) = tkOK → s.pathOpen st = true → Gives
    (.tokenTransfer st v) s fun t => t.iv .tokRes = tkOK ∧ t.iv .tokRun = st.code + 1 ∧ t.rdSt st.code (.sec 0)
    .SEC_TOKEN_CTRL_GO = 1 ∧ t.iv .ownRec = s.iv .ownRec + 1 ∧ t.iv .ownKey k = tokenKey (s.tokenOf st.code) k) ∧
  (∀ (st : Stamp) (v : Word), v.getLsbD 31 = true → s.locked (.sec 0) = false → s.iv .tokRun = 0 → tokenOp (s.tokenOf
    st.code) = opRELEASE → s.tokenStatus (s.tokenOf st.code) = tkOK → s.pathOpen st = true → Gives (.tokenRelease st
    v) s fun t => t.iv .tokRes = tkOK ∧ t.iv .tokRun = st.code + 1 ∧ t.rdSt st.code (.sec 0) .SEC_TOKEN_CTRL_GO = 1 ∧
    t.iv .ownRec = s.iv .ownRec + 1 ∧ t.owned = false) ∧
  (∀ (st : Stamp) (v : Word) (i : Fin 1024) (pg : Pg), v.getLsbD 31 = true → s.locked (.sec 0) = false → s.iv .tokRun
    = 0 → tokenOp (s.tokenOf st.code) = opUNLOCK_PAGES → s.tokenStatus (s.tokenOf st.code) = tkOK → (tokenField
    (s.tokenOf st.code) 0x20 384).testBit i = true → lockPage? i = some pg → s.pathOpen st = true → Gives
    (.tokenUnlockPages st v) s fun t => t.iv .tokRes = tkOK ∧ t.iv .tokRun = st.code + 1 ∧ t.rdSt st.code (.sec 0)
    .SEC_TOKEN_CTRL_GO = 1 ∧ t.rd pg .PAGE_LOCK_LOCKED = 0 ∧ t.rd pg .PAGE_LOCK_LOCK_GEN = s.rd pg
    .PAGE_LOCK_LOCK_GEN) ∧
  (∀ (st : Stamp) (v : Word), v.getLsbD 31 = true → s.locked (.sec 0) = false → s.iv .tokRun = 0 → tokenOp (s.tokenOf
    st.code) = opGRANT → s.tokenStatus (s.tokenOf st.code) = tkOK → s.pathOpen st = true → Gives (.tokenGrant st v) s
    fun t => t.iv .tokRes = tkOK ∧ t.iv .tokRun = st.code + 1 ∧ t.rdSt st.code (.sec 0) .SEC_TOKEN_CTRL_GO = 1 ∧ t.rd
    (.sec 0) .SEC_GRANT_MASK = tokenField (s.tokenOf st.code) 0x20 384) ∧
  (∀ (st : Stamp) (v : Word), v.getLsbD 31 = true → s.locked (.sec 0) = false → s.iv .tokRun = 0 → tokenOp (s.tokenOf
    st.code) = opARB_ADVANCE → s.tokenStatus (s.tokenOf st.code) = tkOK → s.pathOpen st = true → Gives
    (.tokenArbAdvance st v) s fun t => t.iv .tokRes = tkOK ∧ t.iv .tokRun = st.code + 1 ∧ t.rdSt st.code (.sec 0)
    .SEC_TOKEN_CTRL_GO = 1 ∧ t.arbAt 1 = tokenField (s.tokenOf st.code) 0x20 384 ∧ t.arbAt 0 = s.arbAt 0) ∧
  (∀ (st : Stamp) (v : Word), v.getLsbD 31 = true → s.locked (.sec 0) = false → s.iv .tokRun = 0 → tokenOp (s.tokenOf
    st.code) = opDEBUG_UNLOCK → s.tokenStatus (s.tokenOf st.code) = tkOK → s.pathOpen st = true → Gives
    (.tokenDebugUnlock st v) s fun t => t.iv .tokRes = tkOK ∧ t.iv .tokRun = st.code + 1 ∧ t.rdSt st.code (.sec 0)
    .SEC_TOKEN_CTRL_GO = 1 ∧ t.debugState = dbPENDING) ∧
  (∀ (st : Stamp) (v : Word), v.getLsbD 31 = true → s.locked (.sec 0) = false → s.iv .tokRun = 0 → tokenOp (s.tokenOf
    st.code) = opCLAIM → s.tokenFormat (s.tokenOf st.code) = true → tokenField (s.tokenOf st.code) 8 8 = s.iv .devId →
    tokenField (s.tokenOf st.code) 16 16 = s.nonce → s.tokenSigned (s.tokenOf st.code) = false → s.pathOpen st = true
    → Gives (.tokenClaim st v) s fun t => t.iv .tokRes = tkSIG ∧ t.iv .ownRec = s.iv .ownRec ∧ t.iv .tokRun = st.code
    + 1) ∧
  (∀ (st : Stamp) (v : Word), v.getLsbD 31 = true → s.locked (.sec 0) = false → s.ivOn .tokRun = true → tokenOp
    (s.tokenOf st.code) = opGRANT → s.pathOpen st = true → Gives (.tokenGrant st v) s fun t => t.rdSt st.code (.sec 0)
    .SEC_TOKEN_CTRL_STATUS = tkBUSY ∧ t.iv .tokRun = s.iv .tokRun ∧ t.rd (.sec 0) .SEC_GRANT_MASK = s.rd (.sec 0)
    .SEC_GRANT_MASK ∧ (t.rd (.sec 0) .ERR_STICKY_BITS).testBit Err.SEC_TOKEN_REFUSED.bit = true ∧ t.cnt (.sec 0) 1 =
    min (s.cnt (.sec 0) 1 + 1) cntMax) ∧
  (s.ivOn .tokRun = true → s.iv .tokRes = tkOK → Gives (.tokenFinished) s fun t => t.iv .tokRun = 0 ∧ t.rdSt (s.iv
    .tokRun - 1) (.sec 0) .SEC_TOKEN_CTRL_STATUS = tkOK ∧ t.rdSt (s.iv .tokRun - 1) (.sec 0) .SEC_TOKEN_CTRL_GO = 0 ∧
    t.rdSt (s.iv .tokRun - 1) (.sec 0) .SEC_TOKEN_CTRL_OP = tokenOp (s.iv .tokRaw) ∧ t.cnt (.sec 0) 0 = min (s.cnt
    (.sec 0) 0 + 1) cntMax ∧ t.free = s.free + 4) ∧
  (s.ivOn .tokRun = true → s.iv .tokRes = tkSIG → Gives (.tokenFinished) s fun t => t.iv .tokRun = 0 ∧ t.rdSt (s.iv
    .tokRun - 1) (.sec 0) .SEC_TOKEN_CTRL_STATUS = tkSIG ∧ (t.rd (.sec 0) .ERR_STICKY_BITS).testBit
    Err.SEC_TOKEN_REFUSED.bit = true ∧ t.free = s.free + 4) ∧
  (s.ivOn .tokRun = true → s.iv .tokRes = 0 → Gives (.tokenFinished) s fun t => t.iv .tokRun = 0 ∧ t.rdSt (s.iv
    .tokRun - 1) (.sec 0) .SEC_TOKEN_CTRL_STATUS = s.tokenStatus (s.iv .tokRaw)) ∧
  (∀ (st : Stamp) (k : Fin 32) (v : Word) (j : Fin 32) (pg : Pg), s.locked (.sec 0) = false → v.getLsbD j = true →
    lockPage? (32 * k + j) = some pg → s.pathOpen st = true → Gives (.pageLockWrite st k v) s fun t => t.rd pg
    .PAGE_LOCK_LOCKED = 1)

/-- R634, R646 to R650, R654, R658: SPDM, IDE_KM, device authentication, rekeys, debug. -/
def Obligations.SecCompletes : Prop :=
  ∀ s : State, s.Awake →
  (∀ (ch : DoeOrMctp), s.fwRuns = true → (ch.isSome || (List.range 4).any fun n => s.on (.mgmt 2) .MGMT_SMB_CFG_EN n)
    = true → Gives (.spdmRequest ch .getVersion) s fun t => t.out = Out.spdm (ch.map (·.val)) .version :: s.out) ∧
  (∀ (ch : DoeOrMctp) (k : Fin 256), s.fwRuns = true → (ch.isSome || (List.range 4).any fun n => s.on (.mgmt 2)
    .MGMT_SMB_CFG_EN n) = true → 1 ≤ k.val → k.val ≤ 7 → Gives (.spdmRequest ch (.getMeasurements k)) s fun t => t.out
    = Out.spdm (ch.map (·.val)) (.measurement k (s.measurement k)) :: s.out) ∧
  (∀ (ch : DoeOrMctp) (k : Fin 8), s.fwRuns = true → (ch.isSome || (List.range 4).any fun n => s.on (.mgmt 2)
    .MGMT_SMB_CFG_EN n) = true → k.val < 2 → s.iv .spdmSess (spdmIndex ch) + s.iv .spdmShake (spdmIndex ch) <
    spdmLimit ch → Gives (.spdmRequest ch (.keyExchange k)) s fun t => t.iv .spdmShake (spdmIndex ch) = s.iv
    .spdmShake (spdmIndex ch) + 1 ∧ t.iv .spdmSess (spdmIndex ch) = s.iv .spdmSess (spdmIndex ch) ∧ t.out = Out.spdm
    (ch.map (·.val)) .keyExchange :: s.out) ∧
  (∀ (ch : DoeOrMctp) (k : Fin 8), s.fwRuns = true → (ch.isSome || (List.range 4).any fun n => s.on (.mgmt 2)
    .MGMT_SMB_CFG_EN n) = true → spdmLimit ch ≤ s.iv .spdmSess (spdmIndex ch) + s.iv .spdmShake (spdmIndex ch) → Gives
    (.spdmRequest ch (.keyExchange k)) s fun t => t.iv .spdmSess (spdmIndex ch) = s.iv .spdmSess (spdmIndex ch) ∧
    t.out.head? = some (Out.spdm (ch.map (·.val)) .error) ∧ (t.rd (.sec 0) .ERR_STICKY_BITS).testBit
    Err.SEC_SPDM_REFUSED.bit = true) ∧
  (∀ (ch : DoeOrMctp), s.fwRuns = true → (ch.isSome || (List.range 4).any fun n => s.on (.mgmt 2) .MGMT_SMB_CFG_EN n)
    = true → s.ivOn .spdmShake (spdmIndex ch) = true → Gives (.spdmRequest ch .finish) s fun t => t.iv .spdmSess
    (spdmIndex ch) = s.iv .spdmSess (spdmIndex ch) + 1 ∧ t.iv .spdmShake (spdmIndex ch) = s.iv .spdmShake (spdmIndex
    ch) - 1 ∧ t.out.head? = some (Out.spdm (ch.map (·.val)) .finish) ∧ t.cnt (.sec 0) 2 = min (s.cnt (.sec 0) 2 + 1)
    cntMax) ∧
  (∀ (f : FaceId) (r : SpdmReq), s.fwRuns = false → Gives (.spdmRequest (some f) r) s fun t => t.out = Out.doeBusy f
    :: s.out) ∧
  (∀ (f : FaceId) (j : Fin 2) (k : Fin 6) (i : Fin 256), s.fwRuns = true → s.on (.face f) .FACE_BIND_ENABLE = true →
    s.ivOn .spdmSess f = true → Gives (.ideKmRequest (some f) (.keyProg 0 j k i)) s fun t => t.iv .ideKey (ideSet
    (s.facePort f) 0 j) = setBit (s.iv .ideKey (ideSet (s.facePort f) 0 j)) k ∧ t.rd (.sec 1) .SEC_IDE_STAT_LINK_ID
    (s.facePort f) = i ∧ t.out = Out.spdm (some f.val) (.ideAck 0 j k) :: s.out) ∧
  (∀ (f : FaceId) (j : Fin 2) (k : Fin 6), s.fwRuns = true → s.on (.face f) .FACE_BIND_ENABLE = true → s.ivOn
    .spdmSess f = true → (s.iv .ideKey (ideSet (s.facePort f) 0 j)).testBit k = true → setBit (s.iv .ideGo (ideSet
    (s.facePort f) 0 j)) k = ideAll → Gives (.ideKmRequest (some f) (.goSet 0 j k)) s fun t => t.rd (.sec 1)
    .SEC_IDE_STAT_LINK_SECURE (s.facePort f) = 1 ∧ t.rd (.sec 1) .SEC_IDE_STAT_LINK_KSET (s.facePort f) = j ∧ t.out =
    Out.spdm (some f.val) (.ideAck 0 j k) :: s.out) ∧
  (∀ (m : IdeKm), s.fwRuns = true → ((List.range 4).any fun n => s.on (.mgmt 2) .MGMT_SMB_CFG_EN n) = true → Gives
    (.ideKmRequest none m) s fun t => t.out.head? = some (Out.spdm none .error) ∧ (t.rd (.sec 0)
    .ERR_STICKY_BITS).testBit Err.SEC_SPDM_REFUSED.bit = true) ∧
  (∀ (p : PortId) (x : Nat), s.role p = roleDOWN → s.link p = lsL0 → s.ivOn .ideDown p = true → x ≠ 0 → s.iv .devRoot
    0 = x → Gives (.deviceAuthDone p true x) s fun t => t.rd (.sec 1) .SEC_IDE_STAT_DEV_AUTH p = 1 ∧ t.rd (.sec 1)
    .SEC_IDE_STAT_LINK_SECURE p = 1 ∧ t.free = s.free + 1) ∧
  (∀ (p : PortId) (x : Nat), s.role p = roleDOWN → s.link p = lsL0 → s.ivOn .ideDown p = true → s.ivOn .devRoot 0 =
    true → Gives (.deviceAuthDone p false x) s fun t => t.rd (.sec 1) .SEC_IDE_STAT_DEV_AUTH p = 0 ∧ t.rd (.sec 1)
    .SEC_IDE_STAT_LINK_SECURE p = s.rd (.sec 1) .SEC_IDE_STAT_LINK_SECURE p ∧ (t.rd (.sec 0) .ERR_STICKY_BITS).testBit
    Err.SEC_DEV_AUTH_FAIL.bit = true) ∧
  (∀ (p : PortId), 2 ^ 40 ≤ s.iv .txNum p → s.linkRuns p = true → s.on (.port p) .PORT_LINK_STAT_ENC = true → s.iv
    .rekeying p = 0 → s.iv .nextKey p = 0 → Gives (.linkRekey p none) s fun t => t.iv .rekeying p = 1 ∧ t.rd (.sec 2)
    .SEC_LINK_STAT_REKEY p = 1 ∧ t.free = s.free + 36) ∧
  (∀ (p : PortId) (st : Stamp) (v : Word), s.locked (.sec 2) = false → v.getLsbD 29 = true → s.linkRuns p = true →
    s.on (.port p) .PORT_LINK_STAT_ENC = true → s.iv .rekeying p = 0 → s.iv .nextKey p = 0 → s.pathOpen st = true →
    Gives (.linkRekey p (some (st, v))) s fun t => t.iv .rekeying p = 1 ∧ t.rd (.sec 2) .SEC_LINK_STAT_REKEY p = 1 ∧
    t.free = s.free + 36) ∧
  (∀ (p : PortId), s.ivOn .rekeying p = true → Gives (.rekeyTimeout p) s fun t => t.iv .rekeying p = 0 ∧ t.rd (.sec 2)
    .SEC_LINK_STAT_REKEY p = 0 ∧ (t.rd (.sec 0) .ERR_STICKY_BITS).testBit Err.SEC_REKEY_FAIL.bit = true) ∧
  (∀ (st : Stamp) (v : Word), s.locked (.sec 0) = false → v.getLsbD 31 = true → s.pathOpen st = true → Gives
    (.debugRelock st v) s fun t => t.debugState = dbLOCKED ∧ t.out = Out.debugPins false :: s.out)

/-- R663 to R676, R678 and Tables PWR-2 and PWR-3: start, cut-offs, retries. -/
def Obligations.ChannelsStartAndCut : Prop :=
  ∀ s : State, s.wf →
  (∀ (c : ChanId), anchor c = false → s.chan c = pcWAIT_SEAT → Gives (.seatingDebounced c) s fun t => t.chan c =
    pcWAIT_FEED ∧ t.rd (.pwr c) .PWR_CH_STAT_SEATED = 1) ∧
  (∀ (c : ChanId), anchor c = false → s.chan c = pcLATCHED → s.rd (.pwr c) .PWR_CH_STAT_SEATED = 0 → Gives
    (.seatingDebounced c) s fun t => t.chan c = pcWAIT_FEED ∧ t.rd (.pwr c) .PWR_CH_STAT_SEATED = 1) ∧
  (∀ (c : ChanId) (b : Bool), s.chan c = pcWAIT_FEED → s.on (.pwr c) (if b then .PWR_FEED_SEL_FEED_B_EN else
    .PWR_FEED_SEL_FEED_A_EN) = true → s.prefersB c = b → Gives (.insertionDelayExpiry c b) s fun t => t.chan c =
    pcRAMP ∧ t.activeB c = b ∧ t.feedOk c b = true ∧ t.rd (.pwr c) .PWR_CH_STAT_WARN = 0 ∧ t.cnt (.pwr c) 0 = min
    (s.cnt (.pwr c) 0 + 1) cntMax) ∧
  (∀ (c : ChanId), s.chan c = pcRAMP → Gives (.rampComplete c) s fun t => t.chan c = pcON) ∧
  (∀ (c : ChanId), s.chan c = pcRAMP → Gives (.rampTimeout c) s fun t => t.chan c = pcWARN ∧ t.iv .pwCause c =
    cutFAULT ∧ t.rd (.pwr c) .PWR_CH_STAT_WARN = 1 ∧ (t.rd (.pwr c) .ERR_STICKY_BITS).testBit Err.PWR_FAULT_TIMER.bit
    = true) ∧
  (∀ (c : ChanId) (n : Nat), s.chanOn c = true → s.on (.pwr c) .PWR_CH_CFG_EN = true → s.iv .pwReset c = 0 → s.rd
    (.pwr c) .PWR_CH_STAT_RETRIES_LEFT = n + 1 → Gives (.fastTrip c) s fun t => t.chan c = pcRETRY_WAIT ∧ t.rd (.pwr
    c) .PWR_CH_STAT_RETRIES_LEFT = n ∧ t.rd (.pwr c) .PWR_CH_STAT_LAST_CUT = cutFAST_TRIP ∧ t.rd (.pwr c)
    .PWR_CH_STAT_PG = 0 ∧ t.rd (.pwr c) .PWR_CH_STAT_WARN = 1 ∧ t.cnt (.pwr c) 2 = min (s.cnt (.pwr c) 2 + 1) cntMax ∧
    t.cnt (.pwr c) 3 = min (s.cnt (.pwr c) 3 + 1) cntMax ∧ (t.rd (.pwr c) .ERR_STICKY_BITS).testBit
    Err.PWR_FAST_TRIP.bit = true ∧ (t.rd (.pwr c) .ERR_STICKY_BITS).testBit Err.PWR_RETRYING.bit = true) ∧
  (∀ (c : ChanId), s.chanOn c = true → s.on (.pwr c) .PWR_CH_CFG_EN = true → s.iv .pwReset c = 0 → s.rd (.pwr c)
    .PWR_CH_STAT_RETRIES_LEFT = 0 → Gives (.fastTrip c) s fun t => t.chan c = pcLATCHED ∧ (t.rd (.pwr c)
    .ERR_STICKY_BITS).testBit Err.PWR_LATCHED.bit = true ∧ t.rd (.pwr c) .PWR_CH_STAT_PG = 0) ∧
  (∀ (c : ChanId), (s.chan c = pcRAMP ∨ s.chan c = pcON) → Gives (.faultTimerExpiry c) s fun t => t.chan c = pcWARN ∧
    t.iv .pwCause c = cutFAULT ∧ t.rd (.pwr c) .PWR_CH_STAT_PG = 0 ∧ t.rd (.pwr c) .PWR_CH_STAT_WARN = 1 ∧ t.cnt (.pwr
    c) 4 = min (s.cnt (.pwr c) 4 + 1) cntMax ∧ (t.rd (.pwr c) .ERR_STICKY_BITS).testBit Err.PWR_FAULT_TIMER.bit =
    true) ∧
  (∀ (c : ChanId), (s.chan c = pcRAMP ∨ s.chan c = pcON) → Gives (.fetOvertemp c) s fun t => t.chan c = pcWARN ∧ t.iv
    .pwCause c = cutFET ∧ t.rd (.pwr c) .PWR_CH_STAT_WARN = 1 ∧ (t.rd (.pwr c) .ERR_STICKY_BITS).testBit
    Err.PWR_FET_HOT.bit = true) ∧
  (∀ (c : ChanId), anchor c = false → s.chan c = pcON → Gives (.seatingLoss c) s fun t => t.chan c = pcWARN ∧ t.iv
    .pwCause c = cutSEAT ∧ t.rd (.pwr c) .PWR_CH_STAT_SEATED = 0 ∧ (t.rd (.pwr c) .ERR_STICKY_BITS).testBit
    Err.PWR_SEAT_LOSS.bit = true) ∧
  (∀ (c : ChanId), anchor c = false → (s.chan c = pcWAIT_FEED ∨ s.chan c = pcRETRY_WAIT ∨ s.chan c = pcFEED_LOST) →
    Gives (.seatingLoss c) s fun t => t.chan c = pcWAIT_SEAT ∧ t.rd (.pwr c) .PWR_CH_STAT_SEATED = 0) ∧
  (∀ (c : ChanId), s.chan c = pcON → s.feedOk c (!s.activeB c) = false → Gives (.feedLoss c) s fun t => t.chan c =
    pcWARN ∧ t.iv .pwCause c = cutFEED ∧ t.feedOk c (s.activeB c) = false ∧ (t.rd (.pwr c) .ERR_STICKY_BITS).testBit
    Err.PWR_FEED_LOST.bit = true) ∧
  (∀ (c : ChanId), s.chanOn c = true → s.on (.pwr c) .PWR_CH_CFG_EN = true → s.iv .pwReset c = 0 → s.feedOk c
    (!s.activeB c) = false → Gives (.ovCut c) s fun t => t.chan c = pcFEED_LOST ∧ t.rd (.pwr c) .PWR_CH_STAT_LAST_CUT
    = cutOV ∧ t.rd (.pwr c) .PWR_CH_STAT_PG = 0 ∧ (t.rd (.pwr c) .ERR_STICKY_BITS).testBit Err.PWR_OV_CUT.bit = true)
    ∧
  (∀ (c : ChanId), s.chan c = pcWARN → s.iv .pwCause c = cutFET → s.on (.pwr c) .PWR_CH_CFG_EN = true → s.iv .pwReset
    c = 0 → Gives (.warnLeadExpiry c) s fun t => t.chan c = pcLATCHED ∧ t.rd (.pwr c) .PWR_CH_STAT_LAST_CUT = cutFET ∧
    t.rd (.pwr c) .PWR_CH_STAT_PG = 0 ∧ t.iv .pwCause c = 0 ∧ t.cnt (.pwr c) 1 = min (s.cnt (.pwr c) 1 + 1) cntMax ∧
    (t.rd (.pwr c) .ERR_STICKY_BITS).testBit Err.PWR_LATCHED.bit = true) ∧
  (∀ (c : ChanId), s.chan c = pcWARN → s.iv .pwCause c = 0 → Gives (.warnLeadExpiry c) s fun t => t.chan c = pcON ∧
    t.iv .pwDead c = 1 ∧ t.rd (.pwr c) .PWR_CH_STAT_PG = 0) ∧
  (∀ (c : ChanId), s.chan c = pcRETRY_WAIT → Gives (.retryPeriodExpiry c) s fun t => t.chan c = pcRAMP ∧ t.rd (.pwr c)
    .PWR_CH_STAT_WARN = 0 ∧ t.cnt (.pwr c) 0 = min (s.cnt (.pwr c) 0 + 1) cntMax)

/-- R665, R669, R672, R674 to R683, R687: reverse block, power-good, switchovers, telemetry. -/
def Obligations.ChannelsSwitchAndReport : Prop :=
  ∀ s : State, s.wf →
  (∀ (c : ChanId), s.chanOn c = true → s.ivOn .pwDead c = false → s.rd (.pwr c) .PWR_CH_STAT_REV_BLOCK = 0 → Gives
    (.reverseBlock c) s fun t => t.rd (.pwr c) .PWR_CH_STAT_REV_BLOCK = 1 ∧ t.gate c (t.activeB c) = false ∧ t.cnt
    (.pwr c) 8 = min (s.cnt (.pwr c) 8 + 1) cntMax ∧ (t.rd (.pwr c) .ERR_STICKY_BITS).testBit Err.PWR_REVERSE.bit =
    true) ∧
  (∀ (c : ChanId), Gives (.reverseRelease c) s fun t => t.rd (.pwr c) .PWR_CH_STAT_REV_BLOCK = 0 ∧ t.chan c = s.chan
    c) ∧
  (∀ (c : ChanId), s.chan c = pcON → s.rd (.pwr c) .PWR_CH_STAT_LIMIT = 0 → s.rd (.pwr c) .PWR_CH_STAT_PG = 0 → s.rd
    (.pwr c) .PWR_CH_STAT_REV_BLOCK = 0 → s.iv .pwDead c = 0 → Gives (.powerGood c) s fun t => t.rd (.pwr c)
    .PWR_CH_STAT_PG = 1 ∧ t.rd (.pwr c) .PWR_CH_STAT_WARN = 0) ∧
  (∀ (c : ChanId), s.rd (.pwr c) .PWR_CH_STAT_PG = 1 → Gives (.retryReloadTimer c) s fun t => t.rd (.pwr c)
    .PWR_CH_STAT_RETRIES_LEFT = s.rd (.pwr c) .PWR_FAULT_TIMER_RETRY_COUNT % 16) ∧
  (∀ (c : ChanId), Gives (.outputBelowPgThreshold c) s fun t => t.rd (.pwr c) .PWR_CH_STAT_PG = 0 ∧ t.chan c = s.chan
    c) ∧
  (∀ (c : ChanId), (s.chan c = pcRAMP ∨ s.chan c = pcON) → s.iv .pwDead c = 0 → s.on (.pwr c) (if s.activeB c then
    .PWR_FEED_SEL_FEED_A_EN else .PWR_FEED_SEL_FEED_B_EN) = true → s.on (.pwr c) .PWR_FEED_SEL_WARN_ON_SWITCH = false
    → Gives (.forcedSwitchover c) s fun t => t.iv .pwDead c = 1 ∧ t.iv .pwSwitch c = 1 + b2n (!s.activeB c) ∧ t.feedOk
    c (s.activeB c) = false ∧ t.feedOk c (!s.activeB c) = true ∧ t.chan c = s.chan c ∧ t.rd (.pwr c) .PWR_CH_STAT_PG =
    s.rd (.pwr c) .PWR_CH_STAT_PG) ∧
  (∀ (c : ChanId), s.chan c = pcON → s.iv .pwDead c = 0 → s.on (.pwr c) (if s.activeB c then .PWR_FEED_SEL_FEED_A_EN
    else .PWR_FEED_SEL_FEED_B_EN) = true → s.on (.pwr c) .PWR_FEED_SEL_WARN_ON_SWITCH = true → Gives
    (.forcedSwitchover c) s fun t => t.iv .pwDead c = 1 ∧ t.rd (.pwr c) .PWR_CH_STAT_PG = 0 ∧ t.rd (.pwr c)
    .PWR_CH_STAT_WARN = 1) ∧
  (∀ (c : ChanId), s.on (.pwr c) .PWR_FEED_SEL_REVERT = true → s.activeB c ≠ s.prefersB c → s.on (.pwr c) (if
    s.prefersB c then .PWR_FEED_SEL_FEED_B_EN else .PWR_FEED_SEL_FEED_A_EN) = true → s.chan c = pcON → s.iv .pwSwitch
    c = 0 → s.on (.pwr c) .PWR_FEED_SEL_WARN_ON_SWITCH = true → Gives (.revertSwitchover c) s fun t => t.chan c =
    pcWARN ∧ t.iv .pwSwitch c = 1 + b2n (s.prefersB c) ∧ t.rd (.pwr c) .PWR_CH_STAT_WARN = 1 ∧ t.iv .pwCause c = 0) ∧
  (∀ (c : ChanId), s.on (.pwr c) .PWR_FEED_SEL_REVERT = true → s.activeB c ≠ s.prefersB c → s.on (.pwr c) (if
    s.prefersB c then .PWR_FEED_SEL_FEED_B_EN else .PWR_FEED_SEL_FEED_A_EN) = true → s.chan c = pcON → s.iv .pwSwitch
    c = 0 → s.on (.pwr c) .PWR_FEED_SEL_WARN_ON_SWITCH = false → Gives (.revertSwitchover c) s fun t => t.chan c =
    pcON ∧ t.iv .pwSwitch c = 1 + b2n (s.prefersB c) ∧ t.iv .pwDead c = 1) ∧
  (∀ (c : ChanId), s.chanOn c = true → s.ivOn .pwDead c = true → s.iv .pwSwitch c = 2 → Gives (.deadTimeExpiry c) s
    fun t => t.activeB c = true ∧ t.iv .pwDead c = 0 ∧ t.iv .pwSwitch c = 0 ∧ t.cnt (.pwr c) 5 = min (s.cnt (.pwr c) 5
    + 1) cntMax) ∧
  (∀ (c : ChanId) (vo io va vb : BitVec 16) (tf : BitVec 8) (l : Bool), s.chanOn c = true → s.on (.pwr c)
    .PWR_FEED_SEL_FEED_A_EN = true → Gives (.telemetrySample c vo io va vb tf l) s fun t => t.rd (.pwr c)
    .PWR_TELEM_VOUT = vo.toNat ∧ t.rd (.pwr c) .PWR_TELEM_IOUT = io.toNat ∧ t.rd (.pwr c) .PWR_TELEM_VFA = va.toNat ∧
    t.rd (.pwr c) .PWR_TELEM_VFB = vb.toNat ∧ t.rd (.pwr c) .PWR_TELEM_TFET = tf.toNat ∧ t.rd (.pwr c)
    .PWR_TELEM_IPEAK = max (s.rd (.pwr c) .PWR_TELEM_IPEAK) io.toInt.natAbs % 65536 ∧ t.feedOk c false = s.qualified c
    va.toNat (s.on (.pwr c) .PWR_CH_STAT_A_OK) ∧ t.rd (.pwr c) .PWR_CH_STAT_LIMIT = b2n l ∧ t.iv .pwEnergy c = (s.iv
    .pwEnergy c + vo.toNat * io.toInt.toNat) % 100000)

/-- R664, R671, R675, R680 to R686: register writes and feed checks. -/
def Obligations.ChannelsAsCommanded : Prop :=
  ∀ s : State, s.Awake →
  (∀ (c : ChanId) (st : Stamp) (v : Word), s.locked (.pwr c) = false → v.getLsbD 31 = true → v.getLsbD 29 = false →
    s.on (.pwr c) .PWR_FEED_SEL_FEED_A_EN = true → s.on (.pwr c) .PWR_CH_CFG_EN = false → s.chan c = pcOFF →
    s.pathOpen st = true → Gives (.channelEnable st c v) s fun t => t.on (.pwr c) .PWR_CH_CFG_EN = true ∧ (t.chan c =
    (if anchor c then pcWAIT_FEED else pcWAIT_SEAT)) ∧ t.rd (.pwr c) .PWR_CH_STAT_RETRIES_LEFT = s.rd (.pwr c)
    .PWR_FAULT_TIMER_RETRY_COUNT % 16) ∧
  (∀ (c : ChanId) (st : Stamp) (v : Word), s.locked (.pwr c) = false → v.getLsbD 31 = true → s.on (.pwr c)
    .PWR_FEED_SEL_FEED_A_EN = false → s.on (.pwr c) .PWR_FEED_SEL_FEED_B_EN = false → s.pathOpen st = true → Gives
    (.channelEnable st c v) s fun t => t.rd (.pwr c) .PWR_CH_CFG_EN = s.rd (.pwr c) .PWR_CH_CFG_EN ∧ (t.rd (.pwr c)
    .ERR_STICKY_BITS).testBit Err.PWR_CFG_REFUSED.bit = true ∧ t.chan c = s.chan c) ∧
  (∀ (c : ChanId) (st : Stamp) (v : Word), s.locked (.pwr c) = false → v.getLsbD 31 = false → v.getLsbD 29 = false →
    Fld.PWR_CH_CFG_PORT.of v.toNat = s.rd (.pwr c) .PWR_CH_CFG_PORT → Fld.PWR_CH_CFG_BIND_EN.of v.toNat = s.rd (.pwr
    c) .PWR_CH_CFG_BIND_EN → s.on (.pwr c) .PWR_CH_CFG_EN = true → s.chan c = pcON → s.pathOpen st = true → Gives
    (.channelDisable st c v) s fun t => t.on (.pwr c) .PWR_CH_CFG_EN = false ∧ t.chan c = pcWARN ∧ t.iv .pwCause c =
    cutOFF ∧ t.rd (.pwr c) .PWR_CH_STAT_WARN = 1) ∧
  (∀ (c : ChanId) (st : Stamp) (v : Word), s.locked (.pwr c) = false → v.getLsbD 31 = false → v.getLsbD 29 = false →
    s.on (.pwr c) .PWR_CH_CFG_EN = true → s.chan c = pcLATCHED → s.pathOpen st = true → Gives (.channelDisable st c v)
    s fun t => t.on (.pwr c) .PWR_CH_CFG_EN = false ∧ t.chan c = pcOFF) ∧
  (∀ (c : ChanId) (st : Stamp) (v : Word), s.locked (.pwr c) = false → v.getLsbD 31 = true → v.getLsbD 29 = true →
    s.on (.pwr c) .PWR_CH_CFG_EN = true → s.on (.pwr c) .PWR_FEED_SEL_FEED_A_EN = true → s.chan c = pcLATCHED →
    s.pathOpen st = true → Gives (.channelClear st c v) s fun t => (t.chan c = (if anchor c then pcWAIT_FEED else
    pcWAIT_SEAT)) ∧ t.rd (.pwr c) .PWR_CH_STAT_RETRIES_LEFT = s.rd (.pwr c) .PWR_FAULT_TIMER_RETRY_COUNT % 16) ∧
  (∀ (c : ChanId) (st : Stamp) (v : Word), s.locked (.pwr c) = false → v.getLsbD 31 = true → v.getLsbD 30 = true →
    bits v.toNat 26 25 = 2 → s.chan c = pcON → s.activeB c = false → s.rd (.pwr c) .PWR_CH_STAT_B_OK = 1 → s.iv
    .pwSwitch c = 0 → Fld.PWR_FEED_SEL_WARN_ON_SWITCH.of v.toNat = 0 → s.pathOpen st = true → Gives
    (.softwareSwitchover st c v) s fun t => t.iv .pwSwitch c = 2 ∧ t.iv .pwDead c = 1 ∧ t.chan c = pcON) ∧
  (∀ (c : ChanId) (st : Stamp) (v : Word), s.locked (.pwr c) = false → s.on (.pwr c) .PWR_CH_CFG_EN = true → v.getLsbD
    31 = false → v.getLsbD 30 = false → s.pathOpen st = true → Gives (.softwareSwitchover st c v) s fun t => t.iv
    .pwSwitch c = s.iv .pwSwitch c ∧ (t.rd (.pwr c) .ERR_STICKY_BITS).testBit Err.PWR_CFG_REFUSED.bit = true ∧ t.rd
    (.pwr c) .PWR_FEED_SEL_FEED_A_EN = s.rd (.pwr c) .PWR_FEED_SEL_FEED_A_EN) ∧
  (∀ (c : ChanId), s.on .pwrg .PWR_CHECK_CFG_EN = true → s.inCycle = true → s.cycleNum % 2 ^ s.rd .pwrg
    .PWR_CHECK_CFG_EVERY_LOG2 = 0 → Gives (.feedCheck) s fun t => t.rd (.pwr c) .PWR_SNAP_VOUT = s.rd (.pwr c)
    .PWR_TELEM_VOUT ∧ t.rd (.pwr c) .PWR_SNAP_IPEAK = s.rd (.pwr c) .PWR_TELEM_IPEAK ∧ t.rd (.pwr c) .PWR_SNAP_CYCLE =
    s.cycleNum % 2 ^ 32) ∧
  (∀ (c : ChanId), s.on .pwrg .PWR_CHECK_CFG_EN = true → s.inCycle = true → s.cycleNum % 2 ^ s.rd .pwrg
    .PWR_CHECK_CFG_EVERY_LOG2 = 0 → s.chan c = pcON → s.on (.pwr c) .PWR_FEED_SEL_FEED_B_EN = true → s.feedOk c
    (!s.activeB c) = false → Gives (.feedCheck) s fun t => (t.rd (.pwr c) .ERR_STICKY_BITS).testBit
    Err.PWR_STANDBY_LOST.bit = true)

/-- R692 to R698: restarts, the watchdog, MCTP control. -/
def Obligations.FirmwareAndMctpComplete : Prop :=
  ∀ s : State, s.Awake →
  (∀ (k : Fin 2), s.fwRuns = true → (s.fifo .fwTimes).length < max 1 (s.rd (.mgmt 0) .MGMT_FW_STAT_RESTART_LIMIT) →
    Gives (.lockstepMismatch k) s fun t => t.rd (.mgmt 0) .MGMT_FW_STAT_STATE = fsRESTARTING ∧ t.iv .fwEpoch = (s.iv
    .fwEpoch + 1) % 65536 ∧ t.cnt (.mgmt 0) 0 = min (s.cnt (.mgmt 0) 0 + 1) cntMax ∧ t.rd (.mgmt 0)
    .MGMT_FW_STAT_RESTARTS = min 255 (s.rd (.mgmt 0) .MGMT_FW_STAT_RESTARTS + 1) ∧ (t.rd (.mgmt 0)
    .ERR_STICKY_BITS).testBit Err.MGMT_LOCKSTEP.bit = true ∧ t.cnt (.mgmt 0) 1 = min (s.cnt (.mgmt 0) 1 + 1) cntMax) ∧
  (∀ (k : Fin 2), s.fwRuns = false → Gives (.lockstepMismatch k) s fun t => (t.rd (.mgmt 0) .ERR_STICKY_BITS).testBit
    Err.MGMT_LOCKSTEP.bit = true ∧ t.cnt (.mgmt 0) 1 = min (s.cnt (.mgmt 0) 1 + 1) cntMax ∧ t.rd (.mgmt 0)
    .MGMT_FW_STAT_STATE = s.rd (.mgmt 0) .MGMT_FW_STAT_STATE) ∧
  (s.fwRuns = true → (s.fifo .fwTimes).length < max 1 (s.rd (.mgmt 0) .MGMT_FW_STAT_RESTART_LIMIT) → Gives
    (.watchdogExpiry) s fun t => t.rd (.mgmt 0) .MGMT_FW_STAT_STATE = fsRESTARTING ∧ t.iv .fwEpoch = (s.iv .fwEpoch +
    1) % 65536 ∧ t.cnt (.mgmt 0) 0 = min (s.cnt (.mgmt 0) 0 + 1) cntMax ∧ t.rd (.mgmt 0) .MGMT_FW_STAT_RESTARTS = min
    255 (s.rd (.mgmt 0) .MGMT_FW_STAT_RESTARTS + 1) ∧ (t.rd (.mgmt 0) .ERR_STICKY_BITS).testBit Err.MGMT_WD_EXPIRE.bit
    = true ∧ t.cnt (.mgmt 0) 2 = min (s.cnt (.mgmt 0) 2 + 1) cntMax) ∧
  (s.fwRuns = true → (∀ x ∈ s.fifo .fwTimes, s.now < x + minute) → max 1 (s.rd (.mgmt 0) .MGMT_FW_STAT_RESTART_LIMIT)
    ≤ (s.fifo .fwTimes).length → Gives (.watchdogExpiry) s fun t => t.rd (.mgmt 0) .MGMT_FW_STAT_STATE = fsDEAD ∧
    (t.rd (.mgmt 0) .ERR_STICKY_BITS).testBit Err.MGMT_FW_DEAD.bit = true ∧ t.fwRuns = false) ∧
  (∀ (st : Stamp) (v : Word), s.locked (.mgmt 0) = false → bits v.toNat 31 16 = 0x57A7 → v.getLsbD 15 = true →
    s.pathOpen st = true → Gives (.watchdogKick st v) s fun t => t.iv .wdAt = s.now ∧ t.rd (.mgmt 0)
    .MGMT_WD_TIMEOUT_MS = v.toNat % 1024) ∧
  (∀ (k : Fin 4) (e : BitVec 8), s.on (.mgmt 2) .MGMT_SMB_CFG_EN k = true → s.fwRuns = true → e ≠ 0 → e ≠ 0xFF → Gives
    (.setEndpointId k e) s fun t => t.iv .mctpEid = e.toNat ∧ t.out.head? = some (Out.mctpControl k 1 [e.toNat]) ∧
    t.cnt (.mgmt 0) 5 = min (s.cnt (.mgmt 0) 5 + 1) cntMax) ∧
  (∀ (k : Fin 4), s.on (.mgmt 2) .MGMT_SMB_CFG_EN k = true → s.fwRuns = true → Gives (.setEndpointId k 0xFF) s fun t
    => t.iv .mctpEid = s.iv .mctpEid ∧ t.out.head? = some (Out.mctpControl k 1 [s.iv .mctpEid])) ∧
  (∀ (k : Fin 4), s.on (.mgmt 2) .MGMT_SMB_CFG_EN k = true → s.fwRuns = true → Gives (.getEndpointId k) s fun t =>
    t.out.head? = some (Out.mctpControl k 2 [s.iv .mctpEid]) ∧ t.cnt (.mgmt 0) 5 = min (s.cnt (.mgmt 0) 5 + 1) cntMax)
    ∧
  (∀ (k : Fin 4) (y : BitVec 8), s.on (.mgmt 2) .MGMT_SMB_CFG_EN k = true → s.fwRuns = true → Gives
    (.getMctpVersionSupport k y) s fun t => t.out.head? = some (Out.mctpControl k 4 [y.toNat, (Config.freeWord
    s.free).toNat]) ∧ t.free = s.free + 1) ∧
  (∀ (k : Fin 4), s.on (.mgmt 2) .MGMT_SMB_CFG_EN k = true → s.fwRuns = true → Gives (.getMessageTypeSupport k) s fun
    t => t.out.head? = some (Out.mctpControl k 5 [0x00, 0x05, 0x06, 0x7F]) ∧ t.cnt (.mgmt 0) 5 = min (s.cnt (.mgmt 0)
    5 + 1) cntMax) ∧
  (∀ (k : Fin 4), s.on (.mgmt 2) .MGMT_SMB_CFG_EN k = true → s.fwRuns = true → Gives (.mctpUnsupported k) s fun t =>
    t.cnt (.mgmt 0) 5 = min (s.cnt (.mgmt 0) 5 + 1) cntMax ∧ t.cnt (.mgmt 0) 6 = min (s.cnt (.mgmt 0) 6 + 1) cntMax)

/-- R699, R700, R714: Stoux register access, remote access, TELEMETRY. -/
def Obligations.SidebandAccessesComplete : Prop :=
  ∀ s : State, s.Awake →
  (∀ (k : Fin 4) (pg : Pg), s.on (.mgmt 2) .MGMT_SMB_CFG_EN k = true → s.fwRuns = true → pg.ok = true → pg.common =
    true → s.placeOf .sb (.space (BitVec.ofNat 26 (pg.base + 0x24))) 0 = ⟨.reg pg 0x24 false, pg⟩ → Gives (.regRead k
    (BitVec.ofNat 26 (pg.base + 0x24))) s fun t => t.out.head? = some (Out.mctp k mcREG_READ msOK [s.rd pg
    .ERR_MASK_MASK])) ∧
  (∀ (k : Fin 4) (pg : Pg) (v : Word), s.on (.mgmt 2) .MGMT_SMB_CFG_EN k = true → s.fwRuns = true → pg.ok = true →
    pg.common = true → s.placeOf .sb (.space (BitVec.ofNat 26 (pg.base + 0x24))) 0 = ⟨.reg pg 0x24 false, pg⟩ →
    s.locked pg = false → s.safeHalt = false → Gives (.regWrite k (BitVec.ofNat 26 (pg.base + 0x24)) v) s fun t =>
    t.rd pg .ERR_MASK_MASK = v.toNat ∧ t.out.head? = some (Out.mctp k mcREG_WRITE msOK [])) ∧
  (∀ (k : Fin 4) (pg : Pg) (v : Word), s.on (.mgmt 2) .MGMT_SMB_CFG_EN k = true → s.fwRuns = true → pg.ok = true →
    pg.common = true → s.safeHalt = true → Gives (.regWrite k (BitVec.ofNat 26 (pg.base + 0x24)) v) s fun t => t.rd pg
    .ERR_MASK_MASK = s.rd pg .ERR_MASK_MASK ∧ t.out.head? = some (Out.mctp k mcREG_WRITE msDENIED [])) ∧
  (∀ (k : Fin 4) (w : SwId) (a : SpaceAddr), s.on (.mgmt 2) .MGMT_SMB_CFG_EN k = true → s.fwRuns = true → s.safeHalt =
    false → s.switchFeid? w = none → s.partnerPort w = none → Gives (.remoteRead k w a) s fun t => t.out.head? = some
    (Out.mctp k mcREMOTE_READ msNO_ROUTE []) ∧ t.fifo .remotes = s.fifo .remotes) ∧
  (∀ (k : Fin 4) (w : SwId) (a : SpaceAddr) (p : Nat), s.on (.mgmt 2) .MGMT_SMB_CFG_EN k = true → s.fwRuns = true →
    s.safeHalt = false → s.switchFeid? w = none → s.partnerPort w = some p → Gives (.remoteRead k w a) s fun t =>
    t.fifo .remotes = s.fifo .remotes ++ [(s.iv .remoteId % 65536) + 65536 * k] ∧ t.iv .remoteId = (s.iv .remoteId %
    65536) + 1) ∧
  (∀ (k : Fin 4) (w : SwId) (a : SpaceAddr) (v : Word) (p : Nat), s.on (.mgmt 2) .MGMT_SMB_CFG_EN k = true → s.fwRuns
    = true → s.safeHalt = false → s.switchFeid? w = none → s.partnerPort w = some p → Gives (.remoteWrite k w a v) s
    fun t => t.fifo .remotes = s.fifo .remotes ++ [(s.iv .remoteId % 65536) + 65536 * k + 2 ^ 20] ∧ t.iv .remoteId =
    (s.iv .remoteId % 65536) + 1) ∧
  (∀ (x : Option PortId) (w p : Nat) (pg : Pg) (v : Word) (i : BitVec 16), pg.ok = true → pg.common = true → s.placeOf
    .sb (.space (BitVec.ofNat 26 (pg.base + 0x24))) 0 = ⟨.reg pg 0x24 false, pg⟩ → s.fwRuns = true → s.remoteAllowed w
    true = true → s.locked pg = false → s.safeHalt = false → Gives (.remoteAccessReceived x w p true (BitVec.ofNat 26
    (pg.base + 0x24)) v i) s fun t => t.rd pg .ERR_MASK_MASK = v.toNat) ∧
  (∀ (x : Option PortId) (w p : Nat) (pg : Pg) (v : Word) (i : BitVec 16), pg.ok = true → pg.common = true → s.fwRuns
    = true → s.remoteAllowed w true = false → Gives (.remoteAccessReceived x w p true (BitVec.ofNat 26 (pg.base +
    0x24)) v i) s fun t => t.rd pg .ERR_MASK_MASK = s.rd pg .ERR_MASK_MASK ∧ (t.rd (.mgmt 0) .ERR_STICKY_BITS).testBit
    Err.MGMT_REMOTE_REFUSED.bit = true) ∧
  (∀ (x : Fin 6) (v : Word) (i : BitVec 16) (k : Fin 4), s.fifo .remotes = [i.toNat + 65536 * k] → Gives
    (.remoteResponseReceived x v i) s fun t => t.fifo .remotes = [] ∧ (t.out = Out.mctp k mcREMOTE_READ x (if x.val =
    msOK then [v.toNat] else []) :: s.out)) ∧
  (∀ (i : BitVec 16) (k : Fin 4), s.fifo .remotes = [i.toNat + 65536 * k + 2 ^ 20] → Gives (.remoteTimeout i) s fun t
    => t.fifo .remotes = [] ∧ t.out = Out.mctp k mcREMOTE_WRITE msTIMEOUT [] :: s.out) ∧
  (∀ (k : Fin 4), s.on (.mgmt 2) .MGMT_SMB_CFG_EN k = true → s.fwRuns = true → s.safeHalt = false → Gives (.telemetry
    k) s fun t => t.out.head? = some (Out.mctp k mcTELEMETRY msOK s.report) ∧ t.cnt (.mgmt 0) 5 = min (s.cnt (.mgmt 0)
    5 + 1) cntMax)

/-- R151, R703, R704: installation. -/
def Obligations.InstallationCompletes : Prop :=
  ∀ s : State, s.Awake →
  (∀ (k : Fin 4) (x : Bool), s.on (.mgmt 2) .MGMT_SMB_CFG_EN k = true → s.fwRuns = true → s.safeHalt = false →
    s.device ≠ dvROM_RECOVERY → s.iv .imgSt = 0 → Gives (.mctpImgStart k x) s fun t => t.iv .imgSt = 1 ∧ t.iv
    .slotState (s.inactiveSlot (b2n x)) = slINVALID ∧ t.rd (.mgmt 0) .MGMT_IMG_CTRL_BUSY = 1 ∧ t.rd (.mgmt 0)
    .MGMT_IMG_CTRL_INSTALLER = 0x22 ∧ t.rd (.mgmt 0) .MGMT_IMG_CTRL_KIND = b2n x ∧ t.out.head? = some (Out.mctp k
    mcIMG_START msOK [])) ∧
  (∀ (k : Fin 4) (x : Bool), s.on (.mgmt 2) .MGMT_SMB_CFG_EN k = true → s.fwRuns = true → s.safeHalt = false →
    s.device ≠ dvROM_RECOVERY → s.ivOn .imgSt = true → Gives (.mctpImgStart k x) s fun t => t.iv .imgSt = s.iv .imgSt
    ∧ t.rd (.mgmt 0) .MGMT_IMG_CTRL_STATUS = imBUSY ∧ t.out.head? = some (Out.mctp k mcIMG_START msBUSY [])) ∧
  (∀ (k : Fin 4) (o : BitVec 32) (n : Nat), s.on (.mgmt 2) .MGMT_SMB_CFG_EN k = true → s.fwRuns = true → s.safeHalt =
    false → 1 ≤ n → n ≤ 1024 → s.chunkStatus 0x22 o.toNat n = 0 → Gives (.mctpImgChunk k o n) s fun t => t.iv .imgSt =
    3 ∧ t.iv .imgLen = n ∧ t.rd (.mgmt 0) .MGMT_IMG_CTRL_BUSY = 1 ∧ t.out.head? = some (Out.mctp k mcIMG_CHUNK msOK
    [])) ∧
  (∀ (k : Fin 4) (o : BitVec 32) (n : Nat), s.on (.mgmt 2) .MGMT_SMB_CFG_EN k = true → s.fwRuns = true → s.safeHalt =
    false → 1 ≤ n → n ≤ 1024 → s.chunkStatus 0x22 o.toNat n = imORDER → Gives (.mctpImgChunk k o n) s fun t => t.iv
    .imgSt = s.iv .imgSt ∧ t.iv .imgBytes = s.iv .imgBytes ∧ t.rd (.mgmt 0) .MGMT_IMG_CTRL_STATUS = imORDER ∧
    t.out.head? = some (Out.mctp k mcIMG_CHUNK msDISCARDED [])) ∧
  (∀ (k : Fin 4), s.on (.mgmt 2) .MGMT_SMB_CFG_EN k = true → s.fwRuns = true → s.safeHalt = false → s.mayInstall 0x22
    = true → s.iv .imgSt = 2 → Gives (.mctpImgFinish k) s fun t => t.iv .imgSt = 4 ∧ t.rd (.mgmt 0)
    .MGMT_IMG_CTRL_BUSY = 1 ∧ t.out.head? = some (Out.mctp k mcIMG_FINISH msOK [])) ∧
  (∀ (st : Stamp) (v : Word), v.getLsbD 31 = true → v.getLsbD 30 = false → v.getLsbD 29 = false → s.iv .imgSt = 0 →
    s.device ≠ dvROM_RECOVERY → s.pathOpen st = true → Gives (.imgCtrlStart st v) s fun t => t.iv .imgSt = 1 ∧ t.iv
    .imgBytes = 0 ∧ t.iv .slotState (s.inactiveSlot (bits v.toNat 8 8)) = slINVALID ∧ t.rd (.mgmt 0)
    .MGMT_IMG_CTRL_BUSY = 1 ∧ t.rd (.mgmt 0) .MGMT_IMG_CTRL_INSTALLER = st.code ∧ t.rd (.mgmt 0) .MGMT_IMG_CTRL_KIND =
    bits v.toNat 8 8 ∧ t.rd (.mgmt 0) .MGMT_IMG_CTRL_STATUS = 0) ∧
  (∀ (st : Stamp) (v : Word), v.getLsbD 31 = true → s.chunkStatus st.code (s.rd (.mgmt 0) .MGMT_IMG_CHUNK_OFFSET)
    (bits v.toNat 30 16 + 1) = 0 → s.pathOpen st = true → Gives (.imgCtrlChunk st v) s fun t => t.iv .imgSt = 3 ∧ t.iv
    .imgLen = bits v.toNat 30 16 + 1 ∧ t.rd (.mgmt 0) .MGMT_IMG_CTRL_BUSY = 1 ∧ t.rd (.mgmt 0) .MGMT_IMG_CTRL_STATUS =
    0) ∧
  (∀ (st : Stamp) (v : Word), v.getLsbD 31 = true → s.chunkStatus st.code (s.rd (.mgmt 0) .MGMT_IMG_CHUNK_OFFSET)
    (bits v.toNat 30 16 + 1) = imSIZE → s.pathOpen st = true → Gives (.imgCtrlChunk st v) s fun t => t.iv .imgSt = 0 ∧
    t.rd (.mgmt 0) .MGMT_IMG_CTRL_BUSY = 0 ∧ t.rd (.mgmt 0) .MGMT_IMG_CTRL_STATUS = imSIZE ∧ (t.rd (.mgmt 0)
    .ERR_STICKY_BITS).testBit Err.MGMT_IMG_FAIL.bit = true) ∧
  (∀ (st : Stamp) (v : Word), v.getLsbD 31 = false → v.getLsbD 30 = true → v.getLsbD 29 = false → s.mayInstall st.code
    = true → s.iv .imgSt = 2 → s.pathOpen st = true → Gives (.imgCtrlFinish st v) s fun t => t.iv .imgSt = 4 ∧ t.rd
    (.mgmt 0) .MGMT_IMG_CTRL_BUSY = 1 ∧ t.rd (.mgmt 0) .MGMT_IMG_CTRL_STATUS = 0) ∧
  (∀ (st : Stamp) (v : Word), v.getLsbD 31 = false → v.getLsbD 30 = false → v.getLsbD 29 = true → s.ivOn .imgSt = true
    → s.pathOpen st = true → Gives (.imgCtrlAbort st v) s fun t => t.iv .imgSt = 0 ∧ t.iv .imgBytes = 0 ∧ t.rd (.mgmt
    0) .MGMT_IMG_CTRL_BUSY = 0 ∧ t.rd (.mgmt 0) .MGMT_IMG_CTRL_STATUS = imABORTED) ∧
  (s.iv .imgSt = 1 → s.installs = true → Gives (.imgEraseDone) s fun t => t.iv .imgSt = 2 ∧ t.rd (.mgmt 0)
    .MGMT_IMG_CTRL_BUSY = 0 ∧ t.rd (.mgmt 0) .MGMT_IMG_CTRL_STATUS = imOK) ∧
  (s.iv .imgSt = 3 → s.installs = true → Gives (.imgChunkDone) s fun t => t.iv .imgSt = 2 ∧ t.iv .imgBytes = s.iv
    .imgBytes + s.iv .imgLen ∧ t.iv .imgLen = 0 ∧ t.rd (.mgmt 0) .MGMT_IMG_CTRL_BUSY = 0 ∧ t.rd (.mgmt 0)
    .MGMT_IMG_CTRL_STATUS = imOK)

/-- R706 to R713: the gatherer, supply monitors. -/
def Obligations.GathererAndMonitorsComplete : Prop :=
  ∀ s : State, s.Awake →
  (s.on (.mgmt 1) .MGMT_GATHER_CTRL_EN = true → s.cycleNum % 2 ^ s.rd (.mgmt 1) .MGMT_GATHER_CTRL_EVERY_LOG2 = 0 →
    s.inCycle = true → s.on (.mgmt 1) .MGMT_GATHER_STAT_BUSY = false → s.fwRuns = true → s.granted? (s.rd (.mgmt 1)
    .MGMT_GATHER_CTRL_GFACE) = true → Gives (.gatherSnapshot) s fun t => t.rd (.mgmt 1) .MGMT_GATHER_STAT_BUSY = 1 ∧
    t.fifo .gatherSnap = (List.range s.gatherCount).map s.gatherEntry ∧ t.iv .gatherAt = s.now ∧ t.iv .gatherCycle =
    s.cycleNum ∧ t.iv .gatherNum = s.iv .gatherSeq ∧ t.iv .gatherSeq = s.iv .gatherSeq + 1 ∧ t.iv .gatherSkipped =
    s.iv .gatherSkips ∧ t.iv .gatherSkips = 0 ∧ t.iv .gatherSlot = s.gatherAddr ∧ t.iv .gatherFace = s.rd (.mgmt 1)
    .MGMT_GATHER_CTRL_GFACE) ∧
  (s.on (.mgmt 1) .MGMT_GATHER_CTRL_EN = true → s.cycleNum % 2 ^ s.rd (.mgmt 1) .MGMT_GATHER_CTRL_EVERY_LOG2 = 0 →
    s.inCycle = true → s.on (.mgmt 1) .MGMT_GATHER_STAT_BUSY = false → s.fwRuns = true → s.granted? (s.rd (.mgmt 1)
    .MGMT_GATHER_CTRL_GFACE) = false → Gives (.gatherSnapshot) s fun t => t.rd (.mgmt 1) .MGMT_GATHER_STAT_BUSY = 0 ∧
    t.iv .gatherSkips = s.iv .gatherSkips + 1 ∧ (t.rd (.mgmt 0) .ERR_STICKY_BITS).testBit Err.MGMT_GATHER_NOGRANT.bit
    = true ∧ t.cnt (.mgmt 0) 4 = min (s.cnt (.mgmt 0) 4 + 1) cntMax) ∧
  (∀ (k : Nat), s.on (.mgmt 1) .MGMT_GATHER_STAT_BUSY = true → s.fwRuns = true → s.granted? (s.iv .gatherFace) = true
    → s.seMayWrite (s.iv .gatherFace) = true → Gives (.gatherSnapshotDone k) s fun t => t.rd (.mgmt 1)
    .MGMT_GATHER_STAT_BUSY = 0 ∧ t.rd (.mgmt 1) .MGMT_GATHER_STAT_SEQ = s.iv .gatherNum % 65536 ∧ t.fifo .gatherSnap =
    [] ∧ t.rd (.mgmt 1) .MGMT_GATHER_STAT_LAST_SKEW = min 32767 (k / 8) ∧ t.cnt (.mgmt 0) 3 = min (s.cnt (.mgmt 0) 3 +
    1) cntMax) ∧
  (∀ (k : Nat), s.on (.mgmt 1) .MGMT_GATHER_STAT_BUSY = true → s.fwRuns = true → s.granted? (s.iv .gatherFace) = true
    → s.seMayWrite (s.iv .gatherFace) = false → Gives (.gatherSnapshotDone k) s fun t => t.on (.mgmt 1)
    .MGMT_GATHER_STAT_BUSY = true ∧ t.fifo .gatherSnap = s.fifo .gatherSnap ∧ t.rd (.mgmt 1) .MGMT_GATHER_STAT_SEQ =
    s.rd (.mgmt 1) .MGMT_GATHER_STAT_SEQ) ∧
  (∀ (k : Nat), s.on (.mgmt 1) .MGMT_GATHER_STAT_BUSY = true → s.fwRuns = true → s.granted? (s.iv .gatherFace) = false
    → Gives (.gatherSnapshotDone k) s fun t => t.rd (.mgmt 1) .MGMT_GATHER_STAT_BUSY = 0 ∧ t.rd (.mgmt 1)
    .MGMT_GATHER_STAT_SEQ = s.rd (.mgmt 1) .MGMT_GATHER_STAT_SEQ ∧ t.iv .gatherSkips = s.iv .gatherSkips + s.iv
    .gatherSkipped ∧ (t.rd (.mgmt 0) .ERR_STICKY_BITS).testBit Err.MGMT_GATHER_NOGRANT.bit = true) ∧
  (∀ (st : Stamp) (v : Word), s.locked (.mgmt 1) = false → s.pathOpen st = true → Gives (.gatherConfigWrite st 0x104
    v) s fun t => t.rd (.mgmt 1) .MGMT_GATHER_PHASE_PHASE = v.toNat % 2 ^ 20) ∧
  (∀ (st : Stamp) (v : Word) (i : Fin 4096), s.locked (.mgmt 1) = false → s.on (.mgmt 1) .MGMT_GATHER_CTRL_EN = false
    → s.pathOpen st = true → Gives (.gatherConfigWrite st (BitVec.ofNat 16 (0x1000 + 4 * i)) v) s fun t => t.rd (.mgmt
    1) .MGMT_GATHER_LIST_PAGE i = bits v.toNat 31 22 ∧ t.rd (.mgmt 1) .MGMT_GATHER_LIST_INDEX i = v.toNat % 65536 ∧
    (t.iv .gatherGen = s.iv .gatherGen + if t.dwordAt (.mgmt 1) (0x1000 + 4 * i) = s.dwordAt (.mgmt 1) (0x1000 + 4 *
    i) then 0 else 1)) ∧
  (∀ (st : Stamp) (v : Word) (i : Fin 4096), s.locked (.mgmt 1) = false → s.on (.mgmt 1) .MGMT_GATHER_CTRL_EN = true →
    s.pathOpen st = true → Gives (.gatherConfigWrite st (BitVec.ofNat 16 (0x1000 + 4 * i)) v) s fun t => t.rd (.mgmt
    1) .MGMT_GATHER_LIST_PAGE i = s.rd (.mgmt 1) .MGMT_GATHER_LIST_PAGE i ∧ t.iv .gatherGen = s.iv .gatherGen ∧ (t.rd
    (.mgmt 0) .ERR_STICKY_BITS).testBit Err.MGMT_CFG_REFUSED.bit = true) ∧
  (∀ (st : Stamp) (v : Word), s.locked (.mgmt 1) = false → v.getLsbD 31 = true → s.on (.mgmt 1) .MGMT_GATHER_CTRL_EN =
    false → 64 + 8 * max 1 (min 4096 (v.toNat % 8192)) ≤ 2 ^ slotLog2 (s.rd (.mgmt 1) .MGMT_GATHER_RING_SLOT_LOG2) →
    s.pathOpen st = true → Gives (.gatherConfigWrite st 0x100 v) s fun t => t.on (.mgmt 1) .MGMT_GATHER_CTRL_EN = true
    ∧ t.rd (.mgmt 1) .MGMT_GATHER_CTRL_COUNT = v.toNat % 8192 ∧ t.iv .gatherSeq = 0 ∧ t.iv .gatherSkips = 0) ∧
  (∀ (a b c d e : BitVec 16), (a.toNat < 728 ∨ 772 < a.toNat) → Gives (.vmonSample [a, b, c, d, e]) s fun t => t.rd
    (.mgmt 0) .MGMT_VMON_MV 0 = a.toNat ∧ t.rd (.mgmt 0) .MGMT_VMON_OOR 0 = 1 ∧ (t.rd (.mgmt 0)
    .ERR_STICKY_BITS).testBit Err.MGMT_VMON_OOR.bit = true) ∧
  (∀ (a b c d e : BitVec 16), 728 ≤ a.toNat → a.toNat ≤ 772 → Gives (.vmonSample [a, b, c, d, e]) s fun t => t.rd
    (.mgmt 0) .MGMT_VMON_MV 0 = a.toNat ∧ t.rd (.mgmt 0) .MGMT_VMON_OOR 0 = 0 ∧ t.rd (.mgmt 0) .MGMT_VMON_MV 4 =
    e.toNat ∧ t.rd (.mgmt 0) .MGMT_VMON_OOR 4 = b2n (e.toNat < 1710 || 1890 < e.toNat))

/-- What each of these commands may touch (accesses, header writes, supply, boot, clock and thermal events): all else is
as it was. The lists follow the rules of the cited chapters and Table HDR; where a command can raise an error, count
or interrupt, the fields of that are among them. -/
def Obligations.AccessResetFrames : Prop :=
  ∀ s : State, s.wf →
  (Stays .vkeepRise s ((Foot.fields .pwr [.PWR_CH_STAT_STATE]).and <| Foot.numbers [.noVkeep])) ∧
  (Stays .switchDieRailsGood s (Foot.numbers [.coldQual])) ∧
  (Stays .coldResetEnd s ((Foot.fields .glb [.GLB_RESET_CAUSE_LAST, .GLB_RESET_CAUSE_WARM_PIN,
    .GLB_RESET_CAUSE_WARM_REG]).and <| (Foot.fields .sec [.SEC_NONCE_DW]).and <| (Foot.fields .face
    [.FACE_PM_STAT_FWAKE]).and <| (Foot.numbers [.coldQual, .dieReset]).and <| Foot.others [.free])) ∧
  (Stays .crystalLoss s (Foot.safeHalt.and <| Foot.numbers [.coldQual, .xtalLost])) ∧
  (Stays .devRstNRelease s (Foot.safeHalt.and <| Foot.numbers [.devRst, .dieReset, .xtalLost])) ∧
  (Stays .warmResetEnd s (Foot.safeHalt.and <| Foot.numbers [.dieReset, .warmReg, .xtalLost])) ∧
  (∀ (ok : Bool), Stays (.romChecksDone ok) s (Foot.safeHalt.and <| Foot.headers [.BLK_STAT_READY])) ∧
  (∀ (sfdp : BitVec 2) (crc : BitVec 4) (hA hB : ImgHeader), Stays (.firmwareSlotSelect sfdp crc hA hB) s
    (Foot.linkState.and <| Foot.warnedCut.and <| (Foot.counting .inst).and <| (Foot.counting .mbox).and <| (Foot.error
    .face).and <| (Foot.error .lane).and <| (Foot.error .port).and <| (Foot.fields .glb [.GLB_DEV_STATE_BOOT_ERR,
    .GLB_DEV_STATE_STATE]).and <| (Foot.fields .sec [.SEC_GRANT_MASK, .SEC_IDE_STAT_FAIL]).and <| (Foot.fields .lane
    [.LANE_OCT_STAT_A_LOCK, .LANE_OCT_STAT_B_LOCK, .LANE_RATE_CFG_MODE, .LANE_RATE_CFG_PCIE_MAX, .LANE_RX_STAT_CTLE,
    .LANE_RX_STAT_EYE_H, .LANE_RX_STAT_EYE_V, .LANE_RX_STAT_SNR, .LANE_STAT_LOGICAL, .LANE_STAT_SIG_DET]).and <|
    (Foot.fields .pwr [.PWR_CH_CFG_EN]).and <| (Foot.fields .route [.ROUTE_GEN_GENERATION, .ROUTE_LIVE_SEL_LIVE,
    .ROUTE_LIVE_SEL_P0_STATE, .ROUTE_LIVE_SEL_P0_VERIFIED, .ROUTE_LIVE_SEL_P1_STATE, .ROUTE_LIVE_SEL_P1_VERIFIED]).and
    <| (Foot.fields .bridge [.BRIDGE_FAB_NBR_MISWIRED, .BRIDGE_LOCK_STAT_HOLDER, .BRIDGE_LOCK_STAT_LOCKED]).and <|
    (Foot.fields .port [.BLK_CTRL_SOFT_RESET, .CNT_CLR_CLR, .CNT_HI_HIGH, .CNT_LO_LOW, .PORT_CFG_APPLY,
    .PORT_CFG_CYC_RX, .PORT_CFG_CYC_TX, .PORT_CFG_ENC_REQ, .PORT_CFG_FLIT_BELOW, .PORT_CFG_MIN_WIDTH,
    .PORT_CFG_REFUSED, .PORT_CFG_ROLE, .PORT_CFG_SEP_REF, .PORT_CFG_WIDTH, .PORT_CONTAIN_CONTAIN,
    .PORT_CONTAIN_RELEASE, .PORT_LINK_CTRL_LINK_RETIRE, .PORT_LINK_CTRL_RETRAIN, .PORT_LINK_STAT_ABSENT]).and <|
    (Foot.fields .face [.FACE_BIND_ENABLE, .FACE_BIND_MGMT_GRANT, .FACE_BIND_PORT]).and <| (Foot.fields .sched
    [.BLK_CTRL_ENABLE, .BLK_CTRL_QUIESCE, .BLK_CTRL_SOFT_RESET, .BLK_STAT_QUIESCED, .BLK_STAT_READY, .CNT_CLR_CLR,
    .CNT_HI_HIGH, .CNT_LO_LOW, .CNT_SAT_EN_SAT_EN, .CNT_SEL_AUTO_INC, .CNT_SEL_INDEX, .ERR_MASK_MASK,
    .INT_CAUSE_BLK_INT, .INT_CAUSE_CNT_SAT, .INT_CAUSE_ERR, .INT_EN_BLK_INT, .INT_EN_CNT_SAT, .INT_EN_ERR,
    .INT_ROUTE_FACE, .INT_ROUTE_TARGET, .INT_ROUTE_VECTOR, .SCHED_CBS_CREDIT_CREDIT, .SCHED_CBS_SLOPE_EN,
    .SCHED_CBS_SLOPE_HI_CREDIT, .SCHED_CBS_SLOPE_IDLE_SLOPE, .SCHED_DRR_QUANTUM_PRIO, .SCHED_DRR_QUANTUM_QUANTUM,
    .SCHED_HATCH_A_DW1, .SCHED_HATCH_A_GATES, .SCHED_HATCH_A_PHASE, .SCHED_HATCH_A_RSV0, .SCHED_HATCH_B_DW1,
    .SCHED_HATCH_B_GATES, .SCHED_HATCH_B_PHASE, .SCHED_HATCH_B_RSV0, .SCHED_HATCH_CTRL_ARM,
    .SCHED_HATCH_CTRL_ARM_LIST, .SCHED_HATCH_CTRL_DISARM, .SCHED_HATCH_CTRL_FB_GATES, .SCHED_HATCH_CTRL_FB_MODE,
    .SCHED_HATCH_CTRL_LATE_POLICY, .SCHED_HATCH_CTRL_NEXT, .SCHED_HATCH_CTRL_STATUS, .SCHED_HATCH_CYCLE_CYCLE,
    .SCHED_HATCH_CYCLE_CYCLE_HI, .SCHED_HATCH_GEN_GENERATION, .SCHED_HATCH_LEN_COUNT_A, .SCHED_HATCH_LEN_COUNT_B,
    .SCHED_HATCH_SIG_DW, .SCHED_HATCH_START_CYCLE, .SCHED_HATCH_START_CYCLE_HI, .SCHED_HATCH_STAT_ACTIVE,
    .SCHED_HATCH_STAT_ANY_ACTIVE, .SCHED_HATCH_STAT_A_STATE, .SCHED_HATCH_STAT_A_VERIFIED, .SCHED_HATCH_STAT_B_STATE,
    .SCHED_HATCH_STAT_B_VERIFIED, .SCHED_HATCH_STAT_ENTRY_NOW, .SCHED_HATCH_STAT_GATES_NOW,
    .SCHED_HATCH_STAT_IN_FALLBACK, .SCHED_HATCH_STAT_LATE, .SCHED_HATCH_VERIFY_BUSY, .SCHED_HATCH_VERIFY_GO,
    .SCHED_HATCH_VERIFY_INDEX, .SCHED_HATCH_VERIFY_LIST, .SCHED_HATCH_VERIFY_STATUS, .SCHED_PORT_CFG_FLOW_QUANTUM,
    .SCHED_PORT_CFG_WAKE_LEAD, .SCRATCH_SCRATCH]).and <| (Foot.fields .inst [.INST_BIND_GO, .INST_STAT_BOUND,
    .INST_STAT_FENCED, .INST_STAT_TDI]).and <| (Foot.fields .ring [.MOVER_RING_BASE_ADDR, .MOVER_RING_BASE_ADDR_HI,
    .MOVER_RING_CFG_ENABLE, .MOVER_RING_CFG_ENGINE, .MOVER_RING_CFG_KIND, .MOVER_RING_CFG_OWNER,
    .MOVER_RING_CFG_OWN_KIND, .MOVER_RING_CFG_SIZE_LOG2, .MOVER_RING_CFG_STOP_ON_ERR, .MOVER_RING_CPL_BASE_ADDR,
    .MOVER_RING_CPL_BASE_ADDR_HI, .MOVER_RING_CPL_CTRL_COAL_US, .MOVER_RING_CPL_CTRL_IRQ_EN,
    .MOVER_RING_CPL_CTRL_MODE, .MOVER_RING_CPL_CTRL_VECTOR, .MOVER_RING_CPL_FIFO_DW, .MOVER_RING_CPL_HEAD_CPL_HEAD,
    .MOVER_RING_CPL_TAIL_CPL_TAIL, .MOVER_RING_CPL_TAIL_PHASE, .MOVER_RING_HEAD_HEAD, .MOVER_RING_STAT_LAST_INDEX,
    .MOVER_RING_STAT_LAST_STATUS, .MOVER_RING_STAT_RESUME, .MOVER_RING_STAT_STATE, .MOVER_RING_TAIL_TAIL]).and <|
    (Foot.numbers [.appliedSlot, .coalDue, .coalOn, .curSet, .dirFlash, .dirSeq, .dirSlot, .fetchAt, .fetchN,
    .fetchTag, .fwSel, .hatchAt, .hatchLate, .laneNum, .liveSig, .meDef, .msixAddr, .msixData, .msixOpen, .plate,
    .plateLost, .rehome, .slotState, .slotTries, .unbindBy, .viSlot, .wcCount]).and <| (Foot.queues [.cplFifo,
    .notices, .ringWrote]).and <| Foot.others [.coders, .descs, .slots])) ∧
  (Stays .firmwareStart s ((Foot.counting .mbox).and <| (Foot.fields .glb [.GLB_DEV_STATE_FW_SLOT,
    .GLB_DEV_STATE_STATE]).and <| (Foot.fields .mgmt [.MGMT_FW_STAT_STATE]).and <| (Foot.fields .mbox
    [.MBOX_SEM_PEEK_HELD, .MBOX_SEM_PEEK_OWNER]).and <| Foot.numbers [.fwEpoch, .fwSel, .fwUnconf, .slotRan, .wdAt]))
    ∧
  (∀ (st : Stamp) (v : Word), Stays (.fwConfirm st v) s ((Foot.access .mgmt).and <| (Foot.numbers [.dirSeq, .dirSlot,
    .fwUnconf, .slotRan, .slotState]).and <| Foot.others [.arb])) ∧
  (Stays .confirmTimeout s (Foot.firmware.and <| Foot.fields .glb [.GLB_DEV_STATE_BOOT_ERR])) ∧
  (∀ (st : Stamp) (v : Word), Stays (.quietEntry st v) s (Foot.domains.and <| Foot.warnedCut.and <| (Foot.access
    .glb).and <| (Foot.fields .glb [.GLB_DEV_STATE_STATE, .GLB_QUIET_CTRL_ENTER, .GLB_QUIET_CTRL_KEY,
    .GLB_QUIET_CTRL_WAKE_FPERST, .GLB_QUIET_CTRL_WAKE_PRSNT, .GLB_QUIET_CTRL_WAKE_TIMER_EN]).and <| (Foot.fields .port
    [.BLK_CTRL_QUIESCE]).and <| (Foot.fields .face [.FACE_PRES_SHOWN]).and <| Foot.numbers [.presBar, .presBarSet,
    .presBase, .presCmd, .presInfo, .presRom, .quietRun, .sizing, .slotCtl, .slotStat, .wakeCtl, .wakeFaces])) ∧
  (Stays .quietChannelsOff s Foot.feedCut) ∧
  (Stays .fwakeReleaseTimeout s ((Foot.fields .face [.FACE_PM_STAT_FWAKE]).and <| Foot.numbers [.wakeFaces])) ∧
  (∀ (t : List (BitVec 16)), Stays (.thermalSample t) s (Foot.safeHalt.and <| (Foot.error .mgmt).and <| (Foot.fields
    .mgmt [.MGMT_TEMP_T, .MGMT_TEMP_VALID, .MGMT_THERM_STAT_HOTTEST, .MGMT_THERM_STAT_HOT_SENSOR,
    .MGMT_THERM_STAT_STEP, .MGMT_THERM_STAT_VALID_COUNT]).and <| Foot.numbers [.shutdown, .thermHold])) ∧
  (∀ (k : Option (Fin 6)), Stays (.refclkLoss k) s (Foot.linkState.and <| (Foot.fields .lane [.LANE_OCT_STAT_REF_A_OK,
    .LANE_OCT_STAT_REF_B_OK]).and <| Foot.numbers [.refLost])) ∧
  (∀ (k : Option (Fin 6)), Stays (.refclkRestore k) s (Foot.recovery.and <| (Foot.fields .lane
    [.LANE_OCT_STAT_REF_A_OK, .LANE_OCT_STAT_REF_B_OK]).and <| Foot.numbers [.refLost])) ∧
  (∀ (st : Stamp) (pg : Pg) (en : Bool) (v : Word), Stays (.intCauseWrite st pg en v) s ((Foot.access (Fam.of pg)).and
    <| Foot.interrupt.and <| Foot.fields (Fam.of pg) [.INT_CAUSE_ERR, .INT_CAUSE_CNT_SAT, .INT_CAUSE_BLK_INT,
    .INT_EN_ERR, .INT_EN_CNT_SAT, .INT_EN_BLK_INT])) ∧
  (∀ (st : Stamp) (pg : Pg) (v : Word), Stays (.counterClear st pg v) s ((Foot.access (Fam.of pg)).and <| (Foot.fields
    (Fam.of pg) [.CNT_STAT_SAT]).and <| Foot.counters [Fam.of pg])) ∧
  (∀ (st : Stamp) (t : Target), Stays (.unmappedRead st t) s (Foot.error (Fam.of (s.placeOf st t 0).err))) ∧
  (∀ (st : Stamp) (t : Target) (n : Nat), Stays (.badLengthRead st t n) s (Foot.error (Fam.of (s.placeOf st t
    0).err))) ∧
  (∀ (st : Stamp) (pg : Pg) (full : Bool), Stays (.counterLowRead st pg full) s ((Foot.fields (Fam.of pg)
    [.CNT_HI_HIGH]).and <| (Foot.numbers [.arbLast]).and <| Foot.others [.out])) ∧
  (∀ (st : Stamp) (c : DirectCnt) (full : Bool), Stays (.directCounterRead st c full) s ((Foot.fields (Fam.of
    (directAt c).1) [.LANE_PRBS_ERR_HIGH, .LANE_PRBS_BITS_HIGH, .CNT_HI_HIGH, .SCHED_CYC_NUM_CYCLE_HI,
    .SCHED_FAB_TIME_TIME_HI, .SCHED_HATCH_START_CYCLE_HI]).and <| (Foot.numbers [.arbLast]).and <| Foot.others
    [.out])) ∧
  (∀ (st : Stamp) (c : ChanId) (full : Bool), Stays (.readClear st c full) s ((Foot.fields .pwr
    [.PWR_TELEM_IPEAK]).and <| (Foot.numbers [.arbLast]).and <| Foot.others [.out])) ∧
  (∀ (st : Stamp) (w : FifoWin) (full : Bool), Stays (.fifoPop st w full) s ((Foot.numbers [.arbLast]).and <|
    (Foot.queues [.held, .elog, .missLog, .cplFifo]).and <| Foot.others [.out]))

/-- What each of these commands may touch (lane events and writes, and link training events): all else is as it was. The
lists follow the rules of the cited chapters and Table HDR; where a command can raise an error, count or interrupt,
the fields of that are among them. -/
def Obligations.LaneTrainingFrames : Prop :=
  ∀ s : State, s.wf →
  (∀ (l : LaneId) (symErrs : Nat), Stays (.codewordReceived l symErrs) s ((Foot.counting .lane).and <| Foot.numbers
    [.badCw])) ∧
  (∀ (l : LaneId), Stays (.fillerReceived l) s (Foot.counting .lane)) ∧
  (∀ (l : LaneId), Stays (.fecDegrade l) s (Foot.error .lane)) ∧
  (∀ (l : LaneId) (req : EqReq), Stays (.coeffApply l req) s ((Foot.fields .lane [.LANE_TX_TAPS_C0,
    .LANE_TX_TAPS_POST, .LANE_TX_TAPS_PRE]).and <| (Foot.numbers [.postStat, .preStat, .presetStat]).and <|
    Foot.others [.out])) ∧
  (∀ (l : LaneId), Stays (.eqRespTimeout l) s ((Foot.counting .lane).and <| (Foot.fields .lane
    [.LANE_STAT_EQ_FAIL]).and <| Foot.numbers [.eqTimeouts])) ∧
  (∀ (st : Stamp) (l : LaneId) (v : Word), Stays (.txTapsWrite st l v) s ((Foot.access .lane).and <| Foot.fields .lane
    [.LANE_TX_TAPS_C0, .LANE_TX_TAPS_POST, .LANE_TX_TAPS_PRE])) ∧
  (∀ (st : Stamp) (l : LaneId) (v : Word), Stays (.eqModeWrite st l v) s ((Foot.access .lane).and <| (Foot.fields
    .lane [.LANE_EQ_CTRL_INIT_PRESET, .LANE_EQ_CTRL_MODE, .LANE_EQ_CTRL_RESP_TIMEOUT, .LANE_EQ_CTRL_RETRIES,
    .LANE_EQ_CTRL_RX_ADAPT]).and <| Foot.numbers [.postStat, .preStat, .presetStat])) ∧
  (∀ (l : LaneId) (word : BitVec 64) (n errs : Nat), Stays (.prbsCheckerLock l word n errs) s ((Foot.counting
    .lane).and <| Foot.fields .lane [.LANE_PRBS_CTRL_CHK_LOCK])) ∧
  (∀ (st : Stamp) (l : LaneId) (v : Word), Stays (.injectOneShot st l v) s ((Foot.access .lane).and <| (Foot.counting
    .lane).and <| (Foot.fields .lane [.LANE_INJ_CTRL_COUNT, .LANE_INJ_CTRL_ONE_SHOT, .LANE_INJ_CTRL_PERIOD,
    .LANE_INJ_CTRL_TARGET]).and <| Foot.numbers [.injAlign])) ∧
  (∀ (l : LaneId), Stays (.injectPeriodic l) s ((Foot.counting .lane).and <| Foot.numbers [.injAlign])) ∧
  (∀ (l : LaneId) (eyeV eyeH snr : BitVec 8) (ctle : Fin 32), Stays (.rxAdaptationDone l eyeV eyeH snr ctle) s
    (Foot.fields .lane [.LANE_RX_STAT_CTLE, .LANE_RX_STAT_EYE_H, .LANE_RX_STAT_EYE_V, .LANE_RX_STAT_SNR,
    .LANE_STAT_RX_READY])) ∧
  (∀ (st : Stamp) (l : LaneId) (v : Word), Stays (.lanePrbsCtrlWrite st l v) s ((Foot.access .lane).and <|
    (Foot.fields .lane [.LANE_OCT_STAT_A_LOCK, .LANE_OCT_STAT_B_LOCK, .LANE_PRBS_CTRL_CHK_EN,
    .LANE_PRBS_CTRL_CHK_LOCK, .LANE_PRBS_CTRL_CHK_MODE, .LANE_PRBS_CTRL_GEN_EN, .LANE_PRBS_CTRL_LOOPBACK,
    .LANE_PRBS_CTRL_PATTERN, .LANE_PRBS_CTRL_TEST_RATE, .LANE_RATE_CFG_RATE_NOW, .LANE_STAT_STATE]).and <|
    Foot.counters [.lane])) ∧
  (∀ (st : Stamp) (l : LaneId) (v : Word), Stays (.laneSlip st l v) s ((Foot.access .lane).and <| (Foot.fields .lane
    [.LANE_SLIP_DONE]).and <| Foot.numbers [.slipPos])) ∧
  (∀ (oct : OctId) (isB : Bool), Stays (.pllLock oct isB) s (Foot.training.and <| Foot.fields .lane
    [.LANE_OCT_STAT_A_LOCK, .LANE_OCT_STAT_B_LOCK])) ∧
  (∀ (oct : OctId) (isB : Bool), Stays (.pllUnlock oct isB) s (Foot.linkState.and <| (Foot.error .lane).and <|
    Foot.fields .lane [.LANE_OCT_STAT_A_LOCK, .LANE_OCT_STAT_B_LOCK])) ∧
  (∀ (l : LaneId), Stays (.signalDetect l) s ((Foot.counting .port).and <| (Foot.fields .lane
    [.LANE_STAT_SIG_DET]).and <| Foot.fields .port [.PORT_LINK_STAT_ABSENT, .PORT_LINK_STAT_STATE])) ∧
  (∀ (p : PortId), Stays (.linkDownDwellExpiry p) s (Foot.training.and <| (Foot.counting .port).and <| (Foot.fields
    .port [.PORT_LINK_STAT_STATE]).and <| Foot.numbers [.longDwell])) ∧
  (∀ (p : PortId), Stays (.trainStateTimeout p) s Foot.replay) ∧
  (∀ (p : PortId), Stays (.detectAbsentTimeout p) s (Foot.fields .port [.PORT_LINK_STAT_ABSENT])) ∧
  (∀ (l : LaneId) (hdr : BitVec 2) (blk : BitVec 64) (slots : Nat), Stays (.alignReceived l hdr blk slots) s
    (Foot.linkState.and <| (Foot.counting .lane).and <| (Foot.error .lane).and <| (Foot.error .port).and <|
    (Foot.fields .lane [.LANE_STAT_LOGICAL]).and <| (Foot.numbers [.wcCount]).and <| Foot.others [.coders])) ∧
  (∀ (l : LaneId), Stays (.alignTransmit l) s ((Foot.fields .lane [.LANE_INJ_CTRL_ONE_SHOT]).and <| (Foot.numbers
    [.alignTx, .injAlign]).and <| Foot.others [.coders, .out])) ∧
  (∀ (l : LaneId) (hdr : BitVec 2) (blk : BitVec 64) (want : BitVec 7), Stays (.trainBlockReceived l hdr blk want) s
    ((Foot.counting .lane).and <| (Foot.counting .port).and <| (Foot.error .port).and <| (Foot.fields .lane
    [.LANE_RATE_CFG_RX_INV_NOW, .LANE_STAT_EQ_DONE, .LANE_STAT_LOGICAL, .LANE_STAT_STATE]).and <| (Foot.fields .port
    [.PORT_LINK_STAT_LANES_GOOD, .PORT_LINK_STAT_RATE_NOW, .PORT_LINK_STAT_STATE, .PORT_LINK_STAT_WIDTH_NOW]).and <|
    (Foot.numbers [.mkRx, .mkTx, .ownReq, .paramGot, .partnerReady, .peerReq]).and <| Foot.others [.coders])) ∧
  (∀ (p : PortId) (blk : BitVec 64), Stays (.paramBlockReceived p blk) s (Foot.replay.and <| (Foot.error .bridge).and
    <| (Foot.fields .bridge [.BRIDGE_FAB_NBR_MISWIRED]).and <| (Foot.numbers [.longDwell]).and <| Foot.others
    [.coders, .free])) ∧
  (∀ (p : PortId), Stays (.paramRepeat p) s (Foot.others [.coders, .out])) ∧
  (∀ (p : PortId), Stays (.authHello p) s ((Foot.counting .sec).and <| (Foot.fields .sec [.SEC_LINK_STAT_REKEY,
    .SEC_LINK_STAT_REKEYS]).and <| (Foot.numbers [.authStep, .keyCount, .nextKey, .rekeying, .rxKey, .rxNum,
    .txKey]).and <| Foot.others [.free])) ∧
  (∀ (p : PortId) (chainOk debug : Bool), Stays (.authCert p chainOk debug) s (Foot.linkState.and <| (Foot.counting
    .port).and <| (Foot.counting .sec).and <| (Foot.error .sec).and <| Foot.numbers [.longDwell])) ∧
  (∀ (p : PortId) (sigOk : Bool) (owner : BitVec 384) (domain : BitVec 128) (sw port : Nat), Stays (.authProof p sigOk
    owner domain sw port) s (Foot.linkState.and <| (Foot.counting .port).and <| (Foot.counting .sec).and <|
    (Foot.error .sec).and <| Foot.numbers [.longDwell])) ∧
  (∀ (p : PortId) (macOk : Bool), Stays (.authDone p macOk) s (Foot.linkState.and <| (Foot.counting .port).and <|
    (Foot.counting .sec).and <| (Foot.error .sec).and <| Foot.numbers [.keyCount, .longDwell])) ∧
  (∀ (p : PortId) (width : Fin 5) (rate : Fin 6) (flit rev : Bool) (inv : BitVec 16) (aspm : BitVec 2), Stays
    (.pcieLinkUp p width rate flit rev inv aspm) s (Foot.replay.and <| (Foot.error .lane).and <| (Foot.fields .lane
    [.LANE_RATE_CFG_RX_INV_NOW, .LANE_STAT_LOGICAL, .LANE_STAT_SIG_DET]).and <| Foot.numbers [.curSet])) ∧
  (∀ (p : PortId) (num : Fin 256), Stays (.pcieReplayNumRollover p num) s ((Foot.counting .port).and <| Foot.fields
    .port [.PORT_LINK_STAT_STATE, .PORT_REPLAY_CNT_CONSEC]))

/-- What each of these commands may touch (credit, replay, width and rest events): all else is as it was. The lists
follow the rules of the cited chapters and Table HDR; where a command can raise an error, count or interrupt, the
fields of that are among them. -/
def Obligations.LinkFrames : Prop :=
  ∀ s : State, s.wf →
  (∀ (st : Stamp) (p : PortId) (v : Word), Stays (.portCfgApply st p v) s (Foot.linkState.and <| (Foot.access
    .lane).and <| (Foot.error .port).and <| (Foot.fields .sec [.SEC_IDE_STAT_FAIL]).and <| (Foot.fields .lane
    [.LANE_OCT_STAT_A_LOCK, .LANE_OCT_STAT_B_LOCK, .LANE_RATE_CFG_MODE, .LANE_RX_STAT_CTLE, .LANE_RX_STAT_EYE_H,
    .LANE_RX_STAT_EYE_V, .LANE_RX_STAT_SNR, .LANE_STAT_LOGICAL, .LANE_STAT_SIG_DET]).and <| (Foot.fields .bridge
    [.BRIDGE_FAB_NBR_MISWIRED, .BRIDGE_LOCK_STAT_HOLDER, .BRIDGE_LOCK_STAT_LOCKED]).and <| (Foot.fields .port
    [.BLK_CTRL_SOFT_RESET, .CNT_CLR_CLR, .CNT_HI_HIGH, .CNT_LO_LOW, .PORT_CFG_APPLY, .PORT_CFG_CYC_RX,
    .PORT_CFG_CYC_TX, .PORT_CFG_ENC_REQ, .PORT_CFG_FLIT_BELOW, .PORT_CFG_MIN_WIDTH, .PORT_CFG_REFUSED, .PORT_CFG_ROLE,
    .PORT_CFG_SEP_REF, .PORT_CFG_WIDTH, .PORT_CONTAIN_CONTAIN, .PORT_CONTAIN_RELEASE, .PORT_LINK_CTRL_LINK_RETIRE,
    .PORT_LINK_CTRL_RETRAIN, .PORT_LINK_STAT_ABSENT]).and <| (Foot.numbers [.curSet, .laneNum, .wcCount]).and <|
    Foot.others [.coders])) ∧
  (∀ (l : LaneId), Stays (.alignLoss l) s (Foot.linkState.and <| (Foot.counting .lane).and <| (Foot.error .lane).and
    <| (Foot.error .port).and <| (Foot.numbers [.wcCount]).and <| Foot.others [.coders])) ∧
  (∀ (p : PortId) (blk : BitVec 64), Stays (.creditBlockReceived p blk) s Foot.replay) ∧
  (∀ (p : PortId), Stays (.creditRefresh p) s (Foot.others [.coders, .out])) ∧
  (∀ (p : PortId) (cls : ClassId) (pool : PoolId), Stays (.creditStallTimeout p cls pool) s (Foot.error .port)) ∧
  (∀ (p : PortId), Stays (.numRekeyThreshold p) s ((Foot.numbers [.txNum]).and <| Foot.others [.out])) ∧
  (∀ (p : PortId), Stays (.numExhausted p) s (Foot.numbers [.txNum])) ∧
  (∀ (l : LaneId) (signalLost : Bool), Stays (.cdrLossTimeout l signalLost) s (Foot.linkState.and <| (Foot.counting
    .lane).and <| (Foot.error .lane).and <| (Foot.error .port).and <| (Foot.fields .lane [.LANE_STAT_SIG_DET]).and <|
    (Foot.numbers [.wcCount]).and <| Foot.others [.coders])) ∧
  (∀ (l : LaneId), Stays (.uncorrectableLimit l) s (Foot.linkState.and <| (Foot.error .lane).and <| (Foot.error
    .port).and <| (Foot.numbers [.wcCount]).and <| Foot.others [.coders])) ∧
  (∀ (p : PortId) (blk : BitVec 64), Stays (.lanemapReceived p blk) s (Foot.replay.and <| (Foot.fields .lane
    [.LANE_OCT_STAT_A_LOCK, .LANE_OCT_STAT_B_LOCK, .LANE_RATE_CFG_MODE, .LANE_RX_STAT_CTLE, .LANE_RX_STAT_EYE_H,
    .LANE_RX_STAT_EYE_V, .LANE_RX_STAT_SNR, .LANE_STAT_LOGICAL, .LANE_STAT_SIG_DET]).and <| (Foot.numbers [.alignTx,
    .curSet]).and <| Foot.others [.coders])) ∧
  (∀ (p : PortId), Stays (.wideningLanesReady p) s ((Foot.fields .port [.PORT_LINK_STAT_STATE]).and <| (Foot.numbers
    [.wcCount, .wcFrom, .wcId, .wcSet]).and <| Foot.others [.coders, .out])) ∧
  (∀ (p : PortId), Stays (.widthChangeTimeout p) s (Foot.linkState.and <| Foot.error .port)) ∧
  (∀ (p : PortId), Stays (.linkLoss p) s (Foot.replay.and <| (Foot.counting .lane).and <| Foot.fields .lane
    [.LANE_STAT_SIG_DET])) ∧
  (∀ (l : LaneId), Stays (.restReceived l) s ((Foot.counting .lane).and <| (Foot.fields .lane
    [.LANE_REST_CTRL_IN_REST, .LANE_STAT_ALIGN_LOCK, .LANE_STAT_FEC_LOCK, .LANE_STAT_STATE]).and <| Foot.numbers
    [.alignMiss, .rxRest])) ∧
  (∀ (p : PortId), Stays (.restExit p) s ((Foot.counting .lane).and <| (Foot.fields .lane [.LANE_INJ_CTRL_ONE_SHOT,
    .LANE_REST_CTRL_IN_REST, .LANE_STAT_STATE]).and <| (Foot.fields .port [.PORT_LINK_STAT_STATE]).and <|
    (Foot.numbers [.alignTx, .injAlign, .restHeld, .restPend, .restSince]).and <| Foot.others [.coders])) ∧
  (∀ (p : PortId) (cls : ClassId) (pool : PoolId), Stays (.creditUpdateSend p cls pool) s ((Foot.counting .lane).and
    <| (Foot.fields .lane [.LANE_INJ_CTRL_ONE_SHOT, .LANE_REST_CTRL_IN_REST, .LANE_STAT_STATE]).and <| (Foot.fields
    .core [.CORE_WM_STAT_WM_CROSS_CNT, .CORE_WM_STAT_WM_EVENT, .CORE_WM_STAT_WM_LEVEL]).and <| (Foot.fields .port
    [.PORT_LINK_STAT_STATE]).and <| (Foot.numbers [.alignTx, .crAdv, .injAlign, .restHeld, .restPend, .restSince]).and
    <| Foot.others [.coders])) ∧
  (∀ (l : LaneId), Stays (.restExitFail l) s Foot.linkState) ∧
  (∀ (st : Stamp) (p : PortId) (v : Word), Stays (.portRetrain st p v) s (Foot.linkState.and <| (Foot.access
    .port).and <| (Foot.counting .lane).and <| (Foot.fields .port [.PORT_LINK_CTRL_ACK_COALESCE,
    .PORT_LINK_CTRL_CLKREQ_GPIO, .PORT_LINK_CTRL_CREDIT_STALL, .PORT_LINK_CTRL_DISABLE, .PORT_LINK_CTRL_LINK_RETIRE,
    .PORT_LINK_CTRL_REST_EN, .PORT_LINK_CTRL_REST_IDLE, .PORT_LINK_CTRL_RETRAIN]).and <| (Foot.numbers [.alignTx,
    .curSet]).and <| Foot.others [.coders])) ∧
  (∀ (st : Stamp) (p : PortId), Stays (.portContain st p) s (Foot.access .port)) ∧
  (∀ (p : PortId) (fc : BitVec 3), Stays (.egressFrameBoundary p fc) s (Foot.completion.and <| (Foot.counting
    .port).and <| (Foot.counting .sched).and <| (Foot.error .sched).and <| (Foot.fields .port
    [.PORT_LINK_STAT_KEY_PHASE, .PORT_LINK_STAT_STATE]).and <| (Foot.fields .face [.FACE_PM_STAT_LINK_PM]).and <|
    (Foot.numbers [.drrCur, .drrDef, .drrQuant, .flowCur, .flowDef, .flowQuant, .guardMiss, .guardOpen, .holdCount,
    .keyOld, .mkDue, .mkTx, .nextKey, .pcieFc, .replayAt, .txCount, .txNum, .txSeq, .txUsed]).and <| Foot.others
    [.coders, .fwd, .replay])) ∧
  (∀ (p : PortId), Stays (.hatchEntry p) s ((Foot.counting .sched).and <| (Foot.fields .sched
    [.SCHED_HATCH_STAT_ENTRY_NOW]).and <| (Foot.numbers [.cbsAt, .cbsCr, .guardMiss, .guardOpen, .holdCount]).and <|
    Foot.others [.now])) ∧
  (∀ (p : PortId), Stays (.restIdleExpiry p) s ((Foot.counting .lane).and <| (Foot.counting .port).and <| (Foot.fields
    .lane [.LANE_REST_CTRL_IN_REST, .LANE_STAT_STATE]).and <| (Foot.fields .port [.PORT_LINK_STAT_STATE]).and <|
    (Foot.numbers [.restSince]).and <| Foot.others [.coders])) ∧
  (∀ (p : PortId), Stays (.gateWakeLead p) s ((Foot.counting .lane).and <| (Foot.fields .lane
    [.LANE_INJ_CTRL_ONE_SHOT, .LANE_REST_CTRL_IN_REST, .LANE_STAT_STATE]).and <| (Foot.fields .port
    [.PORT_LINK_STAT_STATE]).and <| (Foot.numbers [.alignTx, .injAlign, .restHeld, .restPend, .restSince]).and <|
    Foot.others [.coders])) ∧
  (∀ (p : PortId) (lf : LinkFrame), Stays (.daendFrameReceived p lf) s (Foot.adoption.and <| Foot.replay.and <|
    Foot.tracking.and <| (Foot.counting .lane).and <| (Foot.error .sched).and <| (Foot.fields .schedg
    [.SCHED_CYC_STAT_STRATUM, .SCHED_SRC_MEAS_DELAY, .SCHED_SRC_MEAS_OFFSET, .SCHED_STEP_BACK_NS]).and <|
    (Foot.numbers [.alignTx, .cycEdge, .mkAgree, .mkBound, .mkCyc, .mkEchoT1, .mkEchoT2, .mkStratum, .slew]).and <|
    (Foot.queues [.delays]).and <| Foot.others [.coders, .now])) ∧
  (∀ (p : PortId), Stays (.ackCoalesceExpiry p) s ((Foot.counting .lane).and <| (Foot.fields .lane
    [.LANE_INJ_CTRL_ONE_SHOT, .LANE_REST_CTRL_IN_REST, .LANE_STAT_STATE]).and <| (Foot.fields .port
    [.PORT_LINK_STAT_STATE]).and <| (Foot.numbers [.alignTx, .injAlign, .restHeld, .restPend, .restSince,
    .rxUnacked]).and <| Foot.others [.coders])) ∧
  (∀ (p : PortId) (blk : BitVec 64), Stays (.ackReceived p blk) s ((Foot.counting .port).and <| (Foot.error .port).and
    <| (Foot.fields .port [.PORT_REPLAY_CNT_CONSEC]).and <| (Foot.numbers [.keyOld, .pcieAcked, .replayAt]).and <|
    Foot.others [.replay])) ∧
  (∀ (p : PortId) (blk : BitVec 64), Stays (.nakReceived p blk) s (Foot.replay.and <| Foot.numbers [.keyOld])) ∧
  (∀ (p : PortId), Stays (.replayTimeout p) s Foot.replay)

/-- What each of these commands may touch (face writes and host requests): all else is as it was. The lists follow the
rules of the cited chapters and Table HDR; where a command can raise an error, count or interrupt, the fields of
that are among them. -/
def Obligations.HostFrames : Prop :=
  ∀ s : State, s.wf →
  (∀ (st : Stamp) (f : FaceId) (v : Word), Stays (.faceBindWrite st f v) s ((Foot.access .face).and <| Foot.fields
    .face [.FACE_BIND_ENABLE, .FACE_BIND_MGMT_GRANT, .FACE_BIND_PORT, .FACE_BIND_STATE])) ∧
  (∀ (st : Stamp) (f : FaceId) (n : Option (Fin 255)) (v : Word), Stays (.presentationUpdate st f n v) s
    (Foot.presentation.and <| (Foot.access .guard).and <| (Foot.fields .face [.FACE_BUS_LIMIT_LIMIT, .FACE_PRES_BUSES,
    .FACE_PRES_FEID, .FACE_PRES_SHOWN, .FACE_PRES_SUB, .FACE_PRES_VALID, .FACE_PRES_VDP]).and <| Foot.numbers
    [.presBar, .presBarSet, .presBase, .presCmd, .presInfo, .presRom, .slotCtl, .slotStat])) ∧
  (∀ (f : FaceId) (n : Fin 255) (bars : List BarLayout), Stays (.barSizingDone f n bars) s ((Foot.fields .face
    [.FACE_BUS_LIMIT_NEED, .FACE_PRES_SHOWN]).and <| (Foot.numbers [.presInfo, .sizing, .slotCtl, .slotStat]).and <|
    Foot.others [.out])) ∧
  (∀ (f : FaceId) (off : BitVec 16) (v : Word), Stays (.msixTableWrite f off v) s ((Foot.counting .face).and <|
    Foot.numbers [.msixAddr, .msixData, .msixOpen])) ∧
  (∀ (f : FaceId) (vec : VecId), Stays (.interruptSourceFire f vec) s (Foot.counting .face)) ∧
  (∀ (st : Stamp) (f : FaceId) (v : Word), Stays (.windowWrite st f v) s (Foot.window.and <| Foot.access .guard)) ∧
  (∀ (st : Stamp) (f : FaceId) (v : Word), Stays (.windowWriteAny st f v) s (Foot.window.and <| Foot.access .guard)) ∧
  (∀ (st : Stamp) (f : FaceId) (v : Word), Stays (.windowInvalidate st f v) s (Foot.window.and <| Foot.access .guard))

/-- What each of these commands may touch (frames, tag slots, streams and plates): all else is as it was. The lists
follow the rules of the cited chapters and Table HDR; where a command can raise an error, count or interrupt, the
fields of that are among them. -/
def Obligations.CoreFrames : Prop :=
  ∀ s : State, s.wf →
  (∀ (st : Stamp) (k : Fin 2) (i : Fin 524288) (d : Fin 3) (v : Word), Stays (.plateEntryStage st k i d v) s
    ((Foot.access .route).and <| Foot.numbers [.plateAt, .plateDw, .plateHas])) ∧
  (∀ (st : Stamp) (k : Fin 2) (i : Fin 524288) (v : Word), Stays (.plateEntryCommit st k i v) s ((Foot.access
    .route).and <| (Foot.fields .route [.ROUTE_LIVE_SEL_P0_VERIFIED, .ROUTE_LIVE_SEL_P1_VERIFIED]).and <| Foot.numbers
    [.plate, .plateAt, .plateHas])) ∧
  (∀ (st : Stamp) (v : Word), Stays (.plateVerifyStart st v) s ((Foot.access .route).and <| (Foot.fields .route
    [.ROUTE_VERIFY_CTRL_BUSY, .ROUTE_VERIFY_CTRL_STATUS]).and <| Foot.numbers [.sigStale, .verifySig])) ∧
  (Stays .plateVerifyDone s ((Foot.counting .route).and <| (Foot.error .route).and <| Foot.fields .route
    [.ROUTE_GEN_GENERATION, .ROUTE_LIVE_SEL_P0_VERIFIED, .ROUTE_LIVE_SEL_P1_VERIFIED, .ROUTE_VERIFY_CTRL_BUSY,
    .ROUTE_VERIFY_CTRL_INDEX, .ROUTE_VERIFY_CTRL_STATUS])) ∧
  (∀ (st : Stamp) (v : Word), Stays (.plateTurnArm st v) s ((Foot.access .route).and <| (Foot.fields .route
    [.ROUTE_TURN_CTRL_ARM, .ROUTE_TURN_CTRL_STATUS]).and <| Foot.numbers [.turnAt])) ∧
  (∀ (st : Stamp) (v : Word), Stays (.plateTurnArmNext st v) s ((Foot.access .route).and <| (Foot.fields .route
    [.ROUTE_TURN_CTRL_ARM, .ROUTE_TURN_CTRL_STATUS]).and <| Foot.numbers [.turnAt])) ∧
  (∀ (st : Stamp) (v : Word), Stays (.plateTurnDisarm st v) s ((Foot.access .route).and <| (Foot.fields .route
    [.ROUTE_TURN_CTRL_ARM, .ROUTE_TURN_CTRL_STATUS]).and <| Foot.numbers [.turnAt])) ∧
  (∀ (k : Fin 2) (i : Fin 524288) (e : PlateEcc), Stays (.plateEccError k i e) s ((Foot.counting .route).and <|
    (Foot.error .route).and <| (Foot.fields .route [.ROUTE_LIVE_SEL_P0_VERIFIED, .ROUTE_LIVE_SEL_P1_VERIFIED,
    .ROUTE_TURN_CTRL_ARM, .ROUTE_TURN_CTRL_STATUS]).and <| Foot.numbers [.plate, .plateLost, .turnAt])) ∧
  (∀ (k : Fin 2) (i : Fin 524288), Stays (.plateEntryRebuild k i) s ((Foot.counting .route).and <| (Foot.error
    .route).and <| Foot.numbers [.plateLost])) ∧
  (∀ (e : Option PlateEcc), Stays (.burnisherRead e) s ((Foot.counting .route).and <| (Foot.error .route).and <|
    (Foot.fields .route [.ROUTE_LIVE_SEL_P0_VERIFIED, .ROUTE_LIVE_SEL_P1_VERIFIED, .ROUTE_TURN_CTRL_ARM,
    .ROUTE_TURN_CTRL_STATUS]).and <| Foot.numbers [.burnAt, .plate, .plateLost, .turnAt])) ∧
  (∀ (st : Stamp) (d : Fin 4) (v : Word), Stays (.mcGroupStage st d v) s ((Foot.access .core).and <| Foot.numbers
    [.mcAt, .mcDw, .mcHas])) ∧
  (∀ (st : Stamp) (v : Word), Stays (.mcGroupCommit st v) s ((Foot.access .core).and <| (Foot.fields .core
    [.CORE_MC_SEL_GO, .CORE_MC_SEL_GROUP]).and <| Foot.numbers [.mcCtl, .mcHas, .mcMembers])) ∧
  (∀ (id : Nat) (correctable : Bool), Stays (.cellEccError id correctable) s ((Foot.counting .bridge).and <|
    (Foot.counting .core).and <| (Foot.error .bridge).and <| (Foot.error .core).and <| (Foot.fields .core
    [.CORE_WM_STAT_WM_CROSS_CNT, .CORE_WM_STAT_WM_EVENT, .CORE_WM_STAT_WM_LEVEL]).and <| (Foot.fields .bridge
    [.BRIDGE_LOCK_STAT_HOLDER, .BRIDGE_LOCK_STAT_LOCKED, .BRIDGE_PROOF_WM_STAT_WM_CROSS_CNT,
    .BRIDGE_PROOF_WM_STAT_WM_EVENT, .BRIDGE_PROOF_WM_STAT_WM_LEVEL]).and <| (Foot.numbers [.cbsAt, .cbsCr,
    .redAvg]).and <| Foot.others [.buf, .free, .replay, .streams, .waiting])) ∧
  (∀ (f : FaceId) (req link : Bool) (tag : BitVec 14) (ep : Bool) (t : Tlp), Stays (.completionReceived f req link tag
    ep t) s Foot.completion) ∧
  (∀ (f : FaceId) (req : Bool) (tag : BitVec 14), Stays (.cplTimeout f req tag) s ((Foot.error .face).and <|
    (Foot.numbers [.tagEp]).and <| Foot.others [.slots])) ∧
  (∀ (f : FaceId) (tag : BitVec 14), Stays (.tagQuarantineEnd f tag) s ((Foot.numbers [.tagEp]).and <| Foot.others
    [.slots])) ∧
  (∀ (sw : SwId) (c : ClassId), Stays (.releaseTimer sw c) s (Foot.admission.and <| Foot.adoption)) ∧
  (∀ (sw : SwId) (c : ClassId), Stays (.streamRecordForget sw c) s (Foot.others [.streams])) ∧
  (∀ (sw : SwId) (es : List RelEntry), Stays (.proofReleaseReceived sw es) s Foot.completion) ∧
  (∀ (sw : SwId) (c : ClassId), Stays (.proofTimeout sw c) s Foot.completion) ∧
  (∀ (sw : SwId) (c : ClassId), Stays (.resendComplete sw c) s (Foot.others [.streams])) ∧
  (Stays .pathLossReceived s Foot.completion) ∧
  (∀ (p : PortId), Stays (.linkStatusSend p) s Foot.admission) ∧
  (Stays .linkStatusPeriodic s Foot.admission) ∧
  (∀ (p : PortId) (l : LinkStatus), Stays (.linkStatusReceived p l) s ((Foot.counting .lane).and <| (Foot.fields .lane
    [.LANE_INJ_CTRL_ONE_SHOT, .LANE_REST_CTRL_IN_REST, .LANE_STAT_STATE]).and <| (Foot.fields .port
    [.PORT_LINK_STAT_STATE]).and <| (Foot.numbers [.alignTx, .injAlign, .lsArmedCycle, .lsArmedGen, .lsFlags,
    .lsLiveGen, .lsSeen, .restHeld, .restPend, .restSince]).and <| Foot.others [.coders])) ∧
  (∀ (st : Stamp) (p : PortId) (v : Word), Stays (.linkRetire st p v) s (Foot.linkState.and <| (Foot.access .port).and
    <| (Foot.counting .lane).and <| (Foot.fields .port [.PORT_LINK_CTRL_ACK_COALESCE, .PORT_LINK_CTRL_CLKREQ_GPIO,
    .PORT_LINK_CTRL_CREDIT_STALL, .PORT_LINK_CTRL_DISABLE, .PORT_LINK_CTRL_LINK_RETIRE, .PORT_LINK_CTRL_REST_EN,
    .PORT_LINK_CTRL_REST_IDLE, .PORT_LINK_CTRL_RETRAIN]).and <| (Foot.numbers [.alignTx, .curSet]).and <| Foot.others
    [.coders])) ∧
  (∀ (p : PortId), Stays (.retireDrained p) s Foot.linkState) ∧
  (∀ (p : PortId), Stays (.retireTimeout p) s (Foot.completion.and <| Foot.linkState)) ∧
  (∀ (id : Nat) (p : PortId), Stays (.mcHoldExpiry id p) s ((Foot.counting .core).and <| (Foot.error .core).and <|
    (Foot.fields .core [.CORE_WM_STAT_WM_CROSS_CNT, .CORE_WM_STAT_WM_EVENT, .CORE_WM_STAT_WM_LEVEL]).and <|
    (Foot.numbers [.holdCount]).and <| Foot.others [.buf, .now])) ∧
  (∀ (p : PortId), Stays (.fabPortUnusable p) s (Foot.completion.and <| (Foot.error .schedg).and <| (Foot.fields
    .schedg [.SCHED_CYC_STAT_ON_ALT]).and <| (Foot.numbers [.errRun]).and <| Foot.queues [.delays])) ∧
  (∀ (id : Nat), Stays (.policerHoldRelease id) s (Foot.admission.and <| (Foot.counting .eng).and <| Foot.error
    .moverg)) ∧
  (Stays .admissionResume s ((Foot.counting .bridge).and <| (Foot.counting .core).and <| (Foot.counting .eng).and <|
    (Foot.error .bridge).and <| (Foot.error .moverg).and <| (Foot.fields .core [.CORE_WM_STAT_WM_CROSS_CNT,
    .CORE_WM_STAT_WM_EVENT, .CORE_WM_STAT_WM_LEVEL]).and <| (Foot.fields .bridge [.BRIDGE_LOCK_STAT_HOLDER,
    .BRIDGE_LOCK_STAT_LOCKED, .BRIDGE_PROOF_WM_STAT_WM_CROSS_CNT, .BRIDGE_PROOF_WM_STAT_WM_EVENT,
    .BRIDGE_PROOF_WM_STAT_WM_LEVEL]).and <| (Foot.numbers [.cbsAt, .cbsCr, .redAvg]).and <| Foot.others [.buf, .free,
    .streams, .waiting])) ∧
  (∀ (id : Nat) (c : TailChecks), Stays (.tailArrival id c) s (Foot.adoption.and <| Foot.delivery.and <|
    (Foot.counting .eng).and <| (Foot.error .core).and <| (Foot.error .moverg).and <| (Foot.error .port).and <|
    (Foot.fields .sec [.SEC_IDE_STAT_FAIL, .SEC_IDE_STAT_LINK_SECURE, .SEC_IDE_STAT_SEL_SECURE]).and <| Foot.others
    [.replay]))

/-- What each of these commands may touch (cycle, time and scheduling events): all else is as it was. The lists follow
the rules of the cited chapters and Table HDR; where a command can raise an error, count or interrupt, the fields of
that are among them. -/
def Obligations.CycleFrames : Prop :=
  ∀ s : State, s.wf →
  (∀ (st : Stamp) (p : PortId) (v : Word), Stays (.hatchLenWrite st p v) s ((Foot.access .sched).and <| Foot.fields
    .sched [.SCHED_HATCH_LEN_COUNT_A, .SCHED_HATCH_LEN_COUNT_B, .SCHED_HATCH_STAT_A_VERIFIED,
    .SCHED_HATCH_STAT_B_VERIFIED])) ∧
  (∀ (st : Stamp) (p : PortId) (v : Word), Stays (.hatchVerifyStart st p v) s ((Foot.access .sched).and <|
    (Foot.fields .sched [.SCHED_HATCH_VERIFY_BUSY, .SCHED_HATCH_VERIFY_GO, .SCHED_HATCH_VERIFY_INDEX,
    .SCHED_HATCH_VERIFY_LIST, .SCHED_HATCH_VERIFY_STATUS]).and <| Foot.numbers [.hatchSig, .hatchVer, .sigStale])) ∧
  (∀ (p : PortId), Stays (.hatchVerifyDone p) s ((Foot.error .sched).and <| Foot.fields .sched
    [.SCHED_HATCH_GEN_GENERATION, .SCHED_HATCH_STAT_A_VERIFIED, .SCHED_HATCH_STAT_B_VERIFIED,
    .SCHED_HATCH_VERIFY_BUSY, .SCHED_HATCH_VERIFY_INDEX, .SCHED_HATCH_VERIFY_STATUS])) ∧
  (∀ (st : Stamp) (p : PortId) (v : Word), Stays (.hatchArm st p v) s (Foot.hatch.and <| Foot.access .guard)) ∧
  (∀ (st : Stamp) (p : PortId) (v : Word), Stays (.hatchArmNext st p v) s (Foot.hatch.and <| Foot.access .guard)) ∧
  (∀ (st : Stamp) (p : PortId) (v : Word), Stays (.hatchDisarm st p v) s (Foot.hatch.and <| Foot.access .guard)) ∧
  (Stays .cycleMidpoint s ((Foot.numbers [.cycNext, .cycP, .holdCount, .relock, .relockNum]).and <| Foot.others
    [.now])) ∧
  (Stays .edgeWindowClose s (Foot.tracking.and <| (Foot.error .sched).and <| Foot.numbers [.acqAt, .acqNum, .cycEdge,
    .edgeIv, .edgeLast, .edgeRun, .mkRun, .relock, .relockNum])) ∧
  (∀ (err : Fin 5), Stays (.cycRefEdge err) s ((Foot.counting .sched).and <| (Foot.counting .schedg).and <|
    (Foot.error .schedg).and <| (Foot.fields .schedg [.SCHED_CYC_STAT_HOLD_LEFT, .SCHED_CYC_STAT_STATE]).and <|
    (Foot.fields .sched [.SCHED_HATCH_STAT_ENTRY_NOW]).and <| Foot.numbers [.acqAt, .cbsAt, .cbsCr, .cycEdge,
    .cycEdgeNext, .cycFirst, .cycOut, .cycP, .cycRes, .cycResNext, .edgeIv, .edgeLast, .edgeRun, .errRun, .guardMiss,
    .guardOpen])) ∧
  (∀ (p : PortId) (lf : LinkFrame), Stays (.cycleMarkerReceived p lf) s (Foot.adoption.and <| Foot.tracking.and <|
    (Foot.counting .port).and <| (Foot.error .port).and <| (Foot.error .sched).and <| (Foot.fields .schedg
    [.SCHED_CYC_STAT_STRATUM, .SCHED_SRC_MEAS_DELAY, .SCHED_SRC_MEAS_OFFSET, .SCHED_STEP_BACK_NS]).and <|
    (Foot.numbers [.crUsed, .cycEdge, .mkAgree, .mkBound, .mkCyc, .mkEchoT1, .mkEchoT2, .mkRx, .mkStratum, .slew]).and
    <| (Foot.queues [.delays]).and <| Foot.others [.now])) ∧
  (∀ (p : PortId), Stays (.cycleMarkerSend p) s ((Foot.counting .lane).and <| (Foot.fields .lane
    [.LANE_INJ_CTRL_ONE_SHOT, .LANE_REST_CTRL_IN_REST, .LANE_STAT_STATE]).and <| (Foot.fields .port
    [.PORT_LINK_STAT_STATE]).and <| (Foot.numbers [.alignTx, .injAlign, .mkDue, .restHeld, .restPend, .restSince]).and
    <| Foot.others [.coders])) ∧
  (Stays .sourceMarkerTimeout s ((Foot.counting .schedg).and <| (Foot.error .schedg).and <| (Foot.fields .schedg
    [.SCHED_CYC_STAT_ON_ALT]).and <| (Foot.numbers [.errRun]).and <| Foot.queues [.delays])) ∧
  (∀ (st : Stamp) (mk : Bool) (v : Word), Stays (.cycleSourceChange st mk v) s (Foot.tracking.and <| (Foot.access
    .guard).and <| (Foot.fields .schedg [.SCHED_CYC_CFG_ALT_EN, .SCHED_CYC_CFG_ALT_PORT, .SCHED_CYC_CFG_KI,
    .SCHED_CYC_CFG_KP, .SCHED_CYC_CFG_SRC, .SCHED_CYC_CFG_SRC_PORT, .SCHED_CYC_CFG_WINDOW, .SCHED_CYC_STAT_ON_ALT,
    .SCHED_CYC_STAT_STRATUM, .SCHED_MK_CFG_INTERVAL, .SCHED_MK_CFG_MASTER_ID, .SCHED_MK_CFG_STEP_LIMIT]).and <|
    (Foot.numbers [.acqAt, .acqNum, .cycEdgeNext, .cycFirst, .cycNext, .cycResNext, .edgeIv, .edgeLast, .edgeRun,
    .mkAgree, .mkBound, .mkCyc, .mkRun, .relock, .relockNum, .toFree]).and <| Foot.queues [.delays])) ∧
  (Stays .cycOutPulseEnd s ((Foot.numbers [.cycOut]).and <| Foot.others [.out])) ∧
  (∀ (f : FaceId), Stays (.ptmRequestTimer f) s (Foot.others [.out])) ∧
  (∀ (f : FaceId) (host : BitVec 64), Stays (.ptmResponseReceived f host) s (Foot.numbers [.ptmCount, .ptmFab,
    .ptmFab0, .ptmHost, .ptmHost0])) ∧
  (∀ (p : PortId), Stays (.ptmRequestReceived p) s (Foot.others [.out])) ∧
  (∀ (st : Stamp) (v : Word), Stays (.snapshotCapture st v) s ((Foot.access .schedg).and <| Foot.fields .schedg
    [.SCHED_SNAP_CTRL_FACE, .SCHED_SNAP_CTRL_GO, .SCHED_SNAP_CTRL_HOST_VALID, .SCHED_SNAP_CTRL_VALID,
    .SCHED_SNAP_CYC_HI_V, .SCHED_SNAP_CYC_V, .SCHED_SNAP_FAB_HI_V, .SCHED_SNAP_FAB_V, .SCHED_SNAP_HOST_HI_V,
    .SCHED_SNAP_HOST_V, .SCHED_SNAP_PHASE_V])) ∧
  (∀ (st : Stamp) (vi : Bool) (i : Fin 1024) (d : Fin 2) (v : Word), Stays (.bufferLimitWrite st vi i d v) s
    ((Foot.access .core).and <| (Foot.fields .core [.CORE_BUF_LIMIT_RES_NP, .CORE_BUF_LIMIT_RES_CPL,
    .CORE_BUF_LIMIT_RES_P, .CORE_BUF_LIMIT_PROF_R, .CORE_BUF_LIMIT_PROF_Y, .CORE_BUF_LIMIT_PROF_G,
    .CORE_BUF_LIMIT_ALPHA, .CORE_BUF_LIMIT_MAX, .CORE_VI_LIMIT_ALPHA, .CORE_VI_LIMIT_MAX, .CORE_VI_LIMIT_RES,
    .CORE_WM_STAT_WM_LEVEL, .CORE_WM_STAT_WM_EVENT, .CORE_WM_STAT_WM_CROSS_CNT]).and <| Foot.fields .inst
    [.INST_STAT_FENCED, .INST_STAT_TDI])) ∧
  (∀ (st : Stamp) (v : Word), Stays (.policerCommit st v) s ((Foot.access .schedg).and <| (Foot.fields .schedg
    [.SCHED_POL_SEL_GO, .SCHED_POL_SEL_INDEX, .SCHED_POL_SEL_STATUS]).and <| (Foot.fields .inst [.INST_STAT_FENCED,
    .INST_STAT_TDI]).and <| Foot.numbers [.polAt, .polC, .polCbs, .polCir, .polCtl, .polHas, .polP, .polPbs,
    .polPir])) ∧
  (Stays .cycleBoundary s (Foot.admission.and <| Foot.tracking.and <| (Foot.error .sched).and <| (Foot.fields .route
    [.ROUTE_LIVE_SEL_GRACE_LEFT, .ROUTE_LIVE_SEL_LIVE, .ROUTE_LIVE_SEL_P0_STATE, .ROUTE_LIVE_SEL_P0_VERIFIED,
    .ROUTE_LIVE_SEL_P1_STATE, .ROUTE_LIVE_SEL_P1_VERIFIED, .ROUTE_TURN_CTRL_ARM, .ROUTE_TURN_CTRL_STATUS]).and <|
    (Foot.fields .port [.PORT_LINK_STAT_STATE]).and <| (Foot.fields .schedg [.SCHED_CYC_LEN_LEN, .SCHED_CYC_NUM_CYCLE,
    .SCHED_CYC_NUM_CYCLE_HI, .SCHED_CYC_STAT_EVER_LOCKED, .SCHED_CYC_STAT_STRATUM]).and <| (Foot.fields .sched
    [.SCHED_HATCH_CTRL_ARM, .SCHED_HATCH_CTRL_STATUS, .SCHED_HATCH_START_CYCLE, .SCHED_HATCH_START_CYCLE_HI,
    .SCHED_HATCH_STAT_ACTIVE, .SCHED_HATCH_STAT_ANY_ACTIVE, .SCHED_HATCH_STAT_A_STATE, .SCHED_HATCH_STAT_A_VERIFIED,
    .SCHED_HATCH_STAT_B_STATE, .SCHED_HATCH_STAT_B_VERIFIED, .SCHED_HATCH_STAT_LATE]).and <| (Foot.numbers [.acqAt,
    .acqNum, .cycEdge, .cycEdgeNext, .cycFirst, .cycLast, .cycNext, .cycNext2, .cycPrev, .cycRes, .cycResNext,
    .cycStart, .edgeIv, .edgeLast, .edgeRun, .guardBack, .hatchAt, .hatchLate, .holdCount, .liveSig, .mkRun, .relock,
    .relockNum, .skewCnt, .toFree, .turnAt]).and <| Foot.others [.now, .prefs]))

/-- What each of these commands may touch (instances, TDISP and face resets): all else is as it was. The lists follow
the rules of the cited chapters and Table HDR; where a command can raise an error, count or interrupt, the fields of
that are among them. -/
def Obligations.InstanceFrames : Prop :=
  ∀ s : State, s.wf →
  (∀ (v : ViId), Stays (.instanceResetDone v) s (Foot.delivery.and <| (Foot.counting .inst).and <| (Foot.counting
    .mbox).and <| (Foot.fields .tenant [.VIW_EPOCH_QUERY_FEID, .VIW_EPOCH_QUERY_VALID, .VIW_NOTICE_POST_GO,
    .VIW_NOTICE_READ_DW, .VIW_OWN_EPOCH_EPOCH, .VI_CTRL_SELF_RESET, .VI_ID_FACE, .VI_STAT_FENCED,
    .VI_STAT_RESETTING]).and <| (Foot.fields .inst [.INST_BIND_GO, .INST_STAT_BOUND, .INST_STAT_EPOCH,
    .INST_STAT_FENCED, .INST_STAT_RESETTING, .INST_STAT_RESET_DONE, .INST_STAT_TDI]).and <| (Foot.fields .ring
    [.MOVER_RING_BASE_ADDR, .MOVER_RING_BASE_ADDR_HI, .MOVER_RING_CFG_ENABLE, .MOVER_RING_CFG_ENGINE,
    .MOVER_RING_CFG_KIND, .MOVER_RING_CFG_OWNER, .MOVER_RING_CFG_OWN_KIND, .MOVER_RING_CFG_SIZE_LOG2,
    .MOVER_RING_CFG_STOP_ON_ERR, .MOVER_RING_CPL_BASE_ADDR, .MOVER_RING_CPL_BASE_ADDR_HI,
    .MOVER_RING_CPL_CTRL_COAL_US, .MOVER_RING_CPL_CTRL_IRQ_EN, .MOVER_RING_CPL_CTRL_MODE, .MOVER_RING_CPL_CTRL_VECTOR,
    .MOVER_RING_CPL_FIFO_DW, .MOVER_RING_CPL_HEAD_CPL_HEAD, .MOVER_RING_CPL_TAIL_CPL_TAIL, .MOVER_RING_CPL_TAIL_PHASE,
    .MOVER_RING_HEAD_HEAD, .MOVER_RING_STAT_LAST_INDEX, .MOVER_RING_STAT_LAST_STATUS, .MOVER_RING_STAT_RESUME,
    .MOVER_RING_STAT_STATE, .MOVER_RING_TAIL_TAIL]).and <| (Foot.numbers [.coalDue, .coalOn, .fetchAt, .fetchN,
    .fetchTag, .meDef, .rehome, .stopWaits, .unbindBy, .viSlot, .win]).and <| (Foot.queues [.cplFifo, .flushTodo,
    .notices, .ringWrote]).and <| Foot.others [.descs])) ∧
  (∀ (v : ViId), Stays (.flushTimeout v) s ((Foot.counting .inst).and <| (Foot.error .inst).and <| (Foot.fields .inst
    [.INST_STAT_FLUSH_TO]).and <| (Foot.queues [.flushTodo]).and <| Foot.others [.slots])) ∧
  (∀ (st : Stamp) (v : Word), Stays (.instanceReset st v) s (Foot.instanceReset.and <| (Foot.access .inst).and <|
    (Foot.counting .inst).and <| Foot.fields .inst [.INST_RESET_GO, .INST_RESET_REFUSED, .INST_RESET_VI])) ∧
  (∀ (st : Stamp) (v : ViId), Stays (.instanceSelfReset st v) s (Foot.instanceReset.and <| (Foot.access .guard).and <|
    Foot.fields .tenant [.ERR_FIRST_CLASS, .ERR_FIRST_INDEX, .ERR_FIRST_MORE, .ERR_FIRST_TS_TS, .ERR_FIRST_TS_TS_HI,
    .ERR_FIRST_VALID, .ERR_STICKY_BITS, .INT_CAUSE_ERR])) ∧
  (∀ (st : Stamp) (v : Word), Stays (.instanceBind st v) s (Foot.instanceBind.and <| Foot.access .guard)) ∧
  (∀ (st : Stamp) (v : Word), Stays (.instanceBindAny st v) s (Foot.instanceBind.and <| Foot.access .guard)) ∧
  (∀ (st : Stamp) (v : Word), Stays (.instanceUnbind st v) s (Foot.instanceBind.and <| Foot.access .guard)) ∧
  (∀ (st : Stamp) (v : ViId) (w : Word), Stays (.shareWrite st v w) s ((Foot.access .inst).and <| (Foot.fields .inst
    [.INST_SHARE_SHARE, .INST_STAT_FENCED, .INST_STAT_SUSPENDED, .INST_STAT_TDI]).and <| Foot.numbers [.flowDef])) ∧
  (∀ (ch : DoeOrMctp) (v : ViId), Stays (.getTdispVersion ch v) s ((Foot.counting .mgmt).and <| Foot.error .sec)) ∧
  (∀ (ch : DoeOrMctp) (v : ViId), Stays (.getTdispCapabilities ch v) s ((Foot.counting .mgmt).and <| Foot.error .sec))
    ∧
  (∀ (ch : DoeOrMctp) (v : ViId), Stays (.lockInterfaceRequest ch v) s ((Foot.counting .mgmt).and <| (Foot.error
    .sec).and <| (Foot.fields .inst [.INST_STAT_TDI]).and <| Foot.numbers [.lockLimit, .lockPol, .lockShare])) ∧
  (∀ (ch : DoeOrMctp) (v : ViId), Stays (.getDeviceInterfaceState ch v) s ((Foot.counting .mgmt).and <| Foot.error
    .sec)) ∧
  (∀ (ch : DoeOrMctp) (v : ViId), Stays (.getDeviceInterfaceReport ch v) s ((Foot.counting .mgmt).and <| Foot.error
    .sec)) ∧
  (∀ (ch : DoeOrMctp) (v : ViId), Stays (.startInterfaceRequest ch v) s ((Foot.counting .mgmt).and <| (Foot.error
    .sec).and <| Foot.fields .inst [.INST_STAT_TDI])) ∧
  (∀ (ch : DoeOrMctp) (v : ViId), Stays (.stopInterfaceRequest ch v) s (Foot.instanceReset.and <| Foot.counting
    .mgmt)) ∧
  (∀ (ch : DoeOrMctp) (v : ViId), Stays (.tdispUnsupported ch v) s ((Foot.counting .mgmt).and <| Foot.error .sec)) ∧
  (∀ (f : FaceId), Stays (.flrServiceEndpoint f) s (Foot.instanceReset.and <| (Foot.fields .face
    [.FACE_FLR_STAT_BUSY]).and <| Foot.numbers [.faceEpoch, .flrAt])) ∧
  (∀ (f : FaceId), Stays (.flrDone f) s (Foot.delivery.and <| (Foot.counting .eng).and <| (Foot.error .moverg).and <|
    (Foot.fields .face [.BLK_CTRL_SOFT_RESET, .CNT_CLR_CLR, .CNT_HI_HIGH, .CNT_LO_LOW, .FACE_FLR_STAT_BUSY,
    .FACE_FLR_STAT_DONE, .FACE_FLR_STAT_TIME_US, .FACE_PM_STAT_PME_EN, .FACE_PM_STAT_PME_STATUS, .FACE_PM_STAT_SE_D,
    .FACE_WIN_COMMIT_GO]).and <| (Foot.fields .ring [.MOVER_RING_BASE_ADDR, .MOVER_RING_BASE_ADDR_HI,
    .MOVER_RING_CFG_ENABLE, .MOVER_RING_CFG_ENGINE, .MOVER_RING_CFG_KIND, .MOVER_RING_CFG_OWNER,
    .MOVER_RING_CFG_OWN_KIND, .MOVER_RING_CFG_SIZE_LOG2, .MOVER_RING_CFG_STOP_ON_ERR, .MOVER_RING_CPL_BASE_ADDR,
    .MOVER_RING_CPL_BASE_ADDR_HI, .MOVER_RING_CPL_CTRL_COAL_US, .MOVER_RING_CPL_CTRL_IRQ_EN,
    .MOVER_RING_CPL_CTRL_MODE, .MOVER_RING_CPL_CTRL_VECTOR, .MOVER_RING_CPL_FIFO_DW, .MOVER_RING_CPL_HEAD_CPL_HEAD,
    .MOVER_RING_CPL_TAIL_CPL_TAIL, .MOVER_RING_CPL_TAIL_PHASE, .MOVER_RING_HEAD_HEAD, .MOVER_RING_STAT_LAST_INDEX,
    .MOVER_RING_STAT_LAST_STATUS, .MOVER_RING_STAT_RESUME, .MOVER_RING_STAT_STATE, .MOVER_RING_TAIL_TAIL]).and <|
    (Foot.numbers [.coalDue, .coalOn, .fetchAt, .fetchN, .fetchTag, .meDef, .msixAddr, .msixData, .msixEnable,
    .msixFnMask, .msixOpen, .rehome, .seBar, .seBusMaster, .seMps, .seMrrs, .seMse, .sePasid, .seTags, .win]).and <|
    (Foot.queues [.cplFifo, .flushTodo, .ringWrote]).and <| Foot.others [.descs])) ∧
  (∀ (f : FaceId), Stays (.pmeTurnOff f) s ((Foot.fields .face [.FACE_PM_STAT_LINK_PM]).and <| (Foot.numbers
    [.pmeOff]).and <| Foot.others [.out])) ∧
  (∀ (f : FaceId), Stays (.faceResetPin f) s (Foot.faceCleared.and <| Foot.numbers [.fperst])) ∧
  (∀ (f : FaceId), Stays (.hotResetReceived f) s Foot.faceCleared) ∧
  (∀ (f : FaceId), Stays (.fperstRelease f) s ((Foot.fields .face [.FACE_PM_STAT_FWAKE]).and <| Foot.numbers [.fperst,
    .wakeFaces])) ∧
  (∀ (f : FaceId), Stays (.faceReady f) s (Foot.fields .face [.FACE_BIND_STATE]))

/-- What each of these commands may touch (rings, engines, descriptors, bridging and mailboxes): all else is as it was.
The lists follow the rules of the cited chapters and Table HDR; where a command can raise an error, count or
interrupt, the fields of that are among them. -/
def Obligations.MoverBoxFrames : Prop :=
  ∀ s : State, s.wf →
  (∀ (n : RingId), Stays (.coalesceExpiry n) s ((Foot.counting .face).and <| Foot.numbers [.coalDue, .coalOn])) ∧
  (∀ (n : RingId), Stays (.descriptorComplete n) s (Foot.descriptor.and <| Foot.numbers [.meDef, .mePlace, .meQuant]))
    ∧
  (∀ (n : RingId) (cause : Fin 3), Stays (.descriptorError n cause) s (Foot.descriptor.and <| Foot.numbers [.meDef,
    .mePlace, .meQuant])) ∧
  (∀ (n : RingId), Stays (.descriptorFetch n) s (Foot.delivery.and <| (Foot.error .core).and <| Foot.numbers [.fetchN,
    .fetchTag])) ∧
  (∀ (n : RingId) (descs : Option (List (BitVec 256))), Stays (.descriptorFetchComplete n descs) s
    (Foot.descriptor.and <| Foot.numbers [.meDef, .mePlace, .meQuant])) ∧
  (∀ (st : Stamp) (n : RingId) (v : Word), Stays (.ringTailWrite st n v) s ((Foot.access .guard).and <| Foot.fields
    .ring [.BLK_STAT_FAULT, .BLK_STAT_QUIESCED, .BLK_STAT_READY, .ERR_FIRST_CLASS, .ERR_FIRST_INDEX, .ERR_FIRST_MORE,
    .ERR_FIRST_TS_TS, .ERR_FIRST_TS_TS_HI, .ERR_FIRST_VALID, .ERR_STICKY_BITS, .INT_CAUSE_ERR,
    .MOVER_RING_TAIL_TAIL])) ∧
  (∀ (st : Stamp) (n : RingId), Stays (.ringResume st n) s ((Foot.access .guard).and <| (Foot.fields .ring
    [.ERR_FIRST_CLASS, .ERR_FIRST_INDEX, .ERR_FIRST_MORE, .ERR_FIRST_TS_TS, .ERR_FIRST_TS_TS_HI, .ERR_FIRST_VALID,
    .ERR_STICKY_BITS, .INT_CAUSE_ERR, .MOVER_RING_STAT_STATE]).and <| (Foot.numbers [.fetchAt, .fetchN,
    .fetchTag]).and <| Foot.others [.descs, .slots])) ∧
  (∀ (st : Stamp) (n : RingId) (tenant : Bool) (v : Word), Stays (.ringCfgWrite st n tenant v) s (Foot.descriptor.and
    <| (Foot.access .guard).and <| (Foot.fields .inst [.INST_STAT_FENCED, .INST_STAT_TDI]).and <| (Foot.fields .ring
    [.BLK_ID_CODE, .BLK_ID_INSTANCE, .ERR_FIRST_CLASS, .ERR_FIRST_INDEX, .ERR_FIRST_MORE, .ERR_FIRST_TS_TS,
    .ERR_FIRST_TS_TS_HI, .ERR_FIRST_VALID, .ERR_STICKY_BITS, .INT_CAUSE_ERR, .MOVER_RING_CFG_ENABLE,
    .MOVER_RING_CFG_ENGINE, .MOVER_RING_CFG_KIND, .MOVER_RING_CFG_OWNER, .MOVER_RING_CFG_OWN_KIND,
    .MOVER_RING_CFG_SIZE_LOG2, .MOVER_RING_CFG_STOP_ON_ERR, .MOVER_RING_CPL_HEAD_CPL_HEAD, .MOVER_RING_TAIL_TAIL]).and
    <| Foot.numbers [.rehome])) ∧
  (∀ (st : Stamp) (n : RingId) (v : Word), Stays (.ringRehome st n v) s (Foot.descriptor.and <| (Foot.access
    .guard).and <| (Foot.fields .inst [.INST_STAT_FENCED, .INST_STAT_TDI]).and <| (Foot.fields .ring [.BLK_ID_CODE,
    .BLK_ID_INSTANCE, .ERR_FIRST_CLASS, .ERR_FIRST_INDEX, .ERR_FIRST_MORE, .ERR_FIRST_TS_TS, .ERR_FIRST_TS_TS_HI,
    .ERR_FIRST_VALID, .ERR_STICKY_BITS, .INT_CAUSE_ERR, .MOVER_RING_CFG_ENABLE, .MOVER_RING_CFG_ENGINE,
    .MOVER_RING_CFG_KIND, .MOVER_RING_CFG_OWNER, .MOVER_RING_CFG_OWN_KIND, .MOVER_RING_CFG_SIZE_LOG2,
    .MOVER_RING_CFG_STOP_ON_ERR, .MOVER_RING_CPL_HEAD_CPL_HEAD, .MOVER_RING_TAIL_TAIL]).and <| Foot.numbers
    [.rehome])) ∧
  (∀ (n : RingId), Stays (.rehomeDone n) s ((Foot.counting .eng).and <| (Foot.fields .ring
    [.MOVER_RING_STAT_STATE]).and <| (Foot.numbers [.fetchAt, .fetchN, .fetchTag, .rehome]).and <| Foot.others
    [.descs, .slots])) ∧
  (∀ (n : RingId), Stays (.rxPacketCommit n) s (Foot.descriptor.and <| Foot.numbers [.meDef, .mePlace, .meQuant])) ∧
  (∀ (st : Stamp) (e : EngId) (v : Word), Stays (.engineDisable st e v) s ((Foot.access .moverg).and <| (Foot.error
    .eng).and <| Foot.fields .eng [.MOVER_ENG_CTRL_ENABLE, .MOVER_ENG_CTRL_FAILOVER])) ∧
  (∀ (e : EngId), Stays (.engineFault e) s (Foot.descriptor.and <| (Foot.error .eng).and <| (Foot.fields .eng
    [.MOVER_ENG_STAT_FAULTED]).and <| (Foot.fields .ring [.MOVER_RING_CFG_ENGINE]).and <| Foot.numbers [.rehome])) ∧
  (∀ (f : FaceId) (k : Fin 32), Stays (.prefetchAgeExpiry f k) s ((Foot.counting .bridge).and <| Foot.others
    [.prefs])) ∧
  (∀ (host : Option FaceId) (src : Feid), Stays (.unlockMessage host src) s (Foot.admission.and <| Foot.numbers
    [.lockDest])) ∧
  (∀ (p : PortId), Stays (.lockTimeout p) s ((Foot.counting .bridge).and <| (Foot.error .bridge).and <| (Foot.fields
    .bridge [.BRIDGE_LOCK_STAT_HOLDER, .BRIDGE_LOCK_STAT_LOCKED]).and <| Foot.numbers [.lockDest])) ∧
  (∀ (n : RingId) (off : Nat) (bytes : List Byte), Stays (.moverReadCompletion n off bytes) s (Foot.descriptor.and <|
    Foot.numbers [.meDef, .mePlace, .meQuant])) ∧
  (∀ (st : Stamp) (w : NWin) (v : Word), Stays (.noticePost st w v) s (Foot.admission.and <| (Foot.access .mbox).and
    <| (Foot.counting .mbox).and <| (Foot.fields .mbox [.MBOX_REJ_LOG_SID, .MBOX_REJ_LOG_SKIND, .MBOX_REJ_LOG_STAMP,
    .MBOX_REJ_LOG_STATUS]).and <| (Foot.fields .face [.FACE_PM_STAT_FWAKE, .FACE_PM_STAT_PME_STATUS]).and <|
    (Foot.numbers [.qArm, .win]).and <| Foot.queues [.notices, .posts])) ∧
  (∀ (src dest : Feid) (ingSw : SwId) (n : Notice) (fwq : Fin 16), Stays (.noticeFrameReceived src dest ingSw n fwq) s
    (Foot.admission.and <| (Foot.counting .mbox).and <| (Foot.error .mbox).and <| (Foot.fields .face
    [.FACE_PM_STAT_FWAKE, .FACE_PM_STAT_PME_STATUS]).and <| (Foot.numbers [.qArm]).and <| Foot.queues [.notices])) ∧
  (∀ (status : Fin 7) (skind : Fin 8) (sid : Fin 1024) (sfeid : Feid), Stays (.noticeOutcomeReceived status skind sid
    sfeid) s ((Foot.counting .mbox).and <| (Foot.error .mbox).and <| (Foot.fields .mbox [.MBOX_REJ_LOG_SID,
    .MBOX_REJ_LOG_SKIND, .MBOX_REJ_LOG_STAMP, .MBOX_REJ_LOG_STATUS]).and <| (Foot.numbers [.win]).and <| Foot.queues
    [.posts])) ∧
  (∀ (st : Stamp) (w : NWin), Stays (.noticeOutcomeTimeout st w) s ((Foot.counting .mbox).and <| (Foot.error
    .mbox).and <| (Foot.fields .mbox [.MBOX_REJ_LOG_SID, .MBOX_REJ_LOG_SKIND, .MBOX_REJ_LOG_STAMP,
    .MBOX_REJ_LOG_STATUS]).and <| (Foot.numbers [.win]).and <| Foot.queues [.posts])) ∧
  (∀ (st : Stamp) (w : NWin), Stays (.noticeRead st w) s ((Foot.counting .mbox).and <| (Foot.numbers [.arbLast]).and
    <| Foot.queues [.held, .notices])) ∧
  (∀ (st : Stamp) (w : NWin), Stays (.doorbellArm st w) s ((Foot.access .mbox).and <| (Foot.fields .face
    [.FACE_PM_STAT_FWAKE, .FACE_PM_STAT_PME_STATUS]).and <| Foot.numbers [.qArm])) ∧
  (∀ (st : Stamp) (w : NWin) (v : Word), Stays (.epochQuery st w v) s ((Foot.access .mbox).and <| Foot.numbers
    [.win])) ∧
  (∀ (st : Stamp) (n : Fin 128) (v : Word), Stays (.wordWrite st n v) s ((Foot.access .mbox).and <| (Foot.counting
    .mbox).and <| Foot.fields .mbox [.MBOX_WORD_DATA, .MBOX_WORD_STAT_FULL, .MBOX_WORD_STAT_WRITER])) ∧
  (∀ (st : Stamp) (n : Fin 128), Stays (.wordTake st n) s ((Foot.access .mbox).and <| Foot.fields .mbox
    [.MBOX_WORD_STAT_FULL])) ∧
  (∀ (st : Stamp) (n : Fin 256), Stays (.semAcquire st n) s ((Foot.counting .mbox).and <| (Foot.fields .mbox
    [.MBOX_SEM_PEEK_HELD, .MBOX_SEM_PEEK_OWNER]).and <| Foot.numbers [.arbLast])) ∧
  (∀ (st : Stamp) (n : Fin 256), Stays (.semRelease st n) s ((Foot.access .mbox).and <| Foot.fields .mbox
    [.MBOX_SEM_PEEK_HELD, .MBOX_SEM_PEEK_OWNER])) ∧
  (∀ (st : Stamp) (n : Fin 256), Stays (.semForce st n) s ((Foot.access .mbox).and <| (Foot.counting .mbox).and <|
    Foot.fields .mbox [.MBOX_SEM_PEEK_HELD, .MBOX_SEM_PEEK_OWNER]))

/-- What each of these commands may touch (containment and recovery): all else is as it was. The lists follow the rules
of the cited chapters and Table HDR; where a command can raise an error, count or interrupt, the fields of that are
among them. -/
def Obligations.ContainmentFrames : Prop :=
  ∀ s : State, s.wf →
  (∀ (p : PortId), Stays (.powerQuiesceDrained p) s (Foot.delivery.and <| Foot.linkState.and <| Foot.others [.fwd])) ∧
  (∀ (p : PortId), Stays (.quiesceUsExpiry p) s (Foot.delivery.and <| Foot.linkState.and <| Foot.others [.fwd])) ∧
  (Stays .containmentRequest s (Foot.recovery.and <| Foot.safeHalt.and <| (Foot.error .port).and <| (Foot.numbers
    [.guardPartner, .wcCount]).and <| Foot.others [.coders])) ∧
  (∀ (d : Dom), Stays (.recoveryComplete d) s (Foot.admission.and <| Foot.domains.and <| Foot.presentation.and <|
    Foot.numbers [.portFenced, .reachLeft])) ∧
  (∀ (d : Dom), Stays (.recoveryTimeout d) s (Foot.domains.and <| Foot.error .guard)) ∧
  (∀ (d : Dom), Stays (.recoveryWindowClose d) s (Foot.admission.and <| Foot.domains.and <| Foot.presentation.and <|
    Foot.numbers [.portFenced, .reachLeft])) ∧
  (∀ (st : Stamp) (d : Dom) (v : Word), Stays (.domainContain st d v) s (Foot.recovery.and <| Foot.safeHalt.and <|
    (Foot.access .port).and <| (Foot.numbers [.guardPartner, .reachLeft, .wcCount]).and <| Foot.others [.coders])) ∧
  (∀ (st : Stamp) (d : Dom) (v : Word), Stays (.domainRelease st d v) s (Foot.recovery.and <| Foot.safeHalt.and <|
    (Foot.access .port).and <| (Foot.numbers [.guardPartner, .reachLeft, .wcCount]).and <| Foot.others [.coders])) ∧
  (∀ (st : Stamp) (p : PortId), Stays (.portRelease st p) s (Foot.recovery.and <| (Foot.access .port).and <|
    Foot.numbers [.portFenced, .reachLeft])) ∧
  (∀ (p : PortId), Stays (.dpcHoldExpiry p) s (Foot.fields .port [.PORT_LINK_STAT_STATE])) ∧
  (∀ (d : Dom), Stays (.domainEventRepeat d) s (Foot.admission.and <| Foot.numbers [.reachLeft])) ∧
  (∀ (code : Fin 4) (sw : SwId) (feids : List Feid), Stays (.domainEventReceived code sw feids) s
    (Foot.presentation.and <| (Foot.fields .face [.FACE_PRES_SHOWN]).and <| Foot.numbers [.presBar, .presBarSet,
    .presBase, .presCmd, .presInfo, .presRom, .slotCtl, .slotStat, .unreach])) ∧
  (∀ (n : Feid), Stays (.unreachableMarkExpiry n) s (Foot.presentation.and <| Foot.numbers [.unreach])) ∧
  (∀ (fd : Bool) (sw : SwId) (block bit : Fin 32) (n : Feid), Stays (.containReqReceived fd sw block bit n) s
    (Foot.recovery.and <| Foot.safeHalt.and <| (Foot.error .port).and <| (Foot.numbers [.guardPartner, .wcCount]).and
    <| Foot.others [.coders])) ∧
  (∀ (st : Stamp) (v : Word), Stays (.elogClear st v) s (Foot.access .guard))

/-- What each of these commands may touch (tokens, keys and locks): all else is as it was. The lists follow the rules of
the cited chapters and Table HDR; where a command can raise an error, count or interrupt, the fields of that are
among them. -/
def Obligations.SecurityFrames : Prop :=
  ∀ s : State, s.wf →
  (∀ (st : Stamp) (k : Fin 32) (v : Word), Stays (.pageLockWrite st k v) s ((Foot.access .sec).and <| Foot.headers
    [.PAGE_LOCK_LOCK_GEN, .PAGE_LOCK_LOCKED])) ∧
  (∀ (st : Stamp) (v : Word), Stays (.tokenClaim st v) s (Foot.token.and <| (Foot.access .guard).and <| (Foot.counting
    .sec).and <| (Foot.fields .sec [.SEC_TOKEN_CTRL_GO, .SEC_TOKEN_CTRL_STATUS]).and <| Foot.numbers [.tokRaw,
    .tokRun])) ∧
  (∀ (st : Stamp) (v : Word), Stays (.tokenTransfer st v) s (Foot.token.and <| (Foot.access .guard).and <|
    (Foot.counting .sec).and <| (Foot.fields .sec [.SEC_TOKEN_CTRL_GO, .SEC_TOKEN_CTRL_STATUS]).and <| Foot.numbers
    [.tokRaw, .tokRun])) ∧
  (∀ (st : Stamp) (v : Word), Stays (.tokenRelease st v) s (Foot.token.and <| (Foot.access .guard).and <|
    (Foot.counting .sec).and <| (Foot.fields .sec [.SEC_TOKEN_CTRL_GO, .SEC_TOKEN_CTRL_STATUS]).and <| Foot.numbers
    [.tokRaw, .tokRun])) ∧
  (∀ (st : Stamp) (v : Word), Stays (.tokenUnlockPages st v) s (Foot.token.and <| (Foot.access .guard).and <|
    (Foot.counting .sec).and <| (Foot.fields .sec [.SEC_TOKEN_CTRL_GO, .SEC_TOKEN_CTRL_STATUS]).and <| Foot.numbers
    [.tokRaw, .tokRun])) ∧
  (∀ (st : Stamp) (v : Word), Stays (.tokenGrant st v) s (Foot.token.and <| (Foot.access .guard).and <| (Foot.counting
    .sec).and <| (Foot.fields .sec [.SEC_TOKEN_CTRL_GO, .SEC_TOKEN_CTRL_STATUS]).and <| Foot.numbers [.tokRaw,
    .tokRun])) ∧
  (∀ (st : Stamp) (v : Word), Stays (.tokenArbAdvance st v) s (Foot.token.and <| (Foot.access .guard).and <|
    (Foot.counting .sec).and <| (Foot.fields .sec [.SEC_TOKEN_CTRL_GO, .SEC_TOKEN_CTRL_STATUS]).and <| Foot.numbers
    [.tokRaw, .tokRun])) ∧
  (∀ (st : Stamp) (v : Word), Stays (.tokenDebugUnlock st v) s (Foot.token.and <| (Foot.access .guard).and <|
    (Foot.counting .sec).and <| (Foot.fields .sec [.SEC_TOKEN_CTRL_GO, .SEC_TOKEN_CTRL_STATUS]).and <| Foot.numbers
    [.tokRaw, .tokRun])) ∧
  (Stays .tokenFinished s (Foot.token.and <| (Foot.counting .sec).and <| (Foot.fields .sec [.SEC_NONCE_DW,
    .SEC_TOKEN_CTRL_GO, .SEC_TOKEN_CTRL_OP, .SEC_TOKEN_CTRL_STATUS]).and <| (Foot.numbers [.tokRaw, .tokRun]).and <|
    Foot.others [.free])) ∧
  (∀ (ch : DoeOrMctp) (r : SpdmReq), Stays (.spdmRequest ch r) s ((Foot.counting .mgmt).and <| (Foot.counting
    .sec).and <| (Foot.error .sec).and <| Foot.numbers [.spdmSess, .spdmShake])) ∧
  (∀ (ch : DoeOrMctp) (m : IdeKm), Stays (.ideKmRequest ch m) s ((Foot.counting .mgmt).and <| (Foot.error .sec).and <|
    (Foot.fields .sec [.SEC_IDE_STAT_LINK_ID, .SEC_IDE_STAT_LINK_KSET, .SEC_IDE_STAT_LINK_SECURE,
    .SEC_IDE_STAT_SEL_SECURE, .SEC_IDE_STAT_SEL_VALID]).and <| Foot.numbers [.ideGo, .ideKey])) ∧
  (∀ (p : PortId) (chainOk : Bool) (root : Nat), Stays (.deviceAuthDone p chainOk root) s ((Foot.error .sec).and <|
    (Foot.fields .sec [.SEC_IDE_STAT_DEV_AUTH, .SEC_IDE_STAT_LINK_ID, .SEC_IDE_STAT_LINK_KSET,
    .SEC_IDE_STAT_LINK_SECURE, .SEC_IDE_STAT_SEL_SECURE]).and <| (Foot.numbers [.ideGo, .ideKey]).and <| Foot.others
    [.free])) ∧
  (∀ (p : PortId) (w : Option (Stamp × Word)), Stays (.linkRekey p w) s ((Foot.access .sec).and <| (Foot.fields .sec
    [.SEC_LINK_STAT_REKEY]).and <| (Foot.numbers [.rekeying]).and <| Foot.others [.free])) ∧
  (∀ (p : PortId), Stays (.rekeyTimeout p) s ((Foot.error .sec).and <| (Foot.fields .sec [.SEC_LINK_STAT_REKEY]).and
    <| Foot.numbers [.rekeying])) ∧
  (∀ (st : Stamp) (v : Word), Stays (.debugRelock st v) s ((Foot.access .sec).and <| Foot.fields .sec
    [.SEC_DEBUG_STATE]))

/-- What each of these commands may touch (power-path events, firmware, MCTP, images and the gatherer): all else is as
it was. The lists follow the rules of the cited chapters and Table HDR; where a command can raise an error, count or
interrupt, the fields of that are among them. -/
def Obligations.PowerManagementFrames : Prop :=
  ∀ s : State, s.wf →
  (∀ (c : ChanId), Stays (.fastTrip c) s Foot.feedCut) ∧
  (∀ (c : ChanId), Stays (.ovCut c) s Foot.feedCut) ∧
  (∀ (c : ChanId), Stays (.faultTimerExpiry c) s (Foot.warnedCut.and <| (Foot.counting .pwr).and <| (Foot.error
    .pwr).and <| (Foot.fields .pwr [.PWR_CH_STAT_PG]).and <| Foot.numbers [.pwFault])) ∧
  (∀ (c : ChanId), Stays (.rampTimeout c) s (Foot.warnedCut.and <| (Foot.counting .pwr).and <| (Foot.error .pwr).and
    <| (Foot.fields .pwr [.PWR_CH_STAT_PG]).and <| Foot.numbers [.pwFault])) ∧
  (∀ (c : ChanId), Stays (.fetOvertemp c) s (Foot.warnedCut.and <| Foot.error .pwr)) ∧
  (∀ (c : ChanId), Stays (.seatingLoss c) s (Foot.warnedCut.and <| (Foot.error .pwr).and <| Foot.fields .pwr
    [.PWR_CH_STAT_SEATED])) ∧
  (∀ (c : ChanId), Stays (.feedLoss c) s (Foot.warnedCut.and <| (Foot.error .pwr).and <| Foot.fields .pwr
    [.PWR_CH_STAT_A_OK, .PWR_CH_STAT_B_OK])) ∧
  (∀ (c : ChanId), Stays (.warnLeadExpiry c) s Foot.feedCut) ∧
  (∀ (c : ChanId), Stays (.forcedSwitchover c) s ((Foot.fields .pwr [.PWR_CH_STAT_A_OK, .PWR_CH_STAT_B_OK,
    .PWR_CH_STAT_PG, .PWR_CH_STAT_STATE, .PWR_CH_STAT_WARN]).and <| (Foot.numbers [.pwDead, .pwSwitch]).and <|
    Foot.others [.greqs])) ∧
  (∀ (c : ChanId), Stays (.revertSwitchover c) s (Foot.warnedCut.and <| (Foot.fields .pwr [.PWR_CH_STAT_A_OK,
    .PWR_CH_STAT_B_OK]).and <| Foot.numbers [.pwDead])) ∧
  (∀ (c : ChanId), Stays (.deadTimeExpiry c) s ((Foot.counting .pwr).and <| (Foot.fields .pwr
    [.PWR_CH_STAT_ACTIVE_B]).and <| Foot.numbers [.pwDead, .pwSwitch])) ∧
  (∀ (c : ChanId), Stays (.seatingDebounced c) s (Foot.fields .pwr [.PWR_CH_STAT_SEATED, .PWR_CH_STAT_STATE])) ∧
  (∀ (c : ChanId) (b : Bool), Stays (.insertionDelayExpiry c b) s ((Foot.counting .pwr).and <| Foot.fields .pwr
    [.PWR_CH_STAT_ACTIVE_B, .PWR_CH_STAT_A_OK, .PWR_CH_STAT_B_OK, .PWR_CH_STAT_STATE, .PWR_CH_STAT_WARN])) ∧
  (∀ (c : ChanId), Stays (.rampComplete c) s (Foot.fields .pwr [.PWR_CH_STAT_STATE])) ∧
  (∀ (c : ChanId), Stays (.retryPeriodExpiry c) s ((Foot.counting .pwr).and <| Foot.fields .pwr
    [.PWR_CH_STAT_ACTIVE_B, .PWR_CH_STAT_STATE, .PWR_CH_STAT_WARN])) ∧
  (∀ (c : ChanId), Stays (.reverseBlock c) s ((Foot.counting .pwr).and <| (Foot.error .pwr).and <| Foot.fields .pwr
    [.PWR_CH_STAT_REV_BLOCK])) ∧
  (∀ (c : ChanId), Stays (.reverseRelease c) s (Foot.fields .pwr [.PWR_CH_STAT_REV_BLOCK])) ∧
  (∀ (c : ChanId), Stays (.powerGood c) s (Foot.recovery.and <| (Foot.fields .pwr [.PWR_CH_STAT_PG,
    .PWR_CH_STAT_WARN]).and <| Foot.others [.fwd])) ∧
  (∀ (c : ChanId), Stays (.retryReloadTimer c) s (Foot.fields .pwr [.PWR_CH_STAT_RETRIES_LEFT])) ∧
  (∀ (c : ChanId), Stays (.outputBelowPgThreshold c) s (Foot.fields .pwr [.PWR_CH_STAT_PG])) ∧
  (∀ (st : Stamp) (c : ChanId) (v : Word), Stays (.channelEnable st c v) s (Foot.warnedCut.and <| (Foot.access
    .pwr).and <| Foot.fields .pwr [.PWR_CH_CFG_BIND_EN, .PWR_CH_CFG_CLEAR, .PWR_CH_CFG_EN, .PWR_CH_CFG_INS_DELAY,
    .PWR_CH_CFG_PORT, .PWR_CH_CFG_WARN_LEAD, .PWR_CH_STAT_RETRIES_LEFT])) ∧
  (∀ (st : Stamp) (c : ChanId) (v : Word), Stays (.channelDisable st c v) s (Foot.warnedCut.and <| (Foot.access
    .pwr).and <| Foot.fields .pwr [.PWR_CH_CFG_BIND_EN, .PWR_CH_CFG_CLEAR, .PWR_CH_CFG_EN, .PWR_CH_CFG_INS_DELAY,
    .PWR_CH_CFG_PORT, .PWR_CH_CFG_WARN_LEAD, .PWR_CH_STAT_RETRIES_LEFT])) ∧
  (∀ (st : Stamp) (c : ChanId) (v : Word), Stays (.channelClear st c v) s (Foot.warnedCut.and <| (Foot.access
    .pwr).and <| Foot.fields .pwr [.PWR_CH_CFG_BIND_EN, .PWR_CH_CFG_CLEAR, .PWR_CH_CFG_EN, .PWR_CH_CFG_INS_DELAY,
    .PWR_CH_CFG_PORT, .PWR_CH_CFG_WARN_LEAD, .PWR_CH_STAT_RETRIES_LEFT])) ∧
  (∀ (st : Stamp) (c : ChanId) (v : Word), Stays (.softwareSwitchover st c v) s (Foot.warnedCut.and <| (Foot.access
    .pwr).and <| (Foot.fields .pwr [.PWR_CH_STAT_A_OK, .PWR_CH_STAT_B_OK, .PWR_FEED_SEL_DEAD_US,
    .PWR_FEED_SEL_FEED_A_EN, .PWR_FEED_SEL_FEED_B_EN, .PWR_FEED_SEL_FORCE, .PWR_FEED_SEL_PRIO, .PWR_FEED_SEL_REVERT,
    .PWR_FEED_SEL_WARN_ON_SWITCH]).and <| Foot.numbers [.pwDead])) ∧
  (Stays .feedCheck s ((Foot.error .pwr).and <| Foot.fields .pwr [.PWR_FEED_SEL_FEED_B_EN, .PWR_SNAP_CYCLE,
    .PWR_SNAP_IOUT, .PWR_SNAP_IPEAK, .PWR_SNAP_TFET, .PWR_SNAP_VFA, .PWR_SNAP_VFB, .PWR_SNAP_VOUT])) ∧
  (∀ (c : ChanId) (vout iout vfa vfb : BitVec 16) (tfet : BitVec 8) (limit : Bool), Stays (.telemetrySample c vout
    iout vfa vfb tfet limit) s ((Foot.counting .pwr).and <| (Foot.fields .pwr [.PWR_CH_STAT_A_OK, .PWR_CH_STAT_B_OK,
    .PWR_CH_STAT_LIMIT, .PWR_TELEM_IOUT, .PWR_TELEM_IPEAK, .PWR_TELEM_TFET, .PWR_TELEM_VFA, .PWR_TELEM_VFB,
    .PWR_TELEM_VOUT]).and <| Foot.numbers [.pwEnergy])) ∧
  (∀ (pair : Fin 2), Stays (.lockstepMismatch pair) s Foot.firmware) ∧
  (Stays .watchdogExpiry s Foot.firmware) ∧
  (∀ (st : Stamp) (v : Word), Stays (.watchdogKick st v) s ((Foot.access .mgmt).and <| (Foot.fields .mgmt
    [.MGMT_WD_KEY, .MGMT_WD_KICK, .MGMT_WD_TIMEOUT_MS]).and <| Foot.numbers [.wdAt])) ∧
  (∀ (st : Stamp) (v : Word), Stays (.imgCtrlStart st v) s (Foot.image.and <| Foot.access .mgmt)) ∧
  (∀ (st : Stamp) (v : Word), Stays (.imgCtrlChunk st v) s ((Foot.access .mgmt).and <| (Foot.fields .mgmt
    [.MGMT_IMG_CHUNK_GO, .MGMT_IMG_CHUNK_LEN_M1, .MGMT_IMG_CTRL_BUSY, .MGMT_IMG_CTRL_STATUS]).and <| Foot.numbers
    [.imgBytes, .imgLen, .imgSt])) ∧
  (∀ (st : Stamp) (v : Word), Stays (.imgCtrlFinish st v) s (Foot.image.and <| Foot.access .mgmt)) ∧
  (∀ (st : Stamp) (v : Word), Stays (.imgCtrlAbort st v) s (Foot.image.and <| Foot.access .mgmt)) ∧
  (Stays .imgEraseDone s ((Foot.fields .mgmt [.MGMT_IMG_CTRL_BUSY, .MGMT_IMG_CTRL_STATUS]).and <| Foot.numbers
    [.imgSt])) ∧
  (Stays .imgChunkDone s ((Foot.fields .mgmt [.MGMT_IMG_CTRL_BUSY, .MGMT_IMG_CTRL_STATUS]).and <| Foot.numbers
    [.imgBytes, .imgLen, .imgSt])) ∧
  (∀ (k : Fin 4) (eid : BitVec 8), Stays (.setEndpointId k eid) s ((Foot.counting .mgmt).and <| Foot.numbers
    [.mctpEid])) ∧
  (∀ (k : Fin 4), Stays (.getEndpointId k) s (Foot.counting .mgmt)) ∧
  (∀ (k : Fin 4) (typ : BitVec 8), Stays (.getMctpVersionSupport k typ) s ((Foot.counting .mgmt).and <| Foot.others
    [.free])) ∧
  (∀ (k : Fin 4), Stays (.getMessageTypeSupport k) s (Foot.counting .mgmt)) ∧
  (∀ (k : Fin 4), Stays (.mctpUnsupported k) s (Foot.counting .mgmt)) ∧
  (∀ (k : Fin 4) (cfg : Bool), Stays (.mctpImgStart k cfg) s ((Foot.counting .mgmt).and <| (Foot.fields .mgmt
    [.MGMT_IMG_CTRL_BUSY, .MGMT_IMG_CTRL_INSTALLER, .MGMT_IMG_CTRL_KIND, .MGMT_IMG_CTRL_STATUS]).and <| Foot.numbers
    [.dirSeq, .dirSlot, .imgBytes, .imgKind, .imgSt, .slotState, .slotTries])) ∧
  (∀ (k : Fin 4) (off : BitVec 32) (len : Nat), Stays (.mctpImgChunk k off len) s ((Foot.counting .mgmt).and <|
    (Foot.error .mgmt).and <| (Foot.fields .mgmt [.MGMT_IMG_CTRL_BUSY, .MGMT_IMG_CTRL_STATUS]).and <| Foot.numbers
    [.imgBytes, .imgLen, .imgSt])) ∧
  (∀ (k : Fin 4), Stays (.mctpImgFinish k) s ((Foot.counting .mgmt).and <| (Foot.fields .mgmt [.MGMT_IMG_CTRL_BUSY,
    .MGMT_IMG_CTRL_STATUS]).and <| Foot.numbers [.imgSt])) ∧
  (∀ (k : Fin 4), Stays (.telemetry k) s (Foot.counting .mgmt)) ∧
  (Stays .gatherSnapshot s ((Foot.error .mgmt).and <| (Foot.counting .mgmt).and <| (Foot.fields .mgmt
    [.MGMT_GATHER_STAT_BUSY]).and <| (Foot.headers [.CNT_SEL_AUTO_INC, .CNT_SEL_INDEX]).and <| (Foot.queues
    [.gatherSnap]).and <| Foot.numbers [.arbLast, .gatherSkips, .gatherSeq, .gatherFace, .gatherSlot, .gatherNum,
    .gatherSkipped, .gatherAt, .gatherCycle, .gatherBound, .gatherFree])) ∧
  (∀ (skew : Nat), Stays (.gatherSnapshotDone skew) s (Foot.completion.and <| (Foot.counting .mgmt).and <| (Foot.error
    .mgmt).and <| (Foot.fields .mgmt [.MGMT_GATHER_STAT_BUSY, .MGMT_GATHER_STAT_LAST_SKEW, .MGMT_GATHER_STAT_SEQ]).and
    <| (Foot.numbers [.gatherSkips]).and <| Foot.queues [.gatherSnap])) ∧
  (∀ (st : Stamp) (off : BitVec 16) (v : Word), Stays (.gatherConfigWrite st off v) s ((Foot.access .mgmt).and <|
    (Foot.fields .mgmt tabMGMT1).and <| Foot.numbers [.upperLow, .gatherSeq, .gatherSkips, .gatherGen])) ∧
  (∀ (mv : List (BitVec 16)), Stays (.vmonSample mv) s ((Foot.error .mgmt).and <| Foot.fields .mgmt [.MGMT_VMON_MV,
    .MGMT_VMON_OOR])) ∧
  (∀ (k : Fin 4) (sw : SwId) (a : SpaceAddr), Stays (.remoteRead k sw a) s (Foot.admission.and <| (Foot.counting
    .mgmt).and <| (Foot.numbers [.remoteId]).and <| Foot.queues [.remotes])) ∧
  (∀ (k : Fin 4) (sw : SwId) (a : SpaceAddr) (v : Word), Stays (.remoteWrite k sw a v) s (Foot.admission.and <|
    (Foot.counting .mgmt).and <| (Foot.numbers [.remoteId]).and <| Foot.queues [.remotes])) ∧
  (∀ (status : Fin 6) (v : Word) (id : BitVec 16), Stays (.remoteResponseReceived status v id) s ((Foot.queues
    [.remotes]).and <| Foot.others [.out])) ∧
  (∀ (id : BitVec 16), Stays (.remoteTimeout id) s ((Foot.queues [.remotes]).and <| Foot.others [.out]))

/-- A step takes the command at the front of the queue and carries it out with the queue's rest. That an empty queue
lets time pass is the model's own choice (log entries 1 and 3): no rule of the manual gives the order of events. -/
def Obligations.StepRunsFrontCommand : Prop :=
  (∀ (c : Instr) (r : List Instr) (s : State), step { s with pending := c :: r } = exec c { s with pending := r }) ∧
  (∀ s : State, s.pending = [] → step s = .next (tick.run s))

/-- R65 and R66 give every counter 48 bits; the canonical form of the tables is the model's own. Every command answers a
next state: none stops on a fault or a refusal. The record of what was sent and the counter of drawn values are the
model's own (log entries 6 and 11). -/
def Obligations.EveryStepKeepsTheInvariant : Prop :=
  ∀ s : State, s.wf →
  (∃ t, step s = .next t ∧ t.wf ∧ t.pending = s.pending.tail ∧ (∃ l, t.out = l ++ s.out) ∧ s.free ≤ t.free) ∧
  (∀ i : Instr, ∃ t, exec i s = .next t ∧ t.wf ∧ t.pending = s.pending ∧ (∃ l, t.out = l ++ s.out) ∧ s.free ≤ t.free)

/-- R645, over every command: cold and warm resets, supply losses, tokens, images, and the passing of time. -/
def Obligations.AntiRollbackNeverDecreases : Prop :=
  ∀ s : State, s.wf → ∃ t, step s = .next t ∧ ∀ k, s.arbAt k ≤ t.arbAt k

/-- R65, R134, R141 and the reset columns of the register tables. That the reset state is the one after a cold reset by
VKEEP, with fuses unburnt and time 0, is the model's choice (log entries 8 and 9). -/
def Obligations.ResetState : Prop :=
  State.reset.wf ∧ State.reset.pending = [] ∧
  State.reset.rd .glb .GLB_DEV_STATE_STATE = 1 ∧
  State.reset.rd .glb .GLB_DEV_STATE_FW_SLOT = 3 ∧
  State.reset.rd .glb .GLB_DEV_STATE_CFG_SLOT = 3 ∧
  State.reset.rd .glb .GLB_DEV_STATE_BOOT_ERR = 0 ∧
  State.reset.rd .glb .GLB_RESET_CAUSE_LAST = 1 ∧
  State.reset.rd .glb .GLB_RESET_CAUSE_COLD_VKEEP = 1 ∧
  (∀ (pg : Pg) (f : Fld) (i : Nat), f ∈ pg.fields → pg ≠ .glb → State.reset.rd pg f i = f.reset pg i % 2 ^ f.width) ∧
  (∀ (pg : Pg) (i : Nat), State.reset.cnt pg i = 0) ∧ (∀ k, State.reset.arbAt k = 0) ∧ (∀ (q : Fifo) (i : Nat),
    State.reset.fifo q i = [])

/-- R70. The note of the last grant is the arbiter's (R78) and the record of answers the model's own: neither is state
of the block read. -/
def Obligations.UndefinedCounterReadsZero : Prop :=
  ∀ s : State, s.Awake → ∀ (st : Stamp) (pg : Pg) (full : Bool), s.pathOpen st = true → pg.ok = true → pg.common =
    true →
  cntGroup pg (s.rdSt st.code pg .CNT_SEL_INDEX) = none →
  Gives (.counterLowRead st pg full) s fun t => t.out = Out.value st 0 :: s.out ∧
  Within ((Foot.numbers [.arbLast]).and <| Foot.others [.out]) s t

/-- R132. The reset starts in the step of the grant, which is within 1 µs of it. The note of the last grant is the
arbiter's (R78). -/
def Obligations.WarmResetNeedsKey : Prop :=
  ∀ s : State, s.Awake → s.locked .glb = false → ∀ (st : Stamp) (v : Word), s.pathOpen st = true →
  (bits v.toNat 31 16 = 0x57A7 ∧ v.getLsbD 0 = true → Gives (.warmResetRequest st v) s fun t => t.iv .dieReset =
    drWARM ∧ t.now = s.now) ∧
  (¬(bits v.toNat 31 16 = 0x57A7 ∧ v.getLsbD 0 = true) → Gives (.warmResetRequest st v) s fun t => Within
    (Foot.numbers [.arbLast]) s t)

/-- R197: R194 names the three events that fail a lane. -/
def Obligations.NoLaneFailureInTestOrRest : Prop :=
  ∀ s : State, s.Awake → ∀ (l : LaneId) (lost : Bool), s.laneState l = laneTEST ∨ s.laneState l = laneREST →
  (Gives (.alignLoss l) s fun t => t.laneState l = s.laneState l ∧ t.ln l .LANE_STAT_FAILED = s.ln l .LANE_STAT_FAILED
    ∧
  Within ((Foot.counting .lane).and <| (Foot.fields .lane [.LANE_STAT_CDR_LOCK, .LANE_STAT_ALIGN_LOCK,
    .LANE_STAT_FEC_LOCK, .LANE_STAT_SIG_DET]).and <|
  Foot.numbers [.alignMiss, .alignSeen]) s t) ∧
  (Gives (.cdrLossTimeout l lost) s fun t => t.laneState l = s.laneState l ∧ t.ln l .LANE_STAT_FAILED = s.ln l
    .LANE_STAT_FAILED ∧
  Within ((Foot.counting .lane).and <| (Foot.fields .lane [.LANE_STAT_CDR_LOCK, .LANE_STAT_ALIGN_LOCK,
    .LANE_STAT_FEC_LOCK, .LANE_STAT_SIG_DET]).and <|
  Foot.numbers [.alignMiss, .alignSeen]) s t) ∧
  (Gives (.uncorrectableLimit l) s fun t => t.laneState l = s.laneState l ∧ t.ln l .LANE_STAT_FAILED = s.ln l
    .LANE_STAT_FAILED ∧
  Within ((Foot.counting .lane).and <| (Foot.fields .lane [.LANE_STAT_CDR_LOCK, .LANE_STAT_ALIGN_LOCK,
    .LANE_STAT_FEC_LOCK, .LANE_STAT_SIG_DET]).and <|
  Foot.numbers [.alignMiss, .alignSeen]) s t)

/-- R235. A SEQ has not been sent when fewer frames have been sent than would reach it, or it is not among the last
2,048 (log entry 169). -/
def Obligations.UnsentSequenceNumberIgnored : Prop :=
  ∀ s : State, s.Awake → ∀ (p : PortId) (b : BitVec 64), s.linkRuns p = true → blkCrcOk b = true → s.unsent p (ackSeq
    b) = true →
  (blkByte b 0 = 0x55 → Gives (.ackReceived p b) s fun t => Within (Foot.error .port) s t ∧ (t.rd (.port p)
    .ERR_STICKY_BITS).testBit Err.PORT_SEQ_ERR.bit = true) ∧
  (blkByte b 0 = 0x69 → Gives (.nakReceived p b) s fun t => Within (Foot.error .port) s t ∧ (t.rd (.port p)
    .ERR_STICKY_BITS).testBit Err.PORT_SEQ_ERR.bit = true)

/-- R431. Beside the error and what it raises, only the arbiter's note of its last grant (R78) is new. -/
def Obligations.FabricIdentityFixedWhileLinked : Prop :=
  ∀ s : State, s.Awake → ∀ (st : Stamp) (off : Nat) (v w : Word), off ∈ [0x100, 0x120, 0x124, 0x128, 0x12C] → s.locked
    (.bridge 4) = false → s.fabSet = true → s.pathOpen st = true →
  Gives (.registerWrite st (.space (BitVec.ofNat 26 ((Pg.bridge 4).base + off))) 1 true false v w) s fun t =>
  Within ((Foot.error .bridge).and <| Foot.numbers [.arbLast]) s t ∧ (t.rd (.bridge 4) .ERR_STICKY_BITS).testBit
    Err.FAB_CFG_REFUSED.bit = true

/-- A command to one unit leaves the pages of the other units of its kind as they were. -/
def Obligations.LaneAndChannelIsolation : Prop :=
  ∀ s : State, s.wf →
  (∀ (l : LaneId) (symErrs : Nat), Spares (.codewordReceived l symErrs) s (.lane (l / 8))) ∧
  (∀ (l : LaneId), Spares (.fillerReceived l) s (.lane (l / 8))) ∧
  (∀ (l : LaneId), Spares (.fecDegrade l) s (.lane (l / 8))) ∧
  (∀ (l : LaneId) (req : EqReq), Spares (.coeffApply l req) s (.lane (l / 8))) ∧
  (∀ (l : LaneId), Spares (.eqRespTimeout l) s (.lane (l / 8))) ∧
  (∀ (st : Stamp) (l : LaneId) (v : Word), Spares (.txTapsWrite st l v) s (.lane (l / 8))) ∧
  (∀ (st : Stamp) (l : LaneId) (v : Word), Spares (.eqModeWrite st l v) s (.lane (l / 8))) ∧
  (∀ (l : LaneId) (word : BitVec 64) (n errs : Nat), Spares (.prbsCheckerLock l word n errs) s (.lane (l / 8))) ∧
  (∀ (st : Stamp) (l : LaneId) (v : Word), Spares (.injectOneShot st l v) s (.lane (l / 8))) ∧
  (∀ (l : LaneId), Spares (.injectPeriodic l) s (.lane (l / 8))) ∧
  (∀ (l : LaneId) (eyeV eyeH snr : BitVec 8) (ctle : Fin 32), Spares (.rxAdaptationDone l eyeV eyeH snr ctle) s (.lane
    (l / 8))) ∧
  (∀ (st : Stamp) (l : LaneId) (v : Word), Spares (.laneSlip st l v) s (.lane (l / 8))) ∧
  (∀ (l : LaneId), Spares (.signalDetect l) s (.lane (l / 8))) ∧
  (∀ (l : LaneId), Spares (.alignTransmit l) s (.lane (l / 8))) ∧
  (∀ (l : LaneId), Spares (.restReceived l) s (.lane (l / 8))) ∧
  (∀ (c : ChanId), Spares (.fastTrip c) s (.pwr c)) ∧
  (∀ (c : ChanId), Spares (.ovCut c) s (.pwr c)) ∧
  (∀ (c : ChanId), Spares (.faultTimerExpiry c) s (.pwr c)) ∧
  (∀ (c : ChanId), Spares (.rampTimeout c) s (.pwr c)) ∧
  (∀ (c : ChanId), Spares (.fetOvertemp c) s (.pwr c)) ∧
  (∀ (c : ChanId), Spares (.seatingLoss c) s (.pwr c)) ∧
  (∀ (c : ChanId), Spares (.feedLoss c) s (.pwr c)) ∧
  (∀ (c : ChanId), Spares (.warnLeadExpiry c) s (.pwr c)) ∧
  (∀ (c : ChanId), Spares (.forcedSwitchover c) s (.pwr c)) ∧
  (∀ (c : ChanId), Spares (.revertSwitchover c) s (.pwr c)) ∧
  (∀ (c : ChanId), Spares (.deadTimeExpiry c) s (.pwr c)) ∧
  (∀ (c : ChanId), Spares (.seatingDebounced c) s (.pwr c)) ∧
  (∀ (c : ChanId) (b : Bool), Spares (.insertionDelayExpiry c b) s (.pwr c)) ∧
  (∀ (c : ChanId), Spares (.rampComplete c) s (.pwr c)) ∧
  (∀ (c : ChanId), Spares (.retryPeriodExpiry c) s (.pwr c)) ∧
  (∀ (c : ChanId), Spares (.reverseBlock c) s (.pwr c)) ∧
  (∀ (c : ChanId), Spares (.reverseRelease c) s (.pwr c)) ∧
  (∀ (c : ChanId), Spares (.powerGood c) s (.pwr c)) ∧
  (∀ (c : ChanId), Spares (.retryReloadTimer c) s (.pwr c)) ∧
  (∀ (c : ChanId), Spares (.outputBelowPgThreshold c) s (.pwr c)) ∧
  (∀ (st : Stamp) (c : ChanId) (v : Word), Spares (.channelEnable st c v) s (.pwr c)) ∧
  (∀ (st : Stamp) (c : ChanId) (v : Word), Spares (.channelDisable st c v) s (.pwr c)) ∧
  (∀ (st : Stamp) (c : ChanId) (v : Word), Spares (.channelClear st c v) s (.pwr c)) ∧
  (∀ (st : Stamp) (c : ChanId) (v : Word), Spares (.softwareSwitchover st c v) s (.pwr c)) ∧
  (∀ (c : ChanId) (vout iout vfa vfb : BitVec 16) (tfet : BitVec 8) (limit : Bool), Spares (.telemetrySample c vout
    iout vfa vfb tfet limit) s (.pwr c))

/-- A command to one unit leaves the pages of the other units of its kind as they were. -/
def Obligations.PortListAndRingIsolation : Prop :=
  ∀ s : State, s.wf →
  (∀ (st : Stamp) (p : PortId) (v : Word), Spares (.portCfgApply st p v) s (.port p)) ∧
  (∀ (p : PortId), Spares (.linkDownDwellExpiry p) s (.port p)) ∧
  (∀ (p : PortId), Spares (.trainStateTimeout p) s (.port p)) ∧
  (∀ (p : PortId), Spares (.detectAbsentTimeout p) s (.port p)) ∧
  (∀ (p : PortId) (blk : BitVec 64), Spares (.paramBlockReceived p blk) s (.port p)) ∧
  (∀ (p : PortId) (chainOk debug : Bool), Spares (.authCert p chainOk debug) s (.port p)) ∧
  (∀ (p : PortId) (sigOk : Bool) (owner : BitVec 384) (domain : BitVec 128) (sw port : Nat), Spares (.authProof p
    sigOk owner domain sw port) s (.port p)) ∧
  (∀ (p : PortId) (macOk : Bool), Spares (.authDone p macOk) s (.port p)) ∧
  (∀ (p : PortId) (blk : BitVec 64), Spares (.creditBlockReceived p blk) s (.port p)) ∧
  (∀ (p : PortId) (cls : ClassId) (pool : PoolId), Spares (.creditStallTimeout p cls pool) s (.port p)) ∧
  (∀ (p : PortId) (blk : BitVec 64), Spares (.lanemapReceived p blk) s (.port p)) ∧
  (∀ (p : PortId), Spares (.wideningLanesReady p) s (.port p)) ∧
  (∀ (p : PortId), Spares (.widthChangeTimeout p) s (.port p)) ∧
  (∀ (p : PortId), Spares (.linkLoss p) s (.port p)) ∧
  (∀ (p : PortId), Spares (.restExit p) s (.port p)) ∧
  (∀ (p : PortId) (cls : ClassId) (pool : PoolId), Spares (.creditUpdateSend p cls pool) s (.port p)) ∧
  (∀ (p : PortId) (width : Fin 5) (rate : Fin 6) (flit rev : Bool) (inv : BitVec 16) (aspm : BitVec 2), Spares
    (.pcieLinkUp p width rate flit rev inv aspm) s (.port p)) ∧
  (∀ (p : PortId) (num : Fin 256), Spares (.pcieReplayNumRollover p num) s (.port p)) ∧
  (∀ (st : Stamp) (p : PortId) (v : Word), Spares (.portRetrain st p v) s (.port p)) ∧
  (∀ (st : Stamp) (p : PortId), Spares (.portContain st p) s (.port p)) ∧
  (∀ (p : PortId) (l : LinkStatus), Spares (.linkStatusReceived p l) s (.port p)) ∧
  (∀ (st : Stamp) (p : PortId) (v : Word), Spares (.linkRetire st p v) s (.port p)) ∧
  (∀ (p : PortId), Spares (.retireDrained p) s (.port p)) ∧
  (∀ (p : PortId), Spares (.retireTimeout p) s (.port p)) ∧
  (∀ (p : PortId) (fc : BitVec 3), Spares (.egressFrameBoundary p fc) s (.port p)) ∧
  (∀ (p : PortId), Spares (.restIdleExpiry p) s (.port p)) ∧
  (∀ (p : PortId), Spares (.gateWakeLead p) s (.port p)) ∧
  (∀ (p : PortId) (lf : LinkFrame), Spares (.cycleMarkerReceived p lf) s (.port p)) ∧
  (∀ (p : PortId), Spares (.cycleMarkerSend p) s (.port p)) ∧
  (∀ (p : PortId) (lf : LinkFrame), Spares (.daendFrameReceived p lf) s (.port p)) ∧
  (∀ (p : PortId), Spares (.ackCoalesceExpiry p) s (.port p)) ∧
  (∀ (p : PortId) (blk : BitVec 64), Spares (.ackReceived p blk) s (.port p)) ∧
  (∀ (p : PortId) (blk : BitVec 64), Spares (.nakReceived p blk) s (.port p)) ∧
  (∀ (p : PortId), Spares (.replayTimeout p) s (.port p)) ∧
  (∀ (p : PortId), Spares (.powerQuiesceDrained p) s (.port p)) ∧
  (∀ (p : PortId), Spares (.quiesceUsExpiry p) s (.port p)) ∧
  (∀ (p : PortId), Spares (.dpcHoldExpiry p) s (.port p)) ∧
  (∀ (st : Stamp) (p : PortId) (v : Word), Spares (.hatchLenWrite st p v) s (.sched p)) ∧
  (∀ (st : Stamp) (p : PortId) (v : Word), Spares (.hatchVerifyStart st p v) s (.sched p)) ∧
  (∀ (p : PortId), Spares (.hatchVerifyDone p) s (.sched p)) ∧
  (∀ (p : PortId) (fc : BitVec 3), Spares (.egressFrameBoundary p fc) s (.sched p)) ∧
  (∀ (p : PortId), Spares (.hatchEntry p) s (.sched p)) ∧
  (∀ (st : Stamp) (p : PortId) (v : Word), Spares (.hatchArm st p v) s (.sched p)) ∧
  (∀ (st : Stamp) (p : PortId) (v : Word), Spares (.hatchArmNext st p v) s (.sched p)) ∧
  (∀ (st : Stamp) (p : PortId) (v : Word), Spares (.hatchDisarm st p v) s (.sched p)) ∧
  (∀ (st : Stamp) (n : RingId) (v : Word), Spares (.ringTailWrite st n v) s (.ring n)) ∧
  (∀ (st : Stamp) (n : RingId), Spares (.ringResume st n) s (.ring n)) ∧
  (∀ (n : RingId), Spares (.rehomeDone n) s (.ring n))
end

