-- ==== Sys2Proof/Laws/State.lean ====
section
/-! SUPPORT. One lemma per field of the state, and per way of reading it, for each elementary update and each combinator, so that no
later proof unfolds a record update. -/

namespace Sys2Proof.Machine

/-! ### Combinators -/

@[simp] theorem skip_run (s : State) : skip.run s = s := rfl
@[simp] theorem andThen_run (u v : Upd) (s : State) : (u.andThen v).run s = v.run (u.run s) := rfl
@[simp] theorem all_nil_run (s : State) : (all []).run s = s := rfl
@[simp] theorem all_cons_run (u : Upd) (r : List Upd) (s : State) : (all (u :: r)).run s = (all r).run (u.run s) := rfl
@[simp] theorem look_run (f : State → Upd) (s : State) : (look f).run s = (f s).run s := rfl
@[simp] theorem when_true_run (u : Upd) (s : State) : (when_ true u).run s = u.run s := rfl
@[simp] theorem when_false_run (u : Upd) (s : State) : (when_ false u).run s = s := rfl
theorem when_pos {c : Bool} (h : c = true) (u : Upd) : when_ c u = u := by subst h; rfl
theorem when_neg {c : Bool} (h : c = false) (u : Upd) : when_ c u = skip := by subst h; rfl
@[simp] theorem forEach_nil_run {α : Type} (f : α → Upd) (s : State) : (forEach [] f).run s = s := rfl
@[simp] theorem forEach_cons_run {α : Type} (a : α) (l : List α) (f : α → Upd) (s : State) :
    (forEach (a :: l) f).run s = (forEach l f).run ((f a).run s) := rfl
@[simp] theorem forSome_none_run {α : Type} (f : α → Upd) (s : State) : (forSome none f).run s = s := rfl
@[simp] theorem forSome_some_run {α : Type} (a : α) (f : α → Upd) (s : State) : (forSome (some a) f).run s = (f a).run s := rfl

/-- A run of changes one after another, split in two. -/
theorem all_append_run (a b : List Upd) (s : State) : (all (a ++ b)).run s = (all b).run ((all a).run s) := by
  induction a generalizing s with
  | nil => rfl
  | cons u r ih => simp [ih]

/-- Every update keeps the canonical form of the tables. -/
theorem Upd.keeps_wf (u : Upd) {s : State} (h : s.wf) : (u.run s).wf := (u.ok s).wf h

/-- No update touches the queue of commands. -/
@[simp] theorem Upd.run_pending (u : Upd) (s : State) : (u.run s).pending = s.pending := (u.ok s).pending

/-- What an update to the switch die answers: itself when the die is out of reset, no change otherwise. -/
theorem answer_awake (u : Upd) {s : State} (h : s.ivOn .dieReset = false) : u.answer s = .next (u.run s) := by
  simp [Upd.answer, Upd.always, h]

theorem answer_reset (u : Upd) {s : State} (h : s.ivOn .dieReset = true) : u.answer s = .next s := by
  simp [Upd.answer, Upd.always, h]


/-! ### wr -/

@[simp] theorem wr_now (pg : Pg) (f : Fld) (v i : Nat) (s : State) : ((wr pg f v i).run s).now = s.now := rfl
@[simp] theorem wr_regs (pg : Pg) (f : Fld) (v i : Nat) (s : State) :
    ((wr pg f v i).run s).regs = Map.set s.regs (f.key pg i) (v % 2 ^ f.width) (f.reset pg i) := rfl
@[simp] theorem wr_stampRegs (pg : Pg) (f : Fld) (v i : Nat) (s : State) : ((wr pg f v i).run s).stampRegs = s.stampRegs := rfl
@[simp] theorem wr_cnts (pg : Pg) (f : Fld) (v i : Nat) (s : State) : ((wr pg f v i).run s).cnts = s.cnts := rfl
@[simp] theorem wr_ivs (pg : Pg) (f : Fld) (v i : Nat) (s : State) : ((wr pg f v i).run s).ivs = s.ivs := rfl
@[simp] theorem wr_fifos (pg : Pg) (f : Fld) (v i : Nat) (s : State) : ((wr pg f v i).run s).fifos = s.fifos := rfl
@[simp] theorem wr_arb (pg : Pg) (f : Fld) (v i : Nat) (s : State) : ((wr pg f v i).run s).arb = s.arb := rfl
@[simp] theorem wr_greqs (pg : Pg) (f : Fld) (v i : Nat) (s : State) : ((wr pg f v i).run s).greqs = s.greqs := rfl
@[simp] theorem wr_buf (pg : Pg) (f : Fld) (v i : Nat) (s : State) : ((wr pg f v i).run s).buf = s.buf := rfl
@[simp] theorem wr_waiting (pg : Pg) (f : Fld) (v i : Nat) (s : State) : ((wr pg f v i).run s).waiting = s.waiting := rfl
@[simp] theorem wr_replay (pg : Pg) (f : Fld) (v i : Nat) (s : State) : ((wr pg f v i).run s).replay = s.replay := rfl
@[simp] theorem wr_txs (pg : Pg) (f : Fld) (v i : Nat) (s : State) : ((wr pg f v i).run s).txs = s.txs := rfl
@[simp] theorem wr_rxs (pg : Pg) (f : Fld) (v i : Nat) (s : State) : ((wr pg f v i).run s).rxs = s.rxs := rfl
@[simp] theorem wr_slots (pg : Pg) (f : Fld) (v i : Nat) (s : State) : ((wr pg f v i).run s).slots = s.slots := rfl
@[simp] theorem wr_fwd (pg : Pg) (f : Fld) (v i : Nat) (s : State) : ((wr pg f v i).run s).fwd = s.fwd := rfl
@[simp] theorem wr_prefs (pg : Pg) (f : Fld) (v i : Nat) (s : State) : ((wr pg f v i).run s).prefs = s.prefs := rfl
@[simp] theorem wr_descs (pg : Pg) (f : Fld) (v i : Nat) (s : State) : ((wr pg f v i).run s).descs = s.descs := rfl
@[simp] theorem wr_coders (pg : Pg) (f : Fld) (v i : Nat) (s : State) : ((wr pg f v i).run s).coders = s.coders := rfl
@[simp] theorem wr_out (pg : Pg) (f : Fld) (v i : Nat) (s : State) : ((wr pg f v i).run s).out = s.out := rfl
@[simp] theorem wr_free (pg : Pg) (f : Fld) (v i : Nat) (s : State) : ((wr pg f v i).run s).free = s.free := rfl
@[simp] theorem wr_run_rdSt (pg : Pg) (f : Fld) (v i : Nat) (s : State) (st' : Nat) (pg' : Pg) (f' : Fld) (i' : Nat) :
    ((wr pg f v i).run s).rdSt st' pg' f' i' = s.rdSt st' pg' f' i' := rfl
@[simp] theorem wr_run_iv (pg : Pg) (f : Fld) (v i : Nat) (s : State) (x' : Var) (i' : Nat) :
    ((wr pg f v i).run s).iv x' i' = s.iv x' i' := rfl
@[simp] theorem wr_run_fifo (pg : Pg) (f : Fld) (v i : Nat) (s : State) (q' : Fifo) (i' : Nat) :
    ((wr pg f v i).run s).fifo q' i' = s.fifo q' i' := rfl
@[simp] theorem wr_run_cnt (pg : Pg) (f : Fld) (v i : Nat) (s : State) (pg' : Pg) (i' : Nat) :
    ((wr pg f v i).run s).cnt pg' i' = s.cnt pg' i' := rfl
@[simp] theorem wr_run_coder (pg : Pg) (f : Fld) (v i : Nat) (s : State) (l' : Nat) :
    ((wr pg f v i).run s).coder l' = s.coder l' := rfl
@[simp] theorem wr_run_arbAt (pg : Pg) (f : Fld) (v i : Nat) (s : State) (k' : Nat) :
    ((wr pg f v i).run s).arbAt k' = s.arbAt k' := rfl

/-! ### wrSt -/

@[simp] theorem wrSt_now (st : Nat) (pg : Pg) (f : Fld) (v i : Nat) (s : State) : ((wrSt st pg f v i).run s).now = s.now := rfl
@[simp] theorem wrSt_regs (st : Nat) (pg : Pg) (f : Fld) (v i : Nat) (s : State) : ((wrSt st pg f v i).run s).regs = s.regs := rfl
@[simp] theorem wrSt_stampRegs (st : Nat) (pg : Pg) (f : Fld) (v i : Nat) (s : State) :
    ((wrSt st pg f v i).run s).stampRegs = Map.set s.stampRegs (stampKey st (f.key pg i)) (v % 2 ^ f.width) (f.reset pg i) := rfl
@[simp] theorem wrSt_cnts (st : Nat) (pg : Pg) (f : Fld) (v i : Nat) (s : State) : ((wrSt st pg f v i).run s).cnts = s.cnts := rfl
@[simp] theorem wrSt_ivs (st : Nat) (pg : Pg) (f : Fld) (v i : Nat) (s : State) : ((wrSt st pg f v i).run s).ivs = s.ivs := rfl
@[simp] theorem wrSt_fifos (st : Nat) (pg : Pg) (f : Fld) (v i : Nat) (s : State) :
    ((wrSt st pg f v i).run s).fifos = s.fifos := rfl
@[simp] theorem wrSt_arb (st : Nat) (pg : Pg) (f : Fld) (v i : Nat) (s : State) : ((wrSt st pg f v i).run s).arb = s.arb := rfl
@[simp] theorem wrSt_greqs (st : Nat) (pg : Pg) (f : Fld) (v i : Nat) (s : State) :
    ((wrSt st pg f v i).run s).greqs = s.greqs := rfl
@[simp] theorem wrSt_buf (st : Nat) (pg : Pg) (f : Fld) (v i : Nat) (s : State) : ((wrSt st pg f v i).run s).buf = s.buf := rfl
@[simp] theorem wrSt_waiting (st : Nat) (pg : Pg) (f : Fld) (v i : Nat) (s : State) :
    ((wrSt st pg f v i).run s).waiting = s.waiting := rfl
@[simp] theorem wrSt_replay (st : Nat) (pg : Pg) (f : Fld) (v i : Nat) (s : State) :
    ((wrSt st pg f v i).run s).replay = s.replay := rfl
@[simp] theorem wrSt_txs (st : Nat) (pg : Pg) (f : Fld) (v i : Nat) (s : State) : ((wrSt st pg f v i).run s).txs = s.txs := rfl
@[simp] theorem wrSt_rxs (st : Nat) (pg : Pg) (f : Fld) (v i : Nat) (s : State) : ((wrSt st pg f v i).run s).rxs = s.rxs := rfl
@[simp] theorem wrSt_slots (st : Nat) (pg : Pg) (f : Fld) (v i : Nat) (s : State) :
    ((wrSt st pg f v i).run s).slots = s.slots := rfl
@[simp] theorem wrSt_fwd (st : Nat) (pg : Pg) (f : Fld) (v i : Nat) (s : State) : ((wrSt st pg f v i).run s).fwd = s.fwd := rfl
@[simp] theorem wrSt_prefs (st : Nat) (pg : Pg) (f : Fld) (v i : Nat) (s : State) :
    ((wrSt st pg f v i).run s).prefs = s.prefs := rfl
@[simp] theorem wrSt_descs (st : Nat) (pg : Pg) (f : Fld) (v i : Nat) (s : State) :
    ((wrSt st pg f v i).run s).descs = s.descs := rfl
@[simp] theorem wrSt_coders (st : Nat) (pg : Pg) (f : Fld) (v i : Nat) (s : State) :
    ((wrSt st pg f v i).run s).coders = s.coders := rfl
@[simp] theorem wrSt_out (st : Nat) (pg : Pg) (f : Fld) (v i : Nat) (s : State) : ((wrSt st pg f v i).run s).out = s.out := rfl
@[simp] theorem wrSt_free (st : Nat) (pg : Pg) (f : Fld) (v i : Nat) (s : State) : ((wrSt st pg f v i).run s).free = s.free := rfl
@[simp] theorem wrSt_run_rd (st : Nat) (pg : Pg) (f : Fld) (v i : Nat) (s : State) (pg' : Pg) (f' : Fld) (i' : Nat) :
    ((wrSt st pg f v i).run s).rd pg' f' i' = s.rd pg' f' i' := rfl
@[simp] theorem wrSt_run_iv (st : Nat) (pg : Pg) (f : Fld) (v i : Nat) (s : State) (x' : Var) (i' : Nat) :
    ((wrSt st pg f v i).run s).iv x' i' = s.iv x' i' := rfl
@[simp] theorem wrSt_run_fifo (st : Nat) (pg : Pg) (f : Fld) (v i : Nat) (s : State) (q' : Fifo) (i' : Nat) :
    ((wrSt st pg f v i).run s).fifo q' i' = s.fifo q' i' := rfl
@[simp] theorem wrSt_run_cnt (st : Nat) (pg : Pg) (f : Fld) (v i : Nat) (s : State) (pg' : Pg) (i' : Nat) :
    ((wrSt st pg f v i).run s).cnt pg' i' = s.cnt pg' i' := rfl
@[simp] theorem wrSt_run_coder (st : Nat) (pg : Pg) (f : Fld) (v i : Nat) (s : State) (l' : Nat) :
    ((wrSt st pg f v i).run s).coder l' = s.coder l' := rfl
@[simp] theorem wrSt_run_arbAt (st : Nat) (pg : Pg) (f : Fld) (v i : Nat) (s : State) (k' : Nat) :
    ((wrSt st pg f v i).run s).arbAt k' = s.arbAt k' := rfl

/-! ### put -/

@[simp] theorem put_now (x : Var) (v i : Nat) (s : State) : ((put x v i).run s).now = s.now := rfl
@[simp] theorem put_regs (x : Var) (v i : Nat) (s : State) : ((put x v i).run s).regs = s.regs := rfl
@[simp] theorem put_stampRegs (x : Var) (v i : Nat) (s : State) : ((put x v i).run s).stampRegs = s.stampRegs := rfl
@[simp] theorem put_cnts (x : Var) (v i : Nat) (s : State) : ((put x v i).run s).cnts = s.cnts := rfl
@[simp] theorem put_ivs (x : Var) (v i : Nat) (s : State) : ((put x v i).run s).ivs = Map.set s.ivs (x.key i) v 0 := rfl
@[simp] theorem put_fifos (x : Var) (v i : Nat) (s : State) : ((put x v i).run s).fifos = s.fifos := rfl
@[simp] theorem put_arb (x : Var) (v i : Nat) (s : State) : ((put x v i).run s).arb = s.arb := rfl
@[simp] theorem put_greqs (x : Var) (v i : Nat) (s : State) : ((put x v i).run s).greqs = s.greqs := rfl
@[simp] theorem put_buf (x : Var) (v i : Nat) (s : State) : ((put x v i).run s).buf = s.buf := rfl
@[simp] theorem put_waiting (x : Var) (v i : Nat) (s : State) : ((put x v i).run s).waiting = s.waiting := rfl
@[simp] theorem put_replay (x : Var) (v i : Nat) (s : State) : ((put x v i).run s).replay = s.replay := rfl
@[simp] theorem put_txs (x : Var) (v i : Nat) (s : State) : ((put x v i).run s).txs = s.txs := rfl
@[simp] theorem put_rxs (x : Var) (v i : Nat) (s : State) : ((put x v i).run s).rxs = s.rxs := rfl
@[simp] theorem put_slots (x : Var) (v i : Nat) (s : State) : ((put x v i).run s).slots = s.slots := rfl
@[simp] theorem put_fwd (x : Var) (v i : Nat) (s : State) : ((put x v i).run s).fwd = s.fwd := rfl
@[simp] theorem put_prefs (x : Var) (v i : Nat) (s : State) : ((put x v i).run s).prefs = s.prefs := rfl
@[simp] theorem put_descs (x : Var) (v i : Nat) (s : State) : ((put x v i).run s).descs = s.descs := rfl
@[simp] theorem put_coders (x : Var) (v i : Nat) (s : State) : ((put x v i).run s).coders = s.coders := rfl
@[simp] theorem put_out (x : Var) (v i : Nat) (s : State) : ((put x v i).run s).out = s.out := rfl
@[simp] theorem put_free (x : Var) (v i : Nat) (s : State) : ((put x v i).run s).free = s.free := rfl
@[simp] theorem put_run_rd (x : Var) (v i : Nat) (s : State) (pg' : Pg) (f' : Fld) (i' : Nat) :
    ((put x v i).run s).rd pg' f' i' = s.rd pg' f' i' := rfl
@[simp] theorem put_run_rdSt (x : Var) (v i : Nat) (s : State) (st' : Nat) (pg' : Pg) (f' : Fld) (i' : Nat) :
    ((put x v i).run s).rdSt st' pg' f' i' = s.rdSt st' pg' f' i' := rfl
@[simp] theorem put_run_fifo (x : Var) (v i : Nat) (s : State) (q' : Fifo) (i' : Nat) :
    ((put x v i).run s).fifo q' i' = s.fifo q' i' := rfl
@[simp] theorem put_run_cnt (x : Var) (v i : Nat) (s : State) (pg' : Pg) (i' : Nat) :
    ((put x v i).run s).cnt pg' i' = s.cnt pg' i' := rfl
@[simp] theorem put_run_coder (x : Var) (v i : Nat) (s : State) (l' : Nat) : ((put x v i).run s).coder l' = s.coder l' := rfl
@[simp] theorem put_run_arbAt (x : Var) (v i : Nat) (s : State) (k' : Nat) : ((put x v i).run s).arbAt k' = s.arbAt k' := rfl

/-! ### clearIv -/

@[simp] theorem clearIv_now (x : Var) (p : Nat → Bool) (s : State) : ((clearIv x p).run s).now = s.now := rfl
@[simp] theorem clearIv_regs (x : Var) (p : Nat → Bool) (s : State) : ((clearIv x p).run s).regs = s.regs := rfl
@[simp] theorem clearIv_stampRegs (x : Var) (p : Nat → Bool) (s : State) : ((clearIv x p).run s).stampRegs = s.stampRegs := rfl
@[simp] theorem clearIv_cnts (x : Var) (p : Nat → Bool) (s : State) : ((clearIv x p).run s).cnts = s.cnts := rfl
@[simp] theorem clearIv_ivs (x : Var) (p : Nat → Bool) (s : State) :
    ((clearIv x p).run s).ivs = Map.keep s.ivs (outside x.ctorIdx p) := rfl
@[simp] theorem clearIv_fifos (x : Var) (p : Nat → Bool) (s : State) : ((clearIv x p).run s).fifos = s.fifos := rfl
@[simp] theorem clearIv_arb (x : Var) (p : Nat → Bool) (s : State) : ((clearIv x p).run s).arb = s.arb := rfl
@[simp] theorem clearIv_greqs (x : Var) (p : Nat → Bool) (s : State) : ((clearIv x p).run s).greqs = s.greqs := rfl
@[simp] theorem clearIv_buf (x : Var) (p : Nat → Bool) (s : State) : ((clearIv x p).run s).buf = s.buf := rfl
@[simp] theorem clearIv_waiting (x : Var) (p : Nat → Bool) (s : State) : ((clearIv x p).run s).waiting = s.waiting := rfl
@[simp] theorem clearIv_replay (x : Var) (p : Nat → Bool) (s : State) : ((clearIv x p).run s).replay = s.replay := rfl
@[simp] theorem clearIv_txs (x : Var) (p : Nat → Bool) (s : State) : ((clearIv x p).run s).txs = s.txs := rfl
@[simp] theorem clearIv_rxs (x : Var) (p : Nat → Bool) (s : State) : ((clearIv x p).run s).rxs = s.rxs := rfl
@[simp] theorem clearIv_slots (x : Var) (p : Nat → Bool) (s : State) : ((clearIv x p).run s).slots = s.slots := rfl
@[simp] theorem clearIv_fwd (x : Var) (p : Nat → Bool) (s : State) : ((clearIv x p).run s).fwd = s.fwd := rfl
@[simp] theorem clearIv_prefs (x : Var) (p : Nat → Bool) (s : State) : ((clearIv x p).run s).prefs = s.prefs := rfl
@[simp] theorem clearIv_descs (x : Var) (p : Nat → Bool) (s : State) : ((clearIv x p).run s).descs = s.descs := rfl
@[simp] theorem clearIv_coders (x : Var) (p : Nat → Bool) (s : State) : ((clearIv x p).run s).coders = s.coders := rfl
@[simp] theorem clearIv_out (x : Var) (p : Nat → Bool) (s : State) : ((clearIv x p).run s).out = s.out := rfl
@[simp] theorem clearIv_free (x : Var) (p : Nat → Bool) (s : State) : ((clearIv x p).run s).free = s.free := rfl
@[simp] theorem clearIv_run_rd (x : Var) (p : Nat → Bool) (s : State) (pg' : Pg) (f' : Fld) (i' : Nat) :
    ((clearIv x p).run s).rd pg' f' i' = s.rd pg' f' i' := rfl
@[simp] theorem clearIv_run_rdSt (x : Var) (p : Nat → Bool) (s : State) (st' : Nat) (pg' : Pg) (f' : Fld) (i' : Nat) :
    ((clearIv x p).run s).rdSt st' pg' f' i' = s.rdSt st' pg' f' i' := rfl
@[simp] theorem clearIv_run_fifo (x : Var) (p : Nat → Bool) (s : State) (q' : Fifo) (i' : Nat) :
    ((clearIv x p).run s).fifo q' i' = s.fifo q' i' := rfl
@[simp] theorem clearIv_run_cnt (x : Var) (p : Nat → Bool) (s : State) (pg' : Pg) (i' : Nat) :
    ((clearIv x p).run s).cnt pg' i' = s.cnt pg' i' := rfl
@[simp] theorem clearIv_run_coder (x : Var) (p : Nat → Bool) (s : State) (l' : Nat) :
    ((clearIv x p).run s).coder l' = s.coder l' := rfl
@[simp] theorem clearIv_run_arbAt (x : Var) (p : Nat → Bool) (s : State) (k' : Nat) :
    ((clearIv x p).run s).arbAt k' = s.arbAt k' := rfl

/-! ### putFifo -/

@[simp] theorem putFifo_now (q : Fifo) (l : List Nat) (i : Nat) (s : State) : ((putFifo q l i).run s).now = s.now := rfl
@[simp] theorem putFifo_regs (q : Fifo) (l : List Nat) (i : Nat) (s : State) : ((putFifo q l i).run s).regs = s.regs := rfl
@[simp] theorem putFifo_stampRegs (q : Fifo) (l : List Nat) (i : Nat) (s : State) :
    ((putFifo q l i).run s).stampRegs = s.stampRegs := rfl
@[simp] theorem putFifo_cnts (q : Fifo) (l : List Nat) (i : Nat) (s : State) : ((putFifo q l i).run s).cnts = s.cnts := rfl
@[simp] theorem putFifo_ivs (q : Fifo) (l : List Nat) (i : Nat) (s : State) : ((putFifo q l i).run s).ivs = s.ivs := rfl
@[simp] theorem putFifo_fifos (q : Fifo) (l : List Nat) (i : Nat) (s : State) :
    ((putFifo q l i).run s).fifos = Map.set s.fifos (q.key i) l [] := rfl
@[simp] theorem putFifo_arb (q : Fifo) (l : List Nat) (i : Nat) (s : State) : ((putFifo q l i).run s).arb = s.arb := rfl
@[simp] theorem putFifo_greqs (q : Fifo) (l : List Nat) (i : Nat) (s : State) : ((putFifo q l i).run s).greqs = s.greqs := rfl
@[simp] theorem putFifo_buf (q : Fifo) (l : List Nat) (i : Nat) (s : State) : ((putFifo q l i).run s).buf = s.buf := rfl
@[simp] theorem putFifo_waiting (q : Fifo) (l : List Nat) (i : Nat) (s : State) :
    ((putFifo q l i).run s).waiting = s.waiting := rfl
@[simp] theorem putFifo_replay (q : Fifo) (l : List Nat) (i : Nat) (s : State) : ((putFifo q l i).run s).replay = s.replay := rfl
@[simp] theorem putFifo_txs (q : Fifo) (l : List Nat) (i : Nat) (s : State) : ((putFifo q l i).run s).txs = s.txs := rfl
@[simp] theorem putFifo_rxs (q : Fifo) (l : List Nat) (i : Nat) (s : State) : ((putFifo q l i).run s).rxs = s.rxs := rfl
@[simp] theorem putFifo_slots (q : Fifo) (l : List Nat) (i : Nat) (s : State) : ((putFifo q l i).run s).slots = s.slots := rfl
@[simp] theorem putFifo_fwd (q : Fifo) (l : List Nat) (i : Nat) (s : State) : ((putFifo q l i).run s).fwd = s.fwd := rfl
@[simp] theorem putFifo_prefs (q : Fifo) (l : List Nat) (i : Nat) (s : State) : ((putFifo q l i).run s).prefs = s.prefs := rfl
@[simp] theorem putFifo_descs (q : Fifo) (l : List Nat) (i : Nat) (s : State) : ((putFifo q l i).run s).descs = s.descs := rfl
@[simp] theorem putFifo_coders (q : Fifo) (l : List Nat) (i : Nat) (s : State) : ((putFifo q l i).run s).coders = s.coders := rfl
@[simp] theorem putFifo_out (q : Fifo) (l : List Nat) (i : Nat) (s : State) : ((putFifo q l i).run s).out = s.out := rfl
@[simp] theorem putFifo_free (q : Fifo) (l : List Nat) (i : Nat) (s : State) : ((putFifo q l i).run s).free = s.free := rfl
@[simp] theorem putFifo_run_rd (q : Fifo) (l : List Nat) (i : Nat) (s : State) (pg' : Pg) (f' : Fld) (i' : Nat) :
    ((putFifo q l i).run s).rd pg' f' i' = s.rd pg' f' i' := rfl
@[simp] theorem putFifo_run_rdSt (q : Fifo) (l : List Nat) (i : Nat) (s : State) (st' : Nat) (pg' : Pg) (f' : Fld) (i' : Nat) :
    ((putFifo q l i).run s).rdSt st' pg' f' i' = s.rdSt st' pg' f' i' := rfl
@[simp] theorem putFifo_run_iv (q : Fifo) (l : List Nat) (i : Nat) (s : State) (x' : Var) (i' : Nat) :
    ((putFifo q l i).run s).iv x' i' = s.iv x' i' := rfl
@[simp] theorem putFifo_run_cnt (q : Fifo) (l : List Nat) (i : Nat) (s : State) (pg' : Pg) (i' : Nat) :
    ((putFifo q l i).run s).cnt pg' i' = s.cnt pg' i' := rfl
@[simp] theorem putFifo_run_coder (q : Fifo) (l : List Nat) (i : Nat) (s : State) (l' : Nat) :
    ((putFifo q l i).run s).coder l' = s.coder l' := rfl
@[simp] theorem putFifo_run_arbAt (q : Fifo) (l : List Nat) (i : Nat) (s : State) (k' : Nat) :
    ((putFifo q l i).run s).arbAt k' = s.arbAt k' := rfl

/-! ### clearFifo -/

@[simp] theorem clearFifo_now (q : Fifo) (p : Nat → Bool) (s : State) : ((clearFifo q p).run s).now = s.now := rfl
@[simp] theorem clearFifo_regs (q : Fifo) (p : Nat → Bool) (s : State) : ((clearFifo q p).run s).regs = s.regs := rfl
@[simp] theorem clearFifo_stampRegs (q : Fifo) (p : Nat → Bool) (s : State) :
    ((clearFifo q p).run s).stampRegs = s.stampRegs := rfl
@[simp] theorem clearFifo_cnts (q : Fifo) (p : Nat → Bool) (s : State) : ((clearFifo q p).run s).cnts = s.cnts := rfl
@[simp] theorem clearFifo_ivs (q : Fifo) (p : Nat → Bool) (s : State) : ((clearFifo q p).run s).ivs = s.ivs := rfl
@[simp] theorem clearFifo_fifos (q : Fifo) (p : Nat → Bool) (s : State) :
    ((clearFifo q p).run s).fifos = Map.keep s.fifos (outside q.ctorIdx p) := rfl
@[simp] theorem clearFifo_arb (q : Fifo) (p : Nat → Bool) (s : State) : ((clearFifo q p).run s).arb = s.arb := rfl
@[simp] theorem clearFifo_greqs (q : Fifo) (p : Nat → Bool) (s : State) : ((clearFifo q p).run s).greqs = s.greqs := rfl
@[simp] theorem clearFifo_buf (q : Fifo) (p : Nat → Bool) (s : State) : ((clearFifo q p).run s).buf = s.buf := rfl
@[simp] theorem clearFifo_waiting (q : Fifo) (p : Nat → Bool) (s : State) : ((clearFifo q p).run s).waiting = s.waiting := rfl
@[simp] theorem clearFifo_replay (q : Fifo) (p : Nat → Bool) (s : State) : ((clearFifo q p).run s).replay = s.replay := rfl
@[simp] theorem clearFifo_txs (q : Fifo) (p : Nat → Bool) (s : State) : ((clearFifo q p).run s).txs = s.txs := rfl
@[simp] theorem clearFifo_rxs (q : Fifo) (p : Nat → Bool) (s : State) : ((clearFifo q p).run s).rxs = s.rxs := rfl
@[simp] theorem clearFifo_slots (q : Fifo) (p : Nat → Bool) (s : State) : ((clearFifo q p).run s).slots = s.slots := rfl
@[simp] theorem clearFifo_fwd (q : Fifo) (p : Nat → Bool) (s : State) : ((clearFifo q p).run s).fwd = s.fwd := rfl
@[simp] theorem clearFifo_prefs (q : Fifo) (p : Nat → Bool) (s : State) : ((clearFifo q p).run s).prefs = s.prefs := rfl
@[simp] theorem clearFifo_descs (q : Fifo) (p : Nat → Bool) (s : State) : ((clearFifo q p).run s).descs = s.descs := rfl
@[simp] theorem clearFifo_coders (q : Fifo) (p : Nat → Bool) (s : State) : ((clearFifo q p).run s).coders = s.coders := rfl
@[simp] theorem clearFifo_out (q : Fifo) (p : Nat → Bool) (s : State) : ((clearFifo q p).run s).out = s.out := rfl
@[simp] theorem clearFifo_free (q : Fifo) (p : Nat → Bool) (s : State) : ((clearFifo q p).run s).free = s.free := rfl
@[simp] theorem clearFifo_run_rd (q : Fifo) (p : Nat → Bool) (s : State) (pg' : Pg) (f' : Fld) (i' : Nat) :
    ((clearFifo q p).run s).rd pg' f' i' = s.rd pg' f' i' := rfl
@[simp] theorem clearFifo_run_rdSt (q : Fifo) (p : Nat → Bool) (s : State) (st' : Nat) (pg' : Pg) (f' : Fld) (i' : Nat) :
    ((clearFifo q p).run s).rdSt st' pg' f' i' = s.rdSt st' pg' f' i' := rfl
@[simp] theorem clearFifo_run_iv (q : Fifo) (p : Nat → Bool) (s : State) (x' : Var) (i' : Nat) :
    ((clearFifo q p).run s).iv x' i' = s.iv x' i' := rfl
@[simp] theorem clearFifo_run_cnt (q : Fifo) (p : Nat → Bool) (s : State) (pg' : Pg) (i' : Nat) :
    ((clearFifo q p).run s).cnt pg' i' = s.cnt pg' i' := rfl
@[simp] theorem clearFifo_run_coder (q : Fifo) (p : Nat → Bool) (s : State) (l' : Nat) :
    ((clearFifo q p).run s).coder l' = s.coder l' := rfl
@[simp] theorem clearFifo_run_arbAt (q : Fifo) (p : Nat → Bool) (s : State) (k' : Nat) :
    ((clearFifo q p).run s).arbAt k' = s.arbAt k' := rfl

/-! ### setCnt -/

@[simp] theorem setCnt_now (pg : Pg) (i v : Nat) (s : State) : ((setCnt pg i v).run s).now = s.now := rfl
@[simp] theorem setCnt_regs (pg : Pg) (i v : Nat) (s : State) : ((setCnt pg i v).run s).regs = s.regs := rfl
@[simp] theorem setCnt_stampRegs (pg : Pg) (i v : Nat) (s : State) : ((setCnt pg i v).run s).stampRegs = s.stampRegs := rfl
@[simp] theorem setCnt_cnts (pg : Pg) (i v : Nat) (s : State) :
    ((setCnt pg i v).run s).cnts = Map.set s.cnts (cntKey pg i) (min v cntMax) 0 := rfl
@[simp] theorem setCnt_ivs (pg : Pg) (i v : Nat) (s : State) : ((setCnt pg i v).run s).ivs = s.ivs := rfl
@[simp] theorem setCnt_fifos (pg : Pg) (i v : Nat) (s : State) : ((setCnt pg i v).run s).fifos = s.fifos := rfl
@[simp] theorem setCnt_arb (pg : Pg) (i v : Nat) (s : State) : ((setCnt pg i v).run s).arb = s.arb := rfl
@[simp] theorem setCnt_greqs (pg : Pg) (i v : Nat) (s : State) : ((setCnt pg i v).run s).greqs = s.greqs := rfl
@[simp] theorem setCnt_buf (pg : Pg) (i v : Nat) (s : State) : ((setCnt pg i v).run s).buf = s.buf := rfl
@[simp] theorem setCnt_waiting (pg : Pg) (i v : Nat) (s : State) : ((setCnt pg i v).run s).waiting = s.waiting := rfl
@[simp] theorem setCnt_replay (pg : Pg) (i v : Nat) (s : State) : ((setCnt pg i v).run s).replay = s.replay := rfl
@[simp] theorem setCnt_txs (pg : Pg) (i v : Nat) (s : State) : ((setCnt pg i v).run s).txs = s.txs := rfl
@[simp] theorem setCnt_rxs (pg : Pg) (i v : Nat) (s : State) : ((setCnt pg i v).run s).rxs = s.rxs := rfl
@[simp] theorem setCnt_slots (pg : Pg) (i v : Nat) (s : State) : ((setCnt pg i v).run s).slots = s.slots := rfl
@[simp] theorem setCnt_fwd (pg : Pg) (i v : Nat) (s : State) : ((setCnt pg i v).run s).fwd = s.fwd := rfl
@[simp] theorem setCnt_prefs (pg : Pg) (i v : Nat) (s : State) : ((setCnt pg i v).run s).prefs = s.prefs := rfl
@[simp] theorem setCnt_descs (pg : Pg) (i v : Nat) (s : State) : ((setCnt pg i v).run s).descs = s.descs := rfl
@[simp] theorem setCnt_coders (pg : Pg) (i v : Nat) (s : State) : ((setCnt pg i v).run s).coders = s.coders := rfl
@[simp] theorem setCnt_out (pg : Pg) (i v : Nat) (s : State) : ((setCnt pg i v).run s).out = s.out := rfl
@[simp] theorem setCnt_free (pg : Pg) (i v : Nat) (s : State) : ((setCnt pg i v).run s).free = s.free := rfl
@[simp] theorem setCnt_run_rd (pg : Pg) (i v : Nat) (s : State) (pg' : Pg) (f' : Fld) (i' : Nat) :
    ((setCnt pg i v).run s).rd pg' f' i' = s.rd pg' f' i' := rfl
@[simp] theorem setCnt_run_rdSt (pg : Pg) (i v : Nat) (s : State) (st' : Nat) (pg' : Pg) (f' : Fld) (i' : Nat) :
    ((setCnt pg i v).run s).rdSt st' pg' f' i' = s.rdSt st' pg' f' i' := rfl
@[simp] theorem setCnt_run_iv (pg : Pg) (i v : Nat) (s : State) (x' : Var) (i' : Nat) :
    ((setCnt pg i v).run s).iv x' i' = s.iv x' i' := rfl
@[simp] theorem setCnt_run_fifo (pg : Pg) (i v : Nat) (s : State) (q' : Fifo) (i' : Nat) :
    ((setCnt pg i v).run s).fifo q' i' = s.fifo q' i' := rfl
@[simp] theorem setCnt_run_coder (pg : Pg) (i v : Nat) (s : State) (l' : Nat) :
    ((setCnt pg i v).run s).coder l' = s.coder l' := rfl
@[simp] theorem setCnt_run_arbAt (pg : Pg) (i v : Nat) (s : State) (k' : Nat) :
    ((setCnt pg i v).run s).arbAt k' = s.arbAt k' := rfl

/-! ### clearCnts -/

@[simp] theorem clearCnts_now (pg : Pg) (p : Nat → Bool) (s : State) : ((clearCnts pg p).run s).now = s.now := rfl
@[simp] theorem clearCnts_regs (pg : Pg) (p : Nat → Bool) (s : State) : ((clearCnts pg p).run s).regs = s.regs := rfl
@[simp] theorem clearCnts_stampRegs (pg : Pg) (p : Nat → Bool) (s : State) :
    ((clearCnts pg p).run s).stampRegs = s.stampRegs := rfl
@[simp] theorem clearCnts_cnts (pg : Pg) (p : Nat → Bool) (s : State) :
    ((clearCnts pg p).run s).cnts = Map.keep s.cnts (otherCnt pg p) := rfl
@[simp] theorem clearCnts_ivs (pg : Pg) (p : Nat → Bool) (s : State) : ((clearCnts pg p).run s).ivs = s.ivs := rfl
@[simp] theorem clearCnts_fifos (pg : Pg) (p : Nat → Bool) (s : State) : ((clearCnts pg p).run s).fifos = s.fifos := rfl
@[simp] theorem clearCnts_arb (pg : Pg) (p : Nat → Bool) (s : State) : ((clearCnts pg p).run s).arb = s.arb := rfl
@[simp] theorem clearCnts_greqs (pg : Pg) (p : Nat → Bool) (s : State) : ((clearCnts pg p).run s).greqs = s.greqs := rfl
@[simp] theorem clearCnts_buf (pg : Pg) (p : Nat → Bool) (s : State) : ((clearCnts pg p).run s).buf = s.buf := rfl
@[simp] theorem clearCnts_waiting (pg : Pg) (p : Nat → Bool) (s : State) : ((clearCnts pg p).run s).waiting = s.waiting := rfl
@[simp] theorem clearCnts_replay (pg : Pg) (p : Nat → Bool) (s : State) : ((clearCnts pg p).run s).replay = s.replay := rfl
@[simp] theorem clearCnts_txs (pg : Pg) (p : Nat → Bool) (s : State) : ((clearCnts pg p).run s).txs = s.txs := rfl
@[simp] theorem clearCnts_rxs (pg : Pg) (p : Nat → Bool) (s : State) : ((clearCnts pg p).run s).rxs = s.rxs := rfl
@[simp] theorem clearCnts_slots (pg : Pg) (p : Nat → Bool) (s : State) : ((clearCnts pg p).run s).slots = s.slots := rfl
@[simp] theorem clearCnts_fwd (pg : Pg) (p : Nat → Bool) (s : State) : ((clearCnts pg p).run s).fwd = s.fwd := rfl
@[simp] theorem clearCnts_prefs (pg : Pg) (p : Nat → Bool) (s : State) : ((clearCnts pg p).run s).prefs = s.prefs := rfl
@[simp] theorem clearCnts_descs (pg : Pg) (p : Nat → Bool) (s : State) : ((clearCnts pg p).run s).descs = s.descs := rfl
@[simp] theorem clearCnts_coders (pg : Pg) (p : Nat → Bool) (s : State) : ((clearCnts pg p).run s).coders = s.coders := rfl
@[simp] theorem clearCnts_out (pg : Pg) (p : Nat → Bool) (s : State) : ((clearCnts pg p).run s).out = s.out := rfl
@[simp] theorem clearCnts_free (pg : Pg) (p : Nat → Bool) (s : State) : ((clearCnts pg p).run s).free = s.free := rfl
@[simp] theorem clearCnts_run_rd (pg : Pg) (p : Nat → Bool) (s : State) (pg' : Pg) (f' : Fld) (i' : Nat) :
    ((clearCnts pg p).run s).rd pg' f' i' = s.rd pg' f' i' := rfl
@[simp] theorem clearCnts_run_rdSt (pg : Pg) (p : Nat → Bool) (s : State) (st' : Nat) (pg' : Pg) (f' : Fld) (i' : Nat) :
    ((clearCnts pg p).run s).rdSt st' pg' f' i' = s.rdSt st' pg' f' i' := rfl
@[simp] theorem clearCnts_run_iv (pg : Pg) (p : Nat → Bool) (s : State) (x' : Var) (i' : Nat) :
    ((clearCnts pg p).run s).iv x' i' = s.iv x' i' := rfl
@[simp] theorem clearCnts_run_fifo (pg : Pg) (p : Nat → Bool) (s : State) (q' : Fifo) (i' : Nat) :
    ((clearCnts pg p).run s).fifo q' i' = s.fifo q' i' := rfl
@[simp] theorem clearCnts_run_coder (pg : Pg) (p : Nat → Bool) (s : State) (l' : Nat) :
    ((clearCnts pg p).run s).coder l' = s.coder l' := rfl
@[simp] theorem clearCnts_run_arbAt (pg : Pg) (p : Nat → Bool) (s : State) (k' : Nat) :
    ((clearCnts pg p).run s).arbAt k' = s.arbAt k' := rfl

/-! ### raiseArb -/

@[simp] theorem raiseArb_now (k v : Nat) (s : State) : ((raiseArb k v).run s).now = s.now := rfl
@[simp] theorem raiseArb_regs (k v : Nat) (s : State) : ((raiseArb k v).run s).regs = s.regs := rfl
@[simp] theorem raiseArb_stampRegs (k v : Nat) (s : State) : ((raiseArb k v).run s).stampRegs = s.stampRegs := rfl
@[simp] theorem raiseArb_cnts (k v : Nat) (s : State) : ((raiseArb k v).run s).cnts = s.cnts := rfl
@[simp] theorem raiseArb_ivs (k v : Nat) (s : State) : ((raiseArb k v).run s).ivs = s.ivs := rfl
@[simp] theorem raiseArb_fifos (k v : Nat) (s : State) : ((raiseArb k v).run s).fifos = s.fifos := rfl
@[simp] theorem raiseArb_arb (k v : Nat) (s : State) : ((raiseArb k v).run s).arb = Map.set s.arb k (max v (s.arbAt k)) 0 := rfl
@[simp] theorem raiseArb_greqs (k v : Nat) (s : State) : ((raiseArb k v).run s).greqs = s.greqs := rfl
@[simp] theorem raiseArb_buf (k v : Nat) (s : State) : ((raiseArb k v).run s).buf = s.buf := rfl
@[simp] theorem raiseArb_waiting (k v : Nat) (s : State) : ((raiseArb k v).run s).waiting = s.waiting := rfl
@[simp] theorem raiseArb_replay (k v : Nat) (s : State) : ((raiseArb k v).run s).replay = s.replay := rfl
@[simp] theorem raiseArb_txs (k v : Nat) (s : State) : ((raiseArb k v).run s).txs = s.txs := rfl
@[simp] theorem raiseArb_rxs (k v : Nat) (s : State) : ((raiseArb k v).run s).rxs = s.rxs := rfl
@[simp] theorem raiseArb_slots (k v : Nat) (s : State) : ((raiseArb k v).run s).slots = s.slots := rfl
@[simp] theorem raiseArb_fwd (k v : Nat) (s : State) : ((raiseArb k v).run s).fwd = s.fwd := rfl
@[simp] theorem raiseArb_prefs (k v : Nat) (s : State) : ((raiseArb k v).run s).prefs = s.prefs := rfl
@[simp] theorem raiseArb_descs (k v : Nat) (s : State) : ((raiseArb k v).run s).descs = s.descs := rfl
@[simp] theorem raiseArb_coders (k v : Nat) (s : State) : ((raiseArb k v).run s).coders = s.coders := rfl
@[simp] theorem raiseArb_out (k v : Nat) (s : State) : ((raiseArb k v).run s).out = s.out := rfl
@[simp] theorem raiseArb_free (k v : Nat) (s : State) : ((raiseArb k v).run s).free = s.free := rfl
@[simp] theorem raiseArb_run_rd (k v : Nat) (s : State) (pg' : Pg) (f' : Fld) (i' : Nat) :
    ((raiseArb k v).run s).rd pg' f' i' = s.rd pg' f' i' := rfl
@[simp] theorem raiseArb_run_rdSt (k v : Nat) (s : State) (st' : Nat) (pg' : Pg) (f' : Fld) (i' : Nat) :
    ((raiseArb k v).run s).rdSt st' pg' f' i' = s.rdSt st' pg' f' i' := rfl
@[simp] theorem raiseArb_run_iv (k v : Nat) (s : State) (x' : Var) (i' : Nat) :
    ((raiseArb k v).run s).iv x' i' = s.iv x' i' := rfl
@[simp] theorem raiseArb_run_fifo (k v : Nat) (s : State) (q' : Fifo) (i' : Nat) :
    ((raiseArb k v).run s).fifo q' i' = s.fifo q' i' := rfl
@[simp] theorem raiseArb_run_cnt (k v : Nat) (s : State) (pg' : Pg) (i' : Nat) :
    ((raiseArb k v).run s).cnt pg' i' = s.cnt pg' i' := rfl
@[simp] theorem raiseArb_run_coder (k v : Nat) (s : State) (l' : Nat) : ((raiseArb k v).run s).coder l' = s.coder l' := rfl

/-! ### emit -/

@[simp] theorem emit_now (o : Out) (s : State) : ((emit o).run s).now = s.now := rfl
@[simp] theorem emit_regs (o : Out) (s : State) : ((emit o).run s).regs = s.regs := rfl
@[simp] theorem emit_stampRegs (o : Out) (s : State) : ((emit o).run s).stampRegs = s.stampRegs := rfl
@[simp] theorem emit_cnts (o : Out) (s : State) : ((emit o).run s).cnts = s.cnts := rfl
@[simp] theorem emit_ivs (o : Out) (s : State) : ((emit o).run s).ivs = s.ivs := rfl
@[simp] theorem emit_fifos (o : Out) (s : State) : ((emit o).run s).fifos = s.fifos := rfl
@[simp] theorem emit_arb (o : Out) (s : State) : ((emit o).run s).arb = s.arb := rfl
@[simp] theorem emit_greqs (o : Out) (s : State) : ((emit o).run s).greqs = s.greqs := rfl
@[simp] theorem emit_buf (o : Out) (s : State) : ((emit o).run s).buf = s.buf := rfl
@[simp] theorem emit_waiting (o : Out) (s : State) : ((emit o).run s).waiting = s.waiting := rfl
@[simp] theorem emit_replay (o : Out) (s : State) : ((emit o).run s).replay = s.replay := rfl
@[simp] theorem emit_txs (o : Out) (s : State) : ((emit o).run s).txs = s.txs := rfl
@[simp] theorem emit_rxs (o : Out) (s : State) : ((emit o).run s).rxs = s.rxs := rfl
@[simp] theorem emit_slots (o : Out) (s : State) : ((emit o).run s).slots = s.slots := rfl
@[simp] theorem emit_fwd (o : Out) (s : State) : ((emit o).run s).fwd = s.fwd := rfl
@[simp] theorem emit_prefs (o : Out) (s : State) : ((emit o).run s).prefs = s.prefs := rfl
@[simp] theorem emit_descs (o : Out) (s : State) : ((emit o).run s).descs = s.descs := rfl
@[simp] theorem emit_coders (o : Out) (s : State) : ((emit o).run s).coders = s.coders := rfl
@[simp] theorem emit_out (o : Out) (s : State) : ((emit o).run s).out = o :: s.out := rfl
@[simp] theorem emit_free (o : Out) (s : State) : ((emit o).run s).free = s.free := rfl
@[simp] theorem emit_run_rd (o : Out) (s : State) (pg' : Pg) (f' : Fld) (i' : Nat) :
    ((emit o).run s).rd pg' f' i' = s.rd pg' f' i' := rfl
@[simp] theorem emit_run_rdSt (o : Out) (s : State) (st' : Nat) (pg' : Pg) (f' : Fld) (i' : Nat) :
    ((emit o).run s).rdSt st' pg' f' i' = s.rdSt st' pg' f' i' := rfl
@[simp] theorem emit_run_iv (o : Out) (s : State) (x' : Var) (i' : Nat) : ((emit o).run s).iv x' i' = s.iv x' i' := rfl
@[simp] theorem emit_run_fifo (o : Out) (s : State) (q' : Fifo) (i' : Nat) : ((emit o).run s).fifo q' i' = s.fifo q' i' := rfl
@[simp] theorem emit_run_cnt (o : Out) (s : State) (pg' : Pg) (i' : Nat) : ((emit o).run s).cnt pg' i' = s.cnt pg' i' := rfl
@[simp] theorem emit_run_coder (o : Out) (s : State) (l' : Nat) : ((emit o).run s).coder l' = s.coder l' := rfl
@[simp] theorem emit_run_arbAt (o : Out) (s : State) (k' : Nat) : ((emit o).run s).arbAt k' = s.arbAt k' := rfl

/-! ### modGreqs -/

@[simp] theorem modGreqs_now (f : List GReq → List GReq) (s : State) : ((modGreqs f).run s).now = s.now := rfl
@[simp] theorem modGreqs_regs (f : List GReq → List GReq) (s : State) : ((modGreqs f).run s).regs = s.regs := rfl
@[simp] theorem modGreqs_stampRegs (f : List GReq → List GReq) (s : State) : ((modGreqs f).run s).stampRegs = s.stampRegs := rfl
@[simp] theorem modGreqs_cnts (f : List GReq → List GReq) (s : State) : ((modGreqs f).run s).cnts = s.cnts := rfl
@[simp] theorem modGreqs_ivs (f : List GReq → List GReq) (s : State) : ((modGreqs f).run s).ivs = s.ivs := rfl
@[simp] theorem modGreqs_fifos (f : List GReq → List GReq) (s : State) : ((modGreqs f).run s).fifos = s.fifos := rfl
@[simp] theorem modGreqs_arb (f : List GReq → List GReq) (s : State) : ((modGreqs f).run s).arb = s.arb := rfl
@[simp] theorem modGreqs_greqs (f : List GReq → List GReq) (s : State) : ((modGreqs f).run s).greqs = f s.greqs := rfl
@[simp] theorem modGreqs_buf (f : List GReq → List GReq) (s : State) : ((modGreqs f).run s).buf = s.buf := rfl
@[simp] theorem modGreqs_waiting (f : List GReq → List GReq) (s : State) : ((modGreqs f).run s).waiting = s.waiting := rfl
@[simp] theorem modGreqs_replay (f : List GReq → List GReq) (s : State) : ((modGreqs f).run s).replay = s.replay := rfl
@[simp] theorem modGreqs_txs (f : List GReq → List GReq) (s : State) : ((modGreqs f).run s).txs = s.txs := rfl
@[simp] theorem modGreqs_rxs (f : List GReq → List GReq) (s : State) : ((modGreqs f).run s).rxs = s.rxs := rfl
@[simp] theorem modGreqs_slots (f : List GReq → List GReq) (s : State) : ((modGreqs f).run s).slots = s.slots := rfl
@[simp] theorem modGreqs_fwd (f : List GReq → List GReq) (s : State) : ((modGreqs f).run s).fwd = s.fwd := rfl
@[simp] theorem modGreqs_prefs (f : List GReq → List GReq) (s : State) : ((modGreqs f).run s).prefs = s.prefs := rfl
@[simp] theorem modGreqs_descs (f : List GReq → List GReq) (s : State) : ((modGreqs f).run s).descs = s.descs := rfl
@[simp] theorem modGreqs_coders (f : List GReq → List GReq) (s : State) : ((modGreqs f).run s).coders = s.coders := rfl
@[simp] theorem modGreqs_out (f : List GReq → List GReq) (s : State) : ((modGreqs f).run s).out = s.out := rfl
@[simp] theorem modGreqs_free (f : List GReq → List GReq) (s : State) : ((modGreqs f).run s).free = s.free := rfl
@[simp] theorem modGreqs_run_rd (f : List GReq → List GReq) (s : State) (pg' : Pg) (f' : Fld) (i' : Nat) :
    ((modGreqs f).run s).rd pg' f' i' = s.rd pg' f' i' := rfl
@[simp] theorem modGreqs_run_rdSt (f : List GReq → List GReq) (s : State) (st' : Nat) (pg' : Pg) (f' : Fld) (i' : Nat) :
    ((modGreqs f).run s).rdSt st' pg' f' i' = s.rdSt st' pg' f' i' := rfl
@[simp] theorem modGreqs_run_iv (f : List GReq → List GReq) (s : State) (x' : Var) (i' : Nat) :
    ((modGreqs f).run s).iv x' i' = s.iv x' i' := rfl
@[simp] theorem modGreqs_run_fifo (f : List GReq → List GReq) (s : State) (q' : Fifo) (i' : Nat) :
    ((modGreqs f).run s).fifo q' i' = s.fifo q' i' := rfl
@[simp] theorem modGreqs_run_cnt (f : List GReq → List GReq) (s : State) (pg' : Pg) (i' : Nat) :
    ((modGreqs f).run s).cnt pg' i' = s.cnt pg' i' := rfl
@[simp] theorem modGreqs_run_coder (f : List GReq → List GReq) (s : State) (l' : Nat) :
    ((modGreqs f).run s).coder l' = s.coder l' := rfl
@[simp] theorem modGreqs_run_arbAt (f : List GReq → List GReq) (s : State) (k' : Nat) :
    ((modGreqs f).run s).arbAt k' = s.arbAt k' := rfl

/-! ### modBuf -/

@[simp] theorem modBuf_now (f : List Pkt → List Pkt) (s : State) : ((modBuf f).run s).now = s.now := rfl
@[simp] theorem modBuf_regs (f : List Pkt → List Pkt) (s : State) : ((modBuf f).run s).regs = s.regs := rfl
@[simp] theorem modBuf_stampRegs (f : List Pkt → List Pkt) (s : State) : ((modBuf f).run s).stampRegs = s.stampRegs := rfl
@[simp] theorem modBuf_cnts (f : List Pkt → List Pkt) (s : State) : ((modBuf f).run s).cnts = s.cnts := rfl
@[simp] theorem modBuf_ivs (f : List Pkt → List Pkt) (s : State) : ((modBuf f).run s).ivs = s.ivs := rfl
@[simp] theorem modBuf_fifos (f : List Pkt → List Pkt) (s : State) : ((modBuf f).run s).fifos = s.fifos := rfl
@[simp] theorem modBuf_arb (f : List Pkt → List Pkt) (s : State) : ((modBuf f).run s).arb = s.arb := rfl
@[simp] theorem modBuf_greqs (f : List Pkt → List Pkt) (s : State) : ((modBuf f).run s).greqs = s.greqs := rfl
@[simp] theorem modBuf_buf (f : List Pkt → List Pkt) (s : State) : ((modBuf f).run s).buf = f s.buf := rfl
@[simp] theorem modBuf_waiting (f : List Pkt → List Pkt) (s : State) : ((modBuf f).run s).waiting = s.waiting := rfl
@[simp] theorem modBuf_replay (f : List Pkt → List Pkt) (s : State) : ((modBuf f).run s).replay = s.replay := rfl
@[simp] theorem modBuf_txs (f : List Pkt → List Pkt) (s : State) : ((modBuf f).run s).txs = s.txs := rfl
@[simp] theorem modBuf_rxs (f : List Pkt → List Pkt) (s : State) : ((modBuf f).run s).rxs = s.rxs := rfl
@[simp] theorem modBuf_slots (f : List Pkt → List Pkt) (s : State) : ((modBuf f).run s).slots = s.slots := rfl
@[simp] theorem modBuf_fwd (f : List Pkt → List Pkt) (s : State) : ((modBuf f).run s).fwd = s.fwd := rfl
@[simp] theorem modBuf_prefs (f : List Pkt → List Pkt) (s : State) : ((modBuf f).run s).prefs = s.prefs := rfl
@[simp] theorem modBuf_descs (f : List Pkt → List Pkt) (s : State) : ((modBuf f).run s).descs = s.descs := rfl
@[simp] theorem modBuf_coders (f : List Pkt → List Pkt) (s : State) : ((modBuf f).run s).coders = s.coders := rfl
@[simp] theorem modBuf_out (f : List Pkt → List Pkt) (s : State) : ((modBuf f).run s).out = s.out := rfl
@[simp] theorem modBuf_free (f : List Pkt → List Pkt) (s : State) : ((modBuf f).run s).free = s.free := rfl
@[simp] theorem modBuf_run_rd (f : List Pkt → List Pkt) (s : State) (pg' : Pg) (f' : Fld) (i' : Nat) :
    ((modBuf f).run s).rd pg' f' i' = s.rd pg' f' i' := rfl
@[simp] theorem modBuf_run_rdSt (f : List Pkt → List Pkt) (s : State) (st' : Nat) (pg' : Pg) (f' : Fld) (i' : Nat) :
    ((modBuf f).run s).rdSt st' pg' f' i' = s.rdSt st' pg' f' i' := rfl
@[simp] theorem modBuf_run_iv (f : List Pkt → List Pkt) (s : State) (x' : Var) (i' : Nat) :
    ((modBuf f).run s).iv x' i' = s.iv x' i' := rfl
@[simp] theorem modBuf_run_fifo (f : List Pkt → List Pkt) (s : State) (q' : Fifo) (i' : Nat) :
    ((modBuf f).run s).fifo q' i' = s.fifo q' i' := rfl
@[simp] theorem modBuf_run_cnt (f : List Pkt → List Pkt) (s : State) (pg' : Pg) (i' : Nat) :
    ((modBuf f).run s).cnt pg' i' = s.cnt pg' i' := rfl
@[simp] theorem modBuf_run_coder (f : List Pkt → List Pkt) (s : State) (l' : Nat) :
    ((modBuf f).run s).coder l' = s.coder l' := rfl
@[simp] theorem modBuf_run_arbAt (f : List Pkt → List Pkt) (s : State) (k' : Nat) :
    ((modBuf f).run s).arbAt k' = s.arbAt k' := rfl

/-! ### modWaiting -/

@[simp] theorem modWaiting_now (f : List Waiting → List Waiting) (s : State) : ((modWaiting f).run s).now = s.now := rfl
@[simp] theorem modWaiting_regs (f : List Waiting → List Waiting) (s : State) : ((modWaiting f).run s).regs = s.regs := rfl
@[simp] theorem modWaiting_stampRegs (f : List Waiting → List Waiting) (s : State) :
    ((modWaiting f).run s).stampRegs = s.stampRegs := rfl
@[simp] theorem modWaiting_cnts (f : List Waiting → List Waiting) (s : State) : ((modWaiting f).run s).cnts = s.cnts := rfl
@[simp] theorem modWaiting_ivs (f : List Waiting → List Waiting) (s : State) : ((modWaiting f).run s).ivs = s.ivs := rfl
@[simp] theorem modWaiting_fifos (f : List Waiting → List Waiting) (s : State) : ((modWaiting f).run s).fifos = s.fifos := rfl
@[simp] theorem modWaiting_arb (f : List Waiting → List Waiting) (s : State) : ((modWaiting f).run s).arb = s.arb := rfl
@[simp] theorem modWaiting_greqs (f : List Waiting → List Waiting) (s : State) : ((modWaiting f).run s).greqs = s.greqs := rfl
@[simp] theorem modWaiting_buf (f : List Waiting → List Waiting) (s : State) : ((modWaiting f).run s).buf = s.buf := rfl
@[simp] theorem modWaiting_waiting (f : List Waiting → List Waiting) (s : State) :
    ((modWaiting f).run s).waiting = f s.waiting := rfl
@[simp] theorem modWaiting_replay (f : List Waiting → List Waiting) (s : State) : ((modWaiting f).run s).replay = s.replay := rfl
@[simp] theorem modWaiting_txs (f : List Waiting → List Waiting) (s : State) : ((modWaiting f).run s).txs = s.txs := rfl
@[simp] theorem modWaiting_rxs (f : List Waiting → List Waiting) (s : State) : ((modWaiting f).run s).rxs = s.rxs := rfl
@[simp] theorem modWaiting_slots (f : List Waiting → List Waiting) (s : State) : ((modWaiting f).run s).slots = s.slots := rfl
@[simp] theorem modWaiting_fwd (f : List Waiting → List Waiting) (s : State) : ((modWaiting f).run s).fwd = s.fwd := rfl
@[simp] theorem modWaiting_prefs (f : List Waiting → List Waiting) (s : State) : ((modWaiting f).run s).prefs = s.prefs := rfl
@[simp] theorem modWaiting_descs (f : List Waiting → List Waiting) (s : State) : ((modWaiting f).run s).descs = s.descs := rfl
@[simp] theorem modWaiting_coders (f : List Waiting → List Waiting) (s : State) : ((modWaiting f).run s).coders = s.coders := rfl
@[simp] theorem modWaiting_out (f : List Waiting → List Waiting) (s : State) : ((modWaiting f).run s).out = s.out := rfl
@[simp] theorem modWaiting_free (f : List Waiting → List Waiting) (s : State) : ((modWaiting f).run s).free = s.free := rfl
@[simp] theorem modWaiting_run_rd (f : List Waiting → List Waiting) (s : State) (pg' : Pg) (f' : Fld) (i' : Nat) :
    ((modWaiting f).run s).rd pg' f' i' = s.rd pg' f' i' := rfl
@[simp] theorem modWaiting_run_rdSt (f : List Waiting → List Waiting) (s : State) (st' : Nat) (pg' : Pg) (f' : Fld) (i' : Nat) :
    ((modWaiting f).run s).rdSt st' pg' f' i' = s.rdSt st' pg' f' i' := rfl
@[simp] theorem modWaiting_run_iv (f : List Waiting → List Waiting) (s : State) (x' : Var) (i' : Nat) :
    ((modWaiting f).run s).iv x' i' = s.iv x' i' := rfl
@[simp] theorem modWaiting_run_fifo (f : List Waiting → List Waiting) (s : State) (q' : Fifo) (i' : Nat) :
    ((modWaiting f).run s).fifo q' i' = s.fifo q' i' := rfl
@[simp] theorem modWaiting_run_cnt (f : List Waiting → List Waiting) (s : State) (pg' : Pg) (i' : Nat) :
    ((modWaiting f).run s).cnt pg' i' = s.cnt pg' i' := rfl
@[simp] theorem modWaiting_run_coder (f : List Waiting → List Waiting) (s : State) (l' : Nat) :
    ((modWaiting f).run s).coder l' = s.coder l' := rfl
@[simp] theorem modWaiting_run_arbAt (f : List Waiting → List Waiting) (s : State) (k' : Nat) :
    ((modWaiting f).run s).arbAt k' = s.arbAt k' := rfl

/-! ### modSlots -/

@[simp] theorem modSlots_now (f : List Slot → List Slot) (s : State) : ((modSlots f).run s).now = s.now := rfl
@[simp] theorem modSlots_regs (f : List Slot → List Slot) (s : State) : ((modSlots f).run s).regs = s.regs := rfl
@[simp] theorem modSlots_stampRegs (f : List Slot → List Slot) (s : State) : ((modSlots f).run s).stampRegs = s.stampRegs := rfl
@[simp] theorem modSlots_cnts (f : List Slot → List Slot) (s : State) : ((modSlots f).run s).cnts = s.cnts := rfl
@[simp] theorem modSlots_ivs (f : List Slot → List Slot) (s : State) : ((modSlots f).run s).ivs = s.ivs := rfl
@[simp] theorem modSlots_fifos (f : List Slot → List Slot) (s : State) : ((modSlots f).run s).fifos = s.fifos := rfl
@[simp] theorem modSlots_arb (f : List Slot → List Slot) (s : State) : ((modSlots f).run s).arb = s.arb := rfl
@[simp] theorem modSlots_greqs (f : List Slot → List Slot) (s : State) : ((modSlots f).run s).greqs = s.greqs := rfl
@[simp] theorem modSlots_buf (f : List Slot → List Slot) (s : State) : ((modSlots f).run s).buf = s.buf := rfl
@[simp] theorem modSlots_waiting (f : List Slot → List Slot) (s : State) : ((modSlots f).run s).waiting = s.waiting := rfl
@[simp] theorem modSlots_replay (f : List Slot → List Slot) (s : State) : ((modSlots f).run s).replay = s.replay := rfl
@[simp] theorem modSlots_txs (f : List Slot → List Slot) (s : State) : ((modSlots f).run s).txs = s.txs := rfl
@[simp] theorem modSlots_rxs (f : List Slot → List Slot) (s : State) : ((modSlots f).run s).rxs = s.rxs := rfl
@[simp] theorem modSlots_slots (f : List Slot → List Slot) (s : State) : ((modSlots f).run s).slots = f s.slots := rfl
@[simp] theorem modSlots_fwd (f : List Slot → List Slot) (s : State) : ((modSlots f).run s).fwd = s.fwd := rfl
@[simp] theorem modSlots_prefs (f : List Slot → List Slot) (s : State) : ((modSlots f).run s).prefs = s.prefs := rfl
@[simp] theorem modSlots_descs (f : List Slot → List Slot) (s : State) : ((modSlots f).run s).descs = s.descs := rfl
@[simp] theorem modSlots_coders (f : List Slot → List Slot) (s : State) : ((modSlots f).run s).coders = s.coders := rfl
@[simp] theorem modSlots_out (f : List Slot → List Slot) (s : State) : ((modSlots f).run s).out = s.out := rfl
@[simp] theorem modSlots_free (f : List Slot → List Slot) (s : State) : ((modSlots f).run s).free = s.free := rfl
@[simp] theorem modSlots_run_rd (f : List Slot → List Slot) (s : State) (pg' : Pg) (f' : Fld) (i' : Nat) :
    ((modSlots f).run s).rd pg' f' i' = s.rd pg' f' i' := rfl
@[simp] theorem modSlots_run_rdSt (f : List Slot → List Slot) (s : State) (st' : Nat) (pg' : Pg) (f' : Fld) (i' : Nat) :
    ((modSlots f).run s).rdSt st' pg' f' i' = s.rdSt st' pg' f' i' := rfl
@[simp] theorem modSlots_run_iv (f : List Slot → List Slot) (s : State) (x' : Var) (i' : Nat) :
    ((modSlots f).run s).iv x' i' = s.iv x' i' := rfl
@[simp] theorem modSlots_run_fifo (f : List Slot → List Slot) (s : State) (q' : Fifo) (i' : Nat) :
    ((modSlots f).run s).fifo q' i' = s.fifo q' i' := rfl
@[simp] theorem modSlots_run_cnt (f : List Slot → List Slot) (s : State) (pg' : Pg) (i' : Nat) :
    ((modSlots f).run s).cnt pg' i' = s.cnt pg' i' := rfl
@[simp] theorem modSlots_run_coder (f : List Slot → List Slot) (s : State) (l' : Nat) :
    ((modSlots f).run s).coder l' = s.coder l' := rfl
@[simp] theorem modSlots_run_arbAt (f : List Slot → List Slot) (s : State) (k' : Nat) :
    ((modSlots f).run s).arbAt k' = s.arbAt k' := rfl

/-! ### modFwd -/

@[simp] theorem modFwd_now (f : List Fwd → List Fwd) (s : State) : ((modFwd f).run s).now = s.now := rfl
@[simp] theorem modFwd_regs (f : List Fwd → List Fwd) (s : State) : ((modFwd f).run s).regs = s.regs := rfl
@[simp] theorem modFwd_stampRegs (f : List Fwd → List Fwd) (s : State) : ((modFwd f).run s).stampRegs = s.stampRegs := rfl
@[simp] theorem modFwd_cnts (f : List Fwd → List Fwd) (s : State) : ((modFwd f).run s).cnts = s.cnts := rfl
@[simp] theorem modFwd_ivs (f : List Fwd → List Fwd) (s : State) : ((modFwd f).run s).ivs = s.ivs := rfl
@[simp] theorem modFwd_fifos (f : List Fwd → List Fwd) (s : State) : ((modFwd f).run s).fifos = s.fifos := rfl
@[simp] theorem modFwd_arb (f : List Fwd → List Fwd) (s : State) : ((modFwd f).run s).arb = s.arb := rfl
@[simp] theorem modFwd_greqs (f : List Fwd → List Fwd) (s : State) : ((modFwd f).run s).greqs = s.greqs := rfl
@[simp] theorem modFwd_buf (f : List Fwd → List Fwd) (s : State) : ((modFwd f).run s).buf = s.buf := rfl
@[simp] theorem modFwd_waiting (f : List Fwd → List Fwd) (s : State) : ((modFwd f).run s).waiting = s.waiting := rfl
@[simp] theorem modFwd_replay (f : List Fwd → List Fwd) (s : State) : ((modFwd f).run s).replay = s.replay := rfl
@[simp] theorem modFwd_txs (f : List Fwd → List Fwd) (s : State) : ((modFwd f).run s).txs = s.txs := rfl
@[simp] theorem modFwd_rxs (f : List Fwd → List Fwd) (s : State) : ((modFwd f).run s).rxs = s.rxs := rfl
@[simp] theorem modFwd_slots (f : List Fwd → List Fwd) (s : State) : ((modFwd f).run s).slots = s.slots := rfl
@[simp] theorem modFwd_fwd (f : List Fwd → List Fwd) (s : State) : ((modFwd f).run s).fwd = f s.fwd := rfl
@[simp] theorem modFwd_prefs (f : List Fwd → List Fwd) (s : State) : ((modFwd f).run s).prefs = s.prefs := rfl
@[simp] theorem modFwd_descs (f : List Fwd → List Fwd) (s : State) : ((modFwd f).run s).descs = s.descs := rfl
@[simp] theorem modFwd_coders (f : List Fwd → List Fwd) (s : State) : ((modFwd f).run s).coders = s.coders := rfl
@[simp] theorem modFwd_out (f : List Fwd → List Fwd) (s : State) : ((modFwd f).run s).out = s.out := rfl
@[simp] theorem modFwd_free (f : List Fwd → List Fwd) (s : State) : ((modFwd f).run s).free = s.free := rfl
@[simp] theorem modFwd_run_rd (f : List Fwd → List Fwd) (s : State) (pg' : Pg) (f' : Fld) (i' : Nat) :
    ((modFwd f).run s).rd pg' f' i' = s.rd pg' f' i' := rfl
@[simp] theorem modFwd_run_rdSt (f : List Fwd → List Fwd) (s : State) (st' : Nat) (pg' : Pg) (f' : Fld) (i' : Nat) :
    ((modFwd f).run s).rdSt st' pg' f' i' = s.rdSt st' pg' f' i' := rfl
@[simp] theorem modFwd_run_iv (f : List Fwd → List Fwd) (s : State) (x' : Var) (i' : Nat) :
    ((modFwd f).run s).iv x' i' = s.iv x' i' := rfl
@[simp] theorem modFwd_run_fifo (f : List Fwd → List Fwd) (s : State) (q' : Fifo) (i' : Nat) :
    ((modFwd f).run s).fifo q' i' = s.fifo q' i' := rfl
@[simp] theorem modFwd_run_cnt (f : List Fwd → List Fwd) (s : State) (pg' : Pg) (i' : Nat) :
    ((modFwd f).run s).cnt pg' i' = s.cnt pg' i' := rfl
@[simp] theorem modFwd_run_coder (f : List Fwd → List Fwd) (s : State) (l' : Nat) :
    ((modFwd f).run s).coder l' = s.coder l' := rfl
@[simp] theorem modFwd_run_arbAt (f : List Fwd → List Fwd) (s : State) (k' : Nat) :
    ((modFwd f).run s).arbAt k' = s.arbAt k' := rfl

/-! ### modDescs -/

@[simp] theorem modDescs_now (f : List Desc → List Desc) (s : State) : ((modDescs f).run s).now = s.now := rfl
@[simp] theorem modDescs_regs (f : List Desc → List Desc) (s : State) : ((modDescs f).run s).regs = s.regs := rfl
@[simp] theorem modDescs_stampRegs (f : List Desc → List Desc) (s : State) : ((modDescs f).run s).stampRegs = s.stampRegs := rfl
@[simp] theorem modDescs_cnts (f : List Desc → List Desc) (s : State) : ((modDescs f).run s).cnts = s.cnts := rfl
@[simp] theorem modDescs_ivs (f : List Desc → List Desc) (s : State) : ((modDescs f).run s).ivs = s.ivs := rfl
@[simp] theorem modDescs_fifos (f : List Desc → List Desc) (s : State) : ((modDescs f).run s).fifos = s.fifos := rfl
@[simp] theorem modDescs_arb (f : List Desc → List Desc) (s : State) : ((modDescs f).run s).arb = s.arb := rfl
@[simp] theorem modDescs_greqs (f : List Desc → List Desc) (s : State) : ((modDescs f).run s).greqs = s.greqs := rfl
@[simp] theorem modDescs_buf (f : List Desc → List Desc) (s : State) : ((modDescs f).run s).buf = s.buf := rfl
@[simp] theorem modDescs_waiting (f : List Desc → List Desc) (s : State) : ((modDescs f).run s).waiting = s.waiting := rfl
@[simp] theorem modDescs_replay (f : List Desc → List Desc) (s : State) : ((modDescs f).run s).replay = s.replay := rfl
@[simp] theorem modDescs_txs (f : List Desc → List Desc) (s : State) : ((modDescs f).run s).txs = s.txs := rfl
@[simp] theorem modDescs_rxs (f : List Desc → List Desc) (s : State) : ((modDescs f).run s).rxs = s.rxs := rfl
@[simp] theorem modDescs_slots (f : List Desc → List Desc) (s : State) : ((modDescs f).run s).slots = s.slots := rfl
@[simp] theorem modDescs_fwd (f : List Desc → List Desc) (s : State) : ((modDescs f).run s).fwd = s.fwd := rfl
@[simp] theorem modDescs_prefs (f : List Desc → List Desc) (s : State) : ((modDescs f).run s).prefs = s.prefs := rfl
@[simp] theorem modDescs_descs (f : List Desc → List Desc) (s : State) : ((modDescs f).run s).descs = f s.descs := rfl
@[simp] theorem modDescs_coders (f : List Desc → List Desc) (s : State) : ((modDescs f).run s).coders = s.coders := rfl
@[simp] theorem modDescs_out (f : List Desc → List Desc) (s : State) : ((modDescs f).run s).out = s.out := rfl
@[simp] theorem modDescs_free (f : List Desc → List Desc) (s : State) : ((modDescs f).run s).free = s.free := rfl
@[simp] theorem modDescs_run_rd (f : List Desc → List Desc) (s : State) (pg' : Pg) (f' : Fld) (i' : Nat) :
    ((modDescs f).run s).rd pg' f' i' = s.rd pg' f' i' := rfl
@[simp] theorem modDescs_run_rdSt (f : List Desc → List Desc) (s : State) (st' : Nat) (pg' : Pg) (f' : Fld) (i' : Nat) :
    ((modDescs f).run s).rdSt st' pg' f' i' = s.rdSt st' pg' f' i' := rfl
@[simp] theorem modDescs_run_iv (f : List Desc → List Desc) (s : State) (x' : Var) (i' : Nat) :
    ((modDescs f).run s).iv x' i' = s.iv x' i' := rfl
@[simp] theorem modDescs_run_fifo (f : List Desc → List Desc) (s : State) (q' : Fifo) (i' : Nat) :
    ((modDescs f).run s).fifo q' i' = s.fifo q' i' := rfl
@[simp] theorem modDescs_run_cnt (f : List Desc → List Desc) (s : State) (pg' : Pg) (i' : Nat) :
    ((modDescs f).run s).cnt pg' i' = s.cnt pg' i' := rfl
@[simp] theorem modDescs_run_coder (f : List Desc → List Desc) (s : State) (l' : Nat) :
    ((modDescs f).run s).coder l' = s.coder l' := rfl
@[simp] theorem modDescs_run_arbAt (f : List Desc → List Desc) (s : State) (k' : Nat) :
    ((modDescs f).run s).arbAt k' = s.arbAt k' := rfl

/-! ### modPrefs -/

@[simp] theorem modPrefs_now (f : List Pref → List Pref) (s : State) : ((modPrefs f).run s).now = s.now := rfl
@[simp] theorem modPrefs_regs (f : List Pref → List Pref) (s : State) : ((modPrefs f).run s).regs = s.regs := rfl
@[simp] theorem modPrefs_stampRegs (f : List Pref → List Pref) (s : State) : ((modPrefs f).run s).stampRegs = s.stampRegs := rfl
@[simp] theorem modPrefs_cnts (f : List Pref → List Pref) (s : State) : ((modPrefs f).run s).cnts = s.cnts := rfl
@[simp] theorem modPrefs_ivs (f : List Pref → List Pref) (s : State) : ((modPrefs f).run s).ivs = s.ivs := rfl
@[simp] theorem modPrefs_fifos (f : List Pref → List Pref) (s : State) : ((modPrefs f).run s).fifos = s.fifos := rfl
@[simp] theorem modPrefs_arb (f : List Pref → List Pref) (s : State) : ((modPrefs f).run s).arb = s.arb := rfl
@[simp] theorem modPrefs_greqs (f : List Pref → List Pref) (s : State) : ((modPrefs f).run s).greqs = s.greqs := rfl
@[simp] theorem modPrefs_buf (f : List Pref → List Pref) (s : State) : ((modPrefs f).run s).buf = s.buf := rfl
@[simp] theorem modPrefs_waiting (f : List Pref → List Pref) (s : State) : ((modPrefs f).run s).waiting = s.waiting := rfl
@[simp] theorem modPrefs_replay (f : List Pref → List Pref) (s : State) : ((modPrefs f).run s).replay = s.replay := rfl
@[simp] theorem modPrefs_txs (f : List Pref → List Pref) (s : State) : ((modPrefs f).run s).txs = s.txs := rfl
@[simp] theorem modPrefs_rxs (f : List Pref → List Pref) (s : State) : ((modPrefs f).run s).rxs = s.rxs := rfl
@[simp] theorem modPrefs_slots (f : List Pref → List Pref) (s : State) : ((modPrefs f).run s).slots = s.slots := rfl
@[simp] theorem modPrefs_fwd (f : List Pref → List Pref) (s : State) : ((modPrefs f).run s).fwd = s.fwd := rfl
@[simp] theorem modPrefs_prefs (f : List Pref → List Pref) (s : State) : ((modPrefs f).run s).prefs = f s.prefs := rfl
@[simp] theorem modPrefs_descs (f : List Pref → List Pref) (s : State) : ((modPrefs f).run s).descs = s.descs := rfl
@[simp] theorem modPrefs_coders (f : List Pref → List Pref) (s : State) : ((modPrefs f).run s).coders = s.coders := rfl
@[simp] theorem modPrefs_out (f : List Pref → List Pref) (s : State) : ((modPrefs f).run s).out = s.out := rfl
@[simp] theorem modPrefs_free (f : List Pref → List Pref) (s : State) : ((modPrefs f).run s).free = s.free := rfl
@[simp] theorem modPrefs_run_rd (f : List Pref → List Pref) (s : State) (pg' : Pg) (f' : Fld) (i' : Nat) :
    ((modPrefs f).run s).rd pg' f' i' = s.rd pg' f' i' := rfl
@[simp] theorem modPrefs_run_rdSt (f : List Pref → List Pref) (s : State) (st' : Nat) (pg' : Pg) (f' : Fld) (i' : Nat) :
    ((modPrefs f).run s).rdSt st' pg' f' i' = s.rdSt st' pg' f' i' := rfl
@[simp] theorem modPrefs_run_iv (f : List Pref → List Pref) (s : State) (x' : Var) (i' : Nat) :
    ((modPrefs f).run s).iv x' i' = s.iv x' i' := rfl
@[simp] theorem modPrefs_run_fifo (f : List Pref → List Pref) (s : State) (q' : Fifo) (i' : Nat) :
    ((modPrefs f).run s).fifo q' i' = s.fifo q' i' := rfl
@[simp] theorem modPrefs_run_cnt (f : List Pref → List Pref) (s : State) (pg' : Pg) (i' : Nat) :
    ((modPrefs f).run s).cnt pg' i' = s.cnt pg' i' := rfl
@[simp] theorem modPrefs_run_coder (f : List Pref → List Pref) (s : State) (l' : Nat) :
    ((modPrefs f).run s).coder l' = s.coder l' := rfl
@[simp] theorem modPrefs_run_arbAt (f : List Pref → List Pref) (s : State) (k' : Nat) :
    ((modPrefs f).run s).arbAt k' = s.arbAt k' := rfl

/-! ### putReplay -/

@[simp] theorem putReplay_now (p : Nat) (l : List TxFrame) (s : State) : ((putReplay p l).run s).now = s.now := rfl
@[simp] theorem putReplay_regs (p : Nat) (l : List TxFrame) (s : State) : ((putReplay p l).run s).regs = s.regs := rfl
@[simp] theorem putReplay_stampRegs (p : Nat) (l : List TxFrame) (s : State) :
    ((putReplay p l).run s).stampRegs = s.stampRegs := rfl
@[simp] theorem putReplay_cnts (p : Nat) (l : List TxFrame) (s : State) : ((putReplay p l).run s).cnts = s.cnts := rfl
@[simp] theorem putReplay_ivs (p : Nat) (l : List TxFrame) (s : State) : ((putReplay p l).run s).ivs = s.ivs := rfl
@[simp] theorem putReplay_fifos (p : Nat) (l : List TxFrame) (s : State) : ((putReplay p l).run s).fifos = s.fifos := rfl
@[simp] theorem putReplay_arb (p : Nat) (l : List TxFrame) (s : State) : ((putReplay p l).run s).arb = s.arb := rfl
@[simp] theorem putReplay_greqs (p : Nat) (l : List TxFrame) (s : State) : ((putReplay p l).run s).greqs = s.greqs := rfl
@[simp] theorem putReplay_buf (p : Nat) (l : List TxFrame) (s : State) : ((putReplay p l).run s).buf = s.buf := rfl
@[simp] theorem putReplay_waiting (p : Nat) (l : List TxFrame) (s : State) : ((putReplay p l).run s).waiting = s.waiting := rfl
@[simp] theorem putReplay_replay (p : Nat) (l : List TxFrame) (s : State) :
    ((putReplay p l).run s).replay = Map.set s.replay p l [] := rfl
@[simp] theorem putReplay_txs (p : Nat) (l : List TxFrame) (s : State) : ((putReplay p l).run s).txs = s.txs := rfl
@[simp] theorem putReplay_rxs (p : Nat) (l : List TxFrame) (s : State) : ((putReplay p l).run s).rxs = s.rxs := rfl
@[simp] theorem putReplay_slots (p : Nat) (l : List TxFrame) (s : State) : ((putReplay p l).run s).slots = s.slots := rfl
@[simp] theorem putReplay_fwd (p : Nat) (l : List TxFrame) (s : State) : ((putReplay p l).run s).fwd = s.fwd := rfl
@[simp] theorem putReplay_prefs (p : Nat) (l : List TxFrame) (s : State) : ((putReplay p l).run s).prefs = s.prefs := rfl
@[simp] theorem putReplay_descs (p : Nat) (l : List TxFrame) (s : State) : ((putReplay p l).run s).descs = s.descs := rfl
@[simp] theorem putReplay_coders (p : Nat) (l : List TxFrame) (s : State) : ((putReplay p l).run s).coders = s.coders := rfl
@[simp] theorem putReplay_out (p : Nat) (l : List TxFrame) (s : State) : ((putReplay p l).run s).out = s.out := rfl
@[simp] theorem putReplay_free (p : Nat) (l : List TxFrame) (s : State) : ((putReplay p l).run s).free = s.free := rfl
@[simp] theorem putReplay_run_rd (p : Nat) (l : List TxFrame) (s : State) (pg' : Pg) (f' : Fld) (i' : Nat) :
    ((putReplay p l).run s).rd pg' f' i' = s.rd pg' f' i' := rfl
@[simp] theorem putReplay_run_rdSt (p : Nat) (l : List TxFrame) (s : State) (st' : Nat) (pg' : Pg) (f' : Fld) (i' : Nat) :
    ((putReplay p l).run s).rdSt st' pg' f' i' = s.rdSt st' pg' f' i' := rfl
@[simp] theorem putReplay_run_iv (p : Nat) (l : List TxFrame) (s : State) (x' : Var) (i' : Nat) :
    ((putReplay p l).run s).iv x' i' = s.iv x' i' := rfl
@[simp] theorem putReplay_run_fifo (p : Nat) (l : List TxFrame) (s : State) (q' : Fifo) (i' : Nat) :
    ((putReplay p l).run s).fifo q' i' = s.fifo q' i' := rfl
@[simp] theorem putReplay_run_cnt (p : Nat) (l : List TxFrame) (s : State) (pg' : Pg) (i' : Nat) :
    ((putReplay p l).run s).cnt pg' i' = s.cnt pg' i' := rfl
@[simp] theorem putReplay_run_coder (p : Nat) (l : List TxFrame) (s : State) (l' : Nat) :
    ((putReplay p l).run s).coder l' = s.coder l' := rfl
@[simp] theorem putReplay_run_arbAt (p : Nat) (l : List TxFrame) (s : State) (k' : Nat) :
    ((putReplay p l).run s).arbAt k' = s.arbAt k' := rfl

/-! ### putTx -/

@[simp] theorem putTx_now (k : Nat) (x : TxStream) (s : State) : ((putTx k x).run s).now = s.now := rfl
@[simp] theorem putTx_regs (k : Nat) (x : TxStream) (s : State) : ((putTx k x).run s).regs = s.regs := rfl
@[simp] theorem putTx_stampRegs (k : Nat) (x : TxStream) (s : State) : ((putTx k x).run s).stampRegs = s.stampRegs := rfl
@[simp] theorem putTx_cnts (k : Nat) (x : TxStream) (s : State) : ((putTx k x).run s).cnts = s.cnts := rfl
@[simp] theorem putTx_ivs (k : Nat) (x : TxStream) (s : State) : ((putTx k x).run s).ivs = s.ivs := rfl
@[simp] theorem putTx_fifos (k : Nat) (x : TxStream) (s : State) : ((putTx k x).run s).fifos = s.fifos := rfl
@[simp] theorem putTx_arb (k : Nat) (x : TxStream) (s : State) : ((putTx k x).run s).arb = s.arb := rfl
@[simp] theorem putTx_greqs (k : Nat) (x : TxStream) (s : State) : ((putTx k x).run s).greqs = s.greqs := rfl
@[simp] theorem putTx_buf (k : Nat) (x : TxStream) (s : State) : ((putTx k x).run s).buf = s.buf := rfl
@[simp] theorem putTx_waiting (k : Nat) (x : TxStream) (s : State) : ((putTx k x).run s).waiting = s.waiting := rfl
@[simp] theorem putTx_replay (k : Nat) (x : TxStream) (s : State) : ((putTx k x).run s).replay = s.replay := rfl
@[simp] theorem putTx_txs (k : Nat) (x : TxStream) (s : State) : ((putTx k x).run s).txs = Map.set s.txs k x .empty := rfl
@[simp] theorem putTx_rxs (k : Nat) (x : TxStream) (s : State) : ((putTx k x).run s).rxs = s.rxs := rfl
@[simp] theorem putTx_slots (k : Nat) (x : TxStream) (s : State) : ((putTx k x).run s).slots = s.slots := rfl
@[simp] theorem putTx_fwd (k : Nat) (x : TxStream) (s : State) : ((putTx k x).run s).fwd = s.fwd := rfl
@[simp] theorem putTx_prefs (k : Nat) (x : TxStream) (s : State) : ((putTx k x).run s).prefs = s.prefs := rfl
@[simp] theorem putTx_descs (k : Nat) (x : TxStream) (s : State) : ((putTx k x).run s).descs = s.descs := rfl
@[simp] theorem putTx_coders (k : Nat) (x : TxStream) (s : State) : ((putTx k x).run s).coders = s.coders := rfl
@[simp] theorem putTx_out (k : Nat) (x : TxStream) (s : State) : ((putTx k x).run s).out = s.out := rfl
@[simp] theorem putTx_free (k : Nat) (x : TxStream) (s : State) : ((putTx k x).run s).free = s.free := rfl
@[simp] theorem putTx_run_rd (k : Nat) (x : TxStream) (s : State) (pg' : Pg) (f' : Fld) (i' : Nat) :
    ((putTx k x).run s).rd pg' f' i' = s.rd pg' f' i' := rfl
@[simp] theorem putTx_run_rdSt (k : Nat) (x : TxStream) (s : State) (st' : Nat) (pg' : Pg) (f' : Fld) (i' : Nat) :
    ((putTx k x).run s).rdSt st' pg' f' i' = s.rdSt st' pg' f' i' := rfl
@[simp] theorem putTx_run_iv (k : Nat) (x : TxStream) (s : State) (x' : Var) (i' : Nat) :
    ((putTx k x).run s).iv x' i' = s.iv x' i' := rfl
@[simp] theorem putTx_run_fifo (k : Nat) (x : TxStream) (s : State) (q' : Fifo) (i' : Nat) :
    ((putTx k x).run s).fifo q' i' = s.fifo q' i' := rfl
@[simp] theorem putTx_run_cnt (k : Nat) (x : TxStream) (s : State) (pg' : Pg) (i' : Nat) :
    ((putTx k x).run s).cnt pg' i' = s.cnt pg' i' := rfl
@[simp] theorem putTx_run_coder (k : Nat) (x : TxStream) (s : State) (l' : Nat) : ((putTx k x).run s).coder l' = s.coder l' := rfl
@[simp] theorem putTx_run_arbAt (k : Nat) (x : TxStream) (s : State) (k' : Nat) : ((putTx k x).run s).arbAt k' = s.arbAt k' := rfl

/-! ### putRx -/

@[simp] theorem putRx_now (k : Nat) (x : RxStream) (s : State) : ((putRx k x).run s).now = s.now := rfl
@[simp] theorem putRx_regs (k : Nat) (x : RxStream) (s : State) : ((putRx k x).run s).regs = s.regs := rfl
@[simp] theorem putRx_stampRegs (k : Nat) (x : RxStream) (s : State) : ((putRx k x).run s).stampRegs = s.stampRegs := rfl
@[simp] theorem putRx_cnts (k : Nat) (x : RxStream) (s : State) : ((putRx k x).run s).cnts = s.cnts := rfl
@[simp] theorem putRx_ivs (k : Nat) (x : RxStream) (s : State) : ((putRx k x).run s).ivs = s.ivs := rfl
@[simp] theorem putRx_fifos (k : Nat) (x : RxStream) (s : State) : ((putRx k x).run s).fifos = s.fifos := rfl
@[simp] theorem putRx_arb (k : Nat) (x : RxStream) (s : State) : ((putRx k x).run s).arb = s.arb := rfl
@[simp] theorem putRx_greqs (k : Nat) (x : RxStream) (s : State) : ((putRx k x).run s).greqs = s.greqs := rfl
@[simp] theorem putRx_buf (k : Nat) (x : RxStream) (s : State) : ((putRx k x).run s).buf = s.buf := rfl
@[simp] theorem putRx_waiting (k : Nat) (x : RxStream) (s : State) : ((putRx k x).run s).waiting = s.waiting := rfl
@[simp] theorem putRx_replay (k : Nat) (x : RxStream) (s : State) : ((putRx k x).run s).replay = s.replay := rfl
@[simp] theorem putRx_txs (k : Nat) (x : RxStream) (s : State) : ((putRx k x).run s).txs = s.txs := rfl
@[simp] theorem putRx_rxs (k : Nat) (x : RxStream) (s : State) : ((putRx k x).run s).rxs = Map.put s.rxs k x := rfl
@[simp] theorem putRx_slots (k : Nat) (x : RxStream) (s : State) : ((putRx k x).run s).slots = s.slots := rfl
@[simp] theorem putRx_fwd (k : Nat) (x : RxStream) (s : State) : ((putRx k x).run s).fwd = s.fwd := rfl
@[simp] theorem putRx_prefs (k : Nat) (x : RxStream) (s : State) : ((putRx k x).run s).prefs = s.prefs := rfl
@[simp] theorem putRx_descs (k : Nat) (x : RxStream) (s : State) : ((putRx k x).run s).descs = s.descs := rfl
@[simp] theorem putRx_coders (k : Nat) (x : RxStream) (s : State) : ((putRx k x).run s).coders = s.coders := rfl
@[simp] theorem putRx_out (k : Nat) (x : RxStream) (s : State) : ((putRx k x).run s).out = s.out := rfl
@[simp] theorem putRx_free (k : Nat) (x : RxStream) (s : State) : ((putRx k x).run s).free = s.free := rfl
@[simp] theorem putRx_run_rd (k : Nat) (x : RxStream) (s : State) (pg' : Pg) (f' : Fld) (i' : Nat) :
    ((putRx k x).run s).rd pg' f' i' = s.rd pg' f' i' := rfl
@[simp] theorem putRx_run_rdSt (k : Nat) (x : RxStream) (s : State) (st' : Nat) (pg' : Pg) (f' : Fld) (i' : Nat) :
    ((putRx k x).run s).rdSt st' pg' f' i' = s.rdSt st' pg' f' i' := rfl
@[simp] theorem putRx_run_iv (k : Nat) (x : RxStream) (s : State) (x' : Var) (i' : Nat) :
    ((putRx k x).run s).iv x' i' = s.iv x' i' := rfl
@[simp] theorem putRx_run_fifo (k : Nat) (x : RxStream) (s : State) (q' : Fifo) (i' : Nat) :
    ((putRx k x).run s).fifo q' i' = s.fifo q' i' := rfl
@[simp] theorem putRx_run_cnt (k : Nat) (x : RxStream) (s : State) (pg' : Pg) (i' : Nat) :
    ((putRx k x).run s).cnt pg' i' = s.cnt pg' i' := rfl
@[simp] theorem putRx_run_coder (k : Nat) (x : RxStream) (s : State) (l' : Nat) : ((putRx k x).run s).coder l' = s.coder l' := rfl
@[simp] theorem putRx_run_arbAt (k : Nat) (x : RxStream) (s : State) (k' : Nat) : ((putRx k x).run s).arbAt k' = s.arbAt k' := rfl

/-! ### delRx -/

@[simp] theorem delRx_now (k : Nat) (s : State) : ((delRx k).run s).now = s.now := rfl
@[simp] theorem delRx_regs (k : Nat) (s : State) : ((delRx k).run s).regs = s.regs := rfl
@[simp] theorem delRx_stampRegs (k : Nat) (s : State) : ((delRx k).run s).stampRegs = s.stampRegs := rfl
@[simp] theorem delRx_cnts (k : Nat) (s : State) : ((delRx k).run s).cnts = s.cnts := rfl
@[simp] theorem delRx_ivs (k : Nat) (s : State) : ((delRx k).run s).ivs = s.ivs := rfl
@[simp] theorem delRx_fifos (k : Nat) (s : State) : ((delRx k).run s).fifos = s.fifos := rfl
@[simp] theorem delRx_arb (k : Nat) (s : State) : ((delRx k).run s).arb = s.arb := rfl
@[simp] theorem delRx_greqs (k : Nat) (s : State) : ((delRx k).run s).greqs = s.greqs := rfl
@[simp] theorem delRx_buf (k : Nat) (s : State) : ((delRx k).run s).buf = s.buf := rfl
@[simp] theorem delRx_waiting (k : Nat) (s : State) : ((delRx k).run s).waiting = s.waiting := rfl
@[simp] theorem delRx_replay (k : Nat) (s : State) : ((delRx k).run s).replay = s.replay := rfl
@[simp] theorem delRx_txs (k : Nat) (s : State) : ((delRx k).run s).txs = s.txs := rfl
@[simp] theorem delRx_rxs (k : Nat) (s : State) : ((delRx k).run s).rxs = Map.del s.rxs k := rfl
@[simp] theorem delRx_slots (k : Nat) (s : State) : ((delRx k).run s).slots = s.slots := rfl
@[simp] theorem delRx_fwd (k : Nat) (s : State) : ((delRx k).run s).fwd = s.fwd := rfl
@[simp] theorem delRx_prefs (k : Nat) (s : State) : ((delRx k).run s).prefs = s.prefs := rfl
@[simp] theorem delRx_descs (k : Nat) (s : State) : ((delRx k).run s).descs = s.descs := rfl
@[simp] theorem delRx_coders (k : Nat) (s : State) : ((delRx k).run s).coders = s.coders := rfl
@[simp] theorem delRx_out (k : Nat) (s : State) : ((delRx k).run s).out = s.out := rfl
@[simp] theorem delRx_free (k : Nat) (s : State) : ((delRx k).run s).free = s.free := rfl
@[simp] theorem delRx_run_rd (k : Nat) (s : State) (pg' : Pg) (f' : Fld) (i' : Nat) :
    ((delRx k).run s).rd pg' f' i' = s.rd pg' f' i' := rfl
@[simp] theorem delRx_run_rdSt (k : Nat) (s : State) (st' : Nat) (pg' : Pg) (f' : Fld) (i' : Nat) :
    ((delRx k).run s).rdSt st' pg' f' i' = s.rdSt st' pg' f' i' := rfl
@[simp] theorem delRx_run_iv (k : Nat) (s : State) (x' : Var) (i' : Nat) : ((delRx k).run s).iv x' i' = s.iv x' i' := rfl
@[simp] theorem delRx_run_fifo (k : Nat) (s : State) (q' : Fifo) (i' : Nat) : ((delRx k).run s).fifo q' i' = s.fifo q' i' := rfl
@[simp] theorem delRx_run_cnt (k : Nat) (s : State) (pg' : Pg) (i' : Nat) : ((delRx k).run s).cnt pg' i' = s.cnt pg' i' := rfl
@[simp] theorem delRx_run_coder (k : Nat) (s : State) (l' : Nat) : ((delRx k).run s).coder l' = s.coder l' := rfl
@[simp] theorem delRx_run_arbAt (k : Nat) (s : State) (k' : Nat) : ((delRx k).run s).arbAt k' = s.arbAt k' := rfl

/-! ### clearStreams -/

@[simp] theorem clearStreams_now (s : State) : ((clearStreams).run s).now = s.now := rfl
@[simp] theorem clearStreams_regs (s : State) : ((clearStreams).run s).regs = s.regs := rfl
@[simp] theorem clearStreams_stampRegs (s : State) : ((clearStreams).run s).stampRegs = s.stampRegs := rfl
@[simp] theorem clearStreams_cnts (s : State) : ((clearStreams).run s).cnts = s.cnts := rfl
@[simp] theorem clearStreams_ivs (s : State) : ((clearStreams).run s).ivs = s.ivs := rfl
@[simp] theorem clearStreams_fifos (s : State) : ((clearStreams).run s).fifos = s.fifos := rfl
@[simp] theorem clearStreams_arb (s : State) : ((clearStreams).run s).arb = s.arb := rfl
@[simp] theorem clearStreams_greqs (s : State) : ((clearStreams).run s).greqs = s.greqs := rfl
@[simp] theorem clearStreams_buf (s : State) : ((clearStreams).run s).buf = s.buf := rfl
@[simp] theorem clearStreams_waiting (s : State) : ((clearStreams).run s).waiting = s.waiting := rfl
@[simp] theorem clearStreams_replay (s : State) : ((clearStreams).run s).replay = s.replay := rfl
@[simp] theorem clearStreams_txs (s : State) : ((clearStreams).run s).txs = [] := rfl
@[simp] theorem clearStreams_rxs (s : State) : ((clearStreams).run s).rxs = [] := rfl
@[simp] theorem clearStreams_slots (s : State) : ((clearStreams).run s).slots = s.slots := rfl
@[simp] theorem clearStreams_fwd (s : State) : ((clearStreams).run s).fwd = s.fwd := rfl
@[simp] theorem clearStreams_prefs (s : State) : ((clearStreams).run s).prefs = s.prefs := rfl
@[simp] theorem clearStreams_descs (s : State) : ((clearStreams).run s).descs = s.descs := rfl
@[simp] theorem clearStreams_coders (s : State) : ((clearStreams).run s).coders = s.coders := rfl
@[simp] theorem clearStreams_out (s : State) : ((clearStreams).run s).out = s.out := rfl
@[simp] theorem clearStreams_free (s : State) : ((clearStreams).run s).free = s.free := rfl
@[simp] theorem clearStreams_run_rd (s : State) (pg' : Pg) (f' : Fld) (i' : Nat) :
    ((clearStreams).run s).rd pg' f' i' = s.rd pg' f' i' := rfl
@[simp] theorem clearStreams_run_rdSt (s : State) (st' : Nat) (pg' : Pg) (f' : Fld) (i' : Nat) :
    ((clearStreams).run s).rdSt st' pg' f' i' = s.rdSt st' pg' f' i' := rfl
@[simp] theorem clearStreams_run_iv (s : State) (x' : Var) (i' : Nat) : ((clearStreams).run s).iv x' i' = s.iv x' i' := rfl
@[simp] theorem clearStreams_run_fifo (s : State) (q' : Fifo) (i' : Nat) : ((clearStreams).run s).fifo q' i' = s.fifo q' i' := rfl
@[simp] theorem clearStreams_run_cnt (s : State) (pg' : Pg) (i' : Nat) : ((clearStreams).run s).cnt pg' i' = s.cnt pg' i' := rfl
@[simp] theorem clearStreams_run_coder (s : State) (l' : Nat) : ((clearStreams).run s).coder l' = s.coder l' := rfl
@[simp] theorem clearStreams_run_arbAt (s : State) (k' : Nat) : ((clearStreams).run s).arbAt k' = s.arbAt k' := rfl

/-! ### modCoder -/

@[simp] theorem modCoder_now (l : Nat) (f : Coder → Coder) (s : State) : ((modCoder l f).run s).now = s.now := rfl
@[simp] theorem modCoder_regs (l : Nat) (f : Coder → Coder) (s : State) : ((modCoder l f).run s).regs = s.regs := rfl
@[simp] theorem modCoder_stampRegs (l : Nat) (f : Coder → Coder) (s : State) :
    ((modCoder l f).run s).stampRegs = s.stampRegs := rfl
@[simp] theorem modCoder_cnts (l : Nat) (f : Coder → Coder) (s : State) : ((modCoder l f).run s).cnts = s.cnts := rfl
@[simp] theorem modCoder_ivs (l : Nat) (f : Coder → Coder) (s : State) : ((modCoder l f).run s).ivs = s.ivs := rfl
@[simp] theorem modCoder_fifos (l : Nat) (f : Coder → Coder) (s : State) : ((modCoder l f).run s).fifos = s.fifos := rfl
@[simp] theorem modCoder_arb (l : Nat) (f : Coder → Coder) (s : State) : ((modCoder l f).run s).arb = s.arb := rfl
@[simp] theorem modCoder_greqs (l : Nat) (f : Coder → Coder) (s : State) : ((modCoder l f).run s).greqs = s.greqs := rfl
@[simp] theorem modCoder_buf (l : Nat) (f : Coder → Coder) (s : State) : ((modCoder l f).run s).buf = s.buf := rfl
@[simp] theorem modCoder_waiting (l : Nat) (f : Coder → Coder) (s : State) : ((modCoder l f).run s).waiting = s.waiting := rfl
@[simp] theorem modCoder_replay (l : Nat) (f : Coder → Coder) (s : State) : ((modCoder l f).run s).replay = s.replay := rfl
@[simp] theorem modCoder_txs (l : Nat) (f : Coder → Coder) (s : State) : ((modCoder l f).run s).txs = s.txs := rfl
@[simp] theorem modCoder_rxs (l : Nat) (f : Coder → Coder) (s : State) : ((modCoder l f).run s).rxs = s.rxs := rfl
@[simp] theorem modCoder_slots (l : Nat) (f : Coder → Coder) (s : State) : ((modCoder l f).run s).slots = s.slots := rfl
@[simp] theorem modCoder_fwd (l : Nat) (f : Coder → Coder) (s : State) : ((modCoder l f).run s).fwd = s.fwd := rfl
@[simp] theorem modCoder_prefs (l : Nat) (f : Coder → Coder) (s : State) : ((modCoder l f).run s).prefs = s.prefs := rfl
@[simp] theorem modCoder_descs (l : Nat) (f : Coder → Coder) (s : State) : ((modCoder l f).run s).descs = s.descs := rfl
@[simp] theorem modCoder_coders (l : Nat) (f : Coder → Coder) (s : State) :
    ((modCoder l f).run s).coders = Map.set s.coders l (f (s.coder l)) .start := rfl
@[simp] theorem modCoder_out (l : Nat) (f : Coder → Coder) (s : State) : ((modCoder l f).run s).out = s.out := rfl
@[simp] theorem modCoder_free (l : Nat) (f : Coder → Coder) (s : State) : ((modCoder l f).run s).free = s.free := rfl
@[simp] theorem modCoder_run_rd (l : Nat) (f : Coder → Coder) (s : State) (pg' : Pg) (f' : Fld) (i' : Nat) :
    ((modCoder l f).run s).rd pg' f' i' = s.rd pg' f' i' := rfl
@[simp] theorem modCoder_run_rdSt (l : Nat) (f : Coder → Coder) (s : State) (st' : Nat) (pg' : Pg) (f' : Fld) (i' : Nat) :
    ((modCoder l f).run s).rdSt st' pg' f' i' = s.rdSt st' pg' f' i' := rfl
@[simp] theorem modCoder_run_iv (l : Nat) (f : Coder → Coder) (s : State) (x' : Var) (i' : Nat) :
    ((modCoder l f).run s).iv x' i' = s.iv x' i' := rfl
@[simp] theorem modCoder_run_fifo (l : Nat) (f : Coder → Coder) (s : State) (q' : Fifo) (i' : Nat) :
    ((modCoder l f).run s).fifo q' i' = s.fifo q' i' := rfl
@[simp] theorem modCoder_run_cnt (l : Nat) (f : Coder → Coder) (s : State) (pg' : Pg) (i' : Nat) :
    ((modCoder l f).run s).cnt pg' i' = s.cnt pg' i' := rfl
@[simp] theorem modCoder_run_arbAt (l : Nat) (f : Coder → Coder) (s : State) (k' : Nat) :
    ((modCoder l f).run s).arbAt k' = s.arbAt k' := rfl

/-! ### setNow -/

@[simp] theorem setNow_now (n : Nat) (s : State) : ((setNow n).run s).now = n := rfl
@[simp] theorem setNow_regs (n : Nat) (s : State) : ((setNow n).run s).regs = s.regs := rfl
@[simp] theorem setNow_stampRegs (n : Nat) (s : State) : ((setNow n).run s).stampRegs = s.stampRegs := rfl
@[simp] theorem setNow_cnts (n : Nat) (s : State) : ((setNow n).run s).cnts = s.cnts := rfl
@[simp] theorem setNow_ivs (n : Nat) (s : State) : ((setNow n).run s).ivs = s.ivs := rfl
@[simp] theorem setNow_fifos (n : Nat) (s : State) : ((setNow n).run s).fifos = s.fifos := rfl
@[simp] theorem setNow_arb (n : Nat) (s : State) : ((setNow n).run s).arb = s.arb := rfl
@[simp] theorem setNow_greqs (n : Nat) (s : State) : ((setNow n).run s).greqs = s.greqs := rfl
@[simp] theorem setNow_buf (n : Nat) (s : State) : ((setNow n).run s).buf = s.buf := rfl
@[simp] theorem setNow_waiting (n : Nat) (s : State) : ((setNow n).run s).waiting = s.waiting := rfl
@[simp] theorem setNow_replay (n : Nat) (s : State) : ((setNow n).run s).replay = s.replay := rfl
@[simp] theorem setNow_txs (n : Nat) (s : State) : ((setNow n).run s).txs = s.txs := rfl
@[simp] theorem setNow_rxs (n : Nat) (s : State) : ((setNow n).run s).rxs = s.rxs := rfl
@[simp] theorem setNow_slots (n : Nat) (s : State) : ((setNow n).run s).slots = s.slots := rfl
@[simp] theorem setNow_fwd (n : Nat) (s : State) : ((setNow n).run s).fwd = s.fwd := rfl
@[simp] theorem setNow_prefs (n : Nat) (s : State) : ((setNow n).run s).prefs = s.prefs := rfl
@[simp] theorem setNow_descs (n : Nat) (s : State) : ((setNow n).run s).descs = s.descs := rfl
@[simp] theorem setNow_coders (n : Nat) (s : State) : ((setNow n).run s).coders = s.coders := rfl
@[simp] theorem setNow_out (n : Nat) (s : State) : ((setNow n).run s).out = s.out := rfl
@[simp] theorem setNow_free (n : Nat) (s : State) : ((setNow n).run s).free = s.free := rfl
@[simp] theorem setNow_run_rd (n : Nat) (s : State) (pg' : Pg) (f' : Fld) (i' : Nat) :
    ((setNow n).run s).rd pg' f' i' = s.rd pg' f' i' := rfl
@[simp] theorem setNow_run_rdSt (n : Nat) (s : State) (st' : Nat) (pg' : Pg) (f' : Fld) (i' : Nat) :
    ((setNow n).run s).rdSt st' pg' f' i' = s.rdSt st' pg' f' i' := rfl
@[simp] theorem setNow_run_iv (n : Nat) (s : State) (x' : Var) (i' : Nat) : ((setNow n).run s).iv x' i' = s.iv x' i' := rfl
@[simp] theorem setNow_run_fifo (n : Nat) (s : State) (q' : Fifo) (i' : Nat) : ((setNow n).run s).fifo q' i' = s.fifo q' i' := rfl
@[simp] theorem setNow_run_cnt (n : Nat) (s : State) (pg' : Pg) (i' : Nat) : ((setNow n).run s).cnt pg' i' = s.cnt pg' i' := rfl
@[simp] theorem setNow_run_coder (n : Nat) (s : State) (l' : Nat) : ((setNow n).run s).coder l' = s.coder l' := rfl
@[simp] theorem setNow_run_arbAt (n : Nat) (s : State) (k' : Nat) : ((setNow n).run s).arbAt k' = s.arbAt k' := rfl

/-! ### draw -/

@[simp] theorem draw_now (s : State) : ((draw).run s).now = s.now := rfl
@[simp] theorem draw_regs (s : State) : ((draw).run s).regs = s.regs := rfl
@[simp] theorem draw_stampRegs (s : State) : ((draw).run s).stampRegs = s.stampRegs := rfl
@[simp] theorem draw_cnts (s : State) : ((draw).run s).cnts = s.cnts := rfl
@[simp] theorem draw_ivs (s : State) : ((draw).run s).ivs = s.ivs := rfl
@[simp] theorem draw_fifos (s : State) : ((draw).run s).fifos = s.fifos := rfl
@[simp] theorem draw_arb (s : State) : ((draw).run s).arb = s.arb := rfl
@[simp] theorem draw_greqs (s : State) : ((draw).run s).greqs = s.greqs := rfl
@[simp] theorem draw_buf (s : State) : ((draw).run s).buf = s.buf := rfl
@[simp] theorem draw_waiting (s : State) : ((draw).run s).waiting = s.waiting := rfl
@[simp] theorem draw_replay (s : State) : ((draw).run s).replay = s.replay := rfl
@[simp] theorem draw_txs (s : State) : ((draw).run s).txs = s.txs := rfl
@[simp] theorem draw_rxs (s : State) : ((draw).run s).rxs = s.rxs := rfl
@[simp] theorem draw_slots (s : State) : ((draw).run s).slots = s.slots := rfl
@[simp] theorem draw_fwd (s : State) : ((draw).run s).fwd = s.fwd := rfl
@[simp] theorem draw_prefs (s : State) : ((draw).run s).prefs = s.prefs := rfl
@[simp] theorem draw_descs (s : State) : ((draw).run s).descs = s.descs := rfl
@[simp] theorem draw_coders (s : State) : ((draw).run s).coders = s.coders := rfl
@[simp] theorem draw_out (s : State) : ((draw).run s).out = s.out := rfl
@[simp] theorem draw_free (s : State) : ((draw).run s).free = s.free + 1 := rfl
@[simp] theorem draw_run_rd (s : State) (pg' : Pg) (f' : Fld) (i' : Nat) : ((draw).run s).rd pg' f' i' = s.rd pg' f' i' := rfl
@[simp] theorem draw_run_rdSt (s : State) (st' : Nat) (pg' : Pg) (f' : Fld) (i' : Nat) :
    ((draw).run s).rdSt st' pg' f' i' = s.rdSt st' pg' f' i' := rfl
@[simp] theorem draw_run_iv (s : State) (x' : Var) (i' : Nat) : ((draw).run s).iv x' i' = s.iv x' i' := rfl
@[simp] theorem draw_run_fifo (s : State) (q' : Fifo) (i' : Nat) : ((draw).run s).fifo q' i' = s.fifo q' i' := rfl
@[simp] theorem draw_run_cnt (s : State) (pg' : Pg) (i' : Nat) : ((draw).run s).cnt pg' i' = s.cnt pg' i' := rfl
@[simp] theorem draw_run_coder (s : State) (l' : Nat) : ((draw).run s).coder l' = s.coder l' := rfl
@[simp] theorem draw_run_arbAt (s : State) (k' : Nat) : ((draw).run s).arbAt k' = s.arbAt k' := rfl

/-! ### Reading after writing -/

theorem rd_wr_self {s : State} (h : s.wf) (pg : Pg) (f : Fld) (v i : Nat) : ((wr pg f v i).run s).rd pg f i = v % 2 ^ f.width := by
  show Map.get _ _ _ % _ = _
  rw [wr_regs, Map.get_set_self h.1, Nat.mod_mod]

theorem rd_wr_ne {s : State} (h : s.wf) {pg pg' : Pg} {f f' : Fld} {i i' : Nat} (v : Nat) (hk : f'.key pg' i' ≠ f.key pg i) :
    ((wr pg f v i).run s).rd pg' f' i' = s.rd pg' f' i' := by
  show Map.get _ _ _ % _ = Map.get _ _ _ % _
  rw [wr_regs, Map.get_set_ne h.1 _ _ _ hk]

/-- A field reads as at most its width's bits. -/
theorem rd_lt (s : State) (pg : Pg) (f : Fld) (i : Nat) : s.rd pg f i < 2 ^ f.width := Nat.mod_lt _ (Nat.two_pow_pos _)

theorem rdSt_wrSt_self {s : State} (h : s.wf) (st : Nat) (pg : Pg) (f : Fld) (v i : Nat) :
    ((wrSt st pg f v i).run s).rdSt st pg f i = v % 2 ^ f.width := by
  show Map.get _ _ _ % _ = _
  rw [wrSt_stampRegs, Map.get_set_self h.2.1, Nat.mod_mod]

theorem iv_put_self {s : State} (h : s.wf) (x : Var) (v i : Nat) : ((put x v i).run s).iv x i = v :=
  Map.get_set_self h.2.2.2.2.1.1 _ _ _

theorem iv_put_ne {s : State} (h : s.wf) {x y : Var} {i j : Nat} (v : Nat)
    (hk : y.key j ≠ x.key i) : ((put x v i).run s).iv y j = s.iv y j :=
  Map.get_set_ne h.2.2.2.2.1.1 _ _ _ hk

theorem fifo_putFifo_self {s : State} (h : s.wf) (q : Fifo) (l : List Nat) (i : Nat) : ((putFifo q l i).run s).fifo q i = l :=
  Map.get_set_self h.2.2.2.2.2.1 _ _ _

theorem fifo_putFifo_ne {s : State} (h : s.wf) {q r : Fifo} {i j : Nat} (l : List Nat)
    (hk : r.key j ≠ q.key i) : ((putFifo q l i).run s).fifo r j = s.fifo r j :=
  Map.get_set_ne h.2.2.2.2.2.1 _ _ _ hk

theorem cnt_setCnt_self {s : State} (h : s.wf) (pg : Pg) (i v : Nat) : ((setCnt pg i v).run s).cnt pg i = min v cntMax :=
  Map.get_set_self h.2.2.1.1 _ _ _

theorem cnt_setCnt_ne {s : State} (h : s.wf) {pg pg' : Pg} {i i' : Nat} (v : Nat) (hk : cntKey pg' i' ≠ cntKey pg i) :
    ((setCnt pg i v).run s).cnt pg' i' = s.cnt pg' i' := Map.get_set_ne h.2.2.1.1 _ _ _ hk

theorem coder_modCoder_self {s : State} (h : s.wf) (l : Nat) (f : Coder → Coder) : ((modCoder l f).run s).coder l = f (s.coder l) :=
  Map.get_set_self h.2.2.2.2.2.2.2.2.2.2 _ _ _

theorem coder_modCoder_ne {s : State} (h : s.wf) {l k : Nat} (f : Coder → Coder) (hk : k ≠ l) :
    ((modCoder l f).run s).coder k = s.coder k := Map.get_set_ne h.2.2.2.2.2.2.2.2.2.2 _ _ _ hk

theorem arbAt_raiseArb_self {s : State} (h : s.wf) (k v : Nat) : ((raiseArb k v).run s).arbAt k = max v (s.arbAt k) :=
  Map.get_set_self h.2.2.2.2.2.2.1.1 _ _ _

end Sys2Proof.Machine
end

