-- ==== Sys2Proof/Laws/Keys.lean ====
section
/-! SUPPORT. No two register fields, counters, numbers or queues share a key: a write of one leaves every other as it was. -/

namespace Sys2Proof

theorem pairUp_inj {a b c d : Nat} (h : pairUp a b = pairUp c d) : a = c ∧ b = d := Nat.pair_eq_pair.1 h

theorem Pg.kind_lt (pg : Pg) : pg.kind < 32 := by cases pg <;> simp [Pg.kind]

/-- The page of a kind and a number. -/
def pgOf (kind n : Nat) : Pg :=
  match kind with
  | 0 => .glb
  | 1 => .mgmt n
  | 2 => .sec n
  | 3 => .guard n
  | 4 => .lane n
  | 5 => .pwrg
  | 6 => .pwr n
  | 7 => .core n
  | 8 => .route n
  | 9 => .bridge n
  | 10 => .mbox n
  | 11 => .port n
  | 12 => .face n
  | 13 => .schedg
  | 14 => .sched n
  | 15 => .tenant n
  | 16 => .inst n
  | 17 => .moverg
  | 18 => .eng n
  | _ => .ring n

theorem pgOf_eq (pg : Pg) : pgOf pg.kind pg.index = pg := by cases pg <;> rfl

theorem Pg.eq_of {pg pg' : Pg} (hk : pg.kind = pg'.kind) (hi : pg.index = pg'.index) : pg = pg' := by
  rw [← pgOf_eq pg, ← pgOf_eq pg', hk, hi]

theorem Pg.code_inj {pg pg' : Pg} (h : pg.code = pg'.code) : pg = pg' := by
  have a := pg.kind_lt
  have b := pg'.kind_lt
  unfold Pg.code at h
  exact Pg.eq_of (by omega) (by omega)

/-- For each kind of page: the address of the first, the number of the first, the bytes of each, and how many there are. -/
def kindRange : List (Nat × Nat × Nat × Nat) :=
  [(0, 0, 0x10000, 1), (0x10000, 0, 0x10000, 7), (0x80000, 0, 0x10000, 4), (0xC0000, 0, 0x10000, 4), (0x100000, 0, 0x10000, 24),
   (0x300000, 255, 0x10000, 1), (0x310000, 0, 0x10000, 24), (0x500000, 0, 0x10000, 16), (0x600000, 0, 0x10000, 16), (0x700000, 0, 0x10000, 8),
   (0x780000, 0, 0x10000, 8), (0x800000, 0, 0x10000, 96), (0xE00000, 0, 0x10000, 32), (0x2000000, 255, 0x10000, 1), (0x2010000, 0, 0x10000, 96),
   (0x2800000, 0, 0x1000, 1024), (0x2C00000, 0, 0x10000, 16), (0x3000000, 255, 0x10000, 1), (0x3010000, 0, 0x10000, 64),
   (0x3800000, 0, 0x40, 4096)]

/-- Where a page that the part has lies, by its kind. -/
theorem Pg.range {pg : Pg} (h : pg.ok = true) : ∃ r, kindRange[pg.kind]? = some r ∧ r.2.1 ≤ pg.index ∧ pg.index < r.2.1 + r.2.2.2 ∧
    pg.size = r.2.2.1 ∧ pg.base = r.1 + (pg.index - r.2.1) * r.2.2.1 := by
  have h := of_decide_eq_true h
  cases pg <;> refine ⟨_, rfl, ?_⟩ <;> simp [Pg.index, Pg.limit, Pg.base, Pg.size] at * <;> omega

theorem kindRange_apart : ∀ i j : Fin 20, i ≠ j → ∀ r ∈ kindRange[i.val]?, ∀ q ∈ kindRange[j.val]?,
    r.1 + r.2.2.2 * r.2.2.1 ≤ q.1 ∨ q.1 + q.2.2.2 * q.2.2.1 ≤ r.1 := by decide +kernel

theorem kindRange_end : ∀ i : Fin 20, ∀ r ∈ kindRange[i.val]?, r.1 + r.2.2.2 * r.2.2.1 ≤ 2 ^ 26 ∧ 0 < r.2.2.1 := by decide +kernel

theorem Pg.kind_lt20 (pg : Pg) : pg.kind < 20 := by cases pg <;> simp [Pg.kind]

theorem Pg.end_le {pg : Pg} {r : Nat × Nat × Nat × Nat} (h2 : r.2.1 ≤ pg.index) (h3 : pg.index < r.2.1 + r.2.2.2)
    (h4 : pg.size = r.2.2.1) (h5 : pg.base = r.1 + (pg.index - r.2.1) * r.2.2.1) : r.1 ≤ pg.base ∧ pg.base + pg.size ≤ r.1 + r.2.2.2 * r.2.2.1 := by
  have : (pg.index - r.2.1 + 1) * r.2.2.1 ≤ r.2.2.2 * r.2.2.1 := Nat.mul_le_mul_right _ (by omega)
  rw [Nat.add_mul] at this
  constructor <;> omega

/-- A page the part has lies in the space. -/
theorem Pg.inSpace {pg : Pg} (h : pg.ok = true) : pg.base + pg.size ≤ 2 ^ 26 := by
  obtain ⟨r, h1, h2, h3, h4, h5⟩ := Pg.range h
  exact Nat.le_trans (Pg.end_le h2 h3 h4 h5).2 (kindRange_end ⟨pg.kind, pg.kind_lt20⟩ r h1).1

/-- Pages the part has do not overlap. -/
theorem Pg.apart {pg pg' : Pg} {a b : Nat} (h : pg.ok = true) (h' : pg'.ok = true) (ha : a < pg.size) (hb : b < pg'.size)
    (he : pg.base + a = pg'.base + b) : pg = pg' := by
  obtain ⟨r, h1, h2, h3, h4, h5⟩ := Pg.range h
  obtain ⟨q, g1, g2, g3, g4, g5⟩ := Pg.range h'
  have e1 := Pg.end_le h2 h3 h4 h5
  have e2 := Pg.end_le g2 g3 g4 g5
  by_cases hk : pg.kind = pg'.kind
  · rw [hk, g1] at h1
    obtain rfl : q = r := Option.some.inj h1
    refine Pg.eq_of hk ?_
    have hd : (pg.index - q.2.1) * q.2.2.1 + a = (pg'.index - q.2.1) * q.2.2.1 + b := by omega
    have ha' : a < q.2.2.1 := by omega
    have hb' : b < q.2.2.1 := by omega
    have := congrArg (· / q.2.2.1) hd
    simp only [Nat.mul_comm _ q.2.2.1, Nat.mul_add_div (Nat.lt_of_le_of_lt (Nat.zero_le _) ha'), Nat.div_eq_of_lt ha', Nat.div_eq_of_lt hb'] at this
    omega
  · have := kindRange_apart ⟨pg.kind, pg.kind_lt20⟩ ⟨pg'.kind, pg'.kind_lt20⟩ (fun e => hk (congrArg Fin.val e)) r h1 q g1
    omega

theorem Pg.size_le (pg : Pg) : pg.size ≤ 0x10000 := by cases pg <;> simp [Pg.size]

end Sys2Proof

namespace Sys2Proof.Machine

section
set_option Elab.async false
set_option linter.unusedTactic false
set_option linter.unreachableTactic false

/-- The last offset of a field's array. -/
def Fld.last (f : Fld) : Nat := f.off + (f.count - 1) * f.stride

/-- Two fields of one page share no register bit. -/
def Fld.apart (f g : Fld) : Bool :=
  f.lo != g.lo || f.last < g.off || g.last < f.off || (f.stride == g.stride && f.stride != 0 && f.off % f.stride != g.off % g.stride)

/-- The field lies in a page of `n` bytes. -/
def Fld.fits (n : Nat) (f : Fld) : Bool := f.count != 0 && f.lo < 32 && f.last < n && (f.count ≤ 1 || f.stride != 0)

/-- A table of fields that fit in `n` bytes and do not overlap. -/
def tableOk (n : Nat) (l : List Fld) : Bool := l.all fun f => f.fits n && l.all fun g => f.apart g || f == g

theorem tabNone_ok : tableOk 0x10000 (tabHDR ++ []) = true := by decide +kernel

theorem tabGLB_ok : tableOk 0x10000 (tabHDR ++ tabGLB) = true := by decide +kernel

theorem tabMGMT0_ok : tableOk 0x10000 (tabHDR ++ tabMGMT0) = true := by decide +kernel

theorem tabMGMT1_ok : tableOk 0x10000 (tabHDR ++ tabMGMT1) = true := by decide +kernel

theorem tabMGMT2_ok : tableOk 0x10000 (tabHDR ++ tabMGMT2) = true := by decide +kernel

theorem tabSEC0_ok : tableOk 0x10000 (tabHDR ++ tabSEC0) = true := by decide +kernel

theorem tabSEC1_ok : tableOk 0x10000 (tabHDR ++ tabSEC1) = true := by decide +kernel

theorem tabSEC2_ok : tableOk 0x10000 (tabHDR ++ tabSEC2) = true := by decide +kernel

theorem tabGUARD0_ok : tableOk 0x10000 (tabHDR ++ tabGUARD0) = true := by decide +kernel

theorem tabGUARD1_ok : tableOk 0x10000 (tabHDR ++ tabGUARD1) = true := by decide +kernel

theorem tabLANE_ok : tableOk 0x10000 (tabHDR ++ tabLANE) = true := by decide +kernel

theorem tabPWRG_ok : tableOk 0x10000 (tabHDR ++ tabPWRG) = true := by decide +kernel

theorem tabPWR_ok : tableOk 0x10000 (tabHDR ++ tabPWR) = true := by decide +kernel

theorem tabCORE0_ok : tableOk 0x10000 (tabHDR ++ tabCORE0) = true := by decide +kernel

theorem tabCORE1_ok : tableOk 0x10000 (tabHDR ++ tabCORE1) = true := by decide +kernel

theorem tabCORE2_ok : tableOk 0x10000 (tabHDR ++ tabCORE2) = true := by decide +kernel

theorem tabCORE3_ok : tableOk 0x10000 (tabHDR ++ tabCORE3) = true := by decide +kernel

theorem tabROUTE0_ok : tableOk 0x10000 (tabHDR ++ tabROUTE0) = true := by decide +kernel

theorem tabROUTE1_ok : tableOk 0x10000 (tabHDR ++ tabROUTE1) = true := by decide +kernel

theorem tabROUTE2_ok : tableOk 0x10000 (tabHDR ++ tabROUTE2) = true := by decide +kernel

theorem tabBRIDGE0_ok : tableOk 0x10000 (tabHDR ++ tabBRIDGE0) = true := by decide +kernel

theorem tabBRIDGE1_ok : tableOk 0x10000 (tabHDR ++ tabBRIDGE1) = true := by decide +kernel

theorem tabBRIDGE2_ok : tableOk 0x10000 (tabHDR ++ tabBRIDGE2) = true := by decide +kernel

theorem tabBRIDGE4_ok : tableOk 0x10000 (tabHDR ++ tabBRIDGE4) = true := by decide +kernel

theorem tabMBOX0_ok : tableOk 0x10000 (tabHDR ++ tabMBOX0) = true := by decide +kernel

theorem tabMBOX1_ok : tableOk 0x10000 (tabHDR ++ tabMBOX1) = true := by decide +kernel

theorem tabMBOX2_ok : tableOk 0x10000 (tabHDR ++ tabMBOX2) = true := by decide +kernel

theorem tabMBOX3_ok : tableOk 0x10000 (tabHDR ++ tabMBOX3) = true := by decide +kernel

theorem tabPORT_ok : tableOk 0x10000 (tabHDR ++ tabPORT) = true := by decide +kernel

theorem tabFACE_ok : tableOk 0x10000 (tabHDR ++ tabFACE) = true := by decide +kernel

theorem tabSCHEDG_ok : tableOk 0x10000 (tabHDR ++ tabSCHEDG) = true := by decide +kernel

theorem tabSCHED_ok : tableOk 0x10000 (tabHDR ++ tabSCHED) = true := by decide +kernel

theorem tabTENANT_ok : tableOk 0x1000 tabTENANT = true := by decide +kernel

theorem tabINST0_ok : tableOk 0x10000 (tabHDR ++ tabINST0) = true := by decide +kernel

theorem tabINST1_ok : tableOk 0x10000 (tabHDR ++ tabINST1) = true := by decide +kernel

theorem tabINST2_ok : tableOk 0x10000 (tabHDR ++ tabINST2) = true := by decide +kernel

theorem tabINST3_ok : tableOk 0x10000 (tabHDR ++ tabINST3) = true := by decide +kernel

theorem tabMOVERG_ok : tableOk 0x10000 (tabHDR ++ tabMOVERG) = true := by decide +kernel

theorem tabENG_ok : tableOk 0x10000 (tabHDR ++ tabENG) = true := by decide +kernel

theorem tabRING_ok : tableOk 0x40 tabRING = true := by decide +kernel

end

theorem fields_ok (pg : Pg) : tableOk pg.size pg.fields = true := by
  cases pg with
  | glb => exact tabGLB_ok
  | mgmt k =>
    match k with
    | 0 => exact tabMGMT0_ok
    | 1 => exact tabMGMT1_ok
    | 2 => exact tabMGMT2_ok
    | _ + 3 => exact tabNone_ok
  | sec k =>
    match k with
    | 0 => exact tabSEC0_ok
    | 1 => exact tabSEC1_ok
    | 2 => exact tabSEC2_ok
    | _ + 3 => exact tabNone_ok
  | guard k =>
    match k with
    | 0 => exact tabGUARD0_ok
    | 1 => exact tabGUARD1_ok
    | _ + 2 => exact tabNone_ok
  | lane k => exact tabLANE_ok
  | pwrg => exact tabPWRG_ok
  | pwr k => exact tabPWR_ok
  | core k =>
    match k with
    | 0 => exact tabCORE0_ok
    | 1 => exact tabCORE1_ok
    | 2 => exact tabCORE2_ok
    | 3 => exact tabCORE3_ok
    | _ + 4 => exact tabNone_ok
  | route k =>
    match k with
    | 0 => exact tabROUTE0_ok
    | 1 => exact tabROUTE1_ok
    | 2 => exact tabROUTE2_ok
    | _ + 3 => exact tabNone_ok
  | bridge k =>
    match k with
    | 0 => exact tabBRIDGE0_ok
    | 1 => exact tabBRIDGE1_ok
    | 2 => exact tabBRIDGE2_ok
    | 3 => exact tabNone_ok
    | 4 => exact tabBRIDGE4_ok
    | _ + 5 => exact tabNone_ok
  | mbox k =>
    match k with
    | 0 => exact tabMBOX0_ok
    | 1 => exact tabMBOX1_ok
    | 2 => exact tabMBOX2_ok
    | 3 => exact tabMBOX3_ok
    | _ + 4 => exact tabNone_ok
  | port k => exact tabPORT_ok
  | face k => exact tabFACE_ok
  | schedg => exact tabSCHEDG_ok
  | sched k => exact tabSCHED_ok
  | tenant k => rw [show (Pg.tenant k).fields = tabTENANT by simp [Pg.fields, Pg.common, Pg.tab]]; exact tabTENANT_ok
  | inst k =>
    match k with
    | 0 => exact tabINST0_ok
    | 1 => exact tabINST1_ok
    | 2 => exact tabINST2_ok
    | 3 => exact tabINST3_ok
    | _ + 4 => exact tabNone_ok
  | moverg => exact tabMOVERG_ok
  | eng k => exact tabENG_ok
  | ring k => rw [show (Pg.ring k).fields = tabRING by simp [Pg.fields, Pg.common, Pg.tab]]; exact tabRING_ok

theorem Fld.fits_all {pg : Pg} {f : Fld} (h : f ∈ pg.fields) : f.count ≠ 0 ∧ f.lo < 32 ∧ f.last < pg.size ∧ (f.count ≤ 1 ∨ f.stride ≠ 0) := by
  have := List.all_eq_true.1 (fields_ok pg) f h
  simp only [Bool.and_eq_true] at this
  have := this.1
  simpa [Fld.fits, and_assoc] using this

theorem Fld.fits_of_mem {pg : Pg} {f : Fld} (h : f ∈ pg.fields) : f.count ≠ 0 ∧ f.lo < 32 ∧ f.last < pg.size :=
  have a := Fld.fits_all h
  ⟨a.1, a.2.1, a.2.2.1⟩

theorem Fld.apart_of_mem {pg : Pg} {f g : Fld} (hf : f ∈ pg.fields) (hg : g ∈ pg.fields) (hne : f ≠ g) : f.apart g = true := by
  have := List.all_eq_true.1 (fields_ok pg) f hf
  simp only [Bool.and_eq_true] at this
  have := List.all_eq_true.1 this.2 g hg
  simpa [hne] using this

/-- Where a field's register lies: in its page, or outside the space. -/
theorem Fld.addr_cases (f : Fld) (pg : Pg) (i : Nat) :
    (pg.ok = true ∧ (i < f.count ∨ f.stride = 0) ∧ f.addr pg i = pg.base + (f.off + i * f.stride)) ∨
      f.addr pg i = 2 ^ 26 * (1 + pairUp pg.code i) + f.off := by
  unfold Fld.addr
  split
  · rename_i h
    simp at h
    exact .inl ⟨h.1, h.2, by omega⟩
  · exact .inr rfl

theorem Fld.within_last {f : Fld} {i : Nat} (h : i < f.count ∨ f.stride = 0) : f.off + i * f.stride ≤ f.last := by
  unfold Fld.last
  rcases h with h | h
  · have : i * f.stride ≤ (f.count - 1) * f.stride := Nat.mul_le_mul_right _ (by omega)
    omega
  · simp [h]

/-- Fields with a key in common are the same field of the same page. -/
theorem key_inj {f g : Fld} {pg pg' : Pg} {i j : Nat} (hf : f ∈ pg.fields) (hg : g ∈ pg'.fields)
    (h : f.key pg i = g.key pg' j) : pg = pg' ∧ f = g := by
  obtain ⟨fc, fl, fs⟩ := Fld.fits_of_mem hf
  obtain ⟨gc, gl, gs⟩ := Fld.fits_of_mem hg
  have ps := pg.size_le
  have ps' := pg'.size_le
  unfold Fld.key at h
  have hl : f.lo = g.lo := by omega
  have ha : f.addr pg i = g.addr pg' j := by omega
  have fo : f.off ≤ f.last := Nat.le_add_right _ _
  have go : g.off ≤ g.last := Nat.le_add_right _ _
  rcases f.addr_cases pg i with ⟨fk, fi, fa⟩ | fa <;> rcases g.addr_cases pg' j with ⟨gk, gi, ga⟩ | ga <;> rw [fa, ga] at ha
  · have f1 := Fld.within_last fi
    have g1 := Fld.within_last gi
    have hp := Pg.apart fk gk (a := f.off + i * f.stride) (b := g.off + j * g.stride) (by omega) (by omega) ha
    subst hp
    refine ⟨rfl, Classical.byContradiction fun hne => ?_⟩
    have hap := Fld.apart_of_mem hf hg hne
    have ho : f.off + i * f.stride = g.off + j * g.stride := by omega
    simp only [Fld.apart, Bool.or_eq_true, Bool.and_eq_true, decide_eq_true_eq, bne_iff_ne, beq_iff_eq] at hap
    rcases hap with ((hap | hap) | hap) | ⟨⟨hap, _⟩, hap'⟩
    · exact hap hl
    · have : g.off ≤ g.off + j * g.stride := Nat.le_add_right _ _
      omega
    · have : f.off ≤ f.off + i * f.stride := Nat.le_add_right _ _
      omega
    · apply hap'
      rw [← hap] at ho ⊢
      rw [← Nat.add_mul_mod_self_right f.off i f.stride, ho, Nat.add_mul_mod_self_right]
  · have := Pg.inSpace fk
    have f1 := Fld.within_last fi
    exfalso
    have : 2 ^ 26 * 1 ≤ 2 ^ 26 * (1 + pairUp pg'.code j) := Nat.mul_le_mul_left _ (by omega)
    omega
  · have := Pg.inSpace gk
    have g1 := Fld.within_last gi
    exfalso
    have : 2 ^ 26 * 1 ≤ 2 ^ 26 * (1 + pairUp pg.code i) := Nat.mul_le_mul_left _ (by omega)
    omega
  · have hp : pairUp pg.code i = pairUp pg'.code j := by omega
    have ho : f.off = g.off := by omega
    have hp := (pairUp_inj hp).1
    have hp := Pg.code_inj hp
    subst hp
    refine ⟨rfl, Classical.byContradiction fun hne => ?_⟩
    have hap := Fld.apart_of_mem hf hg hne
    simp only [Fld.apart, Bool.or_eq_true, Bool.and_eq_true, decide_eq_true_eq, bne_iff_ne, beq_iff_eq] at hap
    rcases hap with ((hap | hap) | hap) | ⟨⟨hap, _⟩, hap'⟩
    · exact hap hl
    · omega
    · omega
    · rw [hap, ho] at hap'
      exact hap' rfl

/-- Entries of one field with a key in common are the same entry. -/
theorem key_entry {f : Fld} {pg : Pg} {i j : Nat} (hp : pg.ok = true) (hi : i < f.count) (hj : j < f.count) (hs : f.stride ≠ 0)
    (h : f.key pg i = f.key pg j) : i = j := by
  unfold Fld.key Fld.addr at h
  simp only [hp, hi, hj, decide_true, Bool.true_or, Bool.and_self, if_true] at h
  have : i * f.stride = j * f.stride := by omega
  exact Nat.eq_of_mul_eq_mul_right (Nat.pos_of_ne_zero hs) this

theorem Var.idx_lt (x : Var) : x.ctorIdx < 512 := by cases x <;> decide

theorem Fifo.idx_lt (q : Fifo) : q.ctorIdx < 512 := by cases q <;> decide

theorem Var.key_inj {x y : Var} {i j : Nat} (h : x.key i = y.key j) : x = y ∧ i = j := by
  have a := x.idx_lt
  have b := y.idx_lt
  unfold Var.key at h
  have hc := congrArg Var.ofNat (show x.ctorIdx = y.ctorIdx by omega)
  rw [Var.ofNat_ctorIdx, Var.ofNat_ctorIdx] at hc
  exact ⟨hc, by omega⟩

theorem Fifo.key_inj {x y : Fifo} {i j : Nat} (h : x.key i = y.key j) : x = y ∧ i = j := by
  have a := x.idx_lt
  have b := y.idx_lt
  unfold Fifo.key at h
  have hc := congrArg Fifo.ofNat (show x.ctorIdx = y.ctorIdx by omega)
  rw [Fifo.ofNat_ctorIdx, Fifo.ofNat_ctorIdx] at hc
  exact ⟨hc, by omega⟩

/-- Where a counter lies: in its page, or outside the space. -/
theorem cntKey_cases (pg : Pg) (i : Nat) :
    (pg.ok = true ∧ i < pg.size ∧ cntKey pg i = pg.base + i) ∨ cntKey pg i = 2 ^ 26 * (1 + pairUp pg.code i) := by
  unfold cntKey
  split
  · rename_i h
    simp at h
    exact .inl ⟨h.1, h.2, rfl⟩
  · exact .inr rfl

theorem cntKey_inj {pg pg' : Pg} {i j : Nat} (h : cntKey pg i = cntKey pg' j) : pg = pg' ∧ i = j := by
  rcases cntKey_cases pg i with ⟨a, b, c⟩ | c <;> rcases cntKey_cases pg' j with ⟨a', b', c'⟩ | c' <;> rw [c, c'] at h
  · have := Pg.apart a a' b b' h
    subst this
    exact ⟨rfl, by omega⟩
  · have := Pg.inSpace a
    have : 2 ^ 26 * 1 ≤ 2 ^ 26 * (1 + pairUp pg'.code j) := Nat.mul_le_mul_left _ (by omega)
    omega
  · have := Pg.inSpace a'
    have : 2 ^ 26 * 1 ≤ 2 ^ 26 * (1 + pairUp pg.code i) := Nat.mul_le_mul_left _ (by omega)
    omega
  · obtain ⟨h1, h2⟩ := pairUp_inj (show pairUp pg.code i = pairUp pg'.code j by omega)
    exact ⟨Pg.code_inj h1, h2⟩

theorem stampKey_inj {st st' k k' : Nat} (h : stampKey st k = stampKey st' k') : k = k' := by
  unfold stampKey at h
  omega

/-! ### Reading after a write elsewhere -/

/-- A write of one field leaves every other field. -/
theorem rd_wr_other {s : State} (h : s.wf) {pg pg' : Pg} {f f' : Fld} (hf : f ∈ pg.fields) (hf' : f' ∈ pg'.fields)
    (hne : ¬ (pg' = pg ∧ f' = f)) (v i i' : Nat) : ((wr pg f v i).run s).rd pg' f' i' = s.rd pg' f' i' :=
  rd_wr_ne h v fun hk => hne (key_inj hf' hf hk)

/-- A write of one entry of a field leaves the other entries. -/
theorem rd_wr_entry {s : State} (h : s.wf) {pg : Pg} {f : Fld} (hp : pg.ok = true) (hs : f.stride ≠ 0) {i i' : Nat}
    (hi : i < f.count) (hi' : i' < f.count) (hne : i' ≠ i) (v : Nat) : ((wr pg f v i).run s).rd pg f i' = s.rd pg f i' :=
  rd_wr_ne h v fun hk => hne (key_entry hp hi' hi hs hk)

theorem iv_put_other {s : State} (h : s.wf) {x y : Var} {i j : Nat} (hne : ¬ (y = x ∧ j = i)) (v : Nat) :
    ((put x v i).run s).iv y j = s.iv y j :=
  iv_put_ne h v fun hk => hne (Var.key_inj hk)

theorem fifo_putFifo_other {s : State} (h : s.wf) {q r : Fifo} {i j : Nat} (hne : ¬ (r = q ∧ j = i)) (l : List Nat) :
    ((putFifo q l i).run s).fifo r j = s.fifo r j :=
  fifo_putFifo_ne h l fun hk => hne (Fifo.key_inj hk)

theorem cnt_setCnt_other {s : State} (h : s.wf) {pg pg' : Pg} {i j : Nat} (hne : ¬ (pg' = pg ∧ j = i)) (v : Nat) :
    ((setCnt pg i v).run s).cnt pg' j = s.cnt pg' j :=
  cnt_setCnt_ne h v fun hk => hne (cntKey_inj hk)

end Sys2Proof.Machine
end

