-- ==== Sys2Proof/Laws/Frame.lean ====
section
/-! SUPPORT. How to show that an update touches only what a `Foot` lists: one rule for each elementary update and each combinator. -/

namespace Sys2Proof.Machine

set_option Elab.async false
set_option linter.unusedTactic false
set_option linter.unreachableTactic false

/-- Whatever the state, the update touches only what `F` lists. -/
def Upd.In (F : Foot) (u : Upd) : Prop := ∀ s, s.wf → Within F s (u.run s)

/-- `G` lists all that `F` lists. -/
def Foot.le (F G : Foot) : Bool :=
  F.regs.all (G.regs.contains ·) && F.cnts.all (G.cnts.contains ·) && F.vars.all (G.vars.contains ·) && F.fifos.all (G.fifos.contains ·) &&
    F.parts.all (G.parts.contains ·)

theorem Within.refl (F : Foot) (s : State) : Within F s s := by constructor <;> intros <;> first | rfl | exact ⟨rfl, rfl⟩

theorem Within.trans {F : Foot} {s t u : State} (a : Within F s t) (b : Within F t u) : Within F s u where
  regs := fun pg f i h h' => (b.regs pg f i h h').trans (a.regs pg f i h h')
  stamps := fun st pg f i h h' => (b.stamps st pg f i h h').trans (a.stamps st pg f i h h')
  cnts := fun pg i h => (b.cnts pg i h).trans (a.cnts pg i h)
  ivs := fun x i h => (b.ivs x i h).trans (a.ivs x i h)
  fifos := fun x i h => (b.fifos x i h).trans (a.fifos x i h)
  now := fun h => (b.now h).trans (a.now h)
  arb := fun h => (b.arb h).trans (a.arb h)
  greqs := fun h => (b.greqs h).trans (a.greqs h)
  buf := fun h => (b.buf h).trans (a.buf h)
  waiting := fun h => (b.waiting h).trans (a.waiting h)
  replay := fun h => (b.replay h).trans (a.replay h)
  streams := fun h => ⟨(b.streams h).1.trans (a.streams h).1, (b.streams h).2.trans (a.streams h).2⟩
  slots := fun h => (b.slots h).trans (a.slots h)
  fwd := fun h => (b.fwd h).trans (a.fwd h)
  prefs := fun h => (b.prefs h).trans (a.prefs h)
  descs := fun h => (b.descs h).trans (a.descs h)
  coders := fun h => (b.coders h).trans (a.coders h)
  out := fun h => (b.out h).trans (a.out h)
  free := fun h => (b.free h).trans (a.free h)
  pending := b.pending.trans a.pending

theorem Within.mono {F G : Foot} {s t : State} (a : Within F s t) (h : F.le G = true) : Within G s t := by
  simp only [Foot.le, Bool.and_eq_true, List.all_eq_true, List.contains_iff_mem] at h
  obtain ⟨⟨⟨⟨hr, hc⟩, hv⟩, hf⟩, hp⟩ := h
  exact {
    regs := fun pg f i h h' => a.regs pg f i h fun m => h' (hr _ m)
    stamps := fun st pg f i h h' => a.stamps st pg f i h fun m => h' (hr _ m)
    cnts := fun pg i h => a.cnts pg i fun m => h (hc _ m)
    ivs := fun x i h => a.ivs x i fun m => h (hv _ m)
    fifos := fun x i h => a.fifos x i fun m => h (hf _ m)
    now := fun h => a.now fun m => h (hp _ m)
    arb := fun h => a.arb fun m => h (hp _ m)
    greqs := fun h => a.greqs fun m => h (hp _ m)
    buf := fun h => a.buf fun m => h (hp _ m)
    waiting := fun h => a.waiting fun m => h (hp _ m)
    replay := fun h => a.replay fun m => h (hp _ m)
    streams := fun h => a.streams fun m => h (hp _ m)
    slots := fun h => a.slots fun m => h (hp _ m)
    fwd := fun h => a.fwd fun m => h (hp _ m)
    prefs := fun h => a.prefs fun m => h (hp _ m)
    descs := fun h => a.descs fun m => h (hp _ m)
    coders := fun h => a.coders fun m => h (hp _ m)
    out := fun h => a.out fun m => h (hp _ m)
    free := fun h => a.free fun m => h (hp _ m)
    pending := a.pending }

theorem Upd.In.mono {F G : Foot} {u : Upd} (a : u.In F) (h : F.le G = true) : u.In G := fun s w => (a s w).mono h

theorem Foot.le_trans {F G H : Foot} (a : F.le G = true) (b : G.le H = true) : F.le H = true := by
  simp only [Foot.le, Bool.and_eq_true, List.all_eq_true, List.contains_iff_mem] at *
  obtain ⟨⟨⟨⟨a1, a2⟩, a3⟩, a4⟩, a5⟩ := a
  obtain ⟨⟨⟨⟨b1, b2⟩, b3⟩, b4⟩, b5⟩ := b
  exact ⟨⟨⟨⟨fun x m => b1 x (a1 x m), fun x m => b2 x (a2 x m)⟩, fun x m => b3 x (a3 x m)⟩, fun x m => b4 x (a4 x m)⟩,
    fun x m => b5 x (a5 x m)⟩

theorem Foot.le_refl (F : Foot) : F.le F = true := by
  simp [Foot.le, List.all_eq_true]

theorem Foot.and_le {F G H : Foot} : (F.and G).le H = true ↔ F.le H = true ∧ G.le H = true := by
  simp only [Foot.le, Foot.and, List.all_append, Bool.and_eq_true]
  tauto

theorem le_regs {F G : Foot} (h : F.le G = true) {x : Fam × Fld} (m : x ∈ F.regs) : x ∈ G.regs := by
  simp only [Foot.le, Bool.and_eq_true, List.all_eq_true, List.contains_iff_mem] at h
  exact h.1.1.1.1 x m

theorem le_cnts {F G : Foot} (h : F.le G = true) {x : Fam} (m : x ∈ F.cnts) : x ∈ G.cnts := by
  simp only [Foot.le, Bool.and_eq_true, List.all_eq_true, List.contains_iff_mem] at h
  exact h.1.1.1.2 x m

theorem le_vars {F G : Foot} (h : F.le G = true) {x : Var} (m : x ∈ F.vars) : x ∈ G.vars := by
  simp only [Foot.le, Bool.and_eq_true, List.all_eq_true, List.contains_iff_mem] at h
  exact h.1.1.2 x m

theorem le_fifos {F G : Foot} (h : F.le G = true) {x : Fifo} (m : x ∈ F.fifos) : x ∈ G.fifos := by
  simp only [Foot.le, Bool.and_eq_true, List.all_eq_true, List.contains_iff_mem] at h
  exact h.1.2 x m

theorem le_parts {F G : Foot} (h : F.le G = true) {x : Part} (m : x ∈ F.parts) : x ∈ G.parts := by
  simp only [Foot.le, Bool.and_eq_true, List.all_eq_true, List.contains_iff_mem] at h
  exact h.2 x m

theorem hdr_mem {pg : Pg} (hc : pg.common = true) {f : Fld} (h : f ∈ tabHDR) : f ∈ pg.fields := by
  unfold Pg.fields
  rw [if_pos hc]
  exact List.mem_append_left _ h

theorem own_mem {pg : Pg} {f : Fld} (h : f ∈ pg.tab) : f ∈ pg.fields := by
  unfold Pg.fields
  split
  · exact List.mem_append_right _ h
  · exact h

/-! ### Feet written in one order -/

/-- The fields of a counter of a header. -/
def fCnt : List Fld := [.CNT_STAT_SAT, .INT_CAUSE_CNT_SAT]

/-- Fields of a family's pages. -/
def onFam (k : Fam) (l : List Fld) : List (Fam × Fld) := l.map fun f => (k, f)

/-- One list runs through the other in its order. -/
def runsIn {α : Type} [DecidableEq α] : List α → List α → Bool
  | [], _ => true
  | _ :: _, [] => false
  | x :: l, y :: m => if x = y then runsIn l m else runsIn (x :: l) m

theorem mem_of_runsIn {α : Type} [DecidableEq α] {l m : List α} (h : runsIn l m = true) : ∀ x ∈ l, x ∈ m := by
  induction m generalizing l with
  | nil =>
    cases l with
    | nil => simp
    | cons => cases h
  | cons y m ih =>
    cases l with
    | nil => simp
    | cons x l =>
      unfold runsIn at h
      split at h
      · next e =>
        intro z hz
        rcases List.mem_cons.1 hz with rfl | hz
        · exact e ▸ List.mem_cons_self
        · exact List.mem_cons_of_mem _ (ih h z hz)
      · exact fun z hz => List.mem_cons_of_mem _ (ih h z hz)

/-- Each list of `F` runs through that of `G` in its order. -/
def Foot.runs (F G : Foot) : Bool :=
  runsIn F.regs G.regs && runsIn F.cnts G.cnts && runsIn F.vars G.vars && runsIn F.fifos G.fifos && runsIn F.parts G.parts

theorem Foot.le_of_runs {F G : Foot} (h : F.runs G = true) : F.le G = true := by
  simp only [Foot.runs, Bool.and_eq_true] at h
  obtain ⟨⟨⟨⟨hr, hc⟩, hv⟩, hf⟩, hp⟩ := h
  simp only [Foot.le, Bool.and_eq_true, List.all_eq_true, List.contains_iff_mem]
  exact ⟨⟨⟨⟨mem_of_runsIn hr, mem_of_runsIn hc⟩, mem_of_runsIn hv⟩, mem_of_runsIn hf⟩, mem_of_runsIn hp⟩

/-! ### Combinators -/

theorem skip_in {F : Foot} : skip.In F := fun s _ => Within.refl F s

theorem andThen_in {F : Foot} {u v : Upd} (a : u.In F) (b : v.In F) : (u.andThen v).In F :=
  fun s w => (a s w).trans (b _ (u.keeps_wf w))

theorem all_nil_in {F : Foot} : (all []).In F := skip_in

theorem all_cons_in {F : Foot} {u : Upd} {r : List Upd} (a : u.In F) (b : (all r).In F) : (all (u :: r)).In F := andThen_in a b

theorem all_in {F : Foot} {l : List Upd} (h : ∀ u ∈ l, u.In F) : (all l).In F := by
  induction l with
  | nil => exact all_nil_in
  | cons u r ih => exact all_cons_in (h u List.mem_cons_self) (ih fun v m => h v (List.mem_cons_of_mem _ m))

theorem look_in {F : Foot} {f : State → Upd} (h : ∀ s, (f s).In F) : (look f).In F := fun s w => h s s w

theorem when_in {F : Foot} {c : Bool} {u : Upd} (h : u.In F) : (when_ c u).In F := by
  cases c
  · exact skip_in
  · exact h

theorem ite_in {F : Foot} {c : Prop} [Decidable c] {u v : Upd} (a : u.In F) (b : v.In F) : (if c then u else v).In F := by
  split
  · exact a
  · exact b

theorem forEach_in {F : Foot} {α : Type} {l : List α} {f : α → Upd} (h : ∀ a, (f a).In F) : (forEach l f).In F :=
  all_in fun u m => by
    obtain ⟨a, _, rfl⟩ := List.mem_map.1 m
    exact h a

theorem forEach_mem_in {F : Foot} {α : Type} {l : List α} {f : α → Upd} (h : ∀ a ∈ l, (f a).In F) : (forEach l f).In F :=
  all_in fun u m => by
    obtain ⟨a, ha, rfl⟩ := List.mem_map.1 m
    exact h a ha

theorem forBelow_in {F : Foot} {n : Nat} {f : Nat → Upd} (h : ∀ a, (f a).In F) : (forBelow n f).In F := forEach_in h

theorem forSome_in {F : Foot} {α : Type} {o : Option α} {f : α → Upd} (h : ∀ a, (f a).In F) : (forSome o f).In F := by
  cases o
  · exact skip_in
  · exact h _

theorem some_of_ite {c : Prop} [Decidable c] {o : Option Upd} {u : Upd} (h : (if c then o else none) = some u) : o = some u := by
  split at h
  · exact h
  · cases h

/-! ### Elementary updates -/

theorem wr_in {F : Foot} {pg : Pg} {f : Fld} {v i : Nat} (hm : f ∈ pg.fields) (h : (Fam.of pg, f) ∈ F.regs) : (wr pg f v i).In F :=
  fun s w => { Within.refl F s with
    regs := fun pg' f' i' m n => rd_wr_other w hm m (fun e => n (by rw [e.1, e.2]; exact h)) v i i' }

theorem wrSt_in {F : Foot} {st : Nat} {pg : Pg} {f : Fld} {v i : Nat} (hm : f ∈ pg.fields) (h : (Fam.of pg, f) ∈ F.regs) :
    (wrSt st pg f v i).In F :=
  fun s w => { Within.refl F s with
    stamps := fun st' pg' f' i' m n => by
      show Map.get _ _ _ % _ = Map.get _ _ _ % _
      rw [wrSt_stampRegs, Map.get_set_ne w.2.1 _ _ _ fun hk => n (by
        obtain ⟨e1, e2⟩ := key_inj m hm (stampKey_inj hk)
        rw [e1, e2]
        exact h)] }

theorem put_in {F : Foot} {x : Var} {v i : Nat} (h : x ∈ F.vars) : (put x v i).In F :=
  fun s w => { Within.refl F s with ivs := fun _ _ n => iv_put_other w (fun e => n (by rw [e.1]; exact h)) v }

theorem modIv_in {F : Foot} {x : Var} {f : Nat → Nat} {i : Nat} (h : x ∈ F.vars) : (modIv x f i).In F := look_in fun _ => put_in h

theorem get_keep_of {α : Type} {m : Map α} (h : m.wf) {p : Nat → Bool} {k : Nat} (d : α) (hp : p k = true) : (m.keep p).get k d = m.get k d := by
  induction m with
  | nil => rfl
  | cons e r ih =>
    obtain ⟨k', v⟩ := e
    obtain ⟨h1, h2⟩ := List.pairwise_cons.1 h
    by_cases hk : p k' = true
    · have : Map.keep ((k', v) :: r) p = (k', v) :: Map.keep r p := by simp [Map.keep, hk]
      rw [this]
      simp only [Map.get]
      split
      · rfl
      · split
        · rfl
        · exact ih h2
    · have : Map.keep ((k', v) :: r) p = Map.keep r p := by simp [Map.keep, hk]
      rw [this, ih h2]
      have hne : k' ≠ k := fun e => hk (e ▸ hp)
      simp only [Map.get, hne, if_false]
      split
      · exact Map.get_of_lt fun e he => Nat.lt_trans (by assumption) (h1 e he)
      · rfl

theorem clearIv_in {F : Foot} {x : Var} {p : Nat → Bool} (h : x ∈ F.vars) : (clearIv x p).In F :=
  fun s w => { Within.refl F s with
    ivs := fun y i n => get_keep_of w.2.2.2.2.1.1 _ (by
      have a := x.idx_lt
      have b := y.idx_lt
      have : Var.key y i % 512 ≠ x.ctorIdx := fun e => n (by
        have : y.ctorIdx = x.ctorIdx := by unfold Var.key at e; omega
        have := congrArg Var.ofNat this
        rw [Var.ofNat_ctorIdx, Var.ofNat_ctorIdx] at this
        exact this ▸ h)
      simp [outside, this]) }

theorem putFifo_in {F : Foot} {q : Fifo} {l : List Nat} {i : Nat} (h : q ∈ F.fifos) : (putFifo q l i).In F :=
  fun s w => { Within.refl F s with fifos := fun _ _ n => fifo_putFifo_other w (fun e => n (by rw [e.1]; exact h)) l }

theorem push_in {F : Foot} {q : Fifo} {v i : Nat} (h : q ∈ F.fifos) : (push q v i).In F := look_in fun _ => putFifo_in h

theorem clearFifo_in {F : Foot} {q : Fifo} {p : Nat → Bool} (h : q ∈ F.fifos) : (clearFifo q p).In F :=
  fun s w => { Within.refl F s with
    fifos := fun r i n => get_keep_of w.2.2.2.2.2.1 _ (by
      have a := q.idx_lt
      have b := r.idx_lt
      have : Fifo.key r i % 512 ≠ q.ctorIdx := fun e => n (by
        have : r.ctorIdx = q.ctorIdx := by unfold Fifo.key at e; omega
        have := congrArg Fifo.ofNat this
        rw [Fifo.ofNat_ctorIdx, Fifo.ofNat_ctorIdx] at this
        exact this ▸ h)
      simp [outside, this]) }

theorem setCnt_in {F : Foot} {pg : Pg} {i v : Nat} (h : Fam.of pg ∈ F.cnts) : (setCnt pg i v).In F :=
  fun s w => { Within.refl F s with cnts := fun _ _ n => cnt_setCnt_other w (fun e => n (by rw [e.1]; exact h)) v }

theorem cnt_clearCnts_other {s : State} (w : s.wf) {pg pg' : Pg} {p : Nat → Bool} (hne : pg ≠ pg') (i : Nat) :
    ((clearCnts pg p).run s).cnt pg' i = s.cnt pg' i := get_keep_of w.2.2.1.1 _ (by
  unfold otherCnt
  rcases cntKey_cases pg' i with ⟨a, b, c⟩ | c
  · rw [c]
    by_cases hp : pg.ok = true ∧ pg.base ≤ pg'.base + i ∧ pg'.base + i < pg.base + pg.size
    · exact absurd (Pg.apart hp.1 a (a := pg'.base + i - pg.base) (b := i) (by omega) b (by omega)) hne
    · simp only [Bool.not_eq_true', Bool.and_eq_false_iff, decide_eq_false_iff_not]
      rcases Bool.eq_false_or_eq_true pg.ok with o | o
      · exact .inl (by
          by_cases h1 : pg.base ≤ pg'.base + i
          · exact .inr fun h2 => hp ⟨o, h1, h2⟩
          · exact .inl (.inr h1))
      · exact .inl (.inl (.inl o))
  · rw [c]
    simp only [Bool.not_eq_true', Bool.and_eq_false_iff, decide_eq_false_iff_not]
    rcases Bool.eq_false_or_eq_true pg.ok with o | o
    · have := Pg.inSpace o
      have : 2 ^ 26 * 1 ≤ 2 ^ 26 * (1 + pairUp pg'.code i) := Nat.mul_le_mul_left _ (by omega)
      exact .inl (.inr (by omega))
    · exact .inl (.inl (.inl o)))

theorem clearCnts_in {F : Foot} {pg : Pg} {p : Nat → Bool} (h : Fam.of pg ∈ F.cnts) : (clearCnts pg p).In F :=
  fun s w => { Within.refl F s with cnts := fun pg' i n => cnt_clearCnts_other (pg := pg) (pg' := pg') w (fun e => n (by rw [← e]; exact h)) i }

theorem raiseArb_in {F : Foot} {k v : Nat} (h : .arb ∈ F.parts) : (raiseArb k v).In F :=
  fun s _ => { Within.refl F s with arb := fun n => absurd h n }

theorem emit_in {F : Foot} {o : Out} (h : .out ∈ F.parts) : (emit o).In F :=
  fun s _ => { Within.refl F s with out := fun n => absurd h n }

theorem modGreqs_in {F : Foot} {f : List GReq → List GReq} (h : .greqs ∈ F.parts) : (modGreqs f).In F :=
  fun s _ => { Within.refl F s with greqs := fun n => absurd h n }

theorem modBuf_in {F : Foot} {f : List Pkt → List Pkt} (h : .buf ∈ F.parts) : (modBuf f).In F :=
  fun s _ => { Within.refl F s with buf := fun n => absurd h n }

theorem modWaiting_in {F : Foot} {f : List Waiting → List Waiting} (h : .waiting ∈ F.parts) : (modWaiting f).In F :=
  fun s _ => { Within.refl F s with waiting := fun n => absurd h n }

theorem modSlots_in {F : Foot} {f : List Slot → List Slot} (h : .slots ∈ F.parts) : (modSlots f).In F :=
  fun s _ => { Within.refl F s with slots := fun n => absurd h n }

theorem modFwd_in {F : Foot} {f : List Fwd → List Fwd} (h : .fwd ∈ F.parts) : (modFwd f).In F :=
  fun s _ => { Within.refl F s with fwd := fun n => absurd h n }

theorem modDescs_in {F : Foot} {f : List Desc → List Desc} (h : .descs ∈ F.parts) : (modDescs f).In F :=
  fun s _ => { Within.refl F s with descs := fun n => absurd h n }

theorem modCoder_in {F : Foot} {l : Nat} {f : Coder → Coder} (h : .coders ∈ F.parts) : (modCoder l f).In F :=
  fun s _ => { Within.refl F s with coders := fun n => absurd h n }

theorem modPrefs_in {F : Foot} {f : List Pref → List Pref} (h : .prefs ∈ F.parts) : (modPrefs f).In F :=
  fun s _ => { Within.refl F s with prefs := fun n => absurd h n }

theorem putReplay_in {F : Foot} {p : Nat} {l : List TxFrame} (h : .replay ∈ F.parts) : (putReplay p l).In F :=
  fun s _ => { Within.refl F s with replay := fun n => absurd h n }

theorem putTx_in {F : Foot} {k : Nat} {x : TxStream} (h : .streams ∈ F.parts) : (putTx k x).In F :=
  fun s _ => { Within.refl F s with streams := fun n => absurd h n }

theorem putRx_in {F : Foot} {k : Nat} {x : RxStream} (h : .streams ∈ F.parts) : (putRx k x).In F :=
  fun s _ => { Within.refl F s with streams := fun n => absurd h n }

theorem delRx_in {F : Foot} {k : Nat} (h : .streams ∈ F.parts) : (delRx k).In F :=
  fun s _ => { Within.refl F s with streams := fun n => absurd h n }

theorem clearStreams_in {F : Foot} (h : .streams ∈ F.parts) : clearStreams.In F :=
  fun s _ => { Within.refl F s with streams := fun n => absurd h n }

theorem setNow_in {F : Foot} {n : Nat} (h : .now ∈ F.parts) : (setNow n).In F :=
  fun s _ => { Within.refl F s with now := fun m => absurd h m }

theorem draw_in {F : Foot} (h : .free ∈ F.parts) : draw.In F :=
  fun s _ => { Within.refl F s with free := fun n => absurd h n }

theorem wln_in {F : Foot} {f : Fld} (hm : f ∈ tabLANE) (h : (Fam.lane, f) ∈ F.regs) (l v : Nat) : (wln l f v).In F :=
  wr_in (pg := .lane _) (own_mem hm) h

theorem forEach_put_in {F G : Foot} (hF : G.le F = true) {l : List Var} (h : l.all (G.vars.contains ·) = true) (v i : Nat) :
    (forEach l fun x => put x v i).In F :=
  forEach_mem_in fun x m => put_in (le_vars hF (by simpa using List.all_eq_true.1 h x m))

theorem forEach_clearIv_in {F G : Foot} (hF : G.le F = true) {l : List Var} (h : l.all (G.vars.contains ·) = true) (p : Nat → Bool) :
    (forEach l fun x => clearIv x p).In F :=
  forEach_mem_in fun x m => clearIv_in (le_vars hF (by simpa using List.all_eq_true.1 h x m))

theorem forEach_wln_in {F G : Foot} (hF : G.le F = true) {l : List Fld} (h : l.all (fun f => G.regs.contains (Fam.lane, f)) = true)
    (hm : l.all (tabLANE.contains ·) = true) (k v : Nat) : (forEach l fun f => wln k f v).In F :=
  forEach_mem_in fun f m => wln_in (by simpa using List.all_eq_true.1 hm f m) (le_regs hF (by simpa using List.all_eq_true.1 h f m)) k v

theorem forEach_wr_in {F G : Foot} (hF : G.le F = true) {l : List Fld} {pg : Pg} (h : l.all (fun f => G.regs.contains (Fam.of pg, f)) = true)
    (hm : l.all (pg.tab.contains ·) = true) (v i : Nat) : (forEach l fun f => wr pg f v i).In F :=
  forEach_mem_in fun f m => wr_in (own_mem (by simpa using List.all_eq_true.1 hm f m)) (le_regs hF (by simpa using List.all_eq_true.1 h f m))

/-! ### Errors, interrupts and counters -/

theorem addCntRaw_in {F : Foot} {pg : Pg} (hc : pg.common = true) (h1 : (Fam.of pg, .CNT_STAT_SAT) ∈ F.regs) (h2 : Fam.of pg ∈ F.cnts) (i n : Nat) :
    (addCntRaw pg i n).In F :=
  look_in fun _ => all_cons_in (setCnt_in h2) <| all_cons_in (forSome_in fun _ => wr_in (hdr_mem hc (by decide)) h1) all_nil_in

theorem noteIn_in {F : Foot} {q : Fifo} (h : q ∈ F.fifos) (i k a : Nat) : (noteIn q i k a).In F := look_in fun _ => putFifo_in h

theorem noteMsix_in {F : Foot} (h1 : .viWrote ∈ F.fifos) (h2 : .faceWrote ∈ F.fifos) (f vec : Nat) : (noteMsix f vec).In F :=
  look_in fun s => by
    dsimp only
    split
    · exact noteIn_in h1 _ _ _
    · exact noteIn_in h2 _ _ _

theorem sendIntBy_in {F : Foot} (ho : .out ∈ F.parts) {fire : Nat → Nat → Upd} (h : ∀ f v, (fire f v).In F) (pg : Pg) :
    (sendIntBy fire pg).In F := look_in fun s => by
  dsimp only
  split
  · exact skip_in
  · split
    · exact h _ _
    · exact emit_in ho
  · exact emit_in ho

theorem causingBy_in {F : Foot} {send : Pg → Upd} {pg : Pg} (hs : (send pg).In F) {u : Upd} (h : u.In F) : (causingBy send pg u).In F :=
  look_in fun s => by
    split
    · exact all_cons_in h <| all_cons_in (look_in fun _ => when_in hs) all_nil_in
    · exact h

theorem addCntBy_in {F : Foot} {send : Pg → Upd} {pg : Pg} (hc : pg.common = true) (h1 : (Fam.of pg, .CNT_STAT_SAT) ∈ F.regs)
    (h3 : (Fam.of pg, .INT_CAUSE_CNT_SAT) ∈ F.regs) (h2 : Fam.of pg ∈ F.cnts) (hs : (send pg).In F) (i n : Nat) :
    (addCntBy send pg i n).In F :=
  look_in fun _ => all_cons_in (addCntRaw_in hc h1 h2 _ _) <|
    all_cons_in (look_in fun _ => when_in <| causingBy_in hs <| wr_in (hdr_mem hc (by decide)) h3) all_nil_in

theorem msixFireN_in {F : Foot} (hF : Foot.interrupt.le F = true) (n f vec : Nat) : (msixFireN n f vec).In F := by
  have hp : .msixPend ∈ F.vars := le_vars hF (by decide)
  have ho : .out ∈ F.parts := le_parts hF (by decide)
  have h1 : (Fam.face, Fld.CNT_STAT_SAT) ∈ F.regs := le_regs hF (by decide)
  have h2 : Fam.face ∈ F.cnts := le_cnts hF (by decide)
  have h3 : (Fam.face, Fld.INT_CAUSE_CNT_SAT) ∈ F.regs := le_regs hF (by decide)
  have h4 : .viWrote ∈ F.fifos := le_fifos hF (by decide)
  have h5 : .faceWrote ∈ F.fifos := le_fifos hF (by decide)
  induction n generalizing f vec with
  | zero => exact put_in hp
  | succ n ih =>
    refine look_in fun s => ?_
    dsimp only
    split
    · exact all_cons_in (emit_in ho) <| all_cons_in (noteMsix_in h4 h5 _ _) <|
        all_cons_in (addCntBy_in (pg := .face f) rfl h1 h3 h2 (sendIntBy_in ho ih _) _ _) all_nil_in
    · exact put_in hp

theorem msixFire_in {F : Foot} (hF : Foot.interrupt.le F = true) (f vec : Nat) : (msixFire f vec).In F := msixFireN_in hF _ _ _

theorem msixFlush_in {F : Foot} (hF : Foot.interrupt.le F = true) (f : Nat) : (msixFlush f).In F :=
  look_in fun _ => when_in <| forEach_in fun _ => all_cons_in (put_in (le_vars hF (by decide))) <| all_cons_in (msixFire_in hF _ _) all_nil_in

theorem sendInt_in {F : Foot} (hF : Foot.interrupt.le F = true) (pg : Pg) : (sendInt pg).In F :=
  sendIntBy_in (le_parts hF (by decide)) (msixFire_in hF) pg

theorem causing_in {F : Foot} (hF : Foot.interrupt.le F = true) {pg : Pg} {u : Upd} (h : u.In F) : (causing pg u).In F :=
  causingBy_in (sendInt_in hF _) h

theorem fields_regs {k : Fam} {l : List Fld} {f : Fld} (h : f ∈ l) : (k, f) ∈ (Foot.fields k l).regs := List.mem_map.2 ⟨f, h, rfl⟩

theorem blkInt_in {F : Foot} {pg : Pg} (hc : pg.common = true) (hF : (Foot.cause (Fam.of pg)).le F = true) (k : Nat) : (blkInt pg k).In F := by
  have h := Foot.and_le.1 hF
  exact look_in fun _ => causing_in h.1 <| wr_in (hdr_mem hc (by decide)) (le_regs h.2 (fields_regs (by decide)))

theorem addCnt_in {F : Foot} {pg : Pg} (hc : pg.common = true) (hF : (Foot.counting (Fam.of pg)).le F = true) (i n : Nat) :
    (addCnt pg i n).In F := by
  have h := Foot.and_le.1 hF
  have g := Foot.and_le.1 h.2
  exact addCntBy_in hc (le_regs g.1 (fields_regs (by decide))) (le_regs g.1 (fields_regs (by decide)))
    (le_cnts g.2 (List.mem_singleton.2 rfl)) (sendInt_in h.1 _) i n

theorem bump_in {F : Foot} {pg : Pg} (hc : pg.common = true) (hF : (Foot.counting (Fam.of pg)).le F = true) (i : Nat) : (bump pg i).In F :=
  addCnt_in hc hF i 1

theorem noteErrs_in {F : Foot} {pg : Pg} (hc : pg.common = true) (h : (Fam.of pg, .ERR_STICKY_BITS) ∈ F.regs) (hg : .greqs ∈ F.parts)
    (rs : List Raised) : (noteErrs pg rs).In F :=
  look_in fun _ => all_cons_in (wr_in (hdr_mem hc (by decide)) h) <| all_cons_in (forEach_in fun _ => modGreqs_in hg) all_nil_in

theorem captureErrs_in {F : Foot} {pg : Pg} (hc : pg.common = true) (h : ∀ f ∈ errFields, (Fam.of pg, f) ∈ F.regs) (unm : List Raised) :
    (captureErrs pg unm).In F := look_in fun s => forSome_in fun x => by
  have hr : ∀ {f : Fld} {v : Nat}, f ∈ tabHDR → f ∈ errFields → (wr pg f v).In F := fun hm hf => wr_in (hdr_mem hc hm) (h _ hf)
  obtain ⟨c, b⟩ := x
  dsimp only
  split
  · exact hr (by decide) (by decide)
  · exact all_cons_in (hr (by decide) (by decide)) <| all_cons_in (hr (by decide) (by decide)) <| all_cons_in (hr (by decide) (by decide)) <|
      all_cons_in (hr (by decide) (by decide)) <| all_cons_in (hr (by decide) (by decide)) <| all_cons_in (hr (by decide) (by decide)) all_nil_in

theorem reportErrs_in {F : Foot} {pg : Pg} (hc : pg.common = true) (hi : Foot.interrupt.le F = true) (h : (Fam.of pg, .INT_CAUSE_ERR) ∈ F.regs)
    (unm : List Raised) : (reportErrs pg unm).In F :=
  look_in fun _ => all_cons_in (when_in (causing_in hi (wr_in (hdr_mem hc (by decide)) h))) <|
    all_cons_in (when_in (forEach_in fun _ => forEach_in fun _ => emit_in (le_parts hi (by decide)))) all_nil_in

theorem elogLost_in {F : Foot} (hF : Foot.log.le F = true) (n : Nat) : (elogLost n).In F := by
  have h := Foot.and_le.1 hF
  have hr : ∀ f ∈ errFields, (Fam.guard, f) ∈ F.regs := fun f m =>
    le_regs (Foot.and_le.1 h.2).1 (fields_regs (List.mem_cons_of_mem _ m))
  have hi : Foot.interrupt.le F = true := (Foot.and_le.1 h.1).1
  refine look_in fun s => all_cons_in ?_ <| all_cons_in (addCnt_in (pg := .guard 0) rfl h.1 _ _) <|
    all_cons_in (noteErrs_in (pg := .guard 0) rfl (hr _ (by decide)) (le_parts (Foot.and_le.1 h.2).2 (by decide)) _) <|
    all_cons_in (captureErrs_in (pg := .guard 0) rfl hr _) <| all_cons_in (reportErrs_in (pg := .guard 0) rfl hi (hr _ (by decide)) _) all_nil_in
  exact wr_in (own_mem (by decide +kernel)) (le_regs (Foot.and_le.1 h.2).1 (fields_regs (List.mem_cons_self ..)))

theorem logRec_in {F : Foot} (hF : Foot.log.le F = true) (r : Rec) : (logRec r).In F := look_in fun s => by
  have hl : Upd.In F (put .elogSeq ((s.iv .elogSeq + 1) % 65536)) := put_in (le_vars hF (by decide))
  have hq : ∀ l, Upd.In F (putFifo .elog l) := fun l => putFifo_in (le_fifos hF (by decide))
  dsimp only
  split
  · exact all_cons_in (hq _) (all_cons_in hl all_nil_in)
  · split
    · exact elogLost_in hF _
    · exact all_cons_in (hq _) (all_cons_in hl (all_cons_in (elogLost_in hF _) all_nil_in))

theorem raiseAll_in {F : Foot} {pg : Pg} (hc : pg.common = true) (hF : (Foot.error (Fam.of pg)).le F = true) (rs : List Raised) :
    (raiseAll pg rs).In F := by
  have hl := (Foot.and_le.1 hF).1
  have hr : ∀ f ∈ errFields, (Fam.of pg, f) ∈ F.regs := fun f m => le_regs (Foot.and_le.1 hF).2 (fields_regs m)
  have hi : Foot.interrupt.le F = true := (Foot.and_le.1 (Foot.and_le.1 hl).1).1
  exact look_in fun s =>
    all_cons_in (noteErrs_in hc (hr _ (by decide)) (le_parts (Foot.and_le.1 (Foot.and_le.1 hl).2).2 (by decide)) _) <|
    all_cons_in (captureErrs_in hc hr _) <| all_cons_in (forEach_in fun _ => logRec_in hl _) <|
    all_cons_in (reportErrs_in hc hi (hr _ (by decide)) _) all_nil_in

/-- The notes of errors, and the capture of one, as parts of recording them. -/
theorem noteErrs_of {F : Foot} {pg : Pg} (hc : pg.common = true) (hF : (Foot.error (Fam.of pg)).le F = true) (rs : List Raised) :
    (noteErrs pg rs).In F :=
  noteErrs_in hc (le_regs (Foot.and_le.1 hF).2 (fields_regs (by decide)))
    (le_parts (Foot.and_le.1 (Foot.and_le.1 (Foot.and_le.1 hF).1).2).2 (by decide)) rs

theorem captureErrs_of {F : Foot} {pg : Pg} (hc : pg.common = true) (hF : (Foot.error (Fam.of pg)).le F = true) (unm : List Raised) :
    (captureErrs pg unm).In F := captureErrs_in hc (fun _ m => le_regs (Foot.and_le.1 hF).2 (fields_regs m)) unm

theorem raise_in {F : Foot} {pg : Pg} (hc : pg.common = true) (hF : (Foot.error (Fam.of pg)).le F = true) (e : Err) : (raise pg e).In F :=
  raiseAll_in hc hF _

theorem raiseIn_in {F : Foot} {pg : Pg} (hc : pg.common = true) (hF : (Foot.error (Fam.of pg)).le F = true) (e : Err) (d : Dom) :
    (raiseIn pg e d).In F := raiseAll_in hc hF _

theorem raiseFor_in {F : Foot} {pg : Pg} (hc : pg.common = true) (hF : (Foot.error (Fam.of pg)).le F = true) (e : Err) (n : Nat) :
    (raiseFor pg e n).In F := raiseAll_in hc hF _

theorem watch_in {F : Foot} {w : Wm} (hl : w.level ∈ w.pg.fields) (he : w.event ∈ w.pg.fields) (hc : w.cross ∈ w.pg.fields)
    (h1 : (Fam.of w.pg, w.level) ∈ F.regs) (h2 : (Fam.of w.pg, w.event) ∈ F.regs) (h3 : (Fam.of w.pg, w.cross) ∈ F.regs) (v hi lo : Nat) :
    (watch w v hi lo).In F :=
  look_in fun _ => when_in <| all_cons_in (wr_in hl h1) <| all_cons_in (wr_in he h2) <| all_cons_in (wr_in hc h3) all_nil_in

theorem drawWord_in {F : Foot} (hF : Part.free ∈ F.parts) {k : Nat → Upd} (h : ∀ w, (k w).In F) : (drawWord k).In F :=
  look_in fun _ => all_cons_in (draw_in hF) <| all_cons_in (h _) all_nil_in

theorem drawWide_in {F : Foot} (hF : Part.free ∈ F.parts) {n : Nat} {k : Nat → Upd} (h : ∀ w, (k w).In F) : (drawWide n k).In F := by
  induction n generalizing k with
  | zero => exact h 0
  | succ n ih => exact drawWord_in hF fun _ => ih fun _ => h _

theorem tellDiscard_in {F : Foot} (h : Part.out ∈ F.parts) (hs : Var.aerStamp ∈ F.vars) (st : Stamp) (pg : Pg) (es : List Err) :
    (tellDiscard st pg es).In F := by
  unfold tellDiscard
  split
  · exact look_in fun _ => when_in <| all_cons_in (put_in hs) <| all_cons_in (emit_in h) all_nil_in
  · exact skip_in
  · exact emit_in h

theorem Foot.error_out {k : Fam} {F : Foot} (h : (Foot.error k).le F = true) : Part.out ∈ F.parts :=
  le_parts (Foot.and_le.1 (Foot.and_le.1 (Foot.and_le.1 h).1).2).2 (by decide)

theorem discardLocked_in {F : Foot} {pg : Pg} (hc : pg.common = true) (hF : (Foot.access (Fam.of pg)).le F = true) (st : Stamp) :
    (discardLocked st pg).In F := by
  have g := Foot.and_le.1 hF
  exact all_cons_in (raise_in hc g.1 _) <| all_cons_in (tellDiscard_in (Foot.error_out g.1) (le_vars g.2 (by decide)) _ _ _) all_nil_in

theorem grant_in {F : Foot} (h : Var.arbLast ∈ F.vars) (st : Stamp) (pg : Pg) : (grant st pg).In F := put_in h

theorem onPath_in {F : Foot} {st : Stamp} {u : Upd} (h : u.In F) : (onPath st u).In F := look_in fun _ => when_in h

theorem granting_in {F : Foot} (ha : Var.arbLast ∈ F.vars) {st : Stamp} {pg : Pg} {u : Upd} (h : u.In F) : (granting st pg u).In F :=
  onPath_in <| all_cons_in (grant_in ha _ _) <| all_cons_in h all_nil_in

theorem granted_in {F : Foot} {pg : Pg} (hc : pg.common = true) (hF : (Foot.access (Fam.of pg)).le F = true) (st : Stamp) (off : Nat) {u : Upd}
    (h : u.In F) : (granted st pg off u).In F := by
  refine look_in fun s => granting_in (le_vars (Foot.and_le.1 hF).2 (by decide)) ?_
  split
  · exact discardLocked_in hc hF _
  · exact h

/-- A page without a header cannot be locked. -/
theorem granted_in' {F : Foot} {pg : Pg} (hc : pg.common = false) (hF : Var.arbLast ∈ F.vars) (st : Stamp) (off : Nat) {u : Upd}
    (h : u.In F) : (granted st pg off u).In F := by
  refine look_in fun s => granting_in hF ?_
  simp only [State.locked, hc, Bool.false_and]
  exact h

/-- Part of a write that the lock lets through. -/
theorem grantedPart_in {F : Foot} {pg : Pg} (hc : pg.common = true) (hF : (Foot.access (Fam.of pg)).le F = true) (st : Stamp) (off v : Nat)
    {u : Nat → Upd} (h : ∀ v, (u v).In F) : (grantedPart st pg off v u).In F := by
  refine look_in fun s => granted_in hc hF _ _ ?_
  split
  · exact all_cons_in (h _) <| all_cons_in (when_in (discardLocked_in hc hF _)) all_nil_in
  · exact h _

/-- A plain write touches the fields of its register. -/
theorem mem_atOff {l : List Fld} {off : Nat} {fi : Fld × Nat} (m : fi ∈ atOff l off) : fi.1 ∈ l := by
  obtain ⟨g, hg, he⟩ := List.mem_filterMap.1 m
  have : fi.1 = g := by
    split at he
    · split at he
      · cases he; rfl
      · cases he
    · split at he
      · cases he; rfl
      · cases he
  exact this ▸ hg

/-- The registers of the common header stand below 0x100. -/
theorem atOff_hdr {l : List Fld} {off : Nat} (h : 0x100 ≤ off) : atOff (tabHDR ++ l) off = atOff l off := by
  have : atOff tabHDR off = [] := List.filterMap_eq_nil_iff.2 fun f m => by
    have hf : f.count ≤ 1 ∧ f.off < 0x100 := (show ∀ f ∈ tabHDR, f.count ≤ 1 ∧ f.off < 0x100 by decide +kernel) f m
    rw [if_pos hf.1, if_neg]
    simp only [beq_iff_eq]
    omega
  unfold atOff at *
  rw [List.filterMap_append, this, List.nil_append]

theorem plainWrite_in {F : Foot} {pg : Pg} {off : Nat} (h : ∀ fi ∈ fieldsAt pg off, (Fam.of pg, fi.1) ∈ F.regs) (st : Stamp) (v : Nat) :
    (plainWrite st pg off v).In F := by
  refine all_in fun u m => ?_
  obtain ⟨fi, hm, rfl⟩ := List.mem_map.1 m
  have hf : fi.1 ∈ pg.fields := mem_atOff hm
  have hr := h fi hm
  unfold writeField
  split
  split
  · split
    · exact wrSt_in hf hr
    · exact wr_in hf hr
  · exact look_in fun _ => wr_in hf hr
  all_goals exact skip_in

/-! ### A reset of a page -/

/-- The field at a field's own offset and lowest bit is that field. -/
theorem findFld_key {pg : Pg} {f : Fld} (h : f ∈ pg.fields) {i : Nat} (hi : i < f.count ∨ f.stride = 0) :
    findFld pg.fields (f.off + i * f.stride) f.lo = some f := by
  obtain ⟨fc, fl, fs⟩ := Fld.fits_of_mem h
  unfold findFld
  have key : ∀ g ∈ pg.fields, (g.lo == f.lo && decide (g.off ≤ f.off + i * f.stride) &&
      (if g.count ≤ 1 then f.off + i * f.stride == g.off
       else g.stride != 0 && (f.off + i * f.stride - g.off) % g.stride == 0 && decide ((f.off + i * f.stride - g.off) / g.stride < g.count))) = true →
      g = f := by
    intro g hg hm
    obtain ⟨gc, gl, gs⟩ := Fld.fits_of_mem hg
    refine Classical.byContradiction fun hne => ?_
    have hap := Fld.apart_of_mem hg h hne
    simp only [Bool.and_eq_true, beq_iff_eq, decide_eq_true_eq] at hm
    obtain ⟨⟨h1, h2⟩, h3⟩ := hm
    have f1 := Fld.within_last hi
    have hj : ∃ j, f.off + i * f.stride = g.off + j * g.stride ∧ (j < g.count ∨ g.stride = 0) := by
      split at h3
      · exact ⟨0, by simpa using h3, .inl (by omega)⟩
      · simp only [Bool.and_eq_true, beq_iff_eq, bne_iff_ne, decide_eq_true_eq] at h3
        refine ⟨(f.off + i * f.stride - g.off) / g.stride, ?_, .inl h3.2⟩
        have := Nat.div_add_mod (f.off + i * f.stride - g.off) g.stride
        rw [h3.1.2, Nat.add_zero, Nat.mul_comm] at this
        omega
    obtain ⟨j, ho, hjc⟩ := hj
    have g1 := Fld.within_last hjc
    simp only [Fld.apart, Bool.or_eq_true, Bool.and_eq_true, decide_eq_true_eq, bne_iff_ne, beq_iff_eq] at hap
    rcases hap with ((hap | hap) | hap) | ⟨⟨hap, _⟩, hap'⟩
    · exact hap h1
    · have : f.off ≤ f.off + i * f.stride := Nat.le_add_right _ _
      omega
    · have : g.off ≤ g.off + j * g.stride := Nat.le_add_right _ _
      omega
    · apply hap'
      rw [← hap] at ho ⊢
      rw [← Nat.add_mul_mod_self_right g.off j g.stride, ← ho, Nat.add_mul_mod_self_right]
  have hself : (f.lo == f.lo && decide (f.off ≤ f.off + i * f.stride) &&
      (if f.count ≤ 1 then f.off + i * f.stride == f.off
       else f.stride != 0 && (f.off + i * f.stride - f.off) % f.stride == 0 && decide ((f.off + i * f.stride - f.off) / f.stride < f.count))) = true := by
    simp only [beq_self_eq_true, Bool.true_and, Bool.and_eq_true, decide_eq_true_eq, Nat.le_add_right, true_and]
    by_cases hc : f.count ≤ 1
    · rw [if_pos hc]
      rcases hi with hi | hi
      · have : i = 0 := by omega
        simp [this]
      · simp [hi]
    · rw [if_neg hc]
      have hst : f.stride ≠ 0 := by
        intro h0
        have := (Fld.fits_all h).2.2.2
        omega
      rcases hi with hi | hi
      · simp [Nat.mul_mod_left, Nat.mul_div_cancel _ (Nat.pos_of_ne_zero hst), hst, hi]
      · exact absurd hi hst
  cases he : pg.fields.find? (fun g => g.lo == f.lo && decide (g.off ≤ f.off + i * f.stride) &&
      (if g.count ≤ 1 then f.off + i * f.stride == g.off
       else g.stride != 0 && (f.off + i * f.stride - g.off) % g.stride == 0 && decide ((f.off + i * f.stride - g.off) / g.stride < g.count))) with
  | none => exact absurd hself (by simpa using List.find?_eq_none.1 he f h)
  | some g =>
    have hs := List.find?_some (p := fun g : Fld => g.lo == f.lo && decide (g.off ≤ f.off + i * f.stride) &&
      (if g.count ≤ 1 then f.off + i * f.stride == g.off
       else g.stride != 0 && (f.off + i * f.stride - g.off) % g.stride == 0 && decide ((f.off + i * f.stride - g.off) / g.stride < g.count))) he
    rw [key g (List.mem_of_find?_eq_some he) hs]

/-- A key in page `pg` of a field of page `pg'`: the page is the same, and the reset keeps it as the field says. -/
theorem inPage_key {pg pg' : Pg} {f : Fld} (h : f ∈ pg'.fields) {i : Nat} (hp : inPage pg (f.key pg' i) = true) (r : Rst) :
    pg' = pg ∧ keptAt pg r (f.key pg' i) = f.kept.testBit r.bit := by
  obtain ⟨fc, fl, fs⟩ := Fld.fits_of_mem h
  unfold inPage at hp
  simp only [Bool.and_eq_true, decide_eq_true_eq] at hp
  obtain ⟨⟨ho, h1⟩, h2⟩ := hp
  have hk : f.key pg' i / 32 = f.addr pg' i := by unfold Fld.key; omega
  have hl : f.key pg' i % 32 = f.lo := by unfold Fld.key; omega
  rw [hk] at h1 h2
  rcases f.addr_cases pg' i with ⟨fk, fi, fa⟩ | fa
  · have f1 := Fld.within_last fi
    have e : pg' = pg := Pg.apart fk ho (a := f.off + i * f.stride) (b := f.addr pg' i - pg.base) (by omega) (by omega) (by omega)
    subst e
    refine ⟨rfl, ?_⟩
    unfold keptAt
    rw [hk, hl, fa, Nat.add_sub_cancel_left, findFld_key h fi]
  · have := Pg.inSpace ho
    have : 2 ^ 26 * 1 ≤ 2 ^ 26 * (1 + pairUp pg'.code i) := Nat.mul_le_mul_left _ (by omega)
    omega

theorem resetPage_in {F : Foot} {pg : Pg} {r : Rst} (h : ∀ f ∈ pg.fields, f.kept.testBit r.bit = false → (Fam.of pg, f) ∈ F.regs) :
    (resetPage pg r).In F := by
  have hk : ∀ {pg' : Pg} {f : Fld} {i : Nat}, f ∈ pg'.fields → (Fam.of pg', f) ∉ F.regs →
      (!(inPage pg (f.key pg' i)) || keptAt pg r (f.key pg' i)) = true := by
    intro pg' f i m n
    cases hp : inPage pg (f.key pg' i)
    · rfl
    · obtain ⟨e, hr⟩ := inPage_key m hp r
      subst e
      rw [hr]
      cases hb : f.kept.testBit r.bit
      · exact absurd (h f m hb) n
      · rfl
  refine all_cons_in (fun s w => ?_) (all_cons_in (fun s w => ?_) all_nil_in)
  · exact { Within.refl F s with
      regs := fun pg' f i m n => by
        show Map.get _ _ _ % _ = Map.get _ _ _ % _
        exact congrArg (· % _) (get_keep_of (p := fun k => !(inPage pg k) || keptAt pg r k) w.1 _ (hk m n)) }
  · exact { Within.refl F s with
      stamps := fun st pg' f i m n => by
        show Map.get _ _ _ % _ = Map.get _ _ _ % _
        refine congrArg (· % _) (get_keep_of (p := fun k => !(inPage pg (k / 64)) || keptAt pg r (k / 64)) w.2.1 _ ?_)
        show (!(inPage pg (_ / 64)) || keptAt pg r (_ / 64)) = true
        have : stampKey st (f.key pg' i) / 64 = f.key pg' i := by unfold stampKey; omega
        rw [this]
        exact hk m n }

/-! ### From an update to a command -/

theorem answer_within {F : Foot} {u : Upd} (h : u.In F) {s t : State} (w : s.wf) (e : u.answer s = .next t) : Within F s t := by
  unfold Upd.answer Upd.always at e
  cases e
  exact look_in (fun _ => when_in h) s w

theorem always_within {F : Foot} {u : Upd} (h : u.In F) {s t : State} (w : s.wf) (e : u.always s = .next t) : Within F s t := by
  unfold Upd.always at e
  cases e
  exact h s w

end Sys2Proof.Machine
end

