-- ==== Sys2Proof/Laws/Alone.lean ====
section
/-! SUPPORT. How to show that an update touches one page of its kind alone: one rule for each elementary update and each combinator. -/

namespace Sys2Proof.Machine

set_option Elab.async false
set_option linter.unusedTactic false
set_option linter.unreachableTactic false

/-- Whatever the state, the update touches, of the pages of `x`'s kind, `x` alone. -/
def Upd.Alone (x : Pg) (u : Upd) : Prop := ∀ s, s.wf → Machine.Alone x s (u.run s)

/-- The page `pg` is `x` or of another kind. -/
def Owns (x pg : Pg) : Prop := Fam.of pg = Fam.of x → pg = x

/-- `x` is no page of GUARD and none of a face: an error or an interrupt of it may touch those. -/
def Plain (x : Pg) : Prop := Fam.of x ≠ .guard ∧ Fam.of x ≠ .face

theorem Alone.refl (x : Pg) (s : State) : Alone x s s := ⟨fun _ _ _ _ _ _ => rfl, fun _ _ _ _ _ _ _ => rfl, fun _ _ _ _ => rfl⟩

theorem Alone.trans {x : Pg} {s t u : State} (a : Alone x s t) (b : Alone x t u) : Alone x s u :=
  ⟨fun pg f i e n m => (b.regs pg f i e n m).trans (a.regs pg f i e n m),
    fun st pg f i e n m => (b.stamps st pg f i e n m).trans (a.stamps st pg f i e n m),
    fun pg i e n => (b.cnts pg i e n).trans (a.cnts pg i e n)⟩

/-- The foot lists no field and no counter of a kind of page. -/
def Foot.avoids (F : Foot) (k : Fam) : Bool := F.regs.all (fun x => x.1 != k) && F.cnts.all (· != k)

theorem alone_of_in {x : Pg} {F : Foot} {u : Upd} (h : u.In F) (k : F.avoids (Fam.of x) = true) : u.Alone x := fun s w => by
  simp only [Foot.avoids, Bool.and_eq_true, List.all_eq_true, bne_iff_ne] at k
  exact ⟨fun pg f i e _ m => (h s w).regs pg f i m fun hm => k.1 _ hm e, fun st pg f i e _ m => (h s w).stamps st pg f i m fun hm => k.1 _ hm e,
    fun pg i e _ => (h s w).cnts pg i fun hm => k.2 _ hm e⟩

theorem alone_of {x : Pg} (k : Fam) (e : Fam.of x = k) {F : Foot} {u : Upd} (h : u.In F) (a : F.avoids k = true) : u.Alone x :=
  alone_of_in h (e ▸ a)

theorem alone_of_same {x : Pg} {u : Upd} (h : ∀ s, (u.run s).regs = s.regs ∧ (u.run s).stampRegs = s.stampRegs ∧ (u.run s).cnts = s.cnts) :
    u.Alone x := fun s _ => by
  obtain ⟨a, b, c⟩ := h s
  exact ⟨fun pg f i _ _ _ => by unfold State.rd; rw [a], fun st pg f i _ _ _ => by unfold State.rdSt; rw [b],
    fun pg i _ _ => by unfold State.cnt; rw [c]⟩

/-! ### Combinators -/

theorem skip_alone {x : Pg} : skip.Alone x := fun s _ => Alone.refl x s

theorem andThen_alone {x : Pg} {u v : Upd} (a : u.Alone x) (b : v.Alone x) : (u.andThen v).Alone x :=
  fun s w => (a s w).trans (b _ (u.keeps_wf w))

theorem all_nil_alone {x : Pg} : (all []).Alone x := skip_alone

theorem all_cons_alone {x : Pg} {u : Upd} {r : List Upd} (a : u.Alone x) (b : (all r).Alone x) : (all (u :: r)).Alone x := andThen_alone a b

theorem all_alone {x : Pg} {l : List Upd} (h : ∀ u ∈ l, u.Alone x) : (all l).Alone x := by
  induction l with
  | nil => exact all_nil_alone
  | cons u r ih => exact all_cons_alone (h u List.mem_cons_self) (ih fun v m => h v (List.mem_cons_of_mem _ m))

theorem look_alone {x : Pg} {f : State → Upd} (h : ∀ s, (f s).Alone x) : (look f).Alone x := fun s w => h s s w

theorem when_alone {x : Pg} {c : Bool} {u : Upd} (h : u.Alone x) : (when_ c u).Alone x := by
  cases c
  · exact skip_alone
  · exact h

theorem ite_alone {x : Pg} {c : Prop} [Decidable c] {u v : Upd} (a : u.Alone x) (b : v.Alone x) : (if c then u else v).Alone x := by
  split
  · exact a
  · exact b

theorem forEach_alone {x : Pg} {α : Type} {l : List α} {f : α → Upd} (h : ∀ a, (f a).Alone x) : (forEach l f).Alone x :=
  all_alone fun u m => by
    obtain ⟨a, _, rfl⟩ := List.mem_map.1 m
    exact h a

theorem forEach_mem_alone {x : Pg} {α : Type} {l : List α} {f : α → Upd} (h : ∀ a ∈ l, (f a).Alone x) : (forEach l f).Alone x :=
  all_alone fun u m => by
    obtain ⟨a, ha, rfl⟩ := List.mem_map.1 m
    exact h a ha

theorem forBelow_alone {x : Pg} {n : Nat} {f : Nat → Upd} (h : ∀ a, (f a).Alone x) : (forBelow n f).Alone x := forEach_alone h

theorem forSome_alone {x : Pg} {α : Type} {o : Option α} {f : α → Upd} (h : ∀ a, (f a).Alone x) : (forSome o f).Alone x := by
  cases o
  · exact skip_alone
  · exact h _

/-! ### Elementary updates -/

theorem put_alone {x : Pg} (y : Var) (v i : Nat) : (put y v i).Alone x := alone_of_same fun _ => ⟨rfl, rfl, rfl⟩

theorem modIv_alone {x : Pg} (y : Var) (f : Nat → Nat) (i : Nat) : (modIv y f i).Alone x := alone_of_same fun _ => ⟨rfl, rfl, rfl⟩

theorem clearIv_alone {x : Pg} (y : Var) (p : Nat → Bool) : (clearIv y p).Alone x := alone_of_same fun _ => ⟨rfl, rfl, rfl⟩

theorem putFifo_alone {x : Pg} (q : Fifo) (l : List Nat) (i : Nat) : (putFifo q l i).Alone x := alone_of_same fun _ => ⟨rfl, rfl, rfl⟩

theorem push_alone {x : Pg} (q : Fifo) (v i : Nat) : (push q v i).Alone x := alone_of_same fun _ => ⟨rfl, rfl, rfl⟩

theorem clearFifo_alone {x : Pg} (q : Fifo) (p : Nat → Bool) : (clearFifo q p).Alone x := alone_of_same fun _ => ⟨rfl, rfl, rfl⟩

theorem emit_alone {x : Pg} (o : Out) : (emit o).Alone x := alone_of_same fun _ => ⟨rfl, rfl, rfl⟩

theorem modGreqs_alone {x : Pg} (f : List GReq → List GReq) : (modGreqs f).Alone x := alone_of_same fun _ => ⟨rfl, rfl, rfl⟩

theorem modBuf_alone {x : Pg} (f : List Pkt → List Pkt) : (modBuf f).Alone x := alone_of_same fun _ => ⟨rfl, rfl, rfl⟩

theorem modWaiting_alone {x : Pg} (f : List Waiting → List Waiting) : (modWaiting f).Alone x := alone_of_same fun _ => ⟨rfl, rfl, rfl⟩

theorem modSlots_alone {x : Pg} (f : List Slot → List Slot) : (modSlots f).Alone x := alone_of_same fun _ => ⟨rfl, rfl, rfl⟩

theorem modFwd_alone {x : Pg} (f : List Fwd → List Fwd) : (modFwd f).Alone x := alone_of_same fun _ => ⟨rfl, rfl, rfl⟩

theorem modDescs_alone {x : Pg} (f : List Desc → List Desc) : (modDescs f).Alone x := alone_of_same fun _ => ⟨rfl, rfl, rfl⟩

theorem modCoder_alone {x : Pg} (l : Nat) (f : Coder → Coder) : (modCoder l f).Alone x := alone_of_same fun _ => ⟨rfl, rfl, rfl⟩

theorem modPrefs_alone {x : Pg} (f : List Pref → List Pref) : (modPrefs f).Alone x := alone_of_same fun _ => ⟨rfl, rfl, rfl⟩

theorem putReplay_alone {x : Pg} (p : Nat) (l : List TxFrame) : (putReplay p l).Alone x := alone_of_same fun _ => ⟨rfl, rfl, rfl⟩

theorem putTx_alone {x : Pg} (k : Nat) (y : TxStream) : (putTx k y).Alone x := alone_of_same fun _ => ⟨rfl, rfl, rfl⟩

theorem putRx_alone {x : Pg} (k : Nat) (y : RxStream) : (putRx k y).Alone x := alone_of_same fun _ => ⟨rfl, rfl, rfl⟩

theorem delRx_alone {x : Pg} (k : Nat) : (delRx k).Alone x := alone_of_same fun _ => ⟨rfl, rfl, rfl⟩

theorem setNow_alone {x : Pg} (n : Nat) : (setNow n).Alone x := alone_of_same fun _ => ⟨rfl, rfl, rfl⟩

theorem draw_alone {x : Pg}  : draw.Alone x := alone_of_same fun _ => ⟨rfl, rfl, rfl⟩

theorem raiseArb_alone {x : Pg} (k v : Nat) : (raiseArb k v).Alone x := alone_of_same fun _ => ⟨rfl, rfl, rfl⟩

theorem wr_alone {x pg : Pg} {f : Fld} {v i : Nat} (hm : f ∈ pg.fields) (o : Owns x pg) : (wr pg f v i).Alone x :=
  fun s w => { Alone.refl x s with
    regs := fun pg' f' i' e n m => rd_wr_other w hm m (fun h => n (by have := o (h.1 ▸ e); rw [h.1, this])) v i i' }

theorem wrSt_alone {x : Pg} {st : Nat} {pg : Pg} {f : Fld} {v i : Nat} (hm : f ∈ pg.fields) (o : Owns x pg) : (wrSt st pg f v i).Alone x :=
  fun s w => { Alone.refl x s with
    stamps := fun st' pg' f' i' e n m => by
      show Map.get _ _ _ % _ = Map.get _ _ _ % _
      rw [wrSt_stampRegs, Map.get_set_ne w.2.1 _ _ _ fun hk => n (by
        obtain ⟨e1, _⟩ := key_inj m hm (stampKey_inj hk)
        have := o (e1 ▸ e)
        rw [e1, this])] }

theorem setCnt_alone {x pg : Pg} {i v : Nat} (o : Owns x pg) : (setCnt pg i v).Alone x :=
  fun s w => { Alone.refl x s with
    cnts := fun pg' j e n => cnt_setCnt_other w (fun h => n (by have := o (h.1 ▸ e); rw [h.1, this])) v }

theorem clearCnts_alone {x pg : Pg} {p : Nat → Bool} (o : Owns x pg) : (clearCnts pg p).Alone x := by
  by_cases hp : pg = x
  · subst hp
    exact fun s w => { Alone.refl pg s with
      cnts := fun pg' i e n => cnt_clearCnts_other w n.symm i }
  · exact alone_of_in (F := { cnts := [Fam.of pg] }) (clearCnts_in (by simp)) (by
      simp only [Foot.avoids, List.all_nil, List.all_cons, Bool.and_true, Bool.true_and, bne_iff_ne]
      exact fun h => hp (o h))

theorem wln_alone {x : Pg} {l : Nat} {f : Fld} (hm : f ∈ tabLANE) (o : Owns x (.lane (l / 8))) (v : Nat) : (wln l f v).Alone x :=
  wr_alone (own_mem hm) o

/-! ### Errors, interrupts and counters -/

theorem avoids_and {F G : Foot} {k : Fam} (a : F.avoids k = true) (b : G.avoids k = true) : (F.and G).avoids k = true := by
  simp only [Foot.avoids, Foot.and, List.all_append, Bool.and_eq_true] at *
  exact ⟨⟨a.1, b.1⟩, ⟨a.2, b.2⟩⟩

theorem interrupt_avoids {x : Pg} (p : Plain x) : Foot.interrupt.avoids (Fam.of x) = true := by
  have := p.2
  revert this
  generalize Fam.of x = k
  cases k <;> decide

theorem log_avoids {x : Pg} (p : Plain x) : Foot.log.avoids (Fam.of x) = true := by
  have := p.1
  have := p.2
  revert this
  revert this
  generalize Fam.of x = k
  cases k <;> decide +kernel

theorem addCntRaw_alone {x pg : Pg} (hc : pg.common = true) (o : Owns x pg) (i n : Nat) : (addCntRaw pg i n).Alone x :=
  look_alone fun _ => all_cons_alone (setCnt_alone o) <| all_cons_alone (forSome_alone fun _ => wr_alone (hdr_mem hc (by decide)) o) all_nil_alone

theorem sendInt_alone {x : Pg} (p : Plain x) (pg : Pg) : (sendInt pg).Alone x :=
  alone_of_in (sendInt_in (Foot.le_refl _) pg) (interrupt_avoids p)

theorem msixFire_alone {x : Pg} (p : Plain x) (f v : Nat) : (msixFire f v).Alone x :=
  alone_of_in (msixFire_in (Foot.le_refl _) f v) (interrupt_avoids p)

theorem msixFlush_alone {x : Pg} (p : Plain x) (f : Nat) : (msixFlush f).Alone x :=
  alone_of_in (msixFlush_in (Foot.le_refl _) f) (interrupt_avoids p)

theorem causingBy_alone {x pg : Pg} {send : Pg → Upd} (hs : (send pg).Alone x) {u : Upd} (h : u.Alone x) : (causingBy send pg u).Alone x :=
  look_alone fun s => by
    split
    · exact all_cons_alone h <| all_cons_alone (look_alone fun _ => when_alone hs) all_nil_alone
    · exact h

theorem causing_alone {x pg : Pg} {u : Upd} (p : Plain x) (h : u.Alone x) : (causing pg u).Alone x := causingBy_alone (sendInt_alone p _) h

theorem blkInt_alone {x pg : Pg} (p : Plain x) (hc : pg.common = true) (o : Owns x pg) (k : Nat) : (blkInt pg k).Alone x :=
  look_alone fun _ => causing_alone p <| wr_alone (hdr_mem hc (by decide)) o

theorem addCnt_alone {x pg : Pg} (p : Plain x) (hc : pg.common = true) (o : Owns x pg) (i n : Nat) : (addCnt pg i n).Alone x :=
  look_alone fun _ => all_cons_alone (addCntRaw_alone hc o _ _) <|
    all_cons_alone (look_alone fun _ => when_alone <| causingBy_alone (sendInt_alone p _) <| wr_alone (hdr_mem hc (by decide)) o) all_nil_alone

theorem bump_alone {x pg : Pg} (p : Plain x) (hc : pg.common = true) (o : Owns x pg) (i : Nat) : (bump pg i).Alone x := addCnt_alone p hc o i 1

theorem logRec_alone {x : Pg} (p : Plain x) (r : Rec) : (logRec r).Alone x := alone_of_in (logRec_in (Foot.le_refl _) r) (log_avoids p)

theorem noteErrs_alone {x pg : Pg} (hc : pg.common = true) (o : Owns x pg) (rs : List Raised) : (noteErrs pg rs).Alone x :=
  look_alone fun _ => all_cons_alone (wr_alone (hdr_mem hc (by decide)) o) <| all_cons_alone (forEach_alone fun _ => modGreqs_alone _) all_nil_alone

theorem captureErrs_alone {x pg : Pg} (hc : pg.common = true) (o : Owns x pg) (unm : List Raised) : (captureErrs pg unm).Alone x := by
  have hr : ∀ {f : Fld} {v : Nat}, f ∈ tabHDR → (wr pg f v).Alone x := fun hm => wr_alone (hdr_mem hc hm) o
  refine look_alone fun s => forSome_alone fun y => ?_
  obtain ⟨c, b⟩ := y
  dsimp only
  split
  · exact hr (by decide)
  · exact all_cons_alone (hr (by decide)) <| all_cons_alone (hr (by decide)) <| all_cons_alone (hr (by decide)) <|
      all_cons_alone (hr (by decide)) <| all_cons_alone (hr (by decide)) <| all_cons_alone (hr (by decide)) all_nil_alone

theorem reportErrs_alone {x pg : Pg} (p : Plain x) (hc : pg.common = true) (o : Owns x pg) (unm : List Raised) : (reportErrs pg unm).Alone x :=
  look_alone fun _ => all_cons_alone (when_alone (causing_alone p (wr_alone (hdr_mem hc (by decide)) o))) <|
    all_cons_alone (when_alone (forEach_alone fun _ => forEach_alone fun _ => emit_alone _)) all_nil_alone

theorem raiseAll_alone {x pg : Pg} (p : Plain x) (hc : pg.common = true) (o : Owns x pg) (rs : List Raised) : (raiseAll pg rs).Alone x :=
  look_alone fun _ => all_cons_alone (noteErrs_alone hc o _) <| all_cons_alone (captureErrs_alone hc o _) <|
    all_cons_alone (forEach_alone fun _ => logRec_alone p _) <| all_cons_alone (reportErrs_alone p hc o _) all_nil_alone

theorem raise_alone {x pg : Pg} (p : Plain x) (hc : pg.common = true) (o : Owns x pg) (e : Err) : (raise pg e).Alone x :=
  raiseAll_alone p hc o _

theorem raiseIn_alone {x pg : Pg} (p : Plain x) (hc : pg.common = true) (o : Owns x pg) (e : Err) (d : Dom) : (raiseIn pg e d).Alone x :=
  raiseAll_alone p hc o _

theorem raiseFor_alone {x pg : Pg} (p : Plain x) (hc : pg.common = true) (o : Owns x pg) (e : Err) (n : Nat) : (raiseFor pg e n).Alone x :=
  raiseAll_alone p hc o _

theorem drawWord_alone {x : Pg} {k : Nat → Upd} (h : ∀ w, (k w).Alone x) : (drawWord k).Alone x :=
  look_alone fun _ => all_cons_alone draw_alone <| all_cons_alone (h _) all_nil_alone

theorem drawWide_alone {x : Pg} {n : Nat} {k : Nat → Upd} (h : ∀ w, (k w).Alone x) : (drawWide n k).Alone x := by
  induction n generalizing k with
  | zero => exact h 0
  | succ n ih => exact drawWord_alone fun _ => ih fun _ => h _

theorem tellDiscard_alone {x : Pg} (st : Stamp) (pg : Pg) (es : List Err) : (tellDiscard st pg es).Alone x := by
  unfold tellDiscard
  split
  · exact look_alone fun _ => when_alone <| all_cons_alone (put_alone _ _ _) <| all_cons_alone (emit_alone _) all_nil_alone
  · exact skip_alone
  · exact emit_alone _

theorem grant_alone {x : Pg} (st : Stamp) (pg : Pg) : (grant st pg).Alone x := put_alone _ _ _

theorem onPath_alone {x : Pg} {st : Stamp} {u : Upd} (h : u.Alone x) : (onPath st u).Alone x := look_alone fun _ => when_alone h

theorem granting_alone {x : Pg} {st : Stamp} {pg : Pg} {u : Upd} (h : u.Alone x) : (granting st pg u).Alone x :=
  onPath_alone <| all_cons_alone (grant_alone _ _) <| all_cons_alone h all_nil_alone

theorem discardLocked_alone {x pg : Pg} (p : Plain x) (hc : pg.common = true) (o : Owns x pg) (st : Stamp) : (discardLocked st pg).Alone x :=
  all_cons_alone (raise_alone p hc o _) <| all_cons_alone (tellDiscard_alone st _ _) all_nil_alone

theorem granted_alone {x pg : Pg} (p : Plain x) (hc : pg.common = true) (o : Owns x pg) (st : Stamp) (off : Nat) {u : Upd} (h : u.Alone x) :
    (granted st pg off u).Alone x := by
  refine look_alone fun s => granting_alone ?_
  split
  · exact discardLocked_alone p hc o _
  · exact h

/-- A page without a header cannot be locked. -/
theorem granted_alone' {x pg : Pg} (hc : pg.common = false) (st : Stamp) (off : Nat) {u : Upd} (h : u.Alone x) :
    (granted st pg off u).Alone x := by
  refine look_alone fun s => granting_alone ?_
  simp only [State.locked, hc, Bool.false_and]
  exact h

theorem grantedPart_alone {x pg : Pg} (p : Plain x) (hc : pg.common = true) (o : Owns x pg) (st : Stamp) (off v : Nat) {u : Nat → Upd}
    (h : ∀ v, (u v).Alone x) : (grantedPart st pg off v u).Alone x := by
  refine look_alone fun s => granted_alone p hc o _ _ ?_
  split
  · exact all_cons_alone (h _) <| all_cons_alone (when_alone (discardLocked_alone p hc o _)) all_nil_alone
  · exact h _

theorem plainWrite_alone {x pg : Pg} (o : Owns x pg) (st : Stamp) (off v : Nat) : (plainWrite st pg off v).Alone x := by
  refine all_alone fun u m => ?_
  obtain ⟨fi, hm, rfl⟩ := List.mem_map.1 m
  have hf : fi.1 ∈ pg.fields := mem_atOff hm
  unfold writeField
  split
  split
  · split
    · exact wrSt_alone hf o
    · exact wr_alone hf o
  · exact look_alone fun _ => wr_alone hf o
  all_goals exact skip_alone

theorem resetPage_alone {x pg : Pg} (o : Owns x pg) (r : Rst) : (resetPage pg r).Alone x := by
  have hk : ∀ {pg' : Pg} {f : Fld} {i : Nat}, f ∈ pg'.fields → Fam.of pg' = Fam.of x → pg' ≠ x →
      (!(inPage pg (f.key pg' i)) || keptAt pg r (f.key pg' i)) = true := by
    intro pg' f i m e n
    cases hp : inPage pg (f.key pg' i)
    · rfl
    · obtain ⟨e', _⟩ := inPage_key m hp r
      exact absurd (by have := o (e' ▸ e); rw [← e'] at this; exact this) n
  refine all_cons_alone (fun s w => ?_) (all_cons_alone (fun s w => ?_) all_nil_alone)
  · exact { Alone.refl x s with
      regs := fun pg' f i e n m => by
        show Map.get _ _ _ % _ = Map.get _ _ _ % _
        exact congrArg (· % _) (get_keep_of (p := fun k => !(inPage pg k) || keptAt pg r k) w.1 _ (hk m e n)) }
  · exact { Alone.refl x s with
      stamps := fun st pg' f i e n m => by
        show Map.get _ _ _ % _ = Map.get _ _ _ % _
        refine congrArg (· % _) (get_keep_of (p := fun k => !(inPage pg (k / 64)) || keptAt pg r (k / 64)) w.2.1 _ ?_)
        show (!(inPage pg (_ / 64)) || keptAt pg r (_ / 64)) = true
        have : stampKey st (f.key pg' i) / 64 = f.key pg' i := by unfold stampKey; omega
        rw [this]
        exact hk m e n }

theorem forEach_wr_alone {x pg : Pg} {l : List Fld} (h : l.all (pg.fields.contains ·) = true) (o : Owns x pg) (v i : Nat) :
    (forEach l fun f => wr pg f v i).Alone x :=
  forEach_mem_alone fun f m => wr_alone (by simpa using List.all_eq_true.1 h f m) o

/-! ### From an update to a command -/

theorem answer_alone {x : Pg} {u : Upd} (h : u.Alone x) {s t : State} (w : s.wf) (e : u.answer s = .next t) : Alone x s t := by
  unfold Upd.answer Upd.always at e
  cases e
  exact look_alone (fun _ => when_alone h) s w

theorem always_alone {x : Pg} {u : Upd} (h : u.Alone x) {s t : State} (w : s.wf) (e : u.always s = .next t) : Alone x s t := by
  unfold Upd.always at e
  cases e
  exact h s w

end Sys2Proof.Machine
end

