-- ==== Sys2Proof/Laws/FrameOperands.lean ====
section
/-! SUPPORT. What each update of Machine/Operands.lean may touch. -/

namespace Sys2Proof.Machine

set_option Elab.async false
set_option linter.unusedTactic false
set_option linter.unreachableTactic false

def Foot.upperHold : Foot :=
  { vars := [.upperLow] }

theorem upperHold_in {F : Foot} (hF : Foot.upperHold.le F = true) (st : Stamp) (pg : Pg) (off v : Nat) (full : Bool) (ep : Bool) :
    (upperHold st pg off v full ep).In F := by
  unfold upperHold
  repeat' first
      | ((with_reducible refine put_in ?_); (· exact le_vars hF (by decide +kernel)))
      | split
      | dsimp only

def Foot.upperDrop : Foot :=
  { vars := [.upperLow] }

theorem upperDrop_in {F : Foot} (hF : Foot.upperDrop.le F = true) (st : Stamp) (pg : Pg) (off : Nat) :
    (upperDrop st pg off).In F := by
  unfold upperDrop
  repeat' first
      | ((with_reducible refine put_in ?_); (· exact le_vars hF (by decide +kernel)))
      | split
      | dsimp only

def Foot.spdmAnswer : Foot :=
  { parts := [.out] }

theorem spdmAnswer_in {F : Foot} (hF : Foot.spdmAnswer.le F = true) (ch : DoeOrMctp) (r : SpdmRsp) :
    (spdmAnswer ch r).In F := by
  unfold spdmAnswer
  repeat' first
      | ((with_reducible refine emit_in ?_); (· exact le_parts hF (by decide +kernel)))
      | split
      | dsimp only

def Foot.spdmRefuse : Foot :=
  { regs := onFam .sec errFields ++ onFam .guard (errFields ++ fCnt ++ [.GUARD_ELOG_CTRL_LOST]) ++ onFam .face fCnt, cnts :=
      [.guard, .face], vars := [.elogSeq, .msixPend], fifos := [.elog, .faceWrote, .viWrote], parts := [.greqs, .out] }

theorem spdmRefuse_in {F : Foot} (hF : Foot.spdmRefuse.le F = true) (ch : DoeOrMctp) :
    (spdmRefuse ch).In F := by
  unfold spdmRefuse
  repeat' first
      | (with_reducible first | exact all_nil_in | refine all_cons_in ?_ ?_)
      | ((with_reducible refine raise_in ?_ ?_ ..); (· rfl); (· first | exact Foot.le_trans (F := Foot.error .sec) (by decide +kernel) hF))
      | ((with_reducible refine spdmAnswer_in ?_ ..); (· exact Foot.le_trans (Foot.le_of_runs (by decide +kernel)) hF))
      | split
      | dsimp only

def Foot.throughFirmware : Foot :=
  { regs := onFam .mgmt fCnt ++ onFam .face fCnt, cnts := [.mgmt, .face], vars := [.msixPend], fifos := [.faceWrote, .viWrote],
      parts := [.out] }

theorem throughFirmware_in {F : Foot} (hF : Foot.throughFirmware.le F = true) (ch : DoeOrMctp) (u : Upd) (h_u : u.In F) :
    (throughFirmware ch u).In F := by
  unfold throughFirmware
  repeat' first
      | (with_reducible first | exact all_nil_in | refine all_cons_in ?_ ?_ | refine look_in fun _ => ?_ | refine when_in ?_ | refine ite_in ?_ ?_)
      | with_reducible exact h_u
      | ((with_reducible refine emit_in ?_); (· exact le_parts hF (by decide +kernel)))
      | ((with_reducible refine bump_in ?_ ?_ ..); (· rfl); (· first | exact Foot.le_trans (F := Foot.counting .mgmt) (by decide +kernel) hF))
      | split
      | dsimp only

def Foot.inSession : Foot :=
  { regs := onFam .mgmt fCnt ++ onFam .sec errFields ++ onFam .guard (errFields ++ fCnt ++ [.GUARD_ELOG_CTRL_LOST]) ++ onFam .face
      fCnt, cnts := [.mgmt, .guard, .face], vars := [.elogSeq, .msixPend], fifos := [.elog, .faceWrote, .viWrote], parts :=
      [.greqs, .out] }

theorem inSession_in {F : Foot} (hF : Foot.inSession.le F = true) (ch : DoeOrMctp) (u : FaceId → Upd) (h_u : ∀ z0, (u z0).In F) :
    (inSession ch u).In F := by
  unfold inSession
  repeat' first
      | (with_reducible first | refine look_in fun _ => ?_ | refine ite_in ?_ ?_)
      | with_reducible exact h_u _
      | ((with_reducible refine spdmRefuse_in ?_ ..); (· exact Foot.le_trans (Foot.le_of_runs (by decide +kernel)) hF))
      | ((with_reducible refine throughFirmware_in ?_ _ _ (?_)); (· exact Foot.le_trans (Foot.le_of_runs (by decide +kernel)) hF); skip)
      | split
      | dsimp only

end Sys2Proof.Machine
end

