-- ==== Sys2Proof/Laws/FrameLane.lean ====
section
/-! SUPPORT. What each update of Machine/Lane.lean may touch. -/

namespace Sys2Proof.Machine

set_option Elab.async false
set_option linter.unusedTactic false
set_option linter.unreachableTactic false

def Foot.laneCnt : Foot :=
  { regs := onFam .lane fCnt ++ onFam .face fCnt, cnts := [.lane, .face], vars := [.msixPend], fifos := [.faceWrote, .viWrote],
      parts := [.out] }

theorem laneCnt_in {F : Foot} (hF : Foot.laneCnt.le F = true) (l k n : Nat) :
    (laneCnt l k n).In F := by
  unfold laneCnt
  repeat' first
      | ((with_reducible refine addCnt_in ?_ ?_ ..); (· rfl); (· first | exact Foot.le_trans (F := Foot.counting .lane) (by decide +kernel) hF))
      | split
      | dsimp only

def Foot.laneOff : Foot :=
  { regs := onFam .lane [.LANE_INJ_CTRL_ONE_SHOT, .LANE_RATE_CFG_RATE_NOW, .LANE_REST_CTRL_IN_REST, .LANE_STAT_ALIGN_LOCK,
      .LANE_STAT_CDR_LOCK, .LANE_STAT_EQ_DONE, .LANE_STAT_FEC_LOCK, .LANE_STAT_RX_READY, .LANE_STAT_STATE], vars := [.alignMiss,
      .alignSeen, .badCw, .eqTimeouts, .injAlign, .ownReq, .partnerReady, .peerReq, .rxRest] }

theorem laneOff_in {F : Foot} (hF : Foot.laneOff.le F = true) (l : Nat) :
    (laneOff l).In F := by
  unfold laneOff
  repeat' first
      | (with_reducible first | exact all_nil_in | refine all_cons_in ?_ ?_)
      | ((with_reducible refine put_in ?_); (· exact le_vars hF (by decide +kernel)))
      | ((with_reducible refine wln_in ?_ ?_ _ _); (· decide +kernel); (· exact le_regs hF (by decide +kernel)))
      | split
      | dsimp only

def Foot.pllSettle : Foot :=
  { regs := onFam .lane [.LANE_OCT_STAT_A_LOCK, .LANE_OCT_STAT_B_LOCK] }

theorem pllSettle_in {F : Foot} (hF : Foot.pllSettle.le F = true) (oct : Nat) :
    (pllSettle oct).In F := by
  unfold pllSettle
  repeat' first
      | (with_reducible first | exact all_nil_in | refine all_cons_in ?_ ?_ | refine look_in fun _ => ?_ | refine when_in ?_)
      | ((with_reducible refine wr_in ?_ ?_); (· first | exact own_mem (show _ ∈ tabLANE by decide +kernel)); (· first | exact le_regs hF (show (Fam.lane, _) ∈ _ by decide +kernel)))
      | split
      | dsimp only

def Foot.sendBlk : Foot :=
  { parts := [.coders] }

theorem sendBlk_in {F : Foot} (hF : Foot.sendBlk.le F = true) (l hdr : Nat) (w : BitVec 64) :
    (sendBlk l hdr w).In F := by
  unfold sendBlk
  repeat' first
      | (with_reducible first | refine look_in fun _ => ?_)
      | ((with_reducible refine modCoder_in ?_); (· exact le_parts hF (by decide +kernel)))
      | split
      | dsimp only

def Foot.setTaps : Foot :=
  { regs := onFam .lane [.LANE_TX_TAPS_C0, .LANE_TX_TAPS_POST, .LANE_TX_TAPS_PRE] }

theorem setTaps_in {F : Foot} (hF : Foot.setTaps.le F = true) (l pre post : Nat) :
    (setTaps l pre post).In F := by
  unfold setTaps
  repeat' first
      | (with_reducible first | exact all_nil_in | refine all_cons_in ?_ ?_)
      | ((with_reducible refine wln_in ?_ ?_ _ _); (· decide +kernel); (· exact le_regs hF (by decide +kernel)))
      | split
      | dsimp only

def Foot.laneTrain : Foot :=
  { regs := onFam .lane [.LANE_INJ_CTRL_ONE_SHOT, .LANE_RATE_CFG_RATE_NOW, .LANE_REST_CTRL_IN_REST, .LANE_STAT_ALIGN_LOCK,
      .LANE_STAT_CDR_LOCK, .LANE_STAT_EQ_DONE, .LANE_STAT_EQ_FAIL, .LANE_STAT_EXIT_FAIL, .LANE_STAT_FAILED, .LANE_STAT_FEC_LOCK,
      .LANE_STAT_RX_READY, .LANE_STAT_STATE, .LANE_TX_TAPS_C0, .LANE_TX_TAPS_POST, .LANE_TX_TAPS_PRE], vars := [.alignMiss,
      .alignSeen, .badCw, .eqTimeouts, .injAlign, .ownReq, .partnerReady, .peerReq, .postStat, .preStat, .presetStat, .rxRest],
      parts := [.out] }

theorem laneTrain_in {F : Foot} (hF : Foot.laneTrain.le F = true) (l : Nat) :
    (laneTrain l).In F := by
  unfold laneTrain
  repeat' first
      | (with_reducible first | exact all_nil_in | refine all_cons_in ?_ ?_ | refine look_in fun _ => ?_ | refine when_in ?_ | refine ite_in ?_ ?_)
      | ((with_reducible refine put_in ?_); (· exact le_vars hF (by decide +kernel)))
      | ((with_reducible refine emit_in ?_); (· exact le_parts hF (by decide +kernel)))
      | ((with_reducible refine wln_in ?_ ?_ _ _); (· decide +kernel); (· exact le_regs hF (by decide +kernel)))
      | ((with_reducible refine laneOff_in ?_ ..); (· exact Foot.le_trans (Foot.le_of_runs (by decide +kernel)) hF))
      | ((with_reducible refine setTaps_in ?_ ..); (· exact Foot.le_trans (Foot.le_of_runs (by decide +kernel)) hF))
      | split
      | dsimp only

def Foot.sendAlign : Foot :=
  { regs := onFam .lane [.LANE_INJ_CTRL_ONE_SHOT], vars := [.alignTx, .injAlign], parts := [.coders, .out] }

theorem sendAlign_in {F : Foot} (hF : Foot.sendAlign.le F = true) (l : Nat) :
    (sendAlign l).In F := by
  unfold sendAlign
  repeat' first
      | (with_reducible first | exact all_nil_in | refine all_cons_in ?_ ?_ | refine look_in fun _ => ?_ | refine when_in ?_ | refine ite_in ?_ ?_)
      | ((with_reducible refine put_in ?_); (· exact le_vars hF (by decide +kernel)))
      | ((with_reducible refine emit_in ?_); (· exact le_parts hF (by decide +kernel)))
      | ((with_reducible refine wln_in ?_ ?_ _ _); (· decide +kernel); (· exact le_regs hF (by decide +kernel)))
      | ((with_reducible refine sendBlk_in ?_ ..); (· exact Foot.le_trans (Foot.le_of_runs (by decide +kernel)) hF))
      | split
      | dsimp only

def Foot.coeffField : Foot :=
  { regs := onFam .lane [.LANE_TX_TAPS_C0, .LANE_TX_TAPS_POST, .LANE_TX_TAPS_PRE] }

theorem coeffField_in {F : Foot} (hF : Foot.coeffField.le F = true) (l req : Nat) (x : Var) (v : Nat) (new : Nat → Nat × Nat) (h_x : x ∈ F.vars) :
    (coeffField l req x v new).In F := by
  unfold coeffField
  repeat' first
      | (with_reducible first | exact skip_in | exact all_nil_in | refine all_cons_in ?_ ?_ | refine look_in fun _ => ?_ | refine ite_in ?_ ?_)
      | with_reducible exact put_in h_x
      | ((with_reducible refine put_in ?_); (· exact le_vars hF (by decide +kernel)))
      | ((with_reducible refine setTaps_in ?_ ..); (· exact Foot.le_trans (Foot.le_of_runs (by decide +kernel)) hF))
      | split
      | dsimp only

def Foot.coeffAnswer : Foot :=
  { regs := onFam .lane [.LANE_TX_TAPS_C0, .LANE_TX_TAPS_POST, .LANE_TX_TAPS_PRE], vars := [.postStat, .preStat, .presetStat] }

theorem coeffAnswer_in {F : Foot} (hF : Foot.coeffAnswer.le F = true) (l w : Nat) :
    (coeffAnswer l w).In F := by
  unfold coeffAnswer
  repeat' first
      | (with_reducible first | exact skip_in | exact all_nil_in | refine all_cons_in ?_ ?_ | refine look_in fun _ => ?_ | refine ite_in ?_ ?_)
      | ((with_reducible refine put_in ?_); (· exact le_vars hF (by decide +kernel)))
      | ((with_reducible refine coeffField_in ?_ _ _ _ _ _ ?_); (· exact Foot.le_trans (Foot.le_of_runs (by decide +kernel)) hF); (· exact le_vars hF (by decide +kernel)))
      | ((with_reducible refine setTaps_in ?_ ..); (· exact Foot.le_trans (Foot.le_of_runs (by decide +kernel)) hF))
      | split
      | dsimp only

def Foot.pcieAnswer : Foot :=
  { regs := onFam .lane [.LANE_TX_TAPS_C0, .LANE_TX_TAPS_POST, .LANE_TX_TAPS_PRE], parts := [.out] }

theorem pcieAnswer_in {F : Foot} (hF : Foot.pcieAnswer.le F = true) (l : Nat) (req : EqReq) :
    (pcieAnswer l req).In F := by
  unfold pcieAnswer
  repeat' first
      | (with_reducible first | refine look_in fun _ => ?_ | refine ite_in ?_ ?_)
      | ((with_reducible refine emit_in ?_); (· exact le_parts hF (by decide +kernel)))
      | ((with_reducible refine setTaps_in ?_ ..); (· exact Foot.le_trans (Foot.le_of_runs (by decide +kernel)) hF))
      | split
      | dsimp only

def Foot.sendTrain : Foot :=
  { parts := [.coders, .out] }

theorem sendTrain_in {F : Foot} (hF : Foot.sendTrain.le F = true) (l phase width : Nat) :
    (sendTrain l phase width).In F := by
  unfold sendTrain
  repeat' first
      | (with_reducible first | exact all_nil_in | refine all_cons_in ?_ ?_ | refine look_in fun _ => ?_)
      | ((with_reducible refine emit_in ?_); (· exact le_parts hF (by decide +kernel)))
      | ((with_reducible refine sendBlk_in ?_ ..); (· exact Foot.le_trans (Foot.le_of_runs (by decide +kernel)) hF))
      | split
      | dsimp only

def Foot.exchange : Foot :=
  { regs := onFam .lane fCnt ++ onFam .face fCnt, cnts := [.lane, .face], vars := [.msixPend, .ownReq, .peerReq], fifos :=
      [.faceWrote, .viWrote], parts := [.out] }

theorem exchange_in {F : Foot} (hF : Foot.exchange.le F = true) (l control status want : Nat) :
    (exchange l control status want).In F := by
  unfold exchange
  repeat' first
      | (with_reducible first | exact all_nil_in | refine all_cons_in ?_ ?_ | refine look_in fun _ => ?_ | refine when_in ?_ | refine ite_in ?_ ?_)
      | ((with_reducible refine put_in ?_); (· exact le_vars hF (by decide +kernel)))
      | ((with_reducible refine laneCnt_in ?_ ..); (· exact Foot.le_trans (Foot.le_of_runs (by decide +kernel)) hF))
      | split
      | dsimp only

def Foot.tapsWrite : Foot :=
  { regs := onFam .guard (errFields ++ fCnt ++ [.GUARD_ELOG_CTRL_LOST]) ++ onFam .lane (errFields ++ [.LANE_TX_TAPS_C0,
      .LANE_TX_TAPS_POST, .LANE_TX_TAPS_PRE]) ++ onFam .face fCnt, cnts := [.guard, .face], vars := [.elogSeq, .msixPend], fifos
      := [.elog, .faceWrote, .viWrote], parts := [.greqs, .out] }

theorem tapsWrite_in {F : Foot} (hF : Foot.tapsWrite.le F = true) (l v : Nat) :
    (tapsWrite l v).In F := by
  unfold tapsWrite
  repeat' first
      | (with_reducible first | refine look_in fun _ => ?_ | refine ite_in ?_ ?_)
      | ((with_reducible refine raise_in ?_ ?_ ..); (· rfl); (· first | exact Foot.le_trans (F := Foot.error .lane) (by decide +kernel) hF))
      | ((with_reducible refine setTaps_in ?_ ..); (· exact Foot.le_trans (Foot.le_of_runs (by decide +kernel)) hF))
      | split
      | dsimp only

def Foot.eqCtrlWrite : Foot :=
  { regs := onFam .lane [.LANE_EQ_CTRL_INIT_PRESET, .LANE_EQ_CTRL_MODE, .LANE_EQ_CTRL_RESP_TIMEOUT, .LANE_EQ_CTRL_RETRIES,
      .LANE_EQ_CTRL_RX_ADAPT], vars := [.postStat, .preStat, .presetStat] }

theorem eqCtrlWrite_in {F : Foot} (hF : Foot.eqCtrlWrite.le F = true) (st : Stamp) (l v : Nat) :
    (eqCtrlWrite st l v).In F := by
  unfold eqCtrlWrite
  repeat' first
      | (with_reducible first | exact all_nil_in | refine all_cons_in ?_ ?_ | refine look_in fun _ => ?_ | refine when_in ?_)
      | ((with_reducible refine put_in ?_); (· exact le_vars hF (by decide +kernel)))
      | ((with_reducible refine plainWrite_in ?_ _ _); (· first | exact fun fi m => le_regs hF ((show ∀ k < 8, ∀ fi ∈ atOff (tabHDR ++ tabLANE) (0x400 + k * 0x80 + 0x08), (Fam.lane, fi.1) ∈ Foot.eqCtrlWrite.regs by decide +kernel) (l % 8) (Nat.mod_lt _ (by decide)) fi m)))
      | split
      | dsimp only

def Foot.inject : Foot :=
  { regs := onFam .lane fCnt ++ onFam .face fCnt, cnts := [.lane, .face], vars := [.injAlign, .msixPend], fifos := [.faceWrote,
      .viWrote], parts := [.out] }

theorem inject_in {F : Foot} (hF : Foot.inject.le F = true) (l : Nat) :
    (inject l).In F := by
  unfold inject
  repeat' first
      | (with_reducible first | exact skip_in | exact all_nil_in | refine all_cons_in ?_ ?_ | refine look_in fun _ => ?_ | refine when_in ?_)
      | ((with_reducible refine put_in ?_); (· exact le_vars hF (by decide +kernel)))
      | ((with_reducible refine emit_in ?_); (· exact le_parts hF (by decide +kernel)))
      | ((with_reducible refine addCnt_in ?_ ?_ ..); (· rfl); (· first | exact Foot.le_trans (F := Foot.counting .lane) (by decide +kernel) hF))
      | split
      | dsimp only

def Foot.injCtrlWrite : Foot :=
  { regs := onFam .lane (fCnt ++ [.LANE_INJ_CTRL_COUNT, .LANE_INJ_CTRL_ONE_SHOT, .LANE_INJ_CTRL_PERIOD, .LANE_INJ_CTRL_TARGET]) ++
      onFam .face fCnt, cnts := [.lane, .face], vars := [.injAlign, .msixPend], fifos := [.faceWrote, .viWrote], parts := [.out] }

theorem injCtrlWrite_in {F : Foot} (hF : Foot.injCtrlWrite.le F = true) (st : Stamp) (l v : Nat) :
    (injCtrlWrite st l v).In F := by
  unfold injCtrlWrite
  repeat' first
      | (with_reducible first | exact all_nil_in | refine all_cons_in ?_ ?_ | refine look_in fun _ => ?_ | refine when_in ?_)
      | ((with_reducible refine wln_in ?_ ?_ _ _); (· decide +kernel); (· exact le_regs hF (by decide +kernel)))
      | ((with_reducible refine plainWrite_in ?_ _ _); (· first | exact fun fi m => le_regs hF ((show ∀ k < 8, ∀ fi ∈ atOff (tabHDR ++ tabLANE) (0x400 + k * 0x80 + 0x14), (Fam.lane, fi.1) ∈ Foot.injCtrlWrite.regs by decide +kernel) (l % 8) (Nat.mod_lt _ (by decide)) fi m)))
      | ((with_reducible refine inject_in ?_ ..); (· exact Foot.le_trans (Foot.le_of_runs (by decide +kernel)) hF))
      | split
      | dsimp only

end Sys2Proof.Machine
end

