-- ==== Sys2Proof/Laws/FrameBuffer.lean ====
section
/-! SUPPORT. What each update of Machine/Buffer.lean may touch. -/

namespace Sys2Proof.Machine

set_option Elab.async false
set_option linter.unusedTactic false
set_option linter.unreachableTactic false

def Foot.coreWatch : Foot :=
  { regs := onFam .core [.CORE_WM_STAT_WM_CROSS_CNT, .CORE_WM_STAT_WM_EVENT, .CORE_WM_STAT_WM_LEVEL] }

theorem coreWatch_in {F : Foot} (hF : Foot.coreWatch.le F = true)  :
    (coreWatch).In F := by
  unfold coreWatch
  repeat' first
      | (with_reducible first | refine look_in fun _ => ?_)
      | ((with_reducible refine watch_in ?_ ?_ ?_ ?_ ?_ ?_ _ _ _); all_goals first | exact own_mem (by decide +kernel) | exact le_regs hF (by decide +kernel))
      | split
      | dsimp only

def Foot.grantCredits : Foot :=
  { vars := [.crAdv] }

theorem grantCredits_in {F : Foot} (hF : Foot.grantCredits.le F = true) (p c x : Nat) :
    (grantCredits p c x).In F := by
  unfold grantCredits
  repeat' first
      | (with_reducible first | refine look_in fun _ => ?_ | refine when_in ?_ | refine ite_in ?_ ?_)
      | ((with_reducible refine put_in ?_); (· exact le_vars hF (by decide +kernel)))
      | split
      | dsimp only

def Foot.voidProof : Foot :=
  { parts := [.streams] }

theorem voidProof_in {F : Foot} (hF : Foot.voidProof.le F = true) (stream n : Nat) :
    (voidProof stream n).In F := by
  unfold voidProof
  repeat' first
      | (with_reducible first | refine look_in fun _ => ?_ | refine ite_in ?_ ?_)
      | ((with_reducible refine putTx_in ?_); (· exact le_parts hF (by decide +kernel)))
      | split
      | dsimp only

def Foot.markBad : Foot :=
  { parts := [.replay] }

theorem markBad_in {F : Foot} (hF : Foot.markBad.le F = true) (p : Nat) :
    (markBad p).In F := by
  unfold markBad
  repeat' first
      | (with_reducible first | refine look_in fun _ => ?_)
      | ((with_reducible refine putReplay_in ?_); (· exact le_parts hF (by decide +kernel)))
      | split
      | dsimp only

def Foot.stompSamples : Foot :=
  { parts := [.waiting] }

theorem stompSamples_in {F : Foot} (hF : Foot.stompSamples.le F = true) (id : Nat) :
    (stompSamples id).In F := by
  unfold stompSamples
  repeat' first
      | (with_reducible first | refine ite_in ?_ ?_)
      | ((with_reducible refine modWaiting_in ?_); (· exact le_parts hF (by decide +kernel)))
      | split
      | dsimp only

def Foot.turnBad : Foot :=
  { regs := onFam .guard (errFields ++ fCnt ++ [.GUARD_ELOG_CTRL_LOST]) ++ onFam .core (errFields ++ fCnt ++
      [.CORE_WM_STAT_WM_CROSS_CNT, .CORE_WM_STAT_WM_EVENT, .CORE_WM_STAT_WM_LEVEL]) ++ onFam .face fCnt, cnts := [.guard, .core,
      .face], vars := [.elogSeq, .msixPend], fifos := [.elog, .faceWrote, .viWrote], parts := [.buf, .greqs, .out, .replay,
      .streams, .waiting] }

theorem turnBad_in {F : Foot} (hF : Foot.turnBad.le F = true) (id : Nat) :
    (turnBad id).In F := by
  unfold turnBad
  repeat' first
      | (with_reducible first | exact skip_in | exact all_nil_in | refine all_cons_in ?_ ?_ | refine look_in fun _ => ?_ | refine when_in ?_ | refine ite_in ?_ ?_ | refine forEach_in fun _ => ?_ | refine forSome_in fun _ => ?_)
      | ((with_reducible refine modBuf_in ?_); (· exact le_parts hF (by decide +kernel)))
      | ((with_reducible refine emit_in ?_); (· exact le_parts hF (by decide +kernel)))
      | ((with_reducible refine bump_in ?_ ?_ ..); (· rfl); (· first | exact Foot.le_trans (F := Foot.counting .core) (by decide +kernel) hF))
      | ((with_reducible refine raise_in ?_ ?_ ..); (· rfl); (· first | exact Foot.le_trans (F := Foot.error .core) (by decide +kernel) hF))
      | ((with_reducible refine coreWatch_in ?_ ..); (· exact Foot.le_trans (Foot.le_of_runs (by decide +kernel)) hF))
      | ((with_reducible refine markBad_in ?_ ..); (· exact Foot.le_trans (Foot.le_of_runs (by decide +kernel)) hF))
      | ((with_reducible refine stompSamples_in ?_ ..); (· exact Foot.le_trans (Foot.le_of_runs (by decide +kernel)) hF))
      | ((with_reducible refine voidProof_in ?_ ..); (· exact Foot.le_trans (Foot.le_of_runs (by decide +kernel)) hF))
      | split
      | dsimp only

def Foot.unretainedLoss : Foot :=
  { regs := onFam .guard (errFields ++ fCnt ++ [.GUARD_ELOG_CTRL_LOST]) ++ onFam .face fCnt, cnts := [.guard, .face], vars :=
      [.elogSeq, .msixPend], fifos := [.elog, .faceWrote, .viWrote], parts := [.greqs, .out] }

theorem unretainedLoss_in {F : Foot} (hF : Foot.unretainedLoss.le F = true) (n : Nat) :
    (unretainedLoss n).In F := by
  unfold unretainedLoss
  repeat' first
      | (with_reducible first | refine when_in ?_)
      | ((with_reducible refine raise_in ?_ ?_ ..); (· rfl); (· first | exact Foot.le_trans (F := Foot.error .guard) (by decide +kernel) hF))
      | split
      | dsimp only

def Foot.egressDiscard : Foot :=
  { regs := onFam .guard (errFields ++ fCnt ++ [.GUARD_ELOG_CTRL_LOST]) ++ onFam .core (fCnt ++ [.CORE_WM_STAT_WM_CROSS_CNT,
      .CORE_WM_STAT_WM_EVENT, .CORE_WM_STAT_WM_LEVEL]) ++ onFam .face fCnt, cnts := [.guard, .core, .face], vars := [.elogSeq,
      .msixPend], fifos := [.elog, .faceWrote, .viWrote], parts := [.buf, .greqs, .out, .waiting] }

theorem egressDiscard_in {F : Foot} (hF : Foot.egressDiscard.le F = true) (p : Nat) (contained : Bool) :
    (egressDiscard p contained).In F := by
  unfold egressDiscard
  repeat' first
      | (with_reducible first | exact all_nil_in | refine all_cons_in ?_ ?_ | refine look_in fun _ => ?_ | refine when_in ?_ | refine forEach_in fun _ => ?_)
      | ((with_reducible refine modBuf_in ?_); (· exact le_parts hF (by decide +kernel)))
      | ((with_reducible refine modWaiting_in ?_); (· exact le_parts hF (by decide +kernel)))
      | ((with_reducible refine emit_in ?_); (· exact le_parts hF (by decide +kernel)))
      | ((with_reducible refine addCnt_in ?_ ?_ ..); (· rfl); (· first | exact Foot.le_trans (F := Foot.counting .core) (by decide +kernel) hF))
      | ((with_reducible refine coreWatch_in ?_ ..); (· exact Foot.le_trans (Foot.le_of_runs (by decide +kernel)) hF))
      | ((with_reducible refine stompSamples_in ?_ ..); (· exact Foot.le_trans (Foot.le_of_runs (by decide +kernel)) hF))
      | ((with_reducible refine unretainedLoss_in ?_ ..); (· exact Foot.le_trans (Foot.le_of_runs (by decide +kernel)) hF))
      | split
      | dsimp only

def Foot.ingressCut : Foot :=
  { regs := onFam .guard (errFields ++ fCnt ++ [.GUARD_ELOG_CTRL_LOST]) ++ onFam .core (errFields ++ fCnt ++
      [.CORE_WM_STAT_WM_CROSS_CNT, .CORE_WM_STAT_WM_EVENT, .CORE_WM_STAT_WM_LEVEL]) ++ onFam .face fCnt, cnts := [.guard, .core,
      .face], vars := [.elogSeq, .msixPend], fifos := [.elog, .faceWrote, .viWrote], parts := [.buf, .greqs, .out, .replay,
      .streams, .waiting] }

theorem ingressCut_in {F : Foot} (hF : Foot.ingressCut.le F = true) (p : Nat) :
    (ingressCut p).In F := by
  unfold ingressCut
  repeat' first
      | (with_reducible first | refine look_in fun _ => ?_ | refine forEach_in fun _ => ?_)
      | ((with_reducible refine turnBad_in ?_ ..); (· exact Foot.le_trans (Foot.le_of_runs (by decide +kernel)) hF))
      | split
      | dsimp only

end Sys2Proof.Machine
end

