-- ==== Sys2Proof/Laws/FramePort.lean ====
section
/-! SUPPORT. What each update of Machine/Port.lean may touch. -/

namespace Sys2Proof.Machine

set_option Elab.async false
set_option linter.unusedTactic false
set_option linter.unreachableTactic false

def Foot.linkSend : Foot :=
  { parts := [.coders] }

theorem linkSend_in {F : Foot} (hF : Foot.linkSend.le F = true) (p : Nat) (bs : List (Nat × BitVec 64)) :
    (linkSend p bs).In F := by
  unfold linkSend
  repeat' first
      | (with_reducible first | exact all_nil_in | refine all_cons_in ?_ ?_ | refine look_in fun _ => ?_ | refine forEach_in fun _ => ?_ | refine forSome_in fun _ => ?_)
      | ((with_reducible refine modCoder_in ?_); (· exact le_parts hF (by decide +kernel)))
      | ((with_reducible refine sendBlk_in ?_ ..); (· exact Foot.le_trans (Foot.le_of_runs (by decide +kernel)) hF))
      | split
      | dsimp only

def Foot.ctl : Foot :=
  { parts := [.coders, .out] }

theorem ctl_in {F : Foot} (hF : Foot.ctl.le F = true) (p typ body : Nat) :
    (ctl p typ body).In F := by
  unfold ctl
  repeat' first
      | (with_reducible first | exact all_nil_in | refine all_cons_in ?_ ?_)
      | ((with_reducible refine emit_in ?_); (· exact le_parts hF (by decide +kernel)))
      | ((with_reducible refine linkSend_in ?_ ..); (· exact Foot.le_trans (Foot.le_of_runs (by decide +kernel)) hF))
      | split
      | dsimp only

def Foot.onEveryLane : Foot :=
  { parts := [.coders] }

theorem onEveryLane_in {F : Foot} (hF : Foot.onEveryLane.le F = true) (p : Nat) (w : BitVec 64) :
    (onEveryLane p w).In F := by
  unfold onEveryLane
  repeat' first
      | (with_reducible first | refine look_in fun _ => ?_ | refine forEach_in fun _ => ?_)
      | ((with_reducible refine sendBlk_in ?_ ..); (· exact Foot.le_trans (Foot.le_of_runs (by decide +kernel)) hF))
      | split
      | dsimp only

def Foot.sendLanemap : Foot :=
  { parts := [.coders, .out] }

theorem sendLanemap_in {F : Foot} (hF : Foot.sendLanemap.le F = true) (p set id : Nat) :
    (sendLanemap p set id).In F := by
  unfold sendLanemap
  repeat' first
      | (with_reducible first | exact all_nil_in | refine all_cons_in ?_ ?_)
      | ((with_reducible refine emit_in ?_); (· exact le_parts hF (by decide +kernel)))
      | ((with_reducible refine onEveryLane_in ?_ ..); (· exact Foot.le_trans (Foot.le_of_runs (by decide +kernel)) hF))
      | split
      | dsimp only

def Foot.clearLink : Foot :=
  { regs := onFam .sec [.SEC_IDE_STAT_DEV_AUTH, .SEC_IDE_STAT_LINK_ID, .SEC_IDE_STAT_LINK_KSET, .SEC_IDE_STAT_LINK_SECURE,
      .SEC_IDE_STAT_SEL_SECURE, .SEC_IDE_STAT_SEL_VALID, .SEC_LINK_STAT_AUTH_OK, .SEC_LINK_STAT_AUTH_STATUS,
      .SEC_LINK_STAT_PARTNER_DEBUG, .SEC_LINK_STAT_REKEY, .SEC_LINK_STAT_REKEYS] ++ onFam .bridge [.BRIDGE_FAB_NBR_PARTNER_PORT,
      .BRIDGE_FAB_NBR_PARTNER_SW, .BRIDGE_FAB_NBR_VALID] ++ onFam .port [.PORT_LINK_STAT_ENC, .PORT_LINK_STAT_FLIT,
      .PORT_LINK_STAT_KEY_PHASE, .PORT_LINK_STAT_LANES_GOOD, .PORT_LINK_STAT_RATE_NOW, .PORT_LINK_STAT_WIDTH_NOW,
      .PORT_REPLAY_CNT_CONSEC], vars := [.authDebug, .authStep, .crAdv, .crInit, .crUsed, .ideGo, .ideKey, .lsSeen, .mkDue, .mkRx,
      .mkTx, .nakSent, .nextKey, .paramGot, .paramVal, .partnerAspm, .partnerMax, .partnerRest, .pcieAcked, .pcieRev, .pcieSent,
      .rekeying, .replayAt, .restHeld, .restPend, .restSince, .rxKey, .rxNum, .rxSeq, .rxUnacked, .skewCnt, .txCount, .txKey,
      .txLimit, .txNum, .txSeq, .txUsed, .wcDone, .wcFrom, .wcId, .wcOldWidth, .wcSet, .widening], parts := [.replay] }

theorem clearLink_in {F : Foot} (hF : Foot.clearLink.le F = true) (p : Nat) :
    (clearLink p).In F := by
  unfold clearLink
  repeat' first
      | ((with_reducible refine forEach_put_in hF ?_ _ _); (· decide +kernel))
      | ((with_reducible refine forEach_clearIv_in hF ?_ _); (· decide +kernel))
      | ((with_reducible refine forEach_wr_in hF ?_ ?_ _ _); (· first | decide +kernel | (show List.all _ (fun f => Foot.clearLink.regs.contains (Fam.port, f)) = true; decide +kernel)); (· first | decide +kernel | (show List.all _ (tabPORT.contains ·) = true; decide +kernel)))
      | (with_reducible first | exact all_nil_in | refine all_cons_in ?_ ?_ | refine forEach_in fun _ => ?_)
      | ((with_reducible refine put_in ?_); (· exact le_vars hF (by decide +kernel)))
      | ((with_reducible refine clearIv_in ?_); (· exact le_vars hF (by decide +kernel)))
      | ((with_reducible refine putReplay_in ?_); (· exact le_parts hF (by decide +kernel)))
      | ((with_reducible refine wr_in ?_ ?_); (· first | exact own_mem (show _ ∈ tabBRIDGE4 by decide +kernel) | exact own_mem (show _ ∈ tabPORT by decide +kernel) | exact own_mem (show _ ∈ tabSEC1 by decide +kernel) | exact own_mem (show _ ∈ tabSEC2 by decide +kernel)); (· first | exact le_regs hF (show (Fam.bridge, _) ∈ _ by decide +kernel) | exact le_regs hF (show (Fam.port, _) ∈ _ by decide +kernel) | exact le_regs hF (show (Fam.sec, _) ∈ _ by decide +kernel)))
      | split
      | dsimp only

def Foot.linkTo : Foot :=
  { regs := onFam .sec [.SEC_IDE_STAT_DEV_AUTH, .SEC_IDE_STAT_LINK_ID, .SEC_IDE_STAT_LINK_KSET, .SEC_IDE_STAT_LINK_SECURE,
      .SEC_IDE_STAT_SEL_SECURE, .SEC_IDE_STAT_SEL_VALID, .SEC_LINK_STAT_AUTH_OK, .SEC_LINK_STAT_AUTH_STATUS,
      .SEC_LINK_STAT_PARTNER_DEBUG, .SEC_LINK_STAT_REKEY, .SEC_LINK_STAT_REKEYS] ++ onFam .guard (errFields ++ fCnt ++
      [.GUARD_ELOG_CTRL_LOST]) ++ onFam .lane [.LANE_INJ_CTRL_ONE_SHOT, .LANE_RATE_CFG_RATE_NOW, .LANE_REST_CTRL_IN_REST,
      .LANE_STAT_ALIGN_LOCK, .LANE_STAT_CDR_LOCK, .LANE_STAT_EQ_DONE, .LANE_STAT_EQ_FAIL, .LANE_STAT_EXIT_FAIL, .LANE_STAT_FAILED,
      .LANE_STAT_FEC_LOCK, .LANE_STAT_RX_READY, .LANE_STAT_STATE, .LANE_TX_TAPS_C0, .LANE_TX_TAPS_POST, .LANE_TX_TAPS_PRE] ++
      onFam .core (errFields ++ fCnt ++ [.CORE_WM_STAT_WM_CROSS_CNT, .CORE_WM_STAT_WM_EVENT, .CORE_WM_STAT_WM_LEVEL]) ++ onFam
      .bridge [.BRIDGE_FAB_NBR_PARTNER_PORT, .BRIDGE_FAB_NBR_PARTNER_SW, .BRIDGE_FAB_NBR_VALID] ++ onFam .port
      [.PORT_LINK_STAT_ENC, .PORT_LINK_STAT_FLIT, .PORT_LINK_STAT_KEY_PHASE, .PORT_LINK_STAT_LANES_GOOD, .PORT_LINK_STAT_RATE_NOW,
      .PORT_LINK_STAT_STATE, .PORT_LINK_STAT_WIDTH_NOW, .PORT_REPLAY_CNT_CONSEC] ++ onFam .face (fCnt ++ [.FACE_BIND_STATE,
      .FACE_PM_STAT_LINK_PM]), cnts := [.guard, .core, .face], vars := [.alignMiss, .alignSeen, .authDebug, .authStep, .badCw,
      .crAdv, .crInit, .crUsed, .elogSeq, .eqTimeouts, .ideGo, .ideKey, .injAlign, .lsSeen, .mkDue, .mkRx, .mkTx, .msixPend,
      .nakSent, .nextKey, .ownReq, .paramGot, .paramVal, .partnerAspm, .partnerMax, .partnerReady, .partnerRest, .pcieAcked,
      .pcieRev, .pcieSent, .peerReq, .postStat, .preStat, .presetStat, .rekeying, .replayAt, .restHeld, .restPend, .restSince,
      .rxKey, .rxNum, .rxRest, .rxSeq, .rxUnacked, .skewCnt, .txCount, .txKey, .txLimit, .txNum, .txSeq, .txUsed, .wcDone,
      .wcFrom, .wcId, .wcOldWidth, .wcSet, .widening], fifos := [.elog, .faceWrote, .viWrote], parts := [.buf, .greqs, .out,
      .replay, .streams, .waiting] }

theorem linkTo_in {F : Foot} (hF : Foot.linkTo.le F = true) (p dest : Nat) :
    (linkTo p dest).In F := by
  unfold linkTo
  repeat' first
      | (with_reducible first | exact all_nil_in | refine all_cons_in ?_ ?_ | refine look_in fun _ => ?_ | refine when_in ?_ | refine forEach_in fun _ => ?_ | refine forSome_in fun _ => ?_)
      | ((with_reducible refine wr_in ?_ ?_); (· first | exact own_mem (show _ ∈ tabFACE by decide +kernel) | exact own_mem (show _ ∈ tabPORT by decide +kernel)); (· first | exact le_regs hF (show (Fam.face, _) ∈ _ by decide +kernel) | exact le_regs hF (show (Fam.port, _) ∈ _ by decide +kernel)))
      | ((with_reducible refine clearLink_in ?_ ..); (· exact Foot.le_trans (Foot.le_of_runs (by decide +kernel)) hF))
      | ((with_reducible refine ingressCut_in ?_ ..); (· exact Foot.le_trans (Foot.le_of_runs (by decide +kernel)) hF))
      | ((with_reducible refine laneTrain_in ?_ ..); (· exact Foot.le_trans (Foot.le_of_runs (by decide +kernel)) hF))
      | ((with_reducible refine unretainedLoss_in ?_ ..); (· exact Foot.le_trans (Foot.le_of_runs (by decide +kernel)) hF))
      | split
      | dsimp only

def Foot.linkDown : Foot :=
  { regs := onFam .sec [.SEC_IDE_STAT_DEV_AUTH, .SEC_IDE_STAT_LINK_ID, .SEC_IDE_STAT_LINK_KSET, .SEC_IDE_STAT_LINK_SECURE,
      .SEC_IDE_STAT_SEL_SECURE, .SEC_IDE_STAT_SEL_VALID, .SEC_LINK_STAT_AUTH_OK, .SEC_LINK_STAT_AUTH_STATUS,
      .SEC_LINK_STAT_PARTNER_DEBUG, .SEC_LINK_STAT_REKEY, .SEC_LINK_STAT_REKEYS] ++ onFam .guard (errFields ++ fCnt ++
      [.GUARD_ELOG_CTRL_LOST]) ++ onFam .lane [.LANE_INJ_CTRL_ONE_SHOT, .LANE_RATE_CFG_RATE_NOW, .LANE_REST_CTRL_IN_REST,
      .LANE_STAT_ALIGN_LOCK, .LANE_STAT_CDR_LOCK, .LANE_STAT_EQ_DONE, .LANE_STAT_EQ_FAIL, .LANE_STAT_EXIT_FAIL, .LANE_STAT_FAILED,
      .LANE_STAT_FEC_LOCK, .LANE_STAT_RX_READY, .LANE_STAT_STATE, .LANE_TX_TAPS_C0, .LANE_TX_TAPS_POST, .LANE_TX_TAPS_PRE] ++
      onFam .core (errFields ++ fCnt ++ [.CORE_WM_STAT_WM_CROSS_CNT, .CORE_WM_STAT_WM_EVENT, .CORE_WM_STAT_WM_LEVEL]) ++ onFam
      .bridge [.BRIDGE_FAB_NBR_PARTNER_PORT, .BRIDGE_FAB_NBR_PARTNER_SW, .BRIDGE_FAB_NBR_VALID] ++ onFam .port
      [.PORT_LINK_STAT_ENC, .PORT_LINK_STAT_FLIT, .PORT_LINK_STAT_KEY_PHASE, .PORT_LINK_STAT_LANES_GOOD, .PORT_LINK_STAT_RATE_NOW,
      .PORT_LINK_STAT_STATE, .PORT_LINK_STAT_WIDTH_NOW, .PORT_REPLAY_CNT_CONSEC] ++ onFam .face (fCnt ++ [.FACE_BIND_STATE,
      .FACE_PM_STAT_LINK_PM]), cnts := [.guard, .core, .face], vars := [.alignMiss, .alignSeen, .authDebug, .authStep, .badCw,
      .crAdv, .crInit, .crUsed, .elogSeq, .eqTimeouts, .ideGo, .ideKey, .injAlign, .lsSeen, .mkDue, .mkRx, .mkTx, .msixPend,
      .nakSent, .nextKey, .ownReq, .paramGot, .paramVal, .partnerAspm, .partnerMax, .partnerReady, .partnerRest, .pcieAcked,
      .pcieRev, .pcieSent, .peerReq, .postStat, .preStat, .presetStat, .rekeying, .replayAt, .restHeld, .restPend, .restSince,
      .rxKey, .rxNum, .rxRest, .rxSeq, .rxUnacked, .skewCnt, .txCount, .txKey, .txLimit, .txNum, .txSeq, .txUsed, .wcDone,
      .wcFrom, .wcId, .wcOldWidth, .wcSet, .widening], fifos := [.elog, .faceWrote, .viWrote], parts := [.buf, .greqs, .out,
      .replay, .streams, .waiting] }

theorem linkDown_in {F : Foot} (hF : Foot.linkDown.le F = true) (p : Nat) :
    (linkDown p).In F := by
  unfold linkDown
  repeat' first
      | (with_reducible first | refine look_in fun _ => ?_)
      | ((with_reducible refine linkTo_in ?_ ..); (· exact Foot.le_trans (Foot.le_of_runs (by decide +kernel)) hF))
      | split
      | dsimp only

def Foot.linkFails : Foot :=
  { regs := onFam .sec [.SEC_IDE_STAT_DEV_AUTH, .SEC_IDE_STAT_LINK_ID, .SEC_IDE_STAT_LINK_KSET, .SEC_IDE_STAT_LINK_SECURE,
      .SEC_IDE_STAT_SEL_SECURE, .SEC_IDE_STAT_SEL_VALID, .SEC_LINK_STAT_AUTH_OK, .SEC_LINK_STAT_AUTH_STATUS,
      .SEC_LINK_STAT_PARTNER_DEBUG, .SEC_LINK_STAT_REKEY, .SEC_LINK_STAT_REKEYS] ++ onFam .guard (errFields ++ fCnt ++
      [.GUARD_ELOG_CTRL_LOST]) ++ onFam .lane [.LANE_INJ_CTRL_ONE_SHOT, .LANE_RATE_CFG_RATE_NOW, .LANE_REST_CTRL_IN_REST,
      .LANE_STAT_ALIGN_LOCK, .LANE_STAT_CDR_LOCK, .LANE_STAT_EQ_DONE, .LANE_STAT_EQ_FAIL, .LANE_STAT_EXIT_FAIL, .LANE_STAT_FAILED,
      .LANE_STAT_FEC_LOCK, .LANE_STAT_RX_READY, .LANE_STAT_STATE, .LANE_TX_TAPS_C0, .LANE_TX_TAPS_POST, .LANE_TX_TAPS_PRE] ++
      onFam .core (errFields ++ fCnt ++ [.CORE_WM_STAT_WM_CROSS_CNT, .CORE_WM_STAT_WM_EVENT, .CORE_WM_STAT_WM_LEVEL]) ++ onFam
      .bridge [.BRIDGE_FAB_NBR_PARTNER_PORT, .BRIDGE_FAB_NBR_PARTNER_SW, .BRIDGE_FAB_NBR_VALID] ++ onFam .port (errFields ++
      [.PORT_LINK_STAT_ENC, .PORT_LINK_STAT_FLIT, .PORT_LINK_STAT_KEY_PHASE, .PORT_LINK_STAT_LANES_GOOD, .PORT_LINK_STAT_RATE_NOW,
      .PORT_LINK_STAT_STATE, .PORT_LINK_STAT_WIDTH_NOW, .PORT_REPLAY_CNT_CONSEC]) ++ onFam .face (fCnt ++ [.FACE_BIND_STATE,
      .FACE_PM_STAT_LINK_PM]), cnts := [.guard, .core, .face], vars := [.alignMiss, .alignSeen, .authDebug, .authStep, .badCw,
      .crAdv, .crInit, .crUsed, .elogSeq, .eqTimeouts, .ideGo, .ideKey, .injAlign, .lsSeen, .mkDue, .mkRx, .mkTx, .msixPend,
      .nakSent, .nextKey, .ownReq, .paramGot, .paramVal, .partnerAspm, .partnerMax, .partnerReady, .partnerRest, .pcieAcked,
      .pcieRev, .pcieSent, .peerReq, .postStat, .preStat, .presetStat, .rekeying, .replayAt, .restHeld, .restPend, .restSince,
      .rxKey, .rxNum, .rxRest, .rxSeq, .rxUnacked, .skewCnt, .txCount, .txKey, .txLimit, .txNum, .txSeq, .txUsed, .wcDone,
      .wcFrom, .wcId, .wcOldWidth, .wcSet, .widening], fifos := [.elog, .faceWrote, .viWrote], parts := [.buf, .greqs, .out,
      .replay, .streams, .waiting] }

theorem linkFails_in {F : Foot} (hF : Foot.linkFails.le F = true) (p : Nat) (e : Option Err) :
    (linkFails p e).In F := by
  unfold linkFails
  repeat' first
      | (with_reducible first | exact all_nil_in | refine all_cons_in ?_ ?_ | refine look_in fun _ => ?_ | refine ite_in ?_ ?_)
      | ((with_reducible refine raiseAll_in ?_ ?_ ..); (· rfl); (· first | exact Foot.le_trans (F := Foot.error .port) (by decide +kernel) hF))
      | ((with_reducible refine linkDown_in ?_ ..); (· exact Foot.le_trans (Foot.le_of_runs (by decide +kernel)) hF))
      | split
      | dsimp only

def Foot.releaseLanes : Foot :=
  { regs := onFam .lane [.LANE_INJ_CTRL_ONE_SHOT, .LANE_OCT_STAT_A_LOCK, .LANE_OCT_STAT_B_LOCK, .LANE_RATE_CFG_MODE,
      .LANE_RATE_CFG_RATE_NOW, .LANE_REST_CTRL_IN_REST, .LANE_RX_STAT_CTLE, .LANE_RX_STAT_EYE_H, .LANE_RX_STAT_EYE_V,
      .LANE_RX_STAT_SNR, .LANE_STAT_ALIGN_LOCK, .LANE_STAT_CDR_LOCK, .LANE_STAT_EQ_DONE, .LANE_STAT_EQ_FAIL, .LANE_STAT_EXIT_FAIL,
      .LANE_STAT_FAILED, .LANE_STAT_FEC_LOCK, .LANE_STAT_LOGICAL, .LANE_STAT_RX_READY, .LANE_STAT_SIG_DET, .LANE_STAT_STATE], vars
      := [.alignMiss, .alignSeen, .badCw, .eqTimeouts, .injAlign, .ownReq, .partnerReady, .peerReq, .rxRest] }

theorem releaseLanes_in {F : Foot} (hF : Foot.releaseLanes.le F = true) (ls : List Nat) :
    (releaseLanes ls).In F := by
  unfold releaseLanes
  repeat' first
      | ((with_reducible refine forEach_wln_in hF ?_ ?_ _ _); (· decide +kernel); (· decide +kernel))
      | (with_reducible first | exact all_nil_in | refine all_cons_in ?_ ?_ | refine forEach_in fun _ => ?_)
      | ((with_reducible refine wln_in ?_ ?_ _ _); (· decide +kernel); (· exact le_regs hF (by decide +kernel)))
      | ((with_reducible refine laneOff_in ?_ ..); (· exact Foot.le_trans (Foot.le_of_runs (by decide +kernel)) hF))
      | ((with_reducible refine pllSettle_in ?_ ..); (· exact Foot.le_trans (Foot.le_of_runs (by decide +kernel)) hF))
      | split
      | dsimp only

def Foot.claimLanes : Foot :=
  { regs := onFam .guard (errFields ++ fCnt ++ [.GUARD_ELOG_CTRL_LOST]) ++ onFam .lane (errFields ++ [.LANE_INJ_CTRL_ONE_SHOT,
      .LANE_RATE_CFG_MODE, .LANE_RATE_CFG_RATE_NOW, .LANE_REST_CTRL_IN_REST, .LANE_STAT_ALIGN_LOCK, .LANE_STAT_CDR_LOCK,
      .LANE_STAT_EQ_DONE, .LANE_STAT_EQ_FAIL, .LANE_STAT_EXIT_FAIL, .LANE_STAT_FAILED, .LANE_STAT_FEC_LOCK, .LANE_STAT_LOGICAL,
      .LANE_STAT_RX_READY, .LANE_STAT_STATE, .LANE_TX_TAPS_C0, .LANE_TX_TAPS_POST, .LANE_TX_TAPS_PRE]) ++ onFam .face fCnt, cnts
      := [.guard, .face], vars := [.alignMiss, .alignSeen, .badCw, .elogSeq, .eqTimeouts, .injAlign, .laneNum, .msixPend, .ownReq,
      .partnerReady, .peerReq, .postStat, .preStat, .presetStat, .rxRest], fifos := [.elog, .faceWrote, .viWrote], parts :=
      [.greqs, .out] }

theorem claimLanes_in {F : Foot} (hF : Foot.claimLanes.le F = true) (p mode : Nat) (ls : List Nat) :
    (claimLanes p mode ls).In F := by
  unfold claimLanes
  repeat' first
      | (with_reducible first | exact all_nil_in | refine all_cons_in ?_ ?_ | refine look_in fun _ => ?_ | refine when_in ?_ | refine ite_in ?_ ?_ | refine forEach_in fun _ => ?_)
      | ((with_reducible refine put_in ?_); (· exact le_vars hF (by decide +kernel)))
      | ((with_reducible refine wln_in ?_ ?_ _ _); (· decide +kernel); (· exact le_regs hF (by decide +kernel)))
      | ((with_reducible refine raise_in ?_ ?_ ..); (· rfl); (· first | exact Foot.le_trans (F := Foot.error .lane) (by decide +kernel) hF))
      | ((with_reducible refine laneTrain_in ?_ ..); (· exact Foot.le_trans (Foot.le_of_runs (by decide +kernel)) hF))
      | split
      | dsimp only

def Foot.portReset : Foot :=
  { regs := onFam .sec [.SEC_IDE_STAT_DEV_AUTH, .SEC_IDE_STAT_FAIL, .SEC_IDE_STAT_LINK_ID, .SEC_IDE_STAT_LINK_KSET,
      .SEC_IDE_STAT_LINK_SECURE, .SEC_IDE_STAT_SEL_SECURE, .SEC_IDE_STAT_SEL_VALID, .SEC_LINK_STAT_AUTH_OK,
      .SEC_LINK_STAT_AUTH_STATUS, .SEC_LINK_STAT_PARTNER_DEBUG, .SEC_LINK_STAT_REKEY, .SEC_LINK_STAT_REKEYS] ++ onFam .guard
      (errFields ++ fCnt ++ [.GUARD_ELOG_CTRL_LOST]) ++ onFam .lane [.LANE_INJ_CTRL_ONE_SHOT, .LANE_RATE_CFG_RATE_NOW,
      .LANE_REST_CTRL_IN_REST, .LANE_STAT_ALIGN_LOCK, .LANE_STAT_CDR_LOCK, .LANE_STAT_EQ_DONE, .LANE_STAT_EQ_FAIL,
      .LANE_STAT_EXIT_FAIL, .LANE_STAT_FAILED, .LANE_STAT_FEC_LOCK, .LANE_STAT_RX_READY, .LANE_STAT_STATE, .LANE_TX_TAPS_C0,
      .LANE_TX_TAPS_POST, .LANE_TX_TAPS_PRE] ++ onFam .core (errFields ++ fCnt ++ [.CORE_WM_STAT_WM_CROSS_CNT,
      .CORE_WM_STAT_WM_EVENT, .CORE_WM_STAT_WM_LEVEL]) ++ onFam .bridge [.BRIDGE_FAB_NBR_MISWIRED, .BRIDGE_FAB_NBR_PARTNER_PORT,
      .BRIDGE_FAB_NBR_PARTNER_SW, .BRIDGE_FAB_NBR_VALID, .BRIDGE_LOCK_STAT_HOLDER, .BRIDGE_LOCK_STAT_LOCKED] ++ onFam .port
      [.BLK_CTRL_SOFT_RESET, .CNT_CLR_CLR, .CNT_HI_HIGH, .CNT_LO_LOW, .PORT_CFG_APPLY, .PORT_CONTAIN_CONTAIN,
      .PORT_CONTAIN_RELEASE, .PORT_LINK_CTRL_LINK_RETIRE, .PORT_LINK_CTRL_RETRAIN, .PORT_LINK_STAT_ABSENT, .PORT_LINK_STAT_ENC,
      .PORT_LINK_STAT_FLIT, .PORT_LINK_STAT_KEY_PHASE, .PORT_LINK_STAT_LANES_GOOD, .PORT_LINK_STAT_RATE_NOW,
      .PORT_LINK_STAT_STATE, .PORT_LINK_STAT_WIDTH_NOW, .PORT_REPLAY_CNT_CONSEC] ++ onFam .face (fCnt ++ [.FACE_BIND_STATE,
      .FACE_PM_STAT_LINK_PM]), cnts := [.guard, .core, .face], vars := [.alignMiss, .alignSeen, .authDebug, .authStep, .badCw,
      .crAdv, .crInit, .crUsed, .curSet, .elogSeq, .eqTimeouts, .ideGo, .ideKey, .injAlign, .lsSeen, .mkDue, .mkRx, .mkTx,
      .msixPend, .nakSent, .nextKey, .ownReq, .paramGot, .paramVal, .partnerAspm, .partnerMax, .partnerReady, .partnerRest,
      .pcieAcked, .pcieRev, .pcieSent, .peerReq, .postStat, .preStat, .presetStat, .rekeying, .replayAt, .restHeld, .restPend,
      .restSince, .rxKey, .rxNum, .rxRest, .rxSeq, .rxUnacked, .skewCnt, .txCount, .txKey, .txLimit, .txNum, .txSeq, .txUsed,
      .wcDone, .wcFrom, .wcId, .wcOldWidth, .wcSet, .widening], fifos := [.elog, .faceWrote, .viWrote], parts := [.buf, .greqs,
      .out, .replay, .streams, .waiting] }

theorem portReset_in {F : Foot} (hF : Foot.portReset.le F = true) (p : Nat) :
    (portReset p).In F := by
  unfold portReset
  repeat' first
      | (with_reducible first | exact all_nil_in | refine all_cons_in ?_ ?_)
      | ((with_reducible refine put_in ?_); (· exact le_vars hF (by decide +kernel)))
      | ((with_reducible refine wr_in ?_ ?_); (· first | exact own_mem (show _ ∈ tabBRIDGE4 by decide +kernel) | exact own_mem (show _ ∈ tabBRIDGE1 by decide +kernel) | exact hdr_mem rfl (by decide +kernel) | exact own_mem (show _ ∈ tabPORT by decide +kernel) | exact own_mem (show _ ∈ tabSEC1 by decide +kernel)); (· first | exact le_regs hF (show (Fam.bridge, _) ∈ _ by decide +kernel) | exact le_regs hF (show (Fam.port, _) ∈ _ by decide +kernel) | exact le_regs hF (show (Fam.sec, _) ∈ _ by decide +kernel)))
      | ((with_reducible refine resetPage_in ?_); (· first | exact fun f m hk => le_regs (x := (Fam.port, f)) hF ((show ∀ f ∈ (tabHDR ++ tabPORT), f.kept.testBit (Rst.bit .port) = false → (Fam.port, f) ∈ Foot.portReset.regs by decide +kernel) f m hk)))
      | ((with_reducible refine egressDiscard_in ?_ ..); (· exact Foot.le_trans (Foot.le_of_runs (by decide +kernel)) hF))
      | ((with_reducible refine linkDown_in ?_ ..); (· exact Foot.le_trans (Foot.le_of_runs (by decide +kernel)) hF))
      | ((with_reducible refine resetPage_in ?_ ..); (· exact Foot.le_trans (Foot.le_of_runs (by decide +kernel)) hF))
      | split
      | dsimp only

def Foot.portOff : Foot :=
  { regs := onFam .sec [.SEC_IDE_STAT_DEV_AUTH, .SEC_IDE_STAT_FAIL, .SEC_IDE_STAT_LINK_ID, .SEC_IDE_STAT_LINK_KSET,
      .SEC_IDE_STAT_LINK_SECURE, .SEC_IDE_STAT_SEL_SECURE, .SEC_IDE_STAT_SEL_VALID, .SEC_LINK_STAT_AUTH_OK,
      .SEC_LINK_STAT_AUTH_STATUS, .SEC_LINK_STAT_PARTNER_DEBUG, .SEC_LINK_STAT_REKEY, .SEC_LINK_STAT_REKEYS] ++ onFam .guard
      (errFields ++ fCnt ++ [.GUARD_ELOG_CTRL_LOST]) ++ onFam .lane [.LANE_INJ_CTRL_ONE_SHOT, .LANE_OCT_STAT_A_LOCK,
      .LANE_OCT_STAT_B_LOCK, .LANE_RATE_CFG_MODE, .LANE_RATE_CFG_RATE_NOW, .LANE_REST_CTRL_IN_REST, .LANE_RX_STAT_CTLE,
      .LANE_RX_STAT_EYE_H, .LANE_RX_STAT_EYE_V, .LANE_RX_STAT_SNR, .LANE_STAT_ALIGN_LOCK, .LANE_STAT_CDR_LOCK, .LANE_STAT_EQ_DONE,
      .LANE_STAT_EQ_FAIL, .LANE_STAT_EXIT_FAIL, .LANE_STAT_FAILED, .LANE_STAT_FEC_LOCK, .LANE_STAT_LOGICAL, .LANE_STAT_RX_READY,
      .LANE_STAT_SIG_DET, .LANE_STAT_STATE, .LANE_TX_TAPS_C0, .LANE_TX_TAPS_POST, .LANE_TX_TAPS_PRE] ++ onFam .core (errFields ++
      fCnt ++ [.CORE_WM_STAT_WM_CROSS_CNT, .CORE_WM_STAT_WM_EVENT, .CORE_WM_STAT_WM_LEVEL]) ++ onFam .bridge
      [.BRIDGE_FAB_NBR_MISWIRED, .BRIDGE_FAB_NBR_PARTNER_PORT, .BRIDGE_FAB_NBR_PARTNER_SW, .BRIDGE_FAB_NBR_VALID,
      .BRIDGE_LOCK_STAT_HOLDER, .BRIDGE_LOCK_STAT_LOCKED] ++ onFam .port [.BLK_CTRL_SOFT_RESET, .CNT_CLR_CLR, .CNT_HI_HIGH,
      .CNT_LO_LOW, .PORT_CFG_APPLY, .PORT_CFG_ROLE, .PORT_CONTAIN_CONTAIN, .PORT_CONTAIN_RELEASE, .PORT_LINK_CTRL_LINK_RETIRE,
      .PORT_LINK_CTRL_RETRAIN, .PORT_LINK_STAT_ABSENT, .PORT_LINK_STAT_ENC, .PORT_LINK_STAT_FLIT, .PORT_LINK_STAT_KEY_PHASE,
      .PORT_LINK_STAT_LANES_GOOD, .PORT_LINK_STAT_RATE_NOW, .PORT_LINK_STAT_STATE, .PORT_LINK_STAT_WIDTH_NOW,
      .PORT_REPLAY_CNT_CONSEC] ++ onFam .face (fCnt ++ [.FACE_BIND_STATE, .FACE_PM_STAT_LINK_PM]), cnts := [.guard, .core, .face],
      vars := [.alignMiss, .alignSeen, .authDebug, .authStep, .badCw, .crAdv, .crInit, .crUsed, .curSet, .elogSeq, .eqTimeouts,
      .ideGo, .ideKey, .injAlign, .lsSeen, .mkDue, .mkRx, .mkTx, .msixPend, .nakSent, .nextKey, .ownReq, .paramGot, .paramVal,
      .partnerAspm, .partnerMax, .partnerReady, .partnerRest, .pcieAcked, .pcieRev, .pcieSent, .peerReq, .postStat, .preStat,
      .presetStat, .rekeying, .replayAt, .restHeld, .restPend, .restSince, .rxKey, .rxNum, .rxRest, .rxSeq, .rxUnacked, .skewCnt,
      .txCount, .txKey, .txLimit, .txNum, .txSeq, .txUsed, .wcDone, .wcFrom, .wcId, .wcOldWidth, .wcSet, .widening], fifos :=
      [.elog, .faceWrote, .viWrote], parts := [.buf, .greqs, .out, .replay, .streams, .waiting] }

theorem portOff_in {F : Foot} (hF : Foot.portOff.le F = true) (p : Nat) :
    (portOff p).In F := by
  unfold portOff
  repeat' first
      | (with_reducible first | exact all_nil_in | refine all_cons_in ?_ ?_ | refine look_in fun _ => ?_ | refine when_in ?_)
      | ((with_reducible refine wr_in ?_ ?_); (· first | exact own_mem (show _ ∈ tabPORT by decide +kernel)); (· first | exact le_regs hF (show (Fam.port, _) ∈ _ by decide +kernel)))
      | ((with_reducible refine coreWatch_in ?_ ..); (· exact Foot.le_trans (Foot.le_of_runs (by decide +kernel)) hF))
      | ((with_reducible refine portReset_in ?_ ..); (· exact Foot.le_trans (Foot.le_of_runs (by decide +kernel)) hF))
      | ((with_reducible refine releaseLanes_in ?_ ..); (· exact Foot.le_trans (Foot.le_of_runs (by decide +kernel)) hF))
      | split
      | dsimp only

def Foot.startWidthChange : Foot :=
  { regs := onFam .port [.PORT_LINK_STAT_STATE], vars := [.wcCount, .wcFrom, .wcId, .wcSet], parts := [.coders, .out] }

theorem startWidthChange_in {F : Foot} (hF : Foot.startWidthChange.le F = true) (p set : Nat) :
    (startWidthChange p set).In F := by
  unfold startWidthChange
  repeat' first
      | (with_reducible first | exact all_nil_in | refine all_cons_in ?_ ?_ | refine look_in fun _ => ?_ | refine when_in ?_)
      | ((with_reducible refine put_in ?_); (· exact le_vars hF (by decide +kernel)))
      | ((with_reducible refine wr_in ?_ ?_); (· first | exact own_mem (show _ ∈ tabPORT by decide +kernel)); (· first | exact le_regs hF (show (Fam.port, _) ∈ _ by decide +kernel)))
      | ((with_reducible refine sendLanemap_in ?_ ..); (· exact Foot.le_trans (Foot.le_of_runs (by decide +kernel)) hF))
      | split
      | dsimp only

def Foot.useSet : Foot :=
  { regs := onFam .port [.PORT_LINK_STAT_LANES_GOOD, .PORT_LINK_STAT_WIDTH_NOW] }

theorem useSet_in {F : Foot} (hF : Foot.useSet.le F = true) (p set : Nat) :
    (useSet p set).In F := by
  unfold useSet
  repeat' first
      | (with_reducible first | exact all_nil_in | refine all_cons_in ?_ ?_)
      | ((with_reducible refine wr_in ?_ ?_); (· first | exact own_mem (show _ ∈ tabPORT by decide +kernel)); (· first | exact le_regs hF (show (Fam.port, _) ∈ _ by decide +kernel)))
      | split
      | dsimp only

def Foot.finishWidthChange : Foot :=
  { regs := onFam .sec [.SEC_IDE_STAT_DEV_AUTH, .SEC_IDE_STAT_LINK_ID, .SEC_IDE_STAT_LINK_KSET, .SEC_IDE_STAT_LINK_SECURE,
      .SEC_IDE_STAT_SEL_SECURE, .SEC_IDE_STAT_SEL_VALID, .SEC_LINK_STAT_AUTH_OK, .SEC_LINK_STAT_AUTH_STATUS,
      .SEC_LINK_STAT_PARTNER_DEBUG, .SEC_LINK_STAT_REKEY, .SEC_LINK_STAT_REKEYS] ++ onFam .guard (errFields ++ fCnt ++
      [.GUARD_ELOG_CTRL_LOST]) ++ onFam .lane [.LANE_INJ_CTRL_ONE_SHOT, .LANE_OCT_STAT_A_LOCK, .LANE_OCT_STAT_B_LOCK,
      .LANE_RATE_CFG_MODE, .LANE_RATE_CFG_RATE_NOW, .LANE_REST_CTRL_IN_REST, .LANE_RX_STAT_CTLE, .LANE_RX_STAT_EYE_H,
      .LANE_RX_STAT_EYE_V, .LANE_RX_STAT_SNR, .LANE_STAT_ALIGN_LOCK, .LANE_STAT_CDR_LOCK, .LANE_STAT_EQ_DONE, .LANE_STAT_EQ_FAIL,
      .LANE_STAT_EXIT_FAIL, .LANE_STAT_FAILED, .LANE_STAT_FEC_LOCK, .LANE_STAT_LOGICAL, .LANE_STAT_RX_READY, .LANE_STAT_SIG_DET,
      .LANE_STAT_STATE, .LANE_TX_TAPS_C0, .LANE_TX_TAPS_POST, .LANE_TX_TAPS_PRE] ++ onFam .core (errFields ++ fCnt ++
      [.CORE_WM_STAT_WM_CROSS_CNT, .CORE_WM_STAT_WM_EVENT, .CORE_WM_STAT_WM_LEVEL]) ++ onFam .bridge
      [.BRIDGE_FAB_NBR_PARTNER_PORT, .BRIDGE_FAB_NBR_PARTNER_SW, .BRIDGE_FAB_NBR_VALID] ++ onFam .port (errFields ++ fCnt ++
      [.PORT_LINK_STAT_ENC, .PORT_LINK_STAT_FLIT, .PORT_LINK_STAT_KEY_PHASE, .PORT_LINK_STAT_LANES_GOOD, .PORT_LINK_STAT_RATE_NOW,
      .PORT_LINK_STAT_STATE, .PORT_LINK_STAT_WIDTH_NOW, .PORT_REPLAY_CNT_CONSEC]) ++ onFam .face (fCnt ++ [.FACE_BIND_STATE,
      .FACE_PM_STAT_LINK_PM]), cnts := [.guard, .core, .port, .face], vars := [.alignMiss, .alignSeen, .alignTx, .authDebug,
      .authStep, .badCw, .crAdv, .crInit, .crUsed, .curSet, .elogSeq, .eqTimeouts, .ideGo, .ideKey, .injAlign, .lsSeen, .mkDue,
      .mkRx, .mkTx, .msixPend, .nakSent, .nextKey, .ownReq, .paramGot, .paramVal, .partnerAspm, .partnerMax, .partnerReady,
      .partnerRest, .pcieAcked, .pcieRev, .pcieSent, .peerReq, .postStat, .preStat, .presetStat, .rekeying, .replayAt, .restHeld,
      .restPend, .restSince, .rxKey, .rxNum, .rxRest, .rxSeq, .rxUnacked, .skewCnt, .txCount, .txKey, .txLimit, .txNum, .txSeq,
      .txUsed, .wcDone, .wcFrom, .wcId, .wcOldWidth, .wcSet, .widening], fifos := [.elog, .faceWrote, .viWrote], parts := [.buf,
      .coders, .greqs, .out, .replay, .streams, .waiting] }

theorem finishWidthChange_in {F : Foot} (hF : Foot.finishWidthChange.le F = true) (p set id : Nat) :
    (finishWidthChange p set id).In F := by
  unfold finishWidthChange
  repeat' first
      | ((with_reducible refine forEach_put_in hF ?_ _ _); (· decide +kernel))
      | (with_reducible first | exact all_nil_in | refine all_cons_in ?_ ?_ | refine look_in fun _ => ?_ | refine when_in ?_ | refine ite_in ?_ ?_ | refine forEach_in fun _ => ?_)
      | ((with_reducible refine put_in ?_); (· exact le_vars hF (by decide +kernel)))
      | ((with_reducible refine wr_in ?_ ?_); (· first | exact hdr_mem rfl (by decide +kernel) | exact own_mem (show _ ∈ tabGUARD0 by decide +kernel) | exact own_mem (show _ ∈ tabLANE by decide +kernel) | exact own_mem (show _ ∈ tabPORT by decide +kernel)); (· first | exact le_regs hF (show (Fam.face, _) ∈ _ by decide +kernel) | exact le_regs hF (show (Fam.guard, _) ∈ _ by decide +kernel) | exact le_regs hF (show (Fam.lane, _) ∈ _ by decide +kernel) | exact le_regs hF (show (Fam.port, _) ∈ _ by decide +kernel)))
      | ((with_reducible refine wln_in ?_ ?_ _ _); (· decide +kernel); (· exact le_regs hF (by decide +kernel)))
      | ((with_reducible refine bump_in ?_ ?_ ..); (· rfl); (· first | exact Foot.le_trans (F := Foot.counting .port) (by decide +kernel) hF))
      | ((with_reducible refine raise_in ?_ ?_ ..); (· rfl); (· first | exact Foot.le_trans (F := Foot.error .port) (by decide +kernel) hF))
      | ((with_reducible refine laneOff_in ?_ ..); (· exact Foot.le_trans (Foot.le_of_runs (by decide +kernel)) hF))
      | ((with_reducible refine linkFails_in ?_ ..); (· exact Foot.le_trans (Foot.le_of_runs (by decide +kernel)) hF))
      | ((with_reducible refine releaseLanes_in ?_ ..); (· exact Foot.le_trans (Foot.le_of_runs (by decide +kernel)) hF))
      | ((with_reducible refine sendAlign_in ?_ ..); (· exact Foot.le_trans (Foot.le_of_runs (by decide +kernel)) hF))
      | ((with_reducible refine useSet_in ?_ ..); (· exact Foot.le_trans (Foot.le_of_runs (by decide +kernel)) hF))
      | split
      | dsimp only

def Foot.narrowPort : Foot :=
  { regs := onFam .sec [.SEC_IDE_STAT_DEV_AUTH, .SEC_IDE_STAT_LINK_ID, .SEC_IDE_STAT_LINK_KSET, .SEC_IDE_STAT_LINK_SECURE,
      .SEC_IDE_STAT_SEL_SECURE, .SEC_IDE_STAT_SEL_VALID, .SEC_LINK_STAT_AUTH_OK, .SEC_LINK_STAT_AUTH_STATUS,
      .SEC_LINK_STAT_PARTNER_DEBUG, .SEC_LINK_STAT_REKEY, .SEC_LINK_STAT_REKEYS] ++ onFam .guard (errFields ++ fCnt ++
      [.GUARD_ELOG_CTRL_LOST]) ++ onFam .lane [.LANE_INJ_CTRL_ONE_SHOT, .LANE_RATE_CFG_RATE_NOW, .LANE_REST_CTRL_IN_REST,
      .LANE_STAT_ALIGN_LOCK, .LANE_STAT_CDR_LOCK, .LANE_STAT_EQ_DONE, .LANE_STAT_EQ_FAIL, .LANE_STAT_EXIT_FAIL, .LANE_STAT_FAILED,
      .LANE_STAT_FEC_LOCK, .LANE_STAT_RX_READY, .LANE_STAT_STATE, .LANE_TX_TAPS_C0, .LANE_TX_TAPS_POST, .LANE_TX_TAPS_PRE] ++
      onFam .core (errFields ++ fCnt ++ [.CORE_WM_STAT_WM_CROSS_CNT, .CORE_WM_STAT_WM_EVENT, .CORE_WM_STAT_WM_LEVEL]) ++ onFam
      .bridge [.BRIDGE_FAB_NBR_PARTNER_PORT, .BRIDGE_FAB_NBR_PARTNER_SW, .BRIDGE_FAB_NBR_VALID] ++ onFam .port (errFields ++
      [.PORT_LINK_STAT_ENC, .PORT_LINK_STAT_FLIT, .PORT_LINK_STAT_KEY_PHASE, .PORT_LINK_STAT_LANES_GOOD, .PORT_LINK_STAT_RATE_NOW,
      .PORT_LINK_STAT_STATE, .PORT_LINK_STAT_WIDTH_NOW, .PORT_REPLAY_CNT_CONSEC]) ++ onFam .face (fCnt ++ [.FACE_BIND_STATE,
      .FACE_PM_STAT_LINK_PM]), cnts := [.guard, .core, .face], vars := [.alignMiss, .alignSeen, .authDebug, .authStep, .badCw,
      .crAdv, .crInit, .crUsed, .elogSeq, .eqTimeouts, .ideGo, .ideKey, .injAlign, .lsSeen, .mkDue, .mkRx, .mkTx, .msixPend,
      .nakSent, .nextKey, .ownReq, .paramGot, .paramVal, .partnerAspm, .partnerMax, .partnerReady, .partnerRest, .pcieAcked,
      .pcieRev, .pcieSent, .peerReq, .postStat, .preStat, .presetStat, .rekeying, .replayAt, .restHeld, .restPend, .restSince,
      .rxKey, .rxNum, .rxRest, .rxSeq, .rxUnacked, .skewCnt, .txCount, .txKey, .txLimit, .txNum, .txSeq, .txUsed, .wcCount,
      .wcDone, .wcFrom, .wcId, .wcOldWidth, .wcSet, .widening], fifos := [.elog, .faceWrote, .viWrote], parts := [.buf, .coders,
      .greqs, .out, .replay, .streams, .waiting] }

theorem narrowPort_in {F : Foot} (hF : Foot.narrowPort.le F = true) (p l : Nat) :
    (narrowPort p l).In F := by
  unfold narrowPort
  repeat' first
      | (with_reducible first | refine look_in fun _ => ?_ | refine when_in ?_ | refine ite_in ?_ ?_)
      | ((with_reducible refine wr_in ?_ ?_); (· first | exact own_mem (show _ ∈ tabPORT by decide +kernel)); (· first | exact le_regs hF (show (Fam.port, _) ∈ _ by decide +kernel)))
      | ((with_reducible refine linkFails_in ?_ ..); (· exact Foot.le_trans (Foot.le_of_runs (by decide +kernel)) hF))
      | ((with_reducible refine startWidthChange_in ?_ ..); (· exact Foot.le_trans (Foot.le_of_runs (by decide +kernel)) hF))
      | split
      | dsimp only

def Foot.portCfgWrite : Foot :=
  { regs := onFam .sec [.SEC_IDE_STAT_DEV_AUTH, .SEC_IDE_STAT_FAIL, .SEC_IDE_STAT_LINK_ID, .SEC_IDE_STAT_LINK_KSET,
      .SEC_IDE_STAT_LINK_SECURE, .SEC_IDE_STAT_SEL_SECURE, .SEC_IDE_STAT_SEL_VALID, .SEC_LINK_STAT_AUTH_OK,
      .SEC_LINK_STAT_AUTH_STATUS, .SEC_LINK_STAT_PARTNER_DEBUG, .SEC_LINK_STAT_REKEY, .SEC_LINK_STAT_REKEYS] ++ onFam .guard
      (errFields ++ fCnt ++ [.GUARD_ELOG_CTRL_LOST]) ++ onFam .lane (errFields ++ [.LANE_INJ_CTRL_ONE_SHOT, .LANE_OCT_STAT_A_LOCK,
      .LANE_OCT_STAT_B_LOCK, .LANE_RATE_CFG_MODE, .LANE_RATE_CFG_RATE_NOW, .LANE_REST_CTRL_IN_REST, .LANE_RX_STAT_CTLE,
      .LANE_RX_STAT_EYE_H, .LANE_RX_STAT_EYE_V, .LANE_RX_STAT_SNR, .LANE_STAT_ALIGN_LOCK, .LANE_STAT_CDR_LOCK, .LANE_STAT_EQ_DONE,
      .LANE_STAT_EQ_FAIL, .LANE_STAT_EXIT_FAIL, .LANE_STAT_FAILED, .LANE_STAT_FEC_LOCK, .LANE_STAT_LOGICAL, .LANE_STAT_RX_READY,
      .LANE_STAT_SIG_DET, .LANE_STAT_STATE, .LANE_TX_TAPS_C0, .LANE_TX_TAPS_POST, .LANE_TX_TAPS_PRE]) ++ onFam .core (errFields ++
      fCnt ++ [.CORE_WM_STAT_WM_CROSS_CNT, .CORE_WM_STAT_WM_EVENT, .CORE_WM_STAT_WM_LEVEL]) ++ onFam .bridge
      [.BRIDGE_FAB_NBR_MISWIRED, .BRIDGE_FAB_NBR_PARTNER_PORT, .BRIDGE_FAB_NBR_PARTNER_SW, .BRIDGE_FAB_NBR_VALID,
      .BRIDGE_LOCK_STAT_HOLDER, .BRIDGE_LOCK_STAT_LOCKED] ++ onFam .port (errFields ++ [.BLK_CTRL_SOFT_RESET, .CNT_CLR_CLR,
      .CNT_HI_HIGH, .CNT_LO_LOW, .PORT_CFG_APPLY, .PORT_CFG_CYC_RX, .PORT_CFG_CYC_TX, .PORT_CFG_ENC_REQ, .PORT_CFG_FLIT_BELOW,
      .PORT_CFG_MIN_WIDTH, .PORT_CFG_REFUSED, .PORT_CFG_ROLE, .PORT_CFG_SEP_REF, .PORT_CFG_WIDTH, .PORT_CONTAIN_CONTAIN,
      .PORT_CONTAIN_RELEASE, .PORT_LINK_CTRL_LINK_RETIRE, .PORT_LINK_CTRL_RETRAIN, .PORT_LINK_STAT_ABSENT, .PORT_LINK_STAT_ENC,
      .PORT_LINK_STAT_FLIT, .PORT_LINK_STAT_KEY_PHASE, .PORT_LINK_STAT_LANES_GOOD, .PORT_LINK_STAT_RATE_NOW,
      .PORT_LINK_STAT_STATE, .PORT_LINK_STAT_WIDTH_NOW, .PORT_REPLAY_CNT_CONSEC]) ++ onFam .face (fCnt ++ [.FACE_BIND_STATE,
      .FACE_PM_STAT_LINK_PM]), cnts := [.guard, .core, .face], vars := [.alignMiss, .alignSeen, .authDebug, .authStep, .badCw,
      .crAdv, .crInit, .crUsed, .curSet, .elogSeq, .eqTimeouts, .ideGo, .ideKey, .injAlign, .laneNum, .lsSeen, .mkDue, .mkRx,
      .mkTx, .msixPend, .nakSent, .nextKey, .ownReq, .paramGot, .paramVal, .partnerAspm, .partnerMax, .partnerReady, .partnerRest,
      .pcieAcked, .pcieRev, .pcieSent, .peerReq, .postStat, .preStat, .presetStat, .rekeying, .replayAt, .restHeld, .restPend,
      .restSince, .rxKey, .rxNum, .rxRest, .rxSeq, .rxUnacked, .skewCnt, .txCount, .txKey, .txLimit, .txNum, .txSeq, .txUsed,
      .wcCount, .wcDone, .wcFrom, .wcId, .wcOldWidth, .wcSet, .widening], fifos := [.elog, .faceWrote, .viWrote], parts := [.buf,
      .coders, .greqs, .out, .replay, .streams, .waiting] }

theorem portCfgWrite_in {F : Foot} (hF : Foot.portCfgWrite.le F = true) (st : Stamp) (p v : Nat) :
    (portCfgWrite st p v).In F := by
  unfold portCfgWrite
  repeat' first
      | (with_reducible first | exact skip_in | exact all_nil_in | refine all_cons_in ?_ ?_ | refine look_in fun _ => ?_ | refine when_in ?_ | refine ite_in ?_ ?_)
      | ((with_reducible refine put_in ?_); (· exact le_vars hF (by decide +kernel)))
      | ((with_reducible refine wr_in ?_ ?_); (· first | exact hdr_mem rfl (by decide +kernel) | exact own_mem (show _ ∈ tabGUARD0 by decide +kernel) | exact own_mem (show _ ∈ tabPORT by decide +kernel)); (· first | exact le_regs hF (show (Fam.core, _) ∈ _ by decide +kernel) | exact le_regs hF (show (Fam.face, _) ∈ _ by decide +kernel) | exact le_regs hF (show (Fam.guard, _) ∈ _ by decide +kernel) | exact le_regs hF (show (Fam.port, _) ∈ _ by decide +kernel)))
      | ((with_reducible refine raise_in ?_ ?_ ..); (· rfl); (· first | exact Foot.le_trans (F := Foot.error .port) (by decide +kernel) hF | exact Foot.le_trans (F := Foot.error .core) (by decide +kernel) hF))
      | ((with_reducible refine plainWrite_in ?_ _ _); (· first | exact fun fi m => le_regs hF ((show ∀ fi ∈ atOff (tabHDR ++ tabPORT) 0x100, (Fam.port, fi.1) ∈ Foot.portCfgWrite.regs by decide +kernel) fi m)))
      | ((with_reducible refine claimLanes_in ?_ ..); (· exact Foot.le_trans (Foot.le_of_runs (by decide +kernel)) hF))
      | ((with_reducible refine coreWatch_in ?_ ..); (· exact Foot.le_trans (Foot.le_of_runs (by decide +kernel)) hF))
      | ((with_reducible refine portReset_in ?_ ..); (· exact Foot.le_trans (Foot.le_of_runs (by decide +kernel)) hF))
      | ((with_reducible refine releaseLanes_in ?_ ..); (· exact Foot.le_trans (Foot.le_of_runs (by decide +kernel)) hF))
      | ((with_reducible refine startWidthChange_in ?_ ..); (· exact Foot.le_trans (Foot.le_of_runs (by decide +kernel)) hF))
      | split
      | dsimp only

def Foot.prbsCtrlWrite : Foot :=
  { regs := onFam .guard (errFields ++ fCnt ++ [.GUARD_ELOG_CTRL_LOST]) ++ onFam .lane (errFields ++ [.LANE_OCT_STAT_A_LOCK,
      .LANE_OCT_STAT_B_LOCK, .LANE_PRBS_CTRL_CHK_EN, .LANE_PRBS_CTRL_CHK_LOCK, .LANE_PRBS_CTRL_CHK_MODE, .LANE_PRBS_CTRL_GEN_EN,
      .LANE_PRBS_CTRL_LOOPBACK, .LANE_PRBS_CTRL_PATTERN, .LANE_PRBS_CTRL_TEST_RATE, .LANE_RATE_CFG_RATE_NOW, .LANE_STAT_STATE]) ++
      onFam .face fCnt, cnts := [.guard, .lane, .face], vars := [.elogSeq, .msixPend], fifos := [.elog, .faceWrote, .viWrote],
      parts := [.greqs, .out] }

theorem prbsCtrlWrite_in {F : Foot} (hF : Foot.prbsCtrlWrite.le F = true) (st : Stamp) (l v : Nat) :
    (prbsCtrlWrite st l v).In F := by
  unfold prbsCtrlWrite
  repeat' first
      | (with_reducible first | exact all_nil_in | refine all_cons_in ?_ ?_ | refine look_in fun _ => ?_ | refine when_in ?_ | refine ite_in ?_ ?_)
      | ((with_reducible refine clearCnts_in ?_); (· first | exact le_cnts (x := Fam.face) hF (by decide +kernel) | exact le_cnts (x := Fam.guard) hF (by decide +kernel) | exact le_cnts (x := Fam.lane) hF (by decide +kernel)))
      | ((with_reducible refine wln_in ?_ ?_ _ _); (· decide +kernel); (· exact le_regs hF (by decide +kernel)))
      | ((with_reducible refine raise_in ?_ ?_ ..); (· rfl); (· first | exact Foot.le_trans (F := Foot.error .lane) (by decide +kernel) hF))
      | ((with_reducible refine plainWrite_in ?_ _ _); (· first | exact fun fi m => le_regs hF ((show ∀ k < 8, ∀ fi ∈ atOff (tabHDR ++ tabLANE) (0x400 + k * 0x80 + 0x10), (Fam.lane, fi.1) ∈ Foot.prbsCtrlWrite.regs by decide +kernel) (l % 8) (Nat.mod_lt _ (by decide)) fi m)))
      | ((with_reducible refine pllSettle_in ?_ ..); (· exact Foot.le_trans (Foot.le_of_runs (by decide +kernel)) hF))
      | split
      | dsimp only

def Foot.slipWrite : Foot :=
  { regs := onFam .guard (errFields ++ fCnt ++ [.GUARD_ELOG_CTRL_LOST]) ++ onFam .lane (errFields ++ [.LANE_SLIP_DONE]) ++ onFam
      .face fCnt, cnts := [.guard, .face], vars := [.elogSeq, .msixPend, .slipPos], fifos := [.elog, .faceWrote, .viWrote], parts
      := [.greqs, .out] }

theorem slipWrite_in {F : Foot} (hF : Foot.slipWrite.le F = true) (l v : Nat) :
    (slipWrite l v).In F := by
  unfold slipWrite
  repeat' first
      | (with_reducible first | exact all_nil_in | refine all_cons_in ?_ ?_ | refine look_in fun _ => ?_ | refine ite_in ?_ ?_)
      | ((with_reducible refine put_in ?_); (· exact le_vars hF (by decide +kernel)))
      | ((with_reducible refine emit_in ?_); (· exact le_parts hF (by decide +kernel)))
      | ((with_reducible refine wln_in ?_ ?_ _ _); (· decide +kernel); (· exact le_regs hF (by decide +kernel)))
      | ((with_reducible refine raise_in ?_ ?_ ..); (· rfl); (· first | exact Foot.le_trans (F := Foot.error .lane) (by decide +kernel) hF))
      | split
      | dsimp only

def Foot.octCfgWrite : Foot :=
  { regs := onFam .sec [.SEC_IDE_STAT_DEV_AUTH, .SEC_IDE_STAT_LINK_ID, .SEC_IDE_STAT_LINK_KSET, .SEC_IDE_STAT_LINK_SECURE,
      .SEC_IDE_STAT_SEL_SECURE, .SEC_IDE_STAT_SEL_VALID, .SEC_LINK_STAT_AUTH_OK, .SEC_LINK_STAT_AUTH_STATUS,
      .SEC_LINK_STAT_PARTNER_DEBUG, .SEC_LINK_STAT_REKEY, .SEC_LINK_STAT_REKEYS] ++ onFam .guard (errFields ++ fCnt ++
      [.GUARD_ELOG_CTRL_LOST]) ++ onFam .lane [.LANE_INJ_CTRL_ONE_SHOT, .LANE_OCT_CFG_B_RATE, .LANE_OCT_STAT_B_LOCK,
      .LANE_RATE_CFG_RATE_NOW, .LANE_REST_CTRL_IN_REST, .LANE_STAT_ALIGN_LOCK, .LANE_STAT_CDR_LOCK, .LANE_STAT_EQ_DONE,
      .LANE_STAT_EQ_FAIL, .LANE_STAT_EXIT_FAIL, .LANE_STAT_FAILED, .LANE_STAT_FEC_LOCK, .LANE_STAT_RX_READY, .LANE_STAT_STATE,
      .LANE_TX_TAPS_C0, .LANE_TX_TAPS_POST, .LANE_TX_TAPS_PRE] ++ onFam .core (errFields ++ fCnt ++ [.CORE_WM_STAT_WM_CROSS_CNT,
      .CORE_WM_STAT_WM_EVENT, .CORE_WM_STAT_WM_LEVEL]) ++ onFam .bridge [.BRIDGE_FAB_NBR_PARTNER_PORT, .BRIDGE_FAB_NBR_PARTNER_SW,
      .BRIDGE_FAB_NBR_VALID] ++ onFam .port [.PORT_LINK_STAT_ENC, .PORT_LINK_STAT_FLIT, .PORT_LINK_STAT_KEY_PHASE,
      .PORT_LINK_STAT_LANES_GOOD, .PORT_LINK_STAT_RATE_NOW, .PORT_LINK_STAT_STATE, .PORT_LINK_STAT_WIDTH_NOW,
      .PORT_REPLAY_CNT_CONSEC] ++ onFam .face (fCnt ++ [.FACE_BIND_STATE, .FACE_PM_STAT_LINK_PM]), cnts := [.guard, .core, .face],
      vars := [.alignMiss, .alignSeen, .authDebug, .authStep, .badCw, .crAdv, .crInit, .crUsed, .elogSeq, .eqTimeouts, .ideGo,
      .ideKey, .injAlign, .lsSeen, .mkDue, .mkRx, .mkTx, .msixPend, .nakSent, .nextKey, .ownReq, .paramGot, .paramVal,
      .partnerAspm, .partnerMax, .partnerReady, .partnerRest, .pcieAcked, .pcieRev, .pcieSent, .peerReq, .postStat, .preStat,
      .presetStat, .rekeying, .replayAt, .restHeld, .restPend, .restSince, .rxKey, .rxNum, .rxRest, .rxSeq, .rxUnacked, .skewCnt,
      .txCount, .txKey, .txLimit, .txNum, .txSeq, .txUsed, .wcDone, .wcFrom, .wcId, .wcOldWidth, .wcSet, .widening], fifos :=
      [.elog, .faceWrote, .viWrote], parts := [.buf, .greqs, .out, .replay, .streams, .waiting] }

theorem octCfgWrite_in {F : Foot} (hF : Foot.octCfgWrite.le F = true) (st : Stamp) (oct v : Nat) :
    (octCfgWrite st oct v).In F := by
  unfold octCfgWrite
  repeat' first
      | (with_reducible first | exact all_nil_in | refine all_cons_in ?_ ?_ | refine look_in fun _ => ?_ | refine when_in ?_ | refine forEach_in fun _ => ?_)
      | ((with_reducible refine wr_in ?_ ?_); (· first | exact own_mem (show _ ∈ tabLANE by decide +kernel)); (· first | exact le_regs hF (show (Fam.lane, _) ∈ _ by decide +kernel)))
      | ((with_reducible refine plainWrite_in ?_ _ _); (· first | exact fun fi m => le_regs hF ((show ∀ fi ∈ atOff (tabHDR ++ tabLANE) 0x100, (Fam.lane, fi.1) ∈ Foot.octCfgWrite.regs by decide +kernel) fi m)))
      | ((with_reducible refine laneOff_in ?_ ..); (· exact Foot.le_trans (Foot.le_of_runs (by decide +kernel)) hF))
      | ((with_reducible refine linkDown_in ?_ ..); (· exact Foot.le_trans (Foot.le_of_runs (by decide +kernel)) hF))
      | split
      | dsimp only

end Sys2Proof.Machine
end

