-- ==== Sys2Proof/Laws/FrameLink.lean ====
section
/-! SUPPORT. What each update of Machine/Link.lean may touch. -/

namespace Sys2Proof.Machine

set_option Elab.async false
set_option linter.unusedTactic false
set_option linter.unreachableTactic false

def Foot.advanceWhen : Foot :=
  { regs := onFam .port [.PORT_LINK_STAT_STATE] }

theorem advanceWhen_in {F : Foot} (hF : Foot.advanceWhen.le F = true) (p fromState toState : Nat) (ready : State → Nat → Bool) (u : Upd) (h_u : u.In F) :
    (advanceWhen p fromState toState ready u).In F := by
  unfold advanceWhen
  repeat' first
      | (with_reducible first | exact all_nil_in | refine all_cons_in ?_ ?_ | refine look_in fun _ => ?_ | refine when_in ?_)
      | with_reducible exact h_u
      | ((with_reducible refine wr_in ?_ ?_); (· first | exact own_mem (show _ ∈ tabPORT by decide +kernel)); (· first | exact le_regs hF (show (Fam.port, _) ∈ _ by decide +kernel)))
      | split
      | dsimp only

def Foot.detectStart : Foot :=
  { regs := onFam .lane [.LANE_INJ_CTRL_ONE_SHOT, .LANE_RATE_CFG_RATE_NOW, .LANE_REST_CTRL_IN_REST, .LANE_STAT_ALIGN_LOCK,
      .LANE_STAT_CDR_LOCK, .LANE_STAT_EQ_DONE, .LANE_STAT_EQ_FAIL, .LANE_STAT_EXIT_FAIL, .LANE_STAT_FAILED, .LANE_STAT_FEC_LOCK,
      .LANE_STAT_RX_READY, .LANE_STAT_STATE, .LANE_TX_TAPS_C0, .LANE_TX_TAPS_POST, .LANE_TX_TAPS_PRE] ++ onFam .port (fCnt ++
      [.PORT_LINK_STAT_STATE]) ++ onFam .face fCnt, cnts := [.port, .face], vars := [.alignMiss, .alignSeen, .badCw, .eqTimeouts,
      .injAlign, .longDwell, .msixPend, .ownReq, .partnerReady, .peerReq, .postStat, .preStat, .presetStat, .rxRest], fifos :=
      [.faceWrote, .viWrote], parts := [.out] }

theorem detectStart_in {F : Foot} (hF : Foot.detectStart.le F = true) (p : Nat) :
    (detectStart p).In F := by
  unfold detectStart
  repeat' first
      | (with_reducible first | exact all_nil_in | refine all_cons_in ?_ ?_ | refine look_in fun _ => ?_ | refine when_in ?_ | refine ite_in ?_ ?_ | refine forEach_in fun _ => ?_)
      | ((with_reducible refine put_in ?_); (· exact le_vars hF (by decide +kernel)))
      | ((with_reducible refine wr_in ?_ ?_); (· first | exact hdr_mem rfl (by decide +kernel) | exact own_mem (show _ ∈ tabPORT by decide +kernel)); (· first | exact le_regs hF (show (Fam.face, _) ∈ _ by decide +kernel) | exact le_regs hF (show (Fam.port, _) ∈ _ by decide +kernel)))
      | ((with_reducible refine bump_in ?_ ?_ ..); (· rfl); (· first | exact Foot.le_trans (F := Foot.counting .port) (by decide +kernel) hF))
      | ((with_reducible refine laneOff_in ?_ ..); (· exact Foot.le_trans (Foot.le_of_runs (by decide +kernel)) hF))
      | ((with_reducible refine laneTrain_in ?_ ..); (· exact Foot.le_trans (Foot.le_of_runs (by decide +kernel)) hF))
      | split
      | dsimp only

def Foot.laneFail : Foot :=
  { regs := onFam .sec [.SEC_IDE_STAT_DEV_AUTH, .SEC_IDE_STAT_LINK_ID, .SEC_IDE_STAT_LINK_KSET, .SEC_IDE_STAT_LINK_SECURE,
      .SEC_IDE_STAT_SEL_SECURE, .SEC_IDE_STAT_SEL_VALID, .SEC_LINK_STAT_AUTH_OK, .SEC_LINK_STAT_AUTH_STATUS,
      .SEC_LINK_STAT_PARTNER_DEBUG, .SEC_LINK_STAT_REKEY, .SEC_LINK_STAT_REKEYS] ++ onFam .guard (errFields ++ fCnt ++
      [.GUARD_ELOG_CTRL_LOST]) ++ onFam .lane (errFields ++ [.LANE_INJ_CTRL_ONE_SHOT, .LANE_RATE_CFG_RATE_NOW,
      .LANE_REST_CTRL_IN_REST, .LANE_STAT_ALIGN_LOCK, .LANE_STAT_CDR_LOCK, .LANE_STAT_EQ_DONE, .LANE_STAT_EQ_FAIL,
      .LANE_STAT_EXIT_FAIL, .LANE_STAT_FAILED, .LANE_STAT_FEC_LOCK, .LANE_STAT_RX_READY, .LANE_STAT_STATE, .LANE_TX_TAPS_C0,
      .LANE_TX_TAPS_POST, .LANE_TX_TAPS_PRE]) ++ onFam .core (errFields ++ fCnt ++ [.CORE_WM_STAT_WM_CROSS_CNT,
      .CORE_WM_STAT_WM_EVENT, .CORE_WM_STAT_WM_LEVEL]) ++ onFam .bridge [.BRIDGE_FAB_NBR_PARTNER_PORT, .BRIDGE_FAB_NBR_PARTNER_SW,
      .BRIDGE_FAB_NBR_VALID] ++ onFam .port (errFields ++ [.PORT_LINK_STAT_ENC, .PORT_LINK_STAT_FLIT, .PORT_LINK_STAT_KEY_PHASE,
      .PORT_LINK_STAT_LANES_GOOD, .PORT_LINK_STAT_RATE_NOW, .PORT_LINK_STAT_STATE, .PORT_LINK_STAT_WIDTH_NOW,
      .PORT_REPLAY_CNT_CONSEC]) ++ onFam .face (fCnt ++ [.FACE_BIND_STATE, .FACE_PM_STAT_LINK_PM]), cnts := [.guard, .core,
      .face], vars := [.alignMiss, .alignSeen, .authDebug, .authStep, .badCw, .crAdv, .crInit, .crUsed, .elogSeq, .eqTimeouts,
      .ideGo, .ideKey, .injAlign, .lsSeen, .mkDue, .mkRx, .mkTx, .msixPend, .nakSent, .nextKey, .ownReq, .paramGot, .paramVal,
      .partnerAspm, .partnerMax, .partnerReady, .partnerRest, .pcieAcked, .pcieRev, .pcieSent, .peerReq, .postStat, .preStat,
      .presetStat, .rekeying, .replayAt, .restHeld, .restPend, .restSince, .rxKey, .rxNum, .rxRest, .rxSeq, .rxUnacked, .skewCnt,
      .txCount, .txKey, .txLimit, .txNum, .txSeq, .txUsed, .wcCount, .wcDone, .wcFrom, .wcId, .wcOldWidth, .wcSet, .widening],
      fifos := [.elog, .faceWrote, .viWrote], parts := [.buf, .coders, .greqs, .out, .replay, .streams, .waiting] }

theorem laneFail_in {F : Foot} (hF : Foot.laneFail.le F = true) (l : Nat) :
    (laneFail l).In F := by
  unfold laneFail
  repeat' first
      | (with_reducible first | exact all_nil_in | refine all_cons_in ?_ ?_ | refine look_in fun _ => ?_ | refine forSome_in fun _ => ?_)
      | ((with_reducible refine wln_in ?_ ?_ _ _); (· decide +kernel); (· exact le_regs hF (by decide +kernel)))
      | ((with_reducible refine raise_in ?_ ?_ ..); (· rfl); (· first | exact Foot.le_trans (F := Foot.error .lane) (by decide +kernel) hF))
      | ((with_reducible refine laneOff_in ?_ ..); (· exact Foot.le_trans (Foot.le_of_runs (by decide +kernel)) hF))
      | ((with_reducible refine narrowPort_in ?_ ..); (· exact Foot.le_trans (Foot.le_of_runs (by decide +kernel)) hF))
      | split
      | dsimp only

def Foot.alignLost : Foot :=
  { regs := onFam .sec [.SEC_IDE_STAT_DEV_AUTH, .SEC_IDE_STAT_LINK_ID, .SEC_IDE_STAT_LINK_KSET, .SEC_IDE_STAT_LINK_SECURE,
      .SEC_IDE_STAT_SEL_SECURE, .SEC_IDE_STAT_SEL_VALID, .SEC_LINK_STAT_AUTH_OK, .SEC_LINK_STAT_AUTH_STATUS,
      .SEC_LINK_STAT_PARTNER_DEBUG, .SEC_LINK_STAT_REKEY, .SEC_LINK_STAT_REKEYS] ++ onFam .guard (errFields ++ fCnt ++
      [.GUARD_ELOG_CTRL_LOST]) ++ onFam .lane (errFields ++ [.LANE_INJ_CTRL_ONE_SHOT, .LANE_RATE_CFG_RATE_NOW,
      .LANE_REST_CTRL_IN_REST, .LANE_STAT_ALIGN_LOCK, .LANE_STAT_CDR_LOCK, .LANE_STAT_EQ_DONE, .LANE_STAT_EQ_FAIL,
      .LANE_STAT_EXIT_FAIL, .LANE_STAT_FAILED, .LANE_STAT_FEC_LOCK, .LANE_STAT_RX_READY, .LANE_STAT_STATE, .LANE_TX_TAPS_C0,
      .LANE_TX_TAPS_POST, .LANE_TX_TAPS_PRE]) ++ onFam .core (errFields ++ fCnt ++ [.CORE_WM_STAT_WM_CROSS_CNT,
      .CORE_WM_STAT_WM_EVENT, .CORE_WM_STAT_WM_LEVEL]) ++ onFam .bridge [.BRIDGE_FAB_NBR_PARTNER_PORT, .BRIDGE_FAB_NBR_PARTNER_SW,
      .BRIDGE_FAB_NBR_VALID] ++ onFam .port (errFields ++ [.PORT_LINK_STAT_ENC, .PORT_LINK_STAT_FLIT, .PORT_LINK_STAT_KEY_PHASE,
      .PORT_LINK_STAT_LANES_GOOD, .PORT_LINK_STAT_RATE_NOW, .PORT_LINK_STAT_STATE, .PORT_LINK_STAT_WIDTH_NOW,
      .PORT_REPLAY_CNT_CONSEC]) ++ onFam .face (fCnt ++ [.FACE_BIND_STATE, .FACE_PM_STAT_LINK_PM]), cnts := [.guard, .core,
      .face], vars := [.alignMiss, .alignSeen, .authDebug, .authStep, .badCw, .crAdv, .crInit, .crUsed, .elogSeq, .eqTimeouts,
      .ideGo, .ideKey, .injAlign, .lsSeen, .mkDue, .mkRx, .mkTx, .msixPend, .nakSent, .nextKey, .ownReq, .paramGot, .paramVal,
      .partnerAspm, .partnerMax, .partnerReady, .partnerRest, .pcieAcked, .pcieRev, .pcieSent, .peerReq, .postStat, .preStat,
      .presetStat, .rekeying, .replayAt, .restHeld, .restPend, .restSince, .rxKey, .rxNum, .rxRest, .rxSeq, .rxUnacked, .skewCnt,
      .txCount, .txKey, .txLimit, .txNum, .txSeq, .txUsed, .wcCount, .wcDone, .wcFrom, .wcId, .wcOldWidth, .wcSet, .widening],
      fifos := [.elog, .faceWrote, .viWrote], parts := [.buf, .coders, .greqs, .out, .replay, .streams, .waiting] }

theorem alignLost_in {F : Foot} (hF : Foot.alignLost.le F = true) (l : Nat) :
    (alignLost l).In F := by
  unfold alignLost
  repeat' first
      | (with_reducible first | exact all_nil_in | refine all_cons_in ?_ ?_ | refine look_in fun _ => ?_ | refine when_in ?_)
      | ((with_reducible refine put_in ?_); (· exact le_vars hF (by decide +kernel)))
      | ((with_reducible refine wln_in ?_ ?_ _ _); (· decide +kernel); (· exact le_regs hF (by decide +kernel)))
      | ((with_reducible refine laneFail_in ?_ ..); (· exact Foot.le_trans (Foot.le_of_runs (by decide +kernel)) hF))
      | split
      | dsimp only

def Foot.sendParams : Foot :=
  { parts := [.coders, .out] }

theorem sendParams_in {F : Foot} (hF : Foot.sendParams.le F = true) (p : Nat) :
    (sendParams p).In F := by
  unfold sendParams
  repeat' first
      | (with_reducible first | refine look_in fun _ => ?_ | refine forBelow_in fun _ => ?_)
      | ((with_reducible refine ctl_in ?_ ..); (· exact Foot.le_trans (Foot.le_of_runs (by decide +kernel)) hF))
      | split
      | dsimp only

def Foot.enterParam : Foot :=
  { regs := onFam .lane [.LANE_STAT_STATE] ++ onFam .port [.PORT_LINK_STAT_LANES_GOOD, .PORT_LINK_STAT_RATE_NOW,
      .PORT_LINK_STAT_WIDTH_NOW], vars := [.mkRx, .mkTx, .paramGot], parts := [.coders, .out] }

theorem enterParam_in {F : Foot} (hF : Foot.enterParam.le F = true) (p : Nat) :
    (enterParam p).In F := by
  unfold enterParam
  repeat' first
      | (with_reducible first | exact all_nil_in | refine all_cons_in ?_ ?_ | refine look_in fun _ => ?_ | refine forEach_in fun _ => ?_)
      | ((with_reducible refine put_in ?_); (· exact le_vars hF (by decide +kernel)))
      | ((with_reducible refine wr_in ?_ ?_); (· first | exact own_mem (show _ ∈ tabLANE by decide +kernel) | exact own_mem (show _ ∈ tabPORT by decide +kernel)); (· first | exact le_regs hF (show (Fam.lane, _) ∈ _ by decide +kernel) | exact le_regs hF (show (Fam.port, _) ∈ _ by decide +kernel)))
      | ((with_reducible refine wln_in ?_ ?_ _ _); (· decide +kernel); (· exact le_regs hF (by decide +kernel)))
      | ((with_reducible refine sendParams_in ?_ ..); (· exact Foot.le_trans (Foot.le_of_runs (by decide +kernel)) hF))
      | ((with_reducible refine useSet_in ?_ ..); (· exact Foot.le_trans (Foot.le_of_runs (by decide +kernel)) hF))
      | split
      | dsimp only

def Foot.sendCredit : Foot :=
  { parts := [.coders, .out] }

theorem sendCredit_in {F : Foot} (hF : Foot.sendCredit.le F = true) (p c x : Nat) :
    (sendCredit p c x).In F := by
  unfold sendCredit
  repeat' first
      | (with_reducible first | refine look_in fun _ => ?_)
      | ((with_reducible refine ctl_in ?_ ..); (· exact Foot.le_trans (Foot.le_of_runs (by decide +kernel)) hF))
      | split
      | dsimp only

def Foot.initialCredits : Foot :=
  { vars := [.crAdv], parts := [.coders, .out] }

theorem initialCredits_in {F : Foot} (hF : Foot.initialCredits.le F = true) (p : Nat) :
    (initialCredits p).In F := by
  unfold initialCredits
  repeat' first
      | (with_reducible first | exact all_nil_in | refine all_cons_in ?_ ?_ | refine look_in fun _ => ?_ | refine forEach_in fun _ => ?_)
      | ((with_reducible refine put_in ?_); (· exact le_vars hF (by decide +kernel)))
      | ((with_reducible refine sendCredit_in ?_ ..); (· exact Foot.le_trans (Foot.le_of_runs (by decide +kernel)) hF))
      | split
      | dsimp only

def Foot.neighbourJudge : Foot :=
  { regs := onFam .guard (errFields ++ fCnt ++ [.GUARD_ELOG_CTRL_LOST]) ++ onFam .bridge (errFields ++ [.BRIDGE_FAB_NBR_MISWIRED])
      ++ onFam .face fCnt, cnts := [.guard, .face], vars := [.elogSeq, .msixPend], fifos := [.elog, .faceWrote, .viWrote], parts
      := [.greqs, .out] }

theorem neighbourJudge_in {F : Foot} (hF : Foot.neighbourJudge.le F = true) (p sw port : Nat) :
    (neighbourJudge p sw port).In F := by
  unfold neighbourJudge
  repeat' first
      | (with_reducible first | exact all_nil_in | refine all_cons_in ?_ ?_ | refine look_in fun _ => ?_ | refine when_in ?_)
      | ((with_reducible refine wr_in ?_ ?_); (· first | exact hdr_mem rfl (by decide +kernel) | exact own_mem (show _ ∈ tabBRIDGE4 by decide +kernel) | exact own_mem (show _ ∈ tabGUARD0 by decide +kernel)); (· first | exact le_regs hF (show (Fam.bridge, _) ∈ _ by decide +kernel) | exact le_regs hF (show (Fam.face, _) ∈ _ by decide +kernel) | exact le_regs hF (show (Fam.guard, _) ∈ _ by decide +kernel)))
      | ((with_reducible refine raiseIn_in ?_ ?_ ..); (· rfl); (· first | exact Foot.le_trans (F := Foot.error .bridge) (by decide +kernel) hF))
      | split
      | dsimp only

def Foot.sendHello : Foot :=
  { parts := [.free, .out] }

theorem sendHello_in {F : Foot} (hF : Foot.sendHello.le F = true) (p : Nat) :
    (sendHello p).In F := by
  unfold sendHello
  repeat' first
      | (with_reducible first | refine look_in fun _ => ?_)
      | ((with_reducible refine emit_in ?_); (· exact le_parts hF (by decide +kernel)))
      | ((with_reducible refine drawWide_in ?_ fun _ => ?_); (· exact le_parts hF (by decide +kernel)); skip)
      | split
      | dsimp only

def Foot.paramsDone : Foot :=
  { regs := onFam .sec [.SEC_IDE_STAT_DEV_AUTH, .SEC_IDE_STAT_LINK_ID, .SEC_IDE_STAT_LINK_KSET, .SEC_IDE_STAT_LINK_SECURE,
      .SEC_IDE_STAT_SEL_SECURE, .SEC_IDE_STAT_SEL_VALID, .SEC_LINK_STAT_AUTH_OK, .SEC_LINK_STAT_AUTH_STATUS,
      .SEC_LINK_STAT_PARTNER_DEBUG, .SEC_LINK_STAT_REKEY, .SEC_LINK_STAT_REKEYS] ++ onFam .guard (errFields ++ fCnt ++
      [.GUARD_ELOG_CTRL_LOST]) ++ onFam .lane [.LANE_INJ_CTRL_ONE_SHOT, .LANE_RATE_CFG_RATE_NOW, .LANE_REST_CTRL_IN_REST,
      .LANE_STAT_ALIGN_LOCK, .LANE_STAT_CDR_LOCK, .LANE_STAT_EQ_DONE, .LANE_STAT_EQ_FAIL, .LANE_STAT_EXIT_FAIL, .LANE_STAT_FAILED,
      .LANE_STAT_FEC_LOCK, .LANE_STAT_RX_READY, .LANE_STAT_STATE, .LANE_TX_TAPS_C0, .LANE_TX_TAPS_POST, .LANE_TX_TAPS_PRE] ++
      onFam .core (errFields ++ fCnt ++ [.CORE_WM_STAT_WM_CROSS_CNT, .CORE_WM_STAT_WM_EVENT, .CORE_WM_STAT_WM_LEVEL]) ++ onFam
      .bridge (errFields ++ [.BRIDGE_FAB_NBR_MISWIRED, .BRIDGE_FAB_NBR_PARTNER_PORT, .BRIDGE_FAB_NBR_PARTNER_SW,
      .BRIDGE_FAB_NBR_VALID]) ++ onFam .port (errFields ++ fCnt ++ [.PORT_LINK_STAT_ENC, .PORT_LINK_STAT_FLIT,
      .PORT_LINK_STAT_KEY_PHASE, .PORT_LINK_STAT_LANES_GOOD, .PORT_LINK_STAT_RATE_NOW, .PORT_LINK_STAT_STATE,
      .PORT_LINK_STAT_WIDTH_NOW, .PORT_REPLAY_CNT_CONSEC]) ++ onFam .face (fCnt ++ [.FACE_BIND_STATE, .FACE_PM_STAT_LINK_PM]),
      cnts := [.guard, .core, .port, .face], vars := [.alignMiss, .alignSeen, .authDebug, .authStep, .badCw, .crAdv, .crInit,
      .crUsed, .elogSeq, .eqTimeouts, .ideGo, .ideKey, .injAlign, .longDwell, .lsSeen, .mkDue, .mkRx, .mkTx, .msixPend, .nakSent,
      .nextKey, .ownReq, .paramGot, .paramVal, .partnerAspm, .partnerMax, .partnerReady, .partnerRest, .pcieAcked, .pcieRev,
      .pcieSent, .peerReq, .postStat, .preStat, .presetStat, .rekeying, .replayAt, .restHeld, .restPend, .restSince, .rxKey,
      .rxNum, .rxRest, .rxSeq, .rxUnacked, .skewCnt, .txCount, .txKey, .txLimit, .txNum, .txSeq, .txUsed, .wcDone, .wcFrom, .wcId,
      .wcOldWidth, .wcSet, .widening], fifos := [.elog, .faceWrote, .viWrote], parts := [.buf, .coders, .free, .greqs, .out,
      .replay, .streams, .waiting] }

theorem paramsDone_in {F : Foot} (hF : Foot.paramsDone.le F = true) (p : Nat) :
    (paramsDone p).In F := by
  unfold paramsDone
  repeat' first
      | (with_reducible first | exact all_nil_in | refine all_cons_in ?_ ?_ | refine look_in fun _ => ?_ | refine ite_in ?_ ?_)
      | ((with_reducible refine put_in ?_); (· exact le_vars hF (by decide +kernel)))
      | ((with_reducible refine wr_in ?_ ?_); (· first | exact own_mem (show _ ∈ tabBRIDGE4 by decide +kernel) | exact hdr_mem rfl (by decide +kernel) | exact own_mem (show _ ∈ tabPORT by decide +kernel) | exact own_mem (show _ ∈ tabSEC2 by decide +kernel)); (· first | exact le_regs hF (show (Fam.bridge, _) ∈ _ by decide +kernel) | exact le_regs hF (show (Fam.face, _) ∈ _ by decide +kernel) | exact le_regs hF (show (Fam.port, _) ∈ _ by decide +kernel) | exact le_regs hF (show (Fam.sec, _) ∈ _ by decide +kernel)))
      | ((with_reducible refine bump_in ?_ ?_ ..); (· rfl); (· first | exact Foot.le_trans (F := Foot.counting .port) (by decide +kernel) hF))
      | ((with_reducible refine initialCredits_in ?_ ..); (· exact Foot.le_trans (Foot.le_of_runs (by decide +kernel)) hF))
      | ((with_reducible refine linkFails_in ?_ ..); (· exact Foot.le_trans (Foot.le_of_runs (by decide +kernel)) hF))
      | ((with_reducible refine neighbourJudge_in ?_ ..); (· exact Foot.le_trans (Foot.le_of_runs (by decide +kernel)) hF))
      | ((with_reducible refine sendHello_in ?_ ..); (· exact Foot.le_trans (Foot.le_of_runs (by decide +kernel)) hF))
      | split
      | dsimp only

def Foot.authFails : Foot :=
  { regs := onFam .sec (errFields ++ fCnt ++ [.SEC_IDE_STAT_DEV_AUTH, .SEC_IDE_STAT_LINK_ID, .SEC_IDE_STAT_LINK_KSET,
      .SEC_IDE_STAT_LINK_SECURE, .SEC_IDE_STAT_SEL_SECURE, .SEC_IDE_STAT_SEL_VALID, .SEC_LINK_STAT_AUTH_OK,
      .SEC_LINK_STAT_AUTH_STATUS, .SEC_LINK_STAT_PARTNER_DEBUG, .SEC_LINK_STAT_REKEY, .SEC_LINK_STAT_REKEYS]) ++ onFam .guard
      (errFields ++ fCnt ++ [.GUARD_ELOG_CTRL_LOST]) ++ onFam .lane [.LANE_INJ_CTRL_ONE_SHOT, .LANE_RATE_CFG_RATE_NOW,
      .LANE_REST_CTRL_IN_REST, .LANE_STAT_ALIGN_LOCK, .LANE_STAT_CDR_LOCK, .LANE_STAT_EQ_DONE, .LANE_STAT_EQ_FAIL,
      .LANE_STAT_EXIT_FAIL, .LANE_STAT_FAILED, .LANE_STAT_FEC_LOCK, .LANE_STAT_RX_READY, .LANE_STAT_STATE, .LANE_TX_TAPS_C0,
      .LANE_TX_TAPS_POST, .LANE_TX_TAPS_PRE] ++ onFam .core (errFields ++ fCnt ++ [.CORE_WM_STAT_WM_CROSS_CNT,
      .CORE_WM_STAT_WM_EVENT, .CORE_WM_STAT_WM_LEVEL]) ++ onFam .bridge [.BRIDGE_FAB_NBR_PARTNER_PORT, .BRIDGE_FAB_NBR_PARTNER_SW,
      .BRIDGE_FAB_NBR_VALID] ++ onFam .port (fCnt ++ [.PORT_LINK_STAT_ENC, .PORT_LINK_STAT_FLIT, .PORT_LINK_STAT_KEY_PHASE,
      .PORT_LINK_STAT_LANES_GOOD, .PORT_LINK_STAT_RATE_NOW, .PORT_LINK_STAT_STATE, .PORT_LINK_STAT_WIDTH_NOW,
      .PORT_REPLAY_CNT_CONSEC]) ++ onFam .face (fCnt ++ [.FACE_BIND_STATE, .FACE_PM_STAT_LINK_PM]), cnts := [.sec, .guard, .core,
      .port, .face], vars := [.alignMiss, .alignSeen, .authDebug, .authStep, .badCw, .crAdv, .crInit, .crUsed, .elogSeq,
      .eqTimeouts, .ideGo, .ideKey, .injAlign, .longDwell, .lsSeen, .mkDue, .mkRx, .mkTx, .msixPend, .nakSent, .nextKey, .ownReq,
      .paramGot, .paramVal, .partnerAspm, .partnerMax, .partnerReady, .partnerRest, .pcieAcked, .pcieRev, .pcieSent, .peerReq,
      .postStat, .preStat, .presetStat, .rekeying, .replayAt, .restHeld, .restPend, .restSince, .rxKey, .rxNum, .rxRest, .rxSeq,
      .rxUnacked, .skewCnt, .txCount, .txKey, .txLimit, .txNum, .txSeq, .txUsed, .wcDone, .wcFrom, .wcId, .wcOldWidth, .wcSet,
      .widening], fifos := [.elog, .faceWrote, .viWrote], parts := [.buf, .greqs, .out, .replay, .streams, .waiting] }

theorem authFails_in {F : Foot} (hF : Foot.authFails.le F = true) (p code : Nat) :
    (authFails p code).In F := by
  unfold authFails
  repeat' first
      | (with_reducible first | exact all_nil_in | refine all_cons_in ?_ ?_ | refine look_in fun _ => ?_)
      | ((with_reducible refine put_in ?_); (· exact le_vars hF (by decide +kernel)))
      | ((with_reducible refine wr_in ?_ ?_); (· first | exact hdr_mem rfl (by decide +kernel) | exact own_mem (show _ ∈ tabGUARD0 by decide +kernel) | exact own_mem (show _ ∈ tabSEC2 by decide +kernel)); (· first | exact le_regs hF (show (Fam.face, _) ∈ _ by decide +kernel) | exact le_regs hF (show (Fam.guard, _) ∈ _ by decide +kernel) | exact le_regs hF (show (Fam.port, _) ∈ _ by decide +kernel) | exact le_regs hF (show (Fam.sec, _) ∈ _ by decide +kernel)))
      | ((with_reducible refine bump_in ?_ ?_ ..); (· rfl); (· first | exact Foot.le_trans (F := Foot.counting .port) (by decide +kernel) hF | exact Foot.le_trans (F := Foot.counting .sec) (by decide +kernel) hF))
      | ((with_reducible refine raiseIn_in ?_ ?_ ..); (· rfl); (· first | exact Foot.le_trans (F := Foot.error .sec) (by decide +kernel) hF))
      | ((with_reducible refine linkDown_in ?_ ..); (· exact Foot.le_trans (Foot.le_of_runs (by decide +kernel)) hF))
      | split
      | dsimp only

def Foot.supplyKey : Foot :=
  { vars := [.keyCount, .rxKey, .rxNum, .txKey] }

theorem supplyKey_in {F : Foot} (hF : Foot.supplyKey.le F = true) (p : Nat) :
    (supplyKey p).In F := by
  unfold supplyKey
  repeat' first
      | (with_reducible first | exact all_nil_in | refine all_cons_in ?_ ?_ | refine look_in fun _ => ?_ | refine ite_in ?_ ?_)
      | ((with_reducible refine put_in ?_); (· exact le_vars hF (by decide +kernel)))
      | split
      | dsimp only

def Foot.sendProof : Foot :=
  { parts := [.out] }

theorem sendProof_in {F : Foot} (hF : Foot.sendProof.le F = true) (p : Nat) :
    (sendProof p).In F := by
  unfold sendProof
  repeat' first
      | (with_reducible first | refine look_in fun _ => ?_)
      | ((with_reducible refine emit_in ?_); (· exact le_parts hF (by decide +kernel)))
      | split
      | dsimp only

def Foot.checkedCtl : Foot :=
  { regs := onFam .guard (errFields ++ fCnt ++ [.GUARD_ELOG_CTRL_LOST]) ++ onFam .port (errFields ++ fCnt) ++ onFam .face fCnt, cnts
      := [.guard, .port, .face], vars := [.elogSeq, .msixPend], fifos := [.elog, .faceWrote, .viWrote], parts := [.greqs, .out] }

theorem checkedCtl_in {F : Foot} (hF : Foot.checkedCtl.le F = true) (p : Nat) (blk : BitVec 64) (typ : Nat) (u : Upd) (h_u : u.In F) :
    (checkedCtl p blk typ u).In F := by
  unfold checkedCtl
  repeat' first
      | (with_reducible first | exact all_nil_in | refine all_cons_in ?_ ?_ | refine look_in fun _ => ?_ | refine when_in ?_ | refine ite_in ?_ ?_)
      | with_reducible exact h_u
      | ((with_reducible refine bump_in ?_ ?_ ..); (· rfl); (· first | exact Foot.le_trans (F := Foot.counting .port) (by decide +kernel) hF))
      | ((with_reducible refine raise_in ?_ ?_ ..); (· rfl); (· first | exact Foot.le_trans (F := Foot.error .port) (by decide +kernel) hF))
      | split
      | dsimp only

def Foot.restLeave : Foot :=
  { regs := onFam .lane (fCnt ++ [.LANE_INJ_CTRL_ONE_SHOT, .LANE_REST_CTRL_IN_REST, .LANE_STAT_STATE]) ++ onFam .port
      [.PORT_LINK_STAT_STATE] ++ onFam .face fCnt, cnts := [.lane, .face], vars := [.alignTx, .injAlign, .msixPend, .restHeld,
      .restPend, .restSince], fifos := [.faceWrote, .viWrote], parts := [.coders, .out] }

theorem restLeave_in {F : Foot} (hF : Foot.restLeave.le F = true) (p : Nat) :
    (restLeave p).In F := by
  unfold restLeave
  repeat' first
      | (with_reducible first | exact all_nil_in | refine all_cons_in ?_ ?_ | refine look_in fun _ => ?_ | refine when_in ?_ | refine forEach_in fun _ => ?_)
      | ((with_reducible refine put_in ?_); (· exact le_vars hF (by decide +kernel)))
      | ((with_reducible refine emit_in ?_); (· exact le_parts hF (by decide +kernel)))
      | ((with_reducible refine wr_in ?_ ?_); (· first | exact own_mem (show _ ∈ tabLANE by decide +kernel) | exact own_mem (show _ ∈ tabPORT by decide +kernel)); (· first | exact le_regs hF (show (Fam.lane, _) ∈ _ by decide +kernel) | exact le_regs hF (show (Fam.port, _) ∈ _ by decide +kernel)))
      | ((with_reducible refine wln_in ?_ ?_ _ _); (· decide +kernel); (· exact le_regs hF (by decide +kernel)))
      | ((with_reducible refine ctl_in ?_ ..); (· exact Foot.le_trans (Foot.le_of_runs (by decide +kernel)) hF))
      | ((with_reducible refine laneCnt_in ?_ ..); (· exact Foot.le_trans (Foot.le_of_runs (by decide +kernel)) hF))
      | ((with_reducible refine sendAlign_in ?_ ..); (· exact Foot.le_trans (Foot.le_of_runs (by decide +kernel)) hF))
      | split
      | dsimp only

def Foot.restExit : Foot :=
  { regs := onFam .lane (fCnt ++ [.LANE_INJ_CTRL_ONE_SHOT, .LANE_REST_CTRL_IN_REST, .LANE_STAT_STATE]) ++ onFam .port
      [.PORT_LINK_STAT_STATE] ++ onFam .face fCnt, cnts := [.lane, .face], vars := [.alignTx, .injAlign, .msixPend, .restHeld,
      .restPend, .restSince], fifos := [.faceWrote, .viWrote], parts := [.coders, .out] }

theorem restExit_in {F : Foot} (hF : Foot.restExit.le F = true) (p : Nat) :
    (restExit p).In F := by
  unfold restExit
  repeat' first
      | (with_reducible first | refine look_in fun _ => ?_ | refine when_in ?_ | refine ite_in ?_ ?_)
      | ((with_reducible refine put_in ?_); (· exact le_vars hF (by decide +kernel)))
      | ((with_reducible refine restLeave_in ?_ ..); (· exact Foot.le_trans (Foot.le_of_runs (by decide +kernel)) hF))
      | split
      | dsimp only

def Foot.restDue : Foot :=
  { regs := onFam .lane (fCnt ++ [.LANE_INJ_CTRL_ONE_SHOT, .LANE_REST_CTRL_IN_REST, .LANE_STAT_STATE]) ++ onFam .port
      [.PORT_LINK_STAT_STATE] ++ onFam .face fCnt, cnts := [.lane, .face], vars := [.alignTx, .injAlign, .msixPend, .restHeld,
      .restPend, .restSince], fifos := [.faceWrote, .viWrote], parts := [.coders, .out] }

theorem restDue_in {F : Foot} (hF : Foot.restDue.le F = true)  :
    (restDue).In F := by
  unfold restDue
  repeat' first
      | (with_reducible first | refine look_in fun _ => ?_ | refine when_in ?_ | refine forBelow_in fun _ => ?_)
      | ((with_reducible refine restLeave_in ?_ ..); (· exact Foot.le_trans (Foot.le_of_runs (by decide +kernel)) hF))
      | split
      | dsimp only

def Foot.awake : Foot :=
  { regs := onFam .lane (fCnt ++ [.LANE_INJ_CTRL_ONE_SHOT, .LANE_REST_CTRL_IN_REST, .LANE_STAT_STATE]) ++ onFam .port
      [.PORT_LINK_STAT_STATE] ++ onFam .face fCnt, cnts := [.lane, .face], vars := [.alignTx, .injAlign, .msixPend, .restHeld,
      .restPend, .restSince], fifos := [.faceWrote, .viWrote], parts := [.coders, .out] }

theorem awake_in {F : Foot} (hF : Foot.awake.le F = true) (p held : Nat) (u : Upd) (h_u : u.In F) :
    (awake p held u).In F := by
  unfold awake
  repeat' first
      | (with_reducible first | exact all_nil_in | refine all_cons_in ?_ ?_ | refine look_in fun _ => ?_ | refine ite_in ?_ ?_)
      | with_reducible exact h_u
      | ((with_reducible refine modIv_in ?_); (· exact le_vars hF (by decide +kernel)))
      | ((with_reducible refine restExit_in ?_ ..); (· exact Foot.le_trans (Foot.le_of_runs (by decide +kernel)) hF))
      | split
      | dsimp only

def Foot.sendAck : Foot :=
  { regs := onFam .lane (fCnt ++ [.LANE_INJ_CTRL_ONE_SHOT, .LANE_REST_CTRL_IN_REST, .LANE_STAT_STATE]) ++ onFam .port
      [.PORT_LINK_STAT_STATE] ++ onFam .face fCnt, cnts := [.lane, .face], vars := [.alignTx, .injAlign, .msixPend, .restHeld,
      .restPend, .restSince, .rxUnacked], fifos := [.faceWrote, .viWrote], parts := [.coders, .out] }

theorem sendAck_in {F : Foot} (hF : Foot.sendAck.le F = true) (p : Nat) :
    (sendAck p).In F := by
  unfold sendAck
  repeat' first
      | (with_reducible first | exact all_nil_in | refine all_cons_in ?_ ?_ | refine look_in fun _ => ?_)
      | ((with_reducible refine put_in ?_); (· exact le_vars hF (by decide +kernel)))
      | ((with_reducible refine awake_in ?_ _ _ _ (?_)); (· exact Foot.le_trans (Foot.le_of_runs (by decide +kernel)) hF); skip)
      | ((with_reducible refine ctl_in ?_ ..); (· exact Foot.le_trans (Foot.le_of_runs (by decide +kernel)) hF))
      | split
      | dsimp only

def Foot.sendNak : Foot :=
  { regs := onFam .lane (fCnt ++ [.LANE_INJ_CTRL_ONE_SHOT, .LANE_REST_CTRL_IN_REST, .LANE_STAT_STATE]) ++ onFam .port (fCnt ++
      [.PORT_LINK_STAT_STATE]) ++ onFam .face fCnt, cnts := [.lane, .port, .face], vars := [.alignTx, .injAlign, .msixPend,
      .nakSent, .restHeld, .restPend, .restSince, .rxUnacked], fifos := [.faceWrote, .viWrote], parts := [.coders, .out] }

theorem sendNak_in {F : Foot} (hF : Foot.sendNak.le F = true) (p : Nat) :
    (sendNak p).In F := by
  unfold sendNak
  repeat' first
      | (with_reducible first | exact all_nil_in | refine all_cons_in ?_ ?_ | refine look_in fun _ => ?_ | refine when_in ?_)
      | ((with_reducible refine put_in ?_); (· exact le_vars hF (by decide +kernel)))
      | ((with_reducible refine bump_in ?_ ?_ ..); (· rfl); (· first | exact Foot.le_trans (F := Foot.counting .port) (by decide +kernel) hF))
      | ((with_reducible refine awake_in ?_ _ _ _ (?_)); (· exact Foot.le_trans (Foot.le_of_runs (by decide +kernel)) hF); skip)
      | ((with_reducible refine ctl_in ?_ ..); (· exact Foot.le_trans (Foot.le_of_runs (by decide +kernel)) hF))
      | split
      | dsimp only

def Foot.retire : Foot :=
  { regs := onFam .lane (fCnt ++ [.LANE_INJ_CTRL_ONE_SHOT, .LANE_REST_CTRL_IN_REST, .LANE_STAT_STATE]) ++ onFam .port
      [.PORT_LINK_STAT_STATE] ++ onFam .face fCnt, cnts := [.lane, .face], vars := [.alignTx, .injAlign, .msixPend, .restHeld,
      .restPend, .restSince], fifos := [.faceWrote, .viWrote], parts := [.coders, .out] }

theorem retire_in {F : Foot} (hF : Foot.retire.le F = true) (p : Nat) :
    (retire p).In F := by
  unfold retire
  repeat' first
      | (with_reducible first | exact all_nil_in | refine all_cons_in ?_ ?_)
      | ((with_reducible refine wr_in ?_ ?_); (· first | exact own_mem (show _ ∈ tabPORT by decide +kernel)); (· first | exact le_regs hF (show (Fam.port, _) ∈ _ by decide +kernel)))
      | ((with_reducible refine restExit_in ?_ ..); (· exact Foot.le_trans (Foot.le_of_runs (by decide +kernel)) hF))
      | split
      | dsimp only

def Foot.linkCtrlWrite : Foot :=
  { regs := onFam .sec [.SEC_IDE_STAT_DEV_AUTH, .SEC_IDE_STAT_LINK_ID, .SEC_IDE_STAT_LINK_KSET, .SEC_IDE_STAT_LINK_SECURE,
      .SEC_IDE_STAT_SEL_SECURE, .SEC_IDE_STAT_SEL_VALID, .SEC_LINK_STAT_AUTH_OK, .SEC_LINK_STAT_AUTH_STATUS,
      .SEC_LINK_STAT_PARTNER_DEBUG, .SEC_LINK_STAT_REKEY, .SEC_LINK_STAT_REKEYS] ++ onFam .guard (errFields ++ fCnt ++
      [.GUARD_ELOG_CTRL_LOST]) ++ onFam .lane (fCnt ++ [.LANE_INJ_CTRL_ONE_SHOT, .LANE_RATE_CFG_RATE_NOW, .LANE_REST_CTRL_IN_REST,
      .LANE_STAT_ALIGN_LOCK, .LANE_STAT_CDR_LOCK, .LANE_STAT_EQ_DONE, .LANE_STAT_EQ_FAIL, .LANE_STAT_EXIT_FAIL, .LANE_STAT_FAILED,
      .LANE_STAT_FEC_LOCK, .LANE_STAT_RX_READY, .LANE_STAT_STATE, .LANE_TX_TAPS_C0, .LANE_TX_TAPS_POST, .LANE_TX_TAPS_PRE]) ++
      onFam .core (errFields ++ fCnt ++ [.CORE_WM_STAT_WM_CROSS_CNT, .CORE_WM_STAT_WM_EVENT, .CORE_WM_STAT_WM_LEVEL]) ++ onFam
      .bridge [.BRIDGE_FAB_NBR_PARTNER_PORT, .BRIDGE_FAB_NBR_PARTNER_SW, .BRIDGE_FAB_NBR_VALID] ++ onFam .port
      [.PORT_LINK_CTRL_ACK_COALESCE, .PORT_LINK_CTRL_CLKREQ_GPIO, .PORT_LINK_CTRL_CREDIT_STALL, .PORT_LINK_CTRL_DISABLE,
      .PORT_LINK_CTRL_LINK_RETIRE, .PORT_LINK_CTRL_REST_EN, .PORT_LINK_CTRL_REST_IDLE, .PORT_LINK_CTRL_RETRAIN,
      .PORT_LINK_STAT_ENC, .PORT_LINK_STAT_FLIT, .PORT_LINK_STAT_KEY_PHASE, .PORT_LINK_STAT_LANES_GOOD, .PORT_LINK_STAT_RATE_NOW,
      .PORT_LINK_STAT_STATE, .PORT_LINK_STAT_WIDTH_NOW, .PORT_REPLAY_CNT_CONSEC] ++ onFam .face (fCnt ++ [.FACE_BIND_STATE,
      .FACE_PM_STAT_LINK_PM]), cnts := [.guard, .lane, .core, .face], vars := [.alignMiss, .alignSeen, .alignTx, .authDebug,
      .authStep, .badCw, .crAdv, .crInit, .crUsed, .curSet, .elogSeq, .eqTimeouts, .ideGo, .ideKey, .injAlign, .lsSeen, .mkDue,
      .mkRx, .mkTx, .msixPend, .nakSent, .nextKey, .ownReq, .paramGot, .paramVal, .partnerAspm, .partnerMax, .partnerReady,
      .partnerRest, .pcieAcked, .pcieRev, .pcieSent, .peerReq, .postStat, .preStat, .presetStat, .rekeying, .replayAt, .restHeld,
      .restPend, .restSince, .rxKey, .rxNum, .rxRest, .rxSeq, .rxUnacked, .skewCnt, .txCount, .txKey, .txLimit, .txNum, .txSeq,
      .txUsed, .wcDone, .wcFrom, .wcId, .wcOldWidth, .wcSet, .widening], fifos := [.elog, .faceWrote, .viWrote], parts := [.buf,
      .coders, .greqs, .out, .replay, .streams, .waiting] }

theorem linkCtrlWrite_in {F : Foot} (hF : Foot.linkCtrlWrite.le F = true) (st : Stamp) (p v : Nat) :
    (linkCtrlWrite st p v).In F := by
  unfold linkCtrlWrite
  repeat' first
      | (with_reducible first | exact all_nil_in | refine all_cons_in ?_ ?_ | refine look_in fun _ => ?_ | refine when_in ?_ | refine ite_in ?_ ?_ | refine forEach_in fun _ => ?_)
      | ((with_reducible refine put_in ?_); (· exact le_vars hF (by decide +kernel)))
      | ((with_reducible refine wr_in ?_ ?_); (· first | exact own_mem (show _ ∈ tabPORT by decide +kernel)); (· first | exact le_regs hF (show (Fam.port, _) ∈ _ by decide +kernel)))
      | ((with_reducible refine plainWrite_in ?_ _ _); (· first | exact fun fi m => le_regs hF ((show ∀ fi ∈ atOff (tabHDR ++ tabPORT) 0x108, (Fam.port, fi.1) ∈ Foot.linkCtrlWrite.regs by decide +kernel) fi m)))
      | ((with_reducible refine laneTrain_in ?_ ..); (· exact Foot.le_trans (Foot.le_of_runs (by decide +kernel)) hF))
      | ((with_reducible refine linkDown_in ?_ ..); (· exact Foot.le_trans (Foot.le_of_runs (by decide +kernel)) hF))
      | ((with_reducible refine retire_in ?_ ..); (· exact Foot.le_trans (Foot.le_of_runs (by decide +kernel)) hF))
      | split
      | dsimp only

def Foot.requestContain : Foot :=
  { parts := [.greqs] }

theorem requestContain_in {F : Foot} (hF : Foot.requestContain.le F = true) (st : Stamp) (pg : Pg) (d : Dom) :
    (requestContain st pg d).In F := by
  unfold requestContain
  repeat' first
      | ((with_reducible refine modGreqs_in ?_); (· exact le_parts hF (by decide +kernel)))
      | split
      | dsimp only

end Sys2Proof.Machine
end

