-- ==== Sys2Proof/Laws/FrameRoute.lean ====
section
/-! SUPPORT. What each update of Machine/Route.lean may touch. -/

namespace Sys2Proof.Machine

set_option Elab.async false
set_option linter.unusedTactic false
set_option linter.unreachableTactic false

def Foot.miss : Foot :=
  { regs := onFam .guard (errFields ++ fCnt ++ [.GUARD_ELOG_CTRL_LOST]) ++ onFam .route (errFields ++ fCnt) ++ onFam .face fCnt,
      cnts := [.guard, .route, .face], vars := [.elogSeq, .msixPend], fifos := [.elog, .faceWrote, .missLog, .viWrote], parts :=
      [.greqs, .out] }

theorem miss_in {F : Foot} (hF : Foot.miss.le F = true) (m : Miss) :
    (miss m).In F := by
  unfold miss
  repeat' first
      | (with_reducible first | exact all_nil_in | refine all_cons_in ?_ ?_ | refine look_in fun _ => ?_ | refine when_in ?_ | refine ite_in ?_ ?_ | refine forSome_in fun _ => ?_)
      | ((with_reducible refine push_in ?_); (· exact le_fifos hF (by decide +kernel)))
      | ((with_reducible refine emit_in ?_); (· exact le_parts hF (by decide +kernel)))
      | ((with_reducible refine bump_in ?_ ?_ ..); (· rfl); (· first | exact Foot.le_trans (F := Foot.counting .route) (by decide +kernel) hF))
      | ((with_reducible refine raise_in ?_ ?_ ..); (· rfl); (· first | exact Foot.le_trans (F := Foot.error .route) (by decide +kernel) hF))
      | ((with_reducible refine raiseAll_in ?_ ?_ ..); (· rfl); (· first | exact Foot.le_trans (F := Foot.error .route) (by decide +kernel) hF))
      | split
      | dsimp only

def Foot.countTransit : Foot :=
  { regs := onFam .route fCnt ++ onFam .face fCnt, cnts := [.route, .face], vars := [.msixPend], fifos := [.faceWrote, .viWrote],
      parts := [.out] }

theorem countTransit_in {F : Foot} (hF : Foot.countTransit.le F = true) (k : Nat) :
    (countTransit k).In F := by
  unfold countTransit
  repeat' first
      | (with_reducible first | exact all_nil_in | refine all_cons_in ?_ ?_ | refine look_in fun _ => ?_ | refine when_in ?_)
      | ((with_reducible refine bump_in ?_ ?_ ..); (· rfl); (· first | exact Foot.le_trans (F := Foot.counting .route) (by decide +kernel) hF))
      | split
      | dsimp only

def Foot.grantPlate : Foot :=
  { vars := [.arbLast] }

theorem grantPlate_in {F : Foot} (hF : Foot.grantPlate.le F = true) (st : Stamp) (u : Upd) (h_u : u.In F) :
    (grantPlate st u).In F := by
  unfold grantPlate
  repeat' first
      | (with_reducible first | exact all_nil_in | refine all_cons_in ?_ ?_)
      | with_reducible exact h_u
      | ((with_reducible refine put_in ?_); (· exact le_vars hF (by decide +kernel)))
      | (with_reducible refine onPath_in ?_)
      | split
      | dsimp only

def Foot.plateDiscard : Foot :=
  { regs := onFam .guard (errFields ++ fCnt ++ [.GUARD_ELOG_CTRL_LOST]) ++ onFam .route errFields ++ onFam .face fCnt, cnts :=
      [.guard, .face], vars := [.aerStamp, .elogSeq, .msixPend], fifos := [.elog, .faceWrote, .viWrote], parts := [.greqs, .out] }

theorem plateDiscard_in {F : Foot} (hF : Foot.plateDiscard.le F = true) (st : Stamp) :
    (plateDiscard st).In F := by
  unfold plateDiscard
  repeat' first
      | (with_reducible first | exact all_nil_in | refine all_cons_in ?_ ?_)
      | ((with_reducible refine raise_in ?_ ?_ ..); (· rfl); (· first | exact Foot.le_trans (F := Foot.error .route) (by decide +kernel) hF))
      | ((with_reducible refine tellDiscard_in ?_ ?_ _ _ _); (· exact le_parts hF (by decide +kernel)); (· exact le_vars hF (by decide +kernel)))
      | split
      | dsimp only

def Foot.plateStage : Foot :=
  { regs := onFam .guard (errFields ++ fCnt ++ [.GUARD_ELOG_CTRL_LOST]) ++ onFam .route errFields ++ onFam .face fCnt, cnts :=
      [.guard, .face], vars := [.aerStamp, .elogSeq, .msixPend, .plateAt, .plateDw, .plateHas], fifos := [.elog, .faceWrote,
      .viWrote], parts := [.greqs, .out] }

theorem plateStage_in {F : Foot} (hF : Foot.plateStage.le F = true) (st : Stamp) (k i d v : Nat) :
    (plateStage st k i d v).In F := by
  unfold plateStage
  repeat' first
      | (with_reducible first | exact all_nil_in | refine all_cons_in ?_ ?_ | refine look_in fun _ => ?_ | refine ite_in ?_ ?_)
      | ((with_reducible refine put_in ?_); (· exact le_vars hF (by decide +kernel)))
      | ((with_reducible refine plateDiscard_in ?_ ..); (· exact Foot.le_trans (Foot.le_of_runs (by decide +kernel)) hF))
      | split
      | dsimp only

def Foot.plateCommit : Foot :=
  { regs := onFam .guard (errFields ++ fCnt ++ [.GUARD_ELOG_CTRL_LOST]) ++ onFam .route (errFields ++ [.ROUTE_LIVE_SEL_P0_VERIFIED,
      .ROUTE_LIVE_SEL_P1_VERIFIED]) ++ onFam .face fCnt, cnts := [.guard, .face], vars := [.aerStamp, .elogSeq, .msixPend, .plate,
      .plateAt, .plateHas], fifos := [.elog, .faceWrote, .viWrote], parts := [.greqs, .out] }

theorem plateCommit_in {F : Foot} (hF : Foot.plateCommit.le F = true) (st : Stamp) (k i v : Nat) :
    (plateCommit st k i v).In F := by
  unfold plateCommit
  repeat' first
      | (with_reducible first | exact all_nil_in | refine all_cons_in ?_ ?_ | refine look_in fun _ => ?_ | refine ite_in ?_ ?_)
      | ((with_reducible refine put_in ?_); (· exact le_vars hF (by decide +kernel)))
      | ((with_reducible refine wr_in ?_ ?_); (· first | exact own_mem (show _ ∈ tabROUTE0 by decide +kernel)); (· first | exact le_regs hF (show (Fam.route, _) ∈ _ by decide +kernel)))
      | ((with_reducible refine plateDiscard_in ?_ ..); (· exact Foot.le_trans (Foot.le_of_runs (by decide +kernel)) hF))
      | (unfold plateVerFld; split)
      | split
      | dsimp only

def Foot.verifyCtrlWrite : Foot :=
  { regs := onFam .route [.ROUTE_VERIFY_CTRL_BUSY, .ROUTE_VERIFY_CTRL_STATUS], vars := [.sigStale, .verifySig] }

theorem verifyCtrlWrite_in {F : Foot} (hF : Foot.verifyCtrlWrite.le F = true) (v : Nat) :
    (verifyCtrlWrite v).In F := by
  unfold verifyCtrlWrite
  repeat' first
      | (with_reducible first | exact all_nil_in | refine all_cons_in ?_ ?_ | refine look_in fun _ => ?_ | refine when_in ?_ | refine ite_in ?_ ?_ | refine forBelow_in fun _ => ?_)
      | ((with_reducible refine put_in ?_); (· exact le_vars hF (by decide +kernel)))
      | ((with_reducible refine wr_in ?_ ?_); (· first | exact own_mem (show _ ∈ tabROUTE0 by decide +kernel)); (· first | exact le_regs hF (show (Fam.route, _) ∈ _ by decide +kernel)))
      | split
      | dsimp only

def Foot.verifyEnds : Foot :=
  { regs := onFam .guard (errFields ++ fCnt ++ [.GUARD_ELOG_CTRL_LOST]) ++ onFam .route (errFields ++ fCnt ++
      [.ROUTE_GEN_GENERATION, .ROUTE_LIVE_SEL_P0_VERIFIED, .ROUTE_LIVE_SEL_P1_VERIFIED, .ROUTE_VERIFY_CTRL_BUSY,
      .ROUTE_VERIFY_CTRL_INDEX, .ROUTE_VERIFY_CTRL_STATUS]) ++ onFam .face fCnt, cnts := [.guard, .route, .face], vars :=
      [.elogSeq, .msixPend], fifos := [.elog, .faceWrote, .viWrote], parts := [.greqs, .out] }

theorem verifyEnds_in {F : Foot} (hF : Foot.verifyEnds.le F = true) (k code index : Nat) :
    (verifyEnds k code index).In F := by
  unfold verifyEnds
  repeat' first
      | (with_reducible first | exact all_nil_in | refine all_cons_in ?_ ?_ | refine look_in fun _ => ?_ | refine ite_in ?_ ?_)
      | ((with_reducible refine wr_in ?_ ?_); (· first | exact hdr_mem rfl (by decide +kernel) | exact own_mem (show _ ∈ tabGUARD0 by decide +kernel) | exact own_mem (show _ ∈ tabROUTE0 by decide +kernel)); (· first | exact le_regs hF (show (Fam.face, _) ∈ _ by decide +kernel) | exact le_regs hF (show (Fam.guard, _) ∈ _ by decide +kernel) | exact le_regs hF (show (Fam.route, _) ∈ _ by decide +kernel)))
      | ((with_reducible refine bump_in ?_ ?_ ..); (· rfl); (· first | exact Foot.le_trans (F := Foot.counting .route) (by decide +kernel) hF))
      | ((with_reducible refine raise_in ?_ ?_ ..); (· rfl); (· first | exact Foot.le_trans (F := Foot.error .route) (by decide +kernel) hF))
      | (unfold plateVerFld; split)
      | split
      | dsimp only

def Foot.turnArm : Foot :=
  { regs := onFam .route [.ROUTE_TURN_CTRL_ARM, .ROUTE_TURN_CTRL_STATUS], vars := [.turnAt] }

theorem turnArm_in {F : Foot} (hF : Foot.turnArm.le F = true) (c : Nat) :
    (turnArm c).In F := by
  unfold turnArm
  repeat' first
      | (with_reducible first | exact all_nil_in | refine all_cons_in ?_ ?_)
      | ((with_reducible refine put_in ?_); (· exact le_vars hF (by decide +kernel)))
      | ((with_reducible refine wr_in ?_ ?_); (· first | exact own_mem (show _ ∈ tabROUTE0 by decide +kernel)); (· first | exact le_regs hF (show (Fam.route, _) ∈ _ by decide +kernel)))
      | split
      | dsimp only

def Foot.turnDisarm : Foot :=
  { regs := onFam .route [.ROUTE_TURN_CTRL_ARM, .ROUTE_TURN_CTRL_STATUS], vars := [.turnAt] }

theorem turnDisarm_in {F : Foot} (hF : Foot.turnDisarm.le F = true)  :
    (turnDisarm).In F := by
  unfold turnDisarm
  repeat' first
      | (with_reducible first | exact all_nil_in | refine all_cons_in ?_ ?_ | refine look_in fun _ => ?_ | refine when_in ?_)
      | ((with_reducible refine put_in ?_); (· exact le_vars hF (by decide +kernel)))
      | ((with_reducible refine wr_in ?_ ?_); (· first | exact own_mem (show _ ∈ tabROUTE0 by decide +kernel)); (· first | exact le_regs hF (show (Fam.route, _) ∈ _ by decide +kernel)))
      | split
      | dsimp only

def Foot.turnCtrlWrite : Foot :=
  { regs := onFam .route [.ROUTE_TURN_CTRL_ARM, .ROUTE_TURN_CTRL_STATUS], vars := [.turnAt] }

theorem turnCtrlWrite_in {F : Foot} (hF : Foot.turnCtrlWrite.le F = true) (v : Nat) :
    (turnCtrlWrite v).In F := by
  unfold turnCtrlWrite
  repeat' first
      | (with_reducible first | exact all_nil_in | refine all_cons_in ?_ ?_ | refine look_in fun _ => ?_ | refine when_in ?_ | refine ite_in ?_ ?_)
      | ((with_reducible refine wr_in ?_ ?_); (· first | exact own_mem (show _ ∈ tabROUTE0 by decide +kernel)); (· first | exact le_regs hF (show (Fam.route, _) ∈ _ by decide +kernel)))
      | ((with_reducible refine turnArm_in ?_ ..); (· exact Foot.le_trans (Foot.le_of_runs (by decide +kernel)) hF))
      | ((with_reducible refine turnDisarm_in ?_ ..); (· exact Foot.le_trans (Foot.le_of_runs (by decide +kernel)) hF))
      | split
      | dsimp only

def Foot.plateTurn : Foot :=
  { regs := onFam .route (fCnt ++ [.ROUTE_LIVE_SEL_GRACE_LEFT, .ROUTE_LIVE_SEL_LIVE, .ROUTE_LIVE_SEL_P0_STATE,
      .ROUTE_LIVE_SEL_P1_STATE, .ROUTE_TURN_CTRL_ARM, .ROUTE_TURN_CTRL_STATUS]) ++ onFam .face fCnt, cnts := [.route, .face], vars
      := [.liveSig, .msixPend, .turnAt], fifos := [.faceWrote, .viWrote], parts := [.out] }

theorem plateTurn_in {F : Foot} (hF : Foot.plateTurn.le F = true)  :
    (plateTurn).In F := by
  unfold plateTurn
  repeat' first
      | (with_reducible first | exact all_nil_in | refine all_cons_in ?_ ?_ | refine look_in fun _ => ?_ | refine forBelow_in fun _ => ?_)
      | ((with_reducible refine put_in ?_); (· exact le_vars hF (by decide +kernel)))
      | ((with_reducible refine wr_in ?_ ?_); (· first | exact hdr_mem rfl (by decide +kernel) | exact own_mem (show _ ∈ tabROUTE0 by decide +kernel)); (· first | exact le_regs hF (show (Fam.face, _) ∈ _ by decide +kernel) | exact le_regs hF (show (Fam.route, _) ∈ _ by decide +kernel)))
      | ((with_reducible refine bump_in ?_ ?_ ..); (· rfl); (· first | exact Foot.le_trans (F := Foot.counting .route) (by decide +kernel) hF))
      | (unfold plateStateFld; split)
      | split
      | dsimp only

def Foot.graceEnd : Foot :=
  { regs := onFam .route [.ROUTE_LIVE_SEL_GRACE_LEFT, .ROUTE_LIVE_SEL_P0_STATE, .ROUTE_LIVE_SEL_P0_VERIFIED,
      .ROUTE_LIVE_SEL_P1_STATE, .ROUTE_LIVE_SEL_P1_VERIFIED] }

theorem graceEnd_in {F : Foot} (hF : Foot.graceEnd.le F = true)  :
    (graceEnd).In F := by
  unfold graceEnd
  repeat' first
      | (with_reducible first | exact all_nil_in | refine all_cons_in ?_ ?_ | refine look_in fun _ => ?_ | refine when_in ?_ | refine forBelow_in fun _ => ?_)
      | ((with_reducible refine wr_in ?_ ?_); (· first | exact own_mem (show _ ∈ tabROUTE0 by decide +kernel)); (· first | exact le_regs hF (show (Fam.route, _) ∈ _ by decide +kernel)))
      | (unfold plateStateFld; split)
      | (unfold plateVerFld; split)
      | split
      | dsimp only

def Foot.graceTick : Foot :=
  { regs := onFam .route [.ROUTE_LIVE_SEL_GRACE_LEFT, .ROUTE_LIVE_SEL_P0_STATE, .ROUTE_LIVE_SEL_P0_VERIFIED,
      .ROUTE_LIVE_SEL_P1_STATE, .ROUTE_LIVE_SEL_P1_VERIFIED] }

theorem graceTick_in {F : Foot} (hF : Foot.graceTick.le F = true)  :
    (graceTick).In F := by
  unfold graceTick
  repeat' first
      | (with_reducible first | refine look_in fun _ => ?_ | refine when_in ?_ | refine ite_in ?_ ?_)
      | ((with_reducible refine wr_in ?_ ?_); (· first | exact own_mem (show _ ∈ tabROUTE0 by decide +kernel)); (· first | exact le_regs hF (show (Fam.route, _) ∈ _ by decide +kernel)))
      | ((with_reducible refine graceEnd_in ?_ ..); (· exact Foot.le_trans (Foot.le_of_runs (by decide +kernel)) hF))
      | split
      | dsimp only

def Foot.turnMissed : Foot :=
  { regs := onFam .guard (errFields ++ fCnt ++ [.GUARD_ELOG_CTRL_LOST]) ++ onFam .route (errFields ++ [.ROUTE_TURN_CTRL_ARM,
      .ROUTE_TURN_CTRL_STATUS]) ++ onFam .face fCnt, cnts := [.guard, .face], vars := [.elogSeq, .msixPend, .turnAt], fifos :=
      [.elog, .faceWrote, .viWrote], parts := [.greqs, .out] }

theorem turnMissed_in {F : Foot} (hF : Foot.turnMissed.le F = true)  :
    (turnMissed).In F := by
  unfold turnMissed
  repeat' first
      | (with_reducible first | exact all_nil_in | refine all_cons_in ?_ ?_)
      | ((with_reducible refine put_in ?_); (· exact le_vars hF (by decide +kernel)))
      | ((with_reducible refine wr_in ?_ ?_); (· first | exact hdr_mem rfl (by decide +kernel) | exact own_mem (show _ ∈ tabGUARD0 by decide +kernel) | exact own_mem (show _ ∈ tabROUTE0 by decide +kernel)); (· first | exact le_regs hF (show (Fam.face, _) ∈ _ by decide +kernel) | exact le_regs hF (show (Fam.guard, _) ∈ _ by decide +kernel) | exact le_regs hF (show (Fam.route, _) ∈ _ by decide +kernel)))
      | ((with_reducible refine raise_in ?_ ?_ ..); (· rfl); (· first | exact Foot.le_trans (F := Foot.error .route) (by decide +kernel) hF))
      | split
      | dsimp only

def Foot.routeSoftReset : Foot :=
  { regs := onFam .route [.ROUTE_LIVE_SEL_GRACE_LEFT, .ROUTE_LIVE_SEL_P0_STATE, .ROUTE_LIVE_SEL_P0_VERIFIED,
      .ROUTE_LIVE_SEL_P1_STATE, .ROUTE_LIVE_SEL_P1_VERIFIED, .ROUTE_TURN_CTRL_ARM, .ROUTE_VERIFY_CTRL_BUSY,
      .ROUTE_VERIFY_CTRL_INDEX, .ROUTE_VERIFY_CTRL_STATUS], vars := [.plateAt, .plateDw, .plateHas, .turnAt, .verifySig] }

theorem routeSoftReset_in {F : Foot} (hF : Foot.routeSoftReset.le F = true)  :
    (routeSoftReset).In F := by
  unfold routeSoftReset
  repeat' first
      | (with_reducible first | exact all_nil_in | refine all_cons_in ?_ ?_ | refine look_in fun _ => ?_)
      | ((with_reducible refine put_in ?_); (· exact le_vars hF (by decide +kernel)))
      | ((with_reducible refine clearIv_in ?_); (· exact le_vars hF (by decide +kernel)))
      | ((with_reducible refine wr_in ?_ ?_); (· first | exact own_mem (show _ ∈ tabROUTE0 by decide +kernel)); (· first | exact le_regs hF (show (Fam.route, _) ∈ _ by decide +kernel)))
      | ((with_reducible refine graceEnd_in ?_ ..); (· exact Foot.le_trans (Foot.le_of_runs (by decide +kernel)) hF))
      | (unfold plateVerFld; split)
      | split
      | dsimp only

def Foot.plateLoses : Foot :=
  { regs := onFam .guard (errFields ++ fCnt ++ [.GUARD_ELOG_CTRL_LOST]) ++ onFam .route (errFields ++ [.ROUTE_LIVE_SEL_P0_VERIFIED,
      .ROUTE_LIVE_SEL_P1_VERIFIED, .ROUTE_TURN_CTRL_ARM, .ROUTE_TURN_CTRL_STATUS]) ++ onFam .face fCnt, cnts := [.guard, .face],
      vars := [.elogSeq, .msixPend, .plate, .plateLost, .turnAt], fifos := [.elog, .faceWrote, .viWrote], parts := [.greqs, .out]
      }

theorem plateLoses_in {F : Foot} (hF : Foot.plateLoses.le F = true) (k : Nat) (is : List Nat) :
    (plateLoses k is).In F := by
  unfold plateLoses
  repeat' first
      | (with_reducible first | exact all_nil_in | refine all_cons_in ?_ ?_ | refine look_in fun _ => ?_ | refine ite_in ?_ ?_ | refine forEach_in fun _ => ?_)
      | ((with_reducible refine put_in ?_); (· exact le_vars hF (by decide +kernel)))
      | ((with_reducible refine wr_in ?_ ?_); (· first | exact hdr_mem rfl (by decide +kernel) | exact own_mem (show _ ∈ tabGUARD0 by decide +kernel) | exact own_mem (show _ ∈ tabROUTE0 by decide +kernel)); (· first | exact le_regs hF (show (Fam.face, _) ∈ _ by decide +kernel) | exact le_regs hF (show (Fam.guard, _) ∈ _ by decide +kernel) | exact le_regs hF (show (Fam.route, _) ∈ _ by decide +kernel)))
      | ((with_reducible refine raise_in ?_ ?_ ..); (· rfl); (· first | exact Foot.le_trans (F := Foot.error .route) (by decide +kernel) hF))
      | ((with_reducible refine turnDisarm_in ?_ ..); (· exact Foot.le_trans (Foot.le_of_runs (by decide +kernel)) hF))
      | (unfold plateVerFld; split)
      | split
      | dsimp only

def Foot.plateEcc : Foot :=
  { regs := onFam .guard (errFields ++ fCnt ++ [.GUARD_ELOG_CTRL_LOST]) ++ onFam .route (errFields ++ fCnt ++
      [.ROUTE_LIVE_SEL_P0_VERIFIED, .ROUTE_LIVE_SEL_P1_VERIFIED, .ROUTE_TURN_CTRL_ARM, .ROUTE_TURN_CTRL_STATUS]) ++ onFam .face
      fCnt, cnts := [.guard, .route, .face], vars := [.elogSeq, .msixPend, .plate, .plateLost, .turnAt], fifos := [.elog,
      .faceWrote, .viWrote], parts := [.greqs, .out] }

theorem plateEcc_in {F : Foot} (hF : Foot.plateEcc.le F = true) (k i : Nat) (e : PlateEcc) :
    (plateEcc k i e).In F := by
  unfold plateEcc
  repeat' first
      | (with_reducible first | exact skip_in | exact all_nil_in | refine all_cons_in ?_ ?_ | refine look_in fun _ => ?_ | refine ite_in ?_ ?_)
      | ((with_reducible refine put_in ?_); (· exact le_vars hF (by decide +kernel)))
      | ((with_reducible refine bump_in ?_ ?_ ..); (· rfl); (· first | exact Foot.le_trans (F := Foot.counting .route) (by decide +kernel) hF))
      | ((with_reducible refine raise_in ?_ ?_ ..); (· rfl); (· first | exact Foot.le_trans (F := Foot.error .route) (by decide +kernel) hF))
      | ((with_reducible refine plateLoses_in ?_ ..); (· exact Foot.le_trans (Foot.le_of_runs (by decide +kernel)) hF))
      | split
      | dsimp only

end Sys2Proof.Machine
end

