-- ==== Sys2Proof/Laws/FrameSched.lean ====
section
/-! SUPPORT. What each update of Machine/Sched.lean may touch. -/

namespace Sys2Proof.Machine

set_option Elab.async false
set_option linter.unusedTactic false
set_option linter.unreachableTactic false

def Foot.charge : Foot :=
  { regs := onFam .face fCnt ++ onFam .schedg fCnt, cnts := [.face, .schedg], vars := [.msixPend, .polAt, .polC, .polP], fifos :=
      [.faceWrote, .viWrote], parts := [.out] }

theorem charge_in {F : Foot} (hF : Foot.charge.le F = true) (n b c : Nat) (lossy : Bool) (k : Nat → Upd) (h_k : ∀ z0, (k z0).In F) :
    (charge n b c lossy k).In F := by
  unfold charge
  repeat' first
      | (with_reducible first | exact all_nil_in | refine all_cons_in ?_ ?_ | refine look_in fun _ => ?_ | refine ite_in ?_ ?_)
      | with_reducible exact h_k _
      | ((with_reducible refine put_in ?_); (· exact le_vars hF (by decide +kernel)))
      | ((with_reducible refine addCnt_in ?_ ?_ ..); (· rfl); (· first | exact Foot.le_trans (F := Foot.counting .schedg) (by decide +kernel) hF))
      | split
      | dsimp only

def Foot.polStageWrite : Foot :=
  { vars := [.polHas, .polStage] }

theorem polStageWrite_in {F : Foot} (hF : Foot.polStageWrite.le F = true) (st : Stamp) (r v : Nat) :
    (polStageWrite st r v).In F := by
  unfold polStageWrite
  repeat' first
      | (with_reducible first | exact all_nil_in | refine all_cons_in ?_ ?_ | refine look_in fun _ => ?_ | refine ite_in ?_ ?_)
      | ((with_reducible refine put_in ?_); (· exact le_vars hF (by decide +kernel)))
      | split
      | dsimp only

def Foot.polSelWrite : Foot :=
  { regs := onFam .schedg [.SCHED_POL_SEL_GO, .SCHED_POL_SEL_INDEX, .SCHED_POL_SEL_STATUS], vars := [.polAt, .polC, .polCbs,
      .polCir, .polCtl, .polHas, .polP, .polPbs, .polPir] }

theorem polSelWrite_in {F : Foot} (hF : Foot.polSelWrite.le F = true) (st : Stamp) (v : Nat) :
    (polSelWrite st v).In F := by
  unfold polSelWrite
  repeat' first
      | (with_reducible first | exact all_nil_in | refine all_cons_in ?_ ?_ | refine look_in fun _ => ?_ | refine when_in ?_ | refine ite_in ?_ ?_)
      | ((with_reducible refine put_in ?_); (· exact le_vars hF (by decide +kernel)))
      | ((with_reducible refine wrSt_in ?_ ?_); (· first | exact own_mem (show _ ∈ tabSCHEDG by decide +kernel)); (· first | exact le_regs hF (show (Fam.schedg, _) ∈ _ by decide +kernel)))
      | ((with_reducible refine plainWrite_in ?_ _ _); (· first | exact fun fi m => le_regs hF ((show ∀ fi ∈ atOff (tabHDR ++ tabSCHEDG) 0x600, (Fam.schedg, fi.1) ∈ Foot.polSelWrite.regs by decide +kernel) fi m)))
      | split
      | dsimp only

def Foot.refillBuckets : Foot :=
  { vars := [.polAt, .polC, .polP] }

theorem refillBuckets_in {F : Foot} (hF : Foot.refillBuckets.le F = true)  :
    (refillBuckets).In F := by
  unfold refillBuckets
  repeat' first
      | (with_reducible first | exact all_nil_in | refine all_cons_in ?_ ?_)
      | ((with_reducible refine clearIv_in ?_); (· exact le_vars hF (by decide +kernel)))
      | split
      | dsimp only

def Foot.hatchEntryWrite : Foot :=
  { regs := onFam .guard (errFields ++ fCnt ++ [.GUARD_ELOG_CTRL_LOST]) ++ onFam .face fCnt ++ onFam .sched (errFields ++
      [.SCHED_HATCH_A_DW1, .SCHED_HATCH_A_GATES, .SCHED_HATCH_A_PHASE, .SCHED_HATCH_A_RSV0, .SCHED_HATCH_B_DW1,
      .SCHED_HATCH_B_GATES, .SCHED_HATCH_B_PHASE, .SCHED_HATCH_B_RSV0, .SCHED_HATCH_STAT_A_VERIFIED,
      .SCHED_HATCH_STAT_B_VERIFIED]), cnts := [.guard, .face], vars := [.aerStamp, .elogSeq, .msixPend], fifos := [.elog,
      .faceWrote, .viWrote], parts := [.greqs, .out] }

theorem hatchEntryWrite_in {F : Foot} (hF : Foot.hatchEntryWrite.le F = true) (st : Stamp) (p l d k v : Nat) :
    (hatchEntryWrite st p l d k v).In F := by
  unfold hatchEntryWrite
  repeat' first
      | (with_reducible first | exact all_nil_in | refine all_cons_in ?_ ?_ | refine look_in fun _ => ?_ | refine ite_in ?_ ?_)
      | ((with_reducible refine wr_in ?_ ?_); (· first | exact hdr_mem rfl (by decide +kernel) | exact own_mem (show _ ∈ tabGUARD0 by decide +kernel) | exact own_mem (show _ ∈ tabSCHED by decide +kernel)); (· first | exact le_regs hF (show (Fam.face, _) ∈ _ by decide +kernel) | exact le_regs hF (show (Fam.guard, _) ∈ _ by decide +kernel) | exact le_regs hF (show (Fam.sched, _) ∈ _ by decide +kernel)))
      | ((with_reducible refine raise_in ?_ ?_ ..); (· rfl); (· first | exact Foot.le_trans (F := Foot.error .sched) (by decide +kernel) hF))
      | ((with_reducible refine tellDiscard_in ?_ ?_ _ _ _); (· exact le_parts hF (by decide +kernel)); (· exact le_vars hF (by decide +kernel)))
      | (unfold hatchDw1Fld; split)
      | (unfold hatchGatesFld; split)
      | (unfold hatchPhaseFld; split)
      | (unfold hatchRsvFld; split)
      | (unfold hatchVerFld; split)
      | split
      | dsimp only

def Foot.hatchLenWrite : Foot :=
  { regs := onFam .guard (errFields ++ fCnt ++ [.GUARD_ELOG_CTRL_LOST]) ++ onFam .face fCnt ++ onFam .sched (errFields ++
      [.SCHED_HATCH_LEN_COUNT_A, .SCHED_HATCH_LEN_COUNT_B, .SCHED_HATCH_STAT_A_VERIFIED, .SCHED_HATCH_STAT_B_VERIFIED]), cnts :=
      [.guard, .face], vars := [.aerStamp, .elogSeq, .msixPend], fifos := [.elog, .faceWrote, .viWrote], parts := [.greqs, .out] }

theorem hatchLenWrite_in {F : Foot} (hF : Foot.hatchLenWrite.le F = true) (st : Stamp) (p v : Nat) :
    (hatchLenWrite st p v).In F := by
  unfold hatchLenWrite
  repeat' first
      | (with_reducible first | exact all_nil_in | refine all_cons_in ?_ ?_ | refine look_in fun _ => ?_ | refine when_in ?_ | refine ite_in ?_ ?_ | refine forEach_in fun _ => ?_)
      | ((with_reducible refine wr_in ?_ ?_); (· first | exact hdr_mem rfl (by decide +kernel) | exact own_mem (show _ ∈ tabGUARD0 by decide +kernel) | exact own_mem (show _ ∈ tabSCHED by decide +kernel)); (· first | exact le_regs hF (show (Fam.face, _) ∈ _ by decide +kernel) | exact le_regs hF (show (Fam.guard, _) ∈ _ by decide +kernel) | exact le_regs hF (show (Fam.sched, _) ∈ _ by decide +kernel)))
      | ((with_reducible refine raise_in ?_ ?_ ..); (· rfl); (· first | exact Foot.le_trans (F := Foot.error .sched) (by decide +kernel) hF))
      | ((with_reducible refine tellDiscard_in ?_ ?_ _ _ _); (· exact le_parts hF (by decide +kernel)); (· exact le_vars hF (by decide +kernel)))
      | (unfold hatchCountFld; split)
      | (unfold hatchVerFld; split)
      | split
      | dsimp only

def Foot.hatchVerifyWrite : Foot :=
  { regs := onFam .sched [.SCHED_HATCH_VERIFY_BUSY, .SCHED_HATCH_VERIFY_GO, .SCHED_HATCH_VERIFY_INDEX, .SCHED_HATCH_VERIFY_LIST,
      .SCHED_HATCH_VERIFY_STATUS], vars := [.hatchSig, .hatchVer, .sigStale] }

theorem hatchVerifyWrite_in {F : Foot} (hF : Foot.hatchVerifyWrite.le F = true) (st : Stamp) (p v : Nat) :
    (hatchVerifyWrite st p v).In F := by
  unfold hatchVerifyWrite
  repeat' first
      | (with_reducible first | exact all_nil_in | refine all_cons_in ?_ ?_ | refine look_in fun _ => ?_ | refine when_in ?_ | refine ite_in ?_ ?_ | refine forBelow_in fun _ => ?_)
      | ((with_reducible refine put_in ?_); (· exact le_vars hF (by decide +kernel)))
      | ((with_reducible refine wr_in ?_ ?_); (· first | exact own_mem (show _ ∈ tabSCHED by decide +kernel)); (· first | exact le_regs hF (show (Fam.sched, _) ∈ _ by decide +kernel)))
      | ((with_reducible refine plainWrite_in ?_ _ _); (· first | exact fun fi m => le_regs hF ((show ∀ fi ∈ atOff (tabHDR ++ tabSCHED) 0x220, (Fam.sched, fi.1) ∈ Foot.hatchVerifyWrite.regs by decide +kernel) fi m)))
      | split
      | dsimp only

def Foot.hatchVerifyEnds : Foot :=
  { regs := onFam .guard (errFields ++ fCnt ++ [.GUARD_ELOG_CTRL_LOST]) ++ onFam .face fCnt ++ onFam .sched (errFields ++
      [.SCHED_HATCH_GEN_GENERATION, .SCHED_HATCH_STAT_A_VERIFIED, .SCHED_HATCH_STAT_B_VERIFIED, .SCHED_HATCH_VERIFY_BUSY,
      .SCHED_HATCH_VERIFY_INDEX, .SCHED_HATCH_VERIFY_STATUS]), cnts := [.guard, .face], vars := [.elogSeq, .msixPend], fifos :=
      [.elog, .faceWrote, .viWrote], parts := [.greqs, .out] }

theorem hatchVerifyEnds_in {F : Foot} (hF : Foot.hatchVerifyEnds.le F = true) (p code index : Nat) :
    (hatchVerifyEnds p code index).In F := by
  unfold hatchVerifyEnds
  repeat' first
      | (with_reducible first | exact all_nil_in | refine all_cons_in ?_ ?_ | refine look_in fun _ => ?_ | refine ite_in ?_ ?_)
      | ((with_reducible refine wr_in ?_ ?_); (· first | exact hdr_mem rfl (by decide +kernel) | exact own_mem (show _ ∈ tabGUARD0 by decide +kernel) | exact own_mem (show _ ∈ tabSCHED by decide +kernel)); (· first | exact le_regs hF (show (Fam.face, _) ∈ _ by decide +kernel) | exact le_regs hF (show (Fam.guard, _) ∈ _ by decide +kernel) | exact le_regs hF (show (Fam.sched, _) ∈ _ by decide +kernel)))
      | ((with_reducible refine raise_in ?_ ?_ ..); (· rfl); (· first | exact Foot.le_trans (F := Foot.error .sched) (by decide +kernel) hF))
      | (unfold hatchVerFld; split)
      | split
      | dsimp only

def Foot.hatchUnpend : Foot :=
  { regs := onFam .sched [.SCHED_HATCH_CTRL_ARM, .SCHED_HATCH_STAT_A_STATE, .SCHED_HATCH_STAT_B_STATE], vars := [.hatchAt,
      .hatchLate] }

theorem hatchUnpend_in {F : Foot} (hF : Foot.hatchUnpend.le F = true) (p : Nat) :
    (hatchUnpend p).In F := by
  unfold hatchUnpend
  repeat' first
      | (with_reducible first | exact all_nil_in | refine all_cons_in ?_ ?_ | refine look_in fun _ => ?_ | refine forSome_in fun _ => ?_)
      | ((with_reducible refine put_in ?_); (· exact le_vars hF (by decide +kernel)))
      | ((with_reducible refine wr_in ?_ ?_); (· first | exact own_mem (show _ ∈ tabSCHED by decide +kernel)); (· first | exact le_regs hF (show (Fam.sched, _) ∈ _ by decide +kernel)))
      | (unfold hatchStateFld; split)
      | split
      | dsimp only

def Foot.hatchReject : Foot :=
  { regs := onFam .guard (errFields ++ fCnt ++ [.GUARD_ELOG_CTRL_LOST]) ++ onFam .face fCnt ++ onFam .sched (errFields ++ fCnt ++
      [.SCHED_HATCH_CTRL_STATUS]), cnts := [.guard, .face, .sched], vars := [.elogSeq, .hatchAt, .hatchLate, .msixPend], fifos :=
      [.elog, .faceWrote, .viWrote], parts := [.greqs, .out] }

theorem hatchReject_in {F : Foot} (hF : Foot.hatchReject.le F = true) (p : Nat) :
    (hatchReject p).In F := by
  unfold hatchReject
  repeat' first
      | (with_reducible first | exact all_nil_in | refine all_cons_in ?_ ?_)
      | ((with_reducible refine put_in ?_); (· exact le_vars hF (by decide +kernel)))
      | ((with_reducible refine wr_in ?_ ?_); (· first | exact hdr_mem rfl (by decide +kernel) | exact own_mem (show _ ∈ tabGUARD0 by decide +kernel) | exact own_mem (show _ ∈ tabSCHED by decide +kernel)); (· first | exact le_regs hF (show (Fam.face, _) ∈ _ by decide +kernel) | exact le_regs hF (show (Fam.guard, _) ∈ _ by decide +kernel) | exact le_regs hF (show (Fam.sched, _) ∈ _ by decide +kernel)))
      | ((with_reducible refine bump_in ?_ ?_ ..); (· rfl); (· first | exact Foot.le_trans (F := Foot.counting .sched) (by decide +kernel) hF))
      | ((with_reducible refine raise_in ?_ ?_ ..); (· rfl); (· first | exact Foot.le_trans (F := Foot.error .sched) (by decide +kernel) hF))
      | split
      | dsimp only

def Foot.hatchArmFor : Foot :=
  { regs := onFam .guard (errFields ++ fCnt ++ [.GUARD_ELOG_CTRL_LOST]) ++ onFam .face fCnt ++ onFam .sched (errFields ++ fCnt ++
      [.SCHED_HATCH_CTRL_ARM, .SCHED_HATCH_CTRL_STATUS, .SCHED_HATCH_STAT_A_STATE, .SCHED_HATCH_STAT_B_STATE]), cnts := [.guard,
      .face, .sched], vars := [.elogSeq, .hatchAt, .hatchLate, .msixPend], fifos := [.elog, .faceWrote, .viWrote], parts :=
      [.greqs, .out] }

theorem hatchArmFor_in {F : Foot} (hF : Foot.hatchArmFor.le F = true) (p l : Nat) (c : Option Nat) :
    (hatchArmFor p l c).In F := by
  unfold hatchArmFor
  repeat' first
      | (with_reducible first | exact all_nil_in | refine all_cons_in ?_ ?_ | refine look_in fun _ => ?_ | refine ite_in ?_ ?_)
      | ((with_reducible refine put_in ?_); (· exact le_vars hF (by decide +kernel)))
      | ((with_reducible refine wr_in ?_ ?_); (· first | exact own_mem (show _ ∈ tabSCHED by decide +kernel)); (· first | exact le_regs hF (show (Fam.sched, _) ∈ _ by decide +kernel)))
      | ((with_reducible refine hatchReject_in ?_ ..); (· exact Foot.le_trans (Foot.le_of_runs (by decide +kernel)) hF))
      | ((with_reducible refine hatchUnpend_in ?_ ..); (· exact Foot.le_trans (Foot.le_of_runs (by decide +kernel)) hF))
      | (unfold hatchStateFld; split)
      | split
      | dsimp only

def Foot.hatchStart : Foot :=
  { regs := onFam .guard (errFields ++ fCnt ++ [.GUARD_ELOG_CTRL_LOST]) ++ onFam .face fCnt ++ onFam .sched (errFields ++ fCnt ++
      [.SCHED_HATCH_CTRL_ARM, .SCHED_HATCH_CTRL_STATUS, .SCHED_HATCH_START_CYCLE, .SCHED_HATCH_START_CYCLE_HI,
      .SCHED_HATCH_STAT_ACTIVE, .SCHED_HATCH_STAT_ANY_ACTIVE, .SCHED_HATCH_STAT_A_STATE, .SCHED_HATCH_STAT_A_VERIFIED,
      .SCHED_HATCH_STAT_B_STATE, .SCHED_HATCH_STAT_B_VERIFIED, .SCHED_HATCH_STAT_LATE]), cnts := [.guard, .face, .sched], vars :=
      [.elogSeq, .hatchAt, .hatchLate, .msixPend], fifos := [.elog, .faceWrote, .viWrote], parts := [.greqs, .out] }

theorem hatchStart_in {F : Foot} (hF : Foot.hatchStart.le F = true) (p c : Nat) (late : Bool) :
    (hatchStart p c late).In F := by
  unfold hatchStart
  repeat' first
      | (with_reducible first | exact all_nil_in | refine all_cons_in ?_ ?_ | refine look_in fun _ => ?_ | refine when_in ?_ | refine ite_in ?_ ?_ | refine forSome_in fun _ => ?_)
      | ((with_reducible refine put_in ?_); (· exact le_vars hF (by decide +kernel)))
      | ((with_reducible refine wr_in ?_ ?_); (· first | exact hdr_mem rfl (by decide +kernel) | exact own_mem (show _ ∈ tabGUARD0 by decide +kernel) | exact own_mem (show _ ∈ tabSCHED by decide +kernel)); (· first | exact le_regs hF (show (Fam.face, _) ∈ _ by decide +kernel) | exact le_regs hF (show (Fam.guard, _) ∈ _ by decide +kernel) | exact le_regs hF (show (Fam.sched, _) ∈ _ by decide +kernel)))
      | ((with_reducible refine bump_in ?_ ?_ ..); (· rfl); (· first | exact Foot.le_trans (F := Foot.counting .sched) (by decide +kernel) hF))
      | ((with_reducible refine raise_in ?_ ?_ ..); (· rfl); (· first | exact Foot.le_trans (F := Foot.error .sched) (by decide +kernel) hF))
      | (unfold hatchStateFld; split)
      | (unfold hatchVerFld; split)
      | split
      | dsimp only

def Foot.hatchBoundary : Foot :=
  { regs := onFam .guard (errFields ++ fCnt ++ [.GUARD_ELOG_CTRL_LOST]) ++ onFam .face fCnt ++ onFam .sched (errFields ++ fCnt ++
      [.SCHED_HATCH_CTRL_ARM, .SCHED_HATCH_CTRL_STATUS, .SCHED_HATCH_START_CYCLE, .SCHED_HATCH_START_CYCLE_HI,
      .SCHED_HATCH_STAT_ACTIVE, .SCHED_HATCH_STAT_ANY_ACTIVE, .SCHED_HATCH_STAT_A_STATE, .SCHED_HATCH_STAT_A_VERIFIED,
      .SCHED_HATCH_STAT_B_STATE, .SCHED_HATCH_STAT_B_VERIFIED, .SCHED_HATCH_STAT_ENTRY_NOW, .SCHED_HATCH_STAT_LATE]), cnts :=
      [.guard, .face, .sched], vars := [.elogSeq, .hatchAt, .hatchLate, .msixPend], fifos := [.elog, .faceWrote, .viWrote], parts
      := [.greqs, .out] }

theorem hatchBoundary_in {F : Foot} (hF : Foot.hatchBoundary.le F = true) (p c : Nat) (relock : Bool) :
    (hatchBoundary p c relock).In F := by
  unfold hatchBoundary
  repeat' first
      | (with_reducible first | exact all_nil_in | refine all_cons_in ?_ ?_ | refine look_in fun _ => ?_ | refine when_in ?_ | refine ite_in ?_ ?_)
      | ((with_reducible refine wr_in ?_ ?_); (· first | exact own_mem (show _ ∈ tabSCHED by decide +kernel)); (· first | exact le_regs hF (show (Fam.sched, _) ∈ _ by decide +kernel)))
      | ((with_reducible refine hatchReject_in ?_ ..); (· exact Foot.le_trans (Foot.le_of_runs (by decide +kernel)) hF))
      | ((with_reducible refine hatchStart_in ?_ ..); (· exact Foot.le_trans (Foot.le_of_runs (by decide +kernel)) hF))
      | split
      | dsimp only

def Foot.schedSoftReset : Foot :=
  { regs := onFam .sched [.SCHED_HATCH_CTRL_ARM, .SCHED_HATCH_STAT_A_STATE, .SCHED_HATCH_STAT_B_STATE, .SCHED_HATCH_VERIFY_BUSY,
      .SCHED_HATCH_VERIFY_INDEX, .SCHED_HATCH_VERIFY_STATUS], vars := [.hatchAt, .hatchLate, .hatchSig] }

theorem schedSoftReset_in {F : Foot} (hF : Foot.schedSoftReset.le F = true) (p : Nat) :
    (schedSoftReset p).In F := by
  unfold schedSoftReset
  repeat' first
      | (with_reducible first | exact all_nil_in | refine all_cons_in ?_ ?_)
      | ((with_reducible refine clearIv_in ?_); (· exact le_vars hF (by decide +kernel)))
      | ((with_reducible refine wr_in ?_ ?_); (· first | exact own_mem (show _ ∈ tabSCHED by decide +kernel)); (· first | exact le_regs hF (show (Fam.sched, _) ∈ _ by decide +kernel)))
      | ((with_reducible refine hatchUnpend_in ?_ ..); (· exact Foot.le_trans (Foot.le_of_runs (by decide +kernel)) hF))
      | split
      | dsimp only

def Foot.shaperAdvance : Foot :=
  { vars := [.cbsAt, .cbsCr] }

theorem shaperAdvance_in {F : Foot} (hF : Foot.shaperAdvance.le F = true) (p : Nat) :
    (shaperAdvance p).In F := by
  unfold shaperAdvance
  repeat' first
      | (with_reducible first | exact all_nil_in | refine all_cons_in ?_ ?_ | refine look_in fun _ => ?_ | refine forEach_in fun _ => ?_)
      | ((with_reducible refine put_in ?_); (· exact le_vars hF (by decide +kernel)))
      | split
      | dsimp only

end Sys2Proof.Machine
end

