-- ==== Sys2Proof/Laws/FrameSwitch.lean ====
section
/-! SUPPORT. What each update of Machine/Switch.lean may touch. -/

namespace Sys2Proof.Machine

set_option Elab.async false
set_option linter.unusedTactic false
set_option linter.unreachableTactic false

def Foot.proofWatch : Foot :=
  { regs := onFam .bridge [.BRIDGE_PROOF_WM_STAT_WM_CROSS_CNT, .BRIDGE_PROOF_WM_STAT_WM_EVENT, .BRIDGE_PROOF_WM_STAT_WM_LEVEL] }

theorem proofWatch_in {F : Foot} (hF : Foot.proofWatch.le F = true)  :
    (proofWatch).In F := by
  unfold proofWatch
  repeat' first
      | (with_reducible first | refine look_in fun _ => ?_)
      | ((with_reducible refine watch_in ?_ ?_ ?_ ?_ ?_ ?_ _ _ _); all_goals first | exact own_mem (by decide +kernel) | exact le_regs hF (by decide +kernel))
      | split
      | dsimp only

def Foot.lockRequest : Foot :=
  { regs := onFam .bridge (fCnt ++ [.BRIDGE_LOCK_STAT_HOLDER, .BRIDGE_LOCK_STAT_LOCKED]) ++ onFam .face fCnt, cnts := [.bridge,
      .face], vars := [.msixPend], fifos := [.faceWrote, .viWrote], parts := [.out] }

theorem lockRequest_in {F : Foot} (hF : Foot.lockRequest.le F = true) (p : Nat) (f : Frame) :
    (lockRequest p f).In F := by
  unfold lockRequest
  repeat' first
      | (with_reducible first | exact all_nil_in | refine all_cons_in ?_ ?_ | refine look_in fun _ => ?_ | refine when_in ?_ | refine ite_in ?_ ?_)
      | ((with_reducible refine wr_in ?_ ?_); (· first | exact hdr_mem rfl (by decide +kernel) | exact own_mem (show _ ∈ tabBRIDGE1 by decide +kernel)); (· first | exact le_regs hF (show (Fam.bridge, _) ∈ _ by decide +kernel) | exact le_regs hF (show (Fam.face, _) ∈ _ by decide +kernel)))
      | ((with_reducible refine bump_in ?_ ?_ ..); (· rfl); (· first | exact Foot.le_trans (F := Foot.counting .bridge) (by decide +kernel) hF))
      | split
      | dsimp only

def Foot.enqueue : Foot :=
  { regs := onFam .core (fCnt ++ [.CORE_WM_STAT_WM_CROSS_CNT, .CORE_WM_STAT_WM_EVENT, .CORE_WM_STAT_WM_LEVEL]) ++ onFam .bridge
      (fCnt ++ [.BRIDGE_LOCK_STAT_HOLDER, .BRIDGE_LOCK_STAT_LOCKED]) ++ onFam .face fCnt, cnts := [.core, .bridge, .face], vars :=
      [.cbsAt, .cbsCr, .msixPend], fifos := [.faceWrote, .viWrote], parts := [.buf, .out] }

theorem enqueue_in {F : Foot} (hF : Foot.enqueue.le F = true) (k : Pkt) :
    (enqueue k).In F := by
  unfold enqueue
  repeat' first
      | (with_reducible first | exact skip_in | exact all_nil_in | refine all_cons_in ?_ ?_ | refine look_in fun _ => ?_ | refine when_in ?_ | refine ite_in ?_ ?_ | refine forEach_in fun _ => ?_)
      | ((with_reducible refine modBuf_in ?_); (· exact le_parts hF (by decide +kernel)))
      | ((with_reducible refine emit_in ?_); (· exact le_parts hF (by decide +kernel)))
      | ((with_reducible refine addCnt_in ?_ ?_ ..); (· rfl); (· first | exact Foot.le_trans (F := Foot.counting .core) (by decide +kernel) hF))
      | ((with_reducible refine bump_in ?_ ?_ ..); (· rfl); (· first | exact Foot.le_trans (F := Foot.counting .core) (by decide +kernel) hF))
      | ((with_reducible refine coreWatch_in ?_ ..); (· exact Foot.le_trans (Foot.le_of_runs (by decide +kernel)) hF))
      | ((with_reducible refine lockRequest_in ?_ ..); (· exact Foot.le_trans (Foot.le_of_runs (by decide +kernel)) hF))
      | ((with_reducible refine shaperAdvance_in ?_ ..); (· exact Foot.le_trans (Foot.le_of_runs (by decide +kernel)) hF))
      | split
      | dsimp only

def Foot.takeProof : Foot :=
  { regs := onFam .bridge (fCnt ++ [.BRIDGE_PROOF_WM_STAT_WM_CROSS_CNT, .BRIDGE_PROOF_WM_STAT_WM_EVENT,
      .BRIDGE_PROOF_WM_STAT_WM_LEVEL]) ++ onFam .face fCnt, cnts := [.bridge, .face], vars := [.msixPend], fifos := [.faceWrote,
      .viWrote], parts := [.out, .streams] }

theorem takeProof_in {F : Foot} (hF : Foot.takeProof.le F = true) (k : Pkt) (cont : Pkt → Upd) (h_cont : ∀ z0, (cont z0).In F) :
    (takeProof k cont).In F := by
  unfold takeProof
  repeat' first
      | (with_reducible first | exact all_nil_in | refine all_cons_in ?_ ?_ | refine look_in fun _ => ?_)
      | with_reducible exact h_cont _
      | ((with_reducible refine putTx_in ?_); (· exact le_parts hF (by decide +kernel)))
      | ((with_reducible refine bump_in ?_ ?_ ..); (· rfl); (· first | exact Foot.le_trans (F := Foot.counting .bridge) (by decide +kernel) hF))
      | ((with_reducible refine proofWatch_in ?_ ..); (· exact Foot.le_trans (Foot.le_of_runs (by decide +kernel)) hF))
      | split
      | dsimp only

def Foot.lossyDropped : Foot :=
  { regs := onFam .core fCnt ++ onFam .bridge fCnt ++ onFam .face fCnt, cnts := [.core, .bridge, .face], vars := [.msixPend], fifos
      := [.faceWrote, .viWrote], parts := [.out] }

theorem lossyDropped_in {F : Foot} (hF : Foot.lossyDropped.le F = true) (k : Pkt) (q : Nat) :
    (lossyDropped k q).In F := by
  unfold lossyDropped
  repeat' first
      | (with_reducible first | exact skip_in | exact all_nil_in | refine all_cons_in ?_ ?_ | refine look_in fun _ => ?_ | refine when_in ?_ | refine forSome_in fun _ => ?_)
      | ((with_reducible refine bump_in ?_ ?_ ..); (· rfl); (· first | exact Foot.le_trans (F := Foot.counting .core) (by decide +kernel) hF | exact Foot.le_trans (F := Foot.counting .bridge) (by decide +kernel) hF))
      | split
      | dsimp only

def Foot.admitLossy : Foot :=
  { regs := onFam .core (fCnt ++ [.CORE_WM_STAT_WM_CROSS_CNT, .CORE_WM_STAT_WM_EVENT, .CORE_WM_STAT_WM_LEVEL]) ++ onFam .bridge
      (fCnt ++ [.BRIDGE_LOCK_STAT_HOLDER, .BRIDGE_LOCK_STAT_LOCKED]) ++ onFam .face fCnt, cnts := [.core, .bridge, .face], vars :=
      [.cbsAt, .cbsCr, .msixPend, .redAvg], fifos := [.faceWrote, .viWrote], parts := [.buf, .free, .out] }

theorem admitLossy_in {F : Foot} (hF : Foot.admitLossy.le F = true) (k : Pkt) (kept : List Copy) (l : List Copy) :
    (admitLossy k kept l).In F := by
  have hc : ∀ i, (bump (.core 0) i).In F := fun i => bump_in rfl (Foot.le_trans (by decide +kernel) hF) i
  induction l generalizing k kept with
  | nil =>
    unfold admitLossy
    exact ite_in skip_in (enqueue_in (Foot.le_trans (Foot.le_of_runs (by decide +kernel)) hF) _)
  | cons c rest ih =>
    unfold admitLossy
    split
    · with_reducible exact ih _ _
    · refine drawWord_in (le_parts hF (by decide +kernel)) fun w => look_in fun s => ?_
      extract_lets cls n used fits drop
      have hd : drop.In F := by
        with_reducible exact all_cons_in (lossyDropped_in (Foot.le_trans (Foot.le_of_runs (by decide +kernel)) hF) _ _) (all_cons_in (when_in (hc _)) (all_cons_in (ih _ _) all_nil_in))
      clear_value drop
      split
      · with_reducible exact ite_in (ih _ _) hd
      · extract_lets a lo hi act ect
        clear_value a
        have hp : ∀ i, (put .redAvg a i).In F := fun _ => put_in (le_vars hF (by decide +kernel))
        with_reducible exact all_cons_in (hp _) (all_cons_in (ite_in hd (ite_in (all_cons_in (hc _) (all_cons_in hd all_nil_in))
          (ite_in (all_cons_in (hc _) (all_cons_in (ih _ _) all_nil_in)) (ih _ _)))) all_nil_in)

def Foot.admitFrame : Foot :=
  { regs := onFam .guard (errFields ++ fCnt ++ [.GUARD_ELOG_CTRL_LOST]) ++ onFam .core (fCnt ++ [.CORE_WM_STAT_WM_CROSS_CNT,
      .CORE_WM_STAT_WM_EVENT, .CORE_WM_STAT_WM_LEVEL]) ++ onFam .bridge (fCnt ++ [.BRIDGE_LOCK_STAT_HOLDER,
      .BRIDGE_LOCK_STAT_LOCKED, .BRIDGE_PROOF_WM_STAT_WM_CROSS_CNT, .BRIDGE_PROOF_WM_STAT_WM_EVENT,
      .BRIDGE_PROOF_WM_STAT_WM_LEVEL]) ++ onFam .face fCnt, cnts := [.guard, .core, .bridge, .face], vars := [.cbsAt, .cbsCr,
      .elogSeq, .msixPend, .redAvg], fifos := [.elog, .faceWrote, .viWrote], parts := [.buf, .free, .greqs, .out, .streams] }

theorem admitFrame_in {F : Foot} (hF : Foot.admitFrame.le F = true) (k : Pkt) :
    (admitFrame k).In F := by
  unfold admitFrame
  repeat' first
      | (with_reducible first | exact skip_in | exact all_nil_in | refine all_cons_in ?_ ?_ | refine look_in fun _ => ?_ | refine when_in ?_ | refine ite_in ?_ ?_ | refine forEach_in fun _ => ?_)
      | ((with_reducible refine bump_in ?_ ?_ ..); (· rfl); (· first | exact Foot.le_trans (F := Foot.counting .bridge) (by decide +kernel) hF | exact Foot.le_trans (F := Foot.counting .core) (by decide +kernel) hF))
      | ((with_reducible refine admitLossy_in ?_ ..); (· exact Foot.le_trans (Foot.le_of_runs (by decide +kernel)) hF))
      | ((with_reducible refine enqueue_in ?_ ..); (· exact Foot.le_trans (Foot.le_of_runs (by decide +kernel)) hF))
      | ((with_reducible refine lossyDropped_in ?_ ..); (· exact Foot.le_trans (Foot.le_of_runs (by decide +kernel)) hF))
      | ((with_reducible refine takeProof_in ?_ _ _ (fun _ => ?_)); (· exact Foot.le_trans (Foot.le_of_runs (by decide +kernel)) hF); skip)
      | ((with_reducible refine unretainedLoss_in ?_ ..); (· exact Foot.le_trans (Foot.le_of_runs (by decide +kernel)) hF))
      | split
      | dsimp only

def Foot.tryAdmit : Foot :=
  { regs := onFam .guard (errFields ++ fCnt ++ [.GUARD_ELOG_CTRL_LOST]) ++ onFam .core (fCnt ++ [.CORE_WM_STAT_WM_CROSS_CNT,
      .CORE_WM_STAT_WM_EVENT, .CORE_WM_STAT_WM_LEVEL]) ++ onFam .bridge (errFields ++ fCnt ++ [.BRIDGE_LOCK_STAT_HOLDER,
      .BRIDGE_LOCK_STAT_LOCKED, .BRIDGE_PROOF_WM_STAT_WM_CROSS_CNT, .BRIDGE_PROOF_WM_STAT_WM_EVENT,
      .BRIDGE_PROOF_WM_STAT_WM_LEVEL]) ++ onFam .face fCnt, cnts := [.guard, .core, .bridge, .face], vars := [.cbsAt, .cbsCr,
      .elogSeq, .msixPend, .redAvg], fifos := [.elog, .faceWrote, .viWrote], parts := [.buf, .free, .greqs, .out, .streams,
      .waiting] }

theorem tryAdmit_in {F : Foot} (hF : Foot.tryAdmit.le F = true) (k : Pkt) :
    (tryAdmit k).In F := by
  unfold tryAdmit
  repeat' first
      | (with_reducible first | exact all_nil_in | refine all_cons_in ?_ ?_ | refine look_in fun _ => ?_ | refine when_in ?_)
      | ((with_reducible refine modWaiting_in ?_); (· exact le_parts hF (by decide +kernel)))
      | ((with_reducible refine raise_in ?_ ?_ ..); (· rfl); (· first | exact Foot.le_trans (F := Foot.error .bridge) (by decide +kernel) hF))
      | ((with_reducible refine admitFrame_in ?_ ..); (· exact Foot.le_trans (Foot.le_of_runs (by decide +kernel)) hF))
      | split
      | dsimp only

def Foot.sample : Foot :=
  { regs := onFam .guard (errFields ++ fCnt ++ [.GUARD_ELOG_CTRL_LOST]) ++ onFam .core (fCnt ++ [.CORE_WM_STAT_WM_CROSS_CNT,
      .CORE_WM_STAT_WM_EVENT, .CORE_WM_STAT_WM_LEVEL]) ++ onFam .route (errFields ++ fCnt) ++ onFam .bridge (errFields ++ fCnt ++
      [.BRIDGE_LOCK_STAT_HOLDER, .BRIDGE_LOCK_STAT_LOCKED, .BRIDGE_PROOF_WM_STAT_WM_CROSS_CNT, .BRIDGE_PROOF_WM_STAT_WM_EVENT,
      .BRIDGE_PROOF_WM_STAT_WM_LEVEL]) ++ onFam .face fCnt, cnts := [.guard, .core, .route, .bridge, .face], vars := [.cbsAt,
      .cbsCr, .elogSeq, .msixPend, .pktId, .redAvg, .stipSeq], fifos := [.elog, .faceWrote, .missLog, .viWrote], parts := [.buf,
      .free, .greqs, .out, .streams, .waiting] }

theorem sample_in {F : Foot} (hF : Foot.sample.le F = true) (m port point : Nat) (k : Pkt) (size : Nat) :
    (sample m port point k size).In F := by
  unfold sample
  repeat' first
      | (with_reducible first | exact all_nil_in | refine all_cons_in ?_ ?_ | refine look_in fun _ => ?_ | refine ite_in ?_ ?_)
      | ((with_reducible refine put_in ?_); (· exact le_vars hF (by decide +kernel)))
      | ((with_reducible refine modWaiting_in ?_); (· exact le_parts hF (by decide +kernel)))
      | ((with_reducible refine bump_in ?_ ?_ ..); (· rfl); (· first | exact Foot.le_trans (F := Foot.counting .core) (by decide +kernel) hF))
      | ((with_reducible refine miss_in ?_ ..); (· exact Foot.le_trans (Foot.le_of_runs (by decide +kernel)) hF))
      | ((with_reducible refine tryAdmit_in ?_ ..); (· exact Foot.le_trans (Foot.le_of_runs (by decide +kernel)) hF))
      | split
      | dsimp only

def Foot.sendSamples : Foot :=
  { regs := onFam .guard (errFields ++ fCnt ++ [.GUARD_ELOG_CTRL_LOST]) ++ onFam .core (fCnt ++ [.CORE_WM_STAT_WM_CROSS_CNT,
      .CORE_WM_STAT_WM_EVENT, .CORE_WM_STAT_WM_LEVEL]) ++ onFam .bridge (errFields ++ fCnt ++ [.BRIDGE_LOCK_STAT_HOLDER,
      .BRIDGE_LOCK_STAT_LOCKED, .BRIDGE_PROOF_WM_STAT_WM_CROSS_CNT, .BRIDGE_PROOF_WM_STAT_WM_EVENT,
      .BRIDGE_PROOF_WM_STAT_WM_LEVEL]) ++ onFam .face fCnt, cnts := [.guard, .core, .bridge, .face], vars := [.cbsAt, .cbsCr,
      .elogSeq, .msixPend, .redAvg], fifos := [.elog, .faceWrote, .viWrote], parts := [.buf, .free, .greqs, .out, .streams,
      .waiting] }

theorem sendSamples_in {F : Foot} (hF : Foot.sendSamples.le F = true) (id : Nat) :
    (sendSamples id).In F := by
  unfold sendSamples
  repeat' first
      | (with_reducible first | exact all_nil_in | refine all_cons_in ?_ ?_ | refine look_in fun _ => ?_ | refine forEach_in fun _ => ?_)
      | ((with_reducible refine modWaiting_in ?_); (· exact le_parts hF (by decide +kernel)))
      | ((with_reducible refine tryAdmit_in ?_ ..); (· exact Foot.le_trans (Foot.le_of_runs (by decide +kernel)) hF))
      | split
      | dsimp only

def Foot.sampleAt : Foot :=
  { regs := onFam .guard (errFields ++ fCnt ++ [.GUARD_ELOG_CTRL_LOST]) ++ onFam .core (fCnt ++ [.CORE_WM_STAT_WM_CROSS_CNT,
      .CORE_WM_STAT_WM_EVENT, .CORE_WM_STAT_WM_LEVEL]) ++ onFam .route (errFields ++ fCnt) ++ onFam .bridge (errFields ++ fCnt ++
      [.BRIDGE_LOCK_STAT_HOLDER, .BRIDGE_LOCK_STAT_LOCKED, .BRIDGE_PROOF_WM_STAT_WM_CROSS_CNT, .BRIDGE_PROOF_WM_STAT_WM_EVENT,
      .BRIDGE_PROOF_WM_STAT_WM_LEVEL]) ++ onFam .face fCnt, cnts := [.guard, .core, .route, .bridge, .face], vars := [.cbsAt,
      .cbsCr, .elogSeq, .msixPend, .pktId, .redAvg, .stipCnt, .stipSeq], fifos := [.elog, .faceWrote, .missLog, .viWrote], parts
      := [.buf, .free, .greqs, .out, .streams, .waiting] }

theorem sampleAt_in {F : Foot} (hF : Foot.sampleAt.le F = true) (port point : Nat) (k : Pkt) (size : Nat) :
    (sampleAt port point k size).In F := by
  unfold sampleAt
  repeat' first
      | (with_reducible first | exact all_nil_in | refine all_cons_in ?_ ?_ | refine look_in fun _ => ?_ | refine when_in ?_ | refine ite_in ?_ ?_ | refine forBelow_in fun _ => ?_)
      | ((with_reducible refine put_in ?_); (· exact le_vars hF (by decide +kernel)))
      | ((with_reducible refine drawWord_in ?_ fun _ => ?_); (· exact le_parts hF (by decide +kernel)); skip)
      | ((with_reducible refine sample_in ?_ ..); (· exact Foot.le_trans (Foot.le_of_runs (by decide +kernel)) hF))
      | split
      | dsimp only

def Foot.step4 : Foot :=
  { regs := onFam .guard (errFields ++ fCnt ++ [.GUARD_ELOG_CTRL_LOST]) ++ onFam .core (fCnt ++ [.CORE_WM_STAT_WM_CROSS_CNT,
      .CORE_WM_STAT_WM_EVENT, .CORE_WM_STAT_WM_LEVEL]) ++ onFam .route (errFields ++ fCnt) ++ onFam .bridge (errFields ++ fCnt ++
      [.BRIDGE_LOCK_STAT_HOLDER, .BRIDGE_LOCK_STAT_LOCKED, .BRIDGE_PROOF_WM_STAT_WM_CROSS_CNT, .BRIDGE_PROOF_WM_STAT_WM_EVENT,
      .BRIDGE_PROOF_WM_STAT_WM_LEVEL]) ++ onFam .face fCnt, cnts := [.guard, .core, .route, .bridge, .face], vars := [.cbsAt,
      .cbsCr, .elogSeq, .msixPend, .pktId, .redAvg, .stipCnt, .stipSeq], fifos := [.elog, .faceWrote, .missLog, .viWrote], parts
      := [.buf, .free, .greqs, .out, .streams, .waiting] }

theorem step4_in {F : Foot} (hF : Foot.step4.le F = true) (k : Pkt) :
    (step4 k).In F := by
  unfold step4
  repeat' first
      | (with_reducible first | exact skip_in | exact all_nil_in | refine all_cons_in ?_ ?_ | refine look_in fun _ => ?_)
      | ((with_reducible refine sampleAt_in ?_ ..); (· exact Foot.le_trans (Foot.le_of_runs (by decide +kernel)) hF))
      | ((with_reducible refine tryAdmit_in ?_ ..); (· exact Foot.le_trans (Foot.le_of_runs (by decide +kernel)) hF))
      | split
      | dsimp only

def Foot.police : Foot :=
  { regs := onFam .guard (errFields ++ fCnt ++ [.GUARD_ELOG_CTRL_LOST]) ++ onFam .core (fCnt ++ [.CORE_WM_STAT_WM_CROSS_CNT,
      .CORE_WM_STAT_WM_EVENT, .CORE_WM_STAT_WM_LEVEL]) ++ onFam .route (errFields ++ fCnt) ++ onFam .bridge (errFields ++ fCnt ++
      [.BRIDGE_LOCK_STAT_HOLDER, .BRIDGE_LOCK_STAT_LOCKED, .BRIDGE_PROOF_WM_STAT_WM_CROSS_CNT, .BRIDGE_PROOF_WM_STAT_WM_EVENT,
      .BRIDGE_PROOF_WM_STAT_WM_LEVEL]) ++ onFam .face fCnt ++ onFam .schedg fCnt, cnts := [.guard, .core, .route, .bridge, .face,
      .schedg], vars := [.cbsAt, .cbsCr, .elogSeq, .msixPend, .pktId, .polAt, .polC, .polP, .redAvg, .stipCnt, .stipSeq], fifos :=
      [.elog, .faceWrote, .missLog, .viWrote], parts := [.buf, .free, .greqs, .out, .streams, .waiting] }

theorem police_in {F : Foot} (hF : Foot.police.le F = true) (k : Pkt) :
    (police k).In F := by
  unfold police
  repeat' first
      | (with_reducible first | exact skip_in | refine look_in fun _ => ?_ | refine ite_in ?_ ?_)
      | ((with_reducible refine modWaiting_in ?_); (· exact le_parts hF (by decide +kernel)))
      | ((with_reducible refine charge_in ?_ _ _ _ _ _ (fun _ => ?_)); (· exact Foot.le_trans (Foot.le_of_runs (by decide +kernel)) hF); skip)
      | ((with_reducible refine step4_in ?_ ..); (· exact Foot.le_trans (Foot.le_of_runs (by decide +kernel)) hF))
      | split
      | dsimp only

def Foot.offer : Foot :=
  { regs := onFam .guard (errFields ++ fCnt ++ [.GUARD_ELOG_CTRL_LOST]) ++ onFam .core (fCnt ++ [.CORE_WM_STAT_WM_CROSS_CNT,
      .CORE_WM_STAT_WM_EVENT, .CORE_WM_STAT_WM_LEVEL]) ++ onFam .route (errFields ++ fCnt) ++ onFam .bridge (errFields ++ fCnt ++
      [.BRIDGE_LOCK_STAT_HOLDER, .BRIDGE_LOCK_STAT_LOCKED, .BRIDGE_PROOF_WM_STAT_WM_CROSS_CNT, .BRIDGE_PROOF_WM_STAT_WM_EVENT,
      .BRIDGE_PROOF_WM_STAT_WM_LEVEL]) ++ onFam .face fCnt ++ onFam .schedg fCnt, cnts := [.guard, .core, .route, .bridge, .face,
      .schedg], vars := [.cbsAt, .cbsCr, .elogSeq, .msixPend, .pktId, .polAt, .polC, .polP, .redAvg, .stipCnt, .stipSeq], fifos :=
      [.elog, .faceWrote, .missLog, .viWrote], parts := [.buf, .free, .greqs, .out, .streams, .waiting] }

theorem offer_in {F : Foot} (hF : Foot.offer.le F = true) (ing : Ing) (f : Frame) (dsts : List Dst) (vi : Option Nat) (tailIn : Bool) :
    (offer ing f dsts vi tailIn).In F := by
  unfold offer
  repeat' first
      | (with_reducible first | exact all_nil_in | refine all_cons_in ?_ ?_ | refine look_in fun _ => ?_)
      | ((with_reducible refine put_in ?_); (· exact le_vars hF (by decide +kernel)))
      | ((with_reducible refine police_in ?_ ..); (· exact Foot.le_trans (Foot.le_of_runs (by decide +kernel)) hF))
      | split
      | dsimp only

def Foot.sendInner : Foot :=
  { regs := onFam .guard (errFields ++ fCnt ++ [.GUARD_ELOG_CTRL_LOST]) ++ onFam .core (fCnt ++ [.CORE_WM_STAT_WM_CROSS_CNT,
      .CORE_WM_STAT_WM_EVENT, .CORE_WM_STAT_WM_LEVEL]) ++ onFam .route (errFields ++ fCnt) ++ onFam .bridge (errFields ++ fCnt ++
      [.BRIDGE_LOCK_STAT_HOLDER, .BRIDGE_LOCK_STAT_LOCKED, .BRIDGE_PROOF_WM_STAT_WM_CROSS_CNT, .BRIDGE_PROOF_WM_STAT_WM_EVENT,
      .BRIDGE_PROOF_WM_STAT_WM_LEVEL]) ++ onFam .face fCnt ++ onFam .schedg fCnt, cnts := [.guard, .core, .route, .bridge, .face,
      .schedg], vars := [.cbsAt, .cbsCr, .elogSeq, .msixPend, .pktId, .polAt, .polC, .polP, .redAvg, .stipCnt, .stipSeq], fifos :=
      [.elog, .faceWrote, .missLog, .viWrote], parts := [.buf, .free, .greqs, .out, .streams, .waiting] }

theorem sendInner_in {F : Foot} (hF : Foot.sendInner.le F = true) (ing : Ing) (f : Frame) (vi : Option Nat) :
    (sendInner ing f vi).In F := by
  unfold sendInner
  repeat' first
      | (with_reducible first | exact all_nil_in | refine all_cons_in ?_ ?_ | refine look_in fun _ => ?_)
      | ((with_reducible refine bump_in ?_ ?_ ..); (· rfl); (· first | exact Foot.le_trans (F := Foot.counting .route) (by decide +kernel) hF))
      | ((with_reducible refine miss_in ?_ ..); (· exact Foot.le_trans (Foot.le_of_runs (by decide +kernel)) hF))
      | ((with_reducible refine offer_in ?_ ..); (· exact Foot.le_trans (Foot.le_of_runs (by decide +kernel)) hF))
      | split
      | dsimp only

def Foot.sendOnLink : Foot :=
  { regs := onFam .guard (errFields ++ fCnt ++ [.GUARD_ELOG_CTRL_LOST]) ++ onFam .core (fCnt ++ [.CORE_WM_STAT_WM_CROSS_CNT,
      .CORE_WM_STAT_WM_EVENT, .CORE_WM_STAT_WM_LEVEL]) ++ onFam .route (errFields ++ fCnt) ++ onFam .bridge (errFields ++ fCnt ++
      [.BRIDGE_LOCK_STAT_HOLDER, .BRIDGE_LOCK_STAT_LOCKED, .BRIDGE_PROOF_WM_STAT_WM_CROSS_CNT, .BRIDGE_PROOF_WM_STAT_WM_EVENT,
      .BRIDGE_PROOF_WM_STAT_WM_LEVEL]) ++ onFam .face fCnt ++ onFam .schedg fCnt, cnts := [.guard, .core, .route, .bridge, .face,
      .schedg], vars := [.cbsAt, .cbsCr, .elogSeq, .msixPend, .pktId, .polAt, .polC, .polP, .redAvg, .stipCnt, .stipSeq], fifos :=
      [.elog, .faceWrote, .missLog, .viWrote], parts := [.buf, .free, .greqs, .out, .streams, .waiting] }

theorem sendOnLink_in {F : Foot} (hF : Foot.sendOnLink.le F = true) (ing : Ing) (p : Nat) (f : Frame) :
    (sendOnLink ing p f).In F := by
  unfold sendOnLink
  repeat' first
      | ((with_reducible refine offer_in ?_ ..); (· exact Foot.le_trans (Foot.le_of_runs (by decide +kernel)) hF))
      | split
      | dsimp only

def Foot.policerHoldRelease : Foot :=
  { regs := onFam .guard (errFields ++ fCnt ++ [.GUARD_ELOG_CTRL_LOST]) ++ onFam .core (fCnt ++ [.CORE_WM_STAT_WM_CROSS_CNT,
      .CORE_WM_STAT_WM_EVENT, .CORE_WM_STAT_WM_LEVEL]) ++ onFam .route (errFields ++ fCnt) ++ onFam .bridge (errFields ++ fCnt ++
      [.BRIDGE_LOCK_STAT_HOLDER, .BRIDGE_LOCK_STAT_LOCKED, .BRIDGE_PROOF_WM_STAT_WM_CROSS_CNT, .BRIDGE_PROOF_WM_STAT_WM_EVENT,
      .BRIDGE_PROOF_WM_STAT_WM_LEVEL]) ++ onFam .face fCnt ++ onFam .schedg fCnt, cnts := [.guard, .core, .route, .bridge, .face,
      .schedg], vars := [.cbsAt, .cbsCr, .elogSeq, .msixPend, .pktId, .polAt, .polC, .polP, .redAvg, .stipCnt, .stipSeq], fifos :=
      [.elog, .faceWrote, .missLog, .viWrote], parts := [.buf, .free, .greqs, .out, .streams, .waiting] }

theorem policerHoldRelease_in {F : Foot} (hF : Foot.policerHoldRelease.le F = true) (id : Nat) :
    (policerHoldRelease id).In F := by
  unfold policerHoldRelease
  repeat' first
      | (with_reducible first | exact skip_in | exact all_nil_in | refine all_cons_in ?_ ?_ | refine look_in fun _ => ?_ | refine when_in ?_ | refine forSome_in fun _ => ?_)
      | ((with_reducible refine modWaiting_in ?_); (· exact le_parts hF (by decide +kernel)))
      | ((with_reducible refine charge_in ?_ _ _ _ _ _ (fun _ => ?_)); (· exact Foot.le_trans (Foot.le_of_runs (by decide +kernel)) hF); skip)
      | ((with_reducible refine step4_in ?_ ..); (· exact Foot.le_trans (Foot.le_of_runs (by decide +kernel)) hF))
      | split
      | dsimp only

def Foot.admissionResume : Foot :=
  { regs := onFam .guard (errFields ++ fCnt ++ [.GUARD_ELOG_CTRL_LOST]) ++ onFam .core (fCnt ++ [.CORE_WM_STAT_WM_CROSS_CNT,
      .CORE_WM_STAT_WM_EVENT, .CORE_WM_STAT_WM_LEVEL]) ++ onFam .bridge (errFields ++ fCnt ++ [.BRIDGE_LOCK_STAT_HOLDER,
      .BRIDGE_LOCK_STAT_LOCKED, .BRIDGE_PROOF_WM_STAT_WM_CROSS_CNT, .BRIDGE_PROOF_WM_STAT_WM_EVENT,
      .BRIDGE_PROOF_WM_STAT_WM_LEVEL]) ++ onFam .face fCnt, cnts := [.guard, .core, .bridge, .face], vars := [.cbsAt, .cbsCr,
      .elogSeq, .msixPend, .redAvg], fifos := [.elog, .faceWrote, .viWrote], parts := [.buf, .free, .greqs, .out, .streams,
      .waiting] }

theorem admissionResume_in {F : Foot} (hF : Foot.admissionResume.le F = true)  :
    (admissionResume).In F := by
  unfold admissionResume
  repeat' first
      | (with_reducible first | exact all_nil_in | refine all_cons_in ?_ ?_ | refine look_in fun _ => ?_ | refine ite_in ?_ ?_ | refine forSome_in fun _ => ?_)
      | ((with_reducible refine modWaiting_in ?_); (· exact le_parts hF (by decide +kernel)))
      | ((with_reducible refine admitFrame_in ?_ ..); (· exact Foot.le_trans (Foot.le_of_runs (by decide +kernel)) hF))
      | ((with_reducible refine tryAdmit_in ?_ ..); (· exact Foot.le_trans (Foot.le_of_runs (by decide +kernel)) hF))
      | split
      | dsimp only

def Foot.mcGroupStage : Foot :=
  { vars := [.mcAt, .mcDw, .mcHas] }

theorem mcGroupStage_in {F : Foot} (hF : Foot.mcGroupStage.le F = true) (st : Stamp) (d v : Nat) :
    (mcGroupStage st d v).In F := by
  unfold mcGroupStage
  repeat' first
      | (with_reducible first | exact all_nil_in | refine all_cons_in ?_ ?_ | refine look_in fun _ => ?_ | refine when_in ?_ | refine ite_in ?_ ?_)
      | ((with_reducible refine put_in ?_); (· exact le_vars hF (by decide +kernel)))
      | split
      | dsimp only

def Foot.mcSelWrite : Foot :=
  { regs := onFam .core [.CORE_MC_SEL_GO, .CORE_MC_SEL_GROUP], vars := [.mcCtl, .mcHas, .mcMembers] }

theorem mcSelWrite_in {F : Foot} (hF : Foot.mcSelWrite.le F = true) (st : Stamp) (v : Nat) :
    (mcSelWrite st v).In F := by
  unfold mcSelWrite
  repeat' first
      | (with_reducible first | exact all_nil_in | refine all_cons_in ?_ ?_ | refine look_in fun _ => ?_ | refine when_in ?_ | refine ite_in ?_ ?_)
      | ((with_reducible refine put_in ?_); (· exact le_vars hF (by decide +kernel)))
      | ((with_reducible refine plainWrite_in ?_ _ _); (· first | exact fun fi m => le_regs hF ((show ∀ fi ∈ atOff (tabHDR ++ tabCORE0) 0x124, (Fam.core, fi.1) ∈ Foot.mcSelWrite.regs by decide +kernel) fi m)))
      | split
      | dsimp only

end Sys2Proof.Machine
end

