-- ==== Sys2Proof/Laws/FrameTags.lean ====
section
/-! SUPPORT. What each update of Machine/Tags.lean may touch. -/

namespace Sys2Proof.Machine

set_option Elab.async false
set_option linter.unusedTactic false
set_option linter.unreachableTactic false

def Foot.takeSlot : Foot :=
  { parts := [.slots] }

theorem takeSlot_in {F : Foot} (hF : Foot.takeSlot.le F = true) (x : Slot) :
    (takeSlot x).In F := by
  unfold takeSlot
  repeat' first
      | ((with_reducible refine modSlots_in ?_); (· exact le_parts hF (by decide +kernel)))
      | split
      | dsimp only

def Foot.freeSlot : Foot :=
  { vars := [.tagEp], parts := [.slots] }

theorem freeSlot_in {F : Foot} (hF : Foot.freeSlot.le F = true) (x : Slot) (flip : Bool) :
    (freeSlot x flip).In F := by
  unfold freeSlot
  repeat' first
      | (with_reducible first | exact all_nil_in | refine all_cons_in ?_ ?_ | refine look_in fun _ => ?_ | refine when_in ?_)
      | ((with_reducible refine put_in ?_); (· exact le_vars hF (by decide +kernel)))
      | ((with_reducible refine modSlots_in ?_); (· exact le_parts hF (by decide +kernel)))
      | split
      | dsimp only

def Foot.abandon : Foot :=
  { parts := [.slots] }

theorem abandon_in {F : Foot} (hF : Foot.abandon.le F = true) (p : Slot → Bool) :
    (abandon p).In F := by
  unfold abandon
  repeat' first
      | (with_reducible first | refine ite_in ?_ ?_)
      | ((with_reducible refine modSlots_in ?_); (· exact le_parts hF (by decide +kernel)))
      | split
      | dsimp only

def Foot.splitPrefetch : Foot :=
  { regs := onFam .bridge fCnt ++ onFam .face fCnt, cnts := [.bridge, .face], vars := [.msixPend], fifos := [.faceWrote, .viWrote],
      parts := [.out, .prefs, .slots] }

theorem splitPrefetch_in {F : Foot} (hF : Foot.splitPrefetch.le F = true) (x : Slot) (t : Tlp) (host : Tlp → Upd) (h_host : ∀ z0, (host z0).In F) :
    (splitPrefetch x t host).In F := by
  unfold splitPrefetch
  repeat' first
      | (with_reducible first | exact all_nil_in | refine all_cons_in ?_ ?_ | refine look_in fun _ => ?_ | refine when_in ?_ | refine ite_in ?_ ?_)
      | with_reducible exact h_host _
      | ((with_reducible refine modSlots_in ?_); (· exact le_parts hF (by decide +kernel)))
      | ((with_reducible refine modPrefs_in ?_); (· exact le_parts hF (by decide +kernel)))
      | ((with_reducible refine addCnt_in ?_ ?_ ..); (· rfl); (· first | exact Foot.le_trans (F := Foot.counting .bridge) (by decide +kernel) hF))
      | split
      | dsimp only

def Foot.onWire : Foot :=
  { vars := [.pcieSent], parts := [.out] }

theorem onWire_in {F : Foot} (hF : Foot.onWire.le F = true) (p rid addr : Nat) (o : Out) :
    (onWire p rid addr o).In F := by
  unfold onWire
  repeat' first
      | (with_reducible first | exact all_nil_in | refine all_cons_in ?_ ?_ | refine look_in fun _ => ?_ | refine forSome_in fun _ => ?_)
      | ((with_reducible refine modIv_in ?_); (· exact le_vars hF (by decide +kernel)))
      | ((with_reducible refine emit_in ?_); (· exact le_parts hF (by decide +kernel)))
      | split
      | dsimp only

def Foot.tlpSend : Foot :=
  { vars := [.pcieSent], parts := [.out] }

theorem tlpSend_in {F : Foot} (hF : Foot.tlpSend.le F = true) (p : Nat) (pasid : Option Nat) (f : Frame) :
    (tlpSend p pasid f).In F := by
  unfold tlpSend
  repeat' first
      | ((with_reducible refine onWire_in ?_ ..); (· exact Foot.le_trans (Foot.le_of_runs (by decide +kernel)) hF))
      | split
      | dsimp only

def Foot.selfCpl : Foot :=
  { vars := [.pcieSent], parts := [.out] }

theorem selfCpl_in {F : Foot} (hF : Foot.selfCpl.le F = true) (p : Nat) (stat : CplStat) (rid tag : Nat) :
    (selfCpl p stat rid tag).In F := by
  unfold selfCpl
  repeat' first
      | ((with_reducible refine onWire_in ?_ ..); (· exact Foot.le_trans (Foot.le_of_runs (by decide +kernel)) hF))
      | split
      | dsimp only

def Foot.faceCompletes : Foot :=
  { regs := onFam .guard (errFields ++ fCnt ++ [.GUARD_ELOG_CTRL_LOST]) ++ onFam .core (fCnt ++ [.CORE_WM_STAT_WM_CROSS_CNT,
      .CORE_WM_STAT_WM_EVENT, .CORE_WM_STAT_WM_LEVEL]) ++ onFam .route (errFields ++ fCnt) ++ onFam .bridge (errFields ++ fCnt ++
      [.BRIDGE_LOCK_STAT_HOLDER, .BRIDGE_LOCK_STAT_LOCKED, .BRIDGE_PROOF_WM_STAT_WM_CROSS_CNT, .BRIDGE_PROOF_WM_STAT_WM_EVENT,
      .BRIDGE_PROOF_WM_STAT_WM_LEVEL]) ++ onFam .face (errFields ++ fCnt) ++ onFam .schedg fCnt, cnts := [.guard, .core, .route,
      .bridge, .face, .schedg], vars := [.cbsAt, .cbsCr, .elogSeq, .lockDest, .msixPend, .pcieSent, .pktId, .polAt, .polC, .polP,
      .redAvg, .stipCnt, .stipSeq, .tagEp], fifos := [.elog, .faceWrote, .missLog, .viWrote], parts := [.buf, .free, .greqs, .out,
      .prefs, .slots, .streams, .waiting] }

theorem faceCompletes_in {F : Foot} (hF : Foot.faceCompletes.le F = true) (f : Nat) (req link : Bool) (tag : Nat) (ep : Bool) (t : Tlp) :
    (faceCompletes f req link tag ep t).In F := by
  unfold faceCompletes
  repeat' first
      | (with_reducible first | exact all_nil_in | refine all_cons_in ?_ ?_ | refine look_in fun _ => ?_ | refine when_in ?_ | refine ite_in ?_ ?_)
      | ((with_reducible refine put_in ?_); (· exact le_vars hF (by decide +kernel)))
      | ((with_reducible refine emit_in ?_); (· exact le_parts hF (by decide +kernel)))
      | ((with_reducible refine bump_in ?_ ?_ ..); (· rfl); (· first | exact Foot.le_trans (F := Foot.counting .face) (by decide +kernel) hF))
      | ((with_reducible refine raise_in ?_ ?_ ..); (· rfl); (· first | exact Foot.le_trans (F := Foot.error .face) (by decide +kernel) hF))
      | ((with_reducible refine freeSlot_in ?_ ..); (· exact Foot.le_trans (Foot.le_of_runs (by decide +kernel)) hF))
      | ((with_reducible refine miss_in ?_ ..); (· exact Foot.le_trans (Foot.le_of_runs (by decide +kernel)) hF))
      | ((with_reducible refine offer_in ?_ ..); (· exact Foot.le_trans (Foot.le_of_runs (by decide +kernel)) hF))
      | ((with_reducible refine splitPrefetch_in ?_ _ _ _ (fun _ => ?_)); (· exact Foot.le_trans (Foot.le_of_runs (by decide +kernel)) hF); skip)
      | ((with_reducible refine tlpSend_in ?_ ..); (· exact Foot.le_trans (Foot.le_of_runs (by decide +kernel)) hF))
      | (unfold faceCompletes.offerBack)
      | split
      | dsimp only

def Foot.answerNp : Foot :=
  { regs := onFam .guard (errFields ++ fCnt ++ [.GUARD_ELOG_CTRL_LOST]) ++ onFam .core (fCnt ++ [.CORE_WM_STAT_WM_CROSS_CNT,
      .CORE_WM_STAT_WM_EVENT, .CORE_WM_STAT_WM_LEVEL]) ++ onFam .route (errFields ++ fCnt) ++ onFam .bridge (errFields ++ fCnt ++
      [.BRIDGE_LOCK_STAT_HOLDER, .BRIDGE_LOCK_STAT_LOCKED, .BRIDGE_PROOF_WM_STAT_WM_CROSS_CNT, .BRIDGE_PROOF_WM_STAT_WM_EVENT,
      .BRIDGE_PROOF_WM_STAT_WM_LEVEL]) ++ onFam .face (errFields ++ fCnt) ++ onFam .schedg fCnt, cnts := [.guard, .core, .route,
      .bridge, .face, .schedg], vars := [.cbsAt, .cbsCr, .elogSeq, .lockDest, .msixPend, .pcieSent, .pktId, .polAt, .polC, .polP,
      .redAvg, .stipCnt, .stipSeq, .tagEp], fifos := [.elog, .faceWrote, .missLog, .viWrote], parts := [.buf, .free, .greqs, .out,
      .prefs, .slots, .streams, .waiting] }

theorem answerNp_in {F : Foot} (hF : Foot.answerNp.le F = true) (f : Frame) (stat : CplStat) :
    (answerNp f stat).In F := by
  unfold answerNp
  repeat' first
      | (with_reducible first | exact skip_in | refine look_in fun _ => ?_ | refine ite_in ?_ ?_ | refine forSome_in fun _ => ?_)
      | ((with_reducible refine faceCompletes_in ?_ ..); (· exact Foot.le_trans (Foot.le_of_runs (by decide +kernel)) hF))
      | ((with_reducible refine selfCpl_in ?_ ..); (· exact Foot.le_trans (Foot.le_of_runs (by decide +kernel)) hF))
      | ((with_reducible refine sendInner_in ?_ ..); (· exact Foot.le_trans (Foot.le_of_runs (by decide +kernel)) hF))
      | split
      | dsimp only

def Foot.answerUnreachable : Foot :=
  { regs := onFam .guard (errFields ++ fCnt ++ [.GUARD_ELOG_CTRL_LOST]) ++ onFam .core (fCnt ++ [.CORE_WM_STAT_WM_CROSS_CNT,
      .CORE_WM_STAT_WM_EVENT, .CORE_WM_STAT_WM_LEVEL]) ++ onFam .route (errFields ++ fCnt) ++ onFam .bridge (errFields ++ fCnt ++
      [.BRIDGE_LOCK_STAT_HOLDER, .BRIDGE_LOCK_STAT_LOCKED, .BRIDGE_PROOF_WM_STAT_WM_CROSS_CNT, .BRIDGE_PROOF_WM_STAT_WM_EVENT,
      .BRIDGE_PROOF_WM_STAT_WM_LEVEL]) ++ onFam .face (errFields ++ fCnt) ++ onFam .schedg fCnt, cnts := [.guard, .core, .route,
      .bridge, .face, .schedg], vars := [.cbsAt, .cbsCr, .elogSeq, .lockDest, .msixPend, .pcieSent, .pktId, .polAt, .polC, .polP,
      .redAvg, .stipCnt, .stipSeq, .tagEp], fifos := [.elog, .faceWrote, .missLog, .viWrote], parts := [.buf, .free, .greqs, .out,
      .prefs, .slots, .streams, .waiting] }

theorem answerUnreachable_in {F : Foot} (hF : Foot.answerUnreachable.le F = true) (f : Frame) :
    (answerUnreachable f).In F := by
  unfold answerUnreachable
  repeat' first
      | (with_reducible first | exact skip_in | exact all_nil_in | refine all_cons_in ?_ ?_ | refine look_in fun _ => ?_ | refine ite_in ?_ ?_)
      | ((with_reducible refine bump_in ?_ ?_ ..); (· rfl); (· first | exact Foot.le_trans (F := Foot.counting .guard) (by decide +kernel) hF))
      | ((with_reducible refine answerNp_in ?_ ..); (· exact Foot.le_trans (Foot.le_of_runs (by decide +kernel)) hF))
      | split
      | dsimp only

def Foot.refuseInReset : Foot :=
  { regs := onFam .guard (errFields ++ fCnt ++ [.GUARD_ELOG_CTRL_LOST]) ++ onFam .core (fCnt ++ [.CORE_WM_STAT_WM_CROSS_CNT,
      .CORE_WM_STAT_WM_EVENT, .CORE_WM_STAT_WM_LEVEL]) ++ onFam .route (errFields ++ fCnt) ++ onFam .bridge (errFields ++ fCnt ++
      [.BRIDGE_LOCK_STAT_HOLDER, .BRIDGE_LOCK_STAT_LOCKED, .BRIDGE_PROOF_WM_STAT_WM_CROSS_CNT, .BRIDGE_PROOF_WM_STAT_WM_EVENT,
      .BRIDGE_PROOF_WM_STAT_WM_LEVEL]) ++ onFam .face (errFields ++ fCnt) ++ onFam .schedg fCnt, cnts := [.guard, .core, .route,
      .bridge, .face, .schedg], vars := [.cbsAt, .cbsCr, .elogSeq, .lockDest, .msixPend, .pcieSent, .pktId, .polAt, .polC, .polP,
      .redAvg, .stipCnt, .stipSeq, .tagEp], fifos := [.elog, .faceWrote, .missLog, .viWrote], parts := [.buf, .free, .greqs, .out,
      .prefs, .slots, .streams, .waiting] }

theorem refuseInReset_in {F : Foot} (hF : Foot.refuseInReset.le F = true) (f : Nat) (g : Frame) :
    (refuseInReset f g).In F := by
  unfold refuseInReset
  repeat' first
      | (with_reducible first | exact all_nil_in | refine all_cons_in ?_ ?_ | refine when_in ?_)
      | ((with_reducible refine bump_in ?_ ?_ ..); (· rfl); (· first | exact Foot.le_trans (F := Foot.counting .face) (by decide +kernel) hF))
      | ((with_reducible refine raise_in ?_ ?_ ..); (· rfl); (· first | exact Foot.le_trans (F := Foot.error .face) (by decide +kernel) hF))
      | ((with_reducible refine answerNp_in ?_ ..); (· exact Foot.le_trans (Foot.le_of_runs (by decide +kernel)) hF))
      | split
      | dsimp only

def Foot.ideDrop : Foot :=
  { regs := onFam .sec (errFields ++ fCnt) ++ onFam .guard (errFields ++ fCnt ++ [.GUARD_ELOG_CTRL_LOST]) ++ onFam .face fCnt, cnts
      := [.sec, .guard, .face], vars := [.elogSeq, .msixPend], fifos := [.elog, .faceWrote, .viWrote], parts := [.greqs, .out] }

theorem ideDrop_in {F : Foot} (hF : Foot.ideDrop.le F = true) (p : Nat) :
    (ideDrop p).In F := by
  unfold ideDrop
  repeat' first
      | (with_reducible first | exact all_nil_in | refine all_cons_in ?_ ?_ | refine look_in fun _ => ?_)
      | ((with_reducible refine bump_in ?_ ?_ ..); (· rfl); (· first | exact Foot.le_trans (F := Foot.counting .sec) (by decide +kernel) hF))
      | ((with_reducible refine raiseIn_in ?_ ?_ ..); (· rfl); (· first | exact Foot.le_trans (F := Foot.error .sec) (by decide +kernel) hF))
      | split
      | dsimp only

def Foot.poisonDrop : Foot :=
  { regs := onFam .guard (errFields ++ fCnt ++ [.GUARD_ELOG_CTRL_LOST]) ++ onFam .face fCnt, cnts := [.guard, .face], vars :=
      [.elogSeq, .msixPend], fifos := [.elog, .faceWrote, .viWrote], parts := [.greqs, .out] }

theorem poisonDrop_in {F : Foot} (hF : Foot.poisonDrop.le F = true)  :
    (poisonDrop).In F := by
  unfold poisonDrop
  repeat' first
      | (with_reducible first | exact all_nil_in | refine all_cons_in ?_ ?_)
      | ((with_reducible refine bump_in ?_ ?_ ..); (· rfl); (· first | exact Foot.le_trans (F := Foot.counting .guard) (by decide +kernel) hF))
      | ((with_reducible refine raise_in ?_ ?_ ..); (· rfl); (· first | exact Foot.le_trans (F := Foot.error .guard) (by decide +kernel) hF))
      | split
      | dsimp only

def Foot.State_refusal : Foot :=
  { regs := onFam .sec (errFields ++ fCnt) ++ onFam .guard (errFields ++ fCnt ++ [.GUARD_ELOG_CTRL_LOST]) ++ onFam .core (fCnt ++
      [.CORE_WM_STAT_WM_CROSS_CNT, .CORE_WM_STAT_WM_EVENT, .CORE_WM_STAT_WM_LEVEL]) ++ onFam .route (errFields ++ fCnt) ++ onFam
      .bridge (errFields ++ fCnt ++ [.BRIDGE_LOCK_STAT_HOLDER, .BRIDGE_LOCK_STAT_LOCKED, .BRIDGE_PROOF_WM_STAT_WM_CROSS_CNT,
      .BRIDGE_PROOF_WM_STAT_WM_EVENT, .BRIDGE_PROOF_WM_STAT_WM_LEVEL]) ++ onFam .face (errFields ++ fCnt) ++ onFam .schedg fCnt,
      cnts := [.sec, .guard, .core, .route, .bridge, .face, .schedg], vars := [.cbsAt, .cbsCr, .elogSeq, .lockDest, .msixPend,
      .pcieSent, .pktId, .polAt, .polC, .polP, .redAvg, .stipCnt, .stipSeq, .tagEp], fifos := [.elog, .faceWrote, .missLog,
      .viWrote], parts := [.buf, .free, .greqs, .out, .prefs, .slots, .streams, .waiting] }

theorem State_refusal_in {F : Foot} (hF : Foot.State_refusal.le F = true) {s : State} {f : Frame} {d : Dst} {u : Upd} (h : State.refusal s f d = some u) :
    u.In F := by
  unfold State.refusal at h
  try dsimp only at h
  repeat' (first | split at h | dsimp only at h)
  all_goals
    first
      | cases h
      | skip
    try (repeat' first
      | (with_reducible first | exact all_nil_in | refine all_cons_in ?_ ?_ | refine when_in ?_ | refine ite_in ?_ ?_)
      | ((with_reducible refine answerNp_in ?_ ..); (· exact Foot.le_trans (Foot.le_of_runs (by decide +kernel)) hF))
      | ((with_reducible refine answerUnreachable_in ?_ ..); (· exact Foot.le_trans (Foot.le_of_runs (by decide +kernel)) hF))
      | ((with_reducible refine faceCompletes_in ?_ ..); (· exact Foot.le_trans (Foot.le_of_runs (by decide +kernel)) hF))
      | ((with_reducible refine ideDrop_in ?_ ..); (· exact Foot.le_trans (Foot.le_of_runs (by decide +kernel)) hF))
      | ((with_reducible refine poisonDrop_in ?_ ..); (· exact Foot.le_trans (Foot.le_of_runs (by decide +kernel)) hF))
      | ((with_reducible refine refuseInReset_in ?_ ..); (· exact Foot.le_trans (Foot.le_of_runs (by decide +kernel)) hF))
      | split
      | dsimp only)

def Foot.countIngress : Foot :=
  { regs := onFam .route fCnt ++ onFam .face fCnt, cnts := [.route, .face], vars := [.msixPend], fifos := [.faceWrote, .viWrote],
      parts := [.out] }

theorem countIngress_in {F : Foot} (hF : Foot.countIngress.le F = true)  :
    (countIngress).In F := by
  unfold countIngress
  repeat' first
      | ((with_reducible refine bump_in ?_ ?_ ..); (· rfl); (· first | exact Foot.le_trans (F := Foot.counting .route) (by decide +kernel) hF))
      | split
      | dsimp only

def Foot.deliver : Foot :=
  { regs := onFam .sec (errFields ++ fCnt) ++ onFam .guard (errFields ++ fCnt ++ [.GUARD_ELOG_CTRL_LOST]) ++ onFam .core (fCnt ++
      [.CORE_WM_STAT_WM_CROSS_CNT, .CORE_WM_STAT_WM_EVENT, .CORE_WM_STAT_WM_LEVEL]) ++ onFam .route (errFields ++ fCnt) ++ onFam
      .bridge (errFields ++ fCnt ++ [.BRIDGE_LOCK_STAT_HOLDER, .BRIDGE_LOCK_STAT_LOCKED, .BRIDGE_PROOF_WM_STAT_WM_CROSS_CNT,
      .BRIDGE_PROOF_WM_STAT_WM_EVENT, .BRIDGE_PROOF_WM_STAT_WM_LEVEL]) ++ onFam .face (errFields ++ fCnt) ++ onFam .schedg fCnt,
      cnts := [.sec, .guard, .core, .route, .bridge, .face, .schedg], vars := [.cbsAt, .cbsCr, .elogSeq, .lockDest, .msixPend,
      .pcieSent, .pktId, .polAt, .polC, .polP, .redAvg, .stipCnt, .stipSeq, .tagEp], fifos := [.elog, .faceWrote, .missLog,
      .viWrote], parts := [.buf, .free, .greqs, .out, .prefs, .slots, .streams, .waiting] }

theorem deliver_in {F : Foot} (hF : Foot.deliver.le F = true) (ing : Ing) (f : Frame) (vi : Option Nat) (tailIn : Bool) :
    (deliver ing f vi tailIn).In F := by
  unfold deliver
  repeat' first
      | (with_reducible first | exact all_nil_in | refine all_cons_in ?_ ?_ | refine look_in fun _ => ?_ | refine when_in ?_)
      | exact State_refusal_in (Foot.le_trans (Foot.le_of_runs (by decide +kernel)) hF) (by assumption)
      | exact State_refusal_in (Foot.le_trans (Foot.le_of_runs (by decide +kernel)) hF) (some_of_ite (by assumption))
      | ((with_reducible refine answerNp_in ?_ ..); (· exact Foot.le_trans (Foot.le_of_runs (by decide +kernel)) hF))
      | ((with_reducible refine countIngress_in ?_ ..); (· exact Foot.le_trans (Foot.le_of_runs (by decide +kernel)) hF))
      | ((with_reducible refine miss_in ?_ ..); (· exact Foot.le_trans (Foot.le_of_runs (by decide +kernel)) hF))
      | ((with_reducible refine offer_in ?_ ..); (· exact Foot.le_trans (Foot.le_of_runs (by decide +kernel)) hF))
      | split
      | dsimp only

def Foot.answerStream : Foot :=
  { regs := onFam .guard (errFields ++ fCnt ++ [.GUARD_ELOG_CTRL_LOST]) ++ onFam .core (fCnt ++ [.CORE_WM_STAT_WM_CROSS_CNT,
      .CORE_WM_STAT_WM_EVENT, .CORE_WM_STAT_WM_LEVEL]) ++ onFam .route (errFields ++ fCnt) ++ onFam .bridge (errFields ++ fCnt ++
      [.BRIDGE_LOCK_STAT_HOLDER, .BRIDGE_LOCK_STAT_LOCKED, .BRIDGE_PROOF_WM_STAT_WM_CROSS_CNT, .BRIDGE_PROOF_WM_STAT_WM_EVENT,
      .BRIDGE_PROOF_WM_STAT_WM_LEVEL]) ++ onFam .face (errFields ++ fCnt) ++ onFam .schedg fCnt, cnts := [.guard, .core, .route,
      .bridge, .face, .schedg], vars := [.cbsAt, .cbsCr, .elogSeq, .lockDest, .msixPend, .pcieSent, .pktId, .polAt, .polC, .polP,
      .redAvg, .stipCnt, .stipSeq, .tagEp], fifos := [.elog, .faceWrote, .missLog, .viWrote], parts := [.buf, .free, .greqs, .out,
      .prefs, .slots, .streams, .waiting] }

theorem answerStream_in {F : Foot} (hF : Foot.answerStream.le F = true) (k : Nat) :
    (answerStream k).In F := by
  unfold answerStream
  repeat' first
      | (with_reducible first | exact all_nil_in | refine all_cons_in ?_ ?_ | refine look_in fun _ => ?_ | refine forEach_in fun _ => ?_)
      | ((with_reducible refine modWaiting_in ?_); (· exact le_parts hF (by decide +kernel)))
      | ((with_reducible refine answerUnreachable_in ?_ ..); (· exact Foot.le_trans (Foot.le_of_runs (by decide +kernel)) hF))
      | split
      | dsimp only

end Sys2Proof.Machine
end

