-- ==== Sys2Proof/Laws/FrameFabric.lean ====
section
/-! SUPPORT. What each update of Machine/Fabric.lean may touch. -/

namespace Sys2Proof.Machine

set_option Elab.async false
set_option linter.unusedTactic false
set_option linter.unreachableTactic false

def Foot.sendRelease : Foot :=
  { regs := onFam .guard (errFields ++ fCnt ++ [.GUARD_ELOG_CTRL_LOST]) ++ onFam .core (fCnt ++ [.CORE_WM_STAT_WM_CROSS_CNT,
      .CORE_WM_STAT_WM_EVENT, .CORE_WM_STAT_WM_LEVEL]) ++ onFam .route (errFields ++ fCnt) ++ onFam .bridge (errFields ++ fCnt ++
      [.BRIDGE_LOCK_STAT_HOLDER, .BRIDGE_LOCK_STAT_LOCKED, .BRIDGE_PROOF_WM_STAT_WM_CROSS_CNT, .BRIDGE_PROOF_WM_STAT_WM_EVENT,
      .BRIDGE_PROOF_WM_STAT_WM_LEVEL]) ++ onFam .face fCnt ++ onFam .schedg fCnt, cnts := [.guard, .core, .route, .bridge, .face,
      .schedg], vars := [.acqAt, .acqNum, .cbsAt, .cbsCr, .cycFirst, .cycFirstLen, .cycFirstNum, .cycLast, .cycNext, .cycNext2,
      .cycP, .elogSeq, .mkRun, .msixPend, .pktId, .polAt, .polC, .polP, .redAvg, .stipCnt, .stipSeq], fifos := [.elog, .faceWrote,
      .missLog, .viWrote], parts := [.buf, .free, .greqs, .out, .streams, .waiting] }

theorem sendRelease_in {F : Foot} (hF : Foot.sendRelease.le F = true) (k seq : Nat) (gap adopt : Bool) (epoch : Nat) :
    (sendRelease k seq gap adopt epoch).In F := by
  unfold sendRelease
  repeat' first
      | (with_reducible first | refine look_in fun _ => ?_ | refine forSome_in fun _ => ?_)
      | ((with_reducible refine adopt_in ?_ ..); (· exact Foot.le_trans (Foot.le_of_runs (by decide +kernel)) hF))
      | ((with_reducible refine sendInner_in ?_ ..); (· exact Foot.le_trans (Foot.le_of_runs (by decide +kernel)) hF))
      | split
      | dsimp only

def Foot.releaseNow : Foot :=
  { regs := onFam .guard (errFields ++ fCnt ++ [.GUARD_ELOG_CTRL_LOST]) ++ onFam .core (fCnt ++ [.CORE_WM_STAT_WM_CROSS_CNT,
      .CORE_WM_STAT_WM_EVENT, .CORE_WM_STAT_WM_LEVEL]) ++ onFam .route (errFields ++ fCnt) ++ onFam .bridge (errFields ++ fCnt ++
      [.BRIDGE_LOCK_STAT_HOLDER, .BRIDGE_LOCK_STAT_LOCKED, .BRIDGE_PROOF_WM_STAT_WM_CROSS_CNT, .BRIDGE_PROOF_WM_STAT_WM_EVENT,
      .BRIDGE_PROOF_WM_STAT_WM_LEVEL]) ++ onFam .face fCnt ++ onFam .schedg fCnt, cnts := [.guard, .core, .route, .bridge, .face,
      .schedg], vars := [.acqAt, .acqNum, .cbsAt, .cbsCr, .cycFirst, .cycFirstLen, .cycFirstNum, .cycLast, .cycNext, .cycNext2,
      .cycP, .elogSeq, .mkRun, .msixPend, .pktId, .polAt, .polC, .polP, .redAvg, .stipCnt, .stipSeq], fifos := [.elog, .faceWrote,
      .missLog, .viWrote], parts := [.buf, .free, .greqs, .out, .streams, .waiting] }

theorem releaseNow_in {F : Foot} (hF : Foot.releaseNow.le F = true) (k : Nat) (gap : Bool) :
    (releaseNow k gap).In F := by
  unfold releaseNow
  repeat' first
      | (with_reducible first | exact all_nil_in | refine all_cons_in ?_ ?_ | refine look_in fun _ => ?_ | refine forSome_in fun _ => ?_)
      | ((with_reducible refine putRx_in ?_); (· exact le_parts hF (by decide +kernel)))
      | ((with_reducible refine sendRelease_in ?_ ..); (· exact Foot.le_trans (Foot.le_of_runs (by decide +kernel)) hF))
      | split
      | dsimp only

def Foot.delivered : Foot :=
  { regs := onFam .guard (errFields ++ fCnt ++ [.GUARD_ELOG_CTRL_LOST]) ++ onFam .core (fCnt ++ [.CORE_WM_STAT_WM_CROSS_CNT,
      .CORE_WM_STAT_WM_EVENT, .CORE_WM_STAT_WM_LEVEL]) ++ onFam .route (errFields ++ fCnt) ++ onFam .bridge (errFields ++ fCnt ++
      [.BRIDGE_LOCK_STAT_HOLDER, .BRIDGE_LOCK_STAT_LOCKED, .BRIDGE_PROOF_WM_STAT_WM_CROSS_CNT, .BRIDGE_PROOF_WM_STAT_WM_EVENT,
      .BRIDGE_PROOF_WM_STAT_WM_LEVEL]) ++ onFam .face fCnt ++ onFam .schedg fCnt, cnts := [.guard, .core, .route, .bridge, .face,
      .schedg], vars := [.acqAt, .acqNum, .cbsAt, .cbsCr, .cycFirst, .cycFirstLen, .cycFirstNum, .cycLast, .cycNext, .cycNext2,
      .cycP, .elogSeq, .mkRun, .msixPend, .pktId, .polAt, .polC, .polP, .redAvg, .stipCnt, .stipSeq], fifos := [.elog, .faceWrote,
      .missLog, .viWrote], parts := [.buf, .free, .greqs, .out, .streams, .waiting] }

theorem delivered_in {F : Foot} (hF : Foot.delivered.le F = true) (k : Nat) (r : RxStream) (deliver : Upd) (h_deliver : deliver.In F) :
    (delivered k r deliver).In F := by
  unfold delivered
  repeat' first
      | (with_reducible first | exact all_nil_in | refine all_cons_in ?_ ?_ | refine when_in ?_)
      | with_reducible exact h_deliver
      | ((with_reducible refine putRx_in ?_); (· exact le_parts hF (by decide +kernel)))
      | ((with_reducible refine releaseNow_in ?_ ..); (· exact Foot.le_trans (Foot.le_of_runs (by decide +kernel)) hF))
      | split
      | dsimp only

def Foot.byDistance : Foot :=
  { regs := onFam .sec (errFields ++ fCnt) ++ onFam .guard (errFields ++ fCnt ++ [.GUARD_ELOG_CTRL_LOST]) ++ onFam .core (fCnt ++
      [.CORE_WM_STAT_WM_CROSS_CNT, .CORE_WM_STAT_WM_EVENT, .CORE_WM_STAT_WM_LEVEL]) ++ onFam .route (errFields ++ fCnt) ++ onFam
      .bridge (errFields ++ fCnt ++ [.BRIDGE_LOCK_STAT_HOLDER, .BRIDGE_LOCK_STAT_LOCKED, .BRIDGE_PROOF_WM_STAT_WM_CROSS_CNT,
      .BRIDGE_PROOF_WM_STAT_WM_EVENT, .BRIDGE_PROOF_WM_STAT_WM_LEVEL]) ++ onFam .face (errFields ++ fCnt) ++ onFam .schedg fCnt,
      cnts := [.sec, .guard, .core, .route, .bridge, .face, .schedg], vars := [.acqAt, .acqNum, .cbsAt, .cbsCr, .cycFirst,
      .cycFirstLen, .cycFirstNum, .cycLast, .cycNext, .cycNext2, .cycP, .elogSeq, .lockDest, .mkRun, .msixPend, .pcieSent, .pktId,
      .polAt, .polC, .polP, .redAvg, .stipCnt, .stipSeq, .tagEp], fifos := [.elog, .faceWrote, .missLog, .viWrote], parts :=
      [.buf, .free, .greqs, .out, .prefs, .slots, .streams, .waiting] }

theorem byDistance_in {F : Foot} (hF : Foot.byDistance.le F = true) (f : Frame) (r : RxStream) (deliver discard : Upd) (h_deliver : deliver.In F) (h_discard : discard.In F) :
    (byDistance f r deliver discard).In F := by
  unfold byDistance
  repeat' first
      | (with_reducible first | exact all_nil_in | refine all_cons_in ?_ ?_ | refine look_in fun _ => ?_ | refine when_in ?_ | refine ite_in ?_ ?_)
      | with_reducible exact h_deliver
      | with_reducible exact h_discard
      | ((with_reducible refine putRx_in ?_); (· exact le_parts hF (by decide +kernel)))
      | ((with_reducible refine bump_in ?_ ?_ ..); (· rfl); (· first | exact Foot.le_trans (F := Foot.counting .bridge) (by decide +kernel) hF))
      | ((with_reducible refine raise_in ?_ ?_ ..); (· rfl); (· first | exact Foot.le_trans (F := Foot.error .bridge) (by decide +kernel) hF))
      | ((with_reducible refine deliver_in ?_ ..); (· exact Foot.le_trans (Foot.le_of_runs (by decide +kernel)) hF))
      | ((with_reducible refine delivered_in ?_ _ _ _ (?_)); (· exact Foot.le_trans (Foot.le_of_runs (by decide +kernel)) hF); skip)
      | ((with_reducible refine releaseNow_in ?_ ..); (· exact Foot.le_trans (Foot.le_of_runs (by decide +kernel)) hF))
      | split
      | dsimp only

def Foot.dedup : Foot :=
  { regs := onFam .sec (errFields ++ fCnt) ++ onFam .guard (errFields ++ fCnt ++ [.GUARD_ELOG_CTRL_LOST]) ++ onFam .core (fCnt ++
      [.CORE_WM_STAT_WM_CROSS_CNT, .CORE_WM_STAT_WM_EVENT, .CORE_WM_STAT_WM_LEVEL]) ++ onFam .route (errFields ++ fCnt) ++ onFam
      .bridge (errFields ++ fCnt ++ [.BRIDGE_LOCK_STAT_HOLDER, .BRIDGE_LOCK_STAT_LOCKED, .BRIDGE_PROOF_WM_STAT_WM_CROSS_CNT,
      .BRIDGE_PROOF_WM_STAT_WM_EVENT, .BRIDGE_PROOF_WM_STAT_WM_LEVEL]) ++ onFam .face (errFields ++ fCnt) ++ onFam .schedg fCnt,
      cnts := [.sec, .guard, .core, .route, .bridge, .face, .schedg], vars := [.acqAt, .acqNum, .cbsAt, .cbsCr, .cycFirst,
      .cycFirstLen, .cycFirstNum, .cycLast, .cycNext, .cycNext2, .cycP, .elogSeq, .lockDest, .mkRun, .msixPend, .pcieSent, .pktId,
      .polAt, .polC, .polP, .redAvg, .stipCnt, .stipSeq, .tagEp], fifos := [.elog, .faceWrote, .missLog, .viWrote], parts :=
      [.buf, .free, .greqs, .out, .prefs, .slots, .streams, .waiting] }

theorem dedup_in {F : Foot} (hF : Foot.dedup.le F = true) (f : Frame) (deliver discard : Upd) (h_deliver : deliver.In F) (h_discard : discard.In F) :
    (dedup f deliver discard).In F := by
  unfold dedup
  repeat' first
      | (with_reducible first | exact all_nil_in | refine all_cons_in ?_ ?_ | refine look_in fun _ => ?_ | refine ite_in ?_ ?_)
      | with_reducible exact h_deliver
      | with_reducible exact h_discard
      | ((with_reducible refine putRx_in ?_); (· exact le_parts hF (by decide +kernel)))
      | ((with_reducible refine bump_in ?_ ?_ ..); (· rfl); (· first | exact Foot.le_trans (F := Foot.counting .bridge) (by decide +kernel) hF))
      | ((with_reducible refine raise_in ?_ ?_ ..); (· rfl); (· first | exact Foot.le_trans (F := Foot.error .bridge) (by decide +kernel) hF))
      | ((with_reducible refine byDistance_in ?_ _ _ _ _ (?_) (?_)); (· exact Foot.le_trans (Foot.le_of_runs (by decide +kernel)) hF); skip)
      | ((with_reducible refine deliver_in ?_ ..); (· exact Foot.le_trans (Foot.le_of_runs (by decide +kernel)) hF))
      | ((with_reducible refine sendRelease_in ?_ ..); (· exact Foot.le_trans (Foot.le_of_runs (by decide +kernel)) hF))
      | split
      | dsimp only

def Foot.streamDead : Foot :=
  { regs := onFam .guard (errFields ++ fCnt ++ [.GUARD_ELOG_CTRL_LOST]) ++ onFam .core (fCnt ++ [.CORE_WM_STAT_WM_CROSS_CNT,
      .CORE_WM_STAT_WM_EVENT, .CORE_WM_STAT_WM_LEVEL]) ++ onFam .route (errFields ++ fCnt) ++ onFam .bridge (errFields ++ fCnt ++
      [.BRIDGE_LOCK_STAT_HOLDER, .BRIDGE_LOCK_STAT_LOCKED, .BRIDGE_PROOF_WM_STAT_WM_CROSS_CNT, .BRIDGE_PROOF_WM_STAT_WM_EVENT,
      .BRIDGE_PROOF_WM_STAT_WM_LEVEL]) ++ onFam .face (errFields ++ fCnt) ++ onFam .schedg fCnt, cnts := [.guard, .core, .route,
      .bridge, .face, .schedg], vars := [.cbsAt, .cbsCr, .elogSeq, .lockDest, .msixPend, .pcieSent, .pktId, .polAt, .polC, .polP,
      .redAvg, .stipCnt, .stipSeq, .tagEp], fifos := [.elog, .faceWrote, .missLog, .viWrote], parts := [.buf, .free, .greqs, .out,
      .prefs, .slots, .streams, .waiting] }

theorem streamDead_in {F : Foot} (hF : Foot.streamDead.le F = true) (k : Nat) :
    (streamDead k).In F := by
  unfold streamDead
  repeat' first
      | (with_reducible first | exact all_nil_in | refine all_cons_in ?_ ?_ | refine look_in fun _ => ?_)
      | ((with_reducible refine putTx_in ?_); (· exact le_parts hF (by decide +kernel)))
      | ((with_reducible refine bump_in ?_ ?_ ..); (· rfl); (· first | exact Foot.le_trans (F := Foot.counting .bridge) (by decide +kernel) hF))
      | ((with_reducible refine raiseIn_in ?_ ?_ ..); (· rfl); (· first | exact Foot.le_trans (F := Foot.error .bridge) (by decide +kernel) hF))
      | ((with_reducible refine answerStream_in ?_ ..); (· exact Foot.le_trans (Foot.le_of_runs (by decide +kernel)) hF))
      | ((with_reducible refine proofWatch_in ?_ ..); (· exact Foot.le_trans (Foot.le_of_runs (by decide +kernel)) hF))
      | split
      | dsimp only

def Foot.resendOne : Foot :=
  { regs := onFam .guard (errFields ++ fCnt ++ [.GUARD_ELOG_CTRL_LOST]) ++ onFam .route (errFields ++ fCnt) ++ onFam .bridge fCnt ++
      onFam .face fCnt, cnts := [.guard, .route, .bridge, .face], vars := [.elogSeq, .msixPend, .pktId], fifos := [.elog,
      .faceWrote, .missLog, .viWrote], parts := [.buf, .greqs, .out] }

theorem resendOne_in {F : Foot} (hF : Foot.resendOne.le F = true) (p : Proof) :
    (resendOne p).In F := by
  unfold resendOne
  repeat' first
      | (with_reducible first | exact all_nil_in | refine all_cons_in ?_ ?_ | refine look_in fun _ => ?_)
      | ((with_reducible refine put_in ?_); (· exact le_vars hF (by decide +kernel)))
      | ((with_reducible refine modBuf_in ?_); (· exact le_parts hF (by decide +kernel)))
      | ((with_reducible refine bump_in ?_ ?_ ..); (· rfl); (· first | exact Foot.le_trans (F := Foot.counting .bridge) (by decide +kernel) hF))
      | ((with_reducible refine miss_in ?_ ..); (· exact Foot.le_trans (Foot.le_of_runs (by decide +kernel)) hF))
      | split
      | dsimp only

def Foot.resendRun : Foot :=
  { regs := onFam .guard (errFields ++ fCnt ++ [.GUARD_ELOG_CTRL_LOST]) ++ onFam .route (errFields ++ fCnt) ++ onFam .bridge fCnt ++
      onFam .face fCnt, cnts := [.guard, .route, .bridge, .face], vars := [.elogSeq, .msixPend, .pktId], fifos := [.elog,
      .faceWrote, .missLog, .viWrote], parts := [.buf, .greqs, .out] }

theorem resendRun_in {F : Foot} (hF : Foot.resendRun.le F = true) (l : List Proof) :
    (resendRun l).In F := by
  unfold resendRun
  repeat' first
      | (with_reducible first | refine forEach_in fun _ => ?_)
      | ((with_reducible refine resendOne_in ?_ ..); (· exact Foot.le_trans (Foot.le_of_runs (by decide +kernel)) hF))
      | split
      | dsimp only

def Foot.resendGoesOn : Foot :=
  { regs := onFam .guard (errFields ++ fCnt ++ [.GUARD_ELOG_CTRL_LOST]) ++ onFam .route (errFields ++ fCnt) ++ onFam .bridge fCnt ++
      onFam .face fCnt, cnts := [.guard, .route, .bridge, .face], vars := [.elogSeq, .msixPend, .pktId], fifos := [.elog,
      .faceWrote, .missLog, .viWrote], parts := [.buf, .greqs, .out] }

theorem resendGoesOn_in {F : Foot} (hF : Foot.resendGoesOn.le F = true) (k n : Nat) :
    (resendGoesOn k n).In F := by
  unfold resendGoesOn
  repeat' first
      | (with_reducible first | exact all_nil_in | refine all_cons_in ?_ ?_ | refine look_in fun _ => ?_ | refine when_in ?_)
      | ((with_reducible refine resendRun_in ?_ ..); (· exact Foot.le_trans (Foot.le_of_runs (by decide +kernel)) hF))
      | split
      | dsimp only

def Foot.resend : Foot :=
  { regs := onFam .guard (errFields ++ fCnt ++ [.GUARD_ELOG_CTRL_LOST]) ++ onFam .core (fCnt ++ [.CORE_WM_STAT_WM_CROSS_CNT,
      .CORE_WM_STAT_WM_EVENT, .CORE_WM_STAT_WM_LEVEL]) ++ onFam .route (errFields ++ fCnt) ++ onFam .bridge (errFields ++ fCnt ++
      [.BRIDGE_LOCK_STAT_HOLDER, .BRIDGE_LOCK_STAT_LOCKED, .BRIDGE_PROOF_WM_STAT_WM_CROSS_CNT, .BRIDGE_PROOF_WM_STAT_WM_EVENT,
      .BRIDGE_PROOF_WM_STAT_WM_LEVEL]) ++ onFam .face (errFields ++ fCnt) ++ onFam .schedg fCnt, cnts := [.guard, .core, .route,
      .bridge, .face, .schedg], vars := [.cbsAt, .cbsCr, .elogSeq, .lockDest, .msixPend, .pcieSent, .pktId, .polAt, .polC, .polP,
      .redAvg, .stipCnt, .stipSeq, .tagEp], fifos := [.elog, .faceWrote, .missLog, .viWrote], parts := [.buf, .free, .greqs, .out,
      .prefs, .slots, .streams, .waiting] }

theorem resend_in {F : Foot} (hF : Foot.resend.le F = true) (k : Nat) :
    (resend k).In F := by
  unfold resend
  repeat' first
      | (with_reducible first | exact all_nil_in | refine all_cons_in ?_ ?_ | refine look_in fun _ => ?_ | refine when_in ?_ | refine ite_in ?_ ?_)
      | ((with_reducible refine putTx_in ?_); (· exact le_parts hF (by decide +kernel)))
      | ((with_reducible refine bump_in ?_ ?_ ..); (· rfl); (· first | exact Foot.le_trans (F := Foot.counting .bridge) (by decide +kernel) hF))
      | ((with_reducible refine resendRun_in ?_ ..); (· exact Foot.le_trans (Foot.le_of_runs (by decide +kernel)) hF))
      | ((with_reducible refine streamDead_in ?_ ..); (· exact Foot.le_trans (Foot.le_of_runs (by decide +kernel)) hF))
      | split
      | dsimp only

def Foot.resendAll : Foot :=
  { regs := onFam .guard (errFields ++ fCnt ++ [.GUARD_ELOG_CTRL_LOST]) ++ onFam .core (fCnt ++ [.CORE_WM_STAT_WM_CROSS_CNT,
      .CORE_WM_STAT_WM_EVENT, .CORE_WM_STAT_WM_LEVEL]) ++ onFam .route (errFields ++ fCnt) ++ onFam .bridge (errFields ++ fCnt ++
      [.BRIDGE_LOCK_STAT_HOLDER, .BRIDGE_LOCK_STAT_LOCKED, .BRIDGE_PROOF_WM_STAT_WM_CROSS_CNT, .BRIDGE_PROOF_WM_STAT_WM_EVENT,
      .BRIDGE_PROOF_WM_STAT_WM_LEVEL]) ++ onFam .face (errFields ++ fCnt) ++ onFam .schedg fCnt, cnts := [.guard, .core, .route,
      .bridge, .face, .schedg], vars := [.cbsAt, .cbsCr, .elogSeq, .lockDest, .msixPend, .pcieSent, .pktId, .polAt, .polC, .polP,
      .redAvg, .stipCnt, .stipSeq, .tagEp], fifos := [.elog, .faceWrote, .missLog, .viWrote], parts := [.buf, .free, .greqs, .out,
      .prefs, .slots, .streams, .waiting] }

theorem resendAll_in {F : Foot} (hF : Foot.resendAll.le F = true)  :
    (resendAll).In F := by
  unfold resendAll
  repeat' first
      | (with_reducible first | refine look_in fun _ => ?_ | refine forEach_in fun _ => ?_)
      | ((with_reducible refine resend_in ?_ ..); (· exact Foot.le_trans (Foot.le_of_runs (by decide +kernel)) hF))
      | split
      | dsimp only

def Foot.releaseEntry : Foot :=
  { regs := onFam .guard (errFields ++ fCnt ++ [.GUARD_ELOG_CTRL_LOST]) ++ onFam .core (fCnt ++ [.CORE_WM_STAT_WM_CROSS_CNT,
      .CORE_WM_STAT_WM_EVENT, .CORE_WM_STAT_WM_LEVEL]) ++ onFam .route (errFields ++ fCnt) ++ onFam .bridge (errFields ++ fCnt ++
      [.BRIDGE_LOCK_STAT_HOLDER, .BRIDGE_LOCK_STAT_LOCKED, .BRIDGE_PROOF_WM_STAT_WM_CROSS_CNT, .BRIDGE_PROOF_WM_STAT_WM_EVENT,
      .BRIDGE_PROOF_WM_STAT_WM_LEVEL]) ++ onFam .face (errFields ++ fCnt) ++ onFam .schedg fCnt, cnts := [.guard, .core, .route,
      .bridge, .face, .schedg], vars := [.cbsAt, .cbsCr, .elogSeq, .lockDest, .msixPend, .pcieSent, .pktId, .polAt, .polC, .polP,
      .redAvg, .stipCnt, .stipSeq, .tagEp], fifos := [.elog, .faceWrote, .missLog, .viWrote], parts := [.buf, .free, .greqs, .out,
      .prefs, .slots, .streams, .waiting] }

theorem releaseEntry_in {F : Foot} (hF : Foot.releaseEntry.le F = true) (sw : Nat) (e : RelEntry) :
    (releaseEntry sw e).In F := by
  unfold releaseEntry
  repeat' first
      | (with_reducible first | exact skip_in | exact all_nil_in | refine all_cons_in ?_ ?_ | refine look_in fun _ => ?_ | refine when_in ?_ | refine ite_in ?_ ?_)
      | ((with_reducible refine putTx_in ?_); (· exact le_parts hF (by decide +kernel)))
      | ((with_reducible refine addCnt_in ?_ ?_ ..); (· rfl); (· first | exact Foot.le_trans (F := Foot.counting .bridge) (by decide +kernel) hF))
      | ((with_reducible refine raise_in ?_ ?_ ..); (· rfl); (· first | exact Foot.le_trans (F := Foot.error .bridge) (by decide +kernel) hF))
      | ((with_reducible refine proofWatch_in ?_ ..); (· exact Foot.le_trans (Foot.le_of_runs (by decide +kernel)) hF))
      | ((with_reducible refine resend_in ?_ ..); (· exact Foot.le_trans (Foot.le_of_runs (by decide +kernel)) hF))
      | split
      | dsimp only

def Foot.streamsRestart : Foot :=
  { parts := [.streams] }

theorem streamsRestart_in {F : Foot} (hF : Foot.streamsRestart.le F = true)  :
    (streamsRestart).In F := by
  unfold streamsRestart
  repeat' first
      | (with_reducible first | refine look_in fun _ => ?_ | refine forEach_in fun _ => ?_)
      | ((with_reducible refine putTx_in ?_); (· exact le_parts hF (by decide +kernel)))
      | split
      | dsimp only

def Foot.sendPathLoss : Foot :=
  { regs := onFam .guard (errFields ++ fCnt ++ [.GUARD_ELOG_CTRL_LOST]) ++ onFam .core (fCnt ++ [.CORE_WM_STAT_WM_CROSS_CNT,
      .CORE_WM_STAT_WM_EVENT, .CORE_WM_STAT_WM_LEVEL]) ++ onFam .route (errFields ++ fCnt) ++ onFam .bridge (errFields ++ fCnt ++
      [.BRIDGE_LOCK_STAT_HOLDER, .BRIDGE_LOCK_STAT_LOCKED, .BRIDGE_PROOF_WM_STAT_WM_CROSS_CNT, .BRIDGE_PROOF_WM_STAT_WM_EVENT,
      .BRIDGE_PROOF_WM_STAT_WM_LEVEL]) ++ onFam .face fCnt ++ onFam .schedg fCnt, cnts := [.guard, .core, .route, .bridge, .face,
      .schedg], vars := [.cbsAt, .cbsCr, .elogSeq, .msixPend, .pktId, .polAt, .polC, .polP, .redAvg, .stipCnt, .stipSeq], fifos :=
      [.elog, .faceWrote, .missLog, .viWrote], parts := [.buf, .free, .greqs, .out, .streams, .waiting] }

theorem sendPathLoss_in {F : Foot} (hF : Foot.sendPathLoss.le F = true) (p : Nat) :
    (sendPathLoss p).In F := by
  unfold sendPathLoss
  repeat' first
      | (with_reducible first | exact all_nil_in | refine all_cons_in ?_ ?_ | refine look_in fun _ => ?_ | refine ite_in ?_ ?_ | refine forEach_in fun _ => ?_)
      | ((with_reducible refine bump_in ?_ ?_ ..); (· rfl); (· first | exact Foot.le_trans (F := Foot.counting .bridge) (by decide +kernel) hF))
      | ((with_reducible refine sendInner_in ?_ ..); (· exact Foot.le_trans (Foot.le_of_runs (by decide +kernel)) hF))
      | split
      | dsimp only

def Foot.sendLinkStatus : Foot :=
  { regs := onFam .guard (errFields ++ fCnt ++ [.GUARD_ELOG_CTRL_LOST]) ++ onFam .core (fCnt ++ [.CORE_WM_STAT_WM_CROSS_CNT,
      .CORE_WM_STAT_WM_EVENT, .CORE_WM_STAT_WM_LEVEL]) ++ onFam .route (errFields ++ fCnt) ++ onFam .bridge (errFields ++ fCnt ++
      [.BRIDGE_LOCK_STAT_HOLDER, .BRIDGE_LOCK_STAT_LOCKED, .BRIDGE_PROOF_WM_STAT_WM_CROSS_CNT, .BRIDGE_PROOF_WM_STAT_WM_EVENT,
      .BRIDGE_PROOF_WM_STAT_WM_LEVEL]) ++ onFam .face fCnt ++ onFam .schedg fCnt, cnts := [.guard, .core, .route, .bridge, .face,
      .schedg], vars := [.cbsAt, .cbsCr, .elogSeq, .msixPend, .pktId, .polAt, .polC, .polP, .redAvg, .stipCnt, .stipSeq], fifos :=
      [.elog, .faceWrote, .missLog, .viWrote], parts := [.buf, .free, .greqs, .out, .streams, .waiting] }

theorem sendLinkStatus_in {F : Foot} (hF : Foot.sendLinkStatus.le F = true) (p : Nat) :
    (sendLinkStatus p).In F := by
  unfold sendLinkStatus
  repeat' first
      | (with_reducible first | refine look_in fun _ => ?_ | refine when_in ?_)
      | ((with_reducible refine sendOnLink_in ?_ ..); (· exact Foot.le_trans (Foot.le_of_runs (by decide +kernel)) hF))
      | split
      | dsimp only

def Foot.fabPortAdmit : Foot :=
  { regs := onFam .port [.PORT_LINK_STAT_STATE], vars := [.guardBack, .skewCnt] }

theorem fabPortAdmit_in {F : Foot} (hF : Foot.fabPortAdmit.le F = true) (c : Nat) :
    (fabPortAdmit c).In F := by
  unfold fabPortAdmit
  repeat' first
      | (with_reducible first | exact all_nil_in | refine all_cons_in ?_ ?_ | refine look_in fun _ => ?_ | refine when_in ?_ | refine forEach_in fun _ => ?_)
      | ((with_reducible refine put_in ?_); (· exact le_vars hF (by decide +kernel)))
      | ((with_reducible refine wr_in ?_ ?_); (· first | exact own_mem (show _ ∈ tabPORT by decide +kernel)); (· first | exact le_regs hF (show (Fam.port, _) ∈ _ by decide +kernel)))
      | split
      | dsimp only

def Foot.fabPortRejoin : Foot :=
  { regs := onFam .port [.PORT_LINK_STAT_STATE], vars := [.guardBack] }

theorem fabPortRejoin_in {F : Foot} (hF : Foot.fabPortRejoin.le F = true)  :
    (fabPortRejoin).In F := by
  unfold fabPortRejoin
  repeat' first
      | (with_reducible first | exact all_nil_in | refine all_cons_in ?_ ?_ | refine look_in fun _ => ?_ | refine forEach_in fun _ => ?_)
      | ((with_reducible refine put_in ?_); (· exact le_vars hF (by decide +kernel)))
      | ((with_reducible refine wr_in ?_ ?_); (· first | exact own_mem (show _ ∈ tabPORT by decide +kernel)); (· first | exact le_regs hF (show (Fam.port, _) ∈ _ by decide +kernel)))
      | split
      | dsimp only

def Foot.plateSkewCheck : Foot :=
  { regs := onFam .guard (errFields ++ fCnt ++ [.GUARD_ELOG_CTRL_LOST]) ++ onFam .bridge errFields ++ onFam .port
      [.PORT_LINK_STAT_STATE] ++ onFam .face fCnt, cnts := [.guard, .face], vars := [.elogSeq, .msixPend, .skewCnt], fifos :=
      [.elog, .faceWrote, .viWrote], parts := [.greqs, .out] }

theorem plateSkewCheck_in {F : Foot} (hF : Foot.plateSkewCheck.le F = true)  :
    (plateSkewCheck).In F := by
  unfold plateSkewCheck
  repeat' first
      | (with_reducible first | exact all_nil_in | refine all_cons_in ?_ ?_ | refine look_in fun _ => ?_ | refine ite_in ?_ ?_ | refine forEach_in fun _ => ?_)
      | ((with_reducible refine put_in ?_); (· exact le_vars hF (by decide +kernel)))
      | ((with_reducible refine clearIv_in ?_); (· exact le_vars hF (by decide +kernel)))
      | ((with_reducible refine wr_in ?_ ?_); (· first | exact hdr_mem rfl (by decide +kernel) | exact own_mem (show _ ∈ tabGUARD0 by decide +kernel) | exact own_mem (show _ ∈ tabPORT by decide +kernel)); (· first | exact le_regs hF (show (Fam.bridge, _) ∈ _ by decide +kernel) | exact le_regs hF (show (Fam.face, _) ∈ _ by decide +kernel) | exact le_regs hF (show (Fam.guard, _) ∈ _ by decide +kernel) | exact le_regs hF (show (Fam.port, _) ∈ _ by decide +kernel)))
      | ((with_reducible refine raiseIn_in ?_ ?_ ..); (· rfl); (· first | exact Foot.le_trans (F := Foot.error .bridge) (by decide +kernel) hF))
      | split
      | dsimp only

def Foot.dropQueued : Foot :=
  { regs := onFam .core [.CORE_WM_STAT_WM_CROSS_CNT, .CORE_WM_STAT_WM_EVENT, .CORE_WM_STAT_WM_LEVEL], parts := [.buf, .out] }

theorem dropQueued_in {F : Foot} (hF : Foot.dropQueued.le F = true) (p : Nat) :
    (dropQueued p).In F := by
  unfold dropQueued
  repeat' first
      | (with_reducible first | exact all_nil_in | refine all_cons_in ?_ ?_ | refine look_in fun _ => ?_ | refine forEach_in fun _ => ?_)
      | ((with_reducible refine modBuf_in ?_); (· exact le_parts hF (by decide +kernel)))
      | ((with_reducible refine emit_in ?_); (· exact le_parts hF (by decide +kernel)))
      | ((with_reducible refine coreWatch_in ?_ ..); (· exact Foot.le_trans (Foot.le_of_runs (by decide +kernel)) hF))
      | split
      | dsimp only

end Sys2Proof.Machine
end

