-- ==== Sys2Proof/Laws/FrameEgress.lean ====
section
/-! SUPPORT. What each update of Machine/Egress.lean may touch. -/

namespace Sys2Proof.Machine

set_option Elab.async false
set_option linter.unusedTactic false
set_option linter.unreachableTactic false

def Foot.timeTo : Foot :=
  { vars := [.holdCount], parts := [.now] }

theorem timeTo_in {F : Foot} (hF : Foot.timeTo.le F = true) (t : Nat) :
    (timeTo t).In F := by
  unfold timeTo
  repeat' first
      | (with_reducible first | exact skip_in | exact all_nil_in | refine all_cons_in ?_ ?_ | refine look_in fun _ => ?_ | refine when_in ?_ | refine forEach_in fun _ => ?_)
      | ((with_reducible refine put_in ?_); (· exact le_vars hF (by decide +kernel)))
      | ((with_reducible refine setNow_in ?_); (· exact le_parts hF (by decide +kernel)))
      | split
      | dsimp only

def Foot.chargeTurns : Foot :=
  { vars := [.drrCur, .drrDef, .drrQuant, .flowCur, .flowDef, .flowQuant] }

theorem chargeTurns_in {F : Foot} (hF : Foot.chargeTurns.le F = true) (p n : Nat) (x : Pick) :
    (chargeTurns p n x).In F := by
  unfold chargeTurns
  repeat' first
      | (with_reducible first | exact all_nil_in | refine all_cons_in ?_ ?_ | refine ite_in ?_ ?_ | refine forEach_in fun _ => ?_)
      | ((with_reducible refine put_in ?_); (· exact le_vars hF (by decide +kernel)))
      | split
      | dsimp only

def Foot.settleTurns : Foot :=
  { vars := [.drrCur, .drrDef, .flowCur, .flowDef] }

theorem settleTurns_in {F : Foot} (hF : Foot.settleTurns.le F = true) (p : Nat) (ks : List Pkt) :
    (settleTurns p ks).In F := by
  unfold settleTurns
  repeat' first
      | (with_reducible first | exact all_nil_in | refine all_cons_in ?_ ?_ | refine look_in fun _ => ?_ | refine ite_in ?_ ?_ | refine forBelow_in fun _ => ?_)
      | ((with_reducible refine put_in ?_); (· exact le_vars hF (by decide +kernel)))
      | ((with_reducible refine clearIv_in ?_); (· exact le_vars hF (by decide +kernel)))
      | split
      | dsimp only

def Foot.changeKey : Foot :=
  { regs := onFam .port [.PORT_LINK_STAT_KEY_PHASE], vars := [.keyOld, .nextKey, .txNum] }

theorem changeKey_in {F : Foot} (hF : Foot.changeKey.le F = true) (p : Nat) :
    (changeKey p).In F := by
  unfold changeKey
  repeat' first
      | (with_reducible first | exact all_nil_in | refine all_cons_in ?_ ?_ | refine look_in fun _ => ?_ | refine when_in ?_)
      | ((with_reducible refine put_in ?_); (· exact le_vars hF (by decide +kernel)))
      | ((with_reducible refine wr_in ?_ ?_); (· first | exact own_mem (show _ ∈ tabPORT by decide +kernel)); (· first | exact le_regs hF (show (Fam.port, _) ∈ _ by decide +kernel)))
      | split
      | dsimp only

def Foot.linkFrame : Foot :=
  { parts := [.coders, .out] }

theorem linkFrame_in {F : Foot} (hF : Foot.linkFrame.le F = true) (p seq : Nat) (noSeq enc : Bool) (phase pool num : Nat) (f : Frame) :
    (linkFrame p seq noSeq enc phase pool num f).In F := by
  unfold linkFrame
  repeat' first
      | (with_reducible first | exact all_nil_in | refine all_cons_in ?_ ?_ | refine look_in fun _ => ?_ | refine ite_in ?_ ?_)
      | ((with_reducible refine emit_in ?_); (· exact le_parts hF (by decide +kernel)))
      | ((with_reducible refine linkSend_in ?_ ..); (· exact Foot.le_trans (Foot.le_of_runs (by decide +kernel)) hF))
      | split
      | dsimp only

def Foot.sendSequenced : Foot :=
  { regs := onFam .port fCnt ++ onFam .face fCnt, cnts := [.port, .face], vars := [.msixPend, .txCount, .txNum, .txSeq, .txUsed],
      fifos := [.faceWrote, .viWrote], parts := [.coders, .out, .replay] }

theorem sendSequenced_in {F : Foot} (hF : Foot.sendSequenced.le F = true) (p pool : Nat) (f : Frame) :
    (sendSequenced p pool f).In F := by
  unfold sendSequenced
  repeat' first
      | (with_reducible first | exact all_nil_in | refine all_cons_in ?_ ?_ | refine look_in fun _ => ?_ | refine ite_in ?_ ?_)
      | ((with_reducible refine put_in ?_); (· exact le_vars hF (by decide +kernel)))
      | ((with_reducible refine putReplay_in ?_); (· exact le_parts hF (by decide +kernel)))
      | ((with_reducible refine addCnt_in ?_ ?_ ..); (· rfl); (· first | exact Foot.le_trans (F := Foot.counting .port) (by decide +kernel) hF))
      | ((with_reducible refine bump_in ?_ ?_ ..); (· rfl); (· first | exact Foot.le_trans (F := Foot.counting .port) (by decide +kernel) hF))
      | ((with_reducible refine linkFrame_in ?_ ..); (· exact Foot.le_trans (Foot.le_of_runs (by decide +kernel)) hF))
      | split
      | dsimp only

def Foot.sendSub : Foot :=
  { vars := [.pcieSent], parts := [.fwd, .out] }

theorem sendSub_in {F : Foot} (hF : Foot.sendSub.le F = true) (p grp : Nat) (f : Frame) (t : Tlp) (piece rest : Nat) :
    (sendSub p grp f t piece rest).In F := by
  unfold sendSub
  repeat' first
      | (with_reducible first | exact all_nil_in | refine all_cons_in ?_ ?_ | refine look_in fun _ => ?_ | refine forSome_in fun _ => ?_)
      | ((with_reducible refine modFwd_in ?_); (· exact le_parts hF (by decide +kernel)))
      | ((with_reducible refine tlpSend_in ?_ ..); (· exact Foot.le_trans (Foot.le_of_runs (by decide +kernel)) hF))
      | split
      | dsimp only

def Foot.sendDown : Foot :=
  { regs := onFam .guard (errFields ++ fCnt ++ [.GUARD_ELOG_CTRL_LOST]) ++ onFam .core (fCnt ++ [.CORE_WM_STAT_WM_CROSS_CNT,
      .CORE_WM_STAT_WM_EVENT, .CORE_WM_STAT_WM_LEVEL]) ++ onFam .route (errFields ++ fCnt) ++ onFam .bridge (errFields ++ fCnt ++
      [.BRIDGE_LOCK_STAT_HOLDER, .BRIDGE_LOCK_STAT_LOCKED, .BRIDGE_PROOF_WM_STAT_WM_CROSS_CNT, .BRIDGE_PROOF_WM_STAT_WM_EVENT,
      .BRIDGE_PROOF_WM_STAT_WM_LEVEL]) ++ onFam .face (errFields ++ fCnt) ++ onFam .schedg fCnt, cnts := [.guard, .core, .route,
      .bridge, .face, .schedg], vars := [.cbsAt, .cbsCr, .elogSeq, .lockDest, .msixPend, .pcieSent, .pktId, .polAt, .polC, .polP,
      .redAvg, .stipCnt, .stipSeq, .tagEp], fifos := [.elog, .faceWrote, .missLog, .viWrote], parts := [.buf, .free, .fwd, .greqs,
      .out, .prefs, .slots, .streams, .waiting] }

theorem sendDown_in {F : Foot} (hF : Foot.sendDown.le F = true) (p grp : Nat) (f : Frame) :
    (sendDown p grp f).In F := by
  unfold sendDown
  repeat' first
      | (with_reducible first | exact all_nil_in | refine all_cons_in ?_ ?_ | refine look_in fun _ => ?_ | refine when_in ?_ | refine ite_in ?_ ?_ | refine forEach_in fun _ => ?_)
      | ((with_reducible refine bump_in ?_ ?_ ..); (· rfl); (· first | exact Foot.le_trans (F := Foot.counting .bridge) (by decide +kernel) hF))
      | ((with_reducible refine raise_in ?_ ?_ ..); (· rfl); (· first | exact Foot.le_trans (F := Foot.error .bridge) (by decide +kernel) hF))
      | ((with_reducible refine answerNp_in ?_ ..); (· exact Foot.le_trans (Foot.le_of_runs (by decide +kernel)) hF))
      | ((with_reducible refine sendSub_in ?_ ..); (· exact Foot.le_trans (Foot.le_of_runs (by decide +kernel)) hF))
      | ((with_reducible refine tlpSend_in ?_ ..); (· exact Foot.le_trans (Foot.le_of_runs (by decide +kernel)) hF))
      | split
      | dsimp only

def Foot.sendUp : Foot :=
  { regs := onFam .guard (errFields ++ fCnt ++ [.GUARD_ELOG_CTRL_LOST]) ++ onFam .core (fCnt ++ [.CORE_WM_STAT_WM_CROSS_CNT,
      .CORE_WM_STAT_WM_EVENT, .CORE_WM_STAT_WM_LEVEL]) ++ onFam .route (errFields ++ fCnt) ++ onFam .bridge (errFields ++ fCnt ++
      [.BRIDGE_LOCK_STAT_HOLDER, .BRIDGE_LOCK_STAT_LOCKED, .BRIDGE_PROOF_WM_STAT_WM_CROSS_CNT, .BRIDGE_PROOF_WM_STAT_WM_EVENT,
      .BRIDGE_PROOF_WM_STAT_WM_LEVEL]) ++ onFam .face (errFields ++ fCnt) ++ onFam .schedg fCnt, cnts := [.guard, .core, .route,
      .bridge, .face, .schedg], vars := [.cbsAt, .cbsCr, .elogSeq, .lockDest, .msixPend, .pcieSent, .pktId, .polAt, .polC, .polP,
      .redAvg, .stipCnt, .stipSeq, .tagEp], fifos := [.elog, .faceWrote, .missLog, .viWrote], parts := [.buf, .free, .greqs, .out,
      .prefs, .slots, .streams, .waiting] }

theorem sendUp_in {F : Foot} (hF : Foot.sendUp.le F = true) (p f : Nat) (k : Pkt) :
    (sendUp p f k).In F := by
  unfold sendUp
  repeat' first
      | (with_reducible first | exact all_nil_in | refine all_cons_in ?_ ?_ | refine look_in fun _ => ?_ | refine when_in ?_ | refine ite_in ?_ ?_ | refine forEach_in fun _ => ?_ | refine forSome_in fun _ => ?_)
      | ((with_reducible refine bump_in ?_ ?_ ..); (· rfl); (· first | exact Foot.le_trans (F := Foot.counting .face) (by decide +kernel) hF | exact Foot.le_trans (F := Foot.counting .bridge) (by decide +kernel) hF))
      | ((with_reducible refine faceCompletes_in ?_ ..); (· exact Foot.le_trans (Foot.le_of_runs (by decide +kernel)) hF))
      | ((with_reducible refine takeSlot_in ?_ ..); (· exact Foot.le_trans (Foot.le_of_runs (by decide +kernel)) hF))
      | ((with_reducible refine tlpSend_in ?_ ..); (· exact Foot.le_trans (Foot.le_of_runs (by decide +kernel)) hF))
      | split
      | dsimp only

def Foot.returnSub : Foot :=
  { regs := onFam .sec (errFields ++ fCnt) ++ onFam .guard (errFields ++ fCnt ++ [.GUARD_ELOG_CTRL_LOST]) ++ onFam .core (fCnt ++
      [.CORE_WM_STAT_WM_CROSS_CNT, .CORE_WM_STAT_WM_EVENT, .CORE_WM_STAT_WM_LEVEL]) ++ onFam .route (errFields ++ fCnt) ++ onFam
      .bridge (errFields ++ fCnt ++ [.BRIDGE_LOCK_STAT_HOLDER, .BRIDGE_LOCK_STAT_LOCKED, .BRIDGE_PROOF_WM_STAT_WM_CROSS_CNT,
      .BRIDGE_PROOF_WM_STAT_WM_EVENT, .BRIDGE_PROOF_WM_STAT_WM_LEVEL]) ++ onFam .face (errFields ++ fCnt) ++ onFam .schedg fCnt,
      cnts := [.sec, .guard, .core, .route, .bridge, .face, .schedg], vars := [.cbsAt, .cbsCr, .elogSeq, .lockDest, .msixPend,
      .pcieSent, .pktId, .polAt, .polC, .polP, .redAvg, .stipCnt, .stipSeq, .tagEp], fifos := [.elog, .faceWrote, .missLog,
      .viWrote], parts := [.buf, .free, .greqs, .out, .prefs, .slots, .streams, .waiting] }

theorem returnSub_in {F : Foot} (hF : Foot.returnSub.le F = true) (w : Fwd) (t : Tlp) :
    (returnSub w t).In F := by
  unfold returnSub
  repeat' first
      | (with_reducible first | refine look_in fun _ => ?_ | refine ite_in ?_ ?_)
      | ((with_reducible refine deliver_in ?_ ..); (· exact Foot.le_trans (Foot.le_of_runs (by decide +kernel)) hF))
      | split
      | dsimp only

def Foot.flushGroup : Foot :=
  { regs := onFam .sec (errFields ++ fCnt) ++ onFam .guard (errFields ++ fCnt ++ [.GUARD_ELOG_CTRL_LOST]) ++ onFam .core (fCnt ++
      [.CORE_WM_STAT_WM_CROSS_CNT, .CORE_WM_STAT_WM_EVENT, .CORE_WM_STAT_WM_LEVEL]) ++ onFam .route (errFields ++ fCnt) ++ onFam
      .bridge (errFields ++ fCnt ++ [.BRIDGE_LOCK_STAT_HOLDER, .BRIDGE_LOCK_STAT_LOCKED, .BRIDGE_PROOF_WM_STAT_WM_CROSS_CNT,
      .BRIDGE_PROOF_WM_STAT_WM_EVENT, .BRIDGE_PROOF_WM_STAT_WM_LEVEL]) ++ onFam .face (errFields ++ fCnt) ++ onFam .schedg fCnt,
      cnts := [.sec, .guard, .core, .route, .bridge, .face, .schedg], vars := [.cbsAt, .cbsCr, .elogSeq, .lockDest, .msixPend,
      .pcieSent, .pktId, .polAt, .polC, .polP, .redAvg, .stipCnt, .stipSeq, .tagEp], fifos := [.elog, .faceWrote, .missLog,
      .viWrote], parts := [.buf, .free, .fwd, .greqs, .out, .prefs, .slots, .streams, .waiting] }

theorem flushGroup_in {F : Foot} (hF : Foot.flushGroup.le F = true) (p grp : Nat) (a0 : Nat) :
    (flushGroup p grp a0).In F := by
  fun_induction flushGroup p grp a0
  all_goals
  repeat' first
      | assumption
      | (with_reducible first | exact skip_in | exact all_nil_in | refine all_cons_in ?_ ?_ | refine look_in fun _ => ?_ | refine ite_in ?_ ?_ | refine forEach_in fun _ => ?_)
      | ((with_reducible refine modFwd_in ?_); (· exact le_parts hF (by decide +kernel)))
      | ((with_reducible refine returnSub_in ?_ ..); (· exact Foot.le_trans (Foot.le_of_runs (by decide +kernel)) hF))
      | split
      | dsimp only

def Foot.downCompletes : Foot :=
  { regs := onFam .sec (errFields ++ fCnt) ++ onFam .guard (errFields ++ fCnt ++ [.GUARD_ELOG_CTRL_LOST]) ++ onFam .core (fCnt ++
      [.CORE_WM_STAT_WM_CROSS_CNT, .CORE_WM_STAT_WM_EVENT, .CORE_WM_STAT_WM_LEVEL]) ++ onFam .route (errFields ++ fCnt) ++ onFam
      .bridge (errFields ++ fCnt ++ [.BRIDGE_LOCK_STAT_HOLDER, .BRIDGE_LOCK_STAT_LOCKED, .BRIDGE_PROOF_WM_STAT_WM_CROSS_CNT,
      .BRIDGE_PROOF_WM_STAT_WM_EVENT, .BRIDGE_PROOF_WM_STAT_WM_LEVEL]) ++ onFam .face (errFields ++ fCnt) ++ onFam .schedg fCnt,
      cnts := [.sec, .guard, .core, .route, .bridge, .face, .schedg], vars := [.cbsAt, .cbsCr, .elogSeq, .lockDest, .msixPend,
      .pcieSent, .pktId, .polAt, .polC, .polP, .redAvg, .stipCnt, .stipSeq, .tagEp], fifos := [.elog, .faceWrote, .missLog,
      .viWrote], parts := [.buf, .free, .fwd, .greqs, .out, .prefs, .slots, .streams, .waiting] }

theorem downCompletes_in {F : Foot} (hF : Foot.downCompletes.le F = true) (p e : Nat) (t : Tlp) :
    (downCompletes p e t).In F := by
  unfold downCompletes
  repeat' first
      | (with_reducible first | exact all_nil_in | refine all_cons_in ?_ ?_ | refine look_in fun _ => ?_ | refine ite_in ?_ ?_ | refine forSome_in fun _ => ?_)
      | ((with_reducible refine modFwd_in ?_); (· exact le_parts hF (by decide +kernel)))
      | ((with_reducible refine flushGroup_in ?_ ..); (· exact Foot.le_trans (Foot.le_of_runs (by decide +kernel)) hF))
      | split
      | dsimp only

def Foot.finishCopy : Foot :=
  { regs := onFam .core [.CORE_WM_STAT_WM_CROSS_CNT, .CORE_WM_STAT_WM_EVENT, .CORE_WM_STAT_WM_LEVEL], parts := [.buf] }

theorem finishCopy_in {F : Foot} (hF : Foot.finishCopy.le F = true) (p : Nat) :
    (finishCopy p).In F := by
  unfold finishCopy
  repeat' first
      | (with_reducible first | exact all_nil_in | refine all_cons_in ?_ ?_)
      | ((with_reducible refine modBuf_in ?_); (· exact le_parts hF (by decide +kernel)))
      | ((with_reducible refine coreWatch_in ?_ ..); (· exact Foot.le_trans (Foot.le_of_runs (by decide +kernel)) hF))
      | split
      | dsimp only

def Foot.startCopy : Foot :=
  { regs := onFam .guard (errFields ++ fCnt ++ [.GUARD_ELOG_CTRL_LOST]) ++ onFam .core (fCnt ++ [.CORE_WM_STAT_WM_CROSS_CNT,
      .CORE_WM_STAT_WM_EVENT, .CORE_WM_STAT_WM_LEVEL]) ++ onFam .route (errFields ++ fCnt) ++ onFam .bridge (errFields ++ fCnt ++
      [.BRIDGE_LOCK_STAT_HOLDER, .BRIDGE_LOCK_STAT_LOCKED, .BRIDGE_PROOF_WM_STAT_WM_CROSS_CNT, .BRIDGE_PROOF_WM_STAT_WM_EVENT,
      .BRIDGE_PROOF_WM_STAT_WM_LEVEL]) ++ onFam .face fCnt ++ onFam .sched (errFields ++ fCnt), cnts := [.guard, .core, .route,
      .bridge, .face, .sched], vars := [.cbsAt, .cbsCr, .elogSeq, .guardMiss, .guardOpen, .holdCount, .msixPend, .pktId, .redAvg,
      .stipCnt, .stipSeq], fifos := [.elog, .faceWrote, .missLog, .viWrote], parts := [.buf, .free, .greqs, .out, .streams,
      .waiting] }

theorem startCopy_in {F : Foot} (hF : Foot.startCopy.le F = true) (p : Nat) (k : Pkt) :
    (startCopy p k).In F := by
  unfold startCopy
  repeat' first
      | (with_reducible first | exact all_nil_in | refine all_cons_in ?_ ?_ | refine look_in fun _ => ?_ | refine when_in ?_ | refine ite_in ?_ ?_)
      | ((with_reducible refine put_in ?_); (· exact le_vars hF (by decide +kernel)))
      | ((with_reducible refine modBuf_in ?_); (· exact le_parts hF (by decide +kernel)))
      | ((with_reducible refine addCnt_in ?_ ?_ ..); (· rfl); (· first | exact Foot.le_trans (F := Foot.counting .sched) (by decide +kernel) hF))
      | ((with_reducible refine bump_in ?_ ?_ ..); (· rfl); (· first | exact Foot.le_trans (F := Foot.counting .core) (by decide +kernel) hF | exact Foot.le_trans (F := Foot.counting .sched) (by decide +kernel) hF))
      | ((with_reducible refine raise_in ?_ ?_ ..); (· rfl); (· first | exact Foot.le_trans (F := Foot.error .sched) (by decide +kernel) hF))
      | ((with_reducible refine sampleAt_in ?_ ..); (· exact Foot.le_trans (Foot.le_of_runs (by decide +kernel)) hF))
      | split
      | dsimp only

def Foot.linkPm : Foot :=
  { regs := onFam .face [.FACE_PM_STAT_LINK_PM] }

theorem linkPm_in {F : Foot} (hF : Foot.linkPm.le F = true) (p : Nat) :
    (linkPm p).In F := by
  unfold linkPm
  repeat' first
      | (with_reducible first | refine look_in fun _ => ?_ | refine when_in ?_ | refine forSome_in fun _ => ?_)
      | ((with_reducible refine wr_in ?_ ?_); (· first | exact own_mem (show _ ∈ tabFACE by decide +kernel)); (· first | exact le_regs hF (show (Fam.face, _) ∈ _ by decide +kernel)))
      | split
      | dsimp only

def Foot.aspmEnter : Foot :=
  { regs := onFam .port [.PORT_LINK_STAT_STATE] ++ onFam .face [.FACE_PM_STAT_LINK_PM] }

theorem aspmEnter_in {F : Foot} (hF : Foot.aspmEnter.le F = true) (p : Nat) :
    (aspmEnter p).In F := by
  unfold aspmEnter
  repeat' first
      | (with_reducible first | exact all_nil_in | refine all_cons_in ?_ ?_ | refine look_in fun _ => ?_ | refine when_in ?_ | refine ite_in ?_ ?_)
      | ((with_reducible refine wr_in ?_ ?_); (· first | exact own_mem (show _ ∈ tabPORT by decide +kernel)); (· first | exact le_regs hF (show (Fam.port, _) ∈ _ by decide +kernel)))
      | ((with_reducible refine linkPm_in ?_ ..); (· exact Foot.le_trans (Foot.le_of_runs (by decide +kernel)) hF))
      | split
      | dsimp only

def Foot.dropMasterOff : Foot :=
  { regs := onFam .guard (errFields ++ fCnt ++ [.GUARD_ELOG_CTRL_LOST]) ++ onFam .core (fCnt ++ [.CORE_WM_STAT_WM_CROSS_CNT,
      .CORE_WM_STAT_WM_EVENT, .CORE_WM_STAT_WM_LEVEL]) ++ onFam .route (errFields ++ fCnt) ++ onFam .bridge (errFields ++ fCnt ++
      [.BRIDGE_LOCK_STAT_HOLDER, .BRIDGE_LOCK_STAT_LOCKED, .BRIDGE_PROOF_WM_STAT_WM_CROSS_CNT, .BRIDGE_PROOF_WM_STAT_WM_EVENT,
      .BRIDGE_PROOF_WM_STAT_WM_LEVEL]) ++ onFam .face (errFields ++ fCnt) ++ onFam .schedg fCnt, cnts := [.guard, .core, .route,
      .bridge, .face, .schedg], vars := [.cbsAt, .cbsCr, .elogSeq, .lockDest, .msixPend, .pcieSent, .pktId, .polAt, .polC, .polP,
      .redAvg, .stipCnt, .stipSeq, .tagEp], fifos := [.elog, .faceWrote, .missLog, .viWrote], parts := [.buf, .free, .greqs, .out,
      .prefs, .slots, .streams, .waiting] }

theorem dropMasterOff_in {F : Foot} (hF : Foot.dropMasterOff.le F = true) (p f : Nat) :
    (dropMasterOff p f).In F := by
  unfold dropMasterOff
  repeat' first
      | (with_reducible first | exact all_nil_in | refine all_cons_in ?_ ?_ | refine look_in fun _ => ?_ | refine when_in ?_ | refine ite_in ?_ ?_ | refine forEach_in fun _ => ?_)
      | ((with_reducible refine modBuf_in ?_); (· exact le_parts hF (by decide +kernel)))
      | ((with_reducible refine answerNp_in ?_ ..); (· exact Foot.le_trans (Foot.le_of_runs (by decide +kernel)) hF))
      | split
      | dsimp only

def Foot.sendPkt : Foot :=
  { regs := onFam .guard (errFields ++ fCnt ++ [.GUARD_ELOG_CTRL_LOST]) ++ onFam .core (fCnt ++ [.CORE_WM_STAT_WM_CROSS_CNT,
      .CORE_WM_STAT_WM_EVENT, .CORE_WM_STAT_WM_LEVEL]) ++ onFam .route (errFields ++ fCnt) ++ onFam .bridge (errFields ++ fCnt ++
      [.BRIDGE_LOCK_STAT_HOLDER, .BRIDGE_LOCK_STAT_LOCKED, .BRIDGE_PROOF_WM_STAT_WM_CROSS_CNT, .BRIDGE_PROOF_WM_STAT_WM_EVENT,
      .BRIDGE_PROOF_WM_STAT_WM_LEVEL]) ++ onFam .port (fCnt ++ [.PORT_LINK_STAT_STATE]) ++ onFam .face (errFields ++ fCnt ++
      [.FACE_PM_STAT_LINK_PM]) ++ onFam .schedg fCnt ++ onFam .sched (errFields ++ fCnt), cnts := [.guard, .core, .route, .bridge,
      .port, .face, .schedg, .sched], vars := [.cbsAt, .cbsCr, .elogSeq, .guardMiss, .guardOpen, .holdCount, .lockDest, .msixPend,
      .pcieSent, .pktId, .polAt, .polC, .polP, .redAvg, .stipCnt, .stipSeq, .tagEp, .txCount, .txNum, .txSeq, .txUsed], fifos :=
      [.elog, .faceWrote, .missLog, .viWrote], parts := [.buf, .coders, .free, .fwd, .greqs, .out, .prefs, .replay, .slots,
      .streams, .waiting] }

theorem sendPkt_in {F : Foot} (hF : Foot.sendPkt.le F = true) (p : Nat) (k : Pkt) :
    (sendPkt p k).In F := by
  unfold sendPkt
  repeat' first
      | (with_reducible first | exact all_nil_in | refine all_cons_in ?_ ?_ | refine look_in fun _ => ?_ | refine ite_in ?_ ?_ | refine forSome_in fun _ => ?_)
      | ((with_reducible refine wr_in ?_ ?_); (· first | exact hdr_mem rfl (by decide +kernel) | exact own_mem (show _ ∈ tabPORT by decide +kernel)); (· first | exact le_regs hF (show (Fam.face, _) ∈ _ by decide +kernel) | exact le_regs hF (show (Fam.port, _) ∈ _ by decide +kernel)))
      | ((with_reducible refine addCnt_in ?_ ?_ ..); (· rfl); (· first | exact Foot.le_trans (F := Foot.counting .port) (by decide +kernel) hF))
      | ((with_reducible refine bump_in ?_ ?_ ..); (· rfl); (· first | exact Foot.le_trans (F := Foot.counting .port) (by decide +kernel) hF))
      | ((with_reducible refine linkPm_in ?_ ..); (· exact Foot.le_trans (Foot.le_of_runs (by decide +kernel)) hF))
      | ((with_reducible refine sendDown_in ?_ ..); (· exact Foot.le_trans (Foot.le_of_runs (by decide +kernel)) hF))
      | ((with_reducible refine sendSequenced_in ?_ ..); (· exact Foot.le_trans (Foot.le_of_runs (by decide +kernel)) hF))
      | ((with_reducible refine sendUp_in ?_ ..); (· exact Foot.le_trans (Foot.le_of_runs (by decide +kernel)) hF))
      | ((with_reducible refine startCopy_in ?_ ..); (· exact Foot.le_trans (Foot.le_of_runs (by decide +kernel)) hF))
      | split
      | dsimp only

def Foot.sendMarker : Foot :=
  { regs := onFam .port fCnt ++ onFam .face fCnt ++ onFam .schedg fCnt, cnts := [.port, .face, .schedg], vars := [.mkDue, .mkTx,
      .msixPend, .txUsed], fifos := [.faceWrote, .viWrote], parts := [.coders, .out] }

theorem sendMarker_in {F : Foot} (hF : Foot.sendMarker.le F = true) (p : Nat) (m : Marker) :
    (sendMarker p m).In F := by
  unfold sendMarker
  repeat' first
      | (with_reducible first | exact all_nil_in | refine all_cons_in ?_ ?_ | refine look_in fun _ => ?_)
      | ((with_reducible refine put_in ?_); (· exact le_vars hF (by decide +kernel)))
      | ((with_reducible refine addCnt_in ?_ ?_ ..); (· rfl); (· first | exact Foot.le_trans (F := Foot.counting .port) (by decide +kernel) hF))
      | ((with_reducible refine bump_in ?_ ?_ ..); (· rfl); (· first | exact Foot.le_trans (F := Foot.counting .schedg) (by decide +kernel) hF | exact Foot.le_trans (F := Foot.counting .port) (by decide +kernel) hF))
      | ((with_reducible refine linkFrame_in ?_ ..); (· exact Foot.le_trans (Foot.le_of_runs (by decide +kernel)) hF))
      | split
      | dsimp only

def Foot.countDeferred : Foot :=
  { regs := onFam .face fCnt ++ onFam .sched fCnt, cnts := [.face, .sched], vars := [.msixPend], fifos := [.faceWrote, .viWrote],
      parts := [.out] }

theorem countDeferred_in {F : Foot} (hF : Foot.countDeferred.le F = true) (p : Nat) (ks : List Pkt) :
    (countDeferred p ks).In F := by
  unfold countDeferred
  repeat' first
      | (with_reducible first | refine look_in fun _ => ?_ | refine forEach_in fun _ => ?_)
      | ((with_reducible refine bump_in ?_ ?_ ..); (· rfl); (· first | exact Foot.le_trans (F := Foot.counting .sched) (by decide +kernel) hF))
      | split
      | dsimp only

def Foot.gateChange : Foot :=
  { regs := onFam .face fCnt ++ onFam .sched fCnt, cnts := [.face, .sched], vars := [.guardMiss, .guardOpen, .msixPend], fifos :=
      [.faceWrote, .viWrote], parts := [.out] }

theorem gateChange_in {F : Foot} (hF : Foot.gateChange.le F = true) (p old : Nat) :
    (gateChange p old).In F := by
  unfold gateChange
  repeat' first
      | (with_reducible first | exact all_nil_in | refine all_cons_in ?_ ?_ | refine look_in fun _ => ?_ | refine ite_in ?_ ?_ | refine forEach_in fun _ => ?_)
      | ((with_reducible refine put_in ?_); (· exact le_vars hF (by decide +kernel)))
      | ((with_reducible refine bump_in ?_ ?_ ..); (· rfl); (· first | exact Foot.le_trans (F := Foot.counting .sched) (by decide +kernel) hF))
      | split
      | dsimp only

def Foot.hatchCtrlWrite : Foot :=
  { regs := onFam .guard (errFields ++ fCnt ++ [.GUARD_ELOG_CTRL_LOST]) ++ onFam .face fCnt ++ onFam .sched (errFields ++ fCnt ++
      [.SCHED_HATCH_CTRL_ARM, .SCHED_HATCH_CTRL_ARM_LIST, .SCHED_HATCH_CTRL_DISARM, .SCHED_HATCH_CTRL_FB_GATES,
      .SCHED_HATCH_CTRL_FB_MODE, .SCHED_HATCH_CTRL_LATE_POLICY, .SCHED_HATCH_CTRL_NEXT, .SCHED_HATCH_CTRL_STATUS,
      .SCHED_HATCH_STAT_A_STATE, .SCHED_HATCH_STAT_B_STATE]), cnts := [.guard, .face, .sched], vars := [.cbsAt, .cbsCr, .elogSeq,
      .guardMiss, .guardOpen, .hatchAt, .hatchLate, .msixPend], fifos := [.elog, .faceWrote, .viWrote], parts := [.greqs, .out] }

theorem hatchCtrlWrite_in {F : Foot} (hF : Foot.hatchCtrlWrite.le F = true) (st : Stamp) (p v : Nat) :
    (hatchCtrlWrite st p v).In F := by
  unfold hatchCtrlWrite
  repeat' first
      | (with_reducible first | exact all_nil_in | refine all_cons_in ?_ ?_ | refine look_in fun _ => ?_ | refine when_in ?_ | refine ite_in ?_ ?_)
      | ((with_reducible refine wr_in ?_ ?_); (· first | exact own_mem (show _ ∈ tabSCHED by decide +kernel)); (· first | exact le_regs hF (show (Fam.sched, _) ∈ _ by decide +kernel)))
      | ((with_reducible refine plainWrite_in ?_ _ _); (· first | exact fun fi m => le_regs hF ((show ∀ fi ∈ atOff (tabHDR ++ tabSCHED) 0x200, (Fam.sched, fi.1) ∈ Foot.hatchCtrlWrite.regs by decide +kernel) fi m)))
      | ((with_reducible refine gateChange_in ?_ ..); (· exact Foot.le_trans (Foot.le_of_runs (by decide +kernel)) hF))
      | ((with_reducible refine hatchArmFor_in ?_ ..); (· exact Foot.le_trans (Foot.le_of_runs (by decide +kernel)) hF))
      | ((with_reducible refine hatchUnpend_in ?_ ..); (· exact Foot.le_trans (Foot.le_of_runs (by decide +kernel)) hF))
      | ((with_reducible refine shaperAdvance_in ?_ ..); (· exact Foot.le_trans (Foot.le_of_runs (by decide +kernel)) hF))
      | (unfold hatchVerFld; split)
      | split
      | dsimp only

end Sys2Proof.Machine
end

