-- ==== Sys2Proof/Laws/FrameCycle.lean ====
section
/-! SUPPORT. What each update of Machine/Cycle.lean may touch. -/

namespace Sys2Proof.Machine

set_option Elab.async false
set_option linter.unusedTactic false
set_option linter.unreachableTactic false

def Foot.commit : Foot :=
  { vars := [.cycNext, .cycP, .relock, .relockNum] }

theorem commit_in {F : Foot} (hF : Foot.commit.le F = true)  :
    (commit).In F := by
  unfold commit
  repeat' first
      | (with_reducible first | exact skip_in | exact all_nil_in | refine all_cons_in ?_ ?_ | refine look_in fun _ => ?_ | refine ite_in ?_ ?_)
      | ((with_reducible refine put_in ?_); (· exact le_vars hF (by decide +kernel)))
      | split
      | dsimp only

def Foot.cycOutHold : Foot :=
  { vars := [.cycOut], parts := [.out] }

theorem cycOutHold_in {F : Foot} (hF : Foot.cycOutHold.le F = true)  :
    (cycOutHold).In F := by
  unfold cycOutHold
  repeat' first
      | (with_reducible first | exact all_nil_in | refine all_cons_in ?_ ?_ | refine look_in fun _ => ?_ | refine when_in ?_)
      | ((with_reducible refine put_in ?_); (· exact le_vars hF (by decide +kernel)))
      | ((with_reducible refine emit_in ?_); (· exact le_parts hF (by decide +kernel)))
      | split
      | dsimp only

def Foot.setTracker : Foot :=
  { regs := onFam .face fCnt ++ onFam .schedg [.SCHED_CYC_STAT_STATE] ++ onFam .sched (fCnt ++ [.SCHED_HATCH_STAT_ENTRY_NOW]), cnts
      := [.face, .sched], vars := [.cbsAt, .cbsCr, .cycOut, .guardMiss, .guardOpen, .msixPend], fifos := [.faceWrote, .viWrote],
      parts := [.out] }

theorem setTracker_in {F : Foot} (hF : Foot.setTracker.le F = true) (st : Nat) :
    (setTracker st).In F := by
  unfold setTracker
  repeat' first
      | (with_reducible first | exact all_nil_in | refine all_cons_in ?_ ?_ | refine look_in fun _ => ?_ | refine when_in ?_ | refine forBelow_in fun _ => ?_ | refine forEach_in fun _ => ?_ | refine forSome_in fun _ => ?_)
      | ((with_reducible refine wr_in ?_ ?_); (· first | exact own_mem (show _ ∈ tabSCHED by decide +kernel) | exact own_mem (show _ ∈ tabSCHEDG by decide +kernel)); (· first | exact le_regs hF (show (Fam.sched, _) ∈ _ by decide +kernel) | exact le_regs hF (show (Fam.schedg, _) ∈ _ by decide +kernel)))
      | ((with_reducible refine cycOutHold_in ?_ ..); (· exact Foot.le_trans (Foot.le_of_runs (by decide +kernel)) hF))
      | ((with_reducible refine gateChange_in ?_ ..); (· exact Foot.le_trans (Foot.le_of_runs (by decide +kernel)) hF))
      | ((with_reducible refine shaperAdvance_in ?_ ..); (· exact Foot.le_trans (Foot.le_of_runs (by decide +kernel)) hF))
      | split
      | dsimp only

def Foot.acquireAfresh : Foot :=
  { vars := [.acqAt, .acqNum, .edgeIv, .edgeLast, .edgeRun, .mkRun, .relock, .relockNum] }

theorem acquireAfresh_in {F : Foot} (hF : Foot.acquireAfresh.le F = true)  :
    (acquireAfresh).In F := by
  unfold acquireAfresh
  repeat' first
      | (with_reducible first | exact all_nil_in | refine all_cons_in ?_ ?_)
      | ((with_reducible refine put_in ?_); (· exact le_vars hF (by decide +kernel)))
      | split
      | dsimp only

def Foot.enterHoldover : Foot :=
  { regs := onFam .guard (errFields ++ fCnt ++ [.GUARD_ELOG_CTRL_LOST]) ++ onFam .face fCnt ++ onFam .schedg (errFields ++ fCnt ++
      [.SCHED_CYC_STAT_HOLD_LEFT, .SCHED_CYC_STAT_STATE]) ++ onFam .sched (fCnt ++ [.SCHED_HATCH_STAT_ENTRY_NOW]), cnts :=
      [.guard, .face, .schedg, .sched], vars := [.asSource, .cbsAt, .cbsCr, .cycOut, .cycP, .elogSeq, .errRun, .guardMiss,
      .guardOpen, .msixPend], fifos := [.elog, .faceWrote, .viWrote], parts := [.greqs, .out] }

theorem enterHoldover_in {F : Foot} (hF : Foot.enterHoldover.le F = true)  :
    (enterHoldover).In F := by
  unfold enterHoldover
  repeat' first
      | (with_reducible first | exact all_nil_in | refine all_cons_in ?_ ?_ | refine look_in fun _ => ?_ | refine when_in ?_)
      | ((with_reducible refine put_in ?_); (· exact le_vars hF (by decide +kernel)))
      | ((with_reducible refine wr_in ?_ ?_); (· first | exact hdr_mem rfl (by decide +kernel) | exact own_mem (show _ ∈ tabGUARD0 by decide +kernel) | exact own_mem (show _ ∈ tabSCHEDG by decide +kernel)); (· first | exact le_regs hF (show (Fam.face, _) ∈ _ by decide +kernel) | exact le_regs hF (show (Fam.guard, _) ∈ _ by decide +kernel) | exact le_regs hF (show (Fam.schedg, _) ∈ _ by decide +kernel)))
      | ((with_reducible refine bump_in ?_ ?_ ..); (· rfl); (· first | exact Foot.le_trans (F := Foot.counting .schedg) (by decide +kernel) hF))
      | ((with_reducible refine raise_in ?_ ?_ ..); (· rfl); (· first | exact Foot.le_trans (F := Foot.error .schedg) (by decide +kernel) hF))
      | ((with_reducible refine setTracker_in ?_ ..); (· exact Foot.le_trans (Foot.le_of_runs (by decide +kernel)) hF))
      | split
      | dsimp only

def Foot.enterFallback : Foot :=
  { regs := onFam .guard (errFields ++ fCnt ++ [.GUARD_ELOG_CTRL_LOST]) ++ onFam .face fCnt ++ onFam .sched errFields, cnts :=
      [.guard, .face], vars := [.elogSeq, .msixPend], fifos := [.elog, .faceWrote, .viWrote], parts := [.greqs, .out] }

theorem enterFallback_in {F : Foot} (hF : Foot.enterFallback.le F = true)  :
    (enterFallback).In F := by
  unfold enterFallback
  repeat' first
      | (with_reducible first | refine look_in fun _ => ?_ | refine forEach_in fun _ => ?_)
      | ((with_reducible refine raise_in ?_ ?_ ..); (· rfl); (· first | exact Foot.le_trans (F := Foot.error .sched) (by decide +kernel) hF))
      | split
      | dsimp only

def Foot.enterLost : Foot :=
  { regs := onFam .guard (errFields ++ fCnt ++ [.GUARD_ELOG_CTRL_LOST]) ++ onFam .face fCnt ++ onFam .schedg (errFields ++
      [.SCHED_CYC_STAT_HOLD_LEFT, .SCHED_CYC_STAT_STATE]) ++ onFam .sched (errFields ++ fCnt ++ [.SCHED_HATCH_STAT_ENTRY_NOW]),
      cnts := [.guard, .face, .sched], vars := [.acqAt, .acqNum, .cbsAt, .cbsCr, .cycOut, .edgeIv, .edgeLast, .edgeRun, .elogSeq,
      .guardMiss, .guardOpen, .mkRun, .msixPend, .relock, .relockNum], fifos := [.elog, .faceWrote, .viWrote], parts := [.greqs,
      .out] }

theorem enterLost_in {F : Foot} (hF : Foot.enterLost.le F = true)  :
    (enterLost).In F := by
  unfold enterLost
  repeat' first
      | (with_reducible first | exact all_nil_in | refine all_cons_in ?_ ?_)
      | ((with_reducible refine wr_in ?_ ?_); (· first | exact hdr_mem rfl (by decide +kernel) | exact own_mem (show _ ∈ tabGUARD0 by decide +kernel) | exact own_mem (show _ ∈ tabSCHEDG by decide +kernel)); (· first | exact le_regs hF (show (Fam.face, _) ∈ _ by decide +kernel) | exact le_regs hF (show (Fam.guard, _) ∈ _ by decide +kernel) | exact le_regs hF (show (Fam.schedg, _) ∈ _ by decide +kernel)))
      | ((with_reducible refine raise_in ?_ ?_ ..); (· rfl); (· first | exact Foot.le_trans (F := Foot.error .schedg) (by decide +kernel) hF))
      | ((with_reducible refine acquireAfresh_in ?_ ..); (· exact Foot.le_trans (Foot.le_of_runs (by decide +kernel)) hF))
      | ((with_reducible refine enterFallback_in ?_ ..); (· exact Foot.le_trans (Foot.le_of_runs (by decide +kernel)) hF))
      | ((with_reducible refine setTracker_in ?_ ..); (· exact Foot.le_trans (Foot.le_of_runs (by decide +kernel)) hF))
      | split
      | dsimp only

def Foot.leaveHoldover : Foot :=
  { regs := onFam .face fCnt ++ onFam .schedg (fCnt ++ [.SCHED_CYC_STAT_HOLD_LEFT, .SCHED_CYC_STAT_STATE]) ++ onFam .sched (fCnt ++
      [.SCHED_HATCH_STAT_ENTRY_NOW]), cnts := [.face, .schedg, .sched], vars := [.cbsAt, .cbsCr, .cycOut, .errRun, .guardMiss,
      .guardOpen, .msixPend], fifos := [.faceWrote, .viWrote], parts := [.out] }

theorem leaveHoldover_in {F : Foot} (hF : Foot.leaveHoldover.le F = true)  :
    (leaveHoldover).In F := by
  unfold leaveHoldover
  repeat' first
      | (with_reducible first | exact all_nil_in | refine all_cons_in ?_ ?_)
      | ((with_reducible refine put_in ?_); (· exact le_vars hF (by decide +kernel)))
      | ((with_reducible refine wr_in ?_ ?_); (· first | exact hdr_mem rfl (by decide +kernel) | exact own_mem (show _ ∈ tabSCHEDG by decide +kernel)); (· first | exact le_regs hF (show (Fam.face, _) ∈ _ by decide +kernel) | exact le_regs hF (show (Fam.schedg, _) ∈ _ by decide +kernel)))
      | ((with_reducible refine bump_in ?_ ?_ ..); (· rfl); (· first | exact Foot.le_trans (F := Foot.counting .schedg) (by decide +kernel) hF))
      | ((with_reducible refine setTracker_in ?_ ..); (· exact Foot.le_trans (Foot.le_of_runs (by decide +kernel)) hF))
      | split
      | dsimp only

def Foot.boundaryMissed : Foot :=
  { regs := onFam .guard (errFields ++ fCnt ++ [.GUARD_ELOG_CTRL_LOST]) ++ onFam .face fCnt ++ onFam .schedg (errFields ++ fCnt ++
      [.SCHED_CYC_STAT_HOLD_LEFT, .SCHED_CYC_STAT_STATE]) ++ onFam .sched (errFields ++ fCnt ++ [.SCHED_HATCH_STAT_ENTRY_NOW]),
      cnts := [.guard, .face, .schedg, .sched], vars := [.acqAt, .acqNum, .asSource, .cbsAt, .cbsCr, .cycEdge, .cycOut, .cycP,
      .edgeIv, .edgeLast, .edgeRun, .elogSeq, .errRun, .guardMiss, .guardOpen, .mkRun, .msixPend, .relock, .relockNum], fifos :=
      [.elog, .faceWrote, .viWrote], parts := [.greqs, .out] }

theorem boundaryMissed_in {F : Foot} (hF : Foot.boundaryMissed.le F = true)  :
    (boundaryMissed).In F := by
  unfold boundaryMissed
  repeat' first
      | (with_reducible first | exact all_nil_in | refine all_cons_in ?_ ?_ | refine look_in fun _ => ?_ | refine when_in ?_ | refine ite_in ?_ ?_)
      | ((with_reducible refine put_in ?_); (· exact le_vars hF (by decide +kernel)))
      | ((with_reducible refine wr_in ?_ ?_); (· first | exact own_mem (show _ ∈ tabSCHEDG by decide +kernel)); (· first | exact le_regs hF (show (Fam.schedg, _) ∈ _ by decide +kernel)))
      | ((with_reducible refine enterHoldover_in ?_ ..); (· exact Foot.le_trans (Foot.le_of_runs (by decide +kernel)) hF))
      | ((with_reducible refine enterLost_in ?_ ..); (· exact Foot.le_trans (Foot.le_of_runs (by decide +kernel)) hF))
      | split
      | dsimp only

def Foot.erraticEdge : Foot :=
  { regs := onFam .guard (errFields ++ fCnt ++ [.GUARD_ELOG_CTRL_LOST]) ++ onFam .face fCnt ++ onFam .schedg (errFields ++ fCnt),
      cnts := [.guard, .face, .schedg], vars := [.elogSeq, .msixPend], fifos := [.elog, .faceWrote, .viWrote], parts := [.greqs,
      .out] }

theorem erraticEdge_in {F : Foot} (hF : Foot.erraticEdge.le F = true)  :
    (erraticEdge).In F := by
  unfold erraticEdge
  repeat' first
      | (with_reducible first | exact all_nil_in | refine all_cons_in ?_ ?_)
      | ((with_reducible refine bump_in ?_ ?_ ..); (· rfl); (· first | exact Foot.le_trans (F := Foot.counting .schedg) (by decide +kernel) hF))
      | ((with_reducible refine raise_in ?_ ?_ ..); (· rfl); (· first | exact Foot.le_trans (F := Foot.error .schedg) (by decide +kernel) hF))
      | split
      | dsimp only

def Foot.firstOfRun : Foot :=
  { vars := [.edgeIv, .edgeLast, .edgeRun] }

theorem firstOfRun_in {F : Foot} (hF : Foot.firstOfRun.le F = true) (t : Nat) :
    (firstOfRun t).In F := by
  unfold firstOfRun
  repeat' first
      | (with_reducible first | exact all_nil_in | refine all_cons_in ?_ ?_)
      | ((with_reducible refine put_in ?_); (· exact le_vars hF (by decide +kernel)))
      | split
      | dsimp only

def Foot.acquireEdge : Foot :=
  { regs := onFam .guard (errFields ++ fCnt ++ [.GUARD_ELOG_CTRL_LOST]) ++ onFam .face fCnt ++ onFam .schedg (errFields ++ fCnt),
      cnts := [.guard, .face, .schedg], vars := [.acqAt, .edgeIv, .edgeLast, .edgeRun, .elogSeq, .msixPend], fifos := [.elog,
      .faceWrote, .viWrote], parts := [.greqs, .out] }

theorem acquireEdge_in {F : Foot} (hF : Foot.acquireEdge.le F = true) (t : Nat) (got : Nat → Upd) (h_got : ∀ z0, (got z0).In F) :
    (acquireEdge t got).In F := by
  unfold acquireEdge
  repeat' first
      | (with_reducible first | exact all_nil_in | refine all_cons_in ?_ ?_ | refine look_in fun _ => ?_ | refine when_in ?_ | refine ite_in ?_ ?_)
      | with_reducible exact h_got _
      | ((with_reducible refine put_in ?_); (· exact le_vars hF (by decide +kernel)))
      | ((with_reducible refine bump_in ?_ ?_ ..); (· rfl); (· first | exact Foot.le_trans (F := Foot.counting .schedg) (by decide +kernel) hF))
      | ((with_reducible refine erraticEdge_in ?_ ..); (· exact Foot.le_trans (Foot.le_of_runs (by decide +kernel)) hF))
      | ((with_reducible refine firstOfRun_in ?_ ..); (· exact Foot.le_trans (Foot.le_of_runs (by decide +kernel)) hF))
      | split
      | dsimp only

def Foot.edgeAhead : Foot :=
  { regs := onFam .face fCnt ++ onFam .schedg fCnt, cnts := [.face, .schedg], vars := [.cycEdgeNext, .cycResNext, .msixPend], fifos
      := [.faceWrote, .viWrote], parts := [.out] }

theorem edgeAhead_in {F : Foot} (hF : Foot.edgeAhead.le F = true) (t b : Nat) :
    (edgeAhead t b).In F := by
  unfold edgeAhead
  repeat' first
      | (with_reducible first | exact all_nil_in | refine all_cons_in ?_ ?_)
      | ((with_reducible refine put_in ?_); (· exact le_vars hF (by decide +kernel)))
      | ((with_reducible refine bump_in ?_ ?_ ..); (· rfl); (· first | exact Foot.le_trans (F := Foot.counting .schedg) (by decide +kernel) hF))
      | split
      | dsimp only

def Foot.erraticMarker : Foot :=
  { regs := onFam .guard (errFields ++ fCnt ++ [.GUARD_ELOG_CTRL_LOST]) ++ onFam .face fCnt ++ onFam .schedg (errFields ++ fCnt ++
      [.SCHED_CYC_STAT_HOLD_LEFT, .SCHED_CYC_STAT_STATE]) ++ onFam .sched (fCnt ++ [.SCHED_HATCH_STAT_ENTRY_NOW]), cnts :=
      [.guard, .face, .schedg, .sched], vars := [.asSource, .cbsAt, .cbsCr, .cycFirst, .cycOut, .cycP, .elogSeq, .errRun,
      .guardMiss, .guardOpen, .mkRun, .msixPend], fifos := [.elog, .faceWrote, .viWrote], parts := [.greqs, .out] }

theorem erraticMarker_in {F : Foot} (hF : Foot.erraticMarker.le F = true) (inUse : Bool) :
    (erraticMarker inUse).In F := by
  unfold erraticMarker
  repeat' first
      | (with_reducible first | exact all_nil_in | refine all_cons_in ?_ ?_ | refine look_in fun _ => ?_ | refine when_in ?_)
      | ((with_reducible refine put_in ?_); (· exact le_vars hF (by decide +kernel)))
      | ((with_reducible refine bump_in ?_ ?_ ..); (· rfl); (· first | exact Foot.le_trans (F := Foot.counting .schedg) (by decide +kernel) hF))
      | ((with_reducible refine raise_in ?_ ?_ ..); (· rfl); (· first | exact Foot.le_trans (F := Foot.error .schedg) (by decide +kernel) hF))
      | ((with_reducible refine enterHoldover_in ?_ ..); (· exact Foot.le_trans (Foot.le_of_runs (by decide +kernel)) hF))
      | split
      | dsimp only

def Foot.correctTime : Foot :=
  { regs := onFam .guard (errFields ++ fCnt ++ [.GUARD_ELOG_CTRL_LOST]) ++ onFam .face fCnt ++ onFam .schedg (errFields ++ fCnt ++
      [.SCHED_STEP_BACK_NS]), cnts := [.guard, .face, .schedg], vars := [.elogSeq, .msixPend, .slew], fifos := [.elog, .faceWrote,
      .viWrote], parts := [.greqs, .now, .out] }

theorem correctTime_in {F : Foot} (hF : Foot.correctTime.le F = true) (o : Int) :
    (correctTime o).In F := by
  unfold correctTime
  repeat' first
      | (with_reducible first | exact all_nil_in | refine all_cons_in ?_ ?_ | refine look_in fun _ => ?_ | refine when_in ?_ | refine ite_in ?_ ?_)
      | ((with_reducible refine put_in ?_); (· exact le_vars hF (by decide +kernel)))
      | ((with_reducible refine setNow_in ?_); (· exact le_parts hF (by decide +kernel)))
      | ((with_reducible refine wr_in ?_ ?_); (· first | exact hdr_mem rfl (by decide +kernel) | exact own_mem (show _ ∈ tabGUARD0 by decide +kernel) | exact own_mem (show _ ∈ tabSCHEDG by decide +kernel)); (· first | exact le_regs hF (show (Fam.face, _) ∈ _ by decide +kernel) | exact le_regs hF (show (Fam.guard, _) ∈ _ by decide +kernel) | exact le_regs hF (show (Fam.schedg, _) ∈ _ by decide +kernel)))
      | ((with_reducible refine bump_in ?_ ?_ ..); (· rfl); (· first | exact Foot.le_trans (F := Foot.counting .schedg) (by decide +kernel) hF))
      | ((with_reducible refine raise_in ?_ ?_ ..); (· rfl); (· first | exact Foot.le_trans (F := Foot.error .schedg) (by decide +kernel) hF))
      | split
      | dsimp only

def Foot.adopt : Foot :=
  { vars := [.acqAt, .acqNum, .cycFirst, .cycFirstLen, .cycFirstNum, .cycLast, .cycNext, .cycNext2, .cycP, .mkRun] }

theorem adopt_in {F : Foot} (hF : Foot.adopt.le F = true) (m : Marker) :
    (adopt m).In F := by
  unfold adopt
  repeat' first
      | (with_reducible first | exact all_nil_in | refine all_cons_in ?_ ?_ | refine look_in fun _ => ?_ | refine when_in ?_ | refine ite_in ?_ ?_)
      | ((with_reducible refine put_in ?_); (· exact le_vars hF (by decide +kernel)))
      | split
      | dsimp only

def Foot.followState : Foot :=
  { regs := onFam .guard (errFields ++ fCnt ++ [.GUARD_ELOG_CTRL_LOST]) ++ onFam .face fCnt ++ onFam .schedg (errFields ++ fCnt ++
      [.SCHED_CYC_STAT_HOLD_LEFT, .SCHED_CYC_STAT_STATE]) ++ onFam .sched (errFields ++ fCnt ++ [.SCHED_HATCH_STAT_ENTRY_NOW]),
      cnts := [.guard, .face, .schedg, .sched], vars := [.asSource, .cbsAt, .cbsCr, .cycOut, .elogSeq, .errRun, .guardMiss,
      .guardOpen, .msixPend], fifos := [.elog, .faceWrote, .viWrote], parts := [.greqs, .out] }

theorem followState_in {F : Foot} (hF : Foot.followState.le F = true) (st : Nat) :
    (followState st).In F := by
  unfold followState
  repeat' first
      | (with_reducible first | exact skip_in | exact all_nil_in | refine all_cons_in ?_ ?_ | refine look_in fun _ => ?_ | refine when_in ?_ | refine ite_in ?_ ?_)
      | ((with_reducible refine put_in ?_); (· exact le_vars hF (by decide +kernel)))
      | ((with_reducible refine bump_in ?_ ?_ ..); (· rfl); (· first | exact Foot.le_trans (F := Foot.counting .schedg) (by decide +kernel) hF))
      | ((with_reducible refine raise_in ?_ ?_ ..); (· rfl); (· first | exact Foot.le_trans (F := Foot.error .schedg) (by decide +kernel) hF))
      | ((with_reducible refine enterFallback_in ?_ ..); (· exact Foot.le_trans (Foot.le_of_runs (by decide +kernel)) hF))
      | ((with_reducible refine leaveHoldover_in ?_ ..); (· exact Foot.le_trans (Foot.le_of_runs (by decide +kernel)) hF))
      | ((with_reducible refine setTracker_in ?_ ..); (· exact Foot.le_trans (Foot.le_of_runs (by decide +kernel)) hF))
      | split
      | dsimp only

def Foot.useMarker : Foot :=
  { regs := onFam .guard (errFields ++ fCnt ++ [.GUARD_ELOG_CTRL_LOST]) ++ onFam .face fCnt ++ onFam .schedg (errFields ++ fCnt ++
      [.SCHED_CYC_STAT_HOLD_LEFT, .SCHED_CYC_STAT_STATE, .SCHED_CYC_STAT_STRATUM, .SCHED_SRC_MEAS_DELAY, .SCHED_SRC_MEAS_OFFSET,
      .SCHED_STEP_BACK_NS]) ++ onFam .sched (errFields ++ fCnt ++ [.SCHED_HATCH_STAT_ENTRY_NOW]), cnts := [.guard, .face, .schedg,
      .sched], vars := [.acqAt, .acqNum, .asSource, .cbsAt, .cbsCr, .cycEdge, .cycFirst, .cycFirstLen, .cycFirstNum, .cycLast,
      .cycNext, .cycNext2, .cycOut, .cycP, .elogSeq, .errRun, .guardMiss, .guardOpen, .mkRun, .mkStratum, .msixPend, .slew], fifos
      := [.delays, .elog, .faceWrote, .viWrote], parts := [.greqs, .now, .out] }

theorem useMarker_in {F : Foot} (hF : Foot.useMarker.le F = true) (m : Marker) :
    (useMarker m).In F := by
  unfold useMarker
  repeat' first
      | (with_reducible first | exact all_nil_in | refine all_cons_in ?_ ?_ | refine look_in fun _ => ?_ | refine when_in ?_)
      | ((with_reducible refine put_in ?_); (· exact le_vars hF (by decide +kernel)))
      | ((with_reducible refine putFifo_in ?_); (· exact le_fifos hF (by decide +kernel)))
      | ((with_reducible refine wr_in ?_ ?_); (· first | exact hdr_mem rfl (by decide +kernel) | exact own_mem (show _ ∈ tabSCHEDG by decide +kernel)); (· first | exact le_regs hF (show (Fam.face, _) ∈ _ by decide +kernel) | exact le_regs hF (show (Fam.schedg, _) ∈ _ by decide +kernel)))
      | ((with_reducible refine bump_in ?_ ?_ ..); (· rfl); (· first | exact Foot.le_trans (F := Foot.counting .schedg) (by decide +kernel) hF))
      | ((with_reducible refine adopt_in ?_ ..); (· exact Foot.le_trans (Foot.le_of_runs (by decide +kernel)) hF))
      | ((with_reducible refine correctTime_in ?_ ..); (· exact Foot.le_trans (Foot.le_of_runs (by decide +kernel)) hF))
      | ((with_reducible refine followState_in ?_ ..); (· exact Foot.le_trans (Foot.le_of_runs (by decide +kernel)) hF))
      | split
      | dsimp only

def Foot.checkDisagree : Foot :=
  { regs := onFam .guard (errFields ++ fCnt ++ [.GUARD_ELOG_CTRL_LOST]) ++ onFam .face fCnt ++ onFam .schedg errFields, cnts :=
      [.guard, .face], vars := [.elogSeq, .msixPend], fifos := [.elog, .faceWrote, .viWrote], parts := [.greqs, .out] }

theorem checkDisagree_in {F : Foot} (hF : Foot.checkDisagree.le F = true)  :
    (checkDisagree).In F := by
  unfold checkDisagree
  repeat' first
      | (with_reducible first | refine look_in fun _ => ?_ | refine when_in ?_)
      | ((with_reducible refine raise_in ?_ ?_ ..); (· rfl); (· first | exact Foot.le_trans (F := Foot.error .schedg) (by decide +kernel) hF))
      | split
      | dsimp only

def Foot.followMarker : Foot :=
  { regs := onFam .guard (errFields ++ fCnt ++ [.GUARD_ELOG_CTRL_LOST]) ++ onFam .face fCnt ++ onFam .schedg (errFields ++ fCnt ++
      [.SCHED_CYC_STAT_HOLD_LEFT, .SCHED_CYC_STAT_STATE, .SCHED_CYC_STAT_STRATUM, .SCHED_SRC_MEAS_DELAY, .SCHED_SRC_MEAS_OFFSET,
      .SCHED_STEP_BACK_NS]) ++ onFam .sched (errFields ++ fCnt ++ [.SCHED_HATCH_STAT_ENTRY_NOW]), cnts := [.guard, .face, .schedg,
      .sched], vars := [.acqAt, .acqNum, .asSource, .cbsAt, .cbsCr, .cycEdge, .cycFirst, .cycFirstLen, .cycFirstNum, .cycLast,
      .cycNext, .cycNext2, .cycOut, .cycP, .elogSeq, .errRun, .guardMiss, .guardOpen, .mkAgree, .mkBound, .mkCyc, .mkRun,
      .mkStratum, .msixPend, .slew], fifos := [.delays, .elog, .faceWrote, .viWrote], parts := [.greqs, .now, .out] }

theorem followMarker_in {F : Foot} (hF : Foot.followMarker.le F = true) (p : Nat) (m : Marker) :
    (followMarker p m).In F := by
  unfold followMarker
  repeat' first
      | (with_reducible first | exact all_nil_in | refine all_cons_in ?_ ?_ | refine look_in fun _ => ?_ | refine when_in ?_ | refine ite_in ?_ ?_)
      | ((with_reducible refine put_in ?_); (· exact le_vars hF (by decide +kernel)))
      | ((with_reducible refine checkDisagree_in ?_ ..); (· exact Foot.le_trans (Foot.le_of_runs (by decide +kernel)) hF))
      | ((with_reducible refine erraticMarker_in ?_ ..); (· exact Foot.le_trans (Foot.le_of_runs (by decide +kernel)) hF))
      | ((with_reducible refine useMarker_in ?_ ..); (· exact Foot.le_trans (Foot.le_of_runs (by decide +kernel)) hF))
      | split
      | dsimp only

def Foot.markerArrives : Foot :=
  { regs := onFam .guard (errFields ++ fCnt ++ [.GUARD_ELOG_CTRL_LOST]) ++ onFam .port (errFields ++ fCnt) ++ onFam .face fCnt ++
      onFam .schedg (errFields ++ fCnt ++ [.SCHED_CYC_STAT_HOLD_LEFT, .SCHED_CYC_STAT_STATE, .SCHED_CYC_STAT_STRATUM,
      .SCHED_SRC_MEAS_DELAY, .SCHED_SRC_MEAS_OFFSET, .SCHED_STEP_BACK_NS]) ++ onFam .sched (errFields ++ fCnt ++
      [.SCHED_HATCH_STAT_ENTRY_NOW]), cnts := [.guard, .port, .face, .schedg, .sched], vars := [.acqAt, .acqNum, .asSource,
      .cbsAt, .cbsCr, .crUsed, .cycEdge, .cycFirst, .cycFirstLen, .cycFirstNum, .cycLast, .cycNext, .cycNext2, .cycOut, .cycP,
      .elogSeq, .errRun, .guardMiss, .guardOpen, .mkAgree, .mkBound, .mkCyc, .mkEchoT1, .mkEchoT2, .mkRun, .mkRx, .mkStratum,
      .msixPend, .slew], fifos := [.delays, .elog, .faceWrote, .viWrote], parts := [.greqs, .now, .out] }

theorem markerArrives_in {F : Foot} (hF : Foot.markerArrives.le F = true) (p : Nat) (lf : LinkFrame) :
    (markerArrives p lf).In F := by
  unfold markerArrives
  repeat' first
      | (with_reducible first | exact all_nil_in | refine all_cons_in ?_ ?_ | refine look_in fun _ => ?_ | refine when_in ?_ | refine ite_in ?_ ?_)
      | ((with_reducible refine put_in ?_); (· exact le_vars hF (by decide +kernel)))
      | ((with_reducible refine addCnt_in ?_ ?_ ..); (· rfl); (· first | exact Foot.le_trans (F := Foot.counting .port) (by decide +kernel) hF))
      | ((with_reducible refine bump_in ?_ ?_ ..); (· rfl); (· first | exact Foot.le_trans (F := Foot.counting .port) (by decide +kernel) hF))
      | ((with_reducible refine raise_in ?_ ?_ ..); (· rfl); (· first | exact Foot.le_trans (F := Foot.error .port) (by decide +kernel) hF))
      | ((with_reducible refine followMarker_in ?_ ..); (· exact Foot.le_trans (Foot.le_of_runs (by decide +kernel)) hF))
      | split
      | dsimp only

def Foot.sourceMove : Foot :=
  { regs := onFam .guard (errFields ++ fCnt ++ [.GUARD_ELOG_CTRL_LOST]) ++ onFam .face fCnt ++ onFam .schedg (errFields ++ fCnt ++
      [.SCHED_CYC_STAT_ON_ALT]), cnts := [.guard, .face, .schedg], vars := [.elogSeq, .errRun, .msixPend], fifos := [.delays,
      .elog, .faceWrote, .viWrote], parts := [.greqs, .out] }

theorem sourceMove_in {F : Foot} (hF : Foot.sourceMove.le F = true)  :
    (sourceMove).In F := by
  unfold sourceMove
  repeat' first
      | (with_reducible first | exact all_nil_in | refine all_cons_in ?_ ?_ | refine look_in fun _ => ?_ | refine when_in ?_)
      | ((with_reducible refine put_in ?_); (· exact le_vars hF (by decide +kernel)))
      | ((with_reducible refine putFifo_in ?_); (· exact le_fifos hF (by decide +kernel)))
      | ((with_reducible refine wr_in ?_ ?_); (· first | exact hdr_mem rfl (by decide +kernel) | exact own_mem (show _ ∈ tabGUARD0 by decide +kernel) | exact own_mem (show _ ∈ tabSCHEDG by decide +kernel)); (· first | exact le_regs hF (show (Fam.face, _) ∈ _ by decide +kernel) | exact le_regs hF (show (Fam.guard, _) ∈ _ by decide +kernel) | exact le_regs hF (show (Fam.schedg, _) ∈ _ by decide +kernel)))
      | ((with_reducible refine bump_in ?_ ?_ ..); (· rfl); (· first | exact Foot.le_trans (F := Foot.counting .schedg) (by decide +kernel) hF))
      | ((with_reducible refine raise_in ?_ ?_ ..); (· rfl); (· first | exact Foot.le_trans (F := Foot.error .schedg) (by decide +kernel) hF))
      | split
      | dsimp only

def Foot.sourceChanged : Foot :=
  { regs := onFam .guard (errFields ++ fCnt ++ [.GUARD_ELOG_CTRL_LOST]) ++ onFam .face fCnt ++ onFam .schedg (errFields ++ fCnt ++
      [.SCHED_CYC_STAT_HOLD_LEFT, .SCHED_CYC_STAT_ON_ALT, .SCHED_CYC_STAT_STATE, .SCHED_CYC_STAT_STRATUM]) ++ onFam .sched (fCnt
      ++ [.SCHED_HATCH_STAT_ENTRY_NOW]), cnts := [.guard, .face, .schedg, .sched], vars := [.acqAt, .acqNum, .asSource, .cbsAt,
      .cbsCr, .cycEdgeNext, .cycFirst, .cycNext, .cycOut, .cycP, .cycResNext, .edgeIv, .edgeLast, .edgeRun, .elogSeq, .errRun,
      .guardMiss, .guardOpen, .mkAgree, .mkBound, .mkCyc, .mkRun, .msixPend, .relock, .relockNum, .toFree], fifos := [.delays,
      .elog, .faceWrote, .viWrote], parts := [.greqs, .out] }

theorem sourceChanged_in {F : Foot} (hF : Foot.sourceChanged.le F = true)  :
    (sourceChanged).In F := by
  unfold sourceChanged
  repeat' first
      | (with_reducible first | exact all_nil_in | refine all_cons_in ?_ ?_ | refine look_in fun _ => ?_ | refine when_in ?_ | refine ite_in ?_ ?_)
      | ((with_reducible refine put_in ?_); (· exact le_vars hF (by decide +kernel)))
      | ((with_reducible refine clearIv_in ?_); (· exact le_vars hF (by decide +kernel)))
      | ((with_reducible refine putFifo_in ?_); (· exact le_fifos hF (by decide +kernel)))
      | ((with_reducible refine wr_in ?_ ?_); (· first | exact own_mem (show _ ∈ tabSCHEDG by decide +kernel)); (· first | exact le_regs hF (show (Fam.schedg, _) ∈ _ by decide +kernel)))
      | ((with_reducible refine acquireAfresh_in ?_ ..); (· exact Foot.le_trans (Foot.le_of_runs (by decide +kernel)) hF))
      | ((with_reducible refine enterHoldover_in ?_ ..); (· exact Foot.le_trans (Foot.le_of_runs (by decide +kernel)) hF))
      | split
      | dsimp only

def Foot.cycCfgWrite : Foot :=
  { regs := onFam .guard (errFields ++ fCnt ++ [.GUARD_ELOG_CTRL_LOST]) ++ onFam .face fCnt ++ onFam .schedg (errFields ++ fCnt ++
      [.SCHED_CYC_CFG_ALT_EN, .SCHED_CYC_CFG_ALT_PORT, .SCHED_CYC_CFG_KI, .SCHED_CYC_CFG_KP, .SCHED_CYC_CFG_SRC,
      .SCHED_CYC_CFG_SRC_PORT, .SCHED_CYC_CFG_WINDOW, .SCHED_CYC_STAT_HOLD_LEFT, .SCHED_CYC_STAT_ON_ALT, .SCHED_CYC_STAT_STATE,
      .SCHED_CYC_STAT_STRATUM, .SCHED_MK_CFG_INTERVAL, .SCHED_MK_CFG_MASTER_ID, .SCHED_MK_CFG_STEP_LIMIT]) ++ onFam .sched (fCnt
      ++ [.SCHED_HATCH_STAT_ENTRY_NOW]), cnts := [.guard, .face, .schedg, .sched], vars := [.acqAt, .acqNum, .asSource, .cbsAt,
      .cbsCr, .cycEdgeNext, .cycFirst, .cycNext, .cycOut, .cycP, .cycResNext, .edgeIv, .edgeLast, .edgeRun, .elogSeq, .errRun,
      .guardMiss, .guardOpen, .mkAgree, .mkBound, .mkCyc, .mkRun, .msixPend, .relock, .relockNum, .toFree], fifos := [.delays,
      .elog, .faceWrote, .viWrote], parts := [.greqs, .out] }

theorem cycCfgWrite_in {F : Foot} (hF : Foot.cycCfgWrite.le F = true) (st : Stamp) (mk : Bool) (v : Nat) :
    (cycCfgWrite st mk v).In F := by
  unfold cycCfgWrite
  repeat' first
      | (with_reducible first | exact all_nil_in | refine all_cons_in ?_ ?_ | refine look_in fun _ => ?_ | refine when_in ?_ | refine ite_in ?_ ?_)
      | ((with_reducible refine plainWrite_in ?_ _ _); (· first | exact fun fi m => le_regs hF ((show ∀ fi ∈ atOff (tabHDR ++ tabSCHEDG) 0x138, (Fam.schedg, fi.1) ∈ Foot.cycCfgWrite.regs by decide +kernel) fi m) | exact fun fi m => le_regs hF ((show ∀ fi ∈ atOff (tabHDR ++ tabSCHEDG) 0x100, (Fam.schedg, fi.1) ∈ Foot.cycCfgWrite.regs by decide +kernel) fi m)))
      | ((with_reducible refine sourceChanged_in ?_ ..); (· exact Foot.le_trans (Foot.le_of_runs (by decide +kernel)) hF))
      | split
      | dsimp only

def Foot.cycOutRise : Foot :=
  { vars := [.cycOut], parts := [.out] }

theorem cycOutRise_in {F : Foot} (hF : Foot.cycOutRise.le F = true)  :
    (cycOutRise).In F := by
  unfold cycOutRise
  repeat' first
      | (with_reducible first | exact all_nil_in | refine all_cons_in ?_ ?_ | refine look_in fun _ => ?_ | refine when_in ?_)
      | ((with_reducible refine put_in ?_); (· exact le_vars hF (by decide +kernel)))
      | ((with_reducible refine emit_in ?_); (· exact le_parts hF (by decide +kernel)))
      | split
      | dsimp only

def Foot.snapWrite : Foot :=
  { regs := onFam .schedg [.SCHED_SNAP_CTRL_FACE, .SCHED_SNAP_CTRL_GO, .SCHED_SNAP_CTRL_HOST_VALID, .SCHED_SNAP_CTRL_VALID,
      .SCHED_SNAP_CYC_HI_V, .SCHED_SNAP_CYC_V, .SCHED_SNAP_FAB_HI_V, .SCHED_SNAP_FAB_V, .SCHED_SNAP_HOST_HI_V, .SCHED_SNAP_HOST_V,
      .SCHED_SNAP_PHASE_V] }

theorem snapWrite_in {F : Foot} (hF : Foot.snapWrite.le F = true) (st : Stamp) (v : Nat) :
    (snapWrite st v).In F := by
  unfold snapWrite
  repeat' first
      | (with_reducible first | exact all_nil_in | refine all_cons_in ?_ ?_ | refine look_in fun _ => ?_ | refine when_in ?_)
      | ((with_reducible refine wrSt_in ?_ ?_); (· first | exact own_mem (show _ ∈ tabSCHEDG by decide +kernel)); (· first | exact le_regs hF (show (Fam.schedg, _) ∈ _ by decide +kernel)))
      | ((with_reducible refine plainWrite_in ?_ _ _); (· first | exact fun fi m => le_regs hF ((show ∀ fi ∈ atOff (tabHDR ++ tabSCHEDG) 0x150, (Fam.schedg, fi.1) ∈ Foot.snapWrite.regs by decide +kernel) fi m)))
      | split
      | dsimp only

end Sys2Proof.Machine
end

