-- ==== Sys2Proof/Laws/FrameDaend.lean ====
section
/-! SUPPORT. What each update of Machine/Daend.lean may touch. -/

namespace Sys2Proof.Machine

set_option Elab.async false
set_option linter.unusedTactic false
set_option linter.unreachableTactic false

def Foot.acceptFrame : Foot :=
  { regs := onFam .lane (fCnt ++ [.LANE_INJ_CTRL_ONE_SHOT, .LANE_REST_CTRL_IN_REST, .LANE_STAT_STATE]) ++ onFam .port (fCnt ++
      [.PORT_LINK_STAT_STATE]) ++ onFam .face fCnt, cnts := [.lane, .port, .face], vars := [.alignTx, .crUsed, .injAlign,
      .msixPend, .nakSent, .restHeld, .restPend, .restSince, .rxNum, .rxSeq, .rxUnacked], fifos := [.faceWrote, .viWrote], parts
      := [.coders, .out] }

theorem acceptFrame_in {F : Foot} (hF : Foot.acceptFrame.le F = true) (p : Nat) (lf : LinkFrame) :
    (acceptFrame p lf).In F := by
  unfold acceptFrame
  repeat' first
      | (with_reducible first | exact all_nil_in | refine all_cons_in ?_ ?_ | refine look_in fun _ => ?_ | refine when_in ?_)
      | ((with_reducible refine put_in ?_); (· exact le_vars hF (by decide +kernel)))
      | ((with_reducible refine modIv_in ?_); (· exact le_vars hF (by decide +kernel)))
      | ((with_reducible refine addCnt_in ?_ ?_ ..); (· rfl); (· first | exact Foot.le_trans (F := Foot.counting .port) (by decide +kernel) hF))
      | ((with_reducible refine bump_in ?_ ?_ ..); (· rfl); (· first | exact Foot.le_trans (F := Foot.counting .port) (by decide +kernel) hF))
      | ((with_reducible refine sendAck_in ?_ ..); (· exact Foot.le_trans (Foot.le_of_runs (by decide +kernel)) hF))
      | split
      | dsimp only

def Foot.frameCtlBad : Foot :=
  { regs := onFam .guard (errFields ++ fCnt ++ [.GUARD_ELOG_CTRL_LOST]) ++ onFam .port (errFields ++ fCnt) ++ onFam .face fCnt, cnts
      := [.guard, .port, .face], vars := [.elogSeq, .msixPend], fifos := [.elog, .faceWrote, .viWrote], parts := [.greqs, .out] }

theorem frameCtlBad_in {F : Foot} (hF : Foot.frameCtlBad.le F = true) (p : Nat) (lf : LinkFrame) :
    (frameCtlBad p lf).In F := by
  unfold frameCtlBad
  repeat' first
      | (with_reducible first | exact all_nil_in | refine all_cons_in ?_ ?_ | refine when_in ?_)
      | ((with_reducible refine bump_in ?_ ?_ ..); (· rfl); (· first | exact Foot.le_trans (F := Foot.counting .port) (by decide +kernel) hF))
      | ((with_reducible refine raise_in ?_ ?_ ..); (· rfl); (· first | exact Foot.le_trans (F := Foot.error .port) (by decide +kernel) hF))
      | split
      | dsimp only

def Foot.startReplay : Foot :=
  { regs := onFam .sec [.SEC_IDE_STAT_DEV_AUTH, .SEC_IDE_STAT_LINK_ID, .SEC_IDE_STAT_LINK_KSET, .SEC_IDE_STAT_LINK_SECURE,
      .SEC_IDE_STAT_SEL_SECURE, .SEC_IDE_STAT_SEL_VALID, .SEC_LINK_STAT_AUTH_OK, .SEC_LINK_STAT_AUTH_STATUS,
      .SEC_LINK_STAT_PARTNER_DEBUG, .SEC_LINK_STAT_REKEY, .SEC_LINK_STAT_REKEYS] ++ onFam .guard (errFields ++ fCnt ++
      [.GUARD_ELOG_CTRL_LOST]) ++ onFam .lane [.LANE_INJ_CTRL_ONE_SHOT, .LANE_RATE_CFG_RATE_NOW, .LANE_REST_CTRL_IN_REST,
      .LANE_STAT_ALIGN_LOCK, .LANE_STAT_CDR_LOCK, .LANE_STAT_EQ_DONE, .LANE_STAT_EQ_FAIL, .LANE_STAT_EXIT_FAIL, .LANE_STAT_FAILED,
      .LANE_STAT_FEC_LOCK, .LANE_STAT_RX_READY, .LANE_STAT_STATE, .LANE_TX_TAPS_C0, .LANE_TX_TAPS_POST, .LANE_TX_TAPS_PRE] ++
      onFam .core (errFields ++ fCnt ++ [.CORE_WM_STAT_WM_CROSS_CNT, .CORE_WM_STAT_WM_EVENT, .CORE_WM_STAT_WM_LEVEL]) ++ onFam
      .bridge [.BRIDGE_FAB_NBR_PARTNER_PORT, .BRIDGE_FAB_NBR_PARTNER_SW, .BRIDGE_FAB_NBR_VALID] ++ onFam .port (errFields ++ fCnt
      ++ [.PORT_LINK_STAT_ENC, .PORT_LINK_STAT_FLIT, .PORT_LINK_STAT_KEY_PHASE, .PORT_LINK_STAT_LANES_GOOD,
      .PORT_LINK_STAT_RATE_NOW, .PORT_LINK_STAT_STATE, .PORT_LINK_STAT_WIDTH_NOW, .PORT_REPLAY_CNT_CONSEC]) ++ onFam .face (fCnt
      ++ [.FACE_BIND_STATE, .FACE_PM_STAT_LINK_PM]), cnts := [.guard, .core, .port, .face], vars := [.alignMiss, .alignSeen,
      .authDebug, .authStep, .badCw, .crAdv, .crInit, .crUsed, .elogSeq, .eqTimeouts, .ideGo, .ideKey, .injAlign, .lsSeen, .mkDue,
      .mkRx, .mkTx, .msixPend, .nakSent, .nextKey, .ownReq, .paramGot, .paramVal, .partnerAspm, .partnerMax, .partnerReady,
      .partnerRest, .pcieAcked, .pcieRev, .pcieSent, .peerReq, .postStat, .preStat, .presetStat, .rekeying, .replayAt, .restHeld,
      .restPend, .restSince, .rxKey, .rxNum, .rxRest, .rxSeq, .rxUnacked, .skewCnt, .txCount, .txKey, .txLimit, .txNum, .txSeq,
      .txUsed, .wcDone, .wcFrom, .wcId, .wcOldWidth, .wcSet, .widening], fifos := [.elog, .faceWrote, .viWrote], parts := [.buf,
      .greqs, .out, .replay, .streams, .waiting] }

theorem startReplay_in {F : Foot} (hF : Foot.startReplay.le F = true) (p : Nat) :
    (startReplay p).In F := by
  unfold startReplay
  repeat' first
      | (with_reducible first | exact all_nil_in | refine all_cons_in ?_ ?_ | refine look_in fun _ => ?_ | refine when_in ?_)
      | ((with_reducible refine put_in ?_); (· exact le_vars hF (by decide +kernel)))
      | ((with_reducible refine wr_in ?_ ?_); (· first | exact hdr_mem rfl (by decide +kernel) | exact own_mem (show _ ∈ tabPORT by decide +kernel)); (· first | exact le_regs hF (show (Fam.face, _) ∈ _ by decide +kernel) | exact le_regs hF (show (Fam.port, _) ∈ _ by decide +kernel)))
      | ((with_reducible refine bump_in ?_ ?_ ..); (· rfl); (· first | exact Foot.le_trans (F := Foot.counting .port) (by decide +kernel) hF))
      | ((with_reducible refine linkFails_in ?_ ..); (· exact Foot.le_trans (Foot.le_of_runs (by decide +kernel)) hF))
      | split
      | dsimp only

def Foot.keyRelease : Foot :=
  { vars := [.keyOld], parts := [.out] }

theorem keyRelease_in {F : Foot} (hF : Foot.keyRelease.le F = true) (p : Nat) :
    (keyRelease p).In F := by
  unfold keyRelease
  repeat' first
      | (with_reducible first | exact all_nil_in | refine all_cons_in ?_ ?_ | refine look_in fun _ => ?_ | refine when_in ?_)
      | ((with_reducible refine put_in ?_); (· exact le_vars hF (by decide +kernel)))
      | ((with_reducible refine emit_in ?_); (· exact le_parts hF (by decide +kernel)))
      | split
      | dsimp only

def Foot.ackUpTo : Foot :=
  { regs := onFam .port [.PORT_REPLAY_CNT_CONSEC], vars := [.keyOld, .replayAt], parts := [.out, .replay] }

theorem ackUpTo_in {F : Foot} (hF : Foot.ackUpTo.le F = true) (p q : Nat) :
    (ackUpTo p q).In F := by
  unfold ackUpTo
  repeat' first
      | (with_reducible first | exact all_nil_in | refine all_cons_in ?_ ?_ | refine look_in fun _ => ?_ | refine when_in ?_ | refine ite_in ?_ ?_)
      | ((with_reducible refine put_in ?_); (· exact le_vars hF (by decide +kernel)))
      | ((with_reducible refine putReplay_in ?_); (· exact le_parts hF (by decide +kernel)))
      | ((with_reducible refine wr_in ?_ ?_); (· first | exact own_mem (show _ ∈ tabPORT by decide +kernel)); (· first | exact le_regs hF (show (Fam.port, _) ∈ _ by decide +kernel)))
      | ((with_reducible refine keyRelease_in ?_ ..); (· exact Foot.le_trans (Foot.le_of_runs (by decide +kernel)) hF))
      | split
      | dsimp only

def Foot.pcieAckUpTo : Foot :=
  { vars := [.pcieAcked] }

theorem pcieAckUpTo_in {F : Foot} (hF : Foot.pcieAckUpTo.le F = true) (p q : Nat) :
    (pcieAckUpTo p q).In F := by
  unfold pcieAckUpTo
  repeat' first
      | (with_reducible first | refine look_in fun _ => ?_ | refine when_in ?_)
      | ((with_reducible refine put_in ?_); (· exact le_vars hF (by decide +kernel)))
      | split
      | dsimp only

end Sys2Proof.Machine
end

