-- ==== Sys2Proof/Laws/FrameFace.lean ====
section
/-! SUPPORT. What each update of Machine/Face.lean may touch. -/

namespace Sys2Proof.Machine

set_option Elab.async false
set_option linter.unusedTactic false
set_option linter.unreachableTactic false

def Foot.faceBindWrite : Foot :=
  { regs := onFam .guard (errFields ++ fCnt ++ [.GUARD_ELOG_CTRL_LOST]) ++ onFam .face (errFields ++ fCnt ++ [.FACE_BIND_ENABLE,
      .FACE_BIND_MGMT_GRANT, .FACE_BIND_PORT, .FACE_BIND_STATE]), cnts := [.guard, .face], vars := [.elogSeq, .msixPend], fifos :=
      [.elog, .faceWrote, .viWrote], parts := [.greqs, .out] }

theorem faceBindWrite_in {F : Foot} (hF : Foot.faceBindWrite.le F = true) (st : Stamp) (f v : Nat) :
    (faceBindWrite st f v).In F := by
  unfold faceBindWrite
  repeat' first
      | (with_reducible first | exact all_nil_in | refine all_cons_in ?_ ?_ | refine look_in fun _ => ?_ | refine when_in ?_ | refine ite_in ?_ ?_)
      | ((with_reducible refine wr_in ?_ ?_); (· first | exact hdr_mem rfl (by decide +kernel) | exact own_mem (show _ ∈ tabFACE by decide +kernel) | exact own_mem (show _ ∈ tabGUARD0 by decide +kernel)); (· first | exact le_regs hF (show (Fam.face, _) ∈ _ by decide +kernel) | exact le_regs hF (show (Fam.guard, _) ∈ _ by decide +kernel)))
      | ((with_reducible refine raise_in ?_ ?_ ..); (· rfl); (· first | exact Foot.le_trans (F := Foot.error .face) (by decide +kernel) hF))
      | ((with_reducible refine plainWrite_in ?_ _ _); (· first | exact fun fi m => le_regs hF ((show ∀ fi ∈ atOff (tabHDR ++ tabFACE) 0x100, (Fam.face, fi.1) ∈ Foot.faceBindWrite.regs by decide +kernel) fi m)))
      | split
      | dsimp only

def Foot.slotRegsSet : Foot :=
  { vars := [.slotCtl, .slotStat], parts := [.out] }

theorem slotRegsSet_in {F : Foot} (hF : Foot.slotRegsSet.le F = true) (f b c v : Nat) :
    (slotRegsSet f b c v).In F := by
  unfold slotRegsSet
  repeat' first
      | (with_reducible first | exact all_nil_in | refine all_cons_in ?_ ?_ | refine look_in fun _ => ?_ | refine when_in ?_)
      | ((with_reducible refine put_in ?_); (· exact le_vars hF (by decide +kernel)))
      | ((with_reducible refine emit_in ?_); (· exact le_parts hF (by decide +kernel)))
      | split
      | dsimp only

def Foot.slotEvent : Foot :=
  { vars := [.slotCtl, .slotStat], parts := [.out] }

theorem slotEvent_in {F : Foot} (hF : Foot.slotEvent.le F = true) (f n : Nat) (present : Bool) :
    (slotEvent f n present).In F := by
  unfold slotEvent
  repeat' first
      | (with_reducible first | exact all_nil_in | refine all_cons_in ?_ ?_ | refine look_in fun _ => ?_)
      | ((with_reducible refine emit_in ?_); (· exact le_parts hF (by decide +kernel)))
      | ((with_reducible refine slotRegsSet_in ?_ ..); (· exact Foot.le_trans (Foot.le_of_runs (by decide +kernel)) hF))
      | split
      | dsimp only

def Foot.sizeRequests : Foot :=
  { parts := [.out] }

theorem sizeRequests_in {F : Foot} (hF : Foot.sizeRequests.le F = true) (f n : Nat) :
    (sizeRequests f n).In F := by
  unfold sizeRequests
  repeat' first
      | (with_reducible first | refine look_in fun _ => ?_ | refine when_in ?_ | refine forBelow_in fun _ => ?_ | refine forEach_in fun _ => ?_ | refine forSome_in fun _ => ?_)
      | ((with_reducible refine emit_in ?_); (· exact le_parts hF (by decide +kernel)))
      | split
      | dsimp only

def Foot.presEval : Foot :=
  { regs := onFam .guard (errFields ++ fCnt ++ [.GUARD_ELOG_CTRL_LOST]) ++ onFam .face (errFields ++ fCnt ++ [.FACE_BUS_LIMIT_NEED,
      .FACE_BUS_LIMIT_NO_BUS, .FACE_PRES_CONFLICT]), cnts := [.guard, .face], vars := [.elogSeq, .msixPend, .sizing], fifos :=
      [.elog, .faceWrote, .viWrote], parts := [.greqs, .out] }

theorem presEval_in {F : Foot} (hF : Foot.presEval.le F = true) (f : Nat) :
    (presEval f).In F := by
  unfold presEval
  repeat' first
      | (with_reducible first | exact all_nil_in | refine all_cons_in ?_ ?_ | refine look_in fun _ => ?_ | refine when_in ?_ | refine forBelow_in fun _ => ?_ | refine forEach_in fun _ => ?_)
      | ((with_reducible refine put_in ?_); (· exact le_vars hF (by decide +kernel)))
      | ((with_reducible refine wr_in ?_ ?_); (· first | exact hdr_mem rfl (by decide +kernel) | exact own_mem (show _ ∈ tabFACE by decide +kernel) | exact own_mem (show _ ∈ tabGUARD0 by decide +kernel)); (· first | exact le_regs hF (show (Fam.face, _) ∈ _ by decide +kernel) | exact le_regs hF (show (Fam.guard, _) ∈ _ by decide +kernel)))
      | ((with_reducible refine raise_in ?_ ?_ ..); (· rfl); (· first | exact Foot.le_trans (F := Foot.error .face) (by decide +kernel) hF))
      | ((with_reducible refine sizeRequests_in ?_ ..); (· exact Foot.le_trans (Foot.le_of_runs (by decide +kernel)) hF))
      | split
      | dsimp only

def Foot.presHide : Foot :=
  { regs := onFam .face [.FACE_PRES_SHOWN], vars := [.presBar, .presBarSet, .presBase, .presCmd, .presInfo, .presRom, .sizing,
      .slotCtl, .slotStat], parts := [.out] }

theorem presHide_in {F : Foot} (hF : Foot.presHide.le F = true) (f n : Nat) :
    (presHide f n).In F := by
  unfold presHide
  repeat' first
      | (with_reducible first | exact all_nil_in | refine all_cons_in ?_ ?_ | refine look_in fun _ => ?_ | refine when_in ?_)
      | ((with_reducible refine put_in ?_); (· exact le_vars hF (by decide +kernel)))
      | ((with_reducible refine clearIv_in ?_); (· exact le_vars hF (by decide +kernel)))
      | ((with_reducible refine wr_in ?_ ?_); (· first | exact own_mem (show _ ∈ tabFACE by decide +kernel)); (· first | exact le_regs hF (show (Fam.face, _) ∈ _ by decide +kernel)))
      | ((with_reducible refine slotEvent_in ?_ ..); (· exact Foot.le_trans (Foot.le_of_runs (by decide +kernel)) hF))
      | split
      | dsimp only

def Foot.presWrite : Foot :=
  { regs := onFam .guard (errFields ++ fCnt ++ [.GUARD_ELOG_CTRL_LOST]) ++ onFam .face (errFields ++ fCnt ++ [.FACE_BUS_LIMIT_LIMIT,
      .FACE_BUS_LIMIT_NEED, .FACE_BUS_LIMIT_NO_BUS, .FACE_PRES_BUSES, .FACE_PRES_CONFLICT, .FACE_PRES_FEID, .FACE_PRES_SHOWN,
      .FACE_PRES_SUB, .FACE_PRES_VALID, .FACE_PRES_VDP]), cnts := [.guard, .face], vars := [.elogSeq, .msixPend, .presBar,
      .presBarSet, .presBase, .presCmd, .presInfo, .presRom, .sizing, .slotCtl, .slotStat], fifos := [.elog, .faceWrote,
      .viWrote], parts := [.greqs, .out] }

theorem presWrite_in {F : Foot} (hF : Foot.presWrite.le F = true) (st : Stamp) (f : Nat) (n : Option Nat) (v : Nat) (hn : ∀ k, n = some k → k < 255) :
    (presWrite st f n v).In F := by
  unfold presWrite
  repeat' first
      | (with_reducible first | exact all_nil_in | refine all_cons_in ?_ ?_ | refine look_in fun _ => ?_ | refine when_in ?_)
      | ((with_reducible refine plainWrite_in ?_ _ _); (· first | exact fun fi m => le_regs hF ((show ∀ fi ∈ atOff (tabHDR ++ tabFACE) 0x104, (Fam.face, fi.1) ∈ Foot.presWrite.regs by decide +kernel) fi m) | exact fun fi m => le_regs hF ((show ∀ k < 255, ∀ fi ∈ atOff (tabHDR ++ tabFACE) (0x200 + 4 * k), (Fam.face, fi.1) ∈ Foot.presWrite.regs by decide +kernel) _ (hn _ rfl) fi m)))
      | ((with_reducible refine presEval_in ?_ ..); (· exact Foot.le_trans (Foot.le_of_runs (by decide +kernel)) hF))
      | ((with_reducible refine presHide_in ?_ ..); (· exact Foot.le_trans (Foot.le_of_runs (by decide +kernel)) hF))
      | split
      | dsimp only

def Foot.msixWrite : Foot :=
  { regs := onFam .face fCnt, cnts := [.face], vars := [.msixAddr, .msixData, .msixOpen, .msixPend], fifos := [.faceWrote,
      .viWrote], parts := [.out] }

theorem msixWrite_in {F : Foot} (hF : Foot.msixWrite.le F = true) (f off v : Nat) :
    (msixWrite f off v).In F := by
  unfold msixWrite
  repeat' first
      | (with_reducible first | exact all_nil_in | refine all_cons_in ?_ ?_ | refine look_in fun _ => ?_ | refine when_in ?_)
      | ((with_reducible refine put_in ?_); (· exact le_vars hF (by decide +kernel)))
      | ((with_reducible refine msixFlush_in ?_ ..); (· exact Foot.le_trans (F := Foot.interrupt) (by decide +kernel) hF))
      | split
      | dsimp only

def Foot.winSet : Foot :=
  { regs := onFam .face [.FACE_WIN_TAB_BASE, .FACE_WIN_TAB_BASE_HI, .FACE_WIN_TAB_LINK_BAR, .FACE_WIN_TAB_LINK_EN,
      .FACE_WIN_TAB_LINK_PRES, .FACE_WIN_TAB_LOG2, .FACE_WIN_TAB_VALID, .FACE_WIN_TAB_XLAT, .FACE_WIN_TAB_XLAT_HI] }

theorem winSet_in {F : Foot} (hF : Foot.winSet.le F = true) (f i : Nat) (w : WinStage) :
    (winSet f i w).In F := by
  unfold winSet
  repeat' first
      | (with_reducible first | exact all_nil_in | refine all_cons_in ?_ ?_)
      | ((with_reducible refine wr_in ?_ ?_); (· first | exact own_mem (show _ ∈ tabFACE by decide +kernel)); (· first | exact le_regs hF (show (Fam.face, _) ∈ _ by decide +kernel)))
      | split
      | dsimp only

def Foot.winCommitWrite : Foot :=
  { regs := onFam .guard (errFields ++ fCnt ++ [.GUARD_ELOG_CTRL_LOST]) ++ onFam .face (errFields ++ fCnt ++ [.FACE_WIN_COMMIT_GO,
      .FACE_WIN_COMMIT_INDEX, .FACE_WIN_COMMIT_OP, .FACE_WIN_COMMIT_STATUS, .FACE_WIN_TAB_BASE, .FACE_WIN_TAB_BASE_HI,
      .FACE_WIN_TAB_LINK_BAR, .FACE_WIN_TAB_LINK_EN, .FACE_WIN_TAB_LINK_PRES, .FACE_WIN_TAB_LOG2, .FACE_WIN_TAB_VALID,
      .FACE_WIN_TAB_XLAT, .FACE_WIN_TAB_XLAT_HI]), cnts := [.guard, .face], vars := [.elogSeq, .msixPend], fifos := [.elog,
      .faceWrote, .viWrote], parts := [.greqs, .out] }

theorem winCommitWrite_in {F : Foot} (hF : Foot.winCommitWrite.le F = true) (st : Stamp) (f v : Nat) :
    (winCommitWrite st f v).In F := by
  unfold winCommitWrite
  repeat' first
      | (with_reducible first | exact all_nil_in | refine all_cons_in ?_ ?_ | refine look_in fun _ => ?_ | refine when_in ?_ | refine ite_in ?_ ?_ | refine forSome_in fun _ => ?_)
      | ((with_reducible refine wr_in ?_ ?_); (· first | exact hdr_mem rfl (by decide +kernel) | exact own_mem (show _ ∈ tabFACE by decide +kernel) | exact own_mem (show _ ∈ tabGUARD0 by decide +kernel)); (· first | exact le_regs hF (show (Fam.face, _) ∈ _ by decide +kernel) | exact le_regs hF (show (Fam.guard, _) ∈ _ by decide +kernel)))
      | ((with_reducible refine raise_in ?_ ?_ ..); (· rfl); (· first | exact Foot.le_trans (F := Foot.error .face) (by decide +kernel) hF))
      | ((with_reducible refine plainWrite_in ?_ _ _); (· first | exact fun fi m => le_regs hF ((show ∀ fi ∈ atOff (tabHDR ++ tabFACE) 0x138, (Fam.face, fi.1) ∈ Foot.winCommitWrite.regs by decide +kernel) fi m)))
      | ((with_reducible refine winSet_in ?_ ..); (· exact Foot.le_trans (Foot.le_of_runs (by decide +kernel)) hF))
      | split
      | dsimp only

def Foot.presBarWrite : Foot :=
  { regs := onFam .face [.FACE_WIN_TAB_BASE, .FACE_WIN_TAB_BASE_HI], vars := [.presBar, .presBarSet, .presBase] }

theorem presBarWrite_in {F : Foot} (hF : Foot.presBarWrite.le F = true) (f n fn k v : Nat) :
    (presBarWrite f n fn k v).In F := by
  unfold presBarWrite
  repeat' first
      | (with_reducible first | exact all_nil_in | refine all_cons_in ?_ ?_ | refine look_in fun _ => ?_ | refine when_in ?_ | refine ite_in ?_ ?_ | refine forEach_in fun _ => ?_)
      | ((with_reducible refine put_in ?_); (· exact le_vars hF (by decide +kernel)))
      | ((with_reducible refine wr_in ?_ ?_); (· first | exact own_mem (show _ ∈ tabFACE by decide +kernel)); (· first | exact le_regs hF (show (Fam.face, _) ∈ _ by decide +kernel)))
      | split
      | dsimp only

def Foot.winRestore : Foot :=
  { regs := onFam .face [.FACE_WIN_TAB_BASE, .FACE_WIN_TAB_BASE_HI, .FACE_WIN_TAB_LINK_BAR, .FACE_WIN_TAB_LINK_EN,
      .FACE_WIN_TAB_LINK_PRES, .FACE_WIN_TAB_LOG2, .FACE_WIN_TAB_VALID, .FACE_WIN_TAB_XLAT, .FACE_WIN_TAB_XLAT_HI] }

theorem winRestore_in {F : Foot} (hF : Foot.winRestore.le F = true) (f : Nat) :
    (winRestore f).In F := by
  unfold winRestore
  repeat' first
      | (with_reducible first | exact all_nil_in | refine all_cons_in ?_ ?_ | refine look_in fun _ => ?_ | refine ite_in ?_ ?_ | refine forBelow_in fun _ => ?_)
      | ((with_reducible refine wr_in ?_ ?_); (· first | exact own_mem (show _ ∈ tabFACE by decide +kernel)); (· first | exact le_regs hF (show (Fam.face, _) ∈ _ by decide +kernel)))
      | ((with_reducible refine winSet_in ?_ ..); (· exact Foot.le_trans (Foot.le_of_runs (by decide +kernel)) hF))
      | split
      | dsimp only

end Sys2Proof.Machine
end

