-- ==== Sys2Proof/Laws/FrameMover.lean ====
section
/-! SUPPORT. What each update of Machine/Mover.lean may touch. -/

namespace Sys2Proof.Machine

set_option Elab.async false
set_option linter.unusedTactic false
set_option linter.unreachableTactic false

def Foot.modDesc : Foot :=
  { parts := [.descs] }

theorem modDesc_in {F : Foot} (hF : Foot.modDesc.le F = true) (n slot : Nat) (f : Desc → Desc) :
    (modDesc n slot f).In F := by
  unfold modDesc
  repeat' first
      | (with_reducible first | refine ite_in ?_ ?_)
      | ((with_reducible refine modDescs_in ?_); (· exact le_parts hF (by decide +kernel)))
      | split
      | dsimp only

def Foot.ringMiss : Foot :=
  { regs := onFam .guard (errFields ++ fCnt ++ [.GUARD_ELOG_CTRL_LOST]) ++ onFam .route (errFields ++ fCnt) ++ onFam .face fCnt,
      cnts := [.guard, .route, .face], vars := [.elogSeq, .msixPend], fifos := [.elog, .faceWrote, .missLog, .viWrote], parts :=
      [.greqs, .out] }

theorem ringMiss_in {F : Foot} (hF : Foot.ringMiss.le F = true) (n ty cause req a len : Nat) :
    (ringMiss n ty cause req a len).In F := by
  unfold ringMiss
  repeat' first
      | (with_reducible first | exact all_nil_in | refine all_cons_in ?_ ?_ | refine look_in fun _ => ?_ | refine when_in ?_ | refine ite_in ?_ ?_)
      | ((with_reducible refine countIngress_in ?_ ..); (· exact Foot.le_trans (Foot.le_of_runs (by decide +kernel)) hF))
      | ((with_reducible refine miss_in ?_ ..); (· exact Foot.le_trans (Foot.le_of_runs (by decide +kernel)) hF))
      | split
      | dsimp only

def Foot.toHost : Foot :=
  { regs := onFam .guard (errFields ++ fCnt ++ [.GUARD_ELOG_CTRL_LOST]) ++ onFam .core (fCnt ++ [.CORE_WM_STAT_WM_CROSS_CNT,
      .CORE_WM_STAT_WM_EVENT, .CORE_WM_STAT_WM_LEVEL]) ++ onFam .route (errFields ++ fCnt) ++ onFam .bridge (errFields ++ fCnt ++
      [.BRIDGE_LOCK_STAT_HOLDER, .BRIDGE_LOCK_STAT_LOCKED, .BRIDGE_PROOF_WM_STAT_WM_CROSS_CNT, .BRIDGE_PROOF_WM_STAT_WM_EVENT,
      .BRIDGE_PROOF_WM_STAT_WM_LEVEL]) ++ onFam .face (errFields ++ fCnt) ++ onFam .schedg fCnt, cnts := [.guard, .core, .route,
      .bridge, .face, .schedg], vars := [.cbsAt, .cbsCr, .elogSeq, .lockDest, .msixPend, .pcieSent, .pktId, .polAt, .polC, .polP,
      .redAvg, .stipCnt, .stipSeq, .tagEp], fifos := [.elog, .faceWrote, .missLog, .viWrote], parts := [.buf, .free, .greqs, .out,
      .prefs, .slots, .streams, .waiting] }

theorem toHost_in {F : Foot} (hF : Foot.toHost.le F = true) (i : Ing) (f : Nat) (g : Frame) (vi : Option Nat) :
    (toHost i f g vi).In F := by
  unfold toHost
  repeat' first
      | (with_reducible first | refine look_in fun _ => ?_ | refine ite_in ?_ ?_)
      | ((with_reducible refine answerUnreachable_in ?_ ..); (· exact Foot.le_trans (Foot.le_of_runs (by decide +kernel)) hF))
      | ((with_reducible refine offer_in ?_ ..); (· exact Foot.le_trans (Foot.le_of_runs (by decide +kernel)) hF))
      | ((with_reducible refine refuseInReset_in ?_ ..); (· exact Foot.le_trans (Foot.le_of_runs (by decide +kernel)) hF))
      | split
      | dsimp only

def Foot.toOwnHost : Foot :=
  { regs := onFam .guard (errFields ++ fCnt ++ [.GUARD_ELOG_CTRL_LOST]) ++ onFam .core (fCnt ++ [.CORE_WM_STAT_WM_CROSS_CNT,
      .CORE_WM_STAT_WM_EVENT, .CORE_WM_STAT_WM_LEVEL]) ++ onFam .route (errFields ++ fCnt) ++ onFam .bridge (errFields ++ fCnt ++
      [.BRIDGE_LOCK_STAT_HOLDER, .BRIDGE_LOCK_STAT_LOCKED, .BRIDGE_PROOF_WM_STAT_WM_CROSS_CNT, .BRIDGE_PROOF_WM_STAT_WM_EVENT,
      .BRIDGE_PROOF_WM_STAT_WM_LEVEL]) ++ onFam .face (errFields ++ fCnt) ++ onFam .schedg fCnt, cnts := [.guard, .core, .route,
      .bridge, .face, .schedg], vars := [.cbsAt, .cbsCr, .elogSeq, .lockDest, .msixPend, .pcieSent, .pktId, .polAt, .polC, .polP,
      .redAvg, .stipCnt, .stipSeq, .tagEp], fifos := [.elog, .faceWrote, .missLog, .viWrote], parts := [.buf, .free, .greqs, .out,
      .prefs, .slots, .streams, .waiting] }

theorem toOwnHost_in {F : Foot} (hF : Foot.toOwnHost.le F = true) (f e : Nat) (g : Frame) (vi : Option Nat) :
    (toOwnHost f e g vi).In F := by
  unfold toOwnHost
  repeat' first
      | ((with_reducible refine toHost_in ?_ ..); (· exact Foot.le_trans (Foot.le_of_runs (by decide +kernel)) hF))
      | split
      | dsimp only

def Foot.ringSend : Foot :=
  { regs := onFam .sec (errFields ++ fCnt) ++ onFam .guard (errFields ++ fCnt ++ [.GUARD_ELOG_CTRL_LOST]) ++ onFam .core (errFields
      ++ fCnt ++ [.CORE_WM_STAT_WM_CROSS_CNT, .CORE_WM_STAT_WM_EVENT, .CORE_WM_STAT_WM_LEVEL]) ++ onFam .route (errFields ++ fCnt)
      ++ onFam .bridge (errFields ++ fCnt ++ [.BRIDGE_LOCK_STAT_HOLDER, .BRIDGE_LOCK_STAT_LOCKED,
      .BRIDGE_PROOF_WM_STAT_WM_CROSS_CNT, .BRIDGE_PROOF_WM_STAT_WM_EVENT, .BRIDGE_PROOF_WM_STAT_WM_LEVEL]) ++ onFam .face
      (errFields ++ fCnt) ++ onFam .schedg fCnt, cnts := [.sec, .guard, .core, .route, .bridge, .face, .schedg], vars := [.cbsAt,
      .cbsCr, .elogSeq, .lockDest, .msixPend, .pcieSent, .pktId, .polAt, .polC, .polP, .redAvg, .stipCnt, .stipSeq, .tagEp], fifos
      := [.elog, .faceWrote, .missLog, .viWrote], parts := [.buf, .free, .greqs, .out, .prefs, .slots, .streams, .waiting] }

theorem ringSend_in {F : Foot} (hF : Foot.ringSend.le F = true) (n : Nat) (x : MoverTarget) (t : Tlp) (tag : Option Nat) :
    (ringSend n x t tag).In F := by
  unfold ringSend
  repeat' first
      | (with_reducible first | exact all_nil_in | refine all_cons_in ?_ ?_ | refine look_in fun _ => ?_ | refine ite_in ?_ ?_)
      | ((with_reducible refine raise_in ?_ ?_ ..); (· rfl); (· first | exact Foot.le_trans (F := Foot.error .core) (by decide +kernel) hF))
      | ((with_reducible refine countIngress_in ?_ ..); (· exact Foot.le_trans (Foot.le_of_runs (by decide +kernel)) hF))
      | ((with_reducible refine deliver_in ?_ ..); (· exact Foot.le_trans (Foot.le_of_runs (by decide +kernel)) hF))
      | ((with_reducible refine offer_in ?_ ..); (· exact Foot.le_trans (Foot.le_of_runs (by decide +kernel)) hF))
      | ((with_reducible refine toOwnHost_in ?_ ..); (· exact Foot.le_trans (Foot.le_of_runs (by decide +kernel)) hF))
      | split
      | dsimp only

def Foot.noteWrite : Foot :=
  { fifos := [.faceWrote, .ringWrote, .viWrote] }

theorem noteWrite_in {F : Foot} (hF : Foot.noteWrite.le F = true) (n : Nat) (x : MoverTarget) :
    (noteWrite n x).In F := by
  unfold noteWrite
  repeat' first
      | (with_reducible first | exact all_nil_in | refine all_cons_in ?_ ?_ | refine look_in fun _ => ?_ | refine forEach_in fun _ => ?_)
      | ((with_reducible refine noteIn_in ?_ _ _ _); (· exact le_fifos hF (by decide +kernel)))
      | split
      | dsimp only

def Foot.ringFire : Foot :=
  { regs := onFam .face fCnt, cnts := [.face], vars := [.coalDue, .coalOn, .msixPend], fifos := [.faceWrote, .viWrote], parts :=
      [.out] }

theorem ringFire_in {F : Foot} (hF : Foot.ringFire.le F = true) (n : Nat) :
    (ringFire n).In F := by
  unfold ringFire
  repeat' first
      | (with_reducible first | exact all_nil_in | refine all_cons_in ?_ ?_ | refine look_in fun _ => ?_ | refine when_in ?_ | refine ite_in ?_ ?_)
      | ((with_reducible refine put_in ?_); (· exact le_vars hF (by decide +kernel)))
      | ((with_reducible refine msixFire_in ?_ ..); (· exact Foot.le_trans (F := Foot.interrupt) (by decide +kernel) hF))
      | split
      | dsimp only

def Foot.putRecord : Foot :=
  { regs := onFam .sec (errFields ++ fCnt) ++ onFam .guard (errFields ++ fCnt ++ [.GUARD_ELOG_CTRL_LOST]) ++ onFam .core (errFields
      ++ fCnt ++ [.CORE_WM_STAT_WM_CROSS_CNT, .CORE_WM_STAT_WM_EVENT, .CORE_WM_STAT_WM_LEVEL]) ++ onFam .route (errFields ++ fCnt)
      ++ onFam .bridge (errFields ++ fCnt ++ [.BRIDGE_LOCK_STAT_HOLDER, .BRIDGE_LOCK_STAT_LOCKED,
      .BRIDGE_PROOF_WM_STAT_WM_CROSS_CNT, .BRIDGE_PROOF_WM_STAT_WM_EVENT, .BRIDGE_PROOF_WM_STAT_WM_LEVEL]) ++ onFam .face
      (errFields ++ fCnt) ++ onFam .schedg fCnt ++ onFam .ring [.MOVER_RING_CPL_TAIL_CPL_TAIL, .MOVER_RING_CPL_TAIL_PHASE], cnts
      := [.sec, .guard, .core, .route, .bridge, .face, .schedg], vars := [.cbsAt, .cbsCr, .coalDue, .coalOn, .elogSeq, .lockDest,
      .msixPend, .pcieSent, .pktId, .polAt, .polC, .polP, .redAvg, .stipCnt, .stipSeq, .tagEp], fifos := [.cplFifo, .elog,
      .faceWrote, .missLog, .ringWrote, .viWrote], parts := [.buf, .free, .greqs, .out, .prefs, .slots, .streams, .waiting] }

theorem putRecord_in {F : Foot} (hF : Foot.putRecord.le F = true) (n status bufs cookie done index epoch : Nat) (irq : Bool) :
    (putRecord n status bufs cookie done index epoch irq).In F := by
  unfold putRecord
  repeat' first
      | (with_reducible first | exact all_nil_in | refine all_cons_in ?_ ?_ | refine look_in fun _ => ?_ | refine when_in ?_ | refine ite_in ?_ ?_)
      | ((with_reducible refine push_in ?_); (· exact le_fifos hF (by decide +kernel)))
      | ((with_reducible refine wr_in ?_ ?_); (· first | exact own_mem (show _ ∈ tabRING by decide +kernel)); (· first | exact le_regs hF (show (Fam.ring, _) ∈ _ by decide +kernel)))
      | ((with_reducible refine noteWrite_in ?_ ..); (· exact Foot.le_trans (Foot.le_of_runs (by decide +kernel)) hF))
      | ((with_reducible refine ringFire_in ?_ ..); (· exact Foot.le_trans (Foot.le_of_runs (by decide +kernel)) hF))
      | ((with_reducible refine ringSend_in ?_ ..); (· exact Foot.le_trans (Foot.le_of_runs (by decide +kernel)) hF))
      | split
      | dsimp only

def Foot.advanceHead : Foot :=
  { regs := onFam .ring [.MOVER_RING_HEAD_HEAD] }

theorem advanceHead_in {F : Foot} (hF : Foot.advanceHead.le F = true) (n k : Nat) :
    (advanceHead n k).In F := by
  unfold advanceHead
  repeat' first
      | (with_reducible first | refine look_in fun _ => ?_)
      | ((with_reducible refine wr_in ?_ ?_); (· first | exact own_mem (show _ ∈ tabRING by decide +kernel)); (· first | exact le_regs hF (show (Fam.ring, _) ∈ _ by decide +kernel)))
      | split
      | dsimp only

def Foot.abandonDesc : Foot :=
  { parts := [.slots] }

theorem abandonDesc_in {F : Foot} (hF : Foot.abandonDesc.le F = true) (d : Desc) :
    (abandonDesc d).In F := by
  unfold abandonDesc
  repeat' first
      | (with_reducible first | refine look_in fun _ => ?_)
      | ((with_reducible refine abandon_in ?_ ..); (· exact Foot.le_trans (Foot.le_of_runs (by decide +kernel)) hF))
      | split
      | dsimp only

def Foot.dropFetch : Foot :=
  { vars := [.fetchN, .fetchTag], parts := [.slots] }

theorem dropFetch_in {F : Foot} (hF : Foot.dropFetch.le F = true) (n : Nat) :
    (dropFetch n).In F := by
  unfold dropFetch
  repeat' first
      | (with_reducible first | exact all_nil_in | refine all_cons_in ?_ ?_ | refine look_in fun _ => ?_ | refine when_in ?_)
      | ((with_reducible refine put_in ?_); (· exact le_vars hF (by decide +kernel)))
      | ((with_reducible refine abandon_in ?_ ..); (· exact Foot.le_trans (Foot.le_of_runs (by decide +kernel)) hF))
      | split
      | dsimp only

def Foot.dropDescs : Foot :=
  { vars := [.fetchN, .fetchTag], parts := [.descs, .slots] }

theorem dropDescs_in {F : Foot} (hF : Foot.dropDescs.le F = true) (n : Nat) :
    (dropDescs n).In F := by
  unfold dropDescs
  repeat' first
      | (with_reducible first | exact all_nil_in | refine all_cons_in ?_ ?_ | refine look_in fun _ => ?_ | refine forEach_in fun _ => ?_)
      | ((with_reducible refine modDescs_in ?_); (· exact le_parts hF (by decide +kernel)))
      | ((with_reducible refine abandonDesc_in ?_ ..); (· exact Foot.le_trans (Foot.le_of_runs (by decide +kernel)) hF))
      | ((with_reducible refine dropFetch_in ?_ ..); (· exact Foot.le_trans (Foot.le_of_runs (by decide +kernel)) hF))
      | split
      | dsimp only

def Foot.refetch : Foot :=
  { vars := [.fetchAt, .fetchN, .fetchTag], parts := [.descs, .slots] }

theorem refetch_in {F : Foot} (hF : Foot.refetch.le F = true) (n : Nat) :
    (refetch n).In F := by
  unfold refetch
  repeat' first
      | (with_reducible first | exact all_nil_in | refine all_cons_in ?_ ?_ | refine look_in fun _ => ?_)
      | ((with_reducible refine put_in ?_); (· exact le_vars hF (by decide +kernel)))
      | ((with_reducible refine modDescs_in ?_); (· exact le_parts hF (by decide +kernel)))
      | ((with_reducible refine dropFetch_in ?_ ..); (· exact Foot.le_trans (Foot.le_of_runs (by decide +kernel)) hF))
      | split
      | dsimp only

def Foot.descEnds : Foot :=
  { regs := onFam .sec (errFields ++ fCnt) ++ onFam .guard (errFields ++ fCnt ++ [.GUARD_ELOG_CTRL_LOST]) ++ onFam .core (errFields
      ++ fCnt ++ [.CORE_WM_STAT_WM_CROSS_CNT, .CORE_WM_STAT_WM_EVENT, .CORE_WM_STAT_WM_LEVEL]) ++ onFam .route (errFields ++ fCnt)
      ++ onFam .bridge (errFields ++ fCnt ++ [.BRIDGE_LOCK_STAT_HOLDER, .BRIDGE_LOCK_STAT_LOCKED,
      .BRIDGE_PROOF_WM_STAT_WM_CROSS_CNT, .BRIDGE_PROOF_WM_STAT_WM_EVENT, .BRIDGE_PROOF_WM_STAT_WM_LEVEL]) ++ onFam .face
      (errFields ++ fCnt) ++ onFam .schedg fCnt ++ onFam .moverg errFields ++ onFam .eng fCnt ++ onFam .ring
      [.MOVER_RING_CPL_TAIL_CPL_TAIL, .MOVER_RING_CPL_TAIL_PHASE, .MOVER_RING_HEAD_HEAD, .MOVER_RING_STAT_LAST_INDEX,
      .MOVER_RING_STAT_LAST_STATUS, .MOVER_RING_STAT_STATE], cnts := [.sec, .guard, .core, .route, .bridge, .face, .schedg, .eng],
      vars := [.cbsAt, .cbsCr, .coalDue, .coalOn, .elogSeq, .fetchAt, .fetchN, .fetchTag, .lockDest, .msixPend, .pcieSent, .pktId,
      .polAt, .polC, .polP, .redAvg, .stipCnt, .stipSeq, .tagEp], fifos := [.cplFifo, .elog, .faceWrote, .missLog, .ringWrote,
      .viWrote], parts := [.buf, .descs, .free, .greqs, .out, .prefs, .slots, .streams, .waiting] }

theorem descEnds_in {F : Foot} (hF : Foot.descEnds.le F = true) (d : Desc) (status : Nat) :
    (descEnds d status).In F := by
  unfold descEnds
  repeat' first
      | (with_reducible first | exact all_nil_in | refine all_cons_in ?_ ?_ | refine look_in fun _ => ?_ | refine when_in ?_)
      | ((with_reducible refine modDescs_in ?_); (· exact le_parts hF (by decide +kernel)))
      | ((with_reducible refine wr_in ?_ ?_); (· first | exact hdr_mem rfl (by decide +kernel) | exact own_mem (show _ ∈ tabGUARD0 by decide +kernel) | exact own_mem (show _ ∈ tabRING by decide +kernel)); (· first | exact le_regs hF (show (Fam.eng, _) ∈ _ by decide +kernel) | exact le_regs hF (show (Fam.face, _) ∈ _ by decide +kernel) | exact le_regs hF (show (Fam.guard, _) ∈ _ by decide +kernel) | exact le_regs hF (show (Fam.moverg, _) ∈ _ by decide +kernel) | exact le_regs hF (show (Fam.ring, _) ∈ _ by decide +kernel)))
      | ((with_reducible refine bump_in ?_ ?_ ..); (· rfl); (· first | exact Foot.le_trans (F := Foot.counting .eng) (by decide +kernel) hF))
      | ((with_reducible refine raise_in ?_ ?_ ..); (· rfl); (· first | exact Foot.le_trans (F := Foot.error .moverg) (by decide +kernel) hF))
      | ((with_reducible refine advanceHead_in ?_ ..); (· exact Foot.le_trans (Foot.le_of_runs (by decide +kernel)) hF))
      | ((with_reducible refine putRecord_in ?_ ..); (· exact Foot.le_trans (Foot.le_of_runs (by decide +kernel)) hF))
      | ((with_reducible refine refetch_in ?_ ..); (· exact Foot.le_trans (Foot.le_of_runs (by decide +kernel)) hF))
      | split
      | dsimp only

def Foot.descFails : Foot :=
  { regs := onFam .sec (errFields ++ fCnt) ++ onFam .guard (errFields ++ fCnt ++ [.GUARD_ELOG_CTRL_LOST]) ++ onFam .core (errFields
      ++ fCnt ++ [.CORE_WM_STAT_WM_CROSS_CNT, .CORE_WM_STAT_WM_EVENT, .CORE_WM_STAT_WM_LEVEL]) ++ onFam .route (errFields ++ fCnt)
      ++ onFam .bridge (errFields ++ fCnt ++ [.BRIDGE_LOCK_STAT_HOLDER, .BRIDGE_LOCK_STAT_LOCKED,
      .BRIDGE_PROOF_WM_STAT_WM_CROSS_CNT, .BRIDGE_PROOF_WM_STAT_WM_EVENT, .BRIDGE_PROOF_WM_STAT_WM_LEVEL]) ++ onFam .face
      (errFields ++ fCnt) ++ onFam .schedg fCnt ++ onFam .moverg errFields ++ onFam .eng fCnt ++ onFam .ring
      [.MOVER_RING_CPL_TAIL_CPL_TAIL, .MOVER_RING_CPL_TAIL_PHASE, .MOVER_RING_HEAD_HEAD, .MOVER_RING_STAT_LAST_INDEX,
      .MOVER_RING_STAT_LAST_STATUS, .MOVER_RING_STAT_STATE], cnts := [.sec, .guard, .core, .route, .bridge, .face, .schedg, .eng],
      vars := [.cbsAt, .cbsCr, .coalDue, .coalOn, .elogSeq, .fetchAt, .fetchN, .fetchTag, .lockDest, .msixPend, .pcieSent, .pktId,
      .polAt, .polC, .polP, .redAvg, .stipCnt, .stipSeq, .tagEp], fifos := [.cplFifo, .elog, .faceWrote, .missLog, .ringWrote,
      .viWrote], parts := [.buf, .descs, .free, .greqs, .out, .prefs, .slots, .streams, .waiting] }

theorem descFails_in {F : Foot} (hF : Foot.descFails.le F = true) (d : Desc) (status : Nat) :
    (descFails d status).In F := by
  unfold descFails
  repeat' first
      | (with_reducible first | exact all_nil_in | refine all_cons_in ?_ ?_ | refine look_in fun _ => ?_ | refine ite_in ?_ ?_)
      | ((with_reducible refine abandonDesc_in ?_ ..); (· exact Foot.le_trans (Foot.le_of_runs (by decide +kernel)) hF))
      | ((with_reducible refine descEnds_in ?_ ..); (· exact Foot.le_trans (Foot.le_of_runs (by decide +kernel)) hF))
      | ((with_reducible refine modDesc_in ?_ ..); (· exact Foot.le_trans (Foot.le_of_runs (by decide +kernel)) hF))
      | split
      | dsimp only

def Foot.endFailed : Foot :=
  { regs := onFam .sec (errFields ++ fCnt) ++ onFam .guard (errFields ++ fCnt ++ [.GUARD_ELOG_CTRL_LOST]) ++ onFam .core (errFields
      ++ fCnt ++ [.CORE_WM_STAT_WM_CROSS_CNT, .CORE_WM_STAT_WM_EVENT, .CORE_WM_STAT_WM_LEVEL]) ++ onFam .route (errFields ++ fCnt)
      ++ onFam .bridge (errFields ++ fCnt ++ [.BRIDGE_LOCK_STAT_HOLDER, .BRIDGE_LOCK_STAT_LOCKED,
      .BRIDGE_PROOF_WM_STAT_WM_CROSS_CNT, .BRIDGE_PROOF_WM_STAT_WM_EVENT, .BRIDGE_PROOF_WM_STAT_WM_LEVEL]) ++ onFam .face
      (errFields ++ fCnt) ++ onFam .schedg fCnt ++ onFam .moverg errFields ++ onFam .eng fCnt ++ onFam .ring
      [.MOVER_RING_CPL_TAIL_CPL_TAIL, .MOVER_RING_CPL_TAIL_PHASE, .MOVER_RING_HEAD_HEAD, .MOVER_RING_STAT_LAST_INDEX,
      .MOVER_RING_STAT_LAST_STATUS, .MOVER_RING_STAT_STATE], cnts := [.sec, .guard, .core, .route, .bridge, .face, .schedg, .eng],
      vars := [.cbsAt, .cbsCr, .coalDue, .coalOn, .elogSeq, .fetchAt, .fetchN, .fetchTag, .lockDest, .msixPend, .pcieSent, .pktId,
      .polAt, .polC, .polP, .redAvg, .stipCnt, .stipSeq, .tagEp], fifos := [.cplFifo, .elog, .faceWrote, .missLog, .ringWrote,
      .viWrote], parts := [.buf, .descs, .free, .greqs, .out, .prefs, .slots, .streams, .waiting] }

theorem endFailed_in {F : Foot} (hF : Foot.endFailed.le F = true) (e : Nat) :
    (endFailed e).In F := by
  unfold endFailed
  repeat' first
      | (with_reducible first | refine look_in fun _ => ?_ | refine forEach_in fun _ => ?_)
      | ((with_reducible refine descEnds_in ?_ ..); (· exact Foot.le_trans (Foot.le_of_runs (by decide +kernel)) hF))
      | split
      | dsimp only

def Foot.issueRead : Foot :=
  { regs := onFam .sec (errFields ++ fCnt) ++ onFam .guard (errFields ++ fCnt ++ [.GUARD_ELOG_CTRL_LOST]) ++ onFam .core (errFields
      ++ fCnt ++ [.CORE_WM_STAT_WM_CROSS_CNT, .CORE_WM_STAT_WM_EVENT, .CORE_WM_STAT_WM_LEVEL]) ++ onFam .route (errFields ++ fCnt)
      ++ onFam .bridge (errFields ++ fCnt ++ [.BRIDGE_LOCK_STAT_HOLDER, .BRIDGE_LOCK_STAT_LOCKED,
      .BRIDGE_PROOF_WM_STAT_WM_CROSS_CNT, .BRIDGE_PROOF_WM_STAT_WM_EVENT, .BRIDGE_PROOF_WM_STAT_WM_LEVEL]) ++ onFam .face
      (errFields ++ fCnt) ++ onFam .schedg fCnt ++ onFam .moverg errFields ++ onFam .eng fCnt ++ onFam .ring
      [.MOVER_RING_CPL_TAIL_CPL_TAIL, .MOVER_RING_CPL_TAIL_PHASE, .MOVER_RING_HEAD_HEAD, .MOVER_RING_STAT_LAST_INDEX,
      .MOVER_RING_STAT_LAST_STATUS, .MOVER_RING_STAT_STATE], cnts := [.sec, .guard, .core, .route, .bridge, .face, .schedg, .eng],
      vars := [.cbsAt, .cbsCr, .coalDue, .coalOn, .elogSeq, .fetchAt, .fetchN, .fetchTag, .lockDest, .msixPend, .pcieSent, .pktId,
      .polAt, .polC, .polP, .redAvg, .stipCnt, .stipSeq, .tagEp], fifos := [.cplFifo, .elog, .faceWrote, .missLog, .ringWrote,
      .viWrote], parts := [.buf, .descs, .free, .greqs, .out, .prefs, .slots, .streams, .waiting] }

theorem issueRead_in {F : Foot} (hF : Foot.issueRead.le F = true) (d : Desc) :
    (issueRead d).In F := by
  unfold issueRead
  repeat' first
      | (with_reducible first | exact all_nil_in | refine all_cons_in ?_ ?_ | refine look_in fun _ => ?_ | refine forSome_in fun _ => ?_)
      | ((with_reducible refine descFails_in ?_ ..); (· exact Foot.le_trans (Foot.le_of_runs (by decide +kernel)) hF))
      | ((with_reducible refine modDesc_in ?_ ..); (· exact Foot.le_trans (Foot.le_of_runs (by decide +kernel)) hF))
      | ((with_reducible refine ringMiss_in ?_ ..); (· exact Foot.le_trans (Foot.le_of_runs (by decide +kernel)) hF))
      | ((with_reducible refine ringSend_in ?_ ..); (· exact Foot.le_trans (Foot.le_of_runs (by decide +kernel)) hF))
      | ((with_reducible refine takeSlot_in ?_ ..); (· exact Foot.le_trans (Foot.le_of_runs (by decide +kernel)) hF))
      | split
      | dsimp only

def Foot.drain : Foot :=
  { regs := onFam .sec (errFields ++ fCnt) ++ onFam .guard (errFields ++ fCnt ++ [.GUARD_ELOG_CTRL_LOST]) ++ onFam .core (errFields
      ++ fCnt ++ [.CORE_WM_STAT_WM_CROSS_CNT, .CORE_WM_STAT_WM_EVENT, .CORE_WM_STAT_WM_LEVEL]) ++ onFam .route (errFields ++ fCnt)
      ++ onFam .bridge (errFields ++ fCnt ++ [.BRIDGE_LOCK_STAT_HOLDER, .BRIDGE_LOCK_STAT_LOCKED,
      .BRIDGE_PROOF_WM_STAT_WM_CROSS_CNT, .BRIDGE_PROOF_WM_STAT_WM_EVENT, .BRIDGE_PROOF_WM_STAT_WM_LEVEL]) ++ onFam .face
      (errFields ++ fCnt) ++ onFam .schedg fCnt ++ onFam .moverg errFields ++ onFam .eng fCnt ++ onFam .ring
      [.MOVER_RING_CPL_TAIL_CPL_TAIL, .MOVER_RING_CPL_TAIL_PHASE, .MOVER_RING_HEAD_HEAD, .MOVER_RING_STAT_LAST_INDEX,
      .MOVER_RING_STAT_LAST_STATUS, .MOVER_RING_STAT_STATE], cnts := [.sec, .guard, .core, .route, .bridge, .face, .schedg, .eng],
      vars := [.cbsAt, .cbsCr, .coalDue, .coalOn, .elogSeq, .fetchAt, .fetchN, .fetchTag, .lockDest, .msixPend, .pcieSent, .pktId,
      .polAt, .polC, .polP, .redAvg, .stipCnt, .stipSeq, .tagEp], fifos := [.cplFifo, .elog, .faceWrote, .missLog, .ringWrote,
      .viWrote], parts := [.buf, .descs, .free, .greqs, .out, .prefs, .slots, .streams, .waiting] }

theorem drain_in {F : Foot} (hF : Foot.drain.le F = true) (n slot : Nat) (a0 : Nat) :
    (drain n slot a0).In F := by
  fun_induction drain n slot a0
  all_goals
  repeat' first
      | assumption
      | (with_reducible first | exact skip_in | exact all_nil_in | refine all_cons_in ?_ ?_ | refine look_in fun _ => ?_ | refine when_in ?_ | refine forSome_in fun _ => ?_)
      | ((with_reducible refine addCnt_in ?_ ?_ ..); (· rfl); (· first | exact Foot.le_trans (F := Foot.counting .eng) (by decide +kernel) hF))
      | ((with_reducible refine descFails_in ?_ ..); (· exact Foot.le_trans (Foot.le_of_runs (by decide +kernel)) hF))
      | ((with_reducible refine modDesc_in ?_ ..); (· exact Foot.le_trans (Foot.le_of_runs (by decide +kernel)) hF))
      | ((with_reducible refine noteWrite_in ?_ ..); (· exact Foot.le_trans (Foot.le_of_runs (by decide +kernel)) hF))
      | ((with_reducible refine ringMiss_in ?_ ..); (· exact Foot.le_trans (Foot.le_of_runs (by decide +kernel)) hF))
      | ((with_reducible refine ringSend_in ?_ ..); (· exact Foot.le_trans (Foot.le_of_runs (by decide +kernel)) hF))
      | split
      | dsimp only

def Foot.vepSend : Foot :=
  { regs := onFam .sec (errFields ++ fCnt) ++ onFam .guard (errFields ++ fCnt ++ [.GUARD_ELOG_CTRL_LOST]) ++ onFam .core (fCnt ++
      [.CORE_WM_STAT_WM_CROSS_CNT, .CORE_WM_STAT_WM_EVENT, .CORE_WM_STAT_WM_LEVEL]) ++ onFam .route (errFields ++ fCnt) ++ onFam
      .bridge (errFields ++ fCnt ++ [.BRIDGE_LOCK_STAT_HOLDER, .BRIDGE_LOCK_STAT_LOCKED, .BRIDGE_PROOF_WM_STAT_WM_CROSS_CNT,
      .BRIDGE_PROOF_WM_STAT_WM_EVENT, .BRIDGE_PROOF_WM_STAT_WM_LEVEL]) ++ onFam .face (errFields ++ fCnt) ++ onFam .schedg fCnt,
      cnts := [.sec, .guard, .core, .route, .bridge, .face, .schedg], vars := [.cbsAt, .cbsCr, .elogSeq, .lockDest, .msixPend,
      .pcieSent, .pktId, .polAt, .polC, .polP, .redAvg, .stipCnt, .stipSeq, .tagEp], fifos := [.elog, .faceWrote, .missLog,
      .viWrote], parts := [.buf, .descs, .free, .greqs, .out, .prefs, .slots, .streams, .waiting] }

theorem vepSend_in {F : Foot} (hF : Foot.vepSend.le F = true) (v : Nat) (d : Desc) :
    (vepSend v d).In F := by
  unfold vepSend
  repeat' first
      | (with_reducible first | exact all_nil_in | refine all_cons_in ?_ ?_ | refine look_in fun _ => ?_)
      | ((with_reducible refine addCnt_in ?_ ?_ ..); (· rfl); (· first | exact Foot.le_trans (F := Foot.counting .bridge) (by decide +kernel) hF))
      | ((with_reducible refine bump_in ?_ ?_ ..); (· rfl); (· first | exact Foot.le_trans (F := Foot.counting .bridge) (by decide +kernel) hF))
      | ((with_reducible refine deliver_in ?_ ..); (· exact Foot.le_trans (Foot.le_of_runs (by decide +kernel)) hF))
      | ((with_reducible refine modDesc_in ?_ ..); (· exact Foot.le_trans (Foot.le_of_runs (by decide +kernel)) hF))
      | split
      | dsimp only

def Foot.issueFlush : Foot :=
  { regs := onFam .sec (errFields ++ fCnt) ++ onFam .guard (errFields ++ fCnt ++ [.GUARD_ELOG_CTRL_LOST]) ++ onFam .core (errFields
      ++ fCnt ++ [.CORE_WM_STAT_WM_CROSS_CNT, .CORE_WM_STAT_WM_EVENT, .CORE_WM_STAT_WM_LEVEL]) ++ onFam .route (errFields ++ fCnt)
      ++ onFam .bridge (errFields ++ fCnt ++ [.BRIDGE_LOCK_STAT_HOLDER, .BRIDGE_LOCK_STAT_LOCKED,
      .BRIDGE_PROOF_WM_STAT_WM_CROSS_CNT, .BRIDGE_PROOF_WM_STAT_WM_EVENT, .BRIDGE_PROOF_WM_STAT_WM_LEVEL]) ++ onFam .face
      (errFields ++ fCnt) ++ onFam .schedg fCnt, cnts := [.sec, .guard, .core, .route, .bridge, .face, .schedg], vars := [.cbsAt,
      .cbsCr, .elogSeq, .lockDest, .msixPend, .pcieSent, .pktId, .polAt, .polC, .polP, .redAvg, .stipCnt, .stipSeq, .tagEp], fifos
      := [.elog, .faceWrote, .missLog, .viWrote], parts := [.buf, .descs, .free, .greqs, .out, .prefs, .slots, .streams, .waiting]
      }

theorem issueFlush_in {F : Foot} (hF : Foot.issueFlush.le F = true) (d : Desc) :
    (issueFlush d).In F := by
  unfold issueFlush
  repeat' first
      | (with_reducible first | exact skip_in | exact all_nil_in | refine all_cons_in ?_ ?_ | refine look_in fun _ => ?_ | refine when_in ?_ | refine forSome_in fun _ => ?_)
      | ((with_reducible refine modDesc_in ?_ ..); (· exact Foot.le_trans (Foot.le_of_runs (by decide +kernel)) hF))
      | ((with_reducible refine ringSend_in ?_ ..); (· exact Foot.le_trans (Foot.le_of_runs (by decide +kernel)) hF))
      | ((with_reducible refine takeSlot_in ?_ ..); (· exact Foot.le_trans (Foot.le_of_runs (by decide +kernel)) hF))
      | split
      | dsimp only

def Foot.askFlush : Foot :=
  { fifos := [.ringWrote], parts := [.descs] }

theorem askFlush_in {F : Foot} (hF : Foot.askFlush.le F = true) (d : Desc) :
    (askFlush d).In F := by
  unfold askFlush
  repeat' first
      | (with_reducible first | exact all_nil_in | refine all_cons_in ?_ ?_ | refine look_in fun _ => ?_ | refine when_in ?_ | refine ite_in ?_ ?_)
      | ((with_reducible refine putFifo_in ?_); (· exact le_fifos hF (by decide +kernel)))
      | ((with_reducible refine modDesc_in ?_ ..); (· exact Foot.le_trans (Foot.le_of_runs (by decide +kernel)) hF))
      | split
      | dsimp only

def Foot.openNext : Foot :=
  { regs := onFam .sec (errFields ++ fCnt) ++ onFam .guard (errFields ++ fCnt ++ [.GUARD_ELOG_CTRL_LOST]) ++ onFam .core (errFields
      ++ fCnt ++ [.CORE_WM_STAT_WM_CROSS_CNT, .CORE_WM_STAT_WM_EVENT, .CORE_WM_STAT_WM_LEVEL]) ++ onFam .route (errFields ++ fCnt)
      ++ onFam .bridge (errFields ++ fCnt ++ [.BRIDGE_LOCK_STAT_HOLDER, .BRIDGE_LOCK_STAT_LOCKED,
      .BRIDGE_PROOF_WM_STAT_WM_CROSS_CNT, .BRIDGE_PROOF_WM_STAT_WM_EVENT, .BRIDGE_PROOF_WM_STAT_WM_LEVEL]) ++ onFam .face
      (errFields ++ fCnt) ++ onFam .schedg fCnt ++ onFam .moverg errFields ++ onFam .eng fCnt ++ onFam .ring
      [.MOVER_RING_CPL_TAIL_CPL_TAIL, .MOVER_RING_CPL_TAIL_PHASE, .MOVER_RING_HEAD_HEAD, .MOVER_RING_STAT_LAST_INDEX,
      .MOVER_RING_STAT_LAST_STATUS, .MOVER_RING_STAT_STATE], cnts := [.sec, .guard, .core, .route, .bridge, .face, .schedg, .eng],
      vars := [.cbsAt, .cbsCr, .coalDue, .coalOn, .elogSeq, .fetchAt, .fetchN, .fetchTag, .lockDest, .msixPend, .pcieSent, .pktId,
      .polAt, .polC, .polP, .redAvg, .stipCnt, .stipSeq, .tagEp], fifos := [.cplFifo, .elog, .faceWrote, .missLog, .ringWrote,
      .viWrote], parts := [.buf, .descs, .free, .greqs, .out, .prefs, .slots, .streams, .waiting] }

theorem openNext_in {F : Foot} (hF : Foot.openNext.le F = true) (n : Nat) :
    (openNext n).In F := by
  unfold openNext
  repeat' first
      | (with_reducible first | exact skip_in | exact all_nil_in | refine all_cons_in ?_ ?_ | refine look_in fun _ => ?_ | refine when_in ?_ | refine ite_in ?_ ?_ | refine forSome_in fun _ => ?_)
      | ((with_reducible refine descFails_in ?_ ..); (· exact Foot.le_trans (Foot.le_of_runs (by decide +kernel)) hF))
      | ((with_reducible refine modDesc_in ?_ ..); (· exact Foot.le_trans (Foot.le_of_runs (by decide +kernel)) hF))
      | split
      | dsimp only

def Foot.pumpReads : Foot :=
  { regs := onFam .sec (errFields ++ fCnt) ++ onFam .guard (errFields ++ fCnt ++ [.GUARD_ELOG_CTRL_LOST]) ++ onFam .core (errFields
      ++ fCnt ++ [.CORE_WM_STAT_WM_CROSS_CNT, .CORE_WM_STAT_WM_EVENT, .CORE_WM_STAT_WM_LEVEL]) ++ onFam .route (errFields ++ fCnt)
      ++ onFam .bridge (errFields ++ fCnt ++ [.BRIDGE_LOCK_STAT_HOLDER, .BRIDGE_LOCK_STAT_LOCKED,
      .BRIDGE_PROOF_WM_STAT_WM_CROSS_CNT, .BRIDGE_PROOF_WM_STAT_WM_EVENT, .BRIDGE_PROOF_WM_STAT_WM_LEVEL]) ++ onFam .face
      (errFields ++ fCnt) ++ onFam .schedg fCnt ++ onFam .moverg errFields ++ onFam .eng fCnt ++ onFam .ring
      [.MOVER_RING_CPL_TAIL_CPL_TAIL, .MOVER_RING_CPL_TAIL_PHASE, .MOVER_RING_HEAD_HEAD, .MOVER_RING_STAT_LAST_INDEX,
      .MOVER_RING_STAT_LAST_STATUS, .MOVER_RING_STAT_STATE], cnts := [.sec, .guard, .core, .route, .bridge, .face, .schedg, .eng],
      vars := [.cbsAt, .cbsCr, .coalDue, .coalOn, .elogSeq, .fetchAt, .fetchN, .fetchTag, .lockDest, .meDef, .mePlace, .meQuant,
      .msixPend, .pcieSent, .pktId, .polAt, .polC, .polP, .redAvg, .stipCnt, .stipSeq, .tagEp], fifos := [.cplFifo, .elog,
      .faceWrote, .missLog, .ringWrote, .viWrote], parts := [.buf, .descs, .free, .greqs, .out, .prefs, .slots, .streams,
      .waiting] }

theorem pumpReads_in {F : Foot} (hF : Foot.pumpReads.le F = true) (e : Nat) (a0 : Nat) :
    (pumpReads e a0).In F := by
  fun_induction pumpReads e a0
  all_goals
  repeat' first
      | assumption
      | (with_reducible first | exact skip_in | exact all_nil_in | refine all_cons_in ?_ ?_ | refine look_in fun _ => ?_ | refine when_in ?_ | refine ite_in ?_ ?_ | refine forEach_in fun _ => ?_ | refine forSome_in fun _ => ?_)
      | ((with_reducible refine put_in ?_); (· exact le_vars hF (by decide +kernel)))
      | ((with_reducible refine issueRead_in ?_ ..); (· exact Foot.le_trans (Foot.le_of_runs (by decide +kernel)) hF))
      | split
      | dsimp only

def Foot.writeOut : Foot :=
  { regs := onFam .sec (errFields ++ fCnt) ++ onFam .guard (errFields ++ fCnt ++ [.GUARD_ELOG_CTRL_LOST]) ++ onFam .core (errFields
      ++ fCnt ++ [.CORE_WM_STAT_WM_CROSS_CNT, .CORE_WM_STAT_WM_EVENT, .CORE_WM_STAT_WM_LEVEL]) ++ onFam .route (errFields ++ fCnt)
      ++ onFam .bridge (errFields ++ fCnt ++ [.BRIDGE_LOCK_STAT_HOLDER, .BRIDGE_LOCK_STAT_LOCKED,
      .BRIDGE_PROOF_WM_STAT_WM_CROSS_CNT, .BRIDGE_PROOF_WM_STAT_WM_EVENT, .BRIDGE_PROOF_WM_STAT_WM_LEVEL]) ++ onFam .face
      (errFields ++ fCnt) ++ onFam .schedg fCnt ++ onFam .moverg errFields ++ onFam .eng fCnt ++ onFam .ring
      [.MOVER_RING_CPL_TAIL_CPL_TAIL, .MOVER_RING_CPL_TAIL_PHASE, .MOVER_RING_HEAD_HEAD, .MOVER_RING_STAT_LAST_INDEX,
      .MOVER_RING_STAT_LAST_STATUS, .MOVER_RING_STAT_STATE], cnts := [.sec, .guard, .core, .route, .bridge, .face, .schedg, .eng],
      vars := [.cbsAt, .cbsCr, .coalDue, .coalOn, .elogSeq, .fetchAt, .fetchN, .fetchTag, .lockDest, .msixPend, .pcieSent, .pktId,
      .polAt, .polC, .polP, .redAvg, .stipCnt, .stipSeq, .tagEp], fifos := [.cplFifo, .elog, .faceWrote, .missLog, .ringWrote,
      .viWrote], parts := [.buf, .descs, .free, .greqs, .out, .prefs, .slots, .streams, .waiting] }

theorem writeOut_in {F : Foot} (hF : Foot.writeOut.le F = true) (d : Desc) :
    (writeOut d).In F := by
  unfold writeOut
  repeat' first
      | (with_reducible first | refine look_in fun _ => ?_ | refine when_in ?_ | refine forSome_in fun _ => ?_)
      | ((with_reducible refine drain_in ?_ ..); (· exact Foot.le_trans (Foot.le_of_runs (by decide +kernel)) hF))
      | ((with_reducible refine vepSend_in ?_ ..); (· exact Foot.le_trans (Foot.le_of_runs (by decide +kernel)) hF))
      | split
      | dsimp only

def Foot.pump : Foot :=
  { regs := onFam .sec (errFields ++ fCnt) ++ onFam .guard (errFields ++ fCnt ++ [.GUARD_ELOG_CTRL_LOST]) ++ onFam .core (errFields
      ++ fCnt ++ [.CORE_WM_STAT_WM_CROSS_CNT, .CORE_WM_STAT_WM_EVENT, .CORE_WM_STAT_WM_LEVEL]) ++ onFam .route (errFields ++ fCnt)
      ++ onFam .bridge (errFields ++ fCnt ++ [.BRIDGE_LOCK_STAT_HOLDER, .BRIDGE_LOCK_STAT_LOCKED,
      .BRIDGE_PROOF_WM_STAT_WM_CROSS_CNT, .BRIDGE_PROOF_WM_STAT_WM_EVENT, .BRIDGE_PROOF_WM_STAT_WM_LEVEL]) ++ onFam .face
      (errFields ++ fCnt) ++ onFam .schedg fCnt ++ onFam .moverg errFields ++ onFam .eng fCnt ++ onFam .ring
      [.MOVER_RING_CPL_TAIL_CPL_TAIL, .MOVER_RING_CPL_TAIL_PHASE, .MOVER_RING_HEAD_HEAD, .MOVER_RING_STAT_LAST_INDEX,
      .MOVER_RING_STAT_LAST_STATUS, .MOVER_RING_STAT_STATE], cnts := [.sec, .guard, .core, .route, .bridge, .face, .schedg, .eng],
      vars := [.cbsAt, .cbsCr, .coalDue, .coalOn, .elogSeq, .fetchAt, .fetchN, .fetchTag, .lockDest, .meDef, .mePlace, .meQuant,
      .msixPend, .pcieSent, .pktId, .polAt, .polC, .polP, .redAvg, .stipCnt, .stipSeq, .tagEp], fifos := [.cplFifo, .elog,
      .faceWrote, .missLog, .ringWrote, .viWrote], parts := [.buf, .descs, .free, .greqs, .out, .prefs, .slots, .streams,
      .waiting] }

theorem pump_in {F : Foot} (hF : Foot.pump.le F = true) (e : Nat) :
    (pump e).In F := by
  unfold pump
  repeat' first
      | (with_reducible first | exact all_nil_in | refine all_cons_in ?_ ?_ | refine look_in fun _ => ?_ | refine forEach_in fun _ => ?_ | refine forSome_in fun _ => ?_)
      | ((with_reducible refine askFlush_in ?_ ..); (· exact Foot.le_trans (Foot.le_of_runs (by decide +kernel)) hF))
      | ((with_reducible refine descFails_in ?_ ..); (· exact Foot.le_trans (Foot.le_of_runs (by decide +kernel)) hF))
      | ((with_reducible refine endFailed_in ?_ ..); (· exact Foot.le_trans (Foot.le_of_runs (by decide +kernel)) hF))
      | ((with_reducible refine issueFlush_in ?_ ..); (· exact Foot.le_trans (Foot.le_of_runs (by decide +kernel)) hF))
      | ((with_reducible refine openNext_in ?_ ..); (· exact Foot.le_trans (Foot.le_of_runs (by decide +kernel)) hF))
      | ((with_reducible refine pumpReads_in ?_ ..); (· exact Foot.le_trans (Foot.le_of_runs (by decide +kernel)) hF))
      | ((with_reducible refine writeOut_in ?_ ..); (· exact Foot.le_trans (Foot.le_of_runs (by decide +kernel)) hF))
      | split
      | dsimp only

def Foot.moverReadCompletion : Foot :=
  { regs := onFam .sec (errFields ++ fCnt) ++ onFam .guard (errFields ++ fCnt ++ [.GUARD_ELOG_CTRL_LOST]) ++ onFam .core (errFields
      ++ fCnt ++ [.CORE_WM_STAT_WM_CROSS_CNT, .CORE_WM_STAT_WM_EVENT, .CORE_WM_STAT_WM_LEVEL]) ++ onFam .route (errFields ++ fCnt)
      ++ onFam .bridge (errFields ++ fCnt ++ [.BRIDGE_LOCK_STAT_HOLDER, .BRIDGE_LOCK_STAT_LOCKED,
      .BRIDGE_PROOF_WM_STAT_WM_CROSS_CNT, .BRIDGE_PROOF_WM_STAT_WM_EVENT, .BRIDGE_PROOF_WM_STAT_WM_LEVEL]) ++ onFam .face
      (errFields ++ fCnt) ++ onFam .schedg fCnt ++ onFam .moverg errFields ++ onFam .eng fCnt ++ onFam .ring
      [.MOVER_RING_CPL_TAIL_CPL_TAIL, .MOVER_RING_CPL_TAIL_PHASE, .MOVER_RING_HEAD_HEAD, .MOVER_RING_STAT_LAST_INDEX,
      .MOVER_RING_STAT_LAST_STATUS, .MOVER_RING_STAT_STATE], cnts := [.sec, .guard, .core, .route, .bridge, .face, .schedg, .eng],
      vars := [.cbsAt, .cbsCr, .coalDue, .coalOn, .elogSeq, .fetchAt, .fetchN, .fetchTag, .lockDest, .meDef, .mePlace, .meQuant,
      .msixPend, .pcieSent, .pktId, .polAt, .polC, .polP, .redAvg, .stipCnt, .stipSeq, .tagEp], fifos := [.cplFifo, .elog,
      .faceWrote, .missLog, .ringWrote, .viWrote], parts := [.buf, .descs, .free, .greqs, .out, .prefs, .slots, .streams,
      .waiting] }

theorem moverReadCompletion_in {F : Foot} (hF : Foot.moverReadCompletion.le F = true) (n off : Nat) (bytes : List Byte) :
    (moverReadCompletion n off bytes).In F := by
  unfold moverReadCompletion
  repeat' first
      | (with_reducible first | exact all_nil_in | refine all_cons_in ?_ ?_ | refine look_in fun _ => ?_ | refine when_in ?_ | refine ite_in ?_ ?_ | refine forSome_in fun _ => ?_)
      | ((with_reducible refine addCnt_in ?_ ?_ ..); (· rfl); (· first | exact Foot.le_trans (F := Foot.counting .eng) (by decide +kernel) hF))
      | ((with_reducible refine modDesc_in ?_ ..); (· exact Foot.le_trans (Foot.le_of_runs (by decide +kernel)) hF))
      | ((with_reducible refine pump_in ?_ ..); (· exact Foot.le_trans (Foot.le_of_runs (by decide +kernel)) hF))
      | ((with_reducible refine writeOut_in ?_ ..); (· exact Foot.le_trans (Foot.le_of_runs (by decide +kernel)) hF))
      | split
      | dsimp only

def Foot.consumeSelf : Foot :=
  { regs := onFam .core [.CORE_WM_STAT_WM_CROSS_CNT, .CORE_WM_STAT_WM_EVENT, .CORE_WM_STAT_WM_LEVEL], parts := [.buf] }

theorem consumeSelf_in {F : Foot} (hF : Foot.consumeSelf.le F = true) (id : Nat) :
    (consumeSelf id).In F := by
  unfold consumeSelf
  repeat' first
      | (with_reducible first | exact all_nil_in | refine all_cons_in ?_ ?_ | refine ite_in ?_ ?_)
      | ((with_reducible refine modBuf_in ?_); (· exact le_parts hF (by decide +kernel)))
      | ((with_reducible refine coreWatch_in ?_ ..); (· exact Foot.le_trans (Foot.le_of_runs (by decide +kernel)) hF))
      | split
      | dsimp only

def Foot.rxArrived : Foot :=
  { regs := onFam .guard (errFields ++ fCnt ++ [.GUARD_ELOG_CTRL_LOST]) ++ onFam .core [.CORE_WM_STAT_WM_CROSS_CNT,
      .CORE_WM_STAT_WM_EVENT, .CORE_WM_STAT_WM_LEVEL] ++ onFam .bridge fCnt ++ onFam .face fCnt ++ onFam .moverg errFields ++
      onFam .eng fCnt, cnts := [.guard, .bridge, .face, .eng], vars := [.elogSeq, .msixPend], fifos := [.elog, .faceWrote,
      .viWrote], parts := [.buf, .greqs, .out] }

theorem rxArrived_in {F : Foot} (hF : Foot.rxArrived.le F = true) (v : Nat) (k : Pkt) :
    (rxArrived v k).In F := by
  unfold rxArrived
  repeat' first
      | (with_reducible first | exact all_nil_in | refine all_cons_in ?_ ?_ | refine look_in fun _ => ?_ | refine when_in ?_ | refine ite_in ?_ ?_)
      | ((with_reducible refine bump_in ?_ ?_ ..); (· rfl); (· first | exact Foot.le_trans (F := Foot.counting .eng) (by decide +kernel) hF | exact Foot.le_trans (F := Foot.counting .bridge) (by decide +kernel) hF))
      | ((with_reducible refine raise_in ?_ ?_ ..); (· rfl); (· first | exact Foot.le_trans (F := Foot.error .moverg) (by decide +kernel) hF))
      | ((with_reducible refine consumeSelf_in ?_ ..); (· exact Foot.le_trans (Foot.le_of_runs (by decide +kernel)) hF))
      | split
      | dsimp only

def Foot.rxSettle : Foot :=
  { regs := onFam .guard (errFields ++ fCnt ++ [.GUARD_ELOG_CTRL_LOST]) ++ onFam .core [.CORE_WM_STAT_WM_CROSS_CNT,
      .CORE_WM_STAT_WM_EVENT, .CORE_WM_STAT_WM_LEVEL] ++ onFam .bridge fCnt ++ onFam .face fCnt ++ onFam .moverg errFields ++
      onFam .eng fCnt, cnts := [.guard, .bridge, .face, .eng], vars := [.elogSeq, .msixPend], fifos := [.elog, .faceWrote,
      .viWrote], parts := [.buf, .greqs, .out] }

theorem rxSettle_in {F : Foot} (hF : Foot.rxSettle.le F = true) (n : Nat) :
    (rxSettle n).In F := by
  unfold rxSettle
  repeat' first
      | (with_reducible first | refine look_in fun _ => ?_ | refine forEach_in fun _ => ?_ | refine forSome_in fun _ => ?_)
      | ((with_reducible refine rxArrived_in ?_ ..); (· exact Foot.le_trans (Foot.le_of_runs (by decide +kernel)) hF))
      | split
      | dsimp only

def Foot.rxRewind : Foot :=
  { regs := onFam .core [.CORE_WM_STAT_WM_CROSS_CNT, .CORE_WM_STAT_WM_EVENT, .CORE_WM_STAT_WM_LEVEL] ++ onFam .face fCnt ++ onFam
      .eng fCnt, cnts := [.face, .eng], vars := [.msixPend], fifos := [.faceWrote, .viWrote], parts := [.buf, .out] }

theorem rxRewind_in {F : Foot} (hF : Foot.rxRewind.le F = true) (v id : Nat) :
    (rxRewind v id).In F := by
  unfold rxRewind
  repeat' first
      | (with_reducible first | exact all_nil_in | refine all_cons_in ?_ ?_ | refine look_in fun _ => ?_)
      | ((with_reducible refine bump_in ?_ ?_ ..); (· rfl); (· first | exact Foot.le_trans (F := Foot.counting .eng) (by decide +kernel) hF))
      | ((with_reducible refine consumeSelf_in ?_ ..); (· exact Foot.le_trans (Foot.le_of_runs (by decide +kernel)) hF))
      | split
      | dsimp only

def Foot.rxStop : Foot :=
  { regs := onFam .core [.CORE_WM_STAT_WM_CROSS_CNT, .CORE_WM_STAT_WM_EVENT, .CORE_WM_STAT_WM_LEVEL] ++ onFam .face fCnt ++ onFam
      .eng fCnt, cnts := [.face, .eng], vars := [.msixPend], fifos := [.faceWrote, .viWrote], parts := [.buf, .out] }

theorem rxStop_in {F : Foot} (hF : Foot.rxStop.le F = true) (n : Nat) :
    (rxStop n).In F := by
  unfold rxStop
  repeat' first
      | (with_reducible first | refine look_in fun _ => ?_ | refine when_in ?_ | refine forSome_in fun _ => ?_)
      | ((with_reducible refine rxRewind_in ?_ ..); (· exact Foot.le_trans (Foot.le_of_runs (by decide +kernel)) hF))
      | split
      | dsimp only

def Foot.ringTailWrite : Foot :=
  { regs := onFam .ring [.BLK_STAT_FAULT, .BLK_STAT_QUIESCED, .BLK_STAT_READY, .MOVER_RING_TAIL_TAIL] }

theorem ringTailWrite_in {F : Foot} (hF : Foot.ringTailWrite.le F = true) (st : Stamp) (n v : Nat) :
    (ringTailWrite st n v).In F := by
  unfold ringTailWrite
  repeat' first
      | ((with_reducible refine plainWrite_in ?_ _ _); (· first | exact fun fi m => le_regs hF ((show ∀ fi ∈ atOff tabRING 0x14, (Fam.ring, fi.1) ∈ Foot.ringTailWrite.regs by decide +kernel) fi m)))
      | split
      | dsimp only

def Foot.ringResume : Foot :=
  { regs := onFam .ring [.MOVER_RING_STAT_STATE], vars := [.fetchAt, .fetchN, .fetchTag], parts := [.descs, .slots] }

theorem ringResume_in {F : Foot} (hF : Foot.ringResume.le F = true) (n : Nat) :
    (ringResume n).In F := by
  unfold ringResume
  repeat' first
      | (with_reducible first | exact all_nil_in | refine all_cons_in ?_ ?_ | refine look_in fun _ => ?_ | refine when_in ?_)
      | ((with_reducible refine wr_in ?_ ?_); (· first | exact own_mem (show _ ∈ tabRING by decide +kernel)); (· first | exact le_regs hF (show (Fam.ring, _) ∈ _ by decide +kernel)))
      | ((with_reducible refine refetch_in ?_ ..); (· exact Foot.le_trans (Foot.le_of_runs (by decide +kernel)) hF))
      | split
      | dsimp only

def Foot.tdiBreach : Foot :=
  { regs := onFam .inst [.INST_STAT_FENCED, .INST_STAT_TDI] }

theorem tdiBreach_in {F : Foot} (hF : Foot.tdiBreach.le F = true) (v : Nat) :
    (tdiBreach v).In F := by
  unfold tdiBreach
  repeat' first
      | (with_reducible first | exact all_nil_in | refine all_cons_in ?_ ?_ | refine look_in fun _ => ?_ | refine when_in ?_)
      | ((with_reducible refine wr_in ?_ ?_); (· first | exact own_mem (show _ ∈ tabINST2 by decide +kernel)); (· first | exact le_regs hF (show (Fam.inst, _) ∈ _ by decide +kernel)))
      | split
      | dsimp only

def Foot.startRehome : Foot :=
  { regs := onFam .face fCnt ++ onFam .eng fCnt ++ onFam .ring [.MOVER_RING_STAT_STATE], cnts := [.face, .eng], vars := [.msixPend,
      .rehome], fifos := [.faceWrote, .viWrote], parts := [.out] }

theorem startRehome_in {F : Foot} (hF : Foot.startRehome.le F = true) (n old : Nat) :
    (startRehome n old).In F := by
  unfold startRehome
  repeat' first
      | (with_reducible first | exact all_nil_in | refine all_cons_in ?_ ?_ | refine look_in fun _ => ?_ | refine when_in ?_ | refine ite_in ?_ ?_)
      | ((with_reducible refine put_in ?_); (· exact le_vars hF (by decide +kernel)))
      | ((with_reducible refine wr_in ?_ ?_); (· first | exact hdr_mem rfl (by decide +kernel) | exact own_mem (show _ ∈ tabRING by decide +kernel)); (· first | exact le_regs hF (show (Fam.eng, _) ∈ _ by decide +kernel) | exact le_regs hF (show (Fam.face, _) ∈ _ by decide +kernel) | exact le_regs hF (show (Fam.ring, _) ∈ _ by decide +kernel)))
      | ((with_reducible refine bump_in ?_ ?_ ..); (· rfl); (· first | exact Foot.le_trans (F := Foot.counting .eng) (by decide +kernel) hF))
      | split
      | dsimp only

def Foot.ringCfgWrite : Foot :=
  { regs := onFam .sec (errFields ++ fCnt) ++ onFam .guard (errFields ++ fCnt ++ [.GUARD_ELOG_CTRL_LOST]) ++ onFam .core (errFields
      ++ fCnt ++ [.CORE_WM_STAT_WM_CROSS_CNT, .CORE_WM_STAT_WM_EVENT, .CORE_WM_STAT_WM_LEVEL]) ++ onFam .route (errFields ++ fCnt)
      ++ onFam .bridge (errFields ++ fCnt ++ [.BRIDGE_LOCK_STAT_HOLDER, .BRIDGE_LOCK_STAT_LOCKED,
      .BRIDGE_PROOF_WM_STAT_WM_CROSS_CNT, .BRIDGE_PROOF_WM_STAT_WM_EVENT, .BRIDGE_PROOF_WM_STAT_WM_LEVEL]) ++ onFam .face
      (errFields ++ fCnt) ++ onFam .schedg fCnt ++ onFam .inst [.INST_STAT_FENCED, .INST_STAT_TDI] ++ onFam .moverg errFields ++
      onFam .eng fCnt ++ onFam .ring [.BLK_ID_CODE, .BLK_ID_INSTANCE, .MOVER_RING_CFG_ENABLE, .MOVER_RING_CFG_ENGINE,
      .MOVER_RING_CFG_KIND, .MOVER_RING_CFG_OWNER, .MOVER_RING_CFG_OWN_KIND, .MOVER_RING_CFG_SIZE_LOG2,
      .MOVER_RING_CFG_STOP_ON_ERR, .MOVER_RING_CPL_HEAD_CPL_HEAD, .MOVER_RING_CPL_TAIL_CPL_TAIL, .MOVER_RING_CPL_TAIL_PHASE,
      .MOVER_RING_HEAD_HEAD, .MOVER_RING_STAT_LAST_INDEX, .MOVER_RING_STAT_LAST_STATUS, .MOVER_RING_STAT_STATE,
      .MOVER_RING_TAIL_TAIL], cnts := [.sec, .guard, .core, .route, .bridge, .face, .schedg, .eng], vars := [.cbsAt, .cbsCr,
      .coalDue, .coalOn, .elogSeq, .fetchAt, .fetchN, .fetchTag, .lockDest, .msixPend, .pcieSent, .pktId, .polAt, .polC, .polP,
      .redAvg, .rehome, .stipCnt, .stipSeq, .tagEp], fifos := [.cplFifo, .elog, .faceWrote, .missLog, .ringWrote, .viWrote], parts
      := [.buf, .descs, .free, .greqs, .out, .prefs, .slots, .streams, .waiting] }

theorem ringCfgWrite_in {F : Foot} (hF : Foot.ringCfgWrite.le F = true) (st : Stamp) (n : Nat) (tenant : Bool) (v : Nat) :
    (ringCfgWrite st n tenant v).In F := by
  unfold ringCfgWrite
  repeat' first
      | (with_reducible first | exact all_nil_in | refine all_cons_in ?_ ?_ | refine look_in fun _ => ?_ | refine when_in ?_ | refine ite_in ?_ ?_ | refine forSome_in fun _ => ?_)
      | ((with_reducible refine put_in ?_); (· exact le_vars hF (by decide +kernel)))
      | ((with_reducible refine wr_in ?_ ?_); (· first | exact hdr_mem rfl (by decide +kernel) | exact own_mem (show _ ∈ tabGUARD0 by decide +kernel) | exact own_mem (show _ ∈ tabRING by decide +kernel)); (· first | exact le_regs hF (show (Fam.face, _) ∈ _ by decide +kernel) | exact le_regs hF (show (Fam.guard, _) ∈ _ by decide +kernel) | exact le_regs hF (show (Fam.moverg, _) ∈ _ by decide +kernel) | exact le_regs hF (show (Fam.ring, _) ∈ _ by decide +kernel)))
      | ((with_reducible refine raise_in ?_ ?_ ..); (· rfl); (· first | exact Foot.le_trans (F := Foot.error .moverg) (by decide +kernel) hF))
      | ((with_reducible refine plainWrite_in ?_ _ _); (· first | exact fun fi m => le_regs hF ((show ∀ fi ∈ atOff tabRING 0, (Fam.ring, fi.1) ∈ Foot.ringCfgWrite.regs by decide +kernel) fi m)))
      | ((with_reducible refine descFails_in ?_ ..); (· exact Foot.le_trans (Foot.le_of_runs (by decide +kernel)) hF))
      | ((with_reducible refine dropDescs_in ?_ ..); (· exact Foot.le_trans (Foot.le_of_runs (by decide +kernel)) hF))
      | ((with_reducible refine refetch_in ?_ ..); (· exact Foot.le_trans (Foot.le_of_runs (by decide +kernel)) hF))
      | ((with_reducible refine rxSettle_in ?_ ..); (· exact Foot.le_trans (Foot.le_of_runs (by decide +kernel)) hF))
      | ((with_reducible refine startRehome_in ?_ ..); (· exact Foot.le_trans (Foot.le_of_runs (by decide +kernel)) hF))
      | ((with_reducible refine tdiBreach_in ?_ ..); (· exact Foot.le_trans (Foot.le_of_runs (by decide +kernel)) hF))
      | split
      | dsimp only

def Foot.ringGuarded : Foot :=
  { regs := onFam .guard (errFields ++ fCnt ++ [.GUARD_ELOG_CTRL_LOST]) ++ onFam .face fCnt ++ onFam .moverg errFields, cnts :=
      [.guard, .face], vars := [.elogSeq, .msixPend], fifos := [.elog, .faceWrote, .viWrote], parts := [.greqs, .out] }

theorem ringGuarded_in {F : Foot} (hF : Foot.ringGuarded.le F = true) (n : Nat) (refused : Bool) (u : Upd) (h_u : u.In F) :
    (ringGuarded n refused u).In F := by
  unfold ringGuarded
  repeat' first
      | (with_reducible first | refine look_in fun _ => ?_ | refine ite_in ?_ ?_)
      | with_reducible exact h_u
      | ((with_reducible refine raise_in ?_ ?_ ..); (· rfl); (· first | exact Foot.le_trans (F := Foot.error .moverg) (by decide +kernel) hF))
      | split
      | dsimp only

def Foot.cplCtrlWrite : Foot :=
  { regs := onFam .guard (errFields ++ fCnt ++ [.GUARD_ELOG_CTRL_LOST]) ++ onFam .face fCnt ++ onFam .moverg errFields ++ onFam
      .ring [.ERR_STICKY_BITS, .MOVER_RING_CPL_CTRL_COAL_US, .MOVER_RING_CPL_CTRL_IRQ_EN, .MOVER_RING_CPL_CTRL_MODE,
      .MOVER_RING_CPL_CTRL_VECTOR], cnts := [.guard, .face], vars := [.elogSeq, .msixPend], fifos := [.elog, .faceWrote,
      .viWrote], parts := [.greqs, .out] }

theorem cplCtrlWrite_in {F : Foot} (hF : Foot.cplCtrlWrite.le F = true) (st : Stamp) (n v : Nat) :
    (cplCtrlWrite st n v).In F := by
  unfold cplCtrlWrite
  repeat' first
      | (with_reducible first | refine look_in fun _ => ?_ | refine ite_in ?_ ?_)
      | ((with_reducible refine raise_in ?_ ?_ ..); (· rfl); (· first | exact Foot.le_trans (F := Foot.error .moverg) (by decide +kernel) hF))
      | ((with_reducible refine plainWrite_in ?_ _ _); (· first | exact fun fi m => le_regs hF ((show ∀ fi ∈ atOff tabRING 0x20, (Fam.ring, fi.1) ∈ Foot.cplCtrlWrite.regs by decide +kernel) fi m)))
      | split
      | dsimp only

def Foot.rxWrites : Foot :=
  { regs := onFam .sec (errFields ++ fCnt) ++ onFam .guard (errFields ++ fCnt ++ [.GUARD_ELOG_CTRL_LOST]) ++ onFam .core (errFields
      ++ fCnt ++ [.CORE_WM_STAT_WM_CROSS_CNT, .CORE_WM_STAT_WM_EVENT, .CORE_WM_STAT_WM_LEVEL]) ++ onFam .route (errFields ++ fCnt)
      ++ onFam .bridge (errFields ++ fCnt ++ [.BRIDGE_LOCK_STAT_HOLDER, .BRIDGE_LOCK_STAT_LOCKED,
      .BRIDGE_PROOF_WM_STAT_WM_CROSS_CNT, .BRIDGE_PROOF_WM_STAT_WM_EVENT, .BRIDGE_PROOF_WM_STAT_WM_LEVEL]) ++ onFam .face
      (errFields ++ fCnt) ++ onFam .schedg fCnt, cnts := [.sec, .guard, .core, .route, .bridge, .face, .schedg], vars := [.cbsAt,
      .cbsCr, .elogSeq, .lockDest, .msixPend, .pcieSent, .pktId, .polAt, .polC, .polP, .redAvg, .stipCnt, .stipSeq, .tagEp], fifos
      := [.elog, .faceWrote, .missLog, .ringWrote, .viWrote], parts := [.buf, .free, .greqs, .out, .prefs, .slots, .streams,
      .waiting] }

theorem rxWrites_in {F : Foot} (hF : Foot.rxWrites.le F = true) (n : Nat) (a0 : Nat) (a1 : List Desc) :
    (rxWrites n a0 a1).In F := by
  fun_induction rxWrites n a0 a1
  all_goals
  repeat' first
      | assumption
      | (with_reducible first | exact skip_in | exact all_nil_in | refine all_cons_in ?_ ?_ | refine look_in fun _ => ?_ | refine forEach_in fun _ => ?_)
      | ((with_reducible refine noteWrite_in ?_ ..); (· exact Foot.le_trans (Foot.le_of_runs (by decide +kernel)) hF))
      | ((with_reducible refine ringSend_in ?_ ..); (· exact Foot.le_trans (Foot.le_of_runs (by decide +kernel)) hF))
      | split
      | dsimp only

def Foot.engCtrlWrite : Foot :=
  { regs := onFam .guard (errFields ++ fCnt ++ [.GUARD_ELOG_CTRL_LOST]) ++ onFam .face fCnt ++ onFam .moverg errFields ++ onFam .eng
      [.MOVER_ENG_CTRL_ENABLE, .MOVER_ENG_CTRL_FAILOVER], cnts := [.guard, .face], vars := [.elogSeq, .msixPend], fifos := [.elog,
      .faceWrote, .viWrote], parts := [.greqs, .out] }

theorem engCtrlWrite_in {F : Foot} (hF : Foot.engCtrlWrite.le F = true) (st : Stamp) (e v : Nat) :
    (engCtrlWrite st e v).In F := by
  unfold engCtrlWrite
  repeat' first
      | (with_reducible first | refine look_in fun _ => ?_ | refine ite_in ?_ ?_)
      | ((with_reducible refine raise_in ?_ ?_ ..); (· rfl); (· first | exact Foot.le_trans (F := Foot.error .moverg) (by decide +kernel) hF))
      | ((with_reducible refine plainWrite_in ?_ _ _); (· first | exact fun fi m => le_regs hF ((show ∀ fi ∈ atOff (tabHDR ++ tabENG) 0x100, (Fam.eng, fi.1) ∈ Foot.engCtrlWrite.regs by decide +kernel) fi m)))
      | split
      | dsimp only

def Foot.engSoftReset : Foot :=
  { regs := onFam .eng [.MOVER_ENG_STAT_FAULTED] }

theorem engSoftReset_in {F : Foot} (hF : Foot.engSoftReset.le F = true) (e : Nat) :
    (engSoftReset e).In F := by
  unfold engSoftReset
  repeat' first
      | ((with_reducible refine wr_in ?_ ?_); (· first | exact own_mem (show _ ∈ tabENG by decide +kernel)); (· first | exact le_regs hF (show (Fam.eng, _) ∈ _ by decide +kernel)))
      | split
      | dsimp only

def Foot.ringClear : Foot :=
  { regs := onFam .ring [.MOVER_RING_BASE_ADDR, .MOVER_RING_BASE_ADDR_HI, .MOVER_RING_CFG_ENABLE, .MOVER_RING_CFG_ENGINE,
      .MOVER_RING_CFG_KIND, .MOVER_RING_CFG_OWNER, .MOVER_RING_CFG_OWN_KIND, .MOVER_RING_CFG_SIZE_LOG2,
      .MOVER_RING_CFG_STOP_ON_ERR, .MOVER_RING_CPL_BASE_ADDR, .MOVER_RING_CPL_BASE_ADDR_HI, .MOVER_RING_CPL_CTRL_COAL_US,
      .MOVER_RING_CPL_CTRL_IRQ_EN, .MOVER_RING_CPL_CTRL_MODE, .MOVER_RING_CPL_CTRL_VECTOR, .MOVER_RING_CPL_FIFO_DW,
      .MOVER_RING_CPL_HEAD_CPL_HEAD, .MOVER_RING_CPL_TAIL_CPL_TAIL, .MOVER_RING_CPL_TAIL_PHASE, .MOVER_RING_HEAD_HEAD,
      .MOVER_RING_STAT_LAST_INDEX, .MOVER_RING_STAT_LAST_STATUS, .MOVER_RING_STAT_RESUME, .MOVER_RING_STAT_STATE,
      .MOVER_RING_TAIL_TAIL], vars := [.coalDue, .coalOn, .fetchAt, .fetchN, .fetchTag, .meDef, .rehome], fifos := [.cplFifo,
      .ringWrote], parts := [.descs, .slots] }

theorem ringClear_in {F : Foot} (hF : Foot.ringClear.le F = true) (n : Nat) (r : Rst) : (ringClear n r).In F := by
  have h : ∀ {x : Var} {v : Nat}, x ∈ Foot.ringClear.vars → (put x v n).In F := fun m => put_in (le_vars hF m)
  have hq : ∀ {q : Fifo} {l : List Nat}, q ∈ Foot.ringClear.fifos → (putFifo q l n).In F := fun m => putFifo_in (le_fifos hF m)
  have hr : (resetPage (.ring n) r).In F := resetPage_in fun f m _ => le_regs (x := (Fam.ring, f)) hF
    ((show ∀ f ∈ tabRING, (Fam.ring, f) ∈ Foot.ringClear.regs by decide +kernel) f m)
  refine all_in fun u m => ?_
  simp only [List.mem_cons, List.not_mem_nil, or_false] at m
  rcases m with rfl | rfl | rfl | rfl | rfl | rfl | rfl | rfl | rfl
  · exact dropDescs_in (Foot.le_trans (Foot.le_of_runs (by decide +kernel)) hF) _
  · exact hr
  all_goals first | exact h (by decide +kernel) | exact hq (by decide +kernel)

def Foot.ringEnds : Foot :=
  { regs := onFam .guard (errFields ++ fCnt ++ [.GUARD_ELOG_CTRL_LOST]) ++ onFam .core [.CORE_WM_STAT_WM_CROSS_CNT,
      .CORE_WM_STAT_WM_EVENT, .CORE_WM_STAT_WM_LEVEL] ++ onFam .bridge fCnt ++ onFam .face fCnt ++ onFam .moverg errFields ++
      onFam .eng fCnt ++ onFam .ring [.MOVER_RING_BASE_ADDR, .MOVER_RING_BASE_ADDR_HI, .MOVER_RING_CFG_ENABLE,
      .MOVER_RING_CFG_ENGINE, .MOVER_RING_CFG_KIND, .MOVER_RING_CFG_OWNER, .MOVER_RING_CFG_OWN_KIND, .MOVER_RING_CFG_SIZE_LOG2,
      .MOVER_RING_CFG_STOP_ON_ERR, .MOVER_RING_CPL_BASE_ADDR, .MOVER_RING_CPL_BASE_ADDR_HI, .MOVER_RING_CPL_CTRL_COAL_US,
      .MOVER_RING_CPL_CTRL_IRQ_EN, .MOVER_RING_CPL_CTRL_MODE, .MOVER_RING_CPL_CTRL_VECTOR, .MOVER_RING_CPL_FIFO_DW,
      .MOVER_RING_CPL_HEAD_CPL_HEAD, .MOVER_RING_CPL_TAIL_CPL_TAIL, .MOVER_RING_CPL_TAIL_PHASE, .MOVER_RING_HEAD_HEAD,
      .MOVER_RING_STAT_LAST_INDEX, .MOVER_RING_STAT_LAST_STATUS, .MOVER_RING_STAT_RESUME, .MOVER_RING_STAT_STATE,
      .MOVER_RING_TAIL_TAIL], cnts := [.guard, .bridge, .face, .eng], vars := [.coalDue, .coalOn, .elogSeq, .fetchAt, .fetchN,
      .fetchTag, .meDef, .msixPend, .rehome], fifos := [.cplFifo, .elog, .faceWrote, .ringWrote, .viWrote], parts := [.buf,
      .descs, .greqs, .out, .slots] }

theorem ringEnds_in {F : Foot} (hF : Foot.ringEnds.le F = true) (n : Nat) (r : Rst) :
    (ringEnds n r).In F := by
  unfold ringEnds
  repeat' first
      | (with_reducible first | exact all_nil_in | refine all_cons_in ?_ ?_)
      | ((with_reducible refine ringClear_in ?_ ..); (· exact Foot.le_trans (Foot.le_of_runs (by decide +kernel)) hF))
      | ((with_reducible refine rxSettle_in ?_ ..); (· exact Foot.le_trans (Foot.le_of_runs (by decide +kernel)) hF))
      | split
      | dsimp only

def Foot.moverSoftReset : Foot :=
  { regs := onFam .guard (errFields ++ fCnt ++ [.GUARD_ELOG_CTRL_LOST]) ++ onFam .core [.CORE_WM_STAT_WM_CROSS_CNT,
      .CORE_WM_STAT_WM_EVENT, .CORE_WM_STAT_WM_LEVEL] ++ onFam .bridge fCnt ++ onFam .face fCnt ++ onFam .moverg errFields ++
      onFam .eng fCnt ++ onFam .ring [.MOVER_RING_BASE_ADDR, .MOVER_RING_BASE_ADDR_HI, .MOVER_RING_CFG_ENABLE,
      .MOVER_RING_CFG_ENGINE, .MOVER_RING_CFG_KIND, .MOVER_RING_CFG_OWNER, .MOVER_RING_CFG_OWN_KIND, .MOVER_RING_CFG_SIZE_LOG2,
      .MOVER_RING_CFG_STOP_ON_ERR, .MOVER_RING_CPL_BASE_ADDR, .MOVER_RING_CPL_BASE_ADDR_HI, .MOVER_RING_CPL_CTRL_COAL_US,
      .MOVER_RING_CPL_CTRL_IRQ_EN, .MOVER_RING_CPL_CTRL_MODE, .MOVER_RING_CPL_CTRL_VECTOR, .MOVER_RING_CPL_FIFO_DW,
      .MOVER_RING_CPL_HEAD_CPL_HEAD, .MOVER_RING_CPL_TAIL_CPL_TAIL, .MOVER_RING_CPL_TAIL_PHASE, .MOVER_RING_HEAD_HEAD,
      .MOVER_RING_STAT_LAST_INDEX, .MOVER_RING_STAT_LAST_STATUS, .MOVER_RING_STAT_RESUME, .MOVER_RING_STAT_STATE,
      .MOVER_RING_TAIL_TAIL], cnts := [.guard, .bridge, .face, .eng], vars := [.coalDue, .coalOn, .elogSeq, .fetchAt, .fetchN,
      .fetchTag, .meDef, .msixPend, .rehome], fifos := [.cplFifo, .elog, .faceWrote, .ringWrote, .viWrote], parts := [.buf,
      .descs, .greqs, .out, .slots] }

theorem moverSoftReset_in {F : Foot} (hF : Foot.moverSoftReset.le F = true)  :
    (moverSoftReset).In F := by
  unfold moverSoftReset
  repeat' first
      | (with_reducible first | refine look_in fun _ => ?_ | refine forEach_in fun _ => ?_)
      | ((with_reducible refine ringEnds_in ?_ ..); (· exact Foot.le_trans (Foot.le_of_runs (by decide +kernel)) hF))
      | split
      | dsimp only

end Sys2Proof.Machine
end

