-- ==== Sys2Proof/Laws/FrameBridge.lean ====
section
/-! SUPPORT. What each update of Machine/Bridge.lean may touch. -/

namespace Sys2Proof.Machine

set_option Elab.async false
set_option linter.unusedTactic false
set_option linter.unreachableTactic false

def Foot.prefDiscard : Foot :=
  { regs := onFam .bridge fCnt ++ onFam .face fCnt, cnts := [.bridge, .face], vars := [.msixPend], fifos := [.faceWrote, .viWrote],
      parts := [.out, .prefs] }

theorem prefDiscard_in {F : Foot} (hF : Foot.prefDiscard.le F = true) (p : Pref → Bool) :
    (prefDiscard p).In F := by
  unfold prefDiscard
  repeat' first
      | (with_reducible first | exact all_nil_in | refine all_cons_in ?_ ?_ | refine look_in fun _ => ?_ | refine when_in ?_)
      | ((with_reducible refine modPrefs_in ?_); (· exact le_parts hF (by decide +kernel)))
      | ((with_reducible refine addCnt_in ?_ ?_ ..); (· rfl); (· first | exact Foot.le_trans (F := Foot.counting .bridge) (by decide +kernel) hF))
      | split
      | dsimp only

def Foot.prefUse : Foot :=
  { regs := onFam .bridge fCnt ++ onFam .face fCnt, cnts := [.bridge, .face], vars := [.msixPend], fifos := [.faceWrote, .viWrote],
      parts := [.out, .prefs] }

theorem prefUse_in {F : Foot} (hF : Foot.prefUse.le F = true) (e : Pref) :
    (prefUse e).In F := by
  unfold prefUse
  repeat' first
      | (with_reducible first | exact all_nil_in | refine all_cons_in ?_ ?_ | refine ite_in ?_ ?_)
      | ((with_reducible refine modPrefs_in ?_); (· exact le_parts hF (by decide +kernel)))
      | ((with_reducible refine bump_in ?_ ?_ ..); (· rfl); (· first | exact Foot.le_trans (F := Foot.counting .bridge) (by decide +kernel) hF))
      | split
      | dsimp only

def Foot.prefNew : Foot :=
  { regs := onFam .bridge fCnt ++ onFam .face fCnt, cnts := [.bridge, .face], vars := [.msixPend], fifos := [.faceWrote, .viWrote],
      parts := [.out, .prefs] }

theorem prefNew_in {F : Foot} (hF : Foot.prefNew.le F = true) (e : Pref) :
    (prefNew e).In F := by
  unfold prefNew
  repeat' first
      | (with_reducible first | exact all_nil_in | refine all_cons_in ?_ ?_ | refine look_in fun _ => ?_ | refine when_in ?_ | refine forSome_in fun _ => ?_)
      | ((with_reducible refine modPrefs_in ?_); (· exact le_parts hF (by decide +kernel)))
      | ((with_reducible refine bump_in ?_ ?_ ..); (· rfl); (· first | exact Foot.le_trans (F := Foot.counting .bridge) (by decide +kernel) hF))
      | ((with_reducible refine prefDiscard_in ?_ ..); (· exact Foot.le_trans (Foot.le_of_runs (by decide +kernel)) hF))
      | split
      | dsimp only

def Foot.prefWrite : Foot :=
  { regs := onFam .bridge fCnt ++ onFam .face fCnt, cnts := [.bridge, .face], vars := [.msixPend], fifos := [.faceWrote, .viWrote],
      parts := [.out, .prefs] }

theorem prefWrite_in {F : Foot} (hF : Foot.prefWrite.le F = true) (f a len : Nat) :
    (prefWrite f a len).In F := by
  unfold prefWrite
  repeat' first
      | ((with_reducible refine prefDiscard_in ?_ ..); (· exact Foot.le_trans (Foot.le_of_runs (by decide +kernel)) hF))
      | split
      | dsimp only

def Foot.lockClear : Foot :=
  { regs := onFam .bridge [.BRIDGE_LOCK_STAT_HOLDER, .BRIDGE_LOCK_STAT_LOCKED] }

theorem lockClear_in {F : Foot} (hF : Foot.lockClear.le F = true) (p : Nat) :
    (lockClear p).In F := by
  unfold lockClear
  repeat' first
      | (with_reducible first | exact all_nil_in | refine all_cons_in ?_ ?_)
      | ((with_reducible refine wr_in ?_ ?_); (· first | exact own_mem (show _ ∈ tabBRIDGE1 by decide +kernel)); (· first | exact le_regs hF (show (Fam.bridge, _) ∈ _ by decide +kernel)))
      | split
      | dsimp only

def Foot.lockEnd : Foot :=
  { regs := onFam .bridge (fCnt ++ [.BRIDGE_LOCK_STAT_HOLDER, .BRIDGE_LOCK_STAT_LOCKED]) ++ onFam .face fCnt, cnts := [.bridge,
      .face], vars := [.msixPend], fifos := [.faceWrote, .viWrote], parts := [.out] }

theorem lockEnd_in {F : Foot} (hF : Foot.lockEnd.le F = true) (p : Nat) :
    (lockEnd p).In F := by
  unfold lockEnd
  repeat' first
      | (with_reducible first | exact all_nil_in | refine all_cons_in ?_ ?_ | refine look_in fun _ => ?_ | refine when_in ?_)
      | ((with_reducible refine wr_in ?_ ?_); (· first | exact hdr_mem rfl (by decide +kernel) | exact own_mem (show _ ∈ tabBRIDGE1 by decide +kernel)); (· first | exact le_regs hF (show (Fam.bridge, _) ∈ _ by decide +kernel) | exact le_regs hF (show (Fam.face, _) ∈ _ by decide +kernel)))
      | ((with_reducible refine bump_in ?_ ?_ ..); (· rfl); (· first | exact Foot.le_trans (F := Foot.counting .bridge) (by decide +kernel) hF))
      | ((with_reducible refine lockClear_in ?_ ..); (· exact Foot.le_trans (Foot.le_of_runs (by decide +kernel)) hF))
      | split
      | dsimp only

def Foot.locksOf : Foot :=
  { regs := onFam .bridge (fCnt ++ [.BRIDGE_LOCK_STAT_HOLDER, .BRIDGE_LOCK_STAT_LOCKED]) ++ onFam .face fCnt, cnts := [.bridge,
      .face], vars := [.msixPend], fifos := [.faceWrote, .viWrote], parts := [.out] }

theorem locksOf_in {F : Foot} (hF : Foot.locksOf.le F = true) (n : Nat) :
    (locksOf n).In F := by
  unfold locksOf
  repeat' first
      | (with_reducible first | refine look_in fun _ => ?_ | refine forEach_in fun _ => ?_)
      | ((with_reducible refine lockEnd_in ?_ ..); (· exact Foot.le_trans (Foot.le_of_runs (by decide +kernel)) hF))
      | split
      | dsimp only

def Foot.sendUnlock : Foot :=
  { regs := onFam .guard (errFields ++ fCnt ++ [.GUARD_ELOG_CTRL_LOST]) ++ onFam .core (fCnt ++ [.CORE_WM_STAT_WM_CROSS_CNT,
      .CORE_WM_STAT_WM_EVENT, .CORE_WM_STAT_WM_LEVEL]) ++ onFam .route (errFields ++ fCnt) ++ onFam .bridge (errFields ++ fCnt ++
      [.BRIDGE_LOCK_STAT_HOLDER, .BRIDGE_LOCK_STAT_LOCKED, .BRIDGE_PROOF_WM_STAT_WM_CROSS_CNT, .BRIDGE_PROOF_WM_STAT_WM_EVENT,
      .BRIDGE_PROOF_WM_STAT_WM_LEVEL]) ++ onFam .face fCnt ++ onFam .schedg fCnt, cnts := [.guard, .core, .route, .bridge, .face,
      .schedg], vars := [.cbsAt, .cbsCr, .elogSeq, .msixPend, .pktId, .polAt, .polC, .polP, .redAvg, .stipCnt, .stipSeq], fifos :=
      [.elog, .faceWrote, .missLog, .viWrote], parts := [.buf, .free, .greqs, .out, .streams, .waiting] }

theorem sendUnlock_in {F : Foot} (hF : Foot.sendUnlock.le F = true) (f dest : Nat) :
    (sendUnlock f dest).In F := by
  unfold sendUnlock
  repeat' first
      | (with_reducible first | refine look_in fun _ => ?_)
      | ((with_reducible refine sendInner_in ?_ ..); (· exact Foot.le_trans (Foot.le_of_runs (by decide +kernel)) hF))
      | split
      | dsimp only

def Foot.faceUnlocks : Foot :=
  { regs := onFam .guard (errFields ++ fCnt ++ [.GUARD_ELOG_CTRL_LOST]) ++ onFam .core (fCnt ++ [.CORE_WM_STAT_WM_CROSS_CNT,
      .CORE_WM_STAT_WM_EVENT, .CORE_WM_STAT_WM_LEVEL]) ++ onFam .route (errFields ++ fCnt) ++ onFam .bridge (errFields ++ fCnt ++
      [.BRIDGE_LOCK_STAT_HOLDER, .BRIDGE_LOCK_STAT_LOCKED, .BRIDGE_PROOF_WM_STAT_WM_CROSS_CNT, .BRIDGE_PROOF_WM_STAT_WM_EVENT,
      .BRIDGE_PROOF_WM_STAT_WM_LEVEL]) ++ onFam .face fCnt ++ onFam .schedg fCnt, cnts := [.guard, .core, .route, .bridge, .face,
      .schedg], vars := [.cbsAt, .cbsCr, .elogSeq, .lockDest, .msixPend, .pktId, .polAt, .polC, .polP, .redAvg, .stipCnt,
      .stipSeq], fifos := [.elog, .faceWrote, .missLog, .viWrote], parts := [.buf, .free, .greqs, .out, .streams, .waiting] }

theorem faceUnlocks_in {F : Foot} (hF : Foot.faceUnlocks.le F = true) (f : Nat) :
    (faceUnlocks f).In F := by
  unfold faceUnlocks
  repeat' first
      | (with_reducible first | exact all_nil_in | refine all_cons_in ?_ ?_ | refine look_in fun _ => ?_ | refine when_in ?_ | refine forSome_in fun _ => ?_)
      | ((with_reducible refine put_in ?_); (· exact le_vars hF (by decide +kernel)))
      | ((with_reducible refine locksOf_in ?_ ..); (· exact Foot.le_trans (Foot.le_of_runs (by decide +kernel)) hF))
      | ((with_reducible refine sendUnlock_in ?_ ..); (· exact Foot.le_trans (Foot.le_of_runs (by decide +kernel)) hF))
      | split
      | dsimp only

def Foot.vepSettle : Foot :=
  { regs := onFam .guard (errFields ++ fCnt ++ [.GUARD_ELOG_CTRL_LOST]) ++ onFam .core [.CORE_WM_STAT_WM_CROSS_CNT,
      .CORE_WM_STAT_WM_EVENT, .CORE_WM_STAT_WM_LEVEL] ++ onFam .bridge errFields ++ onFam .face fCnt, cnts := [.guard, .face],
      vars := [.elogSeq, .msixPend], fifos := [.elog, .faceWrote, .viWrote], parts := [.buf, .greqs, .out] }

theorem vepSettle_in {F : Foot} (hF : Foot.vepSettle.le F = true)  :
    (vepSettle).In F := by
  unfold vepSettle
  repeat' first
      | (with_reducible first | exact all_nil_in | refine all_cons_in ?_ ?_ | refine look_in fun _ => ?_ | refine forEach_in fun _ => ?_)
      | ((with_reducible refine raise_in ?_ ?_ ..); (· rfl); (· first | exact Foot.le_trans (F := Foot.error .bridge) (by decide +kernel) hF))
      | ((with_reducible refine consumeSelf_in ?_ ..); (· exact Foot.le_trans (Foot.le_of_runs (by decide +kernel)) hF))
      | split
      | dsimp only

def Foot.vepCfgWrite : Foot :=
  { regs := onFam .guard (errFields ++ fCnt ++ [.GUARD_ELOG_CTRL_LOST]) ++ onFam .core [.CORE_WM_STAT_WM_CROSS_CNT,
      .CORE_WM_STAT_WM_EVENT, .CORE_WM_STAT_WM_LEVEL] ++ onFam .bridge (errFields ++ [.BRIDGE_VEP_CFG_CLASS, .BRIDGE_VEP_CFG_EN,
      .BRIDGE_VEP_CFG_MTU, .BRIDGE_VEP_CFG_OWNER, .BRIDGE_VEP_CFG_PEER, .BRIDGE_VEP_CFG_RSV3, .BRIDGE_VEP_CFG_RX_RING,
      .BRIDGE_VEP_CFG_TX_RING]) ++ onFam .face fCnt, cnts := [.guard, .face], vars := [.elogSeq, .msixPend], fifos := [.elog,
      .faceWrote, .viWrote], parts := [.buf, .greqs, .out] }

theorem vepCfgWrite_in {F : Foot} (hF : Foot.vepCfgWrite.le F = true) (st : Stamp) (n d v : Nat) (hn : n < 64) (hd : d < 4) :
    (vepCfgWrite st n d v).In F := by
  unfold vepCfgWrite
  repeat' first
      | (with_reducible first | exact all_nil_in | refine all_cons_in ?_ ?_ | refine look_in fun _ => ?_ | refine ite_in ?_ ?_)
      | ((with_reducible refine raise_in ?_ ?_ ..); (· rfl); (· first | exact Foot.le_trans (F := Foot.error .bridge) (by decide +kernel) hF))
      | ((with_reducible refine plainWrite_in ?_ _ _); (· first | exact fun fi m => le_regs hF ((show ∀ k < 64, ∀ e < 4, ∀ fi ∈ atOff (tabHDR ++ tabBRIDGE2) (0x100 + 16 * k + 4 * e), (Fam.bridge, fi.1) ∈ Foot.vepCfgWrite.regs by decide +kernel) n hn d hd fi m)))
      | ((with_reducible refine vepSettle_in ?_ ..); (· exact Foot.le_trans (Foot.le_of_runs (by decide +kernel)) hF))
      | split
      | dsimp only

def Foot.vepArrives : Foot :=
  { regs := onFam .guard (errFields ++ fCnt ++ [.GUARD_ELOG_CTRL_LOST]) ++ onFam .core [.CORE_WM_STAT_WM_CROSS_CNT,
      .CORE_WM_STAT_WM_EVENT, .CORE_WM_STAT_WM_LEVEL] ++ onFam .bridge (errFields ++ fCnt) ++ onFam .face fCnt ++ onFam .moverg
      errFields ++ onFam .eng fCnt, cnts := [.guard, .bridge, .face, .eng], vars := [.elogSeq, .msixPend], fifos := [.elog,
      .faceWrote, .viWrote], parts := [.buf, .greqs, .out] }

theorem vepArrives_in {F : Foot} (hF : Foot.vepArrives.le F = true) (k : Pkt) (e : Eth) :
    (vepArrives k e).In F := by
  unfold vepArrives
  repeat' first
      | (with_reducible first | exact all_nil_in | refine all_cons_in ?_ ?_ | refine look_in fun _ => ?_ | refine ite_in ?_ ?_)
      | ((with_reducible refine bump_in ?_ ?_ ..); (· rfl); (· first | exact Foot.le_trans (F := Foot.counting .bridge) (by decide +kernel) hF))
      | ((with_reducible refine raise_in ?_ ?_ ..); (· rfl); (· first | exact Foot.le_trans (F := Foot.error .bridge) (by decide +kernel) hF))
      | ((with_reducible refine consumeSelf_in ?_ ..); (· exact Foot.le_trans (Foot.le_of_runs (by decide +kernel)) hF))
      | ((with_reducible refine rxArrived_in ?_ ..); (· exact Foot.le_trans (Foot.le_of_runs (by decide +kernel)) hF))
      | ((with_reducible refine rxRewind_in ?_ ..); (· exact Foot.le_trans (Foot.le_of_runs (by decide +kernel)) hF))
      | split
      | dsimp only

def Foot.settleVeps : Foot :=
  { regs := onFam .guard (errFields ++ fCnt ++ [.GUARD_ELOG_CTRL_LOST]) ++ onFam .core [.CORE_WM_STAT_WM_CROSS_CNT,
      .CORE_WM_STAT_WM_EVENT, .CORE_WM_STAT_WM_LEVEL] ++ onFam .bridge (errFields ++ fCnt) ++ onFam .face fCnt ++ onFam .moverg
      errFields ++ onFam .eng fCnt, cnts := [.guard, .bridge, .face, .eng], vars := [.elogSeq, .msixPend], fifos := [.elog,
      .faceWrote, .viWrote], parts := [.buf, .greqs, .out] }

theorem settleVeps_in {F : Foot} (hF : Foot.settleVeps.le F = true)  :
    (settleVeps).In F := by
  unfold settleVeps
  repeat' first
      | (with_reducible first | exact skip_in | exact all_nil_in | refine all_cons_in ?_ ?_ | refine look_in fun _ => ?_ | refine ite_in ?_ ?_ | refine forEach_in fun _ => ?_)
      | ((with_reducible refine modBuf_in ?_); (· exact le_parts hF (by decide +kernel)))
      | ((with_reducible refine vepArrives_in ?_ ..); (· exact Foot.le_trans (Foot.le_of_runs (by decide +kernel)) hF))
      | split
      | dsimp only

end Sys2Proof.Machine
end

