-- ==== Sys2Proof/Laws/FrameMbox.lean ====
section
/-! SUPPORT. What each update of Machine/Mbox.lean may touch. -/

namespace Sys2Proof.Machine

set_option Elab.async false
set_option linter.unusedTactic false
set_option linter.unreachableTactic false

def Foot.popFifo : Foot :=
  { fifos := [.held] }

theorem popFifo_in {F : Foot} (hF : Foot.popFifo.le F = true) (st win : Nat) (q : Fifo) (i : Nat) (h_q : q ∈ F.fifos) :
    (popFifo st win q i).In F := by
  unfold popFifo
  repeat' first
      | (with_reducible first | exact all_nil_in | refine all_cons_in ?_ ?_ | refine look_in fun _ => ?_)
      | with_reducible exact putFifo_in h_q
      | ((with_reducible refine putFifo_in ?_); (· exact le_fifos hF (by decide +kernel)))
      | split
      | dsimp only

def Foot.pmeSource : Foot :=
  { regs := onFam .face [.FACE_PM_STAT_FWAKE, .FACE_PM_STAT_PME_STATUS], parts := [.out] }

theorem pmeSource_in {F : Foot} (hF : Foot.pmeSource.le F = true) (f : Nat) :
    (pmeSource f).In F := by
  unfold pmeSource
  repeat' first
      | (with_reducible first | exact all_nil_in | refine all_cons_in ?_ ?_ | refine look_in fun _ => ?_ | refine when_in ?_ | refine ite_in ?_ ?_)
      | ((with_reducible refine emit_in ?_); (· exact le_parts hF (by decide +kernel)))
      | ((with_reducible refine wr_in ?_ ?_); (· first | exact own_mem (show _ ∈ tabFACE by decide +kernel)); (· first | exact le_regs hF (show (Fam.face, _) ∈ _ by decide +kernel)))
      | split
      | dsimp only

def Foot.doorbell : Foot :=
  { regs := onFam .face (fCnt ++ [.FACE_PM_STAT_FWAKE, .FACE_PM_STAT_PME_STATUS]), cnts := [.face], vars := [.msixPend, .qArm],
      fifos := [.faceWrote, .viWrote], parts := [.out] }

theorem doorbell_in {F : Foot} (hF : Foot.doorbell.le F = true) (q : Nat) :
    (doorbell q).In F := by
  unfold doorbell
  repeat' first
      | (with_reducible first | exact all_nil_in | refine all_cons_in ?_ ?_ | refine look_in fun _ => ?_ | refine ite_in ?_ ?_)
      | ((with_reducible refine put_in ?_); (· exact le_vars hF (by decide +kernel)))
      | ((with_reducible refine emit_in ?_); (· exact le_parts hF (by decide +kernel)))
      | ((with_reducible refine msixFire_in ?_ ..); (· exact Foot.le_trans (F := Foot.interrupt) (by decide +kernel) hF))
      | ((with_reducible refine pmeSource_in ?_ ..); (· exact Foot.le_trans (Foot.le_of_runs (by decide +kernel)) hF))
      | split
      | dsimp only

def Foot.accept : Foot :=
  { regs := onFam .mbox fCnt ++ onFam .face (fCnt ++ [.FACE_PM_STAT_FWAKE, .FACE_PM_STAT_PME_STATUS]), cnts := [.mbox, .face], vars
      := [.msixPend, .qArm], fifos := [.faceWrote, .notices, .viWrote], parts := [.out] }

theorem accept_in {F : Foot} (hF : Foot.accept.le F = true) (q : Nat) (n : Notice) :
    (accept q n).In F := by
  unfold accept
  repeat' first
      | (with_reducible first | exact all_nil_in | refine all_cons_in ?_ ?_ | refine look_in fun _ => ?_ | refine ite_in ?_ ?_ | refine forSome_in fun _ => ?_)
      | ((with_reducible refine push_in ?_); (· exact le_fifos hF (by decide +kernel)))
      | ((with_reducible refine bump_in ?_ ?_ ..); (· rfl); (· first | exact Foot.le_trans (F := Foot.counting .mbox) (by decide +kernel) hF))
      | ((with_reducible refine doorbell_in ?_ ..); (· exact Foot.le_trans (Foot.le_of_runs (by decide +kernel)) hF))
      | ((with_reducible refine pmeSource_in ?_ ..); (· exact Foot.le_trans (Foot.le_of_runs (by decide +kernel)) hF))
      | split
      | dsimp only

def Foot.postEnds : Foot :=
  { regs := onFam .guard (errFields ++ fCnt ++ [.GUARD_ELOG_CTRL_LOST]) ++ onFam .mbox (errFields ++ fCnt ++ [.MBOX_REJ_LOG_SID,
      .MBOX_REJ_LOG_SKIND, .MBOX_REJ_LOG_STAMP, .MBOX_REJ_LOG_STATUS]) ++ onFam .face fCnt, cnts := [.guard, .mbox, .face], vars
      := [.elogSeq, .msixPend, .win], fifos := [.elog, .faceWrote, .viWrote], parts := [.greqs, .out] }

theorem postEnds_in {F : Foot} (hF : Foot.postEnds.le F = true) (w : Nat) (st : Nat) (status : Nat) :
    (postEnds w st status).In F := by
  unfold postEnds
  repeat' first
      | (with_reducible first | exact skip_in | exact all_nil_in | refine all_cons_in ?_ ?_ | refine look_in fun _ => ?_ | refine when_in ?_ | refine ite_in ?_ ?_ | refine forSome_in fun _ => ?_)
      | ((with_reducible refine put_in ?_); (· exact le_vars hF (by decide +kernel)))
      | ((with_reducible refine emit_in ?_); (· exact le_parts hF (by decide +kernel)))
      | ((with_reducible refine wr_in ?_ ?_); (· first | exact hdr_mem rfl (by decide +kernel) | exact own_mem (show _ ∈ tabGUARD0 by decide +kernel) | exact own_mem (show _ ∈ tabMBOX0 by decide +kernel)); (· first | exact le_regs hF (show (Fam.face, _) ∈ _ by decide +kernel) | exact le_regs hF (show (Fam.guard, _) ∈ _ by decide +kernel) | exact le_regs hF (show (Fam.mbox, _) ∈ _ by decide +kernel)))
      | ((with_reducible refine bump_in ?_ ?_ ..); (· rfl); (· first | exact Foot.le_trans (F := Foot.counting .mbox) (by decide +kernel) hF))
      | ((with_reducible refine raiseIn_in ?_ ?_ ..); (· rfl); (· first | exact Foot.le_trans (F := Foot.error .mbox) (by decide +kernel) hF))
      | split
      | dsimp only

def Foot.sendMbox : Foot :=
  { regs := onFam .guard (errFields ++ fCnt ++ [.GUARD_ELOG_CTRL_LOST]) ++ onFam .core (fCnt ++ [.CORE_WM_STAT_WM_CROSS_CNT,
      .CORE_WM_STAT_WM_EVENT, .CORE_WM_STAT_WM_LEVEL]) ++ onFam .route (errFields ++ fCnt) ++ onFam .bridge (errFields ++ fCnt ++
      [.BRIDGE_LOCK_STAT_HOLDER, .BRIDGE_LOCK_STAT_LOCKED, .BRIDGE_PROOF_WM_STAT_WM_CROSS_CNT, .BRIDGE_PROOF_WM_STAT_WM_EVENT,
      .BRIDGE_PROOF_WM_STAT_WM_LEVEL]) ++ onFam .face fCnt ++ onFam .schedg fCnt, cnts := [.guard, .core, .route, .bridge, .face,
      .schedg], vars := [.cbsAt, .cbsCr, .elogSeq, .msixPend, .pktId, .polAt, .polC, .polP, .redAvg, .stipCnt, .stipSeq], fifos :=
      [.elog, .faceWrote, .missLog, .viWrote], parts := [.buf, .free, .greqs, .out, .streams, .waiting] }

theorem sendMbox_in {F : Foot} (hF : Foot.sendMbox.le F = true) (src dest plen : Nat) (body : Payload) :
    (sendMbox src dest plen body).In F := by
  unfold sendMbox
  repeat' first
      | (with_reducible first | refine look_in fun _ => ?_)
      | ((with_reducible refine sendInner_in ?_ ..); (· exact Foot.le_trans (Foot.le_of_runs (by decide +kernel)) hF))
      | split
      | dsimp only

def Foot.postNotice : Foot :=
  { regs := onFam .guard (errFields ++ fCnt ++ [.GUARD_ELOG_CTRL_LOST]) ++ onFam .core (fCnt ++ [.CORE_WM_STAT_WM_CROSS_CNT,
      .CORE_WM_STAT_WM_EVENT, .CORE_WM_STAT_WM_LEVEL]) ++ onFam .route (errFields ++ fCnt) ++ onFam .bridge (errFields ++ fCnt ++
      [.BRIDGE_LOCK_STAT_HOLDER, .BRIDGE_LOCK_STAT_LOCKED, .BRIDGE_PROOF_WM_STAT_WM_CROSS_CNT, .BRIDGE_PROOF_WM_STAT_WM_EVENT,
      .BRIDGE_PROOF_WM_STAT_WM_LEVEL]) ++ onFam .mbox (errFields ++ fCnt ++ [.MBOX_REJ_LOG_SID, .MBOX_REJ_LOG_SKIND,
      .MBOX_REJ_LOG_STAMP, .MBOX_REJ_LOG_STATUS]) ++ onFam .face (fCnt ++ [.FACE_PM_STAT_FWAKE, .FACE_PM_STAT_PME_STATUS]) ++
      onFam .schedg fCnt, cnts := [.guard, .core, .route, .bridge, .mbox, .face, .schedg], vars := [.cbsAt, .cbsCr, .elogSeq,
      .msixPend, .pktId, .polAt, .polC, .polP, .qArm, .redAvg, .stipCnt, .stipSeq, .win], fifos := [.elog, .faceWrote, .missLog,
      .notices, .posts, .viWrote], parts := [.buf, .free, .greqs, .out, .streams, .waiting] }

theorem postNotice_in {F : Foot} (hF : Foot.postNotice.le F = true) (st w : Nat) :
    (postNotice st w).In F := by
  unfold postNotice
  repeat' first
      | (with_reducible first | exact all_nil_in | refine all_cons_in ?_ ?_ | refine look_in fun _ => ?_ | refine when_in ?_ | refine ite_in ?_ ?_ | refine forSome_in fun _ => ?_)
      | ((with_reducible refine put_in ?_); (· exact le_vars hF (by decide +kernel)))
      | ((with_reducible refine push_in ?_); (· exact le_fifos hF (by decide +kernel)))
      | ((with_reducible refine bump_in ?_ ?_ ..); (· rfl); (· first | exact Foot.le_trans (F := Foot.counting .mbox) (by decide +kernel) hF))
      | ((with_reducible refine accept_in ?_ ..); (· exact Foot.le_trans (Foot.le_of_runs (by decide +kernel)) hF))
      | ((with_reducible refine postEnds_in ?_ ..); (· exact Foot.le_trans (Foot.le_of_runs (by decide +kernel)) hF))
      | ((with_reducible refine sendMbox_in ?_ ..); (· exact Foot.le_trans (Foot.le_of_runs (by decide +kernel)) hF))
      | split
      | dsimp only

def Foot.noticePostWrite : Foot :=
  { regs := onFam .guard (errFields ++ fCnt ++ [.GUARD_ELOG_CTRL_LOST]) ++ onFam .core (fCnt ++ [.CORE_WM_STAT_WM_CROSS_CNT,
      .CORE_WM_STAT_WM_EVENT, .CORE_WM_STAT_WM_LEVEL]) ++ onFam .route (errFields ++ fCnt) ++ onFam .bridge (errFields ++ fCnt ++
      [.BRIDGE_LOCK_STAT_HOLDER, .BRIDGE_LOCK_STAT_LOCKED, .BRIDGE_PROOF_WM_STAT_WM_CROSS_CNT, .BRIDGE_PROOF_WM_STAT_WM_EVENT,
      .BRIDGE_PROOF_WM_STAT_WM_LEVEL]) ++ onFam .mbox (errFields ++ fCnt ++ [.MBOX_REJ_LOG_SID, .MBOX_REJ_LOG_SKIND,
      .MBOX_REJ_LOG_STAMP, .MBOX_REJ_LOG_STATUS]) ++ onFam .face (fCnt ++ [.FACE_PM_STAT_FWAKE, .FACE_PM_STAT_PME_STATUS]) ++
      onFam .schedg fCnt, cnts := [.guard, .core, .route, .bridge, .mbox, .face, .schedg], vars := [.cbsAt, .cbsCr, .elogSeq,
      .msixPend, .pktId, .polAt, .polC, .polP, .qArm, .redAvg, .stipCnt, .stipSeq, .win], fifos := [.elog, .faceWrote, .missLog,
      .notices, .posts, .viWrote], parts := [.buf, .free, .greqs, .out, .streams, .waiting] }

theorem noticePostWrite_in {F : Foot} (hF : Foot.noticePostWrite.le F = true) (st : Nat) (w v : Nat) :
    (noticePostWrite st w v).In F := by
  unfold noticePostWrite
  repeat' first
      | (with_reducible first | exact all_nil_in | refine all_cons_in ?_ ?_ | refine when_in ?_)
      | ((with_reducible refine put_in ?_); (· exact le_vars hF (by decide +kernel)))
      | ((with_reducible refine postNotice_in ?_ ..); (· exact Foot.le_trans (Foot.le_of_runs (by decide +kernel)) hF))
      | split
      | dsimp only

def Foot.winGranted : Foot :=
  { regs := onFam .guard (errFields ++ fCnt ++ [.GUARD_ELOG_CTRL_LOST]) ++ onFam .mbox errFields ++ onFam .face fCnt, cnts :=
      [.guard, .face], vars := [.aerStamp, .arbLast, .elogSeq, .msixPend], fifos := [.elog, .faceWrote, .viWrote], parts :=
      [.greqs, .out] }

theorem winGranted_in {F : Foot} (hF : Foot.winGranted.le F = true) (st : Stamp) (w : NWin) (off : Nat) (u : Upd) (h : u.In F) :
    (winGranted st w off u).In F := by
  cases w with
  | tenant v => exact granted_in' (pg := .tenant v) rfl (le_vars hF (by decide +kernel)) st (0x800 + off) h
  | face f => exact granting_in (le_vars hF (by decide +kernel)) h
  | page => exact granted_in (pg := .mbox 0) rfl (Foot.le_trans (F := Foot.access .mbox) (by decide +kernel) hF) st (0x200 + off) h

def Foot.noticePop : Foot :=
  { regs := onFam .mbox fCnt ++ onFam .face fCnt, cnts := [.mbox, .face], vars := [.msixPend], fifos := [.faceWrote, .held,
      .notices, .viWrote], parts := [.out] }

theorem noticePop_in {F : Foot} (hF : Foot.noticePop.le F = true) (st : Stamp) (w : NWin) :
    (noticePop st w).In F := by
  unfold noticePop
  repeat' first
      | (with_reducible first | exact all_nil_in | refine all_cons_in ?_ ?_ | refine look_in fun _ => ?_ | refine when_in ?_ | refine forSome_in fun _ => ?_)
      | ((with_reducible refine bump_in ?_ ?_ ..); (· rfl); (· first | exact Foot.le_trans (F := Foot.counting .mbox) (by decide +kernel) hF))
      | ((with_reducible refine popFifo_in ?_ _ _ _ _ ?_); (· exact Foot.le_trans (Foot.le_of_runs (by decide +kernel)) hF); (· exact le_fifos hF (by decide +kernel)))
      | split
      | dsimp only

def Foot.arm : Foot :=
  { regs := onFam .face (fCnt ++ [.FACE_PM_STAT_FWAKE, .FACE_PM_STAT_PME_STATUS]), cnts := [.face], vars := [.msixPend, .qArm],
      fifos := [.faceWrote, .viWrote], parts := [.out] }

theorem arm_in {F : Foot} (hF : Foot.arm.le F = true) (st : Stamp) (w : NWin) :
    (arm st w).In F := by
  unfold arm
  repeat' first
      | (with_reducible first | exact all_nil_in | refine all_cons_in ?_ ?_ | refine look_in fun _ => ?_ | refine when_in ?_ | refine forSome_in fun _ => ?_)
      | ((with_reducible refine put_in ?_); (· exact le_vars hF (by decide +kernel)))
      | ((with_reducible refine doorbell_in ?_ ..); (· exact Foot.le_trans (Foot.le_of_runs (by decide +kernel)) hF))
      | split
      | dsimp only

def Foot.dropNotices : Foot :=
  { regs := onFam .mbox fCnt ++ onFam .face fCnt, cnts := [.mbox, .face], vars := [.msixPend], fifos := [.faceWrote, .notices,
      .viWrote], parts := [.out] }

theorem dropNotices_in {F : Foot} (hF : Foot.dropNotices.le F = true) (q : Nat) :
    (dropNotices q).In F := by
  unfold dropNotices
  repeat' first
      | (with_reducible first | exact all_nil_in | refine all_cons_in ?_ ?_ | refine look_in fun _ => ?_ | refine when_in ?_)
      | ((with_reducible refine putFifo_in ?_); (· exact le_fifos hF (by decide +kernel)))
      | ((with_reducible refine addCnt_in ?_ ?_ ..); (· rfl); (· first | exact Foot.le_trans (F := Foot.counting .mbox) (by decide +kernel) hF))
      | split
      | dsimp only

def Foot.clearStaging : Foot :=
  { vars := [.win] }

theorem clearStaging_in {F : Foot} (hF : Foot.clearStaging.le F = true) (w : Nat) :
    (clearStaging w).In F := by
  unfold clearStaging
  repeat' first
      | (with_reducible first | refine forBelow_in fun _ => ?_)
      | ((with_reducible refine put_in ?_); (· exact le_vars hF (by decide +kernel)))
      | split
      | dsimp only

def Foot.raiseBy : Foot :=
  { regs := onFam .guard (errFields ++ fCnt ++ [.GUARD_ELOG_CTRL_LOST]) ++ onFam .mbox errFields ++ onFam .face fCnt, cnts :=
      [.guard, .face], vars := [.elogSeq, .msixPend], fifos := [.elog, .faceWrote, .viWrote], parts := [.greqs, .out] }

theorem raiseBy_in {F : Foot} (hF : Foot.raiseBy.le F = true) (st : Stamp) (e : Err) :
    (raiseBy st e).In F := by
  unfold raiseBy
  repeat' first
      | ((with_reducible refine raise_in ?_ ?_ ..); (· rfl); (· first | exact Foot.le_trans (F := Foot.error .mbox) (by decide +kernel) hF))
      | ((with_reducible refine raiseIn_in ?_ ?_ ..); (· rfl); (· first | exact Foot.le_trans (F := Foot.error .mbox) (by decide +kernel) hF))
      | split
      | dsimp only

def Foot.wordWrite : Foot :=
  { regs := onFam .guard (errFields ++ fCnt ++ [.GUARD_ELOG_CTRL_LOST]) ++ onFam .mbox (errFields ++ fCnt ++ [.MBOX_WORD_DATA,
      .MBOX_WORD_STAT_FULL, .MBOX_WORD_STAT_WRITER]) ++ onFam .face fCnt, cnts := [.guard, .mbox, .face], vars := [.aerStamp,
      .elogSeq, .msixPend], fifos := [.elog, .faceWrote, .viWrote], parts := [.greqs, .out] }

theorem wordWrite_in {F : Foot} (hF : Foot.wordWrite.le F = true) (st : Stamp) (n v : Nat) :
    (wordWrite st n v).In F := by
  unfold wordWrite
  repeat' first
      | (with_reducible first | exact all_nil_in | refine all_cons_in ?_ ?_ | refine look_in fun _ => ?_ | refine ite_in ?_ ?_)
      | ((with_reducible refine wr_in ?_ ?_); (· first | exact hdr_mem rfl (by decide +kernel) | exact own_mem (show _ ∈ tabMBOX2 by decide +kernel)); (· first | exact le_regs hF (show (Fam.face, _) ∈ _ by decide +kernel) | exact le_regs hF (show (Fam.mbox, _) ∈ _ by decide +kernel)))
      | ((with_reducible refine bump_in ?_ ?_ ..); (· rfl); (· first | exact Foot.le_trans (F := Foot.counting .mbox) (by decide +kernel) hF))
      | ((with_reducible refine tellDiscard_in ?_ ?_ _ _ _); (· exact le_parts hF (by decide +kernel)); (· exact le_vars hF (by decide +kernel)))
      | ((with_reducible refine raiseBy_in ?_ ..); (· exact Foot.le_trans (Foot.le_of_runs (by decide +kernel)) hF))
      | split
      | dsimp only

def Foot.wordTake : Foot :=
  { regs := onFam .mbox [.MBOX_WORD_STAT_FULL] }

theorem wordTake_in {F : Foot} (hF : Foot.wordTake.le F = true) (st : Stamp) (n : Nat) :
    (wordTake st n).In F := by
  unfold wordTake
  repeat' first
      | (with_reducible first | refine look_in fun _ => ?_ | refine when_in ?_)
      | ((with_reducible refine wr_in ?_ ?_); (· first | exact own_mem (show _ ∈ tabMBOX2 by decide +kernel)); (· first | exact le_regs hF (show (Fam.mbox, _) ∈ _ by decide +kernel)))
      | split
      | dsimp only

def Foot.semFree : Foot :=
  { regs := onFam .mbox [.MBOX_SEM_PEEK_HELD, .MBOX_SEM_PEEK_OWNER] }

theorem semFree_in {F : Foot} (hF : Foot.semFree.le F = true) (n : Nat) :
    (semFree n).In F := by
  unfold semFree
  repeat' first
      | (with_reducible first | exact all_nil_in | refine all_cons_in ?_ ?_)
      | ((with_reducible refine wr_in ?_ ?_); (· first | exact own_mem (show _ ∈ tabMBOX3 by decide +kernel)); (· first | exact le_regs hF (show (Fam.mbox, _) ∈ _ by decide +kernel)))
      | split
      | dsimp only

def Foot.semForced : Foot :=
  { regs := onFam .mbox (fCnt ++ [.MBOX_SEM_PEEK_HELD, .MBOX_SEM_PEEK_OWNER]) ++ onFam .face fCnt, cnts := [.mbox, .face], vars :=
      [.msixPend], fifos := [.faceWrote, .viWrote], parts := [.out] }

theorem semForced_in {F : Foot} (hF : Foot.semForced.le F = true) (n : Nat) :
    (semForced n).In F := by
  unfold semForced
  repeat' first
      | (with_reducible first | exact all_nil_in | refine all_cons_in ?_ ?_)
      | ((with_reducible refine bump_in ?_ ?_ ..); (· rfl); (· first | exact Foot.le_trans (F := Foot.counting .mbox) (by decide +kernel) hF))
      | ((with_reducible refine semFree_in ?_ ..); (· exact Foot.le_trans (Foot.le_of_runs (by decide +kernel)) hF))
      | split
      | dsimp only

def Foot.semAcquire : Foot :=
  { regs := onFam .mbox (fCnt ++ [.MBOX_SEM_PEEK_HELD, .MBOX_SEM_PEEK_OWNER]) ++ onFam .face fCnt, cnts := [.mbox, .face], vars :=
      [.msixPend], fifos := [.faceWrote, .viWrote], parts := [.out] }

theorem semAcquire_in {F : Foot} (hF : Foot.semAcquire.le F = true) (st : Stamp) (n : Nat) :
    (semAcquire st n).In F := by
  unfold semAcquire
  repeat' first
      | (with_reducible first | exact all_nil_in | refine all_cons_in ?_ ?_ | refine look_in fun _ => ?_ | refine ite_in ?_ ?_)
      | ((with_reducible refine emit_in ?_); (· exact le_parts hF (by decide +kernel)))
      | ((with_reducible refine wr_in ?_ ?_); (· first | exact hdr_mem rfl (by decide +kernel) | exact own_mem (show _ ∈ tabMBOX3 by decide +kernel)); (· first | exact le_regs hF (show (Fam.face, _) ∈ _ by decide +kernel) | exact le_regs hF (show (Fam.mbox, _) ∈ _ by decide +kernel)))
      | ((with_reducible refine bump_in ?_ ?_ ..); (· rfl); (· first | exact Foot.le_trans (F := Foot.counting .mbox) (by decide +kernel) hF))
      | split
      | dsimp only

def Foot.semRelease : Foot :=
  { regs := onFam .guard (errFields ++ fCnt ++ [.GUARD_ELOG_CTRL_LOST]) ++ onFam .mbox (errFields ++ [.MBOX_SEM_PEEK_HELD,
      .MBOX_SEM_PEEK_OWNER]) ++ onFam .face fCnt, cnts := [.guard, .face], vars := [.elogSeq, .msixPend], fifos := [.elog,
      .faceWrote, .viWrote], parts := [.greqs, .out] }

theorem semRelease_in {F : Foot} (hF : Foot.semRelease.le F = true) (st : Stamp) (n : Nat) :
    (semRelease st n).In F := by
  unfold semRelease
  repeat' first
      | (with_reducible first | refine look_in fun _ => ?_ | refine ite_in ?_ ?_)
      | ((with_reducible refine raiseBy_in ?_ ..); (· exact Foot.le_trans (Foot.le_of_runs (by decide +kernel)) hF))
      | ((with_reducible refine semFree_in ?_ ..); (· exact Foot.le_trans (Foot.le_of_runs (by decide +kernel)) hF))
      | split
      | dsimp only

def Foot.semForce : Foot :=
  { regs := onFam .mbox (fCnt ++ [.MBOX_SEM_PEEK_HELD, .MBOX_SEM_PEEK_OWNER]) ++ onFam .face fCnt, cnts := [.mbox, .face], vars :=
      [.msixPend], fifos := [.faceWrote, .viWrote], parts := [.out] }

theorem semForce_in {F : Foot} (hF : Foot.semForce.le F = true) (st : Stamp) (n : Nat) :
    (semForce st n).In F := by
  unfold semForce
  repeat' first
      | (with_reducible first | refine look_in fun _ => ?_ | refine when_in ?_)
      | ((with_reducible refine semForced_in ?_ ..); (· exact Foot.le_trans (Foot.le_of_runs (by decide +kernel)) hF))
      | split
      | dsimp only

def Foot.semsOf : Foot :=
  { regs := onFam .mbox (fCnt ++ [.MBOX_SEM_PEEK_HELD, .MBOX_SEM_PEEK_OWNER]) ++ onFam .face fCnt, cnts := [.mbox, .face], vars :=
      [.msixPend], fifos := [.faceWrote, .viWrote], parts := [.out] }

theorem semsOf_in {F : Foot} (hF : Foot.semsOf.le F = true) (p : Nat → Bool) :
    (semsOf p).In F := by
  unfold semsOf
  repeat' first
      | (with_reducible first | refine look_in fun _ => ?_ | refine forEach_in fun _ => ?_)
      | ((with_reducible refine semForced_in ?_ ..); (· exact Foot.le_trans (Foot.le_of_runs (by decide +kernel)) hF))
      | split
      | dsimp only

def Foot.firmwareStarts : Foot :=
  { regs := onFam .mbox (fCnt ++ [.MBOX_SEM_PEEK_HELD, .MBOX_SEM_PEEK_OWNER]) ++ onFam .face fCnt, cnts := [.mbox, .face], vars :=
      [.fwEpoch, .msixPend], fifos := [.faceWrote, .viWrote], parts := [.out] }

theorem firmwareStarts_in {F : Foot} (hF : Foot.firmwareStarts.le F = true)  :
    (firmwareStarts).In F := by
  unfold firmwareStarts
  repeat' first
      | (with_reducible first | exact all_nil_in | refine all_cons_in ?_ ?_)
      | ((with_reducible refine modIv_in ?_); (· exact le_vars hF (by decide +kernel)))
      | ((with_reducible refine semsOf_in ?_ ..); (· exact Foot.le_trans (Foot.le_of_runs (by decide +kernel)) hF))
      | split
      | dsimp only

def Foot.mboxSoftReset : Foot :=
  { regs := onFam .mbox (fCnt ++ [.MBOX_SEM_PEEK_HELD, .MBOX_SEM_PEEK_OWNER, .MBOX_WORD_DATA, .MBOX_WORD_STAT_FULL,
      .MBOX_WORD_STAT_WRITER]) ++ onFam .face fCnt, cnts := [.mbox, .face], vars := [.msixPend, .qArm], fifos := [.faceWrote,
      .notices, .viWrote], parts := [.out] }

theorem mboxSoftReset_in {F : Foot} (hF : Foot.mboxSoftReset.le F = true)  :
    (mboxSoftReset).In F := by
  unfold mboxSoftReset
  repeat' first
      | (with_reducible first | exact all_nil_in | refine all_cons_in ?_ ?_ | refine look_in fun _ => ?_ | refine forBelow_in fun _ => ?_ | refine forEach_in fun _ => ?_)
      | ((with_reducible refine clearIv_in ?_); (· exact le_vars hF (by decide +kernel)))
      | ((with_reducible refine wr_in ?_ ?_); (· first | exact own_mem (show _ ∈ tabMBOX2 by decide +kernel)); (· first | exact le_regs hF (show (Fam.mbox, _) ∈ _ by decide +kernel)))
      | ((with_reducible refine dropNotices_in ?_ ..); (· exact Foot.le_trans (Foot.le_of_runs (by decide +kernel)) hF))
      | ((with_reducible refine semFree_in ?_ ..); (· exact Foot.le_trans (Foot.le_of_runs (by decide +kernel)) hF))
      | split
      | dsimp only

end Sys2Proof.Machine
end

