-- ==== Sys2Proof/Laws/FrameInst.lean ====
section
/-! SUPPORT. What each update of Machine/Inst.lean may touch. -/

namespace Sys2Proof.Machine

set_option Elab.async false
set_option linter.unusedTactic false
set_option linter.unreachableTactic false

def Foot.flushRead : Foot :=
  { regs := onFam .sec (errFields ++ fCnt) ++ onFam .guard (errFields ++ fCnt ++ [.GUARD_ELOG_CTRL_LOST]) ++ onFam .core (fCnt ++
      [.CORE_WM_STAT_WM_CROSS_CNT, .CORE_WM_STAT_WM_EVENT, .CORE_WM_STAT_WM_LEVEL]) ++ onFam .route (errFields ++ fCnt) ++ onFam
      .bridge (errFields ++ fCnt ++ [.BRIDGE_LOCK_STAT_HOLDER, .BRIDGE_LOCK_STAT_LOCKED, .BRIDGE_PROOF_WM_STAT_WM_CROSS_CNT,
      .BRIDGE_PROOF_WM_STAT_WM_EVENT, .BRIDGE_PROOF_WM_STAT_WM_LEVEL]) ++ onFam .face (errFields ++ fCnt) ++ onFam .schedg fCnt,
      cnts := [.sec, .guard, .core, .route, .bridge, .face, .schedg], vars := [.cbsAt, .cbsCr, .elogSeq, .lockDest, .msixPend,
      .pcieSent, .pktId, .polAt, .polC, .polP, .redAvg, .stipCnt, .stipSeq, .tagEp], fifos := [.elog, .faceWrote, .missLog,
      .viWrote], parts := [.buf, .free, .greqs, .out, .prefs, .slots, .streams, .waiting] }

theorem flushRead_in {F : Foot} (hF : Foot.flushRead.le F = true) (f : Nat) (vi : Option Nat) (e : Nat × Nat) (tag : Nat) :
    (flushRead f vi e tag).In F := by
  unfold flushRead
  repeat' first
      | (with_reducible first | exact all_nil_in | refine all_cons_in ?_ ?_ | refine look_in fun _ => ?_ | refine ite_in ?_ ?_)
      | ((with_reducible refine deliver_in ?_ ..); (· exact Foot.le_trans (Foot.le_of_runs (by decide +kernel)) hF))
      | ((with_reducible refine takeSlot_in ?_ ..); (· exact Foot.le_trans (Foot.le_of_runs (by decide +kernel)) hF))
      | ((with_reducible refine toOwnHost_in ?_ ..); (· exact Foot.le_trans (Foot.le_of_runs (by decide +kernel)) hF))
      | split
      | dsimp only

def Foot.flushSome : Foot :=
  { regs := onFam .sec (errFields ++ fCnt) ++ onFam .guard (errFields ++ fCnt ++ [.GUARD_ELOG_CTRL_LOST]) ++ onFam .core (fCnt ++
      [.CORE_WM_STAT_WM_CROSS_CNT, .CORE_WM_STAT_WM_EVENT, .CORE_WM_STAT_WM_LEVEL]) ++ onFam .route (errFields ++ fCnt) ++ onFam
      .bridge (errFields ++ fCnt ++ [.BRIDGE_LOCK_STAT_HOLDER, .BRIDGE_LOCK_STAT_LOCKED, .BRIDGE_PROOF_WM_STAT_WM_CROSS_CNT,
      .BRIDGE_PROOF_WM_STAT_WM_EVENT, .BRIDGE_PROOF_WM_STAT_WM_LEVEL]) ++ onFam .face (errFields ++ fCnt) ++ onFam .schedg fCnt,
      cnts := [.sec, .guard, .core, .route, .bridge, .face, .schedg], vars := [.cbsAt, .cbsCr, .elogSeq, .lockDest, .msixPend,
      .pcieSent, .pktId, .polAt, .polC, .polP, .redAvg, .stipCnt, .stipSeq, .tagEp], fifos := [.elog, .faceWrote, .flushTodo,
      .missLog, .viWrote], parts := [.buf, .free, .greqs, .out, .prefs, .slots, .streams, .waiting] }

theorem flushSome_in {F : Foot} (hF : Foot.flushSome.le F = true) (f : Nat) (vi : Option Nat) (i : Nat) :
    (flushSome f vi i).In F := by
  unfold flushSome
  repeat' first
      | (with_reducible first | exact all_nil_in | refine all_cons_in ?_ ?_ | refine look_in fun _ => ?_ | refine when_in ?_ | refine forEach_in fun _ => ?_ | refine forSome_in fun _ => ?_)
      | ((with_reducible refine putFifo_in ?_); (· exact le_fifos hF (by decide +kernel)))
      | ((with_reducible refine flushRead_in ?_ ..); (· exact Foot.le_trans (Foot.le_of_runs (by decide +kernel)) hF))
      | split
      | dsimp only

def Foot.instReset : Foot :=
  { regs := onFam .sec (errFields ++ fCnt) ++ onFam .guard (errFields ++ fCnt ++ [.GUARD_ELOG_CTRL_LOST]) ++ onFam .core (fCnt ++
      [.CORE_WM_STAT_WM_CROSS_CNT, .CORE_WM_STAT_WM_EVENT, .CORE_WM_STAT_WM_LEVEL]) ++ onFam .route (errFields ++ fCnt) ++ onFam
      .bridge (errFields ++ fCnt ++ [.BRIDGE_LOCK_STAT_HOLDER, .BRIDGE_LOCK_STAT_LOCKED, .BRIDGE_PROOF_WM_STAT_WM_CROSS_CNT,
      .BRIDGE_PROOF_WM_STAT_WM_EVENT, .BRIDGE_PROOF_WM_STAT_WM_LEVEL]) ++ onFam .face (errFields ++ fCnt) ++ onFam .schedg fCnt ++
      onFam .inst [.INST_STAT_FENCED, .INST_STAT_FLUSH_TO, .INST_STAT_RESETTING, .INST_STAT_TDI] ++ onFam .moverg errFields ++
      onFam .eng fCnt ++ onFam .ring [.MOVER_RING_STAT_STATE], cnts := [.sec, .guard, .core, .route, .bridge, .face, .schedg,
      .eng], vars := [.cbsAt, .cbsCr, .elogSeq, .fetchN, .fetchTag, .lockDest, .msixPend, .pcieSent, .pktId, .polAt, .polC, .polP,
      .redAvg, .stipCnt, .stipSeq, .stopWaits, .tagEp], fifos := [.elog, .faceWrote, .flushTodo, .missLog, .viWrote], parts :=
      [.buf, .descs, .free, .greqs, .out, .prefs, .slots, .streams, .waiting] }

theorem instReset_in {F : Foot} (hF : Foot.instReset.le F = true) (v : Nat) (stop : Bool) :
    (instReset v stop).In F := by
  unfold instReset
  repeat' first
      | (with_reducible first | exact all_nil_in | refine all_cons_in ?_ ?_ | refine look_in fun _ => ?_ | refine when_in ?_ | refine forEach_in fun _ => ?_)
      | ((with_reducible refine put_in ?_); (· exact le_vars hF (by decide +kernel)))
      | ((with_reducible refine putFifo_in ?_); (· exact le_fifos hF (by decide +kernel)))
      | ((with_reducible refine wr_in ?_ ?_); (· first | exact own_mem (show _ ∈ tabINST2 by decide +kernel) | exact own_mem (show _ ∈ tabRING by decide +kernel)); (· first | exact le_regs hF (show (Fam.inst, _) ∈ _ by decide +kernel) | exact le_regs hF (show (Fam.ring, _) ∈ _ by decide +kernel)))
      | ((with_reducible refine abandon_in ?_ ..); (· exact Foot.le_trans (Foot.le_of_runs (by decide +kernel)) hF))
      | ((with_reducible refine dropDescs_in ?_ ..); (· exact Foot.le_trans (Foot.le_of_runs (by decide +kernel)) hF))
      | ((with_reducible refine flushSome_in ?_ ..); (· exact Foot.le_trans (Foot.le_of_runs (by decide +kernel)) hF))
      | ((with_reducible refine rxSettle_in ?_ ..); (· exact Foot.le_trans (Foot.le_of_runs (by decide +kernel)) hF))
      | ((with_reducible refine rxStop_in ?_ ..); (· exact Foot.le_trans (Foot.le_of_runs (by decide +kernel)) hF))
      | split
      | dsimp only

def Foot.unbindNow : Foot :=
  { regs := onFam .core [.CORE_WM_STAT_WM_CROSS_CNT, .CORE_WM_STAT_WM_EVENT, .CORE_WM_STAT_WM_LEVEL] ++ onFam .mbox fCnt ++ onFam
      .face fCnt ++ onFam .inst (fCnt ++ [.INST_BIND_GO, .INST_STAT_BOUND, .INST_STAT_FENCED, .INST_STAT_TDI]) ++ onFam .ring
      [.MOVER_RING_BASE_ADDR, .MOVER_RING_BASE_ADDR_HI, .MOVER_RING_CFG_ENABLE, .MOVER_RING_CFG_ENGINE, .MOVER_RING_CFG_KIND,
      .MOVER_RING_CFG_OWNER, .MOVER_RING_CFG_OWN_KIND, .MOVER_RING_CFG_SIZE_LOG2, .MOVER_RING_CFG_STOP_ON_ERR,
      .MOVER_RING_CPL_BASE_ADDR, .MOVER_RING_CPL_BASE_ADDR_HI, .MOVER_RING_CPL_CTRL_COAL_US, .MOVER_RING_CPL_CTRL_IRQ_EN,
      .MOVER_RING_CPL_CTRL_MODE, .MOVER_RING_CPL_CTRL_VECTOR, .MOVER_RING_CPL_FIFO_DW, .MOVER_RING_CPL_HEAD_CPL_HEAD,
      .MOVER_RING_CPL_TAIL_CPL_TAIL, .MOVER_RING_CPL_TAIL_PHASE, .MOVER_RING_HEAD_HEAD, .MOVER_RING_STAT_LAST_INDEX,
      .MOVER_RING_STAT_LAST_STATUS, .MOVER_RING_STAT_RESUME, .MOVER_RING_STAT_STATE, .MOVER_RING_TAIL_TAIL], cnts := [.mbox,
      .face, .inst], vars := [.coalDue, .coalOn, .fetchAt, .fetchN, .fetchTag, .meDef, .msixPend, .rehome, .unbindBy, .viSlot],
      fifos := [.cplFifo, .faceWrote, .notices, .ringWrote, .viWrote], parts := [.descs, .out, .slots] }

theorem unbindNow_in {F : Foot} (hF : Foot.unbindNow.le F = true) (v : Nat) :
    (unbindNow v).In F := by
  unfold unbindNow
  repeat' first
      | (with_reducible first | exact all_nil_in | refine all_cons_in ?_ ?_ | refine look_in fun _ => ?_ | refine forEach_in fun _ => ?_ | refine forSome_in fun _ => ?_)
      | ((with_reducible refine put_in ?_); (· exact le_vars hF (by decide +kernel)))
      | ((with_reducible refine wr_in ?_ ?_); (· first | exact hdr_mem rfl (by decide +kernel) | exact own_mem (show _ ∈ tabINST0 by decide +kernel) | exact own_mem (show _ ∈ tabINST2 by decide +kernel) | exact own_mem (show _ ∈ tabRING by decide +kernel)); (· first | exact le_regs hF (show (Fam.face, _) ∈ _ by decide +kernel) | exact le_regs hF (show (Fam.inst, _) ∈ _ by decide +kernel) | exact le_regs hF (show (Fam.ring, _) ∈ _ by decide +kernel)))
      | ((with_reducible refine wrSt_in ?_ ?_); (· first | exact hdr_mem rfl (by decide +kernel) | exact own_mem (show _ ∈ tabINST0 by decide +kernel) | exact own_mem (show _ ∈ tabINST2 by decide +kernel) | exact own_mem (show _ ∈ tabRING by decide +kernel)); (· first | exact le_regs hF (show (Fam.face, _) ∈ _ by decide +kernel) | exact le_regs hF (show (Fam.inst, _) ∈ _ by decide +kernel) | exact le_regs hF (show (Fam.ring, _) ∈ _ by decide +kernel)))
      | ((with_reducible refine bump_in ?_ ?_ ..); (· rfl); (· first | exact Foot.le_trans (F := Foot.counting .inst) (by decide +kernel) hF))
      | ((with_reducible refine coreWatch_in ?_ ..); (· exact Foot.le_trans (Foot.le_of_runs (by decide +kernel)) hF))
      | ((with_reducible refine dropNotices_in ?_ ..); (· exact Foot.le_trans (Foot.le_of_runs (by decide +kernel)) hF))
      | ((with_reducible refine ringClear_in ?_ ..); (· exact Foot.le_trans (Foot.le_of_runs (by decide +kernel)) hF))
      | split
      | dsimp only

def Foot.instResetWrite : Foot :=
  { regs := onFam .sec (errFields ++ fCnt) ++ onFam .guard (errFields ++ fCnt ++ [.GUARD_ELOG_CTRL_LOST]) ++ onFam .core (fCnt ++
      [.CORE_WM_STAT_WM_CROSS_CNT, .CORE_WM_STAT_WM_EVENT, .CORE_WM_STAT_WM_LEVEL]) ++ onFam .route (errFields ++ fCnt) ++ onFam
      .bridge (errFields ++ fCnt ++ [.BRIDGE_LOCK_STAT_HOLDER, .BRIDGE_LOCK_STAT_LOCKED, .BRIDGE_PROOF_WM_STAT_WM_CROSS_CNT,
      .BRIDGE_PROOF_WM_STAT_WM_EVENT, .BRIDGE_PROOF_WM_STAT_WM_LEVEL]) ++ onFam .face (errFields ++ fCnt) ++ onFam .schedg fCnt ++
      onFam .inst (errFields ++ fCnt ++ [.INST_RESET_GO, .INST_RESET_REFUSED, .INST_RESET_VI, .INST_STAT_FENCED,
      .INST_STAT_FLUSH_TO, .INST_STAT_RESETTING, .INST_STAT_TDI]) ++ onFam .moverg errFields ++ onFam .eng fCnt ++ onFam .ring
      [.MOVER_RING_STAT_STATE], cnts := [.sec, .guard, .core, .route, .bridge, .face, .schedg, .inst, .eng], vars := [.cbsAt,
      .cbsCr, .elogSeq, .fetchN, .fetchTag, .lockDest, .msixPend, .pcieSent, .pktId, .polAt, .polC, .polP, .redAvg, .stipCnt,
      .stipSeq, .stopWaits, .tagEp], fifos := [.elog, .faceWrote, .flushTodo, .missLog, .viWrote], parts := [.buf, .descs, .free,
      .greqs, .out, .prefs, .slots, .streams, .waiting] }

theorem instResetWrite_in {F : Foot} (hF : Foot.instResetWrite.le F = true) (st : Stamp) (v : Nat) :
    (instResetWrite st v).In F := by
  unfold instResetWrite
  repeat' first
      | (with_reducible first | exact all_nil_in | refine all_cons_in ?_ ?_ | refine look_in fun _ => ?_ | refine when_in ?_ | refine ite_in ?_ ?_)
      | ((with_reducible refine wr_in ?_ ?_); (· first | exact hdr_mem rfl (by decide +kernel) | exact own_mem (show _ ∈ tabGUARD0 by decide +kernel) | exact own_mem (show _ ∈ tabINST0 by decide +kernel)); (· first | exact le_regs hF (show (Fam.face, _) ∈ _ by decide +kernel) | exact le_regs hF (show (Fam.guard, _) ∈ _ by decide +kernel) | exact le_regs hF (show (Fam.inst, _) ∈ _ by decide +kernel)))
      | ((with_reducible refine bump_in ?_ ?_ ..); (· rfl); (· first | exact Foot.le_trans (F := Foot.counting .inst) (by decide +kernel) hF))
      | ((with_reducible refine raise_in ?_ ?_ ..); (· rfl); (· first | exact Foot.le_trans (F := Foot.error .inst) (by decide +kernel) hF))
      | ((with_reducible refine plainWrite_in ?_ _ _); (· first | exact fun fi m => le_regs hF ((show ∀ fi ∈ atOff (tabHDR ++ tabINST0) 0x110, (Fam.inst, fi.1) ∈ Foot.instResetWrite.regs by decide +kernel) fi m)))
      | ((with_reducible refine instReset_in ?_ ..); (· exact Foot.le_trans (Foot.le_of_runs (by decide +kernel)) hF))
      | split
      | dsimp only

def Foot.selfReset : Foot :=
  { regs := onFam .sec (errFields ++ fCnt) ++ onFam .guard (errFields ++ fCnt ++ [.GUARD_ELOG_CTRL_LOST]) ++ onFam .core (fCnt ++
      [.CORE_WM_STAT_WM_CROSS_CNT, .CORE_WM_STAT_WM_EVENT, .CORE_WM_STAT_WM_LEVEL]) ++ onFam .route (errFields ++ fCnt) ++ onFam
      .bridge (errFields ++ fCnt ++ [.BRIDGE_LOCK_STAT_HOLDER, .BRIDGE_LOCK_STAT_LOCKED, .BRIDGE_PROOF_WM_STAT_WM_CROSS_CNT,
      .BRIDGE_PROOF_WM_STAT_WM_EVENT, .BRIDGE_PROOF_WM_STAT_WM_LEVEL]) ++ onFam .face (errFields ++ fCnt) ++ onFam .schedg fCnt ++
      onFam .inst [.INST_STAT_FENCED, .INST_STAT_FLUSH_TO, .INST_STAT_RESETTING, .INST_STAT_TDI] ++ onFam .moverg errFields ++
      onFam .eng fCnt ++ onFam .ring [.MOVER_RING_STAT_STATE], cnts := [.sec, .guard, .core, .route, .bridge, .face, .schedg,
      .eng], vars := [.cbsAt, .cbsCr, .elogSeq, .fetchN, .fetchTag, .lockDest, .msixPend, .pcieSent, .pktId, .polAt, .polC, .polP,
      .redAvg, .stipCnt, .stipSeq, .stopWaits, .tagEp], fifos := [.elog, .faceWrote, .flushTodo, .missLog, .viWrote], parts :=
      [.buf, .descs, .free, .greqs, .out, .prefs, .slots, .streams, .waiting] }

theorem selfReset_in {F : Foot} (hF : Foot.selfReset.le F = true) (v : Nat) :
    (selfReset v).In F := by
  unfold selfReset
  repeat' first
      | (with_reducible first | refine look_in fun _ => ?_ | refine when_in ?_)
      | ((with_reducible refine instReset_in ?_ ..); (· exact Foot.le_trans (Foot.le_of_runs (by decide +kernel)) hF))
      | split
      | dsimp only

def Foot.bindNow : Foot :=
  { regs := onFam .core [.CORE_WM_STAT_WM_CROSS_CNT, .CORE_WM_STAT_WM_EVENT, .CORE_WM_STAT_WM_LEVEL] ++ onFam .face fCnt ++ onFam
      .inst (fCnt ++ [.INST_BIND_CFG0_FACE, .INST_BIND_CFG0_PASID, .INST_BIND_CFG1_FEID, .INST_BIND_CFG1_POLICER,
      .INST_BIND_CFG1_POL_EN, .INST_BIND_CFG2_TAG_MAX, .INST_BIND_CFG2_VEC_BASE, .INST_BIND_CFG2_VEC_LOG2, .INST_STAT_BOUND,
      .INST_STAT_FACE, .INST_VI_CFG_CFG0_FACE, .INST_VI_CFG_CFG0_PASID, .INST_VI_CFG_CFG1_FEID, .INST_VI_CFG_CFG1_POLICER,
      .INST_VI_CFG_CFG1_POL_EN, .INST_VI_CFG_CFG2_TAG_MAX, .INST_VI_CFG_CFG2_VEC_BASE, .INST_VI_CFG_CFG2_VEC_LOG2]), cnts :=
      [.face, .inst], vars := [.msixPend, .viSlot], fifos := [.faceWrote, .viWrote], parts := [.out] }

theorem bindNow_in {F : Foot} (hF : Foot.bindNow.le F = true) (st v : Nat) :
    (bindNow st v).In F := by
  unfold bindNow
  repeat' first
      | (with_reducible first | exact all_nil_in | refine all_cons_in ?_ ?_ | refine look_in fun _ => ?_)
      | ((with_reducible refine put_in ?_); (· exact le_vars hF (by decide +kernel)))
      | ((with_reducible refine setCnt_in ?_); (· first | exact le_cnts (x := Fam.face) hF (by decide +kernel) | exact le_cnts (x := Fam.inst) hF (by decide +kernel)))
      | ((with_reducible refine wr_in ?_ ?_); (· first | exact hdr_mem rfl (by decide +kernel) | exact own_mem (show _ ∈ tabINST0 by decide +kernel) | exact own_mem (show _ ∈ tabINST2 by decide +kernel) | exact own_mem (show _ ∈ tabINST3 by decide +kernel)); (· first | exact le_regs hF (show (Fam.face, _) ∈ _ by decide +kernel) | exact le_regs hF (show (Fam.inst, _) ∈ _ by decide +kernel)))
      | ((with_reducible refine bump_in ?_ ?_ ..); (· rfl); (· first | exact Foot.le_trans (F := Foot.counting .inst) (by decide +kernel) hF))
      | ((with_reducible refine coreWatch_in ?_ ..); (· exact Foot.le_trans (Foot.le_of_runs (by decide +kernel)) hF))
      | split
      | dsimp only

def Foot.bindEnds : Foot :=
  { regs := onFam .guard (errFields ++ fCnt ++ [.GUARD_ELOG_CTRL_LOST]) ++ onFam .face fCnt ++ onFam .inst (errFields ++ fCnt ++
      [.INST_BIND_STATUS]), cnts := [.guard, .face, .inst], vars := [.elogSeq, .msixPend], fifos := [.elog, .faceWrote, .viWrote],
      parts := [.greqs, .out] }

theorem bindEnds_in {F : Foot} (hF : Foot.bindEnds.le F = true) (st status : Nat) :
    (bindEnds st status).In F := by
  unfold bindEnds
  repeat' first
      | (with_reducible first | exact all_nil_in | refine all_cons_in ?_ ?_ | refine when_in ?_)
      | ((with_reducible refine wrSt_in ?_ ?_); (· first | exact hdr_mem rfl (by decide +kernel) | exact own_mem (show _ ∈ tabGUARD0 by decide +kernel) | exact own_mem (show _ ∈ tabINST0 by decide +kernel)); (· first | exact le_regs hF (show (Fam.face, _) ∈ _ by decide +kernel) | exact le_regs hF (show (Fam.guard, _) ∈ _ by decide +kernel) | exact le_regs hF (show (Fam.inst, _) ∈ _ by decide +kernel)))
      | ((with_reducible refine bump_in ?_ ?_ ..); (· rfl); (· first | exact Foot.le_trans (F := Foot.counting .inst) (by decide +kernel) hF))
      | ((with_reducible refine raise_in ?_ ?_ ..); (· rfl); (· first | exact Foot.le_trans (F := Foot.error .inst) (by decide +kernel) hF))
      | split
      | dsimp only

def Foot.instBindWrite : Foot :=
  { regs := onFam .sec (errFields ++ fCnt) ++ onFam .guard (errFields ++ fCnt ++ [.GUARD_ELOG_CTRL_LOST]) ++ onFam .core (fCnt ++
      [.CORE_WM_STAT_WM_CROSS_CNT, .CORE_WM_STAT_WM_EVENT, .CORE_WM_STAT_WM_LEVEL]) ++ onFam .route (errFields ++ fCnt) ++ onFam
      .bridge (errFields ++ fCnt ++ [.BRIDGE_LOCK_STAT_HOLDER, .BRIDGE_LOCK_STAT_LOCKED, .BRIDGE_PROOF_WM_STAT_WM_CROSS_CNT,
      .BRIDGE_PROOF_WM_STAT_WM_EVENT, .BRIDGE_PROOF_WM_STAT_WM_LEVEL]) ++ onFam .face (errFields ++ fCnt) ++ onFam .schedg fCnt ++
      onFam .inst (errFields ++ fCnt ++ [.INST_BIND_CFG0_FACE, .INST_BIND_CFG0_PASID, .INST_BIND_CFG1_FEID,
      .INST_BIND_CFG1_POLICER, .INST_BIND_CFG1_POL_EN, .INST_BIND_CFG2_TAG_MAX, .INST_BIND_CFG2_VEC_BASE,
      .INST_BIND_CFG2_VEC_LOG2, .INST_BIND_GO, .INST_BIND_OP, .INST_BIND_STATUS, .INST_BIND_VI, .INST_STAT_BOUND, .INST_STAT_FACE,
      .INST_STAT_FENCED, .INST_STAT_FLUSH_TO, .INST_STAT_RESETTING, .INST_STAT_TDI, .INST_VI_CFG_CFG0_FACE,
      .INST_VI_CFG_CFG0_PASID, .INST_VI_CFG_CFG1_FEID, .INST_VI_CFG_CFG1_POLICER, .INST_VI_CFG_CFG1_POL_EN,
      .INST_VI_CFG_CFG2_TAG_MAX, .INST_VI_CFG_CFG2_VEC_BASE, .INST_VI_CFG_CFG2_VEC_LOG2]) ++ onFam .moverg errFields ++ onFam .eng
      fCnt ++ onFam .ring [.MOVER_RING_STAT_STATE], cnts := [.sec, .guard, .core, .route, .bridge, .face, .schedg, .inst, .eng],
      vars := [.cbsAt, .cbsCr, .elogSeq, .fetchN, .fetchTag, .lockDest, .msixPend, .pcieSent, .pktId, .polAt, .polC, .polP,
      .redAvg, .stipCnt, .stipSeq, .stopWaits, .tagEp, .unbindBy, .viSlot], fifos := [.elog, .faceWrote, .flushTodo, .missLog,
      .viWrote], parts := [.buf, .descs, .free, .greqs, .out, .prefs, .slots, .streams, .waiting] }

theorem instBindWrite_in {F : Foot} (hF : Foot.instBindWrite.le F = true) (st : Stamp) (v : Nat) :
    (instBindWrite st v).In F := by
  unfold instBindWrite
  repeat' first
      | (with_reducible first | exact all_nil_in | refine all_cons_in ?_ ?_ | refine look_in fun _ => ?_ | refine when_in ?_ | refine ite_in ?_ ?_)
      | ((with_reducible refine put_in ?_); (· exact le_vars hF (by decide +kernel)))
      | ((with_reducible refine wrSt_in ?_ ?_); (· first | exact own_mem (show _ ∈ tabINST0 by decide +kernel)); (· first | exact le_regs hF (show (Fam.inst, _) ∈ _ by decide +kernel)))
      | ((with_reducible refine plainWrite_in ?_ _ _); (· first | exact fun fi m => le_regs hF ((show ∀ fi ∈ atOff (tabHDR ++ tabINST0) 0x100, (Fam.inst, fi.1) ∈ Foot.instBindWrite.regs by decide +kernel) fi m)))
      | ((with_reducible refine bindEnds_in ?_ ..); (· exact Foot.le_trans (Foot.le_of_runs (by decide +kernel)) hF))
      | ((with_reducible refine bindNow_in ?_ ..); (· exact Foot.le_trans (Foot.le_of_runs (by decide +kernel)) hF))
      | ((with_reducible refine instReset_in ?_ ..); (· exact Foot.le_trans (Foot.le_of_runs (by decide +kernel)) hF))
      | split
      | dsimp only

def Foot.tdiCheck : Foot :=
  { regs := onFam .inst [.INST_STAT_FENCED, .INST_STAT_TDI] }

theorem tdiCheck_in {F : Foot} (hF : Foot.tdiCheck.le F = true)  :
    (tdiCheck).In F := by
  unfold tdiCheck
  repeat' first
      | (with_reducible first | refine look_in fun _ => ?_ | refine forEach_in fun _ => ?_)
      | ((with_reducible refine tdiBreach_in ?_ ..); (· exact Foot.le_trans (Foot.le_of_runs (by decide +kernel)) hF))
      | split
      | dsimp only

def Foot.shareWrite : Foot :=
  { regs := onFam .inst [.INST_SHARE_SHARE, .INST_STAT_FENCED, .INST_STAT_SUSPENDED, .INST_STAT_TDI], vars := [.flowDef] }

theorem shareWrite_in {F : Foot} (hF : Foot.shareWrite.le F = true) (st : Stamp) (v w : Nat) (hv : v < 1024) :
    (shareWrite st v w).In F := by
  unfold shareWrite
  repeat' first
      | (with_reducible first | exact all_nil_in | refine all_cons_in ?_ ?_ | refine look_in fun _ => ?_ | refine when_in ?_)
      | ((with_reducible refine clearIv_in ?_); (· exact le_vars hF (by decide +kernel)))
      | ((with_reducible refine wr_in ?_ ?_); (· first | exact own_mem (show _ ∈ tabINST1 by decide +kernel) | exact own_mem (show _ ∈ tabINST2 by decide +kernel)); (· first | exact le_regs hF (show (Fam.inst, _) ∈ _ by decide +kernel)))
      | ((with_reducible refine plainWrite_in ?_ _ _); (· first | exact fun fi m => le_regs hF ((show ∀ k < 1024, ∀ fi ∈ atOff (tabHDR ++ tabINST1) (0x100 + 4 * k), (Fam.inst, fi.1) ∈ Foot.shareWrite.regs by decide +kernel) v hv fi m)))
      | ((with_reducible refine tdiCheck_in ?_ ..); (· exact Foot.le_trans (Foot.le_of_runs (by decide +kernel)) hF))
      | split
      | dsimp only

def Foot.tdispFor : Foot :=
  { regs := onFam .mgmt fCnt ++ onFam .sec errFields ++ onFam .guard (errFields ++ fCnt ++ [.GUARD_ELOG_CTRL_LOST]) ++ onFam .face
      fCnt, cnts := [.mgmt, .guard, .face], vars := [.elogSeq, .msixPend], fifos := [.elog, .faceWrote, .viWrote], parts :=
      [.greqs, .out] }

theorem tdispFor_in {F : Foot} (hF : Foot.tdispFor.le F = true) (ch : DoeOrMctp) (v : Nat) (u : Nat → State → Upd) (h_u : ∀ z0 z1, (u z0 z1).In F) :
    (tdispFor ch v u).In F := by
  unfold tdispFor
  repeat' first
      | (with_reducible first | refine look_in fun _ => ?_ | refine when_in ?_)
      | with_reducible exact h_u _ _
      | ((with_reducible refine inSession_in ?_ _ _ (fun _ => ?_)); (· exact Foot.le_trans (Foot.le_of_runs (by decide +kernel)) hF); skip)
      | split
      | dsimp only

def Foot.seMasterOff : Foot :=
  { vars := [.fetchN, .fetchTag, .seBusMaster], parts := [.slots] }

theorem seMasterOff_in {F : Foot} (hF : Foot.seMasterOff.le F = true) (f : Nat) :
    (seMasterOff f).In F := by
  unfold seMasterOff
  repeat' first
      | (with_reducible first | exact all_nil_in | refine all_cons_in ?_ ?_ | refine look_in fun _ => ?_ | refine forEach_in fun _ => ?_)
      | ((with_reducible refine put_in ?_); (· exact le_vars hF (by decide +kernel)))
      | ((with_reducible refine abandon_in ?_ ..); (· exact Foot.le_trans (Foot.le_of_runs (by decide +kernel)) hF))
      | ((with_reducible refine dropFetch_in ?_ ..); (· exact Foot.le_trans (Foot.le_of_runs (by decide +kernel)) hF))
      | split
      | dsimp only

def Foot.seReset : Foot :=
  { vars := [.msixAddr, .msixData, .msixEnable, .msixFnMask, .msixOpen, .msixPend, .seBar, .seBusMaster, .seMps, .seMrrs, .seMse,
      .sePasid, .seTags, .win] }

theorem seReset_in {F : Foot} (hF : Foot.seReset.le F = true) (f : Nat) :
    (seReset f).In F := by
  unfold seReset
  repeat' first
      | (with_reducible first | exact all_nil_in | refine all_cons_in ?_ ?_)
      | ((with_reducible refine put_in ?_); (· exact le_vars hF (by decide +kernel)))
      | ((with_reducible refine clearIv_in ?_); (· exact le_vars hF (by decide +kernel)))
      | ((with_reducible refine clearStaging_in ?_ ..); (· exact Foot.le_trans (Foot.le_of_runs (by decide +kernel)) hF))
      | split
      | dsimp only

def Foot.keepSoftReset : Foot :=
  { regs := onFam .face [.BLK_CTRL_SOFT_RESET] }

theorem keepSoftReset_in {F : Foot} (hF : Foot.keepSoftReset.le F = true) (f : Nat) (u : Upd) (h_u : u.In F) :
    (keepSoftReset f u).In F := by
  unfold keepSoftReset
  repeat' first
      | (with_reducible first | exact all_nil_in | refine all_cons_in ?_ ?_ | refine look_in fun _ => ?_ | refine when_in ?_)
      | with_reducible exact h_u
      | ((with_reducible refine wr_in ?_ ?_); (· first | exact hdr_mem rfl (by decide +kernel)); (· first | exact le_regs hF (show (Fam.face, _) ∈ _ by decide +kernel)))
      | split
      | dsimp only

def Foot.flrStart : Foot :=
  { regs := onFam .sec (errFields ++ fCnt) ++ onFam .guard (errFields ++ fCnt ++ [.GUARD_ELOG_CTRL_LOST]) ++ onFam .core (fCnt ++
      [.CORE_WM_STAT_WM_CROSS_CNT, .CORE_WM_STAT_WM_EVENT, .CORE_WM_STAT_WM_LEVEL]) ++ onFam .route (errFields ++ fCnt) ++ onFam
      .bridge (errFields ++ fCnt ++ [.BRIDGE_LOCK_STAT_HOLDER, .BRIDGE_LOCK_STAT_LOCKED, .BRIDGE_PROOF_WM_STAT_WM_CROSS_CNT,
      .BRIDGE_PROOF_WM_STAT_WM_EVENT, .BRIDGE_PROOF_WM_STAT_WM_LEVEL]) ++ onFam .face (errFields ++ fCnt ++ [.FACE_FLR_STAT_BUSY])
      ++ onFam .schedg fCnt ++ onFam .inst [.INST_STAT_FENCED, .INST_STAT_FLUSH_TO, .INST_STAT_RESETTING, .INST_STAT_TDI] ++ onFam
      .moverg errFields ++ onFam .eng fCnt ++ onFam .ring [.MOVER_RING_STAT_STATE], cnts := [.sec, .guard, .core, .route, .bridge,
      .face, .schedg, .eng], vars := [.cbsAt, .cbsCr, .elogSeq, .faceEpoch, .fetchN, .fetchTag, .flrAt, .lockDest, .msixPend,
      .pcieSent, .pktId, .polAt, .polC, .polP, .redAvg, .stipCnt, .stipSeq, .stopWaits, .tagEp], fifos := [.elog, .faceWrote,
      .flushTodo, .missLog, .viWrote], parts := [.buf, .descs, .free, .greqs, .out, .prefs, .slots, .streams, .waiting] }

theorem flrStart_in {F : Foot} (hF : Foot.flrStart.le F = true) (f : Nat) :
    (flrStart f).In F := by
  unfold flrStart
  repeat' first
      | (with_reducible first | exact all_nil_in | refine all_cons_in ?_ ?_ | refine look_in fun _ => ?_ | refine when_in ?_ | refine forEach_in fun _ => ?_)
      | ((with_reducible refine put_in ?_); (· exact le_vars hF (by decide +kernel)))
      | ((with_reducible refine modIv_in ?_); (· exact le_vars hF (by decide +kernel)))
      | ((with_reducible refine putFifo_in ?_); (· exact le_fifos hF (by decide +kernel)))
      | ((with_reducible refine wr_in ?_ ?_); (· first | exact own_mem (show _ ∈ tabFACE by decide +kernel)); (· first | exact le_regs hF (show (Fam.face, _) ∈ _ by decide +kernel)))
      | ((with_reducible refine abandon_in ?_ ..); (· exact Foot.le_trans (Foot.le_of_runs (by decide +kernel)) hF))
      | ((with_reducible refine dropFetch_in ?_ ..); (· exact Foot.le_trans (Foot.le_of_runs (by decide +kernel)) hF))
      | ((with_reducible refine flushSome_in ?_ ..); (· exact Foot.le_trans (Foot.le_of_runs (by decide +kernel)) hF))
      | ((with_reducible refine instReset_in ?_ ..); (· exact Foot.le_trans (Foot.le_of_runs (by decide +kernel)) hF))
      | split
      | dsimp only

def Foot.viewReset : Foot :=
  { regs := onFam .face [.FACE_PRES_SHOWN], vars := [.aspm, .bme, .bridgeCtl, .bridgeD3, .linkDis, .memWin, .mse, .pmeOff,
      .prefBase, .prefLimit, .prefWin, .presBar, .presBarSet, .presBase, .presCmd, .presInfo, .presRom, .priBus, .ptmCount,
      .ptmEnable, .secBus, .sizing, .slotCtl, .slotStat, .subBus, .uspMps], parts := [.out] }

theorem viewReset_in {F : Foot} (hF : Foot.viewReset.le F = true) (f : Nat) :
    (viewReset f).In F := by
  unfold viewReset
  repeat' first
      | ((with_reducible refine forEach_clearIv_in hF ?_ _); (· decide +kernel))
      | (with_reducible first | exact all_nil_in | refine all_cons_in ?_ ?_ | refine look_in fun _ => ?_ | refine forEach_in fun _ => ?_)
      | ((with_reducible refine put_in ?_); (· exact le_vars hF (by decide +kernel)))
      | ((with_reducible refine clearIv_in ?_); (· exact le_vars hF (by decide +kernel)))
      | ((with_reducible refine presHide_in ?_ ..); (· exact Foot.le_trans (Foot.le_of_runs (by decide +kernel)) hF))
      | split
      | dsimp only

def Foot.faceReset : Foot :=
  { regs := onFam .sec (errFields ++ fCnt ++ [.SEC_IDE_STAT_DEV_AUTH, .SEC_IDE_STAT_LINK_ID, .SEC_IDE_STAT_LINK_KSET,
      .SEC_IDE_STAT_LINK_SECURE, .SEC_IDE_STAT_SEL_SECURE, .SEC_IDE_STAT_SEL_VALID, .SEC_LINK_STAT_AUTH_OK,
      .SEC_LINK_STAT_AUTH_STATUS, .SEC_LINK_STAT_PARTNER_DEBUG, .SEC_LINK_STAT_REKEY, .SEC_LINK_STAT_REKEYS]) ++ onFam .guard
      (errFields ++ fCnt ++ [.GUARD_ELOG_CTRL_LOST]) ++ onFam .lane [.LANE_INJ_CTRL_ONE_SHOT, .LANE_RATE_CFG_RATE_NOW,
      .LANE_REST_CTRL_IN_REST, .LANE_STAT_ALIGN_LOCK, .LANE_STAT_CDR_LOCK, .LANE_STAT_EQ_DONE, .LANE_STAT_EQ_FAIL,
      .LANE_STAT_EXIT_FAIL, .LANE_STAT_FAILED, .LANE_STAT_FEC_LOCK, .LANE_STAT_RX_READY, .LANE_STAT_STATE, .LANE_TX_TAPS_C0,
      .LANE_TX_TAPS_POST, .LANE_TX_TAPS_PRE] ++ onFam .core (errFields ++ fCnt ++ [.CORE_WM_STAT_WM_CROSS_CNT,
      .CORE_WM_STAT_WM_EVENT, .CORE_WM_STAT_WM_LEVEL]) ++ onFam .route (errFields ++ fCnt) ++ onFam .bridge (errFields ++ fCnt ++
      [.BRIDGE_FAB_NBR_PARTNER_PORT, .BRIDGE_FAB_NBR_PARTNER_SW, .BRIDGE_FAB_NBR_VALID, .BRIDGE_LOCK_STAT_HOLDER,
      .BRIDGE_LOCK_STAT_LOCKED, .BRIDGE_PROOF_WM_STAT_WM_CROSS_CNT, .BRIDGE_PROOF_WM_STAT_WM_EVENT,
      .BRIDGE_PROOF_WM_STAT_WM_LEVEL]) ++ onFam .mbox (fCnt ++ [.MBOX_SEM_PEEK_HELD, .MBOX_SEM_PEEK_OWNER]) ++ onFam .port
      [.PORT_LINK_STAT_ENC, .PORT_LINK_STAT_FLIT, .PORT_LINK_STAT_KEY_PHASE, .PORT_LINK_STAT_LANES_GOOD, .PORT_LINK_STAT_RATE_NOW,
      .PORT_LINK_STAT_STATE, .PORT_LINK_STAT_WIDTH_NOW, .PORT_REPLAY_CNT_CONSEC] ++ onFam .face (errFields ++ fCnt ++
      [.BLK_CTRL_SOFT_RESET, .CNT_CLR_CLR, .CNT_HI_HIGH, .CNT_LO_LOW, .FACE_BIND_STATE, .FACE_BUS_LIMIT_NEED,
      .FACE_BUS_LIMIT_NO_BUS, .FACE_FLR_STAT_BUSY, .FACE_FLR_STAT_DONE, .FACE_FLR_STAT_TIME_US, .FACE_PM_STAT_FWAKE,
      .FACE_PM_STAT_LINK_PM, .FACE_PM_STAT_PME_EN, .FACE_PM_STAT_PME_STATUS, .FACE_PM_STAT_SE_D, .FACE_PM_STAT_USP_D,
      .FACE_PRES_CONFLICT, .FACE_PRES_SHOWN, .FACE_TAG_CTRL_REQ_WIDTH, .FACE_WIN_BASE_ADDR, .FACE_WIN_BASE_ADDR_HI,
      .FACE_WIN_COMMIT_GO, .FACE_WIN_COMMIT_INDEX, .FACE_WIN_COMMIT_OP, .FACE_WIN_COMMIT_STATUS, .FACE_WIN_SIZE_LINK_BAR,
      .FACE_WIN_SIZE_LINK_EN, .FACE_WIN_SIZE_LINK_PRES, .FACE_WIN_SIZE_LOG2, .FACE_WIN_TAB_ACTIVE, .FACE_WIN_TAB_BASE,
      .FACE_WIN_TAB_BASE_HI, .FACE_WIN_TAB_LINK_BAR, .FACE_WIN_TAB_LINK_EN, .FACE_WIN_TAB_LINK_PRES, .FACE_WIN_TAB_LOG2,
      .FACE_WIN_TAB_VALID, .FACE_WIN_TAB_XLAT, .FACE_WIN_TAB_XLAT_HI, .FACE_WIN_XLAT_ADDR, .FACE_WIN_XLAT_ADDR_HI]) ++ onFam
      .schedg fCnt ++ onFam .inst [.INST_STAT_FENCED, .INST_STAT_FLUSH_TO, .INST_STAT_RESETTING, .INST_STAT_TDI] ++ onFam .moverg
      errFields ++ onFam .eng fCnt ++ onFam .ring [.MOVER_RING_BASE_ADDR, .MOVER_RING_BASE_ADDR_HI, .MOVER_RING_CFG_ENABLE,
      .MOVER_RING_CFG_ENGINE, .MOVER_RING_CFG_KIND, .MOVER_RING_CFG_OWNER, .MOVER_RING_CFG_OWN_KIND, .MOVER_RING_CFG_SIZE_LOG2,
      .MOVER_RING_CFG_STOP_ON_ERR, .MOVER_RING_CPL_BASE_ADDR, .MOVER_RING_CPL_BASE_ADDR_HI, .MOVER_RING_CPL_CTRL_COAL_US,
      .MOVER_RING_CPL_CTRL_IRQ_EN, .MOVER_RING_CPL_CTRL_MODE, .MOVER_RING_CPL_CTRL_VECTOR, .MOVER_RING_CPL_FIFO_DW,
      .MOVER_RING_CPL_HEAD_CPL_HEAD, .MOVER_RING_CPL_TAIL_CPL_TAIL, .MOVER_RING_CPL_TAIL_PHASE, .MOVER_RING_HEAD_HEAD,
      .MOVER_RING_STAT_LAST_INDEX, .MOVER_RING_STAT_LAST_STATUS, .MOVER_RING_STAT_RESUME, .MOVER_RING_STAT_STATE,
      .MOVER_RING_TAIL_TAIL], cnts := [.sec, .guard, .core, .route, .bridge, .mbox, .face, .schedg, .eng], vars := [.alignMiss,
      .alignSeen, .aspm, .authDebug, .authStep, .badCw, .bme, .bridgeCtl, .bridgeD3, .cbsAt, .cbsCr, .coalDue, .coalOn, .crAdv,
      .crInit, .crUsed, .elogSeq, .eqTimeouts, .faceEpoch, .fetchAt, .fetchN, .fetchTag, .ideGo, .ideKey, .injAlign, .linkDis,
      .lockDest, .lsSeen, .meDef, .memWin, .mkDue, .mkRx, .mkTx, .mse, .msixAddr, .msixData, .msixEnable, .msixFnMask, .msixOpen,
      .msixPend, .nakSent, .nextKey, .ownReq, .paramGot, .paramVal, .partnerAspm, .partnerMax, .partnerReady, .partnerRest,
      .pcieAcked, .pcieRev, .pcieSent, .peerReq, .pktId, .pmeOff, .polAt, .polC, .polP, .postStat, .preStat, .prefBase,
      .prefLimit, .prefWin, .presBar, .presBarSet, .presBase, .presCmd, .presInfo, .presRom, .presetStat, .priBus, .ptmCount,
      .ptmEnable, .redAvg, .rehome, .rekeying, .replayAt, .restHeld, .restPend, .restSince, .rxKey, .rxNum, .rxRest, .rxSeq,
      .rxUnacked, .seBar, .seBusMaster, .seMps, .seMrrs, .seMse, .sePasid, .seTags, .secBus, .sizing, .skewCnt, .slotCtl,
      .slotStat, .stipCnt, .stipSeq, .stopWaits, .subBus, .tagEp, .txCount, .txKey, .txLimit, .txNum, .txSeq, .txUsed, .uspMps,
      .wcDone, .wcFrom, .wcId, .wcOldWidth, .wcSet, .widening, .win], fifos := [.cplFifo, .elog, .faceWrote, .flushTodo, .missLog,
      .ringWrote, .viWrote], parts := [.buf, .descs, .free, .greqs, .out, .prefs, .replay, .slots, .streams, .waiting] }

theorem faceReset_in {F : Foot} (hF : Foot.faceReset.le F = true) (f : Nat) :
    (faceReset f).In F := by
  unfold faceReset
  repeat' first
      | (with_reducible first | exact all_nil_in | refine all_cons_in ?_ ?_ | refine look_in fun _ => ?_ | refine when_in ?_ | refine ite_in ?_ ?_ | refine forEach_in fun _ => ?_)
      | ((with_reducible refine modIv_in ?_); (· exact le_vars hF (by decide +kernel)))
      | ((with_reducible refine wr_in ?_ ?_); (· first | exact hdr_mem rfl (by decide +kernel) | exact own_mem (show _ ∈ tabFACE by decide +kernel)); (· first | exact le_regs hF (show (Fam.face, _) ∈ _ by decide +kernel)))
      | ((with_reducible refine resetPage_in ?_); (· first | exact fun f m hk => le_regs (x := (Fam.face, f)) hF ((show ∀ f ∈ (tabHDR ++ tabFACE), f.kept.testBit (Rst.bit .face) = false → (Fam.face, f) ∈ Foot.faceReset.regs by decide +kernel) f m hk)))
      | ((with_reducible refine abandon_in ?_ ..); (· exact Foot.le_trans (Foot.le_of_runs (by decide +kernel)) hF))
      | ((with_reducible refine faceUnlocks_in ?_ ..); (· exact Foot.le_trans (Foot.le_of_runs (by decide +kernel)) hF))
      | ((with_reducible refine instReset_in ?_ ..); (· exact Foot.le_trans (Foot.le_of_runs (by decide +kernel)) hF))
      | ((with_reducible refine keepSoftReset_in ?_ _ _ (?_)); (· exact Foot.le_trans (Foot.le_of_runs (by decide +kernel)) hF); skip)
      | ((with_reducible refine linkDown_in ?_ ..); (· exact Foot.le_trans (Foot.le_of_runs (by decide +kernel)) hF))
      | ((with_reducible refine prefDiscard_in ?_ ..); (· exact Foot.le_trans (Foot.le_of_runs (by decide +kernel)) hF))
      | ((with_reducible refine presEval_in ?_ ..); (· exact Foot.le_trans (Foot.le_of_runs (by decide +kernel)) hF))
      | ((with_reducible refine resetPage_in ?_ ..); (· exact Foot.le_trans (Foot.le_of_runs (by decide +kernel)) hF))
      | ((with_reducible refine ringEnds_in ?_ ..); (· exact Foot.le_trans (Foot.le_of_runs (by decide +kernel)) hF))
      | ((with_reducible refine seReset_in ?_ ..); (· exact Foot.le_trans (Foot.le_of_runs (by decide +kernel)) hF))
      | ((with_reducible refine semsOf_in ?_ ..); (· exact Foot.le_trans (Foot.le_of_runs (by decide +kernel)) hF))
      | ((with_reducible refine viewReset_in ?_ ..); (· exact Foot.le_trans (Foot.le_of_runs (by decide +kernel)) hF))
      | ((with_reducible refine winRestore_in ?_ ..); (· exact Foot.le_trans (Foot.le_of_runs (by decide +kernel)) hF))
      | split
      | dsimp only

end Sys2Proof.Machine
end

