-- ==== Sys2Proof/Laws/FrameGuard.lean ====
section
/-! SUPPORT. What each update of Machine/Guard.lean may touch. -/

namespace Sys2Proof.Machine

set_option Elab.async false
set_option linter.unusedTactic false
set_option linter.unreachableTactic false

def gdsLane : List Fld := [.GDS_LANE_HOLD, .GDS_LANE_STATE, .GDS_LANE_CLASS, .GDS_LANE_WINDOW, .GDS_LANE_BY_SW, .GDS_LANE_MERGED]

def Foot.wgds : Foot :=
  { regs := onFam .guard [.GDS_DEVICE_BY_SW, .GDS_DEVICE_CLASS, .GDS_DEVICE_HOLD, .GDS_DEVICE_MERGED, .GDS_DEVICE_STATE,
      .GDS_DEVICE_WINDOW, .GDS_FACE_BY_SW, .GDS_FACE_CLASS, .GDS_FACE_HOLD, .GDS_FACE_MERGED, .GDS_FACE_STATE, .GDS_FACE_WINDOW,
      .GDS_INST_BY_SW, .GDS_INST_CLASS, .GDS_INST_HOLD, .GDS_INST_MERGED, .GDS_INST_STATE, .GDS_INST_WINDOW, .GDS_LANE_BY_SW,
      .GDS_LANE_CLASS, .GDS_LANE_HOLD, .GDS_LANE_MERGED, .GDS_LANE_STATE, .GDS_LANE_WINDOW, .GDS_LINK_BY_SW, .GDS_LINK_CLASS,
      .GDS_LINK_HOLD, .GDS_LINK_MERGED, .GDS_LINK_STATE, .GDS_LINK_WINDOW, .GDS_PORT_BY_SW, .GDS_PORT_CLASS, .GDS_PORT_HOLD,
      .GDS_PORT_MERGED, .GDS_PORT_STATE, .GDS_PORT_WINDOW] }

theorem wgds_in {F : Foot} (hF : Foot.wgds.le F = true) (d : Dom) {f : Fld} (hf : f ∈ gdsLane) (v : Nat) : (wgds d f v).In F := by
  unfold wgds
  refine wr_in (own_mem (show gdsFld d f ∈ tabGUARD1 from ?_)) (le_regs hF (show (Fam.guard, gdsFld d f) ∈ Foot.wgds.regs from ?_))
  all_goals
    revert f
    cases d <;> simp only [gdsFld, domOff, domCount] <;> decide +kernel

def Foot.sendGuard : Foot :=
  { regs := onFam .guard (errFields ++ fCnt ++ [.GUARD_ELOG_CTRL_LOST]) ++ onFam .core (fCnt ++ [.CORE_WM_STAT_WM_CROSS_CNT,
      .CORE_WM_STAT_WM_EVENT, .CORE_WM_STAT_WM_LEVEL]) ++ onFam .route (errFields ++ fCnt) ++ onFam .bridge (errFields ++ fCnt ++
      [.BRIDGE_LOCK_STAT_HOLDER, .BRIDGE_LOCK_STAT_LOCKED, .BRIDGE_PROOF_WM_STAT_WM_CROSS_CNT, .BRIDGE_PROOF_WM_STAT_WM_EVENT,
      .BRIDGE_PROOF_WM_STAT_WM_LEVEL]) ++ onFam .face fCnt ++ onFam .schedg fCnt, cnts := [.guard, .core, .route, .bridge, .face,
      .schedg], vars := [.cbsAt, .cbsCr, .elogSeq, .msixPend, .pktId, .polAt, .polC, .polP, .redAvg, .stipCnt, .stipSeq], fifos :=
      [.elog, .faceWrote, .missLog, .viWrote], parts := [.buf, .free, .greqs, .out, .streams, .waiting] }

theorem sendGuard_in {F : Foot} (hF : Foot.sendGuard.le F = true) (w plen : Nat) (body : Payload) :
    (sendGuard w plen body).In F := by
  unfold sendGuard
  repeat' first
      | (with_reducible first | refine look_in fun _ => ?_ | refine forSome_in fun _ => ?_)
      | ((with_reducible refine sendInner_in ?_ ..); (· exact Foot.le_trans (Foot.le_of_runs (by decide +kernel)) hF))
      | split
      | dsimp only

def Foot.sendDomainEvent : Foot :=
  { regs := onFam .guard (errFields ++ fCnt ++ [.GUARD_ELOG_CTRL_LOST]) ++ onFam .core (fCnt ++ [.CORE_WM_STAT_WM_CROSS_CNT,
      .CORE_WM_STAT_WM_EVENT, .CORE_WM_STAT_WM_LEVEL]) ++ onFam .route (errFields ++ fCnt) ++ onFam .bridge (errFields ++ fCnt ++
      [.BRIDGE_LOCK_STAT_HOLDER, .BRIDGE_LOCK_STAT_LOCKED, .BRIDGE_PROOF_WM_STAT_WM_CROSS_CNT, .BRIDGE_PROOF_WM_STAT_WM_EVENT,
      .BRIDGE_PROOF_WM_STAT_WM_LEVEL]) ++ onFam .face fCnt ++ onFam .schedg fCnt, cnts := [.guard, .core, .route, .bridge, .face,
      .schedg], vars := [.cbsAt, .cbsCr, .elogSeq, .msixPend, .pktId, .polAt, .polC, .polP, .redAvg, .stipCnt, .stipSeq], fifos :=
      [.elog, .faceWrote, .missLog, .viWrote], parts := [.buf, .free, .greqs, .out, .streams, .waiting] }

theorem sendDomainEvent_in {F : Foot} (hF : Foot.sendDomainEvent.le F = true) (code : Nat) (feids : List Nat) :
    (sendDomainEvent code feids).In F := by
  unfold sendDomainEvent
  repeat' first
      | (with_reducible first | refine look_in fun _ => ?_ | refine forEach_in fun _ => ?_)
      | ((with_reducible refine sendGuard_in ?_ ..); (· exact Foot.le_trans (Foot.le_of_runs (by decide +kernel)) hF))
      | split
      | dsimp only

def Foot.feidLost : Foot :=
  { regs := onFam .face [.FACE_PRES_SHOWN], vars := [.presBar, .presBarSet, .presBase, .presCmd, .presInfo, .presRom, .sizing,
      .slotCtl, .slotStat], parts := [.out] }

theorem feidLost_in {F : Foot} (hF : Foot.feidLost.le F = true) (orderly : Bool) (n : Nat) :
    (feidLost orderly n).In F := by
  unfold feidLost
  repeat' first
      | (with_reducible first | exact all_nil_in | refine all_cons_in ?_ ?_ | refine look_in fun _ => ?_ | refine when_in ?_ | refine forEach_in fun _ => ?_)
      | ((with_reducible refine emit_in ?_); (· exact le_parts hF (by decide +kernel)))
      | ((with_reducible refine presHide_in ?_ ..); (· exact Foot.le_trans (Foot.le_of_runs (by decide +kernel)) hF))
      | split
      | dsimp only

def Foot.feidsBack : Foot :=
  { regs := onFam .guard (errFields ++ fCnt ++ [.GUARD_ELOG_CTRL_LOST]) ++ onFam .face (errFields ++ fCnt ++ [.FACE_BUS_LIMIT_NEED,
      .FACE_BUS_LIMIT_NO_BUS, .FACE_PRES_CONFLICT]), cnts := [.guard, .face], vars := [.elogSeq, .msixPend, .sizing], fifos :=
      [.elog, .faceWrote, .viWrote], parts := [.greqs, .out] }

theorem feidsBack_in {F : Foot} (hF : Foot.feidsBack.le F = true) (feids : List Nat) :
    (feidsBack feids).In F := by
  unfold feidsBack
  repeat' first
      | (with_reducible first | refine look_in fun _ => ?_ | refine forEach_in fun _ => ?_)
      | ((with_reducible refine presEval_in ?_ ..); (· exact Foot.le_trans (Foot.le_of_runs (by decide +kernel)) hF))
      | split
      | dsimp only

def Foot.answerForwarded : Foot :=
  { regs := onFam .sec (errFields ++ fCnt) ++ onFam .guard (errFields ++ fCnt ++ [.GUARD_ELOG_CTRL_LOST]) ++ onFam .core (fCnt ++
      [.CORE_WM_STAT_WM_CROSS_CNT, .CORE_WM_STAT_WM_EVENT, .CORE_WM_STAT_WM_LEVEL]) ++ onFam .route (errFields ++ fCnt) ++ onFam
      .bridge (errFields ++ fCnt ++ [.BRIDGE_LOCK_STAT_HOLDER, .BRIDGE_LOCK_STAT_LOCKED, .BRIDGE_PROOF_WM_STAT_WM_CROSS_CNT,
      .BRIDGE_PROOF_WM_STAT_WM_EVENT, .BRIDGE_PROOF_WM_STAT_WM_LEVEL]) ++ onFam .face (errFields ++ fCnt) ++ onFam .schedg fCnt,
      cnts := [.sec, .guard, .core, .route, .bridge, .face, .schedg], vars := [.cbsAt, .cbsCr, .elogSeq, .lockDest, .msixPend,
      .pcieSent, .pktId, .polAt, .polC, .polP, .redAvg, .stipCnt, .stipSeq, .tagEp], fifos := [.elog, .faceWrote, .missLog,
      .viWrote], parts := [.buf, .free, .fwd, .greqs, .out, .prefs, .slots, .streams, .waiting] }

theorem answerForwarded_in {F : Foot} (hF : Foot.answerForwarded.le F = true) (p : Nat) :
    (answerForwarded p).In F := by
  unfold answerForwarded
  repeat' first
      | (with_reducible first | exact all_nil_in | refine all_cons_in ?_ ?_ | refine look_in fun _ => ?_ | refine forEach_in fun _ => ?_)
      | ((with_reducible refine modFwd_in ?_); (· exact le_parts hF (by decide +kernel)))
      | ((with_reducible refine bump_in ?_ ?_ ..); (· rfl); (· first | exact Foot.le_trans (F := Foot.counting .guard) (by decide +kernel) hF))
      | ((with_reducible refine deliver_in ?_ ..); (· exact Foot.le_trans (Foot.le_of_runs (by decide +kernel)) hF))
      | split
      | dsimp only

def Foot.answerOnLink : Foot :=
  { regs := onFam .guard (errFields ++ fCnt ++ [.GUARD_ELOG_CTRL_LOST]) ++ onFam .core (fCnt ++ [.CORE_WM_STAT_WM_CROSS_CNT,
      .CORE_WM_STAT_WM_EVENT, .CORE_WM_STAT_WM_LEVEL]) ++ onFam .route (errFields ++ fCnt) ++ onFam .bridge (errFields ++ fCnt ++
      [.BRIDGE_LOCK_STAT_HOLDER, .BRIDGE_LOCK_STAT_LOCKED, .BRIDGE_PROOF_WM_STAT_WM_CROSS_CNT, .BRIDGE_PROOF_WM_STAT_WM_EVENT,
      .BRIDGE_PROOF_WM_STAT_WM_LEVEL]) ++ onFam .face (errFields ++ fCnt) ++ onFam .schedg fCnt, cnts := [.guard, .core, .route,
      .bridge, .face, .schedg], vars := [.cbsAt, .cbsCr, .elogSeq, .lockDest, .msixPend, .pcieSent, .pktId, .polAt, .polC, .polP,
      .redAvg, .stipCnt, .stipSeq, .tagEp], fifos := [.elog, .faceWrote, .missLog, .viWrote], parts := [.buf, .free, .greqs, .out,
      .prefs, .slots, .streams, .waiting] }

theorem answerOnLink_in {F : Foot} (hF : Foot.answerOnLink.le F = true) (f : Nat) :
    (answerOnLink f).In F := by
  unfold answerOnLink
  repeat' first
      | (with_reducible first | exact all_nil_in | refine all_cons_in ?_ ?_ | refine look_in fun _ => ?_ | refine forEach_in fun _ => ?_)
      | ((with_reducible refine bump_in ?_ ?_ ..); (· rfl); (· first | exact Foot.le_trans (F := Foot.counting .guard) (by decide +kernel) hF))
      | ((with_reducible refine faceCompletes_in ?_ ..); (· exact Foot.le_trans (Foot.le_of_runs (by decide +kernel)) hF))
      | split
      | dsimp only

def Foot.answerQueued : Foot :=
  { regs := onFam .guard (errFields ++ fCnt ++ [.GUARD_ELOG_CTRL_LOST]) ++ onFam .core (fCnt ++ [.CORE_WM_STAT_WM_CROSS_CNT,
      .CORE_WM_STAT_WM_EVENT, .CORE_WM_STAT_WM_LEVEL]) ++ onFam .route (errFields ++ fCnt) ++ onFam .bridge (errFields ++ fCnt ++
      [.BRIDGE_LOCK_STAT_HOLDER, .BRIDGE_LOCK_STAT_LOCKED, .BRIDGE_PROOF_WM_STAT_WM_CROSS_CNT, .BRIDGE_PROOF_WM_STAT_WM_EVENT,
      .BRIDGE_PROOF_WM_STAT_WM_LEVEL]) ++ onFam .face (errFields ++ fCnt) ++ onFam .schedg fCnt, cnts := [.guard, .core, .route,
      .bridge, .face, .schedg], vars := [.cbsAt, .cbsCr, .elogSeq, .lockDest, .msixPend, .pcieSent, .pktId, .polAt, .polC, .polP,
      .redAvg, .stipCnt, .stipSeq, .tagEp], fifos := [.elog, .faceWrote, .missLog, .viWrote], parts := [.buf, .free, .greqs, .out,
      .prefs, .slots, .streams, .waiting] }

theorem answerQueued_in {F : Foot} (hF : Foot.answerQueued.le F = true) (p : Nat) :
    (answerQueued p).In F := by
  unfold answerQueued
  repeat' first
      | (with_reducible first | exact all_nil_in | refine all_cons_in ?_ ?_ | refine look_in fun _ => ?_ | refine forEach_in fun _ => ?_)
      | ((with_reducible refine bump_in ?_ ?_ ..); (· rfl); (· first | exact Foot.le_trans (F := Foot.counting .guard) (by decide +kernel) hF))
      | ((with_reducible refine answerNp_in ?_ ..); (· exact Foot.le_trans (Foot.le_of_runs (by decide +kernel)) hF))
      | split
      | dsimp only

def Foot.closeOff : Foot :=
  { regs := onFam .sec (errFields ++ fCnt) ++ onFam .guard (errFields ++ fCnt ++ [.GUARD_ELOG_CTRL_LOST]) ++ onFam .core (fCnt ++
      [.CORE_WM_STAT_WM_CROSS_CNT, .CORE_WM_STAT_WM_EVENT, .CORE_WM_STAT_WM_LEVEL]) ++ onFam .route (errFields ++ fCnt) ++ onFam
      .bridge (errFields ++ fCnt ++ [.BRIDGE_LOCK_STAT_HOLDER, .BRIDGE_LOCK_STAT_LOCKED, .BRIDGE_PROOF_WM_STAT_WM_CROSS_CNT,
      .BRIDGE_PROOF_WM_STAT_WM_EVENT, .BRIDGE_PROOF_WM_STAT_WM_LEVEL]) ++ onFam .face (errFields ++ fCnt) ++ onFam .schedg fCnt,
      cnts := [.sec, .guard, .core, .route, .bridge, .face, .schedg], vars := [.cbsAt, .cbsCr, .elogSeq, .lockDest, .msixPend,
      .pcieSent, .pktId, .polAt, .polC, .polP, .redAvg, .stipCnt, .stipSeq, .tagEp], fifos := [.elog, .faceWrote, .missLog,
      .viWrote], parts := [.buf, .free, .fwd, .greqs, .out, .prefs, .slots, .streams, .waiting] }

theorem closeOff_in {F : Foot} (hF : Foot.closeOff.le F = true) (p : Nat) (contained : Bool) :
    (closeOff p contained).In F := by
  unfold closeOff
  repeat' first
      | (with_reducible first | exact all_nil_in | refine all_cons_in ?_ ?_ | refine look_in fun _ => ?_ | refine when_in ?_ | refine forSome_in fun _ => ?_)
      | ((with_reducible refine answerForwarded_in ?_ ..); (· exact Foot.le_trans (Foot.le_of_runs (by decide +kernel)) hF))
      | ((with_reducible refine answerOnLink_in ?_ ..); (· exact Foot.le_trans (Foot.le_of_runs (by decide +kernel)) hF))
      | ((with_reducible refine answerQueued_in ?_ ..); (· exact Foot.le_trans (Foot.le_of_runs (by decide +kernel)) hF))
      | ((with_reducible refine egressDiscard_in ?_ ..); (· exact Foot.le_trans (Foot.le_of_runs (by decide +kernel)) hF))
      | split
      | dsimp only

def Foot.dropHeld : Foot :=
  { regs := onFam .guard (errFields ++ fCnt ++ [.GUARD_ELOG_CTRL_LOST]) ++ onFam .core (fCnt ++ [.CORE_WM_STAT_WM_CROSS_CNT,
      .CORE_WM_STAT_WM_EVENT, .CORE_WM_STAT_WM_LEVEL]) ++ onFam .route (errFields ++ fCnt) ++ onFam .bridge (errFields ++ fCnt ++
      [.BRIDGE_LOCK_STAT_HOLDER, .BRIDGE_LOCK_STAT_LOCKED, .BRIDGE_PROOF_WM_STAT_WM_CROSS_CNT, .BRIDGE_PROOF_WM_STAT_WM_EVENT,
      .BRIDGE_PROOF_WM_STAT_WM_LEVEL]) ++ onFam .face fCnt ++ onFam .schedg fCnt, cnts := [.guard, .core, .route, .bridge, .face,
      .schedg], vars := [.cbsAt, .cbsCr, .elogSeq, .lockDest, .msixPend, .pktId, .polAt, .polC, .polP, .redAvg, .stipCnt,
      .stipSeq], fifos := [.elog, .faceWrote, .missLog, .viWrote], parts := [.buf, .free, .greqs, .out, .prefs, .streams,
      .waiting] }

theorem dropHeld_in {F : Foot} (hF : Foot.dropHeld.le F = true) (d : Dom) :
    (dropHeld d).In F := by
  unfold dropHeld
  repeat' first
      | (with_reducible first | exact skip_in | exact all_nil_in | refine all_cons_in ?_ ?_ | refine look_in fun _ => ?_)
      | ((with_reducible refine faceUnlocks_in ?_ ..); (· exact Foot.le_trans (Foot.le_of_runs (by decide +kernel)) hF))
      | ((with_reducible refine lockClear_in ?_ ..); (· exact Foot.le_trans (Foot.le_of_runs (by decide +kernel)) hF))
      | ((with_reducible refine prefDiscard_in ?_ ..); (· exact Foot.le_trans (Foot.le_of_runs (by decide +kernel)) hF))
      | split
      | dsimp only

def Foot.streamsStop : Foot :=
  { regs := onFam .guard (errFields ++ fCnt ++ [.GUARD_ELOG_CTRL_LOST]) ++ onFam .core (fCnt ++ [.CORE_WM_STAT_WM_CROSS_CNT,
      .CORE_WM_STAT_WM_EVENT, .CORE_WM_STAT_WM_LEVEL]) ++ onFam .route (errFields ++ fCnt) ++ onFam .bridge (errFields ++ fCnt ++
      [.BRIDGE_LOCK_STAT_HOLDER, .BRIDGE_LOCK_STAT_LOCKED, .BRIDGE_PROOF_WM_STAT_WM_CROSS_CNT, .BRIDGE_PROOF_WM_STAT_WM_EVENT,
      .BRIDGE_PROOF_WM_STAT_WM_LEVEL]) ++ onFam .face (errFields ++ fCnt) ++ onFam .schedg fCnt, cnts := [.guard, .core, .route,
      .bridge, .face, .schedg], vars := [.cbsAt, .cbsCr, .elogSeq, .lockDest, .msixPend, .pcieSent, .pktId, .polAt, .polC, .polP,
      .redAvg, .stipCnt, .stipSeq, .tagEp], fifos := [.elog, .faceWrote, .missLog, .viWrote], parts := [.buf, .free, .greqs, .out,
      .prefs, .slots, .streams, .waiting] }

theorem streamsStop_in {F : Foot} (hF : Foot.streamsStop.le F = true) (w : Nat) :
    (streamsStop w).In F := by
  unfold streamsStop
  repeat' first
      | (with_reducible first | exact all_nil_in | refine all_cons_in ?_ ?_ | refine look_in fun _ => ?_ | refine forEach_in fun _ => ?_)
      | ((with_reducible refine putTx_in ?_); (· exact le_parts hF (by decide +kernel)))
      | ((with_reducible refine answerStream_in ?_ ..); (· exact Foot.le_trans (Foot.le_of_runs (by decide +kernel)) hF))
      | ((with_reducible refine proofWatch_in ?_ ..); (· exact Foot.le_trans (Foot.le_of_runs (by decide +kernel)) hF))
      | split
      | dsimp only

def Foot.actOn : Foot :=
  { regs := onFam .sec (errFields ++ fCnt ++ [.SEC_IDE_STAT_DEV_AUTH, .SEC_IDE_STAT_LINK_ID, .SEC_IDE_STAT_LINK_KSET,
      .SEC_IDE_STAT_LINK_SECURE, .SEC_IDE_STAT_SEL_SECURE, .SEC_IDE_STAT_SEL_VALID, .SEC_LINK_STAT_AUTH_OK,
      .SEC_LINK_STAT_AUTH_STATUS, .SEC_LINK_STAT_PARTNER_DEBUG, .SEC_LINK_STAT_REKEY, .SEC_LINK_STAT_REKEYS]) ++ onFam .guard
      (errFields ++ fCnt ++ [.GUARD_ELOG_CTRL_LOST]) ++ onFam .lane [.LANE_INJ_CTRL_ONE_SHOT, .LANE_RATE_CFG_RATE_NOW,
      .LANE_REST_CTRL_IN_REST, .LANE_STAT_ALIGN_LOCK, .LANE_STAT_CDR_LOCK, .LANE_STAT_EQ_DONE, .LANE_STAT_EQ_FAIL,
      .LANE_STAT_EXIT_FAIL, .LANE_STAT_FAILED, .LANE_STAT_FEC_LOCK, .LANE_STAT_RX_READY, .LANE_STAT_STATE, .LANE_TX_TAPS_C0,
      .LANE_TX_TAPS_POST, .LANE_TX_TAPS_PRE] ++ onFam .core (errFields ++ fCnt ++ [.CORE_WM_STAT_WM_CROSS_CNT,
      .CORE_WM_STAT_WM_EVENT, .CORE_WM_STAT_WM_LEVEL]) ++ onFam .route (errFields ++ fCnt) ++ onFam .bridge (errFields ++ fCnt ++
      [.BRIDGE_FAB_NBR_PARTNER_PORT, .BRIDGE_FAB_NBR_PARTNER_SW, .BRIDGE_FAB_NBR_VALID, .BRIDGE_LOCK_STAT_HOLDER,
      .BRIDGE_LOCK_STAT_LOCKED, .BRIDGE_PROOF_WM_STAT_WM_CROSS_CNT, .BRIDGE_PROOF_WM_STAT_WM_EVENT,
      .BRIDGE_PROOF_WM_STAT_WM_LEVEL]) ++ onFam .port (errFields ++ [.PORT_LINK_STAT_ENC, .PORT_LINK_STAT_FLIT,
      .PORT_LINK_STAT_KEY_PHASE, .PORT_LINK_STAT_LANES_GOOD, .PORT_LINK_STAT_RATE_NOW, .PORT_LINK_STAT_STATE,
      .PORT_LINK_STAT_WIDTH_NOW, .PORT_REPLAY_CNT_CONSEC]) ++ onFam .face (errFields ++ fCnt ++ [.FACE_BIND_STATE,
      .FACE_PM_STAT_LINK_PM]) ++ onFam .schedg fCnt ++ onFam .inst [.INST_STAT_FENCED, .INST_STAT_FLUSH_TO, .INST_STAT_RESETTING,
      .INST_STAT_TDI] ++ onFam .moverg errFields ++ onFam .eng fCnt ++ onFam .ring [.MOVER_RING_STAT_STATE], cnts := [.sec,
      .guard, .core, .route, .bridge, .face, .schedg, .eng], vars := [.alignMiss, .alignSeen, .authDebug, .authStep, .badCw,
      .cbsAt, .cbsCr, .crAdv, .crInit, .crUsed, .elogSeq, .eqTimeouts, .fetchN, .fetchTag, .guardPartner, .ideGo, .ideKey,
      .injAlign, .lockDest, .lsSeen, .mkDue, .mkRx, .mkTx, .msixPend, .nakSent, .nextKey, .ownReq, .paramGot, .paramVal,
      .partnerAspm, .partnerMax, .partnerReady, .partnerRest, .pcieAcked, .pcieRev, .pcieSent, .peerReq, .pktId, .polAt, .polC,
      .polP, .portFenced, .postStat, .preStat, .presetStat, .redAvg, .rekeying, .replayAt, .restHeld, .restPend, .restSince,
      .rxKey, .rxNum, .rxRest, .rxSeq, .rxUnacked, .skewCnt, .stipCnt, .stipSeq, .stopWaits, .tagEp, .txCount, .txKey, .txLimit,
      .txNum, .txSeq, .txUsed, .wcCount, .wcDone, .wcFrom, .wcId, .wcOldWidth, .wcSet, .widening], fifos := [.elog, .faceWrote,
      .flushTodo, .missLog, .viWrote], parts := [.buf, .coders, .descs, .free, .fwd, .greqs, .out, .prefs, .replay, .slots,
      .streams, .waiting] }

theorem actOn_in {F : Foot} (hF : Foot.actOn.le F = true) (d : Dom) :
    (actOn d).In F := by
  unfold actOn
  repeat' first
      | (with_reducible first | exact skip_in | exact all_nil_in | refine all_cons_in ?_ ?_ | refine look_in fun _ => ?_ | refine when_in ?_ | refine ite_in ?_ ?_ | refine forSome_in fun _ => ?_)
      | ((with_reducible refine put_in ?_); (· exact le_vars hF (by decide +kernel)))
      | ((with_reducible refine emit_in ?_); (· exact le_parts hF (by decide +kernel)))
      | ((with_reducible refine closeOff_in ?_ ..); (· exact Foot.le_trans (Foot.le_of_runs (by decide +kernel)) hF))
      | ((with_reducible refine instReset_in ?_ ..); (· exact Foot.le_trans (Foot.le_of_runs (by decide +kernel)) hF))
      | ((with_reducible refine laneOff_in ?_ ..); (· exact Foot.le_trans (Foot.le_of_runs (by decide +kernel)) hF))
      | ((with_reducible refine linkTo_in ?_ ..); (· exact Foot.le_trans (Foot.le_of_runs (by decide +kernel)) hF))
      | ((with_reducible refine narrowPort_in ?_ ..); (· exact Foot.le_trans (Foot.le_of_runs (by decide +kernel)) hF))
      | ((with_reducible refine streamsStop_in ?_ ..); (· exact Foot.le_trans (Foot.le_of_runs (by decide +kernel)) hF))
      | split
      | dsimp only

def Foot.enterState : Foot :=
  { regs := onFam .guard [.GDS_DEVICE_BY_SW, .GDS_DEVICE_CLASS, .GDS_DEVICE_HOLD, .GDS_DEVICE_MERGED, .GDS_DEVICE_STATE,
      .GDS_DEVICE_WINDOW, .GDS_FACE_BY_SW, .GDS_FACE_CLASS, .GDS_FACE_HOLD, .GDS_FACE_MERGED, .GDS_FACE_STATE, .GDS_FACE_WINDOW,
      .GDS_INST_BY_SW, .GDS_INST_CLASS, .GDS_INST_HOLD, .GDS_INST_MERGED, .GDS_INST_STATE, .GDS_INST_WINDOW, .GDS_LANE_BY_SW,
      .GDS_LANE_CLASS, .GDS_LANE_HOLD, .GDS_LANE_MERGED, .GDS_LANE_STATE, .GDS_LANE_WINDOW, .GDS_LINK_BY_SW, .GDS_LINK_CLASS,
      .GDS_LINK_HOLD, .GDS_LINK_MERGED, .GDS_LINK_STATE, .GDS_LINK_WINDOW, .GDS_PORT_BY_SW, .GDS_PORT_CLASS, .GDS_PORT_HOLD,
      .GDS_PORT_MERGED, .GDS_PORT_STATE, .GDS_PORT_WINDOW] }

theorem enterState_in {F : Foot} (hF : Foot.enterState.le F = true) (d : Dom) (st : Nat) (cls : Cls) (bySw window : Bool) :
    (enterState d st cls bySw window).In F := by
  unfold enterState
  repeat' first
      | (with_reducible first | exact all_nil_in | refine all_cons_in ?_ ?_ | refine look_in fun _ => ?_ | refine forEach_in fun _ => ?_)
      | ((with_reducible refine wgds_in ?_ _ ?_ _); (· exact Foot.le_trans (Foot.le_of_runs (by decide +kernel)) hF); (· exact (by decide +kernel)))
      | split
      | dsimp only

def Foot.startRecovery : Foot :=
  { regs := onFam .sec (errFields ++ fCnt ++ [.SEC_IDE_STAT_DEV_AUTH, .SEC_IDE_STAT_LINK_ID, .SEC_IDE_STAT_LINK_KSET,
      .SEC_IDE_STAT_LINK_SECURE, .SEC_IDE_STAT_SEL_SECURE, .SEC_IDE_STAT_SEL_VALID, .SEC_LINK_STAT_AUTH_OK,
      .SEC_LINK_STAT_AUTH_STATUS, .SEC_LINK_STAT_PARTNER_DEBUG, .SEC_LINK_STAT_REKEY, .SEC_LINK_STAT_REKEYS]) ++ onFam .guard
      (errFields ++ fCnt ++ [.GDS_DEVICE_BY_SW, .GDS_DEVICE_CLASS, .GDS_DEVICE_HOLD, .GDS_DEVICE_MERGED, .GDS_DEVICE_STATE,
      .GDS_DEVICE_WINDOW, .GDS_FACE_BY_SW, .GDS_FACE_CLASS, .GDS_FACE_HOLD, .GDS_FACE_MERGED, .GDS_FACE_STATE, .GDS_FACE_WINDOW,
      .GDS_INST_BY_SW, .GDS_INST_CLASS, .GDS_INST_HOLD, .GDS_INST_MERGED, .GDS_INST_STATE, .GDS_INST_WINDOW, .GDS_LANE_BY_SW,
      .GDS_LANE_CLASS, .GDS_LANE_HOLD, .GDS_LANE_MERGED, .GDS_LANE_STATE, .GDS_LANE_WINDOW, .GDS_LINK_BY_SW, .GDS_LINK_CLASS,
      .GDS_LINK_HOLD, .GDS_LINK_MERGED, .GDS_LINK_STATE, .GDS_LINK_WINDOW, .GDS_PORT_BY_SW, .GDS_PORT_CLASS, .GDS_PORT_HOLD,
      .GDS_PORT_MERGED, .GDS_PORT_STATE, .GDS_PORT_WINDOW, .GUARD_ELOG_CTRL_LOST]) ++ onFam .lane [.LANE_INJ_CTRL_ONE_SHOT,
      .LANE_RATE_CFG_RATE_NOW, .LANE_REST_CTRL_IN_REST, .LANE_STAT_ALIGN_LOCK, .LANE_STAT_CDR_LOCK, .LANE_STAT_EQ_DONE,
      .LANE_STAT_EQ_FAIL, .LANE_STAT_EXIT_FAIL, .LANE_STAT_FAILED, .LANE_STAT_FEC_LOCK, .LANE_STAT_RX_READY, .LANE_STAT_STATE,
      .LANE_TX_TAPS_C0, .LANE_TX_TAPS_POST, .LANE_TX_TAPS_PRE] ++ onFam .core (errFields ++ fCnt ++ [.CORE_WM_STAT_WM_CROSS_CNT,
      .CORE_WM_STAT_WM_EVENT, .CORE_WM_STAT_WM_LEVEL]) ++ onFam .route (errFields ++ fCnt) ++ onFam .bridge (errFields ++ fCnt ++
      [.BRIDGE_FAB_NBR_PARTNER_PORT, .BRIDGE_FAB_NBR_PARTNER_SW, .BRIDGE_FAB_NBR_VALID, .BRIDGE_LOCK_STAT_HOLDER,
      .BRIDGE_LOCK_STAT_LOCKED, .BRIDGE_PROOF_WM_STAT_WM_CROSS_CNT, .BRIDGE_PROOF_WM_STAT_WM_EVENT,
      .BRIDGE_PROOF_WM_STAT_WM_LEVEL]) ++ onFam .mbox (fCnt ++ [.MBOX_SEM_PEEK_HELD, .MBOX_SEM_PEEK_OWNER]) ++ onFam .port
      [.BLK_CTRL_QUIESCE, .BLK_STAT_QUIESCED, .PORT_LINK_STAT_ENC, .PORT_LINK_STAT_FLIT, .PORT_LINK_STAT_KEY_PHASE,
      .PORT_LINK_STAT_LANES_GOOD, .PORT_LINK_STAT_RATE_NOW, .PORT_LINK_STAT_STATE, .PORT_LINK_STAT_WIDTH_NOW,
      .PORT_REPLAY_CNT_CONSEC] ++ onFam .face (errFields ++ fCnt ++ [.BLK_CTRL_SOFT_RESET, .CNT_CLR_CLR, .CNT_HI_HIGH,
      .CNT_LO_LOW, .FACE_BIND_STATE, .FACE_BUS_LIMIT_NEED, .FACE_BUS_LIMIT_NO_BUS, .FACE_FLR_STAT_BUSY, .FACE_FLR_STAT_DONE,
      .FACE_FLR_STAT_TIME_US, .FACE_PM_STAT_FWAKE, .FACE_PM_STAT_LINK_PM, .FACE_PM_STAT_PME_EN, .FACE_PM_STAT_PME_STATUS,
      .FACE_PM_STAT_SE_D, .FACE_PM_STAT_USP_D, .FACE_PRES_CONFLICT, .FACE_PRES_SHOWN, .FACE_TAG_CTRL_REQ_WIDTH,
      .FACE_WIN_BASE_ADDR, .FACE_WIN_BASE_ADDR_HI, .FACE_WIN_COMMIT_GO, .FACE_WIN_COMMIT_INDEX, .FACE_WIN_COMMIT_OP,
      .FACE_WIN_COMMIT_STATUS, .FACE_WIN_SIZE_LINK_BAR, .FACE_WIN_SIZE_LINK_EN, .FACE_WIN_SIZE_LINK_PRES, .FACE_WIN_SIZE_LOG2,
      .FACE_WIN_TAB_ACTIVE, .FACE_WIN_TAB_BASE, .FACE_WIN_TAB_BASE_HI, .FACE_WIN_TAB_LINK_BAR, .FACE_WIN_TAB_LINK_EN,
      .FACE_WIN_TAB_LINK_PRES, .FACE_WIN_TAB_LOG2, .FACE_WIN_TAB_VALID, .FACE_WIN_TAB_XLAT, .FACE_WIN_TAB_XLAT_HI,
      .FACE_WIN_XLAT_ADDR, .FACE_WIN_XLAT_ADDR_HI]) ++ onFam .schedg fCnt ++ onFam .inst [.INST_STAT_FENCED, .INST_STAT_FLUSH_TO,
      .INST_STAT_RESETTING, .INST_STAT_TDI] ++ onFam .moverg errFields ++ onFam .eng fCnt ++ onFam .ring [.MOVER_RING_BASE_ADDR,
      .MOVER_RING_BASE_ADDR_HI, .MOVER_RING_CFG_ENABLE, .MOVER_RING_CFG_ENGINE, .MOVER_RING_CFG_KIND, .MOVER_RING_CFG_OWNER,
      .MOVER_RING_CFG_OWN_KIND, .MOVER_RING_CFG_SIZE_LOG2, .MOVER_RING_CFG_STOP_ON_ERR, .MOVER_RING_CPL_BASE_ADDR,
      .MOVER_RING_CPL_BASE_ADDR_HI, .MOVER_RING_CPL_CTRL_COAL_US, .MOVER_RING_CPL_CTRL_IRQ_EN, .MOVER_RING_CPL_CTRL_MODE,
      .MOVER_RING_CPL_CTRL_VECTOR, .MOVER_RING_CPL_FIFO_DW, .MOVER_RING_CPL_HEAD_CPL_HEAD, .MOVER_RING_CPL_TAIL_CPL_TAIL,
      .MOVER_RING_CPL_TAIL_PHASE, .MOVER_RING_HEAD_HEAD, .MOVER_RING_STAT_LAST_INDEX, .MOVER_RING_STAT_LAST_STATUS,
      .MOVER_RING_STAT_RESUME, .MOVER_RING_STAT_STATE, .MOVER_RING_TAIL_TAIL], cnts := [.sec, .guard, .core, .route, .bridge,
      .mbox, .face, .schedg, .eng], vars := [.alignMiss, .alignSeen, .aspm, .authDebug, .authStep, .badCw, .bme, .bridgeCtl,
      .bridgeD3, .cbsAt, .cbsCr, .coalDue, .coalOn, .crAdv, .crInit, .crUsed, .devReset, .elogSeq, .eqTimeouts, .faceEpoch,
      .fetchAt, .fetchN, .fetchTag, .guardBack, .ideGo, .ideKey, .injAlign, .linkDis, .lockDest, .lsSeen, .meDef, .memWin, .mkDue,
      .mkRx, .mkTx, .mse, .msixAddr, .msixData, .msixEnable, .msixFnMask, .msixOpen, .msixPend, .nakSent, .nextKey, .ownReq,
      .paramGot, .paramVal, .partnerAspm, .partnerMax, .partnerReady, .partnerRest, .pcieAcked, .pcieRev, .pcieSent, .peerReq,
      .pktId, .pmeOff, .polAt, .polC, .polP, .postStat, .preStat, .prefBase, .prefLimit, .prefWin, .presBar, .presBarSet,
      .presBase, .presCmd, .presInfo, .presRom, .presetStat, .priBus, .ptmCount, .ptmEnable, .redAvg, .rehome, .rekeying,
      .replayAt, .restHeld, .restPend, .restSince, .rxKey, .rxNum, .rxRest, .rxSeq, .rxUnacked, .seBar, .seBusMaster, .seMps,
      .seMrrs, .seMse, .sePasid, .seTags, .secBus, .sizing, .skewCnt, .slotCtl, .slotStat, .stipCnt, .stipSeq, .stopWaits,
      .subBus, .tagEp, .txCount, .txKey, .txLimit, .txNum, .txSeq, .txUsed, .uspMps, .wcDone, .wcFrom, .wcId, .wcOldWidth, .wcSet,
      .widening, .win], fifos := [.cplFifo, .elog, .faceWrote, .flushTodo, .missLog, .ringWrote, .viWrote], parts := [.buf,
      .descs, .free, .greqs, .out, .prefs, .replay, .slots, .streams, .waiting] }

theorem startRecovery_in {F : Foot} (hF : Foot.startRecovery.le F = true) (d : Dom) :
    (startRecovery d).In F := by
  unfold startRecovery
  repeat' first
      | (with_reducible first | exact skip_in | exact all_nil_in | refine all_cons_in ?_ ?_ | refine look_in fun _ => ?_ | refine when_in ?_ | refine ite_in ?_ ?_ | refine forEach_in fun _ => ?_ | refine forSome_in fun _ => ?_)
      | ((with_reducible refine put_in ?_); (· exact le_vars hF (by decide +kernel)))
      | ((with_reducible refine wr_in ?_ ?_); (· first | exact hdr_mem rfl (by decide +kernel) | exact own_mem (show _ ∈ tabPORT by decide +kernel)); (· first | exact le_regs hF (show (Fam.port, _) ∈ _ by decide +kernel)))
      | ((with_reducible refine faceReset_in ?_ ..); (· exact Foot.le_trans (Foot.le_of_runs (by decide +kernel)) hF))
      | ((with_reducible refine wgds_in ?_ _ ?_ _); (· exact Foot.le_trans (Foot.le_of_runs (by decide +kernel)) hF); (· exact (by decide +kernel)))
      | split
      | dsimp only

def Foot.containNow : Foot :=
  { regs := onFam .sec (errFields ++ fCnt ++ [.SEC_IDE_STAT_DEV_AUTH, .SEC_IDE_STAT_LINK_ID, .SEC_IDE_STAT_LINK_KSET,
      .SEC_IDE_STAT_LINK_SECURE, .SEC_IDE_STAT_SEL_SECURE, .SEC_IDE_STAT_SEL_VALID, .SEC_LINK_STAT_AUTH_OK,
      .SEC_LINK_STAT_AUTH_STATUS, .SEC_LINK_STAT_PARTNER_DEBUG, .SEC_LINK_STAT_REKEY, .SEC_LINK_STAT_REKEYS]) ++ onFam .guard
      (errFields ++ fCnt ++ [.GDS_DEVICE_BY_SW, .GDS_DEVICE_CLASS, .GDS_DEVICE_HOLD, .GDS_DEVICE_MERGED, .GDS_DEVICE_STATE,
      .GDS_DEVICE_WINDOW, .GDS_FACE_BY_SW, .GDS_FACE_CLASS, .GDS_FACE_HOLD, .GDS_FACE_MERGED, .GDS_FACE_STATE, .GDS_FACE_WINDOW,
      .GDS_INST_BY_SW, .GDS_INST_CLASS, .GDS_INST_HOLD, .GDS_INST_MERGED, .GDS_INST_STATE, .GDS_INST_WINDOW, .GDS_LANE_BY_SW,
      .GDS_LANE_CLASS, .GDS_LANE_HOLD, .GDS_LANE_MERGED, .GDS_LANE_STATE, .GDS_LANE_WINDOW, .GDS_LINK_BY_SW, .GDS_LINK_CLASS,
      .GDS_LINK_HOLD, .GDS_LINK_MERGED, .GDS_LINK_STATE, .GDS_LINK_WINDOW, .GDS_PORT_BY_SW, .GDS_PORT_CLASS, .GDS_PORT_HOLD,
      .GDS_PORT_MERGED, .GDS_PORT_STATE, .GDS_PORT_WINDOW, .GUARD_ELOG_CTRL_LOST]) ++ onFam .lane [.LANE_INJ_CTRL_ONE_SHOT,
      .LANE_RATE_CFG_RATE_NOW, .LANE_REST_CTRL_IN_REST, .LANE_STAT_ALIGN_LOCK, .LANE_STAT_CDR_LOCK, .LANE_STAT_EQ_DONE,
      .LANE_STAT_EQ_FAIL, .LANE_STAT_EXIT_FAIL, .LANE_STAT_FAILED, .LANE_STAT_FEC_LOCK, .LANE_STAT_RX_READY, .LANE_STAT_STATE,
      .LANE_TX_TAPS_C0, .LANE_TX_TAPS_POST, .LANE_TX_TAPS_PRE] ++ onFam .core (errFields ++ fCnt ++ [.CORE_WM_STAT_WM_CROSS_CNT,
      .CORE_WM_STAT_WM_EVENT, .CORE_WM_STAT_WM_LEVEL]) ++ onFam .route (errFields ++ fCnt) ++ onFam .bridge (errFields ++ fCnt ++
      [.BRIDGE_FAB_NBR_PARTNER_PORT, .BRIDGE_FAB_NBR_PARTNER_SW, .BRIDGE_FAB_NBR_VALID, .BRIDGE_LOCK_STAT_HOLDER,
      .BRIDGE_LOCK_STAT_LOCKED, .BRIDGE_PROOF_WM_STAT_WM_CROSS_CNT, .BRIDGE_PROOF_WM_STAT_WM_EVENT,
      .BRIDGE_PROOF_WM_STAT_WM_LEVEL]) ++ onFam .mbox (fCnt ++ [.MBOX_SEM_PEEK_HELD, .MBOX_SEM_PEEK_OWNER]) ++ onFam .port
      (errFields ++ [.BLK_CTRL_QUIESCE, .BLK_STAT_QUIESCED, .PORT_LINK_STAT_ENC, .PORT_LINK_STAT_FLIT, .PORT_LINK_STAT_KEY_PHASE,
      .PORT_LINK_STAT_LANES_GOOD, .PORT_LINK_STAT_RATE_NOW, .PORT_LINK_STAT_STATE, .PORT_LINK_STAT_WIDTH_NOW,
      .PORT_REPLAY_CNT_CONSEC]) ++ onFam .face (errFields ++ fCnt ++ [.BLK_CTRL_SOFT_RESET, .CNT_CLR_CLR, .CNT_HI_HIGH,
      .CNT_LO_LOW, .FACE_BIND_STATE, .FACE_BUS_LIMIT_NEED, .FACE_BUS_LIMIT_NO_BUS, .FACE_FLR_STAT_BUSY, .FACE_FLR_STAT_DONE,
      .FACE_FLR_STAT_TIME_US, .FACE_PM_STAT_FWAKE, .FACE_PM_STAT_LINK_PM, .FACE_PM_STAT_PME_EN, .FACE_PM_STAT_PME_STATUS,
      .FACE_PM_STAT_SE_D, .FACE_PM_STAT_USP_D, .FACE_PRES_CONFLICT, .FACE_PRES_SHOWN, .FACE_TAG_CTRL_REQ_WIDTH,
      .FACE_WIN_BASE_ADDR, .FACE_WIN_BASE_ADDR_HI, .FACE_WIN_COMMIT_GO, .FACE_WIN_COMMIT_INDEX, .FACE_WIN_COMMIT_OP,
      .FACE_WIN_COMMIT_STATUS, .FACE_WIN_SIZE_LINK_BAR, .FACE_WIN_SIZE_LINK_EN, .FACE_WIN_SIZE_LINK_PRES, .FACE_WIN_SIZE_LOG2,
      .FACE_WIN_TAB_ACTIVE, .FACE_WIN_TAB_BASE, .FACE_WIN_TAB_BASE_HI, .FACE_WIN_TAB_LINK_BAR, .FACE_WIN_TAB_LINK_EN,
      .FACE_WIN_TAB_LINK_PRES, .FACE_WIN_TAB_LOG2, .FACE_WIN_TAB_VALID, .FACE_WIN_TAB_XLAT, .FACE_WIN_TAB_XLAT_HI,
      .FACE_WIN_XLAT_ADDR, .FACE_WIN_XLAT_ADDR_HI]) ++ onFam .schedg fCnt ++ onFam .inst [.INST_STAT_FENCED, .INST_STAT_FLUSH_TO,
      .INST_STAT_RESETTING, .INST_STAT_TDI] ++ onFam .moverg errFields ++ onFam .eng fCnt ++ onFam .ring [.MOVER_RING_BASE_ADDR,
      .MOVER_RING_BASE_ADDR_HI, .MOVER_RING_CFG_ENABLE, .MOVER_RING_CFG_ENGINE, .MOVER_RING_CFG_KIND, .MOVER_RING_CFG_OWNER,
      .MOVER_RING_CFG_OWN_KIND, .MOVER_RING_CFG_SIZE_LOG2, .MOVER_RING_CFG_STOP_ON_ERR, .MOVER_RING_CPL_BASE_ADDR,
      .MOVER_RING_CPL_BASE_ADDR_HI, .MOVER_RING_CPL_CTRL_COAL_US, .MOVER_RING_CPL_CTRL_IRQ_EN, .MOVER_RING_CPL_CTRL_MODE,
      .MOVER_RING_CPL_CTRL_VECTOR, .MOVER_RING_CPL_FIFO_DW, .MOVER_RING_CPL_HEAD_CPL_HEAD, .MOVER_RING_CPL_TAIL_CPL_TAIL,
      .MOVER_RING_CPL_TAIL_PHASE, .MOVER_RING_HEAD_HEAD, .MOVER_RING_STAT_LAST_INDEX, .MOVER_RING_STAT_LAST_STATUS,
      .MOVER_RING_STAT_RESUME, .MOVER_RING_STAT_STATE, .MOVER_RING_TAIL_TAIL], cnts := [.sec, .guard, .core, .route, .bridge,
      .mbox, .face, .schedg, .eng], vars := [.alignMiss, .alignSeen, .aspm, .authDebug, .authStep, .badCw, .bme, .bridgeCtl,
      .bridgeD3, .cbsAt, .cbsCr, .coalDue, .coalOn, .crAdv, .crInit, .crUsed, .devReset, .elogSeq, .eqTimeouts, .faceEpoch,
      .fetchAt, .fetchN, .fetchTag, .guardBack, .guardPartner, .ideGo, .ideKey, .injAlign, .linkDis, .lockDest, .lsSeen, .meDef,
      .memWin, .mkDue, .mkRx, .mkTx, .mse, .msixAddr, .msixData, .msixEnable, .msixFnMask, .msixOpen, .msixPend, .nakSent,
      .nextKey, .ownReq, .paramGot, .paramVal, .partnerAspm, .partnerMax, .partnerReady, .partnerRest, .pcieAcked, .pcieRev,
      .pcieSent, .peerReq, .pktId, .pmeOff, .polAt, .polC, .polP, .portFenced, .postStat, .preStat, .prefBase, .prefLimit,
      .prefWin, .presBar, .presBarSet, .presBase, .presCmd, .presInfo, .presRom, .presetStat, .priBus, .ptmCount, .ptmEnable,
      .redAvg, .rehome, .rekeying, .replayAt, .restHeld, .restPend, .restSince, .rxKey, .rxNum, .rxRest, .rxSeq, .rxUnacked,
      .seBar, .seBusMaster, .seMps, .seMrrs, .seMse, .sePasid, .seTags, .secBus, .sizing, .skewCnt, .slotCtl, .slotStat, .stipCnt,
      .stipSeq, .stopWaits, .subBus, .tagEp, .txCount, .txKey, .txLimit, .txNum, .txSeq, .txUsed, .uspMps, .wcCount, .wcDone,
      .wcFrom, .wcId, .wcOldWidth, .wcSet, .widening, .win], fifos := [.cplFifo, .elog, .faceWrote, .flushTodo, .missLog,
      .ringWrote, .viWrote], parts := [.buf, .coders, .descs, .free, .fwd, .greqs, .out, .prefs, .replay, .slots, .streams,
      .waiting] }

theorem containNow_in {F : Foot} (hF : Foot.containNow.le F = true) (d : Dom) (r : GReq) (bySw : Bool) :
    (containNow d r bySw).In F := by
  unfold containNow
  repeat' first
      | (with_reducible first | exact all_nil_in | refine all_cons_in ?_ ?_ | refine look_in fun _ => ?_ | refine when_in ?_ | refine forEach_in fun _ => ?_)
      | ((with_reducible refine bump_in ?_ ?_ ..); (· rfl); (· first | exact Foot.le_trans (F := Foot.counting .guard) (by decide +kernel) hF))
      | ((with_reducible refine logRec_in ?_ ..); (· exact Foot.le_trans (F := Foot.log) (by decide +kernel) hF))
      | ((with_reducible refine actOn_in ?_ ..); (· exact Foot.le_trans (Foot.le_of_runs (by decide +kernel)) hF))
      | ((with_reducible refine dropHeld_in ?_ ..); (· exact Foot.le_trans (Foot.le_of_runs (by decide +kernel)) hF))
      | ((with_reducible refine enterState_in ?_ ..); (· exact Foot.le_trans (Foot.le_of_runs (by decide +kernel)) hF))
      | ((with_reducible refine feidLost_in ?_ ..); (· exact Foot.le_trans (Foot.le_of_runs (by decide +kernel)) hF))
      | ((with_reducible refine startRecovery_in ?_ ..); (· exact Foot.le_trans (Foot.le_of_runs (by decide +kernel)) hF))
      | split
      | dsimp only

def Foot.containPorts : Foot :=
  { regs := onFam .sec (errFields ++ fCnt) ++ onFam .guard (errFields ++ fCnt ++ [.GDS_DEVICE_BY_SW, .GDS_DEVICE_CLASS,
      .GDS_DEVICE_HOLD, .GDS_DEVICE_MERGED, .GDS_DEVICE_STATE, .GDS_DEVICE_WINDOW, .GDS_FACE_BY_SW, .GDS_FACE_CLASS,
      .GDS_FACE_HOLD, .GDS_FACE_MERGED, .GDS_FACE_STATE, .GDS_FACE_WINDOW, .GDS_INST_BY_SW, .GDS_INST_CLASS, .GDS_INST_HOLD,
      .GDS_INST_MERGED, .GDS_INST_STATE, .GDS_INST_WINDOW, .GDS_LANE_BY_SW, .GDS_LANE_CLASS, .GDS_LANE_HOLD, .GDS_LANE_MERGED,
      .GDS_LANE_STATE, .GDS_LANE_WINDOW, .GDS_LINK_BY_SW, .GDS_LINK_CLASS, .GDS_LINK_HOLD, .GDS_LINK_MERGED, .GDS_LINK_STATE,
      .GDS_LINK_WINDOW, .GDS_PORT_BY_SW, .GDS_PORT_CLASS, .GDS_PORT_HOLD, .GDS_PORT_MERGED, .GDS_PORT_STATE, .GDS_PORT_WINDOW,
      .GUARD_ELOG_CTRL_LOST]) ++ onFam .core (fCnt ++ [.CORE_WM_STAT_WM_CROSS_CNT, .CORE_WM_STAT_WM_EVENT,
      .CORE_WM_STAT_WM_LEVEL]) ++ onFam .route (errFields ++ fCnt) ++ onFam .bridge (errFields ++ fCnt ++
      [.BRIDGE_LOCK_STAT_HOLDER, .BRIDGE_LOCK_STAT_LOCKED, .BRIDGE_PROOF_WM_STAT_WM_CROSS_CNT, .BRIDGE_PROOF_WM_STAT_WM_EVENT,
      .BRIDGE_PROOF_WM_STAT_WM_LEVEL]) ++ onFam .face (errFields ++ fCnt ++ [.FACE_PRES_SHOWN]) ++ onFam .schedg fCnt, cnts :=
      [.sec, .guard, .core, .route, .bridge, .face, .schedg], vars := [.cbsAt, .cbsCr, .elogSeq, .lockDest, .msixPend, .pcieSent,
      .pktId, .polAt, .polC, .polP, .portFenced, .presBar, .presBarSet, .presBase, .presCmd, .presInfo, .presRom, .redAvg,
      .sizing, .slotCtl, .slotStat, .stipCnt, .stipSeq, .tagEp], fifos := [.elog, .faceWrote, .missLog, .viWrote], parts := [.buf,
      .free, .fwd, .greqs, .out, .prefs, .slots, .streams, .waiting] }

theorem containPorts_in {F : Foot} (hF : Foot.containPorts.le F = true) (cls : Cls) :
    (containPorts cls).In F := by
  unfold containPorts
  repeat' first
      | (with_reducible first | exact all_nil_in | refine all_cons_in ?_ ?_ | refine look_in fun _ => ?_ | refine when_in ?_ | refine forEach_in fun _ => ?_ | refine forSome_in fun _ => ?_)
      | ((with_reducible refine put_in ?_); (· exact le_vars hF (by decide +kernel)))
      | ((with_reducible refine emit_in ?_); (· exact le_parts hF (by decide +kernel)))
      | ((with_reducible refine answerForwarded_in ?_ ..); (· exact Foot.le_trans (Foot.le_of_runs (by decide +kernel)) hF))
      | ((with_reducible refine dropHeld_in ?_ ..); (· exact Foot.le_trans (Foot.le_of_runs (by decide +kernel)) hF))
      | ((with_reducible refine egressDiscard_in ?_ ..); (· exact Foot.le_trans (Foot.le_of_runs (by decide +kernel)) hF))
      | ((with_reducible refine enterState_in ?_ ..); (· exact Foot.le_trans (Foot.le_of_runs (by decide +kernel)) hF))
      | ((with_reducible refine feidLost_in ?_ ..); (· exact Foot.le_trans (Foot.le_of_runs (by decide +kernel)) hF))
      | split
      | dsimp only

def Foot.disarmAll : Foot :=
  { regs := onFam .route [.ROUTE_TURN_CTRL_ARM, .ROUTE_TURN_CTRL_STATUS] ++ onFam .sched [.SCHED_HATCH_CTRL_ARM,
      .SCHED_HATCH_STAT_A_STATE, .SCHED_HATCH_STAT_B_STATE], vars := [.hatchAt, .hatchLate, .turnAt] }

theorem disarmAll_in {F : Foot} (hF : Foot.disarmAll.le F = true)  :
    (disarmAll).In F := by
  unfold disarmAll
  repeat' first
      | (with_reducible first | exact all_nil_in | refine all_cons_in ?_ ?_ | refine look_in fun _ => ?_ | refine forEach_in fun _ => ?_)
      | ((with_reducible refine hatchUnpend_in ?_ ..); (· exact Foot.le_trans (Foot.le_of_runs (by decide +kernel)) hF))
      | ((with_reducible refine turnDisarm_in ?_ ..); (· exact Foot.le_trans (Foot.le_of_runs (by decide +kernel)) hF))
      | split
      | dsimp only

def Foot.safeHaltNow : Foot :=
  { regs := onFam .glb [.GLB_DEV_STATE_STATE] ++ onFam .sec (errFields ++ fCnt ++ [.SEC_IDE_STAT_DEV_AUTH, .SEC_IDE_STAT_LINK_ID,
      .SEC_IDE_STAT_LINK_KSET, .SEC_IDE_STAT_LINK_SECURE, .SEC_IDE_STAT_SEL_SECURE, .SEC_IDE_STAT_SEL_VALID,
      .SEC_LINK_STAT_AUTH_OK, .SEC_LINK_STAT_AUTH_STATUS, .SEC_LINK_STAT_PARTNER_DEBUG, .SEC_LINK_STAT_REKEY,
      .SEC_LINK_STAT_REKEYS]) ++ onFam .guard (errFields ++ fCnt ++ [.GDS_DEVICE_BY_SW, .GDS_DEVICE_CLASS, .GDS_DEVICE_HOLD,
      .GDS_DEVICE_MERGED, .GDS_DEVICE_STATE, .GDS_DEVICE_WINDOW, .GDS_FACE_BY_SW, .GDS_FACE_CLASS, .GDS_FACE_HOLD,
      .GDS_FACE_MERGED, .GDS_FACE_STATE, .GDS_FACE_WINDOW, .GDS_INST_BY_SW, .GDS_INST_CLASS, .GDS_INST_HOLD, .GDS_INST_MERGED,
      .GDS_INST_STATE, .GDS_INST_WINDOW, .GDS_LANE_BY_SW, .GDS_LANE_CLASS, .GDS_LANE_HOLD, .GDS_LANE_MERGED, .GDS_LANE_STATE,
      .GDS_LANE_WINDOW, .GDS_LINK_BY_SW, .GDS_LINK_CLASS, .GDS_LINK_HOLD, .GDS_LINK_MERGED, .GDS_LINK_STATE, .GDS_LINK_WINDOW,
      .GDS_PORT_BY_SW, .GDS_PORT_CLASS, .GDS_PORT_HOLD, .GDS_PORT_MERGED, .GDS_PORT_STATE, .GDS_PORT_WINDOW,
      .GUARD_ELOG_CTRL_LOST, .GUARD_HALT_CAUSE_BIT, .GUARD_HALT_CAUSE_BLOCK, .GUARD_HALT_CAUSE_CAUSE, .GUARD_HALT_CAUSE_DINST,
      .GUARD_HALT_CAUSE_VALID]) ++ onFam .lane [.LANE_INJ_CTRL_ONE_SHOT, .LANE_RATE_CFG_RATE_NOW, .LANE_REST_CTRL_IN_REST,
      .LANE_STAT_ALIGN_LOCK, .LANE_STAT_CDR_LOCK, .LANE_STAT_EQ_DONE, .LANE_STAT_EQ_FAIL, .LANE_STAT_EXIT_FAIL, .LANE_STAT_FAILED,
      .LANE_STAT_FEC_LOCK, .LANE_STAT_RX_READY, .LANE_STAT_STATE, .LANE_TX_TAPS_C0, .LANE_TX_TAPS_POST, .LANE_TX_TAPS_PRE] ++
      onFam .core (errFields ++ fCnt ++ [.CORE_WM_STAT_WM_CROSS_CNT, .CORE_WM_STAT_WM_EVENT, .CORE_WM_STAT_WM_LEVEL]) ++ onFam
      .route (errFields ++ fCnt ++ [.ROUTE_TURN_CTRL_ARM, .ROUTE_TURN_CTRL_STATUS]) ++ onFam .bridge (errFields ++ fCnt ++
      [.BRIDGE_FAB_NBR_PARTNER_PORT, .BRIDGE_FAB_NBR_PARTNER_SW, .BRIDGE_FAB_NBR_VALID, .BRIDGE_LOCK_STAT_HOLDER,
      .BRIDGE_LOCK_STAT_LOCKED, .BRIDGE_PROOF_WM_STAT_WM_CROSS_CNT, .BRIDGE_PROOF_WM_STAT_WM_EVENT,
      .BRIDGE_PROOF_WM_STAT_WM_LEVEL]) ++ onFam .port [.PORT_LINK_STAT_ENC, .PORT_LINK_STAT_FLIT, .PORT_LINK_STAT_KEY_PHASE,
      .PORT_LINK_STAT_LANES_GOOD, .PORT_LINK_STAT_RATE_NOW, .PORT_LINK_STAT_STATE, .PORT_LINK_STAT_WIDTH_NOW,
      .PORT_REPLAY_CNT_CONSEC] ++ onFam .face (errFields ++ fCnt ++ [.FACE_BIND_STATE, .FACE_PM_STAT_LINK_PM, .FACE_PRES_SHOWN])
      ++ onFam .schedg fCnt ++ onFam .sched [.SCHED_HATCH_CTRL_ARM, .SCHED_HATCH_STAT_A_STATE, .SCHED_HATCH_STAT_B_STATE], cnts :=
      [.sec, .guard, .core, .route, .bridge, .face, .schedg], vars := [.alignMiss, .alignSeen, .authDebug, .authStep, .badCw,
      .cbsAt, .cbsCr, .crAdv, .crInit, .crUsed, .elogSeq, .eqTimeouts, .haltRel, .hatchAt, .hatchLate, .ideGo, .ideKey, .injAlign,
      .lockDest, .lsSeen, .mkDue, .mkRx, .mkTx, .msixPend, .nakSent, .nextKey, .ownReq, .paramGot, .paramVal, .partnerAspm,
      .partnerMax, .partnerReady, .partnerRest, .pcieAcked, .pcieRev, .pcieSent, .peerReq, .pktId, .polAt, .polC, .polP,
      .portFenced, .postStat, .preStat, .presBar, .presBarSet, .presBase, .presCmd, .presInfo, .presRom, .presetStat, .redAvg,
      .rekeying, .replayAt, .restHeld, .restPend, .restSince, .rxKey, .rxNum, .rxRest, .rxSeq, .rxUnacked, .sizing, .skewCnt,
      .slotCtl, .slotStat, .stipCnt, .stipSeq, .tagEp, .turnAt, .txCount, .txKey, .txLimit, .txNum, .txSeq, .txUsed, .wcDone,
      .wcFrom, .wcId, .wcOldWidth, .wcSet, .widening], fifos := [.elog, .faceWrote, .missLog, .viWrote], parts := [.buf, .free,
      .fwd, .greqs, .out, .prefs, .replay, .slots, .streams, .waiting] }

theorem safeHaltNow_in {F : Foot} (hF : Foot.safeHaltNow.le F = true) (cause block dinst bit : Nat) :
    (safeHaltNow cause block dinst bit).In F := by
  unfold safeHaltNow
  repeat' first
      | (with_reducible first | exact all_nil_in | refine all_cons_in ?_ ?_ | refine look_in fun _ => ?_ | refine when_in ?_ | refine ite_in ?_ ?_ | refine forEach_in fun _ => ?_)
      | ((with_reducible refine put_in ?_); (· exact le_vars hF (by decide +kernel)))
      | ((with_reducible refine wr_in ?_ ?_); (· first | exact hdr_mem rfl (by decide +kernel) | exact own_mem (show _ ∈ tabGLB by decide +kernel) | exact own_mem (show _ ∈ tabGUARD0 by decide +kernel)); (· first | exact le_regs hF (show (Fam.face, _) ∈ _ by decide +kernel) | exact le_regs hF (show (Fam.glb, _) ∈ _ by decide +kernel) | exact le_regs hF (show (Fam.guard, _) ∈ _ by decide +kernel)))
      | ((with_reducible refine bump_in ?_ ?_ ..); (· rfl); (· first | exact Foot.le_trans (F := Foot.counting .guard) (by decide +kernel) hF))
      | ((with_reducible refine logRec_in ?_ ..); (· exact Foot.le_trans (F := Foot.log) (by decide +kernel) hF))
      | ((with_reducible refine containPorts_in ?_ ..); (· exact Foot.le_trans (Foot.le_of_runs (by decide +kernel)) hF))
      | ((with_reducible refine disarmAll_in ?_ ..); (· exact Foot.le_trans (Foot.le_of_runs (by decide +kernel)) hF))
      | ((with_reducible refine linkTo_in ?_ ..); (· exact Foot.le_trans (Foot.le_of_runs (by decide +kernel)) hF))
      | split
      | dsimp only

def Foot.powerQuiesce : Foot :=
  { regs := onFam .guard (errFields ++ fCnt ++ [.GDS_DEVICE_BY_SW, .GDS_DEVICE_CLASS, .GDS_DEVICE_HOLD, .GDS_DEVICE_MERGED,
      .GDS_DEVICE_STATE, .GDS_DEVICE_WINDOW, .GDS_FACE_BY_SW, .GDS_FACE_CLASS, .GDS_FACE_HOLD, .GDS_FACE_MERGED, .GDS_FACE_STATE,
      .GDS_FACE_WINDOW, .GDS_INST_BY_SW, .GDS_INST_CLASS, .GDS_INST_HOLD, .GDS_INST_MERGED, .GDS_INST_STATE, .GDS_INST_WINDOW,
      .GDS_LANE_BY_SW, .GDS_LANE_CLASS, .GDS_LANE_HOLD, .GDS_LANE_MERGED, .GDS_LANE_STATE, .GDS_LANE_WINDOW, .GDS_LINK_BY_SW,
      .GDS_LINK_CLASS, .GDS_LINK_HOLD, .GDS_LINK_MERGED, .GDS_LINK_STATE, .GDS_LINK_WINDOW, .GDS_PORT_BY_SW, .GDS_PORT_CLASS,
      .GDS_PORT_HOLD, .GDS_PORT_MERGED, .GDS_PORT_STATE, .GDS_PORT_WINDOW, .GUARD_ELOG_CTRL_LOST]) ++ onFam .port
      [.BLK_CTRL_QUIESCE] ++ onFam .face (fCnt ++ [.FACE_PRES_SHOWN]), cnts := [.guard, .face], vars := [.elogSeq, .msixPend,
      .presBar, .presBarSet, .presBase, .presCmd, .presInfo, .presRom, .sizing, .slotCtl, .slotStat], fifos := [.elog, .faceWrote,
      .viWrote], parts := [.greqs, .out] }

theorem powerQuiesce_in {F : Foot} (hF : Foot.powerQuiesce.le F = true) (p : Nat) (r : GReq) :
    (powerQuiesce p r).In F := by
  unfold powerQuiesce
  repeat' first
      | (with_reducible first | exact all_nil_in | refine all_cons_in ?_ ?_ | refine look_in fun _ => ?_ | refine ite_in ?_ ?_ | refine forEach_in fun _ => ?_)
      | ((with_reducible refine wr_in ?_ ?_); (· first | exact hdr_mem rfl (by decide +kernel) | exact own_mem (show _ ∈ tabGUARD0 by decide +kernel)); (· first | exact le_regs hF (show (Fam.face, _) ∈ _ by decide +kernel) | exact le_regs hF (show (Fam.guard, _) ∈ _ by decide +kernel) | exact le_regs hF (show (Fam.port, _) ∈ _ by decide +kernel)))
      | ((with_reducible refine bump_in ?_ ?_ ..); (· rfl); (· first | exact Foot.le_trans (F := Foot.counting .guard) (by decide +kernel) hF))
      | ((with_reducible refine logRec_in ?_ ..); (· exact Foot.le_trans (F := Foot.log) (by decide +kernel) hF))
      | ((with_reducible refine feidLost_in ?_ ..); (· exact Foot.le_trans (Foot.le_of_runs (by decide +kernel)) hF))
      | ((with_reducible refine wgds_in ?_ _ ?_ _); (· exact Foot.le_trans (Foot.le_of_runs (by decide +kernel)) hF); (· exact (by decide +kernel)))
      | split
      | dsimp only

def Foot.quiesceEnds : Foot :=
  { regs := onFam .sec (errFields ++ fCnt ++ [.SEC_IDE_STAT_DEV_AUTH, .SEC_IDE_STAT_LINK_ID, .SEC_IDE_STAT_LINK_KSET,
      .SEC_IDE_STAT_LINK_SECURE, .SEC_IDE_STAT_SEL_SECURE, .SEC_IDE_STAT_SEL_VALID, .SEC_LINK_STAT_AUTH_OK,
      .SEC_LINK_STAT_AUTH_STATUS, .SEC_LINK_STAT_PARTNER_DEBUG, .SEC_LINK_STAT_REKEY, .SEC_LINK_STAT_REKEYS]) ++ onFam .guard
      (errFields ++ fCnt ++ [.GUARD_ELOG_CTRL_LOST]) ++ onFam .lane [.LANE_INJ_CTRL_ONE_SHOT, .LANE_RATE_CFG_RATE_NOW,
      .LANE_REST_CTRL_IN_REST, .LANE_STAT_ALIGN_LOCK, .LANE_STAT_CDR_LOCK, .LANE_STAT_EQ_DONE, .LANE_STAT_EQ_FAIL,
      .LANE_STAT_EXIT_FAIL, .LANE_STAT_FAILED, .LANE_STAT_FEC_LOCK, .LANE_STAT_RX_READY, .LANE_STAT_STATE, .LANE_TX_TAPS_C0,
      .LANE_TX_TAPS_POST, .LANE_TX_TAPS_PRE] ++ onFam .core (errFields ++ fCnt ++ [.CORE_WM_STAT_WM_CROSS_CNT,
      .CORE_WM_STAT_WM_EVENT, .CORE_WM_STAT_WM_LEVEL]) ++ onFam .route (errFields ++ fCnt) ++ onFam .bridge (errFields ++ fCnt ++
      [.BRIDGE_FAB_NBR_PARTNER_PORT, .BRIDGE_FAB_NBR_PARTNER_SW, .BRIDGE_FAB_NBR_VALID, .BRIDGE_LOCK_STAT_HOLDER,
      .BRIDGE_LOCK_STAT_LOCKED, .BRIDGE_PROOF_WM_STAT_WM_CROSS_CNT, .BRIDGE_PROOF_WM_STAT_WM_EVENT,
      .BRIDGE_PROOF_WM_STAT_WM_LEVEL]) ++ onFam .port [.PORT_LINK_STAT_ENC, .PORT_LINK_STAT_FLIT, .PORT_LINK_STAT_KEY_PHASE,
      .PORT_LINK_STAT_LANES_GOOD, .PORT_LINK_STAT_RATE_NOW, .PORT_LINK_STAT_STATE, .PORT_LINK_STAT_WIDTH_NOW,
      .PORT_REPLAY_CNT_CONSEC] ++ onFam .face (errFields ++ fCnt ++ [.FACE_BIND_STATE, .FACE_PM_STAT_LINK_PM]) ++ onFam .schedg
      fCnt, cnts := [.sec, .guard, .core, .route, .bridge, .face, .schedg], vars := [.alignMiss, .alignSeen, .authDebug,
      .authStep, .badCw, .cbsAt, .cbsCr, .crAdv, .crInit, .crUsed, .elogSeq, .eqTimeouts, .ideGo, .ideKey, .injAlign, .lockDest,
      .lsSeen, .mkDue, .mkRx, .mkTx, .msixPend, .nakSent, .nextKey, .ownReq, .paramGot, .paramVal, .partnerAspm, .partnerMax,
      .partnerReady, .partnerRest, .pcieAcked, .pcieRev, .pcieSent, .peerReq, .pktId, .polAt, .polC, .polP, .postStat, .preStat,
      .presetStat, .redAvg, .rekeying, .replayAt, .restHeld, .restPend, .restSince, .rxKey, .rxNum, .rxRest, .rxSeq, .rxUnacked,
      .skewCnt, .stipCnt, .stipSeq, .tagEp, .txCount, .txKey, .txLimit, .txNum, .txSeq, .txUsed, .wcDone, .wcFrom, .wcId,
      .wcOldWidth, .wcSet, .widening], fifos := [.elog, .faceWrote, .missLog, .viWrote], parts := [.buf, .free, .fwd, .greqs,
      .out, .prefs, .replay, .slots, .streams, .waiting] }

theorem quiesceEnds_in {F : Foot} (hF : Foot.quiesceEnds.le F = true) (p : Nat) :
    (quiesceEnds p).In F := by
  unfold quiesceEnds
  repeat' first
      | (with_reducible first | exact all_nil_in | refine all_cons_in ?_ ?_ | refine look_in fun _ => ?_ | refine when_in ?_ | refine ite_in ?_ ?_)
      | ((with_reducible refine emit_in ?_); (· exact le_parts hF (by decide +kernel)))
      | ((with_reducible refine wr_in ?_ ?_); (· first | exact own_mem (show _ ∈ tabPORT by decide +kernel)); (· first | exact le_regs hF (show (Fam.port, _) ∈ _ by decide +kernel)))
      | ((with_reducible refine closeOff_in ?_ ..); (· exact Foot.le_trans (Foot.le_of_runs (by decide +kernel)) hF))
      | ((with_reducible refine linkDown_in ?_ ..); (· exact Foot.le_trans (Foot.le_of_runs (by decide +kernel)) hF))
      | ((with_reducible refine linkTo_in ?_ ..); (· exact Foot.le_trans (Foot.le_of_runs (by decide +kernel)) hF))
      | ((with_reducible refine resendAll_in ?_ ..); (· exact Foot.le_trans (Foot.le_of_runs (by decide +kernel)) hF))
      | split
      | dsimp only

def Foot.powerBack : Foot :=
  { regs := onFam .sec (errFields ++ fCnt ++ [.SEC_IDE_STAT_DEV_AUTH, .SEC_IDE_STAT_LINK_ID, .SEC_IDE_STAT_LINK_KSET,
      .SEC_IDE_STAT_LINK_SECURE, .SEC_IDE_STAT_SEL_SECURE, .SEC_IDE_STAT_SEL_VALID, .SEC_LINK_STAT_AUTH_OK,
      .SEC_LINK_STAT_AUTH_STATUS, .SEC_LINK_STAT_PARTNER_DEBUG, .SEC_LINK_STAT_REKEY, .SEC_LINK_STAT_REKEYS]) ++ onFam .guard
      (errFields ++ fCnt ++ [.GDS_DEVICE_BY_SW, .GDS_DEVICE_CLASS, .GDS_DEVICE_HOLD, .GDS_DEVICE_MERGED, .GDS_DEVICE_STATE,
      .GDS_DEVICE_WINDOW, .GDS_FACE_BY_SW, .GDS_FACE_CLASS, .GDS_FACE_HOLD, .GDS_FACE_MERGED, .GDS_FACE_STATE, .GDS_FACE_WINDOW,
      .GDS_INST_BY_SW, .GDS_INST_CLASS, .GDS_INST_HOLD, .GDS_INST_MERGED, .GDS_INST_STATE, .GDS_INST_WINDOW, .GDS_LANE_BY_SW,
      .GDS_LANE_CLASS, .GDS_LANE_HOLD, .GDS_LANE_MERGED, .GDS_LANE_STATE, .GDS_LANE_WINDOW, .GDS_LINK_BY_SW, .GDS_LINK_CLASS,
      .GDS_LINK_HOLD, .GDS_LINK_MERGED, .GDS_LINK_STATE, .GDS_LINK_WINDOW, .GDS_PORT_BY_SW, .GDS_PORT_CLASS, .GDS_PORT_HOLD,
      .GDS_PORT_MERGED, .GDS_PORT_STATE, .GDS_PORT_WINDOW, .GUARD_ELOG_CTRL_LOST]) ++ onFam .lane [.LANE_INJ_CTRL_ONE_SHOT,
      .LANE_RATE_CFG_RATE_NOW, .LANE_REST_CTRL_IN_REST, .LANE_STAT_ALIGN_LOCK, .LANE_STAT_CDR_LOCK, .LANE_STAT_EQ_DONE,
      .LANE_STAT_EQ_FAIL, .LANE_STAT_EXIT_FAIL, .LANE_STAT_FAILED, .LANE_STAT_FEC_LOCK, .LANE_STAT_RX_READY, .LANE_STAT_STATE,
      .LANE_TX_TAPS_C0, .LANE_TX_TAPS_POST, .LANE_TX_TAPS_PRE] ++ onFam .core (errFields ++ fCnt ++ [.CORE_WM_STAT_WM_CROSS_CNT,
      .CORE_WM_STAT_WM_EVENT, .CORE_WM_STAT_WM_LEVEL]) ++ onFam .route (errFields ++ fCnt) ++ onFam .bridge (errFields ++ fCnt ++
      [.BRIDGE_FAB_NBR_PARTNER_PORT, .BRIDGE_FAB_NBR_PARTNER_SW, .BRIDGE_FAB_NBR_VALID, .BRIDGE_LOCK_STAT_HOLDER,
      .BRIDGE_LOCK_STAT_LOCKED, .BRIDGE_PROOF_WM_STAT_WM_CROSS_CNT, .BRIDGE_PROOF_WM_STAT_WM_EVENT,
      .BRIDGE_PROOF_WM_STAT_WM_LEVEL]) ++ onFam .mbox (fCnt ++ [.MBOX_SEM_PEEK_HELD, .MBOX_SEM_PEEK_OWNER]) ++ onFam .port
      [.BLK_CTRL_QUIESCE, .BLK_STAT_QUIESCED, .PORT_LINK_STAT_ENC, .PORT_LINK_STAT_FLIT, .PORT_LINK_STAT_KEY_PHASE,
      .PORT_LINK_STAT_LANES_GOOD, .PORT_LINK_STAT_RATE_NOW, .PORT_LINK_STAT_STATE, .PORT_LINK_STAT_WIDTH_NOW,
      .PORT_REPLAY_CNT_CONSEC] ++ onFam .face (errFields ++ fCnt ++ [.BLK_CTRL_SOFT_RESET, .CNT_CLR_CLR, .CNT_HI_HIGH,
      .CNT_LO_LOW, .FACE_BIND_STATE, .FACE_BUS_LIMIT_NEED, .FACE_BUS_LIMIT_NO_BUS, .FACE_FLR_STAT_BUSY, .FACE_FLR_STAT_DONE,
      .FACE_FLR_STAT_TIME_US, .FACE_PM_STAT_FWAKE, .FACE_PM_STAT_LINK_PM, .FACE_PM_STAT_PME_EN, .FACE_PM_STAT_PME_STATUS,
      .FACE_PM_STAT_SE_D, .FACE_PM_STAT_USP_D, .FACE_PRES_CONFLICT, .FACE_PRES_SHOWN, .FACE_TAG_CTRL_REQ_WIDTH,
      .FACE_WIN_BASE_ADDR, .FACE_WIN_BASE_ADDR_HI, .FACE_WIN_COMMIT_GO, .FACE_WIN_COMMIT_INDEX, .FACE_WIN_COMMIT_OP,
      .FACE_WIN_COMMIT_STATUS, .FACE_WIN_SIZE_LINK_BAR, .FACE_WIN_SIZE_LINK_EN, .FACE_WIN_SIZE_LINK_PRES, .FACE_WIN_SIZE_LOG2,
      .FACE_WIN_TAB_ACTIVE, .FACE_WIN_TAB_BASE, .FACE_WIN_TAB_BASE_HI, .FACE_WIN_TAB_LINK_BAR, .FACE_WIN_TAB_LINK_EN,
      .FACE_WIN_TAB_LINK_PRES, .FACE_WIN_TAB_LOG2, .FACE_WIN_TAB_VALID, .FACE_WIN_TAB_XLAT, .FACE_WIN_TAB_XLAT_HI,
      .FACE_WIN_XLAT_ADDR, .FACE_WIN_XLAT_ADDR_HI]) ++ onFam .schedg fCnt ++ onFam .inst [.INST_STAT_FENCED, .INST_STAT_FLUSH_TO,
      .INST_STAT_RESETTING, .INST_STAT_TDI] ++ onFam .moverg errFields ++ onFam .eng fCnt ++ onFam .ring [.MOVER_RING_BASE_ADDR,
      .MOVER_RING_BASE_ADDR_HI, .MOVER_RING_CFG_ENABLE, .MOVER_RING_CFG_ENGINE, .MOVER_RING_CFG_KIND, .MOVER_RING_CFG_OWNER,
      .MOVER_RING_CFG_OWN_KIND, .MOVER_RING_CFG_SIZE_LOG2, .MOVER_RING_CFG_STOP_ON_ERR, .MOVER_RING_CPL_BASE_ADDR,
      .MOVER_RING_CPL_BASE_ADDR_HI, .MOVER_RING_CPL_CTRL_COAL_US, .MOVER_RING_CPL_CTRL_IRQ_EN, .MOVER_RING_CPL_CTRL_MODE,
      .MOVER_RING_CPL_CTRL_VECTOR, .MOVER_RING_CPL_FIFO_DW, .MOVER_RING_CPL_HEAD_CPL_HEAD, .MOVER_RING_CPL_TAIL_CPL_TAIL,
      .MOVER_RING_CPL_TAIL_PHASE, .MOVER_RING_HEAD_HEAD, .MOVER_RING_STAT_LAST_INDEX, .MOVER_RING_STAT_LAST_STATUS,
      .MOVER_RING_STAT_RESUME, .MOVER_RING_STAT_STATE, .MOVER_RING_TAIL_TAIL], cnts := [.sec, .guard, .core, .route, .bridge,
      .mbox, .face, .schedg, .eng], vars := [.alignMiss, .alignSeen, .aspm, .authDebug, .authStep, .badCw, .bme, .bridgeCtl,
      .bridgeD3, .cbsAt, .cbsCr, .coalDue, .coalOn, .crAdv, .crInit, .crUsed, .devReset, .elogSeq, .eqTimeouts, .faceEpoch,
      .fetchAt, .fetchN, .fetchTag, .guardBack, .ideGo, .ideKey, .injAlign, .linkDis, .lockDest, .lsSeen, .meDef, .memWin, .mkDue,
      .mkRx, .mkTx, .mse, .msixAddr, .msixData, .msixEnable, .msixFnMask, .msixOpen, .msixPend, .nakSent, .nextKey, .ownReq,
      .paramGot, .paramVal, .partnerAspm, .partnerMax, .partnerReady, .partnerRest, .pcieAcked, .pcieRev, .pcieSent, .peerReq,
      .pktId, .pmeOff, .polAt, .polC, .polP, .postStat, .preStat, .prefBase, .prefLimit, .prefWin, .presBar, .presBarSet,
      .presBase, .presCmd, .presInfo, .presRom, .presetStat, .priBus, .ptmCount, .ptmEnable, .redAvg, .rehome, .rekeying,
      .replayAt, .restHeld, .restPend, .restSince, .rxKey, .rxNum, .rxRest, .rxSeq, .rxUnacked, .seBar, .seBusMaster, .seMps,
      .seMrrs, .seMse, .sePasid, .seTags, .secBus, .sizing, .skewCnt, .slotCtl, .slotStat, .stipCnt, .stipSeq, .stopWaits,
      .subBus, .tagEp, .txCount, .txKey, .txLimit, .txNum, .txSeq, .txUsed, .uspMps, .wcDone, .wcFrom, .wcId, .wcOldWidth, .wcSet,
      .widening, .win], fifos := [.cplFifo, .elog, .faceWrote, .flushTodo, .missLog, .ringWrote, .viWrote], parts := [.buf,
      .descs, .free, .fwd, .greqs, .out, .prefs, .replay, .slots, .streams, .waiting] }

theorem powerBack_in {F : Foot} (hF : Foot.powerBack.le F = true) (p : Nat) :
    (powerBack p).In F := by
  unfold powerBack
  repeat' first
      | (with_reducible first | exact all_nil_in | refine all_cons_in ?_ ?_ | refine look_in fun _ => ?_ | refine when_in ?_)
      | ((with_reducible refine quiesceEnds_in ?_ ..); (· exact Foot.le_trans (Foot.le_of_runs (by decide +kernel)) hF))
      | ((with_reducible refine startRecovery_in ?_ ..); (· exact Foot.le_trans (Foot.le_of_runs (by decide +kernel)) hF))
      | split
      | dsimp only

def Foot.mergeInto : Foot :=
  { regs := onFam .guard (errFields ++ fCnt ++ [.GDS_DEVICE_BY_SW, .GDS_DEVICE_CLASS, .GDS_DEVICE_HOLD, .GDS_DEVICE_MERGED,
      .GDS_DEVICE_STATE, .GDS_DEVICE_WINDOW, .GDS_FACE_BY_SW, .GDS_FACE_CLASS, .GDS_FACE_HOLD, .GDS_FACE_MERGED, .GDS_FACE_STATE,
      .GDS_FACE_WINDOW, .GDS_INST_BY_SW, .GDS_INST_CLASS, .GDS_INST_HOLD, .GDS_INST_MERGED, .GDS_INST_STATE, .GDS_INST_WINDOW,
      .GDS_LANE_BY_SW, .GDS_LANE_CLASS, .GDS_LANE_HOLD, .GDS_LANE_MERGED, .GDS_LANE_STATE, .GDS_LANE_WINDOW, .GDS_LINK_BY_SW,
      .GDS_LINK_CLASS, .GDS_LINK_HOLD, .GDS_LINK_MERGED, .GDS_LINK_STATE, .GDS_LINK_WINDOW, .GDS_PORT_BY_SW, .GDS_PORT_CLASS,
      .GDS_PORT_HOLD, .GDS_PORT_MERGED, .GDS_PORT_STATE, .GDS_PORT_WINDOW, .GUARD_ELOG_CTRL_LOST]) ++ onFam .face fCnt, cnts :=
      [.guard, .face], vars := [.elogSeq, .msixPend], fifos := [.elog, .faceWrote, .viWrote], parts := [.greqs, .out] }

theorem mergeInto_in {F : Foot} (hF : Foot.mergeInto.le F = true) (d of_ : Dom) (r : GReq) (raise_ : Bool) :
    (mergeInto d of_ r raise_).In F := by
  unfold mergeInto
  repeat' first
      | (with_reducible first | exact all_nil_in | refine all_cons_in ?_ ?_ | refine look_in fun _ => ?_ | refine when_in ?_ | refine forEach_in fun _ => ?_)
      | ((with_reducible refine bump_in ?_ ?_ ..); (· rfl); (· first | exact Foot.le_trans (F := Foot.counting .guard) (by decide +kernel) hF))
      | ((with_reducible refine logRec_in ?_ ..); (· exact Foot.le_trans (F := Foot.log) (by decide +kernel) hF))
      | ((with_reducible refine wgds_in ?_ _ ?_ _); (· exact Foot.le_trans (Foot.le_of_runs (by decide +kernel)) hF); (· exact (by decide +kernel)))
      | split
      | dsimp only

def Foot.secondFault : Foot :=
  { regs := onFam .glb [.GLB_DEV_STATE_STATE] ++ onFam .sec (errFields ++ fCnt ++ [.SEC_IDE_STAT_DEV_AUTH, .SEC_IDE_STAT_LINK_ID,
      .SEC_IDE_STAT_LINK_KSET, .SEC_IDE_STAT_LINK_SECURE, .SEC_IDE_STAT_SEL_SECURE, .SEC_IDE_STAT_SEL_VALID,
      .SEC_LINK_STAT_AUTH_OK, .SEC_LINK_STAT_AUTH_STATUS, .SEC_LINK_STAT_PARTNER_DEBUG, .SEC_LINK_STAT_REKEY,
      .SEC_LINK_STAT_REKEYS]) ++ onFam .guard (errFields ++ fCnt ++ [.GDS_DEVICE_BY_SW, .GDS_DEVICE_CLASS, .GDS_DEVICE_HOLD,
      .GDS_DEVICE_MERGED, .GDS_DEVICE_STATE, .GDS_DEVICE_WINDOW, .GDS_FACE_BY_SW, .GDS_FACE_CLASS, .GDS_FACE_HOLD,
      .GDS_FACE_MERGED, .GDS_FACE_STATE, .GDS_FACE_WINDOW, .GDS_INST_BY_SW, .GDS_INST_CLASS, .GDS_INST_HOLD, .GDS_INST_MERGED,
      .GDS_INST_STATE, .GDS_INST_WINDOW, .GDS_LANE_BY_SW, .GDS_LANE_CLASS, .GDS_LANE_HOLD, .GDS_LANE_MERGED, .GDS_LANE_STATE,
      .GDS_LANE_WINDOW, .GDS_LINK_BY_SW, .GDS_LINK_CLASS, .GDS_LINK_HOLD, .GDS_LINK_MERGED, .GDS_LINK_STATE, .GDS_LINK_WINDOW,
      .GDS_PORT_BY_SW, .GDS_PORT_CLASS, .GDS_PORT_HOLD, .GDS_PORT_MERGED, .GDS_PORT_STATE, .GDS_PORT_WINDOW,
      .GUARD_ELOG_CTRL_LOST, .GUARD_HALT_CAUSE_BIT, .GUARD_HALT_CAUSE_BLOCK, .GUARD_HALT_CAUSE_CAUSE, .GUARD_HALT_CAUSE_DINST,
      .GUARD_HALT_CAUSE_VALID]) ++ onFam .lane [.LANE_INJ_CTRL_ONE_SHOT, .LANE_RATE_CFG_RATE_NOW, .LANE_REST_CTRL_IN_REST,
      .LANE_STAT_ALIGN_LOCK, .LANE_STAT_CDR_LOCK, .LANE_STAT_EQ_DONE, .LANE_STAT_EQ_FAIL, .LANE_STAT_EXIT_FAIL, .LANE_STAT_FAILED,
      .LANE_STAT_FEC_LOCK, .LANE_STAT_RX_READY, .LANE_STAT_STATE, .LANE_TX_TAPS_C0, .LANE_TX_TAPS_POST, .LANE_TX_TAPS_PRE] ++
      onFam .core (errFields ++ fCnt ++ [.CORE_WM_STAT_WM_CROSS_CNT, .CORE_WM_STAT_WM_EVENT, .CORE_WM_STAT_WM_LEVEL]) ++ onFam
      .route (errFields ++ fCnt ++ [.ROUTE_TURN_CTRL_ARM, .ROUTE_TURN_CTRL_STATUS]) ++ onFam .bridge (errFields ++ fCnt ++
      [.BRIDGE_FAB_NBR_PARTNER_PORT, .BRIDGE_FAB_NBR_PARTNER_SW, .BRIDGE_FAB_NBR_VALID, .BRIDGE_LOCK_STAT_HOLDER,
      .BRIDGE_LOCK_STAT_LOCKED, .BRIDGE_PROOF_WM_STAT_WM_CROSS_CNT, .BRIDGE_PROOF_WM_STAT_WM_EVENT,
      .BRIDGE_PROOF_WM_STAT_WM_LEVEL]) ++ onFam .port [.PORT_LINK_STAT_ENC, .PORT_LINK_STAT_FLIT, .PORT_LINK_STAT_KEY_PHASE,
      .PORT_LINK_STAT_LANES_GOOD, .PORT_LINK_STAT_RATE_NOW, .PORT_LINK_STAT_STATE, .PORT_LINK_STAT_WIDTH_NOW,
      .PORT_REPLAY_CNT_CONSEC] ++ onFam .face (errFields ++ fCnt ++ [.FACE_BIND_STATE, .FACE_PM_STAT_LINK_PM, .FACE_PRES_SHOWN])
      ++ onFam .schedg fCnt ++ onFam .sched [.SCHED_HATCH_CTRL_ARM, .SCHED_HATCH_STAT_A_STATE, .SCHED_HATCH_STAT_B_STATE], cnts :=
      [.sec, .guard, .core, .route, .bridge, .face, .schedg], vars := [.alignMiss, .alignSeen, .authDebug, .authStep, .badCw,
      .cbsAt, .cbsCr, .crAdv, .crInit, .crUsed, .elogSeq, .eqTimeouts, .haltRel, .hatchAt, .hatchLate, .ideGo, .ideKey, .injAlign,
      .lockDest, .lsSeen, .mkDue, .mkRx, .mkTx, .msixPend, .nakSent, .nextKey, .ownReq, .paramGot, .paramVal, .partnerAspm,
      .partnerMax, .partnerReady, .partnerRest, .pcieAcked, .pcieRev, .pcieSent, .peerReq, .pktId, .polAt, .polC, .polP,
      .portFenced, .postStat, .preStat, .presBar, .presBarSet, .presBase, .presCmd, .presInfo, .presRom, .presetStat, .redAvg,
      .rekeying, .replayAt, .restHeld, .restPend, .restSince, .rxKey, .rxNum, .rxRest, .rxSeq, .rxUnacked, .sizing, .skewCnt,
      .slotCtl, .slotStat, .stipCnt, .stipSeq, .tagEp, .turnAt, .txCount, .txKey, .txLimit, .txNum, .txSeq, .txUsed, .wcDone,
      .wcFrom, .wcId, .wcOldWidth, .wcSet, .widening], fifos := [.elog, .faceWrote, .missLog, .viWrote], parts := [.buf, .free,
      .fwd, .greqs, .out, .prefs, .replay, .slots, .streams, .waiting] }

theorem secondFault_in {F : Foot} (hF : Foot.secondFault.le F = true) (d : Dom) (r : GReq) :
    (secondFault d r).In F := by
  unfold secondFault
  repeat' first
      | (with_reducible first | exact all_nil_in | refine all_cons_in ?_ ?_)
      | ((with_reducible refine modGreqs_in ?_); (· exact le_parts hF (by decide +kernel)))
      | ((with_reducible refine raise_in ?_ ?_ ..); (· rfl); (· first | exact Foot.le_trans (F := Foot.error .guard) (by decide +kernel) hF))
      | ((with_reducible refine logRec_in ?_ ..); (· exact Foot.le_trans (F := Foot.log) (by decide +kernel) hF))
      | ((with_reducible refine safeHaltNow_in ?_ ..); (· exact Foot.le_trans (Foot.le_of_runs (by decide +kernel)) hF))
      | split
      | dsimp only

def Foot.containDevice : Foot :=
  { regs := onFam .glb [.GLB_DEV_STATE_STATE] ++ onFam .sec (errFields ++ fCnt ++ [.SEC_IDE_STAT_DEV_AUTH, .SEC_IDE_STAT_LINK_ID,
      .SEC_IDE_STAT_LINK_KSET, .SEC_IDE_STAT_LINK_SECURE, .SEC_IDE_STAT_SEL_SECURE, .SEC_IDE_STAT_SEL_VALID,
      .SEC_LINK_STAT_AUTH_OK, .SEC_LINK_STAT_AUTH_STATUS, .SEC_LINK_STAT_PARTNER_DEBUG, .SEC_LINK_STAT_REKEY,
      .SEC_LINK_STAT_REKEYS]) ++ onFam .guard (errFields ++ fCnt ++ [.GDS_DEVICE_BY_SW, .GDS_DEVICE_CLASS, .GDS_DEVICE_HOLD,
      .GDS_DEVICE_MERGED, .GDS_DEVICE_STATE, .GDS_DEVICE_WINDOW, .GDS_FACE_BY_SW, .GDS_FACE_CLASS, .GDS_FACE_HOLD,
      .GDS_FACE_MERGED, .GDS_FACE_STATE, .GDS_FACE_WINDOW, .GDS_INST_BY_SW, .GDS_INST_CLASS, .GDS_INST_HOLD, .GDS_INST_MERGED,
      .GDS_INST_STATE, .GDS_INST_WINDOW, .GDS_LANE_BY_SW, .GDS_LANE_CLASS, .GDS_LANE_HOLD, .GDS_LANE_MERGED, .GDS_LANE_STATE,
      .GDS_LANE_WINDOW, .GDS_LINK_BY_SW, .GDS_LINK_CLASS, .GDS_LINK_HOLD, .GDS_LINK_MERGED, .GDS_LINK_STATE, .GDS_LINK_WINDOW,
      .GDS_PORT_BY_SW, .GDS_PORT_CLASS, .GDS_PORT_HOLD, .GDS_PORT_MERGED, .GDS_PORT_STATE, .GDS_PORT_WINDOW,
      .GUARD_ELOG_CTRL_LOST, .GUARD_HALT_CAUSE_BIT, .GUARD_HALT_CAUSE_BLOCK, .GUARD_HALT_CAUSE_CAUSE, .GUARD_HALT_CAUSE_DINST,
      .GUARD_HALT_CAUSE_VALID]) ++ onFam .lane [.LANE_INJ_CTRL_ONE_SHOT, .LANE_RATE_CFG_RATE_NOW, .LANE_REST_CTRL_IN_REST,
      .LANE_STAT_ALIGN_LOCK, .LANE_STAT_CDR_LOCK, .LANE_STAT_EQ_DONE, .LANE_STAT_EQ_FAIL, .LANE_STAT_EXIT_FAIL, .LANE_STAT_FAILED,
      .LANE_STAT_FEC_LOCK, .LANE_STAT_RX_READY, .LANE_STAT_STATE, .LANE_TX_TAPS_C0, .LANE_TX_TAPS_POST, .LANE_TX_TAPS_PRE] ++
      onFam .core (errFields ++ fCnt ++ [.CORE_WM_STAT_WM_CROSS_CNT, .CORE_WM_STAT_WM_EVENT, .CORE_WM_STAT_WM_LEVEL]) ++ onFam
      .route (errFields ++ fCnt ++ [.ROUTE_TURN_CTRL_ARM, .ROUTE_TURN_CTRL_STATUS]) ++ onFam .bridge (errFields ++ fCnt ++
      [.BRIDGE_FAB_NBR_PARTNER_PORT, .BRIDGE_FAB_NBR_PARTNER_SW, .BRIDGE_FAB_NBR_VALID, .BRIDGE_LOCK_STAT_HOLDER,
      .BRIDGE_LOCK_STAT_LOCKED, .BRIDGE_PROOF_WM_STAT_WM_CROSS_CNT, .BRIDGE_PROOF_WM_STAT_WM_EVENT,
      .BRIDGE_PROOF_WM_STAT_WM_LEVEL]) ++ onFam .port [.PORT_LINK_STAT_ENC, .PORT_LINK_STAT_FLIT, .PORT_LINK_STAT_KEY_PHASE,
      .PORT_LINK_STAT_LANES_GOOD, .PORT_LINK_STAT_RATE_NOW, .PORT_LINK_STAT_STATE, .PORT_LINK_STAT_WIDTH_NOW,
      .PORT_REPLAY_CNT_CONSEC] ++ onFam .face (errFields ++ fCnt ++ [.FACE_BIND_STATE, .FACE_PM_STAT_LINK_PM, .FACE_PRES_SHOWN])
      ++ onFam .schedg fCnt ++ onFam .sched [.SCHED_HATCH_CTRL_ARM, .SCHED_HATCH_STAT_A_STATE, .SCHED_HATCH_STAT_B_STATE], cnts :=
      [.sec, .guard, .core, .route, .bridge, .face, .schedg], vars := [.alignMiss, .alignSeen, .authDebug, .authStep, .badCw,
      .cbsAt, .cbsCr, .crAdv, .crInit, .crUsed, .devReset, .elogSeq, .eqTimeouts, .haltRel, .hatchAt, .hatchLate, .ideGo, .ideKey,
      .injAlign, .lockDest, .lsSeen, .mkDue, .mkRx, .mkTx, .msixPend, .nakSent, .nextKey, .ownReq, .paramGot, .paramVal,
      .partnerAspm, .partnerMax, .partnerReady, .partnerRest, .pcieAcked, .pcieRev, .pcieSent, .peerReq, .pktId, .polAt, .polC,
      .polP, .portFenced, .postStat, .preStat, .presBar, .presBarSet, .presBase, .presCmd, .presInfo, .presRom, .presetStat,
      .redAvg, .rekeying, .replayAt, .restHeld, .restPend, .restSince, .rxKey, .rxNum, .rxRest, .rxSeq, .rxUnacked, .sizing,
      .skewCnt, .slotCtl, .slotStat, .stipCnt, .stipSeq, .tagEp, .turnAt, .txCount, .txKey, .txLimit, .txNum, .txSeq, .txUsed,
      .wcDone, .wcFrom, .wcId, .wcOldWidth, .wcSet, .widening], fifos := [.elog, .faceWrote, .missLog, .viWrote], parts := [.buf,
      .free, .fwd, .greqs, .out, .prefs, .replay, .slots, .streams, .waiting] }

theorem containDevice_in {F : Foot} (hF : Foot.containDevice.le F = true) (r : GReq) (bySw : Bool) :
    (containDevice r bySw).In F := by
  unfold containDevice
  repeat' first
      | (with_reducible first | exact all_nil_in | refine all_cons_in ?_ ?_ | refine look_in fun _ => ?_ | refine ite_in ?_ ?_ | refine forEach_in fun _ => ?_)
      | ((with_reducible refine put_in ?_); (· exact le_vars hF (by decide +kernel)))
      | ((with_reducible refine bump_in ?_ ?_ ..); (· rfl); (· first | exact Foot.le_trans (F := Foot.counting .guard) (by decide +kernel) hF))
      | ((with_reducible refine logRec_in ?_ ..); (· exact Foot.le_trans (F := Foot.log) (by decide +kernel) hF))
      | ((with_reducible refine containPorts_in ?_ ..); (· exact Foot.le_trans (Foot.le_of_runs (by decide +kernel)) hF))
      | ((with_reducible refine enterState_in ?_ ..); (· exact Foot.le_trans (Foot.le_of_runs (by decide +kernel)) hF))
      | ((with_reducible refine linkTo_in ?_ ..); (· exact Foot.le_trans (Foot.le_of_runs (by decide +kernel)) hF))
      | ((with_reducible refine safeHaltNow_in ?_ ..); (· exact Foot.le_trans (Foot.le_of_runs (by decide +kernel)) hF))
      | split
      | dsimp only

def Foot.handleFor : Foot :=
  { regs := onFam .glb [.GLB_DEV_STATE_STATE] ++ onFam .sec (errFields ++ fCnt ++ [.SEC_IDE_STAT_DEV_AUTH, .SEC_IDE_STAT_LINK_ID,
      .SEC_IDE_STAT_LINK_KSET, .SEC_IDE_STAT_LINK_SECURE, .SEC_IDE_STAT_SEL_SECURE, .SEC_IDE_STAT_SEL_VALID,
      .SEC_LINK_STAT_AUTH_OK, .SEC_LINK_STAT_AUTH_STATUS, .SEC_LINK_STAT_PARTNER_DEBUG, .SEC_LINK_STAT_REKEY,
      .SEC_LINK_STAT_REKEYS]) ++ onFam .guard (errFields ++ fCnt ++ [.GDS_DEVICE_BY_SW, .GDS_DEVICE_CLASS, .GDS_DEVICE_HOLD,
      .GDS_DEVICE_MERGED, .GDS_DEVICE_STATE, .GDS_DEVICE_WINDOW, .GDS_FACE_BY_SW, .GDS_FACE_CLASS, .GDS_FACE_HOLD,
      .GDS_FACE_MERGED, .GDS_FACE_STATE, .GDS_FACE_WINDOW, .GDS_INST_BY_SW, .GDS_INST_CLASS, .GDS_INST_HOLD, .GDS_INST_MERGED,
      .GDS_INST_STATE, .GDS_INST_WINDOW, .GDS_LANE_BY_SW, .GDS_LANE_CLASS, .GDS_LANE_HOLD, .GDS_LANE_MERGED, .GDS_LANE_STATE,
      .GDS_LANE_WINDOW, .GDS_LINK_BY_SW, .GDS_LINK_CLASS, .GDS_LINK_HOLD, .GDS_LINK_MERGED, .GDS_LINK_STATE, .GDS_LINK_WINDOW,
      .GDS_PORT_BY_SW, .GDS_PORT_CLASS, .GDS_PORT_HOLD, .GDS_PORT_MERGED, .GDS_PORT_STATE, .GDS_PORT_WINDOW,
      .GUARD_ELOG_CTRL_LOST, .GUARD_HALT_CAUSE_BIT, .GUARD_HALT_CAUSE_BLOCK, .GUARD_HALT_CAUSE_CAUSE, .GUARD_HALT_CAUSE_DINST,
      .GUARD_HALT_CAUSE_VALID]) ++ onFam .lane [.LANE_INJ_CTRL_ONE_SHOT, .LANE_RATE_CFG_RATE_NOW, .LANE_REST_CTRL_IN_REST,
      .LANE_STAT_ALIGN_LOCK, .LANE_STAT_CDR_LOCK, .LANE_STAT_EQ_DONE, .LANE_STAT_EQ_FAIL, .LANE_STAT_EXIT_FAIL, .LANE_STAT_FAILED,
      .LANE_STAT_FEC_LOCK, .LANE_STAT_RX_READY, .LANE_STAT_STATE, .LANE_TX_TAPS_C0, .LANE_TX_TAPS_POST, .LANE_TX_TAPS_PRE] ++
      onFam .core (errFields ++ fCnt ++ [.CORE_WM_STAT_WM_CROSS_CNT, .CORE_WM_STAT_WM_EVENT, .CORE_WM_STAT_WM_LEVEL]) ++ onFam
      .route (errFields ++ fCnt ++ [.ROUTE_TURN_CTRL_ARM, .ROUTE_TURN_CTRL_STATUS]) ++ onFam .bridge (errFields ++ fCnt ++
      [.BRIDGE_FAB_NBR_PARTNER_PORT, .BRIDGE_FAB_NBR_PARTNER_SW, .BRIDGE_FAB_NBR_VALID, .BRIDGE_LOCK_STAT_HOLDER,
      .BRIDGE_LOCK_STAT_LOCKED, .BRIDGE_PROOF_WM_STAT_WM_CROSS_CNT, .BRIDGE_PROOF_WM_STAT_WM_EVENT,
      .BRIDGE_PROOF_WM_STAT_WM_LEVEL]) ++ onFam .mbox (fCnt ++ [.MBOX_SEM_PEEK_HELD, .MBOX_SEM_PEEK_OWNER]) ++ onFam .port
      (errFields ++ [.BLK_CTRL_QUIESCE, .BLK_STAT_QUIESCED, .PORT_LINK_STAT_ENC, .PORT_LINK_STAT_FLIT, .PORT_LINK_STAT_KEY_PHASE,
      .PORT_LINK_STAT_LANES_GOOD, .PORT_LINK_STAT_RATE_NOW, .PORT_LINK_STAT_STATE, .PORT_LINK_STAT_WIDTH_NOW,
      .PORT_REPLAY_CNT_CONSEC]) ++ onFam .face (errFields ++ fCnt ++ [.BLK_CTRL_SOFT_RESET, .CNT_CLR_CLR, .CNT_HI_HIGH,
      .CNT_LO_LOW, .FACE_BIND_STATE, .FACE_BUS_LIMIT_NEED, .FACE_BUS_LIMIT_NO_BUS, .FACE_FLR_STAT_BUSY, .FACE_FLR_STAT_DONE,
      .FACE_FLR_STAT_TIME_US, .FACE_PM_STAT_FWAKE, .FACE_PM_STAT_LINK_PM, .FACE_PM_STAT_PME_EN, .FACE_PM_STAT_PME_STATUS,
      .FACE_PM_STAT_SE_D, .FACE_PM_STAT_USP_D, .FACE_PRES_CONFLICT, .FACE_PRES_SHOWN, .FACE_TAG_CTRL_REQ_WIDTH,
      .FACE_WIN_BASE_ADDR, .FACE_WIN_BASE_ADDR_HI, .FACE_WIN_COMMIT_GO, .FACE_WIN_COMMIT_INDEX, .FACE_WIN_COMMIT_OP,
      .FACE_WIN_COMMIT_STATUS, .FACE_WIN_SIZE_LINK_BAR, .FACE_WIN_SIZE_LINK_EN, .FACE_WIN_SIZE_LINK_PRES, .FACE_WIN_SIZE_LOG2,
      .FACE_WIN_TAB_ACTIVE, .FACE_WIN_TAB_BASE, .FACE_WIN_TAB_BASE_HI, .FACE_WIN_TAB_LINK_BAR, .FACE_WIN_TAB_LINK_EN,
      .FACE_WIN_TAB_LINK_PRES, .FACE_WIN_TAB_LOG2, .FACE_WIN_TAB_VALID, .FACE_WIN_TAB_XLAT, .FACE_WIN_TAB_XLAT_HI,
      .FACE_WIN_XLAT_ADDR, .FACE_WIN_XLAT_ADDR_HI]) ++ onFam .schedg fCnt ++ onFam .sched [.SCHED_HATCH_CTRL_ARM,
      .SCHED_HATCH_STAT_A_STATE, .SCHED_HATCH_STAT_B_STATE] ++ onFam .inst [.INST_STAT_FENCED, .INST_STAT_FLUSH_TO,
      .INST_STAT_RESETTING, .INST_STAT_TDI] ++ onFam .moverg errFields ++ onFam .eng fCnt ++ onFam .ring [.MOVER_RING_BASE_ADDR,
      .MOVER_RING_BASE_ADDR_HI, .MOVER_RING_CFG_ENABLE, .MOVER_RING_CFG_ENGINE, .MOVER_RING_CFG_KIND, .MOVER_RING_CFG_OWNER,
      .MOVER_RING_CFG_OWN_KIND, .MOVER_RING_CFG_SIZE_LOG2, .MOVER_RING_CFG_STOP_ON_ERR, .MOVER_RING_CPL_BASE_ADDR,
      .MOVER_RING_CPL_BASE_ADDR_HI, .MOVER_RING_CPL_CTRL_COAL_US, .MOVER_RING_CPL_CTRL_IRQ_EN, .MOVER_RING_CPL_CTRL_MODE,
      .MOVER_RING_CPL_CTRL_VECTOR, .MOVER_RING_CPL_FIFO_DW, .MOVER_RING_CPL_HEAD_CPL_HEAD, .MOVER_RING_CPL_TAIL_CPL_TAIL,
      .MOVER_RING_CPL_TAIL_PHASE, .MOVER_RING_HEAD_HEAD, .MOVER_RING_STAT_LAST_INDEX, .MOVER_RING_STAT_LAST_STATUS,
      .MOVER_RING_STAT_RESUME, .MOVER_RING_STAT_STATE, .MOVER_RING_TAIL_TAIL], cnts := [.sec, .guard, .core, .route, .bridge,
      .mbox, .face, .schedg, .eng], vars := [.alignMiss, .alignSeen, .aspm, .authDebug, .authStep, .badCw, .bme, .bridgeCtl,
      .bridgeD3, .cbsAt, .cbsCr, .coalDue, .coalOn, .crAdv, .crInit, .crUsed, .devReset, .elogSeq, .eqTimeouts, .faceEpoch,
      .fetchAt, .fetchN, .fetchTag, .guardBack, .guardPartner, .haltRel, .hatchAt, .hatchLate, .ideGo, .ideKey, .injAlign,
      .linkDis, .lockDest, .lsSeen, .meDef, .memWin, .mkDue, .mkRx, .mkTx, .mse, .msixAddr, .msixData, .msixEnable, .msixFnMask,
      .msixOpen, .msixPend, .nakSent, .nextKey, .ownReq, .paramGot, .paramVal, .partnerAspm, .partnerMax, .partnerReady,
      .partnerRest, .pcieAcked, .pcieRev, .pcieSent, .peerReq, .pktId, .pmeOff, .polAt, .polC, .polP, .portFenced, .postStat,
      .preStat, .prefBase, .prefLimit, .prefWin, .presBar, .presBarSet, .presBase, .presCmd, .presInfo, .presRom, .presetStat,
      .priBus, .ptmCount, .ptmEnable, .redAvg, .rehome, .rekeying, .replayAt, .restHeld, .restPend, .restSince, .rxKey, .rxNum,
      .rxRest, .rxSeq, .rxUnacked, .seBar, .seBusMaster, .seMps, .seMrrs, .seMse, .sePasid, .seTags, .secBus, .sizing, .skewCnt,
      .slotCtl, .slotStat, .stipCnt, .stipSeq, .stopWaits, .subBus, .tagEp, .turnAt, .txCount, .txKey, .txLimit, .txNum, .txSeq,
      .txUsed, .uspMps, .wcCount, .wcDone, .wcFrom, .wcId, .wcOldWidth, .wcSet, .widening, .win], fifos := [.cplFifo, .elog,
      .faceWrote, .flushTodo, .missLog, .ringWrote, .viWrote], parts := [.buf, .coders, .descs, .free, .fwd, .greqs, .out, .prefs,
      .replay, .slots, .streams, .waiting] }

theorem handleFor_in {F : Foot} (hF : Foot.handleFor.le F = true) (d : Dom) (r : GReq) (bySw : Bool) :
    (handleFor d r bySw).In F := by
  unfold handleFor
  repeat' first
      | (with_reducible first | refine look_in fun _ => ?_ | refine ite_in ?_ ?_)
      | ((with_reducible refine containDevice_in ?_ ..); (· exact Foot.le_trans (Foot.le_of_runs (by decide +kernel)) hF))
      | ((with_reducible refine containNow_in ?_ ..); (· exact Foot.le_trans (Foot.le_of_runs (by decide +kernel)) hF))
      | ((with_reducible refine mergeInto_in ?_ ..); (· exact Foot.le_trans (Foot.le_of_runs (by decide +kernel)) hF))
      | ((with_reducible refine secondFault_in ?_ ..); (· exact Foot.le_trans (Foot.le_of_runs (by decide +kernel)) hF))
      | split
      | dsimp only

def Foot.sendContainReq : Foot :=
  { regs := onFam .guard (errFields ++ fCnt ++ [.GUARD_ELOG_CTRL_LOST]) ++ onFam .core (fCnt ++ [.CORE_WM_STAT_WM_CROSS_CNT,
      .CORE_WM_STAT_WM_EVENT, .CORE_WM_STAT_WM_LEVEL]) ++ onFam .route (errFields ++ fCnt) ++ onFam .bridge (errFields ++ fCnt ++
      [.BRIDGE_LOCK_STAT_HOLDER, .BRIDGE_LOCK_STAT_LOCKED, .BRIDGE_PROOF_WM_STAT_WM_CROSS_CNT, .BRIDGE_PROOF_WM_STAT_WM_EVENT,
      .BRIDGE_PROOF_WM_STAT_WM_LEVEL]) ++ onFam .face fCnt ++ onFam .schedg fCnt, cnts := [.guard, .core, .route, .bridge, .face,
      .schedg], vars := [.cbsAt, .cbsCr, .elogSeq, .msixPend, .pktId, .polAt, .polC, .polP, .redAvg, .stipCnt, .stipSeq], fifos :=
      [.elog, .faceWrote, .missLog, .viWrote], parts := [.buf, .free, .greqs, .out, .streams, .waiting] }

theorem sendContainReq_in {F : Foot} (hF : Foot.sendContainReq.le F = true) (n : Nat) (r : GReq) :
    (sendContainReq n r).In F := by
  unfold sendContainReq
  repeat' first
      | (with_reducible first | refine look_in fun _ => ?_ | refine ite_in ?_ ?_ | refine forSome_in fun _ => ?_)
      | ((with_reducible refine sendGuard_in ?_ ..); (· exact Foot.le_trans (Foot.le_of_runs (by decide +kernel)) hF))
      | split
      | dsimp only

def Foot.handle : Foot :=
  { regs := onFam .glb [.GLB_DEV_STATE_STATE] ++ onFam .sec (errFields ++ fCnt ++ [.SEC_IDE_STAT_DEV_AUTH, .SEC_IDE_STAT_LINK_ID,
      .SEC_IDE_STAT_LINK_KSET, .SEC_IDE_STAT_LINK_SECURE, .SEC_IDE_STAT_SEL_SECURE, .SEC_IDE_STAT_SEL_VALID,
      .SEC_LINK_STAT_AUTH_OK, .SEC_LINK_STAT_AUTH_STATUS, .SEC_LINK_STAT_PARTNER_DEBUG, .SEC_LINK_STAT_REKEY,
      .SEC_LINK_STAT_REKEYS]) ++ onFam .guard (errFields ++ fCnt ++ [.GDS_DEVICE_BY_SW, .GDS_DEVICE_CLASS, .GDS_DEVICE_HOLD,
      .GDS_DEVICE_MERGED, .GDS_DEVICE_STATE, .GDS_DEVICE_WINDOW, .GDS_FACE_BY_SW, .GDS_FACE_CLASS, .GDS_FACE_HOLD,
      .GDS_FACE_MERGED, .GDS_FACE_STATE, .GDS_FACE_WINDOW, .GDS_INST_BY_SW, .GDS_INST_CLASS, .GDS_INST_HOLD, .GDS_INST_MERGED,
      .GDS_INST_STATE, .GDS_INST_WINDOW, .GDS_LANE_BY_SW, .GDS_LANE_CLASS, .GDS_LANE_HOLD, .GDS_LANE_MERGED, .GDS_LANE_STATE,
      .GDS_LANE_WINDOW, .GDS_LINK_BY_SW, .GDS_LINK_CLASS, .GDS_LINK_HOLD, .GDS_LINK_MERGED, .GDS_LINK_STATE, .GDS_LINK_WINDOW,
      .GDS_PORT_BY_SW, .GDS_PORT_CLASS, .GDS_PORT_HOLD, .GDS_PORT_MERGED, .GDS_PORT_STATE, .GDS_PORT_WINDOW,
      .GUARD_ELOG_CTRL_LOST, .GUARD_HALT_CAUSE_BIT, .GUARD_HALT_CAUSE_BLOCK, .GUARD_HALT_CAUSE_CAUSE, .GUARD_HALT_CAUSE_DINST,
      .GUARD_HALT_CAUSE_VALID]) ++ onFam .lane [.LANE_INJ_CTRL_ONE_SHOT, .LANE_RATE_CFG_RATE_NOW, .LANE_REST_CTRL_IN_REST,
      .LANE_STAT_ALIGN_LOCK, .LANE_STAT_CDR_LOCK, .LANE_STAT_EQ_DONE, .LANE_STAT_EQ_FAIL, .LANE_STAT_EXIT_FAIL, .LANE_STAT_FAILED,
      .LANE_STAT_FEC_LOCK, .LANE_STAT_RX_READY, .LANE_STAT_STATE, .LANE_TX_TAPS_C0, .LANE_TX_TAPS_POST, .LANE_TX_TAPS_PRE] ++
      onFam .core (errFields ++ fCnt ++ [.CORE_WM_STAT_WM_CROSS_CNT, .CORE_WM_STAT_WM_EVENT, .CORE_WM_STAT_WM_LEVEL]) ++ onFam
      .route (errFields ++ fCnt ++ [.ROUTE_TURN_CTRL_ARM, .ROUTE_TURN_CTRL_STATUS]) ++ onFam .bridge (errFields ++ fCnt ++
      [.BRIDGE_FAB_NBR_PARTNER_PORT, .BRIDGE_FAB_NBR_PARTNER_SW, .BRIDGE_FAB_NBR_VALID, .BRIDGE_LOCK_STAT_HOLDER,
      .BRIDGE_LOCK_STAT_LOCKED, .BRIDGE_PROOF_WM_STAT_WM_CROSS_CNT, .BRIDGE_PROOF_WM_STAT_WM_EVENT,
      .BRIDGE_PROOF_WM_STAT_WM_LEVEL]) ++ onFam .mbox (fCnt ++ [.MBOX_SEM_PEEK_HELD, .MBOX_SEM_PEEK_OWNER]) ++ onFam .port
      (errFields ++ [.BLK_CTRL_QUIESCE, .BLK_STAT_QUIESCED, .PORT_LINK_STAT_ENC, .PORT_LINK_STAT_FLIT, .PORT_LINK_STAT_KEY_PHASE,
      .PORT_LINK_STAT_LANES_GOOD, .PORT_LINK_STAT_RATE_NOW, .PORT_LINK_STAT_STATE, .PORT_LINK_STAT_WIDTH_NOW,
      .PORT_REPLAY_CNT_CONSEC]) ++ onFam .face (errFields ++ fCnt ++ [.BLK_CTRL_SOFT_RESET, .CNT_CLR_CLR, .CNT_HI_HIGH,
      .CNT_LO_LOW, .FACE_BIND_STATE, .FACE_BUS_LIMIT_NEED, .FACE_BUS_LIMIT_NO_BUS, .FACE_FLR_STAT_BUSY, .FACE_FLR_STAT_DONE,
      .FACE_FLR_STAT_TIME_US, .FACE_PM_STAT_FWAKE, .FACE_PM_STAT_LINK_PM, .FACE_PM_STAT_PME_EN, .FACE_PM_STAT_PME_STATUS,
      .FACE_PM_STAT_SE_D, .FACE_PM_STAT_USP_D, .FACE_PRES_CONFLICT, .FACE_PRES_SHOWN, .FACE_TAG_CTRL_REQ_WIDTH,
      .FACE_WIN_BASE_ADDR, .FACE_WIN_BASE_ADDR_HI, .FACE_WIN_COMMIT_GO, .FACE_WIN_COMMIT_INDEX, .FACE_WIN_COMMIT_OP,
      .FACE_WIN_COMMIT_STATUS, .FACE_WIN_SIZE_LINK_BAR, .FACE_WIN_SIZE_LINK_EN, .FACE_WIN_SIZE_LINK_PRES, .FACE_WIN_SIZE_LOG2,
      .FACE_WIN_TAB_ACTIVE, .FACE_WIN_TAB_BASE, .FACE_WIN_TAB_BASE_HI, .FACE_WIN_TAB_LINK_BAR, .FACE_WIN_TAB_LINK_EN,
      .FACE_WIN_TAB_LINK_PRES, .FACE_WIN_TAB_LOG2, .FACE_WIN_TAB_VALID, .FACE_WIN_TAB_XLAT, .FACE_WIN_TAB_XLAT_HI,
      .FACE_WIN_XLAT_ADDR, .FACE_WIN_XLAT_ADDR_HI]) ++ onFam .schedg fCnt ++ onFam .sched [.SCHED_HATCH_CTRL_ARM,
      .SCHED_HATCH_STAT_A_STATE, .SCHED_HATCH_STAT_B_STATE] ++ onFam .inst [.INST_STAT_FENCED, .INST_STAT_FLUSH_TO,
      .INST_STAT_RESETTING, .INST_STAT_TDI] ++ onFam .moverg errFields ++ onFam .eng fCnt ++ onFam .ring [.MOVER_RING_BASE_ADDR,
      .MOVER_RING_BASE_ADDR_HI, .MOVER_RING_CFG_ENABLE, .MOVER_RING_CFG_ENGINE, .MOVER_RING_CFG_KIND, .MOVER_RING_CFG_OWNER,
      .MOVER_RING_CFG_OWN_KIND, .MOVER_RING_CFG_SIZE_LOG2, .MOVER_RING_CFG_STOP_ON_ERR, .MOVER_RING_CPL_BASE_ADDR,
      .MOVER_RING_CPL_BASE_ADDR_HI, .MOVER_RING_CPL_CTRL_COAL_US, .MOVER_RING_CPL_CTRL_IRQ_EN, .MOVER_RING_CPL_CTRL_MODE,
      .MOVER_RING_CPL_CTRL_VECTOR, .MOVER_RING_CPL_FIFO_DW, .MOVER_RING_CPL_HEAD_CPL_HEAD, .MOVER_RING_CPL_TAIL_CPL_TAIL,
      .MOVER_RING_CPL_TAIL_PHASE, .MOVER_RING_HEAD_HEAD, .MOVER_RING_STAT_LAST_INDEX, .MOVER_RING_STAT_LAST_STATUS,
      .MOVER_RING_STAT_RESUME, .MOVER_RING_STAT_STATE, .MOVER_RING_TAIL_TAIL], cnts := [.sec, .guard, .core, .route, .bridge,
      .mbox, .face, .schedg, .eng], vars := [.alignMiss, .alignSeen, .aspm, .authDebug, .authStep, .badCw, .bme, .bridgeCtl,
      .bridgeD3, .cbsAt, .cbsCr, .coalDue, .coalOn, .crAdv, .crInit, .crUsed, .devReset, .elogSeq, .eqTimeouts, .faceEpoch,
      .fetchAt, .fetchN, .fetchTag, .guardBack, .guardPartner, .haltRel, .hatchAt, .hatchLate, .ideGo, .ideKey, .injAlign,
      .linkDis, .lockDest, .lsSeen, .meDef, .memWin, .mkDue, .mkRx, .mkTx, .mse, .msixAddr, .msixData, .msixEnable, .msixFnMask,
      .msixOpen, .msixPend, .nakSent, .nextKey, .ownReq, .paramGot, .paramVal, .partnerAspm, .partnerMax, .partnerReady,
      .partnerRest, .pcieAcked, .pcieRev, .pcieSent, .peerReq, .pktId, .pmeOff, .polAt, .polC, .polP, .portFenced, .postStat,
      .preStat, .prefBase, .prefLimit, .prefWin, .presBar, .presBarSet, .presBase, .presCmd, .presInfo, .presRom, .presetStat,
      .priBus, .ptmCount, .ptmEnable, .redAvg, .rehome, .rekeying, .replayAt, .restHeld, .restPend, .restSince, .rxKey, .rxNum,
      .rxRest, .rxSeq, .rxUnacked, .seBar, .seBusMaster, .seMps, .seMrrs, .seMse, .sePasid, .seTags, .secBus, .sizing, .skewCnt,
      .slotCtl, .slotStat, .stipCnt, .stipSeq, .stopWaits, .subBus, .tagEp, .turnAt, .txCount, .txKey, .txLimit, .txNum, .txSeq,
      .txUsed, .uspMps, .wcCount, .wcDone, .wcFrom, .wcId, .wcOldWidth, .wcSet, .widening, .win], fifos := [.cplFifo, .elog,
      .faceWrote, .flushTodo, .missLog, .ringWrote, .viWrote], parts := [.buf, .coders, .descs, .free, .fwd, .greqs, .out, .prefs,
      .replay, .slots, .streams, .waiting] }

theorem handle_in {F : Foot} (hF : Foot.handle.le F = true) (r : GReq) (bySw : Bool) :
    (handle r bySw).In F := by
  unfold handle
  repeat' first
      | (with_reducible first | exact skip_in | exact all_nil_in | refine all_cons_in ?_ ?_ | refine look_in fun _ => ?_ | refine ite_in ?_ ?_)
      | ((with_reducible refine logRec_in ?_ ..); (· exact Foot.le_trans (F := Foot.log) (by decide +kernel) hF))
      | ((with_reducible refine handleFor_in ?_ ..); (· exact Foot.le_trans (Foot.le_of_runs (by decide +kernel)) hF))
      | ((with_reducible refine powerQuiesce_in ?_ ..); (· exact Foot.le_trans (Foot.le_of_runs (by decide +kernel)) hF))
      | ((with_reducible refine safeHaltNow_in ?_ ..); (· exact Foot.le_trans (Foot.le_of_runs (by decide +kernel)) hF))
      | ((with_reducible refine sendContainReq_in ?_ ..); (· exact Foot.le_trans (Foot.le_of_runs (by decide +kernel)) hF))
      | split
      | dsimp only

def Foot.release : Foot :=
  { regs := onFam .guard (errFields ++ fCnt ++ [.GDS_DEVICE_BY_SW, .GDS_DEVICE_CLASS, .GDS_DEVICE_HOLD, .GDS_DEVICE_MERGED,
      .GDS_DEVICE_STATE, .GDS_DEVICE_WINDOW, .GDS_FACE_BY_SW, .GDS_FACE_CLASS, .GDS_FACE_HOLD, .GDS_FACE_MERGED, .GDS_FACE_STATE,
      .GDS_FACE_WINDOW, .GDS_INST_BY_SW, .GDS_INST_CLASS, .GDS_INST_HOLD, .GDS_INST_MERGED, .GDS_INST_STATE, .GDS_INST_WINDOW,
      .GDS_LANE_BY_SW, .GDS_LANE_CLASS, .GDS_LANE_HOLD, .GDS_LANE_MERGED, .GDS_LANE_STATE, .GDS_LANE_WINDOW, .GDS_LINK_BY_SW,
      .GDS_LINK_CLASS, .GDS_LINK_HOLD, .GDS_LINK_MERGED, .GDS_LINK_STATE, .GDS_LINK_WINDOW, .GDS_PORT_BY_SW, .GDS_PORT_CLASS,
      .GDS_PORT_HOLD, .GDS_PORT_MERGED, .GDS_PORT_STATE, .GDS_PORT_WINDOW, .GUARD_ELOG_CTRL_LOST]) ++ onFam .core (fCnt ++
      [.CORE_WM_STAT_WM_CROSS_CNT, .CORE_WM_STAT_WM_EVENT, .CORE_WM_STAT_WM_LEVEL]) ++ onFam .route (errFields ++ fCnt) ++ onFam
      .bridge (errFields ++ fCnt ++ [.BRIDGE_LOCK_STAT_HOLDER, .BRIDGE_LOCK_STAT_LOCKED, .BRIDGE_PROOF_WM_STAT_WM_CROSS_CNT,
      .BRIDGE_PROOF_WM_STAT_WM_EVENT, .BRIDGE_PROOF_WM_STAT_WM_LEVEL]) ++ onFam .face (errFields ++ fCnt ++ [.FACE_BUS_LIMIT_NEED,
      .FACE_BUS_LIMIT_NO_BUS, .FACE_PRES_CONFLICT]) ++ onFam .schedg fCnt, cnts := [.guard, .core, .route, .bridge, .face,
      .schedg], vars := [.cbsAt, .cbsCr, .elogSeq, .msixPend, .pktId, .polAt, .polC, .polP, .portFenced, .reachLeft, .redAvg,
      .sizing, .stipCnt, .stipSeq], fifos := [.elog, .faceWrote, .missLog, .viWrote], parts := [.buf, .free, .greqs, .out,
      .streams, .waiting] }

theorem release_in {F : Foot} (hF : Foot.release.le F = true) (d : Dom) :
    (release d).In F := by
  unfold release
  repeat' first
      | (with_reducible first | exact skip_in | exact all_nil_in | refine all_cons_in ?_ ?_ | refine look_in fun _ => ?_ | refine when_in ?_ | refine forEach_in fun _ => ?_)
      | ((with_reducible refine put_in ?_); (· exact le_vars hF (by decide +kernel)))
      | ((with_reducible refine bump_in ?_ ?_ ..); (· rfl); (· first | exact Foot.le_trans (F := Foot.counting .guard) (by decide +kernel) hF))
      | ((with_reducible refine logRec_in ?_ ..); (· exact Foot.le_trans (F := Foot.log) (by decide +kernel) hF))
      | ((with_reducible refine feidsBack_in ?_ ..); (· exact Foot.le_trans (Foot.le_of_runs (by decide +kernel)) hF))
      | ((with_reducible refine sendDomainEvent_in ?_ ..); (· exact Foot.le_trans (Foot.le_of_runs (by decide +kernel)) hF))
      | ((with_reducible refine wgds_in ?_ _ ?_ _); (· exact Foot.le_trans (Foot.le_of_runs (by decide +kernel)) hF); (· exact (by decide +kernel)))
      | split
      | dsimp only

def Foot.finishRecovery : Foot :=
  { regs := onFam .guard (errFields ++ fCnt ++ [.GDS_DEVICE_BY_SW, .GDS_DEVICE_CLASS, .GDS_DEVICE_HOLD, .GDS_DEVICE_MERGED,
      .GDS_DEVICE_STATE, .GDS_DEVICE_WINDOW, .GDS_FACE_BY_SW, .GDS_FACE_CLASS, .GDS_FACE_HOLD, .GDS_FACE_MERGED, .GDS_FACE_STATE,
      .GDS_FACE_WINDOW, .GDS_INST_BY_SW, .GDS_INST_CLASS, .GDS_INST_HOLD, .GDS_INST_MERGED, .GDS_INST_STATE, .GDS_INST_WINDOW,
      .GDS_LANE_BY_SW, .GDS_LANE_CLASS, .GDS_LANE_HOLD, .GDS_LANE_MERGED, .GDS_LANE_STATE, .GDS_LANE_WINDOW, .GDS_LINK_BY_SW,
      .GDS_LINK_CLASS, .GDS_LINK_HOLD, .GDS_LINK_MERGED, .GDS_LINK_STATE, .GDS_LINK_WINDOW, .GDS_PORT_BY_SW, .GDS_PORT_CLASS,
      .GDS_PORT_HOLD, .GDS_PORT_MERGED, .GDS_PORT_STATE, .GDS_PORT_WINDOW, .GUARD_ELOG_CTRL_LOST]) ++ onFam .core (fCnt ++
      [.CORE_WM_STAT_WM_CROSS_CNT, .CORE_WM_STAT_WM_EVENT, .CORE_WM_STAT_WM_LEVEL]) ++ onFam .route (errFields ++ fCnt) ++ onFam
      .bridge (errFields ++ fCnt ++ [.BRIDGE_LOCK_STAT_HOLDER, .BRIDGE_LOCK_STAT_LOCKED, .BRIDGE_PROOF_WM_STAT_WM_CROSS_CNT,
      .BRIDGE_PROOF_WM_STAT_WM_EVENT, .BRIDGE_PROOF_WM_STAT_WM_LEVEL]) ++ onFam .face (errFields ++ fCnt ++ [.FACE_BUS_LIMIT_NEED,
      .FACE_BUS_LIMIT_NO_BUS, .FACE_PRES_CONFLICT]) ++ onFam .schedg fCnt, cnts := [.guard, .core, .route, .bridge, .face,
      .schedg], vars := [.cbsAt, .cbsCr, .elogSeq, .msixPend, .pktId, .polAt, .polC, .polP, .portFenced, .reachLeft, .redAvg,
      .sizing, .stipCnt, .stipSeq], fifos := [.elog, .faceWrote, .missLog, .viWrote], parts := [.buf, .free, .greqs, .out,
      .streams, .waiting] }

theorem finishRecovery_in {F : Foot} (hF : Foot.finishRecovery.le F = true) (d : Dom) :
    (finishRecovery d).In F := by
  unfold finishRecovery
  repeat' first
      | (with_reducible first | refine look_in fun _ => ?_ | refine ite_in ?_ ?_ | refine forEach_in fun _ => ?_)
      | ((with_reducible refine release_in ?_ ..); (· exact Foot.le_trans (Foot.le_of_runs (by decide +kernel)) hF))
      | ((with_reducible refine wgds_in ?_ _ ?_ _); (· exact Foot.le_trans (Foot.le_of_runs (by decide +kernel)) hF); (· exact (by decide +kernel)))
      | split
      | dsimp only

def Foot.releaseWrite : Foot :=
  { regs := onFam .sec (errFields ++ fCnt ++ [.SEC_IDE_STAT_DEV_AUTH, .SEC_IDE_STAT_LINK_ID, .SEC_IDE_STAT_LINK_KSET,
      .SEC_IDE_STAT_LINK_SECURE, .SEC_IDE_STAT_SEL_SECURE, .SEC_IDE_STAT_SEL_VALID, .SEC_LINK_STAT_AUTH_OK,
      .SEC_LINK_STAT_AUTH_STATUS, .SEC_LINK_STAT_PARTNER_DEBUG, .SEC_LINK_STAT_REKEY, .SEC_LINK_STAT_REKEYS]) ++ onFam .guard
      (errFields ++ fCnt ++ [.GDS_DEVICE_BY_SW, .GDS_DEVICE_CLASS, .GDS_DEVICE_HOLD, .GDS_DEVICE_MERGED, .GDS_DEVICE_STATE,
      .GDS_DEVICE_WINDOW, .GDS_FACE_BY_SW, .GDS_FACE_CLASS, .GDS_FACE_HOLD, .GDS_FACE_MERGED, .GDS_FACE_STATE, .GDS_FACE_WINDOW,
      .GDS_INST_BY_SW, .GDS_INST_CLASS, .GDS_INST_HOLD, .GDS_INST_MERGED, .GDS_INST_STATE, .GDS_INST_WINDOW, .GDS_LANE_BY_SW,
      .GDS_LANE_CLASS, .GDS_LANE_HOLD, .GDS_LANE_MERGED, .GDS_LANE_STATE, .GDS_LANE_WINDOW, .GDS_LINK_BY_SW, .GDS_LINK_CLASS,
      .GDS_LINK_HOLD, .GDS_LINK_MERGED, .GDS_LINK_STATE, .GDS_LINK_WINDOW, .GDS_PORT_BY_SW, .GDS_PORT_CLASS, .GDS_PORT_HOLD,
      .GDS_PORT_MERGED, .GDS_PORT_STATE, .GDS_PORT_WINDOW, .GUARD_ELOG_CTRL_LOST]) ++ onFam .lane [.LANE_INJ_CTRL_ONE_SHOT,
      .LANE_RATE_CFG_RATE_NOW, .LANE_REST_CTRL_IN_REST, .LANE_STAT_ALIGN_LOCK, .LANE_STAT_CDR_LOCK, .LANE_STAT_EQ_DONE,
      .LANE_STAT_EQ_FAIL, .LANE_STAT_EXIT_FAIL, .LANE_STAT_FAILED, .LANE_STAT_FEC_LOCK, .LANE_STAT_RX_READY, .LANE_STAT_STATE,
      .LANE_TX_TAPS_C0, .LANE_TX_TAPS_POST, .LANE_TX_TAPS_PRE] ++ onFam .core (errFields ++ fCnt ++ [.CORE_WM_STAT_WM_CROSS_CNT,
      .CORE_WM_STAT_WM_EVENT, .CORE_WM_STAT_WM_LEVEL]) ++ onFam .route (errFields ++ fCnt) ++ onFam .bridge (errFields ++ fCnt ++
      [.BRIDGE_FAB_NBR_PARTNER_PORT, .BRIDGE_FAB_NBR_PARTNER_SW, .BRIDGE_FAB_NBR_VALID, .BRIDGE_LOCK_STAT_HOLDER,
      .BRIDGE_LOCK_STAT_LOCKED, .BRIDGE_PROOF_WM_STAT_WM_CROSS_CNT, .BRIDGE_PROOF_WM_STAT_WM_EVENT,
      .BRIDGE_PROOF_WM_STAT_WM_LEVEL]) ++ onFam .mbox (fCnt ++ [.MBOX_SEM_PEEK_HELD, .MBOX_SEM_PEEK_OWNER]) ++ onFam .port
      [.BLK_CTRL_QUIESCE, .BLK_STAT_QUIESCED, .PORT_LINK_STAT_ENC, .PORT_LINK_STAT_FLIT, .PORT_LINK_STAT_KEY_PHASE,
      .PORT_LINK_STAT_LANES_GOOD, .PORT_LINK_STAT_RATE_NOW, .PORT_LINK_STAT_STATE, .PORT_LINK_STAT_WIDTH_NOW,
      .PORT_REPLAY_CNT_CONSEC] ++ onFam .face (errFields ++ fCnt ++ [.BLK_CTRL_SOFT_RESET, .CNT_CLR_CLR, .CNT_HI_HIGH,
      .CNT_LO_LOW, .FACE_BIND_STATE, .FACE_BUS_LIMIT_NEED, .FACE_BUS_LIMIT_NO_BUS, .FACE_FLR_STAT_BUSY, .FACE_FLR_STAT_DONE,
      .FACE_FLR_STAT_TIME_US, .FACE_PM_STAT_FWAKE, .FACE_PM_STAT_LINK_PM, .FACE_PM_STAT_PME_EN, .FACE_PM_STAT_PME_STATUS,
      .FACE_PM_STAT_SE_D, .FACE_PM_STAT_USP_D, .FACE_PRES_CONFLICT, .FACE_PRES_SHOWN, .FACE_TAG_CTRL_REQ_WIDTH,
      .FACE_WIN_BASE_ADDR, .FACE_WIN_BASE_ADDR_HI, .FACE_WIN_COMMIT_GO, .FACE_WIN_COMMIT_INDEX, .FACE_WIN_COMMIT_OP,
      .FACE_WIN_COMMIT_STATUS, .FACE_WIN_SIZE_LINK_BAR, .FACE_WIN_SIZE_LINK_EN, .FACE_WIN_SIZE_LINK_PRES, .FACE_WIN_SIZE_LOG2,
      .FACE_WIN_TAB_ACTIVE, .FACE_WIN_TAB_BASE, .FACE_WIN_TAB_BASE_HI, .FACE_WIN_TAB_LINK_BAR, .FACE_WIN_TAB_LINK_EN,
      .FACE_WIN_TAB_LINK_PRES, .FACE_WIN_TAB_LOG2, .FACE_WIN_TAB_VALID, .FACE_WIN_TAB_XLAT, .FACE_WIN_TAB_XLAT_HI,
      .FACE_WIN_XLAT_ADDR, .FACE_WIN_XLAT_ADDR_HI]) ++ onFam .schedg fCnt ++ onFam .inst [.INST_STAT_FENCED, .INST_STAT_FLUSH_TO,
      .INST_STAT_RESETTING, .INST_STAT_TDI] ++ onFam .moverg errFields ++ onFam .eng fCnt ++ onFam .ring [.MOVER_RING_BASE_ADDR,
      .MOVER_RING_BASE_ADDR_HI, .MOVER_RING_CFG_ENABLE, .MOVER_RING_CFG_ENGINE, .MOVER_RING_CFG_KIND, .MOVER_RING_CFG_OWNER,
      .MOVER_RING_CFG_OWN_KIND, .MOVER_RING_CFG_SIZE_LOG2, .MOVER_RING_CFG_STOP_ON_ERR, .MOVER_RING_CPL_BASE_ADDR,
      .MOVER_RING_CPL_BASE_ADDR_HI, .MOVER_RING_CPL_CTRL_COAL_US, .MOVER_RING_CPL_CTRL_IRQ_EN, .MOVER_RING_CPL_CTRL_MODE,
      .MOVER_RING_CPL_CTRL_VECTOR, .MOVER_RING_CPL_FIFO_DW, .MOVER_RING_CPL_HEAD_CPL_HEAD, .MOVER_RING_CPL_TAIL_CPL_TAIL,
      .MOVER_RING_CPL_TAIL_PHASE, .MOVER_RING_HEAD_HEAD, .MOVER_RING_STAT_LAST_INDEX, .MOVER_RING_STAT_LAST_STATUS,
      .MOVER_RING_STAT_RESUME, .MOVER_RING_STAT_STATE, .MOVER_RING_TAIL_TAIL], cnts := [.sec, .guard, .core, .route, .bridge,
      .mbox, .face, .schedg, .eng], vars := [.alignMiss, .alignSeen, .aspm, .authDebug, .authStep, .badCw, .bme, .bridgeCtl,
      .bridgeD3, .cbsAt, .cbsCr, .coalDue, .coalOn, .crAdv, .crInit, .crUsed, .devReset, .elogSeq, .eqTimeouts, .faceEpoch,
      .fetchAt, .fetchN, .fetchTag, .guardBack, .ideGo, .ideKey, .injAlign, .linkDis, .lockDest, .lsSeen, .meDef, .memWin, .mkDue,
      .mkRx, .mkTx, .mse, .msixAddr, .msixData, .msixEnable, .msixFnMask, .msixOpen, .msixPend, .nakSent, .nextKey, .ownReq,
      .paramGot, .paramVal, .partnerAspm, .partnerMax, .partnerReady, .partnerRest, .pcieAcked, .pcieRev, .pcieSent, .peerReq,
      .pktId, .pmeOff, .polAt, .polC, .polP, .portFenced, .postStat, .preStat, .prefBase, .prefLimit, .prefWin, .presBar,
      .presBarSet, .presBase, .presCmd, .presInfo, .presRom, .presetStat, .priBus, .ptmCount, .ptmEnable, .reachLeft, .redAvg,
      .rehome, .rekeying, .replayAt, .restHeld, .restPend, .restSince, .rxKey, .rxNum, .rxRest, .rxSeq, .rxUnacked, .seBar,
      .seBusMaster, .seMps, .seMrrs, .seMse, .sePasid, .seTags, .secBus, .sizing, .skewCnt, .slotCtl, .slotStat, .stipCnt,
      .stipSeq, .stopWaits, .subBus, .tagEp, .txCount, .txKey, .txLimit, .txNum, .txSeq, .txUsed, .uspMps, .wcDone, .wcFrom,
      .wcId, .wcOldWidth, .wcSet, .widening, .win], fifos := [.cplFifo, .elog, .faceWrote, .flushTodo, .missLog, .ringWrote,
      .viWrote], parts := [.buf, .descs, .free, .greqs, .out, .prefs, .replay, .slots, .streams, .waiting] }

theorem releaseWrite_in {F : Foot} (hF : Foot.releaseWrite.le F = true) (d : Dom) :
    (releaseWrite d).In F := by
  unfold releaseWrite
  repeat' first
      | (with_reducible first | refine look_in fun _ => ?_ | refine when_in ?_ | refine ite_in ?_ ?_)
      | ((with_reducible refine release_in ?_ ..); (· exact Foot.le_trans (Foot.le_of_runs (by decide +kernel)) hF))
      | ((with_reducible refine startRecovery_in ?_ ..); (· exact Foot.le_trans (Foot.le_of_runs (by decide +kernel)) hF))
      | split
      | dsimp only

def Foot.containWrite : Foot :=
  { regs := onFam .glb [.GLB_DEV_STATE_STATE] ++ onFam .sec (errFields ++ fCnt ++ [.SEC_IDE_STAT_DEV_AUTH, .SEC_IDE_STAT_LINK_ID,
      .SEC_IDE_STAT_LINK_KSET, .SEC_IDE_STAT_LINK_SECURE, .SEC_IDE_STAT_SEL_SECURE, .SEC_IDE_STAT_SEL_VALID,
      .SEC_LINK_STAT_AUTH_OK, .SEC_LINK_STAT_AUTH_STATUS, .SEC_LINK_STAT_PARTNER_DEBUG, .SEC_LINK_STAT_REKEY,
      .SEC_LINK_STAT_REKEYS]) ++ onFam .guard (errFields ++ fCnt ++ [.GDS_DEVICE_BY_SW, .GDS_DEVICE_CLASS, .GDS_DEVICE_HOLD,
      .GDS_DEVICE_MERGED, .GDS_DEVICE_STATE, .GDS_DEVICE_WINDOW, .GDS_FACE_BY_SW, .GDS_FACE_CLASS, .GDS_FACE_HOLD,
      .GDS_FACE_MERGED, .GDS_FACE_STATE, .GDS_FACE_WINDOW, .GDS_INST_BY_SW, .GDS_INST_CLASS, .GDS_INST_HOLD, .GDS_INST_MERGED,
      .GDS_INST_STATE, .GDS_INST_WINDOW, .GDS_LANE_BY_SW, .GDS_LANE_CLASS, .GDS_LANE_HOLD, .GDS_LANE_MERGED, .GDS_LANE_STATE,
      .GDS_LANE_WINDOW, .GDS_LINK_BY_SW, .GDS_LINK_CLASS, .GDS_LINK_HOLD, .GDS_LINK_MERGED, .GDS_LINK_STATE, .GDS_LINK_WINDOW,
      .GDS_PORT_BY_SW, .GDS_PORT_CLASS, .GDS_PORT_HOLD, .GDS_PORT_MERGED, .GDS_PORT_STATE, .GDS_PORT_WINDOW,
      .GUARD_ELOG_CTRL_LOST, .GUARD_HALT_CAUSE_BIT, .GUARD_HALT_CAUSE_BLOCK, .GUARD_HALT_CAUSE_CAUSE, .GUARD_HALT_CAUSE_DINST,
      .GUARD_HALT_CAUSE_VALID]) ++ onFam .lane [.LANE_INJ_CTRL_ONE_SHOT, .LANE_RATE_CFG_RATE_NOW, .LANE_REST_CTRL_IN_REST,
      .LANE_STAT_ALIGN_LOCK, .LANE_STAT_CDR_LOCK, .LANE_STAT_EQ_DONE, .LANE_STAT_EQ_FAIL, .LANE_STAT_EXIT_FAIL, .LANE_STAT_FAILED,
      .LANE_STAT_FEC_LOCK, .LANE_STAT_RX_READY, .LANE_STAT_STATE, .LANE_TX_TAPS_C0, .LANE_TX_TAPS_POST, .LANE_TX_TAPS_PRE] ++
      onFam .core (errFields ++ fCnt ++ [.CORE_WM_STAT_WM_CROSS_CNT, .CORE_WM_STAT_WM_EVENT, .CORE_WM_STAT_WM_LEVEL]) ++ onFam
      .route (errFields ++ fCnt ++ [.ROUTE_TURN_CTRL_ARM, .ROUTE_TURN_CTRL_STATUS]) ++ onFam .bridge (errFields ++ fCnt ++
      [.BRIDGE_FAB_NBR_PARTNER_PORT, .BRIDGE_FAB_NBR_PARTNER_SW, .BRIDGE_FAB_NBR_VALID, .BRIDGE_LOCK_STAT_HOLDER,
      .BRIDGE_LOCK_STAT_LOCKED, .BRIDGE_PROOF_WM_STAT_WM_CROSS_CNT, .BRIDGE_PROOF_WM_STAT_WM_EVENT,
      .BRIDGE_PROOF_WM_STAT_WM_LEVEL]) ++ onFam .mbox (fCnt ++ [.MBOX_SEM_PEEK_HELD, .MBOX_SEM_PEEK_OWNER]) ++ onFam .port
      (errFields ++ [.BLK_CTRL_QUIESCE, .BLK_STAT_QUIESCED, .PORT_LINK_STAT_ENC, .PORT_LINK_STAT_FLIT, .PORT_LINK_STAT_KEY_PHASE,
      .PORT_LINK_STAT_LANES_GOOD, .PORT_LINK_STAT_RATE_NOW, .PORT_LINK_STAT_STATE, .PORT_LINK_STAT_WIDTH_NOW,
      .PORT_REPLAY_CNT_CONSEC]) ++ onFam .face (errFields ++ fCnt ++ [.BLK_CTRL_SOFT_RESET, .CNT_CLR_CLR, .CNT_HI_HIGH,
      .CNT_LO_LOW, .FACE_BIND_STATE, .FACE_BUS_LIMIT_NEED, .FACE_BUS_LIMIT_NO_BUS, .FACE_FLR_STAT_BUSY, .FACE_FLR_STAT_DONE,
      .FACE_FLR_STAT_TIME_US, .FACE_PM_STAT_FWAKE, .FACE_PM_STAT_LINK_PM, .FACE_PM_STAT_PME_EN, .FACE_PM_STAT_PME_STATUS,
      .FACE_PM_STAT_SE_D, .FACE_PM_STAT_USP_D, .FACE_PRES_CONFLICT, .FACE_PRES_SHOWN, .FACE_TAG_CTRL_REQ_WIDTH,
      .FACE_WIN_BASE_ADDR, .FACE_WIN_BASE_ADDR_HI, .FACE_WIN_COMMIT_GO, .FACE_WIN_COMMIT_INDEX, .FACE_WIN_COMMIT_OP,
      .FACE_WIN_COMMIT_STATUS, .FACE_WIN_SIZE_LINK_BAR, .FACE_WIN_SIZE_LINK_EN, .FACE_WIN_SIZE_LINK_PRES, .FACE_WIN_SIZE_LOG2,
      .FACE_WIN_TAB_ACTIVE, .FACE_WIN_TAB_BASE, .FACE_WIN_TAB_BASE_HI, .FACE_WIN_TAB_LINK_BAR, .FACE_WIN_TAB_LINK_EN,
      .FACE_WIN_TAB_LINK_PRES, .FACE_WIN_TAB_LOG2, .FACE_WIN_TAB_VALID, .FACE_WIN_TAB_XLAT, .FACE_WIN_TAB_XLAT_HI,
      .FACE_WIN_XLAT_ADDR, .FACE_WIN_XLAT_ADDR_HI]) ++ onFam .schedg fCnt ++ onFam .sched [.SCHED_HATCH_CTRL_ARM,
      .SCHED_HATCH_STAT_A_STATE, .SCHED_HATCH_STAT_B_STATE] ++ onFam .inst [.INST_STAT_FENCED, .INST_STAT_FLUSH_TO,
      .INST_STAT_RESETTING, .INST_STAT_TDI] ++ onFam .moverg errFields ++ onFam .eng fCnt ++ onFam .ring [.MOVER_RING_BASE_ADDR,
      .MOVER_RING_BASE_ADDR_HI, .MOVER_RING_CFG_ENABLE, .MOVER_RING_CFG_ENGINE, .MOVER_RING_CFG_KIND, .MOVER_RING_CFG_OWNER,
      .MOVER_RING_CFG_OWN_KIND, .MOVER_RING_CFG_SIZE_LOG2, .MOVER_RING_CFG_STOP_ON_ERR, .MOVER_RING_CPL_BASE_ADDR,
      .MOVER_RING_CPL_BASE_ADDR_HI, .MOVER_RING_CPL_CTRL_COAL_US, .MOVER_RING_CPL_CTRL_IRQ_EN, .MOVER_RING_CPL_CTRL_MODE,
      .MOVER_RING_CPL_CTRL_VECTOR, .MOVER_RING_CPL_FIFO_DW, .MOVER_RING_CPL_HEAD_CPL_HEAD, .MOVER_RING_CPL_TAIL_CPL_TAIL,
      .MOVER_RING_CPL_TAIL_PHASE, .MOVER_RING_HEAD_HEAD, .MOVER_RING_STAT_LAST_INDEX, .MOVER_RING_STAT_LAST_STATUS,
      .MOVER_RING_STAT_RESUME, .MOVER_RING_STAT_STATE, .MOVER_RING_TAIL_TAIL], cnts := [.sec, .guard, .core, .route, .bridge,
      .mbox, .face, .schedg, .eng], vars := [.alignMiss, .alignSeen, .aspm, .authDebug, .authStep, .badCw, .bme, .bridgeCtl,
      .bridgeD3, .cbsAt, .cbsCr, .coalDue, .coalOn, .crAdv, .crInit, .crUsed, .devReset, .elogSeq, .eqTimeouts, .faceEpoch,
      .fetchAt, .fetchN, .fetchTag, .guardBack, .guardPartner, .haltRel, .hatchAt, .hatchLate, .ideGo, .ideKey, .injAlign,
      .linkDis, .lockDest, .lsSeen, .meDef, .memWin, .mkDue, .mkRx, .mkTx, .mse, .msixAddr, .msixData, .msixEnable, .msixFnMask,
      .msixOpen, .msixPend, .nakSent, .nextKey, .ownReq, .paramGot, .paramVal, .partnerAspm, .partnerMax, .partnerReady,
      .partnerRest, .pcieAcked, .pcieRev, .pcieSent, .peerReq, .pktId, .pmeOff, .polAt, .polC, .polP, .portFenced, .postStat,
      .preStat, .prefBase, .prefLimit, .prefWin, .presBar, .presBarSet, .presBase, .presCmd, .presInfo, .presRom, .presetStat,
      .priBus, .ptmCount, .ptmEnable, .redAvg, .rehome, .rekeying, .replayAt, .restHeld, .restPend, .restSince, .rxKey, .rxNum,
      .rxRest, .rxSeq, .rxUnacked, .seBar, .seBusMaster, .seMps, .seMrrs, .seMse, .sePasid, .seTags, .secBus, .sizing, .skewCnt,
      .slotCtl, .slotStat, .stipCnt, .stipSeq, .stopWaits, .subBus, .tagEp, .turnAt, .txCount, .txKey, .txLimit, .txNum, .txSeq,
      .txUsed, .uspMps, .wcCount, .wcDone, .wcFrom, .wcId, .wcOldWidth, .wcSet, .widening, .win], fifos := [.cplFifo, .elog,
      .faceWrote, .flushTodo, .missLog, .ringWrote, .viWrote], parts := [.buf, .coders, .descs, .free, .fwd, .greqs, .out, .prefs,
      .replay, .slots, .streams, .waiting] }

theorem containWrite_in {F : Foot} (hF : Foot.containWrite.le F = true) (st : Stamp) (d : Dom) :
    (containWrite st d).In F := by
  unfold containWrite
  repeat' first
      | ((with_reducible refine handle_in ?_ ..); (· exact Foot.le_trans (Foot.le_of_runs (by decide +kernel)) hF))
      | split
      | dsimp only

def Foot.gdsWrite : Foot :=
  { regs := onFam .glb [.GLB_DEV_STATE_STATE] ++ onFam .sec (errFields ++ fCnt ++ [.SEC_IDE_STAT_DEV_AUTH, .SEC_IDE_STAT_LINK_ID,
      .SEC_IDE_STAT_LINK_KSET, .SEC_IDE_STAT_LINK_SECURE, .SEC_IDE_STAT_SEL_SECURE, .SEC_IDE_STAT_SEL_VALID,
      .SEC_LINK_STAT_AUTH_OK, .SEC_LINK_STAT_AUTH_STATUS, .SEC_LINK_STAT_PARTNER_DEBUG, .SEC_LINK_STAT_REKEY,
      .SEC_LINK_STAT_REKEYS]) ++ onFam .guard (errFields ++ fCnt ++ [.GDS_DEVICE_BY_SW, .GDS_DEVICE_CLASS, .GDS_DEVICE_HOLD,
      .GDS_DEVICE_MERGED, .GDS_DEVICE_STATE, .GDS_DEVICE_WINDOW, .GDS_FACE_BY_SW, .GDS_FACE_CLASS, .GDS_FACE_HOLD,
      .GDS_FACE_MERGED, .GDS_FACE_STATE, .GDS_FACE_WINDOW, .GDS_INST_BY_SW, .GDS_INST_CLASS, .GDS_INST_HOLD, .GDS_INST_MERGED,
      .GDS_INST_STATE, .GDS_INST_WINDOW, .GDS_LANE_BY_SW, .GDS_LANE_CLASS, .GDS_LANE_HOLD, .GDS_LANE_MERGED, .GDS_LANE_STATE,
      .GDS_LANE_WINDOW, .GDS_LINK_BY_SW, .GDS_LINK_CLASS, .GDS_LINK_HOLD, .GDS_LINK_MERGED, .GDS_LINK_STATE, .GDS_LINK_WINDOW,
      .GDS_PORT_BY_SW, .GDS_PORT_CLASS, .GDS_PORT_HOLD, .GDS_PORT_MERGED, .GDS_PORT_STATE, .GDS_PORT_WINDOW,
      .GUARD_ELOG_CTRL_LOST, .GUARD_HALT_CAUSE_BIT, .GUARD_HALT_CAUSE_BLOCK, .GUARD_HALT_CAUSE_CAUSE, .GUARD_HALT_CAUSE_DINST,
      .GUARD_HALT_CAUSE_VALID]) ++ onFam .lane [.LANE_INJ_CTRL_ONE_SHOT, .LANE_RATE_CFG_RATE_NOW, .LANE_REST_CTRL_IN_REST,
      .LANE_STAT_ALIGN_LOCK, .LANE_STAT_CDR_LOCK, .LANE_STAT_EQ_DONE, .LANE_STAT_EQ_FAIL, .LANE_STAT_EXIT_FAIL, .LANE_STAT_FAILED,
      .LANE_STAT_FEC_LOCK, .LANE_STAT_RX_READY, .LANE_STAT_STATE, .LANE_TX_TAPS_C0, .LANE_TX_TAPS_POST, .LANE_TX_TAPS_PRE] ++
      onFam .core (errFields ++ fCnt ++ [.CORE_WM_STAT_WM_CROSS_CNT, .CORE_WM_STAT_WM_EVENT, .CORE_WM_STAT_WM_LEVEL]) ++ onFam
      .route (errFields ++ fCnt ++ [.ROUTE_TURN_CTRL_ARM, .ROUTE_TURN_CTRL_STATUS]) ++ onFam .bridge (errFields ++ fCnt ++
      [.BRIDGE_FAB_NBR_PARTNER_PORT, .BRIDGE_FAB_NBR_PARTNER_SW, .BRIDGE_FAB_NBR_VALID, .BRIDGE_LOCK_STAT_HOLDER,
      .BRIDGE_LOCK_STAT_LOCKED, .BRIDGE_PROOF_WM_STAT_WM_CROSS_CNT, .BRIDGE_PROOF_WM_STAT_WM_EVENT,
      .BRIDGE_PROOF_WM_STAT_WM_LEVEL]) ++ onFam .mbox (fCnt ++ [.MBOX_SEM_PEEK_HELD, .MBOX_SEM_PEEK_OWNER]) ++ onFam .port
      (errFields ++ [.BLK_CTRL_QUIESCE, .BLK_STAT_QUIESCED, .PORT_LINK_STAT_ENC, .PORT_LINK_STAT_FLIT, .PORT_LINK_STAT_KEY_PHASE,
      .PORT_LINK_STAT_LANES_GOOD, .PORT_LINK_STAT_RATE_NOW, .PORT_LINK_STAT_STATE, .PORT_LINK_STAT_WIDTH_NOW,
      .PORT_REPLAY_CNT_CONSEC]) ++ onFam .face (errFields ++ fCnt ++ [.BLK_CTRL_SOFT_RESET, .CNT_CLR_CLR, .CNT_HI_HIGH,
      .CNT_LO_LOW, .FACE_BIND_STATE, .FACE_BUS_LIMIT_NEED, .FACE_BUS_LIMIT_NO_BUS, .FACE_FLR_STAT_BUSY, .FACE_FLR_STAT_DONE,
      .FACE_FLR_STAT_TIME_US, .FACE_PM_STAT_FWAKE, .FACE_PM_STAT_LINK_PM, .FACE_PM_STAT_PME_EN, .FACE_PM_STAT_PME_STATUS,
      .FACE_PM_STAT_SE_D, .FACE_PM_STAT_USP_D, .FACE_PRES_CONFLICT, .FACE_PRES_SHOWN, .FACE_TAG_CTRL_REQ_WIDTH,
      .FACE_WIN_BASE_ADDR, .FACE_WIN_BASE_ADDR_HI, .FACE_WIN_COMMIT_GO, .FACE_WIN_COMMIT_INDEX, .FACE_WIN_COMMIT_OP,
      .FACE_WIN_COMMIT_STATUS, .FACE_WIN_SIZE_LINK_BAR, .FACE_WIN_SIZE_LINK_EN, .FACE_WIN_SIZE_LINK_PRES, .FACE_WIN_SIZE_LOG2,
      .FACE_WIN_TAB_ACTIVE, .FACE_WIN_TAB_BASE, .FACE_WIN_TAB_BASE_HI, .FACE_WIN_TAB_LINK_BAR, .FACE_WIN_TAB_LINK_EN,
      .FACE_WIN_TAB_LINK_PRES, .FACE_WIN_TAB_LOG2, .FACE_WIN_TAB_VALID, .FACE_WIN_TAB_XLAT, .FACE_WIN_TAB_XLAT_HI,
      .FACE_WIN_XLAT_ADDR, .FACE_WIN_XLAT_ADDR_HI]) ++ onFam .schedg fCnt ++ onFam .sched [.SCHED_HATCH_CTRL_ARM,
      .SCHED_HATCH_STAT_A_STATE, .SCHED_HATCH_STAT_B_STATE] ++ onFam .inst [.INST_STAT_FENCED, .INST_STAT_FLUSH_TO,
      .INST_STAT_RESETTING, .INST_STAT_TDI] ++ onFam .moverg errFields ++ onFam .eng fCnt ++ onFam .ring [.MOVER_RING_BASE_ADDR,
      .MOVER_RING_BASE_ADDR_HI, .MOVER_RING_CFG_ENABLE, .MOVER_RING_CFG_ENGINE, .MOVER_RING_CFG_KIND, .MOVER_RING_CFG_OWNER,
      .MOVER_RING_CFG_OWN_KIND, .MOVER_RING_CFG_SIZE_LOG2, .MOVER_RING_CFG_STOP_ON_ERR, .MOVER_RING_CPL_BASE_ADDR,
      .MOVER_RING_CPL_BASE_ADDR_HI, .MOVER_RING_CPL_CTRL_COAL_US, .MOVER_RING_CPL_CTRL_IRQ_EN, .MOVER_RING_CPL_CTRL_MODE,
      .MOVER_RING_CPL_CTRL_VECTOR, .MOVER_RING_CPL_FIFO_DW, .MOVER_RING_CPL_HEAD_CPL_HEAD, .MOVER_RING_CPL_TAIL_CPL_TAIL,
      .MOVER_RING_CPL_TAIL_PHASE, .MOVER_RING_HEAD_HEAD, .MOVER_RING_STAT_LAST_INDEX, .MOVER_RING_STAT_LAST_STATUS,
      .MOVER_RING_STAT_RESUME, .MOVER_RING_STAT_STATE, .MOVER_RING_TAIL_TAIL], cnts := [.sec, .guard, .core, .route, .bridge,
      .mbox, .face, .schedg, .eng], vars := [.alignMiss, .alignSeen, .aspm, .authDebug, .authStep, .badCw, .bme, .bridgeCtl,
      .bridgeD3, .cbsAt, .cbsCr, .coalDue, .coalOn, .crAdv, .crInit, .crUsed, .devReset, .elogSeq, .eqTimeouts, .faceEpoch,
      .fetchAt, .fetchN, .fetchTag, .guardBack, .guardPartner, .haltRel, .hatchAt, .hatchLate, .ideGo, .ideKey, .injAlign,
      .linkDis, .lockDest, .lsSeen, .meDef, .memWin, .mkDue, .mkRx, .mkTx, .mse, .msixAddr, .msixData, .msixEnable, .msixFnMask,
      .msixOpen, .msixPend, .nakSent, .nextKey, .ownReq, .paramGot, .paramVal, .partnerAspm, .partnerMax, .partnerReady,
      .partnerRest, .pcieAcked, .pcieRev, .pcieSent, .peerReq, .pktId, .pmeOff, .polAt, .polC, .polP, .portFenced, .postStat,
      .preStat, .prefBase, .prefLimit, .prefWin, .presBar, .presBarSet, .presBase, .presCmd, .presInfo, .presRom, .presetStat,
      .priBus, .ptmCount, .ptmEnable, .reachLeft, .redAvg, .rehome, .rekeying, .replayAt, .restHeld, .restPend, .restSince,
      .rxKey, .rxNum, .rxRest, .rxSeq, .rxUnacked, .seBar, .seBusMaster, .seMps, .seMrrs, .seMse, .sePasid, .seTags, .secBus,
      .sizing, .skewCnt, .slotCtl, .slotStat, .stipCnt, .stipSeq, .stopWaits, .subBus, .tagEp, .turnAt, .txCount, .txKey,
      .txLimit, .txNum, .txSeq, .txUsed, .uspMps, .wcCount, .wcDone, .wcFrom, .wcId, .wcOldWidth, .wcSet, .widening, .win], fifos
      := [.cplFifo, .elog, .faceWrote, .flushTodo, .missLog, .ringWrote, .viWrote], parts := [.buf, .coders, .descs, .free, .fwd,
      .greqs, .out, .prefs, .replay, .slots, .streams, .waiting] }

theorem gdsWrite_in {F : Foot} (hF : Foot.gdsWrite.le F = true) (st : Stamp) (d : Dom) (v : Nat) :
    (gdsWrite st d v).In F := by
  unfold gdsWrite
  repeat' first
      | (with_reducible first | exact all_nil_in | refine all_cons_in ?_ ?_ | refine when_in ?_)
      | ((with_reducible refine containWrite_in ?_ ..); (· exact Foot.le_trans (Foot.le_of_runs (by decide +kernel)) hF))
      | ((with_reducible refine releaseWrite_in ?_ ..); (· exact Foot.le_trans (Foot.le_of_runs (by decide +kernel)) hF))
      | ((with_reducible refine wgds_in ?_ _ ?_ _); (· exact Foot.le_trans (Foot.le_of_runs (by decide +kernel)) hF); (· exact (by decide +kernel)))
      | split
      | dsimp only

def Foot.elogCtrlWrite : Foot :=
  { regs := onFam .guard [.GUARD_ELOG_CTRL_LOST], fifos := [.elog] }

theorem elogCtrlWrite_in {F : Foot} (hF : Foot.elogCtrlWrite.le F = true) (v : Nat) :
    (elogCtrlWrite v).In F := by
  unfold elogCtrlWrite
  repeat' first
      | (with_reducible first | exact all_nil_in | refine all_cons_in ?_ ?_ | refine when_in ?_)
      | ((with_reducible refine putFifo_in ?_); (· exact le_fifos hF (by decide +kernel)))
      | ((with_reducible refine wr_in ?_ ?_); (· first | exact own_mem (show _ ∈ tabGUARD0 by decide +kernel)); (· first | exact le_regs hF (show (Fam.guard, _) ∈ _ by decide +kernel)))
      | split
      | dsimp only

end Sys2Proof.Machine
end

