-- ==== Sys2Proof/Laws/FrameSec.lean ====
section
/-! SUPPORT. What each update of Machine/Sec.lean may touch. -/

namespace Sys2Proof.Machine

set_option Elab.async false
set_option linter.unusedTactic false
set_option linter.unreachableTactic false

def Foot.newRecord : Foot :=
  { regs := onFam .sec errFields ++ onFam .guard (errFields ++ fCnt ++ [.GUARD_ELOG_CTRL_LOST]) ++ onFam .face fCnt, cnts :=
      [.guard, .face], vars := [.elogSeq, .msixPend, .ownKey, .ownRec, .sigStale], fifos := [.elog, .faceWrote, .viWrote], parts
      := [.greqs, .out] }

theorem newRecord_in {F : Foot} (hF : Foot.newRecord.le F = true) (ks : List Nat) :
    (newRecord ks).In F := by
  unfold newRecord
  repeat' first
      | (with_reducible first | exact all_nil_in | refine all_cons_in ?_ ?_ | refine look_in fun _ => ?_ | refine when_in ?_ | refine forBelow_in fun _ => ?_)
      | ((with_reducible refine put_in ?_); (· exact le_vars hF (by decide +kernel)))
      | ((with_reducible refine raise_in ?_ ?_ ..); (· rfl); (· first | exact Foot.le_trans (F := Foot.error .sec) (by decide +kernel) hF))
      | split
      | dsimp only

def Foot.newNonce : Foot :=
  { regs := onFam .sec [.SEC_NONCE_DW], parts := [.free] }

theorem newNonce_in {F : Foot} (hF : Foot.newNonce.le F = true)  :
    (newNonce).In F := by
  unfold newNonce
  repeat' first
      | (with_reducible first | refine forBelow_in fun _ => ?_)
      | ((with_reducible refine wr_in ?_ ?_); (· first | exact own_mem (show _ ∈ tabSEC0 by decide +kernel)); (· first | exact le_regs hF (show (Fam.sec, _) ∈ _ by decide +kernel)))
      | ((with_reducible refine drawWord_in ?_ fun _ => ?_); (· exact le_parts hF (by decide +kernel)); skip)
      | split
      | dsimp only

def Foot.lockPage : Foot :=
  { regs := onFam .glb [.PAGE_LOCK_LOCKED, .PAGE_LOCK_LOCK_GEN] ++ onFam .mgmt [.PAGE_LOCK_LOCKED, .PAGE_LOCK_LOCK_GEN] ++ onFam
      .sec [.PAGE_LOCK_LOCKED, .PAGE_LOCK_LOCK_GEN] ++ onFam .guard [.PAGE_LOCK_LOCKED, .PAGE_LOCK_LOCK_GEN] ++ onFam .lane
      [.PAGE_LOCK_LOCKED, .PAGE_LOCK_LOCK_GEN] ++ onFam .pwrg [.PAGE_LOCK_LOCKED, .PAGE_LOCK_LOCK_GEN] ++ onFam .pwr
      [.PAGE_LOCK_LOCKED, .PAGE_LOCK_LOCK_GEN] ++ onFam .core [.PAGE_LOCK_LOCKED, .PAGE_LOCK_LOCK_GEN] ++ onFam .route
      [.PAGE_LOCK_LOCKED, .PAGE_LOCK_LOCK_GEN] ++ onFam .bridge [.PAGE_LOCK_LOCKED, .PAGE_LOCK_LOCK_GEN] ++ onFam .mbox
      [.PAGE_LOCK_LOCKED, .PAGE_LOCK_LOCK_GEN] ++ onFam .port [.PAGE_LOCK_LOCKED, .PAGE_LOCK_LOCK_GEN] ++ onFam .face
      [.PAGE_LOCK_LOCKED, .PAGE_LOCK_LOCK_GEN] ++ onFam .schedg [.PAGE_LOCK_LOCKED, .PAGE_LOCK_LOCK_GEN] ++ onFam .sched
      [.PAGE_LOCK_LOCKED, .PAGE_LOCK_LOCK_GEN] ++ onFam .inst [.PAGE_LOCK_LOCKED, .PAGE_LOCK_LOCK_GEN] ++ onFam .moverg
      [.PAGE_LOCK_LOCKED, .PAGE_LOCK_LOCK_GEN] ++ onFam .eng [.PAGE_LOCK_LOCKED, .PAGE_LOCK_LOCK_GEN] }

theorem commonPages_common {pg : Pg} (h : pg ∈ commonPages) : pg.common = true := by
  obtain ⟨_, _, m⟩ := List.mem_flatMap.1 h
  exact (List.mem_filter.1 m).2

theorem Fam.of_common {pg : Pg} (h : pg.common = true) : Fam.of pg ≠ .tenant ∧ Fam.of pg ≠ .ring := by
  cases pg <;> simp_all [Pg.common, Fam.of]

theorem lockPage_in {F : Foot} (hF : Foot.lockPage.le F = true) {pg : Pg} (hc : pg.common = true) : (lockPage pg).In F := by
  have h : ∀ k : Fam, k ≠ .tenant ∧ k ≠ .ring → (k, Fld.PAGE_LOCK_LOCKED) ∈ Foot.lockPage.regs ∧ (k, Fld.PAGE_LOCK_LOCK_GEN) ∈ Foot.lockPage.regs := by
    intro k
    cases k <;> decide +kernel
  have := h _ (Fam.of_common hc)
  exact look_in fun _ => when_in (all_cons_in (wr_in (hdr_mem hc (by decide +kernel)) (le_regs hF this.1)) (all_cons_in
    (wr_in (hdr_mem hc (by decide +kernel)) (le_regs hF this.2)) all_nil_in))

def Foot.forPages : Foot :=
  {}

theorem lockPage?_common {i : Nat} {pg : Pg} (h : lockPage? i = some pg) : pg.common = true := by
  have := (Option.filter_eq_some_iff.1 h).2
  cases pg <;> first | rfl | exact this

theorem forPages_in {F : Foot} (m : Nat) {u : Pg → Upd} (h : ∀ pg, pg.common = true → (u pg).In F) : (forPages m u).In F :=
  forEach_in fun i => by
    cases e : lockPage? i with
    | none => exact skip_in
    | some pg => exact h pg (lockPage?_common e)

def Foot.unlockPage : Foot :=
  { regs := onFam .glb [.PAGE_LOCK_LOCKED, .PAGE_LOCK_LOCK_GEN] ++ onFam .mgmt [.PAGE_LOCK_LOCKED, .PAGE_LOCK_LOCK_GEN] ++ onFam
      .sec [.PAGE_LOCK_LOCKED, .PAGE_LOCK_LOCK_GEN] ++ onFam .guard [.PAGE_LOCK_LOCKED, .PAGE_LOCK_LOCK_GEN] ++ onFam .lane
      [.PAGE_LOCK_LOCKED, .PAGE_LOCK_LOCK_GEN] ++ onFam .pwrg [.PAGE_LOCK_LOCKED, .PAGE_LOCK_LOCK_GEN] ++ onFam .pwr
      [.PAGE_LOCK_LOCKED, .PAGE_LOCK_LOCK_GEN] ++ onFam .core [.PAGE_LOCK_LOCKED, .PAGE_LOCK_LOCK_GEN] ++ onFam .route
      [.PAGE_LOCK_LOCKED, .PAGE_LOCK_LOCK_GEN] ++ onFam .bridge [.PAGE_LOCK_LOCKED, .PAGE_LOCK_LOCK_GEN] ++ onFam .mbox
      [.PAGE_LOCK_LOCKED, .PAGE_LOCK_LOCK_GEN] ++ onFam .port [.PAGE_LOCK_LOCKED, .PAGE_LOCK_LOCK_GEN] ++ onFam .face
      [.PAGE_LOCK_LOCKED, .PAGE_LOCK_LOCK_GEN] ++ onFam .schedg [.PAGE_LOCK_LOCKED, .PAGE_LOCK_LOCK_GEN] ++ onFam .sched
      [.PAGE_LOCK_LOCKED, .PAGE_LOCK_LOCK_GEN] ++ onFam .inst [.PAGE_LOCK_LOCKED, .PAGE_LOCK_LOCK_GEN] ++ onFam .moverg
      [.PAGE_LOCK_LOCKED, .PAGE_LOCK_LOCK_GEN] ++ onFam .eng [.PAGE_LOCK_LOCKED, .PAGE_LOCK_LOCK_GEN] }

theorem unlockPage_in {F : Foot} (hF : Foot.unlockPage.le F = true) {pg : Pg} (hc : pg.common = true) : (unlockPage pg).In F := by
  have h : ∀ k : Fam, k ≠ .tenant ∧ k ≠ .ring → (k, Fld.PAGE_LOCK_LOCKED) ∈ Foot.unlockPage.regs := by
    intro k
    cases k <;> decide +kernel
  exact wr_in (hdr_mem hc (by decide +kernel)) (le_regs hF (h _ (Fam.of_common hc)))

def Foot.setGrant : Foot :=
  { regs := onFam .sec [.SEC_GRANT_MASK] }

theorem setGrant_in {F : Foot} (hF : Foot.setGrant.le F = true) (m : Nat) :
    (setGrant m).In F := by
  unfold setGrant
  repeat' first
      | ((with_reducible refine wr_in ?_ ?_); (· first | exact own_mem (show _ ∈ tabSEC0 by decide +kernel)); (· first | exact le_regs hF (show (Fam.sec, _) ∈ _ by decide +kernel)))
      | split
      | dsimp only

def Foot.lockMapWrite : Foot :=
  { regs := onFam .glb [.PAGE_LOCK_LOCKED, .PAGE_LOCK_LOCK_GEN] ++ onFam .mgmt [.PAGE_LOCK_LOCKED, .PAGE_LOCK_LOCK_GEN] ++ onFam
      .sec [.PAGE_LOCK_LOCKED, .PAGE_LOCK_LOCK_GEN] ++ onFam .guard [.PAGE_LOCK_LOCKED, .PAGE_LOCK_LOCK_GEN] ++ onFam .lane
      [.PAGE_LOCK_LOCKED, .PAGE_LOCK_LOCK_GEN] ++ onFam .pwrg [.PAGE_LOCK_LOCKED, .PAGE_LOCK_LOCK_GEN] ++ onFam .pwr
      [.PAGE_LOCK_LOCKED, .PAGE_LOCK_LOCK_GEN] ++ onFam .core [.PAGE_LOCK_LOCKED, .PAGE_LOCK_LOCK_GEN] ++ onFam .route
      [.PAGE_LOCK_LOCKED, .PAGE_LOCK_LOCK_GEN] ++ onFam .bridge [.PAGE_LOCK_LOCKED, .PAGE_LOCK_LOCK_GEN] ++ onFam .mbox
      [.PAGE_LOCK_LOCKED, .PAGE_LOCK_LOCK_GEN] ++ onFam .port [.PAGE_LOCK_LOCKED, .PAGE_LOCK_LOCK_GEN] ++ onFam .face
      [.PAGE_LOCK_LOCKED, .PAGE_LOCK_LOCK_GEN] ++ onFam .schedg [.PAGE_LOCK_LOCKED, .PAGE_LOCK_LOCK_GEN] ++ onFam .sched
      [.PAGE_LOCK_LOCKED, .PAGE_LOCK_LOCK_GEN] ++ onFam .inst [.PAGE_LOCK_LOCKED, .PAGE_LOCK_LOCK_GEN] ++ onFam .moverg
      [.PAGE_LOCK_LOCKED, .PAGE_LOCK_LOCK_GEN] ++ onFam .eng [.PAGE_LOCK_LOCKED, .PAGE_LOCK_LOCK_GEN] }

theorem lockMapWrite_in {F : Foot} (hF : Foot.lockMapWrite.le F = true) (k v : Nat) : (lockMapWrite k v).In F :=
  forPages_in _ fun _ hc => lockPage_in (Foot.le_trans (Foot.le_of_runs (by decide +kernel)) hF) hc

def Foot.tokenEffect : Foot :=
  { regs := onFam .glb [.PAGE_LOCK_LOCKED, .PAGE_LOCK_LOCK_GEN] ++ onFam .mgmt [.PAGE_LOCK_LOCKED, .PAGE_LOCK_LOCK_GEN] ++ onFam
      .sec (errFields ++ [.PAGE_LOCK_LOCKED, .PAGE_LOCK_LOCK_GEN, .SEC_DEBUG_STATE, .SEC_GRANT_MASK]) ++ onFam .guard (errFields
      ++ fCnt ++ [.GUARD_ELOG_CTRL_LOST, .PAGE_LOCK_LOCKED, .PAGE_LOCK_LOCK_GEN]) ++ onFam .lane [.PAGE_LOCK_LOCKED,
      .PAGE_LOCK_LOCK_GEN] ++ onFam .pwrg [.PAGE_LOCK_LOCKED, .PAGE_LOCK_LOCK_GEN] ++ onFam .pwr [.PAGE_LOCK_LOCKED,
      .PAGE_LOCK_LOCK_GEN] ++ onFam .core [.PAGE_LOCK_LOCKED, .PAGE_LOCK_LOCK_GEN] ++ onFam .route [.PAGE_LOCK_LOCKED,
      .PAGE_LOCK_LOCK_GEN] ++ onFam .bridge [.PAGE_LOCK_LOCKED, .PAGE_LOCK_LOCK_GEN] ++ onFam .mbox [.PAGE_LOCK_LOCKED,
      .PAGE_LOCK_LOCK_GEN] ++ onFam .port [.PAGE_LOCK_LOCKED, .PAGE_LOCK_LOCK_GEN] ++ onFam .face (fCnt ++ [.PAGE_LOCK_LOCKED,
      .PAGE_LOCK_LOCK_GEN]) ++ onFam .schedg [.PAGE_LOCK_LOCKED, .PAGE_LOCK_LOCK_GEN] ++ onFam .sched [.PAGE_LOCK_LOCKED,
      .PAGE_LOCK_LOCK_GEN] ++ onFam .inst [.PAGE_LOCK_LOCKED, .PAGE_LOCK_LOCK_GEN] ++ onFam .moverg [.PAGE_LOCK_LOCKED,
      .PAGE_LOCK_LOCK_GEN] ++ onFam .eng [.PAGE_LOCK_LOCKED, .PAGE_LOCK_LOCK_GEN], cnts := [.guard, .face], vars := [.elogSeq,
      .msixPend, .ownKey, .ownRec, .sigStale], fifos := [.elog, .faceWrote, .viWrote], parts := [.arb, .greqs, .out] }

theorem tokenEffect_in {F : Foot} (hF : Foot.tokenEffect.le F = true) (t : Nat) :
    (tokenEffect t).In F := by
  unfold tokenEffect
  repeat' first
      | (with_reducible first | refine ite_in ?_ ?_)
      | ((with_reducible refine raiseArb_in ?_); (· exact le_parts hF (by decide +kernel)))
      | ((with_reducible refine wr_in ?_ ?_); (· first | exact own_mem (show _ ∈ tabSEC0 by decide +kernel)); (· first | exact le_regs hF (show (Fam.sec, _) ∈ _ by decide +kernel)))
      | ((with_reducible refine forPages_in _ ?_); intro _ _)
      | exact unlockPage_in (Foot.le_trans (by decide +kernel) hF) (by assumption)
      | ((with_reducible refine newRecord_in ?_ ..); (· exact Foot.le_trans (Foot.le_of_runs (by decide +kernel)) hF))
      | ((with_reducible refine setGrant_in ?_ ..); (· exact Foot.le_trans (Foot.le_of_runs (by decide +kernel)) hF))
      | with_reducible exact unlockPage_in (Foot.le_trans (by decide +kernel) hF) (by assumption)
      | with_reducible exact forEach_mem_in fun _ m => unlockPage_in (Foot.le_trans (by decide +kernel) hF) (commonPages_common m)
      | split
      | dsimp only

def Foot.tokenProcess : Foot :=
  { regs := onFam .glb [.PAGE_LOCK_LOCKED, .PAGE_LOCK_LOCK_GEN] ++ onFam .mgmt [.PAGE_LOCK_LOCKED, .PAGE_LOCK_LOCK_GEN] ++ onFam
      .sec (errFields ++ [.PAGE_LOCK_LOCKED, .PAGE_LOCK_LOCK_GEN, .SEC_DEBUG_STATE, .SEC_GRANT_MASK]) ++ onFam .guard (errFields
      ++ fCnt ++ [.GUARD_ELOG_CTRL_LOST, .PAGE_LOCK_LOCKED, .PAGE_LOCK_LOCK_GEN]) ++ onFam .lane [.PAGE_LOCK_LOCKED,
      .PAGE_LOCK_LOCK_GEN] ++ onFam .pwrg [.PAGE_LOCK_LOCKED, .PAGE_LOCK_LOCK_GEN] ++ onFam .pwr [.PAGE_LOCK_LOCKED,
      .PAGE_LOCK_LOCK_GEN] ++ onFam .core [.PAGE_LOCK_LOCKED, .PAGE_LOCK_LOCK_GEN] ++ onFam .route [.PAGE_LOCK_LOCKED,
      .PAGE_LOCK_LOCK_GEN] ++ onFam .bridge [.PAGE_LOCK_LOCKED, .PAGE_LOCK_LOCK_GEN] ++ onFam .mbox [.PAGE_LOCK_LOCKED,
      .PAGE_LOCK_LOCK_GEN] ++ onFam .port [.PAGE_LOCK_LOCKED, .PAGE_LOCK_LOCK_GEN] ++ onFam .face (fCnt ++ [.PAGE_LOCK_LOCKED,
      .PAGE_LOCK_LOCK_GEN]) ++ onFam .schedg [.PAGE_LOCK_LOCKED, .PAGE_LOCK_LOCK_GEN] ++ onFam .sched [.PAGE_LOCK_LOCKED,
      .PAGE_LOCK_LOCK_GEN] ++ onFam .inst [.PAGE_LOCK_LOCKED, .PAGE_LOCK_LOCK_GEN] ++ onFam .moverg [.PAGE_LOCK_LOCKED,
      .PAGE_LOCK_LOCK_GEN] ++ onFam .eng [.PAGE_LOCK_LOCKED, .PAGE_LOCK_LOCK_GEN], cnts := [.guard, .face], vars := [.elogSeq,
      .msixPend, .ownKey, .ownRec, .sigStale, .tokRes], fifos := [.elog, .faceWrote, .viWrote], parts := [.arb, .greqs, .out] }

theorem tokenProcess_in {F : Foot} (hF : Foot.tokenProcess.le F = true)  :
    (tokenProcess).In F := by
  unfold tokenProcess
  repeat' first
      | (with_reducible first | exact all_nil_in | refine all_cons_in ?_ ?_ | refine look_in fun _ => ?_ | refine when_in ?_)
      | ((with_reducible refine put_in ?_); (· exact le_vars hF (by decide +kernel)))
      | ((with_reducible refine tokenEffect_in ?_ ..); (· exact Foot.le_trans (Foot.le_of_runs (by decide +kernel)) hF))
      | split
      | dsimp only

def Foot.tokenRefused : Foot :=
  { regs := onFam .sec (errFields ++ fCnt ++ [.SEC_TOKEN_CTRL_STATUS]) ++ onFam .guard (errFields ++ fCnt ++
      [.GUARD_ELOG_CTRL_LOST]) ++ onFam .face fCnt, cnts := [.sec, .guard, .face], vars := [.elogSeq, .msixPend], fifos := [.elog,
      .faceWrote, .viWrote], parts := [.greqs, .out] }

theorem tokenRefused_in {F : Foot} (hF : Foot.tokenRefused.le F = true) (st status : Nat) :
    (tokenRefused st status).In F := by
  unfold tokenRefused
  repeat' first
      | (with_reducible first | exact all_nil_in | refine all_cons_in ?_ ?_)
      | ((with_reducible refine wrSt_in ?_ ?_); (· first | exact hdr_mem rfl (by decide +kernel) | exact own_mem (show _ ∈ tabGUARD0 by decide +kernel) | exact own_mem (show _ ∈ tabSEC0 by decide +kernel)); (· first | exact le_regs hF (show (Fam.face, _) ∈ _ by decide +kernel) | exact le_regs hF (show (Fam.guard, _) ∈ _ by decide +kernel) | exact le_regs hF (show (Fam.sec, _) ∈ _ by decide +kernel)))
      | ((with_reducible refine bump_in ?_ ?_ ..); (· rfl); (· first | exact Foot.le_trans (F := Foot.counting .sec) (by decide +kernel) hF))
      | ((with_reducible refine raise_in ?_ ?_ ..); (· rfl); (· first | exact Foot.le_trans (F := Foot.error .sec) (by decide +kernel) hF))
      | split
      | dsimp only

def Foot.tokenGo : Foot :=
  { regs := onFam .sec (errFields ++ fCnt ++ [.SEC_TOKEN_CTRL_GO, .SEC_TOKEN_CTRL_STATUS]) ++ onFam .guard (errFields ++ fCnt ++
      [.GUARD_ELOG_CTRL_LOST]) ++ onFam .face fCnt, cnts := [.sec, .guard, .face], vars := [.elogSeq, .msixPend, .tokRaw, .tokRes,
      .tokRun], fifos := [.elog, .faceWrote, .viWrote], parts := [.greqs, .out] }

theorem tokenGo_in {F : Foot} (hF : Foot.tokenGo.le F = true) (st : Nat) :
    (tokenGo st).In F := by
  unfold tokenGo
  repeat' first
      | (with_reducible first | exact all_nil_in | refine all_cons_in ?_ ?_ | refine look_in fun _ => ?_ | refine ite_in ?_ ?_)
      | ((with_reducible refine put_in ?_); (· exact le_vars hF (by decide +kernel)))
      | ((with_reducible refine wrSt_in ?_ ?_); (· first | exact own_mem (show _ ∈ tabSEC0 by decide +kernel)); (· first | exact le_regs hF (show (Fam.sec, _) ∈ _ by decide +kernel)))
      | ((with_reducible refine tokenRefused_in ?_ ..); (· exact Foot.le_trans (Foot.le_of_runs (by decide +kernel)) hF))
      | split
      | dsimp only

def Foot.tokenCtrlWrite : Foot :=
  { regs := onFam .sec (errFields ++ fCnt ++ [.SEC_TOKEN_CTRL_GO, .SEC_TOKEN_CTRL_STATUS]) ++ onFam .guard (errFields ++ fCnt ++
      [.GUARD_ELOG_CTRL_LOST]) ++ onFam .face fCnt, cnts := [.sec, .guard, .face], vars := [.elogSeq, .msixPend, .tokRaw, .tokRes,
      .tokRun], fifos := [.elog, .faceWrote, .viWrote], parts := [.greqs, .out] }

theorem tokenCtrlWrite_in {F : Foot} (hF : Foot.tokenCtrlWrite.le F = true) (st v : Nat) :
    (tokenCtrlWrite st v).In F := by
  unfold tokenCtrlWrite
  repeat' first
      | (with_reducible first | refine when_in ?_)
      | ((with_reducible refine tokenGo_in ?_ ..); (· exact Foot.le_trans (Foot.le_of_runs (by decide +kernel)) hF))
      | split
      | dsimp only

def Foot.tokenSubmit : Foot :=
  { regs := onFam .glb [.PAGE_LOCK_LOCKED, .PAGE_LOCK_LOCK_GEN] ++ onFam .mgmt [.PAGE_LOCK_LOCKED, .PAGE_LOCK_LOCK_GEN] ++ onFam
      .sec (errFields ++ fCnt ++ [.PAGE_LOCK_LOCKED, .PAGE_LOCK_LOCK_GEN, .SEC_DEBUG_STATE, .SEC_GRANT_MASK, .SEC_TOKEN_CTRL_GO,
      .SEC_TOKEN_CTRL_STATUS]) ++ onFam .guard (errFields ++ fCnt ++ [.GUARD_ELOG_CTRL_LOST, .PAGE_LOCK_LOCKED,
      .PAGE_LOCK_LOCK_GEN]) ++ onFam .lane [.PAGE_LOCK_LOCKED, .PAGE_LOCK_LOCK_GEN] ++ onFam .pwrg [.PAGE_LOCK_LOCKED,
      .PAGE_LOCK_LOCK_GEN] ++ onFam .pwr [.PAGE_LOCK_LOCKED, .PAGE_LOCK_LOCK_GEN] ++ onFam .core [.PAGE_LOCK_LOCKED,
      .PAGE_LOCK_LOCK_GEN] ++ onFam .route [.PAGE_LOCK_LOCKED, .PAGE_LOCK_LOCK_GEN] ++ onFam .bridge [.PAGE_LOCK_LOCKED,
      .PAGE_LOCK_LOCK_GEN] ++ onFam .mbox [.PAGE_LOCK_LOCKED, .PAGE_LOCK_LOCK_GEN] ++ onFam .port [.PAGE_LOCK_LOCKED,
      .PAGE_LOCK_LOCK_GEN] ++ onFam .face (fCnt ++ [.PAGE_LOCK_LOCKED, .PAGE_LOCK_LOCK_GEN]) ++ onFam .schedg [.PAGE_LOCK_LOCKED,
      .PAGE_LOCK_LOCK_GEN] ++ onFam .sched [.PAGE_LOCK_LOCKED, .PAGE_LOCK_LOCK_GEN] ++ onFam .inst [.PAGE_LOCK_LOCKED,
      .PAGE_LOCK_LOCK_GEN] ++ onFam .moverg [.PAGE_LOCK_LOCKED, .PAGE_LOCK_LOCK_GEN] ++ onFam .eng [.PAGE_LOCK_LOCKED,
      .PAGE_LOCK_LOCK_GEN], cnts := [.sec, .guard, .face], vars := [.aerStamp, .arbLast, .elogSeq, .msixPend, .ownKey, .ownRec,
      .sigStale, .tokRaw, .tokRes, .tokRun], fifos := [.elog, .faceWrote, .viWrote], parts := [.arb, .greqs, .out] }

theorem tokenSubmit_in {F : Foot} (hF : Foot.tokenSubmit.le F = true) (op : Nat) (st : Stamp) (v : Nat) :
    (tokenSubmit op st v).In F := by
  unfold tokenSubmit
  repeat' first
      | (with_reducible first | exact all_nil_in | refine all_cons_in ?_ ?_ | refine look_in fun _ => ?_ | refine when_in ?_ | refine ite_in ?_ ?_)
      | ((with_reducible refine granted_in ?_ ?_ _ _ ?_); (· rfl); (· first | exact Foot.le_trans (F := Foot.access .sec) (by decide +kernel) hF); skip)
      | ((with_reducible refine tokenGo_in ?_ ..); (· exact Foot.le_trans (Foot.le_of_runs (by decide +kernel)) hF))
      | ((with_reducible refine tokenProcess_in ?_ ..); (· exact Foot.le_trans (Foot.le_of_runs (by decide +kernel)) hF))
      | ((with_reducible refine tokenRefused_in ?_ ..); (· exact Foot.le_trans (Foot.le_of_runs (by decide +kernel)) hF))
      | split
      | dsimp only

def Foot.ideSecure : Foot :=
  { regs := onFam .sec [.SEC_IDE_STAT_LINK_KSET, .SEC_IDE_STAT_LINK_SECURE, .SEC_IDE_STAT_SEL_SECURE] }

theorem ideSecure_in {F : Foot} (hF : Foot.ideSecure.le F = true) (p stream set : Nat) :
    (ideSecure p stream set).In F := by
  unfold ideSecure
  repeat' first
      | (with_reducible first | exact all_nil_in | refine all_cons_in ?_ ?_ | refine look_in fun _ => ?_ | refine ite_in ?_ ?_)
      | ((with_reducible refine wr_in ?_ ?_); (· first | exact own_mem (show _ ∈ tabSEC1 by decide +kernel)); (· first | exact le_regs hF (show (Fam.sec, _) ∈ _ by decide +kernel)))
      | split
      | dsimp only

def Foot.ideInsecure : Foot :=
  { regs := onFam .sec [.SEC_IDE_STAT_LINK_SECURE, .SEC_IDE_STAT_SEL_SECURE] }

theorem ideInsecure_in {F : Foot} (hF : Foot.ideInsecure.le F = true) (p stream : Nat) :
    (ideInsecure p stream).In F := by
  unfold ideInsecure
  repeat' first
      | (with_reducible first | refine look_in fun _ => ?_ | refine ite_in ?_ ?_)
      | ((with_reducible refine wr_in ?_ ?_); (· first | exact own_mem (show _ ∈ tabSEC1 by decide +kernel)); (· first | exact le_regs hF (show (Fam.sec, _) ∈ _ by decide +kernel)))
      | split
      | dsimp only

def Foot.ideFail : Foot :=
  { regs := onFam .sec (errFields ++ fCnt ++ [.SEC_IDE_STAT_FAIL, .SEC_IDE_STAT_LINK_SECURE, .SEC_IDE_STAT_SEL_SECURE]) ++ onFam
      .guard (errFields ++ fCnt ++ [.GUARD_ELOG_CTRL_LOST]) ++ onFam .face fCnt, cnts := [.sec, .guard, .face], vars := [.elogSeq,
      .msixPend], fifos := [.elog, .faceWrote, .viWrote], parts := [.greqs, .out] }

theorem ideFail_in {F : Foot} (hF : Foot.ideFail.le F = true) (p : Nat) :
    (ideFail p).In F := by
  unfold ideFail
  repeat' first
      | (with_reducible first | exact all_nil_in | refine all_cons_in ?_ ?_ | refine look_in fun _ => ?_ | refine ite_in ?_ ?_ | refine forBelow_in fun _ => ?_)
      | ((with_reducible refine wr_in ?_ ?_); (· first | exact hdr_mem rfl (by decide +kernel) | exact own_mem (show _ ∈ tabGUARD0 by decide +kernel) | exact own_mem (show _ ∈ tabSEC1 by decide +kernel)); (· first | exact le_regs hF (show (Fam.face, _) ∈ _ by decide +kernel) | exact le_regs hF (show (Fam.guard, _) ∈ _ by decide +kernel) | exact le_regs hF (show (Fam.sec, _) ∈ _ by decide +kernel)))
      | ((with_reducible refine bump_in ?_ ?_ ..); (· rfl); (· first | exact Foot.le_trans (F := Foot.counting .sec) (by decide +kernel) hF))
      | ((with_reducible refine raiseIn_in ?_ ?_ ..); (· rfl); (· first | exact Foot.le_trans (F := Foot.error .sec) (by decide +kernel) hF))
      | ((with_reducible refine ideInsecure_in ?_ ..); (· exact Foot.le_trans (Foot.le_of_runs (by decide +kernel)) hF))
      | split
      | dsimp only

def Foot.rekeyStart : Foot :=
  { regs := onFam .sec [.SEC_LINK_STAT_REKEY], vars := [.rekeying], parts := [.free, .out] }

theorem rekeyStart_in {F : Foot} (hF : Foot.rekeyStart.le F = true) (p : Nat) :
    (rekeyStart p).In F := by
  unfold rekeyStart
  repeat' first
      | (with_reducible first | exact all_nil_in | refine all_cons_in ?_ ?_ | refine look_in fun _ => ?_ | refine when_in ?_)
      | ((with_reducible refine put_in ?_); (· exact le_vars hF (by decide +kernel)))
      | ((with_reducible refine wr_in ?_ ?_); (· first | exact own_mem (show _ ∈ tabSEC2 by decide +kernel)); (· first | exact le_regs hF (show (Fam.sec, _) ∈ _ by decide +kernel)))
      | ((with_reducible refine sendHello_in ?_ ..); (· exact Foot.le_trans (Foot.le_of_runs (by decide +kernel)) hF))
      | split
      | dsimp only

def Foot.linkStatWrite : Foot :=
  { regs := onFam .sec [.SEC_LINK_STAT_REKEY], vars := [.rekeying], parts := [.free, .out] }

theorem linkStatWrite_in {F : Foot} (hF : Foot.linkStatWrite.le F = true) (p v : Nat) :
    (linkStatWrite p v).In F := by
  unfold linkStatWrite
  repeat' first
      | (with_reducible first | refine when_in ?_)
      | ((with_reducible refine rekeyStart_in ?_ ..); (· exact Foot.le_trans (Foot.le_of_runs (by decide +kernel)) hF))
      | split
      | dsimp only

def Foot.debugWrite : Foot :=
  { regs := onFam .sec [.SEC_DEBUG_STATE], parts := [.out] }

theorem debugWrite_in {F : Foot} (hF : Foot.debugWrite.le F = true) (v : Nat) :
    (debugWrite v).In F := by
  unfold debugWrite
  repeat' first
      | (with_reducible first | exact all_nil_in | refine all_cons_in ?_ ?_ | refine when_in ?_)
      | ((with_reducible refine emit_in ?_); (· exact le_parts hF (by decide +kernel)))
      | ((with_reducible refine wr_in ?_ ?_); (· first | exact own_mem (show _ ∈ tabSEC0 by decide +kernel)); (· first | exact le_regs hF (show (Fam.sec, _) ∈ _ by decide +kernel)))
      | split
      | dsimp only

end Sys2Proof.Machine
end

