-- ==== Sys2Proof/Laws/FramePwr.lean ====
section
/-! SUPPORT. What each update of Machine/Pwr.lean may touch. -/

namespace Sys2Proof.Machine

set_option Elab.async false
set_option linter.unusedTactic false
set_option linter.unreachableTactic false

def Foot.setFeed : Foot :=
  { regs := onFam .pwr [.PWR_CH_STAT_A_OK, .PWR_CH_STAT_B_OK] }

theorem setFeed_in {F : Foot} (hF : Foot.setFeed.le F = true) (c : Nat) (b ok : Bool) :
    (setFeed c b ok).In F := by
  unfold setFeed
  repeat' first
      | (with_reducible first | refine ite_in ?_ ?_)
      | ((with_reducible refine wr_in ?_ ?_); (· first | exact own_mem (show _ ∈ tabPWR by decide +kernel)); (· first | exact le_regs hF (show (Fam.pwr, _) ∈ _ by decide +kernel)))
      | split
      | dsimp only

def Foot.chanTo : Foot :=
  { regs := onFam .pwr [.PWR_CH_STAT_STATE] }

theorem chanTo_in {F : Foot} (hF : Foot.chanTo.le F = true) (c st : Nat) :
    (chanTo c st).In F := by
  unfold chanTo
  repeat' first
      | ((with_reducible refine wr_in ?_ ?_); (· first | exact own_mem (show _ ∈ tabPWR by decide +kernel)); (· first | exact le_regs hF (show (Fam.pwr, _) ∈ _ by decide +kernel)))
      | split
      | dsimp only

def Foot.chanStart : Foot :=
  { regs := onFam .pwr [.PWR_CH_STAT_STATE] }

theorem chanStart_in {F : Foot} (hF : Foot.chanStart.le F = true) (c : Nat) :
    (chanStart c).In F := by
  unfold chanStart
  repeat' first
      | (with_reducible first | refine look_in fun _ => ?_ | refine ite_in ?_ ?_)
      | ((with_reducible refine chanTo_in ?_ ..); (· exact Foot.le_trans (Foot.le_of_runs (by decide +kernel)) hF))
      | split
      | dsimp only

def Foot.chanRaise : Foot :=
  { regs := onFam .guard (errFields ++ fCnt ++ [.GUARD_ELOG_CTRL_LOST]) ++ onFam .pwr errFields ++ onFam .face fCnt, cnts :=
      [.guard, .face], vars := [.elogSeq, .msixPend], fifos := [.elog, .faceWrote, .viWrote], parts := [.greqs, .out] }

theorem chanRaise_in {F : Foot} (hF : Foot.chanRaise.le F = true) (c : Nat) (e : Err) :
    (chanRaise c e).In F := by
  unfold chanRaise
  repeat' first
      | (with_reducible first | exact all_nil_in | refine all_cons_in ?_ ?_ | refine look_in fun _ => ?_ | refine when_in ?_ | refine ite_in ?_ ?_)
      | ((with_reducible refine wr_in ?_ ?_); (· first | exact hdr_mem rfl (by decide +kernel) | exact own_mem (show _ ∈ tabGUARD0 by decide +kernel)); (· first | exact le_regs hF (show (Fam.face, _) ∈ _ by decide +kernel) | exact le_regs hF (show (Fam.guard, _) ∈ _ by decide +kernel) | exact le_regs hF (show (Fam.pwr, _) ∈ _ by decide +kernel)))
      | ((with_reducible refine raise_in ?_ ?_ ..); (· rfl); (· first | exact Foot.le_trans (F := Foot.error .pwr) (by decide +kernel) hF))
      | ((with_reducible refine noteErrs_of ?_ ?_ _); (· rfl); (· first | exact Foot.le_trans (F := Foot.error .pwr) (by decide +kernel) hF))
      | ((with_reducible refine captureErrs_of ?_ ?_ _); (· rfl); (· first | exact Foot.le_trans (F := Foot.error .pwr) (by decide +kernel) hF))
      | split
      | dsimp only

def Foot.reloadRetries : Foot :=
  { regs := onFam .pwr [.PWR_CH_STAT_RETRIES_LEFT] }

theorem reloadRetries_in {F : Foot} (hF : Foot.reloadRetries.le F = true) (c : Nat) :
    (reloadRetries c).In F := by
  unfold reloadRetries
  repeat' first
      | (with_reducible first | refine look_in fun _ => ?_)
      | ((with_reducible refine wr_in ?_ ?_); (· first | exact own_mem (show _ ∈ tabPWR by decide +kernel)); (· first | exact le_regs hF (show (Fam.pwr, _) ∈ _ by decide +kernel)))
      | split
      | dsimp only

def Foot.ramp : Foot :=
  { regs := onFam .pwr (fCnt ++ [.PWR_CH_STAT_ACTIVE_B, .PWR_CH_STAT_STATE, .PWR_CH_STAT_WARN]) ++ onFam .face fCnt, cnts := [.pwr,
      .face], vars := [.msixPend], fifos := [.faceWrote, .viWrote], parts := [.out] }

theorem ramp_in {F : Foot} (hF : Foot.ramp.le F = true) (c : Nat) (b : Bool) :
    (ramp c b).In F := by
  unfold ramp
  repeat' first
      | (with_reducible first | exact all_nil_in | refine all_cons_in ?_ ?_)
      | ((with_reducible refine wr_in ?_ ?_); (· first | exact hdr_mem rfl (by decide +kernel) | exact own_mem (show _ ∈ tabPWR by decide +kernel)); (· first | exact le_regs hF (show (Fam.face, _) ∈ _ by decide +kernel) | exact le_regs hF (show (Fam.pwr, _) ∈ _ by decide +kernel)))
      | ((with_reducible refine bump_in ?_ ?_ ..); (· rfl); (· first | exact Foot.le_trans (F := Foot.counting .pwr) (by decide +kernel) hF))
      | ((with_reducible refine chanTo_in ?_ ..); (· exact Foot.le_trans (Foot.le_of_runs (by decide +kernel)) hF))
      | split
      | dsimp only

def Foot.rampBest : Foot :=
  { regs := onFam .pwr (fCnt ++ [.PWR_CH_STAT_ACTIVE_B, .PWR_CH_STAT_STATE, .PWR_CH_STAT_WARN]) ++ onFam .face fCnt, cnts := [.pwr,
      .face], vars := [.msixPend], fifos := [.faceWrote, .viWrote], parts := [.out] }

theorem rampBest_in {F : Foot} (hF : Foot.rampBest.le F = true) (c : Nat) :
    (rampBest c).In F := by
  unfold rampBest
  repeat' first
      | (with_reducible first | refine look_in fun _ => ?_ | refine ite_in ?_ ?_)
      | ((with_reducible refine ramp_in ?_ ..); (· exact Foot.le_trans (Foot.le_of_runs (by decide +kernel)) hF))
      | split
      | dsimp only

def Foot.assertWarn : Foot :=
  { regs := onFam .pwr [.PWR_CH_STAT_WARN], parts := [.greqs] }

theorem assertWarn_in {F : Foot} (hF : Foot.assertWarn.le F = true) (c : Nat) :
    (assertWarn c).In F := by
  unfold assertWarn
  repeat' first
      | (with_reducible first | exact all_nil_in | refine all_cons_in ?_ ?_ | refine look_in fun _ => ?_ | refine when_in ?_)
      | ((with_reducible refine modGreqs_in ?_); (· exact le_parts hF (by decide +kernel)))
      | ((with_reducible refine wr_in ?_ ?_); (· first | exact own_mem (show _ ∈ tabPWR by decide +kernel)); (· first | exact le_regs hF (show (Fam.pwr, _) ∈ _ by decide +kernel)))
      | split
      | dsimp only

def Foot.toRetry : Foot :=
  { regs := onFam .guard (errFields ++ fCnt ++ [.GUARD_ELOG_CTRL_LOST]) ++ onFam .pwr (errFields ++ [.PWR_CH_STAT_RETRIES_LEFT,
      .PWR_CH_STAT_STATE]) ++ onFam .face fCnt, cnts := [.guard, .face], vars := [.elogSeq, .msixPend], fifos := [.elog,
      .faceWrote, .viWrote], parts := [.greqs, .out] }

theorem toRetry_in {F : Foot} (hF : Foot.toRetry.le F = true) (c : Nat) :
    (toRetry c).In F := by
  unfold toRetry
  repeat' first
      | (with_reducible first | exact all_nil_in | refine all_cons_in ?_ ?_ | refine look_in fun _ => ?_ | refine ite_in ?_ ?_)
      | ((with_reducible refine wr_in ?_ ?_); (· first | exact own_mem (show _ ∈ tabPWR by decide +kernel)); (· first | exact le_regs hF (show (Fam.pwr, _) ∈ _ by decide +kernel)))
      | ((with_reducible refine chanRaise_in ?_ ..); (· exact Foot.le_trans (Foot.le_of_runs (by decide +kernel)) hF))
      | ((with_reducible refine chanTo_in ?_ ..); (· exact Foot.le_trans (Foot.le_of_runs (by decide +kernel)) hF))
      | split
      | dsimp only

def Foot.chanSoftReset : Foot :=
  { regs := onFam .pwr [.INT_CAUSE_ERR, .INT_CAUSE_CNT_SAT, .INT_CAUSE_BLK_INT, .BLK_CTRL_QUIESCE, .BLK_CTRL_SOFT_RESET,
      .BLK_STAT_QUIESCED, .BLK_STAT_READY, .CNT_CLR_CLR, .CNT_HI_HIGH, .CNT_LO_LOW, .INT_EN_BLK_INT, .INT_EN_CNT_SAT, .INT_EN_ERR,
      .INT_ROUTE_FACE, .INT_ROUTE_TARGET, .INT_ROUTE_VECTOR, .PWR_CH_CFG_BIND_EN, .PWR_CH_CFG_CLEAR, .PWR_CH_CFG_EN,
      .PWR_CH_CFG_INS_DELAY, .PWR_CH_CFG_PORT, .PWR_CH_CFG_WARN_LEAD, .PWR_CH_STAT_ACTIVE_B, .PWR_CH_STAT_A_OK, .PWR_CH_STAT_B_OK,
      .PWR_CH_STAT_LAST_CUT, .PWR_CH_STAT_LIMIT, .PWR_CH_STAT_PG, .PWR_CH_STAT_RETRIES_LEFT, .PWR_CH_STAT_REV_BLOCK,
      .PWR_CH_STAT_SEATED, .PWR_CH_STAT_STATE, .PWR_CH_STAT_WARN, .PWR_FAULT_TIMER_RETRY_COUNT, .PWR_FAULT_TIMER_TIMER,
      .PWR_FEED_SEL_DEAD_US, .PWR_FEED_SEL_FEED_A_EN, .PWR_FEED_SEL_FEED_B_EN, .PWR_FEED_SEL_FORCE, .PWR_FEED_SEL_PRIO,
      .PWR_FEED_SEL_REVERT, .PWR_FEED_SEL_WARN_ON_SWITCH, .PWR_LIMIT_ILIM, .PWR_LIMIT_RAMP, .PWR_LIMIT_TFET_MAX, .PWR_SNAP_CYCLE,
      .PWR_SNAP_IOUT, .PWR_SNAP_IPEAK, .PWR_SNAP_TFET, .PWR_SNAP_VFA, .PWR_SNAP_VFB, .PWR_SNAP_VOUT, .PWR_TELEM_IOUT,
      .PWR_TELEM_IPEAK, .PWR_TELEM_TFET, .PWR_TELEM_VFA, .PWR_TELEM_VFB, .PWR_TELEM_VOUT, .PWR_UVOV_OV, .PWR_UVOV_UV], vars :=
      [.pwEnergy, .pwFault, .pwIdle, .pwReset] }

theorem chanSoftReset_in {F : Foot} (hF : Foot.chanSoftReset.le F = true) (c : Nat) :
    (chanSoftReset c).In F := by
  unfold chanSoftReset
  repeat' first
      | (with_reducible first | exact all_nil_in | refine all_cons_in ?_ ?_)
      | ((with_reducible refine put_in ?_); (· exact le_vars hF (by decide +kernel)))
      | ((with_reducible refine wr_in ?_ ?_); (· first | exact hdr_mem rfl (by decide +kernel) | exact own_mem (show _ ∈ tabPWR by decide +kernel)); (· first | exact le_regs hF (show (Fam.pwr, _) ∈ _ by decide +kernel)))
      | ((with_reducible refine resetPage_in ?_); (· first | exact fun f m hk => le_regs (x := (Fam.pwr, f)) hF ((show ∀ f ∈ (tabHDR ++ tabPWR), f.kept.testBit (Rst.bit .block) = false → (Fam.pwr, f) ∈ Foot.chanSoftReset.regs by decide +kernel) f m hk)))
      | ((with_reducible refine chanStart_in ?_ ..); (· exact Foot.le_trans (Foot.le_of_runs (by decide +kernel)) hF))
      | ((with_reducible refine resetPage_in ?_ ..); (· exact Foot.le_trans (Foot.le_of_runs (by decide +kernel)) hF))
      | split
      | dsimp only

def Foot.cut : Foot :=
  { regs := onFam .guard (errFields ++ fCnt ++ [.GUARD_ELOG_CTRL_LOST]) ++ onFam .pwr (errFields ++ fCnt ++ [.INT_CAUSE_BLK_INT,
      .BLK_CTRL_QUIESCE, .BLK_CTRL_SOFT_RESET, .BLK_STAT_QUIESCED, .BLK_STAT_READY, .CNT_CLR_CLR, .CNT_HI_HIGH, .CNT_LO_LOW,
      .INT_EN_BLK_INT, .INT_EN_CNT_SAT, .INT_EN_ERR, .INT_ROUTE_FACE, .INT_ROUTE_TARGET, .INT_ROUTE_VECTOR, .PWR_CH_CFG_BIND_EN,
      .PWR_CH_CFG_CLEAR, .PWR_CH_CFG_EN, .PWR_CH_CFG_INS_DELAY, .PWR_CH_CFG_PORT, .PWR_CH_CFG_WARN_LEAD, .PWR_CH_STAT_ACTIVE_B,
      .PWR_CH_STAT_A_OK, .PWR_CH_STAT_B_OK, .PWR_CH_STAT_LAST_CUT, .PWR_CH_STAT_LIMIT, .PWR_CH_STAT_PG, .PWR_CH_STAT_RETRIES_LEFT,
      .PWR_CH_STAT_REV_BLOCK, .PWR_CH_STAT_SEATED, .PWR_CH_STAT_STATE, .PWR_CH_STAT_WARN, .PWR_FAULT_TIMER_RETRY_COUNT,
      .PWR_FAULT_TIMER_TIMER, .PWR_FEED_SEL_DEAD_US, .PWR_FEED_SEL_FEED_A_EN, .PWR_FEED_SEL_FEED_B_EN, .PWR_FEED_SEL_FORCE,
      .PWR_FEED_SEL_PRIO, .PWR_FEED_SEL_REVERT, .PWR_FEED_SEL_WARN_ON_SWITCH, .PWR_LIMIT_ILIM, .PWR_LIMIT_RAMP,
      .PWR_LIMIT_TFET_MAX, .PWR_SNAP_CYCLE, .PWR_SNAP_IOUT, .PWR_SNAP_IPEAK, .PWR_SNAP_TFET, .PWR_SNAP_VFA, .PWR_SNAP_VFB,
      .PWR_SNAP_VOUT, .PWR_TELEM_IOUT, .PWR_TELEM_IPEAK, .PWR_TELEM_TFET, .PWR_TELEM_VFA, .PWR_TELEM_VFB, .PWR_TELEM_VOUT,
      .PWR_UVOV_OV, .PWR_UVOV_UV]) ++ onFam .face fCnt, cnts := [.guard, .pwr, .face], vars := [.elogSeq, .msixPend, .pwCause,
      .pwDead, .pwEnergy, .pwFault, .pwIdle, .pwReset, .pwSwitch], fifos := [.elog, .faceWrote, .viWrote], parts := [.greqs, .out]
      }

theorem cut_in {F : Foot} (hF : Foot.cut.le F = true) (c cause : Nat) :
    (cut c cause).In F := by
  unfold cut
  repeat' first
      | (with_reducible first | exact all_nil_in | refine all_cons_in ?_ ?_ | refine look_in fun _ => ?_ | refine when_in ?_ | refine ite_in ?_ ?_)
      | ((with_reducible refine put_in ?_); (· exact le_vars hF (by decide +kernel)))
      | ((with_reducible refine wr_in ?_ ?_); (· first | exact hdr_mem rfl (by decide +kernel) | exact own_mem (show _ ∈ tabPWR by decide +kernel)); (· first | exact le_regs hF (show (Fam.face, _) ∈ _ by decide +kernel) | exact le_regs hF (show (Fam.pwr, _) ∈ _ by decide +kernel)))
      | ((with_reducible refine bump_in ?_ ?_ ..); (· rfl); (· first | exact Foot.le_trans (F := Foot.counting .pwr) (by decide +kernel) hF))
      | ((with_reducible refine chanRaise_in ?_ ..); (· exact Foot.le_trans (Foot.le_of_runs (by decide +kernel)) hF))
      | ((with_reducible refine chanSoftReset_in ?_ ..); (· exact Foot.le_trans (Foot.le_of_runs (by decide +kernel)) hF))
      | ((with_reducible refine chanStart_in ?_ ..); (· exact Foot.le_trans (Foot.le_of_runs (by decide +kernel)) hF))
      | ((with_reducible refine chanTo_in ?_ ..); (· exact Foot.le_trans (Foot.le_of_runs (by decide +kernel)) hF))
      | ((with_reducible refine toRetry_in ?_ ..); (· exact Foot.le_trans (Foot.le_of_runs (by decide +kernel)) hF))
      | split
      | dsimp only

def Foot.warnCut : Foot :=
  { regs := onFam .pwr [.PWR_CH_STAT_STATE, .PWR_CH_STAT_WARN], vars := [.pwCause, .pwSwitch], parts := [.greqs] }

theorem warnCut_in {F : Foot} (hF : Foot.warnCut.le F = true) (c cause : Nat) (first : Upd) (h_first : first.In F) :
    (warnCut c cause first).In F := by
  unfold warnCut
  repeat' first
      | (with_reducible first | exact all_nil_in | refine all_cons_in ?_ ?_ | refine look_in fun _ => ?_ | refine when_in ?_ | refine ite_in ?_ ?_)
      | with_reducible exact h_first
      | ((with_reducible refine put_in ?_); (· exact le_vars hF (by decide +kernel)))
      | ((with_reducible refine assertWarn_in ?_ ..); (· exact Foot.le_trans (Foot.le_of_runs (by decide +kernel)) hF))
      | ((with_reducible refine chanTo_in ?_ ..); (· exact Foot.le_trans (Foot.le_of_runs (by decide +kernel)) hF))
      | split
      | dsimp only

def Foot.unwarnedCut : Foot :=
  { regs := onFam .guard (errFields ++ fCnt ++ [.GUARD_ELOG_CTRL_LOST]) ++ onFam .pwr (errFields ++ fCnt ++ [.INT_CAUSE_BLK_INT,
      .BLK_CTRL_QUIESCE, .BLK_CTRL_SOFT_RESET, .BLK_STAT_QUIESCED, .BLK_STAT_READY, .CNT_CLR_CLR, .CNT_HI_HIGH, .CNT_LO_LOW,
      .INT_EN_BLK_INT, .INT_EN_CNT_SAT, .INT_EN_ERR, .INT_ROUTE_FACE, .INT_ROUTE_TARGET, .INT_ROUTE_VECTOR, .PWR_CH_CFG_BIND_EN,
      .PWR_CH_CFG_CLEAR, .PWR_CH_CFG_EN, .PWR_CH_CFG_INS_DELAY, .PWR_CH_CFG_PORT, .PWR_CH_CFG_WARN_LEAD, .PWR_CH_STAT_ACTIVE_B,
      .PWR_CH_STAT_A_OK, .PWR_CH_STAT_B_OK, .PWR_CH_STAT_LAST_CUT, .PWR_CH_STAT_LIMIT, .PWR_CH_STAT_PG, .PWR_CH_STAT_RETRIES_LEFT,
      .PWR_CH_STAT_REV_BLOCK, .PWR_CH_STAT_SEATED, .PWR_CH_STAT_STATE, .PWR_CH_STAT_WARN, .PWR_FAULT_TIMER_RETRY_COUNT,
      .PWR_FAULT_TIMER_TIMER, .PWR_FEED_SEL_DEAD_US, .PWR_FEED_SEL_FEED_A_EN, .PWR_FEED_SEL_FEED_B_EN, .PWR_FEED_SEL_FORCE,
      .PWR_FEED_SEL_PRIO, .PWR_FEED_SEL_REVERT, .PWR_FEED_SEL_WARN_ON_SWITCH, .PWR_LIMIT_ILIM, .PWR_LIMIT_RAMP,
      .PWR_LIMIT_TFET_MAX, .PWR_SNAP_CYCLE, .PWR_SNAP_IOUT, .PWR_SNAP_IPEAK, .PWR_SNAP_TFET, .PWR_SNAP_VFA, .PWR_SNAP_VFB,
      .PWR_SNAP_VOUT, .PWR_TELEM_IOUT, .PWR_TELEM_IPEAK, .PWR_TELEM_TFET, .PWR_TELEM_VFA, .PWR_TELEM_VFB, .PWR_TELEM_VOUT,
      .PWR_UVOV_OV, .PWR_UVOV_UV]) ++ onFam .face fCnt, cnts := [.guard, .pwr, .face], vars := [.elogSeq, .msixPend, .pwCause,
      .pwDead, .pwEnergy, .pwFault, .pwIdle, .pwReset, .pwSwitch], fifos := [.elog, .faceWrote, .viWrote], parts := [.greqs, .out]
      }

theorem unwarnedCut_in {F : Foot} (hF : Foot.unwarnedCut.le F = true) (c cause : Nat) (first : Upd) (h_first : first.In F) :
    (unwarnedCut c cause first).In F := by
  unfold unwarnedCut
  repeat' first
      | (with_reducible first | exact all_nil_in | refine all_cons_in ?_ ?_ | refine look_in fun _ => ?_ | refine when_in ?_)
      | with_reducible exact h_first
      | ((with_reducible refine assertWarn_in ?_ ..); (· exact Foot.le_trans (Foot.le_of_runs (by decide +kernel)) hF))
      | ((with_reducible refine cut_in ?_ ..); (· exact Foot.le_trans (Foot.le_of_runs (by decide +kernel)) hF))
      | split
      | dsimp only

def Foot.faultExpires : Foot :=
  { regs := onFam .guard (errFields ++ fCnt ++ [.GUARD_ELOG_CTRL_LOST]) ++ onFam .pwr (errFields ++ fCnt ++ [.PWR_CH_STAT_PG,
      .PWR_CH_STAT_STATE, .PWR_CH_STAT_WARN]) ++ onFam .face fCnt, cnts := [.guard, .pwr, .face], vars := [.elogSeq, .msixPend,
      .pwCause, .pwFault, .pwSwitch], fifos := [.elog, .faceWrote, .viWrote], parts := [.greqs, .out] }

theorem faultExpires_in {F : Foot} (hF : Foot.faultExpires.le F = true) (c : Nat) :
    (faultExpires c).In F := by
  unfold faultExpires
  repeat' first
      | (with_reducible first | exact all_nil_in | refine all_cons_in ?_ ?_ | refine look_in fun _ => ?_)
      | ((with_reducible refine put_in ?_); (· exact le_vars hF (by decide +kernel)))
      | ((with_reducible refine wr_in ?_ ?_); (· first | exact hdr_mem rfl (by decide +kernel) | exact own_mem (show _ ∈ tabPWR by decide +kernel)); (· first | exact le_regs hF (show (Fam.face, _) ∈ _ by decide +kernel) | exact le_regs hF (show (Fam.pwr, _) ∈ _ by decide +kernel)))
      | ((with_reducible refine bump_in ?_ ?_ ..); (· rfl); (· first | exact Foot.le_trans (F := Foot.counting .pwr) (by decide +kernel) hF))
      | ((with_reducible refine chanRaise_in ?_ ..); (· exact Foot.le_trans (Foot.le_of_runs (by decide +kernel)) hF))
      | ((with_reducible refine warnCut_in ?_ _ _ _ (?_)); (· exact Foot.le_trans (Foot.le_of_runs (by decide +kernel)) hF); skip)
      | split
      | dsimp only

def Foot.chanOff : Foot :=
  { regs := onFam .pwr [.PWR_CH_STAT_STATE, .PWR_CH_STAT_WARN], vars := [.pwCause, .pwSwitch], parts := [.greqs] }

theorem chanOff_in {F : Foot} (hF : Foot.chanOff.le F = true) (c : Nat) :
    (chanOff c).In F := by
  unfold chanOff
  repeat' first
      | (with_reducible first | exact skip_in | refine look_in fun _ => ?_ | refine ite_in ?_ ?_)
      | ((with_reducible refine chanTo_in ?_ ..); (· exact Foot.le_trans (Foot.le_of_runs (by decide +kernel)) hF))
      | ((with_reducible refine warnCut_in ?_ _ _ _ (?_)); (· exact Foot.le_trans (Foot.le_of_runs (by decide +kernel)) hF); skip)
      | split
      | dsimp only

def Foot.breakTo : Foot :=
  { vars := [.pwDead, .pwSwitch] }

theorem breakTo_in {F : Foot} (hF : Foot.breakTo.le F = true) (c : Nat) (b : Bool) :
    (breakTo c b).In F := by
  unfold breakTo
  repeat' first
      | (with_reducible first | exact all_nil_in | refine all_cons_in ?_ ?_)
      | ((with_reducible refine put_in ?_); (· exact le_vars hF (by decide +kernel)))
      | split
      | dsimp only

def Foot.switchTo : Foot :=
  { regs := onFam .pwr [.PWR_CH_STAT_STATE, .PWR_CH_STAT_WARN], vars := [.pwCause, .pwDead, .pwSwitch], parts := [.greqs] }

theorem switchTo_in {F : Foot} (hF : Foot.switchTo.le F = true) (c : Nat) (b : Bool) :
    (switchTo c b).In F := by
  unfold switchTo
  repeat' first
      | (with_reducible first | exact all_nil_in | refine all_cons_in ?_ ?_ | refine look_in fun _ => ?_ | refine when_in ?_ | refine ite_in ?_ ?_)
      | ((with_reducible refine put_in ?_); (· exact le_vars hF (by decide +kernel)))
      | ((with_reducible refine assertWarn_in ?_ ..); (· exact Foot.le_trans (Foot.le_of_runs (by decide +kernel)) hF))
      | ((with_reducible refine breakTo_in ?_ ..); (· exact Foot.le_trans (Foot.le_of_runs (by decide +kernel)) hF))
      | ((with_reducible refine chanTo_in ?_ ..); (· exact Foot.le_trans (Foot.le_of_runs (by decide +kernel)) hF))
      | split
      | dsimp only

def Foot.pwrCfgWrite : Foot :=
  { regs := onFam .guard (errFields ++ fCnt ++ [.GUARD_ELOG_CTRL_LOST]) ++ onFam .pwr (errFields ++ [.PWR_CH_CFG_BIND_EN,
      .PWR_CH_CFG_CLEAR, .PWR_CH_CFG_EN, .PWR_CH_CFG_INS_DELAY, .PWR_CH_CFG_PORT, .PWR_CH_CFG_WARN_LEAD,
      .PWR_CH_STAT_RETRIES_LEFT, .PWR_CH_STAT_STATE, .PWR_CH_STAT_WARN]) ++ onFam .face fCnt, cnts := [.guard, .face], vars :=
      [.elogSeq, .msixPend, .pwCause, .pwSwitch], fifos := [.elog, .faceWrote, .viWrote], parts := [.greqs, .out] }

theorem pwrCfgWrite_in {F : Foot} (hF : Foot.pwrCfgWrite.le F = true) (st : Stamp) (c v : Nat) :
    (pwrCfgWrite st c v).In F := by
  unfold pwrCfgWrite
  repeat' first
      | (with_reducible first | exact all_nil_in | refine all_cons_in ?_ ?_ | refine look_in fun _ => ?_ | refine when_in ?_ | refine ite_in ?_ ?_)
      | ((with_reducible refine plainWrite_in ?_ _ _); (· first | exact fun fi m => le_regs hF ((show ∀ fi ∈ atOff (tabHDR ++ tabPWR) 0x100, (Fam.pwr, fi.1) ∈ Foot.pwrCfgWrite.regs by decide +kernel) fi m)))
      | ((with_reducible refine chanOff_in ?_ ..); (· exact Foot.le_trans (Foot.le_of_runs (by decide +kernel)) hF))
      | ((with_reducible refine chanRaise_in ?_ ..); (· exact Foot.le_trans (Foot.le_of_runs (by decide +kernel)) hF))
      | ((with_reducible refine chanStart_in ?_ ..); (· exact Foot.le_trans (Foot.le_of_runs (by decide +kernel)) hF))
      | ((with_reducible refine reloadRetries_in ?_ ..); (· exact Foot.le_trans (Foot.le_of_runs (by decide +kernel)) hF))
      | split
      | dsimp only

def Foot.feedSelWrite : Foot :=
  { regs := onFam .guard (errFields ++ fCnt ++ [.GUARD_ELOG_CTRL_LOST]) ++ onFam .pwr (errFields ++ [.PWR_CH_STAT_A_OK,
      .PWR_CH_STAT_B_OK, .PWR_CH_STAT_STATE, .PWR_CH_STAT_WARN, .PWR_FEED_SEL_DEAD_US, .PWR_FEED_SEL_FEED_A_EN,
      .PWR_FEED_SEL_FEED_B_EN, .PWR_FEED_SEL_FORCE, .PWR_FEED_SEL_PRIO, .PWR_FEED_SEL_REVERT, .PWR_FEED_SEL_WARN_ON_SWITCH]) ++
      onFam .face fCnt, cnts := [.guard, .face], vars := [.elogSeq, .msixPend, .pwCause, .pwDead, .pwSwitch], fifos := [.elog,
      .faceWrote, .viWrote], parts := [.greqs, .out] }

theorem feedSelWrite_in {F : Foot} (hF : Foot.feedSelWrite.le F = true) (st : Stamp) (c v : Nat) :
    (feedSelWrite st c v).In F := by
  unfold feedSelWrite
  repeat' first
      | (with_reducible first | exact all_nil_in | refine all_cons_in ?_ ?_ | refine look_in fun _ => ?_ | refine when_in ?_ | refine ite_in ?_ ?_)
      | ((with_reducible refine plainWrite_in ?_ _ _); (· first | exact fun fi m => le_regs hF ((show ∀ fi ∈ atOff (tabHDR ++ tabPWR) 0x108, (Fam.pwr, fi.1) ∈ Foot.feedSelWrite.regs by decide +kernel) fi m)))
      | ((with_reducible refine chanRaise_in ?_ ..); (· exact Foot.le_trans (Foot.le_of_runs (by decide +kernel)) hF))
      | ((with_reducible refine setFeed_in ?_ ..); (· exact Foot.le_trans (Foot.le_of_runs (by decide +kernel)) hF))
      | ((with_reducible refine switchTo_in ?_ ..); (· exact Foot.le_trans (Foot.le_of_runs (by decide +kernel)) hF))
      | split
      | dsimp only

def Foot.uvovWrite : Foot :=
  { regs := onFam .guard (errFields ++ fCnt ++ [.GUARD_ELOG_CTRL_LOST]) ++ onFam .pwr (errFields ++ [.PWR_UVOV_OV, .PWR_UVOV_UV]) ++
      onFam .face fCnt, cnts := [.guard, .face], vars := [.elogSeq, .msixPend], fifos := [.elog, .faceWrote, .viWrote], parts :=
      [.greqs, .out] }

theorem uvovWrite_in {F : Foot} (hF : Foot.uvovWrite.le F = true) (st : Stamp) (c v : Nat) :
    (uvovWrite st c v).In F := by
  unfold uvovWrite
  repeat' first
      | (with_reducible first | refine ite_in ?_ ?_)
      | ((with_reducible refine plainWrite_in ?_ _ _); (· first | exact fun fi m => le_regs hF ((show ∀ fi ∈ atOff (tabHDR ++ tabPWR) 0x114, (Fam.pwr, fi.1) ∈ Foot.uvovWrite.regs by decide +kernel) fi m)))
      | ((with_reducible refine chanRaise_in ?_ ..); (· exact Foot.le_trans (Foot.le_of_runs (by decide +kernel)) hF))
      | split
      | dsimp only

def Foot.chanTick : Foot :=
  { regs := onFam .pwr (fCnt ++ [.PWR_CH_STAT_STATE, .PWR_CH_STAT_WARN]) ++ onFam .face fCnt, cnts := [.pwr, .face], vars :=
      [.msixPend, .pwCause, .pwDead, .pwFault, .pwIdle, .pwSwitch], fifos := [.faceWrote, .viWrote], parts := [.greqs, .out] }

theorem chanTick_in {F : Foot} (hF : Foot.chanTick.le F = true)  :
    (chanTick).In F := by
  unfold chanTick
  repeat' first
      | (with_reducible first | exact skip_in | exact all_nil_in | refine all_cons_in ?_ ?_ | refine look_in fun _ => ?_ | refine when_in ?_ | refine ite_in ?_ ?_ | refine forBelow_in fun _ => ?_)
      | ((with_reducible refine put_in ?_); (· exact le_vars hF (by decide +kernel)))
      | ((with_reducible refine modIv_in ?_); (· exact le_vars hF (by decide +kernel)))
      | ((with_reducible refine bump_in ?_ ?_ ..); (· rfl); (· first | exact Foot.le_trans (F := Foot.counting .pwr) (by decide +kernel) hF))
      | ((with_reducible refine chanStart_in ?_ ..); (· exact Foot.le_trans (Foot.le_of_runs (by decide +kernel)) hF))
      | ((with_reducible refine switchTo_in ?_ ..); (· exact Foot.le_trans (Foot.le_of_runs (by decide +kernel)) hF))
      | split
      | dsimp only

end Sys2Proof.Machine
end

