-- ==== Sys2Proof/Laws/FrameMgmt.lean ====
section
/-! SUPPORT. What each update of Machine/Mgmt.lean may touch. -/

namespace Sys2Proof.Machine

set_option Elab.async false
set_option linter.unusedTactic false
set_option linter.unreachableTactic false

def Foot.fwRestart : Foot :=
  { regs := onFam .mgmt (errFields ++ fCnt ++ [.MGMT_FW_STAT_RESTARTS, .MGMT_FW_STAT_STATE]) ++ onFam .guard (errFields ++ fCnt ++
      [.GUARD_ELOG_CTRL_LOST]) ++ onFam .mbox (fCnt ++ [.MBOX_SEM_PEEK_HELD, .MBOX_SEM_PEEK_OWNER]) ++ onFam .face fCnt, cnts :=
      [.mgmt, .guard, .mbox, .face], vars := [.elogSeq, .fwEpoch, .fwSel, .fwUnconf, .msixPend], fifos := [.elog, .faceWrote,
      .fwTimes, .viWrote], parts := [.greqs, .out] }

theorem fwRestart_in {F : Foot} (hF : Foot.fwRestart.le F = true)  :
    (fwRestart).In F := by
  unfold fwRestart
  repeat' first
      | (with_reducible first | exact all_nil_in | refine all_cons_in ?_ ?_ | refine look_in fun _ => ?_ | refine ite_in ?_ ?_)
      | ((with_reducible refine put_in ?_); (· exact le_vars hF (by decide +kernel)))
      | ((with_reducible refine putFifo_in ?_); (· exact le_fifos hF (by decide +kernel)))
      | ((with_reducible refine wr_in ?_ ?_); (· first | exact hdr_mem rfl (by decide +kernel) | exact own_mem (show _ ∈ tabGUARD0 by decide +kernel) | exact own_mem (show _ ∈ tabMGMT0 by decide +kernel)); (· first | exact le_regs hF (show (Fam.face, _) ∈ _ by decide +kernel) | exact le_regs hF (show (Fam.guard, _) ∈ _ by decide +kernel) | exact le_regs hF (show (Fam.mgmt, _) ∈ _ by decide +kernel)))
      | ((with_reducible refine bump_in ?_ ?_ ..); (· rfl); (· first | exact Foot.le_trans (F := Foot.counting .mgmt) (by decide +kernel) hF))
      | ((with_reducible refine raise_in ?_ ?_ ..); (· rfl); (· first | exact Foot.le_trans (F := Foot.error .mgmt) (by decide +kernel) hF))
      | ((with_reducible refine firmwareStarts_in ?_ ..); (· exact Foot.le_trans (Foot.le_of_runs (by decide +kernel)) hF))
      | split
      | dsimp only

def Foot.wdWrite : Foot :=
  { regs := onFam .mgmt [.MGMT_WD_KEY, .MGMT_WD_KICK, .MGMT_WD_TIMEOUT_MS], vars := [.wdAt] }

theorem wdWrite_in {F : Foot} (hF : Foot.wdWrite.le F = true) (st : Stamp) (v : Nat) :
    (wdWrite st v).In F := by
  unfold wdWrite
  repeat' first
      | (with_reducible first | exact all_nil_in | refine all_cons_in ?_ ?_ | refine look_in fun _ => ?_ | refine when_in ?_)
      | ((with_reducible refine put_in ?_); (· exact le_vars hF (by decide +kernel)))
      | ((with_reducible refine plainWrite_in ?_ _ _); (· first | exact fun fi m => le_regs hF ((show ∀ fi ∈ atOff (tabHDR ++ tabMGMT0) 0x108, (Fam.mgmt, fi.1) ∈ Foot.wdWrite.regs by decide +kernel) fi m)))
      | split
      | dsimp only

def Foot.imgStatus : Foot :=
  { regs := onFam .mgmt [.MGMT_IMG_CTRL_STATUS] }

theorem imgStatus_in {F : Foot} (hF : Foot.imgStatus.le F = true) (code : Nat) :
    (imgStatus code).In F := by
  unfold imgStatus
  repeat' first
      | ((with_reducible refine wr_in ?_ ?_); (· first | exact own_mem (show _ ∈ tabMGMT0 by decide +kernel)); (· first | exact le_regs hF (show (Fam.mgmt, _) ∈ _ by decide +kernel)))
      | split
      | dsimp only

def Foot.imgEnds : Foot :=
  { regs := onFam .mgmt [.MGMT_IMG_CTRL_BUSY, .MGMT_IMG_CTRL_STATUS], vars := [.imgBytes, .imgLen, .imgSt] }

theorem imgEnds_in {F : Foot} (hF : Foot.imgEnds.le F = true) (code : Nat) :
    (imgEnds code).In F := by
  unfold imgEnds
  repeat' first
      | (with_reducible first | exact all_nil_in | refine all_cons_in ?_ ?_)
      | ((with_reducible refine put_in ?_); (· exact le_vars hF (by decide +kernel)))
      | ((with_reducible refine wr_in ?_ ?_); (· first | exact own_mem (show _ ∈ tabMGMT0 by decide +kernel)); (· first | exact le_regs hF (show (Fam.mgmt, _) ∈ _ by decide +kernel)))
      | ((with_reducible refine imgStatus_in ?_ ..); (· exact Foot.le_trans (Foot.le_of_runs (by decide +kernel)) hF))
      | split
      | dsimp only

def Foot.dirRewrite : Foot :=
  { vars := [.dirSeq, .dirSlot] }

theorem dirRewrite_in {F : Foot} (hF : Foot.dirRewrite.le F = true)  :
    (dirRewrite).In F := by
  unfold dirRewrite
  repeat' first
      | (with_reducible first | exact all_nil_in | refine all_cons_in ?_ ?_ | refine look_in fun _ => ?_ | refine forBelow_in fun _ => ?_)
      | ((with_reducible refine put_in ?_); (· exact le_vars hF (by decide +kernel)))
      | split
      | dsimp only

def Foot.slotSet : Foot :=
  { vars := [.dirSeq, .dirSlot, .slotState] }

theorem slotSet_in {F : Foot} (hF : Foot.slotSet.le F = true) (k st : Nat) :
    (slotSet k st).In F := by
  unfold slotSet
  repeat' first
      | (with_reducible first | exact all_nil_in | refine all_cons_in ?_ ?_)
      | ((with_reducible refine put_in ?_); (· exact le_vars hF (by decide +kernel)))
      | ((with_reducible refine dirRewrite_in ?_ ..); (· exact Foot.le_trans (Foot.le_of_runs (by decide +kernel)) hF))
      | split
      | dsimp only

def Foot.imgStart : Foot :=
  { regs := onFam .mgmt [.MGMT_IMG_CTRL_BUSY, .MGMT_IMG_CTRL_INSTALLER, .MGMT_IMG_CTRL_KIND, .MGMT_IMG_CTRL_STATUS], vars :=
      [.dirSeq, .dirSlot, .imgBytes, .imgKind, .imgSt, .slotState, .slotTries] }

theorem imgStart_in {F : Foot} (hF : Foot.imgStart.le F = true) (st kind : Nat) :
    (imgStart st kind).In F := by
  unfold imgStart
  repeat' first
      | (with_reducible first | exact all_nil_in | refine all_cons_in ?_ ?_ | refine look_in fun _ => ?_ | refine when_in ?_ | refine ite_in ?_ ?_)
      | ((with_reducible refine put_in ?_); (· exact le_vars hF (by decide +kernel)))
      | ((with_reducible refine wr_in ?_ ?_); (· first | exact own_mem (show _ ∈ tabMGMT0 by decide +kernel)); (· first | exact le_regs hF (show (Fam.mgmt, _) ∈ _ by decide +kernel)))
      | ((with_reducible refine dirRewrite_in ?_ ..); (· exact Foot.le_trans (Foot.le_of_runs (by decide +kernel)) hF))
      | ((with_reducible refine imgStatus_in ?_ ..); (· exact Foot.le_trans (Foot.le_of_runs (by decide +kernel)) hF))
      | ((with_reducible refine slotSet_in ?_ ..); (· exact Foot.le_trans (Foot.le_of_runs (by decide +kernel)) hF))
      | split
      | dsimp only

def Foot.imgChunk : Foot :=
  { regs := onFam .mgmt (errFields ++ [.MGMT_IMG_CTRL_BUSY, .MGMT_IMG_CTRL_STATUS]) ++ onFam .guard (errFields ++ fCnt ++
      [.GUARD_ELOG_CTRL_LOST]) ++ onFam .face fCnt, cnts := [.guard, .face], vars := [.elogSeq, .imgBytes, .imgLen, .imgSt,
      .msixPend], fifos := [.elog, .faceWrote, .viWrote], parts := [.greqs, .out] }

theorem imgChunk_in {F : Foot} (hF : Foot.imgChunk.le F = true) (st off len : Nat) :
    (imgChunk st off len).In F := by
  unfold imgChunk
  repeat' first
      | (with_reducible first | exact all_nil_in | refine all_cons_in ?_ ?_ | refine look_in fun _ => ?_ | refine ite_in ?_ ?_)
      | ((with_reducible refine put_in ?_); (· exact le_vars hF (by decide +kernel)))
      | ((with_reducible refine wr_in ?_ ?_); (· first | exact hdr_mem rfl (by decide +kernel) | exact own_mem (show _ ∈ tabGUARD0 by decide +kernel) | exact own_mem (show _ ∈ tabMGMT0 by decide +kernel)); (· first | exact le_regs hF (show (Fam.face, _) ∈ _ by decide +kernel) | exact le_regs hF (show (Fam.guard, _) ∈ _ by decide +kernel) | exact le_regs hF (show (Fam.mgmt, _) ∈ _ by decide +kernel)))
      | ((with_reducible refine raise_in ?_ ?_ ..); (· rfl); (· first | exact Foot.le_trans (F := Foot.error .mgmt) (by decide +kernel) hF))
      | ((with_reducible refine imgEnds_in ?_ ..); (· exact Foot.le_trans (Foot.le_of_runs (by decide +kernel)) hF))
      | ((with_reducible refine imgStatus_in ?_ ..); (· exact Foot.le_trans (Foot.le_of_runs (by decide +kernel)) hF))
      | split
      | dsimp only

def Foot.imgFinish : Foot :=
  { regs := onFam .mgmt [.MGMT_IMG_CTRL_BUSY, .MGMT_IMG_CTRL_STATUS], vars := [.imgSt] }

theorem imgFinish_in {F : Foot} (hF : Foot.imgFinish.le F = true) (st : Nat) :
    (imgFinish st).In F := by
  unfold imgFinish
  repeat' first
      | (with_reducible first | exact all_nil_in | refine all_cons_in ?_ ?_ | refine look_in fun _ => ?_ | refine ite_in ?_ ?_)
      | ((with_reducible refine put_in ?_); (· exact le_vars hF (by decide +kernel)))
      | ((with_reducible refine wr_in ?_ ?_); (· first | exact own_mem (show _ ∈ tabMGMT0 by decide +kernel)); (· first | exact le_regs hF (show (Fam.mgmt, _) ∈ _ by decide +kernel)))
      | ((with_reducible refine imgStatus_in ?_ ..); (· exact Foot.le_trans (Foot.le_of_runs (by decide +kernel)) hF))
      | split
      | dsimp only

def Foot.imgAbort : Foot :=
  { regs := onFam .mgmt [.MGMT_IMG_CTRL_BUSY, .MGMT_IMG_CTRL_STATUS], vars := [.imgBytes, .imgLen, .imgSt] }

theorem imgAbort_in {F : Foot} (hF : Foot.imgAbort.le F = true)  :
    (imgAbort).In F := by
  unfold imgAbort
  repeat' first
      | (with_reducible first | refine look_in fun _ => ?_ | refine when_in ?_)
      | ((with_reducible refine imgEnds_in ?_ ..); (· exact Foot.le_trans (Foot.le_of_runs (by decide +kernel)) hF))
      | split
      | dsimp only

def Foot.imgCtrlWrite : Foot :=
  { regs := onFam .mgmt [.MGMT_IMG_CTRL_ABORT, .MGMT_IMG_CTRL_BUSY, .MGMT_IMG_CTRL_FINISH, .MGMT_IMG_CTRL_INSTALLER,
      .MGMT_IMG_CTRL_KIND, .MGMT_IMG_CTRL_START, .MGMT_IMG_CTRL_STATUS], vars := [.dirSeq, .dirSlot, .imgBytes, .imgKind, .imgLen,
      .imgSt, .slotState, .slotTries] }

theorem imgCtrlWrite_in {F : Foot} (hF : Foot.imgCtrlWrite.le F = true) (st : Stamp) (v : Nat) :
    (imgCtrlWrite st v).In F := by
  unfold imgCtrlWrite
  repeat' first
      | (with_reducible first | exact all_nil_in | refine all_cons_in ?_ ?_ | refine when_in ?_)
      | ((with_reducible refine plainWrite_in ?_ _ _); (· first | exact fun fi m => le_regs hF ((show ∀ fi ∈ atOff (tabHDR ++ tabMGMT0) 0x200, (Fam.mgmt, fi.1) ∈ Foot.imgCtrlWrite.regs by decide +kernel) fi m)))
      | ((with_reducible refine imgAbort_in ?_ ..); (· exact Foot.le_trans (Foot.le_of_runs (by decide +kernel)) hF))
      | ((with_reducible refine imgFinish_in ?_ ..); (· exact Foot.le_trans (Foot.le_of_runs (by decide +kernel)) hF))
      | ((with_reducible refine imgStart_in ?_ ..); (· exact Foot.le_trans (Foot.le_of_runs (by decide +kernel)) hF))
      | split
      | dsimp only

def Foot.imgChunkWrite : Foot :=
  { regs := onFam .mgmt (errFields ++ [.MGMT_IMG_CHUNK_GO, .MGMT_IMG_CHUNK_LEN_M1, .MGMT_IMG_CTRL_BUSY, .MGMT_IMG_CTRL_STATUS]) ++
      onFam .guard (errFields ++ fCnt ++ [.GUARD_ELOG_CTRL_LOST]) ++ onFam .face fCnt, cnts := [.guard, .face], vars := [.elogSeq,
      .imgBytes, .imgLen, .imgSt, .msixPend], fifos := [.elog, .faceWrote, .viWrote], parts := [.greqs, .out] }

theorem imgChunkWrite_in {F : Foot} (hF : Foot.imgChunkWrite.le F = true) (st : Stamp) (v : Nat) :
    (imgChunkWrite st v).In F := by
  unfold imgChunkWrite
  repeat' first
      | (with_reducible first | exact all_nil_in | refine all_cons_in ?_ ?_ | refine look_in fun _ => ?_ | refine when_in ?_)
      | ((with_reducible refine plainWrite_in ?_ _ _); (· first | exact fun fi m => le_regs hF ((show ∀ fi ∈ atOff (tabHDR ++ tabMGMT0) 0x204, (Fam.mgmt, fi.1) ∈ Foot.imgChunkWrite.regs by decide +kernel) fi m)))
      | ((with_reducible refine imgChunk_in ?_ ..); (· exact Foot.le_trans (Foot.le_of_runs (by decide +kernel)) hF))
      | split
      | dsimp only

def Foot.mctpIn : Foot :=
  { regs := onFam .mgmt fCnt ++ onFam .face fCnt, cnts := [.mgmt, .face], vars := [.msixPend], fifos := [.faceWrote, .viWrote],
      parts := [.out] }

theorem mctpIn_in {F : Foot} (hF : Foot.mctpIn.le F = true) (k : Nat) (u : Upd) (h_u : u.In F) :
    (mctpIn k u).In F := by
  unfold mctpIn
  repeat' first
      | (with_reducible first | exact all_nil_in | refine all_cons_in ?_ ?_ | refine look_in fun _ => ?_ | refine when_in ?_)
      | with_reducible exact h_u
      | ((with_reducible refine bump_in ?_ ?_ ..); (· rfl); (· first | exact Foot.le_trans (F := Foot.counting .mgmt) (by decide +kernel) hF))
      | split
      | dsimp only

def Foot.stoux : Foot :=
  { regs := onFam .mgmt fCnt ++ onFam .face fCnt, cnts := [.mgmt, .face], vars := [.msixPend], fifos := [.faceWrote, .viWrote],
      parts := [.out] }

theorem stoux_in {F : Foot} (hF : Foot.stoux.le F = true) (k cmd : Nat) (u : Upd) (h_u : u.In F) :
    (stoux k cmd u).In F := by
  unfold stoux
  repeat' first
      | (with_reducible first | refine look_in fun _ => ?_ | refine ite_in ?_ ?_)
      | with_reducible exact h_u
      | ((with_reducible refine emit_in ?_); (· exact le_parts hF (by decide +kernel)))
      | ((with_reducible refine mctpIn_in ?_ _ _ (?_)); (· exact Foot.le_trans (Foot.le_of_runs (by decide +kernel)) hF); skip)
      | split
      | dsimp only

def Foot.imgReply : Foot :=
  { parts := [.out] }

theorem imgReply_in {F : Foot} (hF : Foot.imgReply.le F = true) (k cmd status : Nat) :
    (imgReply k cmd status).In F := by
  unfold imgReply
  repeat' first
      | (with_reducible first | refine ite_in ?_ ?_)
      | ((with_reducible refine emit_in ?_); (· exact le_parts hF (by decide +kernel)))
      | split
      | dsimp only

def Foot.gatherSkip : Foot :=
  { regs := onFam .mgmt (errFields ++ fCnt) ++ onFam .guard (errFields ++ fCnt ++ [.GUARD_ELOG_CTRL_LOST]) ++ onFam .face fCnt, cnts
      := [.mgmt, .guard, .face], vars := [.elogSeq, .gatherSkips, .msixPend], fifos := [.elog, .faceWrote, .viWrote], parts :=
      [.greqs, .out] }

theorem gatherSkip_in {F : Foot} (hF : Foot.gatherSkip.le F = true) (noGrant : Bool) :
    (gatherSkip noGrant).In F := by
  unfold gatherSkip
  repeat' first
      | (with_reducible first | exact all_nil_in | refine all_cons_in ?_ ?_ | refine ite_in ?_ ?_)
      | ((with_reducible refine modIv_in ?_); (· exact le_vars hF (by decide +kernel)))
      | ((with_reducible refine bump_in ?_ ?_ ..); (· rfl); (· first | exact Foot.le_trans (F := Foot.counting .mgmt) (by decide +kernel) hF))
      | ((with_reducible refine raise_in ?_ ?_ ..); (· rfl); (· first | exact Foot.le_trans (F := Foot.error .mgmt) (by decide +kernel) hF))
      | split
      | dsimp only

def Foot.hostWrite : Foot :=
  { regs := onFam .guard (errFields ++ fCnt ++ [.GUARD_ELOG_CTRL_LOST]) ++ onFam .core (fCnt ++ [.CORE_WM_STAT_WM_CROSS_CNT,
      .CORE_WM_STAT_WM_EVENT, .CORE_WM_STAT_WM_LEVEL]) ++ onFam .route (errFields ++ fCnt) ++ onFam .bridge (errFields ++ fCnt ++
      [.BRIDGE_LOCK_STAT_HOLDER, .BRIDGE_LOCK_STAT_LOCKED, .BRIDGE_PROOF_WM_STAT_WM_CROSS_CNT, .BRIDGE_PROOF_WM_STAT_WM_EVENT,
      .BRIDGE_PROOF_WM_STAT_WM_LEVEL]) ++ onFam .face (errFields ++ fCnt) ++ onFam .schedg fCnt, cnts := [.guard, .core, .route,
      .bridge, .face, .schedg], vars := [.cbsAt, .cbsCr, .elogSeq, .lockDest, .msixPend, .pcieSent, .pktId, .polAt, .polC, .polP,
      .redAvg, .stipCnt, .stipSeq, .tagEp], fifos := [.elog, .faceWrote, .missLog, .viWrote], parts := [.buf, .free, .greqs, .out,
      .prefs, .slots, .streams, .waiting] }

theorem hostWrite_in {F : Foot} (hF : Foot.hostWrite.le F = true) (f fuel a : Nat) (ws : List Word) : (hostWrite f fuel a ws).In F := by
  induction fuel generalizing a ws with
  | zero => exact skip_in
  | succ k ih =>
    refine look_in fun s => when_in ?_
    refine all_cons_in ?_ (all_cons_in (noteIn_in (le_fifos hF (by decide +kernel)) _ _ _) (all_cons_in (ih _ _) all_nil_in))
    exact toHost_in (Foot.le_trans (Foot.le_of_runs (by decide +kernel)) hF) _ _ _ _

def Foot.gatherBase : Foot :=
  { regs := onFam .mgmt (errFields ++ [.MGMT_GATHER_BASE_ADDR, .MGMT_GATHER_BASE_ADDR_HI]) ++ onFam .guard (errFields ++ fCnt ++
      [.GUARD_ELOG_CTRL_LOST]) ++ onFam .face fCnt, cnts := [.guard, .face], vars := [.elogSeq, .msixPend], fifos := [.elog,
      .faceWrote, .viWrote], parts := [.greqs, .out] }

theorem gatherBase_in {F : Foot} (hF : Foot.gatherBase.le F = true) (st : Stamp) (hi lo : Nat) :
    (gatherBase st hi lo).In F := by
  unfold gatherBase
  repeat' first
      | (with_reducible first | exact all_nil_in | refine all_cons_in ?_ ?_ | refine look_in fun _ => ?_ | refine ite_in ?_ ?_)
      | ((with_reducible refine raise_in ?_ ?_ ..); (· rfl); (· first | exact Foot.le_trans (F := Foot.error .mgmt) (by decide +kernel) hF))
      | ((with_reducible refine plainWrite_in ?_ _ _); (· first | exact fun fi m => le_regs hF ((show ∀ fi ∈ atOff (tabHDR ++ tabMGMT1) 0x108, (Fam.mgmt, fi.1) ∈ Foot.gatherBase.regs by decide +kernel) fi m) | exact fun fi m => le_regs hF ((show ∀ fi ∈ atOff (tabHDR ++ tabMGMT1) 0x10C, (Fam.mgmt, fi.1) ∈ Foot.gatherBase.regs by decide +kernel) fi m)))
      | split
      | dsimp only

def Foot.gatherWrite : Foot :=
  { regs := onFam .mgmt (errFields ++ [.MGMT_GATHER_BASE_ADDR, .MGMT_GATHER_BASE_ADDR_HI, .MGMT_GATHER_CTRL_COUNT,
      .MGMT_GATHER_CTRL_EN, .MGMT_GATHER_CTRL_EVERY_LOG2, .MGMT_GATHER_CTRL_FREE_EN, .MGMT_GATHER_CTRL_GFACE,
      .MGMT_GATHER_LIST_INDEX, .MGMT_GATHER_LIST_PAGE, .MGMT_GATHER_PHASE_PHASE, .MGMT_GATHER_RING_SLOTS_LOG2,
      .MGMT_GATHER_RING_SLOT_LOG2, .MGMT_GATHER_STAT_BUSY, .MGMT_GATHER_STAT_LAST_SKEW, .MGMT_GATHER_STAT_SEQ]) ++ onFam .guard
      (errFields ++ fCnt ++ [.GUARD_ELOG_CTRL_LOST]) ++ onFam .face fCnt, cnts := [.guard, .face], vars := [.elogSeq, .gatherGen,
      .gatherSeq, .gatherSkips, .msixPend], fifos := [.elog, .faceWrote, .viWrote], parts := [.greqs, .out] }

theorem gatherWrite_in {F : Foot} (hF : Foot.gatherWrite.le F = true) (st : Stamp) (off v : Nat) (ho : 0x100 ≤ off) :
    (gatherWrite st off v).In F := by
  unfold gatherWrite
  repeat' first
      | (with_reducible first | exact all_nil_in | refine all_cons_in ?_ ?_ | refine look_in fun _ => ?_ | refine when_in ?_ | refine ite_in ?_ ?_)
      | ((with_reducible refine put_in ?_); (· exact le_vars hF (by decide +kernel)))
      | ((with_reducible refine modIv_in ?_); (· exact le_vars hF (by decide +kernel)))
      | ((with_reducible refine wr_in ?_ ?_); (· first | exact hdr_mem rfl (by decide +kernel) | exact own_mem (show _ ∈ tabGUARD0 by decide +kernel) | exact own_mem (show _ ∈ tabMGMT1 by decide +kernel)); (· first | exact le_regs hF (show (Fam.face, _) ∈ _ by decide +kernel) | exact le_regs hF (show (Fam.guard, _) ∈ _ by decide +kernel) | exact le_regs hF (show (Fam.mgmt, _) ∈ _ by decide +kernel)))
      | ((with_reducible refine raise_in ?_ ?_ ..); (· rfl); (· first | exact Foot.le_trans (F := Foot.error .mgmt) (by decide +kernel) hF))
      | ((with_reducible refine plainWrite_in ?_ _ _); (· first | exact fun fi m => le_regs hF ((show ∀ fi ∈ atOff (tabHDR ++ tabMGMT1) 0x100, (Fam.mgmt, fi.1) ∈ Foot.gatherWrite.regs by decide +kernel) fi m) | exact fun fi m => le_regs hF ((show ∀ f ∈ tabMGMT1, (Fam.mgmt, f) ∈ Foot.gatherWrite.regs by decide +kernel) _ (mem_atOff (by rw [fieldsAt, show (Pg.mgmt 1).fields = tabHDR ++ tabMGMT1 from rfl, atOff_hdr ho] at m; exact m)))))
      | (unfold Fld.MGMT_GATHER_CTRL_COUNT; split)
      | split
      | dsimp only

def Foot.thermThreshWrite : Foot :=
  { regs := onFam .mgmt [.MGMT_THERM_THRESH_THROTTLE, .MGMT_THERM_THRESH_WARN] }

theorem thermThreshWrite_in {F : Foot} (hF : Foot.thermThreshWrite.le F = true) (v : Nat) :
    (thermThreshWrite v).In F := by
  unfold thermThreshWrite
  repeat' first
      | (with_reducible first | exact all_nil_in | refine all_cons_in ?_ ?_ | refine look_in fun _ => ?_)
      | ((with_reducible refine wr_in ?_ ?_); (· first | exact own_mem (show _ ∈ tabMGMT0 by decide +kernel)); (· first | exact le_regs hF (show (Fam.mgmt, _) ∈ _ by decide +kernel)))
      | (unfold Fld.MGMT_THERM_THRESH_THROTTLE; split)
      | (unfold Fld.MGMT_THERM_THRESH_WARN; split)
      | split
      | dsimp only

end Sys2Proof.Machine
end

