-- ==== Sys2Proof/Laws/FrameBoot.lean ====
section
/-! SUPPORT. What each update of Machine/Boot.lean may touch. -/

namespace Sys2Proof.Machine

set_option Elab.async false
set_option linter.unusedTactic false
set_option linter.unreachableTactic false

def Foot.interrupted : Foot :=
  { regs := onFam .glb [.GLB_RESET_CAUSE_INSTALL_ABORT, .GLB_RESET_CAUSE_SAFE_HALT, .GLB_RESET_CAUSE_TURN_DISARMED] }

theorem interrupted_in {F : Foot} (hF : Foot.interrupted.le F = true) (install turn halt : Bool) :
    (interrupted install turn halt).In F := by
  unfold interrupted
  repeat' first
      | (with_reducible first | exact all_nil_in | refine all_cons_in ?_ ?_ | refine when_in ?_)
      | ((with_reducible refine wr_in ?_ ?_); (· first | exact own_mem (show _ ∈ tabGLB by decide +kernel)); (· first | exact le_regs hF (show (Fam.glb, _) ∈ _ by decide +kernel)))
      | split
      | dsimp only

def Foot.cycOutLow : Foot :=
  { parts := [.out] }

theorem cycOutLow_in {F : Foot} (hF : Foot.cycOutLow.le F = true)  :
    (cycOutLow).In F := by
  unfold cycOutLow
  repeat' first
      | (with_reducible first | refine look_in fun _ => ?_ | refine when_in ?_)
      | ((with_reducible refine emit_in ?_); (· exact le_parts hF (by decide +kernel)))
      | split
      | dsimp only

def Foot.haltStays : Foot :=
  { regs := onFam .mgmt [.MGMT_THERM_STAT_STEP], vars := [.thermHold] }

theorem haltStays_in {F : Foot} (hF : Foot.haltStays.le F = true)  :
    (haltStays).In F := by
  unfold haltStays
  repeat' first
      | (with_reducible first | exact all_nil_in | refine all_cons_in ?_ ?_)
      | ((with_reducible refine put_in ?_); (· exact le_vars hF (by decide +kernel)))
      | ((with_reducible refine wr_in ?_ ?_); (· first | exact own_mem (show _ ∈ tabMGMT0 by decide +kernel)); (· first | exact le_regs hF (show (Fam.mgmt, _) ∈ _ by decide +kernel)))
      | split
      | dsimp only

def Foot.warmCause : Foot :=
  { regs := onFam .glb [.GLB_RESET_CAUSE_LAST, .GLB_RESET_CAUSE_WARM_PIN, .GLB_RESET_CAUSE_WARM_REG] }

theorem warmCause_in {F : Foot} (hF : Foot.warmCause.le F = true) (cause : Nat) :
    (warmCause cause).In F := by
  unfold warmCause
  repeat' first
      | (with_reducible first | exact all_nil_in | refine all_cons_in ?_ ?_ | refine ite_in ?_ ?_)
      | ((with_reducible refine wr_in ?_ ?_); (· first | exact own_mem (show _ ∈ tabGLB by decide +kernel)); (· first | exact le_regs hF (show (Fam.glb, _) ∈ _ by decide +kernel)))
      | split
      | dsimp only

def Foot.platesAfterReset : Foot :=
  { regs := onFam .route [.ROUTE_LIVE_SEL_P0_STATE, .ROUTE_LIVE_SEL_P0_VERIFIED, .ROUTE_LIVE_SEL_P1_STATE,
      .ROUTE_LIVE_SEL_P1_VERIFIED] }

theorem platesAfterReset_in {F : Foot} (hF : Foot.platesAfterReset.le F = true)  :
    (platesAfterReset).In F := by
  unfold platesAfterReset
  repeat' first
      | (with_reducible first | exact all_nil_in | refine all_cons_in ?_ ?_ | refine look_in fun _ => ?_)
      | ((with_reducible refine wr_in ?_ ?_); (· first | exact own_mem (show _ ∈ tabROUTE0 by decide +kernel)); (· first | exact le_regs hF (show (Fam.route, _) ∈ _ by decide +kernel)))
      | (unfold plateStateFld; split)
      | (unfold plateVerFld; split)
      | split
      | dsimp only

def Foot.warmEnds : Foot :=
  { regs := onFam .glb [.GLB_DEV_STATE_STATE] ++ onFam .sec (errFields ++ fCnt ++ [.SEC_IDE_STAT_DEV_AUTH, .SEC_IDE_STAT_LINK_ID,
      .SEC_IDE_STAT_LINK_KSET, .SEC_IDE_STAT_LINK_SECURE, .SEC_IDE_STAT_SEL_SECURE, .SEC_IDE_STAT_SEL_VALID,
      .SEC_LINK_STAT_AUTH_OK, .SEC_LINK_STAT_AUTH_STATUS, .SEC_LINK_STAT_PARTNER_DEBUG, .SEC_LINK_STAT_REKEY,
      .SEC_LINK_STAT_REKEYS]) ++ onFam .guard (errFields ++ fCnt ++ [.GDS_DEVICE_BY_SW, .GDS_DEVICE_CLASS, .GDS_DEVICE_HOLD,
      .GDS_DEVICE_MERGED, .GDS_DEVICE_STATE, .GDS_DEVICE_WINDOW, .GDS_FACE_BY_SW, .GDS_FACE_CLASS, .GDS_FACE_HOLD,
      .GDS_FACE_MERGED, .GDS_FACE_STATE, .GDS_FACE_WINDOW, .GDS_INST_BY_SW, .GDS_INST_CLASS, .GDS_INST_HOLD, .GDS_INST_MERGED,
      .GDS_INST_STATE, .GDS_INST_WINDOW, .GDS_LANE_BY_SW, .GDS_LANE_CLASS, .GDS_LANE_HOLD, .GDS_LANE_MERGED, .GDS_LANE_STATE,
      .GDS_LANE_WINDOW, .GDS_LINK_BY_SW, .GDS_LINK_CLASS, .GDS_LINK_HOLD, .GDS_LINK_MERGED, .GDS_LINK_STATE, .GDS_LINK_WINDOW,
      .GDS_PORT_BY_SW, .GDS_PORT_CLASS, .GDS_PORT_HOLD, .GDS_PORT_MERGED, .GDS_PORT_STATE, .GDS_PORT_WINDOW,
      .GUARD_ELOG_CTRL_LOST, .GUARD_HALT_CAUSE_BIT, .GUARD_HALT_CAUSE_BLOCK, .GUARD_HALT_CAUSE_CAUSE, .GUARD_HALT_CAUSE_DINST,
      .GUARD_HALT_CAUSE_VALID]) ++ onFam .lane [.LANE_INJ_CTRL_ONE_SHOT, .LANE_RATE_CFG_RATE_NOW, .LANE_REST_CTRL_IN_REST,
      .LANE_STAT_ALIGN_LOCK, .LANE_STAT_CDR_LOCK, .LANE_STAT_EQ_DONE, .LANE_STAT_EQ_FAIL, .LANE_STAT_EXIT_FAIL, .LANE_STAT_FAILED,
      .LANE_STAT_FEC_LOCK, .LANE_STAT_RX_READY, .LANE_STAT_STATE, .LANE_TX_TAPS_C0, .LANE_TX_TAPS_POST, .LANE_TX_TAPS_PRE] ++
      onFam .core (errFields ++ fCnt ++ [.CORE_WM_STAT_WM_CROSS_CNT, .CORE_WM_STAT_WM_EVENT, .CORE_WM_STAT_WM_LEVEL]) ++ onFam
      .route (errFields ++ fCnt ++ [.ROUTE_TURN_CTRL_ARM, .ROUTE_TURN_CTRL_STATUS]) ++ onFam .bridge (errFields ++ fCnt ++
      [.BRIDGE_FAB_NBR_PARTNER_PORT, .BRIDGE_FAB_NBR_PARTNER_SW, .BRIDGE_FAB_NBR_VALID, .BRIDGE_LOCK_STAT_HOLDER,
      .BRIDGE_LOCK_STAT_LOCKED, .BRIDGE_PROOF_WM_STAT_WM_CROSS_CNT, .BRIDGE_PROOF_WM_STAT_WM_EVENT,
      .BRIDGE_PROOF_WM_STAT_WM_LEVEL]) ++ onFam .port [.PORT_LINK_STAT_ENC, .PORT_LINK_STAT_FLIT, .PORT_LINK_STAT_KEY_PHASE,
      .PORT_LINK_STAT_LANES_GOOD, .PORT_LINK_STAT_RATE_NOW, .PORT_LINK_STAT_STATE, .PORT_LINK_STAT_WIDTH_NOW,
      .PORT_REPLAY_CNT_CONSEC] ++ onFam .face (errFields ++ fCnt ++ [.FACE_BIND_STATE, .FACE_PM_STAT_LINK_PM, .FACE_PRES_SHOWN])
      ++ onFam .schedg fCnt ++ onFam .sched [.SCHED_HATCH_CTRL_ARM, .SCHED_HATCH_STAT_A_STATE, .SCHED_HATCH_STAT_B_STATE], cnts :=
      [.sec, .guard, .core, .route, .bridge, .face, .schedg], vars := [.alignMiss, .alignSeen, .authDebug, .authStep, .badCw,
      .cbsAt, .cbsCr, .crAdv, .crInit, .crUsed, .dieReset, .elogSeq, .eqTimeouts, .haltRel, .hatchAt, .hatchLate, .ideGo, .ideKey,
      .injAlign, .lockDest, .lsSeen, .mkDue, .mkRx, .mkTx, .msixPend, .nakSent, .nextKey, .ownReq, .paramGot, .paramVal,
      .partnerAspm, .partnerMax, .partnerReady, .partnerRest, .pcieAcked, .pcieRev, .pcieSent, .peerReq, .pktId, .polAt, .polC,
      .polP, .portFenced, .postStat, .preStat, .presBar, .presBarSet, .presBase, .presCmd, .presInfo, .presRom, .presetStat,
      .redAvg, .rekeying, .replayAt, .restHeld, .restPend, .restSince, .rxKey, .rxNum, .rxRest, .rxSeq, .rxUnacked, .sizing,
      .skewCnt, .slotCtl, .slotStat, .stipCnt, .stipSeq, .tagEp, .turnAt, .txCount, .txKey, .txLimit, .txNum, .txSeq, .txUsed,
      .wcDone, .wcFrom, .wcId, .wcOldWidth, .wcSet, .widening, .xtalLost], fifos := [.elog, .faceWrote, .missLog, .viWrote], parts
      := [.buf, .free, .fwd, .greqs, .out, .prefs, .replay, .slots, .streams, .waiting] }

theorem warmEnds_in {F : Foot} (hF : Foot.warmEnds.le F = true)  :
    (warmEnds).In F := by
  unfold warmEnds
  repeat' first
      | (with_reducible first | exact all_nil_in | refine all_cons_in ?_ ?_ | refine look_in fun _ => ?_ | refine when_in ?_)
      | ((with_reducible refine put_in ?_); (· exact le_vars hF (by decide +kernel)))
      | ((with_reducible refine safeHaltNow_in ?_ ..); (· exact Foot.le_trans (Foot.le_of_runs (by decide +kernel)) hF))
      | split
      | dsimp only

def Foot.bootErr : Foot :=
  { regs := onFam .glb [.GLB_DEV_STATE_BOOT_ERR] }

theorem bootErr_in {F : Foot} (hF : Foot.bootErr.le F = true) (code : Nat) :
    (bootErr code).In F := by
  unfold bootErr
  repeat' first
      | ((with_reducible refine wr_in ?_ ?_); (· first | exact own_mem (show _ ∈ tabGLB by decide +kernel)); (· first | exact le_regs hF (show (Fam.glb, _) ∈ _ by decide +kernel)))
      | split
      | dsimp only

def Foot.toDevice : Foot :=
  { regs := onFam .glb [.GLB_DEV_STATE_STATE] }

theorem toDevice_in {F : Foot} (hF : Foot.toDevice.le F = true) (st : Nat) :
    (toDevice st).In F := by
  unfold toDevice
  repeat' first
      | ((with_reducible refine wr_in ?_ ?_); (· first | exact own_mem (show _ ∈ tabGLB by decide +kernel)); (· first | exact le_regs hF (show (Fam.glb, _) ∈ _ by decide +kernel)))
      | split
      | dsimp only

def Foot.fallbackClear : Foot :=
  { regs := onFam .sec [.SEC_IDE_STAT_DEV_AUTH, .SEC_IDE_STAT_FAIL, .SEC_IDE_STAT_LINK_ID, .SEC_IDE_STAT_LINK_KSET,
      .SEC_IDE_STAT_LINK_SECURE, .SEC_IDE_STAT_SEL_SECURE, .SEC_IDE_STAT_SEL_VALID, .SEC_LINK_STAT_AUTH_OK,
      .SEC_LINK_STAT_AUTH_STATUS, .SEC_LINK_STAT_PARTNER_DEBUG, .SEC_LINK_STAT_REKEY, .SEC_LINK_STAT_REKEYS] ++ onFam .guard
      (errFields ++ fCnt ++ [.GUARD_ELOG_CTRL_LOST]) ++ onFam .lane [.LANE_INJ_CTRL_ONE_SHOT, .LANE_OCT_STAT_A_LOCK,
      .LANE_OCT_STAT_B_LOCK, .LANE_RATE_CFG_MODE, .LANE_RATE_CFG_RATE_NOW, .LANE_REST_CTRL_IN_REST, .LANE_RX_STAT_CTLE,
      .LANE_RX_STAT_EYE_H, .LANE_RX_STAT_EYE_V, .LANE_RX_STAT_SNR, .LANE_STAT_ALIGN_LOCK, .LANE_STAT_CDR_LOCK, .LANE_STAT_EQ_DONE,
      .LANE_STAT_EQ_FAIL, .LANE_STAT_EXIT_FAIL, .LANE_STAT_FAILED, .LANE_STAT_FEC_LOCK, .LANE_STAT_LOGICAL, .LANE_STAT_RX_READY,
      .LANE_STAT_SIG_DET, .LANE_STAT_STATE, .LANE_TX_TAPS_C0, .LANE_TX_TAPS_POST, .LANE_TX_TAPS_PRE] ++ onFam .pwr
      [.PWR_CH_CFG_EN, .PWR_CH_STAT_STATE, .PWR_CH_STAT_WARN] ++ onFam .core (errFields ++ fCnt ++ [.CORE_WM_STAT_WM_CROSS_CNT,
      .CORE_WM_STAT_WM_EVENT, .CORE_WM_STAT_WM_LEVEL]) ++ onFam .bridge [.BRIDGE_FAB_NBR_MISWIRED, .BRIDGE_FAB_NBR_PARTNER_PORT,
      .BRIDGE_FAB_NBR_PARTNER_SW, .BRIDGE_FAB_NBR_VALID, .BRIDGE_LOCK_STAT_HOLDER, .BRIDGE_LOCK_STAT_LOCKED] ++ onFam .mbox fCnt
      ++ onFam .port [.BLK_CTRL_SOFT_RESET, .CNT_CLR_CLR, .CNT_HI_HIGH, .CNT_LO_LOW, .PORT_CFG_APPLY, .PORT_CFG_ROLE,
      .PORT_CONTAIN_CONTAIN, .PORT_CONTAIN_RELEASE, .PORT_LINK_CTRL_LINK_RETIRE, .PORT_LINK_CTRL_RETRAIN, .PORT_LINK_STAT_ABSENT,
      .PORT_LINK_STAT_ENC, .PORT_LINK_STAT_FLIT, .PORT_LINK_STAT_KEY_PHASE, .PORT_LINK_STAT_LANES_GOOD, .PORT_LINK_STAT_RATE_NOW,
      .PORT_LINK_STAT_STATE, .PORT_LINK_STAT_WIDTH_NOW, .PORT_REPLAY_CNT_CONSEC] ++ onFam .face (errFields ++ fCnt ++
      [.FACE_BIND_ENABLE, .FACE_BIND_MGMT_GRANT, .FACE_BIND_PORT, .FACE_BIND_STATE, .FACE_PM_STAT_LINK_PM]) ++ onFam .sched
      [.INT_CAUSE_ERR, .INT_CAUSE_CNT_SAT, .INT_CAUSE_BLK_INT, .BLK_CTRL_ENABLE, .BLK_CTRL_QUIESCE, .BLK_CTRL_SOFT_RESET,
      .BLK_STAT_QUIESCED, .BLK_STAT_READY, .CNT_CLR_CLR, .CNT_HI_HIGH, .CNT_LO_LOW, .CNT_SAT_EN_SAT_EN, .CNT_SEL_AUTO_INC,
      .CNT_SEL_INDEX, .ERR_MASK_MASK, .INT_EN_BLK_INT, .INT_EN_CNT_SAT, .INT_EN_ERR, .INT_ROUTE_FACE, .INT_ROUTE_TARGET,
      .INT_ROUTE_VECTOR, .SCHED_CBS_CREDIT_CREDIT, .SCHED_CBS_SLOPE_EN, .SCHED_CBS_SLOPE_HI_CREDIT, .SCHED_CBS_SLOPE_IDLE_SLOPE,
      .SCHED_DRR_QUANTUM_PRIO, .SCHED_DRR_QUANTUM_QUANTUM, .SCHED_HATCH_A_DW1, .SCHED_HATCH_A_GATES, .SCHED_HATCH_A_PHASE,
      .SCHED_HATCH_A_RSV0, .SCHED_HATCH_B_DW1, .SCHED_HATCH_B_GATES, .SCHED_HATCH_B_PHASE, .SCHED_HATCH_B_RSV0,
      .SCHED_HATCH_CTRL_ARM, .SCHED_HATCH_CTRL_ARM_LIST, .SCHED_HATCH_CTRL_DISARM, .SCHED_HATCH_CTRL_FB_GATES,
      .SCHED_HATCH_CTRL_FB_MODE, .SCHED_HATCH_CTRL_LATE_POLICY, .SCHED_HATCH_CTRL_NEXT, .SCHED_HATCH_CTRL_STATUS,
      .SCHED_HATCH_CYCLE_CYCLE, .SCHED_HATCH_CYCLE_CYCLE_HI, .SCHED_HATCH_GEN_GENERATION, .SCHED_HATCH_LEN_COUNT_A,
      .SCHED_HATCH_LEN_COUNT_B, .SCHED_HATCH_SIG_DW, .SCHED_HATCH_START_CYCLE, .SCHED_HATCH_START_CYCLE_HI,
      .SCHED_HATCH_STAT_ACTIVE, .SCHED_HATCH_STAT_ANY_ACTIVE, .SCHED_HATCH_STAT_A_STATE, .SCHED_HATCH_STAT_A_VERIFIED,
      .SCHED_HATCH_STAT_B_STATE, .SCHED_HATCH_STAT_B_VERIFIED, .SCHED_HATCH_STAT_ENTRY_NOW, .SCHED_HATCH_STAT_GATES_NOW,
      .SCHED_HATCH_STAT_IN_FALLBACK, .SCHED_HATCH_STAT_LATE, .SCHED_HATCH_VERIFY_BUSY, .SCHED_HATCH_VERIFY_GO,
      .SCHED_HATCH_VERIFY_INDEX, .SCHED_HATCH_VERIFY_LIST, .SCHED_HATCH_VERIFY_STATUS, .SCHED_PORT_CFG_FLOW_QUANTUM,
      .SCHED_PORT_CFG_WAKE_LEAD, .SCRATCH_SCRATCH] ++ onFam .inst (fCnt ++ [.INST_BIND_GO, .INST_STAT_BOUND, .INST_STAT_FENCED,
      .INST_STAT_TDI]) ++ onFam .ring [.MOVER_RING_BASE_ADDR, .MOVER_RING_BASE_ADDR_HI, .MOVER_RING_CFG_ENABLE,
      .MOVER_RING_CFG_ENGINE, .MOVER_RING_CFG_KIND, .MOVER_RING_CFG_OWNER, .MOVER_RING_CFG_OWN_KIND, .MOVER_RING_CFG_SIZE_LOG2,
      .MOVER_RING_CFG_STOP_ON_ERR, .MOVER_RING_CPL_BASE_ADDR, .MOVER_RING_CPL_BASE_ADDR_HI, .MOVER_RING_CPL_CTRL_COAL_US,
      .MOVER_RING_CPL_CTRL_IRQ_EN, .MOVER_RING_CPL_CTRL_MODE, .MOVER_RING_CPL_CTRL_VECTOR, .MOVER_RING_CPL_FIFO_DW,
      .MOVER_RING_CPL_HEAD_CPL_HEAD, .MOVER_RING_CPL_TAIL_CPL_TAIL, .MOVER_RING_CPL_TAIL_PHASE, .MOVER_RING_HEAD_HEAD,
      .MOVER_RING_STAT_LAST_INDEX, .MOVER_RING_STAT_LAST_STATUS, .MOVER_RING_STAT_RESUME, .MOVER_RING_STAT_STATE,
      .MOVER_RING_TAIL_TAIL], cnts := [.guard, .core, .mbox, .face, .inst], vars := [.alignMiss, .alignSeen, .authDebug,
      .authStep, .badCw, .coalDue, .coalOn, .crAdv, .crInit, .crUsed, .curSet, .elogSeq, .eqTimeouts, .fetchAt, .fetchN,
      .fetchTag, .hatchAt, .hatchLate, .ideGo, .ideKey, .injAlign, .lsSeen, .meDef, .mkDue, .mkRx, .mkTx, .msixAddr, .msixData,
      .msixOpen, .msixPend, .nakSent, .nextKey, .ownReq, .paramGot, .paramVal, .partnerAspm, .partnerMax, .partnerReady,
      .partnerRest, .pcieAcked, .pcieRev, .pcieSent, .peerReq, .postStat, .preStat, .presetStat, .pwCause, .pwSwitch, .rehome,
      .rekeying, .replayAt, .restHeld, .restPend, .restSince, .rxKey, .rxNum, .rxRest, .rxSeq, .rxUnacked, .skewCnt, .txCount,
      .txKey, .txLimit, .txNum, .txSeq, .txUsed, .unbindBy, .viSlot, .wcDone, .wcFrom, .wcId, .wcOldWidth, .wcSet, .widening],
      fifos := [.cplFifo, .elog, .faceWrote, .notices, .ringWrote, .viWrote], parts := [.buf, .descs, .greqs, .out, .replay,
      .slots, .streams, .waiting] }

theorem fallbackClear_in {F : Foot} (hF : Foot.fallbackClear.le F = true)  :
    (fallbackClear).In F := by
  unfold fallbackClear
  repeat' first
      | ((with_reducible refine forEach_clearIv_in hF ?_ _); (· decide +kernel))
      | (with_reducible first | exact all_nil_in | refine all_cons_in ?_ ?_ | refine look_in fun _ => ?_ | refine when_in ?_ | refine forBelow_in fun _ => ?_ | refine forEach_in fun _ => ?_)
      | ((with_reducible refine clearIv_in ?_); (· exact le_vars hF (by decide +kernel)))
      | ((with_reducible refine wr_in ?_ ?_); (· first | exact own_mem (show _ ∈ tabPWR by decide +kernel) | exact hdr_mem rfl (by decide +kernel) | exact own_mem (show _ ∈ tabSCHED by decide +kernel)); (· first | exact le_regs hF (show (Fam.pwr, _) ∈ _ by decide +kernel) | exact le_regs hF (show (Fam.sched, _) ∈ _ by decide +kernel)))
      | ((with_reducible refine resetPage_in ?_); (· first | exact fun f m hk => le_regs (x := (Fam.sched, f)) hF ((show ∀ f ∈ (tabHDR ++ tabSCHED), f.kept.testBit (Rst.bit .warm) = false → (Fam.sched, f) ∈ Foot.fallbackClear.regs by decide +kernel) f m hk)))
      | ((with_reducible refine chanOff_in ?_ ..); (· exact Foot.le_trans (Foot.le_of_runs (by decide +kernel)) hF))
      | ((with_reducible refine faceBindWrite_in ?_ ..); (· exact Foot.le_trans (Foot.le_of_runs (by decide +kernel)) hF))
      | ((with_reducible refine hatchUnpend_in ?_ ..); (· exact Foot.le_trans (Foot.le_of_runs (by decide +kernel)) hF))
      | ((with_reducible refine portOff_in ?_ ..); (· exact Foot.le_trans (Foot.le_of_runs (by decide +kernel)) hF))
      | ((with_reducible refine resetPage_in ?_ ..); (· exact Foot.le_trans (Foot.le_of_runs (by decide +kernel)) hF))
      | ((with_reducible refine unbindNow_in ?_ ..); (· exact Foot.le_trans (Foot.le_of_runs (by decide +kernel)) hF))
      | split
      | dsimp only

def Foot.fallbackConfig : Foot :=
  { regs := onFam .sec [.SEC_GRANT_MASK, .SEC_IDE_STAT_DEV_AUTH, .SEC_IDE_STAT_FAIL, .SEC_IDE_STAT_LINK_ID, .SEC_IDE_STAT_LINK_KSET,
      .SEC_IDE_STAT_LINK_SECURE, .SEC_IDE_STAT_SEL_SECURE, .SEC_IDE_STAT_SEL_VALID, .SEC_LINK_STAT_AUTH_OK,
      .SEC_LINK_STAT_AUTH_STATUS, .SEC_LINK_STAT_PARTNER_DEBUG, .SEC_LINK_STAT_REKEY, .SEC_LINK_STAT_REKEYS] ++ onFam .guard
      (errFields ++ fCnt ++ [.GUARD_ELOG_CTRL_LOST]) ++ onFam .lane (errFields ++ [.LANE_INJ_CTRL_ONE_SHOT, .LANE_OCT_STAT_A_LOCK,
      .LANE_OCT_STAT_B_LOCK, .LANE_RATE_CFG_MODE, .LANE_RATE_CFG_PCIE_MAX, .LANE_RATE_CFG_RATE_NOW, .LANE_REST_CTRL_IN_REST,
      .LANE_RX_STAT_CTLE, .LANE_RX_STAT_EYE_H, .LANE_RX_STAT_EYE_V, .LANE_RX_STAT_SNR, .LANE_STAT_ALIGN_LOCK, .LANE_STAT_CDR_LOCK,
      .LANE_STAT_EQ_DONE, .LANE_STAT_EQ_FAIL, .LANE_STAT_EXIT_FAIL, .LANE_STAT_FAILED, .LANE_STAT_FEC_LOCK, .LANE_STAT_LOGICAL,
      .LANE_STAT_RX_READY, .LANE_STAT_SIG_DET, .LANE_STAT_STATE, .LANE_TX_TAPS_C0, .LANE_TX_TAPS_POST, .LANE_TX_TAPS_PRE]) ++
      onFam .core (errFields ++ fCnt ++ [.CORE_WM_STAT_WM_CROSS_CNT, .CORE_WM_STAT_WM_EVENT, .CORE_WM_STAT_WM_LEVEL]) ++ onFam
      .bridge [.BRIDGE_FAB_NBR_MISWIRED, .BRIDGE_FAB_NBR_PARTNER_PORT, .BRIDGE_FAB_NBR_PARTNER_SW, .BRIDGE_FAB_NBR_VALID,
      .BRIDGE_LOCK_STAT_HOLDER, .BRIDGE_LOCK_STAT_LOCKED] ++ onFam .port (errFields ++ [.BLK_CTRL_SOFT_RESET, .CNT_CLR_CLR,
      .CNT_HI_HIGH, .CNT_LO_LOW, .PORT_CFG_APPLY, .PORT_CFG_CYC_RX, .PORT_CFG_CYC_TX, .PORT_CFG_ENC_REQ, .PORT_CFG_FLIT_BELOW,
      .PORT_CFG_MIN_WIDTH, .PORT_CFG_REFUSED, .PORT_CFG_ROLE, .PORT_CFG_SEP_REF, .PORT_CFG_WIDTH, .PORT_CONTAIN_CONTAIN,
      .PORT_CONTAIN_RELEASE, .PORT_LINK_CTRL_LINK_RETIRE, .PORT_LINK_CTRL_RETRAIN, .PORT_LINK_STAT_ABSENT, .PORT_LINK_STAT_ENC,
      .PORT_LINK_STAT_FLIT, .PORT_LINK_STAT_KEY_PHASE, .PORT_LINK_STAT_LANES_GOOD, .PORT_LINK_STAT_RATE_NOW,
      .PORT_LINK_STAT_STATE, .PORT_LINK_STAT_WIDTH_NOW, .PORT_REPLAY_CNT_CONSEC]) ++ onFam .face (errFields ++ fCnt ++
      [.FACE_BIND_ENABLE, .FACE_BIND_MGMT_GRANT, .FACE_BIND_PORT, .FACE_BIND_STATE, .FACE_PM_STAT_LINK_PM]), cnts := [.guard,
      .core, .face], vars := [.alignMiss, .alignSeen, .authDebug, .authStep, .badCw, .crAdv, .crInit, .crUsed, .curSet, .elogSeq,
      .eqTimeouts, .ideGo, .ideKey, .injAlign, .laneNum, .lsSeen, .mkDue, .mkRx, .mkTx, .msixPend, .nakSent, .nextKey, .ownReq,
      .paramGot, .paramVal, .partnerAspm, .partnerMax, .partnerReady, .partnerRest, .pcieAcked, .pcieRev, .pcieSent, .peerReq,
      .postStat, .preStat, .presetStat, .rekeying, .replayAt, .restHeld, .restPend, .restSince, .rxKey, .rxNum, .rxRest, .rxSeq,
      .rxUnacked, .skewCnt, .txCount, .txKey, .txLimit, .txNum, .txSeq, .txUsed, .wcCount, .wcDone, .wcFrom, .wcId, .wcOldWidth,
      .wcSet, .widening], fifos := [.elog, .faceWrote, .viWrote], parts := [.buf, .coders, .greqs, .out, .replay, .streams,
      .waiting] }

theorem fallbackConfig_in {F : Foot} (hF : Foot.fallbackConfig.le F = true)  :
    (fallbackConfig).In F := by
  unfold fallbackConfig
  repeat' first
      | (with_reducible first | exact all_nil_in | refine all_cons_in ?_ ?_ | refine forBelow_in fun _ => ?_)
      | ((with_reducible refine wr_in ?_ ?_); (· first | exact own_mem (show _ ∈ tabLANE by decide +kernel)); (· first | exact le_regs hF (show (Fam.lane, _) ∈ _ by decide +kernel)))
      | ((with_reducible refine faceBindWrite_in ?_ ..); (· exact Foot.le_trans (Foot.le_of_runs (by decide +kernel)) hF))
      | ((with_reducible refine portCfgWrite_in ?_ ..); (· exact Foot.le_trans (Foot.le_of_runs (by decide +kernel)) hF))
      | ((with_reducible refine setGrant_in ?_ ..); (· exact Foot.le_trans (Foot.le_of_runs (by decide +kernel)) hF))
      | split
      | dsimp only

def Foot.platesEmpty : Foot :=
  { regs := onFam .route [.ROUTE_GEN_GENERATION, .ROUTE_LIVE_SEL_LIVE, .ROUTE_LIVE_SEL_P0_STATE, .ROUTE_LIVE_SEL_P0_VERIFIED,
      .ROUTE_LIVE_SEL_P1_STATE, .ROUTE_LIVE_SEL_P1_VERIFIED], vars := [.appliedSlot, .liveSig, .plate, .plateLost] }

theorem platesEmpty_in {F : Foot} (hF : Foot.platesEmpty.le F = true)  :
    (platesEmpty).In F := by
  unfold platesEmpty
  repeat' first
      | (with_reducible first | exact all_nil_in | refine all_cons_in ?_ ?_)
      | ((with_reducible refine put_in ?_); (· exact le_vars hF (by decide +kernel)))
      | ((with_reducible refine clearIv_in ?_); (· exact le_vars hF (by decide +kernel)))
      | ((with_reducible refine wr_in ?_ ?_); (· first | exact own_mem (show _ ∈ tabROUTE0 by decide +kernel)); (· first | exact le_regs hF (show (Fam.route, _) ∈ _ by decide +kernel)))
      | (unfold plateVerFld; split)
      | split
      | dsimp only

def Foot.romRecovery : Foot :=
  { regs := onFam .glb [.GLB_DEV_STATE_BOOT_ERR, .GLB_DEV_STATE_STATE] ++ onFam .sec [.SEC_GRANT_MASK, .SEC_IDE_STAT_DEV_AUTH,
      .SEC_IDE_STAT_FAIL, .SEC_IDE_STAT_LINK_ID, .SEC_IDE_STAT_LINK_KSET, .SEC_IDE_STAT_LINK_SECURE, .SEC_IDE_STAT_SEL_SECURE,
      .SEC_IDE_STAT_SEL_VALID, .SEC_LINK_STAT_AUTH_OK, .SEC_LINK_STAT_AUTH_STATUS, .SEC_LINK_STAT_PARTNER_DEBUG,
      .SEC_LINK_STAT_REKEY, .SEC_LINK_STAT_REKEYS] ++ onFam .guard (errFields ++ fCnt ++ [.GUARD_ELOG_CTRL_LOST]) ++ onFam .lane
      (errFields ++ [.LANE_INJ_CTRL_ONE_SHOT, .LANE_OCT_STAT_A_LOCK, .LANE_OCT_STAT_B_LOCK, .LANE_RATE_CFG_MODE,
      .LANE_RATE_CFG_PCIE_MAX, .LANE_RATE_CFG_RATE_NOW, .LANE_REST_CTRL_IN_REST, .LANE_RX_STAT_CTLE, .LANE_RX_STAT_EYE_H,
      .LANE_RX_STAT_EYE_V, .LANE_RX_STAT_SNR, .LANE_STAT_ALIGN_LOCK, .LANE_STAT_CDR_LOCK, .LANE_STAT_EQ_DONE, .LANE_STAT_EQ_FAIL,
      .LANE_STAT_EXIT_FAIL, .LANE_STAT_FAILED, .LANE_STAT_FEC_LOCK, .LANE_STAT_LOGICAL, .LANE_STAT_RX_READY, .LANE_STAT_SIG_DET,
      .LANE_STAT_STATE, .LANE_TX_TAPS_C0, .LANE_TX_TAPS_POST, .LANE_TX_TAPS_PRE]) ++ onFam .pwr [.PWR_CH_CFG_EN,
      .PWR_CH_STAT_STATE, .PWR_CH_STAT_WARN] ++ onFam .core (errFields ++ fCnt ++ [.CORE_WM_STAT_WM_CROSS_CNT,
      .CORE_WM_STAT_WM_EVENT, .CORE_WM_STAT_WM_LEVEL]) ++ onFam .route [.ROUTE_GEN_GENERATION, .ROUTE_LIVE_SEL_LIVE,
      .ROUTE_LIVE_SEL_P0_STATE, .ROUTE_LIVE_SEL_P0_VERIFIED, .ROUTE_LIVE_SEL_P1_STATE, .ROUTE_LIVE_SEL_P1_VERIFIED] ++ onFam
      .bridge [.BRIDGE_FAB_NBR_MISWIRED, .BRIDGE_FAB_NBR_PARTNER_PORT, .BRIDGE_FAB_NBR_PARTNER_SW, .BRIDGE_FAB_NBR_VALID,
      .BRIDGE_LOCK_STAT_HOLDER, .BRIDGE_LOCK_STAT_LOCKED] ++ onFam .mbox fCnt ++ onFam .port (errFields ++ [.BLK_CTRL_SOFT_RESET,
      .CNT_CLR_CLR, .CNT_HI_HIGH, .CNT_LO_LOW, .PORT_CFG_APPLY, .PORT_CFG_CYC_RX, .PORT_CFG_CYC_TX, .PORT_CFG_ENC_REQ,
      .PORT_CFG_FLIT_BELOW, .PORT_CFG_MIN_WIDTH, .PORT_CFG_REFUSED, .PORT_CFG_ROLE, .PORT_CFG_SEP_REF, .PORT_CFG_WIDTH,
      .PORT_CONTAIN_CONTAIN, .PORT_CONTAIN_RELEASE, .PORT_LINK_CTRL_LINK_RETIRE, .PORT_LINK_CTRL_RETRAIN, .PORT_LINK_STAT_ABSENT,
      .PORT_LINK_STAT_ENC, .PORT_LINK_STAT_FLIT, .PORT_LINK_STAT_KEY_PHASE, .PORT_LINK_STAT_LANES_GOOD, .PORT_LINK_STAT_RATE_NOW,
      .PORT_LINK_STAT_STATE, .PORT_LINK_STAT_WIDTH_NOW, .PORT_REPLAY_CNT_CONSEC]) ++ onFam .face (errFields ++ fCnt ++
      [.FACE_BIND_ENABLE, .FACE_BIND_MGMT_GRANT, .FACE_BIND_PORT, .FACE_BIND_STATE, .FACE_PM_STAT_LINK_PM]) ++ onFam .sched
      [.INT_CAUSE_ERR, .INT_CAUSE_CNT_SAT, .INT_CAUSE_BLK_INT, .BLK_CTRL_ENABLE, .BLK_CTRL_QUIESCE, .BLK_CTRL_SOFT_RESET,
      .BLK_STAT_QUIESCED, .BLK_STAT_READY, .CNT_CLR_CLR, .CNT_HI_HIGH, .CNT_LO_LOW, .CNT_SAT_EN_SAT_EN, .CNT_SEL_AUTO_INC,
      .CNT_SEL_INDEX, .ERR_MASK_MASK, .INT_EN_BLK_INT, .INT_EN_CNT_SAT, .INT_EN_ERR, .INT_ROUTE_FACE, .INT_ROUTE_TARGET,
      .INT_ROUTE_VECTOR, .SCHED_CBS_CREDIT_CREDIT, .SCHED_CBS_SLOPE_EN, .SCHED_CBS_SLOPE_HI_CREDIT, .SCHED_CBS_SLOPE_IDLE_SLOPE,
      .SCHED_DRR_QUANTUM_PRIO, .SCHED_DRR_QUANTUM_QUANTUM, .SCHED_HATCH_A_DW1, .SCHED_HATCH_A_GATES, .SCHED_HATCH_A_PHASE,
      .SCHED_HATCH_A_RSV0, .SCHED_HATCH_B_DW1, .SCHED_HATCH_B_GATES, .SCHED_HATCH_B_PHASE, .SCHED_HATCH_B_RSV0,
      .SCHED_HATCH_CTRL_ARM, .SCHED_HATCH_CTRL_ARM_LIST, .SCHED_HATCH_CTRL_DISARM, .SCHED_HATCH_CTRL_FB_GATES,
      .SCHED_HATCH_CTRL_FB_MODE, .SCHED_HATCH_CTRL_LATE_POLICY, .SCHED_HATCH_CTRL_NEXT, .SCHED_HATCH_CTRL_STATUS,
      .SCHED_HATCH_CYCLE_CYCLE, .SCHED_HATCH_CYCLE_CYCLE_HI, .SCHED_HATCH_GEN_GENERATION, .SCHED_HATCH_LEN_COUNT_A,
      .SCHED_HATCH_LEN_COUNT_B, .SCHED_HATCH_SIG_DW, .SCHED_HATCH_START_CYCLE, .SCHED_HATCH_START_CYCLE_HI,
      .SCHED_HATCH_STAT_ACTIVE, .SCHED_HATCH_STAT_ANY_ACTIVE, .SCHED_HATCH_STAT_A_STATE, .SCHED_HATCH_STAT_A_VERIFIED,
      .SCHED_HATCH_STAT_B_STATE, .SCHED_HATCH_STAT_B_VERIFIED, .SCHED_HATCH_STAT_ENTRY_NOW, .SCHED_HATCH_STAT_GATES_NOW,
      .SCHED_HATCH_STAT_IN_FALLBACK, .SCHED_HATCH_STAT_LATE, .SCHED_HATCH_VERIFY_BUSY, .SCHED_HATCH_VERIFY_GO,
      .SCHED_HATCH_VERIFY_INDEX, .SCHED_HATCH_VERIFY_LIST, .SCHED_HATCH_VERIFY_STATUS, .SCHED_PORT_CFG_FLOW_QUANTUM,
      .SCHED_PORT_CFG_WAKE_LEAD, .SCRATCH_SCRATCH] ++ onFam .inst (fCnt ++ [.INST_BIND_GO, .INST_STAT_BOUND, .INST_STAT_FENCED,
      .INST_STAT_TDI]) ++ onFam .ring [.MOVER_RING_BASE_ADDR, .MOVER_RING_BASE_ADDR_HI, .MOVER_RING_CFG_ENABLE,
      .MOVER_RING_CFG_ENGINE, .MOVER_RING_CFG_KIND, .MOVER_RING_CFG_OWNER, .MOVER_RING_CFG_OWN_KIND, .MOVER_RING_CFG_SIZE_LOG2,
      .MOVER_RING_CFG_STOP_ON_ERR, .MOVER_RING_CPL_BASE_ADDR, .MOVER_RING_CPL_BASE_ADDR_HI, .MOVER_RING_CPL_CTRL_COAL_US,
      .MOVER_RING_CPL_CTRL_IRQ_EN, .MOVER_RING_CPL_CTRL_MODE, .MOVER_RING_CPL_CTRL_VECTOR, .MOVER_RING_CPL_FIFO_DW,
      .MOVER_RING_CPL_HEAD_CPL_HEAD, .MOVER_RING_CPL_TAIL_CPL_TAIL, .MOVER_RING_CPL_TAIL_PHASE, .MOVER_RING_HEAD_HEAD,
      .MOVER_RING_STAT_LAST_INDEX, .MOVER_RING_STAT_LAST_STATUS, .MOVER_RING_STAT_RESUME, .MOVER_RING_STAT_STATE,
      .MOVER_RING_TAIL_TAIL], cnts := [.guard, .core, .mbox, .face, .inst], vars := [.alignMiss, .alignSeen, .appliedSlot,
      .authDebug, .authStep, .badCw, .coalDue, .coalOn, .crAdv, .crInit, .crUsed, .curSet, .elogSeq, .eqTimeouts, .fetchAt,
      .fetchN, .fetchTag, .hatchAt, .hatchLate, .ideGo, .ideKey, .injAlign, .laneNum, .liveSig, .lsSeen, .meDef, .mkDue, .mkRx,
      .mkTx, .msixAddr, .msixData, .msixOpen, .msixPend, .nakSent, .nextKey, .ownReq, .paramGot, .paramVal, .partnerAspm,
      .partnerMax, .partnerReady, .partnerRest, .pcieAcked, .pcieRev, .pcieSent, .peerReq, .plate, .plateLost, .postStat,
      .preStat, .presetStat, .pwCause, .pwSwitch, .rehome, .rekeying, .replayAt, .restHeld, .restPend, .restSince, .rxKey, .rxNum,
      .rxRest, .rxSeq, .rxUnacked, .skewCnt, .txCount, .txKey, .txLimit, .txNum, .txSeq, .txUsed, .unbindBy, .viSlot, .wcCount,
      .wcDone, .wcFrom, .wcId, .wcOldWidth, .wcSet, .widening], fifos := [.cplFifo, .elog, .faceWrote, .notices, .ringWrote,
      .viWrote], parts := [.buf, .coders, .descs, .greqs, .out, .replay, .slots, .streams, .waiting] }

theorem romRecovery_in {F : Foot} (hF : Foot.romRecovery.le F = true) (code : Nat) :
    (romRecovery code).In F := by
  unfold romRecovery
  repeat' first
      | (with_reducible first | exact all_nil_in | refine all_cons_in ?_ ?_)
      | ((with_reducible refine bootErr_in ?_ ..); (· exact Foot.le_trans (Foot.le_of_runs (by decide +kernel)) hF))
      | ((with_reducible refine fallbackClear_in ?_ ..); (· exact Foot.le_trans (Foot.le_of_runs (by decide +kernel)) hF))
      | ((with_reducible refine fallbackConfig_in ?_ ..); (· exact Foot.le_trans (Foot.le_of_runs (by decide +kernel)) hF))
      | ((with_reducible refine platesEmpty_in ?_ ..); (· exact Foot.le_trans (Foot.le_of_runs (by decide +kernel)) hF))
      | ((with_reducible refine toDevice_in ?_ ..); (· exact Foot.le_trans (Foot.le_of_runs (by decide +kernel)) hF))
      | split
      | dsimp only

def Foot.bringup : Foot :=
  { regs := onFam .glb [.GLB_DEV_STATE_STATE, .PAGE_LOCK_LOCKED, .PAGE_LOCK_LOCK_GEN] ++ onFam .mgmt [.PAGE_LOCK_LOCKED,
      .PAGE_LOCK_LOCK_GEN] ++ onFam .sec [.PAGE_LOCK_LOCKED, .PAGE_LOCK_LOCK_GEN, .SEC_GRANT_MASK, .SEC_IDE_STAT_DEV_AUTH,
      .SEC_IDE_STAT_FAIL, .SEC_IDE_STAT_LINK_ID, .SEC_IDE_STAT_LINK_KSET, .SEC_IDE_STAT_LINK_SECURE, .SEC_IDE_STAT_SEL_SECURE,
      .SEC_IDE_STAT_SEL_VALID, .SEC_LINK_STAT_AUTH_OK, .SEC_LINK_STAT_AUTH_STATUS, .SEC_LINK_STAT_PARTNER_DEBUG,
      .SEC_LINK_STAT_REKEY, .SEC_LINK_STAT_REKEYS] ++ onFam .guard (errFields ++ fCnt ++ [.GUARD_ELOG_CTRL_LOST,
      .PAGE_LOCK_LOCKED, .PAGE_LOCK_LOCK_GEN]) ++ onFam .lane (errFields ++ [.LANE_INJ_CTRL_ONE_SHOT, .LANE_OCT_STAT_A_LOCK,
      .LANE_OCT_STAT_B_LOCK, .LANE_RATE_CFG_MODE, .LANE_RATE_CFG_PCIE_MAX, .LANE_RATE_CFG_RATE_NOW, .LANE_REST_CTRL_IN_REST,
      .LANE_RX_STAT_CTLE, .LANE_RX_STAT_EYE_H, .LANE_RX_STAT_EYE_V, .LANE_RX_STAT_SNR, .LANE_STAT_ALIGN_LOCK, .LANE_STAT_CDR_LOCK,
      .LANE_STAT_EQ_DONE, .LANE_STAT_EQ_FAIL, .LANE_STAT_EXIT_FAIL, .LANE_STAT_FAILED, .LANE_STAT_FEC_LOCK, .LANE_STAT_LOGICAL,
      .LANE_STAT_RX_READY, .LANE_STAT_SIG_DET, .LANE_STAT_STATE, .LANE_TX_TAPS_C0, .LANE_TX_TAPS_POST, .LANE_TX_TAPS_PRE,
      .PAGE_LOCK_LOCKED, .PAGE_LOCK_LOCK_GEN]) ++ onFam .pwrg [.PAGE_LOCK_LOCKED, .PAGE_LOCK_LOCK_GEN] ++ onFam .pwr
      [.PAGE_LOCK_LOCKED, .PAGE_LOCK_LOCK_GEN, .PWR_CH_CFG_EN, .PWR_CH_STAT_STATE, .PWR_CH_STAT_WARN] ++ onFam .core (errFields ++
      fCnt ++ [.CORE_WM_STAT_WM_CROSS_CNT, .CORE_WM_STAT_WM_EVENT, .CORE_WM_STAT_WM_LEVEL, .PAGE_LOCK_LOCKED,
      .PAGE_LOCK_LOCK_GEN]) ++ onFam .route [.PAGE_LOCK_LOCKED, .PAGE_LOCK_LOCK_GEN, .ROUTE_GEN_GENERATION, .ROUTE_LIVE_SEL_LIVE,
      .ROUTE_LIVE_SEL_P0_STATE, .ROUTE_LIVE_SEL_P0_VERIFIED, .ROUTE_LIVE_SEL_P1_STATE, .ROUTE_LIVE_SEL_P1_VERIFIED] ++ onFam
      .bridge [.BRIDGE_FAB_NBR_MISWIRED, .BRIDGE_FAB_NBR_PARTNER_PORT, .BRIDGE_FAB_NBR_PARTNER_SW, .BRIDGE_FAB_NBR_VALID,
      .BRIDGE_LOCK_STAT_HOLDER, .BRIDGE_LOCK_STAT_LOCKED, .PAGE_LOCK_LOCKED, .PAGE_LOCK_LOCK_GEN] ++ onFam .mbox (fCnt ++
      [.PAGE_LOCK_LOCKED, .PAGE_LOCK_LOCK_GEN]) ++ onFam .port (errFields ++ [.BLK_CTRL_SOFT_RESET, .CNT_CLR_CLR, .CNT_HI_HIGH,
      .CNT_LO_LOW, .PAGE_LOCK_LOCKED, .PAGE_LOCK_LOCK_GEN, .PORT_CFG_APPLY, .PORT_CFG_CYC_RX, .PORT_CFG_CYC_TX, .PORT_CFG_ENC_REQ,
      .PORT_CFG_FLIT_BELOW, .PORT_CFG_MIN_WIDTH, .PORT_CFG_REFUSED, .PORT_CFG_ROLE, .PORT_CFG_SEP_REF, .PORT_CFG_WIDTH,
      .PORT_CONTAIN_CONTAIN, .PORT_CONTAIN_RELEASE, .PORT_LINK_CTRL_LINK_RETIRE, .PORT_LINK_CTRL_RETRAIN, .PORT_LINK_STAT_ABSENT,
      .PORT_LINK_STAT_ENC, .PORT_LINK_STAT_FLIT, .PORT_LINK_STAT_KEY_PHASE, .PORT_LINK_STAT_LANES_GOOD, .PORT_LINK_STAT_RATE_NOW,
      .PORT_LINK_STAT_STATE, .PORT_LINK_STAT_WIDTH_NOW, .PORT_REPLAY_CNT_CONSEC]) ++ onFam .face (errFields ++ fCnt ++
      [.FACE_BIND_ENABLE, .FACE_BIND_MGMT_GRANT, .FACE_BIND_PORT, .FACE_BIND_STATE, .FACE_PM_STAT_LINK_PM, .PAGE_LOCK_LOCKED,
      .PAGE_LOCK_LOCK_GEN]) ++ onFam .schedg [.PAGE_LOCK_LOCKED, .PAGE_LOCK_LOCK_GEN] ++ onFam .sched [.INT_CAUSE_ERR,
      .INT_CAUSE_CNT_SAT, .INT_CAUSE_BLK_INT, .BLK_CTRL_ENABLE, .BLK_CTRL_QUIESCE, .BLK_CTRL_SOFT_RESET, .BLK_STAT_QUIESCED,
      .BLK_STAT_READY, .CNT_CLR_CLR, .CNT_HI_HIGH, .CNT_LO_LOW, .CNT_SAT_EN_SAT_EN, .CNT_SEL_AUTO_INC, .CNT_SEL_INDEX,
      .ERR_MASK_MASK, .INT_EN_BLK_INT, .INT_EN_CNT_SAT, .INT_EN_ERR, .INT_ROUTE_FACE, .INT_ROUTE_TARGET, .INT_ROUTE_VECTOR,
      .PAGE_LOCK_LOCKED, .PAGE_LOCK_LOCK_GEN, .SCHED_CBS_CREDIT_CREDIT, .SCHED_CBS_SLOPE_EN, .SCHED_CBS_SLOPE_HI_CREDIT,
      .SCHED_CBS_SLOPE_IDLE_SLOPE, .SCHED_DRR_QUANTUM_PRIO, .SCHED_DRR_QUANTUM_QUANTUM, .SCHED_HATCH_A_DW1, .SCHED_HATCH_A_GATES,
      .SCHED_HATCH_A_PHASE, .SCHED_HATCH_A_RSV0, .SCHED_HATCH_B_DW1, .SCHED_HATCH_B_GATES, .SCHED_HATCH_B_PHASE,
      .SCHED_HATCH_B_RSV0, .SCHED_HATCH_CTRL_ARM, .SCHED_HATCH_CTRL_ARM_LIST, .SCHED_HATCH_CTRL_DISARM,
      .SCHED_HATCH_CTRL_FB_GATES, .SCHED_HATCH_CTRL_FB_MODE, .SCHED_HATCH_CTRL_LATE_POLICY, .SCHED_HATCH_CTRL_NEXT,
      .SCHED_HATCH_CTRL_STATUS, .SCHED_HATCH_CYCLE_CYCLE, .SCHED_HATCH_CYCLE_CYCLE_HI, .SCHED_HATCH_GEN_GENERATION,
      .SCHED_HATCH_LEN_COUNT_A, .SCHED_HATCH_LEN_COUNT_B, .SCHED_HATCH_SIG_DW, .SCHED_HATCH_START_CYCLE,
      .SCHED_HATCH_START_CYCLE_HI, .SCHED_HATCH_STAT_ACTIVE, .SCHED_HATCH_STAT_ANY_ACTIVE, .SCHED_HATCH_STAT_A_STATE,
      .SCHED_HATCH_STAT_A_VERIFIED, .SCHED_HATCH_STAT_B_STATE, .SCHED_HATCH_STAT_B_VERIFIED, .SCHED_HATCH_STAT_ENTRY_NOW,
      .SCHED_HATCH_STAT_GATES_NOW, .SCHED_HATCH_STAT_IN_FALLBACK, .SCHED_HATCH_STAT_LATE, .SCHED_HATCH_VERIFY_BUSY,
      .SCHED_HATCH_VERIFY_GO, .SCHED_HATCH_VERIFY_INDEX, .SCHED_HATCH_VERIFY_LIST, .SCHED_HATCH_VERIFY_STATUS,
      .SCHED_PORT_CFG_FLOW_QUANTUM, .SCHED_PORT_CFG_WAKE_LEAD, .SCRATCH_SCRATCH] ++ onFam .inst (fCnt ++ [.INST_BIND_GO,
      .INST_STAT_BOUND, .INST_STAT_FENCED, .INST_STAT_TDI, .PAGE_LOCK_LOCKED, .PAGE_LOCK_LOCK_GEN]) ++ onFam .moverg
      [.PAGE_LOCK_LOCKED, .PAGE_LOCK_LOCK_GEN] ++ onFam .eng [.PAGE_LOCK_LOCKED, .PAGE_LOCK_LOCK_GEN] ++ onFam .ring
      [.MOVER_RING_BASE_ADDR, .MOVER_RING_BASE_ADDR_HI, .MOVER_RING_CFG_ENABLE, .MOVER_RING_CFG_ENGINE, .MOVER_RING_CFG_KIND,
      .MOVER_RING_CFG_OWNER, .MOVER_RING_CFG_OWN_KIND, .MOVER_RING_CFG_SIZE_LOG2, .MOVER_RING_CFG_STOP_ON_ERR,
      .MOVER_RING_CPL_BASE_ADDR, .MOVER_RING_CPL_BASE_ADDR_HI, .MOVER_RING_CPL_CTRL_COAL_US, .MOVER_RING_CPL_CTRL_IRQ_EN,
      .MOVER_RING_CPL_CTRL_MODE, .MOVER_RING_CPL_CTRL_VECTOR, .MOVER_RING_CPL_FIFO_DW, .MOVER_RING_CPL_HEAD_CPL_HEAD,
      .MOVER_RING_CPL_TAIL_CPL_TAIL, .MOVER_RING_CPL_TAIL_PHASE, .MOVER_RING_HEAD_HEAD, .MOVER_RING_STAT_LAST_INDEX,
      .MOVER_RING_STAT_LAST_STATUS, .MOVER_RING_STAT_RESUME, .MOVER_RING_STAT_STATE, .MOVER_RING_TAIL_TAIL], cnts := [.guard,
      .core, .mbox, .face, .inst], vars := [.alignMiss, .alignSeen, .appliedSlot, .authDebug, .authStep, .badCw, .coalDue,
      .coalOn, .crAdv, .crInit, .crUsed, .curSet, .elogSeq, .eqTimeouts, .fetchAt, .fetchN, .fetchTag, .hatchAt, .hatchLate,
      .ideGo, .ideKey, .injAlign, .laneNum, .liveSig, .lsSeen, .meDef, .mkDue, .mkRx, .mkTx, .msixAddr, .msixData, .msixOpen,
      .msixPend, .nakSent, .nextKey, .ownReq, .paramGot, .paramVal, .partnerAspm, .partnerMax, .partnerReady, .partnerRest,
      .pcieAcked, .pcieRev, .pcieSent, .peerReq, .plate, .plateLost, .postStat, .preStat, .presetStat, .pwCause, .pwSwitch,
      .rehome, .rekeying, .replayAt, .restHeld, .restPend, .restSince, .rxKey, .rxNum, .rxRest, .rxSeq, .rxUnacked, .skewCnt,
      .txCount, .txKey, .txLimit, .txNum, .txSeq, .txUsed, .unbindBy, .viSlot, .wcCount, .wcDone, .wcFrom, .wcId, .wcOldWidth,
      .wcSet, .widening], fifos := [.cplFifo, .elog, .faceWrote, .notices, .ringWrote, .viWrote], parts := [.buf, .coders, .descs,
      .greqs, .out, .replay, .slots, .streams, .waiting] }

theorem bringup_in {F : Foot} (hF : Foot.bringup.le F = true)  :
    (bringup).In F := by
  unfold bringup
  repeat' first
      | ((with_reducible refine forEach_mem_in fun _ m => lockPage_in ?_ ?_); (· exact Foot.le_trans (by decide +kernel) hF); (· exact commonPages_common (List.mem_filter.1 m).1))
      | (with_reducible first | exact all_nil_in | refine all_cons_in ?_ ?_ | refine look_in fun _ => ?_ | refine when_in ?_ | refine forEach_in fun _ => ?_)
      | ((with_reducible refine fallbackClear_in ?_ ..); (· exact Foot.le_trans (Foot.le_of_runs (by decide +kernel)) hF))
      | ((with_reducible refine fallbackConfig_in ?_ ..); (· exact Foot.le_trans (Foot.le_of_runs (by decide +kernel)) hF))
      | with_reducible exact lockPage_in (Foot.le_trans (by decide +kernel) hF) (by assumption)
      | with_reducible exact forEach_mem_in fun _ m => lockPage_in (Foot.le_trans (by decide +kernel) hF) (commonPages_common m)
      | ((with_reducible refine platesEmpty_in ?_ ..); (· exact Foot.le_trans (Foot.le_of_runs (by decide +kernel)) hF))
      | ((with_reducible refine toDevice_in ?_ ..); (· exact Foot.le_trans (Foot.le_of_runs (by decide +kernel)) hF))
      | split
      | dsimp only

def Foot.slotTried : Foot :=
  { vars := [.dirSeq, .dirSlot, .slotTries] }

theorem slotTried_in {F : Foot} (hF : Foot.slotTried.le F = true) (k : Nat) :
    (slotTried k).In F := by
  unfold slotTried
  repeat' first
      | (with_reducible first | exact all_nil_in | refine all_cons_in ?_ ?_ | refine look_in fun _ => ?_ | refine when_in ?_)
      | ((with_reducible refine modIv_in ?_); (· exact le_vars hF (by decide +kernel)))
      | ((with_reducible refine dirRewrite_in ?_ ..); (· exact Foot.le_trans (Foot.le_of_runs (by decide +kernel)) hF))
      | split
      | dsimp only

def Foot.romSelect : Foot :=
  { regs := onFam .glb [.GLB_DEV_STATE_BOOT_ERR, .GLB_DEV_STATE_STATE] ++ onFam .sec [.SEC_GRANT_MASK, .SEC_IDE_STAT_DEV_AUTH,
      .SEC_IDE_STAT_FAIL, .SEC_IDE_STAT_LINK_ID, .SEC_IDE_STAT_LINK_KSET, .SEC_IDE_STAT_LINK_SECURE, .SEC_IDE_STAT_SEL_SECURE,
      .SEC_IDE_STAT_SEL_VALID, .SEC_LINK_STAT_AUTH_OK, .SEC_LINK_STAT_AUTH_STATUS, .SEC_LINK_STAT_PARTNER_DEBUG,
      .SEC_LINK_STAT_REKEY, .SEC_LINK_STAT_REKEYS] ++ onFam .guard (errFields ++ fCnt ++ [.GUARD_ELOG_CTRL_LOST]) ++ onFam .lane
      (errFields ++ [.LANE_INJ_CTRL_ONE_SHOT, .LANE_OCT_STAT_A_LOCK, .LANE_OCT_STAT_B_LOCK, .LANE_RATE_CFG_MODE,
      .LANE_RATE_CFG_PCIE_MAX, .LANE_RATE_CFG_RATE_NOW, .LANE_REST_CTRL_IN_REST, .LANE_RX_STAT_CTLE, .LANE_RX_STAT_EYE_H,
      .LANE_RX_STAT_EYE_V, .LANE_RX_STAT_SNR, .LANE_STAT_ALIGN_LOCK, .LANE_STAT_CDR_LOCK, .LANE_STAT_EQ_DONE, .LANE_STAT_EQ_FAIL,
      .LANE_STAT_EXIT_FAIL, .LANE_STAT_FAILED, .LANE_STAT_FEC_LOCK, .LANE_STAT_LOGICAL, .LANE_STAT_RX_READY, .LANE_STAT_SIG_DET,
      .LANE_STAT_STATE, .LANE_TX_TAPS_C0, .LANE_TX_TAPS_POST, .LANE_TX_TAPS_PRE]) ++ onFam .pwr [.PWR_CH_CFG_EN,
      .PWR_CH_STAT_STATE, .PWR_CH_STAT_WARN] ++ onFam .core (errFields ++ fCnt ++ [.CORE_WM_STAT_WM_CROSS_CNT,
      .CORE_WM_STAT_WM_EVENT, .CORE_WM_STAT_WM_LEVEL]) ++ onFam .route [.ROUTE_GEN_GENERATION, .ROUTE_LIVE_SEL_LIVE,
      .ROUTE_LIVE_SEL_P0_STATE, .ROUTE_LIVE_SEL_P0_VERIFIED, .ROUTE_LIVE_SEL_P1_STATE, .ROUTE_LIVE_SEL_P1_VERIFIED] ++ onFam
      .bridge [.BRIDGE_FAB_NBR_MISWIRED, .BRIDGE_FAB_NBR_PARTNER_PORT, .BRIDGE_FAB_NBR_PARTNER_SW, .BRIDGE_FAB_NBR_VALID,
      .BRIDGE_LOCK_STAT_HOLDER, .BRIDGE_LOCK_STAT_LOCKED] ++ onFam .mbox fCnt ++ onFam .port (errFields ++ [.BLK_CTRL_SOFT_RESET,
      .CNT_CLR_CLR, .CNT_HI_HIGH, .CNT_LO_LOW, .PORT_CFG_APPLY, .PORT_CFG_CYC_RX, .PORT_CFG_CYC_TX, .PORT_CFG_ENC_REQ,
      .PORT_CFG_FLIT_BELOW, .PORT_CFG_MIN_WIDTH, .PORT_CFG_REFUSED, .PORT_CFG_ROLE, .PORT_CFG_SEP_REF, .PORT_CFG_WIDTH,
      .PORT_CONTAIN_CONTAIN, .PORT_CONTAIN_RELEASE, .PORT_LINK_CTRL_LINK_RETIRE, .PORT_LINK_CTRL_RETRAIN, .PORT_LINK_STAT_ABSENT,
      .PORT_LINK_STAT_ENC, .PORT_LINK_STAT_FLIT, .PORT_LINK_STAT_KEY_PHASE, .PORT_LINK_STAT_LANES_GOOD, .PORT_LINK_STAT_RATE_NOW,
      .PORT_LINK_STAT_STATE, .PORT_LINK_STAT_WIDTH_NOW, .PORT_REPLAY_CNT_CONSEC]) ++ onFam .face (errFields ++ fCnt ++
      [.FACE_BIND_ENABLE, .FACE_BIND_MGMT_GRANT, .FACE_BIND_PORT, .FACE_BIND_STATE, .FACE_PM_STAT_LINK_PM]) ++ onFam .sched
      [.INT_CAUSE_ERR, .INT_CAUSE_CNT_SAT, .INT_CAUSE_BLK_INT, .BLK_CTRL_ENABLE, .BLK_CTRL_QUIESCE, .BLK_CTRL_SOFT_RESET,
      .BLK_STAT_QUIESCED, .BLK_STAT_READY, .CNT_CLR_CLR, .CNT_HI_HIGH, .CNT_LO_LOW, .CNT_SAT_EN_SAT_EN, .CNT_SEL_AUTO_INC,
      .CNT_SEL_INDEX, .ERR_MASK_MASK, .INT_EN_BLK_INT, .INT_EN_CNT_SAT, .INT_EN_ERR, .INT_ROUTE_FACE, .INT_ROUTE_TARGET,
      .INT_ROUTE_VECTOR, .SCHED_CBS_CREDIT_CREDIT, .SCHED_CBS_SLOPE_EN, .SCHED_CBS_SLOPE_HI_CREDIT, .SCHED_CBS_SLOPE_IDLE_SLOPE,
      .SCHED_DRR_QUANTUM_PRIO, .SCHED_DRR_QUANTUM_QUANTUM, .SCHED_HATCH_A_DW1, .SCHED_HATCH_A_GATES, .SCHED_HATCH_A_PHASE,
      .SCHED_HATCH_A_RSV0, .SCHED_HATCH_B_DW1, .SCHED_HATCH_B_GATES, .SCHED_HATCH_B_PHASE, .SCHED_HATCH_B_RSV0,
      .SCHED_HATCH_CTRL_ARM, .SCHED_HATCH_CTRL_ARM_LIST, .SCHED_HATCH_CTRL_DISARM, .SCHED_HATCH_CTRL_FB_GATES,
      .SCHED_HATCH_CTRL_FB_MODE, .SCHED_HATCH_CTRL_LATE_POLICY, .SCHED_HATCH_CTRL_NEXT, .SCHED_HATCH_CTRL_STATUS,
      .SCHED_HATCH_CYCLE_CYCLE, .SCHED_HATCH_CYCLE_CYCLE_HI, .SCHED_HATCH_GEN_GENERATION, .SCHED_HATCH_LEN_COUNT_A,
      .SCHED_HATCH_LEN_COUNT_B, .SCHED_HATCH_SIG_DW, .SCHED_HATCH_START_CYCLE, .SCHED_HATCH_START_CYCLE_HI,
      .SCHED_HATCH_STAT_ACTIVE, .SCHED_HATCH_STAT_ANY_ACTIVE, .SCHED_HATCH_STAT_A_STATE, .SCHED_HATCH_STAT_A_VERIFIED,
      .SCHED_HATCH_STAT_B_STATE, .SCHED_HATCH_STAT_B_VERIFIED, .SCHED_HATCH_STAT_ENTRY_NOW, .SCHED_HATCH_STAT_GATES_NOW,
      .SCHED_HATCH_STAT_IN_FALLBACK, .SCHED_HATCH_STAT_LATE, .SCHED_HATCH_VERIFY_BUSY, .SCHED_HATCH_VERIFY_GO,
      .SCHED_HATCH_VERIFY_INDEX, .SCHED_HATCH_VERIFY_LIST, .SCHED_HATCH_VERIFY_STATUS, .SCHED_PORT_CFG_FLOW_QUANTUM,
      .SCHED_PORT_CFG_WAKE_LEAD, .SCRATCH_SCRATCH] ++ onFam .inst (fCnt ++ [.INST_BIND_GO, .INST_STAT_BOUND, .INST_STAT_FENCED,
      .INST_STAT_TDI]) ++ onFam .ring [.MOVER_RING_BASE_ADDR, .MOVER_RING_BASE_ADDR_HI, .MOVER_RING_CFG_ENABLE,
      .MOVER_RING_CFG_ENGINE, .MOVER_RING_CFG_KIND, .MOVER_RING_CFG_OWNER, .MOVER_RING_CFG_OWN_KIND, .MOVER_RING_CFG_SIZE_LOG2,
      .MOVER_RING_CFG_STOP_ON_ERR, .MOVER_RING_CPL_BASE_ADDR, .MOVER_RING_CPL_BASE_ADDR_HI, .MOVER_RING_CPL_CTRL_COAL_US,
      .MOVER_RING_CPL_CTRL_IRQ_EN, .MOVER_RING_CPL_CTRL_MODE, .MOVER_RING_CPL_CTRL_VECTOR, .MOVER_RING_CPL_FIFO_DW,
      .MOVER_RING_CPL_HEAD_CPL_HEAD, .MOVER_RING_CPL_TAIL_CPL_TAIL, .MOVER_RING_CPL_TAIL_PHASE, .MOVER_RING_HEAD_HEAD,
      .MOVER_RING_STAT_LAST_INDEX, .MOVER_RING_STAT_LAST_STATUS, .MOVER_RING_STAT_RESUME, .MOVER_RING_STAT_STATE,
      .MOVER_RING_TAIL_TAIL], cnts := [.guard, .core, .mbox, .face, .inst], vars := [.alignMiss, .alignSeen, .appliedSlot,
      .authDebug, .authStep, .badCw, .coalDue, .coalOn, .crAdv, .crInit, .crUsed, .curSet, .dirSeq, .dirSlot, .elogSeq,
      .eqTimeouts, .fetchAt, .fetchN, .fetchTag, .fwSel, .hatchAt, .hatchLate, .ideGo, .ideKey, .injAlign, .laneNum, .liveSig,
      .lsSeen, .meDef, .mkDue, .mkRx, .mkTx, .msixAddr, .msixData, .msixOpen, .msixPend, .nakSent, .nextKey, .ownReq, .paramGot,
      .paramVal, .partnerAspm, .partnerMax, .partnerReady, .partnerRest, .pcieAcked, .pcieRev, .pcieSent, .peerReq, .plate,
      .plateLost, .postStat, .preStat, .presetStat, .pwCause, .pwSwitch, .rehome, .rekeying, .replayAt, .restHeld, .restPend,
      .restSince, .rxKey, .rxNum, .rxRest, .rxSeq, .rxUnacked, .skewCnt, .slotState, .slotTries, .txCount, .txKey, .txLimit,
      .txNum, .txSeq, .txUsed, .unbindBy, .viSlot, .wcCount, .wcDone, .wcFrom, .wcId, .wcOldWidth, .wcSet, .widening], fifos :=
      [.cplFifo, .elog, .faceWrote, .notices, .ringWrote, .viWrote], parts := [.buf, .coders, .descs, .greqs, .out, .replay,
      .slots, .streams, .waiting] }

theorem romSelect_in {F : Foot} (hF : Foot.romSelect.le F = true) (code : Nat → Nat) (a0 : List Nat) :
    (romSelect code a0).In F := by
  fun_induction romSelect code a0
  all_goals
  repeat' first
      | assumption
      | (with_reducible first | exact all_nil_in | refine all_cons_in ?_ ?_ | refine when_in ?_ | refine ite_in ?_ ?_)
      | ((with_reducible refine put_in ?_); (· exact le_vars hF (by decide +kernel)))
      | ((with_reducible refine bootErr_in ?_ ..); (· exact Foot.le_trans (Foot.le_of_runs (by decide +kernel)) hF))
      | ((with_reducible refine romRecovery_in ?_ ..); (· exact Foot.le_trans (Foot.le_of_runs (by decide +kernel)) hF))
      | ((with_reducible refine slotSet_in ?_ ..); (· exact Foot.le_trans (Foot.le_of_runs (by decide +kernel)) hF))
      | ((with_reducible refine slotTried_in ?_ ..); (· exact Foot.le_trans (Foot.le_of_runs (by decide +kernel)) hF))
      | split
      | dsimp only

def Foot.dirLoad : Foot :=
  { vars := [.dirFlash, .slotState, .slotTries] }

theorem dirLoad_in {F : Foot} (hF : Foot.dirLoad.le F = true) (c : Nat) :
    (dirLoad c).In F := by
  unfold dirLoad
  repeat' first
      | (with_reducible first | exact all_nil_in | refine all_cons_in ?_ ?_ | refine look_in fun _ => ?_ | refine forBelow_in fun _ => ?_)
      | ((with_reducible refine put_in ?_); (· exact le_vars hF (by decide +kernel)))
      | split
      | dsimp only

def Foot.fwSlotWrite : Foot :=
  { vars := [.dirSeq, .dirSlot, .fwUnconf, .slotRan, .slotState], parts := [.arb] }

theorem fwSlotWrite_in {F : Foot} (hF : Foot.fwSlotWrite.le F = true) (v : Nat) :
    (fwSlotWrite v).In F := by
  unfold fwSlotWrite
  repeat' first
      | (with_reducible first | exact all_nil_in | refine all_cons_in ?_ ?_ | refine look_in fun _ => ?_ | refine when_in ?_)
      | ((with_reducible refine put_in ?_); (· exact le_vars hF (by decide +kernel)))
      | ((with_reducible refine raiseArb_in ?_); (· exact le_parts hF (by decide +kernel)))
      | ((with_reducible refine slotSet_in ?_ ..); (· exact Foot.le_trans (Foot.le_of_runs (by decide +kernel)) hF))
      | split
      | dsimp only

def Foot.quietPort : Foot :=
  { regs := onFam .guard (errFields ++ fCnt ++ [.GDS_DEVICE_BY_SW, .GDS_DEVICE_CLASS, .GDS_DEVICE_HOLD, .GDS_DEVICE_MERGED,
      .GDS_DEVICE_STATE, .GDS_DEVICE_WINDOW, .GDS_FACE_BY_SW, .GDS_FACE_CLASS, .GDS_FACE_HOLD, .GDS_FACE_MERGED, .GDS_FACE_STATE,
      .GDS_FACE_WINDOW, .GDS_INST_BY_SW, .GDS_INST_CLASS, .GDS_INST_HOLD, .GDS_INST_MERGED, .GDS_INST_STATE, .GDS_INST_WINDOW,
      .GDS_LANE_BY_SW, .GDS_LANE_CLASS, .GDS_LANE_HOLD, .GDS_LANE_MERGED, .GDS_LANE_STATE, .GDS_LANE_WINDOW, .GDS_LINK_BY_SW,
      .GDS_LINK_CLASS, .GDS_LINK_HOLD, .GDS_LINK_MERGED, .GDS_LINK_STATE, .GDS_LINK_WINDOW, .GDS_PORT_BY_SW, .GDS_PORT_CLASS,
      .GDS_PORT_HOLD, .GDS_PORT_MERGED, .GDS_PORT_STATE, .GDS_PORT_WINDOW, .GUARD_ELOG_CTRL_LOST]) ++ onFam .port
      [.BLK_CTRL_QUIESCE] ++ onFam .face (fCnt ++ [.FACE_PRES_SHOWN]), cnts := [.guard, .face], vars := [.elogSeq, .msixPend,
      .presBar, .presBarSet, .presBase, .presCmd, .presInfo, .presRom, .sizing, .slotCtl, .slotStat], fifos := [.elog, .faceWrote,
      .viWrote], parts := [.greqs, .out] }

theorem quietPort_in {F : Foot} (hF : Foot.quietPort.le F = true) (p : Nat) :
    (quietPort p).In F := by
  unfold quietPort
  repeat' first
      | (with_reducible first | refine look_in fun _ => ?_)
      | ((with_reducible refine powerQuiesce_in ?_ ..); (· exact Foot.le_trans (Foot.le_of_runs (by decide +kernel)) hF))
      | split
      | dsimp only

def Foot.quietStart : Foot :=
  { regs := onFam .glb [.GLB_DEV_STATE_STATE] ++ onFam .guard (errFields ++ fCnt ++ [.GDS_DEVICE_BY_SW, .GDS_DEVICE_CLASS,
      .GDS_DEVICE_HOLD, .GDS_DEVICE_MERGED, .GDS_DEVICE_STATE, .GDS_DEVICE_WINDOW, .GDS_FACE_BY_SW, .GDS_FACE_CLASS,
      .GDS_FACE_HOLD, .GDS_FACE_MERGED, .GDS_FACE_STATE, .GDS_FACE_WINDOW, .GDS_INST_BY_SW, .GDS_INST_CLASS, .GDS_INST_HOLD,
      .GDS_INST_MERGED, .GDS_INST_STATE, .GDS_INST_WINDOW, .GDS_LANE_BY_SW, .GDS_LANE_CLASS, .GDS_LANE_HOLD, .GDS_LANE_MERGED,
      .GDS_LANE_STATE, .GDS_LANE_WINDOW, .GDS_LINK_BY_SW, .GDS_LINK_CLASS, .GDS_LINK_HOLD, .GDS_LINK_MERGED, .GDS_LINK_STATE,
      .GDS_LINK_WINDOW, .GDS_PORT_BY_SW, .GDS_PORT_CLASS, .GDS_PORT_HOLD, .GDS_PORT_MERGED, .GDS_PORT_STATE, .GDS_PORT_WINDOW,
      .GUARD_ELOG_CTRL_LOST]) ++ onFam .pwr [.PWR_CH_STAT_STATE, .PWR_CH_STAT_WARN] ++ onFam .port [.BLK_CTRL_QUIESCE] ++ onFam
      .face (fCnt ++ [.FACE_PRES_SHOWN]), cnts := [.guard, .face], vars := [.elogSeq, .msixPend, .presBar, .presBarSet, .presBase,
      .presCmd, .presInfo, .presRom, .pwCause, .pwSwitch, .quietRun, .sizing, .slotCtl, .slotStat, .wakeCtl, .wakeFaces], fifos :=
      [.elog, .faceWrote, .viWrote], parts := [.greqs, .out] }

theorem quietStart_in {F : Foot} (hF : Foot.quietStart.le F = true)  :
    (quietStart).In F := by
  unfold quietStart
  repeat' first
      | (with_reducible first | exact all_nil_in | refine all_cons_in ?_ ?_ | refine look_in fun _ => ?_ | refine when_in ?_ | refine forBelow_in fun _ => ?_ | refine forEach_in fun _ => ?_)
      | ((with_reducible refine put_in ?_); (· exact le_vars hF (by decide +kernel)))
      | ((with_reducible refine chanOff_in ?_ ..); (· exact Foot.le_trans (Foot.le_of_runs (by decide +kernel)) hF))
      | ((with_reducible refine quietPort_in ?_ ..); (· exact Foot.le_trans (Foot.le_of_runs (by decide +kernel)) hF))
      | ((with_reducible refine toDevice_in ?_ ..); (· exact Foot.le_trans (Foot.le_of_runs (by decide +kernel)) hF))
      | split
      | dsimp only

def Foot.quietCtrlWrite : Foot :=
  { regs := onFam .glb [.GLB_DEV_STATE_STATE, .GLB_QUIET_CTRL_ENTER, .GLB_QUIET_CTRL_KEY, .GLB_QUIET_CTRL_WAKE_FPERST,
      .GLB_QUIET_CTRL_WAKE_PRSNT, .GLB_QUIET_CTRL_WAKE_TIMER_EN] ++ onFam .guard (errFields ++ fCnt ++ [.GDS_DEVICE_BY_SW,
      .GDS_DEVICE_CLASS, .GDS_DEVICE_HOLD, .GDS_DEVICE_MERGED, .GDS_DEVICE_STATE, .GDS_DEVICE_WINDOW, .GDS_FACE_BY_SW,
      .GDS_FACE_CLASS, .GDS_FACE_HOLD, .GDS_FACE_MERGED, .GDS_FACE_STATE, .GDS_FACE_WINDOW, .GDS_INST_BY_SW, .GDS_INST_CLASS,
      .GDS_INST_HOLD, .GDS_INST_MERGED, .GDS_INST_STATE, .GDS_INST_WINDOW, .GDS_LANE_BY_SW, .GDS_LANE_CLASS, .GDS_LANE_HOLD,
      .GDS_LANE_MERGED, .GDS_LANE_STATE, .GDS_LANE_WINDOW, .GDS_LINK_BY_SW, .GDS_LINK_CLASS, .GDS_LINK_HOLD, .GDS_LINK_MERGED,
      .GDS_LINK_STATE, .GDS_LINK_WINDOW, .GDS_PORT_BY_SW, .GDS_PORT_CLASS, .GDS_PORT_HOLD, .GDS_PORT_MERGED, .GDS_PORT_STATE,
      .GDS_PORT_WINDOW, .GUARD_ELOG_CTRL_LOST]) ++ onFam .pwr [.PWR_CH_STAT_STATE, .PWR_CH_STAT_WARN] ++ onFam .port
      [.BLK_CTRL_QUIESCE] ++ onFam .face (fCnt ++ [.FACE_PRES_SHOWN]), cnts := [.guard, .face], vars := [.elogSeq, .msixPend,
      .presBar, .presBarSet, .presBase, .presCmd, .presInfo, .presRom, .pwCause, .pwSwitch, .quietRun, .sizing, .slotCtl,
      .slotStat, .wakeCtl, .wakeFaces], fifos := [.elog, .faceWrote, .viWrote], parts := [.greqs, .out] }

theorem quietCtrlWrite_in {F : Foot} (hF : Foot.quietCtrlWrite.le F = true) (st : Stamp) (v : Nat) :
    (quietCtrlWrite st v).In F := by
  unfold quietCtrlWrite
  repeat' first
      | (with_reducible first | exact all_nil_in | refine all_cons_in ?_ ?_ | refine when_in ?_)
      | ((with_reducible refine plainWrite_in ?_ _ _); (· first | exact fun fi m => le_regs hF ((show ∀ fi ∈ atOff (tabHDR ++ tabGLB) 0x114, (Fam.glb, fi.1) ∈ Foot.quietCtrlWrite.regs by decide +kernel) fi m)))
      | ((with_reducible refine quietStart_in ?_ ..); (· exact Foot.le_trans (Foot.le_of_runs (by decide +kernel)) hF))
      | split
      | dsimp only

end Sys2Proof.Machine
end

