-- ==== Sys2Proof/Laws/FrameTurn.lean ====
section
/-! SUPPORT. What each update of Machine/Turn.lean may touch. -/

namespace Sys2Proof.Machine

set_option Elab.async false
set_option linter.unusedTactic false
set_option linter.unreachableTactic false

def Foot.cycleStarts : Foot :=
  { regs := onFam .schedg [.SCHED_CYC_LEN_LEN], vars := [.cycEdge, .cycEdgeNext, .cycRes, .cycResNext, .cycStart, .holdCount], parts
      := [.now] }

theorem cycleStarts_in {F : Foot} (hF : Foot.cycleStarts.le F = true) (b len : Nat) :
    (cycleStarts b len).In F := by
  unfold cycleStarts
  repeat' first
      | (with_reducible first | exact all_nil_in | refine all_cons_in ?_ ?_ | refine look_in fun _ => ?_)
      | ((with_reducible refine put_in ?_); (· exact le_vars hF (by decide +kernel)))
      | ((with_reducible refine wr_in ?_ ?_); (· first | exact own_mem (show _ ∈ tabSCHEDG by decide +kernel)); (· first | exact le_regs hF (show (Fam.schedg, _) ∈ _ by decide +kernel)))
      | ((with_reducible refine timeTo_in ?_ ..); (· exact Foot.le_trans (Foot.le_of_runs (by decide +kernel)) hF))
      | split
      | dsimp only

def Foot.setCycle : Foot :=
  { regs := onFam .schedg [.SCHED_CYC_NUM_CYCLE, .SCHED_CYC_NUM_CYCLE_HI] }

theorem setCycle_in {F : Foot} (hF : Foot.setCycle.le F = true) (c : Nat) :
    (setCycle c).In F := by
  unfold setCycle
  repeat' first
      | (with_reducible first | exact all_nil_in | refine all_cons_in ?_ ?_)
      | ((with_reducible refine wr_in ?_ ?_); (· first | exact own_mem (show _ ∈ tabSCHEDG by decide +kernel)); (· first | exact le_regs hF (show (Fam.schedg, _) ∈ _ by decide +kernel)))
      | split
      | dsimp only

def Foot.firstBoundary : Foot :=
  { regs := onFam .face fCnt ++ onFam .schedg [.SCHED_CYC_LEN_LEN, .SCHED_CYC_NUM_CYCLE, .SCHED_CYC_NUM_CYCLE_HI,
      .SCHED_CYC_STAT_EVER_LOCKED, .SCHED_CYC_STAT_STATE, .SCHED_CYC_STAT_STRATUM] ++ onFam .sched (fCnt ++
      [.SCHED_HATCH_STAT_ENTRY_NOW]), cnts := [.face, .sched], vars := [.acqAt, .acqNum, .cbsAt, .cbsCr, .cycEdge, .cycEdgeNext,
      .cycFirst, .cycLast, .cycOut, .cycP, .cycPrev, .cycRes, .cycResNext, .cycStart, .edgeIv, .edgeLast, .edgeRun, .guardMiss,
      .guardOpen, .holdCount, .mkRun, .msixPend, .relock, .relockNum], fifos := [.faceWrote, .viWrote], parts := [.now, .out] }

theorem firstBoundary_in {F : Foot} (hF : Foot.firstBoundary.le F = true) (b c len : Nat) (st : Nat) :
    (firstBoundary b c len st).In F := by
  unfold firstBoundary
  repeat' first
      | (with_reducible first | exact all_nil_in | refine all_cons_in ?_ ?_ | refine look_in fun _ => ?_ | refine when_in ?_ | refine ite_in ?_ ?_)
      | ((with_reducible refine put_in ?_); (· exact le_vars hF (by decide +kernel)))
      | ((with_reducible refine wr_in ?_ ?_); (· first | exact own_mem (show _ ∈ tabSCHEDG by decide +kernel)); (· first | exact le_regs hF (show (Fam.schedg, _) ∈ _ by decide +kernel)))
      | ((with_reducible refine acquireAfresh_in ?_ ..); (· exact Foot.le_trans (Foot.le_of_runs (by decide +kernel)) hF))
      | ((with_reducible refine cycleStarts_in ?_ ..); (· exact Foot.le_trans (Foot.le_of_runs (by decide +kernel)) hF))
      | ((with_reducible refine setCycle_in ?_ ..); (· exact Foot.le_trans (Foot.le_of_runs (by decide +kernel)) hF))
      | ((with_reducible refine setTracker_in ?_ ..); (· exact Foot.le_trans (Foot.le_of_runs (by decide +kernel)) hF))
      | split
      | dsimp only

def Foot.trackerRelock : Foot :=
  { regs := onFam .guard (errFields ++ fCnt ++ [.GUARD_ELOG_CTRL_LOST]) ++ onFam .face fCnt ++ onFam .schedg (errFields ++ fCnt ++
      [.SCHED_CYC_NUM_CYCLE, .SCHED_CYC_NUM_CYCLE_HI, .SCHED_CYC_STAT_HOLD_LEFT, .SCHED_CYC_STAT_STATE]) ++ onFam .sched (fCnt ++
      [.SCHED_HATCH_STAT_ENTRY_NOW]), cnts := [.guard, .face, .schedg, .sched], vars := [.acqAt, .acqNum, .asSource, .cbsAt,
      .cbsCr, .cycOut, .edgeIv, .edgeLast, .edgeRun, .elogSeq, .errRun, .guardMiss, .guardOpen, .mkRun, .msixPend, .relock,
      .relockNum], fifos := [.elog, .faceWrote, .viWrote], parts := [.greqs, .out] }

theorem trackerRelock_in {F : Foot} (hF : Foot.trackerRelock.le F = true)  :
    (trackerRelock).In F := by
  unfold trackerRelock
  repeat' first
      | (with_reducible first | exact all_nil_in | refine all_cons_in ?_ ?_ | refine look_in fun _ => ?_ | refine when_in ?_)
      | ((with_reducible refine put_in ?_); (· exact le_vars hF (by decide +kernel)))
      | ((with_reducible refine wr_in ?_ ?_); (· first | exact hdr_mem rfl (by decide +kernel) | exact own_mem (show _ ∈ tabGUARD0 by decide +kernel) | exact own_mem (show _ ∈ tabSCHEDG by decide +kernel)); (· first | exact le_regs hF (show (Fam.face, _) ∈ _ by decide +kernel) | exact le_regs hF (show (Fam.guard, _) ∈ _ by decide +kernel) | exact le_regs hF (show (Fam.schedg, _) ∈ _ by decide +kernel)))
      | ((with_reducible refine bump_in ?_ ?_ ..); (· rfl); (· first | exact Foot.le_trans (F := Foot.counting .schedg) (by decide +kernel) hF))
      | ((with_reducible refine raise_in ?_ ?_ ..); (· rfl); (· first | exact Foot.le_trans (F := Foot.error .schedg) (by decide +kernel) hF))
      | ((with_reducible refine acquireAfresh_in ?_ ..); (· exact Foot.le_trans (Foot.le_of_runs (by decide +kernel)) hF))
      | ((with_reducible refine setCycle_in ?_ ..); (· exact Foot.le_trans (Foot.le_of_runs (by decide +kernel)) hF))
      | ((with_reducible refine setTracker_in ?_ ..); (· exact Foot.le_trans (Foot.le_of_runs (by decide +kernel)) hF))
      | split
      | dsimp only

def Foot.turnFree : Foot :=
  { regs := onFam .face fCnt ++ onFam .schedg [.SCHED_CYC_STAT_HOLD_LEFT, .SCHED_CYC_STAT_STATE, .SCHED_CYC_STAT_STRATUM] ++ onFam
      .sched (fCnt ++ [.SCHED_HATCH_STAT_ENTRY_NOW]), cnts := [.face, .sched], vars := [.acqAt, .acqNum, .cbsAt, .cbsCr, .cycOut,
      .edgeIv, .edgeLast, .edgeRun, .guardMiss, .guardOpen, .mkRun, .msixPend, .relock, .relockNum, .toFree], fifos :=
      [.faceWrote, .viWrote], parts := [.out] }

theorem turnFree_in {F : Foot} (hF : Foot.turnFree.le F = true)  :
    (turnFree).In F := by
  unfold turnFree
  repeat' first
      | (with_reducible first | exact all_nil_in | refine all_cons_in ?_ ?_)
      | ((with_reducible refine put_in ?_); (· exact le_vars hF (by decide +kernel)))
      | ((with_reducible refine wr_in ?_ ?_); (· first | exact own_mem (show _ ∈ tabSCHEDG by decide +kernel)); (· first | exact le_regs hF (show (Fam.schedg, _) ∈ _ by decide +kernel)))
      | ((with_reducible refine acquireAfresh_in ?_ ..); (· exact Foot.le_trans (Foot.le_of_runs (by decide +kernel)) hF))
      | ((with_reducible refine setTracker_in ?_ ..); (· exact Foot.le_trans (Foot.le_of_runs (by decide +kernel)) hF))
      | split
      | dsimp only

def Foot.nextBoundary : Foot :=
  { regs := onFam .guard (errFields ++ fCnt ++ [.GUARD_ELOG_CTRL_LOST]) ++ onFam .face fCnt ++ onFam .schedg (errFields ++ fCnt ++
      [.SCHED_CYC_LEN_LEN, .SCHED_CYC_NUM_CYCLE, .SCHED_CYC_NUM_CYCLE_HI, .SCHED_CYC_STAT_HOLD_LEFT, .SCHED_CYC_STAT_STATE,
      .SCHED_CYC_STAT_STRATUM]) ++ onFam .sched (fCnt ++ [.SCHED_HATCH_STAT_ENTRY_NOW]), cnts := [.guard, .face, .schedg, .sched],
      vars := [.acqAt, .acqNum, .asSource, .cbsAt, .cbsCr, .cycEdge, .cycEdgeNext, .cycNext, .cycNext2, .cycOut, .cycP, .cycPrev,
      .cycRes, .cycResNext, .cycStart, .edgeIv, .edgeLast, .edgeRun, .elogSeq, .errRun, .guardMiss, .guardOpen, .holdCount,
      .mkRun, .msixPend, .relock, .relockNum, .toFree], fifos := [.elog, .faceWrote, .viWrote], parts := [.greqs, .now, .out] }

theorem nextBoundary_in {F : Foot} (hF : Foot.nextBoundary.le F = true)  :
    (nextBoundary).In F := by
  unfold nextBoundary
  repeat' first
      | (with_reducible first | exact all_nil_in | refine all_cons_in ?_ ?_ | refine look_in fun _ => ?_ | refine when_in ?_ | refine ite_in ?_ ?_)
      | ((with_reducible refine put_in ?_); (· exact le_vars hF (by decide +kernel)))
      | ((with_reducible refine bump_in ?_ ?_ ..); (· rfl); (· first | exact Foot.le_trans (F := Foot.counting .schedg) (by decide +kernel) hF))
      | ((with_reducible refine cycleStarts_in ?_ ..); (· exact Foot.le_trans (Foot.le_of_runs (by decide +kernel)) hF))
      | ((with_reducible refine setCycle_in ?_ ..); (· exact Foot.le_trans (Foot.le_of_runs (by decide +kernel)) hF))
      | ((with_reducible refine trackerRelock_in ?_ ..); (· exact Foot.le_trans (Foot.le_of_runs (by decide +kernel)) hF))
      | ((with_reducible refine turnFree_in ?_ ..); (· exact Foot.le_trans (Foot.le_of_runs (by decide +kernel)) hF))
      | split
      | dsimp only

def Foot.lateCommit : Foot :=
  { regs := onFam .guard (errFields ++ fCnt ++ [.GUARD_ELOG_CTRL_LOST]) ++ onFam .face fCnt ++ onFam .schedg (errFields ++ fCnt ++
      [.SCHED_CYC_STAT_HOLD_LEFT, .SCHED_CYC_STAT_STATE]) ++ onFam .sched (fCnt ++ [.SCHED_HATCH_STAT_ENTRY_NOW]), cnts :=
      [.guard, .face, .schedg, .sched], vars := [.asSource, .cbsAt, .cbsCr, .cycNext, .cycOut, .cycP, .elogSeq, .errRun,
      .guardMiss, .guardOpen, .msixPend, .relock, .relockNum], fifos := [.elog, .faceWrote, .viWrote], parts := [.greqs, .out] }

theorem lateCommit_in {F : Foot} (hF : Foot.lateCommit.le F = true)  :
    (lateCommit).In F := by
  unfold lateCommit
  repeat' first
      | (with_reducible first | exact all_nil_in | refine all_cons_in ?_ ?_ | refine look_in fun _ => ?_ | refine when_in ?_)
      | ((with_reducible refine commit_in ?_ ..); (· exact Foot.le_trans (Foot.le_of_runs (by decide +kernel)) hF))
      | ((with_reducible refine enterHoldover_in ?_ ..); (· exact Foot.le_trans (Foot.le_of_runs (by decide +kernel)) hF))
      | split
      | dsimp only

def Foot.turnBoundary : Foot :=
  { regs := onFam .guard (errFields ++ fCnt ++ [.GUARD_ELOG_CTRL_LOST]) ++ onFam .route (errFields ++ fCnt ++
      [.ROUTE_LIVE_SEL_GRACE_LEFT, .ROUTE_LIVE_SEL_LIVE, .ROUTE_LIVE_SEL_P0_STATE, .ROUTE_LIVE_SEL_P0_VERIFIED,
      .ROUTE_LIVE_SEL_P1_STATE, .ROUTE_LIVE_SEL_P1_VERIFIED, .ROUTE_TURN_CTRL_ARM, .ROUTE_TURN_CTRL_STATUS]) ++ onFam .bridge fCnt
      ++ onFam .port [.PORT_LINK_STAT_STATE] ++ onFam .face fCnt, cnts := [.guard, .route, .bridge, .face], vars := [.elogSeq,
      .guardBack, .liveSig, .msixPend, .skewCnt, .turnAt], fifos := [.elog, .faceWrote, .viWrote], parts := [.greqs, .out, .prefs,
      .streams] }

theorem turnBoundary_in {F : Foot} (hF : Foot.turnBoundary.le F = true) (c : Nat) :
    (turnBoundary c).In F := by
  unfold turnBoundary
  repeat' first
      | (with_reducible first | exact all_nil_in | refine all_cons_in ?_ ?_ | refine look_in fun _ => ?_ | refine when_in ?_ | refine ite_in ?_ ?_)
      | ((with_reducible refine fabPortAdmit_in ?_ ..); (· exact Foot.le_trans (Foot.le_of_runs (by decide +kernel)) hF))
      | ((with_reducible refine graceTick_in ?_ ..); (· exact Foot.le_trans (Foot.le_of_runs (by decide +kernel)) hF))
      | ((with_reducible refine plateTurn_in ?_ ..); (· exact Foot.le_trans (Foot.le_of_runs (by decide +kernel)) hF))
      | ((with_reducible refine prefDiscard_in ?_ ..); (· exact Foot.le_trans (Foot.le_of_runs (by decide +kernel)) hF))
      | ((with_reducible refine streamsRestart_in ?_ ..); (· exact Foot.le_trans (Foot.le_of_runs (by decide +kernel)) hF))
      | ((with_reducible refine turnMissed_in ?_ ..); (· exact Foot.le_trans (Foot.le_of_runs (by decide +kernel)) hF))
      | split
      | dsimp only

def Foot.portBoundary : Foot :=
  { regs := onFam .guard (errFields ++ fCnt ++ [.GUARD_ELOG_CTRL_LOST]) ++ onFam .face fCnt ++ onFam .sched (errFields ++ fCnt ++
      [.SCHED_HATCH_CTRL_ARM, .SCHED_HATCH_CTRL_STATUS, .SCHED_HATCH_START_CYCLE, .SCHED_HATCH_START_CYCLE_HI,
      .SCHED_HATCH_STAT_ACTIVE, .SCHED_HATCH_STAT_ANY_ACTIVE, .SCHED_HATCH_STAT_A_STATE, .SCHED_HATCH_STAT_A_VERIFIED,
      .SCHED_HATCH_STAT_B_STATE, .SCHED_HATCH_STAT_B_VERIFIED, .SCHED_HATCH_STAT_ENTRY_NOW, .SCHED_HATCH_STAT_LATE]), cnts :=
      [.guard, .face, .sched], vars := [.cbsAt, .cbsCr, .elogSeq, .guardMiss, .guardOpen, .hatchAt, .hatchLate, .msixPend], fifos
      := [.elog, .faceWrote, .viWrote], parts := [.greqs, .out] }

theorem portBoundary_in {F : Foot} (hF : Foot.portBoundary.le F = true) (c p : Nat) :
    (portBoundary c p).In F := by
  unfold portBoundary
  repeat' first
      | (with_reducible first | exact all_nil_in | refine all_cons_in ?_ ?_ | refine look_in fun _ => ?_ | refine ite_in ?_ ?_)
      | ((with_reducible refine wr_in ?_ ?_); (· first | exact own_mem (show _ ∈ tabSCHED by decide +kernel)); (· first | exact le_regs hF (show (Fam.sched, _) ∈ _ by decide +kernel)))
      | ((with_reducible refine gateChange_in ?_ ..); (· exact Foot.le_trans (Foot.le_of_runs (by decide +kernel)) hF))
      | ((with_reducible refine hatchBoundary_in ?_ ..); (· exact Foot.le_trans (Foot.le_of_runs (by decide +kernel)) hF))
      | ((with_reducible refine shaperAdvance_in ?_ ..); (· exact Foot.le_trans (Foot.le_of_runs (by decide +kernel)) hF))
      | split
      | dsimp only

def Foot.boundaryActions : Foot :=
  { regs := onFam .guard (errFields ++ fCnt ++ [.GUARD_ELOG_CTRL_LOST]) ++ onFam .core (fCnt ++ [.CORE_WM_STAT_WM_CROSS_CNT,
      .CORE_WM_STAT_WM_EVENT, .CORE_WM_STAT_WM_LEVEL]) ++ onFam .route (errFields ++ fCnt ++ [.ROUTE_LIVE_SEL_GRACE_LEFT,
      .ROUTE_LIVE_SEL_LIVE, .ROUTE_LIVE_SEL_P0_STATE, .ROUTE_LIVE_SEL_P0_VERIFIED, .ROUTE_LIVE_SEL_P1_STATE,
      .ROUTE_LIVE_SEL_P1_VERIFIED, .ROUTE_TURN_CTRL_ARM, .ROUTE_TURN_CTRL_STATUS]) ++ onFam .bridge (errFields ++ fCnt ++
      [.BRIDGE_LOCK_STAT_HOLDER, .BRIDGE_LOCK_STAT_LOCKED, .BRIDGE_PROOF_WM_STAT_WM_CROSS_CNT, .BRIDGE_PROOF_WM_STAT_WM_EVENT,
      .BRIDGE_PROOF_WM_STAT_WM_LEVEL]) ++ onFam .port [.PORT_LINK_STAT_STATE] ++ onFam .face fCnt ++ onFam .schedg fCnt ++ onFam
      .sched (errFields ++ fCnt ++ [.SCHED_HATCH_CTRL_ARM, .SCHED_HATCH_CTRL_STATUS, .SCHED_HATCH_START_CYCLE,
      .SCHED_HATCH_START_CYCLE_HI, .SCHED_HATCH_STAT_ACTIVE, .SCHED_HATCH_STAT_ANY_ACTIVE, .SCHED_HATCH_STAT_A_STATE,
      .SCHED_HATCH_STAT_A_VERIFIED, .SCHED_HATCH_STAT_B_STATE, .SCHED_HATCH_STAT_B_VERIFIED, .SCHED_HATCH_STAT_ENTRY_NOW,
      .SCHED_HATCH_STAT_LATE]), cnts := [.guard, .core, .route, .bridge, .face, .schedg, .sched], vars := [.cbsAt, .cbsCr,
      .cycOut, .elogSeq, .guardBack, .guardMiss, .guardOpen, .hatchAt, .hatchLate, .liveSig, .msixPend, .pktId, .polAt, .polC,
      .polP, .redAvg, .skewCnt, .stipCnt, .stipSeq, .turnAt], fifos := [.elog, .faceWrote, .missLog, .viWrote], parts := [.buf,
      .free, .greqs, .out, .prefs, .streams, .waiting] }

theorem boundaryActions_in {F : Foot} (hF : Foot.boundaryActions.le F = true)  :
    (boundaryActions).In F := by
  unfold boundaryActions
  repeat' first
      | (with_reducible first | exact all_nil_in | refine all_cons_in ?_ ?_ | refine look_in fun _ => ?_ | refine forBelow_in fun _ => ?_ | refine forEach_in fun _ => ?_)
      | ((with_reducible refine cycOutRise_in ?_ ..); (· exact Foot.le_trans (Foot.le_of_runs (by decide +kernel)) hF))
      | ((with_reducible refine fabPortRejoin_in ?_ ..); (· exact Foot.le_trans (Foot.le_of_runs (by decide +kernel)) hF))
      | ((with_reducible refine plateSkewCheck_in ?_ ..); (· exact Foot.le_trans (Foot.le_of_runs (by decide +kernel)) hF))
      | ((with_reducible refine portBoundary_in ?_ ..); (· exact Foot.le_trans (Foot.le_of_runs (by decide +kernel)) hF))
      | ((with_reducible refine sendLinkStatus_in ?_ ..); (· exact Foot.le_trans (Foot.le_of_runs (by decide +kernel)) hF))
      | ((with_reducible refine turnBoundary_in ?_ ..); (· exact Foot.le_trans (Foot.le_of_runs (by decide +kernel)) hF))
      | split
      | dsimp only

end Sys2Proof.Machine
end

