-- ==== Sys2Proof/Laws/FrameHeader.lean ====
section
/-! SUPPORT. What each update of Machine/Header.lean may touch. -/

namespace Sys2Proof.Machine

set_option Elab.async false
set_option linter.unusedTactic false
set_option linter.unreachableTactic false

def Foot.sevWrite : Foot :=
  { vars := [.errSev] }

theorem sevWrite_in {F : Foot} (hF : Foot.sevWrite.le F = true) (pg : Pg) (b v : Nat) :
    (sevWrite pg b v).In F := by
  unfold sevWrite
  repeat' first
      | (with_reducible first | refine when_in ?_ | refine forBelow_in fun _ => ?_)
      | ((with_reducible refine put_in ?_); (· exact le_vars hF (by decide +kernel)))
      | split
      | dsimp only

end Sys2Proof.Machine
end

