-- ==== Sys2Proof/Laws/FrameAccess.lean ====
section
/-! SUPPORT. What each update of Machine/Access.lean may touch. -/

namespace Sys2Proof.Machine

set_option Elab.async false
set_option linter.unusedTactic false
set_option linter.unreachableTactic false

def Foot.windowWrite : Foot :=
  { regs := onFam .guard (errFields ++ fCnt ++ [.GUARD_ELOG_CTRL_LOST]) ++ onFam .core (fCnt ++ [.CORE_WM_STAT_WM_CROSS_CNT,
      .CORE_WM_STAT_WM_EVENT, .CORE_WM_STAT_WM_LEVEL]) ++ onFam .route (errFields ++ fCnt) ++ onFam .bridge (errFields ++ fCnt ++
      [.BRIDGE_LOCK_STAT_HOLDER, .BRIDGE_LOCK_STAT_LOCKED, .BRIDGE_PROOF_WM_STAT_WM_CROSS_CNT, .BRIDGE_PROOF_WM_STAT_WM_EVENT,
      .BRIDGE_PROOF_WM_STAT_WM_LEVEL]) ++ onFam .mbox (errFields ++ fCnt ++ [.MBOX_REJ_LOG_SID, .MBOX_REJ_LOG_SKIND,
      .MBOX_REJ_LOG_STAMP, .MBOX_REJ_LOG_STATUS]) ++ onFam .face (fCnt ++ [.FACE_PM_STAT_FWAKE, .FACE_PM_STAT_PME_STATUS]) ++
      onFam .schedg fCnt, cnts := [.guard, .core, .route, .bridge, .mbox, .face, .schedg], vars := [.cbsAt, .cbsCr, .elogSeq,
      .msixPend, .pktId, .polAt, .polC, .polP, .qArm, .redAvg, .stipCnt, .stipSeq, .win], fifos := [.elog, .faceWrote, .missLog,
      .notices, .posts, .viWrote], parts := [.buf, .free, .greqs, .out, .streams, .waiting] }

theorem windowWrite_in {F : Foot} (hF : Foot.windowWrite.le F = true) (st : Stamp) (w : NWin) (off v : Nat) :
    (windowWrite st w off v).In F := by
  unfold windowWrite
  repeat' first
      | (with_reducible first | refine when_in ?_ | refine ite_in ?_ ?_)
      | ((with_reducible refine put_in ?_); (· exact le_vars hF (by decide +kernel)))
      | ((with_reducible refine arm_in ?_ ..); (· exact Foot.le_trans (Foot.le_of_runs (by decide +kernel)) hF))
      | ((with_reducible refine noticePostWrite_in ?_ ..); (· exact Foot.le_trans (Foot.le_of_runs (by decide +kernel)) hF))
      | split
      | dsimp only

def Foot.dropUppers : Foot :=
  { vars := [.upperLow] }

theorem dropUppers_in {F : Foot} (hF : Foot.dropUppers.le F = true) (st : Stamp) (t : Target) (n : Nat) :
    (dropUppers st t n).In F := by
  unfold dropUppers
  repeat' first
      | (with_reducible first | exact skip_in | refine look_in fun _ => ?_ | refine when_in ?_ | refine forBelow_in fun _ => ?_ | refine forSome_in fun _ => ?_)
      | ((with_reducible refine upperDrop_in ?_ ..); (· exact Foot.le_trans (Foot.le_of_runs (by decide +kernel)) hF))
      | split
      | dsimp only

end Sys2Proof.Machine
end

