-- ==== Sys2Proof/Laws/FrameHostReq.lean ====
section
/-! SUPPORT. What each update of Machine/HostReq.lean may touch. -/

namespace Sys2Proof.Machine

set_option Elab.async false
set_option linter.unusedTactic false
set_option linter.unreachableTactic false

def Foot.hostMiss : Foot :=
  { regs := onFam .guard (errFields ++ fCnt ++ [.GUARD_ELOG_CTRL_LOST]) ++ onFam .route (errFields ++ fCnt) ++ onFam .face fCnt,
      cnts := [.guard, .route, .face], vars := [.elogSeq, .msixPend, .pcieSent], fifos := [.elog, .faceWrote, .missLog, .viWrote],
      parts := [.greqs, .out] }

theorem hostMiss_in {F : Foot} (hF : Foot.hostMiss.le F = true) (f : Nat) (t : Tlp) (cause addr : Nat) :
    (hostMiss f t cause addr).In F := by
  unfold hostMiss
  repeat' first
      | (with_reducible first | exact all_nil_in | refine all_cons_in ?_ ?_ | refine look_in fun _ => ?_ | refine when_in ?_)
      | ((with_reducible refine countIngress_in ?_ ..); (· exact Foot.le_trans (Foot.le_of_runs (by decide +kernel)) hF))
      | ((with_reducible refine miss_in ?_ ..); (· exact Foot.le_trans (Foot.le_of_runs (by decide +kernel)) hF))
      | ((with_reducible refine selfCpl_in ?_ ..); (· exact Foot.le_trans (Foot.le_of_runs (by decide +kernel)) hF))
      | split
      | dsimp only

def Foot.poisonSeen : Foot :=
  { regs := onFam .guard (errFields ++ fCnt ++ [.GUARD_ELOG_CTRL_LOST]) ++ onFam .face fCnt, cnts := [.guard, .face], vars :=
      [.elogSeq, .msixPend], fifos := [.elog, .faceWrote, .viWrote], parts := [.greqs, .out] }

theorem poisonSeen_in {F : Foot} (hF : Foot.poisonSeen.le F = true) (t : Tlp) :
    (poisonSeen t).In F := by
  unfold poisonSeen
  repeat' first
      | (with_reducible first | exact all_nil_in | refine all_cons_in ?_ ?_ | refine when_in ?_)
      | ((with_reducible refine bump_in ?_ ?_ ..); (· rfl); (· first | exact Foot.le_trans (F := Foot.counting .guard) (by decide +kernel) hF))
      | ((with_reducible refine raise_in ?_ ?_ ..); (· rfl); (· first | exact Foot.le_trans (F := Foot.error .guard) (by decide +kernel) hF))
      | split
      | dsimp only

def Foot.toMembers : Foot :=
  { regs := onFam .guard (errFields ++ fCnt ++ [.GUARD_ELOG_CTRL_LOST]) ++ onFam .core (errFields ++ fCnt ++
      [.CORE_WM_STAT_WM_CROSS_CNT, .CORE_WM_STAT_WM_EVENT, .CORE_WM_STAT_WM_LEVEL]) ++ onFam .route (errFields ++ fCnt) ++ onFam
      .bridge (errFields ++ fCnt ++ [.BRIDGE_LOCK_STAT_HOLDER, .BRIDGE_LOCK_STAT_LOCKED, .BRIDGE_PROOF_WM_STAT_WM_CROSS_CNT,
      .BRIDGE_PROOF_WM_STAT_WM_EVENT, .BRIDGE_PROOF_WM_STAT_WM_LEVEL]) ++ onFam .face fCnt ++ onFam .schedg fCnt, cnts := [.guard,
      .core, .route, .bridge, .face, .schedg], vars := [.cbsAt, .cbsCr, .elogSeq, .msixPend, .pktId, .polAt, .polC, .polP,
      .redAvg, .stipCnt, .stipSeq], fifos := [.elog, .faceWrote, .missLog, .viWrote], parts := [.buf, .free, .greqs, .out,
      .streams, .waiting] }

theorem toMembers_in {F : Foot} (hF : Foot.toMembers.le F = true) (ing : Ing) (g : Frame) (k : Nat) (tailIn : Bool) :
    (toMembers ing g k tailIn).In F := by
  unfold toMembers
  repeat' first
      | (with_reducible first | exact all_nil_in | refine all_cons_in ?_ ?_ | refine look_in fun _ => ?_ | refine when_in ?_ | refine ite_in ?_ ?_)
      | ((with_reducible refine raise_in ?_ ?_ ..); (· rfl); (· first | exact Foot.le_trans (F := Foot.error .core) (by decide +kernel) hF))
      | ((with_reducible refine offer_in ?_ ..); (· exact Foot.le_trans (Foot.le_of_runs (by decide +kernel)) hF))
      | ((with_reducible refine poisonDrop_in ?_ ..); (· exact Foot.le_trans (Foot.le_of_runs (by decide +kernel)) hF))
      | split
      | dsimp only

def Foot.toDest : Foot :=
  { regs := onFam .sec (errFields ++ fCnt) ++ onFam .guard (errFields ++ fCnt ++ [.GUARD_ELOG_CTRL_LOST]) ++ onFam .core (errFields
      ++ fCnt ++ [.CORE_WM_STAT_WM_CROSS_CNT, .CORE_WM_STAT_WM_EVENT, .CORE_WM_STAT_WM_LEVEL]) ++ onFam .route (errFields ++ fCnt)
      ++ onFam .bridge (errFields ++ fCnt ++ [.BRIDGE_LOCK_STAT_HOLDER, .BRIDGE_LOCK_STAT_LOCKED,
      .BRIDGE_PROOF_WM_STAT_WM_CROSS_CNT, .BRIDGE_PROOF_WM_STAT_WM_EVENT, .BRIDGE_PROOF_WM_STAT_WM_LEVEL]) ++ onFam .face
      (errFields ++ fCnt) ++ onFam .schedg fCnt, cnts := [.sec, .guard, .core, .route, .bridge, .face, .schedg], vars := [.cbsAt,
      .cbsCr, .elogSeq, .lockDest, .msixPend, .pcieSent, .pktId, .polAt, .polC, .polP, .redAvg, .stipCnt, .stipSeq, .tagEp], fifos
      := [.elog, .faceWrote, .missLog, .viWrote], parts := [.buf, .free, .greqs, .out, .prefs, .slots, .streams, .waiting] }

theorem toDest_in {F : Foot} (hF : Foot.toDest.le F = true) (ing : Ing) (g : Frame) (group : Option Nat) (tailIn : Bool) :
    (toDest ing g group tailIn).In F := by
  unfold toDest
  repeat' first
      | (with_reducible first | exact all_nil_in | refine all_cons_in ?_ ?_)
      | ((with_reducible refine countIngress_in ?_ ..); (· exact Foot.le_trans (Foot.le_of_runs (by decide +kernel)) hF))
      | ((with_reducible refine deliver_in ?_ ..); (· exact Foot.le_trans (Foot.le_of_runs (by decide +kernel)) hF))
      | ((with_reducible refine toMembers_in ?_ ..); (· exact Foot.le_trans (Foot.le_of_runs (by decide +kernel)) hF))
      | split
      | dsimp only

def Foot.fencedAnswer : Foot :=
  { regs := onFam .guard fCnt ++ onFam .face fCnt, cnts := [.guard, .face], vars := [.msixPend, .pcieSent], fifos := [.faceWrote,
      .viWrote], parts := [.out] }

theorem fencedAnswer_in {F : Foot} (hF : Foot.fencedAnswer.le F = true) (p : Nat) (t : Tlp) :
    (fencedAnswer p t).In F := by
  unfold fencedAnswer
  repeat' first
      | (with_reducible first | exact all_nil_in | refine all_cons_in ?_ ?_ | refine look_in fun _ => ?_ | refine when_in ?_ | refine ite_in ?_ ?_)
      | ((with_reducible refine bump_in ?_ ?_ ..); (· rfl); (· first | exact Foot.le_trans (F := Foot.counting .guard) (by decide +kernel) hF))
      | ((with_reducible refine selfCpl_in ?_ ..); (· exact Foot.le_trans (Foot.le_of_runs (by decide +kernel)) hF))
      | split
      | dsimp only

def Foot.holdForTag : Foot :=
  { vars := [.pktId], parts := [.waiting] }

theorem holdForTag_in {F : Foot} (hF : Foot.holdForTag.le F = true) (f : Nat) (g : Frame) :
    (holdForTag f g).In F := by
  unfold holdForTag
  repeat' first
      | (with_reducible first | exact all_nil_in | refine all_cons_in ?_ ?_ | refine look_in fun _ => ?_)
      | ((with_reducible refine put_in ?_); (· exact le_vars hF (by decide +kernel)))
      | ((with_reducible refine modWaiting_in ?_); (· exact le_parts hF (by decide +kernel)))
      | split
      | dsimp only

def Foot.hostAdmit : Foot :=
  { regs := onFam .sec (errFields ++ fCnt) ++ onFam .guard (errFields ++ fCnt ++ [.GUARD_ELOG_CTRL_LOST]) ++ onFam .core (errFields
      ++ fCnt ++ [.CORE_WM_STAT_WM_CROSS_CNT, .CORE_WM_STAT_WM_EVENT, .CORE_WM_STAT_WM_LEVEL]) ++ onFam .route (errFields ++ fCnt)
      ++ onFam .bridge (errFields ++ fCnt ++ [.BRIDGE_LOCK_STAT_HOLDER, .BRIDGE_LOCK_STAT_LOCKED,
      .BRIDGE_PROOF_WM_STAT_WM_CROSS_CNT, .BRIDGE_PROOF_WM_STAT_WM_EVENT, .BRIDGE_PROOF_WM_STAT_WM_LEVEL]) ++ onFam .face
      (errFields ++ fCnt) ++ onFam .schedg fCnt, cnts := [.sec, .guard, .core, .route, .bridge, .face, .schedg], vars := [.cbsAt,
      .cbsCr, .elogSeq, .lockDest, .msixPend, .pcieSent, .pktId, .polAt, .polC, .polP, .redAvg, .stipCnt, .stipSeq, .tagEp], fifos
      := [.elog, .faceWrote, .missLog, .viWrote], parts := [.buf, .free, .greqs, .out, .prefs, .slots, .streams, .waiting] }

theorem hostAdmit_in {F : Foot} (hF : Foot.hostAdmit.le F = true) (f : Nat) (t : Tlp) (own g : Frame) (group : Option Nat) (extra : Nat) (opens tailIn : Bool) (more : Nat → Upd) (h_more : ∀ z0, (more z0).In F) :
    (hostAdmit f t own g group extra opens tailIn more).In F := by
  unfold hostAdmit
  repeat' first
      | (with_reducible first | exact all_nil_in | refine all_cons_in ?_ ?_ | refine look_in fun _ => ?_ | refine ite_in ?_ ?_)
      | with_reducible exact h_more _
      | ((with_reducible refine bump_in ?_ ?_ ..); (· rfl); (· first | exact Foot.le_trans (F := Foot.counting .face) (by decide +kernel) hF))
      | ((with_reducible refine fencedAnswer_in ?_ ..); (· exact Foot.le_trans (Foot.le_of_runs (by decide +kernel)) hF))
      | ((with_reducible refine holdForTag_in ?_ ..); (· exact Foot.le_trans (Foot.le_of_runs (by decide +kernel)) hF))
      | ((with_reducible refine poisonSeen_in ?_ ..); (· exact Foot.le_trans (Foot.le_of_runs (by decide +kernel)) hF))
      | ((with_reducible refine tailIn_in ?_ ..); (· exact Foot.le_trans (Foot.le_of_runs (by decide +kernel)) hF))
      | ((with_reducible refine takeSlot_in ?_ ..); (· exact Foot.le_trans (Foot.le_of_runs (by decide +kernel)) hF))
      | ((with_reducible refine toDest_in ?_ ..); (· exact Foot.le_trans (Foot.le_of_runs (by decide +kernel)) hF))
      | split
      | dsimp only

def Foot.prefAnswer : Foot :=
  { regs := onFam .bridge fCnt ++ onFam .face fCnt, cnts := [.bridge, .face], vars := [.msixPend, .pcieSent], fifos := [.faceWrote,
      .viWrote], parts := [.out, .prefs] }

theorem prefAnswer_in {F : Foot} (hF : Foot.prefAnswer.le F = true) (f : Nat) (t : Tlp) (fab : Nat) (e : Pref) :
    (prefAnswer f t fab e).In F := by
  unfold prefAnswer
  repeat' first
      | (with_reducible first | exact all_nil_in | refine all_cons_in ?_ ?_ | refine look_in fun _ => ?_ | refine forEach_in fun _ => ?_)
      | ((with_reducible refine prefUse_in ?_ ..); (· exact Foot.le_trans (Foot.le_of_runs (by decide +kernel)) hF))
      | ((with_reducible refine tlpSend_in ?_ ..); (· exact Foot.le_trans (Foot.le_of_runs (by decide +kernel)) hF))
      | split
      | dsimp only

def Foot.State_lockRefusal : Foot :=
  { regs := onFam .guard (errFields ++ fCnt ++ [.GUARD_ELOG_CTRL_LOST]) ++ onFam .bridge errFields ++ onFam .face fCnt, cnts :=
      [.guard, .face], vars := [.elogSeq, .msixPend], fifos := [.elog, .faceWrote, .viWrote], parts := [.greqs, .out] }

theorem State_lockRefusal_in {F : Foot} (hF : Foot.State_lockRefusal.le F = true) {s : State} {f dest : Nat} {u : Upd} (h : State.lockRefusal s f dest = some u) :
    u.In F := by
  unfold State.lockRefusal at h
  try dsimp only at h
  repeat' (first | split at h | dsimp only at h)
  all_goals
    first
      | cases h
      | skip
    try (repeat' first
      | (with_reducible first | exact skip_in | refine ite_in ?_ ?_)
      | ((with_reducible refine raise_in ?_ ?_ ..); (· rfl); (· first | exact Foot.le_trans (F := Foot.error .bridge) (by decide +kernel) hF))
      | split
      | dsimp only)

def Foot.hostForward : Foot :=
  { regs := onFam .sec (errFields ++ fCnt) ++ onFam .guard (errFields ++ fCnt ++ [.GUARD_ELOG_CTRL_LOST]) ++ onFam .core (errFields
      ++ fCnt ++ [.CORE_WM_STAT_WM_CROSS_CNT, .CORE_WM_STAT_WM_EVENT, .CORE_WM_STAT_WM_LEVEL]) ++ onFam .route (errFields ++ fCnt)
      ++ onFam .bridge (errFields ++ fCnt ++ [.BRIDGE_LOCK_STAT_HOLDER, .BRIDGE_LOCK_STAT_LOCKED,
      .BRIDGE_PROOF_WM_STAT_WM_CROSS_CNT, .BRIDGE_PROOF_WM_STAT_WM_EVENT, .BRIDGE_PROOF_WM_STAT_WM_LEVEL]) ++ onFam .face
      (errFields ++ fCnt) ++ onFam .schedg fCnt, cnts := [.sec, .guard, .core, .route, .bridge, .face, .schedg], vars := [.cbsAt,
      .cbsCr, .elogSeq, .lockDest, .msixPend, .pcieSent, .pktId, .polAt, .polC, .polP, .redAvg, .stipCnt, .stipSeq, .tagEp], fifos
      := [.elog, .faceWrote, .missLog, .viWrote], parts := [.buf, .free, .greqs, .out, .prefs, .slots, .streams, .waiting] }

theorem hostForward_in {F : Foot} (hF : Foot.hostForward.le F = true) (f : Nat) (t : Tlp) (x : Sel) (fab : Nat) (tailIn : Bool) :
    (hostForward f t x fab tailIn).In F := by
  unfold hostForward
  repeat' first
      | (with_reducible first | exact all_nil_in | refine all_cons_in ?_ ?_ | refine look_in fun _ => ?_ | refine when_in ?_ | refine ite_in ?_ ?_)
      | ((with_reducible refine put_in ?_); (· exact le_vars hF (by decide +kernel)))
      | ((with_reducible refine bump_in ?_ ?_ ..); (· rfl); (· first | exact Foot.le_trans (F := Foot.counting .face) (by decide +kernel) hF))
      | exact State_lockRefusal_in (Foot.le_trans (Foot.le_of_runs (by decide +kernel)) hF) (by assumption)
      | exact State_lockRefusal_in (Foot.le_trans (Foot.le_of_runs (by decide +kernel)) hF) (some_of_ite (by assumption))
      | ((with_reducible refine holdForTag_in ?_ ..); (· exact Foot.le_trans (Foot.le_of_runs (by decide +kernel)) hF))
      | ((with_reducible refine hostAdmit_in ?_ _ _ _ _ _ _ _ _ _ (fun _ => ?_)); (· exact Foot.le_trans (Foot.le_of_runs (by decide +kernel)) hF); skip)
      | ((with_reducible refine prefAnswer_in ?_ ..); (· exact Foot.le_trans (Foot.le_of_runs (by decide +kernel)) hF))
      | ((with_reducible refine prefNew_in ?_ ..); (· exact Foot.le_trans (Foot.le_of_runs (by decide +kernel)) hF))
      | ((with_reducible refine prefWrite_in ?_ ..); (· exact Foot.le_trans (Foot.le_of_runs (by decide +kernel)) hF))
      | ((with_reducible refine selfCpl_in ?_ ..); (· exact Foot.le_trans (Foot.le_of_runs (by decide +kernel)) hF))
      | split
      | dsimp only

end Sys2Proof.Machine
end

