-- ==== Sys2Proof/Laws/FrameCfgReq.lean ====
section
/-! SUPPORT. What each update of Machine/CfgReq.lean may touch. -/

namespace Sys2Proof.Machine

set_option Elab.async false
set_option linter.unusedTactic false
set_option linter.unreachableTactic false

def Foot.cfgAnswer : Foot :=
  { vars := [.pcieSent], parts := [.out] }

theorem cfgAnswer_in {F : Foot} (hF : Foot.cfgAnswer.le F = true) (f : Nat) (c : CfgReq) (stat : CplStat) :
    (cfgAnswer f c stat).In F := by
  unfold cfgAnswer
  repeat' first
      | (with_reducible first | refine look_in fun _ => ?_)
      | ((with_reducible refine selfCpl_in ?_ ..); (· exact Foot.le_trans (Foot.le_of_runs (by decide +kernel)) hF))
      | split
      | dsimp only

def Foot.cfgData : Foot :=
  { vars := [.pcieSent], parts := [.out] }

theorem cfgData_in {F : Foot} (hF : Foot.cfgData.le F = true) (f : Nat) (c : CfgReq) (v : Nat) :
    (cfgData f c v).In F := by
  unfold cfgData
  repeat' first
      | (with_reducible first | refine look_in fun _ => ?_)
      | ((with_reducible refine onWire_in ?_ ..); (· exact Foot.le_trans (Foot.le_of_runs (by decide +kernel)) hF))
      | split
      | dsimp only

def Foot.cfgPart : Foot :=
  { vars := [.pcieSent], parts := [.free, .out] }

theorem cfgPart_in {F : Foot} (hF : Foot.cfgPart.le F = true) (f : Nat) (c : CfgReq) (mask v : Nat) :
    (cfgPart f c mask v).In F := by
  unfold cfgPart
  repeat' first
      | ((with_reducible refine drawWord_in ?_ fun _ => ?_); (· exact le_parts hF (by decide +kernel)); skip)
      | ((with_reducible refine cfgData_in ?_ ..); (· exact Foot.le_trans (Foot.le_of_runs (by decide +kernel)) hF))
      | split
      | dsimp only

def Foot.portsDown : Foot :=
  { regs := onFam .sec [.SEC_IDE_STAT_DEV_AUTH, .SEC_IDE_STAT_LINK_ID, .SEC_IDE_STAT_LINK_KSET, .SEC_IDE_STAT_LINK_SECURE,
      .SEC_IDE_STAT_SEL_SECURE, .SEC_IDE_STAT_SEL_VALID, .SEC_LINK_STAT_AUTH_OK, .SEC_LINK_STAT_AUTH_STATUS,
      .SEC_LINK_STAT_PARTNER_DEBUG, .SEC_LINK_STAT_REKEY, .SEC_LINK_STAT_REKEYS] ++ onFam .guard (errFields ++ fCnt ++
      [.GUARD_ELOG_CTRL_LOST]) ++ onFam .lane [.LANE_INJ_CTRL_ONE_SHOT, .LANE_RATE_CFG_RATE_NOW, .LANE_REST_CTRL_IN_REST,
      .LANE_STAT_ALIGN_LOCK, .LANE_STAT_CDR_LOCK, .LANE_STAT_EQ_DONE, .LANE_STAT_EQ_FAIL, .LANE_STAT_EXIT_FAIL, .LANE_STAT_FAILED,
      .LANE_STAT_FEC_LOCK, .LANE_STAT_RX_READY, .LANE_STAT_STATE, .LANE_TX_TAPS_C0, .LANE_TX_TAPS_POST, .LANE_TX_TAPS_PRE] ++
      onFam .core (errFields ++ fCnt ++ [.CORE_WM_STAT_WM_CROSS_CNT, .CORE_WM_STAT_WM_EVENT, .CORE_WM_STAT_WM_LEVEL]) ++ onFam
      .bridge [.BRIDGE_FAB_NBR_PARTNER_PORT, .BRIDGE_FAB_NBR_PARTNER_SW, .BRIDGE_FAB_NBR_VALID] ++ onFam .port
      [.PORT_LINK_STAT_ENC, .PORT_LINK_STAT_FLIT, .PORT_LINK_STAT_KEY_PHASE, .PORT_LINK_STAT_LANES_GOOD, .PORT_LINK_STAT_RATE_NOW,
      .PORT_LINK_STAT_STATE, .PORT_LINK_STAT_WIDTH_NOW, .PORT_REPLAY_CNT_CONSEC] ++ onFam .face (fCnt ++ [.FACE_BIND_STATE,
      .FACE_PM_STAT_LINK_PM]), cnts := [.guard, .core, .face], vars := [.alignMiss, .alignSeen, .authDebug, .authStep, .badCw,
      .crAdv, .crInit, .crUsed, .elogSeq, .eqTimeouts, .ideGo, .ideKey, .injAlign, .lsSeen, .mkDue, .mkRx, .mkTx, .msixPend,
      .nakSent, .nextKey, .ownReq, .paramGot, .paramVal, .partnerAspm, .partnerMax, .partnerReady, .partnerRest, .pcieAcked,
      .pcieRev, .pcieSent, .peerReq, .postStat, .preStat, .presetStat, .rekeying, .replayAt, .restHeld, .restPend, .restSince,
      .rxKey, .rxNum, .rxRest, .rxSeq, .rxUnacked, .skewCnt, .txCount, .txKey, .txLimit, .txNum, .txSeq, .txUsed, .wcDone,
      .wcFrom, .wcId, .wcOldWidth, .wcSet, .widening], fifos := [.elog, .faceWrote, .viWrote], parts := [.buf, .greqs, .out,
      .replay, .streams, .waiting] }

theorem portsDown_in {F : Foot} (hF : Foot.portsDown.le F = true) (f b to_ : Nat) (was now : Bool) :
    (portsDown f b to_ was now).In F := by
  unfold portsDown
  repeat' first
      | (with_reducible first | exact all_nil_in | refine all_cons_in ?_ ?_ | refine look_in fun _ => ?_ | refine when_in ?_ | refine ite_in ?_ ?_ | refine forEach_in fun _ => ?_)
      | ((with_reducible refine linkTo_in ?_ ..); (· exact Foot.le_trans (Foot.le_of_runs (by decide +kernel)) hF))
      | split
      | dsimp only

def Foot.bridgeCfgWrite : Foot :=
  { regs := onFam .sec [.SEC_IDE_STAT_DEV_AUTH, .SEC_IDE_STAT_LINK_ID, .SEC_IDE_STAT_LINK_KSET, .SEC_IDE_STAT_LINK_SECURE,
      .SEC_IDE_STAT_SEL_SECURE, .SEC_IDE_STAT_SEL_VALID, .SEC_LINK_STAT_AUTH_OK, .SEC_LINK_STAT_AUTH_STATUS,
      .SEC_LINK_STAT_PARTNER_DEBUG, .SEC_LINK_STAT_REKEY, .SEC_LINK_STAT_REKEYS] ++ onFam .guard (errFields ++ fCnt ++
      [.GUARD_ELOG_CTRL_LOST]) ++ onFam .lane [.LANE_INJ_CTRL_ONE_SHOT, .LANE_RATE_CFG_RATE_NOW, .LANE_REST_CTRL_IN_REST,
      .LANE_STAT_ALIGN_LOCK, .LANE_STAT_CDR_LOCK, .LANE_STAT_EQ_DONE, .LANE_STAT_EQ_FAIL, .LANE_STAT_EXIT_FAIL, .LANE_STAT_FAILED,
      .LANE_STAT_FEC_LOCK, .LANE_STAT_RX_READY, .LANE_STAT_STATE, .LANE_TX_TAPS_C0, .LANE_TX_TAPS_POST, .LANE_TX_TAPS_PRE] ++
      onFam .core (errFields ++ fCnt ++ [.CORE_WM_STAT_WM_CROSS_CNT, .CORE_WM_STAT_WM_EVENT, .CORE_WM_STAT_WM_LEVEL]) ++ onFam
      .bridge [.BRIDGE_FAB_NBR_PARTNER_PORT, .BRIDGE_FAB_NBR_PARTNER_SW, .BRIDGE_FAB_NBR_VALID] ++ onFam .port
      [.PORT_LINK_STAT_ENC, .PORT_LINK_STAT_FLIT, .PORT_LINK_STAT_KEY_PHASE, .PORT_LINK_STAT_LANES_GOOD, .PORT_LINK_STAT_RATE_NOW,
      .PORT_LINK_STAT_STATE, .PORT_LINK_STAT_WIDTH_NOW, .PORT_REPLAY_CNT_CONSEC] ++ onFam .face (fCnt ++ [.FACE_BIND_STATE,
      .FACE_PM_STAT_LINK_PM, .FACE_PM_STAT_USP_D]), cnts := [.guard, .core, .face], vars := [.alignMiss, .alignSeen, .aspm,
      .authDebug, .authStep, .badCw, .bme, .bridgeCtl, .bridgeD3, .crAdv, .crInit, .crUsed, .elogSeq, .eqTimeouts, .ideGo,
      .ideKey, .injAlign, .linkDis, .lsSeen, .memWin, .mkDue, .mkRx, .mkTx, .mse, .msixPend, .nakSent, .nextKey, .ownReq,
      .paramGot, .paramVal, .partnerAspm, .partnerMax, .partnerReady, .partnerRest, .pcieAcked, .pcieRev, .pcieSent, .peerReq,
      .postStat, .preStat, .prefBase, .prefLimit, .prefWin, .presetStat, .priBus, .ptmCount, .ptmEnable, .rekeying, .replayAt,
      .restHeld, .restPend, .restSince, .rxKey, .rxNum, .rxRest, .rxSeq, .rxUnacked, .secBus, .skewCnt, .slotCtl, .slotStat,
      .subBus, .txCount, .txKey, .txLimit, .txNum, .txSeq, .txUsed, .uspMps, .wcDone, .wcFrom, .wcId, .wcOldWidth, .wcSet,
      .widening], fifos := [.elog, .faceWrote, .viWrote], parts := [.buf, .greqs, .out, .replay, .slots, .streams, .waiting] }

theorem bridgeCfgWrite_in {F : Foot} (hF : Foot.bridgeCfgWrite.le F = true) (f b : Nat) (r : CfgReg) (v : Nat) :
    (bridgeCfgWrite f b r v).In F := by
  unfold bridgeCfgWrite
  repeat' first
      | (with_reducible first | exact skip_in | exact all_nil_in | refine all_cons_in ?_ ?_ | refine look_in fun _ => ?_ | refine when_in ?_ | refine ite_in ?_ ?_)
      | ((with_reducible refine put_in ?_); (· exact le_vars hF (by decide +kernel)))
      | ((with_reducible refine wr_in ?_ ?_); (· first | exact own_mem (show _ ∈ tabFACE by decide +kernel)); (· first | exact le_regs hF (show (Fam.face, _) ∈ _ by decide +kernel)))
      | ((with_reducible refine abandon_in ?_ ..); (· exact Foot.le_trans (Foot.le_of_runs (by decide +kernel)) hF))
      | ((with_reducible refine portsDown_in ?_ ..); (· exact Foot.le_trans (Foot.le_of_runs (by decide +kernel)) hF))
      | ((with_reducible refine slotRegsSet_in ?_ ..); (· exact Foot.le_trans (Foot.le_of_runs (by decide +kernel)) hF))
      | split
      | dsimp only

def Foot.seResumes : Foot :=
  { regs := onFam .sec (errFields ++ fCnt) ++ onFam .guard (errFields ++ fCnt ++ [.GUARD_ELOG_CTRL_LOST]) ++ onFam .core (errFields
      ++ fCnt ++ [.CORE_WM_STAT_WM_CROSS_CNT, .CORE_WM_STAT_WM_EVENT, .CORE_WM_STAT_WM_LEVEL]) ++ onFam .route (errFields ++ fCnt)
      ++ onFam .bridge (errFields ++ fCnt ++ [.BRIDGE_LOCK_STAT_HOLDER, .BRIDGE_LOCK_STAT_LOCKED,
      .BRIDGE_PROOF_WM_STAT_WM_CROSS_CNT, .BRIDGE_PROOF_WM_STAT_WM_EVENT, .BRIDGE_PROOF_WM_STAT_WM_LEVEL]) ++ onFam .face
      (errFields ++ fCnt) ++ onFam .schedg fCnt ++ onFam .moverg errFields ++ onFam .eng fCnt ++ onFam .ring
      [.MOVER_RING_CPL_TAIL_CPL_TAIL, .MOVER_RING_CPL_TAIL_PHASE, .MOVER_RING_HEAD_HEAD, .MOVER_RING_STAT_LAST_INDEX,
      .MOVER_RING_STAT_LAST_STATUS, .MOVER_RING_STAT_STATE], cnts := [.sec, .guard, .core, .route, .bridge, .face, .schedg, .eng],
      vars := [.cbsAt, .cbsCr, .coalDue, .coalOn, .elogSeq, .fetchAt, .fetchN, .fetchTag, .lockDest, .meDef, .mePlace, .meQuant,
      .msixPend, .pcieSent, .pktId, .polAt, .polC, .polP, .redAvg, .stipCnt, .stipSeq, .tagEp], fifos := [.cplFifo, .elog,
      .faceWrote, .missLog, .ringWrote, .viWrote], parts := [.buf, .descs, .free, .greqs, .out, .prefs, .slots, .streams,
      .waiting] }

theorem seResumes_in {F : Foot} (hF : Foot.seResumes.le F = true) (f : Nat) :
    (seResumes f).In F := by
  unfold seResumes
  repeat' first
      | (with_reducible first | exact all_nil_in | refine all_cons_in ?_ ?_ | refine look_in fun _ => ?_ | refine when_in ?_ | refine forBelow_in fun _ => ?_)
      | ((with_reducible refine msixFlush_in ?_ ..); (· exact Foot.le_trans (F := Foot.interrupt) (by decide +kernel) hF))
      | ((with_reducible refine pump_in ?_ ..); (· exact Foot.le_trans (Foot.le_of_runs (by decide +kernel)) hF))
      | split
      | dsimp only

def Foot.seTagWrite : Foot :=
  { regs := onFam .face [.FACE_TAG_CTRL_REQ_WIDTH], vars := [.seTags] }

theorem seTagWrite_in {F : Foot} (hF : Foot.seTagWrite.le F = true) (f enables : Nat) :
    (seTagWrite f enables).In F := by
  unfold seTagWrite
  repeat' first
      | (with_reducible first | exact all_nil_in | refine all_cons_in ?_ ?_)
      | ((with_reducible refine put_in ?_); (· exact le_vars hF (by decide +kernel)))
      | ((with_reducible refine wr_in ?_ ?_); (· first | exact own_mem (show _ ∈ tabFACE by decide +kernel)); (· first | exact le_regs hF (show (Fam.face, _) ∈ _ by decide +kernel)))
      | split
      | dsimp only

def Foot.seCfgRead : Foot :=
  { regs := onFam .mbox fCnt ++ onFam .face fCnt, cnts := [.mbox, .face], vars := [.arbLast, .msixPend, .pcieSent], fifos :=
      [.faceWrote, .held, .notices, .viWrote], parts := [.free, .out] }

theorem seCfgRead_in {F : Foot} (hF : Foot.seCfgRead.le F = true) (f : FaceId) (c : CfgReq) :
    (seCfgRead f c).In F := by
  unfold seCfgRead
  repeat' first
      | (with_reducible first | exact all_nil_in | refine all_cons_in ?_ ?_ | refine look_in fun _ => ?_ | refine when_in ?_)
      | ((with_reducible refine grant_in ?_ ..); (· exact le_vars hF (by decide +kernel)))
      | ((with_reducible refine cfgData_in ?_ ..); (· exact Foot.le_trans (Foot.le_of_runs (by decide +kernel)) hF))
      | ((with_reducible refine cfgPart_in ?_ ..); (· exact Foot.le_trans (Foot.le_of_runs (by decide +kernel)) hF))
      | ((with_reducible refine noticePop_in ?_ ..); (· exact Foot.le_trans (Foot.le_of_runs (by decide +kernel)) hF))
      | split
      | dsimp only

def Foot.copyAccess : Foot :=
  { regs := onFam .face [.FACE_WIN_TAB_BASE, .FACE_WIN_TAB_BASE_HI], vars := [.pcieSent, .presBar, .presBarSet, .presBase, .presCmd,
      .presRom], parts := [.free, .out] }

theorem copyAccess_in {F : Foot} (hF : Foot.copyAccess.le F = true) (f n fn : Nat) (c : CfgReq) :
    (copyAccess f n fn c).In F := by
  unfold copyAccess
  repeat' first
      | (with_reducible first | exact all_nil_in | refine all_cons_in ?_ ?_ | refine look_in fun _ => ?_)
      | ((with_reducible refine put_in ?_); (· exact le_vars hF (by decide +kernel)))
      | ((with_reducible refine cfgAnswer_in ?_ ..); (· exact Foot.le_trans (Foot.le_of_runs (by decide +kernel)) hF))
      | ((with_reducible refine cfgData_in ?_ ..); (· exact Foot.le_trans (Foot.le_of_runs (by decide +kernel)) hF))
      | ((with_reducible refine cfgPart_in ?_ ..); (· exact Foot.le_trans (Foot.le_of_runs (by decide +kernel)) hF))
      | ((with_reducible refine presBarWrite_in ?_ ..); (· exact Foot.le_trans (Foot.le_of_runs (by decide +kernel)) hF))
      | split
      | dsimp only

def Foot.deviceAccess : Foot :=
  { regs := onFam .sec (errFields ++ fCnt) ++ onFam .guard (errFields ++ fCnt ++ [.GUARD_ELOG_CTRL_LOST]) ++ onFam .core (errFields
      ++ fCnt ++ [.CORE_WM_STAT_WM_CROSS_CNT, .CORE_WM_STAT_WM_EVENT, .CORE_WM_STAT_WM_LEVEL]) ++ onFam .route (errFields ++ fCnt)
      ++ onFam .bridge (errFields ++ fCnt ++ [.BRIDGE_LOCK_STAT_HOLDER, .BRIDGE_LOCK_STAT_LOCKED,
      .BRIDGE_PROOF_WM_STAT_WM_CROSS_CNT, .BRIDGE_PROOF_WM_STAT_WM_EVENT, .BRIDGE_PROOF_WM_STAT_WM_LEVEL]) ++ onFam .face
      (errFields ++ fCnt ++ [.FACE_WIN_TAB_BASE, .FACE_WIN_TAB_BASE_HI]) ++ onFam .schedg fCnt, cnts := [.sec, .guard, .core,
      .route, .bridge, .face, .schedg], vars := [.cbsAt, .cbsCr, .elogSeq, .lockDest, .msixPend, .pcieSent, .pktId, .polAt, .polC,
      .polP, .presBar, .presBarSet, .presBase, .presCmd, .presRom, .redAvg, .stipCnt, .stipSeq, .tagEp], fifos := [.elog,
      .faceWrote, .missLog, .viWrote], parts := [.buf, .free, .greqs, .out, .prefs, .slots, .streams, .waiting] }

theorem deviceAccess_in {F : Foot} (hF : Foot.deviceAccess.le F = true) (f n fn delta : Nat) (c : CfgReq) :
    (deviceAccess f n fn delta c).In F := by
  unfold deviceAccess
  repeat' first
      | (with_reducible first | exact skip_in | exact all_nil_in | refine all_cons_in ?_ ?_ | refine look_in fun _ => ?_ | refine ite_in ?_ ?_)
      | ((with_reducible refine drawWord_in ?_ fun _ => ?_); (· exact le_parts hF (by decide +kernel)); skip)
      | ((with_reducible refine cfgAnswer_in ?_ ..); (· exact Foot.le_trans (Foot.le_of_runs (by decide +kernel)) hF))
      | ((with_reducible refine copyAccess_in ?_ ..); (· exact Foot.le_trans (Foot.le_of_runs (by decide +kernel)) hF))
      | ((with_reducible refine hostAdmit_in ?_ _ _ _ _ _ _ _ _ _ (fun _ => ?_)); (· exact Foot.le_trans (Foot.le_of_runs (by decide +kernel)) hF); skip)
      | ((with_reducible refine miss_in ?_ ..); (· exact Foot.le_trans (Foot.le_of_runs (by decide +kernel)) hF))
      | split
      | dsimp only

end Sys2Proof.Machine
end

