-- ==== Sys2Proof/Laws/FrameApply.lean ====
section
/-! SUPPORT. What each update of Machine/Apply.lean may touch. -/

namespace Sys2Proof.Machine

set_option Elab.async false
set_option linter.unusedTactic false
set_option linter.unreachableTactic false

def Foot.notePorts : Foot :=
  { vars := [.cfgPorts] }

theorem notePorts_in {F : Foot} (hF : Foot.notePorts.le F = true)  :
    (notePorts).In F := by
  unfold notePorts
  repeat' first
      | (with_reducible first | refine look_in fun _ => ?_ | refine when_in ?_ | refine forBelow_in fun _ => ?_)
      | ((with_reducible refine put_in ?_); (· exact le_vars hF (by decide +kernel)))
      | split
      | dsimp only

def Foot.loaderArms : Foot :=
  { regs := onFam .sched [.SCHED_HATCH_CTRL_ARM, .SCHED_HATCH_CTRL_STATUS, .SCHED_HATCH_STAT_A_STATE, .SCHED_HATCH_STAT_B_STATE],
      vars := [.hatchAt, .hatchLate] }

theorem loaderArms_in {F : Foot} (hF : Foot.loaderArms.le F = true) (p l : Nat) :
    (loaderArms p l).In F := by
  unfold loaderArms
  repeat' first
      | (with_reducible first | exact all_nil_in | refine all_cons_in ?_ ?_ | refine look_in fun _ => ?_ | refine when_in ?_)
      | ((with_reducible refine put_in ?_); (· exact le_vars hF (by decide +kernel)))
      | ((with_reducible refine wr_in ?_ ?_); (· first | exact own_mem (show _ ∈ tabSCHED by decide +kernel)); (· first | exact le_regs hF (show (Fam.sched, _) ∈ _ by decide +kernel)))
      | ((with_reducible refine hatchUnpend_in ?_ ..); (· exact Foot.le_trans (Foot.le_of_runs (by decide +kernel)) hF))
      | (unfold hatchStateFld; split)
      | split
      | dsimp only

def Foot.policyApply : Foot :=
  { regs := onFam .glb [.PAGE_LOCK_LOCKED, .PAGE_LOCK_LOCK_GEN] ++ onFam .mgmt [.PAGE_LOCK_LOCKED, .PAGE_LOCK_LOCK_GEN] ++ onFam
      .sec [.PAGE_LOCK_LOCKED, .PAGE_LOCK_LOCK_GEN, .SEC_DEBUG_DENY, .SEC_GRANT_MASK, .SEC_IDE_STAT_REQUIRED] ++ onFam .guard
      [.PAGE_LOCK_LOCKED, .PAGE_LOCK_LOCK_GEN] ++ onFam .lane [.PAGE_LOCK_LOCKED, .PAGE_LOCK_LOCK_GEN] ++ onFam .pwrg
      [.PAGE_LOCK_LOCKED, .PAGE_LOCK_LOCK_GEN] ++ onFam .pwr [.PAGE_LOCK_LOCKED, .PAGE_LOCK_LOCK_GEN] ++ onFam .core
      [.PAGE_LOCK_LOCKED, .PAGE_LOCK_LOCK_GEN] ++ onFam .route [.PAGE_LOCK_LOCKED, .PAGE_LOCK_LOCK_GEN] ++ onFam .bridge
      [.PAGE_LOCK_LOCKED, .PAGE_LOCK_LOCK_GEN] ++ onFam .mbox [.PAGE_LOCK_LOCKED, .PAGE_LOCK_LOCK_GEN] ++ onFam .port
      [.PAGE_LOCK_LOCKED, .PAGE_LOCK_LOCK_GEN] ++ onFam .face [.PAGE_LOCK_LOCKED, .PAGE_LOCK_LOCK_GEN] ++ onFam .schedg
      [.PAGE_LOCK_LOCKED, .PAGE_LOCK_LOCK_GEN] ++ onFam .sched [.PAGE_LOCK_LOCKED, .PAGE_LOCK_LOCK_GEN] ++ onFam .inst
      [.PAGE_LOCK_LOCKED, .PAGE_LOCK_LOCK_GEN] ++ onFam .moverg [.PAGE_LOCK_LOCKED, .PAGE_LOCK_LOCK_GEN] ++ onFam .eng
      [.PAGE_LOCK_LOCKED, .PAGE_LOCK_LOCK_GEN], vars := [.arbAuto, .devRoot, .encRequired, .ideDown, .rejectDebug] }

theorem policyApply_in {F : Foot} (hF : Foot.policyApply.le F = true) (x : PolicyImg) :
    (policyApply x).In F := by
  unfold policyApply
  repeat' first
      | (with_reducible first | exact all_nil_in | refine all_cons_in ?_ ?_ | refine forBelow_in fun _ => ?_)
      | ((with_reducible refine put_in ?_); (· exact le_vars hF (by decide +kernel)))
      | ((with_reducible refine wr_in ?_ ?_); (· first | exact own_mem (show _ ∈ tabSEC0 by decide +kernel) | exact own_mem (show _ ∈ tabSEC1 by decide +kernel)); (· first | exact le_regs hF (show (Fam.sec, _) ∈ _ by decide +kernel)))
      | ((with_reducible refine lockMapWrite_in ?_ ..); (· exact Foot.le_trans (Foot.le_of_runs (by decide +kernel)) hF))
      | ((with_reducible refine setGrant_in ?_ ..); (· exact Foot.le_trans (Foot.le_of_runs (by decide +kernel)) hF))
      | split
      | dsimp only

def Foot.copyWindows : Foot :=
  { vars := [.winCopyBase, .winCopySize, .winCopyXlat] }

theorem copyWindows_in {F : Foot} (hF : Foot.copyWindows.le F = true)  :
    (copyWindows).In F := by
  unfold copyWindows
  repeat' first
      | (with_reducible first | exact all_nil_in | refine all_cons_in ?_ ?_ | refine look_in fun _ => ?_ | refine forBelow_in fun _ => ?_ | refine forEach_in fun _ => ?_)
      | ((with_reducible refine put_in ?_); (· exact le_vars hF (by decide +kernel)))
      | ((with_reducible refine clearIv_in ?_); (· exact le_vars hF (by decide +kernel)))
      | split
      | dsimp only

end Sys2Proof.Machine
end

