-- ==== Sys2Proof/Laws/FrameClock.lean ====
section
/-! SUPPORT. What each update of Machine/Clock.lean may touch. -/

namespace Sys2Proof.Machine

set_option Elab.async false
set_option linter.unusedTactic false
set_option linter.unreachableTactic false

def Foot.portMicro : Foot :=
  { regs := onFam .port fCnt ++ onFam .face fCnt ++ onFam .sched fCnt, cnts := [.port, .face, .sched], vars := [.msixPend], fifos :=
      [.faceWrote, .viWrote], parts := [.out] }

theorem portMicro_in {F : Foot} (hF : Foot.portMicro.le F = true) (p : Nat) :
    (portMicro p).In F := by
  unfold portMicro
  repeat' first
      | (with_reducible first | exact all_nil_in | refine all_cons_in ?_ ?_ | refine look_in fun _ => ?_ | refine when_in ?_ | refine forEach_in fun _ => ?_)
      | ((with_reducible refine bump_in ?_ ?_ ..); (· rfl); (· first | exact Foot.le_trans (F := Foot.counting .port) (by decide +kernel) hF | exact Foot.le_trans (F := Foot.counting .sched) (by decide +kernel) hF))
      | split
      | dsimp only

def Foot.faceMicro : Foot :=
  { regs := onFam .face fCnt, cnts := [.face], vars := [.msixPend], fifos := [.faceWrote, .viWrote], parts := [.out] }

theorem faceMicro_in {F : Foot} (hF : Foot.faceMicro.le F = true) (f : Nat) :
    (faceMicro f).In F := by
  unfold faceMicro
  repeat' first
      | (with_reducible first | refine look_in fun _ => ?_ | refine when_in ?_)
      | ((with_reducible refine bump_in ?_ ?_ ..); (· rfl); (· first | exact Foot.le_trans (F := Foot.counting .face) (by decide +kernel) hF))
      | split
      | dsimp only

def Foot.instMicro : Foot :=
  { regs := onFam .face fCnt ++ onFam .inst fCnt, cnts := [.face, .inst], vars := [.msixPend], fifos := [.faceWrote, .viWrote],
      parts := [.out] }

theorem instMicro_in {F : Foot} (hF : Foot.instMicro.le F = true) (v : Nat) :
    (instMicro v).In F := by
  unfold instMicro
  repeat' first
      | (with_reducible first | refine look_in fun _ => ?_ | refine when_in ?_)
      | ((with_reducible refine bump_in ?_ ?_ ..); (· rfl); (· first | exact Foot.le_trans (F := Foot.counting .inst) (by decide +kernel) hF))
      | split
      | dsimp only

def Foot.engMicro : Foot :=
  { regs := onFam .face fCnt ++ onFam .eng fCnt, cnts := [.face, .eng], vars := [.msixPend], fifos := [.faceWrote, .viWrote], parts
      := [.out] }

theorem engMicro_in {F : Foot} (hF : Foot.engMicro.le F = true) (e : Nat) :
    (engMicro e).In F := by
  unfold engMicro
  repeat' first
      | (with_reducible first | refine look_in fun _ => ?_ | refine when_in ?_)
      | ((with_reducible refine bump_in ?_ ?_ ..); (· rfl); (· first | exact Foot.le_trans (F := Foot.counting .eng) (by decide +kernel) hF))
      | split
      | dsimp only

def Foot.micro : Foot :=
  { regs := onFam .pwr (fCnt ++ [.PWR_CH_STAT_STATE, .PWR_CH_STAT_WARN]) ++ onFam .bridge fCnt ++ onFam .port fCnt ++ onFam .face
      fCnt ++ onFam .schedg fCnt ++ onFam .sched fCnt ++ onFam .inst fCnt ++ onFam .eng fCnt, cnts := [.pwr, .bridge, .port,
      .face, .schedg, .sched, .inst, .eng], vars := [.msixPend, .pwCause, .pwDead, .pwFault, .pwIdle, .pwSwitch], fifos :=
      [.faceWrote, .viWrote], parts := [.greqs, .out] }

theorem micro_in {F : Foot} (hF : Foot.micro.le F = true)  :
    (micro).In F := by
  unfold micro
  repeat' first
      | (with_reducible first | exact all_nil_in | refine all_cons_in ?_ ?_ | refine look_in fun _ => ?_ | refine when_in ?_ | refine forBelow_in fun _ => ?_ | refine forEach_in fun _ => ?_)
      | ((with_reducible refine bump_in ?_ ?_ ..); (· rfl); (· first | exact Foot.le_trans (F := Foot.counting .schedg) (by decide +kernel) hF | exact Foot.le_trans (F := Foot.counting .bridge) (by decide +kernel) hF))
      | ((with_reducible refine chanTick_in ?_ ..); (· exact Foot.le_trans (Foot.le_of_runs (by decide +kernel)) hF))
      | ((with_reducible refine engMicro_in ?_ ..); (· exact Foot.le_trans (Foot.le_of_runs (by decide +kernel)) hF))
      | ((with_reducible refine faceMicro_in ?_ ..); (· exact Foot.le_trans (Foot.le_of_runs (by decide +kernel)) hF))
      | ((with_reducible refine instMicro_in ?_ ..); (· exact Foot.le_trans (Foot.le_of_runs (by decide +kernel)) hF))
      | ((with_reducible refine portMicro_in ?_ ..); (· exact Foot.le_trans (Foot.le_of_runs (by decide +kernel)) hF))
      | split
      | dsimp only

def Foot.tick : Foot :=
  { regs := onFam .lane (fCnt ++ [.LANE_INJ_CTRL_ONE_SHOT, .LANE_REST_CTRL_IN_REST, .LANE_STAT_STATE]) ++ onFam .pwr (fCnt ++
      [.PWR_CH_STAT_STATE, .PWR_CH_STAT_WARN]) ++ onFam .bridge fCnt ++ onFam .port (fCnt ++ [.PORT_LINK_STAT_STATE]) ++ onFam
      .face fCnt ++ onFam .schedg fCnt ++ onFam .sched fCnt ++ onFam .inst fCnt ++ onFam .eng fCnt, cnts := [.lane, .pwr, .bridge,
      .port, .face, .schedg, .sched, .inst, .eng], vars := [.alignTx, .holdCount, .injAlign, .msixPend, .pwCause, .pwDead,
      .pwFault, .pwIdle, .pwSwitch, .restHeld, .restPend, .restSince, .slew, .ticks], fifos := [.faceWrote, .viWrote], parts :=
      [.coders, .greqs, .now, .out] }

theorem tick_in {F : Foot} (hF : Foot.tick.le F = true)  :
    (tick).In F := by
  unfold tick
  repeat' first
      | (with_reducible first | exact all_nil_in | refine all_cons_in ?_ ?_ | refine look_in fun _ => ?_ | refine when_in ?_ | refine ite_in ?_ ?_)
      | ((with_reducible refine put_in ?_); (· exact le_vars hF (by decide +kernel)))
      | ((with_reducible refine chanTick_in ?_ ..); (· exact Foot.le_trans (Foot.le_of_runs (by decide +kernel)) hF))
      | ((with_reducible refine micro_in ?_ ..); (· exact Foot.le_trans (Foot.le_of_runs (by decide +kernel)) hF))
      | ((with_reducible refine restDue_in ?_ ..); (· exact Foot.le_trans (Foot.le_of_runs (by decide +kernel)) hF))
      | ((with_reducible refine timeTo_in ?_ ..); (· exact Foot.le_trans (Foot.le_of_runs (by decide +kernel)) hF))
      | split
      | dsimp only

end Sys2Proof.Machine
end

