-- ==== Sys2Proof/Laws/AloneLane.lean ====
section
/-! SUPPORT. Commands that touch one page of the kind LANE alone. -/

namespace Sys2Proof.Machine

set_option Elab.async false
set_option linter.unusedTactic false
set_option linter.unreachableTactic false

theorem laneCnt_lane (l k n : Nat) : (laneCnt l k n).Alone (.lane (l / 8)) := by
  unfold laneCnt
  repeat' first
      | (with_reducible first | exact all_nil_alone | refine all_cons_alone ?_ ?_ | refine look_alone fun _ => ?_ | refine when_alone ?_ | refine ite_alone ?_ ?_ | refine forBelow_alone fun _ => ?_ | exact skip_alone)
      | ((with_reducible refine addCnt_alone ?_ ?_ ?_ ..); (· exact ⟨nofun, nofun⟩); (· rfl); (· intro e; first | rfl | cases e))
      | split
      | dsimp only

theorem setTaps_lane (l pre post : Nat) : (setTaps l pre post).Alone (.lane (l / 8)) := by
  unfold setTaps
  repeat' first
      | (with_reducible first | exact all_nil_alone | refine all_cons_alone ?_ ?_ | refine look_alone fun _ => ?_ | refine when_alone ?_ | refine ite_alone ?_ ?_ | refine forBelow_alone fun _ => ?_ | exact skip_alone)
      | ((with_reducible refine wln_alone ?_ ?_ _); (· decide +kernel); (· intro e; first | rfl | cases e))
      | split
      | dsimp only

theorem execCodewordReceived_alone_lane (l : LaneId) (symErrs : Nat) {σ τ : State} (hw : σ.wf) (he : execCodewordReceived l symErrs σ = .next τ) : Alone (.lane (l / 8)) σ τ := by
  refine answer_alone ?_ hw he
  clear he hw
  repeat' first
      | (with_reducible first | exact all_nil_alone | refine all_cons_alone ?_ ?_ | refine look_alone fun _ => ?_ | refine when_alone ?_ | refine ite_alone ?_ ?_ | refine forBelow_alone fun _ => ?_ | exact skip_alone)
      | (with_reducible first | exact put_alone ..)
      | with_reducible exact laneCnt_lane ..
      | split
      | dsimp only

theorem execFillerReceived_alone_lane (l : LaneId) {σ τ : State} (hw : σ.wf) (he : execFillerReceived l σ = .next τ) : Alone (.lane (l / 8)) σ τ := by
  refine answer_alone ?_ hw he
  clear he hw
  repeat' first
      | (with_reducible first | exact all_nil_alone | refine all_cons_alone ?_ ?_ | refine look_alone fun _ => ?_ | refine when_alone ?_ | refine ite_alone ?_ ?_ | refine forBelow_alone fun _ => ?_ | exact skip_alone)
      | with_reducible exact laneCnt_lane ..
      | split
      | dsimp only

theorem sendAlign_lane (l : Nat) : (sendAlign l).Alone (.lane (l / 8)) := by
  unfold sendAlign
  repeat' first
      | (with_reducible first | exact all_nil_alone | refine all_cons_alone ?_ ?_ | refine look_alone fun _ => ?_ | refine when_alone ?_ | refine ite_alone ?_ ?_ | refine forBelow_alone fun _ => ?_ | exact skip_alone)
      | (with_reducible first | exact put_alone .. | exact emit_alone ..)
      | ((with_reducible refine wln_alone ?_ ?_ _); (· decide +kernel); (· intro e; first | rfl | cases e))
      | ((with_reducible refine alone_of (F := Foot.sendBlk) .lane ?_ ?_ ?_); (· rfl); (· with_reducible exact sendBlk_in (Foot.le_refl _) ..); (· decide +kernel))
      | split
      | dsimp only

theorem execFecDegrade_alone_lane (l : LaneId) {σ τ : State} (hw : σ.wf) (he : execFecDegrade l σ = .next τ) : Alone (.lane (l / 8)) σ τ := by
  refine answer_alone ?_ hw he
  clear he hw
  repeat' first
      | (with_reducible first | exact all_nil_alone | refine all_cons_alone ?_ ?_ | refine look_alone fun _ => ?_ | refine when_alone ?_ | refine ite_alone ?_ ?_ | refine forBelow_alone fun _ => ?_ | exact skip_alone)
      | ((with_reducible refine raise_alone ?_ ?_ ?_ ..); (· exact ⟨nofun, nofun⟩); (· rfl); (· intro e; first | rfl | cases e))
      | split
      | dsimp only

theorem coeffField_lane (l req : Nat) (x : Var) (v : Nat) (new : Nat → Nat × Nat) : (coeffField l req x v new).Alone (.lane (l / 8)) := by
  unfold coeffField
  repeat' first
      | (with_reducible first | exact all_nil_alone | refine all_cons_alone ?_ ?_ | refine look_alone fun _ => ?_ | refine when_alone ?_ | refine ite_alone ?_ ?_ | refine forBelow_alone fun _ => ?_ | exact skip_alone)
      | (with_reducible first | exact put_alone ..)
      | with_reducible exact setTaps_lane ..
      | split
      | dsimp only

theorem coeffAnswer_lane (l w : Nat) : (coeffAnswer l w).Alone (.lane (l / 8)) := by
  unfold coeffAnswer
  repeat' first
      | (with_reducible first | exact all_nil_alone | refine all_cons_alone ?_ ?_ | refine look_alone fun _ => ?_ | refine when_alone ?_ | refine ite_alone ?_ ?_ | refine forBelow_alone fun _ => ?_ | exact skip_alone)
      | (with_reducible first | exact put_alone ..)
      | with_reducible exact coeffField_lane ..
      | with_reducible exact setTaps_lane ..
      | split
      | dsimp only

theorem pcieAnswer_lane (l : Nat) (req : EqReq) : (pcieAnswer l req).Alone (.lane (l / 8)) := by
  unfold pcieAnswer
  repeat' first
      | (with_reducible first | exact all_nil_alone | refine all_cons_alone ?_ ?_ | refine look_alone fun _ => ?_ | refine when_alone ?_ | refine ite_alone ?_ ?_ | refine forBelow_alone fun _ => ?_ | exact skip_alone)
      | (with_reducible first | exact emit_alone ..)
      | with_reducible exact setTaps_lane ..
      | split
      | dsimp only

theorem execCoeffApply_alone_lane (l : LaneId) (req : EqReq) {σ τ : State} (hw : σ.wf) (he : execCoeffApply l req σ = .next τ) : Alone (.lane (l / 8)) σ τ := by
  refine answer_alone ?_ hw he
  clear he hw
  repeat' first
      | (with_reducible first | exact all_nil_alone | refine all_cons_alone ?_ ?_ | refine look_alone fun _ => ?_ | refine when_alone ?_ | refine ite_alone ?_ ?_ | refine forBelow_alone fun _ => ?_ | exact skip_alone)
      | (with_reducible first | exact emit_alone ..)
      | with_reducible exact coeffAnswer_lane ..
      | with_reducible exact pcieAnswer_lane ..
      | split
      | dsimp only

theorem execEqRespTimeout_alone_lane (l : LaneId) {σ τ : State} (hw : σ.wf) (he : execEqRespTimeout l σ = .next τ) : Alone (.lane (l / 8)) σ τ := by
  refine answer_alone ?_ hw he
  clear he hw
  repeat' first
      | (with_reducible first | exact all_nil_alone | refine all_cons_alone ?_ ?_ | refine look_alone fun _ => ?_ | refine when_alone ?_ | refine ite_alone ?_ ?_ | refine forBelow_alone fun _ => ?_ | exact skip_alone)
      | (with_reducible first | exact put_alone .. | exact emit_alone ..)
      | ((with_reducible refine wln_alone ?_ ?_ _); (· decide +kernel); (· intro e; first | rfl | cases e))
      | with_reducible exact laneCnt_lane ..
      | split
      | dsimp only

theorem tapsWrite_lane (l v : Nat) : (tapsWrite l v).Alone (.lane (l / 8)) := by
  unfold tapsWrite
  repeat' first
      | (with_reducible first | exact all_nil_alone | refine all_cons_alone ?_ ?_ | refine look_alone fun _ => ?_ | refine when_alone ?_ | refine ite_alone ?_ ?_ | refine forBelow_alone fun _ => ?_ | exact skip_alone)
      | ((with_reducible refine raise_alone ?_ ?_ ?_ ..); (· exact ⟨nofun, nofun⟩); (· rfl); (· intro e; first | rfl | cases e))
      | with_reducible exact setTaps_lane ..
      | split
      | dsimp only

theorem execTxTapsWrite_alone_lane (st : Stamp) (l : LaneId) (v : Word) {σ τ : State} (hw : σ.wf) (he : execTxTapsWrite st l v σ = .next τ) : Alone (.lane (l / 8)) σ τ := by
  refine answer_alone ?_ hw he
  clear he hw
  repeat' first
      | (with_reducible first | exact all_nil_alone | refine all_cons_alone ?_ ?_ | refine look_alone fun _ => ?_ | refine when_alone ?_ | refine ite_alone ?_ ?_ | refine forBelow_alone fun _ => ?_ | exact skip_alone)
      | ((with_reducible refine granted_alone ?_ ?_ ?_ _ _ ?_); (· exact ⟨nofun, nofun⟩); (· rfl); (· intro e; first | rfl | cases e); skip)
      | ((with_reducible refine granted_alone' ?_ _ _ ?_); (· rfl); skip)
      | with_reducible exact tapsWrite_lane ..
      | split
      | dsimp only

theorem eqCtrlWrite_lane (st : Stamp) (l v : Nat) : (eqCtrlWrite st l v).Alone (.lane (l / 8)) := by
  unfold eqCtrlWrite
  repeat' first
      | (with_reducible first | exact all_nil_alone | refine all_cons_alone ?_ ?_ | refine look_alone fun _ => ?_ | refine when_alone ?_ | refine ite_alone ?_ ?_ | refine forBelow_alone fun _ => ?_ | exact skip_alone)
      | (with_reducible first | exact put_alone ..)
      | ((with_reducible refine plainWrite_alone ?_ _ _ _); (· intro e; first | rfl | cases e))
      | split
      | dsimp only

theorem execEqModeWrite_alone_lane (st : Stamp) (l : LaneId) (v : Word) {σ τ : State} (hw : σ.wf) (he : execEqModeWrite st l v σ = .next τ) : Alone (.lane (l / 8)) σ τ := by
  refine answer_alone ?_ hw he
  clear he hw
  repeat' first
      | (with_reducible first | exact all_nil_alone | refine all_cons_alone ?_ ?_ | refine look_alone fun _ => ?_ | refine when_alone ?_ | refine ite_alone ?_ ?_ | refine forBelow_alone fun _ => ?_ | exact skip_alone)
      | ((with_reducible refine granted_alone ?_ ?_ ?_ _ _ ?_); (· exact ⟨nofun, nofun⟩); (· rfl); (· intro e; first | rfl | cases e); skip)
      | ((with_reducible refine granted_alone' ?_ _ _ ?_); (· rfl); skip)
      | with_reducible exact eqCtrlWrite_lane ..
      | split
      | dsimp only

theorem execPrbsCheckerLock_alone_lane (l : LaneId) (word : BitVec 64) (n errs : Nat) {σ τ : State} (hw : σ.wf) (he : execPrbsCheckerLock l word n errs σ = .next τ) : Alone (.lane (l / 8)) σ τ := by
  refine answer_alone ?_ hw he
  clear he hw
  repeat' first
      | (with_reducible first | exact all_nil_alone | refine all_cons_alone ?_ ?_ | refine look_alone fun _ => ?_ | refine when_alone ?_ | refine ite_alone ?_ ?_ | refine forBelow_alone fun _ => ?_ | exact skip_alone)
      | ((with_reducible refine wln_alone ?_ ?_ _); (· decide +kernel); (· intro e; first | rfl | cases e))
      | ((with_reducible refine addCnt_alone ?_ ?_ ?_ ..); (· exact ⟨nofun, nofun⟩); (· rfl); (· intro e; first | rfl | cases e))
      | split
      | dsimp only

theorem inject_lane (l : Nat) : (inject l).Alone (.lane (l / 8)) := by
  unfold inject
  repeat' first
      | (with_reducible first | exact all_nil_alone | refine all_cons_alone ?_ ?_ | refine look_alone fun _ => ?_ | refine when_alone ?_ | refine ite_alone ?_ ?_ | refine forBelow_alone fun _ => ?_ | exact skip_alone)
      | (with_reducible first | exact put_alone .. | exact emit_alone ..)
      | ((with_reducible refine addCnt_alone ?_ ?_ ?_ ..); (· exact ⟨nofun, nofun⟩); (· rfl); (· intro e; first | rfl | cases e))
      | split
      | dsimp only

theorem injCtrlWrite_lane (st : Stamp) (l v : Nat) : (injCtrlWrite st l v).Alone (.lane (l / 8)) := by
  unfold injCtrlWrite
  repeat' first
      | (with_reducible first | exact all_nil_alone | refine all_cons_alone ?_ ?_ | refine look_alone fun _ => ?_ | refine when_alone ?_ | refine ite_alone ?_ ?_ | refine forBelow_alone fun _ => ?_ | exact skip_alone)
      | ((with_reducible refine wln_alone ?_ ?_ _); (· decide +kernel); (· intro e; first | rfl | cases e))
      | ((with_reducible refine plainWrite_alone ?_ _ _ _); (· intro e; first | rfl | cases e))
      | with_reducible exact inject_lane ..
      | split
      | dsimp only

theorem execInjectOneShot_alone_lane (st : Stamp) (l : LaneId) (v : Word) {σ τ : State} (hw : σ.wf) (he : execInjectOneShot st l v σ = .next τ) : Alone (.lane (l / 8)) σ τ := by
  refine answer_alone ?_ hw he
  clear he hw
  repeat' first
      | (with_reducible first | exact all_nil_alone | refine all_cons_alone ?_ ?_ | refine look_alone fun _ => ?_ | refine when_alone ?_ | refine ite_alone ?_ ?_ | refine forBelow_alone fun _ => ?_ | exact skip_alone)
      | ((with_reducible refine granted_alone ?_ ?_ ?_ _ _ ?_); (· exact ⟨nofun, nofun⟩); (· rfl); (· intro e; first | rfl | cases e); skip)
      | ((with_reducible refine granted_alone' ?_ _ _ ?_); (· rfl); skip)
      | with_reducible exact injCtrlWrite_lane ..
      | split
      | dsimp only

theorem execInjectPeriodic_alone_lane (l : LaneId) {σ τ : State} (hw : σ.wf) (he : execInjectPeriodic l σ = .next τ) : Alone (.lane (l / 8)) σ τ := by
  refine answer_alone ?_ hw he
  clear he hw
  repeat' first
      | (with_reducible first | exact all_nil_alone | refine all_cons_alone ?_ ?_ | refine look_alone fun _ => ?_ | refine when_alone ?_ | refine ite_alone ?_ ?_ | refine forBelow_alone fun _ => ?_ | exact skip_alone)
      | with_reducible exact inject_lane ..
      | split
      | dsimp only

theorem execRxAdaptationDone_alone_lane (l : LaneId) (eyeV eyeH snr : BitVec 8) (ctle : Fin 32) {σ τ : State} (hw : σ.wf) (he : execRxAdaptationDone l eyeV eyeH snr ctle σ = .next τ) : Alone (.lane (l / 8)) σ τ := by
  refine answer_alone ?_ hw he
  clear he hw
  repeat' first
      | (with_reducible first | exact all_nil_alone | refine all_cons_alone ?_ ?_ | refine look_alone fun _ => ?_ | refine when_alone ?_ | refine ite_alone ?_ ?_ | refine forBelow_alone fun _ => ?_ | exact skip_alone)
      | ((with_reducible refine wln_alone ?_ ?_ _); (· decide +kernel); (· intro e; first | rfl | cases e))
      | split
      | dsimp only

theorem slipWrite_lane (l v : Nat) : (slipWrite l v).Alone (.lane (l / 8)) := by
  unfold slipWrite
  repeat' first
      | (with_reducible first | exact all_nil_alone | refine all_cons_alone ?_ ?_ | refine look_alone fun _ => ?_ | refine when_alone ?_ | refine ite_alone ?_ ?_ | refine forBelow_alone fun _ => ?_ | exact skip_alone)
      | (with_reducible first | exact put_alone .. | exact emit_alone ..)
      | ((with_reducible refine wln_alone ?_ ?_ _); (· decide +kernel); (· intro e; first | rfl | cases e))
      | ((with_reducible refine raise_alone ?_ ?_ ?_ ..); (· exact ⟨nofun, nofun⟩); (· rfl); (· intro e; first | rfl | cases e))
      | split
      | dsimp only

theorem execLaneSlip_alone_lane (st : Stamp) (l : LaneId) (v : Word) {σ τ : State} (hw : σ.wf) (he : execLaneSlip st l v σ = .next τ) : Alone (.lane (l / 8)) σ τ := by
  refine answer_alone ?_ hw he
  clear he hw
  repeat' first
      | (with_reducible first | exact all_nil_alone | refine all_cons_alone ?_ ?_ | refine look_alone fun _ => ?_ | refine when_alone ?_ | refine ite_alone ?_ ?_ | refine forBelow_alone fun _ => ?_ | exact skip_alone)
      | ((with_reducible refine granted_alone ?_ ?_ ?_ _ _ ?_); (· exact ⟨nofun, nofun⟩); (· rfl); (· intro e; first | rfl | cases e); skip)
      | ((with_reducible refine granted_alone' ?_ _ _ ?_); (· rfl); skip)
      | with_reducible exact slipWrite_lane ..
      | split
      | dsimp only

theorem execSignalDetect_alone_lane (l : LaneId) {σ τ : State} (hw : σ.wf) (he : execSignalDetect l σ = .next τ) : Alone (.lane (l / 8)) σ τ := by
  refine answer_alone ?_ hw he
  clear he hw
  repeat' first
      | (with_reducible first | exact all_nil_alone | refine all_cons_alone ?_ ?_ | refine look_alone fun _ => ?_ | refine when_alone ?_ | refine ite_alone ?_ ?_ | refine forBelow_alone fun _ => ?_ | exact skip_alone)
      | ((with_reducible refine wr_alone ?_ ?_); (· first | exact hdr_mem rfl (by decide +kernel) | exact own_mem (show _ ∈ tabLANE by decide +kernel) | exact own_mem (show _ ∈ tabPORT by decide +kernel)); (· intro e; first | rfl | cases e))
      | ((with_reducible refine wln_alone ?_ ?_ _); (· decide +kernel); (· intro e; first | rfl | cases e))
      | ((with_reducible refine bump_alone ?_ ?_ ?_ ..); (· exact ⟨nofun, nofun⟩); (· rfl); (· intro e; first | rfl | cases e))
      | unfold advanceWhen
      | with_reducible refine forSome_alone fun _ => ?_
      | split
      | dsimp only

theorem execAlignTransmit_alone_lane (l : LaneId) {σ τ : State} (hw : σ.wf) (he : execAlignTransmit l σ = .next τ) : Alone (.lane (l / 8)) σ τ := by
  refine answer_alone ?_ hw he
  clear he hw
  repeat' first
      | (with_reducible first | exact all_nil_alone | refine all_cons_alone ?_ ?_ | refine look_alone fun _ => ?_ | refine when_alone ?_ | refine ite_alone ?_ ?_ | refine forBelow_alone fun _ => ?_ | exact skip_alone)
      | with_reducible exact sendAlign_lane ..
      | split
      | dsimp only

theorem execRestReceived_alone_lane (l : LaneId) {σ τ : State} (hw : σ.wf) (he : execRestReceived l σ = .next τ) : Alone (.lane (l / 8)) σ τ := by
  refine answer_alone ?_ hw he
  clear he hw
  repeat' first
      | (with_reducible first | exact all_nil_alone | refine all_cons_alone ?_ ?_ | refine look_alone fun _ => ?_ | refine when_alone ?_ | refine ite_alone ?_ ?_ | refine forBelow_alone fun _ => ?_ | exact skip_alone)
      | (with_reducible first | exact put_alone ..)
      | ((with_reducible refine wln_alone ?_ ?_ _); (· decide +kernel); (· intro e; first | rfl | cases e))
      | with_reducible exact laneCnt_lane ..
      | split
      | dsimp only

end Sys2Proof.Machine
end

