-- ==== Sys2Proof/Laws/AlonePort.lean ====
section
/-! SUPPORT. Commands that touch one page of the kind PORT alone. -/

namespace Sys2Proof.Machine

set_option Elab.async false
set_option linter.unusedTactic false
set_option linter.unreachableTactic false

theorem clearLink_port (p : Nat) : (clearLink p).Alone (.port p) := by
  unfold clearLink
  repeat' first
      | (with_reducible first | exact all_nil_alone | refine all_cons_alone ?_ ?_ | refine look_alone fun _ => ?_ | refine when_alone ?_ | refine ite_alone ?_ ?_ | refine forBelow_alone fun _ => ?_ | exact skip_alone)
      | (with_reducible first | exact put_alone .. | exact clearIv_alone .. | exact putReplay_alone ..)
      | ((with_reducible refine wr_alone ?_ ?_); (· first | exact own_mem (show _ ∈ tabBRIDGE4 by decide +kernel) | exact own_mem (show _ ∈ tabPORT by decide +kernel) | exact own_mem (show _ ∈ tabSEC1 by decide +kernel) | exact own_mem (show _ ∈ tabSEC2 by decide +kernel)); (· intro e; first | rfl | cases e))
      | ((with_reducible refine forEach_wr_alone ?_ ?_ _ _); (· first | decide +kernel | (show List.all _ ((tabHDR ++ tabPORT).contains ·) = true; decide +kernel)); (· intro e; first | rfl | cases e))
      | with_reducible refine forEach_alone fun _ => ?_
      | split
      | dsimp only

theorem linkTo_port (p dest : Nat) : (linkTo p dest).Alone (.port p) := by
  unfold linkTo
  repeat' first
      | (with_reducible first | exact all_nil_alone | refine all_cons_alone ?_ ?_ | refine look_alone fun _ => ?_ | refine when_alone ?_ | refine ite_alone ?_ ?_ | refine forBelow_alone fun _ => ?_ | exact skip_alone)
      | ((with_reducible refine wr_alone ?_ ?_); (· first | exact own_mem (show _ ∈ tabFACE by decide +kernel) | exact own_mem (show _ ∈ tabPORT by decide +kernel)); (· intro e; first | rfl | cases e))
      | with_reducible exact clearLink_port ..
      | ((with_reducible refine alone_of (F := Foot.ingressCut) .port ?_ ?_ ?_); (· rfl); (· with_reducible exact ingressCut_in (Foot.le_refl _) ..); (· decide +kernel))
      | ((with_reducible refine alone_of (F := Foot.laneTrain) .port ?_ ?_ ?_); (· rfl); (· with_reducible exact laneTrain_in (Foot.le_refl _) ..); (· decide +kernel))
      | ((with_reducible refine alone_of (F := Foot.unretainedLoss) .port ?_ ?_ ?_); (· rfl); (· with_reducible exact unretainedLoss_in (Foot.le_refl _) ..); (· decide +kernel))
      | with_reducible refine forEach_alone fun _ => ?_
      | with_reducible refine forSome_alone fun _ => ?_
      | split
      | dsimp only

theorem linkDown_port (p : Nat) : (linkDown p).Alone (.port p) := by
  unfold linkDown
  repeat' first
      | (with_reducible first | exact all_nil_alone | refine all_cons_alone ?_ ?_ | refine look_alone fun _ => ?_ | refine when_alone ?_ | refine ite_alone ?_ ?_ | refine forBelow_alone fun _ => ?_ | exact skip_alone)
      | with_reducible exact linkTo_port ..
      | split
      | dsimp only

theorem linkFails_port (p : Nat) (e : Option Err) : (linkFails p e).Alone (.port p) := by
  unfold linkFails
  repeat' first
      | (with_reducible first | exact all_nil_alone | refine all_cons_alone ?_ ?_ | refine look_alone fun _ => ?_ | refine when_alone ?_ | refine ite_alone ?_ ?_ | refine forBelow_alone fun _ => ?_ | exact skip_alone)
      | ((with_reducible refine raiseAll_alone ?_ ?_ ?_ ..); (· exact ⟨nofun, nofun⟩); (· rfl); (· intro e; first | rfl | cases e))
      | with_reducible exact linkDown_port ..
      | split
      | dsimp only

theorem portReset_port (p : Nat) : (portReset p).Alone (.port p) := by
  unfold portReset
  repeat' first
      | (with_reducible first | exact all_nil_alone | refine all_cons_alone ?_ ?_ | refine look_alone fun _ => ?_ | refine when_alone ?_ | refine ite_alone ?_ ?_ | refine forBelow_alone fun _ => ?_ | exact skip_alone)
      | (with_reducible first | exact put_alone ..)
      | ((with_reducible refine wr_alone ?_ ?_); (· first | exact own_mem (show _ ∈ tabBRIDGE4 by decide +kernel) | exact own_mem (show _ ∈ tabBRIDGE1 by decide +kernel) | exact hdr_mem rfl (by decide +kernel) | exact own_mem (show _ ∈ tabPORT by decide +kernel) | exact own_mem (show _ ∈ tabSEC1 by decide +kernel)); (· intro e; first | rfl | cases e))
      | ((with_reducible refine resetPage_alone ?_ _); (· intro e; first | rfl | cases e))
      | ((with_reducible refine alone_of (F := Foot.egressDiscard) .port ?_ ?_ ?_); (· rfl); (· with_reducible exact egressDiscard_in (Foot.le_refl _) ..); (· decide +kernel))
      | with_reducible exact linkDown_port ..
      | ((with_reducible refine alone_of (F := Foot.resetPage) .port ?_ ?_ ?_); (· rfl); (· with_reducible exact resetPage_in (Foot.le_refl _) ..); (· decide +kernel))
      | split
      | dsimp only

theorem startWidthChange_port (p set : Nat) : (startWidthChange p set).Alone (.port p) := by
  unfold startWidthChange
  repeat' first
      | (with_reducible first | exact all_nil_alone | refine all_cons_alone ?_ ?_ | refine look_alone fun _ => ?_ | refine when_alone ?_ | refine ite_alone ?_ ?_ | refine forBelow_alone fun _ => ?_ | exact skip_alone)
      | (with_reducible first | exact put_alone ..)
      | ((with_reducible refine wr_alone ?_ ?_); (· first | exact own_mem (show _ ∈ tabPORT by decide +kernel)); (· intro e; first | rfl | cases e))
      | ((with_reducible refine alone_of (F := Foot.sendLanemap) .port ?_ ?_ ?_); (· rfl); (· with_reducible exact sendLanemap_in (Foot.le_refl _) ..); (· decide +kernel))
      | split
      | dsimp only

theorem useSet_port (p set : Nat) : (useSet p set).Alone (.port p) := by
  unfold useSet
  repeat' first
      | (with_reducible first | exact all_nil_alone | refine all_cons_alone ?_ ?_ | refine look_alone fun _ => ?_ | refine when_alone ?_ | refine ite_alone ?_ ?_ | refine forBelow_alone fun _ => ?_ | exact skip_alone)
      | ((with_reducible refine wr_alone ?_ ?_); (· first | exact own_mem (show _ ∈ tabPORT by decide +kernel)); (· intro e; first | rfl | cases e))
      | split
      | dsimp only

theorem finishWidthChange_port (p set id : Nat) : (finishWidthChange p set id).Alone (.port p) := by
  unfold finishWidthChange
  repeat' first
      | (with_reducible first | exact all_nil_alone | refine all_cons_alone ?_ ?_ | refine look_alone fun _ => ?_ | refine when_alone ?_ | refine ite_alone ?_ ?_ | refine forBelow_alone fun _ => ?_ | exact skip_alone)
      | (with_reducible first | exact put_alone ..)
      | ((with_reducible refine wr_alone ?_ ?_); (· first | exact hdr_mem rfl (by decide +kernel) | exact own_mem (show _ ∈ tabGUARD0 by decide +kernel) | exact own_mem (show _ ∈ tabLANE by decide +kernel) | exact own_mem (show _ ∈ tabPORT by decide +kernel)); (· intro e; first | rfl | cases e))
      | ((with_reducible refine wln_alone ?_ ?_ _); (· decide +kernel); (· intro e; first | rfl | cases e))
      | ((with_reducible refine bump_alone ?_ ?_ ?_ ..); (· exact ⟨nofun, nofun⟩); (· rfl); (· intro e; first | rfl | cases e))
      | ((with_reducible refine raise_alone ?_ ?_ ?_ ..); (· exact ⟨nofun, nofun⟩); (· rfl); (· intro e; first | rfl | cases e))
      | ((with_reducible refine alone_of (F := Foot.laneOff) .port ?_ ?_ ?_); (· rfl); (· with_reducible exact laneOff_in (Foot.le_refl _) ..); (· decide +kernel))
      | with_reducible exact linkFails_port ..
      | ((with_reducible refine alone_of (F := Foot.releaseLanes) .port ?_ ?_ ?_); (· rfl); (· with_reducible exact releaseLanes_in (Foot.le_refl _) ..); (· decide +kernel))
      | ((with_reducible refine alone_of (F := Foot.sendAlign) .port ?_ ?_ ?_); (· rfl); (· with_reducible exact sendAlign_in (Foot.le_refl _) ..); (· decide +kernel))
      | with_reducible exact useSet_port ..
      | with_reducible refine forEach_alone fun _ => ?_
      | split
      | dsimp only

theorem portCfgWrite_port (st : Stamp) (p v : Nat) : (portCfgWrite st p v).Alone (.port p) := by
  unfold portCfgWrite
  repeat' first
      | (with_reducible first | exact all_nil_alone | refine all_cons_alone ?_ ?_ | refine look_alone fun _ => ?_ | refine when_alone ?_ | refine ite_alone ?_ ?_ | refine forBelow_alone fun _ => ?_ | exact skip_alone)
      | (with_reducible first | exact put_alone ..)
      | ((with_reducible refine wr_alone ?_ ?_); (· first | exact hdr_mem rfl (by decide +kernel) | exact own_mem (show _ ∈ tabGUARD0 by decide +kernel) | exact own_mem (show _ ∈ tabPORT by decide +kernel)); (· intro e; first | rfl | cases e))
      | ((with_reducible refine raise_alone ?_ ?_ ?_ ..); (· exact ⟨nofun, nofun⟩); (· rfl); (· intro e; first | rfl | cases e))
      | ((with_reducible refine plainWrite_alone ?_ _ _ _); (· intro e; first | rfl | cases e))
      | ((with_reducible refine alone_of (F := Foot.claimLanes) .port ?_ ?_ ?_); (· rfl); (· with_reducible exact claimLanes_in (Foot.le_refl _) ..); (· decide +kernel))
      | ((with_reducible refine alone_of (F := Foot.coreWatch) .port ?_ ?_ ?_); (· rfl); (· with_reducible exact coreWatch_in (Foot.le_refl _) ..); (· decide +kernel))
      | with_reducible exact portReset_port ..
      | ((with_reducible refine alone_of (F := Foot.releaseLanes) .port ?_ ?_ ?_); (· rfl); (· with_reducible exact releaseLanes_in (Foot.le_refl _) ..); (· decide +kernel))
      | with_reducible exact startWidthChange_port ..
      | split
      | dsimp only

theorem execPortCfgApply_alone_port (st : Stamp) (p : PortId) (v : Word) {σ τ : State} (hw : σ.wf) (he : execPortCfgApply st p v σ = .next τ) : Alone (.port p) σ τ := by
  refine answer_alone ?_ hw he
  clear he hw
  repeat' first
      | (with_reducible first | exact all_nil_alone | refine all_cons_alone ?_ ?_ | refine look_alone fun _ => ?_ | refine when_alone ?_ | refine ite_alone ?_ ?_ | refine forBelow_alone fun _ => ?_ | exact skip_alone)
      | ((with_reducible refine granted_alone ?_ ?_ ?_ _ _ ?_); (· exact ⟨nofun, nofun⟩); (· rfl); (· intro e; first | rfl | cases e); skip)
      | ((with_reducible refine granted_alone' ?_ _ _ ?_); (· rfl); skip)
      | with_reducible exact portCfgWrite_port ..
      | split
      | dsimp only

theorem detectStart_port (p : Nat) : (detectStart p).Alone (.port p) := by
  unfold detectStart
  repeat' first
      | (with_reducible first | exact all_nil_alone | refine all_cons_alone ?_ ?_ | refine look_alone fun _ => ?_ | refine when_alone ?_ | refine ite_alone ?_ ?_ | refine forBelow_alone fun _ => ?_ | exact skip_alone)
      | (with_reducible first | exact put_alone ..)
      | ((with_reducible refine wr_alone ?_ ?_); (· first | exact hdr_mem rfl (by decide +kernel) | exact own_mem (show _ ∈ tabPORT by decide +kernel)); (· intro e; first | rfl | cases e))
      | ((with_reducible refine bump_alone ?_ ?_ ?_ ..); (· exact ⟨nofun, nofun⟩); (· rfl); (· intro e; first | rfl | cases e))
      | ((with_reducible refine alone_of (F := Foot.laneOff) .port ?_ ?_ ?_); (· rfl); (· with_reducible exact laneOff_in (Foot.le_refl _) ..); (· decide +kernel))
      | ((with_reducible refine alone_of (F := Foot.laneTrain) .port ?_ ?_ ?_); (· rfl); (· with_reducible exact laneTrain_in (Foot.le_refl _) ..); (· decide +kernel))
      | with_reducible refine forEach_alone fun _ => ?_
      | split
      | dsimp only

theorem execLinkDownDwellExpiry_alone_port (p : PortId) {σ τ : State} (hw : σ.wf) (he : execLinkDownDwellExpiry p σ = .next τ) : Alone (.port p) σ τ := by
  refine answer_alone ?_ hw he
  clear he hw
  repeat' first
      | (with_reducible first | exact all_nil_alone | refine all_cons_alone ?_ ?_ | refine look_alone fun _ => ?_ | refine when_alone ?_ | refine ite_alone ?_ ?_ | refine forBelow_alone fun _ => ?_ | exact skip_alone)
      | with_reducible exact detectStart_port ..
      | split
      | dsimp only

theorem execTrainStateTimeout_alone_port (p : PortId) {σ τ : State} (hw : σ.wf) (he : execTrainStateTimeout p σ = .next τ) : Alone (.port p) σ τ := by
  refine answer_alone ?_ hw he
  clear he hw
  repeat' first
      | (with_reducible first | exact all_nil_alone | refine all_cons_alone ?_ ?_ | refine look_alone fun _ => ?_ | refine when_alone ?_ | refine ite_alone ?_ ?_ | refine forBelow_alone fun _ => ?_ | exact skip_alone)
      | ((with_reducible refine bump_alone ?_ ?_ ?_ ..); (· exact ⟨nofun, nofun⟩); (· rfl); (· intro e; first | rfl | cases e))
      | with_reducible exact linkFails_port ..
      | split
      | dsimp only

theorem execDetectAbsentTimeout_alone_port (p : PortId) {σ τ : State} (hw : σ.wf) (he : execDetectAbsentTimeout p σ = .next τ) : Alone (.port p) σ τ := by
  refine answer_alone ?_ hw he
  clear he hw
  repeat' first
      | (with_reducible first | exact all_nil_alone | refine all_cons_alone ?_ ?_ | refine look_alone fun _ => ?_ | refine when_alone ?_ | refine ite_alone ?_ ?_ | refine forBelow_alone fun _ => ?_ | exact skip_alone)
      | ((with_reducible refine wr_alone ?_ ?_); (· first | exact own_mem (show _ ∈ tabPORT by decide +kernel)); (· intro e; first | rfl | cases e))
      | split
      | dsimp only

theorem paramsDone_port (p : Nat) : (paramsDone p).Alone (.port p) := by
  unfold paramsDone
  repeat' first
      | (with_reducible first | exact all_nil_alone | refine all_cons_alone ?_ ?_ | refine look_alone fun _ => ?_ | refine when_alone ?_ | refine ite_alone ?_ ?_ | refine forBelow_alone fun _ => ?_ | exact skip_alone)
      | (with_reducible first | exact put_alone ..)
      | ((with_reducible refine wr_alone ?_ ?_); (· first | exact own_mem (show _ ∈ tabBRIDGE4 by decide +kernel) | exact hdr_mem rfl (by decide +kernel) | exact own_mem (show _ ∈ tabPORT by decide +kernel) | exact own_mem (show _ ∈ tabSEC2 by decide +kernel)); (· intro e; first | rfl | cases e))
      | ((with_reducible refine bump_alone ?_ ?_ ?_ ..); (· exact ⟨nofun, nofun⟩); (· rfl); (· intro e; first | rfl | cases e))
      | ((with_reducible refine alone_of (F := Foot.initialCredits) .port ?_ ?_ ?_); (· rfl); (· with_reducible exact initialCredits_in (Foot.le_refl _) ..); (· decide +kernel))
      | with_reducible exact linkFails_port ..
      | ((with_reducible refine alone_of (F := Foot.neighbourJudge) .port ?_ ?_ ?_); (· rfl); (· with_reducible exact neighbourJudge_in (Foot.le_refl _) ..); (· decide +kernel))
      | ((with_reducible refine alone_of (F := Foot.sendHello) .port ?_ ?_ ?_); (· rfl); (· with_reducible exact sendHello_in (Foot.le_refl _) ..); (· decide +kernel))
      | split
      | dsimp only

theorem execParamBlockReceived_alone_port (p : PortId) (blk : BitVec 64) {σ τ : State} (hw : σ.wf) (he : execParamBlockReceived p blk σ = .next τ) : Alone (.port p) σ τ := by
  refine answer_alone ?_ hw he
  clear he hw
  repeat' first
      | (with_reducible first | exact all_nil_alone | refine all_cons_alone ?_ ?_ | refine look_alone fun _ => ?_ | refine when_alone ?_ | refine ite_alone ?_ ?_ | refine forBelow_alone fun _ => ?_ | exact skip_alone)
      | (with_reducible first | exact put_alone ..)
      | ((with_reducible refine bump_alone ?_ ?_ ?_ ..); (· exact ⟨nofun, nofun⟩); (· rfl); (· intro e; first | rfl | cases e))
      | ((with_reducible refine raise_alone ?_ ?_ ?_ ..); (· exact ⟨nofun, nofun⟩); (· rfl); (· intro e; first | rfl | cases e))
      | with_reducible exact paramsDone_port ..
      | split
      | dsimp only

theorem authFails_port (p code : Nat) : (authFails p code).Alone (.port p) := by
  unfold authFails
  repeat' first
      | (with_reducible first | exact all_nil_alone | refine all_cons_alone ?_ ?_ | refine look_alone fun _ => ?_ | refine when_alone ?_ | refine ite_alone ?_ ?_ | refine forBelow_alone fun _ => ?_ | exact skip_alone)
      | (with_reducible first | exact put_alone ..)
      | ((with_reducible refine wr_alone ?_ ?_); (· first | exact hdr_mem rfl (by decide +kernel) | exact own_mem (show _ ∈ tabGUARD0 by decide +kernel) | exact own_mem (show _ ∈ tabSEC2 by decide +kernel)); (· intro e; first | rfl | cases e))
      | ((with_reducible refine bump_alone ?_ ?_ ?_ ..); (· exact ⟨nofun, nofun⟩); (· rfl); (· intro e; first | rfl | cases e))
      | ((with_reducible refine raiseIn_alone ?_ ?_ ?_ ..); (· exact ⟨nofun, nofun⟩); (· rfl); (· intro e; first | rfl | cases e))
      | with_reducible exact linkDown_port ..
      | split
      | dsimp only

theorem execAuthCert_alone_port (p : PortId) (chainOk debug : Bool) {σ τ : State} (hw : σ.wf) (he : execAuthCert p chainOk debug σ = .next τ) : Alone (.port p) σ τ := by
  refine answer_alone ?_ hw he
  clear he hw
  repeat' first
      | (with_reducible first | exact all_nil_alone | refine all_cons_alone ?_ ?_ | refine look_alone fun _ => ?_ | refine when_alone ?_ | refine ite_alone ?_ ?_ | refine forBelow_alone fun _ => ?_ | exact skip_alone)
      | (with_reducible first | exact put_alone ..)
      | with_reducible exact authFails_port ..
      | ((with_reducible refine alone_of (F := Foot.sendProof) .port ?_ ?_ ?_); (· rfl); (· with_reducible exact sendProof_in (Foot.le_refl _) ..); (· decide +kernel))
      | split
      | dsimp only

theorem execAuthProof_alone_port (p : PortId) (sigOk : Bool) (owner : BitVec 384) (domain : BitVec 128) (sw port : Nat) {σ τ : State} (hw : σ.wf) (he : execAuthProof p sigOk owner domain sw port σ = .next τ) : Alone (.port p) σ τ := by
  refine answer_alone ?_ hw he
  clear he hw
  repeat' first
      | (with_reducible first | exact all_nil_alone | refine all_cons_alone ?_ ?_ | refine look_alone fun _ => ?_ | refine when_alone ?_ | refine ite_alone ?_ ?_ | refine forBelow_alone fun _ => ?_ | exact skip_alone)
      | (with_reducible first | exact put_alone .. | exact emit_alone ..)
      | ((with_reducible refine wr_alone ?_ ?_); (· first | exact own_mem (show _ ∈ tabSEC2 by decide +kernel)); (· intro e; first | rfl | cases e))
      | with_reducible exact authFails_port ..
      | split
      | dsimp only

theorem execAuthDone_alone_port (p : PortId) (macOk : Bool) {σ τ : State} (hw : σ.wf) (he : execAuthDone p macOk σ = .next τ) : Alone (.port p) σ τ := by
  refine answer_alone ?_ hw he
  clear he hw
  repeat' first
      | (with_reducible first | exact all_nil_alone | refine all_cons_alone ?_ ?_ | refine look_alone fun _ => ?_ | refine when_alone ?_ | refine ite_alone ?_ ?_ | refine forBelow_alone fun _ => ?_ | exact skip_alone)
      | (with_reducible first | exact put_alone .. | exact clearIv_alone ..)
      | ((with_reducible refine wr_alone ?_ ?_); (· first | exact hdr_mem rfl (by decide +kernel) | exact own_mem (show _ ∈ tabPORT by decide +kernel) | exact own_mem (show _ ∈ tabSEC2 by decide +kernel)); (· intro e; first | rfl | cases e))
      | ((with_reducible refine bump_alone ?_ ?_ ?_ ..); (· exact ⟨nofun, nofun⟩); (· rfl); (· intro e; first | rfl | cases e))
      | with_reducible exact authFails_port ..
      | ((with_reducible refine alone_of (F := Foot.supplyKey) .port ?_ ?_ ?_); (· rfl); (· with_reducible exact supplyKey_in (Foot.le_refl _) ..); (· decide +kernel))
      | with_reducible refine forEach_alone fun _ => ?_
      | split
      | dsimp only

theorem checkedCtl_port (p : Nat) (blk : BitVec 64) (typ : Nat) (u : Upd) (h_u : u.Alone (.port p)) : (checkedCtl p blk typ u).Alone (.port p) := by
  unfold checkedCtl
  repeat' first
      | (with_reducible first | exact all_nil_alone | refine all_cons_alone ?_ ?_ | refine look_alone fun _ => ?_ | refine when_alone ?_ | refine ite_alone ?_ ?_ | refine forBelow_alone fun _ => ?_ | exact skip_alone)
      | with_reducible exact h_u
      | ((with_reducible refine bump_alone ?_ ?_ ?_ ..); (· exact ⟨nofun, nofun⟩); (· rfl); (· intro e; first | rfl | cases e))
      | ((with_reducible refine raise_alone ?_ ?_ ?_ ..); (· exact ⟨nofun, nofun⟩); (· rfl); (· intro e; first | rfl | cases e))
      | split
      | dsimp only

theorem execCreditBlockReceived_alone_port (p : PortId) (blk : BitVec 64) {σ τ : State} (hw : σ.wf) (he : execCreditBlockReceived p blk σ = .next τ) : Alone (.port p) σ τ := by
  refine answer_alone ?_ hw he
  clear he hw
  repeat' first
      | (with_reducible first | exact all_nil_alone | refine all_cons_alone ?_ ?_ | refine look_alone fun _ => ?_ | refine when_alone ?_ | refine ite_alone ?_ ?_ | refine forBelow_alone fun _ => ?_ | exact skip_alone)
      | (with_reducible first | exact put_alone ..)
      | ((with_reducible refine bump_alone ?_ ?_ ?_ ..); (· exact ⟨nofun, nofun⟩); (· rfl); (· intro e; first | rfl | cases e))
      | ((with_reducible refine checkedCtl_port _ _ _ _ (?_)))
      | with_reducible exact linkFails_port ..
      | split
      | dsimp only

theorem execCreditStallTimeout_alone_port (p : PortId) (cls : ClassId) (pool : PoolId) {σ τ : State} (hw : σ.wf) (he : execCreditStallTimeout p cls pool σ = .next τ) : Alone (.port p) σ τ := by
  refine answer_alone ?_ hw he
  clear he hw
  repeat' first
      | (with_reducible first | exact all_nil_alone | refine all_cons_alone ?_ ?_ | refine look_alone fun _ => ?_ | refine when_alone ?_ | refine ite_alone ?_ ?_ | refine forBelow_alone fun _ => ?_ | exact skip_alone)
      | ((with_reducible refine raise_alone ?_ ?_ ?_ ..); (· exact ⟨nofun, nofun⟩); (· rfl); (· intro e; first | rfl | cases e))
      | split
      | dsimp only

theorem execLanemapReceived_alone_port (p : PortId) (blk : BitVec 64) {σ τ : State} (hw : σ.wf) (he : execLanemapReceived p blk σ = .next τ) : Alone (.port p) σ τ := by
  refine answer_alone ?_ hw he
  clear he hw
  repeat' first
      | (with_reducible first | exact all_nil_alone | refine all_cons_alone ?_ ?_ | refine look_alone fun _ => ?_ | refine when_alone ?_ | refine ite_alone ?_ ?_ | refine forBelow_alone fun _ => ?_ | exact skip_alone)
      | (with_reducible first | exact put_alone ..)
      | ((with_reducible refine checkedCtl_port _ _ _ _ (?_)))
      | with_reducible exact finishWidthChange_port ..
      | ((with_reducible refine alone_of (F := Foot.sendLanemap) .port ?_ ?_ ?_); (· rfl); (· with_reducible exact sendLanemap_in (Foot.le_refl _) ..); (· decide +kernel))
      | split
      | dsimp only

theorem execWideningLanesReady_alone_port (p : PortId) {σ τ : State} (hw : σ.wf) (he : execWideningLanesReady p σ = .next τ) : Alone (.port p) σ τ := by
  refine answer_alone ?_ hw he
  clear he hw
  repeat' first
      | (with_reducible first | exact all_nil_alone | refine all_cons_alone ?_ ?_ | refine look_alone fun _ => ?_ | refine when_alone ?_ | refine ite_alone ?_ ?_ | refine forBelow_alone fun _ => ?_ | exact skip_alone)
      | with_reducible exact startWidthChange_port ..
      | split
      | dsimp only

theorem execWidthChangeTimeout_alone_port (p : PortId) {σ τ : State} (hw : σ.wf) (he : execWidthChangeTimeout p σ = .next τ) : Alone (.port p) σ τ := by
  refine answer_alone ?_ hw he
  clear he hw
  repeat' first
      | (with_reducible first | exact all_nil_alone | refine all_cons_alone ?_ ?_ | refine look_alone fun _ => ?_ | refine when_alone ?_ | refine ite_alone ?_ ?_ | refine forBelow_alone fun _ => ?_ | exact skip_alone)
      | ((with_reducible refine raise_alone ?_ ?_ ?_ ..); (· exact ⟨nofun, nofun⟩); (· rfl); (· intro e; first | rfl | cases e))
      | with_reducible exact linkDown_port ..
      | split
      | dsimp only

theorem execLinkLoss_alone_port (p : PortId) {σ τ : State} (hw : σ.wf) (he : execLinkLoss p σ = .next τ) : Alone (.port p) σ τ := by
  refine answer_alone ?_ hw he
  clear he hw
  repeat' first
      | (with_reducible first | exact all_nil_alone | refine all_cons_alone ?_ ?_ | refine look_alone fun _ => ?_ | refine when_alone ?_ | refine ite_alone ?_ ?_ | refine forBelow_alone fun _ => ?_ | exact skip_alone)
      | ((with_reducible refine wln_alone ?_ ?_ _); (· decide +kernel); (· intro e; first | rfl | cases e))
      | ((with_reducible refine bump_alone ?_ ?_ ?_ ..); (· exact ⟨nofun, nofun⟩); (· rfl); (· intro e; first | rfl | cases e))
      | ((with_reducible refine raise_alone ?_ ?_ ?_ ..); (· exact ⟨nofun, nofun⟩); (· rfl); (· intro e; first | rfl | cases e))
      | ((with_reducible refine alone_of (F := Foot.laneCnt) .port ?_ ?_ ?_); (· rfl); (· with_reducible exact laneCnt_in (Foot.le_refl _) ..); (· decide +kernel))
      | with_reducible exact linkDown_port ..
      | with_reducible refine forEach_alone fun _ => ?_
      | split
      | dsimp only

theorem restLeave_port (p : Nat) : (restLeave p).Alone (.port p) := by
  unfold restLeave
  repeat' first
      | (with_reducible first | exact all_nil_alone | refine all_cons_alone ?_ ?_ | refine look_alone fun _ => ?_ | refine when_alone ?_ | refine ite_alone ?_ ?_ | refine forBelow_alone fun _ => ?_ | exact skip_alone)
      | (with_reducible first | exact put_alone .. | exact emit_alone ..)
      | ((with_reducible refine wr_alone ?_ ?_); (· first | exact own_mem (show _ ∈ tabLANE by decide +kernel) | exact own_mem (show _ ∈ tabPORT by decide +kernel)); (· intro e; first | rfl | cases e))
      | ((with_reducible refine wln_alone ?_ ?_ _); (· decide +kernel); (· intro e; first | rfl | cases e))
      | ((with_reducible refine alone_of (F := Foot.ctl) .port ?_ ?_ ?_); (· rfl); (· with_reducible exact ctl_in (Foot.le_refl _) ..); (· decide +kernel))
      | ((with_reducible refine alone_of (F := Foot.laneCnt) .port ?_ ?_ ?_); (· rfl); (· with_reducible exact laneCnt_in (Foot.le_refl _) ..); (· decide +kernel))
      | ((with_reducible refine alone_of (F := Foot.sendAlign) .port ?_ ?_ ?_); (· rfl); (· with_reducible exact sendAlign_in (Foot.le_refl _) ..); (· decide +kernel))
      | with_reducible refine forEach_alone fun _ => ?_
      | split
      | dsimp only

theorem restExit_port (p : Nat) : (restExit p).Alone (.port p) := by
  unfold restExit
  repeat' first
      | (with_reducible first | exact all_nil_alone | refine all_cons_alone ?_ ?_ | refine look_alone fun _ => ?_ | refine when_alone ?_ | refine ite_alone ?_ ?_ | refine forBelow_alone fun _ => ?_ | exact skip_alone)
      | (with_reducible first | exact put_alone ..)
      | with_reducible exact restLeave_port ..
      | split
      | dsimp only

theorem execRestExit_alone_port (p : PortId) {σ τ : State} (hw : σ.wf) (he : execRestExit p σ = .next τ) : Alone (.port p) σ τ := by
  refine answer_alone ?_ hw he
  clear he hw
  repeat' first
      | (with_reducible first | exact all_nil_alone | refine all_cons_alone ?_ ?_ | refine look_alone fun _ => ?_ | refine when_alone ?_ | refine ite_alone ?_ ?_ | refine forBelow_alone fun _ => ?_ | exact skip_alone)
      | with_reducible exact restExit_port ..
      | split
      | dsimp only

theorem awake_port (p held : Nat) (u : Upd) (h_u : u.Alone (.port p)) : (awake p held u).Alone (.port p) := by
  unfold awake
  repeat' first
      | (with_reducible first | exact all_nil_alone | refine all_cons_alone ?_ ?_ | refine look_alone fun _ => ?_ | refine when_alone ?_ | refine ite_alone ?_ ?_ | refine forBelow_alone fun _ => ?_ | exact skip_alone)
      | with_reducible exact h_u
      | (with_reducible first | exact modIv_alone ..)
      | with_reducible exact restExit_port ..
      | split
      | dsimp only

theorem sendAck_port (p : Nat) : (sendAck p).Alone (.port p) := by
  unfold sendAck
  repeat' first
      | (with_reducible first | exact all_nil_alone | refine all_cons_alone ?_ ?_ | refine look_alone fun _ => ?_ | refine when_alone ?_ | refine ite_alone ?_ ?_ | refine forBelow_alone fun _ => ?_ | exact skip_alone)
      | (with_reducible first | exact put_alone ..)
      | ((with_reducible refine awake_port _ _ _ (?_)))
      | ((with_reducible refine alone_of (F := Foot.ctl) .port ?_ ?_ ?_); (· rfl); (· with_reducible exact ctl_in (Foot.le_refl _) ..); (· decide +kernel))
      | split
      | dsimp only

theorem sendNak_port (p : Nat) : (sendNak p).Alone (.port p) := by
  unfold sendNak
  repeat' first
      | (with_reducible first | exact all_nil_alone | refine all_cons_alone ?_ ?_ | refine look_alone fun _ => ?_ | refine when_alone ?_ | refine ite_alone ?_ ?_ | refine forBelow_alone fun _ => ?_ | exact skip_alone)
      | (with_reducible first | exact put_alone ..)
      | ((with_reducible refine bump_alone ?_ ?_ ?_ ..); (· exact ⟨nofun, nofun⟩); (· rfl); (· intro e; first | rfl | cases e))
      | ((with_reducible refine awake_port _ _ _ (?_)))
      | ((with_reducible refine alone_of (F := Foot.ctl) .port ?_ ?_ ?_); (· rfl); (· with_reducible exact ctl_in (Foot.le_refl _) ..); (· decide +kernel))
      | split
      | dsimp only

theorem execCreditUpdateSend_alone_port (p : PortId) (cls : ClassId) (pool : PoolId) {σ τ : State} (hw : σ.wf) (he : execCreditUpdateSend p cls pool σ = .next τ) : Alone (.port p) σ τ := by
  refine answer_alone ?_ hw he
  clear he hw
  repeat' first
      | (with_reducible first | exact all_nil_alone | refine all_cons_alone ?_ ?_ | refine look_alone fun _ => ?_ | refine when_alone ?_ | refine ite_alone ?_ ?_ | refine forBelow_alone fun _ => ?_ | exact skip_alone)
      | (with_reducible first | exact emit_alone ..)
      | ((with_reducible refine alone_of (F := Foot.coreWatch) .port ?_ ?_ ?_); (· rfl); (· with_reducible exact coreWatch_in (Foot.le_refl _) ..); (· decide +kernel))
      | ((with_reducible refine alone_of (F := Foot.grantCredits) .port ?_ ?_ ?_); (· rfl); (· with_reducible exact grantCredits_in (Foot.le_refl _) ..); (· decide +kernel))
      | with_reducible exact restExit_port ..
      | ((with_reducible refine alone_of (F := Foot.sendCredit) .port ?_ ?_ ?_); (· rfl); (· with_reducible exact sendCredit_in (Foot.le_refl _) ..); (· decide +kernel))
      | split
      | dsimp only

theorem execPcieLinkUp_alone_port (p : PortId) (width : Fin 5) (rate : Fin 6) (flit rev : Bool) (inv : BitVec 16) (aspm : BitVec 2) {σ τ : State} (hw : σ.wf) (he : execPcieLinkUp p width rate flit rev inv aspm σ = .next τ) : Alone (.port p) σ τ := by
  refine answer_alone ?_ hw he
  clear he hw
  repeat' first
      | (with_reducible first | exact all_nil_alone | refine all_cons_alone ?_ ?_ | refine look_alone fun _ => ?_ | refine when_alone ?_ | refine ite_alone ?_ ?_ | refine forBelow_alone fun _ => ?_ | exact skip_alone)
      | (with_reducible first | exact put_alone ..)
      | ((with_reducible refine wr_alone ?_ ?_); (· first | exact hdr_mem rfl (by decide +kernel) | exact own_mem (show _ ∈ tabFACE by decide +kernel) | exact own_mem (show _ ∈ tabGUARD0 by decide +kernel) | exact own_mem (show _ ∈ tabLANE by decide +kernel) | exact own_mem (show _ ∈ tabPORT by decide +kernel)); (· intro e; first | rfl | cases e))
      | ((with_reducible refine wln_alone ?_ ?_ _); (· decide +kernel); (· intro e; first | rfl | cases e))
      | ((with_reducible refine bump_alone ?_ ?_ ?_ ..); (· exact ⟨nofun, nofun⟩); (· rfl); (· intro e; first | rfl | cases e))
      | ((with_reducible refine raise_alone ?_ ?_ ?_ ..); (· exact ⟨nofun, nofun⟩); (· rfl); (· intro e; first | rfl | cases e))
      | ((with_reducible refine msixFlush_alone ?_ ..); (· exact ⟨nofun, nofun⟩))
      | ((with_reducible refine alone_of (F := Foot.laneOff) .port ?_ ?_ ?_); (· rfl); (· with_reducible exact laneOff_in (Foot.le_refl _) ..); (· decide +kernel))
      | with_reducible exact linkFails_port ..
      | with_reducible exact useSet_port ..
      | with_reducible refine forEach_alone fun _ => ?_
      | with_reducible refine forSome_alone fun _ => ?_
      | split
      | dsimp only

theorem execPcieReplayNumRollover_alone_port (p : PortId) (num : Fin 256) {σ τ : State} (hw : σ.wf) (he : execPcieReplayNumRollover p num σ = .next τ) : Alone (.port p) σ τ := by
  refine answer_alone ?_ hw he
  clear he hw
  repeat' first
      | (with_reducible first | exact all_nil_alone | refine all_cons_alone ?_ ?_ | refine look_alone fun _ => ?_ | refine when_alone ?_ | refine ite_alone ?_ ?_ | refine forBelow_alone fun _ => ?_ | exact skip_alone)
      | ((with_reducible refine wr_alone ?_ ?_); (· first | exact hdr_mem rfl (by decide +kernel) | exact own_mem (show _ ∈ tabPORT by decide +kernel)); (· intro e; first | rfl | cases e))
      | ((with_reducible refine bump_alone ?_ ?_ ?_ ..); (· exact ⟨nofun, nofun⟩); (· rfl); (· intro e; first | rfl | cases e))
      | split
      | dsimp only

theorem retire_port (p : Nat) : (retire p).Alone (.port p) := by
  unfold retire
  repeat' first
      | (with_reducible first | exact all_nil_alone | refine all_cons_alone ?_ ?_ | refine look_alone fun _ => ?_ | refine when_alone ?_ | refine ite_alone ?_ ?_ | refine forBelow_alone fun _ => ?_ | exact skip_alone)
      | ((with_reducible refine wr_alone ?_ ?_); (· first | exact own_mem (show _ ∈ tabPORT by decide +kernel)); (· intro e; first | rfl | cases e))
      | with_reducible exact restExit_port ..
      | split
      | dsimp only

theorem linkCtrlWrite_port (st : Stamp) (p v : Nat) : (linkCtrlWrite st p v).Alone (.port p) := by
  unfold linkCtrlWrite
  repeat' first
      | (with_reducible first | exact all_nil_alone | refine all_cons_alone ?_ ?_ | refine look_alone fun _ => ?_ | refine when_alone ?_ | refine ite_alone ?_ ?_ | refine forBelow_alone fun _ => ?_ | exact skip_alone)
      | (with_reducible first | exact put_alone ..)
      | ((with_reducible refine wr_alone ?_ ?_); (· first | exact own_mem (show _ ∈ tabPORT by decide +kernel)); (· intro e; first | rfl | cases e))
      | ((with_reducible refine plainWrite_alone ?_ _ _ _); (· intro e; first | rfl | cases e))
      | ((with_reducible refine alone_of (F := Foot.laneTrain) .port ?_ ?_ ?_); (· rfl); (· with_reducible exact laneTrain_in (Foot.le_refl _) ..); (· decide +kernel))
      | with_reducible exact linkDown_port ..
      | with_reducible exact retire_port ..
      | with_reducible refine forEach_alone fun _ => ?_
      | split
      | dsimp only

theorem execPortRetrain_alone_port (st : Stamp) (p : PortId) (v : Word) {σ τ : State} (hw : σ.wf) (he : execPortRetrain st p v σ = .next τ) : Alone (.port p) σ τ := by
  refine answer_alone ?_ hw he
  clear he hw
  repeat' first
      | (with_reducible first | exact all_nil_alone | refine all_cons_alone ?_ ?_ | refine look_alone fun _ => ?_ | refine when_alone ?_ | refine ite_alone ?_ ?_ | refine forBelow_alone fun _ => ?_ | exact skip_alone)
      | ((with_reducible refine granted_alone ?_ ?_ ?_ _ _ ?_); (· exact ⟨nofun, nofun⟩); (· rfl); (· intro e; first | rfl | cases e); skip)
      | ((with_reducible refine granted_alone' ?_ _ _ ?_); (· rfl); skip)
      | with_reducible exact linkCtrlWrite_port ..
      | split
      | dsimp only

theorem execPortContain_alone_port (st : Stamp) (p : PortId) {σ τ : State} (hw : σ.wf) (he : execPortContain st p σ = .next τ) : Alone (.port p) σ τ := by
  refine answer_alone ?_ hw he
  clear he hw
  repeat' first
      | (with_reducible first | exact all_nil_alone | refine all_cons_alone ?_ ?_ | refine look_alone fun _ => ?_ | refine when_alone ?_ | refine ite_alone ?_ ?_ | refine forBelow_alone fun _ => ?_ | exact skip_alone)
      | ((with_reducible refine granted_alone ?_ ?_ ?_ _ _ ?_); (· exact ⟨nofun, nofun⟩); (· rfl); (· intro e; first | rfl | cases e); skip)
      | ((with_reducible refine granted_alone' ?_ _ _ ?_); (· rfl); skip)
      | ((with_reducible refine alone_of (F := Foot.requestContain) .port ?_ ?_ ?_); (· rfl); (· with_reducible exact requestContain_in (Foot.le_refl _) ..); (· decide +kernel))
      | split
      | dsimp only

theorem execLinkStatusReceived_alone_port (p : PortId) (l : LinkStatus) {σ τ : State} (hw : σ.wf) (he : execLinkStatusReceived p l σ = .next τ) : Alone (.port p) σ τ := by
  refine answer_alone ?_ hw he
  clear he hw
  repeat' first
      | (with_reducible first | exact all_nil_alone | refine all_cons_alone ?_ ?_ | refine look_alone fun _ => ?_ | refine when_alone ?_ | refine ite_alone ?_ ?_ | refine forBelow_alone fun _ => ?_ | exact skip_alone)
      | (with_reducible first | exact put_alone ..)
      | with_reducible exact retire_port ..
      | split
      | dsimp only

theorem execLinkRetire_alone_port (st : Stamp) (p : PortId) (v : Word) {σ τ : State} (hw : σ.wf) (he : execLinkRetire st p v σ = .next τ) : Alone (.port p) σ τ := by
  refine answer_alone ?_ hw he
  clear he hw
  repeat' first
      | (with_reducible first | exact all_nil_alone | refine all_cons_alone ?_ ?_ | refine look_alone fun _ => ?_ | refine when_alone ?_ | refine ite_alone ?_ ?_ | refine forBelow_alone fun _ => ?_ | exact skip_alone)
      | ((with_reducible refine granted_alone ?_ ?_ ?_ _ _ ?_); (· exact ⟨nofun, nofun⟩); (· rfl); (· intro e; first | rfl | cases e); skip)
      | ((with_reducible refine granted_alone' ?_ _ _ ?_); (· rfl); skip)
      | with_reducible exact linkCtrlWrite_port ..
      | split
      | dsimp only

theorem execRetireDrained_alone_port (p : PortId) {σ τ : State} (hw : σ.wf) (he : execRetireDrained p σ = .next τ) : Alone (.port p) σ τ := by
  refine answer_alone ?_ hw he
  clear he hw
  repeat' first
      | (with_reducible first | exact all_nil_alone | refine all_cons_alone ?_ ?_ | refine look_alone fun _ => ?_ | refine when_alone ?_ | refine ite_alone ?_ ?_ | refine forBelow_alone fun _ => ?_ | exact skip_alone)
      | with_reducible exact linkDown_port ..
      | split
      | dsimp only

theorem execRetireTimeout_alone_port (p : PortId) {σ τ : State} (hw : σ.wf) (he : execRetireTimeout p σ = .next τ) : Alone (.port p) σ τ := by
  refine answer_alone ?_ hw he
  clear he hw
  repeat' first
      | (with_reducible first | exact all_nil_alone | refine all_cons_alone ?_ ?_ | refine look_alone fun _ => ?_ | refine when_alone ?_ | refine ite_alone ?_ ?_ | refine forBelow_alone fun _ => ?_ | exact skip_alone)
      | ((with_reducible refine raise_alone ?_ ?_ ?_ ..); (· exact ⟨nofun, nofun⟩); (· rfl); (· intro e; first | rfl | cases e))
      | ((with_reducible refine alone_of (F := Foot.dropQueued) .port ?_ ?_ ?_); (· rfl); (· with_reducible exact dropQueued_in (Foot.le_refl _) ..); (· decide +kernel))
      | with_reducible exact linkDown_port ..
      | ((with_reducible refine alone_of (F := Foot.resendAll) .port ?_ ?_ ?_); (· rfl); (· with_reducible exact resendAll_in (Foot.le_refl _) ..); (· decide +kernel))
      | split
      | dsimp only

theorem changeKey_port (p : Nat) : (changeKey p).Alone (.port p) := by
  unfold changeKey
  repeat' first
      | (with_reducible first | exact all_nil_alone | refine all_cons_alone ?_ ?_ | refine look_alone fun _ => ?_ | refine when_alone ?_ | refine ite_alone ?_ ?_ | refine forBelow_alone fun _ => ?_ | exact skip_alone)
      | (with_reducible first | exact put_alone ..)
      | ((with_reducible refine wr_alone ?_ ?_); (· first | exact own_mem (show _ ∈ tabPORT by decide +kernel)); (· intro e; first | rfl | cases e))
      | split
      | dsimp only

theorem sendSequenced_port (p pool : Nat) (f : Frame) : (sendSequenced p pool f).Alone (.port p) := by
  unfold sendSequenced
  repeat' first
      | (with_reducible first | exact all_nil_alone | refine all_cons_alone ?_ ?_ | refine look_alone fun _ => ?_ | refine when_alone ?_ | refine ite_alone ?_ ?_ | refine forBelow_alone fun _ => ?_ | exact skip_alone)
      | (with_reducible first | exact put_alone .. | exact putReplay_alone ..)
      | ((with_reducible refine addCnt_alone ?_ ?_ ?_ ..); (· exact ⟨nofun, nofun⟩); (· rfl); (· intro e; first | rfl | cases e))
      | ((with_reducible refine bump_alone ?_ ?_ ?_ ..); (· exact ⟨nofun, nofun⟩); (· rfl); (· intro e; first | rfl | cases e))
      | ((with_reducible refine alone_of (F := Foot.linkFrame) .port ?_ ?_ ?_); (· rfl); (· with_reducible exact linkFrame_in (Foot.le_refl _) ..); (· decide +kernel))
      | split
      | dsimp only

theorem aspmEnter_port (p : Nat) : (aspmEnter p).Alone (.port p) := by
  unfold aspmEnter
  repeat' first
      | (with_reducible first | exact all_nil_alone | refine all_cons_alone ?_ ?_ | refine look_alone fun _ => ?_ | refine when_alone ?_ | refine ite_alone ?_ ?_ | refine forBelow_alone fun _ => ?_ | exact skip_alone)
      | ((with_reducible refine wr_alone ?_ ?_); (· first | exact own_mem (show _ ∈ tabPORT by decide +kernel)); (· intro e; first | rfl | cases e))
      | ((with_reducible refine alone_of (F := Foot.linkPm) .port ?_ ?_ ?_); (· rfl); (· with_reducible exact linkPm_in (Foot.le_refl _) ..); (· decide +kernel))
      | split
      | dsimp only

theorem sendPkt_port (p : Nat) (k : Pkt) : (sendPkt p k).Alone (.port p) := by
  unfold sendPkt
  repeat' first
      | (with_reducible first | exact all_nil_alone | refine all_cons_alone ?_ ?_ | refine look_alone fun _ => ?_ | refine when_alone ?_ | refine ite_alone ?_ ?_ | refine forBelow_alone fun _ => ?_ | exact skip_alone)
      | ((with_reducible refine wr_alone ?_ ?_); (· first | exact hdr_mem rfl (by decide +kernel) | exact own_mem (show _ ∈ tabPORT by decide +kernel)); (· intro e; first | rfl | cases e))
      | ((with_reducible refine addCnt_alone ?_ ?_ ?_ ..); (· exact ⟨nofun, nofun⟩); (· rfl); (· intro e; first | rfl | cases e))
      | ((with_reducible refine bump_alone ?_ ?_ ?_ ..); (· exact ⟨nofun, nofun⟩); (· rfl); (· intro e; first | rfl | cases e))
      | ((with_reducible refine alone_of (F := Foot.linkPm) .port ?_ ?_ ?_); (· rfl); (· with_reducible exact linkPm_in (Foot.le_refl _) ..); (· decide +kernel))
      | ((with_reducible refine alone_of (F := Foot.sendDown) .port ?_ ?_ ?_); (· rfl); (· with_reducible exact sendDown_in (Foot.le_refl _) ..); (· decide +kernel))
      | with_reducible exact sendSequenced_port ..
      | ((with_reducible refine alone_of (F := Foot.sendUp) .port ?_ ?_ ?_); (· rfl); (· with_reducible exact sendUp_in (Foot.le_refl _) ..); (· decide +kernel))
      | ((with_reducible refine alone_of (F := Foot.startCopy) .port ?_ ?_ ?_); (· rfl); (· with_reducible exact startCopy_in (Foot.le_refl _) ..); (· decide +kernel))
      | with_reducible refine forSome_alone fun _ => ?_
      | split
      | dsimp only

theorem sendMarker_port (p : Nat) (m : Marker) : (sendMarker p m).Alone (.port p) := by
  unfold sendMarker
  repeat' first
      | (with_reducible first | exact all_nil_alone | refine all_cons_alone ?_ ?_ | refine look_alone fun _ => ?_ | refine when_alone ?_ | refine ite_alone ?_ ?_ | refine forBelow_alone fun _ => ?_ | exact skip_alone)
      | (with_reducible first | exact put_alone ..)
      | ((with_reducible refine addCnt_alone ?_ ?_ ?_ ..); (· exact ⟨nofun, nofun⟩); (· rfl); (· intro e; first | rfl | cases e))
      | ((with_reducible refine bump_alone ?_ ?_ ?_ ..); (· exact ⟨nofun, nofun⟩); (· rfl); (· intro e; first | rfl | cases e))
      | ((with_reducible refine alone_of (F := Foot.linkFrame) .port ?_ ?_ ?_); (· rfl); (· with_reducible exact linkFrame_in (Foot.le_refl _) ..); (· decide +kernel))
      | split
      | dsimp only

theorem execEgressFrameBoundary_alone_port (p : PortId) (fc : BitVec 3) {σ τ : State} (hw : σ.wf) (he : execEgressFrameBoundary p fc σ = .next τ) : Alone (.port p) σ τ := by
  refine answer_alone ?_ hw he
  clear he hw
  repeat' first
      | (with_reducible first | exact all_nil_alone | refine all_cons_alone ?_ ?_ | refine look_alone fun _ => ?_ | refine when_alone ?_ | refine ite_alone ?_ ?_ | refine forBelow_alone fun _ => ?_ | exact skip_alone)
      | (with_reducible first | exact put_alone ..)
      | with_reducible exact aspmEnter_port ..
      | with_reducible exact changeKey_port ..
      | ((with_reducible refine alone_of (F := Foot.chargeTurns) .port ?_ ?_ ?_); (· rfl); (· with_reducible exact chargeTurns_in (Foot.le_refl _) ..); (· decide +kernel))
      | ((with_reducible refine alone_of (F := Foot.countDeferred) .port ?_ ?_ ?_); (· rfl); (· with_reducible exact countDeferred_in (Foot.le_refl _) ..); (· decide +kernel))
      | ((with_reducible refine alone_of (F := Foot.dropMasterOff) .port ?_ ?_ ?_); (· rfl); (· with_reducible exact dropMasterOff_in (Foot.le_refl _) ..); (· decide +kernel))
      | ((with_reducible refine alone_of (F := Foot.finishCopy) .port ?_ ?_ ?_); (· rfl); (· with_reducible exact finishCopy_in (Foot.le_refl _) ..); (· decide +kernel))
      | ((with_reducible refine alone_of (F := Foot.linkFrame) .port ?_ ?_ ?_); (· rfl); (· with_reducible exact linkFrame_in (Foot.le_refl _) ..); (· decide +kernel))
      | with_reducible exact sendMarker_port ..
      | with_reducible exact sendPkt_port ..
      | with_reducible exact sendSequenced_port ..
      | ((with_reducible refine alone_of (F := Foot.settleTurns) .port ?_ ?_ ?_); (· rfl); (· with_reducible exact settleTurns_in (Foot.le_refl _) ..); (· decide +kernel))
      | ((with_reducible refine alone_of (F := Foot.shaperAdvance) .port ?_ ?_ ?_); (· rfl); (· with_reducible exact shaperAdvance_in (Foot.le_refl _) ..); (· decide +kernel))
      | ((with_reducible refine alone_of (F := Foot.startCopy) .port ?_ ?_ ?_); (· rfl); (· with_reducible exact startCopy_in (Foot.le_refl _) ..); (· decide +kernel))
      | with_reducible refine forSome_alone fun _ => ?_
      | split
      | dsimp only

theorem execRestIdleExpiry_alone_port (p : PortId) {σ τ : State} (hw : σ.wf) (he : execRestIdleExpiry p σ = .next τ) : Alone (.port p) σ τ := by
  refine answer_alone ?_ hw he
  clear he hw
  repeat' first
      | (with_reducible first | exact all_nil_alone | refine all_cons_alone ?_ ?_ | refine look_alone fun _ => ?_ | refine when_alone ?_ | refine ite_alone ?_ ?_ | refine forBelow_alone fun _ => ?_ | exact skip_alone)
      | (with_reducible first | exact put_alone .. | exact emit_alone ..)
      | ((with_reducible refine wr_alone ?_ ?_); (· first | exact hdr_mem rfl (by decide +kernel) | exact own_mem (show _ ∈ tabLANE by decide +kernel) | exact own_mem (show _ ∈ tabPORT by decide +kernel)); (· intro e; first | rfl | cases e))
      | ((with_reducible refine wln_alone ?_ ?_ _); (· decide +kernel); (· intro e; first | rfl | cases e))
      | ((with_reducible refine bump_alone ?_ ?_ ?_ ..); (· exact ⟨nofun, nofun⟩); (· rfl); (· intro e; first | rfl | cases e))
      | ((with_reducible refine alone_of (F := Foot.laneCnt) .port ?_ ?_ ?_); (· rfl); (· with_reducible exact laneCnt_in (Foot.le_refl _) ..); (· decide +kernel))
      | ((with_reducible refine alone_of (F := Foot.onEveryLane) .port ?_ ?_ ?_); (· rfl); (· with_reducible exact onEveryLane_in (Foot.le_refl _) ..); (· decide +kernel))
      | with_reducible refine forEach_alone fun _ => ?_
      | split
      | dsimp only

theorem execGateWakeLead_alone_port (p : PortId) {σ τ : State} (hw : σ.wf) (he : execGateWakeLead p σ = .next τ) : Alone (.port p) σ τ := by
  refine answer_alone ?_ hw he
  clear he hw
  repeat' first
      | (with_reducible first | exact all_nil_alone | refine all_cons_alone ?_ ?_ | refine look_alone fun _ => ?_ | refine when_alone ?_ | refine ite_alone ?_ ?_ | refine forBelow_alone fun _ => ?_ | exact skip_alone)
      | with_reducible exact restExit_port ..
      | split
      | dsimp only

theorem markerArrives_port (p : Nat) (lf : LinkFrame) : (markerArrives p lf).Alone (.port p) := by
  unfold markerArrives
  repeat' first
      | (with_reducible first | exact all_nil_alone | refine all_cons_alone ?_ ?_ | refine look_alone fun _ => ?_ | refine when_alone ?_ | refine ite_alone ?_ ?_ | refine forBelow_alone fun _ => ?_ | exact skip_alone)
      | (with_reducible first | exact put_alone ..)
      | ((with_reducible refine addCnt_alone ?_ ?_ ?_ ..); (· exact ⟨nofun, nofun⟩); (· rfl); (· intro e; first | rfl | cases e))
      | ((with_reducible refine bump_alone ?_ ?_ ?_ ..); (· exact ⟨nofun, nofun⟩); (· rfl); (· intro e; first | rfl | cases e))
      | ((with_reducible refine raise_alone ?_ ?_ ?_ ..); (· exact ⟨nofun, nofun⟩); (· rfl); (· intro e; first | rfl | cases e))
      | ((with_reducible refine alone_of (F := Foot.followMarker) .port ?_ ?_ ?_); (· rfl); (· with_reducible exact followMarker_in (Foot.le_refl _) ..); (· decide +kernel))
      | split
      | dsimp only

theorem execCycleMarkerReceived_alone_port (p : PortId) (lf : LinkFrame) {σ τ : State} (hw : σ.wf) (he : execCycleMarkerReceived p lf σ = .next τ) : Alone (.port p) σ τ := by
  refine answer_alone ?_ hw he
  clear he hw
  repeat' first
      | (with_reducible first | exact all_nil_alone | refine all_cons_alone ?_ ?_ | refine look_alone fun _ => ?_ | refine when_alone ?_ | refine ite_alone ?_ ?_ | refine forBelow_alone fun _ => ?_ | exact skip_alone)
      | with_reducible exact markerArrives_port ..
      | split
      | dsimp only

theorem execCycleMarkerSend_alone_port (p : PortId) {σ τ : State} (hw : σ.wf) (he : execCycleMarkerSend p σ = .next τ) : Alone (.port p) σ τ := by
  refine answer_alone ?_ hw he
  clear he hw
  repeat' first
      | (with_reducible first | exact all_nil_alone | refine all_cons_alone ?_ ?_ | refine look_alone fun _ => ?_ | refine when_alone ?_ | refine ite_alone ?_ ?_ | refine forBelow_alone fun _ => ?_ | exact skip_alone)
      | (with_reducible first | exact put_alone ..)
      | with_reducible exact restExit_port ..
      | split
      | dsimp only

theorem acceptFrame_port (p : Nat) (lf : LinkFrame) : (acceptFrame p lf).Alone (.port p) := by
  unfold acceptFrame
  repeat' first
      | (with_reducible first | exact all_nil_alone | refine all_cons_alone ?_ ?_ | refine look_alone fun _ => ?_ | refine when_alone ?_ | refine ite_alone ?_ ?_ | refine forBelow_alone fun _ => ?_ | exact skip_alone)
      | (with_reducible first | exact put_alone .. | exact modIv_alone ..)
      | ((with_reducible refine addCnt_alone ?_ ?_ ?_ ..); (· exact ⟨nofun, nofun⟩); (· rfl); (· intro e; first | rfl | cases e))
      | ((with_reducible refine bump_alone ?_ ?_ ?_ ..); (· exact ⟨nofun, nofun⟩); (· rfl); (· intro e; first | rfl | cases e))
      | with_reducible exact sendAck_port ..
      | split
      | dsimp only

theorem frameCtlBad_port (p : Nat) (lf : LinkFrame) : (frameCtlBad p lf).Alone (.port p) := by
  unfold frameCtlBad
  repeat' first
      | (with_reducible first | exact all_nil_alone | refine all_cons_alone ?_ ?_ | refine look_alone fun _ => ?_ | refine when_alone ?_ | refine ite_alone ?_ ?_ | refine forBelow_alone fun _ => ?_ | exact skip_alone)
      | ((with_reducible refine bump_alone ?_ ?_ ?_ ..); (· exact ⟨nofun, nofun⟩); (· rfl); (· intro e; first | rfl | cases e))
      | ((with_reducible refine raise_alone ?_ ?_ ?_ ..); (· exact ⟨nofun, nofun⟩); (· rfl); (· intro e; first | rfl | cases e))
      | split
      | dsimp only

theorem execDaendFrameReceived_alone_port (p : PortId) (lf : LinkFrame) {σ τ : State} (hw : σ.wf) (he : execDaendFrameReceived p lf σ = .next τ) : Alone (.port p) σ τ := by
  refine answer_alone ?_ hw he
  clear he hw
  repeat' first
      | (with_reducible first | exact all_nil_alone | refine all_cons_alone ?_ ?_ | refine look_alone fun _ => ?_ | refine when_alone ?_ | refine ite_alone ?_ ?_ | refine forBelow_alone fun _ => ?_ | exact skip_alone)
      | ((with_reducible refine bump_alone ?_ ?_ ?_ ..); (· exact ⟨nofun, nofun⟩); (· rfl); (· intro e; first | rfl | cases e))
      | ((with_reducible refine raise_alone ?_ ?_ ?_ ..); (· exact ⟨nofun, nofun⟩); (· rfl); (· intro e; first | rfl | cases e))
      | with_reducible exact acceptFrame_port ..
      | with_reducible exact frameCtlBad_port ..
      | with_reducible exact linkFails_port ..
      | with_reducible exact markerArrives_port ..
      | with_reducible exact sendAck_port ..
      | with_reducible exact sendNak_port ..
      | split
      | dsimp only

theorem execAckCoalesceExpiry_alone_port (p : PortId) {σ τ : State} (hw : σ.wf) (he : execAckCoalesceExpiry p σ = .next τ) : Alone (.port p) σ τ := by
  refine answer_alone ?_ hw he
  clear he hw
  repeat' first
      | (with_reducible first | exact all_nil_alone | refine all_cons_alone ?_ ?_ | refine look_alone fun _ => ?_ | refine when_alone ?_ | refine ite_alone ?_ ?_ | refine forBelow_alone fun _ => ?_ | exact skip_alone)
      | with_reducible exact sendAck_port ..
      | split
      | dsimp only

theorem startReplay_port (p : Nat) : (startReplay p).Alone (.port p) := by
  unfold startReplay
  repeat' first
      | (with_reducible first | exact all_nil_alone | refine all_cons_alone ?_ ?_ | refine look_alone fun _ => ?_ | refine when_alone ?_ | refine ite_alone ?_ ?_ | refine forBelow_alone fun _ => ?_ | exact skip_alone)
      | (with_reducible first | exact put_alone ..)
      | ((with_reducible refine wr_alone ?_ ?_); (· first | exact hdr_mem rfl (by decide +kernel) | exact own_mem (show _ ∈ tabPORT by decide +kernel)); (· intro e; first | rfl | cases e))
      | ((with_reducible refine bump_alone ?_ ?_ ?_ ..); (· exact ⟨nofun, nofun⟩); (· rfl); (· intro e; first | rfl | cases e))
      | with_reducible exact linkFails_port ..
      | split
      | dsimp only

theorem ackUpTo_port (p q : Nat) : (ackUpTo p q).Alone (.port p) := by
  unfold ackUpTo
  repeat' first
      | (with_reducible first | exact all_nil_alone | refine all_cons_alone ?_ ?_ | refine look_alone fun _ => ?_ | refine when_alone ?_ | refine ite_alone ?_ ?_ | refine forBelow_alone fun _ => ?_ | exact skip_alone)
      | (with_reducible first | exact put_alone .. | exact putReplay_alone ..)
      | ((with_reducible refine wr_alone ?_ ?_); (· first | exact own_mem (show _ ∈ tabPORT by decide +kernel)); (· intro e; first | rfl | cases e))
      | ((with_reducible refine alone_of (F := Foot.keyRelease) .port ?_ ?_ ?_); (· rfl); (· with_reducible exact keyRelease_in (Foot.le_refl _) ..); (· decide +kernel))
      | split
      | dsimp only

theorem execAckReceived_alone_port (p : PortId) (blk : BitVec 64) {σ τ : State} (hw : σ.wf) (he : execAckReceived p blk σ = .next τ) : Alone (.port p) σ τ := by
  refine answer_alone ?_ hw he
  clear he hw
  repeat' first
      | (with_reducible first | exact all_nil_alone | refine all_cons_alone ?_ ?_ | refine look_alone fun _ => ?_ | refine when_alone ?_ | refine ite_alone ?_ ?_ | refine forBelow_alone fun _ => ?_ | exact skip_alone)
      | ((with_reducible refine raise_alone ?_ ?_ ?_ ..); (· exact ⟨nofun, nofun⟩); (· rfl); (· intro e; first | rfl | cases e))
      | with_reducible exact ackUpTo_port ..
      | ((with_reducible refine checkedCtl_port _ _ _ _ (?_)))
      | ((with_reducible refine alone_of (F := Foot.pcieAckUpTo) .port ?_ ?_ ?_); (· rfl); (· with_reducible exact pcieAckUpTo_in (Foot.le_refl _) ..); (· decide +kernel))
      | split
      | dsimp only

theorem execNakReceived_alone_port (p : PortId) (blk : BitVec 64) {σ τ : State} (hw : σ.wf) (he : execNakReceived p blk σ = .next τ) : Alone (.port p) σ τ := by
  refine answer_alone ?_ hw he
  clear he hw
  repeat' first
      | (with_reducible first | exact all_nil_alone | refine all_cons_alone ?_ ?_ | refine look_alone fun _ => ?_ | refine when_alone ?_ | refine ite_alone ?_ ?_ | refine forBelow_alone fun _ => ?_ | exact skip_alone)
      | ((with_reducible refine bump_alone ?_ ?_ ?_ ..); (· exact ⟨nofun, nofun⟩); (· rfl); (· intro e; first | rfl | cases e))
      | ((with_reducible refine raise_alone ?_ ?_ ?_ ..); (· exact ⟨nofun, nofun⟩); (· rfl); (· intro e; first | rfl | cases e))
      | with_reducible exact ackUpTo_port ..
      | ((with_reducible refine checkedCtl_port _ _ _ _ (?_)))
      | ((with_reducible refine alone_of (F := Foot.pcieAckUpTo) .port ?_ ?_ ?_); (· rfl); (· with_reducible exact pcieAckUpTo_in (Foot.le_refl _) ..); (· decide +kernel))
      | with_reducible exact startReplay_port ..
      | split
      | dsimp only

theorem execReplayTimeout_alone_port (p : PortId) {σ τ : State} (hw : σ.wf) (he : execReplayTimeout p σ = .next τ) : Alone (.port p) σ τ := by
  refine answer_alone ?_ hw he
  clear he hw
  repeat' first
      | (with_reducible first | exact all_nil_alone | refine all_cons_alone ?_ ?_ | refine look_alone fun _ => ?_ | refine when_alone ?_ | refine ite_alone ?_ ?_ | refine forBelow_alone fun _ => ?_ | exact skip_alone)
      | with_reducible exact startReplay_port ..
      | split
      | dsimp only

theorem quiesceEnds_port (p : Nat) : (quiesceEnds p).Alone (.port p) := by
  unfold quiesceEnds
  repeat' first
      | (with_reducible first | exact all_nil_alone | refine all_cons_alone ?_ ?_ | refine look_alone fun _ => ?_ | refine when_alone ?_ | refine ite_alone ?_ ?_ | refine forBelow_alone fun _ => ?_ | exact skip_alone)
      | (with_reducible first | exact emit_alone ..)
      | ((with_reducible refine wr_alone ?_ ?_); (· first | exact own_mem (show _ ∈ tabPORT by decide +kernel)); (· intro e; first | rfl | cases e))
      | ((with_reducible refine alone_of (F := Foot.closeOff) .port ?_ ?_ ?_); (· rfl); (· with_reducible exact closeOff_in (Foot.le_refl _) ..); (· decide +kernel))
      | with_reducible exact linkDown_port ..
      | with_reducible exact linkTo_port ..
      | ((with_reducible refine alone_of (F := Foot.resendAll) .port ?_ ?_ ?_); (· rfl); (· with_reducible exact resendAll_in (Foot.le_refl _) ..); (· decide +kernel))
      | split
      | dsimp only

theorem execPowerQuiesceDrained_alone_port (p : PortId) {σ τ : State} (hw : σ.wf) (he : execPowerQuiesceDrained p σ = .next τ) : Alone (.port p) σ τ := by
  refine answer_alone ?_ hw he
  clear he hw
  repeat' first
      | (with_reducible first | exact all_nil_alone | refine all_cons_alone ?_ ?_ | refine look_alone fun _ => ?_ | refine when_alone ?_ | refine ite_alone ?_ ?_ | refine forBelow_alone fun _ => ?_ | exact skip_alone)
      | with_reducible exact quiesceEnds_port ..
      | split
      | dsimp only

theorem execQuiesceUsExpiry_alone_port (p : PortId) {σ τ : State} (hw : σ.wf) (he : execQuiesceUsExpiry p σ = .next τ) : Alone (.port p) σ τ := by
  refine answer_alone ?_ hw he
  clear he hw
  repeat' first
      | (with_reducible first | exact all_nil_alone | refine all_cons_alone ?_ ?_ | refine look_alone fun _ => ?_ | refine when_alone ?_ | refine ite_alone ?_ ?_ | refine forBelow_alone fun _ => ?_ | exact skip_alone)
      | with_reducible exact quiesceEnds_port ..
      | split
      | dsimp only

theorem execDpcHoldExpiry_alone_port (p : PortId) {σ τ : State} (hw : σ.wf) (he : execDpcHoldExpiry p σ = .next τ) : Alone (.port p) σ τ := by
  refine answer_alone ?_ hw he
  clear he hw
  repeat' first
      | (with_reducible first | exact all_nil_alone | refine all_cons_alone ?_ ?_ | refine look_alone fun _ => ?_ | refine when_alone ?_ | refine ite_alone ?_ ?_ | refine forBelow_alone fun _ => ?_ | exact skip_alone)
      | ((with_reducible refine wr_alone ?_ ?_); (· first | exact own_mem (show _ ∈ tabPORT by decide +kernel)); (· intro e; first | rfl | cases e))
      | split
      | dsimp only

end Sys2Proof.Machine
end

