-- ==== Sys2Proof/Laws/AlonePwr.lean ====
section
/-! SUPPORT. Commands that touch one page of the kind PWR alone. -/

namespace Sys2Proof.Machine

set_option Elab.async false
set_option linter.unusedTactic false
set_option linter.unreachableTactic false

theorem setFeed_pwr (c : Nat) (b ok : Bool) : (setFeed c b ok).Alone (.pwr c) := by
  unfold setFeed
  repeat' first
      | (with_reducible first | exact all_nil_alone | refine all_cons_alone ?_ ?_ | refine look_alone fun _ => ?_ | refine when_alone ?_ | refine ite_alone ?_ ?_ | refine forBelow_alone fun _ => ?_ | exact skip_alone)
      | ((with_reducible refine wr_alone ?_ ?_); (· first | exact own_mem (show _ ∈ tabPWR by decide +kernel)); (· intro e; first | rfl | cases e))
      | split
      | dsimp only

theorem chanTo_pwr (c st : Nat) : (chanTo c st).Alone (.pwr c) := by
  unfold chanTo
  repeat' first
      | (with_reducible first | exact all_nil_alone | refine all_cons_alone ?_ ?_ | refine look_alone fun _ => ?_ | refine when_alone ?_ | refine ite_alone ?_ ?_ | refine forBelow_alone fun _ => ?_ | exact skip_alone)
      | ((with_reducible refine wr_alone ?_ ?_); (· first | exact own_mem (show _ ∈ tabPWR by decide +kernel)); (· intro e; first | rfl | cases e))
      | split
      | dsimp only

theorem chanStart_pwr (c : Nat) : (chanStart c).Alone (.pwr c) := by
  unfold chanStart
  repeat' first
      | (with_reducible first | exact all_nil_alone | refine all_cons_alone ?_ ?_ | refine look_alone fun _ => ?_ | refine when_alone ?_ | refine ite_alone ?_ ?_ | refine forBelow_alone fun _ => ?_ | exact skip_alone)
      | with_reducible exact chanTo_pwr ..
      | split
      | dsimp only

theorem chanRaise_pwr (c : Nat) (e : Err) : (chanRaise c e).Alone (.pwr c) := by
  unfold chanRaise
  repeat' first
      | (with_reducible first | exact all_nil_alone | refine all_cons_alone ?_ ?_ | refine look_alone fun _ => ?_ | refine when_alone ?_ | refine ite_alone ?_ ?_ | refine forBelow_alone fun _ => ?_ | exact skip_alone)
      | ((with_reducible refine wr_alone ?_ ?_); (· first | exact hdr_mem rfl (by decide +kernel) | exact own_mem (show _ ∈ tabGUARD0 by decide +kernel)); (· intro e; first | rfl | cases e))
      | ((with_reducible refine raise_alone ?_ ?_ ?_ ..); (· exact ⟨nofun, nofun⟩); (· rfl); (· intro e; first | rfl | cases e))
      | ((with_reducible refine noteErrs_alone ?_ ?_ ..); (· rfl); (· intro e; first | rfl | cases e))
      | ((with_reducible refine captureErrs_alone ?_ ?_ ..); (· rfl); (· intro e; first | rfl | cases e))
      | split
      | dsimp only

theorem reloadRetries_pwr (c : Nat) : (reloadRetries c).Alone (.pwr c) := by
  unfold reloadRetries
  repeat' first
      | (with_reducible first | exact all_nil_alone | refine all_cons_alone ?_ ?_ | refine look_alone fun _ => ?_ | refine when_alone ?_ | refine ite_alone ?_ ?_ | refine forBelow_alone fun _ => ?_ | exact skip_alone)
      | ((with_reducible refine wr_alone ?_ ?_); (· first | exact own_mem (show _ ∈ tabPWR by decide +kernel)); (· intro e; first | rfl | cases e))
      | split
      | dsimp only

theorem ramp_pwr (c : Nat) (b : Bool) : (ramp c b).Alone (.pwr c) := by
  unfold ramp
  repeat' first
      | (with_reducible first | exact all_nil_alone | refine all_cons_alone ?_ ?_ | refine look_alone fun _ => ?_ | refine when_alone ?_ | refine ite_alone ?_ ?_ | refine forBelow_alone fun _ => ?_ | exact skip_alone)
      | ((with_reducible refine wr_alone ?_ ?_); (· first | exact hdr_mem rfl (by decide +kernel) | exact own_mem (show _ ∈ tabPWR by decide +kernel)); (· intro e; first | rfl | cases e))
      | ((with_reducible refine bump_alone ?_ ?_ ?_ ..); (· exact ⟨nofun, nofun⟩); (· rfl); (· intro e; first | rfl | cases e))
      | with_reducible exact chanTo_pwr ..
      | split
      | dsimp only

theorem rampBest_pwr (c : Nat) : (rampBest c).Alone (.pwr c) := by
  unfold rampBest
  repeat' first
      | (with_reducible first | exact all_nil_alone | refine all_cons_alone ?_ ?_ | refine look_alone fun _ => ?_ | refine when_alone ?_ | refine ite_alone ?_ ?_ | refine forBelow_alone fun _ => ?_ | exact skip_alone)
      | with_reducible exact ramp_pwr ..
      | split
      | dsimp only

theorem assertWarn_pwr (c : Nat) : (assertWarn c).Alone (.pwr c) := by
  unfold assertWarn
  repeat' first
      | (with_reducible first | exact all_nil_alone | refine all_cons_alone ?_ ?_ | refine look_alone fun _ => ?_ | refine when_alone ?_ | refine ite_alone ?_ ?_ | refine forBelow_alone fun _ => ?_ | exact skip_alone)
      | (with_reducible first | exact modGreqs_alone ..)
      | ((with_reducible refine wr_alone ?_ ?_); (· first | exact own_mem (show _ ∈ tabPWR by decide +kernel)); (· intro e; first | rfl | cases e))
      | split
      | dsimp only

theorem toRetry_pwr (c : Nat) : (toRetry c).Alone (.pwr c) := by
  unfold toRetry
  repeat' first
      | (with_reducible first | exact all_nil_alone | refine all_cons_alone ?_ ?_ | refine look_alone fun _ => ?_ | refine when_alone ?_ | refine ite_alone ?_ ?_ | refine forBelow_alone fun _ => ?_ | exact skip_alone)
      | ((with_reducible refine wr_alone ?_ ?_); (· first | exact own_mem (show _ ∈ tabPWR by decide +kernel)); (· intro e; first | rfl | cases e))
      | with_reducible exact chanRaise_pwr ..
      | with_reducible exact chanTo_pwr ..
      | split
      | dsimp only

theorem chanSoftReset_pwr (c : Nat) : (chanSoftReset c).Alone (.pwr c) := by
  unfold chanSoftReset
  repeat' first
      | (with_reducible first | exact all_nil_alone | refine all_cons_alone ?_ ?_ | refine look_alone fun _ => ?_ | refine when_alone ?_ | refine ite_alone ?_ ?_ | refine forBelow_alone fun _ => ?_ | exact skip_alone)
      | (with_reducible first | exact put_alone ..)
      | ((with_reducible refine wr_alone ?_ ?_); (· first | exact hdr_mem rfl (by decide +kernel) | exact own_mem (show _ ∈ tabPWR by decide +kernel)); (· intro e; first | rfl | cases e))
      | ((with_reducible refine resetPage_alone ?_ _); (· intro e; first | rfl | cases e))
      | with_reducible exact chanStart_pwr ..
      | ((with_reducible refine alone_of (F := Foot.resetPage) .pwr ?_ ?_ ?_); (· rfl); (· with_reducible exact resetPage_in (Foot.le_refl _) ..); (· decide +kernel))
      | split
      | dsimp only

theorem cut_pwr (c cause : Nat) : (cut c cause).Alone (.pwr c) := by
  unfold cut
  repeat' first
      | (with_reducible first | exact all_nil_alone | refine all_cons_alone ?_ ?_ | refine look_alone fun _ => ?_ | refine when_alone ?_ | refine ite_alone ?_ ?_ | refine forBelow_alone fun _ => ?_ | exact skip_alone)
      | (with_reducible first | exact put_alone ..)
      | ((with_reducible refine wr_alone ?_ ?_); (· first | exact hdr_mem rfl (by decide +kernel) | exact own_mem (show _ ∈ tabPWR by decide +kernel)); (· intro e; first | rfl | cases e))
      | ((with_reducible refine bump_alone ?_ ?_ ?_ ..); (· exact ⟨nofun, nofun⟩); (· rfl); (· intro e; first | rfl | cases e))
      | with_reducible exact chanRaise_pwr ..
      | with_reducible exact chanSoftReset_pwr ..
      | with_reducible exact chanStart_pwr ..
      | with_reducible exact chanTo_pwr ..
      | with_reducible exact toRetry_pwr ..
      | split
      | dsimp only

theorem warnCut_pwr (c cause : Nat) (first : Upd) (h_first : first.Alone (.pwr c)) : (warnCut c cause first).Alone (.pwr c) := by
  unfold warnCut
  repeat' first
      | (with_reducible first | exact all_nil_alone | refine all_cons_alone ?_ ?_ | refine look_alone fun _ => ?_ | refine when_alone ?_ | refine ite_alone ?_ ?_ | refine forBelow_alone fun _ => ?_ | exact skip_alone)
      | with_reducible exact h_first
      | (with_reducible first | exact put_alone ..)
      | with_reducible exact assertWarn_pwr ..
      | with_reducible exact chanTo_pwr ..
      | split
      | dsimp only

theorem unwarnedCut_pwr (c cause : Nat) (first : Upd) (h_first : first.Alone (.pwr c)) : (unwarnedCut c cause first).Alone (.pwr c) := by
  unfold unwarnedCut
  repeat' first
      | (with_reducible first | exact all_nil_alone | refine all_cons_alone ?_ ?_ | refine look_alone fun _ => ?_ | refine when_alone ?_ | refine ite_alone ?_ ?_ | refine forBelow_alone fun _ => ?_ | exact skip_alone)
      | with_reducible exact h_first
      | with_reducible exact assertWarn_pwr ..
      | with_reducible exact cut_pwr ..
      | split
      | dsimp only

theorem execFastTrip_alone_pwr (c : ChanId) {σ τ : State} (hw : σ.wf) (he : execFastTrip c σ = .next τ) : Alone (.pwr c) σ τ := by
  refine always_alone ?_ hw he
  clear he hw
  repeat' first
      | (with_reducible first | exact all_nil_alone | refine all_cons_alone ?_ ?_ | refine look_alone fun _ => ?_ | refine when_alone ?_ | refine ite_alone ?_ ?_ | refine forBelow_alone fun _ => ?_ | exact skip_alone)
      | ((with_reducible refine bump_alone ?_ ?_ ?_ ..); (· exact ⟨nofun, nofun⟩); (· rfl); (· intro e; first | rfl | cases e))
      | with_reducible exact chanRaise_pwr ..
      | ((with_reducible refine unwarnedCut_pwr _ _ _ (?_)))
      | split
      | dsimp only

theorem execOvCut_alone_pwr (c : ChanId) {σ τ : State} (hw : σ.wf) (he : execOvCut c σ = .next τ) : Alone (.pwr c) σ τ := by
  refine always_alone ?_ hw he
  clear he hw
  repeat' first
      | (with_reducible first | exact all_nil_alone | refine all_cons_alone ?_ ?_ | refine look_alone fun _ => ?_ | refine when_alone ?_ | refine ite_alone ?_ ?_ | refine forBelow_alone fun _ => ?_ | exact skip_alone)
      | with_reducible exact chanRaise_pwr ..
      | with_reducible exact setFeed_pwr ..
      | ((with_reducible refine unwarnedCut_pwr _ _ _ (?_)))
      | split
      | dsimp only

theorem faultExpires_pwr (c : Nat) : (faultExpires c).Alone (.pwr c) := by
  unfold faultExpires
  repeat' first
      | (with_reducible first | exact all_nil_alone | refine all_cons_alone ?_ ?_ | refine look_alone fun _ => ?_ | refine when_alone ?_ | refine ite_alone ?_ ?_ | refine forBelow_alone fun _ => ?_ | exact skip_alone)
      | (with_reducible first | exact put_alone ..)
      | ((with_reducible refine wr_alone ?_ ?_); (· first | exact hdr_mem rfl (by decide +kernel) | exact own_mem (show _ ∈ tabPWR by decide +kernel)); (· intro e; first | rfl | cases e))
      | ((with_reducible refine bump_alone ?_ ?_ ?_ ..); (· exact ⟨nofun, nofun⟩); (· rfl); (· intro e; first | rfl | cases e))
      | with_reducible exact chanRaise_pwr ..
      | ((with_reducible refine warnCut_pwr _ _ _ (?_)))
      | split
      | dsimp only

theorem execFaultTimerExpiry_alone_pwr (c : ChanId) {σ τ : State} (hw : σ.wf) (he : execFaultTimerExpiry c σ = .next τ) : Alone (.pwr c) σ τ := by
  refine always_alone ?_ hw he
  clear he hw
  repeat' first
      | (with_reducible first | exact all_nil_alone | refine all_cons_alone ?_ ?_ | refine look_alone fun _ => ?_ | refine when_alone ?_ | refine ite_alone ?_ ?_ | refine forBelow_alone fun _ => ?_ | exact skip_alone)
      | with_reducible exact faultExpires_pwr ..
      | split
      | dsimp only

theorem execRampTimeout_alone_pwr (c : ChanId) {σ τ : State} (hw : σ.wf) (he : execRampTimeout c σ = .next τ) : Alone (.pwr c) σ τ := by
  refine always_alone ?_ hw he
  clear he hw
  repeat' first
      | (with_reducible first | exact all_nil_alone | refine all_cons_alone ?_ ?_ | refine look_alone fun _ => ?_ | refine when_alone ?_ | refine ite_alone ?_ ?_ | refine forBelow_alone fun _ => ?_ | exact skip_alone)
      | with_reducible exact faultExpires_pwr ..
      | split
      | dsimp only

theorem execFetOvertemp_alone_pwr (c : ChanId) {σ τ : State} (hw : σ.wf) (he : execFetOvertemp c σ = .next τ) : Alone (.pwr c) σ τ := by
  refine always_alone ?_ hw he
  clear he hw
  repeat' first
      | (with_reducible first | exact all_nil_alone | refine all_cons_alone ?_ ?_ | refine look_alone fun _ => ?_ | refine when_alone ?_ | refine ite_alone ?_ ?_ | refine forBelow_alone fun _ => ?_ | exact skip_alone)
      | with_reducible exact chanRaise_pwr ..
      | ((with_reducible refine warnCut_pwr _ _ _ (?_)))
      | split
      | dsimp only

theorem execSeatingLoss_alone_pwr (c : ChanId) {σ τ : State} (hw : σ.wf) (he : execSeatingLoss c σ = .next τ) : Alone (.pwr c) σ τ := by
  refine always_alone ?_ hw he
  clear he hw
  repeat' first
      | (with_reducible first | exact all_nil_alone | refine all_cons_alone ?_ ?_ | refine look_alone fun _ => ?_ | refine when_alone ?_ | refine ite_alone ?_ ?_ | refine forBelow_alone fun _ => ?_ | exact skip_alone)
      | ((with_reducible refine wr_alone ?_ ?_); (· first | exact own_mem (show _ ∈ tabPWR by decide +kernel)); (· intro e; first | rfl | cases e))
      | with_reducible exact chanRaise_pwr ..
      | with_reducible exact chanTo_pwr ..
      | ((with_reducible refine warnCut_pwr _ _ _ (?_)))
      | split
      | dsimp only

theorem execFeedLoss_alone_pwr (c : ChanId) {σ τ : State} (hw : σ.wf) (he : execFeedLoss c σ = .next τ) : Alone (.pwr c) σ τ := by
  refine always_alone ?_ hw he
  clear he hw
  repeat' first
      | (with_reducible first | exact all_nil_alone | refine all_cons_alone ?_ ?_ | refine look_alone fun _ => ?_ | refine when_alone ?_ | refine ite_alone ?_ ?_ | refine forBelow_alone fun _ => ?_ | exact skip_alone)
      | with_reducible exact chanRaise_pwr ..
      | with_reducible exact setFeed_pwr ..
      | ((with_reducible refine warnCut_pwr _ _ _ (?_)))
      | split
      | dsimp only

theorem chanOff_pwr (c : Nat) : (chanOff c).Alone (.pwr c) := by
  unfold chanOff
  repeat' first
      | (with_reducible first | exact all_nil_alone | refine all_cons_alone ?_ ?_ | refine look_alone fun _ => ?_ | refine when_alone ?_ | refine ite_alone ?_ ?_ | refine forBelow_alone fun _ => ?_ | exact skip_alone)
      | with_reducible exact chanTo_pwr ..
      | ((with_reducible refine warnCut_pwr _ _ _ (?_)))
      | split
      | dsimp only

theorem switchTo_pwr (c : Nat) (b : Bool) : (switchTo c b).Alone (.pwr c) := by
  unfold switchTo
  repeat' first
      | (with_reducible first | exact all_nil_alone | refine all_cons_alone ?_ ?_ | refine look_alone fun _ => ?_ | refine when_alone ?_ | refine ite_alone ?_ ?_ | refine forBelow_alone fun _ => ?_ | exact skip_alone)
      | (with_reducible first | exact put_alone ..)
      | with_reducible exact assertWarn_pwr ..
      | ((with_reducible refine alone_of (F := Foot.breakTo) .pwr ?_ ?_ ?_); (· rfl); (· with_reducible exact breakTo_in (Foot.le_refl _) ..); (· decide +kernel))
      | with_reducible exact chanTo_pwr ..
      | split
      | dsimp only

theorem execWarnLeadExpiry_alone_pwr (c : ChanId) {σ τ : State} (hw : σ.wf) (he : execWarnLeadExpiry c σ = .next τ) : Alone (.pwr c) σ τ := by
  refine always_alone ?_ hw he
  clear he hw
  repeat' first
      | (with_reducible first | exact all_nil_alone | refine all_cons_alone ?_ ?_ | refine look_alone fun _ => ?_ | refine when_alone ?_ | refine ite_alone ?_ ?_ | refine forBelow_alone fun _ => ?_ | exact skip_alone)
      | (with_reducible first | exact put_alone ..)
      | ((with_reducible refine wr_alone ?_ ?_); (· first | exact own_mem (show _ ∈ tabPWR by decide +kernel)); (· intro e; first | rfl | cases e))
      | with_reducible exact chanTo_pwr ..
      | with_reducible exact cut_pwr ..
      | split
      | dsimp only

theorem execForcedSwitchover_alone_pwr (c : ChanId) {σ τ : State} (hw : σ.wf) (he : execForcedSwitchover c σ = .next τ) : Alone (.pwr c) σ τ := by
  refine always_alone ?_ hw he
  clear he hw
  repeat' first
      | (with_reducible first | exact all_nil_alone | refine all_cons_alone ?_ ?_ | refine look_alone fun _ => ?_ | refine when_alone ?_ | refine ite_alone ?_ ?_ | refine forBelow_alone fun _ => ?_ | exact skip_alone)
      | ((with_reducible refine wr_alone ?_ ?_); (· first | exact own_mem (show _ ∈ tabPWR by decide +kernel)); (· intro e; first | rfl | cases e))
      | with_reducible exact assertWarn_pwr ..
      | ((with_reducible refine alone_of (F := Foot.breakTo) .pwr ?_ ?_ ?_); (· rfl); (· with_reducible exact breakTo_in (Foot.le_refl _) ..); (· decide +kernel))
      | with_reducible exact chanTo_pwr ..
      | with_reducible exact setFeed_pwr ..
      | split
      | dsimp only

theorem execRevertSwitchover_alone_pwr (c : ChanId) {σ τ : State} (hw : σ.wf) (he : execRevertSwitchover c σ = .next τ) : Alone (.pwr c) σ τ := by
  refine always_alone ?_ hw he
  clear he hw
  repeat' first
      | (with_reducible first | exact all_nil_alone | refine all_cons_alone ?_ ?_ | refine look_alone fun _ => ?_ | refine when_alone ?_ | refine ite_alone ?_ ?_ | refine forBelow_alone fun _ => ?_ | exact skip_alone)
      | with_reducible exact setFeed_pwr ..
      | with_reducible exact switchTo_pwr ..
      | split
      | dsimp only

theorem execDeadTimeExpiry_alone_pwr (c : ChanId) {σ τ : State} (hw : σ.wf) (he : execDeadTimeExpiry c σ = .next τ) : Alone (.pwr c) σ τ := by
  refine always_alone ?_ hw he
  clear he hw
  repeat' first
      | (with_reducible first | exact all_nil_alone | refine all_cons_alone ?_ ?_ | refine look_alone fun _ => ?_ | refine when_alone ?_ | refine ite_alone ?_ ?_ | refine forBelow_alone fun _ => ?_ | exact skip_alone)
      | (with_reducible first | exact put_alone ..)
      | ((with_reducible refine wr_alone ?_ ?_); (· first | exact hdr_mem rfl (by decide +kernel) | exact own_mem (show _ ∈ tabPWR by decide +kernel)); (· intro e; first | rfl | cases e))
      | ((with_reducible refine bump_alone ?_ ?_ ?_ ..); (· exact ⟨nofun, nofun⟩); (· rfl); (· intro e; first | rfl | cases e))
      | split
      | dsimp only

theorem execSeatingDebounced_alone_pwr (c : ChanId) {σ τ : State} (hw : σ.wf) (he : execSeatingDebounced c σ = .next τ) : Alone (.pwr c) σ τ := by
  refine always_alone ?_ hw he
  clear he hw
  repeat' first
      | (with_reducible first | exact all_nil_alone | refine all_cons_alone ?_ ?_ | refine look_alone fun _ => ?_ | refine when_alone ?_ | refine ite_alone ?_ ?_ | refine forBelow_alone fun _ => ?_ | exact skip_alone)
      | ((with_reducible refine wr_alone ?_ ?_); (· first | exact own_mem (show _ ∈ tabPWR by decide +kernel)); (· intro e; first | rfl | cases e))
      | with_reducible exact chanTo_pwr ..
      | split
      | dsimp only

theorem execInsertionDelayExpiry_alone_pwr (c : ChanId) (b : Bool) {σ τ : State} (hw : σ.wf) (he : execInsertionDelayExpiry c b σ = .next τ) : Alone (.pwr c) σ τ := by
  refine always_alone ?_ hw he
  clear he hw
  repeat' first
      | (with_reducible first | exact all_nil_alone | refine all_cons_alone ?_ ?_ | refine look_alone fun _ => ?_ | refine when_alone ?_ | refine ite_alone ?_ ?_ | refine forBelow_alone fun _ => ?_ | exact skip_alone)
      | with_reducible exact rampBest_pwr ..
      | with_reducible exact setFeed_pwr ..
      | split
      | dsimp only

theorem execRampComplete_alone_pwr (c : ChanId) {σ τ : State} (hw : σ.wf) (he : execRampComplete c σ = .next τ) : Alone (.pwr c) σ τ := by
  refine always_alone ?_ hw he
  clear he hw
  repeat' first
      | (with_reducible first | exact all_nil_alone | refine all_cons_alone ?_ ?_ | refine look_alone fun _ => ?_ | refine when_alone ?_ | refine ite_alone ?_ ?_ | refine forBelow_alone fun _ => ?_ | exact skip_alone)
      | with_reducible exact chanTo_pwr ..
      | split
      | dsimp only

theorem execRetryPeriodExpiry_alone_pwr (c : ChanId) {σ τ : State} (hw : σ.wf) (he : execRetryPeriodExpiry c σ = .next τ) : Alone (.pwr c) σ τ := by
  refine always_alone ?_ hw he
  clear he hw
  repeat' first
      | (with_reducible first | exact all_nil_alone | refine all_cons_alone ?_ ?_ | refine look_alone fun _ => ?_ | refine when_alone ?_ | refine ite_alone ?_ ?_ | refine forBelow_alone fun _ => ?_ | exact skip_alone)
      | with_reducible exact rampBest_pwr ..
      | split
      | dsimp only

theorem execReverseBlock_alone_pwr (c : ChanId) {σ τ : State} (hw : σ.wf) (he : execReverseBlock c σ = .next τ) : Alone (.pwr c) σ τ := by
  refine always_alone ?_ hw he
  clear he hw
  repeat' first
      | (with_reducible first | exact all_nil_alone | refine all_cons_alone ?_ ?_ | refine look_alone fun _ => ?_ | refine when_alone ?_ | refine ite_alone ?_ ?_ | refine forBelow_alone fun _ => ?_ | exact skip_alone)
      | ((with_reducible refine wr_alone ?_ ?_); (· first | exact hdr_mem rfl (by decide +kernel) | exact own_mem (show _ ∈ tabPWR by decide +kernel)); (· intro e; first | rfl | cases e))
      | ((with_reducible refine bump_alone ?_ ?_ ?_ ..); (· exact ⟨nofun, nofun⟩); (· rfl); (· intro e; first | rfl | cases e))
      | with_reducible exact chanRaise_pwr ..
      | split
      | dsimp only

theorem execReverseRelease_alone_pwr (c : ChanId) {σ τ : State} (hw : σ.wf) (he : execReverseRelease c σ = .next τ) : Alone (.pwr c) σ τ := by
  refine always_alone ?_ hw he
  clear he hw
  repeat' first
      | (with_reducible first | exact all_nil_alone | refine all_cons_alone ?_ ?_ | refine look_alone fun _ => ?_ | refine when_alone ?_ | refine ite_alone ?_ ?_ | refine forBelow_alone fun _ => ?_ | exact skip_alone)
      | ((with_reducible refine wr_alone ?_ ?_); (· first | exact own_mem (show _ ∈ tabPWR by decide +kernel)); (· intro e; first | rfl | cases e))
      | split
      | dsimp only

theorem execPowerGood_alone_pwr (c : ChanId) {σ τ : State} (hw : σ.wf) (he : execPowerGood c σ = .next τ) : Alone (.pwr c) σ τ := by
  refine always_alone ?_ hw he
  clear he hw
  repeat' first
      | (with_reducible first | exact all_nil_alone | refine all_cons_alone ?_ ?_ | refine look_alone fun _ => ?_ | refine when_alone ?_ | refine ite_alone ?_ ?_ | refine forBelow_alone fun _ => ?_ | exact skip_alone)
      | ((with_reducible refine wr_alone ?_ ?_); (· first | exact own_mem (show _ ∈ tabPWR by decide +kernel)); (· intro e; first | rfl | cases e))
      | ((with_reducible refine alone_of (F := Foot.powerBack) .pwr ?_ ?_ ?_); (· rfl); (· with_reducible exact powerBack_in (Foot.le_refl _) ..); (· decide +kernel))
      | split
      | dsimp only

theorem execRetryReloadTimer_alone_pwr (c : ChanId) {σ τ : State} (hw : σ.wf) (he : execRetryReloadTimer c σ = .next τ) : Alone (.pwr c) σ τ := by
  refine always_alone ?_ hw he
  clear he hw
  repeat' first
      | (with_reducible first | exact all_nil_alone | refine all_cons_alone ?_ ?_ | refine look_alone fun _ => ?_ | refine when_alone ?_ | refine ite_alone ?_ ?_ | refine forBelow_alone fun _ => ?_ | exact skip_alone)
      | with_reducible exact reloadRetries_pwr ..
      | split
      | dsimp only

theorem execOutputBelowPgThreshold_alone_pwr (c : ChanId) {σ τ : State} (hw : σ.wf) (he : execOutputBelowPgThreshold c σ = .next τ) : Alone (.pwr c) σ τ := by
  refine always_alone ?_ hw he
  clear he hw
  repeat' first
      | (with_reducible first | exact all_nil_alone | refine all_cons_alone ?_ ?_ | refine look_alone fun _ => ?_ | refine when_alone ?_ | refine ite_alone ?_ ?_ | refine forBelow_alone fun _ => ?_ | exact skip_alone)
      | ((with_reducible refine wr_alone ?_ ?_); (· first | exact own_mem (show _ ∈ tabPWR by decide +kernel)); (· intro e; first | rfl | cases e))
      | split
      | dsimp only

theorem pwrCfgWrite_pwr (st : Stamp) (c v : Nat) : (pwrCfgWrite st c v).Alone (.pwr c) := by
  unfold pwrCfgWrite
  repeat' first
      | (with_reducible first | exact all_nil_alone | refine all_cons_alone ?_ ?_ | refine look_alone fun _ => ?_ | refine when_alone ?_ | refine ite_alone ?_ ?_ | refine forBelow_alone fun _ => ?_ | exact skip_alone)
      | ((with_reducible refine plainWrite_alone ?_ _ _ _); (· intro e; first | rfl | cases e))
      | with_reducible exact chanOff_pwr ..
      | with_reducible exact chanRaise_pwr ..
      | with_reducible exact chanStart_pwr ..
      | with_reducible exact reloadRetries_pwr ..
      | split
      | dsimp only

theorem execChannelEnable_alone_pwr (st : Stamp) (c : ChanId) (v : Word) {σ τ : State} (hw : σ.wf) (he : execChannelEnable st c v σ = .next τ) : Alone (.pwr c) σ τ := by
  refine answer_alone ?_ hw he
  clear he hw
  repeat' first
      | (with_reducible first | exact all_nil_alone | refine all_cons_alone ?_ ?_ | refine look_alone fun _ => ?_ | refine when_alone ?_ | refine ite_alone ?_ ?_ | refine forBelow_alone fun _ => ?_ | exact skip_alone)
      | ((with_reducible refine granted_alone ?_ ?_ ?_ _ _ ?_); (· exact ⟨nofun, nofun⟩); (· rfl); (· intro e; first | rfl | cases e); skip)
      | ((with_reducible refine granted_alone' ?_ _ _ ?_); (· rfl); skip)
      | with_reducible exact pwrCfgWrite_pwr ..
      | split
      | dsimp only

theorem execChannelDisable_alone_pwr (st : Stamp) (c : ChanId) (v : Word) {σ τ : State} (hw : σ.wf) (he : execChannelDisable st c v σ = .next τ) : Alone (.pwr c) σ τ := by
  refine answer_alone ?_ hw he
  clear he hw
  repeat' first
      | (with_reducible first | exact all_nil_alone | refine all_cons_alone ?_ ?_ | refine look_alone fun _ => ?_ | refine when_alone ?_ | refine ite_alone ?_ ?_ | refine forBelow_alone fun _ => ?_ | exact skip_alone)
      | ((with_reducible refine granted_alone ?_ ?_ ?_ _ _ ?_); (· exact ⟨nofun, nofun⟩); (· rfl); (· intro e; first | rfl | cases e); skip)
      | ((with_reducible refine granted_alone' ?_ _ _ ?_); (· rfl); skip)
      | with_reducible exact pwrCfgWrite_pwr ..
      | split
      | dsimp only

theorem execChannelClear_alone_pwr (st : Stamp) (c : ChanId) (v : Word) {σ τ : State} (hw : σ.wf) (he : execChannelClear st c v σ = .next τ) : Alone (.pwr c) σ τ := by
  refine answer_alone ?_ hw he
  clear he hw
  repeat' first
      | (with_reducible first | exact all_nil_alone | refine all_cons_alone ?_ ?_ | refine look_alone fun _ => ?_ | refine when_alone ?_ | refine ite_alone ?_ ?_ | refine forBelow_alone fun _ => ?_ | exact skip_alone)
      | ((with_reducible refine granted_alone ?_ ?_ ?_ _ _ ?_); (· exact ⟨nofun, nofun⟩); (· rfl); (· intro e; first | rfl | cases e); skip)
      | ((with_reducible refine granted_alone' ?_ _ _ ?_); (· rfl); skip)
      | with_reducible exact pwrCfgWrite_pwr ..
      | split
      | dsimp only

theorem feedSelWrite_pwr (st : Stamp) (c v : Nat) : (feedSelWrite st c v).Alone (.pwr c) := by
  unfold feedSelWrite
  repeat' first
      | (with_reducible first | exact all_nil_alone | refine all_cons_alone ?_ ?_ | refine look_alone fun _ => ?_ | refine when_alone ?_ | refine ite_alone ?_ ?_ | refine forBelow_alone fun _ => ?_ | exact skip_alone)
      | ((with_reducible refine plainWrite_alone ?_ _ _ _); (· intro e; first | rfl | cases e))
      | with_reducible exact chanRaise_pwr ..
      | with_reducible exact setFeed_pwr ..
      | with_reducible exact switchTo_pwr ..
      | split
      | dsimp only

theorem execSoftwareSwitchover_alone_pwr (st : Stamp) (c : ChanId) (v : Word) {σ τ : State} (hw : σ.wf) (he : execSoftwareSwitchover st c v σ = .next τ) : Alone (.pwr c) σ τ := by
  refine answer_alone ?_ hw he
  clear he hw
  repeat' first
      | (with_reducible first | exact all_nil_alone | refine all_cons_alone ?_ ?_ | refine look_alone fun _ => ?_ | refine when_alone ?_ | refine ite_alone ?_ ?_ | refine forBelow_alone fun _ => ?_ | exact skip_alone)
      | ((with_reducible refine granted_alone ?_ ?_ ?_ _ _ ?_); (· exact ⟨nofun, nofun⟩); (· rfl); (· intro e; first | rfl | cases e); skip)
      | ((with_reducible refine granted_alone' ?_ _ _ ?_); (· rfl); skip)
      | with_reducible exact feedSelWrite_pwr ..
      | split
      | dsimp only

theorem execTelemetrySample_alone_pwr (c : ChanId) (vout iout vfa vfb : BitVec 16) (tfet : BitVec 8) (limit : Bool) {σ τ : State} (hw : σ.wf) (he : execTelemetrySample c vout iout vfa vfb tfet limit σ = .next τ) : Alone (.pwr c) σ τ := by
  refine always_alone ?_ hw he
  clear he hw
  repeat' first
      | (with_reducible first | exact all_nil_alone | refine all_cons_alone ?_ ?_ | refine look_alone fun _ => ?_ | refine when_alone ?_ | refine ite_alone ?_ ?_ | refine forBelow_alone fun _ => ?_ | exact skip_alone)
      | (with_reducible first | exact put_alone ..)
      | ((with_reducible refine wr_alone ?_ ?_); (· first | exact hdr_mem rfl (by decide +kernel) | exact own_mem (show _ ∈ tabPWR by decide +kernel)); (· intro e; first | rfl | cases e))
      | ((with_reducible refine addCnt_alone ?_ ?_ ?_ ..); (· exact ⟨nofun, nofun⟩); (· rfl); (· intro e; first | rfl | cases e))
      | with_reducible exact setFeed_pwr ..
      | split
      | dsimp only

end Sys2Proof.Machine
end

