-- ==== Sys2Proof/Laws/AloneRing.lean ====
section
/-! SUPPORT. Commands that touch one page of the kind RING alone. -/

namespace Sys2Proof.Machine

set_option Elab.async false
set_option linter.unusedTactic false
set_option linter.unreachableTactic false

theorem ringTailWrite_ring (st : Stamp) (n v : Nat) : (ringTailWrite st n v).Alone (.ring n) := by
  unfold ringTailWrite
  repeat' first
      | (with_reducible first | exact all_nil_alone | refine all_cons_alone ?_ ?_ | refine look_alone fun _ => ?_ | refine when_alone ?_ | refine ite_alone ?_ ?_ | refine forBelow_alone fun _ => ?_ | exact skip_alone)
      | ((with_reducible refine plainWrite_alone ?_ _ _ _); (· intro e; first | rfl | cases e))
      | split
      | dsimp only

theorem execRingTailWrite_alone_ring (st : Stamp) (n : RingId) (v : Word) {σ τ : State} (hw : σ.wf) (he : execRingTailWrite st n v σ = .next τ) : Alone (.ring n) σ τ := by
  refine answer_alone ?_ hw he
  clear he hw
  repeat' first
      | (with_reducible first | exact all_nil_alone | refine all_cons_alone ?_ ?_ | refine look_alone fun _ => ?_ | refine when_alone ?_ | refine ite_alone ?_ ?_ | refine forBelow_alone fun _ => ?_ | exact skip_alone)
      | ((with_reducible refine granted_alone ?_ ?_ ?_ _ _ ?_); (· exact ⟨nofun, nofun⟩); (· rfl); (· intro e; first | rfl | cases e); skip)
      | ((with_reducible refine granted_alone' ?_ _ _ ?_); (· rfl); skip)
      | with_reducible exact ringTailWrite_ring ..
      | split
      | dsimp only

theorem ringResume_ring (n : Nat) : (ringResume n).Alone (.ring n) := by
  unfold ringResume
  repeat' first
      | (with_reducible first | exact all_nil_alone | refine all_cons_alone ?_ ?_ | refine look_alone fun _ => ?_ | refine when_alone ?_ | refine ite_alone ?_ ?_ | refine forBelow_alone fun _ => ?_ | exact skip_alone)
      | ((with_reducible refine wr_alone ?_ ?_); (· first | exact own_mem (show _ ∈ tabRING by decide +kernel)); (· intro e; first | rfl | cases e))
      | ((with_reducible refine alone_of (F := Foot.refetch) .ring ?_ ?_ ?_); (· rfl); (· with_reducible exact refetch_in (Foot.le_refl _) ..); (· decide +kernel))
      | split
      | dsimp only

theorem execRingResume_alone_ring (st : Stamp) (n : RingId) {σ τ : State} (hw : σ.wf) (he : execRingResume st n σ = .next τ) : Alone (.ring n) σ τ := by
  refine answer_alone ?_ hw he
  clear he hw
  repeat' first
      | (with_reducible first | exact all_nil_alone | refine all_cons_alone ?_ ?_ | refine look_alone fun _ => ?_ | refine when_alone ?_ | refine ite_alone ?_ ?_ | refine forBelow_alone fun _ => ?_ | exact skip_alone)
      | ((with_reducible refine granted_alone ?_ ?_ ?_ _ _ ?_); (· exact ⟨nofun, nofun⟩); (· rfl); (· intro e; first | rfl | cases e); skip)
      | ((with_reducible refine granted_alone' ?_ _ _ ?_); (· rfl); skip)
      | with_reducible exact ringResume_ring ..
      | split
      | dsimp only

theorem execRehomeDone_alone_ring (n : RingId) {σ τ : State} (hw : σ.wf) (he : execRehomeDone n σ = .next τ) : Alone (.ring n) σ τ := by
  refine answer_alone ?_ hw he
  clear he hw
  repeat' first
      | (with_reducible first | exact all_nil_alone | refine all_cons_alone ?_ ?_ | refine look_alone fun _ => ?_ | refine when_alone ?_ | refine ite_alone ?_ ?_ | refine forBelow_alone fun _ => ?_ | exact skip_alone)
      | (with_reducible first | exact put_alone ..)
      | ((with_reducible refine wr_alone ?_ ?_); (· first | exact hdr_mem rfl (by decide +kernel) | exact own_mem (show _ ∈ tabRING by decide +kernel)); (· intro e; first | rfl | cases e))
      | ((with_reducible refine bump_alone ?_ ?_ ?_ ..); (· exact ⟨nofun, nofun⟩); (· rfl); (· intro e; first | rfl | cases e))
      | ((with_reducible refine alone_of (F := Foot.refetch) .ring ?_ ?_ ?_); (· rfl); (· with_reducible exact refetch_in (Foot.le_refl _) ..); (· decide +kernel))
      | split
      | dsimp only

end Sys2Proof.Machine
end

