-- ==== Sys2Proof/Laws/AloneSched.lean ====
section
/-! SUPPORT. Commands that touch one page of the kind SCHED alone. -/

namespace Sys2Proof.Machine

set_option Elab.async false
set_option linter.unusedTactic false
set_option linter.unreachableTactic false

theorem hatchLenWrite_sched (st : Stamp) (p v : Nat) : (hatchLenWrite st p v).Alone (.sched p) := by
  unfold hatchLenWrite
  repeat' first
      | (with_reducible first | exact all_nil_alone | refine all_cons_alone ?_ ?_ | refine look_alone fun _ => ?_ | refine when_alone ?_ | refine ite_alone ?_ ?_ | refine forBelow_alone fun _ => ?_ | exact skip_alone)
      | ((with_reducible refine wr_alone ?_ ?_); (· first | exact hdr_mem rfl (by decide +kernel) | exact own_mem (show _ ∈ tabGUARD0 by decide +kernel) | exact own_mem (show _ ∈ tabSCHED by decide +kernel)); (· intro e; first | rfl | cases e))
      | ((with_reducible refine raise_alone ?_ ?_ ?_ ..); (· exact ⟨nofun, nofun⟩); (· rfl); (· intro e; first | rfl | cases e))
      | with_reducible exact tellDiscard_alone ..
      | (unfold hatchCountFld; split)
      | (unfold hatchVerFld; split)
      | with_reducible refine forEach_alone fun _ => ?_
      | split
      | dsimp only

theorem execHatchLenWrite_alone_sched (st : Stamp) (p : PortId) (v : Word) {σ τ : State} (hw : σ.wf) (he : execHatchLenWrite st p v σ = .next τ) : Alone (.sched p) σ τ := by
  refine answer_alone ?_ hw he
  clear he hw
  repeat' first
      | (with_reducible first | exact all_nil_alone | refine all_cons_alone ?_ ?_ | refine look_alone fun _ => ?_ | refine when_alone ?_ | refine ite_alone ?_ ?_ | refine forBelow_alone fun _ => ?_ | exact skip_alone)
      | ((with_reducible refine granted_alone ?_ ?_ ?_ _ _ ?_); (· exact ⟨nofun, nofun⟩); (· rfl); (· intro e; first | rfl | cases e); skip)
      | ((with_reducible refine granted_alone' ?_ _ _ ?_); (· rfl); skip)
      | with_reducible exact hatchLenWrite_sched ..
      | split
      | dsimp only

theorem hatchVerifyWrite_sched (st : Stamp) (p v : Nat) : (hatchVerifyWrite st p v).Alone (.sched p) := by
  unfold hatchVerifyWrite
  repeat' first
      | (with_reducible first | exact all_nil_alone | refine all_cons_alone ?_ ?_ | refine look_alone fun _ => ?_ | refine when_alone ?_ | refine ite_alone ?_ ?_ | refine forBelow_alone fun _ => ?_ | exact skip_alone)
      | (with_reducible first | exact put_alone ..)
      | ((with_reducible refine wr_alone ?_ ?_); (· first | exact own_mem (show _ ∈ tabSCHED by decide +kernel)); (· intro e; first | rfl | cases e))
      | ((with_reducible refine plainWrite_alone ?_ _ _ _); (· intro e; first | rfl | cases e))
      | split
      | dsimp only

theorem execHatchVerifyStart_alone_sched (st : Stamp) (p : PortId) (v : Word) {σ τ : State} (hw : σ.wf) (he : execHatchVerifyStart st p v σ = .next τ) : Alone (.sched p) σ τ := by
  refine answer_alone ?_ hw he
  clear he hw
  repeat' first
      | (with_reducible first | exact all_nil_alone | refine all_cons_alone ?_ ?_ | refine look_alone fun _ => ?_ | refine when_alone ?_ | refine ite_alone ?_ ?_ | refine forBelow_alone fun _ => ?_ | exact skip_alone)
      | ((with_reducible refine granted_alone ?_ ?_ ?_ _ _ ?_); (· exact ⟨nofun, nofun⟩); (· rfl); (· intro e; first | rfl | cases e); skip)
      | ((with_reducible refine granted_alone' ?_ _ _ ?_); (· rfl); skip)
      | with_reducible exact hatchVerifyWrite_sched ..
      | split
      | dsimp only

theorem hatchVerifyEnds_sched (p code index : Nat) : (hatchVerifyEnds p code index).Alone (.sched p) := by
  unfold hatchVerifyEnds
  repeat' first
      | (with_reducible first | exact all_nil_alone | refine all_cons_alone ?_ ?_ | refine look_alone fun _ => ?_ | refine when_alone ?_ | refine ite_alone ?_ ?_ | refine forBelow_alone fun _ => ?_ | exact skip_alone)
      | ((with_reducible refine wr_alone ?_ ?_); (· first | exact hdr_mem rfl (by decide +kernel) | exact own_mem (show _ ∈ tabGUARD0 by decide +kernel) | exact own_mem (show _ ∈ tabSCHED by decide +kernel)); (· intro e; first | rfl | cases e))
      | ((with_reducible refine raise_alone ?_ ?_ ?_ ..); (· exact ⟨nofun, nofun⟩); (· rfl); (· intro e; first | rfl | cases e))
      | (unfold hatchVerFld; split)
      | split
      | dsimp only

theorem execHatchVerifyDone_alone_sched (p : PortId) {σ τ : State} (hw : σ.wf) (he : execHatchVerifyDone p σ = .next τ) : Alone (.sched p) σ τ := by
  refine answer_alone ?_ hw he
  clear he hw
  repeat' first
      | (with_reducible first | exact all_nil_alone | refine all_cons_alone ?_ ?_ | refine look_alone fun _ => ?_ | refine when_alone ?_ | refine ite_alone ?_ ?_ | refine forBelow_alone fun _ => ?_ | exact skip_alone)
      | with_reducible exact hatchVerifyEnds_sched ..
      | split
      | dsimp only

theorem hatchUnpend_sched (p : Nat) : (hatchUnpend p).Alone (.sched p) := by
  unfold hatchUnpend
  repeat' first
      | (with_reducible first | exact all_nil_alone | refine all_cons_alone ?_ ?_ | refine look_alone fun _ => ?_ | refine when_alone ?_ | refine ite_alone ?_ ?_ | refine forBelow_alone fun _ => ?_ | exact skip_alone)
      | (with_reducible first | exact put_alone ..)
      | ((with_reducible refine wr_alone ?_ ?_); (· first | exact own_mem (show _ ∈ tabSCHED by decide +kernel)); (· intro e; first | rfl | cases e))
      | (unfold hatchStateFld; split)
      | with_reducible refine forSome_alone fun _ => ?_
      | split
      | dsimp only

theorem hatchReject_sched (p : Nat) : (hatchReject p).Alone (.sched p) := by
  unfold hatchReject
  repeat' first
      | (with_reducible first | exact all_nil_alone | refine all_cons_alone ?_ ?_ | refine look_alone fun _ => ?_ | refine when_alone ?_ | refine ite_alone ?_ ?_ | refine forBelow_alone fun _ => ?_ | exact skip_alone)
      | (with_reducible first | exact put_alone ..)
      | ((with_reducible refine wr_alone ?_ ?_); (· first | exact hdr_mem rfl (by decide +kernel) | exact own_mem (show _ ∈ tabGUARD0 by decide +kernel) | exact own_mem (show _ ∈ tabSCHED by decide +kernel)); (· intro e; first | rfl | cases e))
      | ((with_reducible refine bump_alone ?_ ?_ ?_ ..); (· exact ⟨nofun, nofun⟩); (· rfl); (· intro e; first | rfl | cases e))
      | ((with_reducible refine raise_alone ?_ ?_ ?_ ..); (· exact ⟨nofun, nofun⟩); (· rfl); (· intro e; first | rfl | cases e))
      | split
      | dsimp only

theorem hatchArmFor_sched (p l : Nat) (c : Option Nat) : (hatchArmFor p l c).Alone (.sched p) := by
  unfold hatchArmFor
  repeat' first
      | (with_reducible first | exact all_nil_alone | refine all_cons_alone ?_ ?_ | refine look_alone fun _ => ?_ | refine when_alone ?_ | refine ite_alone ?_ ?_ | refine forBelow_alone fun _ => ?_ | exact skip_alone)
      | (with_reducible first | exact put_alone ..)
      | ((with_reducible refine wr_alone ?_ ?_); (· first | exact own_mem (show _ ∈ tabSCHED by decide +kernel)); (· intro e; first | rfl | cases e))
      | with_reducible exact hatchReject_sched ..
      | with_reducible exact hatchUnpend_sched ..
      | (unfold hatchStateFld; split)
      | split
      | dsimp only

theorem startCopy_sched (p : Nat) (k : Pkt) : (startCopy p k).Alone (.sched p) := by
  unfold startCopy
  repeat' first
      | (with_reducible first | exact all_nil_alone | refine all_cons_alone ?_ ?_ | refine look_alone fun _ => ?_ | refine when_alone ?_ | refine ite_alone ?_ ?_ | refine forBelow_alone fun _ => ?_ | exact skip_alone)
      | (with_reducible first | exact put_alone .. | exact modBuf_alone ..)
      | ((with_reducible refine addCnt_alone ?_ ?_ ?_ ..); (· exact ⟨nofun, nofun⟩); (· rfl); (· intro e; first | rfl | cases e))
      | ((with_reducible refine bump_alone ?_ ?_ ?_ ..); (· exact ⟨nofun, nofun⟩); (· rfl); (· intro e; first | rfl | cases e))
      | ((with_reducible refine raise_alone ?_ ?_ ?_ ..); (· exact ⟨nofun, nofun⟩); (· rfl); (· intro e; first | rfl | cases e))
      | ((with_reducible refine alone_of (F := Foot.sampleAt) .sched ?_ ?_ ?_); (· rfl); (· with_reducible exact sampleAt_in (Foot.le_refl _) ..); (· decide +kernel))
      | split
      | dsimp only

theorem sendPkt_sched (p : Nat) (k : Pkt) : (sendPkt p k).Alone (.sched p) := by
  unfold sendPkt
  repeat' first
      | (with_reducible first | exact all_nil_alone | refine all_cons_alone ?_ ?_ | refine look_alone fun _ => ?_ | refine when_alone ?_ | refine ite_alone ?_ ?_ | refine forBelow_alone fun _ => ?_ | exact skip_alone)
      | ((with_reducible refine wr_alone ?_ ?_); (· first | exact hdr_mem rfl (by decide +kernel) | exact own_mem (show _ ∈ tabPORT by decide +kernel)); (· intro e; first | rfl | cases e))
      | ((with_reducible refine addCnt_alone ?_ ?_ ?_ ..); (· exact ⟨nofun, nofun⟩); (· rfl); (· intro e; first | rfl | cases e))
      | ((with_reducible refine bump_alone ?_ ?_ ?_ ..); (· exact ⟨nofun, nofun⟩); (· rfl); (· intro e; first | rfl | cases e))
      | ((with_reducible refine alone_of (F := Foot.linkPm) .sched ?_ ?_ ?_); (· rfl); (· with_reducible exact linkPm_in (Foot.le_refl _) ..); (· decide +kernel))
      | ((with_reducible refine alone_of (F := Foot.sendDown) .sched ?_ ?_ ?_); (· rfl); (· with_reducible exact sendDown_in (Foot.le_refl _) ..); (· decide +kernel))
      | ((with_reducible refine alone_of (F := Foot.sendSequenced) .sched ?_ ?_ ?_); (· rfl); (· with_reducible exact sendSequenced_in (Foot.le_refl _) ..); (· decide +kernel))
      | ((with_reducible refine alone_of (F := Foot.sendUp) .sched ?_ ?_ ?_); (· rfl); (· with_reducible exact sendUp_in (Foot.le_refl _) ..); (· decide +kernel))
      | with_reducible exact startCopy_sched ..
      | with_reducible refine forSome_alone fun _ => ?_
      | split
      | dsimp only

theorem countDeferred_sched (p : Nat) (ks : List Pkt) : (countDeferred p ks).Alone (.sched p) := by
  unfold countDeferred
  repeat' first
      | (with_reducible first | exact all_nil_alone | refine all_cons_alone ?_ ?_ | refine look_alone fun _ => ?_ | refine when_alone ?_ | refine ite_alone ?_ ?_ | refine forBelow_alone fun _ => ?_ | exact skip_alone)
      | ((with_reducible refine bump_alone ?_ ?_ ?_ ..); (· exact ⟨nofun, nofun⟩); (· rfl); (· intro e; first | rfl | cases e))
      | with_reducible refine forEach_alone fun _ => ?_
      | split
      | dsimp only

theorem execEgressFrameBoundary_alone_sched (p : PortId) (fc : BitVec 3) {σ τ : State} (hw : σ.wf) (he : execEgressFrameBoundary p fc σ = .next τ) : Alone (.sched p) σ τ := by
  refine answer_alone ?_ hw he
  clear he hw
  repeat' first
      | (with_reducible first | exact all_nil_alone | refine all_cons_alone ?_ ?_ | refine look_alone fun _ => ?_ | refine when_alone ?_ | refine ite_alone ?_ ?_ | refine forBelow_alone fun _ => ?_ | exact skip_alone)
      | (with_reducible first | exact put_alone ..)
      | ((with_reducible refine alone_of (F := Foot.aspmEnter) .sched ?_ ?_ ?_); (· rfl); (· with_reducible exact aspmEnter_in (Foot.le_refl _) ..); (· decide +kernel))
      | ((with_reducible refine alone_of (F := Foot.changeKey) .sched ?_ ?_ ?_); (· rfl); (· with_reducible exact changeKey_in (Foot.le_refl _) ..); (· decide +kernel))
      | ((with_reducible refine alone_of (F := Foot.chargeTurns) .sched ?_ ?_ ?_); (· rfl); (· with_reducible exact chargeTurns_in (Foot.le_refl _) ..); (· decide +kernel))
      | with_reducible exact countDeferred_sched ..
      | ((with_reducible refine alone_of (F := Foot.dropMasterOff) .sched ?_ ?_ ?_); (· rfl); (· with_reducible exact dropMasterOff_in (Foot.le_refl _) ..); (· decide +kernel))
      | ((with_reducible refine alone_of (F := Foot.finishCopy) .sched ?_ ?_ ?_); (· rfl); (· with_reducible exact finishCopy_in (Foot.le_refl _) ..); (· decide +kernel))
      | ((with_reducible refine alone_of (F := Foot.linkFrame) .sched ?_ ?_ ?_); (· rfl); (· with_reducible exact linkFrame_in (Foot.le_refl _) ..); (· decide +kernel))
      | ((with_reducible refine alone_of (F := Foot.sendMarker) .sched ?_ ?_ ?_); (· rfl); (· with_reducible exact sendMarker_in (Foot.le_refl _) ..); (· decide +kernel))
      | with_reducible exact sendPkt_sched ..
      | ((with_reducible refine alone_of (F := Foot.sendSequenced) .sched ?_ ?_ ?_); (· rfl); (· with_reducible exact sendSequenced_in (Foot.le_refl _) ..); (· decide +kernel))
      | ((with_reducible refine alone_of (F := Foot.settleTurns) .sched ?_ ?_ ?_); (· rfl); (· with_reducible exact settleTurns_in (Foot.le_refl _) ..); (· decide +kernel))
      | ((with_reducible refine alone_of (F := Foot.shaperAdvance) .sched ?_ ?_ ?_); (· rfl); (· with_reducible exact shaperAdvance_in (Foot.le_refl _) ..); (· decide +kernel))
      | with_reducible exact startCopy_sched ..
      | with_reducible refine forSome_alone fun _ => ?_
      | split
      | dsimp only

theorem gateChange_sched (p old : Nat) : (gateChange p old).Alone (.sched p) := by
  unfold gateChange
  repeat' first
      | (with_reducible first | exact all_nil_alone | refine all_cons_alone ?_ ?_ | refine look_alone fun _ => ?_ | refine when_alone ?_ | refine ite_alone ?_ ?_ | refine forBelow_alone fun _ => ?_ | exact skip_alone)
      | (with_reducible first | exact put_alone ..)
      | ((with_reducible refine bump_alone ?_ ?_ ?_ ..); (· exact ⟨nofun, nofun⟩); (· rfl); (· intro e; first | rfl | cases e))
      | with_reducible refine forEach_alone fun _ => ?_
      | split
      | dsimp only

theorem execHatchEntry_alone_sched (p : PortId) {σ τ : State} (hw : σ.wf) (he : execHatchEntry p σ = .next τ) : Alone (.sched p) σ τ := by
  refine answer_alone ?_ hw he
  clear he hw
  repeat' first
      | (with_reducible first | exact all_nil_alone | refine all_cons_alone ?_ ?_ | refine look_alone fun _ => ?_ | refine when_alone ?_ | refine ite_alone ?_ ?_ | refine forBelow_alone fun _ => ?_ | exact skip_alone)
      | ((with_reducible refine wr_alone ?_ ?_); (· first | exact own_mem (show _ ∈ tabSCHED by decide +kernel)); (· intro e; first | rfl | cases e))
      | with_reducible exact gateChange_sched ..
      | ((with_reducible refine alone_of (F := Foot.shaperAdvance) .sched ?_ ?_ ?_); (· rfl); (· with_reducible exact shaperAdvance_in (Foot.le_refl _) ..); (· decide +kernel))
      | ((with_reducible refine alone_of (F := Foot.timeTo) .sched ?_ ?_ ?_); (· rfl); (· with_reducible exact timeTo_in (Foot.le_refl _) ..); (· decide +kernel))
      | with_reducible refine forSome_alone fun _ => ?_
      | split
      | dsimp only

theorem hatchCtrlWrite_sched (st : Stamp) (p v : Nat) : (hatchCtrlWrite st p v).Alone (.sched p) := by
  unfold hatchCtrlWrite
  repeat' first
      | (with_reducible first | exact all_nil_alone | refine all_cons_alone ?_ ?_ | refine look_alone fun _ => ?_ | refine when_alone ?_ | refine ite_alone ?_ ?_ | refine forBelow_alone fun _ => ?_ | exact skip_alone)
      | ((with_reducible refine wr_alone ?_ ?_); (· first | exact own_mem (show _ ∈ tabSCHED by decide +kernel)); (· intro e; first | rfl | cases e))
      | ((with_reducible refine plainWrite_alone ?_ _ _ _); (· intro e; first | rfl | cases e))
      | with_reducible exact gateChange_sched ..
      | with_reducible exact hatchArmFor_sched ..
      | with_reducible exact hatchUnpend_sched ..
      | ((with_reducible refine alone_of (F := Foot.shaperAdvance) .sched ?_ ?_ ?_); (· rfl); (· with_reducible exact shaperAdvance_in (Foot.le_refl _) ..); (· decide +kernel))
      | (unfold hatchVerFld; split)
      | split
      | dsimp only

theorem execHatchArm_alone_sched (st : Stamp) (p : PortId) (v : Word) {σ τ : State} (hw : σ.wf) (he : execHatchArm st p v σ = .next τ) : Alone (.sched p) σ τ := by
  refine answer_alone ?_ hw he
  clear he hw
  repeat' first
      | (with_reducible first | exact all_nil_alone | refine all_cons_alone ?_ ?_ | refine look_alone fun _ => ?_ | refine when_alone ?_ | refine ite_alone ?_ ?_ | refine forBelow_alone fun _ => ?_ | exact skip_alone)
      | ((with_reducible refine granted_alone ?_ ?_ ?_ _ _ ?_); (· exact ⟨nofun, nofun⟩); (· rfl); (· intro e; first | rfl | cases e); skip)
      | ((with_reducible refine granted_alone' ?_ _ _ ?_); (· rfl); skip)
      | with_reducible exact hatchCtrlWrite_sched ..
      | split
      | dsimp only

theorem execHatchArmNext_alone_sched (st : Stamp) (p : PortId) (v : Word) {σ τ : State} (hw : σ.wf) (he : execHatchArmNext st p v σ = .next τ) : Alone (.sched p) σ τ := by
  refine answer_alone ?_ hw he
  clear he hw
  repeat' first
      | (with_reducible first | exact all_nil_alone | refine all_cons_alone ?_ ?_ | refine look_alone fun _ => ?_ | refine when_alone ?_ | refine ite_alone ?_ ?_ | refine forBelow_alone fun _ => ?_ | exact skip_alone)
      | ((with_reducible refine granted_alone ?_ ?_ ?_ _ _ ?_); (· exact ⟨nofun, nofun⟩); (· rfl); (· intro e; first | rfl | cases e); skip)
      | ((with_reducible refine granted_alone' ?_ _ _ ?_); (· rfl); skip)
      | with_reducible exact hatchCtrlWrite_sched ..
      | split
      | dsimp only

theorem execHatchDisarm_alone_sched (st : Stamp) (p : PortId) (v : Word) {σ τ : State} (hw : σ.wf) (he : execHatchDisarm st p v σ = .next τ) : Alone (.sched p) σ τ := by
  refine answer_alone ?_ hw he
  clear he hw
  repeat' first
      | (with_reducible first | exact all_nil_alone | refine all_cons_alone ?_ ?_ | refine look_alone fun _ => ?_ | refine when_alone ?_ | refine ite_alone ?_ ?_ | refine forBelow_alone fun _ => ?_ | exact skip_alone)
      | ((with_reducible refine granted_alone ?_ ?_ ?_ _ _ ?_); (· exact ⟨nofun, nofun⟩); (· rfl); (· intro e; first | rfl | cases e); skip)
      | ((with_reducible refine granted_alone' ?_ _ _ ?_); (· rfl); skip)
      | with_reducible exact hatchCtrlWrite_sched ..
      | split
      | dsimp only

end Sys2Proof.Machine
end

