-- ==== Sys2Proof/Laws/ExecArrive.lean ====
section
/-! SUPPORT. What each command of Machine/Arrive.lean may touch. -/

namespace Sys2Proof.Machine

set_option Elab.async false
set_option linter.unusedTactic false
set_option linter.unreachableTactic false

def Foot.execTailArrival : Foot :=
  { regs := onFam .sec (errFields ++ fCnt ++ [.SEC_IDE_STAT_FAIL, .SEC_IDE_STAT_LINK_SECURE, .SEC_IDE_STAT_SEL_SECURE]) ++ onFam
      .guard (errFields ++ fCnt ++ [.GUARD_ELOG_CTRL_LOST]) ++ onFam .core (errFields ++ fCnt ++ [.CORE_WM_STAT_WM_CROSS_CNT,
      .CORE_WM_STAT_WM_EVENT, .CORE_WM_STAT_WM_LEVEL]) ++ onFam .route (errFields ++ fCnt) ++ onFam .bridge (errFields ++ fCnt ++
      [.BRIDGE_LOCK_STAT_HOLDER, .BRIDGE_LOCK_STAT_LOCKED, .BRIDGE_PROOF_WM_STAT_WM_CROSS_CNT, .BRIDGE_PROOF_WM_STAT_WM_EVENT,
      .BRIDGE_PROOF_WM_STAT_WM_LEVEL]) ++ onFam .port errFields ++ onFam .face (errFields ++ fCnt) ++ onFam .schedg fCnt ++ onFam
      .moverg errFields ++ onFam .eng fCnt, cnts := [.sec, .guard, .core, .route, .bridge, .face, .schedg, .eng], vars := [.acqAt,
      .acqNum, .cbsAt, .cbsCr, .cycFirst, .cycFirstLen, .cycFirstNum, .cycLast, .cycNext, .cycNext2, .cycP, .elogSeq, .lockDest,
      .mkRun, .msixPend, .pcieSent, .pktId, .polAt, .polC, .polP, .redAvg, .stipCnt, .stipSeq, .tagEp], fifos := [.elog,
      .faceWrote, .missLog, .viWrote], parts := [.buf, .free, .greqs, .out, .prefs, .replay, .slots, .streams, .waiting] }

theorem execTailArrival_within (id : Nat) (c : TailChecks) {σ τ : State} (hw : σ.wf) (he : execTailArrival id c σ = .next τ) : Within Foot.execTailArrival σ τ := by
  have hF := Foot.le_refl Foot.execTailArrival
  refine answer_within ?_ hw he
  clear he hw
  repeat' first
      | (with_reducible first | exact all_nil_in | refine all_cons_in ?_ ?_ | refine look_in fun _ => ?_ | refine when_in ?_ | refine ite_in ?_ ?_ | refine forSome_in fun _ => ?_)
      | ((with_reducible refine badCause_in ?_ ..); (· exact Foot.le_trans (Foot.le_of_runs (by decide +kernel)) hF))
      | ((with_reducible refine badFrame_in ?_ ..); (· exact Foot.le_trans (Foot.le_of_runs (by decide +kernel)) hF))
      | ((with_reducible refine dedup_in ?_ _ _ _ (?_) (?_)); (· exact Foot.le_trans (Foot.le_of_runs (by decide +kernel)) hF); skip)
      | ((with_reducible refine dropFrame_in ?_ ..); (· exact Foot.le_trans (Foot.le_of_runs (by decide +kernel)) hF))
      | ((with_reducible refine resendGoesOn_in ?_ ..); (· exact Foot.le_trans (Foot.le_of_runs (by decide +kernel)) hF))
      | ((with_reducible refine settleSelf_in ?_ ..); (· exact Foot.le_trans (Foot.le_of_runs (by decide +kernel)) hF))
      | ((with_reducible refine tailIn_in ?_ ..); (· exact Foot.le_trans (Foot.le_of_runs (by decide +kernel)) hF))
      | split
      | dsimp only

end Sys2Proof.Machine
end

