-- ==== Sys2Proof/Laws/ExecBoot.lean ====
section
/-! SUPPORT. What each command of Machine/Boot.lean may touch. -/

namespace Sys2Proof.Machine

set_option Elab.async false
set_option linter.unusedTactic false
set_option linter.unreachableTactic false

def Foot.execVkeepRise : Foot :=
  { regs := onFam .pwr [.PWR_CH_STAT_STATE], vars := [.noVkeep] }

theorem execVkeepRise_within  {σ τ : State} (hw : σ.wf) (he : execVkeepRise σ = .next τ) : Within Foot.execVkeepRise σ τ := by
  have hF := Foot.le_refl Foot.execVkeepRise
  refine always_within ?_ hw he
  clear he hw
  repeat' first
      | (with_reducible first | exact all_nil_in | refine all_cons_in ?_ ?_ | refine look_in fun _ => ?_ | refine when_in ?_ | refine forBelow_in fun _ => ?_)
      | ((with_reducible refine put_in ?_); (· exact le_vars hF (by decide +kernel)))
      | ((with_reducible refine chanStart_in ?_ ..); (· exact Foot.le_trans (Foot.le_of_runs (by decide +kernel)) hF))
      | split
      | dsimp only

def Foot.execSwitchDieRailsGood : Foot :=
  { vars := [.coldQual] }

theorem execSwitchDieRailsGood_within  {σ τ : State} (hw : σ.wf) (he : execSwitchDieRailsGood σ = .next τ) : Within Foot.execSwitchDieRailsGood σ τ := by
  have hF := Foot.le_refl Foot.execSwitchDieRailsGood
  refine always_within ?_ hw he
  clear he hw
  repeat' first
      | (with_reducible first | refine look_in fun _ => ?_ | refine when_in ?_)
      | ((with_reducible refine put_in ?_); (· exact le_vars hF (by decide +kernel)))
      | split
      | dsimp only

def Foot.execColdResetEnd : Foot :=
  { regs := onFam .glb [.GLB_RESET_CAUSE_LAST, .GLB_RESET_CAUSE_WARM_PIN, .GLB_RESET_CAUSE_WARM_REG] ++ onFam .sec [.SEC_NONCE_DW]
      ++ onFam .face [.FACE_PM_STAT_FWAKE], vars := [.coldQual, .dieReset], parts := [.free] }

theorem execColdResetEnd_within  {σ τ : State} (hw : σ.wf) (he : execColdResetEnd σ = .next τ) : Within Foot.execColdResetEnd σ τ := by
  have hF := Foot.le_refl Foot.execColdResetEnd
  refine always_within ?_ hw he
  clear he hw
  repeat' first
      | (with_reducible first | exact all_nil_in | refine all_cons_in ?_ ?_ | refine look_in fun _ => ?_ | refine when_in ?_ | refine ite_in ?_ ?_ | refine forEach_in fun _ => ?_)
      | ((with_reducible refine put_in ?_); (· exact le_vars hF (by decide +kernel)))
      | ((with_reducible refine wr_in ?_ ?_); (· first | exact own_mem (show _ ∈ tabFACE by decide +kernel)); (· first | exact le_regs hF (show (Fam.face, _) ∈ _ by decide +kernel)))
      | ((with_reducible refine newNonce_in ?_ ..); (· exact Foot.le_trans (Foot.le_of_runs (by decide +kernel)) hF))
      | ((with_reducible refine warmCause_in ?_ ..); (· exact Foot.le_trans (Foot.le_of_runs (by decide +kernel)) hF))
      | split
      | dsimp only

def Foot.execCrystalLoss : Foot :=
  { regs := onFam .glb [.GLB_DEV_STATE_STATE] ++ onFam .sec (errFields ++ fCnt ++ [.SEC_IDE_STAT_DEV_AUTH, .SEC_IDE_STAT_LINK_ID,
      .SEC_IDE_STAT_LINK_KSET, .SEC_IDE_STAT_LINK_SECURE, .SEC_IDE_STAT_SEL_SECURE, .SEC_IDE_STAT_SEL_VALID,
      .SEC_LINK_STAT_AUTH_OK, .SEC_LINK_STAT_AUTH_STATUS, .SEC_LINK_STAT_PARTNER_DEBUG, .SEC_LINK_STAT_REKEY,
      .SEC_LINK_STAT_REKEYS]) ++ onFam .guard (errFields ++ fCnt ++ [.GDS_DEVICE_BY_SW, .GDS_DEVICE_CLASS, .GDS_DEVICE_HOLD,
      .GDS_DEVICE_MERGED, .GDS_DEVICE_STATE, .GDS_DEVICE_WINDOW, .GDS_FACE_BY_SW, .GDS_FACE_CLASS, .GDS_FACE_HOLD,
      .GDS_FACE_MERGED, .GDS_FACE_STATE, .GDS_FACE_WINDOW, .GDS_INST_BY_SW, .GDS_INST_CLASS, .GDS_INST_HOLD, .GDS_INST_MERGED,
      .GDS_INST_STATE, .GDS_INST_WINDOW, .GDS_LANE_BY_SW, .GDS_LANE_CLASS, .GDS_LANE_HOLD, .GDS_LANE_MERGED, .GDS_LANE_STATE,
      .GDS_LANE_WINDOW, .GDS_LINK_BY_SW, .GDS_LINK_CLASS, .GDS_LINK_HOLD, .GDS_LINK_MERGED, .GDS_LINK_STATE, .GDS_LINK_WINDOW,
      .GDS_PORT_BY_SW, .GDS_PORT_CLASS, .GDS_PORT_HOLD, .GDS_PORT_MERGED, .GDS_PORT_STATE, .GDS_PORT_WINDOW,
      .GUARD_ELOG_CTRL_LOST, .GUARD_HALT_CAUSE_BIT, .GUARD_HALT_CAUSE_BLOCK, .GUARD_HALT_CAUSE_CAUSE, .GUARD_HALT_CAUSE_DINST,
      .GUARD_HALT_CAUSE_VALID]) ++ onFam .lane [.LANE_INJ_CTRL_ONE_SHOT, .LANE_RATE_CFG_RATE_NOW, .LANE_REST_CTRL_IN_REST,
      .LANE_STAT_ALIGN_LOCK, .LANE_STAT_CDR_LOCK, .LANE_STAT_EQ_DONE, .LANE_STAT_EQ_FAIL, .LANE_STAT_EXIT_FAIL, .LANE_STAT_FAILED,
      .LANE_STAT_FEC_LOCK, .LANE_STAT_RX_READY, .LANE_STAT_STATE, .LANE_TX_TAPS_C0, .LANE_TX_TAPS_POST, .LANE_TX_TAPS_PRE] ++
      onFam .core (errFields ++ fCnt ++ [.CORE_WM_STAT_WM_CROSS_CNT, .CORE_WM_STAT_WM_EVENT, .CORE_WM_STAT_WM_LEVEL]) ++ onFam
      .route (errFields ++ fCnt ++ [.ROUTE_TURN_CTRL_ARM, .ROUTE_TURN_CTRL_STATUS]) ++ onFam .bridge (errFields ++ fCnt ++
      [.BRIDGE_FAB_NBR_PARTNER_PORT, .BRIDGE_FAB_NBR_PARTNER_SW, .BRIDGE_FAB_NBR_VALID, .BRIDGE_LOCK_STAT_HOLDER,
      .BRIDGE_LOCK_STAT_LOCKED, .BRIDGE_PROOF_WM_STAT_WM_CROSS_CNT, .BRIDGE_PROOF_WM_STAT_WM_EVENT,
      .BRIDGE_PROOF_WM_STAT_WM_LEVEL]) ++ onFam .port [.PORT_LINK_STAT_ENC, .PORT_LINK_STAT_FLIT, .PORT_LINK_STAT_KEY_PHASE,
      .PORT_LINK_STAT_LANES_GOOD, .PORT_LINK_STAT_RATE_NOW, .PORT_LINK_STAT_STATE, .PORT_LINK_STAT_WIDTH_NOW,
      .PORT_REPLAY_CNT_CONSEC] ++ onFam .face (errFields ++ fCnt ++ [.FACE_BIND_STATE, .FACE_PM_STAT_LINK_PM, .FACE_PRES_SHOWN])
      ++ onFam .schedg fCnt ++ onFam .sched [.SCHED_HATCH_CTRL_ARM, .SCHED_HATCH_STAT_A_STATE, .SCHED_HATCH_STAT_B_STATE], cnts :=
      [.sec, .guard, .core, .route, .bridge, .face, .schedg], vars := [.alignMiss, .alignSeen, .authDebug, .authStep, .badCw,
      .cbsAt, .cbsCr, .coldQual, .crAdv, .crInit, .crUsed, .elogSeq, .eqTimeouts, .haltRel, .hatchAt, .hatchLate, .ideGo, .ideKey,
      .injAlign, .lockDest, .lsSeen, .mkDue, .mkRx, .mkTx, .msixPend, .nakSent, .nextKey, .ownReq, .paramGot, .paramVal,
      .partnerAspm, .partnerMax, .partnerReady, .partnerRest, .pcieAcked, .pcieRev, .pcieSent, .peerReq, .pktId, .polAt, .polC,
      .polP, .portFenced, .postStat, .preStat, .presBar, .presBarSet, .presBase, .presCmd, .presInfo, .presRom, .presetStat,
      .redAvg, .rekeying, .replayAt, .restHeld, .restPend, .restSince, .rxKey, .rxNum, .rxRest, .rxSeq, .rxUnacked, .sizing,
      .skewCnt, .slotCtl, .slotStat, .stipCnt, .stipSeq, .tagEp, .turnAt, .txCount, .txKey, .txLimit, .txNum, .txSeq, .txUsed,
      .wcDone, .wcFrom, .wcId, .wcOldWidth, .wcSet, .widening, .xtalLost], fifos := [.elog, .faceWrote, .missLog, .viWrote], parts
      := [.buf, .free, .fwd, .greqs, .out, .prefs, .replay, .slots, .streams, .waiting] }

theorem execCrystalLoss_within  {σ τ : State} (hw : σ.wf) (he : execCrystalLoss σ = .next τ) : Within Foot.execCrystalLoss σ τ := by
  have hF := Foot.le_refl Foot.execCrystalLoss
  refine always_within ?_ hw he
  clear he hw
  repeat' first
      | (with_reducible first | refine look_in fun _ => ?_ | refine when_in ?_ | refine ite_in ?_ ?_)
      | ((with_reducible refine put_in ?_); (· exact le_vars hF (by decide +kernel)))
      | ((with_reducible refine safeHaltNow_in ?_ ..); (· exact Foot.le_trans (Foot.le_of_runs (by decide +kernel)) hF))
      | split
      | dsimp only

def Foot.execDevRstNRelease : Foot :=
  { regs := onFam .glb [.GLB_DEV_STATE_STATE] ++ onFam .sec (errFields ++ fCnt ++ [.SEC_IDE_STAT_DEV_AUTH, .SEC_IDE_STAT_LINK_ID,
      .SEC_IDE_STAT_LINK_KSET, .SEC_IDE_STAT_LINK_SECURE, .SEC_IDE_STAT_SEL_SECURE, .SEC_IDE_STAT_SEL_VALID,
      .SEC_LINK_STAT_AUTH_OK, .SEC_LINK_STAT_AUTH_STATUS, .SEC_LINK_STAT_PARTNER_DEBUG, .SEC_LINK_STAT_REKEY,
      .SEC_LINK_STAT_REKEYS]) ++ onFam .guard (errFields ++ fCnt ++ [.GDS_DEVICE_BY_SW, .GDS_DEVICE_CLASS, .GDS_DEVICE_HOLD,
      .GDS_DEVICE_MERGED, .GDS_DEVICE_STATE, .GDS_DEVICE_WINDOW, .GDS_FACE_BY_SW, .GDS_FACE_CLASS, .GDS_FACE_HOLD,
      .GDS_FACE_MERGED, .GDS_FACE_STATE, .GDS_FACE_WINDOW, .GDS_INST_BY_SW, .GDS_INST_CLASS, .GDS_INST_HOLD, .GDS_INST_MERGED,
      .GDS_INST_STATE, .GDS_INST_WINDOW, .GDS_LANE_BY_SW, .GDS_LANE_CLASS, .GDS_LANE_HOLD, .GDS_LANE_MERGED, .GDS_LANE_STATE,
      .GDS_LANE_WINDOW, .GDS_LINK_BY_SW, .GDS_LINK_CLASS, .GDS_LINK_HOLD, .GDS_LINK_MERGED, .GDS_LINK_STATE, .GDS_LINK_WINDOW,
      .GDS_PORT_BY_SW, .GDS_PORT_CLASS, .GDS_PORT_HOLD, .GDS_PORT_MERGED, .GDS_PORT_STATE, .GDS_PORT_WINDOW,
      .GUARD_ELOG_CTRL_LOST, .GUARD_HALT_CAUSE_BIT, .GUARD_HALT_CAUSE_BLOCK, .GUARD_HALT_CAUSE_CAUSE, .GUARD_HALT_CAUSE_DINST,
      .GUARD_HALT_CAUSE_VALID]) ++ onFam .lane [.LANE_INJ_CTRL_ONE_SHOT, .LANE_RATE_CFG_RATE_NOW, .LANE_REST_CTRL_IN_REST,
      .LANE_STAT_ALIGN_LOCK, .LANE_STAT_CDR_LOCK, .LANE_STAT_EQ_DONE, .LANE_STAT_EQ_FAIL, .LANE_STAT_EXIT_FAIL, .LANE_STAT_FAILED,
      .LANE_STAT_FEC_LOCK, .LANE_STAT_RX_READY, .LANE_STAT_STATE, .LANE_TX_TAPS_C0, .LANE_TX_TAPS_POST, .LANE_TX_TAPS_PRE] ++
      onFam .core (errFields ++ fCnt ++ [.CORE_WM_STAT_WM_CROSS_CNT, .CORE_WM_STAT_WM_EVENT, .CORE_WM_STAT_WM_LEVEL]) ++ onFam
      .route (errFields ++ fCnt ++ [.ROUTE_TURN_CTRL_ARM, .ROUTE_TURN_CTRL_STATUS]) ++ onFam .bridge (errFields ++ fCnt ++
      [.BRIDGE_FAB_NBR_PARTNER_PORT, .BRIDGE_FAB_NBR_PARTNER_SW, .BRIDGE_FAB_NBR_VALID, .BRIDGE_LOCK_STAT_HOLDER,
      .BRIDGE_LOCK_STAT_LOCKED, .BRIDGE_PROOF_WM_STAT_WM_CROSS_CNT, .BRIDGE_PROOF_WM_STAT_WM_EVENT,
      .BRIDGE_PROOF_WM_STAT_WM_LEVEL]) ++ onFam .port [.PORT_LINK_STAT_ENC, .PORT_LINK_STAT_FLIT, .PORT_LINK_STAT_KEY_PHASE,
      .PORT_LINK_STAT_LANES_GOOD, .PORT_LINK_STAT_RATE_NOW, .PORT_LINK_STAT_STATE, .PORT_LINK_STAT_WIDTH_NOW,
      .PORT_REPLAY_CNT_CONSEC] ++ onFam .face (errFields ++ fCnt ++ [.FACE_BIND_STATE, .FACE_PM_STAT_LINK_PM, .FACE_PRES_SHOWN])
      ++ onFam .schedg fCnt ++ onFam .sched [.SCHED_HATCH_CTRL_ARM, .SCHED_HATCH_STAT_A_STATE, .SCHED_HATCH_STAT_B_STATE], cnts :=
      [.sec, .guard, .core, .route, .bridge, .face, .schedg], vars := [.alignMiss, .alignSeen, .authDebug, .authStep, .badCw,
      .cbsAt, .cbsCr, .crAdv, .crInit, .crUsed, .devRst, .dieReset, .elogSeq, .eqTimeouts, .haltRel, .hatchAt, .hatchLate, .ideGo,
      .ideKey, .injAlign, .lockDest, .lsSeen, .mkDue, .mkRx, .mkTx, .msixPend, .nakSent, .nextKey, .ownReq, .paramGot, .paramVal,
      .partnerAspm, .partnerMax, .partnerReady, .partnerRest, .pcieAcked, .pcieRev, .pcieSent, .peerReq, .pktId, .polAt, .polC,
      .polP, .portFenced, .postStat, .preStat, .presBar, .presBarSet, .presBase, .presCmd, .presInfo, .presRom, .presetStat,
      .redAvg, .rekeying, .replayAt, .restHeld, .restPend, .restSince, .rxKey, .rxNum, .rxRest, .rxSeq, .rxUnacked, .sizing,
      .skewCnt, .slotCtl, .slotStat, .stipCnt, .stipSeq, .tagEp, .turnAt, .txCount, .txKey, .txLimit, .txNum, .txSeq, .txUsed,
      .wcDone, .wcFrom, .wcId, .wcOldWidth, .wcSet, .widening, .xtalLost], fifos := [.elog, .faceWrote, .missLog, .viWrote], parts
      := [.buf, .free, .fwd, .greqs, .out, .prefs, .replay, .slots, .streams, .waiting] }

theorem execDevRstNRelease_within  {σ τ : State} (hw : σ.wf) (he : execDevRstNRelease σ = .next τ) : Within Foot.execDevRstNRelease σ τ := by
  have hF := Foot.le_refl Foot.execDevRstNRelease
  refine always_within ?_ hw he
  clear he hw
  repeat' first
      | (with_reducible first | exact all_nil_in | refine all_cons_in ?_ ?_)
      | ((with_reducible refine put_in ?_); (· exact le_vars hF (by decide +kernel)))
      | ((with_reducible refine warmEnds_in ?_ ..); (· exact Foot.le_trans (Foot.le_of_runs (by decide +kernel)) hF))
      | split
      | dsimp only

def Foot.execWarmResetEnd : Foot :=
  { regs := onFam .glb [.GLB_DEV_STATE_STATE] ++ onFam .sec (errFields ++ fCnt ++ [.SEC_IDE_STAT_DEV_AUTH, .SEC_IDE_STAT_LINK_ID,
      .SEC_IDE_STAT_LINK_KSET, .SEC_IDE_STAT_LINK_SECURE, .SEC_IDE_STAT_SEL_SECURE, .SEC_IDE_STAT_SEL_VALID,
      .SEC_LINK_STAT_AUTH_OK, .SEC_LINK_STAT_AUTH_STATUS, .SEC_LINK_STAT_PARTNER_DEBUG, .SEC_LINK_STAT_REKEY,
      .SEC_LINK_STAT_REKEYS]) ++ onFam .guard (errFields ++ fCnt ++ [.GDS_DEVICE_BY_SW, .GDS_DEVICE_CLASS, .GDS_DEVICE_HOLD,
      .GDS_DEVICE_MERGED, .GDS_DEVICE_STATE, .GDS_DEVICE_WINDOW, .GDS_FACE_BY_SW, .GDS_FACE_CLASS, .GDS_FACE_HOLD,
      .GDS_FACE_MERGED, .GDS_FACE_STATE, .GDS_FACE_WINDOW, .GDS_INST_BY_SW, .GDS_INST_CLASS, .GDS_INST_HOLD, .GDS_INST_MERGED,
      .GDS_INST_STATE, .GDS_INST_WINDOW, .GDS_LANE_BY_SW, .GDS_LANE_CLASS, .GDS_LANE_HOLD, .GDS_LANE_MERGED, .GDS_LANE_STATE,
      .GDS_LANE_WINDOW, .GDS_LINK_BY_SW, .GDS_LINK_CLASS, .GDS_LINK_HOLD, .GDS_LINK_MERGED, .GDS_LINK_STATE, .GDS_LINK_WINDOW,
      .GDS_PORT_BY_SW, .GDS_PORT_CLASS, .GDS_PORT_HOLD, .GDS_PORT_MERGED, .GDS_PORT_STATE, .GDS_PORT_WINDOW,
      .GUARD_ELOG_CTRL_LOST, .GUARD_HALT_CAUSE_BIT, .GUARD_HALT_CAUSE_BLOCK, .GUARD_HALT_CAUSE_CAUSE, .GUARD_HALT_CAUSE_DINST,
      .GUARD_HALT_CAUSE_VALID]) ++ onFam .lane [.LANE_INJ_CTRL_ONE_SHOT, .LANE_RATE_CFG_RATE_NOW, .LANE_REST_CTRL_IN_REST,
      .LANE_STAT_ALIGN_LOCK, .LANE_STAT_CDR_LOCK, .LANE_STAT_EQ_DONE, .LANE_STAT_EQ_FAIL, .LANE_STAT_EXIT_FAIL, .LANE_STAT_FAILED,
      .LANE_STAT_FEC_LOCK, .LANE_STAT_RX_READY, .LANE_STAT_STATE, .LANE_TX_TAPS_C0, .LANE_TX_TAPS_POST, .LANE_TX_TAPS_PRE] ++
      onFam .core (errFields ++ fCnt ++ [.CORE_WM_STAT_WM_CROSS_CNT, .CORE_WM_STAT_WM_EVENT, .CORE_WM_STAT_WM_LEVEL]) ++ onFam
      .route (errFields ++ fCnt ++ [.ROUTE_TURN_CTRL_ARM, .ROUTE_TURN_CTRL_STATUS]) ++ onFam .bridge (errFields ++ fCnt ++
      [.BRIDGE_FAB_NBR_PARTNER_PORT, .BRIDGE_FAB_NBR_PARTNER_SW, .BRIDGE_FAB_NBR_VALID, .BRIDGE_LOCK_STAT_HOLDER,
      .BRIDGE_LOCK_STAT_LOCKED, .BRIDGE_PROOF_WM_STAT_WM_CROSS_CNT, .BRIDGE_PROOF_WM_STAT_WM_EVENT,
      .BRIDGE_PROOF_WM_STAT_WM_LEVEL]) ++ onFam .port [.PORT_LINK_STAT_ENC, .PORT_LINK_STAT_FLIT, .PORT_LINK_STAT_KEY_PHASE,
      .PORT_LINK_STAT_LANES_GOOD, .PORT_LINK_STAT_RATE_NOW, .PORT_LINK_STAT_STATE, .PORT_LINK_STAT_WIDTH_NOW,
      .PORT_REPLAY_CNT_CONSEC] ++ onFam .face (errFields ++ fCnt ++ [.FACE_BIND_STATE, .FACE_PM_STAT_LINK_PM, .FACE_PRES_SHOWN])
      ++ onFam .schedg fCnt ++ onFam .sched [.SCHED_HATCH_CTRL_ARM, .SCHED_HATCH_STAT_A_STATE, .SCHED_HATCH_STAT_B_STATE], cnts :=
      [.sec, .guard, .core, .route, .bridge, .face, .schedg], vars := [.alignMiss, .alignSeen, .authDebug, .authStep, .badCw,
      .cbsAt, .cbsCr, .crAdv, .crInit, .crUsed, .dieReset, .elogSeq, .eqTimeouts, .haltRel, .hatchAt, .hatchLate, .ideGo, .ideKey,
      .injAlign, .lockDest, .lsSeen, .mkDue, .mkRx, .mkTx, .msixPend, .nakSent, .nextKey, .ownReq, .paramGot, .paramVal,
      .partnerAspm, .partnerMax, .partnerReady, .partnerRest, .pcieAcked, .pcieRev, .pcieSent, .peerReq, .pktId, .polAt, .polC,
      .polP, .portFenced, .postStat, .preStat, .presBar, .presBarSet, .presBase, .presCmd, .presInfo, .presRom, .presetStat,
      .redAvg, .rekeying, .replayAt, .restHeld, .restPend, .restSince, .rxKey, .rxNum, .rxRest, .rxSeq, .rxUnacked, .sizing,
      .skewCnt, .slotCtl, .slotStat, .stipCnt, .stipSeq, .tagEp, .turnAt, .txCount, .txKey, .txLimit, .txNum, .txSeq, .txUsed,
      .warmReg, .wcDone, .wcFrom, .wcId, .wcOldWidth, .wcSet, .widening, .xtalLost], fifos := [.elog, .faceWrote, .missLog,
      .viWrote], parts := [.buf, .free, .fwd, .greqs, .out, .prefs, .replay, .slots, .streams, .waiting] }

theorem execWarmResetEnd_within  {σ τ : State} (hw : σ.wf) (he : execWarmResetEnd σ = .next τ) : Within Foot.execWarmResetEnd σ τ := by
  have hF := Foot.le_refl Foot.execWarmResetEnd
  refine always_within ?_ hw he
  clear he hw
  repeat' first
      | (with_reducible first | exact all_nil_in | refine all_cons_in ?_ ?_)
      | ((with_reducible refine put_in ?_); (· exact le_vars hF (by decide +kernel)))
      | ((with_reducible refine warmEnds_in ?_ ..); (· exact Foot.le_trans (Foot.le_of_runs (by decide +kernel)) hF))
      | split
      | dsimp only

def Foot.execRomChecksDone : Foot :=
  { regs := onFam .glb [.BLK_STAT_READY, .GLB_DEV_STATE_STATE] ++ onFam .mgmt [.BLK_STAT_READY] ++ onFam .sec (errFields ++ fCnt ++
      [.BLK_STAT_READY, .SEC_IDE_STAT_DEV_AUTH, .SEC_IDE_STAT_LINK_ID, .SEC_IDE_STAT_LINK_KSET, .SEC_IDE_STAT_LINK_SECURE,
      .SEC_IDE_STAT_SEL_SECURE, .SEC_IDE_STAT_SEL_VALID, .SEC_LINK_STAT_AUTH_OK, .SEC_LINK_STAT_AUTH_STATUS,
      .SEC_LINK_STAT_PARTNER_DEBUG, .SEC_LINK_STAT_REKEY, .SEC_LINK_STAT_REKEYS]) ++ onFam .guard (errFields ++ fCnt ++
      [.BLK_STAT_READY, .GDS_DEVICE_BY_SW, .GDS_DEVICE_CLASS, .GDS_DEVICE_HOLD, .GDS_DEVICE_MERGED, .GDS_DEVICE_STATE,
      .GDS_DEVICE_WINDOW, .GDS_FACE_BY_SW, .GDS_FACE_CLASS, .GDS_FACE_HOLD, .GDS_FACE_MERGED, .GDS_FACE_STATE, .GDS_FACE_WINDOW,
      .GDS_INST_BY_SW, .GDS_INST_CLASS, .GDS_INST_HOLD, .GDS_INST_MERGED, .GDS_INST_STATE, .GDS_INST_WINDOW, .GDS_LANE_BY_SW,
      .GDS_LANE_CLASS, .GDS_LANE_HOLD, .GDS_LANE_MERGED, .GDS_LANE_STATE, .GDS_LANE_WINDOW, .GDS_LINK_BY_SW, .GDS_LINK_CLASS,
      .GDS_LINK_HOLD, .GDS_LINK_MERGED, .GDS_LINK_STATE, .GDS_LINK_WINDOW, .GDS_PORT_BY_SW, .GDS_PORT_CLASS, .GDS_PORT_HOLD,
      .GDS_PORT_MERGED, .GDS_PORT_STATE, .GDS_PORT_WINDOW, .GUARD_ELOG_CTRL_LOST, .GUARD_HALT_CAUSE_BIT, .GUARD_HALT_CAUSE_BLOCK,
      .GUARD_HALT_CAUSE_CAUSE, .GUARD_HALT_CAUSE_DINST, .GUARD_HALT_CAUSE_VALID]) ++ onFam .lane [.BLK_STAT_READY,
      .LANE_INJ_CTRL_ONE_SHOT, .LANE_RATE_CFG_RATE_NOW, .LANE_REST_CTRL_IN_REST, .LANE_STAT_ALIGN_LOCK, .LANE_STAT_CDR_LOCK,
      .LANE_STAT_EQ_DONE, .LANE_STAT_EQ_FAIL, .LANE_STAT_EXIT_FAIL, .LANE_STAT_FAILED, .LANE_STAT_FEC_LOCK, .LANE_STAT_RX_READY,
      .LANE_STAT_STATE, .LANE_TX_TAPS_C0, .LANE_TX_TAPS_POST, .LANE_TX_TAPS_PRE] ++ onFam .pwrg [.BLK_STAT_READY] ++ onFam .pwr
      [.BLK_STAT_READY] ++ onFam .core (errFields ++ fCnt ++ [.BLK_STAT_READY, .CORE_WM_STAT_WM_CROSS_CNT, .CORE_WM_STAT_WM_EVENT,
      .CORE_WM_STAT_WM_LEVEL]) ++ onFam .route (errFields ++ fCnt ++ [.BLK_STAT_READY, .ROUTE_TURN_CTRL_ARM,
      .ROUTE_TURN_CTRL_STATUS]) ++ onFam .bridge (errFields ++ fCnt ++ [.BLK_STAT_READY, .BRIDGE_FAB_NBR_PARTNER_PORT,
      .BRIDGE_FAB_NBR_PARTNER_SW, .BRIDGE_FAB_NBR_VALID, .BRIDGE_LOCK_STAT_HOLDER, .BRIDGE_LOCK_STAT_LOCKED,
      .BRIDGE_PROOF_WM_STAT_WM_CROSS_CNT, .BRIDGE_PROOF_WM_STAT_WM_EVENT, .BRIDGE_PROOF_WM_STAT_WM_LEVEL]) ++ onFam .mbox
      [.BLK_STAT_READY] ++ onFam .port [.BLK_STAT_READY, .PORT_LINK_STAT_ENC, .PORT_LINK_STAT_FLIT, .PORT_LINK_STAT_KEY_PHASE,
      .PORT_LINK_STAT_LANES_GOOD, .PORT_LINK_STAT_RATE_NOW, .PORT_LINK_STAT_STATE, .PORT_LINK_STAT_WIDTH_NOW,
      .PORT_REPLAY_CNT_CONSEC] ++ onFam .face (errFields ++ fCnt ++ [.BLK_STAT_READY, .FACE_BIND_STATE, .FACE_PM_STAT_LINK_PM,
      .FACE_PRES_SHOWN]) ++ onFam .schedg (fCnt ++ [.BLK_STAT_READY]) ++ onFam .sched [.BLK_STAT_READY, .SCHED_HATCH_CTRL_ARM,
      .SCHED_HATCH_STAT_A_STATE, .SCHED_HATCH_STAT_B_STATE] ++ onFam .inst [.BLK_STAT_READY] ++ onFam .moverg [.BLK_STAT_READY] ++
      onFam .eng [.BLK_STAT_READY], cnts := [.sec, .guard, .core, .route, .bridge, .face, .schedg], vars := [.alignMiss,
      .alignSeen, .authDebug, .authStep, .badCw, .cbsAt, .cbsCr, .crAdv, .crInit, .crUsed, .elogSeq, .eqTimeouts, .haltRel,
      .hatchAt, .hatchLate, .ideGo, .ideKey, .injAlign, .lockDest, .lsSeen, .mkDue, .mkRx, .mkTx, .msixPend, .nakSent, .nextKey,
      .ownReq, .paramGot, .paramVal, .partnerAspm, .partnerMax, .partnerReady, .partnerRest, .pcieAcked, .pcieRev, .pcieSent,
      .peerReq, .pktId, .polAt, .polC, .polP, .portFenced, .postStat, .preStat, .presBar, .presBarSet, .presBase, .presCmd,
      .presInfo, .presRom, .presetStat, .redAvg, .rekeying, .replayAt, .restHeld, .restPend, .restSince, .rxKey, .rxNum, .rxRest,
      .rxSeq, .rxUnacked, .sizing, .skewCnt, .slotCtl, .slotStat, .stipCnt, .stipSeq, .tagEp, .turnAt, .txCount, .txKey, .txLimit,
      .txNum, .txSeq, .txUsed, .wcDone, .wcFrom, .wcId, .wcOldWidth, .wcSet, .widening], fifos := [.elog, .faceWrote, .missLog,
      .viWrote], parts := [.buf, .free, .fwd, .greqs, .out, .prefs, .replay, .slots, .streams, .waiting] }

theorem execRomChecksDone_within (ok : Bool) {σ τ : State} (hw : σ.wf) (he : execRomChecksDone ok σ = .next τ) : Within Foot.execRomChecksDone σ τ := by
  have hF := Foot.le_refl Foot.execRomChecksDone
  refine answer_within ?_ hw he
  clear he hw
  repeat' first
      | ((with_reducible refine forEach_mem_in fun pg m => ?_); exact wr_in (hdr_mem (commonPages_common (List.mem_filter.1 m).1) (by decide +kernel)) (le_regs hF ((show ∀ k : Fam, k ≠ .tenant ∧ k ≠ .ring → (k, Fld.BLK_STAT_READY) ∈ Foot.execRomChecksDone.regs by intro k; cases k <;> decide +kernel) _ (Fam.of_common (commonPages_common (List.mem_filter.1 m).1)))))
      | (with_reducible first | exact all_nil_in | refine all_cons_in ?_ ?_ | refine look_in fun _ => ?_ | refine when_in ?_ | refine ite_in ?_ ?_ | refine forEach_in fun _ => ?_)
      | ((with_reducible refine put_in ?_); (· exact le_vars hF (by decide +kernel)))
      | ((with_reducible refine wr_in ?_ ?_); (· first | exact hdr_mem rfl (by decide +kernel)); (· first | exact le_regs hF (show (Fam.bridge, _) ∈ _ by decide +kernel) | exact le_regs hF (show (Fam.core, _) ∈ _ by decide +kernel) | exact le_regs hF (show (Fam.eng, _) ∈ _ by decide +kernel) | exact le_regs hF (show (Fam.face, _) ∈ _ by decide +kernel) | exact le_regs hF (show (Fam.glb, _) ∈ _ by decide +kernel) | exact le_regs hF (show (Fam.guard, _) ∈ _ by decide +kernel) | exact le_regs hF (show (Fam.inst, _) ∈ _ by decide +kernel) | exact le_regs hF (show (Fam.lane, _) ∈ _ by decide +kernel) | exact le_regs hF (show (Fam.mbox, _) ∈ _ by decide +kernel) | exact le_regs hF (show (Fam.mgmt, _) ∈ _ by decide +kernel) | exact le_regs hF (show (Fam.moverg, _) ∈ _ by decide +kernel) | exact le_regs hF (show (Fam.port, _) ∈ _ by decide +kernel) | exact le_regs hF (show (Fam.pwr, _) ∈ _ by decide +kernel) | exact le_regs hF (show (Fam.pwrg, _) ∈ _ by decide +kernel) | exact le_regs hF (show (Fam.route, _) ∈ _ by decide +kernel) | exact le_regs hF (show (Fam.sched, _) ∈ _ by decide +kernel) | exact le_regs hF (show (Fam.schedg, _) ∈ _ by decide +kernel) | exact le_regs hF (show (Fam.sec, _) ∈ _ by decide +kernel)))
      | ((with_reducible refine safeHaltNow_in ?_ ..); (· exact Foot.le_trans (Foot.le_of_runs (by decide +kernel)) hF))
      | split
      | dsimp only

def Foot.execFirmwareSlotSelect : Foot :=
  { regs := onFam .glb [.GLB_DEV_STATE_BOOT_ERR, .GLB_DEV_STATE_STATE] ++ onFam .sec [.SEC_GRANT_MASK, .SEC_IDE_STAT_DEV_AUTH,
      .SEC_IDE_STAT_FAIL, .SEC_IDE_STAT_LINK_ID, .SEC_IDE_STAT_LINK_KSET, .SEC_IDE_STAT_LINK_SECURE, .SEC_IDE_STAT_SEL_SECURE,
      .SEC_IDE_STAT_SEL_VALID, .SEC_LINK_STAT_AUTH_OK, .SEC_LINK_STAT_AUTH_STATUS, .SEC_LINK_STAT_PARTNER_DEBUG,
      .SEC_LINK_STAT_REKEY, .SEC_LINK_STAT_REKEYS] ++ onFam .guard (errFields ++ fCnt ++ [.GUARD_ELOG_CTRL_LOST]) ++ onFam .lane
      (errFields ++ [.LANE_INJ_CTRL_ONE_SHOT, .LANE_OCT_STAT_A_LOCK, .LANE_OCT_STAT_B_LOCK, .LANE_RATE_CFG_MODE,
      .LANE_RATE_CFG_PCIE_MAX, .LANE_RATE_CFG_RATE_NOW, .LANE_REST_CTRL_IN_REST, .LANE_RX_STAT_CTLE, .LANE_RX_STAT_EYE_H,
      .LANE_RX_STAT_EYE_V, .LANE_RX_STAT_SNR, .LANE_STAT_ALIGN_LOCK, .LANE_STAT_CDR_LOCK, .LANE_STAT_EQ_DONE, .LANE_STAT_EQ_FAIL,
      .LANE_STAT_EXIT_FAIL, .LANE_STAT_FAILED, .LANE_STAT_FEC_LOCK, .LANE_STAT_LOGICAL, .LANE_STAT_RX_READY, .LANE_STAT_SIG_DET,
      .LANE_STAT_STATE, .LANE_TX_TAPS_C0, .LANE_TX_TAPS_POST, .LANE_TX_TAPS_PRE]) ++ onFam .pwr [.PWR_CH_CFG_EN,
      .PWR_CH_STAT_STATE, .PWR_CH_STAT_WARN] ++ onFam .core (errFields ++ fCnt ++ [.CORE_WM_STAT_WM_CROSS_CNT,
      .CORE_WM_STAT_WM_EVENT, .CORE_WM_STAT_WM_LEVEL]) ++ onFam .route [.ROUTE_GEN_GENERATION, .ROUTE_LIVE_SEL_LIVE,
      .ROUTE_LIVE_SEL_P0_STATE, .ROUTE_LIVE_SEL_P0_VERIFIED, .ROUTE_LIVE_SEL_P1_STATE, .ROUTE_LIVE_SEL_P1_VERIFIED] ++ onFam
      .bridge [.BRIDGE_FAB_NBR_MISWIRED, .BRIDGE_FAB_NBR_PARTNER_PORT, .BRIDGE_FAB_NBR_PARTNER_SW, .BRIDGE_FAB_NBR_VALID,
      .BRIDGE_LOCK_STAT_HOLDER, .BRIDGE_LOCK_STAT_LOCKED] ++ onFam .mbox fCnt ++ onFam .port (errFields ++ [.BLK_CTRL_SOFT_RESET,
      .CNT_CLR_CLR, .CNT_HI_HIGH, .CNT_LO_LOW, .PORT_CFG_APPLY, .PORT_CFG_CYC_RX, .PORT_CFG_CYC_TX, .PORT_CFG_ENC_REQ,
      .PORT_CFG_FLIT_BELOW, .PORT_CFG_MIN_WIDTH, .PORT_CFG_REFUSED, .PORT_CFG_ROLE, .PORT_CFG_SEP_REF, .PORT_CFG_WIDTH,
      .PORT_CONTAIN_CONTAIN, .PORT_CONTAIN_RELEASE, .PORT_LINK_CTRL_LINK_RETIRE, .PORT_LINK_CTRL_RETRAIN, .PORT_LINK_STAT_ABSENT,
      .PORT_LINK_STAT_ENC, .PORT_LINK_STAT_FLIT, .PORT_LINK_STAT_KEY_PHASE, .PORT_LINK_STAT_LANES_GOOD, .PORT_LINK_STAT_RATE_NOW,
      .PORT_LINK_STAT_STATE, .PORT_LINK_STAT_WIDTH_NOW, .PORT_REPLAY_CNT_CONSEC]) ++ onFam .face (errFields ++ fCnt ++
      [.FACE_BIND_ENABLE, .FACE_BIND_MGMT_GRANT, .FACE_BIND_PORT, .FACE_BIND_STATE, .FACE_PM_STAT_LINK_PM]) ++ onFam .sched
      [.INT_CAUSE_ERR, .INT_CAUSE_CNT_SAT, .INT_CAUSE_BLK_INT, .BLK_CTRL_ENABLE, .BLK_CTRL_QUIESCE, .BLK_CTRL_SOFT_RESET,
      .BLK_STAT_QUIESCED, .BLK_STAT_READY, .CNT_CLR_CLR, .CNT_HI_HIGH, .CNT_LO_LOW, .CNT_SAT_EN_SAT_EN, .CNT_SEL_AUTO_INC,
      .CNT_SEL_INDEX, .ERR_MASK_MASK, .INT_EN_BLK_INT, .INT_EN_CNT_SAT, .INT_EN_ERR, .INT_ROUTE_FACE, .INT_ROUTE_TARGET,
      .INT_ROUTE_VECTOR, .SCHED_CBS_CREDIT_CREDIT, .SCHED_CBS_SLOPE_EN, .SCHED_CBS_SLOPE_HI_CREDIT, .SCHED_CBS_SLOPE_IDLE_SLOPE,
      .SCHED_DRR_QUANTUM_PRIO, .SCHED_DRR_QUANTUM_QUANTUM, .SCHED_HATCH_A_DW1, .SCHED_HATCH_A_GATES, .SCHED_HATCH_A_PHASE,
      .SCHED_HATCH_A_RSV0, .SCHED_HATCH_B_DW1, .SCHED_HATCH_B_GATES, .SCHED_HATCH_B_PHASE, .SCHED_HATCH_B_RSV0,
      .SCHED_HATCH_CTRL_ARM, .SCHED_HATCH_CTRL_ARM_LIST, .SCHED_HATCH_CTRL_DISARM, .SCHED_HATCH_CTRL_FB_GATES,
      .SCHED_HATCH_CTRL_FB_MODE, .SCHED_HATCH_CTRL_LATE_POLICY, .SCHED_HATCH_CTRL_NEXT, .SCHED_HATCH_CTRL_STATUS,
      .SCHED_HATCH_CYCLE_CYCLE, .SCHED_HATCH_CYCLE_CYCLE_HI, .SCHED_HATCH_GEN_GENERATION, .SCHED_HATCH_LEN_COUNT_A,
      .SCHED_HATCH_LEN_COUNT_B, .SCHED_HATCH_SIG_DW, .SCHED_HATCH_START_CYCLE, .SCHED_HATCH_START_CYCLE_HI,
      .SCHED_HATCH_STAT_ACTIVE, .SCHED_HATCH_STAT_ANY_ACTIVE, .SCHED_HATCH_STAT_A_STATE, .SCHED_HATCH_STAT_A_VERIFIED,
      .SCHED_HATCH_STAT_B_STATE, .SCHED_HATCH_STAT_B_VERIFIED, .SCHED_HATCH_STAT_ENTRY_NOW, .SCHED_HATCH_STAT_GATES_NOW,
      .SCHED_HATCH_STAT_IN_FALLBACK, .SCHED_HATCH_STAT_LATE, .SCHED_HATCH_VERIFY_BUSY, .SCHED_HATCH_VERIFY_GO,
      .SCHED_HATCH_VERIFY_INDEX, .SCHED_HATCH_VERIFY_LIST, .SCHED_HATCH_VERIFY_STATUS, .SCHED_PORT_CFG_FLOW_QUANTUM,
      .SCHED_PORT_CFG_WAKE_LEAD, .SCRATCH_SCRATCH] ++ onFam .inst (fCnt ++ [.INST_BIND_GO, .INST_STAT_BOUND, .INST_STAT_FENCED,
      .INST_STAT_TDI]) ++ onFam .ring [.MOVER_RING_BASE_ADDR, .MOVER_RING_BASE_ADDR_HI, .MOVER_RING_CFG_ENABLE,
      .MOVER_RING_CFG_ENGINE, .MOVER_RING_CFG_KIND, .MOVER_RING_CFG_OWNER, .MOVER_RING_CFG_OWN_KIND, .MOVER_RING_CFG_SIZE_LOG2,
      .MOVER_RING_CFG_STOP_ON_ERR, .MOVER_RING_CPL_BASE_ADDR, .MOVER_RING_CPL_BASE_ADDR_HI, .MOVER_RING_CPL_CTRL_COAL_US,
      .MOVER_RING_CPL_CTRL_IRQ_EN, .MOVER_RING_CPL_CTRL_MODE, .MOVER_RING_CPL_CTRL_VECTOR, .MOVER_RING_CPL_FIFO_DW,
      .MOVER_RING_CPL_HEAD_CPL_HEAD, .MOVER_RING_CPL_TAIL_CPL_TAIL, .MOVER_RING_CPL_TAIL_PHASE, .MOVER_RING_HEAD_HEAD,
      .MOVER_RING_STAT_LAST_INDEX, .MOVER_RING_STAT_LAST_STATUS, .MOVER_RING_STAT_RESUME, .MOVER_RING_STAT_STATE,
      .MOVER_RING_TAIL_TAIL], cnts := [.guard, .core, .mbox, .face, .inst], vars := [.alignMiss, .alignSeen, .appliedSlot,
      .authDebug, .authStep, .badCw, .coalDue, .coalOn, .crAdv, .crInit, .crUsed, .curSet, .dirFlash, .dirSeq, .dirSlot, .elogSeq,
      .eqTimeouts, .fetchAt, .fetchN, .fetchTag, .fwSel, .hatchAt, .hatchLate, .ideGo, .ideKey, .injAlign, .laneNum, .liveSig,
      .lsSeen, .meDef, .mkDue, .mkRx, .mkTx, .msixAddr, .msixData, .msixOpen, .msixPend, .nakSent, .nextKey, .ownReq, .paramGot,
      .paramVal, .partnerAspm, .partnerMax, .partnerReady, .partnerRest, .pcieAcked, .pcieRev, .pcieSent, .peerReq, .plate,
      .plateLost, .postStat, .preStat, .presetStat, .pwCause, .pwSwitch, .rehome, .rekeying, .replayAt, .restHeld, .restPend,
      .restSince, .rxKey, .rxNum, .rxRest, .rxSeq, .rxUnacked, .skewCnt, .slotState, .slotTries, .txCount, .txKey, .txLimit,
      .txNum, .txSeq, .txUsed, .unbindBy, .viSlot, .wcCount, .wcDone, .wcFrom, .wcId, .wcOldWidth, .wcSet, .widening], fifos :=
      [.cplFifo, .elog, .faceWrote, .notices, .ringWrote, .viWrote], parts := [.buf, .coders, .descs, .greqs, .out, .replay,
      .slots, .streams, .waiting] }

theorem execFirmwareSlotSelect_within (sfdp : BitVec 2) (crc : BitVec 4) (hA hB : ImgHeader) {σ τ : State} (hw : σ.wf) (he : execFirmwareSlotSelect sfdp crc hA hB σ = .next τ) : Within Foot.execFirmwareSlotSelect σ τ := by
  have hF := Foot.le_refl Foot.execFirmwareSlotSelect
  refine answer_within ?_ hw he
  clear he hw
  repeat' first
      | (with_reducible first | exact all_nil_in | refine all_cons_in ?_ ?_ | refine look_in fun _ => ?_ | refine when_in ?_ | refine ite_in ?_ ?_)
      | ((with_reducible refine dirLoad_in ?_ ..); (· exact Foot.le_trans (Foot.le_of_runs (by decide +kernel)) hF))
      | ((with_reducible refine romRecovery_in ?_ ..); (· exact Foot.le_trans (Foot.le_of_runs (by decide +kernel)) hF))
      | ((with_reducible refine romSelect_in ?_ ..); (· exact Foot.le_trans (Foot.le_of_runs (by decide +kernel)) hF))
      | split
      | dsimp only

def Foot.execFirmwareStart : Foot :=
  { regs := onFam .glb [.GLB_DEV_STATE_FW_SLOT, .GLB_DEV_STATE_STATE] ++ onFam .mgmt [.MGMT_FW_STAT_STATE] ++ onFam .mbox (fCnt ++
      [.MBOX_SEM_PEEK_HELD, .MBOX_SEM_PEEK_OWNER]) ++ onFam .face fCnt, cnts := [.mbox, .face], vars := [.fwEpoch, .fwSel,
      .fwUnconf, .msixPend, .slotRan, .wdAt], fifos := [.faceWrote, .viWrote], parts := [.out] }

theorem execFirmwareStart_within  {σ τ : State} (hw : σ.wf) (he : execFirmwareStart σ = .next τ) : Within Foot.execFirmwareStart σ τ := by
  have hF := Foot.le_refl Foot.execFirmwareStart
  refine answer_within ?_ hw he
  clear he hw
  repeat' first
      | (with_reducible first | exact all_nil_in | refine all_cons_in ?_ ?_ | refine look_in fun _ => ?_ | refine when_in ?_ | refine ite_in ?_ ?_)
      | ((with_reducible refine put_in ?_); (· exact le_vars hF (by decide +kernel)))
      | ((with_reducible refine wr_in ?_ ?_); (· first | exact own_mem (show _ ∈ tabGLB by decide +kernel) | exact own_mem (show _ ∈ tabMGMT0 by decide +kernel)); (· first | exact le_regs hF (show (Fam.glb, _) ∈ _ by decide +kernel) | exact le_regs hF (show (Fam.mgmt, _) ∈ _ by decide +kernel)))
      | ((with_reducible refine firmwareStarts_in ?_ ..); (· exact Foot.le_trans (Foot.le_of_runs (by decide +kernel)) hF))
      | ((with_reducible refine toDevice_in ?_ ..); (· exact Foot.le_trans (Foot.le_of_runs (by decide +kernel)) hF))
      | split
      | dsimp only

def Foot.execFwConfirm : Foot :=
  { regs := onFam .mgmt errFields ++ onFam .guard (errFields ++ fCnt ++ [.GUARD_ELOG_CTRL_LOST]) ++ onFam .face fCnt, cnts :=
      [.guard, .face], vars := [.aerStamp, .arbLast, .dirSeq, .dirSlot, .elogSeq, .fwUnconf, .msixPend, .slotRan, .slotState],
      fifos := [.elog, .faceWrote, .viWrote], parts := [.arb, .greqs, .out] }

theorem execFwConfirm_within (st : Stamp) (v : Word) {σ τ : State} (hw : σ.wf) (he : execFwConfirm st v σ = .next τ) : Within Foot.execFwConfirm σ τ := by
  have hF := Foot.le_refl Foot.execFwConfirm
  refine answer_within ?_ hw he
  clear he hw
  repeat' first
      | ((with_reducible refine granted_in ?_ ?_ _ _ ?_); (· rfl); (· first | exact Foot.le_trans (F := Foot.access .mgmt) (by decide +kernel) hF); skip)
      | ((with_reducible refine fwSlotWrite_in ?_ ..); (· exact Foot.le_trans (Foot.le_of_runs (by decide +kernel)) hF))
      | split
      | dsimp only

def Foot.execConfirmTimeout : Foot :=
  { regs := onFam .glb [.GLB_DEV_STATE_BOOT_ERR] ++ onFam .mgmt (errFields ++ fCnt ++ [.MGMT_FW_STAT_RESTARTS, .MGMT_FW_STAT_STATE])
      ++ onFam .guard (errFields ++ fCnt ++ [.GUARD_ELOG_CTRL_LOST]) ++ onFam .mbox (fCnt ++ [.MBOX_SEM_PEEK_HELD,
      .MBOX_SEM_PEEK_OWNER]) ++ onFam .face fCnt, cnts := [.mgmt, .guard, .mbox, .face], vars := [.elogSeq, .fwEpoch, .fwSel,
      .fwUnconf, .msixPend], fifos := [.elog, .faceWrote, .fwTimes, .viWrote], parts := [.greqs, .out] }

theorem execConfirmTimeout_within  {σ τ : State} (hw : σ.wf) (he : execConfirmTimeout σ = .next τ) : Within Foot.execConfirmTimeout σ τ := by
  have hF := Foot.le_refl Foot.execConfirmTimeout
  refine answer_within ?_ hw he
  clear he hw
  repeat' first
      | (with_reducible first | exact all_nil_in | refine all_cons_in ?_ ?_ | refine look_in fun _ => ?_ | refine when_in ?_)
      | ((with_reducible refine bootErr_in ?_ ..); (· exact Foot.le_trans (Foot.le_of_runs (by decide +kernel)) hF))
      | ((with_reducible refine fwRestart_in ?_ ..); (· exact Foot.le_trans (Foot.le_of_runs (by decide +kernel)) hF))
      | split
      | dsimp only

def Foot.execQuietEntry : Foot :=
  { regs := onFam .glb (errFields ++ [.GLB_DEV_STATE_STATE, .GLB_QUIET_CTRL_ENTER, .GLB_QUIET_CTRL_KEY, .GLB_QUIET_CTRL_WAKE_FPERST,
      .GLB_QUIET_CTRL_WAKE_PRSNT, .GLB_QUIET_CTRL_WAKE_TIMER_EN]) ++ onFam .guard (errFields ++ fCnt ++ [.GDS_DEVICE_BY_SW,
      .GDS_DEVICE_CLASS, .GDS_DEVICE_HOLD, .GDS_DEVICE_MERGED, .GDS_DEVICE_STATE, .GDS_DEVICE_WINDOW, .GDS_FACE_BY_SW,
      .GDS_FACE_CLASS, .GDS_FACE_HOLD, .GDS_FACE_MERGED, .GDS_FACE_STATE, .GDS_FACE_WINDOW, .GDS_INST_BY_SW, .GDS_INST_CLASS,
      .GDS_INST_HOLD, .GDS_INST_MERGED, .GDS_INST_STATE, .GDS_INST_WINDOW, .GDS_LANE_BY_SW, .GDS_LANE_CLASS, .GDS_LANE_HOLD,
      .GDS_LANE_MERGED, .GDS_LANE_STATE, .GDS_LANE_WINDOW, .GDS_LINK_BY_SW, .GDS_LINK_CLASS, .GDS_LINK_HOLD, .GDS_LINK_MERGED,
      .GDS_LINK_STATE, .GDS_LINK_WINDOW, .GDS_PORT_BY_SW, .GDS_PORT_CLASS, .GDS_PORT_HOLD, .GDS_PORT_MERGED, .GDS_PORT_STATE,
      .GDS_PORT_WINDOW, .GUARD_ELOG_CTRL_LOST]) ++ onFam .pwr [.PWR_CH_STAT_STATE, .PWR_CH_STAT_WARN] ++ onFam .port
      [.BLK_CTRL_QUIESCE] ++ onFam .face (fCnt ++ [.FACE_PRES_SHOWN]), cnts := [.guard, .face], vars := [.aerStamp, .arbLast,
      .elogSeq, .msixPend, .presBar, .presBarSet, .presBase, .presCmd, .presInfo, .presRom, .pwCause, .pwSwitch, .quietRun,
      .sizing, .slotCtl, .slotStat, .wakeCtl, .wakeFaces], fifos := [.elog, .faceWrote, .viWrote], parts := [.greqs, .out] }

theorem execQuietEntry_within (st : Stamp) (v : Word) {σ τ : State} (hw : σ.wf) (he : execQuietEntry st v σ = .next τ) : Within Foot.execQuietEntry σ τ := by
  have hF := Foot.le_refl Foot.execQuietEntry
  refine answer_within ?_ hw he
  clear he hw
  repeat' first
      | ((with_reducible refine granted_in ?_ ?_ _ _ ?_); (· rfl); (· first | exact Foot.le_trans (F := Foot.access .glb) (by decide +kernel) hF); skip)
      | ((with_reducible refine quietCtrlWrite_in ?_ ..); (· exact Foot.le_trans (Foot.le_of_runs (by decide +kernel)) hF))
      | split
      | dsimp only

def Foot.execQuietChannelsOff : Foot :=
  { regs := onFam .guard (errFields ++ fCnt ++ [.GUARD_ELOG_CTRL_LOST]) ++ onFam .pwr (errFields ++ fCnt ++ [.INT_CAUSE_BLK_INT,
      .BLK_CTRL_QUIESCE, .BLK_CTRL_SOFT_RESET, .BLK_STAT_QUIESCED, .BLK_STAT_READY, .CNT_CLR_CLR, .CNT_HI_HIGH, .CNT_LO_LOW,
      .INT_EN_BLK_INT, .INT_EN_CNT_SAT, .INT_EN_ERR, .INT_ROUTE_FACE, .INT_ROUTE_TARGET, .INT_ROUTE_VECTOR, .PWR_CH_CFG_BIND_EN,
      .PWR_CH_CFG_CLEAR, .PWR_CH_CFG_EN, .PWR_CH_CFG_INS_DELAY, .PWR_CH_CFG_PORT, .PWR_CH_CFG_WARN_LEAD, .PWR_CH_STAT_ACTIVE_B,
      .PWR_CH_STAT_A_OK, .PWR_CH_STAT_B_OK, .PWR_CH_STAT_LAST_CUT, .PWR_CH_STAT_LIMIT, .PWR_CH_STAT_PG, .PWR_CH_STAT_RETRIES_LEFT,
      .PWR_CH_STAT_REV_BLOCK, .PWR_CH_STAT_SEATED, .PWR_CH_STAT_STATE, .PWR_CH_STAT_WARN, .PWR_FAULT_TIMER_RETRY_COUNT,
      .PWR_FAULT_TIMER_TIMER, .PWR_FEED_SEL_DEAD_US, .PWR_FEED_SEL_FEED_A_EN, .PWR_FEED_SEL_FEED_B_EN, .PWR_FEED_SEL_FORCE,
      .PWR_FEED_SEL_PRIO, .PWR_FEED_SEL_REVERT, .PWR_FEED_SEL_WARN_ON_SWITCH, .PWR_LIMIT_ILIM, .PWR_LIMIT_RAMP,
      .PWR_LIMIT_TFET_MAX, .PWR_SNAP_CYCLE, .PWR_SNAP_IOUT, .PWR_SNAP_IPEAK, .PWR_SNAP_TFET, .PWR_SNAP_VFA, .PWR_SNAP_VFB,
      .PWR_SNAP_VOUT, .PWR_TELEM_IOUT, .PWR_TELEM_IPEAK, .PWR_TELEM_TFET, .PWR_TELEM_VFA, .PWR_TELEM_VFB, .PWR_TELEM_VOUT,
      .PWR_UVOV_OV, .PWR_UVOV_UV]) ++ onFam .face fCnt, cnts := [.guard, .pwr, .face], vars := [.elogSeq, .msixPend, .pwCause,
      .pwDead, .pwEnergy, .pwFault, .pwIdle, .pwReset, .pwSwitch], fifos := [.elog, .faceWrote, .viWrote], parts := [.greqs, .out]
      }

theorem execQuietChannelsOff_within  {σ τ : State} (hw : σ.wf) (he : execQuietChannelsOff σ = .next τ) : Within Foot.execQuietChannelsOff σ τ := by
  have hF := Foot.le_refl Foot.execQuietChannelsOff
  refine always_within ?_ hw he
  clear he hw
  repeat' first
      | (with_reducible first | exact all_nil_in | refine all_cons_in ?_ ?_ | refine look_in fun _ => ?_ | refine when_in ?_ | refine forBelow_in fun _ => ?_)
      | ((with_reducible refine chanTo_in ?_ ..); (· exact Foot.le_trans (Foot.le_of_runs (by decide +kernel)) hF))
      | ((with_reducible refine cut_in ?_ ..); (· exact Foot.le_trans (Foot.le_of_runs (by decide +kernel)) hF))
      | split
      | dsimp only

def Foot.execFwakeReleaseTimeout : Foot :=
  { regs := onFam .face [.FACE_PM_STAT_FWAKE], vars := [.wakeFaces] }

theorem execFwakeReleaseTimeout_within  {σ τ : State} (hw : σ.wf) (he : execFwakeReleaseTimeout σ = .next τ) : Within Foot.execFwakeReleaseTimeout σ τ := by
  have hF := Foot.le_refl Foot.execFwakeReleaseTimeout
  refine always_within ?_ hw he
  clear he hw
  repeat' first
      | (with_reducible first | exact all_nil_in | refine all_cons_in ?_ ?_ | refine look_in fun _ => ?_ | refine when_in ?_ | refine forEach_in fun _ => ?_)
      | ((with_reducible refine put_in ?_); (· exact le_vars hF (by decide +kernel)))
      | ((with_reducible refine wr_in ?_ ?_); (· first | exact own_mem (show _ ∈ tabFACE by decide +kernel)); (· first | exact le_regs hF (show (Fam.face, _) ∈ _ by decide +kernel)))
      | split
      | dsimp only

def Foot.execThermalSample : Foot :=
  { regs := onFam .glb [.GLB_DEV_STATE_STATE] ++ onFam .mgmt (errFields ++ [.MGMT_TEMP_T, .MGMT_TEMP_VALID,
      .MGMT_THERM_STAT_HOTTEST, .MGMT_THERM_STAT_HOT_SENSOR, .MGMT_THERM_STAT_STEP, .MGMT_THERM_STAT_VALID_COUNT]) ++ onFam .sec
      (errFields ++ fCnt ++ [.SEC_IDE_STAT_DEV_AUTH, .SEC_IDE_STAT_LINK_ID, .SEC_IDE_STAT_LINK_KSET, .SEC_IDE_STAT_LINK_SECURE,
      .SEC_IDE_STAT_SEL_SECURE, .SEC_IDE_STAT_SEL_VALID, .SEC_LINK_STAT_AUTH_OK, .SEC_LINK_STAT_AUTH_STATUS,
      .SEC_LINK_STAT_PARTNER_DEBUG, .SEC_LINK_STAT_REKEY, .SEC_LINK_STAT_REKEYS]) ++ onFam .guard (errFields ++ fCnt ++
      [.GDS_DEVICE_BY_SW, .GDS_DEVICE_CLASS, .GDS_DEVICE_HOLD, .GDS_DEVICE_MERGED, .GDS_DEVICE_STATE, .GDS_DEVICE_WINDOW,
      .GDS_FACE_BY_SW, .GDS_FACE_CLASS, .GDS_FACE_HOLD, .GDS_FACE_MERGED, .GDS_FACE_STATE, .GDS_FACE_WINDOW, .GDS_INST_BY_SW,
      .GDS_INST_CLASS, .GDS_INST_HOLD, .GDS_INST_MERGED, .GDS_INST_STATE, .GDS_INST_WINDOW, .GDS_LANE_BY_SW, .GDS_LANE_CLASS,
      .GDS_LANE_HOLD, .GDS_LANE_MERGED, .GDS_LANE_STATE, .GDS_LANE_WINDOW, .GDS_LINK_BY_SW, .GDS_LINK_CLASS, .GDS_LINK_HOLD,
      .GDS_LINK_MERGED, .GDS_LINK_STATE, .GDS_LINK_WINDOW, .GDS_PORT_BY_SW, .GDS_PORT_CLASS, .GDS_PORT_HOLD, .GDS_PORT_MERGED,
      .GDS_PORT_STATE, .GDS_PORT_WINDOW, .GUARD_ELOG_CTRL_LOST, .GUARD_HALT_CAUSE_BIT, .GUARD_HALT_CAUSE_BLOCK,
      .GUARD_HALT_CAUSE_CAUSE, .GUARD_HALT_CAUSE_DINST, .GUARD_HALT_CAUSE_VALID]) ++ onFam .lane [.LANE_INJ_CTRL_ONE_SHOT,
      .LANE_RATE_CFG_RATE_NOW, .LANE_REST_CTRL_IN_REST, .LANE_STAT_ALIGN_LOCK, .LANE_STAT_CDR_LOCK, .LANE_STAT_EQ_DONE,
      .LANE_STAT_EQ_FAIL, .LANE_STAT_EXIT_FAIL, .LANE_STAT_FAILED, .LANE_STAT_FEC_LOCK, .LANE_STAT_RX_READY, .LANE_STAT_STATE,
      .LANE_TX_TAPS_C0, .LANE_TX_TAPS_POST, .LANE_TX_TAPS_PRE] ++ onFam .core (errFields ++ fCnt ++ [.CORE_WM_STAT_WM_CROSS_CNT,
      .CORE_WM_STAT_WM_EVENT, .CORE_WM_STAT_WM_LEVEL]) ++ onFam .route (errFields ++ fCnt ++ [.ROUTE_TURN_CTRL_ARM,
      .ROUTE_TURN_CTRL_STATUS]) ++ onFam .bridge (errFields ++ fCnt ++ [.BRIDGE_FAB_NBR_PARTNER_PORT, .BRIDGE_FAB_NBR_PARTNER_SW,
      .BRIDGE_FAB_NBR_VALID, .BRIDGE_LOCK_STAT_HOLDER, .BRIDGE_LOCK_STAT_LOCKED, .BRIDGE_PROOF_WM_STAT_WM_CROSS_CNT,
      .BRIDGE_PROOF_WM_STAT_WM_EVENT, .BRIDGE_PROOF_WM_STAT_WM_LEVEL]) ++ onFam .port [.PORT_LINK_STAT_ENC, .PORT_LINK_STAT_FLIT,
      .PORT_LINK_STAT_KEY_PHASE, .PORT_LINK_STAT_LANES_GOOD, .PORT_LINK_STAT_RATE_NOW, .PORT_LINK_STAT_STATE,
      .PORT_LINK_STAT_WIDTH_NOW, .PORT_REPLAY_CNT_CONSEC] ++ onFam .face (errFields ++ fCnt ++ [.FACE_BIND_STATE,
      .FACE_PM_STAT_LINK_PM, .FACE_PRES_SHOWN]) ++ onFam .schedg fCnt ++ onFam .sched [.SCHED_HATCH_CTRL_ARM,
      .SCHED_HATCH_STAT_A_STATE, .SCHED_HATCH_STAT_B_STATE], cnts := [.sec, .guard, .core, .route, .bridge, .face, .schedg], vars
      := [.alignMiss, .alignSeen, .authDebug, .authStep, .badCw, .cbsAt, .cbsCr, .crAdv, .crInit, .crUsed, .elogSeq, .eqTimeouts,
      .haltRel, .hatchAt, .hatchLate, .ideGo, .ideKey, .injAlign, .lockDest, .lsSeen, .mkDue, .mkRx, .mkTx, .msixPend, .nakSent,
      .nextKey, .ownReq, .paramGot, .paramVal, .partnerAspm, .partnerMax, .partnerReady, .partnerRest, .pcieAcked, .pcieRev,
      .pcieSent, .peerReq, .pktId, .polAt, .polC, .polP, .portFenced, .postStat, .preStat, .presBar, .presBarSet, .presBase,
      .presCmd, .presInfo, .presRom, .presetStat, .redAvg, .rekeying, .replayAt, .restHeld, .restPend, .restSince, .rxKey, .rxNum,
      .rxRest, .rxSeq, .rxUnacked, .shutdown, .sizing, .skewCnt, .slotCtl, .slotStat, .stipCnt, .stipSeq, .tagEp, .thermHold,
      .turnAt, .txCount, .txKey, .txLimit, .txNum, .txSeq, .txUsed, .wcDone, .wcFrom, .wcId, .wcOldWidth, .wcSet, .widening],
      fifos := [.elog, .faceWrote, .missLog, .viWrote], parts := [.buf, .free, .fwd, .greqs, .out, .prefs, .replay, .slots,
      .streams, .waiting] }

theorem execThermalSample_within (t : List (BitVec 16)) {σ τ : State} (hw : σ.wf) (he : execThermalSample t σ = .next τ) : Within Foot.execThermalSample σ τ := by
  have hF := Foot.le_refl Foot.execThermalSample
  refine answer_within ?_ hw he
  clear he hw
  repeat' first
      | (with_reducible first | exact all_nil_in | refine all_cons_in ?_ ?_ | refine look_in fun _ => ?_ | refine when_in ?_ | refine forBelow_in fun _ => ?_ | refine forEach_in fun _ => ?_ | refine forSome_in fun _ => ?_)
      | ((with_reducible refine put_in ?_); (· exact le_vars hF (by decide +kernel)))
      | ((with_reducible refine wr_in ?_ ?_); (· first | exact hdr_mem rfl (by decide +kernel) | exact own_mem (show _ ∈ tabGUARD0 by decide +kernel) | exact own_mem (show _ ∈ tabMGMT0 by decide +kernel)); (· first | exact le_regs hF (show (Fam.face, _) ∈ _ by decide +kernel) | exact le_regs hF (show (Fam.guard, _) ∈ _ by decide +kernel) | exact le_regs hF (show (Fam.mgmt, _) ∈ _ by decide +kernel)))
      | ((with_reducible refine raise_in ?_ ?_ ..); (· rfl); (· first | exact Foot.le_trans (F := Foot.error .mgmt) (by decide +kernel) hF))
      | ((with_reducible refine laneOff_in ?_ ..); (· exact Foot.le_trans (Foot.le_of_runs (by decide +kernel)) hF))
      | ((with_reducible refine safeHaltNow_in ?_ ..); (· exact Foot.le_trans (Foot.le_of_runs (by decide +kernel)) hF))
      | split
      | dsimp only

def Foot.execRefclkLoss : Foot :=
  { regs := onFam .sec [.SEC_IDE_STAT_DEV_AUTH, .SEC_IDE_STAT_LINK_ID, .SEC_IDE_STAT_LINK_KSET, .SEC_IDE_STAT_LINK_SECURE,
      .SEC_IDE_STAT_SEL_SECURE, .SEC_IDE_STAT_SEL_VALID, .SEC_LINK_STAT_AUTH_OK, .SEC_LINK_STAT_AUTH_STATUS,
      .SEC_LINK_STAT_PARTNER_DEBUG, .SEC_LINK_STAT_REKEY, .SEC_LINK_STAT_REKEYS] ++ onFam .guard (errFields ++ fCnt ++
      [.GUARD_ELOG_CTRL_LOST]) ++ onFam .lane [.LANE_INJ_CTRL_ONE_SHOT, .LANE_OCT_STAT_REF_A_OK, .LANE_OCT_STAT_REF_B_OK,
      .LANE_RATE_CFG_RATE_NOW, .LANE_REST_CTRL_IN_REST, .LANE_STAT_ALIGN_LOCK, .LANE_STAT_CDR_LOCK, .LANE_STAT_EQ_DONE,
      .LANE_STAT_EQ_FAIL, .LANE_STAT_EXIT_FAIL, .LANE_STAT_FAILED, .LANE_STAT_FEC_LOCK, .LANE_STAT_RX_READY, .LANE_STAT_STATE,
      .LANE_TX_TAPS_C0, .LANE_TX_TAPS_POST, .LANE_TX_TAPS_PRE] ++ onFam .core (errFields ++ fCnt ++ [.CORE_WM_STAT_WM_CROSS_CNT,
      .CORE_WM_STAT_WM_EVENT, .CORE_WM_STAT_WM_LEVEL]) ++ onFam .bridge [.BRIDGE_FAB_NBR_PARTNER_PORT, .BRIDGE_FAB_NBR_PARTNER_SW,
      .BRIDGE_FAB_NBR_VALID] ++ onFam .port [.PORT_LINK_STAT_ENC, .PORT_LINK_STAT_FLIT, .PORT_LINK_STAT_KEY_PHASE,
      .PORT_LINK_STAT_LANES_GOOD, .PORT_LINK_STAT_RATE_NOW, .PORT_LINK_STAT_STATE, .PORT_LINK_STAT_WIDTH_NOW,
      .PORT_REPLAY_CNT_CONSEC] ++ onFam .face (fCnt ++ [.FACE_BIND_STATE, .FACE_PM_STAT_LINK_PM]), cnts := [.guard, .core, .face],
      vars := [.alignMiss, .alignSeen, .authDebug, .authStep, .badCw, .crAdv, .crInit, .crUsed, .elogSeq, .eqTimeouts, .ideGo,
      .ideKey, .injAlign, .lsSeen, .mkDue, .mkRx, .mkTx, .msixPend, .nakSent, .nextKey, .ownReq, .paramGot, .paramVal,
      .partnerAspm, .partnerMax, .partnerReady, .partnerRest, .pcieAcked, .pcieRev, .pcieSent, .peerReq, .postStat, .preStat,
      .presetStat, .refLost, .rekeying, .replayAt, .restHeld, .restPend, .restSince, .rxKey, .rxNum, .rxRest, .rxSeq, .rxUnacked,
      .skewCnt, .txCount, .txKey, .txLimit, .txNum, .txSeq, .txUsed, .wcDone, .wcFrom, .wcId, .wcOldWidth, .wcSet, .widening],
      fifos := [.elog, .faceWrote, .viWrote], parts := [.buf, .greqs, .out, .replay, .streams, .waiting] }

theorem execRefclkLoss_within (k : Option (Fin 6)) {σ τ : State} (hw : σ.wf) (he : execRefclkLoss k σ = .next τ) : Within Foot.execRefclkLoss σ τ := by
  have hF := Foot.le_refl Foot.execRefclkLoss
  refine always_within ?_ hw he
  clear he hw
  repeat' first
      | (with_reducible first | exact all_nil_in | refine all_cons_in ?_ ?_ | refine look_in fun _ => ?_ | refine when_in ?_ | refine forEach_in fun _ => ?_)
      | ((with_reducible refine put_in ?_); (· exact le_vars hF (by decide +kernel)))
      | ((with_reducible refine modGreqs_in ?_); (· exact le_parts hF (by decide +kernel)))
      | ((with_reducible refine wr_in ?_ ?_); (· first | exact own_mem (show _ ∈ tabLANE by decide +kernel)); (· first | exact le_regs hF (show (Fam.lane, _) ∈ _ by decide +kernel)))
      | ((with_reducible refine linkDown_in ?_ ..); (· exact Foot.le_trans (Foot.le_of_runs (by decide +kernel)) hF))
      | (unfold refOk; split)
      | split
      | dsimp only

def Foot.execRefclkRestore : Foot :=
  { regs := onFam .sec (errFields ++ fCnt ++ [.SEC_IDE_STAT_DEV_AUTH, .SEC_IDE_STAT_LINK_ID, .SEC_IDE_STAT_LINK_KSET,
      .SEC_IDE_STAT_LINK_SECURE, .SEC_IDE_STAT_SEL_SECURE, .SEC_IDE_STAT_SEL_VALID, .SEC_LINK_STAT_AUTH_OK,
      .SEC_LINK_STAT_AUTH_STATUS, .SEC_LINK_STAT_PARTNER_DEBUG, .SEC_LINK_STAT_REKEY, .SEC_LINK_STAT_REKEYS]) ++ onFam .guard
      (errFields ++ fCnt ++ [.GDS_DEVICE_BY_SW, .GDS_DEVICE_CLASS, .GDS_DEVICE_HOLD, .GDS_DEVICE_MERGED, .GDS_DEVICE_STATE,
      .GDS_DEVICE_WINDOW, .GDS_FACE_BY_SW, .GDS_FACE_CLASS, .GDS_FACE_HOLD, .GDS_FACE_MERGED, .GDS_FACE_STATE, .GDS_FACE_WINDOW,
      .GDS_INST_BY_SW, .GDS_INST_CLASS, .GDS_INST_HOLD, .GDS_INST_MERGED, .GDS_INST_STATE, .GDS_INST_WINDOW, .GDS_LANE_BY_SW,
      .GDS_LANE_CLASS, .GDS_LANE_HOLD, .GDS_LANE_MERGED, .GDS_LANE_STATE, .GDS_LANE_WINDOW, .GDS_LINK_BY_SW, .GDS_LINK_CLASS,
      .GDS_LINK_HOLD, .GDS_LINK_MERGED, .GDS_LINK_STATE, .GDS_LINK_WINDOW, .GDS_PORT_BY_SW, .GDS_PORT_CLASS, .GDS_PORT_HOLD,
      .GDS_PORT_MERGED, .GDS_PORT_STATE, .GDS_PORT_WINDOW, .GUARD_ELOG_CTRL_LOST]) ++ onFam .lane [.LANE_INJ_CTRL_ONE_SHOT,
      .LANE_OCT_STAT_REF_A_OK, .LANE_OCT_STAT_REF_B_OK, .LANE_RATE_CFG_RATE_NOW, .LANE_REST_CTRL_IN_REST, .LANE_STAT_ALIGN_LOCK,
      .LANE_STAT_CDR_LOCK, .LANE_STAT_EQ_DONE, .LANE_STAT_EQ_FAIL, .LANE_STAT_EXIT_FAIL, .LANE_STAT_FAILED, .LANE_STAT_FEC_LOCK,
      .LANE_STAT_RX_READY, .LANE_STAT_STATE, .LANE_TX_TAPS_C0, .LANE_TX_TAPS_POST, .LANE_TX_TAPS_PRE] ++ onFam .core (errFields ++
      fCnt ++ [.CORE_WM_STAT_WM_CROSS_CNT, .CORE_WM_STAT_WM_EVENT, .CORE_WM_STAT_WM_LEVEL]) ++ onFam .route (errFields ++ fCnt) ++
      onFam .bridge (errFields ++ fCnt ++ [.BRIDGE_FAB_NBR_PARTNER_PORT, .BRIDGE_FAB_NBR_PARTNER_SW, .BRIDGE_FAB_NBR_VALID,
      .BRIDGE_LOCK_STAT_HOLDER, .BRIDGE_LOCK_STAT_LOCKED, .BRIDGE_PROOF_WM_STAT_WM_CROSS_CNT, .BRIDGE_PROOF_WM_STAT_WM_EVENT,
      .BRIDGE_PROOF_WM_STAT_WM_LEVEL]) ++ onFam .mbox (fCnt ++ [.MBOX_SEM_PEEK_HELD, .MBOX_SEM_PEEK_OWNER]) ++ onFam .port
      [.BLK_CTRL_QUIESCE, .BLK_STAT_QUIESCED, .PORT_LINK_STAT_ENC, .PORT_LINK_STAT_FLIT, .PORT_LINK_STAT_KEY_PHASE,
      .PORT_LINK_STAT_LANES_GOOD, .PORT_LINK_STAT_RATE_NOW, .PORT_LINK_STAT_STATE, .PORT_LINK_STAT_WIDTH_NOW,
      .PORT_REPLAY_CNT_CONSEC] ++ onFam .face (errFields ++ fCnt ++ [.BLK_CTRL_SOFT_RESET, .CNT_CLR_CLR, .CNT_HI_HIGH,
      .CNT_LO_LOW, .FACE_BIND_STATE, .FACE_BUS_LIMIT_NEED, .FACE_BUS_LIMIT_NO_BUS, .FACE_FLR_STAT_BUSY, .FACE_FLR_STAT_DONE,
      .FACE_FLR_STAT_TIME_US, .FACE_PM_STAT_FWAKE, .FACE_PM_STAT_LINK_PM, .FACE_PM_STAT_PME_EN, .FACE_PM_STAT_PME_STATUS,
      .FACE_PM_STAT_SE_D, .FACE_PM_STAT_USP_D, .FACE_PRES_CONFLICT, .FACE_PRES_SHOWN, .FACE_TAG_CTRL_REQ_WIDTH,
      .FACE_WIN_BASE_ADDR, .FACE_WIN_BASE_ADDR_HI, .FACE_WIN_COMMIT_GO, .FACE_WIN_COMMIT_INDEX, .FACE_WIN_COMMIT_OP,
      .FACE_WIN_COMMIT_STATUS, .FACE_WIN_SIZE_LINK_BAR, .FACE_WIN_SIZE_LINK_EN, .FACE_WIN_SIZE_LINK_PRES, .FACE_WIN_SIZE_LOG2,
      .FACE_WIN_TAB_ACTIVE, .FACE_WIN_TAB_BASE, .FACE_WIN_TAB_BASE_HI, .FACE_WIN_TAB_LINK_BAR, .FACE_WIN_TAB_LINK_EN,
      .FACE_WIN_TAB_LINK_PRES, .FACE_WIN_TAB_LOG2, .FACE_WIN_TAB_VALID, .FACE_WIN_TAB_XLAT, .FACE_WIN_TAB_XLAT_HI,
      .FACE_WIN_XLAT_ADDR, .FACE_WIN_XLAT_ADDR_HI]) ++ onFam .schedg fCnt ++ onFam .inst [.INST_STAT_FENCED, .INST_STAT_FLUSH_TO,
      .INST_STAT_RESETTING, .INST_STAT_TDI] ++ onFam .moverg errFields ++ onFam .eng fCnt ++ onFam .ring [.MOVER_RING_BASE_ADDR,
      .MOVER_RING_BASE_ADDR_HI, .MOVER_RING_CFG_ENABLE, .MOVER_RING_CFG_ENGINE, .MOVER_RING_CFG_KIND, .MOVER_RING_CFG_OWNER,
      .MOVER_RING_CFG_OWN_KIND, .MOVER_RING_CFG_SIZE_LOG2, .MOVER_RING_CFG_STOP_ON_ERR, .MOVER_RING_CPL_BASE_ADDR,
      .MOVER_RING_CPL_BASE_ADDR_HI, .MOVER_RING_CPL_CTRL_COAL_US, .MOVER_RING_CPL_CTRL_IRQ_EN, .MOVER_RING_CPL_CTRL_MODE,
      .MOVER_RING_CPL_CTRL_VECTOR, .MOVER_RING_CPL_FIFO_DW, .MOVER_RING_CPL_HEAD_CPL_HEAD, .MOVER_RING_CPL_TAIL_CPL_TAIL,
      .MOVER_RING_CPL_TAIL_PHASE, .MOVER_RING_HEAD_HEAD, .MOVER_RING_STAT_LAST_INDEX, .MOVER_RING_STAT_LAST_STATUS,
      .MOVER_RING_STAT_RESUME, .MOVER_RING_STAT_STATE, .MOVER_RING_TAIL_TAIL], cnts := [.sec, .guard, .core, .route, .bridge,
      .mbox, .face, .schedg, .eng], vars := [.alignMiss, .alignSeen, .aspm, .authDebug, .authStep, .badCw, .bme, .bridgeCtl,
      .bridgeD3, .cbsAt, .cbsCr, .coalDue, .coalOn, .crAdv, .crInit, .crUsed, .devReset, .elogSeq, .eqTimeouts, .faceEpoch,
      .fetchAt, .fetchN, .fetchTag, .guardBack, .ideGo, .ideKey, .injAlign, .linkDis, .lockDest, .lsSeen, .meDef, .memWin, .mkDue,
      .mkRx, .mkTx, .mse, .msixAddr, .msixData, .msixEnable, .msixFnMask, .msixOpen, .msixPend, .nakSent, .nextKey, .ownReq,
      .paramGot, .paramVal, .partnerAspm, .partnerMax, .partnerReady, .partnerRest, .pcieAcked, .pcieRev, .pcieSent, .peerReq,
      .pktId, .pmeOff, .polAt, .polC, .polP, .postStat, .preStat, .prefBase, .prefLimit, .prefWin, .presBar, .presBarSet,
      .presBase, .presCmd, .presInfo, .presRom, .presetStat, .priBus, .ptmCount, .ptmEnable, .redAvg, .refLost, .rehome,
      .rekeying, .replayAt, .restHeld, .restPend, .restSince, .rxKey, .rxNum, .rxRest, .rxSeq, .rxUnacked, .seBar, .seBusMaster,
      .seMps, .seMrrs, .seMse, .sePasid, .seTags, .secBus, .sizing, .skewCnt, .slotCtl, .slotStat, .stipCnt, .stipSeq, .stopWaits,
      .subBus, .tagEp, .txCount, .txKey, .txLimit, .txNum, .txSeq, .txUsed, .uspMps, .wcDone, .wcFrom, .wcId, .wcOldWidth, .wcSet,
      .widening, .win], fifos := [.cplFifo, .elog, .faceWrote, .flushTodo, .missLog, .ringWrote, .viWrote], parts := [.buf,
      .descs, .free, .greqs, .out, .prefs, .replay, .slots, .streams, .waiting] }

theorem execRefclkRestore_within (k : Option (Fin 6)) {σ τ : State} (hw : σ.wf) (he : execRefclkRestore k σ = .next τ) : Within Foot.execRefclkRestore σ τ := by
  have hF := Foot.le_refl Foot.execRefclkRestore
  refine always_within ?_ hw he
  clear he hw
  repeat' first
      | (with_reducible first | exact all_nil_in | refine all_cons_in ?_ ?_ | refine look_in fun _ => ?_ | refine when_in ?_ | refine forEach_in fun _ => ?_)
      | ((with_reducible refine put_in ?_); (· exact le_vars hF (by decide +kernel)))
      | ((with_reducible refine wr_in ?_ ?_); (· first | exact own_mem (show _ ∈ tabLANE by decide +kernel)); (· first | exact le_regs hF (show (Fam.lane, _) ∈ _ by decide +kernel)))
      | ((with_reducible refine startRecovery_in ?_ ..); (· exact Foot.le_trans (Foot.le_of_runs (by decide +kernel)) hF))
      | (unfold refOk; split)
      | split
      | dsimp only

end Sys2Proof.Machine
end

