-- ==== Sys2Proof/Laws/ExecBridge.lean ====
section
/-! SUPPORT. What each command of Machine/Bridge.lean may touch. -/

namespace Sys2Proof.Machine

set_option Elab.async false
set_option linter.unusedTactic false
set_option linter.unreachableTactic false

def Foot.execPrefetchAgeExpiry : Foot :=
  { regs := onFam .bridge fCnt ++ onFam .face fCnt, cnts := [.bridge, .face], vars := [.msixPend], fifos := [.faceWrote, .viWrote],
      parts := [.out, .prefs] }

theorem execPrefetchAgeExpiry_within (f : FaceId) (k : Fin 32) {σ τ : State} (hw : σ.wf) (he : execPrefetchAgeExpiry f k σ = .next τ) : Within Foot.execPrefetchAgeExpiry σ τ := by
  have hF := Foot.le_refl Foot.execPrefetchAgeExpiry
  refine answer_within ?_ hw he
  clear he hw
  repeat' first
      | (with_reducible first | refine look_in fun _ => ?_ | refine forSome_in fun _ => ?_)
      | ((with_reducible refine prefDiscard_in ?_ ..); (· exact Foot.le_trans (Foot.le_of_runs (by decide +kernel)) hF))
      | split
      | dsimp only

def Foot.execUnlockMessage : Foot :=
  { regs := onFam .guard (errFields ++ fCnt ++ [.GUARD_ELOG_CTRL_LOST]) ++ onFam .core (fCnt ++ [.CORE_WM_STAT_WM_CROSS_CNT,
      .CORE_WM_STAT_WM_EVENT, .CORE_WM_STAT_WM_LEVEL]) ++ onFam .route (errFields ++ fCnt) ++ onFam .bridge (errFields ++ fCnt ++
      [.BRIDGE_LOCK_STAT_HOLDER, .BRIDGE_LOCK_STAT_LOCKED, .BRIDGE_PROOF_WM_STAT_WM_CROSS_CNT, .BRIDGE_PROOF_WM_STAT_WM_EVENT,
      .BRIDGE_PROOF_WM_STAT_WM_LEVEL]) ++ onFam .face fCnt ++ onFam .schedg fCnt, cnts := [.guard, .core, .route, .bridge, .face,
      .schedg], vars := [.cbsAt, .cbsCr, .elogSeq, .lockDest, .msixPend, .pktId, .polAt, .polC, .polP, .redAvg, .stipCnt,
      .stipSeq], fifos := [.elog, .faceWrote, .missLog, .viWrote], parts := [.buf, .free, .greqs, .out, .streams, .waiting] }

theorem execUnlockMessage_within (host : Option FaceId) (src : Feid) {σ τ : State} (hw : σ.wf) (he : execUnlockMessage host src σ = .next τ) : Within Foot.execUnlockMessage σ τ := by
  have hF := Foot.le_refl Foot.execUnlockMessage
  refine answer_within ?_ hw he
  clear he hw
  repeat' first
      | ((with_reducible refine faceUnlocks_in ?_ ..); (· exact Foot.le_trans (Foot.le_of_runs (by decide +kernel)) hF))
      | ((with_reducible refine locksOf_in ?_ ..); (· exact Foot.le_trans (Foot.le_of_runs (by decide +kernel)) hF))
      | split
      | dsimp only

def Foot.execLockTimeout : Foot :=
  { regs := onFam .guard (errFields ++ fCnt ++ [.GUARD_ELOG_CTRL_LOST]) ++ onFam .bridge (errFields ++ fCnt ++
      [.BRIDGE_LOCK_STAT_HOLDER, .BRIDGE_LOCK_STAT_LOCKED]) ++ onFam .face fCnt, cnts := [.guard, .bridge, .face], vars :=
      [.elogSeq, .lockDest, .msixPend], fifos := [.elog, .faceWrote, .viWrote], parts := [.greqs, .out] }

theorem execLockTimeout_within (p : PortId) {σ τ : State} (hw : σ.wf) (he : execLockTimeout p σ = .next τ) : Within Foot.execLockTimeout σ τ := by
  have hF := Foot.le_refl Foot.execLockTimeout
  refine answer_within ?_ hw he
  clear he hw
  repeat' first
      | (with_reducible first | exact all_nil_in | refine all_cons_in ?_ ?_ | refine look_in fun _ => ?_ | refine when_in ?_ | refine forEach_in fun _ => ?_)
      | ((with_reducible refine put_in ?_); (· exact le_vars hF (by decide +kernel)))
      | ((with_reducible refine bump_in ?_ ?_ ..); (· rfl); (· first | exact Foot.le_trans (F := Foot.counting .bridge) (by decide +kernel) hF))
      | ((with_reducible refine raise_in ?_ ?_ ..); (· rfl); (· first | exact Foot.le_trans (F := Foot.error .bridge) (by decide +kernel) hF))
      | ((with_reducible refine lockEnd_in ?_ ..); (· exact Foot.le_trans (Foot.le_of_runs (by decide +kernel)) hF))
      | split
      | dsimp only

def Foot.execMoverReadCompletion : Foot :=
  { regs := onFam .sec (errFields ++ fCnt) ++ onFam .guard (errFields ++ fCnt ++ [.GUARD_ELOG_CTRL_LOST]) ++ onFam .core (errFields
      ++ fCnt ++ [.CORE_WM_STAT_WM_CROSS_CNT, .CORE_WM_STAT_WM_EVENT, .CORE_WM_STAT_WM_LEVEL]) ++ onFam .route (errFields ++ fCnt)
      ++ onFam .bridge (errFields ++ fCnt ++ [.BRIDGE_LOCK_STAT_HOLDER, .BRIDGE_LOCK_STAT_LOCKED,
      .BRIDGE_PROOF_WM_STAT_WM_CROSS_CNT, .BRIDGE_PROOF_WM_STAT_WM_EVENT, .BRIDGE_PROOF_WM_STAT_WM_LEVEL]) ++ onFam .face
      (errFields ++ fCnt) ++ onFam .schedg fCnt ++ onFam .moverg errFields ++ onFam .eng fCnt ++ onFam .ring
      [.MOVER_RING_CPL_TAIL_CPL_TAIL, .MOVER_RING_CPL_TAIL_PHASE, .MOVER_RING_HEAD_HEAD, .MOVER_RING_STAT_LAST_INDEX,
      .MOVER_RING_STAT_LAST_STATUS, .MOVER_RING_STAT_STATE], cnts := [.sec, .guard, .core, .route, .bridge, .face, .schedg, .eng],
      vars := [.cbsAt, .cbsCr, .coalDue, .coalOn, .elogSeq, .fetchAt, .fetchN, .fetchTag, .lockDest, .meDef, .mePlace, .meQuant,
      .msixPend, .pcieSent, .pktId, .polAt, .polC, .polP, .redAvg, .stipCnt, .stipSeq, .tagEp], fifos := [.cplFifo, .elog,
      .faceWrote, .missLog, .ringWrote, .viWrote], parts := [.buf, .descs, .free, .greqs, .out, .prefs, .slots, .streams,
      .waiting] }

theorem execMoverReadCompletion_within (n : RingId) (off : Nat) (bytes : List Byte) {σ τ : State} (hw : σ.wf) (he : execMoverReadCompletion n off bytes σ = .next τ) : Within Foot.execMoverReadCompletion σ τ := by
  have hF := Foot.le_refl Foot.execMoverReadCompletion
  refine answer_within ?_ hw he
  clear he hw
  repeat' first
      | (with_reducible first | exact all_nil_in | refine all_cons_in ?_ ?_)
      | ((with_reducible refine moverReadCompletion_in ?_ ..); (· exact Foot.le_trans (Foot.le_of_runs (by decide +kernel)) hF))
      | ((with_reducible refine settleVeps_in ?_ ..); (· exact Foot.le_trans (Foot.le_of_runs (by decide +kernel)) hF))
      | split
      | dsimp only

def Foot.execPolicerHoldRelease : Foot :=
  { regs := onFam .guard (errFields ++ fCnt ++ [.GUARD_ELOG_CTRL_LOST]) ++ onFam .core (fCnt ++ [.CORE_WM_STAT_WM_CROSS_CNT,
      .CORE_WM_STAT_WM_EVENT, .CORE_WM_STAT_WM_LEVEL]) ++ onFam .route (errFields ++ fCnt) ++ onFam .bridge (errFields ++ fCnt ++
      [.BRIDGE_LOCK_STAT_HOLDER, .BRIDGE_LOCK_STAT_LOCKED, .BRIDGE_PROOF_WM_STAT_WM_CROSS_CNT, .BRIDGE_PROOF_WM_STAT_WM_EVENT,
      .BRIDGE_PROOF_WM_STAT_WM_LEVEL]) ++ onFam .face fCnt ++ onFam .schedg fCnt ++ onFam .moverg errFields ++ onFam .eng fCnt,
      cnts := [.guard, .core, .route, .bridge, .face, .schedg, .eng], vars := [.cbsAt, .cbsCr, .elogSeq, .msixPend, .pktId,
      .polAt, .polC, .polP, .redAvg, .stipCnt, .stipSeq], fifos := [.elog, .faceWrote, .missLog, .viWrote], parts := [.buf, .free,
      .greqs, .out, .streams, .waiting] }

theorem execPolicerHoldRelease_within (id : Nat) {σ τ : State} (hw : σ.wf) (he : execPolicerHoldRelease id σ = .next τ) : Within Foot.execPolicerHoldRelease σ τ := by
  have hF := Foot.le_refl Foot.execPolicerHoldRelease
  refine answer_within ?_ hw he
  clear he hw
  repeat' first
      | (with_reducible first | exact all_nil_in | refine all_cons_in ?_ ?_)
      | ((with_reducible refine policerHoldRelease_in ?_ ..); (· exact Foot.le_trans (Foot.le_of_runs (by decide +kernel)) hF))
      | ((with_reducible refine settleVeps_in ?_ ..); (· exact Foot.le_trans (Foot.le_of_runs (by decide +kernel)) hF))
      | split
      | dsimp only

def Foot.execAdmissionResume : Foot :=
  { regs := onFam .guard (errFields ++ fCnt ++ [.GUARD_ELOG_CTRL_LOST]) ++ onFam .core (fCnt ++ [.CORE_WM_STAT_WM_CROSS_CNT,
      .CORE_WM_STAT_WM_EVENT, .CORE_WM_STAT_WM_LEVEL]) ++ onFam .bridge (errFields ++ fCnt ++ [.BRIDGE_LOCK_STAT_HOLDER,
      .BRIDGE_LOCK_STAT_LOCKED, .BRIDGE_PROOF_WM_STAT_WM_CROSS_CNT, .BRIDGE_PROOF_WM_STAT_WM_EVENT,
      .BRIDGE_PROOF_WM_STAT_WM_LEVEL]) ++ onFam .face fCnt ++ onFam .moverg errFields ++ onFam .eng fCnt, cnts := [.guard, .core,
      .bridge, .face, .eng], vars := [.cbsAt, .cbsCr, .elogSeq, .msixPend, .redAvg], fifos := [.elog, .faceWrote, .viWrote], parts
      := [.buf, .free, .greqs, .out, .streams, .waiting] }

theorem execAdmissionResume_within  {σ τ : State} (hw : σ.wf) (he : execAdmissionResume σ = .next τ) : Within Foot.execAdmissionResume σ τ := by
  have hF := Foot.le_refl Foot.execAdmissionResume
  refine answer_within ?_ hw he
  clear he hw
  repeat' first
      | (with_reducible first | exact all_nil_in | refine all_cons_in ?_ ?_)
      | ((with_reducible refine admissionResume_in ?_ ..); (· exact Foot.le_trans (Foot.le_of_runs (by decide +kernel)) hF))
      | ((with_reducible refine settleVeps_in ?_ ..); (· exact Foot.le_trans (Foot.le_of_runs (by decide +kernel)) hF))
      | split
      | dsimp only

end Sys2Proof.Machine
end

