-- ==== Sys2Proof/Laws/ExecCycle.lean ====
section
/-! SUPPORT. What each command of Machine/Cycle.lean may touch. -/

namespace Sys2Proof.Machine

set_option Elab.async false
set_option linter.unusedTactic false
set_option linter.unreachableTactic false

def Foot.execCycleMidpoint : Foot :=
  { vars := [.cycNext, .cycP, .holdCount, .relock, .relockNum], parts := [.now] }

theorem execCycleMidpoint_within  {σ τ : State} (hw : σ.wf) (he : execCycleMidpoint σ = .next τ) : Within Foot.execCycleMidpoint σ τ := by
  have hF := Foot.le_refl Foot.execCycleMidpoint
  refine answer_within ?_ hw he
  clear he hw
  repeat' first
      | (with_reducible first | exact all_nil_in | refine all_cons_in ?_ ?_ | refine look_in fun _ => ?_ | refine when_in ?_)
      | ((with_reducible refine commit_in ?_ ..); (· exact Foot.le_trans (Foot.le_of_runs (by decide +kernel)) hF))
      | ((with_reducible refine timeTo_in ?_ ..); (· exact Foot.le_trans (Foot.le_of_runs (by decide +kernel)) hF))
      | split
      | dsimp only

def Foot.execEdgeWindowClose : Foot :=
  { regs := onFam .guard (errFields ++ fCnt ++ [.GUARD_ELOG_CTRL_LOST]) ++ onFam .face fCnt ++ onFam .schedg (errFields ++ fCnt ++
      [.SCHED_CYC_STAT_HOLD_LEFT, .SCHED_CYC_STAT_STATE]) ++ onFam .sched (errFields ++ fCnt ++ [.SCHED_HATCH_STAT_ENTRY_NOW]),
      cnts := [.guard, .face, .schedg, .sched], vars := [.acqAt, .acqNum, .asSource, .cbsAt, .cbsCr, .cycEdge, .cycOut, .cycP,
      .edgeIv, .edgeLast, .edgeRun, .elogSeq, .errRun, .guardMiss, .guardOpen, .mkRun, .msixPend, .relock, .relockNum], fifos :=
      [.elog, .faceWrote, .viWrote], parts := [.greqs, .out] }

theorem execEdgeWindowClose_within  {σ τ : State} (hw : σ.wf) (he : execEdgeWindowClose σ = .next τ) : Within Foot.execEdgeWindowClose σ τ := by
  have hF := Foot.le_refl Foot.execEdgeWindowClose
  refine answer_within ?_ hw he
  clear he hw
  repeat' first
      | (with_reducible first | refine look_in fun _ => ?_ | refine when_in ?_)
      | ((with_reducible refine boundaryMissed_in ?_ ..); (· exact Foot.le_trans (Foot.le_of_runs (by decide +kernel)) hF))
      | split
      | dsimp only

def Foot.execCycRefEdge : Foot :=
  { regs := onFam .guard (errFields ++ fCnt ++ [.GUARD_ELOG_CTRL_LOST]) ++ onFam .face fCnt ++ onFam .schedg (errFields ++ fCnt ++
      [.SCHED_CYC_STAT_HOLD_LEFT, .SCHED_CYC_STAT_STATE]) ++ onFam .sched (fCnt ++ [.SCHED_HATCH_STAT_ENTRY_NOW]), cnts :=
      [.guard, .face, .schedg, .sched], vars := [.acqAt, .cbsAt, .cbsCr, .cycEdge, .cycEdgeNext, .cycFirst, .cycOut, .cycP,
      .cycRes, .cycResNext, .edgeIv, .edgeLast, .edgeRun, .elogSeq, .errRun, .guardMiss, .guardOpen, .msixPend], fifos := [.elog,
      .faceWrote, .viWrote], parts := [.greqs, .out] }

theorem execCycRefEdge_within (err : Fin 5) {σ τ : State} (hw : σ.wf) (he : execCycRefEdge err σ = .next τ) : Within Foot.execCycRefEdge σ τ := by
  have hF := Foot.le_refl Foot.execCycRefEdge
  refine answer_within ?_ hw he
  clear he hw
  repeat' first
      | (with_reducible first | exact all_nil_in | refine all_cons_in ?_ ?_ | refine look_in fun _ => ?_ | refine when_in ?_ | refine ite_in ?_ ?_)
      | ((with_reducible refine put_in ?_); (· exact le_vars hF (by decide +kernel)))
      | ((with_reducible refine wr_in ?_ ?_); (· first | exact hdr_mem rfl (by decide +kernel) | exact own_mem (show _ ∈ tabSCHEDG by decide +kernel)); (· first | exact le_regs hF (show (Fam.face, _) ∈ _ by decide +kernel) | exact le_regs hF (show (Fam.schedg, _) ∈ _ by decide +kernel)))
      | ((with_reducible refine bump_in ?_ ?_ ..); (· rfl); (· first | exact Foot.le_trans (F := Foot.counting .schedg) (by decide +kernel) hF))
      | ((with_reducible refine acquireEdge_in ?_ _ _ (fun _ => ?_)); (· exact Foot.le_trans (Foot.le_of_runs (by decide +kernel)) hF); skip)
      | ((with_reducible refine edgeAhead_in ?_ ..); (· exact Foot.le_trans (Foot.le_of_runs (by decide +kernel)) hF))
      | ((with_reducible refine erraticEdge_in ?_ ..); (· exact Foot.le_trans (Foot.le_of_runs (by decide +kernel)) hF))
      | ((with_reducible refine leaveHoldover_in ?_ ..); (· exact Foot.le_trans (Foot.le_of_runs (by decide +kernel)) hF))
      | split
      | dsimp only

def Foot.execCycleMarkerReceived : Foot :=
  { regs := onFam .guard (errFields ++ fCnt ++ [.GUARD_ELOG_CTRL_LOST]) ++ onFam .port (errFields ++ fCnt) ++ onFam .face fCnt ++
      onFam .schedg (errFields ++ fCnt ++ [.SCHED_CYC_STAT_HOLD_LEFT, .SCHED_CYC_STAT_STATE, .SCHED_CYC_STAT_STRATUM,
      .SCHED_SRC_MEAS_DELAY, .SCHED_SRC_MEAS_OFFSET, .SCHED_STEP_BACK_NS]) ++ onFam .sched (errFields ++ fCnt ++
      [.SCHED_HATCH_STAT_ENTRY_NOW]), cnts := [.guard, .port, .face, .schedg, .sched], vars := [.acqAt, .acqNum, .asSource,
      .cbsAt, .cbsCr, .crUsed, .cycEdge, .cycFirst, .cycFirstLen, .cycFirstNum, .cycLast, .cycNext, .cycNext2, .cycOut, .cycP,
      .elogSeq, .errRun, .guardMiss, .guardOpen, .mkAgree, .mkBound, .mkCyc, .mkEchoT1, .mkEchoT2, .mkRun, .mkRx, .mkStratum,
      .msixPend, .slew], fifos := [.delays, .elog, .faceWrote, .viWrote], parts := [.greqs, .now, .out] }

theorem execCycleMarkerReceived_within (p : PortId) (lf : LinkFrame) {σ τ : State} (hw : σ.wf) (he : execCycleMarkerReceived p lf σ = .next τ) : Within Foot.execCycleMarkerReceived σ τ := by
  have hF := Foot.le_refl Foot.execCycleMarkerReceived
  refine answer_within ?_ hw he
  clear he hw
  repeat' first
      | (with_reducible first | refine look_in fun _ => ?_ | refine when_in ?_)
      | ((with_reducible refine markerArrives_in ?_ ..); (· exact Foot.le_trans (Foot.le_of_runs (by decide +kernel)) hF))
      | split
      | dsimp only

def Foot.execCycleMarkerSend : Foot :=
  { regs := onFam .lane (fCnt ++ [.LANE_INJ_CTRL_ONE_SHOT, .LANE_REST_CTRL_IN_REST, .LANE_STAT_STATE]) ++ onFam .port
      [.PORT_LINK_STAT_STATE] ++ onFam .face fCnt, cnts := [.lane, .face], vars := [.alignTx, .injAlign, .mkDue, .msixPend,
      .restHeld, .restPend, .restSince], fifos := [.faceWrote, .viWrote], parts := [.coders, .out] }

theorem execCycleMarkerSend_within (p : PortId) {σ τ : State} (hw : σ.wf) (he : execCycleMarkerSend p σ = .next τ) : Within Foot.execCycleMarkerSend σ τ := by
  have hF := Foot.le_refl Foot.execCycleMarkerSend
  refine answer_within ?_ hw he
  clear he hw
  repeat' first
      | (with_reducible first | exact all_nil_in | refine all_cons_in ?_ ?_ | refine look_in fun _ => ?_ | refine when_in ?_)
      | ((with_reducible refine put_in ?_); (· exact le_vars hF (by decide +kernel)))
      | ((with_reducible refine restExit_in ?_ ..); (· exact Foot.le_trans (Foot.le_of_runs (by decide +kernel)) hF))
      | split
      | dsimp only

def Foot.execSourceMarkerTimeout : Foot :=
  { regs := onFam .guard (errFields ++ fCnt ++ [.GUARD_ELOG_CTRL_LOST]) ++ onFam .face fCnt ++ onFam .schedg (errFields ++ fCnt ++
      [.SCHED_CYC_STAT_ON_ALT]), cnts := [.guard, .face, .schedg], vars := [.elogSeq, .errRun, .msixPend], fifos := [.delays,
      .elog, .faceWrote, .viWrote], parts := [.greqs, .out] }

theorem execSourceMarkerTimeout_within  {σ τ : State} (hw : σ.wf) (he : execSourceMarkerTimeout σ = .next τ) : Within Foot.execSourceMarkerTimeout σ τ := by
  have hF := Foot.le_refl Foot.execSourceMarkerTimeout
  refine answer_within ?_ hw he
  clear he hw
  repeat' first
      | ((with_reducible refine sourceMove_in ?_ ..); (· exact Foot.le_trans (Foot.le_of_runs (by decide +kernel)) hF))
      | split
      | dsimp only

def Foot.execFabPortUnusable : Foot :=
  { regs := onFam .guard (errFields ++ fCnt ++ [.GUARD_ELOG_CTRL_LOST]) ++ onFam .core (fCnt ++ [.CORE_WM_STAT_WM_CROSS_CNT,
      .CORE_WM_STAT_WM_EVENT, .CORE_WM_STAT_WM_LEVEL]) ++ onFam .route (errFields ++ fCnt) ++ onFam .bridge (errFields ++ fCnt ++
      [.BRIDGE_LOCK_STAT_HOLDER, .BRIDGE_LOCK_STAT_LOCKED, .BRIDGE_PROOF_WM_STAT_WM_CROSS_CNT, .BRIDGE_PROOF_WM_STAT_WM_EVENT,
      .BRIDGE_PROOF_WM_STAT_WM_LEVEL]) ++ onFam .face (errFields ++ fCnt) ++ onFam .schedg (errFields ++ fCnt ++
      [.SCHED_CYC_STAT_ON_ALT]), cnts := [.guard, .core, .route, .bridge, .face, .schedg], vars := [.cbsAt, .cbsCr, .elogSeq,
      .errRun, .lockDest, .msixPend, .pcieSent, .pktId, .polAt, .polC, .polP, .redAvg, .stipCnt, .stipSeq, .tagEp], fifos :=
      [.delays, .elog, .faceWrote, .missLog, .viWrote], parts := [.buf, .free, .greqs, .out, .prefs, .slots, .streams, .waiting] }

theorem execFabPortUnusable_within (p : PortId) {σ τ : State} (hw : σ.wf) (he : execFabPortUnusable p σ = .next τ) : Within Foot.execFabPortUnusable σ τ := by
  have hF := Foot.le_refl Foot.execFabPortUnusable
  refine answer_within ?_ hw he
  clear he hw
  repeat' first
      | (with_reducible first | exact all_nil_in | refine all_cons_in ?_ ?_ | refine look_in fun _ => ?_ | refine when_in ?_)
      | ((with_reducible refine resendAll_in ?_ ..); (· exact Foot.le_trans (Foot.le_of_runs (by decide +kernel)) hF))
      | ((with_reducible refine sendPathLoss_in ?_ ..); (· exact Foot.le_trans (Foot.le_of_runs (by decide +kernel)) hF))
      | ((with_reducible refine sourceMove_in ?_ ..); (· exact Foot.le_trans (Foot.le_of_runs (by decide +kernel)) hF))
      | split
      | dsimp only

def Foot.execCycleSourceChange : Foot :=
  { regs := onFam .guard (errFields ++ fCnt ++ [.GUARD_ELOG_CTRL_LOST]) ++ onFam .face fCnt ++ onFam .schedg (errFields ++ fCnt ++
      [.SCHED_CYC_CFG_ALT_EN, .SCHED_CYC_CFG_ALT_PORT, .SCHED_CYC_CFG_KI, .SCHED_CYC_CFG_KP, .SCHED_CYC_CFG_SRC,
      .SCHED_CYC_CFG_SRC_PORT, .SCHED_CYC_CFG_WINDOW, .SCHED_CYC_STAT_HOLD_LEFT, .SCHED_CYC_STAT_ON_ALT, .SCHED_CYC_STAT_STATE,
      .SCHED_CYC_STAT_STRATUM, .SCHED_MK_CFG_INTERVAL, .SCHED_MK_CFG_MASTER_ID, .SCHED_MK_CFG_STEP_LIMIT]) ++ onFam .sched (fCnt
      ++ [.SCHED_HATCH_STAT_ENTRY_NOW]), cnts := [.guard, .face, .schedg, .sched], vars := [.acqAt, .acqNum, .aerStamp, .arbLast,
      .asSource, .cbsAt, .cbsCr, .cycEdgeNext, .cycFirst, .cycNext, .cycOut, .cycP, .cycResNext, .edgeIv, .edgeLast, .edgeRun,
      .elogSeq, .errRun, .guardMiss, .guardOpen, .mkAgree, .mkBound, .mkCyc, .mkRun, .msixPend, .relock, .relockNum, .toFree],
      fifos := [.delays, .elog, .faceWrote, .viWrote], parts := [.greqs, .out] }

theorem execCycleSourceChange_within (st : Stamp) (mk : Bool) (v : Word) {σ τ : State} (hw : σ.wf) (he : execCycleSourceChange st mk v σ = .next τ) : Within Foot.execCycleSourceChange σ τ := by
  have hF := Foot.le_refl Foot.execCycleSourceChange
  refine answer_within ?_ hw he
  clear he hw
  repeat' first
      | (with_reducible first | refine ite_in ?_ ?_)
      | ((with_reducible refine granted_in ?_ ?_ _ _ ?_); (· rfl); (· first | exact Foot.le_trans (F := Foot.access .schedg) (by decide +kernel) hF); skip)
      | ((with_reducible refine cycCfgWrite_in ?_ ..); (· exact Foot.le_trans (Foot.le_of_runs (by decide +kernel)) hF))
      | split
      | dsimp only

def Foot.execCycOutPulseEnd : Foot :=
  { vars := [.cycOut], parts := [.out] }

theorem execCycOutPulseEnd_within  {σ τ : State} (hw : σ.wf) (he : execCycOutPulseEnd σ = .next τ) : Within Foot.execCycOutPulseEnd σ τ := by
  have hF := Foot.le_refl Foot.execCycOutPulseEnd
  refine answer_within ?_ hw he
  clear he hw
  repeat' first
      | (with_reducible first | exact all_nil_in | refine all_cons_in ?_ ?_ | refine look_in fun _ => ?_ | refine when_in ?_)
      | ((with_reducible refine put_in ?_); (· exact le_vars hF (by decide +kernel)))
      | ((with_reducible refine emit_in ?_); (· exact le_parts hF (by decide +kernel)))
      | split
      | dsimp only

def Foot.execPtmRequestTimer : Foot :=
  { parts := [.out] }

theorem execPtmRequestTimer_within (f : FaceId) {σ τ : State} (hw : σ.wf) (he : execPtmRequestTimer f σ = .next τ) : Within Foot.execPtmRequestTimer σ τ := by
  have hF := Foot.le_refl Foot.execPtmRequestTimer
  refine answer_within ?_ hw he
  clear he hw
  repeat' first
      | (with_reducible first | refine look_in fun _ => ?_ | refine when_in ?_)
      | ((with_reducible refine emit_in ?_); (· exact le_parts hF (by decide +kernel)))
      | split
      | dsimp only

def Foot.execPtmResponseReceived : Foot :=
  { vars := [.ptmCount, .ptmFab, .ptmFab0, .ptmHost, .ptmHost0] }

theorem execPtmResponseReceived_within (f : FaceId) (host : BitVec 64) {σ τ : State} (hw : σ.wf) (he : execPtmResponseReceived f host σ = .next τ) : Within Foot.execPtmResponseReceived σ τ := by
  have hF := Foot.le_refl Foot.execPtmResponseReceived
  refine answer_within ?_ hw he
  clear he hw
  repeat' first
      | (with_reducible first | exact all_nil_in | refine all_cons_in ?_ ?_ | refine look_in fun _ => ?_ | refine when_in ?_)
      | ((with_reducible refine put_in ?_); (· exact le_vars hF (by decide +kernel)))
      | split
      | dsimp only

def Foot.execPtmRequestReceived : Foot :=
  { parts := [.out] }

theorem execPtmRequestReceived_within (p : PortId) {σ τ : State} (hw : σ.wf) (he : execPtmRequestReceived p σ = .next τ) : Within Foot.execPtmRequestReceived σ τ := by
  have hF := Foot.le_refl Foot.execPtmRequestReceived
  refine answer_within ?_ hw he
  clear he hw
  repeat' first
      | (with_reducible first | refine look_in fun _ => ?_ | refine when_in ?_ | refine ite_in ?_ ?_)
      | ((with_reducible refine emit_in ?_); (· exact le_parts hF (by decide +kernel)))
      | split
      | dsimp only

def Foot.execSnapshotCapture : Foot :=
  { regs := onFam .guard (errFields ++ fCnt ++ [.GUARD_ELOG_CTRL_LOST]) ++ onFam .face fCnt ++ onFam .schedg (errFields ++
      [.SCHED_SNAP_CTRL_FACE, .SCHED_SNAP_CTRL_GO, .SCHED_SNAP_CTRL_HOST_VALID, .SCHED_SNAP_CTRL_VALID, .SCHED_SNAP_CYC_HI_V,
      .SCHED_SNAP_CYC_V, .SCHED_SNAP_FAB_HI_V, .SCHED_SNAP_FAB_V, .SCHED_SNAP_HOST_HI_V, .SCHED_SNAP_HOST_V,
      .SCHED_SNAP_PHASE_V]), cnts := [.guard, .face], vars := [.aerStamp, .arbLast, .elogSeq, .msixPend], fifos := [.elog,
      .faceWrote, .viWrote], parts := [.greqs, .out] }

theorem execSnapshotCapture_within (st : Stamp) (v : Word) {σ τ : State} (hw : σ.wf) (he : execSnapshotCapture st v σ = .next τ) : Within Foot.execSnapshotCapture σ τ := by
  have hF := Foot.le_refl Foot.execSnapshotCapture
  refine answer_within ?_ hw he
  clear he hw
  repeat' first
      | ((with_reducible refine granted_in ?_ ?_ _ _ ?_); (· rfl); (· first | exact Foot.le_trans (F := Foot.access .schedg) (by decide +kernel) hF); skip)
      | ((with_reducible refine snapWrite_in ?_ ..); (· exact Foot.le_trans (Foot.le_of_runs (by decide +kernel)) hF))
      | split
      | dsimp only

end Sys2Proof.Machine
end

