-- ==== Sys2Proof/Laws/ExecDaend.lean ====
section
/-! SUPPORT. What each command of Machine/Daend.lean may touch. -/

namespace Sys2Proof.Machine

set_option Elab.async false
set_option linter.unusedTactic false
set_option linter.unreachableTactic false

def Foot.execDaendFrameReceived : Foot :=
  { regs := onFam .sec [.SEC_IDE_STAT_DEV_AUTH, .SEC_IDE_STAT_LINK_ID, .SEC_IDE_STAT_LINK_KSET, .SEC_IDE_STAT_LINK_SECURE,
      .SEC_IDE_STAT_SEL_SECURE, .SEC_IDE_STAT_SEL_VALID, .SEC_LINK_STAT_AUTH_OK, .SEC_LINK_STAT_AUTH_STATUS,
      .SEC_LINK_STAT_PARTNER_DEBUG, .SEC_LINK_STAT_REKEY, .SEC_LINK_STAT_REKEYS] ++ onFam .guard (errFields ++ fCnt ++
      [.GUARD_ELOG_CTRL_LOST]) ++ onFam .lane (fCnt ++ [.LANE_INJ_CTRL_ONE_SHOT, .LANE_RATE_CFG_RATE_NOW, .LANE_REST_CTRL_IN_REST,
      .LANE_STAT_ALIGN_LOCK, .LANE_STAT_CDR_LOCK, .LANE_STAT_EQ_DONE, .LANE_STAT_EQ_FAIL, .LANE_STAT_EXIT_FAIL, .LANE_STAT_FAILED,
      .LANE_STAT_FEC_LOCK, .LANE_STAT_RX_READY, .LANE_STAT_STATE, .LANE_TX_TAPS_C0, .LANE_TX_TAPS_POST, .LANE_TX_TAPS_PRE]) ++
      onFam .core (errFields ++ fCnt ++ [.CORE_WM_STAT_WM_CROSS_CNT, .CORE_WM_STAT_WM_EVENT, .CORE_WM_STAT_WM_LEVEL]) ++ onFam
      .bridge [.BRIDGE_FAB_NBR_PARTNER_PORT, .BRIDGE_FAB_NBR_PARTNER_SW, .BRIDGE_FAB_NBR_VALID] ++ onFam .port (errFields ++ fCnt
      ++ [.PORT_LINK_STAT_ENC, .PORT_LINK_STAT_FLIT, .PORT_LINK_STAT_KEY_PHASE, .PORT_LINK_STAT_LANES_GOOD,
      .PORT_LINK_STAT_RATE_NOW, .PORT_LINK_STAT_STATE, .PORT_LINK_STAT_WIDTH_NOW, .PORT_REPLAY_CNT_CONSEC]) ++ onFam .face (fCnt
      ++ [.FACE_BIND_STATE, .FACE_PM_STAT_LINK_PM]) ++ onFam .schedg (errFields ++ fCnt ++ [.SCHED_CYC_STAT_HOLD_LEFT,
      .SCHED_CYC_STAT_STATE, .SCHED_CYC_STAT_STRATUM, .SCHED_SRC_MEAS_DELAY, .SCHED_SRC_MEAS_OFFSET, .SCHED_STEP_BACK_NS]) ++
      onFam .sched (errFields ++ fCnt ++ [.SCHED_HATCH_STAT_ENTRY_NOW]), cnts := [.guard, .lane, .core, .port, .face, .schedg,
      .sched], vars := [.acqAt, .acqNum, .alignMiss, .alignSeen, .alignTx, .asSource, .authDebug, .authStep, .badCw, .cbsAt,
      .cbsCr, .crAdv, .crInit, .crUsed, .cycEdge, .cycFirst, .cycFirstLen, .cycFirstNum, .cycLast, .cycNext, .cycNext2, .cycOut,
      .cycP, .elogSeq, .eqTimeouts, .errRun, .guardMiss, .guardOpen, .ideGo, .ideKey, .injAlign, .lsSeen, .mkAgree, .mkBound,
      .mkCyc, .mkDue, .mkEchoT1, .mkEchoT2, .mkRun, .mkRx, .mkStratum, .mkTx, .msixPend, .nakSent, .nextKey, .ownReq, .paramGot,
      .paramVal, .partnerAspm, .partnerMax, .partnerReady, .partnerRest, .pcieAcked, .pcieRev, .pcieSent, .peerReq, .postStat,
      .preStat, .presetStat, .rekeying, .replayAt, .restHeld, .restPend, .restSince, .rxKey, .rxNum, .rxRest, .rxSeq, .rxUnacked,
      .skewCnt, .slew, .txCount, .txKey, .txLimit, .txNum, .txSeq, .txUsed, .wcDone, .wcFrom, .wcId, .wcOldWidth, .wcSet,
      .widening], fifos := [.delays, .elog, .faceWrote, .viWrote], parts := [.buf, .coders, .greqs, .now, .out, .replay, .streams,
      .waiting] }

theorem execDaendFrameReceived_within (p : PortId) (lf : LinkFrame) {σ τ : State} (hw : σ.wf) (he : execDaendFrameReceived p lf σ = .next τ) : Within Foot.execDaendFrameReceived σ τ := by
  have hF := Foot.le_refl Foot.execDaendFrameReceived
  refine answer_within ?_ hw he
  clear he hw
  repeat' first
      | (with_reducible first | exact all_nil_in | refine all_cons_in ?_ ?_ | refine look_in fun _ => ?_ | refine when_in ?_ | refine ite_in ?_ ?_)
      | ((with_reducible refine bump_in ?_ ?_ ..); (· rfl); (· first | exact Foot.le_trans (F := Foot.counting .port) (by decide +kernel) hF))
      | ((with_reducible refine raise_in ?_ ?_ ..); (· rfl); (· first | exact Foot.le_trans (F := Foot.error .port) (by decide +kernel) hF))
      | ((with_reducible refine acceptFrame_in ?_ ..); (· exact Foot.le_trans (Foot.le_of_runs (by decide +kernel)) hF))
      | ((with_reducible refine frameCtlBad_in ?_ ..); (· exact Foot.le_trans (Foot.le_of_runs (by decide +kernel)) hF))
      | ((with_reducible refine linkFails_in ?_ ..); (· exact Foot.le_trans (Foot.le_of_runs (by decide +kernel)) hF))
      | ((with_reducible refine markerArrives_in ?_ ..); (· exact Foot.le_trans (Foot.le_of_runs (by decide +kernel)) hF))
      | ((with_reducible refine sendAck_in ?_ ..); (· exact Foot.le_trans (Foot.le_of_runs (by decide +kernel)) hF))
      | ((with_reducible refine sendNak_in ?_ ..); (· exact Foot.le_trans (Foot.le_of_runs (by decide +kernel)) hF))
      | split
      | dsimp only

def Foot.execAckCoalesceExpiry : Foot :=
  { regs := onFam .lane (fCnt ++ [.LANE_INJ_CTRL_ONE_SHOT, .LANE_REST_CTRL_IN_REST, .LANE_STAT_STATE]) ++ onFam .port
      [.PORT_LINK_STAT_STATE] ++ onFam .face fCnt, cnts := [.lane, .face], vars := [.alignTx, .injAlign, .msixPend, .restHeld,
      .restPend, .restSince, .rxUnacked], fifos := [.faceWrote, .viWrote], parts := [.coders, .out] }

theorem execAckCoalesceExpiry_within (p : PortId) {σ τ : State} (hw : σ.wf) (he : execAckCoalesceExpiry p σ = .next τ) : Within Foot.execAckCoalesceExpiry σ τ := by
  have hF := Foot.le_refl Foot.execAckCoalesceExpiry
  refine answer_within ?_ hw he
  clear he hw
  repeat' first
      | (with_reducible first | refine look_in fun _ => ?_ | refine when_in ?_)
      | ((with_reducible refine sendAck_in ?_ ..); (· exact Foot.le_trans (Foot.le_of_runs (by decide +kernel)) hF))
      | split
      | dsimp only

def Foot.execAckReceived : Foot :=
  { regs := onFam .guard (errFields ++ fCnt ++ [.GUARD_ELOG_CTRL_LOST]) ++ onFam .port (errFields ++ fCnt ++
      [.PORT_REPLAY_CNT_CONSEC]) ++ onFam .face fCnt, cnts := [.guard, .port, .face], vars := [.elogSeq, .keyOld, .msixPend,
      .pcieAcked, .replayAt], fifos := [.elog, .faceWrote, .viWrote], parts := [.greqs, .out, .replay] }

theorem execAckReceived_within (p : PortId) (blk : BitVec 64) {σ τ : State} (hw : σ.wf) (he : execAckReceived p blk σ = .next τ) : Within Foot.execAckReceived σ τ := by
  have hF := Foot.le_refl Foot.execAckReceived
  refine answer_within ?_ hw he
  clear he hw
  repeat' first
      | (with_reducible first | refine look_in fun _ => ?_ | refine when_in ?_ | refine ite_in ?_ ?_)
      | ((with_reducible refine raise_in ?_ ?_ ..); (· rfl); (· first | exact Foot.le_trans (F := Foot.error .port) (by decide +kernel) hF))
      | ((with_reducible refine ackUpTo_in ?_ ..); (· exact Foot.le_trans (Foot.le_of_runs (by decide +kernel)) hF))
      | ((with_reducible refine checkedCtl_in ?_ _ _ _ _ (?_)); (· exact Foot.le_trans (Foot.le_of_runs (by decide +kernel)) hF); skip)
      | ((with_reducible refine pcieAckUpTo_in ?_ ..); (· exact Foot.le_trans (Foot.le_of_runs (by decide +kernel)) hF))
      | split
      | dsimp only

def Foot.execNakReceived : Foot :=
  { regs := onFam .sec [.SEC_IDE_STAT_DEV_AUTH, .SEC_IDE_STAT_LINK_ID, .SEC_IDE_STAT_LINK_KSET, .SEC_IDE_STAT_LINK_SECURE,
      .SEC_IDE_STAT_SEL_SECURE, .SEC_IDE_STAT_SEL_VALID, .SEC_LINK_STAT_AUTH_OK, .SEC_LINK_STAT_AUTH_STATUS,
      .SEC_LINK_STAT_PARTNER_DEBUG, .SEC_LINK_STAT_REKEY, .SEC_LINK_STAT_REKEYS] ++ onFam .guard (errFields ++ fCnt ++
      [.GUARD_ELOG_CTRL_LOST]) ++ onFam .lane [.LANE_INJ_CTRL_ONE_SHOT, .LANE_RATE_CFG_RATE_NOW, .LANE_REST_CTRL_IN_REST,
      .LANE_STAT_ALIGN_LOCK, .LANE_STAT_CDR_LOCK, .LANE_STAT_EQ_DONE, .LANE_STAT_EQ_FAIL, .LANE_STAT_EXIT_FAIL, .LANE_STAT_FAILED,
      .LANE_STAT_FEC_LOCK, .LANE_STAT_RX_READY, .LANE_STAT_STATE, .LANE_TX_TAPS_C0, .LANE_TX_TAPS_POST, .LANE_TX_TAPS_PRE] ++
      onFam .core (errFields ++ fCnt ++ [.CORE_WM_STAT_WM_CROSS_CNT, .CORE_WM_STAT_WM_EVENT, .CORE_WM_STAT_WM_LEVEL]) ++ onFam
      .bridge [.BRIDGE_FAB_NBR_PARTNER_PORT, .BRIDGE_FAB_NBR_PARTNER_SW, .BRIDGE_FAB_NBR_VALID] ++ onFam .port (errFields ++ fCnt
      ++ [.PORT_LINK_STAT_ENC, .PORT_LINK_STAT_FLIT, .PORT_LINK_STAT_KEY_PHASE, .PORT_LINK_STAT_LANES_GOOD,
      .PORT_LINK_STAT_RATE_NOW, .PORT_LINK_STAT_STATE, .PORT_LINK_STAT_WIDTH_NOW, .PORT_REPLAY_CNT_CONSEC]) ++ onFam .face (fCnt
      ++ [.FACE_BIND_STATE, .FACE_PM_STAT_LINK_PM]), cnts := [.guard, .core, .port, .face], vars := [.alignMiss, .alignSeen,
      .authDebug, .authStep, .badCw, .crAdv, .crInit, .crUsed, .elogSeq, .eqTimeouts, .ideGo, .ideKey, .injAlign, .keyOld,
      .lsSeen, .mkDue, .mkRx, .mkTx, .msixPend, .nakSent, .nextKey, .ownReq, .paramGot, .paramVal, .partnerAspm, .partnerMax,
      .partnerReady, .partnerRest, .pcieAcked, .pcieRev, .pcieSent, .peerReq, .postStat, .preStat, .presetStat, .rekeying,
      .replayAt, .restHeld, .restPend, .restSince, .rxKey, .rxNum, .rxRest, .rxSeq, .rxUnacked, .skewCnt, .txCount, .txKey,
      .txLimit, .txNum, .txSeq, .txUsed, .wcDone, .wcFrom, .wcId, .wcOldWidth, .wcSet, .widening], fifos := [.elog, .faceWrote,
      .viWrote], parts := [.buf, .greqs, .out, .replay, .streams, .waiting] }

theorem execNakReceived_within (p : PortId) (blk : BitVec 64) {σ τ : State} (hw : σ.wf) (he : execNakReceived p blk σ = .next τ) : Within Foot.execNakReceived σ τ := by
  have hF := Foot.le_refl Foot.execNakReceived
  refine answer_within ?_ hw he
  clear he hw
  repeat' first
      | (with_reducible first | exact all_nil_in | refine all_cons_in ?_ ?_ | refine look_in fun _ => ?_ | refine when_in ?_ | refine ite_in ?_ ?_)
      | ((with_reducible refine bump_in ?_ ?_ ..); (· rfl); (· first | exact Foot.le_trans (F := Foot.counting .port) (by decide +kernel) hF))
      | ((with_reducible refine raise_in ?_ ?_ ..); (· rfl); (· first | exact Foot.le_trans (F := Foot.error .port) (by decide +kernel) hF))
      | ((with_reducible refine ackUpTo_in ?_ ..); (· exact Foot.le_trans (Foot.le_of_runs (by decide +kernel)) hF))
      | ((with_reducible refine checkedCtl_in ?_ _ _ _ _ (?_)); (· exact Foot.le_trans (Foot.le_of_runs (by decide +kernel)) hF); skip)
      | ((with_reducible refine pcieAckUpTo_in ?_ ..); (· exact Foot.le_trans (Foot.le_of_runs (by decide +kernel)) hF))
      | ((with_reducible refine startReplay_in ?_ ..); (· exact Foot.le_trans (Foot.le_of_runs (by decide +kernel)) hF))
      | split
      | dsimp only

def Foot.execReplayTimeout : Foot :=
  { regs := onFam .sec [.SEC_IDE_STAT_DEV_AUTH, .SEC_IDE_STAT_LINK_ID, .SEC_IDE_STAT_LINK_KSET, .SEC_IDE_STAT_LINK_SECURE,
      .SEC_IDE_STAT_SEL_SECURE, .SEC_IDE_STAT_SEL_VALID, .SEC_LINK_STAT_AUTH_OK, .SEC_LINK_STAT_AUTH_STATUS,
      .SEC_LINK_STAT_PARTNER_DEBUG, .SEC_LINK_STAT_REKEY, .SEC_LINK_STAT_REKEYS] ++ onFam .guard (errFields ++ fCnt ++
      [.GUARD_ELOG_CTRL_LOST]) ++ onFam .lane [.LANE_INJ_CTRL_ONE_SHOT, .LANE_RATE_CFG_RATE_NOW, .LANE_REST_CTRL_IN_REST,
      .LANE_STAT_ALIGN_LOCK, .LANE_STAT_CDR_LOCK, .LANE_STAT_EQ_DONE, .LANE_STAT_EQ_FAIL, .LANE_STAT_EXIT_FAIL, .LANE_STAT_FAILED,
      .LANE_STAT_FEC_LOCK, .LANE_STAT_RX_READY, .LANE_STAT_STATE, .LANE_TX_TAPS_C0, .LANE_TX_TAPS_POST, .LANE_TX_TAPS_PRE] ++
      onFam .core (errFields ++ fCnt ++ [.CORE_WM_STAT_WM_CROSS_CNT, .CORE_WM_STAT_WM_EVENT, .CORE_WM_STAT_WM_LEVEL]) ++ onFam
      .bridge [.BRIDGE_FAB_NBR_PARTNER_PORT, .BRIDGE_FAB_NBR_PARTNER_SW, .BRIDGE_FAB_NBR_VALID] ++ onFam .port (errFields ++ fCnt
      ++ [.PORT_LINK_STAT_ENC, .PORT_LINK_STAT_FLIT, .PORT_LINK_STAT_KEY_PHASE, .PORT_LINK_STAT_LANES_GOOD,
      .PORT_LINK_STAT_RATE_NOW, .PORT_LINK_STAT_STATE, .PORT_LINK_STAT_WIDTH_NOW, .PORT_REPLAY_CNT_CONSEC]) ++ onFam .face (fCnt
      ++ [.FACE_BIND_STATE, .FACE_PM_STAT_LINK_PM]), cnts := [.guard, .core, .port, .face], vars := [.alignMiss, .alignSeen,
      .authDebug, .authStep, .badCw, .crAdv, .crInit, .crUsed, .elogSeq, .eqTimeouts, .ideGo, .ideKey, .injAlign, .lsSeen, .mkDue,
      .mkRx, .mkTx, .msixPend, .nakSent, .nextKey, .ownReq, .paramGot, .paramVal, .partnerAspm, .partnerMax, .partnerReady,
      .partnerRest, .pcieAcked, .pcieRev, .pcieSent, .peerReq, .postStat, .preStat, .presetStat, .rekeying, .replayAt, .restHeld,
      .restPend, .restSince, .rxKey, .rxNum, .rxRest, .rxSeq, .rxUnacked, .skewCnt, .txCount, .txKey, .txLimit, .txNum, .txSeq,
      .txUsed, .wcDone, .wcFrom, .wcId, .wcOldWidth, .wcSet, .widening], fifos := [.elog, .faceWrote, .viWrote], parts := [.buf,
      .greqs, .out, .replay, .streams, .waiting] }

theorem execReplayTimeout_within (p : PortId) {σ τ : State} (hw : σ.wf) (he : execReplayTimeout p σ = .next τ) : Within Foot.execReplayTimeout σ τ := by
  have hF := Foot.le_refl Foot.execReplayTimeout
  refine answer_within ?_ hw he
  clear he hw
  repeat' first
      | (with_reducible first | refine look_in fun _ => ?_ | refine when_in ?_)
      | ((with_reducible refine startReplay_in ?_ ..); (· exact Foot.le_trans (Foot.le_of_runs (by decide +kernel)) hF))
      | split
      | dsimp only

end Sys2Proof.Machine
end

