-- ==== Sys2Proof/Laws/ExecEgress.lean ====
section
/-! SUPPORT. What each command of Machine/Egress.lean may touch. -/

namespace Sys2Proof.Machine

set_option Elab.async false
set_option linter.unusedTactic false
set_option linter.unreachableTactic false

def Foot.execMcHoldExpiry : Foot :=
  { regs := onFam .guard (errFields ++ fCnt ++ [.GUARD_ELOG_CTRL_LOST]) ++ onFam .core (errFields ++ fCnt ++
      [.CORE_WM_STAT_WM_CROSS_CNT, .CORE_WM_STAT_WM_EVENT, .CORE_WM_STAT_WM_LEVEL]) ++ onFam .face fCnt, cnts := [.guard, .core,
      .face], vars := [.elogSeq, .holdCount, .msixPend], fifos := [.elog, .faceWrote, .viWrote], parts := [.buf, .greqs, .now,
      .out] }

theorem execMcHoldExpiry_within (id : Nat) (p : PortId) {σ τ : State} (hw : σ.wf) (he : execMcHoldExpiry id p σ = .next τ) : Within Foot.execMcHoldExpiry σ τ := by
  have hF := Foot.le_refl Foot.execMcHoldExpiry
  refine answer_within ?_ hw he
  clear he hw
  repeat' first
      | (with_reducible first | exact all_nil_in | refine all_cons_in ?_ ?_ | refine look_in fun _ => ?_ | refine ite_in ?_ ?_ | refine forSome_in fun _ => ?_)
      | ((with_reducible refine put_in ?_); (· exact le_vars hF (by decide +kernel)))
      | ((with_reducible refine modBuf_in ?_); (· exact le_parts hF (by decide +kernel)))
      | ((with_reducible refine bump_in ?_ ?_ ..); (· rfl); (· first | exact Foot.le_trans (F := Foot.counting .core) (by decide +kernel) hF))
      | ((with_reducible refine raise_in ?_ ?_ ..); (· rfl); (· first | exact Foot.le_trans (F := Foot.error .core) (by decide +kernel) hF))
      | ((with_reducible refine raiseIn_in ?_ ?_ ..); (· rfl); (· first | exact Foot.le_trans (F := Foot.error .core) (by decide +kernel) hF))
      | ((with_reducible refine coreWatch_in ?_ ..); (· exact Foot.le_trans (Foot.le_of_runs (by decide +kernel)) hF))
      | ((with_reducible refine timeTo_in ?_ ..); (· exact Foot.le_trans (Foot.le_of_runs (by decide +kernel)) hF))
      | split
      | dsimp only

def Foot.execEgressFrameBoundary : Foot :=
  { regs := onFam .guard (errFields ++ fCnt ++ [.GUARD_ELOG_CTRL_LOST]) ++ onFam .core (fCnt ++ [.CORE_WM_STAT_WM_CROSS_CNT,
      .CORE_WM_STAT_WM_EVENT, .CORE_WM_STAT_WM_LEVEL]) ++ onFam .route (errFields ++ fCnt) ++ onFam .bridge (errFields ++ fCnt ++
      [.BRIDGE_LOCK_STAT_HOLDER, .BRIDGE_LOCK_STAT_LOCKED, .BRIDGE_PROOF_WM_STAT_WM_CROSS_CNT, .BRIDGE_PROOF_WM_STAT_WM_EVENT,
      .BRIDGE_PROOF_WM_STAT_WM_LEVEL]) ++ onFam .port (fCnt ++ [.PORT_LINK_STAT_KEY_PHASE, .PORT_LINK_STAT_STATE]) ++ onFam .face
      (errFields ++ fCnt ++ [.FACE_PM_STAT_LINK_PM]) ++ onFam .schedg fCnt ++ onFam .sched (errFields ++ fCnt), cnts := [.guard,
      .core, .route, .bridge, .port, .face, .schedg, .sched], vars := [.cbsAt, .cbsCr, .drrCur, .drrDef, .drrQuant, .elogSeq,
      .flowCur, .flowDef, .flowQuant, .guardMiss, .guardOpen, .holdCount, .keyOld, .lockDest, .mkDue, .mkTx, .msixPend, .nextKey,
      .pcieFc, .pcieSent, .pktId, .polAt, .polC, .polP, .redAvg, .replayAt, .stipCnt, .stipSeq, .tagEp, .txCount, .txNum, .txSeq,
      .txUsed], fifos := [.elog, .faceWrote, .missLog, .viWrote], parts := [.buf, .coders, .free, .fwd, .greqs, .out, .prefs,
      .replay, .slots, .streams, .waiting] }

theorem execEgressFrameBoundary_within (p : PortId) (fc : BitVec 3) {σ τ : State} (hw : σ.wf) (he : execEgressFrameBoundary p fc σ = .next τ) : Within Foot.execEgressFrameBoundary σ τ := by
  have hF := Foot.le_refl Foot.execEgressFrameBoundary
  refine answer_within ?_ hw he
  clear he hw
  repeat' first
      | (with_reducible first | exact skip_in | exact all_nil_in | refine all_cons_in ?_ ?_ | refine look_in fun _ => ?_ | refine when_in ?_ | refine ite_in ?_ ?_ | refine forSome_in fun _ => ?_)
      | ((with_reducible refine put_in ?_); (· exact le_vars hF (by decide +kernel)))
      | ((with_reducible refine aspmEnter_in ?_ ..); (· exact Foot.le_trans (Foot.le_of_runs (by decide +kernel)) hF))
      | ((with_reducible refine changeKey_in ?_ ..); (· exact Foot.le_trans (Foot.le_of_runs (by decide +kernel)) hF))
      | ((with_reducible refine chargeTurns_in ?_ ..); (· exact Foot.le_trans (Foot.le_of_runs (by decide +kernel)) hF))
      | ((with_reducible refine countDeferred_in ?_ ..); (· exact Foot.le_trans (Foot.le_of_runs (by decide +kernel)) hF))
      | ((with_reducible refine dropMasterOff_in ?_ ..); (· exact Foot.le_trans (Foot.le_of_runs (by decide +kernel)) hF))
      | ((with_reducible refine finishCopy_in ?_ ..); (· exact Foot.le_trans (Foot.le_of_runs (by decide +kernel)) hF))
      | ((with_reducible refine linkFrame_in ?_ ..); (· exact Foot.le_trans (Foot.le_of_runs (by decide +kernel)) hF))
      | ((with_reducible refine sendMarker_in ?_ ..); (· exact Foot.le_trans (Foot.le_of_runs (by decide +kernel)) hF))
      | ((with_reducible refine sendPkt_in ?_ ..); (· exact Foot.le_trans (Foot.le_of_runs (by decide +kernel)) hF))
      | ((with_reducible refine sendSequenced_in ?_ ..); (· exact Foot.le_trans (Foot.le_of_runs (by decide +kernel)) hF))
      | ((with_reducible refine settleTurns_in ?_ ..); (· exact Foot.le_trans (Foot.le_of_runs (by decide +kernel)) hF))
      | ((with_reducible refine shaperAdvance_in ?_ ..); (· exact Foot.le_trans (Foot.le_of_runs (by decide +kernel)) hF))
      | ((with_reducible refine startCopy_in ?_ ..); (· exact Foot.le_trans (Foot.le_of_runs (by decide +kernel)) hF))
      | split
      | dsimp only

def Foot.execHatchEntry : Foot :=
  { regs := onFam .face fCnt ++ onFam .sched (fCnt ++ [.SCHED_HATCH_STAT_ENTRY_NOW]), cnts := [.face, .sched], vars := [.cbsAt,
      .cbsCr, .guardMiss, .guardOpen, .holdCount, .msixPend], fifos := [.faceWrote, .viWrote], parts := [.now, .out] }

theorem execHatchEntry_within (p : PortId) {σ τ : State} (hw : σ.wf) (he : execHatchEntry p σ = .next τ) : Within Foot.execHatchEntry σ τ := by
  have hF := Foot.le_refl Foot.execHatchEntry
  refine answer_within ?_ hw he
  clear he hw
  repeat' first
      | (with_reducible first | exact all_nil_in | refine all_cons_in ?_ ?_ | refine look_in fun _ => ?_ | refine when_in ?_ | refine forSome_in fun _ => ?_)
      | ((with_reducible refine wr_in ?_ ?_); (· first | exact own_mem (show _ ∈ tabSCHED by decide +kernel)); (· first | exact le_regs hF (show (Fam.sched, _) ∈ _ by decide +kernel)))
      | ((with_reducible refine gateChange_in ?_ ..); (· exact Foot.le_trans (Foot.le_of_runs (by decide +kernel)) hF))
      | ((with_reducible refine shaperAdvance_in ?_ ..); (· exact Foot.le_trans (Foot.le_of_runs (by decide +kernel)) hF))
      | ((with_reducible refine timeTo_in ?_ ..); (· exact Foot.le_trans (Foot.le_of_runs (by decide +kernel)) hF))
      | split
      | dsimp only

def Foot.execHatchArm : Foot :=
  { regs := onFam .guard (errFields ++ fCnt ++ [.GUARD_ELOG_CTRL_LOST]) ++ onFam .face fCnt ++ onFam .sched (errFields ++ fCnt ++
      [.SCHED_HATCH_CTRL_ARM, .SCHED_HATCH_CTRL_ARM_LIST, .SCHED_HATCH_CTRL_DISARM, .SCHED_HATCH_CTRL_FB_GATES,
      .SCHED_HATCH_CTRL_FB_MODE, .SCHED_HATCH_CTRL_LATE_POLICY, .SCHED_HATCH_CTRL_NEXT, .SCHED_HATCH_CTRL_STATUS,
      .SCHED_HATCH_STAT_A_STATE, .SCHED_HATCH_STAT_B_STATE]), cnts := [.guard, .face, .sched], vars := [.aerStamp, .arbLast,
      .cbsAt, .cbsCr, .elogSeq, .guardMiss, .guardOpen, .hatchAt, .hatchLate, .msixPend], fifos := [.elog, .faceWrote, .viWrote],
      parts := [.greqs, .out] }

theorem execHatchArm_within (st : Stamp) (p : PortId) (v : Word) {σ τ : State} (hw : σ.wf) (he : execHatchArm st p v σ = .next τ) : Within Foot.execHatchArm σ τ := by
  have hF := Foot.le_refl Foot.execHatchArm
  refine answer_within ?_ hw he
  clear he hw
  repeat' first
      | ((with_reducible refine granted_in ?_ ?_ _ _ ?_); (· rfl); (· first | exact Foot.le_trans (F := Foot.access .sched) (by decide +kernel) hF); skip)
      | ((with_reducible refine hatchCtrlWrite_in ?_ ..); (· exact Foot.le_trans (Foot.le_of_runs (by decide +kernel)) hF))
      | split
      | dsimp only

def Foot.execHatchArmNext : Foot :=
  { regs := onFam .guard (errFields ++ fCnt ++ [.GUARD_ELOG_CTRL_LOST]) ++ onFam .face fCnt ++ onFam .sched (errFields ++ fCnt ++
      [.SCHED_HATCH_CTRL_ARM, .SCHED_HATCH_CTRL_ARM_LIST, .SCHED_HATCH_CTRL_DISARM, .SCHED_HATCH_CTRL_FB_GATES,
      .SCHED_HATCH_CTRL_FB_MODE, .SCHED_HATCH_CTRL_LATE_POLICY, .SCHED_HATCH_CTRL_NEXT, .SCHED_HATCH_CTRL_STATUS,
      .SCHED_HATCH_STAT_A_STATE, .SCHED_HATCH_STAT_B_STATE]), cnts := [.guard, .face, .sched], vars := [.aerStamp, .arbLast,
      .cbsAt, .cbsCr, .elogSeq, .guardMiss, .guardOpen, .hatchAt, .hatchLate, .msixPend], fifos := [.elog, .faceWrote, .viWrote],
      parts := [.greqs, .out] }

theorem execHatchArmNext_within (st : Stamp) (p : PortId) (v : Word) {σ τ : State} (hw : σ.wf) (he : execHatchArmNext st p v σ = .next τ) : Within Foot.execHatchArmNext σ τ := by
  have hF := Foot.le_refl Foot.execHatchArmNext
  refine answer_within ?_ hw he
  clear he hw
  repeat' first
      | ((with_reducible refine granted_in ?_ ?_ _ _ ?_); (· rfl); (· first | exact Foot.le_trans (F := Foot.access .sched) (by decide +kernel) hF); skip)
      | ((with_reducible refine hatchCtrlWrite_in ?_ ..); (· exact Foot.le_trans (Foot.le_of_runs (by decide +kernel)) hF))
      | split
      | dsimp only

def Foot.execHatchDisarm : Foot :=
  { regs := onFam .guard (errFields ++ fCnt ++ [.GUARD_ELOG_CTRL_LOST]) ++ onFam .face fCnt ++ onFam .sched (errFields ++ fCnt ++
      [.SCHED_HATCH_CTRL_ARM, .SCHED_HATCH_CTRL_ARM_LIST, .SCHED_HATCH_CTRL_DISARM, .SCHED_HATCH_CTRL_FB_GATES,
      .SCHED_HATCH_CTRL_FB_MODE, .SCHED_HATCH_CTRL_LATE_POLICY, .SCHED_HATCH_CTRL_NEXT, .SCHED_HATCH_CTRL_STATUS,
      .SCHED_HATCH_STAT_A_STATE, .SCHED_HATCH_STAT_B_STATE]), cnts := [.guard, .face, .sched], vars := [.aerStamp, .arbLast,
      .cbsAt, .cbsCr, .elogSeq, .guardMiss, .guardOpen, .hatchAt, .hatchLate, .msixPend], fifos := [.elog, .faceWrote, .viWrote],
      parts := [.greqs, .out] }

theorem execHatchDisarm_within (st : Stamp) (p : PortId) (v : Word) {σ τ : State} (hw : σ.wf) (he : execHatchDisarm st p v σ = .next τ) : Within Foot.execHatchDisarm σ τ := by
  have hF := Foot.le_refl Foot.execHatchDisarm
  refine answer_within ?_ hw he
  clear he hw
  repeat' first
      | ((with_reducible refine granted_in ?_ ?_ _ _ ?_); (· rfl); (· first | exact Foot.le_trans (F := Foot.access .sched) (by decide +kernel) hF); skip)
      | ((with_reducible refine hatchCtrlWrite_in ?_ ..); (· exact Foot.le_trans (Foot.le_of_runs (by decide +kernel)) hF))
      | split
      | dsimp only

def Foot.execRestIdleExpiry : Foot :=
  { regs := onFam .lane (fCnt ++ [.LANE_REST_CTRL_IN_REST, .LANE_STAT_STATE]) ++ onFam .port (fCnt ++ [.PORT_LINK_STAT_STATE]) ++
      onFam .face fCnt, cnts := [.lane, .port, .face], vars := [.msixPend, .restSince], fifos := [.faceWrote, .viWrote], parts :=
      [.coders, .out] }

theorem execRestIdleExpiry_within (p : PortId) {σ τ : State} (hw : σ.wf) (he : execRestIdleExpiry p σ = .next τ) : Within Foot.execRestIdleExpiry σ τ := by
  have hF := Foot.le_refl Foot.execRestIdleExpiry
  refine answer_within ?_ hw he
  clear he hw
  repeat' first
      | (with_reducible first | exact all_nil_in | refine all_cons_in ?_ ?_ | refine look_in fun _ => ?_ | refine when_in ?_ | refine forEach_in fun _ => ?_)
      | ((with_reducible refine put_in ?_); (· exact le_vars hF (by decide +kernel)))
      | ((with_reducible refine emit_in ?_); (· exact le_parts hF (by decide +kernel)))
      | ((with_reducible refine wr_in ?_ ?_); (· first | exact hdr_mem rfl (by decide +kernel) | exact own_mem (show _ ∈ tabLANE by decide +kernel) | exact own_mem (show _ ∈ tabPORT by decide +kernel)); (· first | exact le_regs hF (show (Fam.face, _) ∈ _ by decide +kernel) | exact le_regs hF (show (Fam.lane, _) ∈ _ by decide +kernel) | exact le_regs hF (show (Fam.port, _) ∈ _ by decide +kernel)))
      | ((with_reducible refine wln_in ?_ ?_ _ _); (· decide +kernel); (· exact le_regs hF (by decide +kernel)))
      | ((with_reducible refine bump_in ?_ ?_ ..); (· rfl); (· first | exact Foot.le_trans (F := Foot.counting .port) (by decide +kernel) hF))
      | ((with_reducible refine laneCnt_in ?_ ..); (· exact Foot.le_trans (Foot.le_of_runs (by decide +kernel)) hF))
      | ((with_reducible refine onEveryLane_in ?_ ..); (· exact Foot.le_trans (Foot.le_of_runs (by decide +kernel)) hF))
      | split
      | dsimp only

def Foot.execGateWakeLead : Foot :=
  { regs := onFam .lane (fCnt ++ [.LANE_INJ_CTRL_ONE_SHOT, .LANE_REST_CTRL_IN_REST, .LANE_STAT_STATE]) ++ onFam .port
      [.PORT_LINK_STAT_STATE] ++ onFam .face fCnt, cnts := [.lane, .face], vars := [.alignTx, .injAlign, .msixPend, .restHeld,
      .restPend, .restSince], fifos := [.faceWrote, .viWrote], parts := [.coders, .out] }

theorem execGateWakeLead_within (p : PortId) {σ τ : State} (hw : σ.wf) (he : execGateWakeLead p σ = .next τ) : Within Foot.execGateWakeLead σ τ := by
  have hF := Foot.le_refl Foot.execGateWakeLead
  refine answer_within ?_ hw he
  clear he hw
  repeat' first
      | (with_reducible first | refine look_in fun _ => ?_ | refine when_in ?_)
      | ((with_reducible refine restExit_in ?_ ..); (· exact Foot.le_trans (Foot.le_of_runs (by decide +kernel)) hF))
      | split
      | dsimp only

end Sys2Proof.Machine
end

