-- ==== Sys2Proof/Laws/ExecFace.lean ====
section
/-! SUPPORT. What each command of Machine/Face.lean may touch. -/

namespace Sys2Proof.Machine

set_option Elab.async false
set_option linter.unusedTactic false
set_option linter.unreachableTactic false

def Foot.execFaceBindWrite : Foot :=
  { regs := onFam .guard (errFields ++ fCnt ++ [.GUARD_ELOG_CTRL_LOST]) ++ onFam .face (errFields ++ fCnt ++ [.FACE_BIND_ENABLE,
      .FACE_BIND_MGMT_GRANT, .FACE_BIND_PORT, .FACE_BIND_STATE]), cnts := [.guard, .face], vars := [.aerStamp, .arbLast, .elogSeq,
      .msixPend], fifos := [.elog, .faceWrote, .viWrote], parts := [.greqs, .out] }

theorem execFaceBindWrite_within (st : Stamp) (f : FaceId) (v : Word) {σ τ : State} (hw : σ.wf) (he : execFaceBindWrite st f v σ = .next τ) : Within Foot.execFaceBindWrite σ τ := by
  have hF := Foot.le_refl Foot.execFaceBindWrite
  refine answer_within ?_ hw he
  clear he hw
  repeat' first
      | ((with_reducible refine granted_in ?_ ?_ _ _ ?_); (· rfl); (· first | exact Foot.le_trans (F := Foot.access .face) (by decide +kernel) hF); skip)
      | ((with_reducible refine faceBindWrite_in ?_ ..); (· exact Foot.le_trans (Foot.le_of_runs (by decide +kernel)) hF))
      | split
      | dsimp only

def Foot.execPresentationUpdate : Foot :=
  { regs := onFam .guard (errFields ++ fCnt ++ [.GUARD_ELOG_CTRL_LOST]) ++ onFam .face (errFields ++ fCnt ++ [.FACE_BUS_LIMIT_LIMIT,
      .FACE_BUS_LIMIT_NEED, .FACE_BUS_LIMIT_NO_BUS, .FACE_PRES_BUSES, .FACE_PRES_CONFLICT, .FACE_PRES_FEID, .FACE_PRES_SHOWN,
      .FACE_PRES_SUB, .FACE_PRES_VALID, .FACE_PRES_VDP]), cnts := [.guard, .face], vars := [.aerStamp, .arbLast, .elogSeq,
      .msixPend, .presBar, .presBarSet, .presBase, .presCmd, .presInfo, .presRom, .sizing, .slotCtl, .slotStat], fifos := [.elog,
      .faceWrote, .viWrote], parts := [.greqs, .out] }

theorem execPresentationUpdate_within (st : Stamp) (f : FaceId) (n : Option (Fin 255)) (v : Word) {σ τ : State} (hw : σ.wf) (he : execPresentationUpdate st f n v σ = .next τ) : Within Foot.execPresentationUpdate σ τ := by
  have hF := Foot.le_refl Foot.execPresentationUpdate
  refine answer_within ?_ hw he
  clear he hw
  repeat' first
      | ((with_reducible refine presWrite_in ?_ _ _ _ _ ?_); (· exact Foot.le_trans (Foot.le_of_runs (by decide +kernel)) hF); (· intro k hk; cases n <;> simp at hk; omega))
      | ((with_reducible refine granted_in ?_ ?_ _ _ ?_); (· rfl); (· first | exact Foot.le_trans (F := Foot.access .face) (by decide +kernel) hF); skip)
      | ((with_reducible refine presWrite_in ?_ ..); (· exact Foot.le_trans (Foot.le_of_runs (by decide +kernel)) hF))
      | split
      | dsimp only

def Foot.execBarSizingDone : Foot :=
  { regs := onFam .face [.FACE_BUS_LIMIT_NEED, .FACE_PRES_SHOWN], vars := [.presInfo, .sizing, .slotCtl, .slotStat], parts := [.out]
      }

theorem execBarSizingDone_within (f : FaceId) (n : Fin 255) (bars : List BarLayout) {σ τ : State} (hw : σ.wf) (he : execBarSizingDone f n bars σ = .next τ) : Within Foot.execBarSizingDone σ τ := by
  have hF := Foot.le_refl Foot.execBarSizingDone
  refine answer_within ?_ hw he
  clear he hw
  repeat' first
      | (with_reducible first | exact all_nil_in | refine all_cons_in ?_ ?_ | refine look_in fun _ => ?_ | refine when_in ?_ | refine forEach_in fun _ => ?_)
      | ((with_reducible refine put_in ?_); (· exact le_vars hF (by decide +kernel)))
      | ((with_reducible refine wr_in ?_ ?_); (· first | exact own_mem (show _ ∈ tabFACE by decide +kernel)); (· first | exact le_regs hF (show (Fam.face, _) ∈ _ by decide +kernel)))
      | ((with_reducible refine slotEvent_in ?_ ..); (· exact Foot.le_trans (Foot.le_of_runs (by decide +kernel)) hF))
      | split
      | dsimp only

def Foot.execMsixTableWrite : Foot :=
  { regs := onFam .face fCnt, cnts := [.face], vars := [.msixAddr, .msixData, .msixOpen, .msixPend], fifos := [.faceWrote,
      .viWrote], parts := [.out] }

theorem execMsixTableWrite_within (f : FaceId) (off : BitVec 16) (v : Word) {σ τ : State} (hw : σ.wf) (he : execMsixTableWrite f off v σ = .next τ) : Within Foot.execMsixTableWrite σ τ := by
  have hF := Foot.le_refl Foot.execMsixTableWrite
  refine answer_within ?_ hw he
  clear he hw
  repeat' first
      | ((with_reducible refine msixWrite_in ?_ ..); (· exact Foot.le_trans (Foot.le_of_runs (by decide +kernel)) hF))
      | split
      | dsimp only

def Foot.execInterruptSourceFire : Foot :=
  { regs := onFam .face fCnt, cnts := [.face], vars := [.msixPend], fifos := [.faceWrote, .viWrote], parts := [.out] }

theorem execInterruptSourceFire_within (f : FaceId) (vec : VecId) {σ τ : State} (hw : σ.wf) (he : execInterruptSourceFire f vec σ = .next τ) : Within Foot.execInterruptSourceFire σ τ := by
  have hF := Foot.le_refl Foot.execInterruptSourceFire
  refine answer_within ?_ hw he
  clear he hw
  repeat' first
      | ((with_reducible refine msixFire_in ?_ ..); (· exact Foot.le_trans (F := Foot.interrupt) (by decide +kernel) hF))
      | split
      | dsimp only

def Foot.execWindowWrite : Foot :=
  { regs := onFam .guard (errFields ++ fCnt ++ [.GUARD_ELOG_CTRL_LOST]) ++ onFam .face (errFields ++ fCnt ++ [.FACE_WIN_COMMIT_GO,
      .FACE_WIN_COMMIT_INDEX, .FACE_WIN_COMMIT_OP, .FACE_WIN_COMMIT_STATUS, .FACE_WIN_TAB_BASE, .FACE_WIN_TAB_BASE_HI,
      .FACE_WIN_TAB_LINK_BAR, .FACE_WIN_TAB_LINK_EN, .FACE_WIN_TAB_LINK_PRES, .FACE_WIN_TAB_LOG2, .FACE_WIN_TAB_VALID,
      .FACE_WIN_TAB_XLAT, .FACE_WIN_TAB_XLAT_HI]), cnts := [.guard, .face], vars := [.aerStamp, .arbLast, .elogSeq, .msixPend],
      fifos := [.elog, .faceWrote, .viWrote], parts := [.greqs, .out] }

theorem execWindowWrite_within (st : Stamp) (f : FaceId) (v : Word) {σ τ : State} (hw : σ.wf) (he : execWindowWrite st f v σ = .next τ) : Within Foot.execWindowWrite σ τ := by
  have hF := Foot.le_refl Foot.execWindowWrite
  refine answer_within ?_ hw he
  clear he hw
  repeat' first
      | ((with_reducible refine granted_in ?_ ?_ _ _ ?_); (· rfl); (· first | exact Foot.le_trans (F := Foot.access .face) (by decide +kernel) hF); skip)
      | ((with_reducible refine winCommitWrite_in ?_ ..); (· exact Foot.le_trans (Foot.le_of_runs (by decide +kernel)) hF))
      | split
      | dsimp only

def Foot.execWindowWriteAny : Foot :=
  { regs := onFam .guard (errFields ++ fCnt ++ [.GUARD_ELOG_CTRL_LOST]) ++ onFam .face (errFields ++ fCnt ++ [.FACE_WIN_COMMIT_GO,
      .FACE_WIN_COMMIT_INDEX, .FACE_WIN_COMMIT_OP, .FACE_WIN_COMMIT_STATUS, .FACE_WIN_TAB_BASE, .FACE_WIN_TAB_BASE_HI,
      .FACE_WIN_TAB_LINK_BAR, .FACE_WIN_TAB_LINK_EN, .FACE_WIN_TAB_LINK_PRES, .FACE_WIN_TAB_LOG2, .FACE_WIN_TAB_VALID,
      .FACE_WIN_TAB_XLAT, .FACE_WIN_TAB_XLAT_HI]), cnts := [.guard, .face], vars := [.aerStamp, .arbLast, .elogSeq, .msixPend],
      fifos := [.elog, .faceWrote, .viWrote], parts := [.greqs, .out] }

theorem execWindowWriteAny_within (st : Stamp) (f : FaceId) (v : Word) {σ τ : State} (hw : σ.wf) (he : execWindowWriteAny st f v σ = .next τ) : Within Foot.execWindowWriteAny σ τ := by
  have hF := Foot.le_refl Foot.execWindowWriteAny
  refine answer_within ?_ hw he
  clear he hw
  repeat' first
      | ((with_reducible refine granted_in ?_ ?_ _ _ ?_); (· rfl); (· first | exact Foot.le_trans (F := Foot.access .face) (by decide +kernel) hF); skip)
      | ((with_reducible refine winCommitWrite_in ?_ ..); (· exact Foot.le_trans (Foot.le_of_runs (by decide +kernel)) hF))
      | split
      | dsimp only

def Foot.execWindowInvalidate : Foot :=
  { regs := onFam .guard (errFields ++ fCnt ++ [.GUARD_ELOG_CTRL_LOST]) ++ onFam .face (errFields ++ fCnt ++ [.FACE_WIN_COMMIT_GO,
      .FACE_WIN_COMMIT_INDEX, .FACE_WIN_COMMIT_OP, .FACE_WIN_COMMIT_STATUS, .FACE_WIN_TAB_BASE, .FACE_WIN_TAB_BASE_HI,
      .FACE_WIN_TAB_LINK_BAR, .FACE_WIN_TAB_LINK_EN, .FACE_WIN_TAB_LINK_PRES, .FACE_WIN_TAB_LOG2, .FACE_WIN_TAB_VALID,
      .FACE_WIN_TAB_XLAT, .FACE_WIN_TAB_XLAT_HI]), cnts := [.guard, .face], vars := [.aerStamp, .arbLast, .elogSeq, .msixPend],
      fifos := [.elog, .faceWrote, .viWrote], parts := [.greqs, .out] }

theorem execWindowInvalidate_within (st : Stamp) (f : FaceId) (v : Word) {σ τ : State} (hw : σ.wf) (he : execWindowInvalidate st f v σ = .next τ) : Within Foot.execWindowInvalidate σ τ := by
  have hF := Foot.le_refl Foot.execWindowInvalidate
  refine answer_within ?_ hw he
  clear he hw
  repeat' first
      | ((with_reducible refine granted_in ?_ ?_ _ _ ?_); (· rfl); (· first | exact Foot.le_trans (F := Foot.access .face) (by decide +kernel) hF); skip)
      | ((with_reducible refine winCommitWrite_in ?_ ..); (· exact Foot.le_trans (Foot.le_of_runs (by decide +kernel)) hF))
      | split
      | dsimp only

end Sys2Proof.Machine
end

