-- ==== Sys2Proof/Laws/ExecGuard.lean ====
section
/-! SUPPORT. What each command of Machine/Guard.lean may touch. -/

namespace Sys2Proof.Machine

set_option Elab.async false
set_option linter.unusedTactic false
set_option linter.unreachableTactic false

def Foot.execPowerQuiesceDrained : Foot :=
  { regs := onFam .sec (errFields ++ fCnt ++ [.SEC_IDE_STAT_DEV_AUTH, .SEC_IDE_STAT_LINK_ID, .SEC_IDE_STAT_LINK_KSET,
      .SEC_IDE_STAT_LINK_SECURE, .SEC_IDE_STAT_SEL_SECURE, .SEC_IDE_STAT_SEL_VALID, .SEC_LINK_STAT_AUTH_OK,
      .SEC_LINK_STAT_AUTH_STATUS, .SEC_LINK_STAT_PARTNER_DEBUG, .SEC_LINK_STAT_REKEY, .SEC_LINK_STAT_REKEYS]) ++ onFam .guard
      (errFields ++ fCnt ++ [.GUARD_ELOG_CTRL_LOST]) ++ onFam .lane [.LANE_INJ_CTRL_ONE_SHOT, .LANE_RATE_CFG_RATE_NOW,
      .LANE_REST_CTRL_IN_REST, .LANE_STAT_ALIGN_LOCK, .LANE_STAT_CDR_LOCK, .LANE_STAT_EQ_DONE, .LANE_STAT_EQ_FAIL,
      .LANE_STAT_EXIT_FAIL, .LANE_STAT_FAILED, .LANE_STAT_FEC_LOCK, .LANE_STAT_RX_READY, .LANE_STAT_STATE, .LANE_TX_TAPS_C0,
      .LANE_TX_TAPS_POST, .LANE_TX_TAPS_PRE] ++ onFam .core (errFields ++ fCnt ++ [.CORE_WM_STAT_WM_CROSS_CNT,
      .CORE_WM_STAT_WM_EVENT, .CORE_WM_STAT_WM_LEVEL]) ++ onFam .route (errFields ++ fCnt) ++ onFam .bridge (errFields ++ fCnt ++
      [.BRIDGE_FAB_NBR_PARTNER_PORT, .BRIDGE_FAB_NBR_PARTNER_SW, .BRIDGE_FAB_NBR_VALID, .BRIDGE_LOCK_STAT_HOLDER,
      .BRIDGE_LOCK_STAT_LOCKED, .BRIDGE_PROOF_WM_STAT_WM_CROSS_CNT, .BRIDGE_PROOF_WM_STAT_WM_EVENT,
      .BRIDGE_PROOF_WM_STAT_WM_LEVEL]) ++ onFam .port [.PORT_LINK_STAT_ENC, .PORT_LINK_STAT_FLIT, .PORT_LINK_STAT_KEY_PHASE,
      .PORT_LINK_STAT_LANES_GOOD, .PORT_LINK_STAT_RATE_NOW, .PORT_LINK_STAT_STATE, .PORT_LINK_STAT_WIDTH_NOW,
      .PORT_REPLAY_CNT_CONSEC] ++ onFam .face (errFields ++ fCnt ++ [.FACE_BIND_STATE, .FACE_PM_STAT_LINK_PM]) ++ onFam .schedg
      fCnt, cnts := [.sec, .guard, .core, .route, .bridge, .face, .schedg], vars := [.alignMiss, .alignSeen, .authDebug,
      .authStep, .badCw, .cbsAt, .cbsCr, .crAdv, .crInit, .crUsed, .elogSeq, .eqTimeouts, .ideGo, .ideKey, .injAlign, .lockDest,
      .lsSeen, .mkDue, .mkRx, .mkTx, .msixPend, .nakSent, .nextKey, .ownReq, .paramGot, .paramVal, .partnerAspm, .partnerMax,
      .partnerReady, .partnerRest, .pcieAcked, .pcieRev, .pcieSent, .peerReq, .pktId, .polAt, .polC, .polP, .postStat, .preStat,
      .presetStat, .redAvg, .rekeying, .replayAt, .restHeld, .restPend, .restSince, .rxKey, .rxNum, .rxRest, .rxSeq, .rxUnacked,
      .skewCnt, .stipCnt, .stipSeq, .tagEp, .txCount, .txKey, .txLimit, .txNum, .txSeq, .txUsed, .wcDone, .wcFrom, .wcId,
      .wcOldWidth, .wcSet, .widening], fifos := [.elog, .faceWrote, .missLog, .viWrote], parts := [.buf, .free, .fwd, .greqs,
      .out, .prefs, .replay, .slots, .streams, .waiting] }

theorem execPowerQuiesceDrained_within (p : PortId) {σ τ : State} (hw : σ.wf) (he : execPowerQuiesceDrained p σ = .next τ) : Within Foot.execPowerQuiesceDrained σ τ := by
  have hF := Foot.le_refl Foot.execPowerQuiesceDrained
  refine answer_within ?_ hw he
  clear he hw
  repeat' first
      | (with_reducible first | refine look_in fun _ => ?_ | refine when_in ?_)
      | ((with_reducible refine quiesceEnds_in ?_ ..); (· exact Foot.le_trans (Foot.le_of_runs (by decide +kernel)) hF))
      | split
      | dsimp only

def Foot.execQuiesceUsExpiry : Foot :=
  { regs := onFam .sec (errFields ++ fCnt ++ [.SEC_IDE_STAT_DEV_AUTH, .SEC_IDE_STAT_LINK_ID, .SEC_IDE_STAT_LINK_KSET,
      .SEC_IDE_STAT_LINK_SECURE, .SEC_IDE_STAT_SEL_SECURE, .SEC_IDE_STAT_SEL_VALID, .SEC_LINK_STAT_AUTH_OK,
      .SEC_LINK_STAT_AUTH_STATUS, .SEC_LINK_STAT_PARTNER_DEBUG, .SEC_LINK_STAT_REKEY, .SEC_LINK_STAT_REKEYS]) ++ onFam .guard
      (errFields ++ fCnt ++ [.GUARD_ELOG_CTRL_LOST]) ++ onFam .lane [.LANE_INJ_CTRL_ONE_SHOT, .LANE_RATE_CFG_RATE_NOW,
      .LANE_REST_CTRL_IN_REST, .LANE_STAT_ALIGN_LOCK, .LANE_STAT_CDR_LOCK, .LANE_STAT_EQ_DONE, .LANE_STAT_EQ_FAIL,
      .LANE_STAT_EXIT_FAIL, .LANE_STAT_FAILED, .LANE_STAT_FEC_LOCK, .LANE_STAT_RX_READY, .LANE_STAT_STATE, .LANE_TX_TAPS_C0,
      .LANE_TX_TAPS_POST, .LANE_TX_TAPS_PRE] ++ onFam .core (errFields ++ fCnt ++ [.CORE_WM_STAT_WM_CROSS_CNT,
      .CORE_WM_STAT_WM_EVENT, .CORE_WM_STAT_WM_LEVEL]) ++ onFam .route (errFields ++ fCnt) ++ onFam .bridge (errFields ++ fCnt ++
      [.BRIDGE_FAB_NBR_PARTNER_PORT, .BRIDGE_FAB_NBR_PARTNER_SW, .BRIDGE_FAB_NBR_VALID, .BRIDGE_LOCK_STAT_HOLDER,
      .BRIDGE_LOCK_STAT_LOCKED, .BRIDGE_PROOF_WM_STAT_WM_CROSS_CNT, .BRIDGE_PROOF_WM_STAT_WM_EVENT,
      .BRIDGE_PROOF_WM_STAT_WM_LEVEL]) ++ onFam .port [.PORT_LINK_STAT_ENC, .PORT_LINK_STAT_FLIT, .PORT_LINK_STAT_KEY_PHASE,
      .PORT_LINK_STAT_LANES_GOOD, .PORT_LINK_STAT_RATE_NOW, .PORT_LINK_STAT_STATE, .PORT_LINK_STAT_WIDTH_NOW,
      .PORT_REPLAY_CNT_CONSEC] ++ onFam .face (errFields ++ fCnt ++ [.FACE_BIND_STATE, .FACE_PM_STAT_LINK_PM]) ++ onFam .schedg
      fCnt, cnts := [.sec, .guard, .core, .route, .bridge, .face, .schedg], vars := [.alignMiss, .alignSeen, .authDebug,
      .authStep, .badCw, .cbsAt, .cbsCr, .crAdv, .crInit, .crUsed, .elogSeq, .eqTimeouts, .ideGo, .ideKey, .injAlign, .lockDest,
      .lsSeen, .mkDue, .mkRx, .mkTx, .msixPend, .nakSent, .nextKey, .ownReq, .paramGot, .paramVal, .partnerAspm, .partnerMax,
      .partnerReady, .partnerRest, .pcieAcked, .pcieRev, .pcieSent, .peerReq, .pktId, .polAt, .polC, .polP, .postStat, .preStat,
      .presetStat, .redAvg, .rekeying, .replayAt, .restHeld, .restPend, .restSince, .rxKey, .rxNum, .rxRest, .rxSeq, .rxUnacked,
      .skewCnt, .stipCnt, .stipSeq, .tagEp, .txCount, .txKey, .txLimit, .txNum, .txSeq, .txUsed, .wcDone, .wcFrom, .wcId,
      .wcOldWidth, .wcSet, .widening], fifos := [.elog, .faceWrote, .missLog, .viWrote], parts := [.buf, .free, .fwd, .greqs,
      .out, .prefs, .replay, .slots, .streams, .waiting] }

theorem execQuiesceUsExpiry_within (p : PortId) {σ τ : State} (hw : σ.wf) (he : execQuiesceUsExpiry p σ = .next τ) : Within Foot.execQuiesceUsExpiry σ τ := by
  have hF := Foot.le_refl Foot.execQuiesceUsExpiry
  refine answer_within ?_ hw he
  clear he hw
  repeat' first
      | ((with_reducible refine quiesceEnds_in ?_ ..); (· exact Foot.le_trans (Foot.le_of_runs (by decide +kernel)) hF))
      | split
      | dsimp only

def Foot.execContainmentRequest : Foot :=
  { regs := onFam .glb [.GLB_DEV_STATE_STATE] ++ onFam .sec (errFields ++ fCnt ++ [.SEC_IDE_STAT_DEV_AUTH, .SEC_IDE_STAT_LINK_ID,
      .SEC_IDE_STAT_LINK_KSET, .SEC_IDE_STAT_LINK_SECURE, .SEC_IDE_STAT_SEL_SECURE, .SEC_IDE_STAT_SEL_VALID,
      .SEC_LINK_STAT_AUTH_OK, .SEC_LINK_STAT_AUTH_STATUS, .SEC_LINK_STAT_PARTNER_DEBUG, .SEC_LINK_STAT_REKEY,
      .SEC_LINK_STAT_REKEYS]) ++ onFam .guard (errFields ++ fCnt ++ [.GDS_DEVICE_BY_SW, .GDS_DEVICE_CLASS, .GDS_DEVICE_HOLD,
      .GDS_DEVICE_MERGED, .GDS_DEVICE_STATE, .GDS_DEVICE_WINDOW, .GDS_FACE_BY_SW, .GDS_FACE_CLASS, .GDS_FACE_HOLD,
      .GDS_FACE_MERGED, .GDS_FACE_STATE, .GDS_FACE_WINDOW, .GDS_INST_BY_SW, .GDS_INST_CLASS, .GDS_INST_HOLD, .GDS_INST_MERGED,
      .GDS_INST_STATE, .GDS_INST_WINDOW, .GDS_LANE_BY_SW, .GDS_LANE_CLASS, .GDS_LANE_HOLD, .GDS_LANE_MERGED, .GDS_LANE_STATE,
      .GDS_LANE_WINDOW, .GDS_LINK_BY_SW, .GDS_LINK_CLASS, .GDS_LINK_HOLD, .GDS_LINK_MERGED, .GDS_LINK_STATE, .GDS_LINK_WINDOW,
      .GDS_PORT_BY_SW, .GDS_PORT_CLASS, .GDS_PORT_HOLD, .GDS_PORT_MERGED, .GDS_PORT_STATE, .GDS_PORT_WINDOW,
      .GUARD_ELOG_CTRL_LOST, .GUARD_HALT_CAUSE_BIT, .GUARD_HALT_CAUSE_BLOCK, .GUARD_HALT_CAUSE_CAUSE, .GUARD_HALT_CAUSE_DINST,
      .GUARD_HALT_CAUSE_VALID]) ++ onFam .lane [.LANE_INJ_CTRL_ONE_SHOT, .LANE_RATE_CFG_RATE_NOW, .LANE_REST_CTRL_IN_REST,
      .LANE_STAT_ALIGN_LOCK, .LANE_STAT_CDR_LOCK, .LANE_STAT_EQ_DONE, .LANE_STAT_EQ_FAIL, .LANE_STAT_EXIT_FAIL, .LANE_STAT_FAILED,
      .LANE_STAT_FEC_LOCK, .LANE_STAT_RX_READY, .LANE_STAT_STATE, .LANE_TX_TAPS_C0, .LANE_TX_TAPS_POST, .LANE_TX_TAPS_PRE] ++
      onFam .core (errFields ++ fCnt ++ [.CORE_WM_STAT_WM_CROSS_CNT, .CORE_WM_STAT_WM_EVENT, .CORE_WM_STAT_WM_LEVEL]) ++ onFam
      .route (errFields ++ fCnt ++ [.ROUTE_TURN_CTRL_ARM, .ROUTE_TURN_CTRL_STATUS]) ++ onFam .bridge (errFields ++ fCnt ++
      [.BRIDGE_FAB_NBR_PARTNER_PORT, .BRIDGE_FAB_NBR_PARTNER_SW, .BRIDGE_FAB_NBR_VALID, .BRIDGE_LOCK_STAT_HOLDER,
      .BRIDGE_LOCK_STAT_LOCKED, .BRIDGE_PROOF_WM_STAT_WM_CROSS_CNT, .BRIDGE_PROOF_WM_STAT_WM_EVENT,
      .BRIDGE_PROOF_WM_STAT_WM_LEVEL]) ++ onFam .mbox (fCnt ++ [.MBOX_SEM_PEEK_HELD, .MBOX_SEM_PEEK_OWNER]) ++ onFam .port
      (errFields ++ [.BLK_CTRL_QUIESCE, .BLK_STAT_QUIESCED, .PORT_LINK_STAT_ENC, .PORT_LINK_STAT_FLIT, .PORT_LINK_STAT_KEY_PHASE,
      .PORT_LINK_STAT_LANES_GOOD, .PORT_LINK_STAT_RATE_NOW, .PORT_LINK_STAT_STATE, .PORT_LINK_STAT_WIDTH_NOW,
      .PORT_REPLAY_CNT_CONSEC]) ++ onFam .face (errFields ++ fCnt ++ [.BLK_CTRL_SOFT_RESET, .CNT_CLR_CLR, .CNT_HI_HIGH,
      .CNT_LO_LOW, .FACE_BIND_STATE, .FACE_BUS_LIMIT_NEED, .FACE_BUS_LIMIT_NO_BUS, .FACE_FLR_STAT_BUSY, .FACE_FLR_STAT_DONE,
      .FACE_FLR_STAT_TIME_US, .FACE_PM_STAT_FWAKE, .FACE_PM_STAT_LINK_PM, .FACE_PM_STAT_PME_EN, .FACE_PM_STAT_PME_STATUS,
      .FACE_PM_STAT_SE_D, .FACE_PM_STAT_USP_D, .FACE_PRES_CONFLICT, .FACE_PRES_SHOWN, .FACE_TAG_CTRL_REQ_WIDTH,
      .FACE_WIN_BASE_ADDR, .FACE_WIN_BASE_ADDR_HI, .FACE_WIN_COMMIT_GO, .FACE_WIN_COMMIT_INDEX, .FACE_WIN_COMMIT_OP,
      .FACE_WIN_COMMIT_STATUS, .FACE_WIN_SIZE_LINK_BAR, .FACE_WIN_SIZE_LINK_EN, .FACE_WIN_SIZE_LINK_PRES, .FACE_WIN_SIZE_LOG2,
      .FACE_WIN_TAB_ACTIVE, .FACE_WIN_TAB_BASE, .FACE_WIN_TAB_BASE_HI, .FACE_WIN_TAB_LINK_BAR, .FACE_WIN_TAB_LINK_EN,
      .FACE_WIN_TAB_LINK_PRES, .FACE_WIN_TAB_LOG2, .FACE_WIN_TAB_VALID, .FACE_WIN_TAB_XLAT, .FACE_WIN_TAB_XLAT_HI,
      .FACE_WIN_XLAT_ADDR, .FACE_WIN_XLAT_ADDR_HI]) ++ onFam .schedg fCnt ++ onFam .sched [.SCHED_HATCH_CTRL_ARM,
      .SCHED_HATCH_STAT_A_STATE, .SCHED_HATCH_STAT_B_STATE] ++ onFam .inst [.INST_STAT_FENCED, .INST_STAT_FLUSH_TO,
      .INST_STAT_RESETTING, .INST_STAT_TDI] ++ onFam .moverg errFields ++ onFam .eng fCnt ++ onFam .ring [.MOVER_RING_BASE_ADDR,
      .MOVER_RING_BASE_ADDR_HI, .MOVER_RING_CFG_ENABLE, .MOVER_RING_CFG_ENGINE, .MOVER_RING_CFG_KIND, .MOVER_RING_CFG_OWNER,
      .MOVER_RING_CFG_OWN_KIND, .MOVER_RING_CFG_SIZE_LOG2, .MOVER_RING_CFG_STOP_ON_ERR, .MOVER_RING_CPL_BASE_ADDR,
      .MOVER_RING_CPL_BASE_ADDR_HI, .MOVER_RING_CPL_CTRL_COAL_US, .MOVER_RING_CPL_CTRL_IRQ_EN, .MOVER_RING_CPL_CTRL_MODE,
      .MOVER_RING_CPL_CTRL_VECTOR, .MOVER_RING_CPL_FIFO_DW, .MOVER_RING_CPL_HEAD_CPL_HEAD, .MOVER_RING_CPL_TAIL_CPL_TAIL,
      .MOVER_RING_CPL_TAIL_PHASE, .MOVER_RING_HEAD_HEAD, .MOVER_RING_STAT_LAST_INDEX, .MOVER_RING_STAT_LAST_STATUS,
      .MOVER_RING_STAT_RESUME, .MOVER_RING_STAT_STATE, .MOVER_RING_TAIL_TAIL], cnts := [.sec, .guard, .core, .route, .bridge,
      .mbox, .face, .schedg, .eng], vars := [.alignMiss, .alignSeen, .aspm, .authDebug, .authStep, .badCw, .bme, .bridgeCtl,
      .bridgeD3, .cbsAt, .cbsCr, .coalDue, .coalOn, .crAdv, .crInit, .crUsed, .devReset, .elogSeq, .eqTimeouts, .faceEpoch,
      .fetchAt, .fetchN, .fetchTag, .guardBack, .guardPartner, .haltRel, .hatchAt, .hatchLate, .ideGo, .ideKey, .injAlign,
      .linkDis, .lockDest, .lsSeen, .meDef, .memWin, .mkDue, .mkRx, .mkTx, .mse, .msixAddr, .msixData, .msixEnable, .msixFnMask,
      .msixOpen, .msixPend, .nakSent, .nextKey, .ownReq, .paramGot, .paramVal, .partnerAspm, .partnerMax, .partnerReady,
      .partnerRest, .pcieAcked, .pcieRev, .pcieSent, .peerReq, .pktId, .pmeOff, .polAt, .polC, .polP, .portFenced, .postStat,
      .preStat, .prefBase, .prefLimit, .prefWin, .presBar, .presBarSet, .presBase, .presCmd, .presInfo, .presRom, .presetStat,
      .priBus, .ptmCount, .ptmEnable, .redAvg, .rehome, .rekeying, .replayAt, .restHeld, .restPend, .restSince, .rxKey, .rxNum,
      .rxRest, .rxSeq, .rxUnacked, .seBar, .seBusMaster, .seMps, .seMrrs, .seMse, .sePasid, .seTags, .secBus, .sizing, .skewCnt,
      .slotCtl, .slotStat, .stipCnt, .stipSeq, .stopWaits, .subBus, .tagEp, .turnAt, .txCount, .txKey, .txLimit, .txNum, .txSeq,
      .txUsed, .uspMps, .wcCount, .wcDone, .wcFrom, .wcId, .wcOldWidth, .wcSet, .widening, .win], fifos := [.cplFifo, .elog,
      .faceWrote, .flushTodo, .missLog, .ringWrote, .viWrote], parts := [.buf, .coders, .descs, .free, .fwd, .greqs, .out, .prefs,
      .replay, .slots, .streams, .waiting] }

theorem execContainmentRequest_within  {σ τ : State} (hw : σ.wf) (he : execContainmentRequest σ = .next τ) : Within Foot.execContainmentRequest σ τ := by
  have hF := Foot.le_refl Foot.execContainmentRequest
  refine answer_within ?_ hw he
  clear he hw
  repeat' first
      | (with_reducible first | exact skip_in | exact all_nil_in | refine all_cons_in ?_ ?_ | refine look_in fun _ => ?_)
      | ((with_reducible refine modGreqs_in ?_); (· exact le_parts hF (by decide +kernel)))
      | ((with_reducible refine handle_in ?_ ..); (· exact Foot.le_trans (Foot.le_of_runs (by decide +kernel)) hF))
      | split
      | dsimp only

def Foot.execRecoveryComplete : Foot :=
  { regs := onFam .guard (errFields ++ fCnt ++ [.GDS_DEVICE_BY_SW, .GDS_DEVICE_CLASS, .GDS_DEVICE_HOLD, .GDS_DEVICE_MERGED,
      .GDS_DEVICE_STATE, .GDS_DEVICE_WINDOW, .GDS_FACE_BY_SW, .GDS_FACE_CLASS, .GDS_FACE_HOLD, .GDS_FACE_MERGED, .GDS_FACE_STATE,
      .GDS_FACE_WINDOW, .GDS_INST_BY_SW, .GDS_INST_CLASS, .GDS_INST_HOLD, .GDS_INST_MERGED, .GDS_INST_STATE, .GDS_INST_WINDOW,
      .GDS_LANE_BY_SW, .GDS_LANE_CLASS, .GDS_LANE_HOLD, .GDS_LANE_MERGED, .GDS_LANE_STATE, .GDS_LANE_WINDOW, .GDS_LINK_BY_SW,
      .GDS_LINK_CLASS, .GDS_LINK_HOLD, .GDS_LINK_MERGED, .GDS_LINK_STATE, .GDS_LINK_WINDOW, .GDS_PORT_BY_SW, .GDS_PORT_CLASS,
      .GDS_PORT_HOLD, .GDS_PORT_MERGED, .GDS_PORT_STATE, .GDS_PORT_WINDOW, .GUARD_ELOG_CTRL_LOST]) ++ onFam .core (fCnt ++
      [.CORE_WM_STAT_WM_CROSS_CNT, .CORE_WM_STAT_WM_EVENT, .CORE_WM_STAT_WM_LEVEL]) ++ onFam .route (errFields ++ fCnt) ++ onFam
      .bridge (errFields ++ fCnt ++ [.BRIDGE_LOCK_STAT_HOLDER, .BRIDGE_LOCK_STAT_LOCKED, .BRIDGE_PROOF_WM_STAT_WM_CROSS_CNT,
      .BRIDGE_PROOF_WM_STAT_WM_EVENT, .BRIDGE_PROOF_WM_STAT_WM_LEVEL]) ++ onFam .face (errFields ++ fCnt ++ [.FACE_BUS_LIMIT_NEED,
      .FACE_BUS_LIMIT_NO_BUS, .FACE_PRES_CONFLICT]) ++ onFam .schedg fCnt, cnts := [.guard, .core, .route, .bridge, .face,
      .schedg], vars := [.cbsAt, .cbsCr, .elogSeq, .msixPend, .pktId, .polAt, .polC, .polP, .portFenced, .reachLeft, .redAvg,
      .sizing, .stipCnt, .stipSeq], fifos := [.elog, .faceWrote, .missLog, .viWrote], parts := [.buf, .free, .greqs, .out,
      .streams, .waiting] }

theorem execRecoveryComplete_within (d : Dom) {σ τ : State} (hw : σ.wf) (he : execRecoveryComplete d σ = .next τ) : Within Foot.execRecoveryComplete σ τ := by
  have hF := Foot.le_refl Foot.execRecoveryComplete
  refine answer_within ?_ hw he
  clear he hw
  repeat' first
      | (with_reducible first | refine look_in fun _ => ?_ | refine when_in ?_)
      | ((with_reducible refine finishRecovery_in ?_ ..); (· exact Foot.le_trans (Foot.le_of_runs (by decide +kernel)) hF))
      | split
      | dsimp only

def Foot.execRecoveryTimeout : Foot :=
  { regs := onFam .guard (errFields ++ fCnt ++ [.GDS_DEVICE_BY_SW, .GDS_DEVICE_CLASS, .GDS_DEVICE_HOLD, .GDS_DEVICE_MERGED,
      .GDS_DEVICE_STATE, .GDS_DEVICE_WINDOW, .GDS_FACE_BY_SW, .GDS_FACE_CLASS, .GDS_FACE_HOLD, .GDS_FACE_MERGED, .GDS_FACE_STATE,
      .GDS_FACE_WINDOW, .GDS_INST_BY_SW, .GDS_INST_CLASS, .GDS_INST_HOLD, .GDS_INST_MERGED, .GDS_INST_STATE, .GDS_INST_WINDOW,
      .GDS_LANE_BY_SW, .GDS_LANE_CLASS, .GDS_LANE_HOLD, .GDS_LANE_MERGED, .GDS_LANE_STATE, .GDS_LANE_WINDOW, .GDS_LINK_BY_SW,
      .GDS_LINK_CLASS, .GDS_LINK_HOLD, .GDS_LINK_MERGED, .GDS_LINK_STATE, .GDS_LINK_WINDOW, .GDS_PORT_BY_SW, .GDS_PORT_CLASS,
      .GDS_PORT_HOLD, .GDS_PORT_MERGED, .GDS_PORT_STATE, .GDS_PORT_WINDOW, .GUARD_ELOG_CTRL_LOST]) ++ onFam .face fCnt, cnts :=
      [.guard, .face], vars := [.elogSeq, .msixPend], fifos := [.elog, .faceWrote, .viWrote], parts := [.greqs, .out] }

theorem execRecoveryTimeout_within (d : Dom) {σ τ : State} (hw : σ.wf) (he : execRecoveryTimeout d σ = .next τ) : Within Foot.execRecoveryTimeout σ τ := by
  have hF := Foot.le_refl Foot.execRecoveryTimeout
  refine answer_within ?_ hw he
  clear he hw
  repeat' first
      | (with_reducible first | exact all_nil_in | refine all_cons_in ?_ ?_ | refine look_in fun _ => ?_ | refine when_in ?_ | refine forEach_in fun _ => ?_)
      | ((with_reducible refine bump_in ?_ ?_ ..); (· rfl); (· first | exact Foot.le_trans (F := Foot.counting .guard) (by decide +kernel) hF))
      | ((with_reducible refine raise_in ?_ ?_ ..); (· rfl); (· first | exact Foot.le_trans (F := Foot.error .guard) (by decide +kernel) hF))
      | ((with_reducible refine logRec_in ?_ ..); (· exact Foot.le_trans (F := Foot.log) (by decide +kernel) hF))
      | ((with_reducible refine wgds_in ?_ _ ?_ _); (· exact Foot.le_trans (Foot.le_of_runs (by decide +kernel)) hF); (· exact (by decide +kernel)))
      | split
      | dsimp only

def Foot.execRecoveryWindowClose : Foot :=
  { regs := onFam .guard (errFields ++ fCnt ++ [.GDS_DEVICE_BY_SW, .GDS_DEVICE_CLASS, .GDS_DEVICE_HOLD, .GDS_DEVICE_MERGED,
      .GDS_DEVICE_STATE, .GDS_DEVICE_WINDOW, .GDS_FACE_BY_SW, .GDS_FACE_CLASS, .GDS_FACE_HOLD, .GDS_FACE_MERGED, .GDS_FACE_STATE,
      .GDS_FACE_WINDOW, .GDS_INST_BY_SW, .GDS_INST_CLASS, .GDS_INST_HOLD, .GDS_INST_MERGED, .GDS_INST_STATE, .GDS_INST_WINDOW,
      .GDS_LANE_BY_SW, .GDS_LANE_CLASS, .GDS_LANE_HOLD, .GDS_LANE_MERGED, .GDS_LANE_STATE, .GDS_LANE_WINDOW, .GDS_LINK_BY_SW,
      .GDS_LINK_CLASS, .GDS_LINK_HOLD, .GDS_LINK_MERGED, .GDS_LINK_STATE, .GDS_LINK_WINDOW, .GDS_PORT_BY_SW, .GDS_PORT_CLASS,
      .GDS_PORT_HOLD, .GDS_PORT_MERGED, .GDS_PORT_STATE, .GDS_PORT_WINDOW, .GUARD_ELOG_CTRL_LOST]) ++ onFam .core (fCnt ++
      [.CORE_WM_STAT_WM_CROSS_CNT, .CORE_WM_STAT_WM_EVENT, .CORE_WM_STAT_WM_LEVEL]) ++ onFam .route (errFields ++ fCnt) ++ onFam
      .bridge (errFields ++ fCnt ++ [.BRIDGE_LOCK_STAT_HOLDER, .BRIDGE_LOCK_STAT_LOCKED, .BRIDGE_PROOF_WM_STAT_WM_CROSS_CNT,
      .BRIDGE_PROOF_WM_STAT_WM_EVENT, .BRIDGE_PROOF_WM_STAT_WM_LEVEL]) ++ onFam .face (errFields ++ fCnt ++ [.FACE_BUS_LIMIT_NEED,
      .FACE_BUS_LIMIT_NO_BUS, .FACE_PRES_CONFLICT]) ++ onFam .schedg fCnt, cnts := [.guard, .core, .route, .bridge, .face,
      .schedg], vars := [.cbsAt, .cbsCr, .elogSeq, .msixPend, .pktId, .polAt, .polC, .polP, .portFenced, .reachLeft, .redAvg,
      .sizing, .stipCnt, .stipSeq], fifos := [.elog, .faceWrote, .missLog, .viWrote], parts := [.buf, .free, .greqs, .out,
      .streams, .waiting] }

theorem execRecoveryWindowClose_within (d : Dom) {σ τ : State} (hw : σ.wf) (he : execRecoveryWindowClose d σ = .next τ) : Within Foot.execRecoveryWindowClose σ τ := by
  have hF := Foot.le_refl Foot.execRecoveryWindowClose
  refine answer_within ?_ hw he
  clear he hw
  repeat' first
      | (with_reducible first | exact all_nil_in | refine all_cons_in ?_ ?_ | refine look_in fun _ => ?_ | refine when_in ?_ | refine forEach_in fun _ => ?_)
      | ((with_reducible refine release_in ?_ ..); (· exact Foot.le_trans (Foot.le_of_runs (by decide +kernel)) hF))
      | ((with_reducible refine wgds_in ?_ _ ?_ _); (· exact Foot.le_trans (Foot.le_of_runs (by decide +kernel)) hF); (· exact (by decide +kernel)))
      | split
      | dsimp only

def Foot.execDomainContain : Foot :=
  { regs := onFam .glb [.GLB_DEV_STATE_STATE] ++ onFam .sec (errFields ++ fCnt ++ [.SEC_IDE_STAT_DEV_AUTH, .SEC_IDE_STAT_LINK_ID,
      .SEC_IDE_STAT_LINK_KSET, .SEC_IDE_STAT_LINK_SECURE, .SEC_IDE_STAT_SEL_SECURE, .SEC_IDE_STAT_SEL_VALID,
      .SEC_LINK_STAT_AUTH_OK, .SEC_LINK_STAT_AUTH_STATUS, .SEC_LINK_STAT_PARTNER_DEBUG, .SEC_LINK_STAT_REKEY,
      .SEC_LINK_STAT_REKEYS]) ++ onFam .guard (errFields ++ fCnt ++ [.GDS_DEVICE_BY_SW, .GDS_DEVICE_CLASS, .GDS_DEVICE_HOLD,
      .GDS_DEVICE_MERGED, .GDS_DEVICE_STATE, .GDS_DEVICE_WINDOW, .GDS_FACE_BY_SW, .GDS_FACE_CLASS, .GDS_FACE_HOLD,
      .GDS_FACE_MERGED, .GDS_FACE_STATE, .GDS_FACE_WINDOW, .GDS_INST_BY_SW, .GDS_INST_CLASS, .GDS_INST_HOLD, .GDS_INST_MERGED,
      .GDS_INST_STATE, .GDS_INST_WINDOW, .GDS_LANE_BY_SW, .GDS_LANE_CLASS, .GDS_LANE_HOLD, .GDS_LANE_MERGED, .GDS_LANE_STATE,
      .GDS_LANE_WINDOW, .GDS_LINK_BY_SW, .GDS_LINK_CLASS, .GDS_LINK_HOLD, .GDS_LINK_MERGED, .GDS_LINK_STATE, .GDS_LINK_WINDOW,
      .GDS_PORT_BY_SW, .GDS_PORT_CLASS, .GDS_PORT_HOLD, .GDS_PORT_MERGED, .GDS_PORT_STATE, .GDS_PORT_WINDOW,
      .GUARD_ELOG_CTRL_LOST, .GUARD_HALT_CAUSE_BIT, .GUARD_HALT_CAUSE_BLOCK, .GUARD_HALT_CAUSE_CAUSE, .GUARD_HALT_CAUSE_DINST,
      .GUARD_HALT_CAUSE_VALID]) ++ onFam .lane [.LANE_INJ_CTRL_ONE_SHOT, .LANE_RATE_CFG_RATE_NOW, .LANE_REST_CTRL_IN_REST,
      .LANE_STAT_ALIGN_LOCK, .LANE_STAT_CDR_LOCK, .LANE_STAT_EQ_DONE, .LANE_STAT_EQ_FAIL, .LANE_STAT_EXIT_FAIL, .LANE_STAT_FAILED,
      .LANE_STAT_FEC_LOCK, .LANE_STAT_RX_READY, .LANE_STAT_STATE, .LANE_TX_TAPS_C0, .LANE_TX_TAPS_POST, .LANE_TX_TAPS_PRE] ++
      onFam .core (errFields ++ fCnt ++ [.CORE_WM_STAT_WM_CROSS_CNT, .CORE_WM_STAT_WM_EVENT, .CORE_WM_STAT_WM_LEVEL]) ++ onFam
      .route (errFields ++ fCnt ++ [.ROUTE_TURN_CTRL_ARM, .ROUTE_TURN_CTRL_STATUS]) ++ onFam .bridge (errFields ++ fCnt ++
      [.BRIDGE_FAB_NBR_PARTNER_PORT, .BRIDGE_FAB_NBR_PARTNER_SW, .BRIDGE_FAB_NBR_VALID, .BRIDGE_LOCK_STAT_HOLDER,
      .BRIDGE_LOCK_STAT_LOCKED, .BRIDGE_PROOF_WM_STAT_WM_CROSS_CNT, .BRIDGE_PROOF_WM_STAT_WM_EVENT,
      .BRIDGE_PROOF_WM_STAT_WM_LEVEL]) ++ onFam .mbox (fCnt ++ [.MBOX_SEM_PEEK_HELD, .MBOX_SEM_PEEK_OWNER]) ++ onFam .port
      (errFields ++ [.BLK_CTRL_QUIESCE, .BLK_STAT_QUIESCED, .PORT_LINK_STAT_ENC, .PORT_LINK_STAT_FLIT, .PORT_LINK_STAT_KEY_PHASE,
      .PORT_LINK_STAT_LANES_GOOD, .PORT_LINK_STAT_RATE_NOW, .PORT_LINK_STAT_STATE, .PORT_LINK_STAT_WIDTH_NOW,
      .PORT_REPLAY_CNT_CONSEC]) ++ onFam .face (errFields ++ fCnt ++ [.BLK_CTRL_SOFT_RESET, .CNT_CLR_CLR, .CNT_HI_HIGH,
      .CNT_LO_LOW, .FACE_BIND_STATE, .FACE_BUS_LIMIT_NEED, .FACE_BUS_LIMIT_NO_BUS, .FACE_FLR_STAT_BUSY, .FACE_FLR_STAT_DONE,
      .FACE_FLR_STAT_TIME_US, .FACE_PM_STAT_FWAKE, .FACE_PM_STAT_LINK_PM, .FACE_PM_STAT_PME_EN, .FACE_PM_STAT_PME_STATUS,
      .FACE_PM_STAT_SE_D, .FACE_PM_STAT_USP_D, .FACE_PRES_CONFLICT, .FACE_PRES_SHOWN, .FACE_TAG_CTRL_REQ_WIDTH,
      .FACE_WIN_BASE_ADDR, .FACE_WIN_BASE_ADDR_HI, .FACE_WIN_COMMIT_GO, .FACE_WIN_COMMIT_INDEX, .FACE_WIN_COMMIT_OP,
      .FACE_WIN_COMMIT_STATUS, .FACE_WIN_SIZE_LINK_BAR, .FACE_WIN_SIZE_LINK_EN, .FACE_WIN_SIZE_LINK_PRES, .FACE_WIN_SIZE_LOG2,
      .FACE_WIN_TAB_ACTIVE, .FACE_WIN_TAB_BASE, .FACE_WIN_TAB_BASE_HI, .FACE_WIN_TAB_LINK_BAR, .FACE_WIN_TAB_LINK_EN,
      .FACE_WIN_TAB_LINK_PRES, .FACE_WIN_TAB_LOG2, .FACE_WIN_TAB_VALID, .FACE_WIN_TAB_XLAT, .FACE_WIN_TAB_XLAT_HI,
      .FACE_WIN_XLAT_ADDR, .FACE_WIN_XLAT_ADDR_HI]) ++ onFam .schedg fCnt ++ onFam .sched [.SCHED_HATCH_CTRL_ARM,
      .SCHED_HATCH_STAT_A_STATE, .SCHED_HATCH_STAT_B_STATE] ++ onFam .inst [.INST_STAT_FENCED, .INST_STAT_FLUSH_TO,
      .INST_STAT_RESETTING, .INST_STAT_TDI] ++ onFam .moverg errFields ++ onFam .eng fCnt ++ onFam .ring [.MOVER_RING_BASE_ADDR,
      .MOVER_RING_BASE_ADDR_HI, .MOVER_RING_CFG_ENABLE, .MOVER_RING_CFG_ENGINE, .MOVER_RING_CFG_KIND, .MOVER_RING_CFG_OWNER,
      .MOVER_RING_CFG_OWN_KIND, .MOVER_RING_CFG_SIZE_LOG2, .MOVER_RING_CFG_STOP_ON_ERR, .MOVER_RING_CPL_BASE_ADDR,
      .MOVER_RING_CPL_BASE_ADDR_HI, .MOVER_RING_CPL_CTRL_COAL_US, .MOVER_RING_CPL_CTRL_IRQ_EN, .MOVER_RING_CPL_CTRL_MODE,
      .MOVER_RING_CPL_CTRL_VECTOR, .MOVER_RING_CPL_FIFO_DW, .MOVER_RING_CPL_HEAD_CPL_HEAD, .MOVER_RING_CPL_TAIL_CPL_TAIL,
      .MOVER_RING_CPL_TAIL_PHASE, .MOVER_RING_HEAD_HEAD, .MOVER_RING_STAT_LAST_INDEX, .MOVER_RING_STAT_LAST_STATUS,
      .MOVER_RING_STAT_RESUME, .MOVER_RING_STAT_STATE, .MOVER_RING_TAIL_TAIL], cnts := [.sec, .guard, .core, .route, .bridge,
      .mbox, .face, .schedg, .eng], vars := [.aerStamp, .alignMiss, .alignSeen, .arbLast, .aspm, .authDebug, .authStep, .badCw,
      .bme, .bridgeCtl, .bridgeD3, .cbsAt, .cbsCr, .coalDue, .coalOn, .crAdv, .crInit, .crUsed, .devReset, .elogSeq, .eqTimeouts,
      .faceEpoch, .fetchAt, .fetchN, .fetchTag, .guardBack, .guardPartner, .haltRel, .hatchAt, .hatchLate, .ideGo, .ideKey,
      .injAlign, .linkDis, .lockDest, .lsSeen, .meDef, .memWin, .mkDue, .mkRx, .mkTx, .mse, .msixAddr, .msixData, .msixEnable,
      .msixFnMask, .msixOpen, .msixPend, .nakSent, .nextKey, .ownReq, .paramGot, .paramVal, .partnerAspm, .partnerMax,
      .partnerReady, .partnerRest, .pcieAcked, .pcieRev, .pcieSent, .peerReq, .pktId, .pmeOff, .polAt, .polC, .polP, .portFenced,
      .postStat, .preStat, .prefBase, .prefLimit, .prefWin, .presBar, .presBarSet, .presBase, .presCmd, .presInfo, .presRom,
      .presetStat, .priBus, .ptmCount, .ptmEnable, .reachLeft, .redAvg, .rehome, .rekeying, .replayAt, .restHeld, .restPend,
      .restSince, .rxKey, .rxNum, .rxRest, .rxSeq, .rxUnacked, .seBar, .seBusMaster, .seMps, .seMrrs, .seMse, .sePasid, .seTags,
      .secBus, .sizing, .skewCnt, .slotCtl, .slotStat, .stipCnt, .stipSeq, .stopWaits, .subBus, .tagEp, .turnAt, .txCount, .txKey,
      .txLimit, .txNum, .txSeq, .txUsed, .uspMps, .wcCount, .wcDone, .wcFrom, .wcId, .wcOldWidth, .wcSet, .widening, .win], fifos
      := [.cplFifo, .elog, .faceWrote, .flushTodo, .missLog, .ringWrote, .viWrote], parts := [.buf, .coders, .descs, .free, .fwd,
      .greqs, .out, .prefs, .replay, .slots, .streams, .waiting] }

theorem execDomainContain_within (st : Stamp) (d : Dom) (v : Word) {σ τ : State} (hw : σ.wf) (he : execDomainContain st d v σ = .next τ) : Within Foot.execDomainContain σ τ := by
  have hF := Foot.le_refl Foot.execDomainContain
  refine answer_within ?_ hw he
  clear he hw
  repeat' first
      | (with_reducible first | refine when_in ?_)
      | ((with_reducible refine grantedPart_in ?_ ?_ _ _ _ fun _ => ?_); (· rfl); (· first | exact Foot.le_trans (F := Foot.access .guard) (by decide +kernel) hF); skip)
      | ((with_reducible refine gdsWrite_in ?_ ..); (· exact Foot.le_trans (Foot.le_of_runs (by decide +kernel)) hF))
      | split
      | dsimp only

def Foot.execDomainRelease : Foot :=
  { regs := onFam .glb [.GLB_DEV_STATE_STATE] ++ onFam .sec (errFields ++ fCnt ++ [.SEC_IDE_STAT_DEV_AUTH, .SEC_IDE_STAT_LINK_ID,
      .SEC_IDE_STAT_LINK_KSET, .SEC_IDE_STAT_LINK_SECURE, .SEC_IDE_STAT_SEL_SECURE, .SEC_IDE_STAT_SEL_VALID,
      .SEC_LINK_STAT_AUTH_OK, .SEC_LINK_STAT_AUTH_STATUS, .SEC_LINK_STAT_PARTNER_DEBUG, .SEC_LINK_STAT_REKEY,
      .SEC_LINK_STAT_REKEYS]) ++ onFam .guard (errFields ++ fCnt ++ [.GDS_DEVICE_BY_SW, .GDS_DEVICE_CLASS, .GDS_DEVICE_HOLD,
      .GDS_DEVICE_MERGED, .GDS_DEVICE_STATE, .GDS_DEVICE_WINDOW, .GDS_FACE_BY_SW, .GDS_FACE_CLASS, .GDS_FACE_HOLD,
      .GDS_FACE_MERGED, .GDS_FACE_STATE, .GDS_FACE_WINDOW, .GDS_INST_BY_SW, .GDS_INST_CLASS, .GDS_INST_HOLD, .GDS_INST_MERGED,
      .GDS_INST_STATE, .GDS_INST_WINDOW, .GDS_LANE_BY_SW, .GDS_LANE_CLASS, .GDS_LANE_HOLD, .GDS_LANE_MERGED, .GDS_LANE_STATE,
      .GDS_LANE_WINDOW, .GDS_LINK_BY_SW, .GDS_LINK_CLASS, .GDS_LINK_HOLD, .GDS_LINK_MERGED, .GDS_LINK_STATE, .GDS_LINK_WINDOW,
      .GDS_PORT_BY_SW, .GDS_PORT_CLASS, .GDS_PORT_HOLD, .GDS_PORT_MERGED, .GDS_PORT_STATE, .GDS_PORT_WINDOW,
      .GUARD_ELOG_CTRL_LOST, .GUARD_HALT_CAUSE_BIT, .GUARD_HALT_CAUSE_BLOCK, .GUARD_HALT_CAUSE_CAUSE, .GUARD_HALT_CAUSE_DINST,
      .GUARD_HALT_CAUSE_VALID]) ++ onFam .lane [.LANE_INJ_CTRL_ONE_SHOT, .LANE_RATE_CFG_RATE_NOW, .LANE_REST_CTRL_IN_REST,
      .LANE_STAT_ALIGN_LOCK, .LANE_STAT_CDR_LOCK, .LANE_STAT_EQ_DONE, .LANE_STAT_EQ_FAIL, .LANE_STAT_EXIT_FAIL, .LANE_STAT_FAILED,
      .LANE_STAT_FEC_LOCK, .LANE_STAT_RX_READY, .LANE_STAT_STATE, .LANE_TX_TAPS_C0, .LANE_TX_TAPS_POST, .LANE_TX_TAPS_PRE] ++
      onFam .core (errFields ++ fCnt ++ [.CORE_WM_STAT_WM_CROSS_CNT, .CORE_WM_STAT_WM_EVENT, .CORE_WM_STAT_WM_LEVEL]) ++ onFam
      .route (errFields ++ fCnt ++ [.ROUTE_TURN_CTRL_ARM, .ROUTE_TURN_CTRL_STATUS]) ++ onFam .bridge (errFields ++ fCnt ++
      [.BRIDGE_FAB_NBR_PARTNER_PORT, .BRIDGE_FAB_NBR_PARTNER_SW, .BRIDGE_FAB_NBR_VALID, .BRIDGE_LOCK_STAT_HOLDER,
      .BRIDGE_LOCK_STAT_LOCKED, .BRIDGE_PROOF_WM_STAT_WM_CROSS_CNT, .BRIDGE_PROOF_WM_STAT_WM_EVENT,
      .BRIDGE_PROOF_WM_STAT_WM_LEVEL]) ++ onFam .mbox (fCnt ++ [.MBOX_SEM_PEEK_HELD, .MBOX_SEM_PEEK_OWNER]) ++ onFam .port
      (errFields ++ [.BLK_CTRL_QUIESCE, .BLK_STAT_QUIESCED, .PORT_LINK_STAT_ENC, .PORT_LINK_STAT_FLIT, .PORT_LINK_STAT_KEY_PHASE,
      .PORT_LINK_STAT_LANES_GOOD, .PORT_LINK_STAT_RATE_NOW, .PORT_LINK_STAT_STATE, .PORT_LINK_STAT_WIDTH_NOW,
      .PORT_REPLAY_CNT_CONSEC]) ++ onFam .face (errFields ++ fCnt ++ [.BLK_CTRL_SOFT_RESET, .CNT_CLR_CLR, .CNT_HI_HIGH,
      .CNT_LO_LOW, .FACE_BIND_STATE, .FACE_BUS_LIMIT_NEED, .FACE_BUS_LIMIT_NO_BUS, .FACE_FLR_STAT_BUSY, .FACE_FLR_STAT_DONE,
      .FACE_FLR_STAT_TIME_US, .FACE_PM_STAT_FWAKE, .FACE_PM_STAT_LINK_PM, .FACE_PM_STAT_PME_EN, .FACE_PM_STAT_PME_STATUS,
      .FACE_PM_STAT_SE_D, .FACE_PM_STAT_USP_D, .FACE_PRES_CONFLICT, .FACE_PRES_SHOWN, .FACE_TAG_CTRL_REQ_WIDTH,
      .FACE_WIN_BASE_ADDR, .FACE_WIN_BASE_ADDR_HI, .FACE_WIN_COMMIT_GO, .FACE_WIN_COMMIT_INDEX, .FACE_WIN_COMMIT_OP,
      .FACE_WIN_COMMIT_STATUS, .FACE_WIN_SIZE_LINK_BAR, .FACE_WIN_SIZE_LINK_EN, .FACE_WIN_SIZE_LINK_PRES, .FACE_WIN_SIZE_LOG2,
      .FACE_WIN_TAB_ACTIVE, .FACE_WIN_TAB_BASE, .FACE_WIN_TAB_BASE_HI, .FACE_WIN_TAB_LINK_BAR, .FACE_WIN_TAB_LINK_EN,
      .FACE_WIN_TAB_LINK_PRES, .FACE_WIN_TAB_LOG2, .FACE_WIN_TAB_VALID, .FACE_WIN_TAB_XLAT, .FACE_WIN_TAB_XLAT_HI,
      .FACE_WIN_XLAT_ADDR, .FACE_WIN_XLAT_ADDR_HI]) ++ onFam .schedg fCnt ++ onFam .sched [.SCHED_HATCH_CTRL_ARM,
      .SCHED_HATCH_STAT_A_STATE, .SCHED_HATCH_STAT_B_STATE] ++ onFam .inst [.INST_STAT_FENCED, .INST_STAT_FLUSH_TO,
      .INST_STAT_RESETTING, .INST_STAT_TDI] ++ onFam .moverg errFields ++ onFam .eng fCnt ++ onFam .ring [.MOVER_RING_BASE_ADDR,
      .MOVER_RING_BASE_ADDR_HI, .MOVER_RING_CFG_ENABLE, .MOVER_RING_CFG_ENGINE, .MOVER_RING_CFG_KIND, .MOVER_RING_CFG_OWNER,
      .MOVER_RING_CFG_OWN_KIND, .MOVER_RING_CFG_SIZE_LOG2, .MOVER_RING_CFG_STOP_ON_ERR, .MOVER_RING_CPL_BASE_ADDR,
      .MOVER_RING_CPL_BASE_ADDR_HI, .MOVER_RING_CPL_CTRL_COAL_US, .MOVER_RING_CPL_CTRL_IRQ_EN, .MOVER_RING_CPL_CTRL_MODE,
      .MOVER_RING_CPL_CTRL_VECTOR, .MOVER_RING_CPL_FIFO_DW, .MOVER_RING_CPL_HEAD_CPL_HEAD, .MOVER_RING_CPL_TAIL_CPL_TAIL,
      .MOVER_RING_CPL_TAIL_PHASE, .MOVER_RING_HEAD_HEAD, .MOVER_RING_STAT_LAST_INDEX, .MOVER_RING_STAT_LAST_STATUS,
      .MOVER_RING_STAT_RESUME, .MOVER_RING_STAT_STATE, .MOVER_RING_TAIL_TAIL], cnts := [.sec, .guard, .core, .route, .bridge,
      .mbox, .face, .schedg, .eng], vars := [.aerStamp, .alignMiss, .alignSeen, .arbLast, .aspm, .authDebug, .authStep, .badCw,
      .bme, .bridgeCtl, .bridgeD3, .cbsAt, .cbsCr, .coalDue, .coalOn, .crAdv, .crInit, .crUsed, .devReset, .elogSeq, .eqTimeouts,
      .faceEpoch, .fetchAt, .fetchN, .fetchTag, .guardBack, .guardPartner, .haltRel, .hatchAt, .hatchLate, .ideGo, .ideKey,
      .injAlign, .linkDis, .lockDest, .lsSeen, .meDef, .memWin, .mkDue, .mkRx, .mkTx, .mse, .msixAddr, .msixData, .msixEnable,
      .msixFnMask, .msixOpen, .msixPend, .nakSent, .nextKey, .ownReq, .paramGot, .paramVal, .partnerAspm, .partnerMax,
      .partnerReady, .partnerRest, .pcieAcked, .pcieRev, .pcieSent, .peerReq, .pktId, .pmeOff, .polAt, .polC, .polP, .portFenced,
      .postStat, .preStat, .prefBase, .prefLimit, .prefWin, .presBar, .presBarSet, .presBase, .presCmd, .presInfo, .presRom,
      .presetStat, .priBus, .ptmCount, .ptmEnable, .reachLeft, .redAvg, .rehome, .rekeying, .replayAt, .restHeld, .restPend,
      .restSince, .rxKey, .rxNum, .rxRest, .rxSeq, .rxUnacked, .seBar, .seBusMaster, .seMps, .seMrrs, .seMse, .sePasid, .seTags,
      .secBus, .sizing, .skewCnt, .slotCtl, .slotStat, .stipCnt, .stipSeq, .stopWaits, .subBus, .tagEp, .turnAt, .txCount, .txKey,
      .txLimit, .txNum, .txSeq, .txUsed, .uspMps, .wcCount, .wcDone, .wcFrom, .wcId, .wcOldWidth, .wcSet, .widening, .win], fifos
      := [.cplFifo, .elog, .faceWrote, .flushTodo, .missLog, .ringWrote, .viWrote], parts := [.buf, .coders, .descs, .free, .fwd,
      .greqs, .out, .prefs, .replay, .slots, .streams, .waiting] }

theorem execDomainRelease_within (st : Stamp) (d : Dom) (v : Word) {σ τ : State} (hw : σ.wf) (he : execDomainRelease st d v σ = .next τ) : Within Foot.execDomainRelease σ τ := by
  have hF := Foot.le_refl Foot.execDomainRelease
  refine answer_within ?_ hw he
  clear he hw
  repeat' first
      | (with_reducible first | refine when_in ?_)
      | ((with_reducible refine grantedPart_in ?_ ?_ _ _ _ fun _ => ?_); (· rfl); (· first | exact Foot.le_trans (F := Foot.access .guard) (by decide +kernel) hF); skip)
      | ((with_reducible refine gdsWrite_in ?_ ..); (· exact Foot.le_trans (Foot.le_of_runs (by decide +kernel)) hF))
      | split
      | dsimp only

def Foot.execPortRelease : Foot :=
  { regs := onFam .sec (errFields ++ fCnt ++ [.SEC_IDE_STAT_DEV_AUTH, .SEC_IDE_STAT_LINK_ID, .SEC_IDE_STAT_LINK_KSET,
      .SEC_IDE_STAT_LINK_SECURE, .SEC_IDE_STAT_SEL_SECURE, .SEC_IDE_STAT_SEL_VALID, .SEC_LINK_STAT_AUTH_OK,
      .SEC_LINK_STAT_AUTH_STATUS, .SEC_LINK_STAT_PARTNER_DEBUG, .SEC_LINK_STAT_REKEY, .SEC_LINK_STAT_REKEYS]) ++ onFam .guard
      (errFields ++ fCnt ++ [.GDS_DEVICE_BY_SW, .GDS_DEVICE_CLASS, .GDS_DEVICE_HOLD, .GDS_DEVICE_MERGED, .GDS_DEVICE_STATE,
      .GDS_DEVICE_WINDOW, .GDS_FACE_BY_SW, .GDS_FACE_CLASS, .GDS_FACE_HOLD, .GDS_FACE_MERGED, .GDS_FACE_STATE, .GDS_FACE_WINDOW,
      .GDS_INST_BY_SW, .GDS_INST_CLASS, .GDS_INST_HOLD, .GDS_INST_MERGED, .GDS_INST_STATE, .GDS_INST_WINDOW, .GDS_LANE_BY_SW,
      .GDS_LANE_CLASS, .GDS_LANE_HOLD, .GDS_LANE_MERGED, .GDS_LANE_STATE, .GDS_LANE_WINDOW, .GDS_LINK_BY_SW, .GDS_LINK_CLASS,
      .GDS_LINK_HOLD, .GDS_LINK_MERGED, .GDS_LINK_STATE, .GDS_LINK_WINDOW, .GDS_PORT_BY_SW, .GDS_PORT_CLASS, .GDS_PORT_HOLD,
      .GDS_PORT_MERGED, .GDS_PORT_STATE, .GDS_PORT_WINDOW, .GUARD_ELOG_CTRL_LOST]) ++ onFam .lane [.LANE_INJ_CTRL_ONE_SHOT,
      .LANE_RATE_CFG_RATE_NOW, .LANE_REST_CTRL_IN_REST, .LANE_STAT_ALIGN_LOCK, .LANE_STAT_CDR_LOCK, .LANE_STAT_EQ_DONE,
      .LANE_STAT_EQ_FAIL, .LANE_STAT_EXIT_FAIL, .LANE_STAT_FAILED, .LANE_STAT_FEC_LOCK, .LANE_STAT_RX_READY, .LANE_STAT_STATE,
      .LANE_TX_TAPS_C0, .LANE_TX_TAPS_POST, .LANE_TX_TAPS_PRE] ++ onFam .core (errFields ++ fCnt ++ [.CORE_WM_STAT_WM_CROSS_CNT,
      .CORE_WM_STAT_WM_EVENT, .CORE_WM_STAT_WM_LEVEL]) ++ onFam .route (errFields ++ fCnt) ++ onFam .bridge (errFields ++ fCnt ++
      [.BRIDGE_FAB_NBR_PARTNER_PORT, .BRIDGE_FAB_NBR_PARTNER_SW, .BRIDGE_FAB_NBR_VALID, .BRIDGE_LOCK_STAT_HOLDER,
      .BRIDGE_LOCK_STAT_LOCKED, .BRIDGE_PROOF_WM_STAT_WM_CROSS_CNT, .BRIDGE_PROOF_WM_STAT_WM_EVENT,
      .BRIDGE_PROOF_WM_STAT_WM_LEVEL]) ++ onFam .mbox (fCnt ++ [.MBOX_SEM_PEEK_HELD, .MBOX_SEM_PEEK_OWNER]) ++ onFam .port
      (errFields ++ [.BLK_CTRL_QUIESCE, .BLK_STAT_QUIESCED, .PORT_LINK_STAT_ENC, .PORT_LINK_STAT_FLIT, .PORT_LINK_STAT_KEY_PHASE,
      .PORT_LINK_STAT_LANES_GOOD, .PORT_LINK_STAT_RATE_NOW, .PORT_LINK_STAT_STATE, .PORT_LINK_STAT_WIDTH_NOW,
      .PORT_REPLAY_CNT_CONSEC]) ++ onFam .face (errFields ++ fCnt ++ [.BLK_CTRL_SOFT_RESET, .CNT_CLR_CLR, .CNT_HI_HIGH,
      .CNT_LO_LOW, .FACE_BIND_STATE, .FACE_BUS_LIMIT_NEED, .FACE_BUS_LIMIT_NO_BUS, .FACE_FLR_STAT_BUSY, .FACE_FLR_STAT_DONE,
      .FACE_FLR_STAT_TIME_US, .FACE_PM_STAT_FWAKE, .FACE_PM_STAT_LINK_PM, .FACE_PM_STAT_PME_EN, .FACE_PM_STAT_PME_STATUS,
      .FACE_PM_STAT_SE_D, .FACE_PM_STAT_USP_D, .FACE_PRES_CONFLICT, .FACE_PRES_SHOWN, .FACE_TAG_CTRL_REQ_WIDTH,
      .FACE_WIN_BASE_ADDR, .FACE_WIN_BASE_ADDR_HI, .FACE_WIN_COMMIT_GO, .FACE_WIN_COMMIT_INDEX, .FACE_WIN_COMMIT_OP,
      .FACE_WIN_COMMIT_STATUS, .FACE_WIN_SIZE_LINK_BAR, .FACE_WIN_SIZE_LINK_EN, .FACE_WIN_SIZE_LINK_PRES, .FACE_WIN_SIZE_LOG2,
      .FACE_WIN_TAB_ACTIVE, .FACE_WIN_TAB_BASE, .FACE_WIN_TAB_BASE_HI, .FACE_WIN_TAB_LINK_BAR, .FACE_WIN_TAB_LINK_EN,
      .FACE_WIN_TAB_LINK_PRES, .FACE_WIN_TAB_LOG2, .FACE_WIN_TAB_VALID, .FACE_WIN_TAB_XLAT, .FACE_WIN_TAB_XLAT_HI,
      .FACE_WIN_XLAT_ADDR, .FACE_WIN_XLAT_ADDR_HI]) ++ onFam .schedg fCnt ++ onFam .inst [.INST_STAT_FENCED, .INST_STAT_FLUSH_TO,
      .INST_STAT_RESETTING, .INST_STAT_TDI] ++ onFam .moverg errFields ++ onFam .eng fCnt ++ onFam .ring [.MOVER_RING_BASE_ADDR,
      .MOVER_RING_BASE_ADDR_HI, .MOVER_RING_CFG_ENABLE, .MOVER_RING_CFG_ENGINE, .MOVER_RING_CFG_KIND, .MOVER_RING_CFG_OWNER,
      .MOVER_RING_CFG_OWN_KIND, .MOVER_RING_CFG_SIZE_LOG2, .MOVER_RING_CFG_STOP_ON_ERR, .MOVER_RING_CPL_BASE_ADDR,
      .MOVER_RING_CPL_BASE_ADDR_HI, .MOVER_RING_CPL_CTRL_COAL_US, .MOVER_RING_CPL_CTRL_IRQ_EN, .MOVER_RING_CPL_CTRL_MODE,
      .MOVER_RING_CPL_CTRL_VECTOR, .MOVER_RING_CPL_FIFO_DW, .MOVER_RING_CPL_HEAD_CPL_HEAD, .MOVER_RING_CPL_TAIL_CPL_TAIL,
      .MOVER_RING_CPL_TAIL_PHASE, .MOVER_RING_HEAD_HEAD, .MOVER_RING_STAT_LAST_INDEX, .MOVER_RING_STAT_LAST_STATUS,
      .MOVER_RING_STAT_RESUME, .MOVER_RING_STAT_STATE, .MOVER_RING_TAIL_TAIL], cnts := [.sec, .guard, .core, .route, .bridge,
      .mbox, .face, .schedg, .eng], vars := [.aerStamp, .alignMiss, .alignSeen, .arbLast, .aspm, .authDebug, .authStep, .badCw,
      .bme, .bridgeCtl, .bridgeD3, .cbsAt, .cbsCr, .coalDue, .coalOn, .crAdv, .crInit, .crUsed, .devReset, .elogSeq, .eqTimeouts,
      .faceEpoch, .fetchAt, .fetchN, .fetchTag, .guardBack, .ideGo, .ideKey, .injAlign, .linkDis, .lockDest, .lsSeen, .meDef,
      .memWin, .mkDue, .mkRx, .mkTx, .mse, .msixAddr, .msixData, .msixEnable, .msixFnMask, .msixOpen, .msixPend, .nakSent,
      .nextKey, .ownReq, .paramGot, .paramVal, .partnerAspm, .partnerMax, .partnerReady, .partnerRest, .pcieAcked, .pcieRev,
      .pcieSent, .peerReq, .pktId, .pmeOff, .polAt, .polC, .polP, .portFenced, .postStat, .preStat, .prefBase, .prefLimit,
      .prefWin, .presBar, .presBarSet, .presBase, .presCmd, .presInfo, .presRom, .presetStat, .priBus, .ptmCount, .ptmEnable,
      .reachLeft, .redAvg, .rehome, .rekeying, .replayAt, .restHeld, .restPend, .restSince, .rxKey, .rxNum, .rxRest, .rxSeq,
      .rxUnacked, .seBar, .seBusMaster, .seMps, .seMrrs, .seMse, .sePasid, .seTags, .secBus, .sizing, .skewCnt, .slotCtl,
      .slotStat, .stipCnt, .stipSeq, .stopWaits, .subBus, .tagEp, .txCount, .txKey, .txLimit, .txNum, .txSeq, .txUsed, .uspMps,
      .wcDone, .wcFrom, .wcId, .wcOldWidth, .wcSet, .widening, .win], fifos := [.cplFifo, .elog, .faceWrote, .flushTodo, .missLog,
      .ringWrote, .viWrote], parts := [.buf, .descs, .free, .greqs, .out, .prefs, .replay, .slots, .streams, .waiting] }

theorem execPortRelease_within (st : Stamp) (p : PortId) {σ τ : State} (hw : σ.wf) (he : execPortRelease st p σ = .next τ) : Within Foot.execPortRelease σ τ := by
  have hF := Foot.le_refl Foot.execPortRelease
  refine answer_within ?_ hw he
  clear he hw
  repeat' first
      | (with_reducible first | refine look_in fun _ => ?_)
      | ((with_reducible refine granted_in ?_ ?_ _ _ ?_); (· rfl); (· first | exact Foot.le_trans (F := Foot.access .port) (by decide +kernel) hF); skip)
      | ((with_reducible refine releaseWrite_in ?_ ..); (· exact Foot.le_trans (Foot.le_of_runs (by decide +kernel)) hF))
      | split
      | dsimp only

def Foot.execDpcHoldExpiry : Foot :=
  { regs := onFam .port [.PORT_LINK_STAT_STATE] }

theorem execDpcHoldExpiry_within (p : PortId) {σ τ : State} (hw : σ.wf) (he : execDpcHoldExpiry p σ = .next τ) : Within Foot.execDpcHoldExpiry σ τ := by
  have hF := Foot.le_refl Foot.execDpcHoldExpiry
  refine answer_within ?_ hw he
  clear he hw
  repeat' first
      | (with_reducible first | refine look_in fun _ => ?_ | refine when_in ?_)
      | ((with_reducible refine wr_in ?_ ?_); (· first | exact own_mem (show _ ∈ tabPORT by decide +kernel)); (· first | exact le_regs hF (show (Fam.port, _) ∈ _ by decide +kernel)))
      | split
      | dsimp only

def Foot.execDomainEventRepeat : Foot :=
  { regs := onFam .guard (errFields ++ fCnt ++ [.GUARD_ELOG_CTRL_LOST]) ++ onFam .core (fCnt ++ [.CORE_WM_STAT_WM_CROSS_CNT,
      .CORE_WM_STAT_WM_EVENT, .CORE_WM_STAT_WM_LEVEL]) ++ onFam .route (errFields ++ fCnt) ++ onFam .bridge (errFields ++ fCnt ++
      [.BRIDGE_LOCK_STAT_HOLDER, .BRIDGE_LOCK_STAT_LOCKED, .BRIDGE_PROOF_WM_STAT_WM_CROSS_CNT, .BRIDGE_PROOF_WM_STAT_WM_EVENT,
      .BRIDGE_PROOF_WM_STAT_WM_LEVEL]) ++ onFam .face fCnt ++ onFam .schedg fCnt, cnts := [.guard, .core, .route, .bridge, .face,
      .schedg], vars := [.cbsAt, .cbsCr, .elogSeq, .msixPend, .pktId, .polAt, .polC, .polP, .reachLeft, .redAvg, .stipCnt,
      .stipSeq], fifos := [.elog, .faceWrote, .missLog, .viWrote], parts := [.buf, .free, .greqs, .out, .streams, .waiting] }

theorem execDomainEventRepeat_within (d : Dom) {σ τ : State} (hw : σ.wf) (he : execDomainEventRepeat d σ = .next τ) : Within Foot.execDomainEventRepeat σ τ := by
  have hF := Foot.le_refl Foot.execDomainEventRepeat
  refine answer_within ?_ hw he
  clear he hw
  repeat' first
      | (with_reducible first | exact all_nil_in | refine all_cons_in ?_ ?_ | refine look_in fun _ => ?_ | refine when_in ?_ | refine ite_in ?_ ?_)
      | ((with_reducible refine put_in ?_); (· exact le_vars hF (by decide +kernel)))
      | ((with_reducible refine sendDomainEvent_in ?_ ..); (· exact Foot.le_trans (Foot.le_of_runs (by decide +kernel)) hF))
      | split
      | dsimp only

def Foot.execDomainEventReceived : Foot :=
  { regs := onFam .guard (errFields ++ fCnt ++ [.GUARD_ELOG_CTRL_LOST]) ++ onFam .face (errFields ++ fCnt ++ [.FACE_BUS_LIMIT_NEED,
      .FACE_BUS_LIMIT_NO_BUS, .FACE_PRES_CONFLICT, .FACE_PRES_SHOWN]), cnts := [.guard, .face], vars := [.elogSeq, .msixPend,
      .presBar, .presBarSet, .presBase, .presCmd, .presInfo, .presRom, .sizing, .slotCtl, .slotStat, .unreach], fifos := [.elog,
      .faceWrote, .viWrote], parts := [.greqs, .out] }

theorem execDomainEventReceived_within (code : Fin 4) (_sw : SwId) (feids : List Feid) {σ τ : State} (hw : σ.wf) (he : execDomainEventReceived code _sw feids σ = .next τ) : Within Foot.execDomainEventReceived σ τ := by
  have hF := Foot.le_refl Foot.execDomainEventReceived
  refine answer_within ?_ hw he
  clear he hw
  repeat' first
      | (with_reducible first | exact all_nil_in | refine all_cons_in ?_ ?_ | refine look_in fun _ => ?_ | refine when_in ?_ | refine ite_in ?_ ?_ | refine forEach_in fun _ => ?_)
      | ((with_reducible refine put_in ?_); (· exact le_vars hF (by decide +kernel)))
      | ((with_reducible refine feidLost_in ?_ ..); (· exact Foot.le_trans (Foot.le_of_runs (by decide +kernel)) hF))
      | ((with_reducible refine feidsBack_in ?_ ..); (· exact Foot.le_trans (Foot.le_of_runs (by decide +kernel)) hF))
      | split
      | dsimp only

def Foot.execUnreachableMarkExpiry : Foot :=
  { regs := onFam .guard (errFields ++ fCnt ++ [.GUARD_ELOG_CTRL_LOST]) ++ onFam .face (errFields ++ fCnt ++ [.FACE_BUS_LIMIT_NEED,
      .FACE_BUS_LIMIT_NO_BUS, .FACE_PRES_CONFLICT]), cnts := [.guard, .face], vars := [.elogSeq, .msixPend, .sizing, .unreach],
      fifos := [.elog, .faceWrote, .viWrote], parts := [.greqs, .out] }

theorem execUnreachableMarkExpiry_within (n : Feid) {σ τ : State} (hw : σ.wf) (he : execUnreachableMarkExpiry n σ = .next τ) : Within Foot.execUnreachableMarkExpiry σ τ := by
  have hF := Foot.le_refl Foot.execUnreachableMarkExpiry
  refine answer_within ?_ hw he
  clear he hw
  repeat' first
      | (with_reducible first | exact all_nil_in | refine all_cons_in ?_ ?_ | refine look_in fun _ => ?_ | refine when_in ?_)
      | ((with_reducible refine put_in ?_); (· exact le_vars hF (by decide +kernel)))
      | ((with_reducible refine feidsBack_in ?_ ..); (· exact Foot.le_trans (Foot.le_of_runs (by decide +kernel)) hF))
      | split
      | dsimp only

def Foot.execContainReqReceived : Foot :=
  { regs := onFam .glb [.GLB_DEV_STATE_STATE] ++ onFam .sec (errFields ++ fCnt ++ [.SEC_IDE_STAT_DEV_AUTH, .SEC_IDE_STAT_LINK_ID,
      .SEC_IDE_STAT_LINK_KSET, .SEC_IDE_STAT_LINK_SECURE, .SEC_IDE_STAT_SEL_SECURE, .SEC_IDE_STAT_SEL_VALID,
      .SEC_LINK_STAT_AUTH_OK, .SEC_LINK_STAT_AUTH_STATUS, .SEC_LINK_STAT_PARTNER_DEBUG, .SEC_LINK_STAT_REKEY,
      .SEC_LINK_STAT_REKEYS]) ++ onFam .guard (errFields ++ fCnt ++ [.GDS_DEVICE_BY_SW, .GDS_DEVICE_CLASS, .GDS_DEVICE_HOLD,
      .GDS_DEVICE_MERGED, .GDS_DEVICE_STATE, .GDS_DEVICE_WINDOW, .GDS_FACE_BY_SW, .GDS_FACE_CLASS, .GDS_FACE_HOLD,
      .GDS_FACE_MERGED, .GDS_FACE_STATE, .GDS_FACE_WINDOW, .GDS_INST_BY_SW, .GDS_INST_CLASS, .GDS_INST_HOLD, .GDS_INST_MERGED,
      .GDS_INST_STATE, .GDS_INST_WINDOW, .GDS_LANE_BY_SW, .GDS_LANE_CLASS, .GDS_LANE_HOLD, .GDS_LANE_MERGED, .GDS_LANE_STATE,
      .GDS_LANE_WINDOW, .GDS_LINK_BY_SW, .GDS_LINK_CLASS, .GDS_LINK_HOLD, .GDS_LINK_MERGED, .GDS_LINK_STATE, .GDS_LINK_WINDOW,
      .GDS_PORT_BY_SW, .GDS_PORT_CLASS, .GDS_PORT_HOLD, .GDS_PORT_MERGED, .GDS_PORT_STATE, .GDS_PORT_WINDOW,
      .GUARD_ELOG_CTRL_LOST, .GUARD_HALT_CAUSE_BIT, .GUARD_HALT_CAUSE_BLOCK, .GUARD_HALT_CAUSE_CAUSE, .GUARD_HALT_CAUSE_DINST,
      .GUARD_HALT_CAUSE_VALID]) ++ onFam .lane [.LANE_INJ_CTRL_ONE_SHOT, .LANE_RATE_CFG_RATE_NOW, .LANE_REST_CTRL_IN_REST,
      .LANE_STAT_ALIGN_LOCK, .LANE_STAT_CDR_LOCK, .LANE_STAT_EQ_DONE, .LANE_STAT_EQ_FAIL, .LANE_STAT_EXIT_FAIL, .LANE_STAT_FAILED,
      .LANE_STAT_FEC_LOCK, .LANE_STAT_RX_READY, .LANE_STAT_STATE, .LANE_TX_TAPS_C0, .LANE_TX_TAPS_POST, .LANE_TX_TAPS_PRE] ++
      onFam .core (errFields ++ fCnt ++ [.CORE_WM_STAT_WM_CROSS_CNT, .CORE_WM_STAT_WM_EVENT, .CORE_WM_STAT_WM_LEVEL]) ++ onFam
      .route (errFields ++ fCnt ++ [.ROUTE_TURN_CTRL_ARM, .ROUTE_TURN_CTRL_STATUS]) ++ onFam .bridge (errFields ++ fCnt ++
      [.BRIDGE_FAB_NBR_PARTNER_PORT, .BRIDGE_FAB_NBR_PARTNER_SW, .BRIDGE_FAB_NBR_VALID, .BRIDGE_LOCK_STAT_HOLDER,
      .BRIDGE_LOCK_STAT_LOCKED, .BRIDGE_PROOF_WM_STAT_WM_CROSS_CNT, .BRIDGE_PROOF_WM_STAT_WM_EVENT,
      .BRIDGE_PROOF_WM_STAT_WM_LEVEL]) ++ onFam .mbox (fCnt ++ [.MBOX_SEM_PEEK_HELD, .MBOX_SEM_PEEK_OWNER]) ++ onFam .port
      (errFields ++ [.BLK_CTRL_QUIESCE, .BLK_STAT_QUIESCED, .PORT_LINK_STAT_ENC, .PORT_LINK_STAT_FLIT, .PORT_LINK_STAT_KEY_PHASE,
      .PORT_LINK_STAT_LANES_GOOD, .PORT_LINK_STAT_RATE_NOW, .PORT_LINK_STAT_STATE, .PORT_LINK_STAT_WIDTH_NOW,
      .PORT_REPLAY_CNT_CONSEC]) ++ onFam .face (errFields ++ fCnt ++ [.BLK_CTRL_SOFT_RESET, .CNT_CLR_CLR, .CNT_HI_HIGH,
      .CNT_LO_LOW, .FACE_BIND_STATE, .FACE_BUS_LIMIT_NEED, .FACE_BUS_LIMIT_NO_BUS, .FACE_FLR_STAT_BUSY, .FACE_FLR_STAT_DONE,
      .FACE_FLR_STAT_TIME_US, .FACE_PM_STAT_FWAKE, .FACE_PM_STAT_LINK_PM, .FACE_PM_STAT_PME_EN, .FACE_PM_STAT_PME_STATUS,
      .FACE_PM_STAT_SE_D, .FACE_PM_STAT_USP_D, .FACE_PRES_CONFLICT, .FACE_PRES_SHOWN, .FACE_TAG_CTRL_REQ_WIDTH,
      .FACE_WIN_BASE_ADDR, .FACE_WIN_BASE_ADDR_HI, .FACE_WIN_COMMIT_GO, .FACE_WIN_COMMIT_INDEX, .FACE_WIN_COMMIT_OP,
      .FACE_WIN_COMMIT_STATUS, .FACE_WIN_SIZE_LINK_BAR, .FACE_WIN_SIZE_LINK_EN, .FACE_WIN_SIZE_LINK_PRES, .FACE_WIN_SIZE_LOG2,
      .FACE_WIN_TAB_ACTIVE, .FACE_WIN_TAB_BASE, .FACE_WIN_TAB_BASE_HI, .FACE_WIN_TAB_LINK_BAR, .FACE_WIN_TAB_LINK_EN,
      .FACE_WIN_TAB_LINK_PRES, .FACE_WIN_TAB_LOG2, .FACE_WIN_TAB_VALID, .FACE_WIN_TAB_XLAT, .FACE_WIN_TAB_XLAT_HI,
      .FACE_WIN_XLAT_ADDR, .FACE_WIN_XLAT_ADDR_HI]) ++ onFam .schedg fCnt ++ onFam .sched [.SCHED_HATCH_CTRL_ARM,
      .SCHED_HATCH_STAT_A_STATE, .SCHED_HATCH_STAT_B_STATE] ++ onFam .inst [.INST_STAT_FENCED, .INST_STAT_FLUSH_TO,
      .INST_STAT_RESETTING, .INST_STAT_TDI] ++ onFam .moverg errFields ++ onFam .eng fCnt ++ onFam .ring [.MOVER_RING_BASE_ADDR,
      .MOVER_RING_BASE_ADDR_HI, .MOVER_RING_CFG_ENABLE, .MOVER_RING_CFG_ENGINE, .MOVER_RING_CFG_KIND, .MOVER_RING_CFG_OWNER,
      .MOVER_RING_CFG_OWN_KIND, .MOVER_RING_CFG_SIZE_LOG2, .MOVER_RING_CFG_STOP_ON_ERR, .MOVER_RING_CPL_BASE_ADDR,
      .MOVER_RING_CPL_BASE_ADDR_HI, .MOVER_RING_CPL_CTRL_COAL_US, .MOVER_RING_CPL_CTRL_IRQ_EN, .MOVER_RING_CPL_CTRL_MODE,
      .MOVER_RING_CPL_CTRL_VECTOR, .MOVER_RING_CPL_FIFO_DW, .MOVER_RING_CPL_HEAD_CPL_HEAD, .MOVER_RING_CPL_TAIL_CPL_TAIL,
      .MOVER_RING_CPL_TAIL_PHASE, .MOVER_RING_HEAD_HEAD, .MOVER_RING_STAT_LAST_INDEX, .MOVER_RING_STAT_LAST_STATUS,
      .MOVER_RING_STAT_RESUME, .MOVER_RING_STAT_STATE, .MOVER_RING_TAIL_TAIL], cnts := [.sec, .guard, .core, .route, .bridge,
      .mbox, .face, .schedg, .eng], vars := [.alignMiss, .alignSeen, .aspm, .authDebug, .authStep, .badCw, .bme, .bridgeCtl,
      .bridgeD3, .cbsAt, .cbsCr, .coalDue, .coalOn, .crAdv, .crInit, .crUsed, .devReset, .elogSeq, .eqTimeouts, .faceEpoch,
      .fetchAt, .fetchN, .fetchTag, .guardBack, .guardPartner, .haltRel, .hatchAt, .hatchLate, .ideGo, .ideKey, .injAlign,
      .linkDis, .lockDest, .lsSeen, .meDef, .memWin, .mkDue, .mkRx, .mkTx, .mse, .msixAddr, .msixData, .msixEnable, .msixFnMask,
      .msixOpen, .msixPend, .nakSent, .nextKey, .ownReq, .paramGot, .paramVal, .partnerAspm, .partnerMax, .partnerReady,
      .partnerRest, .pcieAcked, .pcieRev, .pcieSent, .peerReq, .pktId, .pmeOff, .polAt, .polC, .polP, .portFenced, .postStat,
      .preStat, .prefBase, .prefLimit, .prefWin, .presBar, .presBarSet, .presBase, .presCmd, .presInfo, .presRom, .presetStat,
      .priBus, .ptmCount, .ptmEnable, .redAvg, .rehome, .rekeying, .replayAt, .restHeld, .restPend, .restSince, .rxKey, .rxNum,
      .rxRest, .rxSeq, .rxUnacked, .seBar, .seBusMaster, .seMps, .seMrrs, .seMse, .sePasid, .seTags, .secBus, .sizing, .skewCnt,
      .slotCtl, .slotStat, .stipCnt, .stipSeq, .stopWaits, .subBus, .tagEp, .turnAt, .txCount, .txKey, .txLimit, .txNum, .txSeq,
      .txUsed, .uspMps, .wcCount, .wcDone, .wcFrom, .wcId, .wcOldWidth, .wcSet, .widening, .win], fifos := [.cplFifo, .elog,
      .faceWrote, .flushTodo, .missLog, .ringWrote, .viWrote], parts := [.buf, .coders, .descs, .free, .fwd, .greqs, .out, .prefs,
      .replay, .slots, .streams, .waiting] }

theorem execContainReqReceived_within (fd : Bool) (sw : SwId) (_block bit : Fin 32) (n : Feid) {σ τ : State} (hw : σ.wf) (he : execContainReqReceived fd sw _block bit n σ = .next τ) : Within Foot.execContainReqReceived σ τ := by
  have hF := Foot.le_refl Foot.execContainReqReceived
  refine answer_within ?_ hw he
  clear he hw
  repeat' first
      | (with_reducible first | exact all_nil_in | refine all_cons_in ?_ ?_ | refine look_in fun _ => ?_ | refine when_in ?_ | refine ite_in ?_ ?_)
      | ((with_reducible refine raise_in ?_ ?_ ..); (· rfl); (· first | exact Foot.le_trans (F := Foot.error .guard) (by decide +kernel) hF))
      | ((with_reducible refine handle_in ?_ ..); (· exact Foot.le_trans (Foot.le_of_runs (by decide +kernel)) hF))
      | split
      | dsimp only

def Foot.execElogClear : Foot :=
  { regs := onFam .guard (errFields ++ fCnt ++ [.GUARD_ELOG_CTRL_LOST]) ++ onFam .face fCnt, cnts := [.guard, .face], vars :=
      [.aerStamp, .arbLast, .elogSeq, .msixPend], fifos := [.elog, .faceWrote, .viWrote], parts := [.greqs, .out] }

theorem execElogClear_within (st : Stamp) (v : Word) {σ τ : State} (hw : σ.wf) (he : execElogClear st v σ = .next τ) : Within Foot.execElogClear σ τ := by
  have hF := Foot.le_refl Foot.execElogClear
  refine answer_within ?_ hw he
  clear he hw
  repeat' first
      | ((with_reducible refine granted_in ?_ ?_ _ _ ?_); (· rfl); (· first | exact Foot.le_trans (F := Foot.access .guard) (by decide +kernel) hF); skip)
      | ((with_reducible refine elogCtrlWrite_in ?_ ..); (· exact Foot.le_trans (Foot.le_of_runs (by decide +kernel)) hF))
      | split
      | dsimp only

end Sys2Proof.Machine
end

