-- ==== Sys2Proof/Laws/ExecInst.lean ====
section
/-! SUPPORT. What each command of Machine/Inst.lean may touch. -/

namespace Sys2Proof.Machine

set_option Elab.async false
set_option linter.unusedTactic false
set_option linter.unreachableTactic false

def Foot.execInstanceResetDone : Foot :=
  { regs := onFam .sec (errFields ++ fCnt) ++ onFam .guard (errFields ++ fCnt ++ [.GUARD_ELOG_CTRL_LOST]) ++ onFam .core (fCnt ++
      [.CORE_WM_STAT_WM_CROSS_CNT, .CORE_WM_STAT_WM_EVENT, .CORE_WM_STAT_WM_LEVEL]) ++ onFam .route (errFields ++ fCnt) ++ onFam
      .bridge (errFields ++ fCnt ++ [.BRIDGE_LOCK_STAT_HOLDER, .BRIDGE_LOCK_STAT_LOCKED, .BRIDGE_PROOF_WM_STAT_WM_CROSS_CNT,
      .BRIDGE_PROOF_WM_STAT_WM_EVENT, .BRIDGE_PROOF_WM_STAT_WM_LEVEL]) ++ onFam .mbox fCnt ++ onFam .face (errFields ++ fCnt) ++
      onFam .schedg fCnt ++ onFam .tenant [.VIW_EPOCH_QUERY_FEID, .VIW_EPOCH_QUERY_VALID, .VIW_NOTICE_POST_GO,
      .VIW_NOTICE_READ_DW, .VIW_OWN_EPOCH_EPOCH, .VI_CTRL_SELF_RESET, .VI_ID_FACE, .VI_STAT_FENCED, .VI_STAT_RESETTING] ++ onFam
      .inst (fCnt ++ [.INST_BIND_GO, .INST_STAT_BOUND, .INST_STAT_EPOCH, .INST_STAT_FENCED, .INST_STAT_RESETTING,
      .INST_STAT_RESET_DONE, .INST_STAT_TDI]) ++ onFam .ring [.MOVER_RING_BASE_ADDR, .MOVER_RING_BASE_ADDR_HI,
      .MOVER_RING_CFG_ENABLE, .MOVER_RING_CFG_ENGINE, .MOVER_RING_CFG_KIND, .MOVER_RING_CFG_OWNER, .MOVER_RING_CFG_OWN_KIND,
      .MOVER_RING_CFG_SIZE_LOG2, .MOVER_RING_CFG_STOP_ON_ERR, .MOVER_RING_CPL_BASE_ADDR, .MOVER_RING_CPL_BASE_ADDR_HI,
      .MOVER_RING_CPL_CTRL_COAL_US, .MOVER_RING_CPL_CTRL_IRQ_EN, .MOVER_RING_CPL_CTRL_MODE, .MOVER_RING_CPL_CTRL_VECTOR,
      .MOVER_RING_CPL_FIFO_DW, .MOVER_RING_CPL_HEAD_CPL_HEAD, .MOVER_RING_CPL_TAIL_CPL_TAIL, .MOVER_RING_CPL_TAIL_PHASE,
      .MOVER_RING_HEAD_HEAD, .MOVER_RING_STAT_LAST_INDEX, .MOVER_RING_STAT_LAST_STATUS, .MOVER_RING_STAT_RESUME,
      .MOVER_RING_STAT_STATE, .MOVER_RING_TAIL_TAIL], cnts := [.sec, .guard, .core, .route, .bridge, .mbox, .face, .schedg,
      .inst], vars := [.cbsAt, .cbsCr, .coalDue, .coalOn, .elogSeq, .fetchAt, .fetchN, .fetchTag, .lockDest, .meDef, .msixPend,
      .pcieSent, .pktId, .polAt, .polC, .polP, .redAvg, .rehome, .stipCnt, .stipSeq, .stopWaits, .tagEp, .unbindBy, .viSlot,
      .win], fifos := [.cplFifo, .elog, .faceWrote, .flushTodo, .missLog, .notices, .ringWrote, .viWrote], parts := [.buf, .descs,
      .free, .greqs, .out, .prefs, .slots, .streams, .waiting] }

theorem execInstanceResetDone_within (v : ViId) {σ τ : State} (hw : σ.wf) (he : execInstanceResetDone v σ = .next τ) : Within Foot.execInstanceResetDone σ τ := by
  have hF := Foot.le_refl Foot.execInstanceResetDone
  refine answer_within ?_ hw he
  clear he hw
  repeat' first
      | (with_reducible first | exact all_nil_in | refine all_cons_in ?_ ?_ | refine look_in fun _ => ?_ | refine when_in ?_ | refine forEach_in fun _ => ?_)
      | ((with_reducible refine put_in ?_); (· exact le_vars hF (by decide +kernel)))
      | ((with_reducible refine emit_in ?_); (· exact le_parts hF (by decide +kernel)))
      | ((with_reducible refine wr_in ?_ ?_); (· first | exact hdr_mem rfl (by decide +kernel) | exact own_mem (show _ ∈ tabINST2 by decide +kernel) | exact own_mem (show _ ∈ tabTENANT by decide +kernel)); (· first | exact le_regs hF (show (Fam.face, _) ∈ _ by decide +kernel) | exact le_regs hF (show (Fam.inst, _) ∈ _ by decide +kernel) | exact le_regs hF (show (Fam.tenant, _) ∈ _ by decide +kernel)))
      | ((with_reducible refine bump_in ?_ ?_ ..); (· rfl); (· first | exact Foot.le_trans (F := Foot.counting .inst) (by decide +kernel) hF))
      | ((with_reducible refine resetPage_in ?_); (· first | exact fun f m hk => le_regs (x := (Fam.tenant, f)) hF ((show ∀ f ∈ tabTENANT, f.kept.testBit (Rst.bit .inst) = false → (Fam.tenant, f) ∈ Foot.execInstanceResetDone.regs by decide +kernel) f m hk)))
      | ((with_reducible refine clearStaging_in ?_ ..); (· exact Foot.le_trans (Foot.le_of_runs (by decide +kernel)) hF))
      | ((with_reducible refine flushSome_in ?_ ..); (· exact Foot.le_trans (Foot.le_of_runs (by decide +kernel)) hF))
      | ((with_reducible refine resetPage_in ?_ ..); (· exact Foot.le_trans (Foot.le_of_runs (by decide +kernel)) hF))
      | ((with_reducible refine ringClear_in ?_ ..); (· exact Foot.le_trans (Foot.le_of_runs (by decide +kernel)) hF))
      | ((with_reducible refine unbindNow_in ?_ ..); (· exact Foot.le_trans (Foot.le_of_runs (by decide +kernel)) hF))
      | split
      | dsimp only

def Foot.execFlushTimeout : Foot :=
  { regs := onFam .guard (errFields ++ fCnt ++ [.GUARD_ELOG_CTRL_LOST]) ++ onFam .face fCnt ++ onFam .inst (errFields ++ fCnt ++
      [.INST_STAT_FLUSH_TO]), cnts := [.guard, .face, .inst], vars := [.elogSeq, .msixPend], fifos := [.elog, .faceWrote,
      .flushTodo, .viWrote], parts := [.greqs, .out, .slots] }

theorem execFlushTimeout_within (v : ViId) {σ τ : State} (hw : σ.wf) (he : execFlushTimeout v σ = .next τ) : Within Foot.execFlushTimeout σ τ := by
  have hF := Foot.le_refl Foot.execFlushTimeout
  refine answer_within ?_ hw he
  clear he hw
  repeat' first
      | (with_reducible first | exact all_nil_in | refine all_cons_in ?_ ?_ | refine look_in fun _ => ?_ | refine when_in ?_ | refine forEach_in fun _ => ?_)
      | ((with_reducible refine putFifo_in ?_); (· exact le_fifos hF (by decide +kernel)))
      | ((with_reducible refine wr_in ?_ ?_); (· first | exact hdr_mem rfl (by decide +kernel) | exact own_mem (show _ ∈ tabGUARD0 by decide +kernel) | exact own_mem (show _ ∈ tabINST2 by decide +kernel)); (· first | exact le_regs hF (show (Fam.face, _) ∈ _ by decide +kernel) | exact le_regs hF (show (Fam.guard, _) ∈ _ by decide +kernel) | exact le_regs hF (show (Fam.inst, _) ∈ _ by decide +kernel)))
      | ((with_reducible refine bump_in ?_ ?_ ..); (· rfl); (· first | exact Foot.le_trans (F := Foot.counting .inst) (by decide +kernel) hF))
      | ((with_reducible refine raiseAll_in ?_ ?_ ..); (· rfl); (· first | exact Foot.le_trans (F := Foot.error .inst) (by decide +kernel) hF))
      | ((with_reducible refine abandon_in ?_ ..); (· exact Foot.le_trans (Foot.le_of_runs (by decide +kernel)) hF))
      | split
      | dsimp only

def Foot.execInstanceReset : Foot :=
  { regs := onFam .sec (errFields ++ fCnt) ++ onFam .guard (errFields ++ fCnt ++ [.GUARD_ELOG_CTRL_LOST]) ++ onFam .core (fCnt ++
      [.CORE_WM_STAT_WM_CROSS_CNT, .CORE_WM_STAT_WM_EVENT, .CORE_WM_STAT_WM_LEVEL]) ++ onFam .route (errFields ++ fCnt) ++ onFam
      .bridge (errFields ++ fCnt ++ [.BRIDGE_LOCK_STAT_HOLDER, .BRIDGE_LOCK_STAT_LOCKED, .BRIDGE_PROOF_WM_STAT_WM_CROSS_CNT,
      .BRIDGE_PROOF_WM_STAT_WM_EVENT, .BRIDGE_PROOF_WM_STAT_WM_LEVEL]) ++ onFam .face (errFields ++ fCnt) ++ onFam .schedg fCnt ++
      onFam .inst (errFields ++ fCnt ++ [.INST_RESET_GO, .INST_RESET_REFUSED, .INST_RESET_VI, .INST_STAT_FENCED,
      .INST_STAT_FLUSH_TO, .INST_STAT_RESETTING, .INST_STAT_TDI]) ++ onFam .moverg errFields ++ onFam .eng fCnt ++ onFam .ring
      [.MOVER_RING_STAT_STATE], cnts := [.sec, .guard, .core, .route, .bridge, .face, .schedg, .inst, .eng], vars := [.aerStamp,
      .arbLast, .cbsAt, .cbsCr, .elogSeq, .fetchN, .fetchTag, .lockDest, .msixPend, .pcieSent, .pktId, .polAt, .polC, .polP,
      .redAvg, .stipCnt, .stipSeq, .stopWaits, .tagEp], fifos := [.elog, .faceWrote, .flushTodo, .missLog, .viWrote], parts :=
      [.buf, .descs, .free, .greqs, .out, .prefs, .slots, .streams, .waiting] }

theorem execInstanceReset_within (st : Stamp) (v : Word) {σ τ : State} (hw : σ.wf) (he : execInstanceReset st v σ = .next τ) : Within Foot.execInstanceReset σ τ := by
  have hF := Foot.le_refl Foot.execInstanceReset
  refine answer_within ?_ hw he
  clear he hw
  repeat' first
      | ((with_reducible refine granted_in ?_ ?_ _ _ ?_); (· rfl); (· first | exact Foot.le_trans (F := Foot.access .inst) (by decide +kernel) hF); skip)
      | ((with_reducible refine instResetWrite_in ?_ ..); (· exact Foot.le_trans (Foot.le_of_runs (by decide +kernel)) hF))
      | split
      | dsimp only

def Foot.execInstanceSelfReset : Foot :=
  { regs := onFam .sec (errFields ++ fCnt) ++ onFam .guard (errFields ++ fCnt ++ [.GUARD_ELOG_CTRL_LOST]) ++ onFam .core (fCnt ++
      [.CORE_WM_STAT_WM_CROSS_CNT, .CORE_WM_STAT_WM_EVENT, .CORE_WM_STAT_WM_LEVEL]) ++ onFam .route (errFields ++ fCnt) ++ onFam
      .bridge (errFields ++ fCnt ++ [.BRIDGE_LOCK_STAT_HOLDER, .BRIDGE_LOCK_STAT_LOCKED, .BRIDGE_PROOF_WM_STAT_WM_CROSS_CNT,
      .BRIDGE_PROOF_WM_STAT_WM_EVENT, .BRIDGE_PROOF_WM_STAT_WM_LEVEL]) ++ onFam .face (errFields ++ fCnt) ++ onFam .schedg fCnt ++
      onFam .tenant errFields ++ onFam .inst [.INST_STAT_FENCED, .INST_STAT_FLUSH_TO, .INST_STAT_RESETTING, .INST_STAT_TDI] ++
      onFam .moverg errFields ++ onFam .eng fCnt ++ onFam .ring [.MOVER_RING_STAT_STATE], cnts := [.sec, .guard, .core, .route,
      .bridge, .face, .schedg, .eng], vars := [.aerStamp, .arbLast, .cbsAt, .cbsCr, .elogSeq, .fetchN, .fetchTag, .lockDest,
      .msixPend, .pcieSent, .pktId, .polAt, .polC, .polP, .redAvg, .stipCnt, .stipSeq, .stopWaits, .tagEp], fifos := [.elog,
      .faceWrote, .flushTodo, .missLog, .viWrote], parts := [.buf, .descs, .free, .greqs, .out, .prefs, .slots, .streams,
      .waiting] }

theorem execInstanceSelfReset_within (st : Stamp) (v : ViId) {σ τ : State} (hw : σ.wf) (he : execInstanceSelfReset st v σ = .next τ) : Within Foot.execInstanceSelfReset σ τ := by
  have hF := Foot.le_refl Foot.execInstanceSelfReset
  refine answer_within ?_ hw he
  clear he hw
  repeat' first
      | ((with_reducible refine granted_in' ?_ ?_ _ _ ?_); (· rfl); (· exact le_vars hF (by decide +kernel)); skip)
      | ((with_reducible refine selfReset_in ?_ ..); (· exact Foot.le_trans (Foot.le_of_runs (by decide +kernel)) hF))
      | split
      | dsimp only

def Foot.execInstanceBind : Foot :=
  { regs := onFam .sec (errFields ++ fCnt) ++ onFam .guard (errFields ++ fCnt ++ [.GUARD_ELOG_CTRL_LOST]) ++ onFam .core (fCnt ++
      [.CORE_WM_STAT_WM_CROSS_CNT, .CORE_WM_STAT_WM_EVENT, .CORE_WM_STAT_WM_LEVEL]) ++ onFam .route (errFields ++ fCnt) ++ onFam
      .bridge (errFields ++ fCnt ++ [.BRIDGE_LOCK_STAT_HOLDER, .BRIDGE_LOCK_STAT_LOCKED, .BRIDGE_PROOF_WM_STAT_WM_CROSS_CNT,
      .BRIDGE_PROOF_WM_STAT_WM_EVENT, .BRIDGE_PROOF_WM_STAT_WM_LEVEL]) ++ onFam .face (errFields ++ fCnt) ++ onFam .schedg fCnt ++
      onFam .inst (errFields ++ fCnt ++ [.INST_BIND_CFG0_FACE, .INST_BIND_CFG0_PASID, .INST_BIND_CFG1_FEID,
      .INST_BIND_CFG1_POLICER, .INST_BIND_CFG1_POL_EN, .INST_BIND_CFG2_TAG_MAX, .INST_BIND_CFG2_VEC_BASE,
      .INST_BIND_CFG2_VEC_LOG2, .INST_BIND_GO, .INST_BIND_OP, .INST_BIND_STATUS, .INST_BIND_VI, .INST_STAT_BOUND, .INST_STAT_FACE,
      .INST_STAT_FENCED, .INST_STAT_FLUSH_TO, .INST_STAT_RESETTING, .INST_STAT_TDI, .INST_VI_CFG_CFG0_FACE,
      .INST_VI_CFG_CFG0_PASID, .INST_VI_CFG_CFG1_FEID, .INST_VI_CFG_CFG1_POLICER, .INST_VI_CFG_CFG1_POL_EN,
      .INST_VI_CFG_CFG2_TAG_MAX, .INST_VI_CFG_CFG2_VEC_BASE, .INST_VI_CFG_CFG2_VEC_LOG2]) ++ onFam .moverg errFields ++ onFam .eng
      fCnt ++ onFam .ring [.MOVER_RING_STAT_STATE], cnts := [.sec, .guard, .core, .route, .bridge, .face, .schedg, .inst, .eng],
      vars := [.aerStamp, .arbLast, .cbsAt, .cbsCr, .elogSeq, .fetchN, .fetchTag, .lockDest, .msixPend, .pcieSent, .pktId, .polAt,
      .polC, .polP, .redAvg, .stipCnt, .stipSeq, .stopWaits, .tagEp, .unbindBy, .viSlot], fifos := [.elog, .faceWrote, .flushTodo,
      .missLog, .viWrote], parts := [.buf, .descs, .free, .greqs, .out, .prefs, .slots, .streams, .waiting] }

theorem execInstanceBind_within (st : Stamp) (v : Word) {σ τ : State} (hw : σ.wf) (he : execInstanceBind st v σ = .next τ) : Within Foot.execInstanceBind σ τ := by
  have hF := Foot.le_refl Foot.execInstanceBind
  refine answer_within ?_ hw he
  clear he hw
  repeat' first
      | ((with_reducible refine granted_in ?_ ?_ _ _ ?_); (· rfl); (· first | exact Foot.le_trans (F := Foot.access .inst) (by decide +kernel) hF); skip)
      | ((with_reducible refine instBindWrite_in ?_ ..); (· exact Foot.le_trans (Foot.le_of_runs (by decide +kernel)) hF))
      | split
      | dsimp only

def Foot.execInstanceBindAny : Foot :=
  { regs := onFam .sec (errFields ++ fCnt) ++ onFam .guard (errFields ++ fCnt ++ [.GUARD_ELOG_CTRL_LOST]) ++ onFam .core (fCnt ++
      [.CORE_WM_STAT_WM_CROSS_CNT, .CORE_WM_STAT_WM_EVENT, .CORE_WM_STAT_WM_LEVEL]) ++ onFam .route (errFields ++ fCnt) ++ onFam
      .bridge (errFields ++ fCnt ++ [.BRIDGE_LOCK_STAT_HOLDER, .BRIDGE_LOCK_STAT_LOCKED, .BRIDGE_PROOF_WM_STAT_WM_CROSS_CNT,
      .BRIDGE_PROOF_WM_STAT_WM_EVENT, .BRIDGE_PROOF_WM_STAT_WM_LEVEL]) ++ onFam .face (errFields ++ fCnt) ++ onFam .schedg fCnt ++
      onFam .inst (errFields ++ fCnt ++ [.INST_BIND_CFG0_FACE, .INST_BIND_CFG0_PASID, .INST_BIND_CFG1_FEID,
      .INST_BIND_CFG1_POLICER, .INST_BIND_CFG1_POL_EN, .INST_BIND_CFG2_TAG_MAX, .INST_BIND_CFG2_VEC_BASE,
      .INST_BIND_CFG2_VEC_LOG2, .INST_BIND_GO, .INST_BIND_OP, .INST_BIND_STATUS, .INST_BIND_VI, .INST_STAT_BOUND, .INST_STAT_FACE,
      .INST_STAT_FENCED, .INST_STAT_FLUSH_TO, .INST_STAT_RESETTING, .INST_STAT_TDI, .INST_VI_CFG_CFG0_FACE,
      .INST_VI_CFG_CFG0_PASID, .INST_VI_CFG_CFG1_FEID, .INST_VI_CFG_CFG1_POLICER, .INST_VI_CFG_CFG1_POL_EN,
      .INST_VI_CFG_CFG2_TAG_MAX, .INST_VI_CFG_CFG2_VEC_BASE, .INST_VI_CFG_CFG2_VEC_LOG2]) ++ onFam .moverg errFields ++ onFam .eng
      fCnt ++ onFam .ring [.MOVER_RING_STAT_STATE], cnts := [.sec, .guard, .core, .route, .bridge, .face, .schedg, .inst, .eng],
      vars := [.aerStamp, .arbLast, .cbsAt, .cbsCr, .elogSeq, .fetchN, .fetchTag, .lockDest, .msixPend, .pcieSent, .pktId, .polAt,
      .polC, .polP, .redAvg, .stipCnt, .stipSeq, .stopWaits, .tagEp, .unbindBy, .viSlot], fifos := [.elog, .faceWrote, .flushTodo,
      .missLog, .viWrote], parts := [.buf, .descs, .free, .greqs, .out, .prefs, .slots, .streams, .waiting] }

theorem execInstanceBindAny_within (st : Stamp) (v : Word) {σ τ : State} (hw : σ.wf) (he : execInstanceBindAny st v σ = .next τ) : Within Foot.execInstanceBindAny σ τ := by
  have hF := Foot.le_refl Foot.execInstanceBindAny
  refine answer_within ?_ hw he
  clear he hw
  repeat' first
      | ((with_reducible refine granted_in ?_ ?_ _ _ ?_); (· rfl); (· first | exact Foot.le_trans (F := Foot.access .inst) (by decide +kernel) hF); skip)
      | ((with_reducible refine instBindWrite_in ?_ ..); (· exact Foot.le_trans (Foot.le_of_runs (by decide +kernel)) hF))
      | split
      | dsimp only

def Foot.execInstanceUnbind : Foot :=
  { regs := onFam .sec (errFields ++ fCnt) ++ onFam .guard (errFields ++ fCnt ++ [.GUARD_ELOG_CTRL_LOST]) ++ onFam .core (fCnt ++
      [.CORE_WM_STAT_WM_CROSS_CNT, .CORE_WM_STAT_WM_EVENT, .CORE_WM_STAT_WM_LEVEL]) ++ onFam .route (errFields ++ fCnt) ++ onFam
      .bridge (errFields ++ fCnt ++ [.BRIDGE_LOCK_STAT_HOLDER, .BRIDGE_LOCK_STAT_LOCKED, .BRIDGE_PROOF_WM_STAT_WM_CROSS_CNT,
      .BRIDGE_PROOF_WM_STAT_WM_EVENT, .BRIDGE_PROOF_WM_STAT_WM_LEVEL]) ++ onFam .face (errFields ++ fCnt) ++ onFam .schedg fCnt ++
      onFam .inst (errFields ++ fCnt ++ [.INST_BIND_CFG0_FACE, .INST_BIND_CFG0_PASID, .INST_BIND_CFG1_FEID,
      .INST_BIND_CFG1_POLICER, .INST_BIND_CFG1_POL_EN, .INST_BIND_CFG2_TAG_MAX, .INST_BIND_CFG2_VEC_BASE,
      .INST_BIND_CFG2_VEC_LOG2, .INST_BIND_GO, .INST_BIND_OP, .INST_BIND_STATUS, .INST_BIND_VI, .INST_STAT_BOUND, .INST_STAT_FACE,
      .INST_STAT_FENCED, .INST_STAT_FLUSH_TO, .INST_STAT_RESETTING, .INST_STAT_TDI, .INST_VI_CFG_CFG0_FACE,
      .INST_VI_CFG_CFG0_PASID, .INST_VI_CFG_CFG1_FEID, .INST_VI_CFG_CFG1_POLICER, .INST_VI_CFG_CFG1_POL_EN,
      .INST_VI_CFG_CFG2_TAG_MAX, .INST_VI_CFG_CFG2_VEC_BASE, .INST_VI_CFG_CFG2_VEC_LOG2]) ++ onFam .moverg errFields ++ onFam .eng
      fCnt ++ onFam .ring [.MOVER_RING_STAT_STATE], cnts := [.sec, .guard, .core, .route, .bridge, .face, .schedg, .inst, .eng],
      vars := [.aerStamp, .arbLast, .cbsAt, .cbsCr, .elogSeq, .fetchN, .fetchTag, .lockDest, .msixPend, .pcieSent, .pktId, .polAt,
      .polC, .polP, .redAvg, .stipCnt, .stipSeq, .stopWaits, .tagEp, .unbindBy, .viSlot], fifos := [.elog, .faceWrote, .flushTodo,
      .missLog, .viWrote], parts := [.buf, .descs, .free, .greqs, .out, .prefs, .slots, .streams, .waiting] }

theorem execInstanceUnbind_within (st : Stamp) (v : Word) {σ τ : State} (hw : σ.wf) (he : execInstanceUnbind st v σ = .next τ) : Within Foot.execInstanceUnbind σ τ := by
  have hF := Foot.le_refl Foot.execInstanceUnbind
  refine answer_within ?_ hw he
  clear he hw
  repeat' first
      | ((with_reducible refine granted_in ?_ ?_ _ _ ?_); (· rfl); (· first | exact Foot.le_trans (F := Foot.access .inst) (by decide +kernel) hF); skip)
      | ((with_reducible refine instBindWrite_in ?_ ..); (· exact Foot.le_trans (Foot.le_of_runs (by decide +kernel)) hF))
      | split
      | dsimp only

def Foot.execShareWrite : Foot :=
  { regs := onFam .guard (errFields ++ fCnt ++ [.GUARD_ELOG_CTRL_LOST]) ++ onFam .face fCnt ++ onFam .inst (errFields ++
      [.INST_SHARE_SHARE, .INST_STAT_FENCED, .INST_STAT_SUSPENDED, .INST_STAT_TDI]), cnts := [.guard, .face], vars := [.aerStamp,
      .arbLast, .elogSeq, .flowDef, .msixPend], fifos := [.elog, .faceWrote, .viWrote], parts := [.greqs, .out] }

theorem execShareWrite_within (st : Stamp) (v : ViId) (w : Word) {σ τ : State} (hw : σ.wf) (he : execShareWrite st v w σ = .next τ) : Within Foot.execShareWrite σ τ := by
  have hF := Foot.le_refl Foot.execShareWrite
  refine answer_within ?_ hw he
  clear he hw
  repeat' first
      | ((with_reducible refine shareWrite_in ?_ _ _ _ ?_); (· exact Foot.le_trans (Foot.le_of_runs (by decide +kernel)) hF); (· exact v.isLt))
      | ((with_reducible refine granted_in ?_ ?_ _ _ ?_); (· rfl); (· first | exact Foot.le_trans (F := Foot.access .inst) (by decide +kernel) hF); skip)
      | ((with_reducible refine shareWrite_in ?_ ..); (· exact Foot.le_trans (Foot.le_of_runs (by decide +kernel)) hF))
      | split
      | dsimp only

def Foot.execPolicerCommit : Foot :=
  { regs := onFam .guard (errFields ++ fCnt ++ [.GUARD_ELOG_CTRL_LOST]) ++ onFam .face fCnt ++ onFam .schedg (errFields ++
      [.SCHED_POL_SEL_GO, .SCHED_POL_SEL_INDEX, .SCHED_POL_SEL_STATUS]) ++ onFam .inst [.INST_STAT_FENCED, .INST_STAT_TDI], cnts
      := [.guard, .face], vars := [.aerStamp, .arbLast, .elogSeq, .msixPend, .polAt, .polC, .polCbs, .polCir, .polCtl, .polHas,
      .polP, .polPbs, .polPir], fifos := [.elog, .faceWrote, .viWrote], parts := [.greqs, .out] }

theorem execPolicerCommit_within (st : Stamp) (v : Word) {σ τ : State} (hw : σ.wf) (he : execPolicerCommit st v σ = .next τ) : Within Foot.execPolicerCommit σ τ := by
  have hF := Foot.le_refl Foot.execPolicerCommit
  refine answer_within ?_ hw he
  clear he hw
  repeat' first
      | (with_reducible first | exact all_nil_in | refine all_cons_in ?_ ?_)
      | ((with_reducible refine granted_in ?_ ?_ _ _ ?_); (· rfl); (· first | exact Foot.le_trans (F := Foot.access .schedg) (by decide +kernel) hF); skip)
      | ((with_reducible refine polSelWrite_in ?_ ..); (· exact Foot.le_trans (Foot.le_of_runs (by decide +kernel)) hF))
      | ((with_reducible refine tdiCheck_in ?_ ..); (· exact Foot.le_trans (Foot.le_of_runs (by decide +kernel)) hF))
      | split
      | dsimp only

def Foot.execGetTdispVersion : Foot :=
  { regs := onFam .mgmt fCnt ++ onFam .sec errFields ++ onFam .guard (errFields ++ fCnt ++ [.GUARD_ELOG_CTRL_LOST]) ++ onFam .face
      fCnt, cnts := [.mgmt, .guard, .face], vars := [.elogSeq, .msixPend], fifos := [.elog, .faceWrote, .viWrote], parts :=
      [.greqs, .out] }

theorem execGetTdispVersion_within (ch : DoeOrMctp) (v : ViId) {σ τ : State} (hw : σ.wf) (he : execGetTdispVersion ch v σ = .next τ) : Within Foot.execGetTdispVersion σ τ := by
  have hF := Foot.le_refl Foot.execGetTdispVersion
  refine answer_within ?_ hw he
  clear he hw
  repeat' first
      | ((with_reducible refine emit_in ?_); (· exact le_parts hF (by decide +kernel)))
      | ((with_reducible refine tdispFor_in ?_ _ _ _ (fun _ _ => ?_)); (· exact Foot.le_trans (Foot.le_of_runs (by decide +kernel)) hF); skip)
      | split
      | dsimp only

def Foot.execGetTdispCapabilities : Foot :=
  { regs := onFam .mgmt fCnt ++ onFam .sec errFields ++ onFam .guard (errFields ++ fCnt ++ [.GUARD_ELOG_CTRL_LOST]) ++ onFam .face
      fCnt, cnts := [.mgmt, .guard, .face], vars := [.elogSeq, .msixPend], fifos := [.elog, .faceWrote, .viWrote], parts :=
      [.greqs, .out] }

theorem execGetTdispCapabilities_within (ch : DoeOrMctp) (v : ViId) {σ τ : State} (hw : σ.wf) (he : execGetTdispCapabilities ch v σ = .next τ) : Within Foot.execGetTdispCapabilities σ τ := by
  have hF := Foot.le_refl Foot.execGetTdispCapabilities
  refine answer_within ?_ hw he
  clear he hw
  repeat' first
      | ((with_reducible refine emit_in ?_); (· exact le_parts hF (by decide +kernel)))
      | ((with_reducible refine tdispFor_in ?_ _ _ _ (fun _ _ => ?_)); (· exact Foot.le_trans (Foot.le_of_runs (by decide +kernel)) hF); skip)
      | split
      | dsimp only

def Foot.execLockInterfaceRequest : Foot :=
  { regs := onFam .mgmt fCnt ++ onFam .sec errFields ++ onFam .guard (errFields ++ fCnt ++ [.GUARD_ELOG_CTRL_LOST]) ++ onFam .face
      fCnt ++ onFam .inst [.INST_STAT_TDI], cnts := [.mgmt, .guard, .face], vars := [.elogSeq, .lockLimit, .lockPol, .lockShare,
      .msixPend], fifos := [.elog, .faceWrote, .viWrote], parts := [.greqs, .out] }

theorem execLockInterfaceRequest_within (ch : DoeOrMctp) (v : ViId) {σ τ : State} (hw : σ.wf) (he : execLockInterfaceRequest ch v σ = .next τ) : Within Foot.execLockInterfaceRequest σ τ := by
  have hF := Foot.le_refl Foot.execLockInterfaceRequest
  refine answer_within ?_ hw he
  clear he hw
  repeat' first
      | (with_reducible first | exact all_nil_in | refine all_cons_in ?_ ?_ | refine ite_in ?_ ?_ | refine forBelow_in fun _ => ?_)
      | ((with_reducible refine put_in ?_); (· exact le_vars hF (by decide +kernel)))
      | ((with_reducible refine emit_in ?_); (· exact le_parts hF (by decide +kernel)))
      | ((with_reducible refine wr_in ?_ ?_); (· first | exact own_mem (show _ ∈ tabINST2 by decide +kernel)); (· first | exact le_regs hF (show (Fam.inst, _) ∈ _ by decide +kernel)))
      | ((with_reducible refine tdispFor_in ?_ _ _ _ (fun _ _ => ?_)); (· exact Foot.le_trans (Foot.le_of_runs (by decide +kernel)) hF); skip)
      | split
      | dsimp only

def Foot.execGetDeviceInterfaceState : Foot :=
  { regs := onFam .mgmt fCnt ++ onFam .sec errFields ++ onFam .guard (errFields ++ fCnt ++ [.GUARD_ELOG_CTRL_LOST]) ++ onFam .face
      fCnt, cnts := [.mgmt, .guard, .face], vars := [.elogSeq, .msixPend], fifos := [.elog, .faceWrote, .viWrote], parts :=
      [.greqs, .out] }

theorem execGetDeviceInterfaceState_within (ch : DoeOrMctp) (v : ViId) {σ τ : State} (hw : σ.wf) (he : execGetDeviceInterfaceState ch v σ = .next τ) : Within Foot.execGetDeviceInterfaceState σ τ := by
  have hF := Foot.le_refl Foot.execGetDeviceInterfaceState
  refine answer_within ?_ hw he
  clear he hw
  repeat' first
      | ((with_reducible refine emit_in ?_); (· exact le_parts hF (by decide +kernel)))
      | ((with_reducible refine tdispFor_in ?_ _ _ _ (fun _ _ => ?_)); (· exact Foot.le_trans (Foot.le_of_runs (by decide +kernel)) hF); skip)
      | split
      | dsimp only

def Foot.execGetDeviceInterfaceReport : Foot :=
  { regs := onFam .mgmt fCnt ++ onFam .sec errFields ++ onFam .guard (errFields ++ fCnt ++ [.GUARD_ELOG_CTRL_LOST]) ++ onFam .face
      fCnt, cnts := [.mgmt, .guard, .face], vars := [.elogSeq, .msixPend], fifos := [.elog, .faceWrote, .viWrote], parts :=
      [.greqs, .out] }

theorem execGetDeviceInterfaceReport_within (ch : DoeOrMctp) (v : ViId) {σ τ : State} (hw : σ.wf) (he : execGetDeviceInterfaceReport ch v σ = .next τ) : Within Foot.execGetDeviceInterfaceReport σ τ := by
  have hF := Foot.le_refl Foot.execGetDeviceInterfaceReport
  refine answer_within ?_ hw he
  clear he hw
  repeat' first
      | (with_reducible first | refine ite_in ?_ ?_)
      | ((with_reducible refine emit_in ?_); (· exact le_parts hF (by decide +kernel)))
      | ((with_reducible refine tdispFor_in ?_ _ _ _ (fun _ _ => ?_)); (· exact Foot.le_trans (Foot.le_of_runs (by decide +kernel)) hF); skip)
      | split
      | dsimp only

def Foot.execStartInterfaceRequest : Foot :=
  { regs := onFam .mgmt fCnt ++ onFam .sec errFields ++ onFam .guard (errFields ++ fCnt ++ [.GUARD_ELOG_CTRL_LOST]) ++ onFam .face
      fCnt ++ onFam .inst [.INST_STAT_TDI], cnts := [.mgmt, .guard, .face], vars := [.elogSeq, .msixPend], fifos := [.elog,
      .faceWrote, .viWrote], parts := [.greqs, .out] }

theorem execStartInterfaceRequest_within (ch : DoeOrMctp) (v : ViId) {σ τ : State} (hw : σ.wf) (he : execStartInterfaceRequest ch v σ = .next τ) : Within Foot.execStartInterfaceRequest σ τ := by
  have hF := Foot.le_refl Foot.execStartInterfaceRequest
  refine answer_within ?_ hw he
  clear he hw
  repeat' first
      | (with_reducible first | exact all_nil_in | refine all_cons_in ?_ ?_ | refine ite_in ?_ ?_)
      | ((with_reducible refine emit_in ?_); (· exact le_parts hF (by decide +kernel)))
      | ((with_reducible refine wr_in ?_ ?_); (· first | exact own_mem (show _ ∈ tabINST2 by decide +kernel)); (· first | exact le_regs hF (show (Fam.inst, _) ∈ _ by decide +kernel)))
      | ((with_reducible refine tdispFor_in ?_ _ _ _ (fun _ _ => ?_)); (· exact Foot.le_trans (Foot.le_of_runs (by decide +kernel)) hF); skip)
      | split
      | dsimp only

def Foot.execStopInterfaceRequest : Foot :=
  { regs := onFam .mgmt fCnt ++ onFam .sec (errFields ++ fCnt) ++ onFam .guard (errFields ++ fCnt ++ [.GUARD_ELOG_CTRL_LOST]) ++
      onFam .core (fCnt ++ [.CORE_WM_STAT_WM_CROSS_CNT, .CORE_WM_STAT_WM_EVENT, .CORE_WM_STAT_WM_LEVEL]) ++ onFam .route
      (errFields ++ fCnt) ++ onFam .bridge (errFields ++ fCnt ++ [.BRIDGE_LOCK_STAT_HOLDER, .BRIDGE_LOCK_STAT_LOCKED,
      .BRIDGE_PROOF_WM_STAT_WM_CROSS_CNT, .BRIDGE_PROOF_WM_STAT_WM_EVENT, .BRIDGE_PROOF_WM_STAT_WM_LEVEL]) ++ onFam .face
      (errFields ++ fCnt) ++ onFam .schedg fCnt ++ onFam .inst [.INST_STAT_FENCED, .INST_STAT_FLUSH_TO, .INST_STAT_RESETTING,
      .INST_STAT_TDI] ++ onFam .moverg errFields ++ onFam .eng fCnt ++ onFam .ring [.MOVER_RING_STAT_STATE], cnts := [.mgmt, .sec,
      .guard, .core, .route, .bridge, .face, .schedg, .eng], vars := [.cbsAt, .cbsCr, .elogSeq, .fetchN, .fetchTag, .lockDest,
      .msixPend, .pcieSent, .pktId, .polAt, .polC, .polP, .redAvg, .stipCnt, .stipSeq, .stopWaits, .tagEp], fifos := [.elog,
      .faceWrote, .flushTodo, .missLog, .viWrote], parts := [.buf, .descs, .free, .greqs, .out, .prefs, .slots, .streams,
      .waiting] }

theorem execStopInterfaceRequest_within (ch : DoeOrMctp) (v : ViId) {σ τ : State} (hw : σ.wf) (he : execStopInterfaceRequest ch v σ = .next τ) : Within Foot.execStopInterfaceRequest σ τ := by
  have hF := Foot.le_refl Foot.execStopInterfaceRequest
  refine answer_within ?_ hw he
  clear he hw
  repeat' first
      | ((with_reducible refine instReset_in ?_ ..); (· exact Foot.le_trans (Foot.le_of_runs (by decide +kernel)) hF))
      | ((with_reducible refine tdispFor_in ?_ _ _ _ (fun _ _ => ?_)); (· exact Foot.le_trans (Foot.le_of_runs (by decide +kernel)) hF); skip)
      | split
      | dsimp only

def Foot.execTdispUnsupported : Foot :=
  { regs := onFam .mgmt fCnt ++ onFam .sec errFields ++ onFam .guard (errFields ++ fCnt ++ [.GUARD_ELOG_CTRL_LOST]) ++ onFam .face
      fCnt, cnts := [.mgmt, .guard, .face], vars := [.elogSeq, .msixPend], fifos := [.elog, .faceWrote, .viWrote], parts :=
      [.greqs, .out] }

theorem execTdispUnsupported_within (ch : DoeOrMctp) (v : ViId) {σ τ : State} (hw : σ.wf) (he : execTdispUnsupported ch v σ = .next τ) : Within Foot.execTdispUnsupported σ τ := by
  have hF := Foot.le_refl Foot.execTdispUnsupported
  refine answer_within ?_ hw he
  clear he hw
  repeat' first
      | ((with_reducible refine emit_in ?_); (· exact le_parts hF (by decide +kernel)))
      | ((with_reducible refine tdispFor_in ?_ _ _ _ (fun _ _ => ?_)); (· exact Foot.le_trans (Foot.le_of_runs (by decide +kernel)) hF); skip)
      | split
      | dsimp only

def Foot.execFlrServiceEndpoint : Foot :=
  { regs := onFam .sec (errFields ++ fCnt) ++ onFam .guard (errFields ++ fCnt ++ [.GUARD_ELOG_CTRL_LOST]) ++ onFam .core (fCnt ++
      [.CORE_WM_STAT_WM_CROSS_CNT, .CORE_WM_STAT_WM_EVENT, .CORE_WM_STAT_WM_LEVEL]) ++ onFam .route (errFields ++ fCnt) ++ onFam
      .bridge (errFields ++ fCnt ++ [.BRIDGE_LOCK_STAT_HOLDER, .BRIDGE_LOCK_STAT_LOCKED, .BRIDGE_PROOF_WM_STAT_WM_CROSS_CNT,
      .BRIDGE_PROOF_WM_STAT_WM_EVENT, .BRIDGE_PROOF_WM_STAT_WM_LEVEL]) ++ onFam .face (errFields ++ fCnt ++ [.FACE_FLR_STAT_BUSY])
      ++ onFam .schedg fCnt ++ onFam .inst [.INST_STAT_FENCED, .INST_STAT_FLUSH_TO, .INST_STAT_RESETTING, .INST_STAT_TDI] ++ onFam
      .moverg errFields ++ onFam .eng fCnt ++ onFam .ring [.MOVER_RING_STAT_STATE], cnts := [.sec, .guard, .core, .route, .bridge,
      .face, .schedg, .eng], vars := [.cbsAt, .cbsCr, .elogSeq, .faceEpoch, .fetchN, .fetchTag, .flrAt, .lockDest, .msixPend,
      .pcieSent, .pktId, .polAt, .polC, .polP, .redAvg, .stipCnt, .stipSeq, .stopWaits, .tagEp], fifos := [.elog, .faceWrote,
      .flushTodo, .missLog, .viWrote], parts := [.buf, .descs, .free, .greqs, .out, .prefs, .slots, .streams, .waiting] }

theorem execFlrServiceEndpoint_within (f : FaceId) {σ τ : State} (hw : σ.wf) (he : execFlrServiceEndpoint f σ = .next τ) : Within Foot.execFlrServiceEndpoint σ τ := by
  have hF := Foot.le_refl Foot.execFlrServiceEndpoint
  refine answer_within ?_ hw he
  clear he hw
  repeat' first
      | ((with_reducible refine flrStart_in ?_ ..); (· exact Foot.le_trans (Foot.le_of_runs (by decide +kernel)) hF))
      | split
      | dsimp only

def Foot.execFlrDone : Foot :=
  { regs := onFam .sec (errFields ++ fCnt) ++ onFam .guard (errFields ++ fCnt ++ [.GUARD_ELOG_CTRL_LOST]) ++ onFam .core (fCnt ++
      [.CORE_WM_STAT_WM_CROSS_CNT, .CORE_WM_STAT_WM_EVENT, .CORE_WM_STAT_WM_LEVEL]) ++ onFam .route (errFields ++ fCnt) ++ onFam
      .bridge (errFields ++ fCnt ++ [.BRIDGE_LOCK_STAT_HOLDER, .BRIDGE_LOCK_STAT_LOCKED, .BRIDGE_PROOF_WM_STAT_WM_CROSS_CNT,
      .BRIDGE_PROOF_WM_STAT_WM_EVENT, .BRIDGE_PROOF_WM_STAT_WM_LEVEL]) ++ onFam .face (errFields ++ fCnt ++ [.BLK_CTRL_SOFT_RESET,
      .CNT_CLR_CLR, .CNT_HI_HIGH, .CNT_LO_LOW, .FACE_FLR_STAT_BUSY, .FACE_FLR_STAT_DONE, .FACE_FLR_STAT_TIME_US,
      .FACE_PM_STAT_PME_EN, .FACE_PM_STAT_PME_STATUS, .FACE_PM_STAT_SE_D, .FACE_WIN_COMMIT_GO]) ++ onFam .schedg fCnt ++ onFam
      .moverg errFields ++ onFam .eng fCnt ++ onFam .ring [.MOVER_RING_BASE_ADDR, .MOVER_RING_BASE_ADDR_HI,
      .MOVER_RING_CFG_ENABLE, .MOVER_RING_CFG_ENGINE, .MOVER_RING_CFG_KIND, .MOVER_RING_CFG_OWNER, .MOVER_RING_CFG_OWN_KIND,
      .MOVER_RING_CFG_SIZE_LOG2, .MOVER_RING_CFG_STOP_ON_ERR, .MOVER_RING_CPL_BASE_ADDR, .MOVER_RING_CPL_BASE_ADDR_HI,
      .MOVER_RING_CPL_CTRL_COAL_US, .MOVER_RING_CPL_CTRL_IRQ_EN, .MOVER_RING_CPL_CTRL_MODE, .MOVER_RING_CPL_CTRL_VECTOR,
      .MOVER_RING_CPL_FIFO_DW, .MOVER_RING_CPL_HEAD_CPL_HEAD, .MOVER_RING_CPL_TAIL_CPL_TAIL, .MOVER_RING_CPL_TAIL_PHASE,
      .MOVER_RING_HEAD_HEAD, .MOVER_RING_STAT_LAST_INDEX, .MOVER_RING_STAT_LAST_STATUS, .MOVER_RING_STAT_RESUME,
      .MOVER_RING_STAT_STATE, .MOVER_RING_TAIL_TAIL], cnts := [.sec, .guard, .core, .route, .bridge, .face, .schedg, .eng], vars
      := [.cbsAt, .cbsCr, .coalDue, .coalOn, .elogSeq, .fetchAt, .fetchN, .fetchTag, .lockDest, .meDef, .msixAddr, .msixData,
      .msixEnable, .msixFnMask, .msixOpen, .msixPend, .pcieSent, .pktId, .polAt, .polC, .polP, .redAvg, .rehome, .seBar,
      .seBusMaster, .seMps, .seMrrs, .seMse, .sePasid, .seTags, .stipCnt, .stipSeq, .tagEp, .win], fifos := [.cplFifo, .elog,
      .faceWrote, .flushTodo, .missLog, .ringWrote, .viWrote], parts := [.buf, .descs, .free, .greqs, .out, .prefs, .slots,
      .streams, .waiting] }

theorem execFlrDone_within (f : FaceId) {σ τ : State} (hw : σ.wf) (he : execFlrDone f σ = .next τ) : Within Foot.execFlrDone σ τ := by
  have hF := Foot.le_refl Foot.execFlrDone
  refine answer_within ?_ hw he
  clear he hw
  repeat' first
      | (with_reducible first | exact all_nil_in | refine all_cons_in ?_ ?_ | refine look_in fun _ => ?_ | refine when_in ?_ | refine forEach_in fun _ => ?_)
      | ((with_reducible refine wr_in ?_ ?_); (· first | exact hdr_mem rfl (by decide +kernel) | exact own_mem (show _ ∈ tabFACE by decide +kernel)); (· first | exact le_regs hF (show (Fam.face, _) ∈ _ by decide +kernel)))
      | ((with_reducible refine bump_in ?_ ?_ ..); (· rfl); (· first | exact Foot.le_trans (F := Foot.counting .face) (by decide +kernel) hF))
      | ((with_reducible refine resetPage_in ?_); (· first | exact fun f m hk => le_regs (x := (Fam.face, f)) hF ((show ∀ f ∈ (tabHDR ++ tabFACE), f.kept.testBit (Rst.bit .flr) = false → (Fam.face, f) ∈ Foot.execFlrDone.regs by decide +kernel) f m hk)))
      | ((with_reducible refine flushSome_in ?_ ..); (· exact Foot.le_trans (Foot.le_of_runs (by decide +kernel)) hF))
      | ((with_reducible refine keepSoftReset_in ?_ _ _ (?_)); (· exact Foot.le_trans (Foot.le_of_runs (by decide +kernel)) hF); skip)
      | ((with_reducible refine resetPage_in ?_ ..); (· exact Foot.le_trans (Foot.le_of_runs (by decide +kernel)) hF))
      | ((with_reducible refine ringEnds_in ?_ ..); (· exact Foot.le_trans (Foot.le_of_runs (by decide +kernel)) hF))
      | ((with_reducible refine seReset_in ?_ ..); (· exact Foot.le_trans (Foot.le_of_runs (by decide +kernel)) hF))
      | split
      | dsimp only

def Foot.execPmeTurnOff : Foot :=
  { regs := onFam .face [.FACE_PM_STAT_LINK_PM], vars := [.pmeOff], parts := [.out] }

theorem execPmeTurnOff_within (f : FaceId) {σ τ : State} (hw : σ.wf) (he : execPmeTurnOff f σ = .next τ) : Within Foot.execPmeTurnOff σ τ := by
  have hF := Foot.le_refl Foot.execPmeTurnOff
  refine answer_within ?_ hw he
  clear he hw
  repeat' first
      | (with_reducible first | exact all_nil_in | refine all_cons_in ?_ ?_ | refine look_in fun _ => ?_ | refine when_in ?_)
      | ((with_reducible refine put_in ?_); (· exact le_vars hF (by decide +kernel)))
      | ((with_reducible refine emit_in ?_); (· exact le_parts hF (by decide +kernel)))
      | ((with_reducible refine wr_in ?_ ?_); (· first | exact own_mem (show _ ∈ tabFACE by decide +kernel)); (· first | exact le_regs hF (show (Fam.face, _) ∈ _ by decide +kernel)))
      | split
      | dsimp only

def Foot.execFaceResetPin : Foot :=
  { regs := onFam .sec (errFields ++ fCnt ++ [.SEC_IDE_STAT_DEV_AUTH, .SEC_IDE_STAT_LINK_ID, .SEC_IDE_STAT_LINK_KSET,
      .SEC_IDE_STAT_LINK_SECURE, .SEC_IDE_STAT_SEL_SECURE, .SEC_IDE_STAT_SEL_VALID, .SEC_LINK_STAT_AUTH_OK,
      .SEC_LINK_STAT_AUTH_STATUS, .SEC_LINK_STAT_PARTNER_DEBUG, .SEC_LINK_STAT_REKEY, .SEC_LINK_STAT_REKEYS]) ++ onFam .guard
      (errFields ++ fCnt ++ [.GUARD_ELOG_CTRL_LOST]) ++ onFam .lane [.LANE_INJ_CTRL_ONE_SHOT, .LANE_RATE_CFG_RATE_NOW,
      .LANE_REST_CTRL_IN_REST, .LANE_STAT_ALIGN_LOCK, .LANE_STAT_CDR_LOCK, .LANE_STAT_EQ_DONE, .LANE_STAT_EQ_FAIL,
      .LANE_STAT_EXIT_FAIL, .LANE_STAT_FAILED, .LANE_STAT_FEC_LOCK, .LANE_STAT_RX_READY, .LANE_STAT_STATE, .LANE_TX_TAPS_C0,
      .LANE_TX_TAPS_POST, .LANE_TX_TAPS_PRE] ++ onFam .core (errFields ++ fCnt ++ [.CORE_WM_STAT_WM_CROSS_CNT,
      .CORE_WM_STAT_WM_EVENT, .CORE_WM_STAT_WM_LEVEL]) ++ onFam .route (errFields ++ fCnt) ++ onFam .bridge (errFields ++ fCnt ++
      [.BRIDGE_FAB_NBR_PARTNER_PORT, .BRIDGE_FAB_NBR_PARTNER_SW, .BRIDGE_FAB_NBR_VALID, .BRIDGE_LOCK_STAT_HOLDER,
      .BRIDGE_LOCK_STAT_LOCKED, .BRIDGE_PROOF_WM_STAT_WM_CROSS_CNT, .BRIDGE_PROOF_WM_STAT_WM_EVENT,
      .BRIDGE_PROOF_WM_STAT_WM_LEVEL]) ++ onFam .mbox (fCnt ++ [.MBOX_SEM_PEEK_HELD, .MBOX_SEM_PEEK_OWNER]) ++ onFam .port
      [.PORT_LINK_STAT_ENC, .PORT_LINK_STAT_FLIT, .PORT_LINK_STAT_KEY_PHASE, .PORT_LINK_STAT_LANES_GOOD, .PORT_LINK_STAT_RATE_NOW,
      .PORT_LINK_STAT_STATE, .PORT_LINK_STAT_WIDTH_NOW, .PORT_REPLAY_CNT_CONSEC] ++ onFam .face (errFields ++ fCnt ++
      [.BLK_CTRL_SOFT_RESET, .CNT_CLR_CLR, .CNT_HI_HIGH, .CNT_LO_LOW, .FACE_BIND_STATE, .FACE_BUS_LIMIT_NEED,
      .FACE_BUS_LIMIT_NO_BUS, .FACE_FLR_STAT_BUSY, .FACE_FLR_STAT_DONE, .FACE_FLR_STAT_TIME_US, .FACE_PM_STAT_FWAKE,
      .FACE_PM_STAT_LINK_PM, .FACE_PM_STAT_PME_EN, .FACE_PM_STAT_PME_STATUS, .FACE_PM_STAT_SE_D, .FACE_PM_STAT_USP_D,
      .FACE_PRES_CONFLICT, .FACE_PRES_SHOWN, .FACE_TAG_CTRL_REQ_WIDTH, .FACE_WIN_BASE_ADDR, .FACE_WIN_BASE_ADDR_HI,
      .FACE_WIN_COMMIT_GO, .FACE_WIN_COMMIT_INDEX, .FACE_WIN_COMMIT_OP, .FACE_WIN_COMMIT_STATUS, .FACE_WIN_SIZE_LINK_BAR,
      .FACE_WIN_SIZE_LINK_EN, .FACE_WIN_SIZE_LINK_PRES, .FACE_WIN_SIZE_LOG2, .FACE_WIN_TAB_ACTIVE, .FACE_WIN_TAB_BASE,
      .FACE_WIN_TAB_BASE_HI, .FACE_WIN_TAB_LINK_BAR, .FACE_WIN_TAB_LINK_EN, .FACE_WIN_TAB_LINK_PRES, .FACE_WIN_TAB_LOG2,
      .FACE_WIN_TAB_VALID, .FACE_WIN_TAB_XLAT, .FACE_WIN_TAB_XLAT_HI, .FACE_WIN_XLAT_ADDR, .FACE_WIN_XLAT_ADDR_HI]) ++ onFam
      .schedg fCnt ++ onFam .inst [.INST_STAT_FENCED, .INST_STAT_FLUSH_TO, .INST_STAT_RESETTING, .INST_STAT_TDI] ++ onFam .moverg
      errFields ++ onFam .eng fCnt ++ onFam .ring [.MOVER_RING_BASE_ADDR, .MOVER_RING_BASE_ADDR_HI, .MOVER_RING_CFG_ENABLE,
      .MOVER_RING_CFG_ENGINE, .MOVER_RING_CFG_KIND, .MOVER_RING_CFG_OWNER, .MOVER_RING_CFG_OWN_KIND, .MOVER_RING_CFG_SIZE_LOG2,
      .MOVER_RING_CFG_STOP_ON_ERR, .MOVER_RING_CPL_BASE_ADDR, .MOVER_RING_CPL_BASE_ADDR_HI, .MOVER_RING_CPL_CTRL_COAL_US,
      .MOVER_RING_CPL_CTRL_IRQ_EN, .MOVER_RING_CPL_CTRL_MODE, .MOVER_RING_CPL_CTRL_VECTOR, .MOVER_RING_CPL_FIFO_DW,
      .MOVER_RING_CPL_HEAD_CPL_HEAD, .MOVER_RING_CPL_TAIL_CPL_TAIL, .MOVER_RING_CPL_TAIL_PHASE, .MOVER_RING_HEAD_HEAD,
      .MOVER_RING_STAT_LAST_INDEX, .MOVER_RING_STAT_LAST_STATUS, .MOVER_RING_STAT_RESUME, .MOVER_RING_STAT_STATE,
      .MOVER_RING_TAIL_TAIL], cnts := [.sec, .guard, .core, .route, .bridge, .mbox, .face, .schedg, .eng], vars := [.alignMiss,
      .alignSeen, .aspm, .authDebug, .authStep, .badCw, .bme, .bridgeCtl, .bridgeD3, .cbsAt, .cbsCr, .coalDue, .coalOn, .crAdv,
      .crInit, .crUsed, .elogSeq, .eqTimeouts, .faceEpoch, .fetchAt, .fetchN, .fetchTag, .fperst, .ideGo, .ideKey, .injAlign,
      .linkDis, .lockDest, .lsSeen, .meDef, .memWin, .mkDue, .mkRx, .mkTx, .mse, .msixAddr, .msixData, .msixEnable, .msixFnMask,
      .msixOpen, .msixPend, .nakSent, .nextKey, .ownReq, .paramGot, .paramVal, .partnerAspm, .partnerMax, .partnerReady,
      .partnerRest, .pcieAcked, .pcieRev, .pcieSent, .peerReq, .pktId, .pmeOff, .polAt, .polC, .polP, .postStat, .preStat,
      .prefBase, .prefLimit, .prefWin, .presBar, .presBarSet, .presBase, .presCmd, .presInfo, .presRom, .presetStat, .priBus,
      .ptmCount, .ptmEnable, .redAvg, .rehome, .rekeying, .replayAt, .restHeld, .restPend, .restSince, .rxKey, .rxNum, .rxRest,
      .rxSeq, .rxUnacked, .seBar, .seBusMaster, .seMps, .seMrrs, .seMse, .sePasid, .seTags, .secBus, .sizing, .skewCnt, .slotCtl,
      .slotStat, .stipCnt, .stipSeq, .stopWaits, .subBus, .tagEp, .txCount, .txKey, .txLimit, .txNum, .txSeq, .txUsed, .uspMps,
      .wcDone, .wcFrom, .wcId, .wcOldWidth, .wcSet, .widening, .win], fifos := [.cplFifo, .elog, .faceWrote, .flushTodo, .missLog,
      .ringWrote, .viWrote], parts := [.buf, .descs, .free, .greqs, .out, .prefs, .replay, .slots, .streams, .waiting] }

theorem execFaceResetPin_within (f : FaceId) {σ τ : State} (hw : σ.wf) (he : execFaceResetPin f σ = .next τ) : Within Foot.execFaceResetPin σ τ := by
  have hF := Foot.le_refl Foot.execFaceResetPin
  refine always_within ?_ hw he
  clear he hw
  repeat' first
      | (with_reducible first | exact all_nil_in | refine all_cons_in ?_ ?_ | refine look_in fun _ => ?_ | refine when_in ?_)
      | ((with_reducible refine put_in ?_); (· exact le_vars hF (by decide +kernel)))
      | ((with_reducible refine faceReset_in ?_ ..); (· exact Foot.le_trans (Foot.le_of_runs (by decide +kernel)) hF))
      | split
      | dsimp only

def Foot.execHotResetReceived : Foot :=
  { regs := onFam .sec (errFields ++ fCnt ++ [.SEC_IDE_STAT_DEV_AUTH, .SEC_IDE_STAT_LINK_ID, .SEC_IDE_STAT_LINK_KSET,
      .SEC_IDE_STAT_LINK_SECURE, .SEC_IDE_STAT_SEL_SECURE, .SEC_IDE_STAT_SEL_VALID, .SEC_LINK_STAT_AUTH_OK,
      .SEC_LINK_STAT_AUTH_STATUS, .SEC_LINK_STAT_PARTNER_DEBUG, .SEC_LINK_STAT_REKEY, .SEC_LINK_STAT_REKEYS]) ++ onFam .guard
      (errFields ++ fCnt ++ [.GUARD_ELOG_CTRL_LOST]) ++ onFam .lane [.LANE_INJ_CTRL_ONE_SHOT, .LANE_RATE_CFG_RATE_NOW,
      .LANE_REST_CTRL_IN_REST, .LANE_STAT_ALIGN_LOCK, .LANE_STAT_CDR_LOCK, .LANE_STAT_EQ_DONE, .LANE_STAT_EQ_FAIL,
      .LANE_STAT_EXIT_FAIL, .LANE_STAT_FAILED, .LANE_STAT_FEC_LOCK, .LANE_STAT_RX_READY, .LANE_STAT_STATE, .LANE_TX_TAPS_C0,
      .LANE_TX_TAPS_POST, .LANE_TX_TAPS_PRE] ++ onFam .core (errFields ++ fCnt ++ [.CORE_WM_STAT_WM_CROSS_CNT,
      .CORE_WM_STAT_WM_EVENT, .CORE_WM_STAT_WM_LEVEL]) ++ onFam .route (errFields ++ fCnt) ++ onFam .bridge (errFields ++ fCnt ++
      [.BRIDGE_FAB_NBR_PARTNER_PORT, .BRIDGE_FAB_NBR_PARTNER_SW, .BRIDGE_FAB_NBR_VALID, .BRIDGE_LOCK_STAT_HOLDER,
      .BRIDGE_LOCK_STAT_LOCKED, .BRIDGE_PROOF_WM_STAT_WM_CROSS_CNT, .BRIDGE_PROOF_WM_STAT_WM_EVENT,
      .BRIDGE_PROOF_WM_STAT_WM_LEVEL]) ++ onFam .mbox (fCnt ++ [.MBOX_SEM_PEEK_HELD, .MBOX_SEM_PEEK_OWNER]) ++ onFam .port
      [.PORT_LINK_STAT_ENC, .PORT_LINK_STAT_FLIT, .PORT_LINK_STAT_KEY_PHASE, .PORT_LINK_STAT_LANES_GOOD, .PORT_LINK_STAT_RATE_NOW,
      .PORT_LINK_STAT_STATE, .PORT_LINK_STAT_WIDTH_NOW, .PORT_REPLAY_CNT_CONSEC] ++ onFam .face (errFields ++ fCnt ++
      [.BLK_CTRL_SOFT_RESET, .CNT_CLR_CLR, .CNT_HI_HIGH, .CNT_LO_LOW, .FACE_BIND_STATE, .FACE_BUS_LIMIT_NEED,
      .FACE_BUS_LIMIT_NO_BUS, .FACE_FLR_STAT_BUSY, .FACE_FLR_STAT_DONE, .FACE_FLR_STAT_TIME_US, .FACE_PM_STAT_FWAKE,
      .FACE_PM_STAT_LINK_PM, .FACE_PM_STAT_PME_EN, .FACE_PM_STAT_PME_STATUS, .FACE_PM_STAT_SE_D, .FACE_PM_STAT_USP_D,
      .FACE_PRES_CONFLICT, .FACE_PRES_SHOWN, .FACE_TAG_CTRL_REQ_WIDTH, .FACE_WIN_BASE_ADDR, .FACE_WIN_BASE_ADDR_HI,
      .FACE_WIN_COMMIT_GO, .FACE_WIN_COMMIT_INDEX, .FACE_WIN_COMMIT_OP, .FACE_WIN_COMMIT_STATUS, .FACE_WIN_SIZE_LINK_BAR,
      .FACE_WIN_SIZE_LINK_EN, .FACE_WIN_SIZE_LINK_PRES, .FACE_WIN_SIZE_LOG2, .FACE_WIN_TAB_ACTIVE, .FACE_WIN_TAB_BASE,
      .FACE_WIN_TAB_BASE_HI, .FACE_WIN_TAB_LINK_BAR, .FACE_WIN_TAB_LINK_EN, .FACE_WIN_TAB_LINK_PRES, .FACE_WIN_TAB_LOG2,
      .FACE_WIN_TAB_VALID, .FACE_WIN_TAB_XLAT, .FACE_WIN_TAB_XLAT_HI, .FACE_WIN_XLAT_ADDR, .FACE_WIN_XLAT_ADDR_HI]) ++ onFam
      .schedg fCnt ++ onFam .inst [.INST_STAT_FENCED, .INST_STAT_FLUSH_TO, .INST_STAT_RESETTING, .INST_STAT_TDI] ++ onFam .moverg
      errFields ++ onFam .eng fCnt ++ onFam .ring [.MOVER_RING_BASE_ADDR, .MOVER_RING_BASE_ADDR_HI, .MOVER_RING_CFG_ENABLE,
      .MOVER_RING_CFG_ENGINE, .MOVER_RING_CFG_KIND, .MOVER_RING_CFG_OWNER, .MOVER_RING_CFG_OWN_KIND, .MOVER_RING_CFG_SIZE_LOG2,
      .MOVER_RING_CFG_STOP_ON_ERR, .MOVER_RING_CPL_BASE_ADDR, .MOVER_RING_CPL_BASE_ADDR_HI, .MOVER_RING_CPL_CTRL_COAL_US,
      .MOVER_RING_CPL_CTRL_IRQ_EN, .MOVER_RING_CPL_CTRL_MODE, .MOVER_RING_CPL_CTRL_VECTOR, .MOVER_RING_CPL_FIFO_DW,
      .MOVER_RING_CPL_HEAD_CPL_HEAD, .MOVER_RING_CPL_TAIL_CPL_TAIL, .MOVER_RING_CPL_TAIL_PHASE, .MOVER_RING_HEAD_HEAD,
      .MOVER_RING_STAT_LAST_INDEX, .MOVER_RING_STAT_LAST_STATUS, .MOVER_RING_STAT_RESUME, .MOVER_RING_STAT_STATE,
      .MOVER_RING_TAIL_TAIL], cnts := [.sec, .guard, .core, .route, .bridge, .mbox, .face, .schedg, .eng], vars := [.alignMiss,
      .alignSeen, .aspm, .authDebug, .authStep, .badCw, .bme, .bridgeCtl, .bridgeD3, .cbsAt, .cbsCr, .coalDue, .coalOn, .crAdv,
      .crInit, .crUsed, .elogSeq, .eqTimeouts, .faceEpoch, .fetchAt, .fetchN, .fetchTag, .ideGo, .ideKey, .injAlign, .linkDis,
      .lockDest, .lsSeen, .meDef, .memWin, .mkDue, .mkRx, .mkTx, .mse, .msixAddr, .msixData, .msixEnable, .msixFnMask, .msixOpen,
      .msixPend, .nakSent, .nextKey, .ownReq, .paramGot, .paramVal, .partnerAspm, .partnerMax, .partnerReady, .partnerRest,
      .pcieAcked, .pcieRev, .pcieSent, .peerReq, .pktId, .pmeOff, .polAt, .polC, .polP, .postStat, .preStat, .prefBase,
      .prefLimit, .prefWin, .presBar, .presBarSet, .presBase, .presCmd, .presInfo, .presRom, .presetStat, .priBus, .ptmCount,
      .ptmEnable, .redAvg, .rehome, .rekeying, .replayAt, .restHeld, .restPend, .restSince, .rxKey, .rxNum, .rxRest, .rxSeq,
      .rxUnacked, .seBar, .seBusMaster, .seMps, .seMrrs, .seMse, .sePasid, .seTags, .secBus, .sizing, .skewCnt, .slotCtl,
      .slotStat, .stipCnt, .stipSeq, .stopWaits, .subBus, .tagEp, .txCount, .txKey, .txLimit, .txNum, .txSeq, .txUsed, .uspMps,
      .wcDone, .wcFrom, .wcId, .wcOldWidth, .wcSet, .widening, .win], fifos := [.cplFifo, .elog, .faceWrote, .flushTodo, .missLog,
      .ringWrote, .viWrote], parts := [.buf, .descs, .free, .greqs, .out, .prefs, .replay, .slots, .streams, .waiting] }

theorem execHotResetReceived_within (f : FaceId) {σ τ : State} (hw : σ.wf) (he : execHotResetReceived f σ = .next τ) : Within Foot.execHotResetReceived σ τ := by
  have hF := Foot.le_refl Foot.execHotResetReceived
  refine answer_within ?_ hw he
  clear he hw
  repeat' first
      | (with_reducible first | refine look_in fun _ => ?_ | refine when_in ?_)
      | ((with_reducible refine faceReset_in ?_ ..); (· exact Foot.le_trans (Foot.le_of_runs (by decide +kernel)) hF))
      | split
      | dsimp only

def Foot.execFperstRelease : Foot :=
  { regs := onFam .face [.FACE_PM_STAT_FWAKE], vars := [.fperst, .wakeFaces] }

theorem execFperstRelease_within (f : FaceId) {σ τ : State} (hw : σ.wf) (he : execFperstRelease f σ = .next τ) : Within Foot.execFperstRelease σ τ := by
  have hF := Foot.le_refl Foot.execFperstRelease
  refine always_within ?_ hw he
  clear he hw
  repeat' first
      | (with_reducible first | exact all_nil_in | refine all_cons_in ?_ ?_ | refine look_in fun _ => ?_ | refine when_in ?_)
      | ((with_reducible refine put_in ?_); (· exact le_vars hF (by decide +kernel)))
      | ((with_reducible refine wr_in ?_ ?_); (· first | exact own_mem (show _ ∈ tabFACE by decide +kernel)); (· first | exact le_regs hF (show (Fam.face, _) ∈ _ by decide +kernel)))
      | split
      | dsimp only

def Foot.execFaceReady : Foot :=
  { regs := onFam .face [.FACE_BIND_STATE] }

theorem execFaceReady_within (f : FaceId) {σ τ : State} (hw : σ.wf) (he : execFaceReady f σ = .next τ) : Within Foot.execFaceReady σ τ := by
  have hF := Foot.le_refl Foot.execFaceReady
  refine answer_within ?_ hw he
  clear he hw
  repeat' first
      | (with_reducible first | refine look_in fun _ => ?_ | refine when_in ?_)
      | ((with_reducible refine wr_in ?_ ?_); (· first | exact own_mem (show _ ∈ tabFACE by decide +kernel)); (· first | exact le_regs hF (show (Fam.face, _) ∈ _ by decide +kernel)))
      | split
      | dsimp only

end Sys2Proof.Machine
end

