-- ==== Sys2Proof/Laws/ExecLane.lean ====
section
/-! SUPPORT. What each command of Machine/Lane.lean may touch. -/

namespace Sys2Proof.Machine

set_option Elab.async false
set_option linter.unusedTactic false
set_option linter.unreachableTactic false

def Foot.execCodewordReceived : Foot :=
  { regs := onFam .lane fCnt ++ onFam .face fCnt, cnts := [.lane, .face], vars := [.badCw, .msixPend], fifos := [.faceWrote,
      .viWrote], parts := [.out] }

theorem execCodewordReceived_within (l : LaneId) (symErrs : Nat) {σ τ : State} (hw : σ.wf) (he : execCodewordReceived l symErrs σ = .next τ) : Within Foot.execCodewordReceived σ τ := by
  have hF := Foot.le_refl Foot.execCodewordReceived
  refine answer_within ?_ hw he
  clear he hw
  repeat' first
      | (with_reducible first | exact all_nil_in | refine all_cons_in ?_ ?_ | refine look_in fun _ => ?_ | refine when_in ?_)
      | ((with_reducible refine put_in ?_); (· exact le_vars hF (by decide +kernel)))
      | ((with_reducible refine laneCnt_in ?_ ..); (· exact Foot.le_trans (Foot.le_of_runs (by decide +kernel)) hF))
      | split
      | dsimp only

def Foot.execFillerReceived : Foot :=
  { regs := onFam .lane fCnt ++ onFam .face fCnt, cnts := [.lane, .face], vars := [.msixPend], fifos := [.faceWrote, .viWrote],
      parts := [.out] }

theorem execFillerReceived_within (l : LaneId) {σ τ : State} (hw : σ.wf) (he : execFillerReceived l σ = .next τ) : Within Foot.execFillerReceived σ τ := by
  have hF := Foot.le_refl Foot.execFillerReceived
  refine answer_within ?_ hw he
  clear he hw
  repeat' first
      | ((with_reducible refine laneCnt_in ?_ ..); (· exact Foot.le_trans (Foot.le_of_runs (by decide +kernel)) hF))
      | split
      | dsimp only

def Foot.execFecDegrade : Foot :=
  { regs := onFam .guard (errFields ++ fCnt ++ [.GUARD_ELOG_CTRL_LOST]) ++ onFam .lane errFields ++ onFam .face fCnt, cnts :=
      [.guard, .face], vars := [.elogSeq, .msixPend], fifos := [.elog, .faceWrote, .viWrote], parts := [.greqs, .out] }

theorem execFecDegrade_within (l : LaneId) {σ τ : State} (hw : σ.wf) (he : execFecDegrade l σ = .next τ) : Within Foot.execFecDegrade σ τ := by
  have hF := Foot.le_refl Foot.execFecDegrade
  refine answer_within ?_ hw he
  clear he hw
  repeat' first
      | (with_reducible first | refine look_in fun _ => ?_ | refine when_in ?_)
      | ((with_reducible refine raise_in ?_ ?_ ..); (· rfl); (· first | exact Foot.le_trans (F := Foot.error .lane) (by decide +kernel) hF))
      | split
      | dsimp only

def Foot.execCoeffApply : Foot :=
  { regs := onFam .lane [.LANE_TX_TAPS_C0, .LANE_TX_TAPS_POST, .LANE_TX_TAPS_PRE], vars := [.postStat, .preStat, .presetStat], parts
      := [.out] }

theorem execCoeffApply_within (l : LaneId) (req : EqReq) {σ τ : State} (hw : σ.wf) (he : execCoeffApply l req σ = .next τ) : Within Foot.execCoeffApply σ τ := by
  have hF := Foot.le_refl Foot.execCoeffApply
  refine answer_within ?_ hw he
  clear he hw
  repeat' first
      | (with_reducible first | exact skip_in | exact all_nil_in | refine all_cons_in ?_ ?_ | refine look_in fun _ => ?_ | refine when_in ?_ | refine ite_in ?_ ?_)
      | ((with_reducible refine emit_in ?_); (· exact le_parts hF (by decide +kernel)))
      | ((with_reducible refine coeffAnswer_in ?_ ..); (· exact Foot.le_trans (Foot.le_of_runs (by decide +kernel)) hF))
      | ((with_reducible refine pcieAnswer_in ?_ ..); (· exact Foot.le_trans (Foot.le_of_runs (by decide +kernel)) hF))
      | split
      | dsimp only

def Foot.execEqRespTimeout : Foot :=
  { regs := onFam .lane (fCnt ++ [.LANE_STAT_EQ_FAIL]) ++ onFam .face fCnt, cnts := [.lane, .face], vars := [.eqTimeouts,
      .msixPend], fifos := [.faceWrote, .viWrote], parts := [.out] }

theorem execEqRespTimeout_within (l : LaneId) {σ τ : State} (hw : σ.wf) (he : execEqRespTimeout l σ = .next τ) : Within Foot.execEqRespTimeout σ τ := by
  have hF := Foot.le_refl Foot.execEqRespTimeout
  refine answer_within ?_ hw he
  clear he hw
  repeat' first
      | (with_reducible first | exact all_nil_in | refine all_cons_in ?_ ?_ | refine look_in fun _ => ?_ | refine when_in ?_ | refine ite_in ?_ ?_)
      | ((with_reducible refine put_in ?_); (· exact le_vars hF (by decide +kernel)))
      | ((with_reducible refine emit_in ?_); (· exact le_parts hF (by decide +kernel)))
      | ((with_reducible refine wln_in ?_ ?_ _ _); (· decide +kernel); (· exact le_regs hF (by decide +kernel)))
      | ((with_reducible refine laneCnt_in ?_ ..); (· exact Foot.le_trans (Foot.le_of_runs (by decide +kernel)) hF))
      | split
      | dsimp only

def Foot.execTxTapsWrite : Foot :=
  { regs := onFam .guard (errFields ++ fCnt ++ [.GUARD_ELOG_CTRL_LOST]) ++ onFam .lane (errFields ++ [.LANE_TX_TAPS_C0,
      .LANE_TX_TAPS_POST, .LANE_TX_TAPS_PRE]) ++ onFam .face fCnt, cnts := [.guard, .face], vars := [.aerStamp, .arbLast,
      .elogSeq, .msixPend], fifos := [.elog, .faceWrote, .viWrote], parts := [.greqs, .out] }

theorem execTxTapsWrite_within (st : Stamp) (l : LaneId) (v : Word) {σ τ : State} (hw : σ.wf) (he : execTxTapsWrite st l v σ = .next τ) : Within Foot.execTxTapsWrite σ τ := by
  have hF := Foot.le_refl Foot.execTxTapsWrite
  refine answer_within ?_ hw he
  clear he hw
  repeat' first
      | ((with_reducible refine granted_in ?_ ?_ _ _ ?_); (· rfl); (· first | exact Foot.le_trans (F := Foot.access .lane) (by decide +kernel) hF); skip)
      | ((with_reducible refine tapsWrite_in ?_ ..); (· exact Foot.le_trans (Foot.le_of_runs (by decide +kernel)) hF))
      | split
      | dsimp only

def Foot.execEqModeWrite : Foot :=
  { regs := onFam .guard (errFields ++ fCnt ++ [.GUARD_ELOG_CTRL_LOST]) ++ onFam .lane (errFields ++ [.LANE_EQ_CTRL_INIT_PRESET,
      .LANE_EQ_CTRL_MODE, .LANE_EQ_CTRL_RESP_TIMEOUT, .LANE_EQ_CTRL_RETRIES, .LANE_EQ_CTRL_RX_ADAPT]) ++ onFam .face fCnt, cnts :=
      [.guard, .face], vars := [.aerStamp, .arbLast, .elogSeq, .msixPend, .postStat, .preStat, .presetStat], fifos := [.elog,
      .faceWrote, .viWrote], parts := [.greqs, .out] }

theorem execEqModeWrite_within (st : Stamp) (l : LaneId) (v : Word) {σ τ : State} (hw : σ.wf) (he : execEqModeWrite st l v σ = .next τ) : Within Foot.execEqModeWrite σ τ := by
  have hF := Foot.le_refl Foot.execEqModeWrite
  refine answer_within ?_ hw he
  clear he hw
  repeat' first
      | ((with_reducible refine granted_in ?_ ?_ _ _ ?_); (· rfl); (· first | exact Foot.le_trans (F := Foot.access .lane) (by decide +kernel) hF); skip)
      | ((with_reducible refine eqCtrlWrite_in ?_ ..); (· exact Foot.le_trans (Foot.le_of_runs (by decide +kernel)) hF))
      | split
      | dsimp only

def Foot.execPrbsCheckerLock : Foot :=
  { regs := onFam .lane (fCnt ++ [.LANE_PRBS_CTRL_CHK_LOCK]) ++ onFam .face fCnt, cnts := [.lane, .face], vars := [.msixPend], fifos
      := [.faceWrote, .viWrote], parts := [.out] }

theorem execPrbsCheckerLock_within (l : LaneId) (word : BitVec 64) (n errs : Nat) {σ τ : State} (hw : σ.wf) (he : execPrbsCheckerLock l word n errs σ = .next τ) : Within Foot.execPrbsCheckerLock σ τ := by
  have hF := Foot.le_refl Foot.execPrbsCheckerLock
  refine answer_within ?_ hw he
  clear he hw
  repeat' first
      | (with_reducible first | exact all_nil_in | refine all_cons_in ?_ ?_ | refine look_in fun _ => ?_ | refine when_in ?_ | refine ite_in ?_ ?_)
      | ((with_reducible refine wln_in ?_ ?_ _ _); (· decide +kernel); (· exact le_regs hF (by decide +kernel)))
      | ((with_reducible refine addCnt_in ?_ ?_ ..); (· rfl); (· first | exact Foot.le_trans (F := Foot.counting .lane) (by decide +kernel) hF))
      | split
      | dsimp only

def Foot.execInjectOneShot : Foot :=
  { regs := onFam .guard (errFields ++ fCnt ++ [.GUARD_ELOG_CTRL_LOST]) ++ onFam .lane (errFields ++ fCnt ++ [.LANE_INJ_CTRL_COUNT,
      .LANE_INJ_CTRL_ONE_SHOT, .LANE_INJ_CTRL_PERIOD, .LANE_INJ_CTRL_TARGET]) ++ onFam .face fCnt, cnts := [.guard, .lane, .face],
      vars := [.aerStamp, .arbLast, .elogSeq, .injAlign, .msixPend], fifos := [.elog, .faceWrote, .viWrote], parts := [.greqs,
      .out] }

theorem execInjectOneShot_within (st : Stamp) (l : LaneId) (v : Word) {σ τ : State} (hw : σ.wf) (he : execInjectOneShot st l v σ = .next τ) : Within Foot.execInjectOneShot σ τ := by
  have hF := Foot.le_refl Foot.execInjectOneShot
  refine answer_within ?_ hw he
  clear he hw
  repeat' first
      | ((with_reducible refine granted_in ?_ ?_ _ _ ?_); (· rfl); (· first | exact Foot.le_trans (F := Foot.access .lane) (by decide +kernel) hF); skip)
      | ((with_reducible refine injCtrlWrite_in ?_ ..); (· exact Foot.le_trans (Foot.le_of_runs (by decide +kernel)) hF))
      | split
      | dsimp only

def Foot.execInjectPeriodic : Foot :=
  { regs := onFam .lane fCnt ++ onFam .face fCnt, cnts := [.lane, .face], vars := [.injAlign, .msixPend], fifos := [.faceWrote,
      .viWrote], parts := [.out] }

theorem execInjectPeriodic_within (l : LaneId) {σ τ : State} (hw : σ.wf) (he : execInjectPeriodic l σ = .next τ) : Within Foot.execInjectPeriodic σ τ := by
  have hF := Foot.le_refl Foot.execInjectPeriodic
  refine answer_within ?_ hw he
  clear he hw
  repeat' first
      | (with_reducible first | refine look_in fun _ => ?_ | refine when_in ?_)
      | ((with_reducible refine inject_in ?_ ..); (· exact Foot.le_trans (Foot.le_of_runs (by decide +kernel)) hF))
      | split
      | dsimp only

def Foot.execRxAdaptationDone : Foot :=
  { regs := onFam .lane [.LANE_RX_STAT_CTLE, .LANE_RX_STAT_EYE_H, .LANE_RX_STAT_EYE_V, .LANE_RX_STAT_SNR, .LANE_STAT_RX_READY] }

theorem execRxAdaptationDone_within (l : LaneId) (eyeV eyeH snr : BitVec 8) (ctle : Fin 32) {σ τ : State} (hw : σ.wf) (he : execRxAdaptationDone l eyeV eyeH snr ctle σ = .next τ) : Within Foot.execRxAdaptationDone σ τ := by
  have hF := Foot.le_refl Foot.execRxAdaptationDone
  refine answer_within ?_ hw he
  clear he hw
  repeat' first
      | (with_reducible first | exact all_nil_in | refine all_cons_in ?_ ?_ | refine look_in fun _ => ?_ | refine when_in ?_)
      | ((with_reducible refine wln_in ?_ ?_ _ _); (· decide +kernel); (· exact le_regs hF (by decide +kernel)))
      | split
      | dsimp only

end Sys2Proof.Machine
end

