-- ==== Sys2Proof/Laws/ExecMbox.lean ====
section
/-! SUPPORT. What each command of Machine/Mbox.lean may touch. -/

namespace Sys2Proof.Machine

set_option Elab.async false
set_option linter.unusedTactic false
set_option linter.unreachableTactic false

def Foot.execNoticePost : Foot :=
  { regs := onFam .guard (errFields ++ fCnt ++ [.GUARD_ELOG_CTRL_LOST]) ++ onFam .core (fCnt ++ [.CORE_WM_STAT_WM_CROSS_CNT,
      .CORE_WM_STAT_WM_EVENT, .CORE_WM_STAT_WM_LEVEL]) ++ onFam .route (errFields ++ fCnt) ++ onFam .bridge (errFields ++ fCnt ++
      [.BRIDGE_LOCK_STAT_HOLDER, .BRIDGE_LOCK_STAT_LOCKED, .BRIDGE_PROOF_WM_STAT_WM_CROSS_CNT, .BRIDGE_PROOF_WM_STAT_WM_EVENT,
      .BRIDGE_PROOF_WM_STAT_WM_LEVEL]) ++ onFam .mbox (errFields ++ fCnt ++ [.MBOX_REJ_LOG_SID, .MBOX_REJ_LOG_SKIND,
      .MBOX_REJ_LOG_STAMP, .MBOX_REJ_LOG_STATUS]) ++ onFam .face (fCnt ++ [.FACE_PM_STAT_FWAKE, .FACE_PM_STAT_PME_STATUS]) ++
      onFam .schedg fCnt, cnts := [.guard, .core, .route, .bridge, .mbox, .face, .schedg], vars := [.aerStamp, .arbLast, .cbsAt,
      .cbsCr, .elogSeq, .msixPend, .pktId, .polAt, .polC, .polP, .qArm, .redAvg, .stipCnt, .stipSeq, .win], fifos := [.elog,
      .faceWrote, .missLog, .notices, .posts, .viWrote], parts := [.buf, .free, .greqs, .out, .streams, .waiting] }

theorem execNoticePost_within (st : Stamp) (w : NWin) (v : Word) {σ τ : State} (hw : σ.wf) (he : execNoticePost st w v σ = .next τ) : Within Foot.execNoticePost σ τ := by
  have hF := Foot.le_refl Foot.execNoticePost
  refine answer_within ?_ hw he
  clear he hw
  repeat' first
      | ((with_reducible refine noticePostWrite_in ?_ ..); (· exact Foot.le_trans (Foot.le_of_runs (by decide +kernel)) hF))
      | ((with_reducible refine winGranted_in ?_ _ _ _ _ (?_)); (· exact Foot.le_trans (Foot.le_of_runs (by decide +kernel)) hF); skip)
      | split
      | dsimp only

def Foot.execNoticeFrameReceived : Foot :=
  { regs := onFam .guard (errFields ++ fCnt ++ [.GUARD_ELOG_CTRL_LOST]) ++ onFam .core (fCnt ++ [.CORE_WM_STAT_WM_CROSS_CNT,
      .CORE_WM_STAT_WM_EVENT, .CORE_WM_STAT_WM_LEVEL]) ++ onFam .route (errFields ++ fCnt) ++ onFam .bridge (errFields ++ fCnt ++
      [.BRIDGE_LOCK_STAT_HOLDER, .BRIDGE_LOCK_STAT_LOCKED, .BRIDGE_PROOF_WM_STAT_WM_CROSS_CNT, .BRIDGE_PROOF_WM_STAT_WM_EVENT,
      .BRIDGE_PROOF_WM_STAT_WM_LEVEL]) ++ onFam .mbox (errFields ++ fCnt) ++ onFam .face (fCnt ++ [.FACE_PM_STAT_FWAKE,
      .FACE_PM_STAT_PME_STATUS]) ++ onFam .schedg fCnt, cnts := [.guard, .core, .route, .bridge, .mbox, .face, .schedg], vars :=
      [.cbsAt, .cbsCr, .elogSeq, .msixPend, .pktId, .polAt, .polC, .polP, .qArm, .redAvg, .stipCnt, .stipSeq], fifos := [.elog,
      .faceWrote, .missLog, .notices, .viWrote], parts := [.buf, .free, .greqs, .out, .streams, .waiting] }

theorem execNoticeFrameReceived_within (src dest : Feid) (ingSw : SwId) (n : Notice) (fwq : Fin 16) {σ τ : State} (hw : σ.wf) (he : execNoticeFrameReceived src dest ingSw n fwq σ = .next τ) : Within Foot.execNoticeFrameReceived σ τ := by
  have hF := Foot.le_refl Foot.execNoticeFrameReceived
  refine answer_within ?_ hw he
  clear he hw
  repeat' first
      | (with_reducible first | exact all_nil_in | refine all_cons_in ?_ ?_ | refine look_in fun _ => ?_ | refine when_in ?_ | refine ite_in ?_ ?_ | refine forSome_in fun _ => ?_)
      | ((with_reducible refine raise_in ?_ ?_ ..); (· rfl); (· first | exact Foot.le_trans (F := Foot.error .mbox) (by decide +kernel) hF))
      | ((with_reducible refine accept_in ?_ ..); (· exact Foot.le_trans (Foot.le_of_runs (by decide +kernel)) hF))
      | ((with_reducible refine sendMbox_in ?_ ..); (· exact Foot.le_trans (Foot.le_of_runs (by decide +kernel)) hF))
      | split
      | dsimp only

def Foot.execNoticeOutcomeReceived : Foot :=
  { regs := onFam .guard (errFields ++ fCnt ++ [.GUARD_ELOG_CTRL_LOST]) ++ onFam .mbox (errFields ++ fCnt ++ [.MBOX_REJ_LOG_SID,
      .MBOX_REJ_LOG_SKIND, .MBOX_REJ_LOG_STAMP, .MBOX_REJ_LOG_STATUS]) ++ onFam .face fCnt, cnts := [.guard, .mbox, .face], vars
      := [.elogSeq, .msixPend, .win], fifos := [.elog, .faceWrote, .posts, .viWrote], parts := [.greqs, .out] }

theorem execNoticeOutcomeReceived_within (status : Fin 7) (skind : Fin 8) (sid : Fin 1024) (sfeid : Feid) {σ τ : State} (hw : σ.wf) (he : execNoticeOutcomeReceived status skind sid sfeid σ = .next τ) : Within Foot.execNoticeOutcomeReceived σ τ := by
  have hF := Foot.le_refl Foot.execNoticeOutcomeReceived
  refine answer_within ?_ hw he
  clear he hw
  repeat' first
      | (with_reducible first | exact all_nil_in | refine all_cons_in ?_ ?_ | refine look_in fun _ => ?_ | refine when_in ?_ | refine forSome_in fun _ => ?_)
      | ((with_reducible refine putFifo_in ?_); (· exact le_fifos hF (by decide +kernel)))
      | ((with_reducible refine postEnds_in ?_ ..); (· exact Foot.le_trans (Foot.le_of_runs (by decide +kernel)) hF))
      | split
      | dsimp only

def Foot.execNoticeOutcomeTimeout : Foot :=
  { regs := onFam .guard (errFields ++ fCnt ++ [.GUARD_ELOG_CTRL_LOST]) ++ onFam .mbox (errFields ++ fCnt ++ [.MBOX_REJ_LOG_SID,
      .MBOX_REJ_LOG_SKIND, .MBOX_REJ_LOG_STAMP, .MBOX_REJ_LOG_STATUS]) ++ onFam .face fCnt, cnts := [.guard, .mbox, .face], vars
      := [.elogSeq, .msixPend, .win], fifos := [.elog, .faceWrote, .posts, .viWrote], parts := [.greqs, .out] }

theorem execNoticeOutcomeTimeout_within (st : Stamp) (w : NWin) {σ τ : State} (hw : σ.wf) (he : execNoticeOutcomeTimeout st w σ = .next τ) : Within Foot.execNoticeOutcomeTimeout σ τ := by
  have hF := Foot.le_refl Foot.execNoticeOutcomeTimeout
  refine answer_within ?_ hw he
  clear he hw
  repeat' first
      | (with_reducible first | exact all_nil_in | refine all_cons_in ?_ ?_ | refine look_in fun _ => ?_ | refine forSome_in fun _ => ?_)
      | ((with_reducible refine putFifo_in ?_); (· exact le_fifos hF (by decide +kernel)))
      | ((with_reducible refine postEnds_in ?_ ..); (· exact Foot.le_trans (Foot.le_of_runs (by decide +kernel)) hF))
      | split
      | dsimp only

def Foot.execNoticeRead : Foot :=
  { regs := onFam .mbox fCnt ++ onFam .face fCnt, cnts := [.mbox, .face], vars := [.arbLast, .msixPend], fifos := [.faceWrote,
      .held, .notices, .viWrote], parts := [.out] }

theorem execNoticeRead_within (st : Stamp) (w : NWin) {σ τ : State} (hw : σ.wf) (he : execNoticeRead st w σ = .next τ) : Within Foot.execNoticeRead σ τ := by
  have hF := Foot.le_refl Foot.execNoticeRead
  refine answer_within ?_ hw he
  clear he hw
  repeat' first
      | (with_reducible first | exact all_nil_in | refine all_cons_in ?_ ?_ | refine look_in fun _ => ?_ | refine ite_in ?_ ?_)
      | ((with_reducible refine emit_in ?_); (· exact le_parts hF (by decide +kernel)))
      | ((with_reducible refine grant_in ?_ ..); (· exact le_vars hF (by decide +kernel)))
      | (with_reducible refine onPath_in ?_)
      | ((with_reducible refine noticePop_in ?_ ..); (· exact Foot.le_trans (Foot.le_of_runs (by decide +kernel)) hF))
      | split
      | dsimp only

def Foot.execDoorbellArm : Foot :=
  { regs := onFam .guard (errFields ++ fCnt ++ [.GUARD_ELOG_CTRL_LOST]) ++ onFam .mbox errFields ++ onFam .face (fCnt ++
      [.FACE_PM_STAT_FWAKE, .FACE_PM_STAT_PME_STATUS]), cnts := [.guard, .face], vars := [.aerStamp, .arbLast, .elogSeq,
      .msixPend, .qArm], fifos := [.elog, .faceWrote, .viWrote], parts := [.greqs, .out] }

theorem execDoorbellArm_within (st : Stamp) (w : NWin) {σ τ : State} (hw : σ.wf) (he : execDoorbellArm st w σ = .next τ) : Within Foot.execDoorbellArm σ τ := by
  have hF := Foot.le_refl Foot.execDoorbellArm
  refine answer_within ?_ hw he
  clear he hw
  repeat' first
      | ((with_reducible refine arm_in ?_ ..); (· exact Foot.le_trans (Foot.le_of_runs (by decide +kernel)) hF))
      | ((with_reducible refine winGranted_in ?_ _ _ _ _ (?_)); (· exact Foot.le_trans (Foot.le_of_runs (by decide +kernel)) hF); skip)
      | split
      | dsimp only

def Foot.execEpochQuery : Foot :=
  { regs := onFam .guard (errFields ++ fCnt ++ [.GUARD_ELOG_CTRL_LOST]) ++ onFam .mbox errFields ++ onFam .face fCnt, cnts :=
      [.guard, .face], vars := [.aerStamp, .arbLast, .elogSeq, .msixPend, .win], fifos := [.elog, .faceWrote, .viWrote], parts :=
      [.greqs, .out] }

theorem execEpochQuery_within (st : Stamp) (w : NWin) (v : Word) {σ τ : State} (hw : σ.wf) (he : execEpochQuery st w v σ = .next τ) : Within Foot.execEpochQuery σ τ := by
  have hF := Foot.le_refl Foot.execEpochQuery
  refine answer_within ?_ hw he
  clear he hw
  repeat' first
      | ((with_reducible refine put_in ?_); (· exact le_vars hF (by decide +kernel)))
      | ((with_reducible refine winGranted_in ?_ _ _ _ _ (?_)); (· exact Foot.le_trans (Foot.le_of_runs (by decide +kernel)) hF); skip)
      | split
      | dsimp only

def Foot.execWordWrite : Foot :=
  { regs := onFam .guard (errFields ++ fCnt ++ [.GUARD_ELOG_CTRL_LOST]) ++ onFam .mbox (errFields ++ fCnt ++ [.MBOX_WORD_DATA,
      .MBOX_WORD_STAT_FULL, .MBOX_WORD_STAT_WRITER]) ++ onFam .face fCnt, cnts := [.guard, .mbox, .face], vars := [.aerStamp,
      .arbLast, .elogSeq, .msixPend], fifos := [.elog, .faceWrote, .viWrote], parts := [.greqs, .out] }

theorem execWordWrite_within (st : Stamp) (n : Fin 128) (v : Word) {σ τ : State} (hw : σ.wf) (he : execWordWrite st n v σ = .next τ) : Within Foot.execWordWrite σ τ := by
  have hF := Foot.le_refl Foot.execWordWrite
  refine answer_within ?_ hw he
  clear he hw
  repeat' first
      | ((with_reducible refine granted_in ?_ ?_ _ _ ?_); (· rfl); (· first | exact Foot.le_trans (F := Foot.access .mbox) (by decide +kernel) hF); skip)
      | ((with_reducible refine wordWrite_in ?_ ..); (· exact Foot.le_trans (Foot.le_of_runs (by decide +kernel)) hF))
      | split
      | dsimp only

def Foot.execWordTake : Foot :=
  { regs := onFam .guard (errFields ++ fCnt ++ [.GUARD_ELOG_CTRL_LOST]) ++ onFam .mbox (errFields ++ [.MBOX_WORD_STAT_FULL]) ++
      onFam .face fCnt, cnts := [.guard, .face], vars := [.aerStamp, .arbLast, .elogSeq, .msixPend], fifos := [.elog, .faceWrote,
      .viWrote], parts := [.greqs, .out] }

theorem execWordTake_within (st : Stamp) (n : Fin 128) {σ τ : State} (hw : σ.wf) (he : execWordTake st n σ = .next τ) : Within Foot.execWordTake σ τ := by
  have hF := Foot.le_refl Foot.execWordTake
  refine answer_within ?_ hw he
  clear he hw
  repeat' first
      | ((with_reducible refine granted_in ?_ ?_ _ _ ?_); (· rfl); (· first | exact Foot.le_trans (F := Foot.access .mbox) (by decide +kernel) hF); skip)
      | ((with_reducible refine wordTake_in ?_ ..); (· exact Foot.le_trans (Foot.le_of_runs (by decide +kernel)) hF))
      | split
      | dsimp only

def Foot.execSemAcquire : Foot :=
  { regs := onFam .mbox (fCnt ++ [.MBOX_SEM_PEEK_HELD, .MBOX_SEM_PEEK_OWNER]) ++ onFam .face fCnt, cnts := [.mbox, .face], vars :=
      [.arbLast, .msixPend], fifos := [.faceWrote, .viWrote], parts := [.out] }

theorem execSemAcquire_within (st : Stamp) (n : Fin 256) {σ τ : State} (hw : σ.wf) (he : execSemAcquire st n σ = .next τ) : Within Foot.execSemAcquire σ τ := by
  have hF := Foot.le_refl Foot.execSemAcquire
  refine answer_within ?_ hw he
  clear he hw
  repeat' first
      | ((with_reducible refine granting_in ?_ ?_); (· exact le_vars hF (by decide +kernel)); skip)
      | ((with_reducible refine semAcquire_in ?_ ..); (· exact Foot.le_trans (Foot.le_of_runs (by decide +kernel)) hF))
      | split
      | dsimp only

def Foot.execSemRelease : Foot :=
  { regs := onFam .guard (errFields ++ fCnt ++ [.GUARD_ELOG_CTRL_LOST]) ++ onFam .mbox (errFields ++ [.MBOX_SEM_PEEK_HELD,
      .MBOX_SEM_PEEK_OWNER]) ++ onFam .face fCnt, cnts := [.guard, .face], vars := [.aerStamp, .arbLast, .elogSeq, .msixPend],
      fifos := [.elog, .faceWrote, .viWrote], parts := [.greqs, .out] }

theorem execSemRelease_within (st : Stamp) (n : Fin 256) {σ τ : State} (hw : σ.wf) (he : execSemRelease st n σ = .next τ) : Within Foot.execSemRelease σ τ := by
  have hF := Foot.le_refl Foot.execSemRelease
  refine answer_within ?_ hw he
  clear he hw
  repeat' first
      | ((with_reducible refine granted_in ?_ ?_ _ _ ?_); (· rfl); (· first | exact Foot.le_trans (F := Foot.access .mbox) (by decide +kernel) hF); skip)
      | ((with_reducible refine semRelease_in ?_ ..); (· exact Foot.le_trans (Foot.le_of_runs (by decide +kernel)) hF))
      | split
      | dsimp only

def Foot.execSemForce : Foot :=
  { regs := onFam .guard (errFields ++ fCnt ++ [.GUARD_ELOG_CTRL_LOST]) ++ onFam .mbox (errFields ++ fCnt ++ [.MBOX_SEM_PEEK_HELD,
      .MBOX_SEM_PEEK_OWNER]) ++ onFam .face fCnt, cnts := [.guard, .mbox, .face], vars := [.aerStamp, .arbLast, .elogSeq,
      .msixPend], fifos := [.elog, .faceWrote, .viWrote], parts := [.greqs, .out] }

theorem execSemForce_within (st : Stamp) (n : Fin 256) {σ τ : State} (hw : σ.wf) (he : execSemForce st n σ = .next τ) : Within Foot.execSemForce σ τ := by
  have hF := Foot.le_refl Foot.execSemForce
  refine answer_within ?_ hw he
  clear he hw
  repeat' first
      | ((with_reducible refine granted_in ?_ ?_ _ _ ?_); (· rfl); (· first | exact Foot.le_trans (F := Foot.access .mbox) (by decide +kernel) hF); skip)
      | ((with_reducible refine semForce_in ?_ ..); (· exact Foot.le_trans (Foot.le_of_runs (by decide +kernel)) hF))
      | split
      | dsimp only

end Sys2Proof.Machine
end

