-- ==== Sys2Proof/Laws/ExecMgmt.lean ====
section
/-! SUPPORT. What each command of Machine/Mgmt.lean may touch. -/

namespace Sys2Proof.Machine

set_option Elab.async false
set_option linter.unusedTactic false
set_option linter.unreachableTactic false

def Foot.execLockstepMismatch : Foot :=
  { regs := onFam .mgmt (errFields ++ fCnt ++ [.MGMT_FW_STAT_RESTARTS, .MGMT_FW_STAT_STATE]) ++ onFam .guard (errFields ++ fCnt ++
      [.GUARD_ELOG_CTRL_LOST]) ++ onFam .mbox (fCnt ++ [.MBOX_SEM_PEEK_HELD, .MBOX_SEM_PEEK_OWNER]) ++ onFam .face fCnt, cnts :=
      [.mgmt, .guard, .mbox, .face], vars := [.elogSeq, .fwEpoch, .fwSel, .fwUnconf, .msixPend], fifos := [.elog, .faceWrote,
      .fwTimes, .viWrote], parts := [.greqs, .out] }

theorem execLockstepMismatch_within (_pair : Fin 2) {σ τ : State} (hw : σ.wf) (he : execLockstepMismatch _pair σ = .next τ) : Within Foot.execLockstepMismatch σ τ := by
  have hF := Foot.le_refl Foot.execLockstepMismatch
  refine answer_within ?_ hw he
  clear he hw
  repeat' first
      | (with_reducible first | exact all_nil_in | refine all_cons_in ?_ ?_ | refine look_in fun _ => ?_ | refine when_in ?_)
      | ((with_reducible refine bump_in ?_ ?_ ..); (· rfl); (· first | exact Foot.le_trans (F := Foot.counting .mgmt) (by decide +kernel) hF))
      | ((with_reducible refine raise_in ?_ ?_ ..); (· rfl); (· first | exact Foot.le_trans (F := Foot.error .mgmt) (by decide +kernel) hF))
      | ((with_reducible refine fwRestart_in ?_ ..); (· exact Foot.le_trans (Foot.le_of_runs (by decide +kernel)) hF))
      | split
      | dsimp only

def Foot.execWatchdogExpiry : Foot :=
  { regs := onFam .mgmt (errFields ++ fCnt ++ [.MGMT_FW_STAT_RESTARTS, .MGMT_FW_STAT_STATE]) ++ onFam .guard (errFields ++ fCnt ++
      [.GUARD_ELOG_CTRL_LOST]) ++ onFam .mbox (fCnt ++ [.MBOX_SEM_PEEK_HELD, .MBOX_SEM_PEEK_OWNER]) ++ onFam .face fCnt, cnts :=
      [.mgmt, .guard, .mbox, .face], vars := [.elogSeq, .fwEpoch, .fwSel, .fwUnconf, .msixPend], fifos := [.elog, .faceWrote,
      .fwTimes, .viWrote], parts := [.greqs, .out] }

theorem execWatchdogExpiry_within  {σ τ : State} (hw : σ.wf) (he : execWatchdogExpiry σ = .next τ) : Within Foot.execWatchdogExpiry σ τ := by
  have hF := Foot.le_refl Foot.execWatchdogExpiry
  refine answer_within ?_ hw he
  clear he hw
  repeat' first
      | (with_reducible first | exact all_nil_in | refine all_cons_in ?_ ?_ | refine look_in fun _ => ?_ | refine when_in ?_)
      | ((with_reducible refine bump_in ?_ ?_ ..); (· rfl); (· first | exact Foot.le_trans (F := Foot.counting .mgmt) (by decide +kernel) hF))
      | ((with_reducible refine raise_in ?_ ?_ ..); (· rfl); (· first | exact Foot.le_trans (F := Foot.error .mgmt) (by decide +kernel) hF))
      | ((with_reducible refine fwRestart_in ?_ ..); (· exact Foot.le_trans (Foot.le_of_runs (by decide +kernel)) hF))
      | split
      | dsimp only

def Foot.execWatchdogKick : Foot :=
  { regs := onFam .mgmt (errFields ++ [.MGMT_WD_KEY, .MGMT_WD_KICK, .MGMT_WD_TIMEOUT_MS]) ++ onFam .guard (errFields ++ fCnt ++
      [.GUARD_ELOG_CTRL_LOST]) ++ onFam .face fCnt, cnts := [.guard, .face], vars := [.aerStamp, .arbLast, .elogSeq, .msixPend,
      .wdAt], fifos := [.elog, .faceWrote, .viWrote], parts := [.greqs, .out] }

theorem execWatchdogKick_within (st : Stamp) (v : Word) {σ τ : State} (hw : σ.wf) (he : execWatchdogKick st v σ = .next τ) : Within Foot.execWatchdogKick σ τ := by
  have hF := Foot.le_refl Foot.execWatchdogKick
  refine answer_within ?_ hw he
  clear he hw
  repeat' first
      | ((with_reducible refine granted_in ?_ ?_ _ _ ?_); (· rfl); (· first | exact Foot.le_trans (F := Foot.access .mgmt) (by decide +kernel) hF); skip)
      | ((with_reducible refine wdWrite_in ?_ ..); (· exact Foot.le_trans (Foot.le_of_runs (by decide +kernel)) hF))
      | split
      | dsimp only

def Foot.execImgCtrlStart : Foot :=
  { regs := onFam .mgmt (errFields ++ [.MGMT_IMG_CTRL_ABORT, .MGMT_IMG_CTRL_BUSY, .MGMT_IMG_CTRL_FINISH, .MGMT_IMG_CTRL_INSTALLER,
      .MGMT_IMG_CTRL_KIND, .MGMT_IMG_CTRL_START, .MGMT_IMG_CTRL_STATUS]) ++ onFam .guard (errFields ++ fCnt ++
      [.GUARD_ELOG_CTRL_LOST]) ++ onFam .face fCnt, cnts := [.guard, .face], vars := [.aerStamp, .arbLast, .dirSeq, .dirSlot,
      .elogSeq, .imgBytes, .imgKind, .imgLen, .imgSt, .msixPend, .slotState, .slotTries], fifos := [.elog, .faceWrote, .viWrote],
      parts := [.greqs, .out] }

theorem execImgCtrlStart_within (st : Stamp) (v : Word) {σ τ : State} (hw : σ.wf) (he : execImgCtrlStart st v σ = .next τ) : Within Foot.execImgCtrlStart σ τ := by
  have hF := Foot.le_refl Foot.execImgCtrlStart
  refine answer_within ?_ hw he
  clear he hw
  repeat' first
      | ((with_reducible refine granted_in ?_ ?_ _ _ ?_); (· rfl); (· first | exact Foot.le_trans (F := Foot.access .mgmt) (by decide +kernel) hF); skip)
      | ((with_reducible refine imgCtrlWrite_in ?_ ..); (· exact Foot.le_trans (Foot.le_of_runs (by decide +kernel)) hF))
      | split
      | dsimp only

def Foot.execImgCtrlChunk : Foot :=
  { regs := onFam .mgmt (errFields ++ [.MGMT_IMG_CHUNK_GO, .MGMT_IMG_CHUNK_LEN_M1, .MGMT_IMG_CTRL_BUSY, .MGMT_IMG_CTRL_STATUS]) ++
      onFam .guard (errFields ++ fCnt ++ [.GUARD_ELOG_CTRL_LOST]) ++ onFam .face fCnt, cnts := [.guard, .face], vars :=
      [.aerStamp, .arbLast, .elogSeq, .imgBytes, .imgLen, .imgSt, .msixPend], fifos := [.elog, .faceWrote, .viWrote], parts :=
      [.greqs, .out] }

theorem execImgCtrlChunk_within (st : Stamp) (v : Word) {σ τ : State} (hw : σ.wf) (he : execImgCtrlChunk st v σ = .next τ) : Within Foot.execImgCtrlChunk σ τ := by
  have hF := Foot.le_refl Foot.execImgCtrlChunk
  refine answer_within ?_ hw he
  clear he hw
  repeat' first
      | ((with_reducible refine granted_in ?_ ?_ _ _ ?_); (· rfl); (· first | exact Foot.le_trans (F := Foot.access .mgmt) (by decide +kernel) hF); skip)
      | ((with_reducible refine imgChunkWrite_in ?_ ..); (· exact Foot.le_trans (Foot.le_of_runs (by decide +kernel)) hF))
      | split
      | dsimp only

def Foot.execImgCtrlFinish : Foot :=
  { regs := onFam .mgmt (errFields ++ [.MGMT_IMG_CTRL_ABORT, .MGMT_IMG_CTRL_BUSY, .MGMT_IMG_CTRL_FINISH, .MGMT_IMG_CTRL_INSTALLER,
      .MGMT_IMG_CTRL_KIND, .MGMT_IMG_CTRL_START, .MGMT_IMG_CTRL_STATUS]) ++ onFam .guard (errFields ++ fCnt ++
      [.GUARD_ELOG_CTRL_LOST]) ++ onFam .face fCnt, cnts := [.guard, .face], vars := [.aerStamp, .arbLast, .dirSeq, .dirSlot,
      .elogSeq, .imgBytes, .imgKind, .imgLen, .imgSt, .msixPend, .slotState, .slotTries], fifos := [.elog, .faceWrote, .viWrote],
      parts := [.greqs, .out] }

theorem execImgCtrlFinish_within (st : Stamp) (v : Word) {σ τ : State} (hw : σ.wf) (he : execImgCtrlFinish st v σ = .next τ) : Within Foot.execImgCtrlFinish σ τ := by
  have hF := Foot.le_refl Foot.execImgCtrlFinish
  refine answer_within ?_ hw he
  clear he hw
  repeat' first
      | ((with_reducible refine granted_in ?_ ?_ _ _ ?_); (· rfl); (· first | exact Foot.le_trans (F := Foot.access .mgmt) (by decide +kernel) hF); skip)
      | ((with_reducible refine imgCtrlWrite_in ?_ ..); (· exact Foot.le_trans (Foot.le_of_runs (by decide +kernel)) hF))
      | split
      | dsimp only

def Foot.execImgCtrlAbort : Foot :=
  { regs := onFam .mgmt (errFields ++ [.MGMT_IMG_CTRL_ABORT, .MGMT_IMG_CTRL_BUSY, .MGMT_IMG_CTRL_FINISH, .MGMT_IMG_CTRL_INSTALLER,
      .MGMT_IMG_CTRL_KIND, .MGMT_IMG_CTRL_START, .MGMT_IMG_CTRL_STATUS]) ++ onFam .guard (errFields ++ fCnt ++
      [.GUARD_ELOG_CTRL_LOST]) ++ onFam .face fCnt, cnts := [.guard, .face], vars := [.aerStamp, .arbLast, .dirSeq, .dirSlot,
      .elogSeq, .imgBytes, .imgKind, .imgLen, .imgSt, .msixPend, .slotState, .slotTries], fifos := [.elog, .faceWrote, .viWrote],
      parts := [.greqs, .out] }

theorem execImgCtrlAbort_within (st : Stamp) (v : Word) {σ τ : State} (hw : σ.wf) (he : execImgCtrlAbort st v σ = .next τ) : Within Foot.execImgCtrlAbort σ τ := by
  have hF := Foot.le_refl Foot.execImgCtrlAbort
  refine answer_within ?_ hw he
  clear he hw
  repeat' first
      | ((with_reducible refine granted_in ?_ ?_ _ _ ?_); (· rfl); (· first | exact Foot.le_trans (F := Foot.access .mgmt) (by decide +kernel) hF); skip)
      | ((with_reducible refine imgCtrlWrite_in ?_ ..); (· exact Foot.le_trans (Foot.le_of_runs (by decide +kernel)) hF))
      | split
      | dsimp only

def Foot.execImgEraseDone : Foot :=
  { regs := onFam .mgmt [.MGMT_IMG_CTRL_BUSY, .MGMT_IMG_CTRL_STATUS], vars := [.imgSt] }

theorem execImgEraseDone_within  {σ τ : State} (hw : σ.wf) (he : execImgEraseDone σ = .next τ) : Within Foot.execImgEraseDone σ τ := by
  have hF := Foot.le_refl Foot.execImgEraseDone
  refine answer_within ?_ hw he
  clear he hw
  repeat' first
      | (with_reducible first | exact all_nil_in | refine all_cons_in ?_ ?_ | refine look_in fun _ => ?_ | refine when_in ?_)
      | ((with_reducible refine put_in ?_); (· exact le_vars hF (by decide +kernel)))
      | ((with_reducible refine wr_in ?_ ?_); (· first | exact own_mem (show _ ∈ tabMGMT0 by decide +kernel)); (· first | exact le_regs hF (show (Fam.mgmt, _) ∈ _ by decide +kernel)))
      | ((with_reducible refine imgStatus_in ?_ ..); (· exact Foot.le_trans (Foot.le_of_runs (by decide +kernel)) hF))
      | split
      | dsimp only

def Foot.execImgChunkDone : Foot :=
  { regs := onFam .mgmt [.MGMT_IMG_CTRL_BUSY, .MGMT_IMG_CTRL_STATUS], vars := [.imgBytes, .imgLen, .imgSt] }

theorem execImgChunkDone_within  {σ τ : State} (hw : σ.wf) (he : execImgChunkDone σ = .next τ) : Within Foot.execImgChunkDone σ τ := by
  have hF := Foot.le_refl Foot.execImgChunkDone
  refine answer_within ?_ hw he
  clear he hw
  repeat' first
      | (with_reducible first | exact all_nil_in | refine all_cons_in ?_ ?_ | refine look_in fun _ => ?_ | refine when_in ?_)
      | ((with_reducible refine put_in ?_); (· exact le_vars hF (by decide +kernel)))
      | ((with_reducible refine wr_in ?_ ?_); (· first | exact own_mem (show _ ∈ tabMGMT0 by decide +kernel)); (· first | exact le_regs hF (show (Fam.mgmt, _) ∈ _ by decide +kernel)))
      | ((with_reducible refine imgStatus_in ?_ ..); (· exact Foot.le_trans (Foot.le_of_runs (by decide +kernel)) hF))
      | split
      | dsimp only

def Foot.execSetEndpointId : Foot :=
  { regs := onFam .mgmt fCnt ++ onFam .face fCnt, cnts := [.mgmt, .face], vars := [.mctpEid, .msixPend], fifos := [.faceWrote,
      .viWrote], parts := [.out] }

theorem execSetEndpointId_within (k : Fin 4) (eid : BitVec 8) {σ τ : State} (hw : σ.wf) (he : execSetEndpointId k eid σ = .next τ) : Within Foot.execSetEndpointId σ τ := by
  have hF := Foot.le_refl Foot.execSetEndpointId
  refine answer_within ?_ hw he
  clear he hw
  repeat' first
      | (with_reducible first | exact all_nil_in | refine all_cons_in ?_ ?_ | refine look_in fun _ => ?_ | refine when_in ?_)
      | ((with_reducible refine put_in ?_); (· exact le_vars hF (by decide +kernel)))
      | ((with_reducible refine emit_in ?_); (· exact le_parts hF (by decide +kernel)))
      | ((with_reducible refine mctpIn_in ?_ _ _ (?_)); (· exact Foot.le_trans (Foot.le_of_runs (by decide +kernel)) hF); skip)
      | split
      | dsimp only

def Foot.execGetEndpointId : Foot :=
  { regs := onFam .mgmt fCnt ++ onFam .face fCnt, cnts := [.mgmt, .face], vars := [.msixPend], fifos := [.faceWrote, .viWrote],
      parts := [.out] }

theorem execGetEndpointId_within (k : Fin 4) {σ τ : State} (hw : σ.wf) (he : execGetEndpointId k σ = .next τ) : Within Foot.execGetEndpointId σ τ := by
  have hF := Foot.le_refl Foot.execGetEndpointId
  refine answer_within ?_ hw he
  clear he hw
  repeat' first
      | (with_reducible first | refine look_in fun _ => ?_)
      | ((with_reducible refine emit_in ?_); (· exact le_parts hF (by decide +kernel)))
      | ((with_reducible refine mctpIn_in ?_ _ _ (?_)); (· exact Foot.le_trans (Foot.le_of_runs (by decide +kernel)) hF); skip)
      | split
      | dsimp only

def Foot.execGetMctpVersionSupport : Foot :=
  { regs := onFam .mgmt fCnt ++ onFam .face fCnt, cnts := [.mgmt, .face], vars := [.msixPend], fifos := [.faceWrote, .viWrote],
      parts := [.free, .out] }

theorem execGetMctpVersionSupport_within (k : Fin 4) (typ : BitVec 8) {σ τ : State} (hw : σ.wf) (he : execGetMctpVersionSupport k typ σ = .next τ) : Within Foot.execGetMctpVersionSupport σ τ := by
  have hF := Foot.le_refl Foot.execGetMctpVersionSupport
  refine answer_within ?_ hw he
  clear he hw
  repeat' first
      | ((with_reducible refine emit_in ?_); (· exact le_parts hF (by decide +kernel)))
      | ((with_reducible refine drawWord_in ?_ fun _ => ?_); (· exact le_parts hF (by decide +kernel)); skip)
      | ((with_reducible refine mctpIn_in ?_ _ _ (?_)); (· exact Foot.le_trans (Foot.le_of_runs (by decide +kernel)) hF); skip)
      | split
      | dsimp only

def Foot.execGetMessageTypeSupport : Foot :=
  { regs := onFam .mgmt fCnt ++ onFam .face fCnt, cnts := [.mgmt, .face], vars := [.msixPend], fifos := [.faceWrote, .viWrote],
      parts := [.out] }

theorem execGetMessageTypeSupport_within (k : Fin 4) {σ τ : State} (hw : σ.wf) (he : execGetMessageTypeSupport k σ = .next τ) : Within Foot.execGetMessageTypeSupport σ τ := by
  have hF := Foot.le_refl Foot.execGetMessageTypeSupport
  refine answer_within ?_ hw he
  clear he hw
  repeat' first
      | ((with_reducible refine emit_in ?_); (· exact le_parts hF (by decide +kernel)))
      | ((with_reducible refine mctpIn_in ?_ _ _ (?_)); (· exact Foot.le_trans (Foot.le_of_runs (by decide +kernel)) hF); skip)
      | split
      | dsimp only

def Foot.execMctpUnsupported : Foot :=
  { regs := onFam .mgmt fCnt ++ onFam .face fCnt, cnts := [.mgmt, .face], vars := [.msixPend], fifos := [.faceWrote, .viWrote],
      parts := [.out] }

theorem execMctpUnsupported_within (k : Fin 4) {σ τ : State} (hw : σ.wf) (he : execMctpUnsupported k σ = .next τ) : Within Foot.execMctpUnsupported σ τ := by
  have hF := Foot.le_refl Foot.execMctpUnsupported
  refine answer_within ?_ hw he
  clear he hw
  repeat' first
      | ((with_reducible refine bump_in ?_ ?_ ..); (· rfl); (· first | exact Foot.le_trans (F := Foot.counting .mgmt) (by decide +kernel) hF))
      | ((with_reducible refine mctpIn_in ?_ _ _ (?_)); (· exact Foot.le_trans (Foot.le_of_runs (by decide +kernel)) hF); skip)
      | split
      | dsimp only

def Foot.execMctpImgStart : Foot :=
  { regs := onFam .mgmt (fCnt ++ [.MGMT_IMG_CTRL_BUSY, .MGMT_IMG_CTRL_INSTALLER, .MGMT_IMG_CTRL_KIND, .MGMT_IMG_CTRL_STATUS]) ++
      onFam .face fCnt, cnts := [.mgmt, .face], vars := [.dirSeq, .dirSlot, .imgBytes, .imgKind, .imgSt, .msixPend, .slotState,
      .slotTries], fifos := [.faceWrote, .viWrote], parts := [.out] }

theorem execMctpImgStart_within (k : Fin 4) (cfg : Bool) {σ τ : State} (hw : σ.wf) (he : execMctpImgStart k cfg σ = .next τ) : Within Foot.execMctpImgStart σ τ := by
  have hF := Foot.le_refl Foot.execMctpImgStart
  refine answer_within ?_ hw he
  clear he hw
  repeat' first
      | (with_reducible first | exact all_nil_in | refine all_cons_in ?_ ?_ | refine look_in fun _ => ?_ | refine ite_in ?_ ?_)
      | ((with_reducible refine emit_in ?_); (· exact le_parts hF (by decide +kernel)))
      | ((with_reducible refine imgReply_in ?_ ..); (· exact Foot.le_trans (Foot.le_of_runs (by decide +kernel)) hF))
      | ((with_reducible refine imgStart_in ?_ ..); (· exact Foot.le_trans (Foot.le_of_runs (by decide +kernel)) hF))
      | ((with_reducible refine stoux_in ?_ _ _ _ (?_)); (· exact Foot.le_trans (Foot.le_of_runs (by decide +kernel)) hF); skip)
      | split
      | dsimp only

def Foot.execMctpImgChunk : Foot :=
  { regs := onFam .mgmt (errFields ++ fCnt ++ [.MGMT_IMG_CTRL_BUSY, .MGMT_IMG_CTRL_STATUS]) ++ onFam .guard (errFields ++ fCnt ++
      [.GUARD_ELOG_CTRL_LOST]) ++ onFam .face fCnt, cnts := [.mgmt, .guard, .face], vars := [.elogSeq, .imgBytes, .imgLen, .imgSt,
      .msixPend], fifos := [.elog, .faceWrote, .viWrote], parts := [.greqs, .out] }

theorem execMctpImgChunk_within (k : Fin 4) (off : BitVec 32) (len : Nat) {σ τ : State} (hw : σ.wf) (he : execMctpImgChunk k off len σ = .next τ) : Within Foot.execMctpImgChunk σ τ := by
  have hF := Foot.le_refl Foot.execMctpImgChunk
  refine answer_within ?_ hw he
  clear he hw
  repeat' first
      | (with_reducible first | exact all_nil_in | refine all_cons_in ?_ ?_ | refine look_in fun _ => ?_ | refine ite_in ?_ ?_)
      | ((with_reducible refine emit_in ?_); (· exact le_parts hF (by decide +kernel)))
      | ((with_reducible refine imgChunk_in ?_ ..); (· exact Foot.le_trans (Foot.le_of_runs (by decide +kernel)) hF))
      | ((with_reducible refine imgReply_in ?_ ..); (· exact Foot.le_trans (Foot.le_of_runs (by decide +kernel)) hF))
      | ((with_reducible refine stoux_in ?_ _ _ _ (?_)); (· exact Foot.le_trans (Foot.le_of_runs (by decide +kernel)) hF); skip)
      | split
      | dsimp only

def Foot.execMctpImgFinish : Foot :=
  { regs := onFam .mgmt (fCnt ++ [.MGMT_IMG_CTRL_BUSY, .MGMT_IMG_CTRL_STATUS]) ++ onFam .face fCnt, cnts := [.mgmt, .face], vars :=
      [.imgSt, .msixPend], fifos := [.faceWrote, .viWrote], parts := [.out] }

theorem execMctpImgFinish_within (k : Fin 4) {σ τ : State} (hw : σ.wf) (he : execMctpImgFinish k σ = .next τ) : Within Foot.execMctpImgFinish σ τ := by
  have hF := Foot.le_refl Foot.execMctpImgFinish
  refine answer_within ?_ hw he
  clear he hw
  repeat' first
      | (with_reducible first | exact all_nil_in | refine all_cons_in ?_ ?_ | refine look_in fun _ => ?_ | refine ite_in ?_ ?_)
      | ((with_reducible refine imgFinish_in ?_ ..); (· exact Foot.le_trans (Foot.le_of_runs (by decide +kernel)) hF))
      | ((with_reducible refine imgReply_in ?_ ..); (· exact Foot.le_trans (Foot.le_of_runs (by decide +kernel)) hF))
      | ((with_reducible refine stoux_in ?_ _ _ _ (?_)); (· exact Foot.le_trans (Foot.le_of_runs (by decide +kernel)) hF); skip)
      | split
      | dsimp only

def Foot.execTelemetry : Foot :=
  { regs := onFam .mgmt fCnt ++ onFam .face fCnt, cnts := [.mgmt, .face], vars := [.msixPend], fifos := [.faceWrote, .viWrote],
      parts := [.out] }

theorem execTelemetry_within (k : Fin 4) {σ τ : State} (hw : σ.wf) (he : execTelemetry k σ = .next τ) : Within Foot.execTelemetry σ τ := by
  have hF := Foot.le_refl Foot.execTelemetry
  refine answer_within ?_ hw he
  clear he hw
  repeat' first
      | (with_reducible first | refine look_in fun _ => ?_)
      | ((with_reducible refine emit_in ?_); (· exact le_parts hF (by decide +kernel)))
      | ((with_reducible refine stoux_in ?_ _ _ _ (?_)); (· exact Foot.le_trans (Foot.le_of_runs (by decide +kernel)) hF); skip)
      | split
      | dsimp only

def Foot.execGatherSnapshotDone : Foot :=
  { regs := onFam .mgmt (errFields ++ fCnt ++ [.MGMT_GATHER_STAT_BUSY, .MGMT_GATHER_STAT_LAST_SKEW, .MGMT_GATHER_STAT_SEQ]) ++ onFam
      .guard (errFields ++ fCnt ++ [.GUARD_ELOG_CTRL_LOST]) ++ onFam .core (fCnt ++ [.CORE_WM_STAT_WM_CROSS_CNT,
      .CORE_WM_STAT_WM_EVENT, .CORE_WM_STAT_WM_LEVEL]) ++ onFam .route (errFields ++ fCnt) ++ onFam .bridge (errFields ++ fCnt ++
      [.BRIDGE_LOCK_STAT_HOLDER, .BRIDGE_LOCK_STAT_LOCKED, .BRIDGE_PROOF_WM_STAT_WM_CROSS_CNT, .BRIDGE_PROOF_WM_STAT_WM_EVENT,
      .BRIDGE_PROOF_WM_STAT_WM_LEVEL]) ++ onFam .face (errFields ++ fCnt) ++ onFam .schedg fCnt, cnts := [.mgmt, .guard, .core,
      .route, .bridge, .face, .schedg], vars := [.cbsAt, .cbsCr, .elogSeq, .gatherSkips, .lockDest, .msixPend, .pcieSent, .pktId,
      .polAt, .polC, .polP, .redAvg, .stipCnt, .stipSeq, .tagEp], fifos := [.elog, .faceWrote, .gatherSnap, .missLog, .viWrote],
      parts := [.buf, .free, .greqs, .out, .prefs, .slots, .streams, .waiting] }

theorem execGatherSnapshotDone_within (skew : Nat) {σ τ : State} (hw : σ.wf) (he : execGatherSnapshotDone skew σ = .next τ) : Within Foot.execGatherSnapshotDone σ τ := by
  have hF := Foot.le_refl Foot.execGatherSnapshotDone
  refine answer_within ?_ hw he
  clear he hw
  repeat' first
      | (with_reducible first | exact all_nil_in | refine all_cons_in ?_ ?_ | refine look_in fun _ => ?_ | refine when_in ?_ | refine ite_in ?_ ?_)
      | ((with_reducible refine modIv_in ?_); (· exact le_vars hF (by decide +kernel)))
      | ((with_reducible refine clearFifo_in ?_); (· exact le_fifos hF (by decide +kernel)))
      | ((with_reducible refine wr_in ?_ ?_); (· first | exact hdr_mem rfl (by decide +kernel) | exact own_mem (show _ ∈ tabGUARD0 by decide +kernel) | exact own_mem (show _ ∈ tabMGMT1 by decide +kernel)); (· first | exact le_regs hF (show (Fam.face, _) ∈ _ by decide +kernel) | exact le_regs hF (show (Fam.guard, _) ∈ _ by decide +kernel) | exact le_regs hF (show (Fam.mgmt, _) ∈ _ by decide +kernel)))
      | ((with_reducible refine bump_in ?_ ?_ ..); (· rfl); (· first | exact Foot.le_trans (F := Foot.counting .mgmt) (by decide +kernel) hF))
      | ((with_reducible refine raise_in ?_ ?_ ..); (· rfl); (· first | exact Foot.le_trans (F := Foot.error .mgmt) (by decide +kernel) hF))
      | ((with_reducible refine hostWrite_in ?_ ..); (· exact Foot.le_trans (Foot.le_of_runs (by decide +kernel)) hF))
      | split
      | dsimp only

def Foot.execVmonSample : Foot :=
  { regs := onFam .mgmt (errFields ++ [.MGMT_VMON_MV, .MGMT_VMON_OOR]) ++ onFam .guard (errFields ++ fCnt ++
      [.GUARD_ELOG_CTRL_LOST]) ++ onFam .face fCnt, cnts := [.guard, .face], vars := [.elogSeq, .msixPend], fifos := [.elog,
      .faceWrote, .viWrote], parts := [.greqs, .out] }

theorem execVmonSample_within (mv : List (BitVec 16)) {σ τ : State} (hw : σ.wf) (he : execVmonSample mv σ = .next τ) : Within Foot.execVmonSample σ τ := by
  have hF := Foot.le_refl Foot.execVmonSample
  refine answer_within ?_ hw he
  clear he hw
  repeat' first
      | (with_reducible first | exact all_nil_in | refine all_cons_in ?_ ?_ | refine when_in ?_ | refine forEach_in fun _ => ?_)
      | ((with_reducible refine wr_in ?_ ?_); (· first | exact hdr_mem rfl (by decide +kernel) | exact own_mem (show _ ∈ tabGUARD0 by decide +kernel) | exact own_mem (show _ ∈ tabMGMT0 by decide +kernel)); (· first | exact le_regs hF (show (Fam.face, _) ∈ _ by decide +kernel) | exact le_regs hF (show (Fam.guard, _) ∈ _ by decide +kernel) | exact le_regs hF (show (Fam.mgmt, _) ∈ _ by decide +kernel)))
      | ((with_reducible refine raise_in ?_ ?_ ..); (· rfl); (· first | exact Foot.le_trans (F := Foot.error .mgmt) (by decide +kernel) hF))
      | split
      | dsimp only

end Sys2Proof.Machine
end

