-- ==== Sys2Proof/Laws/ExecMover.lean ====
section
/-! SUPPORT. What each command of Machine/Mover.lean may touch. -/

namespace Sys2Proof.Machine

set_option Elab.async false
set_option linter.unusedTactic false
set_option linter.unreachableTactic false

def Foot.execCoalesceExpiry : Foot :=
  { regs := onFam .face fCnt, cnts := [.face], vars := [.coalDue, .coalOn, .msixPend], fifos := [.faceWrote, .viWrote], parts :=
      [.out] }

theorem execCoalesceExpiry_within (n : RingId) {σ τ : State} (hw : σ.wf) (he : execCoalesceExpiry n σ = .next τ) : Within Foot.execCoalesceExpiry σ τ := by
  have hF := Foot.le_refl Foot.execCoalesceExpiry
  refine answer_within ?_ hw he
  clear he hw
  repeat' first
      | (with_reducible first | exact all_nil_in | refine all_cons_in ?_ ?_ | refine look_in fun _ => ?_ | refine when_in ?_)
      | ((with_reducible refine put_in ?_); (· exact le_vars hF (by decide +kernel)))
      | ((with_reducible refine ringFire_in ?_ ..); (· exact Foot.le_trans (Foot.le_of_runs (by decide +kernel)) hF))
      | split
      | dsimp only

def Foot.execDescriptorComplete : Foot :=
  { regs := onFam .sec (errFields ++ fCnt) ++ onFam .guard (errFields ++ fCnt ++ [.GUARD_ELOG_CTRL_LOST]) ++ onFam .core (errFields
      ++ fCnt ++ [.CORE_WM_STAT_WM_CROSS_CNT, .CORE_WM_STAT_WM_EVENT, .CORE_WM_STAT_WM_LEVEL]) ++ onFam .route (errFields ++ fCnt)
      ++ onFam .bridge (errFields ++ fCnt ++ [.BRIDGE_LOCK_STAT_HOLDER, .BRIDGE_LOCK_STAT_LOCKED,
      .BRIDGE_PROOF_WM_STAT_WM_CROSS_CNT, .BRIDGE_PROOF_WM_STAT_WM_EVENT, .BRIDGE_PROOF_WM_STAT_WM_LEVEL]) ++ onFam .face
      (errFields ++ fCnt) ++ onFam .schedg fCnt ++ onFam .moverg errFields ++ onFam .eng fCnt ++ onFam .ring
      [.MOVER_RING_CPL_TAIL_CPL_TAIL, .MOVER_RING_CPL_TAIL_PHASE, .MOVER_RING_HEAD_HEAD, .MOVER_RING_STAT_LAST_INDEX,
      .MOVER_RING_STAT_LAST_STATUS, .MOVER_RING_STAT_STATE], cnts := [.sec, .guard, .core, .route, .bridge, .face, .schedg, .eng],
      vars := [.cbsAt, .cbsCr, .coalDue, .coalOn, .elogSeq, .fetchAt, .fetchN, .fetchTag, .lockDest, .meDef, .mePlace, .meQuant,
      .msixPend, .pcieSent, .pktId, .polAt, .polC, .polP, .redAvg, .stipCnt, .stipSeq, .tagEp], fifos := [.cplFifo, .elog,
      .faceWrote, .missLog, .ringWrote, .viWrote], parts := [.buf, .descs, .free, .greqs, .out, .prefs, .slots, .streams,
      .waiting] }

theorem execDescriptorComplete_within (n : RingId) {σ τ : State} (hw : σ.wf) (he : execDescriptorComplete n σ = .next τ) : Within Foot.execDescriptorComplete σ τ := by
  have hF := Foot.le_refl Foot.execDescriptorComplete
  refine answer_within ?_ hw he
  clear he hw
  repeat' first
      | (with_reducible first | exact all_nil_in | refine all_cons_in ?_ ?_ | refine look_in fun _ => ?_ | refine when_in ?_ | refine ite_in ?_ ?_ | refine forSome_in fun _ => ?_)
      | ((with_reducible refine modDescs_in ?_); (· exact le_parts hF (by decide +kernel)))
      | ((with_reducible refine bump_in ?_ ?_ ..); (· rfl); (· first | exact Foot.le_trans (F := Foot.counting .eng) (by decide +kernel) hF))
      | ((with_reducible refine advanceHead_in ?_ ..); (· exact Foot.le_trans (Foot.le_of_runs (by decide +kernel)) hF))
      | ((with_reducible refine pump_in ?_ ..); (· exact Foot.le_trans (Foot.le_of_runs (by decide +kernel)) hF))
      | ((with_reducible refine putRecord_in ?_ ..); (· exact Foot.le_trans (Foot.le_of_runs (by decide +kernel)) hF))
      | split
      | dsimp only

def Foot.execDescriptorError : Foot :=
  { regs := onFam .sec (errFields ++ fCnt) ++ onFam .guard (errFields ++ fCnt ++ [.GUARD_ELOG_CTRL_LOST]) ++ onFam .core (errFields
      ++ fCnt ++ [.CORE_WM_STAT_WM_CROSS_CNT, .CORE_WM_STAT_WM_EVENT, .CORE_WM_STAT_WM_LEVEL]) ++ onFam .route (errFields ++ fCnt)
      ++ onFam .bridge (errFields ++ fCnt ++ [.BRIDGE_LOCK_STAT_HOLDER, .BRIDGE_LOCK_STAT_LOCKED,
      .BRIDGE_PROOF_WM_STAT_WM_CROSS_CNT, .BRIDGE_PROOF_WM_STAT_WM_EVENT, .BRIDGE_PROOF_WM_STAT_WM_LEVEL]) ++ onFam .face
      (errFields ++ fCnt) ++ onFam .schedg fCnt ++ onFam .moverg errFields ++ onFam .eng fCnt ++ onFam .ring
      [.MOVER_RING_CPL_TAIL_CPL_TAIL, .MOVER_RING_CPL_TAIL_PHASE, .MOVER_RING_HEAD_HEAD, .MOVER_RING_STAT_LAST_INDEX,
      .MOVER_RING_STAT_LAST_STATUS, .MOVER_RING_STAT_STATE], cnts := [.sec, .guard, .core, .route, .bridge, .face, .schedg, .eng],
      vars := [.cbsAt, .cbsCr, .coalDue, .coalOn, .elogSeq, .fetchAt, .fetchN, .fetchTag, .lockDest, .meDef, .mePlace, .meQuant,
      .msixPend, .pcieSent, .pktId, .polAt, .polC, .polP, .redAvg, .stipCnt, .stipSeq, .tagEp], fifos := [.cplFifo, .elog,
      .faceWrote, .missLog, .ringWrote, .viWrote], parts := [.buf, .descs, .free, .greqs, .out, .prefs, .slots, .streams,
      .waiting] }

theorem execDescriptorError_within (n : RingId) (cause : Fin 3) {σ τ : State} (hw : σ.wf) (he : execDescriptorError n cause σ = .next τ) : Within Foot.execDescriptorError σ τ := by
  have hF := Foot.le_refl Foot.execDescriptorError
  refine answer_within ?_ hw he
  clear he hw
  repeat' first
      | (with_reducible first | exact all_nil_in | refine all_cons_in ?_ ?_ | refine look_in fun _ => ?_ | refine when_in ?_ | refine forSome_in fun _ => ?_)
      | ((with_reducible refine descFails_in ?_ ..); (· exact Foot.le_trans (Foot.le_of_runs (by decide +kernel)) hF))
      | ((with_reducible refine pump_in ?_ ..); (· exact Foot.le_trans (Foot.le_of_runs (by decide +kernel)) hF))
      | split
      | dsimp only

def Foot.execDescriptorFetch : Foot :=
  { regs := onFam .sec (errFields ++ fCnt) ++ onFam .guard (errFields ++ fCnt ++ [.GUARD_ELOG_CTRL_LOST]) ++ onFam .core (errFields
      ++ fCnt ++ [.CORE_WM_STAT_WM_CROSS_CNT, .CORE_WM_STAT_WM_EVENT, .CORE_WM_STAT_WM_LEVEL]) ++ onFam .route (errFields ++ fCnt)
      ++ onFam .bridge (errFields ++ fCnt ++ [.BRIDGE_LOCK_STAT_HOLDER, .BRIDGE_LOCK_STAT_LOCKED,
      .BRIDGE_PROOF_WM_STAT_WM_CROSS_CNT, .BRIDGE_PROOF_WM_STAT_WM_EVENT, .BRIDGE_PROOF_WM_STAT_WM_LEVEL]) ++ onFam .face
      (errFields ++ fCnt) ++ onFam .schedg fCnt, cnts := [.sec, .guard, .core, .route, .bridge, .face, .schedg], vars := [.cbsAt,
      .cbsCr, .elogSeq, .fetchN, .fetchTag, .lockDest, .msixPend, .pcieSent, .pktId, .polAt, .polC, .polP, .redAvg, .stipCnt,
      .stipSeq, .tagEp], fifos := [.elog, .faceWrote, .missLog, .viWrote], parts := [.buf, .free, .greqs, .out, .prefs, .slots,
      .streams, .waiting] }

theorem execDescriptorFetch_within (n : RingId) {σ τ : State} (hw : σ.wf) (he : execDescriptorFetch n σ = .next τ) : Within Foot.execDescriptorFetch σ τ := by
  have hF := Foot.le_refl Foot.execDescriptorFetch
  refine answer_within ?_ hw he
  clear he hw
  repeat' first
      | (with_reducible first | exact all_nil_in | refine all_cons_in ?_ ?_ | refine look_in fun _ => ?_ | refine when_in ?_ | refine forSome_in fun _ => ?_)
      | ((with_reducible refine put_in ?_); (· exact le_vars hF (by decide +kernel)))
      | ((with_reducible refine ringSend_in ?_ ..); (· exact Foot.le_trans (Foot.le_of_runs (by decide +kernel)) hF))
      | ((with_reducible refine takeSlot_in ?_ ..); (· exact Foot.le_trans (Foot.le_of_runs (by decide +kernel)) hF))
      | split
      | dsimp only

def Foot.execDescriptorFetchComplete : Foot :=
  { regs := onFam .sec (errFields ++ fCnt) ++ onFam .guard (errFields ++ fCnt ++ [.GUARD_ELOG_CTRL_LOST]) ++ onFam .core (errFields
      ++ fCnt ++ [.CORE_WM_STAT_WM_CROSS_CNT, .CORE_WM_STAT_WM_EVENT, .CORE_WM_STAT_WM_LEVEL]) ++ onFam .route (errFields ++ fCnt)
      ++ onFam .bridge (errFields ++ fCnt ++ [.BRIDGE_LOCK_STAT_HOLDER, .BRIDGE_LOCK_STAT_LOCKED,
      .BRIDGE_PROOF_WM_STAT_WM_CROSS_CNT, .BRIDGE_PROOF_WM_STAT_WM_EVENT, .BRIDGE_PROOF_WM_STAT_WM_LEVEL]) ++ onFam .face
      (errFields ++ fCnt) ++ onFam .schedg fCnt ++ onFam .moverg errFields ++ onFam .eng fCnt ++ onFam .ring
      [.MOVER_RING_CPL_TAIL_CPL_TAIL, .MOVER_RING_CPL_TAIL_PHASE, .MOVER_RING_HEAD_HEAD, .MOVER_RING_STAT_LAST_INDEX,
      .MOVER_RING_STAT_LAST_STATUS, .MOVER_RING_STAT_STATE], cnts := [.sec, .guard, .core, .route, .bridge, .face, .schedg, .eng],
      vars := [.cbsAt, .cbsCr, .coalDue, .coalOn, .elogSeq, .fetchAt, .fetchN, .fetchTag, .lockDest, .meDef, .mePlace, .meQuant,
      .msixPend, .pcieSent, .pktId, .polAt, .polC, .polP, .redAvg, .stipCnt, .stipSeq, .tagEp], fifos := [.cplFifo, .elog,
      .faceWrote, .missLog, .ringWrote, .viWrote], parts := [.buf, .descs, .free, .greqs, .out, .prefs, .slots, .streams,
      .waiting] }

theorem execDescriptorFetchComplete_within (n : RingId) (descs : Option (List (BitVec 256))) {σ τ : State} (hw : σ.wf) (he : execDescriptorFetchComplete n descs σ = .next τ) : Within Foot.execDescriptorFetchComplete σ τ := by
  have hF := Foot.le_refl Foot.execDescriptorFetchComplete
  refine answer_within ?_ hw he
  clear he hw
  repeat' first
      | (with_reducible first | exact all_nil_in | refine all_cons_in ?_ ?_ | refine look_in fun _ => ?_ | refine when_in ?_)
      | ((with_reducible refine put_in ?_); (· exact le_vars hF (by decide +kernel)))
      | ((with_reducible refine modDescs_in ?_); (· exact le_parts hF (by decide +kernel)))
      | ((with_reducible refine wr_in ?_ ?_); (· first | exact hdr_mem rfl (by decide +kernel) | exact own_mem (show _ ∈ tabGUARD0 by decide +kernel) | exact own_mem (show _ ∈ tabRING by decide +kernel)); (· first | exact le_regs hF (show (Fam.face, _) ∈ _ by decide +kernel) | exact le_regs hF (show (Fam.guard, _) ∈ _ by decide +kernel) | exact le_regs hF (show (Fam.moverg, _) ∈ _ by decide +kernel) | exact le_regs hF (show (Fam.ring, _) ∈ _ by decide +kernel)))
      | ((with_reducible refine raise_in ?_ ?_ ..); (· rfl); (· first | exact Foot.le_trans (F := Foot.error .moverg) (by decide +kernel) hF))
      | ((with_reducible refine pump_in ?_ ..); (· exact Foot.le_trans (Foot.le_of_runs (by decide +kernel)) hF))
      | ((with_reducible refine rxSettle_in ?_ ..); (· exact Foot.le_trans (Foot.le_of_runs (by decide +kernel)) hF))
      | split
      | dsimp only

def Foot.execRingTailWrite : Foot :=
  { regs := onFam .guard (errFields ++ fCnt ++ [.GUARD_ELOG_CTRL_LOST]) ++ onFam .face fCnt ++ onFam .ring (errFields ++
      [.BLK_STAT_FAULT, .BLK_STAT_QUIESCED, .BLK_STAT_READY, .MOVER_RING_TAIL_TAIL]), cnts := [.guard, .face], vars := [.aerStamp,
      .arbLast, .elogSeq, .msixPend], fifos := [.elog, .faceWrote, .viWrote], parts := [.greqs, .out] }

theorem execRingTailWrite_within (st : Stamp) (n : RingId) (v : Word) {σ τ : State} (hw : σ.wf) (he : execRingTailWrite st n v σ = .next τ) : Within Foot.execRingTailWrite σ τ := by
  have hF := Foot.le_refl Foot.execRingTailWrite
  refine answer_within ?_ hw he
  clear he hw
  repeat' first
      | ((with_reducible refine granted_in' ?_ ?_ _ _ ?_); (· rfl); (· exact le_vars hF (by decide +kernel)); skip)
      | ((with_reducible refine ringTailWrite_in ?_ ..); (· exact Foot.le_trans (Foot.le_of_runs (by decide +kernel)) hF))
      | split
      | dsimp only

def Foot.execRingResume : Foot :=
  { regs := onFam .guard (errFields ++ fCnt ++ [.GUARD_ELOG_CTRL_LOST]) ++ onFam .face fCnt ++ onFam .ring (errFields ++
      [.MOVER_RING_STAT_STATE]), cnts := [.guard, .face], vars := [.aerStamp, .arbLast, .elogSeq, .fetchAt, .fetchN, .fetchTag,
      .msixPend], fifos := [.elog, .faceWrote, .viWrote], parts := [.descs, .greqs, .out, .slots] }

theorem execRingResume_within (st : Stamp) (n : RingId) {σ τ : State} (hw : σ.wf) (he : execRingResume st n σ = .next τ) : Within Foot.execRingResume σ τ := by
  have hF := Foot.le_refl Foot.execRingResume
  refine answer_within ?_ hw he
  clear he hw
  repeat' first
      | ((with_reducible refine granted_in' ?_ ?_ _ _ ?_); (· rfl); (· exact le_vars hF (by decide +kernel)); skip)
      | ((with_reducible refine ringResume_in ?_ ..); (· exact Foot.le_trans (Foot.le_of_runs (by decide +kernel)) hF))
      | split
      | dsimp only

def Foot.execRingCfgWrite : Foot :=
  { regs := onFam .sec (errFields ++ fCnt) ++ onFam .guard (errFields ++ fCnt ++ [.GUARD_ELOG_CTRL_LOST]) ++ onFam .core (errFields
      ++ fCnt ++ [.CORE_WM_STAT_WM_CROSS_CNT, .CORE_WM_STAT_WM_EVENT, .CORE_WM_STAT_WM_LEVEL]) ++ onFam .route (errFields ++ fCnt)
      ++ onFam .bridge (errFields ++ fCnt ++ [.BRIDGE_LOCK_STAT_HOLDER, .BRIDGE_LOCK_STAT_LOCKED,
      .BRIDGE_PROOF_WM_STAT_WM_CROSS_CNT, .BRIDGE_PROOF_WM_STAT_WM_EVENT, .BRIDGE_PROOF_WM_STAT_WM_LEVEL]) ++ onFam .face
      (errFields ++ fCnt) ++ onFam .schedg fCnt ++ onFam .inst [.INST_STAT_FENCED, .INST_STAT_TDI] ++ onFam .moverg errFields ++
      onFam .eng fCnt ++ onFam .ring (errFields ++ [.BLK_ID_CODE, .BLK_ID_INSTANCE, .MOVER_RING_CFG_ENABLE,
      .MOVER_RING_CFG_ENGINE, .MOVER_RING_CFG_KIND, .MOVER_RING_CFG_OWNER, .MOVER_RING_CFG_OWN_KIND, .MOVER_RING_CFG_SIZE_LOG2,
      .MOVER_RING_CFG_STOP_ON_ERR, .MOVER_RING_CPL_HEAD_CPL_HEAD, .MOVER_RING_CPL_TAIL_CPL_TAIL, .MOVER_RING_CPL_TAIL_PHASE,
      .MOVER_RING_HEAD_HEAD, .MOVER_RING_STAT_LAST_INDEX, .MOVER_RING_STAT_LAST_STATUS, .MOVER_RING_STAT_STATE,
      .MOVER_RING_TAIL_TAIL]), cnts := [.sec, .guard, .core, .route, .bridge, .face, .schedg, .eng], vars := [.aerStamp, .arbLast,
      .cbsAt, .cbsCr, .coalDue, .coalOn, .elogSeq, .fetchAt, .fetchN, .fetchTag, .lockDest, .msixPend, .pcieSent, .pktId, .polAt,
      .polC, .polP, .redAvg, .rehome, .stipCnt, .stipSeq, .tagEp], fifos := [.cplFifo, .elog, .faceWrote, .missLog, .ringWrote,
      .viWrote], parts := [.buf, .descs, .free, .greqs, .out, .prefs, .slots, .streams, .waiting] }

theorem execRingCfgWrite_within (st : Stamp) (n : RingId) (tenant : Bool) (v : Word) {σ τ : State} (hw : σ.wf) (he : execRingCfgWrite st n tenant v σ = .next τ) : Within Foot.execRingCfgWrite σ τ := by
  have hF := Foot.le_refl Foot.execRingCfgWrite
  refine answer_within ?_ hw he
  clear he hw
  repeat' first
      | ((with_reducible refine granted_in' ?_ ?_ _ _ ?_); (· rfl); (· exact le_vars hF (by decide +kernel)); skip)
      | ((with_reducible refine ringCfgWrite_in ?_ ..); (· exact Foot.le_trans (Foot.le_of_runs (by decide +kernel)) hF))
      | split
      | dsimp only

def Foot.execRingRehome : Foot :=
  { regs := onFam .sec (errFields ++ fCnt) ++ onFam .guard (errFields ++ fCnt ++ [.GUARD_ELOG_CTRL_LOST]) ++ onFam .core (errFields
      ++ fCnt ++ [.CORE_WM_STAT_WM_CROSS_CNT, .CORE_WM_STAT_WM_EVENT, .CORE_WM_STAT_WM_LEVEL]) ++ onFam .route (errFields ++ fCnt)
      ++ onFam .bridge (errFields ++ fCnt ++ [.BRIDGE_LOCK_STAT_HOLDER, .BRIDGE_LOCK_STAT_LOCKED,
      .BRIDGE_PROOF_WM_STAT_WM_CROSS_CNT, .BRIDGE_PROOF_WM_STAT_WM_EVENT, .BRIDGE_PROOF_WM_STAT_WM_LEVEL]) ++ onFam .face
      (errFields ++ fCnt) ++ onFam .schedg fCnt ++ onFam .inst [.INST_STAT_FENCED, .INST_STAT_TDI] ++ onFam .moverg errFields ++
      onFam .eng fCnt ++ onFam .ring (errFields ++ [.BLK_ID_CODE, .BLK_ID_INSTANCE, .MOVER_RING_CFG_ENABLE,
      .MOVER_RING_CFG_ENGINE, .MOVER_RING_CFG_KIND, .MOVER_RING_CFG_OWNER, .MOVER_RING_CFG_OWN_KIND, .MOVER_RING_CFG_SIZE_LOG2,
      .MOVER_RING_CFG_STOP_ON_ERR, .MOVER_RING_CPL_HEAD_CPL_HEAD, .MOVER_RING_CPL_TAIL_CPL_TAIL, .MOVER_RING_CPL_TAIL_PHASE,
      .MOVER_RING_HEAD_HEAD, .MOVER_RING_STAT_LAST_INDEX, .MOVER_RING_STAT_LAST_STATUS, .MOVER_RING_STAT_STATE,
      .MOVER_RING_TAIL_TAIL]), cnts := [.sec, .guard, .core, .route, .bridge, .face, .schedg, .eng], vars := [.aerStamp, .arbLast,
      .cbsAt, .cbsCr, .coalDue, .coalOn, .elogSeq, .fetchAt, .fetchN, .fetchTag, .lockDest, .msixPend, .pcieSent, .pktId, .polAt,
      .polC, .polP, .redAvg, .rehome, .stipCnt, .stipSeq, .tagEp], fifos := [.cplFifo, .elog, .faceWrote, .missLog, .ringWrote,
      .viWrote], parts := [.buf, .descs, .free, .greqs, .out, .prefs, .slots, .streams, .waiting] }

theorem execRingRehome_within (st : Stamp) (n : RingId) (v : Word) {σ τ : State} (hw : σ.wf) (he : execRingRehome st n v σ = .next τ) : Within Foot.execRingRehome σ τ := by
  have hF := Foot.le_refl Foot.execRingRehome
  refine answer_within ?_ hw he
  clear he hw
  repeat' first
      | ((with_reducible refine granted_in' ?_ ?_ _ _ ?_); (· rfl); (· exact le_vars hF (by decide +kernel)); skip)
      | ((with_reducible refine ringCfgWrite_in ?_ ..); (· exact Foot.le_trans (Foot.le_of_runs (by decide +kernel)) hF))
      | split
      | dsimp only

def Foot.execRehomeDone : Foot :=
  { regs := onFam .face fCnt ++ onFam .eng fCnt ++ onFam .ring [.MOVER_RING_STAT_STATE], cnts := [.face, .eng], vars := [.fetchAt,
      .fetchN, .fetchTag, .msixPend, .rehome], fifos := [.faceWrote, .viWrote], parts := [.descs, .out, .slots] }

theorem execRehomeDone_within (n : RingId) {σ τ : State} (hw : σ.wf) (he : execRehomeDone n σ = .next τ) : Within Foot.execRehomeDone σ τ := by
  have hF := Foot.le_refl Foot.execRehomeDone
  refine answer_within ?_ hw he
  clear he hw
  repeat' first
      | (with_reducible first | exact all_nil_in | refine all_cons_in ?_ ?_ | refine look_in fun _ => ?_ | refine when_in ?_)
      | ((with_reducible refine put_in ?_); (· exact le_vars hF (by decide +kernel)))
      | ((with_reducible refine wr_in ?_ ?_); (· first | exact hdr_mem rfl (by decide +kernel) | exact own_mem (show _ ∈ tabRING by decide +kernel)); (· first | exact le_regs hF (show (Fam.eng, _) ∈ _ by decide +kernel) | exact le_regs hF (show (Fam.face, _) ∈ _ by decide +kernel) | exact le_regs hF (show (Fam.ring, _) ∈ _ by decide +kernel)))
      | ((with_reducible refine bump_in ?_ ?_ ..); (· rfl); (· first | exact Foot.le_trans (F := Foot.counting .eng) (by decide +kernel) hF))
      | ((with_reducible refine refetch_in ?_ ..); (· exact Foot.le_trans (Foot.le_of_runs (by decide +kernel)) hF))
      | split
      | dsimp only

def Foot.execRxPacketCommit : Foot :=
  { regs := onFam .sec (errFields ++ fCnt) ++ onFam .guard (errFields ++ fCnt ++ [.GUARD_ELOG_CTRL_LOST]) ++ onFam .core (errFields
      ++ fCnt ++ [.CORE_WM_STAT_WM_CROSS_CNT, .CORE_WM_STAT_WM_EVENT, .CORE_WM_STAT_WM_LEVEL]) ++ onFam .route (errFields ++ fCnt)
      ++ onFam .bridge (errFields ++ fCnt ++ [.BRIDGE_LOCK_STAT_HOLDER, .BRIDGE_LOCK_STAT_LOCKED,
      .BRIDGE_PROOF_WM_STAT_WM_CROSS_CNT, .BRIDGE_PROOF_WM_STAT_WM_EVENT, .BRIDGE_PROOF_WM_STAT_WM_LEVEL]) ++ onFam .face
      (errFields ++ fCnt) ++ onFam .schedg fCnt ++ onFam .moverg errFields ++ onFam .eng fCnt ++ onFam .ring
      [.MOVER_RING_CPL_TAIL_CPL_TAIL, .MOVER_RING_CPL_TAIL_PHASE, .MOVER_RING_HEAD_HEAD, .MOVER_RING_STAT_LAST_INDEX,
      .MOVER_RING_STAT_LAST_STATUS, .MOVER_RING_STAT_STATE], cnts := [.sec, .guard, .core, .route, .bridge, .face, .schedg, .eng],
      vars := [.cbsAt, .cbsCr, .coalDue, .coalOn, .elogSeq, .fetchAt, .fetchN, .fetchTag, .lockDest, .meDef, .mePlace, .meQuant,
      .msixPend, .pcieSent, .pktId, .polAt, .polC, .polP, .redAvg, .stipCnt, .stipSeq, .tagEp], fifos := [.cplFifo, .elog,
      .faceWrote, .missLog, .ringWrote, .viWrote], parts := [.buf, .descs, .free, .greqs, .out, .prefs, .slots, .streams,
      .waiting] }

theorem execRxPacketCommit_within (n : RingId) {σ τ : State} (hw : σ.wf) (he : execRxPacketCommit n σ = .next τ) : Within Foot.execRxPacketCommit σ τ := by
  have hF := Foot.le_refl Foot.execRxPacketCommit
  refine answer_within ?_ hw he
  clear he hw
  repeat' first
      | (with_reducible first | exact all_nil_in | refine all_cons_in ?_ ?_ | refine look_in fun _ => ?_ | refine when_in ?_ | refine forSome_in fun _ => ?_)
      | ((with_reducible refine modIv_in ?_); (· exact le_vars hF (by decide +kernel)))
      | ((with_reducible refine modDescs_in ?_); (· exact le_parts hF (by decide +kernel)))
      | ((with_reducible refine addCnt_in ?_ ?_ ..); (· rfl); (· first | exact Foot.le_trans (F := Foot.counting .eng) (by decide +kernel) hF))
      | ((with_reducible refine bump_in ?_ ?_ ..); (· rfl); (· first | exact Foot.le_trans (F := Foot.counting .eng) (by decide +kernel) hF | exact Foot.le_trans (F := Foot.counting .bridge) (by decide +kernel) hF))
      | ((with_reducible refine advanceHead_in ?_ ..); (· exact Foot.le_trans (Foot.le_of_runs (by decide +kernel)) hF))
      | ((with_reducible refine consumeSelf_in ?_ ..); (· exact Foot.le_trans (Foot.le_of_runs (by decide +kernel)) hF))
      | ((with_reducible refine pump_in ?_ ..); (· exact Foot.le_trans (Foot.le_of_runs (by decide +kernel)) hF))
      | ((with_reducible refine putRecord_in ?_ ..); (· exact Foot.le_trans (Foot.le_of_runs (by decide +kernel)) hF))
      | ((with_reducible refine rxWrites_in ?_ ..); (· exact Foot.le_trans (Foot.le_of_runs (by decide +kernel)) hF))
      | split
      | dsimp only

def Foot.execEngineDisable : Foot :=
  { regs := onFam .guard (errFields ++ fCnt ++ [.GUARD_ELOG_CTRL_LOST]) ++ onFam .face fCnt ++ onFam .moverg errFields ++ onFam .eng
      (errFields ++ [.MOVER_ENG_CTRL_ENABLE, .MOVER_ENG_CTRL_FAILOVER]), cnts := [.guard, .face], vars := [.aerStamp, .arbLast,
      .elogSeq, .msixPend], fifos := [.elog, .faceWrote, .viWrote], parts := [.greqs, .out] }

theorem execEngineDisable_within (st : Stamp) (e : EngId) (v : Word) {σ τ : State} (hw : σ.wf) (he : execEngineDisable st e v σ = .next τ) : Within Foot.execEngineDisable σ τ := by
  have hF := Foot.le_refl Foot.execEngineDisable
  refine answer_within ?_ hw he
  clear he hw
  repeat' first
      | ((with_reducible refine granted_in ?_ ?_ _ _ ?_); (· rfl); (· first | exact Foot.le_trans (F := Foot.access .eng) (by decide +kernel) hF); skip)
      | ((with_reducible refine engCtrlWrite_in ?_ ..); (· exact Foot.le_trans (Foot.le_of_runs (by decide +kernel)) hF))
      | split
      | dsimp only

def Foot.execEngineFault : Foot :=
  { regs := onFam .sec (errFields ++ fCnt) ++ onFam .guard (errFields ++ fCnt ++ [.GUARD_ELOG_CTRL_LOST]) ++ onFam .core (errFields
      ++ fCnt ++ [.CORE_WM_STAT_WM_CROSS_CNT, .CORE_WM_STAT_WM_EVENT, .CORE_WM_STAT_WM_LEVEL]) ++ onFam .route (errFields ++ fCnt)
      ++ onFam .bridge (errFields ++ fCnt ++ [.BRIDGE_LOCK_STAT_HOLDER, .BRIDGE_LOCK_STAT_LOCKED,
      .BRIDGE_PROOF_WM_STAT_WM_CROSS_CNT, .BRIDGE_PROOF_WM_STAT_WM_EVENT, .BRIDGE_PROOF_WM_STAT_WM_LEVEL]) ++ onFam .face
      (errFields ++ fCnt) ++ onFam .schedg fCnt ++ onFam .moverg errFields ++ onFam .eng (errFields ++ fCnt ++
      [.MOVER_ENG_STAT_FAULTED]) ++ onFam .ring [.MOVER_RING_CFG_ENGINE, .MOVER_RING_CPL_TAIL_CPL_TAIL,
      .MOVER_RING_CPL_TAIL_PHASE, .MOVER_RING_HEAD_HEAD, .MOVER_RING_STAT_LAST_INDEX, .MOVER_RING_STAT_LAST_STATUS,
      .MOVER_RING_STAT_STATE], cnts := [.sec, .guard, .core, .route, .bridge, .face, .schedg, .eng], vars := [.cbsAt, .cbsCr,
      .coalDue, .coalOn, .elogSeq, .fetchAt, .fetchN, .fetchTag, .lockDest, .msixPend, .pcieSent, .pktId, .polAt, .polC, .polP,
      .redAvg, .rehome, .stipCnt, .stipSeq, .tagEp], fifos := [.cplFifo, .elog, .faceWrote, .missLog, .ringWrote, .viWrote], parts
      := [.buf, .descs, .free, .greqs, .out, .prefs, .slots, .streams, .waiting] }

theorem execEngineFault_within (e : EngId) {σ τ : State} (hw : σ.wf) (he : execEngineFault e σ = .next τ) : Within Foot.execEngineFault σ τ := by
  have hF := Foot.le_refl Foot.execEngineFault
  refine answer_within ?_ hw he
  clear he hw
  repeat' first
      | (with_reducible first | exact all_nil_in | refine all_cons_in ?_ ?_ | refine look_in fun _ => ?_ | refine when_in ?_ | refine forEach_in fun _ => ?_)
      | ((with_reducible refine put_in ?_); (· exact le_vars hF (by decide +kernel)))
      | ((with_reducible refine wr_in ?_ ?_); (· first | exact hdr_mem rfl (by decide +kernel) | exact own_mem (show _ ∈ tabENG by decide +kernel) | exact own_mem (show _ ∈ tabGUARD0 by decide +kernel) | exact own_mem (show _ ∈ tabRING by decide +kernel)); (· first | exact le_regs hF (show (Fam.eng, _) ∈ _ by decide +kernel) | exact le_regs hF (show (Fam.face, _) ∈ _ by decide +kernel) | exact le_regs hF (show (Fam.guard, _) ∈ _ by decide +kernel) | exact le_regs hF (show (Fam.ring, _) ∈ _ by decide +kernel)))
      | ((with_reducible refine raise_in ?_ ?_ ..); (· rfl); (· first | exact Foot.le_trans (F := Foot.error .eng) (by decide +kernel) hF))
      | ((with_reducible refine descFails_in ?_ ..); (· exact Foot.le_trans (Foot.le_of_runs (by decide +kernel)) hF))
      | ((with_reducible refine refetch_in ?_ ..); (· exact Foot.le_trans (Foot.le_of_runs (by decide +kernel)) hF))
      | split
      | dsimp only

end Sys2Proof.Machine
end

