-- ==== Sys2Proof/Laws/ExecPort.lean ====
section
/-! SUPPORT. What each command of Machine/Port.lean may touch. -/

namespace Sys2Proof.Machine

set_option Elab.async false
set_option linter.unusedTactic false
set_option linter.unreachableTactic false

def Foot.execPortCfgApply : Foot :=
  { regs := onFam .sec [.SEC_IDE_STAT_DEV_AUTH, .SEC_IDE_STAT_FAIL, .SEC_IDE_STAT_LINK_ID, .SEC_IDE_STAT_LINK_KSET,
      .SEC_IDE_STAT_LINK_SECURE, .SEC_IDE_STAT_SEL_SECURE, .SEC_IDE_STAT_SEL_VALID, .SEC_LINK_STAT_AUTH_OK,
      .SEC_LINK_STAT_AUTH_STATUS, .SEC_LINK_STAT_PARTNER_DEBUG, .SEC_LINK_STAT_REKEY, .SEC_LINK_STAT_REKEYS] ++ onFam .guard
      (errFields ++ fCnt ++ [.GUARD_ELOG_CTRL_LOST]) ++ onFam .lane (errFields ++ [.LANE_INJ_CTRL_ONE_SHOT, .LANE_OCT_STAT_A_LOCK,
      .LANE_OCT_STAT_B_LOCK, .LANE_RATE_CFG_MODE, .LANE_RATE_CFG_RATE_NOW, .LANE_REST_CTRL_IN_REST, .LANE_RX_STAT_CTLE,
      .LANE_RX_STAT_EYE_H, .LANE_RX_STAT_EYE_V, .LANE_RX_STAT_SNR, .LANE_STAT_ALIGN_LOCK, .LANE_STAT_CDR_LOCK, .LANE_STAT_EQ_DONE,
      .LANE_STAT_EQ_FAIL, .LANE_STAT_EXIT_FAIL, .LANE_STAT_FAILED, .LANE_STAT_FEC_LOCK, .LANE_STAT_LOGICAL, .LANE_STAT_RX_READY,
      .LANE_STAT_SIG_DET, .LANE_STAT_STATE, .LANE_TX_TAPS_C0, .LANE_TX_TAPS_POST, .LANE_TX_TAPS_PRE]) ++ onFam .core (errFields ++
      fCnt ++ [.CORE_WM_STAT_WM_CROSS_CNT, .CORE_WM_STAT_WM_EVENT, .CORE_WM_STAT_WM_LEVEL]) ++ onFam .bridge
      [.BRIDGE_FAB_NBR_MISWIRED, .BRIDGE_FAB_NBR_PARTNER_PORT, .BRIDGE_FAB_NBR_PARTNER_SW, .BRIDGE_FAB_NBR_VALID,
      .BRIDGE_LOCK_STAT_HOLDER, .BRIDGE_LOCK_STAT_LOCKED] ++ onFam .port (errFields ++ [.BLK_CTRL_SOFT_RESET, .CNT_CLR_CLR,
      .CNT_HI_HIGH, .CNT_LO_LOW, .PORT_CFG_APPLY, .PORT_CFG_CYC_RX, .PORT_CFG_CYC_TX, .PORT_CFG_ENC_REQ, .PORT_CFG_FLIT_BELOW,
      .PORT_CFG_MIN_WIDTH, .PORT_CFG_REFUSED, .PORT_CFG_ROLE, .PORT_CFG_SEP_REF, .PORT_CFG_WIDTH, .PORT_CONTAIN_CONTAIN,
      .PORT_CONTAIN_RELEASE, .PORT_LINK_CTRL_LINK_RETIRE, .PORT_LINK_CTRL_RETRAIN, .PORT_LINK_STAT_ABSENT, .PORT_LINK_STAT_ENC,
      .PORT_LINK_STAT_FLIT, .PORT_LINK_STAT_KEY_PHASE, .PORT_LINK_STAT_LANES_GOOD, .PORT_LINK_STAT_RATE_NOW,
      .PORT_LINK_STAT_STATE, .PORT_LINK_STAT_WIDTH_NOW, .PORT_REPLAY_CNT_CONSEC]) ++ onFam .face (fCnt ++ [.FACE_BIND_STATE,
      .FACE_PM_STAT_LINK_PM]), cnts := [.guard, .core, .face], vars := [.aerStamp, .alignMiss, .alignSeen, .arbLast, .authDebug,
      .authStep, .badCw, .crAdv, .crInit, .crUsed, .curSet, .elogSeq, .eqTimeouts, .ideGo, .ideKey, .injAlign, .laneNum, .lsSeen,
      .mkDue, .mkRx, .mkTx, .msixPend, .nakSent, .nextKey, .ownReq, .paramGot, .paramVal, .partnerAspm, .partnerMax,
      .partnerReady, .partnerRest, .pcieAcked, .pcieRev, .pcieSent, .peerReq, .postStat, .preStat, .presetStat, .rekeying,
      .replayAt, .restHeld, .restPend, .restSince, .rxKey, .rxNum, .rxRest, .rxSeq, .rxUnacked, .skewCnt, .txCount, .txKey,
      .txLimit, .txNum, .txSeq, .txUsed, .wcCount, .wcDone, .wcFrom, .wcId, .wcOldWidth, .wcSet, .widening], fifos := [.elog,
      .faceWrote, .viWrote], parts := [.buf, .coders, .greqs, .out, .replay, .streams, .waiting] }

theorem execPortCfgApply_within (st : Stamp) (p : PortId) (v : Word) {σ τ : State} (hw : σ.wf) (he : execPortCfgApply st p v σ = .next τ) : Within Foot.execPortCfgApply σ τ := by
  have hF := Foot.le_refl Foot.execPortCfgApply
  refine answer_within ?_ hw he
  clear he hw
  repeat' first
      | ((with_reducible refine granted_in ?_ ?_ _ _ ?_); (· rfl); (· first | exact Foot.le_trans (F := Foot.access .port) (by decide +kernel) hF); skip)
      | ((with_reducible refine portCfgWrite_in ?_ ..); (· exact Foot.le_trans (Foot.le_of_runs (by decide +kernel)) hF))
      | split
      | dsimp only

def Foot.execLanePrbsCtrlWrite : Foot :=
  { regs := onFam .guard (errFields ++ fCnt ++ [.GUARD_ELOG_CTRL_LOST]) ++ onFam .lane (errFields ++ [.LANE_OCT_STAT_A_LOCK,
      .LANE_OCT_STAT_B_LOCK, .LANE_PRBS_CTRL_CHK_EN, .LANE_PRBS_CTRL_CHK_LOCK, .LANE_PRBS_CTRL_CHK_MODE, .LANE_PRBS_CTRL_GEN_EN,
      .LANE_PRBS_CTRL_LOOPBACK, .LANE_PRBS_CTRL_PATTERN, .LANE_PRBS_CTRL_TEST_RATE, .LANE_RATE_CFG_RATE_NOW, .LANE_STAT_STATE]) ++
      onFam .face fCnt, cnts := [.guard, .lane, .face], vars := [.aerStamp, .arbLast, .elogSeq, .msixPend], fifos := [.elog,
      .faceWrote, .viWrote], parts := [.greqs, .out] }

theorem execLanePrbsCtrlWrite_within (st : Stamp) (l : LaneId) (v : Word) {σ τ : State} (hw : σ.wf) (he : execLanePrbsCtrlWrite st l v σ = .next τ) : Within Foot.execLanePrbsCtrlWrite σ τ := by
  have hF := Foot.le_refl Foot.execLanePrbsCtrlWrite
  refine answer_within ?_ hw he
  clear he hw
  repeat' first
      | ((with_reducible refine granted_in ?_ ?_ _ _ ?_); (· rfl); (· first | exact Foot.le_trans (F := Foot.access .lane) (by decide +kernel) hF); skip)
      | ((with_reducible refine prbsCtrlWrite_in ?_ ..); (· exact Foot.le_trans (Foot.le_of_runs (by decide +kernel)) hF))
      | split
      | dsimp only

def Foot.execLaneSlip : Foot :=
  { regs := onFam .guard (errFields ++ fCnt ++ [.GUARD_ELOG_CTRL_LOST]) ++ onFam .lane (errFields ++ [.LANE_SLIP_DONE]) ++ onFam
      .face fCnt, cnts := [.guard, .face], vars := [.aerStamp, .arbLast, .elogSeq, .msixPend, .slipPos], fifos := [.elog,
      .faceWrote, .viWrote], parts := [.greqs, .out] }

theorem execLaneSlip_within (st : Stamp) (l : LaneId) (v : Word) {σ τ : State} (hw : σ.wf) (he : execLaneSlip st l v σ = .next τ) : Within Foot.execLaneSlip σ τ := by
  have hF := Foot.le_refl Foot.execLaneSlip
  refine answer_within ?_ hw he
  clear he hw
  repeat' first
      | ((with_reducible refine granted_in ?_ ?_ _ _ ?_); (· rfl); (· first | exact Foot.le_trans (F := Foot.access .lane) (by decide +kernel) hF); skip)
      | ((with_reducible refine slipWrite_in ?_ ..); (· exact Foot.le_trans (Foot.le_of_runs (by decide +kernel)) hF))
      | split
      | dsimp only

end Sys2Proof.Machine
end

