-- ==== Sys2Proof/Laws/ExecPwr.lean ====
section
/-! SUPPORT. What each command of Machine/Pwr.lean may touch. -/

namespace Sys2Proof.Machine

set_option Elab.async false
set_option linter.unusedTactic false
set_option linter.unreachableTactic false

def Foot.execFastTrip : Foot :=
  { regs := onFam .guard (errFields ++ fCnt ++ [.GUARD_ELOG_CTRL_LOST]) ++ onFam .pwr (errFields ++ fCnt ++ [.INT_CAUSE_BLK_INT,
      .BLK_CTRL_QUIESCE, .BLK_CTRL_SOFT_RESET, .BLK_STAT_QUIESCED, .BLK_STAT_READY, .CNT_CLR_CLR, .CNT_HI_HIGH, .CNT_LO_LOW,
      .INT_EN_BLK_INT, .INT_EN_CNT_SAT, .INT_EN_ERR, .INT_ROUTE_FACE, .INT_ROUTE_TARGET, .INT_ROUTE_VECTOR, .PWR_CH_CFG_BIND_EN,
      .PWR_CH_CFG_CLEAR, .PWR_CH_CFG_EN, .PWR_CH_CFG_INS_DELAY, .PWR_CH_CFG_PORT, .PWR_CH_CFG_WARN_LEAD, .PWR_CH_STAT_ACTIVE_B,
      .PWR_CH_STAT_A_OK, .PWR_CH_STAT_B_OK, .PWR_CH_STAT_LAST_CUT, .PWR_CH_STAT_LIMIT, .PWR_CH_STAT_PG, .PWR_CH_STAT_RETRIES_LEFT,
      .PWR_CH_STAT_REV_BLOCK, .PWR_CH_STAT_SEATED, .PWR_CH_STAT_STATE, .PWR_CH_STAT_WARN, .PWR_FAULT_TIMER_RETRY_COUNT,
      .PWR_FAULT_TIMER_TIMER, .PWR_FEED_SEL_DEAD_US, .PWR_FEED_SEL_FEED_A_EN, .PWR_FEED_SEL_FEED_B_EN, .PWR_FEED_SEL_FORCE,
      .PWR_FEED_SEL_PRIO, .PWR_FEED_SEL_REVERT, .PWR_FEED_SEL_WARN_ON_SWITCH, .PWR_LIMIT_ILIM, .PWR_LIMIT_RAMP,
      .PWR_LIMIT_TFET_MAX, .PWR_SNAP_CYCLE, .PWR_SNAP_IOUT, .PWR_SNAP_IPEAK, .PWR_SNAP_TFET, .PWR_SNAP_VFA, .PWR_SNAP_VFB,
      .PWR_SNAP_VOUT, .PWR_TELEM_IOUT, .PWR_TELEM_IPEAK, .PWR_TELEM_TFET, .PWR_TELEM_VFA, .PWR_TELEM_VFB, .PWR_TELEM_VOUT,
      .PWR_UVOV_OV, .PWR_UVOV_UV]) ++ onFam .face fCnt, cnts := [.guard, .pwr, .face], vars := [.elogSeq, .msixPend, .pwCause,
      .pwDead, .pwEnergy, .pwFault, .pwIdle, .pwReset, .pwSwitch], fifos := [.elog, .faceWrote, .viWrote], parts := [.greqs, .out]
      }

theorem execFastTrip_within (c : ChanId) {σ τ : State} (hw : σ.wf) (he : execFastTrip c σ = .next τ) : Within Foot.execFastTrip σ τ := by
  have hF := Foot.le_refl Foot.execFastTrip
  refine always_within ?_ hw he
  clear he hw
  repeat' first
      | (with_reducible first | exact all_nil_in | refine all_cons_in ?_ ?_)
      | ((with_reducible refine bump_in ?_ ?_ ..); (· rfl); (· first | exact Foot.le_trans (F := Foot.counting .pwr) (by decide +kernel) hF))
      | ((with_reducible refine chanRaise_in ?_ ..); (· exact Foot.le_trans (Foot.le_of_runs (by decide +kernel)) hF))
      | ((with_reducible refine unwarnedCut_in ?_ _ _ _ (?_)); (· exact Foot.le_trans (Foot.le_of_runs (by decide +kernel)) hF); skip)
      | split
      | dsimp only

def Foot.execOvCut : Foot :=
  { regs := onFam .guard (errFields ++ fCnt ++ [.GUARD_ELOG_CTRL_LOST]) ++ onFam .pwr (errFields ++ fCnt ++ [.INT_CAUSE_BLK_INT,
      .BLK_CTRL_QUIESCE, .BLK_CTRL_SOFT_RESET, .BLK_STAT_QUIESCED, .BLK_STAT_READY, .CNT_CLR_CLR, .CNT_HI_HIGH, .CNT_LO_LOW,
      .INT_EN_BLK_INT, .INT_EN_CNT_SAT, .INT_EN_ERR, .INT_ROUTE_FACE, .INT_ROUTE_TARGET, .INT_ROUTE_VECTOR, .PWR_CH_CFG_BIND_EN,
      .PWR_CH_CFG_CLEAR, .PWR_CH_CFG_EN, .PWR_CH_CFG_INS_DELAY, .PWR_CH_CFG_PORT, .PWR_CH_CFG_WARN_LEAD, .PWR_CH_STAT_ACTIVE_B,
      .PWR_CH_STAT_A_OK, .PWR_CH_STAT_B_OK, .PWR_CH_STAT_LAST_CUT, .PWR_CH_STAT_LIMIT, .PWR_CH_STAT_PG, .PWR_CH_STAT_RETRIES_LEFT,
      .PWR_CH_STAT_REV_BLOCK, .PWR_CH_STAT_SEATED, .PWR_CH_STAT_STATE, .PWR_CH_STAT_WARN, .PWR_FAULT_TIMER_RETRY_COUNT,
      .PWR_FAULT_TIMER_TIMER, .PWR_FEED_SEL_DEAD_US, .PWR_FEED_SEL_FEED_A_EN, .PWR_FEED_SEL_FEED_B_EN, .PWR_FEED_SEL_FORCE,
      .PWR_FEED_SEL_PRIO, .PWR_FEED_SEL_REVERT, .PWR_FEED_SEL_WARN_ON_SWITCH, .PWR_LIMIT_ILIM, .PWR_LIMIT_RAMP,
      .PWR_LIMIT_TFET_MAX, .PWR_SNAP_CYCLE, .PWR_SNAP_IOUT, .PWR_SNAP_IPEAK, .PWR_SNAP_TFET, .PWR_SNAP_VFA, .PWR_SNAP_VFB,
      .PWR_SNAP_VOUT, .PWR_TELEM_IOUT, .PWR_TELEM_IPEAK, .PWR_TELEM_TFET, .PWR_TELEM_VFA, .PWR_TELEM_VFB, .PWR_TELEM_VOUT,
      .PWR_UVOV_OV, .PWR_UVOV_UV]) ++ onFam .face fCnt, cnts := [.guard, .pwr, .face], vars := [.elogSeq, .msixPend, .pwCause,
      .pwDead, .pwEnergy, .pwFault, .pwIdle, .pwReset, .pwSwitch], fifos := [.elog, .faceWrote, .viWrote], parts := [.greqs, .out]
      }

theorem execOvCut_within (c : ChanId) {σ τ : State} (hw : σ.wf) (he : execOvCut c σ = .next τ) : Within Foot.execOvCut σ τ := by
  have hF := Foot.le_refl Foot.execOvCut
  refine always_within ?_ hw he
  clear he hw
  repeat' first
      | (with_reducible first | exact all_nil_in | refine all_cons_in ?_ ?_ | refine look_in fun _ => ?_ | refine when_in ?_)
      | ((with_reducible refine chanRaise_in ?_ ..); (· exact Foot.le_trans (Foot.le_of_runs (by decide +kernel)) hF))
      | ((with_reducible refine setFeed_in ?_ ..); (· exact Foot.le_trans (Foot.le_of_runs (by decide +kernel)) hF))
      | ((with_reducible refine unwarnedCut_in ?_ _ _ _ (?_)); (· exact Foot.le_trans (Foot.le_of_runs (by decide +kernel)) hF); skip)
      | split
      | dsimp only

def Foot.execFaultTimerExpiry : Foot :=
  { regs := onFam .guard (errFields ++ fCnt ++ [.GUARD_ELOG_CTRL_LOST]) ++ onFam .pwr (errFields ++ fCnt ++ [.PWR_CH_STAT_PG,
      .PWR_CH_STAT_STATE, .PWR_CH_STAT_WARN]) ++ onFam .face fCnt, cnts := [.guard, .pwr, .face], vars := [.elogSeq, .msixPend,
      .pwCause, .pwFault, .pwSwitch], fifos := [.elog, .faceWrote, .viWrote], parts := [.greqs, .out] }

theorem execFaultTimerExpiry_within (c : ChanId) {σ τ : State} (hw : σ.wf) (he : execFaultTimerExpiry c σ = .next τ) : Within Foot.execFaultTimerExpiry σ τ := by
  have hF := Foot.le_refl Foot.execFaultTimerExpiry
  refine always_within ?_ hw he
  clear he hw
  repeat' first
      | ((with_reducible refine faultExpires_in ?_ ..); (· exact Foot.le_trans (Foot.le_of_runs (by decide +kernel)) hF))
      | split
      | dsimp only

def Foot.execRampTimeout : Foot :=
  { regs := onFam .guard (errFields ++ fCnt ++ [.GUARD_ELOG_CTRL_LOST]) ++ onFam .pwr (errFields ++ fCnt ++ [.PWR_CH_STAT_PG,
      .PWR_CH_STAT_STATE, .PWR_CH_STAT_WARN]) ++ onFam .face fCnt, cnts := [.guard, .pwr, .face], vars := [.elogSeq, .msixPend,
      .pwCause, .pwFault, .pwSwitch], fifos := [.elog, .faceWrote, .viWrote], parts := [.greqs, .out] }

theorem execRampTimeout_within (c : ChanId) {σ τ : State} (hw : σ.wf) (he : execRampTimeout c σ = .next τ) : Within Foot.execRampTimeout σ τ := by
  have hF := Foot.le_refl Foot.execRampTimeout
  refine always_within ?_ hw he
  clear he hw
  repeat' first
      | (with_reducible first | refine look_in fun _ => ?_ | refine when_in ?_)
      | ((with_reducible refine faultExpires_in ?_ ..); (· exact Foot.le_trans (Foot.le_of_runs (by decide +kernel)) hF))
      | split
      | dsimp only

def Foot.execFetOvertemp : Foot :=
  { regs := onFam .guard (errFields ++ fCnt ++ [.GUARD_ELOG_CTRL_LOST]) ++ onFam .pwr (errFields ++ [.PWR_CH_STAT_STATE,
      .PWR_CH_STAT_WARN]) ++ onFam .face fCnt, cnts := [.guard, .face], vars := [.elogSeq, .msixPend, .pwCause, .pwSwitch], fifos
      := [.elog, .faceWrote, .viWrote], parts := [.greqs, .out] }

theorem execFetOvertemp_within (c : ChanId) {σ τ : State} (hw : σ.wf) (he : execFetOvertemp c σ = .next τ) : Within Foot.execFetOvertemp σ τ := by
  have hF := Foot.le_refl Foot.execFetOvertemp
  refine always_within ?_ hw he
  clear he hw
  repeat' first
      | ((with_reducible refine chanRaise_in ?_ ..); (· exact Foot.le_trans (Foot.le_of_runs (by decide +kernel)) hF))
      | ((with_reducible refine warnCut_in ?_ _ _ _ (?_)); (· exact Foot.le_trans (Foot.le_of_runs (by decide +kernel)) hF); skip)
      | split
      | dsimp only

def Foot.execSeatingLoss : Foot :=
  { regs := onFam .guard (errFields ++ fCnt ++ [.GUARD_ELOG_CTRL_LOST]) ++ onFam .pwr (errFields ++ [.PWR_CH_STAT_SEATED,
      .PWR_CH_STAT_STATE, .PWR_CH_STAT_WARN]) ++ onFam .face fCnt, cnts := [.guard, .face], vars := [.elogSeq, .msixPend,
      .pwCause, .pwSwitch], fifos := [.elog, .faceWrote, .viWrote], parts := [.greqs, .out] }

theorem execSeatingLoss_within (c : ChanId) {σ τ : State} (hw : σ.wf) (he : execSeatingLoss c σ = .next τ) : Within Foot.execSeatingLoss σ τ := by
  have hF := Foot.le_refl Foot.execSeatingLoss
  refine always_within ?_ hw he
  clear he hw
  repeat' first
      | (with_reducible first | exact all_nil_in | refine all_cons_in ?_ ?_ | refine look_in fun _ => ?_ | refine when_in ?_ | refine ite_in ?_ ?_)
      | ((with_reducible refine wr_in ?_ ?_); (· first | exact own_mem (show _ ∈ tabPWR by decide +kernel)); (· first | exact le_regs hF (show (Fam.pwr, _) ∈ _ by decide +kernel)))
      | ((with_reducible refine chanRaise_in ?_ ..); (· exact Foot.le_trans (Foot.le_of_runs (by decide +kernel)) hF))
      | ((with_reducible refine chanTo_in ?_ ..); (· exact Foot.le_trans (Foot.le_of_runs (by decide +kernel)) hF))
      | ((with_reducible refine warnCut_in ?_ _ _ _ (?_)); (· exact Foot.le_trans (Foot.le_of_runs (by decide +kernel)) hF); skip)
      | split
      | dsimp only

def Foot.execFeedLoss : Foot :=
  { regs := onFam .guard (errFields ++ fCnt ++ [.GUARD_ELOG_CTRL_LOST]) ++ onFam .pwr (errFields ++ [.PWR_CH_STAT_A_OK,
      .PWR_CH_STAT_B_OK, .PWR_CH_STAT_STATE, .PWR_CH_STAT_WARN]) ++ onFam .face fCnt, cnts := [.guard, .face], vars := [.elogSeq,
      .msixPend, .pwCause, .pwSwitch], fifos := [.elog, .faceWrote, .viWrote], parts := [.greqs, .out] }

theorem execFeedLoss_within (c : ChanId) {σ τ : State} (hw : σ.wf) (he : execFeedLoss c σ = .next τ) : Within Foot.execFeedLoss σ τ := by
  have hF := Foot.le_refl Foot.execFeedLoss
  refine always_within ?_ hw he
  clear he hw
  repeat' first
      | (with_reducible first | exact all_nil_in | refine all_cons_in ?_ ?_ | refine look_in fun _ => ?_ | refine when_in ?_)
      | ((with_reducible refine chanRaise_in ?_ ..); (· exact Foot.le_trans (Foot.le_of_runs (by decide +kernel)) hF))
      | ((with_reducible refine setFeed_in ?_ ..); (· exact Foot.le_trans (Foot.le_of_runs (by decide +kernel)) hF))
      | ((with_reducible refine warnCut_in ?_ _ _ _ (?_)); (· exact Foot.le_trans (Foot.le_of_runs (by decide +kernel)) hF); skip)
      | split
      | dsimp only

def Foot.execWarnLeadExpiry : Foot :=
  { regs := onFam .guard (errFields ++ fCnt ++ [.GUARD_ELOG_CTRL_LOST]) ++ onFam .pwr (errFields ++ fCnt ++ [.INT_CAUSE_BLK_INT,
      .BLK_CTRL_QUIESCE, .BLK_CTRL_SOFT_RESET, .BLK_STAT_QUIESCED, .BLK_STAT_READY, .CNT_CLR_CLR, .CNT_HI_HIGH, .CNT_LO_LOW,
      .INT_EN_BLK_INT, .INT_EN_CNT_SAT, .INT_EN_ERR, .INT_ROUTE_FACE, .INT_ROUTE_TARGET, .INT_ROUTE_VECTOR, .PWR_CH_CFG_BIND_EN,
      .PWR_CH_CFG_CLEAR, .PWR_CH_CFG_EN, .PWR_CH_CFG_INS_DELAY, .PWR_CH_CFG_PORT, .PWR_CH_CFG_WARN_LEAD, .PWR_CH_STAT_ACTIVE_B,
      .PWR_CH_STAT_A_OK, .PWR_CH_STAT_B_OK, .PWR_CH_STAT_LAST_CUT, .PWR_CH_STAT_LIMIT, .PWR_CH_STAT_PG, .PWR_CH_STAT_RETRIES_LEFT,
      .PWR_CH_STAT_REV_BLOCK, .PWR_CH_STAT_SEATED, .PWR_CH_STAT_STATE, .PWR_CH_STAT_WARN, .PWR_FAULT_TIMER_RETRY_COUNT,
      .PWR_FAULT_TIMER_TIMER, .PWR_FEED_SEL_DEAD_US, .PWR_FEED_SEL_FEED_A_EN, .PWR_FEED_SEL_FEED_B_EN, .PWR_FEED_SEL_FORCE,
      .PWR_FEED_SEL_PRIO, .PWR_FEED_SEL_REVERT, .PWR_FEED_SEL_WARN_ON_SWITCH, .PWR_LIMIT_ILIM, .PWR_LIMIT_RAMP,
      .PWR_LIMIT_TFET_MAX, .PWR_SNAP_CYCLE, .PWR_SNAP_IOUT, .PWR_SNAP_IPEAK, .PWR_SNAP_TFET, .PWR_SNAP_VFA, .PWR_SNAP_VFB,
      .PWR_SNAP_VOUT, .PWR_TELEM_IOUT, .PWR_TELEM_IPEAK, .PWR_TELEM_TFET, .PWR_TELEM_VFA, .PWR_TELEM_VFB, .PWR_TELEM_VOUT,
      .PWR_UVOV_OV, .PWR_UVOV_UV]) ++ onFam .face fCnt, cnts := [.guard, .pwr, .face], vars := [.elogSeq, .msixPend, .pwCause,
      .pwDead, .pwEnergy, .pwFault, .pwIdle, .pwReset, .pwSwitch], fifos := [.elog, .faceWrote, .viWrote], parts := [.greqs, .out]
      }

theorem execWarnLeadExpiry_within (c : ChanId) {σ τ : State} (hw : σ.wf) (he : execWarnLeadExpiry c σ = .next τ) : Within Foot.execWarnLeadExpiry σ τ := by
  have hF := Foot.le_refl Foot.execWarnLeadExpiry
  refine always_within ?_ hw he
  clear he hw
  repeat' first
      | (with_reducible first | exact all_nil_in | refine all_cons_in ?_ ?_ | refine look_in fun _ => ?_ | refine when_in ?_ | refine ite_in ?_ ?_)
      | ((with_reducible refine put_in ?_); (· exact le_vars hF (by decide +kernel)))
      | ((with_reducible refine wr_in ?_ ?_); (· first | exact own_mem (show _ ∈ tabPWR by decide +kernel)); (· first | exact le_regs hF (show (Fam.pwr, _) ∈ _ by decide +kernel)))
      | ((with_reducible refine chanTo_in ?_ ..); (· exact Foot.le_trans (Foot.le_of_runs (by decide +kernel)) hF))
      | ((with_reducible refine cut_in ?_ ..); (· exact Foot.le_trans (Foot.le_of_runs (by decide +kernel)) hF))
      | split
      | dsimp only

def Foot.execForcedSwitchover : Foot :=
  { regs := onFam .pwr [.PWR_CH_STAT_A_OK, .PWR_CH_STAT_B_OK, .PWR_CH_STAT_PG, .PWR_CH_STAT_STATE, .PWR_CH_STAT_WARN], vars :=
      [.pwDead, .pwSwitch], parts := [.greqs] }

theorem execForcedSwitchover_within (c : ChanId) {σ τ : State} (hw : σ.wf) (he : execForcedSwitchover c σ = .next τ) : Within Foot.execForcedSwitchover σ τ := by
  have hF := Foot.le_refl Foot.execForcedSwitchover
  refine always_within ?_ hw he
  clear he hw
  repeat' first
      | (with_reducible first | exact all_nil_in | refine all_cons_in ?_ ?_ | refine look_in fun _ => ?_ | refine when_in ?_ | refine ite_in ?_ ?_)
      | ((with_reducible refine wr_in ?_ ?_); (· first | exact own_mem (show _ ∈ tabPWR by decide +kernel)); (· first | exact le_regs hF (show (Fam.pwr, _) ∈ _ by decide +kernel)))
      | ((with_reducible refine assertWarn_in ?_ ..); (· exact Foot.le_trans (Foot.le_of_runs (by decide +kernel)) hF))
      | ((with_reducible refine breakTo_in ?_ ..); (· exact Foot.le_trans (Foot.le_of_runs (by decide +kernel)) hF))
      | ((with_reducible refine chanTo_in ?_ ..); (· exact Foot.le_trans (Foot.le_of_runs (by decide +kernel)) hF))
      | ((with_reducible refine setFeed_in ?_ ..); (· exact Foot.le_trans (Foot.le_of_runs (by decide +kernel)) hF))
      | split
      | dsimp only

def Foot.execRevertSwitchover : Foot :=
  { regs := onFam .pwr [.PWR_CH_STAT_A_OK, .PWR_CH_STAT_B_OK, .PWR_CH_STAT_STATE, .PWR_CH_STAT_WARN], vars := [.pwCause, .pwDead,
      .pwSwitch], parts := [.greqs] }

theorem execRevertSwitchover_within (c : ChanId) {σ τ : State} (hw : σ.wf) (he : execRevertSwitchover c σ = .next τ) : Within Foot.execRevertSwitchover σ τ := by
  have hF := Foot.le_refl Foot.execRevertSwitchover
  refine always_within ?_ hw he
  clear he hw
  repeat' first
      | (with_reducible first | exact all_nil_in | refine all_cons_in ?_ ?_ | refine look_in fun _ => ?_ | refine when_in ?_ | refine ite_in ?_ ?_)
      | ((with_reducible refine setFeed_in ?_ ..); (· exact Foot.le_trans (Foot.le_of_runs (by decide +kernel)) hF))
      | ((with_reducible refine switchTo_in ?_ ..); (· exact Foot.le_trans (Foot.le_of_runs (by decide +kernel)) hF))
      | split
      | dsimp only

def Foot.execDeadTimeExpiry : Foot :=
  { regs := onFam .pwr (fCnt ++ [.PWR_CH_STAT_ACTIVE_B]) ++ onFam .face fCnt, cnts := [.pwr, .face], vars := [.msixPend, .pwDead,
      .pwSwitch], fifos := [.faceWrote, .viWrote], parts := [.out] }

theorem execDeadTimeExpiry_within (c : ChanId) {σ τ : State} (hw : σ.wf) (he : execDeadTimeExpiry c σ = .next τ) : Within Foot.execDeadTimeExpiry σ τ := by
  have hF := Foot.le_refl Foot.execDeadTimeExpiry
  refine always_within ?_ hw he
  clear he hw
  repeat' first
      | (with_reducible first | exact all_nil_in | refine all_cons_in ?_ ?_ | refine look_in fun _ => ?_ | refine when_in ?_)
      | ((with_reducible refine put_in ?_); (· exact le_vars hF (by decide +kernel)))
      | ((with_reducible refine wr_in ?_ ?_); (· first | exact hdr_mem rfl (by decide +kernel) | exact own_mem (show _ ∈ tabPWR by decide +kernel)); (· first | exact le_regs hF (show (Fam.face, _) ∈ _ by decide +kernel) | exact le_regs hF (show (Fam.pwr, _) ∈ _ by decide +kernel)))
      | ((with_reducible refine bump_in ?_ ?_ ..); (· rfl); (· first | exact Foot.le_trans (F := Foot.counting .pwr) (by decide +kernel) hF))
      | split
      | dsimp only

def Foot.execSeatingDebounced : Foot :=
  { regs := onFam .pwr [.PWR_CH_STAT_SEATED, .PWR_CH_STAT_STATE] }

theorem execSeatingDebounced_within (c : ChanId) {σ τ : State} (hw : σ.wf) (he : execSeatingDebounced c σ = .next τ) : Within Foot.execSeatingDebounced σ τ := by
  have hF := Foot.le_refl Foot.execSeatingDebounced
  refine always_within ?_ hw he
  clear he hw
  repeat' first
      | (with_reducible first | exact all_nil_in | refine all_cons_in ?_ ?_ | refine look_in fun _ => ?_ | refine when_in ?_)
      | ((with_reducible refine wr_in ?_ ?_); (· first | exact own_mem (show _ ∈ tabPWR by decide +kernel)); (· first | exact le_regs hF (show (Fam.pwr, _) ∈ _ by decide +kernel)))
      | ((with_reducible refine chanTo_in ?_ ..); (· exact Foot.le_trans (Foot.le_of_runs (by decide +kernel)) hF))
      | split
      | dsimp only

def Foot.execInsertionDelayExpiry : Foot :=
  { regs := onFam .pwr (fCnt ++ [.PWR_CH_STAT_ACTIVE_B, .PWR_CH_STAT_A_OK, .PWR_CH_STAT_B_OK, .PWR_CH_STAT_STATE,
      .PWR_CH_STAT_WARN]) ++ onFam .face fCnt, cnts := [.pwr, .face], vars := [.msixPend], fifos := [.faceWrote, .viWrote], parts
      := [.out] }

theorem execInsertionDelayExpiry_within (c : ChanId) (b : Bool) {σ τ : State} (hw : σ.wf) (he : execInsertionDelayExpiry c b σ = .next τ) : Within Foot.execInsertionDelayExpiry σ τ := by
  have hF := Foot.le_refl Foot.execInsertionDelayExpiry
  refine always_within ?_ hw he
  clear he hw
  repeat' first
      | (with_reducible first | exact all_nil_in | refine all_cons_in ?_ ?_ | refine look_in fun _ => ?_ | refine when_in ?_ | refine ite_in ?_ ?_)
      | ((with_reducible refine rampBest_in ?_ ..); (· exact Foot.le_trans (Foot.le_of_runs (by decide +kernel)) hF))
      | ((with_reducible refine setFeed_in ?_ ..); (· exact Foot.le_trans (Foot.le_of_runs (by decide +kernel)) hF))
      | split
      | dsimp only

def Foot.execRampComplete : Foot :=
  { regs := onFam .pwr [.PWR_CH_STAT_STATE] }

theorem execRampComplete_within (c : ChanId) {σ τ : State} (hw : σ.wf) (he : execRampComplete c σ = .next τ) : Within Foot.execRampComplete σ τ := by
  have hF := Foot.le_refl Foot.execRampComplete
  refine always_within ?_ hw he
  clear he hw
  repeat' first
      | (with_reducible first | refine look_in fun _ => ?_ | refine when_in ?_)
      | ((with_reducible refine chanTo_in ?_ ..); (· exact Foot.le_trans (Foot.le_of_runs (by decide +kernel)) hF))
      | split
      | dsimp only

def Foot.execRetryPeriodExpiry : Foot :=
  { regs := onFam .pwr (fCnt ++ [.PWR_CH_STAT_ACTIVE_B, .PWR_CH_STAT_STATE, .PWR_CH_STAT_WARN]) ++ onFam .face fCnt, cnts := [.pwr,
      .face], vars := [.msixPend], fifos := [.faceWrote, .viWrote], parts := [.out] }

theorem execRetryPeriodExpiry_within (c : ChanId) {σ τ : State} (hw : σ.wf) (he : execRetryPeriodExpiry c σ = .next τ) : Within Foot.execRetryPeriodExpiry σ τ := by
  have hF := Foot.le_refl Foot.execRetryPeriodExpiry
  refine always_within ?_ hw he
  clear he hw
  repeat' first
      | (with_reducible first | refine look_in fun _ => ?_ | refine when_in ?_)
      | ((with_reducible refine rampBest_in ?_ ..); (· exact Foot.le_trans (Foot.le_of_runs (by decide +kernel)) hF))
      | split
      | dsimp only

def Foot.execReverseBlock : Foot :=
  { regs := onFam .guard (errFields ++ fCnt ++ [.GUARD_ELOG_CTRL_LOST]) ++ onFam .pwr (errFields ++ fCnt ++
      [.PWR_CH_STAT_REV_BLOCK]) ++ onFam .face fCnt, cnts := [.guard, .pwr, .face], vars := [.elogSeq, .msixPend], fifos :=
      [.elog, .faceWrote, .viWrote], parts := [.greqs, .out] }

theorem execReverseBlock_within (c : ChanId) {σ τ : State} (hw : σ.wf) (he : execReverseBlock c σ = .next τ) : Within Foot.execReverseBlock σ τ := by
  have hF := Foot.le_refl Foot.execReverseBlock
  refine always_within ?_ hw he
  clear he hw
  repeat' first
      | (with_reducible first | exact all_nil_in | refine all_cons_in ?_ ?_ | refine look_in fun _ => ?_ | refine when_in ?_)
      | ((with_reducible refine wr_in ?_ ?_); (· first | exact hdr_mem rfl (by decide +kernel) | exact own_mem (show _ ∈ tabPWR by decide +kernel)); (· first | exact le_regs hF (show (Fam.face, _) ∈ _ by decide +kernel) | exact le_regs hF (show (Fam.pwr, _) ∈ _ by decide +kernel)))
      | ((with_reducible refine bump_in ?_ ?_ ..); (· rfl); (· first | exact Foot.le_trans (F := Foot.counting .pwr) (by decide +kernel) hF))
      | ((with_reducible refine chanRaise_in ?_ ..); (· exact Foot.le_trans (Foot.le_of_runs (by decide +kernel)) hF))
      | split
      | dsimp only

def Foot.execReverseRelease : Foot :=
  { regs := onFam .pwr [.PWR_CH_STAT_REV_BLOCK] }

theorem execReverseRelease_within (c : ChanId) {σ τ : State} (hw : σ.wf) (he : execReverseRelease c σ = .next τ) : Within Foot.execReverseRelease σ τ := by
  have hF := Foot.le_refl Foot.execReverseRelease
  refine always_within ?_ hw he
  clear he hw
  repeat' first
      | ((with_reducible refine wr_in ?_ ?_); (· first | exact own_mem (show _ ∈ tabPWR by decide +kernel)); (· first | exact le_regs hF (show (Fam.pwr, _) ∈ _ by decide +kernel)))
      | split
      | dsimp only

def Foot.execPowerGood : Foot :=
  { regs := onFam .sec (errFields ++ fCnt ++ [.SEC_IDE_STAT_DEV_AUTH, .SEC_IDE_STAT_LINK_ID, .SEC_IDE_STAT_LINK_KSET,
      .SEC_IDE_STAT_LINK_SECURE, .SEC_IDE_STAT_SEL_SECURE, .SEC_IDE_STAT_SEL_VALID, .SEC_LINK_STAT_AUTH_OK,
      .SEC_LINK_STAT_AUTH_STATUS, .SEC_LINK_STAT_PARTNER_DEBUG, .SEC_LINK_STAT_REKEY, .SEC_LINK_STAT_REKEYS]) ++ onFam .guard
      (errFields ++ fCnt ++ [.GDS_DEVICE_BY_SW, .GDS_DEVICE_CLASS, .GDS_DEVICE_HOLD, .GDS_DEVICE_MERGED, .GDS_DEVICE_STATE,
      .GDS_DEVICE_WINDOW, .GDS_FACE_BY_SW, .GDS_FACE_CLASS, .GDS_FACE_HOLD, .GDS_FACE_MERGED, .GDS_FACE_STATE, .GDS_FACE_WINDOW,
      .GDS_INST_BY_SW, .GDS_INST_CLASS, .GDS_INST_HOLD, .GDS_INST_MERGED, .GDS_INST_STATE, .GDS_INST_WINDOW, .GDS_LANE_BY_SW,
      .GDS_LANE_CLASS, .GDS_LANE_HOLD, .GDS_LANE_MERGED, .GDS_LANE_STATE, .GDS_LANE_WINDOW, .GDS_LINK_BY_SW, .GDS_LINK_CLASS,
      .GDS_LINK_HOLD, .GDS_LINK_MERGED, .GDS_LINK_STATE, .GDS_LINK_WINDOW, .GDS_PORT_BY_SW, .GDS_PORT_CLASS, .GDS_PORT_HOLD,
      .GDS_PORT_MERGED, .GDS_PORT_STATE, .GDS_PORT_WINDOW, .GUARD_ELOG_CTRL_LOST]) ++ onFam .lane [.LANE_INJ_CTRL_ONE_SHOT,
      .LANE_RATE_CFG_RATE_NOW, .LANE_REST_CTRL_IN_REST, .LANE_STAT_ALIGN_LOCK, .LANE_STAT_CDR_LOCK, .LANE_STAT_EQ_DONE,
      .LANE_STAT_EQ_FAIL, .LANE_STAT_EXIT_FAIL, .LANE_STAT_FAILED, .LANE_STAT_FEC_LOCK, .LANE_STAT_RX_READY, .LANE_STAT_STATE,
      .LANE_TX_TAPS_C0, .LANE_TX_TAPS_POST, .LANE_TX_TAPS_PRE] ++ onFam .pwr [.PWR_CH_STAT_PG, .PWR_CH_STAT_WARN] ++ onFam .core
      (errFields ++ fCnt ++ [.CORE_WM_STAT_WM_CROSS_CNT, .CORE_WM_STAT_WM_EVENT, .CORE_WM_STAT_WM_LEVEL]) ++ onFam .route
      (errFields ++ fCnt) ++ onFam .bridge (errFields ++ fCnt ++ [.BRIDGE_FAB_NBR_PARTNER_PORT, .BRIDGE_FAB_NBR_PARTNER_SW,
      .BRIDGE_FAB_NBR_VALID, .BRIDGE_LOCK_STAT_HOLDER, .BRIDGE_LOCK_STAT_LOCKED, .BRIDGE_PROOF_WM_STAT_WM_CROSS_CNT,
      .BRIDGE_PROOF_WM_STAT_WM_EVENT, .BRIDGE_PROOF_WM_STAT_WM_LEVEL]) ++ onFam .mbox (fCnt ++ [.MBOX_SEM_PEEK_HELD,
      .MBOX_SEM_PEEK_OWNER]) ++ onFam .port [.BLK_CTRL_QUIESCE, .BLK_STAT_QUIESCED, .PORT_LINK_STAT_ENC, .PORT_LINK_STAT_FLIT,
      .PORT_LINK_STAT_KEY_PHASE, .PORT_LINK_STAT_LANES_GOOD, .PORT_LINK_STAT_RATE_NOW, .PORT_LINK_STAT_STATE,
      .PORT_LINK_STAT_WIDTH_NOW, .PORT_REPLAY_CNT_CONSEC] ++ onFam .face (errFields ++ fCnt ++ [.BLK_CTRL_SOFT_RESET,
      .CNT_CLR_CLR, .CNT_HI_HIGH, .CNT_LO_LOW, .FACE_BIND_STATE, .FACE_BUS_LIMIT_NEED, .FACE_BUS_LIMIT_NO_BUS,
      .FACE_FLR_STAT_BUSY, .FACE_FLR_STAT_DONE, .FACE_FLR_STAT_TIME_US, .FACE_PM_STAT_FWAKE, .FACE_PM_STAT_LINK_PM,
      .FACE_PM_STAT_PME_EN, .FACE_PM_STAT_PME_STATUS, .FACE_PM_STAT_SE_D, .FACE_PM_STAT_USP_D, .FACE_PRES_CONFLICT,
      .FACE_PRES_SHOWN, .FACE_TAG_CTRL_REQ_WIDTH, .FACE_WIN_BASE_ADDR, .FACE_WIN_BASE_ADDR_HI, .FACE_WIN_COMMIT_GO,
      .FACE_WIN_COMMIT_INDEX, .FACE_WIN_COMMIT_OP, .FACE_WIN_COMMIT_STATUS, .FACE_WIN_SIZE_LINK_BAR, .FACE_WIN_SIZE_LINK_EN,
      .FACE_WIN_SIZE_LINK_PRES, .FACE_WIN_SIZE_LOG2, .FACE_WIN_TAB_ACTIVE, .FACE_WIN_TAB_BASE, .FACE_WIN_TAB_BASE_HI,
      .FACE_WIN_TAB_LINK_BAR, .FACE_WIN_TAB_LINK_EN, .FACE_WIN_TAB_LINK_PRES, .FACE_WIN_TAB_LOG2, .FACE_WIN_TAB_VALID,
      .FACE_WIN_TAB_XLAT, .FACE_WIN_TAB_XLAT_HI, .FACE_WIN_XLAT_ADDR, .FACE_WIN_XLAT_ADDR_HI]) ++ onFam .schedg fCnt ++ onFam
      .inst [.INST_STAT_FENCED, .INST_STAT_FLUSH_TO, .INST_STAT_RESETTING, .INST_STAT_TDI] ++ onFam .moverg errFields ++ onFam
      .eng fCnt ++ onFam .ring [.MOVER_RING_BASE_ADDR, .MOVER_RING_BASE_ADDR_HI, .MOVER_RING_CFG_ENABLE, .MOVER_RING_CFG_ENGINE,
      .MOVER_RING_CFG_KIND, .MOVER_RING_CFG_OWNER, .MOVER_RING_CFG_OWN_KIND, .MOVER_RING_CFG_SIZE_LOG2,
      .MOVER_RING_CFG_STOP_ON_ERR, .MOVER_RING_CPL_BASE_ADDR, .MOVER_RING_CPL_BASE_ADDR_HI, .MOVER_RING_CPL_CTRL_COAL_US,
      .MOVER_RING_CPL_CTRL_IRQ_EN, .MOVER_RING_CPL_CTRL_MODE, .MOVER_RING_CPL_CTRL_VECTOR, .MOVER_RING_CPL_FIFO_DW,
      .MOVER_RING_CPL_HEAD_CPL_HEAD, .MOVER_RING_CPL_TAIL_CPL_TAIL, .MOVER_RING_CPL_TAIL_PHASE, .MOVER_RING_HEAD_HEAD,
      .MOVER_RING_STAT_LAST_INDEX, .MOVER_RING_STAT_LAST_STATUS, .MOVER_RING_STAT_RESUME, .MOVER_RING_STAT_STATE,
      .MOVER_RING_TAIL_TAIL], cnts := [.sec, .guard, .core, .route, .bridge, .mbox, .face, .schedg, .eng], vars := [.alignMiss,
      .alignSeen, .aspm, .authDebug, .authStep, .badCw, .bme, .bridgeCtl, .bridgeD3, .cbsAt, .cbsCr, .coalDue, .coalOn, .crAdv,
      .crInit, .crUsed, .devReset, .elogSeq, .eqTimeouts, .faceEpoch, .fetchAt, .fetchN, .fetchTag, .guardBack, .ideGo, .ideKey,
      .injAlign, .linkDis, .lockDest, .lsSeen, .meDef, .memWin, .mkDue, .mkRx, .mkTx, .mse, .msixAddr, .msixData, .msixEnable,
      .msixFnMask, .msixOpen, .msixPend, .nakSent, .nextKey, .ownReq, .paramGot, .paramVal, .partnerAspm, .partnerMax,
      .partnerReady, .partnerRest, .pcieAcked, .pcieRev, .pcieSent, .peerReq, .pktId, .pmeOff, .polAt, .polC, .polP, .postStat,
      .preStat, .prefBase, .prefLimit, .prefWin, .presBar, .presBarSet, .presBase, .presCmd, .presInfo, .presRom, .presetStat,
      .priBus, .ptmCount, .ptmEnable, .redAvg, .rehome, .rekeying, .replayAt, .restHeld, .restPend, .restSince, .rxKey, .rxNum,
      .rxRest, .rxSeq, .rxUnacked, .seBar, .seBusMaster, .seMps, .seMrrs, .seMse, .sePasid, .seTags, .secBus, .sizing, .skewCnt,
      .slotCtl, .slotStat, .stipCnt, .stipSeq, .stopWaits, .subBus, .tagEp, .txCount, .txKey, .txLimit, .txNum, .txSeq, .txUsed,
      .uspMps, .wcDone, .wcFrom, .wcId, .wcOldWidth, .wcSet, .widening, .win], fifos := [.cplFifo, .elog, .faceWrote, .flushTodo,
      .missLog, .ringWrote, .viWrote], parts := [.buf, .descs, .free, .fwd, .greqs, .out, .prefs, .replay, .slots, .streams,
      .waiting] }

theorem execPowerGood_within (c : ChanId) {σ τ : State} (hw : σ.wf) (he : execPowerGood c σ = .next τ) : Within Foot.execPowerGood σ τ := by
  have hF := Foot.le_refl Foot.execPowerGood
  refine always_within ?_ hw he
  clear he hw
  repeat' first
      | (with_reducible first | exact all_nil_in | refine all_cons_in ?_ ?_ | refine look_in fun _ => ?_ | refine when_in ?_)
      | ((with_reducible refine wr_in ?_ ?_); (· first | exact own_mem (show _ ∈ tabPWR by decide +kernel)); (· first | exact le_regs hF (show (Fam.pwr, _) ∈ _ by decide +kernel)))
      | ((with_reducible refine powerBack_in ?_ ..); (· exact Foot.le_trans (Foot.le_of_runs (by decide +kernel)) hF))
      | split
      | dsimp only

def Foot.execRetryReloadTimer : Foot :=
  { regs := onFam .pwr [.PWR_CH_STAT_RETRIES_LEFT] }

theorem execRetryReloadTimer_within (c : ChanId) {σ τ : State} (hw : σ.wf) (he : execRetryReloadTimer c σ = .next τ) : Within Foot.execRetryReloadTimer σ τ := by
  have hF := Foot.le_refl Foot.execRetryReloadTimer
  refine always_within ?_ hw he
  clear he hw
  repeat' first
      | (with_reducible first | refine look_in fun _ => ?_ | refine when_in ?_)
      | ((with_reducible refine reloadRetries_in ?_ ..); (· exact Foot.le_trans (Foot.le_of_runs (by decide +kernel)) hF))
      | split
      | dsimp only

def Foot.execOutputBelowPgThreshold : Foot :=
  { regs := onFam .pwr [.PWR_CH_STAT_PG] }

theorem execOutputBelowPgThreshold_within (c : ChanId) {σ τ : State} (hw : σ.wf) (he : execOutputBelowPgThreshold c σ = .next τ) : Within Foot.execOutputBelowPgThreshold σ τ := by
  have hF := Foot.le_refl Foot.execOutputBelowPgThreshold
  refine always_within ?_ hw he
  clear he hw
  repeat' first
      | ((with_reducible refine wr_in ?_ ?_); (· first | exact own_mem (show _ ∈ tabPWR by decide +kernel)); (· first | exact le_regs hF (show (Fam.pwr, _) ∈ _ by decide +kernel)))
      | split
      | dsimp only

def Foot.execChannelEnable : Foot :=
  { regs := onFam .guard (errFields ++ fCnt ++ [.GUARD_ELOG_CTRL_LOST]) ++ onFam .pwr (errFields ++ [.PWR_CH_CFG_BIND_EN,
      .PWR_CH_CFG_CLEAR, .PWR_CH_CFG_EN, .PWR_CH_CFG_INS_DELAY, .PWR_CH_CFG_PORT, .PWR_CH_CFG_WARN_LEAD,
      .PWR_CH_STAT_RETRIES_LEFT, .PWR_CH_STAT_STATE, .PWR_CH_STAT_WARN]) ++ onFam .face fCnt, cnts := [.guard, .face], vars :=
      [.aerStamp, .arbLast, .elogSeq, .msixPend, .pwCause, .pwSwitch], fifos := [.elog, .faceWrote, .viWrote], parts := [.greqs,
      .out] }

theorem execChannelEnable_within (st : Stamp) (c : ChanId) (v : Word) {σ τ : State} (hw : σ.wf) (he : execChannelEnable st c v σ = .next τ) : Within Foot.execChannelEnable σ τ := by
  have hF := Foot.le_refl Foot.execChannelEnable
  refine answer_within ?_ hw he
  clear he hw
  repeat' first
      | ((with_reducible refine granted_in ?_ ?_ _ _ ?_); (· rfl); (· first | exact Foot.le_trans (F := Foot.access .pwr) (by decide +kernel) hF); skip)
      | ((with_reducible refine pwrCfgWrite_in ?_ ..); (· exact Foot.le_trans (Foot.le_of_runs (by decide +kernel)) hF))
      | split
      | dsimp only

def Foot.execChannelDisable : Foot :=
  { regs := onFam .guard (errFields ++ fCnt ++ [.GUARD_ELOG_CTRL_LOST]) ++ onFam .pwr (errFields ++ [.PWR_CH_CFG_BIND_EN,
      .PWR_CH_CFG_CLEAR, .PWR_CH_CFG_EN, .PWR_CH_CFG_INS_DELAY, .PWR_CH_CFG_PORT, .PWR_CH_CFG_WARN_LEAD,
      .PWR_CH_STAT_RETRIES_LEFT, .PWR_CH_STAT_STATE, .PWR_CH_STAT_WARN]) ++ onFam .face fCnt, cnts := [.guard, .face], vars :=
      [.aerStamp, .arbLast, .elogSeq, .msixPend, .pwCause, .pwSwitch], fifos := [.elog, .faceWrote, .viWrote], parts := [.greqs,
      .out] }

theorem execChannelDisable_within (st : Stamp) (c : ChanId) (v : Word) {σ τ : State} (hw : σ.wf) (he : execChannelDisable st c v σ = .next τ) : Within Foot.execChannelDisable σ τ := by
  have hF := Foot.le_refl Foot.execChannelDisable
  refine answer_within ?_ hw he
  clear he hw
  repeat' first
      | ((with_reducible refine granted_in ?_ ?_ _ _ ?_); (· rfl); (· first | exact Foot.le_trans (F := Foot.access .pwr) (by decide +kernel) hF); skip)
      | ((with_reducible refine pwrCfgWrite_in ?_ ..); (· exact Foot.le_trans (Foot.le_of_runs (by decide +kernel)) hF))
      | split
      | dsimp only

def Foot.execChannelClear : Foot :=
  { regs := onFam .guard (errFields ++ fCnt ++ [.GUARD_ELOG_CTRL_LOST]) ++ onFam .pwr (errFields ++ [.PWR_CH_CFG_BIND_EN,
      .PWR_CH_CFG_CLEAR, .PWR_CH_CFG_EN, .PWR_CH_CFG_INS_DELAY, .PWR_CH_CFG_PORT, .PWR_CH_CFG_WARN_LEAD,
      .PWR_CH_STAT_RETRIES_LEFT, .PWR_CH_STAT_STATE, .PWR_CH_STAT_WARN]) ++ onFam .face fCnt, cnts := [.guard, .face], vars :=
      [.aerStamp, .arbLast, .elogSeq, .msixPend, .pwCause, .pwSwitch], fifos := [.elog, .faceWrote, .viWrote], parts := [.greqs,
      .out] }

theorem execChannelClear_within (st : Stamp) (c : ChanId) (v : Word) {σ τ : State} (hw : σ.wf) (he : execChannelClear st c v σ = .next τ) : Within Foot.execChannelClear σ τ := by
  have hF := Foot.le_refl Foot.execChannelClear
  refine answer_within ?_ hw he
  clear he hw
  repeat' first
      | ((with_reducible refine granted_in ?_ ?_ _ _ ?_); (· rfl); (· first | exact Foot.le_trans (F := Foot.access .pwr) (by decide +kernel) hF); skip)
      | ((with_reducible refine pwrCfgWrite_in ?_ ..); (· exact Foot.le_trans (Foot.le_of_runs (by decide +kernel)) hF))
      | split
      | dsimp only

def Foot.execSoftwareSwitchover : Foot :=
  { regs := onFam .guard (errFields ++ fCnt ++ [.GUARD_ELOG_CTRL_LOST]) ++ onFam .pwr (errFields ++ [.PWR_CH_STAT_A_OK,
      .PWR_CH_STAT_B_OK, .PWR_CH_STAT_STATE, .PWR_CH_STAT_WARN, .PWR_FEED_SEL_DEAD_US, .PWR_FEED_SEL_FEED_A_EN,
      .PWR_FEED_SEL_FEED_B_EN, .PWR_FEED_SEL_FORCE, .PWR_FEED_SEL_PRIO, .PWR_FEED_SEL_REVERT, .PWR_FEED_SEL_WARN_ON_SWITCH]) ++
      onFam .face fCnt, cnts := [.guard, .face], vars := [.aerStamp, .arbLast, .elogSeq, .msixPend, .pwCause, .pwDead, .pwSwitch],
      fifos := [.elog, .faceWrote, .viWrote], parts := [.greqs, .out] }

theorem execSoftwareSwitchover_within (st : Stamp) (c : ChanId) (v : Word) {σ τ : State} (hw : σ.wf) (he : execSoftwareSwitchover st c v σ = .next τ) : Within Foot.execSoftwareSwitchover σ τ := by
  have hF := Foot.le_refl Foot.execSoftwareSwitchover
  refine answer_within ?_ hw he
  clear he hw
  repeat' first
      | ((with_reducible refine granted_in ?_ ?_ _ _ ?_); (· rfl); (· first | exact Foot.le_trans (F := Foot.access .pwr) (by decide +kernel) hF); skip)
      | ((with_reducible refine feedSelWrite_in ?_ ..); (· exact Foot.le_trans (Foot.le_of_runs (by decide +kernel)) hF))
      | split
      | dsimp only

def Foot.execFeedCheck : Foot :=
  { regs := onFam .guard (errFields ++ fCnt ++ [.GUARD_ELOG_CTRL_LOST]) ++ onFam .pwr (errFields ++ [.PWR_FEED_SEL_FEED_B_EN,
      .PWR_SNAP_CYCLE, .PWR_SNAP_IOUT, .PWR_SNAP_IPEAK, .PWR_SNAP_TFET, .PWR_SNAP_VFA, .PWR_SNAP_VFB, .PWR_SNAP_VOUT]) ++ onFam
      .face fCnt, cnts := [.guard, .face], vars := [.elogSeq, .msixPend], fifos := [.elog, .faceWrote, .viWrote], parts :=
      [.greqs, .out] }

theorem execFeedCheck_within  {σ τ : State} (hw : σ.wf) (he : execFeedCheck σ = .next τ) : Within Foot.execFeedCheck σ τ := by
  have hF := Foot.le_refl Foot.execFeedCheck
  refine answer_within ?_ hw he
  clear he hw
  repeat' first
      | exact forEach_mem_in fun x m => wr_in (own_mem ((show ∀ x ∈ [(Fld.PWR_SNAP_VOUT, Fld.PWR_TELEM_VOUT), (.PWR_SNAP_IOUT, .PWR_TELEM_IOUT), (.PWR_SNAP_VFA, .PWR_TELEM_VFA), (.PWR_SNAP_VFB, .PWR_TELEM_VFB), (.PWR_SNAP_TFET, .PWR_TELEM_TFET), (.PWR_SNAP_IPEAK, .PWR_TELEM_IPEAK)], x.1 ∈ tabPWR by decide +kernel) x m)) (le_regs hF ((show ∀ x ∈ [(Fld.PWR_SNAP_VOUT, Fld.PWR_TELEM_VOUT), (.PWR_SNAP_IOUT, .PWR_TELEM_IOUT), (.PWR_SNAP_VFA, .PWR_TELEM_VFA), (.PWR_SNAP_VFB, .PWR_TELEM_VFB), (.PWR_SNAP_TFET, .PWR_TELEM_TFET), (.PWR_SNAP_IPEAK, .PWR_TELEM_IPEAK)], (Fam.pwr, x.1) ∈ Foot.execFeedCheck.regs by decide +kernel) x m))
      | (with_reducible first | exact all_nil_in | refine all_cons_in ?_ ?_ | refine look_in fun _ => ?_ | refine when_in ?_ | refine forBelow_in fun _ => ?_ | refine forEach_in fun _ => ?_)
      | ((with_reducible refine wr_in ?_ ?_); (· first | exact own_mem (show _ ∈ tabPWR by decide +kernel)); (· first | exact le_regs hF (show (Fam.pwr, _) ∈ _ by decide +kernel)))
      | ((with_reducible refine chanRaise_in ?_ ..); (· exact Foot.le_trans (Foot.le_of_runs (by decide +kernel)) hF))
      | (unfold Fld.PWR_SNAP_VOUT; split)
      | split
      | dsimp only

def Foot.execTelemetrySample : Foot :=
  { regs := onFam .pwr (fCnt ++ [.PWR_CH_STAT_A_OK, .PWR_CH_STAT_B_OK, .PWR_CH_STAT_LIMIT, .PWR_TELEM_IOUT, .PWR_TELEM_IPEAK,
      .PWR_TELEM_TFET, .PWR_TELEM_VFA, .PWR_TELEM_VFB, .PWR_TELEM_VOUT]) ++ onFam .face fCnt, cnts := [.pwr, .face], vars :=
      [.msixPend, .pwEnergy], fifos := [.faceWrote, .viWrote], parts := [.out] }

theorem execTelemetrySample_within (c : ChanId) (vout iout vfa vfb : BitVec 16) (tfet : BitVec 8) (limit : Bool) {σ τ : State} (hw : σ.wf) (he : execTelemetrySample c vout iout vfa vfb tfet limit σ = .next τ) : Within Foot.execTelemetrySample σ τ := by
  have hF := Foot.le_refl Foot.execTelemetrySample
  refine always_within ?_ hw he
  clear he hw
  repeat' first
      | (with_reducible first | exact all_nil_in | refine all_cons_in ?_ ?_ | refine look_in fun _ => ?_)
      | ((with_reducible refine put_in ?_); (· exact le_vars hF (by decide +kernel)))
      | ((with_reducible refine wr_in ?_ ?_); (· first | exact hdr_mem rfl (by decide +kernel) | exact own_mem (show _ ∈ tabPWR by decide +kernel)); (· first | exact le_regs hF (show (Fam.face, _) ∈ _ by decide +kernel) | exact le_regs hF (show (Fam.pwr, _) ∈ _ by decide +kernel)))
      | ((with_reducible refine addCnt_in ?_ ?_ ..); (· rfl); (· first | exact Foot.le_trans (F := Foot.counting .pwr) (by decide +kernel) hF))
      | ((with_reducible refine setFeed_in ?_ ..); (· exact Foot.le_trans (Foot.le_of_runs (by decide +kernel)) hF))
      | split
      | dsimp only

end Sys2Proof.Machine
end

