-- ==== Sys2Proof/Laws/ExecRoute.lean ====
section
/-! SUPPORT. What each command of Machine/Route.lean may touch. -/

namespace Sys2Proof.Machine

set_option Elab.async false
set_option linter.unusedTactic false
set_option linter.unreachableTactic false

def Foot.execPlateEntryStage : Foot :=
  { regs := onFam .guard (errFields ++ fCnt ++ [.GUARD_ELOG_CTRL_LOST]) ++ onFam .route errFields ++ onFam .face fCnt, cnts :=
      [.guard, .face], vars := [.aerStamp, .arbLast, .elogSeq, .msixPend, .plateAt, .plateDw, .plateHas], fifos := [.elog,
      .faceWrote, .viWrote], parts := [.greqs, .out] }

theorem execPlateEntryStage_within (st : Stamp) (k : Fin 2) (i : Fin 524288) (d : Fin 3) (v : Word) {σ τ : State} (hw : σ.wf) (he : execPlateEntryStage st k i d v σ = .next τ) : Within Foot.execPlateEntryStage σ τ := by
  have hF := Foot.le_refl Foot.execPlateEntryStage
  refine answer_within ?_ hw he
  clear he hw
  repeat' first
      | ((with_reducible refine grantPlate_in ?_ _ _ (?_)); (· exact Foot.le_trans (Foot.le_of_runs (by decide +kernel)) hF); skip)
      | ((with_reducible refine plateStage_in ?_ ..); (· exact Foot.le_trans (Foot.le_of_runs (by decide +kernel)) hF))
      | split
      | dsimp only

def Foot.execPlateEntryCommit : Foot :=
  { regs := onFam .guard (errFields ++ fCnt ++ [.GUARD_ELOG_CTRL_LOST]) ++ onFam .route (errFields ++ [.ROUTE_LIVE_SEL_P0_VERIFIED,
      .ROUTE_LIVE_SEL_P1_VERIFIED]) ++ onFam .face fCnt, cnts := [.guard, .face], vars := [.aerStamp, .arbLast, .elogSeq,
      .msixPend, .plate, .plateAt, .plateHas], fifos := [.elog, .faceWrote, .viWrote], parts := [.greqs, .out] }

theorem execPlateEntryCommit_within (st : Stamp) (k : Fin 2) (i : Fin 524288) (v : Word) {σ τ : State} (hw : σ.wf) (he : execPlateEntryCommit st k i v σ = .next τ) : Within Foot.execPlateEntryCommit σ τ := by
  have hF := Foot.le_refl Foot.execPlateEntryCommit
  refine answer_within ?_ hw he
  clear he hw
  repeat' first
      | ((with_reducible refine grantPlate_in ?_ _ _ (?_)); (· exact Foot.le_trans (Foot.le_of_runs (by decide +kernel)) hF); skip)
      | ((with_reducible refine plateCommit_in ?_ ..); (· exact Foot.le_trans (Foot.le_of_runs (by decide +kernel)) hF))
      | split
      | dsimp only

def Foot.execPlateVerifyStart : Foot :=
  { regs := onFam .guard (errFields ++ fCnt ++ [.GUARD_ELOG_CTRL_LOST]) ++ onFam .route (errFields ++ [.ROUTE_VERIFY_CTRL_BUSY,
      .ROUTE_VERIFY_CTRL_STATUS]) ++ onFam .face fCnt, cnts := [.guard, .face], vars := [.aerStamp, .arbLast, .elogSeq, .msixPend,
      .sigStale, .verifySig], fifos := [.elog, .faceWrote, .viWrote], parts := [.greqs, .out] }

theorem execPlateVerifyStart_within (st : Stamp) (v : Word) {σ τ : State} (hw : σ.wf) (he : execPlateVerifyStart st v σ = .next τ) : Within Foot.execPlateVerifyStart σ τ := by
  have hF := Foot.le_refl Foot.execPlateVerifyStart
  refine answer_within ?_ hw he
  clear he hw
  repeat' first
      | ((with_reducible refine granted_in ?_ ?_ _ _ ?_); (· rfl); (· first | exact Foot.le_trans (F := Foot.access .route) (by decide +kernel) hF); skip)
      | ((with_reducible refine verifyCtrlWrite_in ?_ ..); (· exact Foot.le_trans (Foot.le_of_runs (by decide +kernel)) hF))
      | split
      | dsimp only

def Foot.execPlateVerifyDone : Foot :=
  { regs := onFam .guard (errFields ++ fCnt ++ [.GUARD_ELOG_CTRL_LOST]) ++ onFam .route (errFields ++ fCnt ++
      [.ROUTE_GEN_GENERATION, .ROUTE_LIVE_SEL_P0_VERIFIED, .ROUTE_LIVE_SEL_P1_VERIFIED, .ROUTE_VERIFY_CTRL_BUSY,
      .ROUTE_VERIFY_CTRL_INDEX, .ROUTE_VERIFY_CTRL_STATUS]) ++ onFam .face fCnt, cnts := [.guard, .route, .face], vars :=
      [.elogSeq, .msixPend], fifos := [.elog, .faceWrote, .viWrote], parts := [.greqs, .out] }

theorem execPlateVerifyDone_within  {σ τ : State} (hw : σ.wf) (he : execPlateVerifyDone σ = .next τ) : Within Foot.execPlateVerifyDone σ τ := by
  have hF := Foot.le_refl Foot.execPlateVerifyDone
  refine answer_within ?_ hw he
  clear he hw
  repeat' first
      | (with_reducible first | refine look_in fun _ => ?_ | refine when_in ?_ | refine forSome_in fun _ => ?_)
      | ((with_reducible refine verifyEnds_in ?_ ..); (· exact Foot.le_trans (Foot.le_of_runs (by decide +kernel)) hF))
      | split
      | dsimp only

def Foot.execPlateTurnArm : Foot :=
  { regs := onFam .guard (errFields ++ fCnt ++ [.GUARD_ELOG_CTRL_LOST]) ++ onFam .route (errFields ++ [.ROUTE_TURN_CTRL_ARM,
      .ROUTE_TURN_CTRL_STATUS]) ++ onFam .face fCnt, cnts := [.guard, .face], vars := [.aerStamp, .arbLast, .elogSeq, .msixPend,
      .turnAt], fifos := [.elog, .faceWrote, .viWrote], parts := [.greqs, .out] }

theorem execPlateTurnArm_within (st : Stamp) (v : Word) {σ τ : State} (hw : σ.wf) (he : execPlateTurnArm st v σ = .next τ) : Within Foot.execPlateTurnArm σ τ := by
  have hF := Foot.le_refl Foot.execPlateTurnArm
  refine answer_within ?_ hw he
  clear he hw
  repeat' first
      | ((with_reducible refine granted_in ?_ ?_ _ _ ?_); (· rfl); (· first | exact Foot.le_trans (F := Foot.access .route) (by decide +kernel) hF); skip)
      | ((with_reducible refine turnCtrlWrite_in ?_ ..); (· exact Foot.le_trans (Foot.le_of_runs (by decide +kernel)) hF))
      | split
      | dsimp only

def Foot.execPlateTurnArmNext : Foot :=
  { regs := onFam .guard (errFields ++ fCnt ++ [.GUARD_ELOG_CTRL_LOST]) ++ onFam .route (errFields ++ [.ROUTE_TURN_CTRL_ARM,
      .ROUTE_TURN_CTRL_STATUS]) ++ onFam .face fCnt, cnts := [.guard, .face], vars := [.aerStamp, .arbLast, .elogSeq, .msixPend,
      .turnAt], fifos := [.elog, .faceWrote, .viWrote], parts := [.greqs, .out] }

theorem execPlateTurnArmNext_within (st : Stamp) (v : Word) {σ τ : State} (hw : σ.wf) (he : execPlateTurnArmNext st v σ = .next τ) : Within Foot.execPlateTurnArmNext σ τ := by
  have hF := Foot.le_refl Foot.execPlateTurnArmNext
  refine answer_within ?_ hw he
  clear he hw
  repeat' first
      | ((with_reducible refine granted_in ?_ ?_ _ _ ?_); (· rfl); (· first | exact Foot.le_trans (F := Foot.access .route) (by decide +kernel) hF); skip)
      | ((with_reducible refine turnCtrlWrite_in ?_ ..); (· exact Foot.le_trans (Foot.le_of_runs (by decide +kernel)) hF))
      | split
      | dsimp only

def Foot.execPlateTurnDisarm : Foot :=
  { regs := onFam .guard (errFields ++ fCnt ++ [.GUARD_ELOG_CTRL_LOST]) ++ onFam .route (errFields ++ [.ROUTE_TURN_CTRL_ARM,
      .ROUTE_TURN_CTRL_STATUS]) ++ onFam .face fCnt, cnts := [.guard, .face], vars := [.aerStamp, .arbLast, .elogSeq, .msixPend,
      .turnAt], fifos := [.elog, .faceWrote, .viWrote], parts := [.greqs, .out] }

theorem execPlateTurnDisarm_within (st : Stamp) (v : Word) {σ τ : State} (hw : σ.wf) (he : execPlateTurnDisarm st v σ = .next τ) : Within Foot.execPlateTurnDisarm σ τ := by
  have hF := Foot.le_refl Foot.execPlateTurnDisarm
  refine answer_within ?_ hw he
  clear he hw
  repeat' first
      | ((with_reducible refine granted_in ?_ ?_ _ _ ?_); (· rfl); (· first | exact Foot.le_trans (F := Foot.access .route) (by decide +kernel) hF); skip)
      | ((with_reducible refine turnCtrlWrite_in ?_ ..); (· exact Foot.le_trans (Foot.le_of_runs (by decide +kernel)) hF))
      | split
      | dsimp only

def Foot.execPlateEccError : Foot :=
  { regs := onFam .guard (errFields ++ fCnt ++ [.GUARD_ELOG_CTRL_LOST]) ++ onFam .route (errFields ++ fCnt ++
      [.ROUTE_LIVE_SEL_P0_VERIFIED, .ROUTE_LIVE_SEL_P1_VERIFIED, .ROUTE_TURN_CTRL_ARM, .ROUTE_TURN_CTRL_STATUS]) ++ onFam .face
      fCnt, cnts := [.guard, .route, .face], vars := [.elogSeq, .msixPend, .plate, .plateLost, .turnAt], fifos := [.elog,
      .faceWrote, .viWrote], parts := [.greqs, .out] }

theorem execPlateEccError_within (k : Fin 2) (i : Fin 524288) (e : PlateEcc) {σ τ : State} (hw : σ.wf) (he : execPlateEccError k i e σ = .next τ) : Within Foot.execPlateEccError σ τ := by
  have hF := Foot.le_refl Foot.execPlateEccError
  refine answer_within ?_ hw he
  clear he hw
  repeat' first
      | ((with_reducible refine plateEcc_in ?_ ..); (· exact Foot.le_trans (Foot.le_of_runs (by decide +kernel)) hF))
      | split
      | dsimp only

def Foot.execPlateEntryRebuild : Foot :=
  { regs := onFam .guard (errFields ++ fCnt ++ [.GUARD_ELOG_CTRL_LOST]) ++ onFam .route (errFields ++ fCnt) ++ onFam .face fCnt,
      cnts := [.guard, .route, .face], vars := [.elogSeq, .msixPend, .plateLost], fifos := [.elog, .faceWrote, .viWrote], parts :=
      [.greqs, .out] }

theorem execPlateEntryRebuild_within (k : Fin 2) (i : Fin 524288) {σ τ : State} (hw : σ.wf) (he : execPlateEntryRebuild k i σ = .next τ) : Within Foot.execPlateEntryRebuild σ τ := by
  have hF := Foot.le_refl Foot.execPlateEntryRebuild
  refine answer_within ?_ hw he
  clear he hw
  repeat' first
      | (with_reducible first | exact all_nil_in | refine all_cons_in ?_ ?_ | refine look_in fun _ => ?_ | refine when_in ?_)
      | ((with_reducible refine put_in ?_); (· exact le_vars hF (by decide +kernel)))
      | ((with_reducible refine bump_in ?_ ?_ ..); (· rfl); (· first | exact Foot.le_trans (F := Foot.counting .route) (by decide +kernel) hF))
      | ((with_reducible refine raise_in ?_ ?_ ..); (· rfl); (· first | exact Foot.le_trans (F := Foot.error .route) (by decide +kernel) hF))
      | split
      | dsimp only

def Foot.execBurnisherRead : Foot :=
  { regs := onFam .guard (errFields ++ fCnt ++ [.GUARD_ELOG_CTRL_LOST]) ++ onFam .route (errFields ++ fCnt ++
      [.ROUTE_LIVE_SEL_P0_VERIFIED, .ROUTE_LIVE_SEL_P1_VERIFIED, .ROUTE_TURN_CTRL_ARM, .ROUTE_TURN_CTRL_STATUS]) ++ onFam .face
      fCnt, cnts := [.guard, .route, .face], vars := [.burnAt, .elogSeq, .msixPend, .plate, .plateLost, .turnAt], fifos := [.elog,
      .faceWrote, .viWrote], parts := [.greqs, .out] }

theorem execBurnisherRead_within (e : Option PlateEcc) {σ τ : State} (hw : σ.wf) (he : execBurnisherRead e σ = .next τ) : Within Foot.execBurnisherRead σ τ := by
  have hF := Foot.le_refl Foot.execBurnisherRead
  refine answer_within ?_ hw he
  clear he hw
  repeat' first
      | (with_reducible first | exact all_nil_in | refine all_cons_in ?_ ?_ | refine look_in fun _ => ?_ | refine when_in ?_ | refine forSome_in fun _ => ?_)
      | ((with_reducible refine put_in ?_); (· exact le_vars hF (by decide +kernel)))
      | ((with_reducible refine bump_in ?_ ?_ ..); (· rfl); (· first | exact Foot.le_trans (F := Foot.counting .route) (by decide +kernel) hF))
      | ((with_reducible refine plateEcc_in ?_ ..); (· exact Foot.le_trans (Foot.le_of_runs (by decide +kernel)) hF))
      | split
      | dsimp only

end Sys2Proof.Machine
end

