-- ==== Sys2Proof/Laws/ExecSched.lean ====
section
/-! SUPPORT. What each command of Machine/Sched.lean may touch. -/

namespace Sys2Proof.Machine

set_option Elab.async false
set_option linter.unusedTactic false
set_option linter.unreachableTactic false

def Foot.execHatchLenWrite : Foot :=
  { regs := onFam .guard (errFields ++ fCnt ++ [.GUARD_ELOG_CTRL_LOST]) ++ onFam .face fCnt ++ onFam .sched (errFields ++
      [.SCHED_HATCH_LEN_COUNT_A, .SCHED_HATCH_LEN_COUNT_B, .SCHED_HATCH_STAT_A_VERIFIED, .SCHED_HATCH_STAT_B_VERIFIED]), cnts :=
      [.guard, .face], vars := [.aerStamp, .arbLast, .elogSeq, .msixPend], fifos := [.elog, .faceWrote, .viWrote], parts :=
      [.greqs, .out] }

theorem execHatchLenWrite_within (st : Stamp) (p : PortId) (v : Word) {σ τ : State} (hw : σ.wf) (he : execHatchLenWrite st p v σ = .next τ) : Within Foot.execHatchLenWrite σ τ := by
  have hF := Foot.le_refl Foot.execHatchLenWrite
  refine answer_within ?_ hw he
  clear he hw
  repeat' first
      | ((with_reducible refine granted_in ?_ ?_ _ _ ?_); (· rfl); (· first | exact Foot.le_trans (F := Foot.access .sched) (by decide +kernel) hF); skip)
      | ((with_reducible refine hatchLenWrite_in ?_ ..); (· exact Foot.le_trans (Foot.le_of_runs (by decide +kernel)) hF))
      | split
      | dsimp only

def Foot.execHatchVerifyStart : Foot :=
  { regs := onFam .guard (errFields ++ fCnt ++ [.GUARD_ELOG_CTRL_LOST]) ++ onFam .face fCnt ++ onFam .sched (errFields ++
      [.SCHED_HATCH_VERIFY_BUSY, .SCHED_HATCH_VERIFY_GO, .SCHED_HATCH_VERIFY_INDEX, .SCHED_HATCH_VERIFY_LIST,
      .SCHED_HATCH_VERIFY_STATUS]), cnts := [.guard, .face], vars := [.aerStamp, .arbLast, .elogSeq, .hatchSig, .hatchVer,
      .msixPend, .sigStale], fifos := [.elog, .faceWrote, .viWrote], parts := [.greqs, .out] }

theorem execHatchVerifyStart_within (st : Stamp) (p : PortId) (v : Word) {σ τ : State} (hw : σ.wf) (he : execHatchVerifyStart st p v σ = .next τ) : Within Foot.execHatchVerifyStart σ τ := by
  have hF := Foot.le_refl Foot.execHatchVerifyStart
  refine answer_within ?_ hw he
  clear he hw
  repeat' first
      | ((with_reducible refine granted_in ?_ ?_ _ _ ?_); (· rfl); (· first | exact Foot.le_trans (F := Foot.access .sched) (by decide +kernel) hF); skip)
      | ((with_reducible refine hatchVerifyWrite_in ?_ ..); (· exact Foot.le_trans (Foot.le_of_runs (by decide +kernel)) hF))
      | split
      | dsimp only

def Foot.execHatchVerifyDone : Foot :=
  { regs := onFam .guard (errFields ++ fCnt ++ [.GUARD_ELOG_CTRL_LOST]) ++ onFam .face fCnt ++ onFam .sched (errFields ++
      [.SCHED_HATCH_GEN_GENERATION, .SCHED_HATCH_STAT_A_VERIFIED, .SCHED_HATCH_STAT_B_VERIFIED, .SCHED_HATCH_VERIFY_BUSY,
      .SCHED_HATCH_VERIFY_INDEX, .SCHED_HATCH_VERIFY_STATUS]), cnts := [.guard, .face], vars := [.elogSeq, .msixPend], fifos :=
      [.elog, .faceWrote, .viWrote], parts := [.greqs, .out] }

theorem execHatchVerifyDone_within (p : PortId) {σ τ : State} (hw : σ.wf) (he : execHatchVerifyDone p σ = .next τ) : Within Foot.execHatchVerifyDone σ τ := by
  have hF := Foot.le_refl Foot.execHatchVerifyDone
  refine answer_within ?_ hw he
  clear he hw
  repeat' first
      | (with_reducible first | refine look_in fun _ => ?_ | refine when_in ?_)
      | ((with_reducible refine hatchVerifyEnds_in ?_ ..); (· exact Foot.le_trans (Foot.le_of_runs (by decide +kernel)) hF))
      | split
      | dsimp only

end Sys2Proof.Machine
end

