-- ==== Sys2Proof/Laws/ExecSec.lean ====
section
/-! SUPPORT. What each command of Machine/Sec.lean may touch. -/

namespace Sys2Proof.Machine

set_option Elab.async false
set_option linter.unusedTactic false
set_option linter.unreachableTactic false

def Foot.execPageLockWrite : Foot :=
  { regs := onFam .glb [.PAGE_LOCK_LOCKED, .PAGE_LOCK_LOCK_GEN] ++ onFam .mgmt [.PAGE_LOCK_LOCKED, .PAGE_LOCK_LOCK_GEN] ++ onFam
      .sec (errFields ++ [.PAGE_LOCK_LOCKED, .PAGE_LOCK_LOCK_GEN]) ++ onFam .guard (errFields ++ fCnt ++ [.GUARD_ELOG_CTRL_LOST,
      .PAGE_LOCK_LOCKED, .PAGE_LOCK_LOCK_GEN]) ++ onFam .lane [.PAGE_LOCK_LOCKED, .PAGE_LOCK_LOCK_GEN] ++ onFam .pwrg
      [.PAGE_LOCK_LOCKED, .PAGE_LOCK_LOCK_GEN] ++ onFam .pwr [.PAGE_LOCK_LOCKED, .PAGE_LOCK_LOCK_GEN] ++ onFam .core
      [.PAGE_LOCK_LOCKED, .PAGE_LOCK_LOCK_GEN] ++ onFam .route [.PAGE_LOCK_LOCKED, .PAGE_LOCK_LOCK_GEN] ++ onFam .bridge
      [.PAGE_LOCK_LOCKED, .PAGE_LOCK_LOCK_GEN] ++ onFam .mbox [.PAGE_LOCK_LOCKED, .PAGE_LOCK_LOCK_GEN] ++ onFam .port
      [.PAGE_LOCK_LOCKED, .PAGE_LOCK_LOCK_GEN] ++ onFam .face (fCnt ++ [.PAGE_LOCK_LOCKED, .PAGE_LOCK_LOCK_GEN]) ++ onFam .schedg
      [.PAGE_LOCK_LOCKED, .PAGE_LOCK_LOCK_GEN] ++ onFam .sched [.PAGE_LOCK_LOCKED, .PAGE_LOCK_LOCK_GEN] ++ onFam .inst
      [.PAGE_LOCK_LOCKED, .PAGE_LOCK_LOCK_GEN] ++ onFam .moverg [.PAGE_LOCK_LOCKED, .PAGE_LOCK_LOCK_GEN] ++ onFam .eng
      [.PAGE_LOCK_LOCKED, .PAGE_LOCK_LOCK_GEN], cnts := [.guard, .face], vars := [.aerStamp, .arbLast, .elogSeq, .msixPend], fifos
      := [.elog, .faceWrote, .viWrote], parts := [.greqs, .out] }

theorem execPageLockWrite_within (st : Stamp) (k : Fin 32) (v : Word) {σ τ : State} (hw : σ.wf) (he : execPageLockWrite st k v σ = .next τ) : Within Foot.execPageLockWrite σ τ := by
  have hF := Foot.le_refl Foot.execPageLockWrite
  refine answer_within ?_ hw he
  clear he hw
  repeat' first
      | ((with_reducible refine granted_in ?_ ?_ _ _ ?_); (· rfl); (· first | exact Foot.le_trans (F := Foot.access .sec) (by decide +kernel) hF); skip)
      | ((with_reducible refine lockMapWrite_in ?_ ..); (· exact Foot.le_trans (Foot.le_of_runs (by decide +kernel)) hF))
      | split
      | dsimp only

def Foot.execTokenClaim : Foot :=
  { regs := onFam .glb [.PAGE_LOCK_LOCKED, .PAGE_LOCK_LOCK_GEN] ++ onFam .mgmt [.PAGE_LOCK_LOCKED, .PAGE_LOCK_LOCK_GEN] ++ onFam
      .sec (errFields ++ fCnt ++ [.PAGE_LOCK_LOCKED, .PAGE_LOCK_LOCK_GEN, .SEC_DEBUG_STATE, .SEC_GRANT_MASK, .SEC_TOKEN_CTRL_GO,
      .SEC_TOKEN_CTRL_STATUS]) ++ onFam .guard (errFields ++ fCnt ++ [.GUARD_ELOG_CTRL_LOST, .PAGE_LOCK_LOCKED,
      .PAGE_LOCK_LOCK_GEN]) ++ onFam .lane [.PAGE_LOCK_LOCKED, .PAGE_LOCK_LOCK_GEN] ++ onFam .pwrg [.PAGE_LOCK_LOCKED,
      .PAGE_LOCK_LOCK_GEN] ++ onFam .pwr [.PAGE_LOCK_LOCKED, .PAGE_LOCK_LOCK_GEN] ++ onFam .core [.PAGE_LOCK_LOCKED,
      .PAGE_LOCK_LOCK_GEN] ++ onFam .route [.PAGE_LOCK_LOCKED, .PAGE_LOCK_LOCK_GEN] ++ onFam .bridge [.PAGE_LOCK_LOCKED,
      .PAGE_LOCK_LOCK_GEN] ++ onFam .mbox [.PAGE_LOCK_LOCKED, .PAGE_LOCK_LOCK_GEN] ++ onFam .port [.PAGE_LOCK_LOCKED,
      .PAGE_LOCK_LOCK_GEN] ++ onFam .face (fCnt ++ [.PAGE_LOCK_LOCKED, .PAGE_LOCK_LOCK_GEN]) ++ onFam .schedg [.PAGE_LOCK_LOCKED,
      .PAGE_LOCK_LOCK_GEN] ++ onFam .sched [.PAGE_LOCK_LOCKED, .PAGE_LOCK_LOCK_GEN] ++ onFam .inst [.PAGE_LOCK_LOCKED,
      .PAGE_LOCK_LOCK_GEN] ++ onFam .moverg [.PAGE_LOCK_LOCKED, .PAGE_LOCK_LOCK_GEN] ++ onFam .eng [.PAGE_LOCK_LOCKED,
      .PAGE_LOCK_LOCK_GEN], cnts := [.sec, .guard, .face], vars := [.aerStamp, .arbLast, .elogSeq, .msixPend, .ownKey, .ownRec,
      .sigStale, .tokRaw, .tokRes, .tokRun], fifos := [.elog, .faceWrote, .viWrote], parts := [.arb, .greqs, .out] }

theorem execTokenClaim_within (st : Stamp) (v : Word) {σ τ : State} (hw : σ.wf) (he : execTokenClaim st v σ = .next τ) : Within Foot.execTokenClaim σ τ := by
  have hF := Foot.le_refl Foot.execTokenClaim
  refine answer_within ?_ hw he
  clear he hw
  repeat' first
      | ((with_reducible refine tokenSubmit_in ?_ ..); (· exact Foot.le_trans (Foot.le_of_runs (by decide +kernel)) hF))
      | split
      | dsimp only

def Foot.execTokenTransfer : Foot :=
  { regs := onFam .glb [.PAGE_LOCK_LOCKED, .PAGE_LOCK_LOCK_GEN] ++ onFam .mgmt [.PAGE_LOCK_LOCKED, .PAGE_LOCK_LOCK_GEN] ++ onFam
      .sec (errFields ++ fCnt ++ [.PAGE_LOCK_LOCKED, .PAGE_LOCK_LOCK_GEN, .SEC_DEBUG_STATE, .SEC_GRANT_MASK, .SEC_TOKEN_CTRL_GO,
      .SEC_TOKEN_CTRL_STATUS]) ++ onFam .guard (errFields ++ fCnt ++ [.GUARD_ELOG_CTRL_LOST, .PAGE_LOCK_LOCKED,
      .PAGE_LOCK_LOCK_GEN]) ++ onFam .lane [.PAGE_LOCK_LOCKED, .PAGE_LOCK_LOCK_GEN] ++ onFam .pwrg [.PAGE_LOCK_LOCKED,
      .PAGE_LOCK_LOCK_GEN] ++ onFam .pwr [.PAGE_LOCK_LOCKED, .PAGE_LOCK_LOCK_GEN] ++ onFam .core [.PAGE_LOCK_LOCKED,
      .PAGE_LOCK_LOCK_GEN] ++ onFam .route [.PAGE_LOCK_LOCKED, .PAGE_LOCK_LOCK_GEN] ++ onFam .bridge [.PAGE_LOCK_LOCKED,
      .PAGE_LOCK_LOCK_GEN] ++ onFam .mbox [.PAGE_LOCK_LOCKED, .PAGE_LOCK_LOCK_GEN] ++ onFam .port [.PAGE_LOCK_LOCKED,
      .PAGE_LOCK_LOCK_GEN] ++ onFam .face (fCnt ++ [.PAGE_LOCK_LOCKED, .PAGE_LOCK_LOCK_GEN]) ++ onFam .schedg [.PAGE_LOCK_LOCKED,
      .PAGE_LOCK_LOCK_GEN] ++ onFam .sched [.PAGE_LOCK_LOCKED, .PAGE_LOCK_LOCK_GEN] ++ onFam .inst [.PAGE_LOCK_LOCKED,
      .PAGE_LOCK_LOCK_GEN] ++ onFam .moverg [.PAGE_LOCK_LOCKED, .PAGE_LOCK_LOCK_GEN] ++ onFam .eng [.PAGE_LOCK_LOCKED,
      .PAGE_LOCK_LOCK_GEN], cnts := [.sec, .guard, .face], vars := [.aerStamp, .arbLast, .elogSeq, .msixPend, .ownKey, .ownRec,
      .sigStale, .tokRaw, .tokRes, .tokRun], fifos := [.elog, .faceWrote, .viWrote], parts := [.arb, .greqs, .out] }

theorem execTokenTransfer_within (st : Stamp) (v : Word) {σ τ : State} (hw : σ.wf) (he : execTokenTransfer st v σ = .next τ) : Within Foot.execTokenTransfer σ τ := by
  have hF := Foot.le_refl Foot.execTokenTransfer
  refine answer_within ?_ hw he
  clear he hw
  repeat' first
      | ((with_reducible refine tokenSubmit_in ?_ ..); (· exact Foot.le_trans (Foot.le_of_runs (by decide +kernel)) hF))
      | split
      | dsimp only

def Foot.execTokenRelease : Foot :=
  { regs := onFam .glb [.PAGE_LOCK_LOCKED, .PAGE_LOCK_LOCK_GEN] ++ onFam .mgmt [.PAGE_LOCK_LOCKED, .PAGE_LOCK_LOCK_GEN] ++ onFam
      .sec (errFields ++ fCnt ++ [.PAGE_LOCK_LOCKED, .PAGE_LOCK_LOCK_GEN, .SEC_DEBUG_STATE, .SEC_GRANT_MASK, .SEC_TOKEN_CTRL_GO,
      .SEC_TOKEN_CTRL_STATUS]) ++ onFam .guard (errFields ++ fCnt ++ [.GUARD_ELOG_CTRL_LOST, .PAGE_LOCK_LOCKED,
      .PAGE_LOCK_LOCK_GEN]) ++ onFam .lane [.PAGE_LOCK_LOCKED, .PAGE_LOCK_LOCK_GEN] ++ onFam .pwrg [.PAGE_LOCK_LOCKED,
      .PAGE_LOCK_LOCK_GEN] ++ onFam .pwr [.PAGE_LOCK_LOCKED, .PAGE_LOCK_LOCK_GEN] ++ onFam .core [.PAGE_LOCK_LOCKED,
      .PAGE_LOCK_LOCK_GEN] ++ onFam .route [.PAGE_LOCK_LOCKED, .PAGE_LOCK_LOCK_GEN] ++ onFam .bridge [.PAGE_LOCK_LOCKED,
      .PAGE_LOCK_LOCK_GEN] ++ onFam .mbox [.PAGE_LOCK_LOCKED, .PAGE_LOCK_LOCK_GEN] ++ onFam .port [.PAGE_LOCK_LOCKED,
      .PAGE_LOCK_LOCK_GEN] ++ onFam .face (fCnt ++ [.PAGE_LOCK_LOCKED, .PAGE_LOCK_LOCK_GEN]) ++ onFam .schedg [.PAGE_LOCK_LOCKED,
      .PAGE_LOCK_LOCK_GEN] ++ onFam .sched [.PAGE_LOCK_LOCKED, .PAGE_LOCK_LOCK_GEN] ++ onFam .inst [.PAGE_LOCK_LOCKED,
      .PAGE_LOCK_LOCK_GEN] ++ onFam .moverg [.PAGE_LOCK_LOCKED, .PAGE_LOCK_LOCK_GEN] ++ onFam .eng [.PAGE_LOCK_LOCKED,
      .PAGE_LOCK_LOCK_GEN], cnts := [.sec, .guard, .face], vars := [.aerStamp, .arbLast, .elogSeq, .msixPend, .ownKey, .ownRec,
      .sigStale, .tokRaw, .tokRes, .tokRun], fifos := [.elog, .faceWrote, .viWrote], parts := [.arb, .greqs, .out] }

theorem execTokenRelease_within (st : Stamp) (v : Word) {σ τ : State} (hw : σ.wf) (he : execTokenRelease st v σ = .next τ) : Within Foot.execTokenRelease σ τ := by
  have hF := Foot.le_refl Foot.execTokenRelease
  refine answer_within ?_ hw he
  clear he hw
  repeat' first
      | ((with_reducible refine tokenSubmit_in ?_ ..); (· exact Foot.le_trans (Foot.le_of_runs (by decide +kernel)) hF))
      | split
      | dsimp only

def Foot.execTokenUnlockPages : Foot :=
  { regs := onFam .glb [.PAGE_LOCK_LOCKED, .PAGE_LOCK_LOCK_GEN] ++ onFam .mgmt [.PAGE_LOCK_LOCKED, .PAGE_LOCK_LOCK_GEN] ++ onFam
      .sec (errFields ++ fCnt ++ [.PAGE_LOCK_LOCKED, .PAGE_LOCK_LOCK_GEN, .SEC_DEBUG_STATE, .SEC_GRANT_MASK, .SEC_TOKEN_CTRL_GO,
      .SEC_TOKEN_CTRL_STATUS]) ++ onFam .guard (errFields ++ fCnt ++ [.GUARD_ELOG_CTRL_LOST, .PAGE_LOCK_LOCKED,
      .PAGE_LOCK_LOCK_GEN]) ++ onFam .lane [.PAGE_LOCK_LOCKED, .PAGE_LOCK_LOCK_GEN] ++ onFam .pwrg [.PAGE_LOCK_LOCKED,
      .PAGE_LOCK_LOCK_GEN] ++ onFam .pwr [.PAGE_LOCK_LOCKED, .PAGE_LOCK_LOCK_GEN] ++ onFam .core [.PAGE_LOCK_LOCKED,
      .PAGE_LOCK_LOCK_GEN] ++ onFam .route [.PAGE_LOCK_LOCKED, .PAGE_LOCK_LOCK_GEN] ++ onFam .bridge [.PAGE_LOCK_LOCKED,
      .PAGE_LOCK_LOCK_GEN] ++ onFam .mbox [.PAGE_LOCK_LOCKED, .PAGE_LOCK_LOCK_GEN] ++ onFam .port [.PAGE_LOCK_LOCKED,
      .PAGE_LOCK_LOCK_GEN] ++ onFam .face (fCnt ++ [.PAGE_LOCK_LOCKED, .PAGE_LOCK_LOCK_GEN]) ++ onFam .schedg [.PAGE_LOCK_LOCKED,
      .PAGE_LOCK_LOCK_GEN] ++ onFam .sched [.PAGE_LOCK_LOCKED, .PAGE_LOCK_LOCK_GEN] ++ onFam .inst [.PAGE_LOCK_LOCKED,
      .PAGE_LOCK_LOCK_GEN] ++ onFam .moverg [.PAGE_LOCK_LOCKED, .PAGE_LOCK_LOCK_GEN] ++ onFam .eng [.PAGE_LOCK_LOCKED,
      .PAGE_LOCK_LOCK_GEN], cnts := [.sec, .guard, .face], vars := [.aerStamp, .arbLast, .elogSeq, .msixPend, .ownKey, .ownRec,
      .sigStale, .tokRaw, .tokRes, .tokRun], fifos := [.elog, .faceWrote, .viWrote], parts := [.arb, .greqs, .out] }

theorem execTokenUnlockPages_within (st : Stamp) (v : Word) {σ τ : State} (hw : σ.wf) (he : execTokenUnlockPages st v σ = .next τ) : Within Foot.execTokenUnlockPages σ τ := by
  have hF := Foot.le_refl Foot.execTokenUnlockPages
  refine answer_within ?_ hw he
  clear he hw
  repeat' first
      | ((with_reducible refine tokenSubmit_in ?_ ..); (· exact Foot.le_trans (Foot.le_of_runs (by decide +kernel)) hF))
      | split
      | dsimp only

def Foot.execTokenGrant : Foot :=
  { regs := onFam .glb [.PAGE_LOCK_LOCKED, .PAGE_LOCK_LOCK_GEN] ++ onFam .mgmt [.PAGE_LOCK_LOCKED, .PAGE_LOCK_LOCK_GEN] ++ onFam
      .sec (errFields ++ fCnt ++ [.PAGE_LOCK_LOCKED, .PAGE_LOCK_LOCK_GEN, .SEC_DEBUG_STATE, .SEC_GRANT_MASK, .SEC_TOKEN_CTRL_GO,
      .SEC_TOKEN_CTRL_STATUS]) ++ onFam .guard (errFields ++ fCnt ++ [.GUARD_ELOG_CTRL_LOST, .PAGE_LOCK_LOCKED,
      .PAGE_LOCK_LOCK_GEN]) ++ onFam .lane [.PAGE_LOCK_LOCKED, .PAGE_LOCK_LOCK_GEN] ++ onFam .pwrg [.PAGE_LOCK_LOCKED,
      .PAGE_LOCK_LOCK_GEN] ++ onFam .pwr [.PAGE_LOCK_LOCKED, .PAGE_LOCK_LOCK_GEN] ++ onFam .core [.PAGE_LOCK_LOCKED,
      .PAGE_LOCK_LOCK_GEN] ++ onFam .route [.PAGE_LOCK_LOCKED, .PAGE_LOCK_LOCK_GEN] ++ onFam .bridge [.PAGE_LOCK_LOCKED,
      .PAGE_LOCK_LOCK_GEN] ++ onFam .mbox [.PAGE_LOCK_LOCKED, .PAGE_LOCK_LOCK_GEN] ++ onFam .port [.PAGE_LOCK_LOCKED,
      .PAGE_LOCK_LOCK_GEN] ++ onFam .face (fCnt ++ [.PAGE_LOCK_LOCKED, .PAGE_LOCK_LOCK_GEN]) ++ onFam .schedg [.PAGE_LOCK_LOCKED,
      .PAGE_LOCK_LOCK_GEN] ++ onFam .sched [.PAGE_LOCK_LOCKED, .PAGE_LOCK_LOCK_GEN] ++ onFam .inst [.PAGE_LOCK_LOCKED,
      .PAGE_LOCK_LOCK_GEN] ++ onFam .moverg [.PAGE_LOCK_LOCKED, .PAGE_LOCK_LOCK_GEN] ++ onFam .eng [.PAGE_LOCK_LOCKED,
      .PAGE_LOCK_LOCK_GEN], cnts := [.sec, .guard, .face], vars := [.aerStamp, .arbLast, .elogSeq, .msixPend, .ownKey, .ownRec,
      .sigStale, .tokRaw, .tokRes, .tokRun], fifos := [.elog, .faceWrote, .viWrote], parts := [.arb, .greqs, .out] }

theorem execTokenGrant_within (st : Stamp) (v : Word) {σ τ : State} (hw : σ.wf) (he : execTokenGrant st v σ = .next τ) : Within Foot.execTokenGrant σ τ := by
  have hF := Foot.le_refl Foot.execTokenGrant
  refine answer_within ?_ hw he
  clear he hw
  repeat' first
      | ((with_reducible refine tokenSubmit_in ?_ ..); (· exact Foot.le_trans (Foot.le_of_runs (by decide +kernel)) hF))
      | split
      | dsimp only

def Foot.execTokenArbAdvance : Foot :=
  { regs := onFam .glb [.PAGE_LOCK_LOCKED, .PAGE_LOCK_LOCK_GEN] ++ onFam .mgmt [.PAGE_LOCK_LOCKED, .PAGE_LOCK_LOCK_GEN] ++ onFam
      .sec (errFields ++ fCnt ++ [.PAGE_LOCK_LOCKED, .PAGE_LOCK_LOCK_GEN, .SEC_DEBUG_STATE, .SEC_GRANT_MASK, .SEC_TOKEN_CTRL_GO,
      .SEC_TOKEN_CTRL_STATUS]) ++ onFam .guard (errFields ++ fCnt ++ [.GUARD_ELOG_CTRL_LOST, .PAGE_LOCK_LOCKED,
      .PAGE_LOCK_LOCK_GEN]) ++ onFam .lane [.PAGE_LOCK_LOCKED, .PAGE_LOCK_LOCK_GEN] ++ onFam .pwrg [.PAGE_LOCK_LOCKED,
      .PAGE_LOCK_LOCK_GEN] ++ onFam .pwr [.PAGE_LOCK_LOCKED, .PAGE_LOCK_LOCK_GEN] ++ onFam .core [.PAGE_LOCK_LOCKED,
      .PAGE_LOCK_LOCK_GEN] ++ onFam .route [.PAGE_LOCK_LOCKED, .PAGE_LOCK_LOCK_GEN] ++ onFam .bridge [.PAGE_LOCK_LOCKED,
      .PAGE_LOCK_LOCK_GEN] ++ onFam .mbox [.PAGE_LOCK_LOCKED, .PAGE_LOCK_LOCK_GEN] ++ onFam .port [.PAGE_LOCK_LOCKED,
      .PAGE_LOCK_LOCK_GEN] ++ onFam .face (fCnt ++ [.PAGE_LOCK_LOCKED, .PAGE_LOCK_LOCK_GEN]) ++ onFam .schedg [.PAGE_LOCK_LOCKED,
      .PAGE_LOCK_LOCK_GEN] ++ onFam .sched [.PAGE_LOCK_LOCKED, .PAGE_LOCK_LOCK_GEN] ++ onFam .inst [.PAGE_LOCK_LOCKED,
      .PAGE_LOCK_LOCK_GEN] ++ onFam .moverg [.PAGE_LOCK_LOCKED, .PAGE_LOCK_LOCK_GEN] ++ onFam .eng [.PAGE_LOCK_LOCKED,
      .PAGE_LOCK_LOCK_GEN], cnts := [.sec, .guard, .face], vars := [.aerStamp, .arbLast, .elogSeq, .msixPend, .ownKey, .ownRec,
      .sigStale, .tokRaw, .tokRes, .tokRun], fifos := [.elog, .faceWrote, .viWrote], parts := [.arb, .greqs, .out] }

theorem execTokenArbAdvance_within (st : Stamp) (v : Word) {σ τ : State} (hw : σ.wf) (he : execTokenArbAdvance st v σ = .next τ) : Within Foot.execTokenArbAdvance σ τ := by
  have hF := Foot.le_refl Foot.execTokenArbAdvance
  refine answer_within ?_ hw he
  clear he hw
  repeat' first
      | ((with_reducible refine tokenSubmit_in ?_ ..); (· exact Foot.le_trans (Foot.le_of_runs (by decide +kernel)) hF))
      | split
      | dsimp only

def Foot.execTokenDebugUnlock : Foot :=
  { regs := onFam .glb [.PAGE_LOCK_LOCKED, .PAGE_LOCK_LOCK_GEN] ++ onFam .mgmt [.PAGE_LOCK_LOCKED, .PAGE_LOCK_LOCK_GEN] ++ onFam
      .sec (errFields ++ fCnt ++ [.PAGE_LOCK_LOCKED, .PAGE_LOCK_LOCK_GEN, .SEC_DEBUG_STATE, .SEC_GRANT_MASK, .SEC_TOKEN_CTRL_GO,
      .SEC_TOKEN_CTRL_STATUS]) ++ onFam .guard (errFields ++ fCnt ++ [.GUARD_ELOG_CTRL_LOST, .PAGE_LOCK_LOCKED,
      .PAGE_LOCK_LOCK_GEN]) ++ onFam .lane [.PAGE_LOCK_LOCKED, .PAGE_LOCK_LOCK_GEN] ++ onFam .pwrg [.PAGE_LOCK_LOCKED,
      .PAGE_LOCK_LOCK_GEN] ++ onFam .pwr [.PAGE_LOCK_LOCKED, .PAGE_LOCK_LOCK_GEN] ++ onFam .core [.PAGE_LOCK_LOCKED,
      .PAGE_LOCK_LOCK_GEN] ++ onFam .route [.PAGE_LOCK_LOCKED, .PAGE_LOCK_LOCK_GEN] ++ onFam .bridge [.PAGE_LOCK_LOCKED,
      .PAGE_LOCK_LOCK_GEN] ++ onFam .mbox [.PAGE_LOCK_LOCKED, .PAGE_LOCK_LOCK_GEN] ++ onFam .port [.PAGE_LOCK_LOCKED,
      .PAGE_LOCK_LOCK_GEN] ++ onFam .face (fCnt ++ [.PAGE_LOCK_LOCKED, .PAGE_LOCK_LOCK_GEN]) ++ onFam .schedg [.PAGE_LOCK_LOCKED,
      .PAGE_LOCK_LOCK_GEN] ++ onFam .sched [.PAGE_LOCK_LOCKED, .PAGE_LOCK_LOCK_GEN] ++ onFam .inst [.PAGE_LOCK_LOCKED,
      .PAGE_LOCK_LOCK_GEN] ++ onFam .moverg [.PAGE_LOCK_LOCKED, .PAGE_LOCK_LOCK_GEN] ++ onFam .eng [.PAGE_LOCK_LOCKED,
      .PAGE_LOCK_LOCK_GEN], cnts := [.sec, .guard, .face], vars := [.aerStamp, .arbLast, .elogSeq, .msixPend, .ownKey, .ownRec,
      .sigStale, .tokRaw, .tokRes, .tokRun], fifos := [.elog, .faceWrote, .viWrote], parts := [.arb, .greqs, .out] }

theorem execTokenDebugUnlock_within (st : Stamp) (v : Word) {σ τ : State} (hw : σ.wf) (he : execTokenDebugUnlock st v σ = .next τ) : Within Foot.execTokenDebugUnlock σ τ := by
  have hF := Foot.le_refl Foot.execTokenDebugUnlock
  refine answer_within ?_ hw he
  clear he hw
  repeat' first
      | ((with_reducible refine tokenSubmit_in ?_ ..); (· exact Foot.le_trans (Foot.le_of_runs (by decide +kernel)) hF))
      | split
      | dsimp only

def Foot.execTokenFinished : Foot :=
  { regs := onFam .glb [.PAGE_LOCK_LOCKED, .PAGE_LOCK_LOCK_GEN] ++ onFam .mgmt [.PAGE_LOCK_LOCKED, .PAGE_LOCK_LOCK_GEN] ++ onFam
      .sec (errFields ++ fCnt ++ [.PAGE_LOCK_LOCKED, .PAGE_LOCK_LOCK_GEN, .SEC_DEBUG_STATE, .SEC_GRANT_MASK, .SEC_NONCE_DW,
      .SEC_TOKEN_CTRL_GO, .SEC_TOKEN_CTRL_OP, .SEC_TOKEN_CTRL_STATUS]) ++ onFam .guard (errFields ++ fCnt ++
      [.GUARD_ELOG_CTRL_LOST, .PAGE_LOCK_LOCKED, .PAGE_LOCK_LOCK_GEN]) ++ onFam .lane [.PAGE_LOCK_LOCKED, .PAGE_LOCK_LOCK_GEN] ++
      onFam .pwrg [.PAGE_LOCK_LOCKED, .PAGE_LOCK_LOCK_GEN] ++ onFam .pwr [.PAGE_LOCK_LOCKED, .PAGE_LOCK_LOCK_GEN] ++ onFam .core
      [.PAGE_LOCK_LOCKED, .PAGE_LOCK_LOCK_GEN] ++ onFam .route [.PAGE_LOCK_LOCKED, .PAGE_LOCK_LOCK_GEN] ++ onFam .bridge
      [.PAGE_LOCK_LOCKED, .PAGE_LOCK_LOCK_GEN] ++ onFam .mbox [.PAGE_LOCK_LOCKED, .PAGE_LOCK_LOCK_GEN] ++ onFam .port
      [.PAGE_LOCK_LOCKED, .PAGE_LOCK_LOCK_GEN] ++ onFam .face (fCnt ++ [.PAGE_LOCK_LOCKED, .PAGE_LOCK_LOCK_GEN]) ++ onFam .schedg
      [.PAGE_LOCK_LOCKED, .PAGE_LOCK_LOCK_GEN] ++ onFam .sched [.PAGE_LOCK_LOCKED, .PAGE_LOCK_LOCK_GEN] ++ onFam .inst
      [.PAGE_LOCK_LOCKED, .PAGE_LOCK_LOCK_GEN] ++ onFam .moverg [.PAGE_LOCK_LOCKED, .PAGE_LOCK_LOCK_GEN] ++ onFam .eng
      [.PAGE_LOCK_LOCKED, .PAGE_LOCK_LOCK_GEN], cnts := [.sec, .guard, .face], vars := [.elogSeq, .msixPend, .ownKey, .ownRec,
      .sigStale, .tokRaw, .tokRes, .tokRun], fifos := [.elog, .faceWrote, .viWrote], parts := [.arb, .free, .greqs, .out] }

theorem execTokenFinished_within  {σ τ : State} (hw : σ.wf) (he : execTokenFinished σ = .next τ) : Within Foot.execTokenFinished σ τ := by
  have hF := Foot.le_refl Foot.execTokenFinished
  refine answer_within ?_ hw he
  clear he hw
  repeat' first
      | (with_reducible first | exact all_nil_in | refine all_cons_in ?_ ?_ | refine look_in fun _ => ?_ | refine when_in ?_ | refine ite_in ?_ ?_)
      | ((with_reducible refine put_in ?_); (· exact le_vars hF (by decide +kernel)))
      | ((with_reducible refine wrSt_in ?_ ?_); (· first | exact hdr_mem rfl (by decide +kernel) | exact own_mem (show _ ∈ tabSEC0 by decide +kernel)); (· first | exact le_regs hF (show (Fam.face, _) ∈ _ by decide +kernel) | exact le_regs hF (show (Fam.sec, _) ∈ _ by decide +kernel)))
      | ((with_reducible refine bump_in ?_ ?_ ..); (· rfl); (· first | exact Foot.le_trans (F := Foot.counting .sec) (by decide +kernel) hF))
      | ((with_reducible refine newNonce_in ?_ ..); (· exact Foot.le_trans (Foot.le_of_runs (by decide +kernel)) hF))
      | ((with_reducible refine tokenProcess_in ?_ ..); (· exact Foot.le_trans (Foot.le_of_runs (by decide +kernel)) hF))
      | ((with_reducible refine tokenRefused_in ?_ ..); (· exact Foot.le_trans (Foot.le_of_runs (by decide +kernel)) hF))
      | split
      | dsimp only

def Foot.execSpdmRequest : Foot :=
  { regs := onFam .mgmt fCnt ++ onFam .sec (errFields ++ fCnt) ++ onFam .guard (errFields ++ fCnt ++ [.GUARD_ELOG_CTRL_LOST]) ++
      onFam .face fCnt, cnts := [.mgmt, .sec, .guard, .face], vars := [.elogSeq, .msixPend, .spdmSess, .spdmShake], fifos :=
      [.elog, .faceWrote, .viWrote], parts := [.greqs, .out] }

theorem execSpdmRequest_within (ch : DoeOrMctp) (r : SpdmReq) {σ τ : State} (hw : σ.wf) (he : execSpdmRequest ch r σ = .next τ) : Within Foot.execSpdmRequest σ τ := by
  have hF := Foot.le_refl Foot.execSpdmRequest
  refine answer_within ?_ hw he
  clear he hw
  repeat' first
      | (with_reducible first | exact all_nil_in | refine all_cons_in ?_ ?_ | refine look_in fun _ => ?_ | refine ite_in ?_ ?_)
      | ((with_reducible refine put_in ?_); (· exact le_vars hF (by decide +kernel)))
      | ((with_reducible refine modIv_in ?_); (· exact le_vars hF (by decide +kernel)))
      | ((with_reducible refine bump_in ?_ ?_ ..); (· rfl); (· first | exact Foot.le_trans (F := Foot.counting .sec) (by decide +kernel) hF))
      | ((with_reducible refine spdmAnswer_in ?_ ..); (· exact Foot.le_trans (Foot.le_of_runs (by decide +kernel)) hF))
      | ((with_reducible refine spdmRefuse_in ?_ ..); (· exact Foot.le_trans (Foot.le_of_runs (by decide +kernel)) hF))
      | ((with_reducible refine throughFirmware_in ?_ _ _ (?_)); (· exact Foot.le_trans (Foot.le_of_runs (by decide +kernel)) hF); skip)
      | split
      | dsimp only

def Foot.execIdeKmRequest : Foot :=
  { regs := onFam .mgmt fCnt ++ onFam .sec (errFields ++ [.SEC_IDE_STAT_LINK_ID, .SEC_IDE_STAT_LINK_KSET, .SEC_IDE_STAT_LINK_SECURE,
      .SEC_IDE_STAT_SEL_SECURE, .SEC_IDE_STAT_SEL_VALID]) ++ onFam .guard (errFields ++ fCnt ++ [.GUARD_ELOG_CTRL_LOST]) ++ onFam
      .face fCnt, cnts := [.mgmt, .guard, .face], vars := [.elogSeq, .ideGo, .ideKey, .msixPend], fifos := [.elog, .faceWrote,
      .viWrote], parts := [.greqs, .out] }

theorem execIdeKmRequest_within (ch : DoeOrMctp) (m : IdeKm) {σ τ : State} (hw : σ.wf) (he : execIdeKmRequest ch m σ = .next τ) : Within Foot.execIdeKmRequest σ τ := by
  have hF := Foot.le_refl Foot.execIdeKmRequest
  refine answer_within ?_ hw he
  clear he hw
  repeat' first
      | (with_reducible first | exact all_nil_in | refine all_cons_in ?_ ?_ | refine look_in fun _ => ?_ | refine when_in ?_ | refine ite_in ?_ ?_)
      | ((with_reducible refine put_in ?_); (· exact le_vars hF (by decide +kernel)))
      | ((with_reducible refine wr_in ?_ ?_); (· first | exact own_mem (show _ ∈ tabSEC1 by decide +kernel)); (· first | exact le_regs hF (show (Fam.sec, _) ∈ _ by decide +kernel)))
      | ((with_reducible refine ideInsecure_in ?_ ..); (· exact Foot.le_trans (Foot.le_of_runs (by decide +kernel)) hF))
      | ((with_reducible refine ideSecure_in ?_ ..); (· exact Foot.le_trans (Foot.le_of_runs (by decide +kernel)) hF))
      | ((with_reducible refine inSession_in ?_ _ _ (fun _ => ?_)); (· exact Foot.le_trans (Foot.le_of_runs (by decide +kernel)) hF); skip)
      | ((with_reducible refine spdmAnswer_in ?_ ..); (· exact Foot.le_trans (Foot.le_of_runs (by decide +kernel)) hF))
      | ((with_reducible refine spdmRefuse_in ?_ ..); (· exact Foot.le_trans (Foot.le_of_runs (by decide +kernel)) hF))
      | split
      | dsimp only

def Foot.execDeviceAuthDone : Foot :=
  { regs := onFam .sec (errFields ++ [.SEC_IDE_STAT_DEV_AUTH, .SEC_IDE_STAT_LINK_ID, .SEC_IDE_STAT_LINK_KSET,
      .SEC_IDE_STAT_LINK_SECURE, .SEC_IDE_STAT_SEL_SECURE]) ++ onFam .guard (errFields ++ fCnt ++ [.GUARD_ELOG_CTRL_LOST]) ++
      onFam .face fCnt, cnts := [.guard, .face], vars := [.elogSeq, .ideGo, .ideKey, .msixPend], fifos := [.elog, .faceWrote,
      .viWrote], parts := [.free, .greqs, .out] }

theorem execDeviceAuthDone_within (p : PortId) (chainOk : Bool) (root : Nat) {σ τ : State} (hw : σ.wf) (he : execDeviceAuthDone p chainOk root σ = .next τ) : Within Foot.execDeviceAuthDone σ τ := by
  have hF := Foot.le_refl Foot.execDeviceAuthDone
  refine answer_within ?_ hw he
  clear he hw
  repeat' first
      | (with_reducible first | exact all_nil_in | refine all_cons_in ?_ ?_ | refine look_in fun _ => ?_ | refine when_in ?_ | refine ite_in ?_ ?_)
      | ((with_reducible refine put_in ?_); (· exact le_vars hF (by decide +kernel)))
      | ((with_reducible refine wr_in ?_ ?_); (· first | exact hdr_mem rfl (by decide +kernel) | exact own_mem (show _ ∈ tabGUARD0 by decide +kernel) | exact own_mem (show _ ∈ tabSEC1 by decide +kernel)); (· first | exact le_regs hF (show (Fam.face, _) ∈ _ by decide +kernel) | exact le_regs hF (show (Fam.guard, _) ∈ _ by decide +kernel) | exact le_regs hF (show (Fam.sec, _) ∈ _ by decide +kernel)))
      | ((with_reducible refine raiseIn_in ?_ ?_ ..); (· rfl); (· first | exact Foot.le_trans (F := Foot.error .sec) (by decide +kernel) hF))
      | ((with_reducible refine drawWord_in ?_ fun _ => ?_); (· exact le_parts hF (by decide +kernel)); skip)
      | ((with_reducible refine ideSecure_in ?_ ..); (· exact Foot.le_trans (Foot.le_of_runs (by decide +kernel)) hF))
      | split
      | dsimp only

def Foot.execLinkRekey : Foot :=
  { regs := onFam .sec (errFields ++ [.SEC_LINK_STAT_REKEY]) ++ onFam .guard (errFields ++ fCnt ++ [.GUARD_ELOG_CTRL_LOST]) ++ onFam
      .face fCnt, cnts := [.guard, .face], vars := [.aerStamp, .arbLast, .elogSeq, .msixPend, .rekeying], fifos := [.elog,
      .faceWrote, .viWrote], parts := [.free, .greqs, .out] }

theorem execLinkRekey_within (p : PortId) (w : Option (Stamp × Word)) {σ τ : State} (hw : σ.wf) (he : execLinkRekey p w σ = .next τ) : Within Foot.execLinkRekey σ τ := by
  have hF := Foot.le_refl Foot.execLinkRekey
  refine answer_within ?_ hw he
  clear he hw
  repeat' first
      | (with_reducible first | refine look_in fun _ => ?_ | refine when_in ?_)
      | ((with_reducible refine granted_in ?_ ?_ _ _ ?_); (· rfl); (· first | exact Foot.le_trans (F := Foot.access .sec) (by decide +kernel) hF); skip)
      | ((with_reducible refine linkStatWrite_in ?_ ..); (· exact Foot.le_trans (Foot.le_of_runs (by decide +kernel)) hF))
      | ((with_reducible refine rekeyStart_in ?_ ..); (· exact Foot.le_trans (Foot.le_of_runs (by decide +kernel)) hF))
      | split
      | dsimp only

def Foot.execRekeyTimeout : Foot :=
  { regs := onFam .sec (errFields ++ [.SEC_LINK_STAT_REKEY]) ++ onFam .guard (errFields ++ fCnt ++ [.GUARD_ELOG_CTRL_LOST]) ++ onFam
      .face fCnt, cnts := [.guard, .face], vars := [.elogSeq, .msixPend, .rekeying], fifos := [.elog, .faceWrote, .viWrote], parts
      := [.greqs, .out] }

theorem execRekeyTimeout_within (p : PortId) {σ τ : State} (hw : σ.wf) (he : execRekeyTimeout p σ = .next τ) : Within Foot.execRekeyTimeout σ τ := by
  have hF := Foot.le_refl Foot.execRekeyTimeout
  refine answer_within ?_ hw he
  clear he hw
  repeat' first
      | (with_reducible first | exact all_nil_in | refine all_cons_in ?_ ?_ | refine look_in fun _ => ?_ | refine when_in ?_)
      | ((with_reducible refine put_in ?_); (· exact le_vars hF (by decide +kernel)))
      | ((with_reducible refine wr_in ?_ ?_); (· first | exact hdr_mem rfl (by decide +kernel) | exact own_mem (show _ ∈ tabGUARD0 by decide +kernel) | exact own_mem (show _ ∈ tabSEC2 by decide +kernel)); (· first | exact le_regs hF (show (Fam.face, _) ∈ _ by decide +kernel) | exact le_regs hF (show (Fam.guard, _) ∈ _ by decide +kernel) | exact le_regs hF (show (Fam.sec, _) ∈ _ by decide +kernel)))
      | ((with_reducible refine raiseIn_in ?_ ?_ ..); (· rfl); (· first | exact Foot.le_trans (F := Foot.error .sec) (by decide +kernel) hF))
      | split
      | dsimp only

def Foot.execDebugRelock : Foot :=
  { regs := onFam .sec (errFields ++ [.SEC_DEBUG_STATE]) ++ onFam .guard (errFields ++ fCnt ++ [.GUARD_ELOG_CTRL_LOST]) ++ onFam
      .face fCnt, cnts := [.guard, .face], vars := [.aerStamp, .arbLast, .elogSeq, .msixPend], fifos := [.elog, .faceWrote,
      .viWrote], parts := [.greqs, .out] }

theorem execDebugRelock_within (st : Stamp) (v : Word) {σ τ : State} (hw : σ.wf) (he : execDebugRelock st v σ = .next τ) : Within Foot.execDebugRelock σ τ := by
  have hF := Foot.le_refl Foot.execDebugRelock
  refine answer_within ?_ hw he
  clear he hw
  repeat' first
      | ((with_reducible refine granted_in ?_ ?_ _ _ ?_); (· rfl); (· first | exact Foot.le_trans (F := Foot.access .sec) (by decide +kernel) hF); skip)
      | ((with_reducible refine debugWrite_in ?_ ..); (· exact Foot.le_trans (Foot.le_of_runs (by decide +kernel)) hF))
      | split
      | dsimp only

end Sys2Proof.Machine
end

