-- ==== Sys2Proof/Laws/ExecSideband.lean ====
section
/-! SUPPORT. What each command of Machine/Sideband.lean may touch. -/

namespace Sys2Proof.Machine

set_option Elab.async false
set_option linter.unusedTactic false
set_option linter.unreachableTactic false

def Foot.execRemoteRead : Foot :=
  { regs := onFam .mgmt fCnt ++ onFam .guard (errFields ++ fCnt ++ [.GUARD_ELOG_CTRL_LOST]) ++ onFam .core (fCnt ++
      [.CORE_WM_STAT_WM_CROSS_CNT, .CORE_WM_STAT_WM_EVENT, .CORE_WM_STAT_WM_LEVEL]) ++ onFam .route (errFields ++ fCnt) ++ onFam
      .bridge (errFields ++ fCnt ++ [.BRIDGE_LOCK_STAT_HOLDER, .BRIDGE_LOCK_STAT_LOCKED, .BRIDGE_PROOF_WM_STAT_WM_CROSS_CNT,
      .BRIDGE_PROOF_WM_STAT_WM_EVENT, .BRIDGE_PROOF_WM_STAT_WM_LEVEL]) ++ onFam .face fCnt ++ onFam .schedg fCnt, cnts := [.mgmt,
      .guard, .core, .route, .bridge, .face, .schedg], vars := [.cbsAt, .cbsCr, .elogSeq, .msixPend, .pktId, .polAt, .polC, .polP,
      .redAvg, .remoteId, .stipCnt, .stipSeq], fifos := [.elog, .faceWrote, .missLog, .remotes, .viWrote], parts := [.buf, .free,
      .greqs, .out, .streams, .waiting] }

theorem execRemoteRead_within (k : Fin 4) (sw : SwId) (a : SpaceAddr) {σ τ : State} (hw : σ.wf) (he : execRemoteRead k sw a σ = .next τ) : Within Foot.execRemoteRead σ τ := by
  have hF := Foot.le_refl Foot.execRemoteRead
  refine answer_within ?_ hw he
  clear he hw
  repeat' first
      | ((with_reducible refine remoteSend_in ?_ ..); (· exact Foot.le_trans (Foot.le_of_runs (by decide +kernel)) hF))
      | ((with_reducible refine stoux_in ?_ _ _ _ (?_)); (· exact Foot.le_trans (Foot.le_of_runs (by decide +kernel)) hF); skip)
      | split
      | dsimp only

def Foot.execRemoteWrite : Foot :=
  { regs := onFam .mgmt fCnt ++ onFam .guard (errFields ++ fCnt ++ [.GUARD_ELOG_CTRL_LOST]) ++ onFam .core (fCnt ++
      [.CORE_WM_STAT_WM_CROSS_CNT, .CORE_WM_STAT_WM_EVENT, .CORE_WM_STAT_WM_LEVEL]) ++ onFam .route (errFields ++ fCnt) ++ onFam
      .bridge (errFields ++ fCnt ++ [.BRIDGE_LOCK_STAT_HOLDER, .BRIDGE_LOCK_STAT_LOCKED, .BRIDGE_PROOF_WM_STAT_WM_CROSS_CNT,
      .BRIDGE_PROOF_WM_STAT_WM_EVENT, .BRIDGE_PROOF_WM_STAT_WM_LEVEL]) ++ onFam .face fCnt ++ onFam .schedg fCnt, cnts := [.mgmt,
      .guard, .core, .route, .bridge, .face, .schedg], vars := [.cbsAt, .cbsCr, .elogSeq, .msixPend, .pktId, .polAt, .polC, .polP,
      .redAvg, .remoteId, .stipCnt, .stipSeq], fifos := [.elog, .faceWrote, .missLog, .remotes, .viWrote], parts := [.buf, .free,
      .greqs, .out, .streams, .waiting] }

theorem execRemoteWrite_within (k : Fin 4) (sw : SwId) (a : SpaceAddr) (v : Word) {σ τ : State} (hw : σ.wf) (he : execRemoteWrite k sw a v σ = .next τ) : Within Foot.execRemoteWrite σ τ := by
  have hF := Foot.le_refl Foot.execRemoteWrite
  refine answer_within ?_ hw he
  clear he hw
  repeat' first
      | ((with_reducible refine remoteSend_in ?_ ..); (· exact Foot.le_trans (Foot.le_of_runs (by decide +kernel)) hF))
      | ((with_reducible refine stoux_in ?_ _ _ _ (?_)); (· exact Foot.le_trans (Foot.le_of_runs (by decide +kernel)) hF); skip)
      | split
      | dsimp only

def Foot.execRemoteResponseReceived : Foot :=
  { fifos := [.remotes], parts := [.out] }

theorem execRemoteResponseReceived_within (status : Fin 6) (v : Word) (id : BitVec 16) {σ τ : State} (hw : σ.wf) (he : execRemoteResponseReceived status v id σ = .next τ) : Within Foot.execRemoteResponseReceived σ τ := by
  have hF := Foot.le_refl Foot.execRemoteResponseReceived
  refine answer_within ?_ hw he
  clear he hw
  repeat' first
      | ((with_reducible refine remoteEnds_in ?_ ..); (· exact Foot.le_trans (Foot.le_of_runs (by decide +kernel)) hF))
      | split
      | dsimp only

def Foot.execRemoteTimeout : Foot :=
  { fifos := [.remotes], parts := [.out] }

theorem execRemoteTimeout_within (id : BitVec 16) {σ τ : State} (hw : σ.wf) (he : execRemoteTimeout id σ = .next τ) : Within Foot.execRemoteTimeout σ τ := by
  have hF := Foot.le_refl Foot.execRemoteTimeout
  refine answer_within ?_ hw he
  clear he hw
  repeat' first
      | ((with_reducible refine remoteEnds_in ?_ ..); (· exact Foot.le_trans (Foot.le_of_runs (by decide +kernel)) hF))
      | split
      | dsimp only

end Sys2Proof.Machine
end

