-- ==== Sys2Proof/Laws/ExecSwitch.lean ====
section
/-! SUPPORT. What each command of Machine/Switch.lean may touch. -/

namespace Sys2Proof.Machine

set_option Elab.async false
set_option linter.unusedTactic false
set_option linter.unreachableTactic false

def Foot.execMcGroupStage : Foot :=
  { regs := onFam .guard (errFields ++ fCnt ++ [.GUARD_ELOG_CTRL_LOST]) ++ onFam .core errFields ++ onFam .face fCnt, cnts :=
      [.guard, .face], vars := [.aerStamp, .arbLast, .elogSeq, .mcAt, .mcDw, .mcHas, .msixPend], fifos := [.elog, .faceWrote,
      .viWrote], parts := [.greqs, .out] }

theorem execMcGroupStage_within (st : Stamp) (d : Fin 4) (v : Word) {σ τ : State} (hw : σ.wf) (he : execMcGroupStage st d v σ = .next τ) : Within Foot.execMcGroupStage σ τ := by
  have hF := Foot.le_refl Foot.execMcGroupStage
  refine answer_within ?_ hw he
  clear he hw
  repeat' first
      | ((with_reducible refine granted_in ?_ ?_ _ _ ?_); (· rfl); (· first | exact Foot.le_trans (F := Foot.access .core) (by decide +kernel) hF); skip)
      | ((with_reducible refine mcGroupStage_in ?_ ..); (· exact Foot.le_trans (Foot.le_of_runs (by decide +kernel)) hF))
      | split
      | dsimp only

def Foot.execMcGroupCommit : Foot :=
  { regs := onFam .guard (errFields ++ fCnt ++ [.GUARD_ELOG_CTRL_LOST]) ++ onFam .core (errFields ++ [.CORE_MC_SEL_GO,
      .CORE_MC_SEL_GROUP]) ++ onFam .face fCnt, cnts := [.guard, .face], vars := [.aerStamp, .arbLast, .elogSeq, .mcCtl, .mcHas,
      .mcMembers, .msixPend], fifos := [.elog, .faceWrote, .viWrote], parts := [.greqs, .out] }

theorem execMcGroupCommit_within (st : Stamp) (v : Word) {σ τ : State} (hw : σ.wf) (he : execMcGroupCommit st v σ = .next τ) : Within Foot.execMcGroupCommit σ τ := by
  have hF := Foot.le_refl Foot.execMcGroupCommit
  refine answer_within ?_ hw he
  clear he hw
  repeat' first
      | ((with_reducible refine granted_in ?_ ?_ _ _ ?_); (· rfl); (· first | exact Foot.le_trans (F := Foot.access .core) (by decide +kernel) hF); skip)
      | ((with_reducible refine mcSelWrite_in ?_ ..); (· exact Foot.le_trans (Foot.le_of_runs (by decide +kernel)) hF))
      | split
      | dsimp only

def Foot.execCellEccError : Foot :=
  { regs := onFam .guard (errFields ++ fCnt ++ [.GUARD_ELOG_CTRL_LOST]) ++ onFam .core (errFields ++ fCnt ++
      [.CORE_WM_STAT_WM_CROSS_CNT, .CORE_WM_STAT_WM_EVENT, .CORE_WM_STAT_WM_LEVEL]) ++ onFam .bridge (errFields ++ fCnt ++
      [.BRIDGE_LOCK_STAT_HOLDER, .BRIDGE_LOCK_STAT_LOCKED, .BRIDGE_PROOF_WM_STAT_WM_CROSS_CNT, .BRIDGE_PROOF_WM_STAT_WM_EVENT,
      .BRIDGE_PROOF_WM_STAT_WM_LEVEL]) ++ onFam .face fCnt, cnts := [.guard, .core, .bridge, .face], vars := [.cbsAt, .cbsCr,
      .elogSeq, .msixPend, .redAvg], fifos := [.elog, .faceWrote, .viWrote], parts := [.buf, .free, .greqs, .out, .replay,
      .streams, .waiting] }

theorem execCellEccError_within (id : Nat) (correctable : Bool) {σ τ : State} (hw : σ.wf) (he : execCellEccError id correctable σ = .next τ) : Within Foot.execCellEccError σ τ := by
  have hF := Foot.le_refl Foot.execCellEccError
  refine answer_within ?_ hw he
  clear he hw
  repeat' first
      | (with_reducible first | exact all_nil_in | refine all_cons_in ?_ ?_ | refine look_in fun _ => ?_ | refine ite_in ?_ ?_ | refine forSome_in fun _ => ?_)
      | ((with_reducible refine bump_in ?_ ?_ ..); (· rfl); (· first | exact Foot.le_trans (F := Foot.counting .core) (by decide +kernel) hF))
      | ((with_reducible refine raise_in ?_ ?_ ..); (· rfl); (· first | exact Foot.le_trans (F := Foot.error .core) (by decide +kernel) hF))
      | ((with_reducible refine raiseAll_in ?_ ?_ ..); (· rfl); (· first | exact Foot.le_trans (F := Foot.error .core) (by decide +kernel) hF))
      | ((with_reducible refine noteErrs_of ?_ ?_ _); (· rfl); (· first | exact Foot.le_trans (F := Foot.error .core) (by decide +kernel) hF))
      | ((with_reducible refine sendSamples_in ?_ ..); (· exact Foot.le_trans (Foot.le_of_runs (by decide +kernel)) hF))
      | ((with_reducible refine turnBad_in ?_ ..); (· exact Foot.le_trans (Foot.le_of_runs (by decide +kernel)) hF))
      | split
      | dsimp only

end Sys2Proof.Machine
end

