-- ==== Sys2Proof/Laws/ExecTags.lean ====
section
/-! SUPPORT. What each command of Machine/Tags.lean may touch. -/

namespace Sys2Proof.Machine

set_option Elab.async false
set_option linter.unusedTactic false
set_option linter.unreachableTactic false

def Foot.execCompletionReceived : Foot :=
  { regs := onFam .guard (errFields ++ fCnt ++ [.GUARD_ELOG_CTRL_LOST]) ++ onFam .core (fCnt ++ [.CORE_WM_STAT_WM_CROSS_CNT,
      .CORE_WM_STAT_WM_EVENT, .CORE_WM_STAT_WM_LEVEL]) ++ onFam .route (errFields ++ fCnt) ++ onFam .bridge (errFields ++ fCnt ++
      [.BRIDGE_LOCK_STAT_HOLDER, .BRIDGE_LOCK_STAT_LOCKED, .BRIDGE_PROOF_WM_STAT_WM_CROSS_CNT, .BRIDGE_PROOF_WM_STAT_WM_EVENT,
      .BRIDGE_PROOF_WM_STAT_WM_LEVEL]) ++ onFam .face (errFields ++ fCnt) ++ onFam .schedg fCnt, cnts := [.guard, .core, .route,
      .bridge, .face, .schedg], vars := [.cbsAt, .cbsCr, .elogSeq, .lockDest, .msixPend, .pcieSent, .pktId, .polAt, .polC, .polP,
      .redAvg, .stipCnt, .stipSeq, .tagEp], fifos := [.elog, .faceWrote, .missLog, .viWrote], parts := [.buf, .free, .greqs, .out,
      .prefs, .slots, .streams, .waiting] }

theorem execCompletionReceived_within (f : FaceId) (req link : Bool) (tag : BitVec 14) (ep : Bool) (t : Tlp) {σ τ : State} (hw : σ.wf) (he : execCompletionReceived f req link tag ep t σ = .next τ) : Within Foot.execCompletionReceived σ τ := by
  have hF := Foot.le_refl Foot.execCompletionReceived
  refine answer_within ?_ hw he
  clear he hw
  repeat' first
      | ((with_reducible refine faceCompletes_in ?_ ..); (· exact Foot.le_trans (Foot.le_of_runs (by decide +kernel)) hF))
      | split
      | dsimp only

def Foot.execCplTimeout : Foot :=
  { regs := onFam .guard (errFields ++ fCnt ++ [.GUARD_ELOG_CTRL_LOST]) ++ onFam .face (errFields ++ fCnt), cnts := [.guard, .face],
      vars := [.elogSeq, .msixPend, .tagEp], fifos := [.elog, .faceWrote, .viWrote], parts := [.greqs, .out, .slots] }

theorem execCplTimeout_within (f : FaceId) (req : Bool) (tag : BitVec 14) {σ τ : State} (hw : σ.wf) (he : execCplTimeout f req tag σ = .next τ) : Within Foot.execCplTimeout σ τ := by
  have hF := Foot.le_refl Foot.execCplTimeout
  refine answer_within ?_ hw he
  clear he hw
  repeat' first
      | (with_reducible first | exact all_nil_in | refine all_cons_in ?_ ?_ | refine look_in fun _ => ?_ | refine when_in ?_ | refine ite_in ?_ ?_ | refine forSome_in fun _ => ?_)
      | ((with_reducible refine modSlots_in ?_); (· exact le_parts hF (by decide +kernel)))
      | ((with_reducible refine emit_in ?_); (· exact le_parts hF (by decide +kernel)))
      | ((with_reducible refine bump_in ?_ ?_ ..); (· rfl); (· first | exact Foot.le_trans (F := Foot.counting .face) (by decide +kernel) hF))
      | ((with_reducible refine raise_in ?_ ?_ ..); (· rfl); (· first | exact Foot.le_trans (F := Foot.error .face) (by decide +kernel) hF))
      | ((with_reducible refine freeSlot_in ?_ ..); (· exact Foot.le_trans (Foot.le_of_runs (by decide +kernel)) hF))
      | split
      | dsimp only

def Foot.execTagQuarantineEnd : Foot :=
  { vars := [.tagEp], parts := [.slots] }

theorem execTagQuarantineEnd_within (f : FaceId) (tag : BitVec 14) {σ τ : State} (hw : σ.wf) (he : execTagQuarantineEnd f tag σ = .next τ) : Within Foot.execTagQuarantineEnd σ τ := by
  have hF := Foot.le_refl Foot.execTagQuarantineEnd
  refine answer_within ?_ hw he
  clear he hw
  repeat' first
      | (with_reducible first | refine look_in fun _ => ?_ | refine when_in ?_ | refine forSome_in fun _ => ?_)
      | ((with_reducible refine freeSlot_in ?_ ..); (· exact Foot.le_trans (Foot.le_of_runs (by decide +kernel)) hF))
      | split
      | dsimp only

end Sys2Proof.Machine
end

