-- ==== Sys2Proof/Laws/ExecTurn.lean ====
section
/-! SUPPORT. What each command of Machine/Turn.lean may touch. -/

namespace Sys2Proof.Machine

set_option Elab.async false
set_option linter.unusedTactic false
set_option linter.unreachableTactic false

def Foot.execCycleBoundary : Foot :=
  { regs := onFam .guard (errFields ++ fCnt ++ [.GUARD_ELOG_CTRL_LOST]) ++ onFam .core (fCnt ++ [.CORE_WM_STAT_WM_CROSS_CNT,
      .CORE_WM_STAT_WM_EVENT, .CORE_WM_STAT_WM_LEVEL]) ++ onFam .route (errFields ++ fCnt ++ [.ROUTE_LIVE_SEL_GRACE_LEFT,
      .ROUTE_LIVE_SEL_LIVE, .ROUTE_LIVE_SEL_P0_STATE, .ROUTE_LIVE_SEL_P0_VERIFIED, .ROUTE_LIVE_SEL_P1_STATE,
      .ROUTE_LIVE_SEL_P1_VERIFIED, .ROUTE_TURN_CTRL_ARM, .ROUTE_TURN_CTRL_STATUS]) ++ onFam .bridge (errFields ++ fCnt ++
      [.BRIDGE_LOCK_STAT_HOLDER, .BRIDGE_LOCK_STAT_LOCKED, .BRIDGE_PROOF_WM_STAT_WM_CROSS_CNT, .BRIDGE_PROOF_WM_STAT_WM_EVENT,
      .BRIDGE_PROOF_WM_STAT_WM_LEVEL]) ++ onFam .port [.PORT_LINK_STAT_STATE] ++ onFam .face fCnt ++ onFam .schedg (errFields ++
      fCnt ++ [.SCHED_CYC_LEN_LEN, .SCHED_CYC_NUM_CYCLE, .SCHED_CYC_NUM_CYCLE_HI, .SCHED_CYC_STAT_EVER_LOCKED,
      .SCHED_CYC_STAT_HOLD_LEFT, .SCHED_CYC_STAT_STATE, .SCHED_CYC_STAT_STRATUM]) ++ onFam .sched (errFields ++ fCnt ++
      [.SCHED_HATCH_CTRL_ARM, .SCHED_HATCH_CTRL_STATUS, .SCHED_HATCH_START_CYCLE, .SCHED_HATCH_START_CYCLE_HI,
      .SCHED_HATCH_STAT_ACTIVE, .SCHED_HATCH_STAT_ANY_ACTIVE, .SCHED_HATCH_STAT_A_STATE, .SCHED_HATCH_STAT_A_VERIFIED,
      .SCHED_HATCH_STAT_B_STATE, .SCHED_HATCH_STAT_B_VERIFIED, .SCHED_HATCH_STAT_ENTRY_NOW, .SCHED_HATCH_STAT_LATE]), cnts :=
      [.guard, .core, .route, .bridge, .face, .schedg, .sched], vars := [.acqAt, .acqNum, .asSource, .cbsAt, .cbsCr, .cycEdge,
      .cycEdgeNext, .cycFirst, .cycLast, .cycNext, .cycNext2, .cycOut, .cycP, .cycPrev, .cycRes, .cycResNext, .cycStart, .edgeIv,
      .edgeLast, .edgeRun, .elogSeq, .errRun, .guardBack, .guardMiss, .guardOpen, .hatchAt, .hatchLate, .holdCount, .liveSig,
      .mkRun, .msixPend, .pktId, .polAt, .polC, .polP, .redAvg, .relock, .relockNum, .skewCnt, .stipCnt, .stipSeq, .toFree,
      .turnAt], fifos := [.elog, .faceWrote, .missLog, .viWrote], parts := [.buf, .free, .greqs, .now, .out, .prefs, .streams,
      .waiting] }

theorem execCycleBoundary_within  {σ τ : State} (hw : σ.wf) (he : execCycleBoundary σ = .next τ) : Within Foot.execCycleBoundary σ τ := by
  have hF := Foot.le_refl Foot.execCycleBoundary
  refine answer_within ?_ hw he
  clear he hw
  repeat' first
      | (with_reducible first | exact all_nil_in | refine all_cons_in ?_ ?_ | refine look_in fun _ => ?_ | refine when_in ?_ | refine ite_in ?_ ?_)
      | ((with_reducible refine boundaryActions_in ?_ ..); (· exact Foot.le_trans (Foot.le_of_runs (by decide +kernel)) hF))
      | ((with_reducible refine firstBoundary_in ?_ ..); (· exact Foot.le_trans (Foot.le_of_runs (by decide +kernel)) hF))
      | ((with_reducible refine lateCommit_in ?_ ..); (· exact Foot.le_trans (Foot.le_of_runs (by decide +kernel)) hF))
      | ((with_reducible refine nextBoundary_in ?_ ..); (· exact Foot.le_trans (Foot.le_of_runs (by decide +kernel)) hF))
      | split
      | dsimp only

end Sys2Proof.Machine
end

