-- ==== Sys2Proof/Laws/Raise.lean ====
section
/-! SUPPORT. What recording an error does to the sticky bits of its page (R58). -/

namespace Sys2Proof.Machine

set_option Elab.async false
set_option linter.unusedTactic false
set_option linter.unreachableTactic false

/-- All that recording an error of a page may touch beside its sticky bits. -/
def Foot.afterSticky (k : Fam) : Foot :=
  Foot.log.and (Foot.fields k [.ERR_FIRST_VALID, .ERR_FIRST_CLASS, .ERR_FIRST_INDEX, .ERR_FIRST_MORE, .ERR_FIRST_TS_TS, .ERR_FIRST_TS_TS_HI,
    .INT_CAUSE_ERR])

theorem afterSticky_sticky {k : Fam} (h : k ≠ .guard) : (k, Fld.ERR_STICKY_BITS) ∉ (Foot.afterSticky k).regs := by
  revert h
  cases k <;> decide +kernel

/-- What the first of several updates wrote stands where the rest do not touch it. -/
theorem rd_all_cons {F : Foot} {u : Upd} {r : List Upd} (h : (all r).In F) {s : State} (w : s.wf) {pg : Pg} {f : Fld} {i : Nat}
    (m : f ∈ pg.fields) (n : (Fam.of pg, f) ∉ F.regs) : ((all (u :: r)).run s).rd pg f i = (u.run s).rd pg f i :=
  (h _ (u.keeps_wf w)).regs pg f i m n

/-- The capture of an error leaves the sticky bits. -/
theorem captureErrs_after {pg : Pg} (hc : pg.common = true) (unm : List Raised) :
    (captureErrs pg unm).In (Foot.afterSticky (Fam.of pg)) := look_in fun s => forSome_in fun x => by
  have h := (Foot.and_le.1 (Foot.le_refl (Foot.afterSticky (Fam.of pg)))).2
  have hr : ∀ {f : Fld} {v : Nat}, f ∈ tabHDR → f ∈ [Fld.ERR_FIRST_VALID, .ERR_FIRST_CLASS, .ERR_FIRST_INDEX, .ERR_FIRST_MORE,
      .ERR_FIRST_TS_TS, .ERR_FIRST_TS_TS_HI, .INT_CAUSE_ERR] → (wr pg f v).In (Foot.afterSticky (Fam.of pg)) :=
    fun hm hf => wr_in (hdr_mem hc hm) (le_regs h (fields_regs hf))
  obtain ⟨c, b⟩ := x
  dsimp only
  split
  · exact hr (by decide) (by decide)
  · exact all_cons_in (hr (by decide) (by decide)) <| all_cons_in (hr (by decide) (by decide)) <| all_cons_in (hr (by decide) (by decide)) <|
      all_cons_in (hr (by decide) (by decide)) <| all_cons_in (hr (by decide) (by decide)) <| all_cons_in (hr (by decide) (by decide)) all_nil_in

/-- R58: the errors' bits join the sticky bits. GUARD's own page is apart: the log's overrun is an error of it. -/
theorem raiseAll_sticky {s : State} (w : s.wf) {pg : Pg} (hc : pg.common = true) (hg : Fam.of pg ≠ .guard) (rs : List Raised) :
    ((raiseAll pg rs).run s).rd pg .ERR_STICKY_BITS =
      rs.foldl (fun w r => setBit w r.err.bit) (s.rd pg .ERR_STICKY_BITS) % 2 ^ Fld.ERR_STICKY_BITS.width := by
  have hF := Foot.and_le.1 (Foot.le_refl (Foot.afterSticky (Fam.of pg)))
  have hi : Foot.interrupt.le (Foot.afterSticky (Fam.of pg)) = true := (Foot.and_le.1 (Foot.and_le.1 hF.1).1).1
  have hs : ∀ {r : List Upd} {σ : State} {v : Nat}, σ.wf → (all r).In (Foot.afterSticky (Fam.of pg)) →
      ((all (wr pg .ERR_STICKY_BITS v :: r)).run σ).rd pg .ERR_STICKY_BITS = v % 2 ^ Fld.ERR_STICKY_BITS.width :=
    fun w h => (rd_all_cons h w (hdr_mem hc (by decide)) (afterSticky_sticky hg)).trans (rd_wr_self w ..)
  unfold raiseAll
  rw [look_run]
  dsimp only
  refine (rd_all_cons (F := Foot.afterSticky (Fam.of pg)) ?_ w (hdr_mem hc (by decide)) (afterSticky_sticky hg)).trans ?_
  · exact all_cons_in (captureErrs_after hc _) <| all_cons_in (forEach_in fun _ => logRec_in hF.1 _) <|
      all_cons_in (reportErrs_in hc hi (le_regs hF.2 (fields_regs (by decide))) _) all_nil_in
  · unfold noteErrs
    rw [look_run]
    exact hs w <| all_cons_in
      (forEach_in fun _ => modGreqs_in (le_parts (Foot.and_le.1 (Foot.and_le.1 hF.1).2).2 (by decide))) all_nil_in

/-- R58 for one error. -/
theorem raise_sticky {s : State} (w : s.wf) {pg : Pg} (hc : pg.common = true) (hg : Fam.of pg ≠ .guard) (e : Err) :
    ((raise pg e).run s).rd pg .ERR_STICKY_BITS = setBit (s.rd pg .ERR_STICKY_BITS) e.bit % 2 ^ 32 := by
  have hw : Fld.ERR_STICKY_BITS.width = 32 := rfl
  exact hw ▸ raiseAll_sticky w hc hg _

/-- R58: the bit of an error that was recorded is set. -/
theorem raise_sets {s : State} (w : s.wf) {pg : Pg} (hc : pg.common = true) (hg : Fam.of pg ≠ .guard) {e : Err} (hb : e.bit < 32) :
    (((raise pg e).run s).rd pg .ERR_STICKY_BITS).testBit e.bit = true := by
  rw [raise_sticky w hc hg, Nat.testBit_mod_two_pow]
  simp [setBit, hb, Nat.testBit_or, Nat.testBit_shiftLeft]

end Sys2Proof.Machine
end

