-- ==== Sys2Proof/Laws/Reads.lean ====
section
/-! SUPPORT. What reads and writes of a page that the command names may touch. -/

namespace Sys2Proof.Machine

set_option Elab.async false
set_option linter.unusedTactic false
set_option linter.unreachableTactic false

/-! ### Reads -/

theorem errPage_common (pg : Pg) : (errPage pg).common = true := by cases pg <;> rfl

theorem regAt_err (pg : Pg) (off : Nat) (t : Bool) (e : Pg) : (regAt pg off t e).err = e := by
  unfold regAt
  split <;> rfl

theorem tenantAt_err (s : State) (v off : Nat) : (s.tenantAt v off).err = .inst 0 := by
  unfold State.tenantAt
  split
  · split
    · exact regAt_err ..
    · rfl
  · exact regAt_err ..

theorem placeOf_err (s : State) (st : Stamp) (t : Target) (k : Nat) : (s.placeOf st t k).err.common = true := by
  cases t with
  | space a =>
    show (s.spaceAt _).err.common = true
    unfold State.spaceAt
    split
    · rfl
    · split
      · rfl
      · rw [tenantAt_err]; rfl
      · rw [regAt_err]; exact errPage_common _
  | bar2 o =>
    unfold State.placeOf
    dsimp only
    split
    · split
      · rfl
      · rw [tenantAt_err]; rfl
    · rfl

/-- A condition about one state. -/
theorem when_at {F : Foot} {c : Bool} {u : Upd} {s : State} (h : c = true → Within F s (u.run s)) : Within F s ((when_ c u).run s) := by
  cases c
  · exact Within.refl F s
  · exact h rfl

/-- A command, seen from one state. -/
theorem answer_at {F : Foot} {u : Upd} {s t : State} (h : Within F s (u.run s)) (e : u.answer s = .next t) : Within F s t := by
  unfold Upd.answer Upd.always at e
  cases e
  exact when_at (s := s) fun _ => h

/-- An access on a path of its stamp, seen from one state. -/
theorem onPath_at {F : Foot} {st : Stamp} {u : Upd} {s : State} (h : Within F s (u.run s)) : Within F s ((onPath st u).run s) :=
  when_at fun _ => h

theorem execBadLengthRead_within (st : Stamp) (t : Target) (n : Nat) {σ τ : State} (hw : σ.wf)
    (he : execBadLengthRead st t n σ = .next τ) : Within (Foot.error (Fam.of (σ.placeOf st t 0).err)) σ τ := by
  refine answer_at (when_at fun hb => ?_) he
  have hle := Foot.le_refl (Foot.error (Fam.of (σ.placeOf st t 0).err))
  refine onPath_at ?_
  show Within _ σ ((if badLength t n = true then _ else _ : Upd).run σ)
  rw [if_pos hb]
  exact all_cons_in (raise_in (placeOf_err _ _ _ _) hle _) (all_cons_in (emit_in (Foot.error_out hle)) all_nil_in) σ hw

theorem execUnmappedRead_within (st : Stamp) (t : Target) {σ τ : State} (hw : σ.wf) (he : execUnmappedRead st t σ = .next τ) :
    Within (Foot.error (Fam.of (σ.placeOf st t 0).err)) σ τ := by
  refine answer_at (u := look fun s => when_ ((s.placeOf st t 0).site == .nowhere) (onPath st (placeRead st (s.placeOf st t 0) true))) ?_ he
  refine when_at fun hb => onPath_at ?_
  have hle := Foot.le_refl (Foot.error (Fam.of (σ.placeOf st t 0).err))
  unfold placeRead
  rw [eq_of_beq hb]
  exact all_cons_in (raise_in (placeOf_err _ _ _ _) hle _) (all_cons_in (emit_in (Foot.error_out hle)) all_nil_in) σ hw

/-- What a full read of a dword latches for its stamp. -/
def latched : List Fld :=
  [.LANE_PRBS_ERR_HIGH, .LANE_PRBS_BITS_HIGH, .CNT_HI_HIGH, .SCHED_CYC_NUM_CYCLE_HI, .SCHED_FAB_TIME_TIME_HI,
    .SCHED_HATCH_START_CYCLE_HI]

theorem latchAt_mem {s : State} {st : Stamp} {pg : Pg} {off : Nat} {x : Fld × Nat × Nat} (h : s.latchAt st pg off = some x) :
    x.1 ∈ pg.fields ∧ x.1 ∈ latched := by
  unfold State.latchAt at h
  have own : ∀ {pg : Pg} {f : Fld}, f ∈ pg.tab → f ∈ latched → f ∈ pg.fields ∧ f ∈ latched := fun a b => ⟨own_mem a, b⟩
  have hdr : ∀ {pg : Pg}, pg.common = true → Fld.CNT_HI_HIGH ∈ pg.fields ∧ Fld.CNT_HI_HIGH ∈ latched :=
    fun c => ⟨hdr_mem c (by decide +kernel), by decide +kernel⟩
  split at h
  · dsimp only at h
    split at h
    · cases h; exact own (f := .LANE_PRBS_ERR_HIGH) (show Fld.LANE_PRBS_ERR_HIGH ∈ tabLANE by decide +kernel) (by decide +kernel)
    · split at h
      · cases h; exact own (f := .LANE_PRBS_BITS_HIGH) (show Fld.LANE_PRBS_BITS_HIGH ∈ tabLANE by decide +kernel) (by decide +kernel)
      · split at h
        · cases h; exact hdr rfl
        · cases h
  · split at h
    · cases h; exact own (f := .SCHED_CYC_NUM_CYCLE_HI) (show Fld.SCHED_CYC_NUM_CYCLE_HI ∈ tabSCHEDG by decide +kernel) (by decide +kernel)
    · split at h
      · cases h; exact own (f := .SCHED_FAB_TIME_TIME_HI) (show Fld.SCHED_FAB_TIME_TIME_HI ∈ tabSCHEDG by decide +kernel) (by decide +kernel)
      · split at h
        · cases h; exact hdr rfl
        · cases h
  · split at h
    · cases h; exact own (f := .SCHED_HATCH_START_CYCLE_HI) (show Fld.SCHED_HATCH_START_CYCLE_HI ∈ tabSCHED by decide +kernel) (by decide +kernel)
    · split at h
      · cases h; exact hdr rfl
      · cases h
  · split at h
    · next c =>
      cases h
      exact hdr (by simp_all)
    · cases h

/-- What a read of the dword at `off` may touch beside what it pops: the fields that it latches, AUTO_INC, and the RC fields. -/
theorem afterRead_in {F : Foot} {pg : Pg} {off : Nat} (hl : ∀ s st x, State.latchAt s st pg off = some x → (Fam.of pg, x.1) ∈ F.regs)
    (ha : pg.common = true → off = 0x88 → (Fam.of pg, Fld.CNT_SEL_INDEX) ∈ F.regs)
    (hr : ∀ fi ∈ fieldsAt pg off, fi.1.ty = .rc → (Fam.of pg, fi.1) ∈ F.regs) (st : Stamp) : (afterRead st pg off).In F := by
  refine look_in fun s => all_cons_in (when_in ?_) (all_cons_in ?_ (all_cons_in ?_ all_nil_in))
  · cases e : s.latchAt st pg off with
    | none => exact skip_in
    | some x => exact wrSt_in (latchAt_mem e).1 (hl s st x e)
  · cases e : (pg.common && off == 0x88 && s.rdSt st.code pg .CNT_SEL_AUTO_INC == 1) with
    | false => exact skip_in
    | true =>
      simp only [Bool.and_eq_true, beq_iff_eq] at e
      exact wrSt_in (hdr_mem e.1.1 (by decide +kernel)) (ha e.1.1 e.1.2)
  · refine forEach_mem_in fun fi m => ?_
    obtain ⟨m, e⟩ := List.mem_filter.1 m
    exact wr_in (mem_atOff m) (hr fi m (by simpa using e))

/-- A read of a dword that is neither a semaphore nor a notice window. -/
theorem regRead_in {F : Foot} {pg : Pg} {off : Nat} (hs : ∀ k, pg = .mbox k → off < 0x100) (hv : Var.arbLast ∈ F.vars) (ho : Part.out ∈ F.parts)
    (hw : windowAt pg off = none) (hq : ∀ x, fifoAt pg off = some x → Fifo.held ∈ F.fifos ∧ x.2.1 ∈ F.fifos)
    (hl : ∀ s st x, State.latchAt s st pg off = some x → (Fam.of pg, x.1) ∈ F.regs)
    (ha : pg.common = true → off = 0x88 → (Fam.of pg, Fld.CNT_SEL_INDEX) ∈ F.regs)
    (hr : ∀ fi ∈ fieldsAt pg off, fi.1.ty = .rc → (Fam.of pg, fi.1) ∈ F.regs) (st : Stamp) (full : Bool) : (regRead st pg off full).In F := by
  have hp : (popAt st pg off).In F := by
    unfold popAt
    rw [hw]
    show (forSome (fifoAt pg off) _).In F
    cases e : fifoAt pg off with
    | none => exact skip_in
    | some x =>
      obtain ⟨w, q, i⟩ := x
      have := hq _ e
      exact look_in fun s => all_cons_in (putFifo_in this.1) (all_cons_in (putFifo_in this.2) all_nil_in)
  unfold regRead
  extract_lets sem
  by_cases c : sem = true
  · exfalso
    subst sem
    split at c
    · have := hs _ rfl
      simp only [Bool.and_eq_true, decide_eq_true_eq] at c
      omega
    · exact Bool.false_ne_true c
  · rw [if_neg (by rw [Bool.and_eq_true]; exact fun x => c x.1)]
    exact granting_in hv (all_cons_in (when_in hp) (all_cons_in (look_in fun _ => emit_in ho)
      (all_cons_in (when_in (afterRead_in hl ha hr st)) all_nil_in)))

/-- IPEAK of PWR_TELEM is the one RC field. -/
theorem rc_only {pg : Pg} {f : Fld} (m : f ∈ pg.fields) (h : f.ty = .rc) : f = .PWR_TELEM_IPEAK := by
  have hd : ∀ f ∈ tabHDR, f.ty = .rc → f = .PWR_TELEM_IPEAK := by decide +kernel
  have own : ∀ {l : List Fld}, (∀ f ∈ l, f.ty = .rc → f = .PWR_TELEM_IPEAK) → f ∈ tabHDR ++ l → f = .PWR_TELEM_IPEAK :=
    fun hl m => (List.mem_append.1 m).elim (fun m => hd f m h) fun m => hl f m h
  have m : f ∈ tabHDR ++ pg.tab := by
    unfold Pg.fields at m
    split at m
    · exact m
    · exact List.mem_append_right _ m
  refine own ?_ m
  unfold Pg.tab
  split <;> decide +kernel

theorem no_rc {F : Foot} {pg : Pg} {off : Nat} (h : off ≠ 0x128) : ∀ fi ∈ fieldsAt pg off, fi.1.ty = .rc → (Fam.of pg, fi.1) ∈ F.regs := by
  intro fi m e
  exfalso
  have := rc_only (mem_atOff m) e
  obtain ⟨g, _, he⟩ := List.mem_filterMap.1 m
  have hg : g.count = 1 ∧ g.off = 0x128 := by
    have : g = fi.1 := by
      split at he
      · split at he
        · cases he; rfl
        · cases he
      · split at he
        · cases he; rfl
        · cases he
    rw [this, rc_only (mem_atOff m) e]
    exact ⟨rfl, rfl⟩
  rw [hg.1, hg.2] at he
  simp only [Nat.le_refl, if_true] at he
  split at he
  · next c => exact h (eq_of_beq c)
  · cases he

theorem execCounterLowRead_within (st : Stamp) (pg : Pg) (full : Bool) {σ τ : State} (hw : σ.wf)
    (he : execCounterLowRead st pg full σ = .next τ) :
    Within { regs := [(Fam.of pg, .CNT_HI_HIGH)], vars := [.arbLast], parts := [.out] } σ τ := by
  refine answer_within (when_in ?_) hw he
  refine regRead_in (fun _ _ => by omega) List.mem_cons_self List.mem_cons_self ?_ ?_ ?_ (fun _ h => by omega) (no_rc (by omega)) st full
  · unfold windowAt
    split <;> rfl
  · intro x h
    unfold fifoAt at h
    split at h <;> cases h
  · intro s t x h
    have : x.1 = .CNT_HI_HIGH := by
      unfold State.latchAt at h
      split at h
      all_goals
        repeat' first | split at h | dsimp only at h
        all_goals first | (cases h; rfl) | (exfalso; simp_all; done) | cases h
    rw [this]
    exact List.mem_cons_self

theorem execDirectCounterRead_within (st : Stamp) (c : DirectCnt) (full : Bool) {σ τ : State} (hw : σ.wf)
    (he : execDirectCounterRead st c full σ = .next τ) :
    Within ((Foot.fields (Fam.of (directAt c).1) latched).and { vars := [.arbLast], parts := [.out] }) σ τ := by
  refine answer_within ?_ hw he
  have ho : (directAt c).2 ≠ 0x88 ∧ (directAt c).2 ≠ 0x128 := by
    cases c <;> simp only [directAt] <;> omega
  refine regRead_in (fun k h => by cases c <;> simp [directAt] at h) (by simp [Foot.and]) (by simp [Foot.and]) ?_ ?_ ?_ (fun _ h => absurd h ho.1)
    (no_rc ho.2) st full
  · cases c <;> rfl
  · intro x h
    cases c <;> cases h
  · intro s t x h
    exact List.mem_append_left _ (List.mem_map.2 ⟨x.1, (latchAt_mem h).2, rfl⟩)

theorem execReadClear_within (st : Stamp) (c : ChanId) (full : Bool) {σ τ : State} (hw : σ.wf) (he : execReadClear st c full σ = .next τ) :
    Within { regs := [(.pwr, .PWR_TELEM_IPEAK)], vars := [.arbLast], parts := [.out] } σ τ := by
  refine answer_within ?_ hw he
  refine regRead_in (fun _ h => by cases h) (by decide) (by decide) rfl (fun _ h => by cases h) (fun s t x h => ?_) (fun _ h => by omega)
    (fun fi m e => ?_) st full
  · cases h
  · rw [rc_only (mem_atOff m) e]
    exact List.mem_cons_self

theorem execFifoPop_within (st : Stamp) (w : FifoWin) (full : Bool) {σ τ : State} (hw : σ.wf) (he : execFifoPop st w full σ = .next τ) :
    Within { vars := [.arbLast], fifos := [.held, .elog, .missLog, .cplFifo], parts := [.out] } σ τ := by
  refine answer_within ?_ hw he
  have ho : (fifoReg w).2 ≠ 0x88 ∧ (fifoReg w).2 ≠ 0x128 ∧ (fifoReg w).2 ≠ 0x84 := by
    cases w <;> simp only [fifoReg] <;> omega
  refine regRead_in (fun k h => by cases w <;> simp [fifoReg] at h) (by decide) (by decide) ?_ ?_ ?_ (fun _ h => absurd h ho.1)
    (no_rc ho.2.1) st full
  · cases w <;> rfl
  · intro x h
    cases w <;> cases h <;> simp
  · intro s t x h
    cases w <;> cases h

/-! ### Writes of the common header -/

/-- The registers of a page's own stand from 0x100 up. -/
theorem tab_high {pg : Pg} (hc : pg.common = true) : ∀ f ∈ pg.tab, 0x100 ≤ f.off := by
  revert hc
  unfold Pg.tab
  split
  all_goals first | (intro h; cases h; done) | (intro _; decide +kernel)

theorem fieldsAt_low {pg : Pg} {off : Nat} (hc : pg.common = true) (ho : off < 0x100) : fieldsAt pg off = atOff tabHDR off := by
  have : atOff pg.tab off = [] := List.filterMap_eq_nil_iff.2 fun f m => by
    have := tab_high hc f m
    split
    · rw [if_neg]
      simp only [beq_iff_eq]
      omega
    · rw [if_neg]
      simp only [Bool.and_eq_true, decide_eq_true_eq]
      omega
  unfold fieldsAt Pg.fields
  rw [if_pos hc]
  unfold atOff at *
  rw [List.filterMap_append, this, List.append_nil]

theorem and_true' {a b : Bool} (h : (a && b) = true) : a = true ∧ b = true := (Bool.and_eq_true a b).mp h

theorem execIntCauseWrite_within (st : Stamp) (pg : Pg) (en : Bool) (v : Word) {σ τ : State} (hw : σ.wf)
    (he : execIntCauseWrite st pg en v σ = .next τ) :
    Within ((Foot.access (Fam.of pg)).and <| Foot.interrupt.and <|
      Foot.fields (Fam.of pg) [.INT_CAUSE_ERR, .INT_CAUSE_CNT_SAT, .INT_CAUSE_BLK_INT, .INT_EN_ERR, .INT_EN_CNT_SAT, .INT_EN_BLK_INT]) σ τ := by
  refine answer_at (when_at fun hc => ?_) he
  have hc := (and_true' hc).2
  have hF := Foot.and_le.1 (Foot.le_refl ((Foot.access (Fam.of pg)).and <| Foot.interrupt.and <|
      Foot.fields (Fam.of pg) [.INT_CAUSE_ERR, .INT_CAUSE_CNT_SAT, .INT_CAUSE_BLK_INT, .INT_EN_ERR, .INT_EN_CNT_SAT, .INT_EN_BLK_INT]))
  have hG := Foot.and_le.1 hF.2
  refine granted_in hc hF.1 st _ ?_ σ hw
  refine all_cons_in (plainWrite_in (fun fi m => le_regs hG.2 (List.mem_map.2 ⟨fi.1, ?_, rfl⟩)) st _)
    (all_cons_in (look_in fun _ => when_in (sendInt_in hG.1 _)) all_nil_in)
  rw [fieldsAt_low hc (by cases en <;> decide)] at m
  revert fi
  cases en <;> decide +kernel

theorem execCounterClear_within (st : Stamp) (pg : Pg) (v : Word) {σ τ : State} (hw : σ.wf) (he : execCounterClear st pg v σ = .next τ) :
    Within ((Foot.access (Fam.of pg)).and { regs := [(Fam.of pg, .CNT_STAT_SAT)], cnts := [Fam.of pg] }) σ τ := by
  refine answer_at (when_at fun hc => ?_) he
  have hc := (and_true' hc).2
  have hF := Foot.and_le.1 (Foot.le_refl ((Foot.access (Fam.of pg)).and { regs := [(Fam.of pg, .CNT_STAT_SAT)], cnts := [Fam.of pg] }))
  exact granted_in hc hF.1 st _ (look_in fun s => all_cons_in (clearCnts_in (le_cnts hF.2 List.mem_cons_self))
    (all_cons_in (wr_in (hdr_mem hc (by decide +kernel)) (le_regs hF.2 List.mem_cons_self)) all_nil_in)) σ hw

/-! ### Writes of single pages -/

theorem bufferLimitWrite_in {F : Foot} (hF : (Foot.error .core).le F = true) (hw : Foot.coreWatch.le F = true) {pg : Pg} {off : Nat}
    (h : ∀ fi ∈ fieldsAt pg off, (Fam.of pg, fi.1) ∈ F.regs) (st : Stamp) (v : Nat) : (bufferLimitWrite st pg off v).In F := by
  refine look_in fun s => ?_
  dsimp only
  exact ite_in (raise_in (pg := .core 0) rfl hF _) (all_cons_in (plainWrite_in h st v) (all_cons_in (coreWatch_in hw) all_nil_in))

theorem execBufferLimitWrite_within (st : Stamp) (vi : Bool) (i : Fin 1024) (d : Fin 2) (v : Word) {σ τ : State} (hw : σ.wf)
    (he : execBufferLimitWrite st vi i d v σ = .next τ) :
    Within ((Foot.access .core).and <|
      (Foot.fields .core [.CORE_BUF_LIMIT_RES_NP, .CORE_BUF_LIMIT_RES_CPL, .CORE_BUF_LIMIT_RES_P, .CORE_BUF_LIMIT_PROF_R,
        .CORE_BUF_LIMIT_PROF_Y, .CORE_BUF_LIMIT_PROF_G, .CORE_BUF_LIMIT_ALPHA, .CORE_BUF_LIMIT_MAX, .CORE_VI_LIMIT_ALPHA,
        .CORE_VI_LIMIT_MAX, .CORE_VI_LIMIT_RES, .CORE_WM_STAT_WM_LEVEL, .CORE_WM_STAT_WM_EVENT, .CORE_WM_STAT_WM_CROSS_CNT]).and <|
      Foot.fields .inst [.INST_STAT_FENCED, .INST_STAT_TDI]) σ τ := by
  refine answer_within ?_ hw he
  generalize hX : ((Foot.access .core).and <|
      (Foot.fields .core [.CORE_BUF_LIMIT_RES_NP, .CORE_BUF_LIMIT_RES_CPL, .CORE_BUF_LIMIT_RES_P, .CORE_BUF_LIMIT_PROF_R,
        .CORE_BUF_LIMIT_PROF_Y, .CORE_BUF_LIMIT_PROF_G, .CORE_BUF_LIMIT_ALPHA, .CORE_BUF_LIMIT_MAX, .CORE_VI_LIMIT_ALPHA,
        .CORE_VI_LIMIT_MAX, .CORE_VI_LIMIT_RES, .CORE_WM_STAT_WM_LEVEL, .CORE_WM_STAT_WM_EVENT, .CORE_WM_STAT_WM_CROSS_CNT]).and <|
      Foot.fields .inst [.INST_STAT_FENCED, .INST_STAT_TDI]) = X
  have ha : (Foot.access .core).le X = true := hX ▸ (by decide +kernel)
  have hwt : Foot.coreWatch.le X = true := hX ▸ (by decide +kernel)
  have ht : Foot.tdiCheck.le X = true := hX ▸ (by decide +kernel)
  have he := (Foot.and_le.1 ha).1
  have l2 : ∀ f ∈ tabCORE2, (Fam.core, f) ∈ X.regs := hX ▸ (by decide +kernel)
  have l1 : ∀ f ∈ [Fld.CORE_BUF_LIMIT_RES_NP, .CORE_BUF_LIMIT_RES_CPL, .CORE_BUF_LIMIT_RES_P, .CORE_BUF_LIMIT_PROF_R, .CORE_BUF_LIMIT_PROF_Y,
      .CORE_BUF_LIMIT_PROF_G, .CORE_BUF_LIMIT_ALPHA, .CORE_BUF_LIMIT_MAX], (Fam.core, f) ∈ X.regs := hX ▸ (by decide +kernel)
  have h1 : ∀ i < 768, ∀ d < 2, ∀ fi ∈ atOff tabCORE1 (0x100 + 8 * i + 4 * d), fi.1.off = 0x100 ∨ fi.1.off = 0x104 := by decide +kernel
  have h0 : ∀ f ∈ tabCORE1, (f.off = 0x100 ∨ f.off = 0x104) → f ∈ [Fld.CORE_BUF_LIMIT_RES_NP, .CORE_BUF_LIMIT_RES_CPL, .CORE_BUF_LIMIT_RES_P, .CORE_BUF_LIMIT_PROF_R, .CORE_BUF_LIMIT_PROF_Y,
      .CORE_BUF_LIMIT_PROF_G, .CORE_BUF_LIMIT_ALPHA, .CORE_BUF_LIMIT_MAX] := by decide +kernel
  refine ite_in ?_ ?_
  · refine granted_in (pg := .core 2) rfl ha st _ (all_cons_in (bufferLimitWrite_in he hwt (fun fi m => ?_) st _)
      (all_cons_in (tdiCheck_in ht) all_nil_in))
    rw [fieldsAt, show (Pg.core 2).fields = tabHDR ++ tabCORE2 from rfl, atOff_hdr (by omega)] at m
    exact l2 _ (mem_atOff m)
  · refine fun s w => when_at (fun hc => ?_)
    have hc : i.val < 768 := of_decide_eq_true hc
    refine granted_in (pg := .core 1) rfl ha st _ (bufferLimitWrite_in he hwt (fun fi m => ?_) st _) s w
    rw [fieldsAt, show (Pg.core 1).fields = tabHDR ++ tabCORE1 from rfl, atOff_hdr (by omega)] at m
    exact l1 _ (h0 _ (mem_atOff m) (h1 _ hc _ d.isLt fi m))

/-- What GATHER_SNAPSHOT may touch: the gatherer's own state, and the counter windows that it leaves pointing past what it read. -/
theorem gatherSel_in {F : Foot} (hv : Var.arbLast ∈ F.vars) (h : ∀ k : Fam, k ≠ .tenant ∧ k ≠ .ring → (k, Fld.CNT_SEL_AUTO_INC) ∈ F.regs ∧ (k, Fld.CNT_SEL_INDEX) ∈ F.regs)
    (i : Nat) : (gatherSel i).In F := by
  refine look_in fun s => ?_
  cases e : (pgAt (s.rd (.mgmt 1) .MGMT_GATHER_LIST_PAGE i * 0x10000)).filter Pg.common with
  | none => exact skip_in
  | some pg =>
    have hc : pg.common = true := (Option.filter_eq_some_iff.1 e).2
    have := h _ (Fam.of_common hc)
    exact all_cons_in (grant_in hv _ _) (all_cons_in (wrSt_in (hdr_mem hc (by decide +kernel)) this.1)
      (all_cons_in (wrSt_in (hdr_mem hc (by decide +kernel)) this.2) all_nil_in))

/-- The numbers that a snapshot of the gatherer sets. -/
def gatherVars : List Var :=
  [.arbLast, .gatherSkips, .gatherSeq, .gatherFace, .gatherSlot, .gatherNum, .gatherSkipped, .gatherAt, .gatherCycle, .gatherBound,
    .gatherFree]

theorem execGatherSnapshot_within {σ τ : State} (hw : σ.wf) (he : execGatherSnapshot σ = .next τ) :
    Within ((Foot.error .mgmt).and <| (Foot.counting .mgmt).and <| (Foot.fields .mgmt [.MGMT_GATHER_STAT_BUSY]).and <|
      (Foot.headers [.CNT_SEL_AUTO_INC, .CNT_SEL_INDEX]).and <| (Foot.queues [.gatherSnap]).and <|
        Foot.numbers gatherVars) σ τ := by
  refine answer_within ?_ hw he
  generalize hX : ((Foot.error .mgmt).and <| (Foot.counting .mgmt).and <| (Foot.fields .mgmt [.MGMT_GATHER_STAT_BUSY]).and <|
      (Foot.headers [.CNT_SEL_AUTO_INC, .CNT_SEL_INDEX]).and <| (Foot.queues [.gatherSnap]).and <|
        Foot.numbers gatherVars : Foot) = X
  have hs : Foot.gatherSkip.le X = true := hX ▸ (by decide +kernel)
  have hv : ∀ {x v}, x ∈ gatherVars → (put x v).In X := fun m => put_in ((show ∀ x ∈ gatherVars, x ∈ X.vars from hX ▸ (by decide +kernel)) _ m)
  have cons : ∀ {x v r}, x ∈ gatherVars → (all r).In X → (all (put x v :: r)).In X := fun m h => all_cons_in (hv m) h
  refine look_in fun s => when_in (ite_in (gatherSkip_in hs _) (ite_in (gatherSkip_in hs _) ?_))
  refine cons (by decide) <| cons (by decide) <| cons (by decide) <| cons (by decide) <| cons (by decide) <| cons (by decide) <|
    all_cons_in (wr_in (own_mem (show _ ∈ tabMGMT1 by decide +kernel)) (hX ▸ by decide +kernel)) <| all_cons_in (putFifo_in (hX ▸ by decide +kernel)) <|
    all_cons_in (forBelow_in fun i => gatherSel_in (hX ▸ by decide +kernel) ?_ i) <| cons (by decide) <| cons (by decide) <|
    cons (by decide) <| cons (by decide) all_nil_in
  intro k
  rw [← hX]
  cases k <;> decide +kernel

theorem execGatherConfigWrite_within (st : Stamp) (off : BitVec 16) (v : Word) {σ τ : State} (hw : σ.wf)
    (he : execGatherConfigWrite st off v σ = .next τ) :
    Within ((Foot.access .mgmt).and <| (Foot.fields .mgmt tabMGMT1).and { vars := [.upperLow, .gatherSeq, .gatherSkips, .gatherGen] }) σ τ := by
  refine answer_at (when_at fun hc => ?_) he
  generalize hX : ((Foot.access .mgmt).and <| (Foot.fields .mgmt tabMGMT1).and { vars := [.upperLow, .gatherSeq, .gatherSkips, .gatherGen] } : Foot) = X
  have ha : (Foot.access .mgmt).le X = true := hX ▸ (by decide +kernel)
  have hu : Var.upperLow ∈ X.vars := hX ▸ (by decide +kernel)
  have hl : Var.arbLast ∈ X.vars := hX ▸ (by decide +kernel)
  have hf : ∀ f ∈ tabMGMT1, (Fam.mgmt, f) ∈ X.regs := hX ▸ (by decide +kernel)
  have hg : Foot.gatherWrite.le X = true := hX ▸ (by decide +kernel)
  have he := (Foot.and_le.1 ha).1
  have ho : 0x100 ≤ off.toNat := by
    unfold gatherReg at hc
    simp only [Bool.and_eq_true, Bool.or_eq_true, decide_eq_true_eq] at hc
    omega
  have pw : ∀ {o w : Nat}, 0x100 ≤ o → (plainWrite st (.mgmt 1) o w).In X := fun h => plainWrite_in (fun fi m => by
    rw [fieldsAt, show (Pg.mgmt 1).fields = tabHDR ++ tabMGMT1 from rfl, atOff_hdr h] at m
    exact hf _ (mem_atOff m)) st _
  have hs : Var.aerStamp ∈ X.vars := le_vars (Foot.and_le.1 ha).2 (by decide)
  refine (ite_in ?_ (ite_in ?_ ?_) : Upd.In X _) σ hw
  · exact granting_in hl (put_in hu)
  · refine granting_in hl (look_in fun s => ?_)
    dsimp only
    refine all_cons_in (put_in hu) (all_cons_in (ite_in (look_in fun _ => ite_in (raise_in (pg := .mgmt 0) rfl he _)
      (all_cons_in (pw (by omega)) (all_cons_in (pw (by omega)) all_nil_in))) ?_) all_nil_in)
    exact all_cons_in (when_in (raiseAll_in (pg := .mgmt 1) rfl he _))
      (all_cons_in (tellDiscard_in (Foot.error_out he) hs st _ _) all_nil_in)
  · exact granted_in (pg := .mgmt 1) rfl ha st _ (gatherWrite_in hg _ _ _ ho)

end Sys2Proof.Machine
end

