-- ==== Sys2Proof/Laws/Run.lean ====
section
/-! SUPPORT. Every command's meaning is one change of the state that keeps what every step keeps. -/

namespace Sys2Proof.Machine

theorem exec_runs (i : Instr) (s : State) : ∃ u : Upd, exec i s = .next (u.run s) := by
  cases i <;> exact ⟨_, rfl⟩

end Sys2Proof.Machine
end

