-- ==== Sys2Proof/Tests/Slice0.lean ====
section
/-! SUPPORT. The model's own tests: that WellFormed refuses ill-formed commands, small steps on small states, and for each statement
with hypotheses a state and operands that meet them. -/

open Sys2Proof Sys2Proof.Machine

section
set_option Elab.async false

/-- A small state: the part after reset, changed by some updates. -/
def wit (us : List Upd) : State := (all us).run State.reset

theorem reset_wf : State.reset.wf := by
  unfold State.wf State.reset Map.wf Map.wf0 Map.wf; decide

theorem wit_awake (us : List Upd) (h : (wit us).ivOn .dieReset = false) : (wit us).Awake :=
  ⟨Upd.keeps_wf _ reset_wf, h⟩

/-- A lossless TLP frame of class `c`. -/
def witFrame (c len : Nat) : Frame :=
  { dest := 9, cls := c, src := 8, parity := 0, colour := 0, typ := 0, mc := false, retain := false, lock := false, resent := false, hops := 4, len := len, seq := 0, group := 0, ingSw := 1, egrSw := 2, epoch := 0, tag := 0, tagEp := false, tagValid := false, hcrc := 0, e2eOk := true, bad := false, void := false, body := .tlp { kind := .memWr, hdr := 16, addr := 0x1000, len := 64, rid := 0x100, tag := 0, ep := false, ro := false, ido := false, locked := false, stat := .sc, cid := 0, low := 0, words := [] } }

/-- A frame of class `c` in the buffer, with a copy that waits for port `p`. -/
def witPkt (id c p : Nat) : Pkt :=
  { id := id, ing := .port 0, frame := witFrame c 128, pool := 0, cells := 1, vi := none, lossy := false, tailIn := true, left := false, copies := [⟨.port p, false, false⟩] }

/-- A frame as a link brings it, around frame `g`. -/
def witCarried (seq c len : Nat) (noSeq : Bool) (g : Frame) : LinkFrame :=
  let start := startBlk seq false false noSeq c 0 len
  let data := List.replicate (ceilDiv len 8) (0 : BitVec 64)
  { start := start, data := data, within := [], tail := endBlk (linkCrc start data), inBad := false, sealedBy := none, frame := g }

/-- A lossless TLP frame of class `c` as a link brings it. -/
def witLink (seq c len : Nat) : LinkFrame := witCarried seq c len false (witFrame c len)

/-- A frame in a replay buffer. -/
def witTx (seq : Nat) : TxFrame := ⟨seq, seq, false, 0, 0, witFrame 2 128⟩

/-- List B of port `p` active with two entries, in a running cycle. -/
def witHatch (p : Nat) : Upd :=
  all [wr (.sched p) (hatchStateFld 1) hlACTIVE, wr (.sched p) (hatchCountFld 1) 2, wr .schedg .SCHED_CYC_STAT_STATE ctLOCKED,
       wr .schedg .SCHED_CYC_LEN_LEN 1000000]


/-- Port `p` a FAB port whose link is UP. -/
def witFabUp (p : Nat) : Upd := all [wr (.port p) .PORT_CFG_ROLE 3, wr (.port p) .PORT_LINK_STAT_STATE lsUP]

/-- The ID route entry of a FEID at another switch `w`, reached through port `p`. -/
def witRoute (p w : Nat) : Nat := 0xA <<< 28 + p <<< 15 + 2 <<< 3 + w <<< 122

/-- The ID route entry of a device with requester ID `rid` at local port `p`. -/
def witDevice (p rid : Nat) : Nat := 0xA <<< 28 + 1 <<< 22 + p <<< 15 + rid <<< 32

/-- A frame in transit, sealed. -/
def witHop : LinkFrame := witCarried 5 2 128 false (witFrame 2 128).sealed

/-- A memory TLP. -/
def witTlp : Tlp := { kind := .memWr, hdr := 16, addr := 0x1000, len := 64, rid := 0x100, tag := 5, ep := false, ro := false, ido := false, locked := false, stat := .sc, cid := 0, low := 0, words := [] }

/-- A slot of the ADMIT pool of face 2, BUSY for its host. -/
def witSlot : Slot := ⟨2, false, 5, slBUSY, .host, false, 0x100, 9, 0, false, 9, false, 0, false⟩

/-- A stream with one proof. -/
def witStream : TxStream := ⟨1, 0, [⟨0, 1, true, false, { witFrame 2 128 with retain := true, egrSw := 3 }⟩], 0, none, false⟩

/-- A marker as a link brings it. -/
def witMarker : LinkFrame :=
  witCarried 5 7 104 true { witFrame 7 104 with typ := 4, body := .marker ⟨2, true, true, 0, 0, 5, 6, 7, 100000, 8, 9⟩ }

/-- Face 2 sees the device with FEID 9 at port 10 through one window of 4 KiB at host address 0x1000. -/
def witWindow : Upd :=
  all [wr (.face 2) .FACE_WIN_TAB_VALID 1, wr (.face 2) .FACE_WIN_TAB_BASE 1, wr (.face 2) .FACE_WIN_TAB_XLAT 1, wr (.face 2) .FACE_WIN_TAB_LOG2 12,
       put .mse 1 8192, wr (.route 0) .ROUTE_LIVE_SEL_P0_STATE plLIVE, put .plate (witDevice 8 0 + 1 <<< 3) (0x2000 + 8),
       put .plate (witDevice 10 0x300) (0x2000 + 9), put .plate (1 + 1 <<< 32 + 0xE <<< 92) 0x400,
       put .plate (0x9 <<< 28 + 12 <<< 22 + 9 + 1 <<< 32) 0x4000, wr (.port 10) .PORT_CFG_ROLE 2, wr (.port 10) .PORT_LINK_STAT_STATE lsL0]

/-- Ring 7, active, of the service endpoint of face 2, at engine 3. -/
def witRing : Upd :=
  all [wr (.ring 7) .MOVER_RING_CFG_ENABLE 1, wr (.ring 7) .MOVER_RING_CFG_OWN_KIND 1, wr (.ring 7) .MOVER_RING_CFG_OWNER 2,
       wr (.ring 7) .MOVER_RING_CFG_ENGINE 3, wr (.ring 7) .MOVER_RING_STAT_STATE 1, put .seBusMaster 1 2]

/-- An open copy descriptor of ring 7 that has asked for its 128 bytes. -/
def witDesc : Desc :=
  ⟨7, 0, 1 <<< 28 + 9 + 128 <<< 32 + 0x1000 <<< 64 + 0x2000 <<< 128, 0, true, 128, [⟨0, 128, 5, []⟩], [], 0, [], false, [], [], 0⟩

/-- The same with its bytes read and written. -/
def witDone : Desc := { witDesc with segs := [], written := 128, dests := [(8192, 0x2000)] }

/-- A receive buffer of ring 7. -/
def witBuf : Desc := { witDesc with raw := 2 <<< 28 + 9 + 2048 <<< 32 + 0x4000 <<< 128, opened := false, issued := 0, segs := [] }

/-- A whole Ethernet frame of 64 bytes from FEID 5 to FEID 12, for this switch. -/
def witEth : Pkt :=
  { witPkt 3 1 0 with frame := { witFrame 1 64 with dest := 12, src := 5, body := .eth ⟨64, true, false, false⟩ }, copies := [⟨.self, false, false⟩], left := true }

/-- A prefetch entry of face 2. -/
def witPref : Pref := ⟨2, 0x1000, 512, 9, 5, 0, [1, 2], false⟩

/-- A locked read from FEID 3 that waits for port 8. -/
def witLocked : Pkt := { witPkt 1 2 8 with frame := { witFrame 2 128 with src := 3, body := .tlp { witTlp with kind := .memRd, locked := true } } }

/-- A notice of instance 5 (FEID 12) of switch 1. -/
def witNotice : Notice := ⟨1, 5, 12, 0, 0, 1, 77, 0x1000, 64, 0⟩

/-- FEIDs 12 (instance 5, bound) and 13 (instance 6, bound) of this switch, and 14 of switch 7; queues open to partition 0. -/
def witBoxes : Upd :=
  all [wr (.route 0) .ROUTE_LIVE_SEL_P0_STATE plLIVE, put .plate (0xA <<< 28 + 1 <<< 22 + 2 <<< 3 + 5 <<< 32) (0x2000 + 12),
       put .plate (0xA <<< 28 + 1 <<< 22 + 2 <<< 3 + 6 <<< 32) (0x2000 + 13), put .plate (witRoute 4 7) (0x2000 + 14),
       wr (.inst 3) .INST_VI_CFG_CFG1_FEID 12 5, wr (.inst 3) .INST_VI_CFG_CFG1_FEID 13 6, wr (.inst 2) .INST_STAT_BOUND 1 5,
       wr (.inst 2) .INST_STAT_BOUND 1 6, wr (.mbox 1) .MBOX_Q_CFG_SEND_MASK 1 6]

/-- A request of class FD for instance 5. -/
def witReq : GReq := { pg := .eng 3, bit := 0, cls := .fd, dom := .dom (.inst 5), block := 0xE, detail0 := 0, detail1 := 0, warn := false }

/-- The base point of P-384, as a public key: the private key is 1. -/
def witKey : Nat := p384gx + p384gy <<< 384

/-- A token of operation `op` with key slot `slot` and argument `arg`, for a part with DEVICE_ID and nonce 0, signed under `witKey`
with the number 1: r is the x coordinate of the base point, and `z` is s, byte 0 lowest. -/
def witTok (slot op arg z : Nat) : Nat :=
  0x4E4B4F54 + 1 <<< 32 + slot <<< 48 + op <<< 56 + arg <<< 256 + ofBytes (bytesOf p384gx 48).reverse <<< 0xD00 + z <<< 0xE80

/-- Token `t` in the buffer of FW0. -/
def witToken (t : Nat) : Upd := forBelow 128 fun i => wrSt 0x20 (.sec 0) .SEC_TOKEN_BUF_DW (t >>> (32 * i) % 2 ^ 32) i

/-- Signed tokens: a CLAIM of `witKey`, and those of a part that it owns. -/
def witClaim : Nat := witTok 0 1 witKey
  0x77062b65ed92b347c217aa8fa5b5afc6b0caa83043239de47ad18bd617366c5a61a471d6be813b7b97a86996d814b8a1
def witTransfer : Nat := witTok 0 2 witKey
  0x70f52a039e6aae9e1fbfd62f4ffd66892abca306cc05443e4c32868ff11f9d328f1fb69796d449633e845424bae24a68
def witRelease : Nat := witTok 0 3 0
  0x1872a0c055cddc1f7834fc6711ec497b922211c0f92cdd9d78fb4839b241e6b26d186a71a65127b216d6960bf95bebd4
def witUnlock : Nat := witTok 0 0x10 (1 <<< 80)
  0xd9c8003b3721fd71969aa0c8b02831b7035a3a923eaf91e406c5ab45652bb7ab841a41d8c97592de559998817af43a4
def witGrant : Nat := witTok 0 0x11 5
  0xb2d17e8661c9a29e5bf1c1182a1c6009a98dfbc95c77b1d060f7f8bd4f8ed41d1aa18c516da553ae8c6688e2c777832b
def witArb : Nat := witTok 0 0x12 5
  0xd2f97b554ba3a5cca6b78e208f7d84575f954cce10fcb08d448f85a75ab3c925c5039acc13bf95e08afb1e8aaa605654
def witDebug : Nat := witTok 0 0x13 0
  0x2621215cdff897d17346a9e2f227edd2d2cca6dc6ce21e39336b07012430d70656f96d72907628e8e490f920e3c999b1

/-- A signature over a message under that key, made with the number 1: r is the x coordinate of the base point, s = digest + r. -/
def witSig (msg : List Nat) : List Nat :=
  (bytesOf p384gx 48).reverse ++ (bytesOf ((ofBytesBe (sha384 msg) + p384gx) % p384n) 48).reverse

/-- The header of a good image of a kind: KEY_SLOT 0xFF or 0, SEC_VERSION 5, SWITCH_ID 9. -/
def witHeader (kind seq : Nat) (table : List (BitVec 512)) : ImgHeader :=
  let raw := imgMagic kind + 1 <<< 32 + table.length <<< 48 + seq <<< 96 + 5 <<< 128 + (if kind == 0 then 0xFF else 0) <<< 160 + 0xB0 <<< 168
    + 9 <<< 176 + ofBytes (sha384 (table.flatMap fun e => bytesOf e.toNat 64)) <<< 384
  ⟨BitVec.ofNat 2048 raw, BitVec.ofNat 768 (ofBytes (witSig (bytesOf raw 256))), table⟩

/-- The table entry of a section with these bytes. -/
def witEntry (typ flags target : Nat) (bs : List Nat) : Nat :=
  typ + flags <<< 16 + target <<< 32 + bs.length <<< 96 + ofBytes (sha384 bs) <<< 128

/-- The signed block of list A of port 4, with one entry of zeros, outside a fabric: GENERATION 7, KEY_SLOT 0. -/
def witHatchBlock : Upd :=
  all [wr (.sched 4) .SCHED_HATCH_VERIFY_BUSY 1, put .hatchVer 1 4, put .ownKey witKey 0,
       forBelow 48 fun j => put .hatchSig (witBlock >>> (32 * j) % 2 ^ 32) (64 * 4 + j)]
where
  /-- The 192 bytes, byte 0 in bits 7:0. -/
  witBlock : Nat :=
    0x2aab720be65baf8b230257fe3e68249e70e7173131fe8c61ac8d3e2bdd47d8fd1e9b63c1b3de0575b6ba729e03460693b70a7672385e543a6c2955bf5df20255382a5482e041f759989ba78b623b1d6e74ad20f31ec7b18e37058bbe22ca87aa00000000000000000000000000000000194b3603b109a1d05ff8c196d3ff5acdc3fb6c1ad90e0d2b2603fcd68c94841664e6c3e4860cd5360bce0e319db02d7c000000000000000000000000000000000000000700010004ff00000148544348

/-- Firmware runs, face 2 is enabled at port 8 and holds a session. -/
def witSession : Upd :=
  all [wr .glb .GLB_DEV_STATE_FW_SLOT 0, wr (.face 2) .FACE_BIND_ENABLE 1, wr (.face 2) .FACE_BIND_PORT 8, put .spdmSess 1 2]

/-- Channel 5 enabled, with feed A qualified, in state `st`. -/
def witChan (st : Nat) : Upd :=
  all [wr (.pwr 5) .PWR_CH_CFG_EN 1, wr (.pwr 5) .PWR_FEED_SEL_FEED_A_EN 1, wr (.pwr 5) .PWR_CH_STAT_A_OK 1, wr (.pwr 5) .PWR_CH_STAT_STATE st]

/-- The same with feed B enabled and qualified too. -/
def witDual (st : Nat) : Upd :=
  all [witChan st, wr (.pwr 5) .PWR_FEED_SEL_FEED_B_EN 1, wr (.pwr 5) .PWR_CH_STAT_B_OK 1]

/-! ### What WellFormed refuses: one ill-formed command for each check, beside a well-formed one -/

/-- A command the surroundings cannot send. -/
def ill (i : Instr) : Bool := !i.wellFormed

theorem test_wf_accepts : (Instr.registerWrite .fw0 (.space 0x800024) 1 true false 7 0).wellFormed = true ∧
    (Instr.counterClear .fw0 (.port 4) 1).wellFormed = true ∧ (Instr.hostMemoryRequest 2 witTlp).wellFormed = true := by decide +kernel

theorem test_wf_address : ill (.registerWrite .fw0 (.space 0x800025) 1 true false 7 0) = true := by decide +kernel
theorem test_wf_bar2_address : ill (.badLengthRead (.face 2) (.bar2 2) 3) = true := by decide +kernel
theorem test_wf_no_dword : ill (.registerWrite .fw0 (.space 0x800024) 0 true false 7 0) = true := by decide +kernel
theorem test_wf_unmapped_address : ill (.unmappedRead .fw0 (.space 0x8000F9)) = true := by decide +kernel
theorem test_wf_upper_address : ill (.upperCommitWrite .fw0 0x2000135 true 0) = true := by decide +kernel
theorem test_wf_bar0_address : ill (.bar0Request 2 true 0x800026 1 true false 7 0) = true := by decide +kernel
theorem test_wf_bar0_no_dword : ill (.bar0Request 2 true 0x800024 0 true false 7 0) = true := by decide +kernel
theorem test_wf_page_without_header : ill (.counterClear .fw0 (.ring 3) 1) = true := by decide +kernel
theorem test_wf_page_absent : ill (.counterClear .fw0 (.port 96) 1) = true := by decide +kernel
theorem test_wf_tlp_length : ill (.hostMemoryRequest 2 { witTlp with len := 4097 }) = true := by decide +kernel
theorem test_wf_tlp_header : ill (.hostMemoryRequest 2 { witTlp with hdr := 8 }) = true := by decide +kernel
theorem test_wf_tlp_words : ill (.hostMemoryRequest 2 { witTlp with words := List.replicate 1025 0 }) = true := by decide +kernel
theorem test_wf_tlp_kind : ill (.hostMemoryRequest 2 { witTlp with kind := .cpl }) = true := by decide +kernel
theorem test_wf_completion_kind : ill (.completionReceived 2 true true 5 false witTlp) = true := by decide +kernel
theorem test_wf_locked_read : ill (.lockedRead 2 { witTlp with kind := .memRd }) = true := by decide +kernel
theorem test_wf_release_empty : ill (.proofReleaseReceived 2 []) = true := by decide +kernel
theorem test_wf_release_long : ill (.proofReleaseReceived 2 (List.replicate 9 ⟨1, false, false, 0, 0⟩)) = true := by decide +kernel
theorem test_wf_release_class : ill (.proofReleaseReceived 2 [⟨8, false, false, 0, 0⟩]) = true := by decide +kernel
theorem test_wf_release_epoch : ill (.proofReleaseReceived 2 [⟨1, false, false, 65536, 0⟩]) = true := by decide +kernel
theorem test_wf_marker : ill (.cycleMarkerReceived 4 { witMarker with frame := { witFrame 7 104 with typ := 4, body := .marker ⟨2, true, true, 0, 64, 5, 6, 7, 100000, 8, 9⟩ } }) = true := by decide +kernel
theorem test_wf_link_status : ill (.linkStatusReceived 4 ⟨2, 5, false, 2, false, 0, 0, 0, 0⟩) = true := by decide +kernel
theorem test_wf_frame_dest : ill (.daendFrameReceived 4 { witLink 5 2 128 with frame := { witFrame 2 128 with dest := 8192 } }) = true := by decide +kernel
theorem test_wf_frame_class : ill (.daendFrameReceived 4 { witLink 5 2 128 with frame := { witFrame 2 128 with cls := 8 } }) = true := by decide +kernel
theorem test_wf_frame_hops : ill (.daendFrameReceived 4 { witLink 5 2 128 with frame := { witFrame 2 128 with hops := 256 } }) = true := by decide +kernel
theorem test_wf_payload_event : ill (.headArrival (.inner .mgmt { witFrame 2 128 with body := .domainEvent 4 0 [] })) = true := by decide +kernel
theorem test_wf_payload_request : ill (.headArrival (.inner .mgmt { witFrame 2 128 with body := .remoteReq 0 96 false 0 0 0 })) = true := by decide +kernel
theorem test_wf_payload_response : ill (.headArrival (.inner .mgmt { witFrame 2 128 with body := .remoteRsp 0 6 0 0 })) = true := by decide +kernel
theorem test_wf_source : ill (.headArrival (.inner (.mover 64) (witFrame 2 128))) = true := by decide +kernel
theorem test_wf_arrival_tlp : ill (.headArrival (.tlp 4 { witTlp with len := 4097 })) = true := by decide +kernel
theorem test_wf_partner : ill (.authProof 4 true 0 0 64 0) = true := by decide +kernel
theorem test_wf_thermal : ill (.thermalSample []) = true := by decide +kernel
theorem test_wf_vmon : ill (.vmonSample [0]) = true := by decide +kernel
theorem test_wf_domain : ill (.recoveryComplete (.link 0x140)) = true := by decide +kernel
theorem test_wf_event_feids : ill (.domainEventReceived 0 2 (List.replicate 65 0)) = true := by decide +kernel
theorem test_wf_chunk_empty : ill (.mctpImgChunk 0 0 0) = true := by decide +kernel
theorem test_wf_chunk_long : ill (.mctpImgChunk 0 0 1025) = true := by decide +kernel
theorem test_wf_remote : ill (.remoteAccessReceived none 64 0 false 0 0 0) = true := by decide +kernel
theorem test_wf_root : ill (.deviceAuthDone 4 true (2 ^ 384)) = true := by decide +kernel
theorem test_wf_descriptors : ill (.descriptorFetchComplete 7 (some (List.replicate 9 0))) = true := by decide +kernel
theorem test_wf_skew : ill (.gatherSnapshotDone (2 ^ 32)) = true := by decide +kernel

/-! ### Small steps, against values worked out from the rules -/

/-- The state after one command. -/
def after (i : Instr) (s : State) : State :=
  match step { s with pending := [i] } with
  | .next t => t
  | _ => s

/-- An idle step of a running part is one nanosecond. -/
theorem test_idle_tick : (after (.fillerReceived 8) State.reset).pending = [] ∧
    (match step State.reset with | .next t => t.now | _ => 0) = 1 := by decide +kernel

/-- GLB_CHIP_ID at offset 0x100 reads 0x0719_2001 (spec/04). -/
theorem test_chip_id : State.reset.regValue .fw0 .glb 0x100 = 0x07192001 := by decide +kernel

/-- GLB_STEPPING reads 0x0000_00B0 (R3). -/
theorem test_stepping : State.reset.regValue .fw0 .glb 0x104 = 0xB0 := by decide +kernel

/-- The example of a byte counter in spec/02: FC2 of P12 at 0x0000_FFFF_FFF0 reads 0xFFFF_FFF0 low and latches 0 high. -/
theorem test_counter_latch :
    (after (.counterLowRead (.face 3) (.core 0) true) (wit [setCnt (.core 0) 389 0xFFFFFFF0, wrSt (Stamp.face 3).code (.core 0) .CNT_SEL_INDEX 389])).out
      = [.value (.face 3) 0xFFFFFFF0] := by decide +kernel

/-- A partial write leaves the register and sets ACC_PARTIAL (R47). -/
theorem test_partial_write :
    ((after (.registerWrite .sb (.space (BitVec.ofNat 26 ((Pg.port 4).base + 0x24))) 1 false false 7 0) State.reset).rd (.port 4) .ERR_MASK_MASK)
      = 0 := by decide +kernel

/-- A wrong key starts no warm reset (R132). -/
theorem test_wrong_key : (after (.warmResetRequest .fw0 0x57A60001) State.reset).iv .dieReset = 0 := by decide +kernel

/-- The key does. -/
theorem test_key : (after (.warmResetRequest .fw0 0x57A70001) State.reset).iv .dieReset = drWARM := by decide +kernel

/-- No word spells a command: the table gives no row any bits. -/
theorem test_no_bits : Sys2Proof.decodeTableWord 32 0x57A70001 = none := by decide

/-- CRC-8 and CRC-16 check values of the polynomials spec/06 and spec/10 name, over the nine bytes of "123456789". -/
theorem test_crc16 : crc16 [0x31, 0x32, 0x33, 0x34, 0x35, 0x36, 0x37, 0x38, 0x39] = 0x29B1 := by decide +kernel

/-- The hypotheses of clause 1 of AccessesComplete can be met. -/
theorem witness_AccessesComplete_1 :
    ∃ (s : State) (st : Stamp) (x : Target), s.Awake ∧ (s.placeOf st x 0).upper = false ∧ s.accErrs x 0 (s.placeOf st
      x 0) true = [] ∧ s.pathOpen st = true :=
  ⟨wit [], .fw0, .space 0x800024,
  wit_awake _ (by decide +kernel),
  by and_intros <;> decide +kernel⟩

/-- The hypotheses of clause 2 of AccessesComplete can be met. -/
theorem witness_AccessesComplete_2 :
    ∃ (s : State) (st : Stamp) (x : Target) (v : Word) (u : State), s.Awake ∧ badLength x 2 = false ∧ (s.placeOf st x
      0).upper = false ∧ s.accErrs x 0 (s.placeOf st x 0) true = [] ∧ u = (placeWrite st (s.placeOf st x 0) true false
      v.toNat).run s ∧ (u.placeOf st x 1).upper = false ∧ u.accErrs x 1 (u.placeOf st x 1) true = [] ∧ u.pathOpen st =
      true :=
  ⟨wit [], .fw0, .space 0x800040, 7, (placeWrite .fw0 ((wit []).placeOf .fw0 (.space 0x800040) 0) true false 7).run
    (wit []),
  wit_awake _ (by decide +kernel),
  by decide +kernel,
  by decide +kernel,
  by decide +kernel,
  rfl,
  by and_intros <;> decide +kernel⟩

/-- The hypotheses of clause 3 of AccessesComplete can be met. -/
theorem witness_AccessesComplete_3 :
    ∃ (s : State) (st : Stamp) (x : Target) (v : Word) (pg : Pg) (off : Nat) (tenant : Bool) (e : Pg) (f : Fld) (i :
      Nat), s.Awake ∧ s.placeOf st x 0 = ⟨.reg pg off tenant, e⟩ ∧ upperOf pg off = none ∧ s.locked pg = false ∧
      regEffect st pg off tenant v.toNat = plainWrite st pg off v.toNat ∧ (f, i) ∈ fieldsAt pg off ∧ f.ty = .rw ∧
      f.perStamp = false ∧ s.pathOpen st = true :=
  ⟨wit [], .fw0, .space 0x840024, 7, .port 4, 0x24, false, .port 4, .ERR_MASK_MASK, 0,
  wit_awake _ (by decide +kernel),
  by decide +kernel,
  by decide +kernel,
  by decide +kernel,
  rfl,
  by and_intros <;> decide +kernel⟩

/-- The hypotheses of clause 4 of AccessesComplete can be met. -/
theorem witness_AccessesComplete_4 :
    ∃ (s : State) (st : Stamp) (x : Target) (full : Bool) (e : Err), s.Awake ∧ (s.placeOf st x 0).upper = false ∧ e ∈
      s.accErrs x 0 (s.placeOf st x 0) full ∧ s.pathOpen st = true :=
  ⟨wit [], .fw0, .space 0x800024, false, .ACC_PARTIAL,
  wit_awake _ (by decide +kernel),
  by and_intros <;> decide +kernel⟩

/-- The hypotheses of clause 5 of AccessesComplete can be met. -/
theorem witness_AccessesComplete_5 :
    ∃ (s : State) (st : Stamp) (x : Target) (full : Bool), s.Awake ∧ (s.placeOf st x 0).upper = false ∧ (s.accErrs x 0
      (s.placeOf st x 0) full).any (· != .ACC_UNMAPPED) = true ∧ st ∈ [.fw0, .fw1, .sb, .dbg] ∧ s.pathOpen st = true :=
  ⟨wit [], .fw0, .space 0x800024, false,
  wit_awake _ (by decide +kernel),
  by and_intros <;> decide +kernel⟩

/-- The hypotheses of clause 6 of AccessesComplete can be met. -/
theorem witness_AccessesComplete_6 :
    ∃ (s : State) (f : FaceId) (x : Target) (full : Bool), s.Awake ∧ (s.placeOf (.face f) x 0).upper = false ∧
      (s.accErrs x 0 (s.placeOf (.face f) x 0) full).any (· != .ACC_UNMAPPED) = true ∧ s.rd (s.placeOf (.face f) x
      0).err .ERR_MASK_MASK = 0 :=
  ⟨wit [], 2, .space 0x800024, false,
  wit_awake _ (by decide +kernel),
  by and_intros <;> decide +kernel⟩

/-- The hypotheses of clause 7 of AccessesComplete can be met. -/
theorem witness_AccessesComplete_7 :
    ∃ (s : State) (st : Stamp) (x : Target), s.Awake ∧ (s.placeOf st x 0).upper = false ∧ st ∈ [.fw0, .fw1, .sb, .dbg]
      ∧ s.accErrs x 0 (s.placeOf st x 0) true = [] ∧ s.pathOpen st = true :=
  ⟨wit [], .sb, .space 0x800024,
  wit_awake _ (by decide +kernel),
  by and_intros <;> decide +kernel⟩

/-- The hypotheses of clause 8 of AccessesComplete can be met. -/
theorem witness_AccessesComplete_8 :
    ∃ (s : State), s.Awake ∧ s.rd (.sec 0) .SEC_DEBUG_STATE ≠ dbUNLOCKED :=
  ⟨wit [],
  wit_awake _ (by decide +kernel),
  by decide +kernel⟩

/-- The hypotheses of clause 9 of AccessesComplete can be met. -/
theorem witness_AccessesComplete_9 :
    ∃ (s : State) (st : Stamp) (x : Target), s.Awake ∧ (s.placeOf st x 0).site = .nowhere ∧ s.pathOpen st = true :=
  ⟨wit [], .fw0, .space 0x8000F8,
  wit_awake _ (by decide +kernel),
  by and_intros <;> decide +kernel⟩

/-- The hypotheses of clause 10 of AccessesComplete can be met. -/
theorem witness_AccessesComplete_10 :
    ∃ (s : State) (st : Stamp) (x : Target) (n : Nat), s.Awake ∧ badLength x n = true ∧ s.pathOpen st = true :=
  ⟨wit [], .fw0, .space 0x800024, 3,
  wit_awake _ (by decide +kernel),
  by and_intros <;> decide +kernel⟩

/-- The hypotheses of clause 11 of AccessesComplete can be met. -/
theorem witness_AccessesComplete_11 :
    ∃ (s : State) (st : Stamp) (a : SpaceAddr) (pg : Pg) (e : Pg) (off : Nat) (low : Nat) (tenant : Bool), s.Awake ∧
      s.spaceAt (a.toNat - a.toNat % 4) = ⟨.reg pg off tenant, e⟩ ∧ upperOf pg off = some low ∧ off ≠ low ∧ s.locked
      pg = false ∧ (s.iv .upperLow (upperIdx st pg low)) ≠ 0 ∧ (s.iv .upperLow (upperIdx st pg low)).testBit 32 =
      false ∧ (s.iv .upperLow (upperIdx st pg low)).testBit 34 = false ∧ s.pathOpen st = true :=
  ⟨wit [put .upperLow (2 ^ 33 + 77) (2 ^ 32 * 32 + 0x2000130)], .fw0, 0x2000134, .schedg, .schedg, 0x134, 0x130,
    false,
  wit_awake _ (by decide +kernel),
  by and_intros <;> decide +kernel⟩

/-- The hypotheses of clause 12 of AccessesComplete can be met. -/
theorem witness_AccessesComplete_12 :
    ∃ (s : State) (st : Stamp) (a : SpaceAddr) (pg : Pg) (e : Pg) (off : Nat) (low : Nat) (tenant : Bool), s.Awake ∧
      s.spaceAt (a.toNat - a.toNat % 4) = ⟨.reg pg off tenant, e⟩ ∧ upperOf pg off = some low ∧ off ≠ low ∧ s.locked
      pg = false ∧ (s.iv .upperLow (upperIdx st pg low)) = 0 ∧ s.pathOpen st = true :=
  ⟨wit [], .fw0, 0x2000134, .schedg, .schedg, 0x134, 0x130, false,
  wit_awake _ (by decide +kernel),
  by and_intros <;> decide +kernel⟩

/-- The hypotheses of clause 13 of AccessesComplete can be met. -/
theorem witness_AccessesComplete_13 :
    ∃ (s : State) (st : Stamp) (a : SpaceAddr), s.Awake ∧ a = 0x2000134 ∧ s.locked .schedg = false ∧ (s.iv .upperLow
      (upperIdx st .schedg 0x130)) ≠ 0 ∧ (s.iv .upperLow (upperIdx st .schedg 0x130)).testBit 32 = false ∧ (s.iv
      .upperLow (upperIdx st .schedg 0x130)).testBit 34 = false ∧ s.pathOpen st = true :=
  ⟨wit [put .upperLow (2 ^ 33 + 77) (2 ^ 32 * 32 + 0x2000130)], .fw0, 0x2000134,
  wit_awake _ (by decide +kernel),
  by and_intros <;> decide +kernel⟩

/-- The hypotheses of clause 14 of AccessesComplete can be met. -/
theorem witness_AccessesComplete_14 :
    ∃ (s : State) (st : Stamp) (a : SpaceAddr) (pg : Pg) (e : Pg) (off : Nat) (low : Nat) (tenant : Bool), s.Awake ∧
      s.spaceAt (a.toNat - a.toNat % 4) = ⟨.reg pg off tenant, e⟩ ∧ upperOf pg off = some low ∧ off ≠ low ∧ s.pathOpen
      st = true :=
  ⟨wit [put .upperLow (2 ^ 33 + 77) (2 ^ 32 * 32 + 0x2000130)], .fw0, 0x2000134, .schedg, .schedg, 0x134, 0x130,
    false,
  wit_awake _ (by decide +kernel),
  by and_intros <;> decide +kernel⟩

/-- The hypotheses of clause 15 of AccessesComplete can be met. -/
theorem witness_AccessesComplete_15 :
    ∃ (s : State) (f : FaceId) (a : SpaceAddr), s.Awake ∧ s.seAwake f = true ∧ s.granted? f = true ∧ s.device ≠
      dvROM_RECOVERY ∧ (s.placeOf (.face f) (.space a) 0).upper = false ∧ s.accErrs (.space a) 0 (s.placeOf (.face f)
      (.space a) 0) true = [] :=
  ⟨wit [wr (.sec 0) .SEC_GRANT_MASK 4], 2, 0x800024,
  wit_awake _ (by decide +kernel),
  by and_intros <;> decide +kernel⟩

/-- The hypotheses of clause 16 of AccessesComplete can be met. -/
theorem witness_AccessesComplete_16 :
    ∃ (s : State) (f : FaceId), s.Awake ∧ s.seAwake f = true ∧ s.granted? f = true ∧ s.device ≠ dvROM_RECOVERY :=
  ⟨wit [wr (.sec 0) .SEC_GRANT_MASK 4], 2,
  wit_awake _ (by decide +kernel),
  by and_intros <;> decide +kernel⟩

/-- The hypotheses of clause 17 of AccessesComplete can be met. -/
theorem witness_AccessesComplete_17 :
    ∃ (s : State) (f : FaceId), s.Awake ∧ s.seAwake f = true ∧ s.granted? f = false :=
  ⟨wit [], 2,
  wit_awake _ (by decide +kernel),
  by and_intros <;> decide +kernel⟩

/-- The hypotheses of clause 18 of AccessesComplete can be met. -/
theorem witness_AccessesComplete_18 :
    ∃ (s : State) (st : Stamp) (pg : Pg), s.Awake ∧ pg.ok = true ∧ pg.common = true ∧ s.pathOpen st = true :=
  ⟨wit [], .fw0, .port 4,
  wit_awake _ (by decide +kernel),
  by and_intros <;> decide +kernel⟩

/-- The hypotheses of clause 19 of AccessesComplete can be met. -/
theorem witness_AccessesComplete_19 :
    ∃ (s : State) (st : Stamp) (pg : Pg), s.Awake ∧ pg.ok = true ∧ pg.common = true ∧ (cntGroup pg (s.rdSt st.code pg
      .CNT_SEL_INDEX)).isSome = true ∧ s.pathOpen st = true :=
  ⟨wit [setCnt (.port 4) 0 0x123456789AB], .fw0, .port 4,
  wit_awake _ (by decide +kernel),
  by and_intros <;> decide +kernel⟩

/-- The hypotheses of clause 20 of AccessesComplete can be met. -/
theorem witness_AccessesComplete_20 :
    ∃ (s : State) (st : Stamp), s.Awake ∧ s.pathOpen st = true :=
  ⟨wit [], .fw0,
  wit_awake _ (by decide +kernel),
  by decide +kernel⟩

/-- The hypotheses of clause 21 of AccessesComplete can be met. -/
theorem witness_AccessesComplete_21 :
    ∃ (s : State) (st : Stamp), s.Awake ∧ s.pathOpen st = true :=
  ⟨wit [], .fw0,
  wit_awake _ (by decide +kernel),
  by decide +kernel⟩

/-- The hypotheses of clause 22 of AccessesComplete can be met. -/
theorem witness_AccessesComplete_22 :
    ∃ (s : State) (st : Stamp), s.Awake ∧ s.pathOpen st = true :=
  ⟨wit [], .fw0,
  wit_awake _ (by decide +kernel),
  by decide +kernel⟩

/-- The hypotheses of clause 23 of AccessesComplete can be met. -/
theorem witness_AccessesComplete_23 :
    ∃ (s : State) (st : Stamp), s.Awake ∧ s.pathOpen st = true :=
  ⟨wit [wr (.pwr 3) .PWR_TELEM_IPEAK 9], .fw0,
  wit_awake _ (by decide +kernel),
  by decide +kernel⟩

/-- The hypotheses of clause 24 of AccessesComplete can be met. -/
theorem witness_AccessesComplete_24 :
    ∃ (s : State) (st : Stamp), s.Awake ∧ s.pathOpen st = true :=
  ⟨wit [wr (.pwr 3) .PWR_TELEM_IPEAK 9], .fw0,
  wit_awake _ (by decide +kernel),
  by decide +kernel⟩

/-- The hypotheses of clause 25 of AccessesComplete can be met. -/
theorem witness_AccessesComplete_25 :
    ∃ (s : State) (st : Stamp) (x : Nat) (r : List Nat), s.Awake ∧ s.fifo .elog = x :: r ∧ s.pathOpen st = true :=
  ⟨wit [putFifo .elog [5, 6]], .fw0, 5, [6],
  wit_awake _ (by decide +kernel),
  by and_intros <;> decide +kernel⟩

/-- The hypotheses of clause 26 of AccessesComplete can be met. -/
theorem witness_AccessesComplete_26 :
    ∃ (s : State) (st : Stamp) (n : RingId) (x : Nat) (r : List Nat), s.Awake ∧ s.fifo .cplFifo n = x :: r ∧
      s.pathOpen st = true :=
  ⟨wit [putFifo .cplFifo [5, 6] 7], .fw0, 7, 5, [6],
  wit_awake _ (by decide +kernel),
  by and_intros <;> decide +kernel⟩

/-- The hypotheses of clause 27 of AccessesComplete can be met. -/
theorem witness_AccessesComplete_27 :
    ∃ (s : State) (st : Stamp), s.Awake ∧ s.pathOpen st = true :=
  ⟨wit [putFifo .missLog [5, 6]], .fw0,
  wit_awake _ (by decide +kernel),
  by decide +kernel⟩

/-- The hypotheses of clause 1 of HeadersComplete can be met. -/
theorem witness_HeadersComplete_1 :
    ∃ (s : State) (st : Stamp) (pg : Pg) (v : Word), s.Awake ∧ pg.ok = true ∧ pg.common = true ∧ ctrlPage pg = pg ∧
      pg.block ≠ 0 ∧ pg.block ≠ 2 ∧ pg.block ≠ 3 ∧ s.locked pg = false ∧ s.on pg .BLK_CTRL_SOFT_RESET = false ∧
      v.getLsbD 2 = true ∧ s.pathOpen st = true :=
  ⟨wit [], .fw0, .port 4, 5,
  wit_awake _ (by decide +kernel),
  by and_intros <;> decide +kernel⟩

/-- The hypotheses of clause 2 of HeadersComplete can be met. -/
theorem witness_HeadersComplete_2 :
    ∃ (s : State) (st : Stamp) (pg : Pg), s.Awake ∧ pg.ok = true ∧ pg.common = true ∧ ctrlPage pg = pg ∧ s.locked pg =
      true ∧ st = .dbg ∧ s.pathOpen st = true :=
  ⟨wit [wr (.port 4) .PAGE_LOCK_LOCKED 1, wr (.sec 0) .SEC_DEBUG_STATE 2], .dbg, .port 4,
  wit_awake _ (by decide +kernel),
  by and_intros <;> decide +kernel⟩

/-- The hypotheses of clause 3 of HeadersComplete can be met. -/
theorem witness_HeadersComplete_3 :
    ∃ (s : State) (pg : Pg), s.Awake ∧ pg.ok = true ∧ pg.common = true ∧ s.on pg .BLK_CTRL_SOFT_RESET = true ∧
      s.resetRuns pg = false ∧ s.on pg .BLK_CTRL_QUIESCE = false :=
  ⟨wit [wr (.port 4) .BLK_CTRL_SOFT_RESET 1, wr (.port 4) .BLK_STAT_READY 0], .port 4,
  wit_awake _ (by decide +kernel),
  by and_intros <;> decide +kernel⟩

/-- The hypotheses of clause 4 of HeadersComplete can be met. -/
theorem witness_HeadersComplete_4 :
    ∃ (s : State) (st : Stamp) (pg : Pg) (v : Word), s.Awake ∧ pg.ok = true ∧ pg.common = true ∧ ctrlPage pg = pg ∧
      s.locked pg = false ∧ s.on pg .BLK_CTRL_SOFT_RESET = false ∧ s.on pg .BLK_CTRL_QUIESCE = false ∧ v.getLsbD 1 =
      true ∧ v.getLsbD 2 = false ∧ s.pathOpen st = true :=
  ⟨wit [], .fw0, .port 4, 3,
  wit_awake _ (by decide +kernel),
  by and_intros <;> decide +kernel⟩

/-- The hypotheses of clause 5 of HeadersComplete can be met. -/
theorem witness_HeadersComplete_5 :
    ∃ (s : State) (st : Stamp) (p : PortId) (v : Word), s.Awake ∧ s.locked (.port p) = false ∧ s.on (.port p)
      .BLK_CTRL_SOFT_RESET = false ∧ s.on (.port p) .BLK_CTRL_QUIESCE = false ∧ v.getLsbD 1 = true ∧ v.getLsbD 2 =
      false ∧ s.pathOpen st = true :=
  ⟨wit [], .fw0, 4, 3,
  wit_awake _ (by decide +kernel),
  by and_intros <;> decide +kernel⟩

/-- The hypotheses of clause 6 of HeadersComplete can be met. -/
theorem witness_HeadersComplete_6 :
    ∃ (s : State) (pg : Pg), s.Awake ∧ pg.ok = true ∧ pg.common = true ∧ ctrlPage pg = pg ∧ s.on pg .BLK_CTRL_QUIESCE
      = true ∧ s.on pg .BLK_STAT_QUIESCED = false ∧ s.on pg .BLK_CTRL_SOFT_RESET = false ∧ s.idle pg = true :=
  ⟨wit [wr (.port 4) .BLK_CTRL_QUIESCE 1], .port 4,
  wit_awake _ (by decide +kernel),
  by and_intros <;> decide +kernel⟩

/-- The hypotheses of clause 7 of HeadersComplete can be met. -/
theorem witness_HeadersComplete_7 :
    ∃ (s : State) (st : Stamp) (pg : Pg), s.Awake ∧ pg.ok = true ∧ pg.common = true ∧ s.pathOpen st = true :=
  ⟨wit [wr (.port 4) .INT_CAUSE_BLK_INT 5], .fw0, .port 4,
  wit_awake _ (by decide +kernel),
  by and_intros <;> decide +kernel⟩

/-- The hypotheses of clause 8 of HeadersComplete can be met. -/
theorem witness_HeadersComplete_8 :
    ∃ (s : State) (st : Stamp) (pg : Pg), s.Awake ∧ pg.ok = true ∧ pg.common = true ∧ s.locked pg = false ∧ s.pathOpen
      st = true :=
  ⟨wit [wr (.port 4) .INT_CAUSE_BLK_INT 5], .fw0, .port 4,
  wit_awake _ (by decide +kernel),
  by and_intros <;> decide +kernel⟩

/-- The hypotheses of clause 9 of HeadersComplete can be met. -/
theorem witness_HeadersComplete_9 :
    ∃ (s : State) (st : Stamp) (pg : Pg) (v : Word) (i : Nat) (g : Nat), s.Awake ∧ pg.ok = true ∧ pg.common = true ∧
      s.locked pg = false ∧ cntGroup pg i = some g ∧ v.getLsbD g = true ∧ s.pathOpen st = true :=
  ⟨wit [setCnt (.port 4) 2 9, wr (.port 4) .CNT_STAT_SAT 3], .fw0, .port 4, 1, 2, 0,
  wit_awake _ (by decide +kernel),
  by and_intros <;> decide +kernel⟩

/-- The hypotheses of clause 10 of HeadersComplete can be met. -/
theorem witness_HeadersComplete_10 :
    ∃ (s : State) (st : Stamp) (pg : Pg) (v : Word) (i : Nat) (g : Nat), s.Awake ∧ pg.ok = true ∧ pg.common = true ∧
      s.locked pg = false ∧ cntGroup pg i = some g ∧ v.getLsbD g = false ∧ s.pathOpen st = true :=
  ⟨wit [setCnt (.port 4) 2 9], .fw0, .port 4, 2, 2, 0,
  wit_awake _ (by decide +kernel),
  by and_intros <;> decide +kernel⟩

/-- The hypotheses of clause 1 of ResetsComplete can be met. -/
theorem witness_ResetsComplete_1 :
    ∃ (s : State), s.wf ∧ s.ivOn .noVkeep = true :=
  ⟨wit [put .noVkeep 1, put .dieReset 1],
  Upd.keeps_wf _ reset_wf,
  by decide +kernel⟩

/-- The hypotheses of clause 2 of ResetsComplete can be met. -/
theorem witness_ResetsComplete_2 :
    ∃ (s : State), s.wf ∧ True :=
  ⟨wit [],
  Upd.keeps_wf _ reset_wf, trivial⟩

/-- The hypotheses of clause 3 of ResetsComplete can be met. -/
theorem witness_ResetsComplete_3 :
    ∃ (s : State), s.wf ∧ s.iv .dieReset = 0 :=
  ⟨wit [wr (.pwr 5) .PWR_CH_STAT_STATE 4],
  Upd.keeps_wf _ reset_wf,
  by decide +kernel⟩

/-- The hypotheses of clause 4 of ResetsComplete can be met. -/
theorem witness_ResetsComplete_4 :
    ∃ (s : State), s.wf ∧ s.iv .dieReset = drQUIET :=
  ⟨wit [put .dieReset 3],
  Upd.keeps_wf _ reset_wf,
  by decide +kernel⟩

/-- The hypotheses of clause 5 of ResetsComplete can be met. -/
theorem witness_ResetsComplete_5 :
    ∃ (s : State), s.wf ∧ s.iv .dieReset = drCOLD ∧ s.iv .noVkeep = 0 :=
  ⟨wit [put .dieReset 1],
  Upd.keeps_wf _ reset_wf,
  by and_intros <;> decide +kernel⟩

/-- The hypotheses of clause 6 of ResetsComplete can be met. -/
theorem witness_ResetsComplete_6 :
    ∃ (s : State) (f : FaceId), s.wf ∧ s.iv .dieReset = drCOLD ∧ s.ivOn .coldQual = true ∧ s.iv .devRst = 0 ∧ (s.iv
      .wakeFaces).testBit f = true :=
  ⟨wit [put .dieReset 1, put .coldQual 1, put .wakeFaces 4], 2,
  Upd.keeps_wf _ reset_wf,
  by and_intros <;> decide +kernel⟩

/-- The hypotheses of clause 7 of ResetsComplete can be met. -/
theorem witness_ResetsComplete_7 :
    ∃ (s : State), s.wf ∧ s.iv .dieReset = drCOLD ∧ s.ivOn .coldQual = true ∧ s.ivOn .devRst = true :=
  ⟨wit [put .dieReset 1, put .coldQual 1, put .devRst 1],
  Upd.keeps_wf _ reset_wf,
  by and_intros <;> decide +kernel⟩

/-- The hypotheses of clause 8 of ResetsComplete can be met. -/
theorem witness_ResetsComplete_8 :
    ∃ (s : State), s.wf ∧ s.iv .dieReset = drCOLD :=
  ⟨wit [put .dieReset 1, put .coldQual 1],
  Upd.keeps_wf _ reset_wf,
  by decide +kernel⟩

/-- The hypotheses of clause 9 of ResetsComplete can be met. -/
theorem witness_ResetsComplete_9 :
    ∃ (s : State), s.wf ∧ s.iv .dieReset = 0 ∧ s.safeHalt = false :=
  ⟨wit [put .haltRel 1],
  Upd.keeps_wf _ reset_wf,
  by and_intros <;> decide +kernel⟩

/-- The hypotheses of clause 10 of ResetsComplete can be met. -/
theorem witness_ResetsComplete_10 :
    ∃ (s : State) (i : Nat), s.wf ∧ s.iv .dieReset = 0 ∧ i < 2 ^ 40 :=
  ⟨wit [put .plate 5 77], 77,
  Upd.keeps_wf _ reset_wf,
  by and_intros <;> decide +kernel⟩

/-- The hypotheses of clause 11 of ResetsComplete can be met. -/
theorem witness_ResetsComplete_11 :
    ∃ (s : State), s.wf ∧ s.iv .dieReset = drQUIET :=
  ⟨wit [put .dieReset 3],
  Upd.keeps_wf _ reset_wf,
  by decide +kernel⟩

/-- The hypotheses of clause 12 of ResetsComplete can be met. -/
theorem witness_ResetsComplete_12 :
    ∃ (s : State), s.wf ∧ s.iv .dieReset = drWARM ∧ s.iv .warmReg = 0 :=
  ⟨wit [put .dieReset 2, put .devRst 1],
  Upd.keeps_wf _ reset_wf,
  by and_intros <;> decide +kernel⟩

/-- The hypotheses of clause 13 of ResetsComplete can be met. -/
theorem witness_ResetsComplete_13 :
    ∃ (s : State), s.wf ∧ s.iv .dieReset = drWARM ∧ s.ivOn .warmReg = true :=
  ⟨wit [put .dieReset 2, put .devRst 1, put .warmReg 1],
  Upd.keeps_wf _ reset_wf,
  by and_intros <;> decide +kernel⟩

/-- The hypotheses of clause 14 of ResetsComplete can be met. -/
theorem witness_ResetsComplete_14 :
    ∃ (s : State), s.wf ∧ s.iv .dieReset = drWARM ∧ s.iv .devRst = 0 :=
  ⟨wit [put .dieReset 2, put .warmReg 1],
  Upd.keeps_wf _ reset_wf,
  by and_intros <;> decide +kernel⟩

/-- The hypotheses of clause 15 of ResetsComplete can be met. -/
theorem witness_ResetsComplete_15 :
    ∃ (s : State), s.wf ∧ s.iv .dieReset = drQUIET ∧ (s.iv .wakeCtl).testBit 0 = true :=
  ⟨wit [put .dieReset 3, put .wakeCtl 15],
  Upd.keeps_wf _ reset_wf,
  by and_intros <;> decide +kernel⟩

/-- The hypotheses of clause 16 of ResetsComplete can be met. -/
theorem witness_ResetsComplete_16 :
    ∃ (s : State), s.wf ∧ s.iv .dieReset = drQUIET ∧ (s.iv .wakeCtl).testBit 3 = true :=
  ⟨wit [put .dieReset 3, put .wakeCtl 15],
  Upd.keeps_wf _ reset_wf,
  by and_intros <;> decide +kernel⟩

/-- The hypotheses of clause 17 of ResetsComplete can be met. -/
theorem witness_ResetsComplete_17 :
    ∃ (s : State), s.wf ∧ s.iv .dieReset = drQUIET ∧ (s.iv .wakeCtl).testBit 2 = true :=
  ⟨wit [put .dieReset 3, put .wakeCtl 15],
  Upd.keeps_wf _ reset_wf,
  by and_intros <;> decide +kernel⟩

/-- The hypotheses of clause 18 of ResetsComplete can be met. -/
theorem witness_ResetsComplete_18 :
    ∃ (s : State), s.wf ∧ s.iv .dieReset = drQUIET ∧ (s.iv .wakeCtl).testBit 1 = true :=
  ⟨wit [put .dieReset 3, put .wakeCtl 15],
  Upd.keeps_wf _ reset_wf,
  by and_intros <;> decide +kernel⟩

/-- The hypotheses of clause 19 of ResetsComplete can be met. -/
theorem witness_ResetsComplete_19 :
    ∃ (s : State), s.wf ∧ s.iv .dieReset = drQUIET ∧ (s.iv .wakeCtl).testBit 3 = false :=
  ⟨wit [put .dieReset 3, put .wakeCtl 1],
  Upd.keeps_wf _ reset_wf,
  by and_intros <;> decide +kernel⟩

/-- The hypotheses of clause 1 of BootCompletes can be met. -/
theorem witness_BootCompletes_1 :
    ∃ (s : State) (pg : Pg), s.Awake ∧ s.device = dvROM ∧ s.iv .haltRel = 0 ∧ s.iv .shutdown = 0 ∧ pg ∈ commonPages ∧
      s.on pg .BLK_CTRL_SOFT_RESET = false :=
  ⟨wit [], .port 4,
  wit_awake _ (by decide +kernel),
  by and_intros <;> decide +kernel⟩

/-- The hypotheses of clause 2 of BootCompletes can be met. -/
theorem witness_BootCompletes_2 :
    ∃ (s : State), s.Awake ∧ s.device = dvROM ∧ s.iv .haltRel = 0 :=
  ⟨wit [],
  wit_awake _ (by decide +kernel),
  by and_intros <;> decide +kernel⟩

/-- The hypotheses of clause 3 of BootCompletes can be met. -/
theorem witness_BootCompletes_3 :
    ∃ (s : State) (sfdp : BitVec 2) (crc : BitVec 4) (hA : ImgHeader) (hB : ImgHeader) (c : Nat) (k : Nat) (r : List
      Nat) (u : State), s.Awake ∧ s.device = dvROM ∧ s.ivOn .haltRel = true ∧ s.iv .fwSel = 0 ∧ sfdp ≠ 0 ∧ s.dirPick
      sfdp crc = some c ∧ u = (dirLoad c).run s ∧ u.slotCases 0 = k :: r ∧ u.headerCode 0 (if k = 0 then hA else hB) =
      0 :=
  ⟨wit [put .haltRel 1, put .romKey witKey, put .dirSlot slVALID 4, put .dirSeq 1 1], 3, 15, (witHeader 0 7 [1]),
    (witHeader 0 7 [1]), 1, 0, [], (dirLoad 1).run (wit [put .haltRel 1, put .romKey witKey, put .dirSlot slVALID 4,
    put .dirSeq 1 1]),
  wit_awake _ (by decide +kernel),
  by decide +kernel,
  by decide +kernel,
  by decide +kernel,
  by decide +kernel,
  by decide +kernel,
  rfl,
  by and_intros <;> decide +kernel⟩

/-- The hypotheses of clause 4 of BootCompletes can be met. -/
theorem witness_BootCompletes_4 :
    ∃ (s : State) (sfdp : BitVec 2) (crc : BitVec 4) (hA : ImgHeader) (hB : ImgHeader) (c : Nat) (k : Nat) (u :
      State), s.Awake ∧ s.device = dvROM ∧ s.ivOn .haltRel = true ∧ s.iv .fwSel = 0 ∧ sfdp ≠ 0 ∧ s.dirPick sfdp crc =
      some c ∧ u = (dirLoad c).run s ∧ u.slotCases 0 = [k] ∧ u.headerCode 0 (if k = 0 then hA else hB) ≠ 0 :=
  ⟨wit [put .haltRel 1, put .romKey witKey, put .dirSlot slVALID 4, put .dirSeq 1 1], 3, 15, ⟨0, 0, []⟩, ⟨0, 0, []⟩,
    1, 0, (dirLoad 1).run (wit [put .haltRel 1, put .romKey witKey, put .dirSlot slVALID 4, put .dirSeq 1 1]),
  wit_awake _ (by decide +kernel),
  by decide +kernel,
  by decide +kernel,
  by decide +kernel,
  by decide +kernel,
  by decide +kernel,
  rfl,
  by and_intros <;> decide +kernel⟩

/-- The hypotheses of clause 5 of BootCompletes can be met. -/
theorem witness_BootCompletes_5 :
    ∃ (s : State) (sfdp : BitVec 2) (crc : BitVec 4) (c : Nat), s.Awake ∧ s.device = dvROM ∧ s.ivOn .haltRel = true ∧
      s.iv .fwSel = 0 ∧ sfdp ≠ 0 ∧ s.dirPick sfdp crc = some c ∧ ((dirLoad c).run s).slotCases 0 = [] :=
  ⟨wit [put .haltRel 1], 2, 4, 2,
  wit_awake _ (by decide +kernel),
  by and_intros <;> decide +kernel⟩

/-- The hypotheses of clause 6 of BootCompletes can be met. -/
theorem witness_BootCompletes_6 :
    ∃ (s : State) (sfdp : BitVec 2) (crc : BitVec 4), s.Awake ∧ s.device = dvROM ∧ s.ivOn .haltRel = true ∧ s.iv
      .fwSel = 0 ∧ sfdp ≠ 0 ∧ s.dirPick sfdp crc = none :=
  ⟨wit [put .haltRel 1], 1, 12,
  wit_awake _ (by decide +kernel),
  by and_intros <;> decide +kernel⟩

/-- The hypotheses of clause 7 of BootCompletes can be met. -/
theorem witness_BootCompletes_7 :
    ∃ (s : State) (sfdp : BitVec 2), s.Awake ∧ s.device = dvROM ∧ s.ivOn .haltRel = true ∧ s.iv .fwSel = 0 ∧ sfdp = 0 :=
  ⟨wit [put .haltRel 1], 0,
  wit_awake _ (by decide +kernel),
  by and_intros <;> decide +kernel⟩

/-- The hypotheses of clause 8 of BootCompletes can be met. -/
theorem witness_BootCompletes_8 :
    ∃ (s : State), s.Awake ∧ s.ivOn .fwSel = true ∧ s.device = dvROM :=
  ⟨wit [put .fwSel 2],
  wit_awake _ (by decide +kernel),
  by and_intros <;> decide +kernel⟩

/-- The hypotheses of clause 9 of BootCompletes can be met. -/
theorem witness_BootCompletes_9 :
    ∃ (s : State) (st : Stamp) (v : Word), s.Awake ∧ s.locked (.mgmt 0) = false ∧ v.getLsbD 31 = true ∧ s.ivOn
      .fwUnconf = true ∧ s.pathOpen st = true :=
  ⟨wit [put .fwUnconf 1, wr .glb .GLB_DEV_STATE_FW_SLOT 1], .fw0, 0x80000000,
  wit_awake _ (by decide +kernel),
  by and_intros <;> decide +kernel⟩

/-- The hypotheses of clause 10 of BootCompletes can be met. -/
theorem witness_BootCompletes_10 :
    ∃ (s : State), s.Awake ∧ s.ivOn .fwUnconf = true ∧ s.fwRuns = true ∧ (s.fifo .fwTimes).length < max 1 (s.rd (.mgmt
      0) .MGMT_FW_STAT_RESTART_LIMIT) :=
  ⟨wit [put .fwUnconf 1, wr .glb .GLB_DEV_STATE_STATE 4, wr .glb .GLB_DEV_STATE_FW_SLOT 0],
  wit_awake _ (by decide +kernel),
  by and_intros <;> decide +kernel⟩

/-- The hypotheses of clause 11 of BootCompletes can be met. -/
theorem witness_BootCompletes_11 :
    ∃ (s : State) (h : ImgHeader) (k : Nat) (r : List Nat), s.Awake ∧ s.device = dvFIRMWARE ∧ s.fwRuns = true ∧
      s.slotCases 1 = k :: r ∧ s.headerCode 1 h = 0 :=
  ⟨wit [wr .glb .GLB_DEV_STATE_STATE 2, wr .glb .GLB_DEV_STATE_FW_SLOT 0, put .slotState 1 2, put .ownKey witKey 0],
    witHeader 1 7 [1], 2, [],
  wit_awake _ (by decide +kernel),
  by and_intros <;> decide +kernel⟩

/-- The hypotheses of clause 12 of BootCompletes can be met. -/
theorem witness_BootCompletes_12 :
    ∃ (s : State) (h : ImgHeader) (k : Nat) (r : List Nat), s.Awake ∧ s.device = dvFIRMWARE ∧ s.fwRuns = true ∧
      s.slotCases 1 = k :: r ∧ s.headerCode 1 h ≠ 0 :=
  ⟨wit [wr .glb .GLB_DEV_STATE_STATE 2, wr .glb .GLB_DEV_STATE_FW_SLOT 0, put .slotState 1 2], ⟨0, 0, []⟩, 2, [],
  wit_awake _ (by decide +kernel),
  by and_intros <;> decide +kernel⟩

/-- The hypotheses of clause 13 of BootCompletes can be met. -/
theorem witness_BootCompletes_13 :
    ∃ (s : State), s.Awake ∧ s.device = dvFIRMWARE ∧ s.fwRuns = true ∧ s.slotCases 1 = [] :=
  ⟨wit [wr .glb .GLB_DEV_STATE_STATE 2, wr .glb .GLB_DEV_STATE_FW_SLOT 0],
  wit_awake _ (by decide +kernel),
  by and_intros <;> decide +kernel⟩

/-- The hypotheses of clause 14 of BootCompletes can be met. -/
theorem witness_BootCompletes_14 :
    ∃ (s : State) (payload : List Byte) (e : Nat), s.Awake ∧ s.device = dvCONFIG ∧ s.nextSection? = some e ∧ sectionOk
      e (payload.map (·.toNat)) = false :=
  ⟨wit [wr .glb .GLB_DEV_STATE_STATE 3, put .cfgSel 1, put .cfgCount 1, put .cfgTable 2 0], [5], 2,
  wit_awake _ (by decide +kernel),
  by and_intros <;> decide +kernel⟩

/-- The hypotheses of clause 15 of BootCompletes can be met. -/
theorem witness_BootCompletes_15 :
    ∃ (s : State) (payload : List Byte) (e : Nat), s.Awake ∧ s.device = dvCONFIG ∧ s.nextSection? = some e ∧ sectionOk
      e (payload.map (·.toNat)) = true ∧ sectionOf e (payload.map (·.toNat)) = none :=
  ⟨wit [wr .glb .GLB_DEV_STATE_STATE 3, put .cfgSel 1, put .cfgCount 1, put .cfgTable (witEntry 9 0 0 ([5])) 0],
    (([5]).map (BitVec.ofNat 8)), (witEntry 9 0 0 [5]),
  wit_awake _ (by decide +kernel),
  by and_intros <;> decide +kernel⟩

/-- The hypotheses of clause 16 of BootCompletes can be met. -/
theorem witness_BootCompletes_16 :
    ∃ (s : State) (payload : List Byte) (e : Nat) (x : Section), s.Awake ∧ s.device = dvCONFIG ∧ s.nextSection? = some
      e ∧ sectionOk e (payload.map (·.toNat)) = true ∧ sectionOf e (payload.map (·.toNat)) = some x :=
  ⟨wit [wr .glb .GLB_DEV_STATE_STATE 3, put .cfgSel 1, put .cfgCount 1, put .cfgTable (witEntry 2 0 0 ([])) 0],
    (([]).map (BitVec.ofNat 8)), (witEntry 2 0 0 []), .regs [],
  wit_awake _ (by decide +kernel),
  by and_intros <;> decide +kernel⟩

/-- The hypotheses of clause 17 of BootCompletes can be met. -/
theorem witness_BootCompletes_17 :
    ∃ (s : State) (payload : List Byte) (e : Nat) (k : Nat) (i : Nat) (v : Nat), s.Awake ∧ s.device = dvCONFIG ∧
      s.nextSection? = some e ∧ sectionOk e (payload.map (·.toNat)) = true ∧ sectionOf e (payload.map (·.toNat)) =
      some (.plate k true [(i, [v])]) ∧ k < 2 ∧ i < 524288 ∧ s.iv .cfgPlates = 0 ∧ s.iv .cfgKeep = 0 :=
  ⟨wit [wr .glb .GLB_DEV_STATE_STATE 3, put .cfgSel 1, put .cfgCount 1, put .cfgTable (witEntry 3 1 1 (bytesOf (9 + 1
    <<< 32 + 77 <<< 64) 24)) 0], ((bytesOf (9 + 1 <<< 32 + 77 <<< 64) 24).map (BitVec.ofNat 8)), (witEntry 3 1 1
    (bytesOf (9 + 1 <<< 32 + 77 <<< 64) 24)), 1, 9, 77,
  wit_awake _ (by decide +kernel),
  by and_intros <;> decide +kernel⟩

/-- The hypotheses of clause 18 of BootCompletes can be met. -/
theorem witness_BootCompletes_18 :
    ∃ (s : State) (payload : List Byte) (e : Nat) (p : PortId) (l : Bool) (es : List Nat), s.Awake ∧ s.device =
      dvCONFIG ∧ s.nextSection? = some e ∧ sectionOk e (payload.map (·.toNat)) = true ∧ sectionOf e (payload.map
      (·.toNat)) = some (.hatch p l es) ∧ s.ivOn .cfgPorts p = true ∧ hatchOk es = true :=
  ⟨wit [wr .glb .GLB_DEV_STATE_STATE 3, put .cfgSel 1, put .cfgCount 1, put .cfgTable (witEntry 4 1 4 (bytesOf (2 +
    0xFF000000 <<< 32 + 0x01000400 <<< 96) 20)) 0, put .cfgPorts 1 4], ((bytesOf (2 + 0xFF000000 <<< 32 + 0x01000400
    <<< 96) 20).map (BitVec.ofNat 8)), (witEntry 4 1 4 (bytesOf (2 + 0xFF000000 <<< 32 + 0x01000400 <<< 96) 20)), 4,
    true, [0xFF000000, 0x01000400],
  wit_awake _ (by decide +kernel),
  by and_intros <;> decide +kernel⟩

/-- The hypotheses of clause 19 of BootCompletes can be met. -/
theorem witness_BootCompletes_19 :
    ∃ (s : State) (payload : List Byte) (e : Nat) (x : PolicyImg), s.Awake ∧ s.device = dvCONFIG ∧ s.nextSection? =
      some e ∧ sectionOk e (payload.map (·.toNat)) = true ∧ sectionOf e (payload.map (·.toNat)) = some (.policy x) :=
  ⟨wit [wr .glb .GLB_DEV_STATE_STATE 3, put .cfgSel 1, put .cfgCount 1, put .cfgTable (witEntry 5 0 0 (bytesOf
    (0x594C4F50 + 1 <<< 32 + 5 <<< 48 + 4 <<< 96) 368)) 0], ((bytesOf (0x594C4F50 + 1 <<< 32 + 5 <<< 48 + 4 <<< 96)
    368).map (BitVec.ofNat 8)), (witEntry 5 0 0 (bytesOf (0x594C4F50 + 1 <<< 32 + 5 <<< 48 + 4 <<< 96) 368)), ⟨5, 4,
    0, 0, 0, [0, 0, 0, 0]⟩,
  wit_awake _ (by decide +kernel),
  by and_intros <;> decide +kernel⟩

/-- The hypotheses of clause 20 of BootCompletes can be met. -/
theorem witness_BootCompletes_20 :
    ∃ (s : State), s.Awake ∧ s.device = dvCONFIG ∧ s.nextSection? = none ∧ (s.iv .cfgPlates = 0 ∨ (s.iv
      .cfgPlates).testBit 2 = true) :=
  ⟨wit [wr .glb .GLB_DEV_STATE_STATE 3, put .cfgSel 1, put .cfgPlates 5],
  wit_awake _ (by decide +kernel),
  by and_intros <;> decide +kernel⟩

/-- The hypotheses of clause 21 of BootCompletes can be met. -/
theorem witness_BootCompletes_21 :
    ∃ (s : State) (h : ImgHeader), s.Awake ∧ s.iv .imgSt = 4 ∧ s.installs = true ∧ s.headerCode s.imgKind h = 0 ∧
      s.device ≠ dvROM_RECOVERY :=
  ⟨wit [put .romKey witKey, put .imgSt 4, wr .glb .GLB_DEV_STATE_STATE 4, wr .glb .GLB_DEV_STATE_FW_SLOT 0], witHeader
    0 7 [1],
  wit_awake _ (by decide +kernel),
  by and_intros <;> decide +kernel⟩

/-- The hypotheses of clause 22 of BootCompletes can be met. -/
theorem witness_BootCompletes_22 :
    ∃ (s : State) (h : ImgHeader), s.Awake ∧ s.iv .imgSt = 4 ∧ s.installs = true ∧ s.headerCode s.imgKind h ≠ 0 :=
  ⟨wit [put .imgSt 4, wr .glb .GLB_DEV_STATE_STATE 4, wr .glb .GLB_DEV_STATE_FW_SLOT 0], ⟨0, 0, []⟩,
  wit_awake _ (by decide +kernel),
  by and_intros <;> decide +kernel⟩

/-- The hypotheses of clause 1 of QuietThermalAndClocksComplete can be met. -/
theorem witness_QuietThermalAndClocksComplete_1 :
    ∃ (s : State) (st : Stamp) (v : Word), s.Awake ∧ s.locked .glb = false ∧ bits v.toNat 31 16 = 0x57A7 ∧ v.getLsbD 0
      = true ∧ s.pathOpen st = true :=
  ⟨wit [], .fw0, 0x57A70001,
  wit_awake _ (by decide +kernel),
  by and_intros <;> decide +kernel⟩

/-- The hypotheses of clause 2 of QuietThermalAndClocksComplete can be met. -/
theorem witness_QuietThermalAndClocksComplete_2 :
    ∃ (s : State) (st : Stamp) (v : Word), s.Awake ∧ s.locked .glb = false ∧ bits v.toNat 31 16 ≠ 0x57A7 ∧ s.pathOpen
      st = true :=
  ⟨wit [], .fw0, 0x57A60001,
  wit_awake _ (by decide +kernel),
  by and_intros <;> decide +kernel⟩

/-- The hypotheses of clause 3 of QuietThermalAndClocksComplete can be met. -/
theorem witness_QuietThermalAndClocksComplete_3 :
    ∃ (s : State), s.Awake ∧ s.ivOn .devReset = true :=
  ⟨wit [put .devReset 1],
  wit_awake _ (by decide +kernel),
  by decide +kernel⟩

/-- The hypotheses of clause 4 of QuietThermalAndClocksComplete can be met. -/
theorem witness_QuietThermalAndClocksComplete_4 :
    ∃ (s : State) (st : Stamp) (v : Word) (p : PortId), s.Awake ∧ s.locked .glb = false ∧ bits v.toNat 31 16 = 0x57A7
      ∧ v.getLsbD 0 = true ∧ s.safeHalt = false ∧ s.iv .quietRun = 0 ∧ s.role p ≠ 0 ∧ s.domState (s.portDom p) =
      gdNONE ∧ s.role p = roleDOWN ∧ s.pathOpen st = true :=
  ⟨wit [wr (.port 4) .PORT_CFG_ROLE 2], .fw0, 0x57A70001, 4,
  wit_awake _ (by decide +kernel),
  by and_intros <;> decide +kernel⟩

/-- The hypotheses of clause 5 of QuietThermalAndClocksComplete can be met. -/
theorem witness_QuietThermalAndClocksComplete_5 :
    ∃ (s : State), s.Awake ∧ s.ivOn .quietRun = true :=
  ⟨wit [put .quietRun 1, wr (.pwr 3) .PWR_CH_STAT_STATE 4],
  wit_awake _ (by decide +kernel),
  by decide +kernel⟩

/-- The hypotheses of clause 6 of QuietThermalAndClocksComplete can be met. -/
theorem witness_QuietThermalAndClocksComplete_6 :
    ∃ (s : State), s.Awake ∧ s.ivOn .quietRun = true ∧ ((List.range 24).all fun c => !s.chanOn c) = true ∧ s.iv
      .wakePend = 0 :=
  ⟨wit [put .quietRun 1, put .wakeCtl 5, put .wakeFaces 4],
  wit_awake _ (by decide +kernel),
  by and_intros <;> decide +kernel⟩

/-- The hypotheses of clause 7 of QuietThermalAndClocksComplete can be met. -/
theorem witness_QuietThermalAndClocksComplete_7 :
    ∃ (s : State), s.Awake ∧ s.ivOn .quietRun = true ∧ ((List.range 24).all fun c => !s.chanOn c) = true ∧ s.iv
      .wakePend = 2 :=
  ⟨wit [put .quietRun 1, put .wakePend 2],
  wit_awake _ (by decide +kernel),
  by and_intros <;> decide +kernel⟩

/-- The hypotheses of clause 8 of QuietThermalAndClocksComplete can be met. -/
theorem witness_QuietThermalAndClocksComplete_8 :
    ∃ (s : State) (f : FaceId), s.Awake ∧ s.iv .dieReset ≠ drCOLD ∧ s.iv .dieReset ≠ drQUIET ∧ s.iv .quietRun = 0 ∧
      (s.iv .wakeFaces).testBit f = true :=
  ⟨wit [put .wakeFaces 4, wr (.face 2) .FACE_PM_STAT_FWAKE 1], 2,
  wit_awake _ (by decide +kernel),
  by and_intros <;> decide +kernel⟩

/-- The hypotheses of clause 9 of QuietThermalAndClocksComplete can be met. -/
theorem witness_QuietThermalAndClocksComplete_9 :
    ∃ (s : State) (x : BitVec 16), s.Awake ∧ tempValid x = true :=
  ⟨wit [], 0x600,
  wit_awake _ (by decide +kernel),
  by decide +kernel⟩

/-- The hypotheses of clause 10 of QuietThermalAndClocksComplete can be met. -/
theorem witness_QuietThermalAndClocksComplete_10 :
    ∃ (s : State) (x : BitVec 16), s.Awake ∧ tempValid x = true ∧ s.rd (.mgmt 0) .MGMT_THERM_STAT_STEP = 0 ∧
      s.thermStep (some x.toInt) false = 1 :=
  ⟨wit [], 0x740,
  wit_awake _ (by decide +kernel),
  by and_intros <;> decide +kernel⟩

/-- The hypotheses of clause 11 of QuietThermalAndClocksComplete can be met. -/
theorem witness_QuietThermalAndClocksComplete_11 :
    ∃ (s : State) (x : BitVec 16), s.Awake ∧ tempValid x = true ∧ s.safeHalt = false ∧ s.thermStep (some x.toInt)
      false = 3 :=
  ⟨wit [], 0x830,
  wit_awake _ (by decide +kernel),
  by and_intros <;> decide +kernel⟩

/-- The hypotheses of clause 12 of QuietThermalAndClocksComplete can be met. -/
theorem witness_QuietThermalAndClocksComplete_12 :
    ∃ (s : State) (k : Option (Fin 6)) (o : Nat), s.Awake ∧ s.iv .refLost (refIndex k) = 0 ∧ o ∈ refOctets k :=
  ⟨wit [], some 2, 9,
  wit_awake _ (by decide +kernel),
  by and_intros <;> decide +kernel⟩

/-- The hypotheses of clause 13 of QuietThermalAndClocksComplete can be met. -/
theorem witness_QuietThermalAndClocksComplete_13 :
    ∃ (s : State) (k : Option (Fin 6)) (o : Nat), s.Awake ∧ o ∈ refOctets k :=
  ⟨wit [put .refLost 1 2, wr (.lane 9) .LANE_OCT_STAT_REF_B_OK 0], some 2, 9,
  wit_awake _ (by decide +kernel),
  by decide +kernel⟩

/-- The hypotheses of clause 1 of LaneCodingCompletes can be met. -/
theorem witness_LaneCodingCompletes_1 :
    ∃ (s : State) (l : LaneId) (n : Nat), s.Awake ∧ s.ln l .LANE_STAT_FEC_LOCK ≠ 0 ∧ 1 ≤ n ∧ n ≤ 15 :=
  ⟨wit [wr (.lane 1) .LANE_STAT_FEC_LOCK 1 1], 9, 15,
  wit_awake _ (by decide +kernel),
  by and_intros <;> decide +kernel⟩

/-- The hypotheses of clause 2 of LaneCodingCompletes can be met. -/
theorem witness_LaneCodingCompletes_2 :
    ∃ (s : State) (l : LaneId) (n : Nat), s.Awake ∧ s.ln l .LANE_STAT_FEC_LOCK ≠ 0 ∧ 15 < n :=
  ⟨wit [wr (.lane 1) .LANE_STAT_FEC_LOCK 1 1], 9, 16,
  wit_awake _ (by decide +kernel),
  by and_intros <;> decide +kernel⟩

/-- The hypotheses of clause 3 of LaneCodingCompletes can be met. -/
theorem witness_LaneCodingCompletes_3 :
    ∃ (s : State), s.Awake ∧ True :=
  ⟨wit [],
  wit_awake _ (by decide +kernel), trivial⟩

/-- The hypotheses of clause 4 of LaneCodingCompletes can be met. -/
theorem witness_LaneCodingCompletes_4 :
    ∃ (s : State) (l : LaneId), s.Awake ∧ s.ln l .LANE_RATE_CFG_MODE = modeDaend ∧ s.laneState l ∈ [laneTRAIN,
      laneACTIVE, laneREST] ∧ s.txRuns l = true ∧ s.iv .injAlign l = 0 :=
  ⟨wit [wr (.lane 0) .LANE_RATE_CFG_MODE 2 3, wr (.lane 0) .LANE_STAT_STATE 2 3, put .alignTx (2 ^ 24 - 1) 3], 3,
  wit_awake _ (by decide +kernel),
  by and_intros <;> decide +kernel⟩

/-- The hypotheses of clause 5 of LaneCodingCompletes can be met. -/
theorem witness_LaneCodingCompletes_5 :
    ∃ (s : State) (l : LaneId), s.Awake ∧ s.ln l .LANE_RATE_CFG_MODE = modeDaend ∧ s.ln l .LANE_STAT_FEC_LOCK = 1 ∧
      s.iv .rxRest l = 0 :=
  ⟨wit [wr (.lane 1) .LANE_STAT_STATE 2 0, wr (.lane 1) .LANE_RATE_CFG_MODE 2, wr (.lane 1) .LANE_STAT_FEC_LOCK 1], 8,
  wit_awake _ (by decide +kernel),
  by and_intros <;> decide +kernel⟩

/-- The hypotheses of clause 6 of LaneCodingCompletes can be met. -/
theorem witness_LaneCodingCompletes_6 :
    ∃ (s : State) (l : LaneId) (w : BitVec 16), s.Awake ∧ s.ln l .LANE_RATE_CFG_MODE = modeDaend ∧ s.laneState l =
      laneTRAIN ∧ w.getLsbD 11 = true ∧ s.iv .presetStat l = 0 ∧ s.ln l .LANE_EQ_CTRL_MODE = 0 :=
  ⟨wit [wr (.lane 0) .LANE_RATE_CFG_MODE 2, wr (.lane 0) .LANE_STAT_STATE 1], 0, 0x0C00,
  wit_awake _ (by decide +kernel),
  by and_intros <;> decide +kernel⟩

/-- The hypotheses of clause 7 of LaneCodingCompletes can be met. -/
theorem witness_LaneCodingCompletes_7 :
    ∃ (s : State) (l : LaneId) (w : BitVec 16), s.Awake ∧ s.ln l .LANE_RATE_CFG_MODE = modeDaend ∧ s.laneState l =
      laneTRAIN ∧ w.getLsbD 11 = false ∧ bits w.toNat 15 14 = 1 ∧ bits w.toNat 13 12 = 0 ∧ s.iv .preStat l = 0 ∧ s.ln
      l .LANE_EQ_CTRL_MODE = 0 ∧ tapsOk (s.ln l .LANE_TX_TAPS_PRE + 1) (s.ln l .LANE_TX_TAPS_POST) = true :=
  ⟨wit [wr (.lane 0) .LANE_RATE_CFG_MODE 2, wr (.lane 0) .LANE_STAT_STATE 1], 0, 0x4000,
  wit_awake _ (by decide +kernel),
  by and_intros <;> decide +kernel⟩

/-- The hypotheses of clause 8 of LaneCodingCompletes can be met. -/
theorem witness_LaneCodingCompletes_8 :
    ∃ (s : State) (l : LaneId) (w : BitVec 16), s.Awake ∧ s.ln l .LANE_RATE_CFG_MODE = modeDaend ∧ s.laneState l =
      laneTRAIN ∧ w.getLsbD 11 = false ∧ bits w.toNat 15 14 ∈ [1, 2] ∧ s.iv .preStat l = 0 ∧ s.ln l .LANE_EQ_CTRL_MODE
      = 1 :=
  ⟨wit [wr (.lane 0) .LANE_RATE_CFG_MODE 2, wr (.lane 0) .LANE_STAT_STATE 1, wr (.lane 0) .LANE_EQ_CTRL_MODE 1], 0,
    0x4000,
  wit_awake _ (by decide +kernel),
  by and_intros <;> decide +kernel⟩

/-- The hypotheses of clause 9 of LaneCodingCompletes can be met. -/
theorem witness_LaneCodingCompletes_9 :
    ∃ (s : State) (l : LaneId), s.Awake ∧ s.ln l .LANE_RATE_CFG_MODE = modeDaend ∧ s.laneState l = laneTRAIN :=
  ⟨wit [wr (.lane 0) .LANE_RATE_CFG_MODE 2, wr (.lane 0) .LANE_STAT_STATE 1, put .preStat 1], 0,
  wit_awake _ (by decide +kernel),
  by and_intros <;> decide +kernel⟩

/-- The hypotheses of clause 10 of LaneCodingCompletes can be met. -/
theorem witness_LaneCodingCompletes_10 :
    ∃ (s : State) (l : LaneId) (a : Fin 49) (b : Fin 49), s.Awake ∧ s.ln l .LANE_RATE_CFG_MODE = modePCIe ∧
      s.laneState l = laneTRAIN ∧ s.ln l .LANE_EQ_CTRL_MODE = 0 ∧ tapsOk a b = true :=
  ⟨wit [wr (.lane 0) .LANE_RATE_CFG_MODE 1, wr (.lane 0) .LANE_STAT_STATE 1], 0, 3, 6,
  wit_awake _ (by decide +kernel),
  by and_intros <;> decide +kernel⟩

/-- The hypotheses of clause 11 of LaneCodingCompletes can be met. -/
theorem witness_LaneCodingCompletes_11 :
    ∃ (s : State) (l : LaneId) (a : Fin 49) (b : Fin 49), s.Awake ∧ s.ln l .LANE_RATE_CFG_MODE = modePCIe ∧
      s.laneState l = laneTRAIN ∧ s.ln l .LANE_EQ_CTRL_MODE = 0 ∧ tapsOk a b = false :=
  ⟨wit [wr (.lane 0) .LANE_RATE_CFG_MODE 1, wr (.lane 0) .LANE_STAT_STATE 1], 0, 30, 6,
  wit_awake _ (by decide +kernel),
  by and_intros <;> decide +kernel⟩

/-- The hypotheses of clause 12 of LaneCodingCompletes can be met. -/
theorem witness_LaneCodingCompletes_12 :
    ∃ (s : State) (l : LaneId), s.Awake ∧ s.ln l .LANE_RATE_CFG_MODE = modeDaend ∧ s.laneState l = laneTRAIN ∧ s.iv
      .eqTimeouts l + 1 < max 1 (s.ln l .LANE_EQ_CTRL_RETRIES) :=
  ⟨wit [wr (.lane 0) .LANE_RATE_CFG_MODE 2, wr (.lane 0) .LANE_STAT_STATE 1, wr (.lane 0) .LANE_EQ_CTRL_RETRIES 2], 0,
  wit_awake _ (by decide +kernel),
  by and_intros <;> decide +kernel⟩

/-- The hypotheses of clause 13 of LaneCodingCompletes can be met. -/
theorem witness_LaneCodingCompletes_13 :
    ∃ (s : State) (l : LaneId), s.Awake ∧ s.ln l .LANE_RATE_CFG_MODE = modeDaend ∧ s.laneState l = laneTRAIN ∧ max 1
      (s.ln l .LANE_EQ_CTRL_RETRIES) ≤ s.iv .eqTimeouts l + 1 :=
  ⟨wit [wr (.lane 0) .LANE_RATE_CFG_MODE 2, wr (.lane 0) .LANE_STAT_STATE 1, wr (.lane 0) .LANE_EQ_CTRL_RETRIES 2, put
    .eqTimeouts 1], 0,
  wit_awake _ (by decide +kernel),
  by and_intros <;> decide +kernel⟩

/-- The hypotheses of clause 14 of LaneCodingCompletes can be met. -/
theorem witness_LaneCodingCompletes_14 :
    ∃ (s : State) (l : LaneId), s.Awake ∧ (s.laneState l = laneTRAIN ∨ s.laneState l = laneACTIVE ∧ s.ln l
      .LANE_EQ_CTRL_RX_ADAPT = 1) :=
  ⟨wit [wr (.lane 0) .LANE_STAT_STATE 1], 0,
  wit_awake _ (by decide +kernel),
  by decide +kernel⟩

/-- The hypotheses of clause 1 of LaneControlCompletes can be met. -/
theorem witness_LaneControlCompletes_1 :
    ∃ (s : State) (st : Stamp) (l : LaneId) (v : Word), s.Awake ∧ s.locked (.lane (l / 8)) = false ∧ s.ln l
      .LANE_EQ_CTRL_MODE = 1 ∧ tapsOk (bits v.toNat 3 0) (bits v.toNat 12 8) = true ∧ bits v.toNat 21 16 = 48 - bits
      v.toNat 3 0 - bits v.toNat 12 8 ∧ s.pathOpen st = true :=
  ⟨wit [wr (.lane 0) .LANE_EQ_CTRL_MODE 1 5], .fw0, 5, 0x270603,
  wit_awake _ (by decide +kernel),
  by and_intros <;> decide +kernel⟩

/-- The hypotheses of clause 2 of LaneControlCompletes can be met. -/
theorem witness_LaneControlCompletes_2 :
    ∃ (s : State) (st : Stamp) (l : LaneId), s.Awake ∧ s.locked (.lane (l / 8)) = false ∧ s.ln l .LANE_EQ_CTRL_MODE =
      0 ∧ s.pathOpen st = true :=
  ⟨wit [], .fw0, 5,
  wit_awake _ (by decide +kernel),
  by and_intros <;> decide +kernel⟩

/-- The hypotheses of clause 3 of LaneControlCompletes can be met. -/
theorem witness_LaneControlCompletes_3 :
    ∃ (s : State) (st : Stamp) (l : LaneId), s.Awake ∧ s.locked (.lane (l / 8)) = false ∧ s.pathOpen st = true :=
  ⟨wit [], .sb, 5,
  wit_awake _ (by decide +kernel),
  by and_intros <;> decide +kernel⟩

/-- The hypotheses of clause 4 of LaneControlCompletes can be met. -/
theorem witness_LaneControlCompletes_4 :
    ∃ (s : State) (st : Stamp) (l : LaneId) (v : Word), s.Awake ∧ s.locked (.lane (l / 8)) = false ∧ s.laneFree l =
      true ∧ s.laneState l = laneOFF ∧ v.getLsbD 0 = true ∧ bits v.toNat 27 24 < 8 ∧ s.pathOpen st = true :=
  ⟨wit [], .fw1, 7, 0x03000001,
  wit_awake _ (by decide +kernel),
  by and_intros <;> decide +kernel⟩

/-- The hypotheses of clause 5 of LaneControlCompletes can be met. -/
theorem witness_LaneControlCompletes_5 :
    ∃ (s : State) (st : Stamp) (l : LaneId) (v : Word), s.Awake ∧ s.locked (.lane (l / 8)) = false ∧ s.laneFree l =
      false ∧ v.getLsbD 0 = true ∧ s.pathOpen st = true :=
  ⟨wit [wr (.port 0) .PORT_CFG_ROLE 2, wr (.port 0) .PORT_CFG_WIDTH 3], .fw1, 7, 0x03000001,
  wit_awake _ (by decide +kernel),
  by and_intros <;> decide +kernel⟩

/-- The hypotheses of clause 6 of LaneControlCompletes can be met. -/
theorem witness_LaneControlCompletes_6 :
    ∃ (s : State) (l : LaneId) (n : Nat) (e : Nat), s.Awake ∧ s.laneState l = laneTEST ∧ s.ln l .LANE_PRBS_CTRL_CHK_EN
      = 1 ∧ s.ln l .LANE_PRBS_CTRL_CHK_MODE = 0 ∧ s.ln l .LANE_PRBS_CTRL_CHK_LOCK = 0 ∧ 256 ≤ n ∧ e = 0 :=
  ⟨wit [wr (.lane 0) .LANE_STAT_STATE 4 7, wr (.lane 0) .LANE_PRBS_CTRL_CHK_EN 1 7], 7, 256, 0,
  wit_awake _ (by decide +kernel),
  by and_intros <;> decide +kernel⟩

/-- The hypotheses of clause 7 of LaneControlCompletes can be met. -/
theorem witness_LaneControlCompletes_7 :
    ∃ (s : State) (l : LaneId), s.Awake ∧ s.laneState l = laneTEST ∧ s.ln l .LANE_PRBS_CTRL_CHK_EN = 1 ∧ s.ln l
      .LANE_PRBS_CTRL_CHK_MODE = 0 ∧ s.ln l .LANE_PRBS_CTRL_CHK_LOCK = 1 :=
  ⟨wit [wr (.lane 0) .LANE_STAT_STATE 4 7, wr (.lane 0) .LANE_PRBS_CTRL_CHK_EN 1 7, wr (.lane 0)
    .LANE_PRBS_CTRL_CHK_LOCK 1 7], 7,
  wit_awake _ (by decide +kernel),
  by and_intros <;> decide +kernel⟩

/-- The hypotheses of clause 8 of LaneControlCompletes can be met. -/
theorem witness_LaneControlCompletes_8 :
    ∃ (s : State) (l : LaneId), s.Awake ∧ s.laneState l = laneTEST ∧ s.ln l .LANE_PRBS_CTRL_CHK_EN = 1 ∧ s.ln l
      .LANE_PRBS_CTRL_CHK_MODE = 1 ∧ s.ln l .LANE_PRBS_CTRL_PATTERN = 8 :=
  ⟨wit [wr (.lane 0) .LANE_STAT_STATE 4 7, wr (.lane 0) .LANE_PRBS_CTRL_CHK_EN 1 7, wr (.lane 0)
    .LANE_PRBS_CTRL_CHK_MODE 1 7, wr (.lane 0) .LANE_PRBS_CTRL_PATTERN 8 7], 7,
  wit_awake _ (by decide +kernel),
  by and_intros <;> decide +kernel⟩

/-- The hypotheses of clause 9 of LaneControlCompletes can be met. -/
theorem witness_LaneControlCompletes_9 :
    ∃ (s : State) (st : Stamp) (l : LaneId) (v : Word), s.Awake ∧ s.locked (.lane (l / 8)) = false ∧ v.getLsbD 31 =
      true ∧ s.laneState l = laneACTIVE ∧ Fld.LANE_INJ_CTRL_TARGET.of v.toNat = 1 ∧ s.iv .injAlign l = 0 ∧ s.pathOpen
      st = true :=
  ⟨wit [wr (.lane 0) .LANE_STAT_STATE 2], .fw0, 0, 0xA0000005,
  wit_awake _ (by decide +kernel),
  by and_intros <;> decide +kernel⟩

/-- The hypotheses of clause 10 of LaneControlCompletes can be met. -/
theorem witness_LaneControlCompletes_10 :
    ∃ (s : State) (st : Stamp) (l : LaneId) (v : Word), s.Awake ∧ s.locked (.lane (l / 8)) = false ∧ v.getLsbD 31 =
      true ∧ s.laneState l = laneTEST ∧ Fld.LANE_INJ_CTRL_TARGET.of v.toNat = 0 ∧ s.iv .injAlign l = 0 ∧ s.pathOpen st
      = true :=
  ⟨wit [wr (.lane 0) .LANE_STAT_STATE 4], .fw0, 0, 0x80000005,
  wit_awake _ (by decide +kernel),
  by and_intros <;> decide +kernel⟩

/-- The hypotheses of clause 11 of LaneControlCompletes can be met. -/
theorem witness_LaneControlCompletes_11 :
    ∃ (s : State) (st : Stamp) (l : LaneId) (v : Word), s.Awake ∧ s.locked (.lane (l / 8)) = false ∧ v.getLsbD 31 =
      true ∧ s.laneState l = laneACTIVE ∧ Fld.LANE_INJ_CTRL_TARGET.of v.toNat = 2 ∧ s.iv .injAlign l = 0 ∧ s.pathOpen
      st = true :=
  ⟨wit [wr (.lane 0) .LANE_STAT_STATE 2], .fw0, 0, 0xC0000002,
  wit_awake _ (by decide +kernel),
  by and_intros <;> decide +kernel⟩

/-- The hypotheses of clause 12 of LaneControlCompletes can be met. -/
theorem witness_LaneControlCompletes_12 :
    ∃ (s : State) (l : LaneId), s.Awake ∧ s.ln l .LANE_INJ_CTRL_PERIOD ≠ 0 ∧ s.laneState l = laneACTIVE ∧ s.ln l
      .LANE_INJ_CTRL_TARGET ∈ [1, 2] ∧ s.iv .injAlign l = 0 :=
  ⟨wit [wr (.lane 0) .LANE_STAT_STATE 2, wr (.lane 0) .LANE_INJ_CTRL_PERIOD 1, wr (.lane 0) .LANE_INJ_CTRL_TARGET 1],
    0,
  wit_awake _ (by decide +kernel),
  by and_intros <;> decide +kernel⟩

/-- The hypotheses of clause 13 of LaneControlCompletes can be met. -/
theorem witness_LaneControlCompletes_13 :
    ∃ (s : State) (l : LaneId), s.Awake ∧ s.ln l .LANE_INJ_CTRL_PERIOD ≠ 0 ∧ s.laneState l = laneTEST ∧ s.ln l
      .LANE_INJ_CTRL_TARGET = 0 :=
  ⟨wit [wr (.lane 0) .LANE_STAT_STATE 4, wr (.lane 0) .LANE_INJ_CTRL_PERIOD 1], 0,
  wit_awake _ (by decide +kernel),
  by and_intros <;> decide +kernel⟩

/-- The hypotheses of clause 14 of LaneControlCompletes can be met. -/
theorem witness_LaneControlCompletes_14 :
    ∃ (s : State) (st : Stamp) (l : LaneId), s.Awake ∧ s.locked (.lane (l / 8)) = false ∧ s.laneFree l = true ∧
      s.pathOpen st = true :=
  ⟨wit [], .fw0, 9,
  wit_awake _ (by decide +kernel),
  by and_intros <;> decide +kernel⟩

/-- The hypotheses of clause 1 of TrainingCompletes can be met. -/
theorem witness_TrainingCompletes_1 :
    ∃ (s : State) (o : OctId), s.Awake ∧ s.needsPll o true = true ∧ s.pllNoRef o true = false ∧ s.rd (.lane o)
      .LANE_OCT_CFG_B_RATE ≠ 0 :=
  ⟨wit [wr (.lane 2) .LANE_RATE_CFG_MODE 2 5, wr (.lane 2) .LANE_OCT_CFG_B_RATE 1], 2,
  wit_awake _ (by decide +kernel),
  by and_intros <;> decide +kernel⟩

/-- The hypotheses of clause 2 of TrainingCompletes can be met. -/
theorem witness_TrainingCompletes_2 :
    ∃ (s : State) (o : OctId), s.Awake ∧ s.needsPll o false = true ∧ s.pllNoRef o false = false :=
  ⟨wit [wr (.lane 2) .LANE_RATE_CFG_MODE 1 5], 2,
  wit_awake _ (by decide +kernel),
  by and_intros <;> decide +kernel⟩

/-- The hypotheses of clause 3 of TrainingCompletes can be met. -/
theorem witness_TrainingCompletes_3 :
    ∃ (s : State) (o : OctId) (k : Fin 8), s.Awake ∧ s.ln (8 * o.val + k.val) .LANE_RATE_CFG_MODE = modeDaend ∧
      s.laneState (8 * o.val + k.val) = laneOFF ∧ s.pllNoRef o true = false ∧ s.rd (.lane o) .LANE_OCT_CFG_B_RATE ≠ 0 :=
  ⟨wit [wr (.lane 2) .LANE_RATE_CFG_MODE 2 5, wr (.lane 2) .LANE_OCT_CFG_B_RATE 1], 2, 5,
  wit_awake _ (by decide +kernel),
  by and_intros <;> decide +kernel⟩

/-- The hypotheses of clause 4 of TrainingCompletes can be met. -/
theorem witness_TrainingCompletes_4 :
    ∃ (s : State) (o : OctId), s.Awake ∧ s.on (.lane o) .LANE_OCT_STAT_B_LOCK = true :=
  ⟨wit [wr (.lane 2) .LANE_OCT_STAT_B_LOCK 1], 2,
  wit_awake _ (by decide +kernel),
  by decide +kernel⟩

/-- The hypotheses of clause 5 of TrainingCompletes can be met. -/
theorem witness_TrainingCompletes_5 :
    ∃ (s : State), s.Awake ∧ True :=
  ⟨wit [],
  wit_awake _ (by decide +kernel), trivial⟩

/-- The hypotheses of clause 6 of TrainingCompletes can be met. -/
theorem witness_TrainingCompletes_6 :
    ∃ (s : State) (p : PortId), s.Awake ∧ s.rd .glb .GLB_DEV_STATE_STATE ≠ 3 ∧ s.isFab p = true ∧ s.link p = lsDOWN ∧
      s.on (.port p) .PORT_LINK_CTRL_DISABLE = false ∧ s.noClock p = false ∧ s.domState (s.portDom p) ≠ gdQUIESCED :=
  ⟨wit [wr (.port 4) .PORT_CFG_ROLE 3, wr (.port 4) .PORT_LINK_STAT_STATE lsDOWN], 4,
  wit_awake _ (by decide +kernel),
  by and_intros <;> decide +kernel⟩

/-- The hypotheses of clause 7 of TrainingCompletes can be met. -/
theorem witness_TrainingCompletes_7 :
    ∃ (s : State) (o : OctId), s.Awake ∧ s.on (.lane o) .LANE_OCT_STAT_A_LOCK = true :=
  ⟨wit [wr (.lane 2) .LANE_OCT_STAT_A_LOCK 1], 2,
  wit_awake _ (by decide +kernel),
  by decide +kernel⟩

/-- The hypotheses of clause 8 of TrainingCompletes can be met. -/
theorem witness_TrainingCompletes_8 :
    ∃ (s : State) (p : PortId), s.Awake ∧ s.isFab p = true ∧ s.link p ∈ [lsALIGN, lsEQ, lsPARAM, lsAUTH] ∧ s.linkHeld
      p = false :=
  ⟨wit [wr (.port 4) .PORT_CFG_ROLE 3, wr (.port 4) .PORT_LINK_STAT_STATE lsALIGN], 4,
  wit_awake _ (by decide +kernel),
  by and_intros <;> decide +kernel⟩

/-- The hypotheses of clause 9 of TrainingCompletes can be met. -/
theorem witness_TrainingCompletes_9 :
    ∃ (s : State) (p : PortId), s.Awake ∧ s.isFab p = true ∧ s.link p = lsDETECT ∧ ((s.portLanes p).all fun l => s.ln
      l .LANE_STAT_SIG_DET == 0) = true :=
  ⟨wit [wr (.port 4) .PORT_CFG_ROLE 3, wr (.port 4) .PORT_LINK_STAT_STATE lsDETECT], 4,
  wit_awake _ (by decide +kernel),
  by and_intros <;> decide +kernel⟩

/-- The hypotheses of clause 10 of TrainingCompletes can be met. -/
theorem witness_TrainingCompletes_10 :
    ∃ (s : State) (l : LaneId) (b : BitVec 64) (n : Nat), s.Awake ∧ s.ln l .LANE_RATE_CFG_MODE = modeDaend ∧
      alignValid b = true ∧ s.ivOn .rxRest l = false ∧ s.laneState l = laneTRAIN ∧ s.ivOn .alignSeen l = true ∧ n =
      alignSlots :=
  ⟨wit [wr (.lane 1) .LANE_RATE_CFG_MODE 2 1, wr (.lane 1) .LANE_STAT_STATE 1 1, put .alignSeen 1 9], 9, (BitVec.ofNat
    64 (alignBlock 1 7)), 82240,
  wit_awake _ (by decide +kernel),
  by and_intros <;> decide +kernel⟩

/-- The hypotheses of clause 11 of TrainingCompletes can be met. -/
theorem witness_TrainingCompletes_11 :
    ∃ (s : State) (l : LaneId) (b : BitVec 64), s.Awake ∧ s.ln l .LANE_RATE_CFG_MODE = modeDaend ∧ alignValid b = true
      ∧ s.ivOn .rxRest l = false ∧ s.laneState l = laneTRAIN ∧ s.ln l .LANE_STAT_ALIGN_LOCK = 0 ∧ s.ivOn .alignSeen l
      = false :=
  ⟨wit [wr (.lane 1) .LANE_RATE_CFG_MODE 2 1, wr (.lane 1) .LANE_STAT_STATE 1 1], 9, (BitVec.ofNat 64 (alignBlock 1
    7)),
  wit_awake _ (by decide +kernel),
  by and_intros <;> decide +kernel⟩

/-- The hypotheses of clause 12 of TrainingCompletes can be met. -/
theorem witness_TrainingCompletes_12 :
    ∃ (s : State) (l : LaneId) (b : BitVec 64), s.Awake ∧ s.ln l .LANE_RATE_CFG_MODE = modeDaend ∧ alignValid b = true
      ∧ s.ivOn .rxRest l = true :=
  ⟨wit [wr (.lane 1) .LANE_RATE_CFG_MODE 2 1, wr (.lane 1) .LANE_STAT_STATE 3 1, put .rxRest 1 9], 9, (BitVec.ofNat 64
    (alignBlock 1 7)),
  wit_awake _ (by decide +kernel),
  by and_intros <;> decide +kernel⟩

/-- The hypotheses of clause 13 of TrainingCompletes can be met. -/
theorem witness_TrainingCompletes_13 :
    ∃ (s : State) (l : LaneId) (b : BitVec 64), s.Awake ∧ s.ln l .LANE_RATE_CFG_MODE = modeDaend ∧ alignValid b = true
      ∧ s.ivOn .rxRest l = false ∧ s.laneState l = laneACTIVE ∧ s.ln l .LANE_STAT_ALIGN_LOCK = 1 :=
  ⟨wit [wr (.lane 1) .LANE_RATE_CFG_MODE 2 1, wr (.lane 1) .LANE_STAT_STATE 2 1, wr (.lane 1) .LANE_STAT_ALIGN_LOCK 1
    1], 9, (BitVec.ofNat 64 (alignBlock 1 7)),
  wit_awake _ (by decide +kernel),
  by and_intros <;> decide +kernel⟩

/-- The hypotheses of clause 14 of TrainingCompletes can be met. -/
theorem witness_TrainingCompletes_14 :
    ∃ (s : State) (l : LaneId) (h : BitVec 2) (b : BitVec 64), s.Awake ∧ s.ln l .LANE_RATE_CFG_MODE = modeDaend ∧
      (alignValid b = false ∨ h ≠ 2) ∧ s.ln l .LANE_STAT_ALIGN_LOCK = 1 ∧ s.ivOn .rxRest l = false ∧ s.iv .alignMiss l
      < 2 :=
  ⟨wit [wr (.lane 1) .LANE_RATE_CFG_MODE 2 1, wr (.lane 1) .LANE_STAT_STATE 2 1, wr (.lane 1) .LANE_STAT_ALIGN_LOCK 1
    1], 9, 1, 0,
  wit_awake _ (by decide +kernel),
  by and_intros <;> decide +kernel⟩

/-- The hypotheses of clause 15 of TrainingCompletes can be met. -/
theorem witness_TrainingCompletes_15 :
    ∃ (s : State) (l : LaneId) (h : BitVec 2) (b : BitVec 64) (p : PortId), s.Awake ∧ s.owner l = some p.val ∧ s.isFab
      p = true ∧ s.link p = lsEQ ∧ s.ln l .LANE_RATE_CFG_RX_INV_AUTO = 0 ∧ s.ln l .LANE_RATE_CFG_RX_INV = 0 ∧ h = 2 ∧
      blkByte b 0 = 0x33 ∧ blkCrcOk b = true :=
  ⟨wit [wr (.port 4) .PORT_CFG_ROLE 3, wr (.port 4) .PORT_LINK_STAT_STATE lsEQ, wr (.lane 1)
    .LANE_RATE_CFG_RX_INV_AUTO 0], 8, 2, (BitVec.ofNat 64 (ofBytes [0x33, 0, 0, 0, 2, 0, 0, crc8 [0x33, 0, 0, 0, 2, 0,
    0]])), 4,
  wit_awake _ (by decide +kernel),
  by and_intros <;> decide +kernel⟩

/-- The hypotheses of clause 16 of TrainingCompletes can be met. -/
theorem witness_TrainingCompletes_16 :
    ∃ (s : State) (l : LaneId) (h : BitVec 2) (b : BitVec 64) (p : PortId), s.Awake ∧ s.owner l = some p.val ∧ s.isFab
      p = true ∧ s.link p = lsEQ ∧ s.ln l .LANE_RATE_CFG_RX_INV_AUTO = 1 ∧ h = 1 ∧ blkByte b 0 = 0xCC ∧ blkCrcOk
      (~~~b) = true :=
  ⟨wit [wr (.port 4) .PORT_CFG_ROLE 3, wr (.port 4) .PORT_LINK_STAT_STATE lsEQ, wr (.lane 1)
    .LANE_RATE_CFG_RX_INV_AUTO 1 0], 8, 1, (~~~((BitVec.ofNat 64 (ofBytes [0x33, 0, 0, 0, 2, 0, 0, crc8 [0x33, 0, 0,
    0, 2, 0, 0]])))), 4,
  wit_awake _ (by decide +kernel),
  by and_intros <;> decide +kernel⟩

/-- The hypotheses of clause 17 of TrainingCompletes can be met. -/
theorem witness_TrainingCompletes_17 :
    ∃ (s : State) (p : PortId) (b : BitVec 64), s.Awake ∧ s.isFab p = true ∧ s.link p = lsPARAM ∧ blkCrcOk b = true ∧
      blkByte b 0 = 0x3F ∧ blkByte b 1 < 8 ∧ setBit (s.iv .paramGot p) (blkByte b 1) ≠ 255 :=
  ⟨wit [wr (.port 4) .PORT_CFG_ROLE 3, wr (.port 4) .PORT_LINK_STAT_STATE lsPARAM], 4, (BitVec.ofNat 64 (ofBytes
    [0x3F, 3, 0, 0, 2, 0, 0, crc8 [0x3F, 3, 0, 0, 2, 0, 0]])),
  wit_awake _ (by decide +kernel),
  by and_intros <;> decide +kernel⟩

/-- The hypotheses of clause 18 of TrainingCompletes can be met. -/
theorem witness_TrainingCompletes_18 :
    ∃ (s : State) (p : PortId), s.Awake ∧ s.isFab p = true ∧ s.link p = lsPARAM :=
  ⟨wit [wr (.port 4) .PORT_CFG_ROLE 3, wr (.port 4) .PORT_LINK_STAT_STATE lsPARAM], 4,
  wit_awake _ (by decide +kernel),
  by and_intros <;> decide +kernel⟩

/-- The hypotheses of clause 19 of TrainingCompletes can be met. -/
theorem witness_TrainingCompletes_19 :
    ∃ (s : State) (p : PortId), s.Awake ∧ s.inAuth p 0 = true :=
  ⟨wit [wr (.port 4) .PORT_CFG_ROLE 3, wr (.port 4) .PORT_LINK_STAT_STATE lsAUTH], 4,
  wit_awake _ (by decide +kernel),
  by decide +kernel⟩

/-- The hypotheses of clause 20 of TrainingCompletes can be met. -/
theorem witness_TrainingCompletes_20 :
    ∃ (s : State) (p : PortId), s.Awake ∧ s.isFab p = true ∧ s.on (.port p) .PORT_LINK_STAT_ENC = true ∧ s.link p ≠
      lsAUTH ∧ s.iv .nextKey p = 0 :=
  ⟨wit [wr (.port 4) .PORT_CFG_ROLE 3, wr (.port 4) .PORT_LINK_STAT_STATE lsUP, wr (.port 4) .PORT_LINK_STAT_ENC 1],
    4,
  wit_awake _ (by decide +kernel),
  by and_intros <;> decide +kernel⟩

/-- The hypotheses of clause 21 of TrainingCompletes can be met. -/
theorem witness_TrainingCompletes_21 :
    ∃ (s : State) (p : PortId), s.Awake ∧ s.inAuth p 1 = true :=
  ⟨wit [wr (.port 4) .PORT_CFG_ROLE 3, wr (.port 4) .PORT_LINK_STAT_STATE lsAUTH, put .authStep 1 4], 4,
  wit_awake _ (by decide +kernel),
  by decide +kernel⟩

/-- The hypotheses of clause 22 of TrainingCompletes can be met. -/
theorem witness_TrainingCompletes_22 :
    ∃ (s : State) (p : PortId) (ok : Bool) (owner : BitVec 384) (domain : BitVec 128) (sw : Nat) (port : Nat), s.Awake
      ∧ s.inAuth p 2 = true ∧ ok = true ∧ owner.toNat = ofBytes s.ownerDigest ∧ domain.toNat = s.domainId ∧ s.rd
      (.bridge 4) .BRIDGE_FAB_NBR_PARTNER_SW p = sw ∧ s.rd (.bridge 4) .BRIDGE_FAB_NBR_PARTNER_PORT p = port ∧
      s.selfSw ≠ some sw ∧ (s.ivOn .authDebug p = false ∨ s.ivOn .rejectDebug = false) :=
  ⟨wit [wr (.port 4) .PORT_CFG_ROLE 3, wr (.port 4) .PORT_LINK_STAT_STATE lsAUTH, put .authStep 2 4, wr (.bridge 4)
    .BRIDGE_FAB_ID_SWITCH_ID 9], 4, true, (BitVec.ofNat 384 (ofBytes (sha384 (List.replicate 384 0)))), 0, 0, 0,
  wit_awake _ (by decide +kernel),
  by and_intros <;> decide +kernel⟩

/-- The hypotheses of clause 23 of TrainingCompletes can be met. -/
theorem witness_TrainingCompletes_23 :
    ∃ (s : State) (p : PortId) (ok : Bool), s.Awake ∧ s.inAuth p 2 = true ∧ ok = false ∧ s.linkHeld p = false :=
  ⟨wit [wr (.port 4) .PORT_CFG_ROLE 3, wr (.port 4) .PORT_LINK_STAT_STATE lsAUTH, put .authStep 2 4, wr (.bridge 4)
    .BRIDGE_FAB_ID_SWITCH_ID 9], 4, false,
  wit_awake _ (by decide +kernel),
  by and_intros <;> decide +kernel⟩

/-- The hypotheses of clause 24 of TrainingCompletes can be met. -/
theorem witness_TrainingCompletes_24 :
    ∃ (s : State) (p : PortId) (ok : Bool) (owner : BitVec 384), s.Awake ∧ s.inAuth p 2 = true ∧ ok = true ∧
      owner.toNat ≠ ofBytes s.ownerDigest :=
  ⟨wit [wr (.port 4) .PORT_CFG_ROLE 3, wr (.port 4) .PORT_LINK_STAT_STATE lsAUTH, put .authStep 2 4, wr (.bridge 4)
    .BRIDGE_FAB_ID_SWITCH_ID 9], 4, true, 1,
  wit_awake _ (by decide +kernel),
  by and_intros <;> decide +kernel⟩

/-- The hypotheses of clause 25 of TrainingCompletes can be met. -/
theorem witness_TrainingCompletes_25 :
    ∃ (s : State) (p : PortId) (ok : Bool) (owner : BitVec 384) (domain : BitVec 128), s.Awake ∧ s.inAuth p 2 = true ∧
      ok = true ∧ owner.toNat = ofBytes s.ownerDigest ∧ domain.toNat ≠ s.domainId :=
  ⟨wit [wr (.port 4) .PORT_CFG_ROLE 3, wr (.port 4) .PORT_LINK_STAT_STATE lsAUTH, put .authStep 2 4, wr (.bridge 4)
    .BRIDGE_FAB_ID_SWITCH_ID 9], 4, true, (BitVec.ofNat 384 (ofBytes (sha384 (List.replicate 384 0)))), 1,
  wit_awake _ (by decide +kernel),
  by and_intros <;> decide +kernel⟩

/-- The hypotheses of clause 26 of TrainingCompletes can be met. -/
theorem witness_TrainingCompletes_26 :
    ∃ (s : State) (p : PortId) (ok : Bool) (owner : BitVec 384) (domain : BitVec 128) (sw : Nat), s.Awake ∧ s.inAuth p
      2 = true ∧ ok = true ∧ owner.toNat = ofBytes s.ownerDigest ∧ domain.toNat = s.domainId ∧ s.selfSw = some sw :=
  ⟨wit [wr (.port 4) .PORT_CFG_ROLE 3, wr (.port 4) .PORT_LINK_STAT_STATE lsAUTH, put .authStep 2 4, wr (.bridge 4)
    .BRIDGE_FAB_ID_SWITCH_ID 9], 4, true, (BitVec.ofNat 384 (ofBytes (sha384 (List.replicate 384 0)))), 0, 9,
  wit_awake _ (by decide +kernel),
  by and_intros <;> decide +kernel⟩

/-- The hypotheses of clause 27 of TrainingCompletes can be met. -/
theorem witness_TrainingCompletes_27 :
    ∃ (s : State) (p : PortId) (ok : Bool) (owner : BitVec 384) (domain : BitVec 128) (sw : Nat) (port : Nat), s.Awake
      ∧ s.inAuth p 2 = true ∧ ok = true ∧ owner.toNat = ofBytes s.ownerDigest ∧ domain.toNat = s.domainId ∧ s.rd
      (.bridge 4) .BRIDGE_FAB_NBR_PARTNER_SW p = sw ∧ s.rd (.bridge 4) .BRIDGE_FAB_NBR_PARTNER_PORT p = port ∧
      s.selfSw ≠ some sw ∧ s.ivOn .authDebug p = true ∧ s.ivOn .rejectDebug = true :=
  ⟨wit [wr (.port 4) .PORT_CFG_ROLE 3, wr (.port 4) .PORT_LINK_STAT_STATE lsAUTH, put .authStep 2 4, wr (.bridge 4)
    .BRIDGE_FAB_ID_SWITCH_ID 9, put .authDebug 1 4, put .rejectDebug 1], 4, true, (BitVec.ofNat 384 (ofBytes (sha384
    (List.replicate 384 0)))), 0, 0, 0,
  wit_awake _ (by decide +kernel),
  by and_intros <;> decide +kernel⟩

/-- The hypotheses of clause 28 of TrainingCompletes can be met. -/
theorem witness_TrainingCompletes_28 :
    ∃ (s : State) (p : PortId), s.Awake ∧ s.inAuth p 3 = true :=
  ⟨wit [wr (.port 4) .PORT_CFG_ROLE 3, wr (.port 4) .PORT_LINK_STAT_STATE lsAUTH, put .authStep 3 4], 4,
  wit_awake _ (by decide +kernel),
  by decide +kernel⟩

/-- The hypotheses of clause 29 of TrainingCompletes can be met. -/
theorem witness_TrainingCompletes_29 :
    ∃ (s : State) (p : PortId), s.Awake ∧ s.inAuth p 3 = true ∧ s.linkHeld p = false :=
  ⟨wit [wr (.port 4) .PORT_CFG_ROLE 3, wr (.port 4) .PORT_LINK_STAT_STATE lsAUTH, put .authStep 3 4], 4,
  wit_awake _ (by decide +kernel),
  by and_intros <;> decide +kernel⟩

/-- The hypotheses of clause 30 of TrainingCompletes can be met. -/
theorem witness_TrainingCompletes_30 :
    ∃ (s : State) (p : PortId) (w : Fin 5) (r : Fin 6), s.Awake ∧ s.role p = roleDOWN ∧ lsDETECT ≤ s.link p ∧ s.link p
      < lsRECOVERY ∧ s.on (.port p) .PORT_LINK_CTRL_DISABLE = false ∧ s.noClock p = false ∧ s.belowMin p (2 ^ min
      w.val (s.pcieWidest p)) = false ∧ min (r.val + 1) (s.pcieFastest p) ≠ 0 :=
  ⟨wit [wr (.port 4) .PORT_CFG_ROLE 2, wr (.port 4) .PORT_LINK_STAT_STATE 1], 4, 0, 2,
  wit_awake _ (by decide +kernel),
  by and_intros <;> decide +kernel⟩

/-- The hypotheses of clause 31 of TrainingCompletes can be met. -/
theorem witness_TrainingCompletes_31 :
    ∃ (s : State) (p : PortId) (w : Fin 5) (r : Fin 6) (g : FaceId), s.Awake ∧ s.role p = roleUP ∧ s.faceOf p = some
      g.val ∧ s.ivOn .fperst g = true ∧ lsDETECT ≤ s.link p ∧ s.link p < lsRECOVERY ∧ s.on (.port p)
      .PORT_LINK_CTRL_DISABLE = false ∧ s.noClock p = false ∧ s.belowMin p (2 ^ min w.val (s.pcieWidest p)) = false ∧
      min (r.val + 1) (s.pcieFastest p) ≠ 0 :=
  ⟨wit [wr (.port 4) .PORT_CFG_ROLE 1, wr (.port 4) .PORT_LINK_STAT_STATE 1, wr (.face 2) .FACE_BIND_ENABLE 1, wr
    (.face 2) .FACE_BIND_PORT 4, put .fperst 1 2], 4, 0, 2, 2,
  wit_awake _ (by decide +kernel),
  by and_intros <;> decide +kernel⟩

/-- The hypotheses of clause 32 of TrainingCompletes can be met. -/
theorem witness_TrainingCompletes_32 :
    ∃ (s : State) (p : PortId) (w : Fin 5) (r : Fin 6), s.Awake ∧ s.role p = roleDOWN ∧ s.link p = lsRECOVERY ∧ s.on
      (.port p) .PORT_LINK_CTRL_DISABLE = false ∧ s.noClock p = false ∧ s.belowMin p (2 ^ min w.val (s.pcieWidest p))
      = false ∧ min (r.val + 1) (s.pcieFastest p) ≠ 0 :=
  ⟨wit [wr (.port 4) .PORT_CFG_ROLE 2, wr (.port 4) .PORT_LINK_STAT_STATE 4], 4, 0, 2,
  wit_awake _ (by decide +kernel),
  by and_intros <;> decide +kernel⟩

/-- The hypotheses of clause 33 of TrainingCompletes can be met. -/
theorem witness_TrainingCompletes_33 :
    ∃ (s : State) (p : PortId), s.Awake ∧ s.isFab p = false ∧ s.carries p = true :=
  ⟨wit [wr (.port 4) .PORT_CFG_ROLE 2, wr (.port 4) .PORT_LINK_STAT_STATE lsL0], 4,
  wit_awake _ (by decide +kernel),
  by and_intros <;> decide +kernel⟩

/-- The hypotheses of clause 1 of LinkCreditsAndAcksComplete can be met. -/
theorem witness_LinkCreditsAndAcksComplete_1 :
    ∃ (s : State) (p : PortId) (b : BitVec 64), s.Awake ∧ s.linkRuns p = true ∧ blkCrcOk b = true ∧ blkByte b 0 = 0x71
      ∧ bits (blkByte b 1) 4 3 ≠ poolCTL ∧ (s.ivOn .crInit (crIdx p (blkByte b 1 % 8) (bits (blkByte b 1) 4 3)) = true
      ∨ leastCredits (bits (blkByte b 1) 4 3) ≤ blkByte b 2 + blkByte b 3 <<< 8 + blkByte b 4 <<< 16) :=
  ⟨wit [wr (.port 4) .PORT_CFG_ROLE 3, wr (.port 4) .PORT_LINK_STAT_STATE lsUP, put .crInit 1 (crIdx 4 1 0)], 4,
    (BitVec.ofNat 64 (ofBytes [0x71, 1, 7, 0, 0, 0, 0, crc8 [0x71, 1, 7, 0, 0, 0, 0]])),
  wit_awake _ (by decide +kernel),
  by and_intros <;> decide +kernel⟩

/-- The hypotheses of clause 2 of LinkCreditsAndAcksComplete can be met. -/
theorem witness_LinkCreditsAndAcksComplete_2 :
    ∃ (s : State) (p : PortId) (x : PoolId), s.Awake ∧ s.linkRuns p = true ∧ s.link p ≠ lsREST ∧ x.val ≠ poolCTL :=
  ⟨wit [wr (.port 4) .PORT_CFG_ROLE 3, wr (.port 4) .PORT_LINK_STAT_STATE lsUP], 4, 1,
  wit_awake _ (by decide +kernel),
  by and_intros <;> decide +kernel⟩

/-- The hypotheses of clause 3 of LinkCreditsAndAcksComplete can be met. -/
theorem witness_LinkCreditsAndAcksComplete_3 :
    ∃ (s : State) (p : PortId) (x : PoolId), s.Awake ∧ s.isFab p = false ∧ s.link p = lsL0 ∧ x.val ≠ poolCTL :=
  ⟨wit [wr (.port 4) .PORT_CFG_ROLE 2, wr (.port 4) .PORT_LINK_STAT_STATE lsL0], 4, 1,
  wit_awake _ (by decide +kernel),
  by and_intros <;> decide +kernel⟩

/-- The hypotheses of clause 4 of LinkCreditsAndAcksComplete can be met. -/
theorem witness_LinkCreditsAndAcksComplete_4 :
    ∃ (s : State) (p : PortId), s.Awake ∧ s.linkRuns p = true ∧ s.link p ≠ lsREST :=
  ⟨wit [wr (.port 4) .PORT_CFG_ROLE 3, wr (.port 4) .PORT_LINK_STAT_STATE lsUP], 4,
  wit_awake _ (by decide +kernel),
  by and_intros <;> decide +kernel⟩

/-- The hypotheses of clause 5 of LinkCreditsAndAcksComplete can be met. -/
theorem witness_LinkCreditsAndAcksComplete_5 :
    ∃ (s : State) (p : PortId) (c : ClassId) (x : PoolId), s.Awake ∧ s.role p ≠ 0 ∧ (s.carries p = true ∨ s.mayNarrow
      p = true) ∧ s.rd (.port p) .PORT_LINK_CTRL_CREDIT_STALL < 0xE ∧ (s.buf.any fun k => k.pool == x.val && (x.val ==
      poolCTL || k.frame.cls == c.val) && s.lacksCredits p k) = true :=
  ⟨wit [wr (.port 4) .PORT_CFG_ROLE 3, wr (.port 4) .PORT_LINK_STAT_STATE lsUP, modBuf fun _ => [witPkt 7 2 4]], 4, 2,
    0,
  wit_awake _ (by decide +kernel),
  by and_intros <;> decide +kernel⟩

/-- The hypotheses of clause 6 of LinkCreditsAndAcksComplete can be met. -/
theorem witness_LinkCreditsAndAcksComplete_6 :
    ∃ (s : State) (p : PortId), s.Awake ∧ s.linkRuns p = true ∧ s.on (.port p) .PORT_LINK_STAT_ENC = true :=
  ⟨wit [wr (.port 4) .PORT_CFG_ROLE 3, wr (.port 4) .PORT_LINK_STAT_STATE lsUP, wr (.port 4) .PORT_LINK_STAT_ENC 1],
    4,
  wit_awake _ (by decide +kernel),
  by and_intros <;> decide +kernel⟩

/-- The hypotheses of clause 7 of LinkCreditsAndAcksComplete can be met. -/
theorem witness_LinkCreditsAndAcksComplete_7 :
    ∃ (s : State) (p : PortId), s.Awake ∧ s.linkRuns p = true ∧ s.on (.port p) .PORT_LINK_STAT_ENC = true ∧ s.ivOn
      .nextKey p = false :=
  ⟨wit [wr (.port 4) .PORT_CFG_ROLE 3, wr (.port 4) .PORT_LINK_STAT_STATE lsUP, wr (.port 4) .PORT_LINK_STAT_ENC 1],
    4,
  wit_awake _ (by decide +kernel),
  by and_intros <;> decide +kernel⟩

/-- The hypotheses of clause 8 of LinkCreditsAndAcksComplete can be met. -/
theorem witness_LinkCreditsAndAcksComplete_8 :
    ∃ (s : State) (p : PortId) (lf : LinkFrame), s.Awake ∧ s.linkRuns p = true ∧ s.laneBad p lf = false ∧ lf.crcOk =
      true ∧ lf.countOk = true ∧ lf.noSeq = false ∧ lf.seq = s.iv .rxSeq p ∧ (s.on (.port p) .PORT_LINK_STAT_ENC =
      false ∨ lf.enc = true ∧ s.tagGood p lf (s.iv .rxNum (2 * p + lf.keyPhase)) = true) ∧ credits lf.len ≤
      s.outstanding p (s.acctClass p lf.cls lf.pool) lf.pool :=
  ⟨wit [wr (.port 4) .PORT_CFG_ROLE 3, wr (.port 4) .PORT_LINK_STAT_STATE lsUP, put .rxSeq 5 4, put .crAdv 9 (crIdx 4
    2 0)], 4, (witLink 5 2 64),
  wit_awake _ (by decide +kernel),
  by and_intros <;> decide +kernel⟩

/-- The hypotheses of clause 9 of LinkCreditsAndAcksComplete can be met. -/
theorem witness_LinkCreditsAndAcksComplete_9 :
    ∃ (s : State) (p : PortId) (lf : LinkFrame), s.Awake ∧ s.linkRuns p = true ∧ (s.laneBad p lf = true ∨ lf.crcOk =
      false ∨ lf.countOk = false) :=
  ⟨wit [wr (.port 4) .PORT_CFG_ROLE 3, wr (.port 4) .PORT_LINK_STAT_STATE lsUP], 4,
    { witLink 5 2 64 with tail := 0x4B },
  wit_awake _ (by decide +kernel),
  by and_intros <;> decide +kernel⟩

/-- The hypotheses of clause 10 of LinkCreditsAndAcksComplete can be met. -/
theorem witness_LinkCreditsAndAcksComplete_10 :
    ∃ (s : State) (p : PortId) (lf : LinkFrame), s.Awake ∧ s.linkRuns p = true ∧ s.laneBad p lf = false ∧ lf.crcOk =
      true ∧ lf.countOk = true ∧ lf.noSeq = false ∧ 1 ≤ (s.iv .rxSeq p + 4096 - lf.seq) % 4096 ∧ (s.iv .rxSeq p + 4096
      - lf.seq) % 4096 ≤ 2048 ∧ s.link p ≠ lsREST :=
  ⟨wit [wr (.port 4) .PORT_CFG_ROLE 3, wr (.port 4) .PORT_LINK_STAT_STATE lsUP, put .rxSeq 6 4], 4, (witLink 5 2 64),
  wit_awake _ (by decide +kernel),
  by and_intros <;> decide +kernel⟩

/-- The hypotheses of clause 11 of LinkCreditsAndAcksComplete can be met. -/
theorem witness_LinkCreditsAndAcksComplete_11 :
    ∃ (s : State) (p : PortId), s.Awake ∧ s.linkRuns p = true ∧ s.link p ≠ lsREST ∧ s.ivOn .rxUnacked p = true :=
  ⟨wit [wr (.port 4) .PORT_CFG_ROLE 3, wr (.port 4) .PORT_LINK_STAT_STATE lsUP, put .rxUnacked 3 4], 4,
  wit_awake _ (by decide +kernel),
  by and_intros <;> decide +kernel⟩

/-- The hypotheses of clause 12 of LinkCreditsAndAcksComplete can be met. -/
theorem witness_LinkCreditsAndAcksComplete_12 :
    ∃ (s : State) (p : PortId) (b : BitVec 64), s.Awake ∧ s.linkRuns p = true ∧ blkCrcOk b = true ∧ blkByte b 0 = 0x55
      ∧ s.unsent p (ackSeq b) = false ∧ s.sentAfter p (ackSeq b) < (s.replayOf p).length :=
  ⟨wit [wr (.port 4) .PORT_CFG_ROLE 3, wr (.port 4) .PORT_LINK_STAT_STATE lsUP, put .txSeq 5 4, put .txCount 2048 4,
    putReplay 4 [witTx 4]], 4, (BitVec.ofNat 64 (ofBytes [0x55, 4, 0, 0, 0, 0, 0, crc8 [0x55, 4, 0, 0, 0, 0, 0]])),
  wit_awake _ (by decide +kernel),
  by and_intros <;> decide +kernel⟩

/-- The hypotheses of clause 13 of LinkCreditsAndAcksComplete can be met. -/
theorem witness_LinkCreditsAndAcksComplete_13 :
    ∃ (s : State) (p : PortId) (b : BitVec 64), s.Awake ∧ s.isFab p = false ∧ s.carries p = true ∧ (ackSeq b + 4096 -
      s.iv .pcieAcked p) % 4096 < s.pcieUnacked p :=
  ⟨wit [wr (.port 4) .PORT_CFG_ROLE 2, wr (.port 4) .PORT_LINK_STAT_STATE lsL0, put .pcieSent 9 4], 4, 0x200,
  wit_awake _ (by decide +kernel),
  by and_intros <;> decide +kernel⟩

/-- The hypotheses of clause 14 of LinkCreditsAndAcksComplete can be met. -/
theorem witness_LinkCreditsAndAcksComplete_14 :
    ∃ (s : State) (p : PortId) (b : BitVec 64), s.Awake ∧ s.linkRuns p = true ∧ blkCrcOk b = true ∧ blkByte b 0 = 0x69
      ∧ s.unsent p (ackSeq b) = false ∧ s.sentAfter p (ackSeq b) < (s.replayOf p).length ∧ s.sentAfter p (ackSeq b) ≠
      0 ∧ s.iv .replayAt p = 0 ∧ 1 < s.rd (.port p) .PORT_REPLAY_CNT_LIMIT :=
  ⟨wit [wr (.port 4) .PORT_CFG_ROLE 3, wr (.port 4) .PORT_LINK_STAT_STATE lsUP, put .txSeq 6 4, put .txCount 2048 4,
    putReplay 4 [witTx 4, witTx 5], wr (.port 4) .PORT_REPLAY_CNT_LIMIT 4], 4, (BitVec.ofNat 64 (ofBytes [0x69, 4, 0,
    0, 0, 0, 0, crc8 [0x69, 4, 0, 0, 0, 0, 0]])),
  wit_awake _ (by decide +kernel),
  by and_intros <;> decide +kernel⟩

/-- The hypotheses of clause 15 of LinkCreditsAndAcksComplete can be met. -/
theorem witness_LinkCreditsAndAcksComplete_15 :
    ∃ (s : State) (p : PortId), s.Awake ∧ s.isFab p = false ∧ s.carries p = true :=
  ⟨wit [wr (.port 4) .PORT_CFG_ROLE 2, wr (.port 4) .PORT_LINK_STAT_STATE lsL0, put .pcieSent 9 4], 4,
  wit_awake _ (by decide +kernel),
  by and_intros <;> decide +kernel⟩

/-- The hypotheses of clause 16 of LinkCreditsAndAcksComplete can be met. -/
theorem witness_LinkCreditsAndAcksComplete_16 :
    ∃ (s : State) (p : PortId), s.Awake ∧ s.linkRuns p = true ∧ (s.replayOf p).isEmpty = false ∧ s.rd (.port p)
      .PORT_REPLAY_CNT_CONSEC + 1 < s.rd (.port p) .PORT_REPLAY_CNT_LIMIT :=
  ⟨wit [wr (.port 4) .PORT_CFG_ROLE 3, wr (.port 4) .PORT_LINK_STAT_STATE lsUP, putReplay 4 [witTx 4], wr (.port 4)
    .PORT_REPLAY_CNT_LIMIT 4], 4,
  wit_awake _ (by decide +kernel),
  by and_intros <;> decide +kernel⟩

/-- The hypotheses of clause 17 of LinkCreditsAndAcksComplete can be met. -/
theorem witness_LinkCreditsAndAcksComplete_17 :
    ∃ (s : State) (p : PortId), s.Awake ∧ s.linkRuns p = true ∧ (s.replayOf p).isEmpty = false ∧ s.rd (.port p)
      .PORT_REPLAY_CNT_LIMIT ≤ s.rd (.port p) .PORT_REPLAY_CNT_CONSEC + 1 :=
  ⟨wit [wr (.port 4) .PORT_CFG_ROLE 3, wr (.port 4) .PORT_LINK_STAT_STATE lsUP, putReplay 4 [witTx 4], wr (.port 4)
    .PORT_REPLAY_CNT_LIMIT 1], 4,
  wit_awake _ (by decide +kernel),
  by and_intros <;> decide +kernel⟩

/-- The hypotheses of clause 18 of LinkCreditsAndAcksComplete can be met. -/
theorem witness_LinkCreditsAndAcksComplete_18 :
    ∃ (s : State) (p : PortId) (r : TxFrame) (l : List TxFrame), s.Awake ∧ s.atBoundary p = true ∧ s.linkTalks p =
      true ∧ (s.ivOn .mkDue p = false ∨ s.on (.port p) .PORT_CFG_CYC_TX = false) ∧ s.iv .replayAt p = 1 ∧ s.replayOf p
      = r :: l :=
  ⟨wit [wr (.port 4) .PORT_CFG_ROLE 3, wr (.port 4) .PORT_LINK_STAT_STATE lsUP, put .replayAt 1 4, putReplay 4 [witTx
    4]], 4, (witTx 4), [],
  wit_awake _ (by decide +kernel),
  by and_intros <;> decide +kernel⟩

/-- The hypotheses of clause 19 of LinkCreditsAndAcksComplete can be met. -/
theorem witness_LinkCreditsAndAcksComplete_19 :
    ∃ (s : State) (p : PortId) (l : Nat), s.Awake ∧ s.hatchActive p = some l ∧ s.inCycle = true ∧ s.rd (.sched p)
      .SCHED_HATCH_STAT_ENTRY_NOW + 1 < s.hatchCount p l :=
  ⟨wit [witHatch 4], 4, 1,
  wit_awake _ (by decide +kernel),
  by and_intros <;> decide +kernel⟩

/-- The hypotheses of clause 20 of LinkCreditsAndAcksComplete can be met. -/
theorem witness_LinkCreditsAndAcksComplete_20 :
    ∃ (s : State) (p : PortId), s.Awake ∧ s.isFab p = true ∧ s.link p = lsREST ∧ 200 ≤ s.restTime p ∧ (s.buf.any fun k
      => (k.waitsFor p).isSome && !(s.gates p).testBit k.frame.cls && !s.lacksCredits p k) = true :=
  ⟨wit [wr (.port 4) .PORT_CFG_ROLE 3, wr (.port 4) .PORT_LINK_STAT_STATE lsREST, modBuf fun _ => [witPkt 7 2 4], put
    .txLimit 9 (crIdx 4 2 0), setNow 500, put .restSince 1 4, wr (.sched 4) .SCHED_HATCH_CTRL_FB_MODE 1, wr (.sched 4)
    .SCHED_HATCH_CTRL_FB_GATES 0], 4,
  wit_awake _ (by decide +kernel),
  by and_intros <;> decide +kernel⟩

/-- The hypotheses of clause 1 of WidthRestAndFailureComplete can be met. -/
theorem witness_WidthRestAndFailureComplete_1 :
    ∃ (s : State) (l : LaneId), s.Awake ∧ s.ln l .LANE_STAT_ALIGN_LOCK = 1 ∧ s.iv .rxRest l = 0 ∧ s.laneState l =
      laneACTIVE :=
  ⟨wit [wr (.lane 1) .LANE_STAT_STATE 2, wr (.lane 1) .LANE_STAT_ALIGN_LOCK 1], 8,
  wit_awake _ (by decide +kernel),
  by and_intros <;> decide +kernel⟩

/-- The hypotheses of clause 2 of WidthRestAndFailureComplete can be met. -/
theorem witness_WidthRestAndFailureComplete_2 :
    ∃ (s : State) (l : LaneId), s.Awake ∧ s.laneState l = laneACTIVE ∧ s.iv .rxRest l = 0 ∧ s.ln l .LANE_RATE_CFG_MODE
      ≠ modePCIe :=
  ⟨wit [wr (.lane 1) .LANE_STAT_STATE 2], 8,
  wit_awake _ (by decide +kernel),
  by and_intros <;> decide +kernel⟩

/-- The hypotheses of clause 3 of WidthRestAndFailureComplete can be met. -/
theorem witness_WidthRestAndFailureComplete_3 :
    ∃ (s : State) (l : LaneId), s.Awake ∧ s.iv .rxRest l = 0 ∧ s.laneState l ≠ laneACTIVE :=
  ⟨wit [wr (.lane 1) .LANE_STAT_STATE 1], 8,
  wit_awake _ (by decide +kernel),
  by and_intros <;> decide +kernel⟩

/-- The hypotheses of clause 4 of WidthRestAndFailureComplete can be met. -/
theorem witness_WidthRestAndFailureComplete_4 :
    ∃ (s : State) (l : LaneId), s.Awake ∧ s.laneState l = laneACTIVE :=
  ⟨wit [wr (.lane 1) .LANE_STAT_STATE 2], 8,
  wit_awake _ (by decide +kernel),
  by decide +kernel⟩

/-- The hypotheses of clause 5 of WidthRestAndFailureComplete can be met. -/
theorem witness_WidthRestAndFailureComplete_5 :
    ∃ (s : State) (p : PortId) (b : BitVec 64), s.Awake ∧ s.isFab p = true ∧ s.link p = lsUP ∧ s.iv .wcFrom p = 0 ∧
      s.iv .wcDone p ≠ (blkByte b 1 + blkByte b 2 <<< 8) * 256 + blkByte b 3 + 1 ∧ blkCrcOk b = true ∧ blkByte b 0 =
      0xA5 ∧ s.belowMin p (setLanes (blkByte b 1 + blkByte b 2 <<< 8)).length = false :=
  ⟨wit [wr (.port 4) .PORT_CFG_ROLE 3, wr (.port 4) .PORT_LINK_STAT_STATE lsUP], 4, (BitVec.ofNat 64 (ofBytes [0xA5,
    1, 0, 3, 0, 0, 0, crc8 [0xA5, 1, 0, 3, 0, 0, 0]])),
  wit_awake _ (by decide +kernel),
  by and_intros <;> decide +kernel⟩

/-- The hypotheses of clause 6 of WidthRestAndFailureComplete can be met. -/
theorem witness_WidthRestAndFailureComplete_6 :
    ∃ (s : State) (p : PortId), s.Awake ∧ s.isFab p = true ∧ s.ivOn .widening p = true ∧ s.inService p = true ∧
      (((s.portLanes p).filter fun l => s.laneState l == laneTRAIN).all fun l => s.ln l .LANE_STAT_EQ_DONE == 1) =
      true :=
  ⟨wit [wr (.port 4) .PORT_CFG_ROLE 3, wr (.port 4) .PORT_LINK_STAT_STATE lsUP, put .widening 3 4], 4,
  wit_awake _ (by decide +kernel),
  by and_intros <;> decide +kernel⟩

/-- The hypotheses of clause 7 of WidthRestAndFailureComplete can be met. -/
theorem witness_WidthRestAndFailureComplete_7 :
    ∃ (s : State) (p : PortId), s.Awake ∧ s.isFab p = true ∧ s.link p = lsWIDTH ∧ s.linkHeld p = false :=
  ⟨wit [wr (.port 4) .PORT_CFG_ROLE 3, wr (.port 4) .PORT_LINK_STAT_STATE lsWIDTH], 4,
  wit_awake _ (by decide +kernel),
  by and_intros <;> decide +kernel⟩

/-- The hypotheses of clause 8 of WidthRestAndFailureComplete can be met. -/
theorem witness_WidthRestAndFailureComplete_8 :
    ∃ (s : State) (p : PortId), s.Awake ∧ s.role p ≠ 0 ∧ s.trained p = true :=
  ⟨wit [wr (.port 4) .PORT_CFG_ROLE 3, wr (.port 4) .PORT_LINK_STAT_STATE lsUP], 4,
  wit_awake _ (by decide +kernel),
  by and_intros <;> decide +kernel⟩

/-- The hypotheses of clause 9 of WidthRestAndFailureComplete can be met. -/
theorem witness_WidthRestAndFailureComplete_9 :
    ∃ (s : State) (p : PortId), s.Awake ∧ s.isFab p = true ∧ s.link p = lsUP ∧ s.on (.port p) .PORT_LINK_CTRL_REST_EN
      = true ∧ s.ivOn .partnerRest p = true ∧ s.nothingReady p = true ∧ ((s.portLanes p).all fun l => s.ln l
      .LANE_REST_CTRL_REST_EN == 1) = true :=
  ⟨wit [wr (.port 4) .PORT_CFG_ROLE 3, wr (.port 4) .PORT_LINK_STAT_STATE lsUP, wr (.port 4) .PORT_LINK_CTRL_REST_EN
    1, put .partnerRest 1 4, wr (.lane 1) .LANE_REST_CTRL_REST_EN 1], 4,
  wit_awake _ (by decide +kernel),
  by and_intros <;> decide +kernel⟩

/-- The hypotheses of clause 10 of WidthRestAndFailureComplete can be met. -/
theorem witness_WidthRestAndFailureComplete_10 :
    ∃ (s : State) (l : LaneId), s.Awake ∧ s.ln l .LANE_RATE_CFG_MODE = modeDaend ∧ s.laneState l = laneACTIVE :=
  ⟨wit [wr (.lane 1) .LANE_STAT_STATE 2, wr (.lane 1) .LANE_RATE_CFG_MODE 2], 8,
  wit_awake _ (by decide +kernel),
  by and_intros <;> decide +kernel⟩

/-- The hypotheses of clause 11 of WidthRestAndFailureComplete can be met. -/
theorem witness_WidthRestAndFailureComplete_11 :
    ∃ (s : State) (p : PortId), s.Awake ∧ s.isFab p = true ∧ s.link p = lsREST ∧ 200 ≤ s.restTime p :=
  ⟨wit [wr (.port 4) .PORT_CFG_ROLE 3, wr (.port 4) .PORT_LINK_STAT_STATE lsREST, setNow 500, put .restSince 1 4], 4,
  wit_awake _ (by decide +kernel),
  by and_intros <;> decide +kernel⟩

/-- The hypotheses of clause 12 of WidthRestAndFailureComplete can be met. -/
theorem witness_WidthRestAndFailureComplete_12 :
    ∃ (s : State) (p : PortId), s.Awake ∧ s.isFab p = true ∧ s.link p = lsREST ∧ s.restTime p < 200 :=
  ⟨wit [wr (.port 4) .PORT_CFG_ROLE 3, wr (.port 4) .PORT_LINK_STAT_STATE lsREST, setNow 500, put .restSince 400 4],
    4,
  wit_awake _ (by decide +kernel),
  by and_intros <;> decide +kernel⟩

/-- The hypotheses of clause 13 of WidthRestAndFailureComplete can be met. -/
theorem witness_WidthRestAndFailureComplete_13 :
    ∃ (s : State) (l : LaneId), s.Awake ∧ s.ivOn .rxRest l = true :=
  ⟨wit [put .rxRest 1 8], 8,
  wit_awake _ (by decide +kernel),
  by decide +kernel⟩

/-- The hypotheses of clause 14 of WidthRestAndFailureComplete can be met. -/
theorem witness_WidthRestAndFailureComplete_14 :
    ∃ (s : State) (st : Stamp) (p : PortId) (v : Word), s.Awake ∧ s.locked (.port p) = false ∧ s.isFab p = true ∧
      v.getLsbD 31 = true ∧ v.getLsbD 29 = false ∧ s.link p ≠ lsCONTAINED ∧ s.portHeld p = false ∧ s.pathOpen st =
      true :=
  ⟨wit [wr (.port 4) .PORT_CFG_ROLE 3, wr (.port 4) .PORT_LINK_STAT_STATE lsUP], .fw0, 4, 0x80000000,
  wit_awake _ (by decide +kernel),
  by and_intros <;> decide +kernel⟩

/-- The hypotheses of clause 15 of WidthRestAndFailureComplete can be met. -/
theorem witness_WidthRestAndFailureComplete_15 :
    ∃ (s : State) (st : Stamp), s.Awake ∧ s.pathOpen st = true :=
  ⟨wit [], .fw0,
  wit_awake _ (by decide +kernel),
  by decide +kernel⟩

/-- The hypotheses of clause 16 of WidthRestAndFailureComplete can be met. -/
theorem witness_WidthRestAndFailureComplete_16 :
    ∃ (s : State) (st : Stamp) (p : PortId) (v : Word), s.Awake ∧ s.locked (.port p) = false ∧ v.getLsbD 31 = true ∧
      s.portHeld p = false ∧ s.cfgRefused p v.toNat = true ∧ s.pathOpen st = true :=
  ⟨wit [], .fw0, 4, 0x8A000000,
  wit_awake _ (by decide +kernel),
  by and_intros <;> decide +kernel⟩

/-- The hypotheses of clause 17 of WidthRestAndFailureComplete can be met. -/
theorem witness_WidthRestAndFailureComplete_17 :
    ∃ (s : State) (st : Stamp) (p : PortId) (v : Word), s.Awake ∧ s.locked (.port p) = false ∧ v.getLsbD 31 = true ∧
      s.cfgRefused p v.toNat = false ∧ s.sharedRefused (s.portReserve p) (s.reserveAs p roleFAB) = false ∧ s.role p =
      0 ∧ s.portHeld p = false ∧ bits v.toNat 29 28 = roleFAB ∧ s.pathOpen st = true :=
  ⟨wit [wr (.lane 1) .LANE_OCT_CFG_B_RATE 1], .fw0, 4, 0xB0000000,
  wit_awake _ (by decide +kernel),
  by and_intros <;> decide +kernel⟩

/-- The hypotheses of clause 1 of FacesCompleteBindingAndWindows can be met. -/
theorem witness_FacesCompleteBindingAndWindows_1 :
    ∃ (s : State) (st : Stamp) (f : FaceId) (v : Word), s.Awake ∧ s.locked (.face f) = false ∧ s.bindRefused f v.toNat
      = false ∧ v.getLsbD 31 = true ∧ s.on (.face f) .FACE_BIND_ENABLE = false ∧ s.pathOpen st = true :=
  ⟨wit [wr (.port 8) .PORT_CFG_ROLE 1], .fw0, 2, 0x80000008,
  wit_awake _ (by decide +kernel),
  by and_intros <;> decide +kernel⟩

/-- The hypotheses of clause 2 of FacesCompleteBindingAndWindows can be met. -/
theorem witness_FacesCompleteBindingAndWindows_2 :
    ∃ (s : State) (st : Stamp) (f : FaceId) (v : Word), s.Awake ∧ s.locked (.face f) = false ∧ s.bindRefused f v.toNat
      = true ∧ s.pathOpen st = true :=
  ⟨wit [], .fw0, 2, 0x80000008,
  wit_awake _ (by decide +kernel),
  by and_intros <;> decide +kernel⟩

/-- The hypotheses of clause 3 of FacesCompleteBindingAndWindows can be met. -/
theorem witness_FacesCompleteBindingAndWindows_3 :
    ∃ (s : State) (st : Stamp) (f : FaceId), s.Awake ∧ s.locked (.face f) = false ∧ s.pathOpen st = true :=
  ⟨wit [], .fw0, 2,
  wit_awake _ (by decide +kernel),
  by and_intros <;> decide +kernel⟩

/-- The hypotheses of clause 4 of FacesCompleteBindingAndWindows can be met. -/
theorem witness_FacesCompleteBindingAndWindows_4 :
    ∃ (s : State) (f : FaceId) (n : Fin 255), s.Awake ∧ s.ivOn .sizing (256 * f + n) = true :=
  ⟨wit [put .sizing 1 (512 + 3)], 2, 3,
  wit_awake _ (by decide +kernel),
  by decide +kernel⟩

/-- The hypotheses of clause 5 of FacesCompleteBindingAndWindows can be met. -/
theorem witness_FacesCompleteBindingAndWindows_5 :
    ∃ (s : State) (f : FaceId) (o : BitVec 16), s.Awake ∧ s.bar4Empty f = false ∧ o.toNat < 0x8000 ∧ o.toNat % 16 / 4
      = 2 :=
  ⟨wit [], 2, 8,
  wit_awake _ (by decide +kernel),
  by and_intros <;> decide +kernel⟩

/-- The hypotheses of clause 6 of FacesCompleteBindingAndWindows can be met. -/
theorem witness_FacesCompleteBindingAndWindows_6 :
    ∃ (s : State) (f : FaceId) (o : BitVec 16), s.Awake ∧ s.bar4Empty f = false ∧ o.toNat < 0x8000 ∧ o.toNat % 16 / 4
      = 0 :=
  ⟨wit [], 2, 16,
  wit_awake _ (by decide +kernel),
  by and_intros <;> decide +kernel⟩

/-- The hypotheses of clause 7 of FacesCompleteBindingAndWindows can be met. -/
theorem witness_FacesCompleteBindingAndWindows_7 :
    ∃ (s : State) (f : FaceId) (o : BitVec 16), s.Awake ∧ s.bar4Empty f = false ∧ o.toNat < 0x8000 ∧ o.toNat % 16 / 4
      = 1 :=
  ⟨wit [], 2, 20,
  wit_awake _ (by decide +kernel),
  by and_intros <;> decide +kernel⟩

/-- The hypotheses of clause 8 of FacesCompleteBindingAndWindows can be met. -/
theorem witness_FacesCompleteBindingAndWindows_8 :
    ∃ (s : State) (f : FaceId) (o : BitVec 16), s.Awake ∧ s.bar4Empty f = false ∧ o.toNat < 0x8000 ∧ o.toNat % 16 / 4
      = 3 :=
  ⟨wit [], 2, 12,
  wit_awake _ (by decide +kernel),
  by and_intros <;> decide +kernel⟩

/-- The hypotheses of clause 9 of FacesCompleteBindingAndWindows can be met. -/
theorem witness_FacesCompleteBindingAndWindows_9 :
    ∃ (s : State) (o : BitVec 16), s.Awake ∧ 0x8000 ≤ o.toNat :=
  ⟨wit [], 0x8000,
  wit_awake _ (by decide +kernel),
  by decide +kernel⟩

/-- The hypotheses of clause 10 of FacesCompleteBindingAndWindows can be met. -/
theorem witness_FacesCompleteBindingAndWindows_10 :
    ∃ (s : State) (f : FaceId) (n : VecId), s.Awake ∧ s.msixOpen f = true ∧ s.ivOn .msixOpen (2048 * f + n) = true :=
  ⟨wit [put .msixEnable 1 2, put .seBusMaster 1 2, wr (.face 2) .FACE_BIND_STATE 2, put .msixOpen 1 (4096 + 7)], 2, 7,
  wit_awake _ (by decide +kernel),
  by and_intros <;> decide +kernel⟩

/-- The hypotheses of clause 11 of FacesCompleteBindingAndWindows can be met. -/
theorem witness_FacesCompleteBindingAndWindows_11 :
    ∃ (s : State) (f : FaceId) (n : VecId), s.Awake ∧ (s.msixOpen f && s.ivOn .msixOpen (2048 * f + n)) = false :=
  ⟨wit [], 2, 7,
  wit_awake _ (by decide +kernel),
  by decide +kernel⟩

/-- The hypotheses of clause 12 of FacesCompleteBindingAndWindows can be met. -/
theorem witness_FacesCompleteBindingAndWindows_12 :
    ∃ (s : State) (st : Stamp) (f : FaceId) (v : Word), s.Awake ∧ s.locked (.face f) = false ∧ v.getLsbD 31 = true ∧
      bits v.toNat 27 26 = 0 ∧ s.winStatus f (some (v.toNat % 256)) (s.staged st.code f) = 0 ∧ s.pathOpen st = true :=
  ⟨wit [wrSt 0x20 (.face 2) .FACE_WIN_SIZE_LOG2 12, wrSt 0x20 (.face 2) .FACE_WIN_BASE_ADDR 3], .fw0, 2, 0x80000005,
  wit_awake _ (by decide +kernel),
  by and_intros <;> decide +kernel⟩

/-- The hypotheses of clause 13 of FacesCompleteBindingAndWindows can be met. -/
theorem witness_FacesCompleteBindingAndWindows_13 :
    ∃ (s : State) (st : Stamp) (f : FaceId) (v : Word), s.Awake ∧ s.locked (.face f) = false ∧ v.getLsbD 31 = true ∧
      bits v.toNat 27 26 = 0 ∧ s.winStatus f (some (v.toNat % 256)) (s.staged st.code f) ≠ 0 ∧ s.pathOpen st = true :=
  ⟨wit [wrSt 0x20 (.face 2) .FACE_WIN_SIZE_LOG2 5], .fw0, 2, 0x80000005,
  wit_awake _ (by decide +kernel),
  by and_intros <;> decide +kernel⟩

/-- The hypotheses of clause 14 of FacesCompleteBindingAndWindows can be met. -/
theorem witness_FacesCompleteBindingAndWindows_14 :
    ∃ (s : State) (st : Stamp) (f : FaceId) (v : Word) (i : Nat), s.Awake ∧ s.locked (.face f) = false ∧ v.getLsbD 31
      = true ∧ bits v.toNat 27 26 = 1 ∧ firstBelow 256 (fun i => !s.wtValid f i) = some i ∧ s.winStatus f (some i)
      (s.staged st.code f) = 0 ∧ s.pathOpen st = true :=
  ⟨wit [wrSt 0x20 (.face 2) .FACE_WIN_SIZE_LOG2 12, wrSt 0x20 (.face 2) .FACE_WIN_BASE_ADDR 3], .fw0, 2, 0x84000000,
    0,
  wit_awake _ (by decide +kernel),
  by and_intros <;> decide +kernel⟩

/-- The hypotheses of clause 15 of FacesCompleteBindingAndWindows can be met. -/
theorem witness_FacesCompleteBindingAndWindows_15 :
    ∃ (s : State) (st : Stamp) (f : FaceId) (v : Word), s.Awake ∧ s.locked (.face f) = false ∧ v.getLsbD 31 = true ∧
      bits v.toNat 27 26 = 2 ∧ s.pathOpen st = true :=
  ⟨wit [wr (.face 2) .FACE_WIN_TAB_VALID 1 5], .fw0, 2, 0x88000005,
  wit_awake _ (by decide +kernel),
  by and_intros <;> decide +kernel⟩

/-- The hypotheses of clause 1 of HostRequestsComplete can be met. -/
theorem witness_HostRequestsComplete_1 :
    ∃ (s : State) (f : FaceId) (c : CfgReq) (v : Word) (b : Nat), s.Awake ∧ s.faceLive f = true ∧ s.rd (.face f)
      .FACE_BIND_STATE = fcREADY ∧ s.elemOf f c = .bridge b ∧ c.write = some v ∧ c.reg = .buses :=
  ⟨wit [wr (.face 2) .FACE_BIND_ENABLE 1, wr (.face 2) .FACE_BIND_STATE 3, wr (.face 2) .FACE_BIND_PORT 8, wr (.port
    8) .PORT_CFG_ROLE 1, wr (.port 8) .PORT_LINK_STAT_STATE lsL0], 2, ⟨0x100, 5, false, 0, 0, 0, 0x18, .buses, some
    0x00FF0100⟩, 0x00FF0100, 0,
  wit_awake _ (by decide +kernel),
  by and_intros <;> decide +kernel⟩

/-- The hypotheses of clause 2 of HostRequestsComplete can be met. -/
theorem witness_HostRequestsComplete_2 :
    ∃ (s : State) (f : FaceId) (c : CfgReq) (v : Word) (b : Nat), s.Awake ∧ s.faceLive f = true ∧ s.rd (.face f)
      .FACE_BIND_STATE = fcREADY ∧ s.elemOf f c = .bridge b ∧ 0 < b ∧ c.write = some v ∧ c.reg = .command :=
  ⟨wit [wr (.face 2) .FACE_BIND_ENABLE 1, wr (.face 2) .FACE_BIND_STATE 3, wr (.face 2) .FACE_BIND_PORT 8, wr (.port
    8) .PORT_CFG_ROLE 1, wr (.port 8) .PORT_LINK_STAT_STATE lsL0, put .secBus 1 8192, put .subBus 255 8192], 2,
    ⟨0x100, 5, true, 1, 0, 0, 4, .command, some 6⟩, 6, 1,
  wit_awake _ (by decide +kernel),
  by and_intros <;> decide +kernel⟩

/-- The hypotheses of clause 3 of HostRequestsComplete can be met. -/
theorem witness_HostRequestsComplete_3 :
    ∃ (s : State) (f : FaceId) (c : CfgReq) (v : Word) (k : Fin 6), s.Awake ∧ s.faceLive f = true ∧ s.rd (.face f)
      .FACE_BIND_STATE = fcREADY ∧ s.elemOf f c = .service ∧ c.write = some v ∧ c.reg = .bar k :=
  ⟨wit [wr (.face 2) .FACE_BIND_ENABLE 1, wr (.face 2) .FACE_BIND_STATE 3, wr (.face 2) .FACE_BIND_PORT 8, wr (.port
    8) .PORT_CFG_ROLE 1, wr (.port 8) .PORT_LINK_STAT_STATE lsL0, put .secBus 1 8192, put .subBus 255 8192, put
    .secBus 2 8193, put .subBus 2 8193], 2, ⟨0x100, 5, true, 2, 0, 0, 0x10, .bar 0, some 0x04000000⟩, 0x04000000, 0,
  wit_awake _ (by decide +kernel),
  by and_intros <;> decide +kernel⟩

/-- The hypotheses of clause 4 of HostRequestsComplete can be met. -/
theorem witness_HostRequestsComplete_4 :
    ∃ (s : State) (f : FaceId) (c : CfgReq) (n : Nat) (fn : Nat) (delta : Nat) (k : Fin 6), s.Awake ∧ s.faceLive f =
      true ∧ s.rd (.face f) .FACE_BIND_STATE = fcREADY ∧ s.elemOf f c = .device n fn delta ∧ c.write = none ∧ c.reg =
      .bar k :=
  ⟨wit [wr (.face 2) .FACE_BIND_ENABLE 1, wr (.face 2) .FACE_BIND_STATE 3, wr (.face 2) .FACE_BIND_PORT 8, wr (.port
    8) .PORT_CFG_ROLE 1, wr (.port 8) .PORT_LINK_STAT_STATE lsL0, put .secBus 1 8192, put .subBus 255 8192, put
    .secBus 3 8194, put .subBus 3 8194, wr (.face 2) .FACE_PRES_VALID 1 4, wr (.face 2) .FACE_PRES_SHOWN 1 4, wr
    (.face 2) .FACE_PRES_VDP 1 4], 2, ⟨0x100, 5, true, 3, 0, 0, 0x10, .bar 0, none⟩, 4, 0, 0, 0,
  wit_awake _ (by decide +kernel),
  by and_intros <;> decide +kernel⟩

/-- The hypotheses of clause 5 of HostRequestsComplete can be met. -/
theorem witness_HostRequestsComplete_5 :
    ∃ (s : State) (f : FaceId), s.Awake ∧ s.faceLive f = true ∧ s.rd (.face f) .FACE_BIND_STATE = fcRETRY :=
  ⟨wit [wr (.face 2) .FACE_BIND_ENABLE 1, wr (.face 2) .FACE_BIND_STATE 3, wr (.face 2) .FACE_BIND_PORT 8, wr (.port
    8) .PORT_CFG_ROLE 1, wr (.port 8) .PORT_LINK_STAT_STATE lsL0, wr (.face 2) .FACE_BIND_STATE 2], 2,
  wit_awake _ (by decide +kernel),
  by and_intros <;> decide +kernel⟩

/-- The hypotheses of clause 6 of HostRequestsComplete can be met. -/
theorem witness_HostRequestsComplete_6 :
    ∃ (s : State) (f : FaceId) (c : CfgReq), s.Awake ∧ s.faceLive f = true ∧ s.rd (.face f) .FACE_BIND_STATE = fcREADY
      ∧ s.elemOf f c = .none :=
  ⟨wit [wr (.face 2) .FACE_BIND_ENABLE 1, wr (.face 2) .FACE_BIND_STATE 3, wr (.face 2) .FACE_BIND_PORT 8, wr (.port
    8) .PORT_CFG_ROLE 1, wr (.port 8) .PORT_LINK_STAT_STATE lsL0], 2, ⟨0x100, 5, false, 0, 3, 0, 0x18, .buses, some
    0x00FF0100⟩,
  wit_awake _ (by decide +kernel),
  by and_intros <;> decide +kernel⟩

/-- The hypotheses of clause 7 of HostRequestsComplete can be met. -/
theorem witness_HostRequestsComplete_7 :
    ∃ (s : State) (f : FaceId) (u : Tlp) (x : Sel) (ad : Nat) (k : Nat) (q : PortId), s.Awake ∧ s.faceLive f = true ∧
      u.kind = .memRd ∧ u.locked = false ∧ u.ep = false ∧ s.seHit? f u.addr.toNat u.len = none ∧ s.seTouched f
      u.addr.toNat u.len = false ∧ s.hostLookup f u = .ok (x, ad) ∧ x.group = none ∧ x.retain = false ∧ s.ivOn
      .portFenced (s.facePort f) = false ∧ s.faceHolds f = false ∧ s.wayTo s.live x.dest none = some (.port q) ∧
      s.refusal (s.hostFrame f u x) (.port q) = none ∧ s.admitsAt (s.facePort f) q x.cls = true ∧ s.prefetches u x =
      false ∧ s.freeTag? f false false = some k :=
  ⟨wit [wr (.face 2) .FACE_BIND_ENABLE 1, wr (.face 2) .FACE_BIND_STATE 3, wr (.face 2) .FACE_BIND_PORT 8, wr (.port
    8) .PORT_CFG_ROLE 1, wr (.port 8) .PORT_LINK_STAT_STATE lsL0, witWindow], 2, { witTlp with kind := .memRd },
    ⟨none, 9, 0, 0, false, false⟩, 0x1000, 0, 10,
  wit_awake _ (by decide +kernel),
  by and_intros <;> decide +kernel⟩

/-- The hypotheses of clause 8 of HostRequestsComplete can be met. -/
theorem witness_HostRequestsComplete_8 :
    ∃ (s : State) (f : FaceId) (u : Tlp) (x : Sel) (ad : Nat) (q : PortId), s.Awake ∧ s.faceLive f = true ∧ u.kind =
      .memWr ∧ u.ep = false ∧ s.seHit? f u.addr.toNat u.len = none ∧ s.seTouched f u.addr.toNat u.len = false ∧
      s.hostLookup f u = .ok (x, ad) ∧ x.group = none ∧ x.retain = false ∧ s.ivOn .portFenced (s.facePort f) = false ∧
      s.faceHolds f = false ∧ s.wayTo s.live x.dest none = some (.port q) ∧ s.refusal (s.hostFrame f u x) (.port q) =
      none ∧ s.admitsAt (s.facePort f) q x.cls = true :=
  ⟨wit [wr (.face 2) .FACE_BIND_ENABLE 1, wr (.face 2) .FACE_BIND_STATE 3, wr (.face 2) .FACE_BIND_PORT 8, wr (.port
    8) .PORT_CFG_ROLE 1, wr (.port 8) .PORT_LINK_STAT_STATE lsL0, witWindow], 2, witTlp, ⟨none, 9, 0, 0, false,
    false⟩, 0x1000, 10,
  wit_awake _ (by decide +kernel),
  by and_intros <;> decide +kernel⟩

/-- The hypotheses of clause 9 of HostRequestsComplete can be met. -/
theorem witness_HostRequestsComplete_9 :
    ∃ (s : State) (f : FaceId) (u : Tlp) (off : Nat), s.Awake ∧ s.faceLive f = true ∧ s.seAwake f = true ∧ u.kind =
      .memRd ∧ s.seHit? f u.addr.toNat u.len = some (4, off) ∧ off % 4 = 0 ∧ u.len = 4 :=
  ⟨wit [wr (.face 2) .FACE_BIND_ENABLE 1, wr (.face 2) .FACE_BIND_STATE 3, wr (.face 2) .FACE_BIND_PORT 8, wr (.port
    8) .PORT_CFG_ROLE 1, wr (.port 8) .PORT_LINK_STAT_STATE lsL0, put .seMse 1 2, put .mse 1 8192, put .mse 1 8193,
    put .seBar 0x10000 20, put .seBar 0x40000000 16, put .seBar 0x80000000 18], 2,
    { witTlp with kind := .memRd, addr := 0x10008, len := 4 }, 8,
  wit_awake _ (by decide +kernel),
  by and_intros <;> decide +kernel⟩

/-- The hypotheses of clause 10 of HostRequestsComplete can be met. -/
theorem witness_HostRequestsComplete_10 :
    ∃ (s : State) (f : FaceId) (u : Tlp) (c : Nat) (ad : Nat), s.Awake ∧ s.faceLive f = true ∧ u.kind = .memRd ∧
      u.locked = false ∧ u.ep = false ∧ s.seHit? f u.addr.toNat u.len = none ∧ s.seTouched f u.addr.toNat u.len =
      false ∧ s.hostLookup f u = .error (c, ad) :=
  ⟨wit [wr (.face 2) .FACE_BIND_ENABLE 1, wr (.face 2) .FACE_BIND_STATE 3, wr (.face 2) .FACE_BIND_PORT 8, wr (.port
    8) .PORT_CFG_ROLE 1, wr (.port 8) .PORT_LINK_STAT_STATE lsL0], 2, { witTlp with kind := .memRd }, 1, 0x1000,
  wit_awake _ (by decide +kernel),
  by and_intros <;> decide +kernel⟩

/-- The hypotheses of clause 11 of HostRequestsComplete can be met. -/
theorem witness_HostRequestsComplete_11 :
    ∃ (s : State) (f : FaceId) (u : Tlp) (x : Sel) (ad : Nat) (k : Nat) (q : PortId), s.Awake ∧ s.faceLive f = true ∧
      u.kind = .memRd ∧ u.locked = true ∧ u.ep = false ∧ s.seHit? f u.addr.toNat u.len = none ∧ s.seTouched f
      u.addr.toNat u.len = false ∧ s.hostLookup f u = .ok (x, ad) ∧ x.group = none ∧ x.retain = false ∧ s.ivOn
      .portFenced (s.facePort f) = false ∧ s.faceHolds f = false ∧ s.wayTo s.live x.dest none = some (.port q) ∧
      s.refusal (s.hostFrame f u x) (.port q) = none ∧ s.admitsAt (s.facePort f) q x.cls = true ∧ (s.lockRefusal f
      x.dest).isNone = true ∧ s.iv .lockDest f = 0 ∧ s.freeTag? f false false = some k :=
  ⟨wit [wr (.face 2) .FACE_BIND_ENABLE 1, wr (.face 2) .FACE_BIND_STATE 3, wr (.face 2) .FACE_BIND_PORT 8, wr (.port
    8) .PORT_CFG_ROLE 1, wr (.port 8) .PORT_LINK_STAT_STATE lsL0, witWindow], 2,
    { witTlp with kind := .memRd, locked := true }, ⟨none, 9, 0, 0, false, false⟩, 0x1000, 0, 10,
  wit_awake _ (by decide +kernel),
  by and_intros <;> decide +kernel⟩

/-- The hypotheses of clause 12 of HostRequestsComplete can be met. -/
theorem witness_HostRequestsComplete_12 :
    ∃ (s : State) (f : FaceId) (u : Tlp) (x : Sel) (ad : Nat), s.Awake ∧ s.faceLive f = true ∧ u.kind = .memRd ∧
      u.locked = true ∧ u.ep = false ∧ s.seHit? f u.addr.toNat u.len = none ∧ s.seTouched f u.addr.toNat u.len = false
      ∧ s.hostLookup f u = .ok (x, ad) ∧ (s.lockRefusal f x.dest).isSome = true :=
  ⟨wit [wr (.face 2) .FACE_BIND_ENABLE 1, wr (.face 2) .FACE_BIND_STATE 3, wr (.face 2) .FACE_BIND_PORT 8, wr (.port
    8) .PORT_CFG_ROLE 1, wr (.port 8) .PORT_LINK_STAT_STATE lsL0, witWindow, put .lockDest 100 2, put .plate (witRoute
    4 7) (0x2000 + 99)], 2, { witTlp with kind := .memRd, locked := true }, ⟨none, 9, 0, 0, false, false⟩, 0x1000,
  wit_awake _ (by decide +kernel),
  by and_intros <;> decide +kernel⟩

/-- The hypotheses of clause 13 of HostRequestsComplete can be met. -/
theorem witness_HostRequestsComplete_13 :
    ∃ (s : State) (f : FaceId) (w : Waiting) (u : Tlp) (k : Nat) (q : PortId), s.Awake ∧ s.waiting = [w] ∧ w.why =
      .tag f.val ∧ w.pkt.frame.body = .tlp u ∧ u.kind = .cfgRd ∧ u.ep = false ∧ w.pkt.frame.retain = false ∧
      w.pkt.frame.mc = false ∧ s.on (.face f) .BLK_CTRL_QUIESCE = false ∧ s.ivOn .portFenced (s.facePort f) = false ∧
      s.freeTag? f false false = some k ∧ s.wayTo s.live w.pkt.frame.dest none = some (.port q) ∧ s.refusal
      w.pkt.frame (.port q) = none ∧ ({ s with waiting := [] } : State).admitsAt (s.facePort f) q w.pkt.frame.cls =
      true ∧ (allBelow 64 fun e => (s.engRings e).any fun n => s.ringFace n == f.val) = [] :=
  ⟨wit [wr (.face 2) .FACE_BIND_ENABLE 1, wr (.face 2) .FACE_BIND_STATE 3, wr (.face 2) .FACE_BIND_PORT 8, wr (.port
    8) .PORT_CFG_ROLE 1, wr (.port 8) .PORT_LINK_STAT_STATE lsL0, witWindow, modWaiting fun _ => [⟨.tag 2,
    { witPkt 7 2 8 with frame := { witFrame 2 52 with body := .tlp { witTlp with kind := .cfgRd } } }⟩]], 2, ⟨.tag 2,
    { witPkt 7 2 8 with frame := { witFrame 2 52 with body := .tlp { witTlp with kind := .cfgRd } } }⟩,
    { witTlp with kind := .cfgRd }, 0, 10,
  wit_awake _ (by decide +kernel),
  by and_intros <;> decide +kernel⟩

/-- The hypotheses of clause 1 of FramesEnterAndSettleInTheCore can be met. -/
theorem witness_FramesEnterAndSettleInTheCore_1 :
    ∃ (s : State) (p : PortId) (q : PortId) (lf : LinkFrame) (r : IdRoute), s.Awake ∧ s.linkRuns p = true ∧ s.link p ≠
      lsPROVISIONAL ∧ lf.frame.hcrc = lf.frame.hcrcOf ∧ s.frameBad lf = false ∧ lf.frame.linkLocal = false ∧
      lf.frame.typ ≠ 4 ∧ s.plateUsable (lf.frame.parity % 2) = true ∧ ((s.idRoute? (lf.frame.parity % 2)
      lf.frame.src).map (·.isLocal)).getD false = false ∧ lf.frame.mc = false ∧ s.idRoute? (lf.frame.parity % 2)
      lf.frame.dest = some r ∧ r.isLocal = false ∧ lf.frame.hops ≠ 0 ∧ s.unreachable lf.frame.dest = false ∧ s.wayTo
      (lf.frame.parity % 2) lf.frame.dest (some p.val) = some (.port q) ∧ poisoned lf.frame = false ∧ s.admitsAt p q
      lf.frame.cls = true :=
  ⟨wit [witFabUp 4, witFabUp 8, wr (.route 0) .ROUTE_LIVE_SEL_P0_STATE plLIVE, put .plate (witRoute 8 2) (0x2000 + 9),
    put .plate (witRoute 4 1) (0x2000 + 8)], 4, 8, witHop, (idRouteOf (witRoute 8 2)),
  wit_awake _ (by decide +kernel),
  by and_intros <;> decide +kernel⟩

/-- The hypotheses of clause 2 of FramesEnterAndSettleInTheCore can be met. -/
theorem witness_FramesEnterAndSettleInTheCore_2 :
    ∃ (s : State) (p : PortId) (lf : LinkFrame), s.Awake ∧ s.linkRuns p = true ∧ s.link p ≠ lsPROVISIONAL ∧
      lf.frame.hcrc = lf.frame.hcrcOf ∧ s.frameBad lf = false ∧ (lf.frame.linkLocal || lf.frame.typ == 4) = true :=
  ⟨wit [witFabUp 4], 4, { witHop with frame := { witHop.frame with typ := 4, body := .void }.sealed },
  wit_awake _ (by decide +kernel),
  by and_intros <;> decide +kernel⟩

/-- The hypotheses of clause 3 of FramesEnterAndSettleInTheCore can be met. -/
theorem witness_FramesEnterAndSettleInTheCore_3 :
    ∃ (s : State) (p : PortId) (lf : LinkFrame), s.Awake ∧ s.linkRuns p = true ∧ s.link p ≠ lsPROVISIONAL ∧
      lf.frame.hcrc ≠ lf.frame.hcrcOf :=
  ⟨wit [witFabUp 4], 4, witLink 5 2 128,
  wit_awake _ (by decide +kernel),
  by and_intros <;> decide +kernel⟩

/-- The hypotheses of clause 4 of FramesEnterAndSettleInTheCore can be met. -/
theorem witness_FramesEnterAndSettleInTheCore_4 :
    ∃ (s : State) (p : PortId) (u : Tlp), s.Awake ∧ s.role p = roleDOWN ∧ s.link p = lsL0 ∧ tlpCells u ≤ s.outstanding
      p 0 u.pool ∧ s.ideBars p = false ∧ u.kind = .memRd ∧ u.locked = false ∧ s.ridSpoofed p u.rid.toNat = true :=
  ⟨wit [wr (.port 8) .PORT_CFG_ROLE 2, wr (.port 8) .PORT_LINK_STAT_STATE lsL0, put .crAdv 9 (crIdx 8 0 1), put .plate
    (witDevice 8 0x100) (0x2000 + 9)], 8, { witTlp with kind := .memRd, rid := 0x900 },
  wit_awake _ (by decide +kernel),
  by and_intros <;> decide +kernel⟩

/-- The hypotheses of clause 5 of FramesEnterAndSettleInTheCore can be met. -/
theorem witness_FramesEnterAndSettleInTheCore_5 :
    ∃ (s : State) (p : PortId) (u : Tlp), s.Awake ∧ s.isFab p = false ∧ s.carries p = true ∧ s.outstanding p 0 u.pool
      < tlpCells u :=
  ⟨wit [wr (.port 8) .PORT_CFG_ROLE 2, wr (.port 8) .PORT_LINK_STAT_STATE lsL0], 8, witTlp,
  wit_awake _ (by decide +kernel),
  by and_intros <;> decide +kernel⟩

/-- The hypotheses of clause 6 of FramesEnterAndSettleInTheCore can be met. -/
theorem witness_FramesEnterAndSettleInTheCore_6 :
    ∃ (s : State) (p : PortId) (u : Tlp) (n : Nat) (r : IdRoute) (x : Sel) (q : PortId), s.Awake ∧ s.role p = roleDOWN
      ∧ s.link p = lsL0 ∧ tlpCells u ≤ s.outstanding p 0 u.pool ∧ s.ideBars p = false ∧ u.kind = .memWr ∧ u.ep = false
      ∧ s.ridSpoofed p u.rid.toNat = false ∧ s.deviceFeid? p u.rid.toNat = some (n, r) ∧ u.addr.toNat < 2 ^ 48 ∧
      s.stage2 r.part .memWr (r.space * 2 ^ 48 + u.addr.toNat) u.len = .ok x ∧ x.group = none ∧ x.retain = false ∧
      s.wayTo s.live x.dest none = some (.port q) ∧ s.refusal (s.deviceFrame n u x) (.port q) = none ∧ s.admitsAt p q
      x.cls = true :=
  ⟨wit [witWindow, put .crAdv 9 (crIdx 10 0 0)], 10, { witTlp with rid := 0x300 }, 9, (idRouteOf (witDevice 10
    0x300)), ⟨none, 9, 0, 0, false, false⟩, 10,
  wit_awake _ (by decide +kernel),
  by and_intros <;> decide +kernel⟩

/-- The hypotheses of clause 7 of FramesEnterAndSettleInTheCore can be met. -/
theorem witness_FramesEnterAndSettleInTheCore_7 :
    ∃ (s : State) (n : Nat) (c : TailChecks) (k : Pkt), s.Awake ∧ s.frameOf n = some k ∧ k.tailIn = false ∧ c.linkOk =
      true ∧ c.lengthOk = true ∧ c.ideOk = true ∧ s.fromFab k.ing = false ∧ (k.copies.any fun x => x.dst == .self) =
      false ∧ (s.tx k.frame.stream).resending = none ∧ (s.waiting.any fun w => w.why == .tail n) = false :=
  ⟨wit [modBuf fun _ => [{ witPkt 7 2 4 with tailIn := false }]], 7, ⟨true, true, true, false, true⟩,
    { witPkt 7 2 4 with tailIn := false },
  wit_awake _ (by decide +kernel),
  by and_intros <;> decide +kernel⟩

/-- The hypotheses of clause 8 of FramesEnterAndSettleInTheCore can be met. -/
theorem witness_FramesEnterAndSettleInTheCore_8 :
    ∃ (s : State) (n : Nat) (c : TailChecks) (k : Pkt), s.Awake ∧ s.frameOf n = some k ∧ s.buf.find? (fun j => j.id ==
      n) = some k ∧ s.waiting.isEmpty = true ∧ k.tailIn = false ∧ k.left = false ∧ s.hasProof k = false ∧ s.fromFab
      k.ing = false ∧ c.linkOk = false ∧ c.lengthOk = true ∧ c.ideOk = true :=
  ⟨wit [modBuf fun _ => [{ witPkt 7 2 4 with tailIn := false }]], 7, ⟨false, true, true, false, true⟩,
    { witPkt 7 2 4 with tailIn := false },
  wit_awake _ (by decide +kernel),
  by and_intros <;> decide +kernel⟩

/-- The hypotheses of clause 9 of FramesEnterAndSettleInTheCore can be met. -/
theorem witness_FramesEnterAndSettleInTheCore_9 :
    ∃ (s : State) (n : Nat) (m : Nat) (p : PortId) (q : PortId) (k : Pkt), s.Awake ∧ s.waiting = [⟨.policer m, k⟩] ∧
      k.id = n ∧ k.ing = .port p.val ∧ k.lossy = false ∧ s.fromFab (.port p.val) = true ∧ k.copies = [⟨.port q.val,
      false, false⟩] ∧ s.polFlag m 31 = true ∧ (s.meter m (s.stored k.ing k.frame) green).1 < red ∧ s.on (.core 0)
      .BLK_CTRL_QUIESCE = false ∧ s.safeHalt = false ∧ s.on (.port q) .BLK_CTRL_QUIESCE = false ∧ s.portClosed q =
      false ∧ s.unsampled = true ∧ k.isEth = false ∧ (s.buf.any (·.isEth)) = false :=
  ⟨wit [witFabUp 4, witFabUp 8, put .polCtl (2 ^ 31) 3, put .polCbs 4096 3, put .polPbs 4096 3, modWaiting fun _ =>
    [⟨.policer 3, { witPkt 7 2 8 with ing := .port 4 }⟩]], 7, 3, 4, 8, { witPkt 7 2 8 with ing := .port 4 },
  wit_awake _ (by decide +kernel),
  by and_intros <;> decide +kernel⟩

/-- The hypotheses of clause 10 of FramesEnterAndSettleInTheCore can be met. -/
theorem witness_FramesEnterAndSettleInTheCore_10 :
    ∃ (s : State) (q : PortId) (k : Pkt), s.Awake ∧ s.waiting = [⟨.quiesce, k⟩] ∧ s.mustWait k = none ∧ k.lossy =
      false ∧ s.retains k = false ∧ k.copies = [⟨.port q.val, false, false⟩] ∧ s.portClosed q = false ∧ k.isEth =
      false ∧ (s.buf.any (·.isEth)) = false :=
  ⟨wit [witFabUp 8, modWaiting fun _ => [⟨.quiesce, witPkt 7 2 8⟩]], 8, witPkt 7 2 8,
  wit_awake _ (by decide +kernel),
  by and_intros <;> decide +kernel⟩

/-- The hypotheses of clause 11 of FramesEnterAndSettleInTheCore can be met. -/
theorem witness_FramesEnterAndSettleInTheCore_11 :
    ∃ (s : State) (st : Stamp), s.Awake ∧ s.locked (.core 0) = false ∧ s.pathOpen st = true :=
  ⟨wit [], .fw0,
  wit_awake _ (by decide +kernel),
  by and_intros <;> decide +kernel⟩

/-- The hypotheses of clause 12 of FramesEnterAndSettleInTheCore can be met. -/
theorem witness_FramesEnterAndSettleInTheCore_12 :
    ∃ (s : State) (st : Stamp) (v : Word), s.Awake ∧ s.locked (.core 0) = false ∧ v.getLsbD 31 = true ∧ bits v.toNat
      11 0 = s.rdSt st.code (.core 0) .CORE_MC_SEL_GROUP ∧ s.iv .mcHas st.code = 15 ∧ s.pathOpen st = true :=
  ⟨wit [put .mcHas 15 0x20, put .mcDw 0x10 0x80], .fw0, 0x80000000,
  wit_awake _ (by decide +kernel),
  by and_intros <;> decide +kernel⟩

/-- The hypotheses of clause 13 of FramesEnterAndSettleInTheCore can be met. -/
theorem witness_FramesEnterAndSettleInTheCore_13 :
    ∃ (s : State) (n : Nat) (p : PortId) (k : Pkt), s.Awake ∧ s.buf = [k] ∧ k.id = n ∧ s.holdRuns p k = true ∧ k.lossy
      = false ∧ (k.copies.all fun x => x.dst == .port p.val) = true :=
  ⟨wit [modBuf fun _ => [{ witPkt 7 2 8 with frame := { witFrame 2 128 with mc := true } }]], 7, 8,
    { witPkt 7 2 8 with frame := { witFrame 2 128 with mc := true } },
  wit_awake _ (by decide +kernel),
  by and_intros <;> decide +kernel⟩

/-- The hypotheses of clause 14 of FramesEnterAndSettleInTheCore can be met. -/
theorem witness_FramesEnterAndSettleInTheCore_14 :
    ∃ (s : State) (n : Nat), s.Awake ∧ (s.buf.any fun k => k.id == n) = true :=
  ⟨wit [modBuf fun _ => [witPkt 7 2 8]], 7,
  wit_awake _ (by decide +kernel),
  by decide +kernel⟩

/-- The hypotheses of clause 15 of FramesEnterAndSettleInTheCore can be met. -/
theorem witness_FramesEnterAndSettleInTheCore_15 :
    ∃ (s : State) (n : Nat) (k : Pkt), s.Awake ∧ s.buf.find? (fun j => j.id == n) = some k ∧ k.left = false ∧
      s.hasProof k = false ∧ (s.waiting.any fun w => w.why == .tail n) = false :=
  ⟨wit [modBuf fun _ => [witPkt 7 2 8]], 7, witPkt 7 2 8,
  wit_awake _ (by decide +kernel),
  by and_intros <;> decide +kernel⟩

/-- The hypotheses of clause 1 of TagSlotsComplete can be met. -/
theorem witness_TagSlotsComplete_1 :
    ∃ (s : State) (f : FaceId) (req : Bool) (link : Bool) (ep : Bool) (tg : BitVec 14) (u : Tlp) (x : Slot), s.Awake ∧
      s.slot? f req tg.toNat = some x ∧ x.st = slBUSY ∧ x.onLink = link ∧ (link || s.tagEpoch f req tg.toNat == ep) =
      true ∧ x.who = .host ∧ x.extra = 0 ∧ x.flush = false ∧ u.final = true :=
  ⟨wit [modSlots fun _ => [witSlot]], 2, false, false, false, 5, { witTlp with kind := .cpl, addr := 64 }, witSlot,
  wit_awake _ (by decide +kernel),
  by and_intros <;> decide +kernel⟩

/-- The hypotheses of clause 2 of TagSlotsComplete can be met. -/
theorem witness_TagSlotsComplete_2 :
    ∃ (s : State) (f : FaceId) (req : Bool) (link : Bool) (ep : Bool) (tg : BitVec 14) (u : Tlp) (x : Slot), s.Awake ∧
      s.slot? f req tg.toNat = some x ∧ x.st = slABANDONED ∧ x.onLink = link ∧ (link || s.tagEpoch f req tg.toNat ==
      ep) = true ∧ u.final = true :=
  ⟨wit [modSlots fun _ => [{ witSlot with st := slABANDONED }]], 2, false, false, false, 5,
    { witTlp with kind := .cpl, addr := 64 }, { witSlot with st := slABANDONED },
  wit_awake _ (by decide +kernel),
  by and_intros <;> decide +kernel⟩

/-- The hypotheses of clause 3 of TagSlotsComplete can be met. -/
theorem witness_TagSlotsComplete_3 :
    ∃ (s : State) (f : FaceId) (req : Bool) (tg : BitVec 14), s.Awake ∧ (s.slots.any fun x => x.is f req tg.toNat) =
      false :=
  ⟨wit [], 2, false, 5,
  wit_awake _ (by decide +kernel),
  by decide +kernel⟩

/-- The hypotheses of clause 4 of TagSlotsComplete can be met. -/
theorem witness_TagSlotsComplete_4 :
    ∃ (s : State) (f : FaceId) (req : Bool) (tg : BitVec 14) (x : Slot), s.Awake ∧ s.slot? f req tg.toNat = some x ∧
      x.st ≠ slQUARANTINE ∧ x.onLink = true :=
  ⟨wit [modSlots fun _ => [{ witSlot with req := true, onLink := true }]], 2, true, 5,
    { witSlot with req := true, onLink := true },
  wit_awake _ (by decide +kernel),
  by and_intros <;> decide +kernel⟩

/-- The hypotheses of clause 5 of TagSlotsComplete can be met. -/
theorem witness_TagSlotsComplete_5 :
    ∃ (s : State) (f : FaceId) (req : Bool) (tg : BitVec 14) (x : Slot), s.Awake ∧ s.slot? f req tg.toNat = some x ∧
      x.st ≠ slQUARANTINE ∧ x.onLink = false :=
  ⟨wit [modSlots fun _ => [witSlot]], 2, false, 5, witSlot,
  wit_awake _ (by decide +kernel),
  by and_intros <;> decide +kernel⟩

/-- The hypotheses of clause 6 of TagSlotsComplete can be met. -/
theorem witness_TagSlotsComplete_6 :
    ∃ (s : State) (f : FaceId) (tg : BitVec 14) (x : Slot), s.Awake ∧ s.slot? f true tg.toNat = some x ∧ x.st =
      slQUARANTINE :=
  ⟨wit [modSlots fun _ => [{ witSlot with req := true, onLink := true, st := slQUARANTINE }]], 2, 5,
    { witSlot with req := true, onLink := true, st := slQUARANTINE },
  wit_awake _ (by decide +kernel),
  by and_intros <;> decide +kernel⟩

/-- The hypotheses of clause 1 of StreamsAndProofsComplete can be met. -/
theorem witness_StreamsAndProofsComplete_1 :
    ∃ (s : State) (w : SwId) (e : RelEntry), s.Awake ∧ e.gap = false ∧ e.epoch = (s.tx (streamOf w e.cls)).epoch ∧
      (s.tx (streamOf w e.cls)).proofs ≠ [] ∧ e.seq = seqBefore (s.tx (streamOf w e.cls)).nextSeq ∧ (s.tx (streamOf w
      e.cls)).proofs.all (fun q => (q.seq + 2 ^ 32 - seqBefore (((s.tx (streamOf w e.cls)).proofs.head?.map
      (·.seq)).getD 0)) % 2 ^ 32 ≤ (e.seq + 2 ^ 32 - seqBefore (((s.tx (streamOf w e.cls)).proofs.head?.map
      (·.seq)).getD 0)) % 2 ^ 32) = true :=
  ⟨wit [putTx 26 witStream], 3, ⟨2, false, false, 0, 0⟩,
  wit_awake _ (by decide +kernel),
  by and_intros <;> decide +kernel⟩

/-- The hypotheses of clause 2 of StreamsAndProofsComplete can be met. -/
theorem witness_StreamsAndProofsComplete_2 :
    ∃ (s : State) (w : SwId) (c : ClassId), s.Awake ∧ (s.tx (streamOf w c)).proofs ≠ [] ∧ (s.tx (streamOf w
      c)).resending = none ∧ (s.tx (streamOf w c)).dead = false ∧ (s.tx (streamOf w c)).resends < max 1 (s.rd (.bridge
      4) .BRIDGE_FAB_CFG_RESEND_LIMIT) :=
  ⟨wit [putTx 26 witStream], 3, 2,
  wit_awake _ (by decide +kernel),
  by and_intros <;> decide +kernel⟩

/-- The hypotheses of clause 3 of StreamsAndProofsComplete can be met. -/
theorem witness_StreamsAndProofsComplete_3 :
    ∃ (s : State) (w : SwId) (c : ClassId), s.Awake ∧ (s.tx (streamOf w c)).proofs ≠ [] ∧ (s.tx (streamOf w
      c)).resending = none ∧ (s.tx (streamOf w c)).dead = false ∧ max 1 (s.rd (.bridge 4)
      .BRIDGE_FAB_CFG_RESEND_LIMIT) ≤ (s.tx (streamOf w c)).resends :=
  ⟨wit [putTx 26 { witStream with resends := 99 }], 3, 2,
  wit_awake _ (by decide +kernel),
  by and_intros <;> decide +kernel⟩

/-- The hypotheses of clause 4 of StreamsAndProofsComplete can be met. -/
theorem witness_StreamsAndProofsComplete_4 :
    ∃ (s : State) (w : SwId) (c : ClassId), s.Awake ∧ (s.buf.any fun k => k.ing == .fabric && k.frame.retain &&
      k.frame.stream == streamOf w c) = false ∧ (s.tx (streamOf w c)).proofs.all (·.valid) = true :=
  ⟨wit [putTx 26 { witStream with resending := some 0 }], 3, 2,
  wit_awake _ (by decide +kernel),
  by and_intros <;> decide +kernel⟩

/-- The hypotheses of clause 5 of StreamsAndProofsComplete can be met. -/
theorem witness_StreamsAndProofsComplete_5 :
    ∃ (s : State) (w : SwId) (c : ClassId), s.Awake ∧ (s.tx (streamOf w c)).proofs ≠ [] ∧ (s.tx (streamOf w
      c)).resending = none ∧ (s.tx (streamOf w c)).dead = false ∧ (s.tx (streamOf w c)).resends < max 1 (s.rd (.bridge
      4) .BRIDGE_FAB_CFG_RESEND_LIMIT) :=
  ⟨wit [putTx 26 witStream], 3, 2,
  wit_awake _ (by decide +kernel),
  by and_intros <;> decide +kernel⟩

/-- The hypotheses of clause 6 of StreamsAndProofsComplete can be met. -/
theorem witness_StreamsAndProofsComplete_6 :
    ∃ (s : State) (p : PortId) (w : SwId) (c : ClassId), s.Awake ∧ s.isFab p = true ∧ s.usable p = false ∧ s.link p ≠
      lsRETIRING ∧ (s.tx (streamOf w c)).proofs ≠ [] ∧ (s.tx (streamOf w c)).resending = none ∧ (s.tx (streamOf w
      c)).dead = false ∧ (s.tx (streamOf w c)).resends < max 1 (s.rd (.bridge 4) .BRIDGE_FAB_CFG_RESEND_LIMIT) :=
  ⟨wit [putTx 26 witStream, wr (.port 4) .PORT_CFG_ROLE 3], 4, 3, 2,
  wit_awake _ (by decide +kernel),
  by and_intros <;> decide +kernel⟩

/-- The hypotheses of clause 7 of StreamsAndProofsComplete can be met. -/
theorem witness_StreamsAndProofsComplete_7 :
    ∃ (s : State) (w : SwId) (c : ClassId) (x : RxStream), s.Awake ∧ s.rx? (streamOf w c) = some x ∧ x.unrel ≠ 0 :=
  ⟨wit [putRx 26 ⟨0, 5, 4, none⟩], 3, 2, ⟨0, 5, 4, none⟩,
  wit_awake _ (by decide +kernel),
  by and_intros <;> decide +kernel⟩

/-- The hypotheses of clause 8 of StreamsAndProofsComplete can be met. -/
theorem witness_StreamsAndProofsComplete_8 :
    ∃ (s : State), s.Awake ∧ True :=
  ⟨wit [putRx 26 ⟨0, 5, 4, none⟩],
  wit_awake _ (by decide +kernel), trivial⟩

/-- The hypotheses of clause 1 of LinkStatusAndRetiringComplete can be met. -/
theorem witness_LinkStatusAndRetiringComplete_1 :
    ∃ (s : State) (p : PortId), s.Awake ∧ s.speaks p = true ∧ s.waiting.isEmpty = true ∧ s.on (.core 0)
      .BLK_CTRL_QUIESCE = false ∧ s.safeHalt = false ∧ s.on (.port p) .BLK_CTRL_QUIESCE = false ∧ s.portClosed p =
      false ∧ 1 ≤ s.sharedFree :=
  ⟨wit [witFabUp 4], 4,
  wit_awake _ (by decide +kernel),
  by and_intros <;> decide +kernel⟩

/-- The hypotheses of clause 2 of LinkStatusAndRetiringComplete can be met. -/
theorem witness_LinkStatusAndRetiringComplete_2 :
    ∃ (s : State), s.Awake ∧ ((s.tracker = ctIDLE ∨ s.tracker = ctACQUIRE ∨ s.tracker = ctLOST)) :=
  ⟨wit [witFabUp 4, witFabUp 8],
  wit_awake _ (by decide +kernel),
  by decide +kernel⟩

/-- The hypotheses of clause 3 of LinkStatusAndRetiringComplete can be met. -/
theorem witness_LinkStatusAndRetiringComplete_3 :
    ∃ (s : State) (p : PortId), s.Awake ∧ s.speaks p = true :=
  ⟨wit [witFabUp 4], 4,
  wit_awake _ (by decide +kernel),
  by decide +kernel⟩

/-- The hypotheses of clause 4 of LinkStatusAndRetiringComplete can be met. -/
theorem witness_LinkStatusAndRetiringComplete_4 :
    ∃ (s : State) (st : Stamp) (p : PortId) (v : Word), s.Awake ∧ s.locked (.port p) = false ∧ v.getLsbD 30 = true ∧
      v.getLsbD 31 = false ∧ v.getLsbD 29 = false ∧ s.usable p = true ∧ s.pathOpen st = true :=
  ⟨wit [witFabUp 4], .fw0, 4, 0x40000000,
  wit_awake _ (by decide +kernel),
  by and_intros <;> decide +kernel⟩

/-- The hypotheses of clause 5 of LinkStatusAndRetiringComplete can be met. -/
theorem witness_LinkStatusAndRetiringComplete_5 :
    ∃ (s : State) (p : PortId), s.Awake ∧ s.isFab p = true ∧ s.link p = lsRETIRING ∧ (s.replayOf p).isEmpty = true ∧
      (s.buf.any fun k => k.goesTo p) = false :=
  ⟨wit [witFabUp 4, wr (.port 4) .PORT_LINK_STAT_STATE lsRETIRING, put .txSeq 7 4], 4,
  wit_awake _ (by decide +kernel),
  by and_intros <;> decide +kernel⟩

/-- The hypotheses of clause 6 of LinkStatusAndRetiringComplete can be met. -/
theorem witness_LinkStatusAndRetiringComplete_6 :
    ∃ (s : State) (p : PortId), s.Awake ∧ s.isFab p = true ∧ s.link p = lsRETIRING :=
  ⟨wit [witFabUp 4, wr (.port 4) .PORT_LINK_STAT_STATE lsRETIRING], 4,
  wit_awake _ (by decide +kernel),
  by and_intros <;> decide +kernel⟩

/-- The hypotheses of clause 1 of PlatesCompleteWritingAndVerification can be met. -/
theorem witness_PlatesCompleteWritingAndVerification_1 :
    ∃ (s : State) (st : Stamp) (k : Fin 2), s.Awake ∧ s.plateOpen k = true ∧ s.pathOpen st = true :=
  ⟨wit [], .fw0, 1,
  wit_awake _ (by decide +kernel),
  by and_intros <;> decide +kernel⟩

/-- The hypotheses of clause 2 of PlatesCompleteWritingAndVerification can be met. -/
theorem witness_PlatesCompleteWritingAndVerification_2 :
    ∃ (s : State) (st : Stamp) (k : Fin 2), s.Awake ∧ s.plateOpen k = false ∧ s.pathOpen st = true :=
  ⟨wit [wr (.route 0) .ROUTE_LIVE_SEL_P0_STATE plLIVE], .fw0, 0,
  wit_awake _ (by decide +kernel),
  by and_intros <;> decide +kernel⟩

/-- The hypotheses of clause 3 of PlatesCompleteWritingAndVerification can be met. -/
theorem witness_PlatesCompleteWritingAndVerification_3 :
    ∃ (s : State) (st : Stamp) (k : Fin 2) (i : Fin 524288), s.Awake ∧ s.plateOpen k = true ∧ s.iv .plateAt st.code =
      k * 524288 + i + 1 ∧ s.iv .plateHas st.code = 7 ∧ s.pathOpen st = true :=
  ⟨wit [put .plateAt (524288 + 0x4000 + 1) 0x20, put .plateHas 7 0x20, put .plateDw 9 0x80], .fw0, 1, 0x4000,
  wit_awake _ (by decide +kernel),
  by and_intros <;> decide +kernel⟩

/-- The hypotheses of clause 4 of PlatesCompleteWritingAndVerification can be met. -/
theorem witness_PlatesCompleteWritingAndVerification_4 :
    ∃ (s : State) (st : Stamp) (v : Word) (k : Nat), s.Awake ∧ s.locked (.route 0) = false ∧ v.getLsbD 31 = true ∧
      s.on (.route 0) .ROUTE_VERIFY_CTRL_BUSY = false ∧ s.draft? = some k ∧ s.turnArmed = false ∧ s.verifiedDraft k =
      false ∧ s.pathOpen st = true :=
  ⟨wit [wr (.route 0) .ROUTE_LIVE_SEL_P0_STATE plLIVE], .fw0, 0x80000000, 1,
  wit_awake _ (by decide +kernel),
  by and_intros <;> decide +kernel⟩

/-- The hypotheses of clause 5 of PlatesCompleteWritingAndVerification can be met. -/
theorem witness_PlatesCompleteWritingAndVerification_5 :
    ∃ (s : State) (k : Nat) (c : Nat) (i : Nat), s.Awake ∧ s.on (.route 0) .ROUTE_VERIFY_CTRL_BUSY = true ∧ s.draft? =
      some k ∧ s.verifyResult k = (c, i) :=
  ⟨wit [wr (.route 0) .ROUTE_LIVE_SEL_P0_STATE plLIVE, wr (.route 0) .ROUTE_VERIFY_CTRL_BUSY 1], 1, vfHDR, 0,
  wit_awake _ (by decide +kernel),
  by and_intros <;> decide +kernel⟩

/-- The hypotheses of clause 6 of PlatesCompleteWritingAndVerification can be met. -/
theorem witness_PlatesCompleteWritingAndVerification_6 :
    ∃ (s : State) (st : Stamp) (v : Word), s.Awake ∧ s.locked (.route 0) = false ∧ v.getLsbD 31 = true ∧ v.getLsbD 30
      = false ∧ ([0, 1].any s.verifiedDraft) = true ∧ s.cycleNum < s.rd (.route 0) .ROUTE_TURN_CYCLE_CYCLE + s.rd
      (.route 0) .ROUTE_TURN_CYCLE_CYCLE_HI <<< 32 ∧ s.pathOpen st = true :=
  ⟨wit [wr (.route 0) .ROUTE_LIVE_SEL_P0_STATE plLIVE, wr (.route 0) .ROUTE_LIVE_SEL_P1_VERIFIED 1, wr (.route 0)
    .ROUTE_TURN_CYCLE_CYCLE 9], .fw0, 0x80000000,
  wit_awake _ (by decide +kernel),
  by and_intros <;> decide +kernel⟩

/-- The hypotheses of clause 7 of PlatesCompleteWritingAndVerification can be met. -/
theorem witness_PlatesCompleteWritingAndVerification_7 :
    ∃ (s : State) (st : Stamp) (v : Word), s.Awake ∧ s.locked (.route 0) = false ∧ v.getLsbD 31 = true ∧ v.getLsbD 30
      = false ∧ ([0, 1].any s.verifiedDraft) = false ∧ s.pathOpen st = true :=
  ⟨wit [], .fw0, 0x80000000,
  wit_awake _ (by decide +kernel),
  by and_intros <;> decide +kernel⟩

/-- The hypotheses of clause 8 of PlatesCompleteWritingAndVerification can be met. -/
theorem witness_PlatesCompleteWritingAndVerification_8 :
    ∃ (s : State) (st : Stamp) (v : Word), s.Awake ∧ s.locked (.route 0) = false ∧ v.getLsbD 31 = false ∧ v.getLsbD 30
      = false ∧ v.getLsbD 29 = true ∧ ([0, 1].any s.verifiedDraft) = true ∧ s.pathOpen st = true :=
  ⟨wit [wr (.route 0) .ROUTE_LIVE_SEL_P0_STATE plLIVE, wr (.route 0) .ROUTE_LIVE_SEL_P1_VERIFIED 1], .fw0, 0x20000000,
  wit_awake _ (by decide +kernel),
  by and_intros <;> decide +kernel⟩

/-- The hypotheses of clause 9 of PlatesCompleteWritingAndVerification can be met. -/
theorem witness_PlatesCompleteWritingAndVerification_9 :
    ∃ (s : State) (st : Stamp) (v : Word), s.Awake ∧ s.locked (.route 0) = false ∧ v.getLsbD 30 = true ∧ v.getLsbD 31
      = false ∧ v.getLsbD 29 = false ∧ s.turnArmed = true ∧ s.pathOpen st = true :=
  ⟨wit [wr (.route 0) .ROUTE_LIVE_SEL_P0_STATE plLIVE, wr (.route 0) .ROUTE_LIVE_SEL_P1_VERIFIED 1, wr (.route 0)
    .ROUTE_TURN_CTRL_ARM 1], .fw0, 0x40000000,
  wit_awake _ (by decide +kernel),
  by and_intros <;> decide +kernel⟩

/-- The hypotheses of clause 10 of PlatesCompleteWritingAndVerification can be met. -/
theorem witness_PlatesCompleteWritingAndVerification_10 :
    ∃ (s : State), s.Awake ∧ True :=
  ⟨wit [],
  wit_awake _ (by decide +kernel), trivial⟩

/-- The hypotheses of clause 11 of PlatesCompleteWritingAndVerification can be met. -/
theorem witness_PlatesCompleteWritingAndVerification_11 :
    ∃ (s : State) (k : Fin 2) (i : Fin 524288), s.Awake ∧ (s.groupRebuilding k i).isEmpty = true :=
  ⟨wit [], 0, 0x4000,
  wit_awake _ (by decide +kernel),
  by decide +kernel⟩

/-- The hypotheses of clause 12 of PlatesCompleteWritingAndVerification can be met. -/
theorem witness_PlatesCompleteWritingAndVerification_12 :
    ∃ (s : State), s.Awake ∧ True :=
  ⟨wit [put .plate 5 0x4000],
  wit_awake _ (by decide +kernel), trivial⟩

/-- The hypotheses of clause 13 of PlatesCompleteWritingAndVerification can be met. -/
theorem witness_PlatesCompleteWritingAndVerification_13 :
    ∃ (s : State) (k : Fin 2) (i : Fin 524288), s.Awake ∧ s.ivOn .plateLost (k * 524288 + i) = true :=
  ⟨wit [put .plateLost 1 0x4000], 0, 0x4000,
  wit_awake _ (by decide +kernel),
  by decide +kernel⟩

/-- The hypotheses of clause 14 of PlatesCompleteWritingAndVerification can be met. -/
theorem witness_PlatesCompleteWritingAndVerification_14 :
    ∃ (s : State), s.Awake ∧ s.on (.route 0) .ROUTE_BURN_CTRL_EN = true :=
  ⟨wit [wr (.route 0) .ROUTE_BURN_CTRL_EN 1],
  wit_awake _ (by decide +kernel),
  by decide +kernel⟩

/-- The hypotheses of clause 1 of CycleAndTimeComplete can be met. -/
theorem witness_CycleAndTimeComplete_1 :
    ∃ (s : State), s.Awake ∧ ((s.tracker = ctIDLE ∨ s.tracker = ctACQUIRE)) ∧ s.freeSrc = true ∧ s.on .schedg
      .SCHED_CYC_STAT_EVER_LOCKED = false :=
  ⟨wit [skip],
  wit_awake _ (by decide +kernel),
  by and_intros <;> decide +kernel⟩

/-- The hypotheses of clause 2 of CycleAndTimeComplete can be met. -/
theorem witness_CycleAndTimeComplete_2 :
    ∃ (s : State), s.Awake ∧ s.tracker = ctLOCKED ∧ s.on .schedg .SCHED_CYC_STAT_EVER_LOCKED = true ∧ s.iv .cycNext ≠
      0 ∧ s.iv .toFree = 0 ∧ s.iv .relock = 0 :=
  ⟨wit [wr .schedg .SCHED_CYC_STAT_STATE ctLOCKED, wr .schedg .SCHED_CYC_STAT_EVER_LOCKED 1, put .cycNext 100000, wr
    .schedg .SCHED_CYC_LEN_LEN 100000, wr .schedg .SCHED_CYC_CFG_SRC 1],
  wit_awake _ (by decide +kernel),
  by and_intros <;> decide +kernel⟩

/-- The hypotheses of clause 3 of CycleAndTimeComplete can be met. -/
theorem witness_CycleAndTimeComplete_3 :
    ∃ (s : State), s.Awake ∧ s.tracker = ctFREE ∧ s.iv .cycNext = 0 :=
  ⟨wit [wr .schedg .SCHED_CYC_STAT_STATE ctFREE],
  wit_awake _ (by decide +kernel),
  by and_intros <;> decide +kernel⟩

/-- The hypotheses of clause 4 of CycleAndTimeComplete can be met. -/
theorem witness_CycleAndTimeComplete_4 :
    ∃ (s : State), s.Awake ∧ s.tracker = ctLOCKED ∧ s.follower = false ∧ s.iv .cycNext = 0 :=
  ⟨wit [wr .schedg .SCHED_CYC_STAT_STATE ctLOCKED, wr .schedg .SCHED_CYC_CFG_SRC 1],
  wit_awake _ (by decide +kernel),
  by and_intros <;> decide +kernel⟩

/-- The hypotheses of clause 5 of CycleAndTimeComplete can be met. -/
theorem witness_CycleAndTimeComplete_5 :
    ∃ (s : State) (e : Fin 5) (x : Nat), s.Awake ∧ x = ((s.now : Int) + (e : Nat) - 2 + s.refOffset).toNat ∧ s.fromRef
      = true ∧ s.tracker = ctLOCKED ∧ s.iv .cycEdge = 0 ∧ s.inWindow x (s.iv .cycStart) (s.iv .cycPrev) = true :=
  ⟨wit [wr .schedg .SCHED_CYC_STAT_STATE ctLOCKED, wr .schedg .SCHED_CYC_CFG_SRC 1, put .cycPrev 100000], 2, 0,
  wit_awake _ (by decide +kernel),
  by and_intros <;> decide +kernel⟩

/-- The hypotheses of clause 6 of CycleAndTimeComplete can be met. -/
theorem witness_CycleAndTimeComplete_6 :
    ∃ (s : State), s.Awake ∧ s.fromRef = true ∧ s.tracker ≤ ctACQUIRE ∧ s.iv .cycFirst = 0 ∧ s.iv .edgeRun = 0 :=
  ⟨wit [wr .schedg .SCHED_CYC_CFG_SRC 1],
  wit_awake _ (by decide +kernel),
  by and_intros <;> decide +kernel⟩

/-- The hypotheses of clause 7 of CycleAndTimeComplete can be met. -/
theorem witness_CycleAndTimeComplete_7 :
    ∃ (s : State), s.Awake ∧ s.fromRef = true ∧ s.tracker = ctLOCKED ∧ s.iv .cycEdge = 0 ∧ s.iv .asSource = 0 ∧ 2 ≤
      s.holdCycles :=
  ⟨wit [wr .schedg .SCHED_CYC_STAT_STATE ctLOCKED, wr .schedg .SCHED_CYC_CFG_SRC 1],
  wit_awake _ (by decide +kernel),
  by and_intros <;> decide +kernel⟩

/-- The hypotheses of clause 8 of CycleAndTimeComplete can be met. -/
theorem witness_CycleAndTimeComplete_8 :
    ∃ (s : State) (p : PortId), s.Awake ∧ s.isFab p = true ∧ s.on (.port p) .PORT_CFG_CYC_TX = true :=
  ⟨wit [witFabUp 4, wr (.port 4) .PORT_CFG_CYC_TX 1], 4,
  wit_awake _ (by decide +kernel),
  by and_intros <;> decide +kernel⟩

/-- The hypotheses of clause 9 of CycleAndTimeComplete can be met. -/
theorem witness_CycleAndTimeComplete_9 :
    ∃ (s : State) (p : PortId) (lf : LinkFrame) (m : Marker) (n : Nat), s.Awake ∧ s.linkRuns p = true ∧ lf.frame.body
      = .marker m ∧ s.markerCount p lf.seq = some n ∧ s.on (.port p) .PORT_CFG_CYC_RX = true ∧ s.laneBad p lf = false
      ∧ lf.crcOk = true ∧ lf.countOk = true ∧ s.on (.port p) .PORT_LINK_STAT_ENC = false ∧ s.follower = false :=
  ⟨wit [witFabUp 4, wr (.port 4) .PORT_CFG_CYC_RX 1], 4, witMarker, ⟨2, true, true, 0, 0, 5, 6, 7, 100000, 8, 9⟩, 5,
  wit_awake _ (by decide +kernel),
  by and_intros <;> decide +kernel⟩

/-- The hypotheses of clause 10 of CycleAndTimeComplete can be met. -/
theorem witness_CycleAndTimeComplete_10 :
    ∃ (s : State) (p : PortId) (lf : LinkFrame), s.Awake ∧ s.linkRuns p = true ∧ s.markerCount p lf.seq = none :=
  ⟨wit [witFabUp 4, put .mkRx 6 4], 4, witMarker,
  wit_awake _ (by decide +kernel),
  by and_intros <;> decide +kernel⟩

/-- The hypotheses of clause 11 of CycleAndTimeComplete can be met. -/
theorem witness_CycleAndTimeComplete_11 :
    ∃ (s : State), s.Awake ∧ s.follower = true ∧ s.on .schedg .SCHED_CYC_CFG_ALT_EN = true ∧ s.ivOn .mkAgree
      s.otherPort = true ∧ s.usable s.otherPort = true :=
  ⟨wit [witFabUp 4, wr .schedg .SCHED_CYC_CFG_SRC 2, wr .schedg .SCHED_CYC_CFG_ALT_EN 1, wr .schedg
    .SCHED_CYC_CFG_ALT_PORT 4, put .mkAgree 1 4],
  wit_awake _ (by decide +kernel),
  by and_intros <;> decide +kernel⟩

/-- The hypotheses of clause 12 of CycleAndTimeComplete can be met. -/
theorem witness_CycleAndTimeComplete_12 :
    ∃ (s : State) (st : Stamp) (v : Word), s.Awake ∧ s.locked .schedg = false ∧ Fld.SCHED_CYC_CFG_SRC.of v.toNat ≠
      s.rd .schedg .SCHED_CYC_CFG_SRC ∧ s.on .schedg .SCHED_CYC_STAT_EVER_LOCKED = false ∧ s.pathOpen st = true :=
  ⟨wit [], .fw0, 0x40000000,
  wit_awake _ (by decide +kernel),
  by and_intros <;> decide +kernel⟩

/-- The hypotheses of clause 13 of CycleAndTimeComplete can be met. -/
theorem witness_CycleAndTimeComplete_13 :
    ∃ (s : State) (st : Stamp) (v : Word), s.Awake ∧ s.locked .schedg = false ∧ Fld.SCHED_CYC_CFG_SRC.of v.toNat ≠
      s.rd .schedg .SCHED_CYC_CFG_SRC ∧ s.on .schedg .SCHED_CYC_STAT_EVER_LOCKED = true ∧ s.tracker ≠ ctHOLDOVER ∧
      s.pathOpen st = true :=
  ⟨wit [wr .schedg .SCHED_CYC_STAT_EVER_LOCKED 1, wr .schedg .SCHED_CYC_STAT_STATE ctLOCKED], .fw0, 0x40000000,
  wit_awake _ (by decide +kernel),
  by and_intros <;> decide +kernel⟩

/-- The hypotheses of clause 14 of CycleAndTimeComplete can be met. -/
theorem witness_CycleAndTimeComplete_14 :
    ∃ (s : State), s.Awake ∧ s.ivOn .cycOut = true :=
  ⟨wit [put .cycOut 1],
  wit_awake _ (by decide +kernel),
  by decide +kernel⟩

/-- The hypotheses of clause 15 of CycleAndTimeComplete can be met. -/
theorem witness_CycleAndTimeComplete_15 :
    ∃ (s : State) (f : FaceId), s.Awake ∧ s.ivOn .ptmEnable f = true ∧ s.faceLive f = true :=
  ⟨wit [put .ptmEnable 1 2, wr (.face 2) .FACE_BIND_ENABLE 1, wr (.face 2) .FACE_BIND_STATE 3], 2,
  wit_awake _ (by decide +kernel),
  by and_intros <;> decide +kernel⟩

/-- The hypotheses of clause 16 of CycleAndTimeComplete can be met. -/
theorem witness_CycleAndTimeComplete_16 :
    ∃ (s : State) (f : FaceId), s.Awake ∧ s.ivOn .ptmEnable f = true :=
  ⟨wit [put .ptmEnable 1 2], 2,
  wit_awake _ (by decide +kernel),
  by decide +kernel⟩

/-- The hypotheses of clause 17 of CycleAndTimeComplete can be met. -/
theorem witness_CycleAndTimeComplete_17 :
    ∃ (s : State) (p : PortId), s.Awake ∧ s.role p = roleDOWN ∧ s.carries p = true :=
  ⟨wit [wr (.port 8) .PORT_CFG_ROLE 2, wr (.port 8) .PORT_LINK_STAT_STATE lsL0], 8,
  wit_awake _ (by decide +kernel),
  by and_intros <;> decide +kernel⟩

/-- The hypotheses of clause 18 of CycleAndTimeComplete can be met. -/
theorem witness_CycleAndTimeComplete_18 :
    ∃ (s : State) (st : Stamp) (v : Word), s.Awake ∧ s.locked .schedg = false ∧ v.getLsbD 31 = true ∧ s.pathOpen st =
      true :=
  ⟨wit [], .fw0, 0x80000000,
  wit_awake _ (by decide +kernel),
  by and_intros <;> decide +kernel⟩

/-- The hypotheses of clause 1 of HatchListsAndLimitsComplete can be met. -/
theorem witness_HatchListsAndLimitsComplete_1 :
    ∃ (s : State) (st : Stamp) (p : PortId), s.Awake ∧ s.locked (.sched p) = false ∧ s.hatchOpen p 0 = true ∧
      s.hatchOpen p 1 = true ∧ s.pathOpen st = true :=
  ⟨wit [], .fw0, 4,
  wit_awake _ (by decide +kernel),
  by and_intros <;> decide +kernel⟩

/-- The hypotheses of clause 2 of HatchListsAndLimitsComplete can be met. -/
theorem witness_HatchListsAndLimitsComplete_2 :
    ∃ (s : State) (st : Stamp) (p : PortId) (v : Word), s.Awake ∧ s.locked (.sched p) = false ∧ s.hatchOpen p 0 =
      false ∧ countOf (bits v.toNat 8 0) ≠ s.hatchCount p 0 ∧ s.pathOpen st = true :=
  ⟨wit [wr (.sched 4) .SCHED_HATCH_STAT_A_STATE 2], .fw0, 4, 0x00050003,
  wit_awake _ (by decide +kernel),
  by and_intros <;> decide +kernel⟩

/-- The hypotheses of clause 3 of HatchListsAndLimitsComplete can be met. -/
theorem witness_HatchListsAndLimitsComplete_3 :
    ∃ (s : State) (st : Stamp) (p : PortId) (v : Word), s.Awake ∧ s.locked (.sched p) = false ∧ v.getLsbD 31 = true ∧
      s.on (.sched p) .SCHED_HATCH_VERIFY_BUSY = false ∧ s.hatchState p (bits v.toNat 29 29) = hlIDLE ∧ s.pathOpen st
      = true :=
  ⟨wit [], .fw0, 4, 0xA0000000,
  wit_awake _ (by decide +kernel),
  by and_intros <;> decide +kernel⟩

/-- The hypotheses of clause 4 of HatchListsAndLimitsComplete can be met. -/
theorem witness_HatchListsAndLimitsComplete_4 :
    ∃ (s : State) (p : PortId), s.Awake ∧ s.on (.sched p) .SCHED_HATCH_VERIFY_BUSY = true ∧ (s.hatchResult p (s.iv
      .hatchVer p - 1)).1 = 1 :=
  ⟨wit [witHatchBlock], 4,
  wit_awake _ (by decide +kernel),
  by and_intros <;> decide +kernel⟩

/-- The hypotheses of clause 5 of HatchListsAndLimitsComplete can be met. -/
theorem witness_HatchListsAndLimitsComplete_5 :
    ∃ (s : State) (p : PortId), s.Awake ∧ s.on (.sched p) .SCHED_HATCH_VERIFY_BUSY = true ∧ (s.hatchResult p (s.iv
      .hatchVer p - 1)).1 ≠ 1 :=
  ⟨wit [wr (.sched 4) .SCHED_HATCH_VERIFY_BUSY 1], 4,
  wit_awake _ (by decide +kernel),
  by and_intros <;> decide +kernel⟩

/-- The hypotheses of clause 6 of HatchListsAndLimitsComplete can be met. -/
theorem witness_HatchListsAndLimitsComplete_6 :
    ∃ (s : State) (st : Stamp) (p : PortId) (v : Word), s.Awake ∧ s.locked (.sched p) = false ∧ v.getLsbD 31 = true ∧
      v.getLsbD 30 = false ∧ s.on (.sched p) (hatchVerFld (s.armList p v.toNat)) = true ∧ s.cycleNum < s.rd (.sched p)
      .SCHED_HATCH_CYCLE_CYCLE + s.rd (.sched p) .SCHED_HATCH_CYCLE_CYCLE_HI <<< 32 ∧ s.pathOpen st = true :=
  ⟨wit [wr (.sched 4) .SCHED_HATCH_STAT_B_VERIFIED 1, wr (.sched 4) .SCHED_HATCH_CYCLE_CYCLE 9], .fw0, 4, 0x80000001,
  wit_awake _ (by decide +kernel),
  by and_intros <;> decide +kernel⟩

/-- The hypotheses of clause 7 of HatchListsAndLimitsComplete can be met. -/
theorem witness_HatchListsAndLimitsComplete_7 :
    ∃ (s : State) (st : Stamp) (p : PortId) (v : Word), s.Awake ∧ s.locked (.sched p) = false ∧ v.getLsbD 31 = true ∧
      s.on (.sched p) (hatchVerFld (s.armList p v.toNat)) = false ∧ s.pathOpen st = true :=
  ⟨wit [], .fw0, 4, 0x80000001,
  wit_awake _ (by decide +kernel),
  by and_intros <;> decide +kernel⟩

/-- The hypotheses of clause 8 of HatchListsAndLimitsComplete can be met. -/
theorem witness_HatchListsAndLimitsComplete_8 :
    ∃ (s : State) (st : Stamp) (p : PortId) (v : Word), s.Awake ∧ s.locked (.sched p) = false ∧ v.getLsbD 31 = false ∧
      v.getLsbD 30 = false ∧ v.getLsbD 29 = true ∧ s.on (.sched p) (hatchVerFld (s.armList p v.toNat)) = true ∧
      s.pathOpen st = true :=
  ⟨wit [wr (.sched 4) .SCHED_HATCH_STAT_B_VERIFIED 1], .fw0, 4, 0x20000001,
  wit_awake _ (by decide +kernel),
  by and_intros <;> decide +kernel⟩

/-- The hypotheses of clause 9 of HatchListsAndLimitsComplete can be met. -/
theorem witness_HatchListsAndLimitsComplete_9 :
    ∃ (s : State) (st : Stamp) (p : PortId) (v : Word) (l : Nat), s.Awake ∧ s.locked (.sched p) = false ∧ v.getLsbD 30
      = true ∧ v.getLsbD 31 = false ∧ v.getLsbD 29 = false ∧ s.hatchPending p = some l ∧ s.pathOpen st = true :=
  ⟨wit [wr (.sched 4) .SCHED_HATCH_STAT_B_STATE 1], .fw0, 4, 0x40000000, 1,
  wit_awake _ (by decide +kernel),
  by and_intros <;> decide +kernel⟩

/-- The hypotheses of clause 10 of HatchListsAndLimitsComplete can be met. -/
theorem witness_HatchListsAndLimitsComplete_10 :
    ∃ (s : State) (st : Stamp) (v : Word), s.Awake ∧ s.locked .schedg = false ∧ v.getLsbD 31 = true ∧ (s.polNew
      st.code (bits v.toNat 12 0) 0).testBit 30 = false ∧ s.polNew st.code (bits v.toNat 12 0) 1 ≤ s.polNew st.code
      (bits v.toNat 12 0) 2 ∧ 9640 ≤ s.polNew st.code (bits v.toNat 12 0) 4 ∧ s.pathOpen st = true :=
  ⟨wit [], .fw0, 0x80000003,
  wit_awake _ (by decide +kernel),
  by and_intros <;> decide +kernel⟩

/-- The hypotheses of clause 11 of HatchListsAndLimitsComplete can be met. -/
theorem witness_HatchListsAndLimitsComplete_11 :
    ∃ (s : State) (st : Stamp) (v : Word), s.Awake ∧ s.locked .schedg = false ∧ v.getLsbD 31 = true ∧ (s.polNew
      st.code (bits v.toNat 12 0) 0).testBit 30 = false ∧ s.polNew st.code (bits v.toNat 12 0) 2 < s.polNew st.code
      (bits v.toNat 12 0) 1 ∧ s.pathOpen st = true :=
  ⟨wit [put .polCir 5 3], .fw0, 0x80000003,
  wit_awake _ (by decide +kernel),
  by and_intros <;> decide +kernel⟩

/-- The hypotheses of clause 12 of HatchListsAndLimitsComplete can be met. -/
theorem witness_HatchListsAndLimitsComplete_12 :
    ∃ (s : State) (st : Stamp), s.Awake ∧ s.locked (.core 2) = false ∧ s.rd (.core 0) .CORE_BUF_CFG_SHARED_MIN = 0 ∧
      s.pathOpen st = true :=
  ⟨wit [wr (.core 0) .CORE_BUF_CFG_SHARED_MIN 0], .fw0,
  wit_awake _ (by decide +kernel),
  by and_intros <;> decide +kernel⟩

/-- The hypotheses of clause 13 of HatchListsAndLimitsComplete can be met. -/
theorem witness_HatchListsAndLimitsComplete_13 :
    ∃ (s : State) (st : Stamp) (i : Fin 1024) (v : Word), s.Awake ∧ s.locked (.core 2) = false ∧ ((plainWrite st
      (.core 2) (0x100 + 4 * i.val) v.toNat).run s).sPool < s.sPool ∧ ((plainWrite st (.core 2) (0x100 + 4 * i.val)
      v.toNat).run s).sPool < s.rd (.core 0) .CORE_BUF_CFG_SHARED_MIN ∧ s.pathOpen st = true :=
  ⟨wit [wr (.core 0) .CORE_BUF_CFG_SHARED_MIN 0xFFFFFF, wr (.inst 2) .INST_STAT_BOUND 1 5], .fw0, 5, 0x20300040,
  wit_awake _ (by decide +kernel),
  by and_intros <;> decide +kernel⟩

/-- The hypotheses of clause 1 of InstancesCompleteBindingAndReset can be met. -/
theorem witness_InstancesCompleteBindingAndReset_1 :
    ∃ (s : State) (st : Stamp) (v : Word), s.Awake ∧ s.locked (.inst 0) = false ∧ v.getLsbD 31 = true ∧ bits v.toNat
      30 29 = 0 ∧ s.bound? (v.toNat % 1024) = false ∧ s.bindStatus st.code (v.toNat % 1024) = 0 ∧ s.pathOpen st = true :=
  ⟨wit [wr (.face 2) .FACE_BIND_ENABLE 1, wrSt 0x20 (.inst 0) .INST_BIND_CFG0_FACE 2, wrSt 0x20 (.inst 0)
    .INST_BIND_CFG1_FEID 12, wr (.route 0) .ROUTE_LIVE_SEL_P0_STATE plLIVE, put .plate (0xA <<< 28 + 1 <<< 22 + 2 <<<
    3 + 5 <<< 32) (0x2000 + 12)], .fw0, 0x80000005,
  wit_awake _ (by decide +kernel),
  by and_intros <;> decide +kernel⟩

/-- The hypotheses of clause 2 of InstancesCompleteBindingAndReset can be met. -/
theorem witness_InstancesCompleteBindingAndReset_2 :
    ∃ (s : State) (st : Stamp) (v : Word), s.Awake ∧ s.locked (.inst 0) = false ∧ v.getLsbD 31 = true ∧ bits v.toNat
      30 29 = 0 ∧ s.bound? (v.toNat % 1024) = true ∧ s.pathOpen st = true :=
  ⟨wit [wr (.inst 2) .INST_STAT_BOUND 1 5], .fw0, 0x80000005,
  wit_awake _ (by decide +kernel),
  by and_intros <;> decide +kernel⟩

/-- The hypotheses of clause 3 of InstancesCompleteBindingAndReset can be met. -/
theorem witness_InstancesCompleteBindingAndReset_3 :
    ∃ (s : State) (st : Stamp) (v : Word) (w : Nat), s.Awake ∧ s.locked (.inst 0) = false ∧ v.getLsbD 31 = true ∧ bits
      v.toNat 30 29 = 1 ∧ firstBelow 1024 (fun w => !s.bound? w) = some w ∧ s.bindStatus st.code w = 0 ∧ s.pathOpen st
      = true :=
  ⟨wit [wr (.face 2) .FACE_BIND_ENABLE 1, wrSt 0x20 (.inst 0) .INST_BIND_CFG0_FACE 2, wrSt 0x20 (.inst 0)
    .INST_BIND_CFG1_FEID 12, wr (.route 0) .ROUTE_LIVE_SEL_P0_STATE plLIVE, put .plate (0xA <<< 28 + 1 <<< 22 + 2 <<<
    3 + 0 <<< 32) (0x2000 + 12)], .fw0, 0xA0000000, 0,
  wit_awake _ (by decide +kernel),
  by and_intros <;> decide +kernel⟩

/-- The hypotheses of clause 4 of InstancesCompleteBindingAndReset can be met. -/
theorem witness_InstancesCompleteBindingAndReset_4 :
    ∃ (s : State) (st : Stamp) (v : Word), s.Awake ∧ s.locked (.inst 0) = false ∧ v.getLsbD 31 = true ∧ bits v.toNat
      30 29 = 2 ∧ s.bound? (v.toNat % 1024) = true ∧ s.tdi (v.toNat % 1024) = tdUNLOCKED ∧ s.pathOpen st = true :=
  ⟨wit [wr (.inst 2) .INST_STAT_BOUND 1 5], .fw0, 0xC0000005,
  wit_awake _ (by decide +kernel),
  by and_intros <;> decide +kernel⟩

/-- The hypotheses of clause 5 of InstancesCompleteBindingAndReset can be met. -/
theorem witness_InstancesCompleteBindingAndReset_5 :
    ∃ (s : State) (st : Stamp) (v : Word), s.Awake ∧ s.locked (.inst 0) = false ∧ v.getLsbD 31 = true ∧ s.bound?
      (v.toNat % 1024) = true ∧ s.resetting (v.toNat % 1024) = false ∧ s.pathOpen st = true :=
  ⟨wit [wr (.inst 2) .INST_STAT_BOUND 1 5], .fw0, 0x80000005,
  wit_awake _ (by decide +kernel),
  by and_intros <;> decide +kernel⟩

/-- The hypotheses of clause 6 of InstancesCompleteBindingAndReset can be met. -/
theorem witness_InstancesCompleteBindingAndReset_6 :
    ∃ (s : State) (st : Stamp) (v : Word), s.Awake ∧ s.locked (.inst 0) = false ∧ v.getLsbD 31 = true ∧ s.bound?
      (v.toNat % 1024) = false ∧ s.pathOpen st = true :=
  ⟨wit [], .fw0, 0x80000005,
  wit_awake _ (by decide +kernel),
  by and_intros <;> decide +kernel⟩

/-- The hypotheses of clause 7 of InstancesCompleteBindingAndReset can be met. -/
theorem witness_InstancesCompleteBindingAndReset_7 :
    ∃ (s : State) (st : Stamp) (v : ViId), s.Awake ∧ s.bound? v = true ∧ s.resetting v = false ∧ s.pathOpen st = true :=
  ⟨wit [wr (.inst 2) .INST_STAT_BOUND 1 5], .face 2, 5,
  wit_awake _ (by decide +kernel),
  by and_intros <;> decide +kernel⟩

/-- The hypotheses of clause 8 of InstancesCompleteBindingAndReset can be met. -/
theorem witness_InstancesCompleteBindingAndReset_8 :
    ∃ (s : State) (v : ViId), s.Awake ∧ s.resetting v = true ∧ (s.fifo .flushTodo v).isEmpty = true ∧ s.flushing v =
      false ∧ s.tdi v = tdUNLOCKED ∧ s.iv .unbindBy v = 0 ∧ s.iv .stopWaits v = 0 :=
  ⟨wit [wr (.inst 2) .INST_STAT_BOUND 1 5, wr (.inst 2) .INST_STAT_RESETTING 1 5], 5,
  wit_awake _ (by decide +kernel),
  by and_intros <;> decide +kernel⟩

/-- The hypotheses of clause 9 of InstancesCompleteBindingAndReset can be met. -/
theorem witness_InstancesCompleteBindingAndReset_9 :
    ∃ (s : State) (v : ViId) (c : Nat), s.Awake ∧ s.resetting v = true ∧ (s.fifo .flushTodo v).isEmpty = true ∧
      s.flushing v = false ∧ c < 64 ∧ (s.iv .unbindBy v).testBit c = true ∧ s.iv .stopWaits v = 0 :=
  ⟨wit [wr (.inst 2) .INST_STAT_BOUND 1 5, wr (.inst 2) .INST_STAT_RESETTING 1 5, put .unbindBy (2 ^ 0x20 + 2 ^ 0x21)
    5], 5, 0x20,
  wit_awake _ (by decide +kernel),
  by and_intros <;> decide +kernel⟩

/-- The hypotheses of clause 10 of InstancesCompleteBindingAndReset can be met. -/
theorem witness_InstancesCompleteBindingAndReset_10 :
    ∃ (s : State) (v : ViId), s.Awake ∧ s.resetting v = true ∧ (s.slots.any fun x => x.who == .inst v.val && x.flush
      && x.st == slBUSY) = true :=
  ⟨wit [wr (.inst 2) .INST_STAT_BOUND 1 5, wr (.inst 2) .INST_STAT_RESETTING 1 5, modSlots fun _ =>
    [{ witSlot with who := .inst 5, flush := true }]], 5,
  wit_awake _ (by decide +kernel),
  by and_intros <;> decide +kernel⟩

/-- The hypotheses of clause 11 of InstancesCompleteBindingAndReset can be met. -/
theorem witness_InstancesCompleteBindingAndReset_11 :
    ∃ (s : State) (st : Stamp), s.Awake ∧ s.locked (.inst 1) = false ∧ s.pathOpen st = true :=
  ⟨wit [], .fw0,
  wit_awake _ (by decide +kernel),
  by and_intros <;> decide +kernel⟩

/-- The hypotheses of clause 1 of TdispCompletes can be met. -/
theorem witness_TdispCompletes_1 :
    ∃ (s : State) (ch : DoeOrMctp) (f : FaceId), s.Awake ∧ ch = some f ∧ s.fwRuns = true ∧ s.ivOn .spdmSess f = false :=
  ⟨wit [wr .glb .GLB_DEV_STATE_FW_SLOT 0], some 2, 2,
  wit_awake _ (by decide +kernel),
  by and_intros <;> decide +kernel⟩

/-- The hypotheses of clause 2 of TdispCompletes can be met. -/
theorem witness_TdispCompletes_2 :
    ∃ (s : State) (f : FaceId) (v : ViId), s.Awake ∧ s.fwRuns = true ∧ s.ivOn .spdmSess f = true ∧ s.bound? v = true ∧
      s.viFace v = f.val :=
  ⟨wit [witSession, wr (.inst 2) .INST_STAT_BOUND 1 5, wr (.inst 2) .INST_STAT_FACE 2 5], 2, 5,
  wit_awake _ (by decide +kernel),
  by and_intros <;> decide +kernel⟩

/-- The hypotheses of clause 3 of TdispCompletes can be met. -/
theorem witness_TdispCompletes_3 :
    ∃ (s : State) (f : FaceId) (v : ViId), s.Awake ∧ s.fwRuns = true ∧ s.ivOn .spdmSess f = true ∧ s.bound? v = true ∧
      s.viFace v = f.val :=
  ⟨wit [witSession, wr (.inst 2) .INST_STAT_BOUND 1 5, wr (.inst 2) .INST_STAT_FACE 2 5], 2, 5,
  wit_awake _ (by decide +kernel),
  by and_intros <;> decide +kernel⟩

/-- The hypotheses of clause 4 of TdispCompletes can be met. -/
theorem witness_TdispCompletes_4 :
    ∃ (s : State) (f : FaceId) (v : ViId), s.Awake ∧ s.fwRuns = true ∧ s.ivOn .spdmSess f = true ∧ s.bound? v = true ∧
      s.viFace v = f.val ∧ s.resetting v = false ∧ s.tdi v = tdUNLOCKED :=
  ⟨wit [witSession, wr (.inst 2) .INST_STAT_BOUND 1 5, wr (.inst 2) .INST_STAT_FACE 2 5], 2, 5,
  wit_awake _ (by decide +kernel),
  by and_intros <;> decide +kernel⟩

/-- The hypotheses of clause 5 of TdispCompletes can be met. -/
theorem witness_TdispCompletes_5 :
    ∃ (s : State) (f : FaceId) (v : ViId), s.Awake ∧ s.fwRuns = true ∧ s.ivOn .spdmSess f = true ∧ s.bound? v = true ∧
      s.viFace v = f.val ∧ s.resetting v = false ∧ s.tdi v ≠ tdUNLOCKED :=
  ⟨wit [witSession, wr (.inst 2) .INST_STAT_BOUND 1 5, wr (.inst 2) .INST_STAT_FACE 2 5, wr (.inst 2) .INST_STAT_TDI 2
    5], 2, 5,
  wit_awake _ (by decide +kernel),
  by and_intros <;> decide +kernel⟩

/-- The hypotheses of clause 6 of TdispCompletes can be met. -/
theorem witness_TdispCompletes_6 :
    ∃ (s : State) (f : FaceId) (v : ViId), s.Awake ∧ s.fwRuns = true ∧ s.ivOn .spdmSess f = true ∧ s.bound? v = true ∧
      s.viFace v = f.val :=
  ⟨wit [witSession, wr (.inst 2) .INST_STAT_BOUND 1 5, wr (.inst 2) .INST_STAT_FACE 2 5], 2, 5,
  wit_awake _ (by decide +kernel),
  by and_intros <;> decide +kernel⟩

/-- The hypotheses of clause 7 of TdispCompletes can be met. -/
theorem witness_TdispCompletes_7 :
    ∃ (s : State) (f : FaceId) (v : ViId), s.Awake ∧ s.fwRuns = true ∧ s.ivOn .spdmSess f = true ∧ s.bound? v = true ∧
      s.viFace v = f.val ∧ s.tdi v = tdLOCKED :=
  ⟨wit [witSession, wr (.inst 2) .INST_STAT_BOUND 1 5, wr (.inst 2) .INST_STAT_FACE 2 5, wr (.inst 2) .INST_STAT_TDI 1
    5], 2, 5,
  wit_awake _ (by decide +kernel),
  by and_intros <;> decide +kernel⟩

/-- The hypotheses of clause 8 of TdispCompletes can be met. -/
theorem witness_TdispCompletes_8 :
    ∃ (s : State) (f : FaceId) (v : ViId), s.Awake ∧ s.fwRuns = true ∧ s.ivOn .spdmSess f = true ∧ s.bound? v = true ∧
      s.viFace v = f.val ∧ s.tdi v = tdLOCKED :=
  ⟨wit [witSession, wr (.inst 2) .INST_STAT_BOUND 1 5, wr (.inst 2) .INST_STAT_FACE 2 5, wr (.inst 2) .INST_STAT_TDI 1
    5], 2, 5,
  wit_awake _ (by decide +kernel),
  by and_intros <;> decide +kernel⟩

/-- The hypotheses of clause 9 of TdispCompletes can be met. -/
theorem witness_TdispCompletes_9 :
    ∃ (s : State) (f : FaceId) (v : ViId), s.Awake ∧ s.fwRuns = true ∧ s.ivOn .spdmSess f = true ∧ s.bound? v = true ∧
      s.viFace v = f.val ∧ s.tdi v ≠ tdLOCKED :=
  ⟨wit [witSession, wr (.inst 2) .INST_STAT_BOUND 1 5, wr (.inst 2) .INST_STAT_FACE 2 5], 2, 5,
  wit_awake _ (by decide +kernel),
  by and_intros <;> decide +kernel⟩

/-- The hypotheses of clause 10 of TdispCompletes can be met. -/
theorem witness_TdispCompletes_10 :
    ∃ (s : State) (f : FaceId) (v : ViId), s.Awake ∧ s.fwRuns = true ∧ s.ivOn .spdmSess f = true ∧ s.bound? v = true ∧
      s.viFace v = f.val ∧ s.resetting v = false :=
  ⟨wit [witSession, wr (.inst 2) .INST_STAT_BOUND 1 5, wr (.inst 2) .INST_STAT_FACE 2 5, wr (.inst 2) .INST_STAT_TDI 2
    5], 2, 5,
  wit_awake _ (by decide +kernel),
  by and_intros <;> decide +kernel⟩

/-- The hypotheses of clause 11 of TdispCompletes can be met. -/
theorem witness_TdispCompletes_11 :
    ∃ (s : State) (f : FaceId) (v : ViId), s.Awake ∧ s.fwRuns = true ∧ s.ivOn .spdmSess f = true ∧ s.bound? v = true ∧
      s.viFace v = f.val :=
  ⟨wit [witSession, wr (.inst 2) .INST_STAT_BOUND 1 5, wr (.inst 2) .INST_STAT_FACE 2 5], 2, 5,
  wit_awake _ (by decide +kernel),
  by and_intros <;> decide +kernel⟩

/-- The hypotheses of clause 1 of FaceResetsComplete can be met. -/
theorem witness_FaceResetsComplete_1 :
    ∃ (s : State) (f : FaceId), s.Awake ∧ s.on (.face f) .FACE_BIND_ENABLE = true :=
  ⟨wit [wr (.face 2) .FACE_BIND_ENABLE 1, wr (.face 2) .FACE_BIND_STATE 3, wr (.face 2) .FACE_BIND_PORT 8, wr (.port
    8) .PORT_CFG_ROLE 1, wr (.port 8) .PORT_LINK_STAT_STATE lsL0, put .fperst 1 2, put .secBus 4 8192, put .msixEnable
    1 2], 2,
  wit_awake _ (by decide +kernel),
  by decide +kernel⟩

/-- The hypotheses of clause 2 of FaceResetsComplete can be met. -/
theorem witness_FaceResetsComplete_2 :
    ∃ (s : State) (f : FaceId), s.Awake ∧ s.faceLive f = true :=
  ⟨wit [wr (.face 2) .FACE_BIND_ENABLE 1, wr (.face 2) .FACE_BIND_STATE 3, wr (.face 2) .FACE_BIND_PORT 8, wr (.port
    8) .PORT_CFG_ROLE 1, wr (.port 8) .PORT_LINK_STAT_STATE lsL0], 2,
  wit_awake _ (by decide +kernel),
  by decide +kernel⟩

/-- The hypotheses of clause 3 of FaceResetsComplete can be met. -/
theorem witness_FaceResetsComplete_3 :
    ∃ (s : State), s.Awake ∧ True :=
  ⟨wit [],
  wit_awake _ (by decide +kernel), trivial⟩

/-- The hypotheses of clause 4 of FaceResetsComplete can be met. -/
theorem witness_FaceResetsComplete_4 :
    ∃ (s : State) (f : FaceId), s.Awake ∧ s.facesAnswer = true ∧ s.rd (.face f) .FACE_BIND_STATE = fcRETRY :=
  ⟨wit [wr .glb .GLB_DEV_STATE_STATE 4, wr (.face 2) .FACE_BIND_STATE 2], 2,
  wit_awake _ (by decide +kernel),
  by and_intros <;> decide +kernel⟩

/-- The hypotheses of clause 5 of FaceResetsComplete can be met. -/
theorem witness_FaceResetsComplete_5 :
    ∃ (s : State) (f : FaceId), s.Awake ∧ s.on (.face f) .FACE_FLR_STAT_BUSY = false :=
  ⟨wit [wr (.face 2) .FACE_BIND_ENABLE 1, wr (.face 2) .FACE_BIND_STATE 3, wr (.face 2) .FACE_BIND_PORT 8, wr (.port
    8) .PORT_CFG_ROLE 1, wr (.port 8) .PORT_LINK_STAT_STATE lsL0], 2,
  wit_awake _ (by decide +kernel),
  by decide +kernel⟩

/-- The hypotheses of clause 6 of FaceResetsComplete can be met. -/
theorem witness_FaceResetsComplete_6 :
    ∃ (s : State) (f : FaceId), s.Awake ∧ s.on (.face f) .FACE_FLR_STAT_BUSY = true ∧ (s.fifo .flushTodo (1024 +
      f)).isEmpty = true ∧ ((s.visOf f).any fun v => s.resetting v && s.flushing v) = false ∧ (s.slots.any fun x =>
      x.flush && x.st == slBUSY && s.seSlot f x) = false :=
  ⟨wit [wr (.face 2) .FACE_FLR_STAT_BUSY 1, put .msixEnable 1 2], 2,
  wit_awake _ (by decide +kernel),
  by and_intros <;> decide +kernel⟩

/-- The hypotheses of clause 7 of FaceResetsComplete can be met. -/
theorem witness_FaceResetsComplete_7 :
    ∃ (s : State) (f : FaceId), s.Awake ∧ s.faceLive f = true :=
  ⟨wit [wr (.face 2) .FACE_BIND_ENABLE 1, wr (.face 2) .FACE_BIND_STATE 3, wr (.face 2) .FACE_BIND_PORT 8, wr (.port
    8) .PORT_CFG_ROLE 1, wr (.port 8) .PORT_LINK_STAT_STATE lsL0], 2,
  wit_awake _ (by decide +kernel),
  by decide +kernel⟩

/-- The hypotheses of clause 1 of RingsComplete can be met. -/
theorem witness_RingsComplete_1 :
    ∃ (s : State) (st : Stamp) (n : RingId) (v : Word), s.Awake ∧ s.ringRefused n v.toNat = false ∧ s.on (.ring n)
      .MOVER_RING_CFG_ENABLE = false ∧ v.getLsbD 31 = true ∧ s.pathOpen st = true :=
  ⟨wit [wr (.eng 3) .MOVER_ENG_CTRL_ENABLE 1], .fw0, 7, 0x884020C0,
  wit_awake _ (by decide +kernel),
  by and_intros <;> decide +kernel⟩

/-- The hypotheses of clause 2 of RingsComplete can be met. -/
theorem witness_RingsComplete_2 :
    ∃ (s : State) (st : Stamp) (n : RingId) (v : Word), s.Awake ∧ s.ringRefused n v.toNat = false ∧ s.on (.ring n)
      .MOVER_RING_CFG_ENABLE = true ∧ v.getLsbD 31 = false ∧ s.openDesc? n = none ∧ s.pathOpen st = true :=
  ⟨wit [witRing], .fw0, 7, 0x084020C0,
  wit_awake _ (by decide +kernel),
  by and_intros <;> decide +kernel⟩

/-- The hypotheses of clause 3 of RingsComplete can be met. -/
theorem witness_RingsComplete_3 :
    ∃ (s : State) (st : Stamp) (n : RingId) (x : Bool) (v : Word), s.Awake ∧ x = false ∧ s.ringRefused n v.toNat =
      true ∧ s.pathOpen st = true :=
  ⟨wit [], .fw0, 7, false, 0x834020C0,
  wit_awake _ (by decide +kernel),
  by and_intros <;> decide +kernel⟩

/-- The hypotheses of clause 4 of RingsComplete can be met. -/
theorem witness_RingsComplete_4 :
    ∃ (s : State) (st : Stamp) (n : RingId) (v : Word), s.Awake ∧ s.ringRefused n v.toNat = false ∧ s.on (.ring n)
      .MOVER_RING_CFG_ENABLE = true ∧ v.getLsbD 31 = true ∧ bits v.toNat 11 6 ≠ s.rd (.ring n) .MOVER_RING_CFG_ENGINE
      ∧ s.iv .rehome n = 0 ∧ s.pathOpen st = true :=
  ⟨wit [witRing], .fw0, 7, 0x88402100,
  wit_awake _ (by decide +kernel),
  by and_intros <;> decide +kernel⟩

/-- The hypotheses of clause 5 of RingsComplete can be met. -/
theorem witness_RingsComplete_5 :
    ∃ (s : State) (n : RingId), s.Awake ∧ s.ringSt n = rsREHOMING ∧ s.openDesc? n = none :=
  ⟨wit [witRing, wr (.ring 7) .MOVER_RING_STAT_STATE 3, put .rehome 5 7], 7,
  wit_awake _ (by decide +kernel),
  by and_intros <;> decide +kernel⟩

/-- The hypotheses of clause 6 of RingsComplete can be met. -/
theorem witness_RingsComplete_6 :
    ∃ (s : State) (st : Stamp), s.Awake ∧ s.pathOpen st = true :=
  ⟨wit [], .fw0,
  wit_awake _ (by decide +kernel),
  by decide +kernel⟩

/-- The hypotheses of clause 7 of RingsComplete can be met. -/
theorem witness_RingsComplete_7 :
    ∃ (s : State) (n : RingId) (k : Nat), s.Awake ∧ s.ringSt n = rsACTIVE ∧ s.on (.ring n) .MOVER_RING_CFG_ENABLE =
      true ∧ s.ringQuiet n = false ∧ s.ringToHost n = true ∧ s.contained (.face (s.ringFace n)) = false ∧ s.faceLive
      (s.ringFace n) = true ∧ s.iv .fetchTag n = 0 ∧ 0 < s.fetchCount n ∧ s.ringTag? n true = some k :=
  ⟨wit [witRing, wr (.face 2) .FACE_BIND_ENABLE 1, wr (.face 2) .FACE_BIND_STATE 3, wr (.ring 7) .MOVER_RING_TAIL_TAIL
    3], 7, 0,
  wit_awake _ (by decide +kernel),
  by and_intros <;> decide +kernel⟩

/-- The hypotheses of clause 8 of RingsComplete can be met. -/
theorem witness_RingsComplete_8 :
    ∃ (s : State) (n : RingId), s.Awake ∧ s.ivOn .fetchTag n = true ∧ 0 < s.iv .fetchN n ∧ s.ringVi n = none ∧ s.descs
      = [] ∧ s.ringSt n ≠ rsACTIVE :=
  ⟨wit [witRing, wr (.ring 7) .MOVER_RING_STAT_STATE 2, put .fetchTag 6 7, put .fetchN 3 7], 7,
  wit_awake _ (by decide +kernel),
  by and_intros <;> decide +kernel⟩

/-- The hypotheses of clause 9 of RingsComplete can be met. -/
theorem witness_RingsComplete_9 :
    ∃ (s : State) (n : RingId), s.Awake ∧ s.ivOn .fetchTag n = true :=
  ⟨wit [witRing, put .fetchTag 6 7], 7,
  wit_awake _ (by decide +kernel),
  by decide +kernel⟩

/-- The hypotheses of clause 10 of RingsComplete can be met. -/
theorem witness_RingsComplete_10 :
    ∃ (s : State) (st : Stamp) (n : RingId), s.Awake ∧ s.ringSt n = rsHALTED ∧ s.openDesc? n = none ∧ s.pathOpen st =
      true :=
  ⟨wit [witRing, wr (.ring 7) .MOVER_RING_STAT_STATE 2], .fw0, 7,
  wit_awake _ (by decide +kernel),
  by and_intros <;> decide +kernel⟩

/-- The hypotheses of clause 11 of RingsComplete can be met. -/
theorem witness_RingsComplete_11 :
    ∃ (s : State) (st : Stamp) (e : EngId) (v : Word), s.Awake ∧ s.locked (.eng e) = false ∧ v.getLsbD 31 = false ∧
      s.engRings e = [] ∧ s.pathOpen st = true :=
  ⟨wit [wr (.eng 3) .MOVER_ENG_CTRL_ENABLE 1], .fw0, 3, 0,
  wit_awake _ (by decide +kernel),
  by and_intros <;> decide +kernel⟩

/-- The hypotheses of clause 12 of RingsComplete can be met. -/
theorem witness_RingsComplete_12 :
    ∃ (s : State) (st : Stamp) (e : EngId) (v : Word), s.Awake ∧ s.locked (.eng e) = false ∧ v.getLsbD 31 = false ∧
      s.on (.eng e) .MOVER_ENG_CTRL_ENABLE = true ∧ (s.engRings e).isEmpty = false ∧ s.pathOpen st = true :=
  ⟨wit [wr (.eng 3) .MOVER_ENG_CTRL_ENABLE 1, witRing], .fw0, 3, 0,
  wit_awake _ (by decide +kernel),
  by and_intros <;> decide +kernel⟩

/-- The hypotheses of clause 13 of RingsComplete can be met. -/
theorem witness_RingsComplete_13 :
    ∃ (s : State) (e : EngId) (n : RingId), s.Awake ∧ s.rd (.ring n) .MOVER_RING_CFG_ENGINE = e ∧ ((s.ringKind n = 1 ∨
      s.ringKind n = 2)) ∧ ((s.iv .rehome n = 0 ∨ s.iv .rehome n = e + 1)) :=
  ⟨wit [wr (.eng 3) .MOVER_ENG_CTRL_ENABLE 1, witRing], 3, 7,
  wit_awake _ (by decide +kernel),
  by and_intros <;> decide +kernel⟩

/-- The hypotheses of clause 1 of DescriptorsComplete can be met. -/
theorem witness_DescriptorsComplete_1 :
    ∃ (s : State) (n : RingId) (d : Desc) (g : Seg) (bs : List Byte), s.Awake ∧ s.descs = [d] ∧ d.ring = n ∧ d.opened
      = true ∧ d.failed = 0 ∧ d.segs = [g] ∧ g.got = [] ∧ bs.length < g.n ∧ d.data = [] ∧ d.op = 1 ∧ d.issued = d.len
      ∧ d.written < d.len ∧ d.toFlush = [] ∧ s.vepTx? n = none ∧ 0 < s.writeLen d ∧ s.noPasid n = false :=
  ⟨wit [witRing, modDescs fun _ => [witDesc]], 7, witDesc, ⟨0, 128, 5, []⟩, List.replicate 64 1,
  wit_awake _ (by decide +kernel),
  by and_intros <;> decide +kernel⟩

/-- The hypotheses of clause 2 of DescriptorsComplete can be met. -/
theorem witness_DescriptorsComplete_2 :
    ∃ (s : State) (n : RingId) (d : Desc) (g : Seg) (bs : List Byte), s.Awake ∧ s.descs = [d] ∧ d.ring = n ∧ d.opened
      = true ∧ d.failed = 0 ∧ d.segs = [g] ∧ g.got = [] ∧ bs.length = g.n ∧ g.n = d.len ∧ d.data = [] ∧ d.op = 1 ∧
      d.issued = d.len ∧ d.written = 0 ∧ 0 < d.len ∧ d.dests = [] ∧ d.sync = false ∧ d.toFlush = [] ∧ d.dstType = 0 ∧
      s.vepTx? n = none ∧ s.writeLen d = d.len ∧ s.ringToHost n = true :=
  ⟨wit [witRing, modDescs fun _ => [witDesc]], 7, witDesc, ⟨0, 128, 5, []⟩, List.replicate 128 1,
  wit_awake _ (by decide +kernel),
  by and_intros <;> decide +kernel⟩

/-- The hypotheses of clause 3 of DescriptorsComplete can be met. -/
theorem witness_DescriptorsComplete_3 :
    ∃ (s : State) (n : RingId) (d : Desc), s.Awake ∧ s.descs = [d] ∧ d.ring = n ∧ d.opened = true ∧ d.failed = 0 ∧
      d.op = 1 ∧ d.written = d.len ∧ d.sync = false ∧ d.toFlush = [] ∧ d.flushTags = [] ∧ s.on (.ring n)
      .MOVER_RING_CPL_CTRL_MODE = true :=
  ⟨wit [witRing, wr (.ring 7) .MOVER_RING_CPL_CTRL_MODE 1, modDescs fun _ => [witDone]], 7, witDone,
  wit_awake _ (by decide +kernel),
  by and_intros <;> decide +kernel⟩

/-- The hypotheses of clause 4 of DescriptorsComplete can be met. -/
theorem witness_DescriptorsComplete_4 :
    ∃ (s : State) (n : RingId) (d : Desc), s.Awake ∧ s.descs = [d] ∧ d.ring = n ∧ d.opened = true ∧ d.failed = 0 ∧
      d.op = 0 ∧ d.sync = false ∧ d.toFlush = [] ∧ d.flushTags = [] ∧ s.recordMayGo n = true :=
  ⟨wit [witRing, modDescs fun _ => [{ witDone with raw := 9 }]], 7, { witDone with raw := 9 },
  wit_awake _ (by decide +kernel),
  by and_intros <;> decide +kernel⟩

/-- The hypotheses of clause 5 of DescriptorsComplete can be met. -/
theorem witness_DescriptorsComplete_5 :
    ∃ (s : State) (n : RingId) (d : Desc), s.Awake ∧ s.descs = [d] ∧ d.ring = n ∧ d.opened = true ∧ d.failed = 0 ∧
      s.recordMayGo n = true ∧ s.on (.ring n) .MOVER_RING_CFG_STOP_ON_ERR = true ∧ s.ringSt n ≠ rsDISABLED :=
  ⟨wit [witRing, wr (.ring 7) .MOVER_RING_CFG_STOP_ON_ERR 1, modDescs fun _ => [witDesc]], 7, witDesc,
  wit_awake _ (by decide +kernel),
  by and_intros <;> decide +kernel⟩

/-- The hypotheses of clause 6 of DescriptorsComplete can be met. -/
theorem witness_DescriptorsComplete_6 :
    ∃ (s : State) (n : RingId) (d : Desc), s.Awake ∧ s.descs = [d] ∧ d.ring = n ∧ d.opened = true ∧ d.failed = 0 ∧
      s.recordMayGo n = true ∧ s.on (.ring n) .MOVER_RING_CFG_STOP_ON_ERR = false :=
  ⟨wit [witRing, wr (.ring 7) .MOVER_RING_CFG_STOP_ON_ERR 0, modDescs fun _ => [witDesc]], 7, witDesc,
  wit_awake _ (by decide +kernel),
  by and_intros <;> decide +kernel⟩

/-- The hypotheses of clause 7 of DescriptorsComplete can be met. -/
theorem witness_DescriptorsComplete_7 :
    ∃ (s : State) (n : RingId) (d : Desc), s.Awake ∧ s.descs = [d] ∧ d.ring = n ∧ d.opened = true ∧ d.failed = 0 ∧
      s.recordMayGo n = false :=
  ⟨wit [witRing, put .seBusMaster 0 2, modDescs fun _ => [witDesc]], 7, witDesc,
  wit_awake _ (by decide +kernel),
  by and_intros <;> decide +kernel⟩

/-- The hypotheses of clause 8 of DescriptorsComplete can be met. -/
theorem witness_DescriptorsComplete_8 :
    ∃ (s : State) (n : RingId), s.Awake ∧ s.ivOn .coalOn n = true ∧ s.iv .coalDue n = 0 :=
  ⟨wit [witRing, put .coalOn 1 7], 7,
  wit_awake _ (by decide +kernel),
  by and_intros <;> decide +kernel⟩

/-- The hypotheses of clause 9 of DescriptorsComplete can be met. -/
theorem witness_DescriptorsComplete_9 :
    ∃ (s : State) (n : RingId), s.Awake ∧ s.ivOn .coalOn n = true ∧ s.ivOn .coalDue n = true ∧ s.on (.ring n)
      .MOVER_RING_CPL_CTRL_COAL_US = true :=
  ⟨wit [witRing, put .coalOn 1 7, put .coalDue 1 7, wr (.ring 7) .MOVER_RING_CPL_CTRL_COAL_US 5], 7,
  wit_awake _ (by decide +kernel),
  by and_intros <;> decide +kernel⟩

/-- The hypotheses of clause 10 of DescriptorsComplete can be met. -/
theorem witness_DescriptorsComplete_10 :
    ∃ (s : State) (n : RingId) (d : Desc) (k : Pkt), s.Awake ∧ s.descs = [d] ∧ s.rxBufs n = [d] ∧ (s.rxWaiting
      n).head? = some k ∧ 0 < k.ethLen ∧ k.ethLen ≤ d.len ∧ s.ringSt n = rsACTIVE ∧ s.ringQuiet n = false ∧
      s.ringToHost n = true :=
  ⟨wit [witRing, wr (.ring 7) .MOVER_RING_CFG_KIND 1, wr (.bridge 2) .BRIDGE_VEP_CFG_EN 1 1, wr (.bridge 2)
    .BRIDGE_VEP_CFG_OWNER 12 1, wr (.bridge 2) .BRIDGE_VEP_CFG_PEER 5 1, wr (.bridge 2) .BRIDGE_VEP_CFG_RX_RING 7 1,
    modDescs (fun _ => [witBuf]), modBuf fun _ => [witEth]], 7, witBuf, witEth,
  wit_awake _ (by decide +kernel),
  by and_intros <;> decide +kernel⟩

/-- The hypotheses of clause 1 of BridgingCompletes can be met. -/
theorem witness_BridgingCompletes_1 :
    ∃ (s : State) (f : FaceId) (k : Fin 32) (e : Pref), s.Awake ∧ (s.prefs.filter fun x => x.face == f.val)[k.val]? =
      some e :=
  ⟨wit [modPrefs fun _ => [witPref]], 2, 0, witPref,
  wit_awake _ (by decide +kernel),
  by decide +kernel⟩

/-- The hypotheses of clause 2 of BridgingCompletes can be met. -/
theorem witness_BridgingCompletes_2 :
    ∃ (s : State) (f : FaceId) (e : Pref), s.Awake ∧ s.prefs = [e] ∧ e.face = f.val ∧ e.used = false :=
  ⟨wit [modPrefs fun _ => [witPref]], 2, witPref,
  wit_awake _ (by decide +kernel),
  by and_intros <;> decide +kernel⟩

/-- The hypotheses of clause 3 of BridgingCompletes can be met. -/
theorem witness_BridgingCompletes_3 :
    ∃ (s : State) (n : Feid) (p : PortId), s.Awake ∧ s.on (.bridge 1) .BRIDGE_LOCK_STAT_LOCKED p = true ∧ s.rd
      (.bridge 1) .BRIDGE_LOCK_STAT_HOLDER p = n.toNat ∧ s.lockWaiters p = [] :=
  ⟨wit [wr (.bridge 1) .BRIDGE_LOCK_STAT_LOCKED 1 8, wr (.bridge 1) .BRIDGE_LOCK_STAT_HOLDER 12 8], 12, 8,
  wit_awake _ (by decide +kernel),
  by and_intros <;> decide +kernel⟩

/-- The hypotheses of clause 4 of BridgingCompletes can be met. -/
theorem witness_BridgingCompletes_4 :
    ∃ (s : State) (f : FaceId) (p : PortId) (m : Nat), s.Awake ∧ s.iv .lockDest f = 0 ∧ s.faceFeid? f = some m ∧ s.on
      (.bridge 1) .BRIDGE_LOCK_STAT_LOCKED p = true ∧ s.rd (.bridge 1) .BRIDGE_LOCK_STAT_HOLDER p = m ∧ s.lockWaiters
      p = [] :=
  ⟨wit [wr (.bridge 1) .BRIDGE_LOCK_STAT_LOCKED 1 8, wr (.bridge 1) .BRIDGE_LOCK_STAT_HOLDER 12 8, wr (.route 0)
    .ROUTE_LIVE_SEL_P0_STATE plLIVE, put .plate (0xA <<< 28 + 1 <<< 22 + 1 <<< 3) (0x2000 + 12)], 2, 8, 12,
  wit_awake _ (by decide +kernel),
  by and_intros <;> decide +kernel⟩

/-- The hypotheses of clause 5 of BridgingCompletes can be met. -/
theorem witness_BridgingCompletes_5 :
    ∃ (s : State) (p : PortId), s.Awake ∧ s.on (.bridge 1) .BRIDGE_LOCK_STAT_LOCKED p = true ∧ s.lockWaiters p = [] :=
  ⟨wit [wr (.bridge 1) .BRIDGE_LOCK_STAT_LOCKED 1 8, wr (.bridge 1) .BRIDGE_LOCK_STAT_HOLDER 12 8], 8,
  wit_awake _ (by decide +kernel),
  by and_intros <;> decide +kernel⟩

/-- The hypotheses of clause 6 of BridgingCompletes can be met. -/
theorem witness_BridgingCompletes_6 :
    ∃ (s : State) (p : PortId) (n : Nat), s.Awake ∧ s.on (.bridge 1) .BRIDGE_LOCK_STAT_LOCKED p = true ∧
      ((s.lockWaiters p).map (·.frame.src)).min? = some n :=
  ⟨wit [wr (.bridge 1) .BRIDGE_LOCK_STAT_LOCKED 1 8, wr (.bridge 1) .BRIDGE_LOCK_STAT_HOLDER 12 8, modBuf fun _ =>
    [witLocked]], 8, 3,
  wit_awake _ (by decide +kernel),
  by and_intros <;> decide +kernel⟩

/-- The hypotheses of clause 1 of NoticesComplete can be met. -/
theorem witness_NoticesComplete_1 :
    ∃ (s : State) (st : Stamp) (i : ViId) (v : Word) (r : IdRoute) (q : Nat), s.Awake ∧ v.getLsbD 31 = true ∧
      s.winPending i = false ∧ s.idRoute? s.live (v.toNat % 8192) = some r ∧ r.kind ≠ kindDevice ∧ r.isLocal = true ∧
      s.qOf? (v.toNat % 8192) (bits v.toNat 27 24) = some q ∧ s.judge (some q) skINST (s.rd (.inst 3)
      .INST_VI_CFG_CFG1_FEID i) = poOK ∧ s.pathOpen st = true :=
  ⟨wit [witBoxes], .face 2, 5, 0x8000000D, ⟨0, true, 0, 0, 0, false, false, 2, 0, 6, [], 0⟩, 6,
  wit_awake _ (by decide +kernel),
  by and_intros <;> decide +kernel⟩

/-- The hypotheses of clause 2 of NoticesComplete can be met. -/
theorem witness_NoticesComplete_2 :
    ∃ (s : State) (st : Stamp) (i : ViId) (v : Word) (r : IdRoute) (q : Nat), s.Awake ∧ v.getLsbD 31 = true ∧
      s.winPending i = false ∧ s.idRoute? s.live (v.toNat % 8192) = some r ∧ r.kind ≠ kindDevice ∧ r.isLocal = true ∧
      s.qOf? (v.toNat % 8192) (bits v.toNat 27 24) = some q ∧ s.judge (some q) skINST (s.rd (.inst 3)
      .INST_VI_CFG_CFG1_FEID i) = poDENIED ∧ s.pathOpen st = true :=
  ⟨wit [witBoxes, wr (.mbox 1) .MBOX_Q_CFG_SEND_MASK 2 6], .face 2, 5, 0x8000000D, ⟨0, true, 0, 0, 0, false, false, 2,
    0, 6, [], 0⟩, 6,
  wit_awake _ (by decide +kernel),
  by and_intros <;> decide +kernel⟩

/-- The hypotheses of clause 3 of NoticesComplete can be met. -/
theorem witness_NoticesComplete_3 :
    ∃ (s : State) (st : Stamp) (i : ViId) (v : Word) (r : IdRoute), s.Awake ∧ v.getLsbD 31 = true ∧ s.winPending i =
      false ∧ s.idRoute? s.live (v.toNat % 8192) = some r ∧ r.kind ≠ kindDevice ∧ r.isLocal = false ∧ s.pathOpen st =
      true :=
  ⟨wit [witBoxes], .face 2, 5, 0x8000000E, ⟨0, false, 4, 0, 0, false, false, 2, 0, 0, [], 7⟩,
  wit_awake _ (by decide +kernel),
  by and_intros <;> decide +kernel⟩

/-- The hypotheses of clause 4 of NoticesComplete can be met. -/
theorem witness_NoticesComplete_4 :
    ∃ (s : State) (src : Feid) (dest : Feid) (w : SwId) (n : Notice) (x : Fin 16) (q : Nat), s.Awake ∧ n.sfeid =
      src.toNat ∧ n.ssw = w ∧ s.qOf? dest.toNat x = some q ∧ s.judge (some q) n.skind n.sfeid = poOK :=
  ⟨wit [witBoxes], 12, 13, 1, witNotice, 0, 6,
  wit_awake _ (by decide +kernel),
  by and_intros <;> decide +kernel⟩

/-- The hypotheses of clause 5 of NoticesComplete can be met. -/
theorem witness_NoticesComplete_5 :
    ∃ (s : State) (src : Feid) (n : Notice), s.Awake ∧ n.sfeid ≠ src.toNat :=
  ⟨wit [witBoxes], 11, witNotice,
  wit_awake _ (by decide +kernel),
  by decide +kernel⟩

/-- The hypotheses of clause 6 of NoticesComplete can be met. -/
theorem witness_NoticesComplete_6 :
    ∃ (s : State) (x : Fin 7) (i : ViId) (n : Feid), s.Awake ∧ x.val ≠ poPENDING ∧ s.fifo .posts = [i.val] ∧ s.rd
      (.inst 3) .INST_VI_CFG_CFG1_FEID i = n.toNat :=
  ⟨wit [witBoxes, putFifo .posts [5], put .win 1 85], 0, 5, 12,
  wit_awake _ (by decide +kernel),
  by and_intros <;> decide +kernel⟩

/-- The hypotheses of clause 7 of NoticesComplete can be met. -/
theorem witness_NoticesComplete_7 :
    ∃ (s : State) (st : Stamp) (w : NWin) (e : Nat), s.Awake ∧ (s.fifo .posts).find? (fun e => e % 2048 == winCode w
      st) = some e ∧ s.pathOpen st = true :=
  ⟨wit [witBoxes, putFifo .posts [5], put .win 1 85], .face 2, .tenant 5, 5,
  wit_awake _ (by decide +kernel),
  by and_intros <;> decide +kernel⟩

/-- The hypotheses of clause 8 of NoticesComplete can be met. -/
theorem witness_NoticesComplete_8 :
    ∃ (s : State) (st : Stamp) (f : FaceId) (x : Nat) (r : List Nat), s.Awake ∧ s.fifo .notices (1024 + f) = x :: r ∧
      s.pathOpen st = true :=
  ⟨wit [putFifo .notices [77, 78] 1026], .face 2, 2, 77, [78],
  wit_awake _ (by decide +kernel),
  by and_intros <;> decide +kernel⟩

/-- The hypotheses of clause 9 of NoticesComplete can be met. -/
theorem witness_NoticesComplete_9 :
    ∃ (s : State) (st : Stamp) (f : FaceId), s.Awake ∧ s.fifo .notices (1024 + f) = [] ∧ s.pathOpen st = true :=
  ⟨wit [], .face 2, 2,
  wit_awake _ (by decide +kernel),
  by and_intros <;> decide +kernel⟩

/-- The hypotheses of clause 10 of NoticesComplete can be met. -/
theorem witness_NoticesComplete_10 :
    ∃ (s : State) (st : Stamp) (f : FaceId), s.Awake ∧ s.fifo .notices (1024 + f) = [] ∧ s.pathOpen st = true :=
  ⟨wit [], .face 2, 2,
  wit_awake _ (by decide +kernel),
  by and_intros <;> decide +kernel⟩

/-- The hypotheses of clause 11 of NoticesComplete can be met. -/
theorem witness_NoticesComplete_11 :
    ∃ (s : State) (st : Stamp) (f : FaceId), s.Awake ∧ (s.fifo .notices (1024 + f)).isEmpty = false ∧ s.on (.mbox 1)
      .MBOX_Q_CFG_DB_EN (1024 + f) = true ∧ s.pathOpen st = true :=
  ⟨wit [putFifo .notices [77, 78] 1026, wr (.mbox 1) .MBOX_Q_CFG_DB_EN 1 1026], .face 2, 2,
  wit_awake _ (by decide +kernel),
  by and_intros <;> decide +kernel⟩

/-- The hypotheses of clause 12 of NoticesComplete can be met. -/
theorem witness_NoticesComplete_12 :
    ∃ (s : State) (st : Stamp), s.Awake ∧ s.pathOpen st = true :=
  ⟨wit [], .face 2,
  wit_awake _ (by decide +kernel),
  by decide +kernel⟩

/-- The hypotheses of clause 1 of WordsAndSemaphoresComplete can be met. -/
theorem witness_WordsAndSemaphoresComplete_1 :
    ∃ (s : State) (st : Stamp) (n : Fin 128), s.Awake ∧ s.locked (.mbox 2) = false ∧ s.on (.mbox 2)
      .MBOX_WORD_STAT_FULL n = false ∧ permits (s.rd (.mbox 2) .MBOX_WORD_CFG_WRITER n) st = true ∧ s.pathOpen st =
      true :=
  ⟨wit [], .fw0, 3,
  wit_awake _ (by decide +kernel),
  by and_intros <;> decide +kernel⟩

/-- The hypotheses of clause 2 of WordsAndSemaphoresComplete can be met. -/
theorem witness_WordsAndSemaphoresComplete_2 :
    ∃ (s : State) (st : Stamp) (n : Fin 128), s.Awake ∧ s.locked (.mbox 2) = false ∧ s.on (.mbox 2)
      .MBOX_WORD_STAT_FULL n = true ∧ s.pathOpen st = true :=
  ⟨wit [wr (.mbox 2) .MBOX_WORD_STAT_FULL 1 3], .fw0, 3,
  wit_awake _ (by decide +kernel),
  by and_intros <;> decide +kernel⟩

/-- The hypotheses of clause 3 of WordsAndSemaphoresComplete can be met. -/
theorem witness_WordsAndSemaphoresComplete_3 :
    ∃ (s : State) (st : Stamp) (n : Fin 128), s.Awake ∧ s.locked (.mbox 2) = false ∧ permits (s.rd (.mbox 2)
      .MBOX_WORD_CFG_READER n) st = true ∧ s.pathOpen st = true :=
  ⟨wit [wr (.mbox 2) .MBOX_WORD_STAT_FULL 1 3], .face 1, 3,
  wit_awake _ (by decide +kernel),
  by and_intros <;> decide +kernel⟩

/-- The hypotheses of clause 4 of WordsAndSemaphoresComplete can be met. -/
theorem witness_WordsAndSemaphoresComplete_4 :
    ∃ (s : State) (st : Stamp) (n : Fin 256), s.Awake ∧ s.semHeld n = false ∧ s.pathOpen st = true :=
  ⟨wit [], .fw0, 3,
  wit_awake _ (by decide +kernel),
  by and_intros <;> decide +kernel⟩

/-- The hypotheses of clause 5 of WordsAndSemaphoresComplete can be met. -/
theorem witness_WordsAndSemaphoresComplete_5 :
    ∃ (s : State) (st : Stamp) (n : Fin 256), s.Awake ∧ s.semHeld n = true ∧ s.pathOpen st = true :=
  ⟨wit [wr (.mbox 3) .MBOX_SEM_PEEK_HELD 1 3], .fw0, 3,
  wit_awake _ (by decide +kernel),
  by and_intros <;> decide +kernel⟩

/-- The hypotheses of clause 6 of WordsAndSemaphoresComplete can be met. -/
theorem witness_WordsAndSemaphoresComplete_6 :
    ∃ (s : State) (st : Stamp) (n : Fin 256), s.Awake ∧ s.locked (.mbox 3) = false ∧ s.semHeld n = true ∧ s.semOwner n
      = st.code ∧ s.pathOpen st = true :=
  ⟨wit [wr (.mbox 3) .MBOX_SEM_PEEK_HELD 1 3], .face 0, 3,
  wit_awake _ (by decide +kernel),
  by and_intros <;> decide +kernel⟩

/-- The hypotheses of clause 7 of WordsAndSemaphoresComplete can be met. -/
theorem witness_WordsAndSemaphoresComplete_7 :
    ∃ (s : State) (st : Stamp) (n : Fin 256), s.Awake ∧ s.locked (.mbox 3) = false ∧ s.semHeld n = true ∧ s.semOwner n
      ≠ st.code ∧ s.pathOpen st = true :=
  ⟨wit [wr (.mbox 3) .MBOX_SEM_PEEK_HELD 1 3], .fw0, 3,
  wit_awake _ (by decide +kernel),
  by and_intros <;> decide +kernel⟩

/-- The hypotheses of clause 8 of WordsAndSemaphoresComplete can be met. -/
theorem witness_WordsAndSemaphoresComplete_8 :
    ∃ (s : State) (st : Stamp) (n : Fin 256), s.Awake ∧ s.locked (.mbox 3) = false ∧ isFw st = true ∧ s.semHeld n =
      true ∧ s.pathOpen st = true :=
  ⟨wit [wr (.mbox 3) .MBOX_SEM_PEEK_HELD 1 3], .fw0, 3,
  wit_awake _ (by decide +kernel),
  by and_intros <;> decide +kernel⟩

/-- The hypotheses of clause 1 of ContainmentCompletes can be met. -/
theorem witness_ContainmentCompletes_1 :
    ∃ (s : State) (r : GReq) (l : List GReq) (i : ViId), s.Awake ∧ s.greqs = r :: l ∧ s.safeHalt = false ∧ r.warn =
      false ∧ r.cls = .fd ∧ r.dom = .dom (.inst i) ∧ s.consequential r (.inst i) = false ∧ s.gds (.inst i)
      .GDS_LANE_WINDOW = 0 ∧ s.holder? (.inst i) = none ∧ s.bound? i = true ∧ s.resetting i = false :=
  ⟨wit [wr (.inst 2) .INST_STAT_BOUND 1 5, modGreqs fun _ => [witReq]], witReq, [], 5,
  wit_awake _ (by decide +kernel),
  by and_intros <;> decide +kernel⟩

/-- The hypotheses of clause 2 of ContainmentCompletes can be met. -/
theorem witness_ContainmentCompletes_2 :
    ∃ (s : State) (r : GReq) (l : List GReq) (p : PortId), s.Awake ∧ s.greqs = r :: l ∧ s.safeHalt = false ∧ r.warn =
      false ∧ r.cls = .fd ∧ r.dom = .dom (.port p) ∧ s.consequential r (.port p) = false ∧ s.role p = roleDOWN ∧ s.gds
      (.port p) .GDS_LANE_WINDOW = 0 ∧ s.holder? (.port p) = none :=
  ⟨wit [wr (.port 8) .PORT_CFG_ROLE 2, wr (.port 8) .PORT_LINK_STAT_STATE lsL0, modGreqs fun _ =>
    [{ witReq with pg := .port 8, block := 0xA, dom := .dom (.port 8) }]],
    { witReq with pg := .port 8, block := 0xA, dom := .dom (.port 8) }, [], 8,
  wit_awake _ (by decide +kernel),
  by and_intros <;> decide +kernel⟩

/-- The hypotheses of clause 3 of ContainmentCompletes can be met. -/
theorem witness_ContainmentCompletes_3 :
    ∃ (s : State) (r : GReq) (l : List GReq), s.Awake ∧ s.greqs = r :: l ∧ s.safeHalt = false ∧ r.warn = false ∧ r.cls
      = .halt ∧ r.block ≠ 3 :=
  ⟨wit [modGreqs fun _ => [{ witReq with cls := .halt }], put .haltRel 1], { witReq with cls := .halt }, [],
  wit_awake _ (by decide +kernel),
  by and_intros <;> decide +kernel⟩

/-- The hypotheses of clause 4 of ContainmentCompletes can be met. -/
theorem witness_ContainmentCompletes_4 :
    ∃ (s : State) (r : GReq) (l : List GReq) (i : ViId), s.Awake ∧ s.greqs = r :: l ∧ s.safeHalt = false ∧ r.warn =
      false ∧ r.cls = .nf ∧ r.dom = .dom (.inst i) ∧ s.consequential r (.inst i) = false ∧ s.gds (.inst i)
      .GDS_LANE_WINDOW = 1 :=
  ⟨wit [modGreqs fun _ => [{ witReq with cls := .nf }], wgds (.inst 5) .GDS_LANE_WINDOW 1],
    { witReq with cls := .nf }, [], 5,
  wit_awake _ (by decide +kernel),
  by and_intros <;> decide +kernel⟩

/-- The hypotheses of clause 5 of ContainmentCompletes can be met. -/
theorem witness_ContainmentCompletes_5 :
    ∃ (s : State) (r : GReq) (l : List GReq) (i : ViId) (e : Dom), s.Awake ∧ s.greqs = r :: l ∧ s.safeHalt = false ∧
      r.warn = false ∧ r.cls = .nf ∧ r.dom = .dom (.inst i) ∧ s.consequential r (.inst i) = false ∧ s.gds (.inst i)
      .GDS_LANE_WINDOW = 0 ∧ s.holder? (.inst i) = some e :=
  ⟨wit [modGreqs fun _ => [{ witReq with cls := .nf }], wgds (.inst 5) .GDS_LANE_STATE 2], { witReq with cls := .nf },
    [], 5, .inst 5,
  wit_awake _ (by decide +kernel),
  by and_intros <;> decide +kernel⟩

/-- The hypotheses of clause 6 of ContainmentCompletes can be met. -/
theorem witness_ContainmentCompletes_6 :
    ∃ (s : State) (r : GReq) (l : List GReq), s.Awake ∧ s.greqs = r :: l ∧ s.safeHalt = false ∧ r.warn = false ∧ r.cls
      = .fd ∧ r.dom = .dom .device ∧ s.consequential r .device = false ∧ s.gds .device .GDS_LANE_WINDOW = 0 ∧
      s.holder? .device = none ∧ s.on (.guard 0) .GUARD_POLICY_DEV_RESET = true :=
  ⟨wit [wr (.guard 0) .GUARD_POLICY_DEV_RESET 1, modGreqs fun _ => [{ witReq with dom := .dom .device }]],
    { witReq with dom := .dom .device }, [],
  wit_awake _ (by decide +kernel),
  by and_intros <;> decide +kernel⟩

/-- The hypotheses of clause 7 of ContainmentCompletes can be met. -/
theorem witness_ContainmentCompletes_7 :
    ∃ (s : State) (r : GReq) (l : List GReq), s.Awake ∧ s.greqs = r :: l ∧ s.safeHalt = false ∧ r.warn = false ∧ r.cls
      = .fd ∧ r.dom = .dom .device ∧ s.consequential r .device = false ∧ s.gds .device .GDS_LANE_WINDOW = 0 ∧
      s.holder? .device = none ∧ s.on (.guard 0) .GUARD_POLICY_DEV_RESET = false :=
  ⟨wit [wr (.guard 0) .GUARD_POLICY_DEV_RESET 0, modGreqs fun _ => [{ witReq with dom := .dom .device }]],
    { witReq with dom := .dom .device }, [],
  wit_awake _ (by decide +kernel),
  by and_intros <;> decide +kernel⟩

/-- The hypotheses of clause 8 of ContainmentCompletes can be met. -/
theorem witness_ContainmentCompletes_8 :
    ∃ (s : State) (r : GReq) (l : List GReq) (p : PortId), s.Awake ∧ s.greqs = r :: l ∧ s.safeHalt = false ∧ r.warn =
      true ∧ r.dom = .dom (.port p) ∧ s.role p = roleDOWN ∧ s.domState (.port p) = gdNONE :=
  ⟨wit [wr (.port 8) .PORT_CFG_ROLE 2, modGreqs fun _ =>
    [{ witReq with pg := .pwr 3, block := 5, dom := .dom (.port 8), warn := true }]],
    { witReq with pg := .pwr 3, block := 5, dom := .dom (.port 8), warn := true }, [], 8,
  wit_awake _ (by decide +kernel),
  by and_intros <;> decide +kernel⟩

/-- The hypotheses of clause 9 of ContainmentCompletes can be met. -/
theorem witness_ContainmentCompletes_9 :
    ∃ (s : State) (p : PortId), s.Awake ∧ s.role p = roleDOWN ∧ s.domState (.port p) = gdQUIESCED ∧ s.link p ≠
      lsDISABLED ∧ s.link p ≠ lsDOWN ∧ s.portIdle p = true :=
  ⟨wit [wr (.port 8) .PORT_CFG_ROLE 2, wr (.port 8) .PORT_LINK_STAT_STATE lsL0, wgds (.port 8) .GDS_LANE_STATE 6], 8,
  wit_awake _ (by decide +kernel),
  by and_intros <;> decide +kernel⟩

/-- The hypotheses of clause 10 of ContainmentCompletes can be met. -/
theorem witness_ContainmentCompletes_10 :
    ∃ (s : State) (p : PortId), s.Awake ∧ s.role p = roleDOWN ∧ s.domState (.port p) = gdQUIESCED ∧ s.link p ≠
      lsDISABLED ∧ s.link p ≠ lsDOWN :=
  ⟨wit [wr (.port 8) .PORT_CFG_ROLE 2, wr (.port 8) .PORT_LINK_STAT_STATE lsL0, wgds (.port 8) .GDS_LANE_STATE 6], 8,
  wit_awake _ (by decide +kernel),
  by and_intros <;> decide +kernel⟩

/-- The hypotheses of clause 11 of ContainmentCompletes can be met. -/
theorem witness_ContainmentCompletes_11 :
    ∃ (s : State) (st : Stamp) (i : ViId) (v : Word), s.Awake ∧ s.locked (.guard 1) = false ∧ v.getLsbD 31 = true ∧
      s.safeHalt = false ∧ s.gds (.inst i) .GDS_LANE_WINDOW = 0 ∧ s.holder? (.inst i) = none ∧ s.pathOpen st = true :=
  ⟨wit [wr (.inst 2) .INST_STAT_BOUND 1 5], .fw0, 5, 0x80000000,
  wit_awake _ (by decide +kernel),
  by and_intros <;> decide +kernel⟩

/-- The hypotheses of clause 12 of ContainmentCompletes can be met. -/
theorem witness_ContainmentCompletes_12 :
    ∃ (s : State) (n : Feid) (r : IdRoute) (i : ViId), s.Awake ∧ s.safeHalt = false ∧ s.idRoute? s.live n.toNat = some
      r ∧ r.isLocal = true ∧ r.kind = kindInst ∧ r.rid % 1024 = i ∧ s.gds (.inst i) .GDS_LANE_WINDOW = 0 ∧ s.holder?
      (.inst i) = none :=
  ⟨wit [witBoxes], 12, ⟨0, true, 0, 0, 0, false, false, 2, 0, 5, [], 0⟩, 5,
  wit_awake _ (by decide +kernel),
  by and_intros <;> decide +kernel⟩

/-- The hypotheses of clause 1 of RecoveryCompletes can be met. -/
theorem witness_RecoveryCompletes_1 :
    ∃ (s : State) (st : Stamp) (i : ViId) (v : Word), s.Awake ∧ s.locked (.guard 1) = false ∧ v.getLsbD 31 = false ∧
      v.getLsbD 30 = true ∧ s.joined (.inst i) = false ∧ s.domState (.inst i) = gdCONTAINED ∧ s.pathOpen st = true :=
  ⟨wit [wgds (.inst 5) .GDS_LANE_STATE 2], .fw0, 5, 0x40000000,
  wit_awake _ (by decide +kernel),
  by and_intros <;> decide +kernel⟩

/-- The hypotheses of clause 2 of RecoveryCompletes can be met. -/
theorem witness_RecoveryCompletes_2 :
    ∃ (s : State) (st : Stamp) (i : ViId) (v : Word), s.Awake ∧ s.locked (.guard 1) = false ∧ v.getLsbD 31 = false ∧
      v.getLsbD 30 = true ∧ v.getLsbD 29 = true ∧ s.joined (.inst i) = false ∧ s.domState (.inst i) = gdHELD ∧ s.gds
      (.inst i) .GDS_LANE_WINDOW = 0 ∧ s.pathOpen st = true :=
  ⟨wit [wgds (.inst 5) .GDS_LANE_STATE 4], .fw0, 5, 0x60000000,
  wit_awake _ (by decide +kernel),
  by and_intros <;> decide +kernel⟩

/-- The hypotheses of clause 3 of RecoveryCompletes can be met. -/
theorem witness_RecoveryCompletes_3 :
    ∃ (s : State) (st : Stamp) (p : PortId), s.Awake ∧ s.role p = roleDOWN ∧ s.joined (.port p) = false ∧ s.domState
      (.port p) = gdCONTAINED ∧ s.refGone (.port p) = false ∧ s.pathOpen st = true :=
  ⟨wit [wr (.port 8) .PORT_CFG_ROLE 2, wgds (.port 8) .GDS_LANE_STATE 2], .fw0, 8,
  wit_awake _ (by decide +kernel),
  by and_intros <;> decide +kernel⟩

/-- The hypotheses of clause 4 of RecoveryCompletes can be met. -/
theorem witness_RecoveryCompletes_4 :
    ∃ (s : State) (p : PortId), s.Awake ∧ s.role p = roleDOWN ∧ s.domState (.port p) = gdRECOVERING ∧ s.link p =
      lsDISABLED ∧ s.safeHalt = false :=
  ⟨wit [wr (.port 8) .PORT_CFG_ROLE 2, wgds (.port 8) .GDS_LANE_STATE 3, wr (.port 8) .PORT_LINK_STAT_STATE
    lsDISABLED], 8,
  wit_awake _ (by decide +kernel),
  by and_intros <;> decide +kernel⟩

/-- The hypotheses of clause 5 of RecoveryCompletes can be met. -/
theorem witness_RecoveryCompletes_5 :
    ∃ (s : State) (d : Dom), s.Awake ∧ domOk d = true ∧ s.joined d = false ∧ s.domState d = gdRECOVERING ∧
      s.sequenceDone d = true ∧ s.gds d .GDS_LANE_WINDOW = 0 ∧ s.gds d .GDS_LANE_HOLD = 0 :=
  ⟨wit [wgds (.inst 5) .GDS_LANE_STATE 3], .inst 5,
  wit_awake _ (by decide +kernel),
  by and_intros <;> decide +kernel⟩

/-- The hypotheses of clause 6 of RecoveryCompletes can be met. -/
theorem witness_RecoveryCompletes_6 :
    ∃ (s : State) (d : Dom), s.Awake ∧ domOk d = true ∧ s.joined d = false ∧ s.domState d = gdRECOVERING ∧
      s.sequenceDone d = true ∧ s.gds d .GDS_LANE_WINDOW = 1 :=
  ⟨wit [wgds (.inst 5) .GDS_LANE_STATE 3, wgds (.inst 5) .GDS_LANE_WINDOW 1], .inst 5,
  wit_awake _ (by decide +kernel),
  by and_intros <;> decide +kernel⟩

/-- The hypotheses of clause 7 of RecoveryCompletes can be met. -/
theorem witness_RecoveryCompletes_7 :
    ∃ (s : State) (i : ViId), s.Awake ∧ s.domState (.inst i) = gdRECOVERING ∧ s.safeHalt = false :=
  ⟨wit [wgds (.inst 5) .GDS_LANE_STATE 3], 5,
  wit_awake _ (by decide +kernel),
  by and_intros <;> decide +kernel⟩

/-- The hypotheses of clause 8 of RecoveryCompletes can be met. -/
theorem witness_RecoveryCompletes_8 :
    ∃ (s : State) (d : Dom), s.Awake ∧ domOk d = true ∧ s.domState d ≠ gdHELD :=
  ⟨wit [wgds (.inst 5) .GDS_LANE_STATE 3, wgds (.inst 5) .GDS_LANE_WINDOW 1], .inst 5,
  wit_awake _ (by decide +kernel),
  by and_intros <;> decide +kernel⟩

/-- The hypotheses of clause 9 of RecoveryCompletes can be met. -/
theorem witness_RecoveryCompletes_9 :
    ∃ (s : State) (d : Dom), s.Awake ∧ domOk d = true ∧ s.joined d = false ∧ s.domState d = gdHELD ∧ s.gds d
      .GDS_LANE_HOLD = 0 :=
  ⟨wit [wgds (.inst 5) .GDS_LANE_STATE 4, wgds (.inst 5) .GDS_LANE_WINDOW 1], .inst 5,
  wit_awake _ (by decide +kernel),
  by and_intros <;> decide +kernel⟩

/-- The hypotheses of clause 10 of RecoveryCompletes can be met. -/
theorem witness_RecoveryCompletes_10 :
    ∃ (s : State) (p : PortId), s.Awake ∧ (s.feidsOf (.port p)).isEmpty = false ∧ s.domState (.port p) = gdNONE ∧
      s.ivOn .reachLeft (domIndex (.port p)) = true :=
  ⟨wit [wr (.route 0) .ROUTE_LIVE_SEL_P0_STATE plLIVE, put .plate (witDevice 8 0x300) (0x2000 + 9), put .reachLeft 2
    (domIndex (.port 8))], 8,
  wit_awake _ (by decide +kernel),
  by and_intros <;> decide +kernel⟩

/-- The hypotheses of clause 11 of RecoveryCompletes can be met. -/
theorem witness_RecoveryCompletes_11 :
    ∃ (s : State) (x : Fin 4), s.Awake ∧ x.val = deREACHABLE :=
  ⟨wit [put .unreach 1 9], 2,
  wit_awake _ (by decide +kernel),
  by decide +kernel⟩

/-- The hypotheses of clause 12 of RecoveryCompletes can be met. -/
theorem witness_RecoveryCompletes_12 :
    ∃ (s : State) (x : Fin 4), s.Awake ∧ ((x.val = deUNREACHABLE ∨ x.val = deORDERLY)) :=
  ⟨wit [], 1,
  wit_awake _ (by decide +kernel),
  by decide +kernel⟩

/-- The hypotheses of clause 13 of RecoveryCompletes can be met. -/
theorem witness_RecoveryCompletes_13 :
    ∃ (s : State) (n : Feid), s.Awake ∧ s.ivOn .unreach n.toNat = true :=
  ⟨wit [put .unreach 1 9], 9,
  wit_awake _ (by decide +kernel),
  by decide +kernel⟩

/-- The hypotheses of clause 14 of RecoveryCompletes can be met. -/
theorem witness_RecoveryCompletes_14 :
    ∃ (s : State) (st : Stamp) (v : Word), s.Awake ∧ s.locked (.guard 0) = false ∧ v.getLsbD 31 = true ∧ s.pathOpen st
      = true :=
  ⟨wit [putFifo .elog [1, 2], wr (.guard 0) .GUARD_ELOG_CTRL_LOST 3], .fw0, 0x80000000,
  wit_awake _ (by decide +kernel),
  by and_intros <;> decide +kernel⟩

/-- The hypotheses of clause 1 of TokensComplete can be met. -/
theorem witness_TokensComplete_1 :
    ∃ (s : State) (st : Stamp) (v : Word), s.Awake ∧ v.getLsbD 31 = true ∧ s.locked (.sec 0) = false ∧ s.iv .tokRun =
      0 ∧ tokenOp (s.tokenOf st.code) = opCLAIM ∧ s.tokenStatus (s.tokenOf st.code) = tkOK ∧ s.pathOpen st = true :=
  ⟨wit [witToken witClaim], .fw0, 0x80000000,
  wit_awake _ (by decide +kernel),
  by and_intros <;> decide +kernel⟩

/-- The hypotheses of clause 2 of TokensComplete can be met. -/
theorem witness_TokensComplete_2 :
    ∃ (s : State) (st : Stamp) (v : Word), s.Awake ∧ v.getLsbD 31 = true ∧ s.locked (.sec 0) = false ∧ s.iv .tokRun =
      0 ∧ tokenOp (s.tokenOf st.code) = opTRANSFER ∧ s.tokenStatus (s.tokenOf st.code) = tkOK ∧ s.pathOpen st = true :=
  ⟨wit [witToken witTransfer, put .ownKey witKey 0], .fw0, 0x80000000,
  wit_awake _ (by decide +kernel),
  by and_intros <;> decide +kernel⟩

/-- The hypotheses of clause 3 of TokensComplete can be met. -/
theorem witness_TokensComplete_3 :
    ∃ (s : State) (st : Stamp) (v : Word), s.Awake ∧ v.getLsbD 31 = true ∧ s.locked (.sec 0) = false ∧ s.iv .tokRun =
      0 ∧ tokenOp (s.tokenOf st.code) = opRELEASE ∧ s.tokenStatus (s.tokenOf st.code) = tkOK ∧ s.pathOpen st = true :=
  ⟨wit [witToken witRelease, put .ownKey witKey 0], .fw0, 0x80000000,
  wit_awake _ (by decide +kernel),
  by and_intros <;> decide +kernel⟩

/-- The hypotheses of clause 4 of TokensComplete can be met. -/
theorem witness_TokensComplete_4 :
    ∃ (s : State) (st : Stamp) (v : Word) (i : Fin 1024) (pg : Pg), s.Awake ∧ v.getLsbD 31 = true ∧ s.locked (.sec 0)
      = false ∧ s.iv .tokRun = 0 ∧ tokenOp (s.tokenOf st.code) = opUNLOCK_PAGES ∧ s.tokenStatus (s.tokenOf st.code) =
      tkOK ∧ (tokenField (s.tokenOf st.code) 0x20 384).testBit i = true ∧ lockPage? i = some pg ∧ s.pathOpen st = true :=
  ⟨wit [witToken witUnlock, put .ownKey witKey 0, lockPage (.core 0)], .fw0, 0x80000000, 80, .core 0,
  wit_awake _ (by decide +kernel),
  by and_intros <;> decide +kernel⟩

/-- The hypotheses of clause 5 of TokensComplete can be met. -/
theorem witness_TokensComplete_5 :
    ∃ (s : State) (st : Stamp) (v : Word), s.Awake ∧ v.getLsbD 31 = true ∧ s.locked (.sec 0) = false ∧ s.iv .tokRun =
      0 ∧ tokenOp (s.tokenOf st.code) = opGRANT ∧ s.tokenStatus (s.tokenOf st.code) = tkOK ∧ s.pathOpen st = true :=
  ⟨wit [witToken witGrant, put .ownKey witKey 0], .fw0, 0x80000000,
  wit_awake _ (by decide +kernel),
  by and_intros <;> decide +kernel⟩

/-- The hypotheses of clause 6 of TokensComplete can be met. -/
theorem witness_TokensComplete_6 :
    ∃ (s : State) (st : Stamp) (v : Word), s.Awake ∧ v.getLsbD 31 = true ∧ s.locked (.sec 0) = false ∧ s.iv .tokRun =
      0 ∧ tokenOp (s.tokenOf st.code) = opARB_ADVANCE ∧ s.tokenStatus (s.tokenOf st.code) = tkOK ∧ s.pathOpen st =
      true :=
  ⟨wit [witToken witArb, put .ownKey witKey 0], .fw0, 0x80000000,
  wit_awake _ (by decide +kernel),
  by and_intros <;> decide +kernel⟩

/-- The hypotheses of clause 7 of TokensComplete can be met. -/
theorem witness_TokensComplete_7 :
    ∃ (s : State) (st : Stamp) (v : Word), s.Awake ∧ v.getLsbD 31 = true ∧ s.locked (.sec 0) = false ∧ s.iv .tokRun =
      0 ∧ tokenOp (s.tokenOf st.code) = opDEBUG_UNLOCK ∧ s.tokenStatus (s.tokenOf st.code) = tkOK ∧ s.pathOpen st =
      true :=
  ⟨wit [witToken witDebug, put .ownKey witKey 0], .fw0, 0x80000000,
  wit_awake _ (by decide +kernel),
  by and_intros <;> decide +kernel⟩

/-- The hypotheses of clause 8 of TokensComplete can be met. -/
theorem witness_TokensComplete_8 :
    ∃ (s : State) (st : Stamp) (v : Word), s.Awake ∧ v.getLsbD 31 = true ∧ s.locked (.sec 0) = false ∧ s.iv .tokRun =
      0 ∧ tokenOp (s.tokenOf st.code) = opCLAIM ∧ s.tokenFormat (s.tokenOf st.code) = true ∧ tokenField (s.tokenOf
      st.code) 8 8 = s.iv .devId ∧ tokenField (s.tokenOf st.code) 16 16 = s.nonce ∧ s.tokenSigned (s.tokenOf st.code)
      = false ∧ s.pathOpen st = true :=
  ⟨wit [witToken (witTok 0 1 witKey 1)], .fw0, 0x80000000,
  wit_awake _ (by decide +kernel),
  by and_intros <;> decide +kernel⟩

/-- The hypotheses of clause 9 of TokensComplete can be met. -/
theorem witness_TokensComplete_9 :
    ∃ (s : State) (st : Stamp) (v : Word), s.Awake ∧ v.getLsbD 31 = true ∧ s.locked (.sec 0) = false ∧ s.ivOn .tokRun
      = true ∧ tokenOp (s.tokenOf st.code) = opGRANT ∧ s.pathOpen st = true :=
  ⟨wit [witToken witGrant, put .tokRun 1], .fw0, 0x80000000,
  wit_awake _ (by decide +kernel),
  by and_intros <;> decide +kernel⟩

/-- The hypotheses of clause 10 of TokensComplete can be met. -/
theorem witness_TokensComplete_10 :
    ∃ (s : State), s.Awake ∧ s.ivOn .tokRun = true ∧ s.iv .tokRes = tkOK :=
  ⟨wit [put .tokRun 0x21, put .tokRes 1, put .tokRaw witGrant],
  wit_awake _ (by decide +kernel),
  by and_intros <;> decide +kernel⟩

/-- The hypotheses of clause 11 of TokensComplete can be met. -/
theorem witness_TokensComplete_11 :
    ∃ (s : State), s.Awake ∧ s.ivOn .tokRun = true ∧ s.iv .tokRes = tkSIG :=
  ⟨wit [put .tokRun 0x21, put .tokRes 6, put .tokRaw witGrant],
  wit_awake _ (by decide +kernel),
  by and_intros <;> decide +kernel⟩

/-- The hypotheses of clause 12 of TokensComplete can be met. -/
theorem witness_TokensComplete_12 :
    ∃ (s : State), s.Awake ∧ s.ivOn .tokRun = true ∧ s.iv .tokRes = 0 :=
  ⟨wit [put .tokRun 0x21, put .tokRaw 0],
  wit_awake _ (by decide +kernel),
  by and_intros <;> decide +kernel⟩

/-- The hypotheses of clause 13 of TokensComplete can be met. -/
theorem witness_TokensComplete_13 :
    ∃ (s : State) (st : Stamp) (k : Fin 32) (v : Word) (j : Fin 32) (pg : Pg), s.Awake ∧ s.locked (.sec 0) = false ∧
      v.getLsbD j = true ∧ lockPage? (32 * k + j) = some pg ∧ s.pathOpen st = true :=
  ⟨wit [], .fw0, 2, 0x10000, 16, .core 0,
  wit_awake _ (by decide +kernel),
  by and_intros <;> decide +kernel⟩

/-- The hypotheses of clause 1 of SecCompletes can be met. -/
theorem witness_SecCompletes_1 :
    ∃ (s : State) (ch : DoeOrMctp), s.Awake ∧ s.fwRuns = true ∧ (ch.isSome || (List.range 4).any fun n => s.on (.mgmt
      2) .MGMT_SMB_CFG_EN n) = true :=
  ⟨wit [wr .glb .GLB_DEV_STATE_FW_SLOT 0, wr (.mgmt 2) .MGMT_SMB_CFG_EN 1 1], none,
  wit_awake _ (by decide +kernel),
  by and_intros <;> decide +kernel⟩

/-- The hypotheses of clause 2 of SecCompletes can be met. -/
theorem witness_SecCompletes_2 :
    ∃ (s : State) (ch : DoeOrMctp) (k : Fin 256), s.Awake ∧ s.fwRuns = true ∧ (ch.isSome || (List.range 4).any fun n
      => s.on (.mgmt 2) .MGMT_SMB_CFG_EN n) = true ∧ 1 ≤ k.val ∧ k.val ≤ 7 :=
  ⟨wit [wr .glb .GLB_DEV_STATE_FW_SLOT 0], some 2, 4,
  wit_awake _ (by decide +kernel),
  by and_intros <;> decide +kernel⟩

/-- The hypotheses of clause 3 of SecCompletes can be met. -/
theorem witness_SecCompletes_3 :
    ∃ (s : State) (ch : DoeOrMctp) (k : Fin 8), s.Awake ∧ s.fwRuns = true ∧ (ch.isSome || (List.range 4).any fun n =>
      s.on (.mgmt 2) .MGMT_SMB_CFG_EN n) = true ∧ k.val < 2 ∧ s.iv .spdmSess (spdmIndex ch) + s.iv .spdmShake
      (spdmIndex ch) < spdmLimit ch :=
  ⟨wit [wr .glb .GLB_DEV_STATE_FW_SLOT 0], some 2, 1,
  wit_awake _ (by decide +kernel),
  by and_intros <;> decide +kernel⟩

/-- The hypotheses of clause 4 of SecCompletes can be met. -/
theorem witness_SecCompletes_4 :
    ∃ (s : State) (ch : DoeOrMctp), s.Awake ∧ s.fwRuns = true ∧ (ch.isSome || (List.range 4).any fun n => s.on (.mgmt
      2) .MGMT_SMB_CFG_EN n) = true ∧ spdmLimit ch ≤ s.iv .spdmSess (spdmIndex ch) + s.iv .spdmShake (spdmIndex ch) :=
  ⟨wit [wr .glb .GLB_DEV_STATE_FW_SLOT 0, put .spdmSess 2 2], some 2,
  wit_awake _ (by decide +kernel),
  by and_intros <;> decide +kernel⟩

/-- The hypotheses of clause 5 of SecCompletes can be met. -/
theorem witness_SecCompletes_5 :
    ∃ (s : State) (ch : DoeOrMctp), s.Awake ∧ s.fwRuns = true ∧ (ch.isSome || (List.range 4).any fun n => s.on (.mgmt
      2) .MGMT_SMB_CFG_EN n) = true ∧ s.ivOn .spdmShake (spdmIndex ch) = true :=
  ⟨wit [wr .glb .GLB_DEV_STATE_FW_SLOT 0, put .spdmShake 1 2], some 2,
  wit_awake _ (by decide +kernel),
  by and_intros <;> decide +kernel⟩

/-- The hypotheses of clause 6 of SecCompletes can be met. -/
theorem witness_SecCompletes_6 :
    ∃ (s : State), s.Awake ∧ s.fwRuns = false :=
  ⟨wit [],
  wit_awake _ (by decide +kernel),
  by decide +kernel⟩

/-- The hypotheses of clause 7 of SecCompletes can be met. -/
theorem witness_SecCompletes_7 :
    ∃ (s : State) (f : FaceId), s.Awake ∧ s.fwRuns = true ∧ s.on (.face f) .FACE_BIND_ENABLE = true ∧ s.ivOn .spdmSess
      f = true :=
  ⟨wit [witSession], 2,
  wit_awake _ (by decide +kernel),
  by and_intros <;> decide +kernel⟩

/-- The hypotheses of clause 8 of SecCompletes can be met. -/
theorem witness_SecCompletes_8 :
    ∃ (s : State) (f : FaceId) (j : Fin 2) (k : Fin 6), s.Awake ∧ s.fwRuns = true ∧ s.on (.face f) .FACE_BIND_ENABLE =
      true ∧ s.ivOn .spdmSess f = true ∧ (s.iv .ideKey (ideSet (s.facePort f) 0 j)).testBit k = true ∧ setBit (s.iv
      .ideGo (ideSet (s.facePort f) 0 j)) k = ideAll :=
  ⟨wit [witSession, put .ideKey 63 81, put .ideGo 55 81], 2, 1, 3,
  wit_awake _ (by decide +kernel),
  by and_intros <;> decide +kernel⟩

/-- The hypotheses of clause 9 of SecCompletes can be met. -/
theorem witness_SecCompletes_9 :
    ∃ (s : State), s.Awake ∧ s.fwRuns = true ∧ ((List.range 4).any fun n => s.on (.mgmt 2) .MGMT_SMB_CFG_EN n) = true :=
  ⟨wit [witSession, wr (.mgmt 2) .MGMT_SMB_CFG_EN 1 1],
  wit_awake _ (by decide +kernel),
  by and_intros <;> decide +kernel⟩

/-- The hypotheses of clause 10 of SecCompletes can be met. -/
theorem witness_SecCompletes_10 :
    ∃ (s : State) (p : PortId) (x : Nat), s.Awake ∧ s.role p = roleDOWN ∧ s.link p = lsL0 ∧ s.ivOn .ideDown p = true ∧
      x ≠ 0 ∧ s.iv .devRoot 0 = x :=
  ⟨wit [wr (.port 8) .PORT_CFG_ROLE 2, wr (.port 8) .PORT_LINK_STAT_STATE lsL0, put .ideDown 1 8, put .devRoot 77 0],
    8, 77,
  wit_awake _ (by decide +kernel),
  by and_intros <;> decide +kernel⟩

/-- The hypotheses of clause 11 of SecCompletes can be met. -/
theorem witness_SecCompletes_11 :
    ∃ (s : State) (p : PortId), s.Awake ∧ s.role p = roleDOWN ∧ s.link p = lsL0 ∧ s.ivOn .ideDown p = true ∧ s.ivOn
      .devRoot 0 = true :=
  ⟨wit [wr (.port 8) .PORT_CFG_ROLE 2, wr (.port 8) .PORT_LINK_STAT_STATE lsL0, put .ideDown 1 8, put .devRoot 77 0],
    8,
  wit_awake _ (by decide +kernel),
  by and_intros <;> decide +kernel⟩

/-- The hypotheses of clause 12 of SecCompletes can be met. -/
theorem witness_SecCompletes_12 :
    ∃ (s : State) (p : PortId), s.Awake ∧ 2 ^ 40 ≤ s.iv .txNum p ∧ s.linkRuns p = true ∧ s.on (.port p)
      .PORT_LINK_STAT_ENC = true ∧ s.iv .rekeying p = 0 ∧ s.iv .nextKey p = 0 :=
  ⟨wit [witFabUp 4, wr (.port 4) .PORT_LINK_STAT_ENC 1, put .txNum (2 ^ 40) 4], 4,
  wit_awake _ (by decide +kernel),
  by and_intros <;> decide +kernel⟩

/-- The hypotheses of clause 13 of SecCompletes can be met. -/
theorem witness_SecCompletes_13 :
    ∃ (s : State) (p : PortId) (st : Stamp) (v : Word), s.Awake ∧ s.locked (.sec 2) = false ∧ v.getLsbD 29 = true ∧
      s.linkRuns p = true ∧ s.on (.port p) .PORT_LINK_STAT_ENC = true ∧ s.iv .rekeying p = 0 ∧ s.iv .nextKey p = 0 ∧
      s.pathOpen st = true :=
  ⟨wit [witFabUp 4, wr (.port 4) .PORT_LINK_STAT_ENC 1], 4, .fw0, 0x20000000,
  wit_awake _ (by decide +kernel),
  by and_intros <;> decide +kernel⟩

/-- The hypotheses of clause 14 of SecCompletes can be met. -/
theorem witness_SecCompletes_14 :
    ∃ (s : State) (p : PortId), s.Awake ∧ s.ivOn .rekeying p = true :=
  ⟨wit [witFabUp 4, wr (.port 4) .PORT_LINK_STAT_ENC 1, put .rekeying 1 4], 4,
  wit_awake _ (by decide +kernel),
  by decide +kernel⟩

/-- The hypotheses of clause 15 of SecCompletes can be met. -/
theorem witness_SecCompletes_15 :
    ∃ (s : State) (st : Stamp) (v : Word), s.Awake ∧ s.locked (.sec 0) = false ∧ v.getLsbD 31 = true ∧ s.pathOpen st =
      true :=
  ⟨wit [wr (.sec 0) .SEC_DEBUG_STATE dbUNLOCKED], .fw0, 0x80000000,
  wit_awake _ (by decide +kernel),
  by and_intros <;> decide +kernel⟩

/-- The hypotheses of clause 1 of ChannelsStartAndCut can be met. -/
theorem witness_ChannelsStartAndCut_1 :
    ∃ (s : State) (c : ChanId), s.wf ∧ anchor c = false ∧ s.chan c = pcWAIT_SEAT :=
  ⟨wit [witChan 1], 5,
  Upd.keeps_wf _ reset_wf,
  by and_intros <;> decide +kernel⟩

/-- The hypotheses of clause 2 of ChannelsStartAndCut can be met. -/
theorem witness_ChannelsStartAndCut_2 :
    ∃ (s : State) (c : ChanId), s.wf ∧ anchor c = false ∧ s.chan c = pcLATCHED ∧ s.rd (.pwr c) .PWR_CH_STAT_SEATED = 0 :=
  ⟨wit [witChan 7], 5,
  Upd.keeps_wf _ reset_wf,
  by and_intros <;> decide +kernel⟩

/-- The hypotheses of clause 3 of ChannelsStartAndCut can be met. -/
theorem witness_ChannelsStartAndCut_3 :
    ∃ (s : State) (c : ChanId) (b : Bool), s.wf ∧ s.chan c = pcWAIT_FEED ∧ s.on (.pwr c) (if b then
      .PWR_FEED_SEL_FEED_B_EN else .PWR_FEED_SEL_FEED_A_EN) = true ∧ s.prefersB c = b :=
  ⟨wit [witChan 2], 5, false,
  Upd.keeps_wf _ reset_wf,
  by and_intros <;> decide +kernel⟩

/-- The hypotheses of clause 4 of ChannelsStartAndCut can be met. -/
theorem witness_ChannelsStartAndCut_4 :
    ∃ (s : State) (c : ChanId), s.wf ∧ s.chan c = pcRAMP :=
  ⟨wit [witChan 3], 5,
  Upd.keeps_wf _ reset_wf,
  by decide +kernel⟩

/-- The hypotheses of clause 5 of ChannelsStartAndCut can be met. -/
theorem witness_ChannelsStartAndCut_5 :
    ∃ (s : State) (c : ChanId), s.wf ∧ s.chan c = pcRAMP :=
  ⟨wit [witChan 3], 5,
  Upd.keeps_wf _ reset_wf,
  by decide +kernel⟩

/-- The hypotheses of clause 6 of ChannelsStartAndCut can be met. -/
theorem witness_ChannelsStartAndCut_6 :
    ∃ (s : State) (c : ChanId) (n : Nat), s.wf ∧ s.chanOn c = true ∧ s.on (.pwr c) .PWR_CH_CFG_EN = true ∧ s.iv
      .pwReset c = 0 ∧ s.rd (.pwr c) .PWR_CH_STAT_RETRIES_LEFT = n + 1 :=
  ⟨wit [witChan 4, wr (.pwr 5) .PWR_CH_STAT_RETRIES_LEFT 2], 5, 1,
  Upd.keeps_wf _ reset_wf,
  by and_intros <;> decide +kernel⟩

/-- The hypotheses of clause 7 of ChannelsStartAndCut can be met. -/
theorem witness_ChannelsStartAndCut_7 :
    ∃ (s : State) (c : ChanId), s.wf ∧ s.chanOn c = true ∧ s.on (.pwr c) .PWR_CH_CFG_EN = true ∧ s.iv .pwReset c = 0 ∧
      s.rd (.pwr c) .PWR_CH_STAT_RETRIES_LEFT = 0 :=
  ⟨wit [witChan 4, wr (.pwr 5) .PWR_CH_STAT_RETRIES_LEFT 0], 5,
  Upd.keeps_wf _ reset_wf,
  by and_intros <;> decide +kernel⟩

/-- The hypotheses of clause 8 of ChannelsStartAndCut can be met. -/
theorem witness_ChannelsStartAndCut_8 :
    ∃ (s : State) (c : ChanId), s.wf ∧ ((s.chan c = pcRAMP ∨ s.chan c = pcON)) :=
  ⟨wit [witChan 4], 5,
  Upd.keeps_wf _ reset_wf,
  by decide +kernel⟩

/-- The hypotheses of clause 9 of ChannelsStartAndCut can be met. -/
theorem witness_ChannelsStartAndCut_9 :
    ∃ (s : State) (c : ChanId), s.wf ∧ ((s.chan c = pcRAMP ∨ s.chan c = pcON)) :=
  ⟨wit [witChan 4], 5,
  Upd.keeps_wf _ reset_wf,
  by decide +kernel⟩

/-- The hypotheses of clause 10 of ChannelsStartAndCut can be met. -/
theorem witness_ChannelsStartAndCut_10 :
    ∃ (s : State) (c : ChanId), s.wf ∧ anchor c = false ∧ s.chan c = pcON :=
  ⟨wit [witChan 4], 5,
  Upd.keeps_wf _ reset_wf,
  by and_intros <;> decide +kernel⟩

/-- The hypotheses of clause 11 of ChannelsStartAndCut can be met. -/
theorem witness_ChannelsStartAndCut_11 :
    ∃ (s : State) (c : ChanId), s.wf ∧ anchor c = false ∧ ((s.chan c = pcWAIT_FEED ∨ s.chan c = pcRETRY_WAIT ∨ s.chan
      c = pcFEED_LOST)) :=
  ⟨wit [witChan 6], 5,
  Upd.keeps_wf _ reset_wf,
  by and_intros <;> decide +kernel⟩

/-- The hypotheses of clause 12 of ChannelsStartAndCut can be met. -/
theorem witness_ChannelsStartAndCut_12 :
    ∃ (s : State) (c : ChanId), s.wf ∧ s.chan c = pcON ∧ s.feedOk c (!s.activeB c) = false :=
  ⟨wit [witChan 4], 5,
  Upd.keeps_wf _ reset_wf,
  by and_intros <;> decide +kernel⟩

/-- The hypotheses of clause 13 of ChannelsStartAndCut can be met. -/
theorem witness_ChannelsStartAndCut_13 :
    ∃ (s : State) (c : ChanId), s.wf ∧ s.chanOn c = true ∧ s.on (.pwr c) .PWR_CH_CFG_EN = true ∧ s.iv .pwReset c = 0 ∧
      s.feedOk c (!s.activeB c) = false :=
  ⟨wit [witChan 4], 5,
  Upd.keeps_wf _ reset_wf,
  by and_intros <;> decide +kernel⟩

/-- The hypotheses of clause 14 of ChannelsStartAndCut can be met. -/
theorem witness_ChannelsStartAndCut_14 :
    ∃ (s : State) (c : ChanId), s.wf ∧ s.chan c = pcWARN ∧ s.iv .pwCause c = cutFET ∧ s.on (.pwr c) .PWR_CH_CFG_EN =
      true ∧ s.iv .pwReset c = 0 :=
  ⟨wit [witChan 5, put .pwCause 5 5], 5,
  Upd.keeps_wf _ reset_wf,
  by and_intros <;> decide +kernel⟩

/-- The hypotheses of clause 15 of ChannelsStartAndCut can be met. -/
theorem witness_ChannelsStartAndCut_15 :
    ∃ (s : State) (c : ChanId), s.wf ∧ s.chan c = pcWARN ∧ s.iv .pwCause c = 0 :=
  ⟨wit [witChan 5, put .pwSwitch 2 5], 5,
  Upd.keeps_wf _ reset_wf,
  by and_intros <;> decide +kernel⟩

/-- The hypotheses of clause 16 of ChannelsStartAndCut can be met. -/
theorem witness_ChannelsStartAndCut_16 :
    ∃ (s : State) (c : ChanId), s.wf ∧ s.chan c = pcRETRY_WAIT :=
  ⟨wit [witChan 6], 5,
  Upd.keeps_wf _ reset_wf,
  by decide +kernel⟩

/-- The hypotheses of clause 1 of ChannelsSwitchAndReport can be met. -/
theorem witness_ChannelsSwitchAndReport_1 :
    ∃ (s : State) (c : ChanId), s.wf ∧ s.chanOn c = true ∧ s.ivOn .pwDead c = false ∧ s.rd (.pwr c)
      .PWR_CH_STAT_REV_BLOCK = 0 :=
  ⟨wit [witChan 4], 5,
  Upd.keeps_wf _ reset_wf,
  by and_intros <;> decide +kernel⟩

/-- The hypotheses of clause 2 of ChannelsSwitchAndReport can be met. -/
theorem witness_ChannelsSwitchAndReport_2 :
    ∃ (s : State), s.wf ∧ True :=
  ⟨wit [witChan 4, wr (.pwr 5) .PWR_CH_STAT_REV_BLOCK 1],
  Upd.keeps_wf _ reset_wf, trivial⟩

/-- The hypotheses of clause 3 of ChannelsSwitchAndReport can be met. -/
theorem witness_ChannelsSwitchAndReport_3 :
    ∃ (s : State) (c : ChanId), s.wf ∧ s.chan c = pcON ∧ s.rd (.pwr c) .PWR_CH_STAT_LIMIT = 0 ∧ s.rd (.pwr c)
      .PWR_CH_STAT_PG = 0 ∧ s.rd (.pwr c) .PWR_CH_STAT_REV_BLOCK = 0 ∧ s.iv .pwDead c = 0 :=
  ⟨wit [witChan 4, wr (.pwr 5) .PWR_CH_STAT_WARN 1], 5,
  Upd.keeps_wf _ reset_wf,
  by and_intros <;> decide +kernel⟩

/-- The hypotheses of clause 4 of ChannelsSwitchAndReport can be met. -/
theorem witness_ChannelsSwitchAndReport_4 :
    ∃ (s : State) (c : ChanId), s.wf ∧ s.rd (.pwr c) .PWR_CH_STAT_PG = 1 :=
  ⟨wit [witChan 4, wr (.pwr 5) .PWR_CH_STAT_PG 1], 5,
  Upd.keeps_wf _ reset_wf,
  by decide +kernel⟩

/-- The hypotheses of clause 5 of ChannelsSwitchAndReport can be met. -/
theorem witness_ChannelsSwitchAndReport_5 :
    ∃ (s : State), s.wf ∧ True :=
  ⟨wit [witChan 4, wr (.pwr 5) .PWR_CH_STAT_PG 1],
  Upd.keeps_wf _ reset_wf, trivial⟩

/-- The hypotheses of clause 6 of ChannelsSwitchAndReport can be met. -/
theorem witness_ChannelsSwitchAndReport_6 :
    ∃ (s : State) (c : ChanId), s.wf ∧ ((s.chan c = pcRAMP ∨ s.chan c = pcON)) ∧ s.iv .pwDead c = 0 ∧ s.on (.pwr c)
      (if s.activeB c then .PWR_FEED_SEL_FEED_A_EN else .PWR_FEED_SEL_FEED_B_EN) = true ∧ s.on (.pwr c)
      .PWR_FEED_SEL_WARN_ON_SWITCH = false :=
  ⟨wit [witDual 4, wr (.pwr 5) .PWR_FEED_SEL_WARN_ON_SWITCH 0], 5,
  Upd.keeps_wf _ reset_wf,
  by and_intros <;> decide +kernel⟩

/-- The hypotheses of clause 7 of ChannelsSwitchAndReport can be met. -/
theorem witness_ChannelsSwitchAndReport_7 :
    ∃ (s : State) (c : ChanId), s.wf ∧ s.chan c = pcON ∧ s.iv .pwDead c = 0 ∧ s.on (.pwr c) (if s.activeB c then
      .PWR_FEED_SEL_FEED_A_EN else .PWR_FEED_SEL_FEED_B_EN) = true ∧ s.on (.pwr c) .PWR_FEED_SEL_WARN_ON_SWITCH = true :=
  ⟨wit [witDual 4, wr (.pwr 5) .PWR_FEED_SEL_WARN_ON_SWITCH 1], 5,
  Upd.keeps_wf _ reset_wf,
  by and_intros <;> decide +kernel⟩

/-- The hypotheses of clause 8 of ChannelsSwitchAndReport can be met. -/
theorem witness_ChannelsSwitchAndReport_8 :
    ∃ (s : State) (c : ChanId), s.wf ∧ s.on (.pwr c) .PWR_FEED_SEL_REVERT = true ∧ s.activeB c ≠ s.prefersB c ∧ s.on
      (.pwr c) (if s.prefersB c then .PWR_FEED_SEL_FEED_B_EN else .PWR_FEED_SEL_FEED_A_EN) = true ∧ s.chan c = pcON ∧
      s.iv .pwSwitch c = 0 ∧ s.on (.pwr c) .PWR_FEED_SEL_WARN_ON_SWITCH = true :=
  ⟨wit [witDual 4, wr (.pwr 5) .PWR_FEED_SEL_REVERT 1, wr (.pwr 5) .PWR_CH_STAT_ACTIVE_B 1, wr (.pwr 5)
    .PWR_FEED_SEL_PRIO 0, wr (.pwr 5) .PWR_FEED_SEL_WARN_ON_SWITCH 1], 5,
  Upd.keeps_wf _ reset_wf,
  by and_intros <;> decide +kernel⟩

/-- The hypotheses of clause 9 of ChannelsSwitchAndReport can be met. -/
theorem witness_ChannelsSwitchAndReport_9 :
    ∃ (s : State) (c : ChanId), s.wf ∧ s.on (.pwr c) .PWR_FEED_SEL_REVERT = true ∧ s.activeB c ≠ s.prefersB c ∧ s.on
      (.pwr c) (if s.prefersB c then .PWR_FEED_SEL_FEED_B_EN else .PWR_FEED_SEL_FEED_A_EN) = true ∧ s.chan c = pcON ∧
      s.iv .pwSwitch c = 0 ∧ s.on (.pwr c) .PWR_FEED_SEL_WARN_ON_SWITCH = false :=
  ⟨wit [witDual 4, wr (.pwr 5) .PWR_FEED_SEL_REVERT 1, wr (.pwr 5) .PWR_CH_STAT_ACTIVE_B 1, wr (.pwr 5)
    .PWR_FEED_SEL_PRIO 0, wr (.pwr 5) .PWR_FEED_SEL_WARN_ON_SWITCH 0], 5,
  Upd.keeps_wf _ reset_wf,
  by and_intros <;> decide +kernel⟩

/-- The hypotheses of clause 10 of ChannelsSwitchAndReport can be met. -/
theorem witness_ChannelsSwitchAndReport_10 :
    ∃ (s : State) (c : ChanId), s.wf ∧ s.chanOn c = true ∧ s.ivOn .pwDead c = true ∧ s.iv .pwSwitch c = 2 :=
  ⟨wit [witDual 4, put .pwDead 1 5, put .pwSwitch 2 5], 5,
  Upd.keeps_wf _ reset_wf,
  by and_intros <;> decide +kernel⟩

/-- The hypotheses of clause 11 of ChannelsSwitchAndReport can be met. -/
theorem witness_ChannelsSwitchAndReport_11 :
    ∃ (s : State) (c : ChanId), s.wf ∧ s.chanOn c = true ∧ s.on (.pwr c) .PWR_FEED_SEL_FEED_A_EN = true :=
  ⟨wit [witChan 4], 5,
  Upd.keeps_wf _ reset_wf,
  by and_intros <;> decide +kernel⟩

/-- The hypotheses of clause 1 of ChannelsAsCommanded can be met. -/
theorem witness_ChannelsAsCommanded_1 :
    ∃ (s : State) (c : ChanId) (st : Stamp) (v : Word), s.Awake ∧ s.locked (.pwr c) = false ∧ v.getLsbD 31 = true ∧
      v.getLsbD 29 = false ∧ s.on (.pwr c) .PWR_FEED_SEL_FEED_A_EN = true ∧ s.on (.pwr c) .PWR_CH_CFG_EN = false ∧
      s.chan c = pcOFF ∧ s.pathOpen st = true :=
  ⟨wit [wr (.pwr 5) .PWR_FEED_SEL_FEED_A_EN 1], 5, .fw0, 0x80000000,
  wit_awake _ (by decide +kernel),
  by and_intros <;> decide +kernel⟩

/-- The hypotheses of clause 2 of ChannelsAsCommanded can be met. -/
theorem witness_ChannelsAsCommanded_2 :
    ∃ (s : State) (c : ChanId) (st : Stamp) (v : Word), s.Awake ∧ s.locked (.pwr c) = false ∧ v.getLsbD 31 = true ∧
      s.on (.pwr c) .PWR_FEED_SEL_FEED_A_EN = false ∧ s.on (.pwr c) .PWR_FEED_SEL_FEED_B_EN = false ∧ s.pathOpen st =
      true :=
  ⟨wit [wr (.pwr 5) .PWR_FEED_SEL_FEED_A_EN 0, wr (.pwr 5) .PWR_FEED_SEL_FEED_B_EN 0], 5, .fw0, 0x80000000,
  wit_awake _ (by decide +kernel),
  by and_intros <;> decide +kernel⟩

/-- The hypotheses of clause 3 of ChannelsAsCommanded can be met. -/
theorem witness_ChannelsAsCommanded_3 :
    ∃ (s : State) (c : ChanId) (st : Stamp) (v : Word), s.Awake ∧ s.locked (.pwr c) = false ∧ v.getLsbD 31 = false ∧
      v.getLsbD 29 = false ∧ Fld.PWR_CH_CFG_PORT.of v.toNat = s.rd (.pwr c) .PWR_CH_CFG_PORT ∧
      Fld.PWR_CH_CFG_BIND_EN.of v.toNat = s.rd (.pwr c) .PWR_CH_CFG_BIND_EN ∧ s.on (.pwr c) .PWR_CH_CFG_EN = true ∧
      s.chan c = pcON ∧ s.pathOpen st = true :=
  ⟨wit [witChan 4], 5, .fw0, 0,
  wit_awake _ (by decide +kernel),
  by and_intros <;> decide +kernel⟩

/-- The hypotheses of clause 4 of ChannelsAsCommanded can be met. -/
theorem witness_ChannelsAsCommanded_4 :
    ∃ (s : State) (c : ChanId) (st : Stamp) (v : Word), s.Awake ∧ s.locked (.pwr c) = false ∧ v.getLsbD 31 = false ∧
      v.getLsbD 29 = false ∧ s.on (.pwr c) .PWR_CH_CFG_EN = true ∧ s.chan c = pcLATCHED ∧ s.pathOpen st = true :=
  ⟨wit [witChan 7], 5, .fw0, 0,
  wit_awake _ (by decide +kernel),
  by and_intros <;> decide +kernel⟩

/-- The hypotheses of clause 5 of ChannelsAsCommanded can be met. -/
theorem witness_ChannelsAsCommanded_5 :
    ∃ (s : State) (c : ChanId) (st : Stamp) (v : Word), s.Awake ∧ s.locked (.pwr c) = false ∧ v.getLsbD 31 = true ∧
      v.getLsbD 29 = true ∧ s.on (.pwr c) .PWR_CH_CFG_EN = true ∧ s.on (.pwr c) .PWR_FEED_SEL_FEED_A_EN = true ∧
      s.chan c = pcLATCHED ∧ s.pathOpen st = true :=
  ⟨wit [witChan 7], 5, .fw0, 0xA0000000,
  wit_awake _ (by decide +kernel),
  by and_intros <;> decide +kernel⟩

/-- The hypotheses of clause 6 of ChannelsAsCommanded can be met. -/
theorem witness_ChannelsAsCommanded_6 :
    ∃ (s : State) (c : ChanId) (st : Stamp) (v : Word), s.Awake ∧ s.locked (.pwr c) = false ∧ v.getLsbD 31 = true ∧
      v.getLsbD 30 = true ∧ bits v.toNat 26 25 = 2 ∧ s.chan c = pcON ∧ s.activeB c = false ∧ s.rd (.pwr c)
      .PWR_CH_STAT_B_OK = 1 ∧ s.iv .pwSwitch c = 0 ∧ Fld.PWR_FEED_SEL_WARN_ON_SWITCH.of v.toNat = 0 ∧ s.pathOpen st =
      true :=
  ⟨wit [witDual 4], 5, .fw0, 0xC4000000,
  wit_awake _ (by decide +kernel),
  by and_intros <;> decide +kernel⟩

/-- The hypotheses of clause 7 of ChannelsAsCommanded can be met. -/
theorem witness_ChannelsAsCommanded_7 :
    ∃ (s : State) (c : ChanId) (st : Stamp) (v : Word), s.Awake ∧ s.locked (.pwr c) = false ∧ s.on (.pwr c)
      .PWR_CH_CFG_EN = true ∧ v.getLsbD 31 = false ∧ v.getLsbD 30 = false ∧ s.pathOpen st = true :=
  ⟨wit [witDual 4], 5, .fw0, 0x04000000,
  wit_awake _ (by decide +kernel),
  by and_intros <;> decide +kernel⟩

/-- The hypotheses of clause 8 of ChannelsAsCommanded can be met. -/
theorem witness_ChannelsAsCommanded_8 :
    ∃ (s : State), s.Awake ∧ s.on .pwrg .PWR_CHECK_CFG_EN = true ∧ s.inCycle = true ∧ s.cycleNum % 2 ^ s.rd .pwrg
      .PWR_CHECK_CFG_EVERY_LOG2 = 0 :=
  ⟨wit [wr .pwrg .PWR_CHECK_CFG_EN 1, wr .schedg .SCHED_CYC_STAT_STATE ctLOCKED, wr (.pwr 5) .PWR_TELEM_VOUT 12],
  wit_awake _ (by decide +kernel),
  by and_intros <;> decide +kernel⟩

/-- The hypotheses of clause 9 of ChannelsAsCommanded can be met. -/
theorem witness_ChannelsAsCommanded_9 :
    ∃ (s : State) (c : ChanId), s.Awake ∧ s.on .pwrg .PWR_CHECK_CFG_EN = true ∧ s.inCycle = true ∧ s.cycleNum % 2 ^
      s.rd .pwrg .PWR_CHECK_CFG_EVERY_LOG2 = 0 ∧ s.chan c = pcON ∧ s.on (.pwr c) .PWR_FEED_SEL_FEED_B_EN = true ∧
      s.feedOk c (!s.activeB c) = false :=
  ⟨wit [wr .pwrg .PWR_CHECK_CFG_EN 1, wr .schedg .SCHED_CYC_STAT_STATE ctLOCKED, witDual 4, wr (.pwr 5)
    .PWR_CH_STAT_B_OK 0], 5,
  wit_awake _ (by decide +kernel),
  by and_intros <;> decide +kernel⟩

/-- The hypotheses of clause 1 of FirmwareAndMctpComplete can be met. -/
theorem witness_FirmwareAndMctpComplete_1 :
    ∃ (s : State), s.Awake ∧ s.fwRuns = true ∧ (s.fifo .fwTimes).length < max 1 (s.rd (.mgmt 0)
      .MGMT_FW_STAT_RESTART_LIMIT) :=
  ⟨wit [wr .glb .GLB_DEV_STATE_FW_SLOT 0, wr .glb .GLB_DEV_STATE_STATE 4],
  wit_awake _ (by decide +kernel),
  by and_intros <;> decide +kernel⟩

/-- The hypotheses of clause 2 of FirmwareAndMctpComplete can be met. -/
theorem witness_FirmwareAndMctpComplete_2 :
    ∃ (s : State), s.Awake ∧ s.fwRuns = false :=
  ⟨wit [],
  wit_awake _ (by decide +kernel),
  by decide +kernel⟩

/-- The hypotheses of clause 3 of FirmwareAndMctpComplete can be met. -/
theorem witness_FirmwareAndMctpComplete_3 :
    ∃ (s : State), s.Awake ∧ s.fwRuns = true ∧ (s.fifo .fwTimes).length < max 1 (s.rd (.mgmt 0)
      .MGMT_FW_STAT_RESTART_LIMIT) :=
  ⟨wit [wr .glb .GLB_DEV_STATE_FW_SLOT 0, wr .glb .GLB_DEV_STATE_STATE 4],
  wit_awake _ (by decide +kernel),
  by and_intros <;> decide +kernel⟩

/-- The hypotheses of clause 4 of FirmwareAndMctpComplete can be met. -/
theorem witness_FirmwareAndMctpComplete_4 :
    ∃ (s : State), s.Awake ∧ s.fwRuns = true ∧ (∀ x ∈ s.fifo .fwTimes, s.now < x + minute) ∧ max 1 (s.rd (.mgmt 0)
      .MGMT_FW_STAT_RESTART_LIMIT) ≤ (s.fifo .fwTimes).length :=
  ⟨wit [wr .glb .GLB_DEV_STATE_FW_SLOT 0, wr .glb .GLB_DEV_STATE_STATE 4, putFifo .fwTimes [1, 2, 3, 4]],
  wit_awake _ (by decide +kernel),
  by and_intros <;> decide +kernel⟩

/-- The hypotheses of clause 5 of FirmwareAndMctpComplete can be met. -/
theorem witness_FirmwareAndMctpComplete_5 :
    ∃ (s : State) (st : Stamp) (v : Word), s.Awake ∧ s.locked (.mgmt 0) = false ∧ bits v.toNat 31 16 = 0x57A7 ∧
      v.getLsbD 15 = true ∧ s.pathOpen st = true :=
  ⟨wit [], .fw0, 0x57A78064,
  wit_awake _ (by decide +kernel),
  by and_intros <;> decide +kernel⟩

/-- The hypotheses of clause 6 of FirmwareAndMctpComplete can be met. -/
theorem witness_FirmwareAndMctpComplete_6 :
    ∃ (s : State) (k : Fin 4) (e : BitVec 8), s.Awake ∧ s.on (.mgmt 2) .MGMT_SMB_CFG_EN k = true ∧ s.fwRuns = true ∧ e
      ≠ 0 ∧ e ≠ 0xFF :=
  ⟨wit [wr .glb .GLB_DEV_STATE_FW_SLOT 0, wr .glb .GLB_DEV_STATE_STATE 4, wr (.mgmt 2) .MGMT_SMB_CFG_EN 1 1], 1, 9,
  wit_awake _ (by decide +kernel),
  by and_intros <;> decide +kernel⟩

/-- The hypotheses of clause 7 of FirmwareAndMctpComplete can be met. -/
theorem witness_FirmwareAndMctpComplete_7 :
    ∃ (s : State) (k : Fin 4), s.Awake ∧ s.on (.mgmt 2) .MGMT_SMB_CFG_EN k = true ∧ s.fwRuns = true :=
  ⟨wit [wr .glb .GLB_DEV_STATE_FW_SLOT 0, wr .glb .GLB_DEV_STATE_STATE 4, wr (.mgmt 2) .MGMT_SMB_CFG_EN 1 1, put
    .mctpEid 9], 1,
  wit_awake _ (by decide +kernel),
  by and_intros <;> decide +kernel⟩

/-- The hypotheses of clause 8 of FirmwareAndMctpComplete can be met. -/
theorem witness_FirmwareAndMctpComplete_8 :
    ∃ (s : State) (k : Fin 4), s.Awake ∧ s.on (.mgmt 2) .MGMT_SMB_CFG_EN k = true ∧ s.fwRuns = true :=
  ⟨wit [wr .glb .GLB_DEV_STATE_FW_SLOT 0, wr .glb .GLB_DEV_STATE_STATE 4, wr (.mgmt 2) .MGMT_SMB_CFG_EN 1 1, put
    .mctpEid 9], 1,
  wit_awake _ (by decide +kernel),
  by and_intros <;> decide +kernel⟩

/-- The hypotheses of clause 9 of FirmwareAndMctpComplete can be met. -/
theorem witness_FirmwareAndMctpComplete_9 :
    ∃ (s : State) (k : Fin 4), s.Awake ∧ s.on (.mgmt 2) .MGMT_SMB_CFG_EN k = true ∧ s.fwRuns = true :=
  ⟨wit [wr .glb .GLB_DEV_STATE_FW_SLOT 0, wr .glb .GLB_DEV_STATE_STATE 4, wr (.mgmt 2) .MGMT_SMB_CFG_EN 1 1], 1,
  wit_awake _ (by decide +kernel),
  by and_intros <;> decide +kernel⟩

/-- The hypotheses of clause 10 of FirmwareAndMctpComplete can be met. -/
theorem witness_FirmwareAndMctpComplete_10 :
    ∃ (s : State) (k : Fin 4), s.Awake ∧ s.on (.mgmt 2) .MGMT_SMB_CFG_EN k = true ∧ s.fwRuns = true :=
  ⟨wit [wr .glb .GLB_DEV_STATE_FW_SLOT 0, wr .glb .GLB_DEV_STATE_STATE 4, wr (.mgmt 2) .MGMT_SMB_CFG_EN 1 1], 1,
  wit_awake _ (by decide +kernel),
  by and_intros <;> decide +kernel⟩

/-- The hypotheses of clause 11 of FirmwareAndMctpComplete can be met. -/
theorem witness_FirmwareAndMctpComplete_11 :
    ∃ (s : State) (k : Fin 4), s.Awake ∧ s.on (.mgmt 2) .MGMT_SMB_CFG_EN k = true ∧ s.fwRuns = true :=
  ⟨wit [wr .glb .GLB_DEV_STATE_FW_SLOT 0, wr .glb .GLB_DEV_STATE_STATE 4, wr (.mgmt 2) .MGMT_SMB_CFG_EN 1 1], 1,
  wit_awake _ (by decide +kernel),
  by and_intros <;> decide +kernel⟩

/-- The hypotheses of clause 1 of SidebandAccessesComplete can be met. -/
theorem witness_SidebandAccessesComplete_1 :
    ∃ (s : State) (k : Fin 4) (pg : Pg), s.Awake ∧ s.on (.mgmt 2) .MGMT_SMB_CFG_EN k = true ∧ s.fwRuns = true ∧ pg.ok
      = true ∧ pg.common = true ∧ s.placeOf .sb (.space (BitVec.ofNat 26 (pg.base + 0x24))) 0 = ⟨.reg pg 0x24 false,
      pg⟩ :=
  ⟨wit [wr .glb .GLB_DEV_STATE_FW_SLOT 0, wr .glb .GLB_DEV_STATE_STATE 4, wr (.mgmt 2) .MGMT_SMB_CFG_EN 1 1, wr (.port
    4) .ERR_MASK_MASK 77], 1, .port 4,
  wit_awake _ (by decide +kernel),
  by and_intros <;> decide +kernel⟩

/-- The hypotheses of clause 2 of SidebandAccessesComplete can be met. -/
theorem witness_SidebandAccessesComplete_2 :
    ∃ (s : State) (k : Fin 4) (pg : Pg), s.Awake ∧ s.on (.mgmt 2) .MGMT_SMB_CFG_EN k = true ∧ s.fwRuns = true ∧ pg.ok
      = true ∧ pg.common = true ∧ s.placeOf .sb (.space (BitVec.ofNat 26 (pg.base + 0x24))) 0 = ⟨.reg pg 0x24 false,
      pg⟩ ∧ s.locked pg = false ∧ s.safeHalt = false :=
  ⟨wit [wr .glb .GLB_DEV_STATE_FW_SLOT 0, wr .glb .GLB_DEV_STATE_STATE 4, wr (.mgmt 2) .MGMT_SMB_CFG_EN 1 1], 1, .port
    4,
  wit_awake _ (by decide +kernel),
  by and_intros <;> decide +kernel⟩

/-- The hypotheses of clause 3 of SidebandAccessesComplete can be met. -/
theorem witness_SidebandAccessesComplete_3 :
    ∃ (s : State) (k : Fin 4) (pg : Pg), s.Awake ∧ s.on (.mgmt 2) .MGMT_SMB_CFG_EN k = true ∧ s.fwRuns = true ∧ pg.ok
      = true ∧ pg.common = true ∧ s.safeHalt = true :=
  ⟨wit [wr .glb .GLB_DEV_STATE_FW_SLOT 0, wr .glb .GLB_DEV_STATE_STATE 4, wr (.mgmt 2) .MGMT_SMB_CFG_EN 1 1, wr .glb
    .GLB_DEV_STATE_STATE 8], 1, .port 4,
  wit_awake _ (by decide +kernel),
  by and_intros <;> decide +kernel⟩

/-- The hypotheses of clause 4 of SidebandAccessesComplete can be met. -/
theorem witness_SidebandAccessesComplete_4 :
    ∃ (s : State) (k : Fin 4) (w : SwId), s.Awake ∧ s.on (.mgmt 2) .MGMT_SMB_CFG_EN k = true ∧ s.fwRuns = true ∧
      s.safeHalt = false ∧ s.switchFeid? w = none ∧ s.partnerPort w = none :=
  ⟨wit [wr .glb .GLB_DEV_STATE_FW_SLOT 0, wr .glb .GLB_DEV_STATE_STATE 4, wr (.mgmt 2) .MGMT_SMB_CFG_EN 1 1], 1, 7,
  wit_awake _ (by decide +kernel),
  by and_intros <;> decide +kernel⟩

/-- The hypotheses of clause 5 of SidebandAccessesComplete can be met. -/
theorem witness_SidebandAccessesComplete_5 :
    ∃ (s : State) (k : Fin 4) (w : SwId) (p : Nat), s.Awake ∧ s.on (.mgmt 2) .MGMT_SMB_CFG_EN k = true ∧ s.fwRuns =
      true ∧ s.safeHalt = false ∧ s.switchFeid? w = none ∧ s.partnerPort w = some p :=
  ⟨wit [wr .glb .GLB_DEV_STATE_FW_SLOT 0, wr .glb .GLB_DEV_STATE_STATE 4, wr (.mgmt 2) .MGMT_SMB_CFG_EN 1 1, witFabUp
    4, wr (.bridge 4) .BRIDGE_FAB_NBR_VALID 1 4, wr (.bridge 4) .BRIDGE_FAB_NBR_PARTNER_SW 7 4], 1, 7, 4,
  wit_awake _ (by decide +kernel),
  by and_intros <;> decide +kernel⟩

/-- The hypotheses of clause 6 of SidebandAccessesComplete can be met. -/
theorem witness_SidebandAccessesComplete_6 :
    ∃ (s : State) (k : Fin 4) (w : SwId) (p : Nat), s.Awake ∧ s.on (.mgmt 2) .MGMT_SMB_CFG_EN k = true ∧ s.fwRuns =
      true ∧ s.safeHalt = false ∧ s.switchFeid? w = none ∧ s.partnerPort w = some p :=
  ⟨wit [wr .glb .GLB_DEV_STATE_FW_SLOT 0, wr .glb .GLB_DEV_STATE_STATE 4, wr (.mgmt 2) .MGMT_SMB_CFG_EN 1 1, witFabUp
    4, wr (.bridge 4) .BRIDGE_FAB_NBR_VALID 1 4, wr (.bridge 4) .BRIDGE_FAB_NBR_PARTNER_SW 7 4], 1, 7, 4,
  wit_awake _ (by decide +kernel),
  by and_intros <;> decide +kernel⟩

/-- The hypotheses of clause 7 of SidebandAccessesComplete can be met. -/
theorem witness_SidebandAccessesComplete_7 :
    ∃ (s : State) (w : Nat) (pg : Pg), s.Awake ∧ pg.ok = true ∧ pg.common = true ∧ s.placeOf .sb (.space (BitVec.ofNat
      26 (pg.base + 0x24))) 0 = ⟨.reg pg 0x24 false, pg⟩ ∧ s.fwRuns = true ∧ s.remoteAllowed w true = true ∧ s.locked
      pg = false ∧ s.safeHalt = false :=
  ⟨wit [wr .glb .GLB_DEV_STATE_FW_SLOT 0, wr .glb .GLB_DEV_STATE_STATE 4, wr (.mgmt 2) .MGMT_REMOTE_WR_MASK 128 0], 7,
    .port 4,
  wit_awake _ (by decide +kernel),
  by and_intros <;> decide +kernel⟩

/-- The hypotheses of clause 8 of SidebandAccessesComplete can be met. -/
theorem witness_SidebandAccessesComplete_8 :
    ∃ (s : State) (w : Nat) (pg : Pg), s.Awake ∧ pg.ok = true ∧ pg.common = true ∧ s.fwRuns = true ∧ s.remoteAllowed w
      true = false :=
  ⟨wit [wr .glb .GLB_DEV_STATE_FW_SLOT 0, wr .glb .GLB_DEV_STATE_STATE 4, wr (.mgmt 2) .MGMT_REMOTE_WR_MASK 0 0], 7,
    .port 4,
  wit_awake _ (by decide +kernel),
  by and_intros <;> decide +kernel⟩

/-- The hypotheses of clause 9 of SidebandAccessesComplete can be met. -/
theorem witness_SidebandAccessesComplete_9 :
    ∃ (s : State) (i : BitVec 16) (k : Fin 4), s.Awake ∧ s.fifo .remotes = [i.toNat + 65536 * k] :=
  ⟨wit [putFifo .remotes [3 + 65536]], 3, 1,
  wit_awake _ (by decide +kernel),
  by decide +kernel⟩

/-- The hypotheses of clause 10 of SidebandAccessesComplete can be met. -/
theorem witness_SidebandAccessesComplete_10 :
    ∃ (s : State) (i : BitVec 16) (k : Fin 4), s.Awake ∧ s.fifo .remotes = [i.toNat + 65536 * k + 2 ^ 20] :=
  ⟨wit [putFifo .remotes [3 + 65536 + 2 ^ 20]], 3, 1,
  wit_awake _ (by decide +kernel),
  by decide +kernel⟩

/-- The hypotheses of clause 11 of SidebandAccessesComplete can be met. -/
theorem witness_SidebandAccessesComplete_11 :
    ∃ (s : State) (k : Fin 4), s.Awake ∧ s.on (.mgmt 2) .MGMT_SMB_CFG_EN k = true ∧ s.fwRuns = true ∧ s.safeHalt =
      false :=
  ⟨wit [wr .glb .GLB_DEV_STATE_FW_SLOT 0, wr .glb .GLB_DEV_STATE_STATE 4, wr (.mgmt 2) .MGMT_SMB_CFG_EN 1 1], 1,
  wit_awake _ (by decide +kernel),
  by and_intros <;> decide +kernel⟩

/-- The hypotheses of clause 1 of InstallationCompletes can be met. -/
theorem witness_InstallationCompletes_1 :
    ∃ (s : State) (k : Fin 4), s.Awake ∧ s.on (.mgmt 2) .MGMT_SMB_CFG_EN k = true ∧ s.fwRuns = true ∧ s.safeHalt =
      false ∧ s.device ≠ dvROM_RECOVERY ∧ s.iv .imgSt = 0 :=
  ⟨wit [wr .glb .GLB_DEV_STATE_FW_SLOT 0, wr .glb .GLB_DEV_STATE_STATE 4, wr (.mgmt 2) .MGMT_SMB_CFG_EN 1 1, put
    .slotState 1 2], 1,
  wit_awake _ (by decide +kernel),
  by and_intros <;> decide +kernel⟩

/-- The hypotheses of clause 2 of InstallationCompletes can be met. -/
theorem witness_InstallationCompletes_2 :
    ∃ (s : State) (k : Fin 4), s.Awake ∧ s.on (.mgmt 2) .MGMT_SMB_CFG_EN k = true ∧ s.fwRuns = true ∧ s.safeHalt =
      false ∧ s.device ≠ dvROM_RECOVERY ∧ s.ivOn .imgSt = true :=
  ⟨wit [wr .glb .GLB_DEV_STATE_FW_SLOT 0, wr .glb .GLB_DEV_STATE_STATE 4, wr (.mgmt 2) .MGMT_SMB_CFG_EN 1 1, put
    .imgSt 2], 1,
  wit_awake _ (by decide +kernel),
  by and_intros <;> decide +kernel⟩

/-- The hypotheses of clause 3 of InstallationCompletes can be met. -/
theorem witness_InstallationCompletes_3 :
    ∃ (s : State) (k : Fin 4) (o : BitVec 32) (n : Nat), s.Awake ∧ s.on (.mgmt 2) .MGMT_SMB_CFG_EN k = true ∧ s.fwRuns
      = true ∧ s.safeHalt = false ∧ 1 ≤ n ∧ n ≤ 1024 ∧ s.chunkStatus 0x22 o.toNat n = 0 :=
  ⟨wit [wr .glb .GLB_DEV_STATE_FW_SLOT 0, wr .glb .GLB_DEV_STATE_STATE 4, wr (.mgmt 2) .MGMT_SMB_CFG_EN 1 1, put
    .imgSt 2, put .imgBytes 1024, wr (.mgmt 0) .MGMT_IMG_CTRL_INSTALLER 0x22], 1, 1024, 512,
  wit_awake _ (by decide +kernel),
  by and_intros <;> decide +kernel⟩

/-- The hypotheses of clause 4 of InstallationCompletes can be met. -/
theorem witness_InstallationCompletes_4 :
    ∃ (s : State) (k : Fin 4) (o : BitVec 32) (n : Nat), s.Awake ∧ s.on (.mgmt 2) .MGMT_SMB_CFG_EN k = true ∧ s.fwRuns
      = true ∧ s.safeHalt = false ∧ 1 ≤ n ∧ n ≤ 1024 ∧ s.chunkStatus 0x22 o.toNat n = imORDER :=
  ⟨wit [wr .glb .GLB_DEV_STATE_FW_SLOT 0, wr .glb .GLB_DEV_STATE_STATE 4, wr (.mgmt 2) .MGMT_SMB_CFG_EN 1 1, put
    .imgSt 2, put .imgBytes 1024, wr (.mgmt 0) .MGMT_IMG_CTRL_INSTALLER 0x22], 1, 2048, 512,
  wit_awake _ (by decide +kernel),
  by and_intros <;> decide +kernel⟩

/-- The hypotheses of clause 5 of InstallationCompletes can be met. -/
theorem witness_InstallationCompletes_5 :
    ∃ (s : State) (k : Fin 4), s.Awake ∧ s.on (.mgmt 2) .MGMT_SMB_CFG_EN k = true ∧ s.fwRuns = true ∧ s.safeHalt =
      false ∧ s.mayInstall 0x22 = true ∧ s.iv .imgSt = 2 :=
  ⟨wit [wr .glb .GLB_DEV_STATE_FW_SLOT 0, wr .glb .GLB_DEV_STATE_STATE 4, wr (.mgmt 2) .MGMT_SMB_CFG_EN 1 1, put
    .imgSt 2, put .imgBytes 1024, wr (.mgmt 0) .MGMT_IMG_CTRL_INSTALLER 0x22], 1,
  wit_awake _ (by decide +kernel),
  by and_intros <;> decide +kernel⟩

/-- The hypotheses of clause 6 of InstallationCompletes can be met. -/
theorem witness_InstallationCompletes_6 :
    ∃ (s : State) (st : Stamp) (v : Word), s.Awake ∧ v.getLsbD 31 = true ∧ v.getLsbD 30 = false ∧ v.getLsbD 29 = false
      ∧ s.iv .imgSt = 0 ∧ s.device ≠ dvROM_RECOVERY ∧ s.pathOpen st = true :=
  ⟨wit [wr .glb .GLB_DEV_STATE_STATE 4], .fw0, 0x80000100,
  wit_awake _ (by decide +kernel),
  by and_intros <;> decide +kernel⟩

/-- The hypotheses of clause 7 of InstallationCompletes can be met. -/
theorem witness_InstallationCompletes_7 :
    ∃ (s : State) (st : Stamp) (v : Word), s.Awake ∧ v.getLsbD 31 = true ∧ s.chunkStatus st.code (s.rd (.mgmt 0)
      .MGMT_IMG_CHUNK_OFFSET) (bits v.toNat 30 16 + 1) = 0 ∧ s.pathOpen st = true :=
  ⟨wit [put .imgSt 2, put .imgBytes 1024, wr (.mgmt 0) .MGMT_IMG_CTRL_INSTALLER 0x20, wr (.mgmt 0)
    .MGMT_IMG_CHUNK_OFFSET 1024, wr .glb .GLB_DEV_STATE_STATE 4], .fw0, 0x81FF0000,
  wit_awake _ (by decide +kernel),
  by and_intros <;> decide +kernel⟩

/-- The hypotheses of clause 8 of InstallationCompletes can be met. -/
theorem witness_InstallationCompletes_8 :
    ∃ (s : State) (st : Stamp) (v : Word), s.Awake ∧ v.getLsbD 31 = true ∧ s.chunkStatus st.code (s.rd (.mgmt 0)
      .MGMT_IMG_CHUNK_OFFSET) (bits v.toNat 30 16 + 1) = imSIZE ∧ s.pathOpen st = true :=
  ⟨wit [put .imgSt 2, put .imgBytes 1024, wr (.mgmt 0) .MGMT_IMG_CTRL_INSTALLER 0x20, wr (.mgmt 0)
    .MGMT_IMG_CHUNK_OFFSET 1024, wr .glb .GLB_DEV_STATE_STATE 4, wr (.mgmt 0) .MGMT_IMG_CHUNK_OFFSET 8388608, put
    .imgBytes 8388608], .fw0, 0x81FF0000,
  wit_awake _ (by decide +kernel),
  by and_intros <;> decide +kernel⟩

/-- The hypotheses of clause 9 of InstallationCompletes can be met. -/
theorem witness_InstallationCompletes_9 :
    ∃ (s : State) (st : Stamp) (v : Word), s.Awake ∧ v.getLsbD 31 = false ∧ v.getLsbD 30 = true ∧ v.getLsbD 29 = false
      ∧ s.mayInstall st.code = true ∧ s.iv .imgSt = 2 ∧ s.pathOpen st = true :=
  ⟨wit [put .imgSt 2, put .imgBytes 1024, wr (.mgmt 0) .MGMT_IMG_CTRL_INSTALLER 0x20, wr (.mgmt 0)
    .MGMT_IMG_CHUNK_OFFSET 1024, wr .glb .GLB_DEV_STATE_STATE 4], .fw0, 0x40000000,
  wit_awake _ (by decide +kernel),
  by and_intros <;> decide +kernel⟩

/-- The hypotheses of clause 10 of InstallationCompletes can be met. -/
theorem witness_InstallationCompletes_10 :
    ∃ (s : State) (st : Stamp) (v : Word), s.Awake ∧ v.getLsbD 31 = false ∧ v.getLsbD 30 = false ∧ v.getLsbD 29 = true
      ∧ s.ivOn .imgSt = true ∧ s.pathOpen st = true :=
  ⟨wit [put .imgSt 2, put .imgBytes 1024, wr (.mgmt 0) .MGMT_IMG_CTRL_INSTALLER 0x20, wr (.mgmt 0)
    .MGMT_IMG_CHUNK_OFFSET 1024, wr .glb .GLB_DEV_STATE_STATE 4], .fw0, 0x20000000,
  wit_awake _ (by decide +kernel),
  by and_intros <;> decide +kernel⟩

/-- The hypotheses of clause 11 of InstallationCompletes can be met. -/
theorem witness_InstallationCompletes_11 :
    ∃ (s : State), s.Awake ∧ s.iv .imgSt = 1 ∧ s.installs = true :=
  ⟨wit [wr .glb .GLB_DEV_STATE_FW_SLOT 0, wr .glb .GLB_DEV_STATE_STATE 4, put .imgSt 1],
  wit_awake _ (by decide +kernel),
  by and_intros <;> decide +kernel⟩

/-- The hypotheses of clause 12 of InstallationCompletes can be met. -/
theorem witness_InstallationCompletes_12 :
    ∃ (s : State), s.Awake ∧ s.iv .imgSt = 3 ∧ s.installs = true :=
  ⟨wit [wr .glb .GLB_DEV_STATE_FW_SLOT 0, wr .glb .GLB_DEV_STATE_STATE 4, put .imgSt 3, put .imgLen 512],
  wit_awake _ (by decide +kernel),
  by and_intros <;> decide +kernel⟩

/-- The hypotheses of clause 1 of GathererAndMonitorsComplete can be met. -/
theorem witness_GathererAndMonitorsComplete_1 :
    ∃ (s : State), s.Awake ∧ s.on (.mgmt 1) .MGMT_GATHER_CTRL_EN = true ∧ s.cycleNum % 2 ^ s.rd (.mgmt 1)
      .MGMT_GATHER_CTRL_EVERY_LOG2 = 0 ∧ s.inCycle = true ∧ s.on (.mgmt 1) .MGMT_GATHER_STAT_BUSY = false ∧ s.fwRuns =
      true ∧ s.granted? (s.rd (.mgmt 1) .MGMT_GATHER_CTRL_GFACE) = true :=
  ⟨wit [wr .glb .GLB_DEV_STATE_FW_SLOT 0, wr .glb .GLB_DEV_STATE_STATE 4, wr (.mgmt 1) .MGMT_GATHER_CTRL_EN 1, wr
    .schedg .SCHED_CYC_STAT_STATE ctLOCKED, wr (.mgmt 1) .MGMT_GATHER_CTRL_GFACE 2, wr (.sec 0) .SEC_GRANT_MASK 4],
  wit_awake _ (by decide +kernel),
  by and_intros <;> decide +kernel⟩

/-- The hypotheses of clause 2 of GathererAndMonitorsComplete can be met. -/
theorem witness_GathererAndMonitorsComplete_2 :
    ∃ (s : State), s.Awake ∧ s.on (.mgmt 1) .MGMT_GATHER_CTRL_EN = true ∧ s.cycleNum % 2 ^ s.rd (.mgmt 1)
      .MGMT_GATHER_CTRL_EVERY_LOG2 = 0 ∧ s.inCycle = true ∧ s.on (.mgmt 1) .MGMT_GATHER_STAT_BUSY = false ∧ s.fwRuns =
      true ∧ s.granted? (s.rd (.mgmt 1) .MGMT_GATHER_CTRL_GFACE) = false :=
  ⟨wit [wr .glb .GLB_DEV_STATE_FW_SLOT 0, wr .glb .GLB_DEV_STATE_STATE 4, wr (.mgmt 1) .MGMT_GATHER_CTRL_EN 1, wr
    .schedg .SCHED_CYC_STAT_STATE ctLOCKED, wr (.mgmt 1) .MGMT_GATHER_CTRL_GFACE 2],
  wit_awake _ (by decide +kernel),
  by and_intros <;> decide +kernel⟩

/-- The hypotheses of clause 3 of GathererAndMonitorsComplete can be met. -/
theorem witness_GathererAndMonitorsComplete_3 :
    ∃ (s : State), s.Awake ∧ s.on (.mgmt 1) .MGMT_GATHER_STAT_BUSY = true ∧ s.fwRuns = true ∧ s.granted? (s.iv
      .gatherFace) = true ∧ s.seMayWrite (s.iv .gatherFace) = true :=
  ⟨wit [wr .glb .GLB_DEV_STATE_FW_SLOT 0, wr .glb .GLB_DEV_STATE_STATE 4, wr (.mgmt 1) .MGMT_GATHER_CTRL_EN 1, wr
    .schedg .SCHED_CYC_STAT_STATE ctLOCKED, wr (.mgmt 1) .MGMT_GATHER_CTRL_GFACE 2, wr (.sec 0) .SEC_GRANT_MASK 4, wr
    (.mgmt 1) .MGMT_GATHER_STAT_BUSY 1, putFifo .gatherSnap [1, 2], put .gatherNum 6, put .gatherFace 2, put
    .seBusMaster 1 2],
  wit_awake _ (by decide +kernel),
  by and_intros <;> decide +kernel⟩

/-- The hypotheses of clause 4 of GathererAndMonitorsComplete can be met. -/
theorem witness_GathererAndMonitorsComplete_4 :
    ∃ (s : State), s.Awake ∧ s.on (.mgmt 1) .MGMT_GATHER_STAT_BUSY = true ∧ s.fwRuns = true ∧ s.granted? (s.iv
      .gatherFace) = true ∧ s.seMayWrite (s.iv .gatherFace) = false :=
  ⟨wit [wr .glb .GLB_DEV_STATE_FW_SLOT 0, wr .glb .GLB_DEV_STATE_STATE 4, wr (.mgmt 1) .MGMT_GATHER_CTRL_EN 1, wr
    .schedg .SCHED_CYC_STAT_STATE ctLOCKED, wr (.mgmt 1) .MGMT_GATHER_CTRL_GFACE 2, wr (.sec 0) .SEC_GRANT_MASK 4, wr
    (.mgmt 1) .MGMT_GATHER_STAT_BUSY 1, putFifo .gatherSnap [1, 2], put .gatherNum 6, put .gatherFace 2],
  wit_awake _ (by decide +kernel),
  by and_intros <;> decide +kernel⟩

/-- The hypotheses of clause 5 of GathererAndMonitorsComplete can be met. -/
theorem witness_GathererAndMonitorsComplete_5 :
    ∃ (s : State), s.Awake ∧ s.on (.mgmt 1) .MGMT_GATHER_STAT_BUSY = true ∧ s.fwRuns = true ∧ s.granted? (s.iv
      .gatherFace) = false :=
  ⟨wit [wr .glb .GLB_DEV_STATE_FW_SLOT 0, wr .glb .GLB_DEV_STATE_STATE 4, wr (.mgmt 1) .MGMT_GATHER_CTRL_EN 1, wr
    .schedg .SCHED_CYC_STAT_STATE ctLOCKED, wr (.mgmt 1) .MGMT_GATHER_CTRL_GFACE 2, wr (.mgmt 1)
    .MGMT_GATHER_STAT_BUSY 1, putFifo .gatherSnap [1, 2], put .gatherNum 6, put .gatherFace 2],
  wit_awake _ (by decide +kernel),
  by and_intros <;> decide +kernel⟩

/-- The hypotheses of clause 6 of GathererAndMonitorsComplete can be met. -/
theorem witness_GathererAndMonitorsComplete_6 :
    ∃ (s : State) (st : Stamp), s.Awake ∧ s.locked (.mgmt 1) = false ∧ s.pathOpen st = true :=
  ⟨wit [], .fw0,
  wit_awake _ (by decide +kernel),
  by and_intros <;> decide +kernel⟩

/-- The hypotheses of clause 7 of GathererAndMonitorsComplete can be met. -/
theorem witness_GathererAndMonitorsComplete_7 :
    ∃ (s : State) (st : Stamp), s.Awake ∧ s.locked (.mgmt 1) = false ∧ s.on (.mgmt 1) .MGMT_GATHER_CTRL_EN = false ∧
      s.pathOpen st = true :=
  ⟨wit [], .fw0,
  wit_awake _ (by decide +kernel),
  by and_intros <;> decide +kernel⟩

/-- The hypotheses of clause 8 of GathererAndMonitorsComplete can be met. -/
theorem witness_GathererAndMonitorsComplete_8 :
    ∃ (s : State) (st : Stamp), s.Awake ∧ s.locked (.mgmt 1) = false ∧ s.on (.mgmt 1) .MGMT_GATHER_CTRL_EN = true ∧
      s.pathOpen st = true :=
  ⟨wit [wr .glb .GLB_DEV_STATE_FW_SLOT 0, wr .glb .GLB_DEV_STATE_STATE 4, wr (.mgmt 1) .MGMT_GATHER_CTRL_EN 1, wr
    .schedg .SCHED_CYC_STAT_STATE ctLOCKED, wr (.mgmt 1) .MGMT_GATHER_CTRL_GFACE 2], .fw0,
  wit_awake _ (by decide +kernel),
  by and_intros <;> decide +kernel⟩

/-- The hypotheses of clause 9 of GathererAndMonitorsComplete can be met. -/
theorem witness_GathererAndMonitorsComplete_9 :
    ∃ (s : State) (st : Stamp) (v : Word), s.Awake ∧ s.locked (.mgmt 1) = false ∧ v.getLsbD 31 = true ∧ s.on (.mgmt 1)
      .MGMT_GATHER_CTRL_EN = false ∧ 64 + 8 * max 1 (min 4096 (v.toNat % 8192)) ≤ 2 ^ slotLog2 (s.rd (.mgmt 1)
      .MGMT_GATHER_RING_SLOT_LOG2) ∧ s.pathOpen st = true :=
  ⟨wit [put .gatherSeq 6], .fw0, 0x80000010,
  wit_awake _ (by decide +kernel),
  by and_intros <;> decide +kernel⟩

/-- The hypotheses of clause 10 of GathererAndMonitorsComplete can be met. -/
theorem witness_GathererAndMonitorsComplete_10 :
    ∃ (s : State) (a : BitVec 16), s.Awake ∧ ((a.toNat < 728 ∨ 772 < a.toNat)) :=
  ⟨wit [], 700,
  wit_awake _ (by decide +kernel),
  by decide +kernel⟩

/-- The hypotheses of clause 11 of GathererAndMonitorsComplete can be met. -/
theorem witness_GathererAndMonitorsComplete_11 :
    ∃ (s : State) (a : BitVec 16), s.Awake ∧ 728 ≤ a.toNat ∧ a.toNat ≤ 772 :=
  ⟨wit [], 750,
  wit_awake _ (by decide +kernel),
  by and_intros <;> decide +kernel⟩

/-- The hypotheses of AccessResetFrames can be met. -/
theorem witness_AccessResetFrames_w1 :
    ∃ (s t : State), s.wf ∧ exec (.vkeepRise) s = .next t :=
  ⟨State.reset, _, reset_wf, rfl⟩

/-- The hypotheses of LaneTrainingFrames can be met. -/
theorem witness_LaneTrainingFrames_w1 :
    ∃ (s t : State), s.wf ∧ exec (.fillerReceived 8) s = .next t :=
  ⟨State.reset, _, reset_wf, rfl⟩

/-- The hypotheses of LinkFrames can be met. -/
theorem witness_LinkFrames_w1 :
    ∃ (s t : State), s.wf ∧ exec (.creditRefresh 4) s = .next t :=
  ⟨State.reset, _, reset_wf, rfl⟩

/-- The hypotheses of HostFrames can be met. -/
theorem witness_HostFrames_w1 :
    ∃ (s t : State), s.wf ∧ exec (.windowInvalidate .fw0 2 5) s = .next t :=
  ⟨State.reset, _, reset_wf, rfl⟩

/-- The hypotheses of CoreFrames can be met. -/
theorem witness_CoreFrames_w1 :
    ∃ (s t : State), s.wf ∧ exec (.linkStatusPeriodic) s = .next t :=
  ⟨State.reset, _, reset_wf, rfl⟩

/-- The hypotheses of CycleFrames can be met. -/
theorem witness_CycleFrames_w1 :
    ∃ (s t : State), s.wf ∧ exec (.cycleMidpoint) s = .next t :=
  ⟨State.reset, _, reset_wf, rfl⟩

/-- The hypotheses of InstanceFrames can be met. -/
theorem witness_InstanceFrames_w1 :
    ∃ (s t : State), s.wf ∧ exec (.flushTimeout 3) s = .next t :=
  ⟨State.reset, _, reset_wf, rfl⟩

/-- The hypotheses of MoverBoxFrames can be met. -/
theorem witness_MoverBoxFrames_w1 :
    ∃ (s t : State), s.wf ∧ exec (.coalesceExpiry 7) s = .next t :=
  ⟨State.reset, _, reset_wf, rfl⟩

/-- The hypotheses of ContainmentFrames can be met. -/
theorem witness_ContainmentFrames_w1 :
    ∃ (s t : State), s.wf ∧ exec (.containmentRequest) s = .next t :=
  ⟨State.reset, _, reset_wf, rfl⟩

/-- The hypotheses of SecurityFrames can be met. -/
theorem witness_SecurityFrames_w1 :
    ∃ (s t : State), s.wf ∧ exec (.rekeyTimeout 4) s = .next t :=
  ⟨State.reset, _, reset_wf, rfl⟩

/-- The hypotheses of PowerManagementFrames can be met. -/
theorem witness_PowerManagementFrames_w1 :
    ∃ (s t : State), s.wf ∧ exec (.fastTrip 2) s = .next t :=
  ⟨State.reset, _, reset_wf, rfl⟩

/-- The hypotheses of StepRunsFrontCommand can be met. -/
theorem witness_StepRunsFrontCommand_w1 :
    ∃ (s : State), s.pending = [] :=
  ⟨State.reset, rfl⟩

/-- The hypotheses of EveryStepKeepsTheInvariant can be met. -/
theorem witness_EveryStepKeepsTheInvariant_w1 :
    ∃ (s : State), s.wf :=
  ⟨State.reset, reset_wf⟩

/-- The hypotheses of AntiRollbackNeverDecreases can be met. -/
theorem witness_AntiRollbackNeverDecreases_w1 :
    ∃ (s : State), s.wf ∧ s.arbAt 0 < 5 :=
  ⟨State.reset, reset_wf, by decide⟩

/-- The hypotheses of UndefinedCounterReadsZero can be met. -/
theorem witness_UndefinedCounterReadsZero_w1 :
    ∃ (s : State) (st : Stamp) (pg : Pg), s.Awake ∧ s.pathOpen st = true ∧ pg.ok = true ∧ pg.common = true ∧ cntGroup
      pg (s.rdSt st.code pg .CNT_SEL_INDEX) = none :=
  ⟨wit [wrSt Stamp.fw0.code (.port 4) .CNT_SEL_INDEX 0x7FFF], .fw0, .port 4,
  wit_awake _ (by decide +kernel), by decide +kernel, by decide +kernel, by decide +kernel, by decide +kernel⟩

/-- The hypotheses of WarmResetNeedsKey can be met. -/
theorem witness_WarmResetNeedsKey_w1 :
    ∃ (s : State) (st : Stamp) (v : Word), s.Awake ∧ s.locked .glb = false ∧ s.pathOpen st = true ∧ bits v.toNat 31 16
      = 0x57A7 ∧ v.getLsbD 0 = true :=
  ⟨wit [], .fw0, 0x57A70001, wit_awake _ (by decide +kernel), by decide +kernel, by decide +kernel, by decide +kernel,
    by decide +kernel⟩

/-- The hypotheses of WarmResetNeedsKey can be met. -/
theorem witness_WarmResetNeedsKey_w2 :
    ∃ (s : State) (st : Stamp) (v : Word), s.Awake ∧ s.locked .glb = false ∧ s.pathOpen st = true ∧ ¬(bits v.toNat 31
      16 = 0x57A7 ∧ v.getLsbD 0 = true) :=
  ⟨wit [], .fw0, 0x57A80001, wit_awake _ (by decide +kernel), by decide +kernel, by decide +kernel, by decide +kernel⟩

/-- The hypotheses of NoLaneFailureInTestOrRest can be met. -/
theorem witness_NoLaneFailureInTestOrRest_w1 :
    ∃ (s : State) (l : LaneId), s.Awake ∧ (s.laneState l = laneTEST ∨ s.laneState l = laneREST) :=
  ⟨wit [wr (.lane 1) .LANE_STAT_STATE 4, wr (.lane 1) .LANE_STAT_ALIGN_LOCK 1], 8, wit_awake _ (by decide +kernel), by
    decide +kernel⟩

/-- The hypotheses of UnsentSequenceNumberIgnored can be met. -/
theorem witness_UnsentSequenceNumberIgnored_w1 :
    ∃ (s : State) (p : PortId) (b : BitVec 64), s.Awake ∧ s.linkRuns p = true ∧ blkCrcOk b = true ∧ s.unsent p (ackSeq
      b) = true ∧ blkByte b 0 = 0x55 :=
  ⟨wit [witFabUp 4], 4, BitVec.ofNat 64 (ofBytes [0x55, 0, 4, 0, 0, 0, 0, crc8 [0x55, 0, 4, 0, 0, 0, 0]]),
  wit_awake _ (by decide +kernel), by decide +kernel, by decide +kernel, by decide +kernel, by decide +kernel⟩

/-- The hypotheses of UnsentSequenceNumberIgnored can be met. -/
theorem witness_UnsentSequenceNumberIgnored_w2 :
    ∃ (s : State) (p : PortId) (b : BitVec 64), s.Awake ∧ s.linkRuns p = true ∧ blkCrcOk b = true ∧ s.unsent p (ackSeq
      b) = true ∧ blkByte b 0 = 0x69 :=
  ⟨wit [witFabUp 4], 4, BitVec.ofNat 64 (ofBytes [0x69, 0, 4, 0, 0, 0, 0, crc8 [0x69, 0, 4, 0, 0, 0, 0]]),
  wit_awake _ (by decide +kernel), by decide +kernel, by decide +kernel, by decide +kernel, by decide +kernel⟩

/-- The hypotheses of FabricIdentityFixedWhileLinked can be met. -/
theorem witness_FabricIdentityFixedWhileLinked_w1 :
    ∃ (s : State) (st : Stamp) (off : Nat), s.Awake ∧ off ∈ [0x100, 0x120, 0x124, 0x128, 0x12C] ∧ s.locked (.bridge 4)
      = false ∧ s.fabSet = true ∧ s.pathOpen st = true :=
  ⟨wit [witFabUp 4], .fw0, 0x12C, wit_awake _ (by decide +kernel), by decide +kernel, by decide +kernel, by
    decide +kernel, by decide +kernel⟩

/-- The hypotheses of LaneAndChannelIsolation can be met. -/
theorem witness_LaneAndChannelIsolation_w1 :
    ∃ (s t : State), s.wf ∧ exec (.fastTrip 2) s = .next t :=
  ⟨State.reset, _, reset_wf, rfl⟩

/-- The hypotheses of PortListAndRingIsolation can be met. -/
theorem witness_PortListAndRingIsolation_w1 :
    ∃ (s t : State), s.wf ∧ exec (.creditRefresh 4) s = .next t :=
  ⟨State.reset, _, reset_wf, rfl⟩

end
end

section
/-! PROOF. A full or partial read of CNT_LO (R68 to R70): what it answers, and that an index which the block does not define gives
0 and latches nothing. -/

namespace Sys2Proof.Machine

/-! ### The counter that CNT_SEL names -/

/-- The counter window holds no index that the block does not define. -/
theorem windowCnt_of_undefined {pg : Pg} {i : Nat} (h : cntGroup pg i = none) : windowCnt pg i = none := by
  unfold windowCnt
  split
  · split
    · exact h
    · rfl
  · exact h

theorem selCnt_of_undefined {s : State} {st : Stamp} {pg : Pg} (h : cntGroup pg (s.rdSt st.code pg .CNT_SEL_INDEX) = none) :
    s.selCnt st pg = 0 := by
  simp [State.selCnt, windowCnt_of_undefined h]

@[simp] theorem put_selCnt (x : Var) (v i : Nat) (s : State) (st : Stamp) (pg : Pg) :
    ((put x v i).run s).selCnt st pg = s.selCnt st pg := rfl

/-! ### Reads of CNT_LO -/

/-- A granted access with a path is the note of the grant, then what the access does. -/
theorem granting_run {s : State} {st : Stamp} (hp : s.pathOpen st = true) (pg : Pg) (u : Upd) :
    (granting st pg u).run s = u.run ((grant st pg).run s) := by
  simp [granting, onPath, hp]

theorem regValue_cntLo {pg : Pg} (hc : pg.common = true) (s : State) (st : Stamp) :
    s.regValue st pg 0x84 = s.selCnt st pg % 2 ^ 32 := by
  simp [State.regValue, State.headerValue, hc]

/-- CNT_LO is neither a FIFO's window nor a notice window. -/
theorem popAt_cntLo (st : Stamp) (pg : Pg) : popAt st pg 0x84 = skip := by
  have hw : windowAt pg 0x84 = none := by
    unfold windowAt
    split <;> rfl
  have hf : fifoAt pg 0x84 = none := by
    unfold fifoAt
    split <;> rfl
  simp [popAt, hw, hf, forSome]

/-- A read of CNT_LO notes the grant, answers the low dword of the counter that the requester's CNT_SEL names, and, with every
byte enable set, has its effect. -/
theorem regRead_cntLo_run {s : State} {st : Stamp} {pg : Pg} (hc : pg.common = true) (hp : s.pathOpen st = true) (full : Bool) :
    (regRead st pg 0x84 full).run s =
      (when_ full (afterRead st pg 0x84)).run ((emit (.value st (s.selCnt st pg % 2 ^ 32))).run ((grant st pg).run s)) := by
  have hpop : when_ full (popAt st pg 0x84) = skip := by
    rw [popAt_cntLo]
    cases full <;> rfl
  unfold regRead
  extract_lets sem
  have hsem : sem = false := by
    subst sem
    split <;> rfl
  rw [granting_run hp, hsem, hpop]
  simp [regValue_cntLo hc, grant]

/-- CNT_LO holds no RC field. -/
theorem rcFields_cntLo {pg : Pg} (hc : pg.common = true) : (fieldsAt pg 0x84).filter (fun fi => fi.1.ty == .rc) = [] := by
  rw [fieldsAt_low hc (by decide)]
  decide +kernel

/-- A read of CNT_LO of an index that the block does not define has no effect beside its answer (R70). -/
theorem afterRead_cntLo_of_undefined {s : State} {st : Stamp} {pg : Pg} (hc : pg.common = true)
    (h : cntGroup pg (s.rdSt st.code pg .CNT_SEL_INDEX) = none) : (afterRead st pg 0x84).run s = s := by
  have hl : s.latchWorks st pg 0x84 = false := by simp [State.latchWorks, windowCnt_of_undefined h]
  simp [afterRead, hl, rcFields_cntLo hc]

/-- So such a read is the note of the grant and the answer 0, with any byte enables. -/
theorem regRead_cntLo_of_undefined {s : State} {st : Stamp} {pg : Pg} (hc : pg.common = true) (hp : s.pathOpen st = true)
    (h : cntGroup pg (s.rdSt st.code pg .CNT_SEL_INDEX) = none) (full : Bool) :
    (regRead st pg 0x84 full).run s = (emit (.value st 0)).run ((grant st pg).run s) := by
  rw [regRead_cntLo_run hc hp, selCnt_of_undefined h]
  cases full with
  | false => rfl
  | true => exact afterRead_cntLo_of_undefined hc h

/-- What COUNTER_LOW_READ does while the switch die is out of reset. -/
theorem exec_counterLowRead {s : State} (hd : s.ivOn .dieReset = false) {pg : Pg} (ho : pg.ok = true) (hc : pg.common = true)
    (st : Stamp) (full : Bool) : exec (.counterLowRead st pg full) s = .next ((regRead st pg 0x84 full).run s) := by
  show execCounterLowRead st pg full s = _
  rw [execCounterLowRead, answer_awake _ hd, when_pos (by simp [ho, hc])]

/-- Settles O54: on an undefined index the read comes down to the note of the grant and the answer. -/
theorem undefinedCounterReadsZero : Obligations.UndefinedCounterReadsZero := by
  intro s ⟨hw, hd⟩ st pg full hp ho hc hu
  refine ⟨_, exec_counterLowRead hd ho hc st full, ?_⟩
  rw [regRead_cntLo_of_undefined hc hp hu]
  refine ⟨rfl, ?_⟩
  have hg : (grant st pg).In ((Foot.numbers [.arbLast]).and <| Foot.others [.out]) := grant_in (by decide) st pg
  have he : (emit (.value st 0)).In ((Foot.numbers [.arbLast]).and <| Foot.others [.out]) := emit_in (by decide)
  exact andThen_in hg he s hw

end Sys2Proof.Machine
end

section
/-! PROOF. A granted write to GLB_RESET_CTRL (R132): with its key it starts a warm reset, which also clears fabric time (R434), and
with any other value it has no effect. -/

namespace Sys2Proof.Machine

/-! ### A warm reset starts -/

/-- What a warm reset touches once it has cleared the switch die and holds it in reset. -/
def Foot.warmRest : Foot :=
  (Foot.error .sec).and <| Foot.warmCause.and <| Foot.interrupted.and <| Foot.platesAfterReset.and <| Foot.haltStays.and <|
    Foot.newNonce.and <| (Foot.fields .sec [.SEC_DEBUG_STATE]).and <| (Foot.numbers [.warmReg]).and <| Foot.others [.out]

/-- The switch die is in warm reset, at fabric time 0. -/
def State.WarmAtZero (s : State) : Prop := s.wf ∧ s.iv .dieReset = drWARM ∧ s.now = 0

/-- Clearing the switch die and holding it in reset makes it so (R434: fabric time is cleared). -/
theorem warmAtZero_of_clear {s : State} (h : s.wf) : ((put .dieReset drWARM).run (warmClear.run s)).WarmAtZero := by
  have hc : (warmClear.run s).wf := warmClear.keeps_wf h
  exact ⟨(put .dieReset drWARM).keeps_wf hc, iv_put_self hc .dieReset drWARM 0, rfl⟩

/-- The rest of a warm reset keeps it so. -/
theorem State.WarmAtZero.then {s : State} (h : s.WarmAtZero) {u : Upd} (hu : u.In Foot.warmRest) : (u.run s).WarmAtZero := by
  obtain ⟨hw, hd, hn⟩ := h
  have hin := hu s hw
  exact ⟨u.keeps_wf hw, (hin.ivs .dieReset 0 (by decide +kernel)).trans hd, (hin.now (by decide +kernel)).trans hn⟩

/-- A warm reset leaves the switch die held in warm reset, at fabric time 0. -/
theorem warmReset_starts {s : State} (h : s.wf) (cause : Nat) : ((warmReset cause).run s).WarmAtZero := by
  have hdebug : (all [wr (.sec 0) .SEC_DEBUG_STATE dbUNLOCKED, emit (.debugPins true), raise (.sec 0) .SEC_DEBUG_UNLOCKED]).In
      Foot.warmRest :=
    all_cons_in (wr_in (own_mem (by decide +kernel)) (by decide +kernel)) <| all_cons_in (emit_in (by decide +kernel)) <|
      all_cons_in (raise_in (pg := .sec 0) rfl (by decide +kernel) _) all_nil_in
  unfold warmReset
  simp only [look_run, all_cons_run, all_nil_run]
  exact warmAtZero_of_clear (Upd.keeps_wf _ (Upd.keeps_wf _ (Upd.keeps_wf _ h)))
    |>.then (put_in (by decide +kernel))
    |>.then (warmCause_in (by decide +kernel) _)
    |>.then (interrupted_in (by decide +kernel) _ _ _)
    |>.then (platesAfterReset_in (by decide +kernel))
    |>.then (when_in (haltStays_in (by decide +kernel)))
    |>.then (newNonce_in (by decide +kernel))
    |>.then (when_in hdebug)

/-! ### Writes to GLB_RESET_CTRL -/

/-- A word has the key and WARM = 1. -/
theorem hasKey_iff (v : Word) :
    (bits v.toNat 31 16 == 0x57A7 && v.toNat.testBit 0) = true ↔ bits v.toNat 31 16 = 0x57A7 ∧ v.getLsbD 0 = true := by
  rw [BitVec.testBit_toNat, Bool.and_eq_true, beq_iff_eq]

theorem grant_inReset {s : State} (h : s.wf) (st : Stamp) (pg : Pg) : ((grant st pg).run s).inReset = s.inReset := by
  have hi := ((grant_in (F := Foot.numbers [.arbLast]) (by decide) st pg) s h).ivs .dieReset 0 (by decide)
  simp [State.inReset, State.ivOn, hi]

/-- What WARM_RESET_REQUEST does while the switch die is out of reset and the page is not locked. -/
theorem exec_warmResetRequest {s : State} (hd : s.ivOn .dieReset = false) (hl : s.locked .glb = false) {st : Stamp}
    (hp : s.pathOpen st = true) (v : Word) :
    exec (.warmResetRequest st v) s = .next ((resetCtrlWrite v.toNat).run ((grant st .glb).run s)) := by
  show execWarmResetRequest st v s = _
  rw [execWarmResetRequest, answer_awake _ hd, granted, look_run, granting_run hp]
  simp [hl]

/-- The key with WARM = 1 starts a warm reset in the step of the grant, and fabric time is 0 after that step. -/
theorem warmResetRequest_of_key {s : State} (hs : s.Awake) (hl : s.locked .glb = false) {st : Stamp} (hp : s.pathOpen st = true)
    {v : Word} (hv : bits v.toNat 31 16 = 0x57A7 ∧ v.getLsbD 0 = true) :
    Gives (.warmResetRequest st v) s fun t => t.iv .dieReset = drWARM ∧ t.now = 0 := by
  obtain ⟨hw, hd⟩ := hs
  have hu : resetCtrlWrite v.toNat = warmByRegister := when_pos ((hasKey_iff v).2 hv) _
  have ha : ((grant st .glb).run s).inReset = false := (grant_inReset hw st .glb).trans hd
  refine ⟨_, exec_warmResetRequest hd hl hp v, ?_⟩
  rw [hu, warmByRegister, look_run, when_pos (by simp [ha])]
  exact (warmReset_starts ((grant st .glb).keeps_wf hw) rcREG).2

/-- Any other value leaves everything but the arbiter's note of the grant (R132, R78). With the lemma above this is what holds in
place of the statement refuted below, whose one fault is the clause on fabric time. -/
theorem warmResetRequest_of_no_key {s : State} (hs : s.Awake) (hl : s.locked .glb = false) {st : Stamp} (hp : s.pathOpen st = true)
    {v : Word} (hv : ¬(bits v.toNat 31 16 = 0x57A7 ∧ v.getLsbD 0 = true)) :
    Gives (.warmResetRequest st v) s fun t => Within (Foot.numbers [.arbLast]) s t := by
  obtain ⟨hw, hd⟩ := hs
  have hu : resetCtrlWrite v.toNat = skip := when_neg (Bool.eq_false_iff.2 (hv ∘ (hasKey_iff v).1)) _
  refine ⟨_, exec_warmResetRequest hd hl hp v, ?_⟩
  rw [hu]
  exact grant_in (by decide) st .glb s hw

/-! ### Fabric time -/

/-- The part as a cold reset leaves it, but at a fabric time of 500 ns. -/
def resetAt500ns : State := { State.reset with now := 500 }

theorem resetAt500ns_awake : resetAt500ns.Awake := by
  refine ⟨?_, by decide⟩
  unfold State.wf resetAt500ns State.reset Map.wf Map.wf0 Map.wf
  decide

/-- Refutes O55: its clause that fabric time stays contradicts R434, by which a warm reset clears it. A write of 0x57A70001 (the key,
WARM = 1) granted at 500 ns ends at 0 ns. -/
theorem not_warmResetNeedsKey : ¬ Obligations.WarmResetNeedsKey := by
  intro h
  have hl : resetAt500ns.locked .glb = false := by decide +kernel
  have hp : resetAt500ns.pathOpen .fw0 = true := by decide
  have hv : bits (0x57A70001 : Word).toNat 31 16 = 0x57A7 ∧ (0x57A70001 : Word).getLsbD 0 = true := by decide
  obtain ⟨t, ht, -, hnow⟩ := (h resetAt500ns resetAt500ns_awake hl .fw0 0x57A70001 hp).1 hv
  obtain ⟨t', ht', -, hzero⟩ := warmResetRequest_of_key resetAt500ns_awake hl hp hv
  rw [ht] at ht'
  cases ht'
  rw [hzero] at hnow
  exact absurd hnow (by decide)

end Sys2Proof.Machine
end

section
/-! PROOF. No lane failure in TEST or REST (R197): outside ACTIVE, the three events that fail a lane clear its locks and count at
most. -/

namespace Sys2Proof.Machine

/-- What an event that ends a lane's lock touches where it fails no lane. -/
def Foot.lockLost : Foot :=
  (Foot.counting .lane).and <| (Foot.fields .lane [.LANE_STAT_CDR_LOCK, .LANE_STAT_ALIGN_LOCK, .LANE_STAT_FEC_LOCK,
    .LANE_STAT_SIG_DET]).and <| Foot.numbers [.alignMiss, .alignSeen]

/-- A field of a lane that no lock and no count touches is as it was. -/
theorem Within.ln_of_lockLost {s t : State} (h : Within Foot.lockLost s t) (l : Nat) {f : Fld} (hf : f ∈ tabLANE)
    (hn : (Fam.lane, f) ∉ Foot.lockLost.regs) : t.ln l f = s.ln l f :=
  h.regs (.lane (l / 8)) f (l % 8) (own_mem hf) hn

theorem Within.laneState_of_lockLost {s t : State} (h : Within Foot.lockLost s t) (l : Nat) : t.laneState l = s.laneState l :=
  h.ln_of_lockLost l (by decide +kernel) (by decide +kernel)

theorem Within.failed_of_lockLost {s t : State} (h : Within Foot.lockLost s t) (l : Nat) :
    t.ln l .LANE_STAT_FAILED = s.ln l .LANE_STAT_FAILED :=
  h.ln_of_lockLost l (by decide +kernel) (by decide +kernel)

/-- A lane in TEST or REST is not in ACTIVE, the only state in which R194 lets it fail. -/
theorem not_active_of_test_or_rest {s : State} {l : Nat} (h : s.laneState l = laneTEST ∨ s.laneState l = laneREST) :
    s.laneState l ≠ laneACTIVE := by
  rcases h with h | h <;> rw [h] <;> decide

/-- What an event does to lanes in ACTIVE, it does not do to others. -/
theorem when_active_of_not_active {s : State} {l : Nat} (h : s.laneState l ≠ laneACTIVE) (u : Upd) :
    when_ (s.laneState l == laneACTIVE) u = skip :=
  when_neg (beq_false_of_ne h) u

/-! ### The parts of the events -/

theorem laneCnt_in_lockLost (l k n : Nat) : (laneCnt l k n).In Foot.lockLost := laneCnt_in (by decide +kernel) l k n

/-- A write to one of a lane's lock bits. -/
theorem wln_in_lockLost {f : Fld} (hf : f ∈ [Fld.LANE_STAT_CDR_LOCK, .LANE_STAT_ALIGN_LOCK, .LANE_STAT_FEC_LOCK, .LANE_STAT_SIG_DET])
    (l v : Nat) : (wln l f v).In Foot.lockLost := by
  have hall : ∀ g ∈ [Fld.LANE_STAT_CDR_LOCK, .LANE_STAT_ALIGN_LOCK, .LANE_STAT_FEC_LOCK, .LANE_STAT_SIG_DET],
      g ∈ tabLANE ∧ (Fam.lane, g) ∈ Foot.lockLost.regs := by decide +kernel
  exact wln_in (hall f hf).1 (hall f hf).2 l v

/-- ALIGN loss of a lane that is not in ACTIVE: its search starts again. -/
theorem alignLost_within {s : State} (hw : s.wf) {l : Nat} (hl : s.laneState l ≠ laneACTIVE) :
    Within Foot.lockLost s ((alignLost l).run s) := by
  rw [alignLost, look_run, when_active_of_not_active hl]
  exact (all_cons_in (wln_in_lockLost (by decide) l 0) <| all_cons_in (wln_in_lockLost (by decide) l 0) <|
    all_cons_in (put_in (by decide)) <| all_cons_in (put_in (by decide)) <| all_cons_in skip_in all_nil_in) s hw

/-- The count of missing ALIGN slots comes before the loss and keeps the lane's state. -/
theorem countedAlignLoss_within {s : State} (hw : s.wf) {l : Nat} (hl : s.laneState l ≠ laneACTIVE) (n : Nat) :
    Within Foot.lockLost s ((all [laneCnt l 4 n, alignLost l]).run s) := by
  have hc : Within Foot.lockLost s ((laneCnt l 4 n).run s) := laneCnt_in_lockLost l 4 n s hw
  exact hc.trans (alignLost_within ((laneCnt l 4 n).keeps_wf hw) (hc.laneState_of_lockLost l ▸ hl))

/-! ### The three events -/

section
variable {s : State} (hs : s.Awake) {l : LaneId} (hl : s.laneState l ≠ laneACTIVE)
include hs hl

theorem alignLoss_of_not_active : Gives (.alignLoss l) s (Within Foot.lockLost s) := by
  obtain ⟨hw, hd⟩ := hs
  refine ⟨_, answer_awake _ hd, ?_⟩
  rw [look_run]
  cases s.ln l .LANE_STAT_ALIGN_LOCK == 1 && !s.ivOn .rxRest l with
  | false => exact Within.refl _ s
  | true => exact countedAlignLoss_within hw hl _

theorem cdrLossTimeout_of_not_active (lost : Bool) : Gives (.cdrLossTimeout l lost) s (Within Foot.lockLost s) := by
  obtain ⟨hw, hd⟩ := hs
  refine ⟨_, answer_awake _ hd, ?_⟩
  rw [look_run, when_active_of_not_active hl]
  exact (when_in <| all_cons_in (wln_in_lockLost (by decide) l 0) <| all_cons_in (laneCnt_in_lockLost l 8 1) <|
    all_cons_in (when_in (wln_in_lockLost (by decide) l 0)) <| all_cons_in skip_in all_nil_in) s hw

theorem uncorrectableLimit_of_not_active : Gives (.uncorrectableLimit l) s (Within Foot.lockLost s) := by
  obtain ⟨-, hd⟩ := hs
  refine ⟨_, answer_awake _ hd, ?_⟩
  rw [look_run, when_active_of_not_active hl]
  exact Within.refl _ s

end

/-- An event that touches no more than locks and counts leaves the lane's state and its FAILED flag. -/
theorem gives_unfailed {i : Instr} {s : State} (h : Gives i s (Within Foot.lockLost s)) (l : Nat) :
    Gives i s fun t => t.laneState l = s.laneState l ∧ t.ln l .LANE_STAT_FAILED = s.ln l .LANE_STAT_FAILED ∧
      Within Foot.lockLost s t := by
  obtain ⟨t, ht, hin⟩ := h
  exact ⟨t, ht, hin.laneState_of_lockLost l, hin.failed_of_lockLost l, hin⟩

/-- Settles O56: each event fails lanes in ACTIVE only, and a lane in TEST or REST is not in ACTIVE. -/
theorem noLaneFailureInTestOrRest : Obligations.NoLaneFailureInTestOrRest := by
  intro s hs l lost hl
  have hna := not_active_of_test_or_rest hl
  exact ⟨gives_unfailed (alignLoss_of_not_active hs hna) l, gives_unfailed (cdrLossTimeout_of_not_active hs hna lost) l,
    gives_unfailed (uncorrectableLimit_of_not_active hs hna) l⟩

end Sys2Proof.Machine
end

section
/-! PROOF. An ACK or NAK of a frame that was not sent (R235): the block is ignored but for the error PORT_SEQ_ERR. Which SEQs count as
not sent, `State.unsent` decides by the 2,048 of log entry 169; nothing below depends on that choice. -/

namespace Sys2Proof.Machine

/-- The link layer runs on FAB ports only. -/
theorem isFab_of_linkRuns {s : State} {p : Nat} (h : s.linkRuns p = true) : s.isFab p = true := by
  simp only [State.linkRuns, Bool.and_eq_true] at h
  obtain ⟨⟨hf, -⟩, -⟩ := h
  exact hf

/-- A running link takes a control block whose CRC-8 and type are as they should be (R225). -/
theorem checkedCtl_run_of_valid {s : State} {p : Nat} {b : BitVec 64} {typ : Nat} (hl : s.linkRuns p = true)
    (hcrc : blkCrcOk b = true) (ht : blkByte b 0 = typ) (u : Upd) : (checkedCtl p b typ u).run s = u.run s := by
  simp [checkedCtl, hl, hcrc, ht]

/-- An error of a port changes what an error may, and its sticky bit stands after it (R58). -/
theorem raise_port_within_and_sets {s : State} (hw : s.wf) (p : Nat) {e : Err} (he : e.bit < 32) :
    Within (Foot.error .port) s ((raise (.port p) e).run s) ∧
      (((raise (.port p) e).run s).rd (.port p) .ERR_STICKY_BITS).testBit e.bit = true :=
  ⟨raise_in (pg := .port p) rfl (Foot.le_refl _) e s hw, raise_sets (pg := .port p) hw rfl Fam.noConfusion he⟩

section
variable {s : State} (hd : s.ivOn .dieReset = false) {p : PortId} {b : BitVec 64} (hl : s.linkRuns p = true)
  (hcrc : blkCrcOk b = true) (hu : s.unsent p (ackSeq b) = true)
include hd hl hcrc hu

/-- An ACK of a SEQ that has not been sent is the error alone. -/
theorem exec_ackReceived_of_unsent (ht : blkByte b 0 = 0x55) :
    exec (.ackReceived p b) s = .next ((raise (.port p) .PORT_SEQ_ERR).run s) := by
  show execAckReceived p b s = _
  rw [execAckReceived, answer_awake _ hd, look_run, isFab_of_linkRuns hl]
  simp [checkedCtl_run_of_valid hl hcrc ht, hu]

/-- A NAK of a SEQ that has not been sent is the error alone: no replay starts. -/
theorem exec_nakReceived_of_unsent (ht : blkByte b 0 = 0x69) :
    exec (.nakReceived p b) s = .next ((raise (.port p) .PORT_SEQ_ERR).run s) := by
  show execNakReceived p b s = _
  rw [execNakReceived, answer_awake _ hd, look_run, isFab_of_linkRuns hl]
  simp [checkedCtl_run_of_valid hl hcrc ht, hu]

end

/-- Settles O57: either block comes down to the port's error, which changes no more than an error may and sets its sticky bit. -/
theorem unsentSequenceNumberIgnored : Obligations.UnsentSequenceNumberIgnored := by
  intro s ⟨hw, hd⟩ p b hl hcrc hu
  have herr := raise_port_within_and_sets (e := .PORT_SEQ_ERR) hw p (by decide)
  exact ⟨fun ht => ⟨_, exec_ackReceived_of_unsent hd hl hcrc hu ht, herr⟩,
    fun ht => ⟨_, exec_nakReceived_of_unsent hd hl hcrc hu ht, herr⟩⟩

end Sys2Proof.Machine
end

section
/-! PROOF. The registers of the fabric's identity while a fabric link is used (R431): a write to them is the note of the grant and
CFG_REFUSED. -/

namespace Sys2Proof.Machine

/-! ### A write of one dword (R45, R53) -/

/-- A whole dword that meets no error and no upper-commit register reaches its place, and nothing else happens. -/
theorem accessWrite_dword_run {s : State} {st : Stamp} {t : Target} (hp : s.pathOpen st = true)
    (hu : (s.placeOf st t 0).upper = false) (he : s.accErrs t 0 (s.placeOf st t 0) true = []) (lo hi : Word) :
    (accessWrite st t 1 true false lo hi).run s = (placeWrite st (s.placeOf st t 0) true false lo.toNat).run s := by
  simp [accessWrite, onPath, hp, badLength, dwordWrites, hu, he]

/-- What a write does that reaches a register of an unlocked page: the note of the grant, then what the register does. -/
theorem accessWrite_reg_run {s : State} {st : Stamp} {t : Target} {pg e : Pg} {off : Nat} {tenant : Bool}
    (hx : s.placeOf st t 0 = ⟨.reg pg off tenant, e⟩) (hu : upperOf pg off = none) (hl : s.locked pg = false)
    (hp : s.pathOpen st = true) (lo hi : Word) :
    (accessWrite st t 1 true false lo hi).run s = (regEffect st pg off tenant lo.toNat).run ((grant st pg).run s) := by
  have hup : (s.placeOf st t 0).upper = false := by simp [hx, Place.upper, hu]
  have herr : s.accErrs t 0 (s.placeOf st t 0) true = [] := by simp [hx, State.accErrs, State.lockedOut, hl]
  rw [accessWrite_dword_run hp hup herr, hx]
  simp only [placeWrite, hu]
  exact granting_run hp ..

/-- What REGISTER_WRITE does to such a register while the switch die is out of reset. -/
theorem exec_registerWrite_reg {s : State} (hd : s.ivOn .dieReset = false) {st : Stamp} {t : Target} {pg e : Pg} {off : Nat}
    {tenant : Bool} (hx : s.placeOf st t 0 = ⟨.reg pg off tenant, e⟩) (hu : upperOf pg off = none) (hl : s.locked pg = false)
    (hp : s.pathOpen st = true) (lo hi : Word) : exec (.registerWrite st t 1 true false lo hi) s =
      .next ((regEffect st pg off tenant lo.toNat).run ((grant st pg).run s)) := by
  show execRegisterWrite st t 1 true false lo hi s = _
  rw [execRegisterWrite, answer_awake _ hd, accessWrite_reg_run hx hu hl hp]

/-! ### Where a space address leads -/

/-- The one dword of an access to an aligned address of the space lies at that address. -/
theorem placeOf_space {a : Nat} (hb : a < 2 ^ 26) (h4 : a % 4 = 0) (s : State) (st : Stamp) :
    s.placeOf st (.space (BitVec.ofNat 26 a)) 0 = s.spaceAt a := by
  have hn : (BitVec.ofNat 26 a).toNat = a := by rw [BitVec.toNat_ofNat, Nat.mod_eq_of_lt hb]
  simp only [State.placeOf, hn, h4, Nat.sub_zero, Nat.mul_zero, Nat.add_zero]

/-- An address on a register of a page with the common header leads to that register, recorded in the page itself. -/
theorem spaceAt_reg {pg : Pg} {off : Nat} (hc : pg.common = true) (hw : inPlateWindow (pg.base + off) = false)
    (ha : pgAt (pg.base + off) = some pg) (hdef : defined pg off = true) (s : State) :
    s.spaceAt (pg.base + off) = ⟨.reg pg off false, pg⟩ := by
  unfold State.spaceAt
  rw [hw, ha, if_neg Bool.false_ne_true]
  cases pg with
  | tenant v => cases hc
  | ring n => cases hc
  | _ => simp [regAt, hdef, errPage]

/-! ### BRIDGE_FAB_ID and BRIDGE_DOMAIN_ID -/

/-- The offsets of BRIDGE_FAB_ID and of the four dwords of BRIDGE_DOMAIN_ID in BRIDGE page 4. -/
def fabIdentityOffs : List Nat := [0x100, 0x120, 0x124, 0x128, 0x12C]

/-- They are registers of BRIDGE page 4. -/
theorem placeOf_fabIdentity {off : Nat} (ho : off ∈ fabIdentityOffs) (s : State) (st : Stamp) :
    s.placeOf st (.space (BitVec.ofNat 26 ((Pg.bridge 4).base + off))) 0 = ⟨.reg (.bridge 4) off false, .bridge 4⟩ := by
  have hall : ∀ o ∈ fabIdentityOffs, (Pg.bridge 4).base + o < 2 ^ 26 ∧ ((Pg.bridge 4).base + o) % 4 = 0 ∧
      inPlateWindow ((Pg.bridge 4).base + o) = false ∧ pgAt ((Pg.bridge 4).base + o) = some (.bridge 4) ∧
        defined (.bridge 4) o = true := by
    decide +kernel
  obtain ⟨hb, h4, hw, ha, hdef⟩ := hall off ho
  rw [placeOf_space hb h4, spaceAt_reg rfl hw ha hdef]

/-- While a FAB port is in PROVISIONAL or a later state, a write to one of them does nothing but set CFG_REFUSED. -/
theorem regEffect_fabIdentity_run {off : Nat} (ho : off ∈ fabIdentityOffs) {s : State} (hf : s.fabSet = true) (st : Stamp)
    (tenant : Bool) (v : Nat) :
    (regEffect st (.bridge 4) off tenant v).run s = (raise (.bridge 4) .FAB_CFG_REFUSED).run s := by
  have hall : ∀ o ∈ fabIdentityOffs, ¬o < 0x100 ∧ (o = 0x100 ∨ 0x120 ≤ o ∧ o < 0x130) := by decide
  obtain ⟨hheader, hreg⟩ := hall off ho
  simp [regEffect, bridgeWrite, hheader, hreg, hf]

/-- The arbiter's note of a grant touches no link. -/
theorem grant_fabSet (st : Stamp) (pg : Pg) (s : State) : ((grant st pg).run s).fabSet = s.fabSet := rfl

/-- So a granted write to one of them is the note of the grant and the error. -/
theorem exec_registerWrite_fabIdentity {s : State} (hd : s.ivOn .dieReset = false) {off : Nat} (ho : off ∈ fabIdentityOffs)
    (hl : s.locked (.bridge 4) = false) (hf : s.fabSet = true) {st : Stamp} (hp : s.pathOpen st = true) (v w : Word) :
    exec (.registerWrite st (.space (BitVec.ofNat 26 ((Pg.bridge 4).base + off))) 1 true false v w) s =
      .next ((raise (.bridge 4) .FAB_CFG_REFUSED).run ((grant st (.bridge 4)).run s)) := by
  rw [exec_registerWrite_reg hd (placeOf_fabIdentity ho s st) rfl hl hp,
    regEffect_fabIdentity_run ho ((grant_fabSet ..).trans hf)]

/-- Settles O58: the write changes what the error and the note of the grant may, no field of the two registers among it, and
the error's sticky bit stands after it. -/
theorem fabricIdentityFixedWhileLinked : Obligations.FabricIdentityFixedWhileLinked := by
  intro s ⟨hw, hd⟩ st off v w ho hl hf hp
  refine ⟨_, exec_registerWrite_fabIdentity hd ho hl hf hp v w, ?_, ?_⟩
  · have hg : (grant st (.bridge 4)).In ((Foot.error .bridge).and <| Foot.numbers [.arbLast]) := grant_in (by decide) st _
    have hr : (raise (.bridge 4) .FAB_CFG_REFUSED).In ((Foot.error .bridge).and <| Foot.numbers [.arbLast]) :=
      raise_in rfl (by decide +kernel) _
    exact andThen_in hg hr s hw
  · exact raise_sets ((grant st (.bridge 4)).keeps_wf hw) rfl Fam.noConfusion (by decide)

end Sys2Proof.Machine
end

section
/-! PROOF. No step decreases an anti-rollback counter (R645). Every command and every idle nanosecond is an `Upd`, and an `Upd`
carries the proof `Keeps.arb` that it decreases none; `raiseArb` is the one elementary change that moves them. -/

namespace Sys2Proof.Machine

/-- The state as a command finds it: the front of the queue is taken. -/
def State.dequeued (s : State) : State := { s with pending := s.pending.tail }

/-- Taking a command from the queue leaves the tables as they are. -/
theorem State.wf.dequeued {s : State} (h : s.wf) : s.dequeued.wf := h

@[simp] theorem dequeued_arbAt (s : State) (k : Nat) : s.dequeued.arbAt k = s.arbAt k := rfl

theorem dequeued_of_idle {s : State} (h : s.pending = []) : s.dequeued = s := by
  simp only [State.dequeued, h, List.tail_nil]
  rw [← h]

/-- A step is one `Upd` of the dequeued state: the meaning of the command taken, or the tick of an empty queue. -/
theorem step_runs (s : State) : ∃ u : Upd, step s = .next (u.run s.dequeued) := by
  cases h : s.pending with
  | nil => exact ⟨tick, by rw [dequeued_of_idle h, step, h]⟩
  | cons c r =>
    have hs : step s = exec c s.dequeued := by simp only [step, State.dequeued, h, List.tail_cons]
    rw [hs]
    exact exec_runs c s.dequeued

/-- Settles O52: the step's `Upd` decreases no counter of the dequeued state, which are the counters of `s`. -/
theorem antiRollbackNeverDecreases : Obligations.AntiRollbackNeverDecreases := by
  intro s hw
  obtain ⟨u, hu⟩ := step_runs s
  refine ⟨u.run s.dequeued, hu, fun k => ?_⟩
  calc s.arbAt k = s.dequeued.arbAt k := (dequeued_arbAt s k).symm
    _ ≤ (u.run s.dequeued).arbAt k := (u.ok s.dequeued).arb hw.dequeued k

end Sys2Proof.Machine
end

section
/-! PROOF. What every command and every step keeps, and how a step takes its command. An `Upd` carries the proof `Keeps` of what it
keeps, and every command is one `Upd` (`exec_runs`), as is the tick of an empty queue. -/

namespace Sys2Proof.Machine

set_option Elab.async false

/-- An `Upd` keeps the tables' form and the queue, and only adds to what was sent and to the values drawn. -/
theorem Upd.keeps_form (u : Upd) {s : State} (hw : s.wf) :
    (u.run s).wf ∧ (u.run s).pending = s.pending ∧ (∃ l, (u.run s).out = l ++ s.out) ∧ s.free ≤ (u.run s).free := by
  obtain ⟨hpending, hwf, hout, -, hfree⟩ := u.ok s
  exact ⟨hwf hw, hpending, hout, hfree⟩

/-- Settles O51: a step is one `Upd` of the dequeued state, and a command one of the state itself. -/
theorem everyStepKeepsTheInvariant : Obligations.EveryStepKeepsTheInvariant := by
  intro s hw
  constructor
  · obtain ⟨u, hu⟩ := step_runs s
    exact ⟨_, hu, u.keeps_form hw.dequeued⟩
  · intro i
    obtain ⟨u, hu⟩ := exec_runs i s
    exact ⟨_, hu, u.keeps_form hw⟩

/-- Settles O50: a queue with a front runs it with the rest as its queue, and an empty one ticks. -/
theorem stepRunsFrontCommand : Obligations.StepRunsFrontCommand := by
  refine ⟨fun c r s => rfl, fun s h => ?_⟩
  rw [step, h]

end Sys2Proof.Machine
end

section
/-! PROOF. The frames: each command stays within the foot that Laws/Exec* and Laws/Reads give it, and that foot is listed by the
statement's. -/

namespace Sys2Proof.Machine

/-- The fields of a foot on the pages of one family. -/
def Foot.regsOf (F : Foot) (k : Fam) : List Fld := (F.regs.filter fun x => decide (x.1 = k)).map (·.2)

/-- Every family of pages. -/
def allFams : List Fam := headed ++ [.tenant, .ring]

theorem mem_allFams (k : Fam) : k ∈ allFams := by cases k <;> decide

/-- As `Foot.le`, with the fields compared family by family: of large feet far fewer comparisons. -/
def Foot.leByFam (F G : Foot) : Bool :=
  allFams.all (fun k => (F.regsOf k).all ((G.regsOf k).contains ·)) && F.cnts.all (G.cnts.contains ·) &&
    F.vars.all (G.vars.contains ·) && F.fifos.all (G.fifos.contains ·) && F.parts.all (G.parts.contains ·)

theorem Foot.mem_regsOf {F : Foot} {k : Fam} {f : Fld} : f ∈ F.regsOf k ↔ (k, f) ∈ F.regs := by
  simp only [Foot.regsOf, List.mem_map, List.mem_filter, decide_eq_true_eq]
  constructor
  · rintro ⟨⟨k', f'⟩, ⟨hmem, rfl⟩, rfl⟩
    exact hmem
  · exact fun hmem => ⟨(k, f), ⟨hmem, rfl⟩, rfl⟩

theorem Foot.le_of_byFam {F G : Foot} (h : F.leByFam G = true) : F.le G = true := by
  simp only [Foot.leByFam, Bool.and_eq_true] at h
  obtain ⟨⟨⟨⟨hregs, hcnts⟩, hvars⟩, hfifos⟩, hparts⟩ := h
  have hall : F.regs.all (G.regs.contains ·) = true := by
    simp only [List.all_eq_true, List.contains_iff_mem] at hregs ⊢
    exact fun x hx => Foot.mem_regsOf.1 (hregs x.1 (mem_allFams x.1) x.2 (Foot.mem_regsOf.2 hx))
  simp only [Foot.le, Bool.and_eq_true]
  exact ⟨⟨⟨⟨hall, hcnts⟩, hvars⟩, hfifos⟩, hparts⟩

/-- A command that stays within `F` stays within what lists all of `F`. -/
theorem Within.mono_byFam {F G : Foot} {s t : State} (a : Within F s t) (h : F.leByFam G = true) : Within G s t :=
  a.mono (Foot.le_of_byFam h)


/-- Settles O39: accesses, header writes, supply, boot, clock and thermal events, each by the law of its command. -/
theorem accessResetFrames : Obligations.AccessResetFrames := by
  intro s hw
  exact ⟨fun _ he => (execVkeepRise_within hw he).mono_byFam (by decide +kernel),
    fun _ he => (execSwitchDieRailsGood_within hw he).mono_byFam (by decide +kernel),
    fun _ he => (execColdResetEnd_within hw he).mono_byFam (by decide +kernel),
    fun _ he => (execCrystalLoss_within hw he).mono_byFam (by decide +kernel),
    fun _ he => (execDevRstNRelease_within hw he).mono_byFam (by decide +kernel),
    fun _ he => (execWarmResetEnd_within hw he).mono_byFam (by decide +kernel),
    fun _ _ he => (execRomChecksDone_within _ hw he).mono_byFam (by decide +kernel),
    fun _ _ _ _ _ he => (execFirmwareSlotSelect_within _ _ _ _ hw he).mono_byFam (by decide +kernel),
    fun _ he => (execFirmwareStart_within hw he).mono_byFam (by decide +kernel),
    fun _ _ _ he => (execFwConfirm_within _ _ hw he).mono_byFam (by decide +kernel),
    fun _ he => (execConfirmTimeout_within hw he).mono_byFam (by decide +kernel),
    fun _ _ _ he => (execQuietEntry_within _ _ hw he).mono_byFam (by decide +kernel),
    fun _ he => (execQuietChannelsOff_within hw he).mono_byFam (by decide +kernel),
    fun _ he => (execFwakeReleaseTimeout_within hw he).mono_byFam (by decide +kernel),
    fun _ _ he => (execThermalSample_within _ hw he).mono_byFam (by decide +kernel),
    fun _ _ he => (execRefclkLoss_within _ hw he).mono_byFam (by decide +kernel),
    fun _ _ he => (execRefclkRestore_within _ hw he).mono_byFam (by decide +kernel),
    fun _ _ _ _ _ he => execIntCauseWrite_within _ _ _ _ hw he,
    fun _ _ _ _ he => execCounterClear_within _ _ _ hw he,
    fun _ _ _ he => execUnmappedRead_within _ _ hw he,
    fun _ _ _ _ he => execBadLengthRead_within _ _ _ hw he,
    fun _ _ _ _ he => execCounterLowRead_within _ _ _ hw he,
    fun _ _ _ _ he => execDirectCounterRead_within _ _ _ hw he,
    fun _ _ _ _ he => (execReadClear_within _ _ _ hw he).mono_byFam (by decide +kernel),
    fun _ _ _ _ he => (execFifoPop_within _ _ _ hw he).mono_byFam (by decide +kernel)⟩

/-- Settles O40: lane events and writes and training events, each by the law of its command. -/
theorem laneTrainingFrames : Obligations.LaneTrainingFrames := by
  intro s hw
  exact ⟨fun _ _ _ he => (execCodewordReceived_within _ _ hw he).mono_byFam (by decide +kernel),
    fun _ _ he => (execFillerReceived_within _ hw he).mono_byFam (by decide +kernel),
    fun _ _ he => (execFecDegrade_within _ hw he).mono_byFam (by decide +kernel),
    fun _ _ _ he => (execCoeffApply_within _ _ hw he).mono_byFam (by decide +kernel),
    fun _ _ he => (execEqRespTimeout_within _ hw he).mono_byFam (by decide +kernel),
    fun _ _ _ _ he => (execTxTapsWrite_within _ _ _ hw he).mono_byFam (by decide +kernel),
    fun _ _ _ _ he => (execEqModeWrite_within _ _ _ hw he).mono_byFam (by decide +kernel),
    fun _ _ _ _ _ he => (execPrbsCheckerLock_within _ _ _ _ hw he).mono_byFam (by decide +kernel),
    fun _ _ _ _ he => (execInjectOneShot_within _ _ _ hw he).mono_byFam (by decide +kernel),
    fun _ _ he => (execInjectPeriodic_within _ hw he).mono_byFam (by decide +kernel),
    fun _ _ _ _ _ _ he => (execRxAdaptationDone_within _ _ _ _ _ hw he).mono_byFam (by decide +kernel),
    fun _ _ _ _ he => (execLanePrbsCtrlWrite_within _ _ _ hw he).mono_byFam (by decide +kernel),
    fun _ _ _ _ he => (execLaneSlip_within _ _ _ hw he).mono_byFam (by decide +kernel),
    fun _ _ _ he => (execPllLock_within _ _ hw he).mono_byFam (by decide +kernel),
    fun _ _ _ he => (execPllUnlock_within _ _ hw he).mono_byFam (by decide +kernel),
    fun _ _ he => (execSignalDetect_within _ hw he).mono_byFam (by decide +kernel),
    fun _ _ he => (execLinkDownDwellExpiry_within _ hw he).mono_byFam (by decide +kernel),
    fun _ _ he => (execTrainStateTimeout_within _ hw he).mono_byFam (by decide +kernel),
    fun _ _ he => (execDetectAbsentTimeout_within _ hw he).mono_byFam (by decide +kernel),
    fun _ _ _ _ _ he => (execAlignReceived_within _ _ _ _ hw he).mono_byFam (by decide +kernel),
    fun _ _ he => (execAlignTransmit_within _ hw he).mono_byFam (by decide +kernel),
    fun _ _ _ _ _ he => (execTrainBlockReceived_within _ _ _ _ hw he).mono_byFam (by decide +kernel),
    fun _ _ _ he => (execParamBlockReceived_within _ _ hw he).mono_byFam (by decide +kernel),
    fun _ _ he => (execParamRepeat_within _ hw he).mono_byFam (by decide +kernel),
    fun _ _ he => (execAuthHello_within _ hw he).mono_byFam (by decide +kernel),
    fun _ _ _ _ he => (execAuthCert_within _ _ _ hw he).mono_byFam (by decide +kernel),
    fun _ _ _ _ _ _ _ he => (execAuthProof_within _ _ _ _ _ _ hw he).mono_byFam (by decide +kernel),
    fun _ _ _ he => (execAuthDone_within _ _ hw he).mono_byFam (by decide +kernel),
    fun _ _ _ _ _ _ _ _ he => (execPcieLinkUp_within _ _ _ _ _ _ _ hw he).mono_byFam (by decide +kernel),
    fun _ _ _ he => (execPcieReplayNumRollover_within _ _ hw he).mono_byFam (by decide +kernel)⟩

/-- Settles O41: events of a running link, each by the law of its command. -/
theorem linkFrames : Obligations.LinkFrames := by
  intro s hw
  exact ⟨fun _ _ _ _ he => (execPortCfgApply_within _ _ _ hw he).mono_byFam (by decide +kernel),
    fun _ _ he => (execAlignLoss_within _ hw he).mono_byFam (by decide +kernel),
    fun _ _ _ he => (execCreditBlockReceived_within _ _ hw he).mono_byFam (by decide +kernel),
    fun _ _ he => (execCreditRefresh_within _ hw he).mono_byFam (by decide +kernel),
    fun _ _ _ _ he => (execCreditStallTimeout_within _ _ _ hw he).mono_byFam (by decide +kernel),
    fun _ _ he => (execNumRekeyThreshold_within _ hw he).mono_byFam (by decide +kernel),
    fun _ _ he => (execNumExhausted_within _ hw he).mono_byFam (by decide +kernel),
    fun _ _ _ he => (execCdrLossTimeout_within _ _ hw he).mono_byFam (by decide +kernel),
    fun _ _ he => (execUncorrectableLimit_within _ hw he).mono_byFam (by decide +kernel),
    fun _ _ _ he => (execLanemapReceived_within _ _ hw he).mono_byFam (by decide +kernel),
    fun _ _ he => (execWideningLanesReady_within _ hw he).mono_byFam (by decide +kernel),
    fun _ _ he => (execWidthChangeTimeout_within _ hw he).mono_byFam (by decide +kernel),
    fun _ _ he => (execLinkLoss_within _ hw he).mono_byFam (by decide +kernel),
    fun _ _ he => (execRestReceived_within _ hw he).mono_byFam (by decide +kernel),
    fun _ _ he => (execRestExit_within _ hw he).mono_byFam (by decide +kernel),
    fun _ _ _ _ he => (execCreditUpdateSend_within _ _ _ hw he).mono_byFam (by decide +kernel),
    fun _ _ he => (execRestExitFail_within _ hw he).mono_byFam (by decide +kernel),
    fun _ _ _ _ he => (execPortRetrain_within _ _ _ hw he).mono_byFam (by decide +kernel),
    fun _ _ _ he => (execPortContain_within _ _ hw he).mono_byFam (by decide +kernel),
    fun _ _ _ he => (execEgressFrameBoundary_within _ _ hw he).mono_byFam (by decide +kernel),
    fun _ _ he => (execHatchEntry_within _ hw he).mono_byFam (by decide +kernel),
    fun _ _ he => (execRestIdleExpiry_within _ hw he).mono_byFam (by decide +kernel),
    fun _ _ he => (execGateWakeLead_within _ hw he).mono_byFam (by decide +kernel),
    fun _ _ _ he => (execDaendFrameReceived_within _ _ hw he).mono_byFam (by decide +kernel),
    fun _ _ he => (execAckCoalesceExpiry_within _ hw he).mono_byFam (by decide +kernel),
    fun _ _ _ he => (execAckReceived_within _ _ hw he).mono_byFam (by decide +kernel),
    fun _ _ _ he => (execNakReceived_within _ _ hw he).mono_byFam (by decide +kernel),
    fun _ _ he => (execReplayTimeout_within _ hw he).mono_byFam (by decide +kernel)⟩

/-- Settles O42: face writes and host events, each by the law of its command. -/
theorem hostFrames : Obligations.HostFrames := by
  intro s hw
  exact ⟨fun _ _ _ _ he => (execFaceBindWrite_within _ _ _ hw he).mono_byFam (by decide +kernel),
    fun _ _ _ _ _ he => (execPresentationUpdate_within _ _ _ _ hw he).mono_byFam (by decide +kernel),
    fun _ _ _ _ he => (execBarSizingDone_within _ _ _ hw he).mono_byFam (by decide +kernel),
    fun _ _ _ _ he => (execMsixTableWrite_within _ _ _ hw he).mono_byFam (by decide +kernel),
    fun _ _ _ he => (execInterruptSourceFire_within _ _ hw he).mono_byFam (by decide +kernel),
    fun _ _ _ _ he => (execWindowWrite_within _ _ _ hw he).mono_byFam (by decide +kernel),
    fun _ _ _ _ he => (execWindowWriteAny_within _ _ _ hw he).mono_byFam (by decide +kernel),
    fun _ _ _ _ he => (execWindowInvalidate_within _ _ _ hw he).mono_byFam (by decide +kernel)⟩

/-- Settles O44: cycle, time and scheduling events, each by the law of its command. -/
theorem cycleFrames : Obligations.CycleFrames := by
  intro s hw
  exact ⟨fun _ _ _ _ he => (execHatchLenWrite_within _ _ _ hw he).mono_byFam (by decide +kernel),
    fun _ _ _ _ he => (execHatchVerifyStart_within _ _ _ hw he).mono_byFam (by decide +kernel),
    fun _ _ he => (execHatchVerifyDone_within _ hw he).mono_byFam (by decide +kernel),
    fun _ _ _ _ he => (execHatchArm_within _ _ _ hw he).mono_byFam (by decide +kernel),
    fun _ _ _ _ he => (execHatchArmNext_within _ _ _ hw he).mono_byFam (by decide +kernel),
    fun _ _ _ _ he => (execHatchDisarm_within _ _ _ hw he).mono_byFam (by decide +kernel),
    fun _ he => (execCycleMidpoint_within hw he).mono_byFam (by decide +kernel),
    fun _ he => (execEdgeWindowClose_within hw he).mono_byFam (by decide +kernel),
    fun _ _ he => (execCycRefEdge_within _ hw he).mono_byFam (by decide +kernel),
    fun _ _ _ he => (execCycleMarkerReceived_within _ _ hw he).mono_byFam (by decide +kernel),
    fun _ _ he => (execCycleMarkerSend_within _ hw he).mono_byFam (by decide +kernel),
    fun _ he => (execSourceMarkerTimeout_within hw he).mono_byFam (by decide +kernel),
    fun _ _ _ _ he => (execCycleSourceChange_within _ _ _ hw he).mono_byFam (by decide +kernel),
    fun _ he => (execCycOutPulseEnd_within hw he).mono_byFam (by decide +kernel),
    fun _ _ he => (execPtmRequestTimer_within _ hw he).mono_byFam (by decide +kernel),
    fun _ _ _ he => (execPtmResponseReceived_within _ _ hw he).mono_byFam (by decide +kernel),
    fun _ _ he => (execPtmRequestReceived_within _ hw he).mono_byFam (by decide +kernel),
    fun _ _ _ he => (execSnapshotCapture_within _ _ hw he).mono_byFam (by decide +kernel),
    fun _ _ _ _ _ _ he => (execBufferLimitWrite_within _ _ _ _ _ hw he).mono_byFam (by decide +kernel),
    fun _ _ _ he => (execPolicerCommit_within _ _ hw he).mono_byFam (by decide +kernel),
    fun _ he => (execCycleBoundary_within hw he).mono_byFam (by decide +kernel)⟩

/-- Settles O45: instances, TDISP and face resets, each by the law of its command. -/
theorem instanceFrames : Obligations.InstanceFrames := by
  intro s hw
  exact ⟨fun _ _ he => (execInstanceResetDone_within _ hw he).mono_byFam (by decide +kernel),
    fun _ _ he => (execFlushTimeout_within _ hw he).mono_byFam (by decide +kernel),
    fun _ _ _ he => (execInstanceReset_within _ _ hw he).mono_byFam (by decide +kernel),
    fun _ _ _ he => (execInstanceSelfReset_within _ _ hw he).mono_byFam (by decide +kernel),
    fun _ _ _ he => (execInstanceBind_within _ _ hw he).mono_byFam (by decide +kernel),
    fun _ _ _ he => (execInstanceBindAny_within _ _ hw he).mono_byFam (by decide +kernel),
    fun _ _ _ he => (execInstanceUnbind_within _ _ hw he).mono_byFam (by decide +kernel),
    fun _ _ _ _ he => (execShareWrite_within _ _ _ hw he).mono_byFam (by decide +kernel),
    fun _ _ _ he => (execGetTdispVersion_within _ _ hw he).mono_byFam (by decide +kernel),
    fun _ _ _ he => (execGetTdispCapabilities_within _ _ hw he).mono_byFam (by decide +kernel),
    fun _ _ _ he => (execLockInterfaceRequest_within _ _ hw he).mono_byFam (by decide +kernel),
    fun _ _ _ he => (execGetDeviceInterfaceState_within _ _ hw he).mono_byFam (by decide +kernel),
    fun _ _ _ he => (execGetDeviceInterfaceReport_within _ _ hw he).mono_byFam (by decide +kernel),
    fun _ _ _ he => (execStartInterfaceRequest_within _ _ hw he).mono_byFam (by decide +kernel),
    fun _ _ _ he => (execStopInterfaceRequest_within _ _ hw he).mono_byFam (by decide +kernel),
    fun _ _ _ he => (execTdispUnsupported_within _ _ hw he).mono_byFam (by decide +kernel),
    fun _ _ he => (execFlrServiceEndpoint_within _ hw he).mono_byFam (by decide +kernel),
    fun _ _ he => (execFlrDone_within _ hw he).mono_byFam (by decide +kernel),
    fun _ _ he => (execPmeTurnOff_within _ hw he).mono_byFam (by decide +kernel),
    fun _ _ he => (execFaceResetPin_within _ hw he).mono_byFam (by decide +kernel),
    fun _ _ he => (execHotResetReceived_within _ hw he).mono_byFam (by decide +kernel),
    fun _ _ he => (execFperstRelease_within _ hw he).mono_byFam (by decide +kernel),
    fun _ _ he => (execFaceReady_within _ hw he).mono_byFam (by decide +kernel)⟩

/-- Settles O46: rings, descriptors, bridging and mailboxes, each by the law of its command. -/
theorem moverBoxFrames : Obligations.MoverBoxFrames := by
  intro s hw
  exact ⟨fun _ _ he => (execCoalesceExpiry_within _ hw he).mono_byFam (by decide +kernel),
    fun _ _ he => (execDescriptorComplete_within _ hw he).mono_byFam (by decide +kernel),
    fun _ _ _ he => (execDescriptorError_within _ _ hw he).mono_byFam (by decide +kernel),
    fun _ _ he => (execDescriptorFetch_within _ hw he).mono_byFam (by decide +kernel),
    fun _ _ _ he => (execDescriptorFetchComplete_within _ _ hw he).mono_byFam (by decide +kernel),
    fun _ _ _ _ he => (execRingTailWrite_within _ _ _ hw he).mono_byFam (by decide +kernel),
    fun _ _ _ he => (execRingResume_within _ _ hw he).mono_byFam (by decide +kernel),
    fun _ _ _ _ _ he => (execRingCfgWrite_within _ _ _ _ hw he).mono_byFam (by decide +kernel),
    fun _ _ _ _ he => (execRingRehome_within _ _ _ hw he).mono_byFam (by decide +kernel),
    fun _ _ he => (execRehomeDone_within _ hw he).mono_byFam (by decide +kernel),
    fun _ _ he => (execRxPacketCommit_within _ hw he).mono_byFam (by decide +kernel),
    fun _ _ _ _ he => (execEngineDisable_within _ _ _ hw he).mono_byFam (by decide +kernel),
    fun _ _ he => (execEngineFault_within _ hw he).mono_byFam (by decide +kernel),
    fun _ _ _ he => (execPrefetchAgeExpiry_within _ _ hw he).mono_byFam (by decide +kernel),
    fun _ _ _ he => (execUnlockMessage_within _ _ hw he).mono_byFam (by decide +kernel),
    fun _ _ he => (execLockTimeout_within _ hw he).mono_byFam (by decide +kernel),
    fun _ _ _ _ he => (execMoverReadCompletion_within _ _ _ hw he).mono_byFam (by decide +kernel),
    fun _ _ _ _ he => (execNoticePost_within _ _ _ hw he).mono_byFam (by decide +kernel),
    fun _ _ _ _ _ _ he => (execNoticeFrameReceived_within _ _ _ _ _ hw he).mono_byFam (by decide +kernel),
    fun _ _ _ _ _ he => (execNoticeOutcomeReceived_within _ _ _ _ hw he).mono_byFam (by decide +kernel),
    fun _ _ _ he => (execNoticeOutcomeTimeout_within _ _ hw he).mono_byFam (by decide +kernel),
    fun _ _ _ he => (execNoticeRead_within _ _ hw he).mono_byFam (by decide +kernel),
    fun _ _ _ he => (execDoorbellArm_within _ _ hw he).mono_byFam (by decide +kernel),
    fun _ _ _ _ he => (execEpochQuery_within _ _ _ hw he).mono_byFam (by decide +kernel),
    fun _ _ _ _ he => (execWordWrite_within _ _ _ hw he).mono_byFam (by decide +kernel),
    fun _ _ _ he => (execWordTake_within _ _ hw he).mono_byFam (by decide +kernel),
    fun _ _ _ he => (execSemAcquire_within _ _ hw he).mono_byFam (by decide +kernel),
    fun _ _ _ he => (execSemRelease_within _ _ hw he).mono_byFam (by decide +kernel),
    fun _ _ _ he => (execSemForce_within _ _ hw he).mono_byFam (by decide +kernel)⟩

/-- Settles O47: containment and recovery, each by the law of its command. -/
theorem containmentFrames : Obligations.ContainmentFrames := by
  intro s hw
  exact ⟨fun _ _ he => (execPowerQuiesceDrained_within _ hw he).mono_byFam (by decide +kernel),
    fun _ _ he => (execQuiesceUsExpiry_within _ hw he).mono_byFam (by decide +kernel),
    fun _ he => (execContainmentRequest_within hw he).mono_byFam (by decide +kernel),
    fun _ _ he => (execRecoveryComplete_within _ hw he).mono_byFam (by decide +kernel),
    fun _ _ he => (execRecoveryTimeout_within _ hw he).mono_byFam (by decide +kernel),
    fun _ _ he => (execRecoveryWindowClose_within _ hw he).mono_byFam (by decide +kernel),
    fun _ _ _ _ he => (execDomainContain_within _ _ _ hw he).mono_byFam (by decide +kernel),
    fun _ _ _ _ he => (execDomainRelease_within _ _ _ hw he).mono_byFam (by decide +kernel),
    fun _ _ _ he => (execPortRelease_within _ _ hw he).mono_byFam (by decide +kernel),
    fun _ _ he => (execDpcHoldExpiry_within _ hw he).mono_byFam (by decide +kernel),
    fun _ _ he => (execDomainEventRepeat_within _ hw he).mono_byFam (by decide +kernel),
    fun code sw feids _ he => (execDomainEventReceived_within code sw feids hw he).mono_byFam (by decide +kernel),
    fun _ _ he => (execUnreachableMarkExpiry_within _ hw he).mono_byFam (by decide +kernel),
    fun fd sw block bit n _ he => (execContainReqReceived_within fd sw block bit n hw he).mono_byFam (by decide +kernel),
    fun _ _ _ he => (execElogClear_within _ _ hw he).mono_byFam (by decide +kernel)⟩

/-- Settles O48: tokens, sessions, keys and locks, each by the law of its command. -/
theorem securityFrames : Obligations.SecurityFrames := by
  intro s hw
  exact ⟨fun _ _ _ _ he => (execPageLockWrite_within _ _ _ hw he).mono_byFam (by decide +kernel),
    fun _ _ _ he => (execTokenClaim_within _ _ hw he).mono_byFam (by decide +kernel),
    fun _ _ _ he => (execTokenTransfer_within _ _ hw he).mono_byFam (by decide +kernel),
    fun _ _ _ he => (execTokenRelease_within _ _ hw he).mono_byFam (by decide +kernel),
    fun _ _ _ he => (execTokenUnlockPages_within _ _ hw he).mono_byFam (by decide +kernel),
    fun _ _ _ he => (execTokenGrant_within _ _ hw he).mono_byFam (by decide +kernel),
    fun _ _ _ he => (execTokenArbAdvance_within _ _ hw he).mono_byFam (by decide +kernel),
    fun _ _ _ he => (execTokenDebugUnlock_within _ _ hw he).mono_byFam (by decide +kernel),
    fun _ he => (execTokenFinished_within hw he).mono_byFam (by decide +kernel),
    fun _ _ _ he => (execSpdmRequest_within _ _ hw he).mono_byFam (by decide +kernel),
    fun _ _ _ he => (execIdeKmRequest_within _ _ hw he).mono_byFam (by decide +kernel),
    fun _ _ _ _ he => (execDeviceAuthDone_within _ _ _ hw he).mono_byFam (by decide +kernel),
    fun _ _ _ he => (execLinkRekey_within _ _ hw he).mono_byFam (by decide +kernel),
    fun _ _ he => (execRekeyTimeout_within _ hw he).mono_byFam (by decide +kernel),
    fun _ _ _ he => (execDebugRelock_within _ _ hw he).mono_byFam (by decide +kernel)⟩

/-- Settles O49: power-path and management events, each by the law of its command. -/
theorem powerManagementFrames : Obligations.PowerManagementFrames := by
  intro s hw
  exact ⟨fun _ _ he => (execFastTrip_within _ hw he).mono_byFam (by decide +kernel),
    fun _ _ he => (execOvCut_within _ hw he).mono_byFam (by decide +kernel),
    fun _ _ he => (execFaultTimerExpiry_within _ hw he).mono_byFam (by decide +kernel),
    fun _ _ he => (execRampTimeout_within _ hw he).mono_byFam (by decide +kernel),
    fun _ _ he => (execFetOvertemp_within _ hw he).mono_byFam (by decide +kernel),
    fun _ _ he => (execSeatingLoss_within _ hw he).mono_byFam (by decide +kernel),
    fun _ _ he => (execFeedLoss_within _ hw he).mono_byFam (by decide +kernel),
    fun _ _ he => (execWarnLeadExpiry_within _ hw he).mono_byFam (by decide +kernel),
    fun _ _ he => (execForcedSwitchover_within _ hw he).mono_byFam (by decide +kernel),
    fun _ _ he => (execRevertSwitchover_within _ hw he).mono_byFam (by decide +kernel),
    fun _ _ he => (execDeadTimeExpiry_within _ hw he).mono_byFam (by decide +kernel),
    fun _ _ he => (execSeatingDebounced_within _ hw he).mono_byFam (by decide +kernel),
    fun _ _ _ he => (execInsertionDelayExpiry_within _ _ hw he).mono_byFam (by decide +kernel),
    fun _ _ he => (execRampComplete_within _ hw he).mono_byFam (by decide +kernel),
    fun _ _ he => (execRetryPeriodExpiry_within _ hw he).mono_byFam (by decide +kernel),
    fun _ _ he => (execReverseBlock_within _ hw he).mono_byFam (by decide +kernel),
    fun _ _ he => (execReverseRelease_within _ hw he).mono_byFam (by decide +kernel),
    fun _ _ he => (execPowerGood_within _ hw he).mono_byFam (by decide +kernel),
    fun _ _ he => (execRetryReloadTimer_within _ hw he).mono_byFam (by decide +kernel),
    fun _ _ he => (execOutputBelowPgThreshold_within _ hw he).mono_byFam (by decide +kernel),
    fun _ _ _ _ he => (execChannelEnable_within _ _ _ hw he).mono_byFam (by decide +kernel),
    fun _ _ _ _ he => (execChannelDisable_within _ _ _ hw he).mono_byFam (by decide +kernel),
    fun _ _ _ _ he => (execChannelClear_within _ _ _ hw he).mono_byFam (by decide +kernel),
    fun _ _ _ _ he => (execSoftwareSwitchover_within _ _ _ hw he).mono_byFam (by decide +kernel),
    fun _ he => (execFeedCheck_within hw he).mono_byFam (by decide +kernel),
    fun _ _ _ _ _ _ _ _ he => (execTelemetrySample_within _ _ _ _ _ _ _ hw he).mono_byFam (by decide +kernel),
    fun pair _ he => (execLockstepMismatch_within pair hw he).mono_byFam (by decide +kernel),
    fun _ he => (execWatchdogExpiry_within hw he).mono_byFam (by decide +kernel),
    fun _ _ _ he => (execWatchdogKick_within _ _ hw he).mono_byFam (by decide +kernel),
    fun _ _ _ he => (execImgCtrlStart_within _ _ hw he).mono_byFam (by decide +kernel),
    fun _ _ _ he => (execImgCtrlChunk_within _ _ hw he).mono_byFam (by decide +kernel),
    fun _ _ _ he => (execImgCtrlFinish_within _ _ hw he).mono_byFam (by decide +kernel),
    fun _ _ _ he => (execImgCtrlAbort_within _ _ hw he).mono_byFam (by decide +kernel),
    fun _ he => (execImgEraseDone_within hw he).mono_byFam (by decide +kernel),
    fun _ he => (execImgChunkDone_within hw he).mono_byFam (by decide +kernel),
    fun _ _ _ he => (execSetEndpointId_within _ _ hw he).mono_byFam (by decide +kernel),
    fun _ _ he => (execGetEndpointId_within _ hw he).mono_byFam (by decide +kernel),
    fun _ _ _ he => (execGetMctpVersionSupport_within _ _ hw he).mono_byFam (by decide +kernel),
    fun _ _ he => (execGetMessageTypeSupport_within _ hw he).mono_byFam (by decide +kernel),
    fun _ _ he => (execMctpUnsupported_within _ hw he).mono_byFam (by decide +kernel),
    fun _ _ _ he => (execMctpImgStart_within _ _ hw he).mono_byFam (by decide +kernel),
    fun _ _ _ _ he => (execMctpImgChunk_within _ _ _ hw he).mono_byFam (by decide +kernel),
    fun _ _ he => (execMctpImgFinish_within _ hw he).mono_byFam (by decide +kernel),
    fun _ _ he => (execTelemetry_within _ hw he).mono_byFam (by decide +kernel),
    fun _ he => (execGatherSnapshot_within hw he).mono_byFam (by decide +kernel),
    fun _ _ he => (execGatherSnapshotDone_within _ hw he).mono_byFam (by decide +kernel),
    fun _ _ _ _ he => (execGatherConfigWrite_within _ _ _ hw he).mono_byFam (by decide +kernel),
    fun _ _ he => (execVmonSample_within _ hw he).mono_byFam (by decide +kernel),
    fun _ _ _ _ he => (execRemoteRead_within _ _ _ hw he).mono_byFam (by decide +kernel),
    fun _ _ _ _ _ he => (execRemoteWrite_within _ _ _ _ hw he).mono_byFam (by decide +kernel),
    fun _ _ _ _ he => (execRemoteResponseReceived_within _ _ _ hw he).mono_byFam (by decide +kernel),
    fun _ _ he => (execRemoteTimeout_within _ hw he).mono_byFam (by decide +kernel)⟩

end Sys2Proof.Machine
end

section
/-! PROOF. Isolation: each command to one unit spares the pages of the other units of its kind (Laws/Alone*). -/

namespace Sys2Proof.Machine

/-- Settles O59: each lane command spares the other octets and each channel command the other channels. -/
theorem laneAndChannelIsolation : Obligations.LaneAndChannelIsolation := by
  intro s hw
  exact ⟨fun _ _ _ => execCodewordReceived_alone_lane _ _ hw,
    fun _ _ => execFillerReceived_alone_lane _ hw,
    fun _ _ => execFecDegrade_alone_lane _ hw,
    fun _ _ _ => execCoeffApply_alone_lane _ _ hw,
    fun _ _ => execEqRespTimeout_alone_lane _ hw,
    fun _ _ _ _ => execTxTapsWrite_alone_lane _ _ _ hw,
    fun _ _ _ _ => execEqModeWrite_alone_lane _ _ _ hw,
    fun _ _ _ _ _ => execPrbsCheckerLock_alone_lane _ _ _ _ hw,
    fun _ _ _ _ => execInjectOneShot_alone_lane _ _ _ hw,
    fun _ _ => execInjectPeriodic_alone_lane _ hw,
    fun _ _ _ _ _ _ => execRxAdaptationDone_alone_lane _ _ _ _ _ hw,
    fun _ _ _ _ => execLaneSlip_alone_lane _ _ _ hw,
    fun _ _ => execSignalDetect_alone_lane _ hw,
    fun _ _ => execAlignTransmit_alone_lane _ hw,
    fun _ _ => execRestReceived_alone_lane _ hw,
    fun _ _ => execFastTrip_alone_pwr _ hw,
    fun _ _ => execOvCut_alone_pwr _ hw,
    fun _ _ => execFaultTimerExpiry_alone_pwr _ hw,
    fun _ _ => execRampTimeout_alone_pwr _ hw,
    fun _ _ => execFetOvertemp_alone_pwr _ hw,
    fun _ _ => execSeatingLoss_alone_pwr _ hw,
    fun _ _ => execFeedLoss_alone_pwr _ hw,
    fun _ _ => execWarnLeadExpiry_alone_pwr _ hw,
    fun _ _ => execForcedSwitchover_alone_pwr _ hw,
    fun _ _ => execRevertSwitchover_alone_pwr _ hw,
    fun _ _ => execDeadTimeExpiry_alone_pwr _ hw,
    fun _ _ => execSeatingDebounced_alone_pwr _ hw,
    fun _ _ _ => execInsertionDelayExpiry_alone_pwr _ _ hw,
    fun _ _ => execRampComplete_alone_pwr _ hw,
    fun _ _ => execRetryPeriodExpiry_alone_pwr _ hw,
    fun _ _ => execReverseBlock_alone_pwr _ hw,
    fun _ _ => execReverseRelease_alone_pwr _ hw,
    fun _ _ => execPowerGood_alone_pwr _ hw,
    fun _ _ => execRetryReloadTimer_alone_pwr _ hw,
    fun _ _ => execOutputBelowPgThreshold_alone_pwr _ hw,
    fun _ _ _ _ => execChannelEnable_alone_pwr _ _ _ hw,
    fun _ _ _ _ => execChannelDisable_alone_pwr _ _ _ hw,
    fun _ _ _ _ => execChannelClear_alone_pwr _ _ _ hw,
    fun _ _ _ _ => execSoftwareSwitchover_alone_pwr _ _ _ hw,
    fun _ _ _ _ _ _ _ _ => execTelemetrySample_alone_pwr _ _ _ _ _ _ _ hw⟩

/-- Settles O60: each command spares the other ports, hatch schedulers or rings. -/
theorem portListAndRingIsolation : Obligations.PortListAndRingIsolation := by
  intro s hw
  exact ⟨fun _ _ _ _ => execPortCfgApply_alone_port _ _ _ hw,
    fun _ _ => execLinkDownDwellExpiry_alone_port _ hw,
    fun _ _ => execTrainStateTimeout_alone_port _ hw,
    fun _ _ => execDetectAbsentTimeout_alone_port _ hw,
    fun _ _ _ => execParamBlockReceived_alone_port _ _ hw,
    fun _ _ _ _ => execAuthCert_alone_port _ _ _ hw,
    fun _ _ _ _ _ _ _ => execAuthProof_alone_port _ _ _ _ _ _ hw,
    fun _ _ _ => execAuthDone_alone_port _ _ hw,
    fun _ _ _ => execCreditBlockReceived_alone_port _ _ hw,
    fun _ _ _ _ => execCreditStallTimeout_alone_port _ _ _ hw,
    fun _ _ _ => execLanemapReceived_alone_port _ _ hw,
    fun _ _ => execWideningLanesReady_alone_port _ hw,
    fun _ _ => execWidthChangeTimeout_alone_port _ hw,
    fun _ _ => execLinkLoss_alone_port _ hw,
    fun _ _ => execRestExit_alone_port _ hw,
    fun _ _ _ _ => execCreditUpdateSend_alone_port _ _ _ hw,
    fun _ _ _ _ _ _ _ _ => execPcieLinkUp_alone_port _ _ _ _ _ _ _ hw,
    fun _ _ _ => execPcieReplayNumRollover_alone_port _ _ hw,
    fun _ _ _ _ => execPortRetrain_alone_port _ _ _ hw,
    fun _ _ _ => execPortContain_alone_port _ _ hw,
    fun _ _ _ => execLinkStatusReceived_alone_port _ _ hw,
    fun _ _ _ _ => execLinkRetire_alone_port _ _ _ hw,
    fun _ _ => execRetireDrained_alone_port _ hw,
    fun _ _ => execRetireTimeout_alone_port _ hw,
    fun _ _ _ => execEgressFrameBoundary_alone_port _ _ hw,
    fun _ _ => execRestIdleExpiry_alone_port _ hw,
    fun _ _ => execGateWakeLead_alone_port _ hw,
    fun _ _ _ => execCycleMarkerReceived_alone_port _ _ hw,
    fun _ _ => execCycleMarkerSend_alone_port _ hw,
    fun _ _ _ => execDaendFrameReceived_alone_port _ _ hw,
    fun _ _ => execAckCoalesceExpiry_alone_port _ hw,
    fun _ _ _ => execAckReceived_alone_port _ _ hw,
    fun _ _ _ => execNakReceived_alone_port _ _ hw,
    fun _ _ => execReplayTimeout_alone_port _ hw,
    fun _ _ => execPowerQuiesceDrained_alone_port _ hw,
    fun _ _ => execQuiesceUsExpiry_alone_port _ hw,
    fun _ _ => execDpcHoldExpiry_alone_port _ hw,
    fun _ _ _ _ => execHatchLenWrite_alone_sched _ _ _ hw,
    fun _ _ _ _ => execHatchVerifyStart_alone_sched _ _ _ hw,
    fun _ _ => execHatchVerifyDone_alone_sched _ hw,
    fun _ _ _ => execEgressFrameBoundary_alone_sched _ _ hw,
    fun _ _ => execHatchEntry_alone_sched _ hw,
    fun _ _ _ _ => execHatchArm_alone_sched _ _ _ hw,
    fun _ _ _ _ => execHatchArmNext_alone_sched _ _ _ hw,
    fun _ _ _ _ => execHatchDisarm_alone_sched _ _ _ hw,
    fun _ _ _ _ => execRingTailWrite_alone_ring _ _ _ hw,
    fun _ _ _ => execRingResume_alone_ring _ _ hw,
    fun _ _ => execRehomeDone_alone_ring _ hw⟩

end Sys2Proof.Machine
end

section
/-! PROOF. Reading a state that updates have made. A read after a write asks that the tables have their canonical form: that is
carried along as a `Fact`, which every update keeps, so that `simp` can run an update and read the outcome. -/

namespace Sys2Proof.Machine

set_option Elab.async false

/-- Every update keeps the form of the tables, as a fact that later reads find by themselves. -/
theorem Upd.keeps_fact (u : Upd) (s : State) [h : Fact s.wf] : Fact (u.run s).wf := ⟨u.keeps_wf h.out⟩

/-- A command to the switch die completes with what its update leaves. -/
theorem gives_awake {i : Instr} {u : Upd} {s : State} {P : State → Prop} (hs : s.Awake) (he : exec i s = u.answer s)
    (h : Fact s.wf → (∀ (v : Upd) (t : State) [Fact t.wf], Fact (v.run t).wf) → P (u.run s)) : Gives i s P :=
  ⟨_, he.trans (answer_awake u hs.2), h ⟨hs.1⟩ Upd.keeps_fact⟩

/-- A command that acts in every state completes with what its update leaves. -/
theorem gives_always {i : Instr} {u : Upd} {s : State} {P : State → Prop} (hw : s.wf) (he : exec i s = u.always s)
    (h : Fact s.wf → (∀ (v : Upd) (t : State) [Fact t.wf], Fact (v.run t).wf) → P (u.run s)) : Gives i s P :=
  ⟨_, he, h ⟨hw⟩ Upd.keeps_fact⟩

/-- A statement of what a command gives speaks of the state it answers. -/
theorem Gives.holds {i : Instr} {s t : State} {P : State → Prop} (h : Gives i s P) (he : exec i s = .next t) : P t := by
  obtain ⟨t', he', hP⟩ := h
  obtain rfl : t = t' := Host.Outcome.next.inj (he.symm.trans he')
  exact hP

theorem when_run (c : Bool) (u : Upd) (s : State) : (when_ c u).run s = if c = true then u.run s else s := by
  cases c <;> rfl

theorem ite_run (c : Prop) [Decidable c] (u v : Upd) (s : State) : (if c then u else v).run s = if c then u.run s else v.run s := by
  split <;> rfl

/-! ### Reading after a choice -/

section
variable (c : Bool) (u v : Upd) (s : State)

@[simp] theorem rd_when (pg : Pg) (f : Fld) (i : Nat) :
    ((when_ c u).run s).rd pg f i = if c = true then (u.run s).rd pg f i else s.rd pg f i := by cases c <;> rfl

@[simp] theorem rdSt_when (st : Nat) (pg : Pg) (f : Fld) (i : Nat) :
    ((when_ c u).run s).rdSt st pg f i = if c = true then (u.run s).rdSt st pg f i else s.rdSt st pg f i := by cases c <;> rfl

@[simp] theorem iv_when (x : Var) (i : Nat) :
    ((when_ c u).run s).iv x i = if c = true then (u.run s).iv x i else s.iv x i := by cases c <;> rfl

@[simp] theorem fifo_when (q : Fifo) (i : Nat) :
    ((when_ c u).run s).fifo q i = if c = true then (u.run s).fifo q i else s.fifo q i := by cases c <;> rfl

@[simp] theorem cnt_when (pg : Pg) (i : Nat) :
    ((when_ c u).run s).cnt pg i = if c = true then (u.run s).cnt pg i else s.cnt pg i := by cases c <;> rfl

@[simp] theorem out_when : ((when_ c u).run s).out = if c = true then (u.run s).out else s.out := by cases c <;> rfl

@[simp] theorem now_when : ((when_ c u).run s).now = if c = true then (u.run s).now else s.now := by cases c <;> rfl

@[simp] theorem greqs_when : ((when_ c u).run s).greqs = if c = true then (u.run s).greqs else s.greqs := by cases c <;> rfl

@[simp] theorem buf_when : ((when_ c u).run s).buf = if c = true then (u.run s).buf else s.buf := by cases c <;> rfl

@[simp] theorem waiting_when : ((when_ c u).run s).waiting = if c = true then (u.run s).waiting else s.waiting := by cases c <;> rfl

@[simp] theorem slots_when : ((when_ c u).run s).slots = if c = true then (u.run s).slots else s.slots := by cases c <;> rfl

@[simp] theorem fwd_when : ((when_ c u).run s).fwd = if c = true then (u.run s).fwd else s.fwd := by cases c <;> rfl

@[simp] theorem prefs_when : ((when_ c u).run s).prefs = if c = true then (u.run s).prefs else s.prefs := by cases c <;> rfl

@[simp] theorem descs_when : ((when_ c u).run s).descs = if c = true then (u.run s).descs else s.descs := by cases c <;> rfl

@[simp] theorem replay_when : ((when_ c u).run s).replay = if c = true then (u.run s).replay else s.replay := by cases c <;> rfl

variable (p : Prop) [Decidable p]

@[simp] theorem rd_choice (pg : Pg) (f : Fld) (i : Nat) :
    ((if p then u else v).run s).rd pg f i = if p then (u.run s).rd pg f i else (v.run s).rd pg f i := by split <;> rfl

@[simp] theorem iv_choice (x : Var) (i : Nat) :
    ((if p then u else v).run s).iv x i = if p then (u.run s).iv x i else (v.run s).iv x i := by split <;> rfl

@[simp] theorem fifo_choice (q : Fifo) (i : Nat) :
    ((if p then u else v).run s).fifo q i = if p then (u.run s).fifo q i else (v.run s).fifo q i := by split <;> rfl

@[simp] theorem cnt_choice (pg : Pg) (i : Nat) :
    ((if p then u else v).run s).cnt pg i = if p then (u.run s).cnt pg i else (v.run s).cnt pg i := by split <;> rfl

@[simp] theorem out_choice : ((if p then u else v).run s).out = if p then (u.run s).out else (v.run s).out := by split <;> rfl

@[simp] theorem greqs_choice : ((if p then u else v).run s).greqs = if p then (u.run s).greqs else (v.run s).greqs := by split <;> rfl

@[simp] theorem buf_choice : ((if p then u else v).run s).buf = if p then (u.run s).buf else (v.run s).buf := by split <;> rfl

end

/-- What was sent stays sent. -/
theorem out_grows {u : Upd} {s : State} {o : Out} (ho : o ∈ s.out) : o ∈ (u.run s).out := by
  obtain ⟨l, hl⟩ := (u.ok s).out
  exact hl ▸ List.mem_append_right l ho

@[simp] theorem b2n_true : b2n true = 1 := rfl
@[simp] theorem b2n_false : b2n false = 0 := rfl

@[simp] theorem b2n_eq_zero {b : Bool} : b2n b = 0 ↔ b = false := by cases b <;> simp
@[simp] theorem b2n_eq_one {b : Bool} : b2n b = 1 ↔ b = true := by cases b <;> simp

@[simp] theorem b2n_bne_zero (b : Bool) : (b2n b != 0) = b := by cases b <;> rfl

@[simp] theorem b2n_mod {w : Nat} (hw : 0 < w) (b : Bool) : b2n b % 2 ^ w = b2n b :=
  Nat.mod_eq_of_lt (by
    have : 2 ≤ 2 ^ w := Nat.le_self_pow hw.ne' 2
    cases b <;> simp only [b2n_true, b2n_false] <;> omega)

theorem clearBits_lt {n w : Nat} (h : n < 2 ^ w) (m : Nat) : clearBits n m < 2 ^ w :=
  Nat.xor_lt_two_pow h (lt_of_le_of_lt Nat.and_le_left h)

@[simp] theorem rd_mod (s : State) (pg : Pg) (f : Fld) (i : Nat) : s.rd pg f i % 2 ^ f.width = s.rd pg f i :=
  Nat.mod_eq_of_lt (rd_lt ..)

@[simp] theorem clearBits_rd_mod (s : State) (pg : Pg) (f : Fld) (i m : Nat) :
    clearBits (s.rd pg f i) m % 2 ^ f.width = clearBits (s.rd pg f i) m := Nat.mod_eq_of_lt (clearBits_lt (rd_lt ..) m)

/-- A flag that does not read 0 reads 1. -/
theorem rd_one_of_ne {s : State} {pg : Pg} {f : Fld} {i : Nat} (hw : f.width = 1) (h : s.rd pg f i ≠ 0) : s.rd pg f i = 1 := by
  have hlt : s.rd pg f i < 2 ^ 1 := hw ▸ rd_lt s pg f i
  omega

/-- A flag that is set reads 1. -/
theorem rd_of_on {s : State} {pg : Pg} {f : Fld} {i : Nat} (hw : f.width = 1) (h : s.on pg f i = true) : s.rd pg f i = 1 := by
  exact rd_one_of_ne hw (by simpa [State.on] using h)

/-- A flag that is not set reads 0. -/
theorem rd_of_not_on {s : State} {pg : Pg} {f : Fld} {i : Nat} (h : s.on pg f i = false) : s.rd pg f i = 0 := by
  simpa [State.on] using h

/-! ### The pages with a number -/

@[simp] theorem common_of_kind : Pg.glb.common = true ∧ Pg.schedg.common = true ∧ Pg.pwrg.common = true ∧ Pg.moverg.common = true ∧
    ∀ n, (Pg.mgmt n).common = true ∧ (Pg.sec n).common = true ∧ (Pg.guard n).common = true ∧ (Pg.lane n).common = true ∧
      (Pg.pwr n).common = true ∧ (Pg.core n).common = true ∧ (Pg.route n).common = true ∧ (Pg.bridge n).common = true ∧
      (Pg.mbox n).common = true ∧ (Pg.port n).common = true ∧ (Pg.face n).common = true ∧ (Pg.sched n).common = true ∧
      (Pg.inst n).common = true ∧ (Pg.eng n).common = true ∧ (Pg.tenant n).common = false ∧ (Pg.ring n).common = false := by
  simp [Pg.common]

@[simp] theorem fam_of_kind : Fam.of .glb = .glb ∧ Fam.of .schedg = .schedg ∧ Fam.of .pwrg = .pwrg ∧ Fam.of .moverg = .moverg ∧
    ∀ n, Fam.of (.mgmt n) = .mgmt ∧ Fam.of (.sec n) = .sec ∧ Fam.of (.guard n) = .guard ∧ Fam.of (.lane n) = .lane ∧
      Fam.of (.pwr n) = .pwr ∧ Fam.of (.core n) = .core ∧ Fam.of (.route n) = .route ∧ Fam.of (.bridge n) = .bridge ∧
      Fam.of (.mbox n) = .mbox ∧ Fam.of (.port n) = .port ∧ Fam.of (.face n) = .face ∧ Fam.of (.sched n) = .sched ∧
      Fam.of (.inst n) = .inst ∧ Fam.of (.eng n) = .eng ∧ Fam.of (.tenant n) = .tenant ∧ Fam.of (.ring n) = .ring := by
  simp [Fam.of]

/-- The register tables of the pages that are many alike. -/
@[simp] theorem tab_of_kind : ∀ n, (Pg.lane n).tab = tabLANE ∧ (Pg.pwr n).tab = tabPWR ∧ (Pg.port n).tab = tabPORT ∧
    (Pg.face n).tab = tabFACE ∧ (Pg.sched n).tab = tabSCHED ∧ (Pg.eng n).tab = tabENG ∧ (Pg.tenant n).tab = tabTENANT ∧
    (Pg.ring n).tab = tabRING := by
  simp [Pg.tab]

@[simp] theorem mem_fields_of_common {pg : Pg} (hc : pg.common = true) {f : Fld} : f ∈ pg.fields ↔ f ∈ tabHDR ∨ f ∈ pg.tab := by
  simp [Pg.fields, hc]

@[simp] theorem fields_of_plain {pg : Pg} (hc : pg.common = false) : pg.fields = pg.tab := by
  simp [Pg.fields, hc]

/-! ### One write, one read -/

section
variable {s : State} [h : Fact s.wf]

@[simp] theorem rd_wr (pg : Pg) (f : Fld) (v i : Nat) : ((wr pg f v i).run s).rd pg f i = v % 2 ^ f.width := rd_wr_self h.out ..

@[simp] theorem rd_wr_of_ne {pg pg' : Pg} {f f' : Fld} (hf : f ∈ pg.fields) (hf' : f' ∈ pg'.fields) (hne : f' ≠ f) (v i i' : Nat) :
    ((wr pg f v i).run s).rd pg' f' i' = s.rd pg' f' i' :=
  rd_wr_other h.out hf hf' (fun e => hne e.2) v i i'

@[simp] theorem rd_wr_of_page_ne {pg pg' : Pg} {f f' : Fld} (hf : f ∈ pg.fields) (hf' : f' ∈ pg'.fields) (hne : pg' ≠ pg) (v i i' : Nat) :
    ((wr pg f v i).run s).rd pg' f' i' = s.rd pg' f' i' :=
  rd_wr_other h.out hf hf' (fun e => hne e.1) v i i'

/-- The entries of an array have keys of their own. -/
theorem Fld.key_index_inj {pg : Pg} {f : Fld} (hf : f ∈ pg.fields) (hst : f.stride ≠ 0) {i j : Nat} (he : f.key pg i = f.key pg j) : i = j := by
  have ha : f.addr pg i = f.addr pg j := by
    unfold Fld.key at he
    omega
  obtain ⟨-, -, hlast⟩ := Fld.fits_of_mem hf
  have hfar : ∀ n, 2 ^ 26 * 1 ≤ 2 ^ 26 * (1 + pairUp pg.code n) := fun n => Nat.mul_le_mul_left _ (by omega)
  rcases f.addr_cases pg i with ⟨hok, hi, hai⟩ | hai <;> rcases f.addr_cases pg j with ⟨hok', hj, haj⟩ | haj
  · exact Nat.eq_of_mul_eq_mul_right (Nat.pos_of_ne_zero hst) (by omega)
  · have := Pg.inSpace hok
    have := Fld.within_last hi
    have := hfar j
    omega
  · have := Pg.inSpace hok'
    have := Fld.within_last hj
    have := hfar i
    omega
  · exact (pairUp_inj (by omega : pairUp pg.code i = pairUp pg.code j)).2

@[simp] theorem rd_wr_of_index_ne {pg : Pg} {f : Fld} (hf : f ∈ pg.fields) (hst : f.stride ≠ 0) {i j : Nat} (hne : j ≠ i) (v : Nat) :
    ((wr pg f v i).run s).rd pg f j = s.rd pg f j := rd_wr_ne h.out v fun he => hne (Fld.key_index_inj hf hst he)

@[simp] theorem rdSt_wrSt (st : Nat) (pg : Pg) (f : Fld) (v i : Nat) :
    ((wrSt st pg f v i).run s).rdSt st pg f i = v % 2 ^ f.width := rdSt_wrSt_self h.out ..

@[simp] theorem iv_put (x y : Var) (v i j : Nat) : ((put x v i).run s).iv y j = if y = x ∧ j = i then v else s.iv y j := by
  split
  · next e => rw [e.1, e.2, iv_put_self h.out]
  · next e => exact iv_put_other h.out e v

omit h in
@[simp] theorem on_put (x : Var) (v i : Nat) (pg : Pg) (f : Fld) (j : Nat) : ((put x v i).run s).on pg f j = s.on pg f j := rfl

@[simp] theorem fifo_putFifo (q r : Fifo) (l : List Nat) (i j : Nat) :
    ((putFifo q l i).run s).fifo r j = if r = q ∧ j = i then l else s.fifo r j := by
  split
  · next e => rw [e.1, e.2, fifo_putFifo_self h.out]
  · next e => exact fifo_putFifo_other h.out e l

@[simp] theorem cnt_setCnt (pg pg' : Pg) (i v j : Nat) :
    ((setCnt pg i v).run s).cnt pg' j = if pg' = pg ∧ j = i then min v cntMax else s.cnt pg' j := by
  split
  · next e => rw [e.1, e.2, cnt_setCnt_self h.out]
  · next e => exact cnt_setCnt_other h.out e v

end

/-! ### Reading after a clear -/

/-- A table without a key reads as its default there. -/
theorem get_of_not_mem {α : Type} {m : Map α} {k : Nat} (d : α) (h : ∀ e ∈ m, e.1 ≠ k) : m.get k d = d := by
  induction m with
  | nil => rfl
  | cons e r ih =>
    obtain ⟨k', v⟩ := e
    have hr := ih fun e he => h e (List.mem_cons_of_mem _ he)
    have hk : k' ≠ k := h _ (List.mem_cons_self ..)
    simp [Map.get, hk, hr]

/-- What a filter drops from a table reads as the default. -/
theorem get_keep_not {α : Type} {m : Map α} {p : Nat → Bool} {k : Nat} (d : α) (hp : p k = false) : (m.keep p).get k d = d := by
  refine get_of_not_mem d fun e he hk => ?_
  have := (List.mem_filter.1 he).2
  rw [hk, hp] at this
  cases this

/-- What a table reads is an entry of it or the default. -/
theorem get_mem_or {α : Type} (m : Map α) (k : Nat) (d : α) : (∃ e ∈ m, m.get k d = e.2) ∨ m.get k d = d := by
  induction m with
  | nil => exact .inr rfl
  | cons e r ih =>
    unfold Map.get
    split
    · exact .inl ⟨e, List.mem_cons_self .., rfl⟩
    · split
      · exact .inr rfl
      · exact ih.imp_left fun ⟨x, hx, hv⟩ => ⟨x, List.mem_cons_of_mem _ hx, hv⟩

/-- A field of a page that the part has lies in the page. -/
theorem inPage_field {pg : Pg} {f : Fld} {i : Nat} (hm : f ∈ pg.fields) (hp : pg.ok = true) (hi : i < f.count ∨ f.stride = 0) :
    inPage pg (f.key pg i) = true := by
  obtain ⟨-, hlo, hlast⟩ := Fld.fits_of_mem hm
  have hin := Fld.within_last hi
  have hk : f.key pg i / 32 = pg.base + (f.off + i * f.stride) := by
    have ha : f.addr pg i = pg.base + f.off + i * f.stride := by
      unfold Fld.addr
      rw [if_pos (by simpa [hp] using hi)]
    unfold Fld.key
    omega
  unfold inPage
  simp only [hp, hk, Bool.true_and, Bool.and_eq_true, decide_eq_true_eq]
  omega

/-- A page's reset returns what it does not keep to the reset value (R44). -/
theorem rd_resetPage {pg : Pg} {f : Fld} {i : Nat} {r : Rst} (hm : f ∈ pg.fields) (hp : pg.ok = true) (hi : i < f.count ∨ f.stride = 0)
    (hk : f.kept.testBit r.bit = false) (s : State) : ((resetPage pg r).run s).rd pg f i = f.reset pg i % 2 ^ f.width := by
  have hin := inPage_field hm hp hi
  refine congrArg (· % _) (get_keep_not (m := s.regs) (p := fun k => !(inPage pg k) || keptAt pg r k) _ ?_)
  simp [hin, (inPage_key hm hin r).2, hk]

/-- A page's reset leaves what it keeps. -/
theorem rd_resetPage_kept {pg : Pg} {f : Fld} {r : Rst} (hm : f ∈ pg.fields) (hk : f.kept.testBit r.bit = true) (s : State) (i : Nat)
    [h : Fact s.wf] : ((resetPage pg r).run s).rd pg f i = s.rd pg f i := by
  refine congrArg (· % _) (get_keep_of (p := fun k => !(inPage pg k) || keptAt pg r k) h.out.1 _ ?_)
  cases hin : inPage pg (f.key pg i)
  · rfl
  · simp [(inPage_key hm hin r).2, hk]

/-- A page's reset leaves the other pages. -/
@[simp] theorem rd_resetPage_of_page_ne {pg pg' : Pg} {f : Fld} {r : Rst} (hm : f ∈ pg'.fields) (hne : pg' ≠ pg) (s : State) (i : Nat)
    [h : Fact s.wf] : ((resetPage pg r).run s).rd pg' f i = s.rd pg' f i := by
  refine congrArg (· % _) (get_keep_of (p := fun k => !(inPage pg k) || keptAt pg r k) h.out.1 _ ?_)
  cases hin : inPage pg (f.key pg' i)
  · rfl
  · exact absurd (inPage_key hm hin r).1 hne

@[simp] theorem iv_resetPage (pg : Pg) (r : Rst) (s : State) (x : Var) (i : Nat) : ((resetPage pg r).run s).iv x i = s.iv x i := rfl

@[simp] theorem cnt_resetPage (pg pg' : Pg) (r : Rst) (s : State) (i : Nat) : ((resetPage pg r).run s).cnt pg' i = s.cnt pg' i := rfl

/-- No counter stands beyond 2^48 − 1 (R66). -/
theorem cnt_le_max (s : State) [h : Fact s.wf] (pg : Pg) (i : Nat) : s.cnt pg i ≤ cntMax := by
  obtain ⟨-, -, -, hmax, -⟩ := h.out
  rcases get_mem_or s.cnts (cntKey pg i) 0 with ⟨e, he, hv⟩ | hv
  · exact (show s.cnt pg i = e.2 from hv).trans_le (hmax e he)
  · exact (show s.cnt pg i = 0 from hv).trans_le (Nat.zero_le _)

@[simp] theorem cnt_min_max (s : State) [Fact s.wf] (pg : Pg) (i : Nat) : min (s.cnt pg i) cntMax = s.cnt pg i :=
  Nat.min_eq_left (cnt_le_max s pg i)

theorem outside_varKey (x y : Var) (p : Nat → Bool) (j : Nat) : outside x.ctorIdx p (y.key j) = !(decide (y = x) && p j) := by
  have hx := x.idx_lt
  have hy := y.idx_lt
  have hmod : (512 * j + y.ctorIdx) % 512 = y.ctorIdx := by omega
  have hdiv : (512 * j + y.ctorIdx) / 512 = j := by omega
  have hiff : y.ctorIdx = x.ctorIdx ↔ y = x :=
    ⟨fun he => (Var.key_inj (i := 0) (j := 0) (by simp [Var.key, he])).1, fun he => he ▸ rfl⟩
  rw [outside, Var.key, hmod, hdiv, Bool.beq_eq_decide_eq, decide_eq_decide.2 hiff]

theorem outside_fifoKey (x y : Fifo) (p : Nat → Bool) (j : Nat) : outside x.ctorIdx p (y.key j) = !(decide (y = x) && p j) := by
  have hx := x.idx_lt
  have hy := y.idx_lt
  have hmod : (512 * j + y.ctorIdx) % 512 = y.ctorIdx := by omega
  have hdiv : (512 * j + y.ctorIdx) / 512 = j := by omega
  have hiff : y.ctorIdx = x.ctorIdx ↔ y = x :=
    ⟨fun he => (Fifo.key_inj (i := 0) (j := 0) (by simp [Fifo.key, he])).1, fun he => he ▸ rfl⟩
  rw [outside, Fifo.key, hmod, hdiv, Bool.beq_eq_decide_eq, decide_eq_decide.2 hiff]

section
variable {s : State} [h : Fact s.wf]

@[simp] theorem iv_clearIv (x y : Var) (p : Nat → Bool) (j : Nat) :
    ((clearIv x p).run s).iv y j = if y = x ∧ p j = true then 0 else s.iv y j := by
  split
  · next hc => exact get_keep_not 0 (by rw [outside_varKey]; simp [hc])
  · next hc => exact get_keep_of h.out.2.2.2.2.1.1 0 (by rw [outside_varKey]; simpa [or_iff_not_imp_left] using hc)

@[simp] theorem fifo_clearFifo (q r : Fifo) (p : Nat → Bool) (j : Nat) :
    ((clearFifo q p).run s).fifo r j = if r = q ∧ p j = true then [] else s.fifo r j := by
  split
  · next hc => exact get_keep_not [] (by rw [outside_fifoKey]; simp [hc])
  · next hc => exact get_keep_of h.out.2.2.2.2.2.1 [] (by rw [outside_fifoKey]; simpa [or_iff_not_imp_left] using hc)

/-- A counter of a page after some of the page's counters are cleared. -/
theorem cnt_clearCnts {pg : Pg} (hp : pg.ok = true) {i : Nat} (hi : i < pg.size) (p : Nat → Bool) :
    ((clearCnts pg p).run s).cnt pg i = if p i = true then 0 else s.cnt pg i := by
  have hkey : otherCnt pg p (cntKey pg i) = !p i := by
    simp [otherCnt, cntKey, hp, hi]
  split
  · next hc => exact get_keep_not 0 (by simp [hkey, hc])
  · next hc => exact get_keep_of h.out.2.2.1.1 0 (by simpa [hkey] using hc)

end

/-! ### What an update that stays within a foot leaves -/

section
variable {F : Foot} {u : Upd} {s : State} (hu : u.In F) [h : Fact s.wf]
include hu h

theorem rd_of_in {pg : Pg} {f : Fld} {i : Nat} (hm : f ∈ pg.fields) (hn : (Fam.of pg, f) ∉ F.regs) :
    (u.run s).rd pg f i = s.rd pg f i := (hu s h.out).regs pg f i hm hn

theorem rdSt_of_in {st : Nat} {pg : Pg} {f : Fld} {i : Nat} (hm : f ∈ pg.fields) (hn : (Fam.of pg, f) ∉ F.regs) :
    (u.run s).rdSt st pg f i = s.rdSt st pg f i := (hu s h.out).stamps st pg f i hm hn

theorem cnt_of_in {pg : Pg} {i : Nat} (hn : Fam.of pg ∉ F.cnts) : (u.run s).cnt pg i = s.cnt pg i := (hu s h.out).cnts pg i hn

theorem iv_of_in {x : Var} {i : Nat} (hn : x ∉ F.vars) : (u.run s).iv x i = s.iv x i := (hu s h.out).ivs x i hn

theorem fifo_of_in {q : Fifo} {i : Nat} (hn : q ∉ F.fifos) : (u.run s).fifo q i = s.fifo q i := (hu s h.out).fifos q i hn

theorem now_of_in (hn : .now ∉ F.parts) : (u.run s).now = s.now := (hu s h.out).now hn

theorem greqs_of_in (hn : .greqs ∉ F.parts) : (u.run s).greqs = s.greqs := (hu s h.out).greqs hn

theorem buf_of_in (hn : .buf ∉ F.parts) : (u.run s).buf = s.buf := (hu s h.out).buf hn

theorem waiting_of_in (hn : .waiting ∉ F.parts) : (u.run s).waiting = s.waiting := (hu s h.out).waiting hn

theorem replay_of_in (hn : .replay ∉ F.parts) : (u.run s).replay = s.replay := (hu s h.out).replay hn

theorem slots_of_in (hn : .slots ∉ F.parts) : (u.run s).slots = s.slots := (hu s h.out).slots hn

theorem fwd_of_in (hn : .fwd ∉ F.parts) : (u.run s).fwd = s.fwd := (hu s h.out).fwd hn

theorem prefs_of_in (hn : .prefs ∉ F.parts) : (u.run s).prefs = s.prefs := (hu s h.out).prefs hn

theorem descs_of_in (hn : .descs ∉ F.parts) : (u.run s).descs = s.descs := (hu s h.out).descs hn

theorem free_of_in (hn : .free ∉ F.parts) : (u.run s).free = s.free := (hu s h.out).free hn

theorem out_of_in (hn : .out ∉ F.parts) : (u.run s).out = s.out := (hu s h.out).out hn

end

/-! ### Errors, counts and interrupts -/

/-- A field kept per stamp that is written leaves the others. -/
@[simp] theorem rdSt_wrSt_of_ne {c : Nat} {pg pg' : Pg} {f f' : Fld} (hf : f ∈ pg.fields) (hf' : f' ∈ pg'.fields) (hne : f' ≠ f)
    (c' v i i' : Nat) {s : State} [Fact s.wf] : ((wrSt c pg f v i).run s).rdSt c' pg' f' i' = s.rdSt c' pg' f' i' :=
  rdSt_of_in (wrSt_in (F := { regs := [(Fam.of pg, f)] }) hf (by simp)) hf' (by simp [hne])

@[simp] theorem raise_eq (pg : Pg) (e : Err) : raise pg e = raiseAll pg [{ err := e }] := rfl
@[simp] theorem raiseIn_eq (pg : Pg) (e : Err) (d : Dom) : raiseIn pg e d = raiseAll pg [{ err := e, dom := some (.dom d) }] := rfl
@[simp] theorem raiseFor_eq (pg : Pg) (e : Err) (n : Nat) :
    raiseFor pg e n = raiseAll pg [{ err := e, dom := some (.feid n), detail0 := n % 8192 }] := rfl
@[simp] theorem bump_eq (pg : Pg) (i : Nat) : bump pg i = addCnt pg i 1 := rfl

/-- A sticky error bit of a page that is set. -/
def State.sticks (s : State) (pg : Pg) (k : Nat) : Prop := (s.rd pg .ERR_STICKY_BITS).testBit k = true

/-- The update clears no sticky error bit of a page. -/
def Upd.KeepsSticky (u : Upd) (pg : Pg) : Prop := ∀ s, s.wf → ∀ k, s.sticks pg k → (u.run s).sticks pg k

section
variable {pg : Pg}

theorem all_keepsSticky {us : List Upd} (h : ∀ u ∈ us, u.KeepsSticky pg) : (all us).KeepsSticky pg := by
  induction us with
  | nil => exact fun _ _ _ hk => hk
  | cons u us ih =>
    intro s hw k hk
    exact ih (fun v hv => h v (List.mem_cons_of_mem _ hv)) _ (u.keeps_wf hw) k (h u (List.mem_cons_self ..) s hw k hk)

theorem look_keepsSticky {f : State → Upd} (h : ∀ s, (f s).KeepsSticky pg) : (look f).KeepsSticky pg := fun s => h s s

theorem when_keepsSticky {c : Bool} {u : Upd} (h : u.KeepsSticky pg) : (when_ c u).KeepsSticky pg := by
  cases c
  · exact fun _ _ _ hk => hk
  · exact h

theorem forEach_keepsSticky {α : Type} {l : List α} {f : α → Upd} (h : ∀ a, (f a).KeepsSticky pg) : (forEach l f).KeepsSticky pg :=
  all_keepsSticky fun u hu => by
    obtain ⟨a, -, rfl⟩ := List.mem_map.1 hu
    exact h a

/-- What does not touch the sticky bits of a page's family keeps them. -/
theorem keepsSticky_of_in {F : Foot} {u : Upd} (hc : pg.common = true) (hu : u.In F) (hn : (Fam.of pg, Fld.ERR_STICKY_BITS) ∉ F.regs) :
    u.KeepsSticky pg := by
  intro s hw k hk
  have := Fact.mk hw
  rwa [State.sticks, rd_of_in hu (hdr_mem hc (by decide)) hn]

theorem testBit_foldl_setBit {l : List Raised} {w k : Nat} (hw : w.testBit k = true ∨ ∃ r ∈ l, r.err.bit = k) :
    (l.foldl (fun w r => setBit w r.err.bit) w).testBit k = true := by
  induction l generalizing w with
  | nil => simpa using hw
  | cons r l ih =>
    refine ih ?_
    rcases hw with hw | ⟨q, hq, rfl⟩
    · exact .inl (by simp [setBit, hw])
    · rcases List.mem_cons.1 hq with rfl | hq
      · exact .inl (by simp [setBit, Nat.testBit_shiftLeft])
      · exact .inr ⟨q, hq, rfl⟩

/-- Noting errors sets their bits and clears none (R58). -/
theorem noteErrs_sticks {s : State} (hw : s.wf) (hc : pg.common = true) {rs : List Raised} {k : Nat} (hk : k < 32)
    (h : s.sticks pg k ∨ ∃ r ∈ rs, r.err.bit = k) : ((noteErrs pg rs).run s).sticks pg k := by
  have := Fact.mk hw
  have hreq (l : List Raised) (f : Raised → List GReq → List GReq) : (all [forEach l fun r => modGreqs (f r)]).In (Foot.others [.greqs]) :=
    all_cons_in (forEach_in fun _ => modGreqs_in (by decide)) all_nil_in
  rw [noteErrs, look_run, State.sticks, rd_all_cons (hreq _ _) hw (hdr_mem hc (by decide)) List.not_mem_nil, rd_wr,
    show Fld.ERR_STICKY_BITS.width = 32 from rfl, Nat.testBit_mod_two_pow, testBit_foldl_setBit h]
  simp [hk]

theorem sticks_lt {s : State} {k : Nat} (h : s.sticks pg k) : k < 32 := by
  have hlt : s.rd pg .ERR_STICKY_BITS < 2 ^ 32 := Nat.mod_lt _ (Nat.two_pow_pos _)
  exact (Nat.pow_lt_pow_iff_right (by decide)).1 (lt_of_le_of_lt (Nat.ge_two_pow_of_testBit h) hlt)

theorem noteErrs_keepsSticky (hc : pg.common = true) {pg' : Pg} (hc' : pg'.common = true) (rs : List Raised) :
    (noteErrs pg' rs).KeepsSticky pg := by
  intro s hw k hk
  by_cases he : pg' = pg
  · subst he
    exact noteErrs_sticks hw hc (sticks_lt hk) (.inl hk)
  · have := Fact.mk hw
    have hreq (l : List Raised) (f : Raised → List GReq → List GReq) :
        (all [forEach l fun r => modGreqs (f r)]).In (Foot.others [.greqs]) :=
      all_cons_in (forEach_in fun _ => modGreqs_in (by decide)) all_nil_in
    rw [noteErrs, look_run, State.sticks, rd_all_cons (hreq _ _) hw (hdr_mem hc (by decide)) List.not_mem_nil,
      rd_wr_of_page_ne (hdr_mem hc' (by decide)) (hdr_mem hc (by decide)) (Ne.symm he)]
    exact hk

/-- The fields of a first-error capture. -/
def captureFields : List Fld :=
  [.ERR_FIRST_VALID, .ERR_FIRST_CLASS, .ERR_FIRST_INDEX, .ERR_FIRST_MORE, .ERR_FIRST_TS_TS, .ERR_FIRST_TS_TS_HI]

theorem captureErrs_keepsSticky (hc : pg.common = true) {pg' : Pg} (hc' : pg'.common = true) (unm : List Raised) :
    (captureErrs pg' unm).KeepsSticky pg := by
  have hr : ∀ {f : Fld}, f ∈ captureFields → ∀ v, (wr pg' f v).In (Foot.fields (Fam.of pg') captureFields) := fun hf v =>
    wr_in (hdr_mem hc' ((show ∀ f ∈ captureFields, f ∈ tabHDR by decide) _ hf)) (fields_regs hf)
  refine keepsSticky_of_in hc (F := Foot.fields (Fam.of pg') captureFields) (look_in fun s => forSome_in fun x => ?_) ?_
  · dsimp only
    split
    · exact hr (by decide) _
    · exact all_cons_in (hr (by decide) _) <| all_cons_in (hr (by decide) _) <| all_cons_in (hr (by decide) _) <|
        all_cons_in (hr (by decide) _) <| all_cons_in (hr (by decide) _) <| all_cons_in (hr (by decide) _) all_nil_in
  · intro hm
    obtain ⟨f, hf, he⟩ := List.mem_map.1 hm
    exact (show Fld.ERR_STICKY_BITS ∉ captureFields by decide) ((Prod.mk.inj he).2 ▸ hf)

theorem reportErrs_keepsSticky (hc : pg.common = true) {pg' : Pg} (hc' : pg'.common = true) (unm : List Raised) :
    (reportErrs pg' unm).KeepsSticky pg := by
  have hF := Foot.and_le.1 (Foot.le_refl (Foot.interrupt.and (Foot.fields (Fam.of pg') [.INT_CAUSE_ERR])))
  refine keepsSticky_of_in hc (reportErrs_in hc' hF.1 (le_regs hF.2 (fields_regs (List.mem_singleton.2 rfl))) unm) ?_
  generalize Fam.of pg = k
  generalize Fam.of pg' = k'
  cases k <;> cases k' <;> decide

theorem addCnt_keepsSticky (hc : pg.common = true) {pg' : Pg} (hc' : pg'.common = true) (i n : Nat) :
    (addCnt pg' i n).KeepsSticky pg := by
  refine keepsSticky_of_in hc (addCnt_in hc' (Foot.le_refl _) i n) ?_
  generalize Fam.of pg = k
  generalize Fam.of pg' = k'
  cases k <;> cases k' <;> decide

theorem elogLost_keepsSticky (hc : pg.common = true) (n : Nat) : (elogLost n).KeepsSticky pg := by
  refine look_keepsSticky fun s => all_keepsSticky ?_
  simp only [List.forall_mem_cons, List.not_mem_nil, false_imp_iff, implies_true, and_true]
  refine ⟨?_, addCnt_keepsSticky hc rfl _ _, noteErrs_keepsSticky hc rfl _, captureErrs_keepsSticky hc rfl _,
    reportErrs_keepsSticky hc rfl _⟩
  exact keepsSticky_of_in hc (F := Foot.fields .guard [.GUARD_ELOG_CTRL_LOST])
    (wr_in (own_mem (by decide +kernel)) (by decide)) (by simp [Foot.fields, Fld.ERR_STICKY_BITS, Fld.GUARD_ELOG_CTRL_LOST])

theorem logRec_keepsSticky (hc : pg.common = true) (r : Rec) : (logRec r).KeepsSticky pg := by
  have hlog (l : List Nat) : (putFifo .elog l).KeepsSticky pg :=
    keepsSticky_of_in hc (putFifo_in (F := Foot.queues [.elog]) (by decide)) List.not_mem_nil
  have hseq (v : Nat) : (put .elogSeq v).KeepsSticky pg :=
    keepsSticky_of_in hc (put_in (F := Foot.numbers [.elogSeq]) (by decide)) List.not_mem_nil
  refine look_keepsSticky fun s => ?_
  dsimp only
  split
  · exact all_keepsSticky (by simp [hlog, hseq])
  · split
    · exact elogLost_keepsSticky hc _
    · exact all_keepsSticky (by simp [hlog, hseq, elogLost_keepsSticky hc])

/-- What follows the note of a page's errors clears no sticky bit. -/
theorem raiseAll_rest_keepsSticky (hc : pg.common = true) {pg' : Pg} (hc' : pg'.common = true) (unm ces : List Raised) (f : Raised → Rec) :
    (all [captureErrs pg' unm, forEach ces fun r => logRec (f r), reportErrs pg' unm]).KeepsSticky pg := by
  refine all_keepsSticky ?_
  simp only [List.forall_mem_cons, List.not_mem_nil, false_imp_iff, implies_true, and_true]
  refine ⟨captureErrs_keepsSticky hc hc' _, all_keepsSticky fun u hu => ?_, reportErrs_keepsSticky hc hc' _⟩
  obtain ⟨r, -, rfl⟩ := List.mem_map.1 hu
  exact logRec_keepsSticky hc _

/-- Recording errors clears no sticky bit of any page (R58). -/
theorem raiseAll_keepsSticky (hc : pg.common = true) {pg' : Pg} (hc' : pg'.common = true) (rs : List Raised) :
    (raiseAll pg' rs).KeepsSticky pg := fun _ hw k hk =>
  raiseAll_rest_keepsSticky hc hc' _ _ _ _ ((noteErrs pg' rs).keeps_wf hw) k (noteErrs_keepsSticky hc hc' rs _ hw k hk)

end

section
variable {s : State} [h : Fact s.wf]

/-- R58: the bits of the errors recorded are set. -/
theorem raiseAll_sets {pg : Pg} (hc : pg.common = true) {rs : List Raised} {k : Nat} (hr : ∃ r ∈ rs, r.err.bit = k) (hk : k < 32) :
    (((raiseAll pg rs).run s).rd pg .ERR_STICKY_BITS).testBit k = true :=
  raiseAll_rest_keepsSticky hc hc _ _ _ _ ((noteErrs pg rs).keeps_wf h.out) k (noteErrs_sticks h.out hc hk (.inr hr))

/-- R58, for one error. -/
@[simp] theorem raiseOne_sets {pg : Pg} (hc : pg.common = true) {e : Err} (hk : e.bit < 32) (d : Option ReqDom) (n : Nat) :
    (((raiseAll pg [⟨e, d, n⟩]).run s).rd pg .ERR_STICKY_BITS).testBit e.bit = true :=
  raiseAll_sets hc ⟨_, List.mem_singleton.2 rfl, rfl⟩ hk

/-- A bit that is set stays set when other errors are recorded. -/
@[simp] theorem raiseAll_sticks {pg pg' : Pg} (hc : pg.common = true) (hc' : pg'.common = true) {k : Nat}
    (hk : (s.rd pg .ERR_STICKY_BITS).testBit k = true) (rs : List Raised) :
    (((raiseAll pg' rs).run s).rd pg .ERR_STICKY_BITS).testBit k = true := raiseAll_keepsSticky hc hc' rs s h.out k hk

/-- The fields that an error touches, of whatever page. -/
def errorFields : List Fld := errFields ++ [.CNT_STAT_SAT, .INT_CAUSE_CNT_SAT, .GUARD_ELOG_CTRL_LOST]

theorem error_regs (k : Fam) : ∀ q ∈ (Foot.error k).regs, q.2 ∈ errorFields := by
  cases k <;> decide

theorem counting_regs (k : Fam) : ∀ q ∈ (Foot.counting k).regs, q.2 ∈ [Fld.CNT_STAT_SAT, .INT_CAUSE_CNT_SAT] := by
  cases k <;> decide

/-- A register field that no error touches. -/
@[simp] theorem rd_raiseAll_of_not_error {pg pg' : Pg} {f : Fld} (hc : pg.common = true) (hm : f ∈ pg'.fields) (hn : f ∉ errorFields)
    (rs : List Raised) (i : Nat) : ((raiseAll pg rs).run s).rd pg' f i = s.rd pg' f i :=
  rd_of_in (raiseAll_in hc (Foot.le_refl _) rs) hm fun h => hn (error_regs _ _ h)

/-- A register field that no error of `pg` touches. -/
@[simp] theorem rd_raiseAll {pg pg' : Pg} {f : Fld} (hc : pg.common = true) (hm : f ∈ pg'.fields)
    (hn : (Fam.of pg', f) ∉ (Foot.error (Fam.of pg)).regs) (rs : List Raised) (i : Nat) :
    ((raiseAll pg rs).run s).rd pg' f i = s.rd pg' f i := rd_of_in (raiseAll_in hc (Foot.le_refl _) rs) hm hn

@[simp] theorem rdSt_raiseAll {c : Nat} {pg pg' : Pg} {f : Fld} (hc : pg.common = true) (hm : f ∈ pg'.fields)
    (hn : (Fam.of pg', f) ∉ (Foot.error (Fam.of pg)).regs) (rs : List Raised) (i : Nat) :
    ((raiseAll pg rs).run s).rdSt c pg' f i = s.rdSt c pg' f i := rdSt_of_in (raiseAll_in hc (Foot.le_refl _) rs) hm hn

@[simp] theorem rdSt_addCnt {c : Nat} {pg pg' : Pg} {f : Fld} (hc : pg.common = true) (hm : f ∈ pg'.fields)
    (hn : (Fam.of pg', f) ∉ (Foot.counting (Fam.of pg)).regs) (k n i : Nat) :
    ((addCnt pg k n).run s).rdSt c pg' f i = s.rdSt c pg' f i := rdSt_of_in (addCnt_in hc (Foot.le_refl _) k n) hm hn

@[simp] theorem iv_raiseAll {pg : Pg} {x : Var} (hc : pg.common = true) (hn : x ∉ (Foot.error (Fam.of pg)).vars) (rs : List Raised)
    (i : Nat) : ((raiseAll pg rs).run s).iv x i = s.iv x i := iv_of_in (raiseAll_in hc (Foot.le_refl _) rs) hn

@[simp] theorem fifo_raiseAll {pg : Pg} {q : Fifo} (hc : pg.common = true) (hn : q ∉ (Foot.error (Fam.of pg)).fifos) (rs : List Raised)
    (i : Nat) : ((raiseAll pg rs).run s).fifo q i = s.fifo q i := fifo_of_in (raiseAll_in hc (Foot.le_refl _) rs) hn

@[simp] theorem cnt_raiseAll {pg pg' : Pg} (hc : pg.common = true) (hn : Fam.of pg' ∉ (Foot.error (Fam.of pg)).cnts) (rs : List Raised)
    (i : Nat) : ((raiseAll pg rs).run s).cnt pg' i = s.cnt pg' i := cnt_of_in (raiseAll_in hc (Foot.le_refl _) rs) hn

/-- A register field that no count touches. -/
@[simp] theorem rd_addCnt_of_not_counting {pg pg' : Pg} {f : Fld} (hc : pg.common = true) (hm : f ∈ pg'.fields)
    (hn : f ∉ [Fld.CNT_STAT_SAT, .INT_CAUSE_CNT_SAT]) (k n i : Nat) : ((addCnt pg k n).run s).rd pg' f i = s.rd pg' f i :=
  rd_of_in (addCnt_in hc (Foot.le_refl _) k n) hm fun h => hn (counting_regs _ _ h)

/-- A register field that no count of `pg` touches. -/
@[simp] theorem rd_addCnt {pg pg' : Pg} {f : Fld} (hc : pg.common = true) (hm : f ∈ pg'.fields)
    (hn : (Fam.of pg', f) ∉ (Foot.counting (Fam.of pg)).regs) (k n i : Nat) :
    ((addCnt pg k n).run s).rd pg' f i = s.rd pg' f i := rd_of_in (addCnt_in hc (Foot.le_refl _) k n) hm hn

@[simp] theorem iv_addCnt {pg : Pg} {x : Var} (hc : pg.common = true) (hn : x ∉ (Foot.counting (Fam.of pg)).vars) (k n i : Nat) :
    ((addCnt pg k n).run s).iv x i = s.iv x i := iv_of_in (addCnt_in hc (Foot.le_refl _) k n) hn

@[simp] theorem fifo_addCnt {pg : Pg} {q : Fifo} (hc : pg.common = true) (hn : q ∉ (Foot.counting (Fam.of pg)).fifos) (k n i : Nat) :
    ((addCnt pg k n).run s).fifo q i = s.fifo q i := fifo_of_in (addCnt_in hc (Foot.le_refl _) k n) hn

/-- A register field that no interrupt touches. -/
@[simp] theorem rd_sendInt {pg pg' : Pg} {f : Fld} (hm : f ∈ pg'.fields) (hn : f ∉ [Fld.CNT_STAT_SAT, .INT_CAUSE_CNT_SAT]) (i : Nat) :
    ((sendInt pg).run s).rd pg' f i = s.rd pg' f i :=
  rd_of_in (sendInt_in (Foot.le_refl Foot.interrupt) pg) hm fun h =>
    hn ((show ∀ q ∈ Foot.interrupt.regs, q.2 ∈ [Fld.CNT_STAT_SAT, .INT_CAUSE_CNT_SAT] by decide) _ h)

@[simp] theorem iv_sendInt {pg : Pg} {x : Var} (hn : x ≠ .msixPend) (i : Nat) : ((sendInt pg).run s).iv x i = s.iv x i :=
  iv_of_in (sendInt_in (Foot.le_refl Foot.interrupt) pg) (by simpa [Foot.interrupt] using hn)

theorem cnt_sendInt {pg pg' : Pg} (hn : Fam.of pg' ≠ .face) (i : Nat) : ((sendInt pg).run s).cnt pg' i = s.cnt pg' i :=
  cnt_of_in (sendInt_in (Foot.le_refl Foot.interrupt) pg) (by simpa [Foot.interrupt] using hn)

/-- What a count adds (R66), on a page whose counters no interrupt moves. -/
@[simp] theorem cnt_addCnt {pg pg' : Pg} (hc : pg.common = true) (hn : Fam.of pg' ≠ .face) (k n i : Nat) :
    ((addCnt pg k n).run s).cnt pg' i = if pg' = pg ∧ i = k then min (s.cnt pg k + n) cntMax else s.cnt pg' i := by
  have hraw : ((addCntRaw pg k n).run s).cnt pg' i = if pg' = pg ∧ i = k then min (s.cnt pg k + n) cntMax else s.cnt pg' i := by
    unfold addCntRaw
    cases hg : (if s.cnt pg k + n > cntMax then cntGroup pg k else none) <;> simp [hg]
  have hsat : (causingBy sendInt pg (wr pg .INT_CAUSE_CNT_SAT 1)).In
      (Foot.interrupt.and (Foot.fields (Fam.of pg) [.INT_CAUSE_CNT_SAT])) :=
    causing_in (Foot.and_le.1 (Foot.le_refl _)).1 <|
      wr_in (hdr_mem hc (by decide)) (le_regs (Foot.and_le.1 (Foot.le_refl _)).2 (fields_regs (by decide)))
  have hface : Fam.of pg' ∉ (Foot.interrupt.and (Foot.fields (Fam.of pg) [.INT_CAUSE_CNT_SAT])).cnts := by
    simpa [Foot.and, Foot.interrupt, Foot.fields] using hn
  have := Upd.keeps_fact (addCntRaw pg k n) s
  unfold addCnt addCntBy
  simp only [look_run, all_cons_run, all_nil_run]
  rw [cnt_of_in (when_in hsat) hface, hraw]

/-! What no error and no count touches. -/

@[simp] theorem now_raiseAll {pg : Pg} (hc : pg.common = true) (rs : List Raised) : ((raiseAll pg rs).run s).now = s.now :=
  now_of_in (raiseAll_in hc (Foot.le_refl _) rs) (by generalize Fam.of pg = k; cases k <;> decide)

@[simp] theorem buf_raiseAll {pg : Pg} (hc : pg.common = true) (rs : List Raised) : ((raiseAll pg rs).run s).buf = s.buf :=
  buf_of_in (raiseAll_in hc (Foot.le_refl _) rs) (by generalize Fam.of pg = k; cases k <;> decide)

@[simp] theorem waiting_raiseAll {pg : Pg} (hc : pg.common = true) (rs : List Raised) : ((raiseAll pg rs).run s).waiting = s.waiting :=
  waiting_of_in (raiseAll_in hc (Foot.le_refl _) rs) (by generalize Fam.of pg = k; cases k <;> decide)

@[simp] theorem replay_raiseAll {pg : Pg} (hc : pg.common = true) (rs : List Raised) : ((raiseAll pg rs).run s).replay = s.replay :=
  replay_of_in (raiseAll_in hc (Foot.le_refl _) rs) (by generalize Fam.of pg = k; cases k <;> decide)

@[simp] theorem slots_raiseAll {pg : Pg} (hc : pg.common = true) (rs : List Raised) : ((raiseAll pg rs).run s).slots = s.slots :=
  slots_of_in (raiseAll_in hc (Foot.le_refl _) rs) (by generalize Fam.of pg = k; cases k <;> decide)

@[simp] theorem fwd_raiseAll {pg : Pg} (hc : pg.common = true) (rs : List Raised) : ((raiseAll pg rs).run s).fwd = s.fwd :=
  fwd_of_in (raiseAll_in hc (Foot.le_refl _) rs) (by generalize Fam.of pg = k; cases k <;> decide)

@[simp] theorem prefs_raiseAll {pg : Pg} (hc : pg.common = true) (rs : List Raised) : ((raiseAll pg rs).run s).prefs = s.prefs :=
  prefs_of_in (raiseAll_in hc (Foot.le_refl _) rs) (by generalize Fam.of pg = k; cases k <;> decide)

@[simp] theorem descs_raiseAll {pg : Pg} (hc : pg.common = true) (rs : List Raised) : ((raiseAll pg rs).run s).descs = s.descs :=
  descs_of_in (raiseAll_in hc (Foot.le_refl _) rs) (by generalize Fam.of pg = k; cases k <;> decide)

@[simp] theorem free_raiseAll {pg : Pg} (hc : pg.common = true) (rs : List Raised) : ((raiseAll pg rs).run s).free = s.free :=
  free_of_in (raiseAll_in hc (Foot.le_refl _) rs) (by generalize Fam.of pg = k; cases k <;> decide)

@[simp] theorem free_addCnt {pg : Pg} (hc : pg.common = true) (k n : Nat) : ((addCnt pg k n).run s).free = s.free :=
  free_of_in (addCnt_in hc (Foot.le_refl _) k n) (by generalize Fam.of pg = k; cases k <;> decide)

@[simp] theorem now_addCnt {pg : Pg} (hc : pg.common = true) (k n : Nat) : ((addCnt pg k n).run s).now = s.now :=
  now_of_in (addCnt_in hc (Foot.le_refl _) k n) (by generalize Fam.of pg = k; cases k <;> decide)

@[simp] theorem buf_addCnt {pg : Pg} (hc : pg.common = true) (k n : Nat) : ((addCnt pg k n).run s).buf = s.buf :=
  buf_of_in (addCnt_in hc (Foot.le_refl _) k n) (by generalize Fam.of pg = k; cases k <;> decide)

@[simp] theorem waiting_addCnt {pg : Pg} (hc : pg.common = true) (k n : Nat) : ((addCnt pg k n).run s).waiting = s.waiting :=
  waiting_of_in (addCnt_in hc (Foot.le_refl _) k n) (by generalize Fam.of pg = k; cases k <;> decide)

@[simp] theorem replay_addCnt {pg : Pg} (hc : pg.common = true) (k n : Nat) : ((addCnt pg k n).run s).replay = s.replay :=
  replay_of_in (addCnt_in hc (Foot.le_refl _) k n) (by generalize Fam.of pg = k; cases k <;> decide)

@[simp] theorem slots_addCnt {pg : Pg} (hc : pg.common = true) (k n : Nat) : ((addCnt pg k n).run s).slots = s.slots :=
  slots_of_in (addCnt_in hc (Foot.le_refl _) k n) (by generalize Fam.of pg = k; cases k <;> decide)

@[simp] theorem fwd_addCnt {pg : Pg} (hc : pg.common = true) (k n : Nat) : ((addCnt pg k n).run s).fwd = s.fwd :=
  fwd_of_in (addCnt_in hc (Foot.le_refl _) k n) (by generalize Fam.of pg = k; cases k <;> decide)

@[simp] theorem prefs_addCnt {pg : Pg} (hc : pg.common = true) (k n : Nat) : ((addCnt pg k n).run s).prefs = s.prefs :=
  prefs_of_in (addCnt_in hc (Foot.le_refl _) k n) (by generalize Fam.of pg = k; cases k <;> decide)

@[simp] theorem descs_addCnt {pg : Pg} (hc : pg.common = true) (k n : Nat) : ((addCnt pg k n).run s).descs = s.descs :=
  descs_of_in (addCnt_in hc (Foot.le_refl _) k n) (by generalize Fam.of pg = k; cases k <;> decide)

end

/-! ### Relations that every change keeps -/

/-- A relation of states that holds of no change and of one change after another. -/
structure Chains (R : State → State → Prop) : Prop where
  refl : ∀ s, R s s
  trans : ∀ {s t u}, R s t → R t u → R s u

/-- The update leads from every state to one that `R` relates to it. -/
def Upd.Moves (R : State → State → Prop) (u : Upd) : Prop := ∀ s, s.wf → R s (u.run s)

section
variable {R : State → State → Prop} (hR : Chains R)
include hR

theorem skip_moves : skip.Moves R := fun s _ => hR.refl s

theorem all_nil_moves : (all []).Moves R := fun s _ => hR.refl s

theorem all_cons_moves {u : Upd} {us : List Upd} (hu : u.Moves R) (hus : (all us).Moves R) : (all (u :: us)).Moves R :=
  fun s hw => hR.trans (hu s hw) (hus _ (u.keeps_wf hw))

theorem when_moves {c : Bool} {u : Upd} (h : u.Moves R) : (when_ c u).Moves R := by
  cases c
  · exact skip_moves hR
  · exact h

theorem forEach_mem_moves {α : Type} {l : List α} {f : α → Upd} (h : ∀ a ∈ l, (f a).Moves R) : (forEach l f).Moves R := by
  induction l with
  | nil => exact all_nil_moves hR
  | cons a l ih => exact all_cons_moves hR (h a (List.mem_cons_self ..)) (ih fun b hb => h b (List.mem_cons_of_mem _ hb))

theorem forEach_moves {α : Type} {l : List α} {f : α → Upd} (h : ∀ a, (f a).Moves R) : (forEach l f).Moves R :=
  forEach_mem_moves hR fun a _ => h a

theorem forSome_moves {α : Type} {o : Option α} {f : α → Upd} (h : ∀ a, (f a).Moves R) : (forSome o f).Moves R := by
  cases o
  · exact skip_moves hR
  · exact h _

end

theorem look_moves {R : State → State → Prop} {f : State → Upd} (h : ∀ s, (f s).Moves R) : (look f).Moves R := fun s hw => h s s hw

theorem ite_moves {R : State → State → Prop} {c : Prop} [Decidable c] {u v : Upd} (hu : u.Moves R) (hv : v.Moves R) :
    (if c then u else v).Moves R := by
  split
  · exact hu
  · exact hv

/-! ### Counters that interrupts and errors leave -/

/-- The update leaves a counter. -/
def Upd.KeepsCnt (u : Upd) (pg : Pg) (i : Nat) : Prop := ∀ s, s.wf → (u.run s).cnt pg i = s.cnt pg i

section
variable {pg : Pg} {i : Nat}

theorem skip_keepsCnt : skip.KeepsCnt pg i := fun _ _ => rfl

theorem all_keepsCnt {us : List Upd} (h : ∀ u ∈ us, u.KeepsCnt pg i) : (all us).KeepsCnt pg i := by
  induction us with
  | nil => exact skip_keepsCnt
  | cons u us ih =>
    intro s hw
    exact (ih (fun v hv => h v (List.mem_cons_of_mem _ hv)) _ (u.keeps_wf hw)).trans (h u (List.mem_cons_self ..) s hw)

theorem look_keepsCnt {f : State → Upd} (h : ∀ s, (f s).KeepsCnt pg i) : (look f).KeepsCnt pg i := fun s => h s s

theorem when_keepsCnt {c : Bool} {u : Upd} (h : u.KeepsCnt pg i) : (when_ c u).KeepsCnt pg i := by
  cases c
  · exact skip_keepsCnt
  · exact h

theorem forEach_keepsCnt {α : Type} {l : List α} {f : α → Upd} (h : ∀ a, (f a).KeepsCnt pg i) : (forEach l f).KeepsCnt pg i :=
  all_keepsCnt fun u hu => by
    obtain ⟨a, -, rfl⟩ := List.mem_map.1 hu
    exact h a

/-- What changes no counter at all. -/
theorem keepsCnt_of_same {u : Upd} (h : ∀ s, (u.run s).cnts = s.cnts) : u.KeepsCnt pg i :=
  fun s _ => congrArg (fun m => Map.get m (cntKey pg i) 0) (h s)

theorem keepsCnt_of_in {F : Foot} {u : Upd} (hu : u.In F) (hn : Fam.of pg ∉ F.cnts) : u.KeepsCnt pg i :=
  fun s hw => (hu s hw).cnts pg i hn

theorem causingBy_keepsCnt {send : Pg → Upd} (hsend : ∀ q, (send q).KeepsCnt pg i) (pg' : Pg) {set : Upd} (hset : set.KeepsCnt pg i) :
    (causingBy send pg' set).KeepsCnt pg i := by
  refine look_keepsCnt fun s => ?_
  split
  · exact all_keepsCnt (by simpa using ⟨hset, look_keepsCnt fun t => when_keepsCnt (hsend pg')⟩)
  · exact hset

theorem addCntBy_keepsCnt {send : Pg → Upd} (hsend : ∀ q, (send q).KeepsCnt pg i) {pg' : Pg} {k : Nat} (hne : ¬(pg = pg' ∧ i = k))
    (n : Nat) : (addCntBy send pg' k n).KeepsCnt pg i := by
  refine look_keepsCnt fun s => all_keepsCnt ?_
  simp only [List.forall_mem_cons, List.not_mem_nil, false_imp_iff, implies_true, and_true]
  constructor
  · refine look_keepsCnt fun s => all_keepsCnt ?_
    simp only [List.forall_mem_cons, List.not_mem_nil, false_imp_iff, implies_true, and_true]
    refine ⟨fun t ht => cnt_setCnt_other ht hne _, ?_⟩
    cases (if s.cnt pg' k + n > cntMax then cntGroup pg' k else none) with
    | none => exact skip_keepsCnt
    | some g => exact keepsCnt_of_same fun _ => rfl
  · exact look_keepsCnt fun t => when_keepsCnt (causingBy_keepsCnt hsend _ (keepsCnt_of_same fun _ => rfl))

theorem sendIntBy_keepsCnt {fire : Nat → Nat → Upd} (h : ∀ f v, (fire f v).KeepsCnt pg i) (pg' : Pg) :
    (sendIntBy fire pg').KeepsCnt pg i := by
  refine look_keepsCnt fun s => ?_
  dsimp only
  split
  · exact skip_keepsCnt
  · split
    · exact h _ _
    · exact keepsCnt_of_same fun _ => rfl
  · exact keepsCnt_of_same fun _ => rfl

/-- A message counts on counter 3 of a face only (R278). -/
theorem msixFireN_keepsCnt (hi : ¬(Fam.of pg = .face ∧ i = 3)) : ∀ n f v, (msixFireN n f v).KeepsCnt pg i
  | 0, _, _ => keepsCnt_of_same fun _ => rfl
  | n + 1, f, v => by
    refine look_keepsCnt fun s => ?_
    dsimp only
    split
    · refine all_keepsCnt ?_
      simp only [List.forall_mem_cons, List.not_mem_nil, false_imp_iff, implies_true, and_true]
      refine ⟨keepsCnt_of_same fun _ => rfl, look_keepsCnt fun t => ?_,
        addCntBy_keepsCnt (sendIntBy_keepsCnt (msixFireN_keepsCnt hi n)) (fun h => hi ⟨h.1 ▸ rfl, h.2⟩) _⟩
      dsimp only
      split
      all_goals exact keepsCnt_of_same fun _ => rfl
    · exact keepsCnt_of_same fun _ => rfl

theorem sendInt_keepsCnt (hi : ¬(Fam.of pg = .face ∧ i = 3)) (pg' : Pg) : (sendInt pg').KeepsCnt pg i :=
    sendIntBy_keepsCnt (msixFireN_keepsCnt hi 34) pg'

theorem addCnt_keepsCnt (hi : ¬(Fam.of pg = .face ∧ i = 3)) {pg' : Pg} {k : Nat} (hne : ¬(pg = pg' ∧ i = k)) (n : Nat) :
    (addCnt pg' k n).KeepsCnt pg i :=
  addCntBy_keepsCnt (sendInt_keepsCnt hi) hne n

theorem noteErrs_keepsCnt (pg' : Pg) (rs : List Raised) : (noteErrs pg' rs).KeepsCnt pg i := by
  refine look_keepsCnt fun s => all_keepsCnt ?_
  simp only [List.forall_mem_cons, List.not_mem_nil, false_imp_iff, implies_true, and_true]
  exact ⟨keepsCnt_of_same fun _ => rfl, forEach_keepsCnt fun _ => keepsCnt_of_same fun _ => rfl⟩

theorem captureErrs_keepsCnt (pg' : Pg) (unm : List Raised) : (captureErrs pg' unm).KeepsCnt pg i := by
  refine look_keepsCnt fun s => ?_
  cases firstOf s pg' unm with
  | none => exact skip_keepsCnt
  | some x =>
    refine keepsCnt_of_same fun t => ?_
    cases s.on pg' .ERR_FIRST_VALID <;> simp [forSome]

theorem reportErrs_keepsCnt (hi : ¬(Fam.of pg = .face ∧ i = 3)) (pg' : Pg) (unm : List Raised) : (reportErrs pg' unm).KeepsCnt pg i := by
  refine look_keepsCnt fun s => all_keepsCnt ?_
  simp only [List.forall_mem_cons, List.not_mem_nil, false_imp_iff, implies_true, and_true]
  exact ⟨when_keepsCnt (causingBy_keepsCnt (sendInt_keepsCnt hi) _ (keepsCnt_of_same fun _ => rfl)),
    when_keepsCnt (forEach_keepsCnt fun _ => forEach_keepsCnt fun _ => keepsCnt_of_same fun _ => rfl)⟩

/-- A record that is lost counts on counter 14 of GUARD (R629). -/
theorem elogLost_keepsCnt (hi : ¬(Fam.of pg = .face ∧ i = 3)) (hne : ¬(pg = .guard 0 ∧ i = 14)) (n : Nat) : (elogLost n).KeepsCnt pg i := by
  refine look_keepsCnt fun s => all_keepsCnt ?_
  simp only [List.forall_mem_cons, List.not_mem_nil, false_imp_iff, implies_true, and_true]
  exact ⟨keepsCnt_of_same fun _ => rfl, addCnt_keepsCnt hi hne _, noteErrs_keepsCnt _ _, captureErrs_keepsCnt _ _,
    reportErrs_keepsCnt hi _ _⟩

theorem logRec_keepsCnt (hi : ¬(Fam.of pg = .face ∧ i = 3)) (hne : ¬(pg = .guard 0 ∧ i = 14)) (r : Rec) : (logRec r).KeepsCnt pg i := by
  refine look_keepsCnt fun s => ?_
  dsimp only
  split
  · exact keepsCnt_of_same fun _ => rfl
  · split
    · exact elogLost_keepsCnt hi hne _
    · refine all_keepsCnt ?_
      simp only [List.forall_mem_cons, List.not_mem_nil, false_imp_iff, implies_true, and_true]
      exact ⟨keepsCnt_of_same fun _ => rfl, keepsCnt_of_same fun _ => rfl, elogLost_keepsCnt hi hne _⟩

/-- Recording errors counts on counter 3 of a face and counter 14 of GUARD only. -/
theorem raiseAll_keepsCnt (hi : ¬(Fam.of pg = .face ∧ i = 3)) (hne : ¬(pg = .guard 0 ∧ i = 14)) (pg' : Pg) (rs : List Raised) :
    (raiseAll pg' rs).KeepsCnt pg i := by
  refine look_keepsCnt fun s => all_keepsCnt ?_
  simp only [List.forall_mem_cons, List.not_mem_nil, false_imp_iff, implies_true, and_true]
  exact ⟨noteErrs_keepsCnt _ _, captureErrs_keepsCnt _ _, forEach_keepsCnt fun _ => logRec_keepsCnt hi hne _, reportErrs_keepsCnt hi _ _⟩

variable {s : State} [h : Fact s.wf]

@[simp] theorem cnt_sendInt_of_ne (hi : ¬(Fam.of pg = .face ∧ i = 3)) (pg' : Pg) : ((sendInt pg').run s).cnt pg i = s.cnt pg i :=
    sendInt_keepsCnt hi pg' s h.out

@[simp] theorem cnt_raiseAll_of_ne (hi : ¬(Fam.of pg = .face ∧ i = 3)) (hne : ¬(pg = .guard 0 ∧ i = 14)) (pg' : Pg) (rs : List Raised) :
    ((raiseAll pg' rs).run s).cnt pg i = s.cnt pg i := raiseAll_keepsCnt hi hne pg' rs s h.out

/-- What a count adds (R66), to any counter but the one of the interrupts. -/
@[simp] theorem cnt_addCnt_of_ne (hi : ¬(Fam.of pg = .face ∧ i = 3)) (pg' : Pg) (k n : Nat) :
    ((addCnt pg' k n).run s).cnt pg i = if pg = pg' ∧ i = k then min (s.cnt pg' k + n) cntMax else s.cnt pg i := by
  split
  · next he =>
    obtain ⟨rfl, rfl⟩ := he
    have hsat : (look fun t => when_ (clearBits (t.rd pg .CNT_STAT_SAT) (s.rd pg .CNT_STAT_SAT) &&& s.rd pg .CNT_SAT_EN_SAT_EN != 0) <|
        causingBy sendInt pg (wr pg .INT_CAUSE_CNT_SAT 1)).KeepsCnt pg i :=
      look_keepsCnt fun t => when_keepsCnt (causingBy_keepsCnt (sendInt_keepsCnt hi) _ (keepsCnt_of_same fun _ => rfl))
    have := Upd.keeps_fact (addCntRaw pg i n) s
    refine (hsat _ this.out).trans ?_
    unfold addCntRaw
    cases hg : (if s.cnt pg i + n > cntMax then cntGroup pg i else none) <;> simp [hg]
  · next hne => exact addCnt_keepsCnt hi hne n s h.out

end

/-! ### Loops -/

section
variable {α : Type} {l : List α} {f : α → Upd} {P Q : State → Prop}

/-- What each round of a loop keeps, the loop keeps. -/
theorem forEach_keeps (h : ∀ a ∈ l, ∀ t : State, [Fact t.wf] → P t → P ((f a).run t)) (s : State) [Fact s.wf] (hs : P s) :
    P ((forEach l f).run s) := by
  induction l generalizing s with
  | nil => exact hs
  | cons a l ih =>
    have := Upd.keeps_fact (f a) s
    exact ih (fun b hb => h b (List.mem_cons_of_mem _ hb)) _ (h a (List.mem_cons_self ..) s hs)

/-- What one round of a loop does stays, when the rounds before keep what it starts from and the rounds after keep what it does. -/
theorem forEach_reaches {a : α} (hl : l.Nodup) (ha : a ∈ l)
    (hP : ∀ b ∈ l, b ≠ a → ∀ t : State, [Fact t.wf] → P t → P ((f b).run t))
    (hat : ∀ t : State, [Fact t.wf] → P t → Q ((f a).run t))
    (hQ : ∀ b ∈ l, b ≠ a → ∀ t : State, [Fact t.wf] → Q t → Q ((f b).run t)) (s : State) [Fact s.wf] (hs : P s) :
    Q ((forEach l f).run s) := by
  induction l generalizing s with
  | nil => exact absurd ha List.not_mem_nil
  | cons b l ih =>
    obtain ⟨hb, hl⟩ := List.nodup_cons.1 hl
    have := Upd.keeps_fact (f b) s
    rw [forEach_cons_run]
    by_cases he : b = a
    · subst he
      exact forEach_keeps (fun c hc => hQ c (List.mem_cons_of_mem _ hc) fun e => hb (e ▸ hc)) _ (hat s hs)
    · have hmem : a ∈ l := (List.mem_cons.1 ha).resolve_left (Ne.symm he)
      exact ih hl hmem (fun c hc => hP c (List.mem_cons_of_mem _ hc)) (fun c hc => hQ c (List.mem_cons_of_mem _ hc)) _
        (hP b (List.mem_cons_self ..) he s hs)

/-- The same for a loop over the numbers below a bound. -/
theorem forBelow_reaches {n i : Nat} {f : Nat → Upd} (hi : i < n) (hP : ∀ j, j ≠ i → ∀ t : State, [Fact t.wf] → P t → P ((f j).run t))
    (hat : ∀ t : State, [Fact t.wf] → P t → Q ((f i).run t)) (hQ : ∀ j, j ≠ i → ∀ t : State, [Fact t.wf] → Q t → Q ((f j).run t))
    (s : State) [Fact s.wf] (hs : P s) : Q ((forBelow n f).run s) :=
  forEach_reaches List.nodup_range (List.mem_range.2 hi) (fun j _ => hP j) hat (fun j _ => hQ j) s hs

end

end Sys2Proof.Machine
end

section
/-! PROOF. Writes to registers: what a granted write comes down to (R78, R82), and what a write of a register leaves in its fields
(Table PAGES-3). -/

namespace Sys2Proof.Machine

set_option Elab.async false

/-! ### The grant and the lock -/

/-- The arbiter's note of a grant is a number. -/
@[simp] theorem grant_eq (st : Stamp) (pg : Pg) : grant st pg = put .arbLast (st.code + 1) (pg.base / 0x40) := rfl

/-- A write granted on a page that is not locked is the note of the grant, then what the register does. -/
theorem granted_run {s : State} {st : Stamp} {pg : Pg} (hl : s.locked pg = false) (hp : s.pathOpen st = true) (off : Nat) (u : Upd) :
    (granted st pg off u).run s = u.run ((grant st pg).run s) := by
  rw [granted, look_run, granting_run hp]
  simp [hl]

/-- A write granted to a register that the page lock lets through is the note of the grant, then what the register does. -/
theorem granted_exempt_run {s : State} {st : Stamp} {pg : Pg} {off : Nat} (hm : lockMask pg off ≠ 0) (hp : s.pathOpen st = true) (u : Upd) :
    (granted st pg off u).run s = u.run ((grant st pg).run s) := by
  rw [granted, look_run, granting_run hp]
  simp [hm]

/-- A write granted on a locked page is discarded, unless the register is one that the lock lets through. -/
theorem granted_locked_run {s : State} {st : Stamp} {pg : Pg} (hl : s.locked pg = true) (hp : s.pathOpen st = true) {off : Nat}
    (hm : lockMask pg off = 0) (u : Upd) : (granted st pg off u).run s = (discardLocked st pg).run ((grant st pg).run s) := by
  rw [granted, look_run, granting_run hp]
  simp [hl, hm]

/-- A command that is a granted write completes with what its register does. -/
theorem gives_granted {i : Instr} {u : Upd} {s : State} {P : State → Prop} {st : Stamp} {pg : Pg} {off : Nat} (hs : s.Awake)
    (he : exec i s = (granted st pg off u).answer s) (hl : s.locked pg = false) (hp : s.pathOpen st = true)
    (h : Fact s.wf → (∀ (v : Upd) (t : State) [Fact t.wf], Fact (v.run t).wf) → P (u.run ((grant st pg).run s))) : Gives i s P :=
  gives_awake hs he fun hw hk => by
    rw [granted_run hl hp]
    exact h hw hk

/-! ### The fields of a register -/

/-- A field's entry stands at its own offset. -/
theorem mem_fieldsAt {pg : Pg} {f : Fld} {i off : Nat} (hf : f ∈ pg.fields) (hi : i < f.count) (ho : f.off + i * f.stride = off) :
    (f, i) ∈ fieldsAt pg off := by
  refine List.mem_filterMap.2 ⟨f, hf, ?_⟩
  subst ho
  by_cases hc : f.count ≤ 1
  · have h0 : i = 0 := by omega
    simp [hc, h0]
  · have hs : f.stride ≠ 0 := (Fld.fits_all hf).2.2.2.resolve_left hc
    simp [hc, hs, Nat.mul_div_cancel _ (Nat.pos_of_ne_zero hs), hi]

/-- An entry at an offset is one of the field's, and stands there. -/
theorem off_of_mem_fieldsAt {pg : Pg} {fi : Fld × Nat} {off : Nat} (h : fi ∈ fieldsAt pg off) :
    fi.1 ∈ pg.fields ∧ fi.2 < fi.1.count ∧ fi.1.off + fi.2 * fi.1.stride = off := by
  obtain ⟨g, hg, he⟩ := List.mem_filterMap.1 h
  have hcount := (Fld.fits_all hg).1
  split at he
  · split at he
    · next ho =>
      cases he
      exact ⟨hg, Nat.pos_of_ne_zero hcount, by simpa using (eq_of_beq ho).symm⟩
    · cases he
  · split at he
    · next hc =>
      cases he
      simp only [Bool.and_eq_true, decide_eq_true_eq, bne_iff_ne, beq_iff_eq] at hc
      obtain ⟨⟨⟨-, hle⟩, hmod⟩, hlt⟩ := hc
      refine ⟨hg, hlt, ?_⟩
      have := Nat.div_add_mod (off - g.off) g.stride
      rw [hmod, Nat.mul_comm] at this
      simp only
      omega
    · cases he

theorem Fld.of_lt (f : Fld) (v : Nat) : f.of v < 2 ^ f.width := Nat.mod_lt _ (Nat.two_pow_pos _)

/-- The bits of a word that a field takes, as a number. -/
@[simp] theorem Fld.of_mod (f : Fld) (v : Nat) : f.of v % 2 ^ f.width = f.of v := Nat.mod_eq_of_lt (f.of_lt v)

/-- The bit of a word that a flag takes. -/
theorem Fld.of_flag {f : Fld} (hw : f.width = 1) (v : Nat) : f.of v = b2n (v.testBit f.lo) := by
  have h := Nat.toNat_testBit v f.lo
  rw [Fld.of, hw, Nat.shiftRight_eq_div_pow, pow_one, ← h]
  cases v.testBit f.lo <;> rfl

@[simp] theorem writeField_rw {f : Fld} (ht : f.ty = .rw) (hp : f.perStamp = false) (st : Stamp) (pg : Pg) (v i : Nat) :
    writeField st pg v (f, i) = wr pg f (f.of v) i := by
  simp [writeField, ht, hp]

@[simp] theorem writeField_w1c {f : Fld} (ht : f.ty = .w1c) (st : Stamp) (pg : Pg) (v i : Nat) :
    writeField st pg v (f, i) = look fun s => wr pg f (clearBits (s.rd pg f i) (f.of v)) i := by
  simp [writeField, ht]

/-- The bit of a machine word that a flag takes. -/
theorem Fld.of_flag_word {f : Fld} (hw : f.width = 1) {w : Nat} (v : BitVec w) : f.of v.toNat = b2n (v.getLsbD f.lo) :=
  (Fld.of_flag hw _).trans (congrArg b2n (BitVec.testBit_toNat v))

/-- Fields of the other types are not stored. -/
@[simp] theorem writeField_unstored {f : Fld} (h1 : f.ty ≠ .rw) (h2 : f.ty ≠ .w1c) (st : Stamp) (pg : Pg) (v i : Nat) :
    writeField st pg v (f, i) = skip := by
  cases ht : f.ty <;> simp_all [writeField]

section
variable {s : State} [h : Fact s.wf] {pg : Pg} (st : Stamp) (v : Nat)

/-- What one field's part of a write leaves of a field: its new value in the entry written, and any other field as it was. -/
theorem rd_writeField {pg' : Pg} {f : Fld} {i : Nat} (hf : f ∈ pg'.fields) {fi : Fld × Nat} (hfi : fi.1 ∈ pg.fields)
    (hne : ¬(pg' = pg ∧ f = fi.1)) : ((writeField st pg v fi).run s).rd pg' f i = s.rd pg' f i := by
  have hw (x : Nat) : ((wr pg fi.1 x fi.2).run s).rd pg' f i = s.rd pg' f i := rd_wr_other h.out hfi hf hne x _ _
  unfold writeField
  split
  split
  · split
    · rfl
    · exact hw _
  · exact hw _
  all_goals rfl

/-- A write of a register leaves the fields of every other register. -/
theorem rd_plainWrite_other {pg' : Pg} {f : Fld} {i off : Nat} (hf : f ∈ pg'.fields)
    (hn : pg' = pg → ∀ j < f.count, f.off + j * f.stride ≠ off) :
    ((plainWrite st pg off v).run s).rd pg' f i = s.rd pg' f i := by
  have key : ∀ (l : List (Fld × Nat)) (t : State) [Fact t.wf], (∀ fi ∈ l, fi ∈ fieldsAt pg off) →
      ((forEach l (writeField st pg v)).run t).rd pg' f i = t.rd pg' f i := by
    intro l
    induction l with
    | nil => intros; rfl
    | cons fi l ih =>
      intro t _ hl
      have hw := Upd.keeps_fact (writeField st pg v fi) t
      obtain ⟨hmem, hlt, ho⟩ := off_of_mem_fieldsAt (hl fi (List.mem_cons_self ..))
      rw [forEach_cons_run, ih _ fun x hx => hl x (List.mem_cons_of_mem _ hx)]
      refine rd_writeField st v hf hmem fun ⟨hpg, hfe⟩ => hn hpg fi.2 ?_ ?_
      · exact hfe ▸ hlt
      · exact hfe ▸ ho
  exact key _ s fun _ hx => hx

/-- A write of a register gives an RW field the bits of its own (Table PAGES-3). -/
theorem rd_plainWrite {f : Fld} {i off : Nat} (hf : f ∈ pg.fields) (hi : i < f.count) (ho : f.off + i * f.stride = off) (ht : f.ty = .rw)
    (hp : f.perStamp = false) : ((plainWrite st pg off v).run s).rd pg f i = f.of v := by
  have hself : ∀ t : State, [Fact t.wf] → ((writeField st pg v (f, i)).run t).rd pg f i = f.of v := by
    intro t _
    simp [writeField, ht, hp]
  have key : ∀ (l : List (Fld × Nat)) (t : State) [Fact t.wf], (∀ fi ∈ l, fi ∈ fieldsAt pg off) →
      t.rd pg f i = f.of v ∨ (f, i) ∈ l → ((forEach l (writeField st pg v)).run t).rd pg f i = f.of v := by
    intro l
    induction l with
    | nil => exact fun t _ _ ht => ht.resolve_right List.not_mem_nil
    | cons fi l ih =>
      intro t _ hl ht
      have hw := Upd.keeps_fact (writeField st pg v fi) t
      obtain ⟨hmem, hlt, ho'⟩ := off_of_mem_fieldsAt (hl fi (List.mem_cons_self ..))
      refine ih _ (fun x hx => hl x (List.mem_cons_of_mem _ hx)) ?_
      by_cases hfe : f = fi.1
      · have hie : i = fi.2 := by
          have hstride : f.count ≤ 1 ∨ f.stride ≠ 0 := (Fld.fits_all hf).2.2.2
          rw [← hfe] at ho' hlt
          rcases hstride with hc | hs
          · omega
          · exact Nat.eq_of_mul_eq_mul_right (Nat.pos_of_ne_zero hs) (by omega)
        obtain rfl : fi = (f, i) := Prod.ext hfe.symm hie.symm
        exact .inl (hself t)
      · refine ht.imp (fun ht => ?_) fun hm => (List.mem_cons.1 hm).resolve_left fun he => hfe (congrArg Prod.fst he)
        rw [rd_writeField st v hf hmem fun e => hfe e.2, ht]
  exact key _ s (fun _ hx => hx) (.inr (mem_fieldsAt hf hi ho))

/-- A write leaves the read-only fields, those of the register written among them. -/
theorem rd_plainWrite_ro {f : Fld} {i off : Nat} (hf : f ∈ pg.fields) (ht : f.ty = .ro) :
    ((plainWrite st pg off v).run s).rd pg f i = s.rd pg f i := by
  have key : ∀ (l : List (Fld × Nat)) (t : State) [Fact t.wf], (∀ fi ∈ l, fi ∈ fieldsAt pg off) →
      ((forEach l (writeField st pg v)).run t).rd pg f i = t.rd pg f i := by
    intro l
    induction l with
    | nil => intros; rfl
    | cons fi l ih =>
      intro t _ hl
      have hw := Upd.keeps_fact (writeField st pg v fi) t
      obtain ⟨hmem, -, -⟩ := off_of_mem_fieldsAt (hl fi (List.mem_cons_self ..))
      rw [forEach_cons_run, ih _ fun x hx => hl x (List.mem_cons_of_mem _ hx)]
      by_cases hfe : f = fi.1
      · simp [writeField, ← hfe, ht]
      · exact rd_writeField st v hf hmem fun e => hfe e.2
  exact key _ s fun _ hx => hx

/-- A write of a register gives its single RW fields their bits. -/
@[simp] theorem rd_plainWrite_single {f : Fld} {off : Nat} (hf : f ∈ pg.fields)
    (ho : f.off = off ∧ f.count = 1 ∧ f.ty = .rw ∧ f.perStamp = false) : ((plainWrite st pg off v).run s).rd pg f 0 = f.of v := by
  obtain ⟨hoff, hcount, ht, hp⟩ := ho
  exact rd_plainWrite st v hf (by omega) (by omega) ht hp

/-- It leaves the single fields of the page's other registers. -/
@[simp] theorem rd_plainWrite_single_other {f : Fld} {i off : Nat} (hf : f ∈ pg.fields) (ho : f.off ≠ off ∧ f.count = 1) :
    ((plainWrite st pg off v).run s).rd pg f i = s.rd pg f i := by
  obtain ⟨hoff, hcount⟩ := ho
  refine rd_plainWrite_other st v hf fun _ j hj => ?_
  obtain rfl : j = 0 := by omega
  omega

/-- It leaves the fields of other pages. -/
@[simp] theorem rd_plainWrite_page {pg' : Pg} {f : Fld} {i off : Nat} (hf : f ∈ pg'.fields) (hne : pg' ≠ pg) :
    ((plainWrite st pg off v).run s).rd pg' f i = s.rd pg' f i :=
  rd_plainWrite_other st v hf fun he => absurd he hne

/-- A write of a register changes register fields only. -/
theorem plainWrite_in_regs (pg : Pg) (off : Nat) : (plainWrite st pg off v).In { regs := (fieldsAt pg off).map fun fi => (Fam.of pg, fi.1) } :=
  plainWrite_in (fun fi hm => List.mem_map.2 ⟨fi, hm, rfl⟩) st v

@[simp] theorem iv_plainWrite (off : Nat) (x : Var) (i : Nat) : ((plainWrite st pg off v).run s).iv x i = s.iv x i :=
  iv_of_in (plainWrite_in_regs st v pg off) List.not_mem_nil

@[simp] theorem fifo_plainWrite (off : Nat) (q : Fifo) (i : Nat) : ((plainWrite st pg off v).run s).fifo q i = s.fifo q i :=
  fifo_of_in (plainWrite_in_regs st v pg off) List.not_mem_nil

@[simp] theorem cnt_plainWrite (off : Nat) (pg' : Pg) (i : Nat) : ((plainWrite st pg off v).run s).cnt pg' i = s.cnt pg' i :=
  cnt_of_in (plainWrite_in_regs st v pg off) List.not_mem_nil

@[simp] theorem now_plainWrite (off : Nat) : ((plainWrite st pg off v).run s).now = s.now :=
  now_of_in (plainWrite_in_regs st v pg off) List.not_mem_nil

@[simp] theorem greqs_plainWrite (off : Nat) : ((plainWrite st pg off v).run s).greqs = s.greqs :=
  greqs_of_in (plainWrite_in_regs st v pg off) List.not_mem_nil

@[simp] theorem buf_plainWrite (off : Nat) : ((plainWrite st pg off v).run s).buf = s.buf :=
  buf_of_in (plainWrite_in_regs st v pg off) List.not_mem_nil

@[simp] theorem waiting_plainWrite (off : Nat) : ((plainWrite st pg off v).run s).waiting = s.waiting :=
  waiting_of_in (plainWrite_in_regs st v pg off) List.not_mem_nil

@[simp] theorem replay_plainWrite (off : Nat) : ((plainWrite st pg off v).run s).replay = s.replay :=
  replay_of_in (plainWrite_in_regs st v pg off) List.not_mem_nil

@[simp] theorem slots_plainWrite (off : Nat) : ((plainWrite st pg off v).run s).slots = s.slots :=
  slots_of_in (plainWrite_in_regs st v pg off) List.not_mem_nil

@[simp] theorem fwd_plainWrite (off : Nat) : ((plainWrite st pg off v).run s).fwd = s.fwd :=
  fwd_of_in (plainWrite_in_regs st v pg off) List.not_mem_nil

@[simp] theorem prefs_plainWrite (off : Nat) : ((plainWrite st pg off v).run s).prefs = s.prefs :=
  prefs_of_in (plainWrite_in_regs st v pg off) List.not_mem_nil

@[simp] theorem descs_plainWrite (off : Nat) : ((plainWrite st pg off v).run s).descs = s.descs :=
  descs_of_in (plainWrite_in_regs st v pg off) List.not_mem_nil

@[simp] theorem out_plainWrite (off : Nat) : ((plainWrite st pg off v).run s).out = s.out :=
  out_of_in (plainWrite_in_regs st v pg off) List.not_mem_nil

end

/-! ### What a discarded write tells (R53) -/

theorem stamp_code_lt (st : Stamp) : st.code < 64 := by
  cases st
  case face f => exact f.isLt.trans (by decide)
  all_goals decide

theorem tellDiscard_in_out (st : Stamp) (pg : Pg) (es : List Err) :
    (tellDiscard st pg es).In ((Foot.others [.out]).and (Foot.numbers [.aerStamp])) :=
  tellDiscard_in (by decide) (by decide) st pg es

section
variable {s : State} [Fact s.wf] (st : Stamp) (pg : Pg) (es : List Err)

@[simp] theorem rd_tellDiscard {pg' : Pg} {f : Fld} (hm : f ∈ pg'.fields) (i : Nat) :
    ((tellDiscard st pg es).run s).rd pg' f i = s.rd pg' f i :=
  rd_of_in (tellDiscard_in_out st pg es) hm (by simp [Foot.and, Foot.others, Foot.numbers])

@[simp] theorem cnt_tellDiscard (pg' : Pg) (i : Nat) : ((tellDiscard st pg es).run s).cnt pg' i = s.cnt pg' i :=
  cnt_of_in (tellDiscard_in_out st pg es) (by simp [Foot.and, Foot.others, Foot.numbers])

@[simp] theorem iv_tellDiscard {x : Var} (hx : x ≠ .aerStamp) (i : Nat) : ((tellDiscard st pg es).run s).iv x i = s.iv x i :=
  iv_of_in (tellDiscard_in_out st pg es) (by simpa [Foot.and, Foot.others, Foot.numbers] using hx)

@[simp] theorem fifo_tellDiscard (q : Fifo) (i : Nat) : ((tellDiscard st pg es).run s).fifo q i = s.fifo q i :=
  fifo_of_in (tellDiscard_in_out st pg es) (by simp [Foot.and, Foot.others, Foot.numbers])

end

end Sys2Proof.Machine
end

section
/-! PROOF. The routes of a plate are determined by its entries: a list read out of the table of numbers is the same in two states
that read the same numbers (R362, R379). -/

namespace Sys2Proof.Machine

set_option Elab.async false

/-- A table of numbers lists what it reads as other than 0. -/
theorem mem_iff_get {m : Map Nat} (hm : m.wf0) {k v : Nat} : (k, v) ∈ m ↔ v ≠ 0 ∧ m.get k 0 = v := by
  constructor
  · intro he
    refine ⟨hm.2 _ he, ?_⟩
    obtain ⟨hw, -⟩ := hm
    induction m with
    | nil => exact absurd he List.not_mem_nil
    | cons a r ih =>
      obtain ⟨hlt, hw⟩ := List.pairwise_cons.1 hw
      rcases List.mem_cons.1 he with rfl | hr
      · simp [Map.get]
      · have hak : a.1 < k := hlt _ hr
        rw [Map.get, if_neg (by omega), if_neg (by omega), ih hr hw]
  · rintro ⟨h0, hv⟩
    clear hm
    induction m with
    | nil => exact absurd hv.symm h0
    | cons a r ih =>
      rw [Map.get] at hv
      split at hv
      · next hk => exact hk ▸ hv ▸ List.mem_cons_self ..
      · split at hv
        · exact absurd hv.symm h0
        · exact List.mem_cons_of_mem _ (ih hv)

/-- Two tables of numbers that read the same at some keys list the same entries with those keys. -/
theorem filter_eq_of_get {m m' : Map Nat} (hm : m.wf0) (hm' : m'.wf0) {p : Nat → Bool} (h : ∀ k, p k = true → m'.get k 0 = m.get k 0) :
    m'.filter (fun e => p e.1) = m.filter fun e => p e.1 := by
  have hr : Std.Irrefl fun a b : Nat × Nat => a.1 < b.1 := ⟨fun a => Nat.lt_irrefl a.1⟩
  have ha : Std.Antisymm fun a b : Nat × Nat => a.1 < b.1 := ⟨fun a b hab hba => absurd (Nat.lt_trans hab hba) (Nat.lt_irrefl _)⟩
  have hw : (m.filter fun e => p e.1).Pairwise fun a b => a.1 < b.1 := Map.keep_wf p hm.1
  have hw' : (m'.filter fun e => p e.1).Pairwise fun a b => a.1 < b.1 := Map.keep_wf p hm'.1
  refine List.Pairwise.eq_of_mem_iff hw' hw fun ⟨k, v⟩ => ?_
  simp only [List.mem_filter, mem_iff_get hm, mem_iff_get hm']
  exact and_congr_left fun hp => by rw [h k hp]

section
variable {s t : State} [hs : Fact s.wf] [ht : Fact t.wf] (h : ∀ i, t.iv .plate i = s.iv .plate i)
include h

theorem entries_congr (k lo hi : Nat) : t.entries k lo hi = s.entries k lo hi := by
  have hget : ∀ key, (key % 512 == Var.plate.ctorIdx) = true → t.ivs.get key 0 = s.ivs.get key 0 := by
    intro key hkey
    have hk : Var.plate.key (key / 512) = key := by
      simp only [beq_iff_eq] at hkey
      unfold Var.key
      omega
    exact hk ▸ h (key / 512)
  have hfilter := filter_eq_of_get hs.out.2.2.2.2.1 ht.out.2.2.2.2.1 hget
  have hlist : ∀ u : State, u.entries k lo hi = (u.ivs.filter fun e => e.1 % 512 == Var.plate.ctorIdx).filterMap fun (key, v) =>
      if key % 512 == Var.plate.ctorIdx && key / 512 / 524288 == k && lo ≤ key / 512 - k * 524288 && key / 512 - k * 524288 ≤ hi then
        some (key / 512 - k * 524288, v) else none := by
    intro u
    rw [List.filterMap_filter]
    refine List.filterMap_congr fun ⟨key, v⟩ _ => ?_
    cases hkey : key % 512 == Var.plate.ctorIdx <;> simp [hkey]
  rw [hlist, hlist, hfilter]

theorem idRoutes_congr (k : Nat) : t.idRoutes k = s.idRoutes k := by
  simp only [State.idRoutes, entries_congr h]

theorem switchFeid_congr (hlive : t.live = s.live) (w : Nat) : t.switchFeid? w = s.switchFeid? w := by
  simp only [State.switchFeid?, hlive, idRoutes_congr h]

omit hs ht in
theorem idRoute_congr (k n : Nat) : t.idRoute? k n = s.idRoute? k n := by
  unfold State.idRoute?
  simp only [State.entry, h]
  rfl

end

end Sys2Proof.Machine
end

section
/-! PROOF. What a reset of the switch die and Safe Halt leave (R126 to R134, R622). -/

namespace Sys2Proof.Machine

set_option Elab.async false

section
variable (c : Bool) (p : Prop) [Decidable p] (u v : Upd) (s : State)

@[simp] theorem arb_when : ((when_ c u).run s).arb = if c = true then (u.run s).arb else s.arb := by cases c <;> rfl

@[simp] theorem cnts_when : ((when_ c u).run s).cnts = if c = true then (u.run s).cnts else s.cnts := by cases c <;> rfl

@[simp] theorem arb_choice : ((if p then u else v).run s).arb = if p then (u.run s).arb else (v.run s).arb := by split <;> rfl

@[simp] theorem cnts_choice : ((if p then u else v).run s).cnts = if p then (u.run s).cnts else (v.run s).cnts := by split <;> rfl

@[simp] theorem slots_choice : ((if p then u else v).run s).slots = if p then (u.run s).slots else (v.run s).slots := by split <;> rfl

end

/-- The keys of the variables of a list are those of their kinds. -/
theorem ofKind_key {l : List Var} {x : Var} (hx : x ∈ l) (i : Nat) : ofKind l (x.key i) = true := by
  have hlt := x.idx_lt
  refine List.any_eq_true.2 ⟨x, hx, ?_⟩
  simp only [beq_iff_eq, Var.key]
  omega

/-- No variable but those of the list has a key of their kinds. -/
theorem ofKind_key_not {l : List Var} {x : Var} (hx : x ∉ l) (i : Nat) : ofKind l (x.key i) = false := by
  have hlt := x.idx_lt
  refine Bool.eq_false_iff.2 fun h => hx ?_
  obtain ⟨y, hy, he⟩ := List.any_eq_true.1 h
  have hxy : y.ctorIdx = x.ctorIdx := by
    simp only [beq_iff_eq, Var.key] at he
    omega
  have hof := congrArg Var.ofNat hxy
  rw [Var.ofNat_ctorIdx, Var.ofNat_ctorIdx] at hof
  exact hof ▸ hy

/-- The addresses of the PWR pages. -/
theorem atPwr_of_inPage {pg : Pg} {k : Nat} (hp : isPwr pg = true) (hin : inPage pg k = true) : atPwr (k / 32) = true := by
  simp only [inPage, Bool.and_eq_true, decide_eq_true_eq] at hin
  obtain ⟨⟨hok, hlo⟩, hhi⟩ := hin
  have hrange : 0x300000 ≤ k / 32 ∧ k / 32 < 0x490000 := by
    cases pg with
    | pwrg =>
      simp only [Pg.base, Pg.size] at hlo hhi
      omega
    | pwr c =>
      have hc : c < 24 := of_decide_eq_true hok
      simp only [Pg.base, Pg.size] at hlo hhi
      omega
    | _ => cases hp
  obtain ⟨hlow, hhigh⟩ := hrange
  have hbelow : ∀ b n st, b + n * st ≤ 0x300000 → (decide (b ≤ k / 32) && decide (k / 32 < b + n * st)) = false := by
    intro b n st hb
    simp
    omega
  simp only [atPwr, pgAt, pgRanges, List.findSome?_cons, hbelow 0 1 0x10000 (by decide), hbelow 0x10000 7 0x10000 (by decide),
    hbelow 0x80000 4 0x10000 (by decide), hbelow 0xC0000 4 0x10000 (by decide), hbelow 0x100000 24 0x10000 (by decide), Bool.false_eq_true,
    if_false]
  by_cases hg : k / 32 < 0x310000
  · rw [if_pos (by simpa using ⟨hlow, hg⟩)]
    rfl
  · rw [if_neg (by simp; omega), if_pos (by simp; omega)]
    rfl

/-! ### Cold reset -/

section
variable {s : State} [h : Fact s.wf]

/-- Clearing the switch die keeps the pins, the supplies, the fuses and what flash holds (Table BOOT-2). -/
theorem iv_coldClear {x : Var} (hx : x ∈ coldVars) (keepPwr : Bool) (i : Nat) : ((coldClear keepPwr).run s).iv x i = s.iv x i :=
  get_keep_of (p := fun k => ofKind coldVars k || (keepPwr && (ofKind pwrVars k || pwrSev k))) h.out.2.2.2.2.1.1 _ (by simp [ofKind_key hx])

/-- A field of the power-path die stays as it is where that die is kept (R128). -/
theorem rd_coldClear_pwr {pg : Pg} {f : Fld} (hm : f ∈ pg.fields) (hp : isPwr pg = true) (hok : pg.ok = true) (hi : i < f.count ∨ f.stride = 0) :
    ((coldClear true).run s).rd pg f i = s.rd pg f i := by
  have hat : atPwr (f.key pg i / 32) = true := atPwr_of_inPage hp (inPage_field hm hok hi)
  exact congrArg (· % 2 ^ f.width) (get_keep_of (p := fun k => true && atPwr (k / 32)) h.out.1 _ (by simp [hat]))

omit h

@[simp] theorem coldClear_buf (keepPwr : Bool) : ((coldClear keepPwr).run s).buf = [] := rfl

@[simp] theorem coldClear_slots (keepPwr : Bool) : ((coldClear keepPwr).run s).slots = [] := rfl

@[simp] theorem coldClear_arb (keepPwr : Bool) : ((coldClear keepPwr).run s).arb = s.arb := rfl

/-- No counter outlasts a cold reset that clears the power-path die too. -/
@[simp] theorem coldClear_cnts : ((coldClear false).run s).cnts = [] := List.filter_false _

include h

variable (cause : Nat) (keepPwr : Bool)

/-- So does a cold reset. -/
theorem iv_coldReset {x : Var} (hx : x ∈ coldVars) (i : Nat) : ((coldReset cause keepPwr).run s).iv x i = s.iv x i := by
  have := Upd.keeps_fact
  have hne : ∀ y ∈ coldVars, y ≠ .dieReset ∧ y ≠ .thermHold := by decide
  obtain ⟨hdie, hhold⟩ := hne x hx
  simp [coldReset, haltStays, interrupted, hdie, hhold, iv_coldClear hx, cycOutLow]

/-- The die is then in cold reset. -/
theorem dieReset_coldReset : ((coldReset cause keepPwr).run s).iv .dieReset = drCOLD := by
  have := Upd.keeps_fact
  simp +decide [coldReset, haltStays, interrupted]

/-- LAST has the cause. -/
theorem last_coldReset : ((coldReset cause keepPwr).run s).rd .glb .GLB_RESET_CAUSE_LAST = cause % 16 := by
  have := Upd.keeps_fact
  simp +decide [coldReset, haltStays, interrupted]
  rfl

omit h

/-- What a cold reset empties, and what it never touches. -/
theorem coldReset_empties : ((coldReset cause keepPwr).run s).buf = [] ∧ ((coldReset cause keepPwr).run s).slots = [] ∧
    ((coldReset cause keepPwr).run s).arb = s.arb := by
  simp [coldReset, haltStays, interrupted, coldClear_buf, coldClear_slots, coldClear_arb, cycOutLow]

theorem cnts_coldReset : ((coldReset cause false).run s).cnts = [] := by
  simp [coldReset, haltStays, interrupted, cycOutLow]

end

/-! ### Warm reset -/

section
variable {s : State} [h : Fact s.wf] (cause : Nat)

/-- Clearing the switch die for a warm reset keeps what it outlasts (R128). -/
theorem iv_warmClear {x : Var} (hx : x ∈ warmVars) (i : Nat) : (warmClear.run s).iv x i = s.iv x i :=
  get_keep_of (p := ofKind warmVars) h.out.2.2.2.2.1.1 _ (ofKind_key hx i)

omit h in
@[simp] theorem warmClear_buf : (warmClear.run s).buf = [] := rfl

omit h in
@[simp] theorem warmClear_arb : (warmClear.run s).arb = s.arb := rfl

/-- What a warm reset does once it has cleared the die and holds it in reset. -/
def warmRest (s : State) (cause : Nat) : Upd := all [
  put .warmReg (b2n (cause == rcREG)), warmCause cause, interrupted (s.ivOn .imgSt) s.turnArmed s.safeHalt, platesAfterReset,
  when_ (s.rd (.mgmt 0) .MGMT_THERM_STAT_STEP == 3) haltStays, newNonce,
  when_ (s.debugState == dbPENDING)
    (all [wr (.sec 0) .SEC_DEBUG_STATE dbUNLOCKED, emit (.debugPins true), raise (.sec 0) .SEC_DEBUG_UNLOCKED])]

theorem warmRest_in (s : State) (cause : Nat) : (warmRest s cause).In Foot.warmRest := by
  have hdebug : (all [wr (.sec 0) .SEC_DEBUG_STATE dbUNLOCKED, emit (.debugPins true), raise (.sec 0) .SEC_DEBUG_UNLOCKED]).In
      Foot.warmRest :=
    all_cons_in (wr_in (own_mem (by decide +kernel)) (by decide +kernel)) <| all_cons_in (emit_in (by decide +kernel)) <|
      all_cons_in (raise_in (pg := .sec 0) rfl (by decide +kernel) _) all_nil_in
  exact all_cons_in (put_in (by decide +kernel)) <| all_cons_in (warmCause_in (by decide +kernel) _) <|
    all_cons_in (interrupted_in (by decide +kernel) _ _ _) <| all_cons_in (platesAfterReset_in (by decide +kernel)) <|
    all_cons_in (when_in (haltStays_in (by decide +kernel))) <| all_cons_in (newNonce_in (by decide +kernel)) <|
    all_cons_in (when_in hdebug) all_nil_in

/-- What it does before: the notices and the semaphores of the fabric go, and CYC_OUT is low. -/
def warmFirst (s : State) : Upd := all [
  cycOutLow, forEach (allBelow 1072 fun q => !(s.fifo .notices q).isEmpty) dropNotices, semsOf fun _ => true]

theorem warmFirst_in (s : State) : (warmFirst s).In (Foot.cycOutLow.and (Foot.dropNotices.and Foot.semsOf)) :=
  all_cons_in (cycOutLow_in (by decide +kernel)) <| all_cons_in (forEach_in fun _ => dropNotices_in (by decide +kernel) _) <|
    all_cons_in (semsOf_in (by decide +kernel) _) all_nil_in

omit h in
theorem warmReset_run : (warmReset cause).run s =
    (warmRest s cause).run ((put .dieReset drWARM).run (warmClear.run ((warmFirst s).run s))) := by
  simp only [warmReset, warmRest, warmFirst, look_run, all_cons_run, all_nil_run]

/-- A warm reset keeps the numbers it outlasts, the count of log records aside. -/
theorem iv_warmReset {x : Var} (hx : x ∈ warmVars) (hne : x ≠ .elogSeq) (i : Nat) : ((warmReset cause).run s).iv x i = s.iv x i := by
  have := Upd.keeps_fact
  have hout : ∀ y ∈ warmVars, y ≠ .elogSeq → y ∉ Foot.warmRest.vars ∧ y ∉ (Foot.cycOutLow.and (Foot.dropNotices.and Foot.semsOf)).vars ∧
      y ≠ .dieReset := by decide
  obtain ⟨hrest, hfirst, hdie⟩ := hout x hx hne
  rw [warmReset_run, iv_of_in (warmRest_in s cause) hrest]
  simp [hdie, iv_warmClear hx, iv_of_in (warmFirst_in s) hfirst]

theorem dieReset_warmReset : ((warmReset cause).run s).iv .dieReset = drWARM := (warmReset_starts h.out cause).2.1

theorem warmReset_empties : ((warmReset cause).run s).buf = [] ∧ ((warmReset cause).run s).arb = s.arb := by
  have := Upd.keeps_fact
  have harb := fun (t : State) (ht : Fact t.wf) => (warmRest_in s cause t ht.out).arb (by decide +kernel)
  have harb' := (warmFirst_in s s h.out).arb (by decide +kernel)
  rw [warmReset_run, buf_of_in (warmRest_in s cause) (by decide +kernel), harb _ (this _ _)]
  simp [harb']

/-- The cause of a warm reset. -/
theorem warmReset_cause : ((warmReset cause).run s).rd .glb .GLB_RESET_CAUSE_LAST = cause % 16 ∧
    ((warmReset cause).run s).iv .warmReg = b2n (cause == rcREG) ∧
    (cause = rcPIN → ((warmReset cause).run s).rd .glb .GLB_RESET_CAUSE_WARM_PIN = 1) := by
  have := Upd.keeps_fact
  have hnonce := newNonce_in (Foot.le_refl _)
  have hplates := platesAfterReset_in (Foot.le_refl _)
  have hhalt := haltStays_in (Foot.le_refl _)
  refine ⟨?_, ?_, fun hc => ?_⟩
  all_goals
    rw [warmReset_run]
    simp +decide [warmRest, warmCause, interrupted, rd_of_in hnonce, rd_of_in hplates, rd_of_in hhalt, iv_of_in hnonce, iv_of_in hplates,
      iv_of_in hhalt]
  · rfl
  · simp [hc]

end

/-! ### Safe Halt -/

/-- Safe Halt is entered, with its cause (R622). -/
theorem safeHaltNow_halts {s : State} [h : Fact s.wf] (hn : s.safeHalt = false) (cause block dinst bit : Nat) :
    ((safeHaltNow cause block dinst bit).run s).safeHalt = true ∧ ((safeHaltNow cause block dinst bit).run s).iv .haltRel = 0 ∧
    ((safeHaltNow cause block dinst bit).run s).rd (.guard 0) .GUARD_HALT_CAUSE_CAUSE = cause % 16 ∧
    ((safeHaltNow cause block dinst bit).run s).rd (.guard 0) .GUARD_HALT_CAUSE_VALID = 1 := by
  have := Upd.keeps_fact
  have hports := containPorts_in (Foot.le_refl _)
  have hlinks : ∀ l, (forEach l fun p => linkTo p (if s.isFab p then lsCONTAINED else lsDISABLED)).In _ := 
    fun l => forEach_in fun p => linkTo_in (Foot.le_refl _) p _
  have hdisarm := disarmAll_in (Foot.le_refl _)
  have hlog := fun r => logRec_in (Foot.le_refl _) r
  rw [safeHaltNow, look_run, when_pos (by simp [hn])]
  simp +decide [State.safeHalt, rd_of_in (hports _), rd_of_in (hlinks _), rd_of_in hdisarm, rd_of_in (hlog _),
    iv_of_in hdisarm, iv_of_in (hlog _)]
  rfl

end Sys2Proof.Machine
end

section
/-! PROOF. The fields of GUARD_DOMAIN_STAT, by domain (Table GUARD-2). -/

namespace Sys2Proof.Machine

set_option Elab.async false

/-- A domain's field is one of GUARD page 1. -/
theorem gdsFld_mem {f : Fld} (hf : f ∈ gdsLane) (d : Dom) : gdsFld d f ∈ (Pg.guard 1).fields := by
  have h : ∀ g ∈ gdsLane, ∀ oc ∈ [(0x100, 192), (0x400, 96), (0x600, 160), (0x1000, 1024), (0x2000, 32), (0x2100, 1)],
      ({ g with off := oc.1, count := oc.2 } : Fld) ∈ tabGUARD1 := by decide +kernel
  refine own_mem (h f hf ((domOff d).1, domCount d) ?_)
  cases d <;> simp [domOff, domCount]

/-- Fields of two names, or of domains of two kinds, are two fields. -/
theorem gdsFld_ne {f g : Fld} (hf : f ∈ gdsLane) (hg : g ∈ gdsLane) (hne : g ≠ f) (d e : Dom) : gdsFld e g ≠ gdsFld d f := by
  have h : ∀ f ∈ gdsLane, ∀ g ∈ gdsLane, g ≠ f → (g.lo, g.width) ≠ (f.lo, f.width) := by decide +kernel
  intro he
  have hbits : (gdsFld e g).lo = (gdsFld d f).lo ∧ (gdsFld e g).width = (gdsFld d f).width := he ▸ ⟨rfl, rfl⟩
  exact h f hf g hg hne (Prod.ext hbits.1 hbits.2)

theorem gdsFld_stride {f : Fld} (hf : f ∈ gdsLane) (d : Dom) : (gdsFld d f).stride ≠ 0 := by
  have h : ∀ f ∈ gdsLane, f.stride ≠ 0 := by decide +kernel
  exact h f hf

/-- The state of a domain is its field STATE. -/
theorem domState_eq (s : State) (d : Dom) : s.domState d = s.gds d .GDS_LANE_STATE := by cases d <;> rfl

section
variable {s : State} [Fact s.wf]

@[simp] theorem gds_wgds (d : Dom) (f : Fld) (v : Nat) : ((wgds d f v).run s).gds d f = v % 2 ^ f.width := rd_wr ..

@[simp] theorem gds_wgds_of_ne {f g : Fld} (hf : f ∈ gdsLane) (hg : g ∈ gdsLane) (hne : g ≠ f) (d e : Dom) (v : Nat) :
    ((wgds d f v).run s).gds e g = s.gds e g :=
  rd_wr_of_ne (gdsFld_mem hf d) (gdsFld_mem hg e) (gdsFld_ne hf hg hne d e) ..

/-- A write of one domain's field leaves those of every domain with another place. -/
theorem gds_wgds_of_domOff_ne {f g : Fld} (hf : f ∈ gdsLane) (hg : g ∈ gdsLane) {d e : Dom} (hne : domOff e ≠ domOff d) (v : Nat) :
    ((wgds d f v).run s).gds e g = s.gds e g := by
  by_cases hfg : g = f
  · subst hfg
    by_cases hfld : gdsFld e g = gdsFld d g
    · have hoff : (domOff e).1 = (domOff d).1 := congrArg Fld.off hfld
      have hidx : (domOff e).2 ≠ (domOff d).2 := fun h => hne (Prod.ext hoff h)
      unfold State.gds wgds
      rw [hfld]
      exact rd_wr_of_index_ne (gdsFld_mem hg d) (gdsFld_stride hg d) hidx v
    · exact rd_wr_of_ne (gdsFld_mem hf d) (gdsFld_mem hg e) hfld ..
  · exact gds_wgds_of_ne hf hg hfg d e v

/-- It leaves every field of the other pages and the other tables. -/
theorem rd_wgds {f g : Fld} (hf : f ∈ gdsLane) {pg : Pg} (hg : g ∈ pg.fields) (hne : pg ≠ .guard 1) (d : Dom) (v i : Nat) :
    ((wgds d f v).run s).rd pg g i = s.rd pg g i :=
  rd_wr_of_page_ne (gdsFld_mem hf d) hg hne ..

/-- A field written in a list of domains holds the value in each of them. -/
theorem gds_forEach_wgds {f : Fld} (hf : f ∈ gdsLane) {l : List Dom} {d : Dom} (hd : d ∈ l) (v : Nat) (s : State) [Fact s.wf] :
    ((forEach l fun e => wgds e f v).run s).gds d f = v % 2 ^ f.width := by
  have key : ∀ (l : List Dom) (t : State) [Fact t.wf], d ∈ l ∨ t.gds d f = v % 2 ^ f.width →
      ((forEach l fun e => wgds e f v).run t).gds d f = v % 2 ^ f.width := by
    intro l
    induction l with
    | nil => exact fun t _ h => h.resolve_left List.not_mem_nil
    | cons e l ih =>
      intro t _ h
      have := Upd.keeps_fact (wgds e f v) t
      rw [forEach_cons_run]
      refine ih _ ?_
      by_cases hoff : domOff d = domOff e
      · have hsame : ((wgds e f v).run t).gds d f = v % 2 ^ f.width := by
          have hfld : gdsFld d f = gdsFld e f := by
            have hcnt : domCount d = domCount e := by
              have h1 := congrArg Prod.fst hoff
              cases d <;> cases e <;> simp [domOff] at h1 <;> rfl
            simp [gdsFld, hoff, hcnt]
          unfold State.gds wgds
          rw [hfld, hoff]
          exact rd_wr ..
        exact .inr hsame
      · rcases h with h | h
        · exact .inl ((List.mem_cons.1 h).resolve_left fun he => hoff (he ▸ rfl))
        · exact .inr ((gds_wgds_of_domOff_ne hf hf hoff v).trans h)
  exact key l s (.inl hd)

/-- It stays as it is in a domain that none of the list shares a place with. -/
theorem gds_forEach_wgds_of_ne {f g : Fld} (hf : f ∈ gdsLane) (hg : g ∈ gdsLane) {l : List Dom} {d : Dom} (h : ∀ e ∈ l, domOff d ≠ domOff e)
    (v : Nat) (s : State) [Fact s.wf] : ((forEach l fun e => wgds e f v).run s).gds d g = s.gds d g :=
  forEach_keeps (P := fun t => t.gds d g = s.gds d g) (fun e he _ _ ht => (gds_wgds_of_domOff_ne hf hg (h e he) v).trans ht) s rfl

/-- A change that touches no field of GUARD_DOMAIN_STAT leaves the domains. -/
theorem gds_of_in {F : Foot} {u : Upd} (hu : u.In F) (hn : Foot.wgds.regs.all (fun q => !F.regs.contains q) = true) {f : Fld} (hf : f ∈ gdsLane)
    (d : Dom) : (u.run s).gds d f = s.gds d f := by
  refine rd_of_in hu (gdsFld_mem hf d) fun hmem => ?_
  have hw : (Fam.guard, gdsFld d f) ∈ Foot.wgds.regs := by
    have h : ∀ g ∈ gdsLane, ∀ oc ∈ [(0x100, 192), (0x400, 96), (0x600, 160), (0x1000, 1024), (0x2000, 32), (0x2100, 1)],
        (Fam.guard, ({ g with off := oc.1, count := oc.2 } : Fld)) ∈ Foot.wgds.regs := by decide +kernel
    refine h f hf ((domOff d).1, domCount d) ?_
    cases d <;> simp [domOff, domCount]
  have := List.all_eq_true.1 hn _ hw
  simp at this
  exact this hmem

end

end Sys2Proof.Machine
end

section
/-! PROOF. Where a frame goes is the same before and after events that are only counted and reported: the route, the refusal, the
port and the admission read neither counters nor the error fields of a page (R372, R601, Table CORE-1). -/

namespace Sys2Proof.Machine

set_option Elab.async false

/-- The fields that counting and reporting touch. -/
def eventFields : List Fld := .GUARD_ELOG_CTRL_LOST :: errFields ++ fCnt

/-- The numbers that decide where a frame goes. -/
def wayVars : List Var := [.plate, .unreach, .bme]

/-- Two states agree in every register field but those of events, and in the numbers that decide where a frame goes. -/
structure SameWays (s t : State) : Prop where
  rd : ∀ pg, ∀ f ∈ pg.fields, f ∉ eventFields → ∀ i, t.rd pg f i = s.rd pg f i
  iv : ∀ x ∈ wayVars, ∀ i, t.iv x i = s.iv x i

theorem SameWays.refl (s : State) : SameWays s s := ⟨fun _ _ _ _ _ => rfl, fun _ _ _ => rfl⟩

theorem SameWays.trans {s t u : State} (hst : SameWays s t) (htu : SameWays t u) : SameWays s u :=
  ⟨fun pg f hm hn i => (htu.rd pg f hm hn i).trans (hst.rd pg f hm hn i), fun x hx i => (htu.iv x hx i).trans (hst.iv x hx i)⟩

theorem sameWays_of_in {F : Foot} {u : Upd} (hu : u.In F) (hregs : F.regs.all (fun r => eventFields.contains r.2) = true)
    (hvars : ∀ x ∈ wayVars, x ∉ F.vars) (s : State) [Fact s.wf] : SameWays s (u.run s) :=
  ⟨fun _ f hm hn _ => rd_of_in hu hm fun h => hn (by simpa using List.all_eq_true.1 hregs (_, f) h), fun x hx _ => iv_of_in hu (hvars x hx)⟩

theorem sameWays_addCnt {pg : Pg} (hc : pg.common = true) (k n : Nat) (s : State) [Fact s.wf] : SameWays s ((addCnt pg k n).run s) := by
  refine sameWays_of_in (addCnt_in hc (Foot.le_refl _) k n) ?_ ?_ s
  all_goals generalize Fam.of pg = k; cases k <;> decide +kernel

section
variable {s t : State} (h : SameWays s t)
include h

theorem SameWays.on (pg : Pg) (f : Fld) (hm : f ∈ pg.fields) (hn : f ∉ eventFields) (i : Nat) : t.on pg f i = s.on pg f i :=
  congrArg (· != 0) (h.rd pg f hm hn i)

theorem SameWays.live : t.live = s.live := h.rd _ _ (own_mem (show _ ∈ tabROUTE0 by decide +kernel)) (by decide) _

theorem SameWays.idRoute? (k n : Nat) : t.idRoute? k n = s.idRoute? k n := idRoute_congr (h.iv .plate (by decide)) k n

theorem SameWays.role (p : Nat) : t.role p = s.role p := h.rd (.port p) _ (own_mem (show _ ∈ tabPORT by decide)) (by decide) _

theorem SameWays.link (p : Nat) : t.link p = s.link p := h.rd (.port p) _ (own_mem (show _ ∈ tabPORT by decide)) (by decide) _

theorem SameWays.isFab (p : Nat) : t.isFab p = s.isFab p := by rw [State.isFab, h.role]; rfl

theorem SameWays.wayTo (k n : Nat) (arrival : Option Nat) : t.wayTo k n arrival = s.wayTo k n arrival := by
  have husable : t.usable = s.usable := funext fun p => by simp only [State.usable, h.isFab, h.link]
  simp only [State.wayTo, h.idRoute?, husable]

theorem SameWays.faceOf (p : Nat) : t.faceOf p = s.faceOf p := by
  have hen : ∀ f, t.on (.face f) .FACE_BIND_ENABLE = s.on (.face f) .FACE_BIND_ENABLE :=
    fun f => h.on (.face f) _ (own_mem (show _ ∈ tabFACE by decide)) (by decide) _
  have hport : ∀ f, t.rd (.face f) .FACE_BIND_PORT = s.rd (.face f) .FACE_BIND_PORT :=
    fun f => h.rd (.face f) _ (own_mem (show _ ∈ tabFACE by decide)) (by decide) _
  simp only [State.faceOf, hen, hport]

theorem SameWays.faceLive (f : Nat) : t.faceLive f = s.faceLive f := by
  simp only [State.faceLive, h.on (.face f) .FACE_BIND_ENABLE (own_mem (show _ ∈ tabFACE by decide)) (by decide),
    h.rd (.face f) .FACE_BIND_STATE (own_mem (show _ ∈ tabFACE by decide)) (by decide)]

theorem SameWays.facePort (f : Nat) : t.facePort f = s.facePort f :=
  h.rd (.face f) _ (own_mem (show _ ∈ tabFACE by decide)) (by decide) _

theorem SameWays.domState (d : Dom) : t.domState d = s.domState d := by
  have hfld : gdsFld d .GDS_LANE_STATE ∉ eventFields := by
    have hall : ∀ oc ∈ [(0x100, 192), (0x400, 96), (0x600, 160), (0x1000, 1024), (0x2000, 32), (0x2100, 1)],
        ({ Fld.GDS_LANE_STATE with off := oc.1, count := oc.2 } : Fld) ∉ eventFields := by decide +kernel
    refine hall ((domOff d).1, domCount d) ?_
    cases d <;> simp [domOff, domCount]
  rw [domState_eq, domState_eq]
  exact h.rd _ _ (gdsFld_mem (by decide +kernel) d) hfld _

theorem SameWays.contained (d : Dom) : t.contained d = s.contained d := by
  rw [State.contained, h.domState]
  rfl

theorem SameWays.unreachable (n : Nat) : t.unreachable n = s.unreachable n := by
  simp only [State.unreachable, State.ivOn, h.iv .unreach (by decide), h.idRoute?, h.live, h.role, h.faceOf, h.contained, h.domState]

theorem SameWays.portClosed (p : Nat) : t.portClosed p = s.portClosed p := by
  have hdom : t.portDom p = s.portDom p := by
    simp only [State.portDom, h.rd (.port p) .PORT_CFG_ROLE (own_mem (show _ ∈ tabPORT by decide)) (by decide)]
  rw [State.portClosed, hdom, h.contained]
  rfl

theorem SameWays.ideStops (p : Nat) (f : Frame) : t.ideStops p f = s.ideStops p f := by
  have hsec : ∀ f ∈ tabSEC1, f ∉ eventFields → t.on (.sec 1) f p = s.on (.sec 1) f p := fun f hm hn => h.on (.sec 1) f (own_mem hm) hn p
  simp only [State.ideStops, State.ideBars, State.ideSecure, hsec .SEC_IDE_STAT_REQUIRED (by decide) (by decide),
    hsec .SEC_IDE_STAT_LINK_SECURE (by decide) (by decide), hsec .SEC_IDE_STAT_SEL_SECURE (by decide) (by decide)]

theorem SameWays.poisonStops (p : Nat) (f : Frame) : t.poisonStops p f = s.poisonStops p f := by
  simp only [State.poisonStops, h.role, h.on (.guard 0) .GUARD_POLICY_POISON_BLOCK (own_mem (show _ ∈ tabGUARD0 by decide)) (by decide)]

theorem SameWays.masterOff (g : Nat) (f : Frame) : t.masterOff g f = s.masterOff g f := by
  simp only [State.masterOff, State.ivOn, h.iv .bme (by decide), h.idRoute?, h.live]

theorem SameWays.lossy (c : Nat) : t.lossy c = s.lossy c := by
  rw [State.lossy, h.rd (.core 0) _ (own_mem (show _ ∈ tabCORE0 by decide)) (by decide)]
  rfl

theorem SameWays.safeHalt : t.safeHalt = s.safeHalt := by
  rw [State.safeHalt, h.rd .glb _ (own_mem (show _ ∈ tabGLB by decide)) (by decide)]
  rfl

theorem SameWays.unsampled : t.unsampled = s.unsampled := by
  simp only [State.unsampled, h.on (.core 0) .CORE_STIPPLE_CFG_EN (own_mem (show _ ∈ tabCORE0 by decide)) (by decide)]

theorem SameWays.admitsAt (hwait : t.waiting = s.waiting) (p q c : Nat) : t.admitsAt p q c = s.admitsAt p q c := by
  have hquiet : ∀ pg, pg.common = true → t.on pg .BLK_CTRL_QUIESCE = s.on pg .BLK_CTRL_QUIESCE :=
    fun pg hc => h.on pg _ (hdr_mem hc (by decide)) (by decide) 0
  simp only [State.admitsAt, hwait, hquiet (.core 0) rfl, hquiet (.port q) rfl, h.safeHalt, h.portClosed, h.lossy, h.unsampled,
    h.on .schedg .SCHED_POL_MAP_EN (own_mem (show _ ∈ tabSCHEDG by decide)) (by decide)]

end

/-! ### Refusals -/

/-- Nothing refuses a frame for a port exactly when its destination is reachable, the port passes it, and a host behind the port
takes it. -/
theorem refusal_none_iff (s : State) (f : Frame) (q : Nat) : s.refusal f (.port q) = none ↔
    s.unreachable f.dest = false ∧ s.ideStops q f = false ∧ s.poisonStops q f = false ∧
      ∀ g, s.faceOf q = some g → s.masterOff g f = false ∧ s.faceLive g = true := by
  by_cases hun : s.unreachable f.dest = true
  · simp [State.refusal, hun]
  by_cases hide : s.ideStops q f = true
  · simp [State.refusal, hun, hide]
  by_cases hpoison : s.poisonStops q f = true
  · simp [State.refusal, hun, hide, hpoison]
  cases hface : s.faceOf q with
  | none => simp [State.refusal, hun, hide, hpoison, hface]
  | some g =>
    by_cases hmaster : s.masterOff g f = true
    · simp [State.refusal, hun, hide, hpoison, hface, hmaster]
    by_cases hlive : s.faceLive g = true
    · simp [State.refusal, hun, hide, hpoison, hface, hmaster, hlive]
    · cases hbody : f.body with
      | tlp u => by_cases hc : u.kind = .cpl <;> simp [State.refusal, hun, hide, hpoison, hface, hmaster, hlive, hbody, hc]
      | _ => simp [State.refusal, hun, hide, hpoison, hface, hmaster, hlive, hbody]

/-- A refusal looks at a frame's destination and source and at the kind and the poison of its TLP. -/
theorem refusal_none_congr {s t : State} (h : SameWays s t) {f g : Frame} {q : Nat} {u v : Tlp} (hf : f.body = .tlp u) (hg : g.body = .tlp v)
    (hdest : g.dest = f.dest) (hsrc : g.src = f.src) (hkind : v.kind = u.kind) (hep : v.ep = u.ep) (hnone : s.refusal f (.port q) = none) :
    t.refusal g (.port q) = none := by
  rw [refusal_none_iff] at hnone ⊢
  have hcpl : g.isCpl = f.isCpl := by simp [Frame.isCpl, hf, hg, hkind]
  simp only [h.unreachable, h.ideStops, h.poisonStops, h.faceOf, h.masterOff, h.faceLive]
  simpa only [hdest, State.ideStops, State.poisonStops, hf, hg, hkind, hep, State.masterOff, hcpl, hsrc] using hnone

/-! ### Admission at once -/

theorem sampleAt_of_unsampled {s : State} (h : s.unsampled = true) (port point : Nat) (k : Pkt) (size : Nat) :
    (sampleAt port point k size).run s = s := by
  have hoff : ∀ m ∈ List.range 16, s.on (.core 0) .CORE_STIPPLE_CFG_EN m = false := by simpa [State.unsampled] using h
  have hall : ∀ l : List Nat, (∀ m ∈ l, s.on (.core 0) .CORE_STIPPLE_CFG_EN m = false) → ∀ f : Nat → Upd,
      (∀ m, s.on (.core 0) .CORE_STIPPLE_CFG_EN m = false → (f m).run s = s) → (forEach l f).run s = s := by
    intro l hl f hf
    induction l with
    | nil => rfl
    | cons m l ih => rw [forEach_cons_run, hf m (hl m (List.mem_cons_self ..)), ih fun n hn => hl n (List.mem_cons_of_mem _ hn)]
  exact hall _ hoff _ fun m hm => by simp [hm]

/-- What an update leaves of a frame that goes to one port: it stands last in the buffer. -/
theorem enqueue_buf {s : State} [Fact s.wf] {k : Pkt} {c : Copy} {q : Nat} (hc : k.copies = [c]) (hd : c.dst = .port q) :
    ((enqueue k).run s).buf = s.buf ++
      [{ k with cells := s.cellsFor k, frame := if s.fromFab k.ing then k.frame else k.frame.sealed }] := by
  have := Upd.keeps_fact
  have hadv : Upd.In _ (shaperAdvance q) := shaperAdvance_in (Foot.le_refl _) q
  have hlock : Upd.In _ (lockRequest q k.frame) := lockRequest_in (Foot.le_refl _) q k.frame
  have hwatch := coreWatch_in (Foot.le_refl _)
  simp only [enqueue, look_run, all_cons_run, all_nil_run, hc]
  cases k.ing <;> simp +decide [buf_of_in hwatch, buf_of_in hlock, buf_of_in hadv, hd]

/-- A frame that joins its queues counts on CORE and BRIDGE only. -/
theorem enqueue_keepsCnt {pg : Pg} {i : Nat} (hi : ¬(Fam.of pg = .face ∧ i = 3)) (hcore : Fam.of pg ≠ .core) (hbridge : Fam.of pg ≠ .bridge)
    (k : Pkt) : (enqueue k).KeepsCnt pg i := by
  have hcount : ∀ a j n, (addCnt (.core a) j n).KeepsCnt pg i := fun a j n => addCnt_keepsCnt hi (fun h => hcore (h.1 ▸ rfl)) n
  have hlock : ∀ q f, (lockRequest q f).KeepsCnt pg i := fun q f => look_keepsCnt fun s => when_keepsCnt (by
    have hb : ∀ j, (bump (.bridge 0) j).KeepsCnt pg i := fun j => addCnt_keepsCnt hi (fun h => hbridge (h.1 ▸ rfl)) 1
    split
    · refine all_keepsCnt ?_
      simp only [List.forall_mem_cons]
      exact ⟨keepsCnt_of_same fun _ => rfl, keepsCnt_of_same fun _ => rfl, hb _, nofun⟩
    · exact when_keepsCnt (hb _))
  refine look_keepsCnt fun s => all_keepsCnt ?_
  simp only [List.forall_mem_cons]
  refine ⟨forEach_keepsCnt fun c => ?_, ?_, when_keepsCnt (keepsCnt_of_same fun _ => rfl), when_keepsCnt (keepsCnt_of_same fun _ => rfl),
    when_keepsCnt (forEach_keepsCnt fun c => ?_), keepsCnt_of_in (coreWatch_in (Foot.le_refl _)) List.not_mem_nil, nofun⟩
  · cases c.dst with
    | port q => exact keepsCnt_of_in (shaperAdvance_in (Foot.le_refl _) q) List.not_mem_nil
    | self => exact skip_keepsCnt
  · cases k.ing with
    | port p => exact all_keepsCnt (by simp only [List.forall_mem_cons]; exact ⟨hcount _ _ _, hcount _ _ _, nofun⟩)
    | _ => exact skip_keepsCnt
  · cases c.dst with
    | port q => exact hlock q _
    | self => exact skip_keepsCnt

/-- A frame toward one open port that is not retained here joins its queue. -/
theorem admitFrame_buf {s : State} [Fact s.wf] {k : Pkt} {c : Copy} {q : Nat} (hc : k.copies = [c]) (hd : c.dst = .port q)
    (hclosed : s.portClosed q = false) (hlossy : k.lossy = false) (hret : s.retains k = false) :
    ((admitFrame k).run s).waiting = s.waiting ∧ (∃ j : Pkt, ((admitFrame k).run s).buf = s.buf ++ [j] ∧ j.ing = k.ing ∧
      j.copies = k.copies ∧ j.frame.dest = k.frame.dest ∧ j.frame.src = k.frame.src ∧ j.frame.tag = k.frame.tag ∧ j.frame.body = k.frame.body) ∧
      ∀ f i, i ≠ 3 → ((admitFrame k).run s).cnt (.face f) i = s.cnt (.face f) i := by
  have keeps := Upd.keeps_fact
  generalize hf : (if (!s.fromFab k.ing && !s.retains k) = true then { k.frame with retain := false, seq := 0, epoch := 0 } else k.frame : Frame) = f
  have hfdest : f.dest = k.frame.dest ∧ f.src = k.frame.src ∧ f.tag = k.frame.tag ∧ f.body = k.frame.body := by
    rw [← hf]
    split <;> exact ⟨rfl, rfl, rfl, rfl⟩
  obtain ⟨hdest, hsrc, htag, hbody⟩ := hfdest
  have hkeep : (admitFrame k).run s = (enqueue { k with frame := f }).run ((when_ (!s.fromFab k.ing && k.frame.mc) (bump (.bridge 4) 9)).run s) := by
    simp [admitFrame, hc, hd, hclosed, hlossy, hret, ← hf]
  have hcount : Upd.In (Foot.counting .bridge) (when_ (!s.fromFab k.ing && k.frame.mc) (bump (.bridge 4) 9)) :=
    when_in (addCnt_in (pg := .bridge 4) rfl (Foot.le_refl _) 9 1)
  have hbuf := enqueue_buf (s := (when_ (!s.fromFab k.ing && k.frame.mc) (bump (.bridge 4) 9)).run s) (k := { k with frame := f }) hc hd
  have henq := enqueue_in (Foot.le_refl _) { k with frame := f }
  rw [hkeep, hbuf, buf_of_in hcount (by decide), waiting_of_in henq (by decide +kernel), waiting_of_in hcount (by decide)]
  refine ⟨rfl, ⟨_, rfl, rfl, rfl, ?_⟩, fun a i hi => ?_⟩
  · split <;> exact ⟨hdest, hsrc, htag, hbody⟩
  · rw [enqueue_keepsCnt (by simp [hi]) (by simp [Fam.of]) (by simp [Fam.of]) { k with frame := f } _ (keeps _ _).out]
    exact when_keepsCnt (addCnt_keepsCnt (by simp [hi]) (by simp) 1) s ‹Fact s.wf›.out

/-- A frame that nothing holds back enters the buffer toward its port. -/
theorem offer_admits_one {s : State} [Fact s.wf] {p q : Nat} {g : Frame} (hadm : s.admitsAt p q g.cls = true) (hret : g.retain = false)
    (tail : Bool) :
    ((offer (.port p) g [.port q] none tail).run s).waiting = s.waiting ∧
      (∃ j : Pkt, ((offer (.port p) g [.port q] none tail).run s).buf = s.buf ++ [j] ∧ j.ing = .port p ∧ j.copies.map (·.dst) = [.port q] ∧
        j.frame.dest = g.dest ∧ j.frame.src = g.src ∧ j.frame.tag = g.tag) ∧
      ∀ f i, i ≠ 3 → ((offer (.port p) g [.port q] none tail).run s).cnt (.face f) i = s.cnt (.face f) i := by
  have keeps := Upd.keeps_fact
  have hput : Upd.In _ (put .pktId (s.iv .pktId + 1)) := put_in (F := Foot.numbers [.pktId]) (List.mem_singleton.2 rfl)
  have hsame := sameWays_of_in hput (by decide) (by decide) s
  have hwaits : ((put .pktId (s.iv .pktId + 1)).run s).waiting = s.waiting := rfl
  have hadm' : ((put .pktId (s.iv .pktId + 1)).run s).admitsAt p q g.cls = true := (hsame.admitsAt hwaits p q g.cls).trans hadm
  simp only [State.admitsAt, Bool.and_eq_true, Bool.not_eq_true'] at hadm hadm'
  obtain ⟨⟨-, hlossy⟩, -⟩ := hadm.1
  generalize hk : s.pkt (.port p) g [.port q] none tail = k
  have hing : k.ing = .port p := by rw [← hk]; rfl
  have hframe : k.frame = g := by rw [← hk]; rfl
  have hvi : k.vi = none := by rw [← hk]; rfl
  have hklossy : k.lossy = false := by simp [← hk, State.pkt, hlossy]
  obtain ⟨c, hc, hd⟩ : ∃ c : Copy, k.copies = [c] ∧ c.dst = .port q := by
    rw [← hk]
    exact ⟨_, rfl, rfl⟩
  have hplain : ∀ pg i, ((put .pktId (s.iv .pktId + 1)).run s).cnt pg i = s.cnt pg i := fun _ _ => rfl
  have hu := keeps (put .pktId (s.iv .pktId + 1)) s
  have hbuf : ((put .pktId (s.iv .pktId + 1)).run s).buf = s.buf := rfl
  simp only [offer, look_run, all_cons_run, all_nil_run, hk]
  generalize (put .pktId (s.iv .pktId + 1)).run s = u at *
  obtain ⟨⟨⟨⟨⟨⟨⟨hwait, hcore⟩, hhalt⟩, hquiet⟩, hclosed⟩, -⟩, hsampled⟩, hpol⟩ := hadm'
  have hnone : u.waiting = [] := by simpa using hwait
  have hmust : u.mustWait k = none := by
    simp [State.mustWait, State.retains, hcore, hhalt, hklossy, hc, hd, hquiet, hing, hframe, hret]
  have hpolice : (police k).run u = (admitFrame k).run u := by
    simp [police, State.instPolicer, State.policerFor, hvi, hing, hframe, hpol, step4, sampleAt_of_unsampled hsampled, tryAdmit, hnone, hmust]
  obtain ⟨hw, ⟨j, hj, hjing, hjc, hjdest, hjsrc, hjtag, -⟩, hcnt⟩ :=
      admitFrame_buf hc hd hclosed hklossy (show u.retains k = false by simp [State.retains, hframe, hret])
  rw [hpolice, hw, hj, hwaits, hbuf]
  refine ⟨rfl, ⟨j, rfl, hjing.trans hing, ?_, ?_, ?_, ?_⟩, fun f i hi => (hcnt f i hi).trans (hplain _ _)⟩
  · simp [hjc, hc, hd]
  all_goals simp [*]

/-- A frame whose way is open is counted and offered to the port of its destination. -/
theorem deliver_run {s : State} {p q : Nat} {g : Frame} (hway : s.wayTo s.live g.dest none = some (.port q))
    (href : s.refusal g (.port q) = none) (tail : Bool) :
    (deliver (.port p) g none tail).run s = (offer (.port p) g [.port q] none tail).run (countIngress.run s) := by
  have htwo : ∀ u v : Upd, (all [u, v]).run s = v.run (u.run s) := fun _ _ => rfl
  unfold deliver
  rw [look_run, hway]
  dsimp only
  refine (htwo _ _).trans ?_
  rw [href]

/-- A frame whose way is open enters the buffer toward the port of its destination. -/
theorem deliver_admits {s : State} [Fact s.wf] {p q : Nat} {g : Frame} (hway : s.wayTo s.live g.dest none = some (.port q))
    (href : s.refusal g (.port q) = none) (hadm : s.admitsAt p q g.cls = true) (hret : g.retain = false) (tail : Bool) :
    ((deliver (.port p) g none tail).run s).waiting = s.waiting ∧
      (∃ j : Pkt, ((deliver (.port p) g none tail).run s).buf = s.buf ++ [j] ∧ j.ing = .port p ∧ j.copies.map (·.dst) = [.port q] ∧
        j.frame.dest = g.dest ∧ j.frame.src = g.src ∧ j.frame.tag = g.tag) ∧
      ∀ f i, i ≠ 3 → ((deliver (.port p) g none tail).run s).cnt (.face f) i = s.cnt (.face f) i := by
  have keeps := Upd.keeps_fact
  have hsame : SameWays s (countIngress.run s) := sameWays_addCnt rfl 0 1 s
  have hbuf : (countIngress.run s).buf = s.buf := buf_addCnt rfl 0 1
  have hwait : (countIngress.run s).waiting = s.waiting := waiting_addCnt rfl 0 1
  have hcnt : ∀ f i, i ≠ 3 → (countIngress.run s).cnt (.face f) i = s.cnt (.face f) i := fun f i hi =>
    addCnt_keepsCnt (by simp [hi]) (by simp) 1 s ‹Fact s.wf›.out
  obtain ⟨hw, hj, hc⟩ := offer_admits_one (s := countIngress.run s) ((hsame.admitsAt hwait p q g.cls).trans hadm) hret tail
  rw [deliver_run hway href, ← hbuf, ← hwait]
  exact ⟨hw, hj, fun f i hi => (hc f i hi).trans (hcnt f i hi)⟩

end Sys2Proof.Machine
end

section
/-! PROOF. A link that goes down (R219, R236, R257): where its port waits, what its link layer keeps, and what a control block
sends. -/

namespace Sys2Proof.Machine

set_option Elab.async false

/-- The register fields that decide where the link of a port waits, but for the states of domains. -/
def restFields : List Fld := [.PORT_CFG_ROLE, .PORT_LINK_CTRL_DISABLE]

/-- The state in which a link waits depends on its role, DISABLE and the states of domains. -/
theorem restState_congr {s t : State} {p : Nat} (hregs : ∀ f ∈ restFields, t.rd (.port p) f = s.rd (.port p) f)
    (hdom : ∀ d, t.domState d = s.domState d) : t.restState p = s.restState p := by
  have hrole : t.role p = s.role p := hregs _ (by decide)
  have hdis : t.on (.port p) .PORT_LINK_CTRL_DISABLE = s.on (.port p) .PORT_LINK_CTRL_DISABLE := congrArg (· != 0) (hregs _ (by decide))
  have hof : t.portDom p = s.portDom p := by
    unfold State.portDom
    rw [show t.rd (.port p) .PORT_CFG_ROLE = s.rd (.port p) .PORT_CFG_ROLE from hrole]
  simp only [State.restState, State.linkHeld, State.isFab, hrole, hdom, hof, hdis]
  rfl

theorem restState_of_in {F : Foot} {u : Upd} (hu : u.In F) (hregs : ∀ f ∈ restFields, (Fam.port, f) ∉ F.regs)
    (hgds : Foot.wgds.regs.all (fun q => !F.regs.contains q) = true) (s : State) [Fact s.wf] (p : Nat) :
    (u.run s).restState p = s.restState p :=
  restState_congr (fun f hf => rd_of_in hu (own_mem ((by decide : ∀ f ∈ restFields, f ∈ tabPORT) f hf)) (hregs f hf))
    fun d => by rw [domState_eq, domState_eq, gds_of_in hu hgds (by decide)]

theorem restState_put (x : Var) (v i : Nat) (s : State) (p : Nat) : ((put x v i).run s).restState p = s.restState p := rfl

theorem restState_wr {pg : Pg} {f : Fld} (hm : f ∈ pg.fields) (hf : f ∉ restFields) (hne : pg ≠ .guard 1) (v i : Nat) (s : State) [Fact s.wf]
    (p : Nat) : ((wr pg f v i).run s).restState p = s.restState p := by
  refine restState_congr (fun g hg => ?_) fun d => ?_
  · exact rd_wr_of_ne hm (own_mem ((by decide : ∀ f ∈ restFields, f ∈ tabPORT) g hg)) (fun h => hf (h ▸ hg)) ..
  · rw [domState_eq, domState_eq]
    exact rd_wr_of_page_ne hm (gdsFld_mem (by decide) d) hne.symm ..

theorem restState_addCnt {pg : Pg} (hc : pg.common = true) (k n : Nat) (s : State) [Fact s.wf] (p : Nat) :
    ((addCnt pg k n).run s).restState p = s.restState p := by
  refine restState_of_in (addCnt_in hc (Foot.le_refl _) k n) ?_ ?_ s p
  all_goals generalize Fam.of pg = k; cases k <;> decide +kernel

theorem restState_lt (s : State) (p : Nat) : s.restState p < 32 := by
  unfold State.restState
  split
  · split <;> decide
  · split <;> decide

theorem restState_fab {s : State} {p : Nat} (hfab : s.isFab p = true) (hheld : s.linkHeld p = false) : s.restState p = lsDOWN := by
  simp [State.restState, hfab, hheld]

section
variable {s : State} [h : Fact s.wf]

@[simp] theorem replayOf_putReplay (p : Nat) (l : List TxFrame) : ((putReplay p l).run s).replayOf p = l :=
  Map.get_set_self h.out.2.2.2.2.2.2.2.1 ..

/-- A control block goes out on the link of the port (R225). -/
theorem out_ctl (p typ body : Nat) : ((ctl p typ body).run s).out = .ctlBlock p typ body :: s.out := by
  have := Upd.keeps_fact
  simp +decide [ctl, out_of_in (linkSend_in (Foot.le_refl _) p _)]

/-- Each round of a loop that sends one control block sends one. -/
theorem out_length_ctls {l : List Nat} (p typ : Nat) (body : Nat → Nat) (t : State) [Fact t.wf] :
    ((forEach l fun i => ctl p typ (body i)).run t).out.length = t.out.length + l.length := by
  have := Upd.keeps_fact
  induction l generalizing t with
  | nil => rfl
  | cons i l ih =>
    rw [forEach_cons_run, ih, out_ctl]
    simp +arith

/-! ### Registers of single lanes -/

theorem ln_of_in {F : Foot} {u : Upd} (hu : u.In F) {f : Fld} (hf : f ∈ tabLANE) (hn : (Fam.lane, f) ∉ F.regs) (l : Nat) :
    (u.run s).ln l f = s.ln l f := rd_of_in hu (own_mem (pg := .lane _) hf) hn

omit h in
theorem ln_put (x : Var) (v i l : Nat) (f : Fld) : ((put x v i).run s).ln l f = s.ln l f := rfl

theorem ln_wr {pg : Pg} {f g : Fld} (hf : f ∈ pg.fields) (hg : g ∈ tabLANE) (hne : g ≠ f) (v i l : Nat) : ((wr pg f v i).run s).ln l g = s.ln l g :=
  rd_wr_of_ne hf (own_mem (pg := .lane _) hg) hne ..

theorem ln_wln (l : Nat) (f : Fld) (v : Nat) : ((wln l f v).run s).ln l f = v % 2 ^ f.width := rd_wr ..

theorem ln_wln_of_field_ne {f g : Fld} (hf : f ∈ tabLANE) (hg : g ∈ tabLANE) (hne : g ≠ f) (l m v : Nat) : ((wln l f v).run s).ln m g = s.ln m g :=
  rd_wr_of_ne (own_mem (pg := .lane _) hf) (own_mem (pg := .lane _) hg) hne ..

theorem ln_wln_of_lane_ne {f g : Fld} (hf : f ∈ tabLANE) (hg : g ∈ tabLANE) (hst : g.stride ≠ 0) {l m : Nat} (hne : m ≠ l) (v : Nat) :
    ((wln l f v).run s).ln m g = s.ln m g := by
  by_cases hfg : g = f
  · subst hfg
    by_cases hpg : m / 8 = l / 8
    · unfold State.ln wln
      rw [hpg]
      exact rd_wr_of_index_ne (own_mem (pg := .lane _) hf) hst (by omega) v
    · exact rd_wr_of_page_ne (own_mem (pg := .lane _) hf) (own_mem (pg := .lane _) hg) (by simpa using hpg) ..
  · exact ln_wln_of_field_ne hf hg hfg ..

/-- Clearing the link layer of a port empties its replay buffer. -/
theorem replayOf_clearLink (p : Nat) : ((clearLink p).run s).replayOf p = [] := by
  have hempty : (s.replay.set p [] []).get p [] = [] := replayOf_putReplay p []
  simpa [clearLink, State.replayOf, forEach] using hempty

/-- A link that goes down is in the state it goes to, and its replay buffer is empty (R236). -/
theorem linkTo_reaches {dest : Nat} (hd : dest < 32) (p : Nat) : ((linkTo p dest).run s).link p = dest ∧ ((linkTo p dest).run s).replayOf p = [] := by
  have := Upd.keeps_fact
  have hlanes : ∀ l, (forEach l fun l => when_ (s.laneState l != laneOFF) (laneTrain l)).In _ :=
    fun l => forEach_in fun l => when_in (laneTrain_in (Foot.le_refl _) l)
  have hface : ∀ o : Option Nat, (forSome o fun f => all [wr (.face f) .FACE_BIND_STATE 1, wr (.face f) .FACE_PM_STAT_LINK_PM 6]).In
      (Foot.fields .face [.FACE_BIND_STATE, .FACE_PM_STAT_LINK_PM]) := fun o => forSome_in fun f =>
    all_cons_in (wr_in (own_mem (show _ ∈ tabFACE by decide)) (fields_regs (by decide))) <|
      all_cons_in (wr_in (own_mem (show _ ∈ tabFACE by decide)) (fields_regs (by decide))) all_nil_in
  have hreplay : ∀ t : State, [Fact t.wf] → Map.get ((clearLink p).run t).replay p [] = [] := fun t _ => replayOf_clearLink p
  rw [linkTo, look_run]
  simp +decide [State.link, State.replayOf, rd_of_in (hlanes _), replay_of_in (hlanes _), rd_of_in (hface _), replay_of_in (hface _), hreplay]
  exact Nat.mod_eq_of_lt hd

/-- The link of a port goes down to where the port waits. -/
theorem linkDown_reaches (p : Nat) : ((linkDown p).run s).link p = s.restState p ∧ ((linkDown p).run s).replayOf p = [] := by
  rw [linkDown, look_run]
  exact linkTo_reaches (restState_lt s p) p

/-- A failure of the link takes it down, and sets its bit (Table PORT-11). -/
theorem linkFails_reaches {e : Err} (he : e.bit < 32) (p : Nat) : ((linkFails p (some e)).run s).link p = s.restState p ∧
    ((linkFails p (some e)).run s).replayOf p = [] ∧ (((linkFails p (some e)).run s).rd (.port p) .ERR_STICKY_BITS).testBit e.bit = true := by
  have := Upd.keeps_fact
  obtain ⟨hlink, hreplay⟩ := linkDown_reaches (s := s) p
  rw [linkFails, look_run]
  simp only [all_cons_run, all_nil_run]
  refine ⟨?_, ?_, ?_⟩
  · exact (rd_raiseAll_of_not_error rfl (own_mem (show _ ∈ tabPORT by decide)) (by decide) ..).trans hlink
  · exact (congrArg (Map.get · p []) (replay_raiseAll rfl _)).trans hreplay
  · exact raiseAll_sets rfl ⟨_, List.mem_map_of_mem (List.mem_append_left _ (List.mem_singleton_self e)), rfl⟩ he

end

end Sys2Proof.Machine
end

section
/-! PROOF. Coding and equalisation events of a lane (R169 to R184, R196). -/

namespace Sys2Proof.Machine

set_option Elab.async false

/-! ### The taps (R174) -/

/-- Taps within R174 read back as written. -/
theorem setTaps_reads {s : State} [Fact s.wf] {pre post : Nat} (h : tapsOk pre post = true) (l : Nat) :
    ((setTaps l pre post).run s).ln l .LANE_TX_TAPS_PRE = pre ∧ ((setTaps l pre post).run s).ln l .LANE_TX_TAPS_POST = post ∧
      ((setTaps l pre post).run s).ln l .LANE_TX_TAPS_C0 = 48 - pre - post := by
  have := Upd.keeps_fact
  obtain ⟨⟨hpre, hpost⟩, -⟩ : (pre ≤ 12 ∧ post ≤ 16) ∧ 2 * (pre + post) + 16 ≤ 48 := by simpa [tapsOk] using h
  simp +decide only [setTaps, wln, State.ln, all_cons_run, all_nil_run, rd_wr, rd_wr_of_ne, mem_fields_of_common, tab_of_kind,
    common_of_kind, ne_eq]
  exact ⟨Nat.mod_eq_of_lt (show pre < 16 by omega), Nat.mod_eq_of_lt (show post < 32 by omega),
    Nat.mod_eq_of_lt (show 48 - pre - post < 64 by omega)⟩

@[simp] theorem setTaps_iv (l pre post : Nat) (s : State) (x : Var) (i : Nat) : ((setTaps l pre post).run s).iv x i = s.iv x i := rfl

@[simp] theorem setTaps_out (l pre post : Nat) (s : State) : ((setTaps l pre post).run s).out = s.out := rfl

@[simp] theorem put_ln (x : Var) (v i : Nat) (s : State) (l : Nat) (f : Fld) : ((put x v i).run s).ln l f = s.ln l f := rfl

@[simp] theorem emit_ln (o : Out) (s : State) (l : Nat) (f : Fld) : ((emit o).run s).ln l f = s.ln l f := rfl

@[simp] theorem emit_statusWord (o : Out) (s : State) (l : Nat) : ((emit o).run s).statusWord l = s.statusWord l := rfl

/-- The presets of Table LANE-4 keep R174. -/
theorem presetTaps_ok (k : Nat) : tapsOk (presetTaps k).1 (presetTaps k).2 = true := by
  unfold presetTaps
  split <;> rfl

/-! ### Answers to requests (R176 to R181) -/

/-- In MANUAL a request changes no tap, and no answer but its own. -/
theorem coeffField_manual {s : State} [Fact s.wf] {l : Nat} (hmanual : s.ln l .LANE_EQ_CTRL_MODE = 1) (req : Nat) (x : Var) (v : Nat)
    (new : Nat → Nat × Nat) :
    (∀ f, ((coeffField l req x v new).run s).ln l f = s.ln l f) ∧
      ∀ y, y ≠ x → ((coeffField l req x v new).run s).iv y l = s.iv y l := by
  unfold coeffField
  rw [look_run, hmanual]
  split
  · exact ⟨fun _ => rfl, fun y hy => by simp [hy]⟩
  split
  · exact ⟨fun _ => rfl, fun _ _ => rfl⟩
  · exact ⟨fun _ => rfl, fun y hy => by simp [hy]⟩

/-- A control word for a Daend lane in TRAIN is answered, and the status after the answer goes out. -/
theorem coeffApply_daend_run {s : State} {l : LaneId} (hmode : s.ln l .LANE_RATE_CFG_MODE = modeDaend)
    (hstate : s.laneState l = laneTRAIN) (w : BitVec 16) (P : State → Prop) (hs : s.Awake)
    (h : Fact s.wf → (∀ (v : Upd) (t : State) [Fact t.wf], Fact (v.run t).wf) →
      P ((emit (.eqStatus l (((coeffAnswer l w.toNat).run s).statusWord l))).run ((coeffAnswer l w.toNat).run s))) :
    Gives (.coeffApply l (.daend w)) s P :=
  gives_awake hs rfl fun i j => by simpa [hmode, hstate] using h i j

section
variable {s : State} (hs : s.Awake)
include hs

theorem correctedCodeword_counts (l : LaneId) (n : Nat) (hlock : s.ln l .LANE_STAT_FEC_LOCK ≠ 0) (h1 : 1 ≤ n) (h15 : n ≤ 15) :
    Gives (.codewordReceived l n) s fun t => t.cnt (.lane (l / 8)) (16 * (l % 8)) = min (s.cnt (.lane (l / 8)) (16 * (l % 8))
    + 1) cntMax ∧ t.cnt (.lane (l / 8)) (16 * (l % 8) + 2) = min (s.cnt (.lane (l / 8)) (16 * (l % 8) + 2) + n) cntMax := by
  refine gives_awake hs rfl fun _ _ => ?_
  have hu : uncorrectable n = false := by simp [uncorrectable]; omega
  simp +decide [laneCnt, hlock, hu, h1]

theorem uncorrectableCodeword_counts (l : LaneId) (n : Nat) (hlock : s.ln l .LANE_STAT_FEC_LOCK ≠ 0) (h15 : 15 < n) : Gives
    (.codewordReceived l n) s fun t => t.cnt (.lane (l / 8)) (16 * (l % 8) + 3) = min (s.cnt (.lane (l / 8)) (16 * (l % 8) +
    3) + 1) cntMax ∧ t.cnt (.lane (l / 8)) (16 * (l % 8) + 2) = s.cnt (.lane (l / 8)) (16 * (l % 8) + 2) := by
  refine gives_awake hs rfl fun _ _ => ?_
  have hu : uncorrectable n = true := by simp [uncorrectable]; omega
  simp +decide [laneCnt, hlock, hu]

theorem filler_counts (l : LaneId) : Gives (.fillerReceived l) s fun t => t.cnt (.lane (l / 8)) (16 * (l % 8) + 5) = min
    (s.cnt (.lane (l / 8)) (16 * (l % 8) + 5) + 1) cntMax := by
  exact gives_awake hs rfl fun _ _ => by simp +decide [laneCnt]

theorem alignTransmit_sends (l : LaneId) (hmode : s.ln l .LANE_RATE_CFG_MODE = modeDaend) (hstate : s.laneState l ∈
    [laneTRAIN, laneACTIVE, laneREST]) (hruns : s.txRuns l = true) (hinj : s.iv .injAlign l = 0) : Gives (.alignTransmit l) s
    fun t => t.out.head? = some (Out.alignBlock l (alignBlock (s.iv .laneNum l) (s.iv .alignTx l))) ∧ t.iv .alignTx l = (s.iv
    .alignTx l + 1) % 2 ^ 24 := by
  refine gives_awake hs rfl fun _ _ => ?_
  rw [look_run, when_pos (by simpa [hmode, hruns, or_assoc] using hstate)]
  simp +decide [sendAlign, sendBlk, hinj]

theorem fecDegrade_sets (l : LaneId) (hmode : s.ln l .LANE_RATE_CFG_MODE = modeDaend) (hlock : s.ln l .LANE_STAT_FEC_LOCK = 1)
    (hrest : s.iv .rxRest l = 0) : Gives (.fecDegrade l) s fun t => (t.rd (.lane (l / 8)) .ERR_STICKY_BITS).testBit
    (Err.LANE_FEC_DEGRADE (l % 8)).bit = true ∧ t.laneState l = s.laneState l := by
  refine gives_awake hs rfl fun _ _ => ?_
  have hb : (Err.LANE_FEC_DEGRADE (l % 8)).bit < 32 := by simp [Err.LANE_FEC_DEGRADE]; omega
  rw [look_run, when_pos (by simp [State.ivOn, hmode, hlock, hrest])]
  simp +decide [State.laneState, State.ln, hb]

theorem presetRequest_applies (l : LaneId) (w : BitVec 16) (hmode : s.ln l .LANE_RATE_CFG_MODE = modeDaend) (hstate :
    s.laneState l = laneTRAIN) (hpreset : w.getLsbD 11 = true) (hstat : s.iv .presetStat l = 0) (hauto : s.ln l
    .LANE_EQ_CTRL_MODE = 0) : Gives (.coeffApply l (.daend w)) s fun t => t.ln l .LANE_TX_TAPS_PRE = (presetTaps (bits w.toNat
    10 9)).1 ∧ t.ln l .LANE_TX_TAPS_POST = (presetTaps (bits w.toNat 10 9)).2 ∧ t.ln l .LANE_TX_TAPS_C0 = 48 - (presetTaps
    (bits w.toNat 10 9)).1 - (presetTaps (bits w.toNat 10 9)).2 ∧ t.iv .presetStat l = eqUPDATED ∧ t.out.head? = some
    (Out.eqStatus l (t.statusWord l)) := by
  refine coeffApply_daend_run hmode hstate w _ hs fun _ _ => ?_
  have htaps := setTaps_reads (s := s) (presetTaps_ok (bits w.toNat 10 9)) l
  have hw : w.toNat.testBit 11 = true := (BitVec.testBit_toNat w).trans hpreset
  simpa [coeffAnswer, hw, hstat, hauto] using htaps

theorem incrementRequest_moves (l : LaneId) (w : BitVec 16) (hmode : s.ln l .LANE_RATE_CFG_MODE = modeDaend) (hstate :
    s.laneState l = laneTRAIN) (hpreset : w.getLsbD 11 = false) (hinc : bits w.toNat 15 14 = 1) (hpost : bits w.toNat 13 12 =
    0) (hstat : s.iv .preStat l = 0) (hauto : s.ln l .LANE_EQ_CTRL_MODE = 0) (hok : tapsOk (s.ln l .LANE_TX_TAPS_PRE + 1)
    (s.ln l .LANE_TX_TAPS_POST) = true) : Gives (.coeffApply l (.daend w)) s fun t => t.ln l .LANE_TX_TAPS_PRE = s.ln l
    .LANE_TX_TAPS_PRE + 1 ∧ t.ln l .LANE_TX_TAPS_POST = s.ln l .LANE_TX_TAPS_POST ∧ t.iv .preStat l = eqUPDATED := by
  refine coeffApply_daend_run hmode hstate w _ hs fun _ _ => ?_
  have hw : w.toNat.testBit 11 = false := (BitVec.testBit_toNat w).trans hpreset
  obtain ⟨hpre, hpost', -⟩ := setTaps_reads (s := (put .presetStat 0 l).run s) hok l
  simpa [coeffAnswer, coeffField, stepTap, hw, hinc, hpost, hstat, hauto, hok] using ⟨hpre, hpost'⟩

theorem manualRequest_isHeld (l : LaneId) (w : BitVec 16) (hmode : s.ln l .LANE_RATE_CFG_MODE = modeDaend) (hstate :
    s.laneState l = laneTRAIN) (hpreset : w.getLsbD 11 = false) (hreq : bits w.toNat 15 14 ∈ [1, 2]) (hstat : s.iv .preStat l
    = 0) (hmanual : s.ln l .LANE_EQ_CTRL_MODE = 1) : Gives (.coeffApply l (.daend w)) s fun t => t.ln l .LANE_TX_TAPS_PRE =
    s.ln l .LANE_TX_TAPS_PRE ∧ t.iv .preStat l = eqHELD := by
  refine coeffApply_daend_run hmode hstate w _ hs fun _ _ => ?_
  have hw : w.toNat.testBit 11 = false := (BitVec.testBit_toNat w).trans hpreset
  have hasks : ¬(bits w.toNat 15 14 = 0 ∨ bits w.toNat 15 14 = 3) := by
    rcases List.mem_cons.1 hreq with h | h <;> simp_all
  have hpost := coeffField_manual (s := (put .preStat eqHELD l).run ((put .presetStat 0 l).run s)) hmanual (bits w.toNat 13 12)
    .postStat (s.ln l .LANE_TX_TAPS_POST) fun v => (s.ln l .LANE_TX_TAPS_PRE, v)
  have hrun : (coeffAnswer l w.toNat).run s = (coeffField l (bits w.toNat 13 12) .postStat (s.ln l .LANE_TX_TAPS_POST)
      fun v => (s.ln l .LANE_TX_TAPS_PRE, v)).run ((put .preStat eqHELD l).run ((put .presetStat 0 l).run s)) := by
    simp [coeffAnswer, coeffField, hw, hasks, hstat, hmanual]
  rw [hrun]
  exact ⟨hpost.1 _, (hpost.2 _ (by decide)).trans (by simp)⟩

theorem holdRequest_clears (l : LaneId) (hmode : s.ln l .LANE_RATE_CFG_MODE = modeDaend) (hstate : s.laneState l = laneTRAIN)
   : Gives (.coeffApply l (.daend 0)) s fun t => t.iv .preStat l = 0 ∧ t.iv .postStat l = 0 ∧ t.iv .presetStat l = 0 ∧ t.ln l
    .LANE_TX_TAPS_PRE = s.ln l .LANE_TX_TAPS_PRE ∧ t.out.head? = some (Out.eqStatus l (t.statusWord l)) := by
  refine coeffApply_daend_run hmode hstate _ _ hs fun _ _ => ?_
  simp [coeffAnswer, coeffField, bits]

theorem coefficients_apply (l : LaneId) (a b : Fin 49) (hmode : s.ln l .LANE_RATE_CFG_MODE = modePCIe) (hstate : s.laneState l
    = laneTRAIN) (hauto : s.ln l .LANE_EQ_CTRL_MODE = 0) (hok : tapsOk a b = true) : Gives (.coeffApply l (.coeffs a b)) s fun
    t => t.ln l .LANE_TX_TAPS_PRE = a ∧ t.ln l .LANE_TX_TAPS_POST = b ∧ t.ln l .LANE_TX_TAPS_C0 = 48 - a.val - b.val := by
  refine gives_awake hs rfl fun _ _ => ?_
  simpa [hmode, hstate, modePCIe, modeDaend, pcieAnswer, hauto, hok] using setTaps_reads (s := s) hok l

theorem coefficients_reject (l : LaneId) (a b : Fin 49) (hmode : s.ln l .LANE_RATE_CFG_MODE = modePCIe) (hstate : s.laneState
    l = laneTRAIN) (_hauto : s.ln l .LANE_EQ_CTRL_MODE = 0) (hbad : tapsOk a b = false) : Gives (.coeffApply l (.coeffs a b))
    s fun t => t.ln l .LANE_TX_TAPS_PRE = s.ln l .LANE_TX_TAPS_PRE ∧ t.out.head? = some (Out.pcieReject l) := by
  refine gives_awake hs rfl fun _ _ => ?_
  simp [hmode, hstate, modePCIe, modeDaend, pcieAnswer, hbad]

theorem eqTimeout_asksAgain (l : LaneId) (hmode : s.ln l .LANE_RATE_CFG_MODE = modeDaend) (hstate : s.laneState l = laneTRAIN)
    (hleft : s.iv .eqTimeouts l + 1 < max 1 (s.ln l .LANE_EQ_CTRL_RETRIES)) : Gives (.eqRespTimeout l) s fun t =>
    Out.trainRequest l ∈ t.out ∧ t.iv .eqTimeouts l = s.iv .eqTimeouts l + 1 ∧ t.ln l .LANE_STAT_EQ_FAIL = s.ln l
    .LANE_STAT_EQ_FAIL := by
  refine gives_awake hs rfl fun _ _ => ?_
  rw [look_run, when_pos (by rw [hmode, hstate]; rfl), if_neg (by omega)]
  simp only [all_cons_run, all_nil_run]
  refine ⟨out_grows (u := laneCnt l 10 1) (List.mem_cons_self ..), ?_⟩
  simp +decide [laneCnt, State.ln]

theorem eqTimeout_fails (l : LaneId) (hmode : s.ln l .LANE_RATE_CFG_MODE = modeDaend) (hstate : s.laneState l = laneTRAIN)
    (hspent : max 1 (s.ln l .LANE_EQ_CTRL_RETRIES) ≤ s.iv .eqTimeouts l + 1) : Gives (.eqRespTimeout l) s fun t => t.ln l
    .LANE_STAT_EQ_FAIL = 1 := by
  refine gives_awake hs rfl fun _ _ => ?_
  rw [look_run, when_pos (by rw [hmode, hstate]; rfl), if_pos hspent]
  simp +decide [State.ln, wln]

theorem rxAdaptation_reports (l : LaneId) (v h n : BitVec 8) (c : Fin 32) (hwhen : s.laneState l = laneTRAIN ∨ s.laneState l =
    laneACTIVE ∧ s.ln l .LANE_EQ_CTRL_RX_ADAPT = 1) : Gives (.rxAdaptationDone l v h n c) s fun t => t.ln l
    .LANE_STAT_RX_READY = 1 ∧ t.ln l .LANE_RX_STAT_EYE_V = v.toNat ∧ t.ln l .LANE_RX_STAT_EYE_H = h.toNat ∧ t.ln l
    .LANE_RX_STAT_SNR = n.toNat ∧ t.ln l .LANE_RX_STAT_CTLE = c := by
  refine gives_awake hs rfl fun _ _ => ?_
  rw [look_run, when_pos (by simpa using hwhen)]
  simp +decide [State.ln, wln]
  exact ⟨Nat.mod_eq_of_lt v.isLt, Nat.mod_eq_of_lt h.isLt, Nat.mod_eq_of_lt n.isLt, Nat.mod_eq_of_lt (show c.val < 256 by omega)⟩

end

/-- Settles O6: one lemma for each event and each of its conditions. -/
theorem laneCodingCompletes : Obligations.LaneCodingCompletes := by
  intro s hs
  exact ⟨correctedCodeword_counts hs, uncorrectableCodeword_counts hs, filler_counts hs, alignTransmit_sends hs,
    fecDegrade_sets hs, presetRequest_applies hs, incrementRequest_moves hs, manualRequest_isHeld hs, holdRequest_clears hs,
    coefficients_apply hs, coefficients_reject hs, eqTimeout_asksAgain hs, eqTimeout_fails hs, rxAdaptation_reports hs⟩

end Sys2Proof.Machine
end

section
/-! PROOF. Writes to the control registers of a lane (R182, R183, R198 to R201). -/

namespace Sys2Proof.Machine

set_option Elab.async false

/-! ### A register of a lane -/

section
variable {s : State} [Fact s.wf] {f : Fld} (l k : Nat) (st : Stamp) (v : Nat)

/-- A write of a lane's register gives its RW fields their bits. -/
@[simp] theorem rd_laneReg_plainWrite (hf : f ∈ tabLANE) (ht : f.ty = .rw ∧ f.perStamp = false)
    (ho : f.off = 0x400 + k ∧ f.count = 8 ∧ f.stride = 0x80) :
    ((plainWrite st (.lane (l / 8)) (laneReg l k) v).run s).rd (.lane (l / 8)) f (l % 8) = f.of v := by
  obtain ⟨hoff, hcount, hstride⟩ := ho
  refine rd_plainWrite st v (own_mem hf) ?_ ?_ ht.1 ht.2
  · omega
  · rw [hoff, hstride, laneReg]
    omega

/-- It leaves the fields of the lane's other registers. -/
@[simp] theorem rd_laneReg_plainWrite_other (hf : f ∈ tabLANE) (ho : f.off % 0x80 ≠ k % 0x80 ∧ f.stride = 0x80) :
    ((plainWrite st (.lane (l / 8)) (laneReg l k) v).run s).rd (.lane (l / 8)) f (l % 8) = s.rd (.lane (l / 8)) f (l % 8) := by
  obtain ⟨hoff, hstride⟩ := ho
  refine rd_plainWrite_other st v (own_mem hf) fun _ j _ => ?_
  rw [hstride, laneReg]
  omega

end

@[simp] theorem put_laneFree (x : Var) (v i : Nat) (s : State) (l : Nat) : ((put x v i).run s).laneFree l = s.laneFree l := rfl

@[simp] theorem put_laneState (x : Var) (v i : Nat) (s : State) (l : Nat) : ((put x v i).run s).laneState l = s.laneState l := rfl

/-! ### Error injection (R199) -/

section
variable {s : State} {l : Nat}

/-- An event goes to the FEC symbols or to the ALIGN blocks of a lane in ACTIVE. -/
theorem inject_active_out (hactive : s.laneState l = laneACTIVE) {tgt : Nat} (htgt : s.ln l .LANE_INJ_CTRL_TARGET = tgt)
    (hmem : tgt ∈ [1, 2]) (halign : s.iv .injAlign l = 0) :
    ((inject l).run s).out = Out.injected l tgt (injCount tgt (s.ln l .LANE_INJ_CTRL_COUNT)) :: s.out := by
  obtain rfl | rfl : tgt = 1 ∨ tgt = 2 := by simpa using hmem
  all_goals simp [inject, htgt, hactive, halign, emit]

/-- An event goes to the PRBS bits of a lane in TEST. -/
theorem inject_test_out (htest : s.laneState l = laneTEST) (htgt : s.ln l .LANE_INJ_CTRL_TARGET = 0) :
    Out.injected l 0 (injCount 0 (s.ln l .LANE_INJ_CTRL_COUNT)) ∈ ((inject l).run s).out := by
  rw [inject, look_run]
  simp only [htgt, htest, beq_self_eq_true, when_true_run, all_cons_run, all_nil_run]
  exact out_grows (List.mem_cons_self ..)

/-- Only an event of ALIGN blocks leaves blocks to be sent. -/
theorem inject_injAlign [Fact s.wf] (htgt : s.ln l .LANE_INJ_CTRL_TARGET ≠ 2) : ((inject l).run s).iv .injAlign l = s.iv .injAlign l := by
  have := Upd.keeps_fact
  simp only [inject, look_run]
  split
  · simp +decide
  · simp
  · next h => exact absurd h htgt
  · rfl

/-- An event of ALIGN blocks leaves its blocks to be sent. -/
theorem inject_align_injAlign [Fact s.wf] (hactive : s.laneState l = laneACTIVE) (htgt : s.ln l .LANE_INJ_CTRL_TARGET = 2)
    (halign : s.iv .injAlign l = 0) : ((inject l).run s).iv .injAlign l = injCount 2 (s.ln l .LANE_INJ_CTRL_COUNT) := by
  have := Upd.keeps_fact
  simp [inject, hactive, htgt, halign]

end

/-- A write of LANE_INJ_CTRL with ONE_SHOT sets the register's fields, injects one event and shows ONE_SHOT while ALIGN blocks of the
event are still to be sent. -/
theorem gives_injectOneShot {s : State} (hs : s.Awake) {st : Stamp} {l : LaneId} {v : Word} (hlock : s.locked (.lane (l / 8)) = false)
    (hp : s.pathOpen st = true) (hone : v.getLsbD 31 = true) {P : State → Prop}
    (h : ∀ (t : State) [Fact t.wf], t.out = s.out → t.laneState l = s.laneState l → t.iv .injAlign l = s.iv .injAlign l →
      t.ln l .LANE_INJ_CTRL_TARGET = Fld.LANE_INJ_CTRL_TARGET.of v.toNat →
      t.ln l .LANE_INJ_CTRL_COUNT = Fld.LANE_INJ_CTRL_COUNT.of v.toNat →
      ∀ _ : Fact ((inject l).run t).wf,
        P ((wln l .LANE_INJ_CTRL_ONE_SHOT (b2n (((inject l).run t).iv .injAlign l != 0))).run ((inject l).run t))) :
    Gives (.injectOneShot st l v) s P := by
  refine gives_granted hs rfl hlock hp fun _ hk => ?_
  have := hk (grant st (.lane (l / 8))) s
  have := hk (plainWrite st (.lane (l / 8)) (laneReg l 0x14) v.toNat) ((grant st (.lane (l / 8))).run s)
  have hv : v.toNat.testBit 31 = true := (BitVec.testBit_toNat v).trans hone
  simp only [injCtrlWrite, hv, all_cons_run, all_nil_run, when_true_run, look_run, Bool.true_and]
  refine h _ ?_ ?_ ?_ ?_ ?_ (hk _ _)
  · simp
  · simp +decide [State.laneState, State.ln]
  · simp
  · simp +decide [State.ln]
  · simp +decide [State.ln]

section
variable {s : State} (hs : s.Awake)
include hs

theorem tapsWrite_sets (st : Stamp) (l : LaneId) (v : Word) (hlock : s.locked (.lane (l / 8)) = false) (hmanual : s.ln l
    .LANE_EQ_CTRL_MODE = 1) (hok : tapsOk (bits v.toNat 3 0) (bits v.toNat 12 8) = true) (hc0 : bits v.toNat 21 16 = 48 - bits
    v.toNat 3 0 - bits v.toNat 12 8) (hp : s.pathOpen st = true) : Gives (.txTapsWrite st l v) s fun t => t.ln l
    .LANE_TX_TAPS_PRE = bits v.toNat 3 0 ∧ t.ln l .LANE_TX_TAPS_POST = bits v.toNat 12 8 ∧ t.ln l .LANE_TX_TAPS_C0 = bits
    v.toNat 21 16 := by
  refine gives_granted hs rfl hlock hp fun _ _ => ?_
  rw [tapsWrite, look_run, if_pos (by simp [hmanual, hok, hc0]), hc0]
  exact setTaps_reads hok l

theorem tapsWrite_refused (st : Stamp) (l : LaneId) (v : Word) (hlock : s.locked (.lane (l / 8)) = false) (hauto : s.ln l
    .LANE_EQ_CTRL_MODE = 0) (hp : s.pathOpen st = true) : Gives (.txTapsWrite st l v) s fun t => (t.rd (.lane (l / 8))
    .ERR_STICKY_BITS).testBit Err.LANE_CTRL_REFUSED.bit = true ∧ t.ln l .LANE_TX_TAPS_PRE = s.ln l .LANE_TX_TAPS_PRE := by
  refine gives_granted hs rfl hlock hp fun _ _ => ?_
  rw [tapsWrite, look_run, if_neg (by simp [hauto])]
  simp +decide [State.ln]

theorem eqModeWrite_sets (st : Stamp) (l : LaneId) (v : Word) (hlock : s.locked (.lane (l / 8)) = false) (hp : s.pathOpen st =
    true) : Gives (.eqModeWrite st l v) s fun t => t.ln l .LANE_EQ_CTRL_MODE = bits v.toNat 0 0 ∧ t.ln l .LANE_TX_TAPS_PRE =
    s.ln l .LANE_TX_TAPS_PRE := by
  refine gives_granted hs rfl hlock hp fun _ _ => ?_
  simp +decide [eqCtrlWrite, State.ln]
  rfl

theorem prbsCtrlWrite_tests (st : Stamp) (l : LaneId) (v : Word) (hlock : s.locked (.lane (l / 8)) = false) (hfree :
    s.laneFree l = true) (hoff : s.laneState l = laneOFF) (hgen : v.getLsbD 0 = true) (hrate : bits v.toNat 27 24 < 8) (hp :
    s.pathOpen st = true) : Gives (.lanePrbsCtrlWrite st l v) s fun t => t.laneState l = laneTEST ∧ t.ln l
    .LANE_RATE_CFG_RATE_NOW = bits v.toNat 27 24 := by
  refine gives_granted hs rfl hlock hp fun _ _ => ?_
  have hv : v.toNat.testBit 0 = true := (BitVec.testBit_toNat v).trans hgen
  rw [prbsCtrlWrite, look_run, if_neg (by simp [hfree, hrate]), if_pos (by simp [hv])]
  have hoff' : s.rd (.lane (l / 8)) .LANE_STAT_STATE (l % 8) = laneOFF := hoff
  simp +decide [pllSettle, wln, State.laneState, State.ln, hoff']
  exact Nat.mod_eq_of_lt (show _ < 2 ^ 4 by omega)

theorem prbsCtrlWrite_refused (st : Stamp) (l : LaneId) (v : Word) (hlock : s.locked (.lane (l / 8)) = false) (hfree :
    s.laneFree l = false) (hgen : v.getLsbD 0 = true) (hp : s.pathOpen st = true) : Gives (.lanePrbsCtrlWrite st l v) s fun t
    => (t.rd (.lane (l / 8)) .ERR_STICKY_BITS).testBit Err.LANE_CTRL_REFUSED.bit = true ∧ t.laneState l = s.laneState l := by
  refine gives_granted hs rfl hlock hp fun _ _ => ?_
  have hv : v.toNat.testBit 0 = true := (BitVec.testBit_toNat v).trans hgen
  rw [prbsCtrlWrite, look_run, if_pos (by simp [hfree, hv])]
  simp +decide [State.laneState, State.ln]

theorem prbsChecker_locks (l : LaneId) (w : BitVec 64) (n e : Nat) (htest : s.laneState l = laneTEST) (hen : s.ln l
    .LANE_PRBS_CTRL_CHK_EN = 1) (hself : s.ln l .LANE_PRBS_CTRL_CHK_MODE = 0) (hunlocked : s.ln l .LANE_PRBS_CTRL_CHK_LOCK =
    0) (hn : 256 ≤ n) (he : e = 0) : Gives (.prbsCheckerLock l w n e) s fun t => t.ln l .LANE_PRBS_CTRL_CHK_LOCK = 1 := by
  refine gives_awake hs rfl fun _ _ => ?_
  simp only [look_run, htest, hen, hself, hunlocked, he, hn]
  simp +decide [wln, State.ln]

theorem prbsChecker_counts (l : LaneId) (w : BitVec 64) (n e : Nat) (htest : s.laneState l = laneTEST) (hen : s.ln l
    .LANE_PRBS_CTRL_CHK_EN = 1) (hself : s.ln l .LANE_PRBS_CTRL_CHK_MODE = 0) (hlocked : s.ln l .LANE_PRBS_CTRL_CHK_LOCK = 1)
   : Gives (.prbsCheckerLock l w n e) s fun t => t.cnt (.lane (l / 8)) (0x8000 + 2 * (l % 8)) = min (s.cnt (.lane (l / 8))
    (0x8000 + 2 * (l % 8)) + min e n) cntMax ∧ t.cnt (.lane (l / 8)) (0x8001 + 2 * (l % 8)) = min (s.cnt (.lane (l / 8))
    (0x8001 + 2 * (l % 8)) + n) cntMax := by
  refine gives_awake hs rfl fun _ _ => ?_
  simp +decide [htest, hen, hself, hlocked]

theorem prbsChecker_comparesPattern (l : LaneId) (w : BitVec 64) (n e : Nat) (htest : s.laneState l = laneTEST) (hen : s.ln l
    .LANE_PRBS_CTRL_CHK_EN = 1) (href : s.ln l .LANE_PRBS_CTRL_CHK_MODE = 1) (huser : s.ln l .LANE_PRBS_CTRL_PATTERN = 8) :
    Gives (.prbsCheckerLock l w n e) s fun t => t.cnt (.lane (l / 8)) (0x8000 + 2 * (l % 8)) = min (s.cnt (.lane (l / 8))
    (0x8000 + 2 * (l % 8)) + slipErrs w (s.userPat l) (s.iv .slipPos l)) cntMax ∧ t.cnt (.lane (l / 8)) (0x8001 + 2 * (l % 8))
    = min (s.cnt (.lane (l / 8)) (0x8001 + 2 * (l % 8)) + 64) cntMax := by
  refine gives_awake hs rfl fun _ _ => ?_
  simp +decide [htest, hen, href, huser]

theorem injectOneShot_symbols (st : Stamp) (l : LaneId) (v : Word) (hlock : s.locked (.lane (l / 8)) = false) (hone :
    v.getLsbD 31 = true) (hactive : s.laneState l = laneACTIVE) (htgt : Fld.LANE_INJ_CTRL_TARGET.of v.toNat = 1) (halign :
    s.iv .injAlign l = 0) (hp : s.pathOpen st = true) : Gives (.injectOneShot st l v) s fun t => t.out = Out.injected l 1
    (injCount 1 (Fld.LANE_INJ_CTRL_COUNT.of v.toNat)) :: s.out ∧ t.ln l .LANE_INJ_CTRL_ONE_SHOT = 0 := by
  refine gives_injectOneShot hs hlock hp hone fun t _ hout hstate hal ht hc _ => ⟨?_, ?_⟩
  · rw [wln, wr_out, inject_active_out (hstate.trans hactive) (ht.trans htgt) (by decide) (hal.trans halign), hout, hc]
  · have hnone := inject_injAlign (by rw [ht, htgt]; decide) |>.trans (hal.trans halign)
    simp +decide [wln, State.ln, hnone]

theorem injectOneShot_bits (st : Stamp) (l : LaneId) (v : Word) (hlock : s.locked (.lane (l / 8)) = false) (hone : v.getLsbD
    31 = true) (htest : s.laneState l = laneTEST) (htgt : Fld.LANE_INJ_CTRL_TARGET.of v.toNat = 0) (halign : s.iv .injAlign l
    = 0) (hp : s.pathOpen st = true) : Gives (.injectOneShot st l v) s fun t => Out.injected l 0 (injCount 0
    (Fld.LANE_INJ_CTRL_COUNT.of v.toNat)) ∈ t.out ∧ t.ln l .LANE_INJ_CTRL_ONE_SHOT = 0 := by
  refine gives_injectOneShot hs hlock hp hone fun t _ _ hstate hal ht hc _ => ⟨?_, ?_⟩
  · rw [wln, wr_out, ← hc]
    exact inject_test_out (hstate.trans htest) (ht.trans htgt)
  · have hnone := inject_injAlign (by rw [ht, htgt]; decide) |>.trans (hal.trans halign)
    simp +decide [wln, State.ln, hnone]

theorem injectOneShot_alignBlocks (st : Stamp) (l : LaneId) (v : Word) (hlock : s.locked (.lane (l / 8)) = false) (hone :
    v.getLsbD 31 = true) (hactive : s.laneState l = laneACTIVE) (htgt : Fld.LANE_INJ_CTRL_TARGET.of v.toNat = 2) (halign :
    s.iv .injAlign l = 0) (hp : s.pathOpen st = true) : Gives (.injectOneShot st l v) s fun t => t.out = Out.injected l 2
    (injCount 2 (Fld.LANE_INJ_CTRL_COUNT.of v.toNat)) :: s.out ∧ t.iv .injAlign l = injCount 2 (Fld.LANE_INJ_CTRL_COUNT.of
    v.toNat) ∧ t.ln l .LANE_INJ_CTRL_ONE_SHOT = 1 := by
  refine gives_injectOneShot hs hlock hp hone fun t _ hout hstate hal ht hc _ => ?_
  have hleft := inject_align_injAlign (hstate.trans hactive) (ht.trans htgt) (hal.trans halign)
  have hpos : injCount 2 (Fld.LANE_INJ_CTRL_COUNT.of v.toNat) ≠ 0 := by
    unfold injCount
    split <;> simp_all
  rw [hc] at hleft
  refine ⟨?_, ?_, ?_⟩
  · rw [wln, wr_out, inject_active_out (hstate.trans hactive) (ht.trans htgt) (by decide) (hal.trans halign), hout, hc]
  · rw [wln, wr_run_iv, hleft]
  · rw [hleft, bne_iff_ne.2 hpos]
    simp +decide [wln, State.ln]

theorem injectPeriodic_active (l : LaneId) (hperiod : s.ln l .LANE_INJ_CTRL_PERIOD ≠ 0) (hactive : s.laneState l = laneACTIVE)
    (htgt : s.ln l .LANE_INJ_CTRL_TARGET ∈ [1, 2]) (halign : s.iv .injAlign l = 0) : Gives (.injectPeriodic l) s fun t =>
    t.out = Out.injected l (s.ln l .LANE_INJ_CTRL_TARGET) (injCount (s.ln l .LANE_INJ_CTRL_TARGET) (s.ln l
    .LANE_INJ_CTRL_COUNT)) :: s.out := by
  refine gives_awake hs rfl fun _ _ => ?_
  rw [look_run, when_pos (by simpa using hperiod)]
  exact inject_active_out hactive rfl htgt halign

theorem injectPeriodic_test (l : LaneId) (hperiod : s.ln l .LANE_INJ_CTRL_PERIOD ≠ 0) (htest : s.laneState l = laneTEST) (htgt
   : s.ln l .LANE_INJ_CTRL_TARGET = 0) : Gives (.injectPeriodic l) s fun t => Out.injected l 0 (injCount 0 (s.ln l
    .LANE_INJ_CTRL_COUNT)) ∈ t.out := by
  refine gives_awake hs rfl fun _ _ => ?_
  rw [look_run, when_pos (by simpa using hperiod)]
  exact inject_test_out htest htgt

theorem laneSlip_moves (st : Stamp) (l : LaneId) (v : Word) (hlock : s.locked (.lane (l / 8)) = false) (hfree : s.laneFree l =
    true) (hp : s.pathOpen st = true) : Gives (.laneSlip st l v) s fun t => t.out.head? = some (Out.slip l (bits v.toNat 5 0))
    ∧ t.iv .slipPos l = s.iv .slipPos l + bits v.toNat 5 0 ∧ t.ln l .LANE_SLIP_DONE = 1 := by
  refine gives_granted hs rfl hlock hp fun _ _ => ?_
  simp +decide [slipWrite, hfree, wln, State.ln]

end

/-- Settles O7: one lemma for each register and each outcome of a write to it. -/
theorem laneControlCompletes : Obligations.LaneControlCompletes := by
  intro s hs
  exact ⟨tapsWrite_sets hs, tapsWrite_refused hs, eqModeWrite_sets hs, prbsCtrlWrite_tests hs, prbsCtrlWrite_refused hs,
    prbsChecker_locks hs, prbsChecker_counts hs, prbsChecker_comparesPattern hs, injectOneShot_symbols hs, injectOneShot_bits
    hs, injectOneShot_alignBlocks hs, injectPeriodic_active hs, injectPeriodic_test hs, laneSlip_moves hs⟩

end Sys2Proof.Machine
end

section
/-! PROOF. The common header: quiesce, block soft reset, interrupts and cleared counters (R54 to R66, R717). -/

namespace Sys2Proof.Machine

set_option Elab.async false

/-! ### Quiesce and soft reset -/

/-- The end of a quiesce touches no SOFT_RESET and no READY bit. -/
theorem quiesceStop_keeps {s : State} [Fact s.wf] {pg : Pg} (hc : pg.common = true) {f : Fld}
    (hf : f ∈ [Fld.BLK_CTRL_SOFT_RESET, .BLK_STAT_READY]) : ((quiesceStop pg).run s).rd pg f = s.rd pg f := by
  have hF := Foot.and_le.1 (Foot.le_refl (Foot.pump.and (Foot.grantCredits.and
    (Foot.fields (Fam.of pg) [.BLK_CTRL_QUIESCE, .BLK_STAT_QUIESCED]))))
  have hG := Foot.and_le.1 hF.2
  have hcr (p : Nat) : (look fun s => when_ (s.role p != 0) <| forEach (s.acctClasses p) fun c => forBelow 3 fun x =>
        grantCredits p c x).In (Foot.pump.and (Foot.grantCredits.and (Foot.fields (Fam.of pg) [.BLK_CTRL_QUIESCE, .BLK_STAT_QUIESCED]))) :=
    look_in fun _ => when_in <| forEach_in fun _ => forBelow_in fun _ => grantCredits_in hG.1 _ _ _
  have hin : (quiesceStop pg).In
      (Foot.pump.and (Foot.grantCredits.and (Foot.fields (Fam.of pg) [.BLK_CTRL_QUIESCE, .BLK_STAT_QUIESCED]))) := by
    refine all_cons_in (wr_in (hdr_mem hc (by decide)) (le_regs hG.2 (fields_regs (by decide)))) <|
      all_cons_in (wr_in (hdr_mem hc (by decide)) (le_regs hG.2 (fields_regs (by decide)))) <| all_cons_in ?_ all_nil_in
    split
    · exact hcr _
    · exact forBelow_in fun p => hcr p
    · exact pump_in hF.1 _
    · exact forBelow_in fun e => pump_in hF.1 e
    · exact skip_in
  have hall : ∀ g ∈ [Fld.BLK_CTRL_SOFT_RESET, .BLK_STAT_READY], g ∈ tabHDR := by decide
  refine rd_of_in hin (hdr_mem hc (hall f hf)) ?_
  have hnot : ∀ g ∈ [Fld.BLK_CTRL_SOFT_RESET, .BLK_STAT_READY], ∀ k : Fam, ∀ k' : Fam,
      (k, g) ∉ (Foot.pump.and (Foot.grantCredits.and (Foot.fields k' [.BLK_CTRL_QUIESCE, .BLK_STAT_QUIESCED]))).regs := by
    intro g hg k k'
    cases k <;> cases k' <;> revert g <;> decide +kernel
  exact hnot f hf _ _

/-- A write of BLK_CTRL starts a soft reset of a block that has one, whatever the write does to QUIESCE. -/
theorem softReset_reads {s : State} [Fact s.wf] {pg : Pg} (hc : pg.common = true) (h0 : pg.block ≠ 0) (h2 : pg.block ≠ 2)
    (h3 : pg.block ≠ 3) (hnot : s.on pg .BLK_CTRL_SOFT_RESET = false) :
    ((softReset pg).run s).rd pg .BLK_CTRL_SOFT_RESET = 1 ∧ ((softReset pg).run s).rd pg .BLK_STAT_READY = 0 := by
  have := Upd.keeps_fact
  have hglb : pg ≠ .glb := fun he => h0 (he ▸ rfl)
  have hsec (k : Nat) : pg ≠ .sec k := fun he => h2 (he ▸ rfl)
  have hguard (k : Nat) : pg ≠ .guard k := fun he => h3 (he ▸ rfl)
  rw [softReset, look_run, when_pos (by simp [hnot])]
  · simp +decide [hc, resetNow, quiesceStart]
  · exact hglb
  · exact hsec
  · exact hguard

/-! ### Counters -/

/-- The counters of a block lie in its page. -/
theorem cntGroup_lt {pg : Pg} {i g : Nat} (h : cntGroup pg i = some g) : i < pg.size := by
  unfold cntGroup at h
  split at h
  all_goals
    repeat' split at h
    all_goals first | (simp only [Pg.size]; simp at *; omega) | cases h

section
variable {s : State} (hs : s.Awake)
include hs

theorem softReset_starts (st : Stamp) (pg : Pg) (v : Word) (hok : pg.ok = true) (hc : pg.common = true) (hctrl : ctrlPage pg =
    pg) (h0 : pg.block ≠ 0) (h2 : pg.block ≠ 2) (h3 : pg.block ≠ 3) (hlock : s.locked pg = false) (hnot : s.on pg
    .BLK_CTRL_SOFT_RESET = false) (hv : v.getLsbD 2 = true) (hp : s.pathOpen st = true) : Gives (.blockSoftReset st pg v) s
    fun t => t.rd pg .BLK_CTRL_SOFT_RESET = 1 ∧ t.rd pg .BLK_STAT_READY = 0 := by
  refine gives_awake hs rfl fun _ hk => ?_
  have hv' : v.toNat.testBit 2 = true := (BitVec.testBit_toNat v).trans hv
  rw [when_pos (by simp [hok, hc]), granted_run hlock hp, blkCtrlWrite, look_run, when_pos (by simp [hctrl])]
  simp only [all_cons_run, all_nil_run, hv', when_true_run]
  refine softReset_reads hc h0 h2 h3 ?_
  simp +decide [State.on, hc, rd_of_not_on hnot, quiesceStart, quiesceStop_keeps]

theorem softReset_lockedOut (st : Stamp) (pg : Pg) (v : Word) (hok : pg.ok = true) (hc : pg.common = true) (hctrl : ctrlPage
    pg = pg) (hlock : s.locked pg = true) (hst : st = .dbg) (hp : s.pathOpen st = true) : Gives (.blockSoftReset st pg v) s
    fun t => t.rd pg .BLK_CTRL_SOFT_RESET = s.rd pg .BLK_CTRL_SOFT_RESET ∧ (t.rd pg .ERR_STICKY_BITS).testBit
    Err.ACC_LOCKED.bit = true ∧ t.out.head? = some (Out.busError st) := by
  refine gives_awake hs rfl fun _ hk => ?_
  subst hst
  have hm : lockMask pg 0x10 = 0 := by
    unfold lockMask
    rw [if_neg (by decide)]
    split <;> rfl
  rw [when_pos (by simp [hok, hc]), granted_locked_run hlock hp hm]
  simp +decide [discardLocked, tellDiscard, hc]

theorem softResetDone_reads (pg : Pg) (hok : pg.ok = true) (hc : pg.common = true) (hrun : s.on pg .BLK_CTRL_SOFT_RESET =
    true) (hwait : s.resetRuns pg = false) (hq : s.on pg .BLK_CTRL_QUIESCE = false) : Gives (.blockSoftResetDone pg) s fun t
    => t.rd pg .BLK_CTRL_SOFT_RESET = 0 ∧ t.rd pg .BLK_STAT_READY = 1 := by
  refine gives_awake hs rfl fun _ hk => ?_
  rw [look_run, when_pos (by simp [hok, hc, hrun, hwait, hq])]
  simp +decide [hc]

theorem quiesce_starts (st : Stamp) (pg : Pg) (v : Word) (hok : pg.ok = true) (hc : pg.common = true) (hctrl : ctrlPage pg =
    pg) (hlock : s.locked pg = false) (hrun : s.on pg .BLK_CTRL_SOFT_RESET = false) (hq : s.on pg .BLK_CTRL_QUIESCE = false)
    (hv1 : v.getLsbD 1 = true) (hv2 : v.getLsbD 2 = false) (hp : s.pathOpen st = true) : Gives (.blockQuiesce st pg v) s fun t
    => t.rd pg .BLK_CTRL_QUIESCE = 1 ∧ t.rd pg .BLK_CTRL_ENABLE = b2n (v.getLsbD 0) ∧ t.rd pg .BLK_CTRL_SOFT_RESET = 0 := by
  refine gives_awake hs rfl fun _ hk => ?_
  rw [when_pos (by simp [hok, hc]), granted_run hlock hp, blkCtrlWrite, look_run, when_pos (by simp [hctrl])]
  simp only [BitVec.testBit_toNat, hv1, hv2]
  simp +decide [State.on, rd_of_not_on hrun, rd_of_not_on hq, hc, quiesceStart]

theorem portQuiesce_drains (st : Stamp) (p : PortId) (v : Word) (hlock : s.locked (.port p) = false) (hrun : s.on (.port p)
    .BLK_CTRL_SOFT_RESET = false) (hq : s.on (.port p) .BLK_CTRL_QUIESCE = false) (hv1 : v.getLsbD 1 = true) (hv2 : v.getLsbD
    2 = false) (hp : s.pathOpen st = true) : Gives (.blockQuiesce st (.port p) v) s fun t => t.rd (.port p) .BLK_STAT_QUIESCED
    = b2n (s.idle (.port p)) := by
  refine gives_awake hs rfl fun _ hk => ?_
  have hidle (b : Nat) : ((wr (.port p) .BLK_CTRL_ENABLE b).run ((grant st (.port p)).run s)).idle (.port p) = s.idle (.port p) := by
    simp +decide [State.idle, State.portIdle, State.pcieUnacked, State.replayOf]
  rw [when_pos (by simp [Pg.ok, Pg.index, Pg.limit, Pg.common]), granted_run hlock hp, blkCtrlWrite, look_run]
  simp only [BitVec.testBit_toNat, hv1, hv2]
  simp +decide [State.on, rd_of_not_on hrun, rd_of_not_on hq, quiesceStart, ctrlPage]
  exact congrArg b2n (hidle _)

theorem quiesceDrained_reads (pg : Pg) (hok : pg.ok = true) (hc : pg.common = true) (hctrl : ctrlPage pg = pg) (hq : s.on pg
    .BLK_CTRL_QUIESCE = true) (hnot : s.on pg .BLK_STAT_QUIESCED = false) (hrun : s.on pg .BLK_CTRL_SOFT_RESET = false) (hidle
   : s.idle pg = true) : Gives (.quiesceDrained pg) s fun t => t.rd pg .BLK_STAT_QUIESCED = 1 ∧ t.rd pg .BLK_CTRL_QUIESCE = 1
   := by
  refine gives_awake hs rfl fun _ hk => ?_
  rw [look_run, when_pos (by simp [hok, hc, hctrl, hq, hnot, hidle]), hrun]
  simp +decide [hc, rd_of_on rfl hq]

theorem intCauseWrite_clears (st : Stamp) (pg : Pg) (v : Word) (hok : pg.ok = true) (hc : pg.common = true) (hp : s.pathOpen
    st = true) : Gives (.intCauseWrite st pg false v) s fun t => t.rd pg .INT_CAUSE_BLK_INT = clearBits (s.rd pg
    .INT_CAUSE_BLK_INT) (v.toNat % 2 ^ 28) ∧ t.rd pg .INT_CAUSE_ERR = clearBits (s.rd pg .INT_CAUSE_ERR) (b2n (v.getLsbD 31))
    ∧ t.rd pg .INT_EN_BLK_INT = s.rd pg .INT_EN_BLK_INT := by
  refine gives_awake hs rfl fun _ hk => ?_
  have hfields : fieldsAt pg 0x40 = [(.INT_CAUSE_ERR, 0), (.INT_CAUSE_CNT_SAT, 0), (.INT_CAUSE_BLK_INT, 0)] := by
    rw [fieldsAt_low hc (by decide)]
    decide
  have hmask : lockMask pg 0x40 = 0xFFFFFFFF := rfl
  rw [when_pos (by simp [hok, hc]), granted, look_run, granting_run hp]
  have hlet : ∀ b : Bool, (b && lockMask pg 0x40 == 0) = false := fun b => by cases b <;> rfl
  simp only [Bool.false_eq_true, if_false, hlet, intWrite, plainWrite, hfields]
  simp +decide [hc, Fld.of_flag (f := .INT_CAUSE_ERR) rfl]
  exact ⟨rfl, rfl⟩

theorem intEnableWrite_sets (st : Stamp) (pg : Pg) (v : Word) (hok : pg.ok = true) (hc : pg.common = true) (hlock : s.locked
    pg = false) (hp : s.pathOpen st = true) : Gives (.intCauseWrite st pg true v) s fun t => t.rd pg .INT_EN_BLK_INT = v.toNat
    % 2 ^ 28 ∧ t.rd pg .INT_EN_ERR = b2n (v.getLsbD 31) ∧ t.rd pg .INT_CAUSE_BLK_INT = s.rd pg .INT_CAUSE_BLK_INT := by
  refine gives_awake hs rfl fun _ hk => ?_
  rw [when_pos (by simp [hok, hc]), granted_run hlock hp]
  have hfields : fieldsAt pg 0x44 = [(.INT_EN_ERR, 0), (.INT_EN_CNT_SAT, 0), (.INT_EN_BLK_INT, 0)] := by
    rw [fieldsAt_low hc (by decide)]
    decide
  simp only [if_true, intWrite, plainWrite, hfields]
  simp +decide [hc, Fld.of_flag (f := .INT_EN_ERR) rfl]
  exact ⟨rfl, rfl⟩

theorem counterClear_clears (st : Stamp) (pg : Pg) (v : Word) (i g : Nat) (hok : pg.ok = true) (hc : pg.common = true) (hlock
   : s.locked pg = false) (hg : cntGroup pg i = some g) (hv : v.getLsbD g = true) (hp : s.pathOpen st = true) : Gives
    (.counterClear st pg v) s fun t => t.cnt pg i = 0 ∧ t.rd pg .CNT_STAT_SAT = clearBits (s.rd pg .CNT_STAT_SAT) v.toNat :=
    by
  refine gives_awake hs rfl fun _ hk => ?_
  have hv' : v.toNat.testBit g = true := (BitVec.testBit_toNat v).trans hv
  rw [when_pos (by simp [hok, hc]), granted_run hlock hp, cntClear, look_run]
  simp [cnt_clearCnts hok (cntGroup_lt hg), hg, hv']

theorem counterClear_keeps (st : Stamp) (pg : Pg) (v : Word) (i g : Nat) (hok : pg.ok = true) (hc : pg.common = true) (hlock :
    s.locked pg = false) (hg : cntGroup pg i = some g) (hv : v.getLsbD g = false) (hp : s.pathOpen st = true) : Gives
    (.counterClear st pg v) s fun t => t.cnt pg i = s.cnt pg i := by
  refine gives_awake hs rfl fun _ hk => ?_
  have hv' : v.toNat.testBit g = false := (BitVec.testBit_toNat v).trans hv
  rw [when_pos (by simp [hok, hc]), granted_run hlock hp, cntClear, look_run]
  simp [cnt_clearCnts hok (cntGroup_lt hg), hg, hv']

end

/-- Settles O2: one lemma for each write and each event of the header. -/
theorem headersComplete : Obligations.HeadersComplete := by
  intro s hs
  exact ⟨softReset_starts hs, softReset_lockedOut hs, softResetDone_reads hs, quiesce_starts hs, portQuiesce_drains hs,
    quiesceDrained_reads hs, intCauseWrite_clears hs, intEnableWrite_sets hs, counterClear_clears hs, counterClear_keeps hs⟩

end Sys2Proof.Machine
end

section
/-! PROOF. Power-path channels: starting, warnings and cut-offs (Tables PWR-2 and PWR-3, R663 to R676). -/

namespace Sys2Proof.Machine

set_option Elab.async false

/-! ### Errors of a channel's page -/

section
variable {s : State} [h : Fact s.wf]

/-- An error of a channel sets its bit whether the switch die is in reset or not (Table PWR-6). -/
@[simp] theorem chanRaise_sets {c : Nat} {e : Err} (hk : e.bit < 32) :
    (((chanRaise c e).run s).rd (.pwr c) .ERR_STICKY_BITS).testBit e.bit = true := by
  rw [chanRaise, look_run]
  split
  · have hcause : (when_ (!(s.unmaskedErrs (.pwr c) [{ err := e }]).isEmpty) (wr (.pwr c) .INT_CAUSE_ERR 1)).KeepsSticky (.pwr c) :=
      keepsSticky_of_in rfl (F := Foot.fields .pwr [.INT_CAUSE_ERR]) (when_in (wr_in (hdr_mem rfl (by decide)) (fields_regs (by decide)))) (by
        simp [Foot.fields, Fld.ERR_STICKY_BITS, Fld.INT_CAUSE_ERR])
    have hnote : ((noteErrs (.pwr c) [{ err := e }]).run s).sticks (.pwr c) e.bit :=
      noteErrs_sticks h.out rfl hk (.inr ⟨_, List.mem_singleton.2 rfl, rfl⟩)
    have hw := (noteErrs (.pwr c) [{ err := e }]).keeps_wf h.out
    exact hcause _ (Upd.keeps_wf _ hw) _ (captureErrs_keepsSticky rfl rfl _ _ hw _ hnote)
  · exact raiseOne_sets rfl hk _ _

theorem chanRaise_keepsSticky {pg : Pg} (hc : pg.common = true) (c : Nat) (e : Err) : (chanRaise c e).KeepsSticky pg := by
  refine look_keepsSticky fun s => ?_
  dsimp only
  split
  · have hcause : (when_ (!(s.unmaskedErrs (.pwr c) [{ err := e }]).isEmpty) (wr (.pwr c) .INT_CAUSE_ERR 1)).KeepsSticky pg :=
      keepsSticky_of_in hc (F := Foot.fields .pwr [.INT_CAUSE_ERR]) (when_in (wr_in (hdr_mem rfl (by decide)) (fields_regs (by decide))))
        (by simp [Foot.fields, Fld.ERR_STICKY_BITS, Fld.INT_CAUSE_ERR])
    exact all_keepsSticky (by simp [noteErrs_keepsSticky hc (pg' := .pwr c) rfl, captureErrs_keepsSticky hc (pg' := .pwr c) rfl, hcause])
  · exact raiseAll_keepsSticky hc rfl _

/-- A bit that is set stays set when another error of a channel is recorded. -/
@[simp] theorem chanRaise_sticks {pg : Pg} (hc : pg.common = true) {k : Nat} (hk : (s.rd pg .ERR_STICKY_BITS).testBit k = true) (c : Nat)
    (e : Err) : (((chanRaise c e).run s).rd pg .ERR_STICKY_BITS).testBit k = true := chanRaise_keepsSticky hc c e s h.out k hk

@[simp] theorem rd_chanRaise {pg : Pg} {f : Fld} (hm : f ∈ pg.fields) (hn : f ∉ errorFields) (c : Nat) (e : Err) (i : Nat) :
    ((chanRaise c e).run s).rd pg f i = s.rd pg f i :=
  rd_of_in (chanRaise_in (Foot.le_refl _) c e) hm fun h =>
    hn ((show ∀ q ∈ Foot.chanRaise.regs, q.2 ∈ errorFields by decide) _ h)

@[simp] theorem iv_chanRaise {x : Var} (hn : x ∉ Foot.chanRaise.vars) (c : Nat) (e : Err) (i : Nat) :
    ((chanRaise c e).run s).iv x i = s.iv x i := iv_of_in (chanRaise_in (Foot.le_refl _) c e) hn

@[simp] theorem cnt_chanRaise (c : Nat) (e : Err) (n i : Nat) : ((chanRaise c e).run s).cnt (.pwr n) i = s.cnt (.pwr n) i :=
  cnt_of_in (chanRaise_in (Foot.le_refl _) c e) (show Fam.pwr ∉ _ by decide)

end

/-! ### Events -/

section
variable {s : State} (hs : s.wf)
include hs

theorem seated_waitsForFeed (c : ChanId) (hord : anchor c = false) (hwait : s.chan c = pcWAIT_SEAT) : Gives (.seatingDebounced
    c) s fun t => t.chan c = pcWAIT_FEED ∧ t.rd (.pwr c) .PWR_CH_STAT_SEATED = 1 := by
  refine gives_always hs rfl fun _ _ => ?_
  simp only [State.chan, State.on] at *
  simp +decide [hord, hwait, chanTo]

theorem latched_newlySeated (c : ChanId) (hord : anchor c = false) (hlatched : s.chan c = pcLATCHED) (hseat : s.rd (.pwr c)
    .PWR_CH_STAT_SEATED = 0) : Gives (.seatingDebounced c) s fun t => t.chan c = pcWAIT_FEED ∧ t.rd (.pwr c)
    .PWR_CH_STAT_SEATED = 1 := by
  refine gives_always hs rfl fun _ _ => ?_
  simp only [State.chan, State.on] at *
  simp +decide [hord, hlatched, hseat, chanTo]

theorem insertionDelay_ramps (c : ChanId) (b : Bool) (hwait : s.chan c = pcWAIT_FEED) (hen : s.on (.pwr c) (if b then
    .PWR_FEED_SEL_FEED_B_EN else .PWR_FEED_SEL_FEED_A_EN) = true) (hpref : s.prefersB c = b) : Gives (.insertionDelayExpiry c
    b) s fun t => t.chan c = pcRAMP ∧ t.activeB c = b ∧ t.feedOk c b = true ∧ t.rd (.pwr c) .PWR_CH_STAT_WARN = 0 ∧ t.cnt
    (.pwr c) 0 = min (s.cnt (.pwr c) 0 + 1) cntMax := by
  refine gives_always hs rfl fun _ _ => ?_
  cases b
  all_goals
    simp +decide [State.chan, State.prefersB, State.on] at hwait hen hpref
    simp +decide [hwait, hen, hpref, State.on, State.chan, State.activeB, State.prefersB, State.feedOk, chanTo, ramp, rampBest, setFeed]

theorem rampComplete_turnsOn (c : ChanId) (hramp : s.chan c = pcRAMP) : Gives (.rampComplete c) s fun t => t.chan c = pcON :=
    by
  refine gives_always hs rfl fun _ _ => ?_
  simp only [State.chan] at *
  simp +decide [hramp, chanTo]

theorem rampTimeout_warns (c : ChanId) (hramp : s.chan c = pcRAMP) : Gives (.rampTimeout c) s fun t => t.chan c = pcWARN ∧
    t.iv .pwCause c = cutFAULT ∧ t.rd (.pwr c) .PWR_CH_STAT_WARN = 1 ∧ (t.rd (.pwr c) .ERR_STICKY_BITS).testBit
    Err.PWR_FAULT_TIMER.bit = true := by
  refine gives_always hs rfl fun _ _ => ?_
  simp only [State.chan] at *
  simp +decide [hramp, State.on, State.ivOn, State.chan, chanTo, assertWarn, warnCut, faultExpires]
  exact rd_one_of_ne rfl

theorem fastTrip_retries (c : ChanId) (n : Nat) (hon : s.chanOn c = true) (hen : s.on (.pwr c) .PWR_CH_CFG_EN = true) (hreset
   : s.iv .pwReset c = 0) (hleft : s.rd (.pwr c) .PWR_CH_STAT_RETRIES_LEFT = n + 1) : Gives (.fastTrip c) s fun t => t.chan c
    = pcRETRY_WAIT ∧ t.rd (.pwr c) .PWR_CH_STAT_RETRIES_LEFT = n ∧ t.rd (.pwr c) .PWR_CH_STAT_LAST_CUT = cutFAST_TRIP ∧ t.rd
    (.pwr c) .PWR_CH_STAT_PG = 0 ∧ t.rd (.pwr c) .PWR_CH_STAT_WARN = 1 ∧ t.cnt (.pwr c) 2 = min (s.cnt (.pwr c) 2 + 1) cntMax
    ∧ t.cnt (.pwr c) 3 = min (s.cnt (.pwr c) 3 + 1) cntMax ∧ (t.rd (.pwr c) .ERR_STICKY_BITS).testBit Err.PWR_FAST_TRIP.bit =
    true ∧ (t.rd (.pwr c) .ERR_STICKY_BITS).testBit Err.PWR_RETRYING.bit = true := by
  refine gives_always hs rfl fun _ _ => ?_
  simp only [State.chan, State.chanOn, State.on] at *
  have hn : n < 16 := by
    have := rd_lt s (.pwr c) .PWR_CH_STAT_RETRIES_LEFT 0
    have : s.rd (.pwr c) .PWR_CH_STAT_RETRIES_LEFT < 16 := this
    omega
  simp +decide [hon, hen, hreset, hleft, State.on, State.ivOn, State.chan, State.chanOn, chanTo, assertWarn, toRetry, cut, unwarnedCut]
  exact ⟨Nat.mod_eq_of_lt hn, rd_one_of_ne rfl, chanRaise_sticks rfl (by simp +decide) _ _⟩

theorem fastTrip_latches (c : ChanId) (hon : s.chanOn c = true) (hen : s.on (.pwr c) .PWR_CH_CFG_EN = true) (hreset : s.iv
    .pwReset c = 0) (hleft : s.rd (.pwr c) .PWR_CH_STAT_RETRIES_LEFT = 0) : Gives (.fastTrip c) s fun t => t.chan c =
    pcLATCHED ∧ (t.rd (.pwr c) .ERR_STICKY_BITS).testBit Err.PWR_LATCHED.bit = true ∧ t.rd (.pwr c) .PWR_CH_STAT_PG = 0 := by
  refine gives_always hs rfl fun _ _ => ?_
  simp only [State.chan, State.chanOn, State.on] at *
  simp +decide [hon, hen, hreset, hleft, State.on, State.ivOn, State.chan, State.chanOn, chanTo, assertWarn, toRetry, cut, unwarnedCut]

theorem faultTimer_warns (c : ChanId) (hstate : (s.chan c = pcRAMP ∨ s.chan c = pcON)) : Gives (.faultTimerExpiry c) s fun t
    => t.chan c = pcWARN ∧ t.iv .pwCause c = cutFAULT ∧ t.rd (.pwr c) .PWR_CH_STAT_PG = 0 ∧ t.rd (.pwr c) .PWR_CH_STAT_WARN =
    1 ∧ t.cnt (.pwr c) 4 = min (s.cnt (.pwr c) 4 + 1) cntMax ∧ (t.rd (.pwr c) .ERR_STICKY_BITS).testBit
    Err.PWR_FAULT_TIMER.bit = true := by
  refine gives_always hs rfl fun _ _ => ?_
  simp only [State.chan] at *
  simp +decide [hstate, State.on, State.ivOn, State.chan, chanTo, assertWarn, warnCut, faultExpires]
  exact rd_one_of_ne rfl

theorem fetOvertemp_warns (c : ChanId) (hstate : (s.chan c = pcRAMP ∨ s.chan c = pcON)) : Gives (.fetOvertemp c) s fun t =>
    t.chan c = pcWARN ∧ t.iv .pwCause c = cutFET ∧ t.rd (.pwr c) .PWR_CH_STAT_WARN = 1 ∧ (t.rd (.pwr c)
    .ERR_STICKY_BITS).testBit Err.PWR_FET_HOT.bit = true := by
  refine gives_always hs rfl fun _ _ => ?_
  simp only [State.chan] at *
  simp +decide [hstate, State.on, State.ivOn, State.chan, chanTo, assertWarn, warnCut]
  exact rd_one_of_ne rfl

theorem seatingLoss_warns (c : ChanId) (hord : anchor c = false) (hstate : s.chan c = pcON) : Gives (.seatingLoss c) s fun t
    => t.chan c = pcWARN ∧ t.iv .pwCause c = cutSEAT ∧ t.rd (.pwr c) .PWR_CH_STAT_SEATED = 0 ∧ (t.rd (.pwr c)
    .ERR_STICKY_BITS).testBit Err.PWR_SEAT_LOSS.bit = true := by
  refine gives_always hs rfl fun _ _ => ?_
  simp only [State.chan] at *
  simp +decide [hord, hstate, State.on, State.ivOn, State.chan, chanTo, assertWarn, warnCut]

theorem seatingLoss_waits (c : ChanId) (hord : anchor c = false) (hstate : (s.chan c = pcWAIT_FEED ∨ s.chan c = pcRETRY_WAIT ∨
    s.chan c = pcFEED_LOST)) : Gives (.seatingLoss c) s fun t => t.chan c = pcWAIT_SEAT ∧ t.rd (.pwr c) .PWR_CH_STAT_SEATED =
    0 := by
  refine gives_always hs rfl fun _ _ => ?_
  simp only [State.chan] at *
  simp +decide [hord, or_assoc, hstate, State.on, State.ivOn, State.chan, chanTo, assertWarn, warnCut]

theorem feedLoss_warns (c : ChanId) (hstate : s.chan c = pcON) (hother : s.feedOk c (!s.activeB c) = false) : Gives (.feedLoss
    c) s fun t => t.chan c = pcWARN ∧ t.iv .pwCause c = cutFEED ∧ t.feedOk c (s.activeB c) = false ∧ (t.rd (.pwr c)
    .ERR_STICKY_BITS).testBit Err.PWR_FEED_LOST.bit = true := by
  refine gives_always hs rfl fun _ _ => ?_
  simp only [look_run, all_cons_run, all_nil_run, hother, Bool.not_false, when_true_run]
  cases hb : s.activeB c
  all_goals
    simp only [State.chan] at hstate
    simp +decide [hstate, State.on, State.ivOn, State.chan, State.feedOk, chanTo, setFeed, assertWarn, warnCut]

theorem ovCut_losesFeed (c : ChanId) (hon : s.chanOn c = true) (hen : s.on (.pwr c) .PWR_CH_CFG_EN = true) (hreset : s.iv
    .pwReset c = 0) (hother : s.feedOk c (!s.activeB c) = false) : Gives (.ovCut c) s fun t => t.chan c = pcFEED_LOST ∧ t.rd
    (.pwr c) .PWR_CH_STAT_LAST_CUT = cutOV ∧ t.rd (.pwr c) .PWR_CH_STAT_PG = 0 ∧ (t.rd (.pwr c) .ERR_STICKY_BITS).testBit
    Err.PWR_OV_CUT.bit = true := by
  refine gives_always hs rfl fun _ _ => ?_
  simp only [look_run, hother, Bool.not_false, when_true_run, unwarnedCut, hon, all_cons_run, all_nil_run]
  simp only [State.on] at hen
  cases hb : s.activeB c
  all_goals
    simp +decide [hen, hreset, State.on, State.ivOn, State.chan, chanTo, setFeed, assertWarn, cut]

theorem warnLead_latches (c : ChanId) (hstate : s.chan c = pcWARN) (hcause : s.iv .pwCause c = cutFET) (hen : s.on (.pwr c)
    .PWR_CH_CFG_EN = true) (hreset : s.iv .pwReset c = 0) : Gives (.warnLeadExpiry c) s fun t => t.chan c = pcLATCHED ∧ t.rd
    (.pwr c) .PWR_CH_STAT_LAST_CUT = cutFET ∧ t.rd (.pwr c) .PWR_CH_STAT_PG = 0 ∧ t.iv .pwCause c = 0 ∧ t.cnt (.pwr c) 1 = min
    (s.cnt (.pwr c) 1 + 1) cntMax ∧ (t.rd (.pwr c) .ERR_STICKY_BITS).testBit Err.PWR_LATCHED.bit = true := by
  refine gives_always hs rfl fun _ _ => ?_
  simp only [State.chan, State.on, State.ivOn] at *
  simp +decide [hstate, hcause, hen, hreset, State.on, State.ivOn, chanTo, toRetry, cut]

theorem warnLead_switches (c : ChanId) (hstate : s.chan c = pcWARN) (hcause : s.iv .pwCause c = 0) : Gives (.warnLeadExpiry c)
    s fun t => t.chan c = pcON ∧ t.iv .pwDead c = 1 ∧ t.rd (.pwr c) .PWR_CH_STAT_PG = 0 := by
  refine gives_always hs rfl fun _ _ => ?_
  simp only [State.chan, State.ivOn] at *
  simp +decide [hstate, hcause, State.on, State.ivOn, chanTo, toRetry, cut]

theorem retryPeriod_ramps (c : ChanId) (hstate : s.chan c = pcRETRY_WAIT) : Gives (.retryPeriodExpiry c) s fun t => t.chan c =
    pcRAMP ∧ t.rd (.pwr c) .PWR_CH_STAT_WARN = 0 ∧ t.cnt (.pwr c) 0 = min (s.cnt (.pwr c) 0 + 1) cntMax := by
  refine gives_always hs rfl fun _ _ => ?_
  simp only [State.chan] at *
  simp +decide [hstate, State.on, State.activeB, State.prefersB, State.feedOk, chanTo, ramp, rampBest]

end

/-- Settles O32: one lemma for each event and each state it finds the channel in. -/
theorem channelsStartAndCut : Obligations.ChannelsStartAndCut := by
  intro s hs
  exact ⟨seated_waitsForFeed hs, latched_newlySeated hs, insertionDelay_ramps hs, rampComplete_turnsOn hs, rampTimeout_warns
    hs, fastTrip_retries hs, fastTrip_latches hs, faultTimer_warns hs, fetOvertemp_warns hs, seatingLoss_warns hs,
    seatingLoss_waits hs, feedLoss_warns hs, ovCut_losesFeed hs, warnLead_latches hs, warnLead_switches hs, retryPeriod_ramps
    hs⟩

end Sys2Proof.Machine
end

section
/-! PROOF. Power-path channels: reverse block, power-good, switchovers and telemetry (R672 to R683). -/

namespace Sys2Proof.Machine

set_option Elab.async false

section
variable {s : State} (hs : s.wf)
include hs

theorem reverseBlock_blocks (c : ChanId) (hon : s.chanOn c = true) (hdead : s.ivOn .pwDead c = false) (hrev : s.rd (.pwr c)
    .PWR_CH_STAT_REV_BLOCK = 0) : Gives (.reverseBlock c) s fun t => t.rd (.pwr c) .PWR_CH_STAT_REV_BLOCK = 1 ∧ t.gate c
    (t.activeB c) = false ∧ t.cnt (.pwr c) 8 = min (s.cnt (.pwr c) 8 + 1) cntMax ∧ (t.rd (.pwr c) .ERR_STICKY_BITS).testBit
    Err.PWR_REVERSE.bit = true := by
  refine gives_always hs rfl fun _ _ => ?_
  simp only [State.chan, State.chanOn, State.activeB, State.on, State.ivOn] at *
  simp +decide [hon, hdead, hrev, State.on, State.ivOn, State.chan, State.chanOn, State.activeB, State.gate]

theorem reverseRelease_releases (c : ChanId) : Gives (.reverseRelease c) s fun t => t.rd (.pwr c) .PWR_CH_STAT_REV_BLOCK = 0 ∧
    t.chan c = s.chan c := by
  refine gives_always hs rfl fun _ _ => ?_
  simp only [State.chan] at *
  simp +decide

theorem powerGood_gives (c : ChanId) (hstate : s.chan c = pcON) (hlimit : s.rd (.pwr c) .PWR_CH_STAT_LIMIT = 0) (hpg : s.rd
    (.pwr c) .PWR_CH_STAT_PG = 0) (hrev : s.rd (.pwr c) .PWR_CH_STAT_REV_BLOCK = 0) (hdead : s.iv .pwDead c = 0) : Gives
    (.powerGood c) s fun t => t.rd (.pwr c) .PWR_CH_STAT_PG = 1 ∧ t.rd (.pwr c) .PWR_CH_STAT_WARN = 0 := by
  refine gives_always hs rfl fun _ _ => ?_
  simp only [State.chan, State.on, State.ivOn] at *
  simp +decide [hstate, hlimit, hpg, hrev, hdead, rd_of_in (powerBack_in (Foot.le_refl _) _)]

theorem retryReload_reloads (c : ChanId) (hpg : s.rd (.pwr c) .PWR_CH_STAT_PG = 1) : Gives (.retryReloadTimer c) s fun t =>
    t.rd (.pwr c) .PWR_CH_STAT_RETRIES_LEFT = s.rd (.pwr c) .PWR_FAULT_TIMER_RETRY_COUNT % 16 := by
  refine gives_always hs rfl fun _ _ => ?_
  simp only [State.on] at *
  simp +decide [hpg, reloadRetries]
  rfl

theorem outputLow_withdrawsPg (c : ChanId) : Gives (.outputBelowPgThreshold c) s fun t => t.rd (.pwr c) .PWR_CH_STAT_PG = 0 ∧
    t.chan c = s.chan c := by
  refine gives_always hs rfl fun _ _ => ?_
  simp only [State.chan] at *
  simp +decide

theorem forcedSwitchover_unwarned (c : ChanId) (hstate : (s.chan c = pcRAMP ∨ s.chan c = pcON)) (hdead : s.iv .pwDead c = 0)
    (hen : s.on (.pwr c) (if s.activeB c then .PWR_FEED_SEL_FEED_A_EN else .PWR_FEED_SEL_FEED_B_EN) = true) (hwarn : s.on
    (.pwr c) .PWR_FEED_SEL_WARN_ON_SWITCH = false) : Gives (.forcedSwitchover c) s fun t => t.iv .pwDead c = 1 ∧ t.iv
    .pwSwitch c = 1 + b2n (!s.activeB c) ∧ t.feedOk c (s.activeB c) = false ∧ t.feedOk c (!s.activeB c) = true ∧ t.chan c =
    s.chan c ∧ t.rd (.pwr c) .PWR_CH_STAT_PG = s.rd (.pwr c) .PWR_CH_STAT_PG := by
  refine gives_always hs rfl fun _ _ => ?_
  cases hb : s.activeB c
  all_goals
    simp only [hb] at hen
    simp [State.chan, State.activeB, State.on] at hb hstate hen hwarn
    simp +decide [hstate, hdead, hen, hwarn, hb, State.on, State.ivOn, State.chan, State.activeB, State.feedOk, chanTo, setFeed, assertWarn, breakTo]
    rintro ha
    rcases hstate with h | h <;> rw [ha] at h <;> exact absurd h (by decide)

theorem forcedSwitchover_warned (c : ChanId) (hstate : s.chan c = pcON) (hdead : s.iv .pwDead c = 0) (hen : s.on (.pwr c) (if
    s.activeB c then .PWR_FEED_SEL_FEED_A_EN else .PWR_FEED_SEL_FEED_B_EN) = true) (hwarn : s.on (.pwr c)
    .PWR_FEED_SEL_WARN_ON_SWITCH = true) : Gives (.forcedSwitchover c) s fun t => t.iv .pwDead c = 1 ∧ t.rd (.pwr c)
    .PWR_CH_STAT_PG = 0 ∧ t.rd (.pwr c) .PWR_CH_STAT_WARN = 1 := by
  refine gives_always hs rfl fun _ _ => ?_
  cases hb : s.activeB c
  all_goals
    simp only [hb] at hen
    simp [State.chan, State.activeB, State.on] at hb hstate hen hwarn
    simp +decide [hstate, hdead, hen, hwarn, hb, State.on, State.ivOn, State.chan, State.activeB, chanTo, setFeed, assertWarn, breakTo]
    exact rd_one_of_ne rfl

theorem revertSwitchover_warned (c : ChanId) (hrev : s.on (.pwr c) .PWR_FEED_SEL_REVERT = true) (hne : s.activeB c ≠
    s.prefersB c) (hen : s.on (.pwr c) (if s.prefersB c then .PWR_FEED_SEL_FEED_B_EN else .PWR_FEED_SEL_FEED_A_EN) = true)
    (hstate : s.chan c = pcON) (hidle : s.iv .pwSwitch c = 0) (hwarn : s.on (.pwr c) .PWR_FEED_SEL_WARN_ON_SWITCH = true) :
    Gives (.revertSwitchover c) s fun t => t.chan c = pcWARN ∧ t.iv .pwSwitch c = 1 + b2n (s.prefersB c) ∧ t.rd (.pwr c)
    .PWR_CH_STAT_WARN = 1 ∧ t.iv .pwCause c = 0 := by
  refine gives_always hs rfl fun _ _ => ?_
  have hact : s.activeB c = !s.prefersB c := Bool.eq_not_of_ne hne
  cases hb : s.prefersB c
  case false =>
    simp only [hb] at hen hact
    simp [State.chan, State.activeB, State.prefersB, State.on] at hb hact hstate hen hrev hwarn
    simp +decide [hrev, hact, hstate, hen, hidle, hwarn, hb, State.on, State.ivOn, State.chan, State.activeB, State.prefersB,
        State.feedOk, chanTo, setFeed, assertWarn, breakTo, switchTo]
    exact rd_one_of_ne rfl
  case true =>
    simp only [hb] at hen hact
    simp [State.chan, State.activeB, State.prefersB, State.on] at hb hact hstate hen hrev hwarn
    have hb1 : b2n (s.rd (.pwr c) .PWR_FEED_SEL_PRIO != 0) = 1 := by simp [hb]
    simp +decide [hrev, hact, hstate, hen, hidle, hwarn, hb, hb1, State.on, State.ivOn, State.chan, State.activeB, State.prefersB,
        State.feedOk, chanTo, setFeed, assertWarn, breakTo, switchTo]
    exact rd_one_of_ne rfl

theorem revertSwitchover_unwarned (c : ChanId) (hrev : s.on (.pwr c) .PWR_FEED_SEL_REVERT = true) (hne : s.activeB c ≠
    s.prefersB c) (hen : s.on (.pwr c) (if s.prefersB c then .PWR_FEED_SEL_FEED_B_EN else .PWR_FEED_SEL_FEED_A_EN) = true)
    (hstate : s.chan c = pcON) (hidle : s.iv .pwSwitch c = 0) (hwarn : s.on (.pwr c) .PWR_FEED_SEL_WARN_ON_SWITCH = false) :
    Gives (.revertSwitchover c) s fun t => t.chan c = pcON ∧ t.iv .pwSwitch c = 1 + b2n (s.prefersB c) ∧ t.iv .pwDead c = 1 :=
    by
  refine gives_always hs rfl fun _ _ => ?_
  have hact : s.activeB c = !s.prefersB c := Bool.eq_not_of_ne hne
  cases hb : s.prefersB c
  case false =>
    simp only [hb] at hen hact
    simp [State.chan, State.activeB, State.prefersB, State.on] at hb hact hstate hen hrev hwarn
    simp +decide [hrev, hact, hstate, hen, hidle, hwarn, hb, State.on, State.ivOn, State.chan, State.activeB, State.prefersB,
        State.feedOk, chanTo, setFeed, assertWarn, breakTo, switchTo]
  case true =>
    simp only [hb] at hen hact
    simp [State.chan, State.activeB, State.prefersB, State.on] at hb hact hstate hen hrev hwarn
    have hb1 : b2n (s.rd (.pwr c) .PWR_FEED_SEL_PRIO != 0) = 1 := by simp [hb]
    simp +decide [hrev, hact, hstate, hen, hidle, hwarn, hb, hb1, State.on, State.ivOn, State.chan, State.activeB, State.prefersB,
        State.feedOk, chanTo, setFeed, assertWarn, breakTo, switchTo]

theorem deadTime_drives (c : ChanId) (hon : s.chanOn c = true) (hdead : s.ivOn .pwDead c = true) (hsw : s.iv .pwSwitch c = 2)
   : Gives (.deadTimeExpiry c) s fun t => t.activeB c = true ∧ t.iv .pwDead c = 0 ∧ t.iv .pwSwitch c = 0 ∧ t.cnt (.pwr c) 5 =
    min (s.cnt (.pwr c) 5 + 1) cntMax := by
  refine gives_always hs rfl fun _ _ => ?_
  simp only [State.chan, State.chanOn, State.activeB, State.on, State.ivOn] at *
  simp +decide [hon, hdead, hsw]

theorem telemetrySample_reads (c : ChanId) (vo io va vb : BitVec 16) (tf : BitVec 8) (l : Bool) (hon : s.chanOn c = true) (hen
   : s.on (.pwr c) .PWR_FEED_SEL_FEED_A_EN = true) : Gives (.telemetrySample c vo io va vb tf l) s fun t => t.rd (.pwr c)
    .PWR_TELEM_VOUT = vo.toNat ∧ t.rd (.pwr c) .PWR_TELEM_IOUT = io.toNat ∧ t.rd (.pwr c) .PWR_TELEM_VFA = va.toNat ∧ t.rd
    (.pwr c) .PWR_TELEM_VFB = vb.toNat ∧ t.rd (.pwr c) .PWR_TELEM_TFET = tf.toNat ∧ t.rd (.pwr c) .PWR_TELEM_IPEAK = max (s.rd
    (.pwr c) .PWR_TELEM_IPEAK) io.toInt.natAbs % 65536 ∧ t.feedOk c false = s.qualified c va.toNat (s.on (.pwr c)
    .PWR_CH_STAT_A_OK) ∧ t.rd (.pwr c) .PWR_CH_STAT_LIMIT = b2n l ∧ t.iv .pwEnergy c = (s.iv .pwEnergy c + vo.toNat *
    io.toInt.toNat) % 100000 := by
  refine gives_always hs rfl fun _ _ => ?_
  simp only [State.chan, State.chanOn, State.feedOk, State.on] at *
  simp +decide [hon, hen, setFeed]
  exact ⟨Nat.mod_eq_of_lt vo.isLt, Nat.mod_eq_of_lt io.isLt, Nat.mod_eq_of_lt va.isLt, Nat.mod_eq_of_lt vb.isLt,
    Nat.mod_eq_of_lt tf.isLt, rfl⟩

end

/-- Settles O33: one lemma for each event of a channel that is on. -/
theorem channelsSwitchAndReport : Obligations.ChannelsSwitchAndReport := by
  intro s hs
  exact ⟨reverseBlock_blocks hs, reverseRelease_releases hs, powerGood_gives hs, retryReload_reloads hs, outputLow_withdrawsPg
    hs, forcedSwitchover_unwarned hs, forcedSwitchover_warned hs, revertSwitchover_warned hs, revertSwitchover_unwarned hs,
    deadTime_drives hs, telemetrySample_reads hs⟩

end Sys2Proof.Machine
end

section
/-! PROOF. Power-path channels: writes to their registers and feed checks (R680, R685, R686). -/

namespace Sys2Proof.Machine

set_option Elab.async false

/-- What a feed check does to one channel: its telemetry is copied, and a standby feed that is not qualified is recorded. -/
def checkChan (s : State) (c : Nat) : Upd :=
  all [forEach [(Fld.PWR_SNAP_VOUT, Fld.PWR_TELEM_VOUT), (.PWR_SNAP_IOUT, .PWR_TELEM_IOUT), (.PWR_SNAP_VFA, .PWR_TELEM_VFA),
         (.PWR_SNAP_VFB, .PWR_TELEM_VFB), (.PWR_SNAP_TFET, .PWR_TELEM_TFET), (.PWR_SNAP_IPEAK, .PWR_TELEM_IPEAK)] fun x =>
         wr (.pwr c) x.1 (s.rd (.pwr c) x.2),
       wr (.pwr c) .PWR_SNAP_CYCLE s.cycleNum,
       when_ (s.chan c == pcON && s.on (.pwr c) .PWR_FEED_SEL_FEED_B_EN && !s.feedOk c (!s.activeB c)) (chanRaise c .PWR_STANDBY_LOST)]

/-- A feed check that is due checks every channel. -/
theorem gives_feedCheck {s : State} {P : State → Prop} (hs : s.Awake) (hen : s.on .pwrg .PWR_CHECK_CFG_EN = true) (hcyc : s.inCycle = true)
    (hdue : s.cycleNum % 2 ^ s.rd .pwrg .PWR_CHECK_CFG_EVERY_LOG2 = 0) (h : Fact s.wf → P ((forBelow 24 (checkChan s)).run s)) :
    Gives .feedCheck s P :=
  gives_awake hs rfl fun hw _ => by
    have hok : (s.on .pwrg .PWR_CHECK_CFG_EN && s.inCycle && !s.ivOn .dieReset &&
        s.cycleNum % 2 ^ s.rd .pwrg .PWR_CHECK_CFG_EVERY_LOG2 == 0) = true := by
      rw [hen, hcyc, hs.2, hdue]
      rfl
    simp only [look_run, hok, when_true_run]
    exact h hw

theorem checkChan_keepsSticky (s : State) (d c : Nat) : (checkChan s d).KeepsSticky (.pwr c) := by
  have hcopy {f : Fld} (hf : f ∈ tabPWR) (v : Nat) : (wr (.pwr d) f v).KeepsSticky (.pwr c) :=
    keepsSticky_of_in rfl (F := Foot.fields .pwr [f]) (wr_in (own_mem hf) (fields_regs (List.mem_singleton.2 rfl))) (by
      have hne : ∀ f ∈ tabPWR, f ≠ Fld.ERR_STICKY_BITS := by decide
      simpa [Foot.fields] using fun he => hne f hf he.symm)
  refine all_keepsSticky ?_
  simp only [List.forall_mem_cons, List.not_mem_nil, false_imp_iff, implies_true, and_true]
  refine ⟨all_keepsSticky ?_, hcopy (by decide) _, when_keepsSticky (chanRaise_keepsSticky rfl _ _)⟩
  simp only [List.map_cons, List.map_nil, List.forall_mem_cons, List.not_mem_nil, false_imp_iff, implies_true, and_true]
  exact ⟨hcopy (by decide) _, hcopy (by decide) _, hcopy (by decide) _, hcopy (by decide) _, hcopy (by decide) _, hcopy (by decide) _⟩

/-- It leaves the snapshots of the other channels. -/
theorem checkChan_other {s t : State} [Fact t.wf] {c d : Nat} {f : Fld} (hd : d ≠ c)
    (hf : f ∈ [Fld.PWR_SNAP_VOUT, .PWR_SNAP_IPEAK, .PWR_SNAP_CYCLE]) :
    ((checkChan s d).run t).rd (.pwr c) f = t.rd (.pwr c) f := by
  have := Upd.keeps_fact
  have hpage : Pg.pwr c ≠ Pg.pwr d := fun h => hd (Pg.pwr.inj h).symm
  simp only [List.mem_cons, List.not_mem_nil, or_false] at hf
  rcases hf with rfl | rfl | rfl
  all_goals simp +decide [checkChan, hpage]

section
variable {s : State} (hs : s.Awake)
include hs

theorem channelEnable_starts (c : ChanId) (st : Stamp) (v : Word) (hlock : s.locked (.pwr c) = false) (hen : v.getLsbD 31 =
    true) (hclear : v.getLsbD 29 = false) (hfeed : s.on (.pwr c) .PWR_FEED_SEL_FEED_A_EN = true) (hwas : s.on (.pwr c)
    .PWR_CH_CFG_EN = false) (hstate : s.chan c = pcOFF) (hp : s.pathOpen st = true) : Gives (.channelEnable st c v) s fun t =>
    t.on (.pwr c) .PWR_CH_CFG_EN = true ∧ (t.chan c = (if anchor c then pcWAIT_FEED else pcWAIT_SEAT)) ∧ t.rd (.pwr c)
    .PWR_CH_STAT_RETRIES_LEFT = s.rd (.pwr c) .PWR_FAULT_TIMER_RETRY_COUNT % 16 := by
  refine gives_granted hs rfl hlock hp fun _ _ => ?_
  simp [State.chan, State.on] at hen hclear hfeed hwas hstate
  have hf : Fld.PWR_CH_CFG_EN.of v.toNat = b2n v[31] := Fld.of_flag_word rfl v
  simp only [pwrCfgWrite, BitVec.testBit_toNat]
  simp +decide [hen, hclear, hfeed, hwas, hstate, State.on, State.ivOn, State.chan, State.chanOn, chanTo, assertWarn, warnCut,
      reloadRetries, chanOff, chanStart, hf]
  exact ⟨Nat.mod_eq_of_lt (by split <;> decide), rfl⟩

theorem channelEnable_refused (c : ChanId) (st : Stamp) (v : Word) (hlock : s.locked (.pwr c) = false) (hen : v.getLsbD 31 =
    true) (hA : s.on (.pwr c) .PWR_FEED_SEL_FEED_A_EN = false) (hB : s.on (.pwr c) .PWR_FEED_SEL_FEED_B_EN = false) (hp :
    s.pathOpen st = true) : Gives (.channelEnable st c v) s fun t => t.rd (.pwr c) .PWR_CH_CFG_EN = s.rd (.pwr c)
    .PWR_CH_CFG_EN ∧ (t.rd (.pwr c) .ERR_STICKY_BITS).testBit Err.PWR_CFG_REFUSED.bit = true ∧ t.chan c = s.chan c := by
  refine gives_granted hs rfl hlock hp fun _ _ => ?_
  simp [State.on] at hen hA hB
  simp only [pwrCfgWrite, BitVec.testBit_toNat]
  simp +decide [hen, hA, hB, State.on, State.ivOn, State.chan, State.chanOn, chanTo, assertWarn, warnCut, reloadRetries, chanOff,
      chanStart, Fld.of_flag]

theorem channelDisable_warns (c : ChanId) (st : Stamp) (v : Word) (hlock : s.locked (.pwr c) = false) (hen : v.getLsbD 31 =
    false) (hclear : v.getLsbD 29 = false) (hport : Fld.PWR_CH_CFG_PORT.of v.toNat = s.rd (.pwr c) .PWR_CH_CFG_PORT) (hbind :
    Fld.PWR_CH_CFG_BIND_EN.of v.toNat = s.rd (.pwr c) .PWR_CH_CFG_BIND_EN) (hwas : s.on (.pwr c) .PWR_CH_CFG_EN = true)
    (hstate : s.chan c = pcON) (hp : s.pathOpen st = true) : Gives (.channelDisable st c v) s fun t => t.on (.pwr c)
    .PWR_CH_CFG_EN = false ∧ t.chan c = pcWARN ∧ t.iv .pwCause c = cutOFF ∧ t.rd (.pwr c) .PWR_CH_STAT_WARN = 1 := by
  refine gives_granted hs rfl hlock hp fun _ _ => ?_
  simp [State.chan, State.on] at hen hclear hport hbind hwas hstate
  have hf : Fld.PWR_CH_CFG_EN.of v.toNat = b2n v[31] := Fld.of_flag_word rfl v
  simp only [pwrCfgWrite, BitVec.testBit_toNat]
  simp +decide [hen, hclear, hport, hbind, hwas, hstate, State.on, State.ivOn, State.chan, State.chanOn, chanTo, assertWarn, warnCut,
      reloadRetries, chanOff, chanStart, hf]
  exact rd_one_of_ne rfl

theorem channelDisable_latched (c : ChanId) (st : Stamp) (v : Word) (hlock : s.locked (.pwr c) = false) (hen : v.getLsbD 31 =
    false) (hclear : v.getLsbD 29 = false) (hwas : s.on (.pwr c) .PWR_CH_CFG_EN = true) (hstate : s.chan c = pcLATCHED) (hp :
    s.pathOpen st = true) : Gives (.channelDisable st c v) s fun t => t.on (.pwr c) .PWR_CH_CFG_EN = false ∧ t.chan c = pcOFF
   := by
  refine gives_granted hs rfl hlock hp fun _ _ => ?_
  simp [State.chan, State.on] at hen hclear hwas hstate
  have hf : Fld.PWR_CH_CFG_EN.of v.toNat = b2n v[31] := Fld.of_flag_word rfl v
  simp only [pwrCfgWrite, BitVec.testBit_toNat]
  simp +decide [hen, hclear, hwas, hstate, State.on, State.ivOn, State.chan, State.chanOn, chanTo, assertWarn, warnCut, reloadRetries,
      chanOff, chanStart, hf]

theorem channelClear_starts (c : ChanId) (st : Stamp) (v : Word) (hlock : s.locked (.pwr c) = false) (hen : v.getLsbD 31 =
    true) (hclear : v.getLsbD 29 = true) (hwas : s.on (.pwr c) .PWR_CH_CFG_EN = true) (hfeed : s.on (.pwr c)
    .PWR_FEED_SEL_FEED_A_EN = true) (hstate : s.chan c = pcLATCHED) (hp : s.pathOpen st = true) : Gives (.channelClear st c v)
    s fun t => (t.chan c = (if anchor c then pcWAIT_FEED else pcWAIT_SEAT)) ∧ t.rd (.pwr c) .PWR_CH_STAT_RETRIES_LEFT = s.rd
    (.pwr c) .PWR_FAULT_TIMER_RETRY_COUNT % 16 := by
  refine gives_granted hs rfl hlock hp fun _ _ => ?_
  simp [State.chan, State.on] at hen hclear hwas hfeed hstate
  have hf : Fld.PWR_CH_CFG_EN.of v.toNat = b2n v[31] := Fld.of_flag_word rfl v
  simp only [pwrCfgWrite, BitVec.testBit_toNat]
  simp +decide [hen, hclear, hwas, hfeed, hstate, State.on, State.ivOn, State.chan, State.chanOn, chanTo, assertWarn, warnCut,
      reloadRetries, chanOff, chanStart, hf]
  exact ⟨Nat.mod_eq_of_lt (by split <;> decide), rfl⟩

theorem softwareSwitchover_starts (c : ChanId) (st : Stamp) (v : Word) (hlock : s.locked (.pwr c) = false) (hA : v.getLsbD 31
    = true) (hB : v.getLsbD 30 = true) (hforce : bits v.toNat 26 25 = 2) (hstate : s.chan c = pcON) (hact : s.activeB c =
    false) (hok : s.rd (.pwr c) .PWR_CH_STAT_B_OK = 1) (hidle : s.iv .pwSwitch c = 0) (hwarn :
    Fld.PWR_FEED_SEL_WARN_ON_SWITCH.of v.toNat = 0) (hp : s.pathOpen st = true) : Gives (.softwareSwitchover st c v) s fun t
    => t.iv .pwSwitch c = 2 ∧ t.iv .pwDead c = 1 ∧ t.chan c = pcON := by
  refine gives_granted hs rfl hlock hp fun _ _ => ?_
  simp [State.chan, State.on, State.activeB] at hA hB hforce hstate hact hok hidle hwarn
  have hf : Fld.PWR_FEED_SEL_FEED_B_EN.of v.toNat = b2n v[30] := Fld.of_flag_word rfl v
  simp only [feedSelWrite, BitVec.testBit_toNat]
  simp +decide [hA, hB, hforce, hstate, hact, hok, hidle, hwarn, State.on, State.ivOn, State.chan, State.activeB, State.feedOk, chanTo,
      setFeed, assertWarn, breakTo, switchTo, hf]

theorem softwareSwitchover_refused (c : ChanId) (st : Stamp) (v : Word) (hlock : s.locked (.pwr c) = false) (hwas : s.on (.pwr
    c) .PWR_CH_CFG_EN = true) (hA : v.getLsbD 31 = false) (hB : v.getLsbD 30 = false) (hp : s.pathOpen st = true) : Gives
    (.softwareSwitchover st c v) s fun t => t.iv .pwSwitch c = s.iv .pwSwitch c ∧ (t.rd (.pwr c) .ERR_STICKY_BITS).testBit
    Err.PWR_CFG_REFUSED.bit = true ∧ t.rd (.pwr c) .PWR_FEED_SEL_FEED_A_EN = s.rd (.pwr c) .PWR_FEED_SEL_FEED_A_EN := by
  refine gives_granted hs rfl hlock hp fun _ _ => ?_
  simp [State.on] at hwas hA hB
  simp only [feedSelWrite, BitVec.testBit_toNat]
  simp +decide [hwas, hA, hB, State.on, State.ivOn, State.chan, State.activeB, State.feedOk, chanTo, setFeed, assertWarn, breakTo, switchTo]

theorem feedCheck_copies (c : ChanId) (hen : s.on .pwrg .PWR_CHECK_CFG_EN = true) (hcyc : s.inCycle = true) (hdue : s.cycleNum
    % 2 ^ s.rd .pwrg .PWR_CHECK_CFG_EVERY_LOG2 = 0) : Gives (.feedCheck) s fun t => t.rd (.pwr c) .PWR_SNAP_VOUT = s.rd (.pwr
    c) .PWR_TELEM_VOUT ∧ t.rd (.pwr c) .PWR_SNAP_IPEAK = s.rd (.pwr c) .PWR_TELEM_IPEAK ∧ t.rd (.pwr c) .PWR_SNAP_CYCLE =
    s.cycleNum % 2 ^ 32 := by
  refine gives_feedCheck hs hen hcyc hdue fun _ => ?_
  refine forBelow_reaches (P := fun _ => True) (Q := fun t => t.rd (.pwr c) .PWR_SNAP_VOUT = s.rd (.pwr c) .PWR_TELEM_VOUT ∧
      t.rd (.pwr c) .PWR_SNAP_IPEAK = s.rd (.pwr c) .PWR_TELEM_IPEAK ∧ t.rd (.pwr c) .PWR_SNAP_CYCLE = s.cycleNum % 2 ^ 32)
    c.isLt (fun _ _ _ _ _ => trivial) (fun t _ _ => ?_) (fun d hd t _ ht => ?_) s trivial
  · have := Upd.keeps_fact
    simp +decide [checkChan, forEach_cons_run]
    exact ⟨rd_mod s (.pwr c) .PWR_TELEM_VOUT 0, rd_mod s (.pwr c) .PWR_TELEM_IPEAK 0, rfl⟩
  · simpa +decide [checkChan_other hd] using ht

theorem feedCheck_standbyLost (c : ChanId) (hen : s.on .pwrg .PWR_CHECK_CFG_EN = true) (hcyc : s.inCycle = true) (hdue :
    s.cycleNum % 2 ^ s.rd .pwrg .PWR_CHECK_CFG_EVERY_LOG2 = 0) (hstate : s.chan c = pcON) (hB : s.on (.pwr c)
    .PWR_FEED_SEL_FEED_B_EN = true) (hother : s.feedOk c (!s.activeB c) = false) : Gives (.feedCheck) s fun t => (t.rd (.pwr
    c) .ERR_STICKY_BITS).testBit Err.PWR_STANDBY_LOST.bit = true := by
  refine gives_feedCheck hs hen hcyc hdue fun _ => ?_
  have hlost : (s.chan c == pcON && s.on (.pwr c) .PWR_FEED_SEL_FEED_B_EN && !s.feedOk c (!s.activeB c)) = true := by
    simp [hstate, hB, hother]
  refine forBelow_reaches (P := fun _ => True) (Q := fun t => t.sticks (.pwr c) Err.PWR_STANDBY_LOST.bit) c.isLt
      (fun _ _ _ _ _ => trivial) (fun t _ _ => ?_)
    (fun d _ t hw ht => checkChan_keepsSticky s d c t hw.out _ ht) s trivial
  simp only [checkChan, hlost, when_true_run, all_cons_run, all_nil_run]
  have := Upd.keeps_fact
  exact chanRaise_sets (by decide)

end

/-- Settles O34: one lemma for each write and its outcome, and two for the feed check. -/
theorem channelsAsCommanded : Obligations.ChannelsAsCommanded := by
  intro s hs
  exact ⟨channelEnable_starts hs, channelEnable_refused hs, channelDisable_warns hs, channelDisable_latched hs,
    channelClear_starts hs, softwareSwitchover_starts hs, softwareSwitchover_refused hs, feedCheck_copies hs,
    feedCheck_standbyLost hs⟩

end Sys2Proof.Machine
end

section
/-! PROOF. Tag slots of the faces: completions, timeouts and quarantine (R286 to R292). -/

namespace Sys2Proof.Machine

set_option Elab.async false

/-- The slot of a name, under the reading of a completion that fits it. -/
theorem find_fits {s : State} {f : Nat} {req : Bool} {tg : Nat} {x : Slot} {p : Slot → Bool} (hx : s.slot? f req tg = some x)
    (hp : p x = true) : (s.slots.find? fun y => y.is f req tg && p y) = some x := by
  obtain ⟨hx, as, bs, hl, has⟩ := List.find?_eq_some_iff_append.1 hx
  refine List.find?_eq_some_iff_append.2 ⟨by simp [hx, hp], as, bs, hl, fun a ha => ?_⟩
  have := has a ha
  simp_all

theorem is_of_slot {s : State} {f : Nat} {req : Bool} {tg : Nat} {x : Slot} (hx : s.slot? f req tg = some x) :
    x.face = f ∧ x.req = req ∧ x.tag = tg := by
  simpa [Slot.is, and_assoc] using List.find?_some hx

/-- What a slot of a name is, for a slot of the same name. -/
theorem is_congr {x : Slot} {f : Nat} {req : Bool} {tg : Nat} (h : x.face = f ∧ x.req = req ∧ x.tag = tg) (y : Slot) :
    y.is x.face x.req x.tag = y.is f req tg := by
  obtain ⟨rfl, rfl, rfl⟩ := h
  rfl

theorem flip_ne_zero (n : Nat) : (1 - min 1 n != 0) = !(n != 0) := by
  cases n <;> simp

@[simp] theorem freeSlot_slots (x : Slot) (flip : Bool) (s : State) :
    ((freeSlot x flip).run s).slots = s.slots.filter fun y => !y.is x.face x.req x.tag := by
  simp [freeSlot]

@[simp] theorem freeSlot_out (x : Slot) (flip : Bool) (s : State) : ((freeSlot x flip).run s).out = s.out := by
  simp [freeSlot]

@[simp] theorem freeSlot_tagEpoch {s : State} [Fact s.wf] {x : Slot} {f : Nat} {req : Bool} {tg : Nat}
    (h : x.face = f ∧ x.req = req ∧ x.tag = tg) (flip : Bool) :
    ((freeSlot x flip).run s).tagEpoch f req tg = (s.tagEpoch f req tg ^^ flip) := by
  have := Upd.keeps_fact
  obtain ⟨rfl, rfl, rfl⟩ := h
  cases flip <;> simp [freeSlot, State.tagEpoch, State.ivOn, flip_ne_zero]

@[simp] theorem onWire_head (p rid addr : Nat) (o : Out) (s : State) : ((onWire p rid addr o).run s).out.head? = some o := rfl

@[simp] theorem onWire_slots (p rid addr : Nat) (o : Out) (s : State) : ((onWire p rid addr o).run s).slots = s.slots := by
  rw [onWire, look_run]
  cases s.ideStream? p rid addr <;> rfl

@[simp] theorem onWire_tagEpoch (p rid addr : Nat) (o : Out) (s : State) [Fact s.wf] (f : Nat) (req : Bool) (tg : Nat) :
    ((onWire p rid addr o).run s).tagEpoch f req tg = s.tagEpoch f req tg := by
  have := Upd.keeps_fact
  rw [onWire, look_run]
  cases s.ideStream? p rid addr <;> simp +decide [State.tagEpoch, State.ivOn, modIv]

/-- A completion of the part leaves a PCI Express port as any TLP does. -/
theorem tlpSend_cplFrame (p : Nat) (pasid : Option Nat) (s : State) (src dest tag : Nat) (ep : Bool) (t : Tlp) :
    tlpSend p pasid (s.cplFrame src dest tag ep t) =
      onWire p t.rid.toNat t.addr.toNat (.tlpOut p pasid (s.cplFrame src dest tag ep t)) := rfl

section
variable {s : State} (hs : s.Awake)
include hs

theorem completion_delivered (f : FaceId) (req link ep : Bool) (tg : BitVec 14) (u : Tlp) (x : Slot) (hx : s.slot? f req
    tg.toNat = some x) (hst : x.st = slBUSY) (hlink : x.onLink = link) (hep : (link || s.tagEpoch f req tg.toNat == ep) =
    true) (hwho : x.who = .host) (hextra : x.extra = 0) (hflush : x.flush = false) (hfinal : u.final = true) : Gives
    (.completionReceived f req link tg ep u) s fun t => (t.slots = s.slots.filter fun y => !y.is f req tg.toNat) ∧ t.out.head?
    = some (Out.tlpOut (s.facePort f) none (s.cplFrame x.dest ((s.faceFeid? f).getD 0) tg.toNat ep
    { u with rid := BitVec.ofNat 16 x.rid, tag := BitVec.ofNat 14 x.otag })) ∧ t.tagEpoch f req tg.toNat = s.tagEpoch f req
    tg.toNat := by
  refine gives_awake hs rfl fun _ _ => ?_
  have hname := is_of_slot hx
  rw [faceCompletes, look_run]
  dsimp only
  simp only [Bool.and_assoc]
  rw [find_fits hx (by cases link <;> simp_all +decide)]
  simp +decide [hst, hfinal, hwho, hextra, hflush, tlpSend_cplFrame, is_congr hname, freeSlot_tagEpoch hname]

theorem completion_late (f : FaceId) (req link ep : Bool) (tg : BitVec 14) (u : Tlp) (x : Slot) (hx : s.slot? f req tg.toNat =
    some x) (hst : x.st = slABANDONED) (hlink : x.onLink = link) (hep : (link || s.tagEpoch f req tg.toNat == ep) = true)
    (hfinal : u.final = true) : Gives (.completionReceived f req link tg ep u) s fun t => (t.slots = s.slots.filter fun y =>
    !y.is f req tg.toNat) ∧ t.tagEpoch f req tg.toNat = !s.tagEpoch f req tg.toNat := by
  refine gives_awake hs rfl fun _ _ => ?_
  have hname := is_of_slot hx
  rw [faceCompletes, look_run]
  dsimp only
  simp only [Bool.and_assoc]
  rw [find_fits hx (by cases link <;> simp_all +decide)]
  simp +decide [hst, hfinal, is_congr hname, freeSlot_tagEpoch hname]
  simp +decide [State.tagEpoch, State.ivOn]

theorem completion_unexpected (f : FaceId) (req link ep : Bool) (tg : BitVec 14) (u : Tlp) (hnone : (s.slots.any fun x => x.is
    f req tg.toNat) = false) : Gives (.completionReceived f req link tg ep u) s fun t => t.slots = s.slots ∧ (t.rd (.face f)
    .ERR_STICKY_BITS).testBit Err.FACE_UNEXP_CPL.bit = true := by
  refine gives_awake hs rfl fun _ _ => ?_
  have hfind (p : Slot → Bool) (hp : ∀ y, p y = true → y.is f req tg.toNat = true) : s.slots.find? p = none :=
    List.find?_eq_none.2 fun y hy hpy => by simpa [hp y hpy] using List.any_eq_false.1 hnone y hy
  rw [faceCompletes, look_run]
  dsimp only
  rw [hfind _ fun y hy => by simp_all]
  simp +decide

theorem cplTimeout_link (f : FaceId) (req : Bool) (tg : BitVec 14) (x : Slot) (hx : s.slot? f req tg.toNat = some x) (hst :
    x.st ≠ slQUARANTINE) (hlink : x.onLink = true) : Gives (.cplTimeout f req tg) s fun t => (t.slots = s.slots.map fun y =>
    if y.is f req tg.toNat then { y with st := slQUARANTINE } else y) ∧ ((t.rd (.face f) .ERR_STICKY_BITS).testBit (if req
    then Err.FACE_CPL_TIMEOUT.bit else Err.FACE_ADMIT_TIMEOUT.bit) = true) ∧ t.cnt (.face f) 5 = min (s.cnt (.face f) 5 + 1)
    cntMax ∧ (req = true → Out.cplTimeout f tg.toNat x.who ∈ t.out) := by
  refine gives_awake hs rfl fun _ _ => ?_
  cases req
  all_goals simp +decide [hx, hst, hlink]

theorem cplTimeout_inside (f : FaceId) (req : Bool) (tg : BitVec 14) (x : Slot) (hx : s.slot? f req tg.toNat = some x) (hst :
    x.st ≠ slQUARANTINE) (hlink : x.onLink = false) : Gives (.cplTimeout f req tg) s fun t => (t.slots = s.slots.filter fun y
    => !y.is f req tg.toNat) ∧ t.tagEpoch f req tg.toNat = !s.tagEpoch f req tg.toNat := by
  refine gives_awake hs rfl fun _ _ => ?_
  have hname := is_of_slot hx
  simp only [look_run, hx, forSome_some_run, bne_iff_ne.2 hst, when_true_run, hlink, all_cons_run, all_nil_run]
  simp +decide [State.tagEpoch, State.ivOn, is_congr hname]
  exact (freeSlot_tagEpoch hname true).trans (Bool.xor_true _)

theorem tagQuarantineEnd_frees (f : FaceId) (tg : BitVec 14) (x : Slot) (hx : s.slot? f true tg.toNat = some x) (hst : x.st =
    slQUARANTINE) : Gives (.tagQuarantineEnd f tg) s fun t => (t.slots = s.slots.filter fun y => !y.is f true tg.toNat) ∧
    t.tagEpoch f true tg.toNat = !s.tagEpoch f true tg.toNat := by
  refine gives_awake hs rfl fun _ _ => ?_
  have hname := is_of_slot hx
  simp only [look_run, hx, forSome_some_run, hst, beq_self_eq_true, when_true_run]
  simp [is_congr hname, freeSlot_tagEpoch hname]

end

/-- Settles O14: one lemma for each event and each state of the slot. -/
theorem tagSlotsComplete : Obligations.TagSlotsComplete := by
  intro s hs
  exact ⟨completion_delivered hs, completion_late hs, completion_unexpected hs, cplTimeout_link hs, cplTimeout_inside hs,
    tagQuarantineEnd_frees hs⟩

end Sys2Proof.Machine
end

section
/-! PROOF. Prefetch ageing (R553) and locked sequences (R556 to R560). -/

namespace Sys2Proof.Machine

set_option Elab.async false

/-! ### Locks -/

theorem lockWaiters_congr {s t : State} {p : Nat} (hb : t.buf = s.buf)
    (hh : t.rd (.bridge 1) .BRIDGE_LOCK_STAT_HOLDER p = s.rd (.bridge 1) .BRIDGE_LOCK_STAT_HOLDER p) :
    t.lockWaiters p = s.lockWaiters p := by
  simp [State.lockWaiters, hb, hh]

section
variable {s : State} {p : Nat}

/-- A lock that nobody waits for ends free. -/
theorem lockEnd_free (hl : s.on (.bridge 1) .BRIDGE_LOCK_STAT_LOCKED p = true) (hw : s.lockWaiters p = []) :
    (lockEnd p).run s = (lockClear p).run s := by
  simp [lockEnd, hl, hw]

/-- A lock that requests wait for goes to the lowest FEID. -/
theorem lockEnd_next (hl : s.on (.bridge 1) .BRIDGE_LOCK_STAT_LOCKED p = true) {n : Nat}
    (hw : ((s.lockWaiters p).map (·.frame.src)).min? = some n) :
    (lockEnd p).run s = (all [wr (.bridge 1) .BRIDGE_LOCK_STAT_HOLDER n p, bump (.bridge 0) 5]).run s := by
  simp only [lockEnd, look_run, hl, when_true_run, hw]

theorem lockEnd_free_reads [Fact s.wf] (hl : s.on (.bridge 1) .BRIDGE_LOCK_STAT_LOCKED p = true) (hw : s.lockWaiters p = []) :
    ((lockEnd p).run s).rd (.bridge 1) .BRIDGE_LOCK_STAT_LOCKED p = 0 ∧
      ((lockEnd p).run s).rd (.bridge 1) .BRIDGE_LOCK_STAT_HOLDER p = 0 := by
  have := Upd.keeps_fact
  rw [lockEnd_free hl hw]
  simp +decide [lockClear]

/-- The end of a lock leaves the locks of the other ports. -/
theorem lockEnd_other [Fact s.wf] {q : Nat} (hq : q < 96) (hp : p < 96) (hne : q ≠ p) {f : Fld}
    (hf : f ∈ [Fld.BRIDGE_LOCK_STAT_LOCKED, .BRIDGE_LOCK_STAT_HOLDER]) : ((lockEnd q).run s).rd (.bridge 1) f p = s.rd (.bridge 1) f p := by
  have := Upd.keeps_fact
  have hentry (g : Fld) (hg : g.stride ≠ 0 ∧ g.count = 96) (v : Nat) (t : State) [h : Fact t.wf] :
      ((wr (.bridge 1) g v q).run t).rd (.bridge 1) g p = t.rd (.bridge 1) g p :=
    rd_wr_entry h.out (by decide) hg.1 (by omega) (by omega) (Ne.symm hne) v
  have hL := hentry .BRIDGE_LOCK_STAT_LOCKED (by decide)
  have hH := hentry .BRIDGE_LOCK_STAT_HOLDER (by decide)
  simp only [List.mem_cons, List.not_mem_nil, or_false] at hf
  simp only [lockEnd, look_run]
  cases ((s.lockWaiters q).map (·.frame.src)).min?
  all_goals
    rcases hf with rfl | rfl
    all_goals simp +decide [lockClear, hL, hH]

theorem lockEnd_buf [Fact s.wf] : ((lockEnd p).run s).buf = s.buf := by
  simp only [lockEnd, look_run]
  cases ((s.lockWaiters p).map (·.frame.src)).min? <;> simp +decide [lockClear]
  have := Upd.keeps_fact
  exact fun _ => buf_addCnt rfl _ _

end

/-- Every lock of a FEID ends, and one that nobody waits for ends free. -/
theorem locksOf_free {s : State} [Fact s.wf] {p n : Nat} (hp : p < 96) (hl : s.on (.bridge 1) .BRIDGE_LOCK_STAT_LOCKED p = true)
    (hh : s.rd (.bridge 1) .BRIDGE_LOCK_STAT_HOLDER p = n) (hw : s.lockWaiters p = []) :
    ((locksOf n).run s).rd (.bridge 1) .BRIDGE_LOCK_STAT_LOCKED p = 0 ∧
      ((locksOf n).run s).rd (.bridge 1) .BRIDGE_LOCK_STAT_HOLDER p = 0 := by
  have hlt {b : Nat} {c : Nat → Bool} (hb : b ∈ allBelow 96 c) : b < 96 := List.mem_range.1 (List.mem_filter.1 hb).1
  refine forEach_reaches (P := fun t => t.on (.bridge 1) .BRIDGE_LOCK_STAT_LOCKED p = true ∧ t.lockWaiters p = [])
    (Q := fun t => t.rd (.bridge 1) .BRIDGE_LOCK_STAT_LOCKED p = 0 ∧ t.rd (.bridge 1) .BRIDGE_LOCK_STAT_HOLDER p = 0)
    (List.nodup_range.filter _) (List.mem_filter.2 ⟨List.mem_range.2 hp, by simp [hl, hh]⟩) (fun b hb hne t _ ht => ?_)
    (fun t _ ht => lockEnd_free_reads ht.1 ht.2) (fun b hb hne t _ ht => ?_) s ⟨hl, hw⟩
  · have hkeep {f : Fld} := lockEnd_other (s := t) (f := f) (hlt hb) hp hne
    rw [State.on, hkeep (by decide), lockWaiters_congr lockEnd_buf (hkeep (by decide))]
    exact ht
  · have hkeep {f : Fld} := lockEnd_other (s := t) (f := f) (hlt hb) hp hne
    rw [hkeep (by decide), hkeep (by decide)]
    exact ht

/-- What a lock timeout does before the lock ends. -/
def lockTimeoutNotes (s : State) (p : Nat) : Upd :=
  all [raise (.bridge 0) .BRIDGE_LOCK_TIMEOUT, bump (.bridge 0) 7,
    forEach (allBelow 32 fun f => s.faceFeid? f == some (s.rd (.bridge 1) .BRIDGE_LOCK_STAT_HOLDER p)) fun f => put .lockDest 0 f]

/-- The notes leave the locks and the frames that wait for them. -/
theorem lockTimeoutNotes_in (s : State) (p : Nat) :
    (lockTimeoutNotes s p).In ((Foot.error .bridge).and ((Foot.counting .bridge).and (Foot.numbers [.lockDest]))) := by
  have h := Foot.and_le.1 (Foot.le_refl ((Foot.error .bridge).and ((Foot.counting .bridge).and (Foot.numbers [.lockDest]))))
  have h' := Foot.and_le.1 h.2
  exact all_cons_in (raiseAll_in (pg := .bridge 0) rfl h.1 _) <| all_cons_in (addCnt_in (pg := .bridge 0) rfl h'.1 _ _) <|
    all_cons_in (forEach_in fun f => put_in (le_vars h'.2 (List.mem_singleton.2 rfl))) all_nil_in

section
variable {s : State} [Fact s.wf] {p : Nat}

theorem lockTimeoutNotes_lock {f : Fld} (hf : f ∈ [Fld.BRIDGE_LOCK_STAT_LOCKED, .BRIDGE_LOCK_STAT_HOLDER]) :
    ((lockTimeoutNotes s p).run s).rd (.bridge 1) f p = s.rd (.bridge 1) f p := by
  simp only [List.mem_cons, List.not_mem_nil, or_false] at hf
  rcases hf with rfl | rfl
  all_goals exact rd_of_in (lockTimeoutNotes_in s p) (by simp +decide) (by decide)

theorem lockTimeoutNotes_waiters : ((lockTimeoutNotes s p).run s).lockWaiters p = s.lockWaiters p :=
  lockWaiters_congr (buf_of_in (lockTimeoutNotes_in s p) (by decide)) (lockTimeoutNotes_lock (by decide))

/-- Only queues of numbers are touched after the count of a timeout and its error. -/
theorem lockTimeoutNotes_cnt (i : Nat) : ((lockTimeoutNotes s p).run s).cnt (.bridge 0) i =
    if i = 7 then min (s.cnt (.bridge 0) 7 + 1) cntMax else s.cnt (.bridge 0) i := by
  have := Upd.keeps_fact
  have hput (l : List Nat) : (forEach l fun f => put .lockDest 0 f).In (Foot.numbers [.lockDest]) :=
    forEach_in fun f => put_in (List.mem_singleton.2 rfl)
  simp only [lockTimeoutNotes, all_cons_run, all_nil_run]
  rw [cnt_of_in (hput _) List.not_mem_nil]
  simp +decide

theorem lockTimeoutNotes_sticks : ((lockTimeoutNotes s p).run s).sticks (.bridge 0) Err.BRIDGE_LOCK_TIMEOUT.bit := by
  have := Upd.keeps_fact
  have hput (l : List Nat) : (forEach l fun f => put .lockDest 0 f).In (Foot.numbers [.lockDest]) :=
    forEach_in fun f => put_in (List.mem_singleton.2 rfl)
  refine keepsSticky_of_in rfl (hput _) List.not_mem_nil _ (Upd.keeps_fact _ _).out _ ?_
  exact addCnt_keepsSticky rfl rfl _ _ _ (Upd.keeps_fact _ _).out _ (raiseOne_sets rfl (by decide) _ _)

end

theorem gives_lockTimeout {s : State} {p : Nat} (hl : s.on (.bridge 1) .BRIDGE_LOCK_STAT_LOCKED p = true) {P : State → Prop} (hs : s.Awake)
    {q : PortId} (hq : q.val = p) (h : Fact s.wf → P ((lockEnd p).run ((lockTimeoutNotes s p).run s))) : Gives (.lockTimeout q) s P := by
  subst hq
  exact gives_awake hs rfl fun hw _ => by
    simp only [look_run, hl, when_true_run]
    exact h hw

section
variable {s : State} (hs : s.Awake)
include hs

theorem prefetchAge_discards (f : FaceId) (k : Fin 32) (e : Pref) (he : (s.prefs.filter fun x => x.face == f.val)[k.val]? =
    some e) : Gives (.prefetchAgeExpiry f k) s fun t => (t.prefs = s.prefs.filter fun x => !(x == e)) := by
  refine gives_awake hs rfl fun _ _ => ?_
  simp only [look_run, he, forSome_some_run]
  simp [prefDiscard]

theorem prefetchAge_counts (f : FaceId) (e : Pref) (hprefs : s.prefs = [e]) (hface : e.face = f.val) (hused : e.used = false)
   : Gives (.prefetchAgeExpiry f 0) s fun t => t.prefs = [] ∧ t.cnt (.bridge 0) 0 = min (s.cnt (.bridge 0) 0 + e.got.length)
    cntMax := by
  refine gives_awake hs rfl fun _ _ => ?_
  have hidx : (s.prefs.filter fun x => x.face == f.val)[(0 : Fin 32).val]? = some e := by simp [hprefs, hface]
  simp only [look_run, hidx, forSome_some_run]
  simp +decide [prefDiscard, hprefs, hused]
  intro hgot
  simp [hgot]

theorem unlockFromFabric_frees (n : Feid) (p : PortId) (hl : s.on (.bridge 1) .BRIDGE_LOCK_STAT_LOCKED p = true) (hh : s.rd
    (.bridge 1) .BRIDGE_LOCK_STAT_HOLDER p = n.toNat) (hw : s.lockWaiters p = []) : Gives (.unlockMessage none n) s fun t =>
    t.on (.bridge 1) .BRIDGE_LOCK_STAT_LOCKED p = false ∧ t.rd (.bridge 1) .BRIDGE_LOCK_STAT_HOLDER p = 0 := by
  refine gives_awake hs rfl fun _ _ => ?_
  rw [State.on, (locksOf_free p.isLt hl hh hw).1, (locksOf_free p.isLt hl hh hw).2]
  exact ⟨rfl, rfl⟩

theorem unlockFromHost_frees (f : FaceId) (n : Feid) (p : PortId) (m : Nat) (hdest : s.iv .lockDest f = 0) (hfeid :
    s.faceFeid? f = some m) (hl : s.on (.bridge 1) .BRIDGE_LOCK_STAT_LOCKED p = true) (hh : s.rd (.bridge 1)
    .BRIDGE_LOCK_STAT_HOLDER p = m) (hw : s.lockWaiters p = []) : Gives (.unlockMessage (some f) n) s fun t => t.on (.bridge
    1) .BRIDGE_LOCK_STAT_LOCKED p = false ∧ t.rd (.bridge 1) .BRIDGE_LOCK_STAT_HOLDER p = 0 ∧ t.iv .lockDest f = 0 := by
  refine gives_awake hs rfl fun _ _ => ?_
  have := Upd.keeps_fact (put .lockDest 0 f) s
  have hfree := locksOf_free (s := (put .lockDest 0 f).run s) p.isLt hl hh hw
  simp only [faceUnlocks, look_run, hdest, bne_self_eq_false, Bool.false_and, when_false_run, all_cons_run, all_nil_run, hfeid,
    forSome_some_run]
  rw [State.on, hfree.1, hfree.2, iv_of_in (locksOf_in (Foot.le_refl _) m) (by decide)]
  simp

theorem lockTimeout_frees (p : PortId) (hl : s.on (.bridge 1) .BRIDGE_LOCK_STAT_LOCKED p = true) (hw : s.lockWaiters p = []) :
    Gives (.lockTimeout p) s fun t => t.on (.bridge 1) .BRIDGE_LOCK_STAT_LOCKED p = false ∧ t.rd (.bridge 1)
    .BRIDGE_LOCK_STAT_HOLDER p = 0 ∧ (t.rd (.bridge 0) .ERR_STICKY_BITS).testBit Err.BRIDGE_LOCK_TIMEOUT.bit = true ∧ t.cnt
    (.bridge 0) 7 = min (s.cnt (.bridge 0) 7 + 1) cntMax := by
  refine gives_lockTimeout hl hs rfl fun _ => ?_
  have := Upd.keeps_fact
  have hon : ((lockTimeoutNotes s p).run s).on (.bridge 1) .BRIDGE_LOCK_STAT_LOCKED p = true := by
    rw [State.on, lockTimeoutNotes_lock (by decide)]
    exact hl
  rw [lockEnd_free hon (lockTimeoutNotes_waiters.trans hw)]
  simp +decide [lockClear, State.on, lockTimeoutNotes_cnt]
  exact lockTimeoutNotes_sticks

theorem lockTimeout_passes (p : PortId) (n : Nat) (hl : s.on (.bridge 1) .BRIDGE_LOCK_STAT_LOCKED p = true) (hw :
    ((s.lockWaiters p).map (·.frame.src)).min? = some n) : Gives (.lockTimeout p) s fun t => t.on (.bridge 1)
    .BRIDGE_LOCK_STAT_LOCKED p = true ∧ t.rd (.bridge 1) .BRIDGE_LOCK_STAT_HOLDER p = n % 8192 ∧ t.cnt (.bridge 0) 5 = min
    (s.cnt (.bridge 0) 5 + 1) cntMax := by
  refine gives_lockTimeout hl hs rfl fun _ => ?_
  have := Upd.keeps_fact
  have hon : ((lockTimeoutNotes s p).run s).on (.bridge 1) .BRIDGE_LOCK_STAT_LOCKED p = true := by
    rw [State.on, lockTimeoutNotes_lock (by decide)]
    exact hl
  rw [lockEnd_next hon (n := n) (by rw [lockTimeoutNotes_waiters, hw])]
  simp +decide [State.on, lockTimeoutNotes_cnt, lockTimeoutNotes_lock]
  exact ⟨by simpa [State.on] using hl, rfl⟩

end

/-- Settles O25: one lemma for each event. -/
theorem bridgingCompletes : Obligations.BridgingCompletes := by
  intro s hs
  exact ⟨prefetchAge_discards hs, prefetchAge_counts hs, unlockFromFabric_frees hs, unlockFromHost_frees hs, lockTimeout_frees
    hs, lockTimeout_passes hs⟩

end Sys2Proof.Machine
end

section
/-! PROOF. Link status and retiring (R403, R428 to R430). -/

namespace Sys2Proof.Machine

set_option Elab.async false

/-- A drained link of port 4 that retires while GUARD holds the link's domain contained. -/
def retiringHeld : State := wit [witFabUp 4, wr (.port 4) .PORT_LINK_STAT_STATE lsRETIRING, wr (.guard 1) .GDS_LINK_STATE gdCONTAINED 4]

/-- Refutes O16: a link that retires while its domain is contained goes to CONTAINED when it is drained, not to DOWN, as
`retiringHeld` shows (R259). -/
theorem not_linkStatusAndRetiringComplete : ¬ Obligations.LinkStatusAndRetiringComplete := by
  intro h
  obtain ⟨-, -, -, -, hdrained, -⟩ := h retiringHeld (wit_awake _ (by decide +kernel))
  have hdown := (hdrained 4 (by decide +kernel) (by decide +kernel) (by decide +kernel) (by decide +kernel)).holds rfl
  exact absurd hdown.1 (by decide +kernel)

end Sys2Proof.Machine
end

section
/-! PROOF. Word mailboxes (R583, R584) and semaphores (R586 to R589). -/

namespace Sys2Proof.Machine

set_option Elab.async false

/-- An error of MBOX is one, whichever domain it names. -/
theorem raiseBy_eq (st : Stamp) (e : Err) : ∃ d, raiseBy st e = raiseAll (.mbox 0) [⟨e, d, 0⟩] := by
  cases st
  case face f => exact ⟨some (.dom (.face f)), rfl⟩
  all_goals exact ⟨none, rfl⟩

section
variable {s : State} (hs : s.Awake)
include hs

theorem wordWrite_fills (st : Stamp) (n : Fin 128) (v : Word) (hl : s.locked (.mbox 2) = false) (hfull : s.on (.mbox 2)
    .MBOX_WORD_STAT_FULL n = false) (hperm : permits (s.rd (.mbox 2) .MBOX_WORD_CFG_WRITER n) st = true) (hp : s.pathOpen st =
    true) : Gives (.wordWrite st n v) s fun t => t.rd (.mbox 2) .MBOX_WORD_DATA n = v.toNat ∧ t.rd (.mbox 2)
    .MBOX_WORD_STAT_FULL n = 1 ∧ t.rd (.mbox 2) .MBOX_WORD_STAT_WRITER n = st.code ∧ t.cnt (.mbox 0) 9 = min (s.cnt (.mbox 0)
    9 + 1) cntMax := by
  refine gives_granted hs rfl hl hp fun _ _ => ?_
  simp only [wordWrite, look_run]
  simp [State.on] at hfull
  simp +decide [hfull, hperm, State.on]
  exact ⟨Nat.mod_eq_of_lt v.isLt, Nat.mod_eq_of_lt ((stamp_code_lt st).trans (by decide))⟩

theorem wordWrite_refused (st : Stamp) (n : Fin 128) (v : Word) (hl : s.locked (.mbox 2) = false) (hfull : s.on (.mbox 2)
    .MBOX_WORD_STAT_FULL n = true) (hp : s.pathOpen st = true) : Gives (.wordWrite st n v) s fun t => t.rd (.mbox 2)
    .MBOX_WORD_DATA n = s.rd (.mbox 2) .MBOX_WORD_DATA n ∧ (t.rd (.mbox 0) .ERR_STICKY_BITS).testBit Err.MBOX_WORD_REJECT.bit
    = true ∧ t.cnt (.mbox 0) 10 = min (s.cnt (.mbox 0) 10 + 1) cntMax := by
  refine gives_granted hs rfl hl hp fun _ _ => ?_
  obtain ⟨d, hd⟩ := raiseBy_eq st .MBOX_WORD_REJECT
  simp [State.on] at hfull
  simp +decide [wordWrite, hfull, State.on, hd]

theorem wordTake_empties (st : Stamp) (n : Fin 128) (hl : s.locked (.mbox 2) = false) (hperm : permits (s.rd (.mbox 2)
    .MBOX_WORD_CFG_READER n) st = true) (hp : s.pathOpen st = true) : Gives (.wordTake st n) s fun t => t.rd (.mbox 2)
    .MBOX_WORD_STAT_FULL n = 0 ∧ t.rd (.mbox 2) .MBOX_WORD_DATA n = s.rd (.mbox 2) .MBOX_WORD_DATA n := by
  refine gives_granted hs rfl hl hp fun _ _ => ?_
  simp +decide [wordTake, hperm]

theorem semAcquire_takes (st : Stamp) (n : Fin 256) (hheld : s.semHeld n = false) (hp : s.pathOpen st = true) : Gives
    (.semAcquire st n) s fun t => t.semHeld n = true ∧ t.semOwner n = st.code ∧ t.out.head? = some (Out.value st (0x40000000 +
    st.code)) := by
  refine gives_awake hs rfl fun _ _ => ?_
  rw [granting_run hp]
  simp [State.semHeld, State.on] at hheld
  simp +decide [semAcquire, hheld, State.semHeld, State.semOwner, State.on]
  exact Nat.mod_eq_of_lt ((stamp_code_lt st).trans_le (by decide))

theorem semAcquire_shows (st : Stamp) (n : Fin 256) (hheld : s.semHeld n = true) (hp : s.pathOpen st = true) : Gives
    (.semAcquire st n) s fun t => t.semHeld n = true ∧ t.semOwner n = s.semOwner n ∧ t.out.head? = some (Out.value st
    (0x80000000 + s.semOwner n)) := by
  refine gives_awake hs rfl fun _ _ => ?_
  rw [granting_run hp]
  simp [State.semHeld, State.on] at hheld
  simp +decide [semAcquire, hheld, State.semHeld, State.semOwner, State.on]

theorem semRelease_frees (st : Stamp) (n : Fin 256) (hl : s.locked (.mbox 3) = false) (hheld : s.semHeld n = true) (howner :
    s.semOwner n = st.code) (hp : s.pathOpen st = true) : Gives (.semRelease st n) s fun t => t.semHeld n = false ∧ t.semOwner
    n = 0 := by
  refine gives_granted hs rfl hl hp fun _ _ => ?_
  simp [State.semHeld, State.semOwner, State.on] at hheld howner
  simp +decide [semRelease, semFree, hheld, howner, State.semHeld, State.semOwner, State.on]

theorem semRelease_foreign (st : Stamp) (n : Fin 256) (hl : s.locked (.mbox 3) = false) (hheld : s.semHeld n = true) (howner :
    s.semOwner n ≠ st.code) (hp : s.pathOpen st = true) : Gives (.semRelease st n) s fun t => t.semHeld n = true ∧ t.semOwner
    n = s.semOwner n ∧ (t.rd (.mbox 0) .ERR_STICKY_BITS).testBit Err.MBOX_SEM_FOREIGN.bit = true := by
  refine gives_granted hs rfl hl hp fun _ _ => ?_
  obtain ⟨d, hd⟩ := raiseBy_eq st .MBOX_SEM_FOREIGN
  simp [State.semHeld, State.semOwner, State.on] at hheld howner
  simp +decide [semRelease, semFree, hheld, howner, State.semHeld, State.semOwner, State.on, hd]

theorem semForce_frees (st : Stamp) (n : Fin 256) (hl : s.locked (.mbox 3) = false) (hfw : isFw st = true) (hheld : s.semHeld
    n = true) (hp : s.pathOpen st = true) : Gives (.semForce st n) s fun t => t.semHeld n = false ∧ t.semOwner n = 0 ∧ t.cnt
    (.mbox 0) 13 = min (s.cnt (.mbox 0) 13 + 1) cntMax := by
  refine gives_granted hs rfl hl hp fun _ _ => ?_
  simp [State.semHeld, State.on] at hheld
  simp +decide [semForce, semForced, semFree, hfw, hheld, State.semHeld, State.semOwner, State.on]

end

/-- Settles O27: one lemma for each access. -/
theorem wordsAndSemaphoresComplete : Obligations.WordsAndSemaphoresComplete := by
  intro s hs
  exact ⟨wordWrite_fills hs, wordWrite_refused hs, wordTake_empties hs, semAcquire_takes hs, semAcquire_shows hs,
    semRelease_frees hs, semRelease_foreign hs, semForce_frees hs⟩

end Sys2Proof.Machine
end

section
/-! PROOF. Streams and proofs: releases, resends, dead streams and the loss of a path (R420 to R427). -/

namespace Sys2Proof.Machine

set_option Elab.async false

/-! ### Streams, read after a write -/

section
variable {s : State}

@[simp] theorem tx_putTx [h : Fact s.wf] (k : Nat) (x : TxStream) (j : Nat) : ((putTx k x).run s).tx j = if j = k then x else s.tx j := by
  have hw : Map.wf s.txs := h.out.2.2.2.2.2.2.2.2.1
  split
  · next he => exact he ▸ Map.get_set_self hw ..
  · next he => exact Map.get_set_ne hw _ _ _ he

theorem find_put_self {α : Type} (m : Map α) (k : Nat) (v : α) : ((m.put k v).find? fun e => e.1 == k) = some (k, v) := by
  induction m with
  | nil => simp [Map.put]
  | cons e r ih =>
    obtain ⟨k', v'⟩ := e
    unfold Map.put
    split
    · simp
    · next hne =>
      split
      · simp
      · simpa [List.find?_cons, hne] using ih

theorem find_del_self {α : Type} {m : Map α} (hw : m.wf) (k : Nat) : ((m.del k).find? fun e => e.1 == k) = none := by
  induction m with
  | nil => rfl
  | cons e r ih =>
    obtain ⟨k', v'⟩ := e
    obtain ⟨hlt, hr⟩ := List.pairwise_cons.1 hw
    unfold Map.del
    split
    · next he =>
      refine List.find?_eq_none.2 fun x hx hxk => ?_
      have := hlt x hx
      simp_all
    · next hne =>
      split
      · next hk =>
        refine List.find?_eq_none.2 fun x hx hxk => ?_
        have hxk : x.1 = k := by simpa using hxk
        rcases List.mem_cons.1 hx with rfl | hx
        · exact hne hxk
        · have := hlt x hx
          simp only at this
          omega
      · simpa [List.find?_cons, hne] using ih hr

@[simp] theorem rx_putRx (k : Nat) (x : RxStream) : ((putRx k x).run s).rx? k = some x := by
  rw [State.rx?, putRx_rxs, find_put_self]
  rfl

@[simp] theorem rx_delRx [h : Fact s.wf] (k : Nat) : ((delRx k).run s).rx? k = none := by
  rw [State.rx?, delRx_rxs, find_del_self h.out.2.2.2.2.2.2.2.2.2.1]
  rfl

theorem tx_of_in [h : Fact s.wf] {F : Foot} {u : Upd} (hu : u.In F) (hn : .streams ∉ F.parts) (k : Nat) : (u.run s).tx k = s.tx k := by
  rw [State.tx, ((hu s h.out).streams hn).1, ← State.tx]

theorem rx_of_in [h : Fact s.wf] {F : Foot} {u : Upd} (hu : u.In F) (hn : .streams ∉ F.parts) (k : Nat) : (u.run s).rx? k = s.rx? k := by
  rw [State.rx?, ((hu s h.out).streams hn).2, ← State.rx?]

end

/-! ### Admission only adds proofs -/

/-- A stream that has at most taken more proofs. -/
structure TxStream.Extends (x y : TxStream) : Prop where
  resends : y.resends = x.resends
  resending : y.resending = x.resending
  dead : y.dead = x.dead
  proofs : x.proofs <+: y.proofs

/-- The receiving sides are as they were, and no stream has done more than take proofs. -/
def Admits (s t : State) : Prop := t.rxs = s.rxs ∧ ∀ k, (s.tx k).Extends (t.tx k)

theorem admits_chains : Chains Admits where
  refl _ := ⟨rfl, fun _ => ⟨rfl, rfl, rfl, List.prefix_rfl⟩⟩
  trans h h' := ⟨h'.1.trans h.1, fun k => ⟨(h'.2 k).resends.trans (h.2 k).resends, (h'.2 k).resending.trans (h.2 k).resending,
    (h'.2 k).dead.trans (h.2 k).dead, (h.2 k).proofs.trans (h'.2 k).proofs⟩⟩

theorem admits_of_in {F : Foot} {u : Upd} (hu : u.In F) (hn : .streams ∉ F.parts) : u.Moves Admits := by
  intro s hw
  have := Fact.mk hw
  refine ⟨((hu s hw).streams hn).2, fun k => ?_⟩
  rw [tx_of_in hu hn]
  exact (admits_chains.refl s).2 k

theorem bump_admits {pg : Pg} (hc : pg.common = true) (i : Nat) : (bump pg i).Moves Admits :=
  admits_of_in (addCnt_in hc (Foot.le_refl _) i 1) (by generalize Fam.of pg = k; cases k <;> decide)

theorem raiseAll_admits {pg : Pg} (hc : pg.common = true) (rs : List Raised) : (raiseAll pg rs).Moves Admits :=
  admits_of_in (raiseAll_in hc (Foot.le_refl _) rs) (by generalize Fam.of pg = k; cases k <;> decide)

theorem modWaiting_admits (f : List Waiting → List Waiting) : (modWaiting f).Moves Admits := fun s _ => admits_chains.refl s

theorem put_admits (x : Var) (v i : Nat) : (put x v i).Moves Admits := fun s _ => admits_chains.refl s

theorem putTx_admits {s : State} (hw : s.wf) {k : Nat} {x : TxStream} (hx : (s.tx k).Extends x) : Admits s ((putTx k x).run s) := by
  have := Fact.mk hw
  refine ⟨rfl, fun j => ?_⟩
  rw [tx_putTx]
  split
  · next he => exact he ▸ hx
  · exact (admits_chains.refl s).2 j

theorem takeProof_admits (k : Pkt) {cont : Pkt → Upd} (h : ∀ k, (cont k).Moves Admits) : (takeProof k cont).Moves Admits := by
  have hwatch : proofWatch.Moves Admits := admits_of_in (proofWatch_in (Foot.le_refl _)) (by decide)
  intro s hw
  rw [takeProof, look_run]
  dsimp only
  rw [all_cons_run]
  refine admits_chains.trans ?_ (all_cons_moves admits_chains (bump_admits rfl 0) (all_cons_moves admits_chains hwatch
    (all_cons_moves admits_chains (h _) (all_nil_moves admits_chains))) _ (Upd.keeps_wf _ hw))
  exact putTx_admits hw ⟨rfl, rfl, rfl, List.prefix_append ..⟩

theorem admitFrame_admits (k : Pkt) : (admitFrame k).Moves Admits := by
  have henqueue (j : Pkt) : (enqueue j).Moves Admits := admits_of_in (enqueue_in (Foot.le_refl _) j) (by decide)
  have hlossy (j : Pkt) (l m : List Copy) : (admitLossy j l m).Moves Admits :=
    admits_of_in (admitLossy_in (Foot.le_refl _) j l m) (by decide)
  have hdropped (j : Pkt) (q : Nat) : (lossyDropped j q).Moves Admits := admits_of_in (lossyDropped_in (Foot.le_refl _) j q) (by decide)
  have hloss (n : Nat) : (unretainedLoss n).Moves Admits := admits_of_in (unretainedLoss_in (Foot.le_refl _) n) (by decide)
  have hskip := skip_moves admits_chains
  refine look_moves fun s => ?_
  dsimp only
  refine all_cons_moves admits_chains (when_moves admits_chains (bump_admits rfl _)) <|
    all_cons_moves admits_chains (forEach_moves admits_chains fun c => ?_) <|
    all_cons_moves admits_chains (ite_moves ?_ (ite_moves (hlossy _ _ _) (ite_moves (takeProof_admits _ henqueue) (henqueue _)))) <|
    all_nil_moves admits_chains
  · split
    · exact hdropped _ _
    · exact hskip
  · exact all_cons_moves admits_chains (when_moves admits_chains (bump_admits rfl _)) <|
      all_cons_moves admits_chains (when_moves admits_chains (hloss 1)) (all_nil_moves admits_chains)

theorem tryAdmit_admits (k : Pkt) : (tryAdmit k).Moves Admits := by
  refine look_moves fun s => ?_
  split
  · exact modWaiting_admits _
  · split
    · exact all_cons_moves admits_chains (modWaiting_admits _) <|
        all_cons_moves admits_chains (when_moves admits_chains (raiseAll_admits rfl _)) (all_nil_moves admits_chains)
    · exact admitFrame_admits k

theorem miss_admits (m : Miss) : (miss m).Moves Admits := admits_of_in (miss_in (Foot.le_refl _) m) (by decide)

theorem sampleAt_admits (port point : Nat) (k : Pkt) (size : Nat) : (sampleAt port point k size).Moves Admits := by
  have hsample (m : Nat) : (sample m port point k size).Moves Admits := by
    refine look_moves fun s => ?_
    dsimp only
    refine all_cons_moves admits_chains (put_admits _ _ _) (all_cons_moves admits_chains ?_ (all_nil_moves admits_chains))
    split
    · exact miss_admits _
    · exact all_cons_moves admits_chains (put_admits _ _ _) <| all_cons_moves admits_chains (bump_admits rfl _) <|
        all_cons_moves admits_chains (ite_moves (tryAdmit_admits _) (modWaiting_admits _)) (all_nil_moves admits_chains)
  have hdraw : draw.Moves Admits := fun s _ => admits_chains.refl s
  refine forEach_moves admits_chains fun m => look_moves fun s => when_moves admits_chains (ite_moves ?_ (ite_moves (put_admits _ _ _) ?_))
  · exact look_moves fun t => all_cons_moves admits_chains hdraw <|
      all_cons_moves admits_chains (when_moves admits_chains (hsample m)) (all_nil_moves admits_chains)
  · exact all_cons_moves admits_chains (put_admits _ _ _) (all_cons_moves admits_chains (hsample m) (all_nil_moves admits_chains))

theorem step4_admits (k : Pkt) : (step4 k).Moves Admits := by
  refine look_moves fun s => all_cons_moves admits_chains ?_ (all_cons_moves admits_chains (tryAdmit_admits k) (all_nil_moves admits_chains))
  split
  · exact sampleAt_admits _ _ _ _
  · exact skip_moves admits_chains

theorem police_admits (k : Pkt) : (police k).Moves Admits := by
  have hcharge (n b c : Nat) (l : Bool) {u : Nat → Upd} (h : ∀ c, (u c).Moves Admits) : (charge n b c l u).Moves Admits := by
    refine look_moves fun s => ite_moves (h c) ?_
    exact all_cons_moves admits_chains (put_admits _ _ _) <| all_cons_moves admits_chains (put_admits _ _ _) <|
      all_cons_moves admits_chains (put_admits _ _ _) <|
      all_cons_moves admits_chains (admits_of_in (addCnt_in (pg := .schedg) rfl (Foot.le_refl _) _ _) (by decide)) <|
      all_cons_moves admits_chains (h _) (all_nil_moves admits_chains)
  refine look_moves fun s => ?_
  split
  · exact step4_admits k
  · exact ite_moves (step4_admits k) <| ite_moves (modWaiting_admits _) <|
      hcharge _ _ _ _ fun c => ite_moves (skip_moves admits_chains) (step4_admits _)

theorem offer_admits (ing : Ing) (f : Frame) (l : List Dst) (vi : Option Nat) (tailIn : Bool) : (offer ing f l vi tailIn).Moves Admits :=
  look_moves fun _ => all_cons_moves admits_chains (put_admits _ _ _) (all_cons_moves admits_chains (police_admits _) (all_nil_moves admits_chains))

theorem sendInner_admits (ing : Ing) (f : Frame) (vi : Option Nat) : (sendInner ing f vi).Moves Admits := by
  refine look_moves fun s => ?_
  split
  · exact all_cons_moves admits_chains (bump_admits rfl _) (all_cons_moves admits_chains (miss_admits _) (all_nil_moves admits_chains))
  · exact all_cons_moves admits_chains (bump_admits rfl _) <|
      all_cons_moves admits_chains (offer_admits _ _ _ _ _) (all_nil_moves admits_chains)

/-! ### Answers to requesters -/

theorem faceCompletes_admits (f : Nat) (req link : Bool) (tag : Nat) (ep : Bool) (t : Tlp) :
    (faceCompletes f req link tag ep t).Moves Admits := by
  have hfree (x : Slot) (b : Bool) : (freeSlot x b).Moves Admits := admits_of_in (freeSlot_in (Foot.le_refl _) x b) (by decide)
  have hwire (p : Nat) (o : Option Nat) (g : Frame) : (tlpSend p o g).Moves Admits := admits_of_in (tlpSend_in (Foot.le_refl _) p o g) (by decide)
  have hemit (o : Out) : (emit o).Moves Admits := fun s _ => admits_chains.refl s
  have hskip := skip_moves admits_chains
  refine look_moves fun s => ?_
  dsimp only
  split
  · exact raiseAll_admits rfl _
  · next x _ =>
    refine ite_moves ?_ ?_
    · exact all_cons_moves admits_chains (bump_admits rfl _) <|
        all_cons_moves admits_chains (when_moves admits_chains (hfree x true)) (all_nil_moves admits_chains)
    · refine all_cons_moves admits_chains ?_ (all_cons_moves admits_chains (when_moves admits_chains (hfree x false)) (all_nil_moves admits_chains))
      split
      · refine all_cons_moves admits_chains (ite_moves (hwire _ _ _) ?_) <|
          all_cons_moves admits_chains (when_moves admits_chains (put_admits _ _ _)) (all_nil_moves admits_chains)
        exact admits_of_in (splitPrefetch_in (F := Foot.splitPrefetch.and Foot.tlpSend) (Foot.and_le.1 (Foot.le_refl _)).1 _ _ _ fun u =>
          tlpSend_in (Foot.and_le.1 (Foot.le_refl _)).2 _ _ _) (by decide)
      · unfold faceCompletes.offerBack
        dsimp only
        split
        · exact miss_admits _
        · exact offer_admits _ _ _ _ _
      · exact hemit _
      · exact hemit _

theorem answerNp_admits (f : Frame) (stat : CplStat) : (answerNp f stat).Moves Admits := by
  have hcpl (p rid tag : Nat) : (selfCpl p stat rid tag).Moves Admits := admits_of_in (selfCpl_in (Foot.le_refl _) p stat rid tag) (by decide)
  refine look_moves fun s => ?_
  dsimp only
  split
  · exact skip_moves admits_chains
  · exact ite_moves (sendInner_admits _ _ _) <| ite_moves (hcpl _ _ _) <|
      ite_moves (forSome_moves admits_chains fun _ => faceCompletes_admits _ _ _ _ _ _) <|
      forSome_moves admits_chains fun _ => faceCompletes_admits _ _ _ _ _ _

theorem answerStream_admits (k : Nat) : (answerStream k).Moves Admits := by
  have hanswer (f : Frame) : (answerUnreachable f).Moves Admits :=
    look_moves fun s => ite_moves (all_cons_moves admits_chains (bump_admits rfl _) <|
      all_cons_moves admits_chains (answerNp_admits _ _) (all_nil_moves admits_chains)) <|
      ite_moves (skip_moves admits_chains) (bump_admits rfl _)
  exact look_moves fun s => all_cons_moves admits_chains (modWaiting_admits _) <|
    all_cons_moves admits_chains (forEach_moves admits_chains fun w => hanswer _) (all_nil_moves admits_chains)

theorem sendRelease_admits (k seq : Nat) (gap adopt : Bool) (epoch : Nat) : (sendRelease k seq gap adopt epoch).Moves Admits :=
  look_moves fun _ => forSome_moves admits_chains fun _ => sendInner_admits _ _ _

theorem sendPathLoss_admits (p : Nat) : (sendPathLoss p).Moves Admits :=
  look_moves fun _ => forEach_moves admits_chains fun _ => all_cons_moves admits_chains (sendInner_admits _ _ _) <|
    all_cons_moves admits_chains (bump_admits rfl _) (all_nil_moves admits_chains)

theorem rx_of_admits {s t : State} (h : Admits s t) {k : Nat} : t.rx? k = s.rx? k := by
  rw [State.rx?, h.1, ← State.rx?]

/-! ### Resends -/

/-- A stream that a resend event starts again: it has proofs, does not resend already, is not dead, and its limit is not reached. -/
structure State.Resends (s : State) (k n : Nat) : Prop where
  proofs : (s.tx k).proofs ≠ []
  resending : (s.tx k).resending = none
  dead : (s.tx k).dead = false
  count : (s.tx k).resends = n
  limit : n < max 1 (s.rd (.bridge 4) .BRIDGE_FAB_CFG_RESEND_LIMIT)

theorem Resends_of_extends {s t : State} {k n : Nat} (hs : s.Resends k n) (hx : (s.tx k).Extends (t.tx k))
    (hl : t.rd (.bridge 4) .BRIDGE_FAB_CFG_RESEND_LIMIT = s.rd (.bridge 4) .BRIDGE_FAB_CFG_RESEND_LIMIT) : t.Resends k n where
  proofs h := hs.proofs (List.prefix_nil.1 (h ▸ hx.proofs))
  resending := hx.resending.trans hs.resending
  dead := hx.dead.trans hs.dead
  count := hx.resends.trans hs.count
  limit := by
    rw [hl]
    exact hs.limit

section
variable {s : State} [h : Fact s.wf] {k : Nat}

omit h in
/-- A resend event starts the stream again (R424). -/
theorem resend_starts {n : Nat} (hk : s.Resends k n) : (resend k).run s =
    (all [putTx k { s.tx k with resends := n + 1, resending := (s.tx k).proofs.getLast?.map (·.seq) }, bump (.bridge 4) 3,
      resendRun (s.tx k).proofs]).run s := by
  have hlim := hk.limit
  rw [← hk.count] at hlim ⊢
  have hcan : (!(s.tx k).proofs.isEmpty && (s.tx k).resending.isNone && !(s.tx k).dead) = true := by
    simp [hk.proofs, hk.resending, hk.dead]
  simp only [resend, look_run, hcan, when_true_run, if_neg (Nat.not_le.2 hlim)]

theorem resendRun_tx (l : List Proof) (j : Nat) : ((resendRun l).run s).tx j = s.tx j :=
  tx_of_in (resendRun_in (Foot.le_refl _) l) (by decide) j

@[simp] theorem tx_addCnt {pg : Pg} (hc : pg.common = true) (i n j : Nat) : ((addCnt pg i n).run s).tx j = s.tx j :=
  tx_of_in (addCnt_in hc (Foot.le_refl _) i n) (by generalize Fam.of pg = k; cases k <;> decide) j

theorem startTx_tx (x : TxStream) (l : List Proof) :
    ((all [putTx k x, bump (.bridge 4) 3, resendRun l]).run s).tx k = x := by
  have := Upd.keeps_fact
  simp only [all_cons_run, all_nil_run]
  rw [resendRun_tx, bump_eq, tx_addCnt rfl, tx_putTx, if_pos rfl]

theorem resend_tx {n : Nat} (hk : s.Resends k n) : ((resend k).run s).tx k =
    { s.tx k with resends := n + 1, resending := (s.tx k).proofs.getLast?.map (·.seq) } := by
  rw [resend_starts hk, startTx_tx]

/-- Streams but `b` do no more than take proofs. -/
def AdmitsBut (b : Nat) (s t : State) : Prop := ∀ k, k ≠ b → (s.tx k).Extends (t.tx k)

theorem admitsBut_chains (b : Nat) : Chains (AdmitsBut b) where
  refl s k _ := (admits_chains.refl s).2 k
  trans h h' k hk := ⟨(h' k hk).resends.trans (h k hk).resends, (h' k hk).resending.trans (h k hk).resending,
    (h' k hk).dead.trans (h k hk).dead, (h k hk).proofs.trans (h' k hk).proofs⟩

/-- A resend event of one stream adds at most proofs to the others. -/
theorem resend_admitsBut (b : Nat) : (resend b).Moves (AdmitsBut b) := by
  have hof {u : Upd} (hu : u.Moves Admits) : u.Moves (AdmitsBut b) := fun s hw k _ => (hu s hw).2 k
  have hput (x : TxStream) : (putTx b x).Moves (AdmitsBut b) := fun s hw k hk => by
    have := Fact.mk hw
    rw [tx_putTx, if_neg hk]
    exact (admits_chains.refl s).2 k
  have hC := admitsBut_chains b
  have hrun (l : List Proof) : (resendRun l).Moves Admits := admits_of_in (resendRun_in (Foot.le_refl _) l) (by decide)
  refine look_moves fun s => when_moves hC (ite_moves ?_ ?_)
  · exact look_moves fun s => all_cons_moves hC (hput _) <|
      all_cons_moves hC (hof (admits_of_in (proofWatch_in (Foot.le_refl _)) (by decide))) <|
      all_cons_moves hC (hof (bump_admits rfl _)) <| all_cons_moves hC (hof (answerStream_admits b)) <|
      all_cons_moves hC (hof (raiseAll_admits rfl _)) (all_nil_moves hC)
  · exact all_cons_moves hC (hput _) <| all_cons_moves hC (hof (bump_admits rfl _)) <|
      all_cons_moves hC (hof (hrun _)) (all_nil_moves hC)

theorem resend_other {b : Nat} (hne : b ≠ k) : (s.tx k).Extends (((resend b).run s).tx k) :=
  resend_admitsBut b s h.out k (Ne.symm hne)

/-- Each stream that can is resent once. -/
theorem resendAll_resends {n : Nat} (hk : s.Resends k n) : ((resendAll.run s).tx k).resends = n + 1 := by
  have hkey : k ∈ s.txs.map (·.1) := by
    by_contra hno
    have hempty : s.tx k = .empty := get_of_not_mem _ fun e he hek => hno (List.mem_map.2 ⟨e, he, hek⟩)
    exact hk.proofs (by rw [hempty]; rfl)
  have hnodup : (s.txs.map (·.1)).Nodup := by
    have hw : Map.wf s.txs := h.out.2.2.2.2.2.2.2.2.1
    exact (List.pairwise_map.2 hw).imp fun hlt => Nat.ne_of_lt hlt
  refine forEach_reaches (P := fun t => t.Resends k n) (Q := fun t => (t.tx k).resends = n + 1) hnodup hkey
    (fun b _ hb t _ ht => ?_) (fun t _ ht => ?_) (fun b _ hb t _ ht => ?_) s hk
  · exact Resends_of_extends ht (resend_other hb) (rd_of_in (resend_in (Foot.le_refl _) b) (by simp +decide) (by decide))
  · rw [resend_tx ht]
  · rw [(resend_other hb).resends, ht]

end

/-- A miss counts on ROUTE only, beside the error log and the faces. -/
theorem resendRun_keepsCnt (l : List Proof) : (resendRun l).KeepsCnt (.bridge 4) 3 := by
  have hi : ¬(Fam.of (.bridge 4) = .face ∧ 3 = 3) := by decide
  refine forEach_keepsCnt fun p => look_keepsCnt fun s => ?_
  dsimp only
  split
  · exact keepsCnt_of_in (miss_in (Foot.le_refl _) _) (by decide)
  · refine all_keepsCnt ?_
    simp only [List.forall_mem_cons, List.not_mem_nil, false_imp_iff, implies_true, and_true]
    exact ⟨keepsCnt_of_same fun _ => rfl, addCnt_keepsCnt hi (by decide) _, keepsCnt_of_same fun _ => rfl⟩

/-- A dead stream stays dead while its frames are answered. -/
theorem streamDead_dead {s : State} [h : Fact s.wf] (k : Nat) : (((streamDead k).run s).tx k).dead = true := by
  have hrest : (all [proofWatch, bump (.bridge 4) 4, answerStream k,
      raiseIn (.bridge 4) .FAB_STREAM_DEAD (.link (0x100 + k / 8))]).Moves Admits :=
    all_cons_moves admits_chains (admits_of_in (proofWatch_in (Foot.le_refl _)) (by decide)) <|
    all_cons_moves admits_chains (bump_admits rfl _) <| all_cons_moves admits_chains (answerStream_admits k) <|
    all_cons_moves admits_chains (raiseAll_admits rfl _) (all_nil_moves admits_chains)
  rw [streamDead, look_run, all_cons_run]
  rw [((hrest _ (Upd.keeps_wf _ h.out)).2 k).dead, tx_putTx, if_pos rfl]

theorem streamDead_sticks {s : State} [h : Fact s.wf] (k : Nat) :
    (((streamDead k).run s).rd (.bridge 4) .ERR_STICKY_BITS).testBit Err.FAB_STREAM_DEAD.bit = true := by
  have := Upd.keeps_fact
  simp only [streamDead, look_run, all_cons_run, all_nil_run, raiseIn_eq]
  exact raiseAll_sets rfl ⟨_, List.mem_singleton.2 rfl, rfl⟩ (by decide)

theorem filter_of_all {α : Type} {l : List α} {p : α → Bool} (h : l.all p = true) :
    l.filter p = l ∧ l.filter (fun a => !p a) = [] :=
  ⟨List.filter_eq_self.2 (List.all_eq_true.1 h), List.filter_eq_nil_iff.2 fun a ha => by simp [List.all_eq_true.1 h a ha]⟩

section
variable {s : State} (hs : s.Awake)
include hs

theorem release_frees (w : SwId) (e : RelEntry) (hgap : e.gap = false) (hepoch : e.epoch = (s.tx (streamOf w e.cls)).epoch)
    (hne : (s.tx (streamOf w e.cls)).proofs ≠ []) (hseq : e.seq = seqBefore (s.tx (streamOf w e.cls)).nextSeq) (hall : (s.tx
    (streamOf w e.cls)).proofs.all (fun q => (q.seq + 2 ^ 32 - seqBefore (((s.tx (streamOf w e.cls)).proofs.head?.map
    (·.seq)).getD 0)) % 2 ^ 32 ≤ (e.seq + 2 ^ 32 - seqBefore (((s.tx (streamOf w e.cls)).proofs.head?.map (·.seq)).getD 0)) %
    2 ^ 32) = true) : Gives (.proofReleaseReceived w [e]) s fun t => (t.tx (streamOf w e.cls)).proofs = [] ∧ (t.tx (streamOf w
    e.cls)).resends = 0 ∧ t.cnt (.bridge 4) 1 = min (s.cnt (.bridge 4) 1 + (s.tx (streamOf w e.cls)).proofs.length) cntMax :=
    by
  refine gives_awake hs rfl fun _ _ => ?_
  have := Upd.keeps_fact
  generalize hk : streamOf w e.cls = k at *
  have hold : (((s.tx k).proofs.head?).map (·.seq)).getD (s.tx k).nextSeq = (((s.tx k).proofs.head?).map (·.seq)).getD 0 := by
    obtain ⟨q, l, hq⟩ := List.exists_cons_of_ne_nil hne
    simp [hq]
  rw [hseq] at hall
  obtain ⟨hfreed, hkept⟩ := filter_of_all hall
  have hlen : ((s.tx k).proofs.length == 0) = false := by simp [hne]
  have hwatch := proofWatch_in (Foot.le_refl _)
  simp only [forEach_cons_run, forEach_nil_run, releaseEntry, look_run, hk, hold, hepoch, hgap, hseq, hkept, hfreed, hlen,
    bne_self_eq_false, Bool.false_eq_true, if_false, lt_irrefl, all_cons_run, all_nil_run, when_false_run]
  rw [tx_of_in hwatch (by decide), cnt_of_in hwatch (by decide)]
  simp +decide

theorem proofTimeout_resends (w : SwId) (c : ClassId) (hne : (s.tx (streamOf w c)).proofs ≠ []) (hres : (s.tx (streamOf w
    c)).resending = none) (hdead : (s.tx (streamOf w c)).dead = false) (hlim : (s.tx (streamOf w c)).resends < max 1 (s.rd
    (.bridge 4) .BRIDGE_FAB_CFG_RESEND_LIMIT)) : Gives (.proofTimeout w c) s fun t => (t.tx (streamOf w c)).resends = (s.tx
    (streamOf w c)).resends + 1 ∧ (t.tx (streamOf w c)).resending = (s.tx (streamOf w c)).proofs.getLast?.map (·.seq) ∧ (t.tx
    (streamOf w c)).proofs = (s.tx (streamOf w c)).proofs ∧ t.cnt (.bridge 4) 3 = min (s.cnt (.bridge 4) 3 + 1) cntMax := by
  refine gives_awake hs rfl fun _ _ => ?_
  have hk : s.Resends (streamOf w c) _ := ⟨hne, hres, hdead, rfl, hlim⟩
  have hrun := resendRun_keepsCnt (s.tx (streamOf w c)).proofs
  refine ⟨by rw [resend_tx hk], by rw [resend_tx hk], by rw [resend_tx hk], ?_⟩
  rw [resend_starts hk, all_cons_run, all_cons_run, all_cons_run, all_nil_run, hrun _ (Upd.keeps_fact _ _).out]
  have := Upd.keeps_fact
  simp +decide

theorem proofTimeout_dies (w : SwId) (c : ClassId) (hne : (s.tx (streamOf w c)).proofs ≠ []) (hres : (s.tx (streamOf w
    c)).resending = none) (hdead : (s.tx (streamOf w c)).dead = false) (hlim : max 1 (s.rd (.bridge 4)
    .BRIDGE_FAB_CFG_RESEND_LIMIT) ≤ (s.tx (streamOf w c)).resends) : Gives (.proofTimeout w c) s fun t => (t.tx (streamOf w
    c)).dead = true ∧ (t.rd (.bridge 4) .ERR_STICKY_BITS).testBit Err.FAB_STREAM_DEAD.bit = true := by
  refine gives_awake hs rfl fun _ _ => ?_
  have hcan : (!(s.tx (streamOf w c)).proofs.isEmpty && (s.tx (streamOf w c)).resending.isNone && !(s.tx (streamOf w c)).dead) = true := by
    simp [hne, hres, hdead]
  simp only [resend, look_run, hcan, when_true_run, if_pos hlim]
  exact ⟨streamDead_dead _, streamDead_sticks _⟩

theorem resendComplete_ends (w : SwId) (c : ClassId) (hleft : (s.buf.any fun k => k.ing == .fabric && k.frame.retain &&
    k.frame.stream == streamOf w c) = false) (hvalid : (s.tx (streamOf w c)).proofs.all (·.valid) = true) : Gives
    (.resendComplete w c) s fun t => (t.tx (streamOf w c)).resending = none ∧ (t.tx (streamOf w c)).proofs = (s.tx (streamOf w
    c)).proofs := by
  refine gives_awake hs rfl fun _ _ => ?_
  simp [hleft, hvalid]

theorem pathLoss_resends (w : SwId) (c : ClassId) (hne : (s.tx (streamOf w c)).proofs ≠ []) (hres : (s.tx (streamOf w
    c)).resending = none) (hdead : (s.tx (streamOf w c)).dead = false) (hlim : (s.tx (streamOf w c)).resends < max 1 (s.rd
    (.bridge 4) .BRIDGE_FAB_CFG_RESEND_LIMIT)) : Gives (.pathLossReceived) s fun t => (t.tx (streamOf w c)).resends = (s.tx
    (streamOf w c)).resends + 1 := by
  refine gives_awake hs rfl fun _ _ => ?_
  have := Upd.keeps_fact
  have hbump := addCnt_in (pg := .bridge 4) rfl (Foot.le_refl _) 14 1
  rw [all_cons_run, all_cons_run, all_nil_run]
  refine resendAll_resends (Resends_of_extends ⟨hne, hres, hdead, rfl, hlim⟩ ((bump_admits rfl 14 s (Fact.out)).2 _) ?_)
  exact rd_of_in hbump (by simp +decide) (by decide)

theorem fabPortUnusable_resends (p : PortId) (w : SwId) (c : ClassId) (hfab : s.isFab p = true) (huse : s.usable p = false)
    (hlink : s.link p ≠ lsRETIRING) (hne : (s.tx (streamOf w c)).proofs ≠ []) (hres : (s.tx (streamOf w c)).resending = none)
    (hdead : (s.tx (streamOf w c)).dead = false) (hlim : (s.tx (streamOf w c)).resends < max 1 (s.rd (.bridge 4)
    .BRIDGE_FAB_CFG_RESEND_LIMIT)) : Gives (.fabPortUnusable p) s fun t => (t.tx (streamOf w c)).resends = (s.tx (streamOf w
    c)).resends + 1 := by
  refine gives_awake hs rfl fun _ _ => ?_
  have := Upd.keeps_fact
  have hgo : (s.isFab p && !s.usable p && s.link p != lsRETIRING) = true := by simp [hfab, huse, hlink]
  have hmove : (when_ (!s.usable p && s.srcPort == p) sourceMove).In Foot.sourceMove := when_in (sourceMove_in (Foot.le_refl _))
  simp only [look_run, all_cons_run, all_nil_run, hgo, when_true_run]
  rw [tx_of_in hmove (by decide)]
  refine resendAll_resends (Resends_of_extends ⟨hne, hres, hdead, rfl, hlim⟩ ((sendPathLoss_admits p s Fact.out).2 _) ?_)
  exact rd_of_in (sendPathLoss_in (Foot.le_refl _) p) (by simp +decide) (by decide)

theorem releaseTimer_releases (w : SwId) (c : ClassId) (x : RxStream) (hx : s.rx? (streamOf w c) = some x) (hne : x.unrel ≠ 0)
   : Gives (.releaseTimer w c) s fun t => t.rx? (streamOf w c) = some { x with unrel := 0 } := by
  refine gives_awake hs rfl fun _ _ => ?_
  have := Upd.keeps_fact
  have hgo : (x.unrel != 0) = true := by simp [hne]
  simp only [look_run, hx, forSome_some_run, hgo, when_true_run, releaseNow, all_cons_run, all_nil_run]
  refine (rx_of_admits (sendRelease_admits _ _ _ _ _ _ Fact.out)).trans ?_
  simp

theorem streamRecord_forgotten (w : SwId) (c : ClassId) : Gives (.streamRecordForget w c) s fun t => t.rx? (streamOf w c) =
    none := by
  refine gives_awake hs rfl fun _ _ => ?_
  simp

end

/-- Settles O15: one lemma for each event. -/
theorem streamsAndProofsComplete : Obligations.StreamsAndProofsComplete := by
  intro s hs
  exact ⟨release_frees hs, proofTimeout_resends hs, proofTimeout_dies hs, resendComplete_ends hs, pathLoss_resends hs,
    fabPortUnusable_resends hs, releaseTimer_releases hs, streamRecord_forgotten hs⟩

end Sys2Proof.Machine
end

section
/-! PROOF. Rings and engines (R515 to R519). -/

namespace Sys2Proof.Machine

set_option Elab.async false

/-- Ring 7, enabled and HALTED, that a write moves to another engine. -/
def haltedRing : State := wit [witRing, wr (.ring 7) .MOVER_RING_STAT_STATE rsHALTED]

/-- Refutes O23: a HALTED ring that is moved to another engine stays HALTED and does not become REHOMING, as `haltedRing` shows
(R537). -/
theorem not_ringsComplete : ¬ Obligations.RingsComplete := by
  intro h
  obtain ⟨-, -, -, hrehome, -⟩ := h haltedRing (wit_awake _ (by decide +kernel))
  have hst := (hrehome .fw0 7 0x88402100 (by decide +kernel) (by decide +kernel) (by decide +kernel) (by decide +kernel)
    (by decide +kernel) (by decide +kernel)).holds rfl
  exact absurd hst.1 (by decide +kernel)

end Sys2Proof.Machine
end

section
/-! PROOF. Face resets, FLR and power management of a face (R300 to R305, R295). -/

namespace Sys2Proof.Machine

set_option Elab.async false


theorem face_ok (f : FaceId) : (Pg.face f).ok = true := by
  revert f
  decide

/-- What ends a ring counts on engines, on BRIDGE and in CORE, and a face's interrupts on counter 3 alone. -/
theorem ringEnds_keepsCnt {f i : Nat} (hi : i ≠ 3) (n : Nat) (r : Rst) : (ringEnds n r).KeepsCnt (.face f) i := by
  have hadd : ∀ (pg : Pg) (k m : Nat), (∀ g, pg ≠ .face g) → (addCnt pg k m).KeepsCnt (.face f) i := fun pg k m hne =>
    addCnt_keepsCnt (fun h => hi h.2) (fun h => hne f h.1.symm) m
  have hdrop : ∀ (k : Pkt) (e v : Nat) (x : Err),
      (all [consumeSelf k.id, bump (.eng e) 6, bump (.bridge 2) (4 * v + 3), raise .moverg x]).KeepsCnt (.face f) i := fun k e v x => by
    refine all_keepsCnt fun u hu => ?_
    simp only [List.mem_cons, List.not_mem_nil, or_false] at hu
    rcases hu with rfl | rfl | rfl | rfl
    · exact keepsCnt_of_in (consumeSelf_in (Foot.le_refl _) _) (by simp +decide)
    · exact hadd _ _ _ nofun
    · exact hadd _ _ _ nofun
    · exact raiseAll_keepsCnt (fun h => hi h.2) (fun h => by simp at h) _ _
  refine all_keepsCnt fun u hu => ?_
  simp only [List.mem_cons, List.not_mem_nil, or_false] at hu
  rcases hu with rfl | rfl
  · exact keepsCnt_of_in (ringClear_in (Foot.le_refl _) n r) (by simp +decide)
  · refine look_keepsCnt fun s => forEach_keepsCnt fun k => ?_
    cases s.vepFor? k.frame with
    | none => exact skip_keepsCnt
    | some v => 
      refine look_keepsCnt fun t => ?_
      simp only
      split
      · exact hdrop _ _ _ _
      · exact when_keepsCnt (hdrop _ _ _ _)

/-! ### The face reset -/

variable {s : State} [Fact s.wf]

omit [Fact s.wf] in
theorem iv_wr_all (pg : Pg) (g : Fld) (v i : Nat) (x : Var) (j : Nat) : ((wr pg g v i).run s).iv x j = s.iv x j := rfl

omit [Fact s.wf] in
theorem iv_keepSoftReset (f : Nat) (r : Rst) (x : Var) (j : Nat) : 
    ((keepSoftReset f (resetPage (.face f) r)).run s).iv x j = s.iv x j := by
  simp [keepSoftReset]

theorem faceReset_state (f : Nat) : ((faceReset f).run s).rd (.face f) .FACE_BIND_STATE =
    if s.on (.face f) .FACE_BIND_ENABLE = true then fcRESET else 0 := by
  have := Upd.keeps_fact
  simp only [faceReset, look_run, all_cons_run, all_nil_run]
  rw [rd_of_in (presEval_in (Foot.le_refl _) f) (by simp +decide) (by simp +decide), rd_wr]
  split <;> rfl

theorem faceReset_enable (f : Nat) : ((faceReset f).run s).on (.face f) .FACE_BIND_ENABLE = s.on (.face f) .FACE_BIND_ENABLE := 
  congrArg (· != 0) (rd_of_in (faceReset_in (Foot.le_refl _) f) (by simp +decide) (by simp +decide))

theorem faceReset_epoch (f : Nat) : ((faceReset f).run s).iv .faceEpoch f = (s.iv .faceEpoch f + 1) % 65536 := by
  have := Upd.keeps_fact
  have hdown : ∀ c p, (when_ c (linkDown p)).In _ := fun c p => when_in (linkDown_in (Foot.le_refl _) p)
  have hreset : (forEach (s.visOf f) fun v => instReset v false).In _ := forEach_in fun v => instReset_in (Foot.le_refl _) v false
  have habandon := abandon_in (Foot.le_refl _) fun x => x.face == f
  have hpref := prefDiscard_in (Foot.le_refl _) fun e => e.face == f
  have hrings : (forEach (s.faceRings f) fun n => ringEnds n .face).In _ := forEach_in fun n => ringEnds_in (Foot.le_refl _) n _
  simp only [faceReset, look_run, all_cons_run, all_nil_run]
  rw [iv_of_in (presEval_in (Foot.le_refl _) _) (by decide), iv_wr_all, iv_of_in (winRestore_in (Foot.le_refl _) _) (by decide),
    iv_keepSoftReset, iv_of_in hrings (by decide), iv_of_in (seReset_in (Foot.le_refl _) _) (by decide),
    iv_of_in (viewReset_in (Foot.le_refl _) _) (by decide), iv_of_in (semsOf_in (Foot.le_refl _) _) (by decide), 
    iv_of_in (faceUnlocks_in (Foot.le_refl _) _) (by decide), iv_of_in hpref (by decide)]
  simp only [modIv, look_run, iv_put]
  rw [iv_of_in habandon (by decide), iv_of_in hreset (by decide), iv_of_in (hdown _ _) (by decide)]
  simp

/-- A number that nothing after the service endpoint's reset writes reads as that reset leaves it. -/
theorem faceReset_msix (f : Nat) : ((faceReset f).run s).iv .msixEnable f = 0 := by
  have := Upd.keeps_fact
  have hrings : (forEach (s.faceRings f) fun n => ringEnds n .face).In _ := forEach_in fun n => ringEnds_in (Foot.le_refl _) n _
  have hstaging := clearStaging_in (Foot.le_refl _) (1024 + f)
  simp only [faceReset, look_run, all_cons_run, all_nil_run]
  rw [iv_of_in (presEval_in (Foot.le_refl _) _) (by decide), iv_wr_all, iv_of_in (winRestore_in (Foot.le_refl _) _) (by decide),
    iv_keepSoftReset, iv_of_in hrings (by decide)]
  simp only [seReset, all_cons_run, all_nil_run]
  rw [iv_of_in hstaging (by decide)]
  simp

theorem faceReset_secBus (f : Nat) : ((faceReset f).run s).iv .secBus (4096 * f) = 0 := by
  have := Upd.keeps_fact
  have hrings : (forEach (s.faceRings f) fun n => ringEnds n .face).In _ := forEach_in fun n => ringEnds_in (Foot.le_refl _) n _
  simp only [faceReset, look_run, all_cons_run, all_nil_run]
  rw [iv_of_in (presEval_in (Foot.le_refl _) _) (by decide), iv_wr_all, iv_of_in (winRestore_in (Foot.le_refl _) _) (by decide),
    iv_keepSoftReset, iv_of_in hrings (by decide), iv_of_in (seReset_in (Foot.le_refl _) _) (by decide)]
  simp [viewReset]

theorem faceReset_pin (f : Nat) : ((faceReset f).run s).iv .fperst f = s.iv .fperst f :=
  iv_of_in (faceReset_in (Foot.le_refl _) f) (by decide)

section
variable {s : State} (hs : s.Awake)
include hs

theorem faceResetPin (f : FaceId) (hen : s.on (.face f) .FACE_BIND_ENABLE = true) : Gives (.faceResetPin f) s fun t => t.iv
    .fperst f = 0 ∧ t.rd (.face f) .FACE_BIND_STATE = fcRESET ∧ t.iv .faceEpoch f = (s.iv .faceEpoch f + 1) % 65536 ∧ t.on
    (.face f) .FACE_BIND_ENABLE = true ∧ t.iv .secBus (4096 * f) = 0 ∧ t.iv .msixEnable f = 0 := by
  refine gives_always hs.1 rfl fun _ _ => ?_
  have := Upd.keeps_fact
  have hdie := hs.2
  simp only [look_run, all_cons_run, all_nil_run, hdie, Bool.not_false, when_true_run, faceReset_state, faceReset_epoch, faceReset_enable, 
    faceReset_secBus, faceReset_msix, faceReset_pin]
  have hen' : s.rd (.face f) .FACE_BIND_ENABLE ≠ 0 := by simpa [State.on] using hen
  simp [State.on, hen']

theorem hotReset (f : FaceId) (hlive : s.faceLive f = true) : Gives (.hotResetReceived f) s fun t => t.rd (.face f)
    .FACE_BIND_STATE = fcRESET ∧ t.iv .faceEpoch f = (s.iv .faceEpoch f + 1) % 65536 ∧ t.iv .secBus (4096 * f) = 0 ∧ t.iv
    .fperst f = s.iv .fperst f := by
  refine gives_awake hs rfl fun _ _ => ?_
  have hen : s.on (.face f) .FACE_BIND_ENABLE = true := by
    simp only [State.faceLive, Bool.and_eq_true] at hlive
    simp [hlive]
  simp only [look_run, hlive, when_true_run, faceReset_state, faceReset_epoch, faceReset_secBus, faceReset_pin, hen, if_true, and_self]

theorem fperstRelease (f : FaceId) : Gives (.fperstRelease f) s fun t => t.iv .fperst f = 1 ∧ t.rd (.face f)
    .FACE_PM_STAT_FWAKE = 0 := by
  refine gives_always hs.1 rfl fun _ _ => ?_
  simp

theorem faceReady (f : FaceId) (hans : s.facesAnswer = true) (hst : s.rd (.face f) .FACE_BIND_STATE = fcRETRY) : Gives
    (.faceReady f) s fun t => t.rd (.face f) .FACE_BIND_STATE = fcREADY := by
  refine gives_awake hs rfl fun _ _ => ?_
  simp +decide [hans, hst]

theorem flrStart_sets (f : FaceId) (hb : s.on (.face f) .FACE_FLR_STAT_BUSY = false) : Gives (.flrServiceEndpoint f) s fun t
    => t.on (.face f) .FACE_FLR_STAT_BUSY = true ∧ t.iv .flrAt f = s.now ∧ t.iv .faceEpoch f = (s.iv .faceEpoch f + 1) % 65536
   := by
  refine gives_awake hs rfl fun _ _ => ?_
  have := Upd.keeps_fact
  have habandon := abandon_in (Foot.le_refl _) (s.seSlot f)
  have hfetch : (forEach (s.faceRings f) dropFetch).In _ := forEach_in fun n => dropFetch_in (Foot.le_refl _) n
  have hreset : (forEach (s.visOf f) fun v => instReset v false).In _ := forEach_in fun v => instReset_in (Foot.le_refl _) v false
  have hflush := flushSome_in (Foot.le_refl _) f none (1024 + f)
  simp only [flrStart, look_run, all_cons_run, all_nil_run, hb, when_true_run, Bool.not_false]
  simp only [State.on]
  rw [rd_of_in hflush (by simp +decide) (by simp +decide), iv_of_in hflush (by decide), iv_of_in hflush (by decide)]
  simp +decide [rd_of_in hreset, rd_of_in hfetch, rd_of_in habandon, iv_of_in hreset, iv_of_in hfetch, iv_of_in habandon, modIv]

theorem flrDone (f : FaceId) (hb : s.on (.face f) .FACE_FLR_STAT_BUSY = true) (hf : (s.fifo .flushTodo (1024 + f)).isEmpty =
    true) (hv : ((s.visOf f).any fun v => s.resetting v && s.flushing v) = false) (hsl : (s.slots.any fun x => x.flush && x.st
    == slBUSY && s.seSlot f x) = false) : Gives (.flrDone f) s fun t => t.on (.face f) .FACE_FLR_STAT_BUSY = false ∧ t.rd
    (.face f) .FACE_FLR_STAT_DONE = 1 ∧ t.iv .msixEnable f = 0 ∧ t.iv .seBusMaster f = 0 ∧ t.cnt (.face f) 8 = min (s.cnt
    (.face f) 8 + 1) cntMax := by
  refine gives_awake hs rfl fun _ _ => ?_
  have := Upd.keeps_fact
  have hend : (forEach (s.faceRings f) fun n => ringEnds n .flr).In _ := forEach_in fun n => ringEnds_in (Foot.le_refl _) n _
  have hkeep : (forEach (s.faceRings f) fun n => ringEnds n .flr).KeepsCnt (.face f) 8 :=
    forEach_keepsCnt fun n => ringEnds_keepsCnt (by decide) n _
  have hempty : s.fifo .flushTodo (1024 + f) = [] := by simpa using hf
  have hnone : (when_ (s.on (.face f) .FACE_FLR_STAT_BUSY) (flushSome f none (1024 + f))).run s = s := by
    simp only [when_run, flushSome, look_run, hempty, forEach_nil_run]
    exact ite_self _
  have hgo : (s.on (.face f) .FACE_FLR_STAT_BUSY && !(!(s.fifo .flushTodo (1024 + f)).isEmpty || ((s.visOf f).any fun v =>
      s.resetting v && s.flushing v) || s.slots.any fun x => x.flush && x.st == slBUSY && s.seSlot f x)) = true := by
    simp only [hb, hf, hv, hsl]
    rfl
  have hstaging := clearStaging_in (Foot.le_refl _) (1024 + f)
  simp only [look_run, all_cons_run, all_nil_run, hnone, hgo, when_true_run, keepSoftReset]
  have r1 := fun t => rd_resetPage (s := t) (pg := .face f) (f := .FACE_FLR_STAT_BUSY) (i := 0) (r := .flr)
    (by simp +decide) (face_ok f) (by decide) (by decide)
  have k1 := fun t [h : Fact (State.wf t)] => hkeep t h.out
  simp +decide [State.on, r1, iv_of_in hend, iv_of_in hstaging, cnt_of_in hstaging, seReset, k1]
  rfl

theorem pmeTurnOff (f : FaceId) (hlive : s.faceLive f = true) : Gives (.pmeTurnOff f) s fun t => t.iv .pmeOff f = 1 ∧ t.out =
    Out.pmeToAck f :: s.out ∧ t.rd (.face f) .FACE_PM_STAT_LINK_PM = pmL2 := by
  refine gives_awake hs rfl fun _ _ => ?_
  simp [hlive]
  rfl

end

/-- Settles O22: each write of a reset stands over what the rest of the reset may touch. -/
theorem faceResetsComplete : Obligations.FaceResetsComplete := by
  intro s hs
  exact ⟨faceResetPin hs, hotReset hs, fperstRelease hs, faceReady hs, flrStart_sets hs, flrDone hs, pmeTurnOff hs⟩

end Sys2Proof.Machine
end

section
/-! PROOF. TDISP (R509, R510, Table INST-5). -/

namespace Sys2Proof.Machine

set_option Elab.async false


variable {s : State}

/-- A message in the session of a face that reaches a VI bound to it acts as its rule says. -/
theorem tdispFor_run {f v : Nat} {g : FaceId} (hg : g.val = f) (u : Nat → State → Upd) (hfw : s.fwRuns = true) (hsess : s.ivOn .spdmSess f = true)
    (hb : s.bound? v = true) (hv : s.viFace v = f) : (tdispFor (some g) v u).run s = (u f s).run s := by
  subst hg
  simp [tdispFor, inSession, throughFirmware, hfw, hsess, hb, hv]

/-! ### The start of a reset (R503) -/

/-- What a reset does to the rings of the VI. -/
def Foot.ringsFenced : Foot := (Foot.rxStop.and Foot.dropDescs).and (Foot.rxSettle.and (Foot.fields .ring [.MOVER_RING_STAT_STATE]))

theorem ringsFenced_in (l : List Nat) :
    (forEach l fun n => all [rxStop n, dropDescs n, wr (.ring n) .MOVER_RING_STAT_STATE rsFENCED, rxSettle n]).In Foot.ringsFenced := by
  have h1 := Foot.and_le.1 (Foot.le_refl Foot.ringsFenced)
  have h2 := Foot.and_le.1 h1.1
  have h3 := Foot.and_le.1 h1.2
  exact forEach_in fun n => all_cons_in (rxStop_in h2.1 n) <| all_cons_in (dropDescs_in h2.2 n) <|
    all_cons_in (wr_in (by simp +decide) (le_regs h3.2 (by simp +decide [Foot.fields]))) <| all_cons_in (rxSettle_in h3.1 n) all_nil_in

section
variable {v : Nat} {stop : Bool} [Fact s.wf] (hr : s.resetting v = false)
include hr

/-- A VI that is not resetting starts to. -/
theorem instReset_starts : ((instReset v stop).run s).resetting v = true ∧ ((instReset v stop).run s).rd (.inst 2) .INST_STAT_FENCED v = 1 := by
  have := Upd.keeps_fact
  have hrings := ringsFenced_in (s.viRings v)
  have habandon := abandon_in (Foot.le_refl _) fun x => x.req && x.who == .inst v
  have hflush := flushSome_in (Foot.le_refl _) (s.viFace v) (some v) v
  simp +decide [instReset, hr]
  simp +decide [State.resetting, State.on, rd_of_in hrings, rd_of_in habandon, rd_of_in hflush]

theorem instReset_stops : ((instReset v true).run s).iv .stopWaits v = 1 ∧ ((instReset v true).run s).tdi v = s.tdi v := by
  have := Upd.keeps_fact
  have hrings := ringsFenced_in (s.viRings v)
  have habandon := abandon_in (Foot.le_refl _) fun x => x.req && x.who == .inst v
  have hflush := flushSome_in (Foot.le_refl _) (s.viFace v) (some v) v
  simp +decide [instReset, hr, State.tdi, rd_of_in hrings, rd_of_in habandon, rd_of_in hflush, iv_of_in hrings, iv_of_in habandon, iv_of_in hflush]

end

section
variable {s : State} (hs : s.Awake)
include hs

theorem refused (ch : DoeOrMctp) (f : FaceId) (v : ViId) (hch : ch = some f) (hfw : s.fwRuns = true) (hsess : s.ivOn .spdmSess
    f = false) : Gives (.getTdispVersion ch v) s fun t => t.out.head? = some (Out.spdm (some f.val) .error) ∧ (t.rd (.sec 0)
    .ERR_STICKY_BITS).testBit Err.SEC_SPDM_REFUSED.bit = true ∧ t.tdi v = s.tdi v := by
  refine gives_awake hs rfl fun _ _ => ?_
  simp +decide [tdispFor, inSession, throughFirmware, spdmRefuse, spdmAnswer, State.tdi, hch, hfw, hsess]

theorem version (f : FaceId) (v : ViId) (hfw : s.fwRuns = true) (hsess : s.ivOn .spdmSess f = true) (hb : s.bound? v = true)
    (hv : s.viFace v = f.val) : Gives (.getTdispVersion (some f) v) s fun t => t.out = Out.tdisp f v .version :: s.out := by
  refine gives_awake hs rfl fun _ _ => ?_
  rw [tdispFor_run rfl _ hfw hsess hb hv]
  rfl

theorem capabilities (f : FaceId) (v : ViId) (hfw : s.fwRuns = true) (hsess : s.ivOn .spdmSess f = true) (hb : s.bound? v =
    true) (hv : s.viFace v = f.val) : Gives (.getTdispCapabilities (some f) v) s fun t => t.out = Out.tdisp f v .capabilities
   :: s.out := by
  refine gives_awake hs rfl fun _ _ => ?_
  rw [tdispFor_run rfl _ hfw hsess hb hv]
  rfl

theorem lock_locks (f : FaceId) (v : ViId) (hfw : s.fwRuns = true) (hsess : s.ivOn .spdmSess f = true) (hb : s.bound? v =
    true) (hv : s.viFace v = f.val) (hr : s.resetting v = false) (ht : s.tdi v = tdUNLOCKED) : Gives (.lockInterfaceRequest
    (some f) v) s fun t => t.tdi v = tdLOCKED ∧ t.promised v = s.promises v ∧ t.out = Out.tdisp f v .locked :: s.out := by
  refine gives_awake hs rfl fun _ _ => ?_
  rw [tdispFor_run rfl _ hfw hsess hb hv]
  simp only [hr, ht]
  simp +decide only [State.tdi, State.promised, forBelow, List.range_succ]
  cases hpol : s.on (.inst 3) .INST_VI_CFG_CFG1_POL_EN v <;> simp +decide [State.promises, hpol]

theorem lock_invalid (f : FaceId) (v : ViId) (hfw : s.fwRuns = true) (hsess : s.ivOn .spdmSess f = true) (hb : s.bound? v =
    true) (hv : s.viFace v = f.val) (hr : s.resetting v = false) (ht : s.tdi v ≠ tdUNLOCKED) : Gives (.lockInterfaceRequest
    (some f) v) s fun t => t.tdi v = s.tdi v ∧ t.out = Out.tdisp f v .invalidState :: s.out := by
  refine gives_awake hs rfl fun _ _ => ?_
  rw [tdispFor_run rfl _ hfw hsess hb hv]
  simp only [State.tdi] at ht
  simp [hr, ht, State.tdi]

theorem state_answered (f : FaceId) (v : ViId) (hfw : s.fwRuns = true) (hsess : s.ivOn .spdmSess f = true) (hb : s.bound? v =
    true) (hv : s.viFace v = f.val) : Gives (.getDeviceInterfaceState (some f) v) s fun t => t.out = Out.tdisp f v (.state
    (s.tdi v)) :: s.out := by
  refine gives_awake hs rfl fun _ _ => ?_
  rw [tdispFor_run rfl _ hfw hsess hb hv]
  rfl

theorem report_answered (f : FaceId) (v : ViId) (hfw : s.fwRuns = true) (hsess : s.ivOn .spdmSess f = true) (hb : s.bound? v =
    true) (hv : s.viFace v = f.val) (ht : s.tdi v = tdLOCKED) : Gives (.getDeviceInterfaceReport (some f) v) s fun t => t.out
    = Out.tdisp f v (.report (((s.barSlot? f v).getD 0) * 0x1000) 0x1000 (s.rd (.inst 3) .INST_VI_CFG_CFG0_PASID v) (s.rd
    (.inst 3) .INST_VI_CFG_CFG2_VEC_BASE v) (2 ^ s.rd (.inst 3) .INST_VI_CFG_CFG2_VEC_LOG2 v)) :: s.out := by
  refine gives_awake hs rfl fun _ _ => ?_
  rw [tdispFor_run rfl _ hfw hsess hb hv]
  simp [ht]

theorem start_starts (f : FaceId) (v : ViId) (hfw : s.fwRuns = true) (hsess : s.ivOn .spdmSess f = true) (hb : s.bound? v =
    true) (hv : s.viFace v = f.val) (ht : s.tdi v = tdLOCKED) : Gives (.startInterfaceRequest (some f) v) s fun t => t.tdi v =
    tdRUN ∧ t.out = Out.tdisp f v .started :: s.out := by
  refine gives_awake hs rfl fun _ _ => ?_
  rw [tdispFor_run rfl _ hfw hsess hb hv]
  simp only [State.tdi] at ht
  simp +decide [ht, State.tdi]

theorem start_invalid (f : FaceId) (v : ViId) (hfw : s.fwRuns = true) (hsess : s.ivOn .spdmSess f = true) (hb : s.bound? v =
    true) (hv : s.viFace v = f.val) (ht : s.tdi v ≠ tdLOCKED) : Gives (.startInterfaceRequest (some f) v) s fun t => t.tdi v =
    s.tdi v ∧ t.out = Out.tdisp f v .invalidState :: s.out := by
  refine gives_awake hs rfl fun _ _ => ?_
  rw [tdispFor_run rfl _ hfw hsess hb hv]
  simp only [State.tdi] at ht
  simp [ht, State.tdi]

theorem stop_resets (f : FaceId) (v : ViId) (hfw : s.fwRuns = true) (hsess : s.ivOn .spdmSess f = true) (hb : s.bound? v =
    true) (hv : s.viFace v = f.val) (hr : s.resetting v = false) : Gives (.stopInterfaceRequest (some f) v) s fun t =>
    t.resetting v = true ∧ t.iv .stopWaits v = 1 ∧ t.tdi v = s.tdi v := by
  refine gives_awake hs rfl fun _ _ => ?_
  rw [tdispFor_run rfl _ hfw hsess hb hv]
  obtain ⟨hstops, htdi⟩ := instReset_stops hr
  exact ⟨(instReset_starts hr).1, hstops, htdi⟩

theorem unsupported (f : FaceId) (v : ViId) (hfw : s.fwRuns = true) (hsess : s.ivOn .spdmSess f = true) (hb : s.bound? v =
    true) (hv : s.viFace v = f.val) : Gives (.tdispUnsupported (some f) v) s fun t => t.out = Out.tdisp f v
    .unsupportedRequest :: s.out := by
  refine gives_awake hs rfl fun _ _ => ?_
  rw [tdispFor_run rfl _ hfw hsess hb hv]
  rfl

end

/-- Settles O21: a message in a session reaches the instances bound to its face, and no other. -/
theorem tdispCompletes : Obligations.TdispCompletes := by
  intro s hs
  exact ⟨refused hs, version hs, capabilities hs, lock_locks hs, lock_invalid hs, state_answered hs, report_answered hs,
    start_starts hs, start_invalid hs, stop_resets hs, unsupported hs⟩

end Sys2Proof.Machine
end

section
/-! PROOF. Binding, unbinding, resets and shares of virtual instances (R466, R498 to R508). -/

namespace Sys2Proof.Machine

set_option Elab.async false


variable {s : State}

/-- The status of a binding does not depend on who was granted a page last. -/
theorem bindStatus_grant (st : Stamp) (pg : Pg) (c v : Nat) [Fact s.wf] : ((grant st pg).run s).bindStatus c v = s.bindStatus c v := by
  have hroute : ∀ k n, ((grant st pg).run s).idRoute? k n = s.idRoute? k n := fun k n => by simp [State.idRoute?, State.entry, grant]
  unfold State.bindStatus
  simp only [hroute]
  rfl

/-- A binding that is made writes the entry of its VI. -/
theorem bindNow_binds {c v : Nat} (hv : v < 1024) [Fact s.wf] : ((bindNow c v).run s).bound? v = true ∧
    ((bindNow c v).run s).viFace v = s.rdSt c (.inst 0) .INST_BIND_CFG0_FACE ∧
    ((bindNow c v).run s).rd (.inst 3) .INST_VI_CFG_CFG1_FEID v = s.rdSt c (.inst 0) .INST_BIND_CFG1_FEID ∧
    ((bindNow c v).run s).rd (.inst 3) .INST_VI_CFG_CFG0_PASID v = s.rdSt c (.inst 0) .INST_BIND_CFG0_PASID ∧
    ((bindNow c v).run s).cnt (.inst 0) v = 0 := by
  have := Upd.keeps_fact
  have hwatch := coreWatch_in (Foot.le_refl _)
  have hcopy : ∀ f g : Fld, f.width = g.width → s.rdSt c (.inst 0) f % 2 ^ g.width = s.rdSt c (.inst 0) f := fun f g he =>
    he ▸ Nat.mod_mod _ _
  simp +decide [bindNow, State.bound?, State.viFace, State.on, rd_of_in hwatch, cnt_of_in hwatch]
  exact ⟨hcopy .INST_BIND_CFG0_FACE .INST_STAT_FACE rfl, hcopy .INST_BIND_CFG1_FEID .INST_VI_CFG_CFG1_FEID rfl,
    hcopy .INST_BIND_CFG0_PASID .INST_VI_CFG_CFG0_PASID rfl, fun h => by omega⟩

/-- The end of a binding leaves its status, and keeps what the binding wrote. -/
theorem bindEnds_status (c x : Nat) [Fact s.wf] : ((bindEnds c x).run s).rdSt c (.inst 0) .INST_BIND_STATUS = x % 8 := by
  have := Upd.keeps_fact
  simp +decide [bindEnds]
  rfl

theorem bindEnds_zero (c : Nat) : (bindEnds c 0).run s = (wrSt c (.inst 0) .INST_BIND_STATUS 0).run s := by
  simp [bindEnds]

@[simp] theorem bound_grant (st : Stamp) (pg : Pg) (v : Nat) : ((grant st pg).run s).bound? v = s.bound? v := rfl

/-- After a reset is asked for, the VI resets. -/
theorem instReset_resets (v : Nat) (stop : Bool) [Fact s.wf] : ((instReset v stop).run s).resetting v = true := by
  cases hr : s.resetting v
  · exact (instReset_starts hr).1
  · have hsame : ((when_ stop (put .stopWaits 1 v)).run s).resetting v = s.resetting v := by
      cases stop <;> rfl
    simpa only [instReset, look_run, all_cons_run, all_nil_run, hr, Bool.not_true, when_false_run] using hsame.trans hr

/-- The fields of INST_BIND_CFG that a binding copies into the entry and the statement speaks of. -/
def boundFrom : List Fld := [.INST_BIND_CFG0_FACE, .INST_BIND_CFG1_FEID, .INST_BIND_CFG0_PASID]

/-- A binding from the fields that stood in INST_BIND_CFG ends with the entry made and status 0. -/
theorem bind_made {t : State} [Fact t.wf] {c v : Nat} (hv : v < 1024) (hread : ∀ f ∈ boundFrom, t.rdSt c (.inst 0) f = s.rdSt c (.inst 0) f) :
    ((bindEnds c 0).run ((bindNow c v).run t)).bound? v = true ∧
    ((bindEnds c 0).run ((bindNow c v).run t)).viFace v = s.rdSt c (.inst 0) .INST_BIND_CFG0_FACE ∧
    ((bindEnds c 0).run ((bindNow c v).run t)).rd (.inst 3) .INST_VI_CFG_CFG1_FEID v = s.rdSt c (.inst 0) .INST_BIND_CFG1_FEID ∧
    ((bindEnds c 0).run ((bindNow c v).run t)).rd (.inst 3) .INST_VI_CFG_CFG0_PASID v = s.rdSt c (.inst 0) .INST_BIND_CFG0_PASID ∧
    ((bindEnds c 0).run ((bindNow c v).run t)).cnt (.inst 0) v = 0 ∧
    ((bindEnds c 0).run ((bindNow c v).run t)).rdSt c (.inst 0) .INST_BIND_STATUS = 0 := by
  have := Upd.keeps_fact
  obtain ⟨hbound, hface, hfeid, hpasid, hcnt⟩ := bindNow_binds (s := t) (c := c) hv
  rw [bindEnds_zero]
  exact ⟨hbound, hface.trans (hread _ (by decide)), hfeid.trans (hread _ (by decide)), hpasid.trans (hread _ (by decide)), hcnt, by simp⟩

/-- A write of INST_BIND leaves INST_BIND_CFG. -/
theorem rdSt_bindWrite [Fact s.wf] (st : Stamp) (v : Nat) {f : Fld} (hf : f ∈ boundFrom) : 
    ((plainWrite st (.inst 0) 0x100 v).run ((grant st (.inst 0)).run s)).rdSt st.code (.inst 0) f = s.rdSt st.code (.inst 0) f := by
  have := Upd.keeps_fact
  refine (rdSt_of_in (plainWrite_in_regs st v (.inst 0) 0x100) ?_ ?_).trans rfl
  · exact List.mem_append_right _ ((by decide : ∀ f ∈ boundFrom, f ∈ Pg.tab (.inst 0)) f hf)
  · exact (by decide : ∀ f ∈ boundFrom, (Fam.inst, f) ∉ (fieldsAt (.inst 0) 0x100).map fun fi => (Fam.inst, fi.1)) f hf

theorem firstBelow_lt {n w : Nat} {p : Nat → Bool} (h : firstBelow n p = some w) : w < n := List.mem_range.1 (List.mem_of_find?_eq_some h)

/-- A field kept per stamp is written for its own stamp only. -/
theorem rdSt_wrSt_of_stamp_ne [h : Fact s.wf] {c d : Nat} (hc : c < 64) (hd : d < 64) (hne : c ≠ d) (pg : Pg) (f : Fld) (v i : Nat) : 
    ((wrSt d pg f v i).run s).rdSt c pg f i = s.rdSt c pg f i := by
  show Map.get _ _ _ % _ = Map.get _ _ _ % _
  rw [wrSt_stampRegs, Map.get_set_ne h.out.2.1]
  unfold stampKey
  omega

/-- An unbinding ends each requester's GO that asked for it. -/
theorem unbindNow_unbinds [Fact s.wf] {v c : Nat} (hc : c < 64) (hu : (s.iv .unbindBy v).testBit c = true) : 
    ((unbindNow v).run s).bound? v = false ∧ ((unbindNow v).run s).iv .unbindBy v = 0 ∧ 
    ((unbindNow v).run s).rdSt c (.inst 0) .INST_BIND_GO = 0 := by
  have := Upd.keeps_fact
  have hwatch := coreWatch_in (Foot.le_refl _)
  have hgo : (forEach (allBelow 64 (s.iv .unbindBy v).testBit) fun st => wrSt st (.inst 0) .INST_BIND_GO 0).In 
      (Foot.fields .inst [.INST_BIND_GO]) := forEach_in fun st => wrSt_in (by decide) (by decide)
  have hzero : ∀ t : State, [Fact t.wf] → ((forEach (allBelow 64 (s.iv .unbindBy v).testBit) fun st => 
      wrSt st (.inst 0) .INST_BIND_GO 0).run t).rdSt c (.inst 0) .INST_BIND_GO = 0 := fun t _ => by
    refine forEach_reaches (a := c) (P := fun _ => True) (Q := fun t => t.rdSt c (.inst 0) .INST_BIND_GO = 0) (List.nodup_range.filter _)
      (List.mem_filter.2 ⟨List.mem_range.2 hc, hu⟩) (fun _ _ _ _ _ _ => trivial) (fun t _ _ => by simp) (fun d hd hne t _ h0 => ?_) t trivial
    rw [rdSt_wrSt_of_stamp_ne hc (List.mem_range.1 (List.mem_filter.1 hd).1) hne.symm, h0]
  simp +decide [unbindNow, State.bound?, State.on, rd_of_in hwatch, iv_of_in hwatch, rdSt_of_in hwatch, rd_of_in hgo, hzero]

section
variable {s : State} (hs : s.Awake)
include hs

theorem bind_binds (st : Stamp) (v : Word) (hlock : s.locked (.inst 0) = false) (hgo : v.getLsbD 31 = true) (hop : bits
    v.toNat 30 29 = 0) (hb : s.bound? (v.toNat % 1024) = false) (hst : s.bindStatus st.code (v.toNat % 1024) = 0) (hp :
    s.pathOpen st = true) : Gives (.instanceBind st v) s fun t => t.bound? (v.toNat % 1024) = true ∧ t.viFace (v.toNat % 1024)
    = s.rdSt st.code (.inst 0) .INST_BIND_CFG0_FACE ∧ t.rd (.inst 3) .INST_VI_CFG_CFG1_FEID (v.toNat % 1024) = s.rdSt st.code
    (.inst 0) .INST_BIND_CFG1_FEID ∧ t.rd (.inst 3) .INST_VI_CFG_CFG0_PASID (v.toNat % 1024) = s.rdSt st.code (.inst 0)
    .INST_BIND_CFG0_PASID ∧ t.cnt (.inst 0) (v.toNat % 1024) = 0 ∧ t.rdSt st.code (.inst 0) .INST_BIND_STATUS = 0 := by
  refine gives_granted hs rfl hlock hp fun _ _ => ?_
  have := Upd.keeps_fact
  simp only [instBindWrite, look_run, all_cons_run, all_nil_run, BitVec.testBit_toNat, hgo, when_true_run, hop, bound_grant, hb,
    Bool.false_eq_true, if_false, bindStatus_grant, hst, beq_self_eq_true]
  exact bind_made (Nat.mod_lt _ (by decide)) fun f hf => rdSt_bindWrite st _ hf

theorem bind_refused (st : Stamp) (v : Word) (hlock : s.locked (.inst 0) = false) (hgo : v.getLsbD 31 = true) (hop : bits
    v.toNat 30 29 = 0) (hb : s.bound? (v.toNat % 1024) = true) (hp : s.pathOpen st = true) : Gives (.instanceBind st v) s fun
    t => t.rdSt st.code (.inst 0) .INST_BIND_STATUS = 2 ∧ (t.rd (.inst 0) .ERR_STICKY_BITS).testBit Err.INST_CFG_REFUSED.bit =
    true ∧ t.viFace (v.toNat % 1024) = s.viFace (v.toNat % 1024) := by
  refine gives_granted hs rfl hlock hp fun _ _ => ?_
  simp only [instBindWrite, look_run, all_cons_run, all_nil_run, BitVec.testBit_toNat, hgo, when_true_run, hop, bound_grant, hb, if_true,
      bindEnds_status]
  simp +decide [bindEnds, State.viFace]

theorem bindAny_binds (st : Stamp) (v : Word) (w : Nat) (hlock : s.locked (.inst 0) = false) (hgo : v.getLsbD 31 = true) (hop
   : bits v.toNat 30 29 = 1) (hw : firstBelow 1024 (fun w => !s.bound? w) = some w) (hst : s.bindStatus st.code w = 0) (hp :
    s.pathOpen st = true) : Gives (.instanceBindAny st v) s fun t => t.bound? w = true ∧ t.viFace w = s.rdSt st.code (.inst 0)
    .INST_BIND_CFG0_FACE ∧ t.rd (.inst 3) .INST_VI_CFG_CFG1_FEID w = s.rdSt st.code (.inst 0) .INST_BIND_CFG1_FEID ∧ t.rd
    (.inst 3) .INST_VI_CFG_CFG0_PASID w = s.rdSt st.code (.inst 0) .INST_BIND_CFG0_PASID ∧ t.cnt (.inst 0) w = 0 ∧ t.rdSt
    st.code (.inst 0) .INST_BIND_STATUS = 0 ∧ t.rdSt st.code (.inst 0) .INST_BIND_VI = w := by
  refine gives_granted hs rfl hlock hp fun _ _ => ?_
  have := Upd.keeps_fact
  have hw' : (firstBelow 1024 fun w => !((grant st (.inst 0)).run s).bound? w) = some w := hw
  simp only [instBindWrite, look_run, all_cons_run, all_nil_run, BitVec.testBit_toNat, hgo, when_true_run, hop, hw',
    bindStatus_grant, hst, beq_self_eq_true]
  have hlt : w < 1024 := firstBelow_lt hw
  obtain ⟨hbound, hface, hfeid, hpasid, hcnt, hstat⟩ := bind_made (s := s) (c := st.code) (t := (wrSt st.code (.inst 0) .INST_BIND_VI w).run
    ((plainWrite st (.inst 0) 0x100 v.toNat).run ((grant st (.inst 0)).run s))) hlt fun f hf => by
      rw [rdSt_wrSt_of_ne (by decide) (List.mem_append_right _ ((by decide : ∀ f ∈ boundFrom, f ∈ Pg.tab (.inst 0)) f hf))
        ((by decide : ∀ f ∈ boundFrom, f ≠ .INST_BIND_VI) f hf), rdSt_bindWrite st _ hf]
  refine ⟨hbound, hface, hfeid, hpasid, hcnt, hstat, ?_⟩
  have hnow := bindNow_in (Foot.le_refl _) st.code w
  rw [bindEnds_zero]
  simp +decide [rdSt_of_in hnow]
  exact Nat.mod_eq_of_lt hlt

theorem unbind_starts (st : Stamp) (v : Word) (hlock : s.locked (.inst 0) = false) (hgo : v.getLsbD 31 = true) (hop : bits
    v.toNat 30 29 = 2) (hb : s.bound? (v.toNat % 1024) = true) (ht : s.tdi (v.toNat % 1024) = tdUNLOCKED) (hp : s.pathOpen st
    = true) : Gives (.instanceUnbind st v) s fun t => t.iv .unbindBy (v.toNat % 1024) = setBit (s.iv .unbindBy (v.toNat %
    1024)) st.code ∧ t.rdSt st.code (.inst 0) .INST_BIND_GO = 1 ∧ t.resetting (v.toNat % 1024) = true ∧ t.rdSt st.code (.inst
    0) .INST_BIND_STATUS = 0 := by
  refine gives_granted hs rfl hlock hp fun _ _ => ?_
  have := Upd.keeps_fact
  have hreset := instReset_in (Foot.le_refl _) (v.toNat % 1024) false
  have ht' : ((grant st (.inst 0)).run s).tdi (v.toNat % 1024) = tdUNLOCKED := ht
  have hnot : (tdUNLOCKED == tdLOCKED || tdUNLOCKED == tdRUN) = false := rfl
  simp only [instBindWrite, look_run, all_cons_run, all_nil_run, BitVec.testBit_toNat, hgo, when_true_run, hop, bound_grant, hb,
    Bool.not_true, Bool.false_eq_true, if_false, ht', hnot, bindEnds_zero]
  refine ⟨?_, ?_, instReset_resets _ _, ?_⟩
  · simp +decide [iv_of_in hreset]
  · simp +decide [rdSt_of_in hreset]
  · simp +decide [rdSt_of_in hreset]

theorem reset_starts (st : Stamp) (v : Word) (hlock : s.locked (.inst 0) = false) (hgo : v.getLsbD 31 = true) (hb : s.bound?
    (v.toNat % 1024) = true) (hr : s.resetting (v.toNat % 1024) = false) (hp : s.pathOpen st = true) : Gives (.instanceReset
    st v) s fun t => t.resetting (v.toNat % 1024) = true ∧ t.rd (.inst 2) .INST_STAT_FENCED (v.toNat % 1024) = 1 ∧ t.rd (.inst
    2) .INST_STAT_EPOCH (v.toNat % 1024) = s.rd (.inst 2) .INST_STAT_EPOCH (v.toNat % 1024) := by
  refine gives_granted hs rfl hlock hp fun _ _ => ?_
  have := Upd.keeps_fact
  have hreset := instReset_in (Foot.le_refl _) (v.toNat % 1024) false
  simp only [instResetWrite, look_run, all_cons_run, all_nil_run, BitVec.testBit_toNat, hgo, when_true_run, bound_grant, hb, if_true]
  obtain ⟨hresets, hfenced⟩ := instReset_starts (s := (wr (.inst 0) .INST_RESET_REFUSED 0).run 
    ((plainWrite st (.inst 0) 0x110 v.toNat).run ((grant st (.inst 0)).run s))) (stop := false) (v := v.toNat % 1024) (by
      simpa +decide [State.resetting, State.on] using hr)
  refine ⟨hresets, hfenced, ?_⟩
  simp +decide [rd_of_in hreset]

theorem reset_refused (st : Stamp) (v : Word) (hlock : s.locked (.inst 0) = false) (hgo : v.getLsbD 31 = true) (hb : s.bound?
    (v.toNat % 1024) = false) (hp : s.pathOpen st = true) : Gives (.instanceReset st v) s fun t => t.rd (.inst 0)
    .INST_RESET_REFUSED = 1 ∧ t.resetting (v.toNat % 1024) = s.resetting (v.toNat % 1024) := by
  refine gives_granted hs rfl hlock hp fun _ _ => ?_
  simp only [instResetWrite, look_run, all_cons_run, all_nil_run, BitVec.testBit_toNat, hgo, when_true_run, bound_grant, hb, 
    Bool.false_eq_true, if_false]
  simp +decide [State.resetting, State.on]

theorem selfReset_starts (st : Stamp) (v : ViId) (hb : s.bound? v = true) (hr : s.resetting v = false) (hp : s.pathOpen st =
    true) : Gives (.instanceSelfReset st v) s fun t => t.resetting v = true ∧ t.rd (.inst 2) .INST_STAT_FENCED v = 1 := by
  refine gives_granted hs rfl rfl hp fun _ _ => ?_
  have hb' : ((grant st (.tenant v)).run s).bound? v = true := hb
  simp only [selfReset, look_run, hb', when_true_run]
  exact instReset_starts (s := (grant st (.tenant v)).run s) hr

theorem resetDone_ends (v : ViId) (hr : s.resetting v = true) (htodo : (s.fifo .flushTodo v).isEmpty = true) (hfl : s.flushing
    v = false) (ht : s.tdi v = tdUNLOCKED) (hu : s.iv .unbindBy v = 0) (hw : s.iv .stopWaits v = 0) : Gives
    (.instanceResetDone v) s fun t => t.resetting v = false ∧ t.rd (.inst 2) .INST_STAT_EPOCH v = (s.rd (.inst 2)
    .INST_STAT_EPOCH v + 1) % 2 ^ 16 ∧ t.rd (.inst 2) .INST_STAT_FENCED v = 0 ∧ t.rd (.inst 2) .INST_STAT_RESET_DONE v = 1 ∧
    t.bound? v = s.bound? v := by
  refine gives_awake hs rfl fun _ _ => ?_
  have := Upd.keeps_fact
  have hrings : (forEach (s.viRings v) fun n => ringClear n .inst).In _ := forEach_in fun n => ringClear_in (Foot.le_refl _) n _
  have hstaging := clearStaging_in (Foot.le_refl _) v.val
  have hempty : s.fifo .flushTodo v = [] := by simpa using htodo
  have hnone : (flushSome (s.viFace v) (some v.val) v).run s = s := by simp [flushSome, hempty]
  have hnot : (tdUNLOCKED == tdERROR) = false := rfl
  simp only [look_run, all_cons_run, all_nil_run, hr, when_true_run, hnone, hfl, ht, hnot, Bool.not_false, Bool.and_self,
    Bool.false_and, b2n_false, State.ivOn, hu, hw, bne_self_eq_false, when_false_run]
  simp +decide [State.resetting, State.bound?, State.on, rd_of_in hstaging, rd_of_in hrings]
  rfl

theorem resetDone_unbinds (v : ViId) (c : Nat) (hr : s.resetting v = true) (htodo : (s.fifo .flushTodo v).isEmpty = true) (hfl
   : s.flushing v = false) (hc : c < 64) (hu : (s.iv .unbindBy v).testBit c = true) (hw : s.iv .stopWaits v = 0) : Gives
    (.instanceResetDone v) s fun t => t.bound? v = false ∧ t.iv .unbindBy v = 0 ∧ t.rdSt c (.inst 0) .INST_BIND_GO = 0 := by
  refine gives_awake hs rfl fun _ _ => ?_
  have := Upd.keeps_fact
  have hrings : (forEach (s.viRings v) fun n => ringClear n .inst).In _ := forEach_in fun n => ringClear_in (Foot.le_refl _) n _
  have hstaging := clearStaging_in (Foot.le_refl _) v.val
  have hempty : s.fifo .flushTodo v = [] := by simpa using htodo
  have hnone : (flushSome (s.viFace v) (some v.val) v).run s = s := by simp [flushSome, hempty]
  have hwaits : (s.iv .unbindBy v != 0) = true := by
    simp only [bne_iff_ne, ne_eq]
    intro h0
    simp [h0] at hu
  simp only [look_run, all_cons_run, all_nil_run, hr, when_true_run, hnone, hfl, Bool.not_false, Bool.and_self,
    State.ivOn, hwaits, hw, bne_self_eq_false, when_false_run]
  refine unbindNow_unbinds hc ?_
  simp +decide [iv_of_in hstaging, iv_of_in hrings, hu]

theorem flushTimeout_recorded (v : ViId) (hr : s.resetting v = true) (hany : (s.slots.any fun x => x.who == .inst v.val &&
    x.flush && x.st == slBUSY) = true) : Gives (.flushTimeout v) s fun t => t.rd (.inst 2) .INST_STAT_FLUSH_TO v = 1 ∧
    t.flushing v = false ∧ (t.rd (.inst 0) .ERR_STICKY_BITS).testBit Err.INST_FLUSH_TIMEOUT.bit = true ∧ t.resetting v = true
   := by
  refine gives_awake hs rfl fun _ _ => ?_
  have := Upd.keeps_fact
  obtain ⟨x, hx, hbusy⟩ := List.any_eq_true.1 hany
  simp only [look_run]
  generalize hdests : List.eraseDups (α := Nat) _ = dests
  have hne : dests ≠ [] := List.ne_nil_of_mem (a := x.dest) (hdests ▸ List.mem_eraseDups.2 (List.mem_append_left _
    (List.mem_map_of_mem (List.mem_filter.2 ⟨hx, hbusy⟩))))
  have hsome : dests.isEmpty = false := by simpa using hne
  have hraise : ∀ l : List Nat, (forEach l fun d => raiseAll (.inst 0)
      [{ err := .INST_FLUSH_TIMEOUT, dom := some (s.silent (s.viFace v) d), detail0 := d % 8192 }]).In _ :=
    fun l => forEach_in fun d => raiseAll_in rfl (Foot.le_refl _) _
  simp only [hr, hsome, Bool.not_false, Bool.and_self, when_true_run, all_cons_run, all_nil_run]
  refine ⟨?_, ?_, ?_, ?_⟩
  · simp +decide [rd_of_in (hraise dests)]
  · simp +decide [State.flushing, fifo_of_in (hraise dests), slots_of_in (hraise dests), abandon]
    intro y _
    split
    · exact fun _ _ h => absurd h (show ¬slABANDONED = slBUSY by decide)
    · next hn => exact fun hwho hflush hst => hn ⟨hst, hwho, hflush⟩
  · obtain ⟨d, l, rfl⟩ := List.exists_cons_of_ne_nil hne
    rw [forEach_cons_run]
    exact forEach_keepsSticky (pg := .inst 0) (fun d => raiseAll_keepsSticky rfl rfl _) _ Fact.out Err.INST_FLUSH_TIMEOUT.bit
      (raiseAll_sets rfl ⟨_, List.mem_singleton_self _, rfl⟩ (by decide))
  · have hr' : s.rd (.inst 2) .INST_STAT_RESETTING v ≠ 0 := by simpa [State.resetting, State.on] using hr
    simp +decide [State.resetting, State.on, rd_of_in (hraise dests)]
    exact hr'

theorem share_written (st : Stamp) (v : ViId) (w : Word) (hlock : s.locked (.inst 1) = false) (hp : s.pathOpen st = true) :
    Gives (.shareWrite st v w) s fun t => t.rd (.inst 1) .INST_SHARE_SHARE v = w.toNat % 4096 ∧ (t.rd (.inst 2)
    .INST_STAT_SUSPENDED v = (if w.toNat % 4096 = 0 then 1 else 0)) := by
  refine gives_granted hs rfl hlock hp fun _ _ => ?_
  have := Upd.keeps_fact
  have hcheck := tdiCheck_in (Foot.le_refl _)
  simp +decide [shareWrite, rd_of_in hcheck]
  refine ⟨rd_plainWrite st _ (by simp +decide) v.isLt (show 0x100 + v.val * 4 = _ by omega) rfl rfl, ?_⟩
  split <;> simp_all

end

/-- Settles O20: a binding writes its own entries, and a reset starts and ends once. -/
theorem instancesCompleteBindingAndReset : Obligations.InstancesCompleteBindingAndReset := by
  intro s hs
  exact ⟨bind_binds hs, bind_refused hs, bindAny_binds hs, unbind_starts hs, reset_starts hs, reset_refused hs,
    selfReset_starts hs, resetDone_ends hs, resetDone_unbinds hs, flushTimeout_recorded hs, share_written hs⟩

end Sys2Proof.Machine
end

section
/-! PROOF. Notices, doorbells and epochs (R567 to R580). -/

namespace Sys2Proof.Machine

set_option Elab.async false


variable {s : State}

/-! ### What a number outside the plates does not change -/

section
variable [Fact s.wf] {x : Var} (hx : x ≠ .plate) (n i : Nat)
include hx

theorem idRoute_put (k f : Nat) : ((put x n i).run s).idRoute? k f = s.idRoute? k f := by
  simp [State.idRoute?, State.entry, hx.symm]

theorem qOf_put (feid q : Nat) : ((put x n i).run s).qOf? feid q = s.qOf? feid q := by
  unfold State.qOf?
  rw [idRoute_put hx]
  rfl

theorem judge_put (q : Option Nat) (k f : Nat) : ((put x n i).run s).judge q k f = s.judge q k f := by
  unfold State.judge
  simp only [idRoute_put hx]
  rfl

end

/-! ### A notice is taken -/

section
variable [Fact s.wf]

/-- What follows the arrival of a notice. -/
theorem accept_grows (q : Nat) (n : Notice) : (((accept q n).run s).fifo .notices q).length = (s.fifo .notices q).length + 1 ∧
    ((accept q n).run s).cnt (.mbox 0) 0 = min (s.cnt (.mbox 0) 0 + 1) cntMax := by
  have := Upd.keeps_fact
  have hnext : (if s.ivOn .qArm q && s.on (.mbox 1) .MBOX_Q_CFG_DB_EN q then doorbell q else forSome (s.qFace? q) pmeSource).In
      (Foot.doorbell.and Foot.pmeSource) := by
    obtain ⟨h1, h2⟩ := Foot.and_le.1 (Foot.le_refl (Foot.doorbell.and Foot.pmeSource))
    exact ite_in (doorbell_in h1 q) (forSome_in fun f => pmeSource_in h2 f)
  simp +decide only [accept, look_run, all_cons_run, all_nil_run, fifo_of_in hnext, cnt_of_in hnext]
  simp +decide [push]

/-! ### The window of a VI -/

omit [Fact s.wf] in
theorem sender_vi {w : Nat} (hw : w < 1024) : 
    s.sender w = ⟨skINST, w, s.rd (.inst 3) .INST_VI_CFG_CFG1_FEID w, s.rd (.inst 2) .INST_STAT_EPOCH w⟩ := by
  simp [State.sender, hw]

/-! ### A post ends -/

theorem postEnds_win (w st c : Nat) : ((postEnds w st c).run s).iv .win (16 * w + 5) = c := by
  have := Upd.keeps_fact
  have haer : ∀ o : Option Nat, (forSome o fun f => emit (.aer f .service .completerAbort)).In { parts := [.out] } :=
    fun o => forSome_in fun f => emit_in (by decide)
  simp only [postEnds, look_run, all_cons_run, all_nil_run, iv_when]
  split
  · split <;> simp +decide [iv_of_in (haer _)]
  · simp

omit [Fact s.wf] in
theorem postEnds_ok (w st : Nat) : (postEnds w st poOK).run s = (put .win poOK (16 * w + 5)).run s := by
  simp [postEnds]

theorem postEnds_denied {w st c : Nat} (hw : w < 1024) (hc : c < 8) (hok : c ≠ poOK) (hpend : c ≠ poPENDING) : 
    ((postEnds w st c).run s).rd (.mbox 0) .MBOX_REJ_LOG_STATUS = c ∧ 
    (((postEnds w st c).run s).rd (.mbox 0) .ERR_STICKY_BITS).testBit Err.MBOX_POST_REJECT.bit = true := by
  have := Upd.keeps_fact
  have haer : ∀ o : Option Nat, (forSome o fun f => emit (.aer f .service .completerAbort)).In { parts := [.out] } :=
    fun o => forSome_in fun f => emit_in (by decide)
  have hgo : (c != poOK && c != poPENDING) = true := by simp [hok, hpend]
  have hvi : decide ((s.sender w).skind ≤ skINST) = true := by simp [sender_vi hw]
  simp only [postEnds, look_run, all_cons_run, all_nil_run, hgo, hvi, when_true_run]
  have hmod : c % 2 ^ Fld.MBOX_REJ_LOG_STATUS.width = c := Nat.mod_eq_of_lt hc
  split <;> simp +decide [rd_of_in (haer _), hmod]

/-- A doorbell that fires disarms. -/
theorem doorbell_disarms (q : Nat) : ((doorbell q).run s).iv .qArm q = 0 := by
  have := Upd.keeps_fact
  have hfire := fun f v => msixFire_in (Foot.le_refl _) f v
  have hpme := fun f => pmeSource_in (Foot.le_refl _) f
  simp only [doorbell, look_run, all_cons_run, all_nil_run]
  split <;> simp +decide [iv_of_in (hfire _ _), iv_of_in (hpme _)]

end

/-- The POST register of a window as a write leaves it names the receiver's FEID and queue. -/
theorem post_word (v : Nat) : (bits v 27 24 <<< 24 + v % 8192) % 8192 = v % 8192 ∧ bits (bits v 27 24 <<< 24 + v % 8192) 27 24 = bits v 27 24 := by
  simp only [bits, Nat.shiftLeft_eq, Nat.shiftRight_eq_div_pow]
  omega

/-- GO for a receiver of this switch: the notice is judged, taken when its status is OK, and the post ends with it. -/
theorem postNotice_local {w st q c : Nat} {r : IdRoute} (hpend : s.winPending w = false)
    (hroute : s.idRoute? s.live (s.winReg w 4 % 8192) = some r) (hkind : r.kind ≠ kindDevice) (hloc : r.isLocal = true)
    (hq : s.qOf? (s.winReg w 4 % 8192) (bits (s.winReg w 4) 27 24) = some q) (hj : s.judge (some q) (s.sender w).skind (s.sender w).sfeid = c) :
    ∃ n, (postNotice st w).run s = (postEnds w st c).run ((when_ (c == poOK) (accept q n)).run s) := by
  simp only [postNotice, look_run, hpend, hroute, hkind, hloc, hq, hj, beq_iff_eq, Bool.not_true, Bool.false_eq_true, if_false,
    all_cons_run, all_nil_run]
  exact ⟨_, rfl⟩

/-- GO for a receiver of another switch: the post waits for its outcome. -/
theorem postNotice_remote {w st : Nat} {r : IdRoute} (hpend : s.winPending w = false)
    (hroute : s.idRoute? s.live (s.winReg w 4 % 8192) = some r) (hkind : r.kind ≠ kindDevice) (hloc : r.isLocal = false) :
    ∃ n, (postNotice st w).run s = (sendMbox (s.sender w).sfeid (s.winReg w 4 % 8192) 40 (.notice n)).run 
      ((bump (.mbox 0) 6).run ((put .win poPENDING (16 * w + 5)).run ((push .posts (w + 2048 * st)).run s))) := by
  simp only [postNotice, look_run, hpend, hroute, hkind, hloc, beq_iff_eq, Bool.not_false, Bool.false_eq_true, if_false,
    if_true, all_cons_run, all_nil_run]
  exact ⟨_, rfl⟩

/-- The state in which a post of a VI's window is judged. -/
def posting (s : State) (st : Stamp) (i v : Nat) : State :=
  (put .win (bits v 27 24 <<< 24 + v % 8192) (16 * i + 4)).run ((grant st (.tenant i)).run s)

section
variable [Fact s.wf] (st : Stamp) (i v : Nat)

theorem posting_winReg : (posting s st i v).winReg i 4 = bits v 27 24 <<< 24 + v % 8192 := by
  have := Upd.keeps_fact
  simp [posting, State.winReg]

theorem posting_idRoute (k f : Nat) : (posting s st i v).idRoute? k f = s.idRoute? k f := by
  have := Upd.keeps_fact
  rw [posting, idRoute_put (by decide), grant, idRoute_put (by decide)]

theorem posting_qOf (f q : Nat) : (posting s st i v).qOf? f q = s.qOf? f q := by
  have := Upd.keeps_fact
  rw [posting, qOf_put (by decide), grant, qOf_put (by decide)]

theorem posting_judge (q : Option Nat) (k f : Nat) : (posting s st i v).judge q k f = s.judge q k f := by
  have := Upd.keeps_fact
  rw [posting, judge_put (by decide), grant, judge_put (by decide)]

omit [Fact s.wf] in
theorem noticePostWrite_run (hgo : v.testBit 31 = true) : (noticePostWrite st.code i v).run ((grant st (.tenant i)).run s) = 
    (postNotice st.code i).run (posting s st i v) := by
  simp only [noticePostWrite, all_cons_run, all_nil_run, hgo, when_true_run]
  rfl

end

section
variable [Fact s.wf] {st : Stamp} {i : ViId} {v : Word} {r : IdRoute} {q c : Nat} (hgo : v.getLsbD 31 = true) (hpend : s.winPending i = false)
  (hroute : s.idRoute? s.live (v.toNat % 8192) = some r) (hkind : r.kind ≠ kindDevice)
include hgo hpend hroute hkind

/-- A post of a VI to a receiver of this switch. -/
theorem post_local (hloc : r.isLocal = true) (hq : s.qOf? (v.toNat % 8192) (bits v.toNat 27 24) = some q)
    (hj : s.judge (some q) skINST (s.rd (.inst 3) .INST_VI_CFG_CFG1_FEID i) = c) : 
    ∃ n, (noticePostWrite st.code i v.toNat).run ((grant st (.tenant i)).run s) =
      (postEnds i st.code c).run ((when_ (c == poOK) (accept q n)).run (posting s st i v.toNat)) := by
  obtain ⟨hfeid, hqueue⟩ := post_word v.toNat
  rw [noticePostWrite_run _ _ _ (by rwa [BitVec.testBit_toNat])]
  refine postNotice_local hpend ?_ hkind hloc ?_ ?_
  · rw [posting_winReg, hfeid, posting_idRoute]
    exact hroute
  · rw [posting_winReg, hfeid, hqueue, posting_qOf, hq]
  · rw [sender_vi i.isLt, posting_judge]
    exact hj

end

section
variable {s : State} (hs : s.Awake)
include hs

theorem post_taken (st : Stamp) (i : ViId) (v : Word) (r : IdRoute) (q : Nat) (hgo : v.getLsbD 31 = true) (hpend :
    s.winPending i = false) (hroute : s.idRoute? s.live (v.toNat % 8192) = some r) (hkind : r.kind ≠ kindDevice) (hloc :
    r.isLocal = true) (hq : s.qOf? (v.toNat % 8192) (bits v.toNat 27 24) = some q) (hj : s.judge (some q) skINST (s.rd (.inst
    3) .INST_VI_CFG_CFG1_FEID i) = poOK) (hp : s.pathOpen st = true) : Gives (.noticePost st (.tenant i) v) s fun t => (t.fifo
    .notices q).length = (s.fifo .notices q).length + 1 ∧ t.iv .win (16 * i + 5) = poOK ∧ t.cnt (.mbox 0) 0 = min (s.cnt
    (.mbox 0) 0 + 1) cntMax := by
  refine gives_granted hs rfl rfl hp fun _ _ => ?_
  have := Upd.keeps_fact
  obtain ⟨n, hrun⟩ := post_local hgo hpend hroute hkind hloc hq hj (st := st)
  have hfact : Fact (posting s st i v.toNat).wf := Upd.keeps_fact ..
  have hends := postEnds_in (Foot.le_refl _) i st.code poOK
  obtain ⟨hlen, hcnt⟩ := accept_grows (s := posting s st i v.toNat) q n
  simp only [winCode, hrun, beq_self_eq_true, when_true_run]
  refine ⟨?_, postEnds_win .., ?_⟩
  · rw [fifo_of_in hends (by decide), hlen]
    rfl
  · rw [postEnds_ok]
    exact hcnt

theorem post_denied (st : Stamp) (i : ViId) (v : Word) (r : IdRoute) (q : Nat) (hgo : v.getLsbD 31 = true) (hpend :
    s.winPending i = false) (hroute : s.idRoute? s.live (v.toNat % 8192) = some r) (hkind : r.kind ≠ kindDevice) (hloc :
    r.isLocal = true) (hq : s.qOf? (v.toNat % 8192) (bits v.toNat 27 24) = some q) (hj : s.judge (some q) skINST (s.rd (.inst
    3) .INST_VI_CFG_CFG1_FEID i) = poDENIED) (hp : s.pathOpen st = true) : Gives (.noticePost st (.tenant i) v) s fun t =>
    t.fifo .notices q = s.fifo .notices q ∧ t.iv .win (16 * i + 5) = poDENIED ∧ t.rd (.mbox 0) .MBOX_REJ_LOG_STATUS = poDENIED
    ∧ (t.rd (.mbox 0) .ERR_STICKY_BITS).testBit Err.MBOX_POST_REJECT.bit = true := by
  refine gives_granted hs rfl rfl hp fun _ _ => ?_
  have := Upd.keeps_fact
  obtain ⟨n, hrun⟩ := post_local hgo hpend hroute hkind hloc hq hj (st := st)
  have hfact : Fact (posting s st i v.toNat).wf := Upd.keeps_fact ..
  have hends := postEnds_in (Foot.le_refl _) i st.code poDENIED
  obtain ⟨hstat, hsticky⟩ := postEnds_denied (s := posting s st i v.toNat) (st := st.code) (c := poDENIED) i.isLt (by decide) (by decide) (by decide)
  have hno : (poDENIED == poOK) = false := rfl
  simp only [winCode, hrun, hno, when_false_run]
  refine ⟨?_, postEnds_win .., hstat, hsticky⟩
  rw [fifo_of_in hends (by decide)]
  rfl

theorem post_remote (st : Stamp) (i : ViId) (v : Word) (r : IdRoute) (hgo : v.getLsbD 31 = true) (hpend : s.winPending i =
    false) (hroute : s.idRoute? s.live (v.toNat % 8192) = some r) (hkind : r.kind ≠ kindDevice) (hloc : r.isLocal = false) (hp
   : s.pathOpen st = true) : Gives (.noticePost st (.tenant i) v) s fun t => t.fifo .posts = s.fifo .posts ++ [i + 2048 *
    st.code] ∧ t.iv .win (16 * i + 5) = poPENDING ∧ t.cnt (.mbox 0) 6 = min (s.cnt (.mbox 0) 6 + 1) cntMax := by
  refine gives_granted hs rfl rfl hp fun _ _ => ?_
  have := Upd.keeps_fact
  obtain ⟨hfeid, -⟩ := post_word v.toNat
  have hfact : Fact (posting s st i v.toNat).wf := Upd.keeps_fact ..
  obtain ⟨n, hrun⟩ := postNotice_remote (s := posting s st i v.toNat) (st := st.code) (w := i) hpend
    (by rw [posting_winReg, hfeid, posting_idRoute]; exact hroute) hkind hloc
  have hsend := fun a b c d => sendMbox_in (Foot.le_refl _) a b c d
  rw [winCode, noticePostWrite_run _ _ _ (by rwa [BitVec.testBit_toNat]), hrun]
  simp +decide [push, fifo_of_in (hsend _ _ _ _), cnt_of_in (hsend _ _ _ _), iv_of_in (hsend _ _ _ _)]
  exact ⟨rfl, rfl⟩

theorem frame_taken (src dest : Feid) (w : SwId) (n : Notice) (x : Fin 16) (q : Nat) (hfeid : n.sfeid = src.toNat) (hsw :
    n.ssw = w) (hq : s.qOf? dest.toNat x = some q) (hj : s.judge (some q) n.skind n.sfeid = poOK) : Gives
    (.noticeFrameReceived src dest w n x) s fun t => (t.fifo .notices q).length = (s.fifo .notices q).length + 1 ∧ t.cnt
    (.mbox 0) 0 = min (s.cnt (.mbox 0) 0 + 1) cntMax := by
  refine gives_awake hs rfl fun _ _ => ?_
  have := Upd.keeps_fact
  have hsend := fun b => sendMbox_in (Foot.le_refl _) dest.toNat src.toNat 8 b
  have hgo : (n.sfeid != src.toNat || n.ssw != w) = false := by simp [hfeid, hsw]
  obtain ⟨hlen, hcnt⟩ := accept_grows (s := s) q n
  simp +decide [hgo, hq, hj, fifo_of_in (hsend _), cnt_of_in (hsend _), hlen, hcnt]

theorem frame_forged (src dest : Feid) (w : SwId) (n : Notice) (x : Fin 16) (q : Nat) (hfeid : n.sfeid ≠ src.toNat) : Gives
    (.noticeFrameReceived src dest w n x) s fun t => t.fifo .notices q = s.fifo .notices q ∧ (t.rd (.mbox 0)
    .ERR_STICKY_BITS).testBit Err.MBOX_FORGED.bit = true := by
  refine gives_awake hs rfl fun _ _ => ?_
  have hbad : (n.sfeid != src.toNat || n.ssw != w) = true := by simp [hfeid]
  simp +decide [hbad]

theorem outcome_received (x : Fin 7) (i : ViId) (n : Feid) (hx : x.val ≠ poPENDING) (hposts : s.fifo .posts = [i.val]) (hfeid
   : s.rd (.inst 3) .INST_VI_CFG_CFG1_FEID i = n.toNat) : Gives (.noticeOutcomeReceived x 1 i n) s fun t => t.fifo .posts =
    [] ∧ t.iv .win (16 * i + 5) = x := by
  refine gives_awake hs rfl fun _ _ => ?_
  have := Upd.keeps_fact
  have hmod : i.val % 2048 = i.val := Nat.mod_eq_of_lt (by omega)
  have hends := postEnds_in (Foot.le_refl _) i.val (i.val / 2048) x
  have hgo : (x.val != poPENDING) = true := by simpa using hx
  simp only [look_run, hgo, when_true_run, hposts, List.find?_cons, hmod, sender_vi i.isLt, hfeid]
  simp +decide [skINST, fifo_of_in hends, hmod, postEnds_win]

theorem outcome_timeout (st : Stamp) (w : NWin) (e : Nat) (he : (s.fifo .posts).find? (fun e => e % 2048 == winCode w st) =
    some e) (_ : s.pathOpen st = true) : Gives (.noticeOutcomeTimeout st w) s fun t => t.fifo .posts = (s.fifo .posts).erase e
    ∧ t.iv .win (16 * winCode w st + 5) = poNO_ROUTE := by
  refine gives_awake hs rfl fun _ _ => ?_
  have := Upd.keeps_fact
  have hcode : e % 2048 = winCode w st := by simpa using List.find?_some he
  have hends := postEnds_in (Foot.le_refl _) (e % 2048) (e / 2048) poNO_ROUTE
  simp only [look_run, he, forSome_some_run, all_cons_run, all_nil_run]
  refine ⟨?_, ?_⟩
  · simp +decide [fifo_of_in hends]
  · rw [← hcode, postEnds_win]

theorem read_pops (st : Stamp) (f : FaceId) (x : Nat) (r : List Nat) (hn : s.fifo .notices (1024 + f) = x :: r) (hp :
    s.pathOpen st = true) : Gives (.noticeRead st (.face f)) s fun t => t.fifo .notices (1024 + f) = r ∧ t.out.head? = some
    (Out.value st (dword x 0)) ∧ t.cnt (.mbox 0) 7 = min (s.cnt (.mbox 0) 7 + 1) cntMax := by
  refine gives_awake hs rfl fun _ _ => ?_
  have := Upd.keeps_fact
  simp +decide [onPath, hp, winPage, State.winQueue?, noticePop, grant, hn, popFifo, heldCode, State.heldDword]

theorem read_empty (st : Stamp) (f : FaceId) (hn : s.fifo .notices (1024 + f) = []) (hp : s.pathOpen st = true) : Gives
    (.noticeRead st (.face f)) s fun t => t.out = Out.value st 0 :: s.out := by
  refine gives_awake hs rfl fun _ _ => ?_
  have := Upd.keeps_fact
  simp +decide [onPath, hp, winPage, State.winQueue?, noticePop, grant, hn, popFifo, heldCode, State.heldDword]

theorem arm_arms (st : Stamp) (f : FaceId) (hn : s.fifo .notices (1024 + f) = []) (hp : s.pathOpen st = true) : Gives
    (.doorbellArm st (.face f)) s fun t => t.iv .qArm (1024 + f) = 1 ∧ t.out = s.out := by
  refine gives_awake hs rfl fun _ _ => ?_
  simp only [winGranted, winPage, granting_run hp]
  simp +decide [arm, State.winQueue?, grant, hn]

theorem arm_fires (st : Stamp) (f : FaceId) (hn : (s.fifo .notices (1024 + f)).isEmpty = false) (hen : s.on (.mbox 1)
    .MBOX_Q_CFG_DB_EN (1024 + f) = true) (hp : s.pathOpen st = true) : Gives (.doorbellArm st (.face f)) s fun t => t.iv .qArm
    (1024 + f) = 0 := by
  refine gives_awake hs rfl fun _ _ => ?_
  have := Upd.keeps_fact
  simp only [winGranted, winPage, granting_run hp]
  simp +decide [arm, State.winQueue?, grant, hn, hen, doorbell_disarms]

theorem epoch_asked (st : Stamp) (i : ViId) (v : Word) (hp : s.pathOpen st = true) : Gives (.epochQuery st (.tenant i) v) s
    fun t => t.iv .win (16 * i + 6) = v.toNat % 8192 ∧ t.regs = s.regs := by
  refine gives_granted hs rfl rfl hp fun _ _ => ?_
  simp [winCode, grant]

end

/-- Settles O26: a post ends with the status that Table MBOX-5 gives, and a notice that is taken stands in its queue. -/
theorem noticesComplete : Obligations.NoticesComplete := by
  intro s hs
  exact ⟨post_taken hs, post_denied hs, post_remote hs, frame_taken hs, frame_forged hs, outcome_received hs, outcome_timeout
    hs, read_pops hs, read_empty hs, arm_arms hs, arm_fires hs, epoch_asked hs⟩

end Sys2Proof.Machine
end

section
/-! PROOF. Lockstep, the watchdog and MCTP control (R692 to R699). -/

namespace Sys2Proof.Machine

set_option Elab.async false


variable {s : State}

/-- The restarts of the last minute are fewer than the limit, whatever the time. -/
theorem recent_lt {n : Nat} {l : List Nat} (p : Nat → Bool) (h : l.length < n) : ¬n ≤ (l.filter p).length := by
  have := List.length_filter_le p l
  omega

section
variable [Fact s.wf]

/-- Firmware that may restart does. -/
theorem fwRestart_restarts (h : (s.fifo .fwTimes).length < max 1 (s.rd (.mgmt 0) .MGMT_FW_STAT_RESTART_LIMIT)) :
    (fwRestart.run s).rd (.mgmt 0) .MGMT_FW_STAT_STATE = fsRESTARTING ∧ (fwRestart.run s).iv .fwEpoch = (s.iv .fwEpoch + 1) % 65536 ∧
    (fwRestart.run s).cnt (.mgmt 0) 0 = min (s.cnt (.mgmt 0) 0 + 1) cntMax ∧
    (fwRestart.run s).rd (.mgmt 0) .MGMT_FW_STAT_RESTARTS = min 255 (s.rd (.mgmt 0) .MGMT_FW_STAT_RESTARTS + 1) ∧
    (fwRestart.run s).rd (.mgmt 0) .ERR_STICKY_BITS = s.rd (.mgmt 0) .ERR_STICKY_BITS ∧
    ∀ i, i ≠ 0 → (fwRestart.run s).cnt (.mgmt 0) i = s.cnt (.mgmt 0) i := by
  have := Upd.keeps_fact
  have hsems := semsOf_in (Foot.le_refl _) fun o => 0x20 ≤ o && o ≤ 0x22
  simp only [fwRestart, look_run, if_neg (recent_lt _ h)]
  simp +decide [firmwareStarts, modIv, rd_of_in hsems, iv_of_in hsems, cnt_of_in hsems]
  exact ⟨Nat.mod_eq_of_lt (by show _ < 256; omega), fun i hi h0 => absurd h0 hi⟩

/-- The same after the error and the counter of what asks for it. -/
theorem fwRestart_after (h : (s.fifo .fwTimes).length < max 1 (s.rd (.mgmt 0) .MGMT_FW_STAT_RESTART_LIMIT)) {e : Err} (he : e.bit < 32)
    {k : Nat} (hk : k ≠ 0) {t : State} (ht : t = (bump (.mgmt 0) k).run ((raise (.mgmt 0) e).run s)) :
    (fwRestart.run t).rd (.mgmt 0) .MGMT_FW_STAT_STATE = fsRESTARTING ∧ (fwRestart.run t).iv .fwEpoch = (s.iv .fwEpoch + 1) % 65536 ∧
    (fwRestart.run t).cnt (.mgmt 0) 0 = min (s.cnt (.mgmt 0) 0 + 1) cntMax ∧
    (fwRestart.run t).rd (.mgmt 0) .MGMT_FW_STAT_RESTARTS = min 255 (s.rd (.mgmt 0) .MGMT_FW_STAT_RESTARTS + 1) ∧
    ((fwRestart.run t).rd (.mgmt 0) .ERR_STICKY_BITS).testBit e.bit = true ∧ 
    (fwRestart.run t).cnt (.mgmt 0) k = min (s.cnt (.mgmt 0) k + 1) cntMax := by
  have := Upd.keeps_fact
  subst ht
  obtain ⟨hst, hepoch, hcnt, hnum, hsticky, hcnts⟩ := fwRestart_restarts (s := (bump (.mgmt 0) k).run ((raise (.mgmt 0) e).run s))
    (by simpa +decide using h)
  rw [hst, hepoch, hcnt, hnum, hsticky, hcnts k hk]
  simp +decide [he, hk.symm]

end

/-- Running firmware stands in a slot. -/
theorem fw_there (h : s.fwRuns = true) : (s.rd .glb .GLB_DEV_STATE_FW_SLOT != 3) = true := by
  simp only [State.fwRuns, Bool.and_eq_true] at h
  exact h.2

section
variable {s : State} (hs : s.Awake)
include hs

theorem lockstep_restarts (k : Fin 2) (hfw : s.fwRuns = true) (hlim : (s.fifo .fwTimes).length < max 1 (s.rd (.mgmt 0)
    .MGMT_FW_STAT_RESTART_LIMIT)) : Gives (.lockstepMismatch k) s fun t => t.rd (.mgmt 0) .MGMT_FW_STAT_STATE = fsRESTARTING ∧
    t.iv .fwEpoch = (s.iv .fwEpoch + 1) % 65536 ∧ t.cnt (.mgmt 0) 0 = min (s.cnt (.mgmt 0) 0 + 1) cntMax ∧ t.rd (.mgmt 0)
    .MGMT_FW_STAT_RESTARTS = min 255 (s.rd (.mgmt 0) .MGMT_FW_STAT_RESTARTS + 1) ∧ (t.rd (.mgmt 0) .ERR_STICKY_BITS).testBit
    Err.MGMT_LOCKSTEP.bit = true ∧ t.cnt (.mgmt 0) 1 = min (s.cnt (.mgmt 0) 1 + 1) cntMax := by
  refine gives_awake hs rfl fun _ _ => ?_
  have := Upd.keeps_fact
  simp only [look_run, all_cons_run, all_nil_run, hfw, when_true_run]
  exact fwRestart_after hlim (e := .MGMT_LOCKSTEP) (by decide) (k := 1) (by decide) rfl

theorem lockstep_noted (k : Fin 2) (hfw : s.fwRuns = false) : Gives (.lockstepMismatch k) s fun t => (t.rd (.mgmt 0)
    .ERR_STICKY_BITS).testBit Err.MGMT_LOCKSTEP.bit = true ∧ t.cnt (.mgmt 0) 1 = min (s.cnt (.mgmt 0) 1 + 1) cntMax ∧ t.rd
    (.mgmt 0) .MGMT_FW_STAT_STATE = s.rd (.mgmt 0) .MGMT_FW_STAT_STATE := by
  refine gives_awake hs rfl fun _ _ => ?_
  simp +decide [hfw]

theorem watchdog_restarts (hfw : s.fwRuns = true) (hlim : (s.fifo .fwTimes).length < max 1 (s.rd (.mgmt 0)
    .MGMT_FW_STAT_RESTART_LIMIT)) : Gives (.watchdogExpiry) s fun t => t.rd (.mgmt 0) .MGMT_FW_STAT_STATE = fsRESTARTING ∧
    t.iv .fwEpoch = (s.iv .fwEpoch + 1) % 65536 ∧ t.cnt (.mgmt 0) 0 = min (s.cnt (.mgmt 0) 0 + 1) cntMax ∧ t.rd (.mgmt 0)
    .MGMT_FW_STAT_RESTARTS = min 255 (s.rd (.mgmt 0) .MGMT_FW_STAT_RESTARTS + 1) ∧ (t.rd (.mgmt 0) .ERR_STICKY_BITS).testBit
    Err.MGMT_WD_EXPIRE.bit = true ∧ t.cnt (.mgmt 0) 2 = min (s.cnt (.mgmt 0) 2 + 1) cntMax := by
  refine gives_awake hs rfl fun _ _ => ?_
  have := Upd.keeps_fact
  simp only [look_run, fw_there hfw, all_cons_run, all_nil_run, hfw, when_true_run]
  exact fwRestart_after hlim (e := .MGMT_WD_EXPIRE) (by decide) (k := 2) (by decide) rfl

theorem watchdog_dead (hfw : s.fwRuns = true) (hrecent : (∀ x ∈ s.fifo .fwTimes, s.now < x + minute)) (hlim : max 1 (s.rd
    (.mgmt 0) .MGMT_FW_STAT_RESTART_LIMIT) ≤ (s.fifo .fwTimes).length) : Gives (.watchdogExpiry) s fun t => t.rd (.mgmt 0)
    .MGMT_FW_STAT_STATE = fsDEAD ∧ (t.rd (.mgmt 0) .ERR_STICKY_BITS).testBit Err.MGMT_FW_DEAD.bit = true ∧ t.fwRuns = false :=
    by
  refine gives_awake hs rfl fun _ _ => ?_
  have := Upd.keeps_fact
  have hall : (s.fifo .fwTimes).filter (fun t => s.now < t + minute) = s.fifo .fwTimes :=
    List.filter_eq_self.2 fun x hx => decide_eq_true (hrecent x hx)
  simp only [look_run, fw_there hfw, all_cons_run, all_nil_run, hfw, when_true_run, fwRestart]
  simp +decide [State.fwRuns, hall, hlim]

theorem watchdog_kicked (st : Stamp) (v : Word) (hlock : s.locked (.mgmt 0) = false) (hkey : bits v.toNat 31 16 = 0x57A7) (hgo
   : v.getLsbD 15 = true) (hp : s.pathOpen st = true) : Gives (.watchdogKick st v) s fun t => t.iv .wdAt = s.now ∧ t.rd
    (.mgmt 0) .MGMT_WD_TIMEOUT_MS = v.toNat % 1024 := by
  refine gives_granted hs rfl hlock hp fun _ _ => ?_
  simp +decide [wdWrite, hkey, hgo, BitVec.testBit_toNat, grant]
  rfl

theorem eid_set (k : Fin 4) (e : BitVec 8) (hen : s.on (.mgmt 2) .MGMT_SMB_CFG_EN k = true) (hfw : s.fwRuns = true) (h0 : e ≠
    0) (hff : e ≠ 0xFF) : Gives (.setEndpointId k e) s fun t => t.iv .mctpEid = e.toNat ∧ t.out.head? = some (Out.mctpControl
    k 1 [e.toNat]) ∧ t.cnt (.mgmt 0) 5 = min (s.cnt (.mgmt 0) 5 + 1) cntMax := by
  refine gives_awake hs rfl fun _ _ => ?_
  simp +decide [mctpIn, hen, hfw]
  exact fun h => absurd (h h0) hff

theorem eid_refused (k : Fin 4) (hen : s.on (.mgmt 2) .MGMT_SMB_CFG_EN k = true) (hfw : s.fwRuns = true) : Gives
    (.setEndpointId k 0xFF) s fun t => t.iv .mctpEid = s.iv .mctpEid ∧ t.out.head? = some (Out.mctpControl k 1 [s.iv
    .mctpEid]) := by
  refine gives_awake hs rfl fun _ _ => ?_
  simp +decide [mctpIn, hen, hfw]

theorem eid_read (k : Fin 4) (hen : s.on (.mgmt 2) .MGMT_SMB_CFG_EN k = true) (hfw : s.fwRuns = true) : Gives (.getEndpointId
    k) s fun t => t.out.head? = some (Out.mctpControl k 2 [s.iv .mctpEid]) ∧ t.cnt (.mgmt 0) 5 = min (s.cnt (.mgmt 0) 5 + 1)
    cntMax := by
  refine gives_awake hs rfl fun _ _ => ?_
  simp +decide [mctpIn, hen, hfw]

theorem version_read (k : Fin 4) (y : BitVec 8) (hen : s.on (.mgmt 2) .MGMT_SMB_CFG_EN k = true) (hfw : s.fwRuns = true) :
    Gives (.getMctpVersionSupport k y) s fun t => t.out.head? = some (Out.mctpControl k 4 [y.toNat, (Config.freeWord
    s.free).toNat]) ∧ t.free = s.free + 1 := by
  refine gives_awake hs rfl fun _ _ => ?_
  simp +decide [mctpIn, hen, hfw, drawWord]

theorem types_read (k : Fin 4) (hen : s.on (.mgmt 2) .MGMT_SMB_CFG_EN k = true) (hfw : s.fwRuns = true) : Gives
    (.getMessageTypeSupport k) s fun t => t.out.head? = some (Out.mctpControl k 5 [0x00, 0x05, 0x06, 0x7F]) ∧ t.cnt (.mgmt 0)
    5 = min (s.cnt (.mgmt 0) 5 + 1) cntMax := by
  refine gives_awake hs rfl fun _ _ => ?_
  simp +decide [mctpIn, hen, hfw]

theorem unsupported_counted (k : Fin 4) (hen : s.on (.mgmt 2) .MGMT_SMB_CFG_EN k = true) (hfw : s.fwRuns = true) : Gives
    (.mctpUnsupported k) s fun t => t.cnt (.mgmt 0) 5 = min (s.cnt (.mgmt 0) 5 + 1) cntMax ∧ t.cnt (.mgmt 0) 6 = min (s.cnt
    (.mgmt 0) 6 + 1) cntMax := by
  refine gives_awake hs rfl fun _ _ => ?_
  simp +decide [mctpIn, hen, hfw]

end

/-- Settles O35: a restart of firmware, or FW_DEAD at its limit, and one lemma for each message. -/
theorem firmwareAndMctpComplete : Obligations.FirmwareAndMctpComplete := by
  intro s hs
  exact ⟨lockstep_restarts hs, lockstep_noted hs, watchdog_restarts hs, watchdog_dead hs, watchdog_kicked hs, eid_set hs,
    eid_refused hs, eid_read hs, version_read hs, types_read hs, unsupported_counted hs⟩

end Sys2Proof.Machine
end

section
/-! PROOF. Tokens (R637 to R639, R718) and page locks (R641, R643). -/

namespace Sys2Proof.Machine

set_option Elab.async false


variable {s : State}

/-! ### What the checks read -/

/-- The numbers that the checks of Table SEC-13 read. -/
def checkVars : List Var := [.devId, .ownKey, .ownRec, .romKey]

/-- The checks of a token read registers, the identity and ownership, and the arbitration epochs. -/
theorem tokenStatus_congr {t : State} (hrd : ∀ pg f i, t.rd pg f i = s.rd pg f i) (hiv : ∀ x ∈ checkVars, ∀ i, t.iv x i = s.iv x i)
    (harb : t.arb = s.arb) (n : Nat) : t.tokenStatus n = s.tokenStatus n := by
  have hkey : ∀ k, t.ownerKey? k = s.ownerKey? k := fun k => by simp only [State.ownerKey?, hiv .ownKey (by decide)]
  have howned : t.owned = s.owned := by simp only [State.owned, hkey]
  have hon : ∀ pg f i, t.on pg f i = s.on pg f i := fun pg f i => congrArg (· != 0) (hrd pg f i)
  have harbAt : ∀ k, t.arbAt k = s.arbAt k := fun k => by simp only [State.arbAt, harb]
  simp only [State.tokenStatus, State.tokenFormat, State.nonce, State.tokenSigned, State.tokenAllowed, State.tokenArg, State.debugState,
    hkey, howned, hon, harbAt, hrd, hiv .devId (by decide), hiv .romKey (by decide), hiv .ownRec (by decide)]

/-! ### A submission -/

/-- The state in which the token of stamp `st` runs and is not yet checked. -/
def submitted (s : State) (st : Stamp) : State := (tokenGo st.code).run ((grant st (.sec 0)).run s)

section
variable [Fact s.wf] {st : Stamp} (hrun : s.iv .tokRun = 0)
include hrun

theorem submitted_eq : submitted s st = (wrSt st.code (.sec 0) .SEC_TOKEN_CTRL_GO 1).run ((put .tokRes 0).run ((put .tokRaw (s.tokenOf st.code)).run
    ((put .tokRun (st.code + 1)).run ((grant st (.sec 0)).run s)))) := by
  have hidle : ((grant st (.sec 0)).run s).ivOn .tokRun = false := by
    simp [State.ivOn, grant, hrun]
  have htok : ((grant st (.sec 0)).run s).tokenOf st.code = s.tokenOf st.code := rfl
  simp only [submitted, tokenGo, look_run, hidle, htok, Bool.false_eq_true, if_false, all_cons_run, all_nil_run]

theorem submitted_iv {x : Var} (hx : x ∉ [Var.tokRun, .tokRaw, .tokRes, .arbLast]) (i : Nat) : (submitted s st).iv x i = s.iv x i := by
  have := Upd.keeps_fact
  simp only [List.mem_cons, List.not_mem_nil, or_false, not_or] at hx
  rw [submitted_eq hrun]
  simp [grant, hx]

/-- A token that is submitted is checked, and takes effect when every check passes. -/
theorem tokenSubmit_run {op v : Nat} (hgo : v.testBit 31 = true) (hlock : s.locked (.sec 0) = false) (hop : tokenOp (s.tokenOf st.code) = op)
    (hp : s.pathOpen st = true) : (tokenSubmit op st v).run s =
      (when_ (s.tokenStatus (s.tokenOf st.code) == tkOK) (tokenEffect (s.tokenOf st.code))).run
        ((put .tokRes (s.tokenStatus (s.tokenOf st.code))).run (submitted s st)) := by
  have := Upd.keeps_fact
  have hidle : s.ivOn .tokRun = false := by simp [State.ivOn, hrun]
  have hraw : (submitted s st).iv .tokRaw = s.tokenOf st.code := by
    rw [submitted_eq hrun]
    simp
  have hgoes : ((submitted s st).ivOn .tokRun && !(submitted s st).ivOn .tokRes) = true := by
    simp only [State.ivOn]
    rw [submitted_eq hrun]
    simp
  have hstat : (submitted s st).tokenStatus (s.tokenOf st.code) = s.tokenStatus (s.tokenOf st.code) := by
    refine tokenStatus_congr (fun pg f i => ?_) (fun x hx i => submitted_iv hrun ?_ i) ?_ _
    · rw [submitted_eq hrun]
      simp [grant]
    · exact (by decide : ∀ x ∈ checkVars, x ∉ [Var.tokRun, .tokRaw, .tokRes, .arbLast]) x hx
    · rw [submitted_eq hrun]
      simp [grant]
  have hpass : (v.testBit 31 && tokenOp (s.tokenOf st.code) == op) = true := by simp [hgo, hop]
  simp only [tokenSubmit, look_run, hpass, when_true_run, hidle, Bool.false_eq_true, if_false]
  rw [granted_run hlock hp]
  show tokenProcess.run (submitted s st) = _
  simp only [tokenProcess, look_run, hgoes, when_true_run, hraw, hstat, all_cons_run, all_nil_run]

end

/-- A command that submits a token gives what the token's effect leaves of the state it runs in. -/
theorem gives_effect {i : Instr} {P : State → Prop} {st : Stamp} {v : Word} {op : Nat} {u : Upd} (hs : s.Awake)
    (he : exec i s = (tokenSubmit op st v.toNat).answer s) (hgo : v.getLsbD 31 = true) (hlock : s.locked (.sec 0) = false)
    (hrun : s.iv .tokRun = 0) (hop : tokenOp (s.tokenOf st.code) = op) (hok : s.tokenStatus (s.tokenOf st.code) = tkOK)
    (hp : s.pathOpen st = true) (hu : tokenEffect (s.tokenOf st.code) = u) (h : ∀ t, Fact t.wf → t.iv .ownRec = s.iv .ownRec →
      (∀ pg f i, t.rd pg f i = s.rd pg f i) → (∀ k, t.arbAt k = s.arbAt k) → (u.run t).iv .tokRes = tkOK → (u.run t).iv .tokRun = st.code + 1 →
      (u.run t).rdSt st.code (.sec 0) .SEC_TOKEN_CTRL_GO = 1 → P (u.run t)) : Gives i s P := by
  refine gives_awake hs he fun hw _ => ?_
  have := Upd.keeps_fact
  have hrun' := tokenSubmit_run hrun ((BitVec.testBit_toNat v).trans hgo) hlock hop hp
  rw [hok, hu] at hrun'
  rw [show (tokenSubmit op st v.toNat).run s = u.run ((put .tokRes tkOK).run (submitted s st)) from hrun']
  have hfact : Fact (submitted s st).wf := Upd.keeps_fact ..
  have heff : u.In Foot.tokenEffect := hu ▸ tokenEffect_in (Foot.le_refl _) (s.tokenOf st.code)
  refine h _ inferInstance ?_ (fun pg f i => ?_) (fun k => ?_) ?_ ?_ ?_
  · simp [submitted_iv hrun]
  · rw [submitted_eq hrun]
    simp [grant]
  · rw [submitted_eq hrun]
    simp [grant, State.arbAt]
  · rw [iv_of_in heff (by decide)]
    simp
  · rw [iv_of_in heff (by decide), submitted_eq hrun]
    simp
  · rw [rdSt_of_in heff (by decide) (by decide), submitted_eq hrun]
    simp +decide

/-! ### The effects -/

/-- A token that passes every check has a valid argument. -/
theorem tokenArg_of_ok {n : Nat} (h : s.tokenStatus n = tkOK) : s.tokenArg n = true := by
  cases harg : s.tokenArg n
  · simp only [State.tokenStatus, harg, Bool.not_false, if_true] at h
    repeat' split at h
    all_goals exact absurd h (by decide)
  · rfl


section
variable [Fact s.wf]

/-- A new ownership record is the next one, with the keys given. -/
theorem newRecord_writes (ks : List Nat) : ((newRecord ks).run s).iv .ownRec = s.iv .ownRec + 1 ∧
    (∀ k < 4, ((newRecord ks).run s).iv .ownKey k = ks.getD k 0) ∧
    (((newRecord ks).run s).rd (.sec 0) .ERR_STICKY_BITS).testBit Err.SEC_OWNER_CHANGED.bit = true := by
  have := Upd.keeps_fact
  have hstale : (forBelow 96 fun p => when_ (s.on (.sched p) .SCHED_HATCH_VERIFY_BUSY) (put .sigStale 1 (1 + p))).In { vars := [.sigStale] } :=
    forBelow_in fun p => when_in (put_in (by decide))
  have hkeys : (forBelow 4 fun k => put .ownKey (ks.getD k 0) k).In { vars := [.ownKey] } := forBelow_in fun k => put_in (by decide)
  have hkey : ∀ k < 4, ∀ t : State, [Fact t.wf] → ((forBelow 4 fun k => put .ownKey (ks.getD k 0) k).run t).iv .ownKey k = ks.getD k 0 := by
    intro k hk t _
    exact forBelow_reaches (P := fun _ => True) (Q := fun t => t.iv .ownKey k = ks.getD k 0) hk (fun _ _ _ _ _ => trivial) (fun t _ _ => by simp)
      (fun j hj t _ h => by simpa [hj.symm] using h) t trivial
  simp only [newRecord, look_run, all_cons_run, all_nil_run]
  refine ⟨?_, fun k hk => ?_, ?_⟩
  · simp +decide only [raise_eq, iv_raiseAll, iv_of_in hstale, iv_when, iv_put, iv_of_in hkeys]
    simp
  · simp +decide only [raise_eq, iv_raiseAll, iv_of_in hstale, iv_when, iv_put, hkey k hk]
    simp
  · simp +decide

theorem lock_mem {pg : Pg} (hc : pg.common = true) : Fld.PAGE_LOCK_LOCKED ∈ pg.fields ∧ Fld.PAGE_LOCK_LOCK_GEN ∈ pg.fields :=
  ⟨hdr_mem hc (by decide), hdr_mem hc (by decide)⟩

/-- A page that a bit of the map names is reached, and what is reached there stays. -/
theorem forPages_reaches {m i : Nat} {pg : Pg} {u : Pg → Upd} {Q : State → Prop} (hi : i < 1024) (hbit : m.testBit i = true)
    (hpg : lockPage? i = some pg) (hat : ∀ t : State, [Fact t.wf] → Q ((u pg).run t))
    (hQ : ∀ pg', pg'.common = true → ∀ t : State, [Fact t.wf] → Q t → Q ((u pg').run t)) : Q ((forPages m u).run s) := by
  have hnodup : (allBelow 1024 m.testBit).Nodup := List.nodup_range.filter _
  have hmem : i ∈ allBelow 1024 m.testBit := List.mem_filter.2 ⟨List.mem_range.2 hi, hbit⟩
  unfold forPages
  refine forEach_reaches (P := fun _ => True) hnodup hmem
    (fun _ _ _ _ _ _ => trivial) (fun t _ _ => ?_) (fun j _ _ t _ hq => ?_) s trivial
  · rw [hpg]
    exact hat t
  · cases hj : lockPage? j with
    | none => exact hq
    | some pg' => exact hQ pg' (lockPage?_common hj) t hq

/-- A page that a bit of the map names is unlocked. -/
theorem forPages_unlocks {m i : Nat} {pg : Pg} (hi : i < 1024) (hbit : m.testBit i = true) (hpg : lockPage? i = some pg) :
    ((forPages m unlockPage).run s).rd pg .PAGE_LOCK_LOCKED = 0 := by
  refine forPages_reaches (Q := fun t => t.rd pg .PAGE_LOCK_LOCKED = 0) hi hbit hpg (fun t _ => by simp [unlockPage]) fun pg' hc t _ hq => ?_
  by_cases he : pg' = pg
  · simp [unlockPage, he]
  · rw [unlockPage, rd_wr_of_page_ne (lock_mem hc).1 (lock_mem (lockPage?_common hpg)).1 (Ne.symm he), hq]

/-- The generation of a page's lock stays when pages are unlocked. -/
theorem forPages_keepsGen (m : Nat) {i : Nat} {pg : Pg} (hpg : lockPage? i = some pg) :
    ((forPages m unlockPage).run s).rd pg .PAGE_LOCK_LOCK_GEN = s.rd pg .PAGE_LOCK_LOCK_GEN := by
  unfold forPages
  refine forEach_keeps (P := fun t => t.rd pg .PAGE_LOCK_LOCK_GEN = s.rd pg .PAGE_LOCK_LOCK_GEN) (fun j _ t _ hq => ?_) s rfl
  cases hj : lockPage? j with
  | none => exact hq
  | some pg' => 
    show ((wr pg' .PAGE_LOCK_LOCKED 0).run t).rd pg .PAGE_LOCK_LOCK_GEN = _
    rw [rd_wr_of_ne (lock_mem (lockPage?_common hj)).1 (lock_mem (lockPage?_common hpg)).2 (by decide), hq]

/-- A page that a bit of the map names is locked. -/
theorem forPages_locks {m i : Nat} {pg : Pg} (hi : i < 1024) (hbit : m.testBit i = true) (hpg : lockPage? i = some pg) :
    ((forPages m lockPage).run s).rd pg .PAGE_LOCK_LOCKED = 1 := by
  have hfield := (lock_mem (lockPage?_common hpg))
  have hlocks : ∀ t : State, [Fact t.wf] → ((lockPage pg).run t).rd pg .PAGE_LOCK_LOCKED = 1 := fun t _ => by
    have := Upd.keeps_fact
    simp only [lockPage, look_run, when_run, State.on, all_cons_run, all_nil_run]
    split
    · rw [rd_wr_of_ne hfield.2 hfield.1 (by decide), rd_wr]
      rfl
    · next h => exact rd_one_of_ne rfl (by simpa using h)
  refine forPages_reaches (Q := fun t => t.rd pg .PAGE_LOCK_LOCKED = 1) hi hbit hpg hlocks fun pg' hc t _ hq => ?_
  by_cases he : pg' = pg
  · exact he ▸ hlocks t
  · have := Upd.keeps_fact
    simp only [lockPage, look_run, rd_when, all_cons_run, all_nil_run]
    rw [rd_wr_of_page_ne (lock_mem hc).2 hfield.1 (Ne.symm he), rd_wr_of_page_ne (lock_mem hc).1 hfield.1 (Ne.symm he), hq, ite_self]

/-! ### The end of a token -/

omit [Fact s.wf] in
theorem newNonce_free : (newNonce.run s).free = s.free + 4 := by
  simp [newNonce, forBelow, List.range_succ, drawWord]

omit [Fact s.wf] in
theorem tokenOp_mod (n : Nat) : tokenOp n % 2 ^ Fld.SEC_TOKEN_CTRL_OP.width = tokenOp n := Nat.mod_mod _ _

omit [Fact s.wf] in
theorem tokenStatus_mod (n : Nat) : s.tokenStatus n % 2 ^ Fld.SEC_TOKEN_CTRL_STATUS.width = s.tokenStatus n := by
  refine Nat.mod_eq_of_lt ?_
  unfold State.tokenStatus
  repeat' split
  all_goals decide

/-- A token that runs and is not yet checked is checked. -/
theorem tokenProcess_checks (hrun : s.ivOn .tokRun = true) (hres : s.iv .tokRes = 0) : 
    (tokenProcess.run s).iv .tokRes = s.tokenStatus (s.iv .tokRaw) := by
  have := Upd.keeps_fact
  have heff := when_in (c := s.tokenStatus (s.iv .tokRaw) == tkOK) (tokenEffect_in (Foot.le_refl _) (s.iv .tokRaw))
  have hgo : (s.ivOn .tokRun && !s.ivOn .tokRes) = true := by
    rw [hrun]
    simp [State.ivOn, hres]
  simp only [tokenProcess, look_run, hgo, when_true_run, all_cons_run, all_nil_run]
  rw [iv_of_in heff (by decide)]
  simp

end

section
variable {s : State} (hs : s.Awake)
include hs

theorem claim (st : Stamp) (v : Word) (k : Fin 4) (hgo : v.getLsbD 31 = true) (hlock : s.locked (.sec 0) = false) (hrun : s.iv
    .tokRun = 0) (hop : tokenOp (s.tokenOf st.code) = opCLAIM) (hok : s.tokenStatus (s.tokenOf st.code) = tkOK) (hp :
    s.pathOpen st = true) : Gives (.tokenClaim st v) s fun t => t.iv .tokRes = tkOK ∧ t.iv .tokRun = st.code + 1 ∧ t.rdSt
    st.code (.sec 0) .SEC_TOKEN_CTRL_GO = 1 ∧ t.iv .ownRec = s.iv .ownRec + 1 ∧ t.iv .ownKey k = tokenKey (s.tokenOf st.code)
    k ∧ (t.rd (.sec 0) .ERR_STICKY_BITS).testBit Err.SEC_OWNER_CHANGED.bit = true := by
  refine gives_effect (u := newRecord ((List.range 4).map (tokenKey (s.tokenOf st.code)))) hs rfl hgo hlock hrun hop hok hp
    (by simp [tokenEffect, hop]) fun t _ hiv _ _ hres htok hrunning => ?_
  obtain ⟨hrec, hkeys, hsticky⟩ := newRecord_writes (s := t) ((List.range 4).map (tokenKey (s.tokenOf st.code)))
  refine ⟨hres, htok, hrunning, hrec.trans ?_, (hkeys k k.isLt).trans ?_, hsticky⟩
  · rw [hiv]
  · simp

theorem transfer (st : Stamp) (v : Word) (k : Fin 4) (hgo : v.getLsbD 31 = true) (hlock : s.locked (.sec 0) = false) (hrun :
    s.iv .tokRun = 0) (hop : tokenOp (s.tokenOf st.code) = opTRANSFER) (hok : s.tokenStatus (s.tokenOf st.code) = tkOK) (hp :
    s.pathOpen st = true) : Gives (.tokenTransfer st v) s fun t => t.iv .tokRes = tkOK ∧ t.iv .tokRun = st.code + 1 ∧ t.rdSt
    st.code (.sec 0) .SEC_TOKEN_CTRL_GO = 1 ∧ t.iv .ownRec = s.iv .ownRec + 1 ∧ t.iv .ownKey k = tokenKey (s.tokenOf st.code)
    k := by
  refine gives_effect (u := newRecord ((List.range 4).map (tokenKey (s.tokenOf st.code)))) hs rfl hgo hlock hrun hop hok hp
    (by simp [tokenEffect, hop]) fun t _ hiv _ _ hres htok hrunning => ?_
  obtain ⟨hrec, hkeys, -⟩ := newRecord_writes (s := t) ((List.range 4).map (tokenKey (s.tokenOf st.code)))
  refine ⟨hres, htok, hrunning, hrec.trans ?_, (hkeys k k.isLt).trans ?_⟩
  · rw [hiv]
  · simp

theorem release_ends (st : Stamp) (v : Word) (hgo : v.getLsbD 31 = true) (hlock : s.locked (.sec 0) = false) (hrun : s.iv
    .tokRun = 0) (hop : tokenOp (s.tokenOf st.code) = opRELEASE) (hok : s.tokenStatus (s.tokenOf st.code) = tkOK) (hp :
    s.pathOpen st = true) : Gives (.tokenRelease st v) s fun t => t.iv .tokRes = tkOK ∧ t.iv .tokRun = st.code + 1 ∧ t.rdSt
    st.code (.sec 0) .SEC_TOKEN_CTRL_GO = 1 ∧ t.iv .ownRec = s.iv .ownRec + 1 ∧ t.owned = false := by
  refine gives_effect (u := newRecord []) hs rfl hgo hlock hrun hop hok hp (by simp +decide [tokenEffect, hop])
    fun t _ hiv _ _ hres htok hrunning => ?_
  obtain ⟨hrec, hkeys, -⟩ := newRecord_writes (s := t) []
  refine ⟨hres, htok, hrunning, hrec.trans ?_, ?_⟩
  · rw [hiv]
  · simp only [State.owned, List.any_eq_false, List.mem_range]
    intro k hk
    simp [State.ownerKey?, hkeys k hk]

theorem unlock (st : Stamp) (v : Word) (i : Fin 1024) (pg : Pg) (hgo : v.getLsbD 31 = true) (hlock : s.locked (.sec 0) =
    false) (hrun : s.iv .tokRun = 0) (hop : tokenOp (s.tokenOf st.code) = opUNLOCK_PAGES) (hok : s.tokenStatus (s.tokenOf
    st.code) = tkOK) (hbit : (tokenField (s.tokenOf st.code) 0x20 384).testBit i = true) (hpg : lockPage? i = some pg) (hp :
    s.pathOpen st = true) : Gives (.tokenUnlockPages st v) s fun t => t.iv .tokRes = tkOK ∧ t.iv .tokRun = st.code + 1 ∧
    t.rdSt st.code (.sec 0) .SEC_TOKEN_CTRL_GO = 1 ∧ t.rd pg .PAGE_LOCK_LOCKED = 0 ∧ t.rd pg .PAGE_LOCK_LOCK_GEN = s.rd pg
    .PAGE_LOCK_LOCK_GEN := by
  refine gives_effect (u := forPages (tokenField (s.tokenOf st.code) 0x20 384 % 2 ^ 1024) unlockPage) hs rfl hgo hlock hrun hop hok hp 
    (by simp +decide [tokenEffect, hop]) fun t _ _ hrd _ hres htok hrunning => ?_
  refine ⟨hres, htok, hrunning, ?_, ?_⟩
  · exact forPages_unlocks i.isLt ((Nat.testBit_mod_two_pow ..).trans (by simp only [i.isLt, hbit, decide_true, Bool.and_self])) hpg
  · rw [forPages_keepsGen _ hpg, hrd]

theorem grant_set (st : Stamp) (v : Word) (hgo : v.getLsbD 31 = true) (hlock : s.locked (.sec 0) = false) (hrun : s.iv .tokRun
    = 0) (hop : tokenOp (s.tokenOf st.code) = opGRANT) (hok : s.tokenStatus (s.tokenOf st.code) = tkOK) (hp : s.pathOpen st =
    true) : Gives (.tokenGrant st v) s fun t => t.iv .tokRes = tkOK ∧ t.iv .tokRun = st.code + 1 ∧ t.rdSt st.code (.sec 0)
    .SEC_TOKEN_CTRL_GO = 1 ∧ t.rd (.sec 0) .SEC_GRANT_MASK = tokenField (s.tokenOf st.code) 0x20 384 := by
  refine gives_effect (u := setGrant (tokenField (s.tokenOf st.code) 0x20 384)) hs rfl hgo hlock hrun hop hok hp
    (by simp +decide [tokenEffect, hop]) fun t _ _ _ _ hres htok hrunning => ?_
  have harg := tokenArg_of_ok hok
  simp +decide [State.tokenArg, hop] at harg
  refine ⟨hres, htok, hrunning, ?_⟩
  simp only [setGrant, rd_wr]
  refine Nat.mod_eq_of_lt (show _ < 2 ^ 32 from ?_)
  rw [Nat.shiftRight_eq_div_pow] at harg
  omega

theorem arb_advanced (st : Stamp) (v : Word) (hgo : v.getLsbD 31 = true) (hlock : s.locked (.sec 0) = false) (hrun : s.iv
    .tokRun = 0) (hop : tokenOp (s.tokenOf st.code) = opARB_ADVANCE) (hok : s.tokenStatus (s.tokenOf st.code) = tkOK) (hp :
    s.pathOpen st = true) : Gives (.tokenArbAdvance st v) s fun t => t.iv .tokRes = tkOK ∧ t.iv .tokRun = st.code + 1 ∧ t.rdSt
    st.code (.sec 0) .SEC_TOKEN_CTRL_GO = 1 ∧ t.arbAt 1 = tokenField (s.tokenOf st.code) 0x20 384 ∧ t.arbAt 0 = s.arbAt 0 :=
    by
  refine gives_effect (u := raiseArb 1 (tokenField (s.tokenOf st.code) 0x20 384)) hs rfl hgo hlock hrun hop hok hp
    (by simp +decide [tokenEffect, hop]) fun t hw _ _ harb hres htok hrunning => ?_
  have harg := tokenArg_of_ok hok
  simp +decide [State.tokenArg, hop] at harg
  refine ⟨hres, htok, hrunning, ?_, ?_⟩
  · rw [arbAt_raiseArb_self hw.out, harb]
    rw [Nat.shiftRight_eq_div_pow] at harg
    omega
  · rw [← harb]
    exact Map.get_set_ne hw.out.2.2.2.2.2.2.1.1 _ _ _ (by decide)

theorem debug_pending (st : Stamp) (v : Word) (hgo : v.getLsbD 31 = true) (hlock : s.locked (.sec 0) = false) (hrun : s.iv
    .tokRun = 0) (hop : tokenOp (s.tokenOf st.code) = opDEBUG_UNLOCK) (hok : s.tokenStatus (s.tokenOf st.code) = tkOK) (hp :
    s.pathOpen st = true) : Gives (.tokenDebugUnlock st v) s fun t => t.iv .tokRes = tkOK ∧ t.iv .tokRun = st.code + 1 ∧
    t.rdSt st.code (.sec 0) .SEC_TOKEN_CTRL_GO = 1 ∧ t.debugState = dbPENDING := by
  refine gives_effect (u := wr (.sec 0) .SEC_DEBUG_STATE dbPENDING) hs rfl hgo hlock hrun hop hok hp (by simp +decide [tokenEffect, hop])
    fun t _ _ _ _ hres htok hrunning => ?_
  refine ⟨hres, htok, hrunning, ?_⟩
  simp [State.debugState]
  rfl

theorem claim_badSignature (st : Stamp) (v : Word) (hgo : v.getLsbD 31 = true) (hlock : s.locked (.sec 0) = false) (hrun :
    s.iv .tokRun = 0) (hop : tokenOp (s.tokenOf st.code) = opCLAIM) (hform : s.tokenFormat (s.tokenOf st.code) = true) (hdev :
    tokenField (s.tokenOf st.code) 8 8 = s.iv .devId) (hnonce : tokenField (s.tokenOf st.code) 16 16 = s.nonce) (hsig :
    s.tokenSigned (s.tokenOf st.code) = false) (hp : s.pathOpen st = true) : Gives (.tokenClaim st v) s fun t => t.iv .tokRes
    = tkSIG ∧ t.iv .ownRec = s.iv .ownRec ∧ t.iv .tokRun = st.code + 1 := by
  refine gives_awake hs rfl fun _ _ => ?_
  have := Upd.keeps_fact
  have hfact : Fact (submitted s st).wf := Upd.keeps_fact ..
  have hstat : s.tokenStatus (s.tokenOf st.code) = tkSIG := by simp [State.tokenStatus, hform, hdev, hnonce, hsig]
  rw [tokenSubmit_run hrun ((BitVec.testBit_toNat v).trans hgo) hlock hop hp, hstat, show (tkSIG == tkOK) = false from rfl, when_false_run]
  refine ⟨by simp, by simp [submitted_iv hrun], ?_⟩
  rw [submitted_eq hrun]
  simp

theorem grant_busy (st : Stamp) (v : Word) (hgo : v.getLsbD 31 = true) (hlock : s.locked (.sec 0) = false) (hrun : s.ivOn
    .tokRun = true) (hop : tokenOp (s.tokenOf st.code) = opGRANT) (hp : s.pathOpen st = true) : Gives (.tokenGrant st v) s fun
    t => t.rdSt st.code (.sec 0) .SEC_TOKEN_CTRL_STATUS = tkBUSY ∧ t.iv .tokRun = s.iv .tokRun ∧ t.rd (.sec 0) .SEC_GRANT_MASK
    = s.rd (.sec 0) .SEC_GRANT_MASK ∧ (t.rd (.sec 0) .ERR_STICKY_BITS).testBit Err.SEC_TOKEN_REFUSED.bit = true ∧ t.cnt (.sec
    0) 1 = min (s.cnt (.sec 0) 1 + 1) cntMax := by
  refine gives_awake hs rfl fun _ _ => ?_
  have := Upd.keeps_fact
  have hpass : (v.toNat.testBit 31 && tokenOp (s.tokenOf st.code) == opGRANT) = true := by
    rw [BitVec.testBit_toNat, hgo]
    simp [hop]
  simp only [tokenSubmit, look_run, hpass, when_true_run, hrun, if_true, granted_run hlock hp]
  simp +decide [tokenRefused, grant]

theorem finished_ok (hrun : s.ivOn .tokRun = true) (hres : s.iv .tokRes = tkOK) : Gives (.tokenFinished) s fun t => t.iv
    .tokRun = 0 ∧ t.rdSt (s.iv .tokRun - 1) (.sec 0) .SEC_TOKEN_CTRL_STATUS = tkOK ∧ t.rdSt (s.iv .tokRun - 1) (.sec 0)
    .SEC_TOKEN_CTRL_GO = 0 ∧ t.rdSt (s.iv .tokRun - 1) (.sec 0) .SEC_TOKEN_CTRL_OP = tokenOp (s.iv .tokRaw) ∧ t.cnt (.sec 0) 0
    = min (s.cnt (.sec 0) 0 + 1) cntMax ∧ t.free = s.free + 4 := by
  refine gives_awake hs rfl fun _ _ => ?_
  have := Upd.keeps_fact
  have hnonce := newNonce_in (Foot.le_refl _)
  have hdone : tokenProcess.run s = s := by simp [tokenProcess, State.ivOn, hres, tkOK]
  simp only [look_run, hrun, when_true_run, all_cons_run, all_nil_run, hdone, hres, beq_self_eq_true, if_true]
  simp +decide [iv_of_in hnonce, rdSt_of_in hnonce, cnt_of_in hnonce, newNonce_free]
  exact tokenOp_mod _

theorem finished_refused (hrun : s.ivOn .tokRun = true) (hres : s.iv .tokRes = tkSIG) : Gives (.tokenFinished) s fun t => t.iv
    .tokRun = 0 ∧ t.rdSt (s.iv .tokRun - 1) (.sec 0) .SEC_TOKEN_CTRL_STATUS = tkSIG ∧ (t.rd (.sec 0) .ERR_STICKY_BITS).testBit
    Err.SEC_TOKEN_REFUSED.bit = true ∧ t.free = s.free + 4 := by
  refine gives_awake hs rfl fun _ _ => ?_
  have := Upd.keeps_fact
  have hnonce := newNonce_in (Foot.le_refl _)
  have hdone : tokenProcess.run s = s := by simp [tokenProcess, State.ivOn, hres, tkSIG]
  simp only [look_run, hrun, when_true_run, all_cons_run, all_nil_run, hdone, hres, show (tkSIG == tkOK) = false from rfl,
      Bool.false_eq_true, if_false]
  simp +decide [iv_of_in hnonce, rdSt_of_in hnonce, rd_of_in hnonce, tokenRefused, newNonce_free]

theorem finished_unchecked (hrun : s.ivOn .tokRun = true) (hres : s.iv .tokRes = 0) : Gives (.tokenFinished) s fun t => t.iv
    .tokRun = 0 ∧ t.rdSt (s.iv .tokRun - 1) (.sec 0) .SEC_TOKEN_CTRL_STATUS = s.tokenStatus (s.iv .tokRaw) := by
  refine gives_awake hs rfl fun _ _ => ?_
  have := Upd.keeps_fact
  have hnonce := newNonce_in (Foot.le_refl _)
  have hmod := tokenStatus_mod (s := s) (s.iv .tokRaw)
  simp only [look_run, hrun, when_true_run, all_cons_run, all_nil_run, tokenProcess_checks hrun hres]
  generalize s.tokenStatus (s.iv .tokRaw) = r at *
  by_cases hr : r = tkOK
  · subst hr
    simp +decide [iv_of_in hnonce, rdSt_of_in hnonce]
  · simp +decide [iv_of_in hnonce, rdSt_of_in hnonce, hr, tokenRefused, hmod]

theorem page_locked (st : Stamp) (k : Fin 32) (v : Word) (j : Fin 32) (pg : Pg) (hlock : s.locked (.sec 0) = false) (hbit :
    v.getLsbD j = true) (hpg : lockPage? (32 * k + j) = some pg) (hp : s.pathOpen st = true) : Gives (.pageLockWrite st k v) s
    fun t => t.rd pg .PAGE_LOCK_LOCKED = 1 := by
  refine gives_granted hs rfl hlock hp fun _ _ => ?_
  have := Upd.keeps_fact
  unfold lockMapWrite
  refine forPages_locks (by omega) ?_ hpg
  rw [Nat.testBit_shiftLeft]
  simpa [BitVec.testBit_toNat] using hbit

end

/-- Settles O30: a token is checked on the state it was submitted in, and the effect of its operation follows. -/
theorem tokensComplete : Obligations.TokensComplete := by
  intro s hs
  exact ⟨claim hs, transfer hs, release_ends hs, unlock hs, grant_set hs, arb_advanced hs, debug_pending hs,
    claim_badSignature hs, grant_busy hs, finished_ok hs, finished_refused hs, finished_unchecked hs, page_locked hs⟩

end Sys2Proof.Machine
end

section
/-! PROOF. The counter gatherer (R706 to R712) and the supply monitors (R713). -/

namespace Sys2Proof.Machine

set_option Elab.async false


variable {s : State}

/-- What the gatherer's reads touch: the counter windows, and whom the arbiters granted last. -/
def Foot.gatherSel : Foot := 
  { regs := [Fam.glb, .mgmt, .sec, .guard, .lane, .pwrg, .pwr, .core, .route, .bridge, .mbox, .port, .face, .schedg, .sched, .tenant, .inst,
      .moverg, .eng, .ring].flatMap fun k => [(k, Fld.CNT_SEL_AUTO_INC), (k, .CNT_SEL_INDEX)],
    vars := [.arbLast] }

/-- The registers of the list are the gatherer's, and none that stands below it. -/
theorem list_reg (i : Fin 4096) : gatherReg (0x1000 + 4 * i) = true ∧
    (BitVec.ofNat 16 (0x1000 + 4 * i)).toNat = 0x1000 + 4 * i ∧ ((BitVec.ofNat 16 (0x1000 + 4 * i)) == 0x108) = false ∧
    ((BitVec.ofNat 16 (0x1000 + 4 * i)) == 0x10C) = false := by
  have hoff : (BitVec.ofNat 16 (0x1000 + 4 * i.val)).toNat = 0x1000 + 4 * i := Nat.mod_eq_of_lt (by omega)
  refine ⟨?_, hoff, ?_, ?_⟩
  · simp [gatherReg]
    omega
  · simp [BitVec.toNat_eq, hoff]
    omega
  · simp [BitVec.toNat_eq, hoff]
    omega

section
variable {s : State} (hs : s.Awake)
include hs

theorem snapshot_taken (hen : s.on (.mgmt 1) .MGMT_GATHER_CTRL_EN = true) (hdue : s.cycleNum % 2 ^ s.rd (.mgmt 1)
    .MGMT_GATHER_CTRL_EVERY_LOG2 = 0) (hcyc : s.inCycle = true) (hbusy : s.on (.mgmt 1) .MGMT_GATHER_STAT_BUSY = false) (hfw :
    s.fwRuns = true) (hgrant : s.granted? (s.rd (.mgmt 1) .MGMT_GATHER_CTRL_GFACE) = true) : Gives (.gatherSnapshot) s fun t
    => t.rd (.mgmt 1) .MGMT_GATHER_STAT_BUSY = 1 ∧ t.fifo .gatherSnap = (List.range s.gatherCount).map s.gatherEntry ∧ t.iv
    .gatherAt = s.now ∧ t.iv .gatherCycle = s.cycleNum ∧ t.iv .gatherNum = s.iv .gatherSeq ∧ t.iv .gatherSeq = s.iv .gatherSeq
    + 1 ∧ t.iv .gatherSkipped = s.iv .gatherSkips ∧ t.iv .gatherSkips = 0 ∧ t.iv .gatherSlot = s.gatherAddr ∧ t.iv .gatherFace
    = s.rd (.mgmt 1) .MGMT_GATHER_CTRL_GFACE := by
  refine gives_awake hs rfl fun _ _ => ?_
  have := Upd.keeps_fact
  have hsel : (forBelow s.gatherCount gatherSel).In _ :=
      forBelow_in fun i => gatherSel_in (F := Foot.gatherSel) (by decide) (fun k _ => by cases k <;> decide) i
  simp +decide [hen, hdue, hcyc, hbusy, hfw, hgrant, rd_of_in hsel, iv_of_in hsel, fifo_of_in hsel]

theorem snapshot_notGranted (hen : s.on (.mgmt 1) .MGMT_GATHER_CTRL_EN = true) (hdue : s.cycleNum % 2 ^ s.rd (.mgmt 1)
    .MGMT_GATHER_CTRL_EVERY_LOG2 = 0) (hcyc : s.inCycle = true) (hbusy : s.on (.mgmt 1) .MGMT_GATHER_STAT_BUSY = false) (hfw :
    s.fwRuns = true) (hgrant : s.granted? (s.rd (.mgmt 1) .MGMT_GATHER_CTRL_GFACE) = false) : Gives (.gatherSnapshot) s fun t
    => t.rd (.mgmt 1) .MGMT_GATHER_STAT_BUSY = 0 ∧ t.iv .gatherSkips = s.iv .gatherSkips + 1 ∧ (t.rd (.mgmt 0)
    .ERR_STICKY_BITS).testBit Err.MGMT_GATHER_NOGRANT.bit = true ∧ t.cnt (.mgmt 0) 4 = min (s.cnt (.mgmt 0) 4 + 1) cntMax :=
    by
  refine gives_awake hs rfl fun _ _ => ?_
  have hidle : s.rd (.mgmt 1) .MGMT_GATHER_STAT_BUSY = 0 := rd_of_not_on hbusy
  simp +decide [hen, hdue, hcyc, hbusy, hfw, hgrant, gatherSkip, modIv, hidle]

theorem snapshot_written (k : Nat) (hbusy : s.on (.mgmt 1) .MGMT_GATHER_STAT_BUSY = true) (hfw : s.fwRuns = true) (hgrant :
    s.granted? (s.iv .gatherFace) = true) (hmay : s.seMayWrite (s.iv .gatherFace) = true) : Gives (.gatherSnapshotDone k) s
    fun t => t.rd (.mgmt 1) .MGMT_GATHER_STAT_BUSY = 0 ∧ t.rd (.mgmt 1) .MGMT_GATHER_STAT_SEQ = s.iv .gatherNum % 65536 ∧
    t.fifo .gatherSnap = [] ∧ t.rd (.mgmt 1) .MGMT_GATHER_STAT_LAST_SKEW = min 32767 (k / 8) ∧ t.cnt (.mgmt 0) 3 = min (s.cnt
    (.mgmt 0) 3 + 1) cntMax := by
  refine gives_awake hs rfl fun _ _ => ?_
  have := Upd.keeps_fact
  have hwrite := fun f n a ws => hostWrite_in (Foot.le_refl _) f n a ws
  simp +decide [hbusy, hfw, hgrant, hmay, rd_of_in (hwrite _ _ _ _), fifo_of_in (hwrite _ _ _ _), cnt_of_in (hwrite _ _ _ _)]
  exact ⟨rfl, Nat.mod_eq_of_lt (by show _ < 32768; omega)⟩

theorem snapshot_waits (k : Nat) (hbusy : s.on (.mgmt 1) .MGMT_GATHER_STAT_BUSY = true) (hfw : s.fwRuns = true) (hgrant :
    s.granted? (s.iv .gatherFace) = true) (hmay : s.seMayWrite (s.iv .gatherFace) = false) : Gives (.gatherSnapshotDone k) s
    fun t => t.on (.mgmt 1) .MGMT_GATHER_STAT_BUSY = true ∧ t.fifo .gatherSnap = s.fifo .gatherSnap ∧ t.rd (.mgmt 1)
    .MGMT_GATHER_STAT_SEQ = s.rd (.mgmt 1) .MGMT_GATHER_STAT_SEQ := by
  refine gives_awake hs rfl fun _ _ => ?_
  simp [hbusy, hfw, hgrant, hmay]

theorem snapshot_withdrawn (k : Nat) (hbusy : s.on (.mgmt 1) .MGMT_GATHER_STAT_BUSY = true) (hfw : s.fwRuns = true) (hgrant :
    s.granted? (s.iv .gatherFace) = false) : Gives (.gatherSnapshotDone k) s fun t => t.rd (.mgmt 1) .MGMT_GATHER_STAT_BUSY =
    0 ∧ t.rd (.mgmt 1) .MGMT_GATHER_STAT_SEQ = s.rd (.mgmt 1) .MGMT_GATHER_STAT_SEQ ∧ t.iv .gatherSkips = s.iv .gatherSkips +
    s.iv .gatherSkipped ∧ (t.rd (.mgmt 0) .ERR_STICKY_BITS).testBit Err.MGMT_GATHER_NOGRANT.bit = true := by
  refine gives_awake hs rfl fun _ _ => ?_
  have := Upd.keeps_fact
  simp +decide [hbusy, hfw, hgrant, modIv]

theorem phase_written (st : Stamp) (v : Word) (hlock : s.locked (.mgmt 1) = false) (hp : s.pathOpen st = true) : Gives
    (.gatherConfigWrite st 0x104 v) s fun t => t.rd (.mgmt 1) .MGMT_GATHER_PHASE_PHASE = v.toNat % 2 ^ 20 := by
  refine gives_awake hs rfl fun _ _ => ?_
  have := Upd.keeps_fact
  have hword : (0x104#16).toNat = 0x104 := rfl
  simp only [show gatherReg (0x104 : BitVec 16).toNat = true from rfl, when_true_run,
    show ((0x104 : BitVec 16) == 0x108) = false from rfl, show ((0x104 : BitVec 16) == 0x10C) = false from rfl, Bool.false_eq_true, if_false,
    granted_run hlock hp, gatherWrite, look_run]
  simp +decide
  rfl

theorem list_written (st : Stamp) (v : Word) (i : Fin 4096) (hlock : s.locked (.mgmt 1) = false) (hen : s.on (.mgmt 1)
    .MGMT_GATHER_CTRL_EN = false) (hp : s.pathOpen st = true) : Gives (.gatherConfigWrite st (BitVec.ofNat 16 (0x1000 + 4 *
    i)) v) s fun t => t.rd (.mgmt 1) .MGMT_GATHER_LIST_PAGE i = bits v.toNat 31 22 ∧ t.rd (.mgmt 1) .MGMT_GATHER_LIST_INDEX i
    = v.toNat % 65536 ∧ (t.iv .gatherGen = s.iv .gatherGen + if t.dwordAt (.mgmt 1) (0x1000 + 4 * i) = s.dwordAt (.mgmt 1)
    (0x1000 + 4 * i) then 0 else 1) := by
  refine gives_awake hs rfl fun _ _ => ?_
  have := Upd.keeps_fact
  obtain ⟨hreg, hoff, hlow, hhigh⟩ := list_reg i
  have hen' : ((grant st (.mgmt 1)).run s).on (.mgmt 1) .MGMT_GATHER_CTRL_EN = false := hen
  have h100 : (0x1000 + 4 * i.val == 0x100) = false := by simp; omega
  have h104 : (0x1000 + 4 * i.val == 0x104) = false := by simp; omega
  have hpage : ∀ t : State, [Fact t.wf] → ((plainWrite st (.mgmt 1) (0x1000 + 4 * i) v.toNat).run t).rd (.mgmt 1) .MGMT_GATHER_LIST_PAGE i = 
      bits v.toNat 31 22 := fun t _ => rd_plainWrite st _ (by decide) i.isLt (show 0x1000 + i.val * 4 = _ by omega) rfl rfl
  have hindex : ∀ t : State, [Fact t.wf] → ((plainWrite st (.mgmt 1) (0x1000 + 4 * i) v.toNat).run t).rd (.mgmt 1) .MGMT_GATHER_LIST_INDEX i = 
      v.toNat % 65536 := fun t _ => rd_plainWrite st _ (by decide) i.isLt (show 0x1000 + i.val * 4 = _ by omega) rfl rfl
  have hsame : ((grant st (.mgmt 1)).run s).dwordAt (.mgmt 1) (0x1000 + 4 * i) = s.dwordAt (.mgmt 1) (0x1000 + 4 * i) := rfl
  simp only [hreg, when_true_run, hlow, hhigh, Bool.false_eq_true, if_false, hoff, granted_run hlock hp, gatherWrite, look_run, hen', h100, h104,
    all_cons_run, all_nil_run, hsame]
  refine ⟨?_, ?_, ?_⟩
  · simp [hpage, modIv]
  · simp [hindex, modIv]
  · simp only [modIv, grant]
    by_cases hsame' : ((plainWrite st (.mgmt 1) (0x1000 + 4 * i) v.toNat).run ((put .arbLast (st.code + 1) ((Pg.mgmt 1).base / 64)).run s)).dwordAt
        (.mgmt 1) (0x1000 + 4 * i) = s.dwordAt (.mgmt 1) (0x1000 + 4 * i)
    · simp [hsame']
    · have hput : ∀ (t : State) (n : Nat), ((put .gatherGen n).run t).dwordAt (.mgmt 1) (0x1000 + 4 * i) =
          t.dwordAt (.mgmt 1) (0x1000 + 4 * i) := fun _ _ => rfl
      simp [hsame', hput, when_run]

theorem list_refused (st : Stamp) (v : Word) (i : Fin 4096) (hlock : s.locked (.mgmt 1) = false) (hen : s.on (.mgmt 1)
    .MGMT_GATHER_CTRL_EN = true) (hp : s.pathOpen st = true) : Gives (.gatherConfigWrite st (BitVec.ofNat 16 (0x1000 + 4 * i))
    v) s fun t => t.rd (.mgmt 1) .MGMT_GATHER_LIST_PAGE i = s.rd (.mgmt 1) .MGMT_GATHER_LIST_PAGE i ∧ t.iv .gatherGen = s.iv
    .gatherGen ∧ (t.rd (.mgmt 0) .ERR_STICKY_BITS).testBit Err.MGMT_CFG_REFUSED.bit = true := by
  refine gives_awake hs rfl fun _ _ => ?_
  obtain ⟨hreg, hoff, hlow, hhigh⟩ := list_reg i
  have hen' : ((grant st (.mgmt 1)).run s).on (.mgmt 1) .MGMT_GATHER_CTRL_EN = true := hen
  have h100 : (0x1000 + 4 * i.val == 0x100) = false := by simp; omega
  have h104 : (0x1000 + 4 * i.val == 0x104) = false := by simp; omega
  simp only [hreg, when_true_run, hlow, hhigh, Bool.false_eq_true, if_false, if_true, hoff, granted_run hlock hp, gatherWrite, look_run,
      hen', h100, h104]
  simp +decide [grant]

theorem gatherer_enabled (st : Stamp) (v : Word) (hlock : s.locked (.mgmt 1) = false) (hgo : v.getLsbD 31 = true) (hen : s.on
    (.mgmt 1) .MGMT_GATHER_CTRL_EN = false) (hfits : 64 + 8 * max 1 (min 4096 (v.toNat % 8192)) ≤ 2 ^ slotLog2 (s.rd (.mgmt 1)
    .MGMT_GATHER_RING_SLOT_LOG2)) (hp : s.pathOpen st = true) : Gives (.gatherConfigWrite st 0x100 v) s fun t => t.on (.mgmt
    1) .MGMT_GATHER_CTRL_EN = true ∧ t.rd (.mgmt 1) .MGMT_GATHER_CTRL_COUNT = v.toNat % 8192 ∧ t.iv .gatherSeq = 0 ∧ t.iv
    .gatherSkips = 0 := by
  refine gives_awake hs rfl fun _ _ => ?_
  have := Upd.keeps_fact
  have hen' : ((grant st (.mgmt 1)).run s).on (.mgmt 1) .MGMT_GATHER_CTRL_EN = false := hen
  have hflag : Fld.MGMT_GATHER_CTRL_EN.of v.toNat = b2n v[31] := Fld.of_flag_word rfl v
  have hcount : Fld.MGMT_GATHER_CTRL_COUNT.of v.toNat = v.toNat % 8192 := rfl
  have hfits' : decide (64 + 8 * max 1 (min 4096 (v.toNat % 8192)) ≤
      2 ^ slotLog2 (((grant st (.mgmt 1)).run s).rd (.mgmt 1) .MGMT_GATHER_RING_SLOT_LOG2)) = true := decide_eq_true hfits
  simp only [show gatherReg (0x100 : BitVec 16).toNat = true from rfl, when_true_run,
    show ((0x100 : BitVec 16) == 0x108) = false from rfl, show ((0x100 : BitVec 16) == 0x10C) = false from rfl, Bool.false_eq_true, if_false,
    granted_run hlock hp, gatherWrite, look_run, hen', hcount, hfits', BitVec.testBit_toNat, hgo]
  simp +decide [State.on, hflag, hcount]
  exact hgo

theorem rail_outOfRange (a b c d e : BitVec 16) (hout : (a.toNat < 728 ∨ 772 < a.toNat)) : Gives (.vmonSample [a, b, c, d, e])
    s fun t => t.rd (.mgmt 0) .MGMT_VMON_MV 0 = a.toNat ∧ t.rd (.mgmt 0) .MGMT_VMON_OOR 0 = 1 ∧ (t.rd (.mgmt 0)
    .ERR_STICKY_BITS).testBit Err.MGMT_VMON_OOR.bit = true := by
  refine gives_awake hs rfl fun _ _ => ?_
  have hmv : a.toNat % 2 ^ Fld.MGMT_VMON_MV.width = a.toNat := Nat.mod_eq_of_lt a.isLt
  simp +decide [railLimits, hout, hmv]

theorem rails_inRange (a b c d e : BitVec 16) (hlo : 728 ≤ a.toNat) (hhi : a.toNat ≤ 772) : Gives (.vmonSample [a, b, c, d,
    e]) s fun t => t.rd (.mgmt 0) .MGMT_VMON_MV 0 = a.toNat ∧ t.rd (.mgmt 0) .MGMT_VMON_OOR 0 = 0 ∧ t.rd (.mgmt 0)
    .MGMT_VMON_MV 4 = e.toNat ∧ t.rd (.mgmt 0) .MGMT_VMON_OOR 4 = b2n (e.toNat < 1710 || 1890 < e.toNat) := by
  refine gives_awake hs rfl fun _ _ => ?_
  have hmv : ∀ x : BitVec 16, x.toNat % 2 ^ Fld.MGMT_VMON_MV.width = x.toNat := fun x => Nat.mod_eq_of_lt x.isLt
  simp +decide [railLimits, hlo, hhi, hmv]

end

/-- Settles O38: one lemma for each step of a snapshot, each register of the gatherer, and a sample of the rails. -/
theorem gathererAndMonitorsComplete : Obligations.GathererAndMonitorsComplete := by
  intro s hs
  exact ⟨snapshot_taken hs, snapshot_notGranted hs, snapshot_written hs, snapshot_waits hs, snapshot_withdrawn hs,
    phase_written hs, list_written hs, list_refused hs, gatherer_enabled hs, rail_outOfRange hs, rails_inRange hs⟩

end Sys2Proof.Machine
end

section
/-! PROOF. Installation of images over sideband and through MGMT_IMG_CTRL (R699, R703, R704). -/

namespace Sys2Proof.Machine

set_option Elab.async false


variable {s : State}

section
variable [Fact s.wf]

/-- A start with no installation in progress erases the slot that is not active. -/
theorem imgStart_starts {st kind : Nat} (hst : st < 64) (hkind : kind < 2) (hrec : s.device ≠ dvROM_RECOVERY) (hidle : s.iv .imgSt = 0) :
    ((imgStart st kind).run s).iv .imgSt = 1 ∧ ((imgStart st kind).run s).iv .imgBytes = 0 ∧
    ((imgStart st kind).run s).iv .slotState (s.inactiveSlot kind) = slINVALID ∧
    ((imgStart st kind).run s).rd (.mgmt 0) .MGMT_IMG_CTRL_BUSY = 1 ∧ ((imgStart st kind).run s).rd (.mgmt 0) .MGMT_IMG_CTRL_INSTALLER = st ∧
    ((imgStart st kind).run s).rd (.mgmt 0) .MGMT_IMG_CTRL_KIND = kind ∧ ((imgStart st kind).run s).rd (.mgmt 0) .MGMT_IMG_CTRL_STATUS = 0 ∧
    ((imgStart st kind).run s).out = s.out := by
  have := Upd.keeps_fact
  have hdir := dirRewrite_in (Foot.le_refl _)
  have hst' : st % 2 ^ Fld.MGMT_IMG_CTRL_INSTALLER.width = st := Nat.mod_eq_of_lt (by show _ < 256; omega)
  have hkind' : kind % 2 ^ Fld.MGMT_IMG_CTRL_KIND.width = kind := Nat.mod_eq_of_lt hkind
  simp +decide [imgStart, slotSet, imgStatus, hrec, hidle, hst', hkind', iv_of_in hdir, out_of_in hdir]

/-- A chunk that is taken is being written. -/
theorem imgChunk_taken {st off len : Nat} (h : s.chunkStatus st off len = 0) :
    ((imgChunk st off len).run s).iv .imgSt = 3 ∧ ((imgChunk st off len).run s).iv .imgLen = len ∧
    ((imgChunk st off len).run s).rd (.mgmt 0) .MGMT_IMG_CTRL_BUSY = 1 ∧ ((imgChunk st off len).run s).rd (.mgmt 0) .MGMT_IMG_CTRL_STATUS = 0 ∧
    ((imgChunk st off len).run s).out = s.out := by
  have := Upd.keeps_fact
  simp +decide [imgChunk, h, imgStatus]

/-- FINISH by the installer between two chunks starts the checks. -/
theorem imgFinish_checks {st : Nat} (hmay : s.mayInstall st = true) (hst : s.iv .imgSt = 2) :
    ((imgFinish st).run s).iv .imgSt = 4 ∧ ((imgFinish st).run s).rd (.mgmt 0) .MGMT_IMG_CTRL_BUSY = 1 ∧
    ((imgFinish st).run s).rd (.mgmt 0) .MGMT_IMG_CTRL_STATUS = 0 ∧ ((imgFinish st).run s).out = s.out := by
  have := Upd.keeps_fact
  simp +decide [imgFinish, hmay, hst, imgStatus]

end

/-- The slot that an installation takes depends on the device state and the slots in use. -/
theorem inactiveSlot_congr {t : State} (hdev : t.device = s.device) (hfw : t.rd .glb .GLB_DEV_STATE_FW_SLOT = s.rd .glb .GLB_DEV_STATE_FW_SLOT)
    (hcfg : t.rd .glb .GLB_DEV_STATE_CFG_SLOT = s.rd .glb .GLB_DEV_STATE_CFG_SLOT) (kind : Nat) : t.inactiveSlot kind = s.inactiveSlot kind := by
  simp only [State.inactiveSlot, hdev, hfw, hcfg]

/-- Who may act on the installation depends on its state and on the installer. -/
theorem mayInstall_congr {t : State} (hst : t.iv .imgSt = s.iv .imgSt)
    (hby : t.rd (.mgmt 0) .MGMT_IMG_CTRL_INSTALLER = s.rd (.mgmt 0) .MGMT_IMG_CTRL_INSTALLER) (st : Nat) : t.mayInstall st = s.mayInstall st := by
  simp only [State.mayInstall, hst, hby]

/-- How a chunk ends depends on the installation's numbers and on the installer. -/
theorem chunkStatus_congr {t : State} (hst : t.iv .imgSt = s.iv .imgSt) (hbytes : t.iv .imgBytes = s.iv .imgBytes)
    (hkind : t.iv .imgKind = s.iv .imgKind) (hby : t.rd (.mgmt 0) .MGMT_IMG_CTRL_INSTALLER = s.rd (.mgmt 0) .MGMT_IMG_CTRL_INSTALLER)
    (st off len : Nat) : t.chunkStatus st off len = s.chunkStatus st off len := by
  simp only [State.chunkStatus, mayInstall_congr hst hby, State.imgKind, hst, hbytes, hkind]
  rfl

section
variable [Fact s.wf] {k : Nat} (hen : s.on (.mgmt 2) .MGMT_SMB_CFG_EN k = true) (hfw : s.fwRuns = true) (hhalt : s.safeHalt = false)
include hen hfw hhalt

/-- Firmware serves a command outside Safe Halt, and the message is counted first. -/
theorem stoux_run (cmd : Nat) (u : Upd) : (stoux k cmd u).run s = u.run ((bump (.mgmt 0) 5).run s) := by
  have hhalt' : ((bump (.mgmt 0) 5).run s).safeHalt = false := by simpa +decide [State.safeHalt] using hhalt
  simp only [stoux, mctpIn, look_run, hen, hfw, Bool.true_or, Bool.true_and, when_true_run, all_cons_run, all_nil_run, hhalt',
    Bool.false_and, Bool.false_eq_true, if_false]

end

section
variable {s : State} (hs : s.Awake)
include hs

theorem sideband_starts (k : Fin 4) (x : Bool) (hen : s.on (.mgmt 2) .MGMT_SMB_CFG_EN k = true) (hfw : s.fwRuns = true) (hhalt
   : s.safeHalt = false) (hrec : s.device ≠ dvROM_RECOVERY) (hidle : s.iv .imgSt = 0) : Gives (.mctpImgStart k x) s fun t =>
    t.iv .imgSt = 1 ∧ t.iv .slotState (s.inactiveSlot (b2n x)) = slINVALID ∧ t.rd (.mgmt 0) .MGMT_IMG_CTRL_BUSY = 1 ∧ t.rd
    (.mgmt 0) .MGMT_IMG_CTRL_INSTALLER = 0x22 ∧ t.rd (.mgmt 0) .MGMT_IMG_CTRL_KIND = b2n x ∧ t.out.head? = some (Out.mctp k
    mcIMG_START msOK []) := by
  refine gives_awake hs rfl fun _ _ => ?_
  have := Upd.keeps_fact
  rw [stoux_run hen hfw hhalt]
  have hdev : ((imgReply k mcIMG_START 0).run ((bump (.mgmt 0) 5).run s)).device = s.device := by simp +decide [State.device, imgReply]
  have hidle' : ((bump (.mgmt 0) 5).run s).iv .imgSt = 0 := by simpa +decide using hidle
  have hrec' : (((bump (.mgmt 0) 5).run s).device == dvROM_RECOVERY) = false := by simpa [imgReply, State.device] using hdev.trans_ne hrec
  obtain ⟨hst, -, hslot, hbusy, hby, hkind, -, hout⟩ := imgStart_starts (s := (imgReply k mcIMG_START 0).run ((bump (.mgmt 0) 5).run s))
    (st := 0x22) (kind := b2n x) (by decide) (by cases x <;> decide) (hdev.trans_ne hrec) hidle'
  rw [inactiveSlot_congr (s := s) hdev (by simp +decide [imgReply]) (by simp +decide [imgReply])] at hslot
  simp only [look_run, hrec', hidle', Bool.false_and, Bool.false_eq_true, if_false, BEq.rfl, if_true, all_cons_run, all_nil_run]
  exact ⟨hst, hslot, hbusy, hby, hkind, congrArg List.head? hout⟩

theorem sideband_busy (k : Fin 4) (x : Bool) (hen : s.on (.mgmt 2) .MGMT_SMB_CFG_EN k = true) (hfw : s.fwRuns = true) (hhalt :
    s.safeHalt = false) (hrec : s.device ≠ dvROM_RECOVERY) (hidle : s.ivOn .imgSt = true) : Gives (.mctpImgStart k x) s fun t
    => t.iv .imgSt = s.iv .imgSt ∧ t.rd (.mgmt 0) .MGMT_IMG_CTRL_STATUS = imBUSY ∧ t.out.head? = some (Out.mctp k mcIMG_START
    msBUSY []) := by
  refine gives_awake hs rfl fun _ _ => ?_
  have := Upd.keeps_fact
  have hbusy : s.iv .imgSt ≠ 0 := by simpa [State.ivOn] using hidle
  have hrec' : ¬(((addCnt (.mgmt 0) 5 1).run s).device = dvROM_RECOVERY) := by simpa +decide [State.device] using hrec
  rw [stoux_run hen hfw hhalt]
  simp +decide [hrec', hbusy, imgReply, imgStart, imgStatus]

theorem sideband_chunk (k : Fin 4) (o : BitVec 32) (n : Nat) (hen : s.on (.mgmt 2) .MGMT_SMB_CFG_EN k = true) (hfw : s.fwRuns
    = true) (hhalt : s.safeHalt = false) (h1 : 1 ≤ n) (hmax : n ≤ 1024) (htaken : s.chunkStatus 0x22 o.toNat n = 0) : Gives
    (.mctpImgChunk k o n) s fun t => t.iv .imgSt = 3 ∧ t.iv .imgLen = n ∧ t.rd (.mgmt 0) .MGMT_IMG_CTRL_BUSY = 1 ∧ t.out.head?
    = some (Out.mctp k mcIMG_CHUNK msOK []) := by
  refine gives_awake hs rfl fun _ _ => ?_
  have := Upd.keeps_fact
  rw [stoux_run hen hfw hhalt]
  have hlen : (n == 0 || decide (1024 < n)) = false := by simp; omega
  have hstat : ((bump (.mgmt 0) 5).run s).chunkStatus 0x22 o.toNat n = 0 :=
    (chunkStatus_congr (by simp +decide) (by simp +decide) (by simp +decide) (by simp +decide) ..).trans htaken
  obtain ⟨hst, hl, hbusy, -, hout⟩ := imgChunk_taken (s := (imgReply k mcIMG_CHUNK 0).run ((bump (.mgmt 0) 5).run s))
    (st := 0x22) (off := o.toNat) (len := n) ((chunkStatus_congr rfl rfl rfl rfl ..).trans hstat)
  simp only [look_run, hlen, hstat, Bool.false_eq_true, if_false, all_cons_run, all_nil_run]
  exact ⟨hst, hl, hbusy, congrArg List.head? hout⟩

theorem sideband_disorder (k : Fin 4) (o : BitVec 32) (n : Nat) (hen : s.on (.mgmt 2) .MGMT_SMB_CFG_EN k = true) (hfw :
    s.fwRuns = true) (hhalt : s.safeHalt = false) (h1 : 1 ≤ n) (hmax : n ≤ 1024) (horder : s.chunkStatus 0x22 o.toNat n =
    imORDER) : Gives (.mctpImgChunk k o n) s fun t => t.iv .imgSt = s.iv .imgSt ∧ t.iv .imgBytes = s.iv .imgBytes ∧ t.rd
    (.mgmt 0) .MGMT_IMG_CTRL_STATUS = imORDER ∧ t.out.head? = some (Out.mctp k mcIMG_CHUNK msDISCARDED []) := by
  refine gives_awake hs rfl fun _ _ => ?_
  have := Upd.keeps_fact
  rw [stoux_run hen hfw hhalt]
  have hlen : (n == 0 || decide (1024 < n)) = false := by simp; omega
  have hstat : ((bump (.mgmt 0) 5).run s).chunkStatus 0x22 o.toNat n = imORDER :=
    (chunkStatus_congr (by simp +decide) (by simp +decide) (by simp +decide) (by simp +decide) ..).trans horder
  have hstat' : ((imgReply k mcIMG_CHUNK imORDER).run ((bump (.mgmt 0) 5).run s)).chunkStatus 0x22 o.toNat n = imORDER :=
    (chunkStatus_congr rfl rfl rfl rfl ..).trans hstat
  simp only [look_run, hlen, hstat, Bool.false_eq_true, if_false, all_cons_run, all_nil_run, imgChunk, hstat']
  simp +decide [imgReply, imgStatus]

theorem sideband_finish (k : Fin 4) (hen : s.on (.mgmt 2) .MGMT_SMB_CFG_EN k = true) (hfw : s.fwRuns = true) (hhalt :
    s.safeHalt = false) (hmay : s.mayInstall 0x22 = true) (hst : s.iv .imgSt = 2) : Gives (.mctpImgFinish k) s fun t => t.iv
    .imgSt = 4 ∧ t.rd (.mgmt 0) .MGMT_IMG_CTRL_BUSY = 1 ∧ t.out.head? = some (Out.mctp k mcIMG_FINISH msOK []) := by
  refine gives_awake hs rfl fun _ _ => ?_
  have := Upd.keeps_fact
  rw [stoux_run hen hfw hhalt]
  have hmay' : ((bump (.mgmt 0) 5).run s).mayInstall 0x22 = true := by simpa +decide [State.mayInstall] using hmay
  have hst' : ((bump (.mgmt 0) 5).run s).iv .imgSt = 2 := by simpa +decide using hst
  obtain ⟨hst4, hbusy, -, hout⟩ := imgFinish_checks (s := (imgReply k mcIMG_FINISH 0).run ((bump (.mgmt 0) 5).run s))
    (st := 0x22) hmay' hst'
  simp only [look_run, hmay', hst', BEq.rfl, Bool.and_self, if_true, all_cons_run, all_nil_run]
  exact ⟨hst4, hbusy, congrArg List.head? hout⟩

theorem register_starts (st : Stamp) (v : Word) (hgo : v.getLsbD 31 = true) (hfin : v.getLsbD 30 = false) (habort : v.getLsbD
    29 = false) (hidle : s.iv .imgSt = 0) (hrec : s.device ≠ dvROM_RECOVERY) (hp : s.pathOpen st = true) : Gives
    (.imgCtrlStart st v) s fun t => t.iv .imgSt = 1 ∧ t.iv .imgBytes = 0 ∧ t.iv .slotState (s.inactiveSlot (bits v.toNat 8 8))
    = slINVALID ∧ t.rd (.mgmt 0) .MGMT_IMG_CTRL_BUSY = 1 ∧ t.rd (.mgmt 0) .MGMT_IMG_CTRL_INSTALLER = st.code ∧ t.rd (.mgmt 0)
    .MGMT_IMG_CTRL_KIND = bits v.toNat 8 8 ∧ t.rd (.mgmt 0) .MGMT_IMG_CTRL_STATUS = 0 := by
  refine gives_awake hs rfl fun _ _ => ?_
  have := Upd.keeps_fact
  have hdev : ((plainWrite st (.mgmt 0) 0x200 v.toNat).run ((grant st (.mgmt 0)).run s)).device = s.device := by simp +decide [State.device]
  have h := imgStart_starts (s := (plainWrite st (.mgmt 0) 0x200 v.toNat).run ((grant st (.mgmt 0)).run s)) (st := st.code)
    (kind := bits v.toNat 8 8) (stamp_code_lt st) (Nat.mod_lt _ (by decide)) (hdev.trans_ne hrec) (by simpa using hidle)
  rw [inactiveSlot_congr (s := s) hdev (by simp +decide) (by simp +decide)] at h
  obtain ⟨hst, hbytes, hslot, hbusy, hby, hkind, hstat, -⟩ := h
  simp only [granted_exempt_run (show lockMask (.mgmt 0) 0x200 ≠ 0 by decide) hp, imgCtrlWrite, BitVec.testBit_toNat, hgo, hfin, habort,
    all_cons_run, all_nil_run, when_true_run, when_false_run]
  exact ⟨hst, hbytes, hslot, hbusy, hby, hkind, hstat⟩

theorem register_chunk (st : Stamp) (v : Word) (hgo : v.getLsbD 31 = true) (htaken : s.chunkStatus st.code (s.rd (.mgmt 0)
    .MGMT_IMG_CHUNK_OFFSET) (bits v.toNat 30 16 + 1) = 0) (hp : s.pathOpen st = true) : Gives (.imgCtrlChunk st v) s fun t =>
    t.iv .imgSt = 3 ∧ t.iv .imgLen = bits v.toNat 30 16 + 1 ∧ t.rd (.mgmt 0) .MGMT_IMG_CTRL_BUSY = 1 ∧ t.rd (.mgmt 0)
    .MGMT_IMG_CTRL_STATUS = 0 := by
  refine gives_awake hs rfl fun _ _ => ?_
  have := Upd.keeps_fact
  have hoff : ((plainWrite st (.mgmt 0) 0x204 v.toNat).run ((grant st (.mgmt 0)).run s)).rd (.mgmt 0) .MGMT_IMG_CHUNK_OFFSET =
      s.rd (.mgmt 0) .MGMT_IMG_CHUNK_OFFSET := by simp +decide
  have hlen : ((plainWrite st (.mgmt 0) 0x204 v.toNat).run ((grant st (.mgmt 0)).run s)).rd (.mgmt 0) .MGMT_IMG_CHUNK_LEN_M1 =
      bits v.toNat 30 16 := by
    simp +decide
    rfl
  obtain ⟨hst, hl, hbusy, hstat, -⟩ := imgChunk_taken (s := (plainWrite st (.mgmt 0) 0x204 v.toNat).run ((grant st (.mgmt 0)).run s))
    ((chunkStatus_congr (by simp) (by simp) (by simp) (by simp +decide) ..).trans htaken)
  simp only [granted_exempt_run (show lockMask (.mgmt 0) 0x204 ≠ 0 by decide) hp, imgChunkWrite, BitVec.testBit_toNat, hgo, all_cons_run,
    all_nil_run, when_true_run, look_run, hoff, hlen]
  exact ⟨hst, hl, hbusy, hstat⟩

theorem register_oversize (st : Stamp) (v : Word) (hgo : v.getLsbD 31 = true) (hsize : s.chunkStatus st.code (s.rd (.mgmt 0)
    .MGMT_IMG_CHUNK_OFFSET) (bits v.toNat 30 16 + 1) = imSIZE) (hp : s.pathOpen st = true) : Gives (.imgCtrlChunk st v) s fun
    t => t.iv .imgSt = 0 ∧ t.rd (.mgmt 0) .MGMT_IMG_CTRL_BUSY = 0 ∧ t.rd (.mgmt 0) .MGMT_IMG_CTRL_STATUS = imSIZE ∧ (t.rd
    (.mgmt 0) .ERR_STICKY_BITS).testBit Err.MGMT_IMG_FAIL.bit = true := by
  refine gives_awake hs rfl fun _ _ => ?_
  have := Upd.keeps_fact
  have hoff : ((plainWrite st (.mgmt 0) 0x204 v.toNat).run ((grant st (.mgmt 0)).run s)).rd (.mgmt 0) .MGMT_IMG_CHUNK_OFFSET =
      s.rd (.mgmt 0) .MGMT_IMG_CHUNK_OFFSET := by simp +decide
  have hlen : ((plainWrite st (.mgmt 0) 0x204 v.toNat).run ((grant st (.mgmt 0)).run s)).rd (.mgmt 0) .MGMT_IMG_CHUNK_LEN_M1 =
      bits v.toNat 30 16 := by
    simp +decide
    rfl
  have hstat : ((plainWrite st (.mgmt 0) 0x204 v.toNat).run ((grant st (.mgmt 0)).run s)).chunkStatus st.code
      (s.rd (.mgmt 0) .MGMT_IMG_CHUNK_OFFSET) (bits v.toNat 30 16 + 1) = imSIZE :=
    (chunkStatus_congr (by simp) (by simp) (by simp) (by simp +decide) ..).trans hsize
  simp only [granted_exempt_run (show lockMask (.mgmt 0) 0x204 ≠ 0 by decide) hp, imgChunkWrite, BitVec.testBit_toNat, hgo, all_cons_run,
    all_nil_run, when_true_run, look_run, hoff, hlen, imgChunk, hstat]
  simp +decide [imgEnds, imgStatus]

theorem register_finish (st : Stamp) (v : Word) (hgo : v.getLsbD 31 = false) (hfin : v.getLsbD 30 = true) (habort : v.getLsbD
    29 = false) (hmay : s.mayInstall st.code = true) (hst : s.iv .imgSt = 2) (hp : s.pathOpen st = true) : Gives
    (.imgCtrlFinish st v) s fun t => t.iv .imgSt = 4 ∧ t.rd (.mgmt 0) .MGMT_IMG_CTRL_BUSY = 1 ∧ t.rd (.mgmt 0)
    .MGMT_IMG_CTRL_STATUS = 0 := by
  refine gives_awake hs rfl fun _ _ => ?_
  have := Upd.keeps_fact
  have hby := rd_plainWrite_ro st v.toNat (s := (grant st (.mgmt 0)).run s) (pg := .mgmt 0) (f := .MGMT_IMG_CTRL_INSTALLER) (i := 0)
    (off := 0x200) (by decide) rfl
  obtain ⟨hst4, hbusy, hstat, -⟩ := imgFinish_checks (s := (plainWrite st (.mgmt 0) 0x200 v.toNat).run ((grant st (.mgmt 0)).run s)) (st := st.code)
    ((mayInstall_congr (by simp) (hby.trans (by simp)) _).trans hmay) (by simpa using hst)
  simp only [granted_exempt_run (show lockMask (.mgmt 0) 0x200 ≠ 0 by decide) hp, imgCtrlWrite, BitVec.testBit_toNat, hgo, hfin, habort,
    all_cons_run, all_nil_run, when_true_run, when_false_run]
  exact ⟨hst4, hbusy, hstat⟩

theorem register_abort (st : Stamp) (v : Word) (hgo : v.getLsbD 31 = false) (hfin : v.getLsbD 30 = false) (habort : v.getLsbD
    29 = true) (hst : s.ivOn .imgSt = true) (hp : s.pathOpen st = true) : Gives (.imgCtrlAbort st v) s fun t => t.iv .imgSt =
    0 ∧ t.iv .imgBytes = 0 ∧ t.rd (.mgmt 0) .MGMT_IMG_CTRL_BUSY = 0 ∧ t.rd (.mgmt 0) .MGMT_IMG_CTRL_STATUS = imABORTED := by
  refine gives_awake hs rfl fun _ _ => ?_
  have hst' : s.iv .imgSt ≠ 0 := by simpa [State.ivOn] using hst
  simp only [granted_exempt_run (show lockMask (.mgmt 0) 0x200 ≠ 0 by decide) hp, imgCtrlWrite, BitVec.testBit_toNat, hgo, hfin, habort]
  simp +decide [hst', imgEnds, imgStatus, imgAbort]

theorem erase_done (hst : s.iv .imgSt = 1) (hgo : s.installs = true) : Gives (.imgEraseDone) s fun t => t.iv .imgSt = 2 ∧ t.rd
    (.mgmt 0) .MGMT_IMG_CTRL_BUSY = 0 ∧ t.rd (.mgmt 0) .MGMT_IMG_CTRL_STATUS = imOK := by
  refine gives_awake hs rfl fun _ _ => ?_
  simp +decide [hst, hgo, imgStatus]

theorem chunk_done (hst : s.iv .imgSt = 3) (hgo : s.installs = true) : Gives (.imgChunkDone) s fun t => t.iv .imgSt = 2 ∧ t.iv
    .imgBytes = s.iv .imgBytes + s.iv .imgLen ∧ t.iv .imgLen = 0 ∧ t.rd (.mgmt 0) .MGMT_IMG_CTRL_BUSY = 0 ∧ t.rd (.mgmt 0)
    .MGMT_IMG_CTRL_STATUS = imOK := by
  refine gives_awake hs rfl fun _ _ => ?_
  simp +decide [hst, hgo, imgStatus]

end

/-- Settles O37: what a start, a chunk, FINISH and ABORT do, then one lemma for each way to ask for it. -/
theorem installationCompletes : Obligations.InstallationCompletes := by
  intro s hs
  exact ⟨sideband_starts hs, sideband_busy hs, sideband_chunk hs, sideband_disorder hs, sideband_finish hs, register_starts
    hs, register_chunk hs, register_oversize hs, register_finish hs, register_abort hs, erase_done hs, chunk_done hs⟩

end Sys2Proof.Machine
end

section
/-! PROOF. Register writes and reads (R68 to R70): a read of CNT_LO at an index that no counter window holds. -/

namespace Sys2Proof.Machine

set_option Elab.async false

/-- CNT_SEL of the page of octet 0 names a PRBS counter, which stands outside the window (R70), and CNT_HI holds what an earlier
read has latched. -/
def prbsSelected : State :=
  wit [wrSt Stamp.fw0.code (.lane 0) .CNT_SEL_INDEX 0x8000, wrSt Stamp.fw0.code (.lane 0) .CNT_HI_HIGH 5]

/-- Refutes O1: a read of CNT_LO at the index of a PRBS counter answers 0 and latches nothing, so CNT_HI keeps its 5, as
`prbsSelected` shows: such an index has a saturation group and yet no place in the counter window (R70). -/
theorem not_accessesComplete : ¬ Obligations.AccessesComplete := by
  intro h
  obtain ⟨-, -, -, -, -, -, -, -, -, -, -, -, -, -, -, -, -, -, hlatch, -⟩ := h prbsSelected (wit_awake _ (by decide +kernel))
  have hread := (hlatch .fw0 (.lane 0) (by decide +kernel) (by decide +kernel) (by decide +kernel) (by decide +kernel)).holds rfl
  exact absurd hread (by decide +kernel)

end Sys2Proof.Machine
end

section
/-! PROOF. Register accesses over the sideband and between switches (R699, R700). -/

namespace Sys2Proof.Machine

set_option Elab.async false


variable {s : State}

/-! ### Where an access leads -/

/-- Where a space address leads depends on the rings of the instances alone. -/
theorem spaceAt_congr {t : State} (h : ∀ v, t.viRings v = s.viRings v) (a : Nat) : t.spaceAt a = s.spaceAt a := by
  unfold State.spaceAt State.tenantAt
  simp only [h]

section
variable [Fact s.wf]

/-- What follows a served sideband message, in the state that the count of messages leaves. -/
theorem spaceAt_served (a : Nat) : ((bump (.mgmt 0) 5).run s).spaceAt a = s.spaceAt a := by
  refine spaceAt_congr (fun v => ?_) a
  simp +decide [State.viRings, State.ringVi, State.ringKind, State.ringOwner]

theorem partnerPort_served (w : Nat) : ((bump (.mgmt 0) 5).run s).partnerPort w = s.partnerPort w := by
  simp +decide [State.partnerPort, State.linkTalks, State.isFab, State.role, State.link, State.on]

theorem switchFeid_served (w : Nat) : ((bump (.mgmt 0) 5).run s).switchFeid? w = s.switchFeid? w := by
  have := Upd.keeps_fact
  refine switchFeid_congr (fun i => ?_) ?_ w
  · simp +decide
  · simp +decide [State.live]

theorem report_served : ((bump (.mgmt 0) 5).run s).report = s.report := by
  simp +decide [State.report, State.on, State.cycleNum]

end

/-- A read is served in Safe Halt too (R699). -/
theorem stoux_read_run {k : Nat} (hen : s.on (.mgmt 2) .MGMT_SMB_CFG_EN k = true) (hfw : s.fwRuns = true) (u : Upd) :
    (stoux k mcREG_READ u).run s = u.run ((bump (.mgmt 0) 5).run s) := by
  simp [stoux, mctpIn, hen, hfw]

/-! ### ERR_MASK over the sideband -/

section
variable {pg : Pg} (hc : pg.common = true)
include hc

omit hc in
/-- ERR_MASK is a whole dword. -/
theorem mask_of (v : Word) : Fld.ERR_MASK_MASK.of v.toNat = v.toNat := Nat.mod_eq_of_lt v.isLt

theorem fieldsAt_mask : fieldsAt pg 0x24 = [(.ERR_MASK_MASK, 0)] := by
  rw [fieldsAt_low hc (by decide)]
  decide

theorem regValue_mask (st : Stamp) : s.regValue st pg 0x24 = s.rd pg .ERR_MASK_MASK := by
  have hstored : s.stored? st pg 0x24 = s.rd pg .ERR_MASK_MASK := by
    rw [State.stored?, fieldsAt_mask hc]
    simp [show Fld.ERR_MASK_MASK.ty = .rw from rfl, show Fld.ERR_MASK_MASK.perStamp = false from rfl, show Fld.ERR_MASK_MASK.lo = 0 from rfl]
  simp [State.regValue, State.headerValue, hc, hstored]

/-- A read of ERR_MASK has no effect beside its answer. -/
theorem regRead_mask_run {st : Stamp} (hp : s.pathOpen st = true) :
    (regRead st pg 0x24 true).run s = (emit (.value st (s.rd pg .ERR_MASK_MASK))).run ((grant st pg).run s) := by
  have hw : windowAt pg 0x24 = none := by
    unfold windowAt
    split <;> rfl
  have hf : fifoAt pg 0x24 = none := by
    unfold fifoAt
    split <;> rfl
  have hl : ∀ t : State, t.latchAt st pg 0x24 = none := by
    intro t
    unfold State.latchAt
    split <;> simp
  have hrc : (fieldsAt pg 0x24).filter (fun fi => fi.1.ty == .rc) = [] := by
    rw [fieldsAt_mask hc]
    rfl
  unfold regRead
  extract_lets sem
  have hsem : sem = false := by
    subst sem
    split <;> rfl
  rw [granting_run hp, hsem]
  simp [popAt, hw, hf, forSome, afterRead, hl, when_run, hrc, regValue_mask hc, grant]

/-- A write of ERR_MASK to a page that is not locked, through its place. -/
theorem placeWrite_mask_run {st : Stamp} (hp : s.pathOpen st = true) (v : Nat) :
    (placeWrite st ⟨.reg pg 0x24 false, pg⟩ true false v).run s = (plainWrite st pg 0x24 v).run ((grant st pg).run s) := by
  have hu : upperOf pg 0x24 = none := by
    unfold upperOf
    split <;> rfl
  have heff : regEffect st pg 0x24 false v = plainWrite st pg 0x24 v := by
    simp [regEffect, hc, headerWrite]
  simp only [placeWrite, hu, granting_run hp, heff]

/-- The sideband reads ERR_MASK of a page. -/
theorem sbRead_mask_run {a : SpaceAddr} (hplace : s.spaceAt (a.toNat - a.toNat % 4) = ⟨.reg pg 0x24 false, pg⟩) (reply : Nat → Nat → Upd) :
    (sbRead a reply).run s = (reply msOK (s.rd pg .ERR_MASK_MASK)).run
      ((emit (.value .sb (s.rd pg .ERR_MASK_MASK))).run ((grant .sb pg).run s)) := by
  have hread : (accessRead .sb (.space a) 1 true).run s = (emit (.value .sb (s.rd pg .ERR_MASK_MASK))).run ((grant .sb pg).run s) := by
    have hp : s.pathOpen .sb = true := rfl
    simp [accessRead, onPath, hp, badLength, forBelow, State.placeOf, hplace, placeRead, regRead_mask_run hc hp]
  simp only [sbRead, look_run, all_cons_run, all_nil_run, hread]
  have hnone : State.busErrorSince ((emit (.value .sb (s.rd pg .ERR_MASK_MASK))).run ((grant .sb pg).run s)) s = false := by
    simp +decide [State.busErrorSince]
  simp only [hnone]
  rfl

/-- The sideband writes ERR_MASK of a page. -/
theorem sbWrite_mask_run [Fact s.wf] {a : SpaceAddr} (hplace : s.spaceAt (a.toNat - a.toNat % 4) = ⟨.reg pg 0x24 false, pg⟩)
    (hlock : s.locked pg = false) (hhalt : s.safeHalt = false) (v : Word) (reply : Nat → Upd) :
    (sbWrite a v reply).run s = (reply msOK).run ((plainWrite .sb pg 0x24 v.toNat).run ((grant .sb pg).run s)) := by
  have hwrite : (accessWrite .sb (.space a) 1 true false v 0).run s = (plainWrite .sb pg 0x24 v.toNat).run ((grant .sb pg).run s) := by
    have hp : s.pathOpen .sb = true := rfl
    have hu : upperOf pg 0x24 = none := by
      unfold upperOf
      split <;> rfl
    simp [accessWrite, onPath, hp, badLength, dwordWrites, State.placeOf, hplace, placeWrite_mask_run hc hp, Place.upper, hu, State.accErrs,
      State.lockedOut, hlock, forSome]
  simp only [sbWrite, look_run, hhalt, Bool.false_eq_true, if_false, all_cons_run, all_nil_run, hwrite]
  have hnone : State.busErrorSince ((plainWrite .sb pg 0x24 v.toNat).run ((grant .sb pg).run s)) s = false := by
    have := Upd.keeps_fact
    simp [State.busErrorSince]
  simp only [hnone]
  rfl

end

section
variable {s : State} (hs : s.Awake)
include hs

theorem mask_read (k : Fin 4) (pg : Pg) (hen : s.on (.mgmt 2) .MGMT_SMB_CFG_EN k = true) (hfw : s.fwRuns = true) (_ : pg.ok =
    true) (hc : pg.common = true) (hplace : s.placeOf .sb (.space (BitVec.ofNat 26 (pg.base + 0x24))) 0 = ⟨.reg pg 0x24 false,
    pg⟩) : Gives (.regRead k (BitVec.ofNat 26 (pg.base + 0x24))) s fun t => t.out.head? = some (Out.mctp k mcREG_READ msOK
    [s.rd pg .ERR_MASK_MASK]) := by
  refine gives_awake hs rfl fun _ _ => ?_
  rw [stoux_read_run hen hfw, sbRead_mask_run hc ((spaceAt_served _).trans hplace)]
  simp +decide [hc]

theorem mask_written (k : Fin 4) (pg : Pg) (v : Word) (hen : s.on (.mgmt 2) .MGMT_SMB_CFG_EN k = true) (hfw : s.fwRuns = true)
    (_ : pg.ok = true) (hc : pg.common = true) (hplace : s.placeOf .sb (.space (BitVec.ofNat 26 (pg.base + 0x24))) 0 = ⟨.reg
    pg 0x24 false, pg⟩) (hlock : s.locked pg = false) (hhalt : s.safeHalt = false) : Gives (.regWrite k (BitVec.ofNat 26
    (pg.base + 0x24)) v) s fun t => t.rd pg .ERR_MASK_MASK = v.toNat ∧ t.out.head? = some (Out.mctp k mcREG_WRITE msOK []) :=
    by
  refine gives_awake hs rfl fun _ _ => ?_
  have := Upd.keeps_fact
  have hlock' : ((bump (.mgmt 0) 5).run s).locked pg = false := by simpa +decide [State.locked, State.on, hc] using hlock
  have hhalt' : ((bump (.mgmt 0) 5).run s).safeHalt = false := by simpa +decide [State.safeHalt] using hhalt
  rw [stoux_run hen hfw hhalt, sbWrite_mask_run hc ((spaceAt_served _).trans hplace) hlock' hhalt']
  simp +decide [hc]
  exact mask_of v

theorem mask_denied (k : Fin 4) (pg : Pg) (v : Word) (hen : s.on (.mgmt 2) .MGMT_SMB_CFG_EN k = true) (hfw : s.fwRuns = true)
    (_ : pg.ok = true) (hc : pg.common = true) (hhalt : s.safeHalt = true) : Gives (.regWrite k (BitVec.ofNat 26 (pg.base +
    0x24)) v) s fun t => t.rd pg .ERR_MASK_MASK = s.rd pg .ERR_MASK_MASK ∧ t.out.head? = some (Out.mctp k mcREG_WRITE msDENIED
    []) := by
  refine gives_awake hs rfl fun _ _ => ?_
  have hhalt' : ((addCnt (.mgmt 0) 5 1).run s).safeHalt = true := by simpa +decide [State.safeHalt] using hhalt
  simp +decide [stoux, mctpIn, hen, hfw, hhalt', hc]

theorem remote_noRoute (k : Fin 4) (w : SwId) (a : SpaceAddr) (hen : s.on (.mgmt 2) .MGMT_SMB_CFG_EN k = true) (hfw : s.fwRuns
    = true) (hhalt : s.safeHalt = false) (hfeid : s.switchFeid? w = none) (hport : s.partnerPort w = none) : Gives
    (.remoteRead k w a) s fun t => t.out.head? = some (Out.mctp k mcREMOTE_READ msNO_ROUTE []) ∧ t.fifo .remotes = s.fifo
    .remotes := by
  refine gives_awake hs rfl fun _ _ => ?_
  rw [stoux_run hen hfw hhalt, remoteSend, look_run]
  simp +decide only [(switchFeid_served _).trans hfeid, (partnerPort_served _).trans hport, Option.filter_none]
  simp +decide

theorem remote_read (k : Fin 4) (w : SwId) (a : SpaceAddr) (p : Nat) (hen : s.on (.mgmt 2) .MGMT_SMB_CFG_EN k = true) (hfw :
    s.fwRuns = true) (hhalt : s.safeHalt = false) (hfeid : s.switchFeid? w = none) (hport : s.partnerPort w = some p) : Gives
    (.remoteRead k w a) s fun t => t.fifo .remotes = s.fifo .remotes ++ [(s.iv .remoteId % 65536) + 65536 * k] ∧ t.iv
    .remoteId = (s.iv .remoteId % 65536) + 1 := by
  refine gives_awake hs rfl fun _ _ => ?_
  have := Upd.keeps_fact
  have hlink := sendOnLink_in (Foot.le_refl _)
  rw [stoux_run hen hfw hhalt, remoteSend, look_run]
  simp +decide only [(switchFeid_served _).trans hfeid, (partnerPort_served _).trans hport, Option.filter_none]
  simp +decide [fifo_of_in (hlink _ _ _), iv_of_in (hlink _ _ _), push]

theorem remote_write (k : Fin 4) (w : SwId) (a : SpaceAddr) (v : Word) (p : Nat) (hen : s.on (.mgmt 2) .MGMT_SMB_CFG_EN k =
    true) (hfw : s.fwRuns = true) (hhalt : s.safeHalt = false) (hfeid : s.switchFeid? w = none) (hport : s.partnerPort w =
    some p) : Gives (.remoteWrite k w a v) s fun t => t.fifo .remotes = s.fifo .remotes ++ [(s.iv .remoteId % 65536) + 65536 *
    k + 2 ^ 20] ∧ t.iv .remoteId = (s.iv .remoteId % 65536) + 1 := by
  refine gives_awake hs rfl fun _ _ => ?_
  have := Upd.keeps_fact
  have hlink := sendOnLink_in (Foot.le_refl _)
  rw [stoux_run hen hfw hhalt, remoteSend, look_run]
  simp +decide only [(switchFeid_served _).trans hfeid, (partnerPort_served _).trans hport, Option.filter_none]
  simp +decide [fifo_of_in (hlink _ _ _), iv_of_in (hlink _ _ _), push]

theorem served_write (x : Option PortId) (w p : Nat) (pg : Pg) (v : Word) (i : BitVec 16) (_ : pg.ok = true) (hc : pg.common =
    true) (hplace : s.placeOf .sb (.space (BitVec.ofNat 26 (pg.base + 0x24))) 0 = ⟨.reg pg 0x24 false, pg⟩) (hfw : s.fwRuns =
    true) (hallow : s.remoteAllowed w true = true) (hlock : s.locked pg = false) (hhalt : s.safeHalt = false) : Gives
    (.remoteAccessReceived x w p true (BitVec.ofNat 26 (pg.base + 0x24)) v i) s fun t => t.rd pg .ERR_MASK_MASK = v.toNat :=
    by
  refine gives_awake hs rfl fun _ _ => ?_
  have := Upd.keeps_fact
  have hans := remoteAnswer_in (Foot.le_refl _)
  simp only [look_run, hfw, when_true_run, hallow, Bool.not_true, Bool.false_eq_true, if_false, if_true, sbWrite_mask_run hc hplace hlock hhalt]
  rw [rd_of_in (hans _ _ _ _ _) (hdr_mem hc (by decide)) (by generalize Fam.of pg = k; cases k <;> decide)]
  simp +decide [hc]
  exact mask_of v

theorem served_refused (x : Option PortId) (w p : Nat) (pg : Pg) (v : Word) (i : BitVec 16) (_ : pg.ok = true) (hc : pg.common
    = true) (hfw : s.fwRuns = true) (hallow : s.remoteAllowed w true = false) : Gives (.remoteAccessReceived x w p true
    (BitVec.ofNat 26 (pg.base + 0x24)) v i) s fun t => t.rd pg .ERR_MASK_MASK = s.rd pg .ERR_MASK_MASK ∧ (t.rd (.mgmt 0)
    .ERR_STICKY_BITS).testBit Err.MGMT_REMOTE_REFUSED.bit = true := by
  refine gives_awake hs rfl fun _ _ => ?_
  have := Upd.keeps_fact
  have hans := remoteAnswer_in (Foot.le_refl _)
  simp only [look_run, hfw, when_true_run, hallow, Bool.not_false, if_true, all_cons_run, all_nil_run]
  rw [rd_of_in (hans _ _ _ _ _) (hdr_mem hc (by decide)) (by generalize Fam.of pg = k; cases k <;> decide)]
  simp +decide [hc, rd_of_in (hans _ _ _ _ _)]

theorem remote_answered (x : Fin 6) (v : Word) (i : BitVec 16) (k : Fin 4) (hq : s.fifo .remotes = [i.toNat + 65536 * k]) :
    Gives (.remoteResponseReceived x v i) s fun t => t.fifo .remotes = [] ∧ (t.out = Out.mctp k mcREMOTE_READ x (if x.val =
    msOK then [v.toNat] else []) :: s.out) := by
  refine gives_awake hs rfl fun _ _ => ?_
  have hbit : (i.toNat + 65536 * k.val).testBit 20 = false := Nat.testBit_lt_two_pow (by omega)
  have hid : (i.toNat + 65536 * k.val) % 65536 = i.toNat := by omega
  have hk : (i.toNat + 65536 * k.val) / 65536 % 4 = k := by omega
  simp [remoteEnds, hq, hid, hk, hbit]

theorem remote_timeout (i : BitVec 16) (k : Fin 4) (hq : s.fifo .remotes = [i.toNat + 65536 * k + 2 ^ 20]) : Gives
    (.remoteTimeout i) s fun t => t.fifo .remotes = [] ∧ t.out = Out.mctp k mcREMOTE_WRITE msTIMEOUT [] :: s.out := by
  refine gives_awake hs rfl fun _ _ => ?_
  have hbit : (i.toNat + 65536 * k.val + 1048576).testBit 20 = true := by
    rw [Nat.testBit_eq_decide_div_mod_eq, decide_eq_true_eq]
    omega
  have hid : (i.toNat + 65536 * k.val + 1048576) % 65536 = i.toNat := by omega
  have hk : (i.toNat + 65536 * k.val + 1048576) / 65536 % 4 = k := by omega
  simp [remoteEnds, hq, hid, hk, hbit]

theorem telemetry_sent (k : Fin 4) (hen : s.on (.mgmt 2) .MGMT_SMB_CFG_EN k = true) (hfw : s.fwRuns = true) (hhalt :
    s.safeHalt = false) : Gives (.telemetry k) s fun t => t.out.head? = some (Out.mctp k mcTELEMETRY msOK s.report) ∧ t.cnt
    (.mgmt 0) 5 = min (s.cnt (.mgmt 0) 5 + 1) cntMax := by
  refine gives_awake hs rfl fun _ _ => ?_
  have hreport := report_served (s := s)
  rw [stoux_run hen hfw hhalt, look_run, hreport]
  simp +decide

end

/-- Settles O36: a register access reaches ERR_MASK of its page; a remote access leaves, is served and ends. -/
theorem sidebandAccessesComplete : Obligations.SidebandAccessesComplete := by
  intro s hs
  exact ⟨mask_read hs, mask_written hs, mask_denied hs, remote_noRoute hs, remote_read hs, remote_write hs, served_write hs,
    served_refused hs, remote_answered hs, remote_timeout hs, telemetry_sent hs⟩

end Sys2Proof.Machine
end

section
/-! PROOF. The supplies, cold and warm resets, and wakes (R99 to R105, R125 to R134, R158 to R161). -/

namespace Sys2Proof.Machine

set_option Elab.async false


variable {s : State}

section
variable [Fact s.wf]

/-- A wake is a cold reset with its source recorded, and no source is armed any more (R160). -/
theorem wake_wakes {src : Nat} (hsrc : src < 16) : ((wake src).run s).iv .dieReset = drCOLD ∧
    ((wake src).run s).rd .glb .GLB_RESET_CAUSE_LAST = rcWAKE ∧ ((wake src).run s).rd .glb .GLB_RESET_CAUSE_WAKE_SRC = src ∧
    ((wake src).run s).rd .glb .GLB_RESET_CAUSE_COLD_WAKE = 1 ∧ ((wake src).run s).iv .wakeCtl = 0 ∧
    ∀ f, ((wake src).run s).iv .fperst f = s.iv .fperst f := by
  have := Upd.keeps_fact
  have hstart : (forBelow 24 chanStart).In _ := forBelow_in fun c => chanStart_in (Foot.le_refl _) c
  have hdie := dieReset_coldReset (s := s) rcWAKE false
  have hlast := last_coldReset (s := s) rcWAKE false
  have hkeep := fun f => iv_coldReset (s := s) rcWAKE false (x := .fperst) (by decide) f
  have hwake : ((coldReset rcWAKE false).run s).rd .glb .GLB_RESET_CAUSE_COLD_WAKE = 1 := by simp +decide [coldReset, interrupted]
  simp +decide [wake, rd_of_in hstart, iv_of_in hstart, interrupted, hdie, hlast, hkeep, hwake]
  exact Nat.mod_eq_of_lt hsrc

end

section
variable {s : State} (hs : s.wf)
include hs

theorem vkeep_rises (hoff : s.ivOn .noVkeep = true) : Gives (.vkeepRise) s fun t => t.iv .noVkeep = 0 := by
  refine gives_always hs rfl fun _ _ => ?_
  have := Upd.keeps_fact
  have hstart : (forBelow 24 chanStart).In _ := forBelow_in fun c => chanStart_in (Foot.le_refl _) c
  simp +decide [hoff, iv_of_in hstart]

theorem vkeep_lost : Gives (.vkeepLoss) s fun t => t.iv .dieReset = drCOLD ∧ t.iv .noVkeep = 1 ∧ t.rd .glb
    .GLB_RESET_CAUSE_LAST = rcVKEEP ∧ t.rd .glb .GLB_RESET_CAUSE_COLD_VKEEP = 1 ∧ t.buf = [] ∧ t.slots = [] ∧ t.cnts = [] ∧
    t.arb = s.arb := by
  refine gives_always hs rfl fun _ _ => ?_
  have := Upd.keeps_fact
  obtain ⟨hbuf, hslots, harb⟩ := coldReset_empties (s := s) rcVKEEP false
  have hvkeep : ((coldReset rcVKEEP false).run s).rd .glb .GLB_RESET_CAUSE_COLD_VKEEP = 1 := by simp +decide [coldReset, interrupted]
  simp +decide [dieReset_coldReset, last_coldReset, hvkeep, hbuf, hslots, harb, cnts_coldReset]

theorem rail_lost (c : ChanId) (hawake : s.iv .dieReset = 0) : Gives (.railLoss) s fun t => t.iv .dieReset = drCOLD ∧ t.rd
    .glb .GLB_RESET_CAUSE_LAST = rcRAIL ∧ t.rd .glb .GLB_RESET_CAUSE_COLD_RAIL = 1 ∧ t.chan c = s.chan c ∧ t.buf = [] ∧ t.arb
    = s.arb := by
  refine gives_always hs rfl fun _ _ => ?_
  have := Upd.keeps_fact
  obtain ⟨hbuf, -, harb⟩ := coldReset_empties (s := s) rcRAIL true
  have hrail : ((coldReset rcRAIL true).run s).rd .glb .GLB_RESET_CAUSE_COLD_RAIL = 1 := by simp +decide [coldReset, interrupted]
  have hchan : ((coldReset rcRAIL true).run s).rd (.pwr c) .PWR_CH_STAT_STATE = s.rd (.pwr c) .PWR_CH_STAT_STATE := by
    have hclear := fun (t : State) (_ : Fact t.wf) => rd_coldClear_pwr (s := t) (pg := .pwr c) (f := .PWR_CH_STAT_STATE) (i := 0)
        (own_mem (show _ ∈ tabPWR by decide)) rfl
      (decide_eq_true c.isLt) (.inl (by decide))
    simp +decide [coldReset, interrupted, haltStays, cycOutLow, hclear]
  simp only [look_run, hawake]
  simp +decide [dieReset_coldReset, last_coldReset, hrail, hbuf, harb, hchan, State.chan]

theorem rail_lost_quiet (hquiet : s.iv .dieReset = drQUIET) : Gives (.railLoss) s fun t => t = s := by
  refine gives_always hs rfl fun _ _ => ?_
  simp +decide [hquiet]

theorem rails_good (hcold : s.iv .dieReset = drCOLD) (hvkeep : s.iv .noVkeep = 0) : Gives (.switchDieRailsGood) s fun t =>
    t.iv .coldQual = 1 ∧ t.iv .dieReset = drCOLD := by
  refine gives_always hs rfl fun _ _ => ?_
  simp +decide [hcold, State.ivOn, hvkeep]

theorem cold_ends (f : FaceId) (hcold : s.iv .dieReset = drCOLD) (hqual : s.ivOn .coldQual = true) (hpin : s.iv .devRst = 0)
    (hface : (s.iv .wakeFaces).testBit f = true) : Gives (.coldResetEnd) s fun t => t.iv .dieReset = 0 ∧ t.iv .coldQual = 0 ∧
    t.rd (.face f) .FACE_PM_STAT_FWAKE = 1 := by
  refine gives_always hs rfl fun _ _ => ?_
  have := Upd.keeps_fact
  have hnonce := newNonce_in (Foot.le_refl _)
  have hfaces : ∀ l, (forEach l fun f => wr (.face f) .FACE_PM_STAT_FWAKE 1).In (Foot.fields .face [.FACE_PM_STAT_FWAKE]) := 
    fun l => forEach_in fun f => wr_in (own_mem (show _ ∈ tabFACE by decide)) (fields_regs (by decide))
  have hfwake : ((forEach (allBelow 32 (s.iv .wakeFaces).testBit) fun f => wr (.face f) .FACE_PM_STAT_FWAKE 1).run
      (newNonce.run ((put .coldQual 0).run s))).rd (.face f) .FACE_PM_STAT_FWAKE = 1 := by
    refine forEach_reaches (P := fun _ => True) (Q := fun t => t.rd (.face f) .FACE_PM_STAT_FWAKE = 1) (a := f.val)
      (List.nodup_range.filter _) (List.mem_filter.2 ⟨List.mem_range.2 f.isLt, hface⟩) (fun _ _ _ _ _ _ => trivial) ?_ ?_ _ trivial
    · intro t _ _
      simp +decide
    · intro g _ hg t _ ht
      have hne : Pg.face f ≠ .face g := fun he => hg (Pg.face.inj he).symm
      simpa +decide [hne] using ht
  simp only [look_run, hcold, hqual]
  simp +decide [hfwake, State.ivOn, hpin, iv_of_in (hfaces _), iv_of_in hnonce]

theorem cold_ends_pin (hcold : s.iv .dieReset = drCOLD) (hqual : s.ivOn .coldQual = true) (hpin : s.ivOn .devRst = true) :
    Gives (.coldResetEnd) s fun t => t.iv .dieReset = drWARM ∧ t.rd .glb .GLB_RESET_CAUSE_LAST = rcPIN := by
  refine gives_always hs rfl fun _ _ => ?_
  simp only [look_run, hcold, hqual, hpin]
  simp +decide [warmCause]

theorem crystal_lost_cold (hcold : s.iv .dieReset = drCOLD) : Gives (.crystalLoss) s fun t => t.iv .coldQual = 0 := by
  refine gives_always hs rfl fun _ _ => ?_
  simp +decide [hcold]

theorem crystal_lost (hawake : s.iv .dieReset = 0) (hhalt : s.safeHalt = false) : Gives (.crystalLoss) s fun t => t.safeHalt =
    true ∧ t.iv .haltRel = 0 ∧ t.rd (.guard 0) .GUARD_HALT_CAUSE_CAUSE = hcCRYSTAL ∧ t.rd (.guard 0) .GUARD_HALT_CAUSE_VALID =
    1 := by
  refine gives_always hs rfl fun _ _ => ?_
  obtain ⟨hsafe, hrel, hcause, hvalid⟩ := safeHaltNow_halts hhalt hcCRYSTAL 0 0 0
  simp only [look_run, hawake, State.inReset, State.ivOn]
  exact ⟨hsafe, hrel, hcause, hvalid⟩

theorem pin_asserted (i : Nat) (hawake : s.iv .dieReset = 0) (_ : i < 2 ^ 40) : Gives (.devRstNAssert) s fun t => t.iv .devRst
    = 1 ∧ t.iv .dieReset = drWARM ∧ t.rd .glb .GLB_RESET_CAUSE_LAST = rcPIN ∧ t.rd .glb .GLB_RESET_CAUSE_WARM_PIN = 1 ∧ t.iv
    .plate i = s.iv .plate i ∧ t.buf = [] ∧ t.arb = s.arb := by
  refine gives_always hs rfl fun _ _ => ?_
  have := Upd.keeps_fact
  have hrun : (all [put .devRst 1, if s.iv .dieReset == drWARM then warmCause rcPIN else when_ (!s.inReset) (warmReset rcPIN)]).run s =
      (warmReset rcPIN).run ((put .devRst 1).run s) := by
    simp [hawake, State.inReset, State.ivOn, drWARM]
  obtain ⟨hlast, -, hpin⟩ := warmReset_cause (s := (put .devRst 1).run s) rcPIN
  obtain ⟨hbuf, harb⟩ := warmReset_empties (s := (put .devRst 1).run s) rcPIN
  rw [look_run, hrun, iv_warmReset _ (by decide) (by decide), dieReset_warmReset, hlast, hpin rfl, iv_warmReset _ (by decide) (by decide),
    hbuf, harb]
  simp +decide

theorem pin_asserted_quiet (hquiet : s.iv .dieReset = drQUIET) : Gives (.devRstNAssert) s fun t => t.iv .devRst = 1 ∧ t.iv
    .dieReset = drQUIET ∧ t.regs = s.regs := by
  refine gives_always hs rfl fun _ _ => ?_
  have hin : s.inReset = true := by simp [State.inReset, State.ivOn, hquiet, drQUIET]
  simp +decide [hquiet, hin, when_run]

theorem pin_released (hwarm : s.iv .dieReset = drWARM) (hreg : s.iv .warmReg = 0) : Gives (.devRstNRelease) s fun t => t.iv
    .devRst = 0 ∧ t.iv .dieReset = 0 := by
  refine gives_always hs rfl fun _ _ => ?_
  have := Upd.keeps_fact
  have hhalt := fun a b c d => safeHaltNow_in (Foot.le_refl _) a b c d
  simp +decide [warmEnds, hwarm, hreg, State.ivOn, iv_of_in (hhalt _ _ _ _)]

theorem pin_released_held (hwarm : s.iv .dieReset = drWARM) (hreg : s.ivOn .warmReg = true) : Gives (.devRstNRelease) s fun t
    => t.iv .devRst = 0 ∧ t.iv .dieReset = drWARM := by
  refine gives_always hs rfl fun _ _ => ?_
  have hreg' : s.iv .warmReg ≠ 0 := by simpa [State.ivOn] using hreg
  simp +decide [warmEnds, hwarm, hreg', State.ivOn]

theorem warm_ends (hwarm : s.iv .dieReset = drWARM) (hpin : s.iv .devRst = 0) : Gives (.warmResetEnd) s fun t => t.iv .warmReg
    = 0 ∧ t.iv .dieReset = 0 := by
  refine gives_always hs rfl fun _ _ => ?_
  have := Upd.keeps_fact
  have hhalt := fun a b c d => safeHaltNow_in (Foot.le_refl _) a b c d
  simp +decide [warmEnds, hwarm, hpin, State.ivOn, iv_of_in (hhalt _ _ _ _)]

theorem vwake (hquiet : s.iv .dieReset = drQUIET) (hen : (s.iv .wakeCtl).testBit 0 = true) : Gives (.wakeVwake) s fun t =>
    t.iv .dieReset = drCOLD ∧ t.rd .glb .GLB_RESET_CAUSE_LAST = rcWAKE ∧ t.rd .glb .GLB_RESET_CAUSE_WAKE_SRC = 1 ∧ t.rd .glb
    .GLB_RESET_CAUSE_COLD_WAKE = 1 ∧ t.iv .wakeCtl = 0 := by
  refine gives_always hs rfl fun _ _ => ?_
  obtain ⟨hdie, hlast, hsrc, hwake, hctl, -⟩ := wake_wakes (s := s) (src := 1) (by decide)
  simp only [wakeBy, look_run, hen, when_true_run, hquiet, BEq.rfl, if_true]
  exact ⟨hdie, hlast, hsrc, hwake, hctl⟩

theorem timer_wakes (hquiet : s.iv .dieReset = drQUIET) (hen : (s.iv .wakeCtl).testBit 3 = true) : Gives (.wakeTimerExpiry) s
    fun t => t.iv .dieReset = drCOLD ∧ t.rd .glb .GLB_RESET_CAUSE_LAST = rcWAKE ∧ t.rd .glb .GLB_RESET_CAUSE_WAKE_SRC = 4 ∧
    t.rd .glb .GLB_RESET_CAUSE_COLD_WAKE = 1 ∧ t.iv .wakeCtl = 0 := by
  refine gives_always hs rfl fun _ _ => ?_
  obtain ⟨hdie, hlast, hsrc, hwake, hctl, -⟩ := wake_wakes (s := s) (src := 4) (by decide)
  simp only [wakeBy, look_run, hen, when_true_run, hquiet, BEq.rfl, if_true]
  exact ⟨hdie, hlast, hsrc, hwake, hctl⟩

theorem presence_wakes (hquiet : s.iv .dieReset = drQUIET) (hen : (s.iv .wakeCtl).testBit 2 = true) : Gives (.wakePrsnt) s fun
    t => t.iv .dieReset = drCOLD ∧ t.rd .glb .GLB_RESET_CAUSE_LAST = rcWAKE ∧ t.rd .glb .GLB_RESET_CAUSE_WAKE_SRC = 3 ∧ t.rd
    .glb .GLB_RESET_CAUSE_COLD_WAKE = 1 ∧ t.iv .wakeCtl = 0 := by
  refine gives_always hs rfl fun _ _ => ?_
  obtain ⟨hdie, hlast, hsrc, hwake, hctl, -⟩ := wake_wakes (s := s) (src := 3) (by decide)
  simp only [wakeBy, look_run, hen, when_true_run, hquiet, BEq.rfl, if_true]
  exact ⟨hdie, hlast, hsrc, hwake, hctl⟩

theorem fperst_wakes (f : FaceId) (hquiet : s.iv .dieReset = drQUIET) (hen : (s.iv .wakeCtl).testBit 1 = true) : Gives
    (.wakeFperst f) s fun t => t.iv .dieReset = drCOLD ∧ t.rd .glb .GLB_RESET_CAUSE_LAST = rcWAKE ∧ t.rd .glb
    .GLB_RESET_CAUSE_WAKE_SRC = 2 ∧ t.rd .glb .GLB_RESET_CAUSE_COLD_WAKE = 1 ∧ t.iv .wakeCtl = 0 ∧ t.iv .fperst f = 1 := by
  refine gives_always hs rfl fun _ _ => ?_
  have := Upd.keeps_fact
  obtain ⟨hdie, hlast, hsrc, hwake, hctl, hpin⟩ := wake_wakes (s := (put .fperst 1 f).run s) (src := 2) (by decide)
  have hen' : (((put .fperst 1 f).run s).iv .wakeCtl).testBit 1 = true := by simpa using hen
  have hquiet' : (((put .fperst 1 f).run s).iv .dieReset == drQUIET) = true := by simpa using hquiet
  simp only [all_cons_run, all_nil_run, wakeBy, look_run, hen', when_true_run, hquiet', if_true]
  exact ⟨hdie, hlast, hsrc, hwake, hctl, (hpin f).trans (by simp)⟩

theorem timer_not_armed (_ : s.iv .dieReset = drQUIET) (hen : (s.iv .wakeCtl).testBit 3 = false) : Gives (.wakeTimerExpiry) s
    fun t => t = s := by
  refine gives_always hs rfl fun _ _ => ?_
  simp +decide [wakeBy, hen]

end

/-- Settles O3: one lemma for each supply, pin and wake source, from what a cold and a warm reset leave. -/
theorem resetsComplete : Obligations.ResetsComplete := by
  intro s hs
  exact ⟨vkeep_rises hs, vkeep_lost hs, rail_lost hs, rail_lost_quiet hs, rails_good hs, cold_ends hs, cold_ends_pin hs,
    crystal_lost_cold hs, crystal_lost hs, pin_asserted hs, pin_asserted_quiet hs, pin_released hs, pin_released_held hs,
    warm_ends hs, vwake hs, timer_wakes hs, presence_wakes hs, fperst_wakes hs, timer_not_armed hs⟩

end Sys2Proof.Machine
end

section
/-! PROOF. Quiet entry, temperature, reference clocks, and warm resets by the part (R111 to R121, R132, R158 to R161, R616). -/

namespace Sys2Proof.Machine

set_option Elab.async false


variable {s : State}

section
variable [Fact s.wf]

/-- A warm reset by the register or the part itself. -/
theorem warmByRegister_resets (ha : s.inReset = false) : (warmByRegister.run s).iv .dieReset = drWARM ∧ (warmByRegister.run s).iv .warmReg = 1 ∧
    (warmByRegister.run s).rd .glb .GLB_RESET_CAUSE_LAST = rcREG ∧ (warmByRegister.run s).buf = [] := by
  have hrun : warmByRegister.run s = (warmReset rcREG).run s := by simp [warmByRegister, ha]
  obtain ⟨hlast, hreg, -⟩ := warmReset_cause (s := s) rcREG
  rw [hrun]
  exact ⟨dieReset_warmReset rcREG, hreg, hlast, (warmReset_empties rcREG).1⟩

end

/-- A domain is one of its twins. -/
theorem mem_twins (d : Dom) : d ∈ s.twins d := by
  unfold State.twins
  split
  · split <;> simp
  · split <;> simp
  · simp

/-- A port's domain is the port or its link. -/
theorem portDom_cases (p : Nat) : s.portDom p = .link p ∨ s.portDom p = .port p := by
  unfold State.portDom
  split
  · exact .inl rfl
  · exact .inr rfl

/-- The twins of a port's domain are itself and a face. -/
theorem twins_portDom {p : Nat} {e : Dom} (he : e ∈ s.twins (s.portDom p)) : e = s.portDom p ∨ ∃ f, e = .face f := by
  rcases portDom_cases (s := s) p with h | h <;> rw [h] at he ⊢ <;> simp only [State.twins] at he
  · exact .inl (List.mem_singleton.1 he)
  · split at he
    · refine (List.mem_cons.1 he).imp id fun hface => ?_
      obtain ⟨f, -, hf⟩ : ∃ f, s.faceOf p = some f ∧ .face f = e := by simpa using hface
      exact ⟨f, hf.symm⟩
    · exact .inl (List.mem_singleton.1 he)

section
variable [Fact s.wf]

/-- A port whose domain is in state NONE goes into the power quiesce (R624). -/
theorem powerQuiesce_quiesces {p : Nat} (hn : s.domState (s.portDom p) = gdNONE) (r : GReq) :
    ((powerQuiesce p r).run s).domState (s.portDom p) = gdQUIESCED ∧ ((powerQuiesce p r).run s).rd (.port p) .BLK_CTRL_QUIESCE = 1 ∧
    ((powerQuiesce p r).run s).cnt (.guard 0) 11 = min (s.cnt (.guard 0) 11 + 1) cntMax := by
  have := Upd.keeps_fact
  have hlog := fun r => logRec_in (Foot.le_refl _) r
  have hfeids : ∀ l, (forEach l (feidLost true)).In _ := fun l => forEach_in fun n => feidLost_in (Foot.le_refl _) true n
  have hgds : ∀ l, (forEach l fun e => wgds e .GDS_LANE_STATE gdQUIESCED).In _ :=
    fun l => forEach_in fun e => wgds_in (Foot.le_refl _) e (by decide) _
  have hstate := gds_forEach_wgds (f := .GDS_LANE_STATE) (by decide) (mem_twins (s := s) (s.portDom p)) gdQUIESCED
    ((wr (.port p) .BLK_CTRL_QUIESCE 1).run s)
  have hlogCnt := fun r => logRec_keepsCnt (pg := .guard 0) (i := 11) (by decide) (by decide) r
  simp only [powerQuiesce, look_run, hn, bne_self_eq_false, Bool.false_eq_true, if_false, all_cons_run, all_nil_run]
  simp only [domState_eq]
  refine ⟨?_, ?_, ?_⟩
  · rw [gds_of_in (hfeids _) (by decide +kernel) (by decide), gds_of_in (hlog _) (by decide +kernel) (by decide),
      gds_of_in (bump_in rfl (Foot.le_refl _) _) (by decide +kernel) (by decide), hstate]
    rfl
  · simp +decide [rd_of_in (hfeids _), rd_of_in (hlog _), rd_of_in (hgds _)]
  · rw [cnt_of_in (hfeids _) (by decide), hlogCnt _ _ (Upd.keeps_wf _ (Upd.keeps_wf _ (Upd.keeps_wf _ (Fact.out))))]
    simp +decide [cnt_of_in (hgds _)]

/-- It touches the domains of its own port alone, and no other port's QUIESCE. -/
theorem powerQuiesce_spares {p q : Nat} (hne : q ≠ p) (r : GReq) :
    ((powerQuiesce q r).run s).domState (.port p) = s.domState (.port p) ∧
    ((powerQuiesce q r).run s).rd (.port p) .BLK_CTRL_QUIESCE = s.rd (.port p) .BLK_CTRL_QUIESCE := by
  have := Upd.keeps_fact
  have hlog := fun r => logRec_in (Foot.le_refl _) r
  have hfeids : ∀ l, (forEach l (feidLost true)).In _ := fun l => forEach_in fun n => feidLost_in (Foot.le_refl _) true n
  have hgds : ∀ l, (forEach l fun e => wgds e .GDS_LANE_STATE gdQUIESCED).In _ :=
    fun l => forEach_in fun e => wgds_in (Foot.le_refl _) e (by decide) _
  have htwins : ∀ e ∈ s.twins (s.portDom q), domOff (.port p) ≠ domOff e := by
    intro e he
    rcases twins_portDom he with rfl | ⟨f, rfl⟩
    · rcases portDom_cases (s := s) q with h | h <;> rw [h] <;> simp [domOff, hne.symm]
    · simp [domOff]
  have hpage : Pg.port p ≠ .port q := fun he => hne (Pg.port.inj he).symm
  rw [powerQuiesce, look_run]
  dsimp only
  split
  · constructor
    · rw [domState_eq, gds_of_in (hlog _) (by decide +kernel) (by decide), domState_eq]
    · simp +decide [rd_of_in (hlog _)]
  · simp only [all_cons_run, all_nil_run, domState_eq]
    constructor
    · rw [gds_of_in (hfeids _) (by decide +kernel) (by decide), gds_of_in (hlog _) (by decide +kernel) (by decide),
        gds_of_in (bump_in rfl (Foot.le_refl _) _) (by decide +kernel) (by decide), gds_forEach_wgds_of_ne (by decide) (by decide) htwins]
      exact rd_wr_of_page_ne (hdr_mem rfl (by decide)) (gdsFld_mem (by decide) _) (by simp) ..
    · simp +decide [rd_of_in (hfeids _), rd_of_in (hlog _), rd_of_in (hgds _), hpage]

/-- Quiet entry puts each port in use into the power quiesce (R158). -/
theorem quietPorts_quiesce {p : Nat} (hdown : s.role p = roleDOWN) (hn : s.domState (.port p) = gdNONE) {l : List Nat} (hl : l.Nodup)
    (hp : p ∈ l) : ((forEach l quietPort).run s).domState (.port p) = gdQUIESCED ∧
      ((forEach l quietPort).run s).rd (.port p) .BLK_CTRL_QUIESCE = 1 := by
  have hrole := fun q r => powerQuiesce_in (Foot.le_refl _) q r
  refine forEach_reaches (P := fun t => t.role p = roleDOWN ∧ t.domState (.port p) = gdNONE)
    (Q := fun t => t.domState (.port p) = gdQUIESCED ∧ t.rd (.port p) .BLK_CTRL_QUIESCE = 1) hl hp ?_ ?_ ?_ s ⟨hdown, hn⟩
  · rintro q - hq t _ ⟨hr, hd⟩
    rw [quietPort, look_run, State.role, (powerQuiesce_spares hq _).1]
    exact ⟨(rd_of_in (hrole q _) (own_mem (show _ ∈ tabPORT by decide))
      (show (Fam.port, _) ∉ _ by decide +kernel)).trans hr, hd⟩
  · rintro t _ ⟨hr, hd⟩
    have hdom : t.portDom p = .port p := by
      have hr' : t.rd (.port p) .PORT_CFG_ROLE = roleDOWN := hr
      simp [State.portDom, hr', roleDOWN, roleFAB]
    have hq := powerQuiesce_quiesces (s := t) (p := p) (by rwa [hdom])
    rw [hdom] at hq
    rw [quietPort, look_run]
    exact ⟨(hq _).1, (hq _).2.1⟩
  · rintro q - hq t _ ⟨hd, hb⟩
    rw [quietPort, look_run, (powerQuiesce_spares hq _).1, (powerQuiesce_spares hq _).2]
    exact ⟨hd, hb⟩

/-- What a quiet entry that may start leaves (R158). -/
theorem quietStart_enters (hhalt : s.safeHalt = false) (hrun : s.iv .quietRun = 0) {p : PortId} (hdown : s.role p = roleDOWN)
    (hn : s.domState (.port p) = gdNONE) : (quietStart.run s).device = dvQUIET_ENTRY ∧ (quietStart.run s).ivOn .quietRun = true ∧
    (quietStart.run s).iv .wakeFaces = s.rd .glb .GLB_WAKE_FACES_MASK ∧ (quietStart.run s).on (.port p) .BLK_CTRL_QUIESCE = true ∧
    (quietStart.run s).domState (.port p) = gdQUIESCED := by
  have := Upd.keeps_fact
  have hports : ∀ l, (forEach l quietPort).In _ := fun l => forEach_in fun q => quietPort_in (Foot.le_refl _) q
  have hoff : (forBelow 24 chanOff).In _ := forBelow_in fun c => chanOff_in (Foot.le_refl _) c
  have hrole : s.role p ≠ 0 := by simp [hdown, roleDOWN]
  obtain ⟨hdom, hblk⟩ := quietPorts_quiesce
    (s := (toDevice dvQUIET_ENTRY).run ((put .wakeFaces (s.rd .glb .GLB_WAKE_FACES_MASK)).run
      ((put .wakeCtl s.wakeEnables).run ((put .quietRun 1).run s))))
    (p := p) (by simpa +decide [State.role, toDevice] using hdown)
    (by rw [domState_eq, gds_of_in (toDevice_in (Foot.le_refl _) _) (by decide +kernel) (by decide)]; exact (domState_eq s _).symm.trans hn) (l := allBelow 96 fun p => s.role p != 0) (List.nodup_range.filter _)
    (List.mem_filter.2 ⟨List.mem_range.2 p.isLt, by simpa using hrole⟩)
  rw [quietStart, look_run, when_pos (by simp [hhalt, hrun, State.ivOn])]
  simp only [all_cons_run, all_nil_run]
  refine ⟨?_, ?_, ?_, ?_, ?_⟩
  · simp +decide [State.device, rd_of_in hoff, rd_of_in (hports _), toDevice]
  · simp +decide [State.ivOn, iv_of_in hoff, iv_of_in (hports _), toDevice]
  · simp +decide [iv_of_in hoff, iv_of_in (hports _), toDevice]
  · rw [State.on, rd_of_in hoff (hdr_mem rfl (by decide)) (show (Fam.port, _) ∉ _ by decide +kernel), hblk]
    rfl
  · rwa [domState_eq, gds_of_in hoff (by decide +kernel) (by decide), ← domState_eq]

end

theorem refOk_cases (k : Option (Fin 6)) : refOk k = .LANE_OCT_STAT_REF_A_OK ∨ refOk k = .LANE_OCT_STAT_REF_B_OK := by
  cases k
  · exact .inl rfl
  · exact .inr rfl

/-- The bit of a reference is one of the octets' pages. -/
theorem refOk_mem (k : Option (Fin 6)) (o : Nat) : refOk k ∈ (Pg.lane o).fields := by
  rcases refOk_cases k with h | h <;> rw [h] <;> exact own_mem (show _ ∈ tabLANE by decide)

theorem octets_in (k : Option (Fin 6)) (v : Nat) (l : List Nat) :
    (forEach l fun o => wr (.lane o) (refOk k) v).In (Foot.fields .lane [.LANE_OCT_STAT_REF_A_OK, .LANE_OCT_STAT_REF_B_OK]) :=
  forEach_in fun o => wr_in (refOk_mem k o) (by rcases refOk_cases k with h | h <;> rw [h] <;> exact fields_regs (by decide))

/-- Each octet that a reference serves has the bit written. -/
theorem octets_hold [Fact s.wf] {k : Option (Fin 6)} {o : Nat} (ho : o ∈ refOctets k) (v : Nat) :
    ((forEach (refOctets k) fun o => wr (.lane o) (refOk k) v).run s).rd (.lane o) (refOk k) = v % 2 := by
  have hnodup : (refOctets k).Nodup := by
    cases k with
    | none => exact List.nodup_range
    | some k => exact List.nodup_range.map fun a b h => by simpa using h
  refine forEach_reaches (P := fun _ => True) (Q := fun t => t.rd (.lane o) (refOk k) = v % 2) hnodup ho (fun _ _ _ _ _ _ => trivial)
    ?_ ?_ s trivial
  · intro t _ _
    rw [rd_wr]
    rcases refOk_cases k with h | h <;> rw [h] <;> rfl
  · intro q _ hq t _ ht
    exact (rd_wr_of_page_ne (refOk_mem k q) (refOk_mem k o) (by simpa using hq.symm) ..).trans ht

/-- The readings of 34 sensors that all read the same. -/
def sameValid (x : BitVec 16) : List (Nat × Int) := (List.range 34).map fun i => (i, x.toInt)

/-- Of readings that are all alike the first is the hottest. -/
theorem hottest_sameValid (x : BitVec 16) : hottest (sameValid x) = some (0, x.toInt) := by
  have h : ∀ l : List Nat, (l.map fun i => (i, x.toInt)).foldl (fun best x => match best with
      | some b => if b.2 < x.2 then some x else some b
      | none => some x) (some (0, x.toInt)) = some (0, x.toInt) := by
    intro l
    induction l with
    | nil => rfl
    | cons i l ih => simpa using ih
  exact h (List.range' 1 33)

/-- The registers of the sensors take the readings. -/
def sameReadings (x : BitVec 16) : Upd := forEach ((List.range 34).map fun i => (x, i)) fun x =>
  all [wr (.mgmt 0) .MGMT_TEMP_T x.1.toNat x.2, wr (.mgmt 0) .MGMT_TEMP_VALID (b2n (tempValid x.1)) x.2]

theorem sameReadings_in (x : BitVec 16) : (sameReadings x).In (Foot.fields .mgmt [.MGMT_TEMP_T, .MGMT_TEMP_VALID]) :=
  forEach_in fun _ => all_cons_in (wr_in (own_mem (show _ ∈ tabMGMT0 by decide)) (fields_regs (by decide))) <|
    all_cons_in (wr_in (own_mem (show _ ∈ tabMGMT0 by decide)) (fields_regs (by decide))) all_nil_in

/-- The last sensor's reading stands in its register. -/
theorem temps_hold [Fact s.wf] (x : BitVec 16) : ((sameReadings x).run s).rd (.mgmt 0) .MGMT_TEMP_T 33 = x.toNat := by
  have := Upd.keeps_fact
  have hx : x.toNat < 2 ^ 16 := x.isLt
  refine forEach_reaches (P := fun _ => True) (Q := fun t => t.rd (.mgmt 0) .MGMT_TEMP_T 33 = x.toNat) (a := (x, 33))
    (List.nodup_range.map fun a b h => (Prod.mk.inj h).2) (List.mem_map.2 ⟨33, by decide, rfl⟩) (fun _ _ _ _ _ _ => trivial) ?_ ?_ s trivial
  · intro t _ _
    simp +decide
    exact Nat.mod_eq_of_lt hx
  · intro y hy hne t _ ht
    obtain ⟨i, -, rfl⟩ := List.mem_map.1 hy
    have hi : 33 ≠ i := fun h => hne (h ▸ rfl)
    simpa +decide [rd_wr_of_index_ne, hi] using ht

/-- What the part does with a sample of 34 valid readings that are all alike: the step after it, whether it warns, and whether it shuts
down. -/
def sameSample (readings : Upd) (x : BitVec 16) (step : Nat) (warn shut : Bool) : Upd :=
  all [readings, wr (.mgmt 0) .MGMT_THERM_STAT_STEP step, wr (.mgmt 0) .MGMT_THERM_STAT_VALID_COUNT 34, put .thermHold 0,
       wr (.mgmt 0) .MGMT_THERM_STAT_HOT_SENSOR 0, wr (.mgmt 0) .MGMT_THERM_STAT_HOTTEST x.toNat,
       when_ warn (raise (.mgmt 0) .MGMT_THERM_WARN), when_ (step == 3) (safeHaltNow hcTHERMAL 1 0 0),
       when_ shut (all [put .shutdown 1, put .haltRel 0, forBelow 192 laneOff])]

section
variable [Fact s.wf] (readings : Upd) (x : BitVec 16)

theorem sameSample_shows (htemps : (readings.run s).rd (.mgmt 0) .MGMT_TEMP_T 33 = x.toNat) {step : Nat} (hstep : step < 4)
    (warn shut : Bool) :
    ((sameSample readings x step warn shut).run s).rd (.mgmt 0) .MGMT_THERM_STAT_STEP = step ∧
    ((sameSample readings x step warn shut).run s).rd (.mgmt 0) .MGMT_THERM_STAT_VALID_COUNT = 34 ∧
    ((sameSample readings x step warn shut).run s).rd (.mgmt 0) .MGMT_THERM_STAT_HOTTEST = x.toNat ∧
    ((sameSample readings x step warn shut).run s).rd (.mgmt 0) .MGMT_THERM_STAT_HOT_SENSOR = 0 ∧
    ((sameSample readings x step warn shut).run s).rd (.mgmt 0) .MGMT_TEMP_T 33 = x.toNat := by
  have := Upd.keeps_fact
  have hx : x.toNat < 2 ^ 16 := x.isLt
  have hraise := raise_in (F := Foot.error .mgmt) (pg := .mgmt 0) rfl (Foot.le_refl _) .MGMT_THERM_WARN
  have hhalt := safeHaltNow_in (Foot.le_refl _) hcTHERMAL 1 0 0
  have hlanes : (forBelow 192 laneOff).In _ := forBelow_in fun l => laneOff_in (Foot.le_refl _) l
  simp +decide [sameSample, rd_of_in hhalt, rd_of_in hlanes, htemps]
  exact ⟨Nat.mod_eq_of_lt (hstep.trans (by decide)), Nat.mod_eq_of_lt hx⟩

theorem sameSample_warns (shut : Bool) :
    (((sameSample readings x 1 true shut).run s).rd (.mgmt 0) .ERR_STICKY_BITS).testBit Err.MGMT_THERM_WARN.bit = true ∧
    ((sameSample readings x 1 true shut).run s).rd (.mgmt 0) .MGMT_THERM_STAT_STEP = 1 := by
  have := Upd.keeps_fact
  have hraise := raise_in (F := Foot.error .mgmt) (pg := .mgmt 0) rfl (Foot.le_refl _) .MGMT_THERM_WARN
  have hlanes : (forBelow 192 laneOff).In _ := forBelow_in fun l => laneOff_in (Foot.le_refl _) l
  simp +decide [sameSample, rd_of_in hlanes]

theorem sameSample_halts (hread : readings.In (Foot.fields .mgmt [.MGMT_TEMP_T, .MGMT_TEMP_VALID])) (hhalt : s.safeHalt = false)
    (warn shut : Bool) : ((sameSample readings x 3 warn shut).run s).safeHalt = true ∧
    ((sameSample readings x 3 warn shut).run s).rd (.guard 0) .GUARD_HALT_CAUSE_CAUSE = hcTHERMAL ∧
        ((sameSample readings x 3 warn shut).run s).iv .haltRel = 0 := by
  have := Upd.keeps_fact
  have hraise := raise_in (F := Foot.error .mgmt) (pg := .mgmt 0) rfl (Foot.le_refl _) .MGMT_THERM_WARN
  have hlanes : (forBelow 192 laneOff).In _ := forBelow_in fun l => laneOff_in (Foot.le_refl _) l
  simp only [sameSample, all_cons_run, all_nil_run]
  rw [when_pos (c := 3 == 3) rfl]
  generalize hu : (when_ warn _).run _ = u
  have hn : u.safeHalt = false := by
    rw [← hu]
    simpa +decide [State.safeHalt, rd_of_in hraise, rd_of_in hread] using hhalt
  have : Fact u.wf := hu ▸ this _ _
  obtain ⟨hsafe, hrel, hcause, -⟩ := safeHaltNow_halts hn hcTHERMAL 1 0 0
  rw [State.safeHalt] at hsafe ⊢
  simp +decide [rd_of_in hlanes, iv_of_in hlanes, hsafe, hrel, hcause]

end

/-- The thermal step is one of four (Table PKG-15). -/
theorem thermStep_lt (h : Option Int) (few : Bool) : s.thermStep h few < 4 := by
  unfold State.thermStep
  dsimp only
  split
  · decide
  · split
    · decide
    · split <;> decide

theorem thermalSample_run {x : BitVec 16} (hvalid : tempValid x = true) (hawake : s.inReset = false) :
    exec (.thermalSample (List.replicate 34 x)) s = .next ((sameSample (sameReadings x) x (s.thermStep (some x.toInt) false)
      (s.thermStep (some x.toInt) false != 0 && s.rd (.mgmt 0) .MGMT_THERM_STAT_STEP == 0) (16 * (s.thermThresh 3 : Int) ≤ x.toInt)).run s) := by
  have hrs : ((List.replicate 34 x).take 34).zipIdx = (List.range 34).map fun i => (x, i) := rfl
  have hval : ((((List.range 34).map fun i => (x, i)).filter fun y => tempValid y.1).map fun y => (y.2, y.1.toInt)) = sameValid x := by
    rw [List.filter_eq_self.2 (by simp [hvalid]), List.map_map]
    rfl
  have hfew : decide (((sameValid x).filter fun y => y.1 < 32).length < 16) = false := rfl
  have hlen : (sameValid x).length = 34 := rfl
  show execThermalSample (List.replicate 34 x) s = _
  rw [execThermalSample, answer_awake _ hawake, look_run]
  dsimp only
  rw [when_pos (by simp [hawake]), hrs, hval, hottest_sameValid, hfew]
  simp [sameSample, sameReadings, forSome, hlen]

section
variable {s : State} (hs : s.Awake)
include hs

theorem register_resets (st : Stamp) (v : Word) (hlock : s.locked .glb = false) (hkey : bits v.toNat 31 16 = 0x57A7) (hgo :
    v.getLsbD 0 = true) (hp : s.pathOpen st = true) : Gives (.warmResetRequest st v) s fun t => t.iv .dieReset = drWARM ∧ t.iv
    .warmReg = 1 ∧ t.rd .glb .GLB_RESET_CAUSE_LAST = rcREG ∧ t.buf = [] := by
  refine gives_granted hs rfl hlock hp fun _ _ => ?_
  have := Upd.keeps_fact
  rw [resetCtrlWrite, when_pos ((hasKey_iff v).2 ⟨hkey, hgo⟩)]
  exact warmByRegister_resets ((grant_inReset hs.1 st .glb).trans hs.2)

theorem register_noKey (st : Stamp) (v : Word) (hlock : s.locked .glb = false) (hkey : bits v.toNat 31 16 ≠ 0x57A7) (hp :
    s.pathOpen st = true) : Gives (.warmResetRequest st v) s fun t => t.iv .dieReset = 0 ∧ t.regs = s.regs := by
  refine gives_granted hs rfl hlock hp fun _ _ => ?_
  have := Upd.keeps_fact
  rw [resetCtrlWrite, when_neg (Bool.eq_false_iff.2 fun h => hkey ((hasKey_iff v).1 h).1)]
  have hawake : s.iv .dieReset = 0 := by simpa [State.inReset, State.ivOn] using hs.2
  exact ⟨by simpa +decide using hawake, rfl⟩

theorem device_resets (hdev : s.ivOn .devReset = true) : Gives (.deviceResetDelay) s fun t => t.iv .dieReset = drWARM ∧ t.rd
    .glb .GLB_RESET_CAUSE_LAST = rcREG := by
  refine gives_awake hs rfl fun _ _ => ?_
  obtain ⟨hdie, -, hlast, -⟩ := warmByRegister_resets hs.2
  rw [look_run, when_pos hdev]
  exact ⟨hdie, hlast⟩

theorem quiet_entered (st : Stamp) (v : Word) (p : PortId) (hlock : s.locked .glb = false) (hkey : bits v.toNat 31 16 =
    0x57A7) (hgo : v.getLsbD 0 = true) (hhalt : s.safeHalt = false) (hrun : s.iv .quietRun = 0) (_ : s.role p ≠ 0) (hdom :
    s.domState (s.portDom p) = gdNONE) (hdown : s.role p = roleDOWN) (hp : s.pathOpen st = true) : Gives (.quietEntry st v) s
    fun t => t.device = dvQUIET_ENTRY ∧ t.ivOn .quietRun = true ∧ t.iv .wakeFaces = s.rd .glb .GLB_WAKE_FACES_MASK ∧ t.on
    (.port p) .BLK_CTRL_QUIESCE = true ∧ t.domState (.port p) = gdQUIESCED := by
  refine gives_granted hs rfl hlock hp fun _ _ => ?_
  have := Upd.keeps_fact
  have hplain := plainWrite_in_regs st v.toNat .glb 0x114
  have hkeyed : (bits v.toNat 31 16 == 0x57A7 && v.toNat.testBit 0) = true := (hasKey_iff v).2 ⟨hkey, hgo⟩
  have hdom' : s.domState (.port p) = gdNONE := by
    have hr : s.rd (.port p) .PORT_CFG_ROLE = roleDOWN := hdown
    rw [State.portDom, hr] at hdom
    exact hdom
  rw [quietCtrlWrite, all_cons_run, all_cons_run, all_nil_run, when_pos hkeyed]
  have hmask : ((plainWrite st .glb 0x114 v.toNat).run ((grant st .glb).run s)).rd .glb .GLB_WAKE_FACES_MASK =
      s.rd .glb .GLB_WAKE_FACES_MASK := by
    simp +decide [rd_of_in hplain]
  rw [← hmask]
  refine quietStart_enters ?_ ?_ ?_ ?_
  · simpa +decide [State.safeHalt, rd_of_in hplain] using hhalt
  · simpa +decide using hrun
  · simpa +decide [State.role, rd_of_in hplain] using hdown
  · rw [domState_eq, gds_of_in hplain (by decide +kernel) (by decide),
      gds_of_in (grant_in (F := Foot.numbers [.arbLast]) (by decide) st .glb) (by decide +kernel) (by decide),
      ← domState_eq, hdom']

theorem quiet_channels (c : ChanId) (hrun : s.ivOn .quietRun = true) : Gives (.quietChannelsOff) s fun t => t.chan c = pcOFF ∧
    t.ivOn .quietRun = true := by
  refine gives_always hs.1 rfl fun _ _ => ?_
  have := Upd.keeps_fact
  have hcut := fun c => cut_in (Foot.le_refl _) c cutOFF
  rw [look_run, when_pos hrun]
  refine ⟨?_, ?_⟩
  · refine forBelow_reaches (P := fun _ => True) (Q := fun t => t.chan c = pcOFF) c.isLt (fun _ _ _ _ _ => trivial) ?_ ?_ s trivial
    · intro t _ _
      simp +decide [State.chan, chanTo]
    · intro d hd t ht hc
      have hpage : Pg.pwr c ≠ .pwr d := fun he => hd (Pg.pwr.inj he).symm
      have halone : (all [when_ (s.chanOn d) (cut d cutOFF), chanTo d pcOFF]).Alone (.pwr d) :=
        all_cons_alone (when_alone (cut_pwr d cutOFF)) <| all_cons_alone (chanTo_pwr d pcOFF) all_nil_alone
      exact ((halone t ht.out).regs (.pwr c) _ _ rfl hpage (own_mem (show _ ∈ tabPWR by decide))).trans hc
  · refine (congrArg (· != 0) (forEach_keeps (P := fun t => t.iv .quietRun = s.iv .quietRun) (fun d _ t _ ht => ?_) s rfl)).trans hrun
    simpa +decide [chanTo, iv_of_in (hcut _)] using ht

theorem quiet_state (hrun : s.ivOn .quietRun = true) (hoff : ((List.range 24).all fun c => !s.chanOn c) = true) (hpend : s.iv
    .wakePend = 0) : Gives (.quietState) s fun t => t.iv .dieReset = drQUIET ∧ t.iv .quietRun = 0 ∧ t.iv .wakeCtl = s.iv
    .wakeCtl ∧ t.iv .wakeFaces = s.iv .wakeFaces ∧ t.buf = [] := by
  refine gives_always hs.1 rfl fun _ _ => ?_
  have := Upd.keeps_fact
  obtain ⟨hbuf, -, -⟩ := coldReset_empties (s := s) rcWAKE true
  have hkeep := fun x hx => iv_coldReset (s := s) (x := x) rcWAKE true hx 0
  rw [look_run, when_pos (by rw [hrun, hoff]; rfl)]
  simp +decide [State.ivOn, hpend, hbuf, hkeep]

theorem quiet_wakes (hrun : s.ivOn .quietRun = true) (hoff : ((List.range 24).all fun c => !s.chanOn c) = true) (hpend : s.iv
    .wakePend = 2) : Gives (.quietState) s fun t => t.iv .dieReset = drCOLD ∧ t.rd .glb .GLB_RESET_CAUSE_LAST = rcWAKE ∧ t.rd
    .glb .GLB_RESET_CAUSE_WAKE_SRC = 2 ∧ t.iv .wakePend = 0 := by
  refine gives_always hs.1 rfl fun _ _ => ?_
  have := Upd.keeps_fact
  have hpend' : s.ivOn .wakePend = true := by simp [State.ivOn, hpend]
  have hpending : ∀ t : State, Fact t.wf → ((wake 2).run t).iv .wakePend = 0 := by
    intro t _
    have hstart : (forBelow 24 chanStart).In _ := forBelow_in fun c => chanStart_in (Foot.le_refl _) c
    simp +decide [wake, iv_of_in hstart]
  rw [look_run, when_pos (by rw [hrun, hoff]; rfl)]
  simp only [all_cons_run, all_nil_run, hpend', when_true_run, hpend]
  obtain ⟨hdie, hlast, hsrc, -⟩ := wake_wakes (s := (put .dieReset drQUIET).run
      ((put .coldQual 0).run ((put .quietRun 0).run ((coldReset rcWAKE true).run s)))) (src := 2) (by decide)
  exact ⟨hdie, hlast, hsrc, hpending _ (this _ _)⟩

theorem fwake_released (f : FaceId) (hcold : s.iv .dieReset ≠ drCOLD) (hquiet : s.iv .dieReset ≠ drQUIET) (hrun : s.iv
    .quietRun = 0) (hface : (s.iv .wakeFaces).testBit f = true) : Gives (.fwakeReleaseTimeout) s fun t => t.iv .wakeFaces = 0
    ∧ t.rd (.face f) .FACE_PM_STAT_FWAKE = 0 := by
  refine gives_always hs.1 rfl fun _ _ => ?_
  have := Upd.keeps_fact
  have hfwake : ((forEach (allBelow 32 (s.iv .wakeFaces).testBit) fun f => wr (.face f) .FACE_PM_STAT_FWAKE 0).run s).rd (.face f)
      .FACE_PM_STAT_FWAKE = 0 := by
    refine forEach_reaches (P := fun _ => True) (Q := fun t => t.rd (.face f) .FACE_PM_STAT_FWAKE = 0) (a := f.val)
      (List.nodup_range.filter _) (List.mem_filter.2 ⟨List.mem_range.2 f.isLt, hface⟩) (fun _ _ _ _ _ _ => trivial) ?_ ?_ _ trivial
    · intro t _ _
      simp +decide
    · intro g _ hg t _ ht
      have hne : Pg.face f ≠ .face g := fun he => hg (Pg.face.inj he).symm
      simpa +decide [hne] using ht
  simp +decide [hcold, hquiet, hrun, State.ivOn, hfwake]

theorem thermal_sampled (x : BitVec 16) (hvalid : tempValid x = true) : Gives (.thermalSample (List.replicate 34 x)) s fun t
    => t.rd (.mgmt 0) .MGMT_THERM_STAT_STEP = s.thermStep (some x.toInt) false ∧ t.rd (.mgmt 0) .MGMT_THERM_STAT_VALID_COUNT =
    34 ∧ t.rd (.mgmt 0) .MGMT_THERM_STAT_HOTTEST = x.toNat ∧ t.rd (.mgmt 0) .MGMT_THERM_STAT_HOT_SENSOR = 0 ∧ t.rd (.mgmt 0)
    .MGMT_TEMP_T 33 = x.toNat := by
  have := Fact.mk hs.1
  refine ⟨_, thermalSample_run hvalid hs.2, ?_⟩
  exact sameSample_shows _ x (temps_hold x) (thermStep_lt ..) _ _

theorem thermal_warns (x : BitVec 16) (hvalid : tempValid x = true) (hstep : s.rd (.mgmt 0) .MGMT_THERM_STAT_STEP = 0) (hwarn
   : s.thermStep (some x.toInt) false = 1) : Gives (.thermalSample (List.replicate 34 x)) s fun t => (t.rd (.mgmt 0)
    .ERR_STICKY_BITS).testBit Err.MGMT_THERM_WARN.bit = true ∧ t.rd (.mgmt 0) .MGMT_THERM_STAT_STEP = 1 := by
  have := Fact.mk hs.1
  have := Upd.keeps_fact
  refine ⟨_, thermalSample_run hvalid hs.2, ?_⟩
  rw [hwarn, hstep]
  exact sameSample_warns _ x _

theorem thermal_halts (x : BitVec 16) (hvalid : tempValid x = true) (hhalt : s.safeHalt = false) (hstep : s.thermStep (some
    x.toInt) false = 3) : Gives (.thermalSample (List.replicate 34 x)) s fun t => t.safeHalt = true ∧ t.rd (.guard 0)
    .GUARD_HALT_CAUSE_CAUSE = hcTHERMAL ∧ t.iv .haltRel = 0 := by
  have := Fact.mk hs.1
  have := Upd.keeps_fact
  refine ⟨_, thermalSample_run hvalid hs.2, ?_⟩
  rw [hstep]
  exact sameSample_halts _ x (sameReadings_in x) hhalt _ _

theorem reference_lost (k : Option (Fin 6)) (o : Nat) (hlost : s.iv .refLost (refIndex k) = 0) (ho : o ∈ refOctets k) : Gives
    (.refclkLoss k) s fun t => t.iv .refLost (refIndex k) = 1 ∧ t.rd (.lane o) (refOk k) = 0 := by
  refine gives_always hs.1 rfl fun _ _ => ?_
  have := Upd.keeps_fact
  have hdown : ∀ l, (forEach l fun p => all [linkDown p, modGreqs (· ++ [refRequest s k p])]).In _ := fun l => forEach_in fun p =>
    all_cons_in (linkDown_in (F := Foot.linkDown.and { parts := [.greqs] }) (by decide +kernel) p) <|
      all_cons_in (modGreqs_in (by decide +kernel)) all_nil_in
  have hlane := octets_in k 0
  have hbit := octets_hold (s := (put .refLost 1 (refIndex k)).run s) ho 0
  rw [look_run, when_pos (by simp [State.ivOn, hlost])]
  simp only [all_cons_run, all_nil_run]
  constructor
  · simp +decide [iv_of_in (hdown _), iv_of_in (hlane _)]
  · rw [rd_when, rd_of_in (hdown _) (refOk_mem k o) (by rcases refOk_cases k with h | h <;> rw [h] <;> exact show (Fam.lane, _) ∉ _ by decide +kernel), hbit]
    simp

theorem reference_restored (k : Option (Fin 6)) (o : Nat) (ho : o ∈ refOctets k) : Gives (.refclkRestore k) s fun t => t.iv
    .refLost (refIndex k) = 0 ∧ t.rd (.lane o) (refOk k) = 1 := by
  refine gives_always hs.1 rfl fun _ _ => ?_
  have := Upd.keeps_fact
  have hrec : ∀ (w : Dom → Bool) l, (forEach l fun d => when_ (w d) (startRecovery d)).In _ :=
      fun (w : Dom → Bool) l => forEach_in fun (d : Dom) => when_in (startRecovery_in (Foot.le_refl _) d)
  have hlane := octets_in k 1
  have hbit := octets_hold (s := (put .refLost 0 (refIndex k)).run s) ho 1
  simp only [look_run, all_cons_run, all_nil_run]
  constructor
  · simp +decide [iv_of_in (hrec _ _), iv_of_in (hlane _)]
  · rw [rd_when, rd_of_in (hrec _ _) (refOk_mem k o)
      (by rcases refOk_cases k with h | h <;> rw [h] <;> exact show (Fam.lane, _) ∉ _ by decide +kernel), hbit]
    simp

end

/-- Settles O5: one lemma for each write, sample and loss. -/
theorem quietThermalAndClocksComplete : Obligations.QuietThermalAndClocksComplete := by
  intro s hs
  exact ⟨register_resets hs, register_noKey hs, device_resets hs, quiet_entered hs, quiet_channels hs, quiet_state hs,
    quiet_wakes hs, fwake_released hs, thermal_sampled hs, thermal_warns hs, thermal_halts hs, reference_lost hs,
    reference_restored hs⟩

end Sys2Proof.Machine
end

section
/-! PROOF. The phase tracker, markers, time exchange, CYC_OUT, and snapshots (R435 to R455). -/

namespace Sys2Proof.Machine

set_option Elab.async false


variable {s : State}

section
variable [Fact s.wf]

omit [Fact s.wf] in
theorem now_timeTo (t : Nat) : ((timeTo t).run s).now = t := by
  simp [timeTo]

/-- What the boundary at `b` that starts a cycle of `len` ns sets (R435, R436). -/
theorem cycleStarts_starts (b len : Nat) : ((cycleStarts b len).run s).now = max s.now b ∧ ((cycleStarts b len).run s).iv .cycStart = b ∧
    ((cycleStarts b len).run s).cycLen = len % 2 ^ 32 := by
  have := Upd.keeps_fact
  simp +decide [cycleStarts, State.cycLen, now_timeTo]
  rfl

/-- The tracker is in the state it is set to. -/
theorem tracker_setTracker {st : Nat} (hst : st < 8) : ((setTracker st).run s).tracker = st := by
  have := Upd.keeps_fact
  have hshape : ∀ l, (forEach l shaperAdvance).In _ := fun l => forEach_in fun p => shaperAdvance_in (Foot.le_refl _) p
  have hgates : ∀ l, (forEach l fun p => gateChange p (s.gates p)).In _ := fun l => forEach_in fun p => gateChange_in (Foot.le_refl _) p _
  have hout := cycOutHold_in (Foot.le_refl _)
  have hentry : ∀ t : State, (forBelow 96 fun p => forSome (t.hatchActive p) fun l => wr (.sched p) .SCHED_HATCH_STAT_ENTRY_NOW (t.entryAt p l)).In
      (Foot.fields .sched [.SCHED_HATCH_STAT_ENTRY_NOW]) := fun t =>
    forBelow_in fun p => forSome_in fun l => wr_in (own_mem (show _ ∈ tabSCHED by decide)) (fields_regs (by decide))
  rw [setTracker, look_run]
  by_cases h : s.tracker = st
  · rw [when_neg (by simp [h])]
    exact h
  · rw [when_pos (by simp [h])]
    simp +decide [State.tracker, rd_of_in hout, rd_of_in (hgates _), rd_of_in (hentry _)]
    exact Nat.mod_eq_of_lt hst

/-- Two states agree in their cycle and their time. -/
def SameCycle (s t : State) : Prop := t.cycLen = s.cycLen ∧ t.cycleNum = s.cycleNum ∧
  t.on .schedg .SCHED_CYC_STAT_EVER_LOCKED = s.on .schedg .SCHED_CYC_STAT_EVER_LOCKED ∧ t.iv .cycStart = s.iv .cycStart ∧ t.now = s.now

theorem sameCycle_of_in {F : Foot} {u : Upd} (hu : u.In F)
    (hregs : ∀ f ∈ [Fld.SCHED_CYC_LEN_LEN, .SCHED_CYC_NUM_CYCLE, .SCHED_CYC_NUM_CYCLE_HI, .SCHED_CYC_STAT_EVER_LOCKED, .SCHED_CYC_INIT_CYCLE,
      .SCHED_CYC_INIT_CYCLE_HI], (Fam.schedg, f) ∉ F.regs) (hvar : .cycStart ∉ F.vars) (hnow : .now ∉ F.parts) (s : State) [Fact s.wf] :
    SameCycle s (u.run s) := by
  have hrd : ∀ f ∈ tabSCHEDG, f ∈ [Fld.SCHED_CYC_LEN_LEN, .SCHED_CYC_NUM_CYCLE, .SCHED_CYC_NUM_CYCLE_HI, .SCHED_CYC_STAT_EVER_LOCKED,
      .SCHED_CYC_INIT_CYCLE, .SCHED_CYC_INIT_CYCLE_HI] → (u.run s).rd .schedg f = s.rd .schedg f :=
    fun f hm hf => rd_of_in hu (own_mem hm) (hregs f hf)
  have hever := hrd .SCHED_CYC_STAT_EVER_LOCKED (by decide) (by decide)
  refine ⟨hrd _ (by decide) (by decide), ?_, congrArg (· != 0) hever, iv_of_in hu hvar, now_of_in hu hnow⟩
  simp only [State.cycleNum, State.on, hever, hrd .SCHED_CYC_NUM_CYCLE (by decide) (by decide), hrd .SCHED_CYC_NUM_CYCLE_HI (by decide)
    (by decide), hrd .SCHED_CYC_INIT_CYCLE (by decide) (by decide), hrd .SCHED_CYC_INIT_CYCLE_HI (by decide) (by decide)]
  rfl

theorem SameCycle.trans {s t u : State} (hst : SameCycle s t) (htu : SameCycle t u) : SameCycle s u :=
  ⟨htu.1.trans hst.1, htu.2.1.trans hst.2.1, htu.2.2.1.trans hst.2.2.1, htu.2.2.2.1.trans hst.2.2.2.1, htu.2.2.2.2.trans hst.2.2.2.2⟩

/-- What every block does at a boundary leaves the cycle and the tracker. -/
theorem boundaryActions_keeps : SameCycle s (boundaryActions.run s) ∧ (boundaryActions.run s).tracker = s.tracker :=
  have hact := boundaryActions_in (Foot.le_refl _)
  ⟨sameCycle_of_in hact (by decide +kernel) (by decide +kernel) (by decide +kernel) s,
    rd_of_in hact (own_mem (show _ ∈ tabSCHEDG by decide)) (by decide +kernel)⟩

/-- A cycle number is below 2^48. -/
theorem cycleNum_lt (s : State) : s.cycleNum < 2 ^ 48 := by
  have h := fun f => rd_lt s .schedg f 0
  have hnum : s.rd .schedg .SCHED_CYC_NUM_CYCLE < 2 ^ 32 := h _
  have hhi : s.rd .schedg .SCHED_CYC_NUM_CYCLE_HI < 2 ^ 16 := h _
  have hinit : s.rd .schedg .SCHED_CYC_INIT_CYCLE < 2 ^ 32 := h _
  have hinithi : s.rd .schedg .SCHED_CYC_INIT_CYCLE_HI < 2 ^ 16 := h _
  simp only [State.cycleNum, Nat.shiftLeft_eq]
  split <;> omega

/-- The two parts of a cycle number. -/
theorem cycle_parts (c : Nat) : c % 2 ^ 32 + bits c 47 32 % 2 ^ 16 * 2 ^ 32 = c % 2 ^ 48 := by
  rw [bits, Nat.shiftRight_eq_div_pow]
  omega

/-- The first boundary starts cycle `c` at `b` (R437, R441). -/
theorem firstBoundary_starts (b c len : Nat) {st : Nat} (hst : st < 8) :
    ((firstBoundary b c len st).run s).now = max s.now b ∧ ((firstBoundary b c len st).run s).iv .cycStart = b ∧
    ((firstBoundary b c len st).run s).cycLen = len % 2 ^ 32 ∧ ((firstBoundary b c len st).run s).cycleNum = c % 2 ^ 48 ∧
    ((firstBoundary b c len st).run s).on .schedg .SCHED_CYC_STAT_EVER_LOCKED = true ∧ ((firstBoundary b c len st).run s).tracker = st := by
  have := Upd.keeps_fact
  obtain ⟨hnow, hstart, hlen⟩ := cycleStarts_starts (s := s) b len
  have hsame : ∀ u : State, Fact u.wf → SameCycle u ((setTracker st).run (acquireAfresh.run u)) := fun u hu =>
    (sameCycle_of_in (acquireAfresh_in (Foot.le_refl _)) (by decide +kernel) (by decide +kernel) (by decide +kernel) u).trans
      (sameCycle_of_in (setTracker_in (Foot.le_refl _) st) (by decide +kernel) (by decide +kernel) (by decide +kernel) _)
  simp only [firstBoundary, look_run, all_cons_run, all_nil_run]
  rw [tracker_setTracker hst]
  generalize hu : (put .cycFirst 0).run _ = u
  have : Fact u.wf := hu ▸ this _ _
  obtain ⟨hlen', hnum', hever', hstart', hnow'⟩ := hsame u this
  rw [hlen', hnum', hever', hstart', hnow', ← hu]
  simp only [State.cycLen] at hlen ⊢
  simp +decide [State.cycleNum, State.on, setCycle, hlen, hstart, hnow, Nat.shiftLeft_eq]
  exact cycle_parts c

/-- The next boundary of a tracker that is to stay as it is (R436, R443). -/
theorem nextBoundary_starts (hfree : s.iv .toFree = 0) (hrelock : s.iv .relock = 0) (hever : s.on .schedg .SCHED_CYC_STAT_EVER_LOCKED = true) :
    (nextBoundary.run s).now = max s.now (s.iv .cycStart + s.cycLen) ∧ (nextBoundary.run s).iv .cycStart = s.iv .cycStart + s.cycLen ∧
    (nextBoundary.run s).cycLen = s.iv .cycNext % 2 ^ 32 ∧ (nextBoundary.run s).cycleNum = (s.cycleNum + 1) % 2 ^ 48 ∧
    (nextBoundary.run s).tracker = s.tracker := by
  have := Upd.keeps_fact
  have hever' : s.rd .schedg .SCHED_CYC_STAT_EVER_LOCKED ≠ 0 := by simpa [State.on] using hever
  have htime := timeTo_in (Foot.le_refl _)
  have hparts := cycle_parts ((s.cycleNum + 1) % 2 ^ 48)
  rw [Nat.mod_mod] at hparts
  generalize hc : (s.cycleNum + 1) % 2 ^ 48 = c at hparts ⊢
  simp only [nextBoundary, look_run, hc]
  simp +decide [State.cycleNum, State.on, State.cycLen, State.tracker, State.ivOn, setCycle, cycleStarts, hfree, hrelock, hever', now_timeTo,
    rd_of_in (htime _), Nat.shiftLeft_eq]
  exact ⟨rfl, hparts⟩

/-- Entry to holdover: the boundaries left, and the error (R448). -/
theorem enterHoldover_enters : (enterHoldover.run s).tracker = ctHOLDOVER ∧
    (enterHoldover.run s).rd .schedg .SCHED_CYC_STAT_HOLD_LEFT = s.holdCycles ∧
    ((enterHoldover.run s).rd .schedg .ERR_STICKY_BITS).testBit Err.CYC_HOLDOVER.bit = true := by
  have := Upd.keeps_fact
  have htrack := setTracker_in (Foot.le_refl _) ctHOLDOVER
  have hhold : s.holdCycles < 2 ^ 13 := Nat.lt_of_le_of_lt (Nat.max_le.2 ⟨by decide, Nat.min_le_left ..⟩) (show 4096 < 2 ^ 13 by decide)
  have hset := fun (t : State) (ht : Fact t.wf) => tracker_setTracker (s := t) (st := ctHOLDOVER) (by decide)
  simp only [State.tracker] at hset ⊢
  simp +decide [enterHoldover, rd_of_in htrack, hset]
  exact Nat.mod_eq_of_lt hhold

/-- A write of SCHED_CYC_CFG with another SRC is a change of the source (R451). -/
theorem cycCfgWrite_changes (st : Stamp) {v : Nat} (hsrc : Fld.SCHED_CYC_CFG_SRC.of v ≠ s.rd .schedg .SCHED_CYC_CFG_SRC) :
    (cycCfgWrite st false v).run s = sourceChanged.run ((plainWrite st .schedg 0x100 v).run s) := by
  have := Upd.keeps_fact
  have hrd : ((plainWrite st .schedg 0x100 v).run s).rd .schedg .SCHED_CYC_CFG_SRC = Fld.SCHED_CYC_CFG_SRC.of v := by simp +decide
  simp only [cycCfgWrite, look_run, all_cons_run, all_nil_run]
  rw [when_pos (by simp [hrd, hsrc.symm])]
  rfl

/-- Before the first lock acquisition starts afresh. -/
theorem sourceChanged_unlocked (hever : s.on .schedg .SCHED_CYC_STAT_EVER_LOCKED = false) :
    (sourceChanged.run s).rd .schedg .SCHED_CYC_CFG_SRC = s.rd .schedg .SCHED_CYC_CFG_SRC ∧ (sourceChanged.run s).tracker = ctACQUIRE ∧
    (sourceChanged.run s).iv .cycFirst = 0 := by
  have := Upd.keeps_fact
  have hafresh := acquireAfresh_in (Foot.le_refl _)
  simp +decide [sourceChanged, hever, State.tracker, rd_of_in hafresh]

/-- After it the part enters holdover. -/
theorem sourceChanged_locked (hever : s.on .schedg .SCHED_CYC_STAT_EVER_LOCKED = true) (htrack : s.tracker ≠ ctHOLDOVER) :
    (sourceChanged.run s).tracker = ctHOLDOVER ∧ (sourceChanged.run s).rd .schedg .SCHED_CYC_STAT_HOLD_LEFT = s.holdCycles ∧
    (sourceChanged.run s).cycleNum = s.cycleNum := by
  have := Upd.keeps_fact
  have hafresh := acquireAfresh_in (Foot.le_refl _)
  have hentry := enterHoldover_in (Foot.le_refl _)
  have hholds := fun (t : State) (ht : Fact t.wf) => enterHoldover_enters (s := t)
  simp only [sourceChanged, look_run, hever, if_true, all_cons_run, all_nil_run]
  rw [when_pos (by simp [htrack])]
  rw [(hholds _ (this _ _)).1, (hholds _ (this _ _)).2.1]
  refine ⟨rfl, ?_, ?_⟩
  · simp +decide [State.holdCycles, rd_of_in hafresh]
  · simp +decide [State.cycleNum, State.on, rd_of_in hafresh, rd_of_in hentry]

end

section
variable {s : State} (hs : s.Awake)
include hs

theorem cycle_starts_free (hstate : (s.tracker = ctIDLE ∨ s.tracker = ctACQUIRE)) (hfree : s.freeSrc = true) (_ : s.on .schedg
    .SCHED_CYC_STAT_EVER_LOCKED = false) : Gives (.cycleBoundary) s fun t => t.tracker = ctFREE ∧ t.cycLen = s.nominal ∧
    t.cycleNum = s.cycleNum ∧ t.on .schedg .SCHED_CYC_STAT_EVER_LOCKED = true ∧ t.iv .cycStart = s.now := by
  refine gives_awake hs rfl fun _ _ => ?_
  have := Upd.keeps_fact
  have hstate' : (s.tracker == ctIDLE || s.tracker == ctACQUIRE) = true := by simpa using hstate
  have hlen : s.nominal % 2 ^ 32 = s.nominal :=
    Nat.mod_eq_of_lt (Nat.lt_of_le_of_lt (Nat.max_le.2 ⟨by decide, Nat.min_le_left ..⟩) (show 100000000 < 2 ^ 32 by decide))
  obtain ⟨hnow, hstart, hcyc, hnum, hever', htrack⟩ := firstBoundary_starts (s := s) s.now s.cycleNum s.nominal (st := ctFREE) (by decide)
  rw [look_run]
  dsimp only
  rw [if_pos hstate', if_pos hfree]
  simp only [all_cons_run, all_nil_run]
  obtain ⟨⟨hlen', hnum', hever'', hstart', -⟩, htrack'⟩ := boundaryActions_keeps (s := (firstBoundary s.now s.cycleNum s.nominal ctFREE).run s)
  rw [htrack', hlen', hnum', hever'', hstart', htrack, hcyc, hnum, hever', hstart, hlen, Nat.mod_eq_of_lt (cycleNum_lt s)]
  exact ⟨rfl, rfl, rfl, rfl, rfl⟩

theorem boundary_locked (hlocked : s.tracker = ctLOCKED) (hever : s.on .schedg .SCHED_CYC_STAT_EVER_LOCKED = true) (hnext :
    s.iv .cycNext ≠ 0) (hfree : s.iv .toFree = 0) (hrelock : s.iv .relock = 0) : Gives (.cycleBoundary) s fun t => t.cycleNum
    = (s.cycleNum + 1) % 2 ^ 48 ∧ t.iv .cycStart = s.iv .cycStart + s.cycLen ∧ t.cycLen = s.iv .cycNext % 2 ^ 32 ∧ t.now = max
    s.now (s.iv .cycStart + s.cycLen) ∧ t.tracker = ctLOCKED := by
  refine gives_awake hs rfl fun _ _ => ?_
  have := Upd.keeps_fact
  have hstate' : (s.tracker == ctIDLE || s.tracker == ctACQUIRE) = false := by simp [hlocked, ctLOCKED, ctIDLE, ctACQUIRE]
  have hlate : lateCommit.run s = s := by simp [lateCommit, hnext, when_run]
  obtain ⟨hnow, hstart, hcyc, hnum, htrack⟩ := nextBoundary_starts hfree hrelock hever
  rw [look_run]
  dsimp only
  rw [if_neg (by simp [hstate'])]
  simp only [all_cons_run, all_nil_run, hlate]
  obtain ⟨⟨hlen', hnum', -, hstart', hnow'⟩, htrack'⟩ := boundaryActions_keeps (s := nextBoundary.run s)
  rw [htrack', hlen', hnum', hstart', hnow', htrack, hcyc, hnum, hstart, hnow]
  exact ⟨rfl, rfl, rfl, rfl, hlocked⟩

theorem midpoint_free (hfree : s.tracker = ctFREE) (hnext : s.iv .cycNext = 0) : Gives (.cycleMidpoint) s fun t => t.iv
    .cycNext = s.nominal ∧ t.now = max s.now (s.iv .cycStart + s.cycLen / 2) ∧ t.cycleNum = s.cycleNum := by
  refine gives_awake hs rfl fun _ _ => ?_
  have := Upd.keeps_fact
  have htime := timeTo_in (Foot.le_refl _)
  have hfree' : s.rd .schedg .SCHED_CYC_STAT_STATE = 5 := hfree
  simp +decide [commit, hnext, hfree', State.tracker, State.nominal, State.cycleNum, State.on, rd_of_in (htime _), now_timeTo]

theorem midpoint_locked (hlocked : s.tracker = ctLOCKED) (hfollow : s.follower = false) (hnext : s.iv .cycNext = 0) : Gives
    (.cycleMidpoint) s fun t => t.iv .cycNext = s.nextLen ∧ t.iv .cycP = s.nextP ∧ 50000 ≤ t.iv .cycNext ∧ t.iv .cycNext ≤
    100000000 := by
  refine gives_awake hs rfl fun _ _ => ?_
  have := Upd.keeps_fact
  have htime := timeTo_in (Foot.le_refl _)
  have hlocked' : s.rd .schedg .SCHED_CYC_STAT_STATE = 2 := hlocked
  have hfollow' : s.rd .schedg .SCHED_CYC_CFG_SRC ≠ 2 := by simpa [State.follower] using hfollow
  have hbounds : 50000 ≤ s.nextLen ∧ s.nextLen ≤ 100000000 := ⟨Nat.le_max_left .., Nat.max_le.2 ⟨by decide, Nat.min_le_left ..⟩⟩
  have hlen : ((timeTo (max s.now (s.iv .cycStart + s.cycLen / 2))).run s).nextLen = s.nextLen := by
    simp +decide [State.nextLen, State.nextP, State.residual, State.window, rd_of_in (htime _), iv_of_in (htime _)]
  have hP : ((timeTo (max s.now (s.iv .cycStart + s.cycLen / 2))).run s).nextP = s.nextP := by
    simp +decide [State.nextP, State.residual, rd_of_in (htime _), iv_of_in (htime _)]
  simp +decide [commit, hnext, hlocked', hfollow', State.tracker, State.follower, rd_of_in (htime _), hlen, hP, hbounds]

theorem edge_locked (e : Fin 5) (x : Nat) (hx : x = ((s.now : Int) + (e : Nat) - 2 + s.refOffset).toNat) (href : s.fromRef =
    true) (hlocked : s.tracker = ctLOCKED) (hedge : s.iv .cycEdge = 0) (hwindow : s.inWindow x (s.iv .cycStart) (s.iv
    .cycPrev) = true) : Gives (.cycRefEdge e) s fun t => t.iv .cycEdge = 1 ∧ t.iv .cycRes = zig ((x : Int) - (s.iv .cycStart :
    Int)) ∧ t.cnt .schedg 0 = min (s.cnt .schedg 0 + 1) cntMax ∧ t.tracker = ctLOCKED := by
  refine gives_awake hs rfl fun _ _ => ?_
  have := Upd.keeps_fact
  subst hx
  have hlocked' : s.rd .schedg .SCHED_CYC_STAT_STATE = 2 := hlocked
  simp +decide [href, State.tracker, hlocked', hedge, hwindow]

theorem edge_first (e : Fin 5) (href : s.fromRef = true) (htrack : s.tracker ≤ ctACQUIRE) (hfirst : s.iv .cycFirst = 0) (hrun
   : s.iv .edgeRun = 0) : Gives (.cycRefEdge e) s fun t => t.tracker = ctACQUIRE ∧ t.iv .edgeRun = 1 ∧ t.iv .edgeLast =
    ((s.now : Int) + (e : Nat) - 2 + s.refOffset).toNat + 1 := by
  refine gives_awake hs rfl fun _ _ => ?_
  have := Upd.keeps_fact
  have htrack' : s.rd .schedg .SCHED_CYC_STAT_STATE ≤ ctACQUIRE := htrack
  simp +decide [href, State.tracker, htrack', hfirst, hrun, State.ivOn, acquireEdge, firstOfRun]

theorem edge_missed (href : s.fromRef = true) (hlocked : s.tracker = ctLOCKED) (hedge : s.iv .cycEdge = 0) (hsrc : s.iv
    .asSource = 0) (hhold : 2 ≤ s.holdCycles) : Gives (.edgeWindowClose) s fun t => t.tracker = ctHOLDOVER ∧ t.rd .schedg
    .SCHED_CYC_STAT_HOLD_LEFT = s.holdCycles - 1 ∧ (t.rd .schedg .ERR_STICKY_BITS).testBit Err.CYC_HOLDOVER.bit = true := by
  refine gives_awake hs rfl fun _ _ => ?_
  have := Upd.keeps_fact
  have hlocked' : (s.tracker == ctLOCKED) = true := by simpa using hlocked
  have hlocked'' : (((put .cycEdge 2).run s).tracker == ctLOCKED) = true := hlocked'
  have hcycles : ((put .cycEdge 2).run s).holdCycles = s.holdCycles := rfl
  obtain ⟨htrack, hleft, herr⟩ := enterHoldover_enters (s := (put .cycEdge 2).run s)
  have hmore : (s.holdCycles - 1 == 0) = false := by simp; omega
  have hbound : s.holdCycles - 1 < 2 ^ 13 :=
    Nat.lt_of_le_of_lt (Nat.sub_le_of_le_add (b := 1) (Nat.max_le.2 ⟨by decide, Nat.min_le_left ..⟩)) (show 4095 < 2 ^ 13 by decide)
  rw [look_run, when_pos (by simp [hedge, hsrc, href, hlocked, State.ivOn])]
  simp only [boundaryMissed, all_cons_run, all_nil_run, look_run, hlocked'', when_true_run, hleft, hcycles, hmore, Bool.false_eq_true, if_false]
  simp only [State.tracker] at htrack ⊢
  simp +decide [htrack, herr]
  exact Nat.mod_eq_of_lt hbound

theorem marker_due (p : PortId) (hfab : s.isFab p = true) (htx : s.on (.port p) .PORT_CFG_CYC_TX = true) : Gives
    (.cycleMarkerSend p) s fun t => t.iv .mkDue p = 1 := by
  refine gives_awake hs rfl fun _ _ => ?_
  have := Upd.keeps_fact
  have hrest := restExit_in (Foot.le_refl _) p
  simp +decide [hfab, htx, iv_of_in hrest]

theorem marker_taken (p : PortId) (lf : LinkFrame) (m : Marker) (n : Nat) (hruns : s.linkRuns p = true) (hbody : lf.frame.body
    = .marker m) (hcount : s.markerCount p lf.seq = some n) (hrx : s.on (.port p) .PORT_CFG_CYC_RX = true) (hbad : s.laneBad p
    lf = false) (hcrc : lf.crcOk = true) (hok : lf.countOk = true) (henc : s.on (.port p) .PORT_LINK_STAT_ENC = false)
    (hfollow : s.follower = false) : Gives (.cycleMarkerReceived p lf) s fun t => t.iv .mkRx p = n + 1 ∧ t.iv .mkEchoT1 p =
    m.tTx + 1 ∧ t.iv .mkEchoT2 p = s.now ∧ t.iv .crUsed (crIdx p 0 poolCTL) = s.iv .crUsed (crIdx p 0 poolCTL) + credits
    lf.len ∧ t.cnt (.port p) 15 = min (s.cnt (.port p) 15 + 1) cntMax := by
  refine gives_awake hs rfl fun _ _ => ?_
  have := Upd.keeps_fact
  simp +decide [hruns, markerArrives, hbody, hcount, hrx, hbad, hcrc, hok, henc, hfollow]

theorem marker_old (p : PortId) (lf : LinkFrame) (hruns : s.linkRuns p = true) (hcount : s.markerCount p lf.seq = none) :
    Gives (.cycleMarkerReceived p lf) s fun t => t.iv .mkRx p = s.iv .mkRx p ∧ t.cnt (.port p) 16 = min (s.cnt (.port p) 16 +
    1) cntMax ∧ (t.rd (.port p) .ERR_STICKY_BITS).testBit Err.PORT_MARKER_REFUSED.bit = true := by
  refine gives_awake hs rfl fun _ _ => ?_
  have := Upd.keeps_fact
  simp +decide [hruns, markerArrives, hcount]

theorem source_moves (hfollow : s.follower = true) (halt : s.on .schedg .SCHED_CYC_CFG_ALT_EN = true) (hagree : s.ivOn
    .mkAgree s.otherPort = true) (husable : s.usable s.otherPort = true) : Gives (.sourceMarkerTimeout) s fun t => t.on
    .schedg .SCHED_CYC_STAT_ON_ALT = !s.on .schedg .SCHED_CYC_STAT_ON_ALT ∧ t.fifo .delays = [] ∧ (t.rd .schedg
    .ERR_STICKY_BITS).testBit Err.CYC_SRC_SWITCH.bit = true := by
  refine gives_awake hs rfl fun _ _ => ?_
  have := Upd.keeps_fact
  rw [sourceMove, look_run, when_pos (by simp [hfollow, halt, hagree, husable])]
  cases halted : s.on .schedg .SCHED_CYC_STAT_ON_ALT <;> simp +decide [State.on]

theorem source_unlocked (st : Stamp) (v : Word) (hlock : s.locked .schedg = false) (hsrc : Fld.SCHED_CYC_CFG_SRC.of v.toNat ≠
    s.rd .schedg .SCHED_CYC_CFG_SRC) (hever : s.on .schedg .SCHED_CYC_STAT_EVER_LOCKED = false) (hp : s.pathOpen st = true) :
    Gives (.cycleSourceChange st false v) s fun t => t.rd .schedg .SCHED_CYC_CFG_SRC = Fld.SCHED_CYC_CFG_SRC.of v.toNat ∧
    t.tracker = ctACQUIRE ∧ t.iv .cycFirst = 0 := by
  refine gives_granted hs rfl hlock hp fun _ _ => ?_
  have := Upd.keeps_fact
  have hsrc' : Fld.SCHED_CYC_CFG_SRC.of v.toNat ≠ ((grant st .schedg).run s).rd .schedg .SCHED_CYC_CFG_SRC := by simpa using hsrc
  rw [cycCfgWrite_changes st hsrc']
  obtain ⟨hrd, htrack, hfirst⟩ := sourceChanged_unlocked (s := (plainWrite st .schedg 0x100 v.toNat).run ((grant st .schedg).run s))
    (by simpa +decide [State.on] using hever)
  refine ⟨hrd.trans ?_, htrack, hfirst⟩
  simp +decide

theorem source_locked (st : Stamp) (v : Word) (hlock : s.locked .schedg = false) (hsrc : Fld.SCHED_CYC_CFG_SRC.of v.toNat ≠
    s.rd .schedg .SCHED_CYC_CFG_SRC) (hever : s.on .schedg .SCHED_CYC_STAT_EVER_LOCKED = true) (hhold : s.tracker ≠
    ctHOLDOVER) (hp : s.pathOpen st = true) : Gives (.cycleSourceChange st false v) s fun t => t.tracker = ctHOLDOVER ∧ t.rd
    .schedg .SCHED_CYC_STAT_HOLD_LEFT = s.holdCycles ∧ t.cycleNum = s.cycleNum := by
  refine gives_granted hs rfl hlock hp fun _ _ => ?_
  have := Upd.keeps_fact
  have hsrc' : Fld.SCHED_CYC_CFG_SRC.of v.toNat ≠ ((grant st .schedg).run s).rd .schedg .SCHED_CYC_CFG_SRC := by simpa using hsrc
  rw [cycCfgWrite_changes st hsrc']
  obtain ⟨htrack, hleft, hnum⟩ := sourceChanged_locked (s := (plainWrite st .schedg 0x100 v.toNat).run ((grant st .schedg).run s))
    (by simpa +decide [State.on] using hever) (by simpa +decide [State.tracker] using hhold)
  refine ⟨htrack, hleft.trans ?_, hnum.trans ?_⟩
  · simp +decide [State.holdCycles]
  · simp +decide [State.cycleNum, State.on]

theorem pulse_ends (hout : s.ivOn .cycOut = true) : Gives (.cycOutPulseEnd) s fun t => t.iv .cycOut = 0 ∧ t.out = Out.cycOut
    false :: s.out := by
  refine gives_awake hs rfl fun _ _ => ?_
  simp [hout]

theorem ptm_asked (f : FaceId) (hen : s.ivOn .ptmEnable f = true) (hlive : s.faceLive f = true) : Gives (.ptmRequestTimer f) s
    fun t => t.out = Out.ptmRequest f :: s.out := by
  refine gives_awake hs rfl fun _ _ => ?_
  simp [hen, hlive]

theorem ptm_answered (f : FaceId) (h : BitVec 64) (hen : s.ivOn .ptmEnable f = true) : Gives (.ptmResponseReceived f h) s fun
    t => t.iv .ptmHost f = h.toNat ∧ t.iv .ptmFab f = s.now ∧ t.iv .ptmHost0 f = s.iv .ptmHost f ∧ t.iv .ptmCount f = min 2
    (s.iv .ptmCount f + 1) := by
  refine gives_awake hs rfl fun _ _ => ?_
  simp +decide [hen]

theorem ptm_request (p : PortId) (hrole : s.role p = roleDOWN) (hcarries : s.carries p = true) : Gives (.ptmRequestReceived p)
    s fun t => (t.out = Out.ptmResponse p (if s.on .schedg .SCHED_PTM_FACE_EN p && s.hostValid (s.rd .schedg
    .SCHED_PTM_FACE_FACE p) then some (s.hostTime (s.rd .schedg .SCHED_PTM_FACE_FACE p)) else none) :: s.out) := by
  refine gives_awake hs rfl fun _ _ => ?_
  simp [hrole, hcarries]

theorem cycleSnapshot_taken (st : Stamp) (v : Word) (hlock : s.locked .schedg = false) (hgo : v.getLsbD 31 = true) (hp : s.pathOpen
    st = true) : Gives (.snapshotCapture st v) s fun t => t.rdSt st.code .schedg .SCHED_SNAP_FAB_V = s.now % 2 ^ 32 ∧ t.rdSt
    st.code .schedg .SCHED_SNAP_CYC_V = s.cycleNum % 2 ^ 32 ∧ t.rdSt st.code .schedg .SCHED_SNAP_PHASE_V = s.phase % 2 ^ 20 ∧
    t.rdSt st.code .schedg .SCHED_SNAP_CTRL_VALID = 1 := by
  refine gives_granted hs rfl hlock hp fun _ _ => ?_
  have := Upd.keeps_fact
  have hgo' : v.toNat.testBit 31 = true := by rwa [BitVec.testBit_toNat]
  simp +decide [snapWrite, hgo', State.phase, State.cycleNum, State.cycLen, State.on]
  exact ⟨rfl, rfl, rfl⟩

end

/-- Settles O18: one lemma for each boundary, edge, marker, source change and exchange. -/
theorem cycleAndTimeComplete : Obligations.CycleAndTimeComplete := by
  intro s hs
  exact ⟨cycle_starts_free hs, boundary_locked hs, midpoint_free hs, midpoint_locked hs, edge_locked hs, edge_first hs,
    edge_missed hs, marker_due hs, marker_taken hs, marker_old hs, source_moves hs, source_unlocked hs, source_locked hs,
    pulse_ends hs, ptm_asked hs, ptm_answered hs, ptm_request hs, cycleSnapshot_taken hs⟩

end Sys2Proof.Machine
end

section
/-! PROOF. Hatch lists, policers, and buffer limits (R325, R331, R474 to R484). That ARM wins over NEXT is log entry 184, and
nextCycle log entry 99. -/

namespace Sys2Proof.Machine

set_option Elab.async false


variable {s : State}

/-- The fields of a list are those of list A or of list B. -/
theorem hatchFlds_cases (l : Nat) :
    (hatchStateFld l = .SCHED_HATCH_STAT_A_STATE ∧ hatchVerFld l = .SCHED_HATCH_STAT_A_VERIFIED) ∨
    (hatchStateFld l = .SCHED_HATCH_STAT_B_STATE ∧ hatchVerFld l = .SCHED_HATCH_STAT_B_VERIFIED) := by
  unfold hatchStateFld hatchVerFld
  split
  · exact .inl ⟨rfl, rfl⟩
  · exact .inr ⟨rfl, rfl⟩

/-- A COUNT fits its field. -/
theorem countOf_lt (n : Nat) : countOf n < 2 ^ 9 := by
  unfold countOf
  split <;> omega

section
variable [Fact s.wf]

omit [Fact s.wf] in
/-- A change that touches neither list nor the cycle leaves which list an arm is for. -/
theorem armList_congr {t : State} {p v : Nat} (h : ∀ l, t.hatchState p l = s.hatchState p l) : t.armList p v = s.armList p v := by
  simp only [State.armList, State.hatchActive, h]

/-- Arming a list for a cycle to come (R482). -/
theorem hatchArmFor_arms (p l : Nat) {c : Option Nat} (hc : ∀ n, c = some n → s.cycleNum < n) :
    ((hatchArmFor p l c).run s).hatchState p l = hlPENDING ∧ ((hatchArmFor p l c).run s).iv .hatchAt p = c.getD s.nextCycle + 1 ∧
    ((hatchArmFor p l c).run s).rd (.sched p) .SCHED_HATCH_CTRL_STATUS = hsARMED ∧
    ((hatchArmFor p l c).run s).on (.sched p) .SCHED_HATCH_CTRL_ARM = true := by
  have := Upd.keeps_fact
  cases c with
  | none =>
    rcases hatchFlds_cases l with ⟨hst, -⟩ | ⟨hst, -⟩ <;> simp +decide [hatchArmFor, State.hatchState, hst, State.on]
  | some n =>
    have hlate : ¬n ≤ s.cycleNum := Nat.not_le.2 (hc n rfl)
    rcases hatchFlds_cases l with ⟨hst, -⟩ | ⟨hst, -⟩ <;> simp +decide [hatchArmFor, hlate, State.hatchState, hst, State.on]

theorem hatchOpen_grant (st : Stamp) (pg : Pg) (p l : Nat) : ((grant st pg).run s).hatchOpen p l = s.hatchOpen p l := by
  have hver : ((grant st pg).run s).iv .hatchVer p = s.iv .hatchVer p := by simp
  simp only [State.hatchOpen, hver]
  rfl

/-- A grant leaves what a commit of a policer finds. -/
theorem polNew_put_arbLast (x i st n r : Nat) : ((put .arbLast x i).run s).polNew st n r = s.polNew st n r := by
  simp +decide [State.polNew, State.cbs, State.pbs]

omit [Fact s.wf] in
/-- What a field's write does to the registers does not depend on a number. -/
theorem plainWrite_put (st : Stamp) (pg : Pg) (off v : Nat) (x : Var) (w i : Nat) :
    (plainWrite st pg off v).run ((put x w i).run s) = (put x w i).run ((plainWrite st pg off v).run s) := by
  have hfield : ∀ (fi : Fld × Nat) (t : State), (writeField st pg v fi).run ((put x w i).run t) = (put x w i).run
      ((writeField st pg v fi).run t) := by
    intro fi t
    unfold writeField
    dsimp only
    split
    · split <;> rfl
    all_goals rfl
  have hlist : ∀ (l : List (Fld × Nat)) (t : State),
      (forEach l (writeField st pg v)).run ((put x w i).run t) = (put x w i).run ((forEach l (writeField st pg v)).run t) := by
    intro l
    induction l with
    | nil => exact fun _ => rfl
    | cons fi l ih =>
      intro t
      rw [forEach_cons_run, forEach_cons_run, hfield, ih]
  exact hlist _ s

/-- The COUNT that a write of SCHED_HATCH_LEN asks for. -/
def wantedCount (v l : Nat) : Nat := countOf (if l == 0 then bits v 8 0 else bits v 24 16)

/-- What a write of SCHED_HATCH_LEN does to a list that it changes. -/
def storeCount (p v l : Nat) : Upd := all [wr (.sched p) (hatchCountFld l) (wantedCount v l), wr (.sched p) (hatchVerFld l) 0]

/-- The lists whose COUNT a write would change. -/
def changedLists (s : State) (p v : Nat) : List Nat := (List.range 2).filter fun l => wantedCount v l != s.hatchCount p l

omit [Fact s.wf] in
theorem hatchLenWrite_run (st : Stamp) (p v : Nat) : (hatchLenWrite st p v).run s =
    (when_ ((changedLists s p v).any fun l => !s.hatchOpen p l)
      (all [raise (.sched p) .SCHED_HATCH_WRITE, tellDiscard st (.sched p) [.SCHED_HATCH_WRITE]])).run
        ((forEach ((changedLists s p v).filter (s.hatchOpen p)) (storeCount p v)).run s) := rfl

theorem hatchCount_storeCount {p v k l : Nat} (hk : k < 2) (hl : l < 2) :
    ((storeCount p v k).run s).hatchCount p l = if k = l then wantedCount v l else s.hatchCount p l := by
  have := Upd.keeps_fact
  have hwant : wantedCount v l < 2 ^ 9 := countOf_lt _
  obtain rfl | rfl : k = 0 ∨ k = 1 := by omega
  all_goals
    obtain rfl | rfl : l = 0 ∨ l = 1 := by omega
    all_goals
      simp +decide [storeCount, State.hatchCount, hatchCountFld, hatchVerFld]
      try exact Nat.mod_eq_of_lt hwant

theorem hatchCount_raised {p l : Nat} (st : Stamp) (c : Bool) : ((when_ c (all [raise (.sched p) .SCHED_HATCH_WRITE,
    tellDiscard st (.sched p) [.SCHED_HATCH_WRITE]])).run s).hatchCount p l = s.hatchCount p l := by
  have := Upd.keeps_fact
  have hraise := raise_in (F := Foot.error .sched) (pg := .sched p) rfl (Foot.le_refl _) .SCHED_HATCH_WRITE
  unfold State.hatchCount hatchCountFld
  split <;> simp +decide

/-- A list that is open has the COUNT asked for (R478). -/
theorem hatchLenWrite_open (st : Stamp) {p l : Nat} (v : Nat) (hl : l < 2) (hopen : s.hatchOpen p l = true) :
    ((hatchLenWrite st p v).run s).hatchCount p l = wantedCount v l := by
  have := Upd.keeps_fact
  have hbelow : ∀ k ∈ (changedLists s p v).filter (s.hatchOpen p), k < 2 := fun k hk =>
    List.mem_range.1 (List.mem_filter.1 (List.mem_filter.1 hk).1).1
  rw [hatchLenWrite_run, hatchCount_raised (p := p) (l := l)]
  by_cases h : wantedCount v l = s.hatchCount p l
  · refine forEach_keeps (P := fun t => t.hatchCount p l = wantedCount v l) (fun k hk t _ ht => ?_) s h.symm
    rw [hatchCount_storeCount (hbelow k hk) hl]
    split
    · rfl
    · exact ht
  · refine forEach_reaches (P := fun _ => True) (Q := fun t => t.hatchCount p l = wantedCount v l) (a := l)
      ((List.nodup_range.filter _).filter _) ?_ (fun _ _ _ _ _ _ => trivial) ?_ ?_ s trivial
    · exact List.mem_filter.2 ⟨List.mem_filter.2 ⟨List.mem_range.2 hl, by simpa using h⟩, hopen⟩
    · intro t _ _
      rw [hatchCount_storeCount hl hl, if_pos rfl]
    · intro k hk hkl t _ ht
      rwa [hatchCount_storeCount (hbelow k hk) hl, if_neg hkl]

/-- A list that is not open keeps its COUNT, and a write that would change it is refused. -/
theorem hatchLenWrite_closed (st : Stamp) {p v l : Nat} (hl : l < 2) (hopen : s.hatchOpen p l = false) (hne : wantedCount v l ≠ s.hatchCount p l) :
    ((hatchLenWrite st p v).run s).hatchCount p l = s.hatchCount p l ∧
    (((hatchLenWrite st p v).run s).rd (.sched p) .ERR_STICKY_BITS).testBit Err.SCHED_HATCH_WRITE.bit = true := by
  have := Upd.keeps_fact
  have hmem : l ∈ changedLists s p v := List.mem_filter.2 ⟨List.mem_range.2 hl, by simpa using hne⟩
  rw [hatchLenWrite_run]
  constructor
  · rw [hatchCount_raised (p := p) (l := l)]
    refine forEach_keeps (P := fun t => t.hatchCount p l = s.hatchCount p l) (fun k hk t _ ht => ?_) s rfl
    obtain ⟨hchanged, hopen'⟩ := List.mem_filter.1 hk
    have hkl : k ≠ l := fun he => by simp [he, hopen] at hopen'
    rwa [hatchCount_storeCount (List.mem_range.1 (List.mem_filter.1 hchanged).1) hl, if_neg hkl]
  · rw [when_pos (List.any_eq_true.2 ⟨l, hmem, by simp [hopen]⟩)]
    simp +decide

/-- The part of a write of SCHED_HATCH_CTRL before DISARM and ARM act. -/
def hatchCtrlFirst (s : State) (st : Stamp) (p v : Nat) : Upd :=
  all [shaperAdvance p, plainWrite st (.sched p) 0x200 v, gateChange p (s.gates p)]

/-- It leaves the lists, the armed cycle and the tracker's cycle. -/
theorem hatchCtrlFirst_keeps (st : Stamp) (p v : Nat) :
    (∀ l, ((hatchCtrlFirst s st p v).run s).hatchState p l = s.hatchState p l) ∧
    (∀ l, ((hatchCtrlFirst s st p v).run s).on (.sched p) (hatchVerFld l) = s.on (.sched p) (hatchVerFld l)) ∧
    ((hatchCtrlFirst s st p v).run s).rd (.sched p) .SCHED_HATCH_CYCLE_CYCLE = s.rd (.sched p) .SCHED_HATCH_CYCLE_CYCLE ∧
    ((hatchCtrlFirst s st p v).run s).rd (.sched p) .SCHED_HATCH_CYCLE_CYCLE_HI = s.rd (.sched p) .SCHED_HATCH_CYCLE_CYCLE_HI ∧
    ((hatchCtrlFirst s st p v).run s).cycleNum = s.cycleNum ∧ ((hatchCtrlFirst s st p v).run s).nextCycle = s.nextCycle := by
  have := Upd.keeps_fact
  have hshape := shaperAdvance_in (Foot.le_refl _) p
  have hgate := gateChange_in (Foot.le_refl _) p (s.gates p)
  refine ⟨fun l => ?_, fun l => ?_, ?_, ?_, ?_, ?_⟩
  · rcases hatchFlds_cases l with ⟨h, -⟩ | ⟨h, -⟩ <;> simp +decide [hatchCtrlFirst, State.hatchState, h, rd_of_in hshape, rd_of_in hgate]
  · rcases hatchFlds_cases l with ⟨-, h⟩ | ⟨-, h⟩ <;> simp +decide [hatchCtrlFirst, State.on, h, rd_of_in hshape, rd_of_in hgate]
  all_goals simp +decide [hatchCtrlFirst, State.cycleNum, State.nextCycle, State.on, rd_of_in hshape, rd_of_in hgate]

/-- A write that arms a verified list and does not disarm (R482). -/
theorem hatchCtrlWrite_arms (st : Stamp) {p v : Nat} (harm : (v.testBit 31 || v.testBit 29) = true) (hdis : v.testBit 30 = false)
    (hver : s.on (.sched p) (hatchVerFld (s.armList p v)) = true) {c : Option Nat}
    (hc : c = if v.testBit 31 then
      some (s.rd (.sched p) .SCHED_HATCH_CYCLE_CYCLE + s.rd (.sched p) .SCHED_HATCH_CYCLE_CYCLE_HI <<< 32) else none)
    (hcycle : ∀ n, c = some n → s.cycleNum < n) :
    ((hatchCtrlWrite st p v).run s).hatchState p (s.armList p v) = hlPENDING ∧
    ((hatchCtrlWrite st p v).run s).iv .hatchAt p = c.getD s.nextCycle + 1 ∧
    ((hatchCtrlWrite st p v).run s).rd (.sched p) .SCHED_HATCH_CTRL_STATUS = hsARMED ∧
    ((hatchCtrlWrite st p v).run s).on (.sched p) .SCHED_HATCH_CTRL_ARM = true := by
  have := Upd.keeps_fact
  obtain ⟨hstate, -, hlow, hhigh, hnum, hnext⟩ := hatchCtrlFirst_keeps (s := s) st p v
  have hlist := armList_congr (v := v) hstate
  have hrun : (hatchCtrlWrite st p v).run s = (hatchArmFor p (s.armList p v) c).run ((hatchCtrlFirst s st p v).run s) := by
    rw [hatchCtrlWrite, look_run]
    simp only [harm, hver, hdis, Bool.not_true, Bool.and_false, Bool.false_eq_true, if_false, all_cons_run, all_nil_run, when_false_run,
      when_true_run, look_run]
    simp only [hatchCtrlFirst, all_cons_run, all_nil_run] at hlist hlow hhigh ⊢
    rw [hlist, hlow, hhigh, ← hc]
  rw [hrun]
  obtain ⟨h1, h2, h3, h4⟩ := hatchArmFor_arms (s := (hatchCtrlFirst s st p v).run s) p (s.armList p v) (c := c) (by rwa [hnum])
  exact ⟨h1, h2.trans (by rw [hnext]), h3, h4⟩

end

section
variable {s : State} (hs : s.Awake)
include hs

theorem lengths_written (st : Stamp) (p : PortId) (v : Word) (hlock : s.locked (.sched p) = false) (hopenA : s.hatchOpen p 0 =
    true) (hopenB : s.hatchOpen p 1 = true) (hp : s.pathOpen st = true) : Gives (.hatchLenWrite st p v) s fun t =>
    t.hatchCount p 0 = countOf (bits v.toNat 8 0) ∧ t.hatchCount p 1 = countOf (bits v.toNat 24 16) := by
  refine gives_granted hs rfl hlock hp fun _ _ => ?_
  have := Upd.keeps_fact
  exact ⟨hatchLenWrite_open (l := 0) st _ (by decide) ((hatchOpen_grant ..).trans hopenA),
    hatchLenWrite_open (l := 1) st _ (by decide) ((hatchOpen_grant ..).trans hopenB)⟩

theorem length_refused (st : Stamp) (p : PortId) (v : Word) (hlock : s.locked (.sched p) = false) (hopen : s.hatchOpen p 0 =
    false) (hne : countOf (bits v.toNat 8 0) ≠ s.hatchCount p 0) (hp : s.pathOpen st = true) : Gives (.hatchLenWrite st p v) s
    fun t => t.hatchCount p 0 = s.hatchCount p 0 ∧ (t.rd (.sched p) .ERR_STICKY_BITS).testBit Err.SCHED_HATCH_WRITE.bit = true
   := by
  refine gives_granted hs rfl hlock hp fun _ _ => ?_
  have := Upd.keeps_fact
  exact hatchLenWrite_closed (l := 0) st (by decide) ((hatchOpen_grant ..).trans hopen) hne

theorem verification_starts (st : Stamp) (p : PortId) (v : Word) (hlock : s.locked (.sched p) = false) (hgo : v.getLsbD 31 =
    true) (hbusy : s.on (.sched p) .SCHED_HATCH_VERIFY_BUSY = false) (hidle : s.hatchState p (bits v.toNat 29 29) = hlIDLE)
    (hp : s.pathOpen st = true) : Gives (.hatchVerifyStart st p v) s fun t => t.on (.sched p) .SCHED_HATCH_VERIFY_BUSY = true
    ∧ t.iv .hatchSig (64 * p + 3) = s.rd (.sched p) .SCHED_HATCH_SIG_DW 3 ∧ t.hatchOpen p (bits v.toNat 29 29) = false := by
  refine gives_granted hs rfl hlock hp fun _ _ => ?_
  have := Upd.keeps_fact
  have hgo' : v.toNat.testBit 31 = true := by rwa [BitVec.testBit_toNat]
  have hbusy' : s.rd (.sched p) .SCHED_HATCH_VERIFY_BUSY = 0 := by simpa [State.on] using hbusy
  have hloop : ∀ g : Nat → Nat, (forBelow 48 fun j => put .hatchSig (g j) (64 * p + j)).In (Foot.numbers [.hatchSig]) :=
    fun g => forBelow_in fun j => put_in (by decide)
  have hsig : ∀ (g : Nat → Nat) (t : State), Fact t.wf →
      ((forBelow 48 fun j => put .hatchSig (g j) (64 * p + j)).run t).iv .hatchSig (64 * p + 3) = g 3 := by
    intro g t _
    refine forBelow_reaches (P := fun _ => True) (Q := fun t => t.iv .hatchSig (64 * p + 3) = g 3) (i := 3) (by decide)
        (fun _ _ _ _ _ => trivial) ?_ ?_ t trivial
    · intro t _ _
      simp
    · intro j hj t _ ht
      simpa [hj.symm] using ht
  have hst : ((put .arbLast (st.code + 1) ((Pg.sched p).base / 64)).run s).hatchState p (bits v.toNat 29 29) = hlIDLE := hidle
  simp +decide [hatchVerifyWrite, hgo', hbusy', hst, State.on, rd_of_in (hloop _), iv_of_in (hloop _), hsig, State.hatchOpen]

theorem verification_passes (p : PortId) (hbusy : s.on (.sched p) .SCHED_HATCH_VERIFY_BUSY = true) (hcode : (s.hatchResult p
    (s.iv .hatchVer p - 1)).1 = 1) : Gives (.hatchVerifyDone p) s fun t => t.on (.sched p) .SCHED_HATCH_VERIFY_BUSY = false ∧
    t.rd (.sched p) .SCHED_HATCH_VERIFY_STATUS = 1 ∧ t.on (.sched p) (hatchVerFld (s.iv .hatchVer p - 1)) = true := by
  refine gives_awake hs rfl fun _ _ => ?_
  have := Upd.keeps_fact
  have hbusy' : s.rd (.sched p) .SCHED_HATCH_VERIFY_BUSY ≠ 0 := by simpa [State.on] using hbusy
  rcases hatchFlds_cases (s.iv .hatchVer p - 1) with ⟨-, hver⟩ | ⟨-, hver⟩ <;>
    simp +decide [hbusy', hatchVerifyEnds, hcode, hver, State.on]

theorem verification_fails (p : PortId) (hbusy : s.on (.sched p) .SCHED_HATCH_VERIFY_BUSY = true) (hcode : (s.hatchResult p
    (s.iv .hatchVer p - 1)).1 ≠ 1) : Gives (.hatchVerifyDone p) s fun t => t.on (.sched p) .SCHED_HATCH_VERIFY_BUSY = false ∧
    t.rd (.sched p) .SCHED_HATCH_VERIFY_STATUS = (s.hatchResult p (s.iv .hatchVer p - 1)).1 % 2 ^
    Fld.SCHED_HATCH_VERIFY_STATUS.width ∧ (t.rd (.sched p) .ERR_STICKY_BITS).testBit Err.SCHED_HATCH_VERIFY_FAIL.bit = true ∧
    t.on (.sched p) (hatchVerFld (s.iv .hatchVer p - 1)) = s.on (.sched p) (hatchVerFld (s.iv .hatchVer p - 1)) := by
  refine gives_awake hs rfl fun _ _ => ?_
  have := Upd.keeps_fact
  have hbusy' : s.rd (.sched p) .SCHED_HATCH_VERIFY_BUSY ≠ 0 := by simpa [State.on] using hbusy
  rcases hatchFlds_cases (s.iv .hatchVer p - 1) with ⟨-, hver⟩ | ⟨-, hver⟩ <;>
    simp +decide [hbusy', hatchVerifyEnds, hcode, hver, State.on]

theorem list_armed (st : Stamp) (p : PortId) (v : Word) (hlock : s.locked (.sched p) = false) (harm : v.getLsbD 31 = true)
    (hdis : v.getLsbD 30 = false) (hver : s.on (.sched p) (hatchVerFld (s.armList p v.toNat)) = true) (hcycle : s.cycleNum <
    s.rd (.sched p) .SCHED_HATCH_CYCLE_CYCLE + s.rd (.sched p) .SCHED_HATCH_CYCLE_CYCLE_HI <<< 32) (hp : s.pathOpen st = true)
   : Gives (.hatchArm st p v) s fun t => t.hatchState p (s.armList p v.toNat) = hlPENDING ∧ t.iv .hatchAt p = s.rd (.sched p)
    .SCHED_HATCH_CYCLE_CYCLE + s.rd (.sched p) .SCHED_HATCH_CYCLE_CYCLE_HI <<< 32 + 1 ∧ t.rd (.sched p)
    .SCHED_HATCH_CTRL_STATUS = hsARMED ∧ t.on (.sched p) .SCHED_HATCH_CTRL_ARM = true := by
  refine gives_granted hs rfl hlock hp fun _ _ => ?_
  rw [← BitVec.testBit_toNat] at harm hdis
  have hgrant : ∀ f, ((grant st (.sched p)).run s).rd (.sched p) f = s.rd (.sched p) f := fun _ => rfl
  obtain ⟨h1, h2, h3, h4⟩ := hatchCtrlWrite_arms (s := (grant st (.sched p)).run s) (v := v.toNat) (p := p) st (by rw [harm]; rfl) hdis hver
    (c := some (s.rd (.sched p) .SCHED_HATCH_CYCLE_CYCLE + s.rd (.sched p) .SCHED_HATCH_CYCLE_CYCLE_HI <<< 32))
    (by rw [if_pos harm, hgrant, hgrant]) fun n hn => by
      obtain rfl := Option.some.inj hn
      exact hcycle
  exact ⟨h1, h2, h3, h4⟩

theorem arm_refused (st : Stamp) (p : PortId) (v : Word) (hlock : s.locked (.sched p) = false) (harm : v.getLsbD 31 = true)
    (hver : s.on (.sched p) (hatchVerFld (s.armList p v.toNat)) = false) (hp : s.pathOpen st = true) : Gives (.hatchArm st p
    v) s fun t => t.rd (.sched p) .SCHED_HATCH_CTRL_STATUS = hsREFUSED_UNVERIFIED ∧ t.iv .hatchAt p = s.iv .hatchAt p ∧
    t.hatchState p 0 = s.hatchState p 0 ∧ t.hatchState p 1 = s.hatchState p 1 := by
  refine gives_granted hs rfl hlock hp fun _ _ => ?_
  have := Upd.keeps_fact
  rw [← BitVec.testBit_toNat] at harm
  have hrun : (hatchCtrlWrite st p v.toNat).run ((grant st (.sched p)).run s) =
      (wr (.sched p) .SCHED_HATCH_CTRL_STATUS hsREFUSED_UNVERIFIED).run ((grant st (.sched p)).run s) := by
    have hver' : ((grant st (.sched p)).run s).on (.sched p) (hatchVerFld (((grant st (.sched p)).run s).armList p v.toNat)) = false := hver
    rw [hatchCtrlWrite, look_run]
    simp only [harm, hver', Bool.true_or, Bool.not_false, Bool.and_true, if_true]
  rw [hrun]
  simp +decide [State.hatchState, hatchStateFld]

theorem list_armed_next (st : Stamp) (p : PortId) (v : Word) (hlock : s.locked (.sched p) = false) (harm : v.getLsbD 31 =
    false) (hdis : v.getLsbD 30 = false) (hnext : v.getLsbD 29 = true) (hver : s.on (.sched p) (hatchVerFld (s.armList p
    v.toNat)) = true) (hp : s.pathOpen st = true) : Gives (.hatchArmNext st p v) s fun t => t.hatchState p (s.armList p
    v.toNat) = hlPENDING ∧ t.iv .hatchAt p = s.nextCycle + 1 ∧ t.rd (.sched p) .SCHED_HATCH_CTRL_STATUS = hsARMED := by
  refine gives_granted hs rfl hlock hp fun _ _ => ?_
  rw [← BitVec.testBit_toNat] at harm hdis hnext
  obtain ⟨h1, h2, h3, -⟩ := hatchCtrlWrite_arms (s := (grant st (.sched p)).run s) st (by rw [harm, hnext]; rfl) hdis hver (c := none)
    (by rw [if_neg (by simp [harm])]) nofun
  exact ⟨h1, h2, h3⟩

theorem list_disarmed (st : Stamp) (p : PortId) (v : Word) (l : Nat) (hlock : s.locked (.sched p) = false) (hdis : v.getLsbD
    30 = true) (harm : v.getLsbD 31 = false) (hnext : v.getLsbD 29 = false) (hpending : s.hatchPending p = some l) (hp :
    s.pathOpen st = true) : Gives (.hatchDisarm st p v) s fun t => t.hatchState p l = hlIDLE ∧ t.iv .hatchAt p = 0 ∧ t.on
    (.sched p) (hatchVerFld l) = s.on (.sched p) (hatchVerFld l) ∧ t.rd (.sched p) .SCHED_HATCH_CTRL_STATUS = hsDISARMED := by
  refine gives_granted hs rfl hlock hp fun _ _ => ?_
  have := Upd.keeps_fact
  rw [← BitVec.testBit_toNat] at harm hdis hnext
  obtain ⟨hstate, hver, -⟩ := hatchCtrlFirst_keeps (s := (grant st (.sched p)).run s) st p v.toNat
  have hpend : ((hatchCtrlFirst ((grant st (.sched p)).run s) st p v.toNat).run ((grant st (.sched p)).run s)).hatchPending p = some l := by
    rw [← hpending]
    simp only [State.hatchPending, hstate]
    rfl
  have hrun : (hatchCtrlWrite st p v.toNat).run ((grant st (.sched p)).run s) =
      (all [hatchUnpend p, wr (.sched p) .SCHED_HATCH_CTRL_STATUS hsDISARMED]).run
        ((hatchCtrlFirst ((grant st (.sched p)).run s) st p v.toNat).run ((grant st (.sched p)).run s)) := by
    rw [hatchCtrlWrite, look_run]
    simp only [hatchCtrlFirst, all_cons_run, all_nil_run] at hpend
    simp only [harm, hnext, hdis, Bool.or_false, Bool.false_and, Bool.false_eq_true, if_false, all_cons_run, all_nil_run, when_false_run,
      when_true_run, look_run, hpend, Option.isSome_some, hatchCtrlFirst]
  rw [hrun]
  have hver' : ((hatchCtrlFirst ((grant st (.sched p)).run s) st p v.toNat).run ((grant st (.sched p)).run s)).on (.sched p) (hatchVerFld l) =
      s.on (.sched p) (hatchVerFld l) := hver l
  rw [← hver']
  have hfact := this (hatchCtrlFirst ((grant st (.sched p)).run s) st p v.toNat) ((grant st (.sched p)).run s)
  generalize (hatchCtrlFirst _ st p v.toNat).run _ = u at hpend hfact
  rcases hatchFlds_cases l with ⟨hst, hv⟩ | ⟨hst, hv⟩ <;> simp +decide [hatchUnpend, hpend, State.hatchState, State.on, hst, hv]

theorem policer_committed (st : Stamp) (v : Word) (hlock : s.locked .schedg = false) (hgo : v.getLsbD 31 = true) (hmode :
    (s.polNew st.code (bits v.toNat 12 0) 0).testBit 30 = false) (hrates : s.polNew st.code (bits v.toNat 12 0) 1 ≤ s.polNew
    st.code (bits v.toNat 12 0) 2) (hburst : 9640 ≤ s.polNew st.code (bits v.toNat 12 0) 4) (hp : s.pathOpen st = true) :
    Gives (.policerCommit st v) s fun t => t.iv .polCtl (bits v.toNat 12 0) = s.polNew st.code (bits v.toNat 12 0) 0 ∧ t.iv
    .polCir (bits v.toNat 12 0) = s.polNew st.code (bits v.toNat 12 0) 1 ∧ t.iv .polPir (bits v.toNat 12 0) = s.polNew st.code
    (bits v.toNat 12 0) 2 ∧ t.cbs (bits v.toNat 12 0) = s.polNew st.code (bits v.toNat 12 0) 3 ∧ t.pbs (bits v.toNat 12 0) =
    s.polNew st.code (bits v.toNat 12 0) 4 ∧ t.rdSt st.code .schedg .SCHED_POL_SEL_STATUS = 0 := by
  refine gives_granted hs rfl hlock hp fun _ _ => ?_
  have := Upd.keeps_fact
  have hcheck := tdiCheck_in (Foot.le_refl _)
  have hgo' : v.toNat.testBit 31 = true := by rwa [BitVec.testBit_toNat]
  have hnew := fun x i => polNew_put_arbLast (s := s) x i st.code
  simp +decide [polSelWrite, hgo', hmode, hnew, Nat.not_lt.2 hrates, Nat.not_lt.2 hburst, State.cbs, State.pbs, rdSt_of_in hcheck, iv_of_in hcheck]

theorem policer_refused (st : Stamp) (v : Word) (hlock : s.locked .schedg = false) (hgo : v.getLsbD 31 = true) (hmode :
    (s.polNew st.code (bits v.toNat 12 0) 0).testBit 30 = false) (hrates : s.polNew st.code (bits v.toNat 12 0) 2 < s.polNew
    st.code (bits v.toNat 12 0) 1) (hp : s.pathOpen st = true) : Gives (.policerCommit st v) s fun t => t.iv .polCir (bits
    v.toNat 12 0) = s.iv .polCir (bits v.toNat 12 0) ∧ t.rdSt st.code .schedg .SCHED_POL_SEL_STATUS = 1 := by
  refine gives_granted hs rfl hlock hp fun _ _ => ?_
  have := Upd.keeps_fact
  have hcheck := tdiCheck_in (Foot.le_refl _)
  have hgo' : v.toNat.testBit 31 = true := by rwa [BitVec.testBit_toNat]
  have hnew := fun x i => polNew_put_arbLast (s := s) x i st.code
  simp +decide [polSelWrite, hgo', hmode, hnew, hrates, rdSt_of_in hcheck, iv_of_in hcheck]

theorem limit_written (st : Stamp) (i : Fin 1024) (d : Fin 2) (v : Word) (hlock : s.locked (.core 2) = false) (hmin : s.rd
    (.core 0) .CORE_BUF_CFG_SHARED_MIN = 0) (hp : s.pathOpen st = true) : Gives (.bufferLimitWrite st true i d v) s fun t =>
    t.rd (.core 2) .CORE_VI_LIMIT_RES i = Fld.CORE_VI_LIMIT_RES.of v.toNat ∧ t.rd (.core 2) .CORE_VI_LIMIT_MAX i =
    Fld.CORE_VI_LIMIT_MAX.of v.toNat ∧ t.rd (.core 2) .CORE_VI_LIMIT_ALPHA i = Fld.CORE_VI_LIMIT_ALPHA.of v.toNat := by
  refine gives_granted hs rfl hlock hp fun _ _ => ?_
  have := Upd.keeps_fact
  have hcheck := tdiCheck_in (Foot.le_refl _)
  have hwatch := coreWatch_in (Foot.le_refl _)
  simp +decide [bufferLimitWrite, hmin, rd_of_in hcheck, rd_of_in hwatch]
  have hoff : 0x100 + i.val * 4 = 0x100 + 4 * i.val := by omega
  refine ⟨?_, ?_, ?_⟩ <;> exact rd_plainWrite st _ (own_mem (by decide)) i.isLt hoff rfl rfl

theorem limit_refused (st : Stamp) (i : Fin 1024) (d : Fin 2) (v : Word) (hlock : s.locked (.core 2) = false) (hless :
    ((plainWrite st (.core 2) (0x100 + 4 * i.val) v.toNat).run s).sPool < s.sPool) (hmin : ((plainWrite st (.core 2) (0x100 +
    4 * i.val) v.toNat).run s).sPool < s.rd (.core 0) .CORE_BUF_CFG_SHARED_MIN) (hp : s.pathOpen st = true) : Gives
    (.bufferLimitWrite st true i d v) s fun t => t.rd (.core 2) .CORE_VI_LIMIT_RES i = s.rd (.core 2) .CORE_VI_LIMIT_RES i ∧
    (t.rd (.core 0) .ERR_STICKY_BITS).testBit Err.CORE_CFG_REFUSED.bit = true := by
  refine gives_granted hs rfl hlock hp fun _ _ => ?_
  have := Upd.keeps_fact
  have hcheck := tdiCheck_in (Foot.le_refl _)
  have hpool : ∀ (t : State) x w j, ((put x w j).run t).sPool = t.sPool := fun _ _ _ _ => rfl
  have hwritten : ((plainWrite st (.core 2) (0x100 + 4 * i.val) v.toNat).run ((grant st (.core 2)).run s)).sPool =
      ((plainWrite st (.core 2) (0x100 + 4 * i.val) v.toNat).run s).sPool := by
    rw [grant, plainWrite_put, hpool]
  have hrun : (bufferLimitWrite st (.core 2) (0x100 + 4 * i.val) v.toNat).run ((grant st (.core 2)).run s) =
      (raise (.core 0) .CORE_CFG_REFUSED).run ((grant st (.core 2)).run s) := by
    have hlow : (decide (((plainWrite st (.core 2) (0x100 + 4 * i.val) v.toNat).run s).sPool < ((grant st (.core 2)).run s).sPool) &&
        decide (((plainWrite st (.core 2) (0x100 + 4 * i.val) v.toNat).run s).sPool < ((grant st (.core 2)).run s).rd
            (.core 0) .CORE_BUF_CFG_SHARED_MIN)) = true :=
      Bool.and_eq_true_iff.2 ⟨decide_eq_true hless, decide_eq_true hmin⟩
    rw [bufferLimitWrite, look_run]
    dsimp only
    rw [hwritten, if_pos hlow]
  simp only [all_cons_run, all_nil_run, hrun]
  simp +decide [rd_of_in hcheck]

end

/-- Settles O19: one lemma for each write and for the end of a verification. -/
theorem hatchListsAndLimitsComplete : Obligations.HatchListsAndLimitsComplete := by
  intro s hs
  exact ⟨lengths_written hs, length_refused hs, verification_starts hs, verification_passes hs, verification_fails hs,
    list_armed hs, arm_refused hs, list_armed_next hs, list_disarmed hs, policer_committed hs, policer_refused hs,
    limit_written hs, limit_refused hs⟩

end Sys2Proof.Machine
end

section
/-! PROOF. Writing, verifying, arming, and losing route plates (R379 to R395). That ARM wins over NEXT is log entry 184, and
nextCycle log entry 99. -/

namespace Sys2Proof.Machine

set_option Elab.async false


variable {s : State}

/-- The VERIFIED field of a plate is one of two. -/
theorem plateVerFld_cases (k : Nat) : plateVerFld k = .ROUTE_LIVE_SEL_P0_VERIFIED ∨ plateVerFld k = .ROUTE_LIVE_SEL_P1_VERIFIED := by
  unfold plateVerFld
  split
  · exact .inl rfl
  · exact .inr rfl

/-- The STATE field of a plate is one of two. -/
theorem plateStateFld_cases (k : Nat) : plateStateFld k = .ROUTE_LIVE_SEL_P0_STATE ∨ plateStateFld k = .ROUTE_LIVE_SEL_P1_STATE := by
  unfold plateStateFld
  split
  · exact .inl rfl
  · exact .inr rfl

section
variable [Fact s.wf]

omit [Fact s.wf] in
/-- An access to the plate window whose path is open notes its grant, and acts. -/
theorem grantPlate_run {st : Stamp} (hp : s.pathOpen st = true) (u : Upd) :
    (grantPlate st u).run s = u.run ((put .arbLast (st.code + 1) (0x1000000 / 0x40)).run s) := by
  simp [grantPlate, onPath, hp]

/-- Arming a turn (R385). -/
theorem turnArm_arms (c : Nat) : ((turnArm c).run s).turnArmed = true ∧ ((turnArm c).run s).iv .turnAt = c ∧
    ((turnArm c).run s).rd (.route 0) .ROUTE_TURN_CTRL_STATUS = tnARMED := by
  have := Upd.keeps_fact
  simp +decide [turnArm, State.turnArmed, State.on]

/-- An entry that is lost is zero, and what it does to its plate is recorded (R393). -/
theorem plateLoses_one (k i : Nat) : ((plateLoses k [i]).run s).entry k i = 0 ∧
    (((plateLoses k [i]).run s).rd (.route 0) .ERR_STICKY_BITS).testBit
      (if s.plateState k = plDRAFT then Err.ROUTE_ECC_REBUILT.bit else Err.ROUTE_PLATE_LOST.bit) = true := by
  have := Upd.keeps_fact
  by_cases h : s.plateState k = plDRAFT
  · rcases plateVerFld_cases k with hv | hv <;> simp +decide [plateLoses, h, State.entry, turnDisarm, hv]
  · simp +decide [plateLoses, h, State.entry]

end

section
variable {s : State} (hs : s.Awake)
include hs

theorem entry_staged (st : Stamp) (k : Fin 2) (i : Fin 524288) (d : Fin 3) (v : Word) (hopen : s.plateOpen k = true) (hp :
    s.pathOpen st = true) : Gives (.plateEntryStage st k i d v) s fun t => t.iv .plateDw (4 * st.code + d) = v.toNat ∧ t.iv
    .plateAt st.code = k * 524288 + i + 1 ∧ (t.iv .plateHas st.code).testBit d = true ∧ t.entry k i = s.entry k i := by
  refine gives_awake hs rfl fun _ _ => ?_
  have := Upd.keeps_fact
  have hopen' : ((put .arbLast (st.code + 1) (0x1000000 / 0x40)).run s).plateOpen k = true := hopen
  rw [grantPlate_run hp]
  simp +decide [plateStage, hopen', State.entry, setBit, Nat.testBit_or, Nat.testBit_shiftLeft]
  exact v.isLt

theorem stage_refused (st : Stamp) (k : Fin 2) (i : Fin 524288) (d : Fin 3) (v : Word) (hopen : s.plateOpen k = false) (hp :
    s.pathOpen st = true) : Gives (.plateEntryStage st k i d v) s fun t => (t.rd (.route 0) .ERR_STICKY_BITS).testBit
    Err.ROUTE_PLATE_WRITE.bit = true ∧ t.entry k i = s.entry k i := by
  refine gives_awake hs rfl fun _ _ => ?_
  have := Upd.keeps_fact
  have hopen' : ((put .arbLast (st.code + 1) (0x1000000 / 0x40)).run s).plateOpen k = false := hopen
  rw [grantPlate_run hp]
  simp +decide [plateStage, hopen', State.entry, plateDiscard]

theorem entry_committed (st : Stamp) (k : Fin 2) (i : Fin 524288) (v : Word) (hopen : s.plateOpen k = true) (hat : s.iv
    .plateAt st.code = k * 524288 + i + 1) (hhas : s.iv .plateHas st.code = 7) (hp : s.pathOpen st = true) : Gives
    (.plateEntryCommit st k i v) s fun t => t.entry k i = s.iv .plateDw (4 * st.code) + s.iv .plateDw (4 * st.code + 1) <<< 32
    + s.iv .plateDw (4 * st.code + 2) <<< 64 + v.toNat <<< 96 ∧ t.rd (.route 0) (plateVerFld k) = 0 ∧ t.iv .plateHas st.code =
    0 := by
  refine gives_awake hs rfl fun _ _ => ?_
  have := Upd.keeps_fact
  have hopen' : ((put .arbLast (st.code + 1) (0x1000000 / 0x40)).run s).plateOpen k = true := hopen
  have hv : v.toNat % 4294967296 = v.toNat := Nat.mod_eq_of_lt v.isLt
  rw [grantPlate_run hp]
  rcases plateVerFld_cases k with hfld | hfld <;> simp +decide [plateCommit, hopen', State.entry, hat, hhas, hfld, hv]

theorem verification_begins (st : Stamp) (v : Word) (k : Nat) (hlock : s.locked (.route 0) = false) (hgo : v.getLsbD 31 =
    true) (hbusy : s.on (.route 0) .ROUTE_VERIFY_CTRL_BUSY = false) (hdraft : s.draft? = some k) (harmed : s.turnArmed =
    false) (hver : s.verifiedDraft k = false) (hp : s.pathOpen st = true) : Gives (.plateVerifyStart st v) s fun t => t.rd
    (.route 0) .ROUTE_VERIFY_CTRL_BUSY = 1 ∧ t.iv .verifySig 3 = s.rd (.route 1) .ROUTE_SIG_BLK_DW 3 ∧ t.plateOpen k = false
   := by
  refine gives_granted hs rfl hlock hp fun _ _ => ?_
  have := Upd.keeps_fact
  have hgo' : v.toNat.testBit 31 = true := by rwa [BitVec.testBit_toNat]
  have hloop : ∀ g : Nat → Nat, (forBelow 48 fun j => put .verifySig (g j) j).In (Foot.numbers [.verifySig]) := 
    fun g => forBelow_in fun j => put_in (by decide)
  have hsig : ∀ (g : Nat → Nat) (t : State), Fact t.wf → ((forBelow 48 fun j => put .verifySig (g j) j).run t).iv .verifySig 3 = g 3 := by
    intro g t _
    refine forBelow_reaches (P := fun _ => True) (Q := fun t => t.iv .verifySig 3 = g 3) (i := 3) (by decide) (fun _ _ _ _ _ => trivial)
      ?_ ?_ t trivial
    · intro t _ _
      simp
    · intro j hj t _ ht
      simpa [hj.symm] using ht
  have hrun : (verifyCtrlWrite v.toNat).run ((grant st (.route 0)).run s) = (all [wr (.route 0) .ROUTE_VERIFY_CTRL_BUSY 1, put .sigStale 0,
      forBelow 48 fun j => put .verifySig (s.rd (.route 1) .ROUTE_SIG_BLK_DW j) j]).run ((grant st (.route 0)).run s) := by
    have hbusy' : ((grant st (.route 0)).run s).on (.route 0) .ROUTE_VERIFY_CTRL_BUSY = false := hbusy
    have hdraft' : ((grant st (.route 0)).run s).draft? = some k := hdraft
    have hrefused : (((grant st (.route 0)).run s).turnArmed || ((grant st (.route 0)).run s).verifiedDraft k) = false :=
      Bool.or_eq_false_iff.2 ⟨harmed, hver⟩
    rw [verifyCtrlWrite, look_run, when_pos (by rw [hgo', hbusy']; rfl), hdraft']
    dsimp only
    rw [hrefused]
    rfl
  rw [hrun]
  simp +decide [rd_of_in (hloop _), hsig, State.plateOpen, State.on]

theorem verification_ends (k c i : Nat) (hbusy : s.on (.route 0) .ROUTE_VERIFY_CTRL_BUSY = true) (hdraft : s.draft? = some k)
    (hresult : s.verifyResult k = (c, i)) : Gives (.plateVerifyDone) s fun t => t.rd (.route 0) .ROUTE_VERIFY_CTRL_BUSY = 0 ∧
    t.rd (.route 0) .ROUTE_VERIFY_CTRL_STATUS = c % 2 ^ Fld.ROUTE_VERIFY_CTRL_STATUS.width ∧ t.rd (.route 0)
    .ROUTE_VERIFY_CTRL_INDEX = i % 2 ^ Fld.ROUTE_VERIFY_CTRL_INDEX.width ∧ (c = vfOK → t.rd (.route 0) (plateVerFld k) = 1 ∧
    t.rd (.route 0) .ROUTE_GEN_GENERATION k = dword (s.entry k 0) 1) ∧ (c ≠ vfOK → (t.rd (.route 0) .ERR_STICKY_BITS).testBit
    Err.ROUTE_VERIFY_FAIL.bit = true ∧ t.rd (.route 0) (plateVerFld k) = s.rd (.route 0) (plateVerFld k)) := by
  refine gives_awake hs rfl fun _ _ => ?_
  have := Upd.keeps_fact
  have hmod : dword (s.entry k 0) 1 < 2 ^ 32 := Nat.mod_lt _ (by decide)
  rw [look_run, when_pos hbusy, hdraft]
  simp only [forSome, hresult]
  by_cases hc : c = vfOK
  · rcases plateVerFld_cases k with hfld | hfld <;> simp +decide [verifyEnds, hc, hfld]
    all_goals exact Nat.mod_eq_of_lt hmod
  · rcases plateVerFld_cases k with hfld | hfld <;> simp +decide [verifyEnds, hc, hfld]

theorem turn_armed (st : Stamp) (v : Word) (hlock : s.locked (.route 0) = false) (harm : v.getLsbD 31 = true) (hdis :
    v.getLsbD 30 = false) (hver : ([0, 1].any s.verifiedDraft) = true) (hcycle : s.cycleNum < s.rd (.route 0)
    .ROUTE_TURN_CYCLE_CYCLE + s.rd (.route 0) .ROUTE_TURN_CYCLE_CYCLE_HI <<< 32) (hp : s.pathOpen st = true) : Gives
    (.plateTurnArm st v) s fun t => t.turnArmed = true ∧ t.iv .turnAt = s.rd (.route 0) .ROUTE_TURN_CYCLE_CYCLE + s.rd (.route
    0) .ROUTE_TURN_CYCLE_CYCLE_HI <<< 32 ∧ t.rd (.route 0) .ROUTE_TURN_CTRL_STATUS = tnARMED := by
  refine gives_granted hs rfl hlock hp fun _ _ => ?_
  have := Upd.keeps_fact
  rw [← BitVec.testBit_toNat] at harm hdis
  have hrun : (turnCtrlWrite v.toNat).run ((grant st (.route 0)).run s) =
      (turnArm (s.rd (.route 0) .ROUTE_TURN_CYCLE_CYCLE + s.rd (.route 0) .ROUTE_TURN_CYCLE_CYCLE_HI <<< 32)).run ((grant st (.route 0)).run s) := by
    have hver' : ([0, 1].any ((grant st (.route 0)).run s).verifiedDraft) = true := hver
    have hcyc : ((grant st (.route 0)).run s).cycleNum = s.cycleNum := rfl
    have hrd : ∀ f, ((grant st (.route 0)).run s).rd (.route 0) f = s.rd (.route 0) f := fun _ => rfl
    simp only [turnCtrlWrite, look_run, all_cons_run, all_nil_run, hdis, harm, when_false_run, Bool.true_or, when_true_run, hver', hcyc, hrd,
      Nat.not_le.2 hcycle, Bool.not_true, Bool.false_eq_true, if_false, if_true]
  rw [hrun]
  exact turnArm_arms _

theorem turn_refused (st : Stamp) (v : Word) (hlock : s.locked (.route 0) = false) (harm : v.getLsbD 31 = true) (hdis :
    v.getLsbD 30 = false) (hver : ([0, 1].any s.verifiedDraft) = false) (hp : s.pathOpen st = true) : Gives (.plateTurnArm st
    v) s fun t => t.rd (.route 0) .ROUTE_TURN_CTRL_STATUS = tnREFUSED_UNVERIFIED ∧ t.turnArmed = s.turnArmed := by
  refine gives_granted hs rfl hlock hp fun _ _ => ?_
  have := Upd.keeps_fact
  rw [← BitVec.testBit_toNat] at harm hdis
  have hrun : (turnCtrlWrite v.toNat).run ((grant st (.route 0)).run s) =
      (wr (.route 0) .ROUTE_TURN_CTRL_STATUS tnREFUSED_UNVERIFIED).run ((grant st (.route 0)).run s) := by
    have hver' : ([0, 1].any ((grant st (.route 0)).run s).verifiedDraft) = false := hver
    simp only [turnCtrlWrite, look_run, all_cons_run, all_nil_run, hdis, harm, when_false_run, Bool.true_or, when_true_run, hver',
      Bool.not_false, if_true]
  rw [hrun]
  simp +decide [State.turnArmed, State.on]

theorem turn_armed_next (st : Stamp) (v : Word) (hlock : s.locked (.route 0) = false) (harm : v.getLsbD 31 = false) (hdis :
    v.getLsbD 30 = false) (hnext : v.getLsbD 29 = true) (hver : ([0, 1].any s.verifiedDraft) = true) (hp : s.pathOpen st =
    true) : Gives (.plateTurnArmNext st v) s fun t => t.turnArmed = true ∧ t.iv .turnAt = s.nextCycle := by
  refine gives_granted hs rfl hlock hp fun _ _ => ?_
  have := Upd.keeps_fact
  rw [← BitVec.testBit_toNat] at harm hdis hnext
  have hrun : (turnCtrlWrite v.toNat).run ((grant st (.route 0)).run s) = (turnArm s.nextCycle).run ((grant st (.route 0)).run s) := by
    have hver' : ([0, 1].any ((grant st (.route 0)).run s).verifiedDraft) = true := hver
    have hcyc : ((grant st (.route 0)).run s).nextCycle = s.nextCycle := rfl
    simp only [turnCtrlWrite, look_run, all_cons_run, all_nil_run, hdis, harm, hnext, when_false_run, Bool.false_or, when_true_run, hver', hcyc,
      Bool.not_true, Bool.false_eq_true, if_false]
  rw [hrun]
  obtain ⟨harmed, hat, -⟩ := turnArm_arms (s := (grant st (.route 0)).run s) s.nextCycle
  exact ⟨harmed, hat⟩

theorem turn_disarmed (st : Stamp) (v : Word) (hlock : s.locked (.route 0) = false) (hdis : v.getLsbD 30 = true) (harm :
    v.getLsbD 31 = false) (hnext : v.getLsbD 29 = false) (harmed : s.turnArmed = true) (hp : s.pathOpen st = true) : Gives
    (.plateTurnDisarm st v) s fun t => t.turnArmed = false ∧ t.rd (.route 0) .ROUTE_TURN_CTRL_STATUS = tnDISARMED ∧ t.live =
    s.live := by
  refine gives_granted hs rfl hlock hp fun _ _ => ?_
  have := Upd.keeps_fact
  rw [← BitVec.testBit_toNat] at harm hdis hnext
  have harmed' : s.rd (.route 0) .ROUTE_TURN_CTRL_ARM ≠ 0 := by simpa [State.turnArmed, State.on] using harmed
  simp +decide [turnCtrlWrite, harm, hdis, hnext, turnDisarm, State.turnArmed, State.on, harmed', State.live]

theorem single_error (k : Fin 2) (i : Fin 524288) : Gives (.plateEccError k i .single) s fun t => t.cnt (.route 0) 36 = min
    (s.cnt (.route 0) 36 + 1) cntMax ∧ (t.rd (.route 0) .ERR_STICKY_BITS).testBit Err.ROUTE_ECC_CORR.bit = true ∧ t.entry k i
    = s.entry k i := by
  refine gives_awake hs rfl fun _ _ => ?_
  have := Upd.keeps_fact
  simp +decide [plateEcc, State.entry]

theorem error_marks (k : Fin 2) (i : Fin 524288) (hgroup : (s.groupRebuilding k i).isEmpty = true) : Gives (.plateEccError k i
    .uncorrectable) s fun t => t.iv .plateLost (k * 524288 + i) = 1 ∧ t.entry k i = s.entry k i := by
  refine gives_awake hs rfl fun _ _ => ?_
  have := Upd.keeps_fact
  have hgroup' : s.groupRebuilding k i = [] := by simpa using hgroup
  simp +decide [plateEcc, State.entry, hgroup']

theorem entry_lost (k : Fin 2) (i : Fin 524288) : Gives (.plateEccError k i .withParity) s fun t => t.entry k i = 0 ∧ ((t.rd
    (.route 0) .ERR_STICKY_BITS).testBit (if s.plateState k = plDRAFT then Err.ROUTE_ECC_REBUILT.bit else
    Err.ROUTE_PLATE_LOST.bit) = true) := by
  refine gives_awake hs rfl fun _ _ => ?_
  exact plateLoses_one k i

theorem entry_rebuilt (k : Fin 2) (i : Fin 524288) (hlost : s.ivOn .plateLost (k * 524288 + i) = true) : Gives
    (.plateEntryRebuild k i) s fun t => t.iv .plateLost (k * 524288 + i) = 0 ∧ t.entry k i = s.entry k i ∧ t.cnt (.route 0) 37
    = min (s.cnt (.route 0) 37 + 1) cntMax := by
  refine gives_awake hs rfl fun _ _ => ?_
  have := Upd.keeps_fact
  simp +decide [hlost, State.entry]

theorem burnisher_steps (hen : s.on (.route 0) .ROUTE_BURN_CTRL_EN = true) : Gives (.burnisherRead none) s fun t => t.iv
    .burnAt = (s.iv .burnAt + 1) % 1048576 := by
  refine gives_awake hs rfl fun _ _ => ?_
  have := Upd.keeps_fact
  simp +decide [hen]

end

/-- Settles O17: one lemma for each write of a plate or of its registers, each end and each error. -/
theorem platesCompleteWritingAndVerification : Obligations.PlatesCompleteWritingAndVerification := by
  intro s hs
  exact ⟨entry_staged hs, stage_refused hs, entry_committed hs, verification_begins hs, verification_ends hs, turn_armed hs,
    turn_refused hs, turn_armed_next hs, turn_disarmed hs, single_error hs, error_marks hs, entry_lost hs, entry_rebuilt hs,
    burnisher_steps hs⟩

end Sys2Proof.Machine
end

section
/-! PROOF. Face binding, presentation, MSI-X and the window table (R258 to R285). -/

namespace Sys2Proof.Machine

set_option Elab.async false


variable {s : State}

/-! ### The counter of the interrupts -/

/-- A counter that is full stays full. -/
def StaysFull (pg : Pg) (i : Nat) (s t : State) : Prop := s.cnt pg i = cntMax → t.cnt pg i = cntMax

theorem staysFull_chains (pg : Pg) (i : Nat) : Chains (StaysFull pg i) := ⟨fun _ h => h, fun hst htu h => htu (hst h)⟩

section
variable {pg : Pg} {i : Nat}

theorem staysFull_of_keeps {u : Upd} (h : u.KeepsCnt pg i) : u.Moves (StaysFull pg i) := fun s hw he => (h s hw).trans he

/-- A count without its interrupt. -/
theorem cnt_addCntRaw [Fact s.wf] (pg' : Pg) (k n : Nat) :
    ((addCntRaw pg' k n).run s).cnt pg i = if pg = pg' ∧ i = k then min (s.cnt pg' k + n) cntMax else s.cnt pg i := by
  have := Upd.keeps_fact
  unfold addCntRaw
  cases hg : (if s.cnt pg' k + n > cntMax then cntGroup pg' k else none) <;> simp [hg]

theorem causingBy_staysFull {send : Pg → Upd} (hsend : ∀ q, (send q).Moves (StaysFull pg i)) (pg' : Pg) {set : Upd}
    (hset : set.KeepsCnt pg i) : (causingBy send pg' set).Moves (StaysFull pg i) := by
  have hR := staysFull_chains pg i
  refine look_moves fun s => ite_moves ?_ (staysFull_of_keeps hset)
  exact all_cons_moves hR (staysFull_of_keeps hset) <| all_cons_moves hR (look_moves fun t => when_moves hR (hsend pg')) (all_nil_moves hR)

theorem addCntBy_staysFull {send : Pg → Upd} (hsend : ∀ q, (send q).Moves (StaysFull pg i)) (pg' : Pg) (k n : Nat) :
    (addCntBy send pg' k n).Moves (StaysFull pg i) := by
  have hR := staysFull_chains pg i
  refine look_moves fun s => all_cons_moves hR ?_ <| all_cons_moves hR (look_moves fun t => when_moves hR ?_) (all_nil_moves hR)
  · intro t ht hfull
    have := Fact.mk ht
    rw [cnt_addCntRaw]
    split
    · next he => rw [← he.1, ← he.2, hfull, Nat.min_eq_right (Nat.le_add_right ..)]
    · exact hfull
  · exact causingBy_staysFull hsend _ (keepsCnt_of_same fun _ => rfl)

theorem sendIntBy_staysFull {fire : Nat → Nat → Upd} (h : ∀ f v, (fire f v).Moves (StaysFull pg i)) (pg' : Pg) :
    (sendIntBy fire pg').Moves (StaysFull pg i) := by
  refine look_moves fun s => ?_
  dsimp only
  split
  · exact skip_moves (staysFull_chains pg i)
  · exact ite_moves (h _ _) (staysFull_of_keeps (keepsCnt_of_same fun _ => rfl))
  · exact staysFull_of_keeps (keepsCnt_of_same fun _ => rfl)

theorem noteMsix_keepsCnt (f v : Nat) : (noteMsix f v).KeepsCnt pg i := by
  refine look_keepsCnt fun t => ?_
  dsimp only
  split
  all_goals exact keepsCnt_of_same fun _ => rfl

theorem msixFireN_staysFull : ∀ n f v, (msixFireN n f v).Moves (StaysFull pg i)
  | 0, _, _ => staysFull_of_keeps (keepsCnt_of_same fun _ => rfl)
  | n + 1, f, v => by
    have hR := staysFull_chains pg i
    refine look_moves fun s => ite_moves ?_ (staysFull_of_keeps (keepsCnt_of_same fun _ => rfl))
    exact all_cons_moves hR (staysFull_of_keeps (keepsCnt_of_same fun _ => rfl)) <|
      all_cons_moves hR (staysFull_of_keeps (noteMsix_keepsCnt f v)) <|
      all_cons_moves hR (addCntBy_staysFull (sendIntBy_staysFull (msixFireN_staysFull n)) _ _ _) (all_nil_moves hR)

/-- What a count adds (R66), whatever interrupt it sends. -/
theorem cnt_addCntBy [Fact s.wf] {send : Pg → Upd} (hsend : ∀ q, (send q).Moves (StaysFull pg i)) :
    ((addCntBy send pg i 1).run s).cnt pg i = min (s.cnt pg i + 1) cntMax := by
  have := Upd.keeps_fact
  have hraw : ((addCntRaw pg i 1).run s).cnt pg i = min (s.cnt pg i + 1) cntMax := by rw [cnt_addCntRaw, if_pos ⟨rfl, rfl⟩]
  simp only [addCntBy, look_run, all_cons_run, all_nil_run]
  by_cases hfull : s.cnt pg i + 1 > cntMax
  · have hmax : min (s.cnt pg i + 1) cntMax = cntMax := Nat.min_eq_right (Nat.le_of_lt hfull)
    rw [hmax] at hraw ⊢
    have hR := staysFull_chains pg i
    exact when_moves hR (causingBy_staysFull hsend pg (keepsCnt_of_same fun _ => rfl)) _ (this _ _).out hraw
  · have hsat : ((addCntRaw pg i 1).run s).rd pg .CNT_STAT_SAT = s.rd pg .CNT_STAT_SAT := by
      have hg : (if s.cnt pg i + 1 > cntMax then cntGroup pg i else none) = none := if_neg hfull
      simp only [addCntRaw, look_run, hg, all_cons_run, all_nil_run, forSome]
      rfl
    have hnone : ∀ a b : Nat, clearBits a a &&& b = 0 := by
      intro a b
      simp [clearBits]
    rw [hsat, hnone]
    exact hraw

end

/-! ### Window entries -/

/-- An address in its two registers. -/
theorem addr_parts {a h : Nat} (ha : a < 2 ^ 20) (hh : h < 2 ^ 32) :
    ((a <<< 12 + h <<< 32) >>> 12 % 2 ^ 20) <<< 12 + ((a <<< 12 + h <<< 32) >>> 32 % 2 ^ 32) <<< 32 = a <<< 12 + h <<< 32 := by
  simp only [Nat.shiftLeft_eq, Nat.shiftRight_eq_div_pow]
  omega

section
variable [Fact s.wf]

theorem staged_grant (x i st f : Nat) : ((put .arbLast x i).run s).staged st f = s.staged st f := by
  simp +decide [State.staged, State.barSet, State.ivOn, State.barWide, State.barInfo]

theorem winStatus_grant (x i f : Nat) (n : Option Nat) (w : WinStage) : ((put .arbLast x i).run s).winStatus f n w = s.winStatus f n w := by
  have hset : ∀ m k, ((put .arbLast x i).run s).barSet f m k = s.barSet f m k := fun m k => by
    simp +decide [State.barSet, State.ivOn, State.barWide, State.barInfo]
  have hexists : ∀ m k, ((put .arbLast x i).run s).barExists f m k = s.barExists f m k := fun m k => by
    simp +decide [State.barExists, State.barWide, State.barInfo]
  simp only [State.winStatus, State.winOverlaps, hset, hexists]
  rfl

omit [Fact s.wf] in
/-- The addresses staged are what their two registers hold. -/
theorem staged_parts (st f : Nat) :
    ((s.staged st f).linked = false → ((s.staged st f).base >>> 12 % 2 ^ 20) <<< 12 + ((s.staged st f).base >>> 32 % 2 ^ 32) <<< 32 =
      (s.staged st f).base) ∧
    ((s.staged st f).xlat >>> 12 % 2 ^ 20) <<< 12 + ((s.staged st f).xlat >>> 32 % 2 ^ 32) <<< 32 = (s.staged st f).xlat ∧
    (s.staged st f).log2 < 2 ^ 6 := by
  have hlt : ∀ g : Fld, s.rdSt st (.face f) g < 2 ^ g.width := fun g => Nat.mod_lt _ (Nat.two_pow_pos _)
  refine ⟨fun hlinked => ?_, addr_parts (hlt .FACE_WIN_XLAT_ADDR) (hlt .FACE_WIN_XLAT_ADDR_HI), hlt .FACE_WIN_SIZE_LOG2⟩
  have hbase : (s.staged st f).base = s.rdSt st (.face f) .FACE_WIN_BASE_ADDR <<< 12 + s.rdSt st (.face f) .FACE_WIN_BASE_ADDR_HI <<< 32 := by
    have hlinked' : (s.rdSt st (.face f) .FACE_WIN_SIZE_LINK_EN != 0) = false := hlinked
    simp only [State.staged, hlinked']
    rfl
  rw [hbase]
  exact addr_parts (hlt .FACE_WIN_BASE_ADDR) (hlt .FACE_WIN_BASE_ADDR_HI)

omit [Fact s.wf] in
/-- An entry's base is in two fields. -/
theorem wtBase_congr {t : State} {f k : Nat} (hlow : t.rd (.face f) .FACE_WIN_TAB_BASE k = s.rd (.face f) .FACE_WIN_TAB_BASE k)
    (hhigh : t.rd (.face f) .FACE_WIN_TAB_BASE_HI k = s.rd (.face f) .FACE_WIN_TAB_BASE_HI k) : t.wtBase f k = s.wtBase f k := by
  unfold State.wtBase
  congr 2

omit [Fact s.wf] in
theorem wtXlat_congr {t : State} {f k : Nat} (hlow : t.rd (.face f) .FACE_WIN_TAB_XLAT k = s.rd (.face f) .FACE_WIN_TAB_XLAT k)
    (hhigh : t.rd (.face f) .FACE_WIN_TAB_XLAT_HI k = s.rd (.face f) .FACE_WIN_TAB_XLAT_HI k) : t.wtXlat f k = s.wtXlat f k := by
  unfold State.wtXlat
  congr 2

/-- An entry that takes staged values (R283). -/
theorem winSet_sets (f i : Nat) (w : WinStage) : ((winSet f i w).run s).wtValid f i = true ∧
    ((winSet f i w).run s).wtBase f i = (w.base >>> 12 % 2 ^ 20) <<< 12 + (w.base >>> 32 % 2 ^ 32) <<< 32 ∧
    ((winSet f i w).run s).wtXlat f i = (w.xlat >>> 12 % 2 ^ 20) <<< 12 + (w.xlat >>> 32 % 2 ^ 32) <<< 32 ∧
    ((winSet f i w).run s).wtLog2 f i = w.log2 % 2 ^ 6 ∧
    ((winSet f i w).run s).rd (.face f) .FACE_WIN_COMMIT_STATUS = s.rd (.face f) .FACE_WIN_COMMIT_STATUS := by
  have := Upd.keeps_fact
  have hvalid : ((winSet f i w).run s).rd (.face f) .FACE_WIN_TAB_VALID i = 1 := by simp +decide [winSet]
  have hbase : ((winSet f i w).run s).rd (.face f) .FACE_WIN_TAB_BASE i = w.base >>> 12 % 2 ^ 20 := by
    simp +decide [winSet]
    rfl
  have hbaseHi : ((winSet f i w).run s).rd (.face f) .FACE_WIN_TAB_BASE_HI i = w.base >>> 32 % 2 ^ 32 := by
    simp +decide [winSet]
    rfl
  have hxlat : ((winSet f i w).run s).rd (.face f) .FACE_WIN_TAB_XLAT i = w.xlat >>> 12 % 2 ^ 20 := by
    simp +decide [winSet]
    rfl
  have hxlatHi : ((winSet f i w).run s).rd (.face f) .FACE_WIN_TAB_XLAT_HI i = w.xlat >>> 32 % 2 ^ 32 := by
    simp +decide [winSet]
    rfl
  have hlog2 : ((winSet f i w).run s).rd (.face f) .FACE_WIN_TAB_LOG2 i = w.log2 % 2 ^ 6 := by
    simp +decide [winSet]
    rfl
  have hstatus : ((winSet f i w).run s).rd (.face f) .FACE_WIN_COMMIT_STATUS = s.rd (.face f) .FACE_WIN_COMMIT_STATUS := by
    simp +decide [winSet]
  refine ⟨?_, ?_, ?_, hlog2, hstatus⟩
  · rw [State.wtValid, State.on, hvalid]
    rfl
  · unfold State.wtBase
    congr 2
  · unfold State.wtXlat
    congr 2

/-- A commit to an entry (R283). -/
def winCommit (s : State) (st : Stamp) (f : Nat) (i : Option Nat) : Upd :=
  all [wr (.face f) .FACE_WIN_COMMIT_STATUS (s.winStatus f i (s.staged st.code f)),
    if s.winStatus f i (s.staged st.code f) != 0 then raise (.face f) .FACE_WIN_REFUSED
    else forSome i fun k => all [winSet f k (s.staged st.code f), wr (.face f) .FACE_WIN_COMMIT_INDEX k]]

/-- A granted write of FACE_WIN_COMMIT with GO that commits to an entry, or to the first that is free. -/
theorem winCommitWrite_run (st : Stamp) {f v : Nat} {i : Option Nat} (hgo : v.testBit 31 = true)
    (hop : bits v 27 26 = 0 ∧ i = some (v % 256) ∨ bits v 27 26 = 1 ∧ i = firstBelow 256 fun i => !s.wtValid f i) :
    (winCommitWrite st f v).run ((grant st (.face f)).run s) =
      (winCommit s st f i).run ((plainWrite st (.face f) 0x138 v).run ((grant st (.face f)).run s)) := by
  have hstaged := staged_grant (s := s) (st.code + 1) ((Pg.face f).base / 64) st.code f
  have hstatus := fun n w => winStatus_grant (s := s) (st.code + 1) ((Pg.face f).base / 64) f n w
  have hvalid : ∀ i, ((put .arbLast (st.code + 1) ((Pg.face f).base / 64)).run s).wtValid f i = s.wtValid f i := fun _ => rfl
  rcases hop with ⟨hop, rfl⟩ | ⟨hop, rfl⟩
  all_goals
    simp only [winCommitWrite, grant, look_run, all_cons_run, all_nil_run, hgo, when_true_run, hop, hstaged, hstatus, hvalid]
    rfl

omit [Fact s.wf] in
/-- A commit that fits (R283). -/
theorem winCommit_commits (st : Stamp) {f k : Nat} (hk : k < 256) {u : State} [Fact u.wf] (hok : s.winStatus f (some k) (s.staged st.code f) = 0) :
    ((winCommit s st f (some k)).run u).wtValid f k = true ∧
    ((s.staged st.code f).linked = false → ((winCommit s st f (some k)).run u).wtBase f k = (s.staged st.code f).base) ∧
    ((winCommit s st f (some k)).run u).wtXlat f k = (s.staged st.code f).xlat ∧
    ((winCommit s st f (some k)).run u).wtLog2 f k = (s.staged st.code f).log2 ∧
    ((winCommit s st f (some k)).run u).rd (.face f) .FACE_WIN_COMMIT_STATUS = 0 ∧
    ((winCommit s st f (some k)).run u).rd (.face f) .FACE_WIN_COMMIT_INDEX = k := by
  have := Upd.keeps_fact
  obtain ⟨hbase, hxlat, hlog2⟩ := staged_parts (s := s) st.code f
  obtain ⟨hvalid, hbase', hxlat', hlog2', hstatus⟩ := winSet_sets (s := (wr (.face f) .FACE_WIN_COMMIT_STATUS 0).run u) f k (s.staged st.code f)
  have hrun : (winCommit s st f (some k)).run u = (wr (.face f) .FACE_WIN_COMMIT_INDEX k).run ((winSet f k (s.staged st.code f)).run
      ((wr (.face f) .FACE_WIN_COMMIT_STATUS 0).run u)) := by
    simp only [winCommit, hok, all_cons_run, all_nil_run, bne_self_eq_false, Bool.false_eq_true, if_false, forSome]
  rw [hrun]
  have hx := this (winSet f k (s.staged st.code f)) ((wr (.face f) .FACE_WIN_COMMIT_STATUS 0).run u)
  generalize (winSet f k (s.staged st.code f)).run _ = x at hvalid hbase' hxlat' hlog2' hstatus hx ⊢
  refine ⟨?_, fun hlinked => ?_, ?_, ?_, ?_, ?_⟩
  · refine Eq.trans ?_ hvalid
    simp +decide [State.wtValid, State.on]
  · refine (wtBase_congr ?_ ?_).trans (hbase'.trans (hbase hlinked)) <;> simp +decide
  · refine (wtXlat_congr ?_ ?_).trans (hxlat'.trans hxlat) <;> simp +decide
  · refine Eq.trans ?_ (hlog2'.trans (Nat.mod_eq_of_lt hlog2))
    simp +decide [State.wtLog2]
  · refine Eq.trans ?_ (hstatus.trans ?_) <;> simp +decide
  · simp +decide
    exact Nat.mod_eq_of_lt hk

omit [Fact s.wf] in
/-- A commit that does not (R283). -/
theorem winCommit_refuses (st : Stamp) {f k : Nat} {u : State} [Fact u.wf] (hbad : s.winStatus f (some k) (s.staged st.code f) ≠ 0) :
    ((winCommit s st f (some k)).run u).rd (.face f) .FACE_WIN_COMMIT_STATUS = s.winStatus f (some k) (s.staged st.code f) ∧
    (((winCommit s st f (some k)).run u).rd (.face f) .ERR_STICKY_BITS).testBit Err.FACE_WIN_REFUSED.bit = true ∧
    ((winCommit s st f (some k)).run u).wtValid f k = u.wtValid f k ∧ ((winCommit s st f (some k)).run u).wtBase f k = u.wtBase f k := by
  have := Upd.keeps_fact
  have hwidth : s.winStatus f (some k) (s.staged st.code f) < 2 ^ 3 := by
    unfold State.winStatus
    repeat' split
    all_goals decide
  have hrun : (winCommit s st f (some k)).run u = (raise (.face f) .FACE_WIN_REFUSED).run
      ((wr (.face f) .FACE_WIN_COMMIT_STATUS (s.winStatus f (some k) (s.staged st.code f))).run u) := by
    simp only [winCommit, hbad, all_cons_run, all_nil_run, bne_iff_ne, ne_eq, not_false_eq_true, if_true]
  rw [hrun]
  generalize s.winStatus f (some k) (s.staged st.code f) = c at hwidth ⊢
  refine ⟨?_, ?_, ?_, ?_⟩
  · simp +decide
    exact Nat.mod_eq_of_lt hwidth
  · simp +decide
  · simp +decide [State.wtValid, State.on]
  · exact wtBase_congr (by simp +decide) (by simp +decide)

end

section
variable {s : State} (hs : s.Awake)
include hs

theorem face_bound (st : Stamp) (f : FaceId) (v : Word) (hlock : s.locked (.face f) = false) (hfree : s.bindRefused f v.toNat
    = false) (hen : v.getLsbD 31 = true) (hoff : s.on (.face f) .FACE_BIND_ENABLE = false) (hp : s.pathOpen st = true) : Gives
    (.faceBindWrite st f v) s fun t => t.on (.face f) .FACE_BIND_ENABLE = true ∧ t.facePort f = Fld.FACE_BIND_PORT.of v.toNat
    ∧ t.rd (.face f) .FACE_BIND_STATE = fcRESET := by
  refine gives_granted hs rfl hlock hp fun _ _ => ?_
  have := Upd.keeps_fact
  have hfree' : ((grant st (.face f)).run s).bindRefused f v.toNat = false := hfree
  have hoff' : s.rd (.face f) .FACE_BIND_ENABLE = 0 := by simpa [State.on] using hoff
  rw [← BitVec.testBit_toNat] at hen
  rw [faceBindWrite, look_run, hfree']
  simp +decide [hen, hoff', State.on, State.facePort]
  rw [Fld.of_flag rfl, show Fld.FACE_BIND_ENABLE.lo = 31 from rfl, hen]
  decide

theorem face_bind_refused (st : Stamp) (f : FaceId) (v : Word) (hlock : s.locked (.face f) = false) (hrefused : s.bindRefused
    f v.toNat = true) (hp : s.pathOpen st = true) : Gives (.faceBindWrite st f v) s fun t => t.rd (.face f) .FACE_BIND_ENABLE
    = s.rd (.face f) .FACE_BIND_ENABLE ∧ t.facePort f = s.facePort f ∧ (t.rd (.face f) .ERR_STICKY_BITS).testBit
    Err.FACE_CFG_REFUSED.bit = true := by
  refine gives_granted hs rfl hlock hp fun _ _ => ?_
  have := Upd.keeps_fact
  have hrefused' : ((grant st (.face f)).run s).bindRefused f v.toNat = true := hrefused
  rw [faceBindWrite, look_run, if_pos hrefused']
  simp +decide [State.facePort]

theorem presentation_written (st : Stamp) (f : FaceId) (n : Fin 255) (v : Word) (hlock : s.locked (.face f) = false) (hp :
    s.pathOpen st = true) : Gives (.presentationUpdate st f (some n) v) s fun t => t.presFeid f n = Fld.FACE_PRES_FEID.of
    v.toNat ∧ t.presVdp f n = Fld.FACE_PRES_VDP.of v.toNat ∧ t.presSub f n = Fld.FACE_PRES_SUB.of v.toNat ∧ t.rd (.face f)
    .FACE_PRES_VALID n = Fld.FACE_PRES_VALID.of v.toNat := by
  refine gives_granted hs rfl hlock hp fun _ _ => ?_
  have := Upd.keeps_fact
  have heval := presEval_in (Foot.le_refl _) f
  have hhide := presHide_in (Foot.le_refl _) f n
  have hoff : 0x200 + n.val * 4 = 0x200 + 4 * n.val := by omega
  simp +decide [presWrite, rd_of_in heval, State.presFeid, State.presVdp, State.presSub]
  refine ⟨?_, ?_, ?_, ?_⟩ <;> exact rd_plainWrite st _ (own_mem (show _ ∈ tabFACE by decide)) n.isLt hoff rfl rfl

theorem device_shown (f : FaceId) (n : Fin 255) (bs : List BarLayout) (hsizing : s.ivOn .sizing (256 * f + n) = true) : Gives
    (.barSizingDone f n bs) s fun t => t.presShown f n = true ∧ t.iv .sizing (256 * f + n) = 0 ∧ Out.hotPlug f (s.presVdp f n)
    (s.presSub f n) true ∈ t.out := by
  refine gives_awake hs rfl fun _ _ => ?_
  have := Upd.keeps_fact
  have hslots := fun b c v => slotRegsSet_in (Foot.le_refl _) f b c v
  have hbars : (forEach bs fun b => put .presInfo (256 + 128 * b2n b.prefetch + 64 * b2n b.wide + b.log2)
      (8 * (4096 * (256 * f + n) + b.fn) + b.bar)).In (Foot.numbers [.presInfo]) := forEach_in fun b => put_in (by decide)
  rw [look_run, when_pos hsizing]
  simp only [all_cons_run, all_nil_run]
  refine ⟨?_, ?_, ?_⟩
  · simp +decide [slotEvent, State.presShown, State.on, rd_of_in (hslots _ _ _)]
  · simp +decide [slotEvent, iv_of_in (hslots _ _ _), iv_of_in hbars]
  · refine out_grows ?_
    rw [slotEvent, look_run, all_cons_run]
    refine out_grows ?_
    simp +decide [State.presVdp, State.presSub, rd_of_in hbars]

theorem msix_data (f : FaceId) (o : BitVec 16) (v : Word) (hopen : s.bar4Empty f = false) (hlow : o.toNat < 0x8000) (hdword :
    o.toNat % 16 / 4 = 2) : Gives (.msixTableWrite f o v) s fun t => t.iv .msixData (2048 * f + o.toNat / 16) = v.toNat := by
  refine gives_awake hs rfl fun _ _ => ?_
  have := Upd.keeps_fact
  simp +decide [msixWrite, hopen, hlow, hdword]

theorem msix_low (f : FaceId) (o : BitVec 16) (v : Word) (hopen : s.bar4Empty f = false) (hlow : o.toNat < 0x8000) (hdword :
    o.toNat % 16 / 4 = 0) : Gives (.msixTableWrite f o v) s fun t => t.iv .msixAddr (2048 * f + o.toNat / 16) = s.iv .msixAddr
    (2048 * f + o.toNat / 16) - s.iv .msixAddr (2048 * f + o.toNat / 16) % 2 ^ 32 + v.toNat := by
  refine gives_awake hs rfl fun _ _ => ?_
  have := Upd.keeps_fact
  simp +decide [msixWrite, hopen, hlow, hdword]

theorem msix_high (f : FaceId) (o : BitVec 16) (v : Word) (hopen : s.bar4Empty f = false) (hlow : o.toNat < 0x8000) (hdword :
    o.toNat % 16 / 4 = 1) : Gives (.msixTableWrite f o v) s fun t => t.iv .msixAddr (2048 * f + o.toNat / 16) = s.iv .msixAddr
    (2048 * f + o.toNat / 16) % 2 ^ 32 + v.toNat <<< 32 := by
  refine gives_awake hs rfl fun _ _ => ?_
  have := Upd.keeps_fact
  simp +decide [msixWrite, hopen, hlow, hdword]

theorem msix_mask (f : FaceId) (o : BitVec 16) (v : Word) (hopen : s.bar4Empty f = false) (hlow : o.toNat < 0x8000) (hdword :
    o.toNat % 16 / 4 = 3) : Gives (.msixTableWrite f o v) s fun t => t.iv .msixOpen (2048 * f + o.toNat / 16) = 1 - v.toNat %
    2 := by
  refine gives_awake hs rfl fun _ _ => ?_
  have := Upd.keeps_fact
  have hflush := msixFlush_in (Foot.le_refl _) f
  simp +decide [msixWrite, hopen, hlow, hdword, iv_of_in hflush]

theorem pba_kept (f : FaceId) (o : BitVec 16) (v : Word) (hhigh : 0x8000 ≤ o.toNat) : Gives (.msixTableWrite f o v) s fun t =>
    t.ivs = s.ivs ∧ t.out = s.out := by
  refine gives_awake hs rfl fun _ _ => ?_
  have hno : ¬o.toNat < 0x8000 := Nat.not_lt.2 hhigh
  rw [msixWrite, look_run]
  simp [hno]

theorem source_fires (f : FaceId) (n : VecId) (hopen : s.msixOpen f = true) (hvec : s.ivOn .msixOpen (2048 * f + n) = true) :
    Gives (.interruptSourceFire f n) s fun t => Out.msix f n (s.iv .msixAddr (2048 * f + n)) (s.iv .msixData (2048 * f + n)) ∈
    t.out ∧ t.cnt (.face f) 3 = min (s.cnt (.face f) 3 + 1) cntMax := by
  refine gives_awake hs rfl fun _ _ => ?_
  have := Upd.keeps_fact
  rw [msixFire, msixFireN, look_run]
  dsimp only
  rw [if_pos (by simp [hopen, hvec])]
  simp only [all_cons_run, all_nil_run]
  constructor
  · exact out_grows (out_grows (by simp))
  · rw [cnt_addCntBy fun q => sendIntBy_staysFull (msixFireN_staysFull 33) q, noteMsix_keepsCnt _ _ _ (this _ _).out]
    rfl

theorem source_pends (f : FaceId) (n : VecId) (hclosed : (s.msixOpen f && s.ivOn .msixOpen (2048 * f + n)) = false) : Gives
    (.interruptSourceFire f n) s fun t => t.iv .msixPend (2048 * f + n) = 1 ∧ t.out = s.out := by
  refine gives_awake hs rfl fun _ _ => ?_
  have hclosed' : ¬(s.msixOpen f && s.ivOn .msixOpen (2048 * f + n)) = true := by simp [hclosed]
  rw [msixFire, msixFireN, look_run]
  dsimp only
  rw [if_neg hclosed']
  simp

theorem window_written (st : Stamp) (f : FaceId) (v : Word) (hlock : s.locked (.face f) = false) (hgo : v.getLsbD 31 = true)
    (hop : bits v.toNat 27 26 = 0) (hok : s.winStatus f (some (v.toNat % 256)) (s.staged st.code f) = 0) (hp : s.pathOpen st =
    true) : Gives (.windowWrite st f v) s fun t => t.wtValid f (v.toNat % 256) = true ∧ ((s.staged st.code f).linked = false →
    t.wtBase f (v.toNat % 256) = (s.staged st.code f).base) ∧ t.wtXlat f (v.toNat % 256) = (s.staged st.code f).xlat ∧
    t.wtLog2 f (v.toNat % 256) = (s.staged st.code f).log2 ∧ t.rd (.face f) .FACE_WIN_COMMIT_STATUS = 0 := by
  refine gives_granted hs rfl hlock hp fun _ _ => ?_
  have := Upd.keeps_fact
  rw [← BitVec.testBit_toNat] at hgo
  rw [winCommitWrite_run st hgo (.inl ⟨hop, rfl⟩)]
  obtain ⟨h1, h2, h3, h4, h5, -⟩ := winCommit_commits (u := (plainWrite st (.face f) 0x138 v.toNat).run ((grant st (.face f)).run s)) st
    (Nat.mod_lt _ (by decide)) hok
  exact ⟨h1, h2, h3, h4, h5⟩

theorem window_refused (st : Stamp) (f : FaceId) (v : Word) (hlock : s.locked (.face f) = false) (hgo : v.getLsbD 31 = true)
    (hop : bits v.toNat 27 26 = 0) (hbad : s.winStatus f (some (v.toNat % 256)) (s.staged st.code f) ≠ 0) (hp : s.pathOpen st
    = true) : Gives (.windowWrite st f v) s fun t => t.rd (.face f) .FACE_WIN_COMMIT_STATUS = s.winStatus f (some (v.toNat %
    256)) (s.staged st.code f) ∧ (t.rd (.face f) .ERR_STICKY_BITS).testBit Err.FACE_WIN_REFUSED.bit = true ∧ t.wtValid f
    (v.toNat % 256) = s.wtValid f (v.toNat % 256) ∧ t.wtBase f (v.toNat % 256) = s.wtBase f (v.toNat % 256) := by
  refine gives_granted hs rfl hlock hp fun _ _ => ?_
  have := Upd.keeps_fact
  rw [← BitVec.testBit_toNat] at hgo
  rw [winCommitWrite_run st hgo (.inl ⟨hop, rfl⟩)]
  obtain ⟨h1, h2, h3, h4⟩ := winCommit_refuses (u := (plainWrite st (.face f) 0x138 v.toNat).run ((grant st (.face f)).run s)) st hbad
  refine ⟨h1, h2, h3.trans ?_, h4.trans (wtBase_congr ?_ ?_)⟩
  · exact congrArg (· != 0) (rd_plainWrite_ro st _ (own_mem (show _ ∈ tabFACE by decide)) rfl)
  · exact rd_plainWrite_ro st _ (own_mem (show _ ∈ tabFACE by decide)) rfl
  · exact rd_plainWrite_ro st _ (own_mem (show _ ∈ tabFACE by decide)) rfl

theorem window_written_any (st : Stamp) (f : FaceId) (v : Word) (i : Nat) (hlock : s.locked (.face f) = false) (hgo :
    v.getLsbD 31 = true) (hop : bits v.toNat 27 26 = 1) (hfree : firstBelow 256 (fun i => !s.wtValid f i) = some i) (hok :
    s.winStatus f (some i) (s.staged st.code f) = 0) (hp : s.pathOpen st = true) : Gives (.windowWriteAny st f v) s fun t =>
    t.wtValid f i = true ∧ ((s.staged st.code f).linked = false → t.wtBase f i = (s.staged st.code f).base) ∧ t.wtXlat f i =
    (s.staged st.code f).xlat ∧ t.wtLog2 f i = (s.staged st.code f).log2 ∧ t.rd (.face f) .FACE_WIN_COMMIT_STATUS = 0 ∧ t.rd
    (.face f) .FACE_WIN_COMMIT_INDEX = i := by
  refine gives_granted hs rfl hlock hp fun _ _ => ?_
  have := Upd.keeps_fact
  rw [← BitVec.testBit_toNat] at hgo
  rw [winCommitWrite_run st hgo (.inr ⟨hop, rfl⟩), hfree]
  exact winCommit_commits (u := (plainWrite st (.face f) 0x138 v.toNat).run ((grant st (.face f)).run s)) st (firstBelow_lt hfree) hok

theorem window_removed (st : Stamp) (f : FaceId) (v : Word) (hlock : s.locked (.face f) = false) (hgo : v.getLsbD 31 = true)
    (hop : bits v.toNat 27 26 = 2) (hp : s.pathOpen st = true) : Gives (.windowInvalidate st f v) s fun t => t.wtValid f
    (v.toNat % 256) = false ∧ t.rd (.face f) .FACE_WIN_COMMIT_STATUS = 0 := by
  refine gives_granted hs rfl hlock hp fun _ _ => ?_
  have := Upd.keeps_fact
  rw [← BitVec.testBit_toNat] at hgo
  simp +decide [winCommitWrite, hgo, hop, State.wtValid, State.on]

end

/-- Settles O11: one lemma for each write of a face's registers and tables, and each event. -/
theorem facesCompleteBindingAndWindows : Obligations.FacesCompleteBindingAndWindows := by
  intro s hs
  exact ⟨face_bound hs, face_bind_refused hs, presentation_written hs, device_shown hs, msix_data hs, msix_low hs, msix_high
    hs, msix_mask hs, pba_kept hs, source_fires hs, source_pends hs, window_written hs, window_refused hs, window_written_any
    hs, window_removed hs⟩

end Sys2Proof.Machine
end

section
/-! PROOF. SPDM requests (R646, R647): a request over MCTP that fills the counter of the messages (R716). -/

namespace Sys2Proof.Machine

set_option Elab.async false

/-- An SMBus port is enabled, firmware runs, and the counter of the MCTP messages stands at its end, with its saturation interrupt
enabled toward firmware. -/
def messageCountFull : State :=
  wit [setCnt (.mgmt 0) 5 cntMax, wr (.mgmt 2) .MGMT_SMB_CFG_EN 1 0, wr (.mgmt 0) .MGMT_FW_STAT_STATE 0, wr .glb .GLB_DEV_STATE_FW_SLOT 0,
    wr (.mgmt 0) .CNT_SAT_EN_SAT_EN 1, wr (.mgmt 0) .INT_EN_CNT_SAT 1, wr (.mgmt 0) .INT_ROUTE_TARGET 1]

/-- Refutes O31: GET_VERSION over MCTP counts the message first (R716), and where that saturates the counter, its interrupt goes out
before the answer (R63, R66), so the answer is not all that is sent, as `messageCountFull` shows. -/
theorem not_secCompletes : ¬ Obligations.SecCompletes := by
  intro h
  obtain ⟨hversion, -⟩ := h messageCountFull (wit_awake _ (by decide +kernel))
  have hout := (hversion none (by decide +kernel) (by decide +kernel)).holds rfl
  exact absurd (congrArg List.length hout) (by decide +kernel)

end Sys2Proof.Machine
end

section
/-! PROOF. Copies, completion records, receive buffers and coalescing of the Data Mover (R523 to R535). -/

namespace Sys2Proof.Machine

set_option Elab.async false


variable {s : State} {n : Nat}

theorem when_run_of_false {c : Bool} {u : Upd} (h : c = false) : (when_ c u).run s = s := by rw [h]; rfl

/-! ### What the Data Mover reads of a ring -/

/-- The registers that say whose a ring is and what it may do. -/
def ringReads : List (Fam × Fld) :=
  [(.ring, .MOVER_RING_CFG_OWN_KIND), (.ring, .MOVER_RING_CFG_OWNER), (.ring, .MOVER_RING_CFG_ENGINE), (.ring, .MOVER_RING_CFG_SIZE_LOG2),
   (.ring, .MOVER_RING_CPL_CTRL_MODE), (.inst, .INST_STAT_FACE), (.inst, .INST_STAT_BOUND), (.inst, .INST_STAT_FENCED), (.inst, .INST_SHARE_SHARE),
   (.face, .FACE_FLR_STAT_BUSY), (.face, .FACE_PM_STAT_SE_D), (.bridge, .BRIDGE_VEP_CFG_EN), (.bridge, .BRIDGE_VEP_CFG_TX_RING),
   (.moverg, .MOVER_GLB_CFG_MPS)]

/-- Two states agree on whose a ring is and on what it may do. -/
def SameRing (n : Nat) (s t : State) : Prop :=
  t.ringEngine n = s.ringEngine n ∧ t.ringSize n = s.ringSize n ∧ t.noPasid n = s.noPasid n ∧ t.ringToHost n = s.ringToHost n ∧
    t.recordMayGo n = s.recordMayGo n ∧ t.vepTx? n = s.vepTx? n ∧ ∀ host, t.moverMps (t.ringFace n) host = s.moverMps (s.ringFace n) host

theorem SameRing.trans {s t u : State} (hst : SameRing n s t) (htu : SameRing n t u) : SameRing n s u := by
  obtain ⟨h1, h2, h3, h4, h5, h6, h7⟩ := hst
  obtain ⟨k1, k2, k3, k4, k5, k6, k7⟩ := htu
  exact ⟨k1.trans h1, k2.trans h2, k3.trans h3, k4.trans h4, k5.trans h5, k6.trans h6, fun b => (k7 b).trans (h7 b)⟩

theorem sameRing_of_in {F : Foot} {u : Upd} (hu : u.In F) (hregs : ∀ r ∈ ringReads, r ∉ F.regs)
    (hvars : ∀ x ∈ [Var.rehome, .seBusMaster, .pmeOff, .sePasid, .seMps], x ∉ F.vars) (n : Nat) (s : State) [Fact s.wf] :
    SameRing n s (u.run s) := by
  have hring : ∀ f ∈ tabRING, (Fam.ring, f) ∈ ringReads → (u.run s).rd (.ring n) f = s.rd (.ring n) f :=
    fun f hm hf => rd_of_in hu (own_mem hm) (hregs _ hf)
  have hface : ∀ i, ∀ f ∈ tabFACE, (Fam.face, f) ∈ ringReads → (u.run s).rd (.face i) f = s.rd (.face i) f :=
    fun i f hm hf => rd_of_in hu (own_mem hm) (hregs _ hf)
  have hface' : ∀ v, (u.run s).rd (.inst 2) .INST_STAT_FACE v = s.rd (.inst 2) .INST_STAT_FACE v :=
      fun v => rd_of_in hu (by decide) (hregs _ (by decide))
  have hbound : ∀ v, (u.run s).rd (.inst 2) .INST_STAT_BOUND v = s.rd (.inst 2) .INST_STAT_BOUND v :=
      fun v => rd_of_in hu (by decide) (hregs _ (by decide))
  have hfenced : ∀ v, (u.run s).rd (.inst 2) .INST_STAT_FENCED v = s.rd (.inst 2) .INST_STAT_FENCED v :=
      fun v => rd_of_in hu (by decide) (hregs _ (by decide))
  have hshare : ∀ v, (u.run s).rd (.inst 1) .INST_SHARE_SHARE v = s.rd (.inst 1) .INST_SHARE_SHARE v :=
      fun v => rd_of_in hu (by decide) (hregs _ (by decide))
  have hen : ∀ v, (u.run s).rd (.bridge 2) .BRIDGE_VEP_CFG_EN v = s.rd (.bridge 2) .BRIDGE_VEP_CFG_EN v :=
      fun v => rd_of_in hu (by decide) (hregs _ (by decide))
  have htx : ∀ v, (u.run s).rd (.bridge 2) .BRIDGE_VEP_CFG_TX_RING v = s.rd (.bridge 2) .BRIDGE_VEP_CFG_TX_RING v :=
    fun v => rd_of_in hu (by decide) (hregs _ (by decide))
  have hiv : ∀ x ∈ [Var.rehome, .seBusMaster, .pmeOff, .sePasid, .seMps], ∀ i, (u.run s).iv x i = s.iv x i := fun x hx i => iv_of_in hu (hvars x hx)
  have hvi : (u.run s).ringVi n = s.ringVi n := by
    simp only [State.ringVi, State.ringKind, State.ringOwner, hring .MOVER_RING_CFG_OWN_KIND (by decide) (by decide),
      hring .MOVER_RING_CFG_OWNER (by decide) (by decide)]
    rfl
  have hof : (u.run s).ringFace n = s.ringFace n := by
    simp only [State.ringFace, State.ringKind, State.ringOwner, State.viFace, hring .MOVER_RING_CFG_OWN_KIND (by decide) (by decide),
      hring .MOVER_RING_CFG_OWNER (by decide) (by decide), hface']
    rfl
  have hpasid : (u.run s).noPasid n = s.noPasid n := by simp only [State.noPasid, State.ivOn, hvi, hof, hiv .sePasid (by decide)]
  have hissue : (u.run s).ringMayIssue n = s.ringMayIssue n := by
    simp only [State.ringMayIssue, State.ivOn, State.on, State.ringKind, hvi, hof, hiv .seBusMaster (by decide), hiv .pmeOff (by decide),
      hface _ .FACE_FLR_STAT_BUSY (by decide) (by decide), hring .MOVER_RING_CFG_OWN_KIND (by decide) (by decide), hbound, hfenced, hshare]
  have hhost : (u.run s).ringToHost n = s.ringToHost n := by
    simp only [State.ringToHost, hissue, hof, hpasid, hface _ .FACE_PM_STAT_SE_D (by decide) (by decide)]
  refine ⟨?_, ?_, hpasid, hhost, ?_, ?_, fun host => ?_⟩
  · simp only [State.ringEngine, State.ivOn, hiv .rehome (by decide), hring .MOVER_RING_CFG_ENGINE (by decide) (by decide)]
    rfl
  · simp only [State.ringSize, hring .MOVER_RING_CFG_SIZE_LOG2 (by decide) (by decide)]
  · simp only [State.recordMayGo, State.on, hhost, hring .MOVER_RING_CPL_CTRL_MODE (by decide) (by decide)]
  · simp only [State.vepTx?, State.on, hen, htx]
  · simp only [State.moverMps, hof, hiv .seMps (by decide),
      rd_of_in hu (show Fld.MOVER_GLB_CFG_MPS ∈ (Pg.moverg).fields by decide) (hregs _ (by decide))]

theorem sameRing_modDescs (f : List Desc → List Desc) (n : Nat) (s : State) : SameRing n s ((modDescs f).run s) :=
    ⟨rfl, rfl, rfl, rfl, rfl, rfl, fun _ => rfl⟩

theorem sameRing_addCnt (e i k n : Nat) (s : State) [Fact s.wf] : SameRing n s ((addCnt (.eng e) i k).run s) :=
  sameRing_of_in (F := Foot.counting .eng) (addCnt_in (pg := .eng e) rfl (Foot.le_refl _) i k) (by decide +kernel) (by decide +kernel) n s

/-! ### The open descriptor -/

@[simp] theorem descs_modDesc (n slot : Nat) (f : Desc → Desc) (s : State) :
    ((modDesc n slot f).run s).descs = s.descs.map fun d => if d.ring == n && d.slot == slot then f d else d := rfl

@[simp] theorem cnt_modDesc (n slot : Nat) (f : Desc → Desc) (s : State) (pg : Pg) (i : Nat) :
    ((modDesc n slot f).run s).cnt pg i = s.cnt pg i := rfl

theorem openDesc_of_only {d : Desc} (hd : s.descs = [d]) (hn : d.ring = n) (ho : d.opened = true) : s.openDesc? n = some d := by
  simp [State.openDesc?, hd, hn, ho]

/-! ### An engine with nothing to do -/

theorem pumpReads_of_none {e : Nat} (h : ((s.engDescs e).filter fun d => s.canRead d) = []) : ∀ fuel, (pumpReads e fuel).run s = s
  | 0 => rfl
  | _ + 1 => when_run_of_false (by rw [h]; rfl)

/-- With no descriptor fetched an engine has nothing to do. -/
theorem pump_of_none (h : s.descs = []) (e : Nat) : (pump e).run s = s := by
  have heng : s.engDescs e = [] := by simp [State.engDescs, h]
  have hreads := pumpReads_of_none (s := s) (e := e) (by simp [heng]) 300
  simp only [pump, endFailed, look_run, all_cons_run, all_nil_run, h, heng, List.filter_nil, forEach_nil_run, List.map_nil,
    List.eraseDups_nil, hreads]

/-- The open descriptor that is all there is: it has nothing to read, to flush or to record, and its writes wait. -/
theorem pump_of_still {d : Desc} (hd : s.descs = [d]) (ho : d.opened = true) (hfail : d.failed = 0 ∨ s.recordMayGo d.ring = false)
    (hpasid : d.failed ≠ 0 ∨ s.noPasid d.ring = false) (hread : d.failed ≠ 0 ∨ d.issued = d.len) (hwrite : (writeOut d).run s = s)
    (hflush : d.failed ≠ 0 ∨ d.op = 1 ∧ (d.sync = false ∨ d.written ≠ d.len)) (htodo : d.toFlush = []) (e : Nat) : (pump e).run s = s := by
  have hopen := openDesc_of_only hd rfl ho
  have hpasid : s.wantsPasid d = false := by rcases hpasid with h | h <;> simp [State.wantsPasid, h]
  have hread : s.canRead d = false := by rcases hread with h | h <;> simp [State.canRead, h]
  have hnext : (openNext d.ring).run s = s := when_run_of_false (by simp [hopen])
  have hask : (askFlush d).run s = s := when_run_of_false (by rcases hflush with h | ⟨h, h' | h'⟩ <;> simp [*])
  have hend : (endFailed e).run s = s := by
    have hnone : (s.descs.filter fun d => d.failed != 0 && s.ringEngine d.ring == e && s.recordMayGo d.ring) = [] := by
      rcases hfail with h | h <;> simp [hd, h]
    rw [endFailed, look_run, hnone, forEach_nil_run]
  have hones : (s.descs.map (·.ring)).eraseDups = [d.ring] := by rw [hd]; rfl
  by_cases he : s.ringEngine d.ring = e
  · have heng : s.engDescs e = [d] := by simp [State.engDescs, hd, ho, he]
    have hreads := pumpReads_of_none (s := s) (e := e) (by simp [heng, hread]) 300
    have hmine : ([d.ring].filter fun n => s.ringEngine n == e) = [d.ring] := by simp [he]
    have hwants : ([d].filter s.wantsPasid) = [] := by simp [hpasid]
    simp only [pump, look_run, all_cons_run, all_nil_run, hend, heng, hwants, hones, hmine, forEach_nil_run, forEach_cons_run, hwrite, hnext,
      hreads, hask, htodo]
  · have heng : s.engDescs e = [] := by simp [State.engDescs, hd, he]
    have hreads := pumpReads_of_none (s := s) (e := e) (by simp [heng]) 300
    have hmine : ([d.ring].filter fun n => s.ringEngine n == e) = [] := by simp [he]
    simp only [pump, look_run, all_cons_run, all_nil_run, hend, heng, List.filter_nil, hones, hmine, forEach_nil_run, hreads]

/-- A descriptor that has failed writes nothing. -/
theorem writeOut_of_failed {d : Desc} (hd : s.descs = [d]) (hf : d.failed ≠ 0) (ho : d.opened = true) : (writeOut d).run s = s := by
  have hopen := openDesc_of_only hd rfl ho
  unfold writeOut
  cases hv : s.vepTx? d.ring with
  | none => simp [hv, drain, hd, hf]
  | some v =>
    simp only [look_run, hv, hopen, forSome_some_run]
    exact when_run_of_false (by simp [hf])

/-- Bytes that are too few for a write stay in the buffer. -/
theorem writeOut_of_short {d : Desc} (x : Desc) (hd : s.descs = [d]) (hv : s.vepTx? x.ring = none)
    (hshort : d.data.length < s.writeLen d ∨ s.writeLen d = 0) :
    (writeOut x).run s = s := by
  rw [writeOut, look_run, hv]
  simp only [drain, look_run, hd]
  cases hfind : [d].find? fun d => d.ring == x.ring && d.slot == x.slot && d.opened && d.failed == 0 with
  | none => rfl
  | some y =>
    obtain rfl : y = d := by simpa using List.mem_of_find?_eq_some hfind
    exact when_run_of_false (by rcases hshort with h | h <;> simp [h])

/-! ### Frames that come whole to this switch -/

section
variable {e i : Nat}

theorem rxRewind_keepsCnt (hi : i ≠ 5) (v id : Nat) : (rxRewind v id).KeepsCnt (.eng e) i := by
  refine look_keepsCnt fun s => all_keepsCnt ?_
  simp only [List.forall_mem_cons, List.not_mem_nil, false_imp_iff, implies_true, and_true]
  exact ⟨keepsCnt_of_in (consumeSelf_in (Foot.le_refl _) id) List.not_mem_nil, addCnt_keepsCnt (by simp [Fam.of]) (fun h => hi h.2) 1⟩

theorem rxArrived_keepsCnt (hi : i ≠ 6) (v : Nat) (k : Pkt) : (rxArrived v k).KeepsCnt (.eng e) i := by
  refine look_keepsCnt fun s => ?_
  have hdrop : ∀ x : Err, (all [consumeSelf k.id, bump (.eng (s.ringEngine (s.rd (.bridge 2) .BRIDGE_VEP_CFG_RX_RING v))) 6,
      bump (.bridge 2) (4 * v + 3), raise .moverg x]).KeepsCnt (.eng e) i := fun x => all_keepsCnt (by
    simp only [List.forall_mem_cons, List.not_mem_nil, false_imp_iff, implies_true, and_true]
    exact ⟨keepsCnt_of_in (consumeSelf_in (Foot.le_refl _) _) List.not_mem_nil, addCnt_keepsCnt (by simp [Fam.of]) (fun h => hi h.2) 1,
      addCnt_keepsCnt (by simp [Fam.of]) (by simp) 1, raiseAll_keepsCnt (by simp [Fam.of]) (by simp) _ _⟩)
  dsimp only
  split
  · exact hdrop _
  · exact when_keepsCnt (hdrop _)

theorem vepArrives_keepsCnt (h5 : i ≠ 5) (h6 : i ≠ 6) (k : Pkt) (x : Eth) : (vepArrives k x).KeepsCnt (.eng e) i := by
  have hself : (consumeSelf k.id).KeepsCnt (.eng e) i := keepsCnt_of_in (consumeSelf_in (Foot.le_refl _) _) List.not_mem_nil
  have hraise : ∀ y, (raise (.bridge 0) y).KeepsCnt (.eng e) i := fun y => raiseAll_keepsCnt (by simp [Fam.of]) (by simp) _ _
  have hcount : ∀ v, (bump (.bridge 2) v).KeepsCnt (.eng e) i := fun v => addCnt_keepsCnt (by simp [Fam.of]) (by simp) 1
  refine look_keepsCnt fun s => ?_
  split
  · exact all_keepsCnt (by simp only [List.forall_mem_cons]; exact ⟨hself, hraise _, nofun⟩)
  · next v _ =>
    split
    · exact all_keepsCnt (by simp only [List.forall_mem_cons]; exact ⟨hself, hraise _, hcount _, nofun⟩)
    · split
      · exact all_keepsCnt (by simp only [List.forall_mem_cons]; exact ⟨rxRewind_keepsCnt h5 _ _, hraise _, hcount _, nofun⟩)
      · exact rxArrived_keepsCnt h6 v k

theorem settleVeps_keepsCnt (h5 : i ≠ 5) (h6 : i ≠ 6) : settleVeps.KeepsCnt (.eng e) i := by
  refine look_keepsCnt fun s => forEach_keepsCnt fun k => ?_
  split
  · refine all_keepsCnt ?_
    simp only [List.forall_mem_cons]
    exact ⟨keepsCnt_of_same fun _ => rfl, vepArrives_keepsCnt h5 h6 k _, nofun⟩
  · exact skip_keepsCnt

end

/-! ### Completion records -/

/-- What writing a record out may touch: the on-chip queue, or what a write to the host touches. -/
def footRecordOut : Foot := (Foot.queues [.cplFifo]).and (Foot.ringSend.and Foot.noteWrite)

section
variable (status bufs cookie done index epoch : Nat) (irq : Bool)

/-- A record goes out, and then CPL_TAIL, PHASE and the interrupt follow. -/
theorem putRecord_parts (s : State) : ∃ u : Upd, u.In footRecordOut ∧
    (s.on (.ring n) .MOVER_RING_CPL_CTRL_MODE = true →
      u = push .cplFifo (1 <<< 31 + status <<< 27 + (bufs % 32) <<< 16 + cookie + (done % 2 ^ 24) <<< 32 + (index % 65536) <<< 64 +
        (epoch % 65536) <<< 96) n) ∧
    (putRecord n status bufs cookie done index epoch irq).run s = (all [u, wr (.ring n) .MOVER_RING_CPL_TAIL_CPL_TAIL
        (if s.rd (.ring n) .MOVER_RING_CPL_TAIL_CPL_TAIL + 1 == s.ringSize n then 0 else s.rd (.ring n) .MOVER_RING_CPL_TAIL_CPL_TAIL + 1),
      when_ (s.rd (.ring n) .MOVER_RING_CPL_TAIL_CPL_TAIL + 1 == s.ringSize n)
        (wr (.ring n) .MOVER_RING_CPL_TAIL_PHASE (1 - s.rd (.ring n) .MOVER_RING_CPL_TAIL_PHASE)),
      when_ ((irq || status != 0) && s.on (.ring n) .MOVER_RING_CPL_CTRL_IRQ_EN) (ringFire n)]).run s := by
  refine ⟨_, ?_, fun hmode => ?_, rfl⟩
  · refine ite_in (push_in (by decide)) (all_cons_in ?_ (all_cons_in ?_ all_nil_in))
    · exact ringSend_in (F := footRecordOut) (by decide +kernel) _ _ _ _
    · exact noteWrite_in (F := footRecordOut) (by decide +kernel) _ _
  · simp only [hmode, if_true]

variable [Fact s.wf]

/-- A record moves CPL_TAIL. -/
theorem cplTail_putRecord : ((putRecord n status bufs cookie done index epoch irq).run s).rd (.ring n) .MOVER_RING_CPL_TAIL_CPL_TAIL =
    (if s.rd (.ring n) .MOVER_RING_CPL_TAIL_CPL_TAIL + 1 = s.ringSize n then 0 else s.rd (.ring n) .MOVER_RING_CPL_TAIL_CPL_TAIL + 1) % 65536 := by
  have := Upd.keeps_fact
  obtain ⟨u, -, -, hrun⟩ := putRecord_parts (n := n) status bufs cookie done index epoch irq s
  have hfire := ringFire_in (Foot.le_refl _) n
  have hm : ∀ f ∈ tabRING, f ∈ (Pg.ring n).fields := fun f hf => own_mem hf
  rw [hrun]
  simp +decide [rd_of_in hfire]
  rfl

/-- A record of a ring with its queue on the chip stands last in it. -/
theorem cplFifo_putRecord (hmode : s.on (.ring n) .MOVER_RING_CPL_CTRL_MODE = true) :
    ((putRecord n status bufs cookie done index epoch irq).run s).fifo .cplFifo n = s.fifo .cplFifo n ++
      [1 <<< 31 + status <<< 27 + (bufs % 32) <<< 16 + cookie + (done % 2 ^ 24) <<< 32 + (index % 65536) <<< 64 + (epoch % 65536) <<< 96] := by
  have := Upd.keeps_fact
  obtain ⟨u, -, hu, hrun⟩ := putRecord_parts (n := n) status bufs cookie done index epoch irq s
  have hfire := ringFire_in (Foot.le_refl _) n
  rw [hrun, hu hmode]
  simp +decide [fifo_of_in hfire, push]

end

/-! ### The end of a descriptor -/

/-- HEAD moves on within its ring. -/
theorem head_advanceHead [Fact s.wf] (k : Nat) : ((advanceHead n k).run s).rd (.ring n) .MOVER_RING_HEAD_HEAD =
    (s.rd (.ring n) .MOVER_RING_HEAD_HEAD + k) % s.ringSize n % 65536 :=
  rd_wr ..

/-- A finished descriptor leaves with its record, HEAD moves on, it is counted, and the engine has no more to do. -/
theorem descriptorComplete_records {n : RingId} {d : Desc} (hs : s.Awake) (hd : s.descs = [d]) (hn : d.ring = n) (ho : d.opened = true)
    (hf : d.failed = 0) (hdone : d.op = 0 ∨ d.written = d.len) (hsync : d.sync = false) (htodo : d.toFlush = []) (htags : d.flushTags = [])
    (hmay : s.recordMayGo n = true) :
    Gives (.descriptorComplete n) s fun t => t.descs = [] ∧
      t.rd (.ring n) .MOVER_RING_HEAD_HEAD = (s.rd (.ring n) .MOVER_RING_HEAD_HEAD + 1) % s.ringSize n % 65536 ∧
      t.cnt (.eng (s.ringEngine n)) 0 = min (s.cnt (.eng (s.ringEngine n)) 0 + 1) cntMax ∧
      (t.rd (.ring n) .MOVER_RING_CPL_TAIL_CPL_TAIL = (if s.rd (.ring n) .MOVER_RING_CPL_TAIL_CPL_TAIL + 1 = s.ringSize n then 0
        else s.rd (.ring n) .MOVER_RING_CPL_TAIL_CPL_TAIL + 1) % 65536) ∧
      (s.on (.ring n) .MOVER_RING_CPL_CTRL_MODE = true → t.fifo .cplFifo n = s.fifo .cplFifo n ++
        [1 <<< 31 + 0 <<< 27 + (1 % 32) <<< 16 + d.cookie + ((if d.op = 0 then 0 else d.written) % 2 ^ 24) <<< 32 + (d.slot % 65536) <<< 64 +
          (d.epoch % 65536) <<< 96]) := by
  refine gives_awake hs rfl fun _ keeps => ?_
  have hopen := openDesc_of_only hd hn ho
  have hready : (d.failed == 0 && (d.op == 0 || d.written == d.len) && (!d.sync || d.flushing) && d.toFlush.isEmpty && !(s.slots.any fun x =>
      x.face == s.ringFace n && x.req && x.flush && d.flushTags.contains x.tag) && s.recordMayGo n) = true := by
    rcases hdone with h | h <;> simp [h, hf, hsync, htodo, htags, hmay]
  simp only [look_run, hopen, forSome_some_run, hready, when_true_run]
  generalize hf : (fun l : List Desc => l.filter fun x => !(x.ring == n.val && x.slot == d.slot)) = f
  have hleft : f [d] = [] := by simp [← hf, hn]
  have hrec := fun done => putRecord_in (Foot.le_refl _) n.val 0 1 d.cookie done d.slot d.epoch d.irq
  have hmove := advanceHead_in (Foot.le_refl _) n.val 1
  have hsize := fun t : State => fun ht : Fact t.wf => fun done => (sameRing_of_in (hrec done) (by decide +kernel) (by decide +kernel) n t).2.1
  have hidle : ∀ t : State, t.descs = [] → (pump (s.ringEngine n)).run t = t := fun t ht => pump_of_none ht _
  have hring : ∀ f ∈ tabRING, f ∈ (Pg.ring n).fields := fun f hf => own_mem hf
  simp +decide [hidle, descs_of_in (hrec _), descs_of_in hmove, hd, hleft, rd_of_in (hrec _), rd_of_in hmove, head_advanceHead, hsize,
    cplTail_putRecord, fifo_of_in hmove]
  refine ⟨rfl, ?_, rfl, fun hmode => cplFifo_putRecord 0 1 d.cookie (if d.op = 0 then 0 else d.written) d.slot d.epoch d.irq
    (s := (modDescs f).run s) hmode⟩
  rw [cnt_of_in hmove (show Fam.eng ∉ _ by decide +kernel), cnt_of_in (hrec _) (show Fam.eng ∉ _ by decide +kernel)]
  rfl

/-- What a failed descriptor leaves when it ends: its record, its status and its error. -/
def endsRecorded (d : Desc) (status : Nat) : Upd := look fun s =>
  all [modDescs fun l => l.filter fun e => !(e.ring == d.ring && e.slot == d.slot),
    putRecord d.ring status 1 d.cookie d.written d.slot d.epoch d.irq, advanceHead d.ring 1,
    wr (.ring d.ring) .MOVER_RING_STAT_LAST_STATUS status, wr (.ring d.ring) .MOVER_RING_STAT_LAST_INDEX d.slot,
    bump (.eng (s.ringEngine d.ring)) 1, raise .moverg .MOVER_DESC_ERR]

/-- An error that stops its ring halts it. -/
theorem descEnds_parts (d : Desc) (status : Nat) (s : State) : (descEnds d status).run s =
    (when_ (s.on (.ring d.ring) .MOVER_RING_CFG_STOP_ON_ERR && status != dsABORTED && status != dsENG_FAULT && s.ringSt d.ring != rsDISABLED)
      (all [wr (.ring d.ring) .MOVER_RING_STAT_STATE rsHALTED, refetch d.ring])).run ((endsRecorded d status).run s) := rfl

theorem endsRecorded_ends [Fact s.wf] {d : Desc} (hd : s.descs = [d]) (status : Nat) :
    ((endsRecorded d status).run s).descs = [] ∧
      ((endsRecorded d status).run s).rd (.ring d.ring) .MOVER_RING_HEAD_HEAD =
        (s.rd (.ring d.ring) .MOVER_RING_HEAD_HEAD + 1) % s.ringSize d.ring % 65536 ∧
      ((endsRecorded d status).run s).rd (.ring d.ring) .MOVER_RING_STAT_LAST_STATUS = status % 16 ∧
      ((endsRecorded d status).run s).rd (.ring d.ring) .MOVER_RING_STAT_LAST_INDEX = d.slot % 65536 ∧
      ((endsRecorded d status).run s).ringSt d.ring = s.ringSt d.ring ∧
      (((endsRecorded d status).run s).rd .moverg .ERR_STICKY_BITS).testBit Err.MOVER_DESC_ERR.bit = true := by
  have keeps := Upd.keeps_fact
  have hrec := putRecord_in (Foot.le_refl _) d.ring status 1 d.cookie d.written d.slot d.epoch d.irq
  have hmove := advanceHead_in (Foot.le_refl _) d.ring 1
  have hring : ∀ f ∈ tabRING, f ∈ (Pg.ring d.ring).fields := fun f hf => own_mem hf
  have hsize := fun t : State => fun ht : Fact t.wf => (sameRing_of_in hrec (by decide +kernel) (by decide +kernel) d.ring t).2.1
  have hst : ∀ t : State, t.ringSt d.ring = t.rd (.ring d.ring) .MOVER_RING_STAT_STATE := fun t => rfl
  generalize hf : (fun l : List Desc => l.filter fun e => !(e.ring == d.ring && e.slot == d.slot)) = f
  have hleft : f [d] = [] := by simp [← hf]
  simp only [endsRecorded, look_run, hf, all_cons_run, all_nil_run]
  simp +decide [hst, rd_of_in hrec, rd_of_in hmove, descs_of_in hrec, descs_of_in hmove, hd, hleft, head_advanceHead, hsize]
  exact ⟨rfl, rfl, rfl⟩

theorem descs_refetch [Fact s.wf] (h : s.descs = []) : ((refetch n).run s).descs = [] := by
  have := Upd.keeps_fact
  have hdrop := dropFetch_in (Foot.le_refl _) n
  simp +decide [refetch, descs_of_in hdrop, h]

/-- The open descriptor fails, its record goes at once, and the engine has no more to do. -/
theorem descriptorError_ends {n : RingId} {d : Desc} (hs : s.Awake) (hd : s.descs = [d]) (hn : d.ring = n) (ho : d.opened = true)
    (hf : d.failed = 0) (hmay : s.recordMayGo n = true) (x : Fin 3) :
    Gives (.descriptorError n x) s fun t => t.descs = [] ∧
      t.rd (.ring n) .MOVER_RING_HEAD_HEAD = (s.rd (.ring n) .MOVER_RING_HEAD_HEAD + 1) % s.ringSize n % 65536 ∧
      t.rd (.ring n) .MOVER_RING_STAT_LAST_STATUS = dsRD_UR + x ∧ t.rd (.ring n) .MOVER_RING_STAT_LAST_INDEX = d.slot % 65536 ∧
      t.ringSt n = (if s.on (.ring n) .MOVER_RING_CFG_STOP_ON_ERR = true ∧ s.ringSt n ≠ rsDISABLED then rsHALTED else s.ringSt n) ∧
      (t.rd .moverg .ERR_STICKY_BITS).testBit Err.MOVER_DESC_ERR.bit = true := by
  refine gives_awake hs rfl fun _ keeps => ?_
  have hopen := openDesc_of_only hd hn ho
  have habandon := abandonDesc_in (Foot.le_refl _) d
  have hidle : ∀ t : State, t.descs = [] → (pump (s.ringEngine n)).run t = t := fun t ht => pump_of_none ht _
  have hends := endsRecorded_ends (s := (abandonDesc d).run s) ((descs_of_in habandon (by decide +kernel)).trans hd) (dsRD_UR + x)
  obtain ⟨habort, hfault, hwidth⟩ : dsRD_UR + x.val ≠ dsABORTED ∧ dsRD_UR + x.val ≠ dsENG_FAULT ∧ (dsRD_UR + x.val) % 16 = dsRD_UR + x.val := by
    simp only [dsABORTED, dsENG_FAULT, dsRD_UR]
    omega
  have hsame : ∀ f ∈ tabRING, ((abandonDesc d).run s).rd (.ring n) f = s.rd (.ring n) f := fun f hm =>
    rd_of_in habandon (own_mem hm) List.not_mem_nil
  have hsize : ((abandonDesc d).run s).ringSize n = s.ringSize n := by rw [State.ringSize, hsame _ (by decide)]; rfl
  have hst : ((abandonDesc d).run s).ringSt n = s.ringSt n := hsame _ (by decide)
  have hstop : ((abandonDesc d).run s).on (.ring n) .MOVER_RING_CFG_STOP_ON_ERR = s.on (.ring n) .MOVER_RING_CFG_STOP_ON_ERR :=
    congrArg (· != 0) (hsame _ (by decide))
  simp only [hn, hsize, hst, hsame .MOVER_RING_HEAD_HEAD (by decide), hwidth] at hends
  obtain ⟨hdescs, hhead, hstatus, hindex, hstate, hsticky⟩ := hends
  have hdesc : (descFails d (dsRD_UR + x)).run s = (descEnds d (dsRD_UR + x)).run ((abandonDesc d).run s) := by simp [descFails, hn, hmay]
  simp only [look_run, hopen, forSome_some_run, hf, beq_self_eq_true, when_true_run, all_cons_run, all_nil_run, hdesc, descEnds_parts, hn,
    hst, hstop]
  by_cases hhalt : s.on (.ring n) .MOVER_RING_CFG_STOP_ON_ERR = true ∧ s.ringSt n ≠ rsDISABLED
  · have hre := refetch_in (Foot.le_refl _) n
    rw [if_pos hhalt, when_pos (by simp [hhalt, habort, hfault])]
    have hring : ∀ f ∈ tabRING, f ∈ (Pg.ring n).fields := fun f hm => own_mem hm
    have hu := keeps (endsRecorded d (dsRD_UR + x)) ((abandonDesc d).run s)
    generalize (endsRecorded d (dsRD_UR + x)).run ((abandonDesc d).run s) = u at *
    have hnone := descs_refetch (n := n) (s := (wr (.ring n) .MOVER_RING_STAT_STATE rsHALTED).run u) hdescs
    simp only [all_cons_run, all_nil_run, hidle _ hnone]
    refine ⟨hnone, ?_, ?_, ?_, ?_, ?_⟩
    all_goals simp +decide [State.ringSt, rd_of_in hre, hhead, hstatus, hindex, hsticky]
  · rw [if_neg hhalt, when_neg (by simpa [habort, hfault] using hhalt), skip_run, hidle _ hdescs]
    exact ⟨hdescs, hhead, hstatus, hindex, hstate, hsticky⟩

/-! ### Copies -/

/-- An open descriptor with one read outstanding, after its completion. -/
def Desc.filled (d : Desc) (g : Seg) (bs : List Byte) : Desc :=
  if bs.length = g.n then { d with segs := [], data := bs } else { d with segs := [{ g with got := bs }] }

/-- The bytes of a completion are counted, stand in the buffer, and then go out. -/
theorem moverReadCompletion_takes [Fact s.wf] {d : Desc} {g : Seg} {bs : List Byte} (hd : s.descs = [d]) (hn : d.ring = n)
    (ho : d.opened = true) (hf : d.failed = 0) (hsegs : d.segs = [g]) (hgot : g.got = []) (hle : bs.length ≤ g.n) (hdata : d.data = []) :
    ∃ t : State, t.wf ∧ SameRing n s t ∧ t.descs = [d.filled g bs] ∧
      (∀ i, t.cnt (.eng (s.ringEngine n)) i = if i = 2 then min (s.cnt (.eng (s.ringEngine n)) 2 + bs.length) cntMax else
        s.cnt (.eng (s.ringEngine n)) i) ∧
      (moverReadCompletion n g.off bs).run s = (pump (s.ringEngine n)).run ((writeOut d).run t) := by
  have keeps := Upd.keeps_fact
  have hopen := openDesc_of_only hd hn ho
  let f : Desc → Desc := fun e =>
    { e with segs := [{ g with got := bs }].drop ([{ g with got := bs }].takeWhile fun g : Seg => g.got.length == g.n).length,
             data := e.data ++ ([{ g with got := bs }].takeWhile fun g : Seg => g.got.length == g.n).flatMap (·.got) }
  refine ⟨(all [addCnt (.eng (s.ringEngine n)) 2 bs.length, modDesc n d.slot f]).run s, (keeps _ _).out, ?_, ?_, fun i => ?_, ?_⟩
  · exact (sameRing_addCnt ..).trans (sameRing_modDescs ..)
  · by_cases hfull : bs.length = g.n <;> simp +decide [hd, hn, f, Desc.filled, hfull, hdata]
  · refine (cnt_addCnt_of_ne (by simp [Fam.of]) ..).trans ?_
    simp
  · simp [moverReadCompletion, hopen, hf, hsegs, hgot, hle, f]

/-- A copy that is written has nothing to drain. -/
theorem drain_of_written {d : Desc} {slot : Nat} (hd : s.descs = [d]) (hw : d.written = d.len) : ∀ fuel, (drain n slot fuel).run s = s
  | 0 => rfl
  | fuel + 1 => by
    rw [drain, look_run, hd]
    cases hfind : [d].find? fun d => d.ring == n && d.slot == slot && d.opened && d.failed == 0 with
    | none => rfl
    | some y =>
      obtain rfl : y = d := by simpa using List.mem_of_find?_eq_some hfind
      exact when_run_of_false (by simp [State.writeLen, hw])

/-- One write takes the whole copy to the ring's own host. -/
theorem writeOut_whole [Fact s.wf] {x d : Desc} (hx : x.ring = d.ring ∧ x.slot = d.slot) (hd : s.descs = [d]) (ho : d.opened = true)
    (hf : d.failed = 0) (hv : s.vepTx? d.ring = none) (hw : d.written = 0) (hpos : 0 < d.len) (hdata : d.data.length = d.len)
    (hlen : s.writeLen d = d.len) (hdst : d.dstType = 0) (hhost : s.ringToHost d.ring = true) (hdests : d.dests = []) :
    ∃ t : State, t.wf ∧ SameRing d.ring s t ∧ t.descs = [{ d with written := d.len, data := [], dests := [(8192, d.dst)] }] ∧
      (∀ i, t.cnt (.eng (s.ringEngine d.ring)) i = if i = 3 then min (s.cnt (.eng (s.ringEngine d.ring)) 3 + d.len) cntMax else
        s.cnt (.eng (s.ringEngine d.ring)) i) ∧ (writeOut x).run s = t := by
  have keeps := Upd.keeps_fact
  obtain ⟨hring, hslot⟩ := hx
  obtain ⟨y, hy, hyhost, hygroup, hyaddr⟩ : ∃ y : MoverTarget, s.target d.ring 0 .memWr d.dst d.len = .ok y ∧ y.host = true ∧ y.group = none ∧
    y.addr = d.dst := ⟨_, rfl, rfl, rfl, rfl⟩
  have hkeys : s.writeKeys d.ring y = [8192] := by simp [State.writeKeys, hygroup, hyhost]
  have hfind : ([d].find? fun y => y.ring == d.ring && y.slot == d.slot && y.opened && y.failed == 0) = some d := by simp [ho, hf]
  have hdrop : d.data.drop d.len = [] := by simp [hdata]
  have hnote : Upd.In _ (noteWrite d.ring y) := noteWrite_in (Foot.le_refl _) _ y
  have hsend : ∀ t tag, Upd.In _ (ringSend d.ring y t tag) := fun t tag => ringSend_in (Foot.le_refl _) _ y t tag
  rw [writeOut, look_run, hring, hv, hslot]
  simp only [drain, look_run, hd]
  rw [hfind, forSome_some_run, hlen, when_pos (by simp [hpos, hdata, hdst, State.ringMayReach, hhost])]
  simp only [hdst, hw, Nat.add_zero, hy, hkeys, List.foldl_cons, List.foldl_nil, hyaddr, all_cons_run, all_nil_run]
  refine ⟨_, ?_, ?_, ?_, fun i => ?_, drain_of_written (d := { d with written := d.len, data := [], dests := [(8192, d.dst)] }) ?_ rfl _⟩
  · exact (keeps _ _).out
  · exact ((sameRing_modDescs ..).trans (sameRing_addCnt ..)).trans ((sameRing_of_in hnote (by decide +kernel) (by decide +kernel) ..).trans
      (sameRing_of_in (hsend _ _) (by decide +kernel) (by decide +kernel) ..))
  · simp +decide [descs_of_in (hsend _ _), descs_of_in hnote, hd, hdrop, hw, hdests, noteDest]
  · rw [cnt_of_in (hsend _ _) (show Fam.eng ∉ _ by decide +kernel), cnt_of_in hnote (show Fam.eng ∉ _ by decide +kernel)]
    refine (cnt_addCnt_of_ne (by simp [Fam.of]) ..).trans ?_
    simp +decide
  · simp +decide [descs_of_in (hsend _ _), descs_of_in hnote, hd, hdrop, hw, hdests, noteDest]

/-- No copy for the part itself is left of a frame that it has consumed. -/
theorem consumeSelf_gone (id : Nat) (s : State) [Fact s.wf] :
    ∀ x ∈ ((consumeSelf id).run s).buf, x.id = id → ∀ c ∈ x.copies, c.dst ≠ .self := by
  have := Upd.keeps_fact
  have hwatch := coreWatch_in (Foot.le_refl _)
  simp +decide [consumeSelf, buf_of_in hwatch]
  intro x _ _ hx c hc hdst
  have hid : x.id = id := by
    split at hx
    · next h => exact h
    · exact hx
  rw [if_pos hid, Pkt.without, List.mem_filter] at hc
  simp [hdst] at hc

section
variable {s : State} (hs : s.Awake)
include hs

theorem copy_partial (n : RingId) (d : Desc) (g : Seg) (bs : List Byte) (hd : s.descs = [d]) (hn : d.ring = n) (ho : d.opened
    = true) (hf : d.failed = 0) (hsegs : d.segs = [g]) (hgot : g.got = []) (hlt : bs.length < g.n) (hdata : d.data = []) (hop
   : d.op = 1) (hiss : d.issued = d.len) (hwr : d.written < d.len) (htodo : d.toFlush = []) (hvep : s.vepTx? n = none) (_ : 0
    < s.writeLen d) (hpas : s.noPasid n = false) : Gives (.moverReadCompletion n g.off bs) s fun t => t.descs =
    [{ d with segs := [{ g with got := bs }] }] ∧ t.cnt (.eng (s.ringEngine n)) 2 = min (s.cnt (.eng (s.ringEngine n)) 2 +
    bs.length) cntMax := by
  refine gives_awake hs rfl fun _ keeps => ?_
  obtain ⟨t, hwf, hring, htd, hcnt, hrun⟩ := moverReadCompletion_takes hd hn ho hf hsegs hgot (Nat.le_of_lt hlt) hdata
  have := Fact.mk hwf
  obtain ⟨heng, -, hpasid, -, -, hvept, -⟩ := hring
  have hfill : d.filled g bs = { d with segs := [{ g with got := bs }] } := if_neg (Nat.ne_of_lt hlt)
  rw [hfill] at htd
  have hwrite := writeOut_of_short d htd (by rw [hn, hvept, hvep]) (by simp [hdata, Nat.eq_zero_or_pos, or_comm])
  have hstill := pump_of_still htd ho (.inl hf) (.inr (by rw [hn, hpasid, hpas])) (.inr hiss) hwrite (.inr ⟨hop, .inr (Nat.ne_of_lt hwr)⟩) htodo
  have hsettle := settleVeps_in (Foot.le_refl _)
  simp only [all_cons_run, all_nil_run, hrun, hwrite, hstill]
  refine ⟨(descs_of_in hsettle (by decide +kernel)).trans htd, ?_⟩
  rw [settleVeps_keepsCnt (by decide) (by decide) t hwf, hcnt, if_pos rfl]

theorem copy_whole (n : RingId) (d : Desc) (g : Seg) (bs : List Byte) (hd : s.descs = [d]) (hn : d.ring = n) (ho : d.opened =
    true) (hf : d.failed = 0) (hsegs : d.segs = [g]) (hgot : g.got = []) (hall : bs.length = g.n) (hwhole : g.n = d.len)
    (hdata : d.data = []) (hop : d.op = 1) (hiss : d.issued = d.len) (hwr : d.written = 0) (hpos : 0 < d.len) (hdests :
    d.dests = []) (hsync : d.sync = false) (htodo : d.toFlush = []) (hdst : d.dstType = 0) (hvep : s.vepTx? n = none) (hlen :
    s.writeLen d = d.len) (hhost : s.ringToHost n = true) : Gives (.moverReadCompletion n g.off bs) s fun t => t.descs =
    [{ d with segs := [], written := d.len, dests := [(8192, d.dst)] }] ∧ t.cnt (.eng (s.ringEngine n)) 2 = min (s.cnt (.eng
    (s.ringEngine n)) 2 + d.len) cntMax ∧ t.cnt (.eng (s.ringEngine n)) 3 = min (s.cnt (.eng (s.ringEngine n)) 3 + d.len)
    cntMax := by
  refine gives_awake hs rfl fun _ keeps => ?_
  obtain ⟨t, hwf, hring, htd, hcnt, hrun⟩ := moverReadCompletion_takes hd hn ho hf hsegs hgot (Nat.le_of_eq hall) hdata
  have := Fact.mk hwf
  rw [Desc.filled, if_pos hall] at htd
  obtain ⟨heng, -, hpasid, hhost', -, hvept, hmps⟩ := hring
  have hlent : t.writeLen { d with segs := [], data := bs } = d.len := by
    rw [← hlen]
    simp only [State.writeLen, Desc.len, Desc.dst, Desc.dstType, hn, hmps]
  obtain ⟨u, huwf, huring, hud, hucnt, hwrite⟩ := writeOut_whole (x := d) (d := { d with segs := [], data := bs }) ⟨rfl, rfl⟩ htd ho hf
    (by rw [hn, hvept, hvep]) hwr hpos (by rw [hall, hwhole]; rfl) hlent hdst (by rw [hn, hhost', hhost]) hdests
  have := Fact.mk huwf
  have hstill := pump_of_still hud ho (.inl hf) (.inr ?_) (.inr hiss) (writeOut_of_short _ hud ?_ ?_) (.inr ⟨hop, .inl hsync⟩) htodo
  · have hsettle := settleVeps_in (Foot.le_refl _)
    have heng' : t.ringEngine d.ring = s.ringEngine n := by rw [hn, heng]
    simp only [heng'] at hucnt
    simp only [all_cons_run, all_nil_run, hrun, hwrite, hstill]
    refine ⟨by rw [descs_of_in hsettle (by decide +kernel), hud, hdata]; rfl, ?_, ?_⟩
    · rw [settleVeps_keepsCnt (by decide) (by decide) u huwf, hucnt, if_neg (by decide), hcnt, if_pos rfl, hall, hwhole]
    · rw [settleVeps_keepsCnt (by decide) (by decide) u huwf, hucnt, if_pos rfl, hcnt, if_neg (by decide)]
      rfl
  · obtain ⟨-, -, h, -⟩ := huring
    rw [h, hn, hpasid]
    simp only [State.ringToHost, Bool.and_eq_true, Bool.not_eq_true'] at hhost
    exact hhost.2
  · obtain ⟨-, -, -, -, -, h, -⟩ := huring
    rw [h, hn, hvept, hvep]
  · simp [Nat.eq_zero_or_pos, or_comm]

theorem copy_recorded_on_chip (n : RingId) (d : Desc) (hd : s.descs = [d]) (hn : d.ring = n) (ho : d.opened = true) (hf :
    d.failed = 0) (hop : d.op = 1) (hwr : d.written = d.len) (hsync : d.sync = false) (htodo : d.toFlush = []) (htags :
    d.flushTags = []) (hmode : s.on (.ring n) .MOVER_RING_CPL_CTRL_MODE = true) : Gives (.descriptorComplete n) s fun t =>
    t.descs = [] ∧ t.rd (.ring n) .MOVER_RING_HEAD_HEAD = (s.rd (.ring n) .MOVER_RING_HEAD_HEAD + 1) % s.ringSize n % 65536 ∧
    t.cnt (.eng (s.ringEngine n)) 0 = min (s.cnt (.eng (s.ringEngine n)) 0 + 1) cntMax ∧ (t.fifo .cplFifo n).length = (s.fifo
    .cplFifo n).length + 1 ∧ (t.fifo .cplFifo n).getLast? = some (1 <<< 31 + 1 <<< 16 + d.cookie + (d.len % 2 ^ 24) <<< 32 +
    (d.slot % 65536) <<< 64 + (d.epoch % 65536) <<< 96) := by
  obtain ⟨t, he, hdescs, hhead, hcnt, -, hfifo⟩ := descriptorComplete_records hs hd hn ho hf (.inr hwr) hsync htodo htags
    (by simp [State.recordMayGo, hmode])
  refine ⟨t, he, hdescs, hhead, hcnt, ?_, ?_⟩
  · rw [hfifo hmode, List.length_append, List.length_singleton]
  · rw [hfifo hmode, List.getLast?_concat, if_neg (by omega), hwr]
    rfl

theorem nop_recorded (n : RingId) (d : Desc) (hd : s.descs = [d]) (hn : d.ring = n) (ho : d.opened = true) (hf : d.failed = 0)
    (hop : d.op = 0) (hsync : d.sync = false) (htodo : d.toFlush = []) (htags : d.flushTags = []) (hmay : s.recordMayGo n =
    true) : Gives (.descriptorComplete n) s fun t => t.descs = [] ∧ t.rd (.ring n) .MOVER_RING_HEAD_HEAD = (s.rd (.ring n)
    .MOVER_RING_HEAD_HEAD + 1) % s.ringSize n % 65536 ∧ (t.rd (.ring n) .MOVER_RING_CPL_TAIL_CPL_TAIL = (if s.rd (.ring n)
    .MOVER_RING_CPL_TAIL_CPL_TAIL + 1 = s.ringSize n then 0 else s.rd (.ring n) .MOVER_RING_CPL_TAIL_CPL_TAIL + 1) % 65536) :=
    by
  obtain ⟨t, he, hdescs, hhead, -, htail, -⟩ := descriptorComplete_records hs hd hn ho hf (.inl hop) hsync htodo htags hmay
  exact ⟨t, he, hdescs, hhead, htail⟩

theorem desc_fails_halting (n : RingId) (d : Desc) (x : Fin 3) (hd : s.descs = [d]) (hn : d.ring = n) (ho : d.opened = true)
    (hf : d.failed = 0) (hmay : s.recordMayGo n = true) (hstop : s.on (.ring n) .MOVER_RING_CFG_STOP_ON_ERR = true) (hst :
    s.ringSt n ≠ rsDISABLED) : Gives (.descriptorError n x) s fun t => t.descs = [] ∧ t.rd (.ring n) .MOVER_RING_HEAD_HEAD =
    (s.rd (.ring n) .MOVER_RING_HEAD_HEAD + 1) % s.ringSize n % 65536 ∧ t.rd (.ring n) .MOVER_RING_STAT_LAST_STATUS = dsRD_UR
    + x ∧ t.rd (.ring n) .MOVER_RING_STAT_LAST_INDEX = d.slot % 65536 ∧ t.ringSt n = rsHALTED ∧ (t.rd .moverg
    .ERR_STICKY_BITS).testBit Err.MOVER_DESC_ERR.bit = true := by
  obtain ⟨t, he, hdescs, hhead, hstatus, hindex, hstate, hsticky⟩ := descriptorError_ends hs hd hn ho hf hmay x
  exact ⟨t, he, hdescs, hhead, hstatus, hindex, hstate.trans (if_pos ⟨hstop, hst⟩), hsticky⟩

theorem desc_fails_going_on (n : RingId) (d : Desc) (x : Fin 3) (hd : s.descs = [d]) (hn : d.ring = n) (ho : d.opened = true)
    (hf : d.failed = 0) (hmay : s.recordMayGo n = true) (hstop : s.on (.ring n) .MOVER_RING_CFG_STOP_ON_ERR = false) : Gives
    (.descriptorError n x) s fun t => t.descs = [] ∧ t.rd (.ring n) .MOVER_RING_HEAD_HEAD = (s.rd (.ring n)
    .MOVER_RING_HEAD_HEAD + 1) % s.ringSize n % 65536 ∧ t.ringSt n = s.ringSt n := by
  obtain ⟨t, he, hdescs, hhead, -, -, hstate, -⟩ := descriptorError_ends hs hd hn ho hf hmay x
  exact ⟨t, he, hdescs, hhead, hstate.trans (if_neg (by simp [hstop]))⟩

theorem desc_fails_waiting (n : RingId) (d : Desc) (x : Fin 3) (hd : s.descs = [d]) (hn : d.ring = n) (ho : d.opened = true)
    (hf : d.failed = 0) (hmay : s.recordMayGo n = false) : Gives (.descriptorError n x) s fun t => t.descs =
    [{ d with failed := dsRD_UR + x, issued := d.written, segs := [], data := [], toFlush := [], flushTags := [] }] ∧ t.rd
    (.ring n) .MOVER_RING_HEAD_HEAD = s.rd (.ring n) .MOVER_RING_HEAD_HEAD := by
  refine gives_awake hs rfl fun _ keeps => ?_
  have hopen := openDesc_of_only hd hn ho
  have habandon := abandonDesc_in (Foot.le_refl _) d
  have hfail : dsRD_UR + x.val ≠ 0 := by simp [dsRD_UR]
  have hsame := sameRing_of_in habandon (by decide +kernel) (by decide +kernel) n s
  obtain ⟨-, -, -, -, hmay', -⟩ := hsame
  simp only [look_run, hopen, forSome_some_run, hf, beq_self_eq_true, when_true_run, all_cons_run, all_nil_run, descFails, hn, hmay,
    Bool.false_eq_true, if_false]
  generalize hfd : (fun e : Desc => { e with
    opened := true, failed := dsRD_UR + x, issued := e.written, segs := [], data := [], toFlush := [], flushTags := [] }) = f
  have hfailed : (f d).failed ≠ 0 := by simpa [← hfd] using hfail
  have hopened : (f d).opened = true := by simp [← hfd]
  have hring : (f d).ring = n := by simp [← hfd, hn]
  have hdescs : ((modDesc n d.slot f).run ((abandonDesc d).run s)).descs = [f d] := by
    simp +decide [descs_of_in habandon, hd, hn]
  have hstill := pump_of_still hdescs hopened (.inr (by rw [hring]; exact hmay'.trans hmay)) (.inl hfailed) (.inl hfailed)
    (writeOut_of_failed hdescs hfailed hopened) (.inl hfailed) (by simp [← hfd])
  rw [hstill, hdescs]
  refine ⟨by simp [← hfd, ho, hn], rd_of_in habandon (own_mem (show _ ∈ tabRING by decide)) List.not_mem_nil⟩

theorem coalesce_idle (n : RingId) (_ : s.ivOn .coalOn n = true) (hdue : s.iv .coalDue n = 0) : Gives (.coalesceExpiry n) s
    fun t => t.iv .coalOn n = 0 ∧ t.out = s.out := by
  refine gives_awake hs rfl fun _ keeps => ?_
  simp [State.ivOn, hdue]

theorem coalesce_again (n : RingId) (hon : s.ivOn .coalOn n = true) (hdue : s.ivOn .coalDue n = true) (hus : s.on (.ring n)
    .MOVER_RING_CPL_CTRL_COAL_US = true) : Gives (.coalesceExpiry n) s fun t => t.iv .coalOn n = 1 ∧ t.iv .coalDue n = 0 := by
  refine gives_awake hs rfl fun _ keeps => ?_
  have hfire := msixFire_in (Foot.le_refl _)
  have hon' : s.iv .coalOn n ≠ 0 := by simpa [State.ivOn] using hon
  have hdue' : s.iv .coalDue n ≠ 0 := by simpa [State.ivOn] using hdue
  simp +decide [State.ivOn, hon', hdue', ringFire, iv_of_in (hfire _ _), hus]

theorem rx_written (n : RingId) (d : Desc) (k : Pkt) (hd : s.descs = [d]) (hbufs : s.rxBufs n = [d]) (hhead : (s.rxWaiting
    n).head? = some k) (_ : 0 < k.ethLen) (hle : k.ethLen ≤ d.len) (hact : s.ringSt n = rsACTIVE) (hquiet : s.ringQuiet n =
    false) (hhost : s.ringToHost n = true) : Gives (.rxPacketCommit n) s fun t => t.descs = [] ∧ t.rd (.ring n)
    .MOVER_RING_HEAD_HEAD = (s.rd (.ring n) .MOVER_RING_HEAD_HEAD + 1) % s.ringSize n % 65536 ∧ ((t.buf.any fun x => x.id ==
    k.id && x.copies.any (·.dst == .self)) = false) ∧ t.cnt (.eng (s.ringEngine n)) 4 = min (s.cnt (.eng (s.ringEngine n)) 4 +
    1) cntMax ∧ t.cnt (.eng (s.ringEngine n)) 3 = min (s.cnt (.eng (s.ringEngine n)) 3 + k.ethLen) cntMax := by
  refine gives_awake hs rfl fun _ keeps => ?_
  have hn : d.ring = n := by
    have hmem : d ∈ s.ringDescs n := (List.takeWhile_subset fun d => d.op == 2 && s.descOk d) (by rw [← State.rxBufs, hbufs]; simp)
    simpa [State.ringDescs] using (List.mem_filter.1 hmem).2
  have hone : buffersFor k.ethLen ((s.rxBufs n).take 16) = some 1 := by simp [hbufs, buffersFor, hle]
  have hcond : (s.ringSt n == rsACTIVE && !s.ringQuiet n && s.ringToHost n) = true := by simp [hact, hquiet, hhost]
  have hused : (s.rxBufs n).take 1 = [d] := by simp [hbufs]
  simp only [look_run, hhead, forSome_some_run, hcond, when_true_run, hone, hused, List.head?_cons]
  generalize hf : (fun l : List Desc => l.filter fun x => !(x.ring == n.val && [d].any fun u => u.slot == x.slot)) = f
  have hleft : f [d] = [] := by simp [← hf, hn]
  have hwrites := rxWrites_in (Foot.le_refl _) n k.ethLen [d]
  have hrec := putRecord_in (Foot.le_refl _) n.val 0 1 d.cookie k.ethLen d.slot d.epoch d.irq
  have hmove := advanceHead_in (Foot.le_refl _) n.val 1
  have hself := consumeSelf_in (Foot.le_refl _) k.id
  have hvep : ∀ o, Upd.In (Foot.counting .bridge) (forSome o fun v => addCnt (.bridge 2) (4 * v + 2) 1) := fun o =>
    forSome_in fun v => addCnt_in (pg := .bridge 2) rfl (Foot.le_refl _) _ _
  have hidle : ∀ t : State, t.descs = [] → (pump (s.ringEngine n)).run t = t := fun t ht => pump_of_none ht _
  have hring : ∀ f ∈ tabRING, f ∈ (Pg.ring n).fields := fun f hf => own_mem hf
  have hrecsize := fun t : State => fun ht : Fact t.wf => (sameRing_of_in hrec (by decide +kernel) (by decide +kernel) n t).2.1
  have hwritesize := (sameRing_of_in hwrites (by decide +kernel) (by decide +kernel) n s).2.1
  simp +decide [hidle, modIv, descs_of_in hself, descs_of_in (hvep _), descs_of_in hmove, descs_of_in hrec, descs_of_in hwrites, hd, hleft,
    rd_of_in hself, rd_of_in (hvep _), rd_of_in hrec, rd_of_in hwrites, head_advanceHead, hrecsize]
  have hcnt : ∀ {F : Foot} {u : Upd}, u.In F → Fam.eng ∉ F.cnts → ∀ (t : State) [Fact t.wf] (i : Nat),
      (u.run t).cnt (.eng (s.ringEngine n)) i = t.cnt (.eng (s.ringEngine n)) i := fun hu hc t _ i => cnt_of_in hu hc
  have hplain : ∀ (t : State) (f : List Desc → List Desc) (i : Nat), ((modDescs f).run t).cnt (.eng (s.ringEngine n)) i =
      t.cnt (.eng (s.ringEngine n)) i := fun _ _ _ => rfl
  refine ⟨by rw [show ((modDescs f).run ((rxWrites n k.ethLen [d]).run s)).ringSize n = _ from hwritesize], consumeSelf_gone k.id _, ?_, ?_⟩
  all_goals simp [hcnt hself (by decide +kernel), hcnt (hvep _) (by decide +kernel), hcnt hmove (by decide +kernel), hcnt hrec (by decide +kernel),
    hcnt hwrites (by decide +kernel), hplain, Fam.of]

end

/-- Settles O24: one lemma for each read completion, end of a descriptor, packet and coalescing timer. -/
theorem descriptorsComplete : Obligations.DescriptorsComplete := by
  intro s hs
  exact ⟨copy_partial hs, copy_whole hs, copy_recorded_on_chip hs, nop_recorded hs, desc_fails_halting hs, desc_fails_going_on
    hs, desc_fails_waiting hs, coalesce_idle hs, coalesce_again hs, rx_written hs⟩

end Sys2Proof.Machine
end

section
/-! PROOF. Frames in CORE's buffer: an uncorrectable cell error of a frame that has no copy (R317, R321). -/

namespace Sys2Proof.Machine

set_option Elab.async false

/-- A lossless frame without retention stands in the buffer with no copy. -/
def copylessFrame : State := wit [modBuf fun _ => [{ witPkt 7 2 8 with copies := [] }]]

/-- Refutes O13: the model reports CORE_ECC_LOST once for each copy's destination, so an uncorrectable error of a frame with no copy
sets no sticky bit, as `copylessFrame` shows. -/
theorem not_framesEnterAndSettleInTheCore : ¬ Obligations.FramesEnterAndSettleInTheCore := by
  intro h
  obtain ⟨-, -, -, -, -, -, -, -, -, -, -, -, -, -, hecc⟩ := h copylessFrame (wit_awake _ (by decide +kernel))
  obtain ⟨-, -, hlost⟩ := (hecc 7 { witPkt 7 2 8 with copies := [] } (by decide +kernel) (by decide +kernel) (by decide +kernel)
    (by decide +kernel)).holds rfl
  exact absurd hlost (by decide +kernel)

end Sys2Proof.Machine
end

section
/-! PROOF. Configuration requests, memory requests and held requests of a host (R265 to R293, R359 to R376, R551 to R558). -/

namespace Sys2Proof.Machine

set_option Elab.async false


variable {s : State}

/-! ### Admission -/

section
variable [Fact s.wf] {f q k : Nat} {t : Tlp} {own g : Frame} {extra : Nat} {opens : Bool} {more : Nat → Upd}

/-- The frame of a non-posted request under its tag. -/
def tagged (s : State) (f k : Nat) (g : Frame) : Frame :=
  { g with tag := k, tagEp := s.tagEpoch f false k, tagValid := true, body := (match g.body with
    | .tlp u => .tlp { u with tag := BitVec.ofNat 14 k }
    | b => b) }

/-- What an update must leave for the admission that goes on after it. -/
structure PassesBy (u : Upd) : Prop where
  ways : ∀ (s : State) [Fact s.wf], SameWays s (u.run s)
  buf : ∀ (s : State) [Fact s.wf], (u.run s).buf = s.buf
  waiting : ∀ (s : State) [Fact s.wf], (u.run s).waiting = s.waiting
  slots : ∀ (s : State) [Fact s.wf], (u.run s).slots = s.slots
  cnt : ∀ (s : State) [Fact s.wf] (f i : Nat), i ≠ 3 → (u.run s).cnt (.face f) i = s.cnt (.face f) i

/-- A non-posted request whose way is open takes its tag and its slot and enters the buffer. -/
theorem hostAdmit_tagged (hnp : t.nonPosted = true) (hep : t.ep = false) (hfence : s.ivOn .portFenced (s.facePort f) = false)
    (hholds : s.faceHolds f = false) (htag : s.freeTag? f false false = some k) (hbody : ∃ u, g.body = .tlp u)
    (hway : s.wayTo s.live g.dest none = some (.port q)) (href : s.refusal g (.port q) = none)
    (hadm : s.admitsAt (s.facePort f) q g.cls = true) (hret : g.retain = false) (hmore : PassesBy (more k)) :
    ∃ r : State, (hostAdmit f t own g none extra opens true more).run s = r ∧ r.cnt (.face f) 1 = min (s.cnt (.face f) 1 + 1) cntMax ∧
      r.cnt (.face f) 0 = min (s.cnt (.face f) 0 + 1) cntMax ∧ r.waiting = s.waiting ∧
      r.slots = s.slots ++ [⟨f, false, k, slBUSY, .host, opens, t.rid.toNat, t.tag.toNat, 0, false, g.dest, false, extra, false⟩] ∧
      (∃ j : Pkt, r.buf = s.buf ++ [j] ∧ j.ing = .port (s.facePort f) ∧ j.copies.map (·.dst) = [.port q] ∧ j.frame.dest = g.dest ∧
        j.frame.tag = k) ∧ ∃ v : State, v.wf ∧ ∀ i, r.iv .lockDest i = ((more k).run v).iv .lockDest i := by
  have keeps := Upd.keeps_fact
  obtain ⟨u, hu⟩ := hbody
  generalize hslot : (⟨f, false, k, slBUSY, .host, opens, t.rid.toNat, t.tag.toNat, 0, false, g.dest, false, extra, false⟩ : Slot) = slot
  obtain ⟨v, hv, hvways, hvbuf, hvwait, hvslots, hvcnt0, hvcnt1, hrun⟩ : ∃ v : State, v.wf ∧ SameWays s v ∧ v.buf = s.buf ∧ v.waiting = s.waiting ∧
      v.slots = s.slots ++ [slot] ∧ v.cnt (.face f) 0 = min (s.cnt (.face f) 0 + 1) cntMax ∧ v.cnt (.face f) 1 = min (s.cnt (.face f) 1 + 1) cntMax ∧
      (hostAdmit f t own g none extra opens true more).run s =
        (deliver (.port (s.facePort f)) (tagged s f k g) none true).run ((more k).run v) := by
    have h0 : SameWays s ((takeSlot slot).run s) := ⟨fun _ _ _ _ _ => rfl, fun _ _ _ => rfl⟩
    have hcnt : ∀ pg i, ((takeSlot slot).run s).cnt pg i = s.cnt pg i := fun _ _ => rfl
    have h1 := sameWays_addCnt (pg := .face f) rfl 0 1 ((takeSlot slot).run s)
    have h2 := sameWays_addCnt (pg := .face f) rfl 1 1 ((addCnt (.face f) 0 1).run ((takeSlot slot).run s))
    refine ⟨_, (keeps _ _).out, (h0.trans h1).trans h2, ?_, ?_, ?_, ?_, ?_, ?_⟩
    · exact (buf_addCnt rfl ..).trans (buf_addCnt rfl ..)
    · exact (waiting_addCnt rfl ..).trans (waiting_addCnt rfl ..)
    · exact (slots_addCnt rfl ..).trans (slots_addCnt rfl ..)
    · simp [hcnt, Fam.of]
    · simp [hcnt, Fam.of]
    · simp only [hostAdmit, look_run, hfence, hholds, hnp, htag, Bool.false_eq_true, if_false, Bool.not_true, hslot, all_cons_run, all_nil_run,
        poisonSeen, hep, when_false_run, toDest]
      rfl
  have hvf := Fact.mk hv
  have hmv := keeps (more k) v
  have hways := hvways.trans (hmore.ways v)
  have hbuf := (hmore.buf v).trans hvbuf
  have hwait := (hmore.waiting v).trans hvwait
  have hnone : ((more k).run v).refusal (tagged s f k g) (.port q) = none :=
    refusal_none_congr (v := { u with tag := BitVec.ofNat 14 k }) hways hu (by simp [tagged, hu]) rfl rfl rfl rfl href
  have hlead : ((more k).run v).wayTo ((more k).run v).live (tagged s f k g).dest none = some (.port q) := by
    rw [hways.wayTo, hways.live]
    exact hway
  obtain ⟨hw, ⟨j, hj, hjing, hjc, hjdest, -, hjtag⟩, hjcnt⟩ := deliver_admits (p := s.facePort f) hlead hnone
    ((hways.admitsAt hwait _ _ _).trans hadm) hret true
  have hoffer := offer_in (Foot.le_refl _) (.port (s.facePort f)) (tagged s f k g) [.port q] none true
  have hcount : Upd.In (Foot.counting .route) countIngress := addCnt_in (pg := .route 0) rfl (Foot.le_refl _) 0 1
  refine ⟨_, hrun, ?_, ?_, ?_, ?_, ⟨j, ?_, hjing, hjc, hjdest, hjtag⟩, v, hv, fun i => ?_⟩
  · rw [hjcnt f 1 (by decide), hmore.cnt v f 1 (by decide), hvcnt1]
  · rw [hjcnt f 0 (by decide), hmore.cnt v f 0 (by decide), hvcnt0]
  · rw [hw, hwait]
  · rw [deliver_run hlead hnone, slots_of_in hoffer (by decide +kernel), slots_of_in hcount (by decide), hmore.slots v, hvslots]
  · rw [hj, hbuf]
  · rw [deliver_run hlead hnone, iv_of_in hoffer (by decide +kernel), iv_of_in hcount (by decide)]

/-- A posted request whose way is open enters the buffer. -/
theorem hostAdmit_posted (hnp : t.nonPosted = false) (hep : t.ep = false) (hfence : s.ivOn .portFenced (s.facePort f) = false)
    (hholds : s.faceHolds f = false) (hbody : ∃ u, g.body = .tlp u)
    (hway : s.wayTo s.live g.dest none = some (.port q)) (href : s.refusal g (.port q) = none)
    (hadm : s.admitsAt (s.facePort f) q g.cls = true) (hret : g.retain = false) (hmore : PassesBy (more 0)) :
    ∃ r : State, (hostAdmit f t own g none extra opens true more).run s = r ∧
      r.cnt (.face f) 0 = min (s.cnt (.face f) 0 + 1) cntMax ∧ r.slots = s.slots ∧
      ∃ j : Pkt, r.buf = s.buf ++ [j] ∧ j.ing = .port (s.facePort f) ∧ j.copies.map (·.dst) = [.port q] ∧ j.frame.dest = g.dest ∧
        j.frame.tag = g.tag := by
  have keeps := Upd.keeps_fact
  obtain ⟨u, hu⟩ := hbody
  have hv := keeps (addCnt (.face f) 0 1) s
  have hrun : (hostAdmit f t own g none extra opens true more).run s =
      (deliver (.port (s.facePort f)) g none true).run ((more 0).run ((addCnt (.face f) 0 1).run s)) := by
    simp only [hostAdmit, look_run, hfence, hholds, hnp, Bool.false_eq_true, if_false, Bool.not_false, if_true, all_cons_run, all_nil_run,
      poisonSeen, hep, when_false_run, toDest]
    rfl
  have hcnt : ((addCnt (.face f) 0 1).run s).cnt (.face f) 0 = min (s.cnt (.face f) 0 + 1) cntMax := by simp [Fam.of]
  have hvways := sameWays_addCnt (pg := .face f) rfl 0 1 s
  have hvbuf : ((addCnt (.face f) 0 1).run s).buf = s.buf := buf_addCnt rfl ..
  have hvwait : ((addCnt (.face f) 0 1).run s).waiting = s.waiting := waiting_addCnt rfl ..
  have hvslots : ((addCnt (.face f) 0 1).run s).slots = s.slots := slots_addCnt rfl ..
  generalize (addCnt (.face f) 0 1).run s = v at *
  have hways := hvways.trans (hmore.ways v)
  have hbuf := (hmore.buf v).trans hvbuf
  have hwait := (hmore.waiting v).trans hvwait
  have hmv := keeps (more 0) v
  have hnone : ((more 0).run v).refusal g (.port q) = none := refusal_none_congr hways hu hu rfl rfl rfl rfl href
  have hlead : ((more 0).run v).wayTo ((more 0).run v).live g.dest none = some (.port q) := by
    rw [hways.wayTo, hways.live]
    exact hway
  obtain ⟨-, ⟨j, hj, hjing, hjc, hjdest, -, hjtag⟩, hjcnt⟩ := deliver_admits (p := s.facePort f) hlead hnone
    ((hways.admitsAt hwait _ _ _).trans hadm) hret true
  have hoffer := offer_in (Foot.le_refl _) (.port (s.facePort f)) g [.port q] none true
  have hcount : Upd.In (Foot.counting .route) countIngress := addCnt_in (pg := .route 0) rfl (Foot.le_refl _) 0 1
  refine ⟨_, hrun, ?_, ?_, j, ?_, hjing, hjc, hjdest, hjtag⟩
  · rw [hjcnt f 0 (by decide), hmore.cnt v f 0 (by decide), hcnt]
  · rw [deliver_run hlead hnone, slots_of_in hoffer (by decide +kernel), slots_of_in hcount (by decide), hmore.slots v, hvslots]
  · rw [hj, hbuf]

end

/-! ### What an admission brings beside it -/

theorem passesBy_skip : PassesBy skip := ⟨fun s _ => .refl s, fun _ _ => rfl, fun _ _ => rfl, fun _ _ => rfl, fun _ _ _ _ _ => rfl⟩

theorem passesBy_when {c : Bool} {u : Upd} (h : c = true → PassesBy u) : PassesBy (when_ c u) := by
  cases c with
  | true => exact h rfl
  | false => exact passesBy_skip

theorem passesBy_all : ∀ {us : List Upd}, (∀ u ∈ us, PassesBy u) → PassesBy (all us)
  | [], _ => passesBy_skip
  | u :: us, h => by
    have keeps := Upd.keeps_fact
    have hu := h u (List.mem_cons_self ..)
    have ih := passesBy_all fun v hv => h v (List.mem_cons_of_mem _ hv)
    exact ⟨fun s _ => (hu.ways s).trans (ih.ways _), fun s _ => (ih.buf _).trans (hu.buf s), fun s _ => (ih.waiting _).trans (hu.waiting s),
      fun s _ => (ih.slots _).trans (hu.slots s), fun s _ f i hi => (ih.cnt _ f i hi).trans (hu.cnt s f i hi)⟩

theorem passesBy_prefWrite (f a len : Nat) : PassesBy (prefWrite f a len) := by
  have hu := prefWrite_in (Foot.le_refl _) f a len
  refine ⟨sameWays_of_in hu (by decide +kernel) (by decide +kernel), fun s _ => buf_of_in hu (by decide +kernel),
    fun s _ => waiting_of_in hu (by decide +kernel), fun s _ => slots_of_in hu (by decide +kernel), fun s hw g i hi => ?_⟩
  refine look_keepsCnt (fun t => all_keepsCnt ?_) s hw.out
  simp only [List.forall_mem_cons]
  exact ⟨when_keepsCnt (addCnt_keepsCnt (by simp [hi]) (by simp) _), keepsCnt_of_same fun _ => rfl, nofun⟩

theorem passesBy_lockDest (f v : Nat) : PassesBy (put .lockDest v f) :=
  ⟨sameWays_of_in (F := Foot.numbers [.lockDest]) (put_in (by decide)) (by decide) (by decide), fun _ _ => rfl, fun _ _ => rfl, fun _ _ => rfl,
    fun _ _ _ _ _ => rfl⟩

/-! ### Memory requests -/

/-- A request that misses the service endpoint and passes both stages goes on. -/
theorem hostMemory_forward {f : FaceId} {u : Tlp} {x : Sel} {ad : Nat} (hkind : u.kind = .memRd ∨ u.kind = .memWr) (hlive : s.faceLive f = true)
    (hhit : s.seHit? f u.addr.toNat u.len = none) (htouch : s.seTouched f u.addr.toNat u.len = false) (hlook : s.hostLookup f u = .ok (x, ad)) :
    (hostMemory f u true).run s = (hostForward f u x ad true).run s := by
  rcases hkind with h | h <;> simp [hostMemory, h, hlive, hhit, htouch, hlook]

/-- A request that is neither refused nor answered from a prefetch is admitted; a locked read that opens its lock notes where. -/
theorem hostForward_admits {f : Nat} {u : Tlp} {x : Sel} {ad : Nat} (hpref : s.prefetches u x = false)
    (hlock : (u.kind == .memRd && u.locked) = true → (s.lockRefusal f x.dest).isNone = true) :
    ∃ more : Nat → Upd, (∀ k, PassesBy (more k)) ∧
      ((u.kind == .memRd && u.locked && s.iv .lockDest f == 0) = true → ∀ k v, v.wf → ((more k).run v).iv .lockDest f = 1 + x.dest) ∧
      (hostForward f u x ad true).run s = (hostAdmit f u { s.inner 0 0 0 u.bytes (.tlp u) with src := (s.faceFeid? f).getD 0 } (s.hostFrame f u x)
        x.group 0 (u.kind == .memRd && u.locked && s.iv .lockDest f == 0) true more).run s := by
  have hrefused : (if (u.kind == .memRd && u.locked) = true then s.lockRefusal f x.dest else none) = none := by
    split
    · next h => simpa using hlock h
    · rfl
  refine ⟨fun k => all [when_ (u.kind == .memWr || u.kind == .atomic) (prefWrite f ad u.len),
      when_ (decide (0 < 0)) (prefNew ⟨f, ad + u.len, 0, x.dest, k, s.now, [], false⟩),
      when_ (u.kind == .memRd && u.locked && s.iv .lockDest f == 0) (put .lockDest (1 + x.dest) f)], fun k => passesBy_all ?_, fun h k v hv => ?_, ?_⟩
  · simp only [List.forall_mem_cons]
    exact ⟨passesBy_when fun _ => passesBy_prefWrite .., passesBy_when nofun, passesBy_when fun _ => passesBy_lockDest .., nofun⟩
  · have := Fact.mk hv
    have := Upd.keeps_fact
    simp [h]
  · simp only [hostForward, look_run, hpref, Bool.false_eq_true, if_false, hrefused]
    rfl

theorem hostFrame_fields (f : Nat) (u : Tlp) (x : Sel) : (s.hostFrame f u x).dest = x.dest ∧ (s.hostFrame f u x).cls = x.cls ∧
    (s.hostFrame f u x).retain = x.retain ∧ (s.hostFrame f u x).tag = 0 ∧ ∃ v, (s.hostFrame f u x).body = .tlp v :=
  ⟨rfl, rfl, rfl, rfl, _, rfl⟩

/-- A transfer that goes out is the last thing that is sent; only its count changes beside. -/
theorem onWire_out (p rid a : Nat) (o : Out) : ((onWire p rid a o).run s).out.head? = some o := by
  simp only [onWire, look_run]
  cases s.ideStream? p rid a <;> simp [modIv, forSome]

theorem onWire_iv [Fact s.wf] (p rid a : Nat) (o : Out) {x : Var} (hx : x ≠ .pcieSent) (i : Nat) : ((onWire p rid a o).run s).iv x i = s.iv x i := by
  have := Upd.keeps_fact
  simp only [onWire, look_run]
  cases s.ideStream? p rid a <;> simp [modIv, forSome, hx]

theorem onWire_buf (p rid a : Nat) (o : Out) : ((onWire p rid a o).run s).buf = s.buf := by
  simp only [onWire, look_run]
  cases s.ideStream? p rid a <;> simp [modIv, forSome]

theorem onWire_rd (p rid a : Nat) (o : Out) (pg : Pg) (f : Fld) (i : Nat) : ((onWire p rid a o).run s).rd pg f i = s.rd pg f i := by
  simp only [onWire, look_run]
  cases s.ideStream? p rid a <;> rfl

theorem missErr_bit (c : Nat) : (missErr c).bit < 32 := by
  unfold missErr
  split
  · decide
  · split
    · decide
    · split
      · decide
      · split <;> decide

/-- A miss is reported by its cause, whatever it counts and notes before. -/
theorem miss_sets [Fact s.wf] (m : Miss) : (((miss m).run s).rd (.route 0) .ERR_STICKY_BITS).testBit (missErr m.cause).bit = true := by
  have := Upd.keeps_fact
  simp only [miss, look_run, all_cons_run, all_nil_run]
  exact raiseOne_sets rfl (missErr_bit m.cause) _ _

/-- A non-posted request that misses is answered, takes no slot, and is reported. -/
theorem hostMiss_answers [Fact s.wf] {f c ad : Nat} {u : Tlp} (hnp : u.nonPosted = true) :
    Out.cplOut (s.facePort f) .ur u.rid.toNat u.tag.toNat ∈ ((hostMiss f u c ad).run s).out ∧ ((hostMiss f u c ad).run s).slots = s.slots ∧
      (((hostMiss f u c ad).run s).rd (.route 0) .ERR_STICKY_BITS).testBit (missErr c).bit = true := by
  have keeps := Upd.keeps_fact
  obtain ⟨m, hm, hrun⟩ : ∃ m : Miss, m.cause = c ∧ (hostMiss f u c ad).run s =
      (onWire (s.facePort f) u.rid.toNat 0 (.cplOut (s.facePort f) .ur u.rid.toNat u.tag.toNat)).run
        ((miss m).run ((when_ (decide (missNO_WINDOW ≤ c)) countIngress).run s)) := by
    refine ⟨⟨c, s.live, s.facePort f, ({ s.inner 0 0 0 0 (.tlp u) with src := 0 } : Frame).reqCode, (s.faceFeid? f).getD 0, ad, .dom (.face f),
      some f⟩, rfl, ?_⟩
    simp only [hostMiss, look_run, hnp]
    rfl
  have hcount : Upd.In (Foot.counting .route) (when_ (decide (missNO_WINDOW ≤ c)) countIngress) :=
    when_in (addCnt_in (pg := .route 0) rfl (Foot.le_refl _) 0 1)
  have hmiss := miss_in (Foot.le_refl _) m
  have hv := keeps (when_ (decide (missNO_WINDOW ≤ c)) countIngress) s
  have hslots := slots_of_in hcount (s := s) (by decide)
  generalize (when_ (decide (missNO_WINDOW ≤ c)) countIngress).run s = v at *
  rw [hrun]
  refine ⟨List.mem_of_head? (onWire_out ..), (onWire_slots ..).trans ((slots_of_in hmiss (by decide +kernel)).trans hslots), ?_⟩
  rw [onWire_rd, ← hm]
  exact miss_sets m

/-- A locked read that is refused is answered, and at most reported. -/
theorem lockRefusal_in {f dest : Nat} {e : Upd} (he : s.lockRefusal f dest = some e) : e.In (Foot.error .bridge) := by
  have hskip : skip.In (Foot.error .bridge) := skip_in
  have hraise : (raise (.bridge 0) .BRIDGE_LOCK_UR).In (Foot.error .bridge) := raiseAll_in (pg := .bridge 0) rfl (Foot.le_refl _) _
  unfold State.lockRefusal at he
  dsimp only at he
  split at he
  · exact Option.some.inj he ▸ hskip
  · split at he
    · exact Option.some.inj he ▸ hskip
    · split at he
      · exact Option.some.inj he ▸ hraise
      · exact absurd he nofun

theorem refused_answers [Fact s.wf] {p rid tag : Nat} {e : Upd} (he : e.In (Foot.error .bridge)) :
    Out.cplOut p .ur rid tag ∈ ((all [e, selfCpl p .ur rid tag]).run s).out ∧ ((all [e, selfCpl p .ur rid tag]).run s).slots = s.slots ∧
      ((all [e, selfCpl p .ur rid tag]).run s).buf = s.buf := by
  have hrun : (all [e, selfCpl p .ur rid tag]).run s = (onWire p rid 0 (.cplOut p .ur rid tag)).run (e.run s) := rfl
  have hslots := slots_of_in he (s := s) (by decide +kernel)
  have hbuf := buf_of_in he (s := s) (by decide +kernel)
  generalize e.run s = v at *
  rw [hrun]
  exact ⟨List.mem_of_head? (onWire_out ..), (onWire_slots ..).trans hslots, (onWire_buf ..).trans hbuf⟩

section
variable {s : State} (hs : s.Awake)
include hs

theorem bridge_buses_written (f : FaceId) (c : CfgReq) (v : Word) (b : Nat) (hlive : s.faceLive f = true) (hready : s.rd
    (.face f) .FACE_BIND_STATE = fcREADY) (hel : s.elemOf f c = .bridge b) (hw : c.write = some v) (hreg : c.reg = .buses) :
    Gives (.configRequest f c) s fun t => t.iv .secBus (4096 * f + b) = bits v.toNat 15 8 ∧ t.iv .subBus (4096 * f + b) = bits
    v.toNat 23 16 ∧ t.out.head? = some (Out.cplOut (s.facePort f) .sc c.rid.toNat c.tag.toNat) := by
  refine gives_awake hs rfl fun _ keeps => ?_
  simp +decide [hlive, hready, hel, hw, hreg, bridgeCfgWrite, cfgAnswer, selfCpl, onWire_iv]
  rfl

theorem bridge_command_written (f : FaceId) (c : CfgReq) (v : Word) (b : Nat) (hlive : s.faceLive f = true) (hready : s.rd
    (.face f) .FACE_BIND_STATE = fcREADY) (hel : s.elemOf f c = .bridge b) (hpos : 0 < b) (hw : c.write = some v) (hreg :
    c.reg = .command) : Gives (.configRequest f c) s fun t => t.iv .mse (4096 * f + b) = bits v.toNat 1 1 ∧ t.iv .bme (4096 *
    f + b) = bits v.toNat 2 2 ∧ t.out.head? = some (Out.cplOut (s.facePort f) .sc c.rid.toNat c.tag.toNat) := by
  refine gives_awake hs rfl fun _ keeps => ?_
  have hdown : (b == 0) = false := by simpa using Nat.ne_of_gt hpos
  simp +decide [hlive, hready, hel, hw, hreg, bridgeCfgWrite, cfgAnswer, selfCpl, onWire_iv, hdown]
  rfl

theorem service_bar_written (f : FaceId) (c : CfgReq) (v : Word) (k : Fin 6) (hlive : s.faceLive f = true) (hready : s.rd
    (.face f) .FACE_BIND_STATE = fcREADY) (hel : s.elemOf f c = .service) (hw : c.write = some v) (hreg : c.reg = .bar k) :
    Gives (.configRequest f c) s fun t => t.iv .seBar (8 * f + k) = v.toNat &&& seBarMask k ∧ t.out.head? = some (Out.cplOut
    (s.facePort f) .sc c.rid.toNat c.tag.toNat) := by
  refine gives_awake hs rfl fun _ keeps => ?_
  simp +decide [hlive, hready, hel, hw, hreg, seCfgWrite, cfgAnswer, selfCpl, onWire_iv]
  rfl

theorem device_bar_read (f : FaceId) (c : CfgReq) (n fn delta : Nat) (k : Fin 6) (hlive : s.faceLive f = true) (hready : s.rd
    (.face f) .FACE_BIND_STATE = fcREADY) (hel : s.elemOf f c = .device n fn delta) (hw : c.write = none) (hreg : c.reg = .bar
    k) : Gives (.configRequest f c) s fun t => t.out.head? = some (Out.cfgCpl f c.rid.toNat c.tag.toNat (s.presBarValue f n fn
    k)) ∧ t.slots = s.slots := by
  refine gives_awake hs rfl fun _ keeps => ?_
  simp +decide [hlive, hready, hel, hw, hreg, deviceAccess, keepsCopy, copyAccess, cfgData, onWire_slots]

theorem config_retried (f : FaceId) (c : CfgReq) (hlive : s.faceLive f = true) (hretry : s.rd (.face f) .FACE_BIND_STATE =
    fcRETRY) : Gives (.configRequest f c) s fun t => t.out.head? = some (Out.cplOut (s.facePort f) .crs c.rid.toNat
    c.tag.toNat) := by
  refine gives_awake hs rfl fun _ keeps => ?_
  simp +decide [hlive, hretry, cfgAnswer, selfCpl]

theorem config_unclaimed (f : FaceId) (c : CfgReq) (hlive : s.faceLive f = true) (hready : s.rd (.face f) .FACE_BIND_STATE =
    fcREADY) (hel : s.elemOf f c = .none) : Gives (.configRequest f c) s fun t => t.out.head? = some (Out.cplOut (s.facePort
    f) .ur c.rid.toNat c.tag.toNat) := by
  refine gives_awake hs rfl fun _ keeps => ?_
  simp +decide [hlive, hready, hel, cfgAnswer, selfCpl]

theorem read_admitted (f : FaceId) (u : Tlp) (x : Sel) (ad k : Nat) (q : PortId) (hlive : s.faceLive f = true) (hkind : u.kind
    = .memRd) (hunlocked : u.locked = false) (hep : u.ep = false) (hhit : s.seHit? f u.addr.toNat u.len = none) (htouch :
    s.seTouched f u.addr.toNat u.len = false) (hlook : s.hostLookup f u = .ok (x, ad)) (hgroup : x.group = none) (hret :
    x.retain = false) (hfence : s.ivOn .portFenced (s.facePort f) = false) (hholds : s.faceHolds f = false) (hway : s.wayTo
    s.live x.dest none = some (.port q)) (href : s.refusal (s.hostFrame f u x) (.port q) = none) (hadm : s.admitsAt
    (s.facePort f) q x.cls = true) (hpref : s.prefetches u x = false) (htag : s.freeTag? f false false = some k) : Gives
    (.hostMemoryRequest f u) s fun t => t.cnt (.face f) 1 = min (s.cnt (.face f) 1 + 1) cntMax ∧ t.cnt (.face f) 0 = min
    (s.cnt (.face f) 0 + 1) cntMax ∧ t.slots = s.slots ++ [⟨f, false, k, slBUSY, .host, false, u.rid.toNat, u.tag.toNat, 0,
    false, x.dest, false, 0, false⟩] ∧ t.buf.take s.buf.length = s.buf ∧ ((t.buf.drop s.buf.length).map (fun k => (k.ing,
    k.frame.dest, k.frame.tag, k.copies.map (·.dst))) = [(.port (s.facePort f), x.dest, k, [.port q.val])]) := by
  refine gives_awake hs rfl fun _ keeps => ?_
  obtain ⟨more, hmore, -, hrun⟩ := hostForward_admits (f := f) (u := u) (x := x) (ad := ad) hpref (by simp [hunlocked])
  rw [hostMemory_forward (.inl hkind) hlive hhit htouch hlook, hrun, hgroup]
  obtain ⟨hgdest, hgcls, hgret, -, hgbody⟩ := hostFrame_fields (s := s) f u x
  generalize s.hostFrame f u x = g at *
  obtain ⟨r, hr, hc1, hc0, -, hslots, ⟨j, hbuf, hing, hdst, hdest, hjtag⟩, -⟩ := hostAdmit_tagged (own := { s.inner 0 0 0 u.bytes (.tlp u) with
    src := (s.faceFeid? f).getD 0 }) (extra := 0) (opens := u.kind == .memRd && u.locked && s.iv .lockDest f == 0) (more := more)
    (by simp [Tlp.nonPosted, hkind]) hep hfence hholds htag hgbody (hgdest ▸ hway) href (hgcls ▸ hadm) (hgret.trans hret) (hmore k)
  rw [hr, hbuf]
  refine ⟨hc1, hc0, ?_, List.take_left, ?_⟩
  · rw [hslots, hunlocked, Bool.and_false, Bool.false_and, hgdest]
  · rw [List.drop_left]
    simp only [List.map_cons, List.map_nil, hing, hdst, hdest, hjtag, hgdest]

theorem write_admitted (f : FaceId) (u : Tlp) (x : Sel) (ad : Nat) (q : PortId) (hlive : s.faceLive f = true) (hkind : u.kind
    = .memWr) (hep : u.ep = false) (hhit : s.seHit? f u.addr.toNat u.len = none) (htouch : s.seTouched f u.addr.toNat u.len =
    false) (hlook : s.hostLookup f u = .ok (x, ad)) (hgroup : x.group = none) (hret : x.retain = false) (hfence : s.ivOn
    .portFenced (s.facePort f) = false) (hholds : s.faceHolds f = false) (hway : s.wayTo s.live x.dest none = some (.port q))
    (href : s.refusal (s.hostFrame f u x) (.port q) = none) (hadm : s.admitsAt (s.facePort f) q x.cls = true) : Gives
    (.hostMemoryRequest f u) s fun t => t.cnt (.face f) 0 = min (s.cnt (.face f) 0 + 1) cntMax ∧ t.slots = s.slots ∧
    t.buf.take s.buf.length = s.buf ∧ ((t.buf.drop s.buf.length).map (fun k => (k.ing, k.frame.dest, k.frame.tag, k.copies.map
    (·.dst))) = [(.port (s.facePort f), x.dest, 0, [.port q.val])]) := by
  refine gives_awake hs rfl fun _ keeps => ?_
  obtain ⟨more, hmore, -, hrun⟩ := hostForward_admits (f := f) (u := u) (x := x) (ad := ad) (by simp [State.prefetches, hkind]) (by simp [hkind])
  rw [hostMemory_forward (.inr hkind) hlive hhit htouch hlook, hrun, hgroup]
  obtain ⟨hgdest, hgcls, hgret, hgtag, hgbody⟩ := hostFrame_fields (s := s) f u x
  generalize s.hostFrame f u x = g at *
  obtain ⟨r, hr, hc0, hslots, j, hbuf, hing, hdst, hdest, hjtag⟩ := hostAdmit_posted (own := { s.inner 0 0 0 u.bytes (.tlp u) with
    src := (s.faceFeid? f).getD 0 }) (extra := 0) (opens := u.kind == .memRd && u.locked && s.iv .lockDest f == 0) (more := more)
    (by simp [Tlp.nonPosted, hkind]) hep hfence hholds hgbody (hgdest ▸ hway) href (hgcls ▸ hadm) (hgret.trans hret) (hmore 0)
  rw [hr, hbuf]
  refine ⟨hc0, hslots, List.take_left, ?_⟩
  rw [List.drop_left]
  simp only [List.map_cons, List.map_nil, hing, hdst, hdest, hjtag, hgdest, hgtag]

theorem table_read (f : FaceId) (u : Tlp) (off : Nat) (hlive : s.faceLive f = true) (hawake : s.seAwake f = true) (hkind :
    u.kind = .memRd) (hhit : s.seHit? f u.addr.toNat u.len = some (4, off)) (halign : off % 4 = 0) (hlen : u.len = 4) : Gives
    (.hostMemoryRequest f u) s fun t => t.out.head? = some (Out.value (.face f) (s.bar4Dword f off)) := by
  refine gives_awake hs rfl fun _ keeps => ?_
  have hone : List.range (ceilDiv (off % 4 + u.len) 4) = [0] := by simp [halign, hlen, ceilDiv]
  have hread : (u.kind == .memWr) = false := by simp [hkind]
  simp only [hostMemory, look_run, hkind, hlive, hhit, seAccess]
  simp [forBelow, halign, ceilDiv, hlen, hawake]

theorem request_missed (f : FaceId) (u : Tlp) (c ad : Nat) (hlive : s.faceLive f = true) (hkind : u.kind = .memRd) (_ :
    u.locked = false) (_ : u.ep = false) (hhit : s.seHit? f u.addr.toNat u.len = none) (htouch : s.seTouched f u.addr.toNat
    u.len = false) (hlook : s.hostLookup f u = .error (c, ad)) : Gives (.hostMemoryRequest f u) s fun t => Out.cplOut
    (s.facePort f) .ur u.rid.toNat u.tag.toNat ∈ t.out ∧ t.slots = s.slots ∧ (t.rd (.route 0) .ERR_STICKY_BITS).testBit
    (missErr c).bit = true := by
  refine gives_awake hs rfl fun _ keeps => ?_
  have hmiss : (hostMemory f u true).run s = (hostMiss f u c ad).run s := by simp [hostMemory, hkind, hlive, hhit, htouch, hlook]
  rw [hmiss]
  exact hostMiss_answers (by simp [Tlp.nonPosted, hkind])

theorem locked_admitted (f : FaceId) (u : Tlp) (x : Sel) (ad k : Nat) (q : PortId) (hlive : s.faceLive f = true) (hkind :
    u.kind = .memRd) (hlocked : u.locked = true) (hep : u.ep = false) (hhit : s.seHit? f u.addr.toNat u.len = none) (htouch :
    s.seTouched f u.addr.toNat u.len = false) (hlook : s.hostLookup f u = .ok (x, ad)) (hgroup : x.group = none) (hret :
    x.retain = false) (hfence : s.ivOn .portFenced (s.facePort f) = false) (hholds : s.faceHolds f = false) (hway : s.wayTo
    s.live x.dest none = some (.port q)) (href : s.refusal (s.hostFrame f u x) (.port q) = none) (hadm : s.admitsAt
    (s.facePort f) q x.cls = true) (hlock : (s.lockRefusal f x.dest).isNone = true) (hfree : s.iv .lockDest f = 0) (htag :
    s.freeTag? f false false = some k) : Gives (.lockedRead f u) s fun t => t.cnt (.face f) 1 = min (s.cnt (.face f) 1 + 1)
    cntMax ∧ t.cnt (.face f) 0 = min (s.cnt (.face f) 0 + 1) cntMax ∧ t.iv .lockDest f = 1 + x.dest ∧ t.slots = s.slots ++
    [⟨f, false, k, slBUSY, .host, true, u.rid.toNat, u.tag.toNat, 0, false, x.dest, false, 0, false⟩] ∧ t.buf.take
    s.buf.length = s.buf ∧ ((t.buf.drop s.buf.length).map (fun k => (k.ing, k.frame.dest, k.frame.tag, k.copies.map (·.dst)))
    = [(.port (s.facePort f), x.dest, k, [.port q.val])]) := by
  refine gives_awake hs rfl fun _ keeps => ?_
  have hopens : (u.kind == .memRd && u.locked && s.iv .lockDest f == 0) = true := by simp [hkind, hlocked, hfree]
  obtain ⟨more, hmore, hdestnote, hrun⟩ := hostForward_admits (f := f) (u := u) (x := x) (ad := ad)
    (by simp [State.prefetches, hlocked]) (fun _ => hlock)
  have hgo : (when_ (u.kind == .memRd && u.locked) (hostMemory f u true)).run s = (hostMemory f u true).run s := by simp [hkind, hlocked]
  rw [hgo, hostMemory_forward (.inl hkind) hlive hhit htouch hlook, hrun, hgroup]
  obtain ⟨hgdest, hgcls, hgret, -, hgbody⟩ := hostFrame_fields (s := s) f u x
  generalize s.hostFrame f u x = g at *
  obtain ⟨r, hr, hc1, hc0, -, hslots, ⟨j, hbuf, hing, hdst, hdest, hjtag⟩, v, hv, hnote⟩ := hostAdmit_tagged
    (own := { s.inner 0 0 0 u.bytes (.tlp u) with src := (s.faceFeid? f).getD 0 }) (extra := 0)
    (opens := u.kind == .memRd && u.locked && s.iv .lockDest f == 0) (more := more)
    (by simp [Tlp.nonPosted, hkind]) hep hfence hholds htag hgbody (hgdest ▸ hway) href (hgcls ▸ hadm) (hgret.trans hret) (hmore k)
  rw [hr, hbuf]
  refine ⟨hc1, hc0, (hnote f).trans (hdestnote hopens k v hv), ?_, List.take_left, ?_⟩
  · rw [hslots, hopens, hgdest]
  · rw [List.drop_left]
    simp only [List.map_cons, List.map_nil, hing, hdst, hdest, hjtag, hgdest]

theorem locked_refused (f : FaceId) (u : Tlp) (x : Sel) (ad : Nat) (hlive : s.faceLive f = true) (hkind : u.kind = .memRd)
    (hlocked : u.locked = true) (_ : u.ep = false) (hhit : s.seHit? f u.addr.toNat u.len = none) (htouch : s.seTouched f
    u.addr.toNat u.len = false) (hlook : s.hostLookup f u = .ok (x, ad)) (hlock : (s.lockRefusal f x.dest).isSome = true) :
    Gives (.lockedRead f u) s fun t => Out.cplOut (s.facePort f) .ur u.rid.toNat u.tag.toNat ∈ t.out ∧ t.slots = s.slots ∧
    t.buf = s.buf := by
  refine gives_awake hs rfl fun _ keeps => ?_
  obtain ⟨e, he⟩ := Option.isSome_iff_exists.1 hlock
  have hgo : (when_ (u.kind == .memRd && u.locked) (hostMemory f u true)).run s = (hostMemory f u true).run s := by simp [hkind, hlocked]
  have hforward : (hostForward f u x ad true).run s = (all [e, selfCpl (s.facePort f) .ur u.rid.toNat u.tag.toNat]).run s := by
    simp only [hostForward, look_run, hkind, hlocked, beq_self_eq_true, Bool.and_self, if_true, he]
  rw [hgo, hostMemory_forward (.inl hkind) hlive hhit htouch hlook, hforward]
  exact refused_answers (lockRefusal_in he)

theorem held_admitted (f : FaceId) (w : Waiting) (u : Tlp) (k : Nat) (q : PortId) (hwait : s.waiting = [w]) (hwhy : w.why =
    .tag f.val) (hbody : w.pkt.frame.body = .tlp u) (hkind : u.kind = .cfgRd) (hep : u.ep = false) (hret : w.pkt.frame.retain
    = false) (_ : w.pkt.frame.mc = false) (hquiet : s.on (.face f) .BLK_CTRL_QUIESCE = false) (hfence : s.ivOn .portFenced
    (s.facePort f) = false) (htag : s.freeTag? f false false = some k) (hway : s.wayTo s.live w.pkt.frame.dest none = some
    (.port q)) (href : s.refusal w.pkt.frame (.port q) = none) (hadm : ({ s with waiting := [] } : State).admitsAt (s.facePort
    f) q w.pkt.frame.cls = true) (hrings : (allBelow 64 fun e => (s.engRings e).any fun n => s.ringFace n == f.val) = []) :
    Gives (.heldRequestAdmit f) s fun t => t.cnt (.face f) 1 = min (s.cnt (.face f) 1 + 1) cntMax ∧ t.cnt (.face f) 0 = min
    (s.cnt (.face f) 0 + 1) cntMax ∧ t.waiting = [] ∧ t.slots = s.slots ++ [⟨f, false, k, slBUSY, .host, false, u.rid.toNat,
    u.tag.toNat, 0, false, w.pkt.frame.dest, false, 0, false⟩] ∧ ((t.buf.drop s.buf.length).map (fun j => (j.frame.dest,
    j.frame.tag, j.copies.map (·.dst))) = [(w.pkt.frame.dest, k, [.port q.val])]) := by
  refine gives_awake hs rfl fun _ keeps => ?_
  have hheld : (s.waiting.filter fun w => w.why == .tag f.val) = [w] := by simp [hwait, hwhy]
  have hmine : ([w].find? fun w => !w.pkt.frame.isNp || (s.freeTag? f false false).isSome) = some w := by simp [htag]
  have hleft : (modWaiting fun l => l.filter fun y => y.why != .tag f.val).run s = { s with waiting := [] } := by
    change ({ s with waiting := s.waiting.filter fun y => y.why != .tag f.val } : State) = _
    rw [hwait]
    simp [hwhy]
  have hpump : ∀ t : State, (forBelow 64 fun e => when_ ((s.engRings e).any fun n => s.ringFace n == f.val) (pump e)).run t = t := by
    have hnone : ∀ e < 64, ((s.engRings e).any fun n => s.ringFace n == f.val) = false := by simpa [allBelow] using hrings
    have hall : ∀ l : List Nat, (∀ e ∈ l, ((s.engRings e).any fun n => s.ringFace n == f.val) = false) → ∀ t,
        (forEach l fun e => when_ ((s.engRings e).any fun n => s.ringFace n == f.val) (pump e)).run t = t := by
      intro l hl t
      induction l with
      | nil => rfl
      | cons e l ih =>
        rw [forEach_cons_run, hl e (List.mem_cons_self ..), when_false_run]
        exact ih fun e he => hl e (List.mem_cons_of_mem _ he)
    exact hall _ fun e he => hnone e (List.mem_range.1 he)
  have hwf : Fact (State.wf { s with waiting := [] }) := hleft ▸ keeps _ s
  have hquiet' : ({ s with waiting := [] } : State).on (.face f) .BLK_CTRL_QUIESCE = false := hquiet
  obtain ⟨r, hr, hc1, hc0, hw, hslots, ⟨j, hbuf, hing, hdst, hdest, hjtag⟩, -⟩ := hostAdmit_tagged (s := { s with waiting := [] })
    (f := f) (q := q) (k := k) (t := u) (own := w.pkt.frame) (g := w.pkt.frame) (extra := 0) (opens := false) (more := fun _ => skip)
    (by simp [Tlp.nonPosted, hkind]) hep hfence (by simp [State.faceHolds, hquiet']) htag ⟨u, hbody⟩ hway href hadm hret passesBy_skip
  simp only [look_run, hheld, hmine, hquiet, all_cons_run, all_nil_run, hpump, Bool.not_false, when_true_run, forSome_some_run, hbody, hkind, hleft]
  have hcfg : (TlpKind.cfgRd == .cfgRd || TlpKind.cfgRd == .cfgWr) = true := rfl
  rw [if_pos hcfg, hr]
  refine ⟨hc1, hc0, ?_, hslots, ?_⟩
  · change r.waiting ++ _ = []
    simp [hw]
  · have hbuf' : r.buf = s.buf ++ [j] := hbuf
    change (r.buf.drop s.buf.length).map _ = _
    rw [hbuf', List.drop_left]
    simp only [List.map_cons, List.map_nil, hdst, hdest, hjtag]

end

/-- Settles O12: one lemma for each kind of request and what it meets. -/
theorem hostRequestsComplete : Obligations.HostRequestsComplete := by
  intro s hs
  exact ⟨bridge_buses_written hs, bridge_command_written hs, service_bar_written hs, device_bar_read hs, config_retried hs,
    config_unclaimed hs, read_admitted hs, write_admitted hs, table_read hs, request_missed hs, locked_admitted hs,
    locked_refused hs, held_admitted hs⟩

end Sys2Proof.Machine
end

section
/-! PROOF. Width changes, lane failure, Rest and control of a link: a port that becomes FAB while its LINK domain is contained
(R210 to R213, R592). -/

namespace Sys2Proof.Machine

set_option Elab.async false

/-- Port 0 is OFF with no containment of its own, the lanes of its octet may run as Daend lanes, and LINK domain 0 is contained. -/
def heldLinkDomain : State := wit [wr (.lane 0) .LANE_OCT_CFG_B_RATE 1 0, wr (.port 0) .PORT_CFG_ROLE 0 0, wgds (.link 0) .GDS_LANE_STATE gdCONTAINED]

/-- Refutes O10: a port that is OFF belongs to its PORT domain, a FAB port to its LINK domain, and where that one is contained the port
waits in CONTAINED instead of DOWN when PORT_CFG makes it FAB, as `heldLinkDomain` shows. -/
theorem not_widthRestAndFailureComplete : ¬ Obligations.WidthRestAndFailureComplete := by
  intro h
  obtain ⟨-, -, -, -, -, -, -, -, -, -, -, -, -, -, -, -, happly⟩ := h heldLinkDomain (wit_awake _ (by decide +kernel))
  obtain ⟨-, hdown, -⟩ := (happly .fw0 0 (0xB0000000 : BitVec 32) (by decide +kernel) (by decide +kernel) (by decide +kernel)
    (by decide +kernel) (by decide +kernel) (by decide +kernel) (by decide +kernel) (by decide +kernel)).holds rfl
  exact absurd hdown (by decide +kernel)

end Sys2Proof.Machine
end

section
/-! PROOF. Recovery and release: the window of a port closes while software holds the face that is one with it (R594, R599, R615). -/

namespace Sys2Proof.Machine

set_option Elab.async false

/-- Port 0 is the UP port of face 0 and stands in HELD without HOLD, and HOLD is set for the FACE domain that is one with it. -/
def heldFaceDomain : State :=
  wit [wr (.port 0) .PORT_CFG_ROLE roleUP 0, wr (.face 0) .FACE_BIND_ENABLE 1 0, wr (.face 0) .FACE_BIND_PORT 0 0,
    wgds (.port 0) .GDS_LANE_STATE gdHELD, wgds (.face 0) .GDS_LANE_HOLD 1]

/-- Refutes O29: HOLD of either of two domains that are one keeps both in HELD (R594), so a port whose own HOLD is 0 is not released when
its window closes, as `heldFaceDomain` shows. -/
theorem not_recoveryCompletes : ¬ Obligations.RecoveryCompletes := by
  intro h
  obtain ⟨-, -, -, -, -, -, -, -, hclose, -⟩ := h heldFaceDomain (wit_awake _ (by decide +kernel))
  obtain ⟨-, hnone⟩ := (hclose (.port 0) (by decide +kernel) (by decide +kernel) (by decide +kernel) (by decide +kernel)).holds rfl
  exact absurd hnone (by decide +kernel)

end Sys2Proof.Machine
end

section
/-! PROOF. Credits, acknowledgements, replays and received frames of a FAB link (R224 to R251). -/

namespace Sys2Proof.Machine

set_option Elab.async false


variable {s : State}

/-- What the end of Rest does on lane `l` of port `p` (R191). -/
def laneWakes (s : State) (p l : Nat) : Upd :=
  let ui := s.burst l (s.restTime p)
  all [emit (.wakeBurst p l ui), when_ (ui == 16384) (laneCnt l 7 1), put .alignTx 0 l, sendAlign l,
    when_ (!s.ivOn .rxRest l) (all [wln l .LANE_STAT_STATE laneACTIVE, wln l .LANE_REST_CTRL_IN_REST 0])]

/-- What `laneWakes` touches. -/
def Foot.laneWakes : Foot := Foot.laneCnt.and <| Foot.sendAlign.and <| (Foot.fields .lane [.LANE_STAT_STATE, .LANE_REST_CTRL_IN_REST]).and
  (Foot.others [.out])

theorem laneWakes_in (s : State) (p l : Nat) : (laneWakes s p l).In Foot.laneWakes :=
  all_cons_in (emit_in (by decide)) <| all_cons_in (when_in (laneCnt_in (by decide +kernel) l 7 1)) <|
    all_cons_in (put_in (by decide)) <| all_cons_in (sendAlign_in (by decide +kernel) l) <|
    all_cons_in (when_in (all_cons_in (wln_in (by decide) (by decide +kernel) l _) <|
      all_cons_in (wln_in (by decide) (by decide +kernel) l _) all_nil_in)) all_nil_in

section
variable [Fact s.wf]

omit [Fact s.wf] in
/-- A port that is not in Rest has none to leave. -/
theorem restExit_of_ne {p : Nat} (hrest : s.link p ≠ lsREST) : (restExit p).run s = s := by
  rw [restExit, look_run, when_neg (by simp [hrest])]
  rfl

omit [Fact s.wf] in
theorem awake_of_ne {p held : Nat} {u : Upd} (hrest : s.link p ≠ lsREST) : (awake p held u).run s = u.run s := by
  simp only [awake, all_cons_run, all_nil_run, restExit_of_ne hrest, look_run]
  rw [if_neg (by simpa using hrest)]

end

/-- A control block that passes its checks acts as its type does. -/
theorem checkedCtl_of_good {p : Nat} {b : BitVec 64} {typ : Nat} (hruns : s.linkRuns p = true) (hcrc : blkCrcOk b = true)
    (htyp : blkByte b 0 = typ) (u : Upd) : (checkedCtl p b typ u).run s = u.run s := by
  rw [checkedCtl, look_run, when_pos hruns, if_pos (by simp [hcrc, htyp])]

theorem linkRuns_fab {p : Nat} (h : s.linkRuns p = true) : s.isFab p = true := by
  obtain ⟨⟨hfab, -⟩, -⟩ := by simpa [State.linkRuns] using h
  exact hfab

section
variable [Fact s.wf]

/-- An acknowledgement frees the frames up to its SEQ, and ends the count of replays (R230, R233). -/
theorem ackUpTo_frees {p q : Nat} (hbehind : s.sentAfter p q < (s.replayOf p).length) :
    ((ackUpTo p q).run s).replayOf p = (s.replayOf p).drop ((s.replayOf p).length - s.sentAfter p q) ∧
    ((ackUpTo p q).run s).rd (.port p) .PORT_REPLAY_CNT_CONSEC = 0 ∧ (s.iv .replayAt p = 0 → ((ackUpTo p q).run s).iv .replayAt p = 0) := by
  have := Upd.keeps_fact
  have hkey := keyRelease_in (Foot.le_refl _) p
  rw [ackUpTo, look_run, when_pos (by simpa using hbehind)]
  simp +decide only [all_cons_run, all_nil_run, State.replayOf, replay_of_in hkey, iv_of_in hkey]
  exact ⟨replayOf_putReplay .., by simp +decide [rd_of_in hkey], fun hat => by simp [hat]⟩

/-- A replay starts, and counts as one more in a row (R233). -/
theorem startReplay_starts {p : Nat} (hbuf : (s.replayOf p).isEmpty = false)
    (hlimit : s.rd (.port p) .PORT_REPLAY_CNT_CONSEC + 1 < s.rd (.port p) .PORT_REPLAY_CNT_LIMIT) :
    ((startReplay p).run s).iv .replayAt p = 1 ∧ ((startReplay p).run s).replayOf p = s.replayOf p ∧
    ((startReplay p).run s).rd (.port p) .PORT_REPLAY_CNT_CONSEC =
      (s.rd (.port p) .PORT_REPLAY_CNT_CONSEC + 1) % 2 ^ Fld.PORT_REPLAY_CNT_CONSEC.width ∧
    ((startReplay p).run s).cnt (.port p) 7 = min (s.cnt (.port p) 7 + 1) cntMax := by
  have := Upd.keeps_fact
  rw [startReplay, look_run, when_pos (by simp [hbuf])]
  simp +decide [State.replayOf, Nat.not_le.2 hlimit]

/-- A replay too many takes the link down (R234). -/
theorem startReplay_fails {p : Nat} (hbuf : (s.replayOf p).isEmpty = false)
    (hlimit : s.rd (.port p) .PORT_REPLAY_CNT_LIMIT ≤ s.rd (.port p) .PORT_REPLAY_CNT_CONSEC + 1) :
    ((startReplay p).run s).replayOf p = [] ∧ ((startReplay p).run s).link p = s.restState p ∧
    (((startReplay p).run s).rd (.port p) .ERR_STICKY_BITS).testBit Err.PORT_REPLAY_LIMIT.bit = true := by
  have := Upd.keeps_fact
  rw [startReplay, look_run, when_pos (by simp [hbuf])]
  simp only [all_cons_run, all_nil_run]
  rw [when_pos (by simpa using hlimit)]
  have hrest : ((bump (.port p) 7).run ((wr (.port p) .PORT_REPLAY_CNT_CONSEC (s.rd (.port p) .PORT_REPLAY_CNT_CONSEC + 1)).run
      ((put .replayAt 1 p).run s))).restState p = s.restState p :=
    (restState_addCnt rfl ..).trans (restState_wr (own_mem (show _ ∈ tabPORT by decide)) (by decide) (by simp) ..)
  obtain ⟨hlink, hreplay, hset⟩ := linkFails_reaches (s := (bump (.port p) 7).run ((wr (.port p) .PORT_REPLAY_CNT_CONSEC
    (s.rd (.port p) .PORT_REPLAY_CNT_CONSEC + 1)).run ((put .replayAt 1 p).run s))) (e := .PORT_REPLAY_LIMIT) (by decide) p
  exact ⟨hreplay, hlink.trans hrest, hset⟩

/-- Once a NAK has gone out one waits for its replay (R231). -/
theorem nakSent_sendNak (p : Nat) : ((sendNak p).run s).iv .nakSent p ≠ 0 := by
  have := Upd.keeps_fact
  rw [sendNak, look_run]
  by_cases h : s.iv .nakSent p = 0
  · rw [when_pos (by simp [State.ivOn, h])]
    simp +decide
  · rw [when_neg (by simp [State.ivOn, h])]
    exact h

omit [Fact s.wf] in
theorem restLeave_run (p : Nat) : (restLeave p).run s =
    (all [when_ (s.link p == lsREST) (wr (.port p) .PORT_LINK_STAT_STATE lsUP), put .restSince 0 p, put .restPend 0 p, put .restHeld 0 p,
      forEach ((s.txLanes p).filter fun l => s.laneState l == laneREST) (laneWakes s p),
      when_ ((s.iv .restHeld p).testBit 1) (ctl p 0x69 (seqPrev (s.iv .rxSeq p))),
      when_ (s.iv .restHeld p == 1) (ctl p 0x55 (seqPrev (s.iv .rxSeq p)))]).run s := rfl

/-- The transmit direction leaves Rest (R191). -/
theorem restLeave_leaves {p : Nat} (hrest : s.link p = lsREST) : ((restLeave p).run s).link p = lsUP ∧ ((restLeave p).run s).iv .restSince p = 0 := by
  have := Upd.keeps_fact
  have hlanes : ∀ l, (forEach l (laneWakes s p)).In _ := fun l => forEach_in fun l => laneWakes_in s p l
  have hctl := fun typ body => ctl_in (Foot.le_refl _) p typ body
  rw [restLeave_run]
  simp +decide [State.link, ← hrest, rd_of_in (hlanes _), iv_of_in (hlanes _), rd_of_in (hctl _ _), iv_of_in (hctl _ _)]

end

section
variable {s : State} (hs : s.Awake)
include hs

theorem creditBlock_grants (p : PortId) (b : BitVec 64) (hruns : s.linkRuns p = true) (hcrc : blkCrcOk b = true) (htyp :
    blkByte b 0 = 0x71) (hpool : bits (blkByte b 1) 4 3 ≠ poolCTL) (hinit : s.ivOn .crInit (crIdx p (blkByte b 1 % 8) (bits
    (blkByte b 1) 4 3)) = true ∨ leastCredits (bits (blkByte b 1) 4 3) ≤ blkByte b 2 + blkByte b 3 <<< 8 + blkByte b 4 <<< 16)
   : Gives (.creditBlockReceived p b) s fun t => t.iv .txLimit (crIdx p (blkByte b 1 % 8) (bits (blkByte b 1) 4 3)) = blkByte
    b 2 + blkByte b 3 <<< 8 + blkByte b 4 <<< 16 := by
  refine gives_awake hs rfl fun _ _ => ?_
  rw [look_run, checkedCtl_of_good hruns hcrc htyp, if_neg, if_neg]
  · simp +decide
  · simpa using hpool
  · rcases hinit with h | h
    · simp_all
    · simp_all

theorem creditUpdate_sends (p : PortId) (c : ClassId) (x : PoolId) (hruns : s.linkRuns p = true) (hrest : s.link p ≠ lsREST)
    (hpool : x.val ≠ poolCTL) : Gives (.creditUpdateSend p c x) s fun t => t.out = Out.ctlBlock p 0x71 (c + x.val <<< 3 +
    (t.iv .crAdv (crIdx p c x) % 2 ^ 24) <<< 8) :: s.out := by
  refine gives_awake hs rfl fun _ keeps => ?_
  have hgrant := fun k => grantCredits_in (Foot.le_refl _) p k x
  have hwatch := coreWatch_in (Foot.le_refl _)
  have hctl := fun body => ctl_in (Foot.le_refl _) p 0x71 body
  have hbefore : (coreWatch.run ((grantCredits p c x).run s)).link p = s.link p := by
    simp +decide [State.link, rd_of_in hwatch, rd_of_in (hgrant _)]
  rw [look_run, if_pos hruns, linkRuns_fab hruns, if_pos (by simpa using hpool)]
  simp only [all_cons_run, all_nil_run, restExit_of_ne (hbefore ▸ hrest), look_run]
  rw [when_pos (by simp [hbefore, hrest]), sendCredit, look_run]
  simp +decide [out_ctl, iv_of_in (hctl _), out_of_in hwatch, out_of_in (hgrant _)]

theorem flowCredit_sends (p : PortId) (c : ClassId) (x : PoolId) (hfab : s.isFab p = false) (hl0 : s.link p = lsL0) (hpool :
    x.val ≠ poolCTL) : Gives (.creditUpdateSend p c x) s fun t => t.out = Out.flowCredit p x.val (t.iv .crAdv (crIdx p 0 x))
   :: s.out := by
  refine gives_awake hs rfl fun _ keeps => ?_
  have hgrant := grantCredits_in (Foot.le_refl _) p 0 x
  have hwatch := coreWatch_in (Foot.le_refl _)
  rw [look_run, if_neg (by simp [State.linkRuns, hfab]), when_pos (by simp [hfab, hl0, hpool])]
  simp +decide [out_of_in hwatch, iv_of_in hwatch, out_of_in hgrant]

theorem creditRefresh_sends (p : PortId) (hruns : s.linkRuns p = true) (hrest : s.link p ≠ lsREST) : Gives (.creditRefresh p)
    s fun t => t.out.length = s.out.length + 25 := by
  refine gives_awake hs rfl fun _ keeps => ?_
  have hlen : ∀ l : List (Nat × Nat), ∀ t : State, [Fact t.wf] →
      ((forEach l fun (c, x) => sendCredit p c x).run t).out.length = t.out.length + l.length := by
    intro l
    induction l with
    | nil => exact fun _ _ => rfl
    | cons x l ih =>
      intro t _
      rw [forEach_cons_run, ih]
      simp only [sendCredit, look_run, out_ctl]
      simp +arith
  have hpools : fabPools.length = 25 := by decide
  rw [look_run, when_pos (by simp [hruns, hrest]), hlen, hpools]

theorem creditStall_sets (p : PortId) (c : ClassId) (x : PoolId) (hrole : s.role p ≠ 0) (hcarries : s.carries p = true ∨
    s.mayNarrow p = true) (hlimit : s.rd (.port p) .PORT_LINK_CTRL_CREDIT_STALL < 0xE) (hwaits : (s.buf.any fun k => k.pool ==
    x.val && (x.val == poolCTL || k.frame.cls == c.val) && s.lacksCredits p k) = true) : Gives (.creditStallTimeout p c x) s
    fun t => (t.rd (.port p) .ERR_STICKY_BITS).testBit Err.PORT_CREDIT_STALL.bit = true ∧ t.buf = s.buf := by
  refine gives_awake hs rfl fun _ _ => ?_
  rw [look_run, when_pos (by simp_all)]
  simp +decide

theorem rekeyThreshold_asks (p : PortId) (hruns : s.linkRuns p = true) (henc : s.on (.port p) .PORT_LINK_STAT_ENC = true) :
    Gives (.numRekeyThreshold p) s fun t => t.out = Out.keyRequest p :: s.out ∧ t.iv .txNum p = max (2 ^ 40) (s.iv .txNum p)
   := by
  refine gives_awake hs rfl fun _ _ => ?_
  rw [look_run, when_pos (by simp [hruns, henc])]
  simp

theorem numExhausted_stops (p : PortId) (hruns : s.linkRuns p = true) (henc : s.on (.port p) .PORT_LINK_STAT_ENC = true)
    (hnext : s.ivOn .nextKey p = false) : Gives (.numExhausted p) s fun t => t.iv .txNum p = 2 ^ 48 ∧ t.out = s.out := by
  refine gives_awake hs rfl fun _ _ => ?_
  rw [look_run, when_pos (by simp [hruns, henc, hnext])]
  simp

theorem goodFrame_isAccepted (p : PortId) (lf : LinkFrame) (hruns : s.linkRuns p = true) (hlane : s.laneBad p lf = false)
    (hcrc : lf.crcOk = true) (hcount : lf.countOk = true) (hseq : lf.noSeq = false) (hnext : lf.seq = s.iv .rxSeq p) (henc :
    s.on (.port p) .PORT_LINK_STAT_ENC = false ∨ lf.enc = true ∧ s.tagGood p lf (s.iv .rxNum (2 * p + lf.keyPhase)) = true)
    (hcredits : credits lf.len ≤ s.outstanding p (s.acctClass p lf.cls lf.pool) lf.pool) : Gives (.daendFrameReceived p lf) s
    fun t => t.iv .rxSeq p = (lf.seq + 1) % 4096 ∧ t.iv .crUsed (crIdx p (s.acctClass p lf.cls lf.pool) lf.pool) = s.iv
    .crUsed (crIdx p (s.acctClass p lf.cls lf.pool) lf.pool) + credits lf.len ∧ t.cnt (.port p) 0 = min (s.cnt (.port p) 0 +
    1) cntMax := by
  refine gives_awake hs rfl fun _ keeps => ?_
  have hack := sendAck_in (Foot.le_refl _) p
  rw [look_run, when_pos hruns, if_neg (by simp [hlane, hcrc, hcount]), if_neg (by simp [hseq]), if_neg (by simp [hnext]),
    if_neg (by simp [hnext]), if_neg, if_neg, if_neg (by simpa using hcredits)]
  · cases lf.enc <;> simp +decide [acceptFrame, modIv, iv_of_in hack, cnt_of_in hack]
  · rcases henc with h | ⟨-, h⟩ <;> simp [h]
  · rcases henc with h | ⟨h, -⟩ <;> simp [h]

theorem badFrame_asksAgain (p : PortId) (lf : LinkFrame) (hruns : s.linkRuns p = true) (hbad : s.laneBad p lf = true ∨
    lf.crcOk = false ∨ lf.countOk = false) : Gives (.daendFrameReceived p lf) s fun t => (t.rd (.port p)
    .ERR_STICKY_BITS).testBit Err.PORT_CRC_ERR.bit = true ∧ t.iv .rxSeq p = s.iv .rxSeq p ∧ t.iv .nakSent p ≠ 0 := by
  refine gives_awake hs rfl fun _ keeps => ?_
  have hbadCtl := frameCtlBad_in (Foot.le_refl _) p lf
  have hnak := sendNak_in (Foot.le_refl _) p
  rw [look_run, when_pos hruns, if_pos (by simpa [or_assoc] using hbad)]
  simp +decide [rd_of_in hnak, iv_of_in hnak, iv_of_in hbadCtl, nakSent_sendNak]

theorem oldFrame_isAcknowledged (p : PortId) (lf : LinkFrame) (hruns : s.linkRuns p = true) (hlane : s.laneBad p lf = false)
    (hcrc : lf.crcOk = true) (hcount : lf.countOk = true) (hseq : lf.noSeq = false) (hlow : 1 ≤ (s.iv .rxSeq p + 4096 -
    lf.seq) % 4096) (hhigh : (s.iv .rxSeq p + 4096 - lf.seq) % 4096 ≤ 2048) (hrest : s.link p ≠ lsREST) : Gives
    (.daendFrameReceived p lf) s fun t => t.iv .rxSeq p = s.iv .rxSeq p ∧ t.out.head? = some (Out.ctlBlock p 0x55 (seqPrev
    (s.iv .rxSeq p))) ∧ t.cnt (.port p) 9 = min (s.cnt (.port p) 9 + 1) cntMax := by
  refine gives_awake hs rfl fun _ keeps => ?_
  have hctl := fun body => ctl_in (Foot.le_refl _) p 0x55 body
  rw [look_run, when_pos hruns, if_neg (by simp [hlane, hcrc, hcount]), if_neg (by simp [hseq]), if_pos (by simp [hlow, hhigh])]
  have hlink : ((bump (.port p) 9).run s).link p ≠ lsREST := by simpa +decide [State.link] using hrest
  simp only [all_cons_run, all_nil_run, sendAck, look_run, awake_of_ne hlink]
  simp +decide [out_ctl, iv_of_in (hctl _), cnt_of_in (hctl _)]

theorem ackCoalesce_sends (p : PortId) (hruns : s.linkRuns p = true) (hrest : s.link p ≠ lsREST) (hunacked : s.ivOn .rxUnacked
    p = true) : Gives (.ackCoalesceExpiry p) s fun t => t.out = Out.ctlBlock p 0x55 (seqPrev (s.iv .rxSeq p)) :: s.out ∧ t.iv
    .rxUnacked p = 0 := by
  refine gives_awake hs rfl fun _ keeps => ?_
  rw [look_run, when_pos (by simp [hruns, hunacked]), sendAck, look_run, all_cons_run, awake_of_ne hrest]
  simp [out_ctl]

theorem ack_frees (p : PortId) (b : BitVec 64) (hruns : s.linkRuns p = true) (hcrc : blkCrcOk b = true) (htyp : blkByte b 0 =
    0x55) (hsent : s.unsent p (ackSeq b) = false) (hbehind : s.sentAfter p (ackSeq b) < (s.replayOf p).length) : Gives
    (.ackReceived p b) s fun t => t.replayOf p = (s.replayOf p).drop ((s.replayOf p).length - s.sentAfter p (ackSeq b)) ∧ t.rd
    (.port p) .PORT_REPLAY_CNT_CONSEC = 0 := by
  refine gives_awake hs rfl fun _ _ => ?_
  rw [look_run, if_neg (by simp [linkRuns_fab hruns]), checkedCtl_of_good hruns hcrc htyp, if_neg (by simp [hsent])]
  obtain ⟨hfree, hzero, -⟩ := ackUpTo_frees hbehind
  exact ⟨hfree, hzero⟩

theorem pcieAck_frees (p : PortId) (b : BitVec 64) (hfab : s.isFab p = false) (hcarries : s.carries p = true) (hfew : (ackSeq
    b + 4096 - s.iv .pcieAcked p) % 4096 < s.pcieUnacked p) : Gives (.ackReceived p b) s fun t => t.iv .pcieAcked p = (ackSeq
    b + 1) % 4096 := by
  refine gives_awake hs rfl fun _ _ => ?_
  rw [look_run, if_pos (by simp [hfab]), when_pos hcarries, pcieAckUpTo, look_run, when_pos (by simpa using hfew)]
  simp

theorem nak_startsReplay (p : PortId) (b : BitVec 64) (hruns : s.linkRuns p = true) (hcrc : blkCrcOk b = true) (htyp : blkByte
    b 0 = 0x69) (hsent : s.unsent p (ackSeq b) = false) (hbehind : s.sentAfter p (ackSeq b) < (s.replayOf p).length) (hleft :
    s.sentAfter p (ackSeq b) ≠ 0) (hidle : s.iv .replayAt p = 0) (hlimit : 1 < s.rd (.port p) .PORT_REPLAY_CNT_LIMIT) : Gives
    (.nakReceived p b) s fun t => t.replayOf p = (s.replayOf p).drop ((s.replayOf p).length - s.sentAfter p (ackSeq b)) ∧ t.iv
    .replayAt p = 1 := by
  refine gives_awake hs rfl fun _ keeps => ?_
  rw [look_run, if_neg (by simp [linkRuns_fab hruns]), checkedCtl_of_good hruns hcrc htyp, if_neg (by simp [hsent])]
  simp only [all_cons_run, all_nil_run]
  generalize hu : (bump (.port p) 6).run s = u
  have : Fact u.wf := hu ▸ keeps _ _
  have hbuf : u.replayOf p = s.replayOf p := by rw [← hu]; exact congrArg (Map.get · p []) (replay_addCnt rfl 6 1)
  have hsince : u.sentAfter p (ackSeq b) = s.sentAfter p (ackSeq b) := by rw [← hu]; simp +decide [State.sentAfter]
  have hmax : u.rd (.port p) .PORT_REPLAY_CNT_LIMIT = s.rd (.port p) .PORT_REPLAY_CNT_LIMIT := by rw [← hu]; simp +decide
  have hat : u.iv .replayAt p = s.iv .replayAt p := by rw [← hu]; simp +decide
  obtain ⟨hfree, hzero, hstays⟩ := ackUpTo_frees (s := u) (p := p) (q := ackSeq b) (by rw [hbuf, hsince]; exact hbehind)
  have hback : ((ackUpTo p (ackSeq b)).run u).iv .replayAt p = 0 := hstays (hat.trans hidle)
  have hlim : ((ackUpTo p (ackSeq b)).run u).rd (.port p) .PORT_REPLAY_CNT_LIMIT = u.rd (.port p) .PORT_REPLAY_CNT_LIMIT :=
    rd_of_in (ackUpTo_in (Foot.le_refl _) p _) (own_mem (show _ ∈ tabPORT by decide)) (show (Fam.port, _) ∉ _ by decide)
  rw [hbuf, hsince] at hfree
  obtain ⟨hone, hkept, -⟩ := startReplay_starts (s := (ackUpTo p (ackSeq b)).run u) (p := p)
    (by rw [hfree, List.isEmpty_eq_false_iff, ← List.length_pos_iff, List.length_drop]; omega)
    (by rw [hzero, hlim, hmax]; exact hlimit)
  rw [when_pos (by simp [State.ivOn, hidle])]
  exact ⟨hkept.trans hfree, hone⟩

theorem pcieNak_counts (p : PortId) (b : BitVec 64) (hfab : s.isFab p = false) (hcarries : s.carries p = true) : Gives
    (.nakReceived p b) s fun t => t.cnt (.port p) 6 = min (s.cnt (.port p) 6 + 1) cntMax ∧ t.cnt (.port p) 7 = min (s.cnt
    (.port p) 7 + 1) cntMax := by
  refine gives_awake hs rfl fun _ _ => ?_
  rw [look_run, if_pos (by simp [hfab]), when_pos hcarries]
  simp +decide [pcieAckUpTo]

theorem replayTimeout_replays (p : PortId) (hruns : s.linkRuns p = true) (hbuf : (s.replayOf p).isEmpty = false) (hlimit :
    s.rd (.port p) .PORT_REPLAY_CNT_CONSEC + 1 < s.rd (.port p) .PORT_REPLAY_CNT_LIMIT) : Gives (.replayTimeout p) s fun t =>
    t.iv .replayAt p = 1 ∧ t.rd (.port p) .PORT_REPLAY_CNT_CONSEC = (s.rd (.port p) .PORT_REPLAY_CNT_CONSEC + 1) % 2 ^
    Fld.PORT_REPLAY_CNT_CONSEC.width ∧ t.cnt (.port p) 7 = min (s.cnt (.port p) 7 + 1) cntMax := by
  refine gives_awake hs rfl fun _ _ => ?_
  rw [look_run, when_pos hruns]
  obtain ⟨hat, -, hconsec, hcnt⟩ := startReplay_starts hbuf hlimit
  exact ⟨hat, hconsec, hcnt⟩

theorem replayTimeout_fails (p : PortId) (hruns : s.linkRuns p = true) (hbuf : (s.replayOf p).isEmpty = false) (hlimit : s.rd
    (.port p) .PORT_REPLAY_CNT_LIMIT ≤ s.rd (.port p) .PORT_REPLAY_CNT_CONSEC + 1) : Gives (.replayTimeout p) s fun t =>
    t.replayOf p = [] ∧ t.link p = s.restState p ∧ (t.rd (.port p) .ERR_STICKY_BITS).testBit Err.PORT_REPLAY_LIMIT.bit = true
   := by
  refine gives_awake hs rfl fun _ _ => ?_
  rw [look_run, when_pos hruns]
  exact startReplay_fails hbuf hlimit

theorem boundary_replays (p : PortId) (fc : BitVec 3) (r : TxFrame) (l : List TxFrame) (hbound : s.atBoundary p = true)
    (htalks : s.linkTalks p = true) (hmarker : s.ivOn .mkDue p = false ∨ s.on (.port p) .PORT_CFG_CYC_TX = false) (hat : s.iv
    .replayAt p = 1) (hbuf : s.replayOf p = r :: l) : Gives (.egressFrameBoundary p fc) s fun t => t.out = Out.linkOut p r.seq
    false r.enc r.phase r.pool r.num r.frame :: s.out ∧ (t.iv .replayAt p = (if l.isEmpty then 0 else 2)) := by
  refine gives_awake hs rfl fun _ keeps => ?_
  have hfab : s.isFab p = true := by
    obtain ⟨hfab, -⟩ := by simpa [State.linkTalks] using htalks
    exact hfab
  have hrole : s.role p = roleFAB := by simpa [State.isFab] using hfab
  have hshape := shaperAdvance_in (Foot.le_refl _) p
  have hcopy := finishCopy_in (Foot.le_refl _) p
  have hsend := linkSend_in (Foot.le_refl _) p
  rw [look_run, when_pos hbound]
  simp only [all_cons_run, all_nil_run]
  rw [when_neg (by simp [hrole, roleFAB, roleUP]), when_neg (by simp [hfab]), look_run]
  have hout : ((finishCopy p).run ((shaperAdvance p).run s)).out = s.out := by simp +decide [out_of_in hcopy, out_of_in hshape]
  have hreplay : ((finishCopy p).run ((shaperAdvance p).run s)).replayOf p = s.replayOf p := by
    simp +decide [State.replayOf, replay_of_in hcopy, replay_of_in hshape]
  have hiv : ∀ x ∈ [Var.replayAt, .mkDue], ((finishCopy p).run ((shaperAdvance p).run s)).iv x p = s.iv x p := by
    simp +decide [iv_of_in hcopy, iv_of_in hshape]
  have hrd : ∀ f ∈ [Fld.PORT_CFG_ROLE, .PORT_LINK_STAT_STATE, .PORT_CFG_CYC_TX],
      ((finishCopy p).run ((shaperAdvance p).run s)).rd (.port p) f = s.rd (.port p) f := by
    simp +decide [rd_of_in hcopy, rd_of_in hshape]
  obtain ⟨u, hu⟩ : ∃ u, u = (finishCopy p).run ((shaperAdvance p).run s) := ⟨_, rfl⟩
  have : Fact u.wf := hu ▸ keeps _ _
  simp only [← hu, skip_run] at hout hreplay hiv hrd ⊢
  have hlink : u.linkTalks p = true := by
    simpa only [State.linkTalks, State.isFab, State.role, State.link, hrd _ (by decide : Fld.PORT_CFG_ROLE ∈ _),
      hrd _ (by decide : Fld.PORT_LINK_STAT_STATE ∈ _)] using htalks
  have hnone : (u.ivOn .mkDue p && u.on (.port p) .PORT_CFG_CYC_TX) = false := by
    simpa only [State.ivOn, State.on, hiv _ (by decide : Var.mkDue ∈ _), hrd _ (by decide : Fld.PORT_CFG_CYC_TX ∈ _), Bool.and_eq_false_iff]
      using hmarker
  have hmark : ∀ b, ¬((u.linkTalks p && u.ivOn .mkDue p && u.on (.port p) .PORT_CFG_CYC_TX && b) = true) := fun b h => by
    simp_all
  rw [if_neg (hmark _), if_pos (by simp [hlink, hiv _ (by decide : Var.replayAt ∈ _), hat])]
  simp +decide [hiv _ (by decide : Var.replayAt ∈ _), hat, hreplay, hbuf, linkFrame, out_of_in (hsend _), hout]
  cases l <;> rfl

theorem hatchEntry_advances (p : PortId) (l : Nat) (hactive : s.hatchActive p = some l) (hcycle : s.inCycle = true) (hmore :
    s.rd (.sched p) .SCHED_HATCH_STAT_ENTRY_NOW + 1 < s.hatchCount p l) : Gives (.hatchEntry p) s fun t => t.rd (.sched p)
    .SCHED_HATCH_STAT_ENTRY_NOW = (s.rd (.sched p) .SCHED_HATCH_STAT_ENTRY_NOW + 1) % 2 ^ Fld.SCHED_HATCH_STAT_ENTRY_NOW.width
    ∧ s.now ≤ t.now := by
  refine gives_awake hs rfl fun _ keeps => ?_
  have hgate := gateChange_in (Foot.le_refl _) p (s.gates p)
  have hshape := shaperAdvance_in (Foot.le_refl _) p
  rw [look_run, hactive, forSome_some_run, when_pos (by simp [hcycle, hmore])]
  simp +decide [rd_of_in hgate, now_of_in hgate, now_of_in hshape, timeTo]

theorem gateWake_leavesRest (p : PortId) (hfab : s.isFab p = true) (hlink : s.link p = lsREST) (hlong : 200 ≤ s.restTime p)
    (hwaits : (s.buf.any fun k => (k.waitsFor p).isSome && !(s.gates p).testBit k.frame.cls && !s.lacksCredits p k) = true) :
    Gives (.gateWakeLead p) s fun t => t.link p = lsUP ∧ t.iv .restSince p = 0 := by
  refine gives_awake hs rfl fun _ keeps => ?_
  rw [look_run, when_pos hwaits, restExit, look_run, when_pos (by simp [hfab, hlink]), if_neg (by omega)]
  exact restLeave_leaves hlink

end

/-- Settles O9: one lemma for each event and each of its conditions. -/
theorem linkCreditsAndAcksComplete : Obligations.LinkCreditsAndAcksComplete := by
  intro s hs
  exact ⟨creditBlock_grants hs, creditUpdate_sends hs, flowCredit_sends hs, creditRefresh_sends hs, creditStall_sets hs,
    rekeyThreshold_asks hs, numExhausted_stops hs, goodFrame_isAccepted hs, badFrame_asksAgain hs, oldFrame_isAcknowledged hs,
    ackCoalesce_sends hs, ack_frees hs, pcieAck_frees hs, nak_startsReplay hs, pcieNak_counts hs, replayTimeout_replays hs,
    replayTimeout_fails hs, boundary_replays hs, hatchEntry_advances hs, gateWake_leavesRest hs⟩

end Sys2Proof.Machine
end

section
/-! PROOF. Clocks, training, PARAM and AUTH, and PCI Express links (R162 to R224, R651 to R654). -/

namespace Sys2Proof.Machine

set_option Elab.async false


variable {s : State}

section
variable [Fact s.wf]

/-- A lane that starts training is in TRAIN, a Daend lane at the rate of its octet (R187). -/
theorem laneTrain_trains {l : Nat} (hmode : s.ln l .LANE_RATE_CFG_MODE = modeDaend) : ((laneTrain l).run s).laneState l = laneTRAIN ∧
    ((laneTrain l).run s).ln l .LANE_RATE_CFG_RATE_NOW = s.daendRate (l / 8) % 16 := by
  have := Upd.keeps_fact
  have htaps : ∀ c a b, (when_ c (setTaps l a b)).In _ := fun c a b => when_in (setTaps_in (Foot.le_refl _) l a b)
  rw [laneTrain, look_run]
  simp +decide [hmode, State.laneState, ln_wln, ln_wln_of_field_ne, ln_of_in (htaps _ _ _)]
  rfl

/-- A lane that starts training leaves the others as they are. -/
theorem laneTrain_spares {l m : Nat} (hne : m ≠ l) : ((laneTrain l).run s).laneState m = s.laneState m ∧
    ((laneTrain l).run s).ln m .LANE_RATE_CFG_RATE_NOW = s.ln m .LANE_RATE_CFG_RATE_NOW := by
  have := Upd.keeps_fact
  have hend : ∀ (c d : Bool) (a b : Nat) (o : Out), (if c = true then when_ d (setTaps l a b) else emit o).In
      (Foot.setTaps.and (Foot.others [.out])) :=
    fun c d a b o => ite_in (when_in (setTaps_in (by decide +kernel) l a b)) (emit_in (by decide))
  rw [laneTrain, look_run]
  simp only [all_cons_run, all_nil_run, State.laneState, ln_of_in (hend _ _ _ _ _) (show Fld.LANE_STAT_STATE ∈ tabLANE by decide) (by decide +kernel),
    ln_of_in (hend _ _ _ _ _) (show Fld.LANE_RATE_CFG_RATE_NOW ∈ tabLANE by decide) (by decide +kernel)]
  simp +decide [laneOff, ln_wln_of_lane_ne, hne]

end

theorem inAuth_fab {p n : Nat} (h : s.inAuth p n = true) : s.isFab p = true := by
  obtain ⟨⟨hfab, -⟩, -⟩ := by simpa [State.inAuth] using h
  exact hfab

/-- SEC's check of the partner failed: the port shows the code, and its link goes down (R652). -/
theorem authFails_fails [Fact s.wf] {p code : Nat} (hcode : code < 8) : ((authFails p code).run s).rd (.sec 2) .SEC_LINK_STAT_AUTH_STATUS p = code ∧
    ((authFails p code).run s).link p = s.restState p := by
  have := Upd.keeps_fact
  obtain ⟨hlink, -⟩ := linkDown_reaches (s := s) p
  rw [authFails, look_run]
  simp +decide [State.link]
  exact ⟨Nat.mod_eq_of_lt hcode, hlink⟩

/-- After a TRAIN block the own requests have moved on (R179). -/
theorem exchange_moves [Fact s.wf] (l control status want : Nat) : ((exchange l control status want).run s).iv .ownReq l =
    nextOwn (s.iv .ownReq l) (if s.ln l .LANE_STAT_RX_READY = 1 then 0 else want) status := by
  have := Upd.keeps_fact
  simp [exchange]

/-- What the port does with a TRAIN block that passes its checks, with the inversion `inv` in effect (R176 to R186). -/
def trainBlockTaken (s : State) (p l control status want inv : Nat) : Upd :=
  all [wln l .LANE_RATE_CFG_RX_INV_NOW inv,
    all [exchange l control status want, wln l .LANE_STAT_LOGICAL (control % 16), put .partnerReady (b2n (status.testBit 9)) l,
      look fun t => if t.ivOn .partnerReady l && t.ln l .LANE_STAT_RX_READY == 1 then
          all [wln l .LANE_STAT_EQ_DONE 1, forBelow 4 fun _ => sendTrain l 1 (s.portLanes p).length]
        else sendTrain l 0 (s.portLanes p).length,
      advanceWhen p lsEQ lsPARAM (fun t m => t.ln m .LANE_STAT_EQ_DONE == 1) (enterParam p)]]

theorem trainBlockTaken_takes [Fact s.wf] (p l control status want : Nat) {inv : Nat} (hinv : inv < 2) :
    ((trainBlockTaken s p l control status want inv).run s).iv .partnerReady l = b2n (status.testBit 9) ∧
    ((trainBlockTaken s p l control status want inv).run s).ln l .LANE_STAT_LOGICAL = control % 16 ∧
    ((trainBlockTaken s p l control status want inv).run s).ln l .LANE_RATE_CFG_RX_INV_NOW = inv ∧
    ((trainBlockTaken s p l control status want inv).run s).iv .ownReq l =
      nextOwn (s.iv .ownReq l) (if s.ln l .LANE_STAT_RX_READY = 1 then 0 else want) status := by
  have := Upd.keeps_fact
  have hexch := exchange_in (Foot.le_refl _) l control status want
  have hready : (look fun t => if t.ivOn .partnerReady l && t.ln l .LANE_STAT_RX_READY == 1 then
      all [wln l .LANE_STAT_EQ_DONE 1, forBelow 4 fun _ => sendTrain l 1 (s.portLanes p).length]
      else sendTrain l 0 (s.portLanes p).length).In (Foot.sendTrain.and (Foot.fields .lane [.LANE_STAT_EQ_DONE])) :=
    look_in fun t => ite_in (all_cons_in (wln_in (by decide) (by decide +kernel) l 1) <|
      all_cons_in (forBelow_in fun _ => sendTrain_in (by decide +kernel) l 1 _) all_nil_in) (sendTrain_in (by decide +kernel) l 0 _)
  have hadv := advanceWhen_in (F := Foot.advanceWhen.and Foot.enterParam) (by decide +kernel) p lsEQ lsPARAM
    (fun t m => t.ln m .LANE_STAT_EQ_DONE == 1) (enterParam p) (enterParam_in (by decide +kernel) p)
  simp only [trainBlockTaken, all_cons_run, all_nil_run]
  refine ⟨?_, ?_, ?_, ?_⟩
  · rw [iv_of_in hadv (by decide), iv_of_in hready (by decide)]
    simp
  · rw [ln_of_in hadv (by decide) (by decide +kernel), ln_of_in hready (by decide) (by decide +kernel), ln_put, ln_wln]
    exact Nat.mod_eq_of_lt (Nat.mod_lt _ (by decide))
  · rw [ln_of_in hadv (by decide) (by decide +kernel), ln_of_in hready (by decide) (by decide +kernel), ln_put,
      ln_wln_of_field_ne (by decide) (by decide) (by decide), ln_of_in hexch (by decide) (by decide +kernel), ln_wln]
    exact Nat.mod_eq_of_lt hinv
  · rw [iv_of_in hadv (by decide), iv_of_in hready (by decide)]
    simp only [iv_put, reduceCtorEq, false_and, if_false]
    refine Eq.trans ?_ ((exchange_moves (s := (wln l .LANE_RATE_CFG_RX_INV_NOW inv).run s) l control status want).trans ?_)
    · rfl
    · rw [ln_wln_of_field_ne (by decide) (by decide) (by decide)]
      rfl

/-- The low four bits of a word are those of its low byte. -/
theorem lowByte_mod (a b : Nat) : (a + b <<< 8) % 16 = a % 16 := by
  rw [Nat.shiftLeft_eq]
  omega

/-- The error of a PLL is reported whether or not a port has lanes in its octet. -/
theorem unlockErrors_some (e : Err) (ports : List Nat) (d : Nat → Option ReqDom) : ∃ r ∈ (if ports.isEmpty = true then
    [({ err := e, dom := some .none } : Raised)] else ports.map fun p => { err := e, dom := d p }), r.err.bit = e.bit := by
  split
  next => exact ⟨_, List.mem_singleton_self _, rfl⟩
  next h =>
    obtain ⟨p, hp⟩ := List.exists_mem_of_ne_nil ports (fun he => by simp [he] at h)
    exact ⟨_, List.mem_map_of_mem hp, rfl⟩

/-- What a PCI Express link that comes up does on the lanes of port `p`, those of `use` at rate code `r` (R186, R216). -/
def lanesComeUp (s : State) (p r : Nat) (use : List Nat) (rev : Bool) (inv : BitVec 16) : Upd :=
  forEach (s.portLanes p) fun l => if use.contains l then
      all [wln l .LANE_STAT_STATE laneACTIVE, wln l .LANE_RATE_CFG_RATE_NOW r, wln l .LANE_STAT_SIG_DET 1,
        wln l .LANE_STAT_CDR_LOCK 1,
        wln l .LANE_STAT_LOGICAL (if rev then firstLane p + (s.portLanes p).length - 1 - l else l - firstLane p),
        wln l .LANE_RATE_CFG_RX_INV_NOW (if s.ln l .LANE_RATE_CFG_RX_INV_AUTO == 1 then b2n (inv.getLsbD (l - firstLane p))
          else s.ln l .LANE_RATE_CFG_RX_INV)]
    else laneOff l

/-- What `lanesComeUp` touches. -/
def Foot.lanesComeUp : Foot := Foot.laneOff.and <| Foot.fields .lane [.LANE_STAT_STATE, .LANE_RATE_CFG_RATE_NOW, .LANE_STAT_SIG_DET,
  .LANE_STAT_CDR_LOCK, .LANE_STAT_LOGICAL, .LANE_RATE_CFG_RX_INV_NOW]

theorem lanesComeUp_in (s : State) (p r : Nat) (use : List Nat) (rev : Bool) (inv : BitVec 16) :
    (lanesComeUp s p r use rev inv).In Foot.lanesComeUp :=
  forEach_in fun l => ite_in (all_cons_in (wln_in (by decide) (by decide +kernel) l _) <| all_cons_in (wln_in (by decide) (by decide +kernel) l _) <|
    all_cons_in (wln_in (by decide) (by decide +kernel) l _) <| all_cons_in (wln_in (by decide) (by decide +kernel) l _) <|
    all_cons_in (wln_in (by decide) (by decide +kernel) l _) <| all_cons_in (wln_in (by decide) (by decide +kernel) l _) all_nil_in)
    (laneOff_in (by decide +kernel) l)

/-- The register fields and numbers of a link that comes up at width code `w` and rate code `r` (R216). -/
def pcieComesUp (s : State) (p w r : Nat) (flit rev : Bool) (inv : BitVec 16) (aspm : BitVec 2) : Upd :=
  all [wr (.port p) .PORT_LINK_STAT_STATE lsL0, useSet p (2 ^ 2 ^ w - 1), wr (.port p) .PORT_LINK_STAT_RATE_NOW r,
    wr (.port p) .PORT_LINK_STAT_FLIT (b2n (r == 6 || (flit && s.on (.port p) .PORT_CFG_FLIT_BELOW))),
    put .pcieRev (b2n rev) p, put .partnerAspm aspm.toNat p, lanesComeUp s p r (s.pcieLanes p w rev) rev inv]

theorem pcieComesUp_shows [Fact s.wf] (p w : Nat) {r : Nat} (hr : r < 16) (flit rev : Bool) (inv : BitVec 16) (aspm : BitVec 2) :
    ((pcieComesUp s p w r flit rev inv aspm).run s).link p = lsL0 ∧
    ((pcieComesUp s p w r flit rev inv aspm).run s).rd (.port p) .PORT_LINK_STAT_RATE_NOW = r ∧
    ((pcieComesUp s p w r flit rev inv aspm).run s).iv .partnerAspm p = aspm.toNat ∧
    ((pcieComesUp s p w r flit rev inv aspm).run s).rd (.port p) .PORT_LINK_STAT_FLIT =
      b2n (r == 6 || (flit && s.on (.port p) .PORT_CFG_FLIT_BELOW)) := by
  have := Upd.keeps_fact
  have hlanes := lanesComeUp_in s p r (s.pcieLanes p w rev) rev inv
  simp +decide [pcieComesUp, State.link, useSet, rd_of_in hlanes, iv_of_in hlanes]
  exact Nat.mod_eq_of_lt hr

/-- What the first training of a PCI Express link does beside (R216). -/
def pcieTrained (s : State) (p : Nat) : Upd :=
  all [when_ (s.link p != lsPOLLING && s.link p != lsCONFIG) (bump (.port p) 13),
    forBelow 3 fun x => look fun t => put .crAdv (t.iv .crUsed (crIdx p 0 x) + t.reserve p 0 x) (crIdx p 0 x),
    when_ (s.role p == roleUP) <| forSome (s.faceOf p) fun f =>
      all [wr (.face f) .FACE_BIND_STATE 2, wr (.face f) .FACE_PM_STAT_LINK_PM 0, msixFlush f]]

/-- What `pcieTrained` touches. -/
def Foot.pcieTrained : Foot := (Foot.counting .port).and <| (Foot.numbers [.crAdv]).and <|
  (Foot.fields .face [.FACE_BIND_STATE, .FACE_PM_STAT_LINK_PM]).and Foot.interrupt

theorem pcieTrained_in (s : State) (p : Nat) : (pcieTrained s p).In Foot.pcieTrained := by
  have hcount : (bump (.port p) 13).In Foot.pcieTrained :=
    bump_in (pg := .port p) rfl (show (Foot.counting .port).le Foot.pcieTrained = true by decide +kernel) 13
  have hface : ∀ f, (all [wr (.face f) .FACE_BIND_STATE 2, wr (.face f) .FACE_PM_STAT_LINK_PM 0, msixFlush f]).In Foot.pcieTrained := fun f =>
    all_cons_in (wr_in (pg := .face f) (own_mem (show _ ∈ tabFACE by decide)) (show (Fam.face, _) ∈ Foot.pcieTrained.regs by decide +kernel)) <|
      all_cons_in (wr_in (pg := .face f) (own_mem (show _ ∈ tabFACE by decide)) (show (Fam.face, _) ∈ Foot.pcieTrained.regs by decide +kernel)) <|
      all_cons_in (msixFlush_in (by decide +kernel) f) all_nil_in
  exact all_cons_in (when_in hcount) <| all_cons_in (forBelow_in fun x => look_in fun t => put_in (by decide +kernel)) <|
    all_cons_in (when_in (forSome_in hface)) all_nil_in

/-- The face of an UP port whose link has trained is ready for its host (Table FACE-1). -/
theorem pcieTrained_binds {p g : Nat} (hrole : s.role p = roleUP) (hface : s.faceOf p = some g) (t : State) [Fact t.wf] :
    ((pcieTrained s p).run t).rd (.face g) .FACE_BIND_STATE = 2 := by
  have := Upd.keeps_fact
  have hflush := msixFlush_in (Foot.le_refl _) g
  simp +decide [pcieTrained, hrole, hface, rd_of_in hflush]

/-- What a PCI Express link does that comes back without the lanes of `gone` (R194, R257). -/
def pcieRetrained (s : State) (p : Nat) (gone use : List Nat) (fewer : Bool) : Upd :=
  all [when_ (s.role p == roleUP) <| forSome (s.faceOf p) fun f => wr (.face f) .FACE_PM_STAT_LINK_PM 0,
    forEach gone fun l => all [wln l .LANE_STAT_FAILED 1, raise (.lane (l / 8)) (.LANE_LANE_FAIL (l % 8))],
    when_ fewer (all [put .curSet (bitmapOf (use.map (· - firstLane p))) p, bump (.port p) 12, raise (.port p) .PORT_WIDTH_DOWN])]

/-- What `pcieRetrained` touches. -/
def Foot.pcieRetrained : Foot := (Foot.fields .face [.FACE_PM_STAT_LINK_PM]).and <| (Foot.fields .lane [.LANE_STAT_FAILED]).and <|
  (Foot.error .lane).and <| (Foot.numbers [.curSet]).and <| (Foot.counting .port).and (Foot.error .port)

theorem pcieRetrained_in (s : State) (p : Nat) (gone use : List Nat) (fewer : Bool) : (pcieRetrained s p gone use fewer).In Foot.pcieRetrained := by
  have hface : ∀ f, (wr (.face f) .FACE_PM_STAT_LINK_PM 0).In Foot.pcieRetrained := fun f =>
    wr_in (pg := .face f) (own_mem (show _ ∈ tabFACE by decide)) (show (Fam.face, _) ∈ Foot.pcieRetrained.regs by decide +kernel)
  have hlane : ∀ l, (raise (.lane (l / 8)) (.LANE_LANE_FAIL (l % 8))).In Foot.pcieRetrained := fun l =>
    raiseAll_in (pg := .lane (l / 8)) rfl (show (Foot.error .lane).le Foot.pcieRetrained = true by decide +kernel) _
  have hport : (raise (.port p) .PORT_WIDTH_DOWN).In Foot.pcieRetrained :=
    raiseAll_in (pg := .port p) rfl (show (Foot.error .port).le Foot.pcieRetrained = true by decide +kernel) _
  have hcount : (bump (.port p) 12).In Foot.pcieRetrained :=
    bump_in (pg := .port p) rfl (show (Foot.counting .port).le Foot.pcieRetrained = true by decide +kernel) 12
  exact all_cons_in (when_in (forSome_in hface)) <|
    all_cons_in (forEach_in fun l => all_cons_in (wln_in (by decide) (by decide +kernel) l _) <| all_cons_in (hlane l) all_nil_in) <|
    all_cons_in (when_in (all_cons_in (put_in (by decide +kernel)) <| all_cons_in hcount <| all_cons_in hport all_nil_in)) all_nil_in

section
variable {s : State} (hs : s.Awake)
include hs

theorem bPllLocks_shows (o : OctId) (hneeds : s.needsPll o true = true) (href : s.pllNoRef o true = false) (hrate : s.rd
    (.lane o) .LANE_OCT_CFG_B_RATE ≠ 0) : Gives (.pllLock o true) s fun t => t.rd (.lane o) .LANE_OCT_STAT_B_LOCK = 1 := by
  refine gives_awake hs rfl fun _ keeps => ?_
  have htrain := fun l => forEach_in (l := l) fun l => laneTrain_in (Foot.le_refl _) l
  rw [look_run, when_pos (by simp [hneeds, href, hrate])]
  simp +decide [rd_of_in (htrain _)]

theorem aPllLocks_shows (o : OctId) (hneeds : s.needsPll o false = true) (href : s.pllNoRef o false = false) : Gives (.pllLock
    o false) s fun t => t.rd (.lane o) .LANE_OCT_STAT_A_LOCK = 1 := by
  refine gives_awake hs rfl fun _ keeps => ?_
  have htrain := fun l => forEach_in (l := l) fun l => laneTrain_in (Foot.le_refl _) l
  rw [look_run, when_pos (by simp [hneeds, href])]
  simp +decide [rd_of_in (htrain _)]

theorem bPllLocks_trains (o : OctId) (k : Fin 8) (hmode : s.ln (8 * o.val + k.val) .LANE_RATE_CFG_MODE = modeDaend) (hoff :
    s.laneState (8 * o.val + k.val) = laneOFF) (href : s.pllNoRef o true = false) (hrate : s.rd (.lane o) .LANE_OCT_CFG_B_RATE
    ≠ 0) : Gives (.pllLock o true) s fun t => t.laneState (8 * o.val + k.val) = laneTRAIN ∧ t.ln (8 * o.val + k.val)
    .LANE_RATE_CFG_RATE_NOW = 7 + s.rd (.lane o) .LANE_OCT_CFG_B_RATE := by
  refine gives_awake hs rfl fun _ keeps => ?_
  have hoct : (8 * o.val + k.val) / 8 = o := by omega
  have hmem : 8 * o.val + k.val ∈ (List.range 8).map (8 * o.val + ·) := List.mem_map_of_mem (List.mem_range.2 k.isLt)
  have hneeds : s.needsPll o true = true := List.any_eq_true.2 ⟨_, hmem, by simp [hmode]⟩
  have hnodup : ((List.range 8).map (8 * o.val + ·)).Nodup := List.Nodup.map (fun a b h => Nat.add_left_cancel h) List.nodup_range
  have hkept : ∀ l f, f ∈ [Fld.LANE_RATE_CFG_MODE, .LANE_OCT_CFG_B_RATE] → ∀ m i, ∀ t : State, [Fact t.wf] →
      ((laneTrain l).run t).rd (.lane m) f i = t.rd (.lane m) f i := fun l f hf m i t _ => by
    have hnot : ∀ f ∈ [Fld.LANE_RATE_CFG_MODE, .LANE_OCT_CFG_B_RATE], f ∈ tabLANE ∧ (Fam.lane, f) ∉ Foot.laneTrain.regs := by decide +kernel
    exact rd_of_in (laneTrain_in (Foot.le_refl _) l) (own_mem (pg := .lane _) (hnot f hf).1) (hnot f hf).2
  rw [look_run, when_pos (by simp [hneeds, href, hrate])]
  simp only [all_cons_run, all_nil_run, ↓reduceIte]
  have hstart : ((wr (.lane o) .LANE_OCT_STAT_B_LOCK 1).run s).ln (8 * o.val + k.val) .LANE_RATE_CFG_MODE = modeDaend ∧
      ((wr (.lane o) .LANE_OCT_STAT_B_LOCK 1).run s).rd (.lane o) .LANE_OCT_CFG_B_RATE = s.rd (.lane o) .LANE_OCT_CFG_B_RATE :=
    ⟨by simpa +decide [State.ln] using hmode, by simp +decide⟩
  refine forEach_reaches (a := 8 * o.val + k.val) (P := fun t => t.ln (8 * o.val + k.val) .LANE_RATE_CFG_MODE = modeDaend ∧
    t.rd (.lane o) .LANE_OCT_CFG_B_RATE = s.rd (.lane o) .LANE_OCT_CFG_B_RATE)
    (Q := fun t => t.laneState (8 * o.val + k.val) = laneTRAIN ∧ t.ln (8 * o.val + k.val) .LANE_RATE_CFG_RATE_NOW = 7 + s.rd
        (.lane o) .LANE_OCT_CFG_B_RATE)
    ((hnodup.filter _).filter _) ?_ ?_ ?_ ?_ _ hstart
  · exact List.mem_filter.2 ⟨List.mem_filter.2 ⟨hmem, by simp [hmode]⟩, by simp [hoff]⟩
  · rintro m - - t _ ⟨hm, hr⟩
    exact ⟨(hkept m _ (by decide) _ _ t).trans hm, (hkept m _ (by decide) _ _ t).trans hr⟩
  · rintro t _ ⟨hm, hr⟩
    obtain ⟨hstate, hnow⟩ := laneTrain_trains hm
    refine ⟨hstate, hnow.trans ?_⟩
    rw [State.daendRate, hoct, hr]
    exact Nat.mod_eq_of_lt (show 7 + s.rd (.lane o) .LANE_OCT_CFG_B_RATE < 16 from
      Nat.lt_of_lt_of_le (Nat.add_lt_add_left (rd_lt s (.lane o) .LANE_OCT_CFG_B_RATE 0) 7) (by decide))
  · rintro m - hne t _ ⟨hm, hr⟩
    obtain ⟨hstate, hnow⟩ := laneTrain_spares (s := t) (Ne.symm hne)
    exact ⟨hstate.trans hm, hnow.trans hr⟩

theorem bPllUnlocks_shows (o : OctId) (hlock : s.on (.lane o) .LANE_OCT_STAT_B_LOCK = true) : Gives (.pllUnlock o true) s fun
    t => t.rd (.lane o) .LANE_OCT_STAT_B_LOCK = 0 ∧ (t.rd (.lane o) .ERR_STICKY_BITS).testBit Err.LANE_B_PLL_UNLOCK.bit = true
   := by
  refine gives_awake hs rfl fun _ keeps => ?_
  have hdown := fun l => forEach_in (l := l) fun p => linkDown_in (Foot.le_refl _) p
  have hoff := fun l => forEach_in (l := l) fun l => laneOff_in (Foot.le_refl _) l
  rw [look_run]
  simp only [↓reduceIte]
  rw [when_pos hlock]
  simp only [all_cons_run, all_nil_run]
  refine ⟨?_, raiseAll_sets rfl (unlockErrors_some _ _ _) (by decide)⟩
  simp +decide [rd_raiseAll_of_not_error, rd_of_in (hoff _), rd_of_in (hdown _)]

theorem signal_shows (l : LaneId) : Gives (.signalDetect l) s fun t => t.ln l .LANE_STAT_SIG_DET = 1 := by
  refine gives_awake hs rfl fun _ keeps => ?_
  cases hown : s.owner l <;> simp +decide [hown, State.ln, wln, advanceWhen]

theorem dwellEnds_detects (p : PortId) (hrun : s.rd .glb .GLB_DEV_STATE_STATE ≠ 3) (hfab : s.isFab p = true) (hdown : s.link p
    = lsDOWN) (hdis : s.on (.port p) .PORT_LINK_CTRL_DISABLE = false) (hclock : s.noClock p = false) (hfree : s.domState
    (s.portDom p) ≠ gdQUIESCED) : Gives (.linkDownDwellExpiry p) s fun t => t.link p = lsDETECT ∧ t.cnt (.port p) 13 = min
    (s.cnt (.port p) 13 + 1) cntMax := by
  refine gives_awake hs rfl fun _ keeps => ?_
  have hlanes : (forEach (s.portLanes p) fun l =>
      if l ∈ s.trainLanes p then when_ (s.pllLocked (l / 8) modeDaend) (laneTrain l) else laneOff l).In Foot.laneTrain :=
    forEach_in fun l => ite_in (when_in (laneTrain_in (Foot.le_refl _) l)) (laneOff_in (by decide +kernel) l)
  rw [look_run, when_pos (by simpa using hrun), detectStart, look_run, when_pos (by simp [hfab, hdown, hdis, hclock, hfree])]
  simp +decide [State.link, rd_of_in hlanes, cnt_of_in hlanes]

theorem aPllUnlocks_shows (o : OctId) (hlock : s.on (.lane o) .LANE_OCT_STAT_A_LOCK = true) : Gives (.pllUnlock o false) s fun
    t => t.rd (.lane o) .LANE_OCT_STAT_A_LOCK = 0 ∧ (t.rd (.lane o) .ERR_STICKY_BITS).testBit Err.LANE_A_PLL_UNLOCK.bit = true
   := by
  refine gives_awake hs rfl fun _ keeps => ?_
  have hdown := fun l => forEach_in (l := l) fun p => linkDown_in (Foot.le_refl _) p
  have hoff := fun l => forEach_in (l := l) fun l => laneOff_in (Foot.le_refl _) l
  rw [look_run]
  simp only [↓reduceIte, Bool.false_eq_true]
  rw [when_pos hlock]
  simp only [all_cons_run, all_nil_run]
  refine ⟨?_, raiseAll_sets rfl (unlockErrors_some _ _ _) (by decide)⟩
  simp +decide [rd_raiseAll_of_not_error, rd_of_in (hoff _), rd_of_in (hdown _)]

theorem trainTimeout_fails (p : PortId) (hfab : s.isFab p = true) (hstate : s.link p ∈ [lsALIGN, lsEQ, lsPARAM, lsAUTH])
    (hheld : s.linkHeld p = false) : Gives (.trainStateTimeout p) s fun t => t.link p = lsDOWN ∧ t.cnt (.port p) 14 = min
    (s.cnt (.port p) 14 + 1) cntMax ∧ (t.rd (.port p) .ERR_STICKY_BITS).testBit Err.PORT_TRAIN_FAIL.bit = true := by
  refine gives_awake hs rfl fun _ keeps => ?_
  have hfails := linkFails_in (Foot.le_refl _) p (some .PORT_TRAIN_FAIL)
  obtain ⟨hlink, -, hset⟩ := linkFails_reaches (s := (bump (.port p) 14).run s) (e := .PORT_TRAIN_FAIL) (by decide) p
  rw [look_run, when_pos (by simpa [hfab, or_assoc] using hstate)]
  refine ⟨(hlink.trans (restState_addCnt rfl ..)).trans (restState_fab hfab hheld), ?_, hset⟩
  simp +decide [cnt_of_in hfails]

theorem absent_shows (p : PortId) (hfab : s.isFab p = true) (hlink : s.link p = lsDETECT) (hdark : ((s.portLanes p).all fun l
    => s.ln l .LANE_STAT_SIG_DET == 0) = true) : Gives (.detectAbsentTimeout p) s fun t => t.rd (.port p)
    .PORT_LINK_STAT_ABSENT = 1 ∧ t.link p = lsDETECT := by
  refine gives_awake hs rfl fun _ keeps => ?_
  rw [look_run, when_pos (by simp_all)]
  simp +decide [State.link] at hlink ⊢
  exact hlink

theorem secondAlign_locks (l : LaneId) (b : BitVec 64) (n : Nat) (hmode : s.ln l .LANE_RATE_CFG_MODE = modeDaend) (hvalid :
    alignValid b = true) (hrest : s.ivOn .rxRest l = false) (hstate : s.laneState l = laneTRAIN) (hseen : s.ivOn .alignSeen l
    = true) (hslots : n = alignSlots) : Gives (.alignReceived l 2 b n) s fun t => t.ln l .LANE_STAT_ALIGN_LOCK = 1 ∧ t.ln l
    .LANE_STAT_FEC_LOCK = 1 ∧ t.ln l .LANE_STAT_CDR_LOCK = 1 := by
  refine gives_awake hs rfl fun _ keeps => ?_
  have hadv := fun o => forSome_in (o := o) fun p => advanceWhen_in (Foot.le_refl _) p lsALIGN lsEQ
      (fun t m => t.ln m .LANE_STAT_ALIGN_LOCK == 1) skip skip_in
  rw [look_run, if_neg (by simp [hmode]), if_neg (by simp [hvalid, hdrCTL]), if_neg (by simp [hrest]), if_pos (by simp [hstate])]
  simp only [all_cons_run, all_nil_run]
  rw [if_pos (by simp [hseen, hslots]), when_neg (by simp [hstate, laneTRAIN, laneACTIVE])]
  simp +decide [ln_of_in (hadv _), ln_wln, ln_wln_of_field_ne]

theorem firstAlign_isSeen (l : LaneId) (b : BitVec 64) (n : Nat) (hmode : s.ln l .LANE_RATE_CFG_MODE = modeDaend) (hvalid :
    alignValid b = true) (hrest : s.ivOn .rxRest l = false) (hstate : s.laneState l = laneTRAIN) (hlock : s.ln l
    .LANE_STAT_ALIGN_LOCK = 0) (hseen : s.ivOn .alignSeen l = false) : Gives (.alignReceived l 2 b n) s fun t => t.ivOn
    .alignSeen l = true ∧ t.ln l .LANE_STAT_ALIGN_LOCK = 0 := by
  refine gives_awake hs rfl fun _ keeps => ?_
  have hadv := fun o => forSome_in (o := o) fun p => advanceWhen_in (Foot.le_refl _) p lsALIGN lsEQ
      (fun t m => t.ln m .LANE_STAT_ALIGN_LOCK == 1) skip skip_in
  rw [look_run, if_neg (by simp [hmode]), if_neg (by simp [hvalid, hdrCTL]), if_neg (by simp [hrest]), if_pos (by simp [hstate])]
  simp only [all_cons_run, all_nil_run]
  rw [if_neg (by simp [hseen, hlock]), when_neg (by simp [hstate, laneTRAIN, laneACTIVE])]
  simp +decide [ln_of_in (hadv _), State.ivOn, iv_of_in (hadv _), hlock]

theorem alignAfterRest_locks (l : LaneId) (b : BitVec 64) (n : Nat) (hmode : s.ln l .LANE_RATE_CFG_MODE = modeDaend) (hvalid :
    alignValid b = true) (hrest : s.ivOn .rxRest l = true) : Gives (.alignReceived l 2 b n) s fun t => t.ivOn .rxRest l =
    false ∧ t.ln l .LANE_STAT_ALIGN_LOCK = 1 := by
  refine gives_awake hs rfl fun _ keeps => ?_
  rw [look_run, if_neg (by simp [hmode]), if_neg (by simp [hvalid, hdrCTL]), if_pos hrest]
  simp +decide [State.ln, wln, State.ivOn]

theorem align_numbersLane (l : LaneId) (b : BitVec 64) (n : Nat) (hmode : s.ln l .LANE_RATE_CFG_MODE = modeDaend) (hvalid :
    alignValid b = true) (hrest : s.ivOn .rxRest l = false) (hstate : s.laneState l = laneACTIVE) (hlock : s.ln l
    .LANE_STAT_ALIGN_LOCK = 1) : Gives (.alignReceived l 2 b n) s fun t => t.ln l .LANE_STAT_LOGICAL = blkByte b 1 % 16 ∧ t.iv
    .alignMiss l = 0 := by
  refine gives_awake hs rfl fun _ keeps => ?_
  have hadv := fun o => forSome_in (o := o) fun p => advanceWhen_in (Foot.le_refl _) p lsALIGN lsEQ
      (fun t m => t.ln m .LANE_STAT_ALIGN_LOCK == 1) skip skip_in
  rw [look_run, if_neg (by simp [hmode]), if_neg (by simp [hvalid, hdrCTL]), if_neg (by simp [hrest]),
      if_pos (by simp [hstate, laneACTIVE, laneTRAIN])]
  simp only [all_cons_run, all_nil_run]
  rw [if_pos (by simp [hlock]), when_pos (by simp [hstate])]
  refine ⟨?_, by simp +decide [iv_of_in (hadv _), wln]⟩
  rw [ln_of_in (hadv _) (by decide) (by decide), ln_wln]
  exact Nat.mod_eq_of_lt (show blkByte b 1 % 16 < 16 from Nat.mod_lt _ (by decide))

theorem badAlign_misses (l : LaneId) (h : BitVec 2) (b : BitVec 64) (n : Nat) (hmode : s.ln l .LANE_RATE_CFG_MODE = modeDaend)
    (hbad : alignValid b = false ∨ h ≠ 2) (hlock : s.ln l .LANE_STAT_ALIGN_LOCK = 1) (hrest : s.ivOn .rxRest l = false) (hfew
   : s.iv .alignMiss l < 2) : Gives (.alignReceived l h b n) s fun t => t.iv .alignMiss l = s.iv .alignMiss l + 1 ∧ t.ln l
    .LANE_STAT_ALIGN_LOCK = 1 := by
  refine gives_awake hs rfl fun _ keeps => ?_
  rw [look_run, if_neg (by simp [hmode]), if_pos, when_pos (by simp [hlock, hrest])]
  · simp +decide [Nat.not_le.2 hfew, laneCnt, State.ln]
    exact hlock
  · rcases hbad with hb | hh
    · simp [hb]
    · simp [hdrCTL, show h.toNat ≠ 2 from fun e => hh (BitVec.eq_of_toNat_eq e)]

theorem trainBlock_exchanges (l : LaneId) (h : BitVec 2) (b : BitVec 64) (want : BitVec 7) (p : PortId) (hown : s.owner l =
    some p.val) (hfab : s.isFab p = true) (hlink : s.link p = lsEQ) (hauto : s.ln l .LANE_RATE_CFG_RX_INV_AUTO = 0) (hinv :
    s.ln l .LANE_RATE_CFG_RX_INV = 0) (hctl : h = 2) (htyp : blkByte b 0 = 0x33) (hcrc : blkCrcOk b = true) : Gives
    (.trainBlockReceived l h b want) s fun t => t.iv .partnerReady l = b2n ((blkByte b 3 + blkByte b 4 <<< 8).testBit 9) ∧
    t.ln l .LANE_STAT_LOGICAL = blkByte b 1 % 16 ∧ t.ln l .LANE_RATE_CFG_RX_INV_NOW = 0 ∧ (t.iv .ownReq l = nextOwn (s.iv
    .ownReq l) (if s.ln l .LANE_STAT_RX_READY = 1 then 0 else want.toNat) (blkByte b 3 + blkByte b 4 <<< 8)) := by
  refine gives_awake hs rfl fun _ keeps => ?_
  subst hctl
  have hseen : trainSeen (if s.ln l .LANE_RATE_CFG_RX_INV_AUTO == 1 then (2 : BitVec 2).toNat == 1 && blkByte b 0 == 0xCC
      else s.ln l .LANE_RATE_CFG_RX_INV == 1) 2 b = (2, b) := by simp [hauto, hinv, trainSeen]
  rw [look_run]
  simp only [hseen, hown, forSome_some_run]
  have hgood : ¬((!blkCrcOk b || 2 != hdrCTL || blkByte b 0 != 0x33) = true) := by simp [hcrc, htyp, hdrCTL]
  rw [when_pos (by simp [hfab, hlink])]
  obtain ⟨hpartner, hlogical, hnow, hown⟩ := trainBlockTaken_takes (s := s) p l (blkByte b 1 + blkByte b 2 <<< 8)
    (blkByte b 3 + blkByte b 4 <<< 8) want.toNat (inv := 0) (by decide)
  simp only [hauto, hinv, if_neg hgood]
  exact ⟨hpartner, hlogical.trans (lowByte_mod ..), hnow, hown⟩

theorem invertedTrainBlock_turns (l : LaneId) (h : BitVec 2) (b : BitVec 64) (want : BitVec 7) (p : PortId) (hown : s.owner l
    = some p.val) (hfab : s.isFab p = true) (hlink : s.link p = lsEQ) (hauto : s.ln l .LANE_RATE_CFG_RX_INV_AUTO = 1) (hctl :
    h = 1) (htyp : blkByte b 0 = 0xCC) (hcrc : blkCrcOk (~~~b) = true) : Gives (.trainBlockReceived l h b want) s fun t =>
    t.ln l .LANE_RATE_CFG_RX_INV_NOW = 1 ∧ t.iv .partnerReady l = b2n ((blkByte (~~~b) 3 + blkByte (~~~b) 4 <<< 8).testBit 9)
   := by
  refine gives_awake hs rfl fun _ keeps => ?_
  subst hctl
  have hseen : trainSeen (if s.ln l .LANE_RATE_CFG_RX_INV_AUTO == 1 then (1 : BitVec 2).toNat == 1 && blkByte b 0 == 0xCC
      else s.ln l .LANE_RATE_CFG_RX_INV == 1) 1 b = (2, ~~~b) := by simp [hauto, htyp, trainSeen]
  have hbyte : blkByte (~~~b) 0 = 0x33 := by
    simp only [blkByte, byteOf, BitVec.toNat_not] at htyp ⊢
    omega
  rw [look_run]
  simp only [hseen, hown, forSome_some_run]
  have hgood : ¬((!blkCrcOk (~~~b) || 2 != hdrCTL || blkByte (~~~b) 0 != 0x33) = true) := by simp [hcrc, hbyte, hdrCTL]
  rw [when_pos (by simp [hfab, hlink])]
  obtain ⟨hpartner, -, hnow, -⟩ := trainBlockTaken_takes (s := s) p l (blkByte (~~~b) 1 + blkByte (~~~b) 2 <<< 8)
    (blkByte (~~~b) 3 + blkByte (~~~b) 4 <<< 8) want.toNat (inv := 1) (by decide)
  simp only [hauto, htyp, if_neg hgood]
  exact ⟨hnow, hpartner⟩

theorem paramBlock_isKept (p : PortId) (b : BitVec 64) (hfab : s.isFab p = true) (hlink : s.link p = lsPARAM) (hcrc : blkCrcOk
    b = true) (htyp : blkByte b 0 = 0x3F) (hlt : blkByte b 1 < 8) (hnot : setBit (s.iv .paramGot p) (blkByte b 1) ≠ 255) :
    Gives (.paramBlockReceived p b) s fun t => t.iv .paramVal (8 * p + blkByte b 1) = bits b.toNat 55 16 ∧ t.iv .paramGot p =
    setBit (s.iv .paramGot p) (blkByte b 1) := by
  refine gives_awake hs rfl fun _ keeps => ?_
  rw [look_run, when_pos (by simp [hfab, hlink]), if_neg (by simp [hcrc, htyp]), when_pos (by simpa using hlt)]
  simp [hnot]

theorem paramRepeat_sends (p : PortId) (hfab : s.isFab p = true) (hlink : s.link p = lsPARAM) : Gives (.paramRepeat p) s fun t
    => t.out.length = s.out.length + 8 := by
  refine gives_awake hs rfl fun _ _ => ?_
  rw [look_run, when_pos (by simp [hfab, hlink]), sendParams, look_run, forBelow, out_length_ctls, List.length_range]

theorem hello_answers (p : PortId) (hauth : s.inAuth p 0 = true) : Gives (.authHello p) s fun t => t.iv .authStep p = 1 ∧
    t.out = Out.authMsg p 0x31 [] :: s.out := by
  refine gives_awake hs rfl fun _ _ => ?_
  simp [hauth]

theorem hello_rekeys (p : PortId) (hfab : s.isFab p = true) (henc : s.on (.port p) .PORT_LINK_STAT_ENC = true) (hlink : s.link
    p ≠ lsAUTH) (hnext : s.iv .nextKey p = 0) : Gives (.authHello p) s fun t => t.iv .nextKey p = 1 ∧ t.iv .keyCount p = s.iv
    .keyCount p + 1 ∧ t.rd (.sec 2) .SEC_LINK_STAT_REKEY p = 0 ∧ t.cnt (.sec 0) 5 = min (s.cnt (.sec 0) 5 + 1) cntMax := by
  refine gives_awake hs rfl fun _ keeps => ?_
  have hhello := sendHello_in (Foot.le_refl _) p
  rw [look_run, if_neg (by simp [State.inAuth, hlink]), when_pos (by simp [hfab, henc, hlink, hnext, State.ivOn])]
  simp +decide [supplyKey, iv_of_in hhello, cnt_of_in hhello]

theorem goodCert_proves (p : PortId) (debug : Bool) (hauth : s.inAuth p 1 = true) : Gives (.authCert p true debug) s fun t =>
    t.iv .authStep p = 2 ∧ t.iv .authDebug p = b2n debug ∧ t.out = Out.authMsg p 0x32 [ofBytes s.ownerDigest, s.domainId,
    s.selfSw.getD 0, p] :: s.out := by
  refine gives_awake hs rfl fun _ _ => ?_
  have hdigest : ((put .authDebug (b2n debug) p).run ((put .authStep 2 p).run s)).ownerDigest = s.ownerDigest := by
    simp only [State.ownerDigest, iv_put, reduceCtorEq, false_and, if_false]
  rw [look_run, when_pos hauth, if_pos rfl]
  simp only [all_cons_run, all_nil_run, sendProof, look_run, hdigest]
  exact ⟨by simp, by simp, rfl⟩

theorem goodProof_isAccepted (p : PortId) (ok : Bool) (owner : BitVec 384) (domain : BitVec 128) (sw port : Nat) (hauth :
    s.inAuth p 2 = true) (hok : ok = true) (hown : owner.toNat = ofBytes s.ownerDigest) (hdom : domain.toNat = s.domainId)
    (hsw : s.rd (.bridge 4) .BRIDGE_FAB_NBR_PARTNER_SW p = sw) (hport : s.rd (.bridge 4) .BRIDGE_FAB_NBR_PARTNER_PORT p =
    port) (hself : s.selfSw ≠ some sw) (hdebug : s.ivOn .authDebug p = false ∨ s.ivOn .rejectDebug = false) : Gives
    (.authProof p ok owner domain sw port) s fun t => t.iv .authStep p = 3 ∧ t.rd (.sec 2) .SEC_LINK_STAT_PARTNER_DEBUG p =
    s.iv .authDebug p % 2 := by
  refine gives_awake hs rfl fun _ _ => ?_
  rw [look_run, when_pos hauth, if_neg (by simp [hok]), if_neg (by simpa using hown), if_neg (by simpa using hdom),
    if_neg (by simp [hsw, hport, hself]), if_neg (by rcases hdebug with h | h <;> simp [h])]
  simp +decide
  rfl

theorem badSignature_fails (p : PortId) (ok : Bool) (owner : BitVec 384) (domain : BitVec 128) (sw port : Nat) (hauth :
    s.inAuth p 2 = true) (hok : ok = false) (hheld : s.linkHeld p = false) : Gives (.authProof p ok owner domain sw port) s
    fun t => t.link p = lsDOWN ∧ t.rd (.sec 2) .SEC_LINK_STAT_AUTH_STATUS p = 3 := by
  refine gives_awake hs rfl fun _ _ => ?_
  obtain ⟨hcode, hlink⟩ := authFails_fails (s := s) (p := p) (code := 3) (by decide)
  rw [look_run, when_pos hauth, if_pos (by simp [hok])]
  exact ⟨hlink.trans (restState_fab (inAuth_fab hauth) hheld), hcode⟩

theorem otherOwner_fails (p : PortId) (ok : Bool) (owner : BitVec 384) (domain : BitVec 128) (sw port : Nat) (hauth : s.inAuth
    p 2 = true) (hok : ok = true) (hown : owner.toNat ≠ ofBytes s.ownerDigest) : Gives (.authProof p ok owner domain sw port)
    s fun t => t.rd (.sec 2) .SEC_LINK_STAT_AUTH_STATUS p = 4 := by
  refine gives_awake hs rfl fun _ _ => ?_
  rw [look_run, when_pos hauth, if_neg (by simp [hok]), if_pos (by simpa using hown)]
  exact (authFails_fails (by decide)).1

theorem otherDomain_fails (p : PortId) (ok : Bool) (owner : BitVec 384) (domain : BitVec 128) (sw port : Nat) (hauth :
    s.inAuth p 2 = true) (hok : ok = true) (hown : owner.toNat = ofBytes s.ownerDigest) (hdom : domain.toNat ≠ s.domainId) :
    Gives (.authProof p ok owner domain sw port) s fun t => t.rd (.sec 2) .SEC_LINK_STAT_AUTH_STATUS p = 5 := by
  refine gives_awake hs rfl fun _ _ => ?_
  rw [look_run, when_pos hauth, if_neg (by simp [hok]), if_neg (by simpa using hown), if_pos (by simpa using hdom)]
  exact (authFails_fails (by decide)).1

theorem ownSwitch_fails (p : PortId) (ok : Bool) (owner : BitVec 384) (domain : BitVec 128) (sw port : Nat) (hauth : s.inAuth
    p 2 = true) (hok : ok = true) (hown : owner.toNat = ofBytes s.ownerDigest) (hdom : domain.toNat = s.domainId) (hself :
    s.selfSw = some sw) : Gives (.authProof p ok owner domain sw port) s fun t => t.rd (.sec 2) .SEC_LINK_STAT_AUTH_STATUS p =
    6 := by
  refine gives_awake hs rfl fun _ _ => ?_
  rw [look_run, when_pos hauth, if_neg (by simp [hok]), if_neg (by simpa using hown), if_neg (by simpa using hdom), if_pos (by simp [hself])]
  exact (authFails_fails (by decide)).1

theorem debugPartner_fails (p : PortId) (ok : Bool) (owner : BitVec 384) (domain : BitVec 128) (sw port : Nat) (hauth :
    s.inAuth p 2 = true) (hok : ok = true) (hown : owner.toNat = ofBytes s.ownerDigest) (hdom : domain.toNat = s.domainId)
    (hsw : s.rd (.bridge 4) .BRIDGE_FAB_NBR_PARTNER_SW p = sw) (hport : s.rd (.bridge 4) .BRIDGE_FAB_NBR_PARTNER_PORT p =
    port) (hself : s.selfSw ≠ some sw) (hdebug : s.ivOn .authDebug p = true) (hreject : s.ivOn .rejectDebug = true) : Gives
    (.authProof p ok owner domain sw port) s fun t => t.rd (.sec 2) .SEC_LINK_STAT_AUTH_STATUS p = 7 := by
  refine gives_awake hs rfl fun _ _ => ?_
  rw [look_run, when_pos hauth, if_neg (by simp [hok]), if_neg (by simpa using hown), if_neg (by simpa using hdom),
    if_neg (by simp [hsw, hport, hself]), if_pos (by simp [hdebug, hreject])]
  exact (authFails_fails (by decide)).1

theorem authDone_entersProvisional (p : PortId) (hauth : s.inAuth p 3 = true) : Gives (.authDone p true) s fun t => t.link p =
    lsPROVISIONAL ∧ t.rd (.port p) .PORT_LINK_STAT_ENC = 1 ∧ t.rd (.sec 2) .SEC_LINK_STAT_AUTH_OK p = 1 ∧ t.rd (.port p)
    .PORT_LINK_STAT_KEY_PHASE = 0 ∧ t.iv .txNum p = 0 := by
  refine gives_awake hs rfl fun _ _ => ?_
  have hkey := supplyKey_in (Foot.le_refl _) p
  rw [look_run, when_pos hauth, if_neg (by simp)]
  simp +decide [State.link, rd_of_in hkey, iv_of_in hkey, forEach]

theorem badMac_fails (p : PortId) (hauth : s.inAuth p 3 = true) (hheld : s.linkHeld p = false) : Gives (.authDone p false) s
    fun t => t.link p = lsDOWN ∧ t.rd (.sec 2) .SEC_LINK_STAT_AUTH_STATUS p = 7 := by
  refine gives_awake hs rfl fun _ _ => ?_
  obtain ⟨hcode, hlink⟩ := authFails_fails (s := s) (p := p) (code := 7) (by decide)
  rw [look_run, when_pos hauth, if_pos (by simp)]
  exact ⟨hlink.trans (restState_fab (inAuth_fab hauth) hheld), hcode⟩

theorem pcieDown_reachesL0 (p : PortId) (w : Fin 5) (r : Fin 6) (f rev : Bool) (inv : BitVec 16) (aspm : BitVec 2) (hrole :
    s.role p = roleDOWN) (hlow : lsDETECT ≤ s.link p) (hhigh : s.link p < lsRECOVERY) (hdis : s.on (.port p)
    .PORT_LINK_CTRL_DISABLE = false) (hclock : s.noClock p = false) (hwide : s.belowMin p (2 ^ min w.val (s.pcieWidest p)) =
    false) (hrate : min (r.val + 1) (s.pcieFastest p) ≠ 0) : Gives (.pcieLinkUp p w r f rev inv aspm) s fun t => t.link p =
    lsL0 ∧ t.rd (.port p) .PORT_LINK_STAT_RATE_NOW = min (r.val + 1) (s.pcieFastest p) ∧ t.iv .partnerAspm p = aspm.toNat ∧
    t.rd (.port p) .PORT_LINK_STAT_FLIT = b2n (min (r.val + 1) (s.pcieFastest p) == 6 || (f && s.on (.port p)
    .PORT_CFG_FLIT_BELOW)) := by
  refine gives_awake hs rfl fun _ keeps => ?_
  have hrate6 : min (r.val + 1) (s.pcieFastest p) < 16 := by omega
  obtain ⟨hlink0, hnow, haspm, hflit⟩ := pcieComesUp_shows (s := s) p (min w.val (s.pcieWidest p)) hrate6 f rev inv aspm
  have hdone := pcieTrained_in s p
  have hfab : s.isFab p = false := by simp [State.isFab, hrole, roleDOWN, roleFAB]
  rw [look_run, when_pos (by simp [hfab, hrole, hlow, hdis, hclock, hrate, roleDOWN, roleUP, Nat.le_of_lt hhigh]), if_neg (by simp [hwide]),
    if_neg (by simp [Nat.ne_of_lt hhigh])]
  have hshows : ∀ f ∈ [Fld.PORT_LINK_STAT_STATE, .PORT_LINK_STAT_RATE_NOW, .PORT_LINK_STAT_FLIT], f ∈ tabPORT ∧
      (Fam.port, f) ∉ Foot.pcieTrained.regs := by
    decide +kernel
  have hkept : ∀ f ∈ [Fld.PORT_LINK_STAT_STATE, .PORT_LINK_STAT_RATE_NOW, .PORT_LINK_STAT_FLIT], ∀ t : State, [Fact t.wf] →
      ((pcieTrained s p).run t).rd (.port p) f = t.rd (.port p) f :=
          fun f hf t _ => rd_of_in hdone (own_mem (pg := .port _) (hshows f hf).1) (hshows f hf).2
  exact ⟨(hkept _ (by decide) _).trans hlink0, (hkept _ (by decide) _).trans hnow, (iv_of_in hdone (by decide)).trans haspm,
    (hkept _ (by decide) _).trans hflit⟩

theorem pcieUp_reachesL0 (p : PortId) (w : Fin 5) (r : Fin 6) (f rev : Bool) (inv : BitVec 16) (aspm : BitVec 2) (g : FaceId)
    (hrole : s.role p = roleUP) (hface : s.faceOf p = some g.val) (hperst : s.ivOn .fperst g = true) (hlow : lsDETECT ≤ s.link
    p) (hhigh : s.link p < lsRECOVERY) (hdis : s.on (.port p) .PORT_LINK_CTRL_DISABLE = false) (hclock : s.noClock p = false)
    (hwide : s.belowMin p (2 ^ min w.val (s.pcieWidest p)) = false) (hrate : min (r.val + 1) (s.pcieFastest p) ≠ 0) : Gives
    (.pcieLinkUp p w r f rev inv aspm) s fun t => t.link p = lsL0 ∧ t.rd (.face g) .FACE_BIND_STATE = 2 := by
  refine gives_awake hs rfl fun _ keeps => ?_
  have hrate6 : min (r.val + 1) (s.pcieFastest p) < 16 := by omega
  obtain ⟨hlink0, -⟩ := pcieComesUp_shows (s := s) p (min w.val (s.pcieWidest p)) hrate6 f rev inv aspm
  have hdone := pcieTrained_in s p
  have hfab : s.isFab p = false := by simp [State.isFab, hrole, roleUP, roleFAB]
  rw [look_run, when_pos (by simp [hfab, hrole, hface, hperst, hlow, hdis, hclock, hrate, roleUP, Nat.le_of_lt hhigh]), if_neg (by simp [hwide]),
    if_neg (by simp [Nat.ne_of_lt hhigh])]
  refine ⟨(rd_of_in hdone (own_mem (pg := .port _) (show Fld.PORT_LINK_STAT_STATE ∈ tabPORT by decide))
      (show (Fam.port, _) ∉ _ by decide +kernel)).trans hlink0, ?_⟩
  exact (pcieTrained_binds hrole hface _)

theorem pcieRecovers (p : PortId) (w : Fin 5) (r : Fin 6) (f rev : Bool) (inv : BitVec 16) (aspm : BitVec 2) (hrole : s.role p
    = roleDOWN) (hlink : s.link p = lsRECOVERY) (hdis : s.on (.port p) .PORT_LINK_CTRL_DISABLE = false) (hclock : s.noClock p
    = false) (hwide : s.belowMin p (2 ^ min w.val (s.pcieWidest p)) = false) (hrate : min (r.val + 1) (s.pcieFastest p) ≠ 0) :
    Gives (.pcieLinkUp p w r f rev inv aspm) s fun t => t.link p = lsL0 := by
  refine gives_awake hs rfl fun _ keeps => ?_
  have hrate6 : min (r.val + 1) (s.pcieFastest p) < 16 := by omega
  obtain ⟨hlink0, hnow, haspm, hflit⟩ := pcieComesUp_shows (s := s) p (min w.val (s.pcieWidest p)) hrate6 f rev inv aspm
  have hdone := fun gone use fewer => pcieRetrained_in s p gone use fewer
  have hfab : s.isFab p = false := by simp [State.isFab, hrole, roleDOWN, roleFAB]
  rw [look_run, when_pos (by simp [hfab, hrole, hlink, hdis, hclock, hrate, roleDOWN, roleUP, lsDETECT, lsRECOVERY]), if_neg (by simp [hwide]),
    if_pos (by simp [hlink])]
  exact (rd_of_in (hdone _ _ _) (own_mem (pg := .port _) (show Fld.PORT_LINK_STAT_STATE ∈ tabPORT by decide))
      (show (Fam.port, _) ∉ _ by decide +kernel)).trans hlink0

theorem pcieRollover_recovers (p : PortId) (n : Fin 256) (hfab : s.isFab p = false) (hcarries : s.carries p = true) : Gives
    (.pcieReplayNumRollover p n) s fun t => t.link p = lsRECOVERY ∧ t.rd (.port p) .PORT_REPLAY_CNT_CONSEC = n := by
  refine gives_awake hs rfl fun _ _ => ?_
  rw [look_run, when_pos (by simp [hfab, hcarries])]
  simp +decide [State.link]
  exact Nat.mod_eq_of_lt n.isLt

end

/-- Settles O8: one lemma for each event of a training and each of its conditions. -/
theorem trainingCompletes : Obligations.TrainingCompletes := by
  intro s hs
  exact ⟨bPllLocks_shows hs, aPllLocks_shows hs, bPllLocks_trains hs, bPllUnlocks_shows hs, signal_shows hs, dwellEnds_detects
    hs, aPllUnlocks_shows hs, trainTimeout_fails hs, absent_shows hs, secondAlign_locks hs, firstAlign_isSeen hs,
    alignAfterRest_locks hs, align_numbersLane hs, badAlign_misses hs, trainBlock_exchanges hs, invertedTrainBlock_turns hs,
    paramBlock_isKept hs, paramRepeat_sends hs, hello_answers hs, hello_rekeys hs, goodCert_proves hs, goodProof_isAccepted
    hs, badSignature_fails hs, otherOwner_fails hs, otherDomain_fails hs, ownSwitch_fails hs, debugPartner_fails hs,
    authDone_entersProvisional hs, badMac_fails hs, pcieDown_reachesL0 hs, pcieUp_reachesL0 hs, pcieRecovers hs,
    pcieRollover_recovers hs⟩

end Sys2Proof.Machine
end

section
/-! PROOF. The boot: the ROM checks, the choice, start and confirmation of firmware, and the configuration image (R136 to R157). -/

namespace Sys2Proof.Machine

set_option Elab.async false


section
variable {α : Type} {l : List α} {f : α → Upd} {Q : State → Prop}

/-- What one round of a loop does stays, when every round keeps it. -/
theorem forEach_sets {a : α} (ha : a ∈ l) (hat : ∀ t : State, [Fact t.wf] → Q ((f a).run t))
    (hQ : ∀ b ∈ l, ∀ t : State, [Fact t.wf] → Q t → Q ((f b).run t)) (s : State) [Fact s.wf] : Q ((forEach l f).run s) := by
  induction l generalizing s with
  | nil => exact absurd ha List.not_mem_nil
  | cons b l ih =>
    have := Upd.keeps_fact (f b) s
    rw [forEach_cons_run]
    rcases List.mem_cons.1 ha with rfl | hmem
    · exact forEach_keeps (fun c hc => hQ c (List.mem_cons_of_mem _ hc)) _ (hat s)
    · exact ih hmem (fun c hc => hQ c (List.mem_cons_of_mem _ hc)) _

end

/-- A field that a list of pages takes reads its value on each of them. -/
theorem rd_forEach_wr {l : List Pg} {pg : Pg} {f : Fld} (hf : ∀ q ∈ l, f ∈ q.fields) (hp : pg ∈ l) (v : Nat) (s : State) [Fact s.wf] :
    ((forEach l fun q => wr q f v).run s).rd pg f = v % 2 ^ f.width := by
  refine forEach_sets (Q := fun t => t.rd pg f = v % 2 ^ f.width) hp (fun t _ => rd_wr ..) (fun q hq t _ ht => ?_) s
  by_cases he : pg = q
  · rw [he]
    exact rd_wr ..
  · rw [rd_wr_of_page_ne (hf q hq) (hf pg hp) he, ht]

/-- Pages that are unlocked read so. -/
theorem unlockPages_unlock {l : List Pg} (hl : ∀ q ∈ l, q.common = true) {pg : Pg} (hp : pg ∈ l) {s : State} [Fact s.wf] :
    ((forEach l unlockPage).run s).rd pg .PAGE_LOCK_LOCKED = 0 := by
  have hrun : unlockPage = fun q => wr q .PAGE_LOCK_LOCKED 0 := rfl
  rw [hrun, rd_forEach_wr (fun q hq => hdr_mem (hl q hq) (by decide)) hp]
  rfl

/-! ### The directory of the flash and its slots -/

section
variable {s : State} [Fact s.wf]

@[simp] theorem rd_slotSet {pg : Pg} {f : Fld} (hm : f ∈ pg.fields) (k st i : Nat) : ((slotSet k st).run s).rd pg f i = s.rd pg f i :=
  rd_of_in (slotSet_in (Foot.le_refl _) k st) hm List.not_mem_nil

@[simp] theorem rd_slotTried {pg : Pg} {f : Fld} (hm : f ∈ pg.fields) (k i : Nat) : ((slotTried k).run s).rd pg f i = s.rd pg f i :=
  rd_of_in (slotTried_in (Foot.le_refl _) k) hm List.not_mem_nil

@[simp] theorem rd_dirLoad {pg : Pg} {f : Fld} (hm : f ∈ pg.fields) (c i : Nat) : ((dirLoad c).run s).rd pg f i = s.rd pg f i :=
  rd_of_in (dirLoad_in (Foot.le_refl _) c) hm List.not_mem_nil

/-- A slot has the state it was given. -/
@[simp] theorem slotState_slotSet (k st : Nat) : ((slotSet k st).run s).iv .slotState k = st := by
  have := Upd.keeps_fact
  simp only [slotSet, all_cons_run, all_nil_run, iv_of_in (dirRewrite_in (Foot.le_refl _)) (show Var.slotState ∉ _ by decide), iv_put,
    and_self, if_true]

/-- The copy of the directory that is read tells the flash in use. -/
theorem dirFlash_dirLoad (c : Nat) : ((dirLoad c).run s).iv .dirFlash = c / 2 := by
  have := Upd.keeps_fact
  have hslots : ∀ f g : Nat → Nat, (forBelow 4 fun k => all [put .slotState (f k) k, put .slotTries (g k) k]).In
      { vars := [.slotState, .slotTries] } :=
    fun f g => forBelow_in fun k => all_cons_in (put_in (by decide)) <| all_cons_in (put_in (by decide)) all_nil_in
  simp only [dirLoad, look_run, all_cons_run, all_nil_run]
  rw [iv_of_in (hslots (fun k => s.iv .dirSlot (4 * c + k) % 4) fun k => s.iv .dirSlot (4 * c + k) / 4) (by decide), iv_put,
    if_pos ⟨rfl, rfl⟩]

/-! ### Fallback states (Table BOOT-12) -/

/-- ROM_RECOVERY is entered with its code. -/
theorem romRecovery_enters (code : Nat) : ((romRecovery code).run s).device = dvROM_RECOVERY ∧
    ((romRecovery code).run s).rd .glb .GLB_DEV_STATE_BOOT_ERR = code % 256 ∧ ((romRecovery code).run s).iv .fwSel = s.iv .fwSel ∧
    ∀ k, ((romRecovery code).run s).iv .slotState k = s.iv .slotState k := by
  have := Upd.keeps_fact
  have hplates := platesEmpty_in (Foot.le_refl _)
  have hclear := fallbackClear_in (Foot.le_refl _)
  have hconfig := fallbackConfig_in (Foot.le_refl _)
  have hin := romRecovery_in (Foot.le_refl _) code
  refine ⟨?_, ?_, iv_of_in hin (by decide +kernel), fun k => iv_of_in hin (by decide +kernel)⟩
  all_goals
    simp only [State.device, romRecovery, all_cons_run, all_nil_run]
    rw [rd_of_in hconfig (by decide +kernel) (by decide +kernel), rd_of_in hclear (by decide +kernel) (by decide +kernel),
      rd_of_in hplates (by decide +kernel) (by decide +kernel)]
    simp +decide [toDevice, bootErr]
  rfl

/-- The empty plates: plate 0 is live, and plate 1 is not verified. -/
theorem platesEmpty_live : (platesEmpty.run s).rd (.route 0) .ROUTE_LIVE_SEL_LIVE = 0 ∧
    (platesEmpty.run s).rd (.route 0) (plateVerFld 1) = 0 := by
  have := Upd.keeps_fact
  simp only [platesEmpty, all_cons_run, all_nil_run, plateVerFld]
  constructor
  · rw [rd_wr_of_ne (by decide) (by decide) (by decide), rd_wr_of_ne (by decide) (by decide) (by decide), put_run_rd, clearIv_run_rd,
      rd_wr_of_ne (by decide) (by decide) (by decide), rd_wr_of_ne (by decide) (by decide) (by decide),
      rd_wr_of_ne (by decide) (by decide) (by decide), rd_wr_of_ne (by decide) (by decide) (by decide), rd_wr]
    rfl
  · rw [rd_wr_of_ne (by decide) (by decide) (by decide), rd_wr_of_ne (by decide) (by decide) (by decide), put_run_rd, clearIv_run_rd,
      if_neg (by decide), rd_wr]
    rfl

/-- What BRINGUP does, whichever pages it locks: empty plates, and the grant of F0. -/
theorem bringup_locking_enters (c : Bool) {l : List Pg} (hl : ∀ pg ∈ l, pg.common = true) {t : State}
    (ht : t = (when_ c (forEach l lockPage)).run ((toDevice dvBRINGUP).run (fallbackConfig.run (fallbackClear.run (platesEmpty.run s))))) :
    t.device = dvBRINGUP ∧ t.live = 0 ∧ t.rd (.route 0) (plateVerFld 1) = 0 ∧ t.granted? 0 = true := by
  have := Upd.keeps_fact
  have hclear := fallbackClear_in (Foot.le_refl _)
  have hconfig := fallbackConfig_in (Foot.le_refl _)
  have hlock : (when_ c (forEach l lockPage)).In Foot.lockPage :=
    when_in <| forEach_mem_in fun pg hpg => lockPage_in (Foot.le_refl _) (hl pg hpg)
  have hgrant : ∀ t : State, [Fact t.wf] → (fallbackConfig.run t).rd (.sec 0) .SEC_GRANT_MASK = 1 := fun t _ => by
    simp only [fallbackConfig, all_cons_run, all_nil_run, setGrant, rd_wr]
    rfl
  simp only [State.device, State.live, State.granted?]
  subst ht
  refine ⟨?_, ?_, ?_, ?_⟩
  · rw [rd_of_in hlock (by decide) (by decide +kernel)]
    simp +decide [toDevice]
  all_goals rw [rd_of_in hlock (by decide) (by decide +kernel), toDevice, rd_wr_of_page_ne (by decide) (by decide) (by decide)]
  · rw [rd_of_in hconfig (by decide) (by decide +kernel), rd_of_in hclear (by decide) (by decide +kernel)]
    exact platesEmpty_live.1
  · rw [rd_of_in hconfig (by decide) (by decide +kernel), rd_of_in hclear (by decide) (by decide +kernel)]
    exact platesEmpty_live.2
  · rw [hgrant]
    rfl

/-- So BRINGUP is entered. -/
theorem bringup_enters : (bringup.run s).device = dvBRINGUP ∧ (bringup.run s).live = 0 ∧ (bringup.run s).rd (.route 0) (plateVerFld 1) = 0 ∧
    (bringup.run s).granted? 0 = true :=
  bringup_locking_enters s.owned (fun _ hpg => commonPages_common (List.mem_filter.1 hpg).1) rfl

end

/-! ### A refused image (R138) -/

section
variable {s : State} [h : Fact s.wf]

/-- The boot error outlasts a warm reset. -/
theorem bootErr_warmReset (cause : Nat) : ((warmReset cause).run s).rd .glb .GLB_DEV_STATE_BOOT_ERR = s.rd .glb .GLB_DEV_STATE_BOOT_ERR := by
  have := Upd.keeps_fact
  have hclear : ∀ t : State, [Fact t.wf] → (warmClear.run t).rd .glb .GLB_DEV_STATE_BOOT_ERR = t.rd .glb .GLB_DEV_STATE_BOOT_ERR :=
    fun t ht => congrArg (· % _) (get_keep_of (p := warmKeeps) ht.out.1 _ (by decide +kernel))
  rw [warmReset_run, rd_of_in (warmRest_in s cause) (by decide +kernel) (by decide +kernel), put_run_rd, hclear,
    rd_of_in (warmFirst_in s) (by decide +kernel) (by decide +kernel)]

/-- A refused image leaves its slot INVALID and the code in BOOT_ERR, through a warm reset. -/
theorem cfgFails_resets (ha : s.inReset = false) (k code : Nat) : ((cfgFails k code).run s).iv .dieReset = drWARM ∧
    ((cfgFails k code).run s).iv .slotState k = slINVALID ∧ ((cfgFails k code).run s).rd .glb .GLB_DEV_STATE_BOOT_ERR = code % 256 ∧
    ((cfgFails k code).run s).rd .glb .GLB_RESET_CAUSE_LAST = rcREG := by
  have := Upd.keeps_fact
  have hset := slotSet_in (Foot.le_refl _) k slINVALID
  obtain ⟨u, hu⟩ : ∃ u, u = (slotSet k slINVALID).run ((bootErr code).run s) := ⟨_, rfl⟩
  have hfact : Fact u.wf := hu ▸ inferInstance
  have hrun : (cfgFails k code).run s = (warmReset rcREG).run u := by
    have hawake : u.inReset = false := by
      rw [hu, State.inReset, State.ivOn, iv_of_in hset (by decide)]
      exact ha
    simp only [cfgFails, all_cons_run, all_nil_run, ← hu, warmByRegister, look_run, hawake, Bool.not_false, when_true_run]
  obtain ⟨hlast, -, -⟩ := warmReset_cause (s := u) rcREG
  refine hrun ▸ ⟨dieReset_warmReset rcREG, ?_, ?_, hlast⟩
  · rw [iv_warmReset _ (by decide) (by decide), hu, slotState_slotSet]
  · rw [bootErr_warmReset, hu, rd_slotSet (by decide), bootErr, rd_wr]
    rfl

end

/-- A boot in ROM chooses a slot when HALT_N is released. -/
theorem romBoots {s : State} (ha : s.ivOn .dieReset = false) (hdev : s.device = dvROM) (hrel : s.ivOn .haltRel = true) (hsel : s.iv .fwSel = 0)
    (u : Upd) : (when_ (!s.inReset && !s.safeHalt && (s.device == dvROM && s.ivOn .haltRel ||
      s.rd (.mgmt 0) .MGMT_FW_STAT_STATE == fsRESTARTING) && !s.ivOn .fwSel) u).run s = u.run s := by
  have hhalt : s.safeHalt = false := by
    rw [State.safeHalt, show s.rd .glb .GLB_DEV_STATE_STATE = 1 from hdev]
    rfl
  have hawake : s.inReset = false := ha
  have hfree : s.ivOn .fwSel = false := by simp [State.ivOn, hsel]
  rw [when_pos]
  simp [hawake, hhalt, hdev, hrel, hfree]

/-- The code of a header is one of Table BOOT-5. -/
theorem headerCode_lt (s : State) (kind : Nat) (h : ImgHeader) : s.headerCode kind h < 8 := by
  unfold State.headerCode
  dsimp only
  split_ifs <;> decide

/-- An image that is refused while a section of it is applied. -/
theorem sectionRefused_resets {s : State} [Fact s.wf] (ha : s.inReset = false) (n code : Nat) {t : State}
    (ht : t = (imageRefused code).run ((put .cfgDone n).run s)) : t.iv .dieReset = drWARM ∧ t.iv .slotState (s.iv .cfgSel + 1) = slINVALID ∧
      t.rd .glb .GLB_DEV_STATE_BOOT_ERR = code % 256 ∧ t.rd .glb .GLB_RESET_CAUSE_LAST = rcREG := by
  have := Upd.keeps_fact (put .cfgDone n) s
  have hawake : ((put .cfgDone n).run s).inReset = false := by
    rw [State.inReset, State.ivOn, iv_put, if_neg (by decide)]
    exact ha
  have hsel : ((put .cfgDone n).run s).iv .cfgSel = s.iv .cfgSel := by rw [iv_put, if_neg (by decide)]
  rw [imageRefused, look_run, hsel] at ht
  exact ht ▸ cfgFails_resets hawake (s.iv .cfgSel + 1) code

/-- A hatch list that the loader takes: its length, its VERIFIED bit, and list A pending. -/
theorem hatchApply_arms {s : State} [Fact s.wf] (p : PortId) (l : Bool) {es : List Nat} (hport : s.ivOn .cfgPorts p = true)
    (hlist : hatchOk es = true) : ((hatchApply p (b2n l) es).run s).hatchCount p (b2n l) = es.length ∧
      ((hatchApply p (b2n l) es).run s).rd (.sched p) (hatchVerFld (b2n l)) = 1 ∧
      (l = false → ((hatchApply p (b2n l) es).run s).hatchState p 0 = hlPENDING) := by
  have := Upd.keeps_fact
  have harms := fun n => loaderArms_in (Foot.le_refl _) p n
  have hlen : es.length < 512 := by
    simp only [hatchOk, Bool.and_eq_true, decide_eq_true_eq] at hlist
    omega
  rw [hatchApply, look_run, if_neg (by simp [hport, hlist])]
  simp only [all_cons_run, all_nil_run, State.hatchCount]
  refine ⟨?_, ?_, ?_⟩
  · cases l <;> simp +decide [hatchCountFld, hatchVerFld, rd_of_in (harms _)] <;> exact Nat.mod_eq_of_lt hlen
  · cases l <;> simp +decide [hatchVerFld, rd_of_in (harms _)]
  · rintro rfl
    simp +decide [loaderArms, State.hatchState, hatchStateFld]

/-- Plate `k` of an image becomes the live one. -/
def plateGoesLive (k : Nat) : Upd :=
  all [wr (.route 0) .ROUTE_LIVE_SEL_LIVE k, wr (.route 0) (plateStateFld k) plLIVE, wr (.route 0) (plateStateFld (1 - k)) plDRAFT,
       wr (.route 0) (plateVerFld 0) 1, wr (.route 0) (plateVerFld 1) 1]

theorem plateGoesLive_live {s : State} [h : Fact s.wf] {k : Nat} (hk : k < 2) : ((plateGoesLive k).run s).live = k ∧
    ((plateGoesLive k).run s).rd (.route 0) (plateStateFld k) = plLIVE ∧ ((plateGoesLive k).run s).rd (.route 0) (plateVerFld k) = 1 := by
  have := Upd.keeps_fact
  obtain rfl | rfl : k = 0 ∨ k = 1 := by omega
  all_goals
    simp only [plateGoesLive, all_cons_run, all_nil_run, State.live, plateStateFld, plateVerFld]
    simp +decide

/-- The first PLATE section of an image, with one entry: the entry is stored, and its plate becomes the live one. -/
theorem plateApply_fills {s : State} [h : Fact s.wf] {k i : Nat} (hk : k < 2) (hi : i < 524288) (v : Nat) (hmet : s.iv .cfgPlates = 0)
    (hkeep : s.ivOn .cfgKeep = false) : ∃ t : State, ∃ _ : Fact t.wf, (plateApply k true [(i, [v])]).run s = (plateGoesLive k).run t ∧
      ((plateGoesLive k).run t).iv .plate (k * 524288 + i) = v ∧ ((plateGoesLive k).run t).iv .cfgDone = s.iv .cfgDone := by
  have := Upd.keeps_fact
  have hplates := platesEmpty_in (Foot.le_refl _)
  have hruns : runEntries [(i, [v])] = [(i, v)] := rfl
  obtain ⟨z, hz⟩ : ∃ z, z = platesEmpty.run ((put .cfgPlates (setBit (if True then setBit 0 2 else 0) k)).run s) := ⟨_, rfl⟩
  have hfact : Fact z.wf := hz ▸ this _ _
  have hdone : z.iv .cfgDone = s.iv .cfgDone := by rw [hz, iv_of_in hplates (by decide), iv_put, if_neg (by decide)]
  obtain ⟨y, hy⟩ : ∃ y, y = (put .plate v (k * 524288 + i)).run z := ⟨_, rfl⟩
  have hfact' : Fact y.wf := hy ▸ this _ _
  rw [plateApply, look_run]
  simp only [hmet, hruns, hkeep]
  rw [if_neg (by simp [hk, hi])]
  simp only [all_cons_run, all_nil_run, look_run, Bool.not_false, when_true_run, beq_self_eq_true, forEach_cons_run, forEach_nil_run, ← hz,
    ← hy]
  refine ⟨(wr (.route 0) .ROUTE_GEN_GENERATION (dword (y.entry k 0) 1) k).run y, this _ _, ?_, ?_, ?_⟩
  · simp only [plateGoesLive, all_cons_run, all_nil_run]
  · simp only [plateGoesLive, all_cons_run, all_nil_run, wr_run_iv, hy, iv_put, and_self, if_true]
  · simp only [plateGoesLive, all_cons_run, all_nil_run, wr_run_iv, hy]
    rw [iv_put, if_neg (by simp), hdone]

/-- A part in another device state is not in Safe Halt. -/
theorem device_halt {s : State} {d : Nat} (hdev : s.device = d) (hne : d ≠ 8) : s.safeHalt = false := by
  have hst : s.rd .glb .GLB_DEV_STATE_STATE = d := hdev
  simp [State.safeHalt, hst, hne]

section
variable {s : State} (hs : s.Awake)
include hs

theorem romChecks_ready (pg : Pg) (hdev : s.device = dvROM) (hrel : s.iv .haltRel = 0) (hshut : s.iv .shutdown = 0) (hpg : pg
    ∈ commonPages) (hreset : s.on pg .BLK_CTRL_SOFT_RESET = false) : Gives (.romChecksDone true) s fun t => t.iv .haltRel = 1
    ∧ t.rd pg .BLK_STAT_READY = 1 := by
  refine gives_awake hs rfl fun _ keeps => ?_
  have hmem : pg ∈ commonPages.filter fun pg => !s.on pg .BLK_CTRL_SOFT_RESET := List.mem_filter.2 ⟨hpg, by simp [hreset]⟩
  have hready : ∀ q ∈ commonPages.filter fun pg => !s.on pg .BLK_CTRL_SOFT_RESET, Fld.BLK_STAT_READY ∈ q.fields :=
    fun q hq => hdr_mem (commonPages_common (List.mem_filter.1 hq).1) (by decide)
  obtain ⟨l, hl⟩ : ∃ l, l = commonPages.filter fun pg => !s.on pg .BLK_CTRL_SOFT_RESET := ⟨_, rfl⟩
  rw [← hl] at hmem hready
  have hawake : s.inReset = false := hs.2
  rw [look_run, when_pos (by simp [hawake, hdev, State.ivOn, hrel]), if_neg (by simp), ← hl]
  simp only [all_cons_run, all_nil_run, State.ivOn, hshut, bne_self_eq_false, Bool.false_eq_true, if_false]
  exact ⟨by rw [iv_put, if_pos ⟨rfl, rfl⟩], (put_run_rd ..).trans (rd_forEach_wr hready hmem 1 s)⟩

theorem romChecks_halt (hdev : s.device = dvROM) (hrel : s.iv .haltRel = 0) : Gives (.romChecksDone false) s fun t =>
    t.safeHalt = true ∧ t.rd (.guard 0) .GUARD_HALT_CAUSE_CAUSE = hcROM ∧ t.iv .haltRel = 0 := by
  refine gives_awake hs rfl fun _ keeps => ?_
  obtain ⟨hhalt, hhigh, hcause, -⟩ := safeHaltNow_halts (device_halt hdev (by decide)) hcROM 0 0 0
  have hawake : s.inReset = false := hs.2
  rw [look_run, when_pos (by simp [hawake, hdev, State.ivOn, hrel])]
  exact ⟨hhalt, hcause, hhigh⟩

theorem slotSelect_good (sfdp : BitVec 2) (crc : BitVec 4) (hA hB : ImgHeader) (c k : Nat) (r : List Nat) (u : State) (hdev :
    s.device = dvROM) (hrel : s.ivOn .haltRel = true) (hsel : s.iv .fwSel = 0) (hflash : sfdp ≠ 0) (hdir : s.dirPick sfdp crc
    = some c) (hu : u = (dirLoad c).run s) (hcases : u.slotCases 0 = k :: r) (hcode : u.headerCode 0 (if k = 0 then hA else
    hB) = 0) : Gives (.firmwareSlotSelect sfdp crc hA hB) s fun t => t.iv .fwSel = k + 1 ∧ t.device = dvROM ∧ t.iv .dirFlash =
    c / 2 ∧ t.rd .glb .GLB_DEV_STATE_BOOT_ERR = s.rd .glb .GLB_DEV_STATE_BOOT_ERR := by
  refine gives_awake hs rfl fun _ keeps => ?_
  have htried := slotTried_in (Foot.le_refl _) k
  have hfact : Fact u.wf := hu ▸ keeps _ _
  rw [look_run, romBoots hs.2 hdev hrel hsel, if_neg (by simpa using hflash), hdir]
  simp only [all_cons_run, all_nil_run, look_run, ← hu, hcases, romSelect]
  rw [if_pos (by simpa using hcode), State.device, put_run_rd, put_run_rd, rd_slotTried (by decide), rd_slotTried (by decide), iv_put, iv_put,
    if_pos ⟨rfl, rfl⟩, if_neg (by decide), iv_of_in htried (by decide), hu, rd_dirLoad (by decide), rd_dirLoad (by decide), dirFlash_dirLoad]
  exact ⟨rfl, hdev, rfl, rfl⟩

theorem slotSelect_bad (sfdp : BitVec 2) (crc : BitVec 4) (hA hB : ImgHeader) (c k : Nat) (u : State) (hdev : s.device =
    dvROM) (hrel : s.ivOn .haltRel = true) (hsel : s.iv .fwSel = 0) (hflash : sfdp ≠ 0) (hdir : s.dirPick sfdp crc = some c)
    (hu : u = (dirLoad c).run s) (hcases : u.slotCases 0 = [k]) (hcode : u.headerCode 0 (if k = 0 then hA else hB) ≠ 0) :
    Gives (.firmwareSlotSelect sfdp crc hA hB) s fun t => t.iv .slotState k = slINVALID ∧ t.device = dvROM_RECOVERY ∧ t.rd
    .glb .GLB_DEV_STATE_BOOT_ERR = 3 ∧ t.iv .fwSel = 0 := by
  refine gives_awake hs rfl fun _ keeps => ?_
  have hload := dirLoad_in (Foot.le_refl _) c
  have htried := slotTried_in (Foot.le_refl _) k
  have hfact : Fact u.wf := hu ▸ keeps _ _
  have hset := slotSet_in (Foot.le_refl _) k slINVALID
  rw [look_run, romBoots hs.2 hdev hrel hsel, if_neg (by simpa using hflash), hdir]
  simp only [all_cons_run, all_nil_run, look_run, ← hu, hcases, romSelect]
  rw [if_neg (by simpa using hcode)]
  simp only [all_cons_run, all_nil_run]
  obtain ⟨old, hold⟩ : ∃ old, old = (u.headerCode 0 (if (k == 0) = true then hA else hB) == 6) := ⟨_, rfl⟩
  rw [← hold]
  have hsame : ∀ t : State, [Fact t.wf] → ∀ x i, ((when_ old (bootErr 6)).run t).iv x i = t.iv x i :=
    fun t _ x i => iv_of_in (when_in (c := old) (bootErr_in (Foot.le_refl _) 6)) List.not_mem_nil
  obtain ⟨hrec, herr, hfw, hslot⟩ := romRecovery_enters
    (s := (when_ old (bootErr 6)).run ((slotSet k slINVALID).run ((slotTried k).run u))) 3
  rw [hrec, herr, hfw, hslot, hsame, hsame, slotState_slotSet, iv_of_in hset (by decide), iv_of_in htried (by decide), hu,
    iv_of_in hload (by decide)]
  exact ⟨rfl, rfl, rfl, hsel⟩

theorem slotSelect_empty (sfdp : BitVec 2) (crc : BitVec 4) (hA hB : ImgHeader) (c : Nat) (hdev : s.device = dvROM) (hrel :
    s.ivOn .haltRel = true) (hsel : s.iv .fwSel = 0) (hflash : sfdp ≠ 0) (hdir : s.dirPick sfdp crc = some c) (hcases :
    ((dirLoad c).run s).slotCases 0 = []) : Gives (.firmwareSlotSelect sfdp crc hA hB) s fun t => t.device = dvROM_RECOVERY ∧
    t.rd .glb .GLB_DEV_STATE_BOOT_ERR = 3 := by
  refine gives_awake hs rfl fun _ keeps => ?_
  obtain ⟨hrec, herr, -, -⟩ := romRecovery_enters (s := (dirLoad c).run s) 3
  rw [look_run, romBoots hs.2 hdev hrel hsel, if_neg (by simpa using hflash), hdir]
  simp only [all_cons_run, all_nil_run, look_run, hcases, romSelect]
  exact ⟨hrec, herr⟩

theorem slotSelect_noDirectory (sfdp : BitVec 2) (crc : BitVec 4) (hA hB : ImgHeader) (hdev : s.device = dvROM) (hrel : s.ivOn
    .haltRel = true) (hsel : s.iv .fwSel = 0) (hflash : sfdp ≠ 0) (hdir : s.dirPick sfdp crc = none) : Gives
    (.firmwareSlotSelect sfdp crc hA hB) s fun t => t.device = dvROM_RECOVERY ∧ t.rd .glb .GLB_DEV_STATE_BOOT_ERR = 2 ∧ t.iv
    .fwSel = 0 := by
  refine gives_awake hs rfl fun _ keeps => ?_
  obtain ⟨hrec, herr, hfw, -⟩ := romRecovery_enters (s := s) 2
  rw [look_run, romBoots hs.2 hdev hrel hsel, if_neg (by simpa using hflash), hdir]
  exact ⟨hrec, herr, hfw.trans hsel⟩

theorem slotSelect_noFlash (sfdp : BitVec 2) (crc : BitVec 4) (hA hB : ImgHeader) (hdev : s.device = dvROM) (hrel : s.ivOn
    .haltRel = true) (hsel : s.iv .fwSel = 0) (hflash : sfdp = 0) : Gives (.firmwareSlotSelect sfdp crc hA hB) s fun t =>
    t.device = dvROM_RECOVERY ∧ t.rd .glb .GLB_DEV_STATE_BOOT_ERR = 1 ∧ t.iv .fwSel = 0 := by
  refine gives_awake hs rfl fun _ keeps => ?_
  obtain ⟨hrec, herr, hfw, -⟩ := romRecovery_enters (s := s) 1
  rw [look_run, romBoots hs.2 hdev hrel hsel, if_pos (by simpa using hflash)]
  exact ⟨hrec, herr, hfw.trans hsel⟩

theorem firmware_starts (hsel : s.ivOn .fwSel = true) (hdev : s.device = dvROM) : Gives (.firmwareStart) s fun t => t.device =
    dvFIRMWARE ∧ t.iv .fwSel = 0 ∧ t.rd .glb .GLB_DEV_STATE_FW_SLOT = (s.iv .fwSel - 1) % 4 ∧ t.iv .wdAt = s.now := by
  refine gives_awake hs rfl fun _ keeps => ?_
  have hstarts := firmwareStarts_in (Foot.le_refl _)
  have hdev' : (s.device == dvROM) = true := by simp [hdev]
  rw [look_run, when_pos (by simp [State.inReset, hs.2, hsel])]
  simp only [all_cons_run, all_nil_run]
  rw [State.device, rd_when, hdev', if_pos rfl, toDevice, rd_wr]
  simp +decide [rd_of_in hstarts, iv_of_in hstarts]
  rfl

theorem firmware_confirmed (st : Stamp) (v : Word) (hlock : s.locked (.mgmt 0) = false) (hgo : v.getLsbD 31 = true) (hunconf :
    s.ivOn .fwUnconf = true) (hp : s.pathOpen st = true) : Gives (.fwConfirm st v) s fun t => t.iv .fwUnconf = 0 ∧ t.iv
    .slotState (s.rd .glb .GLB_DEV_STATE_FW_SLOT) = slVALID ∧ t.arbAt 0 = max (min 63 (s.iv .slotSecVer (s.rd .glb
    .GLB_DEV_STATE_FW_SLOT))) (s.arbAt 0) := by
  refine gives_granted hs rfl hlock hp fun _ keeps => ?_
  have hset := fun k st => slotSet_in (Foot.le_refl _) k st
  have hgo' : v.toNat.testBit 31 = true := by rwa [BitVec.testBit_toNat]
  have harb : ∀ k n (t : State) [Fact t.wf], ((slotSet k n).run t).arb = t.arb := fun k n t ht => (hset k n t ht.out).arb (by decide)
  have hunconf' : ((grant st (.mgmt 0)).run s).ivOn .fwUnconf = true := by simpa +decide [State.ivOn] using hunconf
  rw [fwSlotWrite, look_run, hgo', hunconf', Bool.and_self, when_true_run]
  simp only [all_cons_run, all_nil_run]
  refine ⟨?_, ?_, ?_⟩
  · simp +decide [iv_of_in (hset _ _)]
  · simp +decide
  · rw [arbAt_raiseArb_self (Fact.out)]
    simp +decide [State.arbAt, harb]

theorem confirm_timeout (hunconf : s.ivOn .fwUnconf = true) (hfw : s.fwRuns = true) (hlim : (s.fifo .fwTimes).length < max 1
    (s.rd (.mgmt 0) .MGMT_FW_STAT_RESTART_LIMIT)) : Gives (.confirmTimeout) s fun t => t.rd .glb .GLB_DEV_STATE_BOOT_ERR = 9 ∧
    t.rd (.mgmt 0) .MGMT_FW_STAT_STATE = fsRESTARTING ∧ t.iv .fwUnconf = 0 := by
  refine gives_awake hs rfl fun _ keeps => ?_
  have hstarts := firmwareStarts_in (Foot.le_refl _)
  rw [look_run, when_pos (by simp [hunconf, hfw])]
  simp only [all_cons_run, all_nil_run, fwRestart, look_run]
  rw [if_neg (recent_lt _ (by simpa +decide [bootErr, fifo_of_in (bootErr_in (Foot.le_refl _) 9)] using hlim))]
  simp +decide [bootErr, rd_of_in hstarts]

theorem configHeader_good (h : ImgHeader) (k : Nat) (r : List Nat) (hdev : s.device = dvFIRMWARE) (hfw : s.fwRuns = true)
    (hcases : s.slotCases 1 = k :: r) (hcode : s.headerCode 1 h = 0) : Gives (.configHeaderVerify h) s fun t => t.device =
    dvCONFIG ∧ t.iv .cfgSel = k - 1 ∧ t.rd (.bridge 4) .BRIDGE_FAB_ID_SWITCH_ID = h.switchId % 256 ∧ t.iv .slotSeq k =
    h.sequence ∧ t.iv .cfgCount = h.table.length ∧ t.rd (.port 0) .PAGE_LOCK_LOCKED = 0 := by
  refine gives_awake hs rfl fun _ keeps => ?_
  have htable : (forEach h.table.zipIdx fun (e, i) => put .cfgTable e.toNat i).In { vars := [.cfgTable] } :=
    forEach_in fun x => put_in (by decide)
  have hunlock : (forEach commonPages unlockPage).In Foot.unlockPage :=
    forEach_mem_in fun pg hpg => unlockPage_in (Foot.le_refl _) (commonPages_common hpg)
  have hport : Pg.port 0 ∈ commonPages := by decide +kernel
  rw [look_run, when_pos (by simp [hdev, hfw]), hcases]
  simp only [all_cons_run, all_nil_run, hcode, bne_self_eq_false, Bool.false_eq_true, if_false]
  refine ⟨?_, ?_, ?_, ?_, ?_, ?_⟩
  · simp +decide [State.device, rd_of_in hunlock, rd_of_in (htable), toDevice]
  · simp +decide [iv_of_in hunlock, iv_of_in htable, toDevice]
  · simp +decide
    rfl
  · simp +decide [iv_of_in hunlock, toDevice]
  · simp +decide [iv_of_in hunlock, iv_of_in htable, toDevice]
  · iterate 5 rw [rd_wr_of_page_ne (by decide) (by decide) (by decide)]
    exact unlockPages_unlock (fun pg => commonPages_common) hport

theorem configHeader_bad (h : ImgHeader) (k : Nat) (r : List Nat) (hdev : s.device = dvFIRMWARE) (hfw : s.fwRuns = true)
    (hcases : s.slotCases 1 = k :: r) (hcode : s.headerCode 1 h ≠ 0) : Gives (.configHeaderVerify h) s fun t => t.iv .dieReset
    = drWARM ∧ t.iv .slotState k = slINVALID ∧ t.rd .glb .GLB_DEV_STATE_BOOT_ERR = s.headerCode 1 h := by
  refine gives_awake hs rfl fun _ keeps => ?_
  have hcode' : (s.headerCode 1 h != 0) = true := by simpa using hcode
  have hawake : ((slotTried k).run s).inReset = false := by
    rw [State.inReset, State.ivOn, iv_of_in (slotTried_in (Foot.le_refl _) k) (by decide)]
    exact hs.2
  obtain ⟨hreset, hslot, herr, -⟩ := cfgFails_resets hawake k (s.headerCode 1 h)
  rw [look_run, when_pos (by simp [hdev, hfw]), hcases]
  simp only [all_cons_run, all_nil_run, hcode', if_true]
  exact ⟨hreset, hslot, herr.trans (Nat.mod_eq_of_lt ((headerCode_lt s 1 h).trans (by decide)))⟩

theorem configHeader_none (h : ImgHeader) (hdev : s.device = dvFIRMWARE) (hfw : s.fwRuns = true) (hcases : s.slotCases 1 = [])
   : Gives (.configHeaderVerify h) s fun t => t.device = dvBRINGUP ∧ t.live = 0 ∧ t.rd (.route 0) (plateVerFld 1) = 0 ∧
    t.granted? 0 = true := by
  refine gives_awake hs rfl fun _ keeps => ?_
  rw [look_run, when_pos (by simp [hdev, hfw]), hcases]
  exact bringup_enters

theorem section_corrupt (payload : List Byte) (e : Nat) (hdev : s.device = dvCONFIG) (hnext : s.nextSection? = some e) (hok :
    sectionOk e (payload.map (·.toNat)) = false) : Gives (.configSectionApply payload) s fun t => t.iv .dieReset = drWARM ∧
    t.iv .slotState (s.iv .cfgSel + 1) = slINVALID ∧ t.rd .glb .GLB_DEV_STATE_BOOT_ERR = 5 ∧ t.rd .glb .GLB_RESET_CAUSE_LAST =
    rcREG := by
  refine gives_awake hs rfl fun _ keeps => ?_
  obtain ⟨hreset, hslot, herr, hlast⟩ := sectionRefused_resets hs.2 (s.iv .cfgDone + 1) 5 rfl
  rw [look_run, when_pos (by simp [hdev]), hnext]
  simp only [forSome, all_cons_run, all_nil_run, hok, Bool.not_false, if_true]
  exact ⟨hreset, hslot, herr, hlast⟩

theorem section_unformed (payload : List Byte) (e : Nat) (hdev : s.device = dvCONFIG) (hnext : s.nextSection? = some e) (hok :
    sectionOk e (payload.map (·.toNat)) = true) (hsec : sectionOf e (payload.map (·.toNat)) = none) : Gives
    (.configSectionApply payload) s fun t => t.iv .dieReset = drWARM ∧ t.iv .slotState (s.iv .cfgSel + 1) = slINVALID ∧ t.rd
    .glb .GLB_DEV_STATE_BOOT_ERR = 8 := by
  refine gives_awake hs rfl fun _ keeps => ?_
  obtain ⟨hreset, hslot, herr, -⟩ := sectionRefused_resets hs.2 (s.iv .cfgDone + 1) 8 rfl
  rw [look_run, when_pos (by simp [hdev]), hnext]
  simp only [forSome, all_cons_run, all_nil_run, hok, hsec, Bool.not_true, Bool.false_eq_true, if_false]
  exact ⟨hreset, hslot, herr⟩

theorem section_applies (payload : List Byte) (e : Nat) (x : Section) (hdev : s.device = dvCONFIG) (hnext : s.nextSection? =
    some e) (hok : sectionOk e (payload.map (·.toNat)) = true) (hsec : sectionOf e (payload.map (·.toNat)) = some x) : Gives
    (.configSectionApply payload) s fun t => t = (sectionApply x).run ((put .cfgDone (s.iv .cfgDone + 1)).run s) := by
  refine gives_awake hs rfl fun _ keeps => ?_
  rw [look_run, when_pos (by simp [hdev]), hnext]
  simp only [forSome, all_cons_run, all_nil_run, hok, hsec, Bool.not_true, Bool.false_eq_true, if_false]

theorem section_plate (payload : List Byte) (e : Nat) (k i v : Nat) (hdev : s.device = dvCONFIG) (hnext : s.nextSection? =
    some e) (hok : sectionOk e (payload.map (·.toNat)) = true) (hsec : sectionOf e (payload.map (·.toNat)) = some (.plate k
    true [(i, [v])])) (hk : k < 2) (hi : i < 524288) (hmet : s.iv .cfgPlates = 0) (hkeep : s.iv .cfgKeep = 0) : Gives
    (.configSectionApply payload) s fun t => t.iv .plate (k * 524288 + i) = v ∧ t.live = k ∧ t.rd (.route 0) (plateStateFld k)
    = plLIVE ∧ t.rd (.route 0) (plateVerFld k) = 1 ∧ t.iv .cfgDone = s.iv .cfgDone + 1 := by
  refine gives_awake hs rfl fun _ keeps => ?_
  obtain ⟨u, hu⟩ : ∃ u, u = (put .cfgDone (s.iv .cfgDone + 1)).run s := ⟨_, rfl⟩
  have hfact : Fact u.wf := hu ▸ keeps _ _
  have hmet' : u.iv .cfgPlates = 0 := by rw [hu, iv_put, if_neg (by decide), hmet]
  have hkeep' : u.ivOn .cfgKeep = false := by rw [hu, State.ivOn, iv_put, if_neg (by decide), hkeep]; rfl
  have hdone : u.iv .cfgDone = s.iv .cfgDone + 1 := by rw [hu, iv_put, if_pos ⟨rfl, rfl⟩]
  rw [look_run, when_pos (by simp [hdev]), hnext]
  simp only [forSome, all_cons_run, all_nil_run, hok, hsec, Bool.not_true, Bool.false_eq_true, if_false, ← hu]
  obtain ⟨y, hy, hrun, hplate, hcfg⟩ := plateApply_fills hk hi v hmet' hkeep'
  obtain ⟨hlive, hstate, hver⟩ := plateGoesLive_live (s := y) hk
  rw [sectionApply, hrun]
  exact ⟨hplate, hlive, hstate, hver, hcfg.trans hdone⟩

theorem section_hatch (payload : List Byte) (e : Nat) (p : PortId) (l : Bool) (es : List Nat) (hdev : s.device = dvCONFIG)
    (hnext : s.nextSection? = some e) (hok : sectionOk e (payload.map (·.toNat)) = true) (hsec : sectionOf e (payload.map
    (·.toNat)) = some (.hatch p l es)) (hport : s.ivOn .cfgPorts p = true) (hlist : hatchOk es = true) : Gives
    (.configSectionApply payload) s fun t => t.hatchCount p (b2n l) = es.length ∧ t.rd (.sched p) (hatchVerFld (b2n l)) = 1 ∧
    (l = false → t.hatchState p 0 = hlPENDING) := by
  refine gives_awake hs rfl fun _ keeps => ?_
  obtain ⟨u, hu⟩ : ∃ u, u = (put .cfgDone (s.iv .cfgDone + 1)).run s := ⟨_, rfl⟩
  have hfact : Fact u.wf := hu ▸ keeps _ _
  have hport' : u.ivOn .cfgPorts p = true := by
    rw [hu, State.ivOn, iv_put, if_neg (by simp)]
    exact hport
  rw [look_run, when_pos (by simp [hdev]), hnext]
  simp only [forSome, all_cons_run, all_nil_run, hok, hsec, Bool.not_true, Bool.false_eq_true, if_false, ← hu]
  exact hatchApply_arms p l hport' hlist

theorem section_policy (payload : List Byte) (e : Nat) (x : PolicyImg) (hdev : s.device = dvCONFIG) (hnext : s.nextSection? =
    some e) (hok : sectionOk e (payload.map (·.toNat)) = true) (hsec : sectionOf e (payload.map (·.toNat)) = some (.policy x))
   : Gives (.configSectionApply payload) s fun t => t.rd (.sec 0) .SEC_GRANT_MASK = x.grant % 2 ^ 32 ∧ t.iv .encRequired =
    b2n (x.flags.testBit 0) ∧ t.rd (.sec 0) .SEC_DEBUG_DENY = b2n (x.flags.testBit 2) := by
  refine gives_awake hs rfl fun _ keeps => ?_
  have hports : (forBelow 96 fun p => all [wr (.sec 1) .SEC_IDE_STAT_REQUIRED (b2n (x.ideRequired.testBit p)) p,
      put .ideDown (b2n (x.ideDown.testBit p)) p]).In { regs := onFam .sec [.SEC_IDE_STAT_REQUIRED], vars := [.ideDown] } :=
    forBelow_in fun p => all_cons_in (wr_in (by decide) (by decide)) <| all_cons_in (put_in (by decide)) all_nil_in
  have hroots : ∀ v : Nat → Nat, (forBelow 4 fun k => put .devRoot (v k) k).In { vars := [.devRoot] } :=
    fun v => forBelow_in fun k => put_in (by decide)
  have hlocks : (forBelow 32 fun k => lockMapWrite k (bits x.lock (32 * k + 31) (32 * k))).In Foot.lockMapWrite :=
    forBelow_in fun k => lockMapWrite_in (Foot.le_refl _) k _
  rw [look_run, when_pos (by simp [hdev]), hnext]
  simp only [forSome, all_cons_run, all_nil_run, hok, hsec, Bool.not_true, Bool.false_eq_true, if_false, sectionApply, policyApply]
  refine ⟨?_, ?_, ?_⟩
  · rw [setGrant, rd_wr]
    rfl
  · simp +decide [setGrant, iv_of_in hlocks, iv_of_in (hroots _), iv_of_in hports]
  · simp +decide [setGrant, rd_of_in hlocks, rd_of_in (hroots _), rd_of_in hports]

theorem apply_done (hdev : s.device = dvCONFIG) (hnext : s.nextSection? = none) (hmet : s.iv .cfgPlates = 0 ∨ (s.iv
    .cfgPlates).testBit 2 = true) : Gives (.configApplyDone) s fun t => t.device = dvRUN ∧ t.rd .glb .GLB_DEV_STATE_CFG_SLOT =
    (s.iv .cfgSel - 1) % 4 ∧ t.iv .slotState (s.iv .cfgSel + 1) = slVALID ∧ t.iv .cfgSel = 0 := by
  refine gives_awake hs rfl fun _ keeps => ?_
  have hset := fun k st => slotSet_in (Foot.le_refl _) k st
  have hdetect : ∀ l, (forEach l detectStart).In _ := fun l => forEach_in fun p => detectStart_in (Foot.le_refl _) p
  have hok : (s.iv .cfgPlates != 0 && !(s.iv .cfgPlates).testBit 2) = false := by
    rcases hmet with h | h <;> simp [h]
  rw [look_run, when_pos (by simp [hdev, hnext]), hok, if_neg (by simp)]
  simp only [all_cons_run, all_nil_run]
  simp +decide [State.device, rd_of_in (hdetect _), iv_of_in (hdetect _), toDevice]
  rfl

theorem install_good (h : ImgHeader) (hst : s.iv .imgSt = 4) (hinst : s.installs = true) (hcode : s.headerCode s.imgKind h =
    0) (hdev : s.device ≠ dvROM_RECOVERY) : Gives (.imgVerifyDone h) s fun t => t.iv .imgSt = 0 ∧ t.rd (.mgmt 0)
    .MGMT_IMG_CTRL_STATUS = imOK ∧ t.rd (.mgmt 0) .MGMT_IMG_CTRL_BUSY = 0 ∧ t.iv .slotState (s.inactiveSlot s.imgKind) =
    slPENDING ∧ t.iv .slotSeq (s.inactiveSlot s.imgKind) = h.sequence := by
  refine gives_awake hs rfl fun _ keeps => ?_
  have hset := fun k st => slotSet_in (Foot.le_refl _) k st
  have hcode' : (s.headerCode s.imgKind h != 0) = false := by simp [hcode]
  rw [look_run, when_pos (by simp [hst, hinst]), hcode', if_neg (by simp)]
  simp +decide [hdev, imgEnds, imgStatus, iv_of_in (hset _ _)]

theorem install_bad (h : ImgHeader) (hst : s.iv .imgSt = 4) (hinst : s.installs = true) (hcode : s.headerCode s.imgKind h ≠ 0)
   : Gives (.imgVerifyDone h) s fun t => t.iv .imgSt = 0 ∧ t.rd (.mgmt 0) .MGMT_IMG_CTRL_STATUS = imVERIFY ∧ t.rd .glb
    .GLB_DEV_STATE_BOOT_ERR = s.headerCode s.imgKind h ∧ (t.rd (.mgmt 0) .ERR_STICKY_BITS).testBit Err.MGMT_IMG_FAIL.bit =
    true ∧ t.iv .slotState (s.inactiveSlot s.imgKind) = s.iv .slotState (s.inactiveSlot s.imgKind) := by
  refine gives_awake hs rfl fun _ keeps => ?_
  have hcode' : (s.headerCode s.imgKind h != 0) = true := by simpa using hcode
  rw [look_run, when_pos (by simp [hst, hinst]), hcode', if_pos rfl]
  simp +decide [imgEnds, imgStatus, bootErr]
  exact Nat.mod_eq_of_lt ((headerCode_lt s s.imgKind h).trans (by decide))

end

/-- Settles O4: one lemma for each step of the boot, from what the ROM's choice, a fallback state and a refused image leave. -/
theorem bootCompletes : Obligations.BootCompletes := by
  intro s hs
  exact ⟨romChecks_ready hs, romChecks_halt hs, slotSelect_good hs, slotSelect_bad hs, slotSelect_empty hs,
    slotSelect_noDirectory hs, slotSelect_noFlash hs, firmware_starts hs, firmware_confirmed hs, confirm_timeout hs,
    configHeader_good hs, configHeader_bad hs, configHeader_none hs, section_corrupt hs, section_unformed hs, section_applies
    hs, section_plate hs, section_hatch hs, section_policy hs, apply_done hs, install_good hs, install_bad hs⟩

end Sys2Proof.Machine
end

section
/-! PROOF. Containment requests, and the power quiesce of a port (R593 to R610, R616, R622 to R626). A containment answers,
discards and reports on its way, so what GUARD counts and its sticky bits are carried through all that it does. -/

namespace Sys2Proof.Machine

set_option Elab.async false


/-! ### GUARD's counters and sticky bits -/

/-- GUARD's counter `i` stays, and so do its sticky bits. -/
def GuardStays (i : Nat) (s t : State) : Prop :=
  t.cnt (.guard 0) i = s.cnt (.guard 0) i ∧ ∀ k, s.sticks (.guard 0) k → t.sticks (.guard 0) k

theorem guardStays_chains (i : Nat) : Chains (GuardStays i) where
  refl _ := ⟨rfl, fun _ hk => hk⟩
  trans hst htu := ⟨htu.1.trans hst.1, fun k hk => htu.2 k (hst.2 k hk)⟩

section
variable {i : Nat}

/-- What counts nothing on GUARD's pages and leaves their sticky bits. -/
theorem guardStays_of_in {F : Foot} {u : Upd} (hu : u.In F) (hn : Fam.guard ∉ F.cnts) (hst : (Fam.guard, Fld.ERR_STICKY_BITS) ∉ F.regs) :
    u.Moves (GuardStays i) :=
  fun s hw => ⟨keepsCnt_of_in (pg := .guard 0) hu hn s hw, keepsSticky_of_in (pg := .guard 0) rfl hu hst s hw⟩

/-- What touches neither registers nor counters. -/
theorem guardStays_of_same {u : Upd} (hregs : ∀ s, (u.run s).regs = s.regs) (hcnts : ∀ s, (u.run s).cnts = s.cnts) : u.Moves (GuardStays i) :=
  fun s _ => ⟨by simp only [State.cnt, hcnts], fun k hk => by simpa only [State.sticks, State.rd, hregs] using hk⟩

theorem addCnt_guardStays {pg : Pg} (hc : pg.common = true) {j : Nat} (hne : ¬(Pg.guard 0 = pg ∧ i = j)) (n : Nat) :
    (addCnt pg j n).Moves (GuardStays i) :=
  fun s hw => ⟨addCnt_keepsCnt (by simp [Fam.of]) hne n s hw, addCnt_keepsSticky rfl hc j n s hw⟩

variable (hi : i < 9)
include hi

theorem raiseAll_guardStays {pg : Pg} (hc : pg.common = true) (rs : List Raised) : (raiseAll pg rs).Moves (GuardStays i) :=
  fun s hw => ⟨raiseAll_keepsCnt (by simp [Fam.of]) (by omega) pg rs s hw, raiseAll_keepsSticky rfl hc rs s hw⟩

theorem logRec_guardStays (r : Rec) : (logRec r).Moves (GuardStays i) :=
  fun s hw => ⟨logRec_keepsCnt (by simp [Fam.of]) (by omega) r s hw, logRec_keepsSticky rfl r s hw⟩

theorem unretainedLoss_guardStays (n : Nat) : (unretainedLoss n).Moves (GuardStays i) :=
  when_moves (guardStays_chains i) (raiseAll_guardStays hi rfl _)

/-! ### Frames on their way through CORE -/

theorem admitFrame_guardStays (k : Pkt) : (admitFrame k).Moves (GuardStays i) := by
  have hR := guardStays_chains i
  refine look_moves fun s => all_cons_moves hR (when_moves hR (addCnt_guardStays rfl (by simp) 1)) <|
    all_cons_moves hR (forEach_moves hR fun c => ?_) <| all_cons_moves hR ?_ (all_nil_moves hR)
  · cases c.dst with
    | port q => exact guardStays_of_in (lossyDropped_in (Foot.le_refl _) k q) (by decide) (by decide +kernel)
    | self => exact skip_moves hR
  · refine ite_moves ?_ (ite_moves ?_ (ite_moves ?_ ?_))
    · exact all_cons_moves hR (when_moves hR (addCnt_guardStays rfl (by simp) 1)) <|
        all_cons_moves hR (when_moves hR (unretainedLoss_guardStays hi 1)) (all_nil_moves hR)
    · exact guardStays_of_in (admitLossy_in (Foot.le_refl _) _ _ _) (by decide) (by decide +kernel)
    · exact guardStays_of_in (F := Foot.takeProof.and Foot.enqueue)
        (takeProof_in (by decide +kernel) _ _ fun j => enqueue_in (by decide +kernel) j) (by decide) (by decide +kernel)
    · exact guardStays_of_in (enqueue_in (Foot.le_refl _) _) (by decide) (by decide +kernel)

theorem tryAdmit_guardStays (k : Pkt) : (tryAdmit k).Moves (GuardStays i) := by
  have hR := guardStays_chains i
  refine look_moves fun s => ?_
  split
  · exact guardStays_of_same (fun _ => rfl) fun _ => rfl
  · split
    · exact all_cons_moves hR (guardStays_of_same (fun _ => rfl) fun _ => rfl) <|
        all_cons_moves hR (when_moves hR (raiseAll_guardStays hi rfl _)) (all_nil_moves hR)
    · exact admitFrame_guardStays hi k

theorem miss_guardStays (m : Miss) : (miss m).Moves (GuardStays i) := by
  have hR := guardStays_chains i
  exact look_moves fun s => all_cons_moves hR (addCnt_guardStays rfl (by simp) 1) <|
    all_cons_moves hR (ite_moves (guardStays_of_same (fun _ => rfl) fun _ => rfl) <|
      all_cons_moves hR (addCnt_guardStays rfl (by simp) 1) <| all_cons_moves hR (raiseAll_guardStays hi rfl _) (all_nil_moves hR)) <|
    all_cons_moves hR (when_moves hR (forSome_moves hR fun f => guardStays_of_same (fun _ => rfl) fun _ => rfl)) <|
    all_cons_moves hR (raiseAll_guardStays hi rfl _) (all_nil_moves hR)

theorem sample_guardStays (m port point : Nat) (k : Pkt) (size : Nat) : (sample m port point k size).Moves (GuardStays i) := by
  have hR := guardStays_chains i
  refine look_moves fun s => all_cons_moves hR (guardStays_of_same (fun _ => rfl) fun _ => rfl) <| all_cons_moves hR ?_ (all_nil_moves hR)
  split
  · exact miss_guardStays hi _
  · exact all_cons_moves hR (guardStays_of_same (fun _ => rfl) fun _ => rfl) <| all_cons_moves hR (addCnt_guardStays rfl (by simp) 1) <|
      all_cons_moves hR (ite_moves (tryAdmit_guardStays hi _) (guardStays_of_same (fun _ => rfl) fun _ => rfl)) (all_nil_moves hR)

theorem sampleAt_guardStays (port point : Nat) (k : Pkt) (size : Nat) : (sampleAt port point k size).Moves (GuardStays i) := by
  have hR := guardStays_chains i
  have hsame : ∀ x v j, (put x v j).Moves (GuardStays i) := fun x v j => guardStays_of_same (fun _ => rfl) fun _ => rfl
  have hdraw : ∀ f : Nat → Upd, (∀ n, (f n).Moves (GuardStays i)) → (drawWord f).Moves (GuardStays i) := fun f hf =>
    look_moves fun s => all_cons_moves hR (guardStays_of_same (fun _ => rfl) fun _ => rfl) <| all_cons_moves hR (hf _) (all_nil_moves hR)
  exact forEach_moves hR fun m => look_moves fun s => when_moves hR <|
    ite_moves (hdraw _ fun w => when_moves hR (sample_guardStays hi m port point k size)) <| ite_moves (hsame _ _ _) <|
      all_cons_moves hR (hsame _ _ _) <| all_cons_moves hR (sample_guardStays hi m port point k size) (all_nil_moves hR)

theorem step4_guardStays (k : Pkt) : (step4 k).Moves (GuardStays i) := by
  have hR := guardStays_chains i
  refine look_moves fun s => all_cons_moves hR ?_ <| all_cons_moves hR (tryAdmit_guardStays hi k) (all_nil_moves hR)
  cases k.ing with
  | port p => exact sampleAt_guardStays hi p 0 k _
  | _ => exact skip_moves hR

omit hi in
theorem charge_guardStays (n b c : Nat) (lossy : Bool) {k : Nat → Upd} (hk : ∀ x, (k x).Moves (GuardStays i)) :
    (charge n b c lossy k).Moves (GuardStays i) := by
  have hR := guardStays_chains i
  have hput : ∀ x v j, (put x v j).Moves (GuardStays i) := fun x v j => guardStays_of_same (fun _ => rfl) fun _ => rfl
  exact look_moves fun s => ite_moves (hk c) <| all_cons_moves hR (hput _ _ _) <| all_cons_moves hR (hput _ _ _) <|
    all_cons_moves hR (hput _ _ _) <| all_cons_moves hR (addCnt_guardStays rfl (by simp) b) <| all_cons_moves hR (hk _) (all_nil_moves hR)

theorem police_guardStays (k : Pkt) : (police k).Moves (GuardStays i) := by
  have hR := guardStays_chains i
  refine look_moves fun s => ?_
  split
  · exact step4_guardStays hi k
  · exact ite_moves (step4_guardStays hi k) <| ite_moves (guardStays_of_same (fun _ => rfl) fun _ => rfl) <|
      charge_guardStays _ _ _ _ fun c => ite_moves (skip_moves hR) (step4_guardStays hi _)

theorem offer_guardStays (ing : Ing) (f : Frame) (dsts : List Dst) (vi : Option Nat) (tail : Bool) :
    (offer ing f dsts vi tail).Moves (GuardStays i) := by
  have hR := guardStays_chains i
  exact look_moves fun s => all_cons_moves hR (guardStays_of_same (fun _ => rfl) fun _ => rfl) <|
    all_cons_moves hR (police_guardStays hi _) (all_nil_moves hR)

theorem sendInner_guardStays (ing : Ing) (f : Frame) (vi : Option Nat) : (sendInner ing f vi).Moves (GuardStays i) := by
  have hR := guardStays_chains i
  refine look_moves fun s => ?_
  split
  · exact all_cons_moves hR (addCnt_guardStays rfl (by simp) 1) <| all_cons_moves hR (miss_guardStays hi _) (all_nil_moves hR)
  · exact all_cons_moves hR (addCnt_guardStays rfl (by simp) 1) <| all_cons_moves hR (offer_guardStays hi _ _ _ _ _) (all_nil_moves hR)

/-! ### Answers -/

theorem faceCompletes_guardStays (f : Nat) (req link : Bool) (tag : Nat) (ep : Bool) (t : Tlp) :
    (faceCompletes f req link tag ep t).Moves (GuardStays i) := by
  have hR := guardStays_chains i
  have hsend : ∀ p g, (tlpSend p none g).Moves (GuardStays i) := fun p g =>
    guardStays_of_in (tlpSend_in (Foot.le_refl _) p none g) (by decide) (by decide +kernel)
  have hfree : ∀ x b, (freeSlot x b).Moves (GuardStays i) := fun x b =>
    guardStays_of_in (freeSlot_in (Foot.le_refl _) x b) (by decide) (by decide +kernel)
  refine look_moves fun s => ?_
  dsimp only
  split
  · exact raiseAll_guardStays hi rfl _
  · next x _ =>
    refine ite_moves ?_ (all_cons_moves hR ?_ (all_cons_moves hR (when_moves hR (hfree _ _)) (all_nil_moves hR)))
    · exact all_cons_moves hR (addCnt_guardStays rfl (by simp) 1) <| all_cons_moves hR (when_moves hR (hfree _ _)) (all_nil_moves hR)
    · cases x.who with
      | host =>
        refine all_cons_moves hR (ite_moves (hsend _ _) ?_) <|
          all_cons_moves hR (when_moves hR (guardStays_of_same (fun _ => rfl) fun _ => rfl)) (all_nil_moves hR)
        exact guardStays_of_in (F := Foot.splitPrefetch.and Foot.tlpSend)
          (splitPrefetch_in (by decide +kernel) _ _ _ fun u => tlpSend_in (by decide +kernel) _ _ _) (by decide) (by decide +kernel)
      | device n =>
        unfold faceCompletes.offerBack
        dsimp only
        split
        · exact miss_guardStays hi _
        · exact offer_guardStays hi _ _ _ _ _
      | _ => exact guardStays_of_same (fun _ => rfl) fun _ => rfl

theorem answerNp_guardStays (f : Frame) (stat : CplStat) : (answerNp f stat).Moves (GuardStays i) := by
  have hR := guardStays_chains i
  refine look_moves fun s => ?_
  dsimp only
  split
  · exact skip_moves hR
  · refine ite_moves (sendInner_guardStays hi _ _ _) <| ite_moves ?_ <| ite_moves ?_ ?_
    · exact guardStays_of_in (selfCpl_in (Foot.le_refl _) _ _ _ _) (by decide) (by decide +kernel)
    · exact forSome_moves hR fun g => faceCompletes_guardStays hi _ _ _ _ _ _
    · exact forSome_moves hR fun v => faceCompletes_guardStays hi _ _ _ _ _ _

theorem answerUnreachable_guardStays (f : Frame) : (answerUnreachable f).Moves (GuardStays i) := by
  have hR := guardStays_chains i
  exact look_moves fun s => ite_moves (all_cons_moves hR (addCnt_guardStays rfl (by omega) 1) <|
    all_cons_moves hR (answerNp_guardStays hi _ _) (all_nil_moves hR)) <| ite_moves (skip_moves hR) (addCnt_guardStays rfl (by omega) 1)

theorem refuseInReset_guardStays (f : Nat) (g : Frame) : (refuseInReset f g).Moves (GuardStays i) := by
  have hR := guardStays_chains i
  exact all_cons_moves hR (addCnt_guardStays rfl (by simp) 1) <| all_cons_moves hR (raiseAll_guardStays hi rfl _) <|
    all_cons_moves hR (when_moves hR (answerNp_guardStays hi _ _)) (all_nil_moves hR)

theorem toHost_guardStays (ing : Ing) (f : Nat) (g : Frame) (vi : Option Nat) : (toHost ing f g vi).Moves (GuardStays i) :=
  look_moves fun _ => ite_moves (answerUnreachable_guardStays hi g) <| ite_moves (offer_guardStays hi _ _ _ _ _) (refuseInReset_guardStays hi f g)

theorem refusal_guardStays {s : State} {f : Frame} {d : Dst} {u : Upd} (hu : s.refusal f d = some u) : u.Moves (GuardStays i) := by
  have hR := guardStays_chains i
  have hnp : (when_ f.isNp (answerNp f .ur)).Moves (GuardStays i) := when_moves hR (answerNp_guardStays hi _ _)
  unfold State.refusal at hu
  split at hu
  · cases hu
    exact answerUnreachable_guardStays hi f
  · cases d with
    | self => cases hu
    | port q =>
      dsimp only at hu
      split at hu
      · cases hu
        exact all_cons_moves hR (look_moves fun s => all_cons_moves hR (addCnt_guardStays rfl (by simp) 1) <|
          all_cons_moves hR (raiseAll_guardStays hi rfl _) (all_nil_moves hR)) <| all_cons_moves hR hnp (all_nil_moves hR)
      · split at hu
        · cases hu
          exact all_cons_moves hR (addCnt_guardStays rfl (by omega) 1) <| all_cons_moves hR (raiseAll_guardStays hi rfl _) (all_nil_moves hR)
        · split at hu
          · cases hu
          · split at hu
            · cases hu
              exact hnp
            · split at hu
              · cases hu
              · split at hu
                · split at hu <;> cases hu
                  · exact faceCompletes_guardStays hi _ _ _ _ _ _
                  · exact refuseInReset_guardStays hi _ _
                · cases hu
                  exact refuseInReset_guardStays hi _ _

theorem deliver_guardStays (ing : Ing) (f : Frame) (vi : Option Nat) (tail : Bool) : (deliver ing f vi tail).Moves (GuardStays i) := by
  have hR := guardStays_chains i
  refine look_moves fun s => all_cons_moves hR (addCnt_guardStays rfl (by simp) 1) <| all_cons_moves hR ?_ (all_nil_moves hR)
  split
  · exact all_cons_moves hR (miss_guardStays hi _) <| all_cons_moves hR (when_moves hR (answerNp_guardStays hi _ _)) (all_nil_moves hR)
  · split
    · next hu => exact refusal_guardStays hi hu
    · exact offer_guardStays hi _ _ _ _ _

/-! ### Links, ports and instances that a containment acts on -/

theorem sendSamples_guardStays (id : Nat) : (sendSamples id).Moves (GuardStays i) := by
  have hR := guardStays_chains i
  exact look_moves fun s => all_cons_moves hR (guardStays_of_same (fun _ => rfl) fun _ => rfl) <|
    all_cons_moves hR (forEach_moves hR fun w => tryAdmit_guardStays hi _) (all_nil_moves hR)

theorem turnBad_guardStays (id : Nat) : (turnBad id).Moves (GuardStays i) := by
  have hR := guardStays_chains i
  refine look_moves fun s => forSome_moves hR fun k => all_cons_moves hR (ite_moves ?_ (addCnt_guardStays rfl (by simp) 1)) <|
    all_cons_moves hR (when_moves hR ?_) <| all_cons_moves hR (guardStays_of_same (fun _ => rfl) fun _ => rfl) <|
    all_cons_moves hR (guardStays_of_in (coreWatch_in (Foot.le_refl _)) (by decide) (by decide +kernel)) (all_nil_moves hR)
  · refine all_cons_moves hR (forEach_moves hR fun c => ?_) <| all_cons_moves hR (guardStays_of_same (fun _ => rfl) fun _ => rfl) <|
      all_cons_moves hR (raiseAll_guardStays hi rfl _) (all_nil_moves hR)
    cases c.dst with
    | port p =>
      exact all_cons_moves hR (guardStays_of_same (fun _ => rfl) fun _ => rfl) <| all_cons_moves hR (addCnt_guardStays rfl (by simp) 1) <|
        all_cons_moves hR (guardStays_of_in (markBad_in (Foot.le_refl _) p) (by decide) (by decide +kernel)) (all_nil_moves hR)
    | self => exact skip_moves hR
  · exact guardStays_of_in (voidProof_in (Foot.le_refl _) _ _) (by decide) (by decide +kernel)

theorem linkTo_guardStays (p dest : Nat) : (linkTo p dest).Moves (GuardStays i) := by
  have hR := guardStays_chains i
  have hwr : ∀ (f : Nat) (x : Fld) (v : Nat), x ∈ tabFACE → (wr (.face f) x v).Moves (GuardStays i) := fun f x v hx =>
    guardStays_of_in (F := { regs := [(Fam.face, x)] }) (wr_in (own_mem hx) (List.mem_singleton.2 rfl)) (by simp) (by simp)
  refine look_moves fun s => all_cons_moves hR (look_moves fun t => forEach_moves hR fun k => turnBad_guardStays hi _) <|
    all_cons_moves hR (when_moves hR (unretainedLoss_guardStays hi _)) <|
    all_cons_moves hR (guardStays_of_in (clearLink_in (Foot.le_refl _) p) (by decide) (by decide +kernel)) <|
    all_cons_moves hR (guardStays_of_in (F := { regs := [(Fam.port, .PORT_LINK_STAT_STATE)] })
      (wr_in (own_mem (show _ ∈ tabPORT by decide)) (List.mem_singleton.2 rfl)) (by simp) (by simp)) <|
    all_cons_moves hR (forEach_moves hR fun l => when_moves hR <|
      guardStays_of_in (laneTrain_in (Foot.le_refl _) l) (by decide) (by decide +kernel)) <|
    all_cons_moves hR (when_moves hR (forSome_moves hR fun f => all_cons_moves hR (hwr f _ _ (by decide)) <|
      all_cons_moves hR (hwr f _ _ (by decide)) (all_nil_moves hR))) (all_nil_moves hR)

theorem egressDiscard_guardStays (p : Nat) (contained : Bool) : (egressDiscard p contained).Moves (GuardStays i) := by
  have hR := guardStays_chains i
  exact look_moves fun s => all_cons_moves hR (forEach_moves hR fun k => all_cons_moves hR (guardStays_of_same (fun _ => rfl) fun _ => rfl) <|
      all_cons_moves hR (guardStays_of_same (fun _ => rfl) fun _ => rfl) (all_nil_moves hR)) <|
    all_cons_moves hR (guardStays_of_same (fun _ => rfl) fun _ => rfl) <| all_cons_moves hR (guardStays_of_same (fun _ => rfl) fun _ => rfl) <|
    all_cons_moves hR (addCnt_guardStays rfl (by simp) _) <| all_cons_moves hR (when_moves hR (unretainedLoss_guardStays hi _)) <|
    all_cons_moves hR (guardStays_of_in (coreWatch_in (Foot.le_refl _)) (by decide) (by decide +kernel)) (all_nil_moves hR)

theorem answerForwarded_guardStays (p : Nat) : (answerForwarded p).Moves (GuardStays i) := by
  have hR := guardStays_chains i
  exact look_moves fun s => all_cons_moves hR (guardStays_of_same (fun _ => rfl) fun _ => rfl) <|
    all_cons_moves hR (forEach_moves hR fun w => all_cons_moves hR (addCnt_guardStays rfl (by omega) 1) <|
      all_cons_moves hR (deliver_guardStays hi _ _ _ _) (all_nil_moves hR)) (all_nil_moves hR)

/-- The answers of a containment count on counter 9 alone. -/
theorem closeOff_guardStays (p : Nat) (contained : Bool) : (closeOff p contained).Moves (GuardStays i) := by
  have hR := guardStays_chains i
  have hcount : (bump (.guard 0) 9).Moves (GuardStays i) := addCnt_guardStays rfl (by omega) 1
  have hqueued : (answerQueued p).Moves (GuardStays i) := look_moves fun s => forEach_moves hR fun g => all_cons_moves hR hcount <|
    all_cons_moves hR (answerNp_guardStays hi g _) (all_nil_moves hR)
  have hlink : ∀ f, (answerOnLink f).Moves (GuardStays i) := fun f => look_moves fun s => forEach_moves hR fun x =>
    all_cons_moves hR hcount <| all_cons_moves hR (faceCompletes_guardStays hi _ _ _ _ _ _) (all_nil_moves hR)
  exact look_moves fun s => all_cons_moves hR (when_moves hR (all_cons_moves hR hqueued <| all_cons_moves hR (answerForwarded_guardStays hi p) <|
    all_cons_moves hR (forSome_moves hR hlink) (all_nil_moves hR))) <| all_cons_moves hR (egressDiscard_guardStays hi p contained) (all_nil_moves hR)

omit hi in
theorem prefDiscard_guardStays (P : Pref → Bool) : (prefDiscard P).Moves (GuardStays i) :=
  guardStays_of_in (prefDiscard_in (Foot.le_refl _) P) (by decide) (by decide +kernel)

theorem dropHeld_guardStays (d : Dom) : (dropHeld d).Moves (GuardStays i) := by
  have hR := guardStays_chains i
  refine look_moves fun s => all_cons_moves hR ?_ <| all_cons_moves hR (prefDiscard_guardStays _) (all_nil_moves hR)
  cases d with
  | port p => exact guardStays_of_in (lockClear_in (Foot.le_refl _) p) (by decide) (by decide +kernel)
  | face f =>
    exact look_moves fun s => all_cons_moves hR (when_moves hR (look_moves fun s => sendInner_guardStays hi _ _ _)) <|
      all_cons_moves hR (guardStays_of_same (fun _ => rfl) fun _ => rfl) <| all_cons_moves hR (forSome_moves hR fun n =>
        guardStays_of_in (locksOf_in (Foot.le_refl _) n) (by decide) (by decide +kernel)) (all_nil_moves hR)
  | _ => exact skip_moves hR

omit hi in
theorem feidLost_guardStays (orderly : Bool) (n : Nat) : (feidLost orderly n).Moves (GuardStays i) :=
  guardStays_of_in (feidLost_in (Foot.le_refl _) orderly n) (by decide) (by decide +kernel)

theorem rxArrived_guardStays (v : Nat) (k : Pkt) : (rxArrived v k).Moves (GuardStays i) := by
  have hR := guardStays_chains i
  have hdrop : ∀ (e : Nat) (b : Err),
      (all [consumeSelf k.id, bump (.eng e) 6, bump (.bridge 2) (4 * v + 3), raise .moverg b]).Moves (GuardStays i) :=
    fun e b => all_cons_moves hR (guardStays_of_in (consumeSelf_in (Foot.le_refl _) k.id) (by decide) (by decide +kernel)) <|
      all_cons_moves hR (addCnt_guardStays rfl (by simp) 1) <| all_cons_moves hR (addCnt_guardStays rfl (by simp) 1) <|
      all_cons_moves hR (raiseAll_guardStays hi rfl _) (all_nil_moves hR)
  exact look_moves fun s => ite_moves (hdrop _ _) (when_moves hR (hdrop _ _))

theorem flushSome_guardStays (f : Nat) (vi : Option Nat) (j : Nat) : (flushSome f vi j).Moves (GuardStays i) := by
  have hR := guardStays_chains i
  have hread : ∀ e tag, (flushRead f vi e tag).Moves (GuardStays i) := fun e tag => look_moves fun s =>
    all_cons_moves hR (guardStays_of_in (takeSlot_in (Foot.le_refl _) _) (by decide) (by decide +kernel)) <|
    all_cons_moves hR (ite_moves (toHost_guardStays hi _ _ _ _) (deliver_guardStays hi _ _ _ _)) (all_nil_moves hR)
  exact look_moves fun s => forEach_moves hR fun n => look_moves fun t => when_moves hR <| forSome_moves hR fun tag =>
    all_cons_moves hR (guardStays_of_same (fun _ => rfl) fun _ => rfl) <| all_cons_moves hR (hread _ tag) (all_nil_moves hR)

theorem instReset_guardStays (v : Nat) (stop : Bool) : (instReset v stop).Moves (GuardStays i) := by
  have hR := guardStays_chains i
  have hsame : ∀ u : Upd, (∀ s, (u.run s).regs = s.regs) → (∀ s, (u.run s).cnts = s.cnts) → u.Moves (GuardStays i) :=
    fun u hregs hcnts => guardStays_of_same hregs hcnts
  have hstat : ∀ (x : Fld) (n : Nat), x ∈ tabINST2 → (wr (.inst 2) x n v).Moves (GuardStays i) := fun x n hx =>
    guardStays_of_in (F := { regs := [(Fam.inst, x)] }) (wr_in (own_mem hx) (List.mem_singleton.2 rfl)) (by simp) (by simp)
  have hring : ∀ n, (all [rxStop n, dropDescs n, wr (.ring n) .MOVER_RING_STAT_STATE rsFENCED, rxSettle n]).Moves (GuardStays i) := fun n =>
    all_cons_moves hR (guardStays_of_in (rxStop_in (Foot.le_refl _) n) (by decide) (by decide +kernel)) <|
    all_cons_moves hR (guardStays_of_in (dropDescs_in (Foot.le_refl _) n) (by decide) (by decide +kernel)) <|
    all_cons_moves hR (guardStays_of_in (F := { regs := [(Fam.ring, .MOVER_RING_STAT_STATE)] })
      (wr_in (own_mem (show _ ∈ tabRING by decide)) (List.mem_singleton.2 rfl)) (by simp) (by simp)) <|
    all_cons_moves hR (look_moves fun s => forEach_moves hR fun k => forSome_moves hR fun v => rxArrived_guardStays hi v k) (all_nil_moves hR)
  exact look_moves fun s => all_cons_moves hR (when_moves hR (hsame _ (fun _ => rfl) fun _ => rfl)) <| all_cons_moves hR (when_moves hR <|
    all_cons_moves hR (hstat _ _ (by decide)) <| all_cons_moves hR (hstat _ _ (by decide)) <| all_cons_moves hR (hstat _ _ (by decide)) <|
    all_cons_moves hR (when_moves hR (hstat _ _ (by decide))) <| all_cons_moves hR (forEach_moves hR hring) <|
    all_cons_moves hR (hsame _ (fun _ => rfl) fun _ => rfl) <| all_cons_moves hR (hsame _ (fun _ => rfl) fun _ => rfl) <|
    all_cons_moves hR (hsame _ (fun _ => rfl) fun _ => rfl) <|
    all_cons_moves hR (flushSome_guardStays hi _ _ _) (all_nil_moves hR)) (all_nil_moves hR)

omit hi in
theorem enterState_guardStays (d : Dom) (st : Nat) (cls : Cls) (bySw window : Bool) : (enterState d st cls bySw window).Moves (GuardStays i) :=
  guardStays_of_in (enterState_in (Foot.le_refl _) _ _ _ _ _) (by decide) (by decide +kernel)

theorem containPorts_guardStays (cls : Cls) : (containPorts cls).Moves (GuardStays i) := by
  have hR := guardStays_chains i
  exact look_moves fun s => forEach_moves hR fun p => all_cons_moves hR (enterState_guardStays _ _ _ _ _) <|
    all_cons_moves hR (forEach_moves hR fun d => dropHeld_guardStays hi d) <| all_cons_moves hR (egressDiscard_guardStays hi p false) <|
    all_cons_moves hR (answerForwarded_guardStays hi p) <| all_cons_moves hR (when_moves hR <|
      all_cons_moves hR (guardStays_of_same (fun _ => rfl) fun _ => rfl) <| all_cons_moves hR
        (forSome_moves hR fun f => guardStays_of_same (fun _ => rfl) fun _ => rfl) (all_nil_moves hR)) <|
    all_cons_moves hR (forEach_moves hR fun n => feidLost_guardStays false n) (all_nil_moves hR)

theorem safeHaltNow_guardStays (cause block dinst bit : Nat) : (safeHaltNow cause block dinst bit).Moves (GuardStays i) := by
  have hR := guardStays_chains i
  have hwr : ∀ x v, x ∈ tabGUARD0 → x ≠ .ERR_STICKY_BITS → (wr (.guard 0) x v).Moves (GuardStays i) := fun x v hx hne =>
    guardStays_of_in (F := { regs := [(Fam.guard, x)] }) (wr_in (own_mem hx) (List.mem_singleton.2 rfl)) (by simp) (by simpa using hne.symm)
  exact look_moves fun s => when_moves hR <|
    all_cons_moves hR (guardStays_of_in (F := { regs := [(Fam.glb, .GLB_DEV_STATE_STATE)] })
      (wr_in (by decide) (by decide)) (by decide) (by decide)) <|
    all_cons_moves hR (containPorts_guardStays hi _) <| all_cons_moves hR (forEach_moves hR fun p => linkTo_guardStays hi p _) <|
    all_cons_moves hR (guardStays_of_same (fun _ => rfl) fun _ => rfl) <|
    all_cons_moves hR (guardStays_of_in (disarmAll_in (Foot.le_refl _)) (by decide) (by decide +kernel)) <|
    all_cons_moves hR (hwr _ _ (by decide) (by decide)) <| all_cons_moves hR (hwr _ _ (by decide) (by decide)) <|
    all_cons_moves hR (hwr _ _ (by decide) (by decide)) <| all_cons_moves hR (hwr _ _ (by decide) (by decide)) <|
    all_cons_moves hR (hwr _ _ (by decide) (by decide)) <| all_cons_moves hR (logRec_guardStays hi _) <|
    all_cons_moves hR (addCnt_guardStays rfl (by omega) 1) (all_nil_moves hR)

/-- What containment acts on in a DOWN port (Table GUARD-2). -/
theorem portCut_guardStays (p : Nat) : (all [closeOff p true, linkTo p lsDISABLED, emit (.linkDisabled p)]).Moves (GuardStays i) := by
  have hR := guardStays_chains i
  exact all_cons_moves hR (closeOff_guardStays hi p true) <| all_cons_moves hR (linkTo_guardStays hi p _) <|
    all_cons_moves hR (guardStays_of_same (fun _ => rfl) fun _ => rfl) (all_nil_moves hR)

end

/-! ### From a request to a containment -/

section
variable {s : State} {r : GReq}

/-- A request of class NF or FD for a domain of this switch is handled there. -/
theorem handle_run {d : Dom} (hdom : r.dom = .dom d ∨ ∃ n, r.dom = .feid n ∧ s.domOfFeid n = some d) (hhalt : s.safeHalt = false)
    (hwarn : r.warn = false) (hcls : r.cls ≠ .halt) (bySw : Bool) : (handle r bySw).run s = (handleFor d r bySw).run s := by
  rw [handle, look_run]
  rcases hdom with h | ⟨n, h, hn⟩
  · simp [h, hhalt, hwarn, hcls]
  · simp [h, hn, hhalt, hwarn, hcls]

/-- A domain outside a recovery window and outside any containment is contained. -/
theorem handleFor_contains {d : Dom} (hcon : s.consequential r d = false) (hwin : s.gds d .GDS_LANE_WINDOW = 0) (hhold : s.holder? d = none)
    (hne : d ≠ .device) (bySw : Bool) : (handleFor d r bySw).run s = (containNow d r bySw).run s := by
  simp [handleFor, look_run, hcon, hwin, hhold, hne]

/-- What a containment does before the action of Table GUARD-2. -/
def containEntry (d : Dom) (r : GReq) (bySw : Bool) : Upd :=
  all [enterState d gdCONTAINED r.cls bySw true, bump (.guard 0) (domCode d), logRec (reqRec r Rec.CONTAIN (some d)), dropHeld d]

/-- The containment of a domain without a twin by a request of class FD. -/
theorem containNow_run {d : Dom} (htw : s.twins d = [d]) (hcls : r.cls = .fd) (bySw : Bool) : (containNow d r bySw).run s =
    (forEach (s.feidsOf d) (feidLost false)).run ((actOn d).run ((containEntry d r bySw).run s)) := by
  have hfd : (Cls.fd == Cls.nf) = false := rfl
  simp [containNow, containEntry, look_run, htw, hcls, hfd]

variable [h : Fact s.wf]

/-- What a containment enters in the domain's own register, and its count. -/
theorem containEntry_enters {d : Dom} (htw : s.twins d = [d]) (hcls : r.cls = .fd) (hi : domCode d < 9)
    (hdrop : (dropHeld d).Moves (GuardStays (domCode d))) (bySw : Bool) {t : State} (ht : t = (containEntry d r bySw).run s) :
    t.domState d = gdCONTAINED ∧ t.gds d .GDS_LANE_CLASS = Cls.fd.code ∧ t.gds d .GDS_LANE_WINDOW = 1 ∧ t.gds d .GDS_LANE_BY_SW = b2n bySw ∧
      t.gds d .GDS_LANE_HOLD = s.gds d .GDS_LANE_HOLD ∧ t.cnt (.guard 0) (domCode d) = min (s.cnt (.guard 0) (domCode d) + 1) cntMax ∧
      ∀ k, s.sticks (.guard 0) k → t.sticks (.guard 0) k := by
  have := Upd.keeps_fact
  obtain ⟨u, hu⟩ : ∃ u, u = (enterState d gdCONTAINED r.cls bySw true).run s := ⟨_, rfl⟩
  have hfact : Fact u.wf := hu ▸ this _ _
  have hent : Upd.In Foot.enterState (enterState d gdCONTAINED r.cls bySw true) := enterState_in (Foot.le_refl _) _ _ _ _ _
  have hrun : t = (dropHeld d).run ((logRec (reqRec r Rec.CONTAIN (some d))).run ((bump (.guard 0) (domCode d)).run u)) := by
    rw [ht, hu]
    rfl
  have hgds : ∀ f ∈ gdsLane, t.gds d f = u.gds d f := fun f hf => by
    rw [hrun, gds_of_in (dropHeld_in (Foot.le_refl _) d) (by decide +kernel) hf, gds_of_in (logRec_in (Foot.le_refl _) _) (by decide +kernel) hf,
      gds_of_in (bump_in rfl (Foot.le_refl _) _) (by decide +kernel) hf]
  have hstays := (all_cons_moves (guardStays_chains _) (logRec_guardStays hi (reqRec r Rec.CONTAIN (some d))) <|
    all_cons_moves (guardStays_chains _) hdrop (all_nil_moves (guardStays_chains _))) ((bump (.guard 0) (domCode d)).run u) (this _ _).out
  have hrest : t = (all [logRec (reqRec r Rec.CONTAIN (some d)), dropHeld d]).run ((bump (.guard 0) (domCode d)).run u) := hrun
  rw [← hrest] at hstays
  obtain ⟨hcnt, hsticks⟩ := hstays
  have hbump := addCnt_keepsSticky (pg := .guard 0) rfl (pg' := .guard 0) rfl (domCode d) 1 u hfact.out
  have hkept := keepsSticky_of_in (pg := .guard 0) rfl hent (by decide +kernel) s h.out
  rw [domState_eq, hgds _ (by decide), hgds _ (by decide), hgds _ (by decide), hgds _ (by decide), hgds _ (by decide), hcnt]
  refine ⟨?_, ?_, ?_, ?_, ?_, ?_, fun k hk => hsticks k (hbump k (hu ▸ hkept k hk))⟩
  rotate_right
  · rw [bump_eq, cnt_addCnt rfl (by simp [Fam.of]), if_pos ⟨rfl, rfl⟩, hu, cnt_of_in hent (by decide +kernel)]
  all_goals
    rw [hu, enterState, look_run, htw]
    simp +decide [hcls]

/-- The register of a domain, with GUARD's count and its sticky bits, after a containment of class FD. -/
structure Contained (s t : State) (d : Dom) (bySw : Bool) : Prop where
  state : t.domState d = gdCONTAINED
  cls : t.gds d .GDS_LANE_CLASS = Cls.fd.code
  window : t.gds d .GDS_LANE_WINDOW = 1
  bySw : t.gds d .GDS_LANE_BY_SW = b2n bySw
  hold : t.gds d .GDS_LANE_HOLD = s.gds d .GDS_LANE_HOLD
  count : t.cnt (.guard 0) (domCode d) = min (s.cnt (.guard 0) (domCode d) + 1) cntMax
  sticks : ∀ k, s.sticks (.guard 0) k → t.sticks (.guard 0) k

/-- What the action and the FEIDs that are lost leave of it. -/
theorem containNow_contained {d : Dom} (htw : s.twins d = [d]) (hcls : r.cls = .fd) (hi : domCode d < 9)
    (hdrop : (dropHeld d).Moves (GuardStays (domCode d)))
    (hact : ∀ u, u = (containEntry d r bySw).run s → GuardStays (domCode d) u ((actOn d).run u)) :
    Contained s ((containNow d r bySw).run s) d bySw := by
  have := Upd.keeps_fact
  obtain ⟨u, hu⟩ : ∃ u, u = (containEntry d r bySw).run s := ⟨_, rfl⟩
  have hfact : Fact u.wf := hu ▸ this _ _
  obtain ⟨hstate, hclass, hwin, hsw, hhold, hcnt, hsticks⟩ := containEntry_enters htw hcls hi hdrop bySw hu
  obtain ⟨hcntAct, hsticksAct⟩ := hact u hu
  have hlost : (forEach (s.feidsOf d) (feidLost false)).Moves (GuardStays (domCode d)) :=
    forEach_moves (guardStays_chains _) fun n => feidLost_guardStays false n
  obtain ⟨hcntLost, hsticksLost⟩ := hlost _ (this (actOn d) u).out
  have hgds : ∀ f ∈ gdsLane, ((containNow d r bySw).run s).gds d f = u.gds d f := fun f hf => by
    rw [containNow_run htw hcls, ← hu, gds_of_in (forEach_in fun n => feidLost_in (Foot.le_refl _) false n) (by decide +kernel) hf,
      gds_of_in (actOn_in (Foot.le_refl _) d) (by decide +kernel) hf]
  rw [domState_eq] at hstate
  constructor
  · rw [domState_eq, hgds _ (by decide), hstate]
  · rw [hgds _ (by decide), hclass]
  · rw [hgds _ (by decide), hwin]
  · rw [hgds _ (by decide), hsw]
  · rw [hgds _ (by decide), hhold]
  · rw [containNow_run htw hcls, ← hu, hcntLost, hcntAct, hcnt]
  · intro k hk
    rw [containNow_run htw hcls, ← hu]
    exact hsticksLost k (hsticksAct k (hsticks k hk))

/-- A VI is contained and reset. -/
theorem containNow_inst (hcls : r.cls = .fd) (bySw : Bool) (v : Nat) : Contained s ((containNow (.inst v) r bySw).run s) (.inst v) bySw ∧
    ((containNow (.inst v) r bySw).run s).resetting v = true := by
  have := Upd.keeps_fact
  have hR := guardStays_chains 3
  have hemit : ∀ (c : Bool) o, (when_ c (emit o)).Moves (GuardStays 3) := fun c o =>
    when_moves hR (guardStays_of_same (fun _ => rfl) fun _ => rfl)
  refine ⟨containNow_contained rfl hcls (show 3 < 9 by decide) ?_ fun u hu => ?_, ?_⟩
  · exact dropHeld_guardStays (show 3 < 9 by decide) _
  · have hwf : u.wf := hu ▸ (this _ _).out
    exact (look_moves fun t => all_cons_moves hR (instReset_guardStays (by decide) v false) <|
      all_cons_moves hR (hemit _ _) (all_nil_moves hR) : (actOn (.inst v)).Moves (GuardStays 3)) u hwf
  · obtain ⟨u, hu⟩ : ∃ u, u = (containEntry (.inst v) r bySw).run s := ⟨_, rfl⟩
    have hfact : Fact u.wf := hu ▸ this _ _
    have hreset := instReset_resets (s := u) v false
    rw [containNow_run rfl hcls, ← hu]
    simp only [State.feidsOf, forEach_nil_run, actOn, look_run, all_cons_run, all_nil_run]
    rw [State.resetting, State.on, rd_when, emit_run_rd, ite_self]
    exact hreset

/-- A DOWN port is contained, and its link disabled. -/
theorem containNow_downPort (hcls : r.cls = .fd) (bySw : Bool) {p : Nat} (hrole : s.role p = roleDOWN) :
    Contained s ((containNow (.port p) r bySw).run s) (.port p) bySw ∧ ((containNow (.port p) r bySw).run s).link p = lsDISABLED ∧
      Out.linkDisabled p ∈ ((containNow (.port p) r bySw).run s).out := by
  have := Upd.keeps_fact
  have htw : s.twins (.port p) = [.port p] := by simp [State.twins, hrole, roleDOWN, roleUP]
  obtain ⟨u, hu⟩ : ∃ u, u = (containEntry (.port p) r bySw).run s := ⟨_, rfl⟩
  have hfact : Fact u.wf := hu ▸ this _ _
  have hent : (containEntry (.port p) r bySw).In (Foot.enterState.and (Foot.error .guard |>.and (Foot.log.and Foot.dropHeld))) :=
    all_cons_in (enterState_in (by decide +kernel) _ _ _ _ _) <| all_cons_in (addCnt_in (pg := .guard 0) rfl (by decide +kernel) _ 1) <|
      all_cons_in (logRec_in (by decide +kernel) _) <| all_cons_in (dropHeld_in (by decide +kernel) _) all_nil_in
  have hrole' : u.role p = roleDOWN := by
    rw [hu, State.role, rd_of_in hent (own_mem (show _ ∈ tabPORT by decide)) (show (Fam.port, _) ∉ _ by decide +kernel)]
    exact hrole
  have hact : (actOn (.port p)).run u = (all [closeOff p true, linkTo p lsDISABLED, emit (.linkDisabled p)]).run u := by
    simp [actOn, hrole']
  refine ⟨containNow_contained htw hcls (show 1 < 9 by decide) ?_ fun t ht => ?_, ?_, ?_⟩
  · exact dropHeld_guardStays (show 1 < 9 by decide) _
  · obtain rfl : t = u := ht.trans hu.symm
    rw [hact]
    exact portCut_guardStays (show 1 < 9 by decide) p t hfact.out
  · have hlost := forEach_in (l := s.feidsOf (.port p)) fun n => feidLost_in (Foot.le_refl _) false n
    rw [containNow_run htw hcls, ← hu, hact, State.link,
      rd_of_in hlost (own_mem (show _ ∈ tabPORT by decide)) (show (Fam.port, _) ∉ _ by decide +kernel)]
    simp only [all_cons_run, all_nil_run, emit_run_rd]
    exact (linkTo_reaches (by decide) p).1
  · rw [containNow_run htw hcls, ← hu, hact]
    exact out_grows (List.mem_cons_self ..)

end

/-! ### DEVICE, merged requests and the power quiesce -/

/-- The DEVICE domain keeps its state. -/
def DeviceStays (s t : State) : Prop := t.domState .device = s.domState .device

theorem deviceStays_chains : Chains DeviceStays := ⟨fun _ => rfl, fun hst htu => Eq.trans htu hst⟩

theorem deviceStays_of_in {F : Foot} {u : Upd} (hu : u.In F) (hn : Foot.wgds.regs.all (fun q => !F.regs.contains q) = true) :
    u.Moves DeviceStays := fun s hw => by
  have : Fact s.wf := ⟨hw⟩
  rw [DeviceStays, domState_eq, domState_eq, gds_of_in hu hn (by decide)]

/-- A port's own domain, and a face's, have registers of their own. -/
theorem enterState_deviceStays {d : Dom} {s : State} (hw : s.wf) (hd : ∀ e ∈ s.twins d, domOff .device ≠ domOff e) (st : Nat) (cls : Cls)
    (bySw window : Bool) : DeviceStays s ((enterState d st cls bySw window).run s) := by
  have hR := deviceStays_chains
  have hwgds : ∀ (e : Dom), domOff .device ≠ domOff e → ∀ f ∈ gdsLane, ∀ v, (wgds e f v).Moves DeviceStays := fun e he f hf v t ht => by
    have : Fact t.wf := ⟨ht⟩
    rw [DeviceStays, domState_eq, domState_eq, gds_wgds_of_domOff_ne hf (by decide) he]
  exact (forEach_mem_moves hR fun e he => all_cons_moves hR (hwgds e (hd e he) _ (by decide) _) <|
    all_cons_moves hR (hwgds e (hd e he) _ (by decide) _) <| all_cons_moves hR (hwgds e (hd e he) _ (by decide) _) <|
    all_cons_moves hR (hwgds e (hd e he) _ (by decide) _) <| all_cons_moves hR (hwgds e (hd e he) _ (by decide) _) (all_nil_moves hR)) s hw

theorem containPorts_deviceStays (cls : Cls) : (containPorts cls).Moves DeviceStays := by
  have hR := deviceStays_chains
  have hport : ∀ (s t : State) p, ∀ e ∈ t.twins (s.portDom p), domOff .device ≠ domOff e := fun s t p e he => by
    rcases portDom_cases (s := s) p with hp | hp <;> rw [hp] at he <;> simp only [State.twins] at he
    · rw [List.mem_singleton.1 he]
      simp [domOff]
    · split at he
      · rcases List.mem_cons.1 he with rfl | hface
        · simp [domOff]
        · obtain ⟨f, -, rfl⟩ : ∃ f, t.faceOf p = some f ∧ .face f = e := by simpa using hface
          simp [domOff]
      · rw [List.mem_singleton.1 he]
        simp [domOff]
  exact look_moves fun s => forEach_moves hR fun p => all_cons_moves hR (fun t hw => enterState_deviceStays hw (hport s t p) _ _ _ _) <|
    all_cons_moves hR (deviceStays_of_in (forEach_in fun d => dropHeld_in (Foot.le_refl _) d) (by decide +kernel)) <|
    all_cons_moves hR (deviceStays_of_in (egressDiscard_in (Foot.le_refl _) p false) (by decide +kernel)) <|
    all_cons_moves hR (deviceStays_of_in (answerForwarded_in (Foot.le_refl _) p) (by decide +kernel)) <|
    all_cons_moves hR (deviceStays_of_in (F := { vars := [.portFenced], parts := [.out] }) (when_in <| all_cons_in (put_in (by decide)) <|
      all_cons_in (forSome_in fun f => emit_in (by decide)) all_nil_in) (by decide +kernel)) <|
    all_cons_moves hR (deviceStays_of_in (forEach_in fun n => feidLost_in (Foot.le_refl _) false n) (by decide +kernel)) (all_nil_moves hR)

theorem safeHaltNow_deviceStays (cause block dinst bit : Nat) : (safeHaltNow cause block dinst bit).Moves DeviceStays := by
  have hR := deviceStays_chains
  have hmem : ∀ x ∈ [Fld.GUARD_HALT_CAUSE_VALID, .GUARD_HALT_CAUSE_CAUSE, .GUARD_HALT_CAUSE_BLOCK, .GUARD_HALT_CAUSE_DINST,
      .GUARD_HALT_CAUSE_BIT], x ∈ tabGUARD0 := by decide
  have hwr : ∀ x ∈ [Fld.GUARD_HALT_CAUSE_VALID, .GUARD_HALT_CAUSE_CAUSE, .GUARD_HALT_CAUSE_BLOCK, .GUARD_HALT_CAUSE_DINST,
      .GUARD_HALT_CAUSE_BIT], ∀ v, (wr (.guard 0) x v).Moves DeviceStays := fun x hx v =>
    deviceStays_of_in (F := { regs := onFam .guard [.GUARD_HALT_CAUSE_VALID, .GUARD_HALT_CAUSE_CAUSE, .GUARD_HALT_CAUSE_BLOCK,
      .GUARD_HALT_CAUSE_DINST, .GUARD_HALT_CAUSE_BIT] }) (wr_in (own_mem (hmem x hx)) (List.mem_map_of_mem hx)) (by decide +kernel)
  exact look_moves fun s => when_moves hR <|
    all_cons_moves hR (deviceStays_of_in (F := { regs := [(Fam.glb, .GLB_DEV_STATE_STATE)] })
      (wr_in (by decide) (by decide)) (by decide +kernel)) <|
    all_cons_moves hR (containPorts_deviceStays _) <|
    all_cons_moves hR (deviceStays_of_in (forEach_in fun p => linkTo_in (Foot.le_refl _) p _) (by decide +kernel)) <|
    all_cons_moves hR (deviceStays_of_in (F := { vars := [.haltRel] }) (put_in (by decide)) (by decide +kernel)) <|
    all_cons_moves hR (deviceStays_of_in (disarmAll_in (Foot.le_refl _)) (by decide +kernel)) <|
    all_cons_moves hR (hwr _ (by decide) _) <| all_cons_moves hR (hwr _ (by decide) _) <| all_cons_moves hR (hwr _ (by decide) _) <|
    all_cons_moves hR (hwr _ (by decide) _) <| all_cons_moves hR (hwr _ (by decide) _) <|
    all_cons_moves hR (deviceStays_of_in (logRec_in (Foot.le_refl _) _) (by decide +kernel)) <|
    all_cons_moves hR (deviceStays_of_in (bump_in (pg := .guard 0) (i := 15) rfl (Foot.le_refl _)) (by decide +kernel)) (all_nil_moves hR)

section
variable {s : State} {r : GReq}

theorem handleFor_containsDevice (hcon : s.consequential r .device = false) (hwin : s.gds .device .GDS_LANE_WINDOW = 0)
    (hhold : s.holder? .device = none) (bySw : Bool) : (handleFor .device r bySw).run s = (containDevice r bySw).run s := by
  simp [handleFor, look_run, hcon, hwin, hhold]

variable [h : Fact s.wf]

omit h in
theorem containDevice_run (r : GReq) (bySw : Bool) : (containDevice r bySw).run s =
    (if s.on (.guard 0) .GUARD_POLICY_DEV_RESET = true then put .devReset 1 else safeHaltNow hcDEVICE r.block 0 r.bit).run
      ((all [bump (.guard 0) 5, logRec (reqRec r Rec.CONTAIN (some .device)), containPorts r.cls,
        forEach (allBelow 96 fun p => s.role p != 0) fun p => linkTo p (if s.isFab p then lsCONTAINED else lsDISABLED)]).run
          ((enterState .device gdCONTAINED r.cls bySw true).run s)) := rfl

/-- A DEVICE containment contains every port, and then resets the part or halts it (R616). -/
theorem containDevice_enters (r : GReq) (bySw : Bool) : ∃ u : State, Fact u.wf ∧
    (containDevice r bySw).run s = (if s.on (.guard 0) .GUARD_POLICY_DEV_RESET = true then put .devReset 1
      else safeHaltNow hcDEVICE r.block 0 r.bit).run u ∧ u.domState .device = gdCONTAINED ∧ u.safeHalt = s.safeHalt := by
  have := Upd.keeps_fact
  have hR := deviceStays_chains
  have hent := enterState_in (Foot.le_refl _) .device gdCONTAINED r.cls bySw true
  have hlog := fun x => logRec_in (Foot.le_refl _) x
  have hports := containPorts_in (Foot.le_refl _) r.cls
  have hlinks : (forEach (allBelow 96 fun p => s.role p != 0) fun p => linkTo p (if s.isFab p then lsCONTAINED else lsDISABLED)).In _ :=
    forEach_in fun p => linkTo_in (Foot.le_refl _) p _
  have hbump := bump_in (pg := .guard 0) (i := 5) rfl (Foot.le_refl _)
  have hstays : ∀ x, (all [bump (.guard 0) 5, logRec x, containPorts r.cls, forEach (allBelow 96 fun p => s.role p != 0) fun p =>
      linkTo p (if s.isFab p then lsCONTAINED else lsDISABLED)]).Moves DeviceStays := fun x =>
    all_cons_moves hR (deviceStays_of_in hbump (by decide +kernel)) <| all_cons_moves hR (deviceStays_of_in (hlog x) (by decide +kernel)) <|
      all_cons_moves hR (containPorts_deviceStays _) <| all_cons_moves hR (deviceStays_of_in hlinks (by decide +kernel)) (all_nil_moves hR)
  have henters : ((enterState .device gdCONTAINED r.cls bySw true).run s).domState .device = gdCONTAINED := by
    have htw : s.twins .device = [.device] := rfl
    rw [domState_eq, enterState, look_run, htw]
    simp +decide
  refine ⟨_, ?_, containDevice_run r bySw, ?_, ?_⟩
  · exact this _ _
  · exact (hstays _ _ (this _ _).out).trans henters
  · simp only [all_cons_run, all_nil_run, State.safeHalt]
    rw [rd_of_in hlinks (by decide) (by decide +kernel), rd_of_in hports (by decide) (by decide +kernel), rd_of_in (hlog _) (by decide) (by decide),
      rd_of_in hbump (by decide) (by decide), rd_of_in hent (by decide) (by decide +kernel)]

omit h in
/-- A domain and its twin have registers of their own. -/
theorem twins_apart {e b : Dom} (hb : b ∈ s.twins e) : b = e ∨ domOff e ≠ domOff b := by
  cases e with
  | port p =>
    simp only [State.twins] at hb
    split at hb
    · refine (List.mem_cons.1 hb).imp id fun hface => ?_
      obtain ⟨f, -, rfl⟩ : ∃ f, s.faceOf p = some f ∧ .face f = b := by simpa using hface
      simp [domOff]
    · exact .inl (List.mem_singleton.1 hb)
  | face f =>
    simp only [State.twins] at hb
    split at hb
    · refine (List.mem_cons.1 hb).imp id fun hport => ?_
      rw [List.mem_singleton.1 hport]
      simp [domOff]
    · exact .inl (List.mem_singleton.1 hb)
  | _ => exact .inl (List.mem_singleton.1 hb)

/-- A merged request counts on the domain that holds it, and on GUARD. -/
theorem mergeInto_merges (e d : Dom) (hcls : r.cls ≠ .fd) :
    ((mergeInto e d r true).run s).gds e .GDS_LANE_MERGED = min 65535 (s.gds e .GDS_LANE_MERGED + 1) ∧
      ((mergeInto e d r true).run s).domState e = s.domState e ∧
      ((mergeInto e d r true).run s).cnt (.guard 0) 8 = min (s.cnt (.guard 0) 8 + 1) cntMax ∧
      ((mergeInto e d r true).run s).safeHalt = s.safeHalt := by
  have := Upd.keeps_fact
  have hlog := logRec_in (Foot.le_refl _) (reqRec r Rec.ERROR (some d))
  have hbump := bump_in (pg := .guard 0) (i := 8) rfl (Foot.le_refl _)
  have hfd : (true && r.cls == .fd) = false := by simpa using hcls
  have hround : ∀ b, ∀ t : State, (all [wgds b .GDS_LANE_MERGED (min 65535 (s.gds b .GDS_LANE_MERGED + 1)),
      when_ (true && r.cls == .fd) (wgds b .GDS_LANE_CLASS Cls.fd.code)]).run t =
      (wgds b .GDS_LANE_MERGED (min 65535 (s.gds b .GDS_LANE_MERGED + 1))).run t := fun b t => by
    simp only [all_cons_run, all_nil_run, hfd, when_false_run]
  have hloop : (forEach (s.twins e) fun b => all [wgds b .GDS_LANE_MERGED (min 65535 (s.gds b .GDS_LANE_MERGED + 1)),
      when_ (true && r.cls == .fd) (wgds b .GDS_LANE_CLASS Cls.fd.code)]).In Foot.wgds := forEach_in fun b =>
    all_cons_in (wgds_in (Foot.le_refl _) b (by decide) _) <| all_cons_in (when_in (wgds_in (Foot.le_refl _) b (by decide) _)) all_nil_in
  obtain ⟨u, hu⟩ : ∃ u, u = (forEach (s.twins e) fun b => all [wgds b .GDS_LANE_MERGED (min 65535 (s.gds b .GDS_LANE_MERGED + 1)),
      when_ (true && r.cls == .fd) (wgds b .GDS_LANE_CLASS Cls.fd.code)]).run s := ⟨_, rfl⟩
  have hfact : Fact u.wf := hu ▸ this _ _
  have hmerged : u.gds e .GDS_LANE_MERGED = min 65535 (s.gds e .GDS_LANE_MERGED + 1) := by
    rw [hu]
    refine forEach_sets (Q := fun t => t.gds e .GDS_LANE_MERGED = min 65535 (s.gds e .GDS_LANE_MERGED + 1)) (mem_twins e) (fun t _ => ?_)
      (fun b hb t _ ht => ?_) s
    · rw [hround, gds_wgds]
      exact Nat.mod_eq_of_lt (lt_of_le_of_lt (Nat.min_le_left ..) (by decide))
    · rw [hround]
      rcases twins_apart hb with rfl | hne
      · rw [gds_wgds]
        exact Nat.mod_eq_of_lt (lt_of_le_of_lt (Nat.min_le_left ..) (by decide))
      · rw [gds_wgds_of_domOff_ne (by decide) (by decide) hne, ht]
  have hstate : u.gds e .GDS_LANE_STATE = s.gds e .GDS_LANE_STATE := by
    rw [hu]
    refine forEach_keeps (P := fun t => t.gds e .GDS_LANE_STATE = s.gds e .GDS_LANE_STATE) (fun b _ t _ ht => ?_) s rfl
    rw [hround, gds_wgds_of_ne (by decide) (by decide) (by decide), ht]
  rw [mergeInto, look_run]
  simp only [all_cons_run, all_nil_run, ← hu, domState_eq]
  refine ⟨?_, ?_, ?_, ?_⟩
  · rw [gds_of_in hlog (by decide +kernel) (by decide), gds_of_in hbump (by decide +kernel) (by decide), hmerged]
  · rw [gds_of_in hlog (by decide +kernel) (by decide), gds_of_in hbump (by decide +kernel) (by decide), hstate]
  · rw [logRec_keepsCnt (by simp [Fam.of]) (by decide) _ _ (this _ _).out, bump_eq, cnt_addCnt rfl (by simp [Fam.of]), if_pos ⟨rfl, rfl⟩, hu,
      cnt_of_in hloop (by decide)]
  · rw [State.safeHalt, State.safeHalt, rd_of_in hlog (by decide) (by decide), rd_of_in hbump (by decide) (by decide), hu,
      rd_of_in hloop (by decide) (by decide +kernel)]

/-- The power quiesce of a DOWN port ends with its link disabled. -/
theorem quiesceEnds_disables {p : Nat} (hrole : s.role p = roleDOWN) (hquiet : s.domState (.port p) = gdQUIESCED)
    (hdis : s.link p ≠ lsDISABLED) (hdown : s.link p ≠ lsDOWN) : ((quiesceEnds p).run s).link p = lsDISABLED ∧
      (((quiesceEnds p).run s).out.contains (Out.linkDisabled p)) = true ∧ ((quiesceEnds p).run s).domState (.port p) = gdQUIESCED := by
  have := Upd.keeps_fact
  have hrole' : s.rd (.port p) .PORT_CFG_ROLE = roleDOWN := hrole
  have hdom : s.portDom p = .port p := by simp [State.portDom, hrole', roleDOWN, roleFAB]
  have hfab : s.isFab p = false := by simp [State.isFab, hrole, roleDOWN, roleFAB]
  rw [quiesceEnds, look_run, when_pos (by simp [hdom, hquiet, hdis, hdown])]
  simp only [all_cons_run, all_nil_run, hfab, Bool.false_eq_true, if_false]
  refine ⟨?_, ?_, ?_⟩
  · rw [State.link, emit_run_rd]
    exact (linkTo_reaches (by decide) p).1
  · exact List.contains_iff_mem.2 (List.mem_cons_self ..)
  · rw [domState_eq, gds_of_in (emit_in (F := { parts := [.out] }) (by decide)) (by decide +kernel) (by decide),
      gds_of_in (linkTo_in (Foot.le_refl _) p _) (by decide +kernel) (by decide),
      gds_of_in (closeOff_in (Foot.le_refl _) p false) (by decide +kernel) (by decide), ← domState_eq, hquiet]

end

/-- Which containment holds a VI depends on the domains, its face and its port. -/
theorem holder_inst_congr {s t : State} (hdom : ∀ d, t.domState d = s.domState d)
    (hrd : ∀ pg f i, f ∈ pg.fields → pg ≠ .guard 1 → f ∉ eventFields → t.rd pg f i = s.rd pg f i) (v : Nat) :
    t.holder? (.inst v) = s.holder? (.inst v) := by
  have hbound : t.bound? v = s.bound? v := by
    rw [State.bound?, State.on, hrd _ _ _ (own_mem (show _ ∈ tabINST2 by decide)) (by decide) (by decide)]
    rfl
  have hface : t.viFace v = s.viFace v := hrd _ _ _ (own_mem (show _ ∈ tabINST2 by decide)) (by decide) (by decide)
  have hport : ∀ f, t.facePort f = s.facePort f := fun f => hrd (.face f) _ _ (own_mem (show _ ∈ tabFACE by decide)) nofun (by decide)
  have hrole : ∀ p, t.role p = s.role p := fun p => hrd (.port p) _ _ (own_mem (show _ ∈ tabPORT by decide)) nofun (by decide)
  have hen : ∀ f, t.on (.face f) .FACE_BIND_ENABLE = s.on (.face f) .FACE_BIND_ENABLE := fun f => by
    rw [State.on, hrd (.face f) _ _ (own_mem (show _ ∈ tabFACE by decide)) nofun (by decide)]
    rfl
  have hof : ∀ p, t.faceOf p = s.faceOf p := fun p => by
    have hbind : ∀ f, t.rd (.face f) .FACE_BIND_PORT = s.rd (.face f) .FACE_BIND_PORT := hport
    simp only [State.faceOf, hen, hbind]
  have hforce : t.inForce = s.inForce := funext fun d => by simp only [State.inForce, State.contained, hdom]
  simp only [State.holder?, State.wider, State.twins, hbound, hface, hport, hrole, hof, hforce]

/-- CONTAINMENT_REQUEST takes the oldest request. -/
theorem gives_request {s : State} {r : GReq} {l : List GReq} {P : State → Prop} (hs : s.Awake) (hq : s.greqs = r :: l)
    (h : ∀ t : State, Fact t.wf → t = (modGreqs fun l => l.drop 1).run s → P ((handle r (r.block == 0x10)).run t)) :
    Gives .containmentRequest s P := by
  refine gives_awake hs rfl fun _ keeps => ?_
  have hrun := h _ (keeps _ _) rfl
  simp only [look_run, hq, all_cons_run, all_nil_run]
  exact hrun

/-- The same for a request of class NF or FD for a domain of this switch. -/
theorem gives_handled {s : State} {r : GReq} {l : List GReq} {P : State → Prop} (hs : s.Awake) (hq : s.greqs = r :: l)
    (hhalt : s.safeHalt = false) (hwarn : r.warn = false) (hcls : r.cls ≠ .halt) {d : Dom} (hdom : r.dom = .dom d)
    (h : ∀ t : State, Fact t.wf → t = (modGreqs fun l => l.drop 1).run s → P ((handleFor d r (r.block == 0x10)).run t)) :
    Gives .containmentRequest s P :=
  gives_request hs hq fun t hw ht => handle_run (s := t) (.inl hdom) (ht ▸ hhalt) hwarn hcls _ ▸ h t hw ht

section
variable {s : State} (hs : s.Awake)
include hs

theorem instance_contained (r : GReq) (l : List GReq) (i : ViId) (hq : s.greqs = r :: l) (hhalt : s.safeHalt = false) (hwarn :
    r.warn = false) (hcls : r.cls = .fd) (hdom : r.dom = .dom (.inst i)) (hcon : s.consequential r (.inst i) = false) (hwin :
    s.gds (.inst i) .GDS_LANE_WINDOW = 0) (hhold : s.holder? (.inst i) = none) (_hbound : s.bound? i = true) (_hreset :
    s.resetting i = false) : Gives (.containmentRequest) s fun t => t.domState (.inst i) = gdCONTAINED ∧ t.gds (.inst i)
    .GDS_LANE_CLASS = Cls.fd.code ∧ t.gds (.inst i) .GDS_LANE_WINDOW = 1 ∧ t.resetting i = true ∧ t.cnt (.guard 0) 3 = min
    (s.cnt (.guard 0) 3 + 1) cntMax := by
  refine gives_handled hs hq hhalt hwarn (by simp [hcls]) hdom fun t _ ht => ?_
  rw [handleFor_contains (s := t) (ht ▸ hcon) (ht ▸ hwin) (ht ▸ hhold) (by simp)]
  obtain ⟨hcont, hresets⟩ := containNow_inst (s := t) hcls (r.block == 0x10) i
  exact ⟨hcont.state, hcont.cls, hcont.window, hresets, ht ▸ hcont.count⟩

theorem port_contained (r : GReq) (l : List GReq) (p : PortId) (hq : s.greqs = r :: l) (hhalt : s.safeHalt = false) (hwarn :
    r.warn = false) (hcls : r.cls = .fd) (hdom : r.dom = .dom (.port p)) (hcon : s.consequential r (.port p) = false) (hrole :
    s.role p = roleDOWN) (hwin : s.gds (.port p) .GDS_LANE_WINDOW = 0) (hhold : s.holder? (.port p) = none) : Gives
    (.containmentRequest) s fun t => t.domState (.port p) = gdCONTAINED ∧ t.gds (.port p) .GDS_LANE_CLASS = Cls.fd.code ∧
    t.link p = lsDISABLED ∧ (t.out.contains (Out.linkDisabled p)) = true ∧ t.cnt (.guard 0) 1 = min (s.cnt (.guard 0) 1 + 1)
    cntMax := by
  refine gives_handled hs hq hhalt hwarn (by simp [hcls]) hdom fun t _ ht => ?_
  rw [handleFor_contains (s := t) (ht ▸ hcon) (ht ▸ hwin) (ht ▸ hhold) (by simp)]
  obtain ⟨hcont, hlink, hout⟩ := containNow_downPort (s := t) hcls (r.block == 0x10) (p := p) (ht ▸ hrole)
  exact ⟨hcont.state, hcont.cls, hlink, List.contains_iff_mem.2 hout, ht ▸ hcont.count⟩

theorem halt_halts (r : GReq) (l : List GReq) (hq : s.greqs = r :: l) (hhalt : s.safeHalt = false) (hwarn : r.warn = false)
    (hcls : r.cls = .halt) (hblock : r.block ≠ 3) : Gives (.containmentRequest) s fun t => t.safeHalt = true ∧ t.rd (.guard 0)
    .GUARD_HALT_CAUSE_CAUSE = hcHALT ∧ t.iv .haltRel = 0 := by
  refine gives_request hs hq fun t _ ht => ?_
  have hhalt' : t.safeHalt = false := ht ▸ hhalt
  have hlog := fun x => logRec_in (Foot.le_refl _) x
  have := Upd.keeps_fact
  have hfree : ∀ x, ((logRec x).run t).safeHalt = false := fun x => by
    rw [State.safeHalt, rd_of_in (hlog x) (by decide) (by decide)]
    exact hhalt'
  rw [handle, look_run, if_neg (by simp [hhalt']), if_neg (by simp [hwarn]), if_pos (by simp [hcls])]
  simp only [all_cons_run, all_nil_run]
  rw [if_neg (by simp [hblock]), if_neg (by simp [hblock])]
  obtain ⟨hhalts, hhigh, hcause, -⟩ := safeHaltNow_halts (hfree _) hcHALT r.block _ r.bit
  exact ⟨hhalts, hcause, hhigh⟩

theorem secondFault_halts (r : GReq) (l : List GReq) (i : ViId) (hq : s.greqs = r :: l) (hhalt : s.safeHalt = false) (hwarn :
    r.warn = false) (hcls : r.cls = .nf) (hdom : r.dom = .dom (.inst i)) (hcon : s.consequential r (.inst i) = false) (hwin :
    s.gds (.inst i) .GDS_LANE_WINDOW = 1) : Gives (.containmentRequest) s fun t => t.safeHalt = true ∧ t.rd (.guard 0)
    .GUARD_HALT_CAUSE_CAUSE = hcSECOND_FAULT ∧ (t.rd (.guard 0) .ERR_STICKY_BITS).testBit Err.GUARD_SECOND_FAULT.bit = true :=
    by
  refine gives_handled hs hq hhalt hwarn (by simp [hcls]) hdom fun t _ ht => ?_
  have := Upd.keeps_fact
  have hlog := fun x => logRec_in (Foot.le_refl _) x
  have hrun : (handleFor (.inst i) r (r.block == 0x10)).run t = (secondFault (.inst i) r).run t := by
    have hcon' : t.consequential r (.inst i) = false := ht ▸ hcon
    have hwin' : t.gds (.inst i) .GDS_LANE_WINDOW = 1 := ht ▸ hwin
    simp [handleFor, look_run, hcon', hwin']
  obtain ⟨u, hu⟩ : ∃ u, u = (modGreqs fun l => l.dropLast).run ((raise (.guard 0) .GUARD_SECOND_FAULT).run
    ((logRec (reqRec r Rec.ERROR (some (.inst i)))).run t)) := ⟨_, rfl⟩
  have hfact : Fact u.wf := hu ▸ this _ _
  have hfree : u.safeHalt = false := by
    have hhalt' : t.safeHalt = false := ht ▸ hhalt
    rw [hu, State.safeHalt]
    simpa +decide [rd_of_in (hlog _), State.safeHalt] using hhalt'
  have hset : u.sticks (.guard 0) Err.GUARD_SECOND_FAULT.bit := by
    rw [hu, State.sticks]
    simp +decide
  obtain ⟨hhalts, -, hcause, -⟩ := safeHaltNow_halts hfree hcSECOND_FAULT r.block (domInst (.inst i)) r.bit
  have hstays := safeHaltNow_guardStays (i := 0) (by decide) hcSECOND_FAULT r.block (domInst (.inst i)) r.bit u hfact.out
  rw [hrun, secondFault]
  simp only [all_cons_run, all_nil_run, ← hu]
  exact ⟨hhalts, hcause, hstays.2 _ hset⟩

theorem request_merges (r : GReq) (l : List GReq) (i : ViId) (e : Dom) (hq : s.greqs = r :: l) (hhalt : s.safeHalt = false)
    (hwarn : r.warn = false) (hcls : r.cls = .nf) (hdom : r.dom = .dom (.inst i)) (hcon : s.consequential r (.inst i) = false)
    (hwin : s.gds (.inst i) .GDS_LANE_WINDOW = 0) (hhold : s.holder? (.inst i) = some e) : Gives (.containmentRequest) s fun t
    => t.gds e .GDS_LANE_MERGED = min 65535 (s.gds e .GDS_LANE_MERGED + 1) ∧ t.domState e = s.domState e ∧ t.cnt (.guard 0) 8
    = min (s.cnt (.guard 0) 8 + 1) cntMax ∧ t.safeHalt = false := by
  refine gives_handled hs hq hhalt hwarn (by simp [hcls]) hdom fun t _ ht => ?_
  have hrun : (handleFor (.inst i) r (r.block == 0x10)).run t = (mergeInto e (.inst i) r true).run t := by
    have hcon' : t.consequential r (.inst i) = false := ht ▸ hcon
    have hwin' : t.gds (.inst i) .GDS_LANE_WINDOW = 0 := ht ▸ hwin
    have hhold' : t.holder? (.inst i) = some e := ht ▸ hhold
    simp [handleFor, look_run, hcon', hwin', hhold']
  obtain ⟨hmerged, hstate, hcount, hfree⟩ := mergeInto_merges (s := t) e (.inst i) (r := r) (by simp [hcls])
  rw [hrun, hmerged, hstate, hcount, hfree, ht]
  exact ⟨rfl, rfl, rfl, hhalt⟩

theorem device_contained (r : GReq) (l : List GReq) (hq : s.greqs = r :: l) (hhalt : s.safeHalt = false) (hwarn : r.warn =
    false) (hcls : r.cls = .fd) (hdom : r.dom = .dom .device) (hcon : s.consequential r .device = false) (hwin : s.gds .device
    .GDS_LANE_WINDOW = 0) (hhold : s.holder? .device = none) (hpol : s.on (.guard 0) .GUARD_POLICY_DEV_RESET = true) : Gives
    (.containmentRequest) s fun t => t.domState .device = gdCONTAINED ∧ t.iv .devReset = 1 ∧ t.safeHalt = false := by
  refine gives_handled hs hq hhalt hwarn (by simp [hcls]) hdom fun t _ ht => ?_
  have hpol' : t.on (.guard 0) .GUARD_POLICY_DEV_RESET = true := ht ▸ hpol
  obtain ⟨u, hfact, hu, hstate, hfree⟩ := containDevice_enters (s := t) r (r.block == 0x10)
  rw [handleFor_containsDevice (s := t) (ht ▸ hcon) (ht ▸ hwin) (ht ▸ hhold), hu, hpol', if_pos rfl]
  refine ⟨?_, by rw [iv_put, if_pos ⟨rfl, rfl⟩], ?_⟩
  · rw [domState_eq] at hstate ⊢
    exact hstate
  · rw [State.safeHalt, put_run_rd]
    exact hfree.trans (ht ▸ hhalt)

theorem device_halts (r : GReq) (l : List GReq) (hq : s.greqs = r :: l) (hhalt : s.safeHalt = false) (hwarn : r.warn = false)
    (hcls : r.cls = .fd) (hdom : r.dom = .dom .device) (hcon : s.consequential r .device = false) (hwin : s.gds .device
    .GDS_LANE_WINDOW = 0) (hhold : s.holder? .device = none) (hpol : s.on (.guard 0) .GUARD_POLICY_DEV_RESET = false) : Gives
    (.containmentRequest) s fun t => t.domState .device = gdCONTAINED ∧ t.safeHalt = true ∧ t.rd (.guard 0)
    .GUARD_HALT_CAUSE_CAUSE = hcDEVICE := by
  refine gives_handled hs hq hhalt hwarn (by simp [hcls]) hdom fun t _ ht => ?_
  have hpol' : t.on (.guard 0) .GUARD_POLICY_DEV_RESET = false := ht ▸ hpol
  obtain ⟨u, hfact, hu, hstate, hfree⟩ := containDevice_enters (s := t) r (r.block == 0x10)
  obtain ⟨hhalts, -, hcause, -⟩ := safeHaltNow_halts (s := u) (hfree.trans (ht ▸ hhalt)) hcDEVICE r.block 0 r.bit
  rw [handleFor_containsDevice (s := t) (ht ▸ hcon) (ht ▸ hwin) (ht ▸ hhold), hu, hpol', if_neg (by simp)]
  exact ⟨(safeHaltNow_deviceStays _ _ _ _ u hfact.out).trans hstate, hhalts, hcause⟩

theorem port_quiesced (r : GReq) (l : List GReq) (p : PortId) (hq : s.greqs = r :: l) (hhalt : s.safeHalt = false) (hwarn :
    r.warn = true) (hdom : r.dom = .dom (.port p)) (hrole : s.role p = roleDOWN) (hnone : s.domState (.port p) = gdNONE) :
    Gives (.containmentRequest) s fun t => t.domState (.port p) = gdQUIESCED ∧ t.on (.port p) .BLK_CTRL_QUIESCE = true ∧ t.cnt
    (.guard 0) 11 = min (s.cnt (.guard 0) 11 + 1) cntMax := by
  refine gives_request hs hq fun t _ ht => ?_
  have hhalt' : t.safeHalt = false := ht ▸ hhalt
  have hport : t.portDom p = .port p := by
    have hrole' : t.rd (.port p) .PORT_CFG_ROLE = roleDOWN := ht ▸ hrole
    simp [State.portDom, hrole', roleDOWN, roleFAB]
  obtain ⟨hstate, hquiesce, hcount⟩ := powerQuiesce_quiesces (s := t) (p := p) (by rw [hport]; exact ht ▸ hnone) r
  rw [hport] at hstate
  rw [handle, look_run, if_neg (by simp [hhalt']), if_pos hwarn, hdom]
  exact ⟨hstate, by rw [State.on, hquiesce]; rfl, ht ▸ hcount⟩

theorem quiesce_drained (p : PortId) (hrole : s.role p = roleDOWN) (hquiet : s.domState (.port p) = gdQUIESCED) (hdis : s.link
    p ≠ lsDISABLED) (hdown : s.link p ≠ lsDOWN) (hidle : s.portIdle p = true) : Gives (.powerQuiesceDrained p) s fun t =>
    t.link p = lsDISABLED ∧ (t.out.contains (Out.linkDisabled p)) = true ∧ t.domState (.port p) = gdQUIESCED := by
  refine gives_awake hs rfl fun _ _ => ?_
  rw [look_run, when_pos hidle]
  exact quiesceEnds_disables hrole hquiet hdis hdown

theorem quiesce_expired (p : PortId) (hrole : s.role p = roleDOWN) (hquiet : s.domState (.port p) = gdQUIESCED) (hdis : s.link
    p ≠ lsDISABLED) (hdown : s.link p ≠ lsDOWN) : Gives (.quiesceUsExpiry p) s fun t => t.link p = lsDISABLED ∧
    (t.out.contains (Out.linkDisabled p)) = true ∧ t.domState (.port p) = gdQUIESCED := by
  exact gives_awake hs rfl fun _ _ => quiesceEnds_disables hrole hquiet hdis hdown

theorem software_contains (st : Stamp) (i : ViId) (v : Word) (hlock : s.locked (.guard 1) = false) (hgo : v.getLsbD 31 = true)
    (hhalt : s.safeHalt = false) (hwin : s.gds (.inst i) .GDS_LANE_WINDOW = 0) (hhold : s.holder? (.inst i) = none) (hp :
    s.pathOpen st = true) : Gives (.domainContain st (.inst i) v) s fun t => t.domState (.inst i) = gdCONTAINED ∧ t.gds (.inst
    i) .GDS_LANE_CLASS = Cls.fd.code ∧ t.gds (.inst i) .GDS_LANE_WINDOW = 1 ∧ t.gds (.inst i) .GDS_LANE_BY_SW = 1 ∧ t.gds
    (.inst i) .GDS_LANE_HOLD = bits v.toNat 29 29 := by
  refine gives_awake hs rfl fun _ keeps => ?_
  obtain ⟨g, hg⟩ : ∃ g, g = (grant st (.guard 1)).run s := ⟨_, rfl⟩
  have hfact : Fact g.wf := hg ▸ keeps _ _
  have hsame : ∀ pg f j, g.rd pg f j = s.rd pg f j := fun pg f j => by rw [hg, grant_eq, put_run_rd]
  obtain ⟨u, hu⟩ : ∃ u, u = (wgds (.inst i) .GDS_LANE_HOLD (bits v.toNat 29 29)).run g := ⟨_, rfl⟩
  have hfact' : Fact u.wf := hu ▸ keeps _ _
  have hrd : ∀ pg f j, f ∈ pg.fields → pg ≠ .guard 1 → u.rd pg f j = s.rd pg f j := fun pg f j hf hne => by
    rw [hu, rd_wgds (by decide) hf hne, hsame]
  have hgds : ∀ d, ∀ f ∈ gdsLane, f ≠ .GDS_LANE_HOLD → u.gds d f = s.gds d f := fun d f hf hne => by
    rw [hu, gds_wgds_of_ne (by decide) hf hne]
    exact hsame _ _ _
  have hfree : u.safeHalt = false := by
    rw [State.safeHalt, hrd _ _ _ (by decide) (by decide)]
    exact hhalt
  have hhold' : u.holder? (.inst i) = none := by
    rw [holder_inst_congr (s := s) (fun d => by rw [domState_eq, domState_eq, hgds d _ (by decide) (by decide)])
      (fun pg f j hf hne _ => hrd pg f j hf hne)]
    exact hhold
  have hv : v.toNat.testBit 31 = true := by rwa [BitVec.testBit_toNat]
  rw [when_pos (by simp [domOk]), grantedPart, look_run, hlock, if_neg (by simp), granted_run hlock hp, gdsWrite]
  simp only [all_cons_run, all_nil_run, ← hg, ← hu, hv, Bool.not_true, Bool.and_false, when_true_run, when_false_run, containWrite]
  rw [handle_run (.inl rfl) hfree rfl (show Cls.fd ≠ Cls.halt by decide),
    handleFor_contains ?_ (by rw [hgds _ _ (by decide) (by decide), hwin]) hhold' (by simp)]
  · have hcont := fun (q : GReq) (hq : q.cls = .fd) => (containNow_inst (s := u) hq true i).1
    refine ⟨(hcont _ rfl).state, (hcont _ rfl).cls, (hcont _ rfl).window, (hcont _ rfl).bySw, (hcont _ rfl).hold.trans ?_⟩
    rw [hu, gds_wgds]
    exact Nat.mod_eq_of_lt (Nat.mod_lt _ (by decide))
  · simp [State.consequential]

theorem remote_contains (w : SwId) (b x : Fin 32) (n : Feid) (r : IdRoute) (i : ViId) (hhalt : s.safeHalt = false) (hroute :
    s.idRoute? s.live n.toNat = some r) (hlocal : r.isLocal = true) (hkind : r.kind = kindInst) (hrid : r.rid % 1024 = i)
    (hwin : s.gds (.inst i) .GDS_LANE_WINDOW = 0) (hhold : s.holder? (.inst i) = none) : Gives (.containReqReceived true w b x
    n) s fun t => t.domState (.inst i) = gdCONTAINED ∧ t.gds (.inst i) .GDS_LANE_CLASS = Cls.fd.code ∧ t.gds (.inst i)
    .GDS_LANE_WINDOW = 1 ∧ t.gds (.inst i) .GDS_LANE_BY_SW = 0 ∧ (t.rd (.guard 0) .ERR_STICKY_BITS).testBit
    Err.GUARD_REMOTE_REQ.bit = true := by
  refine gives_awake hs rfl fun _ keeps => ?_
  obtain ⟨u, hu⟩ : ∃ u, u = (raise (.guard 0) .GUARD_REMOTE_REQ).run s := ⟨_, rfl⟩
  have hfact : Fact u.wf := hu ▸ keeps _ _
  have hways : SameWays s u := hu ▸ sameWays_of_in (raise_in (pg := .guard 0) rfl (Foot.le_refl _) _) (by decide +kernel) (by decide) s
  have hfree : u.safeHalt = false := hways.safeHalt.trans hhalt
  have hdom : u.domOfFeid n.toNat = some (.inst i) := by
    rw [State.domOfFeid, hways.live, hways.idRoute?, hroute]
    simp [hlocal, hkind, hrid, kindInst, kindDevice]
  have hhold' : u.holder? (.inst i) = none := by
    rw [holder_inst_congr hways.domState (fun pg f j hf _ hne => hways.rd pg f hf hne j)]
    exact hhold
  have hwin' : u.gds (.inst i) .GDS_LANE_WINDOW = 0 := by
    rw [hu, gds_of_in (raise_in (pg := .guard 0) rfl (Foot.le_refl _) _) (by decide +kernel) (by decide), hwin]
  have hset : u.sticks (.guard 0) Err.GUARD_REMOTE_REQ.bit := by
    rw [hu, State.sticks]
    simp +decide
  rw [look_run, when_pos (by simp [hroute, hlocal])]
  simp only [all_cons_run, all_nil_run, ← hu, if_true]
  rw [handle_run (.inr ⟨_, rfl, hdom⟩) hfree rfl (show Cls.fd ≠ Cls.halt by decide), handleFor_contains ?_ hwin' hhold' (by simp)]
  · have hcont := fun (q : GReq) (hq : q.cls = .fd) => (containNow_inst (s := u) hq false i).1
    exact ⟨(hcont _ rfl).state, (hcont _ rfl).cls, (hcont _ rfl).window, (hcont _ rfl).bySw, (hcont _ rfl).sticks _ hset⟩
  · simp [State.consequential]

end

/-- Settles O28: one lemma for each kind of request, from what a containment leaves of GUARD's counters and bits. -/
theorem containmentCompletes : Obligations.ContainmentCompletes := by
  intro s hs
  exact ⟨instance_contained hs, port_contained hs, halt_halts hs, secondFault_halts hs, request_merges hs, device_contained
    hs, device_halts hs, port_quiesced hs, quiesce_drained hs, quiesce_expired hs, software_contains hs, remote_contains hs⟩

end Sys2Proof.Machine
end
